-- ==== Sys2Proof/Word.lean ====
section
/-! DEFINITION. The word types, the two dies, the requesters of the device, and sparse tables in canonical form. -/

namespace Sys2Proof

/-- A 64-bit register or memory word. -/
abbrev W64 := BitVec 64
/-- A 32-bit word. -/
abbrev W32 := BitVec 32
/-- One byte. -/
abbrev Byte := BitVec 8
/-- A fabric endpoint address: group in [23:12], router in [11:6], endpoint in [5:0] (12_routing.md R373). -/
abbrev Fea := BitVec 24
/-- A packet sequence number, modulo 2^32 (10_transport.md R311). -/
abbrev Psn := BitVec 32

/-- The two fabric dies (01_anatomy.md R8). -/
inductive Die where
  | a | b
  deriving DecidableEq, Repr

/-- The other die. -/
def Die.other : Die → Die
  | .a => .b
  | .b => .a

/-- Die number: 0 for die A, 1 for die B (03_register_model.md R85, field INSTANCE). -/
def Die.num : Die → Nat
  | .a => 0
  | .b => 1

/-- Base of the die's window in PF BAR0 (03_register_model.md R69). -/
def Die.base : Die → Nat
  | .a => 0
  | .b => 0x4000000

/-- The die of host port `h`: HP0 and HP1 on die A, HP2 and HP3 on die B (01_anatomy.md R8). -/
def hpDie (h : Fin 4) : Die := if h.val < 2 then .a else .b

/-- One value for each die. -/
structure Pair (α : Type) where
  a : α
  b : α
  deriving DecidableEq, Repr

def Pair.get {α : Type} (p : Pair α) : Die → α
  | .a => p.a
  | .b => p.b

def Pair.set {α : Type} (p : Pair α) (d : Die) (x : α) : Pair α :=
  match d with
  | .a => { p with a := x }
  | .b => { p with b := x }

/-- A PCIe function of a host port (03_register_model.md R88, field REQUESTER): function 0 is the PF, 1 to 255 are VFs. -/
structure Fn where
  hp : Fin 4
  fn : Fin 256
  deriving DecidableEq, Repr

/-- The number of a function: host port times 256 plus function number. -/
def Fn.id (f : Fn) : Nat := f.hp.val * 256 + f.fn.val

/-- Who makes a register access or issues a command (03_register_model.md R80, R88; 02_structure_image.md R54):
a function, the SVC's own firmware, or the SVC acting for an out-of-band or an MGT requester. -/
inductive Requester where
  | fn (f : Fn)
  | svc
  | oob
  | mgt
  deriving DecidableEq, Repr

/-- A sparse table: pairs of a key and a value, the keys strictly rising. -/
abbrev Tbl (α : Type) := List (Nat × α)

/-- `n` in little-endian bytes, `k` of them. -/
def leBytes : Nat → Nat → List Byte
  | 0, _ => []
  | k + 1, n => BitVec.ofNat 8 n :: leBytes k (n / 256)

/-- The number that little-endian bytes spell. -/
def leNat : List Byte → Nat
  | [] => 0
  | b :: bs => b.toNat + 256 * leNat bs

/-- Integer ceiling division. -/
def ceilDiv (a b : Nat) : Nat := (a + b - 1) / b

/-- Bits `lo` to `lo + w - 1` of a natural number. -/
def bitsOf (n lo w : Nat) : Nat := n / 2 ^ lo % 2 ^ w

/-- Bit `i` of a natural number. -/
def bitOf (n i : Nat) : Bool := n / 2 ^ i % 2 == 1

/-- A truth value as a register bit. -/
def b2n (b : Bool) : Nat := if b then 1 else 0

end Sys2Proof
end

