-- ==== Sys2Proof/Syntax.lean ====
section
/-! DEFINITION. The commands of the block: one constructor for each row of the opcode table, with the row's operands. -/

namespace Sys2Proof

/-- Kinds of atomic operation (05_host_ports.md R123; 09_remote_access.md R265). -/
inductive AtomicKind where
  | fadd | swap | cas | smin | smax | umin | umax
  deriving DecidableEq, Repr

/-- A record of a context block (06_work_queues.md R161). -/
inductive RecordKind where
  | queue (k : Fin 8)
  | ring (r : Fin 4)
  | counter (c : Fin 16)
  deriving DecidableEq, Repr

/-- What returns of a queue's index read (06_work_queues.md R166, R608): PRODUCER; a poisoned record; or only slots of the ring. -/
inductive IndexRet where
  | record (producer : W32)
  | poisoned
  | slotsOnly
  deriving DecidableEq, Repr

/-- Where a packet waits (12_routing.md R400): at a crossbar input, by its input VC, or in an output's staging buffer. -/
inductive HoldAt where
  | input (k : Fin 2560)
  | staging (port : Fin 80)
  deriving DecidableEq, Repr

/-- How CLOSE and OPEN reach the device (04_polders.md R113, R115): by PT_CMD of a die, or from the SVC for a polder. -/
inductive PtVia where
  | pt (rq : Requester) (d : Die)
  | svc (id : BitVec 20)
  deriving DecidableEq, Repr

/-- The bank that holds a row of an array, where the array has banks (16_faults.md R509, R510). -/
inductive RowBank where
  | none
  | structure_ (k : Fin 32)
  | wqu (cache : Fin 3) (k : Fin 16)
  | basin (k : Fin 64)
  | replay (k : Fin 64)
  deriving DecidableEq, Repr

/-- Where a payload unit is found uncorrectable (01_anatomy.md R33; 16_faults.md R502): the oldest packet in an input VC's storage, in an
injection buffer, in the staging buffer of a port of the switch core, in a port's replay buffer, held for order by a transport context, an
unexpected message of a queue, or a slot in the prefetch cache. -/
inductive PayloadPlace where
  | basin (k : Fin 2560)
  | injection (k : Fin 256)
  | staging (port : Fin 80)
  | replay (port : Fin 64)
  | reorder (context : BitVec 21)
  | unexpected (f : Fn) (q : Fin 128) (k : Fin 8) (asn : BitVec 32)
  | prefetch (f : Fn) (q : Fin 128) (k : Fin 8) (slot : BitVec 32)
  deriving DecidableEq, Repr

/-- What the fault manager evaluates (16_faults.md R501 to R503): a resource by its counters, or an error that its unit reports. -/
inductive FaultObs where
  | lane (d : Die) (n : Fin 64)
  | port (d : Die) (i : Fin 64)
  | module (m : Fin 16)
  | nocLink (d : Die) (stop : Fin 64) (dir : Fin 4)
  /-- A correction, or an uncorrectable error, at a row of an array. -/
  | row (d : Die) (array : BitVec 8) (row : BitVec 24) (uncorrectable : Bool) (bank : RowBank)
  | engine (n : Fin 128)
  /-- The QDU's slot errors; or an uncorrectable error in its control state. -/
  | qdu (d : Die) (control : Bool)
  /-- Symbols corrected at a row of a stack; or sectors of it that were uncorrectable on both reads, by device address. -/
  | hbmRow (d : Die) (index : BitVec 32) (symbols : Nat) (lost : List (BitVec 40))
  | hostPort (h : Fin 4)
  /-- A die's PWC reports an uncorrectable error in state without a spare and a second copy (R500). -/
  | die (d : Die)
  /-- An uncorrectable payload unit (R502). -/
  | payload (d : Die) (p : PayloadPlace)
  /-- An uncorrectable copy of the polder table at a checker: of ejection at an internal port (0 to 7), or of stamping (R503). -/
  | polderCopy (d : Die) (checker : Fin 9)
  /-- A transport context's only copy is lost (R503). -/
  | context (d : Die) (i : BitVec 21)
  /-- A posted receive or an unexpected message of a queue is lost (R503). -/
  | matchState (f : Fn) (q : Fin 128) (k : Fin 8)
  /-- An uncorrectable error in a slot set of a member's segment (11_collectives.md R357, R364). -/
  | slotSet (d : Die) (member seg : BitVec 32)
  /-- An uncorrectable error in an on-chip entry of the TMU (08_matching.md R262). -/
  | matchEntry (d : Die)
  deriving DecidableEq, Repr

/-- An SPDM responder: the PF of a host port or its secondary function (05_host_ports.md R132), or the out-of-band port
(19_startup.md R581). -/
inductive RespPort where
  | port (h : Fin 4) (sec : Bool)
  | oob
  deriving DecidableEq, Repr

/-- How a management request reaches the SVC (19_startup.md R576, R580): as the message at the head of its receive queue, or as
a datagram's plaintext at the out-of-band port, with the secured session that carries it, if one does. -/
inductive MgtVia where
  | mgt
  | oob (session : Option W32) (msg : List Byte)
  deriving DecidableEq, Repr

/-- Where the writing of an image into the store is cut off (02_structure_image.md R51, R55, R56): `words` words of a step (0 to 3
for the steps 1 to 4) are written; then the next reads back as `read`, or, where there is none, power is lost or a reset comes. -/
structure StoreCut where
  step : Fin 4
  words : Nat
  read : Option W64
  deriving DecidableEq, Repr

/-- How a command on the persistent settings reaches the SVC: by the mailbox, or as a management request (19_startup.md R572, R575). -/
inductive SettingVia where
  | mailbox (rq : Requester)
  | request (via : MgtVia)
  deriving DecidableEq, Repr

/-- Blocks and pages that begin with a header (03_register_model.md R85). -/
inductive Blk where
  | dike | wqu | xlu | tmu | tru | qdu | rtb | swc | dmem | pcu | pwc
  | llu (i : Fin 64)
  | lne (n : Fin 64)
  deriving DecidableEq, Repr

/-- Groups of counters that one field clears: those of a block or page, or of a part of one. -/
inductive Counts where
  | blk (b : Blk)
  | rma | leaf | hag
  | privViolations | accessErrors | absentAccesses
  /-- HP_ERR of a host port's link, in its configuration space (05_host_ports.md R155). -/
  | hpErr (h : Fin 4) (one : Bool)
  deriving DecidableEq, Repr

/-- Capability structures of a function (05_host_ports.md R127). -/
inductive Cap where
  | pcie | aer | ats | acs | power | msix | ari | sriov | serial
  | dataLink | phys16 | phys32 | phys64 | phys128 | margining | flitLogging | device3
  | doe | ide | falanaur | cxlDevice | flexBus | registerLocator | gpf
  deriving DecidableEq, Repr

/-- Where a register lies: PF BAR0, a function's own page set at the start of its BAR0 or among the PF page sets, the DVSEC of a
host port's link, or another capability of a function in configuration space (03_register_model.md R69, R72; 05_host_ports.md R127,
R155). -/
inductive RegSpace where
  | bar0 (off : BitVec 27)
  | page (off : BitVec 20)
  | dvsec (h : Fin 4) (one : Bool) (off : BitVec 8)
  | config (c : Cap)
  deriving DecidableEq, Repr

/-- A read through BAR2: its bytes, and whether Relaxed Ordering or ID-Based Ordering is set (05_host_ports.md R123, R141). -/
structure BarRead where
  len : Nat
  ro : Bool
  deriving DecidableEq, Repr

/-- What a host's write carries beside its data: it is poisoned (05_host_ports.md R131); Relaxed Ordering or ID-Based Ordering is set
(R123, R141). -/
structure WriteAttr where
  poisoned : Bool
  ro : Bool
  deriving DecidableEq, Repr

/-- Data of a CXL.mem write, which may be poisoned (05_host_ports.md R131, R136). -/
structure BusData where
  bytes : List Byte
  poisoned : Bool
  deriving DecidableEq, Repr

/-- A line that a host writes back, which may be poisoned (05_host_ports.md R131, R152). -/
structure LineData where
  data : BitVec 512
  poisoned : Bool
  deriving DecidableEq, Repr

/-- What IDE_KM programs: a stream of the link, 0 for the link stream and 1 to 4 for the selective ones, and its key
(05_host_ports.md R133). -/
structure IdeKey where
  stream : Fin 5
  key : BitVec 256
  deriving DecidableEq, Repr

/-- The fields of QC_CMD that a command carries (06_work_queues.md R192). -/
structure QcArgs where
  target : Fin 8
  mask : BitVec 16
  deriving DecidableEq, Repr

/-- Temperatures of a fabric die's sensors, and of its stacks (20_package.md R602, R603). -/
structure DieTemps where
  sensors : List (BitVec 8)
  hbm : List (BitVec 8)
  deriving DecidableEq, Repr

/-- The commands. -/
inductive Instr where
  -- Registers and blocks (chapter 3)
  /-- REGISTER_WRITE (R73). -/
  | registerWrite (rq : Requester) (space : RegSpace) (size : Fin 17) (data : Option W64)
  /-- CTRL_ENABLE_WRITE (R85). -/
  | ctrlEnableWrite (rq : Requester) (d : Die) (b : Blk) (on : Bool)
  /-- STATUS_ENABLED_CLEARED (R87). -/
  | statusEnabledCleared (d : Die) (b : Blk)
  /-- COUNT_CLEAR (R120). -/
  | countClear (rq : Requester) (d : Die) (c : Counts)
  -- Image management (chapter 2)
  /-- TOKEN_ACQUIRE (R54). -/
  | tokenAcquire (rq : Requester)
  /-- TOKEN_RELEASE (R54). -/
  | tokenRelease (rq : Requester)
  /-- TOKEN_LEASE_EXPIRY (R54). -/
  | tokenLeaseExpiry
  /-- INSTALL (R55). -/
  | install (rq : Requester) (src : Fin 4) (host : List Byte) (stop : Option StoreCut)
  /-- APPLY (R47). -/
  | apply (rq : Requester) (src : Fin 4) (host : List Byte)
  /-- VERIFY (R66). -/
  | verify (rq : Requester) (src : Fin 4) (host : List Byte)
  /-- ENROL_KEY (R44). -/
  | enrolKey (rq : Requester) (src : Fin 4) (host : List Byte) (verified : Bool)
  /-- REVOKE_KEY (R44). -/
  | revokeKey (rq : Requester) (src : Fin 4) (host : List Byte) (verified : Bool)
  /-- RAISE_EPOCH (R45). -/
  | raiseEpoch (rq : Requester) (src : Fin 4) (host : List Byte) (verified : Bool)
  /-- SET_BOOT_POLICY (R66). -/
  | setBootPolicy (rq : Requester) (src : Fin 4) (arg : Fin 4) (host : List Byte) (verified : Bool)
  /-- QUIESCE_REQ (R46). -/
  | quiesceReq (rq : Requester)
  /-- QUIESCE_ENTERED (R46). -/
  | quiesceEntered
  /-- FEATURE_FLOOR_WRITE (R64). -/
  | featureFloorWrite (rq : Requester) (v : Fin 16)
  /-- STORE_SCRUB (R51). -/
  | storeScrub (corrected : List (BitVec 23)) (lost : List (BitVec 23))
  -- Device memory from a host (chapters 4 and 5)
  /-- BAR2_READ (R110). -/
  | bar2Read (f : Fn) (offset : BitVec 40) (r : BarRead)
  /-- BAR2_WRITE (R110). -/
  | bar2Write (f : Fn) (offset : BitVec 40) (data : List Byte) (w : WriteAttr)
  /-- HOST_ATOMICOP (R123). -/
  | hostAtomicop (f : Fn) (offset : BitVec 40) (kind : AtomicKind) (size : Nat) (a : BitVec 128) (b : BitVec 128)
  /-- HOLD_READ (R146). -/
  | holdRead (f : Fn) (offset : BitVec 40) (len : Nat)
  /-- HOLD_TIMEOUT (R146). -/
  | holdTimeout (f : Fn) (addr : BitVec 40)
  /-- HOLD_RECALL_TIMER (R149). -/
  | holdRecallTimer (addr : BitVec 40)
  -- Polders (chapter 4)
  /-- REGISTER (R118). -/
  | ptRegister (rq : Requester) (d : Die)
  /-- DEREGISTER (R118). -/
  | ptDeregister (rq : Requester) (d : Die)
  /-- CLOSE (R113). -/
  | ptClose (via : PtVia)
  /-- OPEN (R115). -/
  | ptOpen (via : PtVia)
  /-- BIND (R118). -/
  | ptBind (rq : Requester) (d : Die)
  /-- UNBIND (R118). -/
  | ptUnbind (rq : Requester) (d : Die)
  /-- SET_WINDOW (R110). -/
  | ptSetWindow (rq : Requester) (d : Die)
  /-- SET_ATTR (R118). -/
  | ptSetAttr (rq : Requester) (d : Die)
  /-- READ (R118). -/
  | ptRead (rq : Requester) (d : Die)
  -- Host ports, SPDM, IDE, coherence (chapter 5)
  /-- NUMVFS_WRITE (R125). -/
  | numvfsWrite (h : Fin 4) (n : BitVec 16)
  /-- FUNCTION_LEVEL_RESET (R181). -/
  | functionLevelReset (f : Fn)
  /-- PERST_N_ASSERTED (R568). -/
  | perstNAsserted (h : Fin 4)
  /-- PERST_N_DEASSERTED (R566). -/
  | perstNDeasserted (h : Fin 4)
  /-- HOST_LINK_DOWN (R126). -/
  | hostLinkDown (h : Fin 4) (one : Bool)
  /-- HOST_READ_COMPLETION (R131). -/
  | hostReadCompletion (tag : Nat) (data : List Byte) (poisoned : Bool)
  /-- HDM_COMMIT (R136). -/
  | hdmCommit (h : Fin 4)
  /-- MEMRD_SHARED (R152). -/
  | memrdShared (h : Fin 4) (addr : BitVec 40)
  /-- MEMRD_OWNERSHIP (R152). -/
  | memrdOwnership (h : Fin 4) (addr : BitVec 40)
  /-- MEMWR_WRITEBACK (R153). -/
  | memwrWriteback (h : Fin 4) (addr : BitVec 40) (w : LineData)
  /-- BIRSP (R151). -/
  | birsp (h : Fin 4) (addr : BitVec 40)
  /-- HAG_DWELL_EXPIRY (R153). -/
  | hagDwellExpiry (addr : BitVec 40)
  /-- GET_VERSION (R132). -/
  | getVersion (w : RespPort)
  /-- GET_CAPABILITIES (R132). -/
  | getCapabilities (w : RespPort)
  /-- NEGOTIATE_ALGORITHMS (R132). -/
  | negotiateAlgorithms (w : RespPort)
  /-- GET_DIGESTS (R132). -/
  | getDigests (w : RespPort)
  /-- GET_CERTIFICATE (R132). -/
  | getCertificate (w : RespPort) (slot : Fin 2)
  /-- CHALLENGE (R132). -/
  | challenge (w : RespPort) (nonce : BitVec 256)
  /-- GET_MEASUREMENTS (R132). -/
  | getMeasurements (w : RespPort)
  /-- KEY_EXCHANGE (R132). -/
  | keyExchange (w : RespPort) (id : W32)
  /-- FINISH (R132). -/
  | finish (w : RespPort) (id : W32) (x : BitVec 384) (y : BitVec 384)
  /-- HEARTBEAT (R132). -/
  | heartbeat (w : RespPort) (id : W32)
  /-- KEY_UPDATE (R132). -/
  | keyUpdate (w : RespPort) (id : W32)
  /-- END_SESSION (R132). -/
  | endSession (w : RespPort) (id : W32)
  /-- IDE_KM (R133). -/
  | ideKm (h : Fin 4) (sec : Bool) (id : W32) (k : IdeKey)
  /-- PTM_EXCHANGE (R560). -/
  | ptmExchange (h : Fin 4) (host : W64)
  -- Work queues (chapter 6)
  /-- DOORBELL (R168). -/
  | doorbell (f : Fn) (q : Fin 128) (k : Fin 8) (size : Nat)
  /-- CTR_ADD (R191). -/
  | ctrAdd (f : Fn) (q : Fin 128) (c : Fin 16) (value : W32)
  /-- RING_CONS_WRITE (R173). -/
  | ringConsWrite (f : Fn) (q : Fin 128) (r : Fin 4) (index : W32) (arm : Bool)
  /-- CONTEXT_ADDR_WRITE (R192). -/
  | contextAddrWrite (f : Fn) (q : Fin 128) (addr : W64)
  /-- FN_SETS_WRITE (R195). -/
  | fnSetsWrite (rq : Requester) (f : Fn) (sets : Byte)
  /-- CREATE_QUEUE (R193). -/
  | createQueue (f : Fn) (q : Fin 128) (c : QcArgs) (rec : Option (BitVec 512))
  /-- START (R193). -/
  | start (f : Fn) (q : Fin 128) (c : QcArgs)
  /-- STOP (R178). -/
  | stop (f : Fn) (q : Fin 128) (c : QcArgs)
  /-- RESET_QUEUE (R178). -/
  | resetQueue (f : Fn) (q : Fin 128) (c : QcArgs)
  /-- CREATE_RING (R193). -/
  | createRing (f : Fn) (q : Fin 128) (c : QcArgs) (rec : Option (BitVec 256))
  /-- DESTROY_RING (R193). -/
  | destroyRing (f : Fn) (q : Fin 128) (c : QcArgs)
  /-- RESET_COUNTERS (R183). -/
  | resetCounters (f : Fn) (q : Fin 128) (c : QcArgs)
  /-- INVALIDATE (R171). -/
  | invalidate (f : Fn) (q : Fin 128) (c : QcArgs)
  /-- INDEX_READ_RETURN (R166). -/
  | indexReadReturn (f : Fn) (q : Fin 128) (k : Fin 8) (idx : IndexRet) (slots : List (W32 × Option (BitVec 512)))
  /-- PHASE_RETRY (R169). -/
  | phaseRetry (f : Fn) (q : Fin 128) (k : Fin 8) (slot : W32) (data : Option (BitVec 512))
  /-- POLL_TIMER (R170). -/
  | pollTimer (f : Fn) (q : Fin 128) (k : Fin 8)
  /-- RECORD_RELOAD (R163). -/
  | recordReload (f : Fn) (q : Fin 128) (obj : RecordKind) (data : Option (BitVec 512))
  /-- TRIGGERED_HEAD_START (R185). -/
  | triggeredHeadStart (f : Fn) (q : Fin 128) (k : Fin 8)
  /-- TRIGGER_SWEEP (R187). -/
  | triggerSweep (d : Die)
  /-- NOP (R164). -/
  | nop (i : Nat)
  /-- COUNTER_ADD (R164). -/
  | counterAdd (i : Nat)
  /-- COMPLETION (R174). -/
  | completion (i : Nat)
  /-- COUNTER_RECORD_WRITE (R184). -/
  | counterRecordWrite (f : Fn) (q : Fin 128) (c : Fin 16)
  -- Translation (chapter 7)
  /-- CREATE_SPACE (R220). -/
  | createSpace (rq : Requester) (d : Die) (c : Fin 3)
  /-- DESTROY_SPACE (R212). -/
  | destroySpace (rq : Requester) (d : Die) (c : Fin 3)
  /-- CREATE_REGION (R221). -/
  | createRegion (rq : Requester) (d : Die) (c : Fin 3)
  /-- DESTROY_REGION (R212). -/
  | destroyRegion (rq : Requester) (d : Die) (c : Fin 3)
  /-- INVALIDATE_RANGE (R211). -/
  | invalidateRange (rq : Requester) (d : Die) (c : Fin 3)
  /-- INVALIDATE_SPACE (R211). -/
  | invalidateSpace (rq : Requester) (d : Die) (c : Fin 3)
  /-- INVALIDATE_FUNCTION (R211). -/
  | invalidateFunction (rq : Requester) (d : Die) (c : Fin 3)
  /-- INVALIDATE_ALL (R211). -/
  | invalidateAll (rq : Requester) (d : Die) (c : Fin 3)
  /-- TOKEN_COMPLETE (R212). -/
  | tokenComplete (d : Die) (c : Fin 3)
  /-- WALK_READ_RETURN (R205). -/
  | walkReadReturn (d : Die) (id : Nat) (pte : Option W64)
  /-- ATS_TRANSLATION_COMPLETION (R207). -/
  | atsTranslationCompletion (d : Die) (id : Nat) (addr : W64) (log2Size : Fin 64) (r : Bool) (w : Bool) (u : Bool) (bad : Bool)
  /-- ATS_INVALIDATE_REQUEST (R214). -/
  | atsInvalidateRequest (f : Fn) (va : W64) (log2Size : Fin 64)
  -- Message matching (chapter 8)
  /-- TSEND (R246). -/
  | tsend (i : Nat)
  /-- TRECV (R240). -/
  | trecv (i : Nat)
  /-- TPROBE (R251). -/
  | tprobe (i : Nat)
  /-- TMPROBE (R251). -/
  | tmprobe (i : Nat)
  /-- TCANCEL (R253). -/
  | tcancel (i : Nat)
  /-- TMRECV (R252). -/
  | tmrecv (i : Nat)
  /-- TAG_EAGER (R240). -/
  | tagEager (d : Die) (id : Nat)
  /-- TAG_RTS (R243). -/
  | tagRts (d : Die) (id : Nat)
  /-- TAG_CONT (R247). -/
  | tagCont (d : Die) (id : Nat)
  /-- TAG_PULL (R248). -/
  | tagPull (d : Die) (id : Nat)
  /-- TAG_PULL_DATA (R248). -/
  | tagPullData (d : Die) (id : Nat)
  /-- TAG_FIN (R249). -/
  | tagFin (d : Die) (id : Nat)
  /-- TAG_MATCHED (R249). -/
  | tagMatched (d : Die) (id : Nat)
  /-- STORED_COPY_DONE (R245). -/
  | storedCopyDone (d : Die) (i : Nat)
  /-- SPILL_READ_RETURN (R241). -/
  | spillReadReturn (d : Die) (id : Nat)
  /-- SPILL_RELOAD (R235). -/
  | spillReload (d : Die) (bin : Nat)
  /-- CHAIN_INTERVAL_END (R254). -/
  | chainIntervalEnd (d : Die)
  /-- REHASH_GO (R254). -/
  | rehashGo (rq : Requester) (d : Die)
  /-- REHASH_MOVE (R255). -/
  | rehashMove (d : Die)
  /-- REHASH_CUTOVER (R257). -/
  | rehashCutover (d : Die)
  -- Remote access (chapter 9)
  /-- PUT (R270). -/
  | put (i : Nat)
  /-- PUT_NOTIFY (R281). -/
  | putNotify (i : Nat)
  /-- GET (R274). -/
  | get (i : Nat)
  /-- FADD64 (R265). -/
  | fadd64 (i : Nat)
  /-- SWAP64 (R265). -/
  | swap64 (i : Nat)
  /-- CAS64 (R265). -/
  | cas64 (i : Nat)
  /-- SMIN64 (R265). -/
  | smin64 (i : Nat)
  /-- SMAX64 (R265). -/
  | smax64 (i : Nat)
  /-- UMIN64 (R265). -/
  | umin64 (i : Nat)
  /-- UMAX64 (R265). -/
  | umax64 (i : Nat)
  /-- SWAP128 (R265). -/
  | swap128 (i : Nat)
  /-- CAS128 (R265). -/
  | cas128 (i : Nat)
  /-- CHUNK_ISSUE (R273). -/
  | chunkIssue (i : Nat)
  /-- RMA_PUT (R276). -/
  | rmaPut (d : Die) (id : Nat)
  /-- RMA_NOTIFY (R282). -/
  | rmaNotify (d : Die) (id : Nat)
  /-- RMA_GET_REQ (R274). -/
  | rmaGetReq (d : Die) (id : Nat)
  /-- RMA_GET_DATA (R283). -/
  | rmaGetData (d : Die) (id : Nat)
  /-- RMA_ATOMIC (R279). -/
  | rmaAtomic (d : Die) (id : Nat)
  /-- RMA_ATOMIC_RSP (R283). -/
  | rmaAtomicRsp (d : Die) (id : Nat)
  /-- FLAG_HOLD_RELEASE (R285). -/
  | flagHoldRelease (d : Die) (id : Nat)
  /-- TARGET_COUNTER_EVENT (R280). -/
  | targetCounterEvent (d : Die) (id : Nat)
  /-- NOTIFICATION_WRITE (R282). -/
  | notificationWrite (d : Die) (id : Nat)
  -- The sluice (chapter 13)
  /-- SLUICE_ADMIT (R436). -/
  | sluiceAdmit (d : Die) (lane : Fin 3)
  /-- SLUICE_ENTRY_WRITE (R443). -/
  | sluiceEntryWrite (rq : Requester) (d : Die) (e : Fin 4097) (reg : Fin 7) (v : W64)
  -- Transport (chapter 10)
  /-- CTX_OPEN (R300). -/
  | ctxOpen (d : Die)
  /-- CTX_OPEN_ACK (R301). -/
  | ctxOpenAck (d : Die)
  /-- CTX_NOCTX (R304). -/
  | ctxNoctx (d : Die)
  /-- TRU_ACK (R316). -/
  | truAck (d : Die)
  /-- SEQUENCED_PACKET_RECEIVE (R317). -/
  | sequencedPacketReceive (d : Die)
  /-- PACKET_LANDED (R318). -/
  | packetLanded (d : Die) (id : Nat)
  /-- ACK_DELAY_EXPIRY (R321). -/
  | ackDelayExpiry (d : Die) (i : Nat)
  /-- GAP_TIMEOUT (R321). -/
  | gapTimeout (d : Die) (i : Nat)
  /-- RETRANSMIT_TIMEOUT (R324). -/
  | retransmitTimeout (d : Die) (i : Nat)
  /-- RNR_RETRANSMIT (R326). -/
  | rnrRetransmit (d : Die) (i : Nat)
  /-- RETRY_BUDGET_EXHAUSTED (R327). -/
  | retryBudgetExhausted (d : Die) (i : Nat)
  /-- UNREACH_HOLD_EXPIRY (R301). -/
  | unreachHoldExpiry (d : Die) (i : Nat)
  /-- RECORD_RESEND_TIMER (R315). -/
  | recordResendTimer (d : Die) (i : Nat)
  /-- CONTEXT_RELOAD (R306). -/
  | contextReload (d : Die) (i : Nat)
  /-- CONTEXT_WRITEBACK_DONE (R307). -/
  | contextWritebackDone (d : Die) (i : Nat)
  /-- RATE_INCREASE_TICK (R329). -/
  | rateIncreaseTick (d : Die)
  /-- QUERY_PAIR (R334). -/
  | queryPair (rq : Requester) (d : Die)
  /-- QUERY_INDEX (R334). -/
  | queryIndex (rq : Requester) (d : Die)
  /-- ABORT (R334). -/
  | abort (rq : Requester) (d : Die)
  -- Quadrilles (chapter 11)
  /-- Q_JOIN (R338). -/
  | qJoin (i : Nat)
  /-- Q_RELEASE (R340). -/
  | qRelease (i : Nat)
  /-- Q_ALLREDUCE (R359). -/
  | qAllreduce (i : Nat)
  /-- Q_REDUCE (R359). -/
  | qReduce (i : Nat)
  /-- Q_BCAST (R359). -/
  | qBcast (i : Nat)
  /-- Q_BARRIER (R343). -/
  | qBarrier (i : Nat)
  /-- Q_ABORT (R341). -/
  | qAbort (i : Nat)
  /-- QCTL_JOIN (R338). -/
  | qctlJoin (d : Die) (id : Nat)
  /-- QCTL_READY (R338). -/
  | qctlReady (d : Die) (id : Nat)
  /-- QCTL_CREDIT (R358). -/
  | qctlCredit (d : Die) (id : Nat)
  /-- QCTL_RESEND (R364). -/
  | qctlResend (d : Die) (id : Nat)
  /-- QCTL_RELEASE (R340). -/
  | qctlRelease (d : Die) (id : Nat)
  /-- QCTL_FREE (R340). -/
  | qctlFree (d : Die) (id : Nat)
  /-- QCTL_ABORT (R367). -/
  | qctlAbort (d : Die) (id : Nat)
  /-- QDATA (R359). -/
  | qdata (d : Die) (id : Nat)
  /-- QRESULT (R359). -/
  | qresult (d : Die) (id : Nat)
  /-- SEGMENT_SEND (R358). -/
  | segmentSend (d : Die) (k : Nat)
  /-- JOIN_TIMEOUT (R339). -/
  | joinTimeout (d : Die) (k : Nat)
  /-- PENDING_JOIN_TIMEOUT (R339). -/
  | pendingJoinTimeout (d : Die)
  -- Routing (chapter 12)
  /-- MY_FEA_WRITE (R373). -/
  | myFeaWrite (rq : Requester) (d : Die) (v : W64)
  /-- ROUTE_TABLE_WRITE (R381). -/
  | routeTableWrite (rq : Requester) (d : Die) (v : Fin 2) (table : Fin 3) (entry : Fin 4096) (value : W64)
  /-- EPOCH_INJECT_WRITE (R382). -/
  | epochInjectWrite (rq : Requester) (d : Die) (v : Fin 2)
  /-- VALIDATE (R381). -/
  | validate (rq : Requester) (d : Die) (v : Fin 2)
  /-- VERSION_INVALIDATE (R407). -/
  | versionInvalidate (rq : Requester) (d : Die) (v : Fin 2)
  /-- GROUP_STATUS_PERIOD (R383). -/
  | groupStatusPeriod (d : Die)
  /-- GROUP_STATUS (R383). -/
  | groupStatus (d : Die)
  /-- PEER_STALE (R384). -/
  | peerStale (d : Die) (r : Fin 32) (half : Fin 2)
  /-- ROUTE_PACKET (R386). -/
  | routePacket (d : Die) (k : Fin 2560)
  /-- IMBALANCE_WINDOW (R397). -/
  | imbalanceWindow (d : Die)
  /-- RESEED (R398). -/
  | reseed (rq : Requester) (d : Die)
  /-- HOLD_LIMIT_EXPIRY (R400). -/
  | holdLimitExpiry (d : Die) (place : HoldAt)
  -- Switch core, NoC and die bridge (chapters 13, 4, 1, 16)
  /-- CROSSBAR_ALLOCATION (R428). -/
  | crossbarAllocation (d : Die)
  /-- PACKET_EJECTED (R107). -/
  | packetEjected (d : Die)
  /-- NOC_UNIT_RECEIVED (R26). -/
  | nocUnitReceived (d : Die) (stop : Fin 64) (dir : Fin 4) (unit : BitVec 544)
  /-- BRIDGE_FLIT_RECEIVED (R21). -/
  | bridgeFlitReceived (d : Die) (m : Fin 16) (err : List (Fin 272 × Byte))
  /-- BRIDGE_MODULE_SILENT (R506). -/
  | bridgeModuleSilent (d : Die) (m : Fin 16)
  /-- BRIDGE_MODULE_RETRAIN_DONE (R506). -/
  | bridgeModuleRetrainDone (m : Fin 16) (ok : Bool)
  -- Link layer (chapter 14)
  /-- FLIT_SLOT (R450). -/
  | flitSlot (d : Die) (i : Fin 64)
  /-- FLIT_RECEIVED (R456). -/
  | flitReceived (d : Die) (i : Fin 64) (b : List Byte) (bad : Bool)
  /-- REPLAY_TIMEOUT (R458). -/
  | replayTimeout (d : Die) (i : Fin 64)
  /-- LINK_RTT_WINDOW (R457). -/
  | linkRttWindow (d : Die) (i : Fin 64)
  /-- LANES_TRAINED (R464). -/
  | lanesTrained (d : Die) (i : Fin 64)
  /-- NEGOTIATE_PROPOSE (R466). -/
  | negotiatePropose (d : Die) (i : Fin 64) (b : List Byte) (bad : Bool)
  /-- NEGOTIATE_AGREE (R466). -/
  | negotiateAgree (d : Die) (i : Fin 64) (b : List Byte) (bad : Bool)
  /-- NEGOTIATE_REFUSE (R464). -/
  | negotiateRefuse (d : Die) (i : Fin 64) (b : List Byte) (bad : Bool)
  /-- NEGOTIATE_RESEND (R464). -/
  | negotiateResend (d : Die) (i : Fin 64)
  /-- TRAINING_ATTEMPT_TIMEOUT (R464). -/
  | trainingAttemptTimeout (d : Die) (i : Fin 64)
  /-- FAILED_RESTART_TIMER (R464). -/
  | failedRestartTimer (d : Die) (i : Fin 64)
  /-- SILENCE_TIMEOUT (R467). -/
  | silenceTimeout (d : Die) (i : Fin 64)
  /-- RETRAIN (R467). -/
  | retrain (rq : Requester) (d : Die) (i : Fin 64)
  /-- PORT_HOLD_LIMIT (R468). -/
  | portHoldLimit (d : Die) (i : Fin 64)
  /-- CHANGE_GO (R469). -/
  | changeGo (rq : Requester) (d : Die) (i : Fin 64) (mask : Fin 16) (rate : Fin 8)
  /-- CHANGE_REQUEST (R469). -/
  | changeRequest (d : Die) (i : Fin 64) (b : List Byte) (bad : Bool)
  /-- CHANGE_ACCEPT (R469). -/
  | changeAccept (d : Die) (i : Fin 64) (b : List Byte) (bad : Bool)
  /-- CHANGE_REFUSE (R469). -/
  | changeRefuse (d : Die) (i : Fin 64) (b : List Byte) (bad : Bool)
  /-- CHANGE_TIMEOUT (R469). -/
  | changeTimeout (d : Die) (i : Fin 64)
  /-- LANES_READY (R469). -/
  | lanesReady (d : Die) (i : Fin 64)
  /-- LINK_RETIRE (R471). -/
  | linkRetire (rq : Requester) (d : Die) (i : Fin 64)
  -- Lanes (chapter 15)
  /-- TRAINING_FRAME (R486). -/
  | trainingFrame (d : Die) (n : Fin 64) (c : BitVec 128) (inverted : Bool)
  /-- QUAD_PLL_LOCKED (R487). -/
  | quadPllLocked (d : Die) (q : Fin 16)
  /-- LANE_STEP_TIMEOUT (R487). -/
  | laneStepTimeout (d : Die) (n : Fin 64)
  /-- QUALIFICATION_WINDOW (R488). -/
  | qualificationWindow (d : Die) (n : Fin 64)
  /-- FEC_CODEWORD (R481). -/
  | fecCodeword (d : Die) (n : Fin 64) (msg : List (Fin 4)) (parity : List (Fin 4))
  /-- ADAPTATION_UPDATE (R485). -/
  | adaptationUpdate (d : Die) (n : Fin 64)
  /-- LANE_LOCK_LOSS (R467). -/
  | laneLockLoss (d : Die) (n : Fin 64)
  /-- LNE_PWR_WRITE (R492). -/
  | lnePwrWrite (rq : Requester) (d : Die) (n : Fin 64) (v : Fin 4)
  /-- PRBS_CTRL_WRITE (R494). -/
  | prbsCtrlWrite (rq : Requester) (d : Die) (n : Fin 64) (v : W64)
  /-- PRBS_NO_PARTNER (R494). -/
  | prbsNoPartner (d : Die) (n : Fin 64)
  -- Faults (chapter 16)
  /-- HEARTBEAT_TIMER (R500). -/
  | heartbeatTimer (d : Die) (answered : Bool)
  /-- FAULT_EVALUATION (R501). -/
  | faultEvaluation (o : FaultObs)
  /-- SUPPRESSED_RECORDS_TICK (R518). -/
  | suppressedRecordsTick
  /-- ENGINE_WATCHDOG (R501). -/
  | engineWatchdog (n : Fin 128)
  /-- RETIRE (R524). -/
  | retire (rq : Requester)
  /-- UNRETIRE (R517). -/
  | unretire (rq : Requester)
  /-- READ_RECORD (R524). -/
  | readRecord (rq : Requester)
  /-- LANE_SHUTDOWN (R524). -/
  | laneShutdown (rq : Requester)
  /-- DOMAIN_CYCLE (R540). -/
  | domainCycle (rq : Requester)
  /-- DEVICE_RESET (R524). -/
  | deviceReset (rq : Requester) (avs : Bool)
  -- Power (chapter 17)
  /-- DESCENT_TIMER (R528). -/
  | descentTimer (d : Die) (i : Fin 32)
  /-- FENCE_ACK (R535). -/
  | fenceAck (d : Die) (i : Fin 32)
  /-- DOMAIN_STATE_SAVED (R535). -/
  | domainStateSaved (d : Die) (i : Fin 32)
  /-- FENCE_TIMEOUT (R537). -/
  | fenceTimeout (d : Die) (i : Fin 32)
  /-- DOMAIN_WAKE (R529). -/
  | domainWake (d : Die) (i : Fin 32) (units : Fin 17)
  /-- DOMAIN_GALOP_REACHED (R538). -/
  | domainGalopReached (d : Die) (i : Fin 32)
  /-- DOM_CFG_WRITE (R546). -/
  | domCfgWrite (rq : Requester) (d : Die) (i : Fin 32) (mx : Fin 8) (pin : Bool)
  /-- ISLAND_CLOCK_GATE (R532). -/
  | islandClockGate (d : Die) (j : Fin 106)
  /-- CORE_VOLTAGE_ADJUST (R543). -/
  | coreVoltageAdjust (d : Die) (mv : BitVec 10) (answered : Bool)
  /-- TEMP_SAMPLE (R603). -/
  | tempSample (a : DieTemps) (b : DieTemps) (v : List (BitVec 8))
  -- Counters and fabric time (chapter 18)
  /-- WINDOW_END (R549). -/
  | windowEnd (d : Die)
  /-- PCU_COUNT_CLEAR (R550). -/
  | pcuCountClear (rq : Requester) (d : Die)
  /-- SYNC_INTERVAL (R557). -/
  | syncInterval (d : Die)
  /-- SYNC_REQ (R557). -/
  | syncReq (d : Die)
  /-- SYNC_RSP (R558). -/
  | syncRsp (d : Die)
  /-- SYNC_RSP_TIMEOUT (R558). -/
  | syncRspTimeout (d : Die)
  /-- FT_SET (R558). -/
  | ftSet (rq : Requester) (d : Die) (v : W64)
  -- Start-up, service controller, ports of the package (chapters 19 and 20)
  /-- PWRGOOD_RISE (R564). -/
  | pwrgoodRise (avs : Bool)
  /-- PWRGOOD_FALL (R600). -/
  | pwrgoodFall
  /-- RESET_N_ASSERTED (R568). -/
  | resetNAsserted
  /-- RESET_N_DEASSERTED (R600). -/
  | resetNDeasserted (avs : Bool)
  /-- SEND_MGT (R575). -/
  | sendMgt (rq : Requester)
  /-- GET_SETTING (R575). -/
  | getSetting (via : SettingVia)
  /-- SET_SETTING (R572). -/
  | setSetting (via : SettingVia) (stop : Option (Fin 8 × Bool))
  /-- REG_READ (R577). -/
  | regRead (via : MgtVia)
  /-- REG_WRITE (R577). -/
  | regWrite (via : MgtVia)
  /-- STAGE_WRITE (R574). -/
  | stageWrite (via : MgtVia)
  /-- MGT_RESPONSE (R578). -/
  | mgtResponse
  /-- MGT_REQUEST_RETRY (R578). -/
  | mgtRequestRetry
  /-- ARP_REQUEST (R580). -/
  | arpRequest (vlan : BitVec 12) (ip : W32)
  /-- NEIGHBOUR_SOLICITATION (R580). -/
  | neighbourSolicitation (vlan : BitVec 12) (ip : BitVec 128)
  /-- ECHO_REQUEST (R580). -/
  | echoRequest (vlan : BitVec 12) (v6 : Bool) (ip : BitVec 128) (data : List Byte)
  /-- I3C_ADDRESS_ASSIGN (R582). -/
  | i3cAddressAssign (target : Option (BitVec 7)) (addr : BitVec 7)
  /-- I3C_ENEC (R582). -/
  | i3cEnec (addr : Option (BitVec 7)) (events : Byte)
  /-- I3C_PRIVATE_WRITE (R582). -/
  | i3cPrivateWrite (addr : BitVec 7) (data : List Byte)
  /-- I3C_PRIVATE_READ (R582). -/
  | i3cPrivateRead (addr : BitVec 7) (n : BitVec 16)
  /-- IDCODE (R583). -/
  | idcode (bits : List Bool)
  /-- SAMPLE_PRELOAD (R583). -/
  | samplePreload (pins : List Bool) (bits : List Bool)
  /-- EXTEST (R584). -/
  | extest (pins : List Bool) (bits : List Bool)
  /-- EXTEST_PULSE (R584). -/
  | extestPulse (pins : List Bool) (bits : List Bool)
  /-- EXTEST_TRAIN (R584). -/
  | extestTrain (pins : List Bool) (bits : List Bool)
  /-- CLAMP (R584). -/
  | clamp (bits : List Bool)
  /-- HIGHZ (R584). -/
  | highz (bits : List Bool)
  /-- BYPASS (R583). -/
  | bypass (bits : List Bool)
  /-- HOST_LINK_UP (R566). -/
  | hostLinkUp (h : Fin 4) (one : Bool) (rate : Fin 8) (width : Fin 17) (flit : Bool)
  /-- DEVICE_POWER_STATE_WRITE (R123). -/
  | devicePowerStateWrite (f : Fn) (d3 : Bool)
  /-- ASPM_L1_ENTRY (R531). -/
  | aspmL1Entry (h : Fin 4) (one : Bool)
  /-- ASPM_L1_EXIT (R531). -/
  | aspmL1Exit (h : Fin 4) (one : Bool)
  /-- HDM_ACCESS (R136). -/
  | hdmAccess (h : Fin 4) (addr : BitVec 40) (write : Option BusData) (len : Nat)
  /-- SUPPLIES_COLLAPSE (R599). -/
  | suppliesCollapse
  /-- MGT_EVENT (R576). -/
  | mgtEvent
  /-- OOB_BLOCK_LOCK (R580). -/
  | oobBlockLock (up : Bool)
  /-- PRBS_CHECKER_LOCK (R495). -/
  | prbsCheckerLock (d : Die) (n : Fin 64)
  /-- PRBS_LOSS_OF_LOCK (R495). -/
  | prbsLossOfLock (d : Die) (n : Fin 64)
  /-- TRST_N_ASSERTED (R583). -/
  | trstNAsserted
  deriving DecidableEq, Repr

end Sys2Proof
end

