-- ==== Sys2Proof/Machine/Digests.lean ====
section
/-! DEFINITION. SHA-384 and ECDSA over P-384 (02_structure_image.md R40, R42, R52), and the checks CRC-32C
(13_switch_core.md R411) and CRC-64 ECMA-182 (14_link_layer.md R451). The constants of SHA-384 and of the curve
P-384 are those of their public standards (PRESUMED: the spec names the algorithms only; log entry 8). -/

namespace Sys2Proof.Machine

def shaK0 : List Nat := [
  0x428a2f98d728ae22, 0x7137449123ef65cd, 0xb5c0fbcfec4d3b2f, 0xe9b5dba58189dbbc,
  0x3956c25bf348b538, 0x59f111f1b605d019, 0x923f82a4af194f9b, 0xab1c5ed5da6d8118,
  0xd807aa98a3030242, 0x12835b0145706fbe, 0x243185be4ee4b28c, 0x550c7dc3d5ffb4e2,
  0x72be5d74f27b896f, 0x80deb1fe3b1696b1, 0x9bdc06a725c71235, 0xc19bf174cf692694]

def shaK1 : List Nat := [
  0xe49b69c19ef14ad2, 0xefbe4786384f25e3, 0x0fc19dc68b8cd5b5, 0x240ca1cc77ac9c65,
  0x2de92c6f592b0275, 0x4a7484aa6ea6e483, 0x5cb0a9dcbd41fbd4, 0x76f988da831153b5,
  0x983e5152ee66dfab, 0xa831c66d2db43210, 0xb00327c898fb213f, 0xbf597fc7beef0ee4,
  0xc6e00bf33da88fc2, 0xd5a79147930aa725, 0x06ca6351e003826f, 0x142929670a0e6e70]

def shaK2 : List Nat := [
  0x27b70a8546d22ffc, 0x2e1b21385c26c926, 0x4d2c6dfc5ac42aed, 0x53380d139d95b3df,
  0x650a73548baf63de, 0x766a0abb3c77b2a8, 0x81c2c92e47edaee6, 0x92722c851482353b,
  0xa2bfe8a14cf10364, 0xa81a664bbc423001, 0xc24b8b70d0f89791, 0xc76c51a30654be30,
  0xd192e819d6ef5218, 0xd69906245565a910, 0xf40e35855771202a, 0x106aa07032bbd1b8]

def shaK3 : List Nat := [
  0x19a4c116b8d2d0c8, 0x1e376c085141ab53, 0x2748774cdf8eeb99, 0x34b0bcb5e19b48a8,
  0x391c0cb3c5c95a63, 0x4ed8aa4ae3418acb, 0x5b9cca4f7763e373, 0x682e6ff3d6b2b8a3,
  0x748f82ee5defb2fc, 0x78a5636f43172f60, 0x84c87814a1f0ab72, 0x8cc702081a6439ec,
  0x90befffa23631e28, 0xa4506cebde82bde9, 0xbef9a3f7b2c67915, 0xc67178f2e372532b]

def shaK4 : List Nat := [
  0xca273eceea26619c, 0xd186b8c721c0c207, 0xeada7dd6cde0eb1e, 0xf57d4f7fee6ed178,
  0x06f067aa72176fba, 0x0a637dc5a2c898a6, 0x113f9804bef90dae, 0x1b710b35131c471b,
  0x28db77f523047d84, 0x32caab7b40c72493, 0x3c9ebe0a15c9bebc, 0x431d67c49c100d4c,
  0x4cc5d4becb3e42b6, 0x597f299cfc657e2a, 0x5fcb6fab3ad6faec, 0x6c44198c4a475817]

def shaK : List Nat := shaK0 ++ shaK1 ++ shaK2 ++ shaK3 ++ shaK4

def shaInit : List Nat := [
  0xcbbb9d5dc1059ed8, 0x629a292a367cd507, 0x9159015a3070dd17, 0x152fecd8f70e5939,
  0x67332667ffc00b31, 0x8eb44a8768581511, 0xdb0c2e0d64f98fa7, 0x47b5481dbefa4fa4]

def rotr64 (x n : Nat) : Nat := (x >>> n ||| x <<< (64 - n)) % 2 ^ 64

/-- The next word of the message schedule, from the sixteen before it, latest first. -/
def shaNextW (w : List Nat) : Nat :=
  let w15 := w.getD 14 0
  let w2 := w.getD 1 0
  let s0 := rotr64 w15 1 ^^^ rotr64 w15 8 ^^^ (w15 >>> 7)
  let s1 := rotr64 w2 19 ^^^ rotr64 w2 61 ^^^ (w2 >>> 6)
  (w.getD 15 0 + s0 + w.getD 6 0 + s1) % 2 ^ 64

/-- The rounds of one block: the round constants still to use, the window of sixteen schedule words (latest first is
last used), and the eight working values. -/
def shaRounds : List Nat → List Nat → List Nat → List Nat
  | k :: ks, w, [a, b, c, d, e, f, g, h] =>
    let wt := w.getD 15 0
    let s1 := rotr64 e 14 ^^^ rotr64 e 18 ^^^ rotr64 e 41
    let ch := (e &&& f) ^^^ ((2 ^ 64 - 1 - e) &&& g)
    let t1 := (h + s1 + ch + k + wt) % 2 ^ 64
    let s0 := rotr64 a 28 ^^^ rotr64 a 34 ^^^ rotr64 a 39
    let mj := (a &&& b) ^^^ (a &&& c) ^^^ (b &&& c)
    shaRounds ks ((shaNextW w :: w).take 16) [(t1 + s0 + mj) % 2 ^ 64, a, b, c, (d + t1) % 2 ^ 64, e, f, g]
  | _, _, v => v

/-- A big-endian number from bytes. -/
def beNat (bs : List Byte) : Nat := bs.foldl (fun n x => n * 256 + x.toNat) 0

/-- The sixteen words of a block, the last first. -/
def shaWords : Nat → List Byte → List Nat → List Nat
  | 0, _, acc => acc
  | n + 1, bs, acc => shaWords n (bs.drop 8) (beNat (bs.take 8) :: acc)

def shaBlocks : Nat → List Byte → List Nat → List Nat
  | 0, _, h => h
  | n + 1, bs, h =>
    let v := shaRounds shaK (shaWords 16 bs []) h
    shaBlocks n (bs.drop 128) (List.zipWith (fun x y => (x + y) % 2 ^ 64) h v)

/-- SHA-384 of a byte sequence, as a big-endian number of 384 bits. -/
def sha384 (m : List Byte) : BitVec 384 :=
  let z := (128 - (m.length + 17) % 128) % 128
  let len := (leBytes 16 (m.length * 8)).reverse
  let p := m ++ [0x80#8] ++ List.replicate z 0 ++ len
  BitVec.ofNat 384 (((shaBlocks (p.length / 128) p shaInit).take 6).foldl (fun n x => n * 2 ^ 64 + x) 0)

/-! ECDSA over P-384, in Jacobian coordinates. -/

def p384p : Nat := 2 ^ 384 - 2 ^ 128 - 2 ^ 96 + 2 ^ 32 - 1
def p384b : Nat := 0xb3312fa7e23ee7e4988e056be3f82d19181d9c6efe8141120314088f5013875ac656398d8a2ed19d2a85c8edd3ec2aef
def p384n : Nat := 0xffffffffffffffffffffffffffffffffffffffffffffffffc7634d81f4372ddf581a0db248b0a77aecec196accc52973
def p384gx : Nat := 0xaa87ca22be8b05378eb1c71ef320ad746e1d3b628ba79b9859f741e082542a385502f25dbf55296c3a545e3872760ab7
def p384gy : Nat := 0x3617de4a96262c6f5d9e98bf9292dc29f8f41dbd289a147ce9da3113b5f0b8c00a60b1ce1d7e819d7a431d7c90ea0e5f

/-- `x` to the power `e` modulo `m`, by the low `k` bits of `e`. -/
def powMod : Nat → Nat → Nat → Nat → Nat → Nat
  | 0, _, _, _, acc => acc
  | k + 1, x, e, m, acc => powMod k (x * x % m) (e / 2) m (if e % 2 = 1 then acc * x % m else acc)

def invMod (x m : Nat) : Nat := powMod 384 (x % m) (m - 2) m 1

/-- A point in Jacobian coordinates; Z = 0 is the point at infinity. -/
structure JPoint where
  x : Nat
  y : Nat
  z : Nat

def JPoint.dbl (q : JPoint) : JPoint :=
  let p := p384p
  let d := q.z * q.z % p
  let g := q.y * q.y % p
  let b := q.x * g % p
  let al := 3 * ((q.x + p - d) % p) * ((q.x + d) % p) % p
  let x3 := (al * al + 8 * p - 8 * b) % p
  ⟨x3, (al * ((4 * b + p - x3) % p) + p * p - 8 * (g * g % p)) % p, 2 * q.y * q.z % p⟩

def JPoint.add (q r : JPoint) : JPoint :=
  if q.z = 0 then r else if r.z = 0 then q else
  let p := p384p
  let z1 := q.z * q.z % p
  let z2 := r.z * r.z % p
  let u1 := q.x * z2 % p
  let u2 := r.x * z1 % p
  let s1 := q.y * r.z % p * z2 % p
  let s2 := r.y * q.z % p * z1 % p
  if u1 = u2 then (if s1 = s2 then q.dbl else ⟨1, 1, 0⟩) else
  let h := (u2 + p - u1) % p
  let rr := (s2 + p - s1) % p
  let h2 := h * h % p
  let h3 := h2 * h % p
  let v := u1 * h2 % p
  let x3 := (rr * rr + 3 * p - h3 - 2 * v) % p
  ⟨x3, (rr * ((v + p - x3) % p) + p * p - s1 * h3) % p, h * q.z % p * r.z % p⟩

/-- `e` times a point, by the low `k` bits of `e`. -/
def JPoint.smul : Nat → Nat → JPoint → JPoint → JPoint
  | 0, _, _, acc => acc
  | k + 1, e, q, acc => JPoint.smul k (e / 2) q.dbl (if e % 2 = 1 then acc.add q else acc)

/-- ECDSA verification over P-384 (02_structure_image.md R42): the public point's coordinates, the SHA-384 digest
signed, and the signature's r and s. -/
def ecdsaVerify (qx qy : Nat) (digest : BitVec 384) (r s : Nat) : Bool :=
  let n := p384n
  let p := p384p
  if r = 0 ∨ n ≤ r ∨ s = 0 ∨ n ≤ s ∨ p ≤ qx ∨ p ≤ qy ∨ qy * qy % p ≠ (qx * qx * qx + p384b + p * p - 3 * qx) % p
  then false else
  let w := invMod s n
  let u1 := digest.toNat * w % n
  let u2 := r * w % n
  let x := (JPoint.smul 384 u1 ⟨p384gx, p384gy, 1⟩ ⟨1, 1, 0⟩).add (JPoint.smul 384 u2 ⟨qx, qy, 1⟩ ⟨1, 1, 0⟩)
  if x.z = 0 then false else
  let zi := invMod x.z p
  x.x * zi % p * zi % p % n == r

/-- One bit of a reflected CRC-32C register. -/
def crc32cBit (c : Nat) : Nat := if c % 2 = 1 then (c / 2) ^^^ 0x82F63B78 else c / 2

def crc32cByte (c : Nat) (b : Byte) : Nat :=
  crc32cBit (crc32cBit (crc32cBit (crc32cBit (crc32cBit (crc32cBit (crc32cBit (crc32cBit (c ^^^ b.toNat))))))))

/-- CRC-32C of bytes (13_switch_core.md R411). -/
def crc32c (bs : List Byte) : W32 := BitVec.ofNat 32 (bs.foldl crc32cByte 0xFFFFFFFF ^^^ 0xFFFFFFFF)

/-- One bit of a CRC-64 ECMA-182 register, most significant bit first. -/
def crc64Bit (c : Nat) : Nat :=
  if c ≥ 2 ^ 63 then (c * 2 % 2 ^ 64) ^^^ 0x42F0E1EBA9EA3693 else c * 2

def crc64Byte (c : Nat) (b : Byte) : Nat :=
  crc64Bit (crc64Bit (crc64Bit (crc64Bit (crc64Bit (crc64Bit (crc64Bit (crc64Bit (c ^^^ (b.toNat * 2 ^ 56)))))))))

/-- CRC-64 of a flit: its bytes before the CRC, then its implicit sequence number, low byte first
(14_link_layer.md R451; 01_anatomy.md R19). -/
def crc64 (bs : List Byte) (seq : Nat) : W64 :=
  BitVec.ofNat 64 ((bs ++ leBytes 2 seq).foldl crc64Byte (2 ^ 64 - 1) ^^^ (2 ^ 64 - 1))

end Sys2Proof.Machine
end

