-- ==== Sys2Proof/Config.lean ====
section
/-! DEFINITION. What the spec leaves open as a value: opaque constants without a body. No proof can see a value of
one, so a statement holds whatever they are (log entries 2 and 3). -/

namespace Sys2Proof.Config

/-- The device's random source, and every other value the spec leaves open: the n-th value drawn. The state counts
the values drawn in its field `free`. Log entry 2. -/
opaque freeNat : Nat → Nat

/-- Which parameter an 8-byte record of a PARAMETERS section gives: the spec does not list the parameter numbers
(02_structure_image.md R41). The number tells the record's parameter by its place in R36's tables; index; value.
Log entry 3. -/
opaque paramNumber : BitVec 64 → Nat × Nat × Nat

/-- The keyed hash that picks the bin of a match entry (08_matching.md R236), from the table's key and what is hashed. -/
opaque binHash : Nat → Nat → Nat

/-- The hash that gives FLOW_HASH of a packet (12_routing.md R393). -/
opaque flowHash : Nat → Nat

/-- The seeded hash that picks among route candidates (12_routing.md R395). -/
opaque routeHash : Nat → Nat → Nat

/-- The snoop-filter set of a line (05_host_ports.md R151). -/
opaque sfSet : Nat → Nat

/-- The keyed hash of a memory block, which chooses the permutation of its granules (05_host_ports.md R137): from the key and the
block's number. -/
opaque blockHash : Nat → Nat → Nat

/-- The set of a translation in the TLB and of a context in the cache. -/
opaque cacheSet : Nat → Nat

/-- A measurement the device reports and the spec does not compute: by number (05_host_ports.md R132). -/
opaque measurement : Nat → BitVec 384

/-- A certificate of a slot (05_host_ports.md R132). -/
opaque certificate : Nat → BitVec 384

/-- A signature of the device identity key over a digest (05_host_ports.md R132). -/
opaque deviceSign : BitVec 384 → Nat

/-- Contents of the SVC's staging buffer that nothing has written since a reset (19_startup.md R574), by reset and address. -/
opaque stagingByte : Nat → Nat → Byte

/-- Ethernet address of the out-of-band port, which the spec does not give (19_startup.md R580). -/
opaque oobMac : Nat

/-- Versions of the firmware and of the boot ROM (19_startup.md R585), by stepping. -/
opaque svcId : Nat → Nat

/-- The first word of the host-port DVSEC's header, and Falanaur's vendor ID, as the base specification lays them out
(05_host_ports.md R155). -/
opaque dvsecHeader : Nat
opaque vendorId : Nat

end Sys2Proof.Config
end

