-- ==== Sys2Proof/Machine/State.lean ====
section
/-! DEFINITION. The state of the device as plain data, its faults and refusals, and the state right after reset. -/

namespace Sys2Proof.Machine

/-! ## Outcomes other than a next state -/

/-- Faults. No command of this model ends in one; the one constructor names an access that no state makes. -/
inductive Fault where
  /-- Raised by nothing: the device answers every access (03_register_model.md R76, R83; 04_polders.md R110). Safe. -/
  | none
  deriving DecidableEq, Repr

/-- Refusals. -/
inductive Refusal where
  /-- Raised by an arm of `exec` whose command has no meaning yet, and by nothing else. Safe: the model stops. -/
  | notModelled (mnemonic : String)
  deriving DecidableEq, Repr

/-! ## Register fields -/

/-- A field of a register: its offset in the die window (bits [13:12], the view, clear), its low bit, its width, and
its reset value (03_register_model.md R70, R73). -/
structure Fld where
  off : Nat
  lo : Nat
  w : Nat
  rst : Nat
  deriving DecidableEq, Repr

/-- Access codes (00_scope.md R7). -/
inductive Acc where
  | ro | rw | w1c | w1s | wd | rww | row
  deriving DecidableEq, Repr

/-- The values a WD field accepts (03_register_model.md R86). -/
inductive Lim where
  | any
  | range (lo hi : Nat)
  deriving DecidableEq, Repr

/-- A field with its access code and its range. -/
structure Row where
  fld : Fld
  acc : Acc
  lim : Lim
  deriving DecidableEq, Repr

/-! ## Image store (02_structure_image.md R50) -/

/-- Roles of a port (02_structure_image.md R36, PORT_ROLE). -/
inductive PortRole where
  | local_ | global | spare | unused
  deriving DecidableEq, Repr, Inhabited

/-- ON, OFF and AUTO of QDU_ENABLE and HAG_ENABLE. -/
inductive Tri where
  | on | off | auto
  deriving DecidableEq, Repr, Inhabited

/-- One parameter of an image (02_structure_image.md R36). -/
inductive ParamRec where
  | laneGrouping (lanes : Nat)
  | portRole (np : Nat) (r : PortRole)
  | laneRate (np gbps : Nat)
  | laneReach (np : Nat) (long : Bool)
  | cableM (np m : Nat)
  | replayKib (np kib : Nat)
  | fabricGroups (n : Nat)
  | reliabilityMode (lossless : Bool)
  | colNetwork (on : Bool)
  | protocolVersion (v : Nat)
  | securityEpoch (e : Nat)
  | variants (mask : Nat)
  | deviceScope (serial : Nat)
  | vcMinUnits (type vn vc units : Nat)
  | basinShare (vn pct : Nat)
  | ctxBanks (n : Nat)
  | binBanks (n : Nat)
  | tlbBanks (n : Nat)
  | polderEntriesA (n : Nat)
  | qduEnable (t : Tri)
  | hagEnable (t : Tri)
  | engineClusters (mask : Nat)
  | engineCode (cluster ident : Nat)
  | wardens (index hp fn : Nat)
  | noWardens
  | powerOff (domain : Nat)
  /-- A record whose number names no parameter. -/
  | unknown
  deriving DecidableEq, Repr, Inhabited

/-- The parameters of a structure, each at the value given or at its default (02_structure_image.md R36). The lists
hold the values given, as pairs of an index and a value. -/
structure Params where
  grouping : Nat
  roles : Tbl PortRole
  rates : Tbl Nat
  reaches : Tbl Bool
  cables : Tbl Nat
  replays : Tbl Nat
  groups : Nat
  lossless : Bool
  colOn : Bool
  version : Nat
  epoch : Nat
  variants : Nat
  scope : Nat
  vcMins : Tbl Nat
  basin : Tbl Nat
  ctxBanks : Nat
  binBanks : Nat
  tlbBanks : Nat
  polderA : Nat
  qdu : Tri
  hag : Tri
  clusters : Option Nat
  code : Tbl Nat
  wardens : Option (List (Nat × Nat))
  powerOff : List Nat
  /-- A record was unknown or out of its range. -/
  bad : Bool
  deriving DecidableEq, Repr

/-- A structure in force: its parameters, and what APPLY resolved of them (02_structure_image.md R47, step 2). -/
structure Structure where
  params : Params
  buildId : BitVec 128
  /-- Measurements 3 and 4 of 05_host_ports.md R132. -/
  meas3 : BitVec 384
  meas4 : BitVec 384
  clusters : Nat
  qduOn : Bool
  hagOn : Bool
  wardens : List Fn
  deriving DecidableEq, Repr

/-- A slot header (R52). -/
structure SlotHdr where
  magic : W32
  length : W32
  digest : BitVec 384
  writeCount : W32
  crc : W32
  deriving DecidableEq, Repr

/-- A slot: its header and the bytes of its image. -/
structure Slot where
  hdr : SlotHdr
  image : List Byte
  deriving DecidableEq, Repr

/-- A commit record (R53). -/
structure CommitRec where
  magic : W32
  seq : W32
  slot : Byte
  digest : BitVec 384
  crc : W32
  deriving DecidableEq, Repr

/-- An owner key record (R44): the coordinates of a P-384 public key. -/
structure OwnerKey where
  x : BitVec 384
  y : BitVec 384
  deriving DecidableEq, Repr

/-- The image store (R50), without the settings and the fault log, which have their own fields. -/
structure Store where
  policy : Nat
  minEpoch : Nat
  commits : Nat
  control : Nat
  keys : List (Option OwnerKey)
  journal0 : Tbl CommitRec
  journal1 : Tbl CommitRec
  slotA : Slot
  slotB : Slot
  deriving DecidableEq, Repr

/-- The ownership token's lease and the quiesce timer (R46, R54). -/
structure ImsState where
  leaseEnd : Nat
  /-- Since when the conditions of R46 have held without a break. -/
  quietSince : Option Nat
  /-- When a packet of REQ, RSP or COL last arrived on a network port. -/
  lastArrival : Option Nat
  /-- The staging buffer of 19_startup.md R574. -/
  staging : Tbl Byte
  /-- When the next pass of the scrub is due (R51). -/
  scrubAt : Nat
  /-- Resets so far: which contents the staging buffer has where nothing has been written since the last one. -/
  stagingGen : Nat
  /-- Function 0 of every present host port acts as a warden for IMS commands (R58). -/
  hostImage : Bool
  deriving DecidableEq, Repr

/-! ## Polders (04_polders.md R104, R109) -/

/-- A device-memory window (R109). -/
structure Window where
  pages : Nat
  devPage : Nat
  barPage : Nat
  hostR : Bool
  hostW : Bool
  hold : Bool
  net : Bool
  deriving DecidableEq, Repr

/-- A polder-table entry that is not FREE (R104). -/
structure Polder where
  id : Nat
  closed : Bool
  /-- Functions of this die bound to the polder, by `h * 256 + f`. BOUND_FNS and HP_MASK are counted from it. -/
  bound : List Nat
  holdTimeout : Nat
  weight : Nat
  windows : Tbl Window
  /-- The matching seed, never readable (R104). -/
  seed : Nat
  deriving DecidableEq, Repr

/-! ## Host ports (05_host_ports.md R122 to R133) -/

/-- A link of a host port: link 0, or link 1 of a bifurcated port (R126). -/
structure HostLink where
  up : Bool
  training : Bool
  l1 : Bool
  rate : Nat
  width : Nat
  flit : Bool
  deriving DecidableEq, Repr

/-- A secured SPDM session of a responder (R132). -/
structure SpdmSession where
  id : Nat
  finished : Bool
  updates : Nat
  deriving DecidableEq, Repr

/-- An SPDM responder: the PF or the secondary function of a port (R132). -/
structure Responder where
  version : Bool
  caps : Bool
  algs : Bool
  challenged : Bool
  sessions : List SpdmSession
  deriving DecidableEq, Repr

/-- An IDE stream's keys on a link (R133): the keys in use, and their generation. -/
structure IdeStream where
  link : Nat
  stream : Nat
  gen : Nat
  key : BitVec 256
  deriving DecidableEq, Repr

/-- A host port. -/
structure HostPort where
  cxl : Bool
  bifurcated : Bool
  totalVfs : Nat
  /-- HP_MAX_RATE as at the last cold reset (19_startup.md R571). -/
  maxRate : Nat
  perst : Bool
  link0 : HostLink
  link1 : HostLink
  pfOn : Bool
  secOn : Bool
  numVfs : Nat
  /-- Functions in D3hot. -/
  d3 : List Nat
  hdmOn : Bool
  hdmErr : Bool
  resp0 : Responder
  resp1 : Responder
  ide : List IdeStream
  /-- Earliest time at which training may start after PERST_N rose; 0 for none. -/
  trainAt : Nat
  lost : Bool
  deriving DecidableEq, Repr

/-- A waiter of the hold engine (R146). -/
structure Waiter where
  addr : Nat
  fn : Fn
  deadline : Nat
  deriving DecidableEq, Repr

/-! ## Home agent (R151 to R153) -/

/-- A snoop-filter entry: one owner, or sharers. -/
structure SfEntry where
  owner : Option (Fin 4)
  sharers : List (Fin 4)
  grantedAt : Nat
  lastUse : Nat
  deriving DecidableEq, Repr

/-- A host request waiting at a line's tracker. -/
structure HagReq where
  hp : Fin 4
  own : Bool
  waited : Nat
  deriving DecidableEq, Repr

/-- What a device-side access to memory does, from its address on (R139, R152). -/
inductive DevKind where
  /-- Bytes still to read, those read, and whether one of them was poisoned. -/
  | read (len : Nat) (got : List Byte) (poison : Bool)
  | write (data : List Byte) (poison : Bool)
  | atomic (kind : AtomicKind) (size a b : Nat)
  | hold (deadline : Nat)
  /-- Recalls the copies for an access that its command then makes. -/
  | touch (len : Nat) (write : Bool)
  deriving DecidableEq, Repr

/-- A device-side access to memory: of a host function, where one is named, or of the device itself. -/
structure DevAccess where
  fn : Option Fn
  /-- Relaxed Ordering and ID-Based Ordering are clear: it acts after the function's earlier accesses (R141). -/
  ordered : Bool
  polder : Nat
  addr : Nat
  kind : DevKind
  deriving DecidableEq, Repr

/-- A line's tracker: host requests waiting, and the back-invalidations sent and not answered. -/
structure Tracker where
  reqs : List HagReq
  snoops : List (Fin 4)
  /-- BISnpInv, not BISnpData. -/
  inv : Bool
  /-- The back-invalidations make room in the filter for this other line (R151). -/
  evictFor : Option Nat
  dev : List DevAccess
  /-- Accesses of the device served since the last host arbitration (R153). -/
  devTurn : Bool
  deriving DecidableEq, Repr

/-- A request that found no free tracker (R153): of a host for a line, or of the device. -/
inductive HagIn where
  | host (line : Nat) (r : HagReq)
  | dev (x : DevAccess)
  deriving DecidableEq, Repr

structure Hag where
  filter : Tbl SfEntry
  trackers : Tbl Tracker
  /-- Requests that found no free tracker, in arrival order. -/
  input : List HagIn
  /-- Lines whose next grant waits for room in the filter (R151). -/
  waiting : List Nat
  deriving DecidableEq, Repr

/-! ## Memory controllers (R138) -/

/-- A request at a controller: one sector of an access, from a requester, for a polder. -/
structure DmemReq where
  src : Nat
  x : DevAccess
  deriving DecidableEq, Repr

/-- A memory controller: the requests that it has and not served, in arrival order; those that their requesters keep back in their
own queues; and the polder whose turn it is, with the sectors left of it. -/
structure Dmem where
  waiting : List DmemReq
  kept : List DmemReq
  turn : Nat
  credit : Nat
  deriving DecidableEq, Repr

/-! ## Engines (R140 to R144) -/

/-- An access of an engine's code to device memory (R140), or an instruction of it that faults (R143). -/
inductive EngOp where
  | load (addr len : Nat) (acq : Bool)
  | store (addr : Nat) (data : List Byte) (rel : Bool)
  | fence
  | fault
  deriving DecidableEq, Repr

/-- A byte in a store buffer, with the number of the store that wrote it in program order. -/
structure BufByte where
  addr : Nat
  val : Byte
  seq : Nat
  deriving DecidableEq, Repr

/-- An entry of a store buffer: bytes of one line, a release store or not, and accepted by the NoC or not. -/
structure BufEntry where
  line : Nat
  bytes : List BufByte
  rel : Bool
  accepted : Bool
  deriving DecidableEq, Repr

/-- An engine: the accesses its code has still to make, in program order, each with its number; its store buffer, oldest first; and
what its loads returned, by number. -/
structure Engine where
  code : List (Nat × EngOp)
  buf : List BufEntry
  loads : Tbl (List Byte)
  deriving DecidableEq, Repr

/-! ## Work queues (06_work_queues.md) -/

/-- States of a work queue (R178). -/
inductive QSt where
  | reset | ready | active | draining | error
  deriving DecidableEq, Repr

/-- How an operation of a work entry stands. `waiting`: read below PRODUCER, not started. `started`: its own command
has not run yet. `running`: its packets or its event are outstanding. `ended`: its outcome is known and its completion
is not yet written (R174, R179). -/
inductive Stage where
  | waiting | started | running | ended
  deriving DecidableEq, Repr

/-- Where the state of a queue, ring or counter is (R162): on chip; written back to its record; or being read from there again. -/
inductive Resid where
  | held | evicted | reading
  deriving DecidableEq, Repr

/-- A work entry that the device has read below PRODUCER and not completed. -/
structure WOp where
  /-- Queue, by `qkey`. -/
  q : Nat
  /-- Slot count of its first slot. -/
  index : Nat
  /-- The entry, and its extension (0 without one). -/
  entry : BitVec 512
  ext : BitVec 512
  stage : Stage
  /-- A completion-ring slot is reserved (R173). -/
  reserved : Bool
  malformed : Bool
  status : Nat
  bytes : Nat
  source : Nat
  imm : Nat
  aux : Nat
  /-- Bytes issued in packets so far, chunks issued, packets issued and not acknowledged. -/
  issued : Nat
  chunks : Nat
  unacked : Nat
  /-- Response bytes still expected (gets, atomics, pulls). -/
  expect : Nat
  /-- Packets not acknowledged, or bytes not written, of each outstanding chunk. -/
  out : Tbl Nat
  deferred : Bool
  /-- One of its packets has been sent (10_transport.md R303). -/
  sent : Bool
  matched : Bool
  /-- Remote address of the packet whose status `err` is. -/
  errAt : Nat
  /-- The first status other than OK that was reported for it. -/
  err : Option Nat
  /-- The status it completes with whatever becomes of it, once its queue has failed (R114, R179). -/
  force : Option Nat
  /-- The engine cluster that works on it (03_register_model.md R94). -/
  cluster : Option Nat
  deriving DecidableEq, Repr

/-- A work queue that is not in RESET. -/
structure WQueue where
  st : QSt
  type : Nat
  flushDone : Bool
  errStatus : Nat
  errWorkId : Nat
  errIndex : Nat
  base : Nat
  log2 : Nat
  cq : Nat
  poll : Bool
  interval : Nat
  indexAddr : Nat
  polder : Nat
  /-- Next slot count to read as an entry; the PRODUCER last read; CONSUMER as written. -/
  next : Nat
  producer : Nat
  consumer : Nat
  /-- Prefetched slots not yet taken as entries, by slot count; `none` is a poisoned read (R608). -/
  cache : Tbl (Option (BitVec 512))
  /-- Reads of slots that have not returned, oldest first; one marked was overtaken by INVALIDATE (R171). -/
  asked : List (Nat × Bool)
  idxOut : Bool
  idxMerged : Bool
  /-- The slot whose PHASE mismatched last, its re-reads so far, and when the next one is due, or 0 (R169). -/
  retrySlot : Nat
  retries : Nat
  retryAt : Nat
  /-- Operations read and not completed, oldest first. -/
  ops : List Nat
  pollAt : Nat
  resid : Resid
  lastUse : Nat
  deriving DecidableEq, Repr

/-- A completion ring that exists (R173). -/
structure CRing where
  base : Nat
  log2 : Nat
  msixEn : Bool
  vector : Nat
  written : Nat
  consumed : Nat
  reserved : Nat
  armed : Bool
  resid : Resid
  deriving DecidableEq, Repr

/-- A completion counter (R182): its values, whether its record is to be written, and when it last was (R184). -/
structure Counter where
  count : W64
  tally : W64
  fail : W64
  dirty : Bool
  recAt : Nat
  resid : Resid
  lastUse : Nat
  deriving DecidableEq, Repr

/-- The queue control page's own registers (R192). -/
structure QcPage where
  context : Nat
  op : Nat
  target : Nat
  mask : Nat
  slot : Nat
  busy : Bool
  done : Bool
  goReject : Bool
  cfgReject : Bool
  code : Nat
  detail : Nat
  deriving DecidableEq, Repr

/-! ## Translation (07_translation.md) -/

/-- A translation space (R196). -/
structure Space where
  owner : Fn
  polder : Nat
  vaBits : Nat
  root : Nat
  gen : Nat
  deriving DecidableEq, Repr

/-- Kinds of region (R198). -/
inductive RegionKind where
  | hostMapped | hostBus | device
  deriving DecidableEq, Repr

/-- A region index that has been used (R197, R198). -/
structure Region where
  live : Bool
  gen : Nat
  owner : Fn
  polder : Nat
  kind : RegionKind
  /-- LR, LW, RR, RWR, RA in bits 0 to 4. -/
  rights : Nat
  zeroBased : Bool
  vaBase : Nat
  length : Nat
  space : Nat
  base : Nat
  /-- A write has gone through it (R212). -/
  wrote : Bool
  deriving DecidableEq, Repr

/-- The tag of a cached translation (R208). -/
inductive TrTag where
  | space (id gen : Nat)
  | ats (fn gen : Nat)
  deriving DecidableEq, Repr

/-- A cached translation: a leaf, or a table of a level in the walk cache (R209). -/
structure TrEntry where
  tag : TrTag
  va : Nat
  size : Nat
  target : Nat
  r : Bool
  w : Bool
  untranslated : Bool
  /-- A write has been translated by it (R212). -/
  wrote : Bool
  /-- Of a walk-cache entry: the level of the table it names. -/
  level : Nat
  lastUse : Nat
  deriving DecidableEq, Repr

/-- A walk in progress, or one that ended in a fault its operation has not yet met (R205, R213). -/
structure Walk where
  tag : TrTag
  owner : Fn
  va : Nat
  level : Nat
  table : Nat
  top : Nat
  discards : Nat
  hit : Bool
  spec : Bool
  key : Nat
  polder : Nat
  remote : Bool
  fault : Option Nat
  deriving DecidableEq, Repr

/-- An ATS Translation Request outstanding, or one that was refused (R206, R207). -/
structure AtsReq where
  owner : Fn
  va : Nat
  gen : Nat
  hit : Bool
  key : Nat
  polder : Nat
  remote : Bool
  fault : Bool
  /-- Speculative (R210). -/
  spec : Bool
  /-- Ranges of its tag that were invalidated meanwhile. -/
  ranges : List (Nat × Nat)
  deriving DecidableEq, Repr

/-- What translated an access: the key, the tag of the translation where it was cached, and the address (R212). -/
structure TrSrc where
  key : Nat
  tag : Option TrTag
  va : Nat
  deriving DecidableEq, Repr

/-- What an invalidation matches (R211). -/
inductive InvScope where
  | range (t : TrTag) (va len : Nat)
  | space (id : Nat)
  | fn (idx : Nat) (spaces : List Nat)
  | all
  deriving DecidableEq, Repr

/-- What an invalidation or the end of an object waits for (R212, R213): the entries it removes and the region it destroys; the walks
that it lets end first; then the reads of host memory, by tag. -/
structure InvWait where
  scope : InvScope
  key : Option Nat
  walks : List Nat
  reads : List Nat
  deriving DecidableEq, Repr

/-- An incomplete token of a channel (R212). -/
structure XToken where
  token : Nat
  wait : InvWait
  deriving DecidableEq, Repr

/-- A demand lookup that missed and waits (R218). -/
structure XMiss where
  key : Nat
  va : Nat
  remote : Bool
  deriving DecidableEq, Repr

structure Xlu where
  /-- XLU_CFG.ATS_H was changed since CTRL.ENABLE was last set (R206). -/
  modeChanged : Bool
  spaces : Tbl Space
  regions : Tbl Region
  /-- Indices of the descriptors held on chip, the least recently used first (R198, R217). -/
  descs : List Nat
  /-- Generations of the functions' ATS tags. -/
  fnGen : Tbl Nat
  tlb : List TrEntry
  victim : Tbl TrEntry
  walkCache : List TrEntry
  walks : Tbl Walk
  ats : Tbl AtsReq
  missed : List XMiss
  /-- ATS Invalidate Requests that are not yet completed (R214). -/
  atsInv : List (Fn × InvWait)
  nextWalk : Nat
  tokens0 : List XToken
  tokens1 : List XToken
  tokens2 : List XToken
  next0 : Nat
  next1 : Nat
  next2 : Nat
  deriving DecidableEq, Repr

/-! ## Packets (13_switch_core.md R410) -/

/-- A packet: the fields of its header unit and the bytes of its data units. `len` is LENGTH; `data` holds the bytes that
have arrived, 64 for each data unit. -/
structure Pkt where
  version : Nat
  vn : Nat
  vc : Nat
  epoch : Bool
  ce : Bool
  pressure : Nat
  ordered : Bool
  hopClass : Nat
  inter : Nat
  dest : Nat
  len : Nat
  src : Nat
  polder : Nat
  command : Nat
  colour : Nat
  lastBytes : Nat
  hash : Nat
  context : Nat
  srcPoison : Bool
  seq : Nat
  /-- The 24 operation-specific bytes. -/
  op : BitVec 192
  outXp : Nat
  bridgeClass : Nat
  transit : Bool
  crc : Nat
  data : List Byte
  /-- The POISON marks of the header unit and of a data unit (R416). -/
  badHdr : Bool
  badData : Bool
  deriving DecidableEq, Repr

/-- Where the payload of a packet is read from when it is built or rebuilt (10_transport.md R322): bytes that the device
holds, or a range of a region, by key and offset. -/
inductive PSrc where
  | held (data : List Byte)
  | region (key off len : Nat)
  /-- Bytes that the source found uncorrectable (13_switch_core.md R416). -/
  | lost (data : List Byte)
  deriving DecidableEq, Repr

/-- What the acknowledgement of a packet counts for: an operation, its chunk, and the remote address of the packet. -/
structure PTag where
  op : Nat
  chunk : Nat
  at_ : Nat
  /-- A quadrille packet: `op` is its membership, `chunk` its operation (11_collectives.md R366). -/
  quad : Bool
  deriving DecidableEq, Repr

/-- A packet that waits in the sluice. -/
structure WPkt where
  id : Nat
  pkt : Pkt
  src : PSrc
  hp : Fin 4
  /-- Source within its polder: 0 responses, 1 quadrilles, k + 2 the work queue of key k (R438). -/
  source : Nat
  tag : Option PTag
  /-- The data are in the packet. -/
  ready : Bool
  /-- Flagged (09_remote_access.md R285). -/
  flag : Bool
  /-- A retransmission of this sequence number; true when it counts as an attempt (10_transport.md R326, R327). -/
  again : Option (Nat × Bool)
  deriving DecidableEq, Repr

/-- What a read of host memory is for: a packet in the sluice; the atomic unit; the order behind a function's writes, of an invalidation
(07_translation.md R212) or of a flagged packet (09_remote_access.md R286); a member's own contribution to a segment. -/
inductive ReadUse where
  | packet | atomic | fence | flagged | quad
  deriving DecidableEq, Repr

/-- A read of host memory. -/
structure HostRead where
  die : Die
  fn : Fn
  packet : Nat
  off : Nat
  len : Nat
  use : ReadUse
  /-- What translated it. -/
  src : Option TrSrc
  deriving DecidableEq, Repr

/-- A polder's shaper and policer, and its tags in a lane (R437, R441, R442). Times in ns; the buckets in bytes × 8000,
so that a rate in Mb/s adds `rate` each ns. -/
structure Meter where
  credit : Int
  creditAt : Nat
  tc : Nat
  tp : Nat
  policeAt : Nat
  deriving DecidableEq, Repr

/-- Start and finish tags of a polder or of a source in a lane (R437). -/
structure Tag where
  start : Nat
  finish : Nat
  /-- Virtual time of the sources of a polder. -/
  v : Nat
  backlog : Bool
  deriving DecidableEq, Repr

/-- The sluice of a die (R436 to R443). -/
structure Sluice where
  waiting : List WPkt
  /-- TRU control and MGT packets, in arrival order. -/
  ctl : List Pkt
  /-- The injection buffer: admitted packets and how many of their units have left for the internal port, by
  port * 32 + vn * 8. -/
  inj : Tbl (List (Pkt × Nat))
  meters : Tbl Meter
  /-- Virtual times of the lanes REQ, RSP, COL. -/
  v : Tbl Nat
  /-- Tags of polders, by lane * 2^21 + entry, and of sources, by the same times 2^30 plus the source. -/
  ptags : Tbl Tag
  stags : Tbl Tag
  throttledReq : Bool
  throttledCol : Bool
  /-- Bytes admitted in the current µs while throttled, by lane. -/
  throttleAt : Nat
  throttleReq : Nat
  throttleCol : Nat
  deriving DecidableEq, Repr

/-! ## Transport (10_transport.md) -/

/-- States of a context (R301). One that has no record is FREE. -/
inductive CtxSt where
  | opening | live | unreachable
  deriving DecidableEq, Repr

/-- A descriptor of an unacknowledged packet (R322). -/
structure Desc where
  seq : Nat
  pkt : Pkt
  src : PSrc
  /-- Its source in the sluice (13_switch_core.md R438). -/
  source : Nat
  tag : Option PTag
  first : Nat
  last : Nat
  /-- Ordinal of its last transmission on the context. -/
  ord : Nat
  attempts : Nat
  /-- A TRU_ACK bitmap has shown it as landed or rejected. -/
  shown : Bool
  deriving DecidableEq, Repr

/-- A packet acknowledged, whose operation waits for outcome records below an ordinal (R316). -/
structure Covered where
  seq : Nat
  tag : PTag
  need : Nat
  deriving DecidableEq, Repr

/-- How a received sequence number stands (R317, R318): waiting in the reorder buffer, handed on, landed, rejected. -/
inductive RxSt where
  | reorder | handed | landed | rejected
  deriving DecidableEq, Repr

structure RxEnt where
  seq : Nat
  st : RxSt
  pkt : Option Pkt
  deriving DecidableEq, Repr

/-- An outcome record (R315). -/
structure OutRec where
  seq : Nat
  ordinal : Nat
  status : Nat
  /-- 1 REJECTED, 2 DEFERRED. -/
  outcome : Nat
  sentAt : Nat
  deriving DecidableEq, Repr

/-- A transport context (R295 to R329). Rates in Gb/s and alpha are held times 2^16; times in ns; the round-trip
estimates in ns times 2^16; the pacer's credit in bits times 2^16. -/
structure Ctx where
  hp : Fin 4
  fea : Nat
  st : CtxSt
  version : Nat
  /-- The peer's index, once known. -/
  remote : Option Nat
  isn : Nat
  peerIsn : Nat
  -- send half
  nextSeq : Nat
  cumAcked : Nat
  descs : List Desc
  covered : List Covered
  txOrd : Nat
  srtt : Nat
  rttvar : Nat
  rto : Nat
  /-- Number of doublings of the timer, when it expires (0 when not running), and when the budget does. -/
  backoff : Nat
  timerAt : Nat
  budgetAt : Nat
  /-- Retransmissions due, lowest first; true for one that counts as an attempt. -/
  due : List (Nat × Bool)
  rnrSeq : Nat
  rnrDelay : Nat
  rnrAt : Nat
  /-- Records received from the peer: the next ordinal expected, and those that came early. -/
  gotNext : Nat
  gotAny : Bool
  early : List OutRec
  echoDue : Bool
  openAt : Nat
  opens : Nat
  holdAt : Nat
  -- receive half
  cum : Nat
  rx : List RxEnt
  tracker : Bool
  records : List OutRec
  nextOrd : Nat
  counted : Nat
  marked : Nat
  sinceAck : Nat
  ackAt : Nat
  farAt : Nat
  gapAt : Nat
  /-- Lowest number refused as receiver-not-ready, until it is received. -/
  refused : Option Nat
  -- rate control
  rate : Nat
  target : Nat
  alpha : Nat
  stage : Nat
  sawMark : Bool
  lastDec : Option Nat
  credit : Nat
  creditAt : Nat
  -- cache
  cached : Bool
  loading : Bool
  dirty : Bool
  lastUse : Nat
  deriving DecidableEq, Repr

/-- A packet that the TRU has handed on to its consumer (R318). -/
structure Handed where
  id : Nat
  pkt : Pkt
  ctx : Nat
  seq : Nat
  /-- The consumer has performed it. -/
  done : Bool
  /-- Lines of device memory that its writes wait for. -/
  lines : List Nat
  /-- Reads of host memory that it has made, by tag (09_remote_access.md R277). -/
  reads : List Nat
  deriving DecidableEq, Repr

/-- A packet at the TRU, passed or rejected at ejection (04_polders.md R107, R108). -/
structure InPktT where
  pkt : Pkt
  reject : Option Nat
  deriving DecidableEq, Repr

structure Tru where
  ctxs : Tbl Ctx
  inbox : List InPktT
  ctlIn : List Pkt
  handed : List Handed
  nextHanded : Nat
  /-- Contexts whose pairs the directory holds on chip, the least recently used first (R298). -/
  dir : List Nat
  /-- Writeback buffer: indices, oldest first (R307). -/
  wb : List Nat
  /-- Phase of the INC_INTERVAL tick. -/
  tickAt : Nat
  deriving DecidableEq, Repr

/-! ## Remote access (09_remote_access.md) -/

/-- A flagged packet in the flag hold (R285), by handed-on packet. -/
structure FlagHeld where
  handed : Nat
  since : Nat
  deriving DecidableEq, Repr

/-- A deferred target-counter event or notification (R280, R282). -/
structure Deferred where
  id : Nat
  ctx : Nat
  seq : Nat
  opId : Nat
  /-- Counter to add to, by key. -/
  ctr : Option Nat
  since : Nat
  /-- Ring to notify, by key, and the completion entry's fields: OP_LENGTH, source FEA, IMMEDIATE, RKEY. -/
  note : Option (Nat × Nat × Nat × Nat × Nat)
  deriving DecidableEq, Repr

/-- A notification slot reserved for a PUT_NOTIFY in progress (R281), by context and OP_ID. A refused one keeps no slot,
and its later packets are refused as well; `gone` is one whose ring has been destroyed since (R282). -/
structure NotifyRes where
  ctx : Nat
  opId : Nat
  ring : Nat
  refused : Bool
  gone : Bool
  deriving DecidableEq, Repr

/-- A host-memory atomic in the atomic unit, waiting for its read (R279). -/
structure HostAtomic where
  id : Nat
  handed : Nat
  owner : Fn
  addr : Nat
  /-- The data read, while the write waits for its translation (07_translation.md R215). -/
  got : Option (List Byte)
  deriving DecidableEq, Repr

/-- A get being served at its target (R274): the RADDR of its FIRST request, the bytes served, and the end of its LAST
request. -/
structure GetBase where
  ctx : Nat
  opId : Nat
  base : Option Nat
  served : Nat
  last : Option Nat
  deriving DecidableEq, Repr

/-- An operation of which this target has rejected a packet, or read lost data (R280): its context and OP_ID, and the packet's number. -/
structure FailedOp where
  ctx : Nat
  opId : Nat
  seq : Nat
  deriving DecidableEq, Repr

structure Rma where
  gets : List GetBase
  failed : List FailedOp
  /-- Flagged packets that wait for a read on the port's other link, by number, and whether it has returned (R286). -/
  fenced : List (Nat × Bool)
  flags : List FlagHeld
  events : List Deferred
  nextEvent : Nat
  res : List NotifyRes
  atomics : List HostAtomic
  deriving DecidableEq, Repr

/-! ## Message matching (08_matching.md) -/

/-- Match fields: of a receive, or of a message (with nothing ignored). -/
structure MKey where
  context : Nat
  source : Nat
  bits : Nat
  ignore : Nat
  anySource : Bool
  deriving DecidableEq, Repr

/-- Modes of an unexpected message (R243). -/
inductive UxMode where
  | inline | stored | header
  deriving DecidableEq, Repr

/-- An unexpected message (R243). -/
structure Ux where
  asn : Nat
  key : MKey
  len : Nat
  mode : UxMode
  /-- Its descriptor's home, by number (R234). -/
  home : Nat
  /-- The data that the descriptor keeps (INLINE), and whether they came poisoned. -/
  data : List Byte
  poison : Bool
  /-- Data bytes that have arrived. -/
  got : Nat
  /-- Its granules, by number, in the order of its data (STORED). -/
  granules : List Nat
  msgId : Nat
  fea : Nat
  fn : Nat
  hp : Fin 4
  sync : Bool
  polder : Nat
  /-- The handle of a TMPROBE that took it. -/
  handle : Option Nat
  /-- A receive has matched it and its data are being copied. -/
  taken : Bool
  ctx : Nat
  deriving DecidableEq, Repr

/-- A posted receive (R232): its PSN, match fields, and its operation. -/
structure Posted where
  psn : Nat
  key : MKey
  op : Nat
  polder : Nat
  deriving DecidableEq, Repr

/-- An entry of a bin, of a spilled chain or of a wildcard list: a run of posted receives or of unexpected messages, by
number in ascending order (R235, R237, R238). -/
structure MEnt where
  q : Nat
  posted : Bool
  key : MKey
  members : List Nat
  wild : Bool
  table : Bool
  bin : Nat
  onchip : Bool
  /-- Members of the run after its head that are on chip (R238). -/
  kept : List Nat
  deriving DecidableEq, Repr

/-- An operation on a queue whose lookup waits for spilled entries (R242): an arrival, by handed-on packet, or a work entry. One with
`input` waits in the TMU's input, at a limit of waiting lookups. -/
structure Lookup where
  id : Nat
  q : Nat
  polder : Nat
  arrival : Option Nat
  op : Option Nat
  left : Nat
  input : Bool
  deriving DecidableEq, Repr

/-- An eager message in delivery: to a receive, to granules, or discarded (R244, R250). -/
inductive Into where
  | recv (op : Nat)
  | ux (q asn : Nat)
  | drop
  deriving DecidableEq, Repr

structure Inbound where
  ctx : Nat
  msgId : Nat
  len : Nat
  got : Nat
  into : Into
  deriving DecidableEq, Repr

/-- A pull of a HEADER_ONLY message (R248), by the receive's operation. -/
structure Pull where
  op : Nat
  polder : Nat
  fea : Nat
  hp : Fin 4
  msgId : Nat
  msgLen : Nat
  total : Nat
  asked : Nat
  got : Nat
  deriving DecidableEq, Repr

/-- A STORED message being copied to the receive that matched it (R245). -/
structure UxCopy where
  op : Nat
  q : Nat
  asn : Nat
  deriving DecidableEq, Repr

structure Tmu where
  copies : List UxCopy
  /-- Homes of receives in the spillway, by operation (R234). -/
  homes : Tbl Nat
  /-- PSN of the last receive of each queue. -/
  psn : Tbl Nat
  posts : Tbl (List Posted)
  uxs : Tbl (List Ux)
  asn : Tbl Nat
  ents : List MEnt
  lookups : List Lookup
  nextLookup : Nat
  inbound : List Inbound
  pulls : List Pull
  /-- Table keys K[0] and K[1] (R236). -/
  key0 : Nat
  key1 : Nat
  live : Bool
  rehash : Bool
  cutAt : Option Nat
  /-- Lookups of the interval by entries examined, and when the interval began (R254). -/
  hist : Tbl Nat
  histAt : Nat
  deriving DecidableEq, Repr

/-! ## Routing and the switch core (12_routing.md, 13_switch_core.md) -/

/-- The group status last received from a router, or a half of one (R383, R409). -/
structure PeerStatus where
  at_ : Nat
  half : Nat
  seq : Nat
  globalLive : Nat
  localLive : Nat
  globalP : List Nat
  localP : List Nat
  deriving DecidableEq, Repr

/-- A flowlet-table entry (R394). -/
structure Flow where
  seen : Nat
  sel : Bool
  inter : Nat
  port : Option Nat
  /-- The decision is a detour (R390). -/
  detour : Bool
  deriving DecidableEq, Repr

structure Rtb where
  /-- GROUP_STATUS packets to consume. -/
  inbox : List Pkt
  peers : Tbl PeerStatus
  stale : List Nat
  gsAt : Nat
  gsSeq : Nat
  flowKey : Nat
  seed0 : Nat
  seed1 : Nat
  flows : Tbl Flow
  winAt : Nat
  winBytes : Tbl Nat
  deriving DecidableEq, Repr

/-- A packet in an input VC (R418): how many of its units have arrived and have left, where each stored unit lies, oldest
first (true: basin), the POISON marks of the units that have arrived, and the output port and VC that its route names.
`granted` holds that output VC, `since` is when its header arrived, `decided` that random early drop has been decided for
it, and `drop` that its units are consumed as they arrive. -/
structure InPkt where
  pkt : Pkt
  arrived : Nat
  sent : Nat
  basin : List Bool
  marks : List Bool
  out : Option (Nat × Nat)
  granted : Bool
  since : Nat
  decided : Bool
  drop : Bool
  deriving DecidableEq, Repr

/-- A unit in an output's staging buffer: its VC as `vn * 8 + vc`, its bytes, the kind of its credit, its poison mark. -/
structure OUnit where
  vc : Nat
  bytes : List Byte
  shared : Bool
  poison : Bool
  head : Bool
  tail : Bool
  since : Nat
  deriving DecidableEq, Repr

/-- The switch core of a die. Its ports: 0 to 63 are network ports, crossbar port k being 2k, and 2k + 1 too where two
one-lane ports share it (01_anatomy.md R12); 64 to 71 are internal ports, 72 to 79 bridge ports. -/
structure Swc where
  /-- Input VCs, by port * 32 + vn * 8 + vc. -/
  ins : Tbl (List InPkt)
  /-- Staging of the outputs, by port. -/
  stage : Tbl (List OUnit)
  /-- The input VC whose packet holds an output VC, by the output's port * 32 + vn * 8 + vc. -/
  owner : Tbl Nat
  /-- Credits held for sending on a port: dedicated by port * 32 + vn * 8 + vc, shared by port. The sluice's credits for
  the internal ports stand under 128 + port. -/
  ded : Tbl Nat
  shr : Tbl Nat
  /-- Withheld shared credits, oldest first: port and virtual network (R425). -/
  withheld : List (Nat × Nat)
  reserved : Nat
  /-- Its share of each input port. -/
  resv : Tbl Nat
  grantPtr : Tbl Nat
  acceptPtr : Tbl Nat
  vcPtr : Tbl Nat
  deficit : Tbl Nat
  mgtAt : Tbl Nat
  cell : Nat
  /-- Packets that have left by an internal port, by port, with the time at which their header arrived (12_routing.md R374). -/
  ejected : List (Nat × Pkt × Nat)
  deriving DecidableEq, Repr

/-! ## Quadrilles (11_collectives.md) -/

/-- An item of a segment: the member's own contribution (0) or child k's (k + 1), its FORMAT and its bytes. -/
structure QItem where
  idx : Nat
  fmt : Nat
  data : List Byte
  deriving DecidableEq, Repr

/-- What a member has of its own contribution to a segment: it is still to be read; the reads of host memory for it are outstanding, under a
number; it has been taken in, or none is due. -/
inductive OwnData where
  | due
  | reading (id : Nat) (data : List Byte) (poison : Bool)
  | taken
  deriving DecidableEq, Repr

/-- A segment in flight at a member: it holds a slot set (a home or a borrowed one) except at a LEAF. -/
structure QSeg where
  seg : Nat
  opseq : Nat
  /-- Its index within its operation, and its elements. -/
  idx : Nat
  elems : Nat
  items : List QItem
  /-- The partial, once formed (INTERIOR), and the result. -/
  part : Option (Nat × List Byte)
  sent : Bool
  own : OwnData
  /-- The result, its second copy (R357), and whether its data were found uncorrectable. -/
  result : Option (List Byte)
  copy : Option (List Byte)
  poison : Bool
  written : Bool
  /-- Children that it was sent to, and packets sent from the set that are not acknowledged. -/
  down : List Nat
  unacked : Nat
  home : Bool
  /-- Its wait has been counted (R358). -/
  waited : Bool
  deriving DecidableEq, Repr

/-- An operation in progress at a member (R347). -/
structure QOp where
  op : Nat
  opseq : Nat
  /-- 0 ALLREDUCE, 1 REDUCE, 2 BCAST, 3 BARRIER. -/
  kind : Nat
  qop : Nat
  dtype : Nat
  count : Nat
  first : Nat
  segs : Nat
  begun : Nat
  done : Nat
  unacked : Nat
  bytes : Nat
  deriving DecidableEq, Repr

/-- Data of an operation that the member has not started (R360), as it arrived. -/
structure QEarly where
  child : Nat
  opseq : Nat
  seg : Nat
  kind : Nat
  qop : Nat
  dtype : Nat
  count : Nat
  fmt : Nat
  elems : Nat
  data : List Byte
  deriving DecidableEq, Repr

inductive MemberSt where
  | joining | ready | releasing | failed
  deriving DecidableEq, Repr

/-- A membership (R335 to R341). -/
structure Member where
  polder : Nat
  qid : Nat
  fn : Fn
  /-- 0 LEAF, 1 INTERIOR, 2 ROOT. -/
  role : Nat
  fast : Bool
  parent : Nat
  index : Nat
  children : List Nat
  count : Nat
  window : Nat
  st : MemberSt
  since : Nat
  joinOp : Option Nat
  joinSent : Bool
  joined : List Nat
  opCount : Nat
  nextSeg : Nat
  ops : List QOp
  segs : List QSeg
  early : List QEarly
  /-- Highest segment that the parent has granted, that this member has granted to its children and to its parent, and that each child
  has granted. -/
  credit : Option Nat
  granted : Option Nat
  grantedUp : Option Nat
  childCredit : Tbl Nat
  /-- The next segment, where its wait for a slot set has been counted (R358). -/
  waited : Option Nat
  releaseOp : Option Nat
  releases : Tbl Nat
  aborts : List (Nat × Nat)
  /-- The QDU of the other die serves it (R365). -/
  moved : Bool
  deriving DecidableEq, Repr

/-- A JOIN in the pending-join table (R339). -/
structure PendJoin where
  polder : Nat
  qid : Nat
  hp : Fin 4
  fea : Nat
  index : Nat
  fast : Bool
  at_ : Nat
  deriving DecidableEq, Repr

/-! ## Links, the die bridge and the NoC (14_link_layer.md, 01_anatomy.md R18 to R26) -/

/-- A flit of the replay buffer (14_link_layer.md R460). -/
structure TxFlit where
  seq : Nat
  units : List OUnit
  sentAt : Nat
  replays : Nat
  deriving DecidableEq, Repr

/-- A port's link layer, besides its registers (14_link_layer.md R448 to R475). -/
structure Llu where
  /-- CTRL.ENABLE has been set since reset or APPLY. -/
  started : Bool
  /-- When the current attempt began, when the port left ACTIVE, when a flit last passed its check. -/
  began : Nat
  downAt : Nat
  rxAt : Nat
  /-- The port has been ACTIVE since its last fresh start. -/
  ran : Bool
  /-- It has given up what it held (R468). -/
  gaveUp : Bool
  nextTx : Nat
  nextRx : Nat
  gotData : Bool
  /-- Flits sent and not acknowledged, oldest first, and the next one to send again. -/
  buf : List TxFlit
  replayAt : Option Nat
  awaiting : Bool
  /-- The last replay that a NACK began: from which flit, and when. -/
  nackFrom : Option (Nat × Nat)
  /-- The least round trip of the current window, and when the window began (R457). -/
  rttBest : Option Nat
  rttAt : Nat
  /-- Credits returned by channel, the totals last sent, the next channel of the rotation, and the 32-bit
  totals that the partner's reports have reached. -/
  totals : Tbl Nat
  told : Tbl Nat
  chan : Nat
  seen : Tbl Nat
  /-- INSTANCE, and the partner's last seen in ACTIVE. -/
  inst : Nat
  pinst : Nat
  /-- The partner's last compatible PROPOSE or AGREE: its negotiate units. -/
  offer : Option (List Byte)
  agreeing : Bool
  sendAt : Nat
  /-- A change requested of the partner: lanes, rate, when (R469). -/
  change : Option (Nat × Nat × Nat)
  /-- Lanes and rate that the next training uses. -/
  useMask : Nat
  useRate : Nat
  /-- Times of the failed attempts of the last 60 s. -/
  fails : List Nat
  /-- When the flit left that carried the header unit of the MGT_MSG in transmission (18_counters.md R557). -/
  stamp : Option Nat
  /-- When NEGOTIATE or FAILED began. -/
  negAt : Nat
  /-- A new INSTANCE has been drawn for the fresh start of this attempt (R466). -/
  fresh : Bool
  /-- Striping (R453; 15_lanes.md R479): the active lane of the next block sent; of the flit being received, the next position, its blocks
  so far, whether one of them is uncorrectable, and whether its first block was seen. -/
  stripe : Nat
  rxPos : Nat
  rxPart : List Byte
  rxBad : Bool
  rxOpen : Bool
  deriving DecidableEq, Repr

/-- A NoC unit (01_anatomy.md R25), without its check bits. -/
structure NocUnit where
  data : BitVec 512
  head : Bool
  tail : Bool
  /-- 0 PST, 1 NRQ, 2 BIV, 3 CPL (R28). -/
  cls : Nat
  destStop : Nat
  destDie : Nat
  srcStop : Nat
  srcDie : Nat
  poison : Bool
  deriving DecidableEq, Repr

/-- A NoC link into a stop (R26, R28): the units sent over it and not yet received intact, which are the sender's retry buffer; the
units received and waiting at the stop; and the failed retries in a row. -/
structure NocLink where
  sent : List NocUnit
  bufs : List NocUnit
  fails : Nat
  deriving DecidableEq, Repr

/-- A die's NoC: its links, by stop + 64 * side (sides 0 east, 1 north, 2 west, 3 south, and 4 the stop's own unit); the hold buffers
by stop (R30); the units at the bridge gateways whose transaction is not complete there; corrected units (R26). -/
structure Noc where
  links : Tbl NocLink
  hold : Tbl (List NocUnit)
  cross : List NocUnit
  corrected : Nat
  deriving DecidableEq, Repr

/-- A unit of a bridge flit (R19, R22): of a packet, with its bridge port, or of a NoC transaction, with its class. -/
inductive BUnit where
  | switch (port : Nat) (u : OUnit)
  | noc (cls : Nat) (bytes : List Byte)
  deriving DecidableEq, Repr

/-- A bridge flit (R19): its module's sequence number, its stripe number, its units, and a credit return. -/
structure BFlit where
  seq : Nat
  stripe : Nat
  idle : Bool
  ack : Option Nat
  nack : Bool
  units : List BUnit
  credit : Option (Nat × Nat)
  deriving DecidableEq, Repr

/-- One end of a bridge module (R18 to R21; 16_faults.md R506): what it sends, its replay buffer, and the flits on their
way to the other die. -/
structure BMod where
  live : Bool
  training : Bool
  trainAt : Nat
  nextTx : Nat
  nextRx : Nat
  gotData : Bool
  ackDue : Bool
  buf : List BFlit
  wire : List BFlit
  awaiting : Bool
  replays : Nat
  /-- Failed retrains in a row. -/
  retrains : Nat
  rxAt : Nat
  /-- Times of failures within the window of 16_faults.md R506. -/
  fails : List Nat
  deriving DecidableEq, Repr

/-- A die's end of the bridge: its modules, the stripe numbers, the re-sequence buffer, the credits it owes, the units of NoC
transactions that wait to cross, the credits that each NoC class has in use, and of each class the transaction that is arriving: its
header and the data units still to come. -/
structure Bridge where
  mods : Tbl BMod
  stripeTx : Nat
  stripeRx : Nat
  next : Nat
  held : Tbl BFlit
  owed : Tbl Nat
  nocTx : List (Nat × List Byte)
  nocUsed : Tbl Nat
  nocRx : Tbl (NocUnit × Nat)
  deriving DecidableEq, Repr

/-! ## Performance counters (18_counters.md) -/

/-- What an event counter counts in the current window (R548). -/
structure EvSel where
  event : Nat
  polder : Nat
  filter : Bool
  deriving DecidableEq, Repr


/-! ## Faults (16_faults.md) -/

/-- A retirement record (R517). -/
structure RetRec where
  eventSeq : Nat
  time : Nat
  cls : Nat
  cleared : Bool
  cause : Nat
  die : Nat
  index : Nat
  spare : Nat
  deriving DecidableEq, Repr

/-- An event record (R518). -/
structure EvRec where
  seq : Nat
  time : Nat
  type : Nat
  cls : Nat
  die : Nat
  visible : Bool
  index : Nat
  count : Nat
  detail : Nat
  addr : Nat
  polder : Nat
  fea : Nat
  deriving DecidableEq, Repr

/-- The fault manager, with the two regions of the fault log by slot. -/
structure FaultMgr where
  table : Tbl RetRec
  ring : Tbl EvRec
  /-- By combination of TYPE, CLASS, DIE, INDEX: when its last record was written, and the events since (R518). -/
  limits : Tbl (Nat × Nat)
  /-- The current second, the records written in it, and those suppressed. -/
  secAt : Nat
  secCount : Nat
  suppressed : Nat
  /-- Heartbeats missed in a row, by die; and when the next one is due (R500). -/
  missed : Pair Nat
  beatAt : Pair Nat
  /-- Times of the events that the conditions of R501 count, by what they count. -/
  seen : Tbl (List Nat)
  /-- Counter values when last read, with when, and consecutive windows above the limit, by lane. -/
  lanes : Tbl (Nat × Nat × Nat × Nat)
  /-- Counter values of a port, a module or a QDU when last read. -/
  last : Tbl Nat
  /-- The domain that DOMAIN_CYCLE is cycling (17_power.md R540), as 32 * die + i. -/
  cycling : Option Nat
  /-- Basin banks (0) and replay-pool banks (1 + number) out of service, by die * 2^40 + the index of the row whose loss took them
  (16_faults.md R510). -/
  lostBanks : Tbl Nat
  /-- Host ports that are lost and do not yet present configuration space again: since when (R520). -/
  down : Tbl Nat
  deriving DecidableEq, Repr


/-! ## Fabric time and windows (18_counters.md) -/

/-- The fabric time of a die: its count, the fraction of a ns it has gained in units of 10^-9 ns, and the loop's own values
(R556 to R559). -/
structure FTime where
  ns : Nat
  frac : Int
  sum : Int
  good : Nat
  exch : Nat
  /-- The exchanges in flight: number and time sent. -/
  waiting : List (Nat × Nat)
  nextAt : Nat
  deriving DecidableEq, Repr

/-- A die's counter window in progress and what the view page latched (R549 to R555). -/
structure Window_ where
  startFt : Nat
  startAt : Nat
  /-- Flags of the window in progress: STEP, CLEARED, CONFIG. -/
  step : Bool
  cleared : Bool
  config : Bool
  seq : Nat
  lostSince : Nat
  /-- EV_CFG values that take effect at the next boundary, by counter; and the counters that restarted. -/
  evNext : List Nat
  restarted : Nat
  /-- WIN_SEQ, WIN_START, WIN_DURATION, FLAGS of the last window latched, and the polder counters by entry * 6 + m. -/
  vSeq : Nat
  vStart : Nat
  vDur : Nat
  vFlags : Nat
  vCounts : Tbl Nat
  deriving DecidableEq, Repr


/-! ## Lanes (15_lanes.md) -/

/-- What a training frame's control field carries (R486). -/
structure TFrame where
  phase : Nat
  rank : Nat
  rate : Nat
  reach : Nat
  rxReady : Bool
  fecLocked : Bool
  reqTap : Nat
  reqAction : Nat
  reqPreset : Nat
  rspStatus : Nat
  reqToggle : Bool
  rspToggle : Bool
  laneNum : Nat
  prbsPattern : Nat
  prbsAck : Bool
  deriving DecidableEq, Repr

/-- The stream that a lane sends (R477 to R479): bits of the message being filled and how many they are, data codewords since the last
alignment codeword, periods since the lane last began to send codewords, and the last precoded symbol. -/
structure LaneTx where
  msg : Nat
  bits : Nat
  words : Nat
  period : Nat
  last : Nat
  deriving DecidableEq, Repr

/-- The stream that a lane receives (R479, R481): bits of a block begun and whether they are uncorrectable, data codewords since the last
alignment codeword, its PERIOD, the position in its flit of the next block, the last precoded symbol, and blocks not yet taken:
position, bytes, uncorrectable. -/
structure LaneRx where
  msg : Nat
  bits : Nat
  bad : Bool
  words : Nat
  period : Option Nat
  phase : Nat
  last : Nat
  queue : List (Nat × List Byte × Bool)
  deriving DecidableEq, Repr

/-- A lane's own state besides its registers. -/
structure Lane where
  /-- When the current step began, and when the current training began. -/
  stepAt : Nat
  trainAt : Nat
  /-- A full training, and not from stored coefficients. -/
  full : Bool
  /-- The frame it sends, and the last toggle of a request it applied. -/
  tx : TFrame
  lastReq : Option Bool
  /-- Requests made in TX_EQ. -/
  requests : Nat
  /-- Qualification: counter values at the start of the window, and whether it is the longer one (R488). -/
  qualAt : Nat
  qualCw : Nat
  qualSym : Nat
  qualUnc : Nat
  qualLong : Bool
  qualFails : Nat
  rxReady : Bool
  /-- It has passed qualification. -/
  passed : Bool
  partner : Option TFrame
  adaptAt : Nat
  /-- STATE to return to after PRBS. -/
  back : Nat
  /-- When its PRBS checker locked. -/
  prbsAt : Nat
  /-- The 32 taps of its feed-forward equaliser (R483). -/
  ffe : List Nat
  code : LaneTx
  line : LaneRx
  deriving DecidableEq, Repr


/-! ## The service die (19_startup.md, 20_package.md) -/

/-- The two copies of a persistent setting, each a generation and a value while valid (R573). -/
structure Setting where
  c0 : Option (Nat × Nat)
  c1 : Option (Nat × Nat)
  deriving DecidableEq, Repr

/-- A request that the mailbox's SEND_MGT has outstanding (R575, R578). -/
structure MgtReq where
  id : Nat
  dest : Nat
  bytes : List Byte
  sentAt : Nat
  retries : Nat
  deriving DecidableEq, Repr

/-- An answered request: its source, REQ_ID, RESPONSE, and when (R578). -/
structure MgtAns where
  fea : Nat
  id : Nat
  resp : List Byte
  at_ : Nat
  deriving DecidableEq, Repr

/-- The TAP: its instruction and its boundary register (R583, R584). -/
structure Tap where
  ir : Nat
  boundary : List Bool
  /-- The instruction that holds control of the pins, 0 for none. -/
  drives : Nat
  deriving DecidableEq, Repr

structure Svc where
  settings : Tbl Setting
  request : Option MgtReq
  answers : List MgtAns
  inbox : List Pkt
  /-- EVENTs sent in the current second (R579). -/
  evAt : Nat
  evCount : Nat
  /-- I3C: dynamic address, in-band interrupts, pointer, event-ring slot (R582). -/
  dynAddr : Option Nat
  /-- The static address of I3C, as the settings held it at the last cold reset (R571). -/
  staticAddr : Nat
  ibi : Bool
  ptr : Nat
  slot : Nat
  tap : Tap
  pwrgood : Bool
  resetN : Bool
  /-- The responder of the out-of-band port (R581). -/
  oob : Responder
  /-- Samples in a row at or above the trip point, by sensor group; the trip has acted; when the next sample is due (20_package.md R603). -/
  hot : Nat
  tripped : Bool
  sampleAt : Nat
  /-- Step 8 of power-up began then (R564). -/
  trainingAt : Nat
  deriving DecidableEq, Repr


/-! ## Power domains (17_power.md) -/

/-- A register write held for a domain (R79). -/
structure HeldWrite where
  rq : Requester
  off : Nat
  bytes : Nat
  data : Nat
  deriving DecidableEq, Repr

/-- A switched domain, besides DOM_STATE (R525 to R540). -/
structure Dom where
  /-- Since when it has been idle; none while it is busy. -/
  idleAt : Option Nat
  /-- When it entered its state. -/
  stateAt : Nat
  /-- A handshake: when it began, and whether FENCE_ACK has come. -/
  fenceAt : Nat
  acked : Bool
  /-- A wake is raised: when the domain reaches Galop. -/
  wakeAt : Option Nat
  held : List HeldWrite
  deriving DecidableEq, Repr

/-! ## Outputs -/

/-- Answers of an SPDM responder (R132). -/
inductive SpdmAnswer where
  | version
  | capabilities
  | algorithms
  | digests (d0 d1 : BitVec 384)
  | certificate (slot : Nat) (c : BitVec 384)
  | signed (sig : Nat)
  | measurements (m : List (BitVec 384))
  | keyExchange (session : Nat)
  | sessionLimit
  | ack (code : Nat)
  | ideKm (stream gen : Nat)
  | unexpected
  deriving DecidableEq, Repr

/-- What the device sends: to a host, to another device, at its other ports. -/
inductive Output where
  | hostWrite (f : Fn) (addr : Nat) (relaxed : Bool) (data : List Byte)
  | hostRead (f : Fn) (addr len : Nat)
  /-- Translated requests (07_translation.md R207). -/
  | translatedWrite (f : Fn) (addr : Nat) (relaxed : Bool) (data : List Byte)
  | translatedRead (f : Fn) (addr len : Nat)
  /-- A write and a read of host memory on a port with cache coherence (05_host_ports.md R128). -/
  | itoMWr (f : Fn) (addr : Nat) (data : List Byte)
  | rdCurr (f : Fn) (addr len : Nat)
  /-- A function reports an advisory non-fatal Poisoned TLP Received (05_host_ports.md R131). -/
  | advisory (f : Fn)
  /-- A register read completes (03_register_model.md R73). -/
  | regData (rq : Requester) (value : Nat)
  /-- What configuration space shows of a capability: its values, where the function presents it (05_host_ports.md R127). -/
  | capability (f : Fn) (values : Option (List Nat))
  | readReturn (f : Fn) (data : List Byte) (poison : Bool)
  | msix (f : Fn) (vector : Nat)
  | bisnp (h : Fin 4) (line : Nat) (inv : Bool)
  | memData (h : Fin 4) (line : Nat) (own : Bool) (data : List Byte) (poison : Bool)
  | memCmp (h : Fin 4) (line : Nat)
  | atsRequest (f : Fn) (va : Nat)
  | atsInvalidateDone (f : Fn)
  | poisoned (f : Fn) (addr : Nat)
  /-- A flit leaves a network port. -/
  | flit (np : Nat) (bytes : List Byte)
  /-- A datagram's plaintext at the out-of-band port. -/
  | oob (bytes : List Byte)
  | arpReply (ip mac : Nat)
  | neighbourAdvert (ip : Nat)
  | echoReply (v6 : Bool) (data : List Byte)
  /-- An in-band interrupt of the I3C target, with its mandatory byte. -/
  | ibi (b : Nat)
  | i3c (bytes : List Byte)
  /-- Bits shifted out at TDO. -/
  | tdo (bits : List Bool)
  /-- A training frame leaves a lane: its control field, and whether its pattern is PRBS13Q or PRBS13 at levels 0 and 3. -/
  | frame (lane : Nat) (control : BitVec 128) (q : Bool)
  /-- The PAM4 symbols of a codeword leave a lane. -/
  | symbols (lane : Nat) (levels : List Nat)
  | thermTrip
  | avs (d : Die) (mv : Nat)
  | spdm (w : RespPort) (a : SpdmAnswer)
  deriving DecidableEq, Repr

/-! ## The whole device -/

/-- Part numbers (00_scope.md R1): UX9128-F, -C and -E. -/
inductive Part where
  | f | c | e
  deriving DecidableEq, Repr

/-- What one die holds besides its registers. -/
structure DieState where
  polders : Tbl Polder
  /-- Checkers whose copy of the polder table is being refreshed, by number: until when (16_faults.md R503). -/
  staleChecks : Tbl Nat
  /-- The key of the check words of this die's queue-set records (06_work_queues.md R163). -/
  recKey : Nat
  xlu : Xlu
  hag : Hag
  /-- Controllers of the die's stacks, by stack. -/
  dmem : Tbl Dmem
  /-- Stacks above 85 °C, whose refresh rate is doubled (20_package.md R602). -/
  hotStacks : List Nat
  trig : List Nat
  sweepAt : Nat
  sluice : Sluice
  tru : Tru
  rma : Rma
  tmu : Tmu
  rtb : Rtb
  swc : Swc
  llus : Tbl Llu
  bridge : Bridge
  noc : Noc
  /-- The event counters that count, by number. -/
  evs : Tbl EvSel
  lanes : Tbl Lane
  /-- Quad PLLs that are locked, and when those that lock began to. -/
  plls : List Nat
  pllAt : Tbl Nat
  ft : FTime
  win : Window_
  /-- Fabric-time messages to consume, with the fabric time of their arrival (R557). -/
  syncIn : List (Pkt × Nat)
  doms : Tbl Dom
  /-- Since when each spine island has had no work (17_power.md R532). -/
  idleIsl : Tbl Nat
  members : Tbl Member
  nextMember : Nat
  joins : List PendJoin
  deriving DecidableEq, Repr

structure State where
  part : Part
  serial : Nat
  stepping : Nat
  rootKey : OwnerKey
  now : Nat
  free : Nat
  regs : Tbl Nat
  mem : Tbl Byte
  poison : List Nat
  out : List Output
  store : Store
  ims : ImsState
  running : Option Structure
  dies : Pair DieState
  hps : Vector HostPort 4
  /-- The key of the memory interleave (05_host_ports.md R137). -/
  memKey : Nat
  waiters : List Waiter
  /-- When a line was last recalled for its waiters (05_host_ports.md R149). -/
  recallAt : Tbl Nat
  holdCounts : Tbl Nat
  /-- A function's ordered accesses that have not acted, in arrival order: the first is under way (05_host_ports.md R141). -/
  hostQ : Tbl (List DevAccess)
  engines : Tbl Engine
  queues : Tbl WQueue
  rings : Tbl CRing
  ctrs : Tbl Counter
  qcs : Tbl QcPage
  ops : Tbl WOp
  nextOp : Nat
  reads : Tbl HostRead
  nextRead : Nat
  nextPkt : Nat
  fm : FaultMgr
  svc : Svc
  pending : List Instr
  deriving DecidableEq, Repr

/-! ## The state after reset (00_scope.md R7; 19_startup.md R564, R568) -/

def Xlu.reset : Xlu :=
  { modeChanged := false, spaces := [], regions := [], descs := [], fnGen := [], tlb := [], victim := [], walkCache := [], walks := [], ats := [], missed := [], atsInv := [], nextWalk := 0,
    tokens0 := [], tokens1 := [], tokens2 := [], next0 := 1, next1 := 1, next2 := 1 }

def Hag.reset : Hag := { filter := [], trackers := [], input := [], waiting := [] }

def Sluice.reset : Sluice :=
  { waiting := [], ctl := [], inj := [], meters := [], v := [], ptags := [], stags := [], throttledReq := false, throttledCol := false,
    throttleAt := 0, throttleReq := 0, throttleCol := 0 }

def Tru.reset : Tru := { ctxs := [], inbox := [], ctlIn := [], handed := [], nextHanded := 0, dir := [], wb := [], tickAt := 0 }

def Rma.reset : Rma := { gets := [], failed := [], fenced := [], flags := [], events := [], nextEvent := 0, res := [], atomics := [] }

def Tmu.reset : Tmu :=
  { copies := [], homes := [], psn := [], posts := [], uxs := [], asn := [], ents := [], lookups := [], nextLookup := 0, inbound := [], pulls := [],
    key0 := 0, key1 := 0, live := false, rehash := false, cutAt := none, hist := [], histAt := 0 }

def Rtb.reset : Rtb :=
  { inbox := [], peers := [], stale := [], gsAt := 0, gsSeq := 0, flowKey := 0, seed0 := 0, seed1 := 0, flows := [], winAt := 0,
    winBytes := [] }

def Swc.reset : Swc :=
  { ins := [], stage := [], owner := [], ded := [], shr := [], withheld := [], reserved := 0, resv := [], grantPtr := [], acceptPtr := [],
    vcPtr := [], deficit := [], mgtAt := [], cell := 0, ejected := [] }

def Bridge.reset : Bridge := { mods := [], stripeTx := 0, stripeRx := 0, next := 0, held := [], owed := [], nocTx := [], nocUsed := [], nocRx := [] }

def Noc.reset : Noc := { links := [], hold := [], cross := [], corrected := 0 }

def FTime.reset : FTime := { ns := 0, frac := 0, sum := 0, good := 0, exch := 0, waiting := [], nextAt := 0 }

def Window_.reset : Window_ :=
  { startFt := 0, startAt := 0, step := false, cleared := false, config := false, seq := 0, lostSince := 0, evNext := [], restarted := 0,
    vSeq := 0, vStart := 0, vDur := 0, vFlags := 0, vCounts := [] }

def DieState.reset : DieState :=
  { polders := [], staleChecks := [], recKey := 0, xlu := Xlu.reset, hag := Hag.reset, dmem := [], hotStacks := [], trig := [], sweepAt := 0, sluice := Sluice.reset, tru := Tru.reset, rma := Rma.reset,
    tmu := Tmu.reset, rtb := Rtb.reset, swc := Swc.reset, llus := [], bridge := Bridge.reset, noc := Noc.reset, evs := [], lanes := [], plls := [],
    pllAt := [], ft := FTime.reset, win := Window_.reset, syncIn := [], doms := [], idleIsl := [], members := [], nextMember := 0, joins := [] }

def HostLink.reset : HostLink := { up := false, training := false, l1 := false, rate := 0, width := 0, flit := false }

def Responder.reset : Responder := { version := false, caps := false, algs := false, challenged := false, sessions := [] }

/-- A host port with its settings at their defaults, and PERST_N low, as its pull-down holds it (20_package.md R593). -/
def HostPort.reset : HostPort :=
  { cxl := false, bifurcated := false, totalVfs := 255, maxRate := 7, perst := true, link0 := HostLink.reset, link1 := HostLink.reset, pfOn := false,
    secOn := false, numVfs := 0, d3 := [], hdmOn := false, hdmErr := false, resp0 := Responder.reset, resp1 := Responder.reset, ide := [],
    trainAt := 0, lost := false }

/-- A slot that has not been written. -/
def Slot.reset : Slot := { hdr := { magic := 0, length := 0, digest := 0, writeCount := 0, crc := 0 }, image := [] }

/-- The image store at manufacture (02_structure_image.md R58, R65). -/
def Store.reset : Store :=
  { policy := 0, minEpoch := 0, commits := 0, control := 0, keys := [none, none, none, none], journal0 := [], journal1 := [],
    slotA := Slot.reset, slotB := Slot.reset }

def ImsState.reset : ImsState := { leaseEnd := 0, quietSince := none, lastArrival := none, scrubAt := 0, staging := [], stagingGen := 0, hostImage := false }

def FaultMgr.reset : FaultMgr :=
  { table := [], ring := [], limits := [], secAt := 0, secCount := 0, suppressed := 0, missed := ⟨0, 0⟩, beatAt := ⟨0, 0⟩, seen := [],
    lanes := [], last := [], cycling := none, lostBanks := [], down := [] }

def Svc.reset : Svc :=
  { settings := [], request := none, answers := [], inbox := [], evAt := 0, evCount := 0, dynAddr := none, staticAddr := 0x3A, ibi := false,
    ptr := 0, slot := 0, tap := { ir := 1, boundary := List.replicate 409 false, drives := 0 }, pwrgood := false, resetN := true, oob := Responder.reset, hot := 0, tripped := false,
    sampleAt := 0, trainingAt := 0 }

/-- The machine at reset: a UX9128-F as manufactured, its supplies up and PWRGOOD low, every register at its reset value, memory with
nothing listed. PWRGOOD_RISE is the command that starts it (log entry 5). -/
def State.reset : State :=
  { part := .f, serial := 0, stepping := 0, rootKey := { x := 0, y := 0 }, now := 0, free := 0, regs := [], mem := [], poison := [], out := [],
    store := Store.reset, ims := ImsState.reset, running := none, dies := ⟨DieState.reset, DieState.reset⟩,
    hps := ⟨#[HostPort.reset, HostPort.reset, HostPort.reset, HostPort.reset], rfl⟩, memKey := 0, waiters := [], recallAt := [], holdCounts := [], hostQ := [], engines := [], queues := [],
    rings := [], ctrs := [], qcs := [], ops := [], nextOp := 0, reads := [], nextRead := 0, nextPkt := 0, fm := FaultMgr.reset,
    svc := Svc.reset, pending := [] }

end Sys2Proof.Machine
end

