-- ==== Sys2Proof/Machine/RegMap.lean ====
section
/-! DEFINITION. The register map: every field of every register of the spec's register maps, and which rows stand at an
offset of each block. A field is named BLOCK.REGISTER.FIELD as in the spec (00_scope.md, Notation). Offsets are those
of the die window with the view bits clear (03_register_model.md R70, R73). -/

namespace Sys2Proof.Machine

/-- Base of sluice entry `i`: 0 for polder 0, k + 1 for polder-table entry k (13_switch_core.md R446). -/
def slBase (i : Nat) : Nat :=
  if i = 0 then 0x2004020 else 0x2100000 + (i - 1) / 64 * 0x4000 + (i - 1) % 64 * 0x40

/-- Base of polder counter entry `i`: 0 for polder 0, k + 1 for polder-table entry k (18_counters.md R562). -/
def pcBase (i : Nat) : Nat :=
  if i = 0 then 0x380c000 else 0x3900000 + (i - 1) / 64 * 0x4000 + (i - 1) % 64 * 0x40

/-- Default MAX_STATE of a domain: 0 Galop to 5 Sarabande (17_power.md R531). The lane quads never descend
automatically. -/
def domMaxDefault (i : Nat) : Nat :=
  if i < 16 then 0 else if i < 24 then 4 else if i < 26 then 2 else if i = 26 then 3 else if i = 27 then 4
  else if i = 28 then 3 else if i = 29 then 3 else if i = 30 then 2 else 3

/-- Frequency of an island in MHz, 0 for lane quads (17_power.md R541, R546). The host-port PHY's line clock is the
line rate (log entry 20). -/
def islandMHz (j : Nat) : Nat :=
  if j < 16 then 0 else if j < 52 then 1750 else if j < 68 then 2000
  else if j < 72 then (if j % 2 = 0 then 2000 else 0)
  else if j < 75 then 2000 else if j < 77 then 1750 else if j = 77 then 1000 else if j = 78 then 1200
  else if j < 81 then 2000 else if j < 85 then (if j % 2 = 1 then 1175 else 4700)
  else if j < 101 then 16000 else if j = 101 then 2000 else if j = 103 ∨ j = 105 then 1000 else 400

/-! ## Block header (03_register_model.md R85); `b` is the page's base in the die window. -/

def HDR.BLOCK_ID.TYPE (b : Nat) : Fld := ⟨b, 0, 8, 0⟩
def HDR.BLOCK_ID.INSTANCE (b : Nat) : Fld := ⟨b, 8, 8, 0⟩
def HDR.BLOCK_ID.LAYOUT (b : Nat) : Fld := ⟨b, 16, 8, 1⟩
def HDR.CTRL.ENABLE (b : Nat) : Fld := ⟨b + 0x8, 0, 1, 0⟩
def HDR.STATUS.ENABLED (b : Nat) : Fld := ⟨b + 0x10, 0, 1, 0⟩
def HDR.STATUS.CFG_REJECT (b : Nat) : Fld := ⟨b + 0x10, 1, 1, 0⟩
def HDR.CFG_REJECT_COUNT.COUNT (b : Nat) : Fld := ⟨b + 0x18, 0, 32, 0⟩

/-! ## Route tables (12_routing.md R408): each entry as one field of 64 bits. -/

def RTB.LOCAL (v r : Nat) : Fld := ⟨0x1804000 + v * 0x4000 + 8 * r, 0, 64, 0⟩
def RTB.SLOT (v s : Nat) : Fld := ⟨0x1804100 + v * 0x4000 + 8 * s, 0, 64, 0⟩
def RTB.GROUP (v g : Nat) : Fld := ⟨0x1820000 + v * 0x20000 + g / 512 * 0x4000 + g % 512 * 8, 0, 64, 0⟩

/-! ## Fields -/

def IMS.TOKEN.OWNER_CLASS : Fld := ⟨0x180000, 0, 2, 0⟩
def IMS.TOKEN.OWNER_FN : Fld := ⟨0x180000, 2, 10, 0⟩
def IMS.TOKEN.RELEASE : Fld := ⟨0x180000, 30, 1, 0⟩
def IMS.TOKEN.ACQUIRE : Fld := ⟨0x180000, 31, 1, 0⟩
def IMS.LEASE.REMAIN_MS : Fld := ⟨0x180008, 0, 15, 0⟩
def IMS.CMD.OP : Fld := ⟨0x180010, 0, 4, 0⟩
def IMS.CMD.SRC : Fld := ⟨0x180010, 4, 2, 0⟩
def IMS.CMD.ARG : Fld := ⟨0x180010, 6, 2, 0⟩
def IMS.CMD.GO : Fld := ⟨0x180010, 31, 1, 0⟩
def IMS.SRC_ADDR.ADDR : Fld := ⟨0x180018, 0, 64, 0⟩
def IMS.SRC_LEN.LEN : Fld := ⟨0x180020, 0, 25, 0⟩
def IMS.CMD_STATUS.BUSY : Fld := ⟨0x180028, 0, 1, 0⟩
def IMS.CMD_STATUS.DONE : Fld := ⟨0x180028, 1, 1, 0⟩
def IMS.CMD_STATUS.CODE : Fld := ⟨0x180028, 8, 8, 0⟩
def IMS.CMD_STATUS.DETAIL : Fld := ⟨0x180028, 16, 8, 0⟩
def IMS.CMD_STATUS.STEP : Fld := ⟨0x180028, 24, 3, 0⟩
def IMS.JOURNAL_HEAD.SEQ : Fld := ⟨0x180030, 0, 32, 0⟩
def IMS.JOURNAL_HEAD.SLOT : Fld := ⟨0x180030, 32, 2, 0⟩
def IMS.RUNNING.SOURCE : Fld := ⟨0x180038, 0, 2, 0⟩
def IMS.RUNNING.SECURITY_EPOCH : Fld := ⟨0x180038, 16, 16, 0⟩
def IMS.VERSION.V : Fld := ⟨0x180040, 0, 4, 0⟩
def IMS.VERSION.L : Fld := ⟨0x180040, 4, 4, 0⟩
def IMS.FEATURE_FLOOR.FLOOR : Fld := ⟨0x180048, 0, 4, 1⟩
def IMS.FEATURE_FLOOR.REJECT : Fld := ⟨0x180048, 8, 1, 0⟩
def IMS.VERSION_DROP_COUNT.COUNT : Fld := ⟨0x180050, 0, 32, 0⟩
def IMS.QUIESCE.REQ : Fld := ⟨0x180058, 0, 1, 0⟩
def IMS.QUIESCE.STATE : Fld := ⟨0x180058, 1, 2, 0⟩
def IMS.QUIESCE.BLOCKER : Fld := ⟨0x180058, 8, 8, 0⟩
def IMS.BOOT_POLICY.POLICY : Fld := ⟨0x180060, 0, 2, 0⟩
def IMS.ENDURANCE.COMMITS : Fld := ⟨0x180068, 0, 32, 0⟩
def IMS.SCRUB_STATUS.CORRECTED : Fld := ⟨0x180070, 0, 16, 0⟩
def IMS.SCRUB_STATUS.UNCORRECTABLE : Fld := ⟨0x180070, 16, 16, 0⟩
def IMS.KEY_STATUS.ENROLLED : Fld := ⟨0x180078, 0, 4, 0⟩
def IMS.KEY_STATUS.MIN_SECURITY_EPOCH : Fld := ⟨0x180078, 16, 16, 0⟩
def GLB.ID.FAMILY : Fld := ⟨0x0, 0, 8, 1⟩
def GLB.ID.DEVICE : Fld := ⟨0x0, 8, 8, 1⟩
def GLB.ID.PART : Fld := ⟨0x0, 16, 4, 0⟩
def GLB.ID.STEPPING : Fld := ⟨0x0, 20, 8, 0⟩
def GLB.SERIAL_LO.SERIAL : Fld := ⟨0x8, 0, 64, 0⟩
def GLB.SERIAL_HI.SERIAL : Fld := ⟨0x10, 0, 64, 0⟩
def GLB.UNIT_PRESENT.EC : Fld := ⟨0x18, 0, 16, 0⟩
def GLB.UNIT_PRESENT.HP : Fld := ⟨0x18, 16, 4, 0⟩
def GLB.UNIT_PRESENT.QDU : Fld := ⟨0x18, 20, 2, 0⟩
def GLB.UNIT_PRESENT.HAG : Fld := ⟨0x18, 22, 2, 0⟩
def GLB.UNIT_PRESENT.HBM : Fld := ⟨0x18, 24, 4, 0⟩
def GLB.UNIT_PRESENT.IDE : Fld := ⟨0x18, 28, 1, 0⟩
def GLB.UNIT_PRESENT.CXL_CACHE : Fld := ⟨0x18, 29, 1, 0⟩
def GLB.UNIT_ENABLED.UNITS : Fld := ⟨0x20, 0, 30, 0⟩
def GLB.REQUESTER.IS_WARDEN : Fld := ⟨0x28, 0, 1, 0⟩
def GLB.REQUESTER.IS_SVC : Fld := ⟨0x28, 1, 1, 0⟩
def GLB.REQUESTER.FUNCTION : Fld := ⟨0x28, 8, 8, 0⟩
def GLB.REQUESTER.HOST_PORT : Fld := ⟨0x28, 16, 2, 0⟩
def GLB.WARDEN_COUNT.COUNT : Fld := ⟨0x30, 0, 4, 0⟩
def GLB.WARDEN.FUNCTION (n : Nat) : Fld := ⟨0x40 + 0x8 * n, 0, 8, 0⟩
def GLB.WARDEN.HOST_PORT (n : Nat) : Fld := ⟨0x40 + 0x8 * n, 8, 2, 0⟩
def GLB.WARDEN.VALID (n : Nat) : Fld := ⟨0x40 + 0x8 * n, 31, 1, 0⟩
def GLB.PRIV_VIOLATION_COUNT.COUNT : Fld := ⟨0x80, 0, 32, 0⟩
def GLB.PRIV_VIOLATION_COUNT.CLEAR : Fld := ⟨0x80, 63, 1, 0⟩
def GLB.PRIV_VIOLATION_LAST.REQUESTER : Fld := ⟨0x88, 0, 10, 0⟩
def GLB.PRIV_VIOLATION_LAST.VIEW : Fld := ⟨0x88, 10, 2, 0⟩
def GLB.PRIV_VIOLATION_LAST.OFFSET : Fld := ⟨0x88, 32, 27, 0⟩
def GLB.ACCESS_ERROR_COUNT.COUNT : Fld := ⟨0x90, 0, 32, 0⟩
def GLB.ACCESS_ERROR_COUNT.CLEAR : Fld := ⟨0x90, 63, 1, 0⟩
def GLB.ABSENT_ACCESS_COUNT.COUNT : Fld := ⟨0x98, 0, 32, 0⟩
def GLB.ABSENT_ACCESS_COUNT.CLEAR : Fld := ⟨0x98, 63, 1, 0⟩
def GLB.STATUS.IMAGE_RUNNING : Fld := ⟨0xa0, 0, 1, 0⟩
def GLB.STATUS.REG_PATH : Fld := ⟨0xa0, 1, 1, 0⟩
def GLB.SCRATCH.DATA : Fld := ⟨0xa8, 0, 64, 0⟩
def DIKE.PT_CMD.OP : Fld := ⟨0x200020, 0, 4, 0⟩
def DIKE.PT_CMD.GO : Fld := ⟨0x200020, 31, 1, 0⟩
def DIKE.PT_POLDER.ID : Fld := ⟨0x200028, 0, 20, 0⟩
def DIKE.PT_ARG0.ARG : Fld := ⟨0x200030, 0, 32, 0⟩
def DIKE.PT_ARG1.ARG : Fld := ⟨0x200038, 0, 32, 0⟩
def DIKE.PT_STATUS.BUSY : Fld := ⟨0x200040, 0, 1, 0⟩
def DIKE.PT_STATUS.DONE : Fld := ⟨0x200040, 1, 1, 0⟩
def DIKE.PT_STATUS.GO_REJECT : Fld := ⟨0x200040, 2, 1, 0⟩
def DIKE.PT_STATUS.CODE : Fld := ⟨0x200040, 8, 8, 0⟩
def DIKE.PT_STATUS.DETAIL : Fld := ⟨0x200040, 16, 8, 0⟩
def DIKE.PT_STATUS.INDEX : Fld := ⟨0x200040, 32, 12, 0⟩
def DIKE.PT_CAPACITY.ENTRIES : Fld := ⟨0x200048, 0, 13, 0⟩
def DIKE.PT_CAPACITY.USED : Fld := ⟨0x200048, 16, 13, 0⟩
def DIKE.PT_RESULT0.DATA : Fld := ⟨0x200050, 0, 32, 0⟩
def DIKE.PT_RESULT1.DATA : Fld := ⟨0x200058, 0, 32, 0⟩
def DIKE.INGRESS_DROPS.COUNT : Fld := ⟨0x200060, 0, 32, 0⟩
def DIKE.INJ_CLOSED_DROPS.COUNT : Fld := ⟨0x200068, 0, 32, 0⟩
def DIKE.EJ_ABSENT_PORT.COUNT : Fld := ⟨0x200070, 0, 32, 0⟩
def DIKE.EJ_CLASS_DROPS.COUNT : Fld := ⟨0x200078, 0, 32, 0⟩
def DIKE.EJ_NOT_RESIDENT.COUNT : Fld := ⟨0x200080, 0, 32, 0⟩
def DIKE.EJ_CLOSED_DROPS.COUNT : Fld := ⟨0x200088, 0, 32, 0⟩
def DIKE.EJ_NOT_BOUND.COUNT : Fld := ⟨0x200090, 0, 32, 0⟩
def DIKE.WINDOW_VIOLATIONS.COUNT : Fld := ⟨0x200098, 0, 32, 0⟩
def DIKE.LAST_DROP.POLDER : Fld := ⟨0x2000a0, 0, 20, 0⟩
def DIKE.LAST_DROP.REASON : Fld := ⟨0x2000a0, 24, 4, 0⟩
def DIKE.LAST_DROP.SRC_FEA : Fld := ⟨0x2000a0, 32, 24, 0⟩
def DIKE.COUNT_CLEAR.CLEAR : Fld := ⟨0x2000a8, 0, 1, 0⟩
def DIKE.FN_POLDER.POLDER (n : Nat) : Fld := ⟨0x210000 + 0x8 * n, 0, 20, 0⟩
def DIKE.FN_POLDER.BOUND (n : Nat) : Fld := ⟨0x210000 + 0x8 * n, 31, 1, 0⟩
def DIKE.FN_POLDER.WARDEN (n : Nat) : Fld := ⟨0x210000 + 0x8 * n, 32, 1, 0⟩
def HP.HP_ID.PORT (h : Nat) : Fld := ⟨0x800000c + 0x100 * h, 0, 2, 0⟩
def HP.HP_ID.DIE (h : Nat) : Fld := ⟨0x800000c + 0x100 * h, 2, 1, 0⟩
def HP.HP_ID.LINK (h : Nat) : Fld := ⟨0x800000c + 0x100 * h, 3, 1, 0⟩
def HP.HP_ID.PART (h : Nat) : Fld := ⟨0x800000c + 0x100 * h, 4, 4, 0⟩
def HP.HP_MODE.PROTOCOL (h : Nat) : Fld := ⟨0x8000010 + 0x100 * h, 0, 1, 0⟩
def HP.HP_MODE.BIFURCATED (h : Nat) : Fld := ⟨0x8000010 + 0x100 * h, 1, 1, 0⟩
def HP.HP_MODE.TOTAL_VFS (h : Nat) : Fld := ⟨0x8000010 + 0x100 * h, 2, 8, 0⟩
def HP.HP_MODE.COHERENT (h : Nat) : Fld := ⟨0x8000010 + 0x100 * h, 10, 1, 0⟩
def HP.HP_MODE.IDE (h : Nat) : Fld := ⟨0x8000010 + 0x100 * h, 11, 1, 0⟩
def HP.HP_LINK.RATE (h : Nat) : Fld := ⟨0x8000014 + 0x100 * h, 0, 4, 0⟩
def HP.HP_LINK.WIDTH (h : Nat) : Fld := ⟨0x8000014 + 0x100 * h, 4, 6, 0⟩
def HP.HP_LINK.FLIT (h : Nat) : Fld := ⟨0x8000014 + 0x100 * h, 10, 1, 0⟩
def HP.HP_ERR.POISON_SENT (h : Nat) : Fld := ⟨0x8000018 + 0x100 * h, 0, 16, 0⟩
def HP.HP_ERR.POISON_RECEIVED (h : Nat) : Fld := ⟨0x8000018 + 0x100 * h, 16, 16, 0⟩
def HP.HP_ERR_CLEAR.CLEAR (h : Nat) : Fld := ⟨0x800001c + 0x100 * h, 0, 1, 0⟩
def HP.HP_HOLD.WAITING (h : Nat) : Fld := ⟨0x8000020 + 0x100 * h, 0, 12, 0⟩
def HP.HP_HOLD_BUSY.COUNT (h : Nat) : Fld := ⟨0x8000024 + 0x100 * h, 0, 32, 0⟩
def DMEM.DMEM_CFG.STACKS : Fld := ⟨0x3e00020, 0, 2, 0⟩
def DMEM.DMEM_CFG.PCH : Fld := ⟨0x3e00020, 8, 7, 0⟩
def DMEM.DMEM_CFG.GRANULE : Fld := ⟨0x3e00020, 16, 4, 8⟩
def DMEM.DMEM_RANGE.BASE_PAGE : Fld := ⟨0x3e00028, 0, 16, 0⟩
def DMEM.DMEM_RANGE.REGION_PAGE : Fld := ⟨0x3e00028, 16, 16, 0⟩
def DMEM.BW_CFG.P0_WEIGHT : Fld := ⟨0x3e00030, 0, 8, 32⟩
def DMEM.HOLD_CFG.P0_TIMEOUT_US : Fld := ⟨0x3e00038, 0, 10, 10⟩
def DMEM.HOLD_CFG.SLOTS : Fld := ⟨0x3e00038, 16, 12, 2048⟩
def DMEM.HOLD_USED.STACK0 : Fld := ⟨0x3e00040, 0, 12, 0⟩
def DMEM.HOLD_USED.STACK1 : Fld := ⟨0x3e00040, 16, 12, 0⟩
def DMEM.HOLD_ACQUIRED.COUNT : Fld := ⟨0x3e00048, 0, 32, 0⟩
def DMEM.HOLD_TIMEOUTS.COUNT : Fld := ⟨0x3e00050, 0, 32, 0⟩
def DMEM.HOLD_REFUSED.COUNT : Fld := ⟨0x3e00058, 0, 32, 0⟩
def DMEM.COUNT_CLEAR.CLEAR : Fld := ⟨0x3e00060, 0, 1, 0⟩
def DMEM.STACK_CORRECTED.COUNT (n : Nat) : Fld := ⟨0x3e00100 + 0x20 * n, 0, 32, 0⟩
def DMEM.STACK_UNCORRECTABLE.COUNT (n : Nat) : Fld := ⟨0x3e00108 + 0x20 * n, 0, 32, 0⟩
def DMEM.STACK_ROWS_RETIRED.COUNT (n : Nat) : Fld := ⟨0x3e00110 + 0x20 * n, 0, 16, 0⟩
def HAG.HAG_STATUS.ACTIVE : Fld := ⟨0x3e04020, 0, 1, 0⟩
def HAG.HAG_STATUS.PORTS : Fld := ⟨0x3e04020, 4, 4, 0⟩
def HAG.SF_CAPACITY.LINES : Fld := ⟨0x3e04028, 0, 24, 4194304⟩
def HAG.SF_CAPACITY.WAYS : Fld := ⟨0x3e04028, 24, 8, 16⟩
def HAG.SF_USED.LINES : Fld := ⟨0x3e04030, 0, 24, 0⟩
def HAG.ARB_POINTER.PTR : Fld := ⟨0x3e04038, 0, 2, 0⟩
def HAG.TRACKERS.TOTAL : Fld := ⟨0x3e04040, 0, 11, 1024⟩
def HAG.TRACKERS.USED : Fld := ⟨0x3e04040, 16, 11, 0⟩
def HAG.BISNP_SENT.COUNT : Fld := ⟨0x3e04048, 0, 32, 0⟩
def HAG.SF_EVICTIONS.COUNT : Fld := ⟨0x3e04050, 0, 32, 0⟩
def HAG.CONFLICTS.COUNT : Fld := ⟨0x3e04058, 0, 32, 0⟩
def HAG.MAX_WAIT.TRANSFERS : Fld := ⟨0x3e04060, 0, 2, 0⟩
def HAG.MAX_WAIT.CLEAR : Fld := ⟨0x3e04060, 63, 1, 0⟩
def WQU.POLL_CFG.MAX_RATE : Fld := ⟨0x400020, 0, 9, 64⟩
def WQU.QSC.ENTRIES : Fld := ⟨0x400028, 0, 16, 16384⟩
def WQU.QSC.USED : Fld := ⟨0x400028, 16, 16, 0⟩
def WQU.CTR_CACHE.ENTRIES : Fld := ⟨0x400030, 0, 16, 16384⟩
def WQU.CTR_CACHE.USED : Fld := ⟨0x400030, 16, 16, 0⟩
def WQU.TRIG_TABLE.ENTRIES : Fld := ⟨0x400038, 0, 17, 65536⟩
def WQU.TRIG_TABLE.USED : Fld := ⟨0x400038, 32, 17, 0⟩
def WQU.PREFETCH.SLOTS : Fld := ⟨0x400040, 0, 16, 16384⟩
def WQU.PREFETCH.USED : Fld := ⟨0x400040, 16, 16, 0⟩
def WQU.POLLED.LIMIT : Fld := ⟨0x400048, 0, 13, 4096⟩
def WQU.POLLED.COUNT : Fld := ⟨0x400048, 16, 13, 0⟩
def WQU.ENTRIES_STARTED.COUNT : Fld := ⟨0x400050, 0, 64, 0⟩
def WQU.DOORBELLS.COUNT : Fld := ⟨0x400058, 0, 32, 0⟩
def WQU.DOORBELLS_MERGED.COUNT : Fld := ⟨0x400060, 0, 32, 0⟩
def WQU.INDEX_READS.COUNT : Fld := ⟨0x400068, 0, 32, 0⟩
def WQU.PHASE_RETRIES.COUNT : Fld := ⟨0x400070, 0, 32, 0⟩
def WQU.QSC_MISSES.COUNT : Fld := ⟨0x400078, 0, 32, 0⟩
def WQU.CTR_MISSES.COUNT : Fld := ⟨0x400080, 0, 32, 0⟩
def WQU.TRIG_SWEEPS.COUNT : Fld := ⟨0x400088, 0, 32, 0⟩
def WQU.QUEUE_ERRORS.COUNT : Fld := ⟨0x400090, 0, 32, 0⟩
def WQU.UNIT_ABSENT_COMPLETIONS.COUNT : Fld := ⟨0x400098, 0, 32, 0⟩
def WQU.COUNT_CLEAR.CLEAR : Fld := ⟨0x4000a0, 0, 1, 0⟩
def WQU.FN_SETS.SETS (n : Nat) : Fld := ⟨0x410000 + 0x8 * n, 0, 8, 128⟩
def WQU.FN_SETS.ACTIVE (n : Nat) : Fld := ⟨0x410000 + 0x8 * n, 32, 16, 0⟩
def XLU.XLU_CFG.ATS_H : Fld := ⟨0x800020, 0, 2, 0⟩
def XLU.XLU_CFG.PREFETCH : Fld := ⟨0x800020, 8, 1, 1⟩
def XLU.TLB_CAP.ENTRIES : Fld := ⟨0x800028, 0, 16, 0⟩
def XLU.TLB_CAP.USED : Fld := ⟨0x800028, 16, 16, 0⟩
def XLU.REGIONS.USED : Fld := ⟨0x800030, 0, 21, 0⟩
def XLU.SPACES.USED : Fld := ⟨0x800038, 0, 16, 0⟩
def XLU.TLB_MISSES.COUNT : Fld := ⟨0x800040, 0, 32, 0⟩
def XLU.VICTIM_HITS.COUNT : Fld := ⟨0x800048, 0, 32, 0⟩
def XLU.WALKS.COUNT : Fld := ⟨0x800050, 0, 32, 0⟩
def XLU.SPEC_FILLS.COUNT : Fld := ⟨0x800058, 0, 32, 0⟩
def XLU.WALKS_DISCARDED.COUNT : Fld := ⟨0x800060, 0, 32, 0⟩
def XLU.ATS_REQUESTS.COUNT : Fld := ⟨0x800068, 0, 32, 0⟩
def XLU.ATS_INVALIDATIONS.COUNT : Fld := ⟨0x800070, 0, 32, 0⟩
def XLU.LOCAL_FAULTS.COUNT : Fld := ⟨0x800078, 0, 32, 0⟩
def XLU.REMOTE_FAULTS.COUNT : Fld := ⟨0x800080, 0, 32, 0⟩
def XLU.LAST_FAULT.POLDER : Fld := ⟨0x800088, 0, 20, 0⟩
def XLU.LAST_FAULT.REASON : Fld := ⟨0x800088, 24, 4, 0⟩
def XLU.LAST_FAULT.REMOTE : Fld := ⟨0x800088, 28, 1, 0⟩
def XLU.LAST_FAULT.KEY : Fld := ⟨0x800088, 32, 32, 0⟩
def XLU.LAST_FAULT_VA.VA : Fld := ⟨0x800090, 0, 64, 0⟩
def XLU.CHANNEL_REJECTS.COUNT : Fld := ⟨0x800098, 0, 32, 0⟩
def XLU.COUNT_CLEAR.CLEAR : Fld := ⟨0x8000a0, 0, 1, 0⟩
def XLU.X_CMD.OP (c : Nat) : Fld := ⟨0x800100 + 0x80 * c, 0, 4, 0⟩
def XLU.X_CMD.GO (c : Nat) : Fld := ⟨0x800100 + 0x80 * c, 31, 1, 0⟩
def XLU.X_ARG0.ARG (c : Nat) : Fld := ⟨0x800108 + 0x80 * c, 0, 64, 0⟩
def XLU.X_ARG1.ARG (c : Nat) : Fld := ⟨0x800110 + 0x80 * c, 0, 64, 0⟩
def XLU.X_ARG2.ARG (c : Nat) : Fld := ⟨0x800118 + 0x80 * c, 0, 64, 0⟩
def XLU.X_ARG3.ARG (c : Nat) : Fld := ⟨0x800120 + 0x80 * c, 0, 64, 0⟩
def XLU.X_STATUS.BUSY (c : Nat) : Fld := ⟨0x800128 + 0x80 * c, 0, 1, 0⟩
def XLU.X_STATUS.DONE (c : Nat) : Fld := ⟨0x800128 + 0x80 * c, 1, 1, 0⟩
def XLU.X_STATUS.GO_REJECT (c : Nat) : Fld := ⟨0x800128 + 0x80 * c, 2, 1, 0⟩
def XLU.X_STATUS.CODE (c : Nat) : Fld := ⟨0x800128 + 0x80 * c, 8, 8, 0⟩
def XLU.X_STATUS.DETAIL (c : Nat) : Fld := ⟨0x800128 + 0x80 * c, 16, 8, 0⟩
def XLU.X_RESULT.VALUE (c : Nat) : Fld := ⟨0x800130 + 0x80 * c, 0, 32, 0⟩
def XLU.X_DONE_TOKEN.TOKEN (c : Nat) : Fld := ⟨0x800138 + 0x80 * c, 0, 32, 0⟩
def TMU.TMU_CFG.RNDV_THRESHOLD : Fld := ⟨0xc00020, 0, 17, 8192⟩
def TMU.TMU_CFG.UX_SHARE_PCT : Fld := ⟨0xc00020, 24, 8, 25⟩
def TMU.TMU_CFG.POST_SHARE_PCT : Fld := ⟨0xc00020, 32, 8, 50⟩
def TMU.TMU_CFG.REHASH_AUTO : Fld := ⟨0xc00020, 40, 1, 1⟩
def TMU.BINS.COUNT : Fld := ⟨0xc00028, 0, 17, 0⟩
def TMU.POSTED.TOTAL : Fld := ⟨0xc00030, 0, 26, 0⟩
def TMU.POSTED.ONCHIP : Fld := ⟨0xc00030, 32, 19, 0⟩
def TMU.UNEXPECTED.DESCRIPTORS : Fld := ⟨0xc00038, 0, 21, 0⟩
def TMU.UNEXPECTED.GRANULES : Fld := ⟨0xc00038, 32, 22, 0⟩
def TMU.WILDCARD.ONCHIP : Fld := ⟨0xc00040, 0, 13, 0⟩
def TMU.REHASH_STATUS.ACTIVE : Fld := ⟨0xc00048, 0, 1, 0⟩
def TMU.REHASH_STATUS.LIVE_TABLE : Fld := ⟨0xc00048, 1, 1, 0⟩
def TMU.REHASH_STATUS.REMAINING : Fld := ⟨0xc00048, 32, 26, 0⟩
def TMU.REHASH_CTRL.GO : Fld := ⟨0xc00050, 0, 1, 0⟩
def TMU.CHAIN_P99.LAST : Fld := ⟨0xc00058, 0, 8, 0⟩
def TMU.CHAIN_P99.OVER : Fld := ⟨0xc00058, 8, 8, 0⟩
def TMU.REHASHES.COUNT : Fld := ⟨0xc00060, 0, 32, 0⟩
def TMU.LOOKUPS.COUNT : Fld := ⟨0xc00068, 0, 64, 0⟩
def TMU.SPILL_READS.COUNT : Fld := ⟨0xc00070, 0, 32, 0⟩
def TMU.RUN_COLLAPSES.COUNT : Fld := ⟨0xc00078, 0, 32, 0⟩
def TMU.UX_STORED.COUNT : Fld := ⟨0xc00080, 0, 32, 0⟩
def TMU.UX_DEMOTED.COUNT : Fld := ⟨0xc00088, 0, 32, 0⟩
def TMU.UX_REFUSED.COUNT : Fld := ⟨0xc00090, 0, 32, 0⟩
def TMU.POST_REFUSED.COUNT : Fld := ⟨0xc00098, 0, 32, 0⟩
def TMU.TRUNCATIONS.COUNT : Fld := ⟨0xc000a0, 0, 32, 0⟩
def TMU.CANCELS.COUNT : Fld := ⟨0xc000a8, 0, 32, 0⟩
def TMU.ECC_RELOADS.COUNT : Fld := ⟨0xc000b0, 0, 32, 0⟩
def TMU.LAST_REFUSAL.POLDER : Fld := ⟨0xc000b8, 0, 20, 0⟩
def TMU.LAST_REFUSAL.REASON : Fld := ⟨0xc000b8, 24, 4, 0⟩
def TMU.COUNT_CLEAR.CLEAR : Fld := ⟨0xc000c0, 0, 1, 0⟩
def RMA.RMA_CFG.CHUNK_WINDOW : Fld := ⟨0x1008020, 0, 5, 16⟩
def RMA.RMA_CFG.ATOMIC_HOST : Fld := ⟨0x1008020, 8, 1, 1⟩
def RMA.FLAG_HOLD.CAPACITY : Fld := ⟨0x1008028, 0, 14, 8192⟩
def RMA.FLAG_HOLD.USED : Fld := ⟨0x1008028, 16, 14, 0⟩
def RMA.NOTIFY_RES.CAPACITY : Fld := ⟨0x1008030, 0, 15, 16384⟩
def RMA.NOTIFY_RES.USED : Fld := ⟨0x1008030, 16, 15, 0⟩
def RMA.ATOMIC_UNIT.LINES : Fld := ⟨0x1008038, 0, 10, 512⟩
def RMA.ATOMIC_UNIT.USED : Fld := ⟨0x1008038, 16, 10, 0⟩
def RMA.PUT_PACKETS.COUNT : Fld := ⟨0x1008040, 0, 64, 0⟩
def RMA.GET_REQUESTS.COUNT : Fld := ⟨0x1008048, 0, 32, 0⟩
def RMA.ATOMICS.COUNT : Fld := ⟨0x1008050, 0, 32, 0⟩
def RMA.FLAG_HELD.COUNT : Fld := ⟨0x1008058, 0, 32, 0⟩
def RMA.FLAG_HOLD_MAX.NS : Fld := ⟨0x1008060, 0, 32, 0⟩
def RMA.RNR_REFUSALS.COUNT : Fld := ⟨0x1008068, 0, 32, 0⟩
def RMA.NOTIFY_NOT_READY.COUNT : Fld := ⟨0x1008070, 0, 32, 0⟩
def RMA.TARGET_REJECTS.COUNT : Fld := ⟨0x1008078, 0, 32, 0⟩
def RMA.LAST_REJECT.POLDER : Fld := ⟨0x1008080, 0, 20, 0⟩
def RMA.LAST_REJECT.STATUS : Fld := ⟨0x1008080, 24, 8, 0⟩
def RMA.LAST_REJECT.SRC_FEA : Fld := ⟨0x1008080, 32, 24, 0⟩
def RMA.CHUNKS_OUT.COUNT : Fld := ⟨0x1008088, 0, 17, 0⟩
def RMA.COUNT_CLEAR.CLEAR : Fld := ⟨0x1008090, 0, 1, 0⟩
def TRU.TRU_CFG.MODE : Fld := ⟨0x1000020, 0, 1, 0⟩
def TRU.TRU_CFG.WINDOW_LOG2 : Fld := ⟨0x1000020, 4, 4, 12⟩
def TRU.TRU_CFG.ACK_COUNT : Fld := ⟨0x1000020, 8, 8, 16⟩
def TRU.TRU_CFG.ACK_DELAY_NS : Fld := ⟨0x1000020, 16, 12, 1000⟩
def TRU.TRU_CFG.REORDER_SPAN : Fld := ⟨0x1000020, 32, 8, 64⟩
def TRU.TRU_TIMERS.GAP_TIMEOUT_NS : Fld := ⟨0x1000028, 0, 16, 2000⟩
def TRU.TRU_TIMERS.GBN_RTO_US : Fld := ⟨0x1000028, 16, 16, 100⟩
def TRU.TRU_TIMERS.RNR_DELAY_US : Fld := ⟨0x1000028, 32, 8, 2⟩
def TRU.TRU_TIMERS.UNREACH_HOLD_MS : Fld := ⟨0x1000028, 48, 12, 1000⟩
def TRU.RETRY.ATTEMPTS : Fld := ⟨0x1000030, 0, 8, 64⟩
def TRU.RETRY.BUDGET_MS : Fld := ⟨0x1000030, 16, 12, 2000⟩
def TRU.RETRY.RTO_MIN_US : Fld := ⟨0x1000030, 32, 8, 4⟩
def TRU.RETRY.RTO_MAX_MS : Fld := ⟨0x1000030, 48, 8, 32⟩
def TRU.CC_CFG.G_SHIFT : Fld := ⟨0x1000038, 0, 3, 3⟩
def TRU.CC_CFG.FR_STAGES : Fld := ⟨0x1000038, 4, 4, 5⟩
def TRU.CC_CFG.HAI_AFTER : Fld := ⟨0x1000038, 8, 4, 5⟩
def TRU.CC_CFG.DEC_INTERVAL_US : Fld := ⟨0x1000038, 16, 8, 4⟩
def TRU.CC_CFG.INC_INTERVAL_US : Fld := ⟨0x1000038, 24, 8, 8⟩
def TRU.CC_RATES.RATE_MIN_GBPS : Fld := ⟨0x1000040, 0, 12, 1⟩
def TRU.CC_RATES.RATE_MAX_GBPS : Fld := ⟨0x1000040, 16, 12, 2048⟩
def TRU.CC_RATES.AI_GBPS : Fld := ⟨0x1000040, 32, 8, 8⟩
def TRU.CC_RATES.HAI_GBPS : Fld := ⟨0x1000040, 48, 8, 64⟩
def TRU.CTX_CACHE.ENTRIES : Fld := ⟨0x1000048, 0, 16, 0⟩
def TRU.CTX_CACHE.USED : Fld := ⟨0x1000048, 16, 16, 0⟩
def TRU.CTX_CACHE.PINNED : Fld := ⟨0x1000048, 32, 16, 0⟩
def TRU.CTX_STORE.LIVE : Fld := ⟨0x1000050, 0, 22, 0⟩
def TRU.CTX_STORE.CAPACITY : Fld := ⟨0x1000050, 32, 22, 2097152⟩
def TRU.TRACKERS.CAPACITY : Fld := ⟨0x1000058, 0, 14, 8192⟩
def TRU.TRACKERS.USED : Fld := ⟨0x1000058, 16, 14, 0⟩
def TRU.SEND_DESC.CAPACITY : Fld := ⟨0x1000060, 0, 19, 262144⟩
def TRU.SEND_DESC.USED : Fld := ⟨0x1000060, 32, 19, 0⟩
def TRU.REORDER.CAPACITY : Fld := ⟨0x1000068, 0, 18, 131072⟩
def TRU.REORDER.USED : Fld := ⟨0x1000068, 32, 18, 0⟩
def TRU.RECORDS.CAPACITY : Fld := ⟨0x1000070, 0, 14, 8192⟩
def TRU.RECORDS.USED : Fld := ⟨0x1000070, 16, 14, 0⟩
def TRU.CTX_OPENED.COUNT : Fld := ⟨0x1000078, 0, 32, 0⟩
def TRU.CTX_MISSES.COUNT : Fld := ⟨0x1000080, 0, 32, 0⟩
def TRU.WB_BUFFER_HITS.COUNT : Fld := ⟨0x1000088, 0, 32, 0⟩
def TRU.RETRANSMITS.COUNT : Fld := ⟨0x1000090, 0, 64, 0⟩
def TRU.TIMEOUTS.COUNT : Fld := ⟨0x1000098, 0, 32, 0⟩
def TRU.FAST_RETRANSMITS.COUNT : Fld := ⟨0x10000a0, 0, 32, 0⟩
def TRU.NAKS_SENT.COUNT : Fld := ⟨0x10000a8, 0, 32, 0⟩
def TRU.HDR_CRC_FAILURES.COUNT : Fld := ⟨0x10000b0, 0, 32, 0⟩
def TRU.DUPLICATES.COUNT : Fld := ⟨0x10000b8, 0, 32, 0⟩
def TRU.OUT_OF_WINDOW.COUNT : Fld := ⟨0x10000c0, 0, 32, 0⟩
def TRU.RNR_SENT.COUNT : Fld := ⟨0x10000c8, 0, 32, 0⟩
def TRU.RNR_RECEIVED.COUNT : Fld := ⟨0x10000d0, 0, 32, 0⟩
def TRU.MARKED_RECEIVED.COUNT : Fld := ⟨0x10000d8, 0, 64, 0⟩
def TRU.RATE_DECREASES.COUNT : Fld := ⟨0x10000e0, 0, 32, 0⟩
def TRU.PEER_UNREACHABLE.COUNT : Fld := ⟨0x10000e8, 0, 32, 0⟩
def TRU.CTX_ABORTED.COUNT : Fld := ⟨0x10000f0, 0, 32, 0⟩
def TRU.NOCTX_SENT.COUNT : Fld := ⟨0x10000f8, 0, 32, 0⟩
def TRU.CONTROL_DROPS.COUNT : Fld := ⟨0x1000100, 0, 32, 0⟩
def TRU.LAST_END.REMOTE_FEA : Fld := ⟨0x1000108, 0, 24, 0⟩
def TRU.LAST_END.HOST_PORT : Fld := ⟨0x1000108, 24, 2, 0⟩
def TRU.LAST_END.REASON : Fld := ⟨0x1000108, 28, 4, 0⟩
def TRU.LAST_END.LOCAL_INDEX : Fld := ⟨0x1000108, 32, 22, 0⟩
def TRU.COUNT_CLEAR.CLEAR : Fld := ⟨0x1000110, 0, 1, 0⟩
def TRU.CTX_CMD.OP : Fld := ⟨0x1004020, 0, 4, 0⟩
def TRU.CTX_CMD.GO : Fld := ⟨0x1004020, 31, 1, 0⟩
def TRU.CTX_ARG.REMOTE_FEA : Fld := ⟨0x1004028, 0, 24, 0⟩
def TRU.CTX_ARG.HOST_PORT : Fld := ⟨0x1004028, 24, 2, 0⟩
def TRU.CTX_ARG.INDEX : Fld := ⟨0x1004028, 32, 22, 0⟩
def TRU.CTX_STATUS.BUSY : Fld := ⟨0x1004030, 0, 1, 0⟩
def TRU.CTX_STATUS.DONE : Fld := ⟨0x1004030, 1, 1, 0⟩
def TRU.CTX_STATUS.GO_REJECT : Fld := ⟨0x1004030, 2, 1, 0⟩
def TRU.CTX_STATUS.CODE : Fld := ⟨0x1004030, 8, 8, 0⟩
def TRU.CTX_STATUS.DETAIL : Fld := ⟨0x1004030, 16, 8, 0⟩
def TRU.CTX_RESULT0.STATE : Fld := ⟨0x1004038, 0, 3, 0⟩
def TRU.CTX_RESULT0.VERSION : Fld := ⟨0x1004038, 4, 4, 0⟩
def TRU.CTX_RESULT0.CACHED : Fld := ⟨0x1004038, 8, 1, 0⟩
def TRU.CTX_RESULT0.LOCAL_INDEX : Fld := ⟨0x1004038, 32, 22, 0⟩
def TRU.CTX_RESULT1.REMOTE_INDEX : Fld := ⟨0x1004040, 0, 22, 0⟩
def TRU.CTX_RESULT1.OUTSTANDING : Fld := ⟨0x1004040, 32, 13, 0⟩
def TRU.CTX_RESULT2.NEXT_SEQ : Fld := ⟨0x1004048, 0, 32, 0⟩
def TRU.CTX_RESULT2.CUM : Fld := ⟨0x1004048, 32, 32, 0⟩
def TRU.CTX_RESULT3.RATE_MBPS : Fld := ⟨0x1004050, 0, 22, 0⟩
def TRU.CTX_RESULT3.ALPHA : Fld := ⟨0x1004050, 32, 16, 0⟩
def TRU.CTX_RESULT3.SRTT_US : Fld := ⟨0x1004050, 48, 16, 0⟩
def QDU.QDU_CFG.JOIN_TIMEOUT_MS : Fld := ⟨0x1400020, 0, 16, 10000⟩
def QDU.RECORDS.CAPACITY : Fld := ⟨0x1400028, 0, 12, 2048⟩
def QDU.RECORDS.USED : Fld := ⟨0x1400028, 16, 12, 0⟩
def QDU.SLOTS.TOTAL : Fld := ⟨0x1400030, 0, 13, 4096⟩
def QDU.SLOTS.RESERVED : Fld := ⟨0x1400030, 16, 13, 0⟩
def QDU.SLOTS.BORROWED : Fld := ⟨0x1400030, 32, 13, 0⟩
def QDU.PENDING_JOINS.CAPACITY : Fld := ⟨0x1400038, 0, 13, 4096⟩
def QDU.PENDING_JOINS.USED : Fld := ⟨0x1400038, 16, 13, 0⟩
def QDU.QDU_STATUS.SERVING_OTHER : Fld := ⟨0x1400040, 0, 1, 0⟩
def QDU.QDU_STATUS.TAKEN_OVER : Fld := ⟨0x1400040, 16, 12, 0⟩
def QDU.OPS_COMPLETED.COUNT : Fld := ⟨0x1400048, 0, 64, 0⟩
def QDU.SEGMENTS.COUNT : Fld := ⟨0x1400050, 0, 64, 0⟩
def QDU.ELEMENTS.COUNT : Fld := ⟨0x1400058, 0, 64, 0⟩
def QDU.RESENDS.COUNT : Fld := ⟨0x1400060, 0, 32, 0⟩
def QDU.SLOT_ERRORS.COUNT : Fld := ⟨0x1400068, 0, 32, 0⟩
def QDU.CREDIT_WAITS.COUNT : Fld := ⟨0x1400070, 0, 32, 0⟩
def QDU.JOIN_REFUSED.COUNT : Fld := ⟨0x1400078, 0, 32, 0⟩
def QDU.FAILURES.COUNT : Fld := ⟨0x1400080, 0, 32, 0⟩
def QDU.LAST_FAILURE.QID : Fld := ⟨0x1400088, 0, 32, 0⟩
def QDU.LAST_FAILURE.STATUS : Fld := ⟨0x1400088, 32, 8, 0⟩
def QDU.LAST_FAILURE.LOCAL : Fld := ⟨0x1400088, 40, 1, 0⟩
def QDU.LAST_FAILURE_SRC.FEA : Fld := ⟨0x1400090, 0, 24, 0⟩
def QDU.LAST_FAILURE_SRC.POLDER : Fld := ⟨0x1400090, 32, 20, 0⟩
def QDU.COUNT_CLEAR.CLEAR : Fld := ⟨0x1400098, 0, 1, 0⟩
def LEAF.LEAF_CFG.JOIN_TIMEOUT_MS : Fld := ⟨0x100c020, 0, 16, 10000⟩
def LEAF.LEAF_RECORDS.CAPACITY : Fld := ⟨0x100c028, 0, 15, 16384⟩
def LEAF.LEAF_RECORDS.USED : Fld := ⟨0x100c028, 16, 15, 0⟩
def LEAF.LEAF_OPS.COUNT : Fld := ⟨0x100c030, 0, 64, 0⟩
def LEAF.LEAF_FAILURES.COUNT : Fld := ⟨0x100c038, 0, 32, 0⟩
def LEAF.LEAF_COUNT_CLEAR.CLEAR : Fld := ⟨0x100c040, 0, 1, 0⟩
def RTB.MY_FEA.ROUTER : Fld := ⟨0x1800020, 6, 6, 0⟩
def RTB.MY_FEA.GROUP : Fld := ⟨0x1800020, 12, 12, 0⟩
def RTB.MY_FEA.VALID : Fld := ⟨0x1800020, 31, 1, 0⟩
def RTB.EPOCH.INJECT : Fld := ⟨0x1800028, 0, 1, 0⟩
def RTB.EPOCH.STATE0 : Fld := ⟨0x1800028, 4, 1, 0⟩
def RTB.EPOCH.STATE1 : Fld := ⟨0x1800028, 5, 1, 0⟩
def RTB.VERSION_CMD.OP : Fld := ⟨0x1800030, 0, 4, 0⟩
def RTB.VERSION_CMD.VERSION : Fld := ⟨0x1800030, 4, 1, 0⟩
def RTB.VERSION_CMD.GO : Fld := ⟨0x1800030, 31, 1, 0⟩
def RTB.VERSION_STATUS.BUSY : Fld := ⟨0x1800038, 0, 1, 0⟩
def RTB.VERSION_STATUS.DONE : Fld := ⟨0x1800038, 1, 1, 0⟩
def RTB.VERSION_STATUS.GO_REJECT : Fld := ⟨0x1800038, 2, 1, 0⟩
def RTB.VERSION_STATUS.WRITE_REJECT : Fld := ⟨0x1800038, 3, 1, 0⟩
def RTB.VERSION_STATUS.CODE : Fld := ⟨0x1800038, 8, 8, 0⟩
def RTB.VERSION_STATUS.DETAIL : Fld := ⟨0x1800038, 16, 8, 0⟩
def RTB.VERSION_STATUS.INDEX : Fld := ⟨0x1800038, 32, 16, 0⟩
def RTB.INJECT_HOLD.HOLD : Fld := ⟨0x1800040, 0, 1, 0⟩
def RTB.ADAPT_CFG.NM_CANDIDATES : Fld := ⟨0x1800048, 0, 3, 2⟩
def RTB.ADAPT_CFG.NM_BIAS : Fld := ⟨0x1800048, 8, 6, 4⟩
def RTB.ADAPT_CFG.FLOWLET_GAP_NS : Fld := ⟨0x1800048, 16, 16, 4000⟩
def RTB.GS_CFG.PERIOD_NS : Fld := ⟨0x1800050, 0, 14, 1000⟩
def RTB.GS_CFG.STALE_PERIODS : Fld := ⟨0x1800050, 16, 4, 4⟩
def RTB.IMB_CFG.RATIO_X8 : Fld := ⟨0x1800058, 0, 8, 12⟩
def RTB.IMB_CFG.WINDOWS : Fld := ⟨0x1800058, 8, 4, 8⟩
def RTB.IMB_CFG.MIN_UTIL_PCT : Fld := ⟨0x1800058, 16, 7, 25⟩
def RTB.IMB_CFG.AUTO : Fld := ⟨0x1800058, 24, 1, 1⟩
def RTB.IMB_CFG.WINDOW_US : Fld := ⟨0x1800058, 32, 8, 10⟩
def RTB.SEED.GEN : Fld := ⟨0x1800060, 0, 16, 0⟩
def RTB.SEED.CUR : Fld := ⟨0x1800060, 16, 1, 0⟩
def RTB.SEED.RESEED : Fld := ⟨0x1800060, 31, 1, 0⟩
def RTB.IMB_STATUS.OVER : Fld := ⟨0x1800068, 0, 4, 0⟩
def RTB.IMB_STATUS.BUSIEST_NP : Fld := ⟨0x1800068, 8, 7, 0⟩
def RTB.IMB_STATUS.LAST_RATIO_X8 : Fld := ⟨0x1800068, 16, 16, 0⟩
def RTB.SPLIT.SPLIT : Fld := ⟨0x1800070, 0, 1, 0⟩
def RTB.HOLD_LIMIT.US : Fld := ⟨0x1800078, 0, 16, 0⟩
def RTB.MIN_CHOSEN.COUNT : Fld := ⟨0x1800080, 0, 64, 0⟩
def RTB.NM_CHOSEN.COUNT : Fld := ⟨0x1800088, 0, 64, 0⟩
def RTB.DETOURS.COUNT : Fld := ⟨0x1800090, 0, 32, 0⟩
def RTB.NO_ROUTE_DROPS.COUNT : Fld := ⟨0x1800098, 0, 32, 0⟩
def RTB.EPOCH_DROPS.COUNT : Fld := ⟨0x18000a0, 0, 32, 0⟩
def RTB.HOLD_DROPS.COUNT : Fld := ⟨0x18000a8, 0, 32, 0⟩
def RTB.FLOWLETS.COUNT : Fld := ⟨0x18000b0, 0, 64, 0⟩
def RTB.RESEEDS.COUNT : Fld := ⟨0x18000b8, 0, 32, 0⟩
def RTB.GS_STALE.COUNT : Fld := ⟨0x18000c0, 0, 32, 0⟩
def RTB.LAST_DROP.DEST_FEA : Fld := ⟨0x18000c8, 0, 24, 0⟩
def RTB.LAST_DROP.REASON : Fld := ⟨0x18000c8, 24, 4, 0⟩
def RTB.LAST_DROP.HOP_CLASS : Fld := ⟨0x18000c8, 28, 3, 0⟩
def RTB.LAST_DROP.EPOCH : Fld := ⟨0x18000c8, 31, 1, 0⟩
def RTB.LAST_DROP.SRC_FEA : Fld := ⟨0x18000c8, 32, 24, 0⟩
def RTB.COUNT_CLEAR.CLEAR : Fld := ⟨0x18000d0, 0, 1, 0⟩
def RTB.GS_LIVE.GLOBAL_LIVE (r h : Nat) : Fld := ⟨0x180c000 + 0x20 * r + 0x10 * h, 0, 32, 0⟩
def RTB.GS_LIVE.LOCAL_LIVE (r h : Nat) : Fld := ⟨0x180c000 + 0x20 * r + 0x10 * h, 32, 32, 0⟩
def RTB.GS_INFO.AGE_NS (r h : Nat) : Fld := ⟨0x180c008 + 0x20 * r + 0x10 * h, 0, 24, 0⟩
def RTB.GS_INFO.HALF (r h : Nat) : Fld := ⟨0x180c008 + 0x20 * r + 0x10 * h, 24, 2, 0⟩
def RTB.GS_INFO.SEQ (r h : Nat) : Fld := ⟨0x180c008 + 0x20 * r + 0x10 * h, 32, 16, 0⟩
def RTB.GS_INFO.VALID (r h : Nat) : Fld := ⟨0x180c008 + 0x20 * r + 0x10 * h, 48, 1, 0⟩
def RTB.GS_INFO.STALE (r h : Nat) : Fld := ⟨0x180c008 + 0x20 * r + 0x10 * h, 49, 1, 0⟩
def SWC.SWC_CFG.MODE : Fld := ⟨0x2000020, 0, 1, 0⟩
def SWC.SWC_CFG.COL_NETWORK : Fld := ⟨0x2000020, 1, 1, 0⟩
def SWC.SWC_CFG.GROUPING : Fld := ⟨0x2000020, 2, 2, 0⟩
def SWC.BASIN.CAPACITY : Fld := ⟨0x2000028, 0, 20, 655360⟩
def SWC.BASIN.USED : Fld := ⟨0x2000028, 32, 20, 0⟩
def SWC.BASIN_VN.CEILING (n : Nat) : Fld := ⟨0x2000030 + 0x8 * n, 0, 20, 0⟩
def SWC.BASIN_VN.USED (n : Nat) : Fld := ⟨0x2000030 + 0x8 * n, 32, 20, 0⟩
def SWC.GRANTS.RESERVED : Fld := ⟨0x2000050, 0, 20, 0⟩
def SWC.GRANTS.WITHHELD : Fld := ⟨0x2000050, 32, 20, 0⟩
def SWC.MIN_STORE.TOTAL : Fld := ⟨0x2000058, 0, 17, 0⟩
def SWC.MIN_STORE.USED : Fld := ⟨0x2000058, 32, 17, 0⟩
def SWC.OUT_WEIGHT.REQ : Fld := ⟨0x2000060, 0, 8, 8⟩
def SWC.OUT_WEIGHT.RSP : Fld := ⟨0x2000060, 8, 8, 8⟩
def SWC.OUT_WEIGHT.COL : Fld := ⟨0x2000060, 16, 8, 4⟩
def SWC.MARK_THRESH.REQ (n : Nat) : Fld := ⟨0x2000068 + 0x8 * n, 0, 16, (if n = 0 then 256 else if n = 1 then 1024 else 128)⟩
def SWC.MARK_THRESH.RSP (n : Nat) : Fld := ⟨0x2000068 + 0x8 * n, 16, 16, (if n = 0 then 256 else if n = 1 then 1024 else 128)⟩
def SWC.MARK_THRESH.COL (n : Nat) : Fld := ⟨0x2000068 + 0x8 * n, 32, 16, (if n = 0 then 256 else if n = 1 then 1024 else 128)⟩
def SWC.RED_TH.MIN_TH (n : Nat) : Fld := ⟨0x2000080 + 0x10 * n, 0, 16, (if n % 3 = 0 then 8192 else if n % 3 = 1 then 2048 else 512)⟩
def SWC.RED_TH.MAX_TH (n : Nat) : Fld := ⟨0x2000080 + 0x10 * n, 16, 16, (if n % 3 = 0 then 16384 else if n % 3 = 1 then 8192 else 2048)⟩
def SWC.RED_P.MAX_P_X256 (n : Nat) : Fld := ⟨0x2000088 + 0x10 * n, 0, 9, (if n % 3 = 0 then 26 else if n % 3 = 1 then 64 else 256)⟩
def SWC.SLUICE_CFG.THROTTLE_ON_PCT : Fld := ⟨0x2000110, 0, 7, 75⟩
def SWC.SLUICE_CFG.THROTTLE_OFF_PCT : Fld := ⟨0x2000110, 8, 7, 50⟩
def SWC.SLUICE_CFG.THROTTLE_RATE_PCT : Fld := ⟨0x2000110, 16, 7, 25⟩
def SWC.SLUICE_STATUS.THROTTLED : Fld := ⟨0x2000118, 0, 2, 0⟩
def SWC.SLUICE_STATUS.ACTIVE_SOURCES : Fld := ⟨0x2000118, 16, 15, 0⟩
def SWC.SLUICE_STATUS.INJ_BUF_USED : Fld := ⟨0x2000118, 32, 16, 0⟩
def SWC.ADMITTED.COUNT : Fld := ⟨0x2000120, 0, 64, 0⟩
def SWC.CE_MARKED.COUNT : Fld := ⟨0x2000128, 0, 64, 0⟩
def SWC.RED_DROPS_GREEN.COUNT : Fld := ⟨0x2000130, 0, 32, 0⟩
def SWC.RED_DROPS_YELLOW.COUNT : Fld := ⟨0x2000138, 0, 32, 0⟩
def SWC.RED_DROPS_RED.COUNT : Fld := ⟨0x2000140, 0, 32, 0⟩
def SWC.FORMAT_DROPS.COUNT : Fld := ⟨0x2000148, 0, 32, 0⟩
def SWC.THROTTLE_ONSETS.COUNT : Fld := ⟨0x2000150, 0, 32, 0⟩
def SWC.CREDIT_WITHHOLDS.COUNT : Fld := ⟨0x2000158, 0, 32, 0⟩
def SWC.LAST_RED_DROP.DEST_FEA : Fld := ⟨0x2000160, 0, 24, 0⟩
def SWC.LAST_RED_DROP.COLOUR : Fld := ⟨0x2000160, 24, 2, 0⟩
def SWC.LAST_RED_DROP.VN : Fld := ⟨0x2000160, 26, 2, 0⟩
def SWC.LAST_RED_DROP.POLDER : Fld := ⟨0x2000160, 32, 20, 0⟩
def SWC.COUNT_CLEAR.CLEAR : Fld := ⟨0x2000168, 0, 1, 0⟩
def SL.SL_WEIGHT.WEIGHT (i : Nat) : Fld := ⟨0x0 + slBase i, 0, 8, 16⟩
def SL.SHAPE_RATE.MBPS (i : Nat) : Fld := ⟨0x8 + slBase i, 0, 23, 0⟩
def SL.SHAPE_BURST.BYTES (i : Nat) : Fld := ⟨0x10 + slBase i, 0, 24, 16384⟩
def SL.POLICE_CIR.MBPS (i : Nat) : Fld := ⟨0x18 + slBase i, 0, 23, 0⟩
def SL.POLICE_CIR.ENABLE (i : Nat) : Fld := ⟨0x18 + slBase i, 31, 1, 0⟩
def SL.POLICE_CBS.BYTES (i : Nat) : Fld := ⟨0x20 + slBase i, 0, 24, 65536⟩
def SL.POLICE_PIR.MBPS (i : Nat) : Fld := ⟨0x28 + slBase i, 0, 23, 0⟩
def SL.POLICE_PBS.BYTES (i : Nat) : Fld := ⟨0x30 + slBase i, 0, 24, 131072⟩
def SL.SL_STATE.CREDIT (i : Nat) : Fld := ⟨0x38 + slBase i, 0, 32, 0⟩
def SL.SL_STATE.BACKLOGGED (i : Nat) : Fld := ⟨0x38 + slBase i, 32, 1, 0⟩
def SWC.PORT_STATE.WAITING (n : Nat) : Fld := ⟨0x2008000 + 0x8 * n, 0, 20, 0⟩
def SWC.PORT_STATE.PRESSURE (n : Nat) : Fld := ⟨0x2008000 + 0x8 * n, 24, 6, 0⟩
def SWC.PORT_STATE.SHARED_ALLOW (n : Nat) : Fld := ⟨0x2008000 + 0x8 * n, 32, 13, 0⟩
def SWC.VC_MIN.UNITS (n : Nat) : Fld := ⟨0x200c000 + 0x8 * n, 0, 9, 0⟩
def LLU.LINK_STATE.STATE (p : Nat) : Fld := ⟨0x2800020 + 0x10000 * p, 0, 3, 0⟩
def LLU.LINK_STATE.LIVE (p : Nat) : Fld := ⟨0x2800020 + 0x10000 * p, 3, 1, 0⟩
def LLU.LINK_STATE.FAIL_REASON (p : Nat) : Fld := ⟨0x2800020 + 0x10000 * p, 4, 4, 0⟩
def LLU.LINK_STATE.VERSION (p : Nat) : Fld := ⟨0x2800020 + 0x10000 * p, 8, 4, 0⟩
def LLU.LINK_STATE.LANES_ACTIVE (p : Nat) : Fld := ⟨0x2800020 + 0x10000 * p, 12, 4, 0⟩
def LLU.LINK_STATE.RATE (p : Nat) : Fld := ⟨0x2800020 + 0x10000 * p, 16, 3, 0⟩
def LLU.LINK_STATE.RESUMED (p : Nat) : Fld := ⟨0x2800020 + 0x10000 * p, 20, 1, 0⟩
def LLU.PARTNER.FEA (p : Nat) : Fld := ⟨0x2800028 + 0x10000 * p, 0, 24, 0⟩
def LLU.PARTNER.NP (p : Nat) : Fld := ⟨0x2800028 + 0x10000 * p, 24, 7, 0⟩
def LLU.PARTNER.FEA_VALID (p : Nat) : Fld := ⟨0x2800028 + 0x10000 * p, 31, 1, 0⟩
def LLU.PARTNER.ROLE (p : Nat) : Fld := ⟨0x2800028 + 0x10000 * p, 32, 2, 0⟩
def LLU.PARTNER.V (p : Nat) : Fld := ⟨0x2800028 + 0x10000 * p, 36, 4, 0⟩
def LLU.PARTNER.L (p : Nat) : Fld := ⟨0x2800028 + 0x10000 * p, 40, 4, 0⟩
def LLU.PARTNER_SERIAL_LO.SERIAL (p : Nat) : Fld := ⟨0x2800030 + 0x10000 * p, 0, 64, 0⟩
def LLU.PARTNER_SERIAL_HI.SERIAL (p : Nat) : Fld := ⟨0x2800038 + 0x10000 * p, 0, 64, 0⟩
def LLU.RETRAIN_CFG.REPLAY_LIMIT (p : Nat) : Fld := ⟨0x2800040 + 0x10000 * p, 0, 4, 8⟩
def LLU.LINK_TIMERS.SILENCE_NS (p : Nat) : Fld := ⟨0x2800048 + 0x10000 * p, 0, 16, 1000⟩
def LLU.LINK_TIMERS.REPLAY_TIMEOUT_NS (p : Nat) : Fld := ⟨0x2800048 + 0x10000 * p, 16, 16, 0⟩
def LLU.LINK_CTRL.RETRAIN (p : Nat) : Fld := ⟨0x2800050 + 0x10000 * p, 0, 1, 0⟩
def LLU.LINK_CTRL.CHANGE_GO (p : Nat) : Fld := ⟨0x2800050 + 0x10000 * p, 1, 1, 0⟩
def LLU.LINK_CTRL.LANE_MASK_REQ (p : Nat) : Fld := ⟨0x2800050 + 0x10000 * p, 4, 4, 0⟩
def LLU.LINK_CTRL.RATE_REQ (p : Nat) : Fld := ⟨0x2800050 + 0x10000 * p, 8, 3, 0⟩
def LLU.LINK_CTRL.RETIRE (p : Nat) : Fld := ⟨0x2800050 + 0x10000 * p, 31, 1, 0⟩
def LLU.CHANGE_STATUS.BUSY (p : Nat) : Fld := ⟨0x2800058 + 0x10000 * p, 0, 1, 0⟩
def LLU.CHANGE_STATUS.DONE (p : Nat) : Fld := ⟨0x2800058 + 0x10000 * p, 1, 1, 0⟩
def LLU.CHANGE_STATUS.RESULT (p : Nat) : Fld := ⟨0x2800058 + 0x10000 * p, 4, 2, 0⟩
def LLU.REPLAY.CAPACITY (p : Nat) : Fld := ⟨0x2800060 + 0x10000 * p, 0, 11, 0⟩
def LLU.REPLAY.OUTSTANDING (p : Nat) : Fld := ⟨0x2800060 + 0x10000 * p, 16, 11, 0⟩
def LLU.REPLAY.LINK_RTT_NS (p : Nat) : Fld := ⟨0x2800060 + 0x10000 * p, 32, 16, 0⟩
def LLU.FLITS_TX.COUNT (p : Nat) : Fld := ⟨0x2800068 + 0x10000 * p, 0, 64, 0⟩
def LLU.FLITS_RX.COUNT (p : Nat) : Fld := ⟨0x2800070 + 0x10000 * p, 0, 64, 0⟩
def LLU.CRC_ERRORS.COUNT (p : Nat) : Fld := ⟨0x2800078 + 0x10000 * p, 0, 32, 0⟩
def LLU.FLITS_DISCARDED.COUNT (p : Nat) : Fld := ⟨0x2800080 + 0x10000 * p, 0, 32, 0⟩
def LLU.REPLAYS.COUNT (p : Nat) : Fld := ⟨0x2800088 + 0x10000 * p, 0, 32, 0⟩
def LLU.REPLAYED_FLITS.COUNT (p : Nat) : Fld := ⟨0x2800090 + 0x10000 * p, 0, 32, 0⟩
def LLU.REPLAY_TIMEOUTS.COUNT (p : Nat) : Fld := ⟨0x2800098 + 0x10000 * p, 0, 32, 0⟩
def LLU.RETRAINS.COUNT (p : Nat) : Fld := ⟨0x28000a0 + 0x10000 * p, 0, 32, 0⟩
def LLU.RETRAIN_FAILS.COUNT (p : Nat) : Fld := ⟨0x28000a8 + 0x10000 * p, 0, 32, 0⟩
def LLU.CHANGES.COUNT (p : Nat) : Fld := ⟨0x28000b0 + 0x10000 * p, 0, 32, 0⟩
def LLU.FILLER_PACKETS.COUNT (p : Nat) : Fld := ⟨0x28000b8 + 0x10000 * p, 0, 32, 0⟩
def LLU.LAST_RETRAIN.CAUSE (p : Nat) : Fld := ⟨0x28000c0 + 0x10000 * p, 0, 4, 0⟩
def LLU.LAST_RETRAIN.DURATION_US (p : Nat) : Fld := ⟨0x28000c0 + 0x10000 * p, 8, 24, 0⟩
def LLU.RETRAIN_WINDOW.FAILS_60S (p : Nat) : Fld := ⟨0x28000c8 + 0x10000 * p, 0, 5, 0⟩
def LLU.RETRAIN_WINDOW.DOWN_MS (p : Nat) : Fld := ⟨0x28000c8 + 0x10000 * p, 16, 10, 0⟩
def LLU.COUNT_CLEAR.CLEAR (p : Nat) : Fld := ⟨0x28000d0 + 0x10000 * p, 0, 1, 0⟩
def LLU.CREDIT.HELD (p : Nat) (n : Nat) : Fld := ⟨0x2800100 + 0x10000 * p + 0x8 * n, 0, 13, 0⟩
def LLU.CREDIT.TOTAL_RETURNED (p : Nat) (n : Nat) : Fld := ⟨0x2800100 + 0x10000 * p + 0x8 * n, 32, 32, 0⟩
def LNE.LNE_CFG.RATE_MAX (l : Nat) : Fld := ⟨0x3000020 + 0x4000 * l, 0, 3, 0⟩
def LNE.LNE_CFG.REACH (l : Nat) : Fld := ⟨0x3000020 + 0x4000 * l, 3, 1, 0⟩
def LNE.LNE_CFG.PRECODE (l : Nat) : Fld := ⟨0x3000020 + 0x4000 * l, 4, 1, 0⟩
def LNE.LNE_STATE.STATE (l : Nat) : Fld := ⟨0x3000028 + 0x4000 * l, 0, 4, 0⟩
def LNE.LNE_STATE.RATE (l : Nat) : Fld := ⟨0x3000028 + 0x4000 * l, 4, 3, 0⟩
def LNE.LNE_STATE.FAIL_REASON (l : Nat) : Fld := ⟨0x3000028 + 0x4000 * l, 8, 4, 0⟩
def LNE.LNE_STATE.POLARITY_INV (l : Nat) : Fld := ⟨0x3000028 + 0x4000 * l, 12, 1, 0⟩
def LNE.LNE_STATE.RANK_RX (l : Nat) : Fld := ⟨0x3000028 + 0x4000 * l, 14, 2, 0⟩
def LNE.LNE_STATE.PARTNER_LANE (l : Nat) : Fld := ⟨0x3000028 + 0x4000 * l, 16, 7, 0⟩
def LNE.LNE_STATE.PWR_REJECT (l : Nat) : Fld := ⟨0x3000028 + 0x4000 * l, 24, 1, 0⟩
def LNE.TX_EQ.PRE3 (l : Nat) : Fld := ⟨0x3000030 + 0x4000 * l, 0, 8, 0⟩
def LNE.TX_EQ.PRE2 (l : Nat) : Fld := ⟨0x3000030 + 0x4000 * l, 8, 8, 0⟩
def LNE.TX_EQ.PRE1 (l : Nat) : Fld := ⟨0x3000030 + 0x4000 * l, 16, 8, 0⟩
def LNE.TX_EQ.MAIN (l : Nat) : Fld := ⟨0x3000030 + 0x4000 * l, 24, 8, 63⟩
def LNE.TX_EQ.POST1 (l : Nat) : Fld := ⟨0x3000030 + 0x4000 * l, 32, 8, 0⟩
def LNE.RX_EQ.CTLE (l : Nat) : Fld := ⟨0x3000038 + 0x4000 * l, 0, 4, 0⟩
def LNE.RX_EQ.VGA (l : Nat) : Fld := ⟨0x3000038 + 0x4000 * l, 4, 8, 0⟩
def LNE.RX_EQ.SNR_CDB (l : Nat) : Fld := ⟨0x3000038 + 0x4000 * l, 16, 16, 0⟩
def LNE.DFE_TAPS.TAP1 (l : Nat) : Fld := ⟨0x3000040 + 0x4000 * l, 0, 8, 0⟩
def LNE.DFE_TAPS.TAP2 (l : Nat) : Fld := ⟨0x3000040 + 0x4000 * l, 8, 8, 0⟩
def LNE.DFE_TAPS.TAP3 (l : Nat) : Fld := ⟨0x3000040 + 0x4000 * l, 16, 8, 0⟩
def LNE.DFE_TAPS.TAP4 (l : Nat) : Fld := ⟨0x3000040 + 0x4000 * l, 24, 8, 0⟩
def LNE.DFE_TAPS.TAP5 (l : Nat) : Fld := ⟨0x3000040 + 0x4000 * l, 32, 8, 0⟩
def LNE.DFE_TAPS.TAP6 (l : Nat) : Fld := ⟨0x3000040 + 0x4000 * l, 40, 8, 0⟩
def LNE.DFE_TAPS.TAP7 (l : Nat) : Fld := ⟨0x3000040 + 0x4000 * l, 48, 8, 0⟩
def LNE.DFE_TAPS.TAP8 (l : Nat) : Fld := ⟨0x3000040 + 0x4000 * l, 56, 8, 0⟩
def LNE.DFE_FLOAT.POS0 (l : Nat) : Fld := ⟨0x3000048 + 0x4000 * l, 0, 6, 0⟩
def LNE.DFE_FLOAT.POS1 (l : Nat) : Fld := ⟨0x3000048 + 0x4000 * l, 16, 6, 0⟩
def LNE.DFE_FLOAT.POS2 (l : Nat) : Fld := ⟨0x3000048 + 0x4000 * l, 32, 6, 0⟩
def LNE.DFE_FLOAT.POS3 (l : Nat) : Fld := ⟨0x3000048 + 0x4000 * l, 48, 6, 0⟩
def LNE.DFE_FLOAT.VAL0 (l : Nat) : Fld := ⟨0x3000048 + 0x4000 * l, 8, 8, 0⟩
def LNE.DFE_FLOAT.VAL1 (l : Nat) : Fld := ⟨0x3000048 + 0x4000 * l, 24, 8, 0⟩
def LNE.DFE_FLOAT.VAL2 (l : Nat) : Fld := ⟨0x3000048 + 0x4000 * l, 40, 8, 0⟩
def LNE.DFE_FLOAT.VAL3 (l : Nat) : Fld := ⟨0x3000048 + 0x4000 * l, 56, 8, 0⟩
def LNE.ADAPT_CFG.CONTINUOUS (l : Nat) : Fld := ⟨0x3000050 + 0x4000 * l, 0, 1, 1⟩
def LNE.QUAL_CFG.WINDOW_US (l : Nat) : Fld := ⟨0x3000058 + 0x4000 * l, 0, 8, 50⟩
def LNE.LNE_PWR.REQ (l : Nat) : Fld := ⟨0x3000060 + 0x4000 * l, 0, 2, 0⟩
def LNE.PRBS_CTRL.REQ (l : Nat) : Fld := ⟨0x3000068 + 0x4000 * l, 0, 1, 0⟩
def LNE.PRBS_CTRL.PATTERN (l : Nat) : Fld := ⟨0x3000068 + 0x4000 * l, 1, 3, 1⟩
def LNE.PRBS_CTRL.ALLOW (l : Nat) : Fld := ⟨0x3000068 + 0x4000 * l, 4, 1, 0⟩
def LNE.PRBS_STATUS.LOCKED (l : Nat) : Fld := ⟨0x3000070 + 0x4000 * l, 0, 1, 0⟩
def LNE.PRBS_STATUS.REJECTED (l : Nat) : Fld := ⟨0x3000070 + 0x4000 * l, 1, 1, 0⟩
def LNE.PRBS_STATUS.NO_PARTNER (l : Nat) : Fld := ⟨0x3000070 + 0x4000 * l, 2, 1, 0⟩
def LNE.PRBS_STATUS.RELOCKS (l : Nat) : Fld := ⟨0x3000070 + 0x4000 * l, 16, 16, 0⟩
def LNE.PRBS_BITS.COUNT (l : Nat) : Fld := ⟨0x3000078 + 0x4000 * l, 0, 64, 0⟩
def LNE.PRBS_ERRORS.COUNT (l : Nat) : Fld := ⟨0x3000080 + 0x4000 * l, 0, 64, 0⟩
def LNE.FEC_CODEWORDS.COUNT (l : Nat) : Fld := ⟨0x3000088 + 0x4000 * l, 0, 64, 0⟩
def LNE.FEC_CORRECTED_CW.COUNT (l : Nat) : Fld := ⟨0x3000090 + 0x4000 * l, 0, 64, 0⟩
def LNE.FEC_CORRECTED_SYMBOLS.COUNT (l : Nat) : Fld := ⟨0x3000098 + 0x4000 * l, 0, 64, 0⟩
def LNE.FEC_UNCORRECTABLE.COUNT (l : Nat) : Fld := ⟨0x30000a0 + 0x4000 * l, 0, 32, 0⟩
def LNE.LOCK_LOSSES.COUNT (l : Nat) : Fld := ⟨0x30000a8 + 0x4000 * l, 0, 32, 0⟩
def LNE.TRAININGS.COUNT (l : Nat) : Fld := ⟨0x30000b0 + 0x4000 * l, 0, 32, 0⟩
def LNE.TRAIN_FAILS.COUNT (l : Nat) : Fld := ⟨0x30000b8 + 0x4000 * l, 0, 32, 0⟩
def LNE.LAST_TRAIN.DURATION_US (l : Nat) : Fld := ⟨0x30000c0 + 0x4000 * l, 0, 24, 0⟩
def LNE.LAST_TRAIN.FULL (l : Nat) : Fld := ⟨0x30000c0 + 0x4000 * l, 24, 1, 0⟩
def LNE.COUNT_CLEAR.CLEAR (l : Nat) : Fld := ⟨0x30000c8 + 0x4000 * l, 0, 1, 0⟩
def LNE.SYM_HIST.COUNT (l : Nat) (n : Nat) : Fld := ⟨0x3000100 + 0x4000 * l + 0x8 * n, 0, 48, 0⟩
def FM.FM_STATE.RUNNING : Fld := ⟨0x4020, 0, 1, 0⟩
def FM.FM_STATE.SPLIT : Fld := ⟨0x4020, 1, 1, 0⟩
def FM.FM_STATE.DIE_A_LOST : Fld := ⟨0x4020, 2, 1, 0⟩
def FM.FM_STATE.DIE_B_LOST : Fld := ⟨0x4020, 3, 1, 0⟩
def FM.FM_STATE.LOG_WRAPPED : Fld := ⟨0x4020, 4, 1, 0⟩
def FM.FM_STATE.BRIDGE_LIVE : Fld := ⟨0x4020, 16, 16, 0⟩
def FM.RETIRED_COUNTS.LANES : Fld := ⟨0x4028, 0, 8, 0⟩
def FM.RETIRED_COUNTS.PORTS : Fld := ⟨0x4028, 8, 8, 0⟩
def FM.RETIRED_COUNTS.MODULES : Fld := ⟨0x4028, 16, 5, 0⟩
def FM.RETIRED_COUNTS.ENGINES : Fld := ⟨0x4028, 24, 8, 0⟩
def FM.RETIRED_COUNTS.BANKS : Fld := ⟨0x4028, 32, 8, 0⟩
def FM.RETIRED_COUNTS.QDU : Fld := ⟨0x4028, 40, 2, 0⟩
def FM.RETIRED_COUNTS.ROWS : Fld := ⟨0x4028, 48, 16, 0⟩
def FM.LOG_HEAD.SEQ : Fld := ⟨0x4030, 0, 32, 0⟩
def FM.LOG_HEAD.INDEX : Fld := ⟨0x4030, 32, 18, 0⟩
def FM.VISIBLE_EVENTS.COUNT : Fld := ⟨0x4038, 0, 32, 0⟩
def FM.FM_CMD.OP : Fld := ⟨0x4040, 0, 4, 0⟩
def FM.FM_CMD.GO : Fld := ⟨0x4040, 31, 1, 0⟩
def FM.FM_ARG.CLASS : Fld := ⟨0x4048, 0, 8, 0⟩
def FM.FM_ARG.DIE : Fld := ⟨0x4048, 8, 1, 0⟩
def FM.FM_ARG.INDEX : Fld := ⟨0x4048, 32, 32, 0⟩
def FM.FM_STATUS.BUSY : Fld := ⟨0x4050, 0, 1, 0⟩
def FM.FM_STATUS.DONE : Fld := ⟨0x4050, 1, 1, 0⟩
def FM.FM_STATUS.GO_REJECT : Fld := ⟨0x4050, 2, 1, 0⟩
def FM.FM_STATUS.CODE : Fld := ⟨0x4050, 8, 8, 0⟩
def FM.FM_STATUS.DETAIL : Fld := ⟨0x4050, 16, 8, 0⟩
def FM.FM_DATA.DATA (n : Nat) : Fld := ⟨0x4058 + 0x8 * n, 0, 64, 0⟩
def FM.AVAIL.UNAVAIL_MS (n : Nat) : Fld := ⟨0x40a0 + 0x8 * n, 0, 32, 0⟩
def FM.AVAIL.EVENTS (n : Nat) : Fld := ⟨0x40a0 + 0x8 * n, 48, 16, 0⟩
def PWC.PWC_CFG.IDLE_MULT : Fld := ⟨0x3c00020, 0, 8, 100⟩
def PWC.PWC_CFG.FENCE_TIMEOUT_US : Fld := ⟨0x3c00020, 16, 8, 100⟩
def PWC.CORE_VOLTAGE.MV : Fld := ⟨0x3c00028, 0, 10, 700⟩
def PWC.CORE_VOLTAGE.TARGET_MV : Fld := ⟨0x3c00028, 16, 10, 700⟩
def PWC.WAKES.COUNT : Fld := ⟨0x3c00030, 0, 32, 0⟩
def PWC.HELD_TRANSACTIONS.COUNT : Fld := ⟨0x3c00038, 0, 32, 0⟩
def PWC.FENCES.COUNT : Fld := ⟨0x3c00040, 0, 32, 0⟩
def PWC.FENCE_ABANDONED.COUNT : Fld := ⟨0x3c00048, 0, 32, 0⟩
def PWC.FENCE_TIMEOUTS.COUNT : Fld := ⟨0x3c00050, 0, 32, 0⟩
def PWC.LOCKED_OFF_DROPS.COUNT : Fld := ⟨0x3c00058, 0, 32, 0⟩
def PWC.HOLD_PEAK.UNITS : Fld := ⟨0x3c00060, 0, 16, 0⟩
def PWC.COUNT_CLEAR.CLEAR : Fld := ⟨0x3c00068, 0, 1, 0⟩
def PWC.DOM_CFG.MAX_STATE (n : Nat) : Fld := ⟨0x3c04000 + 0x20 * n, 0, 3, (domMaxDefault n)⟩
def PWC.DOM_CFG.PIN_GALOP (n : Nat) : Fld := ⟨0x3c04000 + 0x20 * n, 3, 1, 0⟩
def PWC.DOM_STATE.STATE (n : Nat) : Fld := ⟨0x3c04008 + 0x20 * n, 0, 3, 0⟩
def PWC.DOM_STATE.FENCING (n : Nat) : Fld := ⟨0x3c04008 + 0x20 * n, 3, 1, 0⟩
def PWC.DOM_STATE.LOCKED_OFF (n : Nat) : Fld := ⟨0x3c04008 + 0x20 * n, 4, 1, 0⟩
def PWC.DOM_STATE.LOCK_REASON (n : Nat) : Fld := ⟨0x3c04008 + 0x20 * n, 5, 3, 0⟩
def PWC.DOM_STATE.HELD (n : Nat) : Fld := ⟨0x3c04008 + 0x20 * n, 8, 16, 0⟩
def PWC.DOM_STATE.IDLE_US (n : Nat) : Fld := ⟨0x3c04008 + 0x20 * n, 32, 24, 0⟩
def PWC.DOM_WAKES.COUNT (n : Nat) : Fld := ⟨0x3c04010 + 0x20 * n, 0, 32, 0⟩
def PWC.DOM_ENTRIES.COUNT (n : Nat) : Fld := ⟨0x3c04018 + 0x20 * n, 0, 32, 0⟩
def PWC.ISLAND.FREQ_MHZ (n : Nat) : Fld := ⟨0x3c08000 + 0x8 * n, 0, 16, (islandMHz n)⟩
def PWC.ISLAND.GATED (n : Nat) : Fld := ⟨0x3c08000 + 0x8 * n, 16, 1, 0⟩
def PWC.ISLAND.LOCKED (n : Nat) : Fld := ⟨0x3c08000 + 0x8 * n, 17, 1, 0⟩
def PCU.PCU_CFG.WINDOW_US : Fld := ⟨0x3800020, 0, 20, 100⟩
def PCU.PCU_CFG.GROUPS : Fld := ⟨0x3800020, 24, 4, 7⟩
def PCU.PCU_CFG.POLDER_EVERY : Fld := ⟨0x3800020, 32, 16, 1000⟩
def PCU.DUMP_BASE.ADDR : Fld := ⟨0x3800028, 6, 51, 0⟩
def PCU.DUMP_SIZE.KIB : Fld := ⟨0x3800030, 0, 16, 0⟩
def PCU.DUMP_TARGET.TARGET : Fld := ⟨0x3800038, 0, 1, 0⟩
def PCU.DUMP_TARGET.FUNCTION : Fld := ⟨0x3800038, 8, 8, 0⟩
def PCU.DUMP_TARGET.HOST_PORT : Fld := ⟨0x3800038, 16, 2, 0⟩
def PCU.DUMP_PROD.OFFSET : Fld := ⟨0x3800040, 0, 64, 0⟩
def PCU.DUMP_CONS.OFFSET : Fld := ⟨0x3800048, 0, 64, 0⟩
def PCU.DUMP_STATUS.SEQ : Fld := ⟨0x3800050, 0, 32, 0⟩
def PCU.DUMP_STATUS.LOST : Fld := ⟨0x3800050, 32, 32, 0⟩
def PCU.WINDOW_STATE.NUMBER : Fld := ⟨0x3800058, 0, 48, 0⟩
def PCU.WINDOW_STATE.PARTIAL : Fld := ⟨0x3800058, 48, 1, 0⟩
def PCU.FT_CFG.ROLE : Fld := ⟨0x3800060, 0, 2, 0⟩
def PCU.FT_CFG.UPSTREAM_NP : Fld := ⟨0x3800060, 8, 7, 0⟩
def PCU.FT_CFG.UPSTREAM_VALID : Fld := ⟨0x3800060, 15, 1, 0⟩
def PCU.FT_CFG.ALT_NP : Fld := ⟨0x3800060, 16, 7, 0⟩
def PCU.FT_CFG.ALT_VALID : Fld := ⟨0x3800060, 23, 1, 0⟩
def PCU.FT_CFG.SYNC_INTERVAL_US : Fld := ⟨0x3800060, 32, 14, 100⟩
def PCU.FT_CFG.STEP_THRESHOLD_NS : Fld := ⟨0x3800060, 48, 16, 1000⟩
def PCU.FT_NOW.TIME : Fld := ⟨0x3800068, 0, 64, 0⟩
def PCU.FT_SET.TIME : Fld := ⟨0x3800070, 0, 64, 0⟩
def PCU.FT_STATUS.LOCKED : Fld := ⟨0x3800078, 0, 1, 0⟩
def PCU.FT_STATUS.HOLDOVER : Fld := ⟨0x3800078, 1, 1, 0⟩
def PCU.FT_STATUS.UNSYNCED : Fld := ⟨0x3800078, 2, 1, 1⟩
def PCU.FT_STATUS.STEPS_REMOVED : Fld := ⟨0x3800078, 4, 4, 15⟩
def PCU.FT_STATUS.OFFSET_NS : Fld := ⟨0x3800078, 32, 32, 0⟩
def PCU.FT_RATE.ADJ_PPB : Fld := ⟨0x3800080, 0, 32, 0⟩
def PCU.FT_RATE.DELAY_NS : Fld := ⟨0x3800080, 32, 32, 0⟩
def PCU.FT_STEPS.COUNT : Fld := ⟨0x3800088, 0, 32, 0⟩
def PCU.FT_EXCHANGES.COUNT : Fld := ⟨0x3800090, 0, 32, 0⟩
def PCU.FT_EXCHANGES.LOST : Fld := ⟨0x3800090, 32, 32, 0⟩
def PCU.PTM_HOST.TIME : Fld := ⟨0x3800098, 0, 64, 0⟩
def PCU.PTM_FT.TIME : Fld := ⟨0x38000a0, 0, 64, 0⟩
def PCU.COUNT_CLEAR.CLEAR : Fld := ⟨0x38000a8, 0, 1, 0⟩
def PCU.EV_CFG.EVENT (n : Nat) : Fld := ⟨0x3804000 + 0x10 * n, 0, 5, 0⟩
def PCU.EV_CFG.POLDER (n : Nat) : Fld := ⟨0x3804000 + 0x10 * n, 8, 20, 0⟩
def PCU.EV_CFG.FILTER (n : Nat) : Fld := ⟨0x3804000 + 0x10 * n, 31, 1, 0⟩
def PCU.EV_COUNT.COUNT (n : Nat) : Fld := ⟨0x3804008 + 0x10 * n, 0, 64, 0⟩
def PCU.PORT_CTR.COUNT (n : Nat) : Fld := ⟨0x3808000 + 0x8 * n, 0, 64, 0⟩
def PCU.HP_CTR.COUNT (n : Nat) : Fld := ⟨0x3808600 + 0x8 * n, 0, 64, 0⟩
def PCU.PC_CTRL.VIEW (i : Nat) : Fld := ⟨0x0 + pcBase i, 0, 1, if i = 0 then 1 else 0⟩
def PCU.PC_CTR.COUNT (i : Nat) (m : Nat) : Fld := ⟨0x8 + pcBase i + 8 * m, 0, 64, 0⟩
def SVC.SVC_ID.FW_VERSION : Fld := ⟨0x100000, 0, 16, 0⟩
def SVC.SVC_ID.ROM_VERSION : Fld := ⟨0x100000, 16, 16, 0⟩
def SVC.SVC_STATE.PHASE : Fld := ⟨0x100008, 0, 4, 0⟩
def SVC.SVC_STATE.BOOT_SLOT : Fld := ⟨0x100008, 4, 2, 0⟩
def SVC.SVC_STATE.BOOT_FAIL : Fld := ⟨0x100008, 8, 8, 0⟩
def SVC.SVC_STATE.JTAG_REFUSED : Fld := ⟨0x100008, 16, 1, 0⟩
def SVC.RESET_CAUSE.COLD : Fld := ⟨0x100010, 0, 1, 1⟩
def SVC.RESET_CAUSE.RESET_N : Fld := ⟨0x100010, 1, 1, 0⟩
def SVC.RESET_CAUSE.FM_CMD : Fld := ⟨0x100010, 2, 1, 0⟩
def SVC.RESET_CAUSE.OOB : Fld := ⟨0x100010, 3, 1, 0⟩
def SVC.RESET_CAUSE.I3C : Fld := ⟨0x100010, 4, 1, 0⟩
def SVC.RESET_CAUSE.COUNT : Fld := ⟨0x100010, 16, 16, 0⟩
def SVC.ALERT_STATUS.TEMP : Fld := ⟨0x100018, 0, 1, 0⟩
def SVC.ALERT_STATUS.BOOT : Fld := ⟨0x100018, 1, 1, 0⟩
def SVC.ALERT_STATUS.FAULT : Fld := ⟨0x100018, 2, 1, 0⟩
def SVC.ALERT_STATUS.VISIBLE : Fld := ⟨0x100018, 3, 1, 0⟩
def SVC.ALERT_MASK.MASK : Fld := ⟨0x100020, 0, 4, 0⟩
def SVC.TEMP.DIE_A : Fld := ⟨0x100028, 0, 8, 0⟩
def SVC.TEMP.DIE_B : Fld := ⟨0x100028, 8, 8, 0⟩
def SVC.TEMP.SERVICE : Fld := ⟨0x100028, 16, 8, 0⟩
def SVC.TEMP.TEMP_WARN : Fld := ⟨0x100028, 32, 8, 100⟩
def SVC.MB_CMD.OP : Fld := ⟨0x100030, 0, 4, 0⟩
def SVC.MB_CMD.GO : Fld := ⟨0x100030, 31, 1, 0⟩
def SVC.MB_ARG0.ARG : Fld := ⟨0x100038, 0, 64, 0⟩
def SVC.MB_ARG1.ARG : Fld := ⟨0x100040, 0, 64, 0⟩
def SVC.MB_STATUS.BUSY : Fld := ⟨0x100048, 0, 1, 0⟩
def SVC.MB_STATUS.DONE : Fld := ⟨0x100048, 1, 1, 0⟩
def SVC.MB_STATUS.GO_REJECT : Fld := ⟨0x100048, 2, 1, 0⟩
def SVC.MB_STATUS.CODE : Fld := ⟨0x100048, 8, 8, 0⟩
def SVC.MB_STATUS.DETAIL : Fld := ⟨0x100048, 16, 8, 0⟩
def SVC.MB_RESULT.VALUE : Fld := ⟨0x100050, 0, 64, 0⟩
def SVC.MGT_RX.COUNT : Fld := ⟨0x100058, 0, 64, 0⟩
def SVC.MGT_TX.COUNT : Fld := ⟨0x100060, 0, 64, 0⟩
def SVC.MGT_RX_DROPS.COUNT : Fld := ⟨0x100068, 0, 32, 0⟩
def SVC.MGT_RETRIES.COUNT : Fld := ⟨0x100070, 0, 32, 0⟩
def SVC.OOB_STATE.LINK : Fld := ⟨0x100078, 0, 1, 0⟩
def SVC.OOB_STATE.SESSIONS : Fld := ⟨0x100078, 1, 3, 0⟩
def SVC.OOB_STATE.REJECTED : Fld := ⟨0x100078, 16, 16, 0⟩
def SVC.MB_DATA.DATA (n : Nat) : Fld := ⟨0x104000 + 0x8 * n, 0, 64, 0⟩

/-! ## Rows of a block by offset -/

/-- The rows of a register at offset `a`. -/
def at1 (o a : Nat) (rows : List Row) : List Row := if o = a then rows else []

/-- The rows of `count` registers from offset `a`, `stride` apart. -/
def atN (o a stride count : Nat) (rows : Nat → List Row) : List Row :=
  if a ≤ o ∧ o < a + stride * count ∧ (o - a) % stride = 0 then rows ((o - a) / stride) else []

/-- Rows of the block header. -/
def rowsHDR (b o : Nat) : List Row :=
  at1 o 0x0 [⟨HDR.BLOCK_ID.TYPE b, .ro, .any⟩, ⟨HDR.BLOCK_ID.INSTANCE b, .ro, .any⟩, ⟨HDR.BLOCK_ID.LAYOUT b, .ro, .any⟩] ++
  at1 o 0x8 [⟨HDR.CTRL.ENABLE b, .rww, .any⟩] ++
  at1 o 0x10 [⟨HDR.STATUS.ENABLED b, .row, .any⟩, ⟨HDR.STATUS.CFG_REJECT b, .w1c, .any⟩] ++
  at1 o 0x18 [⟨HDR.CFG_REJECT_COUNT.COUNT b, .ro, .any⟩]

/-- Rows of the route tables at a block offset. -/
def rowsRTBTables (o : Nat) : List Row :=
  atN o 0x4000 8 32 (fun r => [⟨RTB.LOCAL 0 r, .rww, .any⟩]) ++
  atN o 0x8000 8 32 (fun r => [⟨RTB.LOCAL 1 r, .rww, .any⟩]) ++
  atN o 0x4100 8 32 (fun r => [⟨RTB.SLOT 0 r, .rww, .any⟩]) ++
  atN o 0x8100 8 32 (fun r => [⟨RTB.SLOT 1 r, .rww, .any⟩]) ++
  (if 0x20000 ≤ o ∧ o < 0x60000 ∧ o % 8 = 0 ∧ o % 0x4000 < 0x1000 ∧ (o % 0x20000) / 0x4000 * 512 + o % 0x4000 / 8 < 4095
   then [⟨RTB.GROUP ((o - 0x20000) / 0x20000) ((o % 0x20000) / 0x4000 * 512 + o % 0x4000 / 8), .rww, .any⟩] else [])

/-- Rows of the block page at offset `o`: IMS register map, 02_structure_image.md R67. -/
def rowsIMS (o : Nat) : List Row :=
  at1 o 0x0 [⟨IMS.TOKEN.OWNER_CLASS, .row, .any⟩, ⟨IMS.TOKEN.OWNER_FN, .row, .any⟩, ⟨IMS.TOKEN.RELEASE, .rww, .any⟩, ⟨IMS.TOKEN.ACQUIRE, .rww, .any⟩] ++
  at1 o 0x8 [⟨IMS.LEASE.REMAIN_MS, .row, .any⟩] ++
  at1 o 0x10 [⟨IMS.CMD.OP, .rww, .any⟩, ⟨IMS.CMD.SRC, .rww, .any⟩, ⟨IMS.CMD.ARG, .rww, .any⟩, ⟨IMS.CMD.GO, .rww, .any⟩] ++
  at1 o 0x18 [⟨IMS.SRC_ADDR.ADDR, .rww, .any⟩] ++
  at1 o 0x20 [⟨IMS.SRC_LEN.LEN, .rww, .any⟩] ++
  at1 o 0x28 [⟨IMS.CMD_STATUS.BUSY, .row, .any⟩, ⟨IMS.CMD_STATUS.DONE, .w1c, .any⟩, ⟨IMS.CMD_STATUS.CODE, .row, .any⟩, ⟨IMS.CMD_STATUS.DETAIL, .row, .any⟩, ⟨IMS.CMD_STATUS.STEP, .row, .any⟩] ++
  at1 o 0x30 [⟨IMS.JOURNAL_HEAD.SEQ, .row, .any⟩, ⟨IMS.JOURNAL_HEAD.SLOT, .row, .any⟩] ++
  at1 o 0x38 [⟨IMS.RUNNING.SOURCE, .row, .any⟩, ⟨IMS.RUNNING.SECURITY_EPOCH, .row, .any⟩] ++
  at1 o 0x40 [⟨IMS.VERSION.V, .ro, .any⟩, ⟨IMS.VERSION.L, .ro, .any⟩] ++
  at1 o 0x48 [⟨IMS.FEATURE_FLOOR.FLOOR, .rww, .any⟩, ⟨IMS.FEATURE_FLOOR.REJECT, .w1c, .any⟩] ++
  at1 o 0x50 [⟨IMS.VERSION_DROP_COUNT.COUNT, .row, .any⟩] ++
  at1 o 0x58 [⟨IMS.QUIESCE.REQ, .rww, .any⟩, ⟨IMS.QUIESCE.STATE, .row, .any⟩, ⟨IMS.QUIESCE.BLOCKER, .row, .any⟩] ++
  at1 o 0x60 [⟨IMS.BOOT_POLICY.POLICY, .row, .any⟩] ++
  at1 o 0x68 [⟨IMS.ENDURANCE.COMMITS, .row, .any⟩] ++
  at1 o 0x70 [⟨IMS.SCRUB_STATUS.CORRECTED, .row, .any⟩, ⟨IMS.SCRUB_STATUS.UNCORRECTABLE, .row, .any⟩] ++
  at1 o 0x78 [⟨IMS.KEY_STATUS.ENROLLED, .row, .any⟩, ⟨IMS.KEY_STATUS.MIN_SECURITY_EPOCH, .row, .any⟩]

/-- Rows of the block page at offset `o`: GLB register map, 03_register_model.md R88. -/
def rowsGLB (o : Nat) : List Row :=
  at1 o 0x0 [⟨GLB.ID.FAMILY, .ro, .any⟩, ⟨GLB.ID.DEVICE, .ro, .any⟩, ⟨GLB.ID.PART, .ro, .any⟩, ⟨GLB.ID.STEPPING, .ro, .any⟩] ++
  at1 o 0x8 [⟨GLB.SERIAL_LO.SERIAL, .ro, .any⟩] ++
  at1 o 0x10 [⟨GLB.SERIAL_HI.SERIAL, .ro, .any⟩] ++
  at1 o 0x18 [⟨GLB.UNIT_PRESENT.EC, .ro, .any⟩, ⟨GLB.UNIT_PRESENT.HP, .ro, .any⟩, ⟨GLB.UNIT_PRESENT.QDU, .ro, .any⟩, ⟨GLB.UNIT_PRESENT.HAG, .ro, .any⟩, ⟨GLB.UNIT_PRESENT.HBM, .ro, .any⟩, ⟨GLB.UNIT_PRESENT.IDE, .ro, .any⟩, ⟨GLB.UNIT_PRESENT.CXL_CACHE, .ro, .any⟩] ++
  at1 o 0x20 [⟨GLB.UNIT_ENABLED.UNITS, .ro, .any⟩] ++
  at1 o 0x28 [⟨GLB.REQUESTER.IS_WARDEN, .ro, .any⟩, ⟨GLB.REQUESTER.IS_SVC, .ro, .any⟩, ⟨GLB.REQUESTER.FUNCTION, .ro, .any⟩, ⟨GLB.REQUESTER.HOST_PORT, .ro, .any⟩] ++
  at1 o 0x30 [⟨GLB.WARDEN_COUNT.COUNT, .row, .any⟩] ++
  atN o 0x40 0x8 8 (fun n => [⟨GLB.WARDEN.FUNCTION n, .row, .any⟩, ⟨GLB.WARDEN.HOST_PORT n, .row, .any⟩, ⟨GLB.WARDEN.VALID n, .row, .any⟩]) ++
  at1 o 0x80 [⟨GLB.PRIV_VIOLATION_COUNT.COUNT, .row, .any⟩, ⟨GLB.PRIV_VIOLATION_COUNT.CLEAR, .rww, .any⟩] ++
  at1 o 0x88 [⟨GLB.PRIV_VIOLATION_LAST.REQUESTER, .row, .any⟩, ⟨GLB.PRIV_VIOLATION_LAST.VIEW, .row, .any⟩, ⟨GLB.PRIV_VIOLATION_LAST.OFFSET, .row, .any⟩] ++
  at1 o 0x90 [⟨GLB.ACCESS_ERROR_COUNT.COUNT, .row, .any⟩, ⟨GLB.ACCESS_ERROR_COUNT.CLEAR, .rww, .any⟩] ++
  at1 o 0x98 [⟨GLB.ABSENT_ACCESS_COUNT.COUNT, .row, .any⟩, ⟨GLB.ABSENT_ACCESS_COUNT.CLEAR, .rww, .any⟩] ++
  at1 o 0xa0 [⟨GLB.STATUS.IMAGE_RUNNING, .ro, .any⟩, ⟨GLB.STATUS.REG_PATH, .ro, .any⟩] ++
  at1 o 0xa8 [⟨GLB.SCRATCH.DATA, .rw, .any⟩]

/-- Rows of the block page at offset `o`: DIKE register map, 04_polders.md R120. -/
def rowsDIKE (o : Nat) : List Row :=
  at1 o 0x20 [⟨DIKE.PT_CMD.OP, .rww, .any⟩, ⟨DIKE.PT_CMD.GO, .rww, .any⟩] ++
  at1 o 0x28 [⟨DIKE.PT_POLDER.ID, .rww, .any⟩] ++
  at1 o 0x30 [⟨DIKE.PT_ARG0.ARG, .rww, .any⟩] ++
  at1 o 0x38 [⟨DIKE.PT_ARG1.ARG, .rww, .any⟩] ++
  at1 o 0x40 [⟨DIKE.PT_STATUS.BUSY, .row, .any⟩, ⟨DIKE.PT_STATUS.DONE, .w1c, .any⟩, ⟨DIKE.PT_STATUS.GO_REJECT, .w1c, .any⟩, ⟨DIKE.PT_STATUS.CODE, .row, .any⟩, ⟨DIKE.PT_STATUS.DETAIL, .row, .any⟩, ⟨DIKE.PT_STATUS.INDEX, .row, .any⟩] ++
  at1 o 0x48 [⟨DIKE.PT_CAPACITY.ENTRIES, .row, .any⟩, ⟨DIKE.PT_CAPACITY.USED, .row, .any⟩] ++
  at1 o 0x50 [⟨DIKE.PT_RESULT0.DATA, .row, .any⟩] ++
  at1 o 0x58 [⟨DIKE.PT_RESULT1.DATA, .row, .any⟩] ++
  at1 o 0x60 [⟨DIKE.INGRESS_DROPS.COUNT, .row, .any⟩] ++
  at1 o 0x68 [⟨DIKE.INJ_CLOSED_DROPS.COUNT, .row, .any⟩] ++
  at1 o 0x70 [⟨DIKE.EJ_ABSENT_PORT.COUNT, .row, .any⟩] ++
  at1 o 0x78 [⟨DIKE.EJ_CLASS_DROPS.COUNT, .row, .any⟩] ++
  at1 o 0x80 [⟨DIKE.EJ_NOT_RESIDENT.COUNT, .row, .any⟩] ++
  at1 o 0x88 [⟨DIKE.EJ_CLOSED_DROPS.COUNT, .row, .any⟩] ++
  at1 o 0x90 [⟨DIKE.EJ_NOT_BOUND.COUNT, .row, .any⟩] ++
  at1 o 0x98 [⟨DIKE.WINDOW_VIOLATIONS.COUNT, .row, .any⟩] ++
  at1 o 0xa0 [⟨DIKE.LAST_DROP.POLDER, .row, .any⟩, ⟨DIKE.LAST_DROP.REASON, .row, .any⟩, ⟨DIKE.LAST_DROP.SRC_FEA, .row, .any⟩] ++
  at1 o 0xa8 [⟨DIKE.COUNT_CLEAR.CLEAR, .rww, .any⟩] ++
  atN o 0x10000 0x8 512 (fun n => [⟨DIKE.FN_POLDER.POLDER n, .row, .any⟩, ⟨DIKE.FN_POLDER.BOUND n, .row, .any⟩, ⟨DIKE.FN_POLDER.WARDEN n, .row, .any⟩])

/-- Rows of the block page at offset `o`: Host-port DVSEC, 05_host_ports.md R155. -/
def rowsHP (h : Nat) (o : Nat) : List Row :=
  at1 o 0xc [⟨HP.HP_ID.PORT h, .ro, .any⟩, ⟨HP.HP_ID.DIE h, .ro, .any⟩, ⟨HP.HP_ID.LINK h, .ro, .any⟩, ⟨HP.HP_ID.PART h, .ro, .any⟩] ++
  at1 o 0x10 [⟨HP.HP_MODE.PROTOCOL h, .ro, .any⟩, ⟨HP.HP_MODE.BIFURCATED h, .ro, .any⟩, ⟨HP.HP_MODE.TOTAL_VFS h, .ro, .any⟩, ⟨HP.HP_MODE.COHERENT h, .ro, .any⟩, ⟨HP.HP_MODE.IDE h, .ro, .any⟩] ++
  at1 o 0x14 [⟨HP.HP_LINK.RATE h, .ro, .any⟩, ⟨HP.HP_LINK.WIDTH h, .ro, .any⟩, ⟨HP.HP_LINK.FLIT h, .ro, .any⟩] ++
  at1 o 0x18 [⟨HP.HP_ERR.POISON_SENT h, .ro, .any⟩, ⟨HP.HP_ERR.POISON_RECEIVED h, .ro, .any⟩] ++
  at1 o 0x1c [⟨HP.HP_ERR_CLEAR.CLEAR h, .rw, .any⟩] ++
  at1 o 0x20 [⟨HP.HP_HOLD.WAITING h, .ro, .any⟩] ++
  at1 o 0x24 [⟨HP.HP_HOLD_BUSY.COUNT h, .ro, .any⟩]

/-- Rows of the block page at offset `o`: DMEM register map, 05_host_ports.md R156. -/
def rowsDMEM (o : Nat) : List Row :=
  at1 o 0x20 [⟨DMEM.DMEM_CFG.STACKS, .ro, .any⟩, ⟨DMEM.DMEM_CFG.PCH, .ro, .any⟩, ⟨DMEM.DMEM_CFG.GRANULE, .ro, .any⟩] ++
  at1 o 0x28 [⟨DMEM.DMEM_RANGE.BASE_PAGE, .ro, .any⟩, ⟨DMEM.DMEM_RANGE.REGION_PAGE, .ro, .any⟩] ++
  at1 o 0x30 [⟨DMEM.BW_CFG.P0_WEIGHT, .wd, .range 1 255⟩] ++
  at1 o 0x38 [⟨DMEM.HOLD_CFG.P0_TIMEOUT_US, .rww, .any⟩, ⟨DMEM.HOLD_CFG.SLOTS, .ro, .any⟩] ++
  at1 o 0x40 [⟨DMEM.HOLD_USED.STACK0, .row, .any⟩, ⟨DMEM.HOLD_USED.STACK1, .row, .any⟩] ++
  at1 o 0x48 [⟨DMEM.HOLD_ACQUIRED.COUNT, .row, .any⟩] ++
  at1 o 0x50 [⟨DMEM.HOLD_TIMEOUTS.COUNT, .row, .any⟩] ++
  at1 o 0x58 [⟨DMEM.HOLD_REFUSED.COUNT, .row, .any⟩] ++
  at1 o 0x60 [⟨DMEM.COUNT_CLEAR.CLEAR, .rww, .any⟩] ++
  atN o 0x100 0x20 2 (fun n => [⟨DMEM.STACK_CORRECTED.COUNT n, .row, .any⟩]) ++
  atN o 0x108 0x20 2 (fun n => [⟨DMEM.STACK_UNCORRECTABLE.COUNT n, .row, .any⟩]) ++
  atN o 0x110 0x20 2 (fun n => [⟨DMEM.STACK_ROWS_RETIRED.COUNT n, .row, .any⟩])

/-- Rows of the block page at offset `o`: HAG register map, 05_host_ports.md R157. -/
def rowsHAG (o : Nat) : List Row :=
  at1 o 0x4020 [⟨HAG.HAG_STATUS.ACTIVE, .row, .any⟩, ⟨HAG.HAG_STATUS.PORTS, .row, .any⟩] ++
  at1 o 0x4028 [⟨HAG.SF_CAPACITY.LINES, .ro, .any⟩, ⟨HAG.SF_CAPACITY.WAYS, .ro, .any⟩] ++
  at1 o 0x4030 [⟨HAG.SF_USED.LINES, .row, .any⟩] ++
  at1 o 0x4038 [⟨HAG.ARB_POINTER.PTR, .row, .any⟩] ++
  at1 o 0x4040 [⟨HAG.TRACKERS.TOTAL, .ro, .any⟩, ⟨HAG.TRACKERS.USED, .row, .any⟩] ++
  at1 o 0x4048 [⟨HAG.BISNP_SENT.COUNT, .row, .any⟩] ++
  at1 o 0x4050 [⟨HAG.SF_EVICTIONS.COUNT, .row, .any⟩] ++
  at1 o 0x4058 [⟨HAG.CONFLICTS.COUNT, .row, .any⟩] ++
  at1 o 0x4060 [⟨HAG.MAX_WAIT.TRANSFERS, .row, .any⟩, ⟨HAG.MAX_WAIT.CLEAR, .rww, .any⟩]

/-- Rows of the block page at offset `o`: WQU register map, 06_work_queues.md R194. -/
def rowsWQU (o : Nat) : List Row :=
  at1 o 0x20 [⟨WQU.POLL_CFG.MAX_RATE, .wd, .range 1 256⟩] ++
  at1 o 0x28 [⟨WQU.QSC.ENTRIES, .ro, .any⟩, ⟨WQU.QSC.USED, .row, .any⟩] ++
  at1 o 0x30 [⟨WQU.CTR_CACHE.ENTRIES, .ro, .any⟩, ⟨WQU.CTR_CACHE.USED, .row, .any⟩] ++
  at1 o 0x38 [⟨WQU.TRIG_TABLE.ENTRIES, .ro, .any⟩, ⟨WQU.TRIG_TABLE.USED, .row, .any⟩] ++
  at1 o 0x40 [⟨WQU.PREFETCH.SLOTS, .ro, .any⟩, ⟨WQU.PREFETCH.USED, .row, .any⟩] ++
  at1 o 0x48 [⟨WQU.POLLED.LIMIT, .ro, .any⟩, ⟨WQU.POLLED.COUNT, .row, .any⟩] ++
  at1 o 0x50 [⟨WQU.ENTRIES_STARTED.COUNT, .row, .any⟩] ++
  at1 o 0x58 [⟨WQU.DOORBELLS.COUNT, .row, .any⟩] ++
  at1 o 0x60 [⟨WQU.DOORBELLS_MERGED.COUNT, .row, .any⟩] ++
  at1 o 0x68 [⟨WQU.INDEX_READS.COUNT, .row, .any⟩] ++
  at1 o 0x70 [⟨WQU.PHASE_RETRIES.COUNT, .row, .any⟩] ++
  at1 o 0x78 [⟨WQU.QSC_MISSES.COUNT, .row, .any⟩] ++
  at1 o 0x80 [⟨WQU.CTR_MISSES.COUNT, .row, .any⟩] ++
  at1 o 0x88 [⟨WQU.TRIG_SWEEPS.COUNT, .row, .any⟩] ++
  at1 o 0x90 [⟨WQU.QUEUE_ERRORS.COUNT, .row, .any⟩] ++
  at1 o 0x98 [⟨WQU.UNIT_ABSENT_COMPLETIONS.COUNT, .row, .any⟩] ++
  at1 o 0xa0 [⟨WQU.COUNT_CLEAR.CLEAR, .rww, .any⟩] ++
  atN o 0x10000 0x8 512 (fun n => [⟨WQU.FN_SETS.SETS n, .rww, .any⟩, ⟨WQU.FN_SETS.ACTIVE n, .row, .any⟩])

/-- Rows of the block page at offset `o`: XLU register map, 07_translation.md R218. -/
def rowsXLU (o : Nat) : List Row :=
  at1 o 0x20 [⟨XLU.XLU_CFG.ATS_H, .wd, .any⟩, ⟨XLU.XLU_CFG.PREFETCH, .wd, .any⟩] ++
  at1 o 0x28 [⟨XLU.TLB_CAP.ENTRIES, .ro, .any⟩, ⟨XLU.TLB_CAP.USED, .row, .any⟩] ++
  at1 o 0x30 [⟨XLU.REGIONS.USED, .row, .any⟩] ++
  at1 o 0x38 [⟨XLU.SPACES.USED, .row, .any⟩] ++
  at1 o 0x40 [⟨XLU.TLB_MISSES.COUNT, .row, .any⟩] ++
  at1 o 0x48 [⟨XLU.VICTIM_HITS.COUNT, .row, .any⟩] ++
  at1 o 0x50 [⟨XLU.WALKS.COUNT, .row, .any⟩] ++
  at1 o 0x58 [⟨XLU.SPEC_FILLS.COUNT, .row, .any⟩] ++
  at1 o 0x60 [⟨XLU.WALKS_DISCARDED.COUNT, .row, .any⟩] ++
  at1 o 0x68 [⟨XLU.ATS_REQUESTS.COUNT, .row, .any⟩] ++
  at1 o 0x70 [⟨XLU.ATS_INVALIDATIONS.COUNT, .row, .any⟩] ++
  at1 o 0x78 [⟨XLU.LOCAL_FAULTS.COUNT, .row, .any⟩] ++
  at1 o 0x80 [⟨XLU.REMOTE_FAULTS.COUNT, .row, .any⟩] ++
  at1 o 0x88 [⟨XLU.LAST_FAULT.POLDER, .row, .any⟩, ⟨XLU.LAST_FAULT.REASON, .row, .any⟩, ⟨XLU.LAST_FAULT.REMOTE, .row, .any⟩, ⟨XLU.LAST_FAULT.KEY, .row, .any⟩] ++
  at1 o 0x90 [⟨XLU.LAST_FAULT_VA.VA, .row, .any⟩] ++
  at1 o 0x98 [⟨XLU.CHANNEL_REJECTS.COUNT, .row, .any⟩] ++
  at1 o 0xa0 [⟨XLU.COUNT_CLEAR.CLEAR, .rww, .any⟩]

/-- Rows of the block page at offset `o`: XLU command channel, 07_translation.md R219. -/
def rowsXLUCh (c : Nat) (o : Nat) : List Row :=
  at1 o 0x0 [⟨XLU.X_CMD.OP c, .rw, .any⟩, ⟨XLU.X_CMD.GO c, .rw, .any⟩] ++
  at1 o 0x8 [⟨XLU.X_ARG0.ARG c, .rw, .any⟩] ++
  at1 o 0x10 [⟨XLU.X_ARG1.ARG c, .rw, .any⟩] ++
  at1 o 0x18 [⟨XLU.X_ARG2.ARG c, .rw, .any⟩] ++
  at1 o 0x20 [⟨XLU.X_ARG3.ARG c, .rw, .any⟩] ++
  at1 o 0x28 [⟨XLU.X_STATUS.BUSY c, .ro, .any⟩, ⟨XLU.X_STATUS.DONE c, .w1c, .any⟩, ⟨XLU.X_STATUS.GO_REJECT c, .w1c, .any⟩, ⟨XLU.X_STATUS.CODE c, .ro, .any⟩, ⟨XLU.X_STATUS.DETAIL c, .ro, .any⟩] ++
  at1 o 0x30 [⟨XLU.X_RESULT.VALUE c, .ro, .any⟩] ++
  at1 o 0x38 [⟨XLU.X_DONE_TOKEN.TOKEN c, .ro, .any⟩]

/-- Rows of the block page at offset `o`: TMU register map, 08_matching.md R264. -/
def rowsTMU (o : Nat) : List Row :=
  at1 o 0x20 [⟨TMU.TMU_CFG.RNDV_THRESHOLD, .wd, .range 64 65536⟩, ⟨TMU.TMU_CFG.UX_SHARE_PCT, .wd, .range 1 100⟩, ⟨TMU.TMU_CFG.POST_SHARE_PCT, .wd, .range 1 100⟩, ⟨TMU.TMU_CFG.REHASH_AUTO, .wd, .any⟩] ++
  at1 o 0x28 [⟨TMU.BINS.COUNT, .ro, .any⟩] ++
  at1 o 0x30 [⟨TMU.POSTED.TOTAL, .row, .any⟩, ⟨TMU.POSTED.ONCHIP, .row, .any⟩] ++
  at1 o 0x38 [⟨TMU.UNEXPECTED.DESCRIPTORS, .row, .any⟩, ⟨TMU.UNEXPECTED.GRANULES, .row, .any⟩] ++
  at1 o 0x40 [⟨TMU.WILDCARD.ONCHIP, .row, .any⟩] ++
  at1 o 0x48 [⟨TMU.REHASH_STATUS.ACTIVE, .row, .any⟩, ⟨TMU.REHASH_STATUS.LIVE_TABLE, .row, .any⟩, ⟨TMU.REHASH_STATUS.REMAINING, .row, .any⟩] ++
  at1 o 0x50 [⟨TMU.REHASH_CTRL.GO, .rww, .any⟩] ++
  at1 o 0x58 [⟨TMU.CHAIN_P99.LAST, .row, .any⟩, ⟨TMU.CHAIN_P99.OVER, .row, .any⟩] ++
  at1 o 0x60 [⟨TMU.REHASHES.COUNT, .row, .any⟩] ++
  at1 o 0x68 [⟨TMU.LOOKUPS.COUNT, .row, .any⟩] ++
  at1 o 0x70 [⟨TMU.SPILL_READS.COUNT, .row, .any⟩] ++
  at1 o 0x78 [⟨TMU.RUN_COLLAPSES.COUNT, .row, .any⟩] ++
  at1 o 0x80 [⟨TMU.UX_STORED.COUNT, .row, .any⟩] ++
  at1 o 0x88 [⟨TMU.UX_DEMOTED.COUNT, .row, .any⟩] ++
  at1 o 0x90 [⟨TMU.UX_REFUSED.COUNT, .row, .any⟩] ++
  at1 o 0x98 [⟨TMU.POST_REFUSED.COUNT, .row, .any⟩] ++
  at1 o 0xa0 [⟨TMU.TRUNCATIONS.COUNT, .row, .any⟩] ++
  at1 o 0xa8 [⟨TMU.CANCELS.COUNT, .row, .any⟩] ++
  at1 o 0xb0 [⟨TMU.ECC_RELOADS.COUNT, .row, .any⟩] ++
  at1 o 0xb8 [⟨TMU.LAST_REFUSAL.POLDER, .row, .any⟩, ⟨TMU.LAST_REFUSAL.REASON, .row, .any⟩] ++
  at1 o 0xc0 [⟨TMU.COUNT_CLEAR.CLEAR, .rww, .any⟩]

/-- Rows of the block page at offset `o`: RMA register map, 09_remote_access.md R294. -/
def rowsRMA (o : Nat) : List Row :=
  at1 o 0x8020 [⟨RMA.RMA_CFG.CHUNK_WINDOW, .wd, .range 1 16⟩, ⟨RMA.RMA_CFG.ATOMIC_HOST, .wd, .any⟩] ++
  at1 o 0x8028 [⟨RMA.FLAG_HOLD.CAPACITY, .ro, .any⟩, ⟨RMA.FLAG_HOLD.USED, .row, .any⟩] ++
  at1 o 0x8030 [⟨RMA.NOTIFY_RES.CAPACITY, .ro, .any⟩, ⟨RMA.NOTIFY_RES.USED, .row, .any⟩] ++
  at1 o 0x8038 [⟨RMA.ATOMIC_UNIT.LINES, .ro, .any⟩, ⟨RMA.ATOMIC_UNIT.USED, .row, .any⟩] ++
  at1 o 0x8040 [⟨RMA.PUT_PACKETS.COUNT, .row, .any⟩] ++
  at1 o 0x8048 [⟨RMA.GET_REQUESTS.COUNT, .row, .any⟩] ++
  at1 o 0x8050 [⟨RMA.ATOMICS.COUNT, .row, .any⟩] ++
  at1 o 0x8058 [⟨RMA.FLAG_HELD.COUNT, .row, .any⟩] ++
  at1 o 0x8060 [⟨RMA.FLAG_HOLD_MAX.NS, .row, .any⟩] ++
  at1 o 0x8068 [⟨RMA.RNR_REFUSALS.COUNT, .row, .any⟩] ++
  at1 o 0x8070 [⟨RMA.NOTIFY_NOT_READY.COUNT, .row, .any⟩] ++
  at1 o 0x8078 [⟨RMA.TARGET_REJECTS.COUNT, .row, .any⟩] ++
  at1 o 0x8080 [⟨RMA.LAST_REJECT.POLDER, .row, .any⟩, ⟨RMA.LAST_REJECT.STATUS, .row, .any⟩, ⟨RMA.LAST_REJECT.SRC_FEA, .row, .any⟩] ++
  at1 o 0x8088 [⟨RMA.CHUNKS_OUT.COUNT, .row, .any⟩] ++
  at1 o 0x8090 [⟨RMA.COUNT_CLEAR.CLEAR, .rww, .any⟩]

/-- Rows of the block page at offset `o`: TRU register map, 10_transport.md R333. -/
def rowsTRU (o : Nat) : List Row :=
  at1 o 0x20 [⟨TRU.TRU_CFG.MODE, .ro, .any⟩, ⟨TRU.TRU_CFG.WINDOW_LOG2, .wd, .range 8 12⟩, ⟨TRU.TRU_CFG.ACK_COUNT, .wd, .range 1 64⟩, ⟨TRU.TRU_CFG.ACK_DELAY_NS, .wd, .range 100 4000⟩, ⟨TRU.TRU_CFG.REORDER_SPAN, .wd, .range 3 255⟩] ++
  at1 o 0x28 [⟨TRU.TRU_TIMERS.GAP_TIMEOUT_NS, .wd, .range 500 65535⟩, ⟨TRU.TRU_TIMERS.GBN_RTO_US, .wd, .range 10 10000⟩, ⟨TRU.TRU_TIMERS.RNR_DELAY_US, .wd, .range 1 255⟩, ⟨TRU.TRU_TIMERS.UNREACH_HOLD_MS, .wd, .range 1 4095⟩] ++
  at1 o 0x30 [⟨TRU.RETRY.ATTEMPTS, .ro, .any⟩, ⟨TRU.RETRY.BUDGET_MS, .ro, .any⟩, ⟨TRU.RETRY.RTO_MIN_US, .ro, .any⟩, ⟨TRU.RETRY.RTO_MAX_MS, .ro, .any⟩] ++
  at1 o 0x38 [⟨TRU.CC_CFG.G_SHIFT, .wd, .range 1 7⟩, ⟨TRU.CC_CFG.FR_STAGES, .wd, .range 1 15⟩, ⟨TRU.CC_CFG.HAI_AFTER, .wd, .range 1 15⟩, ⟨TRU.CC_CFG.DEC_INTERVAL_US, .wd, .range 1 255⟩, ⟨TRU.CC_CFG.INC_INTERVAL_US, .wd, .range 1 255⟩] ++
  at1 o 0x40 [⟨TRU.CC_RATES.RATE_MIN_GBPS, .wd, .range 1 4095⟩, ⟨TRU.CC_RATES.RATE_MAX_GBPS, .wd, .range 1 4095⟩, ⟨TRU.CC_RATES.AI_GBPS, .wd, .range 1 255⟩, ⟨TRU.CC_RATES.HAI_GBPS, .wd, .range 1 255⟩] ++
  at1 o 0x48 [⟨TRU.CTX_CACHE.ENTRIES, .ro, .any⟩, ⟨TRU.CTX_CACHE.USED, .row, .any⟩, ⟨TRU.CTX_CACHE.PINNED, .row, .any⟩] ++
  at1 o 0x50 [⟨TRU.CTX_STORE.LIVE, .row, .any⟩, ⟨TRU.CTX_STORE.CAPACITY, .ro, .any⟩] ++
  at1 o 0x58 [⟨TRU.TRACKERS.CAPACITY, .ro, .any⟩, ⟨TRU.TRACKERS.USED, .row, .any⟩] ++
  at1 o 0x60 [⟨TRU.SEND_DESC.CAPACITY, .ro, .any⟩, ⟨TRU.SEND_DESC.USED, .row, .any⟩] ++
  at1 o 0x68 [⟨TRU.REORDER.CAPACITY, .ro, .any⟩, ⟨TRU.REORDER.USED, .row, .any⟩] ++
  at1 o 0x70 [⟨TRU.RECORDS.CAPACITY, .ro, .any⟩, ⟨TRU.RECORDS.USED, .row, .any⟩] ++
  at1 o 0x78 [⟨TRU.CTX_OPENED.COUNT, .row, .any⟩] ++
  at1 o 0x80 [⟨TRU.CTX_MISSES.COUNT, .row, .any⟩] ++
  at1 o 0x88 [⟨TRU.WB_BUFFER_HITS.COUNT, .row, .any⟩] ++
  at1 o 0x90 [⟨TRU.RETRANSMITS.COUNT, .row, .any⟩] ++
  at1 o 0x98 [⟨TRU.TIMEOUTS.COUNT, .row, .any⟩] ++
  at1 o 0xa0 [⟨TRU.FAST_RETRANSMITS.COUNT, .row, .any⟩] ++
  at1 o 0xa8 [⟨TRU.NAKS_SENT.COUNT, .row, .any⟩] ++
  at1 o 0xb0 [⟨TRU.HDR_CRC_FAILURES.COUNT, .row, .any⟩] ++
  at1 o 0xb8 [⟨TRU.DUPLICATES.COUNT, .row, .any⟩] ++
  at1 o 0xc0 [⟨TRU.OUT_OF_WINDOW.COUNT, .row, .any⟩] ++
  at1 o 0xc8 [⟨TRU.RNR_SENT.COUNT, .row, .any⟩] ++
  at1 o 0xd0 [⟨TRU.RNR_RECEIVED.COUNT, .row, .any⟩] ++
  at1 o 0xd8 [⟨TRU.MARKED_RECEIVED.COUNT, .row, .any⟩] ++
  at1 o 0xe0 [⟨TRU.RATE_DECREASES.COUNT, .row, .any⟩] ++
  at1 o 0xe8 [⟨TRU.PEER_UNREACHABLE.COUNT, .row, .any⟩] ++
  at1 o 0xf0 [⟨TRU.CTX_ABORTED.COUNT, .row, .any⟩] ++
  at1 o 0xf8 [⟨TRU.NOCTX_SENT.COUNT, .row, .any⟩] ++
  at1 o 0x100 [⟨TRU.CONTROL_DROPS.COUNT, .row, .any⟩] ++
  at1 o 0x108 [⟨TRU.LAST_END.REMOTE_FEA, .row, .any⟩, ⟨TRU.LAST_END.HOST_PORT, .row, .any⟩, ⟨TRU.LAST_END.REASON, .row, .any⟩, ⟨TRU.LAST_END.LOCAL_INDEX, .row, .any⟩] ++
  at1 o 0x110 [⟨TRU.COUNT_CLEAR.CLEAR, .rww, .any⟩] ++
  at1 o 0x4020 [⟨TRU.CTX_CMD.OP, .rww, .any⟩, ⟨TRU.CTX_CMD.GO, .rww, .any⟩] ++
  at1 o 0x4028 [⟨TRU.CTX_ARG.REMOTE_FEA, .rww, .any⟩, ⟨TRU.CTX_ARG.HOST_PORT, .rww, .any⟩, ⟨TRU.CTX_ARG.INDEX, .rww, .any⟩] ++
  at1 o 0x4030 [⟨TRU.CTX_STATUS.BUSY, .row, .any⟩, ⟨TRU.CTX_STATUS.DONE, .w1c, .any⟩, ⟨TRU.CTX_STATUS.GO_REJECT, .w1c, .any⟩, ⟨TRU.CTX_STATUS.CODE, .row, .any⟩, ⟨TRU.CTX_STATUS.DETAIL, .row, .any⟩] ++
  at1 o 0x4038 [⟨TRU.CTX_RESULT0.STATE, .row, .any⟩, ⟨TRU.CTX_RESULT0.VERSION, .row, .any⟩, ⟨TRU.CTX_RESULT0.CACHED, .row, .any⟩, ⟨TRU.CTX_RESULT0.LOCAL_INDEX, .row, .any⟩] ++
  at1 o 0x4040 [⟨TRU.CTX_RESULT1.REMOTE_INDEX, .row, .any⟩, ⟨TRU.CTX_RESULT1.OUTSTANDING, .row, .any⟩] ++
  at1 o 0x4048 [⟨TRU.CTX_RESULT2.NEXT_SEQ, .row, .any⟩, ⟨TRU.CTX_RESULT2.CUM, .row, .any⟩] ++
  at1 o 0x4050 [⟨TRU.CTX_RESULT3.RATE_MBPS, .row, .any⟩, ⟨TRU.CTX_RESULT3.ALPHA, .row, .any⟩, ⟨TRU.CTX_RESULT3.SRTT_US, .row, .any⟩]

/-- Rows of the block page at offset `o`: QDU register map, 11_collectives.md R371. -/
def rowsQDU (o : Nat) : List Row :=
  at1 o 0x20 [⟨QDU.QDU_CFG.JOIN_TIMEOUT_MS, .wd, .range 100 60000⟩] ++
  at1 o 0x28 [⟨QDU.RECORDS.CAPACITY, .ro, .any⟩, ⟨QDU.RECORDS.USED, .row, .any⟩] ++
  at1 o 0x30 [⟨QDU.SLOTS.TOTAL, .ro, .any⟩, ⟨QDU.SLOTS.RESERVED, .row, .any⟩, ⟨QDU.SLOTS.BORROWED, .row, .any⟩] ++
  at1 o 0x38 [⟨QDU.PENDING_JOINS.CAPACITY, .ro, .any⟩, ⟨QDU.PENDING_JOINS.USED, .row, .any⟩] ++
  at1 o 0x40 [⟨QDU.QDU_STATUS.SERVING_OTHER, .row, .any⟩, ⟨QDU.QDU_STATUS.TAKEN_OVER, .row, .any⟩] ++
  at1 o 0x48 [⟨QDU.OPS_COMPLETED.COUNT, .row, .any⟩] ++
  at1 o 0x50 [⟨QDU.SEGMENTS.COUNT, .row, .any⟩] ++
  at1 o 0x58 [⟨QDU.ELEMENTS.COUNT, .row, .any⟩] ++
  at1 o 0x60 [⟨QDU.RESENDS.COUNT, .row, .any⟩] ++
  at1 o 0x68 [⟨QDU.SLOT_ERRORS.COUNT, .row, .any⟩] ++
  at1 o 0x70 [⟨QDU.CREDIT_WAITS.COUNT, .row, .any⟩] ++
  at1 o 0x78 [⟨QDU.JOIN_REFUSED.COUNT, .row, .any⟩] ++
  at1 o 0x80 [⟨QDU.FAILURES.COUNT, .row, .any⟩] ++
  at1 o 0x88 [⟨QDU.LAST_FAILURE.QID, .row, .any⟩, ⟨QDU.LAST_FAILURE.STATUS, .row, .any⟩, ⟨QDU.LAST_FAILURE.LOCAL, .row, .any⟩] ++
  at1 o 0x90 [⟨QDU.LAST_FAILURE_SRC.FEA, .row, .any⟩, ⟨QDU.LAST_FAILURE_SRC.POLDER, .row, .any⟩] ++
  at1 o 0x98 [⟨QDU.COUNT_CLEAR.CLEAR, .rww, .any⟩]

/-- Rows of the block page at offset `o`: Leaf register map, 11_collectives.md R372. -/
def rowsLEAF (o : Nat) : List Row :=
  at1 o 0xc020 [⟨LEAF.LEAF_CFG.JOIN_TIMEOUT_MS, .wd, .range 100 60000⟩] ++
  at1 o 0xc028 [⟨LEAF.LEAF_RECORDS.CAPACITY, .ro, .any⟩, ⟨LEAF.LEAF_RECORDS.USED, .row, .any⟩] ++
  at1 o 0xc030 [⟨LEAF.LEAF_OPS.COUNT, .row, .any⟩] ++
  at1 o 0xc038 [⟨LEAF.LEAF_FAILURES.COUNT, .row, .any⟩] ++
  at1 o 0xc040 [⟨LEAF.LEAF_COUNT_CLEAR.CLEAR, .rww, .any⟩]

/-- Rows of the block page at offset `o`: RTB register map, 12_routing.md R406. -/
def rowsRTB (o : Nat) : List Row :=
  at1 o 0x20 [⟨RTB.MY_FEA.ROUTER, .rww, .any⟩, ⟨RTB.MY_FEA.GROUP, .rww, .any⟩, ⟨RTB.MY_FEA.VALID, .rww, .any⟩] ++
  at1 o 0x28 [⟨RTB.EPOCH.INJECT, .rww, .any⟩, ⟨RTB.EPOCH.STATE0, .row, .any⟩, ⟨RTB.EPOCH.STATE1, .row, .any⟩] ++
  at1 o 0x30 [⟨RTB.VERSION_CMD.OP, .rww, .any⟩, ⟨RTB.VERSION_CMD.VERSION, .rww, .any⟩, ⟨RTB.VERSION_CMD.GO, .rww, .any⟩] ++
  at1 o 0x38 [⟨RTB.VERSION_STATUS.BUSY, .row, .any⟩, ⟨RTB.VERSION_STATUS.DONE, .w1c, .any⟩, ⟨RTB.VERSION_STATUS.GO_REJECT, .w1c, .any⟩, ⟨RTB.VERSION_STATUS.WRITE_REJECT, .w1c, .any⟩, ⟨RTB.VERSION_STATUS.CODE, .row, .any⟩, ⟨RTB.VERSION_STATUS.DETAIL, .row, .any⟩, ⟨RTB.VERSION_STATUS.INDEX, .row, .any⟩] ++
  at1 o 0x40 [⟨RTB.INJECT_HOLD.HOLD, .rww, .any⟩] ++
  at1 o 0x48 [⟨RTB.ADAPT_CFG.NM_CANDIDATES, .rww, .any⟩, ⟨RTB.ADAPT_CFG.NM_BIAS, .rww, .any⟩, ⟨RTB.ADAPT_CFG.FLOWLET_GAP_NS, .rww, .any⟩] ++
  at1 o 0x50 [⟨RTB.GS_CFG.PERIOD_NS, .rww, .any⟩, ⟨RTB.GS_CFG.STALE_PERIODS, .rww, .any⟩] ++
  at1 o 0x58 [⟨RTB.IMB_CFG.RATIO_X8, .rww, .any⟩, ⟨RTB.IMB_CFG.WINDOWS, .rww, .any⟩, ⟨RTB.IMB_CFG.MIN_UTIL_PCT, .rww, .any⟩, ⟨RTB.IMB_CFG.AUTO, .rww, .any⟩, ⟨RTB.IMB_CFG.WINDOW_US, .ro, .any⟩] ++
  at1 o 0x60 [⟨RTB.SEED.GEN, .row, .any⟩, ⟨RTB.SEED.CUR, .row, .any⟩, ⟨RTB.SEED.RESEED, .rww, .any⟩] ++
  at1 o 0x68 [⟨RTB.IMB_STATUS.OVER, .row, .any⟩, ⟨RTB.IMB_STATUS.BUSIEST_NP, .row, .any⟩, ⟨RTB.IMB_STATUS.LAST_RATIO_X8, .row, .any⟩] ++
  at1 o 0x70 [⟨RTB.SPLIT.SPLIT, .row, .any⟩] ++
  at1 o 0x78 [⟨RTB.HOLD_LIMIT.US, .ro, .any⟩] ++
  at1 o 0x80 [⟨RTB.MIN_CHOSEN.COUNT, .row, .any⟩] ++
  at1 o 0x88 [⟨RTB.NM_CHOSEN.COUNT, .row, .any⟩] ++
  at1 o 0x90 [⟨RTB.DETOURS.COUNT, .row, .any⟩] ++
  at1 o 0x98 [⟨RTB.NO_ROUTE_DROPS.COUNT, .row, .any⟩] ++
  at1 o 0xa0 [⟨RTB.EPOCH_DROPS.COUNT, .row, .any⟩] ++
  at1 o 0xa8 [⟨RTB.HOLD_DROPS.COUNT, .row, .any⟩] ++
  at1 o 0xb0 [⟨RTB.FLOWLETS.COUNT, .row, .any⟩] ++
  at1 o 0xb8 [⟨RTB.RESEEDS.COUNT, .row, .any⟩] ++
  at1 o 0xc0 [⟨RTB.GS_STALE.COUNT, .row, .any⟩] ++
  at1 o 0xc8 [⟨RTB.LAST_DROP.DEST_FEA, .row, .any⟩, ⟨RTB.LAST_DROP.REASON, .row, .any⟩, ⟨RTB.LAST_DROP.HOP_CLASS, .row, .any⟩, ⟨RTB.LAST_DROP.EPOCH, .row, .any⟩, ⟨RTB.LAST_DROP.SRC_FEA, .row, .any⟩] ++
  at1 o 0xd0 [⟨RTB.COUNT_CLEAR.CLEAR, .rww, .any⟩]

/-- Rows of the block page at offset `o`: Group-status view, 12_routing.md R409. -/
def rowsRTBGs (r h : Nat) (o : Nat) : List Row :=
  at1 o 0x0 [⟨RTB.GS_LIVE.GLOBAL_LIVE r h, .row, .any⟩, ⟨RTB.GS_LIVE.LOCAL_LIVE r h, .row, .any⟩] ++
  at1 o 0x8 [⟨RTB.GS_INFO.AGE_NS r h, .row, .any⟩, ⟨RTB.GS_INFO.HALF r h, .row, .any⟩, ⟨RTB.GS_INFO.SEQ r h, .row, .any⟩, ⟨RTB.GS_INFO.VALID r h, .row, .any⟩, ⟨RTB.GS_INFO.STALE r h, .row, .any⟩]

/-- Rows of the block page at offset `o`: SWC register map, 13_switch_core.md R445. -/
def rowsSWC (o : Nat) : List Row :=
  at1 o 0x20 [⟨SWC.SWC_CFG.MODE, .ro, .any⟩, ⟨SWC.SWC_CFG.COL_NETWORK, .ro, .any⟩, ⟨SWC.SWC_CFG.GROUPING, .ro, .any⟩] ++
  at1 o 0x28 [⟨SWC.BASIN.CAPACITY, .ro, .any⟩, ⟨SWC.BASIN.USED, .row, .any⟩] ++
  atN o 0x30 0x8 4 (fun n => [⟨SWC.BASIN_VN.CEILING n, .ro, .any⟩, ⟨SWC.BASIN_VN.USED n, .row, .any⟩]) ++
  at1 o 0x50 [⟨SWC.GRANTS.RESERVED, .row, .any⟩, ⟨SWC.GRANTS.WITHHELD, .row, .any⟩] ++
  at1 o 0x58 [⟨SWC.MIN_STORE.TOTAL, .ro, .any⟩, ⟨SWC.MIN_STORE.USED, .row, .any⟩] ++
  at1 o 0x60 [⟨SWC.OUT_WEIGHT.REQ, .rww, .any⟩, ⟨SWC.OUT_WEIGHT.RSP, .rww, .any⟩, ⟨SWC.OUT_WEIGHT.COL, .rww, .any⟩] ++
  atN o 0x68 0x8 3 (fun n => [⟨SWC.MARK_THRESH.REQ n, .rww, .any⟩, ⟨SWC.MARK_THRESH.RSP n, .rww, .any⟩, ⟨SWC.MARK_THRESH.COL n, .rww, .any⟩]) ++
  atN o 0x80 0x10 9 (fun n => [⟨SWC.RED_TH.MIN_TH n, .rww, .any⟩, ⟨SWC.RED_TH.MAX_TH n, .rww, .any⟩]) ++
  atN o 0x88 0x10 9 (fun n => [⟨SWC.RED_P.MAX_P_X256 n, .rww, .any⟩]) ++
  at1 o 0x110 [⟨SWC.SLUICE_CFG.THROTTLE_ON_PCT, .rww, .any⟩, ⟨SWC.SLUICE_CFG.THROTTLE_OFF_PCT, .rww, .any⟩, ⟨SWC.SLUICE_CFG.THROTTLE_RATE_PCT, .rww, .any⟩] ++
  at1 o 0x118 [⟨SWC.SLUICE_STATUS.THROTTLED, .row, .any⟩, ⟨SWC.SLUICE_STATUS.ACTIVE_SOURCES, .row, .any⟩, ⟨SWC.SLUICE_STATUS.INJ_BUF_USED, .row, .any⟩] ++
  at1 o 0x120 [⟨SWC.ADMITTED.COUNT, .row, .any⟩] ++
  at1 o 0x128 [⟨SWC.CE_MARKED.COUNT, .row, .any⟩] ++
  at1 o 0x130 [⟨SWC.RED_DROPS_GREEN.COUNT, .row, .any⟩] ++
  at1 o 0x138 [⟨SWC.RED_DROPS_YELLOW.COUNT, .row, .any⟩] ++
  at1 o 0x140 [⟨SWC.RED_DROPS_RED.COUNT, .row, .any⟩] ++
  at1 o 0x148 [⟨SWC.FORMAT_DROPS.COUNT, .row, .any⟩] ++
  at1 o 0x150 [⟨SWC.THROTTLE_ONSETS.COUNT, .row, .any⟩] ++
  at1 o 0x158 [⟨SWC.CREDIT_WITHHOLDS.COUNT, .row, .any⟩] ++
  at1 o 0x160 [⟨SWC.LAST_RED_DROP.DEST_FEA, .row, .any⟩, ⟨SWC.LAST_RED_DROP.COLOUR, .row, .any⟩, ⟨SWC.LAST_RED_DROP.VN, .row, .any⟩, ⟨SWC.LAST_RED_DROP.POLDER, .row, .any⟩] ++
  at1 o 0x168 [⟨SWC.COUNT_CLEAR.CLEAR, .rww, .any⟩] ++
  atN o 0x8000 0x8 48 (fun n => [⟨SWC.PORT_STATE.WAITING n, .row, .any⟩, ⟨SWC.PORT_STATE.PRESSURE n, .row, .any⟩, ⟨SWC.PORT_STATE.SHARED_ALLOW n, .ro, .any⟩]) ++
  atN o 0xc000 0x8 96 (fun n => [⟨SWC.VC_MIN.UNITS n, .ro, .any⟩])

/-- Rows of the block page at offset `o`: Sluice entry, 13_switch_core.md R446. -/
def rowsSL (i : Nat) (o : Nat) : List Row :=
  at1 o 0x0 [⟨SL.SL_WEIGHT.WEIGHT i, .rww, .any⟩] ++
  at1 o 0x8 [⟨SL.SHAPE_RATE.MBPS i, .rww, .any⟩] ++
  at1 o 0x10 [⟨SL.SHAPE_BURST.BYTES i, .rww, .any⟩] ++
  at1 o 0x18 [⟨SL.POLICE_CIR.MBPS i, .rww, .any⟩, ⟨SL.POLICE_CIR.ENABLE i, .rww, .any⟩] ++
  at1 o 0x20 [⟨SL.POLICE_CBS.BYTES i, .rww, .any⟩] ++
  at1 o 0x28 [⟨SL.POLICE_PIR.MBPS i, .rww, .any⟩] ++
  at1 o 0x30 [⟨SL.POLICE_PBS.BYTES i, .rww, .any⟩] ++
  at1 o 0x38 [⟨SL.SL_STATE.CREDIT i, .row, .any⟩, ⟨SL.SL_STATE.BACKLOGGED i, .row, .any⟩]

/-- Rows of the block page at offset `o`: LLU register map, 14_link_layer.md R475. -/
def rowsLLU (p : Nat) (o : Nat) : List Row :=
  at1 o 0x20 [⟨LLU.LINK_STATE.STATE p, .row, .any⟩, ⟨LLU.LINK_STATE.LIVE p, .row, .any⟩, ⟨LLU.LINK_STATE.FAIL_REASON p, .row, .any⟩, ⟨LLU.LINK_STATE.VERSION p, .row, .any⟩, ⟨LLU.LINK_STATE.LANES_ACTIVE p, .row, .any⟩, ⟨LLU.LINK_STATE.RATE p, .row, .any⟩, ⟨LLU.LINK_STATE.RESUMED p, .row, .any⟩] ++
  at1 o 0x28 [⟨LLU.PARTNER.FEA p, .row, .any⟩, ⟨LLU.PARTNER.NP p, .row, .any⟩, ⟨LLU.PARTNER.FEA_VALID p, .row, .any⟩, ⟨LLU.PARTNER.ROLE p, .row, .any⟩, ⟨LLU.PARTNER.V p, .row, .any⟩, ⟨LLU.PARTNER.L p, .row, .any⟩] ++
  at1 o 0x30 [⟨LLU.PARTNER_SERIAL_LO.SERIAL p, .row, .any⟩] ++
  at1 o 0x38 [⟨LLU.PARTNER_SERIAL_HI.SERIAL p, .row, .any⟩] ++
  at1 o 0x40 [⟨LLU.RETRAIN_CFG.REPLAY_LIMIT p, .wd, .range 1 15⟩] ++
  at1 o 0x48 [⟨LLU.LINK_TIMERS.SILENCE_NS p, .wd, .any⟩, ⟨LLU.LINK_TIMERS.REPLAY_TIMEOUT_NS p, .wd, .range 500 65535⟩] ++
  at1 o 0x50 [⟨LLU.LINK_CTRL.RETRAIN p, .rww, .any⟩, ⟨LLU.LINK_CTRL.CHANGE_GO p, .rww, .any⟩, ⟨LLU.LINK_CTRL.LANE_MASK_REQ p, .rww, .any⟩, ⟨LLU.LINK_CTRL.RATE_REQ p, .rww, .any⟩, ⟨LLU.LINK_CTRL.RETIRE p, .rww, .any⟩] ++
  at1 o 0x58 [⟨LLU.CHANGE_STATUS.BUSY p, .row, .any⟩, ⟨LLU.CHANGE_STATUS.DONE p, .w1c, .any⟩, ⟨LLU.CHANGE_STATUS.RESULT p, .row, .any⟩] ++
  at1 o 0x60 [⟨LLU.REPLAY.CAPACITY p, .ro, .any⟩, ⟨LLU.REPLAY.OUTSTANDING p, .row, .any⟩, ⟨LLU.REPLAY.LINK_RTT_NS p, .row, .any⟩] ++
  at1 o 0x68 [⟨LLU.FLITS_TX.COUNT p, .row, .any⟩] ++
  at1 o 0x70 [⟨LLU.FLITS_RX.COUNT p, .row, .any⟩] ++
  at1 o 0x78 [⟨LLU.CRC_ERRORS.COUNT p, .row, .any⟩] ++
  at1 o 0x80 [⟨LLU.FLITS_DISCARDED.COUNT p, .row, .any⟩] ++
  at1 o 0x88 [⟨LLU.REPLAYS.COUNT p, .row, .any⟩] ++
  at1 o 0x90 [⟨LLU.REPLAYED_FLITS.COUNT p, .row, .any⟩] ++
  at1 o 0x98 [⟨LLU.REPLAY_TIMEOUTS.COUNT p, .row, .any⟩] ++
  at1 o 0xa0 [⟨LLU.RETRAINS.COUNT p, .row, .any⟩] ++
  at1 o 0xa8 [⟨LLU.RETRAIN_FAILS.COUNT p, .row, .any⟩] ++
  at1 o 0xb0 [⟨LLU.CHANGES.COUNT p, .row, .any⟩] ++
  at1 o 0xb8 [⟨LLU.FILLER_PACKETS.COUNT p, .row, .any⟩] ++
  at1 o 0xc0 [⟨LLU.LAST_RETRAIN.CAUSE p, .row, .any⟩, ⟨LLU.LAST_RETRAIN.DURATION_US p, .row, .any⟩] ++
  at1 o 0xc8 [⟨LLU.RETRAIN_WINDOW.FAILS_60S p, .row, .any⟩, ⟨LLU.RETRAIN_WINDOW.DOWN_MS p, .row, .any⟩] ++
  at1 o 0xd0 [⟨LLU.COUNT_CLEAR.CLEAR p, .rww, .any⟩] ++
  atN o 0x100 0x8 14 (fun n => [⟨LLU.CREDIT.HELD p n, .row, .any⟩, ⟨LLU.CREDIT.TOTAL_RETURNED p n, .row, .any⟩])

/-- Rows of the block page at offset `o`: LNE register map, 15_lanes.md R498. -/
def rowsLNE (l : Nat) (o : Nat) : List Row :=
  at1 o 0x20 [⟨LNE.LNE_CFG.RATE_MAX l, .ro, .any⟩, ⟨LNE.LNE_CFG.REACH l, .ro, .any⟩, ⟨LNE.LNE_CFG.PRECODE l, .ro, .any⟩] ++
  at1 o 0x28 [⟨LNE.LNE_STATE.STATE l, .row, .any⟩, ⟨LNE.LNE_STATE.RATE l, .row, .any⟩, ⟨LNE.LNE_STATE.FAIL_REASON l, .row, .any⟩, ⟨LNE.LNE_STATE.POLARITY_INV l, .row, .any⟩, ⟨LNE.LNE_STATE.RANK_RX l, .row, .any⟩, ⟨LNE.LNE_STATE.PARTNER_LANE l, .row, .any⟩, ⟨LNE.LNE_STATE.PWR_REJECT l, .w1c, .any⟩] ++
  at1 o 0x30 [⟨LNE.TX_EQ.PRE3 l, .row, .any⟩, ⟨LNE.TX_EQ.PRE2 l, .row, .any⟩, ⟨LNE.TX_EQ.PRE1 l, .row, .any⟩, ⟨LNE.TX_EQ.MAIN l, .row, .any⟩, ⟨LNE.TX_EQ.POST1 l, .row, .any⟩] ++
  at1 o 0x38 [⟨LNE.RX_EQ.CTLE l, .row, .any⟩, ⟨LNE.RX_EQ.VGA l, .row, .any⟩, ⟨LNE.RX_EQ.SNR_CDB l, .row, .any⟩] ++
  at1 o 0x40 [⟨LNE.DFE_TAPS.TAP1 l, .row, .any⟩, ⟨LNE.DFE_TAPS.TAP2 l, .row, .any⟩, ⟨LNE.DFE_TAPS.TAP3 l, .row, .any⟩, ⟨LNE.DFE_TAPS.TAP4 l, .row, .any⟩, ⟨LNE.DFE_TAPS.TAP5 l, .row, .any⟩, ⟨LNE.DFE_TAPS.TAP6 l, .row, .any⟩, ⟨LNE.DFE_TAPS.TAP7 l, .row, .any⟩, ⟨LNE.DFE_TAPS.TAP8 l, .row, .any⟩] ++
  at1 o 0x48 [⟨LNE.DFE_FLOAT.POS0 l, .row, .any⟩, ⟨LNE.DFE_FLOAT.POS1 l, .row, .any⟩, ⟨LNE.DFE_FLOAT.POS2 l, .row, .any⟩, ⟨LNE.DFE_FLOAT.POS3 l, .row, .any⟩, ⟨LNE.DFE_FLOAT.VAL0 l, .row, .any⟩, ⟨LNE.DFE_FLOAT.VAL1 l, .row, .any⟩, ⟨LNE.DFE_FLOAT.VAL2 l, .row, .any⟩, ⟨LNE.DFE_FLOAT.VAL3 l, .row, .any⟩] ++
  at1 o 0x50 [⟨LNE.ADAPT_CFG.CONTINUOUS l, .wd, .any⟩] ++
  at1 o 0x58 [⟨LNE.QUAL_CFG.WINDOW_US l, .wd, .range 0 150⟩] ++
  at1 o 0x60 [⟨LNE.LNE_PWR.REQ l, .rww, .any⟩] ++
  at1 o 0x68 [⟨LNE.PRBS_CTRL.REQ l, .rww, .any⟩, ⟨LNE.PRBS_CTRL.PATTERN l, .rww, .any⟩, ⟨LNE.PRBS_CTRL.ALLOW l, .rww, .any⟩] ++
  at1 o 0x70 [⟨LNE.PRBS_STATUS.LOCKED l, .row, .any⟩, ⟨LNE.PRBS_STATUS.REJECTED l, .w1c, .any⟩, ⟨LNE.PRBS_STATUS.NO_PARTNER l, .w1c, .any⟩, ⟨LNE.PRBS_STATUS.RELOCKS l, .row, .any⟩] ++
  at1 o 0x78 [⟨LNE.PRBS_BITS.COUNT l, .row, .any⟩] ++
  at1 o 0x80 [⟨LNE.PRBS_ERRORS.COUNT l, .row, .any⟩] ++
  at1 o 0x88 [⟨LNE.FEC_CODEWORDS.COUNT l, .row, .any⟩] ++
  at1 o 0x90 [⟨LNE.FEC_CORRECTED_CW.COUNT l, .row, .any⟩] ++
  at1 o 0x98 [⟨LNE.FEC_CORRECTED_SYMBOLS.COUNT l, .row, .any⟩] ++
  at1 o 0xa0 [⟨LNE.FEC_UNCORRECTABLE.COUNT l, .row, .any⟩] ++
  at1 o 0xa8 [⟨LNE.LOCK_LOSSES.COUNT l, .row, .any⟩] ++
  at1 o 0xb0 [⟨LNE.TRAININGS.COUNT l, .row, .any⟩] ++
  at1 o 0xb8 [⟨LNE.TRAIN_FAILS.COUNT l, .row, .any⟩] ++
  at1 o 0xc0 [⟨LNE.LAST_TRAIN.DURATION_US l, .row, .any⟩, ⟨LNE.LAST_TRAIN.FULL l, .row, .any⟩] ++
  at1 o 0xc8 [⟨LNE.COUNT_CLEAR.CLEAR l, .rww, .any⟩] ++
  atN o 0x100 0x8 17 (fun n => [⟨LNE.SYM_HIST.COUNT l n, .row, .any⟩])

/-- Rows of the block page at offset `o`: Fault manager register map, 16_faults.md R523. -/
def rowsFM (o : Nat) : List Row :=
  at1 o 0x4020 [⟨FM.FM_STATE.RUNNING, .row, .any⟩, ⟨FM.FM_STATE.SPLIT, .row, .any⟩, ⟨FM.FM_STATE.DIE_A_LOST, .row, .any⟩, ⟨FM.FM_STATE.DIE_B_LOST, .row, .any⟩, ⟨FM.FM_STATE.LOG_WRAPPED, .row, .any⟩, ⟨FM.FM_STATE.BRIDGE_LIVE, .row, .any⟩] ++
  at1 o 0x4028 [⟨FM.RETIRED_COUNTS.LANES, .row, .any⟩, ⟨FM.RETIRED_COUNTS.PORTS, .row, .any⟩, ⟨FM.RETIRED_COUNTS.MODULES, .row, .any⟩, ⟨FM.RETIRED_COUNTS.ENGINES, .row, .any⟩, ⟨FM.RETIRED_COUNTS.BANKS, .row, .any⟩, ⟨FM.RETIRED_COUNTS.QDU, .row, .any⟩, ⟨FM.RETIRED_COUNTS.ROWS, .row, .any⟩] ++
  at1 o 0x4030 [⟨FM.LOG_HEAD.SEQ, .row, .any⟩, ⟨FM.LOG_HEAD.INDEX, .row, .any⟩] ++
  at1 o 0x4038 [⟨FM.VISIBLE_EVENTS.COUNT, .row, .any⟩] ++
  at1 o 0x4040 [⟨FM.FM_CMD.OP, .rww, .any⟩, ⟨FM.FM_CMD.GO, .rww, .any⟩] ++
  at1 o 0x4048 [⟨FM.FM_ARG.CLASS, .rww, .any⟩, ⟨FM.FM_ARG.DIE, .rww, .any⟩, ⟨FM.FM_ARG.INDEX, .rww, .any⟩] ++
  at1 o 0x4050 [⟨FM.FM_STATUS.BUSY, .row, .any⟩, ⟨FM.FM_STATUS.DONE, .w1c, .any⟩, ⟨FM.FM_STATUS.GO_REJECT, .w1c, .any⟩, ⟨FM.FM_STATUS.CODE, .row, .any⟩, ⟨FM.FM_STATUS.DETAIL, .row, .any⟩] ++
  atN o 0x4058 0x8 8 (fun n => [⟨FM.FM_DATA.DATA n, .row, .any⟩]) ++
  atN o 0x40a0 0x8 4 (fun n => [⟨FM.AVAIL.UNAVAIL_MS n, .row, .any⟩, ⟨FM.AVAIL.EVENTS n, .row, .any⟩])

/-- Rows of the block page at offset `o`: PWC register map, 17_power.md R545. -/
def rowsPWC (o : Nat) : List Row :=
  at1 o 0x20 [⟨PWC.PWC_CFG.IDLE_MULT, .wd, .any⟩, ⟨PWC.PWC_CFG.FENCE_TIMEOUT_US, .wd, .any⟩] ++
  at1 o 0x28 [⟨PWC.CORE_VOLTAGE.MV, .row, .any⟩, ⟨PWC.CORE_VOLTAGE.TARGET_MV, .row, .any⟩] ++
  at1 o 0x30 [⟨PWC.WAKES.COUNT, .row, .any⟩] ++
  at1 o 0x38 [⟨PWC.HELD_TRANSACTIONS.COUNT, .row, .any⟩] ++
  at1 o 0x40 [⟨PWC.FENCES.COUNT, .row, .any⟩] ++
  at1 o 0x48 [⟨PWC.FENCE_ABANDONED.COUNT, .row, .any⟩] ++
  at1 o 0x50 [⟨PWC.FENCE_TIMEOUTS.COUNT, .row, .any⟩] ++
  at1 o 0x58 [⟨PWC.LOCKED_OFF_DROPS.COUNT, .row, .any⟩] ++
  at1 o 0x60 [⟨PWC.HOLD_PEAK.UNITS, .row, .any⟩] ++
  at1 o 0x68 [⟨PWC.COUNT_CLEAR.CLEAR, .rww, .any⟩] ++
  atN o 0x4000 0x20 32 (fun n => [⟨PWC.DOM_CFG.MAX_STATE n, .rww, .any⟩, ⟨PWC.DOM_CFG.PIN_GALOP n, .rww, .any⟩]) ++
  atN o 0x4008 0x20 32 (fun n => [⟨PWC.DOM_STATE.STATE n, .row, .any⟩, ⟨PWC.DOM_STATE.FENCING n, .row, .any⟩, ⟨PWC.DOM_STATE.LOCKED_OFF n, .row, .any⟩, ⟨PWC.DOM_STATE.LOCK_REASON n, .row, .any⟩, ⟨PWC.DOM_STATE.HELD n, .row, .any⟩, ⟨PWC.DOM_STATE.IDLE_US n, .row, .any⟩]) ++
  atN o 0x4010 0x20 32 (fun n => [⟨PWC.DOM_WAKES.COUNT n, .row, .any⟩]) ++
  atN o 0x4018 0x20 32 (fun n => [⟨PWC.DOM_ENTRIES.COUNT n, .row, .any⟩]) ++
  atN o 0x8000 0x8 106 (fun n => [⟨PWC.ISLAND.FREQ_MHZ n, .ro, .any⟩, ⟨PWC.ISLAND.GATED n, .row, .any⟩, ⟨PWC.ISLAND.LOCKED n, .row, .any⟩])

/-- Rows of the block page at offset `o`: PCU register map, 18_counters.md R561. -/
def rowsPCU (o : Nat) : List Row :=
  at1 o 0x20 [⟨PCU.PCU_CFG.WINDOW_US, .wd, .range 0 1000000⟩, ⟨PCU.PCU_CFG.GROUPS, .wd, .any⟩, ⟨PCU.PCU_CFG.POLDER_EVERY, .wd, .any⟩] ++
  at1 o 0x28 [⟨PCU.DUMP_BASE.ADDR, .wd, .any⟩] ++
  at1 o 0x30 [⟨PCU.DUMP_SIZE.KIB, .wd, .range 4 65535⟩] ++
  at1 o 0x38 [⟨PCU.DUMP_TARGET.TARGET, .wd, .any⟩, ⟨PCU.DUMP_TARGET.FUNCTION, .wd, .any⟩, ⟨PCU.DUMP_TARGET.HOST_PORT, .wd, .any⟩] ++
  at1 o 0x40 [⟨PCU.DUMP_PROD.OFFSET, .row, .any⟩] ++
  at1 o 0x48 [⟨PCU.DUMP_CONS.OFFSET, .rww, .any⟩] ++
  at1 o 0x50 [⟨PCU.DUMP_STATUS.SEQ, .row, .any⟩, ⟨PCU.DUMP_STATUS.LOST, .row, .any⟩] ++
  at1 o 0x58 [⟨PCU.WINDOW_STATE.NUMBER, .row, .any⟩, ⟨PCU.WINDOW_STATE.PARTIAL, .row, .any⟩] ++
  at1 o 0x60 [⟨PCU.FT_CFG.ROLE, .rww, .any⟩, ⟨PCU.FT_CFG.UPSTREAM_NP, .rww, .any⟩, ⟨PCU.FT_CFG.UPSTREAM_VALID, .rww, .any⟩, ⟨PCU.FT_CFG.ALT_NP, .rww, .any⟩, ⟨PCU.FT_CFG.ALT_VALID, .rww, .any⟩, ⟨PCU.FT_CFG.SYNC_INTERVAL_US, .rww, .any⟩, ⟨PCU.FT_CFG.STEP_THRESHOLD_NS, .rww, .any⟩] ++
  at1 o 0x68 [⟨PCU.FT_NOW.TIME, .ro, .any⟩] ++
  at1 o 0x70 [⟨PCU.FT_SET.TIME, .rww, .any⟩] ++
  at1 o 0x78 [⟨PCU.FT_STATUS.LOCKED, .row, .any⟩, ⟨PCU.FT_STATUS.HOLDOVER, .row, .any⟩, ⟨PCU.FT_STATUS.UNSYNCED, .row, .any⟩, ⟨PCU.FT_STATUS.STEPS_REMOVED, .row, .any⟩, ⟨PCU.FT_STATUS.OFFSET_NS, .row, .any⟩] ++
  at1 o 0x80 [⟨PCU.FT_RATE.ADJ_PPB, .row, .any⟩, ⟨PCU.FT_RATE.DELAY_NS, .row, .any⟩] ++
  at1 o 0x88 [⟨PCU.FT_STEPS.COUNT, .row, .any⟩] ++
  at1 o 0x90 [⟨PCU.FT_EXCHANGES.COUNT, .row, .any⟩, ⟨PCU.FT_EXCHANGES.LOST, .row, .any⟩] ++
  at1 o 0x98 [⟨PCU.PTM_HOST.TIME, .row, .any⟩] ++
  at1 o 0xa0 [⟨PCU.PTM_FT.TIME, .row, .any⟩] ++
  at1 o 0xa8 [⟨PCU.COUNT_CLEAR.CLEAR, .rww, .any⟩] ++
  atN o 0x4000 0x10 16 (fun n => [⟨PCU.EV_CFG.EVENT n, .rww, .any⟩, ⟨PCU.EV_CFG.POLDER n, .rww, .any⟩, ⟨PCU.EV_CFG.FILTER n, .rww, .any⟩]) ++
  atN o 0x4008 0x10 16 (fun n => [⟨PCU.EV_COUNT.COUNT n, .row, .any⟩]) ++
  atN o 0x8000 0x8 192 (fun n => [⟨PCU.PORT_CTR.COUNT n, .row, .any⟩]) ++
  atN o 0x8600 0x8 8 (fun n => [⟨PCU.HP_CTR.COUNT n, .row, .any⟩])

/-- Rows of the block page at offset `o`: Counter pages, 18_counters.md R562. -/
def rowsPCUPc (i : Nat) (o : Nat) : List Row :=
  at1 o 0x0 [⟨PCU.PC_CTRL.VIEW i, .rww, .any⟩] ++
  atN o 0x8 0x8 6 (fun n => [⟨PCU.PC_CTR.COUNT i n, .row, .any⟩])

/-- Rows of the block page at offset `o`: SVC register map, 19_startup.md R585. -/
def rowsSVC (o : Nat) : List Row :=
  at1 o 0x0 [⟨SVC.SVC_ID.FW_VERSION, .ro, .any⟩, ⟨SVC.SVC_ID.ROM_VERSION, .ro, .any⟩] ++
  at1 o 0x8 [⟨SVC.SVC_STATE.PHASE, .row, .any⟩, ⟨SVC.SVC_STATE.BOOT_SLOT, .row, .any⟩, ⟨SVC.SVC_STATE.BOOT_FAIL, .row, .any⟩, ⟨SVC.SVC_STATE.JTAG_REFUSED, .w1c, .any⟩] ++
  at1 o 0x10 [⟨SVC.RESET_CAUSE.COLD, .row, .any⟩, ⟨SVC.RESET_CAUSE.RESET_N, .row, .any⟩, ⟨SVC.RESET_CAUSE.FM_CMD, .row, .any⟩, ⟨SVC.RESET_CAUSE.OOB, .row, .any⟩, ⟨SVC.RESET_CAUSE.I3C, .row, .any⟩, ⟨SVC.RESET_CAUSE.COUNT, .row, .any⟩] ++
  at1 o 0x18 [⟨SVC.ALERT_STATUS.TEMP, .w1c, .any⟩, ⟨SVC.ALERT_STATUS.BOOT, .w1c, .any⟩, ⟨SVC.ALERT_STATUS.FAULT, .w1c, .any⟩, ⟨SVC.ALERT_STATUS.VISIBLE, .w1c, .any⟩] ++
  at1 o 0x20 [⟨SVC.ALERT_MASK.MASK, .rww, .any⟩] ++
  at1 o 0x28 [⟨SVC.TEMP.DIE_A, .row, .any⟩, ⟨SVC.TEMP.DIE_B, .row, .any⟩, ⟨SVC.TEMP.SERVICE, .row, .any⟩, ⟨SVC.TEMP.TEMP_WARN, .rww, .any⟩] ++
  at1 o 0x30 [⟨SVC.MB_CMD.OP, .rww, .any⟩, ⟨SVC.MB_CMD.GO, .rww, .any⟩] ++
  at1 o 0x38 [⟨SVC.MB_ARG0.ARG, .rww, .any⟩] ++
  at1 o 0x40 [⟨SVC.MB_ARG1.ARG, .rww, .any⟩] ++
  at1 o 0x48 [⟨SVC.MB_STATUS.BUSY, .row, .any⟩, ⟨SVC.MB_STATUS.DONE, .w1c, .any⟩, ⟨SVC.MB_STATUS.GO_REJECT, .w1c, .any⟩, ⟨SVC.MB_STATUS.CODE, .row, .any⟩, ⟨SVC.MB_STATUS.DETAIL, .row, .any⟩] ++
  at1 o 0x50 [⟨SVC.MB_RESULT.VALUE, .row, .any⟩] ++
  at1 o 0x58 [⟨SVC.MGT_RX.COUNT, .row, .any⟩] ++
  at1 o 0x60 [⟨SVC.MGT_TX.COUNT, .row, .any⟩] ++
  at1 o 0x68 [⟨SVC.MGT_RX_DROPS.COUNT, .row, .any⟩] ++
  at1 o 0x70 [⟨SVC.MGT_RETRIES.COUNT, .row, .any⟩] ++
  at1 o 0x78 [⟨SVC.OOB_STATE.LINK, .row, .any⟩, ⟨SVC.OOB_STATE.SESSIONS, .row, .any⟩, ⟨SVC.OOB_STATE.REJECTED, .row, .any⟩] ++
  atN o 0x4000 0x8 512 (fun n => [⟨SVC.MB_DATA.DATA n, .rww, .any⟩])

end Sys2Proof.Machine
end

