-- ==== Sys2Proof/Machine/Ops.lean ====
section
/-! DEFINITION. The named operations that every meaning is built from: sparse tables, register fields, values the spec
leaves open, outputs at the pins, and the keys of the work-queue objects. -/

namespace Sys2Proof.Machine

/-! ## Sparse tables in canonical form -/

def tget {α : Type} : Tbl α → Nat → Option α
  | [], _ => none
  | (k, v) :: t, x => if k = x then some v else if x < k then none else tget t x

def tput {α : Type} : Tbl α → Nat → α → Tbl α
  | [], x, v => [(x, v)]
  | (k, w) :: t, x, v => if k = x then (x, v) :: t else if x < k then (x, v) :: (k, w) :: t else (k, w) :: tput t x v

def tdel {α : Type} : Tbl α → Nat → Tbl α
  | [], _ => []
  | (k, w) :: t, x => if k = x then t else if x < k then (k, w) :: t else (k, w) :: tdel t x

/-- Change the value at a key, where there is one. -/
def tmod {α : Type} (t : Tbl α) (x : Nat) (f : α → α) : Tbl α :=
  match tget t x with
  | some v => tput t x (f v)
  | none => t

/-- The keys of `t` rise strictly, and all lie above `lo`. -/
def tblAbove {α : Type} : Nat → Tbl α → Bool
  | _, [] => true
  | lo, (k, _) :: t => decide (lo < k) && tblAbove k t

/-- The keys of a table rise strictly. -/
def tblWf {α : Type} : Tbl α → Bool
  | [] => true
  | (k, _) :: t => tblAbove k t

/-- Store `v` at `x` in a table whose unlisted keys read `dflt`. -/
def tputD (t : Tbl Nat) (x dflt v : Nat) : Tbl Nat :=
  if v = dflt then tdel t x else tput t x v

/-- Tables of numbers, whose unlisted keys read 0. -/
def nget (t : Tbl Nat) (k : Nat) : Nat := (tget t k).getD 0
def nput (t : Tbl Nat) (k v : Nat) : Tbl Nat := tputD t k 0 v
def nadd (t : Tbl Nat) (k n : Nat) : Tbl Nat := nput t k (nget t k + n)

/-- The lowest key of `0 … n - 1` that a table does not list. -/
def freeKey {α : Type} (t : Tbl α) : Nat → Nat → Option Nat
  | 0, _ => none
  | n + 1, k => if (tget t k).isNone then some k else freeKey t n (k + 1)

/-! ## Register fields -/

/-- The key of a field in `regs`: its PF BAR0 offset, then its low bit. -/
def fkey (d : Die) (f : Fld) : Nat := (d.base + f.off) * 64 + f.lo

/-- The value of a register field. -/
def State.rd (s : State) (d : Die) (f : Fld) : Nat := (tget s.regs (fkey d f)).getD f.rst

/-- Give a register field a value, of which its width is kept. A field at its reset value is not listed. -/
def State.wr (s : State) (d : Die) (f : Fld) (v : Nat) : State :=
  { s with regs := tputD s.regs (fkey d f) f.rst (v % 2 ^ f.w) }

/-- Add to a counter field, which saturates (03_register_model.md R85; 04_polders.md R120). -/
def State.bumpBy (s : State) (d : Die) (f : Fld) (n : Nat) : State :=
  s.wr d f (min (s.rd d f + n) (2 ^ f.w - 1))

def State.bump (s : State) (d : Die) (f : Fld) : State := s.bumpBy d f 1

/-- A field raised to at least `n`. -/
def State.atLeast (s : State) (d : Die) (f : Fld) (n : Nat) : State := s.wr d f (max (s.rd d f) n)

/-- A one-bit field reads 1. -/
def State.on (s : State) (d : Die) (f : Fld) : Bool := s.rd d f == 1

/-- Several fields of one die, in order. -/
def State.wrs (s : State) (d : Die) (l : List (Fld × Nat)) : State :=
  l.foldl (fun s p => s.wr d p.1 p.2) s

/-- Zero the fields of a list. -/
def State.zero (s : State) (d : Die) (l : List Fld) : State :=
  l.foldl (fun s f => s.wr d f 0) s

/-! ## Values the spec leaves open, and outputs -/

/-- Draw a value the spec leaves open, and go on with it (log entry 2). -/
def State.draw (s : State) (k : Nat → State → State) : State :=
  k (Config.freeNat s.free) { s with free := s.free + 1 }

/-- Draw a value the spec leaves open. -/
def State.drawNat (s : State) : State × Nat := ({ s with free := s.free + 1 }, Config.freeNat s.free)

/-- Append an output. -/
def State.emit (s : State) (o : Output) : State := { s with out := s.out ++ [o] }

/-- Change one die's private state. -/
def State.modDie (s : State) (d : Die) (f : DieState → DieState) : State :=
  { s with dies := s.dies.set d (f (s.dies.get d)) }

def State.die (s : State) (d : Die) : DieState := s.dies.get d

/-- Add to a PCU counter, which wraps (18_counters.md R547). -/
def State.countBy (s : State) (d : Die) (f : Fld) (n : Nat) : State := s.wr d f (s.rd d f + n)

/-- Count in a host port's counter m: 0 DMA_RD_BYTES, 1 DMA_WR_BYTES, 2 HOST_RD_BYTES, 3 HOST_WR_BYTES (R547). -/
def State.hpCount (s : State) (h : Fin 4) (m n : Nat) : State := s.countBy (hpDie h) (PCU.HP_CTR.COUNT (h.val % 2 * 4 + m)) n

/-- An event of 18_counters.md R548 happens, for a polder where it has one. -/
def State.event (s : State) (d : Die) (e : Nat) (p : Option Nat) : State :=
  (s.die d).evs.foldl (fun s x =>
    if x.2.event = e ∧ (x.2.filter = false ∨ p = none ∨ p = some x.2.polder) then s.countBy d (PCU.EV_COUNT.COUNT x.1) 1 else s) s

/-- The host port structure `h`. -/
def State.hp (s : State) (h : Fin 4) : HostPort := s.hps.get h

def State.modHp (s : State) (h : Fin 4) (f : HostPort → HostPort) : State :=
  { s with hps := s.hps.set h.val (f (s.hps.get h)) }

/-- A function is on link 1 of its port: the secondary function of a bifurcated one (05_host_ports.md R126). -/
def State.onLink1 (s : State) (f : Fn) : Bool := (s.hp f.hp).bifurcated && f.fn.val == 128

/-- The index of a link's registers: the port's first link, or its second (05_host_ports.md R155). -/
def linkIdx (h : Fin 4) (one : Bool) : Nat := 2 * h.val + b2n one

def State.fnLink (s : State) (f : Fn) : Nat := linkIdx f.hp (s.onLink1 f)

/-! ## Parts and units (00_scope.md R1; 03_register_model.md R89) -/

/-- GLB.UNIT_PRESENT of a part. -/
def unitPresent : Part → Nat
  | .f => 0x3FFFFFFF
  | .c => 0x150FFFFF
  | .e => 0x05050F0F

def partNum : Part → Nat
  | .f => 1
  | .c => 2
  | .e => 3

def State.present (s : State) : Nat := unitPresent s.part

/-- Host port `h` is present. -/
def State.hpPresent (s : State) (h : Nat) : Bool := bitOf s.present (16 + h)
def State.qduPresent (s : State) (d : Die) : Bool := bitOf s.present (20 + d.num)
def State.hagPresent (s : State) (d : Die) : Bool := bitOf s.present (22 + d.num)
/-- Stack `k` of a die is present. -/
def State.stackPresent (s : State) (d : Die) (k : Nat) : Bool := bitOf s.present (24 + 2 * d.num + k)

/-- GLB.UNIT_ENABLED: bits [23:0] present and enabled by the running image, bits [29:24] as UNIT_PRESENT (R88). -/
def State.unitEnabled (s : State) : Nat :=
  s.present / 2 ^ 24 * 2 ^ 24 + s.rd .a GLB.UNIT_ENABLED.UNITS % 2 ^ 24

def State.qduEnabled (s : State) (d : Die) : Bool := bitOf s.unitEnabled (20 + d.num)
def State.hagEnabled (s : State) (d : Die) : Bool := bitOf s.unitEnabled (22 + d.num)

/-- Coherence is in force for a host port: CXL mode, its decoder committed, and the HAG of both dies enabled (05_host_ports.md R127, R136). -/
def State.coherent (s : State) (h : Fin 4) : Bool :=
  (s.hp h).cxl && (s.hp h).hdmOn && s.hagEnabled .a && s.hagEnabled .b

/-- A posted write to host memory, with or without Relaxed Ordering (05_host_ports.md R123); on a coherent port an ItoMWr (R128).
`tr`: a Translated request (07_translation.md R207). -/
def State.hwrite (s : State) (f : Fn) (addr : Nat) (relaxed : Bool) (data : List Byte) (tr : Bool := false) : State :=
  (s.hpCount f.hp 1 data.length).emit (if s.coherent f.hp then .itoMWr f addr data
    else if tr then .translatedWrite f addr relaxed data else .hostWrite f addr relaxed data)

/-- A read of host memory is issued; its data return in a later command's operands. On a coherent port it is a RdCurr
(05_host_ports.md R128). -/
def State.hread (s : State) (f : Fn) (addr len : Nat) (tr : Bool := false) : State :=
  (s.hpCount f.hp 0 len).emit (if s.coherent f.hp then .rdCurr f addr len else if tr then .translatedRead f addr len else .hostRead f addr len)

/-- `if` as a step of a chain. -/
def State.when (s : State) (c : Bool) (f : State → State) : State := if c then f s else s

/-! ## Functions and privilege -/

/-- The index of a function within its die: `h * 256 + f` (04_polders.md R121). -/
def fnIdx (f : Fn) : Nat := f.hp.val % 2 * 256 + f.fn.val

def fnDie (f : Fn) : Die := hpDie f.hp

/-- A function is a warden (03_register_model.md R80; 04_polders.md R99). -/
def State.isWarden (s : State) (f : Fn) : Bool := s.on (fnDie f) (DIKE.FN_POLDER.WARDEN (fnIdx f))

/-- The polder a function is bound to: polder 0 for a warden (04_polders.md R99). -/
def State.polderOf (s : State) (f : Fn) : Option Nat :=
  if s.isWarden f then some 0
  else if s.on (fnDie f) (DIKE.FN_POLDER.BOUND (fnIdx f)) then some (s.rd (fnDie f) (DIKE.FN_POLDER.POLDER (fnIdx f)))
  else none

/-- A requester reaches PF BAR0: of the functions, the PFs (03_register_model.md R69, R82), and none while RESET_N is low
(19_startup.md R570). -/
def State.barUp (s : State) : Requester → Bool
  | .fn f => s.svc.resetN && f.fn.val == 0
  | _ => true

/-- A requester has a warden's rights (R80). -/
def State.privileged (s : State) : Requester → Bool
  | .fn f => s.isWarden f
  | _ => true

/-- As `privileged`, for the IMS: while the device waits for a host-delivered image, PF0 of every present host port
acts as a warden for IMS commands (02_structure_image.md R58). -/
def State.imsPrivileged (s : State) : Requester → Bool
  | .fn f => s.isWarden f || (s.ims.hostImage && f.fn.val == 0 && s.hpPresent f.hp.val)
  | _ => true

/-- Requester number of GLB.PRIV_VIOLATION_LAST (R88). -/
def fnNum (f : Fn) : Nat := f.hp.val * 256 + f.fn.val

/-- Count and record a privilege violation (R81). The SVC never makes one. -/
def State.privViolation (s : State) (rq : Requester) (view off : Nat) : State :=
  match rq with
  | .fn f => (s.bump .a GLB.PRIV_VIOLATION_COUNT.COUNT).wrs .a
      [(GLB.PRIV_VIOLATION_LAST.REQUESTER, fnNum f), (GLB.PRIV_VIOLATION_LAST.VIEW, view),
       (GLB.PRIV_VIOLATION_LAST.OFFSET, off)]
  | _ => s

/-! ## Polder tables -/

/-- The entry of a resident polder in a die's table, with its index. -/
def findPolder (t : Tbl Polder) (id : Nat) : Option (Nat × Polder) := t.find? (fun p => p.2.id == id)

def State.polder? (s : State) (d : Die) (id : Nat) : Option (Nat × Polder) := findPolder (s.die d).polders id

/-- Resident and OPEN on a die; polder 0 always is (04_polders.md R98). -/
def State.polderOpen (s : State) (d : Die) (id : Nat) : Bool :=
  id == 0 || match s.polder? d id with
    | some (_, p) => !p.closed
    | none => false

/-- Sluice and counter entry number of a polder on a die: 0 for polder 0, k + 1 for table entry k (R446, R562). -/
def State.polderEnt (s : State) (d : Die) (id : Nat) : Option Nat :=
  if id = 0 then some 0 else (s.polder? d id).map (fun p => p.1 + 1)

/-- Count an event in a polder's counter m (18_counters.md R562), where the polder is resident. -/
def State.polderCount (s : State) (d : Die) (id m n : Nat) : State :=
  match s.polderEnt d id with
  | some i => s.countBy d (PCU.PC_CTR.COUNT i m) n
  | none => s

/-- Record a host event in DIKE.LAST_DROP: REASON, the function, its polder (04_polders.md R120). -/
def State.lastDropHost (s : State) (d : Die) (f : Fn) (polder reason : Nat) : State :=
  s.wrs d [(DIKE.LAST_DROP.POLDER, polder), (DIKE.LAST_DROP.REASON, reason), (DIKE.LAST_DROP.SRC_FEA, fnNum f)]

/-! ## Keys of work-queue objects -/

def setKey (f : Fn) (q : Nat) : Nat := f.id * 128 + q
def qKey (sk k : Nat) : Nat := sk * 8 + k
def ringKey (sk r : Nat) : Nat := sk * 4 + r
def ctrKey (sk c : Nat) : Nat := sk * 16 + c

/-- The function of a set key. -/
def setFn (sk : Nat) : Fn :=
  ⟨⟨sk / 128 / 256 % 4, Nat.mod_lt _ (by decide)⟩, ⟨sk / 128 % 256, Nat.mod_lt _ (by decide)⟩⟩

def setDie (sk : Nat) : Die := fnDie (setFn sk)

/-- FN_SETS.SETS of a function: 128 at reset, 0 for a function of an absent host port (06_work_queues.md R195). -/
def State.fnSets (s : State) (f : Fn) : Nat :=
  if s.hpPresent f.hp.val then s.rd (fnDie f) (WQU.FN_SETS.SETS (fnIdx f)) else 0

/-- Modular difference of 32-bit counts. -/
def sub32 (a b : Nat) : Nat := (a + 2 ^ 32 - b % 2 ^ 32) % 2 ^ 32
def add32 (a b : Nat) : Nat := (a + b) % 2 ^ 32

/-- Microseconds and milliseconds in nanoseconds. -/
def us (n : Nat) : Nat := n * 1000
def ms (n : Nat) : Nat := n * 1000000

/-- One second in nanoseconds. -/
def secNs : Nat := 1000000000

/-- Overwrite element `i` of a list. -/
def listSet {α : Type} (l : List α) (i : Nat) (x : α) : List α := l.set i x

/-- Insert in a sorted list without repeats. -/
def setInsert (l : List Nat) (x : Nat) : List Nat :=
  match l with
  | [] => [x]
  | y :: t => if x = y then y :: t else if x < y then x :: y :: t else y :: setInsert t x

/-- The RETIRED record of a resource (16_faults.md R517). -/
def State.retiredRec (s : State) (cls : Nat) (d : Die) (index : Nat) : Option (Nat × RetRec) :=
  s.fm.table.find? (fun r => r.2.cls == cls && r.2.die == d.num && r.2.index == index && !r.2.cleared)
def State.retired (s : State) (cls : Nat) (d : Die) (index : Nat) : Bool := (s.retiredRec cls d index).isSome

/-- Engines of a die that are brought up and not retired. -/
def State.enginesLeft (s : State) (d : Die) : List Nat :=
  ((List.range 64).map (· + 64 * d.num)).filter (fun n => bitOf s.unitEnabled (n / 8) && !s.retired 5 d n)

/-- Banks of a WQU cache of a die that are in service: cache 0 queue state, 1 counters, 2 prefetch (16_faults.md R509, R517). -/
def State.wquBanks (s : State) (d : Die) (c : Nat) : Nat :=
  16 - (s.fm.table.filter (fun r => r.2.cls == 7 && r.2.die == d.num && r.2.index / 16 == c && !r.2.cleared)).length

/-! ## Status codes (06_work_queues.md R176, R177) -/

def stOK : Nat := 0x00
def stTRUNC : Nat := 0x01
def stFLUSHED : Nat := 0x10
def stLENGTH : Nat := 0x20
def stPROTECTION : Nat := 0x21
def stFORMAT : Nat := 0x22
def stREMOTE_KEY : Nat := 0x30
def stREMOTE_ACCESS : Nat := 0x31
def stREMOTE_RANGE : Nat := 0x32
def stNOT_READY : Nat := 0x33
def stUNREACHABLE : Nat := 0x40
def stABORTED : Nat := 0x41
def stCLOSED : Nat := 0x50
def stTABLE_FULL : Nat := 0x51
def stCANCELLED : Nat := 0x60
def stABSENT : Nat := 0x70
def stIMS_BUSY : Nat := 0x71

/-- The statuses marked Yes in *Status codes*: their completion moves the queue to ERROR. -/
def movesToError (st : Nat) : Bool :=
  [0x20, 0x21, 0x22, 0x30, 0x31, 0x32, 0x40, 0x50].contains st

/-- OK or OK_TRUNCATED. -/
def isOk (st : Nat) : Bool := st ≤ 1

/-! ## Persistent settings (19_startup.md R571, R573) -/

/-- Default value of a setting. -/
def settingDefault (i : Nat) : Nat :=
  if 4 ≤ i ∧ i ≤ 7 then 255 else if 8 ≤ i ∧ i ≤ 11 then 7 else if i = 16 then 1 else if i = 20 then 64
  else if i = 24 then 0x3A else 0

/-- The value of a setting: of the valid copy with the higher generation, or its default. -/
def State.setting (s : State) (i : Nat) : Nat :=
  match tget s.svc.settings i with
  | some ⟨some (g0, v0), some (g1, v1)⟩ => if g0 < g1 then v1 else v0
  | some ⟨some (_, v), none⟩ => v
  | some ⟨none, some (_, v)⟩ => v
  | _ => settingDefault i

end Sys2Proof.Machine
end

