-- ==== Sys2Proof/Machine/Memory.lean ====
section
/-! DEFINITION. Device memory: its addresses, reads and writes at a line's ordering point, the hold engine, and the home
agent (05_host_ports.md R134 to R157), with the window checks of 04_polders.md R109 and R110. -/

namespace Sys2Proof.Machine

/-! ## Addresses (R134) -/

/-- Bytes of one die's device memory. -/
def dieSpan : Part → Nat
  | .f => 0xC00000000
  | _ => 0x600000000

def gib4 : Nat := 0x100000000

/-- The address lies in device memory that is present. -/
def State.memPresent (s : State) (a : Nat) : Bool := a < 2 * dieSpan s.part

/-- The address lies in a die's device region. -/
def State.inRegion (s : State) (a : Nat) : Bool :=
  s.memPresent a && dieSpan s.part - gib4 ≤ a % dieSpan s.part

/-- The die whose stacks hold the address (01_anatomy.md R9). -/
def State.memDie (s : State) (a : Nat) : Die := if a < dieSpan s.part then .a else .b

/-- Base of a die's device region. -/
def State.regionBase (s : State) (d : Die) : Nat := (d.num + 1) * dieSpan s.part - gib4

/-- Software may use every byte of a range: present, and in no device region. -/
def State.usable (s : State) (a n : Nat) : Bool :=
  let e := a + n - 1
  s.memPresent e && !s.inRegion a && !s.inRegion e && s.memDie a == s.memDie e

/-! ## Bytes -/

/-- A byte of device memory; a byte that nothing has written reads 0 (log entry 4). -/
def State.mbyte (s : State) (a : Nat) : Byte := (tget s.mem a).getD 0

/-- Device memory in its canonical form: addresses strictly rising, and no byte listed that reads as an unlisted one does. -/
def Memory.wf (m : Tbl Byte) : Bool := tblWf m && m.all (fun c => c.2 != 0)

def mput (m : Tbl Byte) (a : Nat) (b : Byte) : Tbl Byte := if b = 0 then tdel m a else tput m a b

def State.mread : State → Nat → Nat → List Byte
  | _, _, 0 => []
  | s, a, n + 1 => s.mbyte a :: State.mread s (a + 1) n

/-- A byte of a range is poisoned. -/
def State.mpoison (s : State) (a n : Nat) : Bool := s.poison.any (fun p => a ≤ p && p < a + n)

/-- Store bytes, marking them poisoned or clean (R131). -/
def mwriteBytes : Tbl Byte → Nat → List Byte → Tbl Byte
  | m, _, [] => m
  | m, a, b :: bs => mwriteBytes (mput m a b) (a + 1) bs

def State.mstore (s : State) (a : Nat) (bs : List Byte) (poisoned : Bool) : State :=
  let clean := s.poison.filter (fun p => !(a ≤ p && p < a + bs.length))
  { s with mem := mwriteBytes s.mem a bs,
           poison := if poisoned then (List.range bs.length).foldl (fun l i => setInsert l (a + i)) clean else clean }

/-- The 8-byte word at an address. -/
def State.mword (s : State) (a : Nat) : Nat := leNat (s.mread a 8)

/-! ## The interleave (R137) -/

/-- Element `i` of the permutation of a list that a hash chooses: each step takes one of the elements left. -/
def permAt : List Nat → Nat → Nat → Nat
  | l, h, 0 => l.getD (h % l.length) 0
  | l, h, i + 1 => permAt (l.eraseIdx (h % l.length)) (h / l.length) i

/-- Pseudo-channels of a die. -/
def State.pchCount (s : State) (d : Die) : Nat := if s.stackPresent d 1 then 64 else 32

/-- The pseudo-channel that holds an address: granules of 256 bytes, each aligned block of them spread by the permutation that its
keyed hash chooses. -/
def State.pchOf (s : State) (a : Nat) : Nat :=
  let n := s.pchCount (s.memDie a)
  let g := a % dieSpan s.part / 256
  permAt (List.range n) (Config.blockHash s.memKey (a / (256 * n))) (g % n)

/-- The stack, and its controller: pseudo-channels 0 to 31 belong to stack 0 (log entry 21). -/
def State.stackOf (s : State) (a : Nat) : Nat := if s.stackPresent (s.memDie a) 1 then s.pchOf a / 32 else 0

/-! ## The hold engine (R145 to R150) -/

/-- Owner tag of a function with acquisition count `c` (R147). -/
def ownerTag (f : Fn) (c : Nat) : Nat := 2 ^ 31 + f.hp.val * 2 ^ 29 + f.fn.val * 2 ^ 21 + c % 2 ^ 21

/-- What a busy return holds: bit 63, and the low 32 bits of the word (R146). -/
def busyWord (low : Nat) : Nat := 2 ^ 63 + low % 2 ^ 32

def State.holdReturn (s : State) (f : Fn) (v : Nat) : State := s.emit (.readReturn f (leBytes 8 v) false)

/-- Count a busy return to the function's link (R155). -/
def State.busyReturn (s : State) (f : Fn) (low : Nat) : State :=
  (s.bump .a (HP.HP_HOLD_BUSY.COUNT (s.fnLink f))).holdReturn f (busyWord low)

/-- Acquire a word that is 0 for a function: its tag is written and its read returns 0 (R146). -/
def State.acquire (s : State) (f : Fn) (a : Nat) : State :=
  let c := (tget s.holdCounts f.id).getD 0
  let s := { s with holdCounts := tput s.holdCounts f.id ((c + 1) % 2 ^ 21) }
  ((s.mstore a (leBytes 8 (ownerTag f c)) false).bump (s.memDie a) DMEM.HOLD_ACQUIRED.COUNT).holdReturn f 0

/-- The hold engine takes new acquisitions (R150). -/
def State.holdOn (s : State) (d : Die) : Bool := s.on d (HDR.STATUS.ENABLED 0x3E00000)

/-- Acquire a word that has become 0 for its oldest waiter (R146), unless the block is disabled: its waiters then go on to their
timeouts (R150). -/
def State.holdKick (s : State) (a : Nat) : State :=
  if s.mword a ≠ 0 then s
  else match s.waiters.find? (fun w => w.addr == a) with
    | none => s
    | some w => if s.holdOn (s.memDie a) then ({ s with waiters := s.waiters.erase w }).acquire w.fn a else s

/-- Every 8-byte word that a write of `n` bytes at `a` touches. -/
def wordsOf (a n : Nat) : List Nat :=
  if n = 0 then [] else (List.range ((a + n - 1) / 8 - a / 8 + 1)).map (fun i => (a / 8 + i) * 8)

/-- A write at the ordering point of its line: the bytes are stored, and each held word that is 0 goes to its oldest
waiter in the same operation (R139, R146). -/
def State.mwrite (s : State) (a : Nat) (bs : List Byte) (poisoned : Bool) : State :=
  (wordsOf a bs.length).foldl State.holdKick (s.mstore a bs poisoned)

/-- Waiters of a die. -/
def State.waitersOn (s : State) (d : Die) : Nat := (s.waiters.filter (fun w => s.memDie w.addr == d)).length

/-- Waiters of a die's controller (R150). -/
def State.slotsUsed (s : State) (d : Die) (k : Nat) : Nat :=
  (s.waiters.filter (fun w => s.memDie w.addr == d && s.stackOf w.addr == k)).length

/-- The controller of a word has no free slot: it has 2,048. -/
def State.slotsFull (s : State) (a : Nat) : Bool :=
  decide (2048 ≤ s.waiters.length) && decide (2048 ≤ s.slotsUsed (s.memDie a) (s.stackOf a))

/-- A hold read that passed its checks reaches the engine (R146, R150). -/
def State.holdServe (s : State) (f : Fn) (a deadline : Nat) : State :=
  let d := s.memDie a
  if !s.holdOn d then (s.bump d DMEM.HOLD_REFUSED.COUNT).busyReturn f (s.mword a)
  else if s.mword a = 0 then s.acquire f a
  else if 64 ≤ (s.waiters.filter (fun w => w.addr == a)).length ∨ s.slotsFull a then
    (s.bump d DMEM.HOLD_REFUSED.COUNT).busyReturn f (s.mword a)
  else { s with waiters := s.waiters ++ [⟨a, f, deadline⟩] }

/-- Atomic operations of a host or of a remote put on a word (R123; 09_remote_access.md R279). -/
def atomicResult (k : AtomicKind) (size old a b : Nat) : Nat :=
  let m := 2 ^ (8 * size)
  let neg := fun (x : Nat) => m / 2 ≤ x
  let slt := fun (x y : Nat) => if neg x = neg y then x < y else neg x = true
  match k with
  | .fadd => (old + a) % m
  | .swap => a % m
  | .cas => if old = a % m then b % m else old
  | .smin => if slt (a % m) old then a % m else old
  | .smax => if slt old (a % m) then a % m else old
  | .umin => min (a % m) old
  | .umax => max (a % m) old

/-! ## Device-side accesses (R131, R139, R141) -/

/-- An access writes. A hold read may write, and a recall for it removes every copy (R149). -/
def devWrites (x : DevAccess) : Bool :=
  match x.kind with
  | .read .. => false
  | .touch _ w => w
  | _ => true

def devLine (x : DevAccess) : Nat := x.addr / 64

/-- Bytes that an access moves. -/
def devLen (x : DevAccess) : Nat :=
  match x.kind with
  | .read n _ _ | .touch n _ => n
  | .write l _ => l.length
  | .atomic _ n _ _ => n
  | .hold _ => 8

/-- Those of them in its first line: an access acts line by line, each at its own ordering point (R139). -/
def devPart (x : DevAccess) : Nat := min (devLen x) (64 - x.addr % 64)

/-- A read of a host function completes: with EP set, and counted, where its data were uncorrectable (R131). -/
def State.readDone (s : State) (f : Option Fn) (l : List Byte) (p : Bool) : State :=
  match f with
  | some f => (s.when p (fun s => s.bump .a (HP.HP_ERR.POISON_SENT (s.fnLink f)))).emit (.readReturn f l p)
  | none => s

/-- Perform an access on its first line, at the line's ordering point: the state after it, and what is left of the access. -/
def State.devPerform (s : State) (x : DevAccess) : State × Option DevAccess :=
  let n := devPart x
  let rest := fun k => if n < devLen x then some { x with addr := x.addr + n, kind := k } else none
  match x.kind with
  | .read len got p =>
    let l := got ++ s.mread x.addr n
    let q := p || s.mpoison x.addr n
    let r := rest (.read (len - n) l q)
    (s.when r.isNone (fun s => s.readDone x.fn l q), r)
  | .write bs p => (s.mwrite x.addr (bs.take n) p, rest (.write (bs.drop n) p))
  | .atomic k size a b =>
    let old := leNat (s.mread x.addr size)
    let p := s.mpoison x.addr size
    ((s.readDone x.fn (leBytes size old) p).mwrite x.addr (leBytes size (atomicResult k size old a b)) p, none)
  | .hold t => (match x.fn with | some f => s.holdServe f x.addr t | none => s, none)
  | .touch len w => (s, rest (.touch (len - n) w))

/-- An access to memory whose domain is locked off: a read completes with its data poisoned, a write is discarded, and each is counted
(17_power.md R534). A hold read waits for its timeout (16_faults.md R515). -/
def State.devLost (s : State) (x : DevAccess) : State :=
  let t := s.bump (s.memDie x.addr) PWC.LOCKED_OFF_DROPS.COUNT
  match x.kind with
  | .read len got _ => t.readDone x.fn (got ++ List.replicate len 0) true
  | .atomic _ size _ _ => t.readDone x.fn (List.replicate size 0) true
  | .hold d => (match x.fn with | some f => { s with waiters := s.waiters ++ [⟨x.addr, f, d⟩] } | none => s)
  | .write .. => t
  | .touch .. => s

/-! ## Memory controllers (R138) -/

def dmem0 : Dmem := { waiting := [], kept := [], turn := 0, credit := 0 }

def State.dmem (s : State) (d : Die) (k : Nat) : Dmem := (tget (s.die d).dmem k).getD dmem0

/-- Change a controller; one that has nothing waiting is not listed. -/
def State.setDmem (s : State) (d : Die) (k : Nat) (c : Dmem) : State :=
  s.modDie d (fun x => { x with dmem := if c.waiting.isEmpty && c.kept.isEmpty then tdel x.dmem k else tput x.dmem k c })

/-- The memory of a die answers: its domain is in Galop, and no fence is raised (17_power.md R529). -/
def State.memAwake (s : State) (d : Die) : Bool := s.rd d (PWC.DOM_STATE.STATE 31) == 0 && s.rd d (PWC.DOM_STATE.FENCING 31) == 0

def State.memOff (s : State) (d : Die) : Bool := s.on d (PWC.DOM_STATE.LOCKED_OFF 31)

/-- Weight of a polder at the controllers of a die. -/
def State.bwWeight (s : State) (d : Die) (p : Nat) : Nat :=
  if p = 0 then s.rd d DMEM.BW_CFG.P0_WEIGHT
  else match s.polder? d p with
    | some (_, e) => e.weight
    | none => 16

/-- A requester sends a request, unless it already has 256 outstanding for its polder: it then keeps it in a queue of its own. -/
def Dmem.add (c : Dmem) (r : DmemReq) : Dmem :=
  if 256 ≤ (c.waiting.filter (fun q => q.src == r.src && q.x.polder == r.x.polder)).length then { c with kept := c.kept ++ [r] }
  else { c with waiting := c.waiting ++ [r] }

/-- The polder after `p` in the round, of those that wait: in rising order, and round again. -/
def nextPolder (l : List Nat) (p : Nat) : Nat :=
  match (l.filter (p < ·)).min? with
  | some q => q
  | none => (l.min?).getD p

/-- The polder to serve, and the sectors it has left with this one: the polder whose turn it is while it has some, then the next. -/
def Dmem.turnNow (c : Dmem) (w : Nat → Nat) : Nat × Nat :=
  let ps := c.waiting.map (fun q => q.x.polder)
  if ps.contains c.turn && decide (0 < c.credit) then (c.turn, c.credit)
  else
    let p := nextPolder ps c.turn
    (p, w p)

/-- The request that a controller serves next: by weighted round robin of its waiting polders, in sectors; in arrival order while the
block is disabled (R156). Its requester then sends the oldest that it keeps for that polder. -/
def Dmem.pick (c : Dmem) (weighted : Bool) (w : Nat → Nat) : Option (DmemReq × Dmem) :=
  let t := c.turnNow w
  match (if weighted then c.waiting.find? (fun q => q.x.polder == t.1) else c.waiting.head?) with
  | none => none
  | some q =>
    let left := { c with waiting := c.waiting.erase q, turn := if weighted then t.1 else c.turn, credit := if weighted then t.2 - 1 else c.credit }
    match left.kept.find? (fun k => k.src == q.src && k.x.polder == q.x.polder) with
    | some k => some (q, { left with waiting := left.waiting ++ [k], kept := left.kept.erase k })
    | none => some (q, left)

/-- The requester of an access: a host port, or the device's own units. -/
def devSrc (x : DevAccess) : Nat := match x.fn with | some f => f.hp.val | none => 4

/-! ## The home agent (R151 to R153) -/

def State.hag (s : State) (d : Die) : Hag := (s.die d).hag
def State.modHag (s : State) (d : Die) (f : Hag → Hag) : State := s.modDie d (fun x => { x with hag := f x.hag })

/-- Host ports that hold a line. -/
def sfHolders (e : SfEntry) : List (Fin 4) := e.owner.toList ++ e.sharers

/-- Host ports to back-invalidate before an access: all of them for a write or an ownership request, the owner for a
read; never the requester itself (R152). -/
def recallList (e : SfEntry) (inv : Bool) (except : Option (Fin 4)) : List (Fin 4) :=
  (if inv then sfHolders e else e.owner.toList).filter (fun h => some h != except)

/-- An owner granted less than 200 ns ago is not back-invalidated yet (R153). -/
def dwelling (s : State) (e : SfEntry) (l : List (Fin 4)) : Bool :=
  match e.owner with
  | some h => l.contains h && s.now < e.grantedAt + 200
  | none => false

/-- Send back-invalidation snoops for a line. -/
def State.snoop (s : State) (line : Nat) (l : List (Fin 4)) (inv : Bool) : State :=
  l.foldl (fun s h => (s.emit (.bisnp h line inv)).bump (s.memDie (line * 64)) HAG.BISNP_SENT.COUNT) s

/-- A tracked line has a host copy that an access of the device must recall first. -/
def State.mustRecall (s : State) (a : Nat) (write : Bool) : Bool :=
  match tget (s.hag (s.memDie a)).filter (a / 64) with
  | some e => !(recallList e write none).isEmpty
  | none => false

def trackerNew : Tracker := { reqs := [], snoops := [], inv := false, evictFor := none, dev := [], devTurn := false }

/-- Trackers of a HAG (R153). -/
def hagTrackers : Nat := 1024

/-- The next host port in rotation from the pointer with a request (R153). -/
def arbWinner (reqs : List HagReq) (ptr : Nat) : Option HagReq :=
  let at_ := fun k => reqs.find? (fun r => r.hp.val == (ptr + k) % 4)
  (at_ 0).or ((at_ 1).or ((at_ 2).or (at_ 3)))

/-- Record a grant in the snoop filter. -/
def sfGrant (t : Tbl SfEntry) (line : Nat) (h : Fin 4) (own : Bool) (now : Nat) : Tbl SfEntry :=
  let e := (tget t line).getD ⟨none, [], now, now⟩
  tput t line (if own then ⟨some h, [], now, now⟩ else
    ⟨none, (e.owner.toList ++ e.sharers).filter (· != h) ++ [h], e.grantedAt, now⟩)

/-- Filter entries of a line's set (R151). -/
def sfSetOf (t : Tbl SfEntry) (line : Nat) : List (Nat × SfEntry) :=
  t.filter (fun p => Config.sfSet p.1 % 262144 == Config.sfSet line % 262144)

/-- The set of a line has no room for it. -/
def sfFull (t : Tbl SfEntry) (line : Nat) : Bool := (tget t line).isNone && 16 ≤ (sfSetOf t line).length

/-- The least recently used line of a set. -/
def sfVictim (t : Tbl SfEntry) (line : Nat) : Option (Nat × SfEntry) :=
  match sfSetOf t line with
  | [] => none
  | h :: r => some (r.foldl (fun m p => if p.2.lastUse < m.2.lastUse then p else m) h)

/-- A tracker that has nothing left to do. -/
def trackerIdle (k : Tracker) : Bool := k.reqs.isEmpty && k.snoops.isEmpty && k.dev.isEmpty

/-- Grant a host request: MemData with Cmp-E or Cmp-S (R152). -/
def State.hagGrant (s : State) (line : Nat) (r : HagReq) (k : Tracker) : State :=
  let d := s.memDie (line * 64)
  let s := (s.when (1 < k.reqs.length) (fun s => s.bump d HAG.CONFLICTS.COUNT)).wr d HAG.ARB_POINTER.PTR
    ((s.rd d HAG.ARB_POINTER.PTR + 1) % 4)
  let s := s.atLeast d HAG.MAX_WAIT.TRANSFERS (min r.waited 3)
  let s := s.emit (.memData r.hp line r.own (s.mread (line * 64) 64) (s.mpoison (line * 64) 64))
  s.modHag d (fun h => { h with
    filter := sfGrant h.filter line r.hp r.own s.now,
    trackers := tput h.trackers line { k with
      reqs := (k.reqs.erase r).map (fun x => { x with waited := x.waited + b2n r.own }), devTurn := true } })

/-! ### What is to do: the accesses and requests that can go on -/

/-- A step of the memory system that can be taken. -/
inductive DevWork where
  /-- An access goes to its first line. -/
  | start (x : DevAccess)
  /-- A host request goes to its line (R152). -/
  | request (line : Nat) (r : HagReq)
  /-- The tracker of a line acts. -/
  | line (l : Nat)
  /-- A controller serves a request. -/
  | serve (d : Die) (k : Nat)
  deriving DecidableEq, Repr

/-- An access has acted on all its lines: the function's next ordered one begins (R141). -/
def State.devEnd (s : State) (x : DevAccess) : State × List DevWork :=
  match x.fn, x.ordered with
  | some f, true =>
    let l := ((tget s.hostQ f.id).getD []).tail
    ({ s with hostQ := if l.isEmpty then tdel s.hostQ f.id else tput s.hostQ f.id l }, (l.head?.map DevWork.start).toList)
  | _, _ => (s, [])

/-- Perform an access on its first line, and go on with the rest of it. -/
def State.devAct (s : State) (x : DevAccess) : State × List DevWork :=
  match s.devPerform x with
  | (s, some y) => (s, [.start y])
  | (s, none) => s.devEnd x

/-- An access whose line needs no recall: an access of a host function goes to the line's controller, which serves it at once when it
has nothing else; the device's own are not kept back (log entry 148). -/
def State.devSubmit (s : State) (x : DevAccess) : State × List DevWork :=
  let d := s.memDie x.addr
  if s.memOff d ∧ x.fn.isSome then
    let (t, w) := (s.devLost x).devEnd x
    (t, w)
  else if x.fn = none ∨ ((s.die d).dmem.isEmpty ∧ s.memAwake d = true) then s.devAct x
  else
    let k := s.stackOf x.addr
    (s.setDmem d k ((s.dmem d k).add ⟨devSrc x, x⟩), [.serve d k])

/-- An access comes to its first line: to the line's tracker, when it has one or host copies must be recalled (R152, R153). -/
def State.devStart (s : State) (x : DevAccess) : State × List DevWork :=
  let line := devLine x
  let d := s.memDie x.addr
  match tget (s.hag d).trackers line with
  | some k => (s.modHag d (fun h => { h with trackers := tput h.trackers line { k with dev := k.dev ++ [x] } }), [.line line])
  | none =>
    if !s.mustRecall x.addr (devWrites x) then s.devSubmit x
    else if hagTrackers ≤ (s.hag d).trackers.length then (s.modHag d (fun h => { h with input := h.input ++ [.dev x] }), [])
    else (s.modHag d (fun h => { h with trackers := tput h.trackers line { trackerNew with dev := [x] } }), [.line line])

/-- A host request comes to its line (R152, R153). -/
def State.hagStart (s : State) (line : Nat) (r : HagReq) : State × List DevWork :=
  let d := s.memDie (line * 64)
  match tget (s.hag d).trackers line with
  | some k => (s.modHag d (fun h => { h with trackers := tput h.trackers line { k with reqs := k.reqs ++ [r] } }), [.line line])
  | none =>
    if hagTrackers ≤ (s.hag d).trackers.length then (s.modHag d (fun h => { h with input := h.input ++ [.host line r] }), [])
    else (s.modHag d (fun h => { h with trackers := tput h.trackers line { trackerNew with reqs := [r] } }), [.line line])

/-- What a request that waited for a tracker does now that one is free. -/
def inWork : HagIn → DevWork
  | .host l r => .request l r
  | .dev x => .start x

/-- Free a line's tracker: the oldest request that waits for one, and the grants that wait for room in the filter, go on. -/
def State.hagFree (s : State) (line : Nat) (k : Tracker) : State × List DevWork :=
  let d := s.memDie (line * 64)
  let h := s.hag d
  (s.modHag d (fun h => { h with trackers := tdel h.trackers line, input := h.input.tail, waiting := [] }),
   (k.evictFor.toList ++ h.waiting).map DevWork.line ++ (h.input.head?.map inWork).toList)

/-- A line's grant waits for room in the filter. -/
def State.hagAwait (s : State) (line : Nat) : State × List DevWork :=
  (s.modHag (s.memDie (line * 64)) (fun h => { h with waiting := setInsert h.waiting line }), [])

/-- Make room in a line's set: its least recently used line is back-invalidated, unless that line's tracker or its owner's dwell
stands in the way (R151, R153). -/
def State.hagEvict (s : State) (line : Nat) : State × List DevWork :=
  let d := s.memDie (line * 64)
  match sfVictim (s.hag d).filter line with
  | none => (s, [])
  | some (v, e) =>
    if (tget (s.hag d).trackers v).isSome ∨ dwelling s e (sfHolders e) ∨ hagTrackers ≤ (s.hag d).trackers.length then s.hagAwait line
    else
      let nt := { trackerNew with snoops := sfHolders e, inv := true, evictFor := some line }
      (((s.snoop v (sfHolders e) true).bump d HAG.SF_EVICTIONS.COUNT).modHag d (fun h => { h with trackers := tput h.trackers v nt }), [])

/-- The back-invalidations that a tracker needs before it goes on; within an owner's dwell it waits (R153). -/
def State.hagRecall (s : State) (line : Nat) (k : Tracker) (e : SfEntry) (l : List (Fin 4)) (inv : Bool) : State × List DevWork :=
  if dwelling s e l then (s, [])
  else ((s.snoop line l inv).modHag (s.memDie (line * 64)) (fun h =>
    { h with trackers := tput h.trackers line { k with snoops := l, inv := inv } }), [])

/-- One action of a line's tracker, when no snoop of it is outstanding: a device-side access in its turn, or the host
request that arbitration picks; either is preceded by the back-invalidations it needs. An idle tracker is freed. -/
def State.hagStep (s : State) (line : Nat) : State × List DevWork :=
  let d := s.memDie (line * 64)
  match tget (s.hag d).trackers line with
  | none => (s, [])
  | some k =>
    if !k.snoops.isEmpty then (s, [])
    else if trackerIdle k then s.hagFree line k
    else
      let e := (tget (s.hag d).filter line).getD ⟨none, [], 0, 0⟩
      match k.dev, (k.devTurn || k.reqs.isEmpty) with
      | x :: rest, true =>
        let l := recallList e (devWrites x) none
        if l.isEmpty then
          let (s, w) := (s.modHag d (fun h => { h with trackers := tput h.trackers line { k with dev := rest, devTurn := false } })).devSubmit x
          (s, w ++ [.line line])
        else s.hagRecall line k e l (devWrites x)
      | _, _ =>
        match arbWinner k.reqs (s.rd d HAG.ARB_POINTER.PTR) with
        | none => (s, [])
        | some r =>
          let l := recallList e r.own (some r.hp)
          if !l.isEmpty then s.hagRecall line k e l r.own
          else if sfFull (s.hag d).filter line then s.hagEvict line
          else (s.hagGrant line r k, [.line line])

/-- A controller serves one request, while its memory is awake. -/
def State.dmemServe (s : State) (d : Die) (k : Nat) : State × List DevWork :=
  let c := s.dmem d k
  if s.memOff d then
    match c.waiting ++ c.kept with
    | [] => (s, [])
    | q :: _ =>
      let (s, w) := ((s.setDmem d k { c with waiting := c.waiting.erase q, kept := if c.waiting.isEmpty then c.kept.erase q else c.kept }).devLost q.x).devEnd q.x
      (s, w ++ [.serve d k])
  else if !s.memAwake d then (s, [])
  else match c.pick (s.holdOn d) (s.bwWeight d) with
    | none => (s, [])
    | some (q, c) =>
      let (s, w) := (s.setDmem d k c).devAct q.x
      (s, w ++ [.serve d k])

def State.devDo (s : State) : DevWork → State × List DevWork
  | .start x => s.devStart x
  | .request l r => s.hagStart l r
  | .line l => s.hagStep l
  | .serve d k => s.dmemServe d k

/-- Do what can be done, in order. -/
def State.devRun : Nat → List DevWork → State → State
  | 0, _, s => s
  | _ + 1, [], s => s
  | n + 1, w :: l, s =>
    let (s, more) := s.devDo w
    State.devRun n (more ++ l) s

/-- Lines of an access. -/
def devLines (x : DevAccess) : Nat := devLen x / 64 + 2

/-- What the memory system of a die has in hand. -/
def State.memLoad (s : State) (d : Die) : Nat :=
  let h := s.hag d
  (h.trackers.map (fun t => t.2.reqs.length + (t.2.dev.map devLines).sum + 2)).sum +
  (h.input.map (fun i => match i with | .host .. => 3 | .dev x => devLines x + 2)).sum + h.waiting.length +
  ((s.die d).dmem.map (fun c => ((c.2.waiting ++ c.2.kept).map (fun q => devLines q.x + 2)).sum)).sum

/-- Steps enough for all that can be done. -/
def State.devFuel (s : State) (n : Nat) : Nat :=
  (s.memLoad .a + s.memLoad .b + ((s.hostQ.map (fun q => (q.2.map devLines).sum)).sum) + n + 3) ^ 2

/-- Let the memory system go on from a piece of work, of so many lines. -/
def State.devGo (s : State) (n : Nat) (w : List DevWork) : State := State.devRun (s.devFuel n) w s

/-- Let a line's tracker act as far as it can. -/
def State.hagRun (s : State) (line : Nat) : State := s.devGo 2 [.line line]

/-- A device-side access to memory. -/
def State.devAccess (s : State) (x : DevAccess) : State := s.devGo (devLines x) [.start x]

/-- An access of the device's own, for no host function. -/
def ownAccess (addr : Nat) (k : DevKind) : DevAccess := { fn := none, ordered := false, polder := 0, addr := addr, kind := k }

/-- An access of a host function (R141): an ordered one waits until those before it have acted. -/
def State.hostAccess (s : State) (x : DevAccess) : State :=
  match x.fn, x.ordered with
  | some f, true =>
    let l := (tget s.hostQ f.id).getD []
    let s := { s with hostQ := tput s.hostQ f.id (l ++ [x]) }
    if l.isEmpty then s.devAccess x else s
  | _, _ => s.devAccess x

/-- A host request for a line (R152). -/
def State.hagRequest (s : State) (hp : Fin 4) (line : Nat) (own : Bool) : State := s.devGo 3 [.request line ⟨hp, own, 0⟩]

/-- Remove a host port from a line's filter entry; an entry that names no port is freed. -/
def sfClear (t : Tbl SfEntry) (line : Nat) (h : Fin 4) (share : Bool) : Tbl SfEntry :=
  match tget t line with
  | none => t
  | some e =>
    let own := if e.owner = some h then none else e.owner
    let sh := if e.owner = some h ∧ share then e.sharers ++ [h] else if share then e.sharers else e.sharers.filter (· != h)
    if own.isNone && sh.isEmpty then tdel t line else tput t line { e with owner := own, sharers := sh }

/-- The grants that wait for room in a die's filter try again. -/
def State.hagRetry (s : State) (d : Die) : State :=
  let l := (s.hag d).waiting
  (s.modHag d (fun h => { h with waiting := [] })).devGo (2 * l.length) (l.map DevWork.line)

/-- A back-invalidation response of a host port for a line: the port's copy is gone, or is shared after BISnpData. The
tracker goes on when every snoop is answered (R151, R153). -/
def State.birsp (s : State) (hp : Fin 4) (line : Nat) : State :=
  let d := s.memDie (line * 64)
  match tget (s.hag d).trackers line with
  | none => s
  | some k =>
    if !k.snoops.contains hp then s
    else
      let k' := { k with snoops := k.snoops.erase hp }
      (s.modHag d (fun h => { h with filter := sfClear h.filter line hp (!k.inv), trackers := tput h.trackers line k' })).hagRun line

/-- A writeback is merged at the line's ordering point and clears the writer from the filter (R152). It never waits, so none of the 64
writeback buffers of a port is ever held (R153, R154). -/
def State.writeback (s : State) (hp : Fin 4) (line : Nat) (data : List Byte) (poison : Bool) : State :=
  let d := s.memDie (line * 64)
  let s := (s.mwrite (line * 64) data poison).modHag d (fun h => { h with filter := sfClear h.filter line hp false })
  ((s.emit (.memCmp hp line)).hagRun line).hagRetry d

/-- The memory of a die answers again: its controllers serve what waited. -/
def State.dmemResume (s : State) (d : Die) : State :=
  s.devGo 0 (((s.die d).dmem.map (·.1)).map (DevWork.serve d))

/-! ## Window checks (04_polders.md R106, R109, R110) -/

/-- Rights a host access needs of a window. -/
inductive HostRight where
  | read | write | atomic | hold
  deriving DecidableEq, Repr

def winHas (w : Window) : HostRight → Bool
  | .read => w.hostR
  | .write => w.hostW
  | .atomic => w.hostR && w.hostW
  | .hold => w.hold

def page : Nat := 0x200000

/-- Bytes of a function's BAR2, and of its BAR4 (03_register_model.md R69). -/
def barSpan (f : Fn) : Nat := if f.fn.val = 0 then 2 ^ 37 else 2 ^ 34

/-- The device address that BAR2 offset `o` reaches for `n` bytes with a right, if any (R109): through the lowest-numbered window that
covers the bytes and has the right, which R109 leaves open; an access of a closed polder, which R113 drops, is handled and counted as a
failed check (both log entry 151). Polder 0 reaches all of device memory but the device regions. No offset lies
beyond the function's BAR. -/
def State.barAddr (s : State) (f : Fn) (o n : Nat) (r : HostRight) : Option Nat :=
  if barSpan f < o + n then none
  else match s.polderOf f with
  | none => none
  | some 0 => if s.usable o n then some o else none
  | some id =>
    match s.polder? (fnDie f) id with
    | none => none
    | some (_, p) =>
      if p.closed then none
      else match p.windows.find? (fun w => w.2.pages != 0 && winHas w.2 r &&
          decide (w.2.barPage * page ≤ o) && decide (o + n ≤ (w.2.barPage + w.2.pages) * page)) with
        | some (_, w) => some (w.devPage * page + (o - w.barPage * page))
        | none => none

/-- A host access that fails its window check (R110). -/
def State.windowViolation (s : State) (f : Fn) : State :=
  (s.bump (fnDie f) DIKE.WINDOW_VIOLATIONS.COUNT).lastDropHost (fnDie f) f ((s.polderOf f).getD 0) 8

/-- The window check at the output of translation: the range lies in a window of the polder with right NET (R106).
Polder 0 reaches all of device memory but the device regions. -/
def State.netWindow (s : State) (d : Die) (id a n : Nat) : Bool :=
  if id = 0 then s.usable a n
  else match s.polder? d id with
    | none => false
    | some (_, p) => p.windows.any (fun w => w.2.pages != 0 && w.2.net &&
        decide (w.2.devPage * page ≤ a) && decide (a + n ≤ (w.2.devPage + w.2.pages) * page))

/-- The hold timeout of a function in ns (R148). -/
def State.holdTimeout (s : State) (f : Fn) : Nat :=
  match s.polderOf f with
  | some 0 => us (s.rd (fnDie f) DMEM.HOLD_CFG.P0_TIMEOUT_US)
  | some id => match s.polder? (fnDie f) id with | some (_, p) => us p.holdTimeout | none => us 10
  | none => us 10

end Sys2Proof.Machine
end

