-- ==== Sys2Proof/Machine/HostPorts.lean ====
section
/-! DEFINITION. The commands of the host ports: BAR2 and BAR4 accesses, the hold aperture, CXL.mem and the home agent,
link and power events, SPDM and IDE (05_host_ports.md). -/

namespace Sys2Proof.Machine

/-! ## BAR2 and BAR4 -/

/-- An access of a host function through its window, for its polder. `ro`: Relaxed Ordering or ID-Based Ordering is set (R123, R141). -/
def State.barAccess (s : State) (f : Fn) (ro : Bool) (addr : Nat) (k : DevKind) : State :=
  s.hostAccess { fn := some f, ordered := !ro, polder := (s.polderOf f).getD 0, addr := addr, kind := k }

/-- BAR2_READ (04_polders.md R110; 05_host_ports.md R131): window-checked; a read that fails returns zeros. -/
def execBar2Read (f : Fn) (offset : BitVec 40) (r : BarRead) (s : State) : Host.Outcome State Fault Refusal :=
  .next (match s.barAddr f offset.toNat r.len .read with
    | some a => (s.hpCount f.hp 2 r.len).barAccess f r.ro a (.read r.len [] false)
    | none => (s.windowViolation f).emit (.readReturn f (List.replicate r.len 0) false))

/-- A poisoned write is received at a port: it is counted, and reported as an advisory non-fatal Poisoned TLP Received (R131). -/
def State.poisonIn (s : State) (f : Fn) : State := (s.bump .a (HP.HP_ERR.POISON_RECEIVED (s.fnLink f))).emit (.advisory f)

/-- BAR2_WRITE (04_polders.md R110; 05_host_ports.md R131, R145): a write through BAR2, or through BAR4, which acts as at
the same BAR2 offset. A poisoned write is stored with its data marked poisoned. -/
def execBar2Write (f : Fn) (offset : BitVec 40) (data : List Byte) (w : WriteAttr) (s : State) :
    Host.Outcome State Fault Refusal :=
  .next (match s.barAddr f offset.toNat data.length .write with
    | some a => ((s.when w.poisoned (fun s => s.poisonIn f)).hpCount f.hp 3 data.length).barAccess f w.ro a (.write data w.poisoned)
    | none => s.windowViolation f)

/-- The AtomicOps a host port completes, and their sizes (05_host_ports.md R123). -/
def hostAtomicOk (k : AtomicKind) (size : Nat) : Bool :=
  match k with
  | .fadd | .swap => size == 4 || size == 8
  | .cas => size == 4 || size == 8 || size == 16
  | _ => false

/-- HOST_ATOMICOP (05_host_ports.md R123): FetchAdd, Swap and CAS at the word's ordering point. One that fails its window
check returns zeros and changes nothing. -/
def execHostAtomicop (f : Fn) (offset : BitVec 40) (kind : AtomicKind) (size : Nat) (a b : BitVec 128) (s : State) :
    Host.Outcome State Fault Refusal :=
  .next (if !hostAtomicOk kind size ∨ offset.toNat % size ≠ 0 then s
    else match s.barAddr f offset.toNat size .atomic with
      | some x => s.barAccess f false x (.atomic kind size a.toNat b.toNat)
      | none => (s.windowViolation f).emit (.readReturn f (List.replicate size 0) false))

/-- HOLD_READ (05_host_ports.md R145, R146; 04_polders.md R110): an 8-byte aligned BAR4 read acquires the word, waits, or
returns busy; any other BAR4 read returns busy and is counted. -/
def execHoldRead (f : Fn) (offset : BitVec 40) (len : Nat) (s : State) : Host.Outcome State Fault Refusal :=
  .next (match s.barAddr f offset.toNat (max len 1) .hold with
    | none => (s.windowViolation f).busyReturn f 0
    | some a =>
      if len ≠ 8 ∨ offset.toNat % 8 ≠ 0 then (s.bump (s.memDie a) DMEM.HOLD_REFUSED.COUNT).busyReturn f 0
      else (s.hpCount f.hp 2 8).barAccess f false a (.hold (s.now + s.holdTimeout f)))

/-- The oldest waiter whose deadline has passed. -/
def State.dueWaiter (s : State) : Option Waiter := s.waiters.find? (fun w => w.deadline ≤ s.now)

/-- HOLD_TIMEOUT (05_host_ports.md R146): a waiter at its deadline returns busy with the word's low 32 bits. -/
def execHoldTimeout (f : Fn) (addr : BitVec 40) (s : State) : Host.Outcome State Fault Refusal :=
  .next (match s.waiters.find? (fun w => w.fn == f && w.addr == addr.toNat && decide (w.deadline ≤ s.now)) with
    | none => s
    | some w => (({ s with waiters := s.waiters.erase w }).bump (s.memDie w.addr) DMEM.HOLD_TIMEOUTS.COUNT).busyReturn
        f (s.mword w.addr))

/-- A line was recalled for its waiters less than 1 µs ago (R149). -/
def State.recalledLately (s : State) (line : Nat) : Bool :=
  match tget s.recallAt line with
  | some t => decide (s.now < t + 1000)
  | none => false

/-- HOLD_RECALL_TIMER (05_host_ports.md R149): while a word has waiters, its line is recalled from a host that owns it, every 1 µs. -/
def execHoldRecallTimer (addr : BitVec 40) (s : State) : Host.Outcome State Fault Refusal :=
  let line := addr.toNat / 64
  let d := s.memDie addr.toNat
  .next (match tget (s.hag d).filter line with
    | none => s
    | some e =>
      if !s.waiters.any (fun w => w.addr / 64 == line) ∨ s.recalledLately line = true ∨ e.owner.isNone ∨
          (tget (s.hag d).trackers line).isSome ∨ dwelling s e e.owner.toList ∨ hagTrackers ≤ (s.hag d).trackers.length then s
      else
        let s := { s with recallAt := tput s.recallAt line s.now }
        (s.snoop line e.owner.toList true).modHag d (fun h => { h with
          trackers := tput h.trackers line { trackerNew with snoops := e.owner.toList, inv := true } }))

/-! ## CXL.mem -/

/-- HDM_COMMIT (05_host_ports.md R136): the decoder commits only while the port's PF is a warden; where R127 advertises
HDM-DB, coherence is then in force. -/
def execHdmCommit (h : Fin 4) (s : State) : Host.Outcome State Fault Refusal :=
  .next (if !(s.hp h).cxl then s
    else if s.isWarden ⟨h, 0⟩ then
      let s := s.modHp h (fun p => { p with hdmOn := true, hdmErr := false })
      if s.coherent h then
        [Die.a, Die.b].foldl (fun s d => (s.wr d HAG.HAG_STATUS.ACTIVE 1).wr d HAG.HAG_STATUS.PORTS
          (s.rd d HAG.HAG_STATUS.PORTS ||| 2 ^ h.val)) (s.wr .a (HP.HP_MODE.COHERENT (linkIdx h false)) 1)
      else s
    else s.modHp h (fun p => { p with hdmErr := true }))

/-- Device address of an HDM address (05_host_ports.md R136): usable memory of die A, then of die B. -/
def State.hdmAddr (s : State) (a : Nat) : Nat := if a < dieSpan s.part - gib4 then a else a + gib4

/-- HDM_ACCESS (05_host_ports.md R136): a CXL.mem read or write through the decoder, with the rights of polder 0. One that tries for
memory beyond what software may use fails its check under 04_polders.md R110 (R135): a read returns zeros, a write is ignored. -/
def execHdmAccess (h : Fin 4) (addr : BitVec 40) (write : Option BusData) (len : Nat) (s : State) :
    Host.Outcome State Fault Refusal :=
  let a := s.hdmAddr addr.toNat
  let n := match write with | some w => w.bytes.length | none => len
  let x : DevAccess := { fn := some ⟨h, 0⟩, ordered := false, polder := 0, addr := a, kind := .read len [] false }
  .next (if !(s.hp h).hdmOn then s
    else if !s.usable a n then
      (s.windowViolation ⟨h, 0⟩).when write.isNone (fun s => s.emit (.readReturn ⟨h, 0⟩ (List.replicate len 0) false))
    else match write with
      | some w => (s.when w.poisoned (fun s => s.poisonIn ⟨h, 0⟩)).hostAccess { x with kind := .write w.bytes w.poisoned }
      | none => s.hostAccess x)

/-- A host message to the home agent about the line of an HDM address acts only where coherence is in force. -/
def State.cxlLine (s : State) (h : Fin 4) (addr : BitVec 40) (act : Nat → State → State) : State :=
  let a := s.hdmAddr (addr.toNat / 64 * 64)
  if s.coherent h && s.usable a 64 then act (a / 64) s else s

/-- MEMRD_SHARED (05_host_ports.md R152). -/
def execMemrdShared (h : Fin 4) (addr : BitVec 40) (s : State) : Host.Outcome State Fault Refusal :=
  .next (s.cxlLine h addr (fun l s => s.hagRequest h l false))

/-- MEMRD_OWNERSHIP (05_host_ports.md R152, R153). -/
def execMemrdOwnership (h : Fin 4) (addr : BitVec 40) (s : State) : Host.Outcome State Fault Refusal :=
  .next (s.cxlLine h addr (fun l s => s.hagRequest h l true))

/-- MEMWR_WRITEBACK (05_host_ports.md R131, R152, R153): always accepted. -/
def execMemwrWriteback (h : Fin 4) (addr : BitVec 40) (w : LineData) (s : State) :
    Host.Outcome State Fault Refusal :=
  .next (s.cxlLine h addr (fun l s => (s.when w.poisoned (fun s => s.poisonIn ⟨h, 0⟩)).writeback h l (leBytes 64 w.data.toNat) w.poisoned))

/-- BIRSP (05_host_ports.md R151, R153). -/
def execBirsp (h : Fin 4) (addr : BitVec 40) (s : State) : Host.Outcome State Fault Refusal :=
  .next (s.cxlLine h addr (fun l s => s.birsp h l))

/-- HAG_DWELL_EXPIRY (05_host_ports.md R151, R153): 200 ns after a grant the line's tracker may recall the new owner, and a line that
waits for room in the filter may take its place. -/
def execHagDwellExpiry (addr : BitVec 40) (s : State) : Host.Outcome State Fault Refusal :=
  .next ((s.hagRun (addr.toNat / 64)).hagRetry (s.memDie addr.toNat))

/-! ## Functions and links -/

/-- NUMVFS_WRITE (05_host_ports.md R125, R126): the number of enabled VFs; above TotalVFs the write is ignored. -/
def execNumvfsWrite (h : Fin 4) (n : BitVec 16) (s : State) : Host.Outcome State Fault Refusal :=
  let p := s.hp h
  let cap := if p.bifurcated then min p.totalVfs 127 else p.totalVfs
  .next (if s.hpPresent h.val ∧ n.toNat ≤ cap then s.modHp h (fun p => { p with numVfs := n.toNat }) else s)

/-- A link of a port: link 1 exists on a bifurcated port only (R126). -/
def portLink (p : HostPort) (one : Bool) : HostLink := if one then p.link1 else p.link0

def setPortLink (p : HostPort) (one : Bool) (l : HostLink) : HostPort :=
  if one then { p with link1 := l } else { p with link0 := l }

def linkDown : HostLink := { up := false, training := false, l1 := false, rate := 0, width := 0, flit := false }

/-- The link of a function is up, and the function's root (the PF or the secondary function) is enabled. -/
def State.fnLinkUp (s : State) (f : Fn) : Bool :=
  let p := s.hp f.hp
  if s.onLink1 f then p.link1.up && p.secOn else p.link0.up && p.pfOn

/-- The rate at which a link of a port comes up: at HP_MAX_RATE at most, and in CXL mode at 64 GT/s at most (R122; 19_startup.md R571).
Rates are 1 to 7 for 2.5 to 128 GT/s (R155). -/
def linkRate (p : HostPort) (rate : Nat) : Nat := min (min rate p.maxRate) (if p.cxl then 6 else 7)

/-- Flit mode: at 64 and 128 GT/s (R122, R123). -/
def flitMode (rate : Nat) : Bool := decide (6 ≤ rate)

/-- A port's mode has a rate, a width, and flit mode or not (R122, R123). -/
def linkModeOk (p : HostPort) (rate width : Nat) (flit : Bool) : Bool :=
  decide ((if p.cxl then 5 else 1) ≤ rate) && flit == flitMode rate &&
  (if p.cxl then [16, 8, 4] else if p.bifurcated then [8, 4, 2, 1] else [16, 8, 4, 2, 1]).contains width

/-- Bits of a tag, as requester and as completer (R123). -/
def tagBits (l : HostLink) : Nat := if l.flit then 14 else 10

/-- A lost host port presents configuration space again: the time it was gone counts (16_faults.md R520, R521). -/
def State.portBack (s : State) (h : Fin 4) : State :=
  match tget s.fm.down h.val with
  | none => s
  | some t =>
    let s := s.wr .a (FM.AVAIL.UNAVAIL_MS h.val) (min (2 ^ 32 - 1) (s.rd .a (FM.AVAIL.UNAVAIL_MS h.val) + (s.now - t) / 1000000))
    { s with fm := { s.fm with down := tdel s.fm.down h.val } }

/-- HOST_LINK_UP (R122; 19_startup.md R566, R571): a link finishes training and comes up, in a mode that the port has; the endpoint
passes test 1 of 04_polders.md R107. -/
def execHostLinkUp (h : Fin 4) (one : Bool) (rate : Fin 8) (width : Fin 17) (flit : Bool) (s : State) :
    Host.Outcome State Fault Refusal :=
  let p := s.hp h
  let r := linkRate p rate.val
  .next (if !s.hpPresent h.val ∨ p.perst ∨ p.lost ∨ (one ∧ !p.bifurcated) ∨ s.now < p.trainAt ∨
        !(portLink p one).training ∨ !linkModeOk p r width.val flit then s
    else (s.modHp h (fun p =>
      let l : HostLink := { linkDown with up := true, rate := r, width := width.val, flit := flit }
      let p := setPortLink p one l
      if one then { p with secOn := true } else { p with pfOn := true })).portBack h)

/-- HOST_LINK_DOWN (05_host_ports.md R126): only its own link is affected, and it trains again. Bindings stay (04_polders.md R101). -/
def execHostLinkDown (h : Fin 4) (one : Bool) (s : State) : Host.Outcome State Fault Refusal :=
  .next (if one ∧ !(s.hp h).bifurcated then s else s.modHp h (fun p =>
    let p := setPortLink p one { linkDown with training := !p.perst && !p.lost && ((portLink p one).up || (portLink p one).training) }
    if one then { p with secOn := false } else { p with pfOn := false }))

/-! ## SPDM and IDE (R132, R133) -/

/-- The out-of-band port answers: enabled, and with block lock (19_startup.md R571, R580). -/
def State.oobUp (s : State) : Bool := s.svc.pwrgood && s.setting 16 == 1 && s.on .a SVC.OOB_STATE.LINK

/-- The responder of a port: the PF, or the secondary function. -/
def responder (p : HostPort) (sec : Bool) : Responder := if sec then p.resp1 else p.resp0

def setResponder (p : HostPort) (sec : Bool) (r : Responder) : HostPort :=
  if sec then { p with resp1 := r } else { p with resp0 := r }

def responderNew : Responder := { version := false, caps := false, algs := false, challenged := false, sessions := [] }

/-- Answer an SPDM request: the responder's next state and the response, where the port and the responder exist. The out-of-band port
has a responder of its own while it is enabled and has block lock (19_startup.md R581). -/
def State.spdm (s : State) (w : RespPort) (ans : Responder → Responder × SpdmAnswer) : State :=
  match w with
  | .port h sec =>
    let p := s.hp h
    if !s.hpPresent h.val ∨ (sec ∧ !p.bifurcated) then s
    else
      let (r, a) := ans (responder p sec)
      (s.modHp h (fun p => setResponder p sec r)).emit (.spdm w a)
  | .oob =>
    if !s.oobUp then s
    else
      let (r, a) := ans s.svc.oob
      ({ s with svc := { s.svc with oob := r } }.wr .a SVC.OOB_STATE.SESSIONS (r.sessions.filter (fun (x : SpdmSession) => x.finished)).length).emit (.spdm w a)

/-- An attempt to open a session at the out-of-band port is refused (R585). -/
def State.oobReject (s : State) (w : RespPort) (bad : Bool) : State :=
  s.when (w == .oob && s.oobUp && bad) (fun s => s.bump .a SVC.OOB_STATE.REJECTED)

/-- A request out of its order is answered with an error (the order is SPDM 1.3's; log entry 9). -/
def spdmNeed (ok : Bool) (r : Responder) (good : Responder × SpdmAnswer) : Responder × SpdmAnswer :=
  if ok then good else (r, .unexpected)

def execGetVersion (w : RespPort) (s : State) : Host.Outcome State Fault Refusal :=
  .next (s.spdm w (fun r => ({ responderNew with version := true, sessions := r.sessions }, .version)))

def execGetCapabilities (w : RespPort) (s : State) : Host.Outcome State Fault Refusal :=
  .next (s.spdm w (fun r => spdmNeed r.version r ({ r with caps := true }, .capabilities)))

def execNegotiateAlgorithms (w : RespPort) (s : State) : Host.Outcome State Fault Refusal :=
  .next (s.spdm w (fun r => spdmNeed r.caps r ({ r with algs := true }, .algorithms)))

def execGetDigests (w : RespPort) (s : State) : Host.Outcome State Fault Refusal :=
  .next (s.spdm w (fun r => spdmNeed r.algs r (r, .digests (Config.certificate 0) (Config.certificate 1))))

def execGetCertificate (w : RespPort) (slot : Fin 2) (s : State) : Host.Outcome State Fault Refusal :=
  .next (s.spdm w (fun r => spdmNeed r.algs r (r, .certificate slot.val (Config.certificate slot.val))))

def execChallenge (w : RespPort) (nonce : BitVec 256) (s : State) : Host.Outcome State Fault Refusal :=
  .next (s.spdm w (fun r => spdmNeed r.algs r ({ r with challenged := true },
    .signed (Config.deviceSign (sha384 (leBytes 32 nonce.toNat))))))

/-- Measurement `n` of R132. -/
def State.measure (s : State) (n : Nat) : BitVec 384 :=
  match n with
  | 3 => match s.running with | some r => r.meas3 | none => 0
  | 4 => match s.running with | some r => r.meas4 | none => 0
  | 5 => BitVec.ofNat 384 (s.rd .a IMS.KEY_STATUS.ENROLLED + s.rd .a IMS.KEY_STATUS.MIN_SECURITY_EPOCH * 2 ^ 16)
  | 6 => BitVec.ofNat 384 (0x101 + partNum s.part * 2 ^ 16 + s.stepping * 2 ^ 20 + s.unitEnabled * 2 ^ 64)
  | _ => Config.measurement n

def execGetMeasurements (w : RespPort) (s : State) : Host.Outcome State Fault Refusal :=
  .next (s.spdm w (fun r => spdmNeed r.algs r (r, .measurements ([1, 2, 3, 4, 5, 6].map s.measure))))

/-- KEY_EXCHANGE (R132; 19_startup.md R581): opens a session, of which a responder has four. -/
def execKeyExchange (w : RespPort) (id : W32) (s : State) : Host.Outcome State Fault Refusal :=
  .next ((s.oobReject w (decide (4 ≤ s.svc.oob.sessions.length))).spdm w (fun r =>
    spdmNeed (r.algs && r.sessions.all (fun x => x.id != id.toNat)) r
      (if 4 ≤ r.sessions.length then (r, .sessionLimit)
       else ({ r with sessions := r.sessions ++ [⟨id.toNat, false, 0⟩] }, .keyExchange id.toNat))))

/-- A request on an open session; `fin`: the session's establishment must be complete. -/
def spdmSession (r : Responder) (id : Nat) (fin : Bool) (f : SpdmSession → List SpdmSession) (a : SpdmAnswer) :
    Responder × SpdmAnswer :=
  match r.sessions.find? (fun x => x.id == id) with
  | some x => if x.finished = fin then
      ({ r with sessions := r.sessions.flatMap (fun y => if y.id = id then f y else [y]) }, a) else (r, .unexpected)
  | none => (r, .unexpected)

/-- FINISH (R132; 19_startup.md R581). `x` and `y` are the key in which the requester's chain ends: at the out-of-band port it is an
enrolled owner key, or the session is refused. -/
def execFinish (w : RespPort) (id : W32) (x y : BitVec 384) (s : State) : Host.Outcome State Fault Refusal :=
  let trusted := s.store.keys.contains (some { x := x, y := y })
  .next (if w = .oob ∧ !trusted then
      (s.oobReject w true).spdm w (fun r => spdmSession r id.toNat false (fun _ => []) .unexpected)
    else s.spdm w (fun r => spdmSession r id.toNat false (fun x => [{ x with finished := true }]) (.ack 0xE5)))

def execHeartbeat (w : RespPort) (id : W32) (s : State) : Host.Outcome State Fault Refusal :=
  .next (s.spdm w (fun r => spdmSession r id.toNat true (fun x => [x]) (.ack 0xE8)))

def execKeyUpdate (w : RespPort) (id : W32) (s : State) : Host.Outcome State Fault Refusal :=
  .next (s.spdm w (fun r => spdmSession r id.toNat true (fun x => [{ x with updates := x.updates + 1 }]) (.ack 0xE9)))

def execEndSession (w : RespPort) (id : W32) (s : State) : Host.Outcome State Fault Refusal :=
  .next (s.spdm w (fun r => spdmSession r id.toNat true (fun _ => []) (.ack 0xEC)))

/-- IDE_KM (05_host_ports.md R133): keys of the link stream (0) or of a selective stream (1 to 4) of the responder's link,
over a secured session; on UX9128-F and UX9128-C in PCIe mode. The new keys take over at once: a refresh never stops traffic. What IDE
makes of the link's TLPs is seen only on the link (log entry 152). -/
def execIdeKm (h : Fin 4) (sec : Bool) (id : W32) (k : IdeKey) (s : State) : Host.Outcome State Fault Refusal :=
  let p := s.hp h
  let ok := s.part != .e && !p.cxl && s.hpPresent h.val && (!sec || p.bifurcated) &&
    (responder p sec).sessions.any (fun x => x.id == id.toNat && x.finished)
  let l := b2n sec
  let gen := match p.ide.find? (fun x => x.link == l && x.stream == k.stream.val) with | some x => x.gen | none => 0
  .next (if ok then
      (s.modHp h (fun p => { p with ide := p.ide.filter (fun x => !(x.link == l && x.stream == k.stream.val)) ++
        [⟨l, k.stream.val, gen + 1, k.key⟩] })).emit (.spdm (.port h sec) (.ideKm k.stream.val (gen + 1)))
    else s)

end Sys2Proof.Machine
end

