-- ==== Sys2Proof/Machine/Operands.lean ====
section
/-! DEFINITION. The fields of a work entry in each of its forms, and which entries are malformed (06_work_queues.md R164,
R165; 08_matching.md R226 to R229; 09_remote_access.md R265 to R269; 11_collectives.md R343 to R345). -/

namespace Sys2Proof.Machine

/-- Bits `lo` to `lo + w - 1` of a slot. -/
def ef (e : BitVec 512) (lo w : Nat) : Nat := e.toNat / 2 ^ lo % 2 ^ w

/-- Bit `i` of a slot. -/
def eb (e : BitVec 512) (i : Nat) : Bool := ef e i 1 == 1

/-! ## The first 16 bytes (R164) -/

def eOpcode (e : BitVec 512) : Nat := ef e 0 8
def eExt (e : BitVec 512) : Bool := eb e 8
def eSeal (e : BitVec 512) : Bool := eb e 9
def eCqe (e : BitVec 512) : Bool := eb e 10
def eFence (e : BitVec 512) : Bool := eb e 11
def eCtrEn (e : BitVec 512) : Bool := eb e 14
def ePhase (e : BitVec 512) : Bool := eb e 15
def eCtr (e : BitVec 512) : Nat := ef e 16 4
def eTrig (e : BitVec 512) : Nat := ef e 20 4
def eWorkId (e : BitVec 512) : Nat := ef e 32 32
def eThreshold (e : BitVec 512) : Nat := ef e 64 64

/-! ## Opcodes -/

def opTSEND : Nat := 0x10
def opTPROBE : Nat := 0x11
def opTMPROBE : Nat := 0x12
def opTCANCEL : Nat := 0x13
def opTRECV : Nat := 0x20
def opTMRECV : Nat := 0x21
def opPUT : Nat := 0x30
def opPUT_NOTIFY : Nat := 0x31
def opGET : Nat := 0x32

/-- Opcodes of the atomics; the two 128-bit forms are 0x48 and 0x49 (R265). -/
def isAtomic (c : Nat) : Bool := (0x40 ≤ c && c ≤ 0x46) || c == 0x48 || c == 0x49
def isAtomic128 (c : Nat) : Bool := c == 0x48 || c == 0x49
def isRma (c : Nat) : Bool := c == 0x30 || c == 0x31 || c == 0x32 || isAtomic c
def isQuad (c : Nat) : Bool := 0x60 ≤ c && c ≤ 0x66

/-- The operation of an atomic opcode, and its bytes. -/
def atomicKind (c : Nat) : AtomicKind :=
  if c = 0x40 then .fadd else if c = 0x41 ∨ c = 0x48 then .swap else if c = 0x42 ∨ c = 0x49 then .cas
  else if c = 0x43 then .smin else if c = 0x44 then .smax else if c = 0x45 then .umin else .umax
def atomicSize (c : Nat) : Nat := if isAtomic128 c then 16 else 8

/-! ## Operation areas -/

/-- DEST_FEA, bytes 16–18 of sends, puts, gets and atomics. -/
def eDest (e : BitVec 512) : Nat := ef e 128 24

/-- TSEND (R227). -/
def tsFn (e : BitVec 512) : Nat := ef e 160 8
def tsSet (e : BitVec 512) : Nat := ef e 168 7
def tsQueue (e : BitVec 512) : Nat := ef e 175 3
def tsInline (e : BitVec 512) : Bool := eb e 178
def tsRndv (e : BitVec 512) : Bool := eb e 179
def tsSync (e : BitVec 512) : Bool := eb e 180
def tsBits (e : BitVec 512) : Nat := ef e 192 64
def tsContext (e : BitVec 512) : Nat := ef e 256 32
def tsLength (e : BitVec 512) : Nat := ef e 288 32

/-- Local key and address, bytes 40–43 and 48–55, of every form but the atomics. -/
def eLkey (e : BitVec 512) : Nat := ef e 320 32
def eLaddr (e : BitVec 512) : Nat := ef e 384 64

/-- Inline data, bytes 40–55. -/
def eInline (e : BitVec 512) (n : Nat) : List Byte := leBytes n (ef e 320 128)

/-- TRECV and the probes (R228, R229). -/
def trContext (e : BitVec 512) : Nat := ef e 128 32
def trSource (e : BitVec 512) : Nat := ef e 160 32
def trBits (e : BitVec 512) : Nat := ef e 192 64
def trIgnore (e : BitVec 512) : Nat := ef e 256 64
def trLength (e : BitVec 512) : Nat := ef e 352 32
def trAny (e : BitVec 512) : Bool := eb e 448
def tpQueue (e : BitVec 512) : Nat := ef e 320 3
def tpAny (e : BitVec 512) : Bool := eb e 323
def tpTarget (e : BitVec 512) : Nat := ef e 352 32
def tmHandle (e : BitVec 512) : Nat := ef e 128 23

/-- RMA (R266 to R268). -/
def rInline (e : BitVec 512) : Bool := eb e 160
def rFlag (e : BitVec 512) : Bool := eb e 161
def rCtrEn (e : BitVec 512) : Bool := eb e 162
def rCtr (e : BitVec 512) : Nat := ef e 163 4
def rSet (e : BitVec 512) : Nat := ef e 167 7
def rRing (e : BitVec 512) : Nat := ef e 174 2
def rRkey (e : BitVec 512) : Nat := ef e 192 32
def rLength (e : BitVec 512) : Nat := ef e 224 32
def rRaddr (e : BitVec 512) : Nat := ef e 256 64
def rImmediate (e : BitVec 512) : Nat := ef e 448 64
def aLkey (e : BitVec 512) : Nat := ef e 224 32
def aLaddr (e : BitVec 512) : Nat := ef e 448 64
def aOperand (e x : BitVec 512) : Nat := if isAtomic128 (eOpcode e) then ef x 128 128 else ef e 320 64
def aCompare (e x : BitVec 512) : Nat := if isAtomic128 (eOpcode e) then ef x 256 128 else ef e 384 64

/-- Quadrilles (R344, R345). -/
def qQid (e : BitVec 512) : Nat := ef e 128 32
def qParent (e : BitVec 512) : Nat := ef e 160 24
def qRole (e : BitVec 512) : Nat := ef e 184 2
def qFast (e : BitVec 512) : Bool := eb e 186
def qChildren (e : BitVec 512) : Nat := ef e 192 5
def qIndex (e : BitVec 512) : Nat := ef e 200 4
def qMembers (e : BitVec 512) : Nat := ef e 224 32
def qWindow (e : BitVec 512) : Nat := ef e 256 5
def qChild (x : BitVec 512) (k : Nat) : Nat := ef x (128 + 24 * k) 24
def qOp (e : BitVec 512) : Nat := ef e 160 3
def qType (e : BitVec 512) : Nat := ef e 168 3
def qCount (e : BitVec 512) : Nat := ef e 192 32
def qSkey (e : BitVec 512) : Nat := ef e 224 32
def qSaddr (e : BitVec 512) : Nat := ef e 256 64
def qRkey (e : BitVec 512) : Nat := ef e 320 32
def qRaddr (e : BitVec 512) : Nat := ef e 384 64

/-! ## Malformed entries (R165) -/

/-- Queue types in which an opcode is permitted: SEND 0, RECV 1, TRIGGERED 2; none for an unassigned opcode. -/
def opcodeTypes (c : Nat) : List Nat :=
  if c = 0x00 ∨ c = 0x01 ∨ c = 0x10 then [0, 2]
  else if c = 0x11 ∨ c = 0x12 ∨ c = 0x13 then [0]
  else if c = 0x20 ∨ c = 0x21 then [1]
  else if isRma c || isQuad c then [0, 2]
  else []

/-- EXT that an opcode requires: 1 for the 128-bit atomics and Q_JOIN. -/
def opcodeExt (c : Nat) : Bool := isAtomic128 c || c == 0x60

/-- The bits that are reserved in every entry, and in an extension's first 16 bytes. -/
def commonReserved (e x : BitVec 512) : Bool :=
  ef e 12 2 == 0 && ef e 24 8 == 0 && (!eExt e || (ef x 0 15 == 0 && ef x 16 112 == 0))

/-- The reserved bits and the stated conditions of an operation area. -/
def areaOk (e x : BitVec 512) : Bool :=
  let c := eOpcode e
  if c = 0x00 then ef e 128 384 == 0
  else if c = 0x01 then ef e 132 60 == 0 && ef e 256 256 == 0
  else if c = 0x10 then
    ef e 152 8 == 0 && ef e 181 11 == 0 && (tsInline e || ef e 352 32 == 0) && ef e 448 64 == 0
  else if c = 0x11 ∨ c = 0x12 then ef e 324 4 == 0 && ef e 328 24 == 0 && ef e 352 32 == 0 && ef e 384 128 == 0
  else if c = 0x13 then ef e 324 4 == 0 && ef e 328 24 == 0 && ef e 384 128 == 0
  else if c = 0x20 then ef e 449 31 == 0 && ef e 480 32 == 0
  else if c = 0x21 then ef e 151 9 == 0 && ef e 160 160 == 0 && ef e 448 64 == 0
  else if c = 0x30 ∨ c = 0x31 ∨ c = 0x32 then
    ef e 152 8 == 0 && ef e 176 16 == 0 && (!rInline e || c != 0x32) && (c == 0x31 || rRing e == 0) &&
    (rInline e || (ef e 352 32 == 0 && (eLkey e != 0 || rLength e == 0))) && (c == 0x31 || rImmediate e == 0)
  else if isAtomic c then
    ef e 152 8 == 0 && ef e 176 16 == 0 && !rInline e && rRing e == 0 &&
    rRaddr e % atomicSize c == 0 && (aLkey e == 0 || aLaddr e % atomicSize c == 0) &&
    (c == 0x42 || ef e 384 64 == 0) &&
    (!isAtomic128 c || (ef e 320 64 == 0 && ef x 384 128 == 0 && (c == 0x49 || ef x 256 128 == 0)))
  else if c = 0x60 then
    ef e 187 5 == 0 && ef e 197 3 == 0 && ef e 204 4 == 0 && ef e 208 16 == 0 && ef e 261 3 == 0 && ef e 264 248 == 0
  else
    ef e 163 5 == 0 && ef e 171 5 == 0 && ef e 176 16 == 0 && ef e 352 32 == 0 && ef e 448 64 == 0 &&
    (!(c == 0x62 || c == 0x63) || (qOp e ≤ 5 && !(3 ≤ qOp e && qType e ≤ 3))) &&
    (c != 0x65 || (qCount e == 0 && qSkey e == 0 && qRkey e == 0))

/-- An entry is malformed in a queue of a type (R165), for the extension `x` (0 without one). -/
def entryMalformed (type : Nat) (e x : BitVec 512) : Bool :=
  !((opcodeTypes (eOpcode e)).contains type && eExt e == opcodeExt (eOpcode e) && commonReserved e x &&
    eThreshold e < 2 ^ 63 && (type == 2 || eThreshold e == 0) && areaOk e x)

end Sys2Proof.Machine
end

