-- ==== Sys2Proof/Machine/WorkQueues.lean ====
section
/-! DEFINITION. Work queues, completion rings and completion counters, and the commands of 06_work_queues.md. -/

namespace Sys2Proof.Machine

/-! ## Access -/

/-- A set that the function has (06_work_queues.md R159): pages of higher sets read zero and ignore writes. -/
def State.hasSet (s : State) (f : Fn) (q : Fin 128) : Bool := q.val < s.fnSets f

/-- The ingress check of doorbell and queue-control writes (04_polders.md R106): the function is a warden, or bound to
a polder that is OPEN. -/
def State.ingressOk (s : State) (f : Fn) : Bool :=
  match s.polderOf f with
  | some id => s.polderOpen (fnDie f) id
  | none => false

/-- A write dropped at host-port ingress (R106). -/
def State.ingressDrop (s : State) (f : Fn) : State :=
  (s.bump (fnDie f) DIKE.INGRESS_DROPS.COUNT).lastDropHost (fnDie f) f ((s.polderOf f).getD 0) 1

/-- A doorbell-page or queue-control write that passes the ingress check, at a set that the function has, acts. -/
def State.ingress (s : State) (f : Fn) (q : Fin 128) (act : State → State) : State :=
  if !s.ingressOk f then s.ingressDrop f else if !s.hasSet f q then s else act s

def State.queue (s : State) (k : Nat) : Option WQueue := tget s.queues k
def State.setQueue (s : State) (k : Nat) (q : WQueue) : State := { s with queues := tput s.queues k q }
def State.modQueue (s : State) (k : Nat) (f : WQueue → WQueue) : State := { s with queues := tmod s.queues k f }
def State.ring (s : State) (k : Nat) : Option CRing := tget s.rings k
def State.modRing (s : State) (k : Nat) (f : CRing → CRing) : State := { s with rings := tmod s.rings k f }
def State.op (s : State) (i : Nat) : Option WOp := tget s.ops i
def State.modOp (s : State) (i : Nat) (f : WOp → WOp) : State := { s with ops := tmod s.ops i f }

def ctrZero : Counter := ⟨0, 0, 0, false, 0, .held, 0⟩
def State.counter (s : State) (k : Nat) : Counter := (tget s.ctrs k).getD ctrZero

def qcZero : QcPage := ⟨0, 0, 0, 0, 0, false, false, false, false, 0, 0⟩
def State.qc (s : State) (sk : Nat) : QcPage := (tget s.qcs sk).getD qcZero
def State.setQc (s : State) (sk : Nat) (p : QcPage) : State := { s with qcs := tput s.qcs sk p }
def State.context (s : State) (sk : Nat) : Nat := (s.qc sk).context

/-- State number of a queue in Q_STATE (R192): RESET when it has no record. -/
def State.qState (s : State) (k : Nat) : QSt := match s.queue k with | some q => q.st | none => .reset

/-- Number of queues of a set of keys that are out of RESET. -/
def State.setIdle (s : State) (sk : Nat) : Bool :=
  s.queues.all (fun p => p.1 / 8 != sk) && s.rings.all (fun p => p.1 / 4 != sk)

/-- The function's polder is closed: completion entries and seals are then the only writes to its memory (04_polders.md R114). -/
def State.fnClosed (s : State) (f : Fn) : Bool :=
  match s.polderOf f with
  | some id => !s.polderOpen (fnDie f) id
  | none => false

/-! ## Records (R161 to R163) -/

/-- The check word of a record: CRC-32C of the die's key and of the record's other bytes (log entry 155). -/
def State.checkWord (s : State) (d : Die) (rec : List Byte) : List Byte :=
  leBytes 4 (crc32c (leBytes 16 (s.die d).recKey ++ rec)).toNat

/-- A record of `n` bytes, read back, passes its check. -/
def State.recordOk (s : State) (d : Die) (n : Nat) (data : Option (BitVec 512)) : Bool :=
  match data with
  | none => false
  | some x => let b := leBytes n x.toNat; b.drop (n - 4) == s.checkWord d (b.take (n - 4))

/-- The software-owned bytes of a queue's record, of a ring's, and the values of a counter's. -/
def queueBytes (q : WQueue) : List Byte :=
  leBytes 8 q.base ++ leBytes 1 q.log2 ++ leBytes 1 q.type ++ leBytes 2 (q.cq + 4 * b2n q.poll) ++ leBytes 4 q.interval ++
  leBytes 8 q.indexAddr ++ leBytes 8 0
def ringBytes (r : CRing) : List Byte := leBytes 8 r.base ++ leBytes 1 r.log2 ++ leBytes 1 (b2n r.msixEn) ++ leBytes 2 r.vector ++ leBytes 4 0
def counterBytes (c : Counter) : List Byte := leBytes 8 c.count.toNat ++ leBytes 8 c.tally.toNat ++ leBytes 8 c.fail.toNat

def State.queueRec (s : State) (k : Nat) : Nat := s.context (k / 8) + 64 * (k % 8)
def State.ringRec (s : State) (k : Nat) : Nat := s.context (k / 4) + 0x200 + 32 * (k % 4)
def State.ctrRec (s : State) (k : Nat) : Nat := s.context (k / 16) + 0x300 + 64 * (k % 16)

/-- Write a record back (R162): `soft` is what precedes the device's words; the working state, `n` bytes of a layout that the manual does
not give, is a free value; the check word comes last. `from_` is the first byte written. -/
def State.writeBack (s : State) (f : Fn) (addr from_ n : Nat) (soft : List Byte) : State :=
  s.draw (fun w s =>
    let body := soft ++ leBytes n w
    s.hwrite f (addr + from_) false ((body ++ s.checkWord (fnDie f) body).drop from_))

/-! ## Counters (R182 to R184) -/

/-- Counters of a die that the counter cache holds. -/
def State.ctrUsed (s : State) (d : Die) : Nat :=
  (s.ctrs.filter (fun p => setDie (p.1 / 16) == d && p.2.resid != .evicted)).length

/-- The least recently used of what a cache holds. -/
def oldest {α : Type} (use : α → Nat) : List (Nat × α) → Option (Nat × α)
  | [] => none
  | h :: t => some (t.foldl (fun m p => if use p.2 < use m.2 then p else m) h)

/-- Write the least recently used counter back when the cache is over its capacity (R190). -/
def State.ctrEvict (s : State) (d : Die) (keep : Nat) : State :=
  if s.ctrUsed d ≤ 1024 * s.wquBanks d 1 then s
  else match oldest Counter.lastUse (s.ctrs.filter (fun p => setDie (p.1 / 16) == d && p.2.resid == .held && p.1 != keep &&
      !s.fnClosed (setFn (p.1 / 16)))) with
    | none => s
    | some (k, c) => { (s.writeBack (setFn (k / 16)) (s.ctrRec k) 0 28 (counterBytes c ++ leBytes 8 0)) with
        ctrs := tput s.ctrs k { c with dirty := false, recAt := s.now, resid := .evicted } }

/-- Use a counter: an evicted one is read back, and its use is noted. -/
def State.touchCtr (s : State) (k : Nat) : State :=
  let c := s.counter k
  if tget s.ctrs k = none then s
  else
    let s := s.when (c.resid == .evicted) (fun s => s.hread (setFn (k / 16)) (s.ctrRec k) 64)
    ({ s with ctrs := tput s.ctrs k { c with resid := if c.resid = Resid.evicted then .reading else c.resid, lastUse := s.now } }).ctrEvict
      (setDie (k / 16)) k

/-- Change a counter; it is then written to its record (R184). Without a context block the counters do not change. -/
def State.ctrUpdate (s : State) (k : Nat) (f : Counter → Counter) : State :=
  if s.context (k / 16) = 0 then s
  else ({ s with ctrs := tput s.ctrs k { f (s.counter k) with dirty := true } }).touchCtr k

/-- Add to COUNT (R182). -/
def State.ctrAdd (s : State) (k n : Nat) : State :=
  s.ctrUpdate k (fun c => { c with count := c.count + BitVec.ofNat 64 n })

/-- Count a completion with its status and byte count (R182). -/
def State.ctrComplete (s : State) (k status bytes : Nat) : State :=
  s.ctrUpdate k (fun c =>
    if isOk status then { c with count := c.count + 1, tally := c.tally + BitVec.ofNat 64 bytes }
    else { c with fail := c.fail + 1 })

/-! ## Queues and rings in the queue-state cache (R162, R190) -/

/-- Queues of a die that the queue-state cache holds. -/
def State.qscUsed (s : State) (d : Die) : Nat :=
  (s.queues.filter (fun p => setDie (p.1 / 8) == d && p.2.resid != .evicted)).length

/-- Write a ring back once no queue that names it is held (log entry 155). -/
def State.ringEvict (s : State) (rk : Nat) : State :=
  match s.ring rk with
  | none => s
  | some r =>
    if r.resid != .held || s.queues.any (fun p => p.1 / 8 == rk / 4 && p.2.cq == rk % 4 && p.2.resid != .evicted) then s
    else (s.modRing rk (fun r => { r with resid := .evicted })).writeBack (setFn (rk / 4)) (s.ringRec rk) 16 12 (ringBytes r)

/-- Write the least recently used queue back when the cache is over its capacity (R190). A closed polder's memory takes no such write
(04_polders.md R114). -/
def State.qscEvict (s : State) (d : Die) (keep : Nat) : State :=
  if s.qscUsed d ≤ 1024 * s.wquBanks d 0 then s
  else match oldest WQueue.lastUse (s.queues.filter (fun p => setDie (p.1 / 8) == d && p.2.resid == .held && p.1 != keep &&
      !s.fnClosed (setFn (p.1 / 8)))) with
    | none => s
    | some (k, q) => ((s.modQueue k (fun q => { q with resid := .evicted })).writeBack (setFn (k / 8)) (s.queueRec k) 32 28
        (queueBytes q)).ringEvict (ringKey (k / 8) q.cq)

/-- Use a ring: an evicted one is read back. -/
def State.touchRing (s : State) (rk : Nat) : State :=
  match s.ring rk with
  | some r => if r.resid = .evicted then
      (s.hread (setFn (rk / 4)) (s.ringRec rk) 32).modRing rk (fun r => { r with resid := .reading }) else s
  | none => s

/-- Use a queue's state: an evicted one is read back, with its ring, and its use is noted. What the use does is not delayed
(log entry 155). -/
def State.touchQueue (s : State) (k : Nat) : State :=
  match s.queue k with
  | none => s
  | some q =>
    let s := if q.resid = .evicted then s.hread (setFn (k / 8)) (s.queueRec k) 64 else s
    ((s.modQueue k (fun q => { q with resid := if q.resid = .evicted then .reading else q.resid, lastUse := s.now })).touchRing
      (ringKey (k / 8) q.cq)).qscEvict (setDie (k / 8)) k

/-! ## Flush and failure of a queue (R114, R163, R179) -/

/-- Operations of a queue, oldest first. -/
def State.opsOf (s : State) (k : Nat) : List Nat := match s.queue k with | some q => q.ops | none => []

/-- Order an operation to complete with status `st` whatever becomes of it. One that has not started ends at once. -/
def forceOp (st : Nat) (o : WOp) : WOp :=
  match o.stage with
  | .waiting => { o with force := some st, stage := .ended, status := st, bytes := 0 }
  | .started => { o with force := some st, stage := .ended, status := st, bytes := 0 }
  | _ => { o with force := some st }

def State.forceOps (s : State) (st : Nat) (l : List Nat) : State :=
  l.foldl (fun s i => s.modOp i (forceOp st)) s

/-! ## Fetching entries -/

def opNew (k index : Nat) (entry ext : BitVec 512) : WOp :=
  { q := k, index := index, entry := entry, ext := ext, stage := .waiting, reserved := false, malformed := false,
    status := 0, bytes := 0, source := 0, imm := 0, aux := 0, issued := 0, chunks := 0, unacked := 0, expect := 0, out := [], deferred := false, sent := false, matched := false, errAt := 0,
    err := none, force := none, cluster := none }

/-- PHASE of slot count `i` in a ring of 2^`log2` slots (R167). -/
def phaseOf (i log2 : Nat) : Bool := !bitOf i log2

/-- Add an operation read from the ring, taking `n` slots. In ERROR it is flushed (R178). -/
def State.addOp (s : State) (k : Nat) (q : WQueue) (o : WOp) (n : Nat) : State :=
  let id := s.nextOp
  let o := if q.st = .error then forceOp stFLUSHED o else o
  let q := { q with next := add32 q.next n, ops := q.ops ++ [id], retries := 0, retryAt := 0, flushDone := false,
                    cache := (List.range n).foldl (fun c i => tdel c (add32 q.next i)) q.cache }
  { (s.setQueue k q) with ops := tput s.ops id o, nextOp := id + 1 }

/-- An entry that is refused before it is decoded completes with LOCAL_FORMAT (R166, R169, R608). -/
def State.addBad (s : State) (k : Nat) (q : WQueue) (e : BitVec 512) : State :=
  s.addOp k q { opNew k q.next e 0 with malformed := true } 1

/-- Re-reads made so far of a slot. -/
def triesOf (q : WQueue) (slot : Nat) : Nat := if q.retrySlot = slot then q.retries else 0

/-- A slot's PHASE mismatches: its copy goes, and it is read again after 100 ns (R169). -/
def badPhase (q : WQueue) (slot now : Nat) : WQueue :=
  { q with retrySlot := slot, retries := triesOf q slot, retryAt := now + 100, cache := tdel q.cache slot }

/-- Read entries below PRODUCER from the slots held, in slot order, at most `n` of them. -/
def State.fetch : Nat → Nat → State → State
  | 0, _, s => s
  | n + 1, k, s =>
    match s.queue k with
    | none => s
    | some q =>
      let ext := add32 q.next 1
      if q.next = q.producer ∨ q.st = .reset ∨ q.st = .ready ∨ q.st = .draining then s
      else match tget q.cache q.next with
        | none => s
        | some none => State.fetch n k (s.addBad k q 0)
        | some (some e) =>
          if ePhase e ≠ phaseOf q.next q.log2 then
            if triesOf q q.next < 64 then s.setQueue k (badPhase q q.next s.now) else State.fetch n k (s.addBad k q e)
          else if eExt e then
            if ext = q.producer then s
            else match tget q.cache ext with
              | none => s
              | some none => State.fetch n k (s.addOp k q { opNew k q.next e 0 with malformed := true } 2)
              | some (some x) =>
                if ePhase x ≠ phaseOf ext q.log2 then
                  if triesOf q ext < 64 then s.setQueue k (badPhase q ext s.now)
                  else State.fetch n k (s.addOp k q { opNew k q.next e x with malformed := true } 2)
                else State.fetch n k (s.addOp k q { opNew k q.next e x with malformed := entryMalformed q.type e x } 2)
          else State.fetch n k (s.addOp k q { opNew k q.next e 0 with malformed := entryMalformed q.type e 0 } 1)

/-- Take every entry that the slots held give. -/
def State.fetchAll (s : State) (k : Nat) : State := match s.queue k with | some q => State.fetch (q.cache.length + 1) k s | none => s

/-! ## Prefetched slots (R168, R171, R190) -/

/-- Slots of an operation. -/
def opSlots (o : WOp) : Nat := if eExt o.entry then 2 else 1

/-- Slots held as entries that have not started. -/
def State.waitSlots (s : State) (q : WQueue) : Nat :=
  (q.ops.map (fun i => match s.op i with | some o => if o.stage = .waiting then opSlots o else 0 | none => 0)).sum

/-- Slots from `next` on that the queue may hold besides: it holds at most eight in all. -/
def State.slotRoom (s : State) (q : WQueue) : Nat := 8 - s.waitSlots q

/-- The slot is on its way. -/
def slotAsked (q : WQueue) (slot : Nat) : Bool := q.asked.any (fun a => a.1 == slot && !a.2) || (q.retryAt != 0 && q.retrySlot == slot)

/-- Read those of some slots that are neither held nor on their way; nothing is read for a closed polder (04_polders.md R607). -/
def State.askSlots (s : State) (k : Nat) (l : List Nat) : State :=
  match s.queue k with
  | none => s
  | some q =>
    let l := l.filter (fun i => (tget q.cache i).isNone && !slotAsked q i && sub32 i q.next < s.slotRoom q && !s.fnClosed (setFn (k / 8)))
    l.foldl (fun s i => s.hread (setFn (k / 8)) (q.base + i % 2 ^ q.log2 * 64) 64)
      (s.setQueue k { q with asked := q.asked ++ l.map (fun i => (i, false)) })

/-- Read the next entries below PRODUCER, as far as the queue may hold their slots (R178). -/
def State.prefetch (s : State) (k : Nat) : State :=
  match s.queue k with
  | none => s
  | some q =>
    if q.st = .active ∨ q.st = .error then
      s.askSlots k ((List.range (min 8 (sub32 q.producer q.next))).map (fun i => add32 q.next i))
    else s

/-- How far the slots held or on their way reach beyond `next`. -/
def reach (q : WQueue) : Nat :=
  ((q.cache.map (·.1) ++ (q.asked.filter (fun a => !a.2)).map (·.1)).map (fun i => sub32 i q.next + 1)).foldl max 0

/-- Issue an index read of a queue, with the speculative read of the four slots after the last one held, or merge it with the one
outstanding (R168). None is issued for a closed polder (04_polders.md R607). -/
def State.indexRead (s : State) (k : Nat) : State :=
  match s.queue k with
  | none => s
  | some q =>
    if s.fnClosed (setFn (k / 8)) then s
    else if q.idxOut then s.setQueue k { q with idxMerged := true }
    else
      let s := (s.setQueue k { q with idxOut := true }).bump (setDie (k / 8)) WQU.INDEX_READS.COUNT
      let s := s.hread (setFn (k / 8)) q.indexAddr 64
      s.askSlots k ((List.range 4).map (fun i => add32 q.next (reach q + i)))

/-- The first read of a slot that is outstanding returns: the queue without it, and whether its data may be used. -/
def takeAsked (q : WQueue) (slot : Nat) : WQueue × Bool :=
  match q.asked.find? (fun a => a.1 == slot) with
  | none => (q, false)
  | some a => ({ q with asked := q.asked.erase a }, !a.2)

/-- Keep a slot read that was asked for. -/
def State.keepSlot (s : State) (k : Nat) (slot : Nat) (data : Option (BitVec 512)) : State :=
  match s.queue k with
  | none => s
  | some q =>
    let (q, use) := takeAsked q slot
    s.setQueue k (if use && sub32 slot q.next < s.slotRoom q then { q with cache := tput q.cache slot data } else q)

/-- The slots of an operation, as they were read. A malformed one without its entry was a poisoned read. -/
def opCopies (o : WOp) : List (Nat × Option (BitVec 512)) :=
  (o.index, if o.entry = 0 then none else some o.entry) :: (if eExt o.entry then [(add32 o.index 1, some o.ext)] else [])

/-- Give up the entries of a queue from operation `i` on, none of which has started; `keep` tells which of their slots stay held. -/
def State.dropFrom (s : State) (k i : Nat) (keep : Nat → Bool) : State :=
  match s.queue k, s.op i with
  | some q, some o =>
    let gone := q.ops.dropWhile (· != i)
    let copies := (gone.filterMap s.op).flatMap opCopies
    let cache := (copies.filter (fun c => keep c.1)).foldl (fun t c => tput t c.1 c.2) q.cache
    let s := { s with ops := gone.foldl tdel s.ops }
    s.setQueue k { q with ops := q.ops.takeWhile (· != i), next := o.index, cache := cache }
  | _, _ => s

/-- Prefetched slots of a queue: of entries not started, and others. -/
def State.heldSlots (s : State) (q : WQueue) : Nat := s.waitSlots q + q.cache.length

/-- Prefetched slots of a die. -/
def State.pfUsed (s : State) (d : Die) : Nat :=
  ((s.queues.filter (fun p => setDie (p.1 / 8) == d)).map (fun p => s.heldSlots p.2)).sum

/-- A queue keeps one prefetched slot, the next one needed; one that holds no more than that gives it up. -/
def State.trimQueue (s : State) (k : Nat) : State :=
  match s.queue k with
  | none => s
  | some q =>
    let one := decide (1 < s.heldSlots q)
    match q.ops.filter (fun i => match s.op i with | some o => o.stage == .waiting | none => false) with
    | [] => s.setQueue k { q with cache := if one then q.cache.filter (fun c => q.cache.all (fun e => sub32 c.1 q.next ≤ sub32 e.1 q.next)) else [] }
    | i :: l =>
      let first := match s.op i with | some o => o.index | none => 0
      let lone := match s.op i with | some o => opSlots o == 1 | none => false
      if one && lone then match l with
        | j :: _ => (s.dropFrom k j (fun _ => false)).modQueue k (fun q => { q with cache := [] })
        | [] => s.setQueue k { q with cache := [] }
      else (s.dropFrom k i (fun x => one && x == first)).modQueue k (fun q => { q with cache := q.cache.filter (fun c => one && c.1 == first) })

/-- Keep the die's prefetched slots within its cache: the least recently used queues keep one (R190). -/
def State.pfTrim : Nat → Die → Nat → State → State
  | 0, _, _, s => s
  | n + 1, d, keep, s =>
    if s.pfUsed d ≤ 1024 * s.wquBanks d 2 then s
    else
      let l := s.queues.filter (fun p => setDie (p.1 / 8) == d && p.1 != keep)
      match oldest WQueue.lastUse (l.filter (fun p => 1 < s.heldSlots p.2)), oldest WQueue.lastUse (l.filter (fun p => 0 < s.heldSlots p.2)) with
      | some p, _ => State.pfTrim n d keep (s.trimQueue p.1)
      | none, some p => State.pfTrim n d keep (s.trimQueue p.1)
      | none, none => s

/-! ## Failure of a queue (R114, R163, R179) -/

/-- An entry that the device has read is not yet an operation: its PHASE is being read again, or its turn is next. -/
def readPending (q : WQueue) : Bool :=
  q.next != q.producer && (q.retryAt != 0 || match tget q.cache q.next with
    | some (some e) => !(eExt e && add32 q.next 1 == q.producer)
    | some none => true
    | none => false)

/-- FLUSH_DONE: no entry that the device has read remains without its completion (R178). -/
def State.checkFlush (s : State) (k : Nat) : State :=
  s.modQueue k (fun q => if q.st = .error then { q with flushDone := q.ops.isEmpty && !readPending q } else q)

/-- Move a queue that is READY, ACTIVE or DRAINING to ERROR from outside its own completions: the oldest outstanding
entry completes with `st` and the later ones with FLUSHED (R114, R163). With none outstanding the queue still moves
to ERROR. -/
def State.queueFail (s : State) (k st : Nat) : State :=
  match s.queue k with
  | none => s
  | some q =>
    if q.st = .error then s else
    let s := s.bump (setDie (k / 8)) WQU.QUEUE_ERRORS.COUNT
    let s := match q.ops with
      | [] => s.setQueue k { q with st := .error, errStatus := st, errWorkId := 0, errIndex := q.consumer }
      | e :: later =>
        let (w, i) := match s.op e with | some o => (eWorkId o.entry, o.index) | none => (0, 0)
        ((s.setQueue k { q with st := .error, errStatus := st, errWorkId := w, errIndex := i }).modOp e (forceOp st)).forceOps stFLUSHED later
    ((s.fetchAll k).prefetch k).checkFlush k

/-- A record check of a set fails: every queue of the set moves to ERROR (R163). -/
def State.setFail (s : State) (sk st : Nat) : State :=
  (List.range 8).foldl (fun s k => s.queueFail (qKey sk k) st) s

/-- Every queue of a closed polder moves to ERROR (R114). -/
def State.polderQueuesFail (s : State) (polder : Nat) : State :=
  (s.queues.filter (fun p => p.2.polder == polder)).foldl (fun s p => s.queueFail p.1 stCLOSED) s

/-! ## Starting entries (R173, R178, R185) -/

/-- Free slots of a ring: neither written and not consumed, nor reserved (R192, RING_STATE). -/
def ringFree (r : CRing) : Nat := 2 ^ r.log2 - sub32 r.written r.consumed - r.reserved

/-- Started entries outstanding on a die (R190). -/
def State.startedOn (s : State) (d : Die) : Nat :=
  (s.ops.filter (fun p => setDie (p.2.q / 8) == d && p.2.stage != .waiting)).length

/-- Every operation read before `i` has completed: FENCE (R164). -/
def fenceOk (ops : List Nat) (i : Nat) (o : WOp) : Bool := !eFence o.entry || ops.head? == some i

/-- The state allows operation `i` of queue `k` to start: the queue is ACTIVE, the block operates, a completion slot
can be reserved, its FENCE is met and the die has room. -/
def State.canStart (s : State) (k i : Nat) (q : WQueue) (o : WOp) : Bool :=
  q.st == .active && o.stage == .waiting && s.on (setDie (k / 8)) (HDR.CTRL.ENABLE 0x400000) &&
  s.startedOn (setDie (k / 8)) < 65536 && fenceOk q.ops i o &&
  match s.ring (ringKey (k / 8) q.cq) with
  | some r => 0 < ringFree r
  | none => false

/-- CONSUMER: the lowest slot that the device still needs (R166). -/
def State.lowestNeeded (s : State) (q : WQueue) : Nat :=
  match q.ops.find? (fun i => match s.op i with
      | some o => o.stage == .waiting || eSeal o.entry
      | none => false) with
  | some i => match s.op i with | some o => o.index | none => q.next
  | none => q.next

/-- Write CONSUMER into the index record when it has advanced (R166). In a closed polder it is held (log entry 142). -/
def State.updConsumer (s : State) (k : Nat) : State :=
  match s.queue k with
  | none => s
  | some q =>
    let c := s.lowestNeeded q
    if c = q.consumer ∨ s.fnClosed (setFn (k / 8)) = true then s
    else (s.setQueue k { q with consumer := c }).hwrite (setFn (k / 8)) (q.indexAddr + 32) false (leBytes 4 c)

/-! ### Engine clusters (03_register_model.md R93, R94; 09_remote_access.md R273, R275) -/

/-- Clusters of a die that the running image brings up, and that have an engine in service. -/
def State.clustersUp (s : State) (d : Die) : List Nat := ((List.range 8).map (· + 8 * d.num)).filter (fun c =>
  !s.on d (PWC.DOM_STATE.LOCKED_OFF (16 + c % 8)) && (s.enginesLeft d).any (fun n => n / 8 == c))

/-- Operations whose packets an engine issues from their start: those of a LEAF among the quadrilles' (11_collectives.md R336). -/
def State.needsEngine (s : State) (o : WOp) : Bool :=
  let c := eOpcode o.entry
  c == opTSEND || isRma c || (c == 0x60 && qRole o.entry == 0) ||
    (isQuad c && (s.die (setDie (o.q / 8))).members.any (fun m => m.2.role == 0 && m.2.qid == qQid o.entry && m.2.fn == setFn (o.q / 8) && m.2.st != .failed))

/-- Choose the cluster that works on an operation; which, the manual leaves to the WQU. An operation that finds none ends UNIT_ABSENT. A
dispatch to a fenced or sleeping cluster is held at its stop (17_power.md R538). -/
def State.assign (s : State) (i : Nat) : State :=
  match s.op i with
  | none => s
  | some o =>
    let d := setDie (o.q / 8)
    match s.clustersUp d with
    | [] => s.modOp i (fun o => { o with stage := .ended, status := stABSENT, bytes := 0 })
    | l => s.draw (fun r s =>
      let c := l.getD (r % l.length) 0
      let e := 16 + c % 8
      (s.modOp i (fun o => { o with cluster := some c })).when (decide (3 ≤ s.rd d (PWC.DOM_STATE.STATE e)) || s.on d (PWC.DOM_STATE.FENCING e))
        (fun s => s.bump d PWC.HELD_TRANSACTIONS.COUNT))

/-- The operations of clusters that have left service go on at others of their die (09_remote_access.md R275; 16_faults.md R509), and where
none is left end with UNIT_ABSENT (R522). -/
def State.reassign (s : State) (d : Die) : State :=
  let up := s.clustersUp d
  (s.ops.filter (fun p => setDie (p.2.q / 8) == d && p.2.stage != .ended &&
    (match p.2.cluster with | some c => !up.contains c | none => false))).foldl (fun s p => s.assign p.1) s

/-- The cluster of an operation is awake, or it needs none. -/
def State.clusterAwake (s : State) (o : WOp) : Bool :=
  match o.cluster with
  | some c => s.rd (setDie (o.q / 8)) (PWC.DOM_STATE.STATE (16 + c % 8)) == 0
  | none => true

/-- Start an operation: its completion slot is reserved, and a malformed one ends with LOCAL_FORMAT, a Q_JOIN with the reason ARG
(11_collectives.md R344). -/
def State.startOp (s : State) (k i : Nat) (q : WQueue) : State :=
  let s := (s.touchQueue k).modRing (ringKey (k / 8) q.cq) (fun r => { r with reserved := r.reserved + 1 })
  let s := s.modOp i (fun o =>
    if o.malformed then { o with stage := .ended, status := stFORMAT, reserved := true, aux := if eOpcode o.entry = 0x60 then 4 else o.aux }
    else { o with stage := .started, reserved := true })
  let s := match s.op i with
    | some o => if o.stage = Stage.started ∧ s.needsEngine o = true then s.assign i else s
    | none => s
  let s := s.when (match s.op i with | some o => o.malformed && eOpcode o.entry == 0x60 | none => false)
    (fun s => s.bump (setDie (k / 8)) QDU.JOIN_REFUSED.COUNT)
  ((s.bump (setDie (k / 8)) WQU.ENTRIES_STARTED.COUNT).event (setDie (k / 8)) 12 (some q.polder)).updConsumer k

/-- Start the waiting operations of a SEND or RECV queue in slot order, until one cannot start. -/
def State.startList : List Nat → Nat → State → State
  | [], _, s => s
  | i :: l, k, s =>
    match s.queue k, s.op i with
    | some q, some o =>
      if o.stage ≠ .waiting then State.startList l k s
      else if s.canStart k i q o then State.startList l k (s.startOp k i q)
      else s
    | _, _ => s

/-- The head of a queue: its oldest operation that has not started. -/
def State.headOf (s : State) (q : WQueue) : Option (Nat × WOp) :=
  match q.ops.find? (fun i => match s.op i with | some o => o.stage == .waiting | none => false) with
  | some i => (s.op i).map (fun o => (i, o))
  | none => none

/-- The head's counter has reached its threshold, or the head is malformed (R185). -/
def State.headMet (s : State) (k : Nat) (o : WOp) : Bool :=
  o.malformed || decide (eThreshold o.entry ≤ (s.counter (ctrKey (k / 8) (eTrig o.entry))).count.toNat)

/-- Put a triggered queue's head in the die's trigger table where there is room (R187, R190), or take the queue out of it
when it has no head. -/
def State.trigUpdate (s : State) (k : Nat) : State :=
  let d := setDie (k / 8)
  match s.queue k with
  | none => s.modDie d (fun x => { x with trig := x.trig.erase k })
  | some q =>
    if q.type ≠ 2 then s
    else if (s.headOf q).isNone then s.modDie d (fun x => { x with trig := x.trig.erase k })
    else if (s.die d).trig.contains k ∨ 65536 ≤ (s.die d).trig.length then s
    else s.modDie d (fun x => { x with trig := x.trig ++ [k] })

/-- Let a queue start what it can, and read on. A triggered queue's heads start by their own command. -/
def State.advance (s : State) (k : Nat) : State :=
  match s.queue k with
  | none => s
  | some q => (if q.type = 2 then s.trigUpdate k else State.startList q.ops k s).prefetch k

/-- After a change of what a queue holds: take its entries, start what it can, read on. -/
def State.pumpQueue (s : State) (k : Nat) : State :=
  State.pfTrim (s.queues.length + 1) (setDie (k / 8)) k (((s.fetchAll k).advance k).checkFlush k)

/-- Start the satisfied head of a triggered queue (R185). -/
def State.startHead (s : State) (k : Nat) : State :=
  match s.queue k with
  | none => s
  | some q =>
    match s.headOf q with
    | none => s
    | some (i, o) =>
      let s := s.touchCtr (ctrKey (k / 8) (eTrig o.entry))
      if q.type = 2 && s.headMet k o && s.canStart k i q o then ((s.startOp k i q).trigUpdate k).prefetch k else s

/-! ## Completions (R172 to R180) -/

/-- End an operation with its outcome. Its completion is written by COMPLETION. -/
def State.endOp (s : State) (i status bytes : Nat) : State :=
  s.modOp i (fun o => { o with stage := .ended, status := status, bytes := bytes })

/-- The 32 bytes of a completion entry (R172). -/
def cqeBytes (o : WOp) (status bytes : Nat) (q : WQueue) (k written log2 : Nat) : List Byte :=
  leBytes 4 (eWorkId o.entry) ++ leBytes 1 status ++
  leBytes 1 (k % 8 + 8 * b2n (phaseOf written log2) + 16 * b2n (q.type == 1)) ++
  leBytes 1 (eOpcode o.entry) ++ leBytes 1 0 ++ leBytes 4 bytes ++ leBytes 4 o.source ++
  leBytes 8 o.imm ++ leBytes 8 o.aux

/-- The seal (R175). -/
def sealBytes (status bytes : Nat) : List Byte := leBytes 8 (bytes % 2 ^ 32 + status * 2 ^ 32 + 2 ^ 63)

/-- Send a ring's MSI-X message where it is armed, and disarm it (R176). -/
def State.msix (s : State) (rk : Nat) : State :=
  match s.ring rk with
  | none => s
  | some r =>
    if r.msixEn && r.armed then
      (s.emit (.msix (setFn (rk / 4)) r.vector)).modRing rk (fun r => { r with armed := false })
    else s

/-- Write an operation's completion entry in its ring, or release its reservation (R173, R174). -/
def State.writeCqe (s : State) (k : Nat) (q : WQueue) (o : WOp) (status bytes : Nat) : State :=
  let rk := ringKey (k / 8) q.cq
  match s.ring rk with
  | none => s
  | some r =>
    let rel := if o.reserved then r.reserved - 1 else r.reserved
    if isOk status && !eCqe o.entry then s.modRing rk (fun r => { r with reserved := rel })
    else
      let s := s.hwrite (setFn (k / 8)) (r.base + r.written % 2 ^ r.log2 * 32) false
        (cqeBytes o status bytes q k r.written r.log2)
      (s.modRing rk (fun r => { r with reserved := rel, written := add32 r.written 1 })).msix rk

/-- An operation's turn to complete has come: in posting order among those ordered to a status, and with a completion
slot (R173, R179). -/
def State.canComplete (s : State) (i : Nat) (q : WQueue) (o : WOp) (rk : Nat) : Bool :=
  (o.force.isNone || ((q.ops.takeWhile (· != i)).all (fun j =>
    match s.op j with | some p => p.force.isNone | none => true))) &&
  (o.reserved || match s.ring rk with | some r => 0 < ringFree r | none => false)

/-! ### What the TMU holds of a receive (08_matching.md R234 to R238) -/

/-- The entries that are on chip: the first 4,096 wildcard entries in posting order, and the next four members of each of the first 4,096
runs. `w` and `r` count those before. -/
def chipPlaces : Nat → Nat → List MEnt → List MEnt
  | _, _, [] => []
  | w, r, e :: l =>
    let run := decide (1 < e.members.length)
    { e with onchip := if e.wild then decide (w < 4096) else e.onchip
             kept := if run && decide (r < 4096) then (e.members.drop 1).take 4 else [] } ::
      chipPlaces (w + b2n e.wild) (r + b2n run) l

/-- Take members out of their entries; an entry without members goes. -/
def dropMembers (l : List MEnt) (q : Nat) (posted : Bool) (ns : List Nat) : List MEnt :=
  chipPlaces 0 0 ((l.map (fun e => if e.q = q ∧ e.posted = posted then { e with members := e.members.filter (fun n => !ns.contains n) }
    else e)).filter (fun e => !e.members.isEmpty))

/-- A receive is over: its home is released, and with it what is still posted of it. -/
def forgetRecv (t : Tmu) (q i : Nat) : Tmu :=
  let l := (tget t.posts q).getD []
  { t with homes := tdel t.homes i
           posts := tmod t.posts q (fun l => l.filter (fun p => p.op != i))
           ents := dropMembers t.ents q true ((l.filter (fun p => p.op == i)).map (·.psn)) }

/-- Remove a completed operation from its queue, and do what its state then asks for. -/
def State.retireOp (s : State) (k i : Nat) : State :=
  let posted := match s.op i with | some o => eOpcode o.entry == opTRECV | none => false
  let s := s.when posted (fun s => s.modDie (setDie (k / 8)) (fun x => { x with tmu := forgetRecv x.tmu k i }))
  let s := { s with ops := tdel s.ops i }
  let s := (s.modQueue k (fun q => { q with ops := q.ops.erase i })).updConsumer k
  let s := match s.queue k with
    | some q =>
      if q.st = QSt.draining ∧ q.ops.all (fun j => match s.op j with | some o => o.stage == Stage.waiting | none => true)
      then s.setQueue k { q with st := .ready } else s
    | none => s
  s.pumpQueue k

/-- An operation is over: it has ended, or it is ordered to a status and none of its packets is outstanding (R179). -/
def opOver (o : WOp) : Bool := o.stage == .ended || (o.stage == .running && o.force.isSome && o.unacked == 0)

/-- Complete an ended operation: counter update, completion entry, MSI-X, seal, then the queue's own change. The data
it wrote were made visible before (R174). -/
def State.complete (s : State) (i : Nat) : State :=
  match s.op i with
  | none => s
  | some o =>
    match s.queue o.q with
    | none => s
    | some q =>
      if !opOver o || !s.canComplete i q o (ringKey (o.q / 8) q.cq) then s
      else
        let s := s.touchQueue o.q
        let st := o.force.getD o.status
        let by_ := if eOpcode o.entry = opTSEND then tsLength o.entry else if st = stFLUSHED then 0 else o.bytes
        let s := if eCtrEn o.entry then s.ctrComplete (ctrKey (o.q / 8) (eCtr o.entry)) st by_ else s
        let s := s.writeCqe o.q q o st by_
        let s := if eSeal o.entry then
            s.hwrite (setFn (o.q / 8)) (q.base + o.index % 2 ^ q.log2 * 64 + 8) false (sealBytes st by_) else s
        let s := s.when (st == stABSENT) (fun s => s.bump (setDie (o.q / 8)) WQU.UNIT_ABSENT_COMPLETIONS.COUNT)
        let s :=
          if movesToError st && q.st != .error then
            let s := s.bump (setDie (o.q / 8)) WQU.QUEUE_ERRORS.COUNT
            (s.modQueue o.q (fun q => { q with st := .error, errStatus := st, errWorkId := eWorkId o.entry,
                                               errIndex := o.index, flushDone := false })).forceOps
              stFLUSHED ((q.ops.dropWhile (· != i)).drop 1)
          else s
        s.retireOp o.q i

/-! ## Commands of the doorbell page -/

/-- A register access of the doorbell page has 4 or 8 bytes (R191). -/
def wordSize (n : Nat) : Bool := n == 4 || n == 8

def State.ringBell (s : State) (f : Fn) (q : Fin 128) (k : Fin 8) : State :=
  let key := qKey (setKey f q.val) k.val
  let s := s.bump (fnDie f) WQU.DOORBELLS.COUNT
  match s.queue key with
  | none => s
  | some w =>
    if w.st = .active ∨ w.st = .error then
      (s.when w.idxOut (fun s => s.bump (fnDie f) WQU.DOORBELLS_MERGED.COUNT)).touchQueue key |>.indexRead key
    else s

/-- DOORBELL (06_work_queues.md R168, R191): a write of 4 or 8 bytes to DB[k] rings queue k. One of another size is ignored, and counted
as 03_register_model.md R76 states. -/
def execDoorbell (f : Fn) (q : Fin 128) (k : Fin 8) (size : Nat) (s : State) : Host.Outcome State Fault Refusal :=
  .next (if wordSize size then s.ingress f q (fun s => s.ringBell f q k)
    else if !s.ingressOk f then s.ingressDrop f else s.bump .a GLB.ACCESS_ERROR_COUNT.COUNT)

/-- CTR_ADD (06_work_queues.md R184, R191). -/
def execCtrAdd (f : Fn) (q : Fin 128) (c : Fin 16) (value : W32) (s : State) : Host.Outcome State Fault Refusal :=
  .next (s.ingress f q (fun s => s.ctrAdd (ctrKey (setKey f q.val) c.val) value.toNat))

/-- A write of RING_CONS: accepted when it returns no more slots than were written (R173); ARM arms the ring, and an
entry already written past INDEX sends the message at once (R176). -/
def State.ringCons (s : State) (rk index : Nat) (arm : Bool) : State :=
  match s.ring rk with
  | none => s
  | some r =>
    if sub32 r.written r.consumed < sub32 index r.consumed then s
    else
      let s := (s.touchRing rk).modRing rk (fun r => { r with consumed := index, armed := r.armed || arm })
      let s := s.when (arm && r.written != index) (fun s => s.msix rk)
      (List.range 8).foldl (fun s k => s.advance (qKey (rk / 4) k)) s

/-- RING_CONS_WRITE (06_work_queues.md R173, R176). -/
def execRingConsWrite (f : Fn) (q : Fin 128) (r : Fin 4) (index : W32) (arm : Bool) (s : State) :
    Host.Outcome State Fault Refusal :=
  .next (s.ingress f q (fun s => s.ringCons (ringKey (setKey f q.val) r.val) index.toNat arm))

/-! ## Commands of the queue control page -/

/-- A write of CONTEXT_ADDR (R192): accepted only while every queue is in RESET and no ring exists. When it becomes
non-zero, every counter that is not zero is written to the new block (R184). -/
def State.contextWrite (s : State) (sk addr : Nat) : State :=
  if s.setIdle sk then
    let s := s.setQc sk { s.qc sk with context := addr / 2048 % 2 ^ 46 * 2048 }
    if s.context sk = 0 then s
    else { s with ctrs := s.ctrs.map (fun p =>
      if p.1 / 16 = sk ∧ (p.2.count ≠ 0 ∨ p.2.tally ≠ 0 ∨ p.2.fail ≠ 0) then (p.1, { p.2 with dirty := true, resid := .held }) else p) }
  else s.setQc sk { s.qc sk with cfgReject := true }

/-- CONTEXT_ADDR_WRITE (06_work_queues.md R192). -/
def execContextAddrWrite (f : Fn) (q : Fin 128) (addr : W64) (s : State) : Host.Outcome State Fault Refusal :=
  .next (s.ingress f q (fun s => s.contextWrite (setKey f q.val) addr.toNat))

/-- End a queue-set command: DONE, CODE and DETAIL (R193). -/
def State.qcEnd (s : State) (sk code detail : Nat) : State :=
  s.setQc sk { s.qc sk with busy := false, done := true, code := code, detail := detail }

/-- Run a queue-set command: the write of QC_CMD passes the ingress check, its fields are kept, and a GO while BUSY is
ignored (R192). `act` answers the detail of a refusal, or the new state and the detail; `pre` reads the record that it tests. -/
def State.qcCommand (s : State) (f : Fn) (q : Fin 128) (op target mask : Nat)
    (act : Nat → State → Except Nat (State × Nat)) (pre : Nat → State → State := fun _ s => s) : State :=
  s.ingress f q (fun s =>
    let sk := setKey f q.val
    if (s.qc sk).busy then s.setQc sk { s.qc sk with goReject := true }
    else
      let s := pre sk (s.setQc sk { s.qc sk with op := op, target := target, mask := mask })
      match act sk s with
      | .ok (s, detail) => s.qcEnd sk stOK detail
      | .error detail => s.qcEnd sk stFORMAT detail)

def dtSTATE : Nat := 0x01
def dtRECORD : Nat := 0x02
def dtRING_ABSENT : Nat := 0x03
def dtRING_IN_USE : Nat := 0x04
def dtPOLL_LIMIT : Nat := 0x05
def dtWATCHED : Nat := 0x06
def dtNO_CONTEXT : Nat := 0x07
def dtARG : Nat := 0x08
def dtNOT_CACHED : Nat := 0x10
def dtDISCARDED : Nat := 0x11
def dtSTARTED : Nat := 0x12

/-- A queue record is valid (R161): its fields are in range and its device-owned words are 0. -/
def queueRecordOk (r : BitVec 512) : Bool :=
  ef r 0 12 == 0 && ef r 57 7 == 0 && 6 ≤ ef r 64 8 && ef r 64 8 ≤ 20 && ef r 72 8 ≤ 2 && ef r 83 5 == 0 &&
  ef r 88 8 == 0 && 250 ≤ ef r 96 32 && ef r 96 32 ≤ 1000000 && ef r 128 6 == 0 &&
  ef r 192 64 == 0 && ef r 256 256 == 0

/-- The queue that a valid record describes, in READY, of the function's polder (R100, R166). -/
def queueOfRecord (r : BitVec 512) (polder now : Nat) : WQueue :=
  { st := .ready, type := ef r 72 8, flushDone := false, errStatus := 0, errWorkId := 0, errIndex := 0,
    base := ef r 0 57, log2 := ef r 64 8, cq := ef r 80 2, poll := ef r 82 1 == 1, interval := ef r 96 32,
    indexAddr := ef r 128 64, polder := polder, next := 0, producer := 0, consumer := 0, cache := [], asked := [], idxOut := false,
    idxMerged := false, retrySlot := 0, retries := 0, retryAt := 0, ops := [], pollAt := 0, resid := .held, lastUse := now }

/-- CREATE_QUEUE (R193): the record read from the context block, or `none` where the read was poisoned (R608). -/
def State.createQueue (k : Nat) (f : Fn) (rec : Option (BitVec 512)) (sk : Nat) (s : State) : Except Nat (State × Nat) :=
  let key := qKey sk k
  if s.qState key ≠ .reset then .error dtSTATE
  else if s.context sk = 0 then .error dtNO_CONTEXT
  else match rec with
    | none => .error dtRECORD
    | some r =>
      if !queueRecordOk r then .error dtRECORD
      else if (s.ring (ringKey sk (ef r 80 2))).isNone then .error dtRING_ABSENT
      else
        let q := queueOfRecord r ((s.polderOf f).getD 0) s.now
        .ok (((s.setQueue key q).hwrite f (q.indexAddr + 32) false (leBytes 4 0)).qscEvict (fnDie f) key, 0)

/-- The queue record is read where the command's first tests hold. -/
def State.readQueueRec (k : Nat) (f : Fn) (sk : Nat) (s : State) : State :=
  s.when (s.qState (qKey sk k) == .reset && s.context sk != 0) (fun s => s.hread f (s.queueRec (qKey sk k)) 64)

def execCreateQueue (f : Fn) (q : Fin 128) (c : QcArgs) (rec : Option (BitVec 512)) (s : State) :
    Host.Outcome State Fault Refusal :=
  .next (s.qcCommand f q 1 c.target.val c.mask.toNat (State.createQueue c.target.val f rec) (State.readQueueRec c.target.val f))

/-- ACTIVE polled queues of a die (R170). -/
def State.polledOn (s : State) (d : Die) : Nat :=
  (s.queues.filter (fun p => setDie (p.1 / 8) == d && p.2.poll && p.2.st == .active)).length

/-- START (R170, R178, R193). -/
def State.startQueue (k sk : Nat) (s : State) : Except Nat (State × Nat) :=
  let key := qKey sk k
  match s.queue key with
  | none => .error dtSTATE
  | some q =>
    if q.st ≠ .ready then .error dtSTATE
    else if q.poll ∧ 4096 ≤ s.polledOn (setDie sk) then .error dtPOLL_LIMIT
    else .ok (((s.setQueue key { q with st := .active, pollAt := s.now }).touchQueue key |>.indexRead key).advance key, 0)

def execStart (f : Fn) (q : Fin 128) (c : QcArgs) (s : State) : Host.Outcome State Fault Refusal :=
  .next (s.qcCommand f q 2 c.target.val c.mask.toNat (State.startQueue c.target.val))

/-- STOP (R178): DRAINING, or READY at once when no started entry is outstanding. -/
def State.stopQueue (k sk : Nat) (s : State) : Except Nat (State × Nat) :=
  let key := qKey sk k
  match s.queue key with
  | none => .error dtSTATE
  | some q =>
    if q.st ≠ .active then .error dtSTATE
    else
      let idle := q.ops.all (fun i => match s.op i with | some o => o.stage == .waiting | none => true)
      .ok (s.setQueue key { q with st := if idle then .ready else .draining }, 0)

def execStop (f : Fn) (q : Fin 128) (c : QcArgs) (s : State) : Host.Outcome State Fault Refusal :=
  .next (s.qcCommand f q 3 c.target.val c.mask.toNat (State.stopQueue c.target.val))

/-- Take a queue back to RESET: its unstarted entries are left unreported (R178). -/
def State.dropQueue (s : State) (key : Nat) : State :=
  let s := { s with ops := s.ops.filter (fun p => p.2.q != key) }
  ({ s with queues := tdel s.queues key }).trigUpdate key

/-- RESET_QUEUE (R178, R193). A posted receive of the queue is withdrawn (08_matching.md R260). -/
def State.resetQueue (k sk : Nat) (s : State) : Except Nat (State × Nat) :=
  let key := qKey sk k
  match s.queue key with
  | none => .error dtSTATE
  | some q =>
    if q.st = .ready ∨ (q.st = .error ∧ q.flushDone) then .ok (s.dropQueue key, 0) else .error dtSTATE

/-- A ring record is valid (R161). MSIX_VECTOR is checked only when MSIX_EN is 1: below 256 for a PF, below 130 for any
other function (05_host_ports.md R127). -/
def ringRecordOk (f : Fn) (r : BitVec 256) : Bool :=
  let g := fun lo w => r.toNat / 2 ^ lo % 2 ^ w
  g 0 12 == 0 && g 57 7 == 0 && 6 ≤ g 64 8 && g 64 8 ≤ 24 && g 73 7 == 0 &&
  (g 72 1 == 0 || g 80 16 < (if f.fn.val = 0 then 256 else 130)) && g 96 32 == 0 && g 128 128 == 0

/-- CREATE_RING (R193). -/
def State.createRing (t : Nat) (f : Fn) (rec : Option (BitVec 256)) (sk : Nat) (s : State) : Except Nat (State × Nat) :=
  if 3 < t then .error dtARG
  else if (s.ring (ringKey sk t)).isSome then .error dtSTATE
  else if s.context sk = 0 then .error dtNO_CONTEXT
  else match rec with
    | none => .error dtRECORD
    | some r =>
      if !ringRecordOk f r then .error dtRECORD
      else
        let g := fun lo w => r.toNat / 2 ^ lo % 2 ^ w
        let r : CRing := { base := g 0 57, log2 := g 64 8, msixEn := g 72 1 == 1, vector := g 80 16, written := 0,
                           consumed := 0, reserved := 0, armed := false, resid := .held }
        .ok ({ s with rings := tput s.rings (ringKey sk t) r }, 0)

/-- The ring record is read where the command's first tests hold. -/
def State.readRingRec (t : Nat) (f : Fn) (sk : Nat) (s : State) : State :=
  s.when (t ≤ 3 && (s.ring (ringKey sk t)).isNone && s.context sk != 0) (fun s => s.hread f (s.ringRec (ringKey sk t)) 32)

def execCreateRing (f : Fn) (q : Fin 128) (c : QcArgs) (rec : Option (BitVec 256)) (s : State) :
    Host.Outcome State Fault Refusal :=
  .next (s.qcCommand f q 5 c.target.val c.mask.toNat (State.createRing c.target.val f rec) (State.readRingRec c.target.val f))

/-- DESTROY_RING (R193): refused while a queue out of RESET names the ring. -/
def State.destroyRing (t sk : Nat) (s : State) : Except Nat (State × Nat) :=
  if 3 < t then .error dtARG
  else if (s.ring (ringKey sk t)).isNone then .error dtSTATE
  else if s.queues.any (fun p => p.1 / 8 == sk && p.2.cq == t) then .error dtRING_IN_USE
  else
    let rk := ringKey sk t
    let s := s.modDie (setDie sk) (fun x => { x with rma := { x.rma with
      res := x.rma.res.map (fun r => if r.ring = rk then { r with gone := true } else r)
      events := x.rma.events.map (fun e => match e.note with | some n => if n.1 = rk then { e with note := none } else e | none => e) } })
    .ok ({ s with rings := tdel s.rings rk }, 0)

def execDestroyRing (f : Fn) (q : Fin 128) (c : QcArgs) (s : State) : Host.Outcome State Fault Refusal :=
  .next (s.qcCommand f q 6 c.target.val c.mask.toNat (State.destroyRing c.target.val))

/-- RESET_COUNTERS (R183): only while every TRIGGERED queue of the set is in RESET. -/
def State.resetCounters (mask sk : Nat) (s : State) : Except Nat (State × Nat) :=
  if s.queues.any (fun p => p.1 / 8 == sk && p.2.type == 2) then .error dtWATCHED
  else .ok ({ s with ctrs := s.ctrs.map (fun p =>
    if p.1 / 16 = sk ∧ bitOf mask (p.1 % 16) then (p.1, { ctrZero with dirty := true, recAt := p.2.recAt }) else p) }, 0)

def execResetCounters (f : Fn) (q : Fin 128) (c : QcArgs) (s : State) : Host.Outcome State Fault Refusal :=
  .next (s.qcCommand f q 7 c.target.val c.mask.toNat (State.resetCounters c.mask.toNat))

/-- An operation of a queue covers slot count `slot`. -/
def coversSlot (o : WOp) (slot : Nat) : Bool := o.index == slot || (eExt o.entry && add32 o.index 1 == slot)

/-- INVALIDATE (R171): a cached copy, or a read entry that has not started, is removed and will be read again; an entry that has started
is reported STARTED. A read of the slot that is on its way may be older than the new entry, and is not used. -/
def State.invalidateSlot (k sk : Nat) (s : State) : Except Nat (State × Nat) :=
  let key := qKey sk k
  let slot := (s.qc sk).slot
  match s.queue key with
  | none => .error dtSTATE
  | some q =>
    if q.st = .error then .error dtSTATE
    else
      let q := { q with asked := q.asked.map (fun a => if a.1 = slot then (a.1, true) else a) }
      let s := s.setQueue key q
      if (tget q.cache slot).isSome then .ok ((s.setQueue key { q with cache := tdel q.cache slot }).pumpQueue key, dtDISCARDED)
      else match q.ops.find? (fun i => match s.op i with | some o => coversSlot o slot | none => false) with
        | none => .ok (s.pumpQueue key, if sub32 q.next slot ≤ 2 ^ q.log2 ∧ slot ≠ q.next then dtSTARTED else dtNOT_CACHED)
        | some i => match s.op i with
          | none => .ok (s, dtNOT_CACHED)
          | some o =>
            if o.stage ≠ .waiting then .ok (s, dtSTARTED)
            else .ok ((s.dropFrom key i (· != slot)).pumpQueue key, dtDISCARDED)

def execInvalidate (f : Fn) (q : Fin 128) (c : QcArgs) (s : State) : Host.Outcome State Fault Refusal :=
  .next (s.qcCommand f q 8 c.target.val c.mask.toNat (State.invalidateSlot c.target.val))

/-! ## Reads that return, and timers -/

/-- The index record of a queue has been read: PRODUCER, or `none` for a poisoned read (R166, R608). A PRODUCER behind the entries already
taken posts nothing. -/
def State.indexSeen (s : State) (k : Nat) (producer : Option W32) : State :=
  match s.queue k with
  | none => s
  | some q =>
    if !q.idxOut then s else
    let again := q.idxMerged
    let q := { q with idxOut := false, idxMerged := false }
    let s := s.setQueue k q
    let bad := match producer with | none => true | some p => 2 ^ q.log2 < sub32 p.toNat q.consumer
    let p := (producer.getD 0).toNat
    let s :=
      if q.st = .ready ∨ q.st = .draining then s
      else if bad then s.addBad k q 0
      else if sub32 p q.next ≤ 2 ^ q.log2 then s.setQueue k { q with producer := p } else s
    s.when (again && (q.st == .active || q.st == .error)) (fun s => s.indexRead k)

/-- Reads of a queue return: of its index record, and of slots. -/
def State.indexReturn (s : State) (k : Nat) (idx : IndexRet) (slots : List (W32 × Option (BitVec 512))) : State :=
  let s := slots.foldl (fun s p => s.keepSlot k p.1.toNat p.2) s
  let s := match idx with
    | .record p => s.indexSeen k (some p)
    | .poisoned => s.indexSeen k none
    | .slotsOnly => s
  s.pumpQueue k

/-- A slot is re-read 100 ns after its PHASE mismatched (R169). -/
def State.phaseRetry (s : State) (k : Nat) (slot : Nat) (data : Option (BitVec 512)) : State :=
  match s.queue k with
  | none => s
  | some q =>
    if q.retryAt = 0 ∨ s.now < q.retryAt ∨ slot ≠ q.retrySlot ∨ s.fnClosed (setFn (k / 8)) = true then s
    else
      let s := (s.bump (setDie (k / 8)) WQU.PHASE_RETRIES.COUNT).hread (setFn (k / 8)) (q.base + slot % 2 ^ q.log2 * 64) 64
      (s.setQueue k { q with retries := q.retries + 1, retryAt := 0, cache := tput q.cache slot data }).pumpQueue k

/-- The least time between two polls of a queue: its interval less the 10 % allowed, or the die's poll rate (R170). -/
def State.pollGap (s : State) (q : WQueue) (d : Die) : Nat :=
  max (q.interval * 9 / 10) (s.polledOn d * 1000 / max 1 (s.rd d WQU.POLL_CFG.MAX_RATE))

/-- POLL_TIMER (06_work_queues.md R170). -/
def execPollTimer (f : Fn) (q : Fin 128) (k : Fin 8) (s : State) : Host.Outcome State Fault Refusal :=
  let key := qKey (setKey f q.val) k.val
  .next (match s.queue key with
    | none => s
    | some w =>
      if w.st = .active ∧ w.poll ∧ w.pollAt + s.pollGap w (fnDie f) ≤ s.now then
        (s.setQueue key { w with pollAt := s.now }).touchQueue key |>.indexRead key
      else s)

/-- A record that was being read back returns, and passes its check or not (R163). -/
def State.reloadRecord (s : State) (sk : Nat) (obj : RecordKind) (data : Option (BitVec 512)) : State :=
  let d := setDie sk
  match obj with
  | .queue k =>
    let k := qKey sk k.val
    match s.queue k with
    | some q =>
      if q.resid ≠ .reading then s else
      let s := ((s.bump d WQU.QSC_MISSES.COUNT).event d 13 none).setQueue k { q with resid := .held }
      if s.recordOk d 64 data then s.qscEvict d k else s.setFail sk stFORMAT
    | none => s
  | .ring r =>
    let k := ringKey sk r.val
    match s.ring k with
    | some g =>
      if g.resid ≠ .reading then s else
      let s := s.modRing k (fun g => { g with resid := .held })
      if s.recordOk d 32 data then s else s.setFail sk stFORMAT
    | none => s
  | .counter c =>
    let k := ctrKey sk c.val
    let v := s.counter k
    if v.resid ≠ .reading then s else
    let s := { ((s.bump d WQU.CTR_MISSES.COUNT).event d 13 none) with ctrs := tput s.ctrs k { v with resid := .held } }
    if s.recordOk d 64 data then s.ctrEvict d k else s.setFail sk stFORMAT

/-- RECORD_RELOAD (06_work_queues.md R163, R608): a record is read back, and its keyed check made; `none` is a poisoned read. -/
def execRecordReload (f : Fn) (q : Fin 128) (obj : RecordKind) (data : Option (BitVec 512)) (s : State) :
    Host.Outcome State Fault Refusal :=
  .next (s.reloadRecord (setKey f q.val) obj data)

/-- TRIGGERED_HEAD_START (06_work_queues.md R185): for a head that the trigger table holds. -/
def execTriggeredHeadStart (f : Fn) (q : Fin 128) (k : Fin 8) (s : State) : Host.Outcome State Fault Refusal :=
  let key := qKey (setKey f q.val) k.val
  .next (if (s.die (fnDie f)).trig.contains key then s.startHead key else s)

/-- Sweep the heads that the trigger table does not hold; each one started is counted (R187). -/
def State.sweep (s : State) (d : Die) : State :=
  (s.queues.filter (fun p => setDie (p.1 / 8) == d && p.2.type == 2 && !(s.die d).trig.contains p.1)).foldl
    (fun s p =>
      let t := (s.startHead p.1).prefetch p.1
      if t.rd d WQU.ENTRIES_STARTED.COUNT = s.rd d WQU.ENTRIES_STARTED.COUNT then s
      else t.bump d WQU.TRIG_SWEEPS.COUNT) s

/-- TRIGGER_SWEEP (06_work_queues.md R187): every 10 µs. -/
def execTriggerSweep (d : Die) (s : State) : Host.Outcome State Fault Refusal :=
  .next (if (s.die d).sweepAt + us 10 ≤ s.now ∨ (s.die d).sweepAt = 0
    then (s.sweep d).modDie d (fun x => { x with sweepAt := s.now }) else s)

/-- NOP (06_work_queues.md R164): a started NOP entry ends OK with byte count 0. -/
def execNop (i : Nat) (s : State) : Host.Outcome State Fault Refusal :=
  .next (match s.op i with
    | some o => if o.stage = .started ∧ eOpcode o.entry = 0x00 then s.endOp i stOK 0 else s
    | none => s)

/-- COUNTER_ADD (06_work_queues.md R164): adds its operand to COUNT of a counter of its set, and ends OK. -/
def execCounterAdd (i : Nat) (s : State) : Host.Outcome State Fault Refusal :=
  .next (match s.op i with
    | some o =>
      if o.stage = .started ∧ eOpcode o.entry = 0x01 then
        (s.ctrAdd (ctrKey (o.q / 8) (ef o.entry 128 4)) (ef o.entry 192 64)).endOp i stOK 0
      else s
    | none => s)

/-- COUNTER_RECORD_WRITE (06_work_queues.md R184): a changed counter is written to its record, at most once per 200 ns, but for a
closed polder, whose changes are held (log entry 142). -/
def execCounterRecordWrite (f : Fn) (q : Fin 128) (c : Fin 16) (s : State) : Host.Outcome State Fault Refusal :=
  let sk := setKey f q.val
  let k := ctrKey sk c.val
  let v := s.counter k
  .next (if v.dirty ∧ s.context sk ≠ 0 ∧ s.fnClosed f = false ∧ (v.recAt = 0 ∨ v.recAt + 200 ≤ s.now) then
      ({ s with ctrs := tput s.ctrs k { v with dirty := false, recAt := s.now } }).hwrite f
        (s.context sk + 0x300 + 64 * c.val) false (counterBytes v)
    else s)

/-- A write of FN_SETS.SETS (R195): refused above 128, or when it would remove a set with a queue out of RESET or a ring;
a refusal is counted in CFG_REJECT_COUNT. -/
def State.writeFnSets (s : State) (f : Fn) (n : Nat) : State :=
  let d := fnDie f
  let used := s.queues.any (fun p => setFn (p.1 / 8) == f && n ≤ p.1 / 8 % 128) ||
    s.rings.any (fun p => setFn (p.1 / 4) == f && n ≤ p.1 / 4 % 128)
  if 128 < n ∨ used then
    (s.bump d (HDR.CFG_REJECT_COUNT.COUNT 0x400000)).wr d (HDR.STATUS.CFG_REJECT 0x400000) 1
  else s.wr d (WQU.FN_SETS.SETS (fnIdx f)) n

/-- FN_SETS_WRITE (06_work_queues.md R195): the field is RWW. -/
def execFnSetsWrite (rq : Requester) (f : Fn) (sets : Byte) (s : State) : Host.Outcome State Fault Refusal :=
  .next (if !s.barUp rq then s else if s.privileged rq then s.writeFnSets f sets.toNat
    else s.privViolation rq 0 ((fnDie f).base + (WQU.FN_SETS.SETS (fnIdx f)).off))

end Sys2Proof.Machine
end

