-- ==== Sys2Proof/Machine/Polders.lean ====
section
/-! DEFINITION. The polder table and the PT commands (04_polders.md R102 to R121). -/

namespace Sys2Proof.Machine

/-! ## Detail codes of R119 -/

def ptID_RESERVED : Nat := 0x01
def ptEXISTS : Nat := 0x02
def ptNOT_RESIDENT : Nat := 0x03
def ptFUNCTION_INVALID : Nat := 0x04
def ptFUNCTION_BOUND : Nat := 0x05
def ptOBJECTS_LIVE : Nat := 0x06
def ptPOLDER_BOUND : Nat := 0x07
def ptATTR_RANGE : Nat := 0x08
def ptWINDOW_OVERLAP : Nat := 0x09
def ptWINDOW_RANGE : Nat := 0x0A
def ptTABLE_FULL : Nat := 0x0B

/-! ## Running a command -/

/-- End a PT command: DONE, CODE and DETAIL (R119). -/
def State.ptEnd (s : State) (d : Die) (code detail : Nat) : State :=
  s.wrs d [(DIKE.PT_STATUS.BUSY, 0), (DIKE.PT_STATUS.DONE, 1), (DIKE.PT_STATUS.CODE, code), (DIKE.PT_STATUS.DETAIL, detail)]

/-- A write of PT_CMD with GO set (R117): a privileged requester's command runs with the argument registers as they stand;
a GO while BUSY is ignored and sets GO_REJECT. `act` answers CODE and DETAIL of a refusal, or the new state. -/
def State.ptCommand (s : State) (rq : Requester) (d : Die) (op : Nat)
    (act : State → Except (Nat × Nat) State) : State :=
  if !s.barUp rq then s
  else if !s.privileged rq then s.privViolation rq 0 (d.base + DIKE.PT_CMD.OP.off)
  else if s.on d DIKE.PT_STATUS.BUSY then s.wr d DIKE.PT_STATUS.GO_REJECT 1
  else
    let s := s.wr d DIKE.PT_CMD.OP op
    match act s with
    | .ok s => s.ptEnd d stOK 0
    | .error (c, t) => s.ptEnd d c t

/-- A command's polder must not be polder 0 (R119). -/
def ptNamed (id : Nat) (k : Except (Nat × Nat) State) : Except (Nat × Nat) State :=
  if id = 0 then .error (stFORMAT, ptID_RESERVED) else k

/-- The polder a PT command names. -/
def State.ptPolder (s : State) (d : Die) : Nat := s.rd d DIKE.PT_POLDER.ID

/-- A command on a polder resident on the die; PT_STATUS.INDEX names its entry. -/
def State.ptResident (s : State) (d : Die) (act : Nat → Polder → State → Except (Nat × Nat) State) :
    Except (Nat × Nat) State :=
  ptNamed (s.ptPolder d) (match s.polder? d (s.ptPolder d) with
    | none => .error (stFORMAT, ptNOT_RESIDENT)
    | some (i, p) => act i p (s.wr d DIKE.PT_STATUS.INDEX i))

def State.setPolder (s : State) (d : Die) (i : Nat) (p : Polder) : State :=
  s.modDie d (fun x => { x with polders := tput x.polders i p })

/-- HOLD_TIMEOUT_US and BW_WEIGHT lie in range (R104). -/
def attrOk (arg : Nat) : Bool :=
  let t := bitsOf arg 0 10
  let w := bitsOf arg 16 8
  decide (1 ≤ t ∧ t ≤ 1000 ∧ 1 ≤ w)

/-- Give registers back their reset values. -/
def State.clr (s : State) (d : Die) (l : List Fld) : State := l.foldl (fun s f => s.wr d f f.rst) s

/-- Return a sluice entry to its reset values (13_switch_core.md R443), and zero its polder counters and VIEW
(18_counters.md R562). -/
def State.resetEntry (s : State) (d : Die) (i : Nat) : State :=
  let s := s.clr d [SL.SL_WEIGHT.WEIGHT i, SL.SHAPE_RATE.MBPS i, SL.SHAPE_BURST.BYTES i, SL.POLICE_CIR.MBPS i,
    SL.POLICE_CIR.ENABLE i, SL.POLICE_CBS.BYTES i, SL.POLICE_PIR.MBPS i, SL.POLICE_PBS.BYTES i, SL.SL_STATE.CREDIT i,
    PCU.PC_CTRL.VIEW i]
  let s := s.clr d ((List.range 6).map (PCU.PC_CTR.COUNT i))
  s.modDie d (fun x => { x with sluice := { x.sluice with meters := tdel x.sluice.meters i } })

/-! ## REGISTER and DEREGISTER -/

/-- REGISTER (R103, R104, R118): a free entry becomes OPEN with the attributes given, no bindings and no windows, and the
matching seed is drawn. The lowest free entry is taken (log entry 22). -/
def State.ptRegisterAct (d : Die) (s : State) : Except (Nat × Nat) State :=
  let id := s.ptPolder d
  let arg := s.rd d DIKE.PT_ARG0.ARG
  ptNamed id (
    if (s.polder? d id).isSome then .error (stFORMAT, ptEXISTS)
    else match freeKey (s.die d).polders (s.rd d DIKE.PT_CAPACITY.ENTRIES) 0 with
      | none => .error (stTABLE_FULL, ptTABLE_FULL)
      | some i =>
        if !attrOk arg then .error (stFORMAT, ptATTR_RANGE)
        else .ok (s.draw (fun n s =>
          ((s.setPolder d i { id := id, closed := false, bound := [], holdTimeout := bitsOf arg 0 10,
                              weight := bitsOf arg 16 8, windows := [], seed := n }).resetEntry d (i + 1)).wr d
            DIKE.PT_STATUS.INDEX i)))

/-- REGISTER (04_polders.md R118). -/
def execPtRegister (rq : Requester) (d : Die) (s : State) : Host.Outcome State Fault Refusal :=
  .next (s.ptCommand rq d 1 (State.ptRegisterAct d))

/-- DEREGISTER (04_polders.md R118): only with no function bound. -/
def execPtDeregister (rq : Requester) (d : Die) (s : State) : Host.Outcome State Fault Refusal :=
  .next (s.ptCommand rq d 2 (fun s => s.ptResident d (fun i p s =>
    if !p.bound.isEmpty then .error (stFORMAT, ptPOLDER_BOUND)
    else .ok ((s.modDie d (fun x => { x with polders := tdel x.polders i })).resetEntry d (i + 1)))))

/-! ## CLOSE and OPEN -/

/-- Set the state of a polder wherever it is resident. -/
def State.setClosed (s : State) (id : Nat) (c : Bool) : State :=
  [Die.a, Die.b].foldl (fun s d => match s.polder? d id with
    | some (i, p) => s.setPolder d i { p with closed := c }
    | none => s) s

/-- Resident on either die (R118). -/
def State.residentAny (s : State) (id : Nat) : Bool := (s.polder? .a id).isSome || (s.polder? .b id).isSome

/-- Quarantine a polder at every dike point of both dies (R113), and move its queues to ERROR (R114). -/
def State.closePolder (s : State) (id : Nat) : State := (s.setClosed id true).polderQueuesFail id

/-- Run CLOSE or OPEN through the PT registers, or on the SVC's own path, which changes no PT register (R116). -/
def State.ptOpenClose (s : State) (via : PtVia) (op : Nat) (act : Nat → State → State) : State :=
  match via with
  | .svc id => if s.residentAny id.toNat && id != 0 then act id.toNat s else s
  | .pt rq d => s.ptCommand rq d op (fun s =>
      let id := s.ptPolder d
      ptNamed id (
        if !s.residentAny id then .error (stFORMAT, ptNOT_RESIDENT)
        else
          let s := match s.polder? d id with | some (i, _) => s.wr d DIKE.PT_STATUS.INDEX i | none => s
          .ok (act id s)))

/-- CLOSE (04_polders.md R113, R114, R116). -/
def execPtClose (via : PtVia) (s : State) : Host.Outcome State Fault Refusal :=
  .next (s.ptOpenClose via 3 (fun id s => s.closePolder id))

/-- OPEN (04_polders.md R115, R116): queues in ERROR stay there. -/
def execPtOpen (via : PtVia) (s : State) : Host.Outcome State Fault Refusal :=
  .next (s.ptOpenClose via 4 (fun id s => s.setClosed id false))

/-! ## BIND and UNBIND -/

/-- The function named by PT_ARG0. -/
def argFn (arg : Nat) : Fn := ⟨⟨bitsOf arg 8 2, Nat.mod_lt _ (by decide)⟩, ⟨bitsOf arg 0 8, Nat.mod_lt _ (by decide)⟩⟩

/-- The function is enabled: the PF, one of the enabled VFs, or the secondary function of a bifurcated port (R119;
05_host_ports.md R125, R126). -/
def State.fnEnabled (s : State) (f : Fn) : Bool :=
  let p := s.hp f.hp
  f.fn.val == 0 || decide (f.fn.val ≤ p.numVfs) || (p.bifurcated && f.fn.val == 128)

/-- A function is bound to some tenant polder, or is a warden. -/
def State.fnTaken (s : State) (f : Fn) : Bool := (s.polderOf f).isSome

def execPtBind (rq : Requester) (d : Die) (s : State) : Host.Outcome State Fault Refusal :=
  .next (s.ptCommand rq d 5 (fun s => s.ptResident d (fun i p s =>
    let f := argFn (s.rd d DIKE.PT_ARG0.ARG)
    if fnDie f ≠ d then .error (stFORMAT, ptFUNCTION_INVALID)
    else if !s.hpPresent f.hp.val then .error (stABSENT, 0)
    else if !s.fnEnabled f then .error (stFORMAT, ptFUNCTION_INVALID)
    else if s.fnTaken f then .error (stFORMAT, ptFUNCTION_BOUND)
    else .ok ((s.setPolder d i { p with bound := setInsert p.bound (fnIdx f) }).wrs d
      [(DIKE.FN_POLDER.POLDER (fnIdx f), p.id), (DIKE.FN_POLDER.BOUND (fnIdx f), 1)]))))

/-- A queue of the function is out of RESET, or a key, region or quadrille of it exists (R118). -/
def State.objectsLive (s : State) (f : Fn) : Bool :=
  s.queues.any (fun q => setFn (q.1 / 8) == f) ||
  (s.die (fnDie f)).xlu.regions.any (fun r => r.2.live && r.2.owner == f) ||
  (s.die (fnDie f)).members.any (fun m => m.2.fn == f)

/-- Remove a function's binding (R101). -/
def State.unbind (s : State) (d : Die) (i : Nat) (p : Polder) (f : Fn) : State :=
  (s.setPolder d i { p with bound := p.bound.filter (· != fnIdx f) }).wrs d
    [(DIKE.FN_POLDER.POLDER (fnIdx f), 0), (DIKE.FN_POLDER.BOUND (fnIdx f), 0)]

/-- UNBIND (04_polders.md R118, R119): its first condition is that the function is bound to the polder, so a polder that is not resident
is refused with FUNCTION_BOUND too. -/
def execPtUnbind (rq : Requester) (d : Die) (s : State) : Host.Outcome State Fault Refusal :=
  .next (s.ptCommand rq d 6 (fun s => ptNamed (s.ptPolder d) (
    let f := argFn (s.rd d DIKE.PT_ARG0.ARG)
    match s.polder? d (s.ptPolder d) with
    | none => .error (stFORMAT, ptFUNCTION_BOUND)
    | some (i, p) =>
      if fnDie f ≠ d ∨ !p.bound.contains (fnIdx f) then .error (stFORMAT, ptFUNCTION_BOUND)
      else if s.objectsLive f then .error (stFORMAT, ptOBJECTS_LIVE)
      else .ok ((s.wr d DIKE.PT_STATUS.INDEX i).unbind d i p f))))

/-! ## SET_WINDOW, SET_ATTR, READ -/

/-- The window that PT_ARG0 and PT_ARG1 describe (R118). -/
def argWindow (a0 a1 : Nat) : Window :=
  { pages := bitsOf a0 16 16, devPage := bitsOf a1 0 16, barPage := bitsOf a1 16 16, hostR := bitOf a0 4,
    hostW := bitOf a0 5, hold := bitOf a0 6, net := bitOf a0 7 }

/-- The window's device pages are present and outside the device regions, and its BAR2 pages lie in a PF's BAR2 (R110). -/
def State.windowRange (s : State) (w : Window) : Bool :=
  w.pages == 0 ||
  (decide (w.barPage + w.pages ≤ 65536) &&
   decide ((w.devPage + w.pages) * page ≤ 2 * dieSpan s.part) &&
   [Die.a, Die.b].all (fun d =>
     decide ((w.devPage + w.pages) * page ≤ s.regionBase d) || decide (s.regionBase d + gib4 ≤ w.devPage * page)))

def windowsMeet (a b : Window) : Bool :=
  a.pages != 0 && b.pages != 0 && decide (a.devPage < b.devPage + b.pages) && decide (b.devPage < a.devPage + a.pages)

/-- The window overlaps a window of another polder on either die (R110). -/
def State.windowOverlap (s : State) (id : Nat) (w : Window) : Bool :=
  [Die.a, Die.b].any (fun d => (s.die d).polders.any (fun p => p.2.id != id && p.2.windows.any (fun v => windowsMeet w v.2)))

/-- SET_WINDOW (04_polders.md R110, R111). A window with PAGES = 0 is unused, and keeps its other fields for READ. -/
def execPtSetWindow (rq : Requester) (d : Die) (s : State) : Host.Outcome State Fault Refusal :=
  .next (s.ptCommand rq d 7 (fun s => s.ptResident d (fun i p s =>
    let a0 := s.rd d DIKE.PT_ARG0.ARG
    let w := argWindow a0 (s.rd d DIKE.PT_ARG1.ARG)
    let k := bitsOf a0 0 3
    if !s.windowRange w then .error (stPROTECTION, ptWINDOW_RANGE)
    else if s.windowOverlap p.id w then .error (stPROTECTION, ptWINDOW_OVERLAP)
    else .ok (s.setPolder d i { p with windows := tput p.windows k w }))))

/-- SET_ATTR (04_polders.md R118). -/
def execPtSetAttr (rq : Requester) (d : Die) (s : State) : Host.Outcome State Fault Refusal :=
  .next (s.ptCommand rq d 8 (fun s => s.ptResident d (fun i p s =>
    let a := s.rd d DIKE.PT_ARG0.ARG
    if !attrOk a then .error (stFORMAT, ptATTR_RANGE)
    else .ok (s.setPolder d i { p with holdTimeout := bitsOf a 0 10, weight := bitsOf a 16 8 }))))

/-- HP_MASK of an entry: bit h set while a function of the die's h-th host port is bound (R104). -/
def hpMask (p : Polder) : Nat := b2n (p.bound.any (· < 256)) + 2 * b2n (p.bound.any (256 ≤ ·))

/-- Results of READ (R118). -/
def readResult (p : Polder) (sel : Nat) : Nat × Nat :=
  if sel = 0 then ((if p.closed then 2 else 1) + hpMask p * 2 ^ 4 + p.bound.length * 2 ^ 16,
                   p.holdTimeout + p.weight * 2 ^ 16)
  else match tget p.windows (sel - 1) with
    | some w => ((sel - 1) + b2n w.hostR * 2 ^ 4 + b2n w.hostW * 2 ^ 5 + b2n w.hold * 2 ^ 6 + b2n w.net * 2 ^ 7 + w.pages * 2 ^ 16,
                 w.devPage + w.barPage * 2 ^ 16)
    | none => (sel - 1, 0)

/-- READ (04_polders.md R118, R119). -/
def execPtRead (rq : Requester) (d : Die) (s : State) : Host.Outcome State Fault Refusal :=
  .next (s.ptCommand rq d 9 (fun s => s.ptResident d (fun _ p s =>
    let sel := bitsOf (s.rd d DIKE.PT_ARG0.ARG) 0 4
    if 8 < sel then .error (stFORMAT, ptATTR_RANGE)
    else
      let r := readResult p sel
      .ok (s.wrs d [(DIKE.PT_RESULT0.DATA, r.1), (DIKE.PT_RESULT1.DATA, r.2)]))))

end Sys2Proof.Machine
end

