-- ==== Sys2Proof/Machine/Xlu.lean ====
section
/-! DEFINITION. Memory keys, regions, address translation and invalidation, and the commands of 07_translation.md. -/

namespace Sys2Proof.Machine

def State.xlu (s : State) (d : Die) : Xlu := (s.die d).xlu
def State.modXlu (s : State) (d : Die) (f : Xlu → Xlu) : State := s.modDie d (fun x => { x with xlu := f x.xlu })

/-! ## Fault reasons (R216) -/

def xKEY : Nat := 1
def xRIGHTS : Nat := 2
def xRANGE : Nat := 3
def xNOT_PRESENT : Nat := 4
def xPTE_RIGHTS : Nat := 5
def xPTE_FORMAT : Nat := 6
def xATS_REFUSED : Nat := 7
def xWINDOW : Nat := 8
def xPOISON : Nat := 9

/-- Status of a fault at the initiator, or returned by a target (R216). -/
def faultStatus (remote : Bool) (reason : Nat) : Nat :=
  if remote then (if reason = 1 then stREMOTE_KEY else if reason = 3 then stREMOTE_RANGE else stREMOTE_ACCESS)
  else if reason = 3 then stLENGTH else stPROTECTION

/-- Record a fault (R216). A window fault also counts as a failed window check (04_polders.md R120). -/
def State.xFault (s : State) (d : Die) (remote : Bool) (polder key va reason : Nat) : State :=
  let s := s.bump d (if remote then XLU.REMOTE_FAULTS.COUNT else XLU.LOCAL_FAULTS.COUNT)
  let s := s.wrs d [(XLU.LAST_FAULT.POLDER, polder), (XLU.LAST_FAULT.REASON, reason), (XLU.LAST_FAULT.REMOTE, b2n remote),
    (XLU.LAST_FAULT.KEY, key), (XLU.LAST_FAULT_VA.VA, va)]
  if reason = 8 then (s.bump d DIKE.WINDOW_VIOLATIONS.COUNT).wrs d
    [(DIKE.LAST_DROP.POLDER, polder), (DIKE.LAST_DROP.REASON, 8), (DIKE.LAST_DROP.SRC_FEA, 0)] else s

/-! ## Keys (R197, R200, R201) -/

def keyDie (key : Nat) : Die := if bitOf key 31 then .b else .a
def keyIndex (key : Nat) : Nat := bitsOf key 11 20
def keyGen (key : Nat) : Nat := bitsOf key 0 11
def mkKey (d : Die) (index gen : Nat) : Nat := d.num * 2 ^ 31 + index * 2 ^ 11 + gen

/-- The live region a key names on a die. -/
def State.region? (s : State) (d : Die) (key : Nat) : Option Region :=
  if keyDie key ≠ d then none
  else match tget (s.xlu d).regions (keyIndex key) with
    | some r => if r.live && r.gen == keyGen key then some r else none
    | none => none

/-- Rights, by bit of RIGHTS (R198). -/
def rLR : Nat := 0
def rLW : Nat := 1
def rRR : Nat := 2
def rRWR : Nat := 3
def rRA : Nat := 4

/-- A local key of a work entry (R200): the region, or the fault's reason. -/
def State.localKey (s : State) (d : Die) (f : Fn) (key right : Nat) : Except Nat Region :=
  match s.region? d key with
  | none => .error xKEY
  | some r => if r.owner ≠ f then .error xKEY else if !bitOf r.rights right then .error xRIGHTS else .ok r

/-- Offset of an access in its region (R202). -/
def regionOffset (r : Region) (remote : Bool) (addr : Nat) : Option Nat :=
  if remote && r.zeroBased then some addr else if addr < r.vaBase then none else some (addr - r.vaBase)

/-- A remote key of an arriving request (R201), for the host port and polder of its packet. -/
def State.remoteKey (s : State) (d : Die) (hp : Fin 4) (polder key right addr len : Nat) : Except Nat (Region × Nat) :=
  match s.region? d key with
  | none => .error xKEY
  | some r =>
    if r.polder ≠ polder ∨ r.owner.hp ≠ hp then .error xKEY
    else if !bitOf r.rights right then .error xRIGHTS
    else match regionOffset r true addr with
      | none => .error xRANGE
      | some o => if o + len ≤ r.length then .ok (r, o) else .error xRANGE

/-! ## Lookup (R208, R209) -/

/-- Kind of access, for R205: read, write, or atomic, which needs both rights. -/
inductive Acs where
  | rd | wr | at
  deriving DecidableEq, Repr

def acsOk (a : Acs) (r w : Bool) : Bool :=
  match a with | .rd => r | .wr => w | .at => r && w

/-- The port of a function is in ATS mode (R206). -/
def State.atsMode (s : State) (f : Fn) : Bool := bitOf (s.rd (fnDie f) XLU.XLU_CFG.ATS_H) (f.hp.val % 2)

/-- The current tag of a region's translations. -/
def State.tagOf (s : State) (d : Die) (r : Region) : TrTag :=
  if s.atsMode r.owner then .ats (fnIdx r.owner) ((tget (s.xlu d).fnGen (fnIdx r.owner)).getD 0)
  else .space r.space (match tget (s.xlu d).spaces r.space with | some p => p.gen | none => 0)

def trCovers (e : TrEntry) (t : TrTag) (va : Nat) : Bool := e.tag == t && decide (e.va ≤ va) && decide (va < e.va + e.size)

def tagNum : TrTag → Nat
  | .space i g => i * 65536 + g
  | .ats i g => 2 ^ 40 + i * 65536 + g

/-- Slot of a translation in the victim store (R209). -/
def victimSlot (e : TrEntry) : Nat := Config.cacheSet (tagNum e.tag * 2 ^ 64 + e.va) % 2097152

/-- Install a translation in the TLB; the least recently used entry moves to the victim store when the TLB is full (R209). -/
def installTr (x : Xlu) (cap : Nat) (e : TrEntry) : Xlu :=
  let tlb := (x.tlb.filter (fun o => !(o.tag == e.tag && o.va == e.va && o.size == e.size))) ++ [e]
  if tlb.length ≤ max cap 1 then { x with tlb := tlb }
  else match tlb with
    | [] => x
    | h :: t =>
      let v := t.foldl (fun m p => if p.lastUse < m.lastUse then p else m) h
      { x with tlb := tlb.erase v, victim := tput x.victim (victimSlot v) v }

/-- Levels of a space's page tables (R203), and the shift of a level's index. -/
def levelsOf (vaBits : Nat) : Nat := vaBits + 3
def levelShift (l : Nat) : Nat := 12 + 9 * l
def vaBitsOf (v : Nat) : Nat := if v = 0 then 39 else if v = 1 then 48 else if v = 2 then 57 else 64

/-- Host address of the entry that a walk reads at its level. -/
def pteAddr (w : Walk) : Nat := w.table + (w.va / 2 ^ levelShift w.level % 2 ^ 9) * 8

/-- Start a walk at the deepest level that the walk cache supplies (R209). -/
def State.startWalk (s : State) (d : Die) (w : Walk) : State :=
  let x := s.xlu d
  let hit := (x.walkCache.filter (fun e => trCovers e w.tag w.va)).foldl
    (fun (b : Option TrEntry) e => match b with
      | some o => if e.size < o.size then some e else b
      | none => some e) none
  let s := match hit with
    | some e => s.modXlu d (fun x => { x with walkCache := x.walkCache.map (fun o => if o = e then { o with lastUse := s.now } else o) })
    | none => s
  let w := match hit with
    | some e => { w with table := e.target, level := e.level }
    | none => w
  let id := x.nextWalk
  let s := s.modXlu d (fun x => { x with walks := tput x.walks id w, nextWalk := id + 1 })
  let s := s.when (!w.spec) (fun s => s.bump d XLU.WALKS.COUNT)
  s.hread w.owner (pteAddr w) 8

/-- What translation answers: a host address, a device address, a fault, or that the access waits. -/
inductive XRes where
  | host (f : Fn) (addr : Nat) (translated : Bool) (src : TrSrc)
  | dev (addr : Nat)
  | fault (reason : Nat)
  | wait
  deriving DecidableEq, Repr

/-- Send an ATS Translation Request where one may start (R206). -/
def State.startAts (s : State) (d : Die) (r : Region) (va : Nat) (spec : Bool) (key : Nat) (remote : Bool) : State :=
  let x := s.xlu d
  if !s.on d (HDR.CTRL.ENABLE 0x800000) ∨ 64 ≤ (x.ats.filter (fun p => p.2.owner.hp == r.owner.hp && !p.2.fault)).length then s
  else
    let q : AtsReq := ⟨r.owner, va / 4096 * 4096, (tget x.fnGen (fnIdx r.owner)).getD 0, false, key, r.polder, remote, false, spec, []⟩
    ((s.bump d XLU.ATS_REQUESTS.COUNT).modXlu d (fun x =>
      { x with ats := tput x.ats x.nextWalk q, nextWalk := x.nextWalk + 1 })).emit (.atsRequest r.owner (va / 4096 * 4096))

/-- A demand lookup misses: it is counted once, however often it is tried again while it waits (R218). -/
def State.miss (s : State) (d : Die) (polder : Nat) (m : XMiss) : State :=
  if (s.xlu d).missed.contains m then s
  else (((s.bump d XLU.TLB_MISSES.COUNT).event d 9 (some polder))).modXlu d (fun x => { x with missed := x.missed ++ [m] })

/-- A demand lookup is over. -/
def State.missOver (s : State) (d : Die) (m : XMiss) : State :=
  if (s.xlu d).missed.contains m then s.modXlu d (fun x => { x with missed := x.missed.erase m }) else s

/-- What a cached translation gives an access: with U set, its untranslated address (R207). -/
def State.useTr (s : State) (r : Region) (e : TrEntry) (va : Nat) (a : Acs) (key : Nat) : XRes :=
  if acsOk a e.r e.w then
    .host r.owner (if e.untranslated then va else e.target + (va - e.va)) (s.atsMode r.owner && !e.untranslated) ⟨key, some e.tag, va⟩
  else .fault xPTE_RIGHTS

/-- A translation has been used. -/
def usedTr (now : Nat) (a : Acs) (e : TrEntry) : TrEntry := { e with lastUse := now, wrote := e.wrote || a != .rd }

/-- Look a page up: TLB, then victim store; a miss starts a walk or an ATS request where one may start, and waits. -/
def State.lookupPage (s : State) (d : Die) (r : Region) (va : Nat) (a : Acs) (remote : Bool) (key : Nat) : State × XRes :=
  let x := s.xlu d
  let tag := s.tagOf d r
  let m : XMiss := ⟨key, va, remote⟩
  match x.tlb.find? (fun e => trCovers e tag va) with
  | some e => ((s.missOver d m).modXlu d (fun x => { x with tlb := x.tlb.map (fun o => if trCovers o tag va then usedTr s.now a o else o) }),
      s.useTr r e va a key)
  | none =>
    match x.victim.find? (fun p => trCovers p.2 tag va) with
    | some (k, e) =>
      let s := ((s.miss d r.polder m).missOver d m).bump d XLU.VICTIM_HITS.COUNT
      (s.modXlu d (fun x => installTr { x with victim := tdel x.victim k } (s.rd d XLU.TLB_CAP.ENTRIES) (usedTr s.now a e)),
        s.useTr r e va a key)
    | none =>
      let s := s.miss d r.polder m
      if s.atsMode r.owner then
        match x.ats.find? (fun p => !p.2.spec && p.2.owner == r.owner && p.2.va / 4096 == va / 4096) with
        | some (k, q) =>
          if q.fault then ((s.missOver d m).modXlu d (fun x => { x with ats := tdel x.ats k }), .fault xATS_REFUSED) else (s, .wait)
        | none => (s.startAts d r va false key remote, .wait)
      else match x.walks.find? (fun p => p.2.tag == tag && p.2.va / 4096 == va / 4096 && !p.2.spec) with
        | some (k, w) =>
          match w.fault with
          | some f => ((s.missOver d m).modXlu d (fun x => { x with walks := tdel x.walks k }), .fault f)
          | none => (s, .wait)
        | none =>
          match tget x.spaces r.space with
          | none => (s.missOver d m, .fault xKEY)
          | some sp =>
            if 2 ^ vaBitsOf sp.vaBits ≤ va then (s.missOver d m, .fault xNOT_PRESENT)
            else if !s.on d (HDR.CTRL.ENABLE 0x800000) ∨ 256 ≤ (x.walks.filter (fun p => p.2.fault.isNone)).length then (s, .wait)
            else
              let top := levelsOf sp.vaBits - 1
              let w : Walk :=
                { tag := tag, owner := r.owner, va := va, level := top, table := sp.root, top := top, discards := 0,
                  hit := false, spec := false, key := key, polder := r.polder, remote := remote, fault := none }
              (s.startWalk d w, .wait)

/-- Translate the byte at an offset of a region (R202). -/
def State.xlateAt (s : State) (d : Die) (r : Region) (o : Nat) (a : Acs) (remote : Bool) (key n : Nat) : State × XRes :=
  match r.kind with
  | .hostBus => (s, .host r.owner (r.base + o) false ⟨key, none, 0⟩)
  | .device =>
    if s.netWindow d r.polder (r.base + o) n then (s, .dev (r.base + o)) else (s, .fault xWINDOW)
  | .hostMapped => s.lookupPage d r ((r.vaBase + o) % 2 ^ 64) a remote key

/-- A range of an access, page by page: the segments it falls in, or why it stops. A range that lies in one page of 4 KiB
gives one segment. -/
def State.xlateRange : Nat → Die → Region → Nat → Nat → Acs → Bool → Nat → State → State × Except XRes (List (XRes × Nat))
  | 0, _, _, _, _, _, _, _, s => (s, .ok [])
  | fuel + 1, d, r, o, n, a, remote, key, s =>
    if n = 0 then (s, .ok [])
    else
      let k := if r.kind = .hostMapped then min n (4096 - (r.vaBase + o) % 4096) else n
      match s.xlateAt d r o a remote key k with
      | (s, .fault f) => (s, .error (.fault f))
      | (s, .wait) => (s, .error .wait)
      | (s, t) =>
        match State.xlateRange fuel d r (o + k) (n - k) a remote key s with
        | (s, .ok l) => (s, .ok ((t, k) :: l))
        | e => e

/-- A speculative fill for the page of an offset of a region, where it may start and nothing is cached or under way (R210). It never
reaches beyond its region. -/
def State.startSpec (s : State) (d : Die) (r : Region) (o key : Nat) : State :=
  let x := s.xlu d
  let tag := s.tagOf d r
  let va := (r.vaBase + o) % 2 ^ 64
  if r.kind ≠ .hostMapped || decide (r.length ≤ o) || !s.on d XLU.XLU_CFG.PREFETCH || !s.on d (HDR.CTRL.ENABLE 0x800000) ||
     x.tlb.any (fun e => trCovers e tag va) then s
  else if s.atsMode r.owner then
    if x.ats.any (fun p => p.2.owner == r.owner && p.2.va / 4096 == va / 4096) then s else s.startAts d r va true key false
  else if x.walks.any (fun p => p.2.tag == tag && p.2.va / 4096 == va / 4096) || decide (256 ≤ x.walks.length) then s
  else match tget x.spaces r.space with
    | none => s
    | some sp =>
      if 2 ^ vaBitsOf sp.vaBits ≤ va then s
      else
        let top := levelsOf sp.vaBits - 1
        s.startWalk d { tag := tag, owner := r.owner, va := va, level := top, table := sp.root, top := top, discards := 0,
                        hit := false, spec := true, key := key, polder := r.polder, remote := false, fault := none }

/-- A transfer has reached an offset: once it has passed the middle of a page, the next page of its region is fetched (R210). -/
def State.prefetchNext (s : State) (d : Die) (r : Region) (o n key : Nat) : State :=
  let va := (r.vaBase + o + n - 1) % 2 ^ 64
  let page := match (s.xlu d).tlb.find? (fun e => trCovers e (s.tagOf d r) va) with | some e => max 4096 e.size | none => 4096
  if n ≠ 0 ∧ page / 2 ≤ va % page then s.startSpec d r (o + n - 1 + (page - va % page)) key else s

/-- The descriptor of a region is used: it is among the 8,192 held on chip, and the least recently used one makes room (R217). A write
through the region is noted (R212). -/
def State.useRegion (s : State) (d : Die) (key : Nat) (a : Acs) : State :=
  let i := keyIndex key
  s.modXlu d (fun x =>
    let l := x.descs.filter (· != i) ++ [i]
    { x with descs := l.drop (l.length - 8192)
             regions := if a = .rd then x.regions else tmod x.regions i (fun r => { r with wrote := true }) })

/-- A range of host memory touches a line that the atomic unit holds (09_remote_access.md R279). -/
def State.lineHeld (s : State) (l : List (XRes × Nat)) : Bool :=
  l.any (fun x => match x.1 with
    | .host f a _ _ => [Die.a, Die.b].any (fun d => (s.die d).rma.atomics.any (fun z =>
        z.owner.hp == f.hp && decide (a / 64 ≤ z.addr / 64 ∧ z.addr / 64 * 64 < a + x.2)))
    | _ => false)

/-- Translate a range (R202 to R209): its segments, or a fault or a wait. -/
def State.xlate (s : State) (d : Die) (r : Region) (o n : Nat) (a : Acs) (remote : Bool) (key : Nat) :
    State × Except XRes (List (XRes × Nat)) :=
  match State.xlateRange (n / 4096 + 2) d r o n a remote key (s.useRegion d key a) with
  | (s, .ok l) => if a != .at && s.lineHeld l then (s, .error .wait) else (s.prefetchNext d r o n key, .ok l)
  | e => e

/-- Bytes of a segment list written at their places, with or without Relaxed Ordering: posted writes to host memory, or
device-side writes (R139; 09_remote_access.md R286). -/
def State.writeSegs : List (XRes × Nat) → List Byte → Bool → Bool → State → State
  | [], _, _, _, s => s
  | (t, n) :: l, bs, ro, p, s =>
    let s := match t with
      | .host f a tr _ => (s.hwrite f a ro (bs.take n) tr).when p (fun s => s.emit (.poisoned f a))
      | .dev a => s.devAccess (ownAccess a (.write (bs.take n) p))
      | _ => s
    State.writeSegs l (bs.drop n) ro p s

/-! ## Walk steps (R204, R205) -/

/-- An entry breaks the format of R204 at a level. -/
def pteBad (p level : Nat) : Bool :=
  bitsOf p 4 8 != 0 || bitsOf p 57 7 != 0 ||
  (level != 0 && bitOf p 1 && (decide (3 ≤ level) || (level == 1 && bitsOf p 12 9 != 0) || (level == 2 && bitsOf p 12 18 != 0)))

/-- End a walk in a fault: a demand walk keeps it for its operation, and it is recorded; a speculative one reports nothing
(R210, R216). -/
def State.walkFault (s : State) (d : Die) (id : Nat) (w : Walk) (reason : Nat) : State :=
  if w.spec then s.modXlu d (fun x => { x with walks := tdel x.walks id })
  else s.modXlu d (fun x => { x with walks := tput x.walks id { w with fault := some reason } })

/-- Insert a non-leaf entry in the walk cache, in place of the least recently used one when it is full (R209). -/
def walkCached (l : List TrEntry) (e : TrEntry) : List TrEntry :=
  if l.length < 1024 then l ++ [e]
  else match l with
    | [] => [e]
    | h :: t => l.erase (t.foldl (fun m p => if p.lastUse < m.lastUse then p else m) h) ++ [e]

/-- A page-table entry read returns: the entry, or `none` for poisoned data (R205, R213, R216). -/
def State.walkReturn (s : State) (d : Die) (id : Nat) (pte : Option W64) : State :=
  match tget (s.xlu d).walks id with
  | none => s
  | some w =>
    if w.fault.isSome then s
    else if w.hit then
      let s := s.bump d XLU.WALKS_DISCARDED.COUNT
      if w.spec then s.modXlu d (fun x => { x with walks := tdel x.walks id })
      else
        match w.tag with
        | .space i _ =>
          match tget (s.xlu d).spaces i with
          | none => s.walkFault d id w xKEY
          | some sp =>
            let w := { w with hit := false, discards := w.discards + 1, level := w.top, table := sp.root, tag := .space i sp.gen }
            (s.modXlu d (fun x => { x with walks := tput x.walks id w })).hread w.owner (pteAddr w) 8
        | _ => s
    else match pte with
      | none => s.walkFault d id w xPOISON
      | some v =>
        let p := v.toNat
        if !bitOf p 0 then s.walkFault d id w xNOT_PRESENT
        else if pteBad p w.level then s.walkFault d id w xPTE_FORMAT
        else if w.level = 0 ∨ bitOf p 1 then
          let sz := 2 ^ levelShift w.level
          let e : TrEntry := { tag := w.tag, va := w.va / sz * sz, size := sz, target := bitsOf p 12 45 * 4096, r := bitOf p 2,
                               w := bitOf p 3, untranslated := false, wrote := false, level := 0, lastUse := s.now }
          let s := s.when w.spec (fun s => s.bump d XLU.SPEC_FILLS.COUNT)
          s.modXlu d (fun x => installTr { x with walks := tdel x.walks id } (s.rd d XLU.TLB_CAP.ENTRIES) e)
        else
          let sz := 2 ^ levelShift w.level
          let tbl := bitsOf p 12 45 * 4096
          let e : TrEntry := { tag := w.tag, va := w.va / sz * sz, size := sz, target := tbl, r := false, w := false,
                               untranslated := false, wrote := false, level := w.level - 1, lastUse := s.now }
          let w := { w with level := w.level - 1, table := tbl }
          (s.modXlu d (fun x => { x with walks := tput x.walks id w, walkCache := walkCached x.walkCache e })).hread w.owner (pteAddr w) 8

/-! ## Invalidation (R211 to R215) -/

def spansMeet (va size lo len : Nat) : Bool := decide (va < lo + len) && decide (lo < va + size)

def invMatch (i : InvScope) (t : TrTag) (va size : Nat) : Bool :=
  match i with
  | .range u lo len => t == u && spansMeet va size lo len
  | .space id => match t with | .space j _ => j == id | _ => false
  | .fn idx sp => match t with | .space j _ => sp.contains j | .ats j _ => j == idx
  | .all => true

/-- Span of the entry that a walk reads at its level. -/
def walkSpan (w : Walk) : Nat × Nat := let sz := 2 ^ levelShift w.level; (w.va / sz * sz, sz)

/-- A walk could install a matching entry. -/
def walkMeets (i : InvScope) (w : Walk) : Bool := w.fault.isNone && invMatch i w.tag (walkSpan w).1 (walkSpan w).2

/-- A request for the ATS tag that an invalidation names: its completion is discarded, whole or where it meets the range. -/
def atsMark (i : InvScope) (a : AtsReq) : AtsReq :=
  let tag := TrTag.ats (fnIdx a.owner) a.gen
  match i with
  | .range u lo len => if u = tag then { a with ranges := a.ranges ++ [(lo, len)] } else a
  | _ => if invMatch i tag a.va 4096 then { a with hit := true } else a

/-- Remove matching cached translations; the walks and requests that could install one are discarded. -/
def invalidate (i : InvScope) (x : Xlu) : Xlu :=
  { x with
    tlb := x.tlb.filter (fun e => !invMatch i e.tag e.va e.size)
    victim := x.victim.filter (fun p => !invMatch i p.2.tag p.2.va p.2.size)
    walkCache := x.walkCache.filter (fun e => !invMatch i e.tag e.va e.size)
    walks := x.walks.map (fun p => (p.1, if walkMeets i p.2 then { p.2 with hit := true } else p.2))
    ats := x.ats.map (fun p => (p.1, atsMark i p.2)) }

/-- Demand walks that an invalidation waits for: those discarded four times (R213). -/
def invWaits (i : InvScope) (x : Xlu) : List Nat :=
  (x.walks.filter (fun p => !p.2.spec && decide (4 ≤ p.2.discards) && walkMeets i p.2)).map (·.1)

/-- Advance the generations of the tags that an invalidation names as a whole (R208). -/
def bumpGens (i : InvScope) (x : Xlu) : Xlu :=
  match i with
  | .space id => { x with spaces := tmod x.spaces id (fun p => { p with gen := (p.gen + 1) % 65536 }) }
  | .fn idx sp => { x with
      spaces := sp.foldl (fun t j => tmod t j (fun p => { p with gen := (p.gen + 1) % 65536 })) x.spaces
      fnGen := tput x.fnGen idx (((tget x.fnGen idx).getD 0 + 1) % 65536) }
  | _ => x

/-- The owner of a tag. -/
def tagOwner (x : Xlu) (d : Die) : TrTag → Option Fn
  | .space i _ => (tget x.spaces i).map (·.owner)
  | .ats i _ => some ⟨⟨(2 * d.num + i / 256) % 4, Nat.mod_lt _ (by decide)⟩, ⟨i % 256, Nat.mod_lt _ (by decide)⟩⟩

/-- The cached translations that an invalidation removes. -/
def removed (i : InvScope) (x : Xlu) : List TrEntry := (x.tlb ++ x.victim.map (·.2)).filter (fun e => invMatch i e.tag e.va e.size)

/-- An outstanding read was translated by an entry that goes, or through the region that goes (R212). -/
def readMeets (i : InvScope) (gone : List TrEntry) (key : Option Nat) (r : HostRead) : Bool :=
  match r.src with
  | none => false
  | some t => key == some t.key || match t.tag with
    | some g => invMatch i g (t.va / 4096 * 4096) 4096 || gone.any (fun e => trCovers e g t.va)
    | none => false

/-- Owners, one for each host port, whose writes went through what goes. -/
def fenceFns (x : Xlu) (d : Die) (gone : List TrEntry) (key : Option Nat) : List Fn :=
  let a := (gone.filter (·.wrote)).filterMap (fun e => tagOwner x d e.tag)
  let b := match key.bind (fun k => tget x.regions (keyIndex k)) with | some r => if r.wrote then [r.owner] else [] | none => []
  (a ++ b).foldl (fun l f => if l.any (fun g => g.hp == f.hp) then l else l ++ [f]) []

/-- Issue a zero-length read of a function, behind its writes: its tag. -/
def State.fenceRead (s : State) (d : Die) (f : Fn) : State :=
  let r : HostRead := { die := d, fn := f, packet := 0, off := 0, len := 0, use := .fence, src := none }
  { (s.hread f 0 0) with reads := tput s.reads s.nextRead r, nextRead := s.nextRead + 1 }

/-- Perform an invalidation: the state, and the reads that its end waits for (R212). -/
def State.invPerform (s : State) (d : Die) (i : InvScope) (key : Option Nat) : State × List Nat :=
  let x := s.xlu d
  let gone := removed i x
  let old := (s.reads.filter (fun r => r.2.die == d && readMeets i gone key r.2)).map (·.1)
  let fns := fenceFns x d gone key
  let t := fns.foldl (fun s f => s.fenceRead d f) (s.modXlu d (fun x => bumpGens i (invalidate i x)))
  (t, old ++ (List.range fns.length).map (· + s.nextRead))

/-- Begin an invalidation: it is performed now, or once the walks that it lets end have ended (R213). -/
def State.invBegin (s : State) (d : Die) (i : InvScope) (key : Option Nat) : State × InvWait :=
  match invWaits i (s.xlu d) with
  | [] => let (s, l) := s.invPerform d i key; (s, { scope := i, key := key, walks := [], reads := l })
  | w => (s, { scope := i, key := key, walks := w, reads := [] })

/-- A walk has ended: an invalidation that waited for it alone is performed. -/
def State.invStep (d : Die) (id : Nat) (w : InvWait) (s : State) : State × InvWait :=
  if !w.walks.contains id then (s, w)
  else match w.walks.erase id with
    | [] => let (s, l) := s.invPerform d w.scope w.key; (s, { w with walks := [], reads := l })
    | l => (s, { w with walks := l })

/-- A device-side write of the device's own is not yet visible: it waits at a controller or at a line's tracker. -/
def State.ownPending (s : State) : Bool :=
  let own := fun (x : DevAccess) => x.fn.isNone && match x.kind with | .write .. => true | _ => false
  [Die.a, Die.b].any (fun d =>
    (s.die d).dmem.any (fun c => c.2.waiting.any (fun q => own q.x) || c.2.kept.any (fun q => own q.x)) ||
    (s.hag d).trackers.any (fun t => t.2.dev.any own) ||
    (s.hag d).input.any (fun i => match i with | .host .. => false | .dev x => own x))

/-- What an invalidation waits for has happened (R212). -/
def State.invDone (s : State) (w : InvWait) : Bool :=
  w.walks.isEmpty && w.reads.all (fun t => (tget s.reads t).isNone) && !s.ownPending

def chTokens (x : Xlu) (c : Nat) : List XToken := if c = 0 then x.tokens0 else if c = 1 then x.tokens1 else x.tokens2
def setTokens (x : Xlu) (c : Nat) (l : List XToken) : Xlu :=
  if c = 0 then { x with tokens0 := l } else if c = 1 then { x with tokens1 := l } else { x with tokens2 := l }

/-- The invalidations of a die learn that a walk has ended. -/
def State.walkEnded (s : State) (d : Die) (id : Nat) : State :=
  let s := [0, 1, 2].foldl (fun s c =>
    let p := (chTokens (s.xlu d) c).foldl (fun (p : State × List XToken) t =>
      let r := State.invStep d id t.wait p.1; (r.1, p.2 ++ [{ t with wait := r.2 }])) (s, [])
    p.1.modXlu d (fun x => setTokens x c p.2)) s
  let p := (s.xlu d).atsInv.foldl (fun (p : State × List (Fn × InvWait)) a =>
    let r := State.invStep d id a.2 p.1; (r.1, p.2 ++ [(a.1, r.2)])) (s, [])
  p.1.modXlu d (fun x => { x with atsInv := p.2 })

/-- Invalidate Completions that are due are returned (R214). -/
def State.atsInvDone (s : State) (d : Die) : State :=
  match (s.xlu d).atsInv.filter (fun a => s.invDone a.2) with
  | [] => s
  | l => (l.foldl (fun s a => s.emit (.atsInvalidateDone a.1)) s).modXlu d (fun x => { x with atsInv := x.atsInv.filter (fun a => !l.contains a) })

/-- A walk step, and what its end lets happen. -/
def State.walkStep (s : State) (d : Die) (id : Nat) (pte : Option W64) : State :=
  let live := fun (s : State) => match tget (s.xlu d).walks id with | some w => w.fault.isNone | none => false
  let t := s.walkReturn d id pte
  if live s && !live t then (t.walkEnded d id).atsInvDone d else t

/-- WALK_READ_RETURN (07_translation.md R205). -/
def execWalkReadReturn (d : Die) (id : Nat) (pte : Option W64) (s : State) : Host.Outcome State Fault Refusal :=
  .next (s.walkStep d id pte)

/-- A Translation Completion (R207): R, W and U, the size reported, and a bad status. One that an invalidation met meanwhile is
discarded; a speculative one never reports a fault (R210). -/
def State.atsReturn (s : State) (d : Die) (id : Nat) (addr : W64) (log2Size : Fin 64) (r w u bad : Bool) : State :=
  match tget (s.xlu d).ats id with
  | none => s
  | some q =>
    let sz := 2 ^ max log2Size.val 12
    let va := q.va / sz * sz
    if q.fault then s
    else if bad || (!r && !w) then s.modXlu d (fun x => { x with ats := if q.spec then tdel x.ats id else tput x.ats id { q with fault := true } })
    else if q.hit || q.ranges.any (fun g => spansMeet va sz g.1 g.2) then s.modXlu d (fun x => { x with ats := tdel x.ats id })
    else
      let s := s.when q.spec (fun s => s.bump d XLU.SPEC_FILLS.COUNT)
      s.modXlu d (fun x => installTr { x with ats := tdel x.ats id } (s.rd d XLU.TLB_CAP.ENTRIES)
        { tag := .ats (fnIdx q.owner) q.gen, va := va, size := sz, target := addr.toNat / sz * sz, r := r, w := w,
          untranslated := u, wrote := false, level := 0, lastUse := s.now })

/-- ATS_TRANSLATION_COMPLETION (07_translation.md R207). -/
def execAtsTranslationCompletion (d : Die) (id : Nat) (addr : W64) (log2Size : Fin 64) (r w u : Bool) (bad : Bool)
    (s : State) : Host.Outcome State Fault Refusal :=
  .next (s.atsReturn d id addr log2Size r w u bad)

/-! ## Command channels (R219 to R221) -/

def xREQUESTER : Nat := 0x01
def xFUNCTION : Nat := 0x02
def xTABLE_FULL : Nat := 0x03
def xARG : Nat := 0x04
def xKEY_INVALID : Nat := 0x05
def xSPACE_INVALID : Nat := 0x06
def xSPACE_IN_USE : Nat := 0x07
def xSTATE : Nat := 0x08

/-- The requester may write channel `c` of a die (R220). -/
def State.channelOk (s : State) (rq : Requester) (d : Die) (c : Fin 3) : Bool :=
  s.privileged rq || match rq with
    | .fn f => f.fn.val == 0 && fnDie f == d && c.val != 2 && f.hp.val % 2 == c.val
    | _ => true

/-- A PF that is no warden issues a command for a host port it does not own (R220). -/
def State.foreign (s : State) (rq : Requester) (hp : Fin 4) : Bool :=
  match rq with
  | .fn f => !s.isWarden f && f.hp != hp
  | _ => false

/-- The function of a command exists on the die and may own objects (R199, R221). -/
def State.fnOwns (s : State) (d : Die) (f : Fn) : Bool :=
  fnDie f == d && s.hpPresent f.hp.val && s.fnEnabled f && (s.polderOf f).isSome

def chNext (x : Xlu) (c : Nat) : Nat := if c = 0 then x.next0 else if c = 1 then x.next1 else x.next2
def setNext (x : Xlu) (c n : Nat) : Xlu :=
  if c = 0 then { x with next0 := n } else if c = 1 then { x with next1 := n } else { x with next2 := n }

/-- End a channel command; BUSY stays 1 while the channel holds 64 incomplete tokens (R217). -/
def State.xEnd (s : State) (d : Die) (c : Fin 3) (code detail : Nat) : State :=
  s.wrs d [(XLU.X_STATUS.BUSY c.val, b2n (decide (64 ≤ (chTokens (s.xlu d) c.val).length))), (XLU.X_STATUS.DONE c.val, 1),
    (XLU.X_STATUS.CODE c.val, code), (XLU.X_STATUS.DETAIL c.val, detail)]

/-- A write of X_CMD with GO set. A command ends with STATE while the block is disabled or has not been enabled (R218, R221). -/
def State.xCommand (s : State) (rq : Requester) (d : Die) (c : Fin 3) (op : Nat)
    (act : State → Except (Nat × Nat) State) : State :=
  if !s.barUp rq then s
  else if !s.channelOk rq d c then s.bump d XLU.CHANNEL_REJECTS.COUNT
  else if s.on d (XLU.X_STATUS.BUSY c.val) then s.wr d (XLU.X_STATUS.GO_REJECT c.val) 1
  else
    let s := s.wr d (XLU.X_CMD.OP c.val) op
    if !s.on d (HDR.CTRL.ENABLE 0x800000) || !s.on d (HDR.STATUS.ENABLED 0x800000) then s.xEnd d c stFORMAT xSTATE
    else match act s with
      | .ok s => s.xEnd d c stOK 0
      | .error (k, t) => s.xEnd d c k t

def State.xArg (s : State) (d : Die) (c : Fin 3) (i : Nat) : Nat :=
  s.rd d (if i = 0 then XLU.X_ARG0.ARG c.val else if i = 1 then XLU.X_ARG1.ARG c.val else if i = 2 then XLU.X_ARG2.ARG c.val
    else XLU.X_ARG3.ARG c.val)

/-- Begin an invalidation and return its token (R212). -/
def State.xInvalidate (s : State) (d : Die) (c : Fin 3) (i : InvScope) (key : Option Nat) : State :=
  let n := chNext (s.xlu d) c.val
  let (s, w) := s.invBegin d i key
  (s.modXlu d (fun x => setNext (setTokens x c.val (chTokens x c.val ++ [⟨n, w⟩])) c.val (add32 n 1))).wr d (XLU.X_RESULT.VALUE c.val) n

/-- CREATE_SPACE (R199, R220, R221). -/
def State.xCreateSpace (rq : Requester) (d : Die) (c : Fin 3) (s : State) : Except (Nat × Nat) State :=
  let a0 := s.xArg d c 0
  let f := argFn a0
  let root := s.xArg d c 1
  if s.foreign rq f.hp then .error (stPROTECTION, xREQUESTER)
  else if !s.fnOwns d f then .error (stFORMAT, xFUNCTION)
  else if root % 4096 ≠ 0 ∨ 2 ^ 57 ≤ root then .error (stFORMAT, xARG)
  else match freeKey (s.xlu d).spaces 65535 1 with
    | none => .error (stFORMAT, xTABLE_FULL)
    | some id => .ok ((s.modXlu d (fun x => { x with spaces := tput x.spaces id ⟨f, (s.polderOf f).getD 0, bitsOf a0 16 2, root, 0⟩ })).wr d
        (XLU.X_RESULT.VALUE c.val) id)

def execCreateSpace (rq : Requester) (d : Die) (c : Fin 3) (s : State) : Host.Outcome State Fault Refusal :=
  .next (s.xCommand rq d c 1 (State.xCreateSpace rq d c))

/-- DESTROY_SPACE (R212, R221): refused while a region names the space. -/
def State.xDestroySpace (rq : Requester) (d : Die) (c : Fin 3) (s : State) : Except (Nat × Nat) State :=
  let id := bitsOf (s.xArg d c 0) 0 16
  match tget (s.xlu d).spaces id with
  | none => .error (stFORMAT, xSPACE_INVALID)
  | some sp =>
    if s.foreign rq sp.owner.hp then .error (stPROTECTION, xREQUESTER)
    else if (s.xlu d).regions.any (fun r => r.2.live && r.2.kind == .hostMapped && r.2.space == id) then
      .error (stFORMAT, xSPACE_IN_USE)
    else .ok ((s.xInvalidate d c (.space id) none).modXlu d (fun x => { x with spaces := tdel x.spaces id }))

def execDestroySpace (rq : Requester) (d : Die) (c : Fin 3) (s : State) : Host.Outcome State Fault Refusal :=
  .next (s.xCommand rq d c 2 (State.xDestroySpace rq d c))

/-- The lowest region index that no live region uses (log entry 22). -/
def freeRegion (t : Tbl Region) : Nat → Nat → Option Nat
  | 0, _ => none
  | n + 1, k => match tget t k with
    | some r => if r.live then freeRegion t n (k + 1) else some k
    | none => some k

/-- GEN of an index when it is used again (R197). -/
def nextGen (t : Tbl Region) (i : Nat) : Nat :=
  match tget t i with
  | some r => r.gen % 2047 + 1
  | none => 1

/-- CREATE_REGION (R198, R199, R220, R221). -/
def State.xCreateRegion (rq : Requester) (d : Die) (c : Fin 3) (s : State) : Except (Nat × Nat) State :=
  let a0 := s.xArg d c 0
  let f := argFn a0
  let kind := bitsOf a0 12 2
  let len := s.xArg d c 2
  let sp := bitsOf a0 32 16
  if s.foreign rq f.hp then .error (stPROTECTION, xREQUESTER)
  else if !s.fnOwns d f then .error (stFORMAT, xFUNCTION)
  else if kind = 3 ∨ len = 0 ∨ 2 ^ 48 < len ∨ 2 ^ 57 ≤ s.xArg d c 3 ∨ (kind ≠ 0 ∧ sp ≠ 0) then .error (stFORMAT, xARG)
  else if kind == 0 && (if s.atsMode f then sp != 0 else
      (match tget (s.xlu d).spaces sp with | some p => p.owner != f | none => true)) then .error (stFORMAT, xSPACE_INVALID)
  else match freeRegion (s.xlu d).regions 1048576 0 with
    | none => .error (stFORMAT, xTABLE_FULL)
    | some i =>
      let g := nextGen (s.xlu d).regions i
      let r : Region :=
        { live := true, gen := g, owner := f, polder := (s.polderOf f).getD 0,
          kind := if kind = 0 then .hostMapped else if kind = 1 then .hostBus else .device, rights := bitsOf a0 16 5,
          zeroBased := bitOf a0 21, vaBase := s.xArg d c 1, length := len, space := sp, base := s.xArg d c 3, wrote := false }
      .ok ((s.modXlu d (fun x => { x with regions := tput x.regions i r })).wr d (XLU.X_RESULT.VALUE c.val) (mkKey d i g))

def execCreateRegion (rq : Requester) (d : Die) (c : Fin 3) (s : State) : Host.Outcome State Fault Refusal :=
  .next (s.xCommand rq d c 3 (State.xCreateRegion rq d c))

/-- DESTROY_REGION (R212, R215). -/
def State.xDestroyRegion (rq : Requester) (d : Die) (c : Fin 3) (s : State) : Except (Nat × Nat) State :=
  let key := bitsOf (s.xArg d c 0) 0 32
  match s.region? d key with
  | none => .error (stFORMAT, xKEY_INVALID)
  | some r =>
    if s.foreign rq r.owner.hp then .error (stPROTECTION, xREQUESTER)
    else .ok ((s.xInvalidate d c (.range (s.tagOf d r) r.vaBase (if r.kind = .hostMapped then r.length else 0)) (some key)).modXlu d
      (fun x => { x with regions := tmod x.regions (keyIndex key) (fun r => { r with live := false }) }))

def execDestroyRegion (rq : Requester) (d : Die) (c : Fin 3) (s : State) : Host.Outcome State Fault Refusal :=
  .next (s.xCommand rq d c 4 (State.xDestroyRegion rq d c))

/-- An invalidation of a live space, whole or in a range. -/
def State.xInvSpace (rq : Requester) (d : Die) (c : Fin 3) (id : Nat) (i : Space → InvScope) (s : State) :
    Except (Nat × Nat) State :=
  match tget (s.xlu d).spaces id with
  | none => .error (stFORMAT, xSPACE_INVALID)
  | some sp =>
    if s.foreign rq sp.owner.hp then .error (stPROTECTION, xREQUESTER)
    else .ok (s.xInvalidate d c (i sp) none)

/-- INVALIDATE_RANGE (R211): a range of more than 4,096 pages is performed as INVALIDATE_SPACE. Space 0 names the ATS tag
of a function. -/
def State.xInvRange (rq : Requester) (d : Die) (c : Fin 3) (s : State) : Except (Nat × Nat) State :=
  let a0 := s.xArg d c 0
  let id := bitsOf a0 0 16
  let va := s.xArg d c 1
  let len := s.xArg d c 2
  let wide := decide (4096 < (va % 4096 + len + 4095) / 4096)
  if id = 0 then
    let f := argFn (bitsOf a0 32 10)
    if s.foreign rq f.hp then .error (stPROTECTION, xREQUESTER)
    else if !s.fnOwns d f then .error (stFORMAT, xFUNCTION)
    else .ok (s.xInvalidate d c (if wide then .fn (fnIdx f) [] else
      .range (.ats (fnIdx f) ((tget (s.xlu d).fnGen (fnIdx f)).getD 0)) va len) none)
  else s.xInvSpace rq d c id (fun sp => if wide then .space id else .range (.space id sp.gen) va len)

def execInvalidateRange (rq : Requester) (d : Die) (c : Fin 3) (s : State) : Host.Outcome State Fault Refusal :=
  .next (s.xCommand rq d c 5 (State.xInvRange rq d c))

def execInvalidateSpace (rq : Requester) (d : Die) (c : Fin 3) (s : State) : Host.Outcome State Fault Refusal :=
  .next (s.xCommand rq d c 6 (fun s => s.xInvSpace rq d c (bitsOf (s.xArg d c 0) 0 16)
    (fun _ => .space (bitsOf (s.xArg d c 0) 0 16))))

/-- Spaces of a function. -/
def spacesOf (x : Xlu) (f : Fn) : List Nat := (x.spaces.filter (fun p => p.2.owner == f)).map (·.1)

/-- INVALIDATE_FUNCTION (R211). -/
def State.xInvFn (rq : Requester) (d : Die) (c : Fin 3) (s : State) : Except (Nat × Nat) State :=
  let f := argFn (s.xArg d c 0)
  if s.foreign rq f.hp then .error (stPROTECTION, xREQUESTER)
  else if !s.fnOwns d f then .error (stFORMAT, xFUNCTION)
  else .ok (s.xInvalidate d c (.fn (fnIdx f) (spacesOf (s.xlu d) f)) none)

def execInvalidateFunction (rq : Requester) (d : Die) (c : Fin 3) (s : State) : Host.Outcome State Fault Refusal :=
  .next (s.xCommand rq d c 7 (State.xInvFn rq d c))

/-- INVALIDATE_ALL (R211, R220): wardens and the SVC only. -/
def execInvalidateAll (rq : Requester) (d : Die) (c : Fin 3) (s : State) : Host.Outcome State Fault Refusal :=
  .next (s.xCommand rq d c 8 (fun s =>
    if !s.privileged rq then .error (stPROTECTION, xREQUESTER) else .ok (s.xInvalidate d c .all none)))

/-- TOKEN_COMPLETE (07_translation.md R212): the oldest incomplete token of a channel completes once what it waits for has happened. -/
def execTokenComplete (d : Die) (c : Fin 3) (s : State) : Host.Outcome State Fault Refusal :=
  .next (match chTokens (s.xlu d) c.val with
    | [] => s
    | t :: rest =>
      if !s.invDone t.wait then s
      else ((s.modXlu d (fun x => setTokens x c.val rest)).wr d (XLU.X_DONE_TOKEN.TOKEN c.val) t.token).wr d
        (XLU.X_STATUS.BUSY c.val) 0)

/-- ATS_INVALIDATE_REQUEST (07_translation.md R214): entries of the requester's ATS tag in the range are removed, and the completion is
returned when R212's conditions hold. A function's queue holds 32 requests (05_host_ports.md R129); a further one waits at the host. -/
def execAtsInvalidateRequest (f : Fn) (va : W64) (log2Size : Fin 64) (s : State) : Host.Outcome State Fault Refusal :=
  let d := fnDie f
  let sz := 2 ^ max log2Size.val 12
  let i := InvScope.range (.ats (fnIdx f) ((tget (s.xlu d).fnGen (fnIdx f)).getD 0)) (va.toNat / sz * sz) sz
  .next (if 32 ≤ ((s.xlu d).atsInv.filter (fun a => a.1 == f)).length then s
    else
      let (s, w) := (s.bump d XLU.ATS_INVALIDATIONS.COUNT).invBegin d i none
      (s.modXlu d (fun x => { x with atsInv := x.atsInv ++ [(f, w)] })).atsInvDone d)

/-- A function-level reset of an owner destroys its regions and spaces and invalidates its ATS tag (R215). -/
def State.xluResetFn (s : State) (f : Fn) : State :=
  let d := fnDie f
  let sp := spacesOf (s.xlu d) f
  s.modXlu d (fun x =>
    let x := bumpGens (.fn (fnIdx f) sp) (invalidate (.fn (fnIdx f) sp) x)
    { x with atsInv := x.atsInv.filter (fun a => a.1 != f)
             regions := x.regions.map (fun p => (p.1, if p.2.owner = f then { p.2 with live := false } else p.2)),
             spaces := x.spaces.filter (fun p => !(p.2.owner == f)) })

end Sys2Proof.Machine
end

