-- ==== Sys2Proof/Machine/Packets.lean ====
section
/-! DEFINITION. Network packets (13_switch_core.md R410 to R416), how a unit builds one and puts it in the sluice, the
transport contexts as tables, and how a consumer performs, rejects or refuses a packet handed on to it
(10_transport.md R315, R318, R320). -/

namespace Sys2Proof.Machine

/-! ## Translations fetched ahead for prefetched entries (07_translation.md R210) -/

/-- Local buffers of an entry, by key and address. -/
def buffersOf (e : BitVec 512) : List (Nat × Nat) :=
  let c := eOpcode e
  let l := if c = opTSEND then (if tsInline e then [] else [(eLkey e, eLaddr e)])
    else if c = opTRECV ∨ c = opTMRECV ∨ c = opGET then [(eLkey e, eLaddr e)]
    else if c = opPUT ∨ c = opPUT_NOTIFY then (if rInline e then [] else [(eLkey e, eLaddr e)])
    else if isAtomic c then [(aLkey e, aLaddr e)]
    else if 0x62 ≤ c ∧ c ≤ 0x64 then [(qSkey e, qSaddr e), (qRkey e, qRaddr e)]
    else []
  l.filter (fun b => b.1 != 0)

/-- Fetch the translation of the first page of each buffer of the entries that a queue holds in the prefetch cache. -/
def State.specBuffers (s : State) (k : Nat) : State :=
  match s.queue k with
  | none => s
  | some q =>
    let d := setDie (k / 8)
    let held := (q.cache.map (·.2)).filterMap id ++ ((s.opsOf k).filterMap s.op |>.filter (fun o => o.stage == .waiting)).map (·.entry)
    ((held.map buffersOf).flatten).foldl (fun s b => match s.region? d b.1 with
      | none => s
      | some r => match regionOffset r false b.2 with
        | none => s
        | some o => if r.owner = setFn (k / 8) then s.startSpec d r o b.1 else s) s

/-- INDEX_READ_RETURN (06_work_queues.md R166, R168, R178): the index record with the slots read beside it, or only slots that the WQU
fetches (log entry 156). -/
def execIndexReadReturn (f : Fn) (q : Fin 128) (k : Fin 8) (idx : IndexRet)
    (slots : List (W32 × Option (BitVec 512))) (s : State) : Host.Outcome State Fault Refusal :=
  let key := qKey (setKey f q.val) k.val
  .next ((s.indexReturn key idx slots).specBuffers key)

/-- PHASE_RETRY (06_work_queues.md R169). -/
def execPhaseRetry (f : Fn) (q : Fin 128) (k : Fin 8) (slot : W32) (data : Option (BitVec 512)) (s : State) :
    Host.Outcome State Fault Refusal :=
  let key := qKey (setKey f q.val) k.val
  .next ((s.phaseRetry key slot.toNat data).specBuffers key)

/-! ## Header unit (R410, R411) -/

def cTRU_ACK : Nat := 0x01
def cCTX_OPEN : Nat := 0x02
def cCTX_OPEN_ACK : Nat := 0x03
def cCTX_NOCTX : Nat := 0x04
def cGROUP_STATUS : Nat := 0x08
def cMGT_MSG : Nat := 0x09
def cTAG_EAGER : Nat := 0x10
def cTAG_CONT : Nat := 0x11
def cTAG_RTS : Nat := 0x12
def cTAG_PULL : Nat := 0x13
def cTAG_PULL_DATA : Nat := 0x14
def cTAG_FIN : Nat := 0x15
def cTAG_MATCHED : Nat := 0x16
def cRMA_PUT : Nat := 0x20
def cRMA_NOTIFY : Nat := 0x21
def cRMA_GET_REQ : Nat := 0x22
def cRMA_GET_DATA : Nat := 0x23
def cRMA_ATOMIC : Nat := 0x24
def cRMA_ATOMIC_RSP : Nat := 0x25
def cQCTL : Nat := 0x30
def cQDATA : Nat := 0x31
def cQRESULT : Nat := 0x32

/-- The commands that R414 assigns. -/
def assigned (c : Nat) : Bool :=
  (1 ≤ c && c ≤ 4) || c == 8 || c == 9 || (0x10 ≤ c && c ≤ 0x16) || (0x20 ≤ c && c ≤ 0x25) || (0x30 ≤ c && c ≤ 0x32)

/-- Commands that the TRU consumes (10_transport.md R312). -/
def isControl (c : Nat) : Bool := 1 ≤ c && c ≤ 4

/-- Commands that carry a sequence number. -/
def isSequenced (c : Nat) : Bool := 0x10 ≤ c

def vREQ : Nat := 0
def vRSP : Nat := 1
def vCOL : Nat := 2
def vMGT : Nat := 3

/-- The first four words of a header unit; `wire` false leaves the fields that HDR_CRC takes as zero (R411) at zero. -/
def hdrWords (p : Pkt) (wire : Bool) : List Byte :=
  let z := fun (n : Nat) => if wire then n else 0
  leBytes 8 (p.version + p.vn * 2 ^ 4 + z p.vc * 2 ^ 6 + z (b2n p.epoch) * 2 ^ 8 + z (b2n p.ce) * 2 ^ 9 +
    z p.pressure * 2 ^ 10 + b2n p.ordered * 2 ^ 16 + z p.hopClass * 2 ^ 17 + z p.inter * 2 ^ 20 + p.dest * 2 ^ 32 +
    p.len * 2 ^ 56) ++
  leBytes 8 (p.src + p.polder * 2 ^ 24 + p.command * 2 ^ 44 + p.colour * 2 ^ 52 + p.lastBytes * 2 ^ 54) ++
  leBytes 8 (p.hash + p.context * 2 ^ 16 + b2n p.srcPoison * 2 ^ 38) ++ leBytes 8 p.seq ++ leBytes 24 p.op.toNat

/-- HDR_CRC: CRC-32C of bytes 0 to 59 with the fields of the hops taken as zero (R411). -/
def hdrCrc (p : Pkt) : Nat := (crc32c (hdrWords p false ++ leBytes 4 0)).toNat

/-- The header unit. -/
def hdrBytes (p : Pkt) : List Byte :=
  hdrWords p true ++ leBytes 4 (p.outXp + p.bridgeClass * 2 ^ 8 + b2n p.transit * 2 ^ 15) ++ leBytes 4 p.crc

/-- The packet that a header unit announces, with no data yet. -/
def pktOfHdr (b : List Byte) : Pkt :=
  let w := fun (i : Nat) => leNat ((b.drop (8 * i)).take 8)
  let f := fun (i lo n : Nat) => bitsOf (w i) lo n
  { version := f 0 0 4, vn := f 0 4 2, vc := f 0 6 2, epoch := bitOf (w 0) 8, ce := bitOf (w 0) 9, pressure := f 0 10 6,
    ordered := bitOf (w 0) 16, hopClass := f 0 17 3, inter := f 0 20 12, dest := f 0 32 24, len := f 0 56 7,
    src := f 1 0 24, polder := f 1 24 20, command := f 1 44 8, colour := f 1 52 2, lastBytes := f 1 54 6,
    hash := f 2 0 16, context := f 2 16 22, srcPoison := bitOf (w 2) 38, seq := f 3 0 32,
    op := BitVec.ofNat 192 (leNat ((b.drop 32).take 24)), outXp := f 7 0 7, bridgeClass := f 7 8 3,
    transit := bitOf (w 7) 15, crc := f 7 32 32, data := [], badHdr := false, badData := false }

/-- A header check passes (10_transport.md R317). -/
def hdrOk (p : Pkt) : Bool := hdrCrc p == p.crc

/-- Bytes of a packet in all (R440). -/
def pktBytes (p : Pkt) : Nat := 64 * (1 + p.len)
def pktUnits (p : Pkt) : Nat := 1 + p.len

/-- Valid data bytes (R413). -/
def pktValid (p : Pkt) : Nat := if p.lastBytes = 0 then 64 * p.len else 64 * (p.len - 1) + p.lastBytes
def pktData (p : Pkt) : List Byte := p.data.take (pktValid p)

/-- Data padded with zeros to whole units. -/
def padUnits (l : List Byte) : List Byte := l ++ List.replicate (ceilDiv l.length 64 * 64 - l.length) 0

/-- Bits of the operation-specific area. -/
def Pkt.opf (p : Pkt) (lo w : Nat) : Nat := p.op.toNat / 2 ^ lo % 2 ^ w

/-- A packet as its originating unit writes it, with data (R411). -/
def mkPkt (command vn : Nat) (ordered : Bool) (dest polder : Nat) (op : Nat) (data : List Byte) : Pkt :=
  { version := 1, vn := vn, vc := 0, epoch := false, ce := false, pressure := 0, ordered := ordered, hopClass := 0,
    inter := 0xFFF, dest := dest, len := ceilDiv data.length 64, src := 0, polder := polder, command := command, colour := 0,
    lastBytes := data.length % 64, hash := 0, context := 0, srcPoison := false, seq := 0, op := BitVec.ofNat 192 op,
    outXp := 0, bridgeClass := 0, transit := false, crc := 0, data := padUnits data, badHdr := false, badData := false }

/-! ## Addresses (12_routing.md R373) -/

/-- This device's FEA of an endpoint, as a die's MY_FEA gives it. -/
def State.myFea (s : State) (d : Die) (e : Nat) : Nat :=
  s.rd d RTB.MY_FEA.GROUP * 2 ^ 12 + s.rd d RTB.MY_FEA.ROUTER * 2 ^ 6 + e

def feaGroup (f : Nat) : Nat := bitsOf f 12 12
def feaRouter (f : Nat) : Nat := bitsOf f 6 6
def feaEnd (f : Nat) : Nat := bitsOf f 0 6

/-- The host port an endpoint field names (01_anatomy.md R14). -/
def endHp (f : Nat) : Fin 4 := ⟨feaEnd f % 4, Nat.mod_lt _ (by decide)⟩

/-- The virtual network of quadrille packets toward a parent or toward children (11_collectives.md R362). -/
def State.quadVn (s : State) (up : Bool) : Nat :=
  if s.on .a SWC.SWC_CFG.COL_NETWORK then vCOL else if up then vREQ else vRSP

/-! ## Transport contexts as a table -/

def State.tru (s : State) (d : Die) : Tru := (s.die d).tru
def State.modTru (s : State) (d : Die) (f : Tru → Tru) : State := s.modDie d (fun x => { x with tru := f x.tru })
def State.ctx? (s : State) (d : Die) (i : Nat) : Option Ctx := tget (s.tru d).ctxs i
def State.modCtx (s : State) (d : Die) (i : Nat) (f : Ctx → Ctx) : State :=
  s.modTru d (fun t => { t with ctxs := tmod t.ctxs i f })

/-- The context of a pair (R298). -/
def State.ctxOf (s : State) (d : Die) (hp : Fin 4) (fea : Nat) : Option (Nat × Ctx) :=
  (s.tru d).ctxs.find? (fun p => p.2.hp == hp && p.2.fea == fea)

/-- LOSSY_SR (R309). -/
def State.lossy (s : State) (d : Die) : Bool := s.on d TRU.TRU_CFG.MODE

/-- Modulus of sequence numbers (R309, R310). -/
def State.seqMod (s : State) (d : Die) : Nat := if s.lossy d then 2 ^ 32 else 2 ^ 24

/-- How far `b` lies after `a`. -/
def sdiff (m a b : Nat) : Nat := (b + m - a % m) % m

/-- `a` precedes `b` (R310). -/
def sbefore (m a b : Nat) : Bool := 1 ≤ sdiff m a b && sdiff m a b < m / 2

def State.window (s : State) (d : Die) : Nat :=
  if s.lossy d then 2 ^ s.rd d TRU.TRU_CFG.WINDOW_LOG2 else 4096

/-! ## The sluice's queues -/

def State.sluice (s : State) (d : Die) : Sluice := (s.die d).sluice
def State.modSluice (s : State) (d : Die) (f : Sluice → Sluice) : State :=
  s.modDie d (fun x => { x with sluice := f x.sluice })

/-- Queue a TRU control packet or an MGT packet (13_switch_core.md R436). -/
def State.sendCtl (s : State) (d : Die) (p : Pkt) : State :=
  s.modSluice d (fun x => { x with ctl := x.ctl ++ [p] })

/-- Replies in the reply queue of 256 entries: CTX_OPEN_ACK and CTX_NOCTX packets not yet sent (10_transport.md R312). -/
def State.repliesFull (s : State) (d : Die) : Bool :=
  256 ≤ ((s.sluice d).ctl.filter (fun p => p.command == cCTX_OPEN_ACK || p.command == cCTX_NOCTX)).length

/-- Reply to a packet: it is discarded while the reply queue is full (10_transport.md R312). -/
def State.replyCtl (s : State) (d : Die) (p : Pkt) : State :=
  if s.repliesFull d then s.bump d TRU.CONTROL_DROPS.COUNT else s.sendCtl d p

/-! ## Reading a payload (R322; 09_remote_access.md R275) -/

/-- What reading a payload answers: its bytes, that host reads are outstanding for it, that it waits for translation or
for a recall, or a translation fault. -/
inductive SrcRes where
  | data (l : List Byte) (poison : Bool)
  | pending
  | wait
  | fault (reason : Nat)
  deriving DecidableEq, Repr

/-- Lines that a range of device memory touches, by their first address. -/
def lineAddrs (a n : Nat) : List Nat :=
  if n = 0 then [] else (List.range ((a + n - 1) / 64 - a / 64 + 1)).map (fun k => (a / 64 + k) * 64)

/-- Recall the host copies that an access to a range needs gone; false while one is still held (05_host_ports.md R152). -/
def State.recallFor (s : State) (a n : Nat) (write : Bool) : State × Bool :=
  match (lineAddrs a n).filter (fun l => s.mustRecall l write) with
  | [] => (s, true)
  | l => (l.foldl (fun s x => s.devAccess (ownAccess x (.touch 1 write))) s, false)

/-- Read the segments of a translated range: device memory at once, host memory by reads that return later. -/
def State.readSegs (u : ReadUse) : List (XRes × Nat) → Die → Nat → Nat → State → State × SrcRes
  | [], _, _, _, s => (s, .data [] false)
  | (t, n) :: l, d, id, off, s =>
    match t with
    | .dev a =>
      match s.recallFor a n false with
      | (s, false) => (s, .wait)
      | (s, true) =>
        match State.readSegs u l d id (off + n) s with
        | (s, .data bs p) => (s, .data (s.mread a n ++ bs) (p || s.mpoison a n))
        | r => r
    | .host f a tr src =>
      let r : HostRead := { die := d, fn := f, packet := id, off := off, len := n, use := u, src := some src }
      let s := { (s.hread f a n tr) with reads := tput s.reads s.nextRead r, nextRead := s.nextRead + 1 }
      match State.readSegs u l d id (off + n) s with
      | (s, .fault k) => (s, .fault k)
      | (s, _) => (s, .pending)
    | _ => (s, .wait)

/-- Recall what a translated range needs before it is read or written. -/
def State.recallSegs (s : State) (l : List (XRes × Nat)) (write : Bool) : State × Bool :=
  l.foldl (fun p x => match x.1 with
    | .dev a => let r := p.1.recallFor a x.2 write; (r.1, p.2 && r.2)
    | _ => p) (s, true)

/-- Read the bytes of a source, of the packet or other use of a number. -/
def State.readSrc (s : State) (d : Die) (u : ReadUse) (id : Nat) : PSrc → State × SrcRes
  | .held l => (s, .data l false)
  | .lost l => (s, .data l true)
  | .region key off len =>
    match s.region? d key with
    | none => (s, .fault xKEY)
    | some r =>
      if len = 0 then (s, .data [] false)
      else match s.xlate d r off len .rd false key with
        | (s, .error (.fault k)) => (s, .fault k)
        | (s, .error _) => (s, .wait)
        | (s, .ok segs) => State.readSegs u segs d id 0 s

def srcLen : PSrc → Nat
  | .held l => l.length
  | .lost l => l.length
  | .region _ _ n => n

/-- Mark a packet whose source found its data uncorrectable, or clear the mark. The POISON fields of RMA_GET_DATA and RMA_ATOMIC_RSP
always equal SRC_POISON (13_switch_core.md R416). -/
def setPoison (p : Pkt) (poison : Bool) : Pkt :=
  let put := fun (i : Nat) =>
    let m := BitVec.ofNat 192 (2 ^ i)
    if poison then p.op ||| m else p.op &&& ~~~m
  { p with srcPoison := poison
           op := if p.command = cRMA_GET_DATA then put 64 else if p.command = cRMA_ATOMIC_RSP then put 160 else p.op }

/-- Give a packet its payload. -/
def setData (p : Pkt) (l : List Byte) (poison : Bool) : Pkt :=
  setPoison { p with data := padUnits l, len := ceilDiv l.length 64, lastBytes := l.length % 64 } poison

/-- Entry of a polder for its sluice and counter registers, or the number after the last where it has none. -/
def State.sluiceEnt (s : State) (d : Die) (polder : Nat) : Nat := (s.polderEnt d polder).getD 4097

def meter0 : Meter := { credit := 0, creditAt := 0, tc := 0, tp := 0, policeAt := 0 }

/-- Bring a polder's shaper credit to the present (13_switch_core.md R441): it rises while a packet of the polder waits
or while it is below 0, never above the burst, and a positive credit goes when none waits. -/
def State.refreshMeter (s : State) (d : Die) (e : Nat) : State :=
  let x := s.sluice d
  let m := (tget x.meters e).getD meter0
  let rate := s.rd d (SL.SHAPE_RATE.MBPS e)
  let cap := max 4160 (s.rd d (SL.SHAPE_BURST.BYTES e)) * 8000
  let waits := x.waiting.any (fun w => s.sluiceEnt d w.pkt.polder == e)
  let dt := s.now - m.creditAt
  let up : Int := m.credit + rate * dt
  let c : Int := if waits then min up cap else if m.credit < 0 then min up 0 else 0
  s.modSluice d (fun x => { x with meters := tput x.meters e { m with credit := c, creditAt := s.now } })

/-- Build a packet from its source and queue it in the sluice. On `wait` and `fault` nothing is queued. -/
def State.inject (s : State) (d : Die) (hp : Fin 4) (source : Nat) (tag : Option PTag) (flag : Bool) (p : Pkt)
    (src : PSrc) : State × SrcRes :=
  let id := s.nextPkt
  let s := { s.refreshMeter d (s.sluiceEnt d p.polder) with nextPkt := id + 1 }
  match s.readSrc d .packet id src with
  | (s, .data l b) =>
    let w : WPkt := { id := id, pkt := setData p l b, src := src, hp := hp, source := source, tag := tag, ready := true,
                      flag := flag, again := none }
    (s.modSluice d (fun x => { x with waiting := x.waiting ++ [w] }), .data l b)
  | (s, .pending) =>
    let w : WPkt := { id := id, pkt := setData p (List.replicate (srcLen src) 0) false, src := src, hp := hp,
                      source := source, tag := tag, ready := false, flag := flag, again := none }
    (s.modSluice d (fun x => { x with waiting := x.waiting ++ [w] }), .pending)
  | r => r

/-- Queue a packet whose bytes the device holds. -/
def State.injectHeld (s : State) (d : Die) (hp : Fin 4) (source : Nat) (tag : Option PTag) (p : Pkt) (l : List Byte) :
    State := (s.inject d hp source tag false p (.held l)).1

/-! ## Operations and their packets (06_work_queues.md R174; 09_remote_access.md R273, R283, R289) -/

/-- Chunks of a put or a get: 65,536-byte spans of remote address that it touches (R273). -/
def chunkCount (addr len : Nat) : Nat := if len = 0 then 1 else (addr + len - 1) / 65536 - addr / 65536 + 1

/-- Chunks that an operation issues in all. -/
def opChunks (o : WOp) : Nat :=
  let c := eOpcode o.entry
  if c = opPUT ∨ c = opPUT_NOTIFY ∨ c = opGET then chunkCount (rRaddr o.entry) (rLength o.entry) else 0

/-- Byte count of an operation that ends OK (R283; 08_matching.md R230). -/
def okBytes (o : WOp) : Nat :=
  let c := eOpcode o.entry
  if c = opTSEND then tsLength o.entry
  else if c = opPUT ∨ c = opPUT_NOTIFY ∨ c = opGET then rLength o.entry
  else if isAtomic c then atomicSize c else o.bytes

/-- End a running operation whose packets are all issued and acknowledged and which waits for nothing more; one that is
ordered to a status ends as soon as none of its packets is outstanding (R290). -/
def State.opCheck (s : State) (i : Nat) : State :=
  match s.op i with
  | none => s
  | some o =>
    if o.stage ≠ .running then s
    else if o.unacked ≠ 0 then s
    else if o.force.isSome then s.endOp i (o.force.getD 0) 0
    else if opChunks o ≤ o.chunks ∧ (o.expect = 0 ∨ (o.err.isSome ∧ o.out = [])) then
      match o.err with
      | none => s.endOp i stOK (okBytes o)
      | some e => s.endOp i e 0
    else s

/-- A packet of an operation met a status other than OK: the packet of lowest remote address decides (R289). -/
def State.opError (s : State) (i status at_ : Nat) : State :=
  s.modOp i (fun o => match o.err with
    | none => { o with err := some status, errAt := at_ }
    | some _ => if at_ < o.errAt then { o with err := some status, errAt := at_ } else o)

/-- A packet of an operation is acknowledged. -/
def State.opAcked (s : State) (t : PTag) : State :=
  let dec := fun (o : WOp) =>
    if eOpcode o.entry = opGET then o
    else match tget o.out t.chunk with
      | some n => { o with out := if n ≤ 1 then tdel o.out t.chunk else tput o.out t.chunk (n - 1) }
      | none => o
  (s.modOp t.op (fun o => dec { o with unacked := o.unacked - 1 })).opCheck t.op

/-- End an operation at once with a status, whatever it still waits for (10_transport.md R303, R305). -/
def State.opAbort (s : State) (i status : Nat) : State :=
  match s.op i with
  | some o => if o.stage = .running ∨ o.stage = .started then s.endOp i status 0 else s
  | none => s

/-- Earlier operations of the queue have left the stage in which their packets are first made, so that packets are made
in posting order (10_transport.md R311). -/
def State.opTurn (s : State) (i : Nat) (o : WOp) : Bool :=
  ((s.opsOf o.q).takeWhile (· != i)).all (fun j => match s.op j with | some p => p.stage != .started | none => true)

/-- A started operation of an opcode, whose turn it is, and whose cluster is awake. -/
def State.startedOp (s : State) (i : Nat) (code : Nat → Bool) : Option WOp :=
  match s.op i with
  | some o => if o.stage = .started ∧ code (eOpcode o.entry) ∧ s.opTurn i o ∧ s.clusterAwake o then some o else none
  | none => none

/-- Source number of a queue in the sluice (13_switch_core.md R438). -/
def queueSource (q : Nat) : Nat := q + 2

def opFn (o : WOp) : Fn := setFn (o.q / 8)
def opDie (o : WOp) : Die := setDie (o.q / 8)
def State.opPolder (s : State) (o : WOp) : Nat := match s.queue o.q with | some q => q.polder | none => 0

/-- A local key of an entry for a range (07_translation.md R200, R202): the region's offset, or a fault. -/
def State.localRange (s : State) (d : Die) (f : Fn) (key right addr len : Nat) : Except Nat Nat :=
  match s.localKey d f key right with
  | .error k => .error k
  | .ok r => match regionOffset r false addr with
    | none => .error xRANGE
    | some o => if o + len ≤ r.length then .ok o else .error xRANGE

/-- End an operation with the status of a translation fault at the initiator (R216). -/
def State.opFault (s : State) (i : Nat) (o : WOp) (key va reason : Nat) : State :=
  let st := faultStatus false reason
  let s := s.xFault (opDie o) false (s.opPolder o) key va reason
  if o.unacked = 0 then s.endOp i st 0
  else (s.opError i st 0).modOp i (fun o => { o with chunks := opChunks o, expect := 0 })

/-! ## Packets handed on to a consumer (10_transport.md R315, R317, R318, R320) -/

def State.handedPkt (s : State) (d : Die) (id : Nat) (code : Nat → Bool) : Option Handed :=
  (s.tru d).handed.find? (fun h => h.id == id && !h.done && code h.pkt.command)

def rxGet (l : List RxEnt) (q : Nat) : Option RxEnt := l.find? (fun e => e.seq == q)
def rxSet (l : List RxEnt) (q : Nat) (st : RxSt) : List RxEnt := l.map (fun e => if e.seq = q then { e with st := st, pkt := none } else e)

/-- Advance CUM over every packet that has landed or been rejected (R318). -/
def cumAdvance (m : Nat) : Nat → Ctx → Ctx
  | 0, c => c
  | n + 1, c =>
    let q := (c.cum + 1) % m
    match rxGet c.rx q with
    | some e => if e.st = .landed ∨ e.st = .rejected then
        cumAdvance m n { c with cum := q, rx := c.rx.filter (fun x => x.seq != q) } else c
    | none => c

/-- Hand on the ordered packets whose predecessors have all been received or rejected. -/
def State.handOn : Nat → Die → Nat → Nat → State → State
  | 0, _, _, _, s => s
  | n + 1, d, i, q, s =>
    match s.ctx? d i with
    | none => s
    | some c =>
      match rxGet c.rx q with
      | none => s
      | some e =>
        let s := match e.st, e.pkt with
          | .reorder, some p =>
            let h : Handed := { id := (s.tru d).nextHanded, pkt := p, ctx := i, seq := q, done := false, lines := [], reads := [] }
            (s.modTru d (fun t => { t with handed := t.handed ++ [h], nextHanded := t.nextHanded + 1 })).modCtx d i
              (fun c => { c with rx := rxSet c.rx q .handed })
          | _, _ => s
        State.handOn n d i ((q + 1) % s.seqMod d) s

/-- After a change of what has been received: hand on, advance CUM, release the tracker (R318, R319). -/
def State.rxSettle (s : State) (d : Die) (i : Nat) : State :=
  match s.ctx? d i with
  | none => s
  | some c =>
    let m := s.seqMod d
    let s := State.handOn (c.rx.length + 1) d i ((c.cum + 1) % m) s
    let s := s.modCtx d i (fun c => cumAdvance m (c.rx.length + 1) c)
    s.modCtx d i (fun c => { c with tracker := c.tracker && !c.rx.isEmpty, gapAt := if c.rx.isEmpty then 0 else c.gapAt })

/-- Unechoed outcome records of a die (R315). -/
def State.recordsUsed (s : State) (d : Die) : Nat := ((s.tru d).ctxs.map (fun p => p.2.records.length)).sum

/-! ### TRU_ACK (R314, R321) -/

/-- The bitmap of 256 numbers from `base`. -/
def ackBitmap (m : Nat) (c : Ctx) (base : Nat) : Nat :=
  c.rx.foldl (fun b e => if (e.st = .landed ∨ e.st = .rejected) ∧ sdiff m base e.seq < 256 then b + 2 ^ sdiff m base e.seq else b) 0

def recordBytes (r : OutRec) : List Byte := leBytes 8 (r.seq + r.ordinal * 2 ^ 32 + r.status * 2 ^ 48 + r.outcome * 2 ^ 56)

/-- Unechoed records, those sent longest ago first: a record unit holds eight (R314, R315). -/
def sentOrder (l : List OutRec) : List OutRec := l.mergeSort (fun a b => a.sentAt ≤ b.sentAt)

/-- The TRU_ACK of a context's receive half, with a bitmap from `base` if one is to be sent. -/
def ackPkt (m : Nat) (c : Ctx) (base : Option Nat) (nak : Bool) : Pkt :=
  let recs := (sentOrder c.records).take 8
  let bm := match base with | some b => leBytes 64 (ackBitmap m c b) | none => []
  let ru := if recs.isEmpty then [] else
    let l := (recs.map recordBytes).flatten; l ++ List.replicate (64 - l.length) 0
  let flags := b2n nak + 2 * b2n base.isSome + 4 * b2n (!recs.isEmpty) + 8 * b2n c.refused.isSome
  let echo := if c.gotAny then (c.gotNext + 65535) % 65536 else 0xFFFF
  let op := c.cum + (base.getD 0) * 2 ^ 32 + min c.counted 65535 * 2 ^ 64 + min c.marked 65535 * 2 ^ 80 + flags * 2 ^ 96 +
    recs.length * 2 ^ 104 + c.nextOrd * 2 ^ 112 + (c.refused.getD 0) * 2 ^ 128 + echo * 2 ^ 160
  { mkPkt cTRU_ACK vRSP false c.fea 0 op (bm ++ ru) with context := c.remote.getD 0, version := c.version }

/-- Send a TRU_ACK of a context, whose counts then start again (R321, R328). -/
def State.sendAckFrom (s : State) (d : Die) (i : Nat) (base : Option Nat) (nak : Bool) : State :=
  match s.ctx? d i with
  | none => s
  | some c =>
    let p := { ackPkt (s.seqMod d) c base nak with src := s.myFea d c.hp.val }
    ((s.when nak (fun s => s.bump d TRU.NAKS_SENT.COUNT)).sendCtl d p).modCtx d i (fun c =>
      { c with counted := 0, marked := 0, sinceAck := 0, ackAt := 0, echoDue := false,
               records := c.records.map (fun r => if ((sentOrder c.records).take 8).contains r then { r with sentAt := s.now } else r) })

/-- Send a TRU_ACK; in LOSSY_SR it has a bitmap from CUM + 1 whenever a tracker is in use. -/
def State.sendAck (s : State) (d : Die) (i : Nat) (nak : Bool) : State :=
  match s.ctx? d i with
  | none => s
  | some c => s.sendAckFrom d i (if s.lossy d && c.tracker then some ((c.cum + 1) % s.seqMod d) else none) nak

/-- A packet has landed or been rejected: acknowledge at ACK_COUNT, or start the delay (R321). -/
def State.ackCount (s : State) (d : Die) (i : Nat) : State :=
  let s := s.modCtx d i (fun c =>
    { c with sinceAck := c.sinceAck + 1, ackAt := if c.ackAt = 0 then s.now + s.rd d TRU.TRU_CFG.ACK_DELAY_NS else c.ackAt })
  match s.ctx? d i with
  | some c => if s.rd d TRU.TRU_CFG.ACK_COUNT ≤ c.sinceAck then s.sendAck d i false else s
  | none => s

/-! ### What a consumer does with its packet -/

/-- Refuse a packet as receiver-not-ready (R320): it and every later ordered packet not yet handed on count as not received. -/
def State.refusePkt (s : State) (d : Die) (i q : Nat) : State :=
  let m := s.seqMod d
  let s := (s.bump d TRU.RNR_SENT.COUNT).event d 11 none
  let s := s.modTru d (fun t => { t with handed := t.handed.filter (fun h => !(h.ctx == i && h.seq == q)) })
  let s := s.modCtx d i (fun c =>
    { c with rx := c.rx.filter (fun e => e.seq != q && !(e.st == .reorder && sbefore m q e.seq))
             refused := match c.refused with | some r => if sbefore m q r then some q else some r | none => some q })
  s.sendAck d i false

/-- Give a packet an outcome record; false when the table is full (R315). -/
def State.addRecord (s : State) (d : Die) (i q status outcome : Nat) : State × Bool :=
  if 8192 ≤ s.recordsUsed d then (s, false)
  else (s.modCtx d i (fun c =>
    { c with records := c.records ++ [{ seq := q, ordinal := c.nextOrd, status := status, outcome := outcome, sentAt := s.now }]
             nextOrd := (c.nextOrd + 1) % 65536 }), true)

/-- Reject a packet with a status (R317; 04_polders.md R108): it counts as received, and the record tells its status. -/
def State.rejectSeq (s : State) (d : Die) (i q status : Nat) : State :=
  match s.addRecord d i q status 1 with
  | (s, false) => s.refusePkt d i q
  | (s, true) =>
    let s := s.modCtx d i (fun c => { c with rx := rxSet c.rx q .rejected })
    let s := s.modTru d (fun t => { t with handed := t.handed.filter (fun h => !(h.ctx == i && h.seq == q)) })
    (s.rxSettle d i).sendAck d i false

/-- Release the slot reserved for an operation's notification (09_remote_access.md R281). -/
def State.dropRes (s : State) (d : Die) (ctx opId : Nat) : State :=
  let mine := fun (r : NotifyRes) => r.ctx == ctx && r.opId == opId
  let s := ((s.die d).rma.res.filter (fun r => mine r && !r.refused && !r.gone)).foldl
    (fun s r => s.modRing r.ring (fun g => { g with reserved := g.reserved - 1 })) s
  s.modDie d (fun x => { x with rma := { x.rma with res := x.rma.res.filter (fun r => !mine r) } })

/-- A put, notification or get request has failed at this target: its operation generates no event (09_remote_access.md R280). -/
def State.rmaFailed (s : State) (d : Die) (ctx seq : Nat) (p : Pkt) : State :=
  let id := p.opf 96 32
  if p.command < 0x20 ∨ cRMA_GET_REQ < p.command then s
  else
    let s := s.modDie d (fun x => { x with rma := { x.rma with
      failed := x.rma.failed.filter (fun f => !(f.ctx == ctx && f.opId == id)) ++ [⟨ctx, id, seq⟩] } })
    if p.command = cRMA_NOTIFY then s.dropRes d ctx id else s

/-- A handed-on packet is rejected by its consumer. RMA packets are counted at the target (09_remote_access.md R294). -/
def State.rejectPkt (s : State) (d : Die) (h : Handed) (status : Nat) : State :=
  let s := if 0x20 ≤ h.pkt.command ∧ h.pkt.command ≤ 0x25 then
      (s.bump d RMA.TARGET_REJECTS.COUNT).wrs d [(RMA.LAST_REJECT.POLDER, h.pkt.polder), (RMA.LAST_REJECT.STATUS, status),
        (RMA.LAST_REJECT.SRC_FEA, h.pkt.src)] |>.rmaFailed d h.ctx h.seq h.pkt
    else s
  s.rejectSeq d h.ctx h.seq status

/-- Record an ejection event in DIKE.LAST_DROP. -/
def State.ejectDrop (s : State) (d : Die) (p : Pkt) (c : Fld) (reason : Nat) : State :=
  (s.bump d c).wrs d [(DIKE.LAST_DROP.POLDER, p.polder), (DIKE.LAST_DROP.REASON, reason), (DIKE.LAST_DROP.SRC_FEA, p.src)]

/-- The packet's function lies on a link that is down (04_polders.md R107, test 1, at a later check). -/
def State.absentPort (s : State) (d : Die) (h : Handed) : State :=
  (s.ejectDrop d h.pkt DIKE.EJ_ABSENT_PORT.COUNT 3).rejectPkt d h stUNREACHABLE

/-- A consumer has performed a packet; it lands once its writes are visible. -/
def State.perform (s : State) (d : Die) (id : Nat) (lines : List Nat) : State :=
  s.modTru d (fun t => { t with handed := t.handed.map (fun h => if h.id = id then { h with done := true, lines := lines } else h) })

/-- Every packet of a context with a lower number than `q` has landed or been rejected (09_remote_access.md R285). -/
def State.lowerLanded (s : State) (d : Die) (i q : Nat) : Bool :=
  match s.ctx? d i with
  | some c => sdiff (s.seqMod d) c.cum q ≤ 1
  | none => true

/-- The packet and every lower one have landed (R280). -/
def State.landedTo (s : State) (d : Die) (i q : Nat) : Bool :=
  match s.ctx? d i with
  | some c => !sbefore (s.seqMod d) c.cum q
  | none => true

/-- Lines of device memory in a translated range. -/
def segLines (l : List (XRes × Nat)) : List Nat :=
  (l.map (fun p => match p.1 with
    | .dev a => (List.range ((a + p.2 - 1) / 64 - a / 64 + 1)).map (fun k => a / 64 + k)
    | _ => [])).flatten

end Sys2Proof.Machine
end

