-- ==== Sys2Proof/Machine/Ports.lean ====
section
/-! DEFINITION. Ports of the two dies under the running structure, the storage of arriving units with its credits
(13_switch_core.md R422 to R426), and the injection buffer (R436). -/

namespace Sys2Proof.Machine

/-! ## Parameters of the running structure by port (02_structure_image.md R36) -/

def roleOf (p : Params) (np : Nat) : PortRole := (tget p.roles np).getD .unused
def rateOf (p : Params) (np : Nat) : Nat := (tget p.rates np).getD 448
def reachOf (p : Params) (np : Nat) : Bool := (tget p.reaches np).getD (roleOf p np == .global)
def cableOf (p : Params) (np : Nat) : Nat := (tget p.cables np).getD (if roleOf p np = .global then 150 else 3)

/-- RATE code of a lane data rate (15_lanes.md R476). -/
def rateCode (gbps : Nat) : Nat := if gbps = 448 then 4 else if gbps = 224 then 3 else if gbps = 112 then 2 else 1
def rateGbps (code : Nat) : Nat := if code = 4 then 448 else if code = 3 then 224 else if code = 2 then 112 else if code = 1 then 56 else 0

/-- Flit time of a port in ps (14_link_layer.md R453): 272 bytes over its active lanes. -/
def flitPs (lanes gbps : Nat) : Nat := if lanes * gbps = 0 then 0 else 2176000 / (lanes * gbps)

/-- Replay buffer in KiB: as given, or the least multiple of 32 that covers the cable (14_link_layer.md R460). -/
def replayKib (p : Params) (np : Nat) : Nat :=
  if roleOf p np = .unused then 0
  else match tget p.replays np with
    | some k => k
    | none =>
      let bits := p.grouping * rateOf p np
      min 256 (32 * ceilDiv (ceilDiv ((10 * cableOf p np + 500) * bits) 2176) 128)

/-- Lanes per port, ports of a die (01_anatomy.md R11). -/
def State.lanesPerPort (s : State) : Nat := match s.running with | some r => r.params.grouping | none => 2
def State.portsPerDie (s : State) : Nat := 64 / s.lanesPerPort

/-- Port number of the i-th port of a die. -/
def State.npOf (s : State) (d : Die) (i : Nat) : Nat := d.num * s.portsPerDie + i

/-- The die and index of a port number. -/
def State.portOf (s : State) (np : Nat) : Die × Nat :=
  if np < s.portsPerDie then (.a, np) else (.b, np - s.portsPerDie)

def State.role (s : State) (d : Die) (i : Nat) : PortRole :=
  match s.running with | some r => roleOf r.params (s.npOf d i) | none => .unused

/-- The switch-core port of a network port's VC (R12, R419). -/
def State.portKey (s : State) (i vc : Nat) : Nat :=
  if s.lanesPerPort = 1 then i else if s.lanesPerPort = 4 then 4 * i + 2 * (vc % 2) else 2 * i

/-- The network port of a switch-core port. -/
def State.keyPort (s : State) (k : Nat) : Nat := k / s.lanesPerPort

/-- The switch-core ports of a network port. -/
def State.portKeys (s : State) (i : Nat) : List Nat :=
  if s.lanesPerPort = 4 then [4 * i, 4 * i + 2] else [s.portKey i 0]

def ipKey (k : Nat) : Nat := 64 + k % 8
def bpKey (b : Nat) : Nat := 72 + b % 8
def isNet (k : Nat) : Bool := k < 64
def isInternal (k : Nat) : Bool := 64 ≤ k && k < 72
def isBridge (k : Nat) : Bool := 72 ≤ k && k < 80

/-- Key of an input VC, or of an output VC. -/
def vcKey (port vn vc : Nat) : Nat := port * 32 + vn * 8 + vc
def keyVn (k : Nat) : Nat := k % 32 / 8
def keyVc (k : Nat) : Nat := k % 8

/-! ## Liveness (14_link_layer.md R465) -/

/-- LLU page base of the i-th port of a die. -/
def lluBase (i : Nat) : Nat := 0x2800000 + 0x10000 * i

def State.linkSt (s : State) (d : Die) (i : Nat) : Nat := s.rd d (LLU.LINK_STATE.STATE i)

def State.portLive (s : State) (d : Die) (i : Nat) : Bool :=
  s.linkSt d i == 3 && s.on d (HDR.CTRL.ENABLE (lluBase i))

/-- Some module of the bridge carries traffic between the dies. -/
def State.bridgeUp (s : State) : Bool :=
  (s.die .a).bridge.mods.any (fun m => m.2.live) && (s.die .b).bridge.mods.any (fun m => m.2.live)

/-! ## Storage and credits (R422 to R426) -/

def State.swc (s : State) (d : Die) : Swc := (s.die d).swc
def State.modSwc (s : State) (d : Die) (f : Swc → Swc) : State := s.modDie d (fun x => { x with swc := f x.swc })

def Swc.inList (x : Swc) (k : Nat) : List InPkt := (tget x.ins k).getD []
def Swc.setIns (x : Swc) (k : Nat) (l : List InPkt) : Swc :=
  { x with ins := if l.isEmpty then tdel x.ins k else tput x.ins k l }
def Swc.staged (x : Swc) (k : Nat) : List OUnit := (tget x.stage k).getD []
def Swc.setStage (x : Swc) (k : Nat) (l : List OUnit) : Swc :=
  { x with stage := if l.isEmpty then tdel x.stage k else tput x.stage k l }

/-- Units of the basin in use, by a predicate on the virtual network. -/
def basinUse (x : Swc) (f : Nat → Bool) : Nat :=
  (x.ins.map (fun p => if f (keyVn p.1) then (p.2.map (fun q => (q.basin.filter id).length)).sum else 0)).sum

def minUse (x : Swc) : Nat := (x.ins.map (fun p => (p.2.map (fun q => (q.basin.filter (!·)).length)).sum)).sum

/-- The basin has a free unit beyond those promised, and the virtual network is below its ceiling. -/
def State.basinRoom (s : State) (d : Die) (n : Nat) : Bool :=
  let x := s.swc d
  decide (basinUse x (fun _ => true) + x.reserved + 1 ≤ s.rd d SWC.BASIN.CAPACITY) &&
    decide (basinUse x (· == n) < s.rd d (SWC.BASIN_VN.CEILING n))

/-- Return a credit of an input port to the sender that feeds it: dedicated to a VC, or shared (R423). -/
def State.creditBack (s : State) (d : Die) (port : Nat) (vc : Option Nat) : State :=
  if isInternal port then
    s.modSwc d (fun x => match vc with
      | some v => { x with ded := nadd x.ded ((128 + port) * 32 + v) 1 }
      | none => { x with shr := nadd x.shr (128 + port) 1 })
  else if isBridge port then
    s.modDie d (fun x => { x with bridge := { x.bridge with owed := nadd x.bridge.owed (port * 32 + vc.getD 31) 1 } })
  else
    let ch := match vc with
      | some v => 3 * (v / 8) + v % 8
      | none => if s.lanesPerPort = 4 ∧ port % 4 = 2 then 13 else 12
    let i := s.keyPort port
    let s := s.modDie d (fun x => { x with llus := tmod x.llus i (fun l => { l with totals := tput l.totals ch ((nget l.totals ch + 1) % 2 ^ 32) }) })
    s.wr d (LLU.CREDIT.TOTAL_RETURNED i ch) (s.rd d (LLU.CREDIT.TOTAL_RETURNED i ch) + 1)

def State.reserve (s : State) (d : Die) (port : Nat) : State :=
  (s.modSwc d (fun x => { x with reserved := x.reserved + 1, resv := nadd x.resv port 1 })).creditBack d port none

/-- regrant of R425. -/
def State.regrant (s : State) (d : Die) (port n : Nat) : State :=
  if s.basinRoom d n then s.reserve d port
  else ((s.bump d SWC.CREDIT_WITHHOLDS.COUNT).event d 3 none).modSwc d (fun x => { x with withheld := x.withheld ++ [(port, n)] })

/-- Serve withheld shared credits, oldest first (R425, R426). -/
def State.serveWithheld (d : Die) : List (Nat × Nat) → State → State
  | [], s => s
  | (p, n) :: l, s =>
    State.serveWithheld d l (if s.basinRoom d n then
        (s.modSwc d (fun x => { x with withheld := x.withheld.erase (p, n) })).reserve d p
      else s)

/-- Bring a lane's throttling up to date with the basin (R439). -/
def State.throttleSync (s : State) (d : Die) (vn : Nat) : State :=
  let ceil := s.rd d (SWC.BASIN_VN.CEILING vn)
  let use := basinUse (s.swc d) (· == vn) * 100
  let on := s.rd d SWC.SLUICE_CFG.THROTTLE_ON_PCT
  let off := min (s.rd d SWC.SLUICE_CFG.THROTTLE_OFF_PCT) (on - 1)
  let was := if vn = vREQ then (s.sluice d).throttledReq else (s.sluice d).throttledCol
  let now := if was then !decide (use < off * ceil) else decide (on * ceil < use)
  let s := s.when (now && !was) (fun s => s.bump d SWC.THROTTLE_ONSETS.COUNT)
  s.modSluice d (fun x => if vn = vREQ then { x with throttledReq := now } else { x with throttledCol := now })

/-- The basin's use by a virtual network changed: REQ and COL are the lanes that throttle (R439). -/
def State.basinMoved (s : State) (d : Die) (vn : Nat) : State := s.when (vn == vREQ || vn == vCOL) (fun s => s.throttleSync d vn)

/-- The oldest stored unit of the j-th packet of an input VC leaves storage (R425). -/
def State.unitOut (s : State) (d : Die) (k j : Nat) : State :=
  let l := (s.swc d).inList k
  match l[j]? with
  | none => s
  | some q =>
    let s := s.modSwc d (fun x => x.setIns k (if q.sent = q.pkt.len then l.eraseIdx j else
      l.set j { q with sent := q.sent + 1, basin := q.basin.tail }))
    let s := if q.basin.head? = some false then s.creditBack d (k / 32) (some (k % 32)) else s
    (State.serveWithheld d (s.swc d).withheld s).basinMoved d (keyVn k)

/-- Consume the stored units of packets that are dropped (R413, R434): one at the head of its input VC, or one discarded as its
header arrived. -/
def State.consume (d : Die) (k : Nat) : Nat → State → State
  | 0, s => s
  | n + 1, s =>
    match ((s.swc d).inList k).findIdx? (fun q => q.drop && decide (q.sent < q.arrived)) with
    | some j => State.consume d k n (s.unitOut d k j)
    | none => s

/-- Consume what may be consumed in an input VC. -/
def State.consumeAll (s : State) (d : Die) (k : Nat) : State :=
  State.consume d k (((s.swc d).inList k).map (fun q => q.arrived)).sum s

/-- Discard the packet at the head of an input VC. -/
def State.dropHead (s : State) (d : Die) (k : Nat) : State :=
  match (s.swc d).inList k with
  | [] => s
  | q :: l => (s.modSwc d (fun x => x.setIns k ({ q with drop := true } :: l))).consumeAll d k

/-- What an input port discards of a packet as its header arrives: an unsupported version at a network port, but for the
opens of any version (02_structure_image.md R63), and a LENGTH above 64 (R413). -/
def State.headerDrop (s : State) (d : Die) (port : Nat) (p : Pkt) : State × Bool :=
  if isNet port && !(p.command == cCTX_OPEN || p.command == cCTX_OPEN_ACK) && !(1 ≤ p.version && p.version ≤ 2) then
    (s.bump .a IMS.VERSION_DROP_COUNT.COUNT, true)
  else if 64 < p.len then (s.bump d SWC.FORMAT_DROPS.COUNT, true)
  else (s, false)

/-- Add a unit to the input VC's last packet, or begin a packet with its header unit. -/
def takeUnit (l : List InPkt) (u : OUnit) (dropped : Bool) (now : Nat) (stored : Bool) : List InPkt :=
  match l.reverse with
  | q :: r =>
    if q.arrived ≤ q.pkt.len then
      (r.reverse ++ [{ q with pkt := { q.pkt with data := q.pkt.data ++ u.bytes }, arrived := q.arrived + 1,
                              basin := q.basin ++ [stored], marks := q.marks ++ [u.poison] }])
    else l ++ [{ pkt := pktOfHdr u.bytes, arrived := 1, sent := 0, basin := [stored], marks := [u.poison], out := none,
                 granted := false, since := now, decided := false, drop := dropped }]
  | [] => [{ pkt := pktOfHdr u.bytes, arrived := 1, sent := 0, basin := [stored], marks := [u.poison], out := none,
             granted := false, since := now, decided := false, drop := dropped }]

/-- The next unit of an input VC is a header unit. -/
def nextIsHead (l : List InPkt) : Bool := match l.reverse with | q :: _ => decide (q.pkt.len < q.arrived) | [] => true

/-- Crossbar port number of a switch-core port (R447). -/
def xpIdx (k : Nat) : Nat := if k < 64 then k / 2 else 32 + (k - 64)

/-- A unit arrives at an input VC (R425). -/
def State.unitIn (s : State) (d : Die) (k : Nat) (u : OUnit) : State :=
  let n := keyVn k
  let l := (s.swc d).inList k
  let s := if nextIsHead l then s.countBy d (PCU.PORT_CTR.COUNT (4 * xpIdx (k / 32) + 1)) (pktBytes (pktOfHdr u.bytes)) else s
  let (s, dropped) := if nextIsHead l then s.headerDrop d (k / 32) (pktOfHdr u.bytes) else (s, false)
  let s :=
    if u.shared then
      (s.modSwc d (fun x => { x.setIns k (takeUnit l u dropped s.now true) with reserved := x.reserved - 1, resv := nput x.resv (k / 32) (nget x.resv (k / 32) - 1) })).regrant d (k / 32) n
    else if s.basinRoom d n then
      (s.modSwc d (fun x => x.setIns k (takeUnit l u dropped s.now true))).creditBack d (k / 32) (some (k % 32))
    else s.modSwc d (fun x => x.setIns k (takeUnit l u dropped s.now false))
  (s.basinMoved d n).consumeAll d k

/-! ## Queue lengths (R385, R432) -/

/-- Units waiting in the die for an output port, by a predicate on `vn * 8 + vc`. -/
def State.outUnits (s : State) (d : Die) (port : Nat) (f : Nat → Bool) : Nat :=
  let x := s.swc d
  (x.ins.map (fun p => (p.2.map (fun q => match q.out with
    | some (o, v) => if o = port ∧ f v then q.arrived - q.sent else 0
    | none => 0)).sum)).sum + ((x.staged port).filter (fun u => f u.vc)).length

/-- The queue of an output VC (R432). -/
def State.vcQueue (s : State) (d : Die) (port vc : Nat) : Nat := s.outUnits d port (· == vc)

/-- Pressure of a network port (12_routing.md R385). -/
def State.pressure (s : State) (d : Die) (i : Nat) : Nat :=
  min 63 (((s.portKeys i).map (fun k => s.outUnits d k (fun v => v / 8 != vMGT))).sum / 256)

/-! ## Units of a packet, and the injection buffer -/

/-- Unit j of a packet: its header unit, or a data unit. -/
def unitBytes (p : Pkt) (j : Nat) : List Byte :=
  if j = 0 then hdrBytes p
  else
    let b := (p.data.drop (64 * (j - 1))).take 64
    b ++ List.replicate (64 - b.length) 0

/-- Take a credit for a VC of a port: a shared one while one is held, else a dedicated one (R424). -/
def State.takeCredit (s : State) (d : Die) (port vc : Nat) : Option (State × Bool) :=
  let x := s.swc d
  if 0 < nget x.shr port then some (s.modSwc d (fun x => { x with shr := nput x.shr port (nget x.shr port - 1) }), true)
  else if 0 < nget x.ded (port * 32 + vc) then
    some (s.modSwc d (fun x => { x with ded := nput x.ded (port * 32 + vc) (nget x.ded (port * 32 + vc) - 1) }), false)
  else none

def State.hasCredit (s : State) (d : Die) (port vc : Nat) : Bool :=
  decide (0 < nget (s.swc d).shr port) || decide (0 < nget (s.swc d).ded (port * 32 + vc))

/-- A checker of a die has a polder-table copy that is being refreshed: it drops what it would decide (16_faults.md R503). -/
def State.staleCheck (s : State) (d : Die) (k : Nat) : Bool := match tget (s.die d).staleChecks k with | some t => s.now < t | none => false

/-- Units in the injection buffer. -/
def State.injUsed (s : State) (d : Die) : Nat :=
  ((s.sluice d).inj.map (fun p => (p.2.map (fun q => q.1.len + 1 - q.2)).sum)).sum

/-- Move units of the injection buffer to an internal port while it has credits. -/
def State.pump (d : Die) (k : Nat) : Nat → State → State
  | 0, s => s
  | n + 1, s =>
    match (tget (s.sluice d).inj k).getD [] with
    | [] => s
    | (p, j) :: l =>
      match s.takeCredit d (128 + k / 32) (k % 32) with
      | none => s
      | some (s, sh) =>
        let u : OUnit := { vc := k % 32, bytes := unitBytes p j, shared := sh, poison := if j = 0 then p.badHdr else p.badData, head := j == 0,
                           tail := j == p.len, since := s.now }
        let l := if j = p.len then l else (p, j + 1) :: l
        let s := s.modSluice d (fun x => { x with inj := if l.isEmpty then tdel x.inj k else tput x.inj k l })
        State.pump d k n (s.unitIn d k u)

/-- Move what the injection buffer's credits allow. -/
def State.pumpAll (s : State) (d : Die) : State :=
  (s.sluice d).inj.foldl (fun s p => State.pump d p.1 ((p.2.map (fun q => q.1.len + 1 - q.2)).sum) s) s

/-- An admitted packet enters the injection buffer. -/
def State.injectAt (s : State) (d : Die) (p : Pkt) : State :=
  let k := vcKey (ipKey p.hash) p.vn 0
  (s.modSluice d (fun x => { x with inj := tput x.inj k ((tget x.inj k).getD [] ++ [(p, 0)]) })).pumpAll d

/-- Test 6 of R436. -/
def State.injRoom (s : State) (d : Die) (hash : Nat) (p : Pkt) : Bool :=
  decide (s.injUsed d + pktUnits p ≤ 32768) && s.hasCredit d (128 + ipKey hash) (p.vn * 8)

end Sys2Proof.Machine
end

