-- ==== Sys2Proof/Machine/Flags.lean ====
section
/-! DEFINITION. The arithmetic of the quadrilles (11_collectives.md R348 to R352): number formats, the flags and bins of the
binned accumulator, rounding, and the combining of elements. -/

namespace Sys2Proof.Machine

/-! ## Floating formats -/

/-- A binary format: width, precision with the hidden bit, and exponent bias. -/
structure Fmt where
  w : Nat
  p : Nat
  bias : Nat
  deriving DecidableEq, Repr

def fp64 : Fmt := ⟨64, 53, 1023⟩
def fp32 : Fmt := ⟨32, 24, 127⟩
def fp16 : Fmt := ⟨16, 11, 15⟩
def bf16 : Fmt := ⟨16, 8, 127⟩

/-- The floating format of a DTYPE below 4 (R345). -/
def dtypeFmt (t : Nat) : Fmt := if t = 0 then fp64 else if t = 1 then fp32 else if t = 2 then fp16 else bf16

/-- Element bytes of a DTYPE (R346). -/
def dtypeSize (t : Nat) : Nat := if t = 0 ∨ t = 4 ∨ t = 6 then 8 else if t = 2 ∨ t = 3 then 2 else 4

def isFloat (t : Nat) : Bool := t ≤ 3

/-- The format of FAST partials: FP64 for FP64 and FP32, FP32 for FP16 and BF16. -/
def wideFmt (t : Nat) : Fmt := if t ≤ 1 then fp64 else fp32

def Fmt.maxExp (f : Fmt) : Nat := 2 ^ (f.w - f.p) - 1
def Fmt.expOf (f : Fmt) (x : Nat) : Nat := x / 2 ^ (f.p - 1) % 2 ^ (f.w - f.p)
def Fmt.fracOf (f : Fmt) (x : Nat) : Nat := x % 2 ^ (f.p - 1)
def Fmt.neg (f : Fmt) (x : Nat) : Bool := bitOf x (f.w - 1)
def Fmt.isNan (f : Fmt) (x : Nat) : Bool := f.expOf x == f.maxExp && f.fracOf x != 0
def Fmt.isInf (f : Fmt) (x : Nat) : Bool := f.expOf x == f.maxExp && f.fracOf x == 0
def Fmt.inf (f : Fmt) (neg : Bool) : Nat := b2n neg * 2 ^ (f.w - 1) + f.maxExp * 2 ^ (f.p - 1)
/-- The canonical NaN (R348). -/
def Fmt.nan (f : Fmt) : Nat := f.inf false + 2 ^ (f.p - 2)

/-- A finite value in units of 2^-1074, without its sign (R349). -/
def Fmt.mag (f : Fmt) (x : Nat) : Nat :=
  let e := f.expOf x
  let m := if e = 0 then f.fracOf x else 2 ^ (f.p - 1) + f.fracOf x
  m * 2 ^ (max e 1 + 1074 - f.bias - (f.p - 1))

def Fmt.toInt (f : Fmt) (x : Nat) : Int := if f.neg x then -(f.mag x : Int) else f.mag x

/-- Round an integer multiple of 2^-(1074 + k) to a format: to nearest, ties to even; 0 gives +0, overflow an infinity. -/
def Fmt.round (f : Fmt) (n : Int) (k : Nat) : Nat :=
  let m := n.natAbs
  if m = 0 then 0
  else
    let sgn := b2n (decide (n < 0)) * 2 ^ (f.w - 1)
    -- Exponents are offset by 1074 + k, so that they are natural numbers.
    let emin := 1074 + k + 1 - f.bias
    let q := max (Nat.log2 m) emin - (f.p - 1)
    let r := m / 2 ^ q
    let rest := m % 2 ^ q
    let up := decide (2 ^ q < 2 * rest) || (decide (2 ^ q = 2 * rest) && r % 2 == 1)
    let r := if up then r + 1 else r
    let (r, q) := if r = 2 ^ f.p then (r / 2, q + 1) else (r, q)
    if r < 2 ^ (f.p - 1) then sgn + r
    else
      let e := q + (f.p - 1) + f.bias - (1074 + k)
      if f.maxExp ≤ e then f.inf (decide (n < 0)) else sgn + e * 2 ^ (f.p - 1) + (r - 2 ^ (f.p - 1))

/-- A sum in a format (R348, MODE FAST). -/
def Fmt.add (f : Fmt) (x y : Nat) : Nat :=
  if f.isNan x || f.isNan y || (f.isInf x && f.isInf y && f.neg x != f.neg y) then f.nan
  else if f.isInf x then x
  else if f.isInf y then y
  else f.round (f.toInt x + f.toInt y) 0

/-- A value of one format in another (R348): exact where it widens, rounded once where it narrows. -/
def convFmt (a b : Fmt) (x : Nat) : Nat :=
  if a.isNan x then b.nan else if a.isInf x then b.inf (a.neg x) else b.round (a.toInt x) 0

/-- Place in the order of R348, with -0 below +0. -/
def Fmt.order (f : Fmt) (x : Nat) : Int := if f.neg x then -(x % 2 ^ (f.w - 1) : Nat) - 1 else (x : Int)

/-- MIN and MAX of floating values (R348). -/
def Fmt.pick (f : Fmt) (mx : Bool) (x y : Nat) : Nat :=
  if f.isNan x || f.isNan y then f.nan else if (decide (f.order x < f.order y)) != mx then x else y

/-! ## Native elements -/

/-- Signed value of a word of `n` bytes. -/
def signedOf (n x : Nat) : Int := if 2 ^ (8 * n - 1) ≤ x then (x : Int) - 2 ^ (8 * n) else x

/-- Combine two native elements: OP 0 SUM of integers, 1 MIN, 2 MAX, 3 AND, 4 OR, 5 XOR (R345, R348). -/
def combineElem (op t x y : Nat) : Nat :=
  let n := dtypeSize t
  if op = 0 then (x + y) % 2 ^ (8 * n)
  else if op = 1 ∨ op = 2 then
    if isFloat t then (dtypeFmt t).pick (op == 2) x y
    else
      let lt := if t = 4 ∨ t = 5 then decide (signedOf n x < signedOf n y) else decide (x < y)
      if lt != (op == 2) then x else y
  else if op = 3 then x &&& y
  else if op = 4 then x ||| y
  else x ^^^ y

/-! ## The binned accumulator (R349 to R352) -/

/-- An accumulator element, with its flags. -/
structure Accum where
  b0 : Int
  b1 : Int
  b2 : Int
  top : Nat
  empty : Bool
  nan : Bool
  pinf : Bool
  ninf : Bool
  deriving DecidableEq, Repr

def accEmpty : Accum := ⟨0, 0, 0, 0, true, false, false, false⟩

/-- Raise TOP (R351). -/
def Accum.raise (a : Accum) (t : Nat) : Accum :=
  if t ≤ a.top then a
  else
    let k := t - a.top
    { a with top := t, b0 := 0, b1 := if k = 1 then a.b0 else 0, b2 := if k = 1 then a.b1 else if k = 2 then a.b0 else 0 }

/-- The level of a magnitude in units of 2^-1074, and its digit at a level (R349). -/
def levelOf (m : Nat) : Nat := Nat.log2 m / 40
def sliceOf (m j : Nat) : Nat := m / 2 ^ (40 * j) % 2 ^ 40

/-- Deposit a value of a floating format (R351). -/
def Accum.deposit (a : Accum) (f : Fmt) (x : Nat) : Accum :=
  if f.isNan x then { a with nan := true, empty := false }
  else if f.isInf x then (if f.neg x then { a with ninf := true, empty := false } else { a with pinf := true, empty := false })
  else
    let m := f.mag x
    if m = 0 then { a with empty := false }
    else
      let a := a.raise (levelOf m)
      let sg : Int := if f.neg x then -1 else 1
      let at_ := fun (k : Nat) => if a.top < k then (0 : Int) else sg * (sliceOf m (a.top - k) : Int)
      { a with b0 := a.b0 + at_ 0, b1 := a.b1 + at_ 1, b2 := a.b2 + at_ 2, empty := false }

/-- Merge two accumulators (R351). -/
def Accum.merge (x y : Accum) : Accum :=
  let t := max x.top y.top
  let x := x.raise t
  let y := y.raise t
  { b0 := x.b0 + y.b0, b1 := x.b1 + y.b1, b2 := x.b2 + y.b2, top := t, empty := x.empty && y.empty, nan := x.nan || y.nan,
    pinf := x.pinf || y.pinf, ninf := x.ninf || y.ninf }

/-- The result of an accumulator (R352). -/
def Accum.result (a : Accum) (f : Fmt) : Nat :=
  if a.nan || (a.pinf && a.ninf) then f.nan
  else if a.pinf then f.inf false
  else if a.ninf then f.inf true
  else if a.empty then 0
  else f.round ((a.b0 * 2 ^ 80 + a.b1 * 2 ^ 40 + a.b2) * 2 ^ (40 * a.top)) 80

/-- Two's complement in 64 bits. -/
def word64 (x : Int) : Nat := (x % 2 ^ 64).toNat

/-- The 32 bytes of an accumulator (R350). -/
def Accum.bytes (a : Accum) : List Byte :=
  leBytes 8 (word64 a.b0) ++ leBytes 8 (word64 a.b1) ++ leBytes 8 (word64 a.b2) ++
  leBytes 2 (a.top + 2 ^ 6 * b2n a.empty + 2 ^ 7 * b2n a.nan + 2 ^ 8 * b2n a.pinf + 2 ^ 9 * b2n a.ninf) ++ leBytes 6 0

def accOfBytes (l : List Byte) : Accum :=
  let w := fun (i : Nat) => signedOf 8 (leNat ((l.drop (8 * i)).take 8))
  let x := leNat ((l.drop 24).take 2)
  ⟨w 0, w 1, w 2, x % 64, bitOf x 6, bitOf x 7, bitOf x 8, bitOf x 9⟩

/-! ## Segments -/

/-- Cut bytes in elements of `n` bytes, `k` of them. -/
def elemsOf : Nat → Nat → List Byte → List Nat
  | 0, _, _ => []
  | k + 1, n, l => leNat (l.take n) :: elemsOf k n (l.drop n)

def accsOf : Nat → List Byte → List Accum
  | 0, _ => []
  | k + 1, l => accOfBytes (l.take 32) :: accsOf k (l.drop 32)

/-- The accumulators that an item of a REPRO floating sum stands for: native values deposited, binned ones as they are. -/
def itemAccs (k t fmt : Nat) (data : List Byte) : List Accum :=
  if fmt = 1 then accsOf k data
  else (elemsOf k (dtypeSize t) data).map (fun x => accEmpty.deposit (dtypeFmt t) x)

/-- The wide values that an item of a FAST floating sum stands for. -/
def itemWide (k t fmt : Nat) (data : List Byte) : List Nat :=
  if fmt = 2 then elemsOf k ((wideFmt t).w / 8) data
  else (elemsOf k (dtypeSize t) data).map (convFmt (dtypeFmt t) (wideFmt t))

/-- A floating SUM, the only case with a format of its own (R348). -/
def isFloatSum (kind op t : Nat) : Bool := kind ≤ 1 && op == 0 && isFloat t

/-- Combine the items of a segment, in index order: FORMAT and bytes of the partial (R348, R359, R361). -/
def combineItems (fast : Bool) (kind op t k : Nat) (items : List (Nat × List Byte)) : Nat × List Byte :=
  match items with
  | [] => (0, [])
  | (f0, d0) :: rest =>
    if isFloatSum kind op t then
      if fast then
        let l := rest.foldl (fun acc x => List.zipWith (wideFmt t).add acc (itemWide k t x.1 x.2)) (itemWide k t f0 d0)
        (2, (l.map (leBytes ((wideFmt t).w / 8))).flatten)
      else
        let l := rest.foldl (fun acc x => List.zipWith Accum.merge acc (itemAccs k t x.1 x.2)) (itemAccs k t f0 d0)
        (1, (l.map Accum.bytes).flatten)
    else
      let n := dtypeSize t
      let l := rest.foldl (fun acc x => List.zipWith (combineElem op t) acc (elemsOf k n x.2)) (elemsOf k n d0)
      (0, (l.map (leBytes n)).flatten)

/-- The ROOT's result of a partial (R348, R352). A zero sum gives +0. -/
def finishPart (t k fmt : Nat) (data : List Byte) : List Byte :=
  if fmt = 1 then ((accsOf k data).map (fun a => leBytes (dtypeSize t) (a.result (dtypeFmt t)))).flatten
  else if fmt = 2 then
    ((elemsOf k ((wideFmt t).w / 8) data).map (fun x => leBytes (dtypeSize t) (convFmt (wideFmt t) (dtypeFmt t) x))).flatten
  else data

end Sys2Proof.Machine
end

