-- ==== Sys2Proof/Machine/Rma.lean ====
section
/-! DEFINITION. Remote memory access: the operations, their segmentation, the packets at the target and the answers at the
initiator, and the commands of 09_remote_access.md. -/

namespace Sys2Proof.Machine

def State.rma (s : State) (d : Die) : Rma := (s.die d).rma
def State.modRma (s : State) (d : Die) (f : Rma → Rma) : State := s.modDie d (fun x => { x with rma := f x.rma })

/-! ## Segmentation (R270, R273) -/

/-- Addresses and lengths of the packets of a span: cut at every multiple of 4,096. -/
def cuts : Nat → Nat → Nat → List (Nat × Nat)
  | 0, _, _ => []
  | n + 1, a, len =>
    let k := min len (4096 - a % 4096)
    if len ≤ k then [(a, len)] else (a, k) :: cuts n (a + k) (len - k)

/-- Packets of a span of at most 65,536 bytes. -/
def packetsOf (a len : Nat) : List (Nat × Nat) := cuts 17 a len

/-- The span of chunk `j` of a put or get: address and length. -/
def chunkSpan (addr len j : Nat) : Nat × Nat :=
  let lo := max addr ((addr / 65536 + j) * 65536)
  let hi := min (addr + len) ((addr / 65536 + j + 1) * 65536)
  (lo, hi - lo)

/-- Packet flags, bytes 16–19 (R271). -/
def pktFlags (e : BitVec 512) (first last : Bool) : Nat :=
  let n := eOpcode e == opPUT_NOTIFY
  b2n first + 2 * b2n last + 4 * b2n (rFlag e) + 8 * b2n (rCtrEn e && last) + rCtr e * 2 ^ 4 + rSet e * 2 ^ 8 +
  b2n n * 2 ^ 15 + (if n then rRing e * 2 ^ 16 else 0)

/-- The operation-specific area of a request: RADDR or IMMEDIATE, RKEY, OP_ID, packet flags, a length. -/
def reqOp (w key opId flags len : Nat) : Nat :=
  w + key * 2 ^ 64 + opId % 2 ^ 32 * 2 ^ 96 + flags * 2 ^ 128 + len * 2 ^ 160

/-- Chunks outstanding per operation (R273). -/
def State.chunkWindow (s : State) (d : Die) : Nat := min 16 (max 1 (s.rd d RMA.RMA_CFG.CHUNK_WINDOW))

/-- The translated local range of an operation is readable now; otherwise its walks or recalls are under way, or it faults. -/
def State.rangeReady (s : State) (d : Die) (key off n : Nat) (a : Acs) : State × Except XRes (List (XRes × Nat)) :=
  match s.region? d key with
  | none => (s, .error (.fault xKEY))
  | some r => match s.xlate d r off n a false key with
    | (s, .ok l) =>
      match s.recallSegs l (a != .rd) with
      | (s, true) => (s, .ok l)
      | (s, false) => (s, .error .wait)
    | e => e

/-- Queue one data packet of a put. -/
def State.putPacket (s : State) (d : Die) (i : Nat) (o : WOp) (loff j : Nat) (a n : Nat) : State :=
  let e := o.entry
  let len := rLength e
  let notify := eOpcode e == opPUT_NOTIFY
  let last := !notify && a + n == rRaddr e + len
  let p := mkPkt cRMA_PUT vREQ notify (eDest e) (s.opPolder o) (reqOp a (rRkey e) i (pktFlags e (a == rRaddr e) last) len) []
  let src := if rInline e then PSrc.held (((eInline e len).drop (a - rRaddr e)).take n) else .region (eLkey e) (loff + (a - rRaddr e)) n
  (s.inject d (opFn o).hp (queueSource o.q) (some ⟨i, j, a, false⟩) (rFlag e) p src).1

/-- Queue the notification packet of a PUT_NOTIFY. -/
def State.notifyPacket (s : State) (d : Die) (i : Nat) (o : WOp) (j : Nat) : State :=
  let e := o.entry
  let p := mkPkt cRMA_NOTIFY vREQ true (eDest e) (s.opPolder o) (reqOp (rImmediate e) (rRkey e) i (pktFlags e false true) (rLength e)) []
  (s.inject d (opFn o).hp (queueSource o.q) (some ⟨i, j, rRaddr e + rLength e, false⟩) (rFlag e) p (.held [])).1

/-- Issue chunk `j` of a put. -/
def State.issuePut (s : State) (d : Die) (i : Nat) (o : WOp) (loff j : Nat) : State :=
  let e := o.entry
  let (a, n) := chunkSpan (rRaddr e) (rLength e) j
  let go := fun (s : State) =>
    let l := packetsOf a n
    let s := l.foldl (fun s p => s.putPacket d i o loff j p.1 p.2) s
    let fin := eOpcode e == opPUT_NOTIFY && j + 1 == opChunks o
    let s := s.when fin (fun s => s.notifyPacket d i o j)
    let k := l.length + b2n fin
    s.modOp i (fun o => { o with chunks := j + 1, issued := o.issued + n, unacked := o.unacked + k, out := tput o.out j k })
  if rInline e || n == 0 then go s
  else match s.rangeReady d (eLkey e) (loff + (a - rRaddr e)) n .rd with
    | (s, .ok _) => go s
    | (s, .error (.fault k)) => s.opFault i o (eLkey e) (eLaddr e + (a - rRaddr e)) k
    | (s, _) => s

/-- Issue chunk `j` of a get: one request (R274). -/
def State.issueGet (s : State) (d : Die) (i : Nat) (o : WOp) (j : Nat) : State :=
  let e := o.entry
  let (a, n) := chunkSpan (rRaddr e) (rLength e) j
  let p := mkPkt cRMA_GET_REQ vREQ false (eDest e) (s.opPolder o)
    (reqOp a (rRkey e) i (pktFlags e (j == 0) (j + 1 == opChunks o)) n) []
  let s := (s.inject d (opFn o).hp (queueSource o.q) (some ⟨i, j, a, false⟩) (rFlag e) p (.held [])).1
  s.modOp i (fun o => { o with chunks := j + 1, issued := o.issued + n, unacked := o.unacked + 1, out := tput o.out j (max n 1) })

/-- Issue the next chunk of a pull (08_matching.md R248): one TAG_PULL. -/
def State.issuePull (s : State) (d : Die) (i : Nat) (o : WOp) (p : Pull) : State :=
  let n := min 65536 (p.total - p.asked)
  let k := mkPkt cTAG_PULL vREQ true p.fea (s.opPolder o) (p.msgId + p.asked * 2 ^ 32 + n * 2 ^ 64 + i % 2 ^ 32 * 2 ^ 96) []
  let s := (s.inject d p.hp (queueSource o.q) (some ⟨i, p.asked / 65536, p.asked, false⟩) false k (.held [])).1
  (s.modOp i (fun o => { o with unacked := o.unacked + 1, out := tput o.out (p.asked / 65536) (max n 1) })).modDie d (fun x =>
    { x with tmu := { x.tmu with pulls := x.tmu.pulls.map (fun y => if y.op = i then { y with asked := p.asked + n } else y) } })

/-- Issue the next chunk of an operation when its window allows: the chunk that lies the window before it is acknowledged (R273). Not once the operation is ordered to a status (R290). -/
def State.issueChunk (s : State) (i : Nat) : State :=
  match s.op i with
  | none => s
  | some o =>
    let d := opDie o
    let e := o.entry
    let pull := (s.die d).tmu.pulls.find? (fun p => p.op == i)
    let next := match pull with | some p => p.asked / 65536 | none => o.chunks
    if o.stage ≠ .running ∨ o.force.isSome ∨ !s.clusterAwake o ∨ o.out.any (fun p => p.1 + s.chunkWindow d ≤ next) then s
    else match pull with
      | some p => if p.asked < p.total then s.issuePull d i o p else s
      | none =>
        if opChunks o ≤ o.chunks then s
        else if eOpcode e = opGET then s.issueGet d i o o.chunks
        else if rInline e ∨ rLength e = 0 then s.issuePut d i o 0 o.chunks
        else match s.localRange d (opFn o) (eLkey e) rLR (eLaddr e) (rLength e) with
          | .error k => s.opFault i o (eLkey e) (eLaddr e) k
          | .ok off => s.issuePut d i o off o.chunks

/-- CHUNK_ISSUE (R273, R274). -/
def execChunkIssue (i : Nat) (s : State) : Host.Outcome State Fault Refusal := .next (s.issueChunk i)

/-- Start a put or a get (R267, R269, R273): an inline length above 16 is LOCAL_LENGTH; the local key is checked; then the first chunk. -/
def State.startRma (s : State) (i code : Nat) : State :=
  match s.startedOp i (· == code) with
  | none => s
  | some o =>
    let e := o.entry
    let d := opDie o
    let len := rLength e
    let run := fun (s : State) => (s.modOp i (fun o => { o with stage := .running, expect := if code = opGET then max len 1 else 0 })).issueChunk i
    if rInline e then (if 16 < len then s.endOp i stLENGTH 0 else run s)
    else if eLkey e = 0 then run s
    else match s.localRange d (opFn o) (eLkey e) (if code = opGET then rLW else rLR) (eLaddr e) len with
      | .error k => s.opFault i o (eLkey e) (eLaddr e) k
      | .ok _ => run s

def execPut (i : Nat) (s : State) : Host.Outcome State Fault Refusal := .next (s.startRma i opPUT)
def execPutNotify (i : Nat) (s : State) : Host.Outcome State Fault Refusal := .next (s.startRma i opPUT_NOTIFY)
def execGet (i : Nat) (s : State) : Host.Outcome State Fault Refusal := .next (s.startRma i opGET)

/-- Start an atomic (R268, R270): one RMA_ATOMIC packet with one data unit. -/
def State.startAtomic (s : State) (i code : Nat) : State :=
  match s.startedOp i (· == code) with
  | none => s
  | some o =>
    let e := o.entry
    let d := opDie o
    let run := fun (s : State) =>
      let data := leBytes 16 (aOperand e o.ext) ++ leBytes 16 (aCompare e o.ext) ++ leBytes 32 0
      let p := mkPkt cRMA_ATOMIC vREQ true (eDest e) (s.opPolder o) (reqOp (rRaddr e) (rRkey e) i (pktFlags e true true) code) []
      let s := s.modOp i (fun o => { o with stage := .running, unacked := 1, expect := 1 })
      (s.inject d (opFn o).hp (queueSource o.q) (some ⟨i, 0, rRaddr e, false⟩) (rFlag e) p (.held data)).1
    if aLkey e = 0 then run s
    else match s.localRange d (opFn o) (aLkey e) rLW (aLaddr e) (atomicSize code) with
      | .error k => s.opFault i o (aLkey e) (aLaddr e) k
      | .ok _ => run s

def execFadd64 (i : Nat) (s : State) : Host.Outcome State Fault Refusal := .next (s.startAtomic i 0x40)
def execSwap64 (i : Nat) (s : State) : Host.Outcome State Fault Refusal := .next (s.startAtomic i 0x41)
def execCas64 (i : Nat) (s : State) : Host.Outcome State Fault Refusal := .next (s.startAtomic i 0x42)
def execSmin64 (i : Nat) (s : State) : Host.Outcome State Fault Refusal := .next (s.startAtomic i 0x43)
def execSmax64 (i : Nat) (s : State) : Host.Outcome State Fault Refusal := .next (s.startAtomic i 0x44)
def execUmin64 (i : Nat) (s : State) : Host.Outcome State Fault Refusal := .next (s.startAtomic i 0x45)
def execUmax64 (i : Nat) (s : State) : Host.Outcome State Fault Refusal := .next (s.startAtomic i 0x46)
def execSwap128 (i : Nat) (s : State) : Host.Outcome State Fault Refusal := .next (s.startAtomic i 0x48)
def execCas128 (i : Nat) (s : State) : Host.Outcome State Fault Refusal := .next (s.startAtomic i 0x49)

/-! ## At the target (R276 to R282) -/

/-- Fields of a request packet (R271). -/
def qRadr (p : Pkt) : Nat := p.opf 0 64
def pKey (p : Pkt) : Nat := p.opf 64 32
def qOpId (p : Pkt) : Nat := p.opf 96 32
def qBit (p : Pkt) (i : Nat) : Bool := p.opf (128 + i) 1 == 1
def qCtr (p : Pkt) : Nat := p.opf 132 4
def qSet (p : Pkt) : Nat := p.opf 136 7
def qRingN (p : Pkt) : Nat := p.opf 144 2
def qLen (p : Pkt) : Nat := p.opf 160 32

/-- Flagged packets and deferred events in the hold (R287). -/
def State.flagUsed (s : State) (d : Die) : Nat :=
  (s.rma d).flags.length + ((s.rma d).events.filter (fun e => !s.lowerLanded d e.ctx e.seq && !s.landedTo d e.ctx e.seq)).length

/-- An event of the packet would have to wait in the hold, which is full. -/
def State.holdFull (s : State) (d : Die) (h : Handed) : Bool := !s.lowerLanded d h.ctx h.seq && decide (8192 ≤ s.flagUsed d)

/-- The packet has been rejected: the TRU holds it as such, and not for a consumer. -/
def State.rejectedHere (s : State) (d : Die) (h : Handed) : Bool :=
  !(s.tru d).handed.any (fun x => x.id == h.id) &&
  match s.ctx? d h.ctx with
  | some c => match rxGet c.rx h.seq with | some e => e.st == .rejected | none => !sbefore (s.seqMod d) c.cum h.seq
  | none => false

/-- Refuse a packet that the flag hold has no room for (R287). -/
def State.rmaRefuse (s : State) (d : Die) (h : Handed) : State := (s.bump d RMA.RNR_REFUSALS.COUNT).refusePkt d h.ctx h.seq

/-- A remote fault of a request: recorded, and the packet rejected with its status (R216, R276). -/
def State.remoteFault (s : State) (d : Die) (h : Handed) (va reason : Nat) : State :=
  (s.xFault d true h.pkt.polder (pKey h.pkt) va reason).rejectPkt d h (faultStatus true reason)

/-- Steps 3 to 6 of R276 for the bytes of a packet, and the translation of its access: the region and the translated range; `none` where the
packet was rejected or refused, or waits. `step6` is step 6, which answers false where it fails. -/
def State.targetRange (s : State) (d : Die) (h : Handed) (right addr len : Nat) (a : Acs)
    (step6 : Region → State → State × Bool := fun _ s => (s, true)) : State × Option (Region × List (XRes × Nat)) :=
  match s.remoteKey d (endHp h.pkt.dest) h.pkt.polder (pKey h.pkt) right addr len with
  | .error k => (s.remoteFault d h addr k, none)
  | .ok (r, o) =>
    let range := fun (s : State) =>
      if len = 0 then (s, .ok []) else s.xlate d r o len a true (pKey h.pkt)
    let sk := setKey r.owner (qSet h.pkt)
    let noSet := decide (qBit h.pkt 3 = true ∧ (s.fnSets r.owner ≤ qSet h.pkt ∨ s.context sk = 0))
    let fault := fun (e : State × Except XRes (List (XRes × Nat))) (go : State → List (XRes × Nat) → State × Option (Region × List (XRes × Nat))) =>
      match e with
      | (s, .error (.fault k)) => (s.remoteFault d h addr k, none)
      | (s, .error _) => (s, none)
      | (s, .ok l) => go s l
    let last := fun (s : State) (go : State → State × Option (Region × List (XRes × Nat))) =>
      if noSet then (s.rejectPkt d h stREMOTE_ACCESS, none)
      else match step6 r s with
        | (s, true) => go s
        | (s, false) => (s, none)
    if !s.fnLinkUp r.owner then (s.absentPort d h, none)
    else if r.kind = .device then fault (range s) (fun s l => last s (fun s => (s, some (r, l))))
    else last s (fun s => fault (range s) (fun s l => (s, some (r, l))))

/-- The notification reservation of a packet with NOTIFY set (R281): its FIRST packet reserves, and later packets of a
refused operation are refused too. -/
def State.notifyReserve (s : State) (d : Die) (h : Handed) (owner : Fn) : State × Bool :=
  let p := h.pkt
  let old := (s.rma d).res.find? (fun r => r.ctx == h.ctx && r.opId == qOpId p)
  match old with
  | some r => if r.refused then (s.rejectPkt d h stNOT_READY, false) else (s, true)
  | none =>
    if !qBit p 0 then (s, true)
    else
      let rk := ringKey (setKey owner (qSet p)) (qRingN p)
      let ok := (match s.ring rk with | some r => 0 < ringFree r | none => false) &&
        decide (((s.rma d).res.filter (fun r => !r.refused)).length < 16384)
      let s := s.modRma d (fun x => { x with res := x.res ++ [⟨h.ctx, qOpId p, rk, !ok, false⟩] })
      if ok then (s.modRing rk (fun r => { r with reserved := r.reserved + 1 }), true)
      else ((s.bump d RMA.NOTIFY_NOT_READY.COUNT).rejectPkt d h stNOT_READY, false)

/-- Put a deferred event in the hold (R280, R282). -/
def State.defer (s : State) (d : Die) (h : Handed) (ctr : Option Nat) (note : Option (Nat × Nat × Nat × Nat × Nat)) : State :=
  let s := s.when (!s.lowerLanded d h.ctx h.seq) (fun s => s.bump d RMA.FLAG_HELD.COUNT)
  s.modRma d (fun x =>
    { x with events := x.events ++ [{ id := x.nextEvent, ctx := h.ctx, seq := h.seq, opId := qOpId h.pkt, ctr := ctr, since := s.now, note := note }]
             nextEvent := x.nextEvent + 1 })

/-- The counter that a LAST packet's event adds to. -/
def eventCtr (p : Pkt) (owner : Fn) : Option Nat :=
  if qBit p 3 then some (ctrKey (setKey owner (qSet p)) (qCtr p)) else none

/-- A flagged packet whose region's owner lies on one link of a bifurcated port is ordered behind the writes on the other: a zero-length
read with the requester ID of an owner there, whose return it waits for (R286). True once nothing is to be waited for. -/
def State.flagFence (s : State) (d : Die) (h : Handed) : State × Bool :=
  match (s.rma d).fenced.find? (fun f => f.1 == h.id), s.region? d (pKey h.pkt) with
  | some f, _ => (s, f.2)
  | none, none => (s, true)
  | none, some r =>
    let other := fun (x : Region) => x.live && x.wrote && x.owner.hp == r.owner.hp && s.fnLink x.owner != s.fnLink r.owner
    match (s.xlu d).regions.find? (fun q => other q.2) with
    | none => (s, true)
    | some q =>
      let f := q.2.owner
      let rd : HostRead := { die := d, fn := f, packet := h.id, off := 0, len := 0, use := .flagged, src := none }
      let s := { (s.hread f 0 0) with reads := tput s.reads s.nextRead rd, nextRead := s.nextRead + 1 }
      (s.modRma d (fun x => { x with fenced := x.fenced ++ [(h.id, false)] }), false)

/-- Step 6 of a put or notification: room for its event, and its reserved slot (R281, R287). -/
def State.putStep (d : Die) (h : Handed) (event : Bool) (r : Region) (s : State) : State × Bool :=
  if event && s.holdFull d h then (s.rmaRefuse d h, false)
  else if qBit h.pkt 15 then s.notifyReserve d h r.owner else (s, true)

/-- Step 6 of a get request or an atomic: room for its event (R287). -/
def State.eventStep (d : Die) (h : Handed) (_ : Region) (s : State) : State × Bool :=
  if qBit h.pkt 3 && s.holdFull d h then (s.rmaRefuse d h, false) else (s, true)

/-- Apply a put packet at the target (R276, R277). -/
def State.applyPut (s : State) (d : Die) (h : Handed) : State :=
  let p := h.pkt
  let data := pktData p
  match s.targetRange d h rRWR (qRadr p) data.length .wr (State.putStep d h (qBit p 3)) with
  | (s, none) => s
  | (s, some (r, segs)) =>
    let s := State.writeSegs segs data (!qBit p 2) p.srcPoison s
    let s := (s.bump d RMA.PUT_PACKETS.COUNT).perform d h.id (segLines segs)
    if qBit p 3 then s.defer d h (eventCtr p r.owner) none else s

/-- Apply the notification packet of a PUT_NOTIFY (R281, R282). It carries no address: of R201's tests the range one holds. An operation
without a reserved slot writes no notification. -/
def State.applyNotify (s : State) (d : Die) (h : Handed) : State :=
  let p := h.pkt
  let addr := match s.region? d (pKey p) with | some r => if r.zeroBased then 0 else r.vaBase | none => 0
  match s.targetRange d h rRWR addr 0 .wr (State.putStep d h true) with
  | (s, none) => s
  | (s, some (r, _)) =>
    let mine := fun (y : NotifyRes) => y.ctx == h.ctx && y.opId == qOpId p
    let note := ((s.rma d).res.find? mine).bind (fun y => if y.gone then none else some (y.ring, qLen p, p.src, qRadr p, pKey p))
    let s := s.modRma d (fun x => { x with res := x.res.filter (fun y => !mine y) })
    ((s.bump d RMA.PUT_PACKETS.COUNT).perform d h.id []).defer d h (eventCtr p r.owner) note

/-- Note a get request that has been served or rejected: its operation's base, the bytes so far, and the end of its LAST request. -/
def State.getNoted (s : State) (d : Die) (p : Pkt) (ctx b : Nat) (g : GetBase) : State :=
  let last := if qBit p 1 then some (qRadr p + qLen p) else g.last
  let g' : GetBase := { ctx := ctx, opId := qOpId p, base := some b, served := g.served + qLen p, last := last }
  s.modRma d (fun x =>
    let rest := x.gets.filter (fun y => !(y.ctx == ctx && y.opId == qOpId p))
    { x with gets := if last == some (b + g'.served) then rest else rest ++ [g'] })

/-- Serve a get request (R274): its data packets answer it, and it lands once their reads have been performed (R277). -/
def State.applyGet (s : State) (d : Die) (h : Handed) : State :=
  let p := h.pkt
  let g := ((s.rma d).gets.find? (fun g => g.ctx == h.ctx && g.opId == qOpId p)).getD ⟨h.ctx, qOpId p, none, 0, none⟩
  let base := if qBit p 0 then some (qRadr p) else g.base
  match base with
  | none => s
  | some b =>
    match s.targetRange d h rRR (qRadr p) (qLen p) .rd (State.eventStep d h) with
    | (s, none) => s.when ((s.rejectedHere d h)) (fun s => s.getNoted d p h.ctx b g)
    | (s, some (r, segs)) =>
      match s.recallSegs segs false with
      | (s, false) => s
      | (s, true) =>
        match regionOffset r true (qRadr p) with
        | none => s
        | some off =>
          let first := s.nextRead
          let s := (packetsOf (qRadr p) (qLen p)).foldl (fun s x =>
            let k := mkPkt cRMA_GET_DATA vRSP false p.src p.polder
              (qOpId p + (x.1 + 2 ^ 64 - b) % 2 ^ 32 * 2 ^ 32) []
            match s.inject d (endHp p.dest) 0 none false k (.region (pKey p) (off + (x.1 - qRadr p)) x.2) with
            | (s, .data _ true) => s.rmaFailed d h.ctx h.seq p
            | (s, _) => s) s
          let tags := (List.range (s.nextRead - first)).map (first + ·)
          let s := s.getNoted d p h.ctx b g
          let s := (s.bump d RMA.GET_REQUESTS.COUNT).perform d h.id []
          let s := s.modTru d (fun t => { t with handed := t.handed.map (fun y => if y.id = h.id then { y with reads := tags } else y) })
          if qBit p 3 then s.defer d h (eventCtr p r.owner) none else s

/-- Answer an atomic (R271, R277): the old value, which also acknowledges it. -/
def State.atomicAnswer (s : State) (d : Die) (h : Handed) (old : Nat) : State :=
  let p := h.pkt
  let k := mkPkt cRMA_ATOMIC_RSP vRSP true p.src p.polder (old % 2 ^ 128 + qOpId p * 2 ^ 128) []
  let s := s.injectHeld d (endHp p.dest) 0 none k []
  ((s.bump d RMA.ATOMICS.COUNT).perform d h.id [])

/-- An atomic whose target word is uncorrectable is not performed: its answer carries POISON (R288; 13_switch_core.md R416). -/
def State.atomicLost (s : State) (d : Die) (h : Handed) : State :=
  let p := h.pkt
  let k := mkPkt cRMA_ATOMIC_RSP vRSP true p.src p.polder (qOpId p * 2 ^ 128) []
  ((s.inject d (endHp p.dest) 0 none false k (.lost [])).1).perform d h.id []

/-- Operand, compare value and size of an RMA_ATOMIC packet. -/
def atomicArgs (p : Pkt) : Nat × Nat × Nat × AtomicKind :=
  let code := p.opf 160 8
  let n := atomicSize code
  (n, leNat (p.data.take n), leNat ((p.data.drop 16).take n), atomicKind code)

/-- The value that a network atomic leaves: CAS compares with its own compare value. -/
def rmaAtomicResult (k : AtomicKind) (n old operand compare : Nat) : Nat :=
  if k = .cas then (if old = compare then operand else old) else atomicResult k n old operand 0

/-- The atomic unit gives up the atomic of a packet. -/
def State.dropAtomic (s : State) (d : Die) (handed : Nat) : State :=
  s.modRma d (fun x => { x with atomics := x.atomics.filter (fun a => a.handed != handed) })

/-- Apply an atomic at the target (R279): at the ordering point of a device word, or by the atomic unit for host memory, whose read comes
first. Its write is translated again, when the data have returned (07_translation.md R215). -/
def State.applyAtomic (s : State) (d : Die) (h : Handed) : State :=
  let p := h.pkt
  let (n, x, y, k) := atomicArgs p
  match s.targetRange d h rRA (qRadr p) n .at (State.eventStep d h) with
  | (s, none) => if (s.handedPkt d h.id (fun _ => true)).isNone then s.dropAtomic d h.id else s
  | (s, some (r, segs)) =>
    match segs with
      | [(.dev a, _)] =>
        match s.recallFor a n true with
        | (s, false) => s
        | (s, true) =>
          if s.mpoison a n then s.atomicLost d h
          else
            let old := leNat (s.mread a n)
            let s := (s.mwrite a (leBytes n (rmaAtomicResult k n old x y)) false).atomicAnswer d h old
            if qBit p 3 then s.defer d h (eventCtr p r.owner) none else s
      | [(.host f a tr src, _)] =>
        let defer := fun (s : State) => if qBit p 3 then s.defer d h (eventCtr p r.owner) none else s
        match (s.rma d).atomics.find? (fun z => z.handed == h.id) with
        | some u => (match u.got with
          | none => s
          | some bs =>
            let old := leNat (bs.take n)
            defer (((s.hwrite f a false (leBytes n (rmaAtomicResult k n old x y)) tr).dropAtomic d h.id).atomicAnswer d h old))
        | none =>
        if !s.on d RMA.RMA_CFG.ATOMIC_HOST then s.rejectPkt d h stREMOTE_ACCESS
        else if 512 ≤ (s.rma d).atomics.length ∨ (s.rma d).atomics.any (fun z => z.addr / 64 == a / 64) then s
        else
          let r : HostRead := { die := d, fn := f, packet := h.id, off := 0, len := n, use := .atomic, src := some src }
          let s := { (s.hread f a n tr) with reads := tput s.reads s.nextRead r, nextRead := s.nextRead + 1 }
          s.modRma d (fun x => { x with atomics := x.atomics ++ [⟨s.nextRead, h.id, f, a, none⟩] })
      | _ => s.remoteFault d h (qRadr p) xRANGE

/-- The atomic unit's read returns: the atomic goes on; with poisoned data it is not performed (R279, R288). -/
def State.hostAtomicDone (s : State) (d : Die) (handed : Nat) (data : List Byte) (poisoned : Bool) (tag : Nat) : State :=
  let s := { s with reads := tdel s.reads tag }
  match (s.rma d).atomics.find? (fun a => a.handed == handed), s.handedPkt d handed (· == cRMA_ATOMIC) with
  | some _, some h =>
    if poisoned then (s.dropAtomic d handed).atomicLost d h
    else (s.modRma d (fun x => { x with atomics := x.atomics.map (fun a => if a.handed = handed then { a with got := some data } else a) })).applyAtomic d h
  | _, _ => s.dropAtomic d handed

/-- The FIRST packet of an operation: what is noted of an earlier one of the same OP_ID, by lower numbers, is no longer of use. -/
def State.firstOf (s : State) (d : Die) (h : Handed) : State :=
  if !qBit h.pkt 0 then s
  else s.modRma d (fun x => { x with failed := x.failed.filter (fun f =>
    !(f.ctx == h.ctx && f.opId == qOpId h.pkt && sbefore (s.seqMod d) f.seq h.seq)) })

/-- A request packet is to be applied: what was waited for before it is forgotten. -/
def State.rmaReady (s : State) (d : Die) (h : Handed) : State :=
  (s.firstOf d h).modRma d (fun x => { x with fenced := x.fenced.filter (fun f => f.1 != h.id) })

/-- Apply a request packet whatever its kind. -/
def State.applyRma (s : State) (d : Die) (h : Handed) : State :=
  let c := h.pkt.command
  match (if qBit h.pkt 2 then s.flagFence d h else (s, true)) with
  | (s, false) => s
  | (s, true) =>
    let s := s.rmaReady d h
    if c = cRMA_PUT then s.applyPut d h
    else if c = cRMA_NOTIFY then s.applyNotify d h
    else if c = cRMA_GET_REQ then s.applyGet d h
    else s.applyAtomic d h

/-- A request handed on: a flagged one whose predecessors have not all landed goes to the flag hold (R285, R287). -/
def State.takeRma (s : State) (d : Die) (id code : Nat) : State :=
  match s.handedPkt d id (· == code) with
  | none => s
  | some h =>
    if (s.rma d).flags.any (fun f => f.handed == id) then s
    else if qBit h.pkt 2 ∧ !s.lowerLanded d h.ctx h.seq then
      if 8192 ≤ s.flagUsed d then s.rmaRefuse d h
      else (s.bump d RMA.FLAG_HELD.COUNT).modRma d (fun x => { x with flags := x.flags ++ [⟨id, s.now⟩] })
    else s.applyRma d h

/-- RMA_PUT (R276, R277). -/
def execRmaPut (d : Die) (id : Nat) (s : State) : Host.Outcome State Fault Refusal := .next (s.takeRma d id cRMA_PUT)

/-- RMA_NOTIFY (R281, R282). -/
def execRmaNotify (d : Die) (id : Nat) (s : State) : Host.Outcome State Fault Refusal := .next (s.takeRma d id cRMA_NOTIFY)

/-- RMA_GET_REQ (R274). -/
def execRmaGetReq (d : Die) (id : Nat) (s : State) : Host.Outcome State Fault Refusal := .next (s.takeRma d id cRMA_GET_REQ)

/-- RMA_ATOMIC (R279). -/
def execRmaAtomic (d : Die) (id : Nat) (s : State) : Host.Outcome State Fault Refusal := .next (s.takeRma d id cRMA_ATOMIC)

/-- FLAG_HOLD_RELEASE (R285): every lower packet of the context has landed. -/
def execFlagHoldRelease (d : Die) (id : Nat) (s : State) : Host.Outcome State Fault Refusal :=
  .next (match (s.rma d).flags.find? (fun f => f.handed == id), s.handedPkt d id (fun _ => true) with
    | some f, some h =>
      if s.lowerLanded d h.ctx h.seq then
        ((s.modRma d (fun x => { x with flags := x.flags.filter (fun g => g.handed != id) })).atLeast d
          RMA.FLAG_HOLD_MAX.NS (s.now - f.since)).applyRma d h
      else s
    | _, _ => s)

/-- Drop a deferred event with nothing left to do. -/
def dropEvent (l : List Deferred) : List Deferred := l.filter (fun e => e.ctr.isSome || e.note.isSome)

/-- This target has rejected a packet of the event's operation, or lost data that it read: the operation generates no event (R280). -/
def State.eventVoid (s : State) (d : Die) (e : Deferred) : Bool :=
  (s.rma d).failed.any (fun f => f.ctx == e.ctx && f.opId == e.opId)

/-- Drop an event, and the slot reserved for its notification. -/
def State.voidEvent (s : State) (d : Die) (e : Deferred) : State :=
  let s := match e.note with
    | some n => s.modRing n.1 (fun g => { g with reserved := g.reserved - 1 })
    | none => s
  s.modRma d (fun x => { x with events := x.events.filter (fun y => y.id != e.id) })

/-- TARGET_COUNTER_EVENT (R280): applied once the packet and every lower one of its context have landed. -/
def execTargetCounterEvent (d : Die) (id : Nat) (s : State) : Host.Outcome State Fault Refusal :=
  .next (match (s.rma d).events.find? (fun e => e.id == id) with
    | some e =>
      match e.ctr with
      | some k =>
        if !s.landedTo d e.ctx e.seq then s
        else if s.eventVoid d e then s.voidEvent d e
        else ((s.ctrAdd k 1).atLeast d RMA.FLAG_HOLD_MAX.NS (s.now - e.since)).modRma d (fun x =>
            { x with events := dropEvent (x.events.map (fun y => if y.id = id then { y with ctr := none } else y)) })
      | none => s
    | none => s)

/-- The notification's completion entry (R282). -/
def noteBytes (written log2 len fea imm key : Nat) : List Byte :=
  leBytes 4 0 ++ leBytes 1 stOK ++ leBytes 1 (8 * b2n (phaseOf written log2)) ++ leBytes 1 0x31 ++ leBytes 1 0 ++
  leBytes 4 len ++ leBytes 4 fea ++ leBytes 8 imm ++ leBytes 8 key

/-- NOTIFICATION_WRITE (R282): into the reserved slot, after the counter event; nothing where the ring has been destroyed. -/
def execNotificationWrite (d : Die) (id : Nat) (s : State) : Host.Outcome State Fault Refusal :=
  .next (match (s.rma d).events.find? (fun e => e.id == id) with
    | some e =>
      match e.ctr, e.note with
      | none, some (rk, len, fea, imm, key) =>
        if !s.landedTo d e.ctx e.seq then s
        else if s.eventVoid d e then s.voidEvent d e
        else
          let s := s.modRma d (fun x =>
            { x with events := dropEvent (x.events.map (fun y => if y.id = id then { y with note := none } else y)) })
          match s.ring rk with
          | none => s
          | some r =>
            let s := s.hwrite (setFn (rk / 4)) (r.base + r.written % 2 ^ r.log2 * 32) false (noteBytes r.written r.log2 len fea imm key)
            (s.modRing rk (fun r => { r with reserved := r.reserved - 1, written := add32 r.written 1 })).msix rk
      | _, _ => s
    | none => s)

/-! ## At the initiator (R283, R288) -/

/-- The operation that a packet of a polder names, by the low 32 bits of its number: an object of another polder is none (04_polders.md R107). -/
def State.opById (s : State) (d : Die) (id polder : Nat) : Option (Nat × WOp) :=
  s.ops.find? (fun p => p.1 % 2 ^ 32 == id && opDie p.2 == d && p.2.stage == .running && s.opPolder p.2 == polder)

/-- Count get data as written: the chunk closes when all of its bytes are (R274). -/
def chunkWritten (o : WOp) (chunk n : Nat) : WOp :=
  { o with expect := o.expect - n
           out := match tget o.out chunk with
             | some k => if k ≤ n then tdel o.out chunk else tput o.out chunk (k - n)
             | none => o.out }

/-- Write bytes through a local key; the new state, and whether it waits, faults or is done. -/
def State.writeLocal (s : State) (d : Die) (f : Fn) (key addr : Nat) (data : List Byte) (poison : Bool) : State × SrcRes :=
  if data.isEmpty then (s, .data [] false)
  else match s.localRange d f key rLW addr data.length with
    | .error k => (s, .fault k)
    | .ok off =>
      match s.rangeReady d key off data.length .wr with
      | (s, .ok l) => (State.writeSegs l data true poison s, .data [] false)
      | (s, .error (.fault k)) => (s, .fault k)
      | (s, _) => (s, .wait)

/-- RMA_GET_DATA (R283, R288, R290): written through the get's local key; discarded for an operation that is gone or ordered
to a status. -/
def State.takeGetData (s : State) (d : Die) (id : Nat) : State :=
  match s.handedPkt d id (· == cRMA_GET_DATA) with
  | none => s
  | some h =>
    let p := h.pkt
    match s.opById d (p.opf 0 32) p.polder with
    | none => s.perform d id []
    | some (i, o) =>
      let off := p.opf 32 32
      let data := pktData p
      let chunk := (rRaddr o.entry + off) / 65536 - rRaddr o.entry / 65536
      let count := fun (s : State) => ((s.modOp i (fun o => chunkWritten o chunk (max data.length 1))).opCheck i).perform d id []
      if o.force.isSome then count s
      else
        let s := if p.srcPoison then (s.opError i stREMOTE_ACCESS (rRaddr o.entry + off)).modOp i (fun o => { o with aux := 1 }) else s
        match s.writeLocal d (opFn o) (eLkey o.entry) (eLaddr o.entry + off) data p.srcPoison with
        | (s, .wait) => s
        | (s, .fault k) => count ((s.xFault d false (s.opPolder o) (eLkey o.entry) (eLaddr o.entry + off) k).opError i
            (faultStatus false k) (rRaddr o.entry + off))
        | (s, _) => count s

def execRmaGetData (d : Die) (id : Nat) (s : State) : Host.Outcome State Fault Refusal := .next (s.takeGetData d id)

/-- A descriptor is of a packet of operation `i`. -/
def descOf (i : Nat) (x : Desc) : Bool := match x.tag with | some t => t.op == i && !t.quad | none => false

/-- The response to an atomic acknowledges its packet (10_transport.md R316). -/
def State.ackAtomic (s : State) (d : Die) (ctx i : Nat) : State :=
  match s.ctx? d ctx with
  | none => s
  | some c =>
    if c.descs.any (descOf i) then
      (s.modCtx d ctx (fun c => { c with descs := c.descs.filter (fun x => !descOf i x) })).modOp i
        (fun o => { o with unacked := o.unacked - 1 })
    else s

/-- RMA_ATOMIC_RSP (R268, R283): the old value is written to the result buffer and returned in the completion. It also
acknowledges its atomic (10_transport.md R316). -/
def State.takeAtomicRsp (s : State) (d : Die) (id : Nat) : State :=
  match s.handedPkt d id (· == cRMA_ATOMIC_RSP) with
  | none => s
  | some h =>
    let p := h.pkt
    match s.opById d (p.opf 128 32) p.polder with
    | none => s.perform d id []
    | some (i, o) =>
      let n := atomicSize (eOpcode o.entry)
      let old := p.opf 0 (8 * n)
      let fin := fun (s : State) => (((s.ackAtomic d h.ctx i).modOp i (fun o => { o with expect := 0, imm := p.opf 0 64, aux := if n = 16 then p.opf 64 64 else 0 })).opCheck i).perform d id []
      let lost := fun (s : State) => (((s.ackAtomic d h.ctx i).opError i stREMOTE_ACCESS 0).modOp i (fun o => { o with expect := 0, aux := 1 })).opCheck i
      if p.srcPoison ∧ o.force.isNone then (lost s).perform d id []
      else if o.force.isSome ∨ aLkey o.entry = 0 then fin s
      else match s.writeLocal d (opFn o) (aLkey o.entry) (aLaddr o.entry) (leBytes n old) p.srcPoison with
        | (s, .wait) => s
        | (s, .fault k) => fin ((s.xFault d false (s.opPolder o) (aLkey o.entry) (aLaddr o.entry) k).opError i (faultStatus false k) 0)
        | (s, _) => fin s

def execRmaAtomicRsp (d : Die) (id : Nat) (s : State) : Host.Outcome State Fault Refusal := .next (s.takeAtomicRsp d id)

/-! ## Host reads that return -/

/-- Bytes placed at an offset of a packet's data. -/
def placeBytes (l : List Byte) (off : Nat) (bs : List Byte) : List Byte := l.take off ++ bs ++ l.drop (off + bs.length)

/-- The data of a read fill the packet that waits for them in the sluice, which is ready once its last read has returned. Lost data fail
the get that they answer (09_remote_access.md R280, R288). -/
def State.fillRead (s : State) (r : HostRead) (tag : Nat) (got : List Byte) (poisoned : Bool) : State :=
  let last := s.reads.all (fun p => !(p.2.packet == r.packet && p.2.die == r.die && p.2.use == ReadUse.packet))
  let fill := fun (w : WPkt) =>
    { w with ready := last
             pkt := setPoison { w.pkt with data := placeBytes w.pkt.data r.off got } (w.pkt.srcPoison || poisoned) }
  let s := s.modDie r.die (fun x => { x with sluice := { x.sluice with waiting := x.sluice.waiting.map (fun w =>
    if w.id = r.packet then fill w else w) } })
  if !poisoned then s
  else match (s.tru r.die).handed.find? (fun h => h.reads.contains tag) with
    | some h => s.rmaFailed r.die h.ctx h.seq h.pkt
    | none => s

/-- The read that a flagged packet waits for has returned (09_remote_access.md R286). -/
def State.fenceReturned (s : State) (r : HostRead) : State :=
  let s := s.modRma r.die (fun x => { x with fenced := x.fenced.map (fun f => if f.1 = r.packet then (f.1, true) else f) })
  match s.handedPkt r.die r.packet (fun c => 0x20 ≤ c && c ≤ 0x24) with
  | some h => s.applyRma r.die h
  | none => s

end Sys2Proof.Machine
end

