-- ==== Sys2Proof/Machine/Tmu.lean ====
section
/-! DEFINITION. Message matching: receives, unexpected messages, their place in the bins, lists and home storage, the rehash,
and the commands of 08_matching.md. -/

namespace Sys2Proof.Machine

def State.tmu (s : State) (d : Die) : Tmu := (s.die d).tmu
def State.modTmu (s : State) (d : Die) (f : Tmu → Tmu) : State := s.modDie d (fun x => { x with tmu := f x.tmu })

/-! ## Matching (R223 to R225) -/

/-- A message matches a receive (R224). -/
def matchKey (r m : MKey) : Bool :=
  r.context == m.context && (r.anySource || r.source == m.source) &&
  (r.bits ^^^ m.bits) &&& (2 ^ 64 - 1 - r.ignore % 2 ^ 64) == 0

/-- A receive is a wildcard receive (R225). -/
def isWild (r : MKey) : Bool := r.anySource || r.ignore % 2 ^ 32 != 0

/-- Match fields of a TRECV, and of a probe or cancel. -/
def recvKey (e : BitVec 512) : MKey :=
  { context := trContext e, source := trSource e, bits := trBits e, ignore := trIgnore e, anySource := trAny e }
def probeKey (e : BitVec 512) : MKey :=
  { context := trContext e, source := trSource e, bits := trBits e, ignore := trIgnore e, anySource := tpAny e }

/-- Match key of a first packet (R223, R247). -/
def msgKey (p : Pkt) : MKey :=
  { context := p.opf 64 32, source := p.src + p.opf 120 8 * 2 ^ 24, bits := p.opf 0 64, ignore := 0, anySource := false }

/-- The RECV queue that a first packet names, by key. -/
def msgQueue (p : Pkt) : Nat :=
  qKey (setKey ⟨endHp p.dest, ⟨p.opf 96 8 % 256, Nat.mod_lt _ (by decide)⟩⟩ (p.opf 104 7)) (p.opf 111 3)

/-! ## Places (R234 to R238) -/

/-- The seed of a polder on a die (R236). -/
def State.polderSeed (s : State) (d : Die) (id : Nat) : Nat := match s.polder? d id with | some (_, p) => p.seed | none => 0

/-- The bin of an entry in a table (R236). -/
def State.binOf (s : State) (d : Die) (table : Bool) (q polder : Nat) (k : MKey) : Nat :=
  let t := s.tmu d
  let key := if table then t.key1 else t.key0
  Config.binHash key (((((s.polderSeed d polder * 2 ^ 40 + q) * 2 ^ 32 + k.context) * 2 ^ 32 + k.source) * 2 ^ 32) + k.bits % 2 ^ 32) %
    max 1 (s.rd d TMU.BINS.COUNT)

/-- The table that new entries go to (R255). -/
def insertTable (t : Tmu) : Bool := if t.rehash then !t.live else t.live

/-- On-chip entries of a bin; its storage is shared between the tables. -/
def onchipIn (l : List MEnt) (bin : Nat) : Nat := (l.filter (fun e => !e.wild && e.onchip && e.bin == bin)).length

/-- The tail of a queue's wildcard list. -/
def wildTail (l : List MEnt) (q : Nat) : Option MEnt := (l.filter (fun e => e.wild && e.q == q)).getLast?

/-- Place an entry: it joins an identical run or takes a bin slot, a spilled chain, or the wildcard list (R235, R237, R238). -/
def State.place (s : State) (d : Die) (q polder n : Nat) (k : MKey) (posted : Bool) : State :=
  let t := s.tmu d
  let wild := posted && isWild k
  let tab := insertTable t
  let join := fun (e : MEnt) =>
    if wild then wildTail t.ents q == some e && e.key == k
    else !e.wild && e.posted == posted && e.q == q && e.key == k && e.table == tab
  if t.ents.any join then
    (s.bump d TMU.RUN_COLLAPSES.COUNT).modTmu d (fun t =>
      { t with ents := chipPlaces 0 0 (t.ents.map (fun e => if join e then { e with members := e.members ++ [n] } else e)) })
  else
    let bin := if wild then 0 else s.binOf d tab q polder k
    s.modTmu d (fun t => { t with ents := chipPlaces 0 0 (t.ents ++ [{ q := q, posted := posted, key := k, members := [n], wild := wild,
                                                                       table := tab, bin := bin, onchip := onchipIn t.ents bin < 4, kept := [] }]) })

/-- Take a member out of its entry; an entry without members goes. -/
def State.unplace (s : State) (d : Die) (q n : Nat) (posted : Bool) : State :=
  s.modTmu d (fun t => { t with ents := dropMembers t.ents q posted [n] })

/-- Numbers below a count and free, the lowest first: the places that a receive, a message or its data take (log entry 157). -/
def freePlaces (used : List Nat) (n : Nat) : List Nat := ((List.range (used.length + n)).filter (fun k => !used.contains k)).take n

/-- Addresses in the device region (R234; 05_host_ports.md R135): a receive's home, a message's descriptor home, a granule. -/
def State.recvHome (s : State) (d : Die) (n : Nat) : Nat := s.regionBase d + 0x20000000 + n * 64
def State.uxHome (s : State) (d : Die) (n : Nat) : Nat := s.regionBase d + 0xA0000000 + n * 64
def State.granule (s : State) (d : Die) (n : Nat) : Nat := s.regionBase d + 0xA4000000 + n * 256

/-- The address of byte `i` of a message that lies in granules. -/
def State.granByte (s : State) (d : Die) (l : List Nat) (i : Nat) : Nat := s.granule d (l.getD (i / 256) 0) + i % 256

/-- Write bytes of a message into its granules, from an offset (R243). -/
def State.granWrite (d : Die) (l : List Nat) (poison : Bool) : List Byte → Nat → State → State
  | [], _, s => s
  | b :: bs, i, s => State.granWrite d l poison bs (i + 1) (s.mstore (s.granByte d l i) [b] poison)

/-- The bytes of a message in its granules, and whether one of them is poisoned. -/
def State.granRead (s : State) (d : Die) (l : List Nat) (n : Nat) : List Byte × Bool :=
  let a := (List.range n).map (s.granByte d l)
  (a.map s.mbyte, a.any (fun x => s.mpoison x 1))

/-! ## What a lookup examines (R240, R241) -/

def headOf (e : MEnt) : Nat := e.members.headD 0

/-- Entries of a chain read in ascending order, up to the first that matches. -/
def chainCost (l : List MEnt) (hit : MEnt → Bool) : Nat :=
  match l.findIdx? hit with
  | some i => i + 1
  | none => l.length

/-- Sort entries by the number of their head. -/
def byHead (l : List MEnt) : List MEnt := l.mergeSort (fun a b => headOf a ≤ headOf b)

/-- Lowest head among entries that satisfy a test. -/
def lowest (l : List MEnt) (hit : MEnt → Bool) : Option Nat :=
  (l.filter hit).foldl (fun m e => match m with | some x => some (min x (headOf e)) | none => some (headOf e)) none

def below (b : Option Nat) (x : Nat) : Bool := match b with | some y => x < y | none => true

/-- Entries examined in a bin of a table, spilled entries read, and the best number so far, where `best` is that of the tables before. -/
def binCost (ents : List MEnt) (table : Bool) (bin : Nat) (posted : Bool) (hit : MEnt → Bool) (best : Option Nat) : Nat × Nat × Option Nat :=
  let l := ents.filter (fun e => !e.wild && e.posted == posted && e.table == table && e.bin == bin)
  let on := l.filter (·.onchip)
  let sp := byHead (l.filter (fun e => !e.onchip))
  let least := fun (b x : Option Nat) => match b, x with | some y, some z => some (min y z) | some y, none => some y | none, x => x
  let b := least best (lowest on hit)
  let go := match sp with | e :: _ => below b (headOf e) | [] => false
  if go then (on.length + chainCost sp hit, chainCost sp hit, least b (lowest sp hit)) else (on.length, 0, b)

/-- Wildcard entries of a queue that an arrival reads from their homes (R240). -/
def wildCost (ents : List MEnt) (q : Nat) (best : Option Nat) (hit : MEnt → Bool) : Nat :=
  let l := (ents.filter (fun e => e.wild && e.q == q)).takeWhile (fun e => below best (headOf e))
  ((l.take (chainCost l hit)).filter (fun e => !e.onchip)).length

/-- Examined entries and spilled reads of a lookup of an arrival, or of an exact or wildcard post or probe: the live table, then the shadow
table while a rehash runs, then the wildcard list of an arrival (R240). -/
def State.lookCost (s : State) (d : Die) (q polder : Nat) (k : MKey) (arrival : Bool) : Nat × Nat :=
  let t := s.tmu d
  let hit := fun (e : MEnt) => e.q == q && (if arrival then matchKey e.key k else matchKey k e.key)
  if !arrival && isWild k then
    let l := byHead (t.ents.filter (fun e => !e.posted && e.q == q))
    (0, ((l.take (chainCost l hit)).filter (fun e => !e.onchip)).length)
  else
    let one := fun tab best => binCost t.ents tab (s.binOf d tab q polder k) arrival hit best
    let (n, r, best) := one t.live none
    let (m, x, best) := if t.rehash then one (!t.live) best else (0, 0, best)
    (n + m, r + x + if arrival then wildCost t.ents q best hit else 0)

/-- Count a lookup, and its length in the interval's histogram (R254). -/
def State.countLookup (s : State) (d : Die) (n : Nat) : State :=
  (s.bump d TMU.LOOKUPS.COUNT).modTmu d (fun t => { t with hist := tput t.hist n ((tget t.hist n).getD 0 + 1) })

/-- Waiting lookups that read homes. -/
def homeLookups (t : Tmu) : List Lookup := t.lookups.filter (fun l => !l.input)

/-- Run an operation on a queue: it waits behind a lookup of the queue that waits (R233, R242); spilled entries that it must
read make it such a lookup, or let it wait in the TMU's input at the die's limit or its polder's; otherwise it is decided now. -/
def State.withLookup (s : State) (d : Die) (q polder : Nat) (k : MKey) (arrives : Bool) (arrival op : Option Nat)
    (act : State → State) : State :=
  let t := s.tmu d
  let mine := fun (l : Lookup) => l.input && l.arrival == arrival && l.op == op
  if t.lookups.any (fun l => l.q == q && !mine l) then s
  else
    let (n, reads) := s.lookCost d q polder k arrives
    let add := fun (s : State) (left : Nat) (input : Bool) => s.modTmu d (fun t =>
      { t with lookups := t.lookups.filter (fun l => !mine l) ++ [{ id := t.nextLookup, q := q, polder := polder, arrival := arrival,
                                                                    op := op, left := left, input := input }]
               nextLookup := t.nextLookup + 1 })
    if reads = 0 then act (((s.countLookup d n).event d 7 (some polder)).modTmu d (fun t => { t with lookups := t.lookups.filter (fun l => !mine l) }))
    else if 256 ≤ (homeLookups t).length ∨ 32 ≤ ((homeLookups t).filter (fun l => l.polder == polder)).length then
      s.when (!t.lookups.any mine) (fun s => add s 0 true)
    else add (s.countLookup d n) reads false

/-! ## Receives -/

def State.tmuOn (s : State) (d : Die) : Bool := s.on d (HDR.CTRL.ENABLE 0xC00000)

/-- A posted receive is live: its operation runs and is not ordered to a status. -/
def State.postLive (s : State) (p : Posted) : Bool :=
  match s.op p.op with | some o => o.stage == .running && o.force.isNone | none => false

def State.postsOf (s : State) (d : Die) (q : Nat) : List Posted := ((tget (s.tmu d).posts q).getD []).filter s.postLive
def State.uxsOf (s : State) (d : Die) (q : Nat) : List Ux := (tget (s.tmu d).uxs q).getD []

/-- Posted receives of a die, of a polder or of all. -/
def State.postedCount (s : State) (d : Die) (polder : Option Nat) : Nat :=
  ((s.tmu d).posts.map (fun p => (p.2.filter (fun x => s.postLive x && (polder.isNone || polder == some x.polder))).length)).sum

def State.uxCount (s : State) (d : Die) (polder : Option Nat) (w : Ux → Nat) : Nat :=
  ((s.tmu d).uxs.map (fun p => ((p.2.filter (fun x => polder.isNone || polder == some x.polder)).map w).sum)).sum

/-- The posted receive of lowest PSN that a message matches (R231). -/
def State.bestPost (s : State) (d : Die) (q : Nat) (m : MKey) : Option Posted := (s.postsOf d q).find? (fun p => matchKey p.key m)

/-- The unexpected message of lowest ASN that a receive or probe matches (R231). -/
def State.bestUx (s : State) (d : Die) (q : Nat) (r : MKey) : Option Ux :=
  (s.uxsOf d q).find? (fun u => u.handle.isNone && !u.taken && matchKey r u.key)

def State.modUx (s : State) (d : Die) (q asn : Nat) (f : Ux → Ux) : State :=
  s.modTmu d (fun t => { t with uxs := tmod t.uxs q (fun l => l.map (fun u => if u.asn = asn then f u else u)) })

def State.dropUx (s : State) (d : Die) (q asn : Nat) : State :=
  s.modTmu d (fun t => { t with uxs := tmod t.uxs q (fun l => l.filter (fun u => u.asn != asn)) })

/-- Completion fields of an operation that describes a message (R230). -/
def describe (o : WOp) (fea fn bits len handle : Nat) : WOp :=
  { o with source := fea, imm := bits, aux := len + fn * 2 ^ 32 + 2 ^ 40 + handle * 2 ^ 41 }

/-- End a receive that has its data: OK, or OK_TRUNCATED (R250). -/
def State.endRecv (s : State) (d : Die) (i len : Nat) : State :=
  match s.op i with
  | none => s
  | some o =>
    let cap := trLength o.entry
    (s.when (cap < len) (fun s => s.bump d TMU.TRUNCATIONS.COUNT)).endOp i (if cap < len then stTRUNC else stOK) (min len cap)

/-- Send TAG_MATCHED or TAG_FIN to a message's source (R247, R249). -/
def State.tagMatched (s : State) (d : Die) (hp : Fin 4) (polder fea msgId : Nat) : State :=
  s.injectHeld d hp 0 none (mkPkt cTAG_MATCHED vRSP true fea polder msgId []) []
def State.tagFin (s : State) (d : Die) (hp : Fin 4) (polder fea msgId status bytes : Nat) : State :=
  s.injectHeld d hp 0 none (mkPkt cTAG_FIN vRSP true fea polder (msgId + status * 2 ^ 32 + bytes * 2 ^ 64) []) []

/-- Start the pull of a HEADER_ONLY message (R248), by an engine of the receiving die. One with nothing to pull finishes at once; without an
engine the receive ends with UNIT_ABSENT (03_register_model.md R93), and its source is told REMOTE_ACCESS (log entry 160). -/
def State.startPull (s : State) (d : Die) (i : Nat) (o : WOp) (hp : Fin 4) (fea msgId len : Nat) : State :=
  let n := min len (trLength o.entry)
  let s := s.modOp i (fun o => { o with stage := .running, expect := n })
  if n = 0 then (s.tagFin d hp (s.opPolder o) fea msgId stOK 0).endRecv d i len
  else
    let s := s.assign i
    if (match s.op i with | some o => o.stage == Stage.ended | none => true) = true then s.tagFin d hp (s.opPolder o) fea msgId stREMOTE_ACCESS 0
    else (s.modTmu d (fun t => { t with pulls := t.pulls ++ [{ op := i, polder := s.opPolder o, fea := fea, hp := hp, msgId := msgId, msgLen := len,
                                                               total := n, asked := 0, got := 0 }] })).issueChunk i

/-- Give a receive the part of some message bytes that its buffer takes. -/
def State.deliver (s : State) (d : Die) (o : WOp) (off : Nat) (data : List Byte) (poison : Bool) : State × SrcRes :=
  s.writeLocal d (opFn o) (eLkey o.entry) (eLaddr o.entry + off) (data.take (trLength o.entry - off)) poison

/-- End a receive with the status of a translation fault (R216). -/
def State.recvFault (s : State) (d : Die) (i : Nat) (o : WOp) (k : Nat) : State :=
  (s.xFault d false (s.opPolder o) (eLkey o.entry) (eLaddr o.entry) k).endOp i (faultStatus false k) 0

/-- The data of a taken message go to the buffer of its receive, the granules and the descriptor are freed, and the receive completes
(R245). A receive that its queue's failure has ordered to a status takes no data (04_polders.md R114). -/
def State.finishCopy (s : State) (d : Die) (i : Nat) : State :=
  match (s.tmu d).copies.find? (fun c => c.op == i), s.op i with
  | some c, some o =>
    match (s.uxsOf d c.q).find? (fun u => u.asn == c.asn) with
    | none => s
    | some u =>
      let free := fun (s : State) => (s.dropUx d c.q c.asn).modTmu d (fun t => { t with copies := t.copies.filter (fun x => x.op != i) })
      if o.force.isSome then free s
      else if u.got < u.len then s
      else
        let (data, bad) := if u.mode = .inline then (u.data, u.poison) else s.granRead d u.granules u.len
        match s.deliver d o 0 data bad with
        | (s, .wait) => s
        | (s, .fault k) => (free s).recvFault d i o k
        | (s, _) => (free s).endRecv d i u.len
  | _, _ => s

/-- A receive takes a message whose data the TMU keeps: the message is marked as taken, its source told where it asked to be, and the copy
of its data is begun (R245, R249). -/
def State.keepUx (s : State) (d : Die) (q i : Nat) (u : Ux) : State :=
  let s := ((s.modUx d q u.asn (fun u => { u with taken := true, handle := none })).unplace d q u.asn false).modOp i
    (fun o => describe { o with stage := .running } u.fea u.fn u.key.bits u.len 0)
  (s.when u.sync (fun s => s.tagMatched d u.hp u.polder u.fea u.msgId)).modTmu d (fun t => { t with copies := t.copies ++ [⟨i, q, u.asn⟩] })

/-- A receive takes an unexpected message (R245): it pulls a HEADER_ONLY one, has the data of an INLINE one now, and those of a STORED one
once they are copied. -/
def State.takeUx (s : State) (d : Die) (q i : Nat) (o : WOp) (u : Ux) : State :=
  if u.mode = .header then
    (((s.dropUx d q u.asn).unplace d q u.asn false).modOp i (fun o => describe { o with stage := .running } u.fea u.fn u.key.bits u.len 0)).startPull
      d i o u.hp u.fea u.msgId u.len
  else (s.keepUx d q i u).when (u.mode == .inline) (fun s => s.finishCopy d i)

/-- Post a receive whose search found nothing (R232, R234). -/
def State.postRecv (s : State) (d : Die) (i : Nat) (o : WOp) : State :=
  let last := (tget (s.tmu d).psn o.q).getD 0
  let psn := last + sub32 o.index (last % 2 ^ 32)
  let pol := s.opPolder o
  let p : Posted := { psn := psn, key := recvKey o.entry, op := i, polder := pol }
  ((s.modOp i (fun o => { o with stage := .running })).modTmu d (fun t =>
    { t with posts := tput t.posts o.q ((tget t.posts o.q).getD [] ++ [p]), psn := tput t.psn o.q psn
             homes := tput t.homes i ((freePlaces (t.homes.map (·.2)) 1).headD 0) })).place d o.q pol psn
    (recvKey o.entry) true

/-- Decide a TRECV: match an unexpected message, or post (R231, R240). -/
def State.decideRecv (s : State) (d : Die) (i : Nat) (o : WOp) : State :=
  match s.bestUx d o.q (recvKey o.entry) with
  | some u => s.takeUx d o.q i o u
  | none => s.postRecv d i o

/-- Record a refusal or demotion (R264). -/
def State.tmuRefusal (s : State) (d : Die) (polder reason : Nat) : State :=
  s.wrs d [(TMU.LAST_REFUSAL.POLDER, polder), (TMU.LAST_REFUSAL.REASON, reason)]

def maxPosted : Nat := 33554432
def maxUx : Nat := 1048576
def maxGranules : Nat := 3932160

/-- TRECV (R228, R240, R261). -/
def execTrecv (i : Nat) (s : State) : Host.Outcome State Fault Refusal :=
  .next (match s.startedOp i (· == opTRECV) with
    | none => s
    | some o =>
      let d := opDie o
      let e := o.entry
      let pol := s.opPolder o
      if !s.tmuOn d then s
      else match (if eLkey e = 0 ∧ trLength e = 0 then .ok 0 else s.localRange d (opFn o) (eLkey e) rLW (eLaddr e) (trLength e)) with
        | .error k => s.opFault i o (eLkey e) (eLaddr e) k
        | .ok _ =>
          let full := if maxPosted ≤ s.postedCount d none then 5
            else if s.rd d TMU.TMU_CFG.POST_SHARE_PCT * maxPosted / 100 ≤ s.postedCount d (some pol) then 6 else 0
          if full ≠ 0 then ((s.bump d TMU.POST_REFUSED.COUNT).tmuRefusal d pol full).endOp i stFORMAT 0
          else s.withLookup d o.q pol (recvKey e) false none (some i) (fun s => s.decideRecv d i o))

/-- TMRECV (R252). -/
def execTmrecv (i : Nat) (s : State) : Host.Outcome State Fault Refusal :=
  .next (match s.startedOp i (· == opTMRECV) with
    | none => s
    | some o =>
      let d := opDie o
      let e := o.entry
      if !s.tmuOn d then s
      else match (if eLkey e = 0 ∧ trLength e = 0 then .ok 0 else s.localRange d (opFn o) (eLkey e) rLW (eLaddr e) (trLength e)) with
        | .error k => s.opFault i o (eLkey e) (eLaddr e) k
        | .ok _ =>
          match (s.uxsOf d o.q).find? (fun u => u.handle == some (tmHandle e)) with
          | none => s.endOp i stFORMAT 0
          | some u => s.takeUx d o.q i o u)

/-! ## Probes and cancels (R229, R251, R253) -/

/-- The RECV queue that a probe or cancel names, when it is of that type and not in RESET. -/
def State.probeQueue (s : State) (o : WOp) : Option Nat :=
  let k := qKey (o.q / 8) (tpQueue o.entry)
  match s.queue k with
  | some q => if q.type = 1 then some k else none
  | none => none

/-- The lowest handle that no held message of a queue has (log entry 23). -/
def freeHandle (l : List Ux) : Nat :=
  (((List.range (l.length + 1)).find? (fun n => l.all (fun u => u.handle != some n)))).getD 0

/-- Decide a probe. -/
def State.decideProbe (s : State) (d : Die) (q i : Nat) (o : WOp) : State :=
  match s.bestUx d q (probeKey o.entry) with
  | none => s.endOp i stOK 0
  | some u =>
    if eOpcode o.entry = opTPROBE then (s.modOp i (fun o => describe o u.fea u.fn u.key.bits u.len 0)).endOp i stOK 0
    else
      let h := freeHandle (s.uxsOf d q)
      (((s.unplace d q u.asn false).modUx d q u.asn (fun u => { u with handle := some h })).modOp i
        (fun o => describe o u.fea u.fn u.key.bits u.len h)).endOp i stOK 0

def State.startProbe (s : State) (i code : Nat) : State :=
  match s.startedOp i (· == code) with
  | none => s
  | some o =>
    match s.probeQueue o with
    | none => s.endOp i stFORMAT 0
    | some q =>
      let d := opDie o
      s.withLookup d q (s.opPolder o) (probeKey o.entry) false none (some i) (fun s => s.decideProbe d q i o)

/-- TPROBE (R251). -/
def execTprobe (i : Nat) (s : State) : Host.Outcome State Fault Refusal := .next (s.startProbe i opTPROBE)

/-- TMPROBE (R251). -/
def execTmprobe (i : Nat) (s : State) : Host.Outcome State Fault Refusal := .next (s.startProbe i opTMPROBE)

/-- The match fields of a cancel equal those of a receive; SOURCE_ID is ignored with ANY_SOURCE. -/
def sameKey (a b : MKey) : Bool :=
  a.context == b.context && a.bits == b.bits && a.ignore == b.ignore && a.anySource == b.anySource &&
  (a.anySource || a.source == b.source)

/-- TCANCEL (R253): the receive completes on its own ring first. -/
def execTcancel (i : Nat) (s : State) : Host.Outcome State Fault Refusal :=
  .next (match s.startedOp i (· == opTCANCEL) with
    | none => s
    | some o =>
      match s.probeQueue o with
      | none => s.endOp i stFORMAT 0
      | some q =>
        let d := opDie o
        if (s.tmu d).lookups.any (fun l => l.q == q) then s
        else match (s.postsOf d q).find? (fun p => sameKey p.key (probeKey o.entry) &&
            (match s.op p.op with | some r => r.index == tpTarget o.entry | none => false)) with
          | none => s.endOp i stOK 0
          | some p =>
            let s := (s.unplace d q p.psn true).modTmu d (fun t =>
              { t with posts := tmod t.posts q (fun l => l.filter (fun x => x.psn != p.psn)) })
            let s := ((s.bump d TMU.CANCELS.COUNT).endOp p.op stCANCELLED 0).complete p.op
            (s.modOp i (fun o => { o with aux := 1 })).endOp i stOK 0)

/-! ## Sending (R227, R246, R249) -/

/-- Queue the packets of an eager message. -/
def State.eagerPackets (s : State) (d : Die) (i : Nat) (o : WOp) (first loff : Nat) : State :=
  let e := o.entry
  let len := tsLength e
  let n := max 1 (ceilDiv len 4096)
  let s := (List.range n).foldl (fun s j =>
    let off := 4096 * j
    let k := min 4096 (len - off)
    let p := if j = 0 then mkPkt cTAG_EAGER vREQ true (eDest e) (s.opPolder o) first []
      else mkPkt cTAG_CONT vREQ true (eDest e) (s.opPolder o) (i % 2 ^ 32 + off * 2 ^ 32) []
    let src := if tsInline e then PSrc.held (eInline e len) else if k = 0 then .held [] else .region (eLkey e) (loff + off) k
    (s.inject d (opFn o).hp (queueSource o.q) (some ⟨i, 0, off, false⟩) false p src).1) s
  s.modOp i (fun o => { o with stage := .running, unacked := n, expect := b2n (tsSync e) })

/-- TSEND (R227, R246). -/
def execTsend (i : Nat) (s : State) : Host.Outcome State Fault Refusal :=
  .next (match s.startedOp i (· == opTSEND) with
    | none => s
    | some o =>
      let e := o.entry
      let d := opDie o
      let len := tsLength e
      let first := tsBits e + tsContext e * 2 ^ 64 + tsFn e * 2 ^ 96 + tsSet e * 2 ^ 104 + tsQueue e * 2 ^ 111 +
        b2n (tsSync e) * 2 ^ 114 + (opFn o).fn.val * 2 ^ 120 + len * 2 ^ 128 + i % 2 ^ 32 * 2 ^ 160
      if tsInline e then (if 16 < len then s.endOp i stLENGTH 0 else s.eagerPackets d i o first 0)
      else match (if eLkey e = 0 ∧ len = 0 then .ok 0 else s.localRange d (opFn o) (eLkey e) rLR (eLaddr e) len) with
        | .error k => s.opFault i o (eLkey e) (eLaddr e) k
        | .ok off =>
          if tsRndv e ∨ s.rd d TMU.TMU_CFG.RNDV_THRESHOLD < len then
            let p := mkPkt cTAG_RTS vREQ true (eDest e) (s.opPolder o) first []
            let s := s.modOp i (fun o => { o with stage := .running, unacked := 1, expect := 1 })
            (s.inject d (opFn o).hp (queueSource o.q) (some ⟨i, 0, 0, false⟩) false p (.held [])).1
          else if len = 0 then s.eagerPackets d i o first 0
          else match s.rangeReady d (eLkey e) off len .rd with
            | (s, .ok _) => s.eagerPackets d i o first off
            | (s, .error (.fault k)) => s.opFault i o (eLkey e) (eLaddr e) k
            | (s, _) => s)

/-! ## Arrivals (R240, R243, R244, R259) -/

/-- What the destination queue says of a first packet (R259): a status to reject it with, or nothing. -/
def State.destStatus (s : State) (p : Pkt) : Option Nat :=
  let q := msgQueue p
  match s.queue q with
  | none => some stNOT_READY
  | some w =>
    if w.polder ≠ p.polder ∨ s.fnSets (setFn (q / 8)) ≤ q / 8 % 128 then some stNOT_READY
    else if w.st = .error ∨ w.type ≠ 1 then some stREMOTE_ACCESS
    else none

/-- A message whose first packet the TMU has taken and whose data it still awaits. -/
def inboundOf (t : Tmu) (h : Handed) : Option Inbound :=
  let msg := if h.pkt.command = cTAG_CONT then h.pkt.opf 0 32 else h.pkt.opf 160 32
  t.inbound.find? (fun b => b.ctx == h.ctx && b.msgId == msg)

/-- Return an arrival to the TRU as not accepted: it is held back with every later message of its context that the TMU has not taken
(R231, R244). -/
def State.tmuReturn (s : State) (d : Die) (h : Handed) : State :=
  let back := fun (x : Handed) => x.ctx == h.ctx && !x.done && decide (0x10 ≤ x.pkt.command ∧ x.pkt.command ≤ 0x12) &&
    sbefore (s.seqMod d) h.seq x.seq && (inboundOf (s.tmu d) x).isNone
  let l := (s.tru d).handed.filter back
  let s := (s.bump d TMU.UX_REFUSED.COUNT).modTru d (fun t => { t with handed := t.handed.filter (fun x => !back x) })
  let s := s.modCtx d h.ctx (fun c => { c with rx := c.rx.map (fun e => if l.any (fun x => x.seq == e.seq) then { e with st := .reorder } else e) })
  let s := s.modTmu d (fun t => { t with lookups := t.lookups.filter (fun k => l.all (fun x => k.arrival != some x.id)) })
  s.refusePkt d h.ctx h.seq

/-- Refuse an arrival beyond a limit (R244). -/
def State.tmuRefuse (s : State) (d : Die) (h : Handed) (reason : Nat) : State :=
  (s.tmuRefusal d h.pkt.polder reason).tmuReturn d h

def State.addInbound (s : State) (d : Die) (h : Handed) (len got : Nat) (into : Into) : State :=
  if len ≤ got then s
  else s.modTmu d (fun t => { t with inbound := t.inbound ++ [⟨h.ctx, h.pkt.opf 160 32, len, got, into⟩] })

/-- Store a message as unexpected (R243, R244). -/
def State.storeUx (s : State) (d : Die) (h : Handed) : State :=
  let p := h.pkt
  let q := msgQueue p
  let len := p.opf 128 32
  let share := s.rd d TMU.TMU_CFG.UX_SHARE_PCT
  let gr := ceilDiv len 256
  if maxUx ≤ s.uxCount d none (fun _ => 1) then s.tmuRefuse d h 1
  else if share * maxUx / 100 ≤ s.uxCount d (some p.polder) (fun _ => 1) then s.tmuRefuse d h 2
  else
    let rts := p.command == cTAG_RTS
    let excess := if rts ∨ len ≤ 16 then 0
      else if maxGranules < s.uxCount d none (·.granules.length) + gr then 3
      else if share * maxGranules / 100 < s.uxCount d (some p.polder) (·.granules.length) + gr then 4 else 0
    let (s, ok) := if excess = 0 then (s, true) else s.addRecord d h.ctx h.seq stOK 2
    if !ok then s.refusePkt d h.ctx h.seq
    else
      let s := s.when (excess != 0) (fun s => (s.bump d TMU.UX_DEMOTED.COUNT).tmuRefusal d p.polder excess)
      let mode := if rts ∨ excess ≠ 0 then UxMode.header else if len ≤ 16 then .inline else .stored
      let asn := (tget (s.tmu d).asn q).getD 0
      let data := pktData p
      let keep := mode != .header
      let all := ((s.tmu d).uxs.map (·.2)).flatten
      let gran := if mode = .stored then freePlaces ((all.map (·.granules)).flatten) gr else []
      let s := if mode = .stored then State.granWrite d gran p.srcPoison data 0 s else s
      let u : Ux :=
        { asn := asn, key := msgKey p, len := len, mode := mode, home := (freePlaces (all.map (·.home)) 1).headD 0,
          data := if mode = .inline then data else [], poison := keep && p.srcPoison, got := data.length, granules := gran, msgId := p.opf 160 32,
          fea := p.src, fn := p.opf 120 8, hp := endHp p.dest, sync := p.opf 114 1 == 1, polder := p.polder, handle := none,
          taken := false, ctx := h.ctx }
      let s := (s.bump d TMU.UX_STORED.COUNT).modTmu d (fun t =>
        { t with uxs := tput t.uxs q ((tget t.uxs q).getD [] ++ [u]), asn := tput t.asn q (asn + 1) })
      let s := s.place d q p.polder asn (msgKey p) false
      let s := if rts then s else s.addInbound d h len data.length (if keep then .ux q asn else .drop)
      s.perform d h.id []

/-- Advance a message in delivery. -/
def State.inboundGot (s : State) (d : Die) (ctx msgId n : Nat) : State :=
  s.modTmu d (fun t => { t with inbound := (t.inbound.map (fun b =>
    if b.ctx = ctx ∧ b.msgId = msgId then { b with got := b.got + n } else b)).filter (fun b => b.got < b.len) })

/-- Bytes of a packet go where its message goes (R243, R245, R250): to the receive, whose last byte completes it, to granules, or nowhere. A
receive that has ended, or that its queue's failure has ordered to a status, takes none. -/
def State.intoMessage (s : State) (d : Die) (h : Handed) (b : Inbound) (off : Nat) (data : List Byte) : State :=
  let p := h.pkt
  let fin := fun (s : State) => (s.inboundGot d b.ctx b.msgId data.length).perform d h.id []
  match b.into with
  | .drop => fin s
  | .ux q asn =>
    match (s.uxsOf d q).find? (fun u => u.asn == asn) with
    | none => fin s
    | some u => fin ((State.granWrite d u.granules p.srcPoison data off s).modUx d q asn (fun u => { u with got := u.got + data.length }))
  | .recv i =>
    match s.op i with
    | none => fin s
    | some o =>
      if o.stage ≠ .running ∨ o.force.isSome then fin s
      else match s.deliver d o off data p.srcPoison with
        | (s, .wait) => s
        | (s, .fault k) => fin (s.recvFault d i o k)
        | (s, _) => if b.len ≤ b.got + data.length then fin (s.endRecv d i b.len) else fin s

/-- A message takes a posted receive (R240, R249). -/
def State.consumePost (s : State) (d : Die) (h : Handed) (r : Posted) : State :=
  let p := h.pkt
  let q := msgQueue p
  let len := p.opf 128 32
  match s.op r.op with
  | none => s
  | some o =>
    let take := fun (s : State) => ((s.unplace d q r.psn true).modTmu d (fun t =>
      { t with posts := tmod t.posts q (fun l => l.filter (fun x => x.psn != r.psn)) })).modOp r.op (fun o =>
        describe o p.src (p.opf 120 8) (p.opf 0 64) len 0)
    if p.command = cTAG_RTS then ((take s).startPull d r.op o (endHp p.dest) p.src (p.opf 160 32) len).perform d h.id []
    else
      let b : Inbound := ⟨h.ctx, p.opf 160 32, len, 0, .recv r.op⟩
      let s := (take s).when (p.opf 114 1 == 1) (fun s => s.tagMatched d (endHp p.dest) p.polder p.src (p.opf 160 32))
      (s.modTmu d (fun t => { t with inbound := t.inbound ++ [b] })).intoMessage d h b 0 (pktData p)

/-- Bytes of a message's continuation packets that have been handed on and wait for it. -/
def State.handedBytes (s : State) (d : Die) (ctx msg : Nat) : Nat :=
  (((s.tru d).handed.filter (fun h => !h.done && h.ctx == ctx && h.pkt.command == cTAG_CONT && h.pkt.opf 0 32 == msg)).map
    (fun h => (pktData h.pkt).length)).sum

/-- An eager message whose context has ended before all its packets were handed on (log entry 53). -/
def State.messageLost (s : State) (d : Die) (h : Handed) : Bool :=
  decide (4194304 ≤ h.ctx) && h.pkt.command == cTAG_EAGER &&
  decide ((pktData h.pkt).length + s.handedBytes d h.ctx (h.pkt.opf 160 32) < h.pkt.opf 128 32)

/-- The first packets that were handed on before it for the same queue have been taken (R231, R233). -/
def State.arrivalTurn (s : State) (d : Die) (h : Handed) : Bool :=
  ((s.tru d).handed.takeWhile (fun x => x.id != h.id)).all (fun x =>
    x.done || !(x.pkt.command == cTAG_EAGER || x.pkt.command == cTAG_RTS) || msgQueue x.pkt != msgQueue h.pkt || (inboundOf (s.tmu d) x).isSome)

/-- The first packet of a continuation's message has been handed on and not taken. -/
def State.awaitsFirst (s : State) (d : Die) (h : Handed) : Bool :=
  (s.tru d).handed.any (fun x => !x.done && x.ctx == h.ctx && x.pkt.command == cTAG_EAGER && x.pkt.opf 160 32 == h.pkt.opf 0 32)

/-- Decide an arrival (R231, R240). -/
def State.decideArrival (s : State) (d : Die) (h : Handed) : State :=
  if s.messageLost d h then s.perform d h.id [] else
  match s.bestPost d (msgQueue h.pkt) (msgKey h.pkt) with
  | some r => s.consumePost d h r
  | none => s.storeUx d h

/-- A first packet reaches the TMU. -/
def State.takeFirst (s : State) (d : Die) (id code : Nat) : State :=
  match s.handedPkt d id (· == code) with
  | none => s
  | some h =>
    let p := h.pkt
    match inboundOf (s.tmu d) h with
    | some b => s.intoMessage d h b 0 (pktData p)
    | none =>
    if !s.arrivalTurn d h then s
    else if !s.tmuOn d then s.tmuReturn d h
    else if !s.fnLinkUp (setFn (msgQueue p / 8)) then s.absentPort d h
    else match s.destStatus p with
      | some st => s.rejectPkt d h st
      | none =>
        s.withLookup d (msgQueue p) p.polder (msgKey p) true (some id) none (fun s => s.decideArrival d h)

/-- TAG_EAGER (R240). -/
def execTagEager (d : Die) (id : Nat) (s : State) : Host.Outcome State Fault Refusal := .next (s.takeFirst d id cTAG_EAGER)

/-- TAG_RTS (R243). -/
def execTagRts (d : Die) (id : Nat) (s : State) : Host.Outcome State Fault Refusal := .next (s.takeFirst d id cTAG_RTS)

/-- TAG_CONT (R244, R247, R250). -/
def execTagCont (d : Die) (id : Nat) (s : State) : Host.Outcome State Fault Refusal :=
  .next (match s.handedPkt d id (· == cTAG_CONT) with
    | none => s
    | some h =>
      match inboundOf (s.tmu d) h with
      | none => if s.awaitsFirst d h then s else s.perform d id []
      | some b => s.intoMessage d h b (h.pkt.opf 32 32) (pktData h.pkt))

/-! ## Pulls (R248) -/

/-- TAG_PULL (R248): the data packets that answer it, cut at multiples of 4,096. A failed check ends the TSEND with the local status, and
the pull with REMOTE_ACCESS (07_translation.md R216). -/
def execTagPull (d : Die) (id : Nat) (s : State) : Host.Outcome State Fault Refusal :=
  .next (match s.handedPkt d id (· == cTAG_PULL) with
    | none => s
    | some h =>
      let p := h.pkt
      match s.opById d (p.opf 0 32) p.polder with
      | none => s.perform d id []
      | some (i, o) =>
        let e := o.entry
        let off := p.opf 32 32
        let n := p.opf 64 32
        let bad := fun (s : State) (k : Nat) => (s.opFault i o (eLkey e) (eLaddr e + off) k).rejectPkt d h stREMOTE_ACCESS
        match s.localRange d (opFn o) (eLkey e) rLR (eLaddr e + off) n with
        | .error k => bad s k
        | .ok loff =>
          match s.rangeReady d (eLkey e) loff n .rd with
          | (s, .ok _) =>
            let s := (packetsOf off n).foldl (fun s x =>
              let k := mkPkt cTAG_PULL_DATA vRSP true p.src p.polder (p.opf 0 32 + x.1 * 2 ^ 32 + p.opf 96 32 * 2 ^ 96) []
              (s.inject d (endHp p.dest) 0 none false k (.region (eLkey e) (loff + (x.1 - off)) x.2)).1) s
            s.perform d id []
          | (s, .error (.fault k)) => bad s k
          | (s, _) => s)

def State.dropPull (s : State) (d : Die) (i : Nat) : State :=
  s.modTmu d (fun t => { t with pulls := t.pulls.filter (fun p => p.op != i) })

/-- TAG_PULL_DATA (R248): after the last byte, TAG_FIN, and the receive completes. -/
def execTagPullData (d : Die) (id : Nat) (s : State) : Host.Outcome State Fault Refusal :=
  .next (match s.handedPkt d id (· == cTAG_PULL_DATA) with
    | none => s
    | some h =>
      let p := h.pkt
      let off := p.opf 32 32
      let data := pktData p
      match s.opById d (p.opf 96 32) p.polder, (s.tmu d).pulls.find? (fun x => x.op % 2 ^ 32 == p.opf 96 32) with
      | some (i, o), some u =>
        if o.force.isSome then s.perform d id []
        else match s.deliver d o off data p.srcPoison with
          | (s, .wait) => s
          | (s, .fault k) => (((s.recvFault d i o k).dropPull d i).tagFin d u.hp (s.opPolder o) u.fea u.msgId stREMOTE_ACCESS 0).perform d id []
          | (s, _) =>
            let s := (s.modOp i (fun o => chunkWritten o (off / 65536) data.length)).modTmu d (fun t =>
              { t with pulls := t.pulls.map (fun x => if x.op = i then { x with got := x.got + data.length } else x) })
            if u.total ≤ u.got + data.length then
              (((s.dropPull d i).tagFin d u.hp (s.opPolder o) u.fea u.msgId stOK u.total).endRecv d i u.msgLen).perform d id []
            else s.perform d id []
      | _, _ => s.perform d id [])

/-- TAG_FIN (R249): the TSEND completes with the status it carries. -/
def execTagFin (d : Die) (id : Nat) (s : State) : Host.Outcome State Fault Refusal :=
  .next (match s.handedPkt d id (· == cTAG_FIN) with
    | none => s
    | some h =>
      let st := h.pkt.opf 32 8
      match s.opById d (h.pkt.opf 0 32) h.pkt.polder with
      | some (i, o) => (s.endOp i st (if isOk st then okBytes o else 0)).perform d id []
      | none => s.perform d id [])

/-- TAG_MATCHED (R249). -/
def execTagMatched (d : Die) (id : Nat) (s : State) : Host.Outcome State Fault Refusal :=
  .next (match s.handedPkt d id (· == cTAG_MATCHED) with
    | none => s
    | some h =>
      match s.opById d (h.pkt.opf 0 32) h.pkt.polder with
      | some (i, o) => ((s.modOp i (fun o => { o with matched := true, expect := 0 })).endOp i stOK (okBytes o)).perform d id []
      | none => s.perform d id [])

/-- STORED_COPY_DONE (R245). -/
def execStoredCopyDone (d : Die) (i : Nat) (s : State) : Host.Outcome State Fault Refusal := .next (s.finishCopy d i)

/-! ## Spilled entries (R235, R241, R242) -/

/-- SPILL_READ_RETURN (R241, R242): the last read of a waiting lookup decides it. -/
def execSpillReadReturn (d : Die) (id : Nat) (s : State) : Host.Outcome State Fault Refusal :=
  .next (match (homeLookups (s.tmu d)).find? (fun l => l.id == id) with
    | none => s
    | some l =>
      let s := (s.bump d TMU.SPILL_READS.COUNT).event d 8 (some l.polder)
      if 1 < l.left then s.modTmu d (fun t =>
        { t with lookups := t.lookups.map (fun x => if x.id = id then { x with left := x.left - 1 } else x) })
      else
        let s := s.modTmu d (fun t => { t with lookups := t.lookups.filter (fun x => x.id != id) })
        match l.arrival, l.op with
        | some a, _ => (match s.handedPkt d a (fun _ => true) with | some h => s.decideArrival d h | none => s)
        | none, some i => (match s.op i with
          | some o => if eOpcode o.entry = opTRECV then s.decideRecv d i o else s.decideProbe d l.q i o
          | none => s)
        | none, none => s)

/-- SPILL_RELOAD (R235): the lowest-numbered spilled entry of a bin takes a free slot on chip. -/
def execSpillReload (d : Die) (bin : Nat) (s : State) : Host.Outcome State Fault Refusal :=
  let t := s.tmu d
  .next (if 4 ≤ onchipIn t.ents bin then s
    else match byHead (t.ents.filter (fun e => !e.wild && !e.onchip && e.bin == bin)) with
      | [] => s
      | v :: _ => s.modTmu d (fun t => { t with ents := t.ents.map (fun e => if e = v then { e with onchip := true } else e) }))

/-! ## Rehash (R254 to R257) -/

/-- Start a rehash: a new key for the shadow table. -/
def State.startRehash (s : State) (d : Die) : State :=
  s.draw (fun n s => let n := n % 2 ^ 128
    s.modTmu d (fun t =>
    { t with rehash := true, key0 := if t.live then n else t.key0, key1 := if t.live then t.key1 else n }))

/-- Entries still in the live table. -/
def liveEnts (t : Tmu) : List MEnt := t.ents.filter (fun e => !e.wild && e.table == t.live)

/-- The 99th percentile of an interval's lookups. -/
def p99 : Tbl Nat → Nat → Nat → Nat
  | [], _, _ => 0
  | (n, c) :: l, seen, total => if total * 99 ≤ (seen + c) * 100 ∨ l.isEmpty then n else p99 l (seen + c) total

/-- CHAIN_INTERVAL_END (R254): every 100 µs. -/
def execChainIntervalEnd (d : Die) (s : State) : Host.Outcome State Fault Refusal :=
  let t := s.tmu d
  .next (if s.now < t.histAt + us 100 then s
    else
      let total := (t.hist.map (·.2)).sum
      let p := p99 t.hist 0 total
      let high := decide (1000 ≤ total) && decide (12 < p)
      let n := if high then min 255 (s.rd d TMU.CHAIN_P99.OVER + 1) else 0
      let s := (s.wrs d [(TMU.CHAIN_P99.LAST, min p 255), (TMU.CHAIN_P99.OVER, n)]).modTmu d (fun t =>
        { t with hist := [], histAt := s.now })
      let rested : Bool := match t.cutAt with | some c => decide (c + ms 100 ≤ s.now) | none => true
      if decide (10 ≤ n) && s.on d TMU.TMU_CFG.REHASH_AUTO && !t.rehash && rested then s.startRehash d else s)

/-- REHASH_GO (R254): a warden's write; ignored while a rehash runs. -/
def execRehashGo (rq : Requester) (d : Die) (s : State) : Host.Outcome State Fault Refusal :=
  .next (if !s.barUp rq then s else if !s.privileged rq then s.privViolation rq 0 (d.base + TMU.REHASH_CTRL.GO.off)
    else if (s.tmu d).rehash then s else s.startRehash d)

/-- REHASH_MOVE (R255): the entry of the lowest live bin goes to the shadow table, joining an identical run there,
once no lookup of its queue waits (R233). -/
def execRehashMove (d : Die) (s : State) : Host.Outcome State Fault Refusal :=
  let t := s.tmu d
  .next (if !t.rehash then s
    else match (liveEnts t).mergeSort (fun a b => a.bin ≤ b.bin) with
      | [] => s
      | e :: _ =>
        if t.lookups.any (fun l => l.q == e.q) then s
        else
        let rest := t.ents.erase e
        let pol := match s.queue e.q with | some q => q.polder | none => 0
        let bin := s.binOf d (!t.live) e.q pol e.key
        let join := fun (x : MEnt) => !x.wild && x.table != t.live && x.posted == e.posted && x.q == e.q && x.key == e.key
        let merge := fun (x : MEnt) => if join x then { x with members := (x.members ++ e.members).mergeSort } else x
        let moved := { e with table := !t.live, bin := bin, onchip := onchipIn rest bin < 4 }
        s.modTmu d (fun t => { t with ents := chipPlaces 0 0 (if rest.any join then rest.map merge else rest ++ [moved]) }))

/-- REHASH_CUTOVER (R257): the live table holds no entry, and the shadow table becomes live. -/
def execRehashCutover (d : Die) (s : State) : Host.Outcome State Fault Refusal :=
  let t := s.tmu d
  .next (if t.rehash && (liveEnts t).isEmpty then
      (s.bump d TMU.REHASHES.COUNT).modTmu d (fun t =>
        { t with rehash := false, live := !t.live, cutAt := some s.now, key0 := if t.live then t.key0 else 0,
                 key1 := if t.live then 0 else t.key1 })
    else s)

/-! ## A queue that leaves for RESET (R260) -/

/-- Discard what the TMU holds for a queue that moved to RESET: the sources still waiting are told REMOTE_ACCESS. -/
def State.tmuDropQueue (s : State) (q : Nat) : State :=
  let d := setDie (q / 8)
  let s := ((s.uxsOf d q).filter (fun u => u.mode == .header || (u.sync && !u.taken))).foldl
    (fun s u => s.tagFin d u.hp u.polder u.fea u.msgId stREMOTE_ACCESS 0) s
  let gone := fun (i : Nat) => (s.op i).isNone
  let s := ((s.tmu d).pulls.filter (fun p => gone p.op)).foldl
    (fun s p => s.tagFin d p.hp p.polder p.fea p.msgId stREMOTE_ACCESS 0) s
  s.modTmu d (fun t =>
    { t with
      homes := t.homes.filter (fun h => !gone h.1)
      posts := tdel t.posts q
      uxs := tdel t.uxs q
      asn := tdel t.asn q
      psn := tdel t.psn q
      ents := chipPlaces 0 0 (t.ents.filter (fun e => e.q != q))
      lookups := t.lookups.filter (fun l => l.q != q)
      copies := t.copies.filter (fun c => c.q != q)
      pulls := t.pulls.filter (fun p => !gone p.op)
      inbound := t.inbound.map (fun b => match b.into with
        | .ux k _ => if k = q then { b with into := .drop } else b
        | .recv i => if gone i then { b with into := .drop } else b
        | .drop => b) })

/-- RESET_QUEUE (06_work_queues.md R178, R193), with what R260 adds. -/
def execResetQueue (f : Fn) (q : Fin 128) (c : QcArgs) (s : State) : Host.Outcome State Fault Refusal :=
  let key := qKey (setKey f q.val) c.target.val
  let t := s.qcCommand f q 4 c.target.val c.mask.toNat (State.resetQueue c.target.val)
  .next (if (s.queue key).isSome && (t.queue key).isNone then t.tmuDropQueue key else t)

end Sys2Proof.Machine
end

