-- ==== Sys2Proof/Machine/Quadrille.lean ====
section
/-! DEFINITION. Quadrilles: memberships, segments and their credit, combining, failure, and the commands of
11_collectives.md. -/

namespace Sys2Proof.Machine

def State.member? (s : State) (d : Die) (m : Nat) : Option Member := tget (s.die d).members m
def State.modMember (s : State) (d : Die) (m : Nat) (f : Member → Member) : State :=
  s.modDie d (fun x => { x with members := tmod x.members m f })
def State.dropMember (s : State) (d : Die) (m : Nat) : State := s.modDie d (fun x => { x with members := tdel x.members m })

/-- The membership of a (polder, QID) at a host port (R336). -/
def State.findMember (s : State) (d : Die) (polder qid : Nat) (hp : Fin 4) : Option (Nat × Member) :=
  (s.die d).members.find? (fun p => p.2.polder == polder && p.2.qid == qid && p.2.fn.hp == hp)

def isLeaf (m : Member) : Bool := m.role == 0

/-! ## The QDU that serves a membership, and its slots (R336, R356, R365) -/

/-- The QDU that serves a membership of a die. -/
def qduOf (d : Die) (m : Member) : Die := if m.moved then d.other else d

/-- The memberships that a QDU serves: its die's own, and those it has taken over. -/
def State.servedBy (s : State) (q : Die) : List Member :=
  (((s.die q).members.filter (fun p => !p.2.moved) ++ (s.die q.other).members.filter (fun p => p.2.moved)).map (·.2)).filter
    (fun m => !isLeaf m)

/-- The QDU that serves new memberships of a die: its own, or the other die's once that has taken over. -/
def State.servingQdu (s : State) (d : Die) : Option Die :=
  if s.qduEnabled d then some d else if s.on d.other QDU.QDU_STATUS.SERVING_OTHER then some d.other else none

/-- Slots of one set of a member. -/
def setSlots (m : Member) : Nat := if isLeaf m then 0 else if m.fast then ceilDiv (1 + m.children.length) 2 else 1

/-- Sets that a member's segments have borrowed. -/
def borrowed (m : Member) : Nat := (m.segs.filter (fun g => !g.home)).length

def State.slotsReserved (s : State) (q : Die) : Nat := ((s.servedBy q).map setSlots).sum
def State.slotsBorrowed (s : State) (q : Die) : Nat := ((s.servedBy q).map (fun m => borrowed m * setSlots m)).sum

/-- A QDU has room for a number of slots more. -/
def State.slotsFit (s : State) (q : Die) (n : Nat) : Bool := s.slotsReserved q + s.slotsBorrowed q + n ≤ 4096

/-- A member can take a slot set for another segment: its home set, or a borrowed one. -/
def State.slotFree (s : State) (d : Die) (m : Member) : Option Bool :=
  if isLeaf m then some true
  else if m.segs.all (fun g => !g.home) then some true
  else if borrowed m + 1 < m.window ∧ s.slotsFit (qduOf d m) (setSlots m) then some false
  else none

/-! ## Packets (R361, R362) -/

def qctl (qid sub child status mode opseq seg fea : Nat) : Nat :=
  qid + sub * 2 ^ 32 + child * 2 ^ 40 + status * 2 ^ 48 + mode * 2 ^ 56 + opseq * 2 ^ 64 + seg * 2 ^ 96 + fea * 2 ^ 128

/-- The operation number of a packet that belongs to none, and that of an ABORT. -/
def noOp : Nat := 2 ^ 32
def abortOp : Nat := 2 ^ 32 + 1

/-- Send a QCTL packet of a member, for an operation or for none. -/
def State.sendQctl (s : State) (d : Die) (k : Nat) (m : Member) (up : Bool) (dest : Nat) (op : Nat) (opseq : Nat) : State :=
  (s.injectHeld d m.fn.hp 1 (some ⟨k, opseq, 0, true⟩) (mkPkt cQCTL (s.quadVn up) true dest m.polder op []) []).modMember d k
    (fun m => { m with ops := m.ops.map (fun o => if o.opseq = opseq then { o with unacked := o.unacked + 1 } else o) })

def State.toChildren (s : State) (d : Die) (k : Nat) (m : Member) (op opseq : Nat) : State :=
  m.children.foldl (fun s c => s.sendQctl d k m false c op opseq) s

def State.toParent (s : State) (d : Die) (k : Nat) (m : Member) (op opseq : Nat) : State :=
  if m.role = 2 then s else s.sendQctl d k m true m.parent op opseq

/-- The area of QDATA and QRESULT. -/
def qdata (m : Member) (o : QOp) (seg credit child fmt nodata elems : Nat) : Nat :=
  m.qid + o.opseq * 2 ^ 32 + seg * 2 ^ 64 + credit * 2 ^ 96 + (o.qop + o.dtype * 8 + o.kind * 64) * 2 ^ 128 +
  (child + fmt * 16 + nodata * 64) * 2 ^ 136 + elems * 2 ^ 144 + o.count * 2 ^ 160

/-! ## Ending operations (R347) -/

def modOps (m : Member) (opseq : Nat) (f : QOp → QOp) : Member := { m with ops := m.ops.map (fun o => if o.opseq = opseq then f o else o) }

/-- Count a completed operation. -/
def State.countQuadOp (s : State) (d : Die) (m : Member) : State :=
  if isLeaf m then s.bump d LEAF.LEAF_OPS.COUNT else s.bump (qduOf d m) QDU.OPS_COMPLETED.COUNT

/-- Complete a quadrille operation whose segments are done and whose packets are all acknowledged. -/
def State.quadCheck (s : State) (d : Die) (k : Nat) (opseq : Nat) : State :=
  match s.member? d k with
  | none => s
  | some m =>
    match m.ops.find? (fun o => o.opseq == opseq) with
    | none => s
    | some o =>
      if o.done < o.segs ∨ o.unacked ≠ 0 then s
      else
        let s := s.modMember d k (fun m => { m with ops := m.ops.filter (fun x => x.opseq != opseq), opCount := m.opCount + 1 })
        ((s.countQuadOp d m).modOp o.op (fun w => { w with aux := opseq })).endOp o.op stOK o.bytes

/-- A status as it propagates (R367). -/
def propagated (st : Nat) : Nat := if st = stUNREACHABLE ∨ st = stABORTED then st else stCANCELLED

/-- Fail a membership (R366, R367): its outstanding operations complete with `st`, ABORT goes to every neighbour but one, and
its record enters FAILED. -/
def State.quadFail (s : State) (d : Die) (k st fea : Nat) (local_ : Bool) (skip : Option Nat) : State :=
  match s.member? d k with
  | none => s
  | some m =>
    if m.st = .failed then s
    else
      let aux := fun (q : Nat) => q + fea * 2 ^ 32 + st * 2 ^ 56
      let s := m.ops.foldl (fun s o => (s.modOp o.op (fun w => { w with aux := aux o.opseq })).opAbort o.op st) s
      let s := (m.joinOp.toList ++ m.releaseOp.toList).foldl (fun s i => (s.modOp i (fun w => { w with aux := aux 0 })).opAbort i st) s
      let p := propagated st
      let s := (m.children.filter (fun c => some c != skip)).foldl (fun s c => s.sendQctl d k m false c (qctl m.qid 7 0 p 0 0 0 fea) abortOp) s
      let s := if m.role = 2 ∨ some m.parent = skip then s else s.sendQctl d k m true m.parent (qctl m.qid 7 m.index p 0 0 0 fea) abortOp
      let q := qduOf d m
      let s := if isLeaf m then s.bump d LEAF.LEAF_FAILURES.COUNT else (s.bump q QDU.FAILURES.COUNT).wrs q [(QDU.LAST_FAILURE.QID, m.qid), (QDU.LAST_FAILURE.STATUS, st),
        (QDU.LAST_FAILURE.LOCAL, b2n local_), (QDU.LAST_FAILURE_SRC.FEA, fea), (QDU.LAST_FAILURE_SRC.POLDER, m.polder)]
      s.modMember d k (fun m => { m with st := .failed, ops := [], segs := [], early := [], joinOp := none, releaseOp := none })

/-- A failure that arises at this member. -/
def State.quadFailHere (s : State) (d : Die) (k st : Nat) : State :=
  match s.member? d k with
  | some m => s.quadFail d k st (s.myFea d m.fn.hp.val) true none
  | none => s

/-! ## Segments (R355, R358, R359) -/

/-- Elements of a full segment. -/
def segElems (m : Member) (o : QOp) : Nat := if isFloatSum o.kind o.qop o.dtype && !m.fast then 128 else 256
def segCount (m : Member) (kind op t count : Nat) : Nat :=
  let n := if isFloatSum kind op t && !m.fast then 128 else 256
  max 1 (ceilDiv count n)

/-- Elements of segment `i` of an operation. -/
def segLen (m : Member) (o : QOp) (i : Nat) : Nat := min (segElems m o) (o.count - i * segElems m o)

/-- Byte range of a segment in its buffers. -/
def segOff (m : Member) (o : QOp) (i : Nat) : Nat := i * segElems m o * dtypeSize o.dtype

def covers (c : Option Nat) (seg : Nat) : Bool := match c with | some x => seg ≤ x | none => false

def raise (c : Option Nat) (seg : Nat) : Option Nat := some (max seg (c.getD 0))

def modSeg (m : Member) (seg : Nat) (f : QSeg → QSeg) : Member := { m with segs := m.segs.map (fun g => if g.seg = seg then f g else g) }

/-- Does the member contribute data of its own to an operation: all but a BCAST, whose data are the ROOT's. -/
def contributes (m : Member) (o : QOp) : Bool := o.kind != 2 || m.role == 2

/-- A segment of a member, with its operation and its work entry; none once the entry is ordered to a status (06_work_queues.md R179). -/
def State.segOf (s : State) (d : Die) (k seg : Nat) : Option (Member × QSeg × QOp × WOp) :=
  match s.member? d k with
  | none => none
  | some m =>
    match m.segs.find? (fun g => g.seg == seg) with
    | none => none
    | some g =>
      match m.ops.find? (fun o => o.opseq == g.opseq) with
      | none => none
      | some o => match s.op o.op with
        | some w => if w.force.isSome then none else some (m, g, o, w)
        | none => none

/-- Count a segment that waits for credit, once (R358). The register is the QDU's, and tells of the members that it serves (log entry 159). -/
def State.creditWait (s : State) (d : Die) (k : Nat) (m : Member) (g : QSeg) : State :=
  if isLeaf m ∨ g.waited then s
  else (s.bump (qduOf d m) QDU.CREDIT_WAITS.COUNT).modMember d k (fun m => modSeg m g.seg (fun g => { g with waited := true }))

/-- Count the next segment of a member that waits for a slot set, once. -/
def State.slotWait (s : State) (d : Die) (k : Nat) (m : Member) (seg : Nat) : State :=
  if m.waited = some seg then s
  else (s.bump (qduOf d m) QDU.CREDIT_WAITS.COUNT).modMember d k (fun m => { m with waited := some seg })

/-- A packet of a segment's data has been queued: the operation waits for its acknowledgement, and so does the slot set. -/
def dataSent (m : Member) (opseq seg : Nat) : Member :=
  modSeg (modOps m opseq (fun o => { o with unacked := o.unacked + 1 })) seg (fun g => { g with unacked := g.unacked + 1 })

/-- Send a segment's data toward the parent (R359). Data that cannot be had yet are sent later. -/
def State.sendUp (s : State) (d : Die) (k : Nat) (m : Member) (o : QOp) (g : QSeg) (fmt : Nat) (src : PSrc) : State × SrcRes :=
  let p := mkPkt cQDATA (s.quadVn true) false m.parent m.polder (qdata m o g.seg 0 m.index fmt 0 g.elems) []
  match s.inject d m.fn.hp 1 (some ⟨k, o.opseq, g.seg + 1, true⟩) false p src with
  | (s, .wait) => (s, .wait)
  | (s, .fault r) => (s, .fault r)
  | (s, r) => (s.modMember d k (fun m => modSeg (dataSent m o.opseq g.seg) g.seg (fun g => { g with sent := true })), r)

/-- Send a segment's result to one child. -/
def State.sendDown (s : State) (d : Die) (k : Nat) (m : Member) (o : QOp) (g : QSeg) (res : List Byte) (i c : Nat) : State :=
  let nodata := o.kind == 1
  let p := mkPkt cQRESULT (s.quadVn false) false c m.polder
    (qdata m o g.seg (m.granted.getD 0) 0 0 (b2n nodata) g.elems) []
  let src := if nodata then PSrc.held [] else if g.poison then .lost res else .held res
  (s.inject d m.fn.hp 1 (some ⟨k, o.opseq, g.seg + 1, true⟩) false p src).1.modMember d k
    (fun m => modSeg (dataSent m o.opseq g.seg) g.seg (fun g => { g with down := g.down ++ [i] }))

/-- Where a member writes a segment's result: its RKEY, unless the operation writes none there (R345). -/
def writesResult (m : Member) (o : QOp) : Bool :=
  o.kind == 0 || (o.kind == 1 && m.role == 2) || (o.kind == 2 && m.role != 2)

/-- A segment is over, and its slot set free, once its result has been written, sent to every child, and every packet sent from it has been
acknowledged (R347, R356). -/
def State.segFree (s : State) (d : Die) (k seg : Nat) : State :=
  match s.segOf d k seg with
  | none => s
  | some (m, g, o, _) =>
    if !g.written ∨ g.down.length < m.children.length ∨ g.unacked ≠ 0 then s
    else
      let n := if writesResult m o then g.elems * dtypeSize o.dtype else 0
      (s.modMember d k (fun m =>
        { (modOps m o.opseq (fun o => { o with done := o.done + 1, bytes := o.bytes + n })) with
          segs := m.segs.filter (fun x => x.seg != seg) })).quadCheck d k o.opseq

/-- Send a segment's result to the children that it has not gone to, in index order; a child of a broadcast takes it once it has granted
credit (R358, R359). -/
def State.sendResult (s : State) (d : Die) (k : Nat) (m : Member) (o : QOp) (g : QSeg) (res : List Byte) : State :=
  let due := (List.range m.children.length).filter (fun i => !g.down.contains i)
  let (may, held) := due.partition (fun i => o.kind != 2 || covers (tget m.childCredit i) g.seg)
  (may.foldl (fun s i => s.sendDown d k m o g res i (m.children.getD i 0)) s).when (!held.isEmpty) (fun s => s.creditWait d k m g)

/-- An access to one of a member's buffers failed (R366). -/
def State.bufFault (s : State) (d : Die) (k : Nat) (m : Member) (key addr r : Nat) : State :=
  (s.xFault d false m.polder key addr r).quadFailHere d k (faultStatus false r)

/-- Write a segment's result at the member, and send it down (R359). -/
def State.finishSeg (s : State) (d : Die) (k seg : Nat) : State :=
  match s.segOf d k seg with
  | none => s
  | some (m, g, o, w) =>
    match g.result with
    | none => s
    | some res =>
      let data := if writesResult m o ∧ !g.written then res else []
      match s.writeLocal d m.fn (qRkey w.entry) (qRaddr w.entry + segOff m o g.idx) data false with
      | (s, .fault r) => s.bufFault d k m (qRkey w.entry) (qRaddr w.entry) r
      | (s, .wait) => s.sendResult d k m o g res
      | (s, _) =>
        ((s.modMember d k (fun m => modSeg m seg (fun g => { g with written := true }))).sendResult d k m o g res).segFree d k seg

/-- The result of a segment is formed or has arrived: two copies of it are held (R357). -/
def State.putResult (s : State) (d : Die) (k seg : Nat) (res : List Byte) (poison : Bool) : State :=
  (s.modMember d k (fun m => modSeg m seg (fun g => { g with result := some res, copy := some res, poison := poison }))).finishSeg d k seg

/-- Once all items of a segment are in, the ROOT forms the result and an INTERIOR sends its partial up when it has credit (R359). -/
def State.segFull (s : State) (d : Die) (k seg : Nat) : State :=
  match s.segOf d k seg with
  | none => s
  | some (m, g, o, _) =>
    if o.kind = 2 ∨ g.items.length < 1 + m.children.length then s
    else
      let l := (g.items.mergeSort (fun a b => a.idx ≤ b.idx)).map (fun i => (i.fmt, i.data))
      let part := g.part.getD (combineItems m.fast o.kind o.qop o.dtype g.elems l)
      let s := if g.part.isSome then s else ((s.bump (qduOf d m) QDU.SEGMENTS.COUNT).bumpBy (qduOf d m) QDU.ELEMENTS.COUNT
        (g.elems * g.items.length)).modMember d k (fun m => modSeg m seg (fun g => { g with part := some part }))
      if m.role = 2 then s.putResult d k seg (finishPart o.dtype g.elems part.1 part.2) false
      else if g.sent then s
      else if !covers m.credit seg then s.creditWait d k m g
      else (s.sendUp d k m o g part.1 (.held part.2)).1

/-- A ROOT's or an INTERIOR's own data are in: the data of a broadcast, or its contribution. Damaged data of a broadcast are sent as
damaged; a damaged contribution fails the quadrille as a damaged QDATA does (13_switch_core.md R416; log entry 159). -/
def State.ownIn (s : State) (d : Die) (k seg : Nat) (data : List Byte) (poison : Bool) : State :=
  match s.segOf d k seg with
  | none => s
  | some (_, _, o, _) =>
    let s := s.modMember d k (fun m => modSeg m seg (fun g => { g with own := .taken }))
    if o.kind = 2 then s.putResult d k seg data poison
    else if poison then s.quadFailHere d k stREMOTE_ACCESS
    else (s.modMember d k (fun m => modSeg m seg (fun g => { g with items := ⟨0, 0, data⟩ :: g.items }))).segFull d k seg

/-- The range of a segment in the source buffer: its offset in the region, or a fault. -/
def State.segSource (s : State) (d : Die) (m : Member) (o : QOp) (g : QSeg) (w : WOp) : Except Nat PSrc :=
  let n := g.elems * dtypeSize o.dtype
  if n = 0 then .ok (.held [])
  else match s.localRange d m.fn (qSkey w.entry) rLR (qSaddr w.entry + segOff m o g.idx) n with
    | .ok a => .ok (.region (qSkey w.entry) a n)
    | .error r => .error r

/-- A ROOT or an INTERIOR reads its own data through SKEY. -/
def State.readOwn (s : State) (d : Die) (k seg : Nat) : State :=
  match s.segOf d k seg with
  | none => s
  | some (m, g, o, w) =>
    if g.own ≠ .due then s
    else match s.segSource d m o g w with
      | .error r => s.bufFault d k m (qSkey w.entry) (qSaddr w.entry) r
      | .ok src =>
        let id := s.nextPkt
        match { s with nextPkt := id + 1 }.readSrc d .quad id src with
        | (s, .data l bad) => s.ownIn d k seg l bad
        | (s, .pending) => s.modMember d k (fun m => modSeg m seg (fun g =>
            { g with own := .reading id (List.replicate (srcLen src) 0) false }))
        | (s, .fault r) => s.bufFault d k m (qSkey w.entry) (qSaddr w.entry) r
        | (s, .wait) => s

/-- A LEAF reads its contribution and sends it, in native format, within its credit (R359). -/
def State.leafSend (s : State) (d : Die) (k seg : Nat) : State :=
  match s.segOf d k seg with
  | none => s
  | some (m, g, o, w) =>
    if g.sent ∨ o.kind = 2 ∨ !covers m.credit seg then s
    else match s.segSource d m o g w with
      | .error r => s.bufFault d k m (qSkey w.entry) (qSaddr w.entry) r
      | .ok src => match s.sendUp d k m o g 0 src with
        | (s, .fault r) => s.bufFault d k m (qSkey w.entry) (qSaddr w.entry) r
        | (s, _) => s

/-- A segment goes as far as it can. -/
def State.segReady (s : State) (d : Die) (k seg : Nat) : State :=
  match s.segOf d k seg with
  | none => s
  | some (m, g, _, _) =>
    if g.result.isSome then s.finishSeg d k seg
    else if isLeaf m then s.leafSend d k seg
    else if g.own = .due then s.readOwn d k seg
    else s.segFull d k seg

/-- Data that came before the operation was started join its segment (R360). -/
def State.takeEarly (s : State) (d : Die) (k : Nat) (o : QOp) (seg : Nat) : State :=
  match s.member? d k with
  | none => s
  | some m =>
    let mine := m.early.filter (fun e => e.seg == seg)
    let bad := mine.any (fun e => e.opseq != o.opseq || e.kind != o.kind || e.qop != o.qop || e.dtype != o.dtype || e.count != o.count)
    let s := s.modMember d k (fun m =>
      modSeg { m with early := m.early.filter (fun e => e.seg != seg) } seg (fun g =>
        { g with items := g.items ++ mine.map (fun e => ⟨e.child + 1, e.fmt, e.data⟩) }))
    if bad then s.quadFailHere d k stFORMAT else s

/-- Grant the children credit for a segment (R358). -/
def State.grantDown (s : State) (d : Die) (k : Nat) (m : Member) (o : QOp) (seg : Nat) : State :=
  if covers m.granted seg then s
  else (s.modMember d k (fun m => { m with granted := raise m.granted seg })).toChildren d k m (qctl m.qid 3 0 0 0 0 seg 0) o.opseq

/-- Grant the parent of a broadcast credit for a segment; a LEAF, which needs no slot set, does so for all of the operation. -/
def State.grantUp (s : State) (d : Die) (k : Nat) (m : Member) (o : QOp) (seg : Nat) : State :=
  let seg := if isLeaf m then o.first + o.segs - 1 else seg
  if covers m.grantedUp seg then s
  else (s.modMember d k (fun m => { m with grantedUp := raise m.grantedUp seg })).toParent d k m (qctl m.qid 3 m.index 0 0 0 seg 0) o.opseq

/-- Begin the next segment of an operation, when its slot set allows, and at a LEAF its credit; the second answer tells whether one was
begun. -/
def State.beginSeg (s : State) (d : Die) (k : Nat) (m : Member) (o : QOp) : State × Bool :=
  let i := o.begun
  let seg := o.first + i
  match s.slotFree d m with
  | none => (s.slotWait d k m seg, false)
  | some home =>
    if isLeaf m ∧ o.kind ≠ 2 ∧ !covers m.credit seg then (s, false)
    else
      let g : QSeg := { seg := seg, opseq := o.opseq, idx := i, elems := segLen m o i, items := [], part := none, sent := false,
                        own := if isLeaf m ∨ !contributes m o then .taken else .due, result := none, copy := none, poison := false,
                        written := false, down := [], unacked := 0, home := home, waited := m.waited == some seg }
      let s := s.modMember d k (fun m =>
        modOps { m with segs := m.segs ++ [g] } o.opseq (fun o => { o with begun := o.begun + 1 }))
      let s := if o.kind = 2 then (if m.role = 2 then s else s.grantUp d k m o seg)
        else if isLeaf m then s
        else (s.grantDown d k m o seg).takeEarly d k o seg
      (s.segReady d k seg, true)

/-- Begin segments of a member's operations, oldest operation first, as far as possible. None of an entry that is ordered to a status is
begun (04_polders.md R113, R114). -/
def State.quadAdvance : Nat → Die → Nat → State → State
  | 0, _, _, s => s
  | n + 1, d, k, s =>
    match s.member? d k with
    | none => s
    | some m =>
      if m.st ≠ .ready then s
      else match m.ops.find? (fun o => o.begun < o.segs) with
        | none => s
        | some o =>
          if (match s.op o.op with | some w => w.force.isSome | none => true) then s
          else match s.beginSeg d k m o with
            | (s, true) => State.quadAdvance n d k s
            | (s, false) => s

/-- Let a member go on: the segments it has begun, then new ones. -/
def State.quadGo (s : State) (d : Die) (k : Nat) : State :=
  match s.member? d k with
  | none => s
  | some m =>
    let s := m.segs.foldl (fun s g => s.segReady d k g.seg) s
    State.quadAdvance ((m.ops.map (fun o => o.segs - o.begun)).sum + 1) d k s

/-! ## Joining (R338, R339, R344) -/

/-- End a Q_JOIN with a refusal reason in AUX (R344). -/
def State.joinRefuse (s : State) (d : Die) (i st reason : Nat) : State :=
  ((s.bump d QDU.JOIN_REFUSED.COUNT).modOp i (fun o => { o with aux := reason })).endOp i st 0

/-- A Q_JOIN's fields are in range (R344). -/
def joinArgsOk (e x : BitVec 512) : Bool :=
  let n := qChildren e
  let l := (List.range n).map (qChild x)
  n ≤ 16 && qRole e ≤ 2 && (qRole e != 1 || n != 0) && (qRole e != 0 || n == 0) && (qRole e == 2 || qParent e != 0) &&
  (qRole e != 2 || (qParent e == 0 && qIndex e == 0)) && 1 ≤ qMembers e && qMembers e ≤ 262144 &&
  (qRole e == 0 || (1 ≤ qWindow e && qWindow e ≤ 16)) && l.eraseDups.length == l.length &&
  ((List.range (16 - n)).all (fun k => qChild x (n + k) == 0))

/-- Become READY (R338): READY to the children, and the Q_JOIN completes. Credit for segment 0 is granted (R358). -/
def State.quadReady (s : State) (d : Die) (k : Nat) : State :=
  match s.member? d k with
  | none => s
  | some m =>
    let s := s.toChildren d k m (qctl m.qid 2 0 0 0 0 0 0) noOp
    let s := match m.joinOp with | some i => s.endOp i stOK 0 | none => s
    s.modMember d k (fun m => { m with st := .ready, joinOp := none, granted := some 0, credit := if m.role = 2 then none else some 0 })

/-- Every awaited JOIN is in: the ROOT becomes READY, an INTERIOR sends its own JOIN. A LEAF sends it at once. -/
def State.joinCheck (s : State) (d : Die) (k : Nat) : State :=
  match s.member? d k with
  | none => s
  | some m =>
    if m.st ≠ .joining ∨ m.joined.length < m.children.length then s
    else if m.role = 2 then s.quadReady d k
    else if m.joinSent then s
    else (s.toParent d k m (qctl m.qid 1 m.index 0 (b2n m.fast) 0 0 0) noOp).modMember d k (fun m => { m with joinSent := true })

/-- A JOIN agrees with the member's child list (R338). -/
def joinOk (m : Member) (fea index : Nat) (fast : Bool) : Bool :=
  m.children[index]? == some fea && m.fast == fast && !m.joined.contains index

/-- Consume the pending JOINs of a new record (R339). One that does not agree is dropped (log entry 25). -/
def State.takeJoins (s : State) (d : Die) (k : Nat) (m : Member) : State :=
  let mine := fun (j : PendJoin) => j.polder == m.polder && j.qid == m.qid && j.hp == m.fn.hp
  let l := (s.die d).joins.filter mine
  let s := s.modDie d (fun x => { x with joins := x.joins.filter (fun j => !mine j) })
  l.foldl (fun s j => match s.member? d k with
    | some m => if joinOk m j.fea j.index j.fast then s.modMember d k (fun m => { m with joined := m.joined ++ [j.index] }) else s
    | none => s) s

/-- Q_JOIN (R338, R344, R368, R370). -/
def execQJoin (i : Nat) (s : State) : Host.Outcome State Fault Refusal :=
  .next (match s.startedOp i (· == 0x60) with
    | none => s
    | some o =>
      let e := o.entry
      let d := opDie o
      let f := opFn o
      let pol := s.opPolder o
      let leaf := qRole e == 0
      let q := (s.servingQdu d).getD d
      if !joinArgsOk e o.ext then s.joinRefuse d i stFORMAT 4
      else if !leaf && (s.servingQdu d).isNone then s.endOp i stABSENT 0
      else if !leaf && !s.on q (HDR.CTRL.ENABLE 0x1400000) then s
      else if (s.findMember d pol (qQid e) f.hp).isSome then s.joinRefuse d i stFORMAT 3
      else if (if leaf then 16384 ≤ ((s.die d).members.filter (fun p => isLeaf p.2)).length else 2048 ≤ (s.servedBy q).length) then
        s.joinRefuse d i stFORMAT 1
      else
        let kids := (List.range (qChildren e)).map (qChild o.ext)
        let m : Member :=
          { polder := pol, qid := qQid e, fn := f, role := qRole e, fast := qFast e, parent := qParent e, index := qIndex e,
            children := kids, count := qMembers e, window := qWindow e, st := .joining, since := s.now, joinOp := some i,
            joinSent := false, joined := [], opCount := 0, nextSeg := 0, ops := [], segs := [], early := [], credit := none,
            granted := none, grantedUp := none, childCredit := [], waited := none, releaseOp := none, releases := [], aborts := [],
            moved := !leaf && !s.qduEnabled d }
        if !s.slotsFit q (setSlots m) then s.joinRefuse d i stFORMAT 2
        else
          let k := (s.die d).nextMember
          let s := s.modDie d (fun x => { x with members := tput x.members k m, nextMember := k + 1 })
          let s := s.modOp i (fun o => { o with stage := .running, expect := 1 })
          (s.takeJoins d k m).joinCheck d k)

/-! ## Operations (R343, R345, R346) -/

/-- Keys that an operation needs at a member (R345). -/
def quadKeysOk (m : Member) (kind : Nat) (e : BitVec 512) : Bool :=
  qCount e == 0 || ((qSkey e != 0 || (kind == 2 && m.role != 2)) &&
    (qRkey e != 0 || (kind == 1 && m.role != 2) || (kind == 2 && m.role == 2)))

/-- Start an operation of a kind at the member that its function joined. A child that has released after fewer operations does not agree
(R360). -/
def State.quadOp (s : State) (i code kind : Nat) : State :=
  match s.startedOp i (· == code) with
  | none => s
  | some o =>
    let e := o.entry
    let d := opDie o
    match (s.die d).members.find? (fun p => p.2.polder == s.opPolder o && p.2.qid == qQid e && p.2.fn == opFn o) with
    | none => s.endOp i stFORMAT 0
    | some (k, m) =>
      if m.st = .failed then s.endOp i stCANCELLED 0
      else if m.st ≠ .ready then s
      else if !isLeaf m && !s.qduEnabled d && !m.moved then s.endOp i stABSENT 0
      else if 0xFFFFFFFF < qCount e * dtypeSize (qType e) then (s.endOp i stLENGTH 0).quadFailHere d k stLENGTH
      else if !quadKeysOk m kind e then (s.endOp i stFORMAT 0).quadFailHere d k stFORMAT
      else
        let bytes := qCount e * dtypeSize (qType e)
        let chk := fun (key right addr : Nat) =>
          if key = 0 ∨ bytes = 0 then none
          else match s.localRange d (opFn o) key right addr bytes with | .error r => some (key, addr, r) | .ok _ => none
        match (chk (qSkey e) rLR (qSaddr e)).or (chk (qRkey e) rLW (qRaddr e)) with
        | some (key, addr, r) => (s.opFault i o key addr r).quadFailHere d k (faultStatus false r)
        | none =>
          let n := segCount m kind (qOp e) (qType e) (qCount e)
          let seq := m.opCount + m.ops.length
          let q : QOp := { op := i, opseq := seq, kind := kind, qop := qOp e, dtype := qType e, count := qCount e, first := m.nextSeg,
                           segs := n, begun := 0, done := 0, unacked := 0, bytes := 0 }
          let s := s.modOp i (fun o => { o with stage := .running, expect := 1 })
          let s := s.modMember d k (fun m => { m with ops := m.ops ++ [q], nextSeg := add32 m.nextSeg n })
          if m.releases.any (fun r => r.2 ≤ seq) then s.quadFailHere d k stFORMAT else s.quadGo d k

/-- Q_ALLREDUCE (R359). -/
def execQAllreduce (i : Nat) (s : State) : Host.Outcome State Fault Refusal := .next (s.quadOp i 0x62 0)

/-- Q_REDUCE (R359). -/
def execQReduce (i : Nat) (s : State) : Host.Outcome State Fault Refusal := .next (s.quadOp i 0x63 1)

/-- Q_BCAST (R359). -/
def execQBcast (i : Nat) (s : State) : Host.Outcome State Fault Refusal := .next (s.quadOp i 0x64 2)

/-- Q_BARRIER (R343, R359). -/
def execQBarrier (i : Nat) (s : State) : Host.Outcome State Fault Refusal := .next (s.quadOp i 0x65 3)

/-- SEGMENT_SEND (R358): a membership's segments that can now go on do so. -/
def execSegmentSend (d : Die) (k : Nat) (s : State) : Host.Outcome State Fault Refusal := .next (s.quadGo d k)

/-! ## Release and abort (R340, R341) -/

/-- The conditions of R340 hold: the operations are done, and every child has released. -/
def State.releaseCheck (s : State) (d : Die) (k : Nat) : State :=
  match s.member? d k with
  | none => s
  | some m =>
    match m.releaseOp with
    | none => s
    | some i =>
      if m.st ≠ .ready ∨ !m.ops.isEmpty ∨ m.releases.length < m.children.length then s
      else if m.releases.any (fun r => r.2 != m.opCount) then s.quadFailHere d k stFORMAT
      else if m.role = 2 then ((s.toChildren d k m (qctl m.qid 6 0 0 0 0 0 0) noOp).dropMember d k).endOp i stOK 0
      else (s.toParent d k m (qctl m.qid 5 m.index 0 0 m.opCount 0 0) noOp).modMember d k (fun m => { m with st := .releasing })

/-- Q_RELEASE (R340). -/
def execQRelease (i : Nat) (s : State) : Host.Outcome State Fault Refusal :=
  .next (match s.startedOp i (· == 0x61) with
    | none => s
    | some o =>
      let d := opDie o
      match (s.die d).members.find? (fun p => p.2.polder == s.opPolder o && p.2.qid == qQid o.entry && p.2.fn == opFn o) with
      | none => s.endOp i stFORMAT 0
      | some (k, m) =>
        if m.st = .failed then (s.dropMember d k).endOp i stOK 0
        else if m.st ≠ .ready ∨ m.releaseOp.isSome then s
        else ((s.modOp i (fun o => { o with stage := .running, expect := 1 })).modMember d k
          (fun m => { m with releaseOp := some i })).releaseCheck d k)

/-- Q_ABORT (R341): completes OK once its ABORT packets have been acknowledged. -/
def execQAbort (i : Nat) (s : State) : Host.Outcome State Fault Refusal :=
  .next (match s.startedOp i (· == 0x66) with
    | none => s
    | some o =>
      let d := opDie o
      match (s.die d).members.find? (fun p => p.2.polder == s.opPolder o && p.2.qid == qQid o.entry && p.2.fn == opFn o) with
      | none => s.endOp i stFORMAT 0
      | some (k, m) =>
        if m.st = .failed then s.endOp i stCANCELLED 0
        else
          let n := m.children.length + (if m.role = 2 then 0 else 1)
          let s := (s.modOp i (fun o => { o with stage := .running, expect := 1 })).quadFailHere d k stCANCELLED
          if n = 0 then s.endOp i stOK 0 else s.modMember d k (fun m => { m with aborts := m.aborts ++ [(i, n)] }))

/-! ## Acknowledgements and rejections of quadrille packets -/

/-- A packet of a failed membership is over: a Q_ABORT completes once its last ABORT is. -/
def State.abortOver (s : State) (d : Die) (t : PTag) (m : Member) : State :=
  match m.aborts with
  | [] => s
  | (i, n) :: rest =>
    if t.chunk ≠ abortOp then s
    else if n ≤ 1 then (s.modMember d t.op (fun m => { m with aborts := rest })).endOp i stOK 0
    else s.modMember d t.op (fun m => { m with aborts := (i, n - 1) :: rest })

/-- A packet of a membership is acknowledged. -/
def State.quadAcked (s : State) (d : Die) (t : PTag) : State :=
  match s.member? d t.op with
  | none => s
  | some m =>
    if m.st = .failed then s.abortOver d t m
    else
      let s := s.modMember d t.op (fun m =>
        let m := modOps m t.chunk (fun o => { o with unacked := o.unacked - 1 })
        if t.at_ = 0 then m else modSeg m (t.at_ - 1) (fun g => { g with unacked := g.unacked - 1 }))
      let s := if t.at_ = 0 then s else s.segFree d t.op (t.at_ - 1)
      ((s.quadCheck d t.op t.chunk).quadGo d t.op).releaseCheck d t.op

/-- A packet of a membership was rejected, or its context ended (R341, R366). -/
def State.quadRejected (s : State) (d : Die) (t : PTag) (st : Nat) : State :=
  match s.member? d t.op with
  | none => s
  | some m =>
    if m.st = .failed then s.abortOver d t m
    else if m.st = .joining then
      let s := match m.joinOp with
        | some i => (s.modOp i (fun o => { o with aux := if st = stNOT_READY then 5 else 0 })).endOp i st 0
        | none => s
      s.dropMember d t.op
    else s.quadFailHere d t.op st

/-- A status reported for a packet: of an operation, or of a membership. -/
def State.tagError (s : State) (d : Die) (t : PTag) (st : Nat) : State :=
  if t.quad then s.quadRejected d t st else s.opError t.op st t.at_

def State.tagAcked (s : State) (d : Die) (t : PTag) : State := if t.quad then s.quadAcked d t else s.opAcked t

/-! ## Packets that arrive (R339, R358 to R360, R367) -/

/-- A QCTL packet handed on, of a subtype. -/
def State.qctlPkt (s : State) (d : Die) (id sub : Nat) : Option Handed :=
  match s.handedPkt d id (· == cQCTL) with
  | some h => if h.pkt.opf 32 8 = sub then some h else none
  | none => none

/-- The member that a quadrille packet addresses. -/
def State.pktMember (s : State) (d : Die) (p : Pkt) : Option (Nat × Member) := s.findMember d p.polder (p.opf 0 32) (endHp p.dest)

/-- Run an action on the member of a packet; with no record the packet is rejected (R339), as it is where the member's link
is down (04_polders.md R107). -/
def State.onMember (s : State) (d : Die) (h : Handed) (act : Nat → Member → State → State) : State :=
  match s.pktMember d h.pkt with
  | none => s.rejectPkt d h stNOT_READY
  | some (k, m) =>
    if !s.fnLinkUp m.fn then s.absentPort d h else act k m s

/-- QCTL_JOIN (R338, R339). -/
def execQctlJoin (d : Die) (id : Nat) (s : State) : Host.Outcome State Fault Refusal :=
  .next (match s.qctlPkt d id 1 with
    | none => s
    | some h =>
      let p := h.pkt
      let idx := p.opf 40 4
      let fast := p.opf 56 1 == 1
      match s.pktMember d p with
      | none =>
        if 4096 ≤ (s.die d).joins.length then s.rejectPkt d h stNOT_READY
        else (s.modDie d (fun x => { x with joins := x.joins ++ [⟨p.polder, p.opf 0 32, endHp p.dest, p.src, idx, fast, s.now⟩] })).perform d id []
      | some (k, m) =>
        if !s.fnLinkUp m.fn then s.absentPort d h
        else if m.st = .joining ∧ joinOk m p.src idx fast then
          ((s.modMember d k (fun m => { m with joined := m.joined ++ [idx] })).joinCheck d k).perform d id []
        else s.rejectPkt d h stREMOTE_ACCESS)

/-- QCTL_READY (R338). -/
def execQctlReady (d : Die) (id : Nat) (s : State) : Host.Outcome State Fault Refusal :=
  .next (match s.qctlPkt d id 2 with
    | none => s
    | some h => s.onMember d h (fun k m s => (if m.st = .joining then s.quadReady d k else s).perform d id []))

/-- QCTL_CREDIT (R358): from the parent, or upward from a child. -/
def execQctlCredit (d : Die) (id : Nat) (s : State) : Host.Outcome State Fault Refusal :=
  .next (match s.qctlPkt d id 3 with
    | none => s
    | some h => s.onMember d h (fun k m s =>
        let seg := h.pkt.opf 96 32
        let s := if m.role ≠ 2 ∧ h.pkt.src = m.parent then s.modMember d k (fun m => { m with credit := raise m.credit seg })
          else s.modMember d k (fun m => { m with childCredit := tput m.childCredit (h.pkt.opf 40 4) seg })
        (s.quadGo d k).perform d id []))

/-- QCTL_RESEND (R364): the segment's data are sent again, unless the member holds its result. -/
def execQctlResend (d : Die) (id : Nat) (s : State) : Host.Outcome State Fault Refusal :=
  .next (match s.qctlPkt d id 4 with
    | none => s
    | some h => s.onMember d h (fun k m s =>
        let seg := h.pkt.opf 96 32
        (if m.segs.any (fun g => g.seg == seg && g.result.isNone) then
          (s.modMember d k (fun m => modSeg m seg (fun g => { g with sent := false }))).segReady d k seg
        else s).perform d id []))

/-- An uncorrectable error in the slot set of a member's segment (R357, R364). Once its result is formed the lost copy is replaced from the
other. Before, the set is discarded, the member's own contribution deposited again, and the children asked to send theirs again. -/
def State.slotLost (s : State) (d : Die) (k seg : Nat) : State :=
  match s.segOf d k seg with
  | none => s
  | some (m, g, o, _) =>
    if isLeaf m then s
    else if g.result.isSome then s.modMember d k (fun m => modSeg m seg (fun g => { g with result := g.copy }))
    else if o.kind = 2 then s
    else
      let s := s.modMember d k (fun m => modSeg m seg (fun g => { g with items := [], part := none, own := .due }))
      ((s.toChildren d k m (qctl m.qid 4 0 0 0 0 seg 0) o.opseq).bumpBy (qduOf d m) QDU.RESENDS.COUNT m.children.length).readOwn d k seg

/-- QCTL_RELEASE (R340): a count that differs from the receiver's own is a mismatch, as soon as the receiver has begun more operations, or
when it releases in its turn. -/
def execQctlRelease (d : Die) (id : Nat) (s : State) : Host.Outcome State Fault Refusal :=
  .next (match s.qctlPkt d id 5 with
    | none => s
    | some h => s.onMember d h (fun k m s =>
        let n := h.pkt.opf 64 32
        let s := s.modMember d k (fun m => { m with releases := tput m.releases (h.pkt.opf 40 4) n })
        (if m.st ≠ .failed ∧ n < m.opCount + m.ops.length then s.quadFailHere d k stFORMAT else s.releaseCheck d k).perform d id []))

/-- QCTL_FREE (R340). -/
def execQctlFree (d : Die) (id : Nat) (s : State) : Host.Outcome State Fault Refusal :=
  .next (match s.qctlPkt d id 6 with
    | none => s
    | some h => s.onMember d h (fun k m s =>
        if m.st = .releasing then
          let s := (s.toChildren d k m (qctl m.qid 6 0 0 0 0 0 0) noOp).dropMember d k
          (match m.releaseOp with | some i => s.endOp i stOK 0 | none => s).perform d id []
        else s.perform d id []))

/-- QCTL_ABORT (R367). The second to reach a member in FAILED is discarded. -/
def execQctlAbort (d : Die) (id : Nat) (s : State) : Host.Outcome State Fault Refusal :=
  .next (match s.qctlPkt d id 7 with
    | none => s
    | some h => s.onMember d h (fun k _ s =>
        (s.quadFail d k (h.pkt.opf 48 8) (h.pkt.opf 128 24) false (some h.pkt.src)).perform d id []))

/-- QDATA (R358 to R360): a child's data join their segment, or wait for the operation to start. Data that do not agree with a
started operation, or beyond the credit granted, are a mismatch; poisoned data fail the quadrille (13_switch_core.md R416). -/
def execQdata (d : Die) (id : Nat) (s : State) : Host.Outcome State Fault Refusal :=
  .next (match s.handedPkt d id (· == cQDATA) with
    | none => s
    | some h => s.onMember d h (fun k m s =>
        let p := h.pkt
        let e : QEarly :=
          { child := p.opf 136 4, opseq := p.opf 32 32, seg := p.opf 64 32, kind := p.opf 134 2, qop := p.opf 128 3,
            dtype := p.opf 131 3, count := p.opf 160 32, fmt := p.opf 140 2, elems := p.opf 144 16, data := pktData p }
        let started := m.ops.find? (fun o => o.opseq == e.opseq)
        let agrees := match started with
          | some o => o.kind == e.kind && o.qop == e.qop && o.dtype == e.dtype && o.count == e.count
          | none => true
        if m.st = .failed then s.perform d id []
        else if p.srcPoison then (s.quadFailHere d k stREMOTE_ACCESS).perform d id []
        else if !agrees ∨ !covers m.granted e.seg then (s.quadFailHere d k stFORMAT).perform d id []
        else if m.segs.any (fun g => g.seg == e.seg) then
          let s := s.modMember d k (fun m => modSeg m e.seg (fun g =>
            if g.items.any (fun i => i.idx == e.child + 1) then g
            else { g with items := g.items ++ [⟨e.child + 1, e.fmt, e.data⟩] }))
          ((s.segReady d k e.seg).quadGo d k).perform d id []
        else (s.modMember d k (fun m => { m with early := m.early ++ [e] })).perform d id []))

/-- QRESULT (R359): the result is kept, written and forwarded, and its CREDIT is taken. -/
def execQresult (d : Die) (id : Nat) (s : State) : Host.Outcome State Fault Refusal :=
  .next (match s.handedPkt d id (· == cQRESULT) with
    | none => s
    | some h => s.onMember d h (fun k m s =>
        let p := h.pkt
        let seg := p.opf 64 32
        if m.st = .failed then s.perform d id []
        else if p.srcPoison then (s.quadFailHere d k stREMOTE_ACCESS).perform d id []
        else
          let s := s.modMember d k (fun m => { m with credit := raise m.credit (p.opf 96 32) })
          let due := m.segs.any (fun g => g.seg == seg && g.result.isNone)
          ((if due then s.putResult d k seg (pktData p) false else s).quadGo d k).perform d id []))

/-! ## Timers (R339) -/

/-- Join timeout of a member in ns. -/
def State.joinTimeout (s : State) (d : Die) (m : Member) : Nat :=
  ms (if isLeaf m then s.rd d LEAF.LEAF_CFG.JOIN_TIMEOUT_MS else s.rd (qduOf d m) QDU.QDU_CFG.JOIN_TIMEOUT_MS)

/-- JOIN_TIMEOUT (R339). -/
def execJoinTimeout (d : Die) (k : Nat) (s : State) : Host.Outcome State Fault Refusal :=
  .next (match s.member? d k with
    | some m =>
      if m.st = .joining ∧ m.since + s.joinTimeout d m ≤ s.now then
        (match m.joinOp with | some i => (s.modOp i (fun o => { o with aux := 6 })).endOp i stNOT_READY 0 | none => s).dropMember d k
      else s
    | none => s)

/-- PENDING_JOIN_TIMEOUT (R339): the oldest pending JOIN is discarded when its time has passed. -/
def execPendingJoinTimeout (d : Die) (s : State) : Host.Outcome State Fault Refusal :=
  .next (match (s.die d).joins with
    | j :: rest => if j.at_ + ms (s.rd d QDU.QDU_CFG.JOIN_TIMEOUT_MS) ≤ s.now then s.modDie d (fun x => { x with joins := rest }) else s
    | [] => s)

/-! ## Entries that complete without being performed (R366) -/

/-- An entry of a quadrille completed with a status other than OK that no membership gave it: it was malformed, flushed, or of a LEAF that
has no engine. The membership fails with that status. -/
def State.quadLapse (s : State) (i : Nat) (o : WOp) : State :=
  let c := eOpcode o.entry
  let d := opDie o
  let st := o.force.getD o.status
  let mine := fun (p : Nat × Member) =>
    p.2.joinOp == some i || (c != 0x60 && p.2.polder == s.opPolder o && p.2.qid == qQid o.entry && p.2.fn == opFn o &&
      (o.force.isSome || o.malformed || (st == stABSENT && isLeaf p.2)))
  if !isQuad c ∨ isOk st then s
  else match (s.die d).members.find? mine with
    | some (k, _) => s.quadFailHere d k st
    | none => s

/-- The packets of a quadrille entry have been acknowledged, or the entry had none. -/
def State.quadQuiet (s : State) (i : Nat) (o : WOp) : Bool :=
  (s.die (opDie o)).members.all (fun p => p.2.ops.all (fun q => q.op != i || q.unacked == 0))

/-- COMPLETION (06_work_queues.md R174). -/
def execCompletion (i : Nat) (s : State) : Host.Outcome State Fault Refusal :=
  .next (match s.op i with
    | none => s
    | some o =>
      if !s.quadQuiet i o ∧ o.stage = .running then s
      else
        let t := s.complete i
        if (t.op i).isNone then t.quadLapse i o else t)

/-- The data of a read are a part of a member's own contribution (R359). -/
def State.fillOwn (s : State) (r : HostRead) (got : List Byte) (poisoned : Bool) : State :=
  let last := s.reads.all (fun p => !(p.2.packet == r.packet && p.2.die == r.die && p.2.use == ReadUse.quad))
  let find := (s.die r.die).members.findSome? (fun p => p.2.segs.findSome? (fun g => match g.own with
    | .reading id data bad => if id = r.packet then some (p.1, g.seg, placeBytes data r.off got, bad || poisoned) else none
    | _ => none))
  match find with
  | none => s
  | some (k, seg, data, bad) =>
    if last then (s.ownIn r.die k seg data bad)
    else s.modMember r.die k (fun m => modSeg m seg (fun g => { g with own := .reading r.packet data bad }))

/-- HOST_READ_COMPLETION (05_host_ports.md R131; 16_faults.md R502): the data of a read return, possibly poisoned. -/
def execHostReadCompletion (tag : Nat) (data : List Byte) (poisoned : Bool) (s : State) :
    Host.Outcome State Fault Refusal :=
  .next (match tget s.reads tag with
    | none => s
    | some r =>
      let got := data.take r.len ++ List.replicate (r.len - data.length) 0
      let s := s.when (r.use != .atomic) (fun s => { s with reads := tdel s.reads tag })
      let s := match r.use with
        | .fence => s
        | .atomic => s.hostAtomicDone r.die r.packet got poisoned tag
        | .flagged => s.fenceReturned r
        | .packet => s.fillRead r tag got poisoned
        | .quad => s.fillOwn r got poisoned
      (s.atsInvDone .a).atsInvDone .b)

/-- A function-level reset of the joining function (R366): its memberships fail with TRANSPORT_ABORTED, and their records are freed. -/
def State.quadResetFn (s : State) (f : Fn) : State :=
  let d := fnDie f
  ((s.die d).members.filter (fun p => p.2.fn == f)).foldl (fun s p => (s.quadFailHere d p.1 stABORTED).dropMember d p.1) s

end Sys2Proof.Machine
end

