-- ==== Sys2Proof/Machine/Transport.lean ====
section
/-! DEFINITION. Transport contexts (10_transport.md): opening, ending and caching them, receiving and acknowledging,
retransmission, rate control, and the context command channel. -/

namespace Sys2Proof.Machine

/-! ## The context cache (R306 to R308) -/

def State.ctxWaits (s : State) (d : Die) (c : Ctx) : Bool :=
  (s.sluice d).waiting.any (fun w => w.hp == c.hp && w.pkt.dest == c.fea)

/-- Descriptors of packets that are not acknowledged. -/
def unackedOf (c : Ctx) : List Desc := c.descs.filter (fun x => !x.shown)

/-- A cached context that R306 lets be evicted. -/
def State.evictable (s : State) (d : Die) (c : Ctx) : Bool :=
  c.cached && (unackedOf c).isEmpty && !c.tracker && c.rx.isEmpty && c.records.isEmpty && !s.ctxWaits d c

def State.ctxCached (s : State) (d : Die) : Nat := ((s.tru d).ctxs.filter (fun p => p.2.cached)).length

def leastUsed : List (Nat × Ctx) → Option (Nat × Ctx)
  | [] => none
  | p :: l => match leastUsed l with
    | some q => if q.2.lastUse < p.2.lastUse then some q else some p
    | none => some p

/-- Make room for one more cached context; false when none can be evicted, or the writeback buffer is full (R306 to R308). -/
def State.makeRoom (s : State) (d : Die) : State × Bool :=
  if s.ctxCached d < s.rd d TRU.CTX_CACHE.ENTRIES then (s, true)
  else match leastUsed ((s.tru d).ctxs.filter (fun p => s.evictable d p.2)) with
    | none => (s, false)
    | some (i, c) =>
      if !c.dirty then (s.modCtx d i (fun c => { c with cached := false }), true)
      else if 64 ≤ (s.tru d).wb.length then (s, false)
      else ((s.modCtx d i (fun c => { c with cached := false, dirty := false })).modTru d (fun t => { t with wb := t.wb ++ [i] }), true)

/-- A lookup of a context: a hit, a hit in the writeback buffer, or a reload that is begun and waited for. -/
def State.touchCtx (s : State) (d : Die) (i : Nat) : State × Bool :=
  match s.ctx? d i with
  | none => (s, true)
  | some c =>
    let use := fun (s : State) => s.modCtx d i (fun c => { c with cached := true, dirty := true, lastUse := s.now })
    if c.cached then (use s, true)
    else if (s.tru d).wb.contains i then
      match s.makeRoom d with
      | (s, true) => (use (s.bump d TRU.WB_BUFFER_HITS.COUNT), true)
      | (s, false) => (s, false)
    else if c.loading then (s, false)
    else (((s.bump d TRU.CTX_MISSES.COUNT).event d 16 none).modCtx d i (fun c => { c with loading := true }), false)

/-- Rate control and pacing as at creation (R329, R330): rates times 2^16, a full burst of 16 KiB. -/
def freshRate (rateMax now : Nat) (c : Ctx) : Ctx :=
  { c with rate := rateMax * 65536, target := rateMax * 65536, alpha := 0, stage := 0, sawMark := false, lastDec := none,
           credit := 131072 * 65536, creditAt := now }

/-- CONTEXT_RELOAD (R306): the record returns and is installed, with the congestion state of a new context. -/
def execContextReload (d : Die) (i : Nat) (s : State) : Host.Outcome State Fault Refusal :=
  .next (match s.ctx? d i with
    | none => s
    | some c =>
      if !c.loading then s
      else match s.makeRoom d with
        | (s, true) => s.modCtx d i (fun c => freshRate (s.rd d TRU.CC_RATES.RATE_MAX_GBPS) s.now
            { c with loading := false, cached := true, lastUse := s.now })
        | (s, false) => s)

/-- CONTEXT_WRITEBACK_DONE (R307). -/
def execContextWritebackDone (d : Die) (i : Nat) (s : State) : Host.Outcome State Fault Refusal :=
  .next (s.modTru d (fun t => { t with wb := t.wb.erase i }))

/-- The directory answers a lookup of a pair, by its context: it is among the 65,536 entries held on chip, and the least recently used one
makes room (R298). -/
def State.useDir (s : State) (d : Die) (i : Nat) : State :=
  s.modTru d (fun t =>
    let l := t.dir.filter (· != i) ++ [i]
    { t with dir := l.drop (l.length - 65536) })

/-! ## Opening (R299 to R302) -/

/-- A new record (R299, R315, R323). -/
def State.ctxNew (s : State) (d : Die) (hp : Fin 4) (fea : Nat) (st : CtxSt) (isn : Nat) : Ctx :=
  let m := s.seqMod d
  freshRate (s.rd d TRU.CC_RATES.RATE_MAX_GBPS) s.now
    { hp := hp, fea := fea, st := st, version := 1, remote := none, isn := isn, peerIsn := 0,
      nextSeq := isn % m, cumAcked := (isn + m - 1) % m, descs := [], covered := [], txOrd := 0,
      srtt := 8000 * 65536, rttvar := 2000 * 65536, rto := 16000 * 65536, backoff := 0, timerAt := 0, budgetAt := 0,
      due := [], rnrSeq := 0, rnrDelay := 0, rnrAt := 0, gotNext := 0, gotAny := false, early := [], echoDue := false,
      openAt := s.now, opens := 0, holdAt := 0, cum := 0, rx := [], tracker := false, records := [], nextOrd := 0,
      counted := 0, marked := 0, sinceAck := 0, ackAt := 0, farAt := 0, gapAt := 0, refused := none,
      rate := 0, target := 0, alpha := 0, stage := 0, sawMark := false, lastDec := none, credit := 0, creditAt := s.now,
      cached := true, loading := false, dirty := true, lastUse := s.now }

/-- The retransmit timer of a context in ns (R323). -/
def State.rtoNs (s : State) (d : Die) (c : Ctx) : Nat :=
  min 32000000 ((if s.lossy d then c.rto / 65536 else us (s.rd d TRU.TRU_TIMERS.GBN_RTO_US)) * 2 ^ c.backoff)

/-- Send CTX_OPEN (R299, R301, R313), and run its timer. -/
def State.sendOpen (s : State) (d : Die) (i : Nat) : State :=
  match s.ctx? d i with
  | none => s
  | some c =>
    let op := i % 2 ^ 22 + c.isn * 2 ^ 32 + (1 + 1 * 16) * 2 ^ 64 + b2n (s.lossy d) * 2 ^ 72
    let p := { mkPkt cCTX_OPEN vRSP false c.fea 0 op [] with src := s.myFea d c.hp.val }
    (s.sendCtl d p).modCtx d i (fun c =>
      { c with opens := c.opens + 1, timerAt := s.now + s.rtoNs d c, budgetAt := if c.budgetAt = 0 then s.now + 2000000000 else c.budgetAt })

/-- The free slot that a new context takes. -/
def State.freeCtx (s : State) (d : Die) : Option Nat := freeKey (s.tru d).ctxs 2097152 (d.num * 2097152)

/-- Open a context for a pair at a slot: it draws its ISN and sends CTX_OPEN. -/
def State.openCtx (s : State) (d : Die) (i : Nat) (hp : Fin 4) (fea : Nat) : State :=
  s.draw (fun k s =>
    (s.modTru d (fun t => { t with ctxs := tput t.ctxs i (s.ctxNew d hp fea .opening (k % 2 ^ 32)) })).sendOpen d i |>.useDir d i)

/-! ## Ending (R303, R305) -/

/-- A running operation has its packets on the pair: its destination, or the source of the message it pulls. -/
def State.opOnPair (s : State) (d : Die) (i : Nat) (o : WOp) (hp : Fin 4) (fea : Nat) : Bool :=
  opDie o == d && (opFn o).hp == hp && (o.stage == .running) &&
  match (s.tmu d).pulls.find? (fun p => p.op == i) with
  | some p => p.fea == fea
  | none => (eOpcode o.entry == opTSEND || isRma (eOpcode o.entry)) && eDest o.entry == fea

/-- A membership has a neighbour at the pair's other end. -/
def memberOnPair (m : Member) (hp : Fin 4) (fea : Nat) : Bool :=
  m.fn.hp == hp && m.st != .failed && ((m.role != 2 && m.parent == fea) || m.children.contains fea)

/-- An eager message of an ended context whose remaining packets can no longer come: a receive that takes it completes with the
context's status, and an unexpected message that none takes is dropped (log entry 53). -/
def State.loseInbound (s : State) (d : Die) (status : Nat) (b : Inbound) : State :=
  match b.into with
  | .drop => s
  | .recv i => s.opAbort i status
  | .ux q asn =>
    match (s.tmu d).copies.find? (fun c => c.q == q && c.asn == asn) with
    | none => (s.unplace d q asn false).dropUx d q asn
    | some c => ((s.dropUx d q asn).modTmu d (fun t => { t with copies := t.copies.filter (fun x => x.op != c.op) })).opAbort c.op status

/-- What the receive half of an ended context discards (R303; 09_remote_access.md R287): packets in the flag hold and the
reorder buffer, deferred events, slots reserved for notifications that can no longer come, and messages of which only some packets
have come. -/
def State.endReceive (s : State) (d : Die) (i status : Nat) : State :=
  let r := s.rma d
  let held := fun (id : Nat) => r.flags.any (fun f => f.handed == id)
  let s := (r.res.filter (fun x => x.ctx == i && !x.refused && !x.gone)).foldl (fun s x => s.modRing x.ring (fun g => { g with reserved := g.reserved - 1 })) s
  let mine := fun (id : Nat) => (s.tru d).handed.any (fun h => h.id == id && h.ctx == i)
  let s := s.modRma d (fun x =>
    { x with gets := x.gets.filter (fun g => g.ctx != i)
             failed := x.failed.filter (fun f => f.ctx != i)
             fenced := x.fenced.filter (fun f => !mine f.1)
             flags := x.flags.filter (fun f => !mine f.handed)
             events := x.events.filter (fun e => e.ctx != i)
             res := x.res.filter (fun y => y.ctx != i) })
  let lost := (s.tmu d).inbound.filter (fun b => b.ctx == i && decide (b.got + s.handedBytes d i b.msgId < b.len))
  let s := lost.foldl (fun s b => s.loseInbound d status b) s
  let s := s.modTmu d (fun t => { t with inbound := (t.inbound.filter (fun b => !lost.contains b)).map (fun b =>
    if b.ctx = i then { b with ctx := 4194304 + i } else b) })
  s.modTru d (fun t =>
    { t with handed := (t.handed.filter (fun h => !(h.ctx == i && held h.id))).map (fun h =>
      if h.ctx = i then { h with ctx := 4194304 + i } else h) })

/-- End a context's send and receive halves: operations that have sent on it complete with `status`, and so do those that
wait for it when `all`; its record is deleted. -/
def State.endCtx (s : State) (d : Die) (i reason status : Nat) (all : Bool) : State :=
  match s.ctx? d i with
  | none => s
  | some c =>
    let here := fun (w : WPkt) => w.hp == c.hp && w.pkt.dest == c.fea
    let waits := fun (k : Nat) => (s.sluice d).waiting.any (fun w => here w && w.again.isNone &&
      (match w.tag with | some t => t.op == k && !t.quad | none => false))
    let ended := (s.ops.filter (fun p => s.opOnPair d p.1 p.2 c.hp c.fea && (p.2.sent || (all && waits p.1)))).map (·.1)
    let s := ended.foldl (fun s k => s.opAbort k status) s
    let gone := fun (w : WPkt) => here w && (all || w.again.isSome ||
      (match w.tag with | some t => t.quad || ended.contains t.op | none => false))
    let s := s.modSluice d (fun x => { x with waiting := x.waiting.filter (fun w => !gone w) })
    let s := ((s.die d).members.filter (fun p => memberOnPair p.2 c.hp c.fea)).foldl (fun s p => s.quadFailHere d p.1 status) s
    let s := s.endReceive d i status
    let s := s.wrs d [(TRU.LAST_END.REMOTE_FEA, c.fea), (TRU.LAST_END.HOST_PORT, c.hp.val), (TRU.LAST_END.REASON, reason),
      (TRU.LAST_END.LOCAL_INDEX, i)]
    s.modTru d (fun t => { t with ctxs := tdel t.ctxs i, wb := t.wb.erase i, dir := t.dir.filter (· != i) })

/-- A context ends under R303. -/
def State.abortCtx (s : State) (d : Die) (i reason : Nat) : State :=
  (s.bump d TRU.CTX_ABORTED.COUNT).endCtx d i reason stABORTED false

/-- A pair becomes unreachable (R301, R305): its record holds that state for UNREACH_HOLD. -/
def State.unreachable (s : State) (d : Die) (i reason : Nat) : State :=
  match s.ctx? d i with
  | none => s
  | some c =>
    let s := s.endCtx d i reason stUNREACHABLE true
    let c' := { s.ctxNew d c.hp c.fea .unreachable c.isn with holdAt := s.now + ms (s.rd d TRU.TRU_TIMERS.UNREACH_HOLD_MS) }
    s.modTru d (fun t => { t with ctxs := tput t.ctxs i c' })

/-! ## Control packets (R312, R313) -/

/-- The control packet at the head of the die's queue, when it has this command: a failed header check discards it.
`act` answers none while it has to wait. -/
def State.takeCtl (s : State) (d : Die) (command : Nat) (act : Pkt → State → Option State) : State :=
  match (s.tru d).ctlIn with
  | [] => s
  | p :: l =>
    if p.command ≠ command then s
    else if !hdrOk p then (s.modTru d (fun t => { t with ctlIn := l })).bump d TRU.HDR_CRC_FAILURES.COUNT
    else match act p (s.modTru d (fun t => { t with ctlIn := l })) with
      | some s => s
      | none => s

/-- Test 1 of 04_polders.md R107 for an endpoint: a present host port with a link up and its function enabled. -/
def State.endpointOk (s : State) (fea : Nat) : Bool :=
  let h := endHp fea
  let p := s.hp h
  feaEnd fea < 4 && s.hpPresent h.val && ((p.link0.up && p.pfOn) || (p.bifurcated && p.link1.up && p.secOn))

/-- Reply to a CTX_OPEN (R300, R301, R313). -/
def State.openReply (s : State) (d : Die) (p : Pkt) (index isn version status : Nat) : State :=
  let op := index % 2 ^ 22 + isn * 2 ^ 32 + version * 2 ^ 64 + status * 2 ^ 72 + p.opf 0 22 * 2 ^ 96 + p.opf 32 32 * 2 ^ 128
  s.replyCtl d { mkPkt cCTX_OPEN_ACK vRSP false p.src 0 op [] with src := p.dest, context := p.opf 0 22 }

/-- Record the sender of an open: its index and ISN, and the agreed version. -/
def setPeer (m : Nat) (p : Pkt) (c : Ctx) : Ctx :=
  { c with remote := some (p.opf 0 22), peerIsn := p.opf 32 32, version := min 1 (p.opf 64 4),
           cum := (p.opf 32 32 % m + m - 1) % m }

/-- A receive half that has received nothing. -/
def freshRx (c : Ctx) : Ctx := { c with rx := [], tracker := false, records := [], nextOrd := 0, refused := none }

def State.replyOk (s : State) (d : Die) (p : Pkt) (i : Nat) : State :=
  match s.ctx? d i with
  | some c => s.openReply d p i c.isn c.version 0
  | none => s

/-- Accept an open at a slot: the record becomes LIVE (R300, first row). -/
def State.acceptOpen (s : State) (d : Die) (p : Pkt) (i : Nat) : State :=
  s.draw (fun k s =>
    let c := { setPeer (s.seqMod d) p (s.ctxNew d (endHp p.dest) p.src .live (k % 2 ^ 32)) with opens := 0 }
    ((s.modTru d (fun t => { t with ctxs := tput t.ctxs i c })).bump d TRU.CTX_OPENED.COUNT).replyOk d p i |>.useDir d i)

/-- CTX_OPEN (R300, R301). It waits, at the head of the queue, for its record or for a place in the cache. -/
def execCtxOpen (d : Die) (s : State) : Host.Outcome State Fault Refusal :=
  .next (s.takeCtl d cCTX_OPEN (fun p t =>
    if t.repliesFull d then some (t.bump d TRU.CONTROL_DROPS.COUNT)
    else if !t.endpointOk p.dest then some (t.openReply d p 0 0 0 4)
    else if p.opf 64 4 = 0 ∨ 2 < p.opf 64 4 then some (t.openReply d p 0 0 0 1)
    else if (p.opf 72 1 == 1) != t.lossy d then some (t.openReply d p 0 0 0 3)
    else match t.ctxOf d (endHp p.dest) p.src with
      | none =>
        match t.freeCtx d with
        | none => some (t.openReply d p 0 0 0 2)
        | some i => match t.makeRoom d with
          | (t, true) => some (t.acceptOpen d p i)
          | (_, false) => none
      | some (i, _) =>
        match (t.useDir d i).touchCtx d i with
        | (_, false) => some (((s.useDir d i).touchCtx d i).1)
        | (t, true) => match t.ctx? d i with
          | none => some t
          | some c => match c.st with
            | .opening =>
              if c.remote = some (p.opf 0 22) ∧ c.peerIsn = p.opf 32 32 then some (t.replyOk d p i)
              else
                let t := if c.remote.isSome then t.endReceive d i stABORTED else t
                some ((t.modCtx d i (fun c => setPeer (t.seqMod d) p (freshRx c))).replyOk d p i)
            | .unreachable => some (t.acceptOpen d p i)
            | .live =>
              if c.remote = some (p.opf 0 22) ∧ c.peerIsn = p.opf 32 32 then some (t.replyOk d p i)
              else some ((t.abortCtx d i 2).acceptOpen d p i)))

/-- The context of this die that a control packet names by index, when it is its pair's (R304). -/
def State.ctlCtx (s : State) (d : Die) (p : Pkt) : Option Ctx :=
  if p.context / 2097152 ≠ d.num then none
  else match s.ctx? d p.context with
    | some c => if c.fea = p.src ∧ c.hp.val = feaEnd p.dest then some c else none
    | none => none

/-- CTX_OPEN_ACK (R301, R313). -/
def execCtxOpenAck (d : Die) (s : State) : Host.Outcome State Fault Refusal :=
  .next (s.takeCtl d cCTX_OPEN_ACK (fun p t =>
    match t.ctlCtx d p with
    | none => some t
    | some c =>
      let i := p.context
      if c.st ≠ .opening ∨ p.opf 96 22 ≠ i % 2 ^ 22 ∨ p.opf 128 32 ≠ c.isn then some t
      else if p.opf 72 8 = 0 then
        some ((t.modCtx d i (fun c =>
          let c := if c.remote = some (p.opf 0 22) ∧ c.peerIsn = p.opf 32 32 then c else setPeer (t.seqMod d) p c
          { c with st := .live, version := p.opf 64 4, timerAt := 0, budgetAt := 0, backoff := 0 })).bump d TRU.CTX_OPENED.COUNT)
      else some (t.unreachable d i 5)))

/-- CTX_NOCTX (R304): it ends the pair's context if that has the stale index as its remote index. -/
def execCtxNoctx (d : Die) (s : State) : Host.Outcome State Fault Refusal :=
  .next (s.takeCtl d cCTX_NOCTX (fun p t =>
    match t.ctxOf d (endHp p.dest) p.src with
    | some (i, c) =>
      let t := t.useDir d i
      if c.st = .live ∧ c.remote = some (p.opf 0 22) ∧ feaEnd p.dest < 4 then some (t.abortCtx d i 3) else some t
    | none => some t))

/-! ## Receiving a sequenced packet (R304, R310, R317 to R321) -/

/-- Discard a packet and reply CTX_NOCTX (R304). -/
def State.noctx (s : State) (d : Die) (p : Pkt) : State :=
  let r := { mkPkt cCTX_NOCTX vRSP false p.src 0 (p.context + p.seq * 2 ^ 32) [] with src := p.dest }
  (s.bump d TRU.NOCTX_SENT.COUNT).replyCtl d r

/-- Received numbers that follow CUM without a break. -/
def contiguous (m : Nat) (l : List RxEnt) : Nat → Nat → Nat
  | 0, _ => 0
  | n + 1, q => if (rxGet l q).isSome then contiguous m l n ((q + 1) % m) + 1 else 0

/-- A number is missing below one that is held. -/
def hasGap (m : Nat) (c : Ctx) : Bool := contiguous m c.rx (c.rx.length + 1) ((c.cum + 1) % m) != c.rx.length

/-- In LOSSLESS_GBN a gap starts the NAK timer, and its end stops it (R321). -/
def State.gapCheck (s : State) (d : Die) (i : Nat) : State :=
  s.modCtx d i (fun c =>
    let t := if s.lossy d || !hasGap (s.seqMod d) c then 0
      else if c.gapAt = 0 then s.now + s.rd d TRU.TRU_TIMERS.GAP_TIMEOUT_NS else c.gapAt
    { c with gapAt := t })

/-- A bitmap for numbers landed or rejected more than 256 beyond CUM, at most once per ACK_DELAY (R321). -/
def State.farAck (s : State) (d : Die) (i : Nat) : State :=
  match s.ctx? d i with
  | none => s
  | some c =>
    let m := s.seqMod d
    let far := c.rx.filter (fun e => (e.st == .landed || e.st == .rejected) && decide (256 < sdiff m c.cum e.seq))
    match far with
    | [] => s
    | e :: l =>
      if !s.lossy d ∨ s.now < c.farAt then s
      else
        let low := l.foldl (fun b x => if sbefore m x.seq b then x.seq else b) e.seq
        (s.sendAckFrom d i (some (low / 256 * 256)) false).modCtx d i (fun c => { c with farAt := s.now + s.rd d TRU.TRU_CFG.ACK_DELAY_NS })

/-- Units in a die's reorder buffer (R320). -/
def State.reorderUsed (s : State) (d : Die) : Nat :=
  ((s.tru d).ctxs.map (fun p => (p.2.rx.map (fun e => match e.st, e.pkt with
    | .reorder, some q => pktUnits q
    | _, _ => 0)).sum)).sum

def State.trackersUsed (s : State) (d : Die) : Nat := ((s.tru d).ctxs.filter (fun p => p.2.tracker)).length

/-- Count a packet that is received or rejected (R328). -/
def State.countRx (s : State) (d : Die) (i : Nat) (p : Pkt) : State :=
  let s := s.modCtx d i (fun c => { c with counted := c.counted + 1, marked := c.marked + b2n p.ce })
  s.when p.ce (fun s => (s.bump d TRU.MARKED_RECEIVED.COUNT).polderCount d p.polder 5 1)

/-- Take a packet into a context's receive half: steps 4 to 6 of R317. -/
def State.receive (s : State) (d : Die) (i : Nat) (c : Ctx) (p : Pkt) (reject : Option Nat) : State :=
  let m := s.seqMod d
  let q := p.seq % m
  if 1 < sdiff m c.cum q ∧ !c.tracker ∧ 8192 ≤ s.trackersUsed d then s.bump d TRU.OUT_OF_WINDOW.COUNT
  else
    let prev := sdiff m c.cum q = 1 || (rxGet c.rx ((q + m - 1) % m)).isSome
    let opens := !prev && (rxGet c.rx ((q + 1) % m)).isNone
    let fills := prev && (rxGet c.rx ((q + 1) % m)).isSome
    let firstMark := p.ce && c.marked == 0
    let waits := p.ordered && contiguous m c.rx (c.rx.length + 1) ((c.cum + 1) % m) + 1 != sdiff m c.cum q
    let s := s.modCtx d i (fun c => { c with tracker := c.tracker || decide (1 < sdiff m c.cum q) })
    let put := fun (st : RxSt) (s : State) => s.modCtx d i (fun c =>
      { c with rx := c.rx ++ [{ seq := q, st := st, pkt := if st = .reorder then some p else none }]
               refused := if c.refused = some q then none else c.refused })
    let later := p.ordered && (match c.refused with | some r => sbefore m r q | none => false)
    match reject with
    | some st =>
      let full := decide (8192 ≤ s.recordsUsed d)
      let s := ((put .handed s).rejectSeq d i q st).when (!full) (fun s => s.rmaFailed d i q p)
      ((s.when (!full) (fun s => s.countRx d i p)).gapCheck d i).farAck d i
    | none =>
      if later ∨ (waits ∧ 131072 < s.reorderUsed d + pktUnits p) then (s.refusePkt d i q).gapCheck d i
      else
        let s := s.countRx d i p
        let s :=
          if p.ordered then put .reorder s
          else
            let h : Handed := { id := (s.tru d).nextHanded, pkt := p, ctx := i, seq := q, done := false, lines := [], reads := [] }
            (put .handed s).modTru d (fun t => { t with handed := t.handed ++ [h], nextHanded := t.nextHanded + 1 })
        let s := (s.rxSettle d i).gapCheck d i
        s.when (opens || fills || firstMark) (fun s => s.sendAck d i false)

/-- The context a sequenced packet names can take it (R304). -/
def State.seqCtx (s : State) (d : Die) (p : Pkt) : Option Ctx :=
  match s.ctlCtx d p with
  | some c => if c.st = .live ∨ (c.st = .opening ∧ c.remote.isSome) then some c else none
  | none => none

/-- SEQUENCED_PACKET_RECEIVE (R317). It waits, at the head of the die's queue, for the reload of its context. -/
def execSequencedPacketReceive (d : Die) (s : State) : Host.Outcome State Fault Refusal :=
  .next (match (s.tru d).inbox with
    | [] => s
    | x :: l =>
      let t := s.modTru d (fun t => { t with inbox := l })
      let p := x.pkt
      if !hdrOk p then t.bump d TRU.HDR_CRC_FAILURES.COUNT
      else match t.seqCtx d p with
        | none => t.noctx d p
        | some _ =>
          let i := p.context
          match t.touchCtx d i with
          | (_, false) => (s.touchCtx d i).1
          | (t, true) => match t.ctx? d i with
            | none => t
            | some c =>
              let m := t.seqMod d
              let q := p.seq % m
              if !sbefore m c.cum q ∨ (rxGet c.rx q).isSome then (t.bump d TRU.DUPLICATES.COUNT).sendAck d i false
              else if t.window d < sdiff m c.cum q then t.bump d TRU.OUT_OF_WINDOW.COUNT
              else t.receive d i c p x.reject)

/-- PACKET_LANDED (R318; 09_remote_access.md R277): a consumer has performed a packet and its writes are visible. -/
def execPacketLanded (d : Die) (id : Nat) (s : State) : Host.Outcome State Fault Refusal :=
  .next (match (s.tru d).handed.find? (fun h => h.id == id && h.done) with
    | none => s
    | some h =>
      let pending := h.lines.any (fun l => match tget (s.hag (s.memDie (l * 64))).trackers l with
        | some k => !k.dev.isEmpty
        | none => false)
      if pending || h.reads.any (fun t => (tget s.reads t).isSome) then s
      else
        let s := s.modTru d (fun t => { t with handed := t.handed.filter (fun x => x.id != id) })
        let s := s.modCtx d h.ctx (fun c => { c with rx := rxSet c.rx h.seq .landed })
        (((s.rxSettle d h.ctx).gapCheck d h.ctx).ackCount d h.ctx).farAck d h.ctx)

/-- ACK_DELAY_EXPIRY (R315, R321). -/
def execAckDelayExpiry (d : Die) (i : Nat) (s : State) : Host.Outcome State Fault Refusal :=
  .next (match s.ctx? d i with
    | some c => if c.ackAt ≠ 0 ∧ c.ackAt ≤ s.now then (s.sendAck d i false).farAck d i else s.farAck d i
    | none => s)

/-- GAP_TIMEOUT (R321). -/
def execGapTimeout (d : Die) (i : Nat) (s : State) : Host.Outcome State Fault Refusal :=
  .next (match s.ctx? d i with
    | some c =>
      if !s.lossy d ∧ c.gapAt ≠ 0 ∧ c.gapAt ≤ s.now then
        (s.sendAck d i true).modCtx d i (fun c => { c with gapAt := s.now + s.rd d TRU.TRU_TIMERS.GAP_TIMEOUT_NS })
      else s
    | none => s)

/-- RECORD_RESEND_TIMER (R315): a record not echoed for 16 µs is sent again. -/
def execRecordResendTimer (d : Die) (i : Nat) (s : State) : Host.Outcome State Fault Refusal :=
  .next (match s.ctx? d i with
    | some c => if c.records.any (fun r => r.sentAt + 16000 ≤ s.now) then s.sendAck d i false else s
    | none => s)

/-! ## Taking an acknowledgement (R316, R323 to R326, R329) -/

/-- The status of a record reaches its packet's operation. -/
def State.applyRecord (s : State) (d : Die) (i : Nat) (r : OutRec) : State :=
  match s.ctx? d i with
  | none => s
  | some c =>
    let tag := match c.descs.find? (fun x => x.seq == r.seq && !x.shown) with
      | some x => x.tag
      | none => match c.covered.find? (fun x => x.seq == r.seq) with
        | some x => some x.tag
        | none => (c.descs.find? (fun x => x.seq == r.seq)).bind (·.tag)
    match tag with
    | none => s
    | some t =>
      if r.outcome = 1 then s.tagError d t r.status
      else if t.quad then s
      else s.modOp t.op (fun o => { o with deferred := true, expect := if o.matched then o.expect else max o.expect 1 })

/-- Take the records that continue the order. -/
def State.drainRecords (d : Die) (i : Nat) : Nat → State → State
  | 0, s => s
  | n + 1, s =>
    match s.ctx? d i with
    | none => s
    | some c =>
      match c.early.find? (fun r => r.ordinal == c.gotNext) with
      | none => s
      | some r =>
        let s := s.modCtx d i (fun c =>
          { c with early := c.early.filter (fun x => x.ordinal != r.ordinal), gotNext := (c.gotNext + 1) % 65536, gotAny := true })
        State.drainRecords d i n (s.applyRecord d i r)

def parseRecord (b : List Byte) (now : Nat) : OutRec :=
  let w := leNat (b.take 8)
  { seq := bitsOf w 0 32, ordinal := bitsOf w 32 16, status := bitsOf w 48 8, outcome := bitsOf w 56 3, sentAt := now }

/-- Take the record unit of a TRU_ACK. -/
def State.takeRecords (s : State) (d : Die) (i n : Nat) (unit : List Byte) : State :=
  let l := (List.range (min n 8)).map (fun k => parseRecord (unit.drop (8 * k)) s.now)
  let s := s.modCtx d i (fun c =>
    let new := l.filter (fun r => decide ((r.ordinal + 65536 - c.gotNext) % 65536 < 32768) && !c.early.any (fun x => x.ordinal == r.ordinal))
    { c with early := c.early ++ new, echoDue := c.echoDue || decide (0 < n),
             ackAt := if 0 < n ∧ c.ackAt = 0 then s.now + s.rd d TRU.TRU_CFG.ACK_DELAY_NS else c.ackAt })
  State.drainRecords d i 16 s

/-- Every record below an ordinal is held. -/
def recordsTo (c : Ctx) (need : Nat) : Bool := decide ((c.gotNext + 65536 - need) % 65536 < 32768)

/-- Report the packets whose acknowledgement no longer waits for records (R316). -/
def State.drainCovered (s : State) (d : Die) (i : Nat) : State :=
  match s.ctx? d i with
  | none => s
  | some c =>
    let ready := c.covered.filter (fun x => recordsTo c x.need)
    let s := s.modCtx d i (fun c => { c with covered := c.covered.filter (fun x => !recordsTo c x.need) })
    ready.foldl (fun s x => s.tagAcked d x.tag) s

/-- A round-trip sample (R323): exact, truncated to 16 fractional bits. -/
def rttSample (now : Nat) (c : Ctx) (x : Desc) : Ctx :=
  let v : Int := ((now - x.first) * 65536 : Nat)
  let srtt := (c.srtt : Int) + (v - c.srtt) / 8
  let e : Int := if srtt ≤ v then v - srtt else srtt - v
  let var := (c.rttvar : Int) + (e - c.rttvar) / 4
  { c with srtt := srtt.toNat, rttvar := var.toNat,
           rto := min (32000000 * 65536) (max (4000 * 65536) (srtt + 4 * var).toNat) }

/-- The sender's state after packets are acknowledged: samples, progress, and what waits for records. -/
def ackSend (m now next : Nat) (isAcked : Nat → Bool) (cum : Nat) (c : Ctx) : Ctx :=
  let new := (unackedOf c).filter (fun x => isAcked x.seq)
  let c := new.foldl (fun c x => if x.attempts = 1 then rttSample now c x else c) c
  let descs := (c.descs.map (fun x => if isAcked x.seq then { x with shown := true } else x)).filter (fun x => sbefore m cum x.seq)
  let c := { c with
    cumAcked := cum
    descs := descs
    covered := c.covered ++ new.filterMap (fun x => x.tag.map (fun t => { seq := x.seq, tag := t, need := next }))
    due := c.due.filter (fun x => sbefore m cum x.1 && !isAcked x.1) }
  if new.isEmpty then c else { c with backoff := 0, timerAt := 0, budgetAt := 0 }

/-- Run the timer and the budget while packets are unacknowledged. -/
def State.runTimer (s : State) (d : Die) (i : Nat) : State :=
  s.modCtx d i (fun c =>
    if (unackedOf c).isEmpty then { c with timerAt := 0, budgetAt := 0 }
    else { c with timerAt := if c.timerAt = 0 then s.now + s.rtoNs d c else c.timerAt
                  budgetAt := if c.budgetAt = 0 then s.now + 2000000000 else c.budgetAt })

/-- Put retransmissions in the context's list, lowest first, none twice. -/
def addDue (m : Nat) (count : Bool) (l : List Nat) (c : Ctx) : Ctx :=
  let ins := fun (due : List (Nat × Bool)) (q : Nat) =>
    if due.any (fun x => x.1 == q) then due
    else due.takeWhile (fun x => sbefore m x.1 q) ++ (q, count) :: due.dropWhile (fun x => sbefore m x.1 q)
  { c with due := l.foldl ins c.due }

/-- A retransmission waits in the sluice already. -/
def State.againWaits (s : State) (d : Die) (c : Ctx) (q : Nat) : Bool :=
  (s.sluice d).waiting.any (fun w => w.hp == c.hp && w.pkt.dest == c.fea && (match w.again with | some x => x.1 == q | none => false))

/-- Packets that a bitmap shows lost: REORDER_SPAN set bits above them, the last of which names a packet sent later (R324). -/
def fastList (m span base : Nat) (bits : List Nat) (c : Ctx) : List Nat :=
  ((unackedOf c).filter (fun x =>
    let above := bits.filter (fun b => sbefore m x.seq ((base + b) % m))
    match above.drop (span - 1) with
    | [] => false
    | b :: _ => match c.descs.find? (fun y => y.seq == (base + b) % m) with
      | some y => decide (x.ord < y.ord)
      | none => false)).map (·.seq)

/-- The law of R329 on a TRU_ACK. -/
def rateAck (g dec rateMin now counted marked : Nat) (c : Ctx) : Ctx × Bool :=
  let c := if counted = 0 then c
    else { c with alpha := (c.alpha * counted * (2 ^ g - 1) + marked * 65536) / (counted * 2 ^ g) }
  if marked = 0 then (c, false)
  else
    let c := { c with sawMark := true }
    let go := match c.lastDec with | none => true | some t => decide (dec ≤ now - t)
    if go then
      ({ c with target := c.rate, rate := max (rateMin * 65536) (c.rate * (131072 - c.alpha) / 131072), lastDec := some now, stage := 0 }, true)
    else (c, false)

/-- RNR in a TRU_ACK (R326). -/
def State.takeRnr (s : State) (d : Die) (i q : Nat) : State :=
  let s := s.bump d TRU.RNR_RECEIVED.COUNT
  match s.ctx? d i with
  | none => s
  | some c =>
    let sending := c.due.any (fun x => x.1 == q) || s.againWaits d c q
    let s := s.modCtx d i (fun c => { c with budgetAt := s.now + 2000000000 })
    if c.rnrSeq = q ∧ (c.rnrAt ≠ 0 ∨ (c.rnrDelay ≠ 0 ∧ sending)) then s
    else
      let base := us (s.rd d TRU.TRU_TIMERS.RNR_DELAY_US)
      let delay := if c.rnrSeq = q ∧ c.rnrDelay ≠ 0 then min 1000000 (2 * c.rnrDelay) else base
      s.modCtx d i (fun c => { c with rnrSeq := q, rnrDelay := delay, rnrAt := s.now + delay })

/-- Act on a TRU_ACK of a LIVE context. -/
def State.takeAck (s : State) (d : Die) (i : Nat) (c : Ctx) (p : Pkt) : State :=
  let m := s.seqMod d
  let data := p.data
  let flag := fun (b : Nat) => p.opf (96 + b) 1 == 1
  let cum := if sbefore m c.cumAcked (p.opf 0 32 % m) then p.opf 0 32 % m else c.cumAcked
  let base := p.opf 32 32 % m
  let bits := if flag 1 then (List.range 256).filter (fun b => bitOf (leNat (data.take 32)) b) else []
  let next := p.opf 112 16
  let isAcked := fun (q : Nat) => !sbefore m cum q || (decide (sdiff m base q < 256) && bits.contains (sdiff m base q))
  let s := if flag 2 then s.takeRecords d i (p.opf 104 4) (data.drop (if flag 1 then 64 else 0)) else s
  let s := s.modCtx d i (ackSend m s.now next isAcked cum)
  let s := s.modSluice d (fun x => { x with waiting := x.waiting.filter (fun w =>
    !(w.hp == c.hp && w.pkt.dest == c.fea && (match w.again with | some q => isAcked q.1 | none => false))) })
  let s := s.runTimer d i
  let s := s.drainCovered d i
  match s.ctx? d i with
  | none => s
  | some c =>
    let fast := if s.lossy d then
        (fastList m (s.rd d TRU.TRU_CFG.REORDER_SPAN) base bits c).filter (fun q => !c.due.any (fun x => x.1 == q) && !s.againWaits d c q)
      else []
    let s := (s.bumpBy d TRU.FAST_RETRANSMITS.COUNT fast.length).modCtx d i (addDue m true fast)
    let s := if flag 0 ∧ !s.lossy d then s.modCtx d i (fun c => addDue m true ((unackedOf c).map (·.seq)) c) else s
    let s := if flag 3 then s.takeRnr d i (p.opf 128 32 % m) else s
    let (c', dec) := rateAck (s.rd d TRU.CC_CFG.G_SHIFT) (us (s.rd d TRU.CC_CFG.DEC_INTERVAL_US)) (s.rd d TRU.CC_RATES.RATE_MIN_GBPS)
      s.now (p.opf 64 16) (p.opf 80 16) ((s.ctx? d i).getD c)
    let s := (s.when dec (fun s => s.bump d TRU.RATE_DECREASES.COUNT)).modCtx d i (fun _ => c')
    let echo := p.opf 160 16
    s.modCtx d i (fun c => { c with records := c.records.filter (fun r => !decide ((echo + 65536 - r.ordinal) % 65536 < 32768)) })

/-- TRU_ACK (R314, R316). -/
def execTruAck (d : Die) (s : State) : Host.Outcome State Fault Refusal :=
  .next (s.takeCtl d cTRU_ACK (fun p t =>
    match t.ctlCtx d p with
    | none => some t
    | some _ =>
      match t.touchCtx d p.context with
      | (_, false) => some ((s.touchCtx d p.context).1)
      | (t, true) => match t.ctx? d p.context with
        | some c => if c.st = .live then some (t.takeAck d p.context c p) else some t
        | none => some t))

/-! ## Timers of the send half (R323 to R327) -/

/-- The budget of R327 is exhausted. -/
def State.exhausted (s : State) (c : Ctx) : Bool :=
  let timer := decide (c.timerAt ≠ 0) && decide (c.timerAt ≤ s.now)
  let tries := if c.st = .opening then c.opens else match unackedOf c with | x :: _ => x.attempts | [] => 0
  (timer && decide (64 ≤ tries)) || (decide (c.budgetAt ≠ 0) && decide (c.budgetAt ≤ s.now))

/-- Rate control on a timer expiry (R329). -/
def rateTimeout (rateMin now : Nat) (c : Ctx) : Ctx :=
  { c with target := c.rate, rate := max (rateMin * 65536) (c.rate / 2), lastDec := some now, stage := 0 }

/-- RETRANSMIT_TIMEOUT (R299, R323 to R325, R329). -/
def execRetransmitTimeout (d : Die) (i : Nat) (s : State) : Host.Outcome State Fault Refusal :=
  .next (match s.ctx? d i with
    | none => s
    | some c =>
      if c.timerAt = 0 ∨ s.now < c.timerAt ∨ s.exhausted c then s
      else
        let s := (s.bump d TRU.TIMEOUTS.COUNT).modCtx d i (fun c => { c with backoff := min (c.backoff + 1) 20 })
        if c.st = .opening then s.sendOpen d i
        else
          let m := s.seqMod d
          let l := if s.lossy d then ((unackedOf c).take 16).map (·.seq) else (unackedOf c).map (·.seq)
          ((s.bump d TRU.RATE_DECREASES.COUNT).modCtx d i (fun c =>
            { rateTimeout (s.rd d TRU.CC_RATES.RATE_MIN_GBPS) s.now (addDue m true l c) with timerAt := 0 })).runTimer d i)

/-- RNR_RETRANSMIT (R326): every unacknowledged packet from RNR_SEQ onward. -/
def execRnrRetransmit (d : Die) (i : Nat) (s : State) : Host.Outcome State Fault Refusal :=
  .next (match s.ctx? d i with
    | none => s
    | some c =>
      if c.rnrAt = 0 ∨ s.now < c.rnrAt then s
      else
        let m := s.seqMod d
        let l := ((unackedOf c).filter (fun x => x.seq == c.rnrSeq || sbefore m c.rnrSeq x.seq)).map (·.seq)
        s.modCtx d i (fun c => { addDue m false l c with rnrAt := 0 }))

/-- RETRY_BUDGET_EXHAUSTED (R305, R327). -/
def execRetryBudgetExhausted (d : Die) (i : Nat) (s : State) : Host.Outcome State Fault Refusal :=
  .next (match s.ctx? d i with
    | some c => if c.st ≠ .unreachable ∧ s.exhausted c then (s.bump d TRU.PEER_UNREACHABLE.COUNT).unreachable d i 1 else s
    | none => s)

/-- UNREACH_HOLD_EXPIRY (R301). -/
def execUnreachHoldExpiry (d : Die) (i : Nat) (s : State) : Host.Outcome State Fault Refusal :=
  .next (match s.ctx? d i with
    | some c =>
      if c.st ≠ .unreachable ∨ s.now < c.holdAt then s
      else if s.ctxWaits d c then s.openCtx d i c.hp c.fea
      else s.modTru d (fun t => { t with ctxs := tdel t.ctxs i, dir := t.dir.filter (· != i) })
    | none => s)

/-- The law of R329 at a tick. -/
def rateTick (g fr hai aiR haiR rateMax : Nat) (c : Ctx) : Ctx :=
  if c.sawMark then { c with sawMark := false }
  else
    let stage := c.stage + 1
    let target := if fr + hai < stage then min (rateMax * 65536) (c.target + haiR * 65536)
      else if fr < stage then min (rateMax * 65536) (c.target + aiR * 65536) else c.target
    { c with alpha := c.alpha * (2 ^ g - 1) / 2 ^ g, stage := stage, target := target,
             rate := min (rateMax * 65536) ((c.rate + target) / 2) }

/-- RATE_INCREASE_TICK (R329). -/
def execRateIncreaseTick (d : Die) (s : State) : Host.Outcome State Fault Refusal :=
  .next (if s.now < (s.tru d).tickAt then s
    else
      let f := rateTick (s.rd d TRU.CC_CFG.G_SHIFT) (s.rd d TRU.CC_CFG.FR_STAGES) (s.rd d TRU.CC_CFG.HAI_AFTER)
        (s.rd d TRU.CC_RATES.AI_GBPS) (s.rd d TRU.CC_RATES.HAI_GBPS) (s.rd d TRU.CC_RATES.RATE_MAX_GBPS)
      let active := fun (c : Ctx) => c.cached && (!(unackedOf c).isEmpty || s.ctxWaits d c)
      s.modTru d (fun t => { t with ctxs := t.ctxs.map (fun p => (p.1, if active p.2 then f p.2 else p.2))
                                    tickAt := s.now + us (s.rd d TRU.CC_CFG.INC_INTERVAL_US) }))

/-! ## The context command channel (R334) -/

/-- Begin a context command: the requester needs a warden's rights, and BUSY rejects it. -/
def State.ctxCommand (s : State) (rq : Requester) (d : Die) (op : Nat) (act : State → Except Nat State) : State :=
  if !s.barUp rq then s
  else if !s.privileged rq then s.privViolation rq 0 (d.base + TRU.CTX_CMD.OP.off)
  else if s.on d TRU.CTX_STATUS.BUSY then s.wr d TRU.CTX_STATUS.GO_REJECT 1
  else
    let s := s.wr d TRU.CTX_CMD.OP op
    let fin := fun (s : State) (code detail : Nat) =>
      s.wrs d [(TRU.CTX_STATUS.BUSY, 0), (TRU.CTX_STATUS.DONE, 1), (TRU.CTX_STATUS.CODE, code), (TRU.CTX_STATUS.DETAIL, detail)]
    match act s with
    | .ok s => fin s stOK 0
    | .error e => fin s stFORMAT e

def ctxStNum : CtxSt → Nat
  | .opening => 1
  | .live => 2
  | .unreachable => 3

/-- The results of a query. -/
def State.ctxResult (s : State) (d : Die) (i : Nat) (c : Ctx) : State :=
  s.wrs d [(TRU.CTX_RESULT0.STATE, ctxStNum c.st), (TRU.CTX_RESULT0.VERSION, c.version), (TRU.CTX_RESULT0.CACHED, b2n c.cached),
    (TRU.CTX_RESULT0.LOCAL_INDEX, i), (TRU.CTX_RESULT1.REMOTE_INDEX, c.remote.getD 0),
    (TRU.CTX_RESULT1.OUTSTANDING, (unackedOf c).length), (TRU.CTX_RESULT2.NEXT_SEQ, c.nextSeq), (TRU.CTX_RESULT2.CUM, c.cum),
    (TRU.CTX_RESULT3.RATE_MBPS, c.rate * 1000 / 65536), (TRU.CTX_RESULT3.ALPHA, min c.alpha 65535),
    (TRU.CTX_RESULT3.SRTT_US, min (c.srtt / 65536 / 1000) 65535)]

/-- The context of the pair in CTX_ARG. -/
def State.argPair (s : State) (d : Die) : Option (Nat × Ctx) :=
  let h : Fin 4 := ⟨s.rd d TRU.CTX_ARG.HOST_PORT % 4, Nat.mod_lt _ (by decide)⟩
  if hpDie h ≠ d then none else s.ctxOf d h (s.rd d TRU.CTX_ARG.REMOTE_FEA)

/-- QUERY_PAIR. -/
def execQueryPair (rq : Requester) (d : Die) (s : State) : Host.Outcome State Fault Refusal :=
  .next (s.ctxCommand rq d 1 (fun s => match s.argPair d with
    | some (i, c) => .ok (s.ctxResult d i c)
    | none => .error 1))

/-- QUERY_INDEX. -/
def execQueryIndex (rq : Requester) (d : Die) (s : State) : Host.Outcome State Fault Refusal :=
  .next (s.ctxCommand rq d 2 (fun s => match s.ctx? d (s.rd d TRU.CTX_ARG.INDEX) with
    | some c => .ok (s.ctxResult d (s.rd d TRU.CTX_ARG.INDEX) c)
    | none => .error 1))

/-- ABORT: the pair's context ends under R303 in any state. -/
def execAbort (rq : Requester) (d : Die) (s : State) : Host.Outcome State Fault Refusal :=
  .next (s.ctxCommand rq d 3 (fun s => match s.argPair d with
    | some (i, _) => .ok (s.abortCtx d i 4)
    | none => .error 1))

end Sys2Proof.Machine
end

