-- ==== Sys2Proof/Machine/Sluice.lean ====
section
/-! DEFINITION. The sluice (13_switch_core.md R436 to R443): admission, weighted fair queuing, throttling, shapers and
policers, and what the TRU and the stamping checker write into an admitted packet (10_transport.md R311, R330;
12_routing.md R393; 04_polders.md R105). -/

namespace Sys2Proof.Machine

/-! ## Tags (R437) -/

def laneKey (lane ent : Nat) : Nat := lane * 2097152 + ent
def srcKey (lane ent src : Nat) : Nat := laneKey lane ent * 1073741824 + src

def tag0 : Tag := { start := 0, finish := 0, v := 0, backlog := false }

/-- How far a tag lies ahead of V: tags compare modulo 2^64, and one more than 2^62 below V is taken as V. -/
def tagAhead (v t : Nat) : Int :=
  let x : Nat := (t + 2 ^ 64 - v % 2 ^ 64) % 2 ^ 64
  if x < 2 ^ 63 then (x : Int) else if 2 ^ 64 - x ≤ 2 ^ 62 then (x : Int) - 2 ^ 64 else 0

def tagMax (v f : Nat) : Nat := if 0 < tagAhead v f then f else v

/-- Lane and source of a waiting packet. -/
def State.wEnt (s : State) (d : Die) (w : WPkt) : Nat := s.sluiceEnt d w.pkt.polder

/-- A waiting packet's source becomes backlogged in its lane; 16,384 sources are tracked (R437, R438). -/
def State.backlog (s : State) (d : Die) (w : WPkt) : State :=
  let x := s.sluice d
  let lane := w.pkt.vn
  let e := s.wEnt d w
  let st := (tget x.stags (srcKey lane e w.source)).getD tag0
  if st.backlog then s
  else if 16384 ≤ (x.stags.filter (fun p => p.2.backlog)).length then s
  else
    let pt := (tget x.ptags (laneKey lane e)).getD tag0
    let v := (tget x.v lane).getD 0
    let pt := if pt.backlog then pt else { pt with start := tagMax v pt.finish, backlog := true }
    s.modSluice d (fun x =>
      { x with ptags := tput x.ptags (laneKey lane e) pt
               stags := tput x.stags (srcKey lane e w.source) { st with start := tagMax pt.v st.finish, backlog := true } })

/-- A source or a polder without a waiting packet is not backlogged. -/
def State.unbacklog (s : State) (d : Die) : State :=
  let x := s.sluice d
  let has := fun (k : Nat) => x.waiting.any (fun w => srcKey w.pkt.vn (s.wEnt d w) w.source == k)
  let hasP := fun (k : Nat) => x.waiting.any (fun w => laneKey w.pkt.vn (s.wEnt d w) == k)
  s.modSluice d (fun x =>
    { x with stags := x.stags.map (fun p => (p.1, { p.2 with backlog := p.2.backlog && has p.1 }))
             ptags := x.ptags.map (fun p => (p.1, { p.2 with backlog := p.2.backlog && hasP p.1 })) })

/-- Bring the backlog of every lane up to date. -/
def State.syncLanes (s : State) (d : Die) : State :=
  let s := s.unbacklog d
  (s.sluice d).waiting.foldl (fun s w => s.backlog d w) s

/-! ## What happens to waiting packets before a choice is made -/

/-- Take a packet out of the sluice. -/
def State.unwait (s : State) (d : Die) (w : WPkt) : State :=
  (s.refreshMeter d (s.wEnt d w)).modSluice d (fun x => { x with waiting := x.waiting.filter (fun y => y.id != w.id) })

/-- Test 1 of R436 fails: the packet is dropped before it has a sequence number (04_polders.md R106, R114). What LAST_DROP.SRC_FEA then
shows R120 does not say; the model writes the packet's source (log entry 166). -/
def State.dropClosed (s : State) (d : Die) (w : WPkt) : State :=
  let s := (s.unwait d w).bump d DIKE.INJ_CLOSED_DROPS.COUNT
  let s := s.wrs d [(DIKE.LAST_DROP.POLDER, w.pkt.polder), (DIKE.LAST_DROP.REASON, 2), (DIKE.LAST_DROP.SRC_FEA, s.myFea d w.hp.val)]
  match w.tag with
  | some t => if t.quad then s.quadRejected d t stCLOSED else (s.tagError d t stCLOSED).opAcked t
  | none => s

/-- Its pair cannot be reached: the packet's operation completes with PEER_UNREACHABLE (10_transport.md R302, R305). -/
def State.failWaiting (s : State) (d : Die) (w : WPkt) : State :=
  let s := s.unwait d w
  match w.tag with
  | some t => if t.quad then s.quadRejected d t stUNREACHABLE else s.opAbort t.op stUNREACHABLE
  | none => s

/-- A waiting packet's context: opened, reloaded, or found unreachable (10_transport.md R299, R302, R305, R306). -/
def State.ensureCtx (s : State) (d : Die) (w : WPkt) : State :=
  if !(s.sluice d).waiting.any (fun y => y.id == w.id) then s
  else match s.ctxOf d w.hp w.pkt.dest with
    | some (i, c) =>
      let s := s.useDir d i
      if c.st = .unreachable then s.failWaiting d w
      else if c.cached then s else (s.touchCtx d i).1
    | none =>
      if !s.on d (HDR.CTRL.ENABLE 0x1000000) then s
      else match s.freeCtx d with
        | none => s.failWaiting d w
        | some i => match s.makeRoom d with
          | (s, true) => s.openCtx d i w.hp w.pkt.dest
          | (s, false) => s

/-- A packet's source can no longer be read (07_translation.md R216): the fault is recorded, at the initiator with its operation's status. -/
def State.srcFault (s : State) (d : Die) (x : Desc) (reason : Nat) : State :=
  match x.src with
  | .region key off _ =>
    let s := s.xFault d x.tag.isNone x.pkt.polder key off reason
    (match x.tag with | some t => s.tagError d t (faultStatus false reason) | none => s)
  | _ => s

/-- Rebuild the retransmissions that are due (10_transport.md R322): they wait in the sluice ahead of new packets, lowest
number first. A source that is gone gives zeros, sent as poisoned. -/
def State.rebuild (d : Die) (i : Nat) : List (Nat × Bool) → State → State
  | [], s => s
  | (q, count) :: l, s =>
    let next := match s.ctx? d i with
      | none => s
      | some c =>
        let drop := fun (s : State) => s.modCtx d i (fun c => { c with due := c.due.filter (fun x => x.1 != q) })
        match (unackedOf c).find? (fun x => x.seq == q) with
        | none => drop s
        | some x =>
          let id := s.nextPkt
          let put := fun (s : State) (p : Pkt) (ready : Bool) =>
            let w : WPkt := { id := id, pkt := p, src := x.src, hp := c.hp, source := x.source, tag := x.tag, ready := ready,
                              flag := false, again := some (q, count) }
            let before := fun (y : WPkt) => match y.again with
              | some a => !(y.hp == c.hp && y.pkt.dest == c.fea) || sbefore (s.seqMod d) a.1 q
              | none => false
            (drop { s with nextPkt := id + 1 }).modSluice d (fun z =>
              { z with waiting := z.waiting.takeWhile before ++ w :: z.waiting.dropWhile before })
          match s.readSrc d .packet id x.src with
          | (s, .data b poison) => put s (setData x.pkt b poison) true
          | (s, .pending) => put s (setData x.pkt (List.replicate (srcLen x.src) 0) false) false
          | (s, .wait) => s
          | (s, .fault k) => put (s.srcFault d x k) (setData x.pkt (List.replicate (srcLen x.src) 0) true) true
    State.rebuild d i l next

/-- Test 2 of R436. -/
def State.injectOpen (s : State) (d : Die) : Bool :=
  !s.on d RTB.INJECT_HOLD.HOLD && s.on d (HDR.CTRL.ENABLE 0x2000000)

/-- Prepare the sluice for a choice. -/
def State.sluicePrep (s : State) (d : Die) : State :=
  let closed := (s.sluice d).waiting.filter (fun w => w.again.isNone && !s.polderOpen d w.pkt.polder)
  let s := closed.foldl (fun s w => s.dropClosed d w) s
  let s := (s.tru d).ctxs.foldl (fun s p => State.rebuild d p.1 p.2.due s) s
  let s := if s.injectOpen d then (s.sluice d).waiting.foldl (fun s w => s.ensureCtx d w) s else s
  s.syncLanes d

/-! ## Order within a queue (10_transport.md R311; 09_remote_access.md R285) -/

/-- An operation still has packets, ordered ones only or any, that have no sequence number. -/
def State.unsent (s : State) (d : Die) (i : Nat) (ordered : Bool) : Bool :=
  (s.sluice d).waiting.any (fun w => w.again.isNone && (!ordered || w.pkt.ordered) &&
    (match w.tag with | some t => t.op == i && !t.quad | none => false)) ||
  match s.op i with
  | some o => o.stage == .started || (o.stage == .running && o.force.isNone && decide (o.chunks < opChunks o) &&
      (!ordered || eOpcode o.entry == opPUT_NOTIFY))
  | none => false

/-- A packet waits for earlier entries of its queue to the same endpoint: the first packet of a flagged operation for all
their packets, an ordered packet for their ordered ones. -/
def State.heldBack (s : State) (d : Die) (w : WPkt) : Bool :=
  match w.again, w.tag with
  | none, some t =>
    if t.quad ∨ !(w.flag || w.pkt.ordered) then false
    else match s.op t.op with
      | none => false
      | some o =>
        let earlier := (s.opsOf o.q).takeWhile (· != t.op)
        earlier.any (fun j => match s.op j with
          | some p => (isRma (eOpcode p.entry) || eOpcode p.entry == opTSEND) && eDest p.entry == w.pkt.dest && s.unsent d j (!w.flag)
          | none => false)
  | _, _ => false

/-! ## Tests 3 to 6 of R436 -/

/-- A context's pacing credit at present: bits times 2^16, a burst of at most 16 KiB (10_transport.md R330). -/
def paceNow (now : Nat) (c : Ctx) : Nat := min (131072 * 65536) (c.credit + c.rate * (now - c.creditAt))

/-- Test 3. -/
def State.pacePass (s : State) (d : Die) (w : WPkt) : Bool :=
  match s.ctxOf d w.hp w.pkt.dest with
  | none => false
  | some (_, c) =>
    let m := s.seqMod d
    let credit := decide (pktBytes w.pkt * 8 * 65536 ≤ paceNow s.now c)
    let lower := fun (y : WPkt) => y.id != w.id && y.hp == w.hp && y.pkt.dest == w.pkt.dest &&
      (match y.again, w.again with
       | some a, some b => sbefore m a.1 b.1
       | some _, none => true
       | none, _ => false)
    c.st == .live && c.cached && credit && !(s.sluice d).waiting.any lower &&
    match w.again with
    | some (q, _) => !c.due.any (fun x => sbefore m x.1 q)
    | none => c.due.isEmpty && decide (sdiff m c.cumAcked c.nextSeq ≤ s.window d) && s.on d (HDR.CTRL.ENABLE 0x1000000) &&
        decide (((s.tru d).ctxs.map (fun p => (unackedOf p.2).length)).sum < 262144)

/-- Test 4: the shaper's credit is at least 0, or the shaper is disabled (R441). -/
def State.shapePass (s : State) (d : Die) (e : Nat) : Bool :=
  let s := s.refreshMeter d e
  s.rd d (SL.SHAPE_RATE.MBPS e) == 0 || decide (0 ≤ ((tget (s.sluice d).meters e).getD meter0).credit)

/-- Bytes that a throttled lane admits in one µs: THROTTLE_RATE_PCT of 7,168 Gb/s (R439). -/
def State.throttleBytes (s : State) (d : Die) : Nat := 8960 * min 100 (max 1 (s.rd d SWC.SLUICE_CFG.THROTTLE_RATE_PCT))

/-- Test 5. -/
def State.throttlePass (s : State) (d : Die) (p : Pkt) : Bool :=
  let x := s.sluice d
  let used := fun (n : Nat) => if x.throttleAt = s.now / 1000 then n else 0
  if p.vn = vREQ then !x.throttledReq || decide (used x.throttleReq + pktBytes p ≤ s.throttleBytes d)
  else if p.vn = vCOL then !x.throttledCol || decide (used x.throttleCol + pktBytes p ≤ s.throttleBytes d)
  else true

/-- FLOW_HASH (12_routing.md R393): of the host port and the destination, and for an unordered packet its number. -/
def State.flowHashOf (s : State) (d : Die) (hp dest : Nat) (ordered : Bool) (seq : Nat) : Nat :=
  Config.flowHash ((((s.die d).rtb.flowKey * 4 + hp) * 2 ^ 24 + dest) * 2 ^ 34 + if ordered then 0 else 2 * seq + 1) % 65536

/-- The sequence number that a packet has or takes. -/
def State.wSeq (s : State) (d : Die) (w : WPkt) : Nat :=
  match w.again with
  | some (q, _) => q
  | none => match s.ctxOf d w.hp w.pkt.dest with | some (_, c) => c.nextSeq | none => 0

/-- Tests 2 to 6 of R436, and the data of the packet are there. -/
def State.passes (s : State) (d : Die) (w : WPkt) : Bool :=
  s.injectOpen d && w.ready && s.pacePass d w && s.shapePass d (s.wEnt d w) && s.throttlePass d w.pkt &&
  s.injRoom d (s.flowHashOf d w.hp.val w.pkt.dest w.pkt.ordered (s.wSeq d w)) w.pkt

/-! ## The choice (R437, R438) -/

/-- Packets of one source in a lane that it may offer, in the order it offers them. -/
def State.sourceList (s : State) (d : Die) (lane ent src : Nat) : List WPkt :=
  (s.sluice d).waiting.filter (fun w => w.pkt.vn == lane && s.wEnt d w == ent && w.source == src && !s.heldBack d w)

/-- The oldest packet of each of the first contexts of a list. -/
def offers : List WPkt → List (Nat × Nat) → Nat → List WPkt
  | [], _, _ => []
  | _, _, 0 => []
  | w :: l, seen, n + 1 =>
    if seen.contains (w.hp.val, w.pkt.dest) then offers l seen (n + 1)
    else w :: offers l ((w.hp.val, w.pkt.dest) :: seen) n

/-- The packet that a source would have admitted. -/
def State.sourcePick (s : State) (d : Die) (lane ent src : Nat) : Option WPkt :=
  (offers (s.sourceList d lane ent src) [] 4).find? (fun w => s.passes d w)

/-- The entry of least start tag; ties go to the lower number. -/
def leastTag (v : Nat) : List (Nat × Nat) → Option Nat
  | [] => none
  | (n, t) :: l =>
    match leastTag v l with
    | none => some n
    | some k => match l.find? (fun p => p.1 == k) with
      | some (_, u) => if tagAhead v u < tagAhead v t ∨ (tagAhead v u = tagAhead v t ∧ k < n) then some k else some n
      | none => some n

/-- Backlogged sources of a polder in a lane, with their start tags, of which a packet passes. -/
def State.sourceTags (s : State) (d : Die) (lane ent : Nat) : List (Nat × Nat) :=
  ((s.sluice d).stags.filter (fun p => p.2.backlog && p.1 / 1073741824 == laneKey lane ent &&
    (s.sourcePick d lane ent (p.1 % 1073741824)).isSome)).map (fun p => (p.1 % 1073741824, p.2.start))

/-- Weighted fair queuing: the polder of least start tag, then its source of least start tag. -/
def State.wfqPick (s : State) (d : Die) (lane : Nat) : Option WPkt :=
  let x := s.sluice d
  let v := (tget x.v lane).getD 0
  let polders := (x.ptags.filter (fun p => p.2.backlog && p.1 / 2097152 == lane &&
    !(s.sourceTags d lane (p.1 % 2097152)).isEmpty)).map (fun p => (p.1 % 2097152, p.2.start))
  match leastTag v polders with
  | none => none
  | some e =>
    let pv := ((tget x.ptags (laneKey lane e)).getD tag0).v
    match leastTag pv (s.sourceTags d lane e) with
    | none => none
    | some src => s.sourcePick d lane e src

/-- Tags after an admission (R437). -/
def State.wfqAdmit (s : State) (d : Die) (w : WPkt) : State :=
  let x := s.sluice d
  let lane := w.pkt.vn
  let e := s.wEnt d w
  let n := pktBytes w.pkt
  let weight := max 1 (s.rd d (SL.SL_WEIGHT.WEIGHT e))
  let pt := (tget x.ptags (laneKey lane e)).getD tag0
  let st := (tget x.stags (srcKey lane e w.source)).getD tag0
  let rest := x.waiting.filter (fun y => y.id != w.id && y.pkt.vn == lane && s.wEnt d y == e)
  let pf := (pt.start + ceilDiv (n * 256) weight) % 2 ^ 64
  let sf := (st.start + n) % 2 ^ 64
  let pb := !rest.isEmpty
  let sb := rest.any (fun y => y.source == w.source)
  s.modSluice d (fun x =>
    { x with v := tput x.v lane pt.start
             ptags := tput x.ptags (laneKey lane e)
               { start := if pb then pf else pt.start, finish := pf, v := st.start, backlog := pb }
             stags := tput x.stags (srcKey lane e w.source)
               { start := if sb then sf else st.start, finish := sf, v := 0, backlog := sb } })

/-! ## Shaper and policer (R441, R442) -/

/-- Charge the shaper. -/
def State.shapeCharge (s : State) (d : Die) (e n : Nat) : State :=
  if s.rd d (SL.SHAPE_RATE.MBPS e) = 0 then s
  else (s.refreshMeter d e).modSluice d (fun x =>
    { x with meters := tmod x.meters e (fun m => { m with credit := m.credit - (n * 8000 : Nat) }) })

/-- Colour a packet: 0 green, 1 yellow, 2 red. -/
def State.police (s : State) (d : Die) (e n : Nat) : State × Nat :=
  if !s.on d (SL.POLICE_CIR.ENABLE e) then (s, 0)
  else
    let m := (tget (s.sluice d).meters e).getD meter0
    let cir := s.rd d (SL.POLICE_CIR.MBPS e)
    let pir := max cir (s.rd d (SL.POLICE_PIR.MBPS e))
    let cap := fun (f : Fld) => max 4160 (s.rd d f) * 8000
    let tc := min (cap (SL.POLICE_CBS.BYTES e)) (m.tc + cir * (s.now - m.policeAt))
    let tp := min (cap (SL.POLICE_PBS.BYTES e)) (m.tp + pir * (s.now - m.policeAt))
    let need := n * 8000
    let (tc, tp, colour) := if tp < need then (tc, tp, 2) else if tc < need then (tc, tp - need, 1) else (tc - need, tp - need, 0)
    (s.modSluice d (fun x => { x with meters := tput x.meters e { m with tc := tc, tp := tp, policeAt := s.now } }), colour)

/-! ## Admission -/

/-- The TRU's record of a packet that it numbers or sends again (10_transport.md R311, R322, R326). -/
def State.sentSeq (s : State) (d : Die) (i : Nat) (w : WPkt) (p : Pkt) : State :=
  let bits := pktBytes p * 8 * 65536
  let s := s.modCtx d i (fun c => { c with credit := paceNow s.now c - bits, creditAt := s.now, dirty := true, lastUse := s.now })
  match w.again with
  | some (q, count) =>
    let s := ((s.bump d TRU.RETRANSMITS.COUNT).event d 10 none).modCtx d i (fun c =>
      { c with txOrd := c.txOrd + 1
               descs := c.descs.map (fun x => if x.seq = q then
                 { x with last := s.now, ord := c.txOrd, pkt := p, attempts := if count then x.attempts + 1 else x.attempts } else x) })
    s.runTimer d i
  | none =>
    let s := s.modCtx d i (fun c =>
      { c with nextSeq := (c.nextSeq + 1) % s.seqMod d
               txOrd := c.txOrd + 1
               descs := c.descs ++ [{ seq := p.seq, pkt := p, src := w.src, source := w.source, tag := w.tag, first := s.now,
                                      last := s.now, ord := c.txOrd, attempts := 1, shown := false }] })
    let s := match w.tag with
      | some t => if t.quad then s else s.modOp t.op (fun o => { o with sent := true })
      | none => s
    s.runTimer d i

/-- Count an admission (R445; 18_counters.md R547). -/
def State.countAdmit (s : State) (d : Die) (p : Pkt) : State :=
  ((s.bump d SWC.ADMITTED.COUNT).polderCount d p.polder 0 1).polderCount d p.polder 1 (pktBytes p)

/-- Count a throttled lane's bytes of the current µs. -/
def State.throttleCount (s : State) (d : Die) (p : Pkt) : State :=
  s.modSluice d (fun x =>
    let fresh := x.throttleAt != s.now / 1000
    let add := fun (n vn : Nat) => (if fresh then 0 else n) + (if p.vn = vn then pktBytes p else 0)
    { x with throttleAt := s.now / 1000, throttleReq := add x.throttleReq vREQ, throttleCol := add x.throttleCol vCOL })

/-- Admit a sequenced packet: colour, SEQ and CONTEXT, FLOW_HASH, the stamp, HDR_CRC; it enters the injection buffer. -/
def State.admitPkt (s : State) (d : Die) (w : WPkt) : State :=
  match s.ctxOf d w.hp w.pkt.dest with
  | none => s
  | some (i, c) =>
    let e := s.wEnt d w
    let seq := s.wSeq d w
    let hash := s.flowHashOf d w.hp.val w.pkt.dest w.pkt.ordered seq
    let s := s.wfqAdmit d w
    let s := s.shapeCharge d e (pktBytes w.pkt)
    let (s, colour) := s.police d e (pktBytes w.pkt)
    let s := s.throttleCount d w.pkt
    let p := { w.pkt with version := c.version, colour := colour, context := c.remote.getD 0, seq := seq, hash := hash,
                          src := if w.again.isSome then w.pkt.src else s.myFea d w.hp.val }
    let p := { p with crc := hdrCrc p }
    let s := s.sentSeq d i w p
    let s := s.unwait d w
    -- A retransmission of an ordered packet begins a flowlet (12_routing.md R394).
    let restart := fun (f : Flow) => { f with port := none, seen := 0 }
    let s := s.when (w.again.isSome && p.ordered) (fun s => s.modDie d (fun x =>
      { x with rtb := { x.rtb with flows := tmod x.rtb.flows hash restart } }))
    (s.countAdmit d p).when (!s.staleCheck d 8) (fun s => s.injectAt d p)

/-- Admit the oldest TRU control or MGT packet, green and unsequenced, when the injection buffer takes it (R436). -/
def State.admitCtl (s : State) (d : Die) : Option State :=
  match (s.sluice d).ctl with
  | [] => none
  | p :: l =>
    let hash := s.flowHashOf d (feaEnd p.src % 4) p.dest p.ordered 0
    if !s.injRoom d hash p then none
    else
      let p := { p with hash := hash, polder := 0, colour := 0 }
      let p := { p with crc := hdrCrc p }
      let s := s.modSluice d (fun x => { x with ctl := l })
      some ((s.countAdmit d p).injectAt d p)

/-- SLUICE_ADMIT (R436, R437): one packet is admitted, a TRU control or MGT packet first, else one of the lane. -/
def execSluiceAdmit (d : Die) (lane : Fin 3) (s : State) : Host.Outcome State Fault Refusal :=
  .next (match s.admitCtl d with
    | some t => t
    | none =>
      let s := ((s.sluicePrep d).throttleSync d vREQ).throttleSync d vCOL
      match s.wfqPick d lane.val with
      | some w => s.admitPkt d w
      | none => s)

/-! ## Writes of a sluice entry (R443, R446) -/

/-- Write register `reg` of sluice entry e, counted in 8-byte steps from its base: the shaper's registers clear its credit,
the policer's fill its buckets. -/
def State.slWrite (s : State) (d : Die) (e reg v : Nat) : State :=
  let s := match reg with
    | 0 => s.wr d (SL.SL_WEIGHT.WEIGHT e) (bitsOf v 0 8)
    | 1 => s.wr d (SL.SHAPE_RATE.MBPS e) (bitsOf v 0 23)
    | 2 => s.wr d (SL.SHAPE_BURST.BYTES e) (bitsOf v 0 24)
    | 3 => s.wrs d [(SL.POLICE_CIR.MBPS e, bitsOf v 0 23), (SL.POLICE_CIR.ENABLE e, bitsOf v 31 1)]
    | 4 => s.wr d (SL.POLICE_CBS.BYTES e) (bitsOf v 0 24)
    | 5 => s.wr d (SL.POLICE_PIR.MBPS e) (bitsOf v 0 23)
    | 6 => s.wr d (SL.POLICE_PBS.BYTES e) (bitsOf v 0 24)
    | _ => s
  let m := (tget (s.sluice d).meters e).getD meter0
  if reg = 1 ∨ reg = 2 then
    s.modSluice d (fun x => { x with meters := tput x.meters e { m with credit := 0, creditAt := s.now } })
  else if 3 ≤ reg ∧ reg ≤ 6 then
    let cap := fun (f : Fld) => max 4160 (s.rd d f) * 8000
    let m := { m with tc := cap (SL.POLICE_CBS.BYTES e), tp := cap (SL.POLICE_PBS.BYTES e), policeAt := s.now }
    s.modSluice d (fun x => { x with meters := tput x.meters e m })
  else s

/-- Entries that exist: polder 0's, and one for each entry of the die's polder table. -/
def State.slExists (s : State) (d : Die) (e : Nat) : Bool := decide (e ≤ s.rd d DIKE.PT_CAPACITY.ENTRIES)

/-- Offset of a sluice entry in the die window. -/
def slOffset (e : Nat) : Nat := (SL.SL_WEIGHT.WEIGHT e).off

/-- SLUICE_ENTRY_WRITE (R443): entry 0 is polder 0's, entry k + 1 that of polder-table entry k. -/
def execSluiceEntryWrite (rq : Requester) (d : Die) (e : Fin 4097) (reg : Fin 7) (v : W64) (s : State) :
    Host.Outcome State Fault Refusal :=
  .next (if !s.barUp rq then s else if !s.privileged rq then s.privViolation rq 0 (d.base + slOffset e.val + 8 * reg.val)
    else if !s.slExists d e.val then s
    else s.slWrite d e.val reg.val v.toNat)

end Sys2Proof.Machine
end

