-- ==== Sys2Proof/Machine/Routing.lean ====
section
/-! DEFINITION. Routing (12_routing.md): the route tables and their commands, group status, the choice of the next hop and
the adaptive decision at the source, flowlets, seeds and the imbalance monitor. -/

namespace Sys2Proof.Machine

def State.rtb (s : State) (d : Die) : Rtb := (s.die d).rtb
def State.modRtb (s : State) (d : Die) (f : Rtb → Rtb) : State := s.modDie d (fun x => { x with rtb := f x.rtb })

/-! ## Table entries (R380) -/

def gValid (e : Nat) : Bool := bitOf e 0
def gSelf (e : Nat) : Bool := bitOf e 1
def gNmOnly (e : Nat) : Bool := bitOf e 2
def gCount (e : Nat) : Nat := bitsOf e 3 3
/-- Exits of a group entry: router and slot. -/
def gExits (e : Nat) : List (Nat × Nat) :=
  (List.range (min 4 (gCount e))).map (fun k => (bitsOf e (8 + 10 * k) 5, bitsOf e (13 + 10 * k) 5))

def lPrimary (e : Nat) : Option Nat := if bitOf e 7 then some (bitsOf e 0 7) else none
def lAlt (e : Nat) : Option Nat := if bitOf e 15 then some (bitsOf e 8 7) else none
def slotNp (e : Nat) : Option Nat := if bitOf e 7 then some (bitsOf e 0 7) else none

def State.groupEntry (s : State) (d : Die) (v g : Nat) : Nat := if g < 4096 then s.rd d (RTB.GROUP v g) else 0
def State.localEntry (s : State) (d : Die) (v r : Nat) : Nat := if r < 32 then s.rd d (RTB.LOCAL v r) else 0
def State.slotEntry (s : State) (d : Die) (v k : Nat) : Nat := if k < 32 then s.rd d (RTB.SLOT v k) else 0

def State.verValid (s : State) (d : Die) (v : Nat) : Bool :=
  if v = 0 then s.on d RTB.EPOCH.STATE0 else s.on d RTB.EPOCH.STATE1

def State.myGroup (s : State) (d : Die) : Nat := s.rd d RTB.MY_FEA.GROUP
def State.myRouter (s : State) (d : Die) : Nat := s.rd d RTB.MY_FEA.ROUTER

/-- Flow-of-control facts that a router holds while it routes one packet: its die, and the packet's version. -/
structure RCtx where
  d : Die
  v : Nat
  ordered : Bool
  deriving DecidableEq, Repr

/-! ## Liveness and pressure of links (R384, R385, R404) -/

/-- A port of the device can be used from a die: it is live, and on that die or across a bridge that carries traffic. -/
def State.npUsable (s : State) (d : Die) (np : Nat) : Bool :=
  let (e, i) := s.portOf np
  s.portLive e i && (e == d || !s.on d RTB.SPLIT.SPLIT)

def State.npPressure (s : State) (np : Nat) : Nat := let (e, i) := s.portOf np; s.pressure e i

/-- Nanoseconds after which a peer is stale. -/
def State.staleNs (s : State) (d : Die) : Nat :=
  max 2 (s.rd d RTB.GS_CFG.STALE_PERIODS) * min 10000 (max 250 (s.rd d RTB.GS_CFG.PERIOD_NS))

def State.peerFresh (s : State) (d : Die) (p : PeerStatus) : Bool := decide (s.now - p.at_ ≤ s.staleNs d)

/-- The statuses of a router of the group: one, or its two halves. A stale one is none. -/
def State.views (s : State) (d : Die) (r : Nat) : List (Nat × Option PeerStatus) :=
  let get := fun (k : Nat) => (tget (s.rtb d).peers k).bind (fun p => if s.peerFresh d p then some p else none)
  match get (2 * r), get (2 * r + 1) with
  | some p, b => if p.half = 0 then [(0, some p)] else [(1, some p), (2, b)]
  | none, some b => [(1, none), (2, some b)]
  | none, none => [(0, none)]

/-- The half of router r that holds a slot: 0 while it is not split. -/
def State.slotHalf (s : State) (d : Die) (r k : Nat) : Nat :=
  match (s.views d r).find? (fun p => match p.2 with | some q => bitOf q.globalLive k | none => false) with
  | some p => p.1
  | none => 0

/-- An exit is live (R386). -/
def State.exitLive (s : State) (c : RCtx) (e : Nat × Nat) : Bool :=
  if e.1 = s.myRouter c.d then
    match slotNp (s.slotEntry c.d c.v e.2) with
    | some np => s.npUsable c.d np
    | none => false
  else (s.views c.d e.1).any (fun p => match p.2 with | some q => bitOf q.globalLive e.2 | none => true)

/-- link_live(k, r): what k's status says; a stale peer's links are taken as live. -/
def State.linkLive (s : State) (c : RCtx) (k r : Nat) : Bool :=
  (s.views c.d k).any (fun p => match p.2 with | some q => bitOf q.localLive r | none => true)

/-- Pressure that router k advertises for its link to r, or for its slot. -/
def State.peerLocalP (s : State) (c : RCtx) (k r : Nat) : Nat :=
  match (s.views c.d k).filterMap (fun p => p.2.map (fun q => q.localP.getD r 0)) with
  | [] => 63
  | x :: l => l.foldl min x

def State.peerGlobalP (s : State) (c : RCtx) (k slot : Nat) : Nat :=
  match (s.views c.d k).filterMap (fun p => p.2.map (fun q => q.globalP.getD slot 0)) with
  | [] => 63
  | x :: l => l.foldl max x

/-- The die of the partner on which a port's link lands: 1 die A, 2 die B. -/
def State.landsOn (s : State) (np : Nat) : Nat :=
  let (e, i) := s.portOf np
  if s.rd e (LLU.PARTNER.NP i) < s.portsPerDie then 1 else 2

/-- Live direct links toward router r, the primary first; toward one half of a split router only those landing on it. -/
def State.directLinks (s : State) (c : RCtx) (r half : Nat) : List Nat :=
  let e := s.localEntry c.d c.v r
  ((lPrimary e).toList ++ (lAlt e).toList).filter (fun np => s.npUsable c.d np && (half == 0 || s.landsOn np == half))

/-- The direct port toward router r (R388). -/
def State.directPort (s : State) (c : RCtx) (r half : Nat) : Option Nat :=
  match s.directLinks c r half with
  | [] => none
  | [np] => some np
  | a :: b :: _ => if !c.ordered && decide (s.npPressure b < s.npPressure a) then some b else some a

/-- Routers through which router r may be reached by a detour. -/
def State.detourRouters (s : State) (c : RCtx) (r : Nat) : List Nat :=
  (List.range 32).filter (fun k => k != r && k != s.myRouter c.d && decide (r < 32) && (s.directPort c k 0).isSome && s.linkLive c k r)

/-- Cost of a detour through k to r. -/
def State.detourCost (s : State) (c : RCtx) (k r : Nat) : Nat :=
  (match s.directPort c k 0 with | some np => s.npPressure np | none => 63) + s.peerLocalP c k r

def minNat : List Nat → Option Nat
  | [] => none
  | x :: l => some (l.foldl min x)

/-- Cost of the path on which this router reaches an exit; none when it reaches it on none (R396). -/
def State.exitCost (s : State) (c : RCtx) (e : Nat × Nat) : Option Nat :=
  if e.1 = s.myRouter c.d then (slotNp (s.slotEntry c.d c.v e.2)).map s.npPressure
  else
    let g := s.peerGlobalP c e.1 e.2
    match s.directPort c e.1 (s.slotHalf c.d e.1 e.2) with
    | some np => some (s.npPressure np + g)
    | none => (minNat ((s.detourRouters c e.1).map (fun k => s.detourCost c k e.1))).map (· + g)

/-! ## Choice among equal options (R396) -/

/-- The current seed selector, and a seed. -/
def State.seedCur (s : State) (d : Die) : Bool := s.on d RTB.SEED.CUR
def State.seedOf (s : State) (d : Die) (sel : Bool) : Nat := if sel then (s.rtb d).seed1 else (s.rtb d).seed0

/-- Choose among options with their costs: an ordered packet by the seeded hash, another by the least cost, ties at random. -/
def State.choose {α : Type} (s : State) (d : Die) (p : Pkt) (l : List (α × Nat)) : State × Option α :=
  match l with
  | [] => (s, none)
  | a :: r =>
    if p.ordered then
      let sel := match tget (s.rtb d).flows p.hash with | some f => f.sel | none => s.seedCur d
      (s, ((a :: r)[Config.routeHash (s.seedOf d sel) p.hash % (r.length + 1)]?).map (·.1))
    else
      let low := r.foldl (fun m x => min m x.2) a.2
      match (a :: r).filter (fun x => x.2 == low) with
      | [] => (s, none)
      | [x] => (s, some x.1)
      | t => let (s, k) := s.drawNat; (s, (t[k % t.length]?).map (·.1))

/-! ## Positions (R377, R378, R386) -/

def nextLocal (c : Nat) : Option Nat := if c < 1 then some 1 else if c < 3 then some 3 else if c < 5 then some 5 else none
def nextGlobal (c : Nat) : Option Nat := if c < 2 then some 2 else if c < 4 then some 4 else none

/-- Hop types (true: global) can be given positions that rise above q. -/
def fits : Nat → List Bool → Bool
  | _, [] => true
  | q, g :: l => match (if g then nextGlobal q else nextLocal q) with
    | some n => fits n l
    | none => false

/-- The VC of a position. -/
def posVc (q : Nat) : Nat := if q ≤ 2 then 0 else if q ≤ 4 then 1 else 2

/-- What routing answers: ejection, a discard with its LAST_DROP reason, or a hop on a port at a position. -/
inductive Route where
  | eject
  | discard (reason : Nat)
  | hop (np pos : Nat)
  deriving DecidableEq, Repr

/-- local_hop of R386. `half` is the half of a split router that the hop has to reach. -/
def State.localHop (s : State) (c : RCtx) (p : Pkt) (r half : Nat) (rest : List Bool) : State × Route :=
  match nextLocal p.hopClass with
  | none => (s, .discard 1)
  | some q =>
    if !fits q rest then (s, .discard 1)
    else match s.directPort c r half with
      | some np => (s, .hop np q)
      | none =>
        if !fits q (false :: rest) then (s, .discard 1)
        else
          let opts := (s.detourRouters c r).map (fun k => (k, s.detourCost c k r))
          match s.choose c.d p opts with
          | (s, none) => (s, .discard 1)
          | (s, some k) => match s.directPort c k 0 with
            | some np => (s.bump c.d RTB.DETOURS.COUNT, .hop np q)
            | none => (s, .discard 1)

/-- global_hop of R386. -/
def State.globalHop (s : State) (c : RCtx) (p : Pkt) (slot : Nat) (rest : List Bool) : State × Route :=
  match nextGlobal p.hopClass, slotNp (s.slotEntry c.d c.v slot) with
  | some q, some np => if fits q rest then (s, .hop np q) else (s, .discard 1)
  | _, _ => (s, .discard 1)

/-- The half of the destination's device that an endpoint lies on, for a split device (R404). -/
def State.destHalf (s : State) (d : Die) (p : Pkt) : Nat :=
  match s.views d (feaRouter p.dest) with
  | [_] => 0
  | _ => if feaEnd p.dest = 2 ∨ feaEnd p.dest = 3 then 2 else 1

/-- The die that ejects an endpoint (R374). -/
def ejectDie (fea : Nat) : Die := if feaEnd fea = 2 ∨ feaEnd fea = 3 then .b else .a

/-- Routing of a packet that has taken a hop (R386). -/
def State.transitRoute (s : State) (c : RCtx) (p : Pkt) : State × Route :=
  let mine := s.myGroup c.d
  if feaGroup p.dest = mine then s.localHop c p (feaRouter p.dest) (s.destHalf c.d p) []
  else
    let away := p.inter != 0xFFF && mine != p.inter
    let t := if away then p.inter else feaGroup p.dest
    let after := if away then [false, true, false] else [false]
    let exits := (gExits (s.groupEntry c.d c.v t)).filter (s.exitLive c)
    if !gValid (s.groupEntry c.d c.v t) ∨ gSelf (s.groupEntry c.d c.v t) then (s, .discard 1)
    else
      let own := exits.filter (fun e => e.1 == s.myRouter c.d)
      if !own.isEmpty then
        match s.choose c.d p (own.filterMap (fun e => (s.exitCost c e).map (fun n => (e, n)))) with
        | (s, some e) => s.globalHop c p e.2 after
        | (s, none) => (s, .discard 1)
      else
        let direct := exits.filter (fun e => (s.directPort c e.1 (s.slotHalf c.d e.1 e.2)).isSome)
        let opts := (if direct.isEmpty then exits else direct).filterMap (fun e => (s.exitCost c e).map (fun n => (e, n)))
        match s.choose c.d p opts with
        | (s, some e) => s.localHop c p e.1 (s.slotHalf c.d e.1 e.2) (true :: after)
        | (s, none) => (s, .discard 1)

/-! ## The adaptive decision (R390 to R392, R394) -/

/-- A candidate path: its first port and position, its cost, the INTERMEDIATE it writes, and whether it is a detour. -/
structure Cand where
  np : Nat
  pos : Nat
  cost : Nat
  inter : Nat
  detour : Bool
  deriving DecidableEq, Repr

def lowestCand : List Cand → Option Cand
  | [] => none
  | x :: l => some (l.foldl (fun b y => if y.cost < b.cost then y else b) x)

/-- select of R391. -/
def selectCand (mins nms : List Cand) (nmOnly : Bool) (bias : Nat) : Option (Cand × Bool) :=
  match lowestCand mins, lowestCand nms with
  | m, none => m.map (fun x => (x, false))
  | none, some n => some (n, true)
  | some m, some n => if nmOnly then some (n, true) else if 2 * n.cost + bias < m.cost then some (n, true) else some (m, false)

/-- Detour candidates to a router, with what follows it. -/
def State.detourCands (s : State) (c : RCtx) (r extra inter : Nat) : List Cand :=
  (s.detourRouters c r).filterMap (fun k => (s.directPort c k 0).map (fun np =>
    { np := np, pos := 1, cost := s.detourCost c k r + extra, inter := inter, detour := true }))

/-- The inverse map of R381: the group that a slot of a router reaches. -/
def State.reached (s : State) (c : RCtx) (x : Nat × Nat) : Option Nat :=
  (List.range 4095).find? (fun g => let e := s.groupEntry c.d c.v g; gValid e && !gSelf e && (gExits e).contains x)

/-- The group's live global links to groups other than two, with those groups. -/
def State.globalLinks (s : State) (c : RCtx) (t mine : Nat) : List (Nat × Nat × Nat) :=
  ((List.range 32).flatMap (fun r => (List.range 32).map (fun k => (r, k)))).filterMap (fun x =>
    match s.reached c x with
    | some g => if g != t && g != mine && s.exitLive c x then some (x.1, x.2, g) else none
    | none => none)

/-- The candidate of a drawn link, if it is one. -/
def State.drawnCand (s : State) (c : RCtx) (l : Nat × Nat × Nat) : Option Cand :=
  if l.1 = s.myRouter c.d then
    (slotNp (s.slotEntry c.d c.v l.2.1)).map (fun np =>
      { np := np, pos := 2, cost := s.npPressure np, inter := l.2.2, detour := false })
  else (s.directPort c l.1 (s.slotHalf c.d l.1 l.2.1)).map (fun np =>
    { np := np, pos := 1, cost := s.npPressure np + s.peerGlobalP c l.1 l.2.1, inter := l.2.2, detour := false })

/-- Up to n draws among links; without a minimal candidate they go on to 16 in all until one gives a candidate. -/
def State.draws (c : RCtx) (links : List (Nat × Nat × Nat)) (need : Bool) : Nat → Nat → List Cand → State → State × List Cand
  | 0, _, acc, s => (s, acc)
  | fuel + 1, n, acc, s =>
    if links.isEmpty ∨ (n = 0 ∧ (!need ∨ !acc.isEmpty)) then (s, acc)
    else
      let (s, k) := s.drawNat
      let got := ((links[k % links.length]?).bind (s.drawnCand c)).toList
      State.draws c links need fuel (n - 1) (acc ++ got) s

/-- The decision of the source router: a candidate, and whether it is non-minimal (R390, R391). -/
def State.adaptive (s : State) (c : RCtx) (p : Pkt) : State × Option (Cand × Bool) :=
  let bias := s.rd c.d RTB.ADAPT_CFG.NM_BIAS
  let mine := s.myGroup c.d
  let r := feaRouter p.dest
  if feaGroup p.dest = mine then
    match s.directPort c r (s.destHalf c.d p) with
    | none => (s, selectCand (s.detourCands c r 0 0xFFF) [] false bias)
    | some np =>
      let direct : Cand := { np := np, pos := 1, cost := s.npPressure np, inter := 0xFFF, detour := false }
      (s, selectCand [direct] (if p.vn = vMGT then [] else s.detourCands c r 0 0xFFF) false bias)
  else
    let t := feaGroup p.dest
    let e := s.groupEntry c.d c.v t
    let exits := if gValid e && !gSelf e then (gExits e).filter (s.exitLive c) else []
    let direct := exits.filterMap (fun x =>
      if x.1 = s.myRouter c.d then (slotNp (s.slotEntry c.d c.v x.2)).map (fun np =>
        ({ np := np, pos := 2, cost := s.npPressure np, inter := 0xFFF, detour := false } : Cand))
      else (s.directPort c x.1 (s.slotHalf c.d x.1 x.2)).map (fun np =>
        { np := np, pos := 1, cost := s.npPressure np + s.peerGlobalP c x.1 x.2, inter := 0xFFF, detour := false }))
    let mins := if direct.isEmpty then
        exits.flatMap (fun x => if x.1 = s.myRouter c.d then [] else s.detourCands c x.1 (s.peerGlobalP c x.1 x.2) 0xFFF)
      else direct
    if !gValid e ∨ p.vn = vMGT then (s, selectCand mins [] false bias)
    else
      let n := min 4 (s.rd c.d RTB.ADAPT_CFG.NM_CANDIDATES)
      let (s, nms) := State.draws c (s.globalLinks c t mine) mins.isEmpty 16 n [] s
      (s, selectCand mins nms (gNmOnly e) bias)

/-- Count a decision and its detour. -/
def State.countDecision (s : State) (d : Die) (x : Cand × Bool) : State :=
  (s.bump d (if x.2 then RTB.NM_CHOSEN.COUNT else RTB.MIN_CHOSEN.COUNT)).when (x.1.detour && !x.2)
    (fun s => s.bump d RTB.DETOURS.COUNT)

/-- The flowlet gap (R394). -/
def State.gapNs (s : State) (d : Die) : Nat := max 500 (s.rd d RTB.ADAPT_CFG.FLOWLET_GAP_NS)

/-- first_hop: an unordered packet decides for itself; an ordered one takes its flowlet's decision (R392, R394). -/
def State.firstHop (s : State) (c : RCtx) (p : Pkt) : State × Nat × Route :=
  let fresh := fun (s : State) =>
    match s.adaptive c p with
    | (s, some x) => (s.countDecision c.d x, some x)
    | (s, none) => (s, none)
  if !p.ordered then
    match fresh s with
    | (s, some x) => (s, x.1.inter, .hop x.1.np x.1.pos)
    | (s, none) => (s, 0xFFF, .discard 1)
  else
    let f := tget (s.rtb c.d).flows p.hash
    let stored := match f with
      | some f => if s.gapNs c.d ≤ s.now - f.seen then none else match f.port with
        | some np => if s.npUsable c.d np then some (f, np) else none
        | none => none
      | none => none
    match stored with
    | some (f, np) =>
      let s := s.modRtb c.d (fun x => { x with flows := tput x.flows p.hash { f with seen := s.now } })
      let (e, i) := s.portOf np
      (s.when f.detour (fun s => s.bump c.d RTB.DETOURS.COUNT), f.inter, .hop np (if s.role e i = .global then 2 else 1))
    | none =>
      let s := s.bump c.d RTB.FLOWLETS.COUNT
      match fresh s with
      | (s, some x) =>
        let f : Flow := { seen := s.now, sel := s.seedCur c.d, inter := x.1.inter, port := some x.1.np, detour := x.1.detour && !x.2 }
        (s.modRtb c.d (fun y => { y with flows := tput y.flows p.hash f }), x.1.inter, .hop x.1.np x.1.pos)
      | (s, none) => (s, 0xFFF, .discard 1)

/-- A forwarded ordered packet's flowlet at this die (R394). -/
def State.forwardFlow (s : State) (d : Die) (p : Pkt) : State :=
  if !p.ordered then s
  else
    let put := fun (s : State) (f : Flow) => s.modRtb d (fun x => { x with flows := tput x.flows p.hash f })
    match tget (s.rtb d).flows p.hash with
    | some f =>
      if s.gapNs d ≤ s.now - f.seen then
        put (s.bump d RTB.FLOWLETS.COUNT) { f with seen := s.now, sel := s.seedCur d }
      else put s { f with seen := s.now }
    | none => put (s.bump d RTB.FLOWLETS.COUNT) { seen := s.now, sel := s.seedCur d, inter := 0xFFF, port := none, detour := false }

/-- route of R386: what becomes of a packet at a die, and the EPOCH and INTERMEDIATE it then carries. `injected` is true
where this die injects it. A router field of 32 or more has no route (R373). -/
def State.route (s : State) (d : Die) (p : Pkt) (injected : Bool) : State × Pkt × Route :=
  if !s.on d RTB.MY_FEA.VALID then (s, p, .discard 1)
  else
    let p := if injected then { p with epoch := s.on d RTB.EPOCH.INJECT } else p
    let home := feaGroup p.dest == s.myGroup d && feaRouter p.dest == s.myRouter d
    if home && (ejectDie p.dest == d || !s.on d RTB.SPLIT.SPLIT) then (s, p, .eject)
    else if 6 ≤ p.hopClass then (s, p, .discard 4)
    else if !s.verValid d (b2n p.epoch) then (s, p, .discard 2)
    else if !home && 32 ≤ feaRouter p.dest then (s, p, .discard 1)
    else
      let c : RCtx := { d := d, v := b2n p.epoch, ordered := p.ordered }
      if home then
        let (s, r) := s.localHop c p (s.myRouter d) (if d = .a then 2 else 1) []
        (s, p, r)
      else if p.hopClass = 0 then
        let (s, inter, r) := s.firstHop c p
        (s, { p with inter := inter }, r)
      else
        let (s, r) := (s.forwardFlow d p).transitRoute c p
        (s, p, r)

/-- Count and record a discard in LAST_DROP (R378, R382, R389, R400). -/
def State.routeDrop (s : State) (d : Die) (p : Pkt) (reason : Nat) : State :=
  let s := s.bump d (if reason = 2 then RTB.EPOCH_DROPS.COUNT else if reason = 3 then RTB.HOLD_DROPS.COUNT else RTB.NO_ROUTE_DROPS.COUNT)
  s.wrs d [(RTB.LAST_DROP.DEST_FEA, p.dest), (RTB.LAST_DROP.REASON, reason), (RTB.LAST_DROP.HOP_CLASS, p.hopClass),
    (RTB.LAST_DROP.EPOCH, b2n p.epoch), (RTB.LAST_DROP.SRC_FEA, p.src)]

/-! ## Route-table registers and commands (R373, R381, R382, R406 to R408) -/

/-- A register write by a requester that needs a warden's rights. Such a command carries no view, and a violation is recorded with VIEW 0
(log entry 153). -/
def State.asWarden (s : State) (rq : Requester) (d : Die) (off : Nat) (act : State → State) : State :=
  if !s.barUp rq then s else if s.privileged rq then act s else s.privViolation rq 0 (d.base + off)

/-- Write MY_FEA: only while both versions are INVALID (R406). -/
def State.myFeaWrite (s : State) (d : Die) (v : Nat) : State :=
  if s.verValid d 0 || s.verValid d 1 then s.wr d RTB.VERSION_STATUS.WRITE_REJECT 1
  else s.wrs d [(RTB.MY_FEA.ROUTER, bitsOf v 6 6), (RTB.MY_FEA.GROUP, bitsOf v 12 12), (RTB.MY_FEA.VALID, bitsOf v 31 1)]

/-- MY_FEA_WRITE. -/
def execMyFeaWrite (rq : Requester) (d : Die) (v : W64) (s : State) : Host.Outcome State Fault Refusal :=
  .next (s.asWarden rq d RTB.MY_FEA.ROUTER.off (fun s => s.myFeaWrite d v.toNat))

/-- A table entry without its reserved bits (R380; 03_register_model.md R83). -/
def entryBits (table v : Nat) : Nat :=
  match table with
  | 0 => bitsOf v 0 6 + bitsOf v 8 40 * 2 ^ 8
  | 1 => bitsOf v 0 16
  | _ => bitsOf v 0 8

/-- Write an entry of a version's table (0 group, 1 local, 2 slot): ignored while the version is VALID (R381). -/
def State.tableWrite (s : State) (d : Die) (v table entry value : Nat) : State :=
  if s.verValid d v then s.wr d RTB.VERSION_STATUS.WRITE_REJECT 1
  else match table with
    | 0 => if entry < 4096 then s.wr d (RTB.GROUP v entry) (entryBits 0 value) else s
    | 1 => if entry < 32 then s.wr d (RTB.LOCAL v entry) (entryBits 1 value) else s
    | _ => if entry < 32 then s.wr d (RTB.SLOT v entry) (entryBits 2 value) else s

/-- Offset of a table entry. -/
def tableOff (v table entry : Nat) : Nat :=
  match table with
  | 0 => (RTB.GROUP v entry).off
  | 1 => (RTB.LOCAL v entry).off
  | _ => (RTB.SLOT v entry).off

/-- ROUTE_TABLE_WRITE. -/
def execRouteTableWrite (rq : Requester) (d : Die) (v : Fin 2) (table : Fin 3) (entry : Fin 4096) (value : W64) (s : State) :
    Host.Outcome State Fault Refusal :=
  .next (s.asWarden rq d (tableOff v.val table.val entry.val) (fun s => s.tableWrite d v.val table.val entry.val value.toNat))

/-- Write EPOCH.INJECT: ignored when it names an INVALID version (R382). -/
def State.injectWrite (s : State) (d : Die) (v : Nat) : State :=
  if s.verValid d v then s.wr d RTB.EPOCH.INJECT v else s.wr d RTB.VERSION_STATUS.WRITE_REJECT 1

/-- EPOCH_INJECT_WRITE. -/
def execEpochInjectWrite (rq : Requester) (d : Die) (v : Fin 2) (s : State) : Host.Outcome State Fault Refusal :=
  .next (s.asWarden rq d RTB.EPOCH.INJECT.off (fun s => s.injectWrite d v.val))

/-- Ports that a version's tables name, with their table number and entry. -/
def State.namedPorts (s : State) (d : Die) (v : Nat) : List (Nat × Nat × Nat) :=
  (List.range 32).flatMap (fun r => ((lPrimary (s.localEntry d v r)).toList ++ (lAlt (s.localEntry d v r)).toList).map (fun np => (np, 2, r))) ++
  (List.range 32).flatMap (fun k => ((slotNp (s.slotEntry d v k)).toList).map (fun np => (np, 3, k)))

def firstRepeat : List (Nat × Nat × Nat) → List Nat → Option (Nat × Nat)
  | [], _ => none
  | (np, t, e) :: l, seen => if seen.contains np then some (t, e) else firstRepeat l (np :: seen)

def State.npRole (s : State) (np : Nat) : PortRole :=
  if 2 * s.portsPerDie ≤ np then .unused else let (d, i) := s.portOf np; s.role d i

/-- The first VALIDATE rule that a version breaks: detail code, table, entry (R381, R407). -/
def State.validateFault (s : State) (d : Die) (v : Nat) : Option (Nat × Nat × Nat) :=
  let ge := s.groupEntry d v
  let mine := s.myGroup d
  let me := s.myRouter d
  let selfBad := (List.range 4096).find? (fun g =>
    (if g = mine then !(gValid (ge g) && gSelf (ge g)) else gSelf (ge g)) || (g == 0xFFF && gValid (ge g)))
  let exitOk := fun (x : Nat × Nat) =>
    if x.1 = me then (slotNp (s.slotEntry d v x.2)).isSome else (lPrimary (s.localEntry d v x.1)).isSome
  let exitBad := (List.range 4096).find? (fun g => gValid (ge g) && !gSelf (ge g) &&
    !(1 ≤ gCount (ge g) && gCount (ge g) ≤ 4 && (gExits (ge g)).all exitOk))
  let okIn := fun (o : Option Nat) (l : List PortRole) => match o with | some np => l.contains (s.npRole np) | none => true
  let roleL := (List.range 32).find? (fun r => !(okIn (lPrimary (s.localEntry d v r)) [.local_] &&
    okIn (lAlt (s.localEntry d v r)) [.local_, .spare]))
  let roleS := (List.range 32).find? (fun k => !okIn (slotNp (s.slotEntry d v k)) [.global])
  if !s.on d RTB.MY_FEA.VALID then some (1, 0, 0)
  else match selfBad, exitBad, roleL, roleS with
    | some g, _, _, _ => some (2, 1, g)
    | none, some g, _, _ => some (3, 1, g)
    | none, none, some r, _ => some (4, 2, r)
    | none, none, none, some k => some (4, 3, k)
    | none, none, none, none =>
      let own := s.localEntry d v me
      match firstRepeat (s.namedPorts d v) [] with
      | some (t, e) => some (5, t, e)
      | none => if (lPrimary own).isSome || (lAlt own).isSome then some (5, 2, me) else none

/-- A version command (R406, R407). -/
def State.verCommand (s : State) (rq : Requester) (d : Die) (op v : Nat) (act : State → Except (Nat × Nat) State) : State :=
  s.asWarden rq d RTB.VERSION_CMD.OP.off (fun s =>
    if s.on d RTB.VERSION_STATUS.BUSY then s.wr d RTB.VERSION_STATUS.GO_REJECT 1
    else
      let s := s.wrs d [(RTB.VERSION_CMD.OP, op), (RTB.VERSION_CMD.VERSION, v)]
      let fin := fun (s : State) (code detail index : Nat) =>
        s.wrs d [(RTB.VERSION_STATUS.DONE, 1), (RTB.VERSION_STATUS.CODE, code), (RTB.VERSION_STATUS.DETAIL, detail),
          (RTB.VERSION_STATUS.INDEX, index)]
      match act s with
      | .ok s => fin s stOK 0 0
      | .error (detail, index) => fin s stFORMAT detail index)

def verState (v : Nat) : Fld := if v = 0 then RTB.EPOCH.STATE0 else RTB.EPOCH.STATE1

/-- VALIDATE (R381, R407). -/
def execValidate (rq : Requester) (d : Die) (v : Fin 2) (s : State) : Host.Outcome State Fault Refusal :=
  .next (s.verCommand rq d 1 v.val (fun s =>
    if s.verValid d v.val then .error (6, 0)
    else match s.validateFault d v.val with
      | some (detail, t, e) => .error (detail, t * 4096 + e)
      | none => .ok (s.wr d (verState v.val) 1)))

/-- VERSION_INVALIDATE (R382, R407). -/
def execVersionInvalidate (rq : Requester) (d : Die) (v : Fin 2) (s : State) : Host.Outcome State Fault Refusal :=
  .next (s.verCommand rq d 2 v.val (fun s =>
    if s.rd d RTB.EPOCH.INJECT = v.val then .error (6, 0) else .ok (s.wr d (verState v.val) 0)))

/-! ## Group status (R383, R384, R404, R409) -/

/-- Bits of a list of truth values. -/
def bitsFrom (l : List Bool) : Nat := l.foldr (fun b n => b2n b + 2 * n) 0

/-- Six-bit values packed from bit 0. -/
def pack6 (l : List Nat) : Nat := l.foldr (fun p n => p % 64 + 64 * n) 0

/-- The contents of this die's next GROUP_STATUS. -/
def State.statusUnit (s : State) (d : Die) : List Byte :=
  let v := s.rd d RTB.EPOCH.INJECT
  let split := s.on d RTB.SPLIT.SPLIT
  let c : RCtx := { d := d, v := v, ordered := true }
  let slot := fun (k : Nat) => slotNp (s.slotEntry d v k)
  let gl := (List.range 32).map (fun k => match slot k with | some np => s.npUsable d np | none => false)
  let ll := (List.range 32).map (fun r => (s.directPort c r 0).isSome)
  let gp := (List.range 32).map (fun k => match slot k with | some np => s.npPressure np | none => 0)
  let lp := (List.range 32).map (fun r => match s.directPort c r 0 with | some np => s.npPressure np | none => 0)
  leBytes 2 (s.myRouter d + (if split then d.num + 1 else 0) * 2 ^ 8) ++ leBytes 2 (s.rtb d).gsSeq ++
    leBytes 4 (bitsFrom gl) ++ leBytes 4 (bitsFrom ll) ++ leBytes 24 (pack6 gp) ++ leBytes 24 (pack6 lp) ++ leBytes 4 0

/-- Crossbar port number of a switch-core port, as OUT_XP carries it: 64 more for the second port of a shared one. -/
def xpOf (key : Nat) : Nat := if key < 64 then key / 2 + 64 * (key % 2) else 32 + (key - 64)
def keyOf (xp : Nat) : Nat := if 64 ≤ xp then 2 * (xp % 64) + 1 else if xp < 32 then 2 * xp else 64 + (xp - 32) % 8

/-- A GROUP_STATUS for one port: the switch core is told its output port by the transit tag. -/
def State.statusPkt (s : State) (d : Die) (i : Nat) : Pkt :=
  let fea := s.rd d (LLU.PARTNER.FEA i) / 64 * 64 + (if s.landsOn (s.npOf d i) = 2 then 2 else 0)
  { mkPkt cGROUP_STATUS vMGT false fea 0 0 (s.statusUnit d) with
    src := s.myFea d (2 * d.num), outXp := xpOf (s.portKey i 0), bridgeClass := 1, transit := true }

/-- Ports of a die over which group status goes. -/
def State.statusPorts (s : State) (d : Die) : List Nat :=
  (List.range s.portsPerDie).filter (fun i => s.portLive d i && (s.role d i == .local_ || s.role d i == .spare))

/-- Send GROUP_STATUS over each live LOCAL and SPARE port of the die. -/
def State.sendStatus (s : State) (d : Die) : State :=
  if !s.on d RTB.MY_FEA.VALID then s
  else (s.statusPorts d).foldl (fun s i =>
    (s.sendCtl d (s.statusPkt d i)).modRtb d (fun r => { r with gsSeq := (r.gsSeq + 1) % 65536 })) s

/-- GROUP_STATUS_PERIOD (R383): due at each period, and at once after a change of liveness. -/
def execGroupStatusPeriod (d : Die) (s : State) : Host.Outcome State Fault Refusal :=
  .next (if s.now < (s.rtb d).gsAt then s
    else (s.sendStatus d).modRtb d (fun r => { r with gsAt := s.now + min 10000 (max 250 (s.rd d RTB.GS_CFG.PERIOD_NS)) }))

/-- The status that a GROUP_STATUS data unit holds. -/
def parseStatus (b : List Byte) (now : Nat) : Nat × PeerStatus :=
  let n := fun (i k : Nat) => leNat ((b.drop i).take k)
  let six := fun (i : Nat) => (List.range 32).map (fun k => bitsOf (n i 24) (6 * k) 6)
  let st : PeerStatus := ⟨now, bitsOf (n 0 2) 8 2, n 2 2, n 4 4, n 8 4, six 12, six 36⟩
  (bitsOf (n 0 2) 0 6, st)

/-- Take a status in on a die: for a whole device it replaces what its halves said. -/
def State.putStatus (s : State) (d : Die) (r : Nat) (p : PeerStatus) : State :=
  if 32 ≤ r then s
  else
    let h := if p.half = 2 then 1 else 0
    let k := 2 * r + h
    s.modRtb d (fun x =>
      let old := if p.half = 0 then tdel x.peers (2 * r + 1) else x.peers
      { x with peers := tput old k p, stale := x.stale.filter (· != k) })

/-- GROUP_STATUS (R383): consumed, and shared with the other die over the bridge. -/
def execGroupStatus (d : Die) (s : State) : Host.Outcome State Fault Refusal :=
  .next (match (s.rtb d).inbox with
    | [] => s
    | p :: l =>
      let s := s.modRtb d (fun x => { x with inbox := l })
      let (r, st) := parseStatus p.data s.now
      let s := s.putStatus d r st
      if s.on d RTB.SPLIT.SPLIT then s else s.putStatus d.other r st)

/-- PEER_STALE (R384): a peer's last status has become too old. -/
def execPeerStale (d : Die) (r : Fin 32) (half : Fin 2) (s : State) : Host.Outcome State Fault Refusal :=
  .next (
    let k := 2 * r.val + half.val
    match tget (s.rtb d).peers k with
    | none => s
    | some p =>
      if s.peerFresh d p || (s.rtb d).stale.contains k then s
      else (s.bump d RTB.GS_STALE.COUNT).modRtb d (fun x => { x with stale := setInsert x.stale k }))

/-! ## Seeds and the imbalance monitor (R397, R398) -/

/-- Re-seed a die. -/
def State.reseed (s : State) (d : Die) : State :=
  s.draw (fun k s =>
    let sel := !s.seedCur d
    let s := s.modRtb d (fun r => if sel then { r with seed1 := k } else { r with seed0 := k })
    (s.wrs d [(RTB.SEED.CUR, b2n sel), (RTB.SEED.GEN, s.rd d RTB.SEED.GEN + 1)]).bump d RTB.RESEEDS.COUNT)

/-- RESEED (R397, R398). -/
def execReseed (rq : Requester) (d : Die) (s : State) : Host.Outcome State Fault Refusal :=
  .next (s.asWarden rq d RTB.SEED.RESEED.off (fun s => s.reseed d))

/-- A port's capacity in a window, in bytes: its data rate times 256/272. -/
def State.winCapacity (s : State) (d : Die) (i : Nat) : Nat :=
  let lanes := ((List.range 4).filter (fun k => bitOf (s.rd d (LLU.LINK_STATE.LANES_ACTIVE i)) k)).length
  lanes * rateGbps (s.rd d (LLU.LINK_STATE.RATE i)) * 10000 * 256 / 272 / 8

/-- IMBALANCE_WINDOW (R397). -/
def execImbalanceWindow (d : Die) (s : State) : Host.Outcome State Fault Refusal :=
  .next (if s.now < (s.rtb d).winAt + 10000 then s
    else
      let ports := (List.range s.portsPerDie).filter (fun i => s.role d i == .global && s.portLive d i)
      let bytes := fun (i : Nat) => nget (s.rtb d).winBytes i
      let total := (ports.map bytes).sum
      let n := ports.length
      let s := s.modRtb d (fun r => { r with winAt := s.now, winBytes := [] })
      match ports with
      | [] => s
      | [_] => s
      | p :: l =>
        let busy := l.foldl (fun b i => if bytes b < bytes i then i else b) p
        let ratio := if total = 0 then 0 else min 65535 (8 * bytes busy * n / total)
        let s := s.wrs d [(RTB.IMB_STATUS.BUSIEST_NP, s.npOf d busy), (RTB.IMB_STATUS.LAST_RATIO_X8, ratio)]
        let high := decide (max 9 (s.rd d RTB.IMB_CFG.RATIO_X8) * total < 8 * bytes busy * n) &&
          decide (s.rd d RTB.IMB_CFG.MIN_UTIL_PCT * s.winCapacity d busy * n ≤ 100 * total)
        let count := if high then s.rd d RTB.IMB_STATUS.OVER + 1 else 0
        if count = max 1 (s.rd d RTB.IMB_CFG.WINDOWS) ∧ s.on d RTB.IMB_CFG.AUTO then (s.reseed d).wr d RTB.IMB_STATUS.OVER 0
        else s.wr d RTB.IMB_STATUS.OVER (min count 15))

end Sys2Proof.Machine
end

