-- ==== Sys2Proof/Machine/FaultLog.lean ====
section
/-! DEFINITION. The fault log and the retirement table (16_faults.md R516 to R518), the alerts and EVENTs that a record
raises (19_startup.md R579, R582), and what a retirement leaves out of service. -/

namespace Sys2Proof.Machine

def State.ftNow (s : State) (d : Die) : Nat := (s.die d).ft.ns

/-! ## Alerts (R582, R585) -/

def alertFld (b : Nat) : Fld :=
  if b = 0 then SVC.ALERT_STATUS.TEMP else if b = 1 then SVC.ALERT_STATUS.BOOT
  else if b = 2 then SVC.ALERT_STATUS.FAULT else SVC.ALERT_STATUS.VISIBLE

def State.alertByte (s : State) : Nat :=
  s.rd .a SVC.ALERT_STATUS.TEMP + 2 * s.rd .a SVC.ALERT_STATUS.BOOT + 4 * s.rd .a SVC.ALERT_STATUS.FAULT +
    8 * s.rd .a SVC.ALERT_STATUS.VISIBLE

/-- Set a bit of ALERT_STATUS; a gained and unmasked bit raises an in-band interrupt while they are enabled. -/
def State.alert (s : State) (b : Nat) : State :=
  let was := s.on .a (alertFld b)
  let s := s.wr .a (alertFld b) 1
  s.when (!was && s.svc.ibi && !bitOf (s.rd .a SVC.ALERT_MASK.MASK) b) (fun s => s.emit (.ibi s.alertByte))

/-- ALERT_N is driven low (R585). -/
def State.alertLow (s : State) : Bool := (List.range 4).any (fun b => bitOf s.alertByte b && !bitOf (s.rd .a SVC.ALERT_MASK.MASK) b)

/-! ## MGT_MSG packets (R576, R577) -/

/-- The first data unit of an MGT_MSG. -/
def mgtUnit (type op size status req addr data len : Nat) : List Byte :=
  leBytes 1 type ++ leBytes 1 op ++ leBytes 1 size ++ leBytes 1 status ++ leBytes 4 req ++ leBytes 8 addr ++ leBytes 8 data ++
    leBytes 4 len ++ List.replicate 36 0

/-- Send an MGT_MSG from a die. -/
def State.sendMgt (s : State) (d : Die) (dest : Nat) (bytes : List Byte) : State :=
  (s.sendCtl d { mkPkt cMGT_MSG vMGT false dest 0 0 bytes with src := s.myFea d (2 * d.num) }).bump .a SVC.MGT_TX.COUNT

/-! ## Records -/

def crcWord (b : List Byte) : List Byte := leBytes 4 (crc32c b).toNat

/-- The 64 bytes of an event record. -/
def evBytes (e : EvRec) : List Byte :=
  let b := leBytes 4 0x464C5452 ++ leBytes 4 e.seq ++ leBytes 8 e.time ++ leBytes 1 e.type ++ leBytes 1 e.cls ++ leBytes 1 e.die ++
    leBytes 1 (b2n e.visible) ++ leBytes 4 e.index ++ leBytes 4 e.count ++ leBytes 4 e.detail ++ leBytes 8 e.addr ++
    leBytes 4 e.polder ++ leBytes 4 e.fea ++ List.replicate 12 0
  b ++ crcWord b

/-- The 64 bytes of a retirement record. -/
def retBytes (r : RetRec) : List Byte :=
  let b := leBytes 4 0x52545244 ++ leBytes 4 r.eventSeq ++ leBytes 8 r.time ++ leBytes 1 r.cls ++ leBytes 1 (if r.cleared then 2 else 1) ++
    leBytes 1 r.cause ++ leBytes 1 r.die ++ leBytes 4 r.index ++ leBytes 4 r.spare ++ List.replicate 32 0
  b ++ crcWord b

/-- Send an EVENT for a record while EVENT_FEA is valid, at most 1,000 in a second (R579). -/
def State.sendEvent (s : State) (e : EvRec) : State :=
  let v := s.setting 25
  if !bitOf v 31 ∨ !((3 ≤ e.type ∧ e.type ≤ 8) ∨ e.visible) then s
  else
    let fresh := s.svc.evAt + secNs ≤ s.now
    let n := if fresh then 0 else s.svc.evCount
    if 1000 ≤ n then s
    else
      let s := { s with svc := { s.svc with evAt := if fresh then s.now else s.svc.evAt, evCount := n + 1 } }
      s.sendMgt .a (bitsOf v 0 24) (mgtUnit 6 0 0 0 0 0 0 0 ++ evBytes e)

/-- Write an event record into the slot after the one of the highest SEQ (R518). -/
def State.putEvent (s : State) (e : EvRec) : State :=
  let seq := s.rd .a FM.LOG_HEAD.SEQ + 1
  let slot := if seq = 1 then 0 else (s.rd .a FM.LOG_HEAD.INDEX + 1) % 211968
  let e := { e with seq := seq }
  let s := { s with fm := { s.fm with ring := tput s.fm.ring slot e } }
  let s := s.wrs .a [(FM.LOG_HEAD.SEQ, seq), (FM.LOG_HEAD.INDEX, slot)]
  let s := s.when (slot == 0 && decide (1 < seq)) (fun s => s.wr .a FM.FM_STATE.LOG_WRAPPED 1)
  let s := s.when (decide (3 ≤ e.type ∧ e.type ≤ 8)) (fun s => s.alert 2)
  let s := s.when e.visible (fun s => (s.bump .a FM.VISIBLE_EVENTS.COUNT).alert 3)
  s.sendEvent e

/-- What a combination of R518 is numbered by. -/
def evKey (e : EvRec) : Nat := ((e.type * 256 + e.cls) * 2 + e.die) * 2 ^ 32 + e.index

/-- A new second begins for the records that are counted by the second. -/
def State.newSecond (s : State) : State :=
  if s.fm.secAt + secNs ≤ s.now then { s with fm := { s.fm with secAt := s.now, secCount := 0 } } else s

/-- Change the fault manager's own state. -/
def State.modFm (s : State) (f : FaultMgr → FaultMgr) : State := { s with fm := f s.fm }

/-- Write a record, and keep when for the limits of R518. -/
def State.putLimited (s : State) (k : Nat) (e : EvRec) : State :=
  (s.putEvent e).modFm (fun m => { m with limits := tput m.limits k (s.now, 0), secCount := m.secCount + 1 })

/-- Log an event, within the limits of R518: the events of a combination within a second of its last record are counted in the
next, and the records beyond 1,000 in a second are counted and not written. -/
def State.logIn (s : State) (k : Nat) (e : EvRec) : State :=
  match tget s.fm.limits k with
  | some (at_, held) =>
    if s.now < at_ + secNs then s.modFm (fun m => { m with limits := tput m.limits k (at_, held + e.count) })
    else if 1000 ≤ s.fm.secCount then s.modFm (fun m => { m with suppressed := m.suppressed + 1 })
    else s.putLimited k { e with count := e.count + held }
  | none => if 1000 ≤ s.fm.secCount then s.modFm (fun m => { m with suppressed := m.suppressed + 1 }) else s.putLimited k e

/-- Log an event. -/
def State.logEvent (s : State) (e : EvRec) : State := s.newSecond.logIn (evKey e) e

/-- An event about a resource. -/
def State.event_ (s : State) (type cls : Nat) (d : Die) (index detail : Nat) (visible : Bool) : State :=
  s.logEvent { seq := 0, time := s.ftNow d, type := type, cls := cls, die := d.num, visible := visible, index := index,
               count := 1, detail := detail, addr := 0, polder := 0, fea := 0 }

/-! ## Retirements (R517) -/

/-- Retired resources of a class on a die. -/
def State.retiredOf (s : State) (cls : Nat) (d : Die) : List Nat :=
  (s.fm.table.filter (fun r => r.2.cls == cls && r.2.die == d.num && !r.2.cleared)).map (fun r => r.2.index)

/-- A slot of the retirement table without a RETIRED record. -/
def State.freeRet (s : State) : Option Nat :=
  match freeKey s.fm.table (min 16384 (s.fm.table.length + 1)) 0 with
  | some k => some k
  | none => (s.fm.table.find? (fun r => r.2.cleared)).map (·.1)

/-- A resource may be retired: it is not, and there is a record for it, since each retirement creates its record first (R517). -/
def State.retirable (s : State) (cls : Nat) (d : Die) (index : Nat) : Bool := !s.retired cls d index && s.freeRet.isSome

/-- RETIRED_COUNTS, counted from the records. -/
def State.countRetired (s : State) : State :=
  let n := fun (c : Nat) => (s.retiredOf c .a).length + (s.retiredOf c .b).length
  s.wrs .a [(FM.RETIRED_COUNTS.LANES, n 1), (FM.RETIRED_COUNTS.PORTS, n 2), (FM.RETIRED_COUNTS.MODULES, n 3),
    (FM.RETIRED_COUNTS.ENGINES, n 5), (FM.RETIRED_COUNTS.BANKS, n 6 + n 7),
    (FM.RETIRED_COUNTS.QDU, b2n (s.retired 10 .a 0) + 2 * b2n (s.retired 10 .b 0)), (FM.RETIRED_COUNTS.ROWS, n 9)]

/-- Write the event record and the retirement record of a resource. Without a free record it is not retired. -/
def State.recordRet (s : State) (cls : Nat) (d : Die) (index cause spare : Nat) : State :=
  match s.freeRet with
  | none => s
  | some k =>
    let s := s.event_ 3 cls d index cause false
    let r : RetRec := { eventSeq := s.rd .a FM.LOG_HEAD.SEQ, time := s.ftNow d, cls := cls, cleared := false, cause := cause,
                        die := d.num, index := index, spare := spare }
    { s with fm := { s.fm with table := tput s.fm.table k r } }.countRetired

/-- Mark a record CLEARED (R517). -/
def State.clearRet (s : State) (k : Nat) : State :=
  { s with fm := { s.fm with table := tmod s.fm.table k (fun r => { r with cleared := true }) } }.countRetired

/-- A die is lost (R513). -/
def State.dieLost (s : State) (d : Die) : Bool :=
  match d with
  | .a => s.on .a FM.FM_STATE.DIE_A_LOST
  | .b => s.on .a FM.FM_STATE.DIE_B_LOST

end Sys2Proof.Machine
end

