-- ==== Sys2Proof/Machine/Bridge.lean ====
section
/-! DEFINITION. The die bridge (01_anatomy.md R18 to R22; 16_faults.md R506, R507): striping, replay, re-sequencing, module
retrains and the split; and the NoC's units that cross it (R22, R25, R27). -/

namespace Sys2Proof.Machine

def State.bridge (s : State) (d : Die) : Bridge := (s.die d).bridge
def State.modBridge (s : State) (d : Die) (f : Bridge → Bridge) : State := s.modDie d (fun x => { x with bridge := f x.bridge })

def bmod0 : BMod :=
  { live := true, training := false, trainAt := 0, nextTx := 0, nextRx := 0, gotData := false, ackDue := false, buf := [], wire := [],
    awaiting := false, replays := 0, retrains := 0, rxAt := 0, fails := [] }

def State.bmod (s : State) (d : Die) (m : Nat) : BMod := (tget (s.bridge d).mods m).getD { bmod0 with live := false }
def State.modBmod (s : State) (d : Die) (m : Nat) (f : BMod → BMod) : State :=
  s.modBridge d (fun b => { b with mods := tmod b.mods m f })

/-- Modules that carry traffic, and BRIDGE_LIVE. -/
def State.liveMods (s : State) (d : Die) : List Nat := ((s.bridge d).mods.filter (fun m => m.2.live)).map (·.1)
def State.showBridge (s : State) : State :=
  s.wr .a FM.FM_STATE.BRIDGE_LIVE ((s.liveMods .a).foldl (fun n m => n + 2 ^ m) 0)

/-! ## The flit (R19) -/

/-- The channel number of a credit in CREDIT_CH: bridge port and VC. VC 31 names the port's shared credit, and VC 30 of bridge port c
the NoC class c, since no packet travels in either; the table gives no numbers (log entry 145). -/
def creditCh (key : Nat) : Nat := (key - 72 * 32) % 256

/-- The key under which a NoC class's credits are owed. -/
def nocCh (cls : Nat) : Nat := (72 + cls) * 32 + 30

def BUnit.bytes : BUnit → List Byte
  | .switch _ u => u.bytes
  | .noc _ b => b

def BUnit.isNoc : BUnit → Bool
  | .switch .. => false
  | .noc .. => true

/-- The control word: TYPE, NACK, ACK_VALID, ACK_SEQ, STRIPE_SEQ, UNIT_CLASS, CREDIT_CH, CREDIT_COUNT. -/
def BFlit.control (f : BFlit) : Nat :=
  let class_ := ((List.range 4).zip f.units).foldl (fun n p => n + b2n p.2.isNoc * 2 ^ p.1) 0
  let (ch, n) := match f.credit with | some (k, n) => (creditCh k, n % 256) | none => (0, 0)
  (if f.idle then 2 else 1) + b2n f.nack * 2 ^ 4 + b2n f.ack.isSome * 2 ^ 5 + f.ack.getD 0 % 2 ^ 16 * 2 ^ 6 + f.stripe % 2 ^ 12 * 2 ^ 22 +
    class_ * 2 ^ 34 + ch * 2 ^ 38 + n * 2 ^ 46

/-- Bytes 0 to 263: the control word and four units, those not used being zero. -/
def BFlit.body (f : BFlit) : List Byte :=
  let data := f.units.flatMap BUnit.bytes
  leBytes 8 f.control ++ data ++ List.replicate (256 - data.length) 0

/-- The 272 bytes on the module's lanes. -/
def BFlit.bytes (f : BFlit) : List Byte := f.body ++ leBytes 8 (crc64 f.body f.seq).toNat

/-- A receiver finds a flit good: a TYPE that is not reserved, and the CRC of its bytes and of the number it expects. -/
def bflitGood (bs : List Byte) (seq : Nat) : Bool :=
  let type := leNat (bs.take 1) % 16
  (type == 1 || type == 2) && leNat (bs.drop 264) == (crc64 (bs.take 264) seq).toNat

/-- Bytes as they arrive: some of them changed. -/
def changed (bs : List Byte) (err : List (Nat × Byte)) : List Byte := err.foldl (fun l e => l.modify e.1 (· ^^^ e.2)) bs

/-! ## Transmit -/

/-- Acknowledgement fields of the next flit on a module. -/
def ackOf (m : BMod) : Option Nat := if m.gotData then some ((m.nextRx + 65535) % 65536) else none

/-- The next credit return owed, as its channel and a count of at most 255. -/
def State.owedNext (s : State) (d : Die) : State × Option (Nat × Nat) :=
  match (s.bridge d).owed with
  | [] => (s, none)
  | (k, n) :: _ => (s.modBridge d (fun b => { b with owed := nput b.owed k (n - min 255 n) }), some (k, min 255 n))

/-- Send a flit on a module, with the module's next number; data flits also take the next stripe number. The replay buffer keeps it. -/
def State.sendBFlit (s : State) (d : Die) (m : Nat) (units : List BUnit) : State :=
  let (s, credit) := s.owedNext d
  let x := s.bmod d m
  let idle := units.isEmpty
  let f : BFlit := { seq := x.nextTx, stripe := (s.bridge d).stripeTx, idle := idle, ack := ackOf x, nack := x.awaiting, units := units,
                     credit := credit }
  let s := s.modBmod d m (fun x =>
    { x with wire := x.wire ++ [f], ackDue := false, buf := x.buf ++ [f], nextTx := (x.nextTx + 1) % 65536 })
  s.when (!idle) (fun s => s.modBridge d (fun b => { b with stripeTx := (b.stripeTx + 1) % 4096 }))

/-- Up to `n` units from the staging of the bridge ports of a list, in its order. -/
def State.takeStaged (d : Die) : List Nat → Nat → State → State × List BUnit
  | [], _, s => (s, [])
  | p :: l, n, s =>
    let st := (s.swc d).staged p
    let got := st.take n
    let s := s.modSwc d (fun x => x.setStage p (st.drop n))
    let (s, more) := State.takeStaged d l (n - got.length) s
    (s, got.map (fun u => .switch p u) ++ more)

/-- Units of a NoC class that the other die's gateways take beyond those they have passed on: 4 for each of the four (R28). The spec
gives no number (log entry 146). -/
def nocWindow : Nat := 16

/-- Up to `n` units of NoC transactions whose class has credit, oldest first (R22). -/
def takeNoc : List (Nat × List Byte) → Nat → Tbl Nat → List BUnit × List (Nat × List Byte) × Tbl Nat
  | [], _, used => ([], [], used)
  | u :: l, 0, used => ([], u :: l, used)
  | u :: l, n + 1, used =>
    if nocWindow ≤ nget used u.1 then
      let (got, left, used) := takeNoc l (n + 1) used
      (got, u :: left, used)
    else
      let (got, left, used) := takeNoc l n (nadd used u.1 1)
      (.noc u.1 u.2 :: got, left, used)

def State.takeNoc (s : State) (d : Die) (n : Nat) : State × List BUnit :=
  let (got, left, used) := Machine.takeNoc (s.bridge d).nocTx n (s.bridge d).nocUsed
  (s.modBridge d (fun b => { b with nocTx := left, nocUsed := used }), got)

/-- A live module with room in its replay buffer of 64 flits, of which one place is kept for an acknowledgement, round-robin (R20,
R21). -/
def State.nextMod (s : State) (d : Die) : Option Nat :=
  let l := (s.liveMods d).filter (fun m => (s.bmod d m).buf.length < 63)
  match l.find? (fun m => (s.bridge d).next ≤ m) with
  | some m => some m
  | none => l.head?

/-- Send data flits while there is a unit to send, at most `n`. Switch traffic goes first, and NoC traffic takes the places that it
leaves (R22). From which bridge port's staging a flit takes its units first the spec does not say: port STRIPE_SEQ mod 8 is the model's
choice (log entry 146). -/
def State.bridgeSend (d : Die) : Nat → State → State
  | 0, s => s
  | n + 1, s =>
    match s.nextMod d with
    | none => s
    | some m =>
      let first := (s.bridge d).stripeTx % 8
      let ports := (List.range 8).map (fun i => bpKey (first + i))
      let (s, units) := State.takeStaged d ports 4 s
      let (s, noc) := s.takeNoc d (4 - units.length)
      if (units ++ noc).isEmpty then s
      else
        let s := (s.sendBFlit d m (units ++ noc)).modBridge d (fun b => { b with next := (m + 1) % 16 })
        State.bridgeSend d n s

/-- Send an idle flit, where the replay buffer has room. -/
def State.sendIdle (s : State) (d : Die) (m : Nat) : State := if (s.bmod d m).buf.length < 64 then s.sendBFlit d m [] else s

/-- Send what waits for the bridge, then idle flits where a module has an acknowledgement, a NACK or a credit to report. -/
def State.bridgeTx (s : State) (d : Die) : State :=
  let waiting := ((List.range 8).map (fun i => ((s.swc d).staged (bpKey i)).length)).sum + (s.bridge d).nocTx.length
  let s := State.bridgeSend d waiting s
  let s := (s.liveMods d).foldl (fun s m => let x := s.bmod d m; if x.ackDue || x.awaiting then s.sendIdle d m else s) s
  match s.liveMods d, (s.bridge d).owed with
  | m :: _, _ :: _ => (s.bridge d).owed.foldl (fun s _ => s.sendIdle d m) s
  | _, _ => s

/-! ## NoC transactions on the bridge (R22, R27) -/

def State.noc (s : State) (d : Die) : Noc := (s.die d).noc
def State.modNoc (s : State) (d : Die) (f : Noc → Noc) : State := s.modDie d (fun x => { x with noc := f x.noc })

def nocLink0 : NocLink := { sent := [], bufs := [], fails := 0 }

def State.nocLink (s : State) (d : Die) (k : Nat) : NocLink := (tget (s.noc d).links k).getD nocLink0
def State.modNocLink (s : State) (d : Die) (k : Nat) (f : NocLink → NocLink) : State :=
  s.modNoc d (fun x => { x with links := tput x.links k (f ((tget x.links k).getD nocLink0)) })

/-- The control bits of a unit, from bit 512 (R25). -/
def nocControl (u : NocUnit) : Nat :=
  b2n u.head + b2n u.tail * 2 + u.cls % 4 * 4 + u.destStop % 64 * 16 + u.destDie % 2 * 1024 + u.srcStop % 64 * 2048 + u.srcDie % 2 * 131072 +
    b2n u.poison * 262144

/-- A unit of its data and its control bits. -/
def nocOf (data : BitVec 512) (c : Nat) : NocUnit :=
  { data := data, head := bitOf c 0, tail := bitOf c 1, cls := bitsOf c 2 2, destStop := bitsOf c 4 6, destDie := bitsOf c 10 1,
    srcStop := bitsOf c 11 6, srcDie := bitsOf c 17 1, poison := bitOf c 18 }

/-- The units of a transaction as the bridge carries them: a header unit with the control fields and the number of data units, then
the data units (R22). The header's layout is the model's choice (log entry 146). -/
def nocEncode (l : List NocUnit) : List (List Byte) :=
  match l with
  | [] => []
  | u :: _ => leBytes 64 (nocControl { u with poison := l.any (·.poison) } + l.length * 2 ^ 32) :: l.map (fun v => leBytes 64 v.data.toNat)

/-- The bridge gateway that serves a source stop: that of its column modulo 4 (R27). -/
def gateOf (srcStop : Nat) : Nat := 56 + srcStop % 4

/-- A unit of a NoC transaction comes off the bridge: the transaction goes on from the gateway with the number that it left by. -/
def State.nocFromBridge (s : State) (d : Die) (cls : Nat) (bytes : List Byte) : State :=
  match tget (s.bridge d).nocRx cls with
  | none =>
    let n := leNat (bytes.take 8) / 2 ^ 32
    s.modBridge d (fun b => { b with owed := nadd b.owed (nocCh cls) 1,
                                     nocRx := if n = 0 then b.nocRx else tput b.nocRx cls (nocOf 0 (leNat (bytes.take 8) % 2 ^ 32), n) })
  | some (h, n) =>
    let u := { h with data := BitVec.ofNat 512 (leNat bytes), tail := n == 1 }
    let s := s.modBridge d (fun b => { b with nocRx := if n = 1 then tdel b.nocRx cls else tput b.nocRx cls ({ h with head := false }, n - 1) })
    s.modNocLink d (gateOf h.srcStop + 256) (fun x => { x with bufs := x.bufs ++ [u] })

/-! ## Receive (R20, R21) -/

/-- A unit of a data flit is delivered. -/
def State.bunitIn (s : State) (d : Die) : BUnit → State
  | .switch p u => s.unitIn d (p * 32 + u.vc) u
  | .noc cls bytes => s.nocFromBridge d cls bytes

/-- Deliver the flits of the re-sequence buffer that follow in STRIPE_SEQ order. -/
def State.resequence (d : Die) : Nat → State → State
  | 0, s => s
  | n + 1, s =>
    match tget (s.bridge d).held (s.bridge d).stripeRx with
    | none => s
    | some f =>
      let s := s.modBridge d (fun b => { b with held := tdel b.held b.stripeRx, stripeRx := (b.stripeRx + 1) % 4096 })
      State.resequence d n (f.units.foldl (fun s u => s.bunitIn d u) s)

/-- Send again the flits of a module's replay buffer, with the acknowledgement of now. -/
def State.replayBmod (s : State) (d : Die) (m : Nat) : State :=
  s.modBmod d m (fun x =>
    let again := x.buf.map (fun f => { f with ack := ackOf x, nack := x.awaiting })
    { x with wire := again, buf := again, replays := x.replays + 1 })

/-- A credit comes back: to a bridge port's VC, to its shared credits, or to a NoC class. -/
def State.creditIn (s : State) (d : Die) (k n : Nat) : State :=
  if k % 32 = 31 then s.modSwc d (fun x => { x with shr := nadd x.shr (k / 32) n })
  else if k % 32 = 30 then s.modBridge d (fun b => { b with nocUsed := nput b.nocUsed (k / 32 - 72) (nget b.nocUsed (k / 32 - 72) - n) })
  else s.modSwc d (fun x => { x with ded := nadd x.ded k n })

/-- The fields of a flit that passed its check: credit, acknowledgement, NACK. The shared credit of a bridge port has CREDIT_CH
port * 32 + 31, and NoC credit port * 32 + 30: the spec's table names only the port with the VC or the NoC class (log entry 145). -/
def State.bflitFields (s : State) (d : Die) (m : Nat) (f : BFlit) : State :=
  let s := match f.credit with
    | some (k, n) => s.creditIn d k n
    | none => s
  let s := match f.ack with
    | some a => s.modBmod d m (fun x => { x with buf := x.buf.filter (fun g => sbefore 65536 a g.seq) })
    | none => s
  s.when f.nack (fun s => s.replayBmod d m)

/-- The oldest flit on its way to a die over a module arrives, some of its bytes changed. An acknowledgement is due to one that
carried units or a credit; one outside the 1,024 flits of the re-sequence buffer was delivered before. -/
def State.bflitIn (s : State) (d : Die) (m : Nat) (err : List (Nat × Byte)) : State :=
  match (s.bmod d.other m).wire with
  | [] => s
  | f :: l =>
    let s := s.modBmod d.other m (fun x => { x with wire := l })
    let x := s.bmod d m
    if bflitGood (changed f.bytes err) x.nextRx then
      let s := s.modBmod d m (fun x => { x with rxAt := s.now, awaiting := false, nextRx := (x.nextRx + 1) % 65536, gotData := true,
                                                ackDue := x.ackDue || !f.idle || f.credit.isSome })
      let s := s.bflitFields d m f
      if f.idle ∨ 1024 ≤ (f.stripe + 4096 - (s.bridge d).stripeRx) % 4096 then s
      else State.resequence d 1024 (s.modBridge d (fun b => { b with held := tput b.held f.stripe f }))
    else s.modBmod d m (fun x => { x with awaiting := true, fails := if x.awaiting then x.fails else x.fails ++ [s.now] })

/-! ## Retrains, retirement of a module, and the split (16_faults.md R506, R507) -/

/-- BRIDGE_MODULE_SILENT: no valid flit for 1 µs; the module retrains at both ends. -/
def execBridgeModuleSilent (d : Die) (m : Fin 16) (s : State) : Host.Outcome State Fault Refusal :=
  .next (
    let x := s.bmod d m.val
    if !x.live ∨ s.now < x.rxAt + 1000 then s
    else
      let go := fun (s : State) (d : Die) => s.modBmod d m.val (fun x => { x with live := false, training := true, trainAt := s.now, wire := [] })
      (go (go s .a) .b).showBridge)

/-- Complete a packet whose remaining units will never arrive with poisoned zero units (14_link_layer.md R472), as the last packet
of an input VC. -/
def State.fillPacket (s : State) (d : Die) (k : Nat) : State × Bool :=
  match ((s.swc d).inList k).getLast? with
  | none => (s, false)
  | some q =>
    if q.pkt.len < q.arrived then (s, false)
    else
      let n := q.pkt.len + 1 - q.arrived
      let s := s.modSwc d (fun x => x.setIns k ((x.inList k).dropLast ++
        [{ q with pkt := { q.pkt with data := q.pkt.data ++ List.replicate (64 * n) 0 }, arrived := q.pkt.len + 1,
                  basin := q.basin ++ List.replicate n true, marks := q.marks ++ List.replicate n true }]))
      (s.consumeAll d k, true)

/-- A split leaves a packet of an input VC that was for the other die: sent in part it is discarded, else it is routed again. -/
def splitPkt (q : InPkt) : InPkt :=
  match q.out with
  | some (o, _) =>
    if isBridge o then
      if q.sent = 0 then { q with out := none, pkt := { q.pkt with transit := false, outXp := 0, bridgeClass := 0 } }
      else { q with drop := true }
    else q
  | none => q

/-- What a die had still to send of NoC transactions reaches the other die over the service links (R508): the units in flits not yet
delivered, in STRIPE_SEQ order, and those not yet sent. -/
def State.nocOverService (s : State) (d : Die) : State :=
  let o := d.other
  let rx := (s.bridge o).stripeRx
  let ahead := fun (f : BFlit) => (f.stripe + 4096 - rx) % 4096
  let flits := ((s.bridge d).mods.flatMap (fun m => m.2.buf.filter (fun f => !f.idle && decide (ahead f < 1024)))) ++
    (s.bridge o).held.map (·.2)
  let t : Tbl BFlit := flits.foldl (fun t f => tput t (ahead f) f) []
  let units := t.flatMap (fun f => f.2.units) ++ (s.bridge d).nocTx.map (fun u => .noc u.1 u.2)
  (units.filter BUnit.isNoc).foldl (fun s u => s.bunitIn o u) s

/-- What the bridge's buffers hold on a die is discarded (R507). -/
def State.dropBridge (s : State) (d : Die) : State :=
  let s := s.modBridge d (fun b => { b with mods := b.mods.map (fun m => (m.1, { m.2 with live := false, training := false, buf := [], wire := [] })),
                                            held := [], owed := [], nocTx := [], nocUsed := [], nocRx := [] })
  let s := s.modSwc d (fun x => { x with
    stage := x.stage.filter (fun p => !isBridge p.1),
    owner := x.owner.filter (fun p => !isBridge (p.1 / 32)),
    ins := x.ins.map (fun p => (p.1, p.2.map splitPkt)) })
  let s := ((s.swc d).ins.filter (fun p => isBridge (p.1 / 32))).foldl (fun s p => (s.fillPacket d p.1).1) s
  ((s.swc d).ins.map (·.1)).foldl (fun s k => s.consumeAll d k) s

/-- The device splits (R507). -/
def State.split (s : State) : State :=
  if s.on .a FM.FM_STATE.SPLIT then s
  else
    let s := (s.nocOverService .a).nocOverService .b
    let s := (s.dropBridge .a).dropBridge .b
    let s := (s.wr .a RTB.SPLIT.SPLIT 1).wr .b RTB.SPLIT.SPLIT 1
    let s := s.wrs .a [(FM.FM_STATE.SPLIT, 1), (GLB.STATUS.REG_PATH, 1)]
    let s := (s.modRtb .a (fun r => { r with gsAt := s.now })).modRtb .b (fun r => { r with gsAt := s.now })
    (s.showBridge).event_ 5 0 .a 0 0 false

/-- Move the unacknowledged flits of a retired module to the live modules; they keep their stripe numbers. -/
def State.moveFlits (d : Die) : List BFlit → Nat → State → State
  | [], _, s => s
  | f :: l, i, s =>
    let live := if (s.liveMods d).isEmpty then (List.range 16).filter (fun m => !s.retired 3 .a m) else s.liveMods d
    match live[i % live.length]? with
    | none => s
    | some m => State.moveFlits d l (i + 1) (s.modBmod d m (fun x =>
        let g := { f with seq := x.nextTx }
        { x with nextTx := (x.nextTx + 1) % 65536, buf := x.buf ++ [g], wire := x.wire ++ [g] }))

/-- Modules that are not retired. -/
def State.modsLeft (s : State) : List Nat := (List.range 16).filter (fun m => !s.retired 3 .a m)

/-- Retire a bridge module, and split the device when fewer than four are left (R506, R507). -/
def State.retireMod (s : State) (m cause : Nat) : State :=
  if !s.retirable 3 .a m then s
  else
    let s := s.recordRet 3 .a m cause 0xFFFFFFFF
    let out := fun (s : State) (d : Die) =>
      let flits := (s.bmod d m).buf
      let s := s.modBmod d m (fun x => { x with live := false, training := false, buf := [], wire := [] })
      State.moveFlits d flits 0 s
    let s := (out (out s .a) .b).showBridge
    if s.modsLeft.length < 4 then (s.modsLeft.foldl (fun s k => s.recordRet 3 .a k 1 0xFFFFFFFF) s).split else s

/-- BRIDGE_MODULE_RETRAIN_DONE (R501, R506): a second failure in a row retires the module. -/
def execBridgeModuleRetrainDone (m : Fin 16) (ok : Bool) (s : State) : Host.Outcome State Fault Refusal :=
  .next (
    let x := s.bmod .a m.val
    if !x.training then s
    else if ok then
      let up := fun (s : State) (d : Die) => s.modBmod d m.val (fun x =>
        { x with live := true, training := false, rxAt := s.now, wire := x.buf, awaiting := false, retrains := 0 })
      (up (up s .a) .b).showBridge
    else if 1 ≤ x.retrains then s.retireMod m.val 1
    else
      let again := fun (s : State) (d : Die) => s.modBmod d m.val (fun x => { x with trainAt := s.now, retrains := x.retrains + 1 })
      again (again s .a) .b)

end Sys2Proof.Machine
end

