-- ==== Sys2Proof/Machine/LineCode.lean ====
section
/-! DEFINITION. The line code of a lane (15_lanes.md R477 to R481): RS(544,514) codewords over GF(2^10), alignment codewords,
PAM4 symbols with Gray mapping and precoding, and the blocks of a lane's stream. R477 names the IEEE 802.3 code of that name;
its field polynomial, its generator and the order of its bits are those of that standard (PRESUMED, log entry 167). -/

namespace Sys2Proof.Machine

/-! ## GF(2^10) with x^10 + x^3 + 1 -/

def gfDouble (x : Nat) : Nat := if 2 * x < 1024 then 2 * x else Nat.xor (2 * x) 0x409

def gfMulN : Nat → Nat → Nat → Nat
  | 0, _, _ => 0
  | n + 1, a, b => Nat.xor (if b % 2 = 1 then a else 0) (gfMulN n (gfDouble a) (b / 2))

def gfMul (a b : Nat) : Nat := gfMulN 10 a b

def gfPowN : Nat → Nat → Nat → Nat
  | 0, _, _ => 1
  | n + 1, a, e => gfMul (if e % 2 = 1 then a else 1) (gfPowN n (gfMul a a) (e / 2))

/-- The powers of the primitive element 2, and inverses. -/
def gfExp (e : Nat) : Nat := gfPowN 10 2 (e % 1023)
def gfInv (a : Nat) : Nat := gfPowN 10 a 1022

/-- A polynomial, lowest power first, at a point. -/
def gfEval (p : List Nat) (x : Nat) : Nat := p.foldr (fun c r => Nat.xor c (gfMul r x)) 0

/-! ## RS(544,514): the first symbol of a codeword has the highest power -/

/-- The generator, highest power first without the leading 1: its roots are the powers 0 to 29 of 2. -/
def rsGen : List Nat :=
  (List.range 30).foldl (fun g j =>
    List.zipWith (fun a b => Nat.xor a (gfMul b (gfExp j))) (g ++ [0]) (1 :: g)) []

/-- The thirty parity symbols of a message. -/
def rsParity (msg : List Nat) : List Nat :=
  let g := rsGen
  msg.foldl (fun r m =>
    let fb := Nat.xor m (r.headD 0)
    List.zipWith (fun x c => Nat.xor x (gfMul fb c)) (r.tail ++ [0]) g) (List.replicate 30 0)

/-- The syndromes of a received word. -/
def rsSyndromes (w : List Nat) : List Nat :=
  (List.range 30).map (fun j => let x := gfExp j; w.foldl (fun r c => Nat.xor (gfMul r x) c) 0)

/-- What Berlekamp and Massey's algorithm keeps: the locator, the one before its last change, its degree, the steps since, and
the discrepancy then. -/
structure Locator where
  c : List Nat
  b : List Nat
  len : Nat
  gap : Nat
  disc : Nat
  deriving DecidableEq, Repr

def polyAdd : List Nat → List Nat → List Nat
  | [], q => q
  | p, [] => p
  | a :: p, b :: q => Nat.xor a b :: polyAdd p q

/-- One step, at syndrome n. -/
def Locator.step (syn : List Nat) (x : Locator) (n : Nat) : Locator :=
  let d := (List.range (x.len + 1)).foldl (fun r i => Nat.xor r (gfMul (x.c.getD i 0) (if i ≤ n then syn.getD (n - i) 0 else 0))) 0
  if d = 0 then { x with gap := x.gap + 1 }
  else
    let k := gfMul d (gfInv x.disc)
    let c := polyAdd x.c (List.replicate x.gap 0 ++ x.b.map (gfMul k))
    if 2 * x.len ≤ n then ⟨c, x.c, n + 1 - x.len, 1, d⟩ else { x with c := c, gap := x.gap + 1 }

/-- The powers whose symbols are in error, with the error values (Forney's rule). -/
def rsErrors (syn : List Nat) (x : Locator) : List (Nat × Nat) :=
  let omega := (List.range 30).map (fun n => (List.range (n + 1)).foldl (fun r i => Nat.xor r (gfMul (x.c.getD i 0) (syn.getD (n - i) 0))) 0)
  let slope := (x.c.zipIdx.map (fun t => if t.2 % 2 = 1 then t.1 else 0)).tail
  (List.range 544).filterMap (fun p =>
    let y := gfExp (1023 - p)
    if gfEval x.c y ≠ 0 then none else some (p, gfMul (gfExp p) (gfMul (gfEval omega y) (gfInv (gfEval slope y)))))

/-- Decode a received word of 544 symbols: the codeword within 15 symbol errors of it and their number, or none (R477, R481). -/
def rsDecode (w : List Nat) : Option (List Nat × Nat) :=
  let syn := rsSyndromes w
  if syn.all (· == 0) then some (w, 0)
  else
    let x := (List.range 30).foldl (Locator.step syn) ⟨[1], [1], 0, 1, 1⟩
    let e := rsErrors syn x
    let fixed := w.zipIdx.map (fun t => match e.find? (fun q => q.1 == 543 - t.2) with | some q => Nat.xor t.1 q.2 | none => t.1)
    if x.len ≤ 15 ∧ e.length = x.len ∧ (rsSyndromes fixed).all (· == 0) then some (fixed, e.length) else none

/-! ## Symbols of a codeword as bits and levels (R478) -/

def symbolsOf (n count : Nat) : List Nat := (List.range count).map (fun i => bitsOf n (10 * i) 10)
def symbolsNat (l : List Nat) : Nat := l.foldr (fun x r => x + 1024 * r) 0

/-- Two bits, the first sent the higher, and their level. -/
def grayLevel (v : Nat) : Nat := if v = 0 then 0 else if v = 1 then 1 else if v = 3 then 2 else 3
def grayBits (l : Nat) : Nat := if l = 0 then 0 else if l = 1 then 1 else if l = 2 then 3 else 2

/-- Pairs of bits of a word in the order they are sent. -/
def bitPairs (n count : Nat) : List Nat := (List.range count).map (fun i => 2 * bitsOf n (2 * i) 1 + bitsOf n (2 * i + 1) 1)
def pairsNat (l : List Nat) : Nat := l.foldr (fun v r => v / 2 % 2 + 2 * (v % 2) + 4 * r) 0

/-- Precoding with 1/(1+D) modulo 4 from the last precoded symbol, and its inverse. -/
def precode (last : Nat) : List Nat → List Nat
  | [] => []
  | v :: l => let p := (v + 4 - last % 4) % 4; p :: precode p l
def unprecode (last : Nat) : List Nat → List Nat
  | [] => []
  | p :: l => (p + last) % 4 :: unprecode p l

/-- Levels that a message is sent at, after the last precoded symbol where the lane precodes. -/
def codeLevels (pre : Option Nat) (msg : Nat) : List Nat × Nat :=
  let m := symbolsOf msg 514
  let v := bitPairs (symbolsNat (m ++ rsParity m)) 2720
  let p := match pre with | some last => precode last v | none => v
  (p.map grayLevel, p.getLastD 0)

/-- The symbols that received levels spell. -/
def levelSymbols (pre : Option Nat) (levels : List Nat) : List Nat × Nat :=
  let p := levels.map grayBits
  let v := match pre with | some last => unprecode last p | none => p
  (symbolsOf (pairsNat v) 544, p.getLastD 0)

/-! ## The stream a lane sends (R477, R479) -/

/-- The message of an alignment codeword. -/
def alignMsg (lane rank period phase : Nat) : Nat :=
  0x5A3C96E10F87C32D + lane % 128 * 2 ^ 64 + rank % 4 * 2 ^ 71 + period % 2 ^ 32 * 2 ^ 73 + phase % 32 * 2 ^ 105

/-- Send a codeword. -/
def LaneTx.code (x : LaneTx) (pre : Bool) (msg : Nat) : LaneTx × List Nat :=
  let r := codeLevels (if pre then some x.last else none) msg
  ({ x with last := r.2 }, r.1)

/-- A block of 16 bytes joins the stream: the levels of the codewords that it completes. After 8,192 data codewords goes an alignment
codeword, with the position of the lane's next block in its flit. -/
def LaneTx.block (x : LaneTx) (pre : Bool) (lane rank phase : Nat) (b : List Byte) : LaneTx × List (List Nat) :=
  let msg := x.msg + leNat b * 2 ^ x.bits
  if x.bits + 128 < 5140 then ({ x with msg := msg, bits := x.bits + 128 }, [])
  else
    let (x, l) := ({ x with msg := msg / 2 ^ 5140, bits := x.bits + 128 - 5140, words := x.words + 1 } : LaneTx).code pre (msg % 2 ^ 5140)
    if x.words < 8192 then (x, [l])
    else
      let (x, a) := ({ x with words := 0, period := (x.period + 1) % 2 ^ 32 } : LaneTx).code pre (alignMsg lane rank (x.period + 1) phase)
      (x, [l, a])

/-! ## The stream a lane receives (R479, R481) -/

/-- A message's bits join the stream: the blocks that it completes, each marked when a codeword that it touches was uncorrectable, with
their positions in their flits. -/
def LaneRx.take (x : LaneRx) (lanes msg : Nat) (bad : Bool) : LaneRx :=
  let all := x.msg + msg * 2 ^ x.bits
  let bits := x.bits + 5140
  let blocks := (List.range (bits / 128)).map (fun i =>
    ((x.phase + i * lanes) % 17, leBytes 16 (bitsOf all (128 * i) 128), bad || (i == 0 && x.bad)))
  { x with msg := all / 2 ^ (bits / 128 * 128), bits := bits % 128, bad := bad, phase := (x.phase + bits / 128 * lanes) % 17,
           queue := x.queue ++ blocks, words := x.words + 1 }

/-- An alignment codeword: the next block begins at the next codeword's first bit, at the position it names. Until the port's lanes are
deskewed the blocks before it are dropped. -/
def LaneRx.align (x : LaneRx) (keep : Bool) (msg : Nat) : LaneRx :=
  { x with msg := 0, bits := 0, bad := false, words := 0, period := some (bitsOf msg 73 32), phase := bitsOf msg 105 5 % 17,
           queue := if keep then x.queue else [] }

end Sys2Proof.Machine
end

