-- ==== Sys2Proof/Machine/SwitchCore.lean ====
section
/-! DEFINITION. The switch core (13_switch_core.md R418 to R435): routing at the head of an input VC, random early drop,
allocation of a cell, marking, the holding limit, and ejection (04_polders.md R107). -/

namespace Sys2Proof.Machine

/-- A new packet may be granted an output (R428; 12_routing.md R384). -/
def State.outLive (s : State) (d : Die) (k : Nat) : Bool :=
  if isNet k then s.portLive d (s.keyPort k) else if isBridge k then s.bridgeUp else true

/-! ## Random early drop (R433, R434) -/

/-- The drop decision for a packet with a queue of q units. -/
def State.redDrops (s : State) (d : Die) (p : Pkt) (q : Nat) : State × Bool :=
  let i := 3 * p.vn + min 2 p.colour
  let lo := s.rd d (SWC.RED_TH.MIN_TH i)
  let hi := s.rd d (SWC.RED_TH.MAX_TH i)
  let pr := min 256 (s.rd d (SWC.RED_P.MAX_P_X256 i))
  if hi ≤ lo ∨ hi ≤ q then (s, decide (hi ≤ q))
  else if q < lo then (s, false)
  else
    let (s, r) := s.drawNat
    (s, decide (r % 65536 * (256 * (hi - lo)) < pr * (q - lo) * 65536))

/-- Count and record a random early drop. -/
def State.redCount (s : State) (d : Die) (p : Pkt) : State :=
  let s := s.bump d (if p.colour = 0 then SWC.RED_DROPS_GREEN.COUNT else if p.colour = 1 then SWC.RED_DROPS_YELLOW.COUNT
    else SWC.RED_DROPS_RED.COUNT)
  let s := s.wrs d [(SWC.LAST_RED_DROP.DEST_FEA, p.dest), (SWC.LAST_RED_DROP.COLOUR, p.colour), (SWC.LAST_RED_DROP.VN, p.vn),
    (SWC.LAST_RED_DROP.POLDER, p.polder)]
  (s.polderCount d p.polder 4 1).event d 5 (some p.polder)

/-! ## Routing at the head of an input VC (R418, R420) -/

/-- The head packet's output is named: on an output of this die random early drop decides, once for the packet. -/
def State.nameOutput (s : State) (d : Die) (k : Nat) (q : InPkt) (p : Pkt) (port vc : Nat) : State :=
  let here := !isBridge port
  let (s, lost) := if here && !q.decided && s.on d SWC.SWC_CFG.MODE && p.vn != vMGT then s.redDrops d p (s.vcQueue d port vc) else (s, false)
  if lost then (s.redCount d p).dropHead d k
  else s.modSwc d (fun x => x.setIns k ({ q with pkt := p, out := some (port, vc), decided := q.decided || here } :: (x.inList k).tail))

/-- The bridge port for a packet: an ordered one by its hash, another where the fewest units wait (12_routing.md R396). -/
def State.pickBridge (s : State) (d : Die) (p : Pkt) : State × Nat :=
  let ports := (List.range 8).map bpKey
  if p.ordered then (s, bpKey p.hash)
  else match s.choose d p (ports.map (fun b => (b, s.outUnits d b (fun _ => true)))) with
    | (s, some b) => (s, b)
    | (s, none) => (s, bpKey 0)

/-- Send a packet across the bridge toward an output of the other die, in a bridge class (R379, R420). -/
def State.crossTo (s : State) (d : Die) (k : Nat) (q : InPkt) (p : Pkt) (xp cls : Nat) : State :=
  let (s, b) := s.pickBridge d p
  s.nameOutput d k q { p with outXp := xp, bridgeClass := cls, transit := true } b (p.vn * 8 + (cls - 1))

/-- Act on a route. -/
def State.takeRoute (s : State) (d : Die) (k : Nat) (q : InPkt) (p : Pkt) (r : Route) : State :=
  let p := { p with transit := false, outXp := 0, bridgeClass := 0 }
  match r with
  | .discard reason => (s.routeDrop d p reason).dropHead d k
  | .eject =>
    if ejectDie p.dest = d then s.nameOutput d k q p (ipKey p.hash) (p.vn * 8) else s.crossTo d k q p (xpOf (ipKey p.hash)) 6
  | .hop np pos =>
    let (e, i) := s.portOf np
    let key := s.portKey i (posVc pos)
    if e = d then s.nameOutput d k q { p with bridgeClass := pos } key (p.vn * 8 + posVc pos) else s.crossTo d k q p (xpOf key) pos

/-- Route the packet at the head of an input VC, unless it has an output that it can take. -/
def State.routeHead (s : State) (d : Die) (k : Nat) : State :=
  match (s.swc d).inList k with
  | [] => s
  | q :: _ =>
    if q.drop || q.sent != 0 || q.granted || q.arrived == 0 || (match q.out with | some (o, _) => s.outLive d o | none => false) then s
    else
      let p := q.pkt
      let tagged := p.transit && q.out.isNone
      let key := keyOf p.outXp
      if tagged && s.outLive d key then
        s.nameOutput d k q { p with transit := false } key (if isNet key then p.vn * 8 + posVc p.bridgeClass else p.vn * 8)
      else
        let (s, p, r) := s.route d p (isInternal (k / 32) && !tagged)
        s.takeRoute d k q p r

/-- ROUTE_PACKET (R386, R418, R420, R433), for the input VC of a key port * 32 + vn * 8 + vc. -/
def execRoutePacket (d : Die) (k : Fin 2560) (s : State) : Host.Outcome State Fault Refusal :=
  .next (s.routeHead d k.val)

/-! ## The holding limit (R400) -/

def State.holdNs (s : State) (d : Die) : Nat := us (s.rd d RTB.HOLD_LIMIT.US)

/-- Give back the credit of a unit that was staged and is discarded. -/
def State.uncredit (s : State) (d : Die) (port : Nat) (u : OUnit) : State :=
  if isInternal port then s
  else s.modSwc d (fun x => if u.shared then { x with shr := nadd x.shr port 1 } else { x with ded := nadd x.ded (port * 32 + u.vc) 1 })

/-- Units of a VC at the front of a staging buffer up to the tail of their packet, and the others. -/
def splitStage (v : Nat) : List OUnit → Bool → List OUnit × List OUnit
  | [], _ => ([], [])
  | u :: l, done =>
    if u.vc = v ∧ done = false then let r := splitStage v l u.tail; (u :: r.1, r.2) else let r := splitStage v l done; (r.1, u :: r.2)

/-- Discard the packet whose head waits in a staging buffer: its staged units, and those still to come. -/
def State.dropStaged (s : State) (d : Die) (port : Nat) (u : OUnit) : State :=
  let (gone, kept) := splitStage u.vc ((s.swc d).staged port) false
  let s := gone.foldl (fun s u => s.uncredit d port u) (s.modSwc d (fun x => x.setStage port kept))
  let o := port * 32 + u.vc
  let s := s.routeDrop d (pktOfHdr u.bytes) 3
  if gone.any (fun x => x.tail) then s
  else match tget (s.swc d).owner o with
    | some k => (s.modSwc d (fun x => { x with owner := tdel x.owner o })).dropHead d k
    | none => s

/-- HOLD_LIMIT_EXPIRY (R400): the head of a packet has waited too long at a crossbar input or in a staging buffer. -/
def execHoldLimitExpiry (d : Die) (place : HoldAt) (s : State) : Host.Outcome State Fault Refusal :=
  .next (match place with
    | .input k =>
      match (s.swc d).inList k.val with
      | q :: _ =>
        if q.sent = 0 ∧ !q.granted ∧ !q.drop ∧ q.since + s.holdNs d < s.now then (s.routeDrop d q.pkt 3).dropHead d k.val else s
      | [] => s
    | .staging p =>
      match ((s.swc d).staged p.val).find? (fun u => u.head && decide (u.since + s.holdNs d < s.now)) with
      | some u => s.dropStaged d p.val u
      | none => s)

/-! ## Allocation of a cell (R427 to R429) -/

/-- Sub-ports of a port, as inputs and as outputs. -/
def subPorts (k : Nat) : List Nat :=
  if isNet k then [k / 2] else if isInternal k then [32 + (k - 64)] else (List.range 4).map (fun i => 40 + 4 * (k - 72) + i)

/-- A unit at the head of an input VC that wants an output VC. -/
structure Want where
  ivc : Nat
  out : Nat
  vc : Nat
  head : Bool
  deriving DecidableEq, Repr

/-- Units routed and waiting: one for each input VC whose head packet has a unit to send. -/
def State.wants (s : State) (d : Die) : List Want :=
  (s.swc d).ins.filterMap (fun p => match p.2 with
    | q :: _ => match q.out with
      | some (o, v) => if !q.drop && decide (q.sent < q.arrived) then some ⟨p.1, o, v, q.sent == 0⟩ else none
      | none => none
    | [] => none)

def stageCap (k : Nat) : Nat := if isNet k then 32 else if isInternal k then 64 else 128

/-- A unit is eligible (R428). -/
def State.eligible (s : State) (d : Die) (w : Want) : Bool :=
  (!w.head || ((tget (s.swc d).owner (w.out * 32 + w.vc)).isNone && s.outLive d w.out)) &&
    (isInternal w.out || s.hasCredit d w.out w.vc) && decide (((s.swc d).staged w.out).length < stageCap w.out) &&
    (!isNet w.out || s.lanesPerPort != 1 || w.out % 2 == (s.swc d).cell % 2)

/-- A match of an input sub-port with an output sub-port. -/
structure Match_ where
  i : Nat
  o : Nat
  w : Want
  /-- Granted as MGT's own turn, and in the first iteration. -/
  prio : Bool
  first : Bool
  deriving DecidableEq, Repr

/-- Requests at an output sub-port. -/
def requestsAt (ws : List Want) (ms : List Match_) (o : Nat) : List (Nat × Want) :=
  if ms.any (fun m => m.o == o) then []
  else ws.flatMap (fun w =>
    if (subPorts w.out).contains o && !ms.any (fun m => m.w.ivc == w.ivc || (m.w.out == w.out && m.w.vc == w.vc)) then
      ((subPorts (w.ivc / 32)).filter (fun i => !ms.any (fun m => m.i == i))).map (fun i => (i, w))
    else [])

/-- OUT_WEIGHT of a virtual network; MGT's is 1 (R429). -/
def State.outWeight (s : State) (d : Die) (n : Nat) : Nat :=
  if n = 0 then max 1 (s.rd d SWC.OUT_WEIGHT.REQ) else if n = 1 then max 1 (s.rd d SWC.OUT_WEIGHT.RSP)
  else if n = 2 then max 1 (s.rd d SWC.OUT_WEIGHT.COL) else 1

/-- The element at or after a pointer in the cyclic order of n places. -/
def nextAfter {α : Type} (n ptr : Nat) (place : α → Nat) : List α → Option α
  | [] => none
  | x :: l => some (l.foldl (fun b y => if (place y + n - ptr % n) % n < (place b + n - ptr % n) % n then y else b) x)

/-- Deficits of an output for the networks that request: a new round when none has any left. -/
def State.deficits (s : State) (d : Die) (o : Nat) (vns : List Nat) : List (Nat × Nat) :=
  let now := vns.map (fun n => (n, nget (s.swc d).deficit (4 * o + n)))
  if now.all (fun p => p.2 == 0) then vns.map (fun n => (n, s.outWeight d n)) else now

/-- MGT may go ahead: no MGT unit went ahead in the last 8 cell times of the output. -/
def State.mgtTurn (s : State) (d : Die) (o : Nat) : Bool :=
  match tget (s.swc d).mgtAt o with | some c => decide (c + 8 ≤ (s.swc d).cell) | none => true

/-- The grant of an output sub-port, in the order of R429. -/
def State.grantAt (s : State) (d : Die) (o : Nat) (first : Bool) (rs : List (Nat × Want)) : Option Match_ :=
  let vnOf := fun (r : Nat × Want) => r.2.vc / 8
  let vns := (List.range 4).filter (fun n => rs.any (fun r => vnOf r == n))
  let prio := vns.contains vMGT && s.mgtTurn d o
  let n? := if prio then some vMGT else ((s.deficits d o vns).find? (fun p => 0 < p.2)).map (·.1)
  n?.bind (fun n =>
    let rs := rs.filter (fun r => vnOf r == n)
    (nextAfter 8 (nget (s.swc d).vcPtr (4 * o + n)) (fun (r : Nat × Want) => r.2.vc % 8) rs).bind (fun r0 =>
      (nextAfter 72 (nget (s.swc d).grantPtr o) (fun (r : Nat × Want) => r.1) (rs.filter (fun r => r.2.vc == r0.2.vc))).map (fun r =>
        ⟨r.1, o, r.2, prio, first⟩)))

/-- Accept: each input takes the first output at or after its pointer; a VC moves at most one unit in a cell. -/
def State.accept (s : State) (d : Die) (grants ms : List Match_) : List Match_ :=
  (grants.map (·.i)).dedup.foldl (fun ms i =>
    let mine := grants.filter (fun g => g.i == i && !ms.any (fun m => m.w.ivc == g.w.ivc || (m.w.out == g.w.out && m.w.vc == g.w.vc)))
    match nextAfter 72 (nget (s.swc d).acceptPtr i) (fun (g : Match_) => g.o) mine with
    | some g => ms ++ [g]
    | none => ms) ms

/-- One iteration of request, grant and accept. -/
def State.iteration (s : State) (d : Die) (ws : List Want) (first : Bool) (ms : List Match_) : List Match_ :=
  let outs := (ws.flatMap (fun w => subPorts w.out)).dedup
  let grants := outs.filterMap (fun o => let rs := requestsAt ws ms o; if rs.isEmpty then none else s.grantAt d o first rs)
  s.accept d grants ms

/-- Pointers, deficits and MGT's turn after a match. -/
def State.afterMatch (s : State) (d : Die) (ws : List Want) (m : Match_) : State :=
  let n := m.w.vc / 8
  let rs := ws.filter (fun w => (subPorts w.out).contains m.o)
  let vns := (List.range 4).filter (fun k => rs.any (fun w => w.vc / 8 == k))
  let df := s.deficits d m.o vns
  s.modSwc d (fun x =>
    let x := if m.first then { x with grantPtr := nput x.grantPtr m.o ((m.i + 1) % 72), acceptPtr := nput x.acceptPtr m.i ((m.o + 1) % 72) } else x
    let x := { x with vcPtr := nput x.vcPtr (4 * m.o + n) ((m.w.vc % 8 + 1) % 8) }
    if m.prio then { x with mgtAt := tput x.mgtAt m.o x.cell }
    else
      let df := (List.range 4).foldl (fun t k =>
        nput t (4 * m.o + k) (match df.find? (fun p => p.1 == k) with | some p => if k = n then p.2 - 1 else p.2 | none => 0)) x.deficit
      { x with deficit := df })

/-! ## Moving a unit (R411, R421, R424, R432) -/

def State.markThresh (s : State) (d : Die) (port vn : Nat) : Nat :=
  let t := if isInternal port then 2 else if s.role d (s.keyPort port) = .global then 1 else 0
  if vn = 0 then s.rd d (SWC.MARK_THRESH.REQ t) else if vn = 1 then s.rd d (SWC.MARK_THRESH.RSP t) else s.rd d (SWC.MARK_THRESH.COL t)

/-- Pressure of an output (12_routing.md R385). -/
def State.outPressure (s : State) (d : Die) (port : Nat) : Nat :=
  if isNet port then s.pressure d (s.keyPort port) else min 63 (s.outUnits d port (fun v => v / 8 != vMGT) / 256)

/-- What a header unit carries when it is granted an output, and whether CE is set there. -/
def State.departing (s : State) (d : Die) (port vc : Nat) (p : Pkt) : Pkt × Bool :=
  if isBridge port then (p, false)
  else
    let t := s.markThresh d port p.vn
    let mark := p.vn != vMGT && t != 0xFFFF && decide (t < s.vcQueue d port vc)
    let p := { p with ce := p.ce || mark, pressure := max p.pressure (s.outPressure d port), outXp := 0, transit := false }
    (if isNet port then { p with hopClass := p.bridgeClass, vc := vc % 8, bridgeClass := 0 } else { p with bridgeClass := 0 }, mark)

/-- Counts at a header's grant (18_counters.md R547, R548; 12_routing.md R397). -/
def State.countGrant (s : State) (d : Die) (port : Nat) (p : Pkt) (mark : Bool) : State :=
  let x := xpIdx port
  let s := (s.countBy d (PCU.PORT_CTR.COUNT (4 * x)) (pktBytes p)).countBy d (PCU.PORT_CTR.COUNT (4 * x + 2)) 1
  let s := s.event d 1 (some p.polder)
  let s := s.when mark (fun s => (s.bump d SWC.CE_MARKED.COUNT).event d 4 (some p.polder))
  let s := s.when (isInternal port) (fun s => s.event d 6 (some p.polder))
  s.when (isNet port && s.role d (s.keyPort port) == .global) (fun s =>
    s.modRtb d (fun r => { r with winBytes := nadd r.winBytes (s.keyPort port) (pktBytes p) }))

/-- Move the head unit of an input VC to its output; `at_` is the state at the start of the cell. -/
def State.moveUnit (at_ s : State) (d : Die) (w : Want) : State :=
  match (s.swc d).inList w.ivc with
  | [] => s
  | q :: l =>
    match (if isInternal w.out then some (s, false) else s.takeCredit d w.out w.vc) with
    | none => s
    | some (s, shared) =>
      let (p, mark) := if w.head then at_.departing d w.out w.vc q.pkt else (q.pkt, false)
      let q := { q with pkt := p, granted := true }
      let s := s.modSwc d (fun x => x.setIns w.ivc (q :: l))
      let s := s.when w.head (fun s => s.countGrant d w.out p mark)
      let tail := q.sent == p.len
      let o := w.out * 32 + w.vc
      let u : OUnit := { vc := w.vc, bytes := unitBytes p q.sent, shared := shared, poison := q.marks.getD q.sent false, head := w.head,
                         tail := tail, since := s.now }
      let s := s.modSwc d (fun x => { x with owner := if tail then tdel x.owner o else tput x.owner o w.ivc })
      let s := if isInternal w.out then
          if tail then s.modSwc d (fun x => { x with ejected := x.ejected ++
            [(w.out, { p with badHdr := q.marks.head? == some true, badData := q.marks.tail.any id }, q.since)] }) else s
        else s.modSwc d (fun x => x.setStage w.out (x.staged w.out ++ [u]))
      s.unitOut d w.ivc 0

/-- Stalls and unmatched inputs of a cell (18_counters.md R547, R548). -/
def State.countStalls (s : State) (d : Die) (waiting ws : List Want) (ms : List Match_) : State :=
  let stalled := ((waiting.map (·.out)).dedup).filter (fun o =>
    !isInternal o && waiting.all (fun w => w.out != o || !s.hasCredit d w.out w.vc))
  let s := stalled.foldl (fun s o => s.countBy d (PCU.PORT_CTR.COUNT (4 * xpIdx o + 3)) 1) s
  let left := ws.filter (fun w => !ms.any (fun m => m.w.ivc == w.ivc))
  let subs := ((left.flatMap (fun w => subPorts (w.ivc / 32))).dedup).filter (fun i => !ms.any (fun m => m.i == i))
  subs.foldl (fun s _ => s.event d 2 none) s

/-- CROSSBAR_ALLOCATION (R428): one cell time of a die's switch core. -/
def execCrossbarAllocation (d : Die) (s : State) : Host.Outcome State Fault Refusal :=
  .next (
    let waiting := s.wants d
    let ws := waiting.filter (s.eligible d)
    let m1 := s.iteration d ws true []
    let m2 := s.iteration d ws false m1
    let ms := s.iteration d ws false m2
    let at_ := s
    let s := s.countStalls d waiting ws ms
    let s := ms.foldl (fun s m => (s.afterMatch d ws m).when (isInternal m.w.out || s.hasCredit d m.w.out m.w.vc) (fun s => State.moveUnit at_ s d m.w)) s
    let s := s.modSwc d (fun x => { x with cell := x.cell + 1 })
    (s.pumpAll d).bridgeTx d)

/-! ## Ejection (04_polders.md R107; R415, R416) -/

/-- A packet of polder 0 is addressed to a warden's queue (test 2): a tagged one names its function, and others may reach any
function of the host port. -/
def State.toWarden (s : State) (p : Pkt) : Bool :=
  let h := endHp p.dest
  if p.command = cTAG_EAGER ∨ p.command = cTAG_RTS then s.isWarden ⟨h, ⟨p.opf 96 8 % 256, Nat.mod_lt _ (by decide)⟩⟩
  else (List.range 256).any (fun f => s.isWarden ⟨h, ⟨f % 256, Nat.mod_lt _ (by decide)⟩⟩)

/-- What ejection does to a packet. -/
inductive Ejected where
  | pass
  | reject (status : Nat) (c : Fld) (reason : Nat)
  | drop (c : Fld) (reason : Nat)
  deriving DecidableEq, Repr

/-- The tests of R107, in order. -/
def State.ejectTest (s : State) (d : Die) (p : Pkt) : Ejected :=
  let e := feaEnd p.dest
  if !s.endpointOk p.dest then .reject stUNREACHABLE DIKE.EJ_ABSENT_PORT.COUNT 3
  else if (p.vn == vMGT && p.polder != 0) || (p.polder == 0 && p.vn != vMGT && !s.toWarden p) then .drop DIKE.EJ_CLASS_DROPS.COUNT 4
  else if p.polder = 0 then .pass
  else match s.polder? d p.polder with
    | none => .reject stREMOTE_ACCESS DIKE.EJ_NOT_RESIDENT.COUNT 5
    | some (_, x) =>
      if x.closed then .reject stCLOSED DIKE.EJ_CLOSED_DROPS.COUNT 6
      else if !x.bound.any (fun b => b / 256 == e % 2) then .reject stREMOTE_ACCESS DIKE.EJ_NOT_BOUND.COUNT 7
      else .pass

/-- A sequenced packet at the TRU, passed or rejected. -/
def State.toTru (s : State) (d : Die) (p : Pkt) (r : Option Nat) : State :=
  s.modTru d (fun t => { t with inbox := t.inbox ++ [⟨p, r⟩] })

/-- An MGT_MSG: fabric time to the PCU, the rest to the SVC (19_startup.md R576, R578). -/
def State.mgtIn (s : State) (d : Die) (p : Pkt) (since : Nat) : State :=
  let type := leNat (p.data.take 1)
  if type = 5 then s.modDie d (fun x => { x with syncIn := x.syncIn ++ [(p, x.ft.ns - (s.now - since))] })
  else if p.polder ≠ 0 ∨ !(type = 1 ∨ type = 2 ∨ type = 6) ∨ 1024 ≤ s.svc.inbox.length then s.bump .a SVC.MGT_RX_DROPS.COUNT
  else { s.bump .a SVC.MGT_RX.COUNT with svc := { s.svc with inbox := s.svc.inbox ++ [p] } }

/-- PACKET_EJECTED (R107, R415, R416): the oldest packet that has left by an internal port of a die. -/
def execPacketEjected (d : Die) (s : State) : Host.Outcome State Fault Refusal :=
  .next (match (s.swc d).ejected with
    | [] => s
    | (port, p, since) :: l =>
      let s := s.modSwc d (fun x => { x with ejected := l })
      if p.badHdr || (p.badData && !p.srcPoison) || !assigned p.command then s.bump d SWC.FORMAT_DROPS.COUNT
      else if p.command = cMGT_MSG then s.mgtIn d p since
      else if p.command = cGROUP_STATUS then s.modRtb d (fun r => { r with inbox := r.inbox ++ [p] })
      else if isControl p.command then s.modTru d (fun t => { t with ctlIn := t.ctlIn ++ [p] })
      else if s.staleCheck d (port - 64) then s
      else match s.ejectTest d p with
        | .pass => ((s.polderCount d p.polder 2 1).polderCount d p.polder 3 (pktBytes p)).toTru d p none
        | .reject st c reason => (s.ejectDrop d p c reason).toTru d p (some st)
        | .drop c reason => s.ejectDrop d p c reason)

end Sys2Proof.Machine
end

