-- ==== Sys2Proof/Machine/Link.lean ====
section
/-! DEFINITION. The link layer (14_link_layer.md): flits, acknowledgement and replay, credits, negotiation, retrains, width and
speed changes, and retirement of a port. -/

namespace Sys2Proof.Machine

def llu0 : Llu :=
  { started := false, began := 0, downAt := 0, rxAt := 0, ran := false, gaveUp := false, nextTx := 0, nextRx := 0, gotData := false,
    buf := [], replayAt := none, awaiting := false, nackFrom := none, rttBest := none, rttAt := 0, totals := [], told := [], chan := 0,
    seen := [], inst := 0, pinst := 0, offer := none, agreeing := false, sendAt := 0, change := none, useMask := 0, useRate := 0,
    fails := [], stamp := none, negAt := 0, fresh := false, stripe := 0, rxPos := 0, rxPart := [], rxBad := false, rxOpen := false }

def State.llu (s : State) (d : Die) (i : Nat) : Llu := (tget (s.die d).llus i).getD llu0
def State.setLlu (s : State) (d : Die) (i : Nat) (l : Llu) : State := s.modDie d (fun x => { x with llus := tput x.llus i l })
def State.modLlu (s : State) (d : Die) (i : Nat) (f : Llu → Llu) : State := s.setLlu d i (f (s.llu d i))

/-! ## States of LINK_STATE -/

def lsDISABLED : Nat := 0
def lsTRAINING : Nat := 1
def lsNEGOTIATE : Nat := 2
def lsACTIVE : Nat := 3
def lsCHANGING : Nat := 4
def lsFAILED : Nat := 5
def lsRETIRED : Nat := 6

/-- The next GROUP_STATUS of each die is due at once: the liveness of a port of the device may have changed (R465; 12_routing.md R383). -/
def State.liveChange (s : State) : State :=
  (s.modRtb .a (fun r => { r with gsAt := s.now })).modRtb .b (fun r => { r with gsAt := s.now })

/-- Enter a link state. -/
def State.setLink (s : State) (d : Die) (i st : Nat) : State :=
  (s.wr d (LLU.LINK_STATE.STATE i) st).when (s.linkSt d i == lsACTIVE || st == lsACTIVE) (fun s => s.liveChange)

/-! ## Lanes of a port (R453; 15_lanes.md R487, R489, R491) -/

/-- LNE page base of a lane of a die. -/
def lneBase (n : Nat) : Nat := 0x3000000 + 0x4000 * n

def tx0 : LaneTx := ⟨0, 0, 0, 0, 0⟩
def rx0 : LaneRx := ⟨0, 0, false, 0, none, 0, 0, []⟩

def lane0 : Lane :=
  let f : TFrame := { phase := 0, rank := 0, rate := 0, reach := 0, rxReady := false, fecLocked := false, reqTap := 0, reqAction := 0,
                      reqPreset := 0, rspStatus := 0, reqToggle := false, rspToggle := false, laneNum := 0, prbsPattern := 0,
                      prbsAck := false }
  { stepAt := 0, trainAt := 0, full := false, tx := f, lastReq := none, requests := 0, qualAt := 0, qualCw := 0, qualSym := 0,
    qualUnc := 0, qualLong := false, qualFails := 0, rxReady := false, passed := false, partner := none, adaptAt := 0, back := 0,
    prbsAt := 0, ffe := List.replicate 32 0, code := tx0, line := rx0 }

def State.lane (s : State) (d : Die) (n : Nat) : Lane := (tget (s.die d).lanes n).getD lane0
def State.modLane (s : State) (d : Die) (n : Nat) (f : Lane → Lane) : State :=
  s.modDie d (fun x => { x with lanes := tput x.lanes n (f ((tget x.lanes n).getD lane0)) })

def State.laneSt (s : State) (d : Die) (n : Nat) : Nat := s.rd d (LNE.LNE_STATE.STATE n)

/-- Lanes of a port, by rank. -/
def State.portLanes (s : State) (i : Nat) : List Nat := (List.range s.lanesPerPort).map (fun r => i * s.lanesPerPort + r)
def State.laneRank (s : State) (n : Nat) : Nat := n % s.lanesPerPort
def State.lanePort (s : State) (n : Nat) : Nat := n / s.lanesPerPort

/-- A lane may train: enabled and not retired, with its die and device up. -/
def State.laneUsable (s : State) (d : Die) (n : Nat) : Bool :=
  s.on d (HDR.CTRL.ENABLE (lneBase n)) && !s.retired 1 d (d.num * 64 + n) && !s.dieLost d && !s.svc.tripped

/-- A lane of a port begins to send and to take codewords (FEC_LOCK): the streams of all the port's lanes begin anew together. -/
def State.codeReset (s : State) (d : Die) (i : Nat) : State :=
  ((s.portLanes i).foldl (fun s n => s.modLane d n (fun l => { l with code := tx0, line := rx0 })) s).modLlu d i
    (fun l => { l with stripe := 0, rxPos := 0, rxPart := [], rxBad := false, rxOpen := false })

/-- Enter a training state of a lane. -/
def State.laneStep (s : State) (d : Die) (n st : Nat) : State :=
  ((s.wr d (LNE.LNE_STATE.STATE n) st).modLane d n (fun l => { l with stepAt := s.now })).when (st == 5) (fun s => s.codeReset d (s.lanePort n))

/-- The PLL of a quad stops when all four of its lanes are in Sarabande (15_lanes.md R491). -/
def State.pllRest (s : State) (d : Die) (q : Nat) : State :=
  if (List.range 4).all (fun k => s.laneSt d (4 * q + k) == 0 || s.laneSt d (4 * q + k) == 11) then
    s.modDie d (fun x => { x with plls := x.plls.filter (· != q), pllAt := tdel x.pllAt q })
  else s

/-- A lane goes to Sarabande (15_lanes.md R491): everything but its registers is lost. -/
def State.laneOff (s : State) (d : Die) (n : Nat) : State :=
  State.pllRest (d := d) (q := n / 4) <|
  (s.wrs d [(LNE.LNE_STATE.STATE n, if s.retired 1 d (d.num * 64 + n) then 11 else 0), (LNE.LNE_STATE.RATE n, 0)]).modLane d n
    (fun l => { lane0 with qualFails := l.qualFails })

/-- A quad's PLL is locked. -/
def State.pllOn (s : State) (d : Die) (q : Nat) : Bool := (s.die d).plls.contains q

/-- Begin training a lane, in full or from stored coefficients (15_lanes.md R487, R489). -/
def State.laneStart (s : State) (d : Die) (n rate : Nat) (full : Bool) : State :=
  if !s.laneUsable d n then s
  else
    let stored := !full && (s.laneSt d n == 7 || s.laneSt d n == 8 || s.laneSt d n == 9)
    let pll := s.pllOn d (n / 4)
    let s := s.wrs d [(LNE.LNE_STATE.STATE n, if stored then 5 else if pll then 2 else 1), (LNE.LNE_STATE.RATE n, rate)]
    let s := s.modLane d n (fun l => { l with stepAt := s.now, trainAt := s.now, full := !stored, lastReq := none, requests := 0, rxReady := stored,
                                              passed := false, partner := none, qualLong := false })
    let s := s.when stored (fun s => s.codeReset d (s.lanePort n))
    if pll then s else s.modDie d (fun x => { x with pllAt := if (tget x.pllAt (n / 4)).isSome then x.pllAt else tput x.pllAt (n / 4) s.now })

/-- LANE_RATE of a port as a code, and its lanes that may be used, by rank. -/
def State.portRate (s : State) (d : Die) (i : Nat) : Nat := s.rd d (LNE.LNE_CFG.RATE_MAX (i * s.lanesPerPort))
def State.goodMask (s : State) (d : Die) (i : Nat) : Nat :=
  ((s.portLanes i).filter (s.laneUsable d)).foldl (fun m n => m + 2 ^ s.laneRank n) 0

/-- Train the lanes of a port that are to be used; the rest go to Sarabande. -/
def State.trainPort (s : State) (d : Die) (i : Nat) (full : Bool) : State :=
  let l := s.llu d i
  (s.portLanes i).foldl (fun s n => if bitOf l.useMask (s.laneRank n) then s.laneStart d n l.useRate full else s.laneOff d n) s

/-- Lanes of a port that have trained. -/
def State.trainedMask (s : State) (d : Die) (i : Nat) : Nat :=
  ((s.portLanes i).filter (fun n => s.laneSt d n == 7)).foldl (fun m n => m + 2 ^ s.laneRank n) 0

/-- A new attempt: every lane that may be used takes part. -/
def State.attempt (s : State) (d : Die) (i : Nat) (full : Bool) : State :=
  let l := s.llu d i
  let mask := if l.useMask % 16 = 0 then s.goodMask d i else l.useMask
  let rate := if l.useRate = 0 then s.portRate d i else l.useRate
  let s := s.setLlu d i { l with began := s.now, useMask := mask, useRate := rate, agreeing := false, offer := none }
  (s.setLink d i lsTRAINING).trainPort d i full

/-! ## The flit (R448 to R452) -/

/-- Unit descriptor of a unit. -/
def unitDesc (u : OUnit) : Nat := 1 + 2 * (3 * (u.vc / 8) + u.vc % 8) + 32 * b2n u.shared + 64 * b2n u.poison

def udsOf : List OUnit → Nat → Nat
  | [], _ => 0
  | u :: l, k => unitDesc u * 2 ^ (4 + 7 * k) + udsOf l (k + 1)

/-- The 272 bytes of a flit. -/
def flitBytes (type uds : Nat) (ackValid nack : Bool) (ack ch total : Nat) (units : List Byte) (seq : Nat) : List Byte :=
  let cw := type + uds + b2n ackValid * 2 ^ 32 + b2n nack * 2 ^ 33 + ack % 65536 * 2 ^ 34 + ch * 2 ^ 50 + total % 1024 * 2 ^ 54
  let b := leBytes 8 cw ++ units ++ List.replicate (256 - units.length) 0
  b ++ leBytes 8 (crc64 b seq).toNat

/-- Sequence number that an IDLE or CHANGE flit is computed with (R452). -/
def Llu.pointer (l : Llu) : Nat := l.replayAt.getD l.nextTx

/-- Channels of the port's type: dedicated ones, 12, and 13 in the four-lane grouping. -/
def State.channels (s : State) : List Nat := List.range (if s.lanesPerPort = 4 then 14 else 13)

/-- The credit channel of the next flit: one whose total has changed, in rotation, or the next in turn (R462). -/
def State.creditTurn (s : State) (l : Llu) : Nat :=
  let n := s.channels.length
  let order := (List.range n).map (fun k => (l.chan + k) % n)
  (order.find? (fun c => nget l.totals c != nget l.told c)).getD (l.chan % n)

/-- The lanes that a port's flits are striped over, by lane number (R453): the active ones, or those that its training uses. -/
def State.codeLanes (s : State) (d : Die) (i : Nat) : List Nat :=
  let m := if s.linkSt d i = lsACTIVE then s.rd d (LLU.LINK_STATE.LANES_ACTIVE i) else (s.llu d i).useMask
  (s.portLanes i).filter (fun n => bitOf m (s.laneRank n))

/-- A lane sends codewords: it is in FEC_LOCK, QUALIFY or TRAINED. -/
def State.laneCodes (s : State) (d : Die) (n : Nat) : Bool := decide (5 ≤ s.laneSt d n ∧ s.laneSt d n ≤ 7)

/-- Precoding at the lane's rate (15_lanes.md R478): SHORT mode, at 448 and 224 Gb/s. -/
def State.precodes (s : State) (d : Die) (n : Nat) : Bool := !s.on d (LNE.LNE_CFG.REACH n) && decide (3 ≤ s.rd d (LNE.LNE_STATE.RATE n))

/-- A block of a flit goes into a lane's stream. -/
def State.sendBlock (s : State) (d : Die) (n phase : Nat) (b : List Byte) : State :=
  if !s.laneCodes d n then s
  else
    let r := (s.lane d n).code.block (s.precodes d n) n (s.laneRank n) phase b
    r.2.foldl (fun s l => s.emit (.symbols (d.num * 64 + n) l)) (s.modLane d n (fun l => { l with code := r.1 }))

/-- A flit is cut into its 17 blocks, which go to the lanes in turn (R453). -/
def State.layFlit (s : State) (d : Die) (i : Nat) (b : List Byte) : State :=
  let lanes := s.codeLanes d i
  let at_ := (s.llu d i).stripe
  if lanes.isEmpty then s else
  let s := (List.range 17).foldl (fun s j => match lanes[(at_ + j) % lanes.length]? with
    | some n => s.sendBlock d n ((j + lanes.length) % 17) ((b.drop (16 * j)).take 16)
    | none => s) s
  s.modLlu d i (fun l => { l with stripe := (at_ + 17) % lanes.length })

/-- Send a flit of a type with a sequence number on a port. -/
def State.emitFlit (s : State) (d : Die) (i type uds : Nat) (units : List Byte) (seq : Nat) : State :=
  let l := s.llu d i
  let c := s.creditTurn l
  let b := flitBytes type uds l.gotData l.awaiting ((l.nextRx + 65535) % 65536) c (nget l.totals c) units seq
  ((s.setLlu d i { l with told := nput l.told c (nget l.totals c), chan := c + 1 }).emit (.flit (s.npOf d i) b)).layFlit d i b

/-- In training the lanes send codewords of IDLE content, once all that the port uses are that far (15_lanes.md R487). -/
def State.idleContent (s : State) (d : Die) (i : Nat) : State :=
  let lanes := s.codeLanes d i
  if lanes.all (s.laneCodes d) then s.layFlit d i (flitBytes 2 0 false false 0 0 0 [] 0) else s

/-! ## Fabric-time stamps (18_counters.md R557) -/

/-- Replace bytes of a unit from an offset. -/
def overlay (b : List Byte) (off : Nat) (x : List Byte) : List Byte := b.take off ++ x ++ b.drop (off + x.length)

/-- Stamp the units of a flit: a header unit of an MGT_MSG gives the time, the data unit of a fabric-time message takes it. -/
def stampUnits (now : Nat) : List OUnit → Option Nat → List OUnit × Option Nat
  | [], st => ([], st)
  | u :: l, st =>
    let r := fun (u : OUnit) (st : Option Nat) => let (l, st) := stampUnits now l st; (u :: l, st)
    if u.vc / 8 ≠ vMGT then r u st
    else if u.head then r u (if (pktOfHdr u.bytes).command = cMGT_MSG then some now else none)
    else match st with
      | none => r u none
      | some t =>
        let type := leNat (u.bytes.take 1)
        let sub := leNat ((u.bytes.drop 1).take 1)
        r (if type = 5 ∧ sub = 1 then { u with bytes := overlay u.bytes 8 (leBytes 8 t) }
           else if type = 5 ∧ sub = 2 then { u with bytes := overlay u.bytes 24 (leBytes 8 t) } else u) none

/-! ## Transmit (R450, R455 to R460) -/

/-- Units for the next flit from a port's staging buffers. -/
def State.takeUnits (d : Die) : List Nat → Nat → State → State × List OUnit
  | [], _, s => (s, [])
  | k :: ks, n, s =>
    let st := (s.swc d).staged k
    let got := st.take n
    let (s, more) := State.takeUnits d ks (n - got.length) (s.modSwc d (fun x => x.setStage k (st.drop n)))
    (s, got ++ more)

/-- A retrain trigger of R467: the lanes retrain, and a change in progress is taken into it (R464). -/
def State.retrain (s : State) (d : Die) (i cause : Nat) : State :=
  if s.linkSt d i ≠ lsACTIVE then s
  else
    let l := s.llu d i
    let (mask, rate) := match l.change with | some (m, r, _) => (m, r) | none => (0, 0)
    let taken := l.change.isSome
    let s := s.setLlu d i { l with downAt := s.now, gaveUp := false, change := none, useMask := if taken then mask else s.rd d (LLU.LINK_STATE.LANES_ACTIVE i),
                                   useRate := if taken then rate else s.rd d (LLU.LINK_STATE.RATE i), awaiting := false, replayAt := none }
    let s := s.when taken (fun s => s.wrs d [(LLU.CHANGE_STATUS.BUSY i, 0), (LLU.CHANGE_STATUS.DONE i, 1), (LLU.CHANGE_STATUS.RESULT i, 3)])
    (s.wr d (LLU.LAST_RETRAIN.CAUSE i) cause).attempt d i (taken && rate != s.rd d (LLU.LINK_STATE.RATE i))

/-- Begin a replay from a flit (R457, R458): one replayed too often begins a retrain instead (R467). -/
def State.beginReplay (s : State) (d : Die) (i from_ : Nat) (count : Fld) : State :=
  match (s.llu d i).buf.find? (fun f => f.seq == from_) with
  | none => s
  | some f =>
    if s.rd d (LLU.RETRAIN_CFG.REPLAY_LIMIT i) ≤ f.replays then s.retrain d i 1
    else (s.bump d count).modLlu d i (fun l => { l with replayAt := some from_, nackFrom := some ((from_ + 65535) % 65536, s.now) })

/-- Send the flit that the replay has reached. -/
def State.sendReplay (s : State) (d : Die) (i : Nat) (f : TxFlit) : State :=
  let s := s.emitFlit d i 1 (udsOf f.units 0) (f.units.flatMap (·.bytes)) f.seq
  let s := (s.bump d (LLU.FLITS_TX.COUNT i)).bump d (LLU.REPLAYED_FLITS.COUNT i)
  s.modLlu d i (fun l =>
    let n := (f.seq + 1) % 65536
    { l with buf := l.buf.map (fun g => if g.seq = f.seq then { g with replays := g.replays + 1, sentAt := s.now } else g),
             replayAt := if n = l.nextTx then none else some n })

/-- Send a new DATA flit. -/
def State.sendData (s : State) (d : Die) (i : Nat) (units : List OUnit) : State :=
  let l := s.llu d i
  let (units, st) := stampUnits (s.ftNow d) units l.stamp
  let s := (s.emitFlit d i 1 (udsOf units 0) (units.flatMap (·.bytes)) l.nextTx).bump d (LLU.FLITS_TX.COUNT i)
  s.modLlu d i (fun l => { l with buf := l.buf ++ [{ seq := l.nextTx, units := units, sentAt := s.now, replays := 0 }],
                                  nextTx := (l.nextTx + 1) % 65536, stamp := st })

/-- CHANGE unit of R469. -/
def changeUnit (phase mask rate : Nat) : List Byte := leBytes 1 phase ++ leBytes 1 (mask + rate * 16)

/-- The flit of a slot in ACTIVE, but for a replayed one: DATA, or IDLE. -/
def State.slotFlit (s : State) (d : Die) (i : Nat) : State :=
  let l := s.llu d i
  if s.rd d (LLU.REPLAY.CAPACITY i) ≤ l.buf.length then s.emitFlit d i 2 0 [] l.pointer
  else match State.takeUnits d (s.portKeys i) 4 s with
    | (s, []) => s.emitFlit d i 2 0 [] l.pointer
    | (s, units) => s.sendData d i units

/-- FLIT_SLOT (R450): a flit of a replay, else a DATA flit, else an IDLE flit; a change's REQUEST goes every 100 ns (R469). -/
def execFlitSlot (d : Die) (i : Fin 64) (s : State) : Host.Outcome State Fault Refusal :=
  .next (
    let i := i.val
    let l := s.llu d i
    if s.linkSt d i = lsTRAINING ∨ s.linkSt d i = lsCHANGING then s.idleContent d i
    else if s.linkSt d i ≠ lsACTIVE then s
    else match l.replayAt.bind (fun q => l.buf.find? (fun f => f.seq == q)) with
      | some f => s.sendReplay d i f
      | none =>
        match l.change with
        | some (m, r, _) =>
          if l.sendAt + 100 ≤ s.now then
            (s.modLlu d i (fun l => { l with sendAt := s.now })).emitFlit d i 4 0 (changeUnit 0 m r) l.pointer
          else s.slotFlit d i
        | none => s.slotFlit d i)

/-! ## Negotiate units (R466) -/

/-- VC_MIN_UNITS that a port advertises for a VC_CODE. -/
def State.vcMin (s : State) (d : Die) (i code : Nat) : Nat :=
  s.rd d (SWC.VC_MIN.UNITS (24 * (if s.role d i = .global then 1 else 0) + 6 * (code / 3) + code % 3))

/-- Shared-credit allowance of a switch-core port's input (13_switch_core.md R423). -/
def State.sharedAllow (s : State) (d : Die) (key : Nat) : Nat :=
  match s.running with
  | some r => if isNet key && s.lanesPerPort == 1 then 16 * replayKib r.params (s.npOf d key) else s.rd d (SWC.PORT_STATE.SHARED_ALLOW (xpIdx key))
  | none => s.rd d (SWC.PORT_STATE.SHARED_ALLOW (xpIdx key))

def roleCode (r : PortRole) : Nat := if r = .global then 1 else if r = .spare then 2 else 0

/-- The port asks to resume: it has been ACTIVE since its last fresh start, and not out of it for the holding limit. -/
def State.wantsResume (s : State) (d : Die) (i : Nat) : Bool :=
  let l := s.llu d i
  l.ran && !l.gaveUp && !l.fresh && decide (s.now < l.downAt + s.holdNs d)

/-- A number that the partner's replay buffer asks for is still held, or is the next one. -/
def Llu.holds (l : Llu) (n : Nat) : Bool := n == l.nextTx || l.buf.any (fun f => f.seq == n)

/-- Fields of a partner's negotiate units. -/
def ngNat (u : List Byte) (off n : Nat) : Nat := leNat ((u.drop off).take n)
def ngPhase (u : List Byte) : Nat := bitsOf (ngNat u 0 1) 0 2
def ngResume (u : List Byte) : Bool := bitOf (ngNat u 0 1) 2
def ngInst (u : List Byte) : Nat := ngNat u 24 4
def ngPartnerInst (u : List Byte) : Nat := ngNat u 28 4
def ngRxNext (u : List Byte) : Nat := ngNat u 64 2
def ngTotal (u : List Byte) (c : Nat) : Nat := ngNat u (68 + 4 * c) 4

/-- The local conditions of a resume, against a partner's units. -/
def State.resumable (s : State) (d : Die) (i : Nat) (u : List Byte) : Bool :=
  let l := s.llu d i
  s.wantsResume d i && ngResume u && ngPartnerInst u == l.inst && l.pinst == ngInst u && l.holds (ngRxNext u)

/-- The negotiate units that a port sends. -/
def State.negUnits (s : State) (d : Die) (i phase reason : Nat) : List Byte :=
  let l := s.llu d i
  let resume := match phase, l.offer with
    | 1, some u => s.resumable d i u
    | _, _ => s.wantsResume d i
  let even := s.sharedAllow d (s.portKey i 0)
  leBytes 1 (phase + 4 * b2n resume) ++ leBytes 1 (1 + 16 * 1) ++
  leBytes 1 (roleCode (s.role d i) + 4 * s.rd d SWC.SWC_CFG.MODE + 8 * s.rd d SWC.SWC_CFG.COL_NETWORK) ++
  leBytes 1 (s.trainedMask d i + 16 * l.useRate) ++ leBytes 3 (s.myFea d 0) ++
  leBytes 1 (s.npOf d i + 128 * s.rd d RTB.MY_FEA.VALID) ++ leBytes 16 s.serial ++ leBytes 4 l.inst ++ leBytes 4 l.pinst ++
  leBytes 2 (s.rd d (LLU.REPLAY.CAPACITY i)) ++ leBytes 2 even ++
  leBytes 2 (if s.lanesPerPort = 4 then s.sharedAllow d (s.portKey i 1) else 0) ++ leBytes 1 reason ++ leBytes 1 0 ++
  (List.range 12).flatMap (fun c => leBytes 2 (s.vcMin d i c)) ++
  leBytes 2 l.nextRx ++ leBytes 2 0 ++ (List.range 14).flatMap (fun c => leBytes 4 (nget l.totals c)) ++ leBytes 4 0

def State.sendNeg (s : State) (d : Die) (i phase reason : Nat) : State :=
  (s.modLlu d i (fun l => { l with sendAt := s.now })).emitFlit d i 3 0 (s.negUnits d i phase reason) 0xFFFF

/-- Why a partner's units are incompatible: 0 when they are compatible. -/
def State.negReason (s : State) (d : Die) (i : Nat) (u : List Byte) : Nat :=
  let v := bitsOf (ngNat u 1 1) 0 4
  let b := ngNat u 2 1
  let m := ngNat u 3 1
  if v = 0 ∨ 2 < v then 1
  else if (bitsOf b 0 2 == 1) != (s.role d i == .global) then 2
  else if bitsOf b 2 1 ≠ s.rd d SWC.SWC_CFG.MODE then 3
  else if bitsOf b 3 1 ≠ s.rd d SWC.SWC_CFG.COL_NETWORK then 4
  else if Nat.land (m % 16) (s.trainedMask d i) = 0 ∨ bitsOf m 4 3 ≠ (s.llu d i).useRate then 5
  else 0

/-- Report the partner's identity fields. -/
def State.showPartner (s : State) (d : Die) (i : Nat) (u : List Byte) : State :=
  s.wrs d [(LLU.PARTNER.FEA i, ngNat u 4 3), (LLU.PARTNER.NP i, bitsOf (ngNat u 7 1) 0 7), (LLU.PARTNER.FEA_VALID i, bitsOf (ngNat u 7 1) 7 1),
    (LLU.PARTNER.ROLE i, bitsOf (ngNat u 2 1) 0 2), (LLU.PARTNER.V i, bitsOf (ngNat u 1 1) 0 4), (LLU.PARTNER.L i, bitsOf (ngNat u 1 1) 4 4),
    (LLU.PARTNER_SERIAL_LO.SERIAL i, ngNat u 8 8), (LLU.PARTNER_SERIAL_HI.SERIAL i, ngNat u 16 8)]

/-! ## Credits of a sender (R461, R463) -/

/-- Take newly returned credits of a channel in. -/
def State.addCredit (s : State) (d : Die) (i ch n : Nat) : State :=
  s.modSwc d (fun x =>
    if ch < 12 then { x with ded := nadd x.ded (vcKey (s.portKey i (ch % 3)) (ch / 3) (ch % 3)) n }
    else { x with shr := nadd x.shr (s.portKey i (ch - 12)) n })

/-- A total that the partner reports on a channel, modulo 1,024 in a flit and whole in its negotiate units (R461, R466). -/
def State.creditTotal (s : State) (d : Die) (i ch total modulus : Nat) : State :=
  let l := s.llu d i
  let n := (total % modulus + modulus - nget l.seen ch % modulus) % modulus
  (s.setLlu d i { l with seen := nput l.seen ch ((nget l.seen ch + n) % 2 ^ 32) }).addCredit d i ch n

/-! ## What a port holds, and giving it up (R468, R471, R472) -/

/-- The transmit side is discarded: replay buffer, staging, and the rest of packets that hold its output VCs. Answers the packets. -/
def State.dropTx (s : State) (d : Die) (i : Nat) : State × Nat :=
  let keys := s.portKeys i
  let units := (s.llu d i).buf.flatMap (·.units) ++ keys.flatMap (fun k => (s.swc d).staged k)
  let owners := (s.swc d).owner.filter (fun p => keys.contains (p.1 / 32))
  let s := s.modLlu d i (fun l => { l with buf := [], replayAt := none })
  let s := s.modSwc d (fun x => { x with stage := x.stage.filter (fun p => !keys.contains p.1),
                                         owner := x.owner.filter (fun p => !keys.contains (p.1 / 32)) })
  let s := owners.foldl (fun s p => s.dropHead d p.2) s
  (s, (units.filter (fun u => u.tail)).length + owners.length)

/-- Input VCs of a port. -/
def State.portIns (s : State) (d : Die) (i : Nat) : List Nat :=
  ((s.swc d).ins.map (·.1)).filter (fun k => (s.portKeys i).contains (k / 32))

/-- Complete the partial packets of the receive side with poisoned filler units (R472). -/
def State.fillPort (s : State) (d : Die) (i : Nat) : State :=
  (s.portIns d i).foldl (fun s k => match s.fillPacket d k with
    | (s, true) => s.bump d (LLU.FILLER_PACKETS.COUNT i)
    | (s, false) => s) s

/-- Begin the credits of a fresh start: this end's storage as it advertises it, and its sending credits as the partner does (R463). -/
def State.freshCredits (s : State) (d : Die) (i : Nat) (u : List Byte) : State :=
  let keys := s.portKeys i
  let allow := keys.map (fun k => (k, s.sharedAllow d k))
  let s := s.modSwc d (fun x =>
    let old := (keys.map (fun k => nget x.resv k)).sum
    { x with reserved := x.reserved - old + (allow.map (·.2)).sum, resv := allow.foldl (fun t p => nput t p.1 p.2) x.resv,
             withheld := x.withheld.filter (fun p => !keys.contains p.1),
             ins := x.ins.map (fun p => if keys.contains (p.1 / 32) then (p.1, p.2.map (fun q => { q with basin := q.basin.map (fun _ => true) })) else p),
             ded := x.ded.filter (fun p => !keys.contains (p.1 / 32)), shr := x.shr.filter (fun p => !keys.contains p.1) })
  let s := s.channels.foldl (fun s c => s.wr d (LLU.CREDIT.TOTAL_RETURNED i c) 0) s
  let s := (List.range 12).foldl (fun s c => s.addCredit d i c (ngNat u (40 + 2 * c) 2)) s
  let s := s.addCredit d i 12 (ngNat u 34 2)
  if s.lanesPerPort = 4 then s.addCredit d i 13 (ngNat u 36 2) else s

/-- Resume (R466). -/
def State.resumeLink (s : State) (d : Die) (i : Nat) (u : List Byte) : State :=
  let n := ngRxNext u
  let s := s.modLlu d i (fun l =>
    let buf := l.buf.filter (fun f => !sbefore 65536 f.seq n)
    { l with buf := buf, replayAt := if buf.isEmpty then none else some n, awaiting := false, nackFrom := none })
  s.channels.foldl (fun s c => s.creditTotal d i c (ngTotal u c) (2 ^ 32)) s

/-- Draw the INSTANCE of a fresh start: once in an attempt, when it becomes clear that there is no resume, so that AGREE gives it (log
entry 168). -/
def State.freshInst (s : State) (d : Die) (i : Nat) : State :=
  if (s.llu d i).fresh then s else s.draw (fun k s => s.modLlu d i (fun l => { l with inst := k % 2 ^ 32, fresh := true }))

/-- Fresh start (R466, R472). -/
def State.freshLink (s : State) (d : Die) (i : Nat) (u : List Byte) : State :=
  let ran := (s.llu d i).ran
  let s := if ran then ((s.dropTx d i).1).fillPort d i else s
  let s := s.freshInst d i
  let s := s.modLlu d i (fun l => { l with nextTx := 0, nextRx := 0, gotData := false, buf := [], replayAt := none,
                                           awaiting := false, nackFrom := none, totals := [], told := [], seen := [], stamp := none })
  s.freshCredits d i u

/-- The link becomes ACTIVE by a resume or a fresh start. -/
def State.linkActive (s : State) (d : Die) (i : Nat) (u : List Byte) : State :=
  let l := s.llu d i
  let resume := s.resumable d i u
  let changed := s.on d (LLU.CHANGE_STATUS.BUSY i)
  let s := if resume then s.resumeLink d i u else s.freshLink d i u
  let mask := Nat.land (ngNat u 3 1 % 16) (s.trainedMask d i)
  let s := s.modLlu d i (fun x => { x with ran := true, gaveUp := false, pinst := ngInst u, rxAt := s.now, rttAt := s.now, rttBest := none, agreeing := false,
                                           offer := none, useMask := 0, useRate := 0 })
  let s := s.wrs d [(LLU.LINK_STATE.VERSION i, 1), (LLU.LINK_STATE.LANES_ACTIVE i, mask), (LLU.LINK_STATE.RATE i, bitsOf (ngNat u 3 1) 4 3),
    (LLU.LINK_STATE.RESUMED i, b2n resume), (LLU.LINK_STATE.FAIL_REASON i, 0), (LLU.REPLAY.LINK_RTT_NS i, min 65535 (s.now - l.sendAt))]
  let s := if changed then (s.bump d (LLU.CHANGES.COUNT i)).wrs d
      [(LLU.CHANGE_STATUS.BUSY i, 0), (LLU.CHANGE_STATUS.DONE i, 1), (LLU.CHANGE_STATUS.RESULT i, 1)]
    else if l.ran then (s.bump d (LLU.RETRAINS.COUNT i)).wr d (LLU.LAST_RETRAIN.DURATION_US i) (min (2 ^ 24 - 1) ((s.now - l.downAt) / 1000))
    else s
  s.setLink d i lsACTIVE

/-! ## Receive (R454 to R457, R464 to R466, R469) -/

/-- The unit descriptors of a flit that carry a unit: slot, and descriptor. -/
def validSlots (cw : Nat) : List (Nat × Nat) :=
  ((List.range 4).map (fun k => (k, bitsOf cw (4 + 7 * k) 7))).filter (fun p => bitOf p.2 0)

/-- A VC_CODE that the port's type has (R449; 13_switch_core.md R417). -/
def State.vcOk (s : State) (d : Die) (i code : Nat) : Bool :=
  code < 12 && (s.role d i != .global || code % 3 < 2) && (code / 3 != vCOL || s.on d SWC.SWC_CFG.COL_NETWORK)

/-- A flit passes its check with a sequence number (R451, R452, R449, R461, R481). -/
def State.flitOk (s : State) (d : Die) (i : Nat) (b : List Byte) (bad : Bool) (seq : Nat) : Bool :=
  let cw := leNat (b.take 8)
  let type := bitsOf cw 0 4
  let slots := validSlots cw
  !bad && b.length == 272 && leNat (b.drop 264) == (crc64 (b.take 264) seq).toNat && decide (1 ≤ type ∧ type ≤ 4) &&
    s.channels.contains (bitsOf cw 50 4) &&
    (type != 1 || (!slots.isEmpty && slots.all (fun p => s.vcOk d i (bitsOf p.2 1 4))))

/-- A flit fails its check (R456). -/
def State.flitFail (s : State) (d : Die) (i : Nat) : State :=
  if (s.llu d i).awaiting then s.bump d (LLU.FLITS_DISCARDED.COUNT i)
  else (s.bump d (LLU.CRC_ERRORS.COUNT i)).modLlu d i (fun l => { l with awaiting := true })

/-- Release the flits up to an acknowledged one, and measure the round trip (R455, R457). -/
def State.ackFlits (s : State) (d : Die) (i a : Nat) : State :=
  s.modLlu d i (fun l =>
    let gone := l.buf.filter (fun f => !sbefore 65536 a f.seq)
    let rtt := (gone.filter (fun f => f.replays == 0)).foldl (fun (m : Option Nat) f => match m with
      | some x => some (min x (s.now - f.sentAt))
      | none => some (s.now - f.sentAt)) l.rttBest
    let stay := match l.replayAt with | some q => if sbefore 65536 a q then some q else none | none => none
    { l with buf := l.buf.filter (fun f => sbefore 65536 a f.seq), rttBest := rtt, replayAt := stay })

/-- A NACK (R457). -/
def State.nackIn (s : State) (d : Die) (i a : Nat) : State :=
  let l := s.llu d i
  let again := match l.nackFrom with
    | some (x, t) => x == a && decide (s.now ≤ t + s.rd d (LLU.REPLAY.LINK_RTT_NS i) + 100)
    | none => false
  if again then s
  else s.beginReplay d i ((a + 1) % 65536) (LLU.REPLAYS.COUNT i)

/-- The units of a DATA flit go to the switch core in slot order. -/
def State.flitUnits (s : State) (d : Die) (i : Nat) (b : List Byte) : State :=
  (validSlots (leNat (b.take 8))).foldl (fun s p =>
    let code := bitsOf p.2 1 4
    let bytes := (b.drop (8 + 64 * p.1)).take 64
    let k := vcKey (s.portKey i (code % 3)) (code / 3) (code % 3)
    let head := nextIsHead ((s.swc d).inList k)
    let s := if head && code / 3 != vMGT then { s with ims := { s.ims with lastArrival := some s.now } } else s
    s.unitIn d k { vc := k % 32, bytes := bytes, shared := bitOf p.2 5, poison := bitOf p.2 6, head := head, tail := false, since := s.now }) s

/-- Enter CHANGING: lanes left out go to Sarabande, the rest train (R469). -/
def State.beginChange (s : State) (d : Die) (i mask rate : Nat) : State :=
  let full := rate != s.rd d (LLU.LINK_STATE.RATE i)
  let s := s.modLlu d i (fun l => { l with downAt := s.now, gaveUp := false, began := s.now, change := none, useMask := mask, useRate := rate, agreeing := false,
                                           offer := none, awaiting := false, replayAt := none })
  let s := (s.wr d (LLU.CHANGE_STATUS.BUSY i) 1).setLink d i lsCHANGING
  s.trainPort d i full

/-- A change is acceptable at this end. -/
def State.changeOk (s : State) (d : Die) (i mask rate : Nat) : Bool :=
  mask != 0 && Nat.land mask (s.goodMask d i) == mask && decide (1 ≤ rate ∧ rate ≤ s.portRate d i)

/-- A CHANGE flit in ACTIVE (R469). -/
def State.changeIn (s : State) (d : Die) (i : Nat) (b : List Byte) : State :=
  let phase := bitsOf (leNat ((b.drop 8).take 1)) 0 2
  let x := leNat ((b.drop 9).take 1)
  let mask := x % 16
  let rate := bitsOf x 4 3
  if phase = 0 then
    if s.changeOk d i mask rate then (s.emitFlit d i 4 0 (changeUnit 1 mask rate) (s.llu d i).pointer).beginChange d i mask rate
    else s.emitFlit d i 4 0 (changeUnit 2 mask rate) (s.llu d i).pointer
  else match (s.llu d i).change with
    | none => s
    | some (m, r, _) =>
      if phase = 1 then s.beginChange d i m r
      else (s.modLlu d i (fun l => { l with change := none })).wrs d
        [(LLU.CHANGE_STATUS.BUSY i, 0), (LLU.CHANGE_STATUS.DONE i, 1), (LLU.CHANGE_STATUS.RESULT i, 2)]

/-- A flit passed its check in ACTIVE. -/
def State.flitPass (s : State) (d : Die) (i : Nat) (b : List Byte) : State :=
  let cw := leNat (b.take 8)
  let type := bitsOf cw 0 4
  let a := bitsOf cw 34 16
  let s := s.modLlu d i (fun l => { l with rxAt := s.now, awaiting := false })
  let s := s.when (bitOf cw 32) (fun s => s.ackFlits d i a)
  let s := s.creditTotal d i (bitsOf cw 50 4) (bitsOf cw 54 10) 1024
  let s := s.when (bitOf cw 33) (fun s => s.nackIn d i a)
  if type = 1 then
    ((s.modLlu d i (fun l => { l with nextRx := (l.nextRx + 1) % 65536, gotData := true })).bump d (LLU.FLITS_RX.COUNT i)).flitUnits d i b
  else if type = 4 then s.changeIn d i b
  else s

/-- The port fails with a reason; REFUSE goes out 8 times (R464). -/
def State.refuseLink (s : State) (d : Die) (i reason : Nat) : State :=
  let s := (List.range 8).foldl (fun s _ => s.sendNeg d i 2 reason) s
  ((s.wr d (LLU.LINK_STATE.FAIL_REASON i) reason).modLlu d i (fun l => { l with negAt := s.now })).setLink d i lsFAILED

/-- A NEGOTIATE flit in NEGOTIATE (R464, R466). -/
def State.negIn (s : State) (d : Die) (i : Nat) (u : List Byte) : State :=
  let s := s.showPartner d i u
  let reason := s.negReason d i u
  if ngPhase u = 2 then s.refuseLink d i (bitsOf (ngNat u 38 1) 0 4)
  else if reason ≠ 0 then s.refuseLink d i reason
  else if ngPhase u = 1 then s.linkActive d i u
  else
    let s := if s.resumable d i u then s else s.freshInst d i
    (s.modLlu d i (fun l => { l with offer := some u, agreeing := true })).sendNeg d i 1 0

/-- A flit arrives at a port; `bad` when a codeword that it spans was uncorrectable. -/
def State.flitIn (s : State) (d : Die) (i : Nat) (b : List Byte) (bad : Bool) : State :=
  let l := s.llu d i
  let st := s.linkSt d i
  let type := bitsOf (leNat (b.take 8)) 0 4
  if st = lsACTIVE then
    if type = 3 ∧ s.flitOk d i b bad 0xFFFF then s.retrain d i 5
    else if type ≠ 3 ∧ s.flitOk d i b bad l.nextRx then s.flitPass d i b
    else s.flitFail d i
  else if st = lsNEGOTIATE then
    if type = 3 ∧ s.flitOk d i b bad 0xFFFF then s.negIn d i ((b.drop 8).take 128)
    else match l.offer with
      | some u =>
        let next := if s.resumable d i u then l.nextRx else 0
        if l.agreeing ∧ type ≤ 2 ∧ s.flitOk d i b bad next then (s.linkActive d i u).flitPass d i b else s
      | none => s
  else s

/-- FLIT_RECEIVED (R454 to R457). -/
def execFlitReceived (d : Die) (i : Fin 64) (b : List Byte) (bad : Bool) (s : State) : Host.Outcome State Fault Refusal :=
  .next (s.flitIn d i.val b bad)

/-- The flit is of a type and phase: NEGOTIATE 3 and CHANGE 4. -/
def flitIs (b : List Byte) (type phase : Nat) : Bool :=
  bitsOf (leNat (b.take 8)) 0 4 == type && bitsOf (leNat ((b.drop 8).take 1)) 0 2 == phase

/-- NEGOTIATE_PROPOSE (R466). -/
def execNegotiatePropose (d : Die) (i : Fin 64) (b : List Byte) (bad : Bool) (s : State) : Host.Outcome State Fault Refusal :=
  .next (if flitIs b 3 0 then s.flitIn d i.val b bad else s)

/-- NEGOTIATE_AGREE (R466). -/
def execNegotiateAgree (d : Die) (i : Fin 64) (b : List Byte) (bad : Bool) (s : State) : Host.Outcome State Fault Refusal :=
  .next (if flitIs b 3 1 then s.flitIn d i.val b bad else s)

/-- NEGOTIATE_REFUSE (R464). -/
def execNegotiateRefuse (d : Die) (i : Fin 64) (b : List Byte) (bad : Bool) (s : State) : Host.Outcome State Fault Refusal :=
  .next (if flitIs b 3 2 then s.flitIn d i.val b bad else s)

/-- CHANGE_REQUEST (R469). -/
def execChangeRequest (d : Die) (i : Fin 64) (b : List Byte) (bad : Bool) (s : State) : Host.Outcome State Fault Refusal :=
  .next (if flitIs b 4 0 then s.flitIn d i.val b bad else s)

/-- CHANGE_ACCEPT (R469). -/
def execChangeAccept (d : Die) (i : Fin 64) (b : List Byte) (bad : Bool) (s : State) : Host.Outcome State Fault Refusal :=
  .next (if flitIs b 4 1 then s.flitIn d i.val b bad else s)

/-- CHANGE_REFUSE (R469). -/
def execChangeRefuse (d : Die) (i : Fin 64) (b : List Byte) (bad : Bool) (s : State) : Host.Outcome State Fault Refusal :=
  .next (if flitIs b 4 2 then s.flitIn d i.val b bad else s)

/-! ## Timers (R457, R458, R464, R467) -/

/-- REPLAY_TIMEOUT (R458). -/
def execReplayTimeout (d : Die) (i : Fin 64) (s : State) : Host.Outcome State Fault Refusal :=
  .next (match (s.llu d i.val).buf with
    | f :: _ =>
      if s.linkSt d i.val = lsACTIVE ∧ f.sentAt + s.rd d (LLU.LINK_TIMERS.REPLAY_TIMEOUT_NS i.val) < s.now then
        s.beginReplay d i.val f.seq (LLU.REPLAY_TIMEOUTS.COUNT i.val)
      else s
    | [] => s)

/-- LINK_RTT_WINDOW (R457). -/
def execLinkRttWindow (d : Die) (i : Fin 64) (s : State) : Host.Outcome State Fault Refusal :=
  .next (
    let l := s.llu d i.val
    if s.linkSt d i.val ≠ lsACTIVE ∨ s.now < l.rttAt + 1000000 then s
    else
      let s := match l.rttBest with | some n => s.wr d (LLU.REPLAY.LINK_RTT_NS i.val) (min 65535 n) | none => s
      s.setLlu d i.val { l with rttAt := s.now, rttBest := none })

/-- The lanes of a port that its attempt uses have all trained. -/
def State.lanesDone (s : State) (d : Die) (i : Nat) : Bool :=
  let m := (s.llu d i).useMask
  (s.portLanes i).all (fun n => !bitOf m (s.laneRank n) || s.laneSt d n == 7 || s.retired 1 d (d.num * 64 + n)) && s.trainedMask d i != 0

/-- Begin to negotiate. -/
def State.negotiate (s : State) (d : Die) (i : Nat) : State :=
  ((s.modLlu d i (fun l => { l with agreeing := false, offer := none, negAt := s.now, fresh := false })).setLink d i lsNEGOTIATE).sendNeg d i 0 0

/-- LANES_TRAINED (R464). -/
def execLanesTrained (d : Die) (i : Fin 64) (s : State) : Host.Outcome State Fault Refusal :=
  .next (if s.linkSt d i.val = lsTRAINING ∧ s.lanesDone d i.val then s.negotiate d i.val else s)

/-- LANES_READY (R469). -/
def execLanesReady (d : Die) (i : Fin 64) (s : State) : Host.Outcome State Fault Refusal :=
  .next (if s.linkSt d i.val = lsCHANGING ∧ s.lanesDone d i.val then s.negotiate d i.val else s)

/-- NEGOTIATE_RESEND (R464): every 100 ns. -/
def execNegotiateResend (d : Die) (i : Fin 64) (s : State) : Host.Outcome State Fault Refusal :=
  .next (
    let l := s.llu d i.val
    if s.linkSt d i.val = lsNEGOTIATE ∧ l.sendAt + 100 ≤ s.now then s.sendNeg d i.val (b2n l.agreeing) 0 else s)

/-- TRAINING_ATTEMPT_TIMEOUT (R464): 25 ms since the attempt began. -/
def execTrainingAttemptTimeout (d : Die) (i : Fin 64) (s : State) : Host.Outcome State Fault Refusal :=
  .next (
    let l := s.llu d i.val
    if !(s.linkSt d i.val = lsTRAINING ∨ s.linkSt d i.val = lsNEGOTIATE) ∨ s.now < l.began + 25000000 then s
    else
      let s := (s.bump d (LLU.RETRAIN_FAILS.COUNT i.val)).wr d (LLU.LINK_STATE.FAIL_REASON i.val) 6
      let s := s.setLlu d i.val { l with fails := (l.fails.filter (fun t => s.now < t + 60000000000)) ++ [s.now] }
      s.attempt d i.val true)

/-- FAILED_RESTART_TIMER (R464): 1 s after FAILED. -/
def execFailedRestartTimer (d : Die) (i : Fin 64) (s : State) : Host.Outcome State Fault Refusal :=
  .next (if s.linkSt d i.val = lsFAILED ∧ (s.llu d i.val).negAt + secNs ≤ s.now then s.attempt d i.val true else s)

/-- SILENCE_TIMEOUT (R467). -/
def execSilenceTimeout (d : Die) (i : Fin 64) (s : State) : Host.Outcome State Fault Refusal :=
  .next (if (s.llu d i.val).rxAt + max 200 (s.rd d (LLU.LINK_TIMERS.SILENCE_NS i.val)) ≤ s.now then s.retrain d i.val 2 else s)

/-- Write LINK_CTRL.RETRAIN. -/
def State.retrainWrite (s : State) (d : Die) (i : Nat) : State := s.retrain d i 4

/-- RETRAIN (R467). -/
def execRetrain (rq : Requester) (d : Die) (i : Fin 64) (s : State) : Host.Outcome State Fault Refusal :=
  .next (s.asWarden rq d (LLU.LINK_CTRL.RETRAIN i.val).off (fun s => s.retrainWrite d i.val))

/-- A port gives up what it holds. -/
def State.giveUp (s : State) (d : Die) (i : Nat) : State :=
  let (s, n) := s.dropTx d i
  (s.bumpBy d RTB.HOLD_DROPS.COUNT n).modLlu d i (fun l => { l with gaveUp := true })

/-- PORT_HOLD_LIMIT (R468). -/
def execPortHoldLimit (d : Die) (i : Fin 64) (s : State) : Host.Outcome State Fault Refusal :=
  .next (
    let l := s.llu d i.val
    let st := s.linkSt d i.val
    if l.ran ∧ !l.gaveUp ∧ st ≠ lsACTIVE ∧ st ≠ lsRETIRED ∧ l.downAt + s.holdNs d ≤ s.now then s.giveUp d i.val else s)

/-! ## Width and speed changes, retirement (R469, R471) -/

/-- Write LINK_CTRL.CHANGE_GO with a mask and a rate. -/
def State.changeGo (s : State) (d : Die) (i mask rate : Nat) : State :=
  let s := s.wrs d [(LLU.LINK_CTRL.LANE_MASK_REQ i, mask), (LLU.LINK_CTRL.RATE_REQ i, rate)]
  if s.on d (LLU.CHANGE_STATUS.BUSY i) then s
  else if s.linkSt d i ≠ lsACTIVE ∨ !s.changeOk d i mask rate then
    s.wrs d [(LLU.CHANGE_STATUS.DONE i, 1), (LLU.CHANGE_STATUS.RESULT i, 2)]
  else
    let s := s.wrs d [(LLU.CHANGE_STATUS.BUSY i, 1), (LLU.CHANGE_STATUS.RESULT i, 0)]
    (s.modLlu d i (fun l => { l with change := some (mask, rate, s.now), sendAt := s.now })).emitFlit d i 4 0 (changeUnit 0 mask rate) (s.llu d i).pointer

/-- CHANGE_GO (R469). -/
def execChangeGo (rq : Requester) (d : Die) (i : Fin 64) (mask : Fin 16) (rate : Fin 8) (s : State) : Host.Outcome State Fault Refusal :=
  .next (s.asWarden rq d (LLU.LINK_CTRL.CHANGE_GO i.val).off (fun s => s.changeGo d i.val mask.val rate.val))

/-- CHANGE_TIMEOUT (R469): no answer within 10 µs. -/
def execChangeTimeout (d : Die) (i : Fin 64) (s : State) : Host.Outcome State Fault Refusal :=
  .next (match (s.llu d i.val).change with
    | some (_, _, t) => if t + 10000 ≤ s.now then s.retrain d i.val 4 else s
    | none => s)

/-- Take a port out of service at once (R471). -/
def State.portOut (s : State) (d : Die) (i : Nat) : State :=
  let s := (s.dropTx d i).1.fillPort d i
  let s := (s.portLanes i).foldl (fun s n => s.laneOff d n) s
  ((s.modLlu d i (fun l => { l with change := none, agreeing := false, offer := none, ran := false, gaveUp := false })).setLink d i lsRETIRED).wrs d
    [(LLU.CHANGE_STATUS.BUSY i, 0), (LLU.LINK_STATE.LANES_ACTIVE i, 0), (LLU.LINK_STATE.RATE i, 0)]

/-- Retire a port: its record first (16_faults.md R517). -/
def State.retirePort (s : State) (d : Die) (i cause : Nat) : State :=
  if s.linkSt d i = lsRETIRED ∨ s.freeRet.isNone then s else ((s.recordRet 2 d (s.npOf d i) cause 0xFFFFFFFF).portOut d i).liveChange

/-- LINK_RETIRE (R471). -/
def execLinkRetire (rq : Requester) (d : Die) (i : Fin 64) (s : State) : Host.Outcome State Fault Refusal :=
  .next (s.asWarden rq d (LLU.LINK_CTRL.RETIRE i.val).off (fun s => s.retirePort d i.val 1))

end Sys2Proof.Machine
end

