-- ==== Sys2Proof/Machine/Lanes.lean ====
section
/-! DEFINITION. Serial lanes (15_lanes.md): training frames and their requests, qualification, FEC counts, adaptation, power
states and PRBS. -/

namespace Sys2Proof.Machine

/-! ## The control field of a training frame (R486) -/

/-- The fields of a control field. -/
def parseFrame (c : BitVec 128) : TFrame :=
  let f := fun (lo w : Nat) => bitsOf c.toNat lo w
  { phase := f 0 4, rank := f 4 2, rate := f 6 3, reach := f 9 1, rxReady := bitOf c.toNat 10, fecLocked := bitOf c.toNat 11,
    reqTap := f 12 3, reqAction := f 15 2, reqPreset := f 17 3, rspStatus := f 20 2, reqToggle := bitOf c.toNat 22,
    rspToggle := bitOf c.toNat 23, laneNum := f 24 7, prbsPattern := f 31 3, prbsAck := bitOf c.toNat 34 }

/-- Its CRC-32C holds. -/
def frameOk (c : BitVec 128) : Bool := bitsOf c.toNat 96 32 == (crc32c (leBytes 12 c.toNat)).toNat

/-- The control field of a frame, with its CRC. -/
def frameBits (f : TFrame) : BitVec 128 :=
  let n := f.phase % 16 + f.rank % 4 * 2 ^ 4 + f.rate % 8 * 2 ^ 6 + f.reach % 2 * 2 ^ 9 + b2n f.rxReady * 2 ^ 10 + b2n f.fecLocked * 2 ^ 11 +
    f.reqTap % 8 * 2 ^ 12 + f.reqAction % 4 * 2 ^ 15 + f.reqPreset % 8 * 2 ^ 17 + f.rspStatus % 4 * 2 ^ 20 + b2n f.reqToggle * 2 ^ 22 +
    b2n f.rspToggle * 2 ^ 23 + f.laneNum % 128 * 2 ^ 24 + f.prbsPattern % 8 * 2 ^ 31 + b2n f.prbsAck * 2 ^ 34
  BitVec.ofNat 128 (n + (crc32c (leBytes 12 n)).toNat * 2 ^ 96)

/-! ## Transmit taps (R484) -/

/-- A signed byte, and back. -/
def sbyte (n : Nat) : Int := if 128 ≤ n then (n : Int) - 256 else n
def ofSbyte (x : Int) : Nat := (x % 256).toNat

structure Taps where
  pre3 : Int
  pre2 : Int
  pre1 : Int
  main : Int
  post1 : Int
  deriving DecidableEq, Repr

def State.taps (s : State) (d : Die) (n : Nat) : Taps :=
  ⟨sbyte (s.rd d (LNE.TX_EQ.PRE3 n)), sbyte (s.rd d (LNE.TX_EQ.PRE2 n)), sbyte (s.rd d (LNE.TX_EQ.PRE1 n)),
   sbyte (s.rd d (LNE.TX_EQ.MAIN n)), sbyte (s.rd d (LNE.TX_EQ.POST1 n))⟩

def State.setTaps (s : State) (d : Die) (n : Nat) (t : Taps) : State :=
  s.wrs d [(LNE.TX_EQ.PRE3 n, ofSbyte t.pre3), (LNE.TX_EQ.PRE2 n, ofSbyte t.pre2), (LNE.TX_EQ.PRE1 n, ofSbyte t.pre1),
    (LNE.TX_EQ.MAIN n, ofSbyte t.main), (LNE.TX_EQ.POST1 n, ofSbyte t.post1)]

/-- Ranges of the taps, and the limit on the sum of their magnitudes. -/
def Taps.ok (t : Taps) : Bool :=
  decide (-4 ≤ t.pre3 ∧ t.pre3 ≤ 4 ∧ -8 ≤ t.pre2 ∧ t.pre2 ≤ 8 ∧ -24 ≤ t.pre1 ∧ t.pre1 ≤ 0 ∧ 32 ≤ t.main ∧ t.main ≤ 63 ∧
    -16 ≤ t.post1 ∧ t.post1 ≤ 0) &&
  decide (t.pre3.natAbs + t.pre2.natAbs + t.pre1.natAbs + t.main.natAbs + t.post1.natAbs ≤ 63)

def preset (n : Nat) : Option Taps :=
  match n with
  | 1 => some ⟨0, 0, 0, 63, 0⟩
  | 2 => some ⟨0, 0, -8, 55, 0⟩
  | 3 => some ⟨0, 0, -12, 47, -4⟩
  | 4 => some ⟨0, 2, -16, 41, -4⟩
  | 5 => some ⟨-2, 4, -20, 33, -4⟩
  | _ => none

/-- A tap moved by a step. -/
def Taps.step (t : Taps) (tap : Nat) (x : Int) : Option Taps :=
  match tap with
  | 0 => some { t with pre3 := t.pre3 + x }
  | 1 => some { t with pre2 := t.pre2 + x }
  | 2 => some { t with pre1 := t.pre1 + x }
  | 3 => some { t with main := t.main + x }
  | 4 => some { t with post1 := t.post1 + x }
  | _ => none

/-- Answer to a request: the status, and the taps then in force. LONG mode knows presets 1 to 3 only (R482). -/
def answerReq (long : Bool) (t : Taps) (f : TFrame) : Nat × Taps :=
  match f.reqAction with
  | 0 => (0, t)
  | 3 => match preset f.reqPreset with
    | some p => if long ∧ 3 < f.reqPreset then (3, t) else (1, p)
    | none => (3, t)
  | a => match t.step f.reqTap (if a = 1 then 1 else -1) with
    | some p => if p.ok then (1, p) else (2, t)
    | none => (3, t)

def State.long (s : State) (d : Die) (n : Nat) : Bool := s.on d (LNE.LNE_CFG.REACH n)

/-- Act on a request in a frame: one whose toggle is unchanged is answered again and not applied twice (R490). -/
def State.serveReq (s : State) (d : Die) (n : Nat) (f : TFrame) : State :=
  let l := s.lane d n
  if f.reqAction = 0 ∨ l.lastReq = some f.reqToggle then s
  else
    let (st, t) := answerReq (s.long d n) (s.taps d n) f
    (s.setTaps d n t).modLane d n (fun l => { l with lastReq := some f.reqToggle, tx := { l.tx with rspStatus := st, rspToggle := f.reqToggle } })

/-- The frame a lane sends, in its present state. -/
def State.frameOf (s : State) (d : Die) (n : Nat) : TFrame :=
  let l := s.lane d n
  let st := s.laneSt d n
  { l.tx with
    phase := if st = 10 then 6 else if st = 6 ∧ l.passed then 5 else if st = 5 ∨ st = 6 then 4 else if st = 4 then 3 else if st = 3 then 2 else 1,
    rank := s.laneRank n, rate := s.rd d (LNE.LNE_STATE.RATE n), reach := s.rd d (LNE.LNE_CFG.REACH n), rxReady := l.rxReady,
    fecLocked := st == 6, laneNum := n, prbsPattern := s.rd d (LNE.PRBS_CTRL.PATTERN n) }

/-- A frame leaves a lane: from RX_ADAPT onward its pattern is PRBS13Q. -/
def State.putFrame (s : State) (d : Die) (n : Nat) (f : TFrame) : State := s.emit (.frame (d.num * 64 + n) (frameBits f) (decide (3 ≤ f.phase)))

def State.sendFrame (s : State) (d : Die) (n : Nat) : State := s.putFrame d n (s.frameOf d n)

/-! ## Steps of training (R487 to R490) -/

/-- A new request to the partner, or none: what the receiver asks for is its own choice (log entry 2). -/
def State.nextReq (s : State) (d : Die) (n : Nat) : State :=
  s.draw (fun k s => s.modLane d n (fun l =>
    { l with requests := l.requests + 1,
             tx := { l.tx with reqTap := k % 5, reqAction := 1 + k / 5 % 3, reqPreset := 1 + k / 15 % (if s.long d n then 3 else 5),
                               reqToggle := !l.tx.reqToggle } }))

/-- Receiver equalisation that an adaptation finds: free within the limits of R482, R483. -/
def State.adaptRx (s : State) (d : Die) (n : Nat) : State :=
  s.draw (fun k s =>
    let long := s.long d n
    let tap := fun (i : Nat) => let x := k / 256 ^ (i + 6) % 256
      if long then (if i < 3 then ofSbyte ((x % 129 : Nat) - 64) else 0) else x
    let s := s.modLane d n (fun l => { l with ffe := (List.range 32).map (fun i => k / 256 ^ (i + 22) % 256) })
    let s := s.wrs d [(LNE.RX_EQ.CTLE n, k % 16), (LNE.RX_EQ.VGA n, k / 16 % 256), (LNE.RX_EQ.SNR_CDB n, k / 4096 % 65536)]
    let s := s.wrs d [(LNE.DFE_TAPS.TAP1 n, tap 0), (LNE.DFE_TAPS.TAP2 n, tap 1), (LNE.DFE_TAPS.TAP3 n, tap 2), (LNE.DFE_TAPS.TAP4 n, tap 3),
      (LNE.DFE_TAPS.TAP5 n, tap 4), (LNE.DFE_TAPS.TAP6 n, tap 5), (LNE.DFE_TAPS.TAP7 n, tap 6), (LNE.DFE_TAPS.TAP8 n, tap 7)]
    if long then s
    else
      let pos := fun (i : Nat) => let x := k / 256 ^ (i + 14) % 33; if x = 0 then 0 else 8 + x
      let val := fun (i : Nat) => k / 256 ^ (i + 18) % 256
      s.wrs d [(LNE.DFE_FLOAT.POS0 n, pos 0), (LNE.DFE_FLOAT.POS1 n, pos 1), (LNE.DFE_FLOAT.POS2 n, pos 2), (LNE.DFE_FLOAT.POS3 n, pos 3),
        (LNE.DFE_FLOAT.VAL0 n, val 0), (LNE.DFE_FLOAT.VAL1 n, val 1), (LNE.DFE_FLOAT.VAL2 n, val 2), (LNE.DFE_FLOAT.VAL3 n, val 3)])

/-- Start a qualification window (R488). -/
def State.qualStart (s : State) (d : Die) (n : Nat) (long : Bool) : State :=
  s.modLane d n (fun l => { l with qualAt := s.now, qualCw := s.rd d (LNE.FEC_CODEWORDS.COUNT n), qualSym := s.rd d (LNE.FEC_CORRECTED_SYMBOLS.COUNT n),
                                   qualUnc := s.rd d (LNE.FEC_UNCORRECTABLE.COUNT n), qualLong := long })

/-- A lane is trained when every lane that its port uses has passed and its partner is READY. -/
def State.laneDone (s : State) (d : Die) (n : Nat) : State :=
  let l := s.lane d n
  let i := s.lanePort n
  let all := (s.portLanes i).all (fun k => !bitOf (s.llu d i).useMask (s.laneRank k) || (s.lane d k).passed || s.laneSt d k == 7)
  let ready : Bool := match l.partner with | some f => f.phase == 5 | none => false
  if s.laneSt d n = 6 ∧ l.passed ∧ all ∧ ready then
    ((s.laneStep d n 7).bump d (LNE.TRAININGS.COUNT n)).wrs d
      [(LNE.LAST_TRAIN.DURATION_US n, min (2 ^ 24 - 1) ((s.now - l.trainAt) / 1000)), (LNE.LAST_TRAIN.FULL n, b2n l.full), (LNE.LNE_STATE.FAIL_REASON n, 0)]
  else s

/-- The lanes of a port, each taken to TRAINED where it may be. -/
def State.lanesDoneAll (s : State) (d : Die) (n : Nat) : State := (s.portLanes (s.lanePort n)).foldl (fun s k => s.laneDone d k) s

/-- A lane restarts at a step, with a reason (R487, R488, R490). -/
def State.laneRestart (s : State) (d : Die) (n st reason : Nat) : State :=
  ((s.laneStep d n st).bump d (LNE.TRAIN_FAILS.COUNT n)).wr d (LNE.LNE_STATE.FAIL_REASON n) reason |>.modLane d n
    (fun l => { l with full := true, lastReq := none, requests := 0, rxReady := false, passed := false, partner := none, qualLong := false })

/-- The request that PRBS makes or accepts is allowed: the port is DISABLED or FAILED, or the lane is retired (R494). -/
def State.prbsAllowed (s : State) (d : Die) (n : Nat) : Bool :=
  let st := s.linkSt d (s.lanePort n)
  st == lsDISABLED || st == lsFAILED || s.retired 1 d (d.num * 64 + n)

/-- The shortest time of a step, in ns (R487). -/
def stepMin (st : Nat) : Nat := if st = 2 then 5000 else if st = 3 then 200000 else if st = 4 then 100000 else if st = 5 then 2000 else 50000

/-- A lane's step has lasted its shortest time. -/
def State.stepRipe (s : State) (d : Die) (n : Nat) : Bool := decide ((s.lane d n).stepAt + stepMin (s.laneSt d n) ≤ s.now)

/-- Both ends' requests and answers of TX_EQ: a new request once the last is answered, until the receiver has done. -/
def State.txEq (s : State) (d : Die) (n : Nat) (f : TFrame) : State :=
  let l := s.lane d n
  if l.requests ≠ 0 ∧ f.rspToggle ≠ l.tx.reqToggle then s
  else
    let (s, k) := s.drawNat
    if (2048 ≤ l.requests ∨ (l.requests ≠ 0 ∧ k % 2 = 0)) ∧ s.stepRipe d n then
      (s.laneStep d n 4).modLane d n (fun l => { l with tx := { l.tx with reqAction := 0 } })
    else if 2048 ≤ l.requests then s
    else s.nextReq d n

/-- A frame of the partner in each state of the lane. -/
def State.frameIn (s : State) (d : Die) (n : Nat) (f : TFrame) (inverted : Bool) : State :=
  let s := s.modLane d n (fun l => { l with partner := some f })
  let st := s.laneSt d n
  match st with
  | 2 =>
    if f.reach ≠ s.rd d (LNE.LNE_CFG.REACH n) then s.wr d (LNE.LNE_STATE.FAIL_REASON n) 2
    else if f.rate ≠ s.rd d (LNE.LNE_STATE.RATE n) then s.wr d (LNE.LNE_STATE.FAIL_REASON n) 3
    else if !s.stepRipe d n then s
    else (s.wrs d [(LNE.LNE_STATE.POLARITY_INV n, b2n inverted), (LNE.LNE_STATE.RANK_RX n, f.rank), (LNE.LNE_STATE.PARTNER_LANE n, f.laneNum)]).laneStep d n 3
  | 3 => (s.serveReq d n f).txEq d n f
  | 4 =>
    let s := s.serveReq d n f
    let s := if (s.lane d n).rxReady then s
      else
        let (s, k) := s.drawNat
        if k % 2 = 0 ∨ !s.stepRipe d n then s else (s.adaptRx d n).modLane d n (fun l => { l with rxReady := true })
    if (s.lane d n).rxReady ∧ s.on d (LNE.PRBS_CTRL.REQ n) then s.laneStep d n 10
    else if (s.lane d n).rxReady ∧ f.rxReady then s.laneStep d n 5
    else if (s.lane d n).rxReady ∧ f.phase = 6 ∧ s.on d (LNE.PRBS_CTRL.ALLOW n) ∧ s.prbsAllowed d n then s.laneStep d n 10
    else s
  | 6 => s.lanesDoneAll d n
  | 7 =>
    if f.phase = 7 then
      let (s, k) := s.drawNat
      s.laneStep d n (8 + k % 2)
    else s
  | 10 =>
    if f.phase = 6 ∧ s.on d (LNE.PRBS_CTRL.ALLOW n) ∧ s.prbsAllowed d n then s.modLane d n (fun l => { l with tx := { l.tx with prbsAck := true } })
    else s
  | _ => s

/-- A lane leaves Waltz or Pavane by training from stored coefficients, and where its port is ACTIVE all of it retrains so (R492). -/
def State.laneWake (s : State) (d : Die) (n : Nat) : State :=
  let i := s.lanePort n
  if s.linkSt d i = lsACTIVE then
    (s.modLlu d i (fun l => { l with downAt := s.now, gaveUp := false, useMask := s.rd d (LLU.LINK_STATE.LANES_ACTIVE i),
                                     useRate := s.rd d (LLU.LINK_STATE.RATE i) })).attempt d i false
  else s.laneStart d n (s.rd d (LNE.LNE_STATE.RATE n)) false

/-- TRAINING_FRAME (R486, R487, R490, R492, R494): a frame whose CRC fails is ignored. -/
def execTrainingFrame (d : Die) (n : Fin 64) (c : BitVec 128) (inverted : Bool) (s : State) : Host.Outcome State Fault Refusal :=
  .next (
    let f := parseFrame c
    let st := s.laneSt d n.val
    if !frameOk c ∨ st = 0 ∨ st = 1 ∨ st = 11 then s
    else if (st = 8 ∨ st = 9) then if f.phase = 7 then s else s.laneWake d n.val
    else (s.frameIn d n.val f inverted).sendFrame d n.val)

/-- QUAD_PLL_LOCKED (R487): at least 20 µs after it started. -/
def execQuadPllLocked (d : Die) (q : Fin 16) (s : State) : Host.Outcome State Fault Refusal :=
  .next (match tget (s.die d).pllAt q.val with
    | none => s
    | some t =>
      if s.now < t + 20000 then s
      else
        let s := s.modDie d (fun x => { x with plls := setInsert x.plls q.val, pllAt := tdel x.pllAt q.val })
        (List.range 4).foldl (fun s k => if s.laneSt d (4 * q.val + k) = 1 then s.laneStep d (4 * q.val + k) 2 else s) s)

/-- The longest time of a step, in ns (R487). -/
def stepMax (st : Nat) : Nat :=
  if st = 2 then 50000 else if st = 3 then 6000000 else if st = 4 then 3000000 else if st = 5 then 100000 else 1500000

/-- FAIL_REASON of a step that did not end. -/
def stepReason (st old : Nat) : Nat :=
  if st = 2 then (if old = 2 ∨ old = 3 then old else 1) else if st = 3 then 4 else if st = 4 then 5 else if st = 5 then 6 else 7

/-- LANE_STEP_TIMEOUT (R487). -/
def execLaneStepTimeout (d : Die) (n : Fin 64) (s : State) : Host.Outcome State Fault Refusal :=
  .next (
    let st := s.laneSt d n.val
    if 2 ≤ st ∧ st ≤ 6 ∧ (s.lane d n.val).stepAt + stepMax st < s.now then
      s.laneRestart d n.val 2 (stepReason st (s.rd d (LNE.LNE_STATE.FAIL_REASON n.val)))
    else s)

/-- The port's other lanes pass qualification (R488; 16_faults.md R501). -/
def State.othersPass (s : State) (d : Die) (n : Nat) : Bool :=
  let others := (s.codeLanes d (s.lanePort n)).filter (· != n)
  !others.isEmpty && others.all (fun k => (s.lane d k).passed || s.laneSt d k == 7)

/-- QUALIFICATION_WINDOW (R488, R489). -/
def execQualificationWindow (d : Die) (n : Fin 64) (s : State) : Host.Outcome State Fault Refusal :=
  .next (
    let n := n.val
    let l := s.lane d n
    let w := us (max 10 (s.rd d (LNE.QUAL_CFG.WINDOW_US n))) * (if l.qualLong then 10 else 1)
    if s.laneSt d n ≠ 6 ∨ l.passed ∨ s.now < l.qualAt + w then s
    else
      let cw := s.rd d (LNE.FEC_CODEWORDS.COUNT n) - l.qualCw
      let sym := s.rd d (LNE.FEC_CORRECTED_SYMBOLS.COUNT n) - l.qualSym
      let unc := s.rd d (LNE.FEC_UNCORRECTABLE.COUNT n) - l.qualUnc
      if 0 < cw ∧ sym * 10000 ≤ 544 * cw ∧ unc = 0 then
        ((s.modLane d n (fun l => { l with passed := true, qualFails := 0 })).sendFrame d n).lanesDoneAll d n
      else if !l.qualLong then s.qualStart d n true
      else
        let fails := if s.othersPass d n then l.qualFails + 1 else 0
        (s.laneRestart d n (if l.full then 3 else 2) 7).modLane d n (fun x => { x with qualFails := fails }))

/-- Count a decoded data codeword (R481). -/
def State.countCode (s : State) (d : Die) (n : Nat) (errors : Option Nat) : State :=
  let s := s.bump d (LNE.FEC_CODEWORDS.COUNT n)
  match errors with
  | none => (s.bump d (LNE.FEC_UNCORRECTABLE.COUNT n)).bump d (LNE.SYM_HIST.COUNT n 16)
  | some e =>
    if e = 0 then s
    else ((s.bump d (LNE.FEC_CORRECTED_CW.COUNT n)).bumpBy d (LNE.FEC_CORRECTED_SYMBOLS.COUNT n) e).bump d (LNE.SYM_HIST.COUNT n e)

/-- FEC_LOCK ends: every lane that the port uses has locked, and their periods agree, so the lanes are deskewed (R479, R487). The flit
being received is the one that the earliest of their next blocks belongs to. -/
def State.deskew (s : State) (d : Die) (i : Nat) : State :=
  let lanes := s.codeLanes d i
  let rx := fun (n : Nat) => (s.lane d n).line
  match lanes with
  | [] => s
  | n0 :: _ =>
    if (rx n0).period.isSome && lanes.all (fun n => s.laneCodes d n && (rx n).period == (rx n0).period) then
      let first := lanes.map (fun n => (rx n).phase)
      let at_ := (first.find? (fun p => first.all (fun q => decide ((q + 17 - p) % 17 < lanes.length)))).getD 0
      let s := s.modLlu d i (fun l => if l.rxOpen then l else { l with rxPos := at_, rxPart := [], rxBad := false })
      lanes.foldl (fun s n => if s.laneSt d n = 5 ∧ s.stepRipe d n then (s.laneStep d n 6).qualStart d n false else s) s
    else s

/-- Blocks of the port's lanes come together as flits in the order of R453; a flit with an uncorrectable block fails its check (R481).
The blocks before the first flit's first are dropped. -/
def State.gather (d : Die) (i : Nat) : Nat → State → State
  | 0, s => s
  | fuel + 1, s =>
    let l := s.llu d i
    match (s.codeLanes d i).find? (fun n => (s.lane d n).line.queue.head?.map (·.1) == some l.rxPos) with
    | none => s
    | some n =>
      match (s.lane d n).line.queue with
      | [] => s
      | (_, b, bad) :: rest =>
        let s := s.modLane d n (fun x => { x with line := { x.line with queue := rest } })
        let open_ := l.rxOpen || l.rxPos == 0
        let part := if open_ then l.rxPart ++ b else []
        let worse := open_ && (l.rxBad || bad)
        if l.rxPos < 16 then
          State.gather d i fuel (s.modLlu d i (fun l => { l with rxPos := l.rxPos + 1, rxOpen := open_, rxPart := part, rxBad := worse }))
        else
          let s := s.modLlu d i (fun l => { l with rxPos := 0, rxOpen := open_, rxPart := [], rxBad := false })
          State.gather d i fuel (if open_ then s.flitIn d i part worse else s)

/-- A codeword of a lane in FEC_LOCK or later: an alignment codeword where one is due or, before the lane has locked, where its marker
stands; else data. -/
def State.codeIn (s : State) (d : Die) (n : Nat) (msg : Nat) (errors : Option Nat) : State :=
  let i := s.lanePort n
  let x := (s.lane d n).line
  let marker := errors.isSome && msg % 2 ^ 64 == 0x5A3C96E10F87C32D && msg / 2 ^ 110 == 0
  if (if x.period.isSome then x.words == 8192 else marker) = true then
    let s := s.modLane d n (fun l => { l with line := if marker then l.line.align (s.llu d i).rxOpen msg else { l.line with words := 0 } })
    s.deskew d i
  else
    let s := s.countCode d n errors
    if x.period.isNone then s
    else
      let s := s.modLane d n (fun l => { l with line := l.line.take (s.codeLanes d i).length msg errors.isNone })
      if (s.codeLanes d i).all (fun k => (s.lane d k).line.period.isSome) then
        State.gather d i ((s.portLanes i).map (fun k => (s.lane d k).line.queue.length)).sum s
      else s

/-- FEC_CODEWORD (R477 to R481): the levels of a codeword's message and of its parity are decoded and corrected, or found uncorrectable. -/
def execFecCodeword (d : Die) (n : Fin 64) (msg parity : List (Fin 4)) (s : State) : Host.Outcome State Fault Refusal :=
  .next (
    let n := n.val
    if !s.laneCodes d n then s
    else
      let (w, last) := levelSymbols (if s.precodes d n then some (s.lane d n).line.last else none) ((msg ++ parity).map (·.val))
      let s := s.modLane d n (fun l => { l with line := { l.line with last := last } })
      match rsDecode w with
      | some (w, e) => s.codeIn d n (symbolsNat (w.take 514)) (some e)
      | none => s.codeIn d n (symbolsNat (w.take 514)) none)

/-- Lane clock divider of a rate (R476). -/
def rateDiv (code : Nat) : Nat := if code = 4 then 1 else if code = 3 then 2 else if code = 2 then 4 else 8

/-- A tap moved by at most one step. -/
def nudge (v k lo hi : Nat) : Nat :=
  let x := sbyte v + ((k % 3 : Nat) : Int) - 1
  ofSbyte (max (-(lo : Int)) (min hi x))

/-- ADAPTATION_UPDATE (R485): every 65,536 symbols each tap moves by at most 1/256 of the main cursor. -/
def execAdaptationUpdate (d : Die) (n : Fin 64) (s : State) : Host.Outcome State Fault Refusal :=
  .next (
    let n := n.val
    let period := 65536 * 10 * rateDiv (s.rd d (LNE.LNE_STATE.RATE n)) / 2371
    if s.laneSt d n ≠ 7 ∨ !s.on d (LNE.ADAPT_CFG.CONTINUOUS n) ∨ s.now < (s.lane d n).adaptAt + period then s
    else s.draw (fun k s =>
      let long := s.long d n
      let lo := if long then 64 else 128
      let hi := if long then 64 else 127
      let mv := fun (s : State) (f : Fld) (i : Nat) => s.wr d f (nudge (s.rd d f) (k / 3 ^ i) lo hi)
      let s := mv (mv (mv s (LNE.DFE_TAPS.TAP1 n) 0) (LNE.DFE_TAPS.TAP2 n) 1) (LNE.DFE_TAPS.TAP3 n) 2
      let s := if long then s else
        let s := mv (mv (mv (mv (mv s (LNE.DFE_TAPS.TAP4 n) 3) (LNE.DFE_TAPS.TAP5 n) 4) (LNE.DFE_TAPS.TAP6 n) 5) (LNE.DFE_TAPS.TAP7 n) 6)
          (LNE.DFE_TAPS.TAP8 n) 7
        mv (mv (mv (mv s (LNE.DFE_FLOAT.VAL0 n) 8) (LNE.DFE_FLOAT.VAL1 n) 9) (LNE.DFE_FLOAT.VAL2 n) 10) (LNE.DFE_FLOAT.VAL3 n) 11
      let s := s.modLane d n (fun l => { l with ffe := l.ffe.zipIdx.map (fun t => nudge t.1 (k / 3 ^ (t.2 + 14)) 128 127) })
      let s := s.wrs d [(LNE.RX_EQ.VGA n, s.rd d (LNE.RX_EQ.VGA n) + k / 3 ^ 12 % 3 + 255), (LNE.RX_EQ.SNR_CDB n, k / 3 ^ 46 % 65536)]
      s.modLane d n (fun l => { l with adaptAt := s.now })))

/-- LANE_LOCK_LOSS (R467, R490). -/
def execLaneLockLoss (d : Die) (n : Fin 64) (s : State) : Host.Outcome State Fault Refusal :=
  .next (
    let n := n.val
    let st := s.laneSt d n
    if st = 7 then
      let s := s.bump d (LNE.LOCK_LOSSES.COUNT n)
      if s.linkSt d (s.lanePort n) = lsACTIVE then s.retrain d (s.lanePort n) 3 else s.laneRestart d n 2 6
    else if st = 5 ∨ st = 6 then s.laneRestart d n 2 6
    else s)

/-! ## Power states (R491, R492) -/

/-- Sixteen IDLE_ORDER frames. -/
def State.idleOrder (s : State) (d : Die) (n : Nat) : State :=
  (List.range 16).foldl (fun s _ => s.putFrame d n { s.frameOf d n with phase := 7 }) s

/-- Write LNE_PWR. -/
def State.lnePwr (s : State) (d : Die) (n v : Nat) : State :=
  let i := s.lanePort n
  let st := s.laneSt d n
  if v = 0 then
    let s := s.wr d (LNE.LNE_PWR.REQ n) 0
    if st = 8 ∨ st = 9 then s.laneWake d n else s
  else if v = 3 ∨ !(s.linkSt d i = lsDISABLED ∨ s.linkSt d i = lsFAILED ∨ !s.on d (HDR.STATUS.ENABLED (lluBase i))) then
    s.wr d (LNE.LNE_STATE.PWR_REJECT n) 1
  else
    let s := s.wr d (LNE.LNE_PWR.REQ n) v
    if st = 0 ∨ st = 1 ∨ st = 11 then s else (s.idleOrder d n).laneStep d n (7 + v)

/-- LNE_PWR_WRITE (R492). -/
def execLnePwrWrite (rq : Requester) (d : Die) (n : Fin 64) (v : Fin 4) (s : State) : Host.Outcome State Fault Refusal :=
  .next (s.asWarden rq d (LNE.LNE_PWR.REQ n.val).off (fun s => s.lnePwr d n.val v.val))

/-! ## PRBS (R494, R495) -/

/-- Bits compared since the checker locked; how many were in error is what the channel did (log entry 2). -/
def State.prbsSettle (s : State) (d : Die) (n : Nat) : State :=
  if !s.on d (LNE.PRBS_STATUS.LOCKED n) then s
  else
    let bits := (s.now - (s.lane d n).prbsAt) * 4742 / (10 * rateDiv (s.rd d (LNE.LNE_STATE.RATE n)))
    s.draw (fun k s =>
      ((s.bumpBy d (LNE.PRBS_BITS.COUNT n) bits).bumpBy d (LNE.PRBS_ERRORS.COUNT n) (k % (bits + 1))).modLane d n (fun l => { l with prbsAt := s.now }))

/-- Write PRBS_CTRL. -/
def State.prbsCtrl (s : State) (d : Die) (n v : Nat) : State :=
  let req := bitOf v 0
  let was := s.on d (LNE.PRBS_CTRL.REQ n)
  let s := s.wrs d [(LNE.PRBS_CTRL.PATTERN n, bitsOf v 1 3), (LNE.PRBS_CTRL.ALLOW n, bitsOf v 4 1)]
  if req = was then s
  else if !s.prbsAllowed d n then s.wr d (LNE.PRBS_STATUS.REJECTED n) 1
  else if req then
    let st := s.laneSt d n
    let s := s.wrs d [(LNE.PRBS_CTRL.REQ n, 1), (LNE.LNE_STATE.STATE n, if s.pllOn d (n / 4) then 2 else 1), (LNE.LNE_STATE.RATE n, s.rd d (LNE.LNE_CFG.RATE_MAX n))]
    let s := s.modLane d n (fun l => { l with stepAt := s.now, trainAt := s.now, full := true, lastReq := none, requests := 0, rxReady := false,
                                              passed := false, partner := none, back := st })
    if s.pllOn d (n / 4) then s else s.modDie d (fun x => { x with pllAt := tput x.pllAt (n / 4) s.now })
  else
    let s := (s.prbsSettle d n).wrs d [(LNE.PRBS_CTRL.REQ n, 0), (LNE.PRBS_STATUS.LOCKED n, 0)]
    s.laneOff d n

/-- PRBS_CTRL_WRITE (R494). -/
def execPrbsCtrlWrite (rq : Requester) (d : Die) (n : Fin 64) (v : W64) (s : State) : Host.Outcome State Fault Refusal :=
  .next (s.asWarden rq d (LNE.PRBS_CTRL.REQ n.val).off (fun s => s.prbsCtrl d n.val v.toNat))

/-- The partner has set PRBS_ACK. -/
def State.prbsAcked (s : State) (d : Die) (n : Nat) : Bool := match (s.lane d n).partner with | some f => f.phase == 6 && f.prbsAck | none => false

/-- PRBS_NO_PARTNER (R494). -/
def execPrbsNoPartner (d : Die) (n : Fin 64) (s : State) : Host.Outcome State Fault Refusal :=
  .next (
    let l := s.lane d n.val
    if s.laneSt d n.val = 10 ∧ !s.prbsAcked d n.val ∧ l.stepAt + 1000000 ≤ s.now then
      (s.wrs d [(LNE.PRBS_STATUS.NO_PARTNER n.val, 1), (LNE.PRBS_CTRL.REQ n.val, 0)]).laneStep d n.val l.back
    else s)

/-- PRBS_CHECKER_LOCK (R495). -/
def execPrbsCheckerLock (d : Die) (n : Fin 64) (s : State) : Host.Outcome State Fault Refusal :=
  .next (if s.laneSt d n.val = 10 ∧ s.prbsAcked d n.val ∧ !s.on d (LNE.PRBS_STATUS.LOCKED n.val) then
      (s.wr d (LNE.PRBS_STATUS.LOCKED n.val) 1).modLane d n.val (fun l => { l with prbsAt := s.now })
    else s)

/-- PRBS_LOSS_OF_LOCK (R495). -/
def execPrbsLossOfLock (d : Die) (n : Fin 64) (s : State) : Host.Outcome State Fault Refusal :=
  .next (if s.on d (LNE.PRBS_STATUS.LOCKED n.val) then
      ((s.prbsSettle d n.val).wr d (LNE.PRBS_STATUS.LOCKED n.val) 0).bump d (LNE.PRBS_STATUS.RELOCKS n.val)
    else s)

end Sys2Proof.Machine
end

