-- ==== Sys2Proof/Machine/Engines.lean ====
section
/-! DEFINITION. The engines' accesses to device memory and their store buffers (05_host_ports.md R140 to R144; 17_power.md R539). The
manual does not give the engines' instructions: an engine holds the accesses that its code is still to make, and nothing here writes
them (log entry 149). -/

namespace Sys2Proof.Machine

/-! ## Engines and their clusters (01_anatomy.md R13) -/

def engine0 : Engine := { code := [], buf := [], loads := [] }

def State.engine (s : State) (n : Nat) : Engine := (tget s.engines n).getD engine0
def State.setEngine (s : State) (n : Nat) (e : Engine) : State :=
  { s with engines := if e = engine0 then tdel s.engines n else tput s.engines n e }

/-- Die of an engine, and the power domain of its cluster (17_power.md R531). -/
def engineDie (n : Nat) : Die := if n < 64 then .a else .b
def engineDom (n : Nat) : Nat := 16 + n % 64 / 8

/-! ## Store buffers -/

/-- Entries of a store buffer. -/
def bufEntries : Nat := 16

/-- Entries that the NoC has not accepted: those in the buffer (R539). -/
def Engine.held (e : Engine) : List BufEntry := e.buf.filter (fun x => !x.accepted)

/-- The newest of two bytes, by program order. -/
def newer (x : Option BufByte) (y : BufByte) : Option BufByte :=
  match x with
  | some z => if z.seq ≤ y.seq then some y else some z
  | none => some y

/-- The value that the engine's own buffered stores give a byte. -/
def Engine.fwd (e : Engine) (a : Nat) : Option Byte :=
  (((e.buf.flatMap (·.bytes)).filter (fun b => b.addr == a)).foldl newer none).map (·.val)

/-- What a load returns: bytes of the engine's buffered stores, and of memory (R140). -/
def State.engLoad (s : State) (e : Engine) (a n : Nat) : List Byte :=
  (List.range n).map (fun i => (e.fwd (a + i)).getD (s.mbyte (a + i)))

/-- The bytes of a store. -/
def storeBytes (a : Nat) (l : List Byte) (seq : Nat) : List BufByte :=
  (List.range l.length).zipWith (fun i b => { addr := a + i, val := b, seq := seq }) l

/-- Put bytes of one line into the buffer: into the line's entry, where it has one, else into a new one. A release store's entry goes
behind all others. -/
def bufPut (buf : List BufEntry) (line : Nat) (bs : List BufByte) (rel : Bool) : List BufEntry :=
  match buf.find? (fun x => x.line == line && !x.accepted) with
  | some x =>
    let y := { x with bytes := x.bytes ++ bs, rel := x.rel || rel }
    if rel then buf.erase x ++ [y] else buf.map (fun z => if z = x then y else z)
  | none => buf ++ [{ line := line, bytes := bs, rel := rel, accepted := false }]

/-- Lines of a store. -/
def storeLines (a n : Nat) : List Nat := if n = 0 then [] else (List.range ((a + n - 1) / 64 - a / 64 + 1)).map (· + a / 64)

/-- A store enters the buffer, which must have room for it. -/
def Engine.store (e : Engine) (a : Nat) (l : List Byte) (rel : Bool) (seq : Nat) : Engine :=
  let bs := storeBytes a l seq
  { e with buf := (storeLines a l.length).foldl (fun b k => bufPut b k (bs.filter (fun x => x.addr / 64 == k)) rel) e.buf }

/-- Write an entry's bytes to memory. -/
def State.writeEntry (s : State) (bs : List BufByte) : State :=
  bs.foldl (fun s b => s.devAccess (ownAccess b.addr (.write [b.val] false))) s

/-! ## What an engine may do next -/

/-- One step of an engine. -/
inductive EngStep where
  /-- Perform the access at a place of its code. -/
  | run (p : Nat)
  /-- The NoC accepts an entry. -/
  | accept (k : Nat)
  /-- An accepted entry reaches memory. -/
  | complete (k : Nat)
  deriving DecidableEq, Repr

/-- Two ranges of bytes do not meet. -/
def disjoint_ (a n b m : Nat) : Bool := decide (a + n ≤ b) || decide (b + m ≤ a)

/-- An older access of the code lets a plain load of a range go first: a plain load of other addresses (R140). -/
def passable (a n : Nat) (o : Nat × EngOp) : Bool :=
  match o.2 with
  | .load b m false => disjoint_ a n b m
  | _ => false

/-- The access at place `p` of the code may be performed now. -/
def Engine.mayRun (e : Engine) (p : Nat) : Bool :=
  match e.code.drop p with
  | [] => false
  | (_, o) :: _ =>
    if p = 0 then match o with
      | .load .. | .fault => true
      | .store a l _ => decide (((e.store a l false 0).held).length ≤ bufEntries)
      | .fence => e.buf.isEmpty
    else match o with
      | .load a n false => (e.code.take p).all (passable a n)
      | _ => false

/-- The NoC may accept entry `k`: a release store only as the oldest, when all before it is visible; any other after the entries of its
own line (R140). -/
def Engine.mayAccept (e : Engine) (k : Nat) : Bool :=
  match e.buf.drop k with
  | [] => false
  | x :: _ => !x.accepted && (if x.rel then k == 0 else (e.buf.take k).all (fun y => y.line != x.line))

/-- Accepted entry `k` may reach memory, which answers. -/
def State.mayComplete (s : State) (e : Engine) (k : Nat) : Bool :=
  match e.buf.drop k with
  | [] => false
  | x :: _ => x.accepted && (s.memAwake (s.memDie (x.line * 64)) || s.memOff (s.memDie (x.line * 64)))

/-- The steps an engine may take. -/
def State.engSteps (s : State) (n : Nat) : List EngStep :=
  let e := s.engine n
  let d := engineDie n
  let up := s.rd d (PWC.DOM_STATE.STATE (engineDom n)) == 0 || s.on d (PWC.DOM_STATE.FENCING (engineDom n))
  (if up then ((List.range e.code.length).filter e.mayRun).map EngStep.run ++
      ((List.range e.buf.length).filter e.mayAccept).map EngStep.accept else []) ++
    ((List.range e.buf.length).filter (s.mayComplete e)).map EngStep.complete

/-- An exception of the instruction with number `k` (R143): the older stores are committed, the younger ones discarded, and with them the
rest of the code. -/
def State.engFault (s : State) (n k : Nat) : State :=
  let e := s.engine n
  (s.writeEntry ((e.buf.flatMap (·.bytes)).filter (fun b => b.seq < k))).setEngine n { e with code := [], buf := [] }

/-- Perform the access at place `p`. -/
def State.engRun (s : State) (n p : Nat) : State :=
  let e := s.engine n
  match e.code.drop p with
  | [] => s
  | (k, o) :: _ =>
    let e' := { e with code := e.code.eraseIdx p }
    match o with
    | .load a m _ => s.setEngine n { e' with loads := tput e.loads k (s.engLoad e a m) }
    | .store a l rel => s.setEngine n (e'.store a l rel k)
    | .fence => s.setEngine n e'
    | .fault => s.engFault n k

/-- Take one step. An entry whose line a host caches waits for the recall. -/
def State.engDo (s : State) (n : Nat) : EngStep → State
  | .run p => s.engRun n p
  | .accept k =>
    let e := s.engine n
    s.setEngine n { e with buf := e.buf.modify k (fun x => { x with accepted := true }) }
  | .complete k =>
    let e := s.engine n
    match e.buf.drop k with
    | [] => s
    | x :: _ =>
      if s.memOff (s.memDie (x.line * 64)) then (s.bump (s.memDie (x.line * 64)) PWC.LOCKED_OFF_DROPS.COUNT).setEngine n { e with buf := e.buf.eraseIdx k }
      else if s.mustRecall (x.line * 64) true then s.devAccess (ownAccess (x.line * 64) (.touch 1 true))
      else (s.writeEntry x.bytes).setEngine n { e with buf := e.buf.eraseIdx k }

/-- An engine takes one of the steps it may take; which, the manual leaves open (R140). -/
def State.engStep (s : State) (n : Nat) : State :=
  match s.engSteps n with
  | [] => s
  | l => s.draw (fun r s => match l[r % l.length]? with | some x => s.engDo n x | none => s)

/-- Every engine that has something to do takes a step. -/
def State.enginesStep (s : State) : State := (s.engines.map (·.1)).foldl State.engStep s

/-! ## Resets (R144) -/

/-- An engine is reset: stores that the NoC has accepted complete, and the others are discarded. -/
def State.engineReset (s : State) (n : Nat) : State :=
  (s.writeEntry (((s.engine n).buf.filter (·.accepted)).flatMap (·.bytes))).setEngine n engine0

/-- The engines of a domain of a die are reset. -/
def State.clusterReset (s : State) (d : Die) (i : Nat) : State :=
  ((s.engines.map (·.1)).filter (fun n => engineDie n == d && engineDom n == i)).foldl State.engineReset s

/-- An engine of the domain has a store in its buffer, or accesses to make. -/
def State.engineWork (s : State) (d : Die) (i : Nat) : Bool :=
  s.engines.any (fun p => engineDie p.1 == d && engineDom p.1 == i && (!p.2.code.isEmpty || !p.2.held.isEmpty))

end Sys2Proof.Machine
end

