-- ==== Sys2Proof/Machine/Power.lean ====
section
/-! DEFINITION. Power domains and clock islands (17_power.md): the ladder, drain and fence, wake and hold, lock-off, the core
voltage, and the thermal trip (20_package.md R603). -/

namespace Sys2Proof.Machine

/-! ## The domains (R525, R531) -/

def dom0 : Dom := { idleAt := none, stateAt := 0, fenceAt := 0, acked := false, wakeAt := none, held := [] }

def State.dom (s : State) (d : Die) (i : Nat) : Dom := (tget (s.die d).doms i).getD dom0
def State.modDom (s : State) (d : Die) (i : Nat) (f : Dom → Dom) : State :=
  s.modDie d (fun x => { x with doms := tput x.doms i (f ((tget x.doms i).getD dom0)) })

def State.domSt (s : State) (d : Die) (i : Nat) : Nat := s.rd d (PWC.DOM_STATE.STATE i)

/-- Exit latency of a state, in ns. -/
def exitNs (k : Nat) : Nat :=
  match k with
  | 0 => 0
  | 1 => 10
  | 2 => 100
  | 3 => 1000
  | 4 => 10000
  | _ => 100000

/-- The deepest state that a domain's MAX_STATE may name. -/
def domLimit (i : Nat) : Nat :=
  if i < 24 then 5 else if i < 26 then 2 else if i < 29 then 4 else if i = 29 then 3 else if i = 30 then 2 else 4

/-- The host port of a domain 24 or 25. -/
def domHp (d : Die) (i : Nat) : Fin 4 := ⟨(2 * d.num + (i - 24)) % 4, Nat.mod_lt _ (by decide)⟩

/-- A domain's unit has work, by its type's condition. A lane quad never descends automatically. -/
def State.domBusy (s : State) (d : Die) (i : Nat) : Bool :=
  let x := s.die d
  if i < 16 then true
  else if i < 24 then s.engineWork d i || s.ops.any (fun o => o.2.cluster == some (8 * d.num + i - 16) && (o.2.stage == .started || o.2.stage == .running))
  else if i < 26 then
    let h := domHp d i
    let p := s.hp h
    !((p.link0.l1 && (!p.link1.up || p.link1.l1)) || p.d3.contains 0) || s.reads.any (fun r => r.2.die == d)
  else if i = 26 then !x.tmu.lookups.isEmpty || x.tmu.rehash
  else if i = 27 then (s.servedBy d).any (fun m => !m.segs.isEmpty)
  else if i = 28 then x.xlu.walks.any (fun w => w.2.fault.isNone) || x.xlu.ats.any (fun a => !a.2.fault)
  else if i = 29 then !x.hag.trackers.isEmpty
  else if i = 30 then
    (List.range 8).any (fun b => !((s.swc d).staged (bpKey b)).isEmpty) || x.bridge.mods.any (fun m => !m.2.buf.isEmpty || !m.2.wire.isEmpty)
  else 0 < s.waitersOn d || !x.hag.trackers.isEmpty || !x.dmem.isEmpty || s.engines.any (fun e => e.2.buf.any (fun b => b.accepted && s.memDie (b.line * 64) == d))

/-- The switched domain of a stop, where it has one (01_anatomy.md R24; R531). -/
def stopDomain (stop : Nat) : Option Nat :=
  if 16 ≤ stop ∧ stop < 20 then some 26 else if 20 ≤ stop ∧ stop < 24 then some 28
  else if 24 ≤ stop ∧ stop < 32 then some (stop - 8) else if 32 ≤ stop ∧ stop < 36 then some 24
  else if 36 ≤ stop ∧ stop < 40 then some 25 else if stop < 40 then none
  else if stop < 46 then some 31 else if stop < 48 then some 27 else if stop < 54 then some 31
  else if stop < 56 then some 29 else if stop < 60 then some 30 else none

/-- Units in the hold buffers of a domain's stops, and register writes held for it. -/
def State.domHeld (s : State) (d : Die) (i : Nat) : Nat :=
  (((s.noc d).hold.filter (fun p => stopDomain p.1 == some i)).map (fun p => p.2.length)).sum + (s.dom d i).held.length

/-- A domain is idle: its condition holds, and nothing is held for it (R528). -/
def State.domIdle (s : State) (d : Die) (i : Nat) : Bool :=
  !s.domBusy d i && s.domHeld d i == 0

def State.pwcOn (s : State) (d : Die) : Bool := s.on d (HDR.CTRL.ENABLE 0x3C00000)
def State.lockedOff (s : State) (d : Die) (i : Nat) : Bool := s.on d (PWC.DOM_STATE.LOCKED_OFF i)

/-- What the arrays of a domain lose when its supply goes off (R526): the entries of the TMU's bins and of the XLU's caches
have their backing copies, and come back on use. -/
def State.domArrays (s : State) (d : Die) (i : Nat) : State :=
  if i = 26 then s.modTmu d (fun t => { t with ents := t.ents.map (fun e => { e with onchip := false, kept := [] }) })
  else if i = 28 then s.modXlu d (fun x => { x with tlb := [], victim := [], walkCache := [] })
  else s

/-- Enter a state. An entry into Minuet or deeper, from above, is counted; the arrays do not survive Pavane. -/
def State.domEnter (s : State) (d : Die) (i k : Nat) : State :=
  let old := s.domSt d i
  let s := (s.wrs d [(PWC.DOM_STATE.STATE i, k), (PWC.DOM_STATE.FENCING i, 0)]).modDom d i (fun m => { m with stateAt := s.now, acked := false })
  let s := s.when (decide (old < 3 ∧ 3 ≤ k)) (fun s => s.bump d (PWC.DOM_ENTRIES.COUNT i))
  s.when (decide (old < 4 ∧ 4 ≤ k)) (fun s => s.domArrays d i)

/-! ## Descent (R528, R535 to R537) -/

/-- IDLE_MULT and FENCE_TIMEOUT_US; smaller values act as 10 (R545). -/
def State.idleMult (s : State) (d : Die) : Nat := max 10 (s.rd d PWC.PWC_CFG.IDLE_MULT)
def State.fenceTimeout (s : State) (d : Die) : Nat := us (max 10 (s.rd d PWC.PWC_CFG.FENCE_TIMEOUT_US))

/-- The domain may descend from its state now. -/
def State.descentDue (s : State) (d : Die) (i : Nat) : Bool :=
  let k := s.domSt d i
  let m := s.dom d i
  s.pwcOn d && !s.lockedOff d i && !s.on d (PWC.DOM_STATE.FENCING i) && m.wakeAt.isNone && !s.on d (PWC.DOM_CFG.PIN_GALOP i) &&
  s.domIdle d i && decide (k < min (domLimit i) (s.rd d (PWC.DOM_CFG.MAX_STATE i))) &&
  match m.idleAt with
  | none => false
  | some t => decide ((if k = 0 then t else max t m.stateAt) + s.idleMult d * exitNs (k + 1) ≤ s.now)

/-- DESCENT_TIMER (R528): one state down. Minuet begins with the handshake, the deeper states with its last step. -/
def execDescentTimer (d : Die) (i : Fin 32) (s : State) : Host.Outcome State Fault Refusal :=
  .next (
    let i := i.val
    let k := s.domSt d i
    if !s.descentDue d i then s
    else if k < 2 then s.domEnter d i (k + 1)
    else (s.wr d (PWC.DOM_STATE.FENCING i) 1).modDom d i (fun m => { m with fenceAt := s.now, acked := decide (3 ≤ k) }))

/-- A fence is in its steps 1 to 3. -/
def State.draining (s : State) (d : Die) (i : Nat) : Bool := s.on d (PWC.DOM_STATE.FENCING i) && !(s.dom d i).acked

/-- DOMAIN_CYCLE is cycling the domain (R540). -/
def State.cycled (s : State) (d : Die) (i : Nat) : Bool := s.fm.cycling == some (32 * d.num + i)

/-- What a domain had outstanding has completed, and its store buffers are empty (R535, steps 2 and 3). -/
def State.domDrained (s : State) (d : Die) (i : Nat) : Bool :=
  if i < 16 then (((List.range 4).map (fun k => s.lanePort (4 * i + k))).eraseDups).all (fun p =>
    (s.llu d p).buf.isEmpty && (s.portKeys p).all (fun k => ((s.swc d).staged k).isEmpty))
  else if i = 24 ∨ i = 25 then !s.reads.any (fun r => r.2.die == d)
  else !s.domBusy d i

/-- Begin the way out of a state (R525). A restore that reads device memory wakes HBM-control first (R530). -/
def State.beginWake (s : State) (d : Die) (i : Nat) : State :=
  let go := fun (s : State) (i : Nat) =>
    if (s.dom d i).wakeAt.isSome || s.domSt d i == 0 || s.lockedOff d i then s
    else s.modDom d i (fun m => { m with wakeAt := some (s.now + exitNs (s.domSt d i)) })
  let deep := 4 ≤ s.domSt d i
  let s := go s i
  s.when (deep && i != 31 && !s.on d (PWC.DOM_STATE.FENCING 31)) (fun s => go s 31)

/-- DOMAIN_STATE_SAVED (R535, step 6): the new state is reached, and a wake that came meanwhile begins (R536). -/
def execDomainStateSaved (d : Die) (i : Fin 32) (s : State) : Host.Outcome State Fault Refusal :=
  .next (
    let i := i.val
    let m := s.dom d i
    if !s.on d (PWC.DOM_STATE.FENCING i) || !m.acked then s
    else
      let k := max 3 (s.domSt d i + 1)
      let s := (s.domEnter d i k).modDom d i (fun m => { m with wakeAt := none })
      s.when m.wakeAt.isSome (fun s => s.beginWake d i))

/-- A domain's hold buffers are emptied: what they held is with the domain. -/
def State.releaseHeld (s : State) (d : Die) (i : Nat) : State :=
  s.modNoc d (fun x => { x with hold := x.hold.filter (fun p => stopDomain p.1 != some i) })

/-- A fence is abandoned: the domain stays in Galop, what was held is released, and its idle time starts anew (R536, R537). -/
def State.abandonFence (s : State) (d : Die) (i : Nat) (count : Fld) : State :=
  let idle := !s.domBusy d i
  ((((s.releaseHeld d i).domEnter d i 0).wr d (PWC.DOM_STATE.HELD i) 0).bump d count).modDom d i
    (fun m => { m with idleAt := if idle then some s.now else none })

/-! ## Wake (R529, R536, R538) -/

/-- Units that the die's hold buffers hold, and register writes held. -/
def State.heldUnits (s : State) (d : Die) : Nat :=
  ((s.noc d).hold.map (fun p => p.2.length)).sum + ((s.die d).doms.map (fun p => p.2.held.length)).sum

/-- Show what is held for a domain, once more is. -/
def State.showHeld (s : State) (d : Die) (i : Nat) : State :=
  (s.atLeast d PWC.HOLD_PEAK.UNITS (s.heldUnits d)).wr d (PWC.DOM_STATE.HELD i) (s.domHeld d i)

/-- A transaction is held (R538). -/
def State.countHeld (s : State) (d : Die) : State := (s.bump d PWC.HELD_TRANSACTIONS.COUNT).event d 15 none

/-- A wake reaches a domain: by wire, or with a transaction or a register write that is to be held. -/
def State.wake (s : State) (d : Die) (i : Nat) : State :=
  if s.lockedOff d i ∨ s.svc.tripped then s
  else if s.draining d i then if s.cycled d i then s else s.abandonFence d i PWC.FENCE_ABANDONED.COUNT
  else if s.on d (PWC.DOM_STATE.FENCING i) then s.modDom d i (fun m => { m with wakeAt := some s.now })
  else s.beginWake d i

/-- A domain reaches Galop, and what it held is released in order; `apply` performs a held register write (R79). -/
def State.galopReached (s : State) (apply : HeldWrite → State → State) (d : Die) (i : Nat) : State :=
  let m := s.dom d i
  match m.wakeAt with
  | none => s
  | some t =>
    if s.now < t ∨ s.on d (PWC.DOM_STATE.FENCING i) then s
    else
      let deep := 3 ≤ s.domSt d i
      let s := (((s.domEnter d i 0).releaseHeld d i).wr d (PWC.DOM_STATE.HELD i) 0)
      let s := s.modDom d i (fun m => { m with wakeAt := none, held := [], idleAt := none })
      let s := s.when deep (fun s => (s.bump d PWC.WAKES.COUNT).bump d (PWC.DOM_WAKES.COUNT i))
      m.held.foldl (fun s w => apply w s) s

/-! ## Lock-off (R534) -/

/-- Lock a domain off: in Sarabande, whatever its MAX_STATE. A cluster's engines are reset. -/
def State.lockOff (s : State) (d : Die) (i reason : Nat) : State :=
  let s := s.when (decide (16 ≤ i ∧ i < 24)) (fun s => s.clusterReset d i)
  let s := (s.domEnter d i 5).releaseHeld d i
  (s.wrs d [(PWC.DOM_STATE.LOCKED_OFF i, 1), (PWC.DOM_STATE.LOCK_REASON i, reason), (PWC.DOM_STATE.HELD i, 0)]).modDom d i
    (fun _ => { dom0 with stateAt := s.now })

/-- Unlock a domain, and bring it to Galop. -/
def State.lockOn (s : State) (d : Die) (i : Nat) : State :=
  (s.wrs d [(PWC.DOM_STATE.LOCKED_OFF i, 0), (PWC.DOM_STATE.LOCK_REASON i, 0), (PWC.DOM_STATE.STATE i, 0), (PWC.DOM_STATE.FENCING i, 0),
    (PWC.DOM_STATE.HELD i, 0)]).modDom d i (fun _ => { dom0 with stateAt := s.now })

/-! ## PWC registers -/

/-- Write DOM_CFG (R529, R531, R546): a MAX_STATE deeper than the limit acts as the limit, and PIN_GALOP wakes the domain. -/
def State.domCfgWrite (s : State) (d : Die) (i mx : Nat) (pin : Bool) : State :=
  let s := s.wrs d [(PWC.DOM_CFG.MAX_STATE i, min (domLimit i) mx), (PWC.DOM_CFG.PIN_GALOP i, b2n pin)]
  s.when pin (fun s => s.wake d i)

/-- DOM_CFG_WRITE. -/
def execDomCfgWrite (rq : Requester) (d : Die) (i : Fin 32) (mx : Fin 8) (pin : Bool) (s : State) : Host.Outcome State Fault Refusal :=
  .next (s.asWarden rq d (PWC.DOM_CFG.MAX_STATE i.val).off (fun s => s.domCfgWrite d i.val mx.val pin))

/-- Wake every domain of a die: PWC CTRL.ENABLE was cleared (R529, R545). -/
def State.wakeAll (s : State) (d : Die) : State := (List.range 32).foldl (fun s i => s.wake d i) s

/-! ## Islands (R532, R541) -/

/-- Islands of the spine. -/
def spineIslands : List Nat := [48, 49, 50, 51, 60, 61, 62, 63, 64, 65, 66, 67, 72, 74, 75, 76, 77, 103]

/-- Clock islands of a fabric die. -/
def fabricIslands : Nat := 106

/-- The islands of the service die, which always run, by their frequency in kHz: the Merwell cores, the MRAM controller, the 10GBASE-R
port, I3C and JTAG, the always-on timer and PWC master, the monitors (01_anatomy.md R31; 17_power.md R541). -/
def serviceIslandKHz : List Nat := [1500000, 400000, 161130, 100000, 25000, 100000]

/-- Clock islands of the device: 218. -/
def islandTotal : Nat := 2 * fabricIslands + serviceIslandKHz.length

/-- A spine island has work. -/
def State.islandBusy (s : State) (d : Die) (j : Nat) : Bool :=
  let x := s.die d
  let busySwc := x.swc.ins.any (fun p => !p.2.isEmpty) || x.swc.stage.any (fun p => !p.2.isEmpty)
  if j = 48 then busySwc
  else if j = 49 then !x.sluice.waiting.isEmpty || !x.sluice.ctl.isEmpty || x.sluice.inj.any (fun p => !p.2.isEmpty)
  else if j = 50 then x.swc.ins.any (fun p => p.2.any (fun q => q.basin.any id))
  else if j = 51 then x.llus.any (fun p => !p.2.buf.isEmpty)
  else if 60 ≤ j ∧ j ≤ 67 then busySwc || !s.ops.isEmpty || !s.reads.isEmpty
  else if j = 72 then s.queues.any (fun p => setDie (p.1 / 8) == d && (p.2.idxOut || !p.2.ops.isEmpty))
  else if j = 74 then !x.tru.inbox.isEmpty || !x.tru.ctlIn.isEmpty || !x.tru.handed.isEmpty || x.tru.ctxs.any (fun c => !c.2.descs.isEmpty)
  else if j = 76 then !x.rtb.inbox.isEmpty
  else false

/-- ISLAND_CLOCK_GATE (R532): a spine island that has had no work for 1 µs gates its clock. -/
def execIslandClockGate (d : Die) (j : Fin 106) (s : State) : Host.Outcome State Fault Refusal :=
  .next (match tget (s.die d).idleIsl j.val with
    | some t => if spineIslands.contains j.val && !s.islandBusy d j.val && decide (t + us 1 ≤ s.now) then s.wr d (PWC.ISLAND.GATED j.val) 1 else s
    | none => s)

/-! ## Idle times, as time passes -/

/-- One domain's idle time: it restarts when the domain is busy, and a busy domain below Galop wakes. -/
def State.trackDom (s : State) (d : Die) (i : Nat) : State :=
  if s.lockedOff d i then s
  else if s.domIdle d i then if (s.dom d i).idleAt.isSome then s else s.modDom d i (fun m => { m with idleAt := some s.now })
  else
    let s := if (s.dom d i).idleAt.isSome then s.modDom d i (fun m => { m with idleAt := none }) else s
    s.when (s.domBusy d i && s.domSt d i != 0) (fun s => s.wake d i)

/-- A lane quad's supply: off while its four lanes are in Sarabande and its ports are DISABLED, FAILED or RETIRED (R531). -/
def State.trackQuad (s : State) (d : Die) (q : Nat) : State :=
  let lanes := (List.range 4).map (fun k => 4 * q + k)
  let down := fun (st : Nat) => st == lsDISABLED || st == lsFAILED || st == lsRETIRED
  let off := lanes.all (fun n => (s.laneSt d n == 0 || s.laneSt d n == 11) && down (s.linkSt d (s.lanePort n)))
  if s.lockedOff d q then s
  else if off && s.domSt d q == 0 then s.domEnter d q 5
  else if !off && s.domSt d q != 0 && (s.dom d q).wakeAt.isNone then s.domEnter d q 0
  else s

/-- One island's idle time; work ungates it. -/
def State.trackIsland (s : State) (d : Die) (j : Nat) : State :=
  if s.islandBusy d j then (s.modDie d (fun x => { x with idleIsl := tdel x.idleIsl j })).wr d (PWC.ISLAND.GATED j) 0
  else if (tget (s.die d).idleIsl j).isSome then s
  else s.modDie d (fun x => { x with idleIsl := tput x.idleIsl j s.now })

/-- All of a die's, while it is up. -/
def State.trackPower (s : State) (d : Die) : State :=
  if s.dieLost d || s.svc.tripped then s
  else
    let s := (List.range 16).foldl (fun s q => s.trackQuad d q) s
    let s := ((List.range 16).map (· + 16)).foldl (fun s i => s.trackDom d i) s
    spineIslands.foldl (fun s j => s.trackIsland d j) s

/-! ## Core voltage (R543; 20_package.md R596) -/

/-- CORE_VOLTAGE_ADJUST: the PWC asks its regulator for the lowest voltage at which the critical-path monitors pass, within 0.62 V
to 0.78 V; a regulator that does not answer leaves the rail at its last target. -/
def execCoreVoltageAdjust (d : Die) (mv : BitVec 10) (answered : Bool) (s : State) : Host.Outcome State Fault Refusal :=
  .next (
    let v := min 780 (max 620 mv.toNat)
    let s := s.emit (.avs d v)
    s.when answered (fun s => s.wrs d [(PWC.CORE_VOLTAGE.TARGET_MV, v), (PWC.CORE_VOLTAGE.MV, v)]))

/-! ## Temperature (20_package.md R603) -/

/-- The thermal trip: THERM_TRIP_N low, and every switched domain and every lane in Sarabande. -/
def State.thermTrip (s : State) : State :=
  let s := s.emit .thermTrip
  let s := [Die.a, Die.b].foldl (fun s d =>
    let s := (List.range 64).foldl (fun s n => s.laneOff d n) s
    (List.range 32).foldl (fun s i => (s.domEnter d i 5).modDom d i (fun _ => { dom0 with stateAt := s.now })) s) s
  { s with svc := { s.svc with tripped := true } }

/-- The sensors at or above 115 °C, as a bit mask. -/
def hotMask (l : List (BitVec 8)) : Nat := l.foldr (fun t m => 2 * m + b2n (decide (115 ≤ t.toNat))) 0

def hottest (l : List (BitVec 8)) : Nat := l.foldl (fun m t => max m t.toNat) 0

/-- Each controller doubles the refresh rate of its stack while the stack reads above 85 °C (R602): the temperatures of the stacks of
each die. -/
def State.setRefresh (s : State) (a b : List (BitVec 8)) : State :=
  let hot := fun (d : Die) (k : Nat) => s.stackPresent d k && decide (85 < ((if d = .a then a else b).getD k 0).toNat)
  [Die.a, Die.b].foldl (fun s d => s.modDie d (fun x => { x with hotStacks := (List.range 2).filter (hot d) })) s

/-- Refreshes of a stack in the time of one at the normal rate (R602). -/
def State.refreshRate (s : State) (d : Die) (k : Nat) : Nat := if (s.die d).hotStacks.contains k then 2 else 1

/-- TEMP_SAMPLE (R602, R603): the 24 sensors of each fabric die, the 2 of the service die, and the stacks. A sensor at 115 °C or more in
two samples running trips; a temperature above TEMP_WARN sets ALERT_STATUS.TEMP (19_startup.md R585). -/
def execTempSample (a b : DieTemps) (v : List (BitVec 8)) (s : State) : Host.Outcome State Fault Refusal :=
  .next (
    if s.now < s.svc.sampleAt ∨ !s.svc.pwrgood then s
    else
      let hot := hotMask (a.sensors ++ b.sensors ++ v)
      let trip := Nat.land hot s.svc.hot != 0 && !s.svc.tripped
      let s := ({ s with svc := { s.svc with hot := hot, sampleAt := s.now + us 10 } }).setRefresh a.hbm b.hbm
      let s := s.wrs .a [(SVC.TEMP.DIE_A, hottest a.sensors), (SVC.TEMP.DIE_B, hottest b.sensors), (SVC.TEMP.SERVICE, hottest v)]
      let s := s.when (decide (s.rd .a SVC.TEMP.TEMP_WARN < max (hottest a.sensors) (max (hottest b.sensors) (hottest v)))) (fun s => s.alert 0)
      s.when trip State.thermTrip)

/-! ## Host links in L1, and functions in D3hot (R531; 05_host_ports.md R123) -/

/-- DEVICE_POWER_STATE_WRITE: the host moves a function to D3hot or back to D0. -/
def execDevicePowerStateWrite (f : Fn) (d3 : Bool) (s : State) : Host.Outcome State Fault Refusal :=
  .next (
    let s := s.modHp f.hp (fun p => { p with d3 := if d3 then setInsert p.d3 f.fn.val else p.d3.filter (· != f.fn.val) })
    s.when (!d3) (fun s => s.wake (hpDie f.hp) (24 + f.hp.val % 2)))

/-- ASPM_L1_ENTRY: a link that is up enters L1. -/
def execAspmL1Entry (h : Fin 4) (one : Bool) (s : State) : Host.Outcome State Fault Refusal :=
  .next (s.modHp h (fun p => let l := portLink p one; if l.up then setPortLink p one { l with l1 := true } else p))

/-- ASPM_L1_EXIT: the link leaves L1, and the port's domain wakes. -/
def execAspmL1Exit (h : Fin 4) (one : Bool) (s : State) : Host.Outcome State Fault Refusal :=
  .next (if (portLink (s.hp h) one).l1 then
      (s.modHp h (fun p => setPortLink p one { portLink p one with l1 := false })).wake (hpDie h) (24 + h.val % 2)
    else s)

end Sys2Proof.Machine
end

