-- ==== Sys2Proof/Machine/Noc.lean ====
section
/-! DEFINITION. The on-chip network (01_anatomy.md R24 to R30): a unit's check, dimension-order routing, the hold buffers of sleeping
domains, and the way across the die bridge. -/

namespace Sys2Proof.Machine

/-! ## A unit and its check bits (R25, R26) -/

/-- Code positions of the data bits: every position from 3 that is no power of two (log entry 27). -/
def dataPositions : List Nat := (List.range 544).filter (fun p => 3 ≤ p && !([1, 2, 4, 8, 16, 32, 64, 128, 256, 512].contains p))

def xorAll (l : List Nat) : Nat := l.foldl Nat.xor 0

/-- The Hamming code of bits [532:0]. -/
def nocHamming (u : Nat) : Nat := xorAll (((List.range 533).zip dataPositions).map (fun p => if bitOf u p.1 then p.2 else 0))

/-- The syndrome of a unit's Hamming code, and whether its overall parity is odd. -/
def nocSyndrome (u : Nat) : Nat × Bool :=
  (Nat.xor (nocHamming u) (bitsOf u 533 10), (List.range 544).foldl (fun x i => x != bitOf u i) false)

/-- How a unit arrives: intact or corrected, or to be sent again. -/
def nocCheck (u : Nat) : Option Nat :=
  match nocSyndrome u with
  | (0, _) => some u
  | (x, true) =>
    match (List.range 533).zip dataPositions |>.find? (fun p => p.2 = x) with
    | some p => some (Nat.xor u (2 ^ p.1))
    | none => if [1, 2, 4, 8, 16, 32, 64, 128, 256, 512].contains x then some u else none
  | (_, false) => none

/-- A unit's 544 bits, with its check bits. -/
def nocWord (u : NocUnit) : Nat :=
  let body := u.data.toNat + nocControl u * 2 ^ 512
  let coded := body + nocHamming body * 2 ^ 533
  coded + (if (List.range 543).foldl (fun x i => x != bitOf coded i) false then 2 ^ 543 else 0)

/-- The unit of 544 bits. -/
def nocUnit (u : Nat) : NocUnit := nocOf (BitVec.ofNat 512 u) (bitsOf u 512 19)

/-! ## Routing (R24, R27) -/

/-- What a unit of a stop is bound for on this die: its stop, or for the other die the gateway of its source column. -/
def nocTarget (d : Die) (u : NocUnit) : Nat := if u.destDie = d.num then u.destStop else gateOf u.srcStop

/-- The next link: first along x to the destination column, then along y. Its key names the stop it enters and the side by which it
enters (log entry 147). -/
def nocNext (stop target : Nat) : Nat :=
  let (x, tx) := (stop % 8, target % 8)
  let (y, ty) := (stop / 8, target / 8)
  if x < tx then stop + 1 + 64 * 2 else if tx < x then stop - 1 + 64 * 0
  else if y < ty then stop + 8 + 64 * 3 else stop - 8 + 64 * 1

/-- Units of a class that a link input holds or has been sent. -/
def NocLink.load (l : NocLink) (cls : Nat) : Nat := ((l.sent ++ l.bufs).filter (fun u => u.cls == cls)).length

/-- A link takes another unit of a class: its input has a place in that class's buffer of 4 (R28), and its retry buffer of 8 has one
(R26). -/
def NocLink.room (l : NocLink) (cls : Nat) : Bool := decide (l.load cls < 4) && decide (l.sent.length < 8)

/-! ## Arrival at a stop (R30; 17_power.md R534, R538) -/

/-- A stop whose unit is off for good: its domain is locked off, or it serves a stack that the part does not have (R10). -/
def State.stopOff (s : State) (d : Die) (stop : Nat) : Bool :=
  (match stopDomain stop with | some i => s.lockedOff d i | none => false) || (decide (48 ≤ stop ∧ stop < 54) && !s.stackPresent d 1)

/-- The completion with POISON set that a locked-off stop gives an NRQ, in one unit. -/
def poisonedReply (d : Die) (stop : Nat) (u : NocUnit) : NocUnit :=
  { data := 0, head := true, tail := true, cls := 3, destStop := u.srcStop, destDie := u.srcDie, srcStop := stop, srcDie := d.num, poison := true }

/-- A unit for a stop that is off: an NRQ is completed with POISON set, any other is discarded, and its transaction is counted. -/
def State.nocOff (s : State) (d : Die) (stop : Nat) (u : NocUnit) : State :=
  if u.head then
    let s := s.bump d PWC.LOCKED_OFF_DROPS.COUNT
    s.when (u.cls == 1) (fun s => s.modNocLink d (stop + 256) (fun l => { l with bufs := l.bufs ++ [poisonedReply d stop u] }))
  else s

def State.held (s : State) (d : Die) (stop : Nat) : List NocUnit := (tget (s.noc d).hold stop).getD []

/-- A unit enters its stop's hold buffer, and the wake is raised. -/
def State.holdUnit (s : State) (d : Die) (stop i : Nat) (u : NocUnit) : State :=
  let s := s.modNoc d (fun x => { x with hold := tput x.hold stop ((tget x.hold stop).getD [] ++ [u]) })
  ((s.when u.head (fun s => s.countHeld d)).showHeld d i).wake d i

/-- A unit that has reached its stop leaves the mesh, unless it has to wait there: to the stop's unit, whose action on it is told in
that unit's own commands; into the hold buffer of a fenced domain, 16 units for each class; and in Polka or Waltz once the domain is
awake. CPL keeps flowing while a domain drains (17_power.md R535). -/
def State.nocArrive (s : State) (d : Die) (stop : Nat) (u : NocUnit) : State × Bool :=
  match stopDomain stop with
  | none => (s, true)
  | some i =>
    if s.stopOff d stop then (s.nocOff d stop u, true)
    else if s.domSt d i = 0 ∧ !s.on d (PWC.DOM_STATE.FENCING i) ∨ u.cls = 3 ∧ (s.domSt d i < 3 ∧ (s.dom d i).acked = false) then (s, true)
    else if 3 ≤ s.domSt d i ∨ s.on d (PWC.DOM_STATE.FENCING i) then
      if 16 ≤ ((s.held d stop).filter (fun v => v.cls == u.cls)).length then (s.wake d i, false) else (s.holdUnit d stop i u, true)
    else (s.wake d i, false)

/-- A unit for the other die leaves the mesh at its gateway. Once its transaction is complete there, it goes onto the bridge, and on a
split device over the service links (16_faults.md R508). -/
def State.nocCross (s : State) (d : Die) (u : NocUnit) : State :=
  let s := s.modNoc d (fun x => { x with cross := x.cross ++ [u] })
  if u.tail then
    let mine := fun (v : NocUnit) => v.srcStop == u.srcStop && v.cls == u.cls && v.destStop == u.destStop
    let units := (nocEncode ((s.noc d).cross.filter mine)).map (fun b => (u.cls, b))
    let s := s.modNoc d (fun x => { x with cross := x.cross.filter (fun v => !mine v) })
    if s.on .a FM.FM_STATE.SPLIT then units.foldl (fun s b => s.nocFromBridge d.other b.1 b.2) s
    else s.modBridge d (fun b => { b with nocTx := b.nocTx ++ units })
  else s

/-- The way of one unit from a link's input: out of the mesh, or over the next link where that has room. -/
def State.nocForward (s : State) (d : Die) (stop : Nat) (u : NocUnit) : State × Bool :=
  let target := nocTarget d u
  if stop = target then
    if u.destDie = d.num then s.nocArrive d stop u
    else if s.domSt d 30 = 0 ∨ s.on .a FM.FM_STATE.SPLIT then (s.nocCross d u, true)
    else (s.wake d 30, false)
  else
    let k := nocNext stop target
    if (s.nocLink d k).room u.cls then ((s.modNocLink d k (fun l => { l with sent := l.sent ++ [u] })).event d 14 none, true)
    else (s, false)

/-- Where a unit goes from a stop, for its class: units of one class and one way keep their order, and a class that waits for ejection
does not hold up through traffic (R30). -/
def nocWay (d : Die) (stop : Nat) (u : NocUnit) : Nat := u.cls + 4 * (if stop = nocTarget d u then 320 else nocNext stop (nocTarget d u))

/-- The units of a link input, in order, each moving on unless one before it waits for the same way. Answers those that wait. -/
def State.nocDrain (d : Die) (stop : Nat) : List NocUnit → List Nat → State → State × List NocUnit
  | [], _, s => (s, [])
  | u :: l, stuck, s =>
    let way := nocWay d stop u
    if stuck.contains way then
      let (s, kept) := State.nocDrain d stop l stuck s
      (s, u :: kept)
    else
      let (s, gone) := s.nocForward d stop u
      let (s, kept) := State.nocDrain d stop l (if gone then stuck else way :: stuck) s
      (s, if gone then kept else u :: kept)

/-- One link input moves on what it can. A unit that leaves a gateway's own input gives its bridge credit back (R19). -/
def State.nocInput (s : State) (d : Die) (k : Nat) : State :=
  let units := (s.nocLink d k).bufs
  if units.isEmpty then s
  else
    let (s, kept) := State.nocDrain d (k % 64) units [] (s.modNocLink d k (fun l => { l with bufs := [] }))
    let s := s.modNocLink d k (fun l => { l with bufs := kept ++ l.bufs })
    if 312 ≤ k ∧ k < 316 then
      (List.range 4).foldl (fun s c =>
        let came := fun (u : NocUnit) => u.cls == c && u.srcDie != d.num
        let n := (units.filter came).length - (kept.filter came).length
        if n = 0 then s else s.modBridge d (fun b => { b with owed := nadd b.owed (nocCh c) n })) s
    else s

/-- Every link input of a die moves on what it can, and what is for the other die sets out. -/
def State.nocMove (s : State) (d : Die) : State := (((s.noc d).links.map (·.1)).foldl (fun s k => s.nocInput d k) s).bridgeTx d

/-! ## Commands -/

/-- NOC_UNIT_RECEIVED (R26): a stop receives a unit over its link of a side. A unit with a single error is corrected and counted; one
with a double error stays in the sender's retry buffer, to be sent again; a good one moves on. -/
def execNocUnitReceived (d : Die) (stop : Fin 64) (dir : Fin 4) (unit : BitVec 544) (s : State) : Host.Outcome State Fault Refusal :=
  let link := stop.val + 64 * dir.val
  .next (match nocCheck unit.toNat with
    | none => s.modNocLink d link (fun l => { l with fails := l.fails + 1 })
    | some w =>
      let u := nocUnit w
      let s := s.when ((nocSyndrome unit.toNat) != (0, false)) (fun s => s.modNoc d (fun x => { x with corrected := x.corrected + 1 }))
      (s.modNocLink d link (fun l => { sent := l.sent.erase u, bufs := l.bufs ++ [u], fails := 0 })).nocMove d)

/-- BRIDGE_FLIT_RECEIVED (R19 to R22): the oldest flit on its way to a die over a module arrives, some of its bytes changed. -/
def execBridgeFlitReceived (d : Die) (m : Fin 16) (err : List (Fin 272 × Byte)) (s : State) : Host.Outcome State Fault Refusal :=
  .next ((s.bflitIn d m.val (err.map (fun e => (e.1.val, e.2)))).nocMove d)

/-- The first stop of a domain's unit. -/
def domStop (i : Nat) : Option Nat := (List.range 64).find? (fun k => stopDomain k == some i)

/-- The units of an NRQ transaction for a stop of this die, whose content is not told. -/
def blankUnits (d : Die) (stop n : Nat) : List NocUnit :=
  (List.range n).map (fun k => { data := 0, head := k == 0, tail := k + 1 == n, cls := 1, destStop := stop, destDie := d.num, srcStop := stop,
                                 srcDie := d.num, poison := false })

/-- DOMAIN_WAKE (17_power.md R529, R536, R538): a wake by wire, or by a transaction of so many units that reaches the domain's stop. -/
def execDomainWake (d : Die) (i : Fin 32) (units : Fin 17) (s : State) : Host.Outcome State Fault Refusal :=
  .next (match domStop i.val with
    | some stop =>
      if units.val = 0 then s.wake d i.val
      else (s.modNocLink d (stop + 256) (fun l => { l with bufs := l.bufs ++ blankUnits d stop units.val })).nocMove d
    | none => s.wake d i.val)

end Sys2Proof.Machine
end

