-- ==== Sys2Proof/Machine/Resets.lean ====
section
/-! DEFINITION. Function-level and host-port resets (06_work_queues.md R181; 19_startup.md R566, R568), PTM, and the start of a
port's first training. -/

namespace Sys2Proof.Machine

/-! ## The ownership token (02_structure_image.md R54) -/

/-- No one holds the token. -/
def State.freeToken (s : State) : State :=
  s.wrs .a [(IMS.TOKEN.OWNER_CLASS, 0), (IMS.TOKEN.OWNER_FN, 0), (IMS.LEASE.REMAIN_MS, 0)]

/-- The class of a requester: 1 OOB, 2 MGT, 3 a function. The SVC's own firmware acts as the out-of-band port. -/
def rqClass : Requester → Nat
  | .oob | .svc => 1
  | .mgt => 2
  | .fn _ => 3

def rqFn : Requester → Nat
  | .fn f => fnNum f
  | _ => 0

def State.holdsToken (s : State) (rq : Requester) : Bool :=
  s.rd .a IMS.TOKEN.OWNER_CLASS == rqClass rq && s.rd .a IMS.TOKEN.OWNER_FN == rqFn rq

/-! ## Reset of a function (R181) -/

/-- The reads, atomics and hold reads of a function that wait are dropped; its posted writes act. -/
def dropped (f : Fn) (x : DevAccess) : Bool :=
  x.fn == some f && match x.kind with | .write .. => false | _ => true

/-- The accesses of a function that wait at a line's tracker, at a controller or behind each other are dropped, and its posted writes
are ordered no more. -/
def State.dropAccesses (s : State) (f : Fn) : State :=
  let free := fun (x : DevAccess) => if x.fn = some f then { x with ordered := false } else x
  let keep := fun (l : List DevAccess) => (l.filter (fun x => !dropped f x)).map free
  let reqs := fun (l : List DmemReq) => (l.filter (fun q => !dropped f q.x)).map (fun q => { q with x := free q.x })
  let left := fun (t : Tbl Dmem) =>
    (t.map (fun c => (c.1, { c.2 with waiting := reqs c.2.waiting, kept := reqs c.2.kept }))).filter
      (fun c => !(c.2.waiting.isEmpty && c.2.kept.isEmpty))
  let behind := (keep ((tget s.hostQ f.id).getD []).tail).map DevWork.start
  let s := [Die.a, Die.b].foldl (fun s d =>
    (s.modHag d (fun h => { h with
      trackers := h.trackers.map (fun t => (t.1, { t.2 with dev := keep t.2.dev })),
      input := h.input.flatMap (fun i => match i with | .host .. => [i] | .dev x => (keep [x]).map HagIn.dev) })).modDie d (fun x =>
        { x with dmem := left x.dmem })) s
  let s := { s with hostQ := tdel s.hostQ f.id }
  s.devGo (2 * behind.length) (behind ++ ([Die.a, Die.b].flatMap (fun d => ((s.hag d).trackers.map (·.1)).map DevWork.line)))

/-- The reads of host memory under a function's requester ID come to nothing (R181): the packets of its own operations that wait for them
are not sent; those that answer another device carry poisoned data. Atomics on its memory, and events at its counters and rings, go. -/
def State.dropReads (s : State) (f : Fn) : State :=
  let gone := (s.reads.filter (fun r => r.2.fn == f)).map (·.2)
  let waits := fun (d : Die) (w : WPkt) => gone.any (fun r => r.use == .packet && r.die == d && r.packet == w.id)
  let own := fun (d : Die) (w : WPkt) => match w.tag with | some t => if t.quad then (s.member? d t.op).isNone else (s.op t.op).isNone | none => false
  let one := fun (s : State) (d : Die) =>
    let s := s.modSluice d (fun x => { x with waiting := (x.waiting.filter (fun w => !(waits d w && own d w))).map (fun w =>
      if waits d w then { w with ready := true, pkt := { w.pkt with srcPoison := true } } else w) })
    s.modRma d (fun x => { x with
      atomics := x.atomics.filter (fun a => a.owner != f)
      events := dropEvent (x.events.map (fun e => { e with
        ctr := if (match e.ctr with | some k => setFn (k / 16) == f | none => false) then none else e.ctr
        note := if (match e.note with | some n => setFn (n.1 / 4) == f | none => false) then none else e.note }))
      res := x.res.filter (fun r => !(setFn (r.ring / 4) == f)) })
  one (one { s with reads := s.reads.filter (fun r => r.2.fn != f) } .a) .b

/-- Everything of a function that a function-level reset clears: its queues, rings, counters, regions and spaces, hold reads
and acquisition count, memberships, and the token when it holds it. Its bindings stay (04_polders.md R101). -/
def State.resetFunction (s : State) (f : Fn) : State :=
  let s := s.quadResetFn f
  let keys := (s.queues.filter (fun p => setFn (p.1 / 8) == f)).map (·.1)
  let s := keys.foldl (fun s k => (s.dropQueue k).tmuDropQueue k) s
  let s := ((s.xluResetFn f).dropAccesses f).dropReads f
  let s := { s with rings := s.rings.filter (fun p => !(setFn (p.1 / 4) == f)), ctrs := s.ctrs.filter (fun p => !(setFn (p.1 / 16) == f)),
                    waiters := s.waiters.filter (fun w => !(w.fn == f)), holdCounts := tdel s.holdCounts f.id }
  s.when (s.holdsToken (.fn f)) State.freeToken

/-- FUNCTION_LEVEL_RESET (R181; 05_host_ports.md R150): the function is in D0 afterwards. -/
def execFunctionLevelReset (f : Fn) (s : State) : Host.Outcome State Fault Refusal :=
  .next ((s.resetFunction f).modHp f.hp (fun p => { p with d3 := p.d3.filter (· != f.fn.val) }))

/-! ## Reset of a host port (R566, R568; 05_host_ports.md R126) -/

/-- The functions of a host port. -/
def portFns (h : Fin 4) : List Fn := (List.finRange 256).map (fun f => ⟨h, f⟩)

/-- The copies that a host port held are gone: its back-invalidations count as answered, and the snoop filter forgets it. -/
def State.forgetHost (s : State) (h : Fin 4) : State :=
  let one := fun (s : State) (d : Die) =>
    let s := ((s.hag d).trackers.filter (fun t => t.2.snoops.contains h)).foldl (fun s t => s.birsp h t.1) s
    s.modHag d (fun x => { x with filter := x.filter.foldl (fun t p => sfClear t p.1 h false) x.filter,
                                  trackers := x.trackers.map (fun t => (t.1, { t.2 with reqs := t.2.reqs.filter (fun r => r.hp != h) })),
                                  input := x.input.filter (fun i => match i with | .host _ r => r.hp != h | .dev _ => true) })
  one (one s .a) .b

/-- Links down, configuration space reset, and every function of the port reset. -/
def State.resetPort (s : State) (h : Fin 4) : State :=
  let s := (portFns h).foldl (fun s f => s.resetFunction f) s
  let s := (s.forgetHost h).wr .a (HP.HP_MODE.COHERENT (linkIdx h false)) 0
  let s := [Die.a, Die.b].foldl (fun s d => s.wr d HAG.HAG_STATUS.PORTS (s.rd d HAG.HAG_STATUS.PORTS - 2 ^ h.val * (s.rd d HAG.HAG_STATUS.PORTS / 2 ^ h.val % 2))) s
  let s := [Die.a, Die.b].foldl (fun s d => s.wr d HAG.HAG_STATUS.ACTIVE (b2n (s.rd d HAG.HAG_STATUS.PORTS != 0))) s
  s.modHp h (fun p => { p with link0 := linkDown, link1 := linkDown, pfOn := false, secOn := false, numVfs := 0, d3 := [], hdmOn := false,
                               hdmErr := false, resp0 := responderNew, resp1 := responderNew, ide := [] })

/-- The links of a port begin to train. -/
def State.trainHost (s : State) (h : Fin 4) (at_ : Nat) : State :=
  s.modHp h (fun p => { p with link0 := { p.link0 with training := true }, link1 := { p.link1 with training := p.bifurcated }, trainAt := at_ })

/-- SVC_STATE.PHASE has reached step 4 of power-up, and PWRGOOD is high: PERST_N is sampled (20_package.md R600). -/
def State.perstSampled (s : State) : Bool := s.svc.pwrgood && decide (4 ≤ s.rd .a SVC.SVC_STATE.PHASE)

/-- PERST_N_ASSERTED (R568). A port's settings, and its functions' bindings, stay. While it is not sampled only the level is noted. -/
def execPerstNAsserted (h : Fin 4) (s : State) : Host.Outcome State Fault Refusal :=
  .next (if !s.hpPresent h.val ∨ (s.hp h).perst then s
    else ((s.when s.perstSampled (fun s => s.resetPort h))).modHp h (fun p => { p with perst := true }))

/-- PERST_N_DEASSERTED (R566): training begins; a rise while PWRGOOD is low is ignored. -/
def execPerstNDeasserted (h : Fin 4) (s : State) : Host.Outcome State Fault Refusal :=
  .next (if !s.hpPresent h.val ∨ !s.svc.pwrgood ∨ !(s.hp h).perst then s
    else (s.modHp h (fun p => { p with perst := false })).when (s.perstSampled && !(s.hp h).lost) (fun s => s.trainHost h s.now))

/-! ## PTM (18_counters.md R560) -/

/-- PTM_EXCHANGE: the host's PTM Master Time, with the fabric time at the same instant. -/
def execPtmExchange (h : Fin 4) (host : W64) (s : State) : Host.Outcome State Fault Refusal :=
  .next (if !(s.hp h).link0.up then s
    else s.wrs (hpDie h) [(PCU.PTM_HOST.TIME, host.toNat), (PCU.PTM_FT.TIME, s.ftNow (hpDie h))])

/-! ## First training of a network port (14_link_layer.md R464) -/

/-- CTRL.ENABLE of a port is set for the first time since reset or APPLY. -/
def State.portStart (s : State) (d : Die) (i : Nat) : State :=
  if (s.llu d i).started || s.linkSt d i != lsDISABLED || !s.on d (HDR.CTRL.ENABLE (lluBase i)) then s
  else (s.modLlu d i (fun l => { l with started := true })).attempt d i true

end Sys2Proof.Machine
end

