-- ==== Sys2Proof/Machine/Faults.lean ====
section
/-! DEFINITION. The fault manager (16_faults.md): heartbeats, permanent faults and their actions, retirements, lost dies and host
ports, and the FM_CMD commands. -/

namespace Sys2Proof.Machine

/-! ## Counts within sliding windows (R501) -/

/-- `n` more events under a key: the events of the window, of which at most `cap` are kept. -/
def State.observe (s : State) (key n win cap : Nat) : State × Nat :=
  let old := ((tget s.fm.seen key).getD []).filter (fun t => s.now < t + win)
  let all := (old ++ List.replicate (min n cap) s.now)
  let l := all.drop (all.length - cap)
  (s.modFm (fun f => { f with seen := if l.isEmpty then tdel f.seen key else tput f.seen key l }), l.length)

/-- How far a counter has risen since it was last read under a key. -/
def State.growth (s : State) (key value : Nat) : State × Nat :=
  let was := nget s.fm.last key
  (s.modFm (fun f => { f with last := nput f.last key value }), if was ≤ value then value - was else value)

/-- A counter's growth, counted in a sliding window. -/
def State.watch (s : State) (key value win cap : Nat) : State × Nat :=
  let (s, n) := s.growth key value
  s.observe key n win cap

def faultKey (kind d n : Nat) : Nat := kind * 2 ^ 40 + d * 2 ^ 39 + n
def hourNs : Nat := 3600 * secNs

/-! ## Lost dies and host ports (R513, R514) -/

/-- Time that counts for host port HPk, in ms (R520, R521). -/
def State.availAdd (s : State) (h : Fin 4) (n : Nat) : State :=
  s.wr .a (FM.AVAIL.UNAVAIL_MS h.val) (min (2 ^ 32 - 1) (s.rd .a (FM.AVAIL.UNAVAIL_MS h.val) + n))

/-- An event that counts for host port HPk. -/
def State.availEvent (s : State) (h : Fin 4) (n : Nat) : State := (s.bump .a (FM.AVAIL.EVENTS h.val)).availAdd h n

/-- A host port is lost: 10 s count for its host to reattach, and the time until the port presents configuration space again. -/
def State.portDown (s : State) (h : Fin 4) : State :=
  (s.availEvent h 10000).modFm (fun f => { f with down := tput f.down h.val ((tget f.down h.val).getD s.now) })

/-- A die is lost: fenced, every domain in Sarabande until the next device reset, its host ports lost, and the other die a half. -/
def State.loseDie (s : State) (d : Die) : State :=
  if s.dieLost d then s
  else
    let s := s.event_ 6 12 d 0 10000 true
    let s := s.wr .a (match d with | .a => FM.FM_STATE.DIE_A_LOST | .b => FM.FM_STATE.DIE_B_LOST) 1
    let s := (List.range s.portsPerDie).foldl (fun s i => if s.linkSt d i = lsRETIRED then s else (s.portOut d i).setLink d i lsDISABLED) s
    let s := [0, 1].foldl (fun s k =>
      let h := domHp d (24 + k)
      ((s.when (s.hpPresent h.val && !(s.hp h).lost) (fun s => s.portDown h)).resetPort h).modHp h (fun p => { p with lost := true })) s
    let s := (List.range 32).foldl (fun s i => s.lockOff d i 4) s
    s.split

/-- A domain power-cycle (R540): what the domain held is gone, and it is in Sarabande for 100 µs before it is restored. -/
def State.cycleArrays (s : State) (d : Die) (i : Nat) : State :=
  if i < 16 then
    let ports := ((List.range 4).map (fun k => s.lanePort (4 * i + k))).eraseDups
    ports.foldl (fun s p => if s.linkSt d p = lsRETIRED then s else ((s.portOut d p).setLink d p lsDISABLED).setLlu d p llu0) s
  else if i < 24 then s.clusterReset d i
  else if i = 24 ∨ i = 25 then s.resetPort (domHp d i)
  else if i = 27 then
    ((s.die d).members.filter (fun m => !isLeaf m.2)).foldl (fun s m => (s.quadFailHere d m.1 stABORTED).dropMember d m.1) s
  else if i = 28 then s.modXlu d (fun x => { x with walks := [], ats := [] })
  else if i = 29 then s.modHag d (fun h => { h with filter := [], trackers := [], input := [], waiting := [] })
  else if i = 30 then
    let s := (s.dropBridge .a).dropBridge .b
    [Die.a, Die.b].foldl (fun s e => s.modBridge e (fun b => { b with mods := b.mods.map (fun m =>
      (m.1, { bmod0 with training := !s.retired 3 .a m.1, trainAt := s.now })), stripeTx := 0, stripeRx := 0, next := 0 })) s
  else s

def State.cycleDomain (s : State) (d : Die) (i : Nat) : State :=
  let held := (s.dom d i).held
  let s := (s.cycleArrays d i).domEnter d i 5
  s.modDom d i (fun _ => { dom0 with stateAt := s.now, wakeAt := some (s.now + us 100), held := held })

/-- FENCE_ACK (R535, step 4): the domain has drained, 10 ns after the fence was raised at the earliest. A DOMAIN_CYCLE then takes the
supply away (R540). -/
def execFenceAck (d : Die) (i : Fin 32) (s : State) : Host.Outcome State Fault Refusal :=
  .next (
    let i := i.val
    let m := s.dom d i
    if s.draining d i && s.domDrained d i && decide (m.fenceAt + 10 ≤ s.now ∧ s.now ≤ m.fenceAt + s.fenceTimeout d) then
      let s := s.bump d PWC.FENCES.COUNT
      if s.cycled d i then s.cycleDomain d i else s.modDom d i (fun m => { m with acked := true })
    else s)

/-- FENCE_TIMEOUT (R537): the fence is abandoned; that of a DOMAIN_CYCLE closes the clamps anyway, and what is outstanding is discarded
(R540). -/
def execFenceTimeout (d : Die) (i : Fin 32) (s : State) : Host.Outcome State Fault Refusal :=
  .next (if s.draining d i.val && decide ((s.dom d i.val).fenceAt + s.fenceTimeout d < s.now) then
      if s.cycled d i.val then s.cycleDomain d i.val else s.abandonFence d i.val PWC.FENCE_TIMEOUTS.COUNT
    else s)

/-- A host port is lost: its domain is cycled and its link trains again; a second time within 24 h it stays down. -/
def State.loseHostPort (s : State) (h : Fin 4) : State :=
  let d := hpDie h
  let s := (s.event_ 7 11 d h.val 10000 true).portDown h
  let (s, n) := s.observe (faultKey 12 0 h.val) 1 (24 * hourNs) 2
  if 2 ≤ n then ((s.resetPort h).modHp h (fun p => { p with lost := true })).lockOff d (24 + h.val % 2) 4
  else (s.cycleDomain d (24 + h.val % 2)).when (!(s.hp h).perst) (fun s => s.trainHost h (s.now + us 100))

/-! ## Retirements (R507 to R512, R517) -/

/-- A lane is retired (R501): a port with other lanes in use narrows, and one without is retired. -/
def State.retireLane (s : State) (d : Die) (n cause : Nat) : State :=
  let g := d.num * 64 + n
  if !s.retirable 1 d g then s
  else
    let s := s.recordRet 1 d g cause 0xFFFFFFFF
    let i := s.lanePort n
    let bit := 2 ^ s.laneRank n
    if s.linkSt d i = lsRETIRED then s.laneOff d n
    else if s.goodMask d i = 0 then s.retirePort d i cause
    else if s.linkSt d i = lsACTIVE then
      let m := s.rd d (LLU.LINK_STATE.LANES_ACTIVE i)
      let rest := m - bit * (m / bit % 2)
      if rest = m then s.laneOff d n
      else if rest = 0 then s.retirePort d i cause
      else s.changeGo d i rest (s.rd d (LLU.LINK_STATE.RATE i))
    else (s.laneOff d n).modLlu d i (fun l => { l with useMask := l.useMask - bit * (l.useMask / bit % 2) })

/-- An engine is retired (R509); its operations go on at other engines of the die (09_remote_access.md R275). -/
def State.retireEngine (s : State) (n cause : Nat) : State :=
  let d := if n < 64 then Die.a else Die.b
  if !s.retirable 5 d n then s
  else
    let s := s.recordRet 5 d n cause 0xFFFFFFFF
    if (s.enginesLeft d).isEmpty then s.loseDie d else s.reassign d

/-- Capacity of a basin and its ceilings (13_switch_core.md R422). -/
def basinShare (p : Params) (n : Nat) : Nat := (tget p.basin n).getD (if n < 2 then 40 else if n = 2 then 15 else 5)

def State.basinCeilings (s : State) (d : Die) (p : Params) : State :=
  (List.range 4).foldl (fun s n => s.wr d (SWC.BASIN_VN.CEILING n) (basinShare p n * s.rd d SWC.BASIN.CAPACITY / 100)) s

/-- The context cache above its capacity: the least recently used contexts are dropped, those that are dirty written back (R509). -/
def State.ctxTrim (s : State) (d : Die) : State :=
  (List.range (s.ctxCached d - s.rd d TRU.CTX_CACHE.ENTRIES)).foldl (fun s _ =>
    match leastUsed ((s.tru d).ctxs.filter (fun p => p.2.cached)) with
    | some (i, _) => s.modCtx d i (fun c => { c with cached := false, dirty := false })
    | none => s) s

/-- The least recently used translations of a TLB above its capacity are dropped (R509). -/
def tlbTrim (cap : Nat) (x : Xlu) : Xlu :=
  { x with tlb := (List.range (x.tlb.length - cap)).foldl (fun l _ => match l with
      | [] => []
      | h :: t => (h :: t).erase (t.foldl (fun m p => if p.lastUse < m.lastUse then p else m) h)) x.tlb }

/-- A structure-cache bank leaves service (R509). The contexts' banks come first, then the bins', then the TLB's; what a bank holds is
what was used longest ago (log entry 26). -/
def State.bankOut (s : State) (d : Die) (k : Nat) : State :=
  match s.running with
  | none => s
  | some r =>
    if k < r.params.ctxBanks then (s.wr d TRU.CTX_CACHE.ENTRIES (s.rd d TRU.CTX_CACHE.ENTRIES - 2048)).ctxTrim d
    else if k < r.params.ctxBanks + r.params.binBanks then (s.wr d TMU.BINS.COUNT (s.rd d TMU.BINS.COUNT - 4096)).startRehash d
    else
      let cap := s.rd d XLU.TLB_CAP.ENTRIES - 2048
      (s.wr d XLU.TLB_CAP.ENTRIES cap).modXlu d (tlbTrim cap)

def State.retireBank (s : State) (d : Die) (k cause : Nat) : State :=
  if !s.retirable 6 d k then s else (s.recordRet 6 d k cause 0xFFFFFFFF).bankOut d k

/-- The WQU's caches above their capacities: what was used longest ago is written back or dropped (R509). -/
def State.wquTrim (s : State) (d : Die) : State :=
  let s := (List.range (s.qscUsed d - 1024 * s.wquBanks d 0)).foldl (fun s _ => s.qscEvict d (2 ^ 64)) s
  let s := (List.range (s.ctrUsed d - 1024 * s.wquBanks d 1)).foldl (fun s _ => s.ctrEvict d (2 ^ 64)) s
  State.pfTrim (s.pfUsed d - 1024 * s.wquBanks d 2) d (2 ^ 64) s

def State.retireWqu (s : State) (d : Die) (k cause : Nat) : State :=
  if !s.retirable 7 d k then s else (s.recordRet 7 d k cause 0xFFFFFFFF).wquTrim d

/-- The ports of a die whose replay buffers a bank of 80 KiB holds, the pool being drawn in port order (log entry 26), with the KiB
they lose. -/
def replayHit (l : List (Nat × Nat)) (lo hi base : Nat) : List (Nat × Nat) :=
  match l with
  | [] => []
  | (i, kib) :: rest =>
    let a := max base lo
    let b := min (base + kib) hi
    (if a < b then [(i, b - a)] else []) ++ replayHit rest lo hi (base + kib)

/-- A bank of the replay pool leaves service (R510): the ports it held retrain with less. -/
def State.replayBankOut (s : State) (d : Die) (k : Nat) : State :=
  let caps := (List.range s.portsPerDie).map (fun i => (i, s.rd d (LLU.REPLAY.CAPACITY i) / 4))
  (replayHit caps (80 * k) (80 * k + 80) 0).foldl (fun s p =>
    let kib := s.rd d (LLU.REPLAY.CAPACITY p.1) / 4
    (s.wr d (LLU.REPLAY.CAPACITY p.1) ((kib - p.2) / 32 * 32 * 4)).retrain d p.1 4) s

/-- Rows of an array that are retired. -/
def State.rowsOut (s : State) (d : Die) (array : Nat) : Nat :=
  ((s.retiredOf 8 d).filter (fun i => i / 2 ^ 24 == array)).length

/-- Spare rows of an array. -/
def spareRows : RowBank → Nat
  | .basin _ | .replay _ => 64
  | _ => 16

/-- Note the bank that a row's loss took: 0 a basin bank, 1 + k bank k of the replay pool. -/
def State.loseBank (s : State) (d : Die) (idx bank : Nat) : State :=
  s.modFm (fun f => { f with lostBanks := tput f.lostBanks (d.num * 2 ^ 40 + idx) bank })

/-- The banks of a die that such records hold out of service. -/
def State.banksLost (s : State) (d : Die) : List Nat :=
  (s.fm.lostBanks.filter (fun b => b.1 / 2 ^ 40 == d.num && s.retired 8 d (b.1 % 2 ^ 40))).map (·.2)

/-- A row is retired into a spare row, or its bank is, when no spare is left (R510). -/
def State.retireRow (s : State) (d : Die) (array row cause : Nat) (bank : RowBank) : State :=
  let idx := array * 2 ^ 24 + row
  let n := s.rowsOut d array
  if !s.retirable 8 d idx then s
  else if n < spareRows bank then s.recordRet 8 d idx cause n
  else match bank with
    | .none => s
    | .structure_ k => s.retireBank d k.val cause
    | .wqu c k => s.retireWqu d (16 * c.val + k.val) cause
    | .basin _ =>
      let s := (s.recordRet 8 d idx cause 0xFFFFFFFF).loseBank d idx 0
      let s := s.wr d SWC.BASIN.CAPACITY (s.rd d SWC.BASIN.CAPACITY - 10240)
      (match s.running with | some r => s.basinCeilings d r.params | none => s)
    | .replay k => ((s.recordRet 8 d idx cause 0xFFFFFFFF).loseBank d idx (1 + k.val)).replayBankOut d k.val

/-- The stack of an HBM3E row's index. -/
def hbmStack (idx : Nat) : Nat := idx / 2 ^ 30 % 2

/-- An HBM3E row is retired (R512): at most 4,096 of a die. Its uncorrectable sectors are copied as poisoned. -/
def State.retireHbm (s : State) (d : Die) (idx cause : Nat) (lost : List Nat) : State :=
  let n := (s.retiredOf 9 d).length
  if !s.retirable 9 d idx ∨ 4096 ≤ n then s
  else
    let s := (s.recordRet 9 d idx cause n).bump d (DMEM.STACK_ROWS_RETIRED.COUNT (hbmStack idx))
    { s with poison := lost.foldl setInsert s.poison }

/-- A membership goes to the other die's QDU while that has room, with its segments in flight recovered as for a slot error, and
fails otherwise (11_collectives.md R364, R365). -/
def State.moveMember (s : State) (d : Die) (k : Nat) : State :=
  let o := d.other
  match s.member? d k with
  | none => s
  | some m =>
    if s.qduEnabled o && !s.retired 10 o 0 && decide ((s.servedBy o).length < 2048) && s.slotsFit o ((1 + borrowed m) * setSlots m) then
      let s := (s.modMember d k (fun m => { m with moved := true })).wr o QDU.QDU_STATUS.SERVING_OTHER 1
      m.segs.foldl (fun s g => s.slotLost d k g.seg) s
    else s.quadFailHere d k stABSENT

/-- A QDU is retired (R365, R509). -/
def State.retireQdu (s : State) (d : Die) (cause : Nat) : State :=
  if !s.retirable 10 d 0 then s
  else
    let s := s.recordRet 10 d 0 cause 0xFFFFFFFF
    let ks := ((s.die d).members.filter (fun m => !isLeaf m.2 && !m.2.moved)).map (·.1)
    let s := s.when (s.qduEnabled d.other && !s.retired 10 d.other 0) (fun s => s.wr d.other QDU.QDU_STATUS.SERVING_OTHER 1)
    ks.foldl (fun s k => s.moveMember d k) s

/-- A NoC link's failing wire is spared (R511): which wire, its pattern test finds; a fifth one loses the die. -/
def State.spareWire (s : State) (d : Die) (link : Nat) : State :=
  let used := ((s.retiredOf 4 d).filter (fun i => i % 256 == link)).length
  if 4 ≤ used then s.loseDie d
  else if s.freeRet.isNone then s
  else s.draw (fun k s => (s.recordRet 4 d (link + k % 544 * 256) 1 used).modNocLink d link (fun l => { l with fails := 0 }))

/-! ## Evaluation (R501 to R503) -/

/-- A lane (R501). -/
def State.evalLane (s : State) (d : Die) (n : Nat) : State :=
  let k := fun (kind : Nat) => faultKey kind d.num n
  let (s, unc) := s.watch (k 1) (s.rd d (LNE.FEC_UNCORRECTABLE.COUNT n)) secNs 17
  let (s, loss) := s.watch (k 2) (s.rd d (LNE.LOCK_LOSSES.COUNT n)) (60 * secNs) 8
  let cw := s.rd d (LNE.FEC_CODEWORDS.COUNT n)
  let sym := s.rd d (LNE.FEC_CORRECTED_SYMBOLS.COUNT n)
  let (t, c0, y0, run) := (tget s.fm.lanes (k 0)).getD (s.now, cw, sym, 0)
  let due := t + secNs ≤ s.now
  let run := if !due then run else if (cw - c0) * 544 < (sym - y0) * 5000 then run + 1 else 0
  let s := s.modFm (fun f => { f with lanes := tput f.lanes (k 0) (if due then (s.now, cw, sym, run) else (t, c0, y0, run)) })
  if 3 ≤ run then s.retireLane d n 1
  else if 17 ≤ unc then s.retireLane d n 2
  else if 8 ≤ loss then s.retireLane d n 3
  else if 3 ≤ (s.lane d n).qualFails then s.retireLane d n 4
  else s

/-- A port (R501; 14_link_layer.md R470). -/
def State.evalPort (s : State) (d : Die) (i : Nat) : State :=
  let k := fun (kind : Nat) => faultKey kind d.num i
  let (s, up) := s.watch (k 3) (s.rd d (LLU.RETRAINS.COUNT i)) (60 * secNs) 32
  let (s, crc) := s.watch (k 4) (s.rd d (LLU.CRC_ERRORS.COUNT i)) (10 * secNs) 101
  let l := s.llu d i
  let st := s.linkSt d i
  let out := l.ran && (st == lsTRAINING || st == lsNEGOTIATE || st == lsCHANGING)
  let fails := (l.fails.filter (fun t => s.now < t + 60 * secNs)).length
  if out && (decide (16 ≤ fails) || decide (l.downAt + ms 500 ≤ s.now)) then s.retirePort d i 1
  else if 32 ≤ up then s.retirePort d i 2
  else if 101 ≤ crc then s.retirePort d i 3
  else s

/-- A bridge module (R501). -/
def State.evalModule (s : State) (m : Nat) : State :=
  let many := fun (d : Die) => decide (1000 < ((s.bmod d m).fails.filter (fun t => s.now < t + secNs)).length)
  if (s.bmod .a m).training && decide ((s.bmod .a m).trainAt + ms 1 ≤ s.now) then s.retireMod m 2
  else if many .a || many .b then s.retireMod m 3
  else s

/-- A row of an array: a correction, or an uncorrectable error (R501, R510). An entry of a cache whose backing copy is clean is reloaded
from it, and nothing is seen (R503). -/
def State.evalRow (s : State) (d : Die) (array row : Nat) (bad : Bool) (bank : RowBank) : State :=
  let idx := array * 2 ^ 24 + row
  let s := s.event_ (if bad then 2 else 1) 8 d idx 0 false
  let (s, n) := if bad then s.observe (faultKey 7 d.num idx) 1 (24 * hourNs) 2 else s.observe (faultKey 6 d.num idx) 1 hourNs 4
  if n < (if bad then 2 else 4) then s else s.retireRow d array row (if bad then 2 else 1) bank

/-- A row of a stack (R501, R512). -/
def State.evalHbm (s : State) (d : Die) (idx symbols : Nat) (lost : List Nat) : State :=
  let s := s.bumpBy d (DMEM.STACK_CORRECTED.COUNT (hbmStack idx)) symbols
  let s := s.bumpBy d (DMEM.STACK_UNCORRECTABLE.COUNT (hbmStack idx)) lost.length
  let s := s.event_ (if lost.isEmpty then 1 else 2) 9 d idx symbols false
  let (s, n) := s.observe (faultKey 11 d.num idx) symbols (24 * hourNs) 16
  if !lost.isEmpty then
    let t := s.retireHbm d idx 2 lost
    { t with poison := lost.foldl setInsert t.poison }
  else if 16 ≤ n then s.retireHbm d idx 1 []
  else s

/-- A QDU (R501). -/
def State.evalQdu (s : State) (d : Die) (control : Bool) : State :=
  let (s, n) := s.watch (faultKey 9 d.num 0) (s.rd d QDU.SLOT_ERRORS.COUNT) hourNs 64
  let (s, c) := s.observe (faultKey 10 d.num 0) (b2n control) (24 * hourNs) 2
  if 64 ≤ n then s.retireQdu d 1 else if control && decide (2 ≤ c) then s.retireQdu d 2 else s

/-- A payload unit is found uncorrectable (R502). Short of the landing point it is carried with POISON set, and a packet held for order,
whose units have left the switch core, is forgotten; after that an unexpected message is poisoned. A slot in the prefetch cache is
reloaded from its ring (R501). -/
def State.poisonUnit (s : State) (d : Die) : PayloadPlace → State
  | .basin k => match (s.swc d).inList k.val with
    | [] => s
    | q :: l => s.modSwc d (fun x => x.setIns k.val ({ q with marks := q.marks.set q.sent true } :: l))
  | .injection k => match (tget (s.sluice d).inj k.val).getD [] with
    | [] => s
    | (p, j) :: l => s.modSluice d (fun x =>
        { x with inj := tput x.inj k.val ((if j = 0 then { p with badHdr := true } else { p with badData := true }, j) :: l) })
  | .staging k => match (s.swc d).staged k.val with
    | [] => s
    | u :: l => s.modSwc d (fun x => x.setStage k.val ({ u with poison := true } :: l))
  | .replay i => s.modLlu d i.val (fun l => match l.buf with
    | f :: r => match f.units with
      | u :: us => { l with buf := { f with units := { u with poison := true } :: us } :: r }
      | [] => l
    | [] => l)
  | .reorder i => match s.ctx? d i.toNat with
    | none => s
    | some c => match c.rx.find? (fun e => e.st == .reorder) with
      | none => s
      | some e => (s.modCtx d i.toNat (fun c => { c with rx := c.rx.erase e })).rxSettle d i.toNat
  | .unexpected f q k asn =>
    let key := qKey (setKey f q.val) k.val
    match ((tget (s.tmu (fnDie f)).uxs key).getD []).find? (fun u => u.asn == asn.toNat) with
    | none => s
    | some u => if u.mode = .inline then s.modUx (fnDie f) key asn.toNat (fun u => { u with poison := true })
      else match u.granules with
        | g :: _ => { s with poison := setInsert s.poison (s.granule (fnDie f) g) }
        | [] => s
  | .prefetch f q k slot =>
    let key := qKey (setKey f q.val) k.val
    (s.modQueue key (fun q => { q with cache := tdel q.cache slot.toNat })).pumpQueue key

/-- A transport context is lost (R503): it ends under R303 with REASON 4. -/
def State.loseContext (s : State) (d : Die) (i : Nat) : State :=
  match s.ctx? d i with
  | none => s
  | some c =>
    ((s.logEvent { seq := 0, time := s.ftNow d, type := 8, cls := 0, die := d.num, visible := !c.descs.isEmpty, index := 0, count := 1,
                   detail := 1000, addr := i, polder := 0, fea := c.fea }).availEvent c.hp 1000).abortCtx d i 4

/-- A posted receive or message of a queue is lost (R503). -/
def State.loseMatch (s : State) (key : Nat) : State :=
  match s.queue key with
  | none => s
  | some q =>
    ((s.logEvent { seq := 0, time := s.ftNow (setDie (key / 8)), type := 8, cls := 0, die := (setDie (key / 8)).num, visible := true,
                   index := 0, count := 1, detail := 1000, addr := key, polder := q.polder, fea := 0 }).availEvent (setFn (key / 8)).hp 1000).queueFail
      key stFORMAT

/-- FAULT_EVALUATION (R501 to R503, R507, R513, R514). -/
def execFaultEvaluation (o : FaultObs) (s : State) : Host.Outcome State Fault Refusal :=
  .next (match o with
    | .lane d n => s.evalLane d n.val
    | .port d i => s.evalPort d i.val
    | .module m => s.evalModule m.val
    | .nocLink d stop dir =>
      let link := stop.val + 64 * dir.val
      if 9 ≤ (s.nocLink d link).fails then s.spareWire d link else s
    | .row d array row bad bank => s.evalRow d array.toNat row.toNat bad bank
    | .engine n =>
      let d := if n.val < 64 then Die.a else Die.b
      if 3 ≤ (s.observe (faultKey 8 0 n.val) 0 hourNs 3).2 && bitOf s.unitEnabled (n.val / 8) && !s.dieLost d then s.retireEngine n.val 1 else s
    | .qdu d control => if s.qduPresent d then s.evalQdu d control else s
    | .hbmRow d idx symbols lost => if s.stackPresent d (hbmStack idx.toNat) then s.evalHbm d idx.toNat symbols (lost.map (·.toNat)) else s
    | .hostPort h => if s.hpPresent h.val && !(s.hp h).lost then s.loseHostPort h else s
    | .die d => s.loseDie d
    | .payload d p => s.poisonUnit d p
    | .polderCopy d k => s.modDie d (fun x => { x with staleChecks := tput x.staleChecks k.val (s.now + us 2) })
    | .context d i => s.loseContext d i.toNat
    | .matchState f q k => s.loseMatch (qKey (setKey f q.val) k.val)
    | .slotSet d m seg =>
      if s.qduPresent d then ((s.bump d QDU.SLOT_ERRORS.COUNT).slotLost d m.toNat seg.toNat).evalQdu d false else s
    | .matchEntry d => s.bump d TMU.ECC_RELOADS.COUNT)

/-! ## Heartbeats, suppressed records, engines (R500, R501, R518) -/

/-- HEARTBEAT_TIMER (R500): every 100 µs; the tenth heartbeat missed in a row wedges the die. -/
def execHeartbeatTimer (d : Die) (answered : Bool) (s : State) : Host.Outcome State Fault Refusal :=
  .next (
    if !s.on .a FM.FM_STATE.RUNNING ∨ s.dieLost d ∨ s.now < s.fm.beatAt.get d then s
    else
      let n := if answered then 0 else s.fm.missed.get d + 1
      let s := s.modFm (fun f => { f with beatAt := f.beatAt.set d (s.now + us 100), missed := f.missed.set d n })
      let s := s.when (!answered) (fun s => s.event_ 10 12 d 0 n false)
      s.when (decide (10 ≤ n)) (fun s => s.loseDie d))

/-- SUPPRESSED_RECORDS_TICK (R518). -/
def execSuppressedRecordsTick (s : State) : Host.Outcome State Fault Refusal :=
  .next (
    if s.fm.suppressed = 0 ∨ s.now < s.fm.secAt + secNs then s
    else
      let n := s.fm.suppressed
      (s.modFm (fun f => { f with suppressed := 0, secAt := s.now, secCount := 1 })).putEvent
        { seq := 0, time := s.ftNow .a, type := 9, cls := 0, die := 0, visible := false, index := 0, count := n, detail := 0, addr := 0,
          polder := 0, fea := 0 })

/-- ENGINE_WATCHDOG (R501): an engine that retires no instruction for 100 µs is reset and its code reloaded. -/
def execEngineWatchdog (n : Fin 128) (s : State) : Host.Outcome State Fault Refusal :=
  let d := if n.val < 64 then Die.a else Die.b
  .next (if bitOf s.unitEnabled (n.val / 8) && !s.retired 5 d n.val && !s.dieLost d then
      (((s.engineReset n.val).observe (faultKey 8 0 n.val) 1 hourNs 3).1).event_ 2 5 d n.val 0 false
    else s)

/-! ## FM_CMD (R523, R524) -/

def fmARG : Nat := 1
def fmALREADY : Nat := 2
def fmNOT_RETIRED : Nat := 3
def fmSPARES : Nat := 4
def fmTABLE_FULL : Nat := 5
def fmRECORD : Nat := 6

/-- A command ends with a detail code. -/
def State.fmEnd (s : State) (detail : Nat) : State :=
  s.wrs .a [(FM.FM_STATUS.BUSY, 0), (FM.FM_STATUS.DONE, 1), (FM.FM_STATUS.CODE, if detail = 0 then stOK else stFORMAT), (FM.FM_STATUS.DETAIL, detail)]

/-- GO written with an operation: refused while a command runs, else the command runs. -/
def State.fmGo (s : State) (op : Nat) (act : State → Except Nat State) : State :=
  let s := s.wr .a FM.FM_CMD.OP op
  if s.on .a FM.FM_STATUS.BUSY then s.wr .a FM.FM_STATUS.GO_REJECT 1
  else match act s with
    | .ok s => s.fmEnd 0
    | .error e => s.fmEnd e

def State.fmDie (s : State) : Die := if s.on .a FM.FM_ARG.DIE then .b else .a

/-- The resource that FM_ARG names exists on this part, on the die it names. -/
def State.fmResource (s : State) (cls : Nat) (d : Die) (idx : Nat) : Bool :=
  match cls with
  | 1 => idx / 64 == d.num && decide (idx < 128)
  | 2 => decide (idx < 2 * s.portsPerDie) && (s.portOf idx).1 == d
  | 3 => decide (idx < 16)
  | 4 => decide (idx / 256 < 544 ∧ idx < 2 ^ 18)
  | 5 => decide (idx < 128) && idx / 64 == d.num && bitOf s.present (idx / 8)
  | 6 => decide (idx < 32)
  | 7 => decide (idx < 48)
  | 8 => true
  | 9 => decide (idx / 2 ^ 30 < 2) && s.stackPresent d (hbmStack idx)
  | 10 => idx == 0 && s.qduPresent d
  | 11 => decide (idx < 4) && s.hpPresent idx && idx / 2 == d.num
  | 12 => idx == 0
  | _ => false

/-- The die under which a resource's record stands. -/
def recDie (cls : Nat) (d : Die) : Die := if cls = 3 then .a else d

def State.fmRetire (s : State) : Except Nat State :=
  let cls := s.rd .a FM.FM_ARG.CLASS
  let d := s.fmDie
  let idx := s.rd .a FM.FM_ARG.INDEX
  if !s.fmResource cls d idx then .error fmARG
  else if s.retired cls (recDie cls d) idx || (cls == 12 && s.dieLost d) || (cls == 11 && (s.hp ⟨idx % 4, Nat.mod_lt _ (by decide)⟩).lost) then .error fmALREADY
  else if (cls == 8 && decide (16 ≤ s.rowsOut d (idx / 2 ^ 24))) || (cls == 9 && decide (4096 ≤ (s.retiredOf 9 d).length)) then .error fmSPARES
  else if s.freeRet.isNone && decide (cls ≤ 10) then .error fmTABLE_FULL
  else .ok (match cls with
    | 1 => s.retireLane d (idx % 64) 1
    | 2 => s.retirePort d (s.portOf idx).2 1
    | 3 => s.retireMod idx 1
    | 4 =>
      let used := ((s.retiredOf 4 d).filter (fun i => i % 256 == idx % 256)).length
      if 4 ≤ used then s.loseDie d else s.recordRet 4 d idx 1 used
    | 5 => s.retireEngine idx 1
    | 6 => s.retireBank d idx 1
    | 7 => s.retireWqu d idx 1
    | 8 => s.retireRow d (idx / 2 ^ 24) (idx % 2 ^ 24) 1 .none
    | 9 => s.retireHbm d idx 1 []
    | 10 => s.retireQdu d 1
    | 11 => s.loseHostPort ⟨idx % 4, Nat.mod_lt _ (by decide)⟩
    | _ => s.loseDie d)

/-- FM_CMD RETIRE. -/
def State.fmRetireGo (s : State) : State := s.fmGo 1 State.fmRetire

/-- RETIRE (R524). -/
def execRetire (rq : Requester) (s : State) : Host.Outcome State Fault Refusal :=
  .next (s.asWarden rq .a FM.FM_CMD.OP.off State.fmRetireGo)

/-- A record is marked CLEARED; a port or a lane comes back at once (R517). -/
def State.fmUnretire (s : State) : Except Nat State :=
  let cls := s.rd .a FM.FM_ARG.CLASS
  let d := s.fmDie
  let idx := s.rd .a FM.FM_ARG.INDEX
  if !s.fmResource cls d idx then .error fmARG
  else match s.retiredRec cls (recDie cls d) idx with
    | none => .error fmNOT_RETIRED
    | some (k, _) =>
      let s := (s.clearRet k).event_ 4 cls (recDie cls d) idx 0 false
      .ok (if cls = 2 then
          let i := (s.portOf idx).2
          (s.setLlu d i llu0).setLink d i lsDISABLED
        else if cls = 1 then (s.laneOff d (idx % 64)).modLane d (idx % 64) (fun l => { l with qualFails := 0 })
        else s)

def State.fmUnretireGo (s : State) : State := s.fmGo 2 State.fmUnretire

/-- UNRETIRE (R517, R524). -/
def execUnretire (rq : Requester) (s : State) : Host.Outcome State Fault Refusal :=
  .next (s.asWarden rq .a FM.FM_CMD.OP.off State.fmUnretireGo)

/-- The bytes of a record of a region, and whether it is valid. -/
def State.recordAt (s : State) (region idx : Nat) : List Byte × Bool :=
  if region = 0 then match tget s.fm.ring idx with
    | some e => (evBytes e, true)
    | none => (List.replicate 64 0, false)
  else match tget s.fm.table idx with
    | some r => (retBytes r, true)
    | none => (List.replicate 64 0, false)

def State.fmRead (s : State) : Except Nat State :=
  let region := s.rd .a FM.FM_ARG.CLASS
  let idx := s.rd .a FM.FM_ARG.INDEX
  if 1 < region ∨ (if region = 0 then 211968 else 16384) ≤ idx then .error fmARG else .ok s

/-- FM_CMD READ_RECORD: a record that is not valid shows its bytes too. -/
def State.fmReadGo (s : State) : State :=
  let s := s.wr .a FM.FM_CMD.OP 3
  if s.on .a FM.FM_STATUS.BUSY then s.wr .a FM.FM_STATUS.GO_REJECT 1
  else match s.fmRead with
    | .error e => s.fmEnd e
    | .ok s =>
      let (b, ok) := s.recordAt (s.rd .a FM.FM_ARG.CLASS) (s.rd .a FM.FM_ARG.INDEX)
      let s := (List.range 8).foldl (fun s k => s.wr .a (FM.FM_DATA.DATA k) (leNat ((b.drop (8 * k)).take 8))) s
      s.fmEnd (if ok then 0 else fmRECORD)

/-- READ_RECORD (R524). -/
def execReadRecord (rq : Requester) (s : State) : Host.Outcome State Fault Refusal :=
  .next (s.asWarden rq .a FM.FM_CMD.OP.off State.fmReadGo)

def State.fmShutdown (s : State) : Except Nat State :=
  let n := s.rd .a FM.FM_ARG.INDEX
  if 128 ≤ n then .error fmARG else .ok (s.laneOff (if n < 64 then .a else .b) (n % 64))

def State.fmShutdownGo (s : State) : State := s.fmGo 4 State.fmShutdown

/-- LANE_SHUTDOWN (R515, R524). -/
def execLaneShutdown (rq : Requester) (s : State) : Host.Outcome State Fault Refusal :=
  .next (s.asWarden rq .a FM.FM_CMD.OP.off State.fmShutdownGo)

/-- FM_CMD DOMAIN_CYCLE (R540): the domain is fenced, and a fenced one loses its supply at once. The command runs until the domain is
restored; a domain that is locked off stays so. -/
def State.fmCycleGo (s : State) : State :=
  let s := s.wr .a FM.FM_CMD.OP 5
  let n := s.rd .a FM.FM_ARG.INDEX
  let d := if n < 32 then Die.a else Die.b
  if s.on .a FM.FM_STATUS.BUSY then s.wr .a FM.FM_STATUS.GO_REJECT 1
  else if 64 ≤ n ∨ s.rd d (PWC.DOM_STATE.LOCK_REASON (n % 32)) = 3 then s.fmEnd fmARG
  else if s.lockedOff d (n % 32) then s.fmEnd 0
  else
    let s := (s.wr .a FM.FM_STATUS.BUSY 1).modFm (fun f => { f with cycling := some n })
    if 3 ≤ s.domSt d (n % 32) ∨ (s.dom d (n % 32)).acked then s.cycleDomain d (n % 32)
    else (s.wr d (PWC.DOM_STATE.FENCING (n % 32)) 1).modDom d (n % 32) (fun m => { m with fenceAt := s.now, wakeAt := none })

/-- DOMAIN_CYCLE (R524, R540). -/
def execDomainCycle (rq : Requester) (s : State) : Host.Outcome State Fault Refusal :=
  .next (s.asWarden rq .a FM.FM_CMD.OP.off State.fmCycleGo)

/-- A cycled domain has come back: its host port trains, its ports start, and the command ends. -/
def State.cycleDone (s : State) (d : Die) (i : Nat) : State :=
  if s.fm.cycling ≠ some (32 * d.num + i) then s
  else
    let s := s.modFm (fun f => { f with cycling := none })
    let s := if i < 16 then (((List.range 4).map (fun k => s.lanePort (4 * i + k))).eraseDups).foldl (fun s p => s.portStart d p) s
      else if (i = 24 ∨ i = 25) ∧ !(s.hp (domHp d i)).perst then s.trainHost (domHp d i) s.now
      else s
    s.fmEnd 0

end Sys2Proof.Machine
end

