-- ==== Sys2Proof/Machine/Time.lean ====
section
/-! DEFINITION. Counter windows, dump records and the polder counter view, and fabric time (18_counters.md). -/

namespace Sys2Proof.Machine

def State.win (s : State) (d : Die) : Window_ := (s.die d).win
def State.modWin (s : State) (d : Die) (f : Window_ → Window_) : State := s.modDie d (fun x => { x with win := f x.win })
def State.modFt (s : State) (d : Die) (f : FTime → FTime) : State := s.modDie d (fun x => { x with ft := f x.ft })

def State.pcuOn (s : State) (d : Die) : Bool := s.on d (HDR.CTRL.ENABLE 0x3800000)

/-- WINDOW_US in ns (R561: smaller values than 10 act as 10). -/
def State.windowNs (s : State) (d : Die) : Nat := us (max 10 (s.rd d PCU.PCU_CFG.WINDOW_US))

/-! ## Dump records (R551 to R553) -/

/-- The six counters of a polder entry. -/
def State.pcCounts (s : State) (d : Die) (e : Nat) : List Nat := (List.range 6).map (fun m => s.rd d (PCU.PC_CTR.COUNT e m))

/-- Polder entries that a record shows: polder 0, then every entry in use, with its polder. -/
def State.pcEntries (s : State) (d : Die) : List (Nat × Nat) := (0, 0) :: (s.die d).polders.map (fun p => (p.1 + 1, p.2.id))

def words (l : List Nat) : List Byte := l.flatMap (leBytes 8)

/-- The section of a group. -/
def State.section_ (s : State) (d : Die) (g : Nat) : List Byte :=
  match g with
  | 0 => words ((List.range 48).flatMap (fun k => [0, 1, 2, 3].map (fun m => s.rd d (PCU.PORT_CTR.COUNT (4 * k + m)))))
  | 1 => words ((List.range 2).flatMap (fun h => [0, 1, 2, 3].map (fun m => s.rd d (PCU.HP_CTR.COUNT (4 * h + m)))))
  | 2 => words ((List.range 16).map (fun c => s.rd d (PCU.EV_COUNT.COUNT c)))
  | _ => (s.pcEntries d).flatMap (fun e => leBytes 4 e.2 ++ leBytes 4 0 ++ words (s.pcCounts d e.1) ++ leBytes 8 0)

/-- A record up to its trailer: the header and the sections. -/
def State.recordBody (s : State) (d : Die) (seq dur number flags groups lost : Nat) : List Byte :=
  let secs := ((List.range 4).filter (bitOf groups)).flatMap (s.section_ d)
  let w := s.win d
  leBytes 4 0x50435544 ++ leBytes 4 seq ++ leBytes 8 w.startFt ++ leBytes 8 dur ++ leBytes 8 number ++ leBytes 2 flags ++
    leBytes 1 d.num ++ leBytes 1 groups ++ leBytes 4 lost ++ leBytes 4 (128 + secs.length) ++ leBytes 4 (s.myFea d 0) ++
    leBytes 2 w.restarted ++ List.replicate 14 0 ++ secs

/-- Write bytes of the ring at an offset, to host memory or to device memory. -/
def State.dumpWrite (s : State) (d : Die) (off : Nat) (b : List Byte) : State :=
  let base := s.rd d PCU.DUMP_BASE.ADDR * 64
  if s.on d PCU.DUMP_TARGET.TARGET then s.devAccess (ownAccess (base + off) (.write b false))
  else s.hwrite ⟨⟨s.rd d PCU.DUMP_TARGET.HOST_PORT % 4, Nat.mod_lt _ (by decide)⟩, ⟨s.rd d PCU.DUMP_TARGET.FUNCTION % 256, Nat.mod_lt _ (by decide)⟩⟩
    (base + off) false b

/-- The target can be written: a warden function whose link is up, or device memory outside the device regions. -/
def State.dumpOk (s : State) (d : Die) (size : Nat) : Bool :=
  if s.on d PCU.DUMP_TARGET.TARGET then s.usable (s.rd d PCU.DUMP_BASE.ADDR * 64) size
  else
    let f : Fn := ⟨⟨s.rd d PCU.DUMP_TARGET.HOST_PORT % 4, Nat.mod_lt _ (by decide)⟩, ⟨s.rd d PCU.DUMP_TARGET.FUNCTION % 256, Nat.mod_lt _ (by decide)⟩⟩
    s.isWarden f && s.fnLinkUp f && hpDie f.hp == d

/-- Write the record of the window that ends, where the ring has room; otherwise it is lost (R551, R552). A record that would cross
the end of the ring begins at its base, behind a pad unit (log entry 29). -/
def State.dump (s : State) (d : Die) (seq dur number flags groups : Nat) : State :=
  let size := s.rd d PCU.DUMP_SIZE.KIB * 1024
  if size = 0 then s
  else
    let lost := (s.win d).lostSince
    let flags := flags + 16 * b2n (0 < lost)
    let body := s.recordBody d seq dur number flags groups lost
    let prod := s.rd d PCU.DUMP_PROD.OFFSET
    let used := (prod + 2 ^ 64 - s.rd d PCU.DUMP_CONS.OFFSET) % 2 ^ 64
    let len := body.length + 64
    let toEnd := size - prod % size
    let skip := if toEnd < len then toEnd else 0
    if size < used + skip + len ∨ !s.dumpOk d size then
      (s.modWin d (fun w => { w with lostSince := w.lostSince + 1 })).bump d PCU.DUMP_STATUS.LOST
    else
      let s := if 0 < skip then s.dumpWrite d (prod % size) (leBytes 4 0x50435550 ++ List.replicate 60 0) else s
      let at_ := (prod + skip) % size
      let s := s.dumpWrite d at_ body
      let s := s.dumpWrite d (at_ + body.length) (leBytes 4 seq ++ crcWord body ++ List.replicate 56 0)
      (s.wr d PCU.DUMP_PROD.OFFSET ((prod + skip + len) % 2 ^ 64)).modWin d (fun w => { w with lostSince := 0 })

/-! ## Windows (R548 to R550, R555) -/

/-- What the next window begins with: fabric time, and flags CLEARED, STEP and CONFIG. -/
structure NextWin where
  startFt : Nat
  step : Bool
  cleared : Bool
  config : Bool
  deriving DecidableEq, Repr

/-- Begin a window: the event counters whose configuration was written restart (R548). -/
def State.beginWindow (s : State) (d : Die) (n : NextWin) : State :=
  let cfgs := (s.win d).evNext
  let s := cfgs.foldl (fun s c =>
    let e : EvSel := ⟨s.rd d (PCU.EV_CFG.EVENT c), s.rd d (PCU.EV_CFG.POLDER c), s.on d (PCU.EV_CFG.FILTER c)⟩
    (s.wr d (PCU.EV_COUNT.COUNT c) 0).modDie d (fun x => { x with evs := tput x.evs c e })) s
  s.modWin d (fun w => { w with startFt := n.startFt, startAt := s.now, step := n.step, cleared := n.cleared, config := n.config,
                                evNext := [], restarted := cfgs.foldl (fun m c => m + 2 ^ c) 0 })

/-- A window is partial: it is cut short, or it did not begin at a boundary. -/
def State.winPartial (s : State) (d : Die) : Bool := (s.win d).startFt % s.windowNs d != 0

/-- End the window in progress: latch every counter for the view page, queue its record, and begin the next. -/
def State.endWindow (s : State) (d : Die) (early : Bool) (n : NextWin) : State :=
  let w := s.win d
  let number := w.startFt / s.windowNs d
  let dur := s.now - w.startAt
  let seq := (w.seq + 1) % 2 ^ 32
  let flags := b2n (early || s.winPartial d) + 2 * b2n w.step + 4 * b2n w.cleared + 8 * b2n w.config +
    32 * b2n (!s.on d PCU.FT_STATUS.LOCKED) + 64 * s.rd d PCU.FT_STATUS.HOLDOVER
  let every := max 1 (s.rd d PCU.PCU_CFG.POLDER_EVERY)
  let g := s.rd d PCU.PCU_CFG.GROUPS
  let groups := if number % every = 0 then g else g % 8
  let lostFlag := 16 * b2n (0 < w.lostSince)
  let counts := (s.pcEntries d).flatMap (fun e => (List.range 6).map (fun m => (6 * e.1 + m, s.rd d (PCU.PC_CTR.COUNT e.1 m))))
  let s := s.wr d PCU.DUMP_STATUS.SEQ seq
  let s := (s.modWin d (fun w => { w with seq := seq })).dump d seq dur number flags groups
  let s := s.modWin d (fun x => { x with vSeq := seq, vStart := w.startFt, vDur := dur, vFlags := flags + lostFlag,
                                         vCounts := counts.foldl (fun t p => nput t p.1 p.2) [] })
  s.beginWindow d n

/-- The boundary at which the window in progress ends. -/
def State.winBoundary (s : State) (d : Die) : Nat := ((s.win d).startFt / s.windowNs d + 1) * s.windowNs d

/-- The full window of a boundary that has come ends. -/
def State.windowDue (s : State) (d : Die) : State :=
  if s.winBoundary d ≤ s.ftNow d then s.endWindow d false ⟨s.winBoundary d, false, false, false⟩ else s

/-- WINDOW_END (R549). -/
def execWindowEnd (d : Die) (s : State) : Host.Outcome State Fault Refusal :=
  .next (if s.pcuOn d then s.windowDue d else s)

/-- An event ends the window in progress (R550). A window that begins at this instant takes its flag and ends no earlier; while the
block is disabled there is no window, and the first one takes the flag. -/
def State.cutWindow (s : State) (d : Die) (f : Window_ → Window_) (n : NextWin) : State :=
  if !s.pcuOn d then s.modWin d f
  else
    let s := s.windowDue d
    if (s.win d).startAt = s.now then s.modWin d f else s.endWindow d true n

/-- CTRL.ENABLE is set: windows begin, with the flag CONFIG (R550). -/
def State.pcuStart (s : State) (d : Die) : State :=
  s.beginWindow d ⟨s.ftNow d, (s.win d).step, (s.win d).cleared, true⟩

/-! ## COUNT_CLEAR (R550, R561) -/

/-- Clear every stored field of a die whose offset satisfies `p`. -/
def State.clearRegs (s : State) (d : Die) (p : Nat → Bool) : State :=
  { s with regs := s.regs.filter (fun r => !(decide (d.base ≤ r.1 / 64 ∧ r.1 / 64 < d.base + 0x4000000) && p (r.1 / 64 - d.base))) }

/-- Offsets of the PCU's counters: pages 1 to 4, the polder counter area, and 0x088 to 0x090. -/
def pcuCounter (o : Nat) : Bool :=
  (decide (0x3804000 ≤ o ∧ o < 0x3804100) && o % 16 == 8) || decide (0x3808000 ≤ o ∧ o < 0x3808640) ||
  decide (0x380C008 ≤ o ∧ o < 0x380C040) || (decide (0x3900000 ≤ o ∧ o < 0x3C00000) && o % 0x40 != 0) ||
  decide (o = 0x3800088 ∨ o = 0x3800090)

/-- The counters are zeroed, and the window in progress ends at that moment. -/
def State.pcuClear (s : State) (d : Die) : State :=
  (s.cutWindow d (fun w => { w with cleared := true }) ⟨s.ftNow d, false, true, false⟩).clearRegs d pcuCounter

/-- PCU_COUNT_CLEAR (R550). -/
def execPcuCountClear (rq : Requester) (d : Die) (s : State) : Host.Outcome State Fault Refusal :=
  .next (s.asWarden rq d PCU.COUNT_CLEAR.CLEAR.off (fun s => s.pcuClear d))

/-! ## Fabric time (R556 to R559) -/

/-- A signed field. -/
def State.rdInt (s : State) (d : Die) (f : Fld) : Int :=
  let v := s.rd d f
  if v < 2 ^ (f.w - 1) then v else (v : Int) - 2 ^ f.w

def State.wrInt (s : State) (d : Die) (f : Fld) (x : Int) : State := s.wr d f (x % 2 ^ f.w).toNat

/-- The port over which a die disciplines its time: the upstream port, or the alternate while the upstream is not live; none for
a port of the other die. -/
def State.syncPort (s : State) (d : Die) : Option Nat :=
  let up := fun (v : Bool) (np : Nat) => v && decide (np < 2 * s.portsPerDie) && s.portLive (s.portOf np).1 (s.portOf np).2
  let a := s.rd d PCU.FT_CFG.UPSTREAM_NP
  let b := s.rd d PCU.FT_CFG.ALT_NP
  if up (s.on d PCU.FT_CFG.UPSTREAM_VALID) a then some a else if up (s.on d PCU.FT_CFG.ALT_VALID) b then some b else none

/-- The die whose count leads: the one that holds the current upstream port (R556). -/
def State.ftLeader (s : State) : Die :=
  match s.syncPort .b with
  | some np => if s.rd .b PCU.FT_CFG.ROLE = 2 && (s.portOf np).1 == .b then .b else .a
  | none => .a

/-- Fabric time advances by one island clock: 1 ns, and adj parts in 10^9 more or less (R558). The other die follows. -/
def State.ftTick (s : State) : State :=
  let d := s.ftLeader
  let t := (s.die d).ft
  let frac := t.frac + s.rdInt d PCU.FT_RATE.ADJ_PPB
  let (ns, frac) := if 1000000000 ≤ frac then (t.ns + 2, frac - 1000000000) else if frac ≤ -1000000000 then (t.ns, frac + 1000000000)
    else (t.ns + 1, frac)
  let s := s.modFt d (fun t => { t with ns := ns % 2 ^ 64, frac := frac })
  s.modFt d.other (fun t => { t with ns := ns % 2 ^ 64 })

/-- Fabric time steps to a value on both dies: the windows in progress end (R550). -/
def State.ftStep (s : State) (d : Die) (ns : Nat) : State :=
  let ns := ns % 2 ^ 64
  let s := s.bump d PCU.FT_STEPS.COUNT
  let s := [Die.a, Die.b].foldl (fun s e => s.cutWindow e (fun w => { w with step := true, startFt := ns }) ⟨ns, true, false, false⟩) s
  [Die.a, Die.b].foldl (fun s e => s.modFt e (fun t => { t with ns := ns, frac := 0 })) s

/-- Write FT_SET: on the MASTER only. -/
def State.ftSet (s : State) (d : Die) (v : Nat) : State :=
  if s.rd d PCU.FT_CFG.ROLE = 1 then (s.wr d PCU.FT_SET.TIME v).ftStep d v else s

/-- FT_SET (R558). -/
def execFtSet (rq : Requester) (d : Die) (v : W64) (s : State) : Host.Outcome State Fault Refusal :=
  .next (s.asWarden rq d PCU.FT_SET.TIME.off (fun s => s.ftSet d v.toNat))

/-- The data unit of a fabric-time message. -/
def syncUnit (sub steps st exch t1 t2 : Nat) : List Byte :=
  leBytes 1 5 ++ leBytes 1 sub ++ leBytes 1 steps ++ leBytes 1 st ++ leBytes 4 exch ++ leBytes 8 t1 ++ leBytes 8 t2 ++ leBytes 8 0 ++
    List.replicate 32 0

/-- Send a fabric-time message out of a port of a die; the LLU writes its transmit time (R557). -/
def State.sendSync (s : State) (d : Die) (i : Nat) (unit : List Byte) : State :=
  let fea := s.rd d (LLU.PARTNER.FEA i) / 64 * 64 + (if s.landsOn (s.npOf d i) = 2 then 2 else 0)
  s.sendCtl d { mkPkt cMGT_MSG vMGT false fea 0 0 unit with
    src := s.myFea d (2 * d.num), outXp := xpOf (s.portKey i 0), bridgeClass := 1, transit := true }

/-- Both dies keep the state of the device's discipline, whichever of them holds the upstream port (R556; log entry 98). -/
def State.wrsBoth (s : State) (l : List (Fld × Nat)) : State := (s.wrs .a l).wrs .b l
def State.modFtBoth (s : State) (f : FTime → FTime) : State := (s.modFt .a f).modFt .b f
def State.setRate (s : State) (adj : Int) : State := (s.wrInt .a PCU.FT_RATE.ADJ_PPB adj).wrInt .b PCU.FT_RATE.ADJ_PPB adj

def State.syncNs (s : State) (d : Die) : Nat := us (min 10000 (max 10 (s.rd d PCU.FT_CFG.SYNC_INTERVAL_US)))

/-- SYNC_INTERVAL (R557, R559): a FOLLOWER sends SYNC_REQ on its upstream port, or is in HOLDOVER without a live one. -/
def execSyncInterval (d : Die) (s : State) : Host.Outcome State Fault Refusal :=
  .next (
    let t := (s.die d).ft
    if s.rd d PCU.FT_CFG.ROLE ≠ 2 ∨ s.now < t.nextAt then s
    else match s.syncPort d with
      | none =>
        let s := s.modFt d (fun t => { t with nextAt := s.now + s.syncNs d })
        if (s.syncPort d.other).isNone then s.wrsBoth [(PCU.FT_STATUS.HOLDOVER, 1)] else s
      | some np =>
        let (e, i) := s.portOf np
        if e ≠ d then s
        else
          let n := (t.exch + 1) % 2 ^ 32
          let s := s.modFt d (fun t => { t with exch := n, waiting := t.waiting ++ [(n, s.now)], nextAt := s.now + s.syncNs d })
          s.sendSync d i (syncUnit 1 0 0 n 0 0))

/-- The oldest fabric-time message of a subtype that a die has received, and its arrival. -/
def State.syncMsg (s : State) (d : Die) (sub : Nat) : Option (Pkt × Nat) :=
  (s.die d).syncIn.find? (fun p => leNat ((p.1.data.drop 1).take 1) == sub)

/-- A number of a packet's first data unit. -/
def unitNat (p : Pkt) (off n : Nat) : Nat := leNat ((p.data.drop off).take n)

/-- The live port whose partner is a router: its own die's first. -/
def State.portToward (s : State) (d : Die) (fea : Nat) : Option (Die × Nat) :=
  let all := [d, d.other].flatMap (fun e => (List.range s.portsPerDie).map (fun i => (e, i)))
  all.find? (fun p => s.portLive p.1 p.2 && s.rd p.1 (LLU.PARTNER.FEA p.2) / 64 == fea / 64)

/-- SYNC_REQ (R557): answered with SYNC_RSP, whatever the role. -/
def execSyncReq (d : Die) (s : State) : Host.Outcome State Fault Refusal :=
  .next (match s.syncMsg d 1 with
    | none => s
    | some (p, t2) =>
      let s := s.modDie d (fun x => { x with syncIn := x.syncIn.erase (p, t2) })
      let role := s.rd d PCU.FT_CFG.ROLE
      let steps := if role = 1 then 0 else if s.on d PCU.FT_STATUS.UNSYNCED then 15 else s.rd d PCU.FT_STATUS.STEPS_REMOVED
      let st := s.rd d PCU.FT_STATUS.LOCKED + 2 * s.rd d PCU.FT_STATUS.HOLDOVER
      match s.portToward d p.src with
      | none => s
      | some (e, i) => s.sendSync e i (syncUnit 2 steps st (unitNat p 4 4) (unitNat p 8 8) t2))

/-- Offset and delay of an exchange (R558). -/
def syncOffset (t1 t2 t3 t4 : Nat) : Int := (((t2 : Int) - t1) - ((t4 : Int) - t3)) / 2
def syncDelay (t1 t2 t3 t4 : Nat) : Int := (((t4 : Int) - t1) - ((t3 : Int) - t2)) / 2

/-- The follower's new rate, in parts per 10^9 (R558). -/
def syncAdj (adj o sum : Int) (interval : Nat) : Int :=
  max (-200000) (min 200000 (adj - o * 1000 / (8 * (interval : Int)) - sum / 64))

/-- Discipline the device's time with the offset of an exchange of a die (R558, R559). -/
def State.syncApply (s : State) (d : Die) (o dl : Int) (steps : Nat) : State :=
  let th := max 100 (s.rd d PCU.FT_CFG.STEP_THRESHOLD_NS)
  let t := (s.die d).ft
  let s := if s.on d PCU.FT_STATUS.UNSYNCED ∨ th < o.natAbs then (s.ftStep d ((((t.ns : Int) - o) % 2 ^ 64).toNat)).setRate 0
    else
      (s.setRate (syncAdj (s.rdInt d PCU.FT_RATE.ADJ_PPB) o t.sum (s.syncNs d / 1000))).modFtBoth (fun x => { x with sum := t.sum + o })
  let good := if o.natAbs ≤ 50 then t.good + 1 else 0
  (s.modFtBoth (fun x => { x with good := good })).wrsBoth
    [(PCU.FT_STATUS.OFFSET_NS, (o % 2 ^ 32).toNat), (PCU.FT_RATE.DELAY_NS, (dl % 2 ^ 32).toNat), (PCU.FT_STATUS.UNSYNCED, 0),
     (PCU.FT_STATUS.HOLDOVER, 0), (PCU.FT_STATUS.STEPS_REMOVED, steps + 1), (PCU.FT_STATUS.LOCKED, if 16 ≤ good then 1 else 0)]

/-- SYNC_RSP (R558): one whose EXCHANGE matches and whose STEPS_REMOVED is below 15. -/
def execSyncRsp (d : Die) (s : State) : Host.Outcome State Fault Refusal :=
  .next (match s.syncMsg d 2 with
    | none => s
    | some (p, t4) =>
      let s := s.modDie d (fun x => { x with syncIn := x.syncIn.erase (p, t4) })
      let steps := unitNat p 2 1
      match (s.die d).ft.waiting.find? (fun x => x.1 == unitNat p 4 4) with
      | some x =>
        if s.rd d PCU.FT_CFG.ROLE ≠ 2 then s
        else
          let s := s.modFt d (fun t => { t with waiting := t.waiting.erase x })
          if 15 ≤ steps then s
          else
            let (t1, t2, t3) := (unitNat p 8 8, unitNat p 16 8, unitNat p 24 8)
            (s.bump d PCU.FT_EXCHANGES.COUNT).syncApply d (syncOffset t1 t2 t3 t4) (syncDelay t1 t2 t3 t4) steps
      | none => s)

/-- Exchanges of a die whose answer is 100 µs late (R558). -/
def State.syncLate (s : State) (d : Die) : List (Nat × Nat) := (s.die d).ft.waiting.filter (fun x => x.2 + us 100 ≤ s.now)

/-- SYNC_RSP_TIMEOUT (R558): answers that did not arrive within 100 µs are counted. -/
def execSyncRspTimeout (d : Die) (s : State) : Host.Outcome State Fault Refusal :=
  .next (((s.syncLate d).foldl (fun s _ => s.bump d PCU.FT_EXCHANGES.LOST) s).modFt d
    (fun t => { t with waiting := t.waiting.filter (fun x => decide (s.now < x.2 + us 100)) }))

end Sys2Proof.Machine
end

