-- ==== Sys2Proof/Machine/Images.lean ====
section
/-! DEFINITION. Structure images and the image store's records (02_structure_image.md): the binary format, authentication, the
parameters and their rules, the journal and the boot selection. -/

namespace Sys2Proof.Machine

/-! ## Bytes -/

def cut (b : List Byte) (off n : Nat) : List Byte := (b.drop off).take n
def le (b : List Byte) (off n : Nat) : Nat := leNat (cut b off n)
def zeroBytes (b : List Byte) (off n : Nat) : Bool := (cut b off n).all (· == 0)

/-! ## Detail codes (R68) -/

def imSIG : Nat := 0x01
def imDIGEST : Nat := 0x02
def imFORMAT : Nat := 0x03
def imPARAM : Nat := 0x04
def imNOT_QUIESCED : Nat := 0x05
def imUNIT : Nat := 0x06
def imTOO_LARGE : Nat := 0x07
def imEPOCH : Nat := 0x08
def imSCOPE : Nat := 0x09
def imVERIFY : Nat := 0x0A
def imVERSION : Nat := 0x0B
def imKEY_RULE : Nat := 0x0C
def imCOMMAND : Nat := 0x0D
def imSTALE : Nat := 0x0E

/-- Largest image (R38). -/
def maxImage : Nat := 25161728

/-! ## Header and section table (R39 to R41) -/

/-- A section-table entry. -/
structure Section where
  type : Nat
  flags : Nat
  ident : Nat
  offset : Nat
  length : Nat
  digest : BitVec 384
  deriving DecidableEq, Repr

def sectionAt (b : List Byte) (i : Nat) : Section :=
  let o := 256 + 64 * i
  { type := le b o 2, flags := le b (o + 2) 2, ident := le b (o + 4) 4, offset := le b (o + 8) 4, length := le b (o + 12) 4,
    digest := BitVec.ofNat 384 (beNat (cut b (o + 16) 48)) }

def imageLen (b : List Byte) : Nat := le b 8 4
def sectionCount (b : List Byte) : Nat := le b 14 2
def sections (b : List Byte) : List Section := (List.range (sectionCount b)).map (sectionAt b)
def sectionBytes (b : List Byte) (x : Section) : List Byte := cut b x.offset x.length

/-- The header keeps R39; its size is checked apart. -/
def headerOk (b : List Byte) : Bool :=
  le b 0 4 == 0x58465654 && le b 4 2 == 1 && le b 6 2 == 256 && le b 12 1 / 16 == 0 && le b 13 1 / 8 == 0 &&
  decide (3 ≤ sectionCount b ∧ sectionCount b ≤ 64) && zeroBytes b 18 2 && le b 20 4 == 256 && zeroBytes b 64 192

/-- A section-table entry keeps R38, R40 and R41 by itself. The table of R41 calls NOTES optional; that its OPTIONAL flag may yet be
clear, as that of any known section, is the model's choice (log entry 164). -/
def sectionOk (b : List Byte) (x : Section) : Bool :=
  x.offset % 64 == 0 && decide (256 + 64 * sectionCount b ≤ x.offset) && decide (x.offset + x.length + 128 ≤ imageLen b) &&
  (match x.type with
   | 1 => x.flags / 2 == 0 && x.length % 8 == 0
   | 2 => x.flags / 4 == 0 && decide (128 ≤ x.length)
   | 3 => x.flags / 2 == 0 && (le b 12 1 != 1 || x.length == 0)
   | 4 => x.flags / 2 == 0
   | _ => x.flags == 1)

/-- Two sections do not overlap. -/
def apart (x y : Section) : Bool := decide (x.offset + x.length ≤ y.offset) || decide (y.offset + y.length ≤ x.offset)

def allApart : List Section → Bool
  | [] => true
  | x :: l => l.all (apart x) && allApart l

def countType (b : List Byte) (t : Nat) : Nat := ((sections b).filter (fun x => x.type == t)).length

/-- Step 1 of R43: the detail code, 0 when the format is right. -/
def formatCheck (b : List Byte) : Nat :=
  if maxImage < b.length then imTOO_LARGE
  else if b.length < 256 ∨ !headerOk b then imFORMAT
  else if maxImage < imageLen b then imTOO_LARGE
  else if b.length < imageLen b ∨ imageLen b < 256 + 64 * sectionCount b + 128 then imFORMAT
  else if (sections b).all (sectionOk b) && allApart (sections b) && countType b 1 == 1 && decide (1 ≤ countType b 2 ∧ countType b 2 ≤ 16) &&
      countType b 3 == 1 && decide (countType b 4 ≤ 1) then 0
  else imFORMAT

/-! ## Signatures (R42, R43, R44) -/

/-- KEY_ID of a key. -/
def keyId (k : OwnerKey) : List Byte :=
  let point := BitVec.ofNat 8 4 :: ((leBytes 48 k.x.toNat).reverse ++ (leBytes 48 k.y.toNat).reverse)
  ((leBytes 48 (sha384 point).toNat).reverse).take 16

/-- A signature block over a message, under a key. -/
def signedBy (k : OwnerKey) (block msg : List Byte) : Bool :=
  ecdsaVerify k.x.toNat k.y.toNat (sha384 msg) (beNat (cut block 16 48)) (beNat (cut block 64 48))

def Store.owners (st : Store) : List OwnerKey := st.keys.filterMap id

/-- The enrolled key that a signature block names. -/
def Store.named (st : Store) (block : List Byte) : Option OwnerKey := st.owners.find? (fun k => keyId k == block.take 16)

/-- The image's signature (R43, step 2). -/
def State.imageSigned (s : State) (b : List Byte) : Bool :=
  let block := cut b (imageLen b - 128) 128
  let msg := cut b 0 (256 + 64 * sectionCount b)
  if s.store.owners.isEmpty then signedBy s.rootKey block msg
  else match s.store.named block with
    | some k => signedBy k block msg
    | none => false

/-- The signature of an ENGINE_CODE section, which ends it (R41; R43, step 7). -/
def State.engineSigned (s : State) (c : List Byte) : Bool := signedBy s.rootKey (c.drop (c.length - 128)) (c.take (c.length - 128))

/-! ## Parameters (R36) -/

def tri (v : Nat) : Option Tri := if v = 0 then some .on else if v = 1 then some .off else if v = 2 then some .auto else none

/-- What a record gives: by its place in the tables of R36, its index, and its value, an enumerated value by its place in its row
(log entry 3). A port's number is in range below 128, whatever LANE_GROUPING; the record of a port that the grouping does not have says
nothing, which is the model's choice (log entry 165). -/
def paramOf (place index v : Nat) : ParamRec :=
  let np := fun (r : ParamRec) => if index < 128 then r else .unknown
  match place with
  | 0 => if v = 1 ∨ v = 2 ∨ v = 4 then .laneGrouping v else .unknown
  | 1 => np (if v = 0 then .portRole index .local_ else if v = 1 then .portRole index .global else if v = 2 then .portRole index .spare
             else if v = 3 then .portRole index .unused else .unknown)
  | 2 => np (if [448, 224, 112, 56].contains v then .laneRate index v else .unknown)
  | 3 => np (if v < 2 then .laneReach index (v == 1) else .unknown)
  | 4 => np (if v ≤ 150 then .cableM index v else .unknown)
  | 5 => np (if 32 ≤ v ∧ v ≤ 256 ∧ v % 32 = 0 then .replayKib index v else .unknown)
  | 6 => if 1 ≤ v ∧ v ≤ 1025 then .fabricGroups v else .unknown
  | 7 => if v < 2 then .reliabilityMode (v == 0) else .unknown
  | 8 => if v < 2 then .colNetwork (v == 0) else .unknown
  | 9 => if 1 ≤ v ∧ v ≤ 15 then .protocolVersion v else .unknown
  | 10 => if v < 65536 then .securityEpoch v else .unknown
  | 11 => if 1 ≤ v ∧ v ≤ 7 then .variants v else .unknown
  | 12 => .deviceScope v
  | 13 => if index < 96 ∧ 4 ≤ v ∧ v ≤ 256 then .vcMinUnits (index / 24) (index / 6 % 4) (index % 6) v else .unknown
  | 14 => if index < 4 ∧ v ≤ 100 then .basinShare index v else .unknown
  | 15 => if 4 ≤ v ∧ v ≤ 24 then .ctxBanks v else .unknown
  | 16 => if 4 ≤ v ∧ v ≤ 24 then .binBanks v else .unknown
  | 17 => if 4 ≤ v ∧ v ≤ 24 then .tlbBanks v else .unknown
  | 18 => if v ≤ 4096 ∧ v % 256 = 0 then .polderEntriesA v else .unknown
  | 19 => match tri v with | some t => .qduEnable t | none => .unknown
  | 20 => match tri v with | some t => .hagEnable t | none => .unknown
  | 21 => if v < 65536 then .engineClusters v else .unknown
  | 22 => if index < 16 then .engineCode index v else .unknown
  | 23 => if index < 8 ∧ v < 1024 then .wardens index (v / 256) (v % 256) else if index = 8 then .noWardens else .unknown
  | 24 => if v < 64 then .powerOff v else .unknown
  | _ => .unknown

def params0 : Params :=
  { grouping := 2, roles := [], rates := [], reaches := [], cables := [], replays := [], groups := 1025, lossless := false, colOn := true,
    version := 1, epoch := 0, variants := 7, scope := 0, vcMins := [], basin := [], ctxBanks := 16, binBanks := 8, tlbBanks := 8,
    polderA := 2048, qdu := .auto, hag := .auto, clusters := none, code := [], wardens := none, powerOff := [], bad := false }

/-- Take a record in; of two records of one parameter the later counts. -/
def Params.take (p : Params) : ParamRec → Params
  | .laneGrouping n => { p with grouping := n }
  | .portRole n r => { p with roles := tput p.roles n r }
  | .laneRate n g => { p with rates := tput p.rates n g }
  | .laneReach n l => { p with reaches := tput p.reaches n l }
  | .cableM n m => { p with cables := tput p.cables n m }
  | .replayKib n k => { p with replays := tput p.replays n k }
  | .fabricGroups n => { p with groups := n }
  | .reliabilityMode l => { p with lossless := l }
  | .colNetwork c => { p with colOn := c }
  | .protocolVersion v => { p with version := v }
  | .securityEpoch e => { p with epoch := e }
  | .variants m => { p with variants := m }
  | .deviceScope x => { p with scope := x }
  | .vcMinUnits t n c u => { p with vcMins := tput p.vcMins (24 * t + 6 * n + c) u }
  | .basinShare n x => { p with basin := tput p.basin n x }
  | .ctxBanks n => { p with ctxBanks := n }
  | .binBanks n => { p with binBanks := n }
  | .tlbBanks n => { p with tlbBanks := n }
  | .polderEntriesA n => { p with polderA := n }
  | .qduEnable t => { p with qdu := t }
  | .hagEnable t => { p with hag := t }
  | .engineClusters m => { p with clusters := some m }
  | .engineCode c i => { p with code := tput p.code c i }
  | .wardens i h f => { p with wardens := some (tput (p.wardens.getD []) i (h * 256 + f)) }
  | .noWardens => { p with wardens := some (p.wardens.getD []) }
  | .powerOff x => { p with powerOff := setInsert p.powerOff x }
  | .unknown => { p with bad := true }

/-- The records of a PARAMETERS section. -/
def recordsOf : Nat → List Byte → List ParamRec
  | 0, _ => []
  | n + 1, b =>
    let (place, index, v) := Config.paramNumber (BitVec.ofNat 64 (le b 0 8))
    paramOf place index v :: recordsOf n (b.drop 8)

/-- The parameters of an image. -/
def imageParams (b : List Byte) : Params :=
  match (sections b).find? (fun x => x.type == 1) with
  | some x => (recordsOf (x.length / 8) (sectionBytes b x)).foldl Params.take params0
  | none => params0

/-! ## The rules of R37 and R606 -/

/-- Ports of a die in a grouping, by number. -/
def diePorts (p : Params) (d : Die) : List Nat := (List.range (64 / p.grouping)).map (fun i => d.num * (64 / p.grouping) + i)

/-- VC_MIN_UNITS of a VC of a port type: its default is 32. -/
def vcMinOf (p : Params) (t n c : Nat) : Nat := (tget p.vcMins (24 * t + 6 * n + c)).getD 32

/-- VCs of a port type in each virtual network (13_switch_core.md R417). -/
def vcsOf (t : Nat) : Nat := if t = 0 then 3 else if t = 1 then 2 else if t = 2 then 1 else 6

/-- Virtual networks present. -/
def networks (p : Params) : List Nat := if p.colOn then [0, 1, 2, 3] else [0, 1, 3]

/-- VC minimums of one port of a type. -/
def portMins (p : Params) (t : Nat) : Nat :=
  ((networks p).map (fun n => ((List.range (vcsOf t)).map (fun c => vcMinOf p t n c)).sum)).sum

/-- Port type of a network port: 0 local or spare, 1 global. -/
def typeOf (r : PortRole) : Nat := if r = .global then 1 else 0

/-- Sum of the VC minimums of a die (13_switch_core.md R422). -/
def dieMins (p : Params) (d : Die) : Nat :=
  ((diePorts p d).map (fun n => if roleOf p n = .unused then 0 else portMins p (typeOf (roleOf p n)))).sum + 8 * portMins p 2 + 8 * portMins p 3

/-- The ports of a quad that have a role. -/
def quadPorts (p : Params) (k : Nat) : List Nat :=
  ((List.range (4 / p.grouping)).map (fun i => k * (4 / p.grouping) + i)).filter (fun n => roleOf p n != .unused)

/-- A quad's ports with a role agree in rate and reach. -/
def quadOk (p : Params) (k : Nat) : Bool :=
  match quadPorts p k with
  | [] => true
  | n :: l => l.all (fun m => rateOf p m == rateOf p n && reachOf p m == reachOf p n)

/-- Whether a unit that ON, OFF or AUTO governs is enabled on a die. -/
def triOn (t : Tri) (present : Bool) : Bool := match t with | .on => present | .off => false | .auto => present

/-- Clusters that the parameters bring up. -/
def State.clustersOf (s : State) (p : Params) : Nat := p.clusters.getD (s.present % 65536)

/-- A switched domain, as 32 times the die's number plus its own, is needed (R606). -/
def State.domNeeded (s : State) (p : Params) (x : Nat) : Bool :=
  let d := if x < 32 then Die.a else Die.b
  let i := x % 32
  if i < 16 then !(quadPorts p (16 * d.num + i)).isEmpty
  else if i < 24 then bitOf (s.clustersOf p) (8 * d.num + (i - 16))
  else if i < 26 then s.hpPresent (2 * d.num + (i - 24))
  else if i = 27 then triOn p.qdu (s.qduPresent d)
  else if i = 29 then triOn p.hag (s.hagPresent d)
  else true

/-- The wardens of an image: PF 0 of HP0 unless they are given. -/
def wardensOf (p : Params) : List Fn :=
  (match p.wardens with | some l => l.map (fun (w : Nat × Nat) => w.2) | none => [0]).map
    (fun n => ⟨⟨n / 256 % 4, Nat.mod_lt _ (by decide)⟩, ⟨n % 256, Nat.mod_lt _ (by decide)⟩⟩)

/-- The ENGINE_CODE section of a cluster: the one named, or the one marked default. -/
def codeOf (b : List Byte) (p : Params) (c : Nat) : Option Section :=
  (sections b).find? (fun x => x.type == 2 && (match tget p.code c with | some i => x.ident == i | none => bitOf x.flags 1))

/-- Step 8 of R43: the rules of R36 and R37. -/
def State.paramCheck (s : State) (b : List Byte) : Nat :=
  let p := imageParams b
  let share := fun (n : Nat) => basinShare p n
  if p.bad ∨ (p.lossless ∧ 16 < p.groups) ∨ p.ctxBanks + p.binBanks + p.tlbBanks ≠ 32 then imPARAM
  else if [Die.a, Die.b].any (fun d => decide (5120 < ((diePorts p d).map (replayKib p)).sum) || decide (65536 < dieMins p d)) then imPARAM
  else if share 3 = 0 ∨ (!p.colOn ∧ share 2 ≠ 0) then imPARAM
  else if !(List.range 32).all (quadOk p) ∨ p.powerOff.any (s.domNeeded p) then imPARAM
  else if (List.range 16).any (fun c => bitOf (s.clustersOf p) c && (codeOf b p c).isNone) then imPARAM
  else if (p.qdu = .on ∧ (!s.qduPresent .a ∨ !s.qduPresent .b)) ∨ (p.hag = .on ∧ (!s.hagPresent .a ∨ !s.hagPresent .b)) then imUNIT
  else if (List.range 16).any (fun c => bitOf (s.clustersOf p) c && !bitOf s.present c) then imUNIT
  else if (wardensOf p).any (fun f => !s.hpPresent f.hp.val) then imUNIT
  else 0

/-! ## Verification (R43) -/

/-- Bit of VARIANTS of a part. -/
def variantBit : Part → Nat
  | .f => 0
  | .c => 1
  | .e => 2

/-- Verify an image: the detail code of the first failure, or 0. -/
def State.verifyImage (s : State) (b : List Byte) : Nat :=
  if formatCheck b ≠ 0 then formatCheck b
  else if !s.imageSigned b then imSIG
  else if le b 16 2 < s.store.minEpoch then imEPOCH
  else if !bitOf (le b 13 1) (variantBit s.part) ∨ (le b 40 16 ≠ 0 ∧ le b 40 16 ≠ s.serial) then imSCOPE
  else if le b 12 1 ≠ 1 then imVERSION
  else if (sections b).any (fun x => sha384 (sectionBytes b x) != x.digest) then imDIGEST
  else if (sections b).any (fun x => x.type == 2 && !s.engineSigned (sectionBytes b x)) then imSIG
  else s.paramCheck b

/-- The structure that a verified image gives. -/
def State.structureOf (s : State) (b : List Byte) : Structure :=
  let p := imageParams b
  { params := { p with epoch := le b 16 2, version := le b 12 1 % 16 }, buildId := BitVec.ofNat 128 (le b 24 16), meas3 := sha384 (cut b 0 (256 + 64 * sectionCount b)),
    meas4 := sha384 (((sections b).filter (fun x => x.type == 2)).flatMap (fun x => (leBytes 48 x.digest.toNat).reverse)),
    clusters := s.clustersOf p, qduOn := p.qdu != .off, hagOn := p.hag != .off, wardens := wardensOf p }

/-! ## Slots, the journal and boot selection (R52, R53, R55, R57) -/

def Store.slot (st : Store) (k : Nat) : Slot := if k = 2 then st.slotB else st.slotA

/-- Bytes 0–59 of a slot header. -/
def slotHdrBytes (h : SlotHdr) : List Byte :=
  leBytes 4 h.magic.toNat ++ leBytes 4 h.length.toNat ++ (leBytes 48 h.digest.toNat).reverse ++ leBytes 4 h.writeCount.toNat

def slotHdrOk (h : SlotHdr) : Bool := crc32c (slotHdrBytes h) == h.crc && h.magic == 0x534C4F54

/-- Bytes 0–59 of a commit record. -/
def commitBytes (r : CommitRec) : List Byte :=
  leBytes 4 r.magic.toNat ++ leBytes 4 r.seq.toNat ++ [r.slot, 0, 0, 0] ++ (leBytes 48 r.digest.toNat).reverse

def commitOk (r : CommitRec) : Bool := r.magic == 0x4A524E4C && crc32c (commitBytes r) == r.crc && (r.slot == 1 || r.slot == 2)

/-- A commit record with its CRC. -/
def commitRec (seq slot : Nat) (digest : BitVec 384) : CommitRec :=
  let r : CommitRec := { magic := 0x4A524E4C, seq := BitVec.ofNat 32 seq, slot := BitVec.ofNat 8 slot, digest := digest, crc := 0 }
  { r with crc := crc32c (commitBytes r) }

/-- A slot header with its CRC. -/
def slotHdr (length : Nat) (digest : BitVec 384) (writes : Nat) : SlotHdr :=
  let h : SlotHdr := { magic := 0x534C4F54, length := BitVec.ofNat 32 length, digest := digest, writeCount := BitVec.ofNat 32 writes, crc := 0 }
  { h with crc := crc32c (slotHdrBytes h) }

/-- Valid records of a journal copy. -/
def validRecs (j : Tbl CommitRec) : List CommitRec := (j.map (·.2)).filter commitOk

/-- Insert by descending SEQ. -/
def recInsert (r : CommitRec) : List CommitRec → List CommitRec
  | [] => [r]
  | x :: l => if x.seq.toNat < r.seq.toNat then r :: x :: l else if x = r then x :: l else x :: recInsert r l

/-- The candidates of R57, in descending SEQ. -/
def Store.candidates (st : Store) : List CommitRec := (validRecs st.journal0 ++ validRecs st.journal1).foldr recInsert []

/-- Why a candidate fails, or 0. -/
def State.tryRec (s : State) (r : CommitRec) : Nat :=
  let x := s.store.slot r.slot.toNat
  if !slotHdrOk x.hdr then imFORMAT
  else if x.hdr.digest ≠ r.digest then imDIGEST
  else if sha384 (x.image.take x.hdr.length.toNat) ≠ x.hdr.digest then imDIGEST
  else s.verifyImage (x.image.take x.hdr.length.toNat)

/-- Boot selection (R57): the live record, and the code with which the last candidate tried failed (R58). -/
def State.selectFrom (s : State) : List CommitRec → Nat → Option CommitRec × Nat
  | [], e => (none, e)
  | r :: l, e => if s.tryRec r = 0 then (some r, e) else s.selectFrom l (s.tryRec r)

def State.bootSelect (s : State) : Option CommitRec × Nat := s.selectFrom s.store.candidates 0

/-- JOURNAL_HEAD (R67). -/
def State.showHead (s : State) : State :=
  match s.store.candidates with
  | r :: _ => s.wrs .a [(IMS.JOURNAL_HEAD.SEQ, r.seq.toNat), (IMS.JOURNAL_HEAD.SLOT, r.slot.toNat)]
  | [] => s.wrs .a [(IMS.JOURNAL_HEAD.SEQ, 0), (IMS.JOURNAL_HEAD.SLOT, 0)]

/-- The store's registers (R67). -/
def State.showStore (s : State) : State :=
  (s.wrs .a [(IMS.BOOT_POLICY.POLICY, s.store.policy), (IMS.ENDURANCE.COMMITS, min (2 ^ 32 - 1) s.store.commits),
    (IMS.KEY_STATUS.ENROLLED, s.store.keys.foldr (fun k m => 2 * m + b2n k.isSome) 0),
    (IMS.KEY_STATUS.MIN_SECURITY_EPOCH, s.store.minEpoch)]).showHead

/-- The journal repair of R57: a selected record that is valid in one copy only is written into the other. -/
def State.repairJournal (s : State) (r : CommitRec) : State :=
  let k := r.seq.toNat % 64
  { s with store := { s.store with journal0 := tput s.store.journal0 k r, journal1 := tput s.store.journal1 k r } }

end Sys2Proof.Machine
end

