-- ==== Sys2Proof/Machine/Structure.lean ====
section
/-! DEFINITION. Putting a structure in force (02_structure_image.md R46 to R49): the state after APPLY or a reset, the programming of
buffers, caches, ports, domains and wardens, and the quiesce. -/

namespace Sys2Proof.Machine

/-! ## What APPLY and a reset discard (R48; 06_work_queues.md R181; 10_transport.md R301) -/

/-- A die's tables, emptied. The bridge, fabric time, the counter windows, the domains' and the keys' state stay. -/
def DieState.discard (x : DieState) : DieState :=
  { DieState.reset with
    bridge := { x.bridge with owed := [] }, ft := x.ft, win := x.win, evs := x.evs, noc := x.noc, doms := x.doms, idleIsl := x.idleIsl,
    syncIn := x.syncIn, sweepAt := x.sweepAt, nextMember := x.nextMember,
    rtb := { x.rtb with flows := [], winBytes := [], stale := [] },
    xlu := { Xlu.reset with nextWalk := x.xlu.nextWalk, next0 := x.xlu.next0, next1 := x.xlu.next1, next2 := x.xlu.next2 } }

/-- Offsets of the polder table's registers in the sluice and of the function bindings (13_switch_core.md R446; 04_polders.md R121). -/
def bindingRegs (o : Nat) : Bool := decide (0x210000 ≤ o ∧ o < 0x211000)
def entryRegs (o : Nat) : Bool := decide (0x2100000 ≤ o ∧ o < 0x2200000)

/-- The objects of every function, the tables of both dies, the bindings and the route tables' validity are gone. -/
def State.discard (s : State) : State :=
  let s := { s with queues := [], rings := [], ctrs := [], ops := [], reads := [],
                    dies := ⟨s.dies.a.discard, s.dies.b.discard⟩ }
  let one := fun (s : State) (d : Die) =>
    let s := (s.clearRegs d bindingRegs).clearRegs d entryRegs
    (s.wrs d [(RTB.EPOCH.STATE0, 0), (RTB.EPOCH.STATE1, 0), (QDU.QDU_STATUS.SERVING_OTHER, 0), (TMU.CHAIN_P99.OVER, 0)])
  one (one s .a) .b

/-! ## Switch core and caches (R36, R422, R423) -/

/-- VC minimums of the image: 0 for a VC that does not exist. -/
def State.writeMins (s : State) (d : Die) (p : Params) : State :=
  (List.range 96).foldl (fun s k =>
    let t := k / 24
    let n := k / 6 % 4
    s.wr d (SWC.VC_MIN.UNITS k) (if (networks p).contains n ∧ k % 6 < vcsOf t then vcMinOf p t n (k % 6) else 0)) s

/-- The credits that the sluice holds for the internal ports, and the other die for the bridge ports. -/
def State.startCredits (s : State) (d : Die) (p : Params) : State :=
  let int := (List.range 8).map ipKey
  let br := (List.range 8).map bpKey
  s.modSwc d (fun x =>
    let x := (networks p).foldl (fun x n =>
      let x := int.foldl (fun (x : Swc) k => { x with ded := nput x.ded ((128 + k) * 32 + n * 8) (vcMinOf p 2 n 0) }) x
      br.foldl (fun x k => (List.range 6).foldl (fun (x : Swc) c => { x with ded := nput x.ded (vcKey k n c) (vcMinOf p 3 n c) }) x) x) x
    { x with shr := br.foldl (fun t k => nput t k 1024) (int.foldl (fun t k => nput t (128 + k) 512) x.shr),
             resv := br.foldl (fun t k => nput t k 1024) (int.foldl (fun t k => nput t k 512) x.resv),
             reserved := 8 * 512 + 8 * 1024 })

/-- Banks of the structure cache in service of those that a class holds, `lo` being its first (16_faults.md R509; log entry 26). -/
def State.banksIn (s : State) (d : Die) (lo n : Nat) : Nat :=
  ((List.range n).filter (fun k => !s.retired 6 d (lo + k))).length

/-- A die's shared resources. -/
def State.writeDie (s : State) (d : Die) (p : Params) : State :=
  let grp := if p.grouping = 1 then 0 else if p.grouping = 2 then 1 else 2
  let s := s.wrs d [(SWC.SWC_CFG.MODE, b2n (!p.lossless)), (SWC.SWC_CFG.COL_NETWORK, b2n p.colOn), (SWC.SWC_CFG.GROUPING, grp),
    (SWC.BASIN.CAPACITY, 655360 - 10240 * ((s.banksLost d).filter (· == 0)).length), (SWC.MIN_STORE.TOTAL, dieMins p d),
    (DIKE.PT_CAPACITY.ENTRIES, match d with | .a => p.polderA | .b => 4096 - p.polderA),
    (TRU.CTX_CACHE.ENTRIES, 2048 * s.banksIn d 0 p.ctxBanks), (TMU.BINS.COUNT, 4096 * s.banksIn d p.ctxBanks p.binBanks),
    (XLU.TLB_CAP.ENTRIES, 2048 * s.banksIn d (p.ctxBanks + p.binBanks) p.tlbBanks), (TRU.TRU_CFG.MODE, b2n (!p.lossless)),
    (RTB.HOLD_LIMIT.US, if p.lossless then 1600 else 8000)]
  let s := ((s.basinCeilings d p).writeMins d p).startCredits d p
  let s := (List.range 8).foldl (fun s k => (s.wr d (SWC.PORT_STATE.SHARED_ALLOW (32 + k)) 512).wr d (SWC.PORT_STATE.SHARED_ALLOW (40 + k)) 1024) s
  s.draw (fun k s => s.modTmu d (fun t => { t with key0 := k % 2 ^ 128 }))

/-! ## Ports and lanes (R36; 14_link_layer.md R475; 15_lanes.md R498) -/

/-- The registers that the image gives a port, and its link layer as it is before its first training. -/
def State.writePort (s : State) (d : Die) (p : Params) (i : Nat) : State :=
  let np := d.num * (64 / p.grouping) + i
  let used := roleOf p np != .unused
  let s := s.wrs d [(LLU.REPLAY.CAPACITY i, 4 * replayKib p np), (LLU.LINK_TIMERS.REPLAY_TIMEOUT_NS i, 10 * cableOf p np + 1500),
    (HDR.CTRL.ENABLE (lluBase i), b2n used), (HDR.STATUS.ENABLED (lluBase i), b2n used),
    (LLU.LINK_STATE.STATE i, if s.retired 2 d np then lsRETIRED else lsDISABLED), (LLU.LINK_STATE.FAIL_REASON i, 0),
    (LLU.LINK_STATE.VERSION i, 0), (LLU.LINK_STATE.LANES_ACTIVE i, 0), (LLU.LINK_STATE.RATE i, 0), (LLU.LINK_STATE.RESUMED i, 0),
    (LLU.CHANGE_STATUS.BUSY i, 0)]
  let s := (List.range 14).foldl (fun s c => s.wr d (LLU.CREDIT.TOTAL_RETURNED i c) 0) s
  (s.portKeys i).foldl (fun s k => if k % 2 = 0 then s.wr d (SWC.PORT_STATE.SHARED_ALLOW (xpIdx k)) (16 * replayKib p np) else s) s

/-- The registers that the image gives a lane. A retired lane stays disabled, in RETIRED. -/
def State.writeLane (s : State) (d : Die) (p : Params) (n : Nat) : State :=
  let np := d.num * (64 / p.grouping) + n / p.grouping
  let out := s.retired 1 d (d.num * 64 + n)
  let on := roleOf p np != .unused && !out
  let fast := rateOf p np == 448 || rateOf p np == 224
  s.wrs d [(LNE.LNE_CFG.RATE_MAX n, rateCode (rateOf p np)), (LNE.LNE_CFG.REACH n, b2n (reachOf p np)),
    (LNE.LNE_CFG.PRECODE n, b2n (!reachOf p np && fast)), (HDR.CTRL.ENABLE (lneBase n), b2n on), (HDR.STATUS.ENABLED (lneBase n), b2n on),
    (LNE.LNE_STATE.STATE n, if out then 11 else 0), (LNE.LNE_STATE.RATE n, 0)]

/-! ## Domains (R47, steps 3 and 6; R606; 17_power.md R534) -/

/-- A domain's unit is absent from the part. -/
def State.domAbsent (s : State) (d : Die) (i : Nat) : Bool :=
  if i < 16 then false
  else if i < 24 then !bitOf s.present (8 * d.num + (i - 16))
  else if i < 26 then !s.hpPresent (2 * d.num + (i - 24))
  else if i = 27 then !s.qduPresent d
  else if i = 29 then !s.hagPresent d
  else false

/-- A domain that APPLY keeps in Galop throughout. -/
def domKept (i : Nat) : Bool := i == 24 || i == 25 || i == 30 || i == 31

/-- Steps 3 and 6 for a domain: down, and then up again or locked off. -/
def State.placeDom (s : State) (p : Params) (d : Die) (i : Nat) : State :=
  if s.domAbsent d i then s.lockOff d i 3
  else if domKept i then (if s.lockedOff d i then s else s.lockOn d i)
  else
    let s := s.domEnter d i 5
    if p.powerOff.contains (32 * d.num + i) then s.lockOff d i 1
    else if s.domNeeded p (32 * d.num + i) then s.lockOn d i
    else s.lockOff d i 2

/-! ## Wardens and units (R36; 03_register_model.md R88) -/

def State.writeWardens (s : State) (l : List Fn) : State :=
  let s := (List.range 8).foldl (fun s n =>
    s.wrs .a [(GLB.WARDEN.FUNCTION n, match l[n]? with | some f => f.fn.val | none => 0),
      (GLB.WARDEN.HOST_PORT n, match l[n]? with | some f => f.hp.val | none => 0), (GLB.WARDEN.VALID n, b2n (decide (n < l.length)))]) s
  let s := s.wr .a GLB.WARDEN_COUNT.COUNT l.length
  l.foldl (fun s f => s.wr (fnDie f) (DIKE.FN_POLDER.WARDEN (fnIdx f)) 1) s

/-- UNIT_ENABLED [23:0] of a structure. -/
def State.unitsOf (s : State) (r : Structure) : Nat :=
  Nat.land r.clusters s.present % 2 ^ 16 + s.present / 2 ^ 16 % 16 * 2 ^ 16 +
    (if r.qduOn then s.present / 2 ^ 20 % 4 * 2 ^ 20 else 0) + (if r.hagOn then s.present / 2 ^ 22 % 4 * 2 ^ 22 else 0)

/-- CTRL.ENABLE and STATUS.ENABLED of a block. -/
def State.blockOn (s : State) (d : Die) (b : Nat) (on : Bool) : State :=
  s.wrs d [(HDR.CTRL.ENABLE b, b2n on), (HDR.STATUS.ENABLED b, b2n on)]

/-! ## APPLY (R47) -/

/-- Steps 3 to 6 on a die. -/
def State.programDie (s : State) (r : Structure) (d : Die) : State :=
  let p := r.params
  if s.dieLost d then s
  else
    let s := s.writeDie d p
    let s := (List.range (64 / p.grouping)).foldl (fun s i => s.writePort d p i) s
    let s := (List.range 64).foldl (fun s n => s.writeLane d p n) s
    let s := ((s.banksLost d).filter (· != 0)).foldl (fun s k => s.replayBankOut d (k - 1)) s
    let s := [0x400000, 0x800000, 0xC00000, 0x1000000, 0x2000000, 0x3E00000, 0x3C00000].foldl (fun s b => s.blockOn d b true) s
    let s := s.when (s.qduPresent d) (fun s => s.blockOn d 0x1400000 r.qduOn)
    let s := (List.range 32).foldl (fun s i => s.placeDom p d i) s
    (List.range (64 / p.grouping)).foldl (fun s i => s.portStart d i) s

/-- Steps 3 to 7: the structure `r`, from source 1 slot A, 2 slot B, 3 a buffer. -/
def State.applyStructure (s : State) (r : Structure) (source : Nat) : State :=
  let s := { s.discard with running := some r }
  let s := (s.writeWardens r.wardens).wr .a GLB.UNIT_ENABLED.UNITS (s.unitsOf r)
  let s := (s.programDie r .a).programDie r .b
  let s := (s.pcuClear .a).pcuClear .b
  let s := s.wrs .a [(IMS.RUNNING.SOURCE, source), (IMS.RUNNING.SECURITY_EPOCH, r.params.epoch), (IMS.VERSION.V, 1), (IMS.VERSION.L, 1),
    (IMS.FEATURE_FLOOR.FLOOR, 1), (IMS.QUIESCE.REQ, 0), (IMS.QUIESCE.STATE, 0), (IMS.QUIESCE.BLOCKER, 0), (GLB.STATUS.IMAGE_RUNNING, 1)]
  let boot := s.rd .a SVC.SVC_STATE.PHASE != 10
  let s := s.when boot (fun s =>
    { s.wrs .a [(SVC.SVC_STATE.PHASE, 9), (SVC.SVC_STATE.BOOT_SLOT, source)] with svc := { s.svc with trainingAt := s.now } })
  { s with ims := { s.ims with quietSince := none, hostImage := false } }

/-- Every port that has a role is ACTIVE, FAILED or RETIRED, or 25 ms have passed: READY (19_startup.md R564). -/
def State.trackReady (s : State) : State :=
  let up := fun (d : Die) => (List.range s.portsPerDie).all (fun i =>
    s.role d i == .unused || s.linkSt d i == lsACTIVE || s.linkSt d i == lsFAILED || s.linkSt d i == lsRETIRED)
  if s.rd .a SVC.SVC_STATE.PHASE == 9 && ((up .a && up .b) || decide (s.svc.trainingAt + ms 25 ≤ s.now)) then s.wr .a SVC.SVC_STATE.PHASE 10 else s

/-! ## Quiesce (R46) -/

/-- The first condition of R46 that fails, numbered in its order; 0 when none does. Condition 5 counts the packets that arrived at
this moment. MGT packets count nowhere, since the device keeps serving them. -/
def State.blocker (s : State) : Nat :=
  let dies := [s.die .a, s.die .b]
  if s.queues.any (fun q => q.2.st == .active || q.2.st == .draining) then 1
  else if dies.any (fun x => !x.members.isEmpty) then 2
  else if dies.any (fun x => x.tru.ctxs.any (fun c => !c.2.descs.isEmpty)) then 3
  else if dies.any (fun x => x.sluice.waiting.any (fun p => p.pkt.vn != 3) || x.sluice.ctl.any (fun p => p.vn != 3) ||
      x.sluice.inj.any (fun p => p.2.any (fun q => q.1.vn != 3)) || x.swc.ins.any (fun p => p.2.any (fun q => q.pkt.vn != 3 && q.basin.any id)) ||
      x.llus.any (fun l => l.2.buf.any (fun f => f.units.any (fun u => u.vc / 8 != 3)))) then 4
  else if (match s.ims.lastArrival with | some t => decide (s.now ≤ t + 1) | none => false) then 5
  else 0

/-- The quiesce state as time passes: a violation returns it to DRAINING, and the time without one is kept. -/
def State.trackQuiesce (s : State) : State :=
  if s.rd .a IMS.QUIESCE.STATE = 0 then s
  else
    let b := s.blocker
    let s := s.wr .a IMS.QUIESCE.BLOCKER b
    if b ≠ 0 then { s.wr .a IMS.QUIESCE.STATE 1 with ims := { s.ims with quietSince := none } }
    else if s.ims.quietSince.isSome then s
    else { s with ims := { s.ims with quietSince := some s.now } }

end Sys2Proof.Machine
end

