-- ==== Sys2Proof/Machine/ImageStore.lean ====
section
/-! DEFINITION. The IMS registers and commands (02_structure_image.md R43 to R45, R51 to R55, R64 to R68): the ownership token, INSTALL,
APPLY, VERIFY, the control records, the quiesce, the feature floor, and the scrub. -/

namespace Sys2Proof.Machine

/-! ## Access and the ownership token (R54) -/

/-- A warden's access to the IMS block, or that of a PF 0 while the device waits for a host image (R58, R67). -/
def State.asIms (s : State) (rq : Requester) (off : Nat) (act : State → State) : State :=
  if !s.barUp rq then s else if s.imsPrivileged rq then act s else s.privViolation rq 0 off

/-- Grant the token, or renew the holder's lease. -/
def State.lease (s : State) (rq : Requester) : State :=
  { s.wrs .a [(IMS.TOKEN.OWNER_CLASS, rqClass rq), (IMS.TOKEN.OWNER_FN, rqFn rq), (IMS.LEASE.REMAIN_MS, 30000)] with
    ims := { s.ims with leaseEnd := s.now + 30 * secNs } }

/-- The token is free, or this requester holds it. -/
def State.mayHold (s : State) (rq : Requester) : Bool := s.rd .a IMS.TOKEN.OWNER_CLASS == 0 || s.holdsToken rq

/-- A command ends: CMD_STATUS (R68). -/
def State.imsEnd (s : State) (code detail : Nat) : State :=
  s.wrs .a [(IMS.CMD_STATUS.BUSY, 0), (IMS.CMD_STATUS.DONE, 1), (IMS.CMD_STATUS.CODE, code), (IMS.CMD_STATUS.DETAIL, detail)]

/-- Write TOKEN.ACQUIRE. -/
def State.tokenAcquire (s : State) (rq : Requester) : State :=
  if s.mayHold rq then s.lease rq else s.imsEnd stIMS_BUSY 0

/-- Write TOKEN.RELEASE. -/
def State.tokenRelease (s : State) (rq : Requester) : State := if s.holdsToken rq then s.freeToken else s

def execTokenAcquire (rq : Requester) (s : State) : Host.Outcome State Fault Refusal :=
  .next (s.asIms rq IMS.TOKEN.ACQUIRE.off (fun s => s.tokenAcquire rq))

def execTokenRelease (rq : Requester) (s : State) : Host.Outcome State Fault Refusal :=
  .next (s.asIms rq IMS.TOKEN.RELEASE.off (fun s => s.tokenRelease rq))

/-- TOKEN_LEASE_EXPIRY: 30 s have passed without a command from the holder. -/
def execTokenLeaseExpiry (s : State) : Host.Outcome State Fault Refusal :=
  .next (if s.rd .a IMS.TOKEN.OWNER_CLASS ≠ 0 ∧ s.ims.leaseEnd ≤ s.now then s.freeToken else s)

/-! ## Commands (R54, R66) -/

/-- A byte of the staging buffer; what has not been written since the last reset is undefined (19_startup.md R574). -/
def State.stagingByte (s : State) (a : Nat) : Byte := (tget s.ims.staging a).getD (Config.stagingByte s.ims.stagingGen a)

/-- The bytes of a source: SRC_LEN bytes of the host buffer or of the staging buffer, or a slot's image. `host` holds the host
buffer's bytes; a byte that it lacks counts as 0. -/
def State.source (s : State) (rq : Requester) (src : Nat) (host : List Byte) : List Byte :=
  let n := s.rd .a IMS.SRC_LEN.LEN
  if src = 1 ∨ src = 2 then
    let x := s.store.slot src
    x.image.take x.hdr.length.toNat
  else match rq with
    | .fn _ => (host ++ List.replicate (n - host.length) 0).take n
    | _ => (List.range n).map (fun i => s.stagingByte (0x1000 + i))

/-- Pull the host buffer. -/
def State.pull (s : State) (rq : Requester) (src : Nat) : State :=
  match rq with
  | .fn f => if src = 0 then s.hread f (s.rd .a IMS.SRC_ADDR.ADDR) (s.rd .a IMS.SRC_LEN.LEN) else s
  | _ => s

/-- Whether R66 allows the source, and the argument, of a command. The table of R66 allows SET_BOOT_POLICY any SRC while no owner key is
enrolled, and its list of refusals includes SRC = 3; the model takes the table (log entry 163). -/
def State.srcOk (s : State) (op src arg : Nat) : Bool :=
  if op = 2 ∨ op = 3 then decide (src ≤ 2)
  else if op = 7 then arg != 3 && (src == 0 || s.store.owners.isEmpty)
  else decide (1 ≤ op ∧ op ≤ 6) && src == 0

/-- Whether a command takes bytes from its source. -/
def State.takesSource (s : State) (op : Nat) : Bool := op != 7 || !s.store.owners.isEmpty

/-- The detail that a command which does not end hands back: a loss of power or a reset cut it off. -/
def imCUT : Nat := 0x100

/-- A refused command changes nothing. -/
def State.orRefused (s : State) : Except Nat State → State × Nat
  | .ok t => (t, 0)
  | .error e => (s, e)

/-- Write CMD with GO = 1: `act` performs the command, and answers its detail code. -/
def State.imsCommand (s : State) (rq : Requester) (op src arg : Nat) (act : State → State × Nat) : State :=
  if s.on .a IMS.CMD_STATUS.BUSY then s
  else
    let s := s.wrs .a [(IMS.CMD.OP, op), (IMS.CMD.SRC, src), (IMS.CMD.ARG, arg)]
    if !s.mayHold rq then s.imsEnd stIMS_BUSY 0
    else
      let s := s.lease rq
      if !s.srcOk op src arg then s.imsEnd stFORMAT imCOMMAND
      else
        let s := s.when (s.takesSource op) (fun s => s.pull rq src)
        let (t, e) := act s
        if e = imCUT then t.wrs .a [(IMS.CMD_STATUS.BUSY, 1), (IMS.CMD_STATUS.DONE, 0)]
        else t.imsEnd (if e = 0 then stOK else stFORMAT) e

/-! ## VERIFY, APPLY, INSTALL (R43, R47, R55) -/

/-- Check an image of a source: a slot's header and digest first. R66 says so of VERIFY; that APPLY from a slot does the same before the
steps of R43 is the model's choice (log entry 162). -/
def State.checkSource (s : State) (src : Nat) (b : List Byte) : Nat :=
  if src = 1 ∨ src = 2 then
    let x := s.store.slot src
    if !slotHdrOk x.hdr then imFORMAT else if sha384 b ≠ x.hdr.digest then imDIGEST else s.verifyImage b
  else s.verifyImage b

def State.imsVerify (s : State) (rq : Requester) (src : Nat) (host : List Byte) : Except Nat State :=
  if s.checkSource src (s.source rq src host) = 0 then .ok s else .error (s.checkSource src (s.source rq src host))

/-- Write CMD with a VERIFY. -/
def State.verifyGo (s : State) (rq : Requester) (src arg : Nat) (host : List Byte) : State :=
  s.imsCommand rq 3 src arg (fun s => s.orRefused (s.imsVerify rq src host))

def execVerify (rq : Requester) (src : Fin 4) (host : List Byte) (s : State) : Host.Outcome State Fault Refusal :=
  .next (s.asIms rq IMS.CMD.GO.off (fun s => s.verifyGo rq src.val 0 host))

def State.imsApply (s : State) (rq : Requester) (src : Nat) (host : List Byte) : Except Nat State :=
  let b := s.source rq src host
  if s.rd .a IMS.QUIESCE.STATE ≠ 2 then .error imNOT_QUIESCED
  else if s.checkSource src b ≠ 0 then .error (s.checkSource src b)
  else .ok (s.applyStructure (s.structureOf b) (if src = 0 then 3 else src))

/-- Write CMD with an APPLY. -/
def State.applyGo (s : State) (rq : Requester) (src arg : Nat) (host : List Byte) : State :=
  s.imsCommand rq 2 src arg (fun s => s.orRefused (s.imsApply rq src host))

def execApply (rq : Requester) (src : Fin 4) (host : List Byte) (s : State) : Host.Outcome State Fault Refusal :=
  .next (s.asIms rq IMS.CMD.GO.off (fun s => s.applyGo rq src.val 0 host))

/-- Highest SEQ of a valid record; 0 without one. -/
def Store.lastSeq (st : Store) : Nat := match st.candidates with | r :: _ => r.seq.toNat | [] => 0

/-- Words of the store, the first `n` of them written anew, and what the next one reads as where the writing is cut off. -/
def torn (n : Nat) (read : Option W64) (new old : List Byte) : List Byte :=
  let b := (match read with | some w => new.take (8 * n) ++ leBytes 8 w.toNat | none => new.take (8 * n)).take new.length
  b ++ old.drop b.length

def slotWords (h : SlotHdr) : List Byte := slotHdrBytes h ++ leBytes 4 h.crc.toNat
def slotOf (b : List Byte) : SlotHdr :=
  { magic := BitVec.ofNat 32 (le b 0 4), length := BitVec.ofNat 32 (le b 4 4), digest := BitVec.ofNat 384 (leNat (cut b 8 48).reverse),
    writeCount := BitVec.ofNat 32 (le b 56 4), crc := BitVec.ofNat 32 (le b 60 4) }
def recBytes (r : CommitRec) : List Byte := commitBytes r ++ leBytes 4 r.crc.toNat
def recOf (b : List Byte) : CommitRec :=
  { magic := BitVec.ofNat 32 (le b 0 4), seq := BitVec.ofNat 32 (le b 4 4), slot := BitVec.ofNat 8 (le b 8 1),
    digest := BitVec.ofNat 384 (leNat (cut b 12 48).reverse), crc := BitVec.ofNat 32 (le b 60 4) }

def Store.setSlot (st : Store) (k : Nat) (x : Slot) : Store := if k = 1 then { st with slotA := x } else { st with slotB := x }

/-- One step of R55 (0 to 3 for the steps 1 to 4): the image, the slot header, and the commit record in copy 0 and in copy 1; `f`
answers what the words hold after the step, from the words to be written and the words there. -/
def installStep (slot seq : Nat) (b : List Byte) (f : List Byte → List Byte → List Byte) (k : Nat) (st : Store) : Store :=
  let x := st.slot slot
  let r := recBytes (commitRec seq slot (sha384 b))
  let old := fun (j : Tbl CommitRec) => match tget j (seq % 64) with | some r => recBytes r | none => List.replicate 64 0
  match k with
  | 0 => st.setSlot slot { x with image := f b x.image }
  | 1 => st.setSlot slot { x with hdr := slotOf (f (slotWords (slotHdr b.length (sha384 b) (x.hdr.writeCount.toNat + 1))) (slotWords x.hdr)) }
  | 2 => { st with journal0 := tput st.journal0 (seq % 64) (recOf (f r (old st.journal0))) }
  | _ => { st with journal1 := tput st.journal1 (seq % 64) (recOf (f r (old st.journal1))), commits := st.commits + 1 }

/-- The first `n` steps of R55. -/
def Store.installSteps (st : Store) (slot seq n : Nat) (b : List Byte) : Store :=
  (List.range n).foldl (fun st k => installStep slot seq b (fun new _ => new) k st) st

/-- Steps 1 to 4 of R55, or those before the writing is cut off, the last in part. -/
def State.install (s : State) (slot seq : Nat) (b : List Byte) (stop : Option StoreCut) : State × Nat :=
  match stop with
  | none => (({ s with store := s.store.installSteps slot seq 4 b }.showStore).wr .a IMS.CMD_STATUS.STEP 4, 0)
  | some c =>
    let st := installStep slot seq b (torn c.words c.read) c.step.val (s.store.installSteps slot seq c.step.val b)
    (({ s with store := { st with commits := s.store.commits } }.showStore).wr .a IMS.CMD_STATUS.STEP c.step.val,
      if c.read.isSome then imVERIFY else imCUT)

def State.imsInstall (s : State) (rq : Requester) (host : List Byte) (stop : Option StoreCut) : State × Nat :=
  let b := (s.source rq 0 host).take (imageLen (s.source rq 0 host))
  let slot := match s.bootSelect.1 with | some r => 3 - r.slot.toNat | none => 1
  if s.verifyImage (s.source rq 0 host) ≠ 0 then (s, s.verifyImage (s.source rq 0 host))
  else if 0xFFFFFFFE < s.store.lastSeq + 1 then (s, imFORMAT)
  else s.install slot (s.store.lastSeq + 1) b stop

/-- Write CMD with an INSTALL. -/
def State.installGo (s : State) (rq : Requester) (src arg : Nat) (host : List Byte) (stop : Option StoreCut) : State :=
  let s := s.when (!s.on .a IMS.CMD_STATUS.BUSY && s.mayHold rq) (fun s => s.wr .a IMS.CMD_STATUS.STEP 0)
  s.imsCommand rq 1 src arg (fun s => s.imsInstall rq host stop)

def execInstall (rq : Requester) (src : Fin 4) (host : List Byte) (stop : Option StoreCut) (s : State) : Host.Outcome State Fault Refusal :=
  .next (s.asIms rq IMS.CMD.GO.off (fun s => s.installGo rq src.val 0 host stop))

/-! ## Control records (R44, R45, R65, R66) -/

/-- A control record's SUBJECT as a key. -/
def subjectKey (b : List Byte) : OwnerKey := { x := BitVec.ofNat 384 (beNat (cut b 32 48)), y := BitVec.ofNat 384 (beNat (cut b 80 48)) }

/-- Check 1 of R66: what the table of R65 fixes. -/
def recordFormat (b : List Byte) (kind : Nat) : Bool :=
  b.length == 256 && le b 0 4 == 0x43544C52 && le b 4 1 == kind && (kind == 4 || le b 5 1 == 0) && (kind == 3 || le b 6 2 == 0) &&
    (kind == 1 || (if kind = 2 then zeroBytes b 48 80 else zeroBytes b 32 96))

/-- Check 3: the signature, by an enrolled key, or on an ENROL_KEY into an empty store by the key it enrols. -/
def State.recordSigned (s : State) (b : List Byte) (kind : Nat) : Bool :=
  let block := b.drop 128
  let msg := b.take 128
  if kind = 1 ∧ s.store.owners.isEmpty then keyId (subjectKey b) == block.take 16 && signedBy (subjectKey b) block msg
  else match s.store.named block with
    | some k => signedBy k block msg
    | none => false

/-- Write an effect into the store and read it back (R51, R66): with a word that differs, the command ends with WRITE_VERIFY, and what
the store then holds is open: as before, or with the effect. -/
def State.putStore (s : State) (st : Store) (verified : Bool) : State × Nat :=
  if verified then ({ s with store := st }.showStore, 0)
  else (s.draw (fun n s => if n % 2 = 0 then s else { s with store := st }.showStore), imVERIFY)

/-- A control record: the checks of R66 in order, `rule` being the last, which answers the store that takes the effect. -/
def State.controlRecord (s : State) (b : List Byte) (kind : Nat) (verified : Bool) (rule : Store → Except Nat Store) : State × Nat :=
  if !recordFormat b kind then (s, imFORMAT)
  else if le b 16 16 ≠ 0 ∧ le b 16 16 ≠ s.serial then (s, imSCOPE)
  else if !s.recordSigned b kind then (s, imSIG)
  else if le b 8 8 ≤ s.store.control then (s, imSTALE)
  else match rule s.store with
    | .ok st => s.putStore { st with control := le b 8 8 } verified
    | .error e => (s, e)

/-- Put a key into the first free record. -/
def putKey (k : OwnerKey) : List (Option OwnerKey) → List (Option OwnerKey)
  | [] => []
  | none :: l => some k :: l
  | some x :: l => some x :: putKey k l

def enrolRule (b : List Byte) (st : Store) : Except Nat Store :=
  let k := subjectKey b
  if st.owners.contains k ∨ 4 ≤ st.owners.length then .error imKEY_RULE else .ok { st with keys := putKey k st.keys }

def revokeRule (b : List Byte) (st : Store) : Except Nat Store :=
  match st.owners.find? (fun k => keyId k == cut b 32 16) with
  | none => .error imKEY_RULE
  | some k => if st.owners.length ≤ 1 then .error imKEY_RULE else .ok { st with keys := st.keys.map (fun x => if x = some k then none else x) }

def epochRule (b : List Byte) (st : Store) : Except Nat Store :=
  if le b 6 2 < st.minEpoch then .error imEPOCH else .ok { st with minEpoch := le b 6 2 }

def policyRule (arg : Nat) (b : List Byte) (st : Store) : Except Nat Store :=
  if le b 5 1 ≠ arg then .error imCOMMAND else .ok { st with policy := arg }

/-- Write CMD with an ENROL_KEY, a REVOKE_KEY or a RAISE_EPOCH. -/
def State.enrolGo (s : State) (rq : Requester) (src arg : Nat) (host : List Byte) (verified : Bool) : State :=
  s.imsCommand rq 4 src arg (fun s => s.controlRecord (s.source rq 0 host) 1 verified (enrolRule (s.source rq 0 host)))
def State.revokeGo (s : State) (rq : Requester) (src arg : Nat) (host : List Byte) (verified : Bool) : State :=
  s.imsCommand rq 5 src arg (fun s => s.controlRecord (s.source rq 0 host) 2 verified (revokeRule (s.source rq 0 host)))
def State.epochGo (s : State) (rq : Requester) (src arg : Nat) (host : List Byte) (verified : Bool) : State :=
  s.imsCommand rq 6 src arg (fun s => s.controlRecord (s.source rq 0 host) 3 verified (epochRule (s.source rq 0 host)))

/-- Write CMD with a SET_BOOT_POLICY: on a store without an owner key it takes no record. -/
def State.policyGo (s : State) (rq : Requester) (src arg : Nat) (host : List Byte) (verified : Bool) : State :=
  s.imsCommand rq 7 src arg (fun s =>
    if s.store.owners.isEmpty then s.putStore { s.store with policy := arg } verified
    else s.controlRecord (s.source rq 0 host) 4 verified (policyRule arg (s.source rq 0 host)))

def execEnrolKey (rq : Requester) (src : Fin 4) (host : List Byte) (verified : Bool) (s : State) : Host.Outcome State Fault Refusal :=
  .next (s.asIms rq IMS.CMD.GO.off (fun s => s.enrolGo rq src.val 0 host verified))

def execRevokeKey (rq : Requester) (src : Fin 4) (host : List Byte) (verified : Bool) (s : State) : Host.Outcome State Fault Refusal :=
  .next (s.asIms rq IMS.CMD.GO.off (fun s => s.revokeGo rq src.val 0 host verified))

def execRaiseEpoch (rq : Requester) (src : Fin 4) (host : List Byte) (verified : Bool) (s : State) : Host.Outcome State Fault Refusal :=
  .next (s.asIms rq IMS.CMD.GO.off (fun s => s.epochGo rq src.val 0 host verified))

def execSetBootPolicy (rq : Requester) (src arg : Fin 4) (host : List Byte) (verified : Bool) (s : State) : Host.Outcome State Fault Refusal :=
  .next (s.asIms rq IMS.CMD.GO.off (fun s => s.policyGo rq src.val arg.val host verified))

/-- A write of CMD with GO = 1 and any OP. -/
def State.imsGo (s : State) (rq : Requester) (op src arg : Nat) (host : List Byte) : State :=
  match op with
  | 1 => s.installGo rq src arg host none
  | 2 => s.applyGo rq src arg host
  | 3 => s.verifyGo rq src arg host
  | 4 => s.enrolGo rq src arg host true
  | 5 => s.revokeGo rq src arg host true
  | 6 => s.epochGo rq src arg host true
  | 7 => s.policyGo rq src arg host true
  | _ => s.imsCommand rq op src arg (fun s => (s, imCOMMAND))

/-! ## Quiesce and feature floor (R46, R64) -/

/-- Write QUIESCE.REQ: 1 begins to drain. A write of 0 changes the field alone: only APPLY and a reset end a quiesce (log entry 30). -/
def State.quiesceWrite (s : State) (req : Bool) : State :=
  if req then
    if s.rd .a IMS.QUIESCE.STATE = 0 then
      let s := s.wrs .a [(IMS.QUIESCE.REQ, 1), (IMS.QUIESCE.STATE, 1)]
      let s := s.wr .a IMS.QUIESCE.BLOCKER s.blocker
      { s with ims := { s.ims with quietSince := if s.blocker = 0 then some s.now else none } }
    else s.wr .a IMS.QUIESCE.REQ 1
  else s.wr .a IMS.QUIESCE.REQ 0

def execQuiesceReq (rq : Requester) (s : State) : Host.Outcome State Fault Refusal :=
  .next (s.asIms rq IMS.QUIESCE.REQ.off (fun s => s.quiesceWrite true))

/-- QUIESCE_ENTERED: the conditions of R46 have held for 100 µs. -/
def execQuiesceEntered (s : State) : Host.Outcome State Fault Refusal :=
  .next (match s.ims.quietSince with
    | some t =>
      let late := match s.ims.lastArrival with | some a => decide (t ≤ a) | none => false
      if s.rd .a IMS.QUIESCE.STATE = 1 ∧ s.blocker = 0 ∧ !late ∧ t + us 100 ≤ s.now then
        s.wrs .a [(IMS.QUIESCE.STATE, 2), (IMS.QUIESCE.BLOCKER, 0)]
      else s
    | none => s)

/-- Write FEATURE_FLOOR. -/
def State.floorWrite (s : State) (v : Nat) : State :=
  let was := s.rd .a IMS.FEATURE_FLOOR.FLOOR
  if s.rd .a IMS.VERSION.V < v ∨ (v < was ∧ s.rd .a IMS.QUIESCE.STATE ≠ 2) then s.wr .a IMS.FEATURE_FLOOR.REJECT 1
  else s.wr .a IMS.FEATURE_FLOOR.FLOOR v

def execFeatureFloorWrite (rq : Requester) (v : Fin 16) (s : State) : Host.Outcome State Fault Refusal :=
  .next (s.asIms rq IMS.FEATURE_FLOOR.FLOOR.off (fun s => s.floorWrite v.val))

/-! ## Scrub (R51) -/

/-- Words of the store that a pass found, each counted once. -/
def scrubCount (found : List (BitVec 23)) : Nat := (found.foldl (fun l x => if l.contains x then l else l ++ [x]) []).length

/-- STORE_SCRUB: once 24 hours have passed since the last pass (the first after a reset is due at once: log entry 175), every word is
read once. The check bits of the words `corrected` show an error that they correct, and the word is written back as it was; those of the words `lost` one
beyond correction. Both kinds are counted. -/
def execStoreScrub (corrected lost : List (BitVec 23)) (s : State) : Host.Outcome State Fault Refusal :=
  .next (if s.now < s.ims.scrubAt then s
    else
      let s := { s with ims := { s.ims with scrubAt := s.now + 24 * hourNs } }
      (s.bumpBy .a IMS.SCRUB_STATUS.CORRECTED (scrubCount (corrected.filter (fun w => !lost.contains w)))).bumpBy .a IMS.SCRUB_STATUS.UNCORRECTABLE (scrubCount lost))

end Sys2Proof.Machine
end

