-- ==== Sys2Proof/Machine/Capabilities.lean ====
section
/-! DEFINITION. The configuration space of the functions: capability structures, what they report, and the BARs
(03_register_model.md R69, R95; 05_host_ports.md R122 to R130, R155), and the contents of the device regions (05_host_ports.md R135). -/

namespace Sys2Proof.Machine

/-! ## Capabilities (R127) -/

/-- The kinds of function: a PF, the secondary function of a bifurcated port, and the VFs (05_host_ports.md R125, R126). -/
inductive FnKind where
  | pf | secondary | vf
  deriving DecidableEq, Repr

def State.fnKind (s : State) (f : Fn) : FnKind :=
  if f.fn.val = 0 then .pf else if s.onLink1 f then .secondary else .vf

/-- PCIe IDE is on the part, and works in PCIe mode (R127, R133). -/
def State.hasIde (s : State) (h : Fin 4) : Bool := bitOf s.present 28 && !(s.hp h).cxl

/-- The HAG of both dies is enabled (R127). -/
def State.bothHags (s : State) : Bool := s.hagEnabled .a && s.hagEnabled .b

/-- A function presents a capability. -/
def State.hasCap (s : State) (f : Fn) (c : Cap) : Bool :=
  let k := s.fnKind f
  let root := k != .vf
  match c with
  | .pcie | .aer | .ats | .acs | .msix => true
  | .ari => k != .secondary
  | .sriov => k == .pf
  | .ide => root && s.hasIde f.hp
  | .cxlDevice | .flexBus | .registerLocator | .gpf => k == .pf && (s.hp f.hp).cxl
  | .power | .serial | .dataLink | .phys16 | .phys32 | .phys64 | .phys128 | .margining | .flitLogging | .device3 | .doe | .falanaur => root

/-- MSI-X vectors of a function. -/
def State.msixVectors (s : State) (f : Fn) : Nat := if s.fnKind f = .pf then 256 else 130

/-- TotalVFs of a port: HP_TOTAL_VFS, capped at 127 in bifurcated mode (R125, R126). -/
def HostPort.vfCap (p : HostPort) : Nat := if p.bifurcated then min p.totalVfs 127 else p.totalVfs

/-- Sizes of a function's BAR0, BAR2 and BAR4 (03_register_model.md R69). -/
def barSizes (k : FnKind) : List Nat := match k with | .pf => [2 ^ 27, 2 ^ 37, 2 ^ 37] | _ => [2 ^ 20, 2 ^ 34, 2 ^ 34]

/-- A BAR is 64-bit, and prefetchable but for BAR0 (R69). -/
def barFlags (bar : Nat) : Bool × Bool := (true, bar != 0)

/-- What a capability reports, as far as the manual gives it:
SR-IOV: TotalVFs, InitialVFs, NumVFs, First VF Offset, VF Stride, the smallest and the largest page size, the VF BAR sizes, VF Migration
(R125); ATS: Invalidate Queue Depth, Smallest Translation Unit, Page Aligned Request (R129); ACS: P2P Request Redirect, P2P Completion
Redirect, Upstream Forwarding, Direct Translated P2P (R130); PCI Express: bits of a tag; Power Management: the D-states; IDE: link and
selective streams (R133); DOE: its protocols, 0 discovery, 1 SPDM, 2 secured SPDM, 3 CDAT; CXL Device: Mem_Capable, Cache_Capable, HDM-DB. -/
def State.capValues (s : State) (f : Fn) (c : Cap) : List Nat :=
  let p := s.hp f.hp
  match c with
  | .pcie => [tagBits (portLink p (s.onLink1 f))]
  | .ats => [32, 4096, 1]
  | .acs => [1, 1, 1, 1]
  | .power => [0, 3]
  | .msix => [s.msixVectors f]
  | .sriov => [p.vfCap, p.vfCap, p.numVfs, 1, 1, 4096, 2 ^ 20] ++ barSizes .vf ++ [0]
  | .serial => [s.serial % 2 ^ 64]
  | .doe => [0, 1, 2] ++ (if p.cxl then [3] else [])
  | .ide => [1, 4]
  | .falanaur => [1, 0x28]
  | .cxlDevice => [1, b2n s.bothHags, b2n s.bothHags]
  | .aer | .ari | .dataLink | .phys16 | .phys32 | .phys64 | .phys128 | .margining | .flitLogging | .device3
  | .flexBus | .registerLocator | .gpf => []

/-- A function exists in configuration space: its port is present, and it is the PF, an enabled VF, or the secondary function. -/
def State.fnThere (s : State) (f : Fn) : Bool := s.hpPresent f.hp.val && s.fnEnabled f

/-- What configuration space shows of a capability. -/
def State.readCap (s : State) (f : Fn) (c : Cap) : Option (List Nat) :=
  if s.fnThere f && s.hasCap f c then some (s.capValues f c) else none

/-! ## The host-port DVSEC (R155) -/

/-- Hold reads of a link's functions that wait. -/
def State.linkWaiting (s : State) (i : Nat) : Nat := (s.waiters.filter (fun w => s.fnLink w.fn == i)).length

/-- A field of a link's DVSEC. -/
def State.hpField (s : State) (h : Fin 4) (one : Bool) (f : Fld) : Nat :=
  let i := linkIdx h one
  let p := s.hp h
  let l := portLink p one
  if f = HP.HP_ID.PORT i then h.val
  else if f = HP.HP_ID.DIE i then (hpDie h).num
  else if f = HP.HP_ID.LINK i then b2n one
  else if f = HP.HP_ID.PART i then partNum s.part
  else if f = HP.HP_MODE.PROTOCOL i then b2n p.cxl
  else if f = HP.HP_MODE.BIFURCATED i then b2n p.bifurcated
  else if f = HP.HP_MODE.TOTAL_VFS i then p.totalVfs
  else if f = HP.HP_MODE.IDE i then b2n (bitOf s.present 28)
  else if f = HP.HP_LINK.RATE i then l.rate
  else if f = HP.HP_LINK.WIDTH i then l.width
  else if f = HP.HP_LINK.FLIT i then b2n l.flit
  else if f = HP.HP_HOLD.WAITING i then s.linkWaiting i
  else s.rd .a f

/-- Four bytes of a link's DVSEC. Its headers are the base specification's, with Falanaur's vendor ID, revision 1, length 0x028 and
DVSEC ID 0x0001. -/
def State.readDvsec (s : State) (h : Fin 4) (one : Bool) (o : Nat) : Nat :=
  if !s.hpPresent h.val || (one && !(s.hp h).bifurcated) then 0
  else if o = 0 then Config.dvsecHeader
  else if o = 4 then Config.vendorId % 2 ^ 16 + 2 ^ 16 + 0x28 * 2 ^ 20
  else if o = 8 then 1
  else (rowsHP (linkIdx h one) o).foldl (fun n r => n + s.hpField h one r.fld % 2 ^ r.fld.w * 2 ^ r.fld.lo) 0

/-- A requester reads a link's DVSEC: the link's own PF or secondary function, or the SVC. -/
def State.dvsecOf (s : State) (rq : Requester) (h : Fin 4) (one : Bool) : Bool :=
  match rq with
  | .fn f => f.hp == h && (if one then s.onLink1 f else f.fn.val == 0)
  | _ => true

/-! ## Device regions (R135) -/

/-- What a device region holds. -/
inductive RegionPart where
  | contexts | spillway | unexpected | backing | spareRows
  deriving DecidableEq, Repr

/-- Offset in the region, and size. -/
def regionPlace : RegionPart → Nat × Nat
  | .contexts => (0, 512 * 2 ^ 20)
  | .spillway => (0x20000000, 2 ^ 31)
  | .unexpected => (0xA0000000, 2 ^ 30)
  | .backing => (0xE0000000, 384 * 2 ^ 20)
  | .spareRows => (0xF8000000, 128 * 2 ^ 20)

/-- Device address of a structure of a die's region. -/
def State.regionAddr (s : State) (d : Die) (p : RegionPart) : Nat := s.regionBase d + (regionPlace p).1

end Sys2Proof.Machine
end

