-- ==== Sys2Proof/Machine/Startup.lean ====
section
/-! DEFINITION. Power-up, cold and warm resets, and the reset signals (19_startup.md R564 to R570; 20_package.md R599, R600;
02_structure_image.md R57, R58). -/

namespace Sys2Proof.Machine

/-! ## What each reset keeps (R568) -/

/-- Registers of the fault log that a cold reset keeps: LOG_HEAD, LOG_WRAPPED, VISIBLE_EVENTS and AVAIL (16_faults.md R518, R523). -/
def faultLogRegs : List Fld :=
  [FM.FM_STATE.LOG_WRAPPED, FM.LOG_HEAD.SEQ, FM.LOG_HEAD.INDEX, FM.VISIBLE_EVENTS.COUNT] ++
  ((List.range 4).flatMap (fun h => [FM.AVAIL.EVENTS h, FM.AVAIL.UNAVAIL_MS h]))

/-- Registers of the always-on domain, which a warm reset keeps: SVC, fault manager, PWC, fabric time; and the seeds' generation. -/
def keptWarm (o : Nat) : Bool :=
  decide (0x100000 ≤ o ∧ o < 0x180000) || decide (0x4000 ≤ o ∧ o < 0x8000) || decide (0x3C00000 ≤ o ∧ o < 0x3C20000) ||
  decide (0x3800060 ≤ o ∧ o < 0x38000A8) || o == RTB.SEED.GEN.off

/-- Keep the registers whose place in the die window satisfies `p`. -/
def State.keepRegs (s : State) (p : Nat → Bool) : State :=
  { s with regs := s.regs.filter (fun r => decide (r.1 / 64 < 0x8000000) && p (r.1 / 64 % 0x4000000)) }

/-- A host port after a cold reset: its mode and VF count from the settings (19_startup.md R571, R572). -/
def State.coldPort (s : State) (h : Fin 4) : HostPort :=
  let mode := s.setting h.val
  let vfs := s.setting (4 + h.val)
  { HostPort.reset with cxl := mode == 2, bifurcated := mode == 1, totalVfs := if mode = 1 then min 127 vfs else vfs,
                        maxRate := s.setting (8 + h.val), perst := (s.hp h).perst }

/-- A host port after a warm reset: its mode and VF count as they were. -/
def HostPort.warm (p : HostPort) : HostPort :=
  { HostPort.reset with cxl := p.cxl, bifurcated := p.bifurcated, totalVfs := p.totalVfs, maxRate := p.maxRate, perst := p.perst }

def State.mapPorts (s : State) (f : Fin 4 → HostPort) : State := { s with hps := ⟨#[f 0, f 1, f 2, f 3], rfl⟩ }

/-- What lasts through every loss of power: the part, the image store, the settings, the fault log and the retirement table. -/
def State.coldState (s : State) : State :=
  let r : State := { State.reset with part := s.part, serial := s.serial, stepping := s.stepping, rootKey := s.rootKey, now := s.now,
                                      free := s.free, out := s.out, store := s.store, pending := s.pending }
  let r := { r with ims := { ImsState.reset with stagingGen := s.ims.stagingGen + 1 },
                    fm := { FaultMgr.reset with table := s.fm.table, ring := s.fm.ring, lostBanks := s.fm.lostBanks, down := s.fm.down },
                    svc := { Svc.reset with settings := s.svc.settings, resetN := s.svc.resetN, staticAddr := s.setting 24 } }
  let r := faultLogRegs.foldl (fun r f => r.wr .a f (s.rd .a f)) r
  r.mapPorts (fun h => s.coldPort h)

/-! ## Step 3: the store and the retirement table -/

/-- The bridge modules that no record retires, trained; and the registers that the records give. -/
def State.applyRecords (s : State) : State :=
  let mods : Tbl BMod := (List.range 16).map (fun m => (m, { bmod0 with live := !s.retired 3 .a m }))
  let s := [Die.a, Die.b].foldl (fun s d => s.modBridge d (fun _ => { Bridge.reset with mods := mods })) s
  let s := [Die.a, Die.b].foldl (fun s d => [0, 1].foldl (fun s k =>
    s.wr d (DMEM.STACK_ROWS_RETIRED.COUNT k) ((s.retiredOf 9 d).filter (fun i => hbmStack i == k)).length) s) s
  (s.countRetired.showBridge.showStore).wr .a FM.FM_STATE.RUNNING 1

/-! ## Steps 4 to 8 -/

/-- Every switched domain and both spines are down (R569). -/
def State.dark (s : State) : State :=
  [Die.a, Die.b].foldl (fun s d => (List.range 32).foldl (fun s i =>
    (s.wrs d [(PWC.DOM_STATE.STATE i, 5), (PWC.DOM_STATE.FENCING i, 0), (PWC.DOM_STATE.LOCKED_OFF i, 0), (PWC.DOM_STATE.LOCK_REASON i, 0),
      (PWC.DOM_STATE.HELD i, 0)]).modDom d i (fun _ => { dom0 with stateAt := s.now })) (s.modNoc d (fun _ => Noc.reset))) s

/-- Step 4: the domains of the units that the part has are in Galop, the others locked off (17_power.md R534, R545). -/
def State.lightDomains (s : State) : State :=
  [Die.a, Die.b].foldl (fun s d => (List.range 32).foldl (fun s i => if s.domAbsent d i then s.lockOff d i 3 else s.lockOn d i) s) s

/-- The keys that a cold reset draws (12_routing.md R393; 05_host_ports.md R137). -/
def State.drawKeys (s : State) : State :=
  let s := s.draw (fun k s => { s with memKey := k })
  [Die.a, Die.b].foldl (fun s d => s.draw (fun k s => s.draw (fun x s => s.draw (fun y s =>
    (s.modRtb d (fun r => { r with flowKey := k, seed0 := x, seed1 := y })).draw (fun z s => s.modDie d (fun v => { v with recKey := z })))))) s

/-- Host ports whose PERST_N is high train (R566). -/
def State.trainPorts (s : State) : State :=
  (List.finRange 4).foldl (fun s h => s.when (s.hpPresent h.val && !(s.hp h).perst) (fun s => s.trainHost h s.now)) s

/-- The device waits for a host-delivered image (R58). -/
def State.awaitHost (s : State) : State :=
  { s.wr .a SVC.SVC_STATE.PHASE 8 with ims := { s.ims with hostImage := true } }

/-- Steps 6 to 8: boot selection, and what the boot policy makes of it (R58, R565). -/
def State.bootImage (s : State) : State :=
  let sel := s.bootSelect
  let s := s.wr .a SVC.SVC_STATE.BOOT_FAIL sel.2
  let s := match sel.1 with | some r => s.repairJournal r | none => s
  match sel.1, s.store.policy with
  | some r, 0 | some r, 2 =>
    let x := s.store.slot r.slot.toNat
    s.applyStructure (s.structureOf (x.image.take x.hdr.length.toNat)) r.slot.toNat
  | none, 2 => (((s.alert 1).wr .a SVC.SVC_STATE.PHASE 11).wr .a IMS.CMD_STATUS.DETAIL sel.2)
  | _, _ => (s.alert 1).awaitHost

/-- Steps 4 to 8. A regulator that does not answer stops the start-up (20_package.md R596). -/
def State.startDies (s : State) (avs : Bool) : State :=
  if !avs then s.wr .a SVC.SVC_STATE.PHASE 11
  else ((s.wr .a SVC.SVC_STATE.PHASE 4).lightDomains.trainPorts).bootImage

/-- From step 3 on: RESET_N low holds the device at RESET_HELD. -/
def State.fromStore (s : State) (avs : Bool) : State :=
  let s := s.applyRecords.dark
  if s.svc.resetN then s.startDies avs else s.wr .a SVC.SVC_STATE.PHASE 3

/-! ## Cold reset -/

/-- Power is gone: PWRGOOD is low, and the device does nothing. -/
def State.powerLost (s : State) : State := s.coldState

/-- PWRGOOD rises: the always-on domain leaves reset, and start-up runs (R564). -/
def State.powerUp (s : State) (avs : Bool) : State :=
  let s := s.coldState
  let s := { s with svc := { s.svc with pwrgood := true } }
  s.drawKeys.fromStore avs

/-- PWRGOOD_RISE (R564, R568). `avs` says that both core regulators answer. -/
def execPwrgoodRise (avs : Bool) (s : State) : Host.Outcome State Fault Refusal :=
  .next (if s.svc.pwrgood then s else s.powerUp avs)

/-- PWRGOOD_FALL (R600). -/
def execPwrgoodFall (s : State) : Host.Outcome State Fault Refusal := .next (if s.svc.pwrgood then s.powerLost else s)

/-- SUPPLIES_COLLAPSE (R599): the image store and the fault log last, and all other state is lost. -/
def execSuppliesCollapse (s : State) : Host.Outcome State Fault Refusal := .next s.powerLost

/-! ## Warm reset (R569, R570) -/

/-- What a warm reset leaves of a die. -/
def DieState.warm (x : DieState) : DieState :=
  { DieState.reset with recKey := x.recKey, ft := x.ft, rtb := { Rtb.reset with flowKey := x.rtb.flowKey, seed0 := x.rtb.seed0, seed1 := x.rtb.seed1 } }

/-- SVC and fault-manager registers that return to reset: a command in progress is abandoned (R570). -/
def abandonedRegs : List Fld :=
  [SVC.MB_CMD.OP, SVC.MB_STATUS.BUSY, SVC.MB_STATUS.DONE, SVC.MB_STATUS.GO_REJECT, SVC.MB_STATUS.CODE, SVC.MB_STATUS.DETAIL,
   SVC.MB_RESULT.VALUE, FM.FM_CMD.OP, FM.FM_STATUS.BUSY, FM.FM_STATUS.DONE, FM.FM_STATUS.GO_REJECT, FM.FM_STATUS.CODE,
   FM.FM_STATUS.DETAIL, FM.FM_STATE.DIE_A_LOST, FM.FM_STATE.DIE_B_LOST, FM.FM_STATE.SPLIT, SVC.SVC_STATE.BOOT_SLOT,
   SVC.SVC_STATE.BOOT_FAIL]

/-- The registers after a warm reset: those of the always-on domain are kept, but for commands in progress and the PWC's enables. -/
def State.warmRegs (s : State) : State :=
  [Die.a, Die.b].foldl (fun s d => s.zero d [HDR.CTRL.ENABLE 0x3C00000, HDR.STATUS.ENABLED 0x3C00000])
    ((s.keepRegs keptWarm).zero .a abandonedRegs)

/-- The engines lose what their store buffers hold (05_host_ports.md R144). -/
def State.resetEngines (s : State) : State := (s.engines.map (·.1)).foldl State.engineReset s

/-- What a warm reset leaves of the units, the dies and the host ports. -/
def State.warmUnits (s : State) : State :=
  let s := { s with ims := { ImsState.reset with stagingGen := s.ims.stagingGen + 1 }, running := none,
                    dies := ⟨s.dies.a.warm, s.dies.b.warm⟩, waiters := [], recallAt := [], holdCounts := [], hostQ := [], engines := [], queues := [], rings := [], ctrs := [],
                    qcs := [], ops := [], reads := [] }
  let s := { s with fm := { s.fm with cycling := none, missed := ⟨0, 0⟩, beatAt := ⟨s.now, s.now⟩ },
                    svc := { s.svc with request := none } }
  s.mapPorts (fun h => (s.hp h).warm)

/-- A warm reset: what it leaves of the device (R569, R570). -/
def State.warmState (s : State) : State := s.resetEngines.warmRegs.warmUnits

/-- A warm reset, recorded under a bit of RESET_CAUSE. One that is requested while RESET_N holds the device merges into the one that
runs; a thermal trip wins over it (20_package.md R603). -/
def State.warmReset (s : State) (cause : Fld) (avs : Bool) : State :=
  if !s.svc.pwrgood ∨ s.svc.tripped then s
  else if s.rd .a SVC.SVC_STATE.PHASE = 3 then s.wr .a cause 1
  else
    let s := s.zero .a [SVC.RESET_CAUSE.COLD, SVC.RESET_CAUSE.RESET_N, SVC.RESET_CAUSE.FM_CMD, SVC.RESET_CAUSE.OOB, SVC.RESET_CAUSE.I3C]
    ((s.wr .a cause 1).bump .a SVC.RESET_CAUSE.COUNT).warmState.fromStore avs

/-- RESET_N_ASSERTED (R568, R600). -/
def execResetNAsserted (s : State) : Host.Outcome State Fault Refusal :=
  .next ({ s with svc := { s.svc with resetN := false } }.warmReset SVC.RESET_CAUSE.RESET_N true)

/-- RESET_N_DEASSERTED (R600): the TAP lets go of the pins, and start-up goes on from step 4. -/
def execResetNDeasserted (avs : Bool) (s : State) : Host.Outcome State Fault Refusal :=
  .next (
    let s := { s with svc := { s.svc with resetN := true, tap := { s.svc.tap with drives := 0 } } }
    if s.svc.pwrgood && !s.svc.tripped && s.rd .a SVC.SVC_STATE.PHASE == 3 then s.startDies avs else s)

/-- FM_CMD DEVICE_RESET written, by a function or by an OOB or MGT requester. -/
def State.fmResetGo (s : State) (rq : Requester) (avs : Bool) : State :=
  if s.on .a FM.FM_STATUS.BUSY then (s.wr .a FM.FM_CMD.OP 6).wr .a FM.FM_STATUS.GO_REJECT 1
  else s.warmReset (match rq with | .fn _ => SVC.RESET_CAUSE.FM_CMD | _ => SVC.RESET_CAUSE.OOB) avs

/-- DEVICE_RESET (16_faults.md R524). -/
def execDeviceReset (rq : Requester) (avs : Bool) (s : State) : Host.Outcome State Fault Refusal :=
  .next (s.asWarden rq .a FM.FM_CMD.OP.off (fun s => s.fmResetGo rq avs))

end Sys2Proof.Machine
end

