-- ==== Sys2Proof/Machine/RegView.lean ====
section
/-! DEFINITION. What a register read returns (03_register_model.md R70 to R84, R88 to R91; 18_counters.md R554): which fields stand at
an offset, and the fields that show other state than a stored value. -/

namespace Sys2Proof.Machine

/-! ## The registers of a die window (R70, R71) -/

/-- LLU and LNE pages, by their offset in the window. -/
def pageOf (base size a : Nat) : Nat := (a - base) / size

/-- The XLU's command channels lie at 0x100 + 0x80c of the block (07_translation.md R219). -/
def rowsXluAll (o : Nat) : List Row :=
  if 0x100 ≤ o ∧ o < 0x280 then rowsXLUCh ((o - 0x100) / 0x80) ((o - 0x100) % 0x80) else rowsXLU o

/-- RTB pages: registers, route tables, group-status view (12_routing.md R406 to R409). -/
def rowsRtbAll (o : Nat) : List Row :=
  if 0xC000 ≤ o ∧ o < 0xC400 then rowsRTBGs ((o - 0xC000) / 0x20) ((o - 0xC000) % 0x20 / 0x10) ((o - 0xC000) % 0x10)
  else if 0x4000 ≤ o then rowsRTBTables o else rowsRTB o

/-- Entry number and offset of a table whose entry 0 lies at `first` and entry k + 1 from 0x10_0000 on. -/
def entryAt (first o : Nat) : Option (Nat × Nat) :=
  if first ≤ o ∧ o < first + 0x40 then some (0, o - first)
  else if 0x100000 ≤ o ∧ o < 0x200000 ∧ o % 0x4000 < 0x1000 then
    some ((o - 0x100000) / 0x4000 * 64 + o % 0x4000 / 0x40 + 1, o % 0x40)
  else none

/-- A field of polder 0's PC_CTRL is RO (18_counters.md R562). -/
def asRo (r : Row) : Row := { r with acc := .ro }

/-- The rows of a register at window offset `a`, its view bits clear. Entries of the sluice and of the polder counters that the
die's polder table does not have, and ports that the grouping does not have, are reserved. -/
def State.rowsAt (s : State) (d : Die) (a : Nat) : List Row :=
  let hdr := fun (b : Nat) (l : Nat → List Row) => if a - b < 0x20 then rowsHDR b (a - b) else l (a - b)
  if a < 0x100000 then (match d with | .a => rowsGLB a ++ rowsFM a | .b => [])
  else if a < 0x180000 then (match d with | .a => rowsSVC (a - 0x100000) | .b => [])
  else if a < 0x200000 then (match d with | .a => rowsIMS (a - 0x180000) | .b => [])
  else if a < 0x400000 then hdr 0x200000 rowsDIKE
  else if a < 0x600000 then hdr 0x400000 rowsWQU
  else if a < 0x800000 then []
  else if a < 0xC00000 then hdr 0x800000 rowsXluAll
  else if a < 0x1000000 then hdr 0xC00000 rowsTMU
  else if a < 0x1400000 then hdr 0x1000000 (fun o => rowsTRU o ++ rowsRMA o ++ rowsLEAF o)
  else if a < 0x1800000 then hdr 0x1400000 rowsQDU
  else if a < 0x2000000 then hdr 0x1800000 rowsRtbAll
  else if a < 0x2800000 then hdr 0x2000000 (fun o => match entryAt 0x4020 o with
    | some (i, r) => if i ≤ s.rd d DIKE.PT_CAPACITY.ENTRIES then rowsSL i r else []
    | none => rowsSWC o)
  else if a < 0x3000000 then
    let i := pageOf 0x2800000 0x10000 a
    if i < s.portsPerDie then hdr (0x2800000 + 0x10000 * i) (rowsLLU i) else []
  else if a < 0x3800000 then
    let n := pageOf 0x3000000 0x4000 a
    if n < 64 then hdr (0x3000000 + 0x4000 * n) (rowsLNE n) else []
  else if a < 0x3C00000 then hdr 0x3800000 (fun o => match entryAt 0xC000 o with
    | some (0, r) => (rowsPCUPc 0 r).map asRo
    | some (k + 1, r) => if k + 1 ≤ s.rd d DIKE.PT_CAPACITY.ENTRIES then rowsPCUPc (k + 1) r else []
    | none => rowsPCU o)
  else if a < 0x3E00000 then hdr 0x3C00000 rowsPWC
  else if a < 0x4000000 then hdr 0x3E00000 (fun o => rowsDMEM o ++ rowsHAG o)
  else []

/-- Offsets of a unit that the part may lack: the QDU's block and the HAG's page (R84; 05_host_ports.md R157). -/
def State.unitAbsent (s : State) (d : Die) (a : Nat) : Bool :=
  (decide (0x1400000 ≤ a ∧ a < 0x1800000) && !s.qduPresent d) || (decide (0x3E04000 ≤ a ∧ a < 0x3E05000) && !s.hagPresent d) ||
  (decide (0x3E00120 ≤ a ∧ a < 0x3E00140) && !s.stackPresent d 1)

/-! ## Values that are not stored -/

/-- TYPE of a block header (R85). -/
def blockType (b : Nat) : Nat :=
  if b = 0x200000 then 2 else if b = 0x400000 then 3 else if b = 0x800000 then 4 else if b = 0xC00000 then 5
  else if b = 0x1000000 then 6 else if b = 0x1400000 then 7 else if b = 0x1800000 then 8 else if b = 0x2000000 then 9
  else if b < 0x3000000 then 0xA else if b < 0x3800000 then 0xB else if b = 0x3800000 then 0xC else if b = 0x3C00000 then 0xD else 0xE

/-- INSTANCE: the die, or the index of a page (R85). -/
def blockInstance (d : Die) (b : Nat) : Nat :=
  if 0x2800000 ≤ b ∧ b < 0x3000000 then pageOf 0x2800000 0x10000 b
  else if 0x3000000 ≤ b ∧ b < 0x3800000 then pageOf 0x3000000 0x4000 b else d.num

/-- The base of the block or page that begins with a header and holds offset `a`, where there is one. -/
def headerOf (a : Nat) : Option Nat :=
  if a < 0x200000 then none
  else if a < 0x400000 then some 0x200000 else if a < 0x600000 then some 0x400000
  else if a < 0x800000 then none
  else if a < 0xC00000 then some 0x800000 else if a < 0x1000000 then some 0xC00000 else if a < 0x1400000 then some 0x1000000
  else if a < 0x1800000 then some 0x1400000 else if a < 0x2000000 then some 0x1800000 else if a < 0x2800000 then some 0x2000000
  else if a < 0x3000000 then some (0x2800000 + 0x10000 * pageOf 0x2800000 0x10000 a)
  else if a < 0x3800000 then some (0x3000000 + 0x4000 * pageOf 0x3000000 0x4000 a)
  else if a < 0x3C00000 then some 0x3800000 else if a < 0x3E00000 then some 0x3C00000 else some 0x3E00000

/-- Units stored in the basin of a network, or in the VC minimums (13_switch_core.md R445). -/
def State.storedUnits (s : State) (d : Die) (vn : Option Nat) (basin : Bool) : Nat :=
  ((s.swc d).ins.map (fun p => if vn = none ∨ vn = some (keyVn p.1) then (p.2.map (fun q => (q.basin.filter (· == basin)).length)).sum else 0)).sum

/-- Ports of the switch core that a crossbar port is (13_switch_core.md R447). -/
def State.xpKeys (s : State) (k : Nat) : List Nat := if k < 32 then (if s.lanesPerPort = 1 then [2 * k, 2 * k + 1] else [2 * k]) else [64 + (k - 32)]

def State.xpWaiting (s : State) (d : Die) (k : Nat) : Nat :=
  ((s.xpKeys k).map (fun p => s.outUnits d p (fun v => v / 8 != vMGT))).sum

/-- Credits that a port holds as a sender on a channel (14_link_layer.md R461). -/
def State.creditHeld (s : State) (d : Die) (i ch : Nat) : Nat :=
  if ch < 12 then nget (s.swc d).ded (vcKey (s.portKey i (ch % 3)) (ch / 3) (ch % 3)) else nget (s.swc d).shr (s.portKey i (ch - 12))

/-- The group status of a router's half (12_routing.md R409). -/
def State.peerOf (s : State) (d : Die) (r h : Nat) : Option PeerStatus := tget (s.rtb d).peers (2 * r + h)

/-- The domain of an island, none for the spine and the always-on islands (17_power.md R541). -/
def islandDom (j : Nat) : Option Nat :=
  if j < 16 then some j else if j < 48 then some ((j - 16) / 2) else if 52 ≤ j ∧ j < 60 then some (16 + (j - 52))
  else if 68 ≤ j ∧ j < 72 then some (24 + (j - 68) / 2) else if j = 73 then some 28 else if j = 78 then some 26 else if j = 79 then some 27
  else if j = 80 then some 29 else if 81 ≤ j ∧ j < 85 then some 31 else if 85 ≤ j ∧ j < 102 then some 30 else none

/-- An island of an absent stack (17_power.md R541). -/
def State.islandAbsent (s : State) (d : Die) (j : Nat) : Bool := (j == 83 || j == 84) && !s.stackPresent d 1

/-- Credit of a shaper in bytes, as it stands now: credits are kept in units of 1/8,000 byte (13_switch_core.md R443). -/
def State.shapeCredit (s : State) (d : Die) (e : Nat) : Int :=
  let m := (tget (s.sluice d).meters e).getD meter0
  min ((max 4160 (s.rd d (SL.SHAPE_BURST.BYTES e)) * 8000 : Nat) : Int) (m.credit + (s.rd d (SL.SHAPE_RATE.MBPS e) * (s.now - m.creditAt) : Nat)) / 8000

/-- A polder's packet waits in the sluice. -/
def State.slBacklog (s : State) (d : Die) (e : Nat) : Bool :=
  (s.sluice d).waiting.any (fun w => s.polderEnt d w.pkt.polder == some e)

/-- GLB registers that show the device or the reader (R88, R89). -/
def State.showGlb (s : State) (rq : Requester) (f : Fld) : Nat :=
  if f.off = 0x0 then (if f.lo = 16 then partNum s.part else if f.lo = 20 then s.stepping % 256 else f.rst)
  else if f.off = 0x8 then s.serial % 2 ^ 64
  else if f.off = 0x10 then s.serial / 2 ^ 64 % 2 ^ 64
  else if f.off = 0x18 then bitsOf s.present f.lo f.w
  else if f.off = 0x20 then s.unitEnabled
  else if f.off = 0x28 then (match rq with
    | .fn g => if f.lo = 0 then b2n (s.isWarden g) else if f.lo = 8 then g.fn.val else if f.lo = 16 then g.hp.val else 0
    | _ => if f.lo = 1 then 1 else 0)
  else s.rd .a f

/-- WQU, XLU and TMU registers that show the use of their tables (06_work_queues.md R194, R195; 07_translation.md R218; 08_matching.md R264). -/
def State.showUse1 (s : State) (d : Die) (f : Fld) : Nat :=
  let x := s.die d
  let t := x.tmu
  if f = DIKE.PT_CAPACITY.USED then x.polders.length
  else if f = WQU.QSC.ENTRIES then 1024 * s.wquBanks d 0
  else if f = WQU.QSC.USED then s.qscUsed d
  else if f = WQU.CTR_CACHE.ENTRIES then 1024 * s.wquBanks d 1
  else if f = WQU.CTR_CACHE.USED then s.ctrUsed d
  else if f = WQU.TRIG_TABLE.USED then x.trig.length
  else if f = WQU.PREFETCH.SLOTS then 1024 * s.wquBanks d 2
  else if f = WQU.PREFETCH.USED then s.pfUsed d
  else if f = WQU.POLLED.COUNT then s.polledOn d
  else if f = XLU.TLB_CAP.USED then x.xlu.tlb.length
  else if f = XLU.REGIONS.USED then (x.xlu.regions.filter (fun r => r.2.live)).length
  else if f = XLU.SPACES.USED then x.xlu.spaces.length
  else if f = TMU.POSTED.TOTAL then s.postedCount d none
  else if f = TMU.POSTED.ONCHIP then ((t.ents.filter (fun e => e.posted)).map (fun e => b2n e.onchip + e.kept.length)).sum
  else if f = TMU.UNEXPECTED.DESCRIPTORS then s.uxCount d none (fun _ => 1)
  else if f = TMU.UNEXPECTED.GRANULES then s.uxCount d none (fun u => u.granules.length)
  else if f = TMU.WILDCARD.ONCHIP then (t.ents.filter (fun e => e.wild && e.onchip)).length
  else if f = TMU.REHASH_STATUS.ACTIVE then b2n t.rehash
  else if f = TMU.REHASH_STATUS.LIVE_TABLE then b2n t.live
  else if f = TMU.REHASH_STATUS.REMAINING then (if t.rehash then (liveEnts t).length else 0)
  else if 0x410000 ≤ f.off ∧ f.off < 0x411000 then
    let n := (f.off - 0x410000) / 8
    let g : Fn := ⟨⟨(2 * d.num + n / 256) % 4, Nat.mod_lt _ (by decide)⟩, ⟨n % 256, Nat.mod_lt _ (by decide)⟩⟩
    if f.lo = 0 then s.fnSets g else (s.queues.filter (fun q => setFn (q.1 / 8) == g)).length
  else s.rd d f

/-- RMA, TRU and QDU registers that show the use of their tables (09_remote_access.md R294; 10_transport.md R333; 11_collectives.md R371, R372). -/
def State.showUse2 (s : State) (d : Die) (f : Fld) : Nat :=
  let x := s.die d
  if f = RMA.FLAG_HOLD.USED then s.flagUsed d
  else if f = RMA.NOTIFY_RES.USED then x.rma.res.length
  else if f = RMA.ATOMIC_UNIT.USED then x.rma.atomics.length
  else if f = RMA.CHUNKS_OUT.COUNT then ((s.ops.filter (fun o => setDie (o.2.q / 8) == d)).map (fun o => o.2.out.length)).sum
  else if f = TRU.CTX_CACHE.USED then s.ctxCached d
  else if f = TRU.CTX_CACHE.PINNED then (x.tru.ctxs.filter (fun c => c.2.cached && !s.evictable d c.2)).length
  else if f = TRU.CTX_STORE.LIVE then x.tru.ctxs.length
  else if f = TRU.TRACKERS.USED then s.trackersUsed d
  else if f = TRU.SEND_DESC.USED then (x.tru.ctxs.map (fun c => c.2.descs.length)).sum
  else if f = TRU.REORDER.USED then s.reorderUsed d
  else if f = TRU.RECORDS.USED then s.recordsUsed d
  else if f = QDU.RECORDS.USED then (s.servedBy d).length
  else if f = QDU.SLOTS.RESERVED then s.slotsReserved d
  else if f = QDU.SLOTS.BORROWED then s.slotsBorrowed d
  else if f = QDU.PENDING_JOINS.USED then x.joins.length
  else if f = QDU.QDU_STATUS.TAKEN_OVER then ((s.servedBy d).filter (·.moved)).length
  else if f = LEAF.LEAF_RECORDS.USED then (x.members.filter (fun m => isLeaf m.2)).length
  else s.rd d f

/-- The group-status view and the switch core's fill (12_routing.md R409; 13_switch_core.md R445 to R447). -/
def State.showSwc (s : State) (d : Die) (f : Fld) : Nat :=
  let x := s.swc d
  if 0x180C000 ≤ f.off ∧ f.off < 0x180C400 then
    let o := f.off - 0x180C000
    match s.peerOf d (o / 0x20) (o % 0x20 / 0x10) with
    | none => 0
    | some p =>
      if o % 0x10 = 0 then (if f.lo = 0 then p.globalLive else p.localLive)
      else if f.lo = 0 then min (2 ^ 24 - 1) (s.now - p.at_)
      else if f.lo = 24 then p.half else if f.lo = 32 then p.seq % 2 ^ 16
      else if f.lo = 48 then 1 else b2n (!s.peerFresh d p)
  else if f = SWC.BASIN.USED then s.storedUnits d none true
  else if 0x2000030 ≤ f.off ∧ f.off < 0x2000050 ∧ f.lo = 32 then s.storedUnits d (some ((f.off - 0x2000030) / 8)) true
  else if f = SWC.GRANTS.RESERVED then x.reserved
  else if f = SWC.GRANTS.WITHHELD then x.withheld.length
  else if f = SWC.MIN_STORE.USED then s.storedUnits d none false
  else if f = SWC.SLUICE_STATUS.THROTTLED then b2n (s.sluice d).throttledReq + 2 * b2n (s.sluice d).throttledCol
  else if f = SWC.SLUICE_STATUS.ACTIVE_SOURCES then ((s.sluice d).stags.filter (fun t => t.2.backlog)).length
  else if f = SWC.SLUICE_STATUS.INJ_BUF_USED then s.injUsed d
  else if 0x2008000 ≤ f.off ∧ f.off < 0x2008180 then
    let k := (f.off - 0x2008000) / 8
    if f.lo = 0 then s.xpWaiting d k else if f.lo = 24 then min 63 (s.xpWaiting d k / 256) else s.rd d f
  else match entryAt 0x4020 (f.off - 0x2000000) with
    | some (e, 0x38) => if f.lo = 0 then (s.shapeCredit d e % 2 ^ 32).toNat else b2n (s.slBacklog d e)
    | _ => s.rd d f

/-- LLU fields that follow the port (14_link_layer.md R475). -/
def State.showLlu (s : State) (d : Die) (f : Fld) : Nat :=
  let i := pageOf 0x2800000 0x10000 f.off
  let o := (f.off - 0x2800000) % 0x10000
  let l := s.llu d i
  if o = 0x20 ∧ f.lo = 3 then b2n (s.portLive d i)
  else if o = 0x60 ∧ f.lo = 16 then l.buf.length
  else if o = 0xC8 then
    if f.lo = 0 then min 31 (l.fails.filter (fun t => s.now < t + 60000000000)).length
    else if s.linkSt d i = lsACTIVE ∨ l.started = false then 0 else min 1023 ((s.now - l.downAt) / 1000000)
  else if 0x100 ≤ o ∧ o < 0x170 ∧ f.lo = 0 then s.creditHeld d i ((o - 0x100) / 8)
  else s.rd d f

/-- PWC and PCU fields that follow time and the domains (17_power.md R546; 18_counters.md R561). -/
def State.showTime (s : State) (d : Die) (f : Fld) : Nat :=
  if 0x3C04000 ≤ f.off ∧ f.off < 0x3C04400 ∧ f.off % 0x20 = 8 ∧ f.lo = 32 then
    match (s.dom d ((f.off - 0x3C04000) / 0x20)).idleAt with
    | some t => min (2 ^ 24 - 1) ((s.now - t) / 1000)
    | none => 0
  else if 0x3C08000 ≤ f.off ∧ f.off < 0x3C08350 then
    let j := (f.off - 0x3C08000) / 8
    if f.lo = 0 then f.rst
    else match islandDom j with
      | none => if f.lo = 16 then s.rd d f else 1
      | some i =>
        if f.lo = 16 then b2n (s.islandAbsent d j || decide (1 ≤ s.domSt d i))
        else if j < 16 then b2n ((s.die d).plls.contains j)
        else b2n (!s.islandAbsent d j && decide (s.domSt d i ≤ 1))
  else if f = PCU.FT_NOW.TIME then s.ftNow d
  else if f = PCU.WINDOW_STATE.NUMBER then (if s.pcuOn d then (s.win d).startFt / s.windowNs d else 0)
  else if f = PCU.WINDOW_STATE.PARTIAL then b2n (s.pcuOn d && s.winPartial d)
  else s.rd d f

/-- DMEM and HAG fields (05_host_ports.md R156, R157). -/
def State.showMem (s : State) (d : Die) (f : Fld) : Nat :=
  if f = DMEM.DMEM_CFG.STACKS then b2n (s.stackPresent d 0) + 2 * b2n (s.stackPresent d 1)
  else if f = DMEM.DMEM_CFG.PCH then (if s.stackPresent d 1 then 64 else 32)
  else if f = DMEM.DMEM_RANGE.BASE_PAGE then d.num * dieSpan s.part / 2 ^ 21
  else if f = DMEM.DMEM_RANGE.REGION_PAGE then s.regionBase d / 2 ^ 21
  else if f = DMEM.HOLD_USED.STACK0 then s.slotsUsed d 0
  else if f = DMEM.HOLD_USED.STACK1 then s.slotsUsed d 1
  else if f = HAG.SF_USED.LINES then (s.hag d).filter.length
  else if f = HAG.TRACKERS.USED then (s.hag d).trackers.length
  else s.rd d f

/-- The value of a register field as a reader sees it, before privilege. -/
def State.show_ (s : State) (rq : Requester) (d : Die) (f : Fld) : Nat :=
  if f.off < 0x100 then s.showGlb rq f
  else if f.off < 0x100000 then s.rd d f
  else if f = SVC.SVC_ID.FW_VERSION then Config.svcId (2 * s.stepping) % 2 ^ 16
  else if f = SVC.SVC_ID.ROM_VERSION then Config.svcId (2 * s.stepping + 1) % 2 ^ 16
  else if f = IMS.LEASE.REMAIN_MS then (if s.rd .a IMS.TOKEN.OWNER_CLASS = 0 then 0 else (s.ims.leaseEnd - s.now) / 1000000)
  else if f.off < 0x200000 then s.rd d f
  else if headerOf f.off = some f.off then (if f.lo = 0 then blockType f.off else if f.lo = 8 then blockInstance d f.off else f.rst)
  else if f.off < 0x1000000 then s.showUse1 d f
  else if f.off < 0x1800000 then s.showUse2 d f
  else if f.off < 0x2800000 then s.showSwc d f
  else if f.off < 0x3000000 then s.showLlu d f
  else if f.off < 0x3800000 then s.rd d f
  else if f.off < 0x3E00000 then s.showTime d f
  else s.showMem d f

/-! ## Reads -/

/-- A requester has a warden's rights on a register: in the IMS block, those of R58 too. -/
def State.privAt (s : State) (rq : Requester) (a : Nat) : Bool :=
  if 0x180000 ≤ a ∧ a < 0x200000 then s.imsPrivileged rq else s.privileged rq

/-- A field as a reader sees it: protected fields read zero without privilege, and self-clearing bits are never stored as 1 (R81). -/
def State.readField (s : State) (rq : Requester) (d : Die) (a : Nat) (r : Row) : Nat :=
  if (r.acc = .rww ∨ r.acc = .row) ∧ !s.privAt rq a then 0 else s.show_ rq d r.fld

/-- The 64 bits of a register. -/
def State.readReg (s : State) (rq : Requester) (d : Die) (a : Nat) : Nat :=
  if s.unitAbsent d a then 0
  else (s.rowsAt d a).foldl (fun n r => n + s.readField rq d a r % 2 ^ r.fld.w * 2 ^ r.fld.lo) 0

/-- A window offset with its view bits clear, and its view (R73). -/
def unview (o : Nat) : Nat := o / 0x4000 * 0x4000 + o % 0x1000
def viewOf (o : Nat) : Nat := o / 0x1000 % 4

/-- Accesses of 4 or 8 bytes, naturally aligned (R76). -/
def goodAccess (off size : Nat) : Bool := (size == 4 || size == 8) && off % size == 0

def accessDie (off : Nat) : Die := if off < 0x4000000 then .a else .b

/-- The function page sets lie in 0x60_0000 to 0x7F_FFFF of each window (R72). -/
def inPageSets (o : Nat) : Bool := decide (0x600000 ≤ o ∧ o < 0x800000)
def pageSetPort (off : Nat) : Fin 4 := ⟨(2 * (accessDie off).num + (off % 0x4000000 - 0x600000) / 0x100000) % 4, Nat.mod_lt _ (by decide)⟩

/-- Registers of a function page set at offset `o`: of its doorbell pages (06_work_queues.md R191). -/
def inDoorbells (o : Nat) : Bool := decide (o < 0x80000)

/-- Polder counter view page (18_counters.md R554): the 64 bits at offset `o`. -/
def State.viewPage (s : State) (f : Fn) (o : Nat) : Nat :=
  let d := fnDie f
  let p := s.polderOf f
  let e := match p with | some id => s.polderEnt d id | none => none
  let w := s.win d
  let open_ := match e with
    | some k => s.isWarden f || s.on d (PCU.PC_CTRL.VIEW k)
    | none => false
  let live := fun (m : Nat) => match e with | some k => if open_ then s.rd d (PCU.PC_CTR.COUNT k m) else 0 | none => 0
  let latched := fun (m : Nat) => match e with | some k => if open_ then nget w.vCounts (6 * k + m) else 0 | none => 0
  if o = 0 then s.ftNow d
  else if o = 0x8 then b2n open_ + 2 * s.rd d PCU.FT_STATUS.LOCKED + 256 * p.getD 0
  else if 0x20 ≤ o ∧ o < 0x50 then live ((o - 0x20) / 8)
  else if o = 0x60 ∨ o = 0xA8 then w.vSeq
  else if o = 0x68 then w.vStart
  else if o = 0x70 then w.vDur % 2 ^ 48 + w.vFlags % 2 ^ 16 * 2 ^ 48
  else if 0x78 ≤ o ∧ o < 0xA8 then latched ((o - 0x78) / 8)
  else 0

/-- A page of a queue set (06_work_queues.md R191, R192): the 64 bits at offset `o` of its doorbell page or control page. -/
def State.setPage (s : State) (sk : Nat) (control : Bool) (o : Nat) : Nat :=
  if !control then
    (if 0xC0 ≤ o ∧ o < 0xE0 then (match s.ring (ringKey sk ((o - 0xC0) / 8)) with | some r => r.consumed % 2 ^ 32 | none => 0) else 0)
  else
    let q := s.qc sk
    if o = 0 then q.context
    else if o = 0x8 then q.op + 16 * q.target + 256 * q.mask
    else if o = 0x10 then b2n q.busy + 2 * b2n q.done + 4 * b2n q.goReject + 8 * b2n q.cfgReject + 256 * q.code + 65536 * q.detail
    else if o = 0x18 then q.slot
    else if 0x20 ≤ o ∧ o < 0x60 then (match s.queue (qKey sk ((o - 0x20) / 8)) with
      | some w => (match w.st with | .reset => 0 | .ready => 1 | .active => 2 | .draining => 3 | .error => 4) + 8 * b2n w.flushDone +
          16 * w.type + 256 * w.errStatus
      | none => 0)
    else if 0x60 ≤ o ∧ o < 0xA0 then (match s.queue (qKey sk ((o - 0x60) / 8)) with | some w => w.errWorkId + w.errIndex * 2 ^ 32 | none => 0)
    else if 0x100 ≤ o ∧ o < 0x280 then
      let c := s.counter (ctrKey sk (o % 0x80 / 8))
      (if o < 0x180 then c.count else if o < 0x200 then c.tally else c.fail).toNat
    else if 0x280 ≤ o ∧ o < 0x2A0 then (match s.ring (ringKey sk ((o - 0x280) / 8)) with | some r => 1 + 256 * ringFree r | none => 0)
    else 0

/-- A function page set (R90, R91): the 64 bits at offset `o`. -/
def State.readPage (s : State) (f : Fn) (o : Nat) : Nat :=
  if !s.hpPresent f.hp.val then 0
  else if o < 0x80000 then (if o / 0x1000 < s.fnSets f then s.setPage (setKey f (o / 0x1000)) false (o % 0x1000) else 0)
  else if o < 0xC0000 then (if (o - 0x80000) / 0x800 < s.fnSets f then s.setPage (setKey f ((o - 0x80000) / 0x800)) true (o % 0x800) else 0)
  else if o < 0xC1000 then s.viewPage f (o - 0xC0000)
  else if o = 0xC1000 then f.fn.val + 256 * f.hp.val + 65536 * partNum s.part
  else if o = 0xC1008 then s.present
  else if o = 0xC1010 then s.unitEnabled
  else if o = 0xC1018 then 8 * s.fnSets f
  else 0

/-- What an aligned access of 4 or 8 bytes takes of a 64-bit register; any other reads zero (R76). -/
def partOf (off size word : Nat) : Nat :=
  if !goodAccess off size then 0 else if size = 8 then word else word / 2 ^ (8 * (off % 8)) % 2 ^ 32

/-- What a read of PF BAR0 returns (R72, R76, R81, R83, R84). -/
def State.readBar0 (s : State) (rq : Requester) (off size : Nat) : Nat :=
  let d := accessDie off
  let o := off % 0x4000000
  let word :=
    if inPageSets o then (match rq with
      | .fn f => if f.hp = pageSetPort off ∧ f.fn.val = 0 then s.readPage f (o % 0x100000 / 8 * 8) else 0
      | _ => 0)
    else s.readReg rq d (unview o / 8 * 8)
  partOf off size word

end Sys2Proof.Machine
end

