-- ==== Sys2Proof/Machine/Mailbox.lean ====
section
/-! DEFINITION. The persistent settings and the SVC mailbox (19_startup.md R571 to R573, R575, R578). -/

namespace Sys2Proof.Machine

/-! ## Persistent settings -/

/-- The settings that exist (R571). -/
def settingKnown (i : Nat) : Bool := decide (i ≤ 11 ∨ (16 ≤ i ∧ i ≤ 21) ∨ i = 24 ∨ i = 25)

/-- 7-bit addresses from 0x08 to 0x77 that I3C reserves. PRESUMED from I3C Basic (log entry 31). -/
def i3cReserved (a : Nat) : Bool := [0x3E, 0x5E, 0x6E, 0x76].contains a

/-- A value lies in the range of its setting (R571). -/
def settingOk (i v : Nat) : Bool :=
  if i ≤ 3 then decide (v ≤ 2)
  else if i ≤ 7 then decide (v ≤ 255)
  else if i ≤ 11 then decide (1 ≤ v ∧ v ≤ 7)
  else if i = 16 then decide (v ≤ 1)
  else if i = 17 then decide (v < 2 ^ 38 ∧ v / 2 ^ 32 ≤ 32)
  else if i = 18 ∨ i = 19 then decide (v < 2 ^ 64)
  else if i = 20 then decide (v ≤ 128)
  else if i = 21 then decide (v ≤ 4094)
  else if i = 24 then decide (8 ≤ v ∧ v ≤ 0x77) && !i3cReserved v
  else decide (i = 25 ∧ v < 2 ^ 32 ∧ v / 2 ^ 24 % 2 ^ 7 = 0)

/-- The generation of a copy. -/
def copyGen (c : Option (Nat × Nat)) : Nat := match c with | some (g, _) => g | none => 0

/-- Write a setting: to an invalid copy, or to that of the lower generation. A writing that is cut off after `n` of the copy's eight
words leaves it invalid, since the CRC is written last, and the other copy as it was (R573). -/
def State.putSetting (s : State) (i v : Nat) (cutAt : Option (Fin 8)) : State :=
  let c := (tget s.svc.settings i).getD ⟨none, none⟩
  let g := max (copyGen c.c0) (copyGen c.c1) + 1
  let first := c.c0.isNone || (c.c1.isSome && copyGen c.c0 < copyGen c.c1)
  let put := fun (x : Option (Nat × Nat)) => { s with svc := { s.svc with settings := tput s.svc.settings i (if first then { c with c0 := x } else { c with c1 := x }) } }
  match cutAt with
  | none => put (some (g, v))
  | some n => if n.val = 0 then s else put none

/-- How the writing of a setting is cut off: after some words, by a word that reads back otherwise (`true`), or by a loss of power or a
reset (`false`). -/
abbrev SettingCut := Option (Fin 8 × Bool)

/-- The word that reads back otherwise has been written. -/
def cutWords (c : SettingCut) : Option (Fin 8) := c.map (fun x => if x.2 then ⟨min 7 (x.1.val + 1), by omega⟩ else x.1)

/-! ## Mailbox commands (R575) -/

def mbARG : Nat := 1
def mbNO_RESPONSE : Nat := 2
def mbREMOTE : Nat := 3
def mbVERIFY : Nat := 4

def State.mbEnd (s : State) (code detail : Nat) : State :=
  s.wrs .a [(SVC.MB_STATUS.BUSY, 0), (SVC.MB_STATUS.DONE, 1), (SVC.MB_STATUS.CODE, code), (SVC.MB_STATUS.DETAIL, detail)]

/-- Write MB_CMD with GO = 1: while BUSY it is ignored. -/
def State.mbCommand (s : State) (op : Nat) (act : State → State) : State :=
  if s.on .a SVC.MB_STATUS.BUSY then s.wr .a SVC.MB_STATUS.GO_REJECT 1 else act (s.wr .a SVC.MB_CMD.OP op)

/-- The first `n` bytes of the mailbox buffer. -/
def State.mbBytes (s : State) (n : Nat) : List Byte :=
  ((List.range (ceilDiv n 8)).flatMap (fun k => leBytes 8 (s.rd .a (SVC.MB_DATA.DATA k)))).take n

/-- SEND_MGT: the request in MB_DATA goes out, and the command runs until its response or the last retry. -/
def State.sendMgtGo (s : State) : State :=
  s.mbCommand 1 (fun s =>
    let n := s.rd .a SVC.MB_ARG1.ARG
    if n < 64 ∨ 4096 < n then s.mbEnd stFORMAT mbARG
    else
      let b := leBytes 1 1 ++ (s.mbBytes n).drop 1
      let dest := bitsOf (s.rd .a SVC.MB_ARG0.ARG) 0 24
      let r : MgtReq := { id := leNat ((b.drop 4).take 4), dest := dest, bytes := b, sentAt := s.now, retries := 0 }
      ({ s.wr .a SVC.MB_STATUS.BUSY 1 with svc := { s.svc with request := some r } }).sendMgt .a dest b)

/-- SEND_MGT (R575). -/
def execSendMgt (rq : Requester) (s : State) : Host.Outcome State Fault Refusal :=
  .next (s.asWarden rq .a SVC.MB_CMD.OP.off State.sendMgtGo)

/-- GET_SETTING. -/
def State.getSettingGo (s : State) : State :=
  s.mbCommand 2 (fun s =>
    let i := s.rd .a SVC.MB_ARG0.ARG
    if settingKnown i then (s.wr .a SVC.MB_RESULT.VALUE (s.setting i)).mbEnd stOK 0 else s.mbEnd stFORMAT mbARG)

/-- The rule of SET_SETTING for a requester: the token, then the range (R572). A command of a requester renews its lease (R54). -/
def State.setSetting (s : State) (rq : Requester) (i v : Nat) (stop : SettingCut) : State × Nat :=
  if !s.mayHold rq then (s, stIMS_BUSY)
  else if !(settingKnown i && settingOk i v) then (s.lease rq, stFORMAT)
  else ((s.lease rq).putSetting i v (cutWords stop), stOK)

/-- SET_SETTING: cut off by a loss of power, it runs until the reset that follows. -/
def State.setSettingGo (s : State) (rq : Requester) (stop : SettingCut) : State :=
  s.mbCommand 3 (fun s =>
    let (t, code) := s.setSetting rq (s.rd .a SVC.MB_ARG0.ARG) (s.rd .a SVC.MB_ARG1.ARG) stop
    if code = stIMS_BUSY then t.mbEnd stIMS_BUSY 0
    else if code = stFORMAT then t.mbEnd stFORMAT mbARG
    else match stop with
      | none => t.mbEnd stOK 0
      | some (_, true) => t.mbEnd stFORMAT mbVERIFY
      | some (_, false) => t.wr .a SVC.MB_STATUS.BUSY 1)

/-- A write of MB_CMD with GO = 1 and any OP. -/
def State.mbGo (s : State) (rq : Requester) (op : Nat) : State :=
  match op with
  | 1 => s.sendMgtGo
  | 2 => s.getSettingGo
  | 3 => s.setSettingGo rq none
  | _ => s.mbCommand op (fun s => s.mbEnd stFORMAT mbARG)

/-! ## The outstanding request (R578) -/

/-- The head of the SVC's receive queue, where it has a TYPE. -/
def State.inboxHead (s : State) (type : Nat) : Option Pkt :=
  match s.svc.inbox with
  | p :: _ => if leNat (p.data.take 1) = type then some p else none
  | [] => none

def State.popInbox (s : State) : State := { s with svc := { s.svc with inbox := s.svc.inbox.drop 1 } }

/-- Bytes into the mailbox buffer. -/
def State.putMb (s : State) (b : List Byte) : State :=
  (List.range (ceilDiv b.length 8)).foldl (fun s k => s.wr .a (SVC.MB_DATA.DATA k) (leNat ((b.drop (8 * k)).take 8))) s

/-- MGT_RESPONSE: the RESPONSE at the head of the receive queue ends the SEND_MGT that waits for it; any other is discarded. -/
def execMgtResponse (s : State) : Host.Outcome State Fault Refusal :=
  .next (match s.inboxHead 2 with
    | none => s
    | some p =>
      let s := s.popInbox
      let b := pktData p
      let status := leNat ((b.drop 3).take 1)
      match s.svc.request with
      | none => s
      | some r =>
        if leNat ((b.drop 4).take 4) ≠ r.id ∨ feaGroup p.src ≠ feaGroup r.dest ∨ feaRouter p.src ≠ feaRouter r.dest then s
        else
          let s := ({ s with svc := { s.svc with request := none } }).putMb b
          let s := s.wr .a SVC.MB_RESULT.VALUE (b.length + status * 2 ^ 40)
          if status = 0 then s.mbEnd stOK 0 else s.mbEnd stFORMAT mbREMOTE)

/-- MGT_REQUEST_RETRY: 200 µs without a response; after 8 retransmissions the command ends. -/
def execMgtRequestRetry (s : State) : Host.Outcome State Fault Refusal :=
  .next (match s.svc.request with
    | none => s
    | some r =>
      if s.now < r.sentAt + us 200 then s
      else if 8 ≤ r.retries then ({ s with svc := { s.svc with request := none } }).mbEnd stFORMAT mbNO_RESPONSE
      else
        let s := { s with svc := { s.svc with request := some { r with sentAt := s.now, retries := r.retries + 1 } } }
        (s.bump .a SVC.MGT_RETRIES.COUNT).sendMgt .a r.dest r.bytes)

end Sys2Proof.Machine
end

