-- ==== Sys2Proof/Machine/RegBus.lean ====
section
/-! DEFINITION. Register writes (03_register_model.md R72 to R87): views, privilege, write-while-disabled, absent units, writes to
a domain that sleeps, CTRL.ENABLE and STATUS.ENABLED of every block, and the counter clears. -/

namespace Sys2Proof.Machine

/-- The state after a command that answers a next state. -/
def after (o : Host.Outcome State Fault Refusal) (s : State) : State := match o with | .next t => t | _ => s

/-! ## An access -/

/-- A write access that has reached its die's register hub: the register's offset in the window, its view, and the bytes written. -/
structure RegAccess where
  rq : Requester
  d : Die
  reg : Nat
  view : Nat
  /-- Offset in PF BAR0. -/
  off : Nat
  size : Nat
  data : Nat
  deriving DecidableEq, Repr

/-- Bits of a field that the access covers. -/
def RegAccess.mask (x : RegAccess) (f : Fld) : Nat := (2 ^ (8 * x.size) - 1) * 2 ^ (8 * (x.off % 8)) / 2 ^ f.lo % 2 ^ f.w

/-- Data that the access has for those bits. -/
def RegAccess.bits (x : RegAccess) (f : Fld) : Nat := x.data % 2 ^ (8 * x.size) * 2 ^ (8 * (x.off % 8)) / 2 ^ f.lo % 2 ^ f.w

/-- A field after a write of its bits `m` with data `v`, in a view (R73). -/
def viewed (view m v old : Nat) : Nat :=
  match view with
  | 0 => old - Nat.land old m + v
  | 1 => Nat.lor old v
  | 2 => old - Nat.land old v
  | _ => Nat.xor old v

/-- What the access would leave in a field. -/
def State.written (s : State) (x : RegAccess) (f : Fld) : Nat := viewed x.view (x.mask f) (x.bits f) (s.rd x.d f)

/-! ## Write-while-disabled (R86) -/

/-- A value lies in the range of a WD field. DUMP_SIZE of 0 stands for no dump (18_counters.md R553). -/
def inLimit (r : Row) (v : Nat) : Bool :=
  match r.lim with
  | .any => true
  | .range lo hi => (decide (lo ≤ v ∧ v ≤ hi)) || (r.fld == PCU.DUMP_SIZE.KIB && v == 0)

/-- RATE_MAX would be below RATE_MIN (10_transport.md R333). -/
def State.ratesCross (s : State) (x : RegAccess) : Bool :=
  x.reg == TRU.CC_RATES.RATE_MIN_GBPS.off &&
    decide (s.written x TRU.CC_RATES.RATE_MAX_GBPS < s.written x TRU.CC_RATES.RATE_MIN_GBPS)

/-- A write to these WD fields is refused. -/
def State.wdRefused (s : State) (x : RegAccess) (b : Nat) (wd : List Row) : Bool :=
  !wd.isEmpty && (s.on x.d (HDR.STATUS.ENABLED b) || wd.any (fun r => !inLimit r (s.written x r.fld)) || s.ratesCross x)

/-- A refusal is recorded in the block's header. -/
def State.cfgReject (s : State) (d : Die) (b : Nat) : State := (s.wr d (HDR.STATUS.CFG_REJECT b) 1).bump d (HDR.CFG_REJECT_COUNT.COUNT b)

/-! ## CTRL.ENABLE and STATUS.ENABLED (R85, R87) -/

/-- Base of a block or page. -/
def blkBase : Blk → Nat
  | .dike => 0x200000
  | .wqu => 0x400000
  | .xlu => 0x800000
  | .tmu => 0xC00000
  | .tru => 0x1000000
  | .qdu => 0x1400000
  | .rtb => 0x1800000
  | .swc => 0x2000000
  | .pcu => 0x3800000
  | .pwc => 0x3C00000
  | .dmem => 0x3E00000
  | .llu i => lluBase i.val
  | .lne n => lneBase n.val

/-- A block or page exists on a die (R84). -/
def State.blkThere (s : State) (d : Die) (b : Blk) : Bool :=
  match b with
  | .qdu => s.qduPresent d
  | .llu i => decide (i.val < s.portsPerDie)
  | _ => true

/-- A port starts or stops being live (14_link_layer.md R475). -/
def State.portChange (s : State) (d : Die) (i : Nat) : State := s.when (s.linkSt d i == lsACTIVE) (fun s => s.liveChange)

/-- CTRL.ENABLE of a page of ports or lanes, and of the blocks that act on it at once. -/
def State.ctrlEffect (s : State) (d : Die) (b : Nat) (on : Bool) : State :=
  if 0x2800000 ≤ b ∧ b < 0x3000000 then
    let i := pageOf 0x2800000 0x10000 b
    (s.when on (fun s => s.portStart d i)).portChange d i
  else if 0x3000000 ≤ b ∧ b < 0x3800000 then s.when (!on) (fun s => s.laneOff d (pageOf 0x3000000 0x4000 b))
  else if b = 0x3C00000 then s.when (!on) (fun s => s.wakeAll d)
  else if b = 0x3800000 then s.when on (fun s => s.pcuStart d)
  else if b = 0x400000 then
    s.when on (fun s => ((s.queues.filter (fun q => setDie (q.1 / 8) == d)).map (·.1)).foldl (fun s k => s.advance k) s)
  else if b = 0x800000 then
    s.when (on && (s.xlu d).modeChanged) (fun s => s.modXlu d (fun x => { x with tlb := [], victim := [], walkCache := [], modeChanged := false }))
  else s

/-- Write CTRL.ENABLE of a block or page: a block that is enabled has entered that state at once, and one that is disabled begins to
drain. -/
def State.ctrlWrite (s : State) (d : Die) (b : Nat) (on : Bool) : State :=
  let was := s.on d (HDR.CTRL.ENABLE b)
  let s := s.wr d (HDR.CTRL.ENABLE b) (b2n on)
  let s := s.when on (fun s => s.wr d (HDR.STATUS.ENABLED b) 1)
  if was = on then s else s.ctrlEffect d b on

/-- CTRL_ENABLE_WRITE (R85). -/
def execCtrlEnableWrite (rq : Requester) (d : Die) (b : Blk) (on : Bool) (s : State) : Host.Outcome State Fault Refusal :=
  .next (if !s.barUp rq then s
    else if !s.blkThere d b then (if b = .qdu then s.bump .a GLB.ABSENT_ACCESS_COUNT.COUNT else s)
    else s.asWarden rq d (HDR.CTRL.ENABLE (blkBase b)).off (fun s => s.ctrlWrite d (blkBase b) on))

/-- No started entry of the die has a packet left to issue or unacknowledged (06_work_queues.md R194). One that only waits for an event
from a peer, or for its lookup, does not count. -/
def State.wquDrained (s : State) (d : Die) : Bool :=
  s.ops.all (fun p =>
    let o := p.2
    let c := eOpcode o.entry
    let chunks := decide (o.chunks < opChunks o) || (s.tmu d).pulls.any (fun x => x.op == p.1 && x.asked < x.total)
    let left := decide (0 < o.unacked) || !s.quadQuiet p.1 o || (o.force.isNone && o.err.isNone && chunks)
    setDie (o.q / 8) != d || !((o.stage == .started && (c == opTSEND || isRma c || isQuad c)) || (o.stage == .running && left)))

/-- No packet but MGT and TRU control packets remains in the injection buffer (13_switch_core.md R445). -/
def State.swcDrained (s : State) (d : Die) : Bool :=
  (s.sluice d).inj.all (fun p => p.2.all (fun q => q.1.vn == vMGT || isControl q.1.command))

/-- No packet holds an output VC of the port, and its replay buffer is empty (14_link_layer.md R475). -/
def State.lluDrained (s : State) (d : Die) (i : Nat) : Bool :=
  (s.swc d).owner.all (fun p => !(s.portKeys i).contains (p.1 / 32)) && (s.llu d i).buf.isEmpty

/-- Every domain that is not locked off is in Galop (17_power.md R545). -/
def State.pwcDrained (s : State) (d : Die) : Bool := (List.range 32).all (fun i => s.lockedOff d i || s.domSt d i == 0)

/-- A block has drained. -/
def State.drained (s : State) (d : Die) (b : Blk) : Bool :=
  match b with
  | .wqu => s.wquDrained d
  | .swc => s.swcDrained d
  | .llu i => s.lluDrained d i.val
  | .pwc => s.pwcDrained d
  | _ => true

/-- STATUS_ENABLED_CLEARED (R87). -/
def execStatusEnabledCleared (d : Die) (b : Blk) (s : State) : Host.Outcome State Fault Refusal :=
  .next (if !s.on d (HDR.CTRL.ENABLE (blkBase b)) && s.drained d b then s.wr d (HDR.STATUS.ENABLED (blkBase b)) 0 else s)

/-! ## Counter clears -/

/-- The counters that a COUNT_CLEAR of a block or page zeroes, by offset in it. -/
def blkCounter : Blk → Nat → Bool
  | .dike, o => decide (0x60 ≤ o ∧ o ≤ 0xA0)
  | .wqu, o => decide (0x50 ≤ o ∧ o ≤ 0x98)
  | .xlu, o => decide (0x40 ≤ o ∧ o ≤ 0x98)
  | .tmu, o => decide (0x60 ≤ o ∧ o ≤ 0xB8)
  | .tru, o => decide (0x78 ≤ o ∧ o ≤ 0x108)
  | .qdu, o => decide (0x48 ≤ o ∧ o ≤ 0x90)
  | .rtb, o => decide (0x80 ≤ o ∧ o ≤ 0xC8)
  | .swc, o => decide (0x120 ≤ o ∧ o ≤ 0x160)
  | .dmem, o => decide (0x48 ≤ o ∧ o ≤ 0x58) || decide (0x100 ≤ o ∧ o ≤ 0x138)
  | .pcu, o => pcuCounter (0x3800000 + o)
  | .pwc, o => decide (0x30 ≤ o ∧ o ≤ 0x60)
  | .llu _, o => decide (0x68 ≤ o ∧ o ≤ 0xC0)
  | .lne _, o => decide (0x78 ≤ o ∧ o ≤ 0xB8) || decide (0x100 ≤ o ∧ o ≤ 0x180)

/-- Length of a block or page whose counters a clear may zero. -/
def blkSpan : Blk → Nat
  | .llu _ => 0x10000
  | .lne _ => 0x4000
  | _ => 0x4000

/-- Zero the fields from `b + lo` to `b + hi`. -/
def State.clearSpan (s : State) (d : Die) (lo hi : Nat) : State := s.clearRegs d (fun o => decide (lo ≤ o ∧ o ≤ hi))

/-- Zero a group of counters. -/
def State.clearCounts (s : State) (d : Die) (c : Counts) : State :=
  match c with
  | .blk .pcu => s.pcuClear d
  | .blk (.lne n) => (s.prbsSettle d n.val).clearRegs d
      (fun o => decide (lneBase n.val ≤ o ∧ o < lneBase n.val + 0x4000) && blkCounter (.lne n) (o - lneBase n.val))
  | .blk b => s.clearRegs d (fun o => decide (blkBase b ≤ o ∧ o < blkBase b + blkSpan b) && blkCounter b (o - blkBase b))
  | .rma => s.clearSpan d 0x1008040 0x1008080
  | .leaf => s.clearSpan d 0x100C030 0x100C038
  | .hag => s.clearSpan d 0x3E04048 0x3E04060
  | .privViolations => s.clearSpan .a 0x80 0x88
  | .accessErrors => s.clearSpan .a 0x90 0x90
  | .absentAccesses => s.clearSpan .a 0x98 0x98
  | .hpErr h one => s.zero .a [HP.HP_ERR.POISON_SENT (linkIdx h one), HP.HP_ERR.POISON_RECEIVED (linkIdx h one)]

/-- The field that clears a group. -/
def clearFld : Counts → Fld
  | .blk .dike => DIKE.COUNT_CLEAR.CLEAR
  | .blk .wqu => WQU.COUNT_CLEAR.CLEAR
  | .blk .xlu => XLU.COUNT_CLEAR.CLEAR
  | .blk .tmu => TMU.COUNT_CLEAR.CLEAR
  | .blk .tru => TRU.COUNT_CLEAR.CLEAR
  | .blk .qdu => QDU.COUNT_CLEAR.CLEAR
  | .blk .rtb => RTB.COUNT_CLEAR.CLEAR
  | .blk .swc => SWC.COUNT_CLEAR.CLEAR
  | .blk .dmem => DMEM.COUNT_CLEAR.CLEAR
  | .blk .pcu => PCU.COUNT_CLEAR.CLEAR
  | .blk .pwc => PWC.COUNT_CLEAR.CLEAR
  | .blk (.llu i) => LLU.COUNT_CLEAR.CLEAR i.val
  | .blk (.lne n) => LNE.COUNT_CLEAR.CLEAR n.val
  | .rma => RMA.COUNT_CLEAR.CLEAR
  | .leaf => LEAF.LEAF_COUNT_CLEAR.CLEAR
  | .hag => HAG.MAX_WAIT.CLEAR
  | .privViolations => GLB.PRIV_VIOLATION_COUNT.CLEAR
  | .accessErrors => GLB.ACCESS_ERROR_COUNT.CLEAR
  | .absentAccesses => GLB.ABSENT_ACCESS_COUNT.CLEAR
  | .hpErr h one => HP.HP_ERR_CLEAR.CLEAR (linkIdx h one)

/-- The unit of a group is there; writes to one that is absent are counted (R84). -/
def State.countsThere (s : State) (d : Die) : Counts → Bool
  | .blk b => s.blkThere d b
  | .hag => s.hagPresent d
  | _ => true

/-- COUNT_CLEAR. HP_ERR is cleared through its link's DVSEC, by the function that presents it (05_host_ports.md R155). A violation is
recorded with view 0, the normal view, since the row names none (log entry 153). -/
def execCountClear (rq : Requester) (d : Die) (c : Counts) (s : State) : Host.Outcome State Fault Refusal :=
  .next (match c with
    | .hpErr h one => if s.dvsecOf rq h one then s.clearCounts .a (.hpErr h one) else s
    | _ =>
      if !s.barUp rq then s
      else if !s.countsThere d c then (match c with | .blk (.llu _) => s | _ => s.bump .a GLB.ABSENT_ACCESS_COUNT.COUNT)
      else s.asWarden rq (if (clearFld c).off < 0x200000 then .a else d) (clearFld c).off (fun s => s.clearCounts d c))

/-! ## What a write does at a register that acts on it -/

/-- The fields an access changes, with their new values. -/
abbrev Writes := List (Fld × Nat)

def Writes.has (w : Writes) (f : Fld) : Bool := w.any (fun p => p.1 == f)
def Writes.val (w : Writes) (s : State) (d : Die) (f : Fld) : Nat := match w.find? (fun p => p.1 == f) with | some p => p.2 | none => s.rd d f
/-- A bit that acts when it is written with 1. -/
def Writes.sets (w : Writes) (f : Fld) : Bool := w.any (fun p => p.1 == f && p.2 % 2 == 1)

/-- The whole register: its fields as the access leaves them. -/
def Writes.word (w : Writes) (s : State) (x : RegAccess) : Nat :=
  (s.rowsAt x.d x.reg).foldl (fun n r => n + w.val s x.d r.fld % 2 ^ r.fld.w * 2 ^ r.fld.lo) 0

/-- Store the fields of an access, but for those that act and read 0. -/
def State.storeBut (s : State) (d : Die) (w : Writes) (acts : List Fld) : State := s.wrs d (w.filter (fun p => !acts.contains p.1))

/-- A write of FM_CMD with GO = 1 (16_faults.md R524). -/
def State.fmCommandGo (s : State) (rq : Requester) (op : Nat) : State :=
  match op with
  | 1 => s.fmRetireGo
  | 2 => s.fmUnretireGo
  | 3 => s.fmReadGo
  | 4 => s.fmShutdownGo
  | 5 => s.fmCycleGo
  | 6 => s.fmResetGo rq true
  | _ => s.fmGo op (fun _ => .error fmARG)

/-- A write of PT_CMD with GO = 1 (04_polders.md R117, R119). -/
def State.ptGo (s : State) (rq : Requester) (d : Die) (op : Nat) : State :=
  match op with
  | 1 => after (execPtRegister rq d s) s
  | 2 => after (execPtDeregister rq d s) s
  | 3 => after (execPtClose (.pt rq d) s) s
  | 4 => after (execPtOpen (.pt rq d) s) s
  | 5 => after (execPtBind rq d s) s
  | 6 => after (execPtUnbind rq d s) s
  | 7 => after (execPtSetWindow rq d s) s
  | 8 => after (execPtSetAttr rq d s) s
  | 9 => after (execPtRead rq d s) s
  | _ => s.ptCommand rq d op (fun _ => .error (stFORMAT, ptATTR_RANGE))

/-- A write of X_CMD with GO = 1 (07_translation.md R220, R221). -/
def State.xGo (s : State) (rq : Requester) (d : Die) (c : Fin 3) (op : Nat) : State :=
  match op with
  | 1 => after (execCreateSpace rq d c s) s
  | 2 => after (execDestroySpace rq d c s) s
  | 3 => after (execCreateRegion rq d c s) s
  | 4 => after (execDestroyRegion rq d c s) s
  | 5 => after (execInvalidateRange rq d c s) s
  | 6 => after (execInvalidateSpace rq d c s) s
  | 7 => after (execInvalidateFunction rq d c s) s
  | 8 => after (execInvalidateAll rq d c s) s
  | _ => s.xCommand rq d c op (fun _ => .error (stFORMAT, xARG))

/-- A write of CTX_CMD with GO = 1 (10_transport.md R334). -/
def State.ctxGo (s : State) (rq : Requester) (d : Die) (op : Nat) : State :=
  match op with
  | 1 => after (execQueryPair rq d s) s
  | 2 => after (execQueryIndex rq d s) s
  | 3 => after (execAbort rq d s) s
  | _ => s.ctxCommand rq d op (fun _ => .error 2)

/-- A write of VERSION_CMD with GO = 1 (12_routing.md R407). -/
def State.verGo (s : State) (rq : Requester) (d : Die) (op v : Nat) : State :=
  let v : Fin 2 := ⟨v % 2, Nat.mod_lt _ (by decide)⟩
  match op with
  | 1 => after (execValidate rq d v s) s
  | 2 => after (execVersionInvalidate rq d v s) s
  | _ => s.verCommand rq d op v.val (fun _ => .error (7, 0))

/-- GLB and the fault manager's page. -/
def State.glbEffect (s : State) (x : RegAccess) (w : Writes) : State :=
  if w.sets GLB.PRIV_VIOLATION_COUNT.CLEAR then s.clearCounts .a .privViolations
  else if w.sets GLB.ACCESS_ERROR_COUNT.CLEAR then s.clearCounts .a .accessErrors
  else if w.sets GLB.ABSENT_ACCESS_COUNT.CLEAR then s.clearCounts .a .absentAccesses
  else
    let s := s.storeBut .a w [GLB.PRIV_VIOLATION_COUNT.CLEAR, GLB.ACCESS_ERROR_COUNT.CLEAR, GLB.ABSENT_ACCESS_COUNT.CLEAR, FM.FM_CMD.GO]
    s.when (w.sets FM.FM_CMD.GO) (fun s => s.fmCommandGo x.rq (s.rd .a FM.FM_CMD.OP))

/-- The SVC block. -/
def State.svcEffect (s : State) (x : RegAccess) (w : Writes) : State :=
  let t := s.storeBut .a w [SVC.MB_CMD.GO]
  t.when (w.sets SVC.MB_CMD.GO) (fun s => s.mbGo x.rq (s.rd .a SVC.MB_CMD.OP))

/-- An IMS command as an OOB or MGT requester writes it, or one whose OP names no command; a function's commands have rows of their
own, which carry the bytes of its buffer. -/
def State.imsCmdWrite (s : State) (rq : Requester) (op src arg : Nat) : State :=
  match rq with
  | .fn _ => if 1 ≤ op ∧ op ≤ 7 then s else s.imsGo rq op src arg []
  | _ => s.imsGo rq op src arg []

/-- The IMS block (02_structure_image.md R67). -/
def State.imsEffect (s : State) (x : RegAccess) (w : Writes) : State :=
  if x.reg = IMS.TOKEN.ACQUIRE.off then
    (s.when (w.sets IMS.TOKEN.RELEASE) (fun s => s.tokenRelease x.rq)).when (w.sets IMS.TOKEN.ACQUIRE) (fun s => s.tokenAcquire x.rq)
  else if x.reg = IMS.CMD.GO.off then
    let op := w.val s .a IMS.CMD.OP
    let src := w.val s .a IMS.CMD.SRC
    let arg := w.val s .a IMS.CMD.ARG
    if w.sets IMS.CMD.GO then s.imsCmdWrite x.rq op src arg else s.storeBut .a w [IMS.CMD.GO]
  else if x.reg = IMS.FEATURE_FLOOR.FLOOR.off then
    let s := s.storeBut .a w [IMS.FEATURE_FLOOR.FLOOR]
    s.when (w.has IMS.FEATURE_FLOOR.FLOOR) (fun s => s.floorWrite (w.val s .a IMS.FEATURE_FLOOR.FLOOR))
  else if x.reg = IMS.QUIESCE.REQ.off then s.when (w.has IMS.QUIESCE.REQ) (fun s => s.quiesceWrite (w.sets IMS.QUIESCE.REQ))
  else s.wrs .a w

/-- DIKE, WQU, XLU and TMU. -/
def State.effect1 (s : State) (x : RegAccess) (w : Writes) : State :=
  let d := x.d
  if x.reg < 0x400000 then
    let s := s.storeBut d w [DIKE.PT_CMD.GO, DIKE.COUNT_CLEAR.CLEAR]
    let s := s.when (w.sets DIKE.COUNT_CLEAR.CLEAR) (fun s => s.clearCounts d (.blk .dike))
    s.when (w.sets DIKE.PT_CMD.GO) (fun s => s.ptGo x.rq d (s.rd d DIKE.PT_CMD.OP))
  else if x.reg < 0x600000 then
    if 0x410000 ≤ x.reg then
      let n := (x.reg - 0x410000) / 8
      let g : Fn := ⟨⟨(2 * d.num + n / 256) % 4, Nat.mod_lt _ (by decide)⟩, ⟨n % 256, Nat.mod_lt _ (by decide)⟩⟩
      s.when (w.has (WQU.FN_SETS.SETS n)) (fun s => s.writeFnSets g (w.val s d (WQU.FN_SETS.SETS n)))
    else (s.storeBut d w [WQU.COUNT_CLEAR.CLEAR]).when (w.sets WQU.COUNT_CLEAR.CLEAR) (fun s => s.clearCounts d (.blk .wqu))
  else if x.reg < 0xC00000 then
    if 0x800100 ≤ x.reg ∧ x.reg < 0x800280 then
      let c : Fin 3 := ⟨(x.reg - 0x800100) / 0x80 % 3, Nat.mod_lt _ (by decide)⟩
      (s.storeBut d w [XLU.X_CMD.GO c.val]).when (w.sets (XLU.X_CMD.GO c.val)) (fun s => s.xGo x.rq d c (s.rd d (XLU.X_CMD.OP c.val)))
    else
      let changed := w.has XLU.XLU_CFG.ATS_H && w.val s d XLU.XLU_CFG.ATS_H != s.rd d XLU.XLU_CFG.ATS_H
      let s := s.when changed (fun s => s.modXlu d (fun u => { u with modeChanged := true }))
      (s.storeBut d w [XLU.COUNT_CLEAR.CLEAR]).when (w.sets XLU.COUNT_CLEAR.CLEAR) (fun s => s.clearCounts d (.blk .xlu))
  else
    let s := s.storeBut d w [TMU.COUNT_CLEAR.CLEAR, TMU.REHASH_CTRL.GO]
    let s := s.when (w.sets TMU.COUNT_CLEAR.CLEAR) (fun s => s.clearCounts d (.blk .tmu))
    s.when (w.sets TMU.REHASH_CTRL.GO) (fun s => after (execRehashGo x.rq d s) s)

/-- TRU with its RMA and LEAF pages, and QDU. -/
def State.effect2 (s : State) (x : RegAccess) (w : Writes) : State :=
  let d := x.d
  let s := s.storeBut d w [TRU.COUNT_CLEAR.CLEAR, RMA.COUNT_CLEAR.CLEAR, LEAF.LEAF_COUNT_CLEAR.CLEAR, QDU.COUNT_CLEAR.CLEAR, TRU.CTX_CMD.GO]
  if w.sets TRU.COUNT_CLEAR.CLEAR then s.clearCounts d (.blk .tru)
  else if w.sets RMA.COUNT_CLEAR.CLEAR then s.clearCounts d .rma
  else if w.sets LEAF.LEAF_COUNT_CLEAR.CLEAR then s.clearCounts d .leaf
  else if w.sets QDU.COUNT_CLEAR.CLEAR then s.clearCounts d (.blk .qdu)
  else if w.sets TRU.CTX_CMD.GO then s.ctxGo x.rq d (s.rd d TRU.CTX_CMD.OP)
  else s

/-- RTB (12_routing.md R406 to R408). -/
def State.rtbEffect (s : State) (x : RegAccess) (w : Writes) : State :=
  let d := x.d
  let o := x.reg - 0x1800000
  if o = 0x20 then s.when (!w.isEmpty) (fun s => s.myFeaWrite d (w.word s x))
  else if o = 0x28 then s.when (w.has RTB.EPOCH.INJECT) (fun s => s.injectWrite d (w.val s d RTB.EPOCH.INJECT))
  else if o = 0x30 then
    (s.storeBut d w [RTB.VERSION_CMD.GO]).when (w.sets RTB.VERSION_CMD.GO)
      (fun s => s.verGo x.rq d (s.rd d RTB.VERSION_CMD.OP) (s.rd d RTB.VERSION_CMD.VERSION))
  else if o = 0x60 then s.when (w.sets RTB.SEED.RESEED) (fun s => s.reseed d)
  else if 0x20000 ≤ o then
    s.when (!w.isEmpty) (fun s => s.tableWrite d ((o - 0x20000) / 0x20000) 0 ((o % 0x20000) / 0x4000 * 512 + o % 0x4000 / 8) (w.word s x))
  else if 0x4000 ≤ o then
    s.when (!w.isEmpty) (fun s => s.tableWrite d (b2n (decide (0x8000 ≤ o))) (if o % 0x4000 < 0x100 then 1 else 2) (o % 0x100 / 8) (w.word s x))
  else (s.storeBut d w [RTB.COUNT_CLEAR.CLEAR]).when (w.sets RTB.COUNT_CLEAR.CLEAR) (fun s => s.clearCounts d (.blk .rtb))

/-- A register of a sluice entry, or of the SWC's own page. -/
def State.swcAt (s : State) (x : RegAccess) (w : Writes) (at_ : Option (Nat × Nat)) : State :=
  let d := x.d
  match at_ with
  | some (e, r) => s.when (!w.isEmpty) (fun s => s.slWrite d e (r / 8) (w.word s x))
  | none => (s.storeBut d w [SWC.COUNT_CLEAR.CLEAR]).when (w.sets SWC.COUNT_CLEAR.CLEAR) (fun s => s.clearCounts d (.blk .swc))

/-- SWC and the sluice's entries (13_switch_core.md R446). -/
def State.swcEffect (s : State) (x : RegAccess) (w : Writes) : State := s.swcAt x w (entryAt 0x4020 (x.reg - 0x2000000))

/-- An LLU page (14_link_layer.md R475). -/
def State.lluEffect (s : State) (x : RegAccess) (w : Writes) (i : Fin 64) : State :=
  let d := x.d
  let s := s.storeBut d w [LLU.COUNT_CLEAR.CLEAR i.val, LLU.LINK_CTRL.RETRAIN i.val, LLU.LINK_CTRL.CHANGE_GO i.val, LLU.LINK_CTRL.RETIRE i.val]
  let s := s.when (w.sets (LLU.COUNT_CLEAR.CLEAR i.val)) (fun s => s.clearCounts d (.blk (.llu i)))
  let s := s.when (w.sets (LLU.LINK_CTRL.RETRAIN i.val)) (fun s => s.retrainWrite d i.val)
  let s := s.when (w.sets (LLU.LINK_CTRL.CHANGE_GO i.val)) (fun s =>
    s.changeGo d i.val (s.rd d (LLU.LINK_CTRL.LANE_MASK_REQ i.val)) (s.rd d (LLU.LINK_CTRL.RATE_REQ i.val)))
  s.when (w.sets (LLU.LINK_CTRL.RETIRE i.val)) (fun s => s.retirePort d i.val 1)

/-- An LNE page (15_lanes.md R498). -/
def State.lneEffect (s : State) (x : RegAccess) (w : Writes) (n : Fin 64) : State :=
  let d := x.d
  if w.has (LNE.LNE_PWR.REQ n.val) then s.lnePwr d n.val (w.val s d (LNE.LNE_PWR.REQ n.val))
  else if x.reg = (LNE.PRBS_CTRL.REQ n.val).off then s.when (!w.isEmpty) (fun s => s.prbsCtrl d n.val (w.word s x))
  else (s.storeBut d w [LNE.COUNT_CLEAR.CLEAR n.val]).when (w.sets (LNE.COUNT_CLEAR.CLEAR n.val)) (fun s => s.clearCounts d (.blk (.lne n)))

/-- PCU (18_counters.md R548, R558, R561): a new event selection waits for the next window; a MASTER counts no steps. -/
def State.pcuEffect (s : State) (x : RegAccess) (w : Writes) : State :=
  let d := x.d
  let o := x.reg - 0x3800000
  if o = 0x70 then s.when (w.has PCU.FT_SET.TIME) (fun s => s.ftSet d (w.val s d PCU.FT_SET.TIME))
  else if o = 0x60 then (s.wrs d w).when (w.val s d PCU.FT_CFG.ROLE == 1) (fun s => s.wr d PCU.FT_STATUS.STEPS_REMOVED 0)
  else if 0x4000 ≤ o ∧ o < 0x4100 ∧ o % 0x10 = 0 then
    (s.wrs d w).when (!w.isEmpty) (fun s => s.modWin d (fun v => { v with evNext := setInsert v.evNext ((o - 0x4000) / 0x10) }))
  else (s.storeBut d w [PCU.COUNT_CLEAR.CLEAR]).when (w.sets PCU.COUNT_CLEAR.CLEAR) (fun s => s.clearCounts d (.blk .pcu))

/-- PWC (17_power.md R546), and DMEM with HAG (05_host_ports.md R156, R157). -/
def State.effect3 (s : State) (x : RegAccess) (w : Writes) : State :=
  let d := x.d
  if x.reg < 0x3E00000 then
    if 0x3C04000 ≤ x.reg ∧ x.reg < 0x3C04400 then
      let i := (x.reg - 0x3C04000) / 0x20
      s.when (!w.isEmpty) (fun s => s.domCfgWrite d i (w.val s d (PWC.DOM_CFG.MAX_STATE i)) (w.val s d (PWC.DOM_CFG.PIN_GALOP i) == 1))
    else (s.storeBut d w [PWC.COUNT_CLEAR.CLEAR]).when (w.sets PWC.COUNT_CLEAR.CLEAR) (fun s => s.clearCounts d (.blk .pwc))
  else
    let s := s.storeBut d w [DMEM.COUNT_CLEAR.CLEAR, HAG.MAX_WAIT.CLEAR]
    let s := s.when (w.sets DMEM.COUNT_CLEAR.CLEAR) (fun s => s.clearCounts d (.blk .dmem))
    s.when (w.sets HAG.MAX_WAIT.CLEAR) (fun s => s.clearCounts d .hag)

/-- What the fields that an access may change do. -/
def State.regEffect (s : State) (x : RegAccess) (w : Writes) : State :=
  let d := x.d
  let o := x.reg
  if o < 0x100000 then s.glbEffect x w
  else if o < 0x180000 then s.svcEffect x w
  else if o < 0x200000 then s.imsEffect x w
  else if headerOf o = some (o - 8) then
    s.when (w.has (HDR.CTRL.ENABLE (o - 8))) (fun s => s.ctrlWrite d (o - 8) (w.val s d (HDR.CTRL.ENABLE (o - 8)) == 1))
  else if o < 0x1000000 then s.effect1 x w
  else if o < 0x1800000 then s.effect2 x w
  else if o < 0x2000000 then s.rtbEffect x w
  else if o < 0x2800000 then s.swcEffect x w
  else if o < 0x3000000 then s.lluEffect x w ⟨pageOf 0x2800000 0x10000 o % 64, Nat.mod_lt _ (by decide)⟩
  else if o < 0x3800000 then s.lneEffect x w ⟨pageOf 0x3000000 0x4000 o % 64, Nat.mod_lt _ (by decide)⟩
  else if o < 0x3C00000 then s.pcuEffect x w
  else s.effect3 x w

/-! ## A write at its register -/

/-- The domain in which a register's block lies, where it can sleep (17_power.md R531). -/
def State.regDomain (s : State) (a : Nat) : Option Nat :=
  if 0x800000 ≤ a ∧ a < 0xC00000 then some 28
  else if 0xC00000 ≤ a ∧ a < 0x1000000 then some 26
  else if 0x1400000 ≤ a ∧ a < 0x1800000 then some 27
  else if 0x2800000 ≤ a ∧ a < 0x3000000 then some (pageOf 0x2800000 0x10000 a * s.lanesPerPort / 4 % 16)
  else if 0x3000000 ≤ a ∧ a < 0x3800000 then some (pageOf 0x3000000 0x4000 a / 4 % 16)
  else if 0x3E04000 ≤ a ∧ a < 0x3E05000 then some 29
  else if 0x3E00000 ≤ a ∧ a < 0x4000000 then some 31
  else none

/-- Fields that a requester without a warden's rights may not write. -/
def protectedRow (r : Row) : Bool := r.acc == .rww || r.acc == .row || r.acc == .wd

/-- Whether the row's field takes the write: W1C and W1S fields in the normal view only (R74). -/
def takesWrite (view : Nat) (priv wdOk : Bool) (r : Row) : Bool :=
  match r.acc with
  | .rw => true
  | .rww => priv
  | .wd => priv && wdOk
  | .w1c | .w1s => view == 0
  | .ro | .row => false

/-- New value of a field: a W1C bit written with 1 is cleared, a W1S bit set. -/
def State.newValue (s : State) (x : RegAccess) (r : Row) : Nat :=
  match r.acc with
  | .w1c => viewed 2 0 (x.bits r.fld) (s.rd x.d r.fld)
  | .w1s => viewed 1 0 (x.bits r.fld) (s.rd x.d r.fld)
  | _ => s.written x r.fld

/-- Bits of the blocks in switched domains that act when they are written, and read 0. -/
def actsAt (f : Fld) : Bool :=
  f == TMU.COUNT_CLEAR.CLEAR || f == TMU.REHASH_CTRL.GO || f == XLU.COUNT_CLEAR.CLEAR || f == QDU.COUNT_CLEAR.CLEAR ||
  f == DMEM.COUNT_CLEAR.CLEAR || f == HAG.MAX_WAIT.CLEAR ||
  (decide (0x800100 ≤ f.off ∧ f.off < 0x800280) && f.off % 0x80 == 0 && f.lo == 31) ||
  (decide (0x2800000 ≤ f.off ∧ f.off < 0x3000000) && (f.off % 0x10000 == 0xD0 || (f.off % 0x10000 == 0x50 && (f.lo ≤ 1 || f.w == 1)))) ||
  (decide (0x3000000 ≤ f.off ∧ f.off < 0x3800000) && f.off % 0x4000 == 0xC8)

/-- Apply a write at its register: privilege and WD by field (R81, R86), then what the fields do. A function that is not a warden changes
no field of the IMS block (02_structure_image.md R67). A locked-off domain's registers are
the hub's copy, which the write updates alone (17_power.md R534). -/
def State.regApply (s : State) (x : RegAccess) : State :=
  let rows := (s.rowsAt x.d x.reg).filter (fun r => x.mask r.fld != 0)
  let priv := s.privAt x.rq x.reg
  let wd := if priv then rows.filter (fun r => r.acc == .wd) else []
  let bad := s.wdRefused x ((headerOf x.reg).getD 0) wd
  let closed := !priv && decide (0x180000 ≤ x.reg ∧ x.reg < 0x200000)
  let w : Writes := if closed then [] else (rows.filter (takesWrite x.view priv (!bad))).map (fun r => (r.fld, s.newValue x r))
  let s := s.when (!priv && rows.any protectedRow) (fun s => s.privViolation x.rq x.view x.off)
  let s := s.when bad (fun s => s.cfgReject x.d ((headerOf x.reg).getD 0))
  match s.regDomain x.reg with
  | some i => if s.lockedOff x.d i then s.wrs x.d (w.filter (fun p => !actsAt p.1)) else s.regEffect x w
  | none => s.regEffect x w

/-- The write of a command channel of the XLU by a requester that may not use it (07_translation.md R220). -/
def State.channelBad (s : State) (rq : Requester) (d : Die) (a : Nat) : Bool :=
  decide (0x800100 ≤ a ∧ a < 0x800280) && !s.channelOk rq d ⟨(a - 0x800100) / 0x80 % 3, Nat.mod_lt _ (by decide)⟩

/-- The access of a held write. -/
def heldAccess (w : HeldWrite) : RegAccess :=
  { rq := w.rq, d := accessDie w.off, reg := unview (w.off % 0x4000000) / 8 * 8, view := viewOf (w.off % 0x4000000), off := w.off,
    size := w.bytes, data := w.data }

/-- Apply a write that was held for its domain. -/
def State.regLate (s : State) (w : HeldWrite) : State := s.regApply (heldAccess w)

/-- A write reaches its domain: one that sleeps wakes, and holds the write until it is in Galop (R79; 17_power.md R538). -/
def State.regDeliver (s : State) (w : HeldWrite) : State :=
  let x := heldAccess w
  match s.regDomain x.reg with
  | none => s.regApply x
  | some i =>
    let asleep := fun (s : State) => !s.lockedOff x.d i && (decide (3 ≤ s.domSt x.d i) || s.on x.d (PWC.DOM_STATE.FENCING i))
    if !asleep s then s.regApply x
    else
      let s := (((s.modDom x.d i (fun m => { m with held := m.held ++ [w] })).countHeld x.d).showHeld x.d i).wake x.d i
      if asleep s then s else (s.modDom x.d i (fun m => { m with held := [] })).regApply x

/-! ## Function page sets (R90; 06_work_queues.md R191, R192) -/

/-- The new value of a page register's field of `w` bits from `lo`. -/
def pageField (off size data lo w old : Nat) : Nat :=
  let x : RegAccess := { rq := .svc, d := .a, reg := 0, view := 0, off := off, size := size, data := data }
  let f : Fld := ⟨0, lo, w, 0⟩
  viewed 0 (x.mask f) (x.bits f) old

/-- Write a queue control page: QC_CMD without GO, or with an OP that names no command; QC_STATUS; QC_ARG. The rest has rows of its own. -/
def State.controlWrite (s : State) (f : Fn) (q : Fin 128) (o size data : Nat) : State :=
  let sk := setKey f q.val
  let p := s.qc sk
  let pf := pageField o size data
  if o / 8 = 1 then
    let op := pf 0 4 p.op
    let target := pf 4 3 p.target
    let mask := pf 8 16 p.mask
    if pf 31 1 0 = 0 then s.ingress f q (fun s => s.setQc sk { s.qc sk with op := op, target := target, mask := mask })
    else if 1 ≤ op ∧ op ≤ 8 then s
    else s.qcCommand f q op target mask (fun _ _ => .error dtARG)
  else if o / 8 = 2 then
    s.ingress f q (fun s => s.setQc sk { s.qc sk with
      done := p.done && pf 1 1 0 == 0, goReject := p.goReject && pf 2 1 0 == 0, cfgReject := p.cfgReject && pf 3 1 0 == 0 })
  else if o / 8 = 3 then s.ingress f q (fun s => s.setQc sk { s.qc sk with slot := pf 0 32 p.slot })
  else s

/-- Write a function page set. Writes to the doorbell and control pages meet the ingress check first, whatever they would do
(04_polders.md R99, R106); then an access that R76 refuses is counted. Doorbells have rows of their own. -/
def State.pageWrite (s : State) (f : Fn) (o size data : Nat) : State :=
  if !s.hpPresent f.hp.val then s.bump .a GLB.ABSENT_ACCESS_COUNT.COUNT
  else if o < 0xC0000 ∧ !s.ingressOk f then s.ingressDrop f
  else if !goodAccess o size then s.bump .a GLB.ACCESS_ERROR_COUNT.COUNT
  else if 0x80000 ≤ o ∧ o < 0xC0000 then s.controlWrite f ⟨(o - 0x80000) / 0x800 % 128, Nat.mod_lt _ (by decide)⟩ ((o - 0x80000) % 0x800) size data
  else s

/-! ## A write of PF BAR0 -/

/-- A function has PF BAR0: a PF (R69, R82). -/
def State.hasBar0 (_ : State) : Requester → Bool
  | .fn f => f.fn.val == 0
  | _ => true

/-- Write `size` bytes at a PF BAR0 offset (R72, R76, R82, R84). A violation at a PF function page set is recorded with the view that
bits [13:12] of the offset would name elsewhere (log entry 153). -/
def State.regWrite (s : State) (rq : Requester) (off size data : Nat) : State :=
  let d := accessDie off
  let o := off % 0x4000000
  let a := unview o / 8 * 8
  if !s.barUp rq || !s.hasBar0 rq then s
  else if !goodAccess off size then s.bump .a GLB.ACCESS_ERROR_COUNT.COUNT
  else if inPageSets o then
    if !s.hpPresent (pageSetPort off).val then s.bump .a GLB.ABSENT_ACCESS_COUNT.COUNT
    else match rq with
      | .fn f => if f.hp = pageSetPort off ∧ f.fn.val = 0 then s.pageWrite f (o % 0x100000) size data else s.privViolation rq (viewOf o) off
      | _ => s.bump .a GLB.PRIV_VIOLATION_COUNT.COUNT
  else if s.unitAbsent d a then s.bump .a GLB.ABSENT_ACCESS_COUNT.COUNT
  else if s.channelBad rq d a then s.bump d XLU.CHANNEL_REJECTS.COUNT
  else if (s.rowsAt d a).isEmpty then s
  else s.regDeliver { rq := rq, off := off, bytes := size, data := data }

/-! ## Reads -/

/-- A register read completes: one that R76 refuses returns zero and is counted. -/
def State.readEnd (s : State) (rq : Requester) (off size word : Nat) : State :=
  (s.when (!goodAccess off size) (fun s => s.bump .a GLB.ACCESS_ERROR_COUNT.COUNT)).emit (.regData rq (partOf off size word))

/-- Read `size` bytes of a register space. A function reaches its own page set and configuration space, a PF also PF BAR0. -/
def State.regReadAt (s : State) (rq : Requester) (space : RegSpace) (size : Nat) : State :=
  match space with
  | .bar0 off => if s.barUp rq then
      let t := s.when (!goodAccess off.toNat size) (fun s => s.bump .a GLB.ACCESS_ERROR_COUNT.COUNT)
      t.emit (.regData rq (s.readBar0 rq off.toNat size))
    else s
  | .page off => (match rq with
    | .fn f => if s.svc.resetN && f.fn.val != 0 then s.readEnd rq off.toNat size (s.readPage f (off.toNat / 8 * 8)) else s
    | _ => s)
  | .dvsec h one off => if s.dvsecOf rq h one then s.emit (.regData rq (s.readDvsec h one (off.toNat / 4 * 4))) else s
  | .config c => (match rq with
    | .fn f => s.emit (.capability f (s.readCap f c))
    | _ => s)

/-- Write a register space. In the DVSEC one bit is writable, which clears HP_ERR (05_host_ports.md R155). -/
def State.regWriteAt (s : State) (rq : Requester) (space : RegSpace) (size data : Nat) : State :=
  match space with
  | .bar0 off => s.regWrite rq off.toNat size data
  | .page off => (match rq with
    | .fn f => if s.svc.resetN && f.fn.val != 0 then s.pageWrite f off.toNat size data else s
    | _ => s)
  | .dvsec h one off => if s.dvsecOf rq h one ∧ off.toNat = 0x1C ∧ size = 4 ∧ data % 2 = 1 then s.clearCounts .a (.hpErr h one) else s
  | .config _ => s

/-- REGISTER_WRITE (R73): an access of PF BAR0, of the function's own page set in its BAR0, or of configuration space. The table has no
row for a host's read, so one without data stands for it (log entry 154). -/
def execRegisterWrite (rq : Requester) (space : RegSpace) (size : Fin 17) (data : Option W64) (s : State) : Host.Outcome State Fault Refusal :=
  .next (match data with
    | some v => s.regWriteAt rq space size.val v.toNat
    | none => s.regReadAt rq space size.val)

/-! ## A waking domain (17_power.md R538) -/

/-- DOMAIN_GALOP_REACHED: the domain is in Galop, and the writes that it held are applied in order. -/
def execDomainGalopReached (d : Die) (i : Fin 32) (s : State) : Host.Outcome State Fault Refusal :=
  .next ((((s.galopReached (fun w s => s.regLate w) d i.val).cycleDone d i.val).nocMove d).when (i.val == 31) (fun s => s.dmemResume d))

end Sys2Proof.Machine
end

