-- ==== Sys2Proof/Machine/Service.lean ====
section
/-! DEFINITION. Management requests and the out-of-band port (19_startup.md R574, R576 to R581): register access, staging, settings,
events, and the protocols of the port's Ethernet side. -/

namespace Sys2Proof.Machine

/-! ## Requests (R576 to R578, R580, R581) -/

def msOK : Nat := 0
def msACCESS : Nat := 1
def msRANGE : Nat := 2
def msBUSY : Nat := 3
def msTOKEN : Nat := 4
def msARG : Nat := 5

/-- Fields of the first data unit (R577). -/
def mgOp (b : List Byte) : Nat := le b 1 1
def mgSize (b : List Byte) : Nat := le b 2 1
def mgReq (b : List Byte) : Nat := le b 4 4
def mgAddr (b : List Byte) : Nat := le b 8 8
def mgData (b : List Byte) : Nat := le b 16 8
def mgLen (b : List Byte) : Nat := le b 24 4

/-- The RESPONSE to a request: its other fields are echoed (log entry 32). -/
def mgAnswer (b : List Byte) (status data : Nat) : List Byte := mgtUnit 2 (mgOp b) (mgSize b) status (mgReq b) (mgAddr b) data (mgLen b)

/-- What a request does: the state after it, and the STATUS and DATA of the RESPONSE; nothing where the SVC does not get to answer. -/
abbrev MgAct := Requester → List Byte → State → State × Option (Nat × Nat)

/-- Answers that are not 10 ms old yet. -/
def State.freshAnswers (s : State) : Nat := (s.svc.answers.filter (fun a => decide (s.now < a.at_ + ms 10))).length

/-- Keep an answer, in place of the oldest one where the table is full. -/
def State.keepAnswer (s : State) (a : MgtAns) : State :=
  let l := if 4096 ≤ s.svc.answers.length then s.svc.answers.drop 1 else s.svc.answers
  { s with svc := { s.svc with answers := l ++ [a] } }

/-- A REQUEST has an OP that names none; REG_READ's command answers it. -/
def opUnknown (op : Nat) : Bool := !(decide (1 ≤ op ∧ op ≤ 5))

/-- Serve the REQUEST at the head of the receive queue, where its OP is `op`: a duplicate is answered from the table, and while the table
is full of young answers none is executed (R578). -/
def State.serveMgt (s : State) (op : Nat) (act : MgAct) : State :=
  match s.inboxHead 1 with
  | none => s
  | some p =>
    let b := pktData p
    if mgOp b ≠ op ∧ !(op = 1 ∧ opUnknown (mgOp b)) then s
    else
      let s := s.popInbox
      match s.svc.answers.find? (fun a => a.fea == p.src && a.id == mgReq b) with
      | some a => s.sendMgt .a p.src a.resp
      | none =>
        if 4096 ≤ s.freshAnswers then s.sendMgt .a p.src (mgAnswer b msBUSY 0)
        else if opUnknown (mgOp b) then (s.keepAnswer ⟨p.src, mgReq b, mgAnswer b msARG 0, s.now⟩).sendMgt .a p.src (mgAnswer b msARG 0)
        else
          match act .mgt b s with
          | (t, none) => t
          | (t, some (status, data)) => (t.keepAnswer ⟨p.src, mgReq b, mgAnswer b status data, t.now⟩).sendMgt .a p.src (mgAnswer b status data)

/-- A requester at the out-of-band port may make a request: over an open session; or, while no owner key is enrolled, a REG_READ of the
SVC block or of what READ_RECORD returned (R581). -/
def State.oobMay (s : State) (session : Option W32) (b : List Byte) : Bool :=
  match session with
  | some id => s.svc.oob.sessions.any (fun x => x.id == id.toNat && x.finished)
  | none => s.store.owners.isEmpty && mgOp b == 1 &&
      (decide (0x100000 ≤ mgAddr b ∧ mgAddr b < 0x180000) || decide (FM.FM_STATUS.BUSY.off ≤ mgAddr b ∧ mgAddr b < (FM.FM_DATA.DATA 8).off))

/-- Serve a REQUEST that a datagram of the out-of-band port carries. -/
def State.serveOob (s : State) (session : Option W32) (b : List Byte) (op : Nat) (act : MgAct) : State :=
  if !s.oobUp ∨ le b 0 1 ≠ 1 ∨ (mgOp b ≠ op ∧ !(op = 1 ∧ opUnknown (mgOp b))) ∨ !s.oobMay session b then s
  else if opUnknown (mgOp b) then s.emit (.oob (mgAnswer b msARG 0))
  else match act .oob b s with
    | (t, none) => t
    | (t, some (status, data)) => t.emit (.oob (mgAnswer b status data))

def State.serve (s : State) (via : MgtVia) (op : Nat) (act : MgAct) : State :=
  match via with
  | .mgt => s.serveMgt op act
  | .oob session b => s.serveOob session b op act

/-! ## Register access -/

def barSize : Nat := 2 ^ 27

/-- REG_READ: an access that R76 refuses is counted. -/
def doRead : MgAct := fun rq b s =>
  let a := mgAddr b
  if barSize ≤ a then (s, some (msRANGE, 0))
  else if !goodAccess a (mgSize b) then (s.bump .a GLB.ACCESS_ERROR_COUNT.COUNT, some (msACCESS, 0))
  else (s, some (msOK, s.readBar0 rq a (mgSize b)))

/-- REG_WRITE. -/
def doWrite : MgAct := fun rq b s =>
  let a := mgAddr b
  if barSize ≤ a then (s, some (msRANGE, 0))
  else (s.regWrite rq a (mgSize b) (mgData b), some (if goodAccess a (mgSize b) then msOK else msACCESS, 0))

/-- REG_READ (R577). -/
def execRegRead (via : MgtVia) (s : State) : Host.Outcome State Fault Refusal := .next (s.serve via 1 doRead)

/-- REG_WRITE (R577). -/
def execRegWrite (via : MgtVia) (s : State) : Host.Outcome State Fault Refusal := .next (s.serve via 2 doWrite)

/-! ## Staging (R574) -/

def stagingSize : Nat := 24 * 2 ^ 20

/-- Bytes into the staging buffer; its first 4 KiB are reserved, and writes there have no effect. -/
def State.stage (s : State) (at_ : Nat) (b : List Byte) : State :=
  let put := fun (t : Tbl Byte) (p : Nat × Byte) => if p.1 < 0x1000 then t else tput t p.1 p.2
  { s with ims := { s.ims with staging := ((List.range b.length).map (· + at_) |>.zip b).foldl put s.ims.staging } }

/-- STAGE_WRITE: from the holder of the token alone. -/
def doStage : MgAct := fun rq b s =>
  let n := mgLen b
  if !s.holdsToken rq then (s, some (msBUSY, 0))
  else if n < 1 ∨ 4032 < n ∨ b.length < 64 + n then (s, some (msARG, 0))
  else if stagingSize < mgAddr b + n then (s, some (msRANGE, 0))
  else (s.stage (mgAddr b) (cut b 64 n), some (msOK, 0))

/-- STAGE_WRITE (R574, R577). -/
def execStageWrite (via : MgtVia) (s : State) : Host.Outcome State Fault Refusal := .next (s.serve via 3 doStage)

/-! ## Settings (R572, R575) -/

def doGet : MgAct := fun _ b s =>
  if settingKnown (mgAddr b) then (s, some (msOK, s.setting (mgAddr b))) else (s, some (msARG, 0))

/-- GET_SETTING. -/
def execGetSetting (via : SettingVia) (s : State) : Host.Outcome State Fault Refusal :=
  .next (match via with
    | .mailbox rq => s.asWarden rq .a SVC.MB_CMD.OP.off State.getSettingGo
    | .request v => s.serve v 4 doGet)

/-- SET_SETTING as a request. The STATUS of one whose words do not read back as written is open, and a loss of power leaves no answer. -/
def doSet (stop : SettingCut) : MgAct := fun rq b s =>
  let (t, code) := s.setSetting rq (mgAddr b) (mgData b) stop
  if code = stIMS_BUSY then (t, some (msTOKEN, 0))
  else if code = stFORMAT then (t, some (msARG, 0))
  else match stop with
    | none => (t, some (msOK, 0))
    | some (_, true) => let (t, n) := t.drawNat; (t, some (n % 256, 0))
    | some (_, false) => (t, none)

/-- SET_SETTING (R572). -/
def execSetSetting (via : SettingVia) (stop : Option (Fin 8 × Bool)) (s : State) : Host.Outcome State Fault Refusal :=
  .next (match via with
    | .mailbox rq => s.asWarden rq .a SVC.MB_CMD.OP.off (fun s => s.setSettingGo rq stop)
    | .request v => s.serve v 5 (doSet stop))

/-! ## EVENTs (R576, R579) -/

/-- MGT_EVENT: the EVENT at the head of the receive queue is consumed. -/
def execMgtEvent (s : State) : Host.Outcome State Fault Refusal :=
  .next (match s.inboxHead 6 with | some _ => s.popInbox | none => s)

/-! ## The Ethernet side of the port (R580) -/

/-- OOB_BLOCK_LOCK: the lane gains or loses block lock. -/
def execOobBlockLock (up : Bool) (s : State) : Host.Outcome State Fault Refusal :=
  .next (if s.svc.pwrgood then s.wr .a SVC.OOB_STATE.LINK (b2n up) else s)

/-- A frame of the port's VLAN, 0 for an untagged one. -/
def State.oobFrame (s : State) (vlan : Nat) : Bool := s.oobUp && vlan == s.setting 21

/-- The port's IPv4 and IPv6 addresses, 0 for none. -/
def State.ip4 (s : State) : Nat := bitsOf (s.setting 17) 0 32
def State.ip6 (s : State) : Nat := s.setting 18 * 2 ^ 64 + s.setting 19

/-- ARP_REQUEST. -/
def execArpRequest (vlan : BitVec 12) (ip : W32) (s : State) : Host.Outcome State Fault Refusal :=
  .next (if s.oobFrame vlan.toNat && ip.toNat != 0 && ip.toNat == s.ip4 then s.emit (.arpReply ip.toNat Config.oobMac) else s)

/-- NEIGHBOUR_SOLICITATION. -/
def execNeighbourSolicitation (vlan : BitVec 12) (ip : BitVec 128) (s : State) : Host.Outcome State Fault Refusal :=
  .next (if s.oobFrame vlan.toNat && ip.toNat != 0 && ip.toNat == s.ip6 then s.emit (.neighbourAdvert ip.toNat) else s)

/-- ECHO_REQUEST: of ICMP or of ICMPv6. -/
def execEchoRequest (vlan : BitVec 12) (v6 : Bool) (ip : BitVec 128) (data : List Byte) (s : State) : Host.Outcome State Fault Refusal :=
  .next (if s.oobFrame vlan.toNat && ip.toNat != 0 && ip.toNat == (if v6 then s.ip6 else s.ip4) then s.emit (.echoReply v6 data) else s)

end Sys2Proof.Machine
end

