-- ==== Sys2Proof/Machine/Pins.lean ====
section
/-! DEFINITION. The I3C target and the TAP (19_startup.md R582 to R584). -/

namespace Sys2Proof.Machine

def State.modSvc (s : State) (f : Svc → Svc) : State := { s with svc := f s.svc }

/-! ## I3C (R582) -/

/-- I3C_ADDRESS_ASSIGN: SETDASA at the static address that the last cold reset took, or ENTDAA. A target that has a dynamic address
takes part in neither. -/
def execI3cAddressAssign (target : Option (BitVec 7)) (addr : BitVec 7) (s : State) : Host.Outcome State Fault Refusal :=
  .next (
    let named := match target with | some a => a.toNat == s.svc.staticAddr | none => true
    if s.svc.pwrgood && s.svc.dynAddr.isNone && named then s.modSvc (fun v => { v with dynAddr := some addr.toNat }) else s)

/-- The target is addressed. -/
def State.i3cAt (s : State) (addr : Nat) : Bool := s.svc.pwrgood && s.svc.dynAddr == some addr

/-- I3C_ENEC, broadcast or to the target's address, with the bit of the interrupts set in its event byte. -/
def execI3cEnec (addr : Option (BitVec 7)) (events : Byte) (s : State) : Host.Outcome State Fault Refusal :=
  .next (
    let named := match addr with | some a => s.i3cAt a.toNat | none => s.svc.pwrgood
    if named && bitOf events.toNat 0 then s.modSvc (fun v => { v with ibi := true }) else s)

/-- One byte written at the pointer. -/
def State.i3cByte (s : State) (b : Byte) : State :=
  let a := s.svc.ptr
  let s := s.modSvc (fun v => { v with ptr := (a + 1) % 65536 })
  if 0x100 ≤ a ∧ a < 0x104 then
    let k := 256 ^ (a - 0x100)
    s.modSvc (fun v => { v with slot := v.slot / (k * 256) * (k * 256) + b.toNat * k + v.slot % k })
  else if a = 0x200 ∧ b = 0xA5 then s.warmReset SVC.RESET_CAUSE.I3C true
  else s

/-- I3C_PRIVATE_WRITE: the first two bytes set the pointer. -/
def execI3cPrivateWrite (addr : BitVec 7) (data : List Byte) (s : State) : Host.Outcome State Fault Refusal :=
  .next (match data with
    | h :: l :: rest => if s.i3cAt addr.toNat then rest.foldl (fun s b => s.i3cByte b) (s.modSvc (fun v => { v with ptr := h.toNat * 256 + l.toNat })) else s
    | _ => s)

/-- The 64 bytes of the event-ring slot that the pointer's register names; a slot that the ring does not have shows free values. -/
def State.slotBytes (s : State) (n : Nat) : List Byte := if s.svc.slot < 211968 then (s.recordAt 0 s.svc.slot).1 else leBytes 64 n

/-- The byte at an address. -/
def State.i3cRead (s : State) (shown : List Byte) (a : Nat) : Byte :=
  if a < 0x100 then BitVec.ofNat 8 (s.readReg .svc .a (0x100000 + a / 8 * 8) / 2 ^ (8 * (a % 8)))
  else if 0x140 ≤ a ∧ a < 0x180 then shown.getD (a - 0x140) 0
  else 0xFF

/-- I3C_PRIVATE_READ of some bytes. -/
def execI3cPrivateRead (addr : BitVec 7) (n : BitVec 16) (s : State) : Host.Outcome State Fault Refusal :=
  .next (if !s.i3cAt addr.toNat then s
    else s.draw (fun k s =>
      let shown := s.slotBytes k
      let b := (List.range n.toNat).map (fun j => s.i3cRead shown ((s.svc.ptr + j) % 65536))
      (s.modSvc (fun v => { v with ptr := (v.ptr + n.toNat) % 65536 })).emit (.i3c b)))

/-! ## The TAP (R583, R584) -/

/-- Cells of the boundary register: 256 of the network lanes, 128 of the host-port lanes, and 25 of single-ended signals and reference
clocks; the TAP's own signals have none (log entry 33). -/
def boundaryLen : Nat := 409

/-- Bits shift through a register, whose first cell is next to TDI: what leaves at TDO, and what it holds afterwards. -/
def shiftOut (c bits : List Bool) : List Bool := (c.reverse ++ bits).take bits.length
def shiftIn (c bits : List Bool) : List Bool := (bits.reverse ++ c).take c.length

/-- Levels of the pins, one for each cell. -/
def pinLevels (l : List Bool) : List Bool := (l ++ List.replicate boundaryLen false).take boundaryLen

/-- IDCODE's 32 bits (R583). -/
def State.idcode (s : State) : Nat :=
  s.stepping % 16 * 2 ^ 28 + (0x9127 + partNum s.part) * 2 ^ 12 + 0x4D7 * 2 + 1

/-- An instruction that leaves the pins to the device. -/
def State.tapFree (s : State) (ir : Nat) : State := s.modSvc (fun v => { v with tap := { v.tap with ir := ir, drives := 0 } })

/-- BYPASS: one bit between TDI and TDO. -/
def State.bypass (s : State) (ir : Nat) (bits : List Bool) : State := (s.tapFree ir).emit (.tdo (shiftOut [false] bits))

/-- The boundary register captures the pins and shifts. -/
def State.scan (s : State) (pins bits : List Bool) : State :=
  let c := pinLevels pins
  (s.modSvc (fun v => { v with tap := { v.tap with boundary := shiftIn c bits } })).emit (.tdo (shiftOut c bits))

/-- An instruction that takes control of the pins: only while RESET_N is low and PWRGOOD is high; otherwise it acts as BYPASS, which
SVC_STATE.JTAG_REFUSED shows (R584). -/
def State.tapDrive (s : State) (ir : Nat) (bits : List Bool) (act : State → State) : State :=
  if !s.svc.resetN && s.svc.pwrgood then act (s.modSvc (fun v => { v with tap := { v.tap with ir := ir, drives := ir } }))
  else (s.bypass ir bits).wr .a SVC.SVC_STATE.JTAG_REFUSED 1

/-- IDCODE: its register shifts out, least significant bit first. -/
def execIdcode (bits : List Bool) (s : State) : Host.Outcome State Fault Refusal :=
  .next ((s.tapFree 1).emit (.tdo (shiftOut ((List.range 32).map (fun k => bitOf s.idcode (31 - k))) bits)))

/-- SAMPLE/PRELOAD. -/
def execSamplePreload (pins bits : List Bool) (s : State) : Host.Outcome State Fault Refusal := .next ((s.tapFree 2).scan pins bits)

/-- EXTEST. -/
def execExtest (pins bits : List Bool) (s : State) : Host.Outcome State Fault Refusal :=
  .next (s.tapDrive 3 bits (fun s => s.scan pins bits))

/-- EXTEST_PULSE. -/
def execExtestPulse (pins bits : List Bool) (s : State) : Host.Outcome State Fault Refusal :=
  .next (s.tapDrive 4 bits (fun s => s.scan pins bits))

/-- EXTEST_TRAIN. -/
def execExtestTrain (pins bits : List Bool) (s : State) : Host.Outcome State Fault Refusal :=
  .next (s.tapDrive 5 bits (fun s => s.scan pins bits))

/-- CLAMP: the pins hold the boundary register, and the bypass bit lies between TDI and TDO. -/
def execClamp (bits : List Bool) (s : State) : Host.Outcome State Fault Refusal :=
  .next (s.tapDrive 6 bits (fun s => s.emit (.tdo (shiftOut [false] bits))))

/-- HIGHZ: the pins are not driven. -/
def execHighz (bits : List Bool) (s : State) : Host.Outcome State Fault Refusal :=
  .next (s.tapDrive 7 bits (fun s => s.emit (.tdo (shiftOut [false] bits))))

/-- BYPASS, and every code that names no instruction. -/
def execBypass (bits : List Bool) (s : State) : Host.Outcome State Fault Refusal := .next (s.bypass 0xFF bits)

/-- TRST_N_ASSERTED: the TAP resets to IDCODE, and lets go of the pins. -/
def execTrstNAsserted (s : State) : Host.Outcome State Fault Refusal := .next (s.tapFree 1)

end Sys2Proof.Machine
end

