-- ==== Sys2Proof/Machine/Dispatch.lean ====
section
/-! DEFINITION. Each command's meaning, arm by arm. -/

namespace Sys2Proof.Machine

/-- The effect of a command on everything but the queue. -/
def exec (i : Instr) (s : State) : Host.Outcome State Fault Refusal :=
  match i with
  | .registerWrite rq space size data => Sys2Proof.Machine.execRegisterWrite rq space size data s
  | .ctrlEnableWrite rq d b on => Sys2Proof.Machine.execCtrlEnableWrite rq d b on s
  | .statusEnabledCleared d b => Sys2Proof.Machine.execStatusEnabledCleared d b s
  | .countClear rq d c => Sys2Proof.Machine.execCountClear rq d c s
  | .tokenAcquire rq => Sys2Proof.Machine.execTokenAcquire rq s
  | .tokenRelease rq => Sys2Proof.Machine.execTokenRelease rq s
  | .tokenLeaseExpiry => Sys2Proof.Machine.execTokenLeaseExpiry s
  | .install rq src host stop => Sys2Proof.Machine.execInstall rq src host stop s
  | .apply rq src host => Sys2Proof.Machine.execApply rq src host s
  | .verify rq src host => Sys2Proof.Machine.execVerify rq src host s
  | .enrolKey rq src host verified => Sys2Proof.Machine.execEnrolKey rq src host verified s
  | .revokeKey rq src host verified => Sys2Proof.Machine.execRevokeKey rq src host verified s
  | .raiseEpoch rq src host verified => Sys2Proof.Machine.execRaiseEpoch rq src host verified s
  | .setBootPolicy rq src arg host verified => Sys2Proof.Machine.execSetBootPolicy rq src arg host verified s
  | .quiesceReq rq => Sys2Proof.Machine.execQuiesceReq rq s
  | .quiesceEntered => Sys2Proof.Machine.execQuiesceEntered s
  | .featureFloorWrite rq v => Sys2Proof.Machine.execFeatureFloorWrite rq v s
  | .storeScrub corrected lost => Sys2Proof.Machine.execStoreScrub corrected lost s
  | .bar2Read f offset r => Sys2Proof.Machine.execBar2Read f offset r s
  | .bar2Write f offset data w => Sys2Proof.Machine.execBar2Write f offset data w s
  | .hostAtomicop f offset kind size a b => Sys2Proof.Machine.execHostAtomicop f offset kind size a b s
  | .holdRead f offset len => Sys2Proof.Machine.execHoldRead f offset len s
  | .holdTimeout f addr => Sys2Proof.Machine.execHoldTimeout f addr s
  | .holdRecallTimer addr => Sys2Proof.Machine.execHoldRecallTimer addr s
  | .ptRegister rq d => Sys2Proof.Machine.execPtRegister rq d s
  | .ptDeregister rq d => Sys2Proof.Machine.execPtDeregister rq d s
  | .ptClose via => Sys2Proof.Machine.execPtClose via s
  | .ptOpen via => Sys2Proof.Machine.execPtOpen via s
  | .ptBind rq d => Sys2Proof.Machine.execPtBind rq d s
  | .ptUnbind rq d => Sys2Proof.Machine.execPtUnbind rq d s
  | .ptSetWindow rq d => Sys2Proof.Machine.execPtSetWindow rq d s
  | .ptSetAttr rq d => Sys2Proof.Machine.execPtSetAttr rq d s
  | .ptRead rq d => Sys2Proof.Machine.execPtRead rq d s
  | .numvfsWrite h n => Sys2Proof.Machine.execNumvfsWrite h n s
  | .functionLevelReset f => Sys2Proof.Machine.execFunctionLevelReset f s
  | .perstNAsserted h => Sys2Proof.Machine.execPerstNAsserted h s
  | .perstNDeasserted h => Sys2Proof.Machine.execPerstNDeasserted h s
  | .hostLinkDown h one => Sys2Proof.Machine.execHostLinkDown h one s
  | .hostReadCompletion tag data poisoned => Sys2Proof.Machine.execHostReadCompletion tag data poisoned s
  | .hdmCommit h => Sys2Proof.Machine.execHdmCommit h s
  | .memrdShared h addr => Sys2Proof.Machine.execMemrdShared h addr s
  | .memrdOwnership h addr => Sys2Proof.Machine.execMemrdOwnership h addr s
  | .memwrWriteback h addr w => Sys2Proof.Machine.execMemwrWriteback h addr w s
  | .birsp h addr => Sys2Proof.Machine.execBirsp h addr s
  | .hagDwellExpiry addr => Sys2Proof.Machine.execHagDwellExpiry addr s
  | .getVersion w => Sys2Proof.Machine.execGetVersion w s
  | .getCapabilities w => Sys2Proof.Machine.execGetCapabilities w s
  | .negotiateAlgorithms w => Sys2Proof.Machine.execNegotiateAlgorithms w s
  | .getDigests w => Sys2Proof.Machine.execGetDigests w s
  | .getCertificate w slot => Sys2Proof.Machine.execGetCertificate w slot s
  | .challenge w nonce => Sys2Proof.Machine.execChallenge w nonce s
  | .getMeasurements w => Sys2Proof.Machine.execGetMeasurements w s
  | .keyExchange w id => Sys2Proof.Machine.execKeyExchange w id s
  | .finish w id x y => Sys2Proof.Machine.execFinish w id x y s
  | .heartbeat w id => Sys2Proof.Machine.execHeartbeat w id s
  | .keyUpdate w id => Sys2Proof.Machine.execKeyUpdate w id s
  | .endSession w id => Sys2Proof.Machine.execEndSession w id s
  | .ideKm h sec id k => Sys2Proof.Machine.execIdeKm h sec id k s
  | .ptmExchange h host => Sys2Proof.Machine.execPtmExchange h host s
  | .doorbell f q k size => Sys2Proof.Machine.execDoorbell f q k size s
  | .ctrAdd f q c value => Sys2Proof.Machine.execCtrAdd f q c value s
  | .ringConsWrite f q r index arm => Sys2Proof.Machine.execRingConsWrite f q r index arm s
  | .contextAddrWrite f q addr => Sys2Proof.Machine.execContextAddrWrite f q addr s
  | .fnSetsWrite rq f sets => Sys2Proof.Machine.execFnSetsWrite rq f sets s
  | .createQueue f q c rec => Sys2Proof.Machine.execCreateQueue f q c rec s
  | .start f q c => Sys2Proof.Machine.execStart f q c s
  | .stop f q c => Sys2Proof.Machine.execStop f q c s
  | .resetQueue f q c => Sys2Proof.Machine.execResetQueue f q c s
  | .createRing f q c rec => Sys2Proof.Machine.execCreateRing f q c rec s
  | .destroyRing f q c => Sys2Proof.Machine.execDestroyRing f q c s
  | .resetCounters f q c => Sys2Proof.Machine.execResetCounters f q c s
  | .invalidate f q c => Sys2Proof.Machine.execInvalidate f q c s
  | .indexReadReturn f q k idx slots => Sys2Proof.Machine.execIndexReadReturn f q k idx slots s
  | .phaseRetry f q k slot data => Sys2Proof.Machine.execPhaseRetry f q k slot data s
  | .pollTimer f q k => Sys2Proof.Machine.execPollTimer f q k s
  | .recordReload f q obj data => Sys2Proof.Machine.execRecordReload f q obj data s
  | .triggeredHeadStart f q k => Sys2Proof.Machine.execTriggeredHeadStart f q k s
  | .triggerSweep d => Sys2Proof.Machine.execTriggerSweep d s
  | .nop j => Sys2Proof.Machine.execNop j s
  | .counterAdd j => Sys2Proof.Machine.execCounterAdd j s
  | .completion j => Sys2Proof.Machine.execCompletion j s
  | .counterRecordWrite f q c => Sys2Proof.Machine.execCounterRecordWrite f q c s
  | .createSpace rq d c => Sys2Proof.Machine.execCreateSpace rq d c s
  | .destroySpace rq d c => Sys2Proof.Machine.execDestroySpace rq d c s
  | .createRegion rq d c => Sys2Proof.Machine.execCreateRegion rq d c s
  | .destroyRegion rq d c => Sys2Proof.Machine.execDestroyRegion rq d c s
  | .invalidateRange rq d c => Sys2Proof.Machine.execInvalidateRange rq d c s
  | .invalidateSpace rq d c => Sys2Proof.Machine.execInvalidateSpace rq d c s
  | .invalidateFunction rq d c => Sys2Proof.Machine.execInvalidateFunction rq d c s
  | .invalidateAll rq d c => Sys2Proof.Machine.execInvalidateAll rq d c s
  | .tokenComplete d c => Sys2Proof.Machine.execTokenComplete d c s
  | .walkReadReturn d id pte => Sys2Proof.Machine.execWalkReadReturn d id pte s
  | .atsTranslationCompletion d id addr log2Size r w u bad => Sys2Proof.Machine.execAtsTranslationCompletion d id addr log2Size r w u bad s
  | .atsInvalidateRequest f va log2Size => Sys2Proof.Machine.execAtsInvalidateRequest f va log2Size s
  | .tsend j => Sys2Proof.Machine.execTsend j s
  | .trecv j => Sys2Proof.Machine.execTrecv j s
  | .tprobe j => Sys2Proof.Machine.execTprobe j s
  | .tmprobe j => Sys2Proof.Machine.execTmprobe j s
  | .tcancel j => Sys2Proof.Machine.execTcancel j s
  | .tmrecv j => Sys2Proof.Machine.execTmrecv j s
  | .tagEager d id => Sys2Proof.Machine.execTagEager d id s
  | .tagRts d id => Sys2Proof.Machine.execTagRts d id s
  | .tagCont d id => Sys2Proof.Machine.execTagCont d id s
  | .tagPull d id => Sys2Proof.Machine.execTagPull d id s
  | .tagPullData d id => Sys2Proof.Machine.execTagPullData d id s
  | .tagFin d id => Sys2Proof.Machine.execTagFin d id s
  | .tagMatched d id => Sys2Proof.Machine.execTagMatched d id s
  | .storedCopyDone d j => Sys2Proof.Machine.execStoredCopyDone d j s
  | .spillReadReturn d id => Sys2Proof.Machine.execSpillReadReturn d id s
  | .spillReload d bin => Sys2Proof.Machine.execSpillReload d bin s
  | .chainIntervalEnd d => Sys2Proof.Machine.execChainIntervalEnd d s
  | .rehashGo rq d => Sys2Proof.Machine.execRehashGo rq d s
  | .rehashMove d => Sys2Proof.Machine.execRehashMove d s
  | .rehashCutover d => Sys2Proof.Machine.execRehashCutover d s
  | .put j => Sys2Proof.Machine.execPut j s
  | .putNotify j => Sys2Proof.Machine.execPutNotify j s
  | .get j => Sys2Proof.Machine.execGet j s
  | .fadd64 j => Sys2Proof.Machine.execFadd64 j s
  | .swap64 j => Sys2Proof.Machine.execSwap64 j s
  | .cas64 j => Sys2Proof.Machine.execCas64 j s
  | .smin64 j => Sys2Proof.Machine.execSmin64 j s
  | .smax64 j => Sys2Proof.Machine.execSmax64 j s
  | .umin64 j => Sys2Proof.Machine.execUmin64 j s
  | .umax64 j => Sys2Proof.Machine.execUmax64 j s
  | .swap128 j => Sys2Proof.Machine.execSwap128 j s
  | .cas128 j => Sys2Proof.Machine.execCas128 j s
  | .chunkIssue j => Sys2Proof.Machine.execChunkIssue j s
  | .rmaPut d id => Sys2Proof.Machine.execRmaPut d id s
  | .rmaNotify d id => Sys2Proof.Machine.execRmaNotify d id s
  | .rmaGetReq d id => Sys2Proof.Machine.execRmaGetReq d id s
  | .rmaGetData d id => Sys2Proof.Machine.execRmaGetData d id s
  | .rmaAtomic d id => Sys2Proof.Machine.execRmaAtomic d id s
  | .rmaAtomicRsp d id => Sys2Proof.Machine.execRmaAtomicRsp d id s
  | .flagHoldRelease d id => Sys2Proof.Machine.execFlagHoldRelease d id s
  | .targetCounterEvent d id => Sys2Proof.Machine.execTargetCounterEvent d id s
  | .notificationWrite d id => Sys2Proof.Machine.execNotificationWrite d id s
  | .sluiceAdmit d lane => Sys2Proof.Machine.execSluiceAdmit d lane s
  | .sluiceEntryWrite rq d e reg v => Sys2Proof.Machine.execSluiceEntryWrite rq d e reg v s
  | .ctxOpen d => Sys2Proof.Machine.execCtxOpen d s
  | .ctxOpenAck d => Sys2Proof.Machine.execCtxOpenAck d s
  | .ctxNoctx d => Sys2Proof.Machine.execCtxNoctx d s
  | .truAck d => Sys2Proof.Machine.execTruAck d s
  | .sequencedPacketReceive d => Sys2Proof.Machine.execSequencedPacketReceive d s
  | .packetLanded d id => Sys2Proof.Machine.execPacketLanded d id s
  | .ackDelayExpiry d j => Sys2Proof.Machine.execAckDelayExpiry d j s
  | .gapTimeout d j => Sys2Proof.Machine.execGapTimeout d j s
  | .retransmitTimeout d j => Sys2Proof.Machine.execRetransmitTimeout d j s
  | .rnrRetransmit d j => Sys2Proof.Machine.execRnrRetransmit d j s
  | .retryBudgetExhausted d j => Sys2Proof.Machine.execRetryBudgetExhausted d j s
  | .unreachHoldExpiry d j => Sys2Proof.Machine.execUnreachHoldExpiry d j s
  | .recordResendTimer d j => Sys2Proof.Machine.execRecordResendTimer d j s
  | .contextReload d j => Sys2Proof.Machine.execContextReload d j s
  | .contextWritebackDone d j => Sys2Proof.Machine.execContextWritebackDone d j s
  | .rateIncreaseTick d => Sys2Proof.Machine.execRateIncreaseTick d s
  | .queryPair rq d => Sys2Proof.Machine.execQueryPair rq d s
  | .queryIndex rq d => Sys2Proof.Machine.execQueryIndex rq d s
  | .abort rq d => Sys2Proof.Machine.execAbort rq d s
  | .qJoin j => Sys2Proof.Machine.execQJoin j s
  | .qRelease j => Sys2Proof.Machine.execQRelease j s
  | .qAllreduce j => Sys2Proof.Machine.execQAllreduce j s
  | .qReduce j => Sys2Proof.Machine.execQReduce j s
  | .qBcast j => Sys2Proof.Machine.execQBcast j s
  | .qBarrier j => Sys2Proof.Machine.execQBarrier j s
  | .qAbort j => Sys2Proof.Machine.execQAbort j s
  | .qctlJoin d id => Sys2Proof.Machine.execQctlJoin d id s
  | .qctlReady d id => Sys2Proof.Machine.execQctlReady d id s
  | .qctlCredit d id => Sys2Proof.Machine.execQctlCredit d id s
  | .qctlResend d id => Sys2Proof.Machine.execQctlResend d id s
  | .qctlRelease d id => Sys2Proof.Machine.execQctlRelease d id s
  | .qctlFree d id => Sys2Proof.Machine.execQctlFree d id s
  | .qctlAbort d id => Sys2Proof.Machine.execQctlAbort d id s
  | .qdata d id => Sys2Proof.Machine.execQdata d id s
  | .qresult d id => Sys2Proof.Machine.execQresult d id s
  | .segmentSend d k => Sys2Proof.Machine.execSegmentSend d k s
  | .joinTimeout d k => Sys2Proof.Machine.execJoinTimeout d k s
  | .pendingJoinTimeout d => Sys2Proof.Machine.execPendingJoinTimeout d s
  | .myFeaWrite rq d v => Sys2Proof.Machine.execMyFeaWrite rq d v s
  | .routeTableWrite rq d v table entry value => Sys2Proof.Machine.execRouteTableWrite rq d v table entry value s
  | .epochInjectWrite rq d v => Sys2Proof.Machine.execEpochInjectWrite rq d v s
  | .validate rq d v => Sys2Proof.Machine.execValidate rq d v s
  | .versionInvalidate rq d v => Sys2Proof.Machine.execVersionInvalidate rq d v s
  | .groupStatusPeriod d => Sys2Proof.Machine.execGroupStatusPeriod d s
  | .groupStatus d => Sys2Proof.Machine.execGroupStatus d s
  | .peerStale d r half => Sys2Proof.Machine.execPeerStale d r half s
  | .routePacket d k => Sys2Proof.Machine.execRoutePacket d k s
  | .imbalanceWindow d => Sys2Proof.Machine.execImbalanceWindow d s
  | .reseed rq d => Sys2Proof.Machine.execReseed rq d s
  | .holdLimitExpiry d place => Sys2Proof.Machine.execHoldLimitExpiry d place s
  | .crossbarAllocation d => Sys2Proof.Machine.execCrossbarAllocation d s
  | .packetEjected d => Sys2Proof.Machine.execPacketEjected d s
  | .nocUnitReceived d stop dir unit => Sys2Proof.Machine.execNocUnitReceived d stop dir unit s
  | .bridgeFlitReceived d m err => Sys2Proof.Machine.execBridgeFlitReceived d m err s
  | .bridgeModuleSilent d m => Sys2Proof.Machine.execBridgeModuleSilent d m s
  | .bridgeModuleRetrainDone m ok => Sys2Proof.Machine.execBridgeModuleRetrainDone m ok s
  | .flitSlot d j => Sys2Proof.Machine.execFlitSlot d j s
  | .flitReceived d j b bad => Sys2Proof.Machine.execFlitReceived d j b bad s
  | .replayTimeout d j => Sys2Proof.Machine.execReplayTimeout d j s
  | .linkRttWindow d j => Sys2Proof.Machine.execLinkRttWindow d j s
  | .lanesTrained d j => Sys2Proof.Machine.execLanesTrained d j s
  | .negotiatePropose d j b bad => Sys2Proof.Machine.execNegotiatePropose d j b bad s
  | .negotiateAgree d j b bad => Sys2Proof.Machine.execNegotiateAgree d j b bad s
  | .negotiateRefuse d j b bad => Sys2Proof.Machine.execNegotiateRefuse d j b bad s
  | .negotiateResend d j => Sys2Proof.Machine.execNegotiateResend d j s
  | .trainingAttemptTimeout d j => Sys2Proof.Machine.execTrainingAttemptTimeout d j s
  | .failedRestartTimer d j => Sys2Proof.Machine.execFailedRestartTimer d j s
  | .silenceTimeout d j => Sys2Proof.Machine.execSilenceTimeout d j s
  | .retrain rq d j => Sys2Proof.Machine.execRetrain rq d j s
  | .portHoldLimit d j => Sys2Proof.Machine.execPortHoldLimit d j s
  | .changeGo rq d j mask rate => Sys2Proof.Machine.execChangeGo rq d j mask rate s
  | .changeRequest d j b bad => Sys2Proof.Machine.execChangeRequest d j b bad s
  | .changeAccept d j b bad => Sys2Proof.Machine.execChangeAccept d j b bad s
  | .changeRefuse d j b bad => Sys2Proof.Machine.execChangeRefuse d j b bad s
  | .changeTimeout d j => Sys2Proof.Machine.execChangeTimeout d j s
  | .lanesReady d j => Sys2Proof.Machine.execLanesReady d j s
  | .linkRetire rq d j => Sys2Proof.Machine.execLinkRetire rq d j s
  | .trainingFrame d n c inverted => Sys2Proof.Machine.execTrainingFrame d n c inverted s
  | .quadPllLocked d q => Sys2Proof.Machine.execQuadPllLocked d q s
  | .laneStepTimeout d n => Sys2Proof.Machine.execLaneStepTimeout d n s
  | .qualificationWindow d n => Sys2Proof.Machine.execQualificationWindow d n s
  | .fecCodeword d n msg parity => Sys2Proof.Machine.execFecCodeword d n msg parity s
  | .adaptationUpdate d n => Sys2Proof.Machine.execAdaptationUpdate d n s
  | .laneLockLoss d n => Sys2Proof.Machine.execLaneLockLoss d n s
  | .lnePwrWrite rq d n v => Sys2Proof.Machine.execLnePwrWrite rq d n v s
  | .prbsCtrlWrite rq d n v => Sys2Proof.Machine.execPrbsCtrlWrite rq d n v s
  | .prbsNoPartner d n => Sys2Proof.Machine.execPrbsNoPartner d n s
  | .heartbeatTimer d answered => Sys2Proof.Machine.execHeartbeatTimer d answered s
  | .faultEvaluation o => Sys2Proof.Machine.execFaultEvaluation o s
  | .suppressedRecordsTick => Sys2Proof.Machine.execSuppressedRecordsTick s
  | .engineWatchdog n => Sys2Proof.Machine.execEngineWatchdog n s
  | .retire rq => Sys2Proof.Machine.execRetire rq s
  | .unretire rq => Sys2Proof.Machine.execUnretire rq s
  | .readRecord rq => Sys2Proof.Machine.execReadRecord rq s
  | .laneShutdown rq => Sys2Proof.Machine.execLaneShutdown rq s
  | .domainCycle rq => Sys2Proof.Machine.execDomainCycle rq s
  | .deviceReset rq avs => Sys2Proof.Machine.execDeviceReset rq avs s
  | .descentTimer d j => Sys2Proof.Machine.execDescentTimer d j s
  | .fenceAck d j => Sys2Proof.Machine.execFenceAck d j s
  | .domainStateSaved d j => Sys2Proof.Machine.execDomainStateSaved d j s
  | .fenceTimeout d j => Sys2Proof.Machine.execFenceTimeout d j s
  | .domainWake d j units => Sys2Proof.Machine.execDomainWake d j units s
  | .domainGalopReached d j => Sys2Proof.Machine.execDomainGalopReached d j s
  | .domCfgWrite rq d j mx pin => Sys2Proof.Machine.execDomCfgWrite rq d j mx pin s
  | .islandClockGate d j => Sys2Proof.Machine.execIslandClockGate d j s
  | .coreVoltageAdjust d mv answered => Sys2Proof.Machine.execCoreVoltageAdjust d mv answered s
  | .tempSample a b v => Sys2Proof.Machine.execTempSample a b v s
  | .windowEnd d => Sys2Proof.Machine.execWindowEnd d s
  | .pcuCountClear rq d => Sys2Proof.Machine.execPcuCountClear rq d s
  | .syncInterval d => Sys2Proof.Machine.execSyncInterval d s
  | .syncReq d => Sys2Proof.Machine.execSyncReq d s
  | .syncRsp d => Sys2Proof.Machine.execSyncRsp d s
  | .syncRspTimeout d => Sys2Proof.Machine.execSyncRspTimeout d s
  | .ftSet rq d v => Sys2Proof.Machine.execFtSet rq d v s
  | .pwrgoodRise avs => Sys2Proof.Machine.execPwrgoodRise avs s
  | .pwrgoodFall => Sys2Proof.Machine.execPwrgoodFall s
  | .resetNAsserted => Sys2Proof.Machine.execResetNAsserted s
  | .resetNDeasserted avs => Sys2Proof.Machine.execResetNDeasserted avs s
  | .sendMgt rq => Sys2Proof.Machine.execSendMgt rq s
  | .getSetting via => Sys2Proof.Machine.execGetSetting via s
  | .setSetting via stop => Sys2Proof.Machine.execSetSetting via stop s
  | .regRead via => Sys2Proof.Machine.execRegRead via s
  | .regWrite via => Sys2Proof.Machine.execRegWrite via s
  | .stageWrite via => Sys2Proof.Machine.execStageWrite via s
  | .mgtResponse => Sys2Proof.Machine.execMgtResponse s
  | .mgtRequestRetry => Sys2Proof.Machine.execMgtRequestRetry s
  | .arpRequest vlan ip => Sys2Proof.Machine.execArpRequest vlan ip s
  | .neighbourSolicitation vlan ip => Sys2Proof.Machine.execNeighbourSolicitation vlan ip s
  | .echoRequest vlan v6 ip data => Sys2Proof.Machine.execEchoRequest vlan v6 ip data s
  | .i3cAddressAssign target addr => Sys2Proof.Machine.execI3cAddressAssign target addr s
  | .i3cEnec addr events => Sys2Proof.Machine.execI3cEnec addr events s
  | .i3cPrivateWrite addr data => Sys2Proof.Machine.execI3cPrivateWrite addr data s
  | .i3cPrivateRead addr n => Sys2Proof.Machine.execI3cPrivateRead addr n s
  | .idcode bits => Sys2Proof.Machine.execIdcode bits s
  | .samplePreload pins bits => Sys2Proof.Machine.execSamplePreload pins bits s
  | .extest pins bits => Sys2Proof.Machine.execExtest pins bits s
  | .extestPulse pins bits => Sys2Proof.Machine.execExtestPulse pins bits s
  | .extestTrain pins bits => Sys2Proof.Machine.execExtestTrain pins bits s
  | .clamp bits => Sys2Proof.Machine.execClamp bits s
  | .highz bits => Sys2Proof.Machine.execHighz bits s
  | .bypass bits => Sys2Proof.Machine.execBypass bits s
  | .hostLinkUp h one rate width flit => Sys2Proof.Machine.execHostLinkUp h one rate width flit s
  | .devicePowerStateWrite f d3 => Sys2Proof.Machine.execDevicePowerStateWrite f d3 s
  | .aspmL1Entry h one => Sys2Proof.Machine.execAspmL1Entry h one s
  | .aspmL1Exit h one => Sys2Proof.Machine.execAspmL1Exit h one s
  | .hdmAccess h addr write len => Sys2Proof.Machine.execHdmAccess h addr write len s
  | .suppliesCollapse => Sys2Proof.Machine.execSuppliesCollapse s
  | .mgtEvent => Sys2Proof.Machine.execMgtEvent s
  | .oobBlockLock up => Sys2Proof.Machine.execOobBlockLock up s
  | .prbsCheckerLock d n => Sys2Proof.Machine.execPrbsCheckerLock d n s
  | .prbsLossOfLock d n => Sys2Proof.Machine.execPrbsLossOfLock d n s
  | .trstNAsserted => Sys2Proof.Machine.execTrstNAsserted s

end Sys2Proof.Machine
end

