-- ==== Sys2Proof/Machine/Tick.lean ====
section
/-! DEFINITION. The passing of time, while no command waits. -/

namespace Sys2Proof.Machine

/-- One nanosecond passes. With PWRGOOD high fabric time counts (18_counters.md R556), and what the block watches for a length of
time is looked at: idle domains and islands, out of reset (17_power.md R528, R532), the accesses of the engines (05_host_ports.md R140), the invalidations
that the host awaits (07_translation.md R214), and the conditions of QUIESCE and of READY
(02_structure_image.md R46; 19_startup.md R564). Log entry 6. -/
def State.tick (s : State) : State :=
  let s := { s with now := s.now + 1 }
  if s.svc.pwrgood then (s.ftTick.when s.svc.resetN (fun s => ((((s.trackPower .a).trackPower .b).enginesStep).atsInvDone .a).atsInvDone .b)).trackQuiesce.trackReady else s

end Sys2Proof.Machine
end

