-- ==== Sys2Proof/Safety.lean ====
section
/-! DEFINITION. What statements about every command are said in: the groups of state, and the invariant that every step keeps. -/

namespace Sys2Proof.Machine

/-! ## Groups of state -/

/-- The parts of the state that a command may change or leave alone. -/
inductive Grp where
  /-- Device memory and its poison marks. -/
  | mem
  /-- The image store. -/
  | store
  /-- The structure in force. -/
  | image
  /-- The token's lease, the quiesce timer and the staging buffer. -/
  | ims
  /-- The host ports. -/
  | ports
  /-- The key of the memory interleave. -/
  | interleave
  /-- The hold engine. -/
  | hold
  /-- Ordered accesses of functions. -/
  | accesses
  /-- The engines and their store buffers. -/
  | engines
  /-- Work queues. -/
  | queues
  /-- Completion rings. -/
  | rings
  /-- Completion counters. -/
  | counters
  /-- Queue control pages. -/
  | control
  /-- Work entries in progress. -/
  | ops
  /-- Reads of host memory in flight. -/
  | reads
  /-- The fault manager, its retirement table and its event ring. -/
  | faults
  /-- The service controller, the settings and the pins of the package. -/
  | svc
  /-- What the device has sent. -/
  | out
  /-- The count of free values drawn. -/
  | free
  /-- The register fields of every block. -/
  | regs
  /-- Polder tables. -/
  | polders
  /-- The key of the check words of queue-set records. -/
  | recKey
  /-- The memory controllers. -/
  | dmem
  /-- Translation. -/
  | xlu
  /-- The home agent. -/
  | hag
  /-- The trigger list. -/
  | triggers
  /-- The sluice. -/
  | sluice
  /-- Transport. -/
  | tru
  /-- Remote access. -/
  | rma
  /-- Message matching. -/
  | tmu
  /-- Routing. -/
  | rtb
  /-- The switch core. -/
  | swc
  /-- The link layer of the ports. -/
  | llus
  /-- The die bridge. -/
  | bridge
  /-- The NoC links. -/
  | noc
  /-- Event selections. -/
  | events
  /-- Lanes. -/
  | lanes
  /-- Fabric time. -/
  | time
  /-- Counter windows. -/
  | windows
  /-- Power domains. -/
  | power
  /-- Quadrilles. -/
  | members
  deriving DecidableEq, Repr

/-- A group of a die stands as it was. -/
def dieSame (g : Grp) (x y : DieState) : Prop :=
  match g with
  | .polders => y.polders = x.polders ∧ y.staleChecks = x.staleChecks
  | .recKey => y.recKey = x.recKey
  | .dmem => y.dmem = x.dmem ∧ y.hotStacks = x.hotStacks
  | .xlu => y.xlu = x.xlu
  | .hag => y.hag = x.hag
  | .triggers => y.trig = x.trig ∧ y.sweepAt = x.sweepAt
  | .sluice => y.sluice = x.sluice
  | .tru => y.tru = x.tru
  | .rma => y.rma = x.rma
  | .tmu => y.tmu = x.tmu
  | .rtb => y.rtb = x.rtb
  | .swc => y.swc = x.swc
  | .llus => y.llus = x.llus
  | .bridge => y.bridge = x.bridge
  | .noc => y.noc = x.noc
  | .events => y.evs = x.evs
  | .lanes => y.lanes = x.lanes ∧ y.plls = x.plls ∧ y.pllAt = x.pllAt
  | .time => y.ft = x.ft ∧ y.syncIn = x.syncIn
  | .windows => y.win = x.win
  | .power => y.doms = x.doms ∧ y.idleIsl = x.idleIsl
  | .members => y.members = x.members ∧ y.nextMember = x.nextMember ∧ y.joins = x.joins
  | _ => True

/-- A group stands in `t` as in `s`. -/
def same (g : Grp) (s t : State) : Prop :=
  match g with
  | .mem => t.mem = s.mem ∧ t.poison = s.poison
  | .store => t.store = s.store
  | .image => t.running = s.running
  | .ims => t.ims = s.ims
  | .ports => t.hps = s.hps
  | .interleave => t.memKey = s.memKey
  | .hold => t.waiters = s.waiters ∧ t.recallAt = s.recallAt ∧ t.holdCounts = s.holdCounts
  | .accesses => t.hostQ = s.hostQ
  | .engines => t.engines = s.engines
  | .queues => t.queues = s.queues
  | .rings => t.rings = s.rings
  | .counters => t.ctrs = s.ctrs
  | .control => t.qcs = s.qcs
  | .ops => t.ops = s.ops ∧ t.nextOp = s.nextOp
  | .reads => t.reads = s.reads ∧ t.nextRead = s.nextRead
  | .faults => t.fm = s.fm
  | .svc => t.svc = s.svc
  | .out => t.out = s.out
  | .free => t.free = s.free
  | .regs => t.regs = s.regs
  | g => dieSame g s.dies.a t.dies.a ∧ dieSame g s.dies.b t.dies.b

/-- Every group. -/
def allGroups : List Grp :=
  [.mem, .store, .image, .ims, .ports, .interleave, .hold, .accesses, .engines, .queues, .rings, .counters, .control, .ops,
   .reads, .faults, .svc, .out, .free, .regs, .polders, .recKey, .dmem, .xlu, .hag, .triggers, .sluice, .tru, .rma, .tmu, .rtb,
   .swc, .llus, .bridge, .noc, .events, .lanes, .time, .windows, .power, .members]

/-- Every group but those of a list. -/
def allBut (l : List Grp) : List Grp := allGroups.filter (fun g => !l.contains g)

/-- The groups that a command may change; every other group stands as it was. -/
def touched : Instr → List Grp
  | .registerWrite .. | .deviceReset .. | .domainGalopReached .. | .resetNAsserted | .regWrite .. | .i3cPrivateWrite .. =>
    allBut [.interleave]
  | .ctrlEnableWrite .. =>
    [.queues, .rings, .ops, .out, .free, .regs, .xlu, .triggers, .tmu, .rtb, .llus, .noc, .events, .lanes, .windows, .power]
  | .statusEnabledCleared .. | .tokenRelease .. | .tokenLeaseExpiry | .quiesceEntered | .featureFloorWrite ..
  | .ptRead .. | .ptmExchange .. | .fnSetsWrite .. | .queryPair .. | .queryIndex .. | .myFeaWrite ..
  | .routeTableWrite .. | .epochInjectWrite .. | .validate .. | .versionInvalidate .. | .readRecord ..
  | .islandClockGate .. | .oobBlockLock .. =>
    [.regs]
  | .countClear .. =>
    [.mem, .hold, .accesses, .out, .free, .regs, .dmem, .hag, .events, .lanes, .windows]
  | .tokenAcquire .. | .quiesceReq .. | .storeScrub .. =>
    [.ims, .regs]
  | .install .. =>
    [.store, .ims, .out, .regs]
  | .apply .. =>
    allBut [.store, .ports, .interleave, .control, .faults]
  | .verify .. =>
    [.ims, .out, .regs]
  | .enrolKey .. | .revokeKey .. | .raiseEpoch .. | .setBootPolicy .. =>
    [.store, .ims, .out, .free, .regs]
  | .bar2Read .. | .bar2Write .. | .hostAtomicop .. | .holdRead .. | .memrdShared .. | .memrdOwnership ..
  | .memwrWriteback .. | .birsp .. | .hagDwellExpiry .. | .hdmAccess .. =>
    [.mem, .hold, .accesses, .out, .regs, .dmem, .hag]
  | .holdTimeout .. =>
    [.hold, .out, .regs]
  | .holdRecallTimer .. =>
    [.hold, .out, .regs, .hag]
  | .ptRegister .. =>
    [.free, .regs, .polders, .sluice]
  | .ptDeregister .. =>
    [.regs, .polders, .sluice]
  | .ptClose .. =>
    [.queues, .ops, .out, .regs, .polders]
  | .ptOpen .. | .ptBind .. | .ptUnbind .. | .ptSetWindow .. | .ptSetAttr .. =>
    [.regs, .polders]
  | .numvfsWrite .. | .perstNDeasserted .. | .hostLinkDown .. | .aspmL1Entry .. =>
    [.ports]
  | .functionLevelReset .. | .perstNAsserted .. =>
    [.mem, .ports, .hold, .accesses, .queues, .rings, .counters, .ops, .reads, .out, .regs, .dmem, .xlu, .hag, .triggers, .sluice,
      .rma, .tmu, .members]
  | .hostReadCompletion .. | .qctlJoin .. | .qctlReady .. | .qctlCredit .. | .qctlResend .. | .qctlRelease ..
  | .qctlFree .. | .qctlAbort .. | .qdata .. | .qresult .. =>
    [.mem, .hold, .accesses, .rings, .ops, .reads, .out, .regs, .dmem, .xlu, .hag, .sluice, .tru, .rma, .members]
  | .hdmCommit .. =>
    [.ports, .regs]
  | .getVersion .. | .getCapabilities .. | .negotiateAlgorithms .. | .getDigests .. | .getCertificate ..
  | .challenge .. | .getMeasurements .. | .keyExchange .. | .finish .. | .heartbeat .. | .keyUpdate .. | .endSession .. =>
    [.ports, .svc, .out, .regs]
  | .ideKm .. =>
    [.ports, .out]
  | .doorbell .. | .pollTimer .. =>
    [.queues, .rings, .out, .free, .regs]
  | .ctrAdd .. =>
    [.counters, .out, .free, .regs]
  | .ringConsWrite .. =>
    [.queues, .rings, .ops, .out, .free, .regs, .triggers]
  | .contextAddrWrite .. | .resetCounters .. =>
    [.counters, .control, .regs]
  | .createQueue .. =>
    [.queues, .rings, .control, .out, .free, .regs]
  | .start .. | .invalidate .. =>
    [.queues, .rings, .control, .ops, .out, .free, .regs, .triggers]
  | .stop .. =>
    [.queues, .control, .regs]
  | .resetQueue .. =>
    [.mem, .hold, .accesses, .queues, .control, .ops, .reads, .out, .regs, .dmem, .xlu, .hag, .triggers, .sluice, .tmu]
  | .createRing .. =>
    [.rings, .control, .out, .regs]
  | .destroyRing .. =>
    [.rings, .control, .regs, .rma]
  | .indexReadReturn .. | .phaseRetry .. =>
    [.queues, .rings, .ops, .out, .free, .regs, .xlu, .triggers]
  | .recordReload .. =>
    [.queues, .rings, .counters, .ops, .out, .free, .regs]
  | .triggeredHeadStart .. | .triggerSweep .. =>
    [.queues, .rings, .counters, .ops, .out, .free, .regs, .triggers]
  | .nop .. =>
    [.ops]
  | .counterAdd .. =>
    [.counters, .ops, .out, .free, .regs]
  | .completion .. =>
    [.mem, .hold, .accesses, .queues, .rings, .counters, .ops, .reads, .out, .free, .regs, .dmem, .xlu, .hag, .triggers, .sluice,
      .tmu, .members]
  | .counterRecordWrite .. =>
    [.counters, .out, .regs]
  | .createSpace .. | .createRegion .. | .tokenComplete .. | .atsTranslationCompletion .. =>
    [.regs, .xlu]
  | .destroySpace .. | .destroyRegion .. | .invalidateRange .. | .invalidateSpace .. | .invalidateFunction ..
  | .invalidateAll .. | .walkReadReturn .. | .atsInvalidateRequest .. =>
    [.reads, .out, .regs, .xlu]
  | .tsend .. | .fadd64 .. | .swap64 .. | .cas64 .. | .smin64 .. | .smax64 .. | .umin64 .. | .umax64 .. | .swap128 ..
  | .cas128 .. =>
    [.mem, .hold, .accesses, .ops, .reads, .out, .regs, .dmem, .xlu, .hag, .sluice]
  | .trecv .. | .tmrecv .. =>
    [.mem, .hold, .accesses, .ops, .reads, .out, .free, .regs, .dmem, .xlu, .hag, .sluice, .tmu]
  | .tprobe .. | .tmprobe .. =>
    [.ops, .regs, .tmu]
  | .tcancel .. =>
    [.queues, .rings, .counters, .ops, .out, .free, .regs, .triggers, .tmu]
  | .tagEager .. | .tagRts .. =>
    [.mem, .hold, .accesses, .rings, .ops, .reads, .out, .free, .regs, .dmem, .xlu, .hag, .sluice, .tru, .rma, .tmu]
  | .tagCont .. =>
    [.mem, .hold, .accesses, .ops, .out, .regs, .dmem, .xlu, .hag, .tru, .tmu]
  | .tagPull .. =>
    [.mem, .hold, .accesses, .rings, .ops, .reads, .out, .regs, .dmem, .xlu, .hag, .sluice, .tru, .rma]
  | .tagPullData .. =>
    [.mem, .hold, .accesses, .ops, .reads, .out, .regs, .dmem, .xlu, .hag, .sluice, .tru, .tmu]
  | .tagFin .. | .tagMatched .. =>
    [.ops, .tru]
  | .storedCopyDone .. =>
    [.mem, .hold, .accesses, .ops, .out, .regs, .dmem, .xlu, .hag, .tmu]
  | .spillReadReturn .. =>
    [.mem, .hold, .accesses, .ops, .reads, .out, .free, .regs, .dmem, .xlu, .hag, .sluice, .tru, .tmu]
  | .spillReload .. | .rehashMove .. =>
    [.tmu]
  | .chainIntervalEnd .. | .rehashGo .. =>
    [.free, .regs, .tmu]
  | .rehashCutover .. =>
    [.regs, .tmu]
  | .put .. | .putNotify .. | .get .. | .chunkIssue .. =>
    [.mem, .hold, .accesses, .ops, .reads, .out, .regs, .dmem, .xlu, .hag, .sluice, .tmu]
  | .rmaPut .. | .rmaNotify .. | .rmaGetReq .. | .rmaAtomic .. | .flagHoldRelease .. =>
    [.mem, .hold, .accesses, .rings, .reads, .out, .regs, .dmem, .xlu, .hag, .sluice, .tru, .rma]
  | .rmaGetData .. | .rmaAtomicRsp .. =>
    [.mem, .hold, .accesses, .ops, .out, .regs, .dmem, .xlu, .hag, .tru]
  | .targetCounterEvent .. =>
    [.rings, .counters, .out, .free, .regs, .rma]
  | .notificationWrite .. =>
    [.rings, .out, .regs, .rma]
  | .sluiceAdmit .. =>
    [.mem, .hold, .accesses, .ops, .reads, .out, .free, .regs, .dmem, .xlu, .hag, .sluice, .tru, .rtb, .swc, .llus, .bridge, .members]
  | .sluiceEntryWrite .. =>
    [.regs, .sluice]
  | .ctxOpen .. =>
    [.mem, .hold, .accesses, .rings, .ops, .reads, .out, .free, .regs, .dmem, .xlu, .hag, .sluice, .tru, .rma, .tmu, .members]
  | .ctxOpenAck .. | .ctxNoctx .. | .retryBudgetExhausted .. | .abort .. =>
    [.mem, .hold, .accesses, .rings, .ops, .reads, .out, .regs, .dmem, .xlu, .hag, .sluice, .tru, .rma, .tmu, .members]
  | .truAck .. =>
    [.mem, .hold, .accesses, .ops, .reads, .out, .regs, .dmem, .xlu, .hag, .sluice, .tru, .members]
  | .sequencedPacketReceive .. =>
    [.rings, .regs, .sluice, .tru, .rma]
  | .packetLanded .. | .ackDelayExpiry .. | .gapTimeout .. | .retransmitTimeout .. | .recordResendTimer .. =>
    [.regs, .sluice, .tru]
  | .rnrRetransmit .. | .contextReload .. | .contextWritebackDone .. | .rateIncreaseTick .. =>
    [.tru]
  | .unreachHoldExpiry .. =>
    [.free, .sluice, .tru]
  | .qJoin .. | .qRelease .. | .qAllreduce .. | .qReduce .. | .qBcast .. | .qBarrier .. | .qAbort .. | .segmentSend .. =>
    [.mem, .hold, .accesses, .ops, .reads, .out, .regs, .dmem, .xlu, .hag, .sluice, .members]
  | .joinTimeout .. =>
    [.ops, .members]
  | .pendingJoinTimeout .. =>
    [.members]
  | .groupStatusPeriod .. =>
    [.sluice, .rtb]
  | .groupStatus .. =>
    [.rtb]
  | .peerStale .. =>
    [.regs, .rtb]
  | .routePacket .. =>
    [.free, .regs, .sluice, .rtb, .swc, .llus, .bridge]
  | .imbalanceWindow .. | .reseed .. =>
    [.free, .regs, .rtb]
  | .holdLimitExpiry .. | .portHoldLimit .. =>
    [.regs, .sluice, .swc, .llus, .bridge]
  | .crossbarAllocation .. =>
    [.regs, .sluice, .rtb, .swc, .llus, .bridge]
  | .packetEjected .. =>
    [.svc, .regs, .tru, .rtb, .swc, .time]
  | .nocUnitReceived .. | .domainWake .. =>
    [.regs, .xlu, .tmu, .swc, .bridge, .noc, .power]
  | .bridgeFlitReceived .. =>
    [.regs, .xlu, .sluice, .tmu, .swc, .llus, .bridge, .noc, .power]
  | .bridgeModuleSilent .. =>
    [.regs, .bridge]
  | .bridgeModuleRetrainDone .. =>
    [.faults, .svc, .out, .regs, .sluice, .rtb, .swc, .llus, .bridge, .noc]
  | .flitSlot .. =>
    [.out, .regs, .swc, .llus, .lanes]
  | .flitReceived .. | .negotiatePropose .. | .negotiateAgree .. | .negotiateRefuse .. | .changeRequest ..
  | .changeAccept .. | .changeRefuse .. | .fecCodeword .. =>
    [.ims, .out, .free, .regs, .sluice, .rtb, .swc, .llus, .bridge, .lanes]
  | .replayTimeout .. | .trainingAttemptTimeout .. | .failedRestartTimer .. | .silenceTimeout .. | .retrain ..
  | .changeTimeout .. | .laneLockLoss .. =>
    [.regs, .rtb, .llus, .lanes]
  | .linkRttWindow .. =>
    [.regs, .llus]
  | .lanesTrained .. | .lanesReady .. | .lnePwrWrite .. =>
    [.out, .regs, .rtb, .llus, .lanes]
  | .negotiateResend .. =>
    [.out, .llus, .lanes]
  | .changeGo .. | .qualificationWindow .. =>
    [.out, .regs, .llus, .lanes]
  | .linkRetire .. =>
    [.faults, .svc, .out, .regs, .sluice, .rtb, .swc, .llus, .bridge, .lanes]
  | .trainingFrame .. =>
    [.out, .free, .regs, .rtb, .llus, .lanes]
  | .quadPllLocked .. | .laneStepTimeout .. | .prbsNoPartner .. =>
    [.regs, .llus, .lanes]
  | .adaptationUpdate .. | .prbsCtrlWrite .. | .prbsLossOfLock .. =>
    [.free, .regs, .lanes]
  | .heartbeatTimer .. =>
    allBut [.store, .image, .ims, .interleave, .control, .free, .polders, .recKey, .tru, .events, .time, .windows]
  | .faultEvaluation .. =>
    allBut [.store, .image, .ims, .interleave, .control, .recKey, .events, .time, .windows]
  | .suppressedRecordsTick =>
    [.faults, .svc, .out, .regs, .sluice]
  | .engineWatchdog .. =>
    [.mem, .hold, .accesses, .engines, .faults, .svc, .out, .regs, .dmem, .hag, .sluice]
  | .retire .. =>
    allBut [.store, .image, .ims, .interleave, .control, .polders, .recKey, .events, .time, .windows]
  | .unretire .. =>
    [.faults, .svc, .out, .regs, .sluice, .rtb, .llus, .lanes]
  | .laneShutdown .. | .prbsCheckerLock .. =>
    [.regs, .lanes]
  | .domainCycle .. =>
    allBut [.store, .image, .ims, .interleave, .control, .svc, .free, .polders, .recKey, .tru, .noc, .events, .time, .windows]
  | .descentTimer .. | .domainStateSaved .. =>
    [.regs, .xlu, .tmu, .power]
  | .fenceAck .. =>
    allBut [.store, .image, .ims, .interleave, .control, .faults, .svc, .free, .polders, .recKey, .tru, .noc, .events, .time,
      .windows]
  | .fenceTimeout .. =>
    allBut [.store, .image, .ims, .interleave, .control, .faults, .svc, .free, .polders, .recKey, .tru, .events, .time, .windows]
  | .domCfgWrite .. =>
    [.regs, .xlu, .tmu, .noc, .power]
  | .coreVoltageAdjust .. =>
    [.out, .regs]
  | .tempSample .. =>
    [.svc, .out, .regs, .dmem, .xlu, .tmu, .lanes, .power]
  | .windowEnd .. | .pcuCountClear .. =>
    [.mem, .hold, .accesses, .out, .regs, .dmem, .hag, .events, .windows]
  | .syncInterval .. =>
    [.regs, .sluice, .time]
  | .syncReq .. =>
    [.sluice, .time]
  | .syncRsp .. | .ftSet .. =>
    [.mem, .hold, .accesses, .out, .regs, .dmem, .hag, .events, .time, .windows]
  | .syncRspTimeout .. =>
    [.regs, .time]
  | .pwrgoodRise .. =>
    allGroups
  | .pwrgoodFall | .suppliesCollapse =>
    allBut [.store, .out, .free]
  | .resetNDeasserted .. =>
    allBut [.interleave, .control, .faults]
  | .sendMgt .. | .mgtRequestRetry =>
    [.svc, .regs, .sluice]
  | .getSetting .. | .regRead .. =>
    [.svc, .out, .regs, .sluice]
  | .setSetting .. =>
    [.ims, .svc, .out, .free, .regs, .sluice]
  | .stageWrite .. =>
    [.ims, .svc, .out, .regs, .sluice]
  | .mgtResponse =>
    [.svc, .regs]
  | .arpRequest .. | .neighbourSolicitation .. | .echoRequest .. =>
    [.out]
  | .i3cAddressAssign .. | .i3cEnec .. | .mgtEvent | .trstNAsserted =>
    [.svc]
  | .i3cPrivateRead .. =>
    [.svc, .out, .free]
  | .idcode .. | .samplePreload .. | .bypass .. =>
    [.svc, .out]
  | .extest .. | .extestPulse .. | .extestTrain .. | .clamp .. | .highz .. =>
    [.svc, .out, .regs]
  | .hostLinkUp .. =>
    [.ports, .faults, .regs]
  | .devicePowerStateWrite .. | .aspmL1Exit .. =>
    [.ports, .regs, .xlu, .tmu, .noc, .power]

/-! ## What a statement says of a command -/

/-- Run in `s`, the command answers a next state, and `Q` holds of it. -/
def Runs (c : Instr) (s : State) (Q : State → Prop) : Prop := ∃ t, exec c s = .next t ∧ Q t

/-- Every register field outside a list reads in `t` as it did in `s`. -/
def onlyFields (l : List (Die × Fld)) (s t : State) : Prop := ∀ d f, (∀ p ∈ l, fkey d f ≠ fkey p.1 p.2) → t.rd d f = s.rd d f

/-- The requester reaches PF BAR0 and has a warden's rights (03_register_model.md R80; 19_startup.md R570). -/
def State.warden (s : State) (rq : Requester) : Prop := s.barUp rq = true ∧ s.privileged rq = true

/-- As `warden`, for the IMS (02_structure_image.md R58). -/
def State.imsWarden (s : State) (rq : Requester) : Prop := s.barUp rq = true ∧ s.imsPrivileged rq = true

/-- What goes out for a posted write to a function's host memory (05_host_ports.md R128). -/
def State.wrote (s : State) (f : Fn) (addr : Nat) (relaxed : Bool) (data : List Byte) : Output :=
  if s.coherent f.hp then .itoMWr f addr data else .hostWrite f addr relaxed data

/-- What goes out for a read of it. -/
def State.asked (s : State) (f : Fn) (addr len : Nat) : Output := if s.coherent f.hp then .rdCurr f addr len else .hostRead f addr len

/-- The counts of what the host ports of a die read and write of their hosts' memory (18_counters.md R547). -/
def dmaFields (d : Die) : List (Die × Fld) := [0, 1, 4, 5].map (fun i => (d, PCU.HP_CTR.COUNT i))

/-- A saturating counter has counted one more. -/
def counted (d : Die) (f : Fld) (s t : State) : Prop := t.rd d f = min (s.rd d f + 1) (2 ^ f.w - 1)

/-- Fields of the count of refused accesses, and of its last one (03_register_model.md R88). -/
def violationFields : List (Die × Fld) :=
  [(.a, GLB.PRIV_VIOLATION_COUNT.COUNT), (.a, GLB.PRIV_VIOLATION_LAST.REQUESTER), (.a, GLB.PRIV_VIOLATION_LAST.VIEW),
   (.a, GLB.PRIV_VIOLATION_LAST.OFFSET)]

/-- Fields that an IMS command writes: CMD, the token, the lease and CMD_STATUS, what shows of the store, and the counts of what the host
ports read of their hosts' memory (02_structure_image.md R66 to R68; 18_counters.md R547). -/
def imsFields : List (Die × Fld) :=
  ([IMS.CMD.OP, IMS.CMD.SRC, IMS.CMD.ARG, IMS.TOKEN.OWNER_CLASS, IMS.TOKEN.OWNER_FN, IMS.LEASE.REMAIN_MS, IMS.CMD_STATUS.BUSY,
    IMS.CMD_STATUS.DONE, IMS.CMD_STATUS.CODE, IMS.CMD_STATUS.DETAIL, IMS.BOOT_POLICY.POLICY, IMS.ENDURANCE.COMMITS, IMS.KEY_STATUS.ENROLLED,
    IMS.KEY_STATUS.MIN_SECURITY_EPOCH, IMS.JOURNAL_HEAD.SEQ, IMS.JOURNAL_HEAD.SLOT].map (fun f => (.a, f))) ++
  [(.a, PCU.HP_CTR.COUNT 0), (.a, PCU.HP_CTR.COUNT 4), (.b, PCU.HP_CTR.COUNT 0), (.b, PCU.HP_CTR.COUNT 4)]

/-- Fields that every PT command writes (04_polders.md R117). -/
def ptFields (d : Die) : List (Die × Fld) :=
  [(d, DIKE.PT_CMD.OP), (d, DIKE.PT_STATUS.BUSY), (d, DIKE.PT_STATUS.DONE), (d, DIKE.PT_STATUS.CODE), (d, DIKE.PT_STATUS.DETAIL),
   (d, DIKE.PT_STATUS.INDEX)]

/-- The requester of a management request. -/
def viaRq : MgtVia → Requester
  | .mgt => .mgt
  | .oob .. => .oob

/-- A REQUEST `b` with an OP reaches the SVC and is executed: the head of the receive queue, not seen before, while the table of answers
has room (19_startup.md R578); or a datagram that the out-of-band port may serve (R580, R581). -/
def State.asks (s : State) (via : MgtVia) (b : List Byte) (op : Nat) : Prop :=
  mgOp b = op ∧ match via with
    | .mgt => ∃ p, s.inboxHead 1 = some p ∧ b = pktData p ∧ s.svc.answers.find? (fun a => a.fea == p.src && a.id == mgReq b) = none ∧
        s.freshAnswers < 4096
    | .oob session msg => msg = b ∧ s.oobUp = true ∧ le b 0 1 = 1 ∧ s.oobMay session b = true

/-- The RESPONSE to it goes out by the way the REQUEST came. -/
def answered (via : MgtVia) (b : List Byte) (status data : Nat) (s t : State) : Prop :=
  match via with
  | .mgt => ∃ p q, s.inboxHead 1 = some p ∧ t.svc.inbox = s.svc.inbox.drop 1 ∧ (t.sluice .a).ctl = (s.sluice .a).ctl ++ [q] ∧
      q.dest = p.src ∧ q.data = padUnits (mgAnswer b status data)
  | .oob .. => t.out = s.out ++ [.oob (mgAnswer b status data)]

/-- The invariant of the model: the register fields are listed by strictly rising key, and device memory is in its canonical form. -/
def State.inv (s : State) : Prop := tblWf s.regs = true ∧ Memory.wf s.mem = true

end Sys2Proof.Machine
end

