-- ==== Sys2Proof/Certificates/Slice0/Obligations.lean ====
section
/-! DEFINITION. The statements about the model, for the provers: what a step is, what every command keeps, and what the commands of
each family do. A clause about a command has the form: where the state and the operands meet its hypotheses, the command runs to a next
state (`Runs`), of which the clause says what the spec's rules give. -/

open Sys2Proof Sys2Proof.Machine

/-! ## The machine -/

/-- A step takes the command at the front of the queue and runs it with the queue's rest. -/
def Obligations.StepRunsFront : Prop :=
  ∀ (c : Instr) (rest : List Instr) (s : State), step { s with pending := c :: rest } = exec c { s with pending := rest }

/-- With no command waiting a nanosecond passes: the model's own choice of what an idle step does (log entry 6). With PWRGOOD low only
the clock moves. -/
def Obligations.IdleStepPassesTime : Prop :=
  ∀ s : State, s.pending = [] →
    ∃ t, step s = .next t ∧ t.now = s.now + 1 ∧ t.pending = [] ∧ (s.svc.pwrgood = false → t = { s with now := s.now + 1 })

/-- Every command answers a next state in every state: none ends in a fault or a refusal. -/
def Obligations.NoCommandStops : Prop := ∀ (c : Instr) (s : State), ∃ t, exec c s = .next t

/-- The state right after reset: every register field reads its reset value, device memory reads 0 (the model's choice, log entry 4),
nothing is resident or in flight, and PWRGOOD is low. -/
def Obligations.ResetState : Prop :=
  (∀ d f, State.reset.rd d f = f.rst) ∧ (∀ a, State.reset.mbyte a = 0) ∧ State.reset.pending = [] ∧ State.reset.out = [] ∧
  State.reset.running = none ∧ State.reset.store.owners = [] ∧ State.reset.queues = [] ∧ State.reset.ops = [] ∧
  (∀ d, (State.reset.die d).polders = []) ∧ State.reset.svc.pwrgood = false

/-- The state right after reset has the invariant. -/
def Obligations.ResetHasInvariant : Prop := State.reset.inv

/-- Every step keeps the invariant: register fields listed by strictly rising key, and device memory in its canonical form. -/
def Obligations.StepKeepsInvariant : Prop := ∀ s t : State, s.inv → step s = .next t → t.inv

/-- A command changes only the groups of state that it touches; every other group stands as it was. So every byte of device memory
stands as it was after a command that does not touch device memory. -/
def Obligations.CommandTouchesOnlyItsGroups : Prop :=
  (∀ (c : Instr) (s t : State) (g : Grp), exec c s = .next t → g ∉ touched c → same g s t) ∧
  (∀ (c : Instr) (s t : State), .mem ∉ touched c → exec c s = .next t → ∀ a, t.mbyte a = s.mbyte a)

/-- No command changes the part, the serial number, the stepping, the root key, the clock or the queue; so a step takes exactly the
command at the front. -/
def Obligations.CommandKeepsIdentity : Prop :=
  ∀ (c : Instr) (s t : State), exec c s = .next t →
    t.part = s.part ∧ t.serial = s.serial ∧ t.stepping = s.stepping ∧ t.rootKey = s.rootKey ∧ t.now = s.now ∧ t.pending = s.pending

/-- A register field reads what was written to it, cut to its width, and every field at another place reads as before. Device memory
reads what was stored, and every byte outside the stored range reads as before. Both keep the invariant. -/
def Obligations.WritesReadBack : Prop :=
  (∀ (s : State) (d : Die) (f : Fld) (v : Nat), s.inv →
    (s.wr d f v).rd d f = v % 2 ^ f.w ∧ (s.wr d f v).inv ∧ ∀ e g, fkey e g ≠ fkey d f → (s.wr d f v).rd e g = s.rd e g) ∧
  (∀ (s : State) (a : Nat) (bs : List Byte) (p : Bool), s.inv →
    (s.mstore a bs p).inv ∧ (s.mstore a bs p).mread a bs.length = bs ∧
    ∀ x, (x < a ∨ a + bs.length ≤ x) → (s.mstore a bs p).mbyte x = s.mbyte x)

/-! ## Images and the store (02_structure_image.md) -/

/-- TOKEN_ACQUIRE, TOKEN_RELEASE and TOKEN_LEASE_EXPIRY: a free token goes to the requester with a lease of 30 s, which its holder
renews; another requester is told IMS_BUSY and nothing else changes; the holder, or the lease's end, frees it. -/
def Obligations.TokenHasOneHolder : Prop :=
  ∀ (s : State) (rq : Requester), s.inv → s.imsWarden rq →
    let holds := s.rd .a IMS.TOKEN.OWNER_CLASS = rqClass rq ∧ s.rd .a IMS.TOKEN.OWNER_FN = rqFn rq
    let token := [(Die.a, IMS.TOKEN.OWNER_CLASS), (.a, IMS.TOKEN.OWNER_FN), (.a, IMS.LEASE.REMAIN_MS)]
    let status := [(Die.a, IMS.CMD_STATUS.BUSY), (.a, IMS.CMD_STATUS.DONE), (.a, IMS.CMD_STATUS.CODE), (.a, IMS.CMD_STATUS.DETAIL)]
    (s.rd .a IMS.TOKEN.OWNER_CLASS = 0 ∨ holds → Runs (.tokenAcquire rq) s (fun t =>
      t.rd .a IMS.TOKEN.OWNER_CLASS = rqClass rq ∧ t.rd .a IMS.TOKEN.OWNER_FN = rqFn rq ∧ t.rd .a IMS.LEASE.REMAIN_MS = 30000 ∧
      t.ims.leaseEnd = s.now + 30000000000 ∧ onlyFields token s t)) ∧
    (s.rd .a IMS.TOKEN.OWNER_CLASS ≠ 0 ∧ ¬ holds → Runs (.tokenAcquire rq) s (fun t =>
      t.rd .a IMS.CMD_STATUS.CODE = 0x71 ∧ t.rd .a IMS.CMD_STATUS.DETAIL = 0 ∧ t.ims = s.ims ∧ onlyFields status s t)) ∧
    (holds → Runs (.tokenRelease rq) s (fun t => t.rd .a IMS.TOKEN.OWNER_CLASS = 0 ∧ t.rd .a IMS.TOKEN.OWNER_FN = 0 ∧ onlyFields token s t)) ∧
    (¬ holds → Runs (.tokenRelease rq) s (fun t => t = s)) ∧
    (s.rd .a IMS.TOKEN.OWNER_CLASS ≠ 0 ∧ s.ims.leaseEnd ≤ s.now →
      Runs .tokenLeaseExpiry s (fun t => t.rd .a IMS.TOKEN.OWNER_CLASS = 0 ∧ onlyFields token s t)) ∧
    (s.rd .a IMS.TOKEN.OWNER_CLASS = 0 ∨ s.now < s.ims.leaseEnd → Runs .tokenLeaseExpiry s (fun t => t = s))

/-- INSTALL, VERIFY and APPLY of an image that passes every check end with OK: INSTALL writes the four steps into the store's inactive
slot and its journal, VERIFY changes nothing there, and APPLY, once QUIESCED, puts the image's structure in force. -/
def Obligations.ImageCommandsComplete : Prop :=
  ∀ (s : State) (rq : Requester) (host : List Byte), s.inv → s.imsWarden rq → s.rd .a IMS.CMD_STATUS.BUSY = 0 → s.mayHold rq = true →
    let ended := fun (t : State) => t.rd .a IMS.CMD_STATUS.BUSY = 0 ∧ t.rd .a IMS.CMD_STATUS.DONE = 1 ∧ t.rd .a IMS.CMD_STATUS.CODE = 0 ∧
      t.rd .a IMS.CMD_STATUS.DETAIL = 0
    let slot := match s.bootSelect.1 with | some r => 3 - r.slot.toNat | none => 1
    let b := s.source rq 0 host
    (s.verifyImage b = 0 → s.store.lastSeq + 1 ≤ 0xFFFFFFFE → Runs (.install rq 0 host none) s (fun t =>
      ended t ∧ t.store = s.store.installSteps slot (s.store.lastSeq + 1) 4 (b.take (imageLen b)) ∧ t.rd .a IMS.CMD_STATUS.STEP = 4)) ∧
    (∀ src : Fin 4, src.val ≤ 2 → s.checkSource src.val (s.source rq src.val host) = 0 → Runs (.verify rq src host) s (fun t =>
      ended t ∧ t.store = s.store ∧ t.running = s.running)) ∧
    (∀ src : Fin 4, src.val ≤ 2 → s.checkSource src.val (s.source rq src.val host) ≠ 0 → Runs (.verify rq src host) s (fun t =>
      t.rd .a IMS.CMD_STATUS.CODE = 0x22 ∧ t.rd .a IMS.CMD_STATUS.DONE = 1 ∧ t.store = s.store ∧ t.running = s.running)) ∧
    (∀ src : Fin 4, src.val ≤ 2 → s.checkSource src.val (s.source rq src.val host) = 0 → s.rd .a IMS.QUIESCE.STATE = 2 →
      Runs (.apply rq src host) s (fun t => ended t ∧ t.running = some (s.structureOf (s.source rq src.val host)))) ∧
    (∀ src : Fin 4, src.val ≤ 2 → s.rd .a IMS.QUIESCE.STATE ≠ 2 → Runs (.apply rq src host) s (fun t =>
      t.rd .a IMS.CMD_STATUS.CODE = 0x22 ∧ t.rd .a IMS.CMD_STATUS.DETAIL = 0x05 ∧ t.running = s.running))

/-- ENROL_KEY, REVOKE_KEY, RAISE_EPOCH and SET_BOOT_POLICY, from a requester that may hold the token, while no IMS command runs. A control
record that fails a check is refused with the detail of the first of these that it fails: the format, the scope, the signature, the
counter, and then the rule of its command. One that passes them all sets CODE OK, and writes its effect and its counter into the store;
where a word reads back otherwise, the command ends with WRITE_VERIFY, and the store is as it was or as after the effect. A SRC that is not
allowed, and an ARG of 3, are COMMAND_INVALID. Without an owner key SET_BOOT_POLICY takes no record. A refused command leaves the store as it
was, and each of them writes no register field but those of `imsFields`. While another requester holds the token the command ends with
IMS_BUSY, and while one runs it is ignored. -/
def Obligations.ControlRecordsTakeEffect : Prop :=
  ∀ (s : State) (rq : Requester) (host : List Byte), s.inv → s.imsWarden rq →
    let b := s.source rq 0 host
    let st := s.store
    let fails := fun (kind : Nat) =>
      if recordFormat b kind = false then 0x03
      else if le b 16 16 ≠ 0 ∧ le b 16 16 ≠ s.serial then 0x09
      else if s.recordSigned b kind = false then 0x01
      else if le b 8 8 ≤ st.control then 0x0E
      else 0
    let ends := fun (code detail : Nat) (t : State) => t.rd .a IMS.CMD_STATUS.BUSY = 0 ∧ t.rd .a IMS.CMD_STATUS.DONE = 1 ∧
      t.rd .a IMS.CMD_STATUS.CODE = code ∧ t.rd .a IMS.CMD_STATUS.DETAIL = detail ∧ onlyFields imsFields s t
    let refused := fun (c : Instr) (detail : Nat) => Runs c s (fun t => ends 0x22 detail t ∧ t.store = st)
    let effect := fun (c : Bool → Instr) (st' : Store) => Runs (c true) s (fun t => ends 0 0 t ∧ t.store = st') ∧
      Runs (c false) s (fun t => ends 0x22 0x0A t ∧ (t.store = st ∨ t.store = st'))
    let plain := fun (src : Fin 4) (v : Bool) => [(Instr.enrolKey rq src host v, 1), (.revokeKey rq src host v, 2), (.raiseEpoch rq src host v, 3)]
    let forms := fun (src : Fin 4) (v : Bool) => plain src v ++ (List.finRange 4).map (fun a => (.setBootPolicy rq src a host v, 4))
    (s.rd .a IMS.CMD_STATUS.BUSY = 1 → ∀ src v, ∀ c ∈ forms src v, Runs c.1 s (fun t => t = s)) ∧
    (s.rd .a IMS.CMD_STATUS.BUSY = 0 → s.mayHold rq = false → ∀ src v, ∀ c ∈ forms src v,
      Runs c.1 s (fun t => ends 0x71 0 t ∧ t.store = st ∧ t.ims = s.ims)) ∧
    (s.rd .a IMS.CMD_STATUS.BUSY = 0 → s.mayHold rq = true →
      (∀ src v, src ≠ 0 → ∀ c ∈ plain src v, refused c.1 0x0D) ∧
      (∀ src arg v, arg = 3 ∨ (src ≠ 0 ∧ st.owners ≠ []) → refused (.setBootPolicy rq src arg host v) 0x0D) ∧
      (∀ v, ∀ c ∈ plain 0 v, fails c.2 ≠ 0 → refused c.1 (fails c.2)) ∧
      (∀ v, fails 1 = 0 → subjectKey b ∈ st.owners ∨ 4 ≤ st.owners.length → refused (.enrolKey rq 0 host v) 0x0C) ∧
      (fails 1 = 0 → subjectKey b ∉ st.owners → st.owners.length < 4 →
        effect (.enrolKey rq 0 host) { st with keys := putKey (subjectKey b) st.keys, control := le b 8 8 }) ∧
      (∀ v, fails 2 = 0 → st.owners.find? (fun k => keyId k == cut b 32 16) = none ∨ st.owners.length ≤ 1 →
        refused (.revokeKey rq 0 host v) 0x0C) ∧
      (∀ k, fails 2 = 0 → st.owners.find? (fun k => keyId k == cut b 32 16) = some k → 1 < st.owners.length →
        effect (.revokeKey rq 0 host) { st with keys := st.keys.map (fun x => if x = some k then none else x), control := le b 8 8 }) ∧
      (∀ v, fails 3 = 0 → le b 6 2 < st.minEpoch → refused (.raiseEpoch rq 0 host v) 0x08) ∧
      (fails 3 = 0 → st.minEpoch ≤ le b 6 2 → effect (.raiseEpoch rq 0 host) { st with minEpoch := le b 6 2, control := le b 8 8 }) ∧
      (∀ arg : Fin 4, arg ≠ 3 → st.owners ≠ [] →
        (∀ v, fails 4 ≠ 0 → refused (.setBootPolicy rq 0 arg host v) (fails 4)) ∧
        (∀ v, fails 4 = 0 → le b 5 1 ≠ arg.val → refused (.setBootPolicy rq 0 arg host v) 0x0D) ∧
        (fails 4 = 0 → le b 5 1 = arg.val → effect (.setBootPolicy rq 0 arg host) { st with policy := arg.val, control := le b 8 8 })) ∧
      (∀ src arg : Fin 4, arg ≠ 3 → st.owners = [] → effect (.setBootPolicy rq src arg host) { st with policy := arg.val }))

/-- Quiesce, the feature floor and the scrub: QUIESCE_REQ moves RUNNING to DRAINING; QUIESCED is entered when the conditions have held
for 100 µs; a floor above V, or one that lowers it outside QUIESCED, is ignored and sets REJECT; a scrub, 24 hours after the last, adds the
words that it corrected, and those beyond correction, to its saturating counts. -/
def Obligations.QuiesceFloorAndScrub : Prop :=
  ∀ (s : State) (rq : Requester), s.inv → s.imsWarden rq →
    (s.rd .a IMS.QUIESCE.STATE = 0 → Runs (.quiesceReq rq) s (fun t =>
      t.rd .a IMS.QUIESCE.REQ = 1 ∧ t.rd .a IMS.QUIESCE.STATE = 1 ∧ t.rd .a IMS.QUIESCE.BLOCKER = s.blocker ∧
      t.ims.quietSince = (if s.blocker = 0 then some s.now else none) ∧
      onlyFields [(.a, IMS.QUIESCE.REQ), (.a, IMS.QUIESCE.STATE), (.a, IMS.QUIESCE.BLOCKER)] s t)) ∧
    (∀ q, s.ims.quietSince = some q → s.rd .a IMS.QUIESCE.STATE = 1 → s.blocker = 0 → q + 100000 ≤ s.now →
      (∀ a, s.ims.lastArrival = some a → a < q) → Runs .quiesceEntered s (fun t =>
        t.rd .a IMS.QUIESCE.STATE = 2 ∧ t.rd .a IMS.QUIESCE.BLOCKER = 0 ∧ onlyFields [(.a, IMS.QUIESCE.STATE), (.a, IMS.QUIESCE.BLOCKER)] s t)) ∧
    (∀ q, s.ims.quietSince = some q → s.now < q + 100000 → Runs .quiesceEntered s (fun t => t = s)) ∧
    (∀ v : Fin 16, s.rd .a IMS.VERSION.V < v.val ∨ (v.val < s.rd .a IMS.FEATURE_FLOOR.FLOOR ∧ s.rd .a IMS.QUIESCE.STATE ≠ 2) →
      Runs (.featureFloorWrite rq v) s (fun t => t.rd .a IMS.FEATURE_FLOOR.REJECT = 1 ∧ onlyFields [(.a, IMS.FEATURE_FLOOR.REJECT)] s t)) ∧
    (∀ v : Fin 16, v.val ≤ s.rd .a IMS.VERSION.V → s.rd .a IMS.FEATURE_FLOOR.FLOOR ≤ v.val ∨ s.rd .a IMS.QUIESCE.STATE = 2 →
      Runs (.featureFloorWrite rq v) s (fun t => t.rd .a IMS.FEATURE_FLOOR.FLOOR = v.val ∧ onlyFields [(.a, IMS.FEATURE_FLOOR.FLOOR)] s t)) ∧
    (∀ corrected lost : List (BitVec 23), s.ims.scrubAt ≤ s.now → Runs (.storeScrub corrected lost) s (fun t =>
      t.rd .a IMS.SCRUB_STATUS.CORRECTED = min (s.rd .a IMS.SCRUB_STATUS.CORRECTED + scrubCount (corrected.filter (fun w => !lost.contains w))) 0xFFFF ∧
      t.rd .a IMS.SCRUB_STATUS.UNCORRECTABLE = min (s.rd .a IMS.SCRUB_STATUS.UNCORRECTABLE + scrubCount lost) 0xFFFF ∧
      t.ims.scrubAt = s.now + 86400 * 10 ^ 9 ∧ t.store = s.store ∧
      onlyFields [(.a, IMS.SCRUB_STATUS.CORRECTED), (.a, IMS.SCRUB_STATUS.UNCORRECTABLE)] s t)) ∧
    (∀ corrected lost : List (BitVec 23), s.now < s.ims.scrubAt → Runs (.storeScrub corrected lost) s (fun t => t = s))

/-! ## Registers and blocks (03_register_model.md) -/

/-- REGISTER_WRITE in the four views: GLB.SCRATCH, which any requester that reaches it may write, becomes D, or old OR D, or old AND NOT
D, or old XOR D; no other field changes. A read of it, which the table has no row for and a REGISTER_WRITE without data stands for (log
entry 154), returns it and changes nothing. -/
def Obligations.ViewsWriteAsTheySay : Prop :=
  ∀ (s : State) (rq : Requester) (v old : W64), s.inv → s.barUp rq = true → s.hasBar0 rq = true → s.rd .a GLB.SCRATCH.DATA = old.toNat →
    let after := fun (x : W64) (t : State) => t.rd .a GLB.SCRATCH.DATA = x.toNat ∧ onlyFields [(.a, GLB.SCRATCH.DATA)] s t
    Runs (.registerWrite rq (.bar0 0x00A8) 8 (some v)) s (after v) ∧
    Runs (.registerWrite rq (.bar0 0x10A8) 8 (some v)) s (after (old ||| v)) ∧
    Runs (.registerWrite rq (.bar0 0x20A8) 8 (some v)) s (after (old &&& ~~~v)) ∧
    Runs (.registerWrite rq (.bar0 0x30A8) 8 (some v)) s (after (old ^^^ v)) ∧
    Runs (.registerWrite rq (.bar0 0x00A8) 8 none) s (fun t => t = s.emit (.regData rq old.toNat))

/-- REGISTER_WRITE of a write-while-disabled field, WQU.POLL_CFG.MAX_RATE: a warden's write in range takes effect while STATUS.ENABLED is
0; otherwise it is refused, sets CFG_REJECT and is counted; a write without a warden's rights changes nothing and is counted as a
violation; and an access of another size or alignment is ignored and counted. -/
def Obligations.DisabledFieldsAreGuarded : Prop :=
  ∀ (s : State) (rq : Requester) (d : Die) (v : W64), s.inv → s.barUp rq = true → s.hasBar0 rq = true → v.toNat < 512 →
    let off : BitVec 27 := BitVec.ofNat 27 (d.base + 0x400020)
    let count := s.rd d (HDR.CFG_REJECT_COUNT.COUNT 0x400000)
    let bad := s.rd d (HDR.STATUS.ENABLED 0x400000) = 1 ∨ v.toNat < 1 ∨ 256 < v.toNat
    (s.privileged rq = true → ¬ bad → Runs (.registerWrite rq (.bar0 off) 8 (some v)) s (fun t =>
      t.rd d WQU.POLL_CFG.MAX_RATE = v.toNat ∧ onlyFields [(d, WQU.POLL_CFG.MAX_RATE)] s t)) ∧
    (s.privileged rq = true → bad → Runs (.registerWrite rq (.bar0 off) 8 (some v)) s (fun t =>
      t.rd d (HDR.STATUS.CFG_REJECT 0x400000) = 1 ∧ t.rd d (HDR.CFG_REJECT_COUNT.COUNT 0x400000) = min (count + 1) 0xFFFFFFFF ∧
      onlyFields [(d, HDR.STATUS.CFG_REJECT 0x400000), (d, HDR.CFG_REJECT_COUNT.COUNT 0x400000)] s t)) ∧
    (∀ f : Fn, rq = .fn f → s.privileged rq = false → Runs (.registerWrite rq (.bar0 off) 8 (some v)) s (fun t =>
      t.rd .a GLB.PRIV_VIOLATION_COUNT.COUNT = min (s.rd .a GLB.PRIV_VIOLATION_COUNT.COUNT + 1) 0xFFFFFFFF ∧
      t.rd .a GLB.PRIV_VIOLATION_LAST.REQUESTER = fnNum f ∧ t.rd .a GLB.PRIV_VIOLATION_LAST.VIEW = 0 ∧
      t.rd .a GLB.PRIV_VIOLATION_LAST.OFFSET = off.toNat ∧
      onlyFields [(.a, GLB.PRIV_VIOLATION_COUNT.COUNT), (.a, GLB.PRIV_VIOLATION_LAST.REQUESTER), (.a, GLB.PRIV_VIOLATION_LAST.VIEW),
        (.a, GLB.PRIV_VIOLATION_LAST.OFFSET)] s t)) ∧
    (∀ (o : BitVec 27) (size : Fin 17), ¬ ((size.val = 4 ∨ size.val = 8) ∧ o.toNat % size.val = 0) →
      Runs (.registerWrite rq (.bar0 o) size (some v)) s (fun t =>
        t.rd .a GLB.ACCESS_ERROR_COUNT.COUNT = min (s.rd .a GLB.ACCESS_ERROR_COUNT.COUNT + 1) 0xFFFFFFFF ∧
        onlyFields [(.a, GLB.ACCESS_ERROR_COUNT.COUNT)] s t))

/-- CTRL_ENABLE_WRITE and STATUS_ENABLED_CLEARED: a warden's write stores CTRL.ENABLE; enabling reaches STATUS.ENABLED at once, and a
change has the block's own effect; STATUS.ENABLED clears when a disabled block has drained, and not before. -/
def Obligations.EnableAndDrain : Prop :=
  ∀ (s : State) (rq : Requester) (d : Die) (b : Blk), s.inv →
    (∀ on : Bool, s.warden rq → s.blkThere d b = true → Runs (.ctrlEnableWrite rq d b on) s (fun t =>
      let u := if on then (s.wr d (HDR.CTRL.ENABLE (blkBase b)) 1).wr d (HDR.STATUS.ENABLED (blkBase b)) 1
        else s.wr d (HDR.CTRL.ENABLE (blkBase b)) 0
      t = if s.on d (HDR.CTRL.ENABLE (blkBase b)) = on then u else u.ctrlEffect d (blkBase b) on)) ∧
    (∀ on : Bool, s.warden rq → s.blkThere d b = true → b ∈ [Blk.dike, .tmu, .tru, .qdu, .rtb, .swc, .dmem] →
      Runs (.ctrlEnableWrite rq d b on) s (fun t => t.rd d (HDR.CTRL.ENABLE (blkBase b)) = on.toNat ∧
        t.rd d (HDR.STATUS.ENABLED (blkBase b)) = (if on then 1 else s.rd d (HDR.STATUS.ENABLED (blkBase b))) ∧
        onlyFields [(d, HDR.CTRL.ENABLE (blkBase b)), (d, HDR.STATUS.ENABLED (blkBase b))] s t)) ∧
    (s.rd d (HDR.CTRL.ENABLE (blkBase b)) = 0 → s.drained d b = true → Runs (.statusEnabledCleared d b) s (fun t =>
      t.rd d (HDR.STATUS.ENABLED (blkBase b)) = 0 ∧ onlyFields [(d, HDR.STATUS.ENABLED (blkBase b))] s t)) ∧
    (s.rd d (HDR.CTRL.ENABLE (blkBase b)) = 1 ∨ s.drained d b = false → Runs (.statusEnabledCleared d b) s (fun t => t = s))

/-- COUNT_CLEAR and PCU_COUNT_CLEAR. A warden's clear of a group of counters returns every field in the group's places to its reset
value, and leaves every other field of both dies as it was; HP_ERR is cleared by a requester that has its link's DVSEC. A clear of the PCU
returns its counters to their reset values, and with the block enabled it ends the window in progress at that moment: the window is latched
as PARTIAL with its true length, and the next begins with CLEARED. Without a warden's rights nothing is cleared, and a violation is counted
with its requester and offset, and VIEW 0 (log entry 153); and a clear of an absent unit is counted. -/
def Obligations.CountersClear : Prop :=
  ∀ (s : State) (rq : Requester) (d : Die), s.inv →
    let places : Counts → Nat → Bool := fun c o => match c with
      | .blk .dike => decide (0x200060 ≤ o ∧ o ≤ 0x2000A0)
      | .blk .wqu => decide (0x400050 ≤ o ∧ o ≤ 0x400098)
      | .blk .xlu => decide (0x800040 ≤ o ∧ o ≤ 0x800098)
      | .blk .tmu => decide (0xC00060 ≤ o ∧ o ≤ 0xC000B8)
      | .blk .tru => decide (0x1000078 ≤ o ∧ o ≤ 0x1000108)
      | .rma => decide (0x1008040 ≤ o ∧ o ≤ 0x1008080)
      | .leaf => decide (0x100C030 ≤ o ∧ o ≤ 0x100C038)
      | .blk .qdu => decide (0x1400048 ≤ o ∧ o ≤ 0x1400090)
      | .blk .rtb => decide (0x1800080 ≤ o ∧ o ≤ 0x18000C8)
      | .blk .swc => decide (0x2000120 ≤ o ∧ o ≤ 0x2000160)
      | .blk (.llu i) => decide (0x2800068 + 0x10000 * i.val ≤ o ∧ o ≤ 0x28000C0 + 0x10000 * i.val)
      | .blk (.lne n) => decide ((0x3000078 + 0x4000 * n.val ≤ o ∧ o ≤ 0x30000B8 + 0x4000 * n.val) ∨
          (0x3000100 + 0x4000 * n.val ≤ o ∧ o ≤ 0x3000180 + 0x4000 * n.val))
      | .blk .pcu => decide (o = 0x3800088 ∨ o = 0x3800090 ∨ (0x3804000 ≤ o ∧ o < 0x3804100 ∧ o % 16 = 8) ∨ (0x3808000 ≤ o ∧ o < 0x3808640) ∨
          (0x380C008 ≤ o ∧ o < 0x380C040) ∨ (0x3900000 ≤ o ∧ o < 0x3C00000 ∧ o % 0x40 ≠ 0))
      | .blk .pwc => decide (0x3C00030 ≤ o ∧ o ≤ 0x3C00060)
      | .blk .dmem => decide ((0x3E00048 ≤ o ∧ o ≤ 0x3E00058) ∨ (0x3E00100 ≤ o ∧ o ≤ 0x3E00138))
      | .hag => decide (0x3E04048 ≤ o ∧ o ≤ 0x3E04060)
      | .privViolations => decide (o = 0x80 ∨ o = 0x88)
      | .accessErrors => decide (o = 0x90)
      | .absentAccesses => decide (o = 0x98)
      | .hpErr _ _ => false
    let die := fun (c : Counts) => if c ∈ [.privViolations, .accessErrors, .absentAccesses] then Die.a else d
    let inBar := fun (c : Counts) => ∀ h one, c ≠ .hpErr h one
    let violation := [(Die.a, GLB.PRIV_VIOLATION_COUNT.COUNT), (.a, GLB.PRIV_VIOLATION_LAST.REQUESTER), (.a, GLB.PRIV_VIOLATION_LAST.VIEW),
      (.a, GLB.PRIV_VIOLATION_LAST.OFFSET)]
    let pcu := [Instr.countClear rq d (.blk .pcu), .pcuCountClear rq d]
    let clears := (Instr.pcuCountClear rq d, Counts.blk .pcu)
    (∀ c : Counts, inBar c → c ≠ .blk .pcu → s.countsThere d c = true → s.warden rq → Runs (.countClear rq d c) s (fun t =>
      ∀ (e : Die) (f : Fld), f.off < 0x4000000 → f.lo < 64 →
        t.rd e f = if e = die c ∧ places c f.off = true then f.rst else s.rd e f)) ∧
    (∀ c ∈ pcu, s.warden rq → Runs c s (fun t =>
      (∀ f : Fld, f.off < 0x4000000 → f.lo < 64 → places (.blk .pcu) f.off = true → t.rd d f = f.rst) ∧
      (s.pcuOn d = false → (t.win d).cleared = true) ∧
      (s.pcuOn d = true → s.ftNow d < s.winBoundary d → (s.win d).startAt ≠ s.now →
        (t.win d).vSeq = ((s.win d).seq + 1) % 2 ^ 32 ∧ (t.win d).vStart = (s.win d).startFt ∧ (t.win d).vDur = s.now - (s.win d).startAt ∧
        (t.win d).vFlags % 2 = 1 ∧ (t.win d).startFt = s.ftNow d ∧ (t.win d).startAt = s.now ∧ (t.win d).cleared = true))) ∧
    (∀ h one, s.dvsecOf rq h one = true → Runs (.countClear rq d (.hpErr h one)) s (fun t =>
      let link := 2 * h.val + (if one = true then 1 else 0)
      t.rd .a (HP.HP_ERR.POISON_SENT link) = 0 ∧ t.rd .a (HP.HP_ERR.POISON_RECEIVED link) = 0 ∧
      onlyFields [(.a, HP.HP_ERR.POISON_SENT link), (.a, HP.HP_ERR.POISON_RECEIVED link)] s t)) ∧
    (∀ h one, s.dvsecOf rq h one = false → Runs (.countClear rq d (.hpErr h one)) s (fun t => t = s)) ∧
    (∀ f : Fn, rq = .fn f → s.barUp rq = true → s.privileged rq = false →
      ∀ c, c = clears ∨ (inBar c.2 ∧ s.countsThere d c.2 = true ∧ c.1 = .countClear rq d c.2) → Runs c.1 s (fun t =>
        t.rd .a GLB.PRIV_VIOLATION_COUNT.COUNT = min (s.rd .a GLB.PRIV_VIOLATION_COUNT.COUNT + 1) 0xFFFFFFFF ∧
        t.rd .a GLB.PRIV_VIOLATION_LAST.REQUESTER = fnNum f ∧ t.rd .a GLB.PRIV_VIOLATION_LAST.VIEW = 0 ∧
        t.rd .a GLB.PRIV_VIOLATION_LAST.OFFSET = ((if (clearFld c.2).off < 0x200000 then Die.a else d).base + (clearFld c.2).off) ∧
        onlyFields violation s t)) ∧
    (∀ c : Counts, inBar c → (∀ i, c ≠ .blk (.llu i)) → s.countsThere d c = false → s.barUp rq = true → Runs (.countClear rq d c) s (fun t =>
      t.rd .a GLB.ABSENT_ACCESS_COUNT.COUNT = min (s.rd .a GLB.ABSENT_ACCESS_COUNT.COUNT + 1) 0xFFFFFFFF ∧
      onlyFields [(.a, GLB.ABSENT_ACCESS_COUNT.COUNT)] s t)) ∧
    (∀ i, s.blkThere d (.llu i) = false → Runs (.countClear rq d (.blk (.llu i))) s (fun t => t = s))

/-! ## Polders (04_polders.md) -/

/-- PT commands with GO: while BUSY a GO is ignored and sets GO_REJECT; without a warden's rights it changes no polder and is counted as a
violation. -/
def Obligations.PolderCommandsAreGuarded : Prop :=
  ∀ (s : State) (rq : Requester) (d : Die), s.inv → s.barUp rq = true →
    ∀ c ∈ [Instr.ptRegister rq d, .ptDeregister rq d, .ptClose (.pt rq d), .ptOpen (.pt rq d), .ptBind rq d, .ptUnbind rq d,
        .ptSetWindow rq d, .ptSetAttr rq d, .ptRead rq d],
      (s.privileged rq = true → s.rd d DIKE.PT_STATUS.BUSY = 1 → Runs c s (fun t =>
        t.rd d DIKE.PT_STATUS.GO_REJECT = 1 ∧ t.dies = s.dies ∧ onlyFields [(d, DIKE.PT_STATUS.GO_REJECT)] s t)) ∧
      (s.privileged rq = false → Runs c s (fun t => t.dies = s.dies ∧
        t.rd .a GLB.PRIV_VIOLATION_COUNT.COUNT = min (s.rd .a GLB.PRIV_VIOLATION_COUNT.COUNT + 1) 0xFFFFFFFF ∧
        onlyFields [(.a, GLB.PRIV_VIOLATION_COUNT.COUNT), (.a, GLB.PRIV_VIOLATION_LAST.REQUESTER), (.a, GLB.PRIV_VIOLATION_LAST.VIEW),
          (.a, GLB.PRIV_VIOLATION_LAST.OFFSET)] s t))

/-- REGISTER, DEREGISTER, SET_ATTR, SET_WINDOW and READ of a polder other than polder 0, with the conditions of R118 met: the table
takes the new entry, or loses it, or the entry takes the new attributes or window, or READ shows it; each ends with OK. A full
table refuses REGISTER with POLDER_TABLE_FULL, whatever the other die holds, and no entry moves. The value of the matching seed is open. -/
def Obligations.PolderTableCommands : Prop :=
  ∀ (s : State) (rq : Requester) (d : Die), s.inv → s.warden rq → s.rd d DIKE.PT_STATUS.BUSY = 0 → s.ptPolder d ≠ 0 →
    let id := s.ptPolder d
    let arg := s.rd d DIKE.PT_ARG0.ARG
    let table := (s.die d).polders
    let ended := fun (t : State) => t.rd d DIKE.PT_STATUS.DONE = 1 ∧ t.rd d DIKE.PT_STATUS.CODE = 0 ∧ t.rd d DIKE.PT_STATUS.DETAIL = 0 ∧
      (t.die d.other).polders = (s.die d.other).polders
    (∀ i, s.polder? d id = none → freeKey table (s.rd d DIKE.PT_CAPACITY.ENTRIES) 0 = some i → attrOk arg = true →
      Runs (.ptRegister rq d) s (fun t => ended t ∧ ∃ seed, (t.die d).polders = tput table i
        { id := id, closed := false, bound := [], holdTimeout := arg % 1024, weight := arg / 65536 % 256, windows := [], seed := seed })) ∧
    (s.polder? d id = none → freeKey table (s.rd d DIKE.PT_CAPACITY.ENTRIES) 0 = none → Runs (.ptRegister rq d) s (fun t =>
      t.rd d DIKE.PT_STATUS.DONE = 1 ∧ t.rd d DIKE.PT_STATUS.CODE = 0x51 ∧ t.rd d DIKE.PT_STATUS.DETAIL = 0x0B ∧ t.dies = s.dies)) ∧
    (∀ i p, s.polder? d id = some (i, p) → p.bound = [] → Runs (.ptDeregister rq d) s (fun t => ended t ∧ (t.die d).polders = tdel table i)) ∧
    (∀ i p, s.polder? d id = some (i, p) → attrOk arg = true → Runs (.ptSetAttr rq d) s (fun t =>
      ended t ∧ (t.die d).polders = tput table i { p with holdTimeout := arg % 1024, weight := arg / 65536 % 256 } ∧
      onlyFields (ptFields d) s t)) ∧
    (∀ i p, s.polder? d id = some (i, p) → p.id = id →
      let w := argWindow arg (s.rd d DIKE.PT_ARG1.ARG)
      s.windowRange w = true → s.windowOverlap id w = false → Runs (.ptSetWindow rq d) s (fun t => ended t ∧
        (t.die d).polders = tput table i { p with windows := tput p.windows (arg % 8) w } ∧ onlyFields (ptFields d) s t)) ∧
    (∀ i p, s.polder? d id = some (i, p) → arg % 16 ≤ 8 → Runs (.ptRead rq d) s (fun t => ended t ∧ (t.die d).polders = table ∧
      t.rd d DIKE.PT_RESULT0.DATA = (readResult p (arg % 16)).1 % 2 ^ 32 ∧ t.rd d DIKE.PT_RESULT1.DATA = (readResult p (arg % 16)).2 % 2 ^ 32 ∧
      onlyFields (ptFields d ++ [(d, DIKE.PT_RESULT0.DATA), (d, DIKE.PT_RESULT1.DATA)]) s t))

/-- BIND and UNBIND, CLOSE and OPEN: a free and enabled function of the die joins the polder, or leaves it once it has no live object;
CLOSE and OPEN act on both dies wherever the polder is resident, through the registers or from the SVC. -/
def Obligations.PolderBindingAndQuarantine : Prop :=
  ∀ (s : State) (rq : Requester) (d : Die), s.inv → s.warden rq → s.rd d DIKE.PT_STATUS.BUSY = 0 → s.ptPolder d ≠ 0 →
    let id := s.ptPolder d
    let f := argFn (s.rd d DIKE.PT_ARG0.ARG)
    let table := (s.die d).polders
    let binding := [(d, DIKE.FN_POLDER.POLDER (fnIdx f)), (d, DIKE.FN_POLDER.BOUND (fnIdx f))]
    let ok := fun (t : State) => t.rd d DIKE.PT_STATUS.DONE = 1 ∧ t.rd d DIKE.PT_STATUS.CODE = 0
    (∀ i p, s.polder? d id = some (i, p) → p.id = id → fnDie f = d → s.hpPresent f.hp.val = true → s.fnEnabled f = true →
      s.polderOf f = none → Runs (.ptBind rq d) s (fun t => ok t ∧ t.rd d (DIKE.FN_POLDER.POLDER (fnIdx f)) = id % 2 ^ 20 ∧
        t.rd d (DIKE.FN_POLDER.BOUND (fnIdx f)) = 1 ∧ (t.die d).polders = tput table i { p with bound := setInsert p.bound (fnIdx f) } ∧
        onlyFields (ptFields d ++ binding) s t)) ∧
    (∀ i p, s.polder? d id = some (i, p) → fnDie f = d → fnIdx f ∈ p.bound → s.objectsLive f = false →
      Runs (.ptUnbind rq d) s (fun t => ok t ∧ t.rd d (DIKE.FN_POLDER.BOUND (fnIdx f)) = 0 ∧
        (t.die d).polders = tput table i { p with bound := p.bound.filter (· != fnIdx f) } ∧
        onlyFields (ptFields d ++ binding) s t)) ∧
    (s.residentAny id = true → Runs (.ptClose (.pt rq d)) s (fun t => ok t ∧ ∀ e i p, s.polder? e id = some (i, p) →
      (t.die e).polders = tput (s.die e).polders i { p with closed := true })) ∧
    (s.residentAny id = true → Runs (.ptOpen (.pt rq d)) s (fun t => ok t ∧ t.queues = s.queues ∧ ∀ e i p, s.polder? e id = some (i, p) →
      (t.die e).polders = tput (s.die e).polders i { p with closed := false })) ∧
    (∀ n : BitVec 20, n ≠ 0 → s.residentAny n.toNat = true → Runs (.ptClose (.svc n)) s (fun t => ∀ e i p, s.polder? e n.toNat = some (i, p) →
      (t.die e).polders = tput (s.die e).polders i { p with closed := true })) ∧
    (∀ n : BitVec 20, n ≠ 0 → s.residentAny n.toNat = true → Runs (.ptOpen (.svc n)) s (fun t =>
      (∀ e i p, s.polder? e n.toNat = some (i, p) → (t.die e).polders = tput (s.die e).polders i { p with closed := false }) ∧
      onlyFields [] s t))

/-! ## Device memory from a host (04_polders.md, 05_host_ports.md) -/

/-- BAR2_READ, BAR2_WRITE, HOST_ATOMICOP and HDM_ACCESS on bytes of memory that is awake, of lines that no host port holds a copy of and
no tracker works on, with no ordered access of the function before them: a read returns the bytes, a write stores them at the address
that the window gives, marked poisoned or clean, and leaves every other byte; an atomic operation returns the old word and stores the
new one. -/
def Obligations.HostAccessesReachMemory : Prop :=
  ∀ (s : State) (f : Fn) (o : BitVec 40), s.inv →
    let free := fun (a n : Nat) (write : Bool) => ∀ x, a ≤ x → x < a + max n 1 →
      tget (s.hag (s.memDie x)).trackers (x / 64) = none ∧ s.mustRecall x write = false ∧ (s.die (s.memDie x)).dmem = [] ∧
      s.memAwake (s.memDie x) = true ∧ s.memOff (s.memDie x) = false
    let unheld := fun (a n : Nat) => ∀ w ∈ s.waiters, w.addr ∉ wordsOf a n
    let inTurn := fun (ro : Bool) => ro = true ∨ tget s.hostQ f.id = none
    let told := fun (g : Fn) (p : Bool) => if p then [Output.advisory g] else []
    let others := fun (a n : Nat) (t : State) => ∀ x, (x < a ∨ a + n ≤ x) → t.mbyte x = s.mbyte x
    (∀ len ro a, s.barAddr f o.toNat len .read = some a → free a len false → inTurn ro → Runs (.bar2Read f o ⟨len, ro⟩) s (fun t =>
      t.out = s.out ++ [.readReturn f (s.mread a len) (s.mpoison a len)] ∧ t.mem = s.mem)) ∧
    (∀ data p ro a, s.barAddr f o.toNat data.length .write = some a → free a data.length true → unheld a data.length → inTurn ro →
      Runs (.bar2Write f o data ⟨p, ro⟩) s (fun t => t.mread a data.length = data ∧ (data ≠ [] → t.mpoison a data.length = p) ∧
        t.out = s.out ++ told f p ∧ others a data.length t)) ∧
    (∀ k size (x y : BitVec 128) a, hostAtomicOk k size = true → o.toNat % size = 0 → s.barAddr f o.toNat size .atomic = some a →
      free a size true → unheld a size → inTurn false → Runs (.hostAtomicop f o k size x y) s (fun t =>
        let old := leNat (s.mread a size)
        t.out = s.out ++ [.readReturn f (leBytes size old) (s.mpoison a size)] ∧
        t.mread a size = leBytes size (atomicResult k size old x.toNat y.toNat) ∧ others a size t)) ∧
    (∀ (h : Fin 4) data p len, (s.hp h).hdmOn = true → s.usable (s.hdmAddr o.toNat) data.length = true →
      free (s.hdmAddr o.toNat) data.length true → unheld (s.hdmAddr o.toNat) data.length →
      Runs (.hdmAccess h o (some ⟨data, p⟩) len) s (fun t => t.mread (s.hdmAddr o.toNat) data.length = data ∧
        (data ≠ [] → t.mpoison (s.hdmAddr o.toNat) data.length = p) ∧ t.out = s.out ++ told ⟨h, 0⟩ p ∧
        others (s.hdmAddr o.toNat) data.length t)) ∧
    (∀ (h : Fin 4) len, (s.hp h).hdmOn = true → s.usable (s.hdmAddr o.toNat) len = true → free (s.hdmAddr o.toNat) len false →
      Runs (.hdmAccess h o none len) s (fun t => t.mem = s.mem ∧
        t.out = s.out ++ [.readReturn ⟨h, 0⟩ (s.mread (s.hdmAddr o.toNat) len) (s.mpoison (s.hdmAddr o.toNat) len)]))

/-- An access that fails its window check: a read or an atomic operation returns zeros, a hold read returns busy, a write is dropped; each
counts a window violation, and no byte of memory changes. An access through the HDM decoder to memory that software may not use does so
too. -/
def Obligations.WindowViolationsChangeNoMemory : Prop :=
  ∀ (s : State) (f : Fn) (o : BitVec 40), s.inv →
    let counted := fun (t : State) => t.mem = s.mem ∧
      t.rd (fnDie f) DIKE.WINDOW_VIOLATIONS.COUNT = min (s.rd (fnDie f) DIKE.WINDOW_VIOLATIONS.COUNT + 1) (2 ^ DIKE.WINDOW_VIOLATIONS.COUNT.w - 1)
    (∀ len ro, s.barAddr f o.toNat len .read = none → Runs (.bar2Read f o ⟨len, ro⟩) s (fun t =>
      counted t ∧ t.out = s.out ++ [.readReturn f (List.replicate len 0) false])) ∧
    (∀ data p ro, s.barAddr f o.toNat data.length .write = none → Runs (.bar2Write f o data ⟨p, ro⟩) s (fun t => counted t ∧ t.out = s.out)) ∧
    (∀ k size (x y : BitVec 128), hostAtomicOk k size = true → o.toNat % size = 0 → s.barAddr f o.toNat size .atomic = none →
      Runs (.hostAtomicop f o k size x y) s (fun t => counted t ∧ t.out = s.out ++ [.readReturn f (List.replicate size 0) false])) ∧
    (∀ len, s.barAddr f o.toNat (max len 1) .hold = none → Runs (.holdRead f o len) s (fun t =>
      counted t ∧ t.out = s.out ++ [.readReturn f (leBytes 8 (2 ^ 63)) false])) ∧
    (∀ (write : Option BusData) len, f.fn = 0 → (s.hp f.hp).hdmOn = true →
      s.usable (s.hdmAddr o.toNat) (match write with | some w => w.bytes.length | none => len) = false →
      Runs (.hdmAccess f.hp o write len) s (fun t => counted t ∧
        t.out = s.out ++ (if write.isNone then [.readReturn f (List.replicate len 0) false] else [])))

/-- The hold engine. A hold read of a word that is 0 acquires it, writing the owner tag, and returns 0; of a word that is not, it waits,
while the word has less than 64 waiters and its controller a free slot; while the block is disabled, or with no room, it returns busy
with the word's low half, and of another size or alignment, busy with 0. At its deadline a waiter returns busy with the word's low half;
and while a word has waiters its line is recalled from a host that owns it, but not again within 1 µs. -/
def Obligations.HoldReadsAcquireOrWait : Prop :=
  ∀ (s : State) (f : Fn) (o : BitVec 40) (a : Nat), s.inv →
    let d := s.memDie a
    let count := (tget s.holdCounts f.id).getD 0
    let busy := fun (t : State) (low : Nat) => t.mem = s.mem ∧ t.waiters = s.waiters ∧
      t.out = s.out ++ [.readReturn f (leBytes 8 (busyWord low)) false]
    (s.barAddr f o.toNat 8 .hold = some a → o.toNat % 8 = 0 → tget (s.hag d).trackers (a / 64) = none → s.mustRecall a true = false →
      (s.die d).dmem = [] → s.memAwake d = true → s.memOff d = false → tget s.hostQ f.id = none →
        let room := (s.waiters.filter (fun w => w.addr == a)).length < 64 ∧ s.slotsFull a = false
        (s.holdOn d = true → s.mword a = 0 → Runs (.holdRead f o 8) s (fun t => t.mread a 8 = leBytes 8 (ownerTag f count) ∧
          t.out = s.out ++ [.readReturn f (leBytes 8 0) false] ∧ tget t.holdCounts f.id = some ((count + 1) % 2 ^ 21) ∧
          t.waiters = s.waiters ∧ ∀ x, (x < a ∨ a + 8 ≤ x) → t.mbyte x = s.mbyte x)) ∧
        (s.holdOn d = true → s.mword a ≠ 0 → room →
          Runs (.holdRead f o 8) s (fun t => t.waiters = s.waiters ++ [⟨a, f, s.now + s.holdTimeout f⟩] ∧ t.mem = s.mem ∧ t.out = s.out)) ∧
        (s.holdOn d = false ∨ (s.mword a ≠ 0 ∧ ¬room) → Runs (.holdRead f o 8) s (fun t => busy t (s.mword a)))) ∧
    (∀ len, s.barAddr f o.toNat (max len 1) .hold = some a → len ≠ 8 ∨ o.toNat % 8 ≠ 0 → Runs (.holdRead f o len) s (fun t => busy t 0)) ∧
    (∀ w, s.waiters.find? (fun w => w.fn == f && w.addr == o.toNat && decide (w.deadline ≤ s.now)) = some w →
      Runs (.holdTimeout f o) s (fun t => t.waiters = s.waiters.erase w ∧ t.mem = s.mem ∧
        t.out = s.out ++ [.readReturn f (leBytes 8 (busyWord (s.mword w.addr))) false])) ∧
    (∀ e h, tget (s.hag (s.memDie o.toNat)).filter (o.toNat / 64) = some e → e.owner = some h →
      s.waiters.any (fun w => w.addr / 64 == o.toNat / 64) = true → tget (s.hag (s.memDie o.toNat)).trackers (o.toNat / 64) = none →
      (s.hag (s.memDie o.toNat)).trackers.length < 1024 → dwelling s e [h] = false →
        (s.recalledLately (o.toNat / 64) = false → Runs (.holdRecallTimer o) s (fun t => t.mem = s.mem ∧
          t.out = s.out ++ [.bisnp h (o.toNat / 64) true] ∧ tget t.recallAt (o.toNat / 64) = some s.now)) ∧
        (s.recalledLately (o.toNat / 64) = true → Runs (.holdRecallTimer o) s (fun t => t = s)))

/-- The home agent, for a coherent host port and a line of usable memory. A request for a line that no tracker works on is granted and
recorded in the snoop filter, where no other port need give its copy up and the filter has room, or the ports that hold it are
back-invalidated first; a writeback is merged and clears the writer; a response to a back-invalidation leaves the others to wait for; and
once an owner has held a line for 200 ns the device's waiting access recalls it. -/
def Obligations.HomeAgentKeepsLinesCoherent : Prop :=
  ∀ (s : State) (h : Fin 4) (o : BitVec 40), s.inv → s.coherent h = true →
    let a := s.hdmAddr (o.toNat / 64 * 64)
    let line := a / 64
    let d := s.memDie a
    let g := s.hag d
    let others := fun (t : State) => ∀ x, (x < a ∨ a + 64 ≤ x) → t.mbyte x = s.mbyte x
    s.usable a 64 = true → a % 64 = 0 →
    (∀ own : Bool, tget g.trackers line = none → g.trackers.length < 1024 → tblWf g.trackers = true →
      let ask := if own then Instr.memrdOwnership h o else .memrdShared h o
      let e := (tget g.filter line).getD ⟨none, [], 0, 0⟩
      let l := recallList e own (some h)
      (l = [] → sfFull g.filter line = false → g.input = [] → g.waiting = [] → Runs ask s (fun t =>
        t.out = s.out ++ [.memData h line own (s.mread a 64) (s.mpoison a 64)] ∧
        (t.hag d).filter = sfGrant g.filter line h own s.now ∧ t.mem = s.mem)) ∧
      (l ≠ [] → dwelling s e l = false → Runs ask s (fun t => t.out = s.out ++ l.map (fun p => .bisnp p line own) ∧ t.mem = s.mem ∧
        (t.hag d).filter = g.filter ∧
        tget (t.hag d).trackers line = some { trackerNew with reqs := [⟨h, own, 0⟩], snoops := l, inv := own }))) ∧
    (∀ (data : BitVec 512) p, tget g.trackers line = none → (∀ w ∈ s.waiters, w.addr ∉ wordsOf a 64) → g.waiting = [] →
      Runs (.memwrWriteback h o ⟨data, p⟩) s (fun t => t.mread a 64 = leBytes 64 data.toNat ∧ (t.hag d).filter = sfClear g.filter line h false ∧
        t.mpoison a 64 = p ∧ t.out = s.out ++ (if p then [.advisory ⟨h, 0⟩] else []) ++ [.memCmp h line] ∧ others t)) ∧
    (∀ k, tget g.trackers line = some k → h ∈ k.snoops → k.snoops.erase h ≠ [] → Runs (.birsp h o) s (fun t =>
      (t.hag d).filter = sfClear g.filter line h (!k.inv) ∧
      (t.hag d).trackers = tput g.trackers line { k with snoops := k.snoops.erase h } ∧ t.out = s.out ∧ t.mem = s.mem)) ∧
    (∀ k x e, tget g.trackers line = some k → k.snoops = [] → k.reqs = [] → k.dev = [x] → tget g.filter line = some e → g.waiting = [] →
      recallList e (devWrites x) none ≠ [] → dwelling s e (recallList e (devWrites x) none) = false →
      Runs (.hagDwellExpiry (BitVec.ofNat 40 a)) s (fun t => t.mem = s.mem ∧
        t.out = s.out ++ (recallList e (devWrites x) none).map (fun p => .bisnp p line (devWrites x)) ∧
        ∃ k', tget (t.hag d).trackers line = some k' ∧ k'.snoops = recallList e (devWrites x) none))

/-! ## Host ports (05_host_ports.md, 19_startup.md) -/

/-- Links and functions of a host port: NUMVFS up to the port's cap is stored and above it ignored (the model's choice, log entry 43); a
link comes up from training, at its capped rate, in a mode that the port has and in no other, and goes down alone; PERST_N rising starts training once
it is sampled; ASPM L1 and D3hot are entered and left; a PTM exchange stores both times, and no other field. -/
def Obligations.HostPortEvents : Prop :=
  ∀ (s : State) (h : Fin 4), s.inv →
    let p := s.hp h
    let cap := if p.bifurcated then min p.totalVfs 127 else p.totalVfs
    let alone := fun (t : State) => ∀ k, k ≠ h → t.hp k = s.hp k
    (∀ n : BitVec 16, s.hpPresent h.val = true → n.toNat ≤ cap → Runs (.numvfsWrite h n) s (fun t =>
      t.hp h = { p with numVfs := n.toNat } ∧ alone t)) ∧
    (∀ n : BitVec 16, cap < n.toNat → Runs (.numvfsWrite h n) s (fun t => t = s)) ∧
    (∀ (one : Bool) (rate : Fin 8) (width : Fin 17) (flit : Bool), s.hpPresent h.val = true → p.perst = false → p.lost = false → p.trainAt ≤ s.now →
      one = false ∨ p.bifurcated = true → (portLink p one).training = true → linkModeOk p (linkRate p rate.val) width.val flit = true →
      Runs (.hostLinkUp h one rate width flit) s (fun t =>
        portLink (t.hp h) one = { linkDown with up := true, rate := linkRate p rate.val, width := width.val, flit := flitMode (linkRate p rate.val) } ∧
        (if one then (t.hp h).secOn else (t.hp h).pfOn) = true ∧ portLink (t.hp h) (!one) = portLink p (!one) ∧ alone t)) ∧
    (∀ (one : Bool) (rate : Fin 8) (width : Fin 17) (flit : Bool), linkModeOk p (linkRate p rate.val) width.val flit = false →
      Runs (.hostLinkUp h one rate width flit) s (fun t => t = s)) ∧
    (∀ one : Bool, one = false ∨ p.bifurcated = true → Runs (.hostLinkDown h one) s (fun t =>
      (portLink (t.hp h) one).up = false ∧ (if one then (t.hp h).secOn else (t.hp h).pfOn) = false ∧
      portLink (t.hp h) (!one) = portLink p (!one) ∧ alone t)) ∧
    (s.hpPresent h.val = true → s.svc.pwrgood = true → p.perst = true →
      (p.lost = false → 4 ≤ s.rd .a SVC.SVC_STATE.PHASE → Runs (.perstNDeasserted h) s (fun t => (t.hp h).perst = false ∧
        (t.hp h).link0.training = true ∧ (t.hp h).link1.training = p.bifurcated ∧ (t.hp h).trainAt = s.now ∧ alone t)) ∧
      (s.rd .a SVC.SVC_STATE.PHASE < 4 → Runs (.perstNDeasserted h) s (fun t => t.hp h = { p with perst := false } ∧ alone t))) ∧
    (s.svc.pwrgood = false → Runs (.perstNDeasserted h) s (fun t => t = s)) ∧
    (∀ one : Bool, (portLink p one).up = true → Runs (.aspmL1Entry h one) s (fun t => (portLink (t.hp h) one).l1 = true ∧
      portLink (t.hp h) (!one) = portLink p (!one) ∧ alone t)) ∧
    (∀ one : Bool, (portLink p one).l1 = true → Runs (.aspmL1Exit h one) s (fun t => (portLink (t.hp h) one).l1 = false ∧
      portLink (t.hp h) (!one) = portLink p (!one) ∧ alone t)) ∧
    (∀ (f : Fin 256) (d3 : Bool), Runs (.devicePowerStateWrite ⟨h, f⟩ d3) s (fun t => (f.val ∈ (t.hp h).d3 ↔ d3 = true) ∧ alone t)) ∧
    (∀ host : W64, p.link0.up = true → Runs (.ptmExchange h host) s (fun t =>
      t.rd (hpDie h) PCU.PTM_HOST.TIME = host.toNat ∧ t.rd (hpDie h) PCU.PTM_FT.TIME = s.ftNow (hpDie h) % 2 ^ 64 ∧
      onlyFields [(hpDie h, PCU.PTM_HOST.TIME), (hpDie h, PCU.PTM_FT.TIME)] s t))

/-- A function-level reset leaves the function no ring, counter or hold waiter, in D0, and frees the token if it held it; PERST_N, sampled,
takes the port's links down and leaves its functions no ring; both leave the functions' bindings. While it is not sampled only the level
of PERST_N is noted. -/
def Obligations.FunctionAndPortResets : Prop :=
  ∀ (s : State), s.inv →
    let bare := fun (f : Fn) (t : State) => (∀ q ∈ t.rings, setFn (q.1 / 4) ≠ f) ∧ (∀ q ∈ t.ctrs, setFn (q.1 / 16) ≠ f) ∧
      (∀ w ∈ t.waiters, w.fn ≠ f)
    (∀ f : Fn, Runs (.functionLevelReset f) s (fun t => bare f t ∧ f.fn.val ∉ (t.hp f.hp).d3 ∧
      (∀ d, (t.die d).polders = (s.die d).polders) ∧
      (s.rd .a IMS.TOKEN.OWNER_CLASS = 3 → s.rd .a IMS.TOKEN.OWNER_FN = fnNum f → t.rd .a IMS.TOKEN.OWNER_CLASS = 0))) ∧
    (∀ h : Fin 4, s.hpPresent h.val = true → (s.hp h).perst = false →
      (s.svc.pwrgood = true → 4 ≤ s.rd .a SVC.SVC_STATE.PHASE → Runs (.perstNAsserted h) s (fun t => (t.hp h).perst = true ∧
        (t.hp h).link0 = linkDown ∧ (t.hp h).link1 = linkDown ∧ (t.hp h).pfOn = false ∧ (t.hp h).numVfs = 0 ∧ (t.hp h).hdmOn = false ∧
        (∀ d, (t.die d).polders = (s.die d).polders) ∧ ∀ f : Fn, f.hp = h → ∀ q ∈ t.rings, setFn (q.1 / 4) ≠ f)) ∧
      (s.perstSampled = false → Runs (.perstNAsserted h) s (fun t => t.hp h = { s.hp h with perst := true } ∧ ∀ k, k ≠ h → t.hp k = s.hp k))) ∧
    (∀ h : Fin 4, (s.hp h).perst = true → Runs (.perstNAsserted h) s (fun t => t = s))

/-- HDM_COMMIT commits only while the port's PF is a warden; IDE_KM installs a stream's keys as its next generation over a finished
session. -/
def Obligations.HdmAndIde : Prop :=
  ∀ (s : State) (h : Fin 4), s.inv →
    ((s.hp h).cxl = true → s.isWarden ⟨h, 0⟩ = true → Runs (.hdmCommit h) s (fun t =>
      (t.hp h).hdmOn = true ∧ (t.hp h).hdmErr = false ∧
      (s.hagEnabled .a = true → s.hagEnabled .b = true → t.rd .a (HP.HP_MODE.COHERENT (linkIdx h false)) = 1 ∧
        t.rd .a HAG.HAG_STATUS.ACTIVE = 1 ∧ t.rd .b HAG.HAG_STATUS.ACTIVE = 1))) ∧
    ((s.hp h).cxl = true → s.isWarden ⟨h, 0⟩ = false → Runs (.hdmCommit h) s (fun t =>
      (t.hp h).hdmOn = (s.hp h).hdmOn ∧ (t.hp h).hdmErr = true ∧ onlyFields [] s t)) ∧
    (∀ (sec : Bool) (id : W32) (stream : Fin 5) (key : BitVec 256), s.part ≠ .e → (s.hp h).cxl = false → s.hpPresent h.val = true →
      (sec = false ∨ (s.hp h).bifurcated = true) →
      (responder (s.hp h) sec).sessions.any (fun x => x.id == id.toNat && x.finished) = true →
      let old := (s.hp h).ide.find? (fun x => x.link == b2n sec && x.stream == stream.val)
      let gen := match old with | some x => x.gen + 1 | none => 1
      Runs (.ideKm h sec id ⟨stream, key⟩) s (fun t => t.out = s.out ++ [.spdm (.port h sec) (.ideKm stream.val gen)] ∧
        (⟨b2n sec, stream.val, gen, key⟩ ∈ (t.hp h).ide) ∧ onlyFields [] s t))

/-- The SPDM requests of R132 at a responder of a host port, each where its order lets it: what is answered, and the responder's next
state. The order is SPDM 1.3's (log entry 9), and the certificates, measurements 1 and 2, and signatures are open values. -/
def Obligations.SpdmRequestsAreAnswered : Prop :=
  ∀ (s : State) (h : Fin 4) (sec : Bool), s.inv → s.hpPresent h.val = true → (sec = false ∨ (s.hp h).bifurcated = true) →
    let w : RespPort := .port h sec
    let r := responder (s.hp h) sec
    let answers := fun (c : Instr) (r' : Responder) (a : SpdmAnswer) => Runs c s (fun t =>
      t.out = s.out ++ [.spdm w a] ∧ responder (t.hp h) sec = r' ∧ responder (t.hp h) (!sec) = responder (s.hp h) (!sec) ∧
      (∀ k, k ≠ h → t.hp k = s.hp k) ∧ onlyFields [] s t)
    let others := fun (id : W32) => r.sessions.filter (fun x => x.id != id.toNat)
    let opened := fun (id : W32) (x : SpdmSession) => r.sessions.find? (fun y => y.id == id.toNat) = some x
    answers (.getVersion w) { version := true, caps := false, algs := false, challenged := false, sessions := r.sessions } .version ∧
    (r.version = true → answers (.getCapabilities w) { r with caps := true } .capabilities) ∧
    (r.version = false → answers (.getCapabilities w) r .unexpected) ∧
    (r.caps = true → answers (.negotiateAlgorithms w) { r with algs := true } .algorithms) ∧
    (r.caps = false → answers (.negotiateAlgorithms w) r .unexpected) ∧
    (r.algs = true →
      answers (.getDigests w) r (.digests (Config.certificate 0) (Config.certificate 1)) ∧
      (∀ slot : Fin 2, answers (.getCertificate w slot) r (.certificate slot.val (Config.certificate slot.val))) ∧
      (∀ nonce : BitVec 256, answers (.challenge w nonce) { r with challenged := true }
        (.signed (Config.deviceSign (sha384 (leBytes 32 nonce.toNat))))) ∧
      answers (.getMeasurements w) r (.measurements ([1, 2, 3, 4, 5, 6].map s.measure)) ∧
      (∀ id : W32, r.sessions.all (fun x => x.id != id.toNat) = true → r.sessions.length < 4 →
        answers (.keyExchange w id) { r with sessions := r.sessions ++ [⟨id.toNat, false, 0⟩] } (.keyExchange id.toNat)) ∧
      (∀ id : W32, r.sessions.all (fun x => x.id != id.toNat) = true → 4 ≤ r.sessions.length → answers (.keyExchange w id) r .sessionLimit)) ∧
    (r.algs = false → answers (.getDigests w) r .unexpected ∧ (∀ nonce, answers (.challenge w nonce) r .unexpected) ∧
      (∀ slot, answers (.getCertificate w slot) r .unexpected) ∧
      answers (.getMeasurements w) r .unexpected ∧ ∀ id, answers (.keyExchange w id) r .unexpected) ∧
    (∀ id x, opened id x → (r.sessions.filter (fun y => y.id == id.toNat)) = [x] →
      (x.finished = false → (∀ kx ky, Runs (.finish w id kx ky) s (fun t => t.out = s.out ++ [.spdm w (.ack 0xE5)] ∧
        ({ x with finished := true } ∈ (responder (t.hp h) sec).sessions))) ∧ answers (.heartbeat w id) r .unexpected) ∧
      (x.finished = true → answers (.heartbeat w id) r (.ack 0xE8) ∧
        Runs (.keyUpdate w id) s (fun t => t.out = s.out ++ [.spdm w (.ack 0xE9)] ∧
          { x with updates := x.updates + 1 } ∈ (responder (t.hp h) sec).sessions) ∧
        answers (.endSession w id) { r with sessions := others id } (.ack 0xEC)))

/-! ## Work queues (06_work_queues.md) -/

/-- Writes of the doorbell page and the queue control page act only for a warden or a function bound to an open polder, and only on a set
that the function has: otherwise the write is dropped and counted, or nothing changes. -/
def Obligations.QueuePagesAreGuarded : Prop :=
  ∀ (s : State) (f : Fn) (q : Fin 128) (k : Fin 8) (n : Fin 16) (r : Fin 4) (v : W32) (arm : Bool) (a : W64) (m : BitVec 16)
    (rec : Option (BitVec 512)) (ring : Option (BitVec 256)), s.inv →
    ∀ c ∈ [Instr.doorbell f q k 4, .doorbell f q k 8, .ctrAdd f q n v, .ringConsWrite f q r v arm, .contextAddrWrite f q a, .start f q ⟨k, m⟩,
        .stop f q ⟨k, m⟩, .createQueue f q ⟨k, m⟩ rec, .createRing f q ⟨k, m⟩ ring, .destroyRing f q ⟨k, m⟩, .resetCounters f q ⟨k, m⟩,
        .invalidate f q ⟨k, m⟩, .resetQueue f q ⟨k, m⟩],
      (s.ingressOk f = true → s.hasSet f q = false → Runs c s (fun t => t = s)) ∧
      (s.ingressOk f = false → Runs c s (fun t => t.queues = s.queues ∧ t.rings = s.rings ∧ t.ctrs = s.ctrs ∧
        t.qcs = s.qcs ∧ t.mem = s.mem ∧ t.out = s.out ∧ counted (fnDie f) DIKE.INGRESS_DROPS.COUNT s t))

/-- Writes of the doorbell page and CONTEXT_ADDR that pass their check: a doorbell on an ACTIVE queue is counted and reads its index
record, one of another size than 4 or 8 bytes is counted as an access error; CTR_ADD adds; RING_CONS returns the slots consumed, and is
ignored where it returns more than were written; CONTEXT_ADDR is stored while every queue of the set is in RESET and it has no ring, and
otherwise refused. -/
def Obligations.QueuePageWrites : Prop :=
  ∀ (s : State) (f : Fn) (q : Fin 128), s.inv → s.hasSet f q = true → s.ingressOk f = true →
    let sk := setKey f q.val
    (∀ (k : Fin 8) size w, size = 4 ∨ size = 8 → s.queue (qKey sk k.val) = some w → w.st = .active → w.idxOut = false →
      Runs (.doorbell f q k size) s (fun t => counted (fnDie f) WQU.DOORBELLS.COUNT s t ∧ s.asked f w.indexAddr 64 ∈ t.out ∧
        ∃ w', t.queue (qKey sk k.val) = some w' ∧ w'.idxOut = true ∧ w'.st = .active)) ∧
    (∀ (k : Fin 8) size, size ≠ 4 → size ≠ 8 → Runs (.doorbell f q k size) s (fun t => t.queues = s.queues ∧
      counted .a GLB.ACCESS_ERROR_COUNT.COUNT s t ∧ onlyFields [(.a, GLB.ACCESS_ERROR_COUNT.COUNT)] s t)) ∧
    (∀ (c : Fin 16) (v : W32), s.context sk ≠ 0 → Runs (.ctrAdd f q c v) s (fun t =>
      (t.counter (ctrKey sk c.val)).count = (s.counter (ctrKey sk c.val)).count + BitVec.ofNat 64 v.toNat ∧
      (t.counter (ctrKey sk c.val)).tally = (s.counter (ctrKey sk c.val)).tally ∧ onlyFields (dmaFields (fnDie f)) s t)) ∧
    (∀ (r : Fin 4) (i : W32) (arm : Bool) g, s.ring (ringKey sk r.val) = some g → sub32 i.toNat g.consumed ≤ sub32 g.written g.consumed →
      Runs (.ringConsWrite f q r i arm) s (fun t => ∃ g', t.ring (ringKey sk r.val) = some g' ∧ g'.consumed = i.toNat)) ∧
    (∀ (r : Fin 4) (i : W32) (arm : Bool) g, s.ring (ringKey sk r.val) = some g → sub32 g.written g.consumed < sub32 i.toNat g.consumed →
      Runs (.ringConsWrite f q r i arm) s (fun t => t = s)) ∧
    (∀ a : W64, s.setIdle sk = true → Runs (.contextAddrWrite f q a) s (fun t =>
      t.context sk = a.toNat / 2048 % 2 ^ 46 * 2048 ∧ t.queues = s.queues ∧ onlyFields [] s t)) ∧
    (∀ a : W64, s.setIdle sk = false → Runs (.contextAddrWrite f q a) s (fun t =>
      t.context sk = s.context sk ∧ (t.qc sk).cfgReject = true ∧ t.ctrs = s.ctrs))

/-- FN_SETS_WRITE. A warden gives a function its number of sets; a number above 128, or one that takes away a set with a queue out of
RESET or a ring, is refused: STATUS.CFG_REJECT is set, CFG_REJECT_COUNT counts it, and no other field changes. From a function without a
warden's rights it is a privilege violation; from one that does not reach PF BAR0 it is nothing. -/
def Obligations.FunctionSets : Prop :=
  ∀ (s : State) (rq : Requester) (f : Fn) (n : Byte), s.inv →
    let d := fnDie f
    let field := WQU.FN_SETS.SETS (fnIdx f)
    let rejected := HDR.CFG_REJECT_COUNT.COUNT 0x400000
    let used := s.queues.any (fun p => setFn (p.1 / 8) == f && n.toNat ≤ p.1 / 8 % 128) ||
      s.rings.any (fun p => setFn (p.1 / 4) == f && n.toNat ≤ p.1 / 4 % 128)
    (s.warden rq → n.toNat ≤ 128 → used = false → Runs (.fnSetsWrite rq f n) s (fun t =>
      t.rd d field = n.toNat ∧ onlyFields [(d, field)] s t)) ∧
    (s.warden rq → (128 < n.toNat ∨ used = true) → Runs (.fnSetsWrite rq f n) s (fun t =>
      t.rd d (HDR.STATUS.CFG_REJECT 0x400000) = 1 ∧ counted d rejected s t ∧
      onlyFields [(d, HDR.STATUS.CFG_REJECT 0x400000), (d, rejected)] s t)) ∧
    (∀ g, rq = .fn g → s.barUp rq = true → s.privileged rq = false → Runs (.fnSetsWrite rq f n) s (fun t =>
      counted .a GLB.PRIV_VIOLATION_COUNT.COUNT s t ∧ t.rd .a GLB.PRIV_VIOLATION_LAST.REQUESTER = fnNum g ∧
      t.rd .a GLB.PRIV_VIOLATION_LAST.VIEW = 0 ∧ t.rd .a GLB.PRIV_VIOLATION_LAST.OFFSET = d.base + field.off ∧
      onlyFields violationFields s t)) ∧
    (s.barUp rq = false → Runs (.fnSetsWrite rq f n) s (fun t => t = s))

/-- The commands of QC_CMD, each with the conditions of R193 met, end with CODE = OK and have their effect: a queue is created in READY,
started, stopped, taken back to RESET; a ring is created and destroyed; counters are zeroed; a slot's copy is discarded, and a slot of an
entry that has started is reported so. While BUSY a GO sets GO_REJECT and does nothing else. -/
def Obligations.QueueControlCommands : Prop :=
  ∀ (s : State) (f : Fn) (q : Fin 128) (k : Fin 8) (m : BitVec 16), s.inv → s.hasSet f q = true → s.ingressOk f = true →
    tblWf s.queues = true → tblWf s.rings = true →
    let sk := setKey f q.val
    let key := qKey sk k.val
    let free := (s.qc sk).busy = false
    let ok := fun (t : State) => (t.qc sk).done = true ∧ (t.qc sk).busy = false ∧ (t.qc sk).code = 0
    let idle := fun (w : WQueue) => w.ops.all (fun i => match s.op i with | some o => o.stage == .waiting | none => true)
    (free → ∀ r : BitVec 512, s.qState key = .reset → s.context sk ≠ 0 → queueRecordOk r = true →
      (s.ring (ringKey sk (ef r 80 2))).isSome = true → Runs (.createQueue f q ⟨k, m⟩ (some r)) s (fun t =>
        ok t ∧ t.queue key = some (queueOfRecord r ((s.polderOf f).getD 0) s.now))) ∧
    (free → ∀ w, s.queue key = some w → w.st = .ready → (w.poll = false ∨ s.polledOn (setDie sk) < 4096) → Runs (.start f q ⟨k, m⟩) s (fun t =>
      ok t ∧ ∃ w', t.queue key = some w' ∧ w'.st = .active)) ∧
    (free → ∀ w, s.queue key = some w → w.st = .active → Runs (.stop f q ⟨k, m⟩) s (fun t =>
      ok t ∧ t.queue key = some { w with st := if idle w then .ready else .draining } ∧ onlyFields [] s t)) ∧
    (free → ∀ w, s.queue key = some w → w.st = .ready ∨ (w.st = .error ∧ w.flushDone = true) → Runs (.resetQueue f q ⟨k, m⟩) s (fun t =>
      ok t ∧ t.queue key = none ∧ ∀ p ∈ t.ops, p.2.q ≠ key)) ∧
    (free → ∀ r : BitVec 256, k.val ≤ 3 → s.ring (ringKey sk k.val) = none → s.context sk ≠ 0 → ringRecordOk f r = true →
      Runs (.createRing f q ⟨k, m⟩ (some r)) s (fun t => ok t ∧ ∃ g, t.ring (ringKey sk k.val) = some g ∧
        g.base = r.toNat % 2 ^ 57 ∧ g.log2 = r.toNat / 2 ^ 64 % 256 ∧ g.written = 0 ∧ g.consumed = 0)) ∧
    (free → k.val ≤ 3 → (s.ring (ringKey sk k.val)).isSome = true → (∀ p ∈ s.queues, ¬ (p.1 / 8 = sk ∧ p.2.cq = k.val)) →
      Runs (.destroyRing f q ⟨k, m⟩) s (fun t => ok t ∧ t.ring (ringKey sk k.val) = none ∧ t.queues = s.queues)) ∧
    (free → (∀ p ∈ s.queues, ¬ (p.1 / 8 = sk ∧ p.2.type = 2)) → Runs (.resetCounters f q ⟨k, m⟩) s (fun t =>
      ok t ∧ ∀ p ∈ t.ctrs, p.1 / 16 = sk → bitOf m.toNat (p.1 % 16) = true → p.2.count = 0 ∧ p.2.tally = 0 ∧ p.2.fail = 0)) ∧
    (free → ∀ w, s.queue key = some w → w.st ≠ .error → tblWf w.cache = true → (tget w.cache (s.qc sk).slot).isSome = true →
      Runs (.invalidate f q ⟨k, m⟩) s (fun t => ok t ∧ (t.qc sk).detail = 0x11 ∧
        ∃ w', t.queue key = some w' ∧ tget w'.cache (s.qc sk).slot = none)) ∧
    (free → ∀ w i o, s.queue key = some w → w.st ≠ .error → tget w.cache (s.qc sk).slot = none →
      w.ops.find? (fun i => match s.op i with | some o => coversSlot o (s.qc sk).slot | none => false) = some i → s.op i = some o →
      o.stage ≠ .waiting → Runs (.invalidate f q ⟨k, m⟩) s (fun t => ok t ∧ (t.qc sk).detail = 0x12 ∧ t.ops = s.ops)) ∧
    ((s.qc sk).busy = true → ∀ rec ring, ∀ c ∈ [Instr.createQueue f q ⟨k, m⟩ rec, .start f q ⟨k, m⟩, .stop f q ⟨k, m⟩, .createRing f q ⟨k, m⟩ ring,
        .destroyRing f q ⟨k, m⟩, .resetCounters f q ⟨k, m⟩, .invalidate f q ⟨k, m⟩, .resetQueue f q ⟨k, m⟩],
      Runs c s (fun t => t.qc sk = { s.qc sk with goReject := true } ∧ t.queues = s.queues ∧ t.rings = s.rings ∧ t.ctrs = s.ctrs))

/-- Reads that return, and the timers of a queue: an index read gives the PRODUCER, a poisoned one takes an entry, and one of slots alone leaves the PRODUCER; a slot whose PHASE
mismatched is read again; a poll reads the index record, but not before its time; an evicted record comes back, or where its check fails
the queue moves to ERROR; a changed counter is written to its record, at most once in 200 ns. -/
def Obligations.QueueReadsAndTimers : Prop :=
  ∀ (s : State) (f : Fn) (q : Fin 128) (k : Fin 8) (w : WQueue), s.inv →
    let sk := setKey f q.val
    let key := qKey sk k.val
    s.queue key = some w →
    (∀ (p : W32) slots, w.idxOut = true → w.st = .active ∨ w.st = .error → sub32 p.toNat w.consumer ≤ 2 ^ w.log2 →
      sub32 p.toNat w.next ≤ 2 ^ w.log2 →
      Runs (.indexReadReturn f q k (.record p) slots) s (fun t => ∃ w', t.queue key = some w' ∧ w'.producer = p.toNat)) ∧
    (∀ slots, w.idxOut = true → w.st = .active ∨ w.st = .error → Runs (.indexReadReturn f q k .poisoned slots) s (fun t =>
      s.nextOp < t.nextOp)) ∧
    (∀ slots, Runs (.indexReadReturn f q k .slotsOnly slots) s (fun t => ∃ w', t.queue key = some w' ∧ w'.producer = w.producer)) ∧
    (∀ (slot : W32) data, w.retryAt ≠ 0 → w.retryAt ≤ s.now → slot.toNat = w.retrySlot → s.fnClosed f = false →
      Runs (.phaseRetry f q k slot data) s (fun t => counted (setDie (key / 8)) WQU.PHASE_RETRIES.COUNT s t ∧
        s.asked f (w.base + slot.toNat % 2 ^ w.log2 * 64) 64 ∈ t.out)) ∧
    (w.st = .active → w.poll = true → w.pollAt + s.pollGap w (fnDie f) ≤ s.now → w.idxOut = false → s.fnClosed f = false →
      Runs (.pollTimer f q k) s (fun t => s.asked f w.indexAddr 64 ∈ t.out ∧
        ∃ w', t.queue key = some w' ∧ w'.pollAt = s.now ∧ w'.idxOut = true)) ∧
    (s.now < w.pollAt + s.pollGap w (fnDie f) → Runs (.pollTimer f q k) s (fun t => t = s)) ∧
    (∀ data, w.resid = .reading → s.recordOk (setDie sk) 64 data = true → Runs (.recordReload f q (.queue k) data) s (fun t =>
      ∃ w', t.queue key = some w' ∧ w'.resid = .held ∧ w'.st = w.st)) ∧
    (∀ data, w.resid = .reading → s.recordOk (setDie sk) 64 data = false → Runs (.recordReload f q (.queue k) data) s (fun t =>
      ∃ w', t.queue key = some w' ∧ w'.st = .error)) ∧
    (∀ c : Fin 16, (s.counter (ctrKey sk c.val)).dirty = true → s.context sk ≠ 0 → s.fnClosed f = false →
      (s.counter (ctrKey sk c.val)).recAt = 0 ∨ (s.counter (ctrKey sk c.val)).recAt + 200 ≤ s.now →
      Runs (.counterRecordWrite f q c) s (fun t => (t.counter (ctrKey sk c.val)).dirty = false ∧
        t.out = s.out ++ [s.wrote f (s.context sk + 0x300 + 64 * c.val) false (counterBytes (s.counter (ctrKey sk c.val)))]))

/-- Entries: the satisfied head of a triggered queue starts, by the trigger table; the sweep notes its time, and is not made again within
10 µs; a started NOP and COUNTER_ADD end with OK and 0 bytes; and an entry that is over, in its turn, is completed: its completion is
written and it is gone. -/
def Obligations.EntriesStartAndComplete : Prop :=
  ∀ (s : State) (i : Nat) (o : WOp), s.inv → tblWf s.ops = true → i < s.nextOp → s.op i = some o →
    (o.stage = .started → eOpcode o.entry = 0x00 → Runs (.nop i) s (fun t =>
      t.op i = some { o with stage := .ended, status := 0, bytes := 0 } ∧ onlyFields [] s t)) ∧
    (o.stage = .started → eOpcode o.entry = 0x01 → s.context (o.q / 8) ≠ 0 → Runs (.counterAdd i) s (fun t =>
      t.op i = some { o with stage := .ended, status := 0, bytes := 0 } ∧
      (t.counter (ctrKey (o.q / 8) (ef o.entry 128 4))).count =
        (s.counter (ctrKey (o.q / 8) (ef o.entry 128 4))).count + BitVec.ofNat 64 (ef o.entry 192 64))) ∧
    (∀ w, s.queue o.q = some w → opOver o = true → (o.stage = .running → s.quadQuiet i o = true) →
      s.canComplete i w o (ringKey (o.q / 8) w.cq) = true →
      Runs (.completion i) s (fun t => t.op i = none ∧ ∀ r, s.ring (ringKey (o.q / 8) w.cq) = some r → eCqe o.entry = true →
        let st := o.force.getD o.status
        let n := if eOpcode o.entry = opTSEND then tsLength o.entry else if st = stFLUSHED then 0 else o.bytes
        s.wrote (setFn (o.q / 8)) (r.base + r.written % 2 ^ r.log2 * 32) false (cqeBytes o st n w o.q r.written r.log2) ∈ t.out)) ∧
    (∀ (f : Fn) (q : Fin 128) (k : Fin 8) w, o.q = qKey (setKey f q.val) k.val → s.queue o.q = some w → w.type = 2 →
      s.headOf w = some (i, o) → s.headMet o.q o = true → s.canStart o.q i w o = true → o.q ∈ (s.die (fnDie f)).trig →
      Runs (.triggeredHeadStart f q k) s (fun t => ∃ o', t.op i = some o' ∧
        (if o.malformed then o'.stage = .ended ∧ o'.status = stFORMAT
         else if s.needsEngine o = true ∧ s.clustersUp (setDie (o.q / 8)) = [] then o'.stage = .ended ∧ o'.status = stABSENT
         else o'.stage = .started))) ∧
    (∀ d, (s.die d).sweepAt = 0 ∨ (s.die d).sweepAt + 10000 ≤ s.now → Runs (.triggerSweep d) s (fun t => (t.die d).sweepAt = s.now)) ∧
    (∀ d, (s.die d).sweepAt ≠ 0 → s.now < (s.die d).sweepAt + 10000 → Runs (.triggerSweep d) s (fun t => t = s))

/-! ## Translation (07_translation.md) -/

/-- Channel commands with GO: from a requester that may not use the channel they are counted and change nothing else; while BUSY they set
GO_REJECT. -/
def Obligations.ChannelsAreGuarded : Prop :=
  ∀ (s : State) (rq : Requester) (d : Die) (c : Fin 3), s.inv → s.barUp rq = true →
    ∀ k ∈ [Instr.createSpace rq d c, .destroySpace rq d c, .createRegion rq d c, .destroyRegion rq d c, .invalidateRange rq d c,
        .invalidateSpace rq d c, .invalidateFunction rq d c, .invalidateAll rq d c],
      (s.channelOk rq d c = false → Runs k s (fun t => t.dies = s.dies ∧ t.out = s.out ∧
        t.rd d XLU.CHANNEL_REJECTS.COUNT = min (s.rd d XLU.CHANNEL_REJECTS.COUNT + 1) (2 ^ XLU.CHANNEL_REJECTS.COUNT.w - 1) ∧
        onlyFields [(d, XLU.CHANNEL_REJECTS.COUNT)] s t)) ∧
      (s.channelOk rq d c = true → s.rd d (XLU.X_STATUS.BUSY c.val) = 1 → Runs k s (fun t => t.dies = s.dies ∧ t.out = s.out ∧
        t.rd d (XLU.X_STATUS.GO_REJECT c.val) = 1 ∧ onlyFields [(d, XLU.X_STATUS.GO_REJECT c.val)] s t))

/-- Spaces and regions, while the block is enabled: with the conditions of R199 and R221 met, CREATE_SPACE and CREATE_REGION enter the
object, of the owner's polder, and return its identifier, DESTROY_SPACE and DESTROY_REGION remove it; each ends with CODE = OK. While the
block is disabled each ends with the detail STATE and changes no object. -/
def Obligations.SpacesAndRegions : Prop :=
  ∀ (s : State) (rq : Requester) (d : Die) (c : Fin 3), s.inv → s.barUp rq = true → s.channelOk rq d c = true →
    s.rd d (XLU.X_STATUS.BUSY c.val) = 0 → tblWf (s.xlu d).spaces = true → tblWf (s.xlu d).regions = true →
    let enabled := s.rd d (HDR.CTRL.ENABLE 0x800000) = 1 ∧ s.rd d (HDR.STATUS.ENABLED 0x800000) = 1
    let a0 := s.xArg d c 0
    let f := argFn a0
    let kind := a0 / 4096 % 4
    let sp := a0 / 2 ^ 32 % 65536
    let ok := fun (t : State) => t.rd d (XLU.X_STATUS.DONE c.val) = 1 ∧ t.rd d (XLU.X_STATUS.CODE c.val) = 0 ∧
      t.rd d (XLU.X_STATUS.DETAIL c.val) = 0
    let result := fun (t : State) (v : Nat) => t.rd d (XLU.X_RESULT.VALUE c.val) = v % 2 ^ (XLU.X_RESULT.VALUE c.val).w
    (∀ id, enabled → s.foreign rq f.hp = false → s.fnOwns d f = true → s.xArg d c 1 % 4096 = 0 → s.xArg d c 1 < 2 ^ 57 →
      freeKey (s.xlu d).spaces 65535 1 = some id → Runs (.createSpace rq d c) s (fun t => ok t ∧ result t id ∧
        (t.xlu d).spaces = tput (s.xlu d).spaces id ⟨f, (s.polderOf f).getD 0, a0 / 65536 % 4, s.xArg d c 1, 0⟩)) ∧
    (∀ x, enabled → tget (s.xlu d).spaces (a0 % 65536) = some x → s.foreign rq x.owner.hp = false →
      (∀ r ∈ (s.xlu d).regions, ¬ (r.2.live = true ∧ r.2.kind = .hostMapped ∧ r.2.space = a0 % 65536)) →
      Runs (.destroySpace rq d c) s (fun t => ok t ∧ tget (t.xlu d).spaces (a0 % 65536) = none)) ∧
    (∀ i, enabled → s.foreign rq f.hp = false → s.fnOwns d f = true → kind ≠ 3 → (kind ≠ 0 → sp = 0) →
      (kind = 0 → if s.atsMode f then sp = 0 else ∃ x, tget (s.xlu d).spaces sp = some x ∧ x.owner = f) →
      0 < s.xArg d c 2 → s.xArg d c 2 ≤ 2 ^ 48 → s.xArg d c 3 < 2 ^ 57 → freeRegion (s.xlu d).regions 1048576 0 = some i →
      Runs (.createRegion rq d c) s (fun t => ok t ∧ result t (mkKey d i (nextGen (s.xlu d).regions i)) ∧
        tget (t.xlu d).regions i = some {
          live := true, gen := nextGen (s.xlu d).regions i, owner := f, polder := (s.polderOf f).getD 0,
          kind := if kind = 0 then .hostMapped else if kind = 1 then .hostBus else .device, rights := a0 / 65536 % 32,
          zeroBased := bitOf a0 21, vaBase := s.xArg d c 1, length := s.xArg d c 2, space := sp, base := s.xArg d c 3, wrote := false })) ∧
    (∀ r, enabled → s.region? d (a0 % 2 ^ 32) = some r → s.foreign rq r.owner.hp = false → Runs (.destroyRegion rq d c) s (fun t =>
      ok t ∧ ∀ r', tget (t.xlu d).regions (keyIndex (a0 % 2 ^ 32)) = some r' → r'.live = false)) ∧
    (¬enabled → ∀ k ∈ [Instr.createSpace rq d c, .destroySpace rq d c, .createRegion rq d c, .destroyRegion rq d c],
      Runs k s (fun t => t.dies = s.dies ∧ t.out = s.out ∧ t.rd d (XLU.X_STATUS.DONE c.val) = 1 ∧
        t.rd d (XLU.X_STATUS.CODE c.val) = stFORMAT ∧ t.rd d (XLU.X_STATUS.DETAIL c.val) = 0x08))

/-- The four invalidations return the channel's next token and remove every cached translation that they name; where walks that were
discarded four times could still install one, the token waits for those. -/
def Obligations.InvalidationsRemove : Prop :=
  ∀ (s : State) (rq : Requester) (d : Die) (c : Fin 3), s.inv → s.barUp rq = true → s.channelOk rq d c = true →
    s.rd d (XLU.X_STATUS.BUSY c.val) = 0 → s.rd d (HDR.CTRL.ENABLE 0x800000) = 1 → s.rd d (HDR.STATUS.ENABLED 0x800000) = 1 →
    let a0 := s.xArg d c 0
    let va := s.xArg d c 1
    let len := s.xArg d c 2
    let wide := 4096 < (va % 4096 + len + 4095) / 4096
    let removed := fun (i : InvScope) (t : State) => t.rd d (XLU.X_STATUS.DONE c.val) = 1 ∧ t.rd d (XLU.X_STATUS.CODE c.val) = 0 ∧
      (invWaits i (s.xlu d) = [] → (∀ e ∈ (t.xlu d).tlb, invMatch i e.tag e.va e.size = false) ∧
        (∀ p ∈ (t.xlu d).victim, invMatch i p.2.tag p.2.va p.2.size = false) ∧
        (∀ e ∈ (t.xlu d).walkCache, invMatch i e.tag e.va e.size = false)) ∧
      (invWaits i (s.xlu d) ≠ [] → ∀ k, (chTokens (t.xlu d) c.val).getLast? = some k → k.wait.walks = invWaits i (s.xlu d)) ∧
      (chTokens (t.xlu d) c.val).map (·.token) = (chTokens (s.xlu d) c.val).map (·.token) ++ [chNext (s.xlu d) c.val] ∧
      chNext (t.xlu d) c.val = (chNext (s.xlu d) c.val + 1) % 2 ^ 32
    (∀ sp, a0 % 65536 ≠ 0 → tget (s.xlu d).spaces (a0 % 65536) = some sp → s.foreign rq sp.owner.hp = false →
      (Runs (.invalidateSpace rq d c) s (removed (.space (a0 % 65536)))) ∧
      (Runs (.invalidateRange rq d c) s
        (removed (if wide then .space (a0 % 65536) else .range (.space (a0 % 65536) sp.gen) va len)))) ∧
    (let f := argFn (a0 / 2 ^ 32 % 2 ^ 10)
     a0 % 65536 = 0 → s.foreign rq f.hp = false → s.fnOwns d f = true → Runs (.invalidateRange rq d c) s (removed (if wide then .fn (fnIdx f) []
      else .range (.ats (fnIdx f) ((tget (s.xlu d).fnGen (fnIdx f)).getD 0)) va len))) ∧
    (s.foreign rq (argFn a0).hp = false → s.fnOwns d (argFn a0) = true →
      Runs (.invalidateFunction rq d c) s (removed (.fn (fnIdx (argFn a0)) (spacesOf (s.xlu d) (argFn a0))))) ∧
    (s.privileged rq = true → Runs (.invalidateAll rq d c) s (removed .all))

/-- Returns to the XLU. A page-table entry that is poisoned, not present or badly formed ends a demand walk in a fault, and a speculative
one without report; one that names a table goes on to the next level; a leaf ends the walk, and is installed where no invalidation waits
for the walk's end; a walk that an invalidation met starts anew. An ATS completion ends its request, in a fault where it is refused. An
ATS invalidation is performed, and answered at once where nothing that it must wait for is outstanding. A token completes once what it
waits for has happened. -/
def Obligations.TranslationReturns : Prop :=
  ∀ (s : State) (d : Die), s.inv → tblWf (s.xlu d).walks = true → tblWf (s.xlu d).ats = true →
    (∀ id w, tget (s.xlu d).walks id = some w → w.fault = none → w.hit = false →
      let ends := fun (pte : Option W64) (reason : Nat) => Runs (.walkReadReturn d id pte) s (fun t =>
        tget (t.xlu d).walks id = if w.spec then none else some { w with fault := some reason })
      let leaf := fun (p : W64) => w.level = 0 ∨ bitOf p.toNat 1 = true
      ends none xPOISON ∧
      (∀ p : W64, p.toNat % 2 = 0 → ends (some p) xNOT_PRESENT) ∧
      (∀ p : W64, bitOf p.toNat 0 = true → pteBad p.toNat w.level = true → ends (some p) xPTE_FORMAT) ∧
      (∀ p : W64, bitOf p.toNat 0 = true → pteBad p.toNat w.level = false → leaf p →
        Runs (.walkReadReturn d id (some p)) s (fun t => tget (t.xlu d).walks id = none)) ∧
      (∀ p : W64, bitOf p.toNat 0 = true → pteBad p.toNat w.level = false → leaf p → (s.xlu d).atsInv = [] →
        (∀ c, c < 3 → ∀ k ∈ chTokens (s.xlu d) c, id ∉ k.wait.walks) →
        Runs (.walkReadReturn d id (some p)) s (fun t => t.out = s.out ∧
          let sz := 2 ^ levelShift w.level
          t.xlu d = installTr { s.xlu d with walks := tdel (s.xlu d).walks id } (s.rd d XLU.TLB_CAP.ENTRIES) {
            tag := w.tag, va := w.va / sz * sz, size := sz, target := p.toNat / 4096 % 2 ^ 45 * 4096, r := bitOf p.toNat 2,
            w := bitOf p.toNat 3, untranslated := false, wrote := false, level := 0, lastUse := s.now })) ∧
      (∀ p : W64, bitOf p.toNat 0 = true → pteBad p.toNat w.level = false → ¬leaf p →
        Runs (.walkReadReturn d id (some p)) s (fun t =>
          let w' := { w with level := w.level - 1, table := p.toNat / 4096 % 2 ^ 45 * 4096 }
          tget (t.xlu d).walks id = some w' ∧ t.out = s.out ++ [s.asked w.owner (pteAddr w') 8]))) ∧
    (∀ id w i g sp pte, tget (s.xlu d).walks id = some w → w.fault = none → w.hit = true → w.spec = false → w.tag = .space i g →
      tget (s.xlu d).spaces i = some sp → Runs (.walkReadReturn d id pte) s (fun t =>
        let w' := { w with hit := false, discards := w.discards + 1, level := w.top, table := sp.root, tag := .space i sp.gen }
        tget (t.xlu d).walks id = some w' ∧ t.out = s.out ++ [s.asked w.owner (pteAddr w') 8])) ∧
    (∀ id q (a : W64) (n : Fin 64) (r w u bad : Bool), tget (s.xlu d).ats id = some q → q.fault = false →
      Runs (.atsTranslationCompletion d id a n r w u bad) s (fun t => tget (t.xlu d).ats id =
        if (bad = true ∨ (r = false ∧ w = false)) ∧ q.spec = false then some { q with fault := true } else none)) ∧
    (∀ (f : Fn) (va : W64) (n : Fin 64), fnDie f = d →
      let sz := 2 ^ max n.val 12
      let i := InvScope.range (.ats (fnIdx f) ((tget (s.xlu d).fnGen (fnIdx f)).getD 0)) (va.toNat / sz * sz) sz
      let mine := ((s.xlu d).atsInv.filter (fun a => a.1 == f)).length
      (mine < 32 → invWaits i (s.xlu d) = [] → Runs (.atsInvalidateRequest f va n) s (fun t =>
        (∀ e ∈ (t.xlu d).tlb, invMatch i e.tag e.va e.size = false) ∧
        ((s.xlu d).atsInv = [] → (∀ e ∈ removed i (s.xlu d), e.wrote = false) → s.ownPending = false →
          (∀ r ∈ s.reads, r.2.die = d → readMeets i (removed i (s.xlu d)) none r.2 = false) →
          t.out = s.out ++ [.atsInvalidateDone f]))) ∧
      (32 ≤ mine → Runs (.atsInvalidateRequest f va n) s (fun t => t = s))) ∧
    (∀ (c : Fin 3) k rest, chTokens (s.xlu d) c.val = k :: rest →
      (s.invDone k.wait = true → Runs (.tokenComplete d c) s (fun t =>
        chTokens (t.xlu d) c.val = rest ∧ t.rd d (XLU.X_STATUS.BUSY c.val) = 0 ∧
        t.rd d (XLU.X_DONE_TOKEN.TOKEN c.val) = k.token % 2 ^ (XLU.X_DONE_TOKEN.TOKEN c.val).w ∧
        onlyFields [(d, XLU.X_STATUS.BUSY c.val), (d, XLU.X_DONE_TOKEN.TOKEN c.val)] s t)) ∧
      (s.invDone k.wait = false → Runs (.tokenComplete d c) s (fun t => t = s)))

/-! ## Message matching (08_matching.md) -/

/-- The matching entries of a queue. TSEND sends its message; TRECV takes the matching unexpected message of lowest number, or is posted;
TPROBE and TMPROBE describe that message, and TMPROBE holds it; TMRECV takes a held one; TCANCEL cancels a receive. The looks of a search
that no spilled entry delays are decided at once. -/
def Obligations.MatchingEntries : Prop :=
  ∀ (s : State) (i : Nat) (o : WOp), s.inv → tblWf s.ops = true → i < s.nextOp →
    let e := o.entry
    let d := opDie o
    let ended := fun (t : State) (st n : Nat) => t.op i = some { o with stage := .ended, status := st, bytes := n }
    let atOnce := fun (q : Nat) (k : MKey) => (s.tmu d).lookups.any (fun l => l.q == q) = false ∧ (s.lookCost d q (s.opPolder o) k false).2 = 0
    (s.startedOp i (· == opTSEND) = some o → tsInline e = true → tsLength e ≤ 16 → Runs (.tsend i) s (fun t =>
      t.op i = some { o with stage := .running, unacked := 1, expect := b2n (tsSync e) } ∧ ∃ w, (t.sluice d).waiting = (s.sluice d).waiting ++ [w] ∧
        w.pkt.command = cTAG_EAGER ∧ w.pkt.dest = eDest e ∧ w.pkt.polder = s.opPolder o ∧ pktData w.pkt = eInline e (tsLength e) ∧
        msgKey w.pkt = { context := tsContext e, source := w.pkt.src + (opFn o).fn.val * 2 ^ 24, bits := tsBits e, ignore := 0, anySource := false })) ∧
    (s.startedOp i (· == opTSEND) = some o → tsInline e = true → 16 < tsLength e → Runs (.tsend i) s (fun t => ended t stLENGTH 0)) ∧
    (s.startedOp i (· == opTSEND) = some o → tsInline e = false → tsRndv e = true →
      (eLkey e = 0 ∧ tsLength e = 0 ∨ (s.localRange d (opFn o) (eLkey e) rLR (eLaddr e) (tsLength e)).isOk = true) → Runs (.tsend i) s (fun t =>
        t.op i = some { o with stage := .running, unacked := 1, expect := 1 } ∧ ∃ w, (t.sluice d).waiting = (s.sluice d).waiting ++ [w] ∧
          w.pkt.command = cTAG_RTS ∧ w.pkt.dest = eDest e ∧ pktData w.pkt = [])) ∧
    (s.startedOp i (· == opTRECV) = some o → s.tmuOn d = true →
      (eLkey e = 0 ∧ trLength e = 0 ∨ (s.localRange d (opFn o) (eLkey e) rLW (eLaddr e) (trLength e)).isOk = true) →
      ((maxPosted ≤ s.postedCount d none ∨ s.rd d TMU.TMU_CFG.POST_SHARE_PCT * maxPosted / 100 ≤ s.postedCount d (some (s.opPolder o))) →
        Runs (.trecv i) s (fun t => ended t stFORMAT 0)) ∧
      (s.postedCount d none < maxPosted → s.postedCount d (some (s.opPolder o)) < s.rd d TMU.TMU_CFG.POST_SHARE_PCT * maxPosted / 100 →
        atOnce o.q (recvKey e) →
        (s.bestUx d o.q (recvKey e) = none → Runs (.trecv i) s (fun t => t.op i = some { o with stage := .running } ∧
          ∃ p : Posted, (tget (t.tmu d).posts o.q).getD [] = (tget (s.tmu d).posts o.q).getD [] ++ [p] ∧ p.op = i ∧ p.key = recvKey e)) ∧
        (∀ u, s.bestUx d o.q (recvKey e) = some u → u.mode = .header → Runs (.trecv i) s (fun t =>
          (∀ x ∈ t.uxsOf d o.q, x.asn ≠ u.asn) ∧ ∃ o', t.op i = some o' ∧ o'.source = u.fea ∧ o'.imm = u.key.bits)) ∧
        (∀ u, s.bestUx d o.q (recvKey e) = some u → u.mode = .stored → Runs (.trecv i) s (fun t =>
          (t.tmu d).copies = (s.tmu d).copies ++ [⟨i, o.q, u.asn⟩] ∧
          ∃ o', t.op i = some o' ∧ o'.stage = .running ∧ o'.source = u.fea ∧ o'.imm = u.key.bits)))) ∧
    (s.startedOp i (· == opTPROBE) = some o → (s.probeQueue o = none → Runs (.tprobe i) s (fun t => ended t stFORMAT 0)) ∧
      ∀ q, s.probeQueue o = some q → atOnce q (probeKey e) →
        (s.bestUx d q (probeKey e) = none → Runs (.tprobe i) s (fun t => ended t stOK 0)) ∧
        (∀ u, s.bestUx d q (probeKey e) = some u → Runs (.tprobe i) s (fun t => t.op i =
          some { describe o u.fea u.fn u.key.bits u.len 0 with stage := .ended, status := stOK, bytes := 0 } ∧ (t.tmu d).uxs = (s.tmu d).uxs))) ∧
    (s.startedOp i (· == opTMPROBE) = some o → (s.probeQueue o = none → Runs (.tmprobe i) s (fun t => ended t stFORMAT 0)) ∧
      ∀ q, s.probeQueue o = some q → atOnce q (probeKey e) →
        (s.bestUx d q (probeKey e) = none → Runs (.tmprobe i) s (fun t => ended t stOK 0)) ∧
        (∀ u, s.bestUx d q (probeKey e) = some u → Runs (.tmprobe i) s (fun t => ∃ h, (∀ x ∈ s.uxsOf d q, x.handle ≠ some h) ∧
          t.op i = some { describe o u.fea u.fn u.key.bits u.len h with stage := .ended, status := stOK, bytes := 0 } ∧
          ∀ x ∈ t.uxsOf d q, x.asn = u.asn → x.handle = some h))) ∧
    (s.startedOp i (· == opTMRECV) = some o → s.tmuOn d = true →
      (eLkey e = 0 ∧ trLength e = 0 ∨ (s.localRange d (opFn o) (eLkey e) rLW (eLaddr e) (trLength e)).isOk = true) →
      ((∀ x ∈ s.uxsOf d o.q, x.handle ≠ some (tmHandle e)) → Runs (.tmrecv i) s (fun t => ended t stFORMAT 0)) ∧
      (∀ u, (s.uxsOf d o.q).find? (fun u => u.handle == some (tmHandle e)) = some u →
        (u.mode = .stored → Runs (.tmrecv i) s (fun t => (t.tmu d).copies = (s.tmu d).copies ++ [⟨i, o.q, u.asn⟩] ∧
          ∃ o', t.op i = some o' ∧ o'.stage = .running ∧ o'.source = u.fea ∧ o'.imm = u.key.bits)) ∧
        (u.mode = .inline → o.force = none → u.len ≤ u.got → (s.uxsOf d o.q).find? (fun x => x.asn == u.asn) = some u →
          (∀ c ∈ (s.tmu d).copies, c.op ≠ i) → ∀ s' l b, (s.keepUx d o.q i u).deliver d o 0 u.data u.poison = (s', .data l b) →
          Runs (.tmrecv i) s (fun t => (∀ x ∈ t.uxsOf d o.q, x.asn ≠ u.asn) ∧ t.mem = s'.mem ∧ ∃ o', t.op i = some o' ∧
            o'.stage = .ended ∧ o'.source = u.fea ∧ o'.status = (if trLength e < u.len then stTRUNC else stOK) ∧
            o'.bytes = min u.len (trLength e))))) ∧
    (s.startedOp i (· == opTCANCEL) = some o → (s.probeQueue o = none → Runs (.tcancel i) s (fun t => ended t stFORMAT 0)) ∧
      ∀ q, s.probeQueue o = some q → (s.tmu d).lookups.any (fun l => l.q == q) = false →
        let same := fun (p : Posted) => sameKey p.key (probeKey e) && (match s.op p.op with | some r => r.index == tpTarget e | none => false)
        ((s.postsOf d q).find? same = none → Runs (.tcancel i) s (fun t => ended t stOK 0)) ∧
        (∀ p, (s.postsOf d q).find? same = some p → p.op ≠ i → p.op < s.nextOp → Runs (.tcancel i) s (fun t =>
          (∀ r, t.op p.op = some r → r.stage = .ended ∧ r.status = stCANCELLED) ∧ t.op i = some { o with aux := 1, stage := .ended, status := stOK, bytes := 0 } ∧
          ∀ x ∈ (tget (t.tmu d).posts q).getD [], x.psn ≠ p.psn)))

/-- The packets of messages that the TRU hands on, and the copy of a stored message: a message takes the posted receive of lowest number
that it matches, or is kept as unexpected, with its header alone, inline, or in granules; later packets go where their message goes; a
receive ends once it has its data. A packet counts as performed then, and is not handed on again. While the block is disabled a message
is returned to the TRU. -/
def Obligations.MatchingPackets : Prop :=
  ∀ (s : State) (d : Die) (id : Nat) (h : Handed), s.inv → tblWf s.ops = true →
    let p := h.pkt
    let q := msgQueue p
    let len := p.opf 128 32
    let n := (pktData p).length
    let performed := fun (t : State) => t.handedPkt d id (fun _ => true) = none
    let share := s.rd d TMU.TMU_CFG.UX_SHARE_PCT
    let kept := fun (m : UxMode) (t : State) => performed t ∧ ∃ u : Ux, (tget (t.tmu d).uxs q).getD [] = (tget (s.tmu d).uxs q).getD [] ++ [u] ∧
      u.key = msgKey p ∧ u.len = len ∧ u.mode = m ∧ u.asn = (tget (s.tmu d).asn q).getD 0 ∧ u.taken = false ∧ u.handle = none
    let first := inboundOf (s.tmu d) h = none ∧ s.arrivalTurn d h = true
    (∀ k c, (k, c) ∈ [(Instr.tagEager d id, cTAG_EAGER), (.tagRts d id, cTAG_RTS)] → s.handedPkt d id (· == c) = some h → first →
      s.tmuOn d = true → s.fnLinkUp (setFn (q / 8)) = true → s.destStatus p = none → s.messageLost d h = false → (s.tmu d).lookups = [] →
      (s.lookCost d q p.polder (msgKey p) true).2 = 0 →
      (s.bestPost d q (msgKey p) = none → s.uxCount d none (fun _ => 1) < maxUx → s.uxCount d (some p.polder) (fun _ => 1) < share * maxUx / 100 →
        (c = cTAG_RTS → Runs k s (kept .header)) ∧ (c = cTAG_EAGER → len ≤ 16 → Runs k s (kept .inline)) ∧
        (c = cTAG_EAGER → 16 < len → s.uxCount d none (·.granules.length) + ceilDiv len 256 ≤ maxGranules →
          s.uxCount d (some p.polder) (·.granules.length) + ceilDiv len 256 ≤ share * maxGranules / 100 → Runs k s (kept .stored))) ∧
      (∀ r, s.bestPost d q (msgKey p) = some r → c = cTAG_RTS → Runs k s (fun t => performed t ∧
        (∀ x ∈ (tget (t.tmu d).posts q).getD [], x.psn ≠ r.psn) ∧ ∃ o, t.op r.op = some o ∧ o.source = p.src ∧ o.imm = p.opf 0 64)) ∧
      (∀ r o, s.bestPost d q (msgKey p) = some r → s.op r.op = some o → c = cTAG_EAGER → len ≤ n → trLength o.entry = 0 →
        Runs k s (fun t => performed t ∧ (∀ x ∈ (tget (t.tmu d).posts q).getD [], x.psn ≠ r.psn) ∧ ∃ o', t.op r.op = some o' ∧
          o'.stage = .ended ∧ o'.status = (if 0 < len then stTRUNC else stOK) ∧ o'.bytes = 0 ∧ o'.source = p.src ∧ o'.imm = p.opf 0 64))) ∧
    (∀ k c, (k, c) ∈ [(Instr.tagEager d id, cTAG_EAGER), (.tagRts d id, cTAG_RTS)] → s.handedPkt d id (· == c) = some h → first →
      s.tmuOn d = false → Runs k s (fun t => (t.tmu d).uxs = (s.tmu d).uxs ∧ (t.tmu d).posts = (s.tmu d).posts ∧
        ∀ x ∈ (t.tru d).handed, ¬ (x.ctx = h.ctx ∧ x.seq = h.seq))) ∧
    (s.handedPkt d id (· == cTAG_CONT) = some h →
      let found := inboundOf (s.tmu d) h
      (found = none → s.awaitsFirst d h = false → Runs (.tagCont d id) s (fun t => performed t ∧ t.tmu d = s.tmu d ∧ t.mem = s.mem)) ∧
      (found = none → s.awaitsFirst d h = true → Runs (.tagCont d id) s (fun t => t = s)) ∧
      (∀ b, found = some b → b.into = .drop → Runs (.tagCont d id) s (fun t => performed t ∧ (t.tmu d).uxs = (s.tmu d).uxs ∧ t.mem = s.mem)) ∧
      (∀ b k asn u, found = some b → b.into = .ux k asn → (s.uxsOf d k).find? (fun u => u.asn == asn) = some u →
        Runs (.tagCont d id) s (fun t => performed t ∧
          t.uxsOf d k = (s.uxsOf d k).map (fun u => if u.asn = asn then { u with got := u.got + n } else u) ∧
          t.mem = (State.granWrite d u.granules p.srcPoison (pktData p) (p.opf 32 32) s).mem)) ∧
      (∀ b i o s' l x, found = some b → b.into = .recv i → s.op i = some o → o.stage = .running → o.force = none →
        s.deliver d o (p.opf 32 32) (pktData p) p.srcPoison = (s', .data l x) → Runs (.tagCont d id) s (fun t => performed t ∧ t.mem = s'.mem ∧
          ∃ o', t.op i = some o' ∧ (b.len ≤ b.got + n → o'.stage = .ended)))) ∧
    (s.handedPkt d id (· == cTAG_PULL) = some h →
      (s.opById d (p.opf 0 32) p.polder = none → Runs (.tagPull d id) s (fun t => performed t ∧ t.sluice d = s.sluice d)) ∧
      (∀ i o loff s' l, s.opById d (p.opf 0 32) p.polder = some (i, o) →
        s.localRange d (opFn o) (eLkey o.entry) rLR (eLaddr o.entry + p.opf 32 32) (p.opf 64 32) = .ok loff →
        s.rangeReady d (eLkey o.entry) loff (p.opf 64 32) .rd = (s', .ok l) → Runs (.tagPull d id) s (fun t => performed t ∧
          ∀ w ∈ (t.sluice d).waiting, w ∈ (s.sluice d).waiting ∨ (w.pkt.command = cTAG_PULL_DATA ∧ w.pkt.dest = p.src)))) ∧
    (s.handedPkt d id (· == cTAG_PULL_DATA) = some h → ∀ i o u, s.opById d (p.opf 96 32) p.polder = some (i, o) →
      (s.tmu d).pulls.find? (fun x => x.op % 2 ^ 32 == p.opf 96 32) = some u → o.force = none → ∀ s' l x,
      s.deliver d o (p.opf 32 32) (pktData p) p.srcPoison = (s', .data l x) → Runs (.tagPullData d id) s (fun t => performed t ∧ t.mem = s'.mem ∧
        (u.total ≤ u.got + n → (∀ y ∈ (t.tmu d).pulls, y.op ≠ i) ∧ ∃ o', t.op i = some o' ∧ o'.stage = .ended))) ∧
    (s.handedPkt d id (· == cTAG_FIN) = some h → ∀ i o, s.opById d (p.opf 0 32) p.polder = some (i, o) → Runs (.tagFin d id) s (fun t =>
      performed t ∧ t.op i = some { o with stage := .ended, status := p.opf 32 8, bytes := if isOk (p.opf 32 8) then okBytes o else 0 })) ∧
    (s.handedPkt d id (· == cTAG_MATCHED) = some h → ∀ i o, s.opById d (p.opf 0 32) p.polder = some (i, o) → Runs (.tagMatched d id) s (fun t =>
      performed t ∧ t.op i = some { o with matched := true, expect := 0, stage := .ended, status := stOK, bytes := okBytes o })) ∧
    (∀ i c o u s' l x, (s.tmu d).copies.find? (fun c => c.op == i) = some c → s.op i = some o → o.force = none →
      (s.uxsOf d c.q).find? (fun u => u.asn == c.asn) = some u → u.len ≤ u.got →
      let held := if u.mode = .inline then (u.data, u.poison) else s.granRead d u.granules u.len
      s.deliver d o 0 held.1 held.2 = (s', .data l x) →
      Runs (.storedCopyDone d i) s (fun t => t.mem = s'.mem ∧ (∀ y ∈ t.uxsOf d c.q, y.asn ≠ c.asn) ∧ (∀ y ∈ (t.tmu d).copies, y.op ≠ i) ∧
        ∃ o', t.op i = some o' ∧ o'.stage = .ended ∧ o'.bytes = min u.len (trLength o.entry)))

/-- What keeps the match tables: a read of a spilled entry returns to the lookup that waits for it; a spilled entry of lowest number comes
back to a free slot; an interval of 100 µs ends; a rehash starts, moves one entry at a time, of a queue for which no lookup
waits, and cuts over once the live table is empty. -/
def Obligations.MatchTablesAreKept : Prop :=
  ∀ (s : State) (d : Die), s.inv →
    (∀ id l, (homeLookups (s.tmu d)).find? (fun l => l.id == id) = some l → 1 < l.left → Runs (.spillReadReturn d id) s (fun t =>
      (t.tmu d).lookups = (s.tmu d).lookups.map (fun x => if x.id = id then { x with left := x.left - 1 } else x) ∧
      t.ops = s.ops ∧ (t.tmu d).ents = (s.tmu d).ents)) ∧
    (∀ id l, (homeLookups (s.tmu d)).find? (fun l => l.id == id) = some l → l.left ≤ 1 → Runs (.spillReadReturn d id) s (fun t =>
      ∀ x ∈ (t.tmu d).lookups, x.id ≠ id)) ∧
    (∀ bin v rest, onchipIn (s.tmu d).ents bin < 4 →
      byHead ((s.tmu d).ents.filter (fun e => !e.wild && !e.onchip && e.bin == bin)) = v :: rest → Runs (.spillReload d bin) s (fun t =>
        (t.tmu d).ents = (s.tmu d).ents.map (fun e => if e = v then { e with onchip := true } else e) ∧ onlyFields [] s t)) ∧
    ((s.tmu d).histAt + us 100 ≤ s.now → Runs (.chainIntervalEnd d) s (fun t => (t.tmu d).hist = [] ∧ (t.tmu d).histAt = s.now ∧
      t.rd d TMU.CHAIN_P99.LAST = min (p99 (s.tmu d).hist 0 ((s.tmu d).hist.map (·.2)).sum) 255)) ∧
    (s.now < (s.tmu d).histAt + us 100 → Runs (.chainIntervalEnd d) s (fun t => t = s)) ∧
    (∀ rq, s.warden rq → (s.tmu d).rehash = false → Runs (.rehashGo rq d) s (fun t => (t.tmu d).rehash = true ∧
      (t.tmu d).live = (s.tmu d).live ∧ (t.tmu d).ents = (s.tmu d).ents ∧ onlyFields [] s t)) ∧
    ((s.tmu d).rehash = true → liveEnts (s.tmu d) ≠ [] → (∀ l ∈ (s.tmu d).lookups, ∀ e ∈ liveEnts (s.tmu d), e.q ≠ l.q) → Runs (.rehashMove d) s (fun t =>
      (liveEnts (t.tmu d)).length + 1 = (liveEnts (s.tmu d)).length ∧ t.ops = s.ops ∧ onlyFields [] s t)) ∧
    ((s.tmu d).rehash = true → liveEnts (s.tmu d) = [] → Runs (.rehashCutover d) s (fun t => (t.tmu d).rehash = false ∧
      (t.tmu d).live = !(s.tmu d).live ∧ (t.tmu d).cutAt = some s.now ∧ (t.tmu d).ents = (s.tmu d).ents))

/-! ## Remote memory access (09_remote_access.md) -/

/-- The entries of remote memory access. With its local key in order, an entry goes to running: a put sends the packets of its first chunk,
cut at the multiples of 4,096; PUT_NOTIFY also its notification after the last chunk; a get sends one request for a chunk; an atomic sends
its packet with operand and compare value. Inline data above 16 bytes and a bad local key end the entry at once. CHUNK_ISSUE issues the
next chunk when the window allows, and nothing while it does not. -/
def Obligations.RemoteAccessStarts : Prop :=
  ∀ (s : State) (i : Nat) (o : WOp), s.inv → tblWf s.ops = true → (∀ p ∈ (s.tmu (opDie o)).pulls, p.op ≠ i) →
    let e := o.entry
    let d := opDie o
    let sent := fun (t : State) (l : List (Nat × List Byte)) => ∃ ws, (t.sluice d).waiting = (s.sluice d).waiting ++ ws ∧
      ws.map (fun w => (w.pkt.command, pktData w.pkt)) = l ∧ ∀ w ∈ ws, w.pkt.dest = eDest e ∧ w.pkt.polder = s.opPolder o
    let inl := fun (p : Nat × Nat) => (cRMA_PUT, ((eInline e (rLength e)).drop (p.1 - rRaddr e)).take p.2)
    let c0 := chunkSpan (rRaddr e) (rLength e) 0
    let fresh := o.force = none ∧ o.out = [] ∧ o.chunks = 0
    let blocked := o.out.any (fun p => p.1 + s.chunkWindow d ≤ o.chunks) = true
    (s.startedOp i (· == opPUT) = some o → rInline e = true →
      (16 < rLength e → Runs (.put i) s (fun t => t.op i = some { o with stage := .ended, status := stLENGTH, bytes := 0 })) ∧
      (rLength e ≤ 16 → fresh → Runs (.put i) s (fun t => sent t ((packetsOf c0.1 c0.2).map inl) ∧
        ∃ o', t.op i = some o' ∧ o'.stage = .running ∧ o'.chunks = 1 ∧ o'.unacked = o.unacked + (packetsOf c0.1 c0.2).length))) ∧
    (s.startedOp i (· == opPUT_NOTIFY) = some o → rInline e = true → rLength e ≤ 16 → fresh → Runs (.putNotify i) s (fun t =>
      sent t ((packetsOf c0.1 c0.2).map inl ++ if opChunks o = 1 then [(cRMA_NOTIFY, [])] else []) ∧
      ∃ o', t.op i = some o' ∧ o'.stage = .running ∧ o'.chunks = 1)) ∧
    (∀ k c, (k, c) ∈ [(Instr.put i, opPUT), (.putNotify i, opPUT_NOTIFY), (.get i, opGET)] → s.startedOp i (· == c) = some o →
      rInline e = false → eLkey e ≠ 0 → o.unacked = 0 → ∀ r,
      s.localRange d (opFn o) (eLkey e) (if c = opGET then rLW else rLR) (eLaddr e) (rLength e) = .error r →
      Runs k s (fun t => t.op i = some { o with stage := .ended, status := faultStatus false r, bytes := 0 })) ∧
    (s.startedOp i (· == opGET) = some o → rInline e = false → fresh →
      (eLkey e = 0 ∨ (s.localRange d (opFn o) (eLkey e) rLW (eLaddr e) (rLength e)).isOk = true) → Runs (.get i) s (fun t =>
        sent t [(cRMA_GET_REQ, [])] ∧ ∃ o', t.op i = some o' ∧ o'.stage = .running ∧ o'.chunks = 1 ∧ o'.issued = o.issued + c0.2 ∧
          o'.expect = max (rLength e) 1)) ∧
    (∀ k c, (k, c) ∈ [(Instr.fadd64 i, 0x40), (.swap64 i, 0x41), (.cas64 i, 0x42), (.smin64 i, 0x43), (.smax64 i, 0x44), (.umin64 i, 0x45),
        (.umax64 i, 0x46), (.swap128 i, 0x48), (.cas128 i, 0x49)] → s.startedOp i (· == c) = some o →
      (aLkey e = 0 ∨ (s.localRange d (opFn o) (aLkey e) rLW (aLaddr e) (atomicSize c)).isOk = true → Runs k s (fun t =>
        sent t [(cRMA_ATOMIC, leBytes 16 (aOperand e o.ext) ++ leBytes 16 (aCompare e o.ext) ++ leBytes 32 0)] ∧
        t.op i = some { o with stage := .running, unacked := 1, expect := 1 })) ∧
      (∀ r, aLkey e ≠ 0 → o.unacked = 0 → s.localRange d (opFn o) (aLkey e) rLW (aLaddr e) (atomicSize c) = .error r → Runs k s (fun t =>
        t.op i = some { o with stage := .ended, status := faultStatus false r, bytes := 0 }))) ∧
    (s.op i = some o → blocked → Runs (.chunkIssue i) s (fun t => t = s)) ∧
    (s.op i = some o → o.stage = .running → o.force = none → s.clusterAwake o = true → ¬blocked → o.chunks < opChunks o →
      (eOpcode e = opGET → Runs (.chunkIssue i) s (fun t => sent t [(cRMA_GET_REQ, [])] ∧ ∃ o', t.op i = some o' ∧
        o'.chunks = o.chunks + 1 ∧ o'.issued = o.issued + (chunkSpan (rRaddr e) (rLength e) o.chunks).2)) ∧
      (eOpcode e ≠ opGET → rInline e = false → rLength e ≠ 0 → ∀ off s' l, s.localRange d (opFn o) (eLkey e) rLR (eLaddr e) (rLength e) = .ok off →
        let c := chunkSpan (rRaddr e) (rLength e) o.chunks
        c.2 ≠ 0 → s.rangeReady d (eLkey e) (off + (c.1 - rRaddr e)) c.2 .rd = (s', .ok l) → Runs (.chunkIssue i) s (fun t =>
          ∃ o', t.op i = some o' ∧ o'.chunks = o.chunks + 1 ∧ o'.issued = o.issued + c.2)))

/-- The packets of remote memory access at the target. A flagged packet whose predecessors have not all landed is held; any other is
applied, and one released from the hold is: a put writes; an atomic replaces the word of device memory and answers the old value, or, where
the word is uncorrectable, answers poison, and one on host memory first reads it; a get is answered. A notification and a counter event
wait for all lower packets to land, and come to nothing where this target has rejected a packet of their operation. -/
def Obligations.RemoteAccessAtTheTarget : Prop :=
  ∀ (s : State) (d : Die) (id : Nat) (h : Handed), s.inv →
    let p := h.pkt
    let s1 := s.rmaReady d h
    let performed := fun (t : State) => t.handedPkt d id (fun _ => true) = none
    let deferred := fun (t : State) (k : Option Nat) (note : Option (Nat × Nat × Nat × Nat × Nat)) =>
      ∃ e : Deferred, (t.rma d).events = (s.rma d).events ++ [e] ∧ e.ctx = h.ctx ∧ e.seq = h.seq ∧ e.ctr = k ∧ e.note = note
    let now := (s.rma d).flags.any (fun f => f.handed == id) = false ∧
      (qBit p 2 = true → s.lowerLanded d h.ctx h.seq = true ∧ s.flagFence d h = (s, true))
    (∀ k c, (k, c) ∈ [(Instr.rmaPut d id, cRMA_PUT), (.rmaNotify d id, cRMA_NOTIFY), (.rmaGetReq d id, cRMA_GET_REQ), (.rmaAtomic d id, cRMA_ATOMIC)] →
      s.handedPkt d id (· == c) = some h → (s.rma d).flags.any (fun f => f.handed == id) = false → qBit p 2 = true →
      s.lowerLanded d h.ctx h.seq = false → s.flagUsed d < 8192 → Runs k s (fun t =>
        (t.rma d).flags = (s.rma d).flags ++ [⟨id, s.now⟩] ∧ t.tru d = s.tru d ∧ t.mem = s.mem)) ∧
    (s.handedPkt d id (· == cRMA_PUT) = some h → now → ∀ s' r segs,
      s1.targetRange d h rRWR (qRadr p) (pktData p).length .wr (State.putStep d h (qBit p 3)) = (s', some (r, segs)) →
      Runs (.rmaPut d id) s (fun t => performed t ∧ t.mem = (State.writeSegs segs (pktData p) (!qBit p 2) p.srcPoison s').mem ∧
        (if qBit p 3 then deferred t (eventCtr p r.owner) none else (t.rma d).events = (s.rma d).events))) ∧
    (s.handedPkt d id (· == cRMA_NOTIFY) = some h → now → ∀ s' r segs,
      s1.targetRange d h rRWR (match s.region? d (pKey p) with | some r => if r.zeroBased then 0 else r.vaBase | none => 0) 0 .wr
        (State.putStep d h true) = (s', some (r, segs)) → Runs (.rmaNotify d id) s (fun t => performed t ∧ t.mem = s.mem ∧
        deferred t (eventCtr p r.owner) (((s'.rma d).res.find? (fun y => y.ctx == h.ctx && y.opId == qOpId p)).bind
          (fun y => if y.gone then none else some (y.ring, qLen p, p.src, qRadr p, pKey p))))) ∧
    (s.handedPkt d id (· == cRMA_GET_REQ) = some h → now → ∀ s' s'' r segs off,
      (qBit p 0 = true ∨ ∃ g, (s.rma d).gets.find? (fun g => g.ctx == h.ctx && g.opId == qOpId p) = some g ∧ g.base.isSome = true) →
      s1.targetRange d h rRR (qRadr p) (qLen p) .rd (State.eventStep d h) = (s', some (r, segs)) → s'.recallSegs segs false = (s'', true) →
      regionOffset r true (qRadr p) = some off → Runs (.rmaGetReq d id) s (fun t => performed t ∧
        ∀ w ∈ (t.sluice d).waiting, w ∈ (s.sluice d).waiting ∨ (w.pkt.command = cRMA_GET_DATA ∧ w.pkt.dest = p.src ∧ w.pkt.vn = vRSP))) ∧
    (s.handedPkt d id (· == cRMA_ATOMIC) = some h → now →
      let n := (atomicArgs p).1
      let answer := fun (t : State) (v : Nat) (bad : Bool) => performed t ∧ ∃ w, (t.sluice d).waiting = (s.sluice d).waiting ++ [w] ∧
        w.pkt.command = cRMA_ATOMIC_RSP ∧ w.pkt.dest = p.src ∧ w.pkt.opf 0 64 = v ∧ w.pkt.opf 128 32 = qOpId p ∧ w.pkt.srcPoison = bad
      (∀ s' s'' r a m, s1.targetRange d h rRA (qRadr p) n .at (State.eventStep d h) = (s', some (r, [(.dev a, m)])) →
        s'.recallFor a n true = (s'', true) →
        (s''.mpoison a n = false → Runs (.rmaAtomic d id) s (fun t => answer t (leNat (s''.mread a n) % 2 ^ 64) false ∧
          t.mem = (s''.mwrite a (leBytes n (rmaAtomicResult (atomicArgs p).2.2.2 n (leNat (s''.mread a n)) (atomicArgs p).2.1
            (atomicArgs p).2.2.1)) false).mem)) ∧
        (s''.mpoison a n = true → Runs (.rmaAtomic d id) s (fun t => answer t 0 true ∧ t.mem = s''.mem))) ∧
      (∀ s' r f a tr src m, s1.targetRange d h rRA (qRadr p) n .at (State.eventStep d h) = (s', some (r, [(.host f a tr src, m)])) →
        (∀ z ∈ (s'.rma d).atomics, z.handed ≠ id ∧ z.addr / 64 ≠ a / 64) → (s'.rma d).atomics.length < 512 →
        s'.rd d RMA.RMA_CFG.ATOMIC_HOST = 1 → Runs (.rmaAtomic d id) s (fun t => t.mem = s'.mem ∧ (t.sluice d).waiting = (s.sluice d).waiting ∧
          (t.rma d).atomics = (s'.rma d).atomics ++ [⟨s'.nextRead, id, f, a, none⟩]))) ∧
    (∀ f, (s.rma d).flags.find? (fun f => f.handed == id) = some f → s.handedPkt d id (fun _ => true) = some h →
      (s.lowerLanded d h.ctx h.seq = true → Runs (.flagHoldRelease d id) s (fun t => ∀ g ∈ (t.rma d).flags, g.handed ≠ id)) ∧
      (s.lowerLanded d h.ctx h.seq = false → Runs (.flagHoldRelease d id) s (fun t => t = s))) ∧
    (∀ e, (s.rma d).events.find? (fun e => e.id == id) = some e →
      let due := s.landedTo d e.ctx e.seq = true
      (¬due → Runs (.targetCounterEvent d id) s (fun t => t = s) ∧ Runs (.notificationWrite d id) s (fun t => t = s)) ∧
      (∀ k, e.ctr = some k → due → s.eventVoid d e = false → Runs (.targetCounterEvent d id) s (fun t =>
        (s.context (k / 16) ≠ 0 → (t.counter k).count = (s.counter k).count + 1) ∧ ∀ x ∈ (t.rma d).events, x.id = id → x.ctr = none)) ∧
      (∀ k, e.ctr = some k → due → s.eventVoid d e = true → Runs (.targetCounterEvent d id) s (fun t =>
        t.ctrs = s.ctrs ∧ ∀ x ∈ (t.rma d).events, x.id ≠ id)) ∧
      (∀ rk len fea imm key r, e.ctr = none → e.note = some (rk, len, fea, imm, key) → due → s.ring rk = some r →
        (s.eventVoid d e = false → Runs (.notificationWrite d id) s (fun t => (∀ x ∈ (t.rma d).events, x.id = id → x.note = none) ∧
          s.wrote (setFn (rk / 4)) (r.base + r.written % 2 ^ r.log2 * 32) false (noteBytes r.written r.log2 len fea imm key) ∈ t.out)) ∧
        (s.eventVoid d e = true → Runs (.notificationWrite d id) s (fun t => t.out = s.out ∧ ∀ x ∈ (t.rma d).events, x.id ≠ id))))

/-- Answers at the initiator. Get data are written through the get's local key and counted; the answer to an atomic gives the old value to
the completion and the result buffer, or, where it is poisoned, none; data of an operation that is gone are discarded. A read of host
memory that returns fills the packet that waits for it. -/
def Obligations.RemoteAccessAnswers : Prop :=
  ∀ (s : State) (d : Die) (id : Nat) (h : Handed), s.inv → tblWf s.ops = true →
    let p := h.pkt
    let performed := fun (t : State) => t.handedPkt d id (fun _ => true) = none
    (∀ k c n, (k, c, n) ∈ [(Instr.rmaGetData d id, cRMA_GET_DATA, 0), (.rmaAtomicRsp d id, cRMA_ATOMIC_RSP, 128)] → s.handedPkt d id (· == c) = some h →
      s.opById d (p.opf n 32) p.polder = none → Runs k s (fun t => performed t ∧ t.mem = s.mem ∧ t.ops = s.ops)) ∧
    (s.handedPkt d id (· == cRMA_GET_DATA) = some h → ∀ i o s' l b, s.opById d (p.opf 0 32) p.polder = some (i, o) → o.force = none →
      p.srcPoison = false → s.writeLocal d (opFn o) (eLkey o.entry) (eLaddr o.entry + p.opf 32 32) (pktData p) false = (s', .data l b) →
      Runs (.rmaGetData d id) s (fun t => performed t ∧ t.mem = s'.mem ∧
        ∃ o', t.op i = some o' ∧ o'.expect = o.expect - max (pktData p).length 1)) ∧
    (s.handedPkt d id (· == cRMA_ATOMIC_RSP) = some h → ∀ i o, s.opById d (p.opf 128 32) p.polder = some (i, o) →
      let n := atomicSize (eOpcode o.entry)
      let old := fun (t : State) => performed t ∧ ∃ o', t.op i = some o' ∧ o'.expect = 0 ∧ o'.imm = p.opf 0 64 ∧
        o'.aux = (if n = 16 then p.opf 64 64 else 0)
      (o.force ≠ none ∨ (p.srcPoison = false ∧ aLkey o.entry = 0) → Runs (.rmaAtomicRsp d id) s (fun t => old t ∧ t.mem = s.mem)) ∧
      (∀ s' l b, o.force = none → p.srcPoison = false → aLkey o.entry ≠ 0 →
        s.writeLocal d (opFn o) (aLkey o.entry) (aLaddr o.entry) (leBytes n (p.opf 0 (8 * n))) false = (s', .data l b) →
        Runs (.rmaAtomicRsp d id) s (fun t => old t ∧ t.mem = s'.mem)) ∧
      (o.force = none → p.srcPoison = true → Runs (.rmaAtomicRsp d id) s (fun t => performed t ∧ t.mem = s.mem ∧
        ∃ o', t.op i = some o' ∧ o'.expect = 0 ∧ o'.aux = 1 ∧ o'.err.isSome = true))) ∧
    (∀ (tag : Nat) (data : List Byte) (b : Bool) r, tget s.reads tag = some r → tblWf s.reads = true →
      (r.use = .fence → Runs (.hostReadCompletion tag data b) s (fun t => t.reads = tdel s.reads tag ∧ t.mem = s.mem ∧ onlyFields [] s t)) ∧
      (r.use = .packet → Runs (.hostReadCompletion tag data b) s (fun t => t.reads = tdel s.reads tag ∧ t.mem = s.mem ∧ onlyFields [] s t ∧
        ∀ w ∈ (s.sluice r.die).waiting, w.id = r.packet → ∃ w' ∈ (t.sluice r.die).waiting, w'.id = w.id ∧
          w'.pkt.data = placeBytes w.pkt.data r.off (data.take r.len ++ List.replicate (r.len - data.length) 0) ∧
          w'.pkt.srcPoison = (w.pkt.srcPoison || b))))

/-! ## The sluice and transport (13_switch_core.md R436 to R443, 10_transport.md) -/

/-- SLUICE_ADMIT takes a control packet that the injection buffer has room for; else, once the sluice is prepared, the packet that weighted
fair queuing picks, which leaves the sluice, and its context counts one number on; else nothing. SLUICE_ENTRY_WRITE sets a register of an
entry that exists, for a warden. -/
def Obligations.SluiceCommands : Prop :=
  ∀ (s : State) (d : Die), s.inv → tblWf (s.tru d).ctxs = true →
    (∀ (lane : Fin 3) p l, (s.sluice d).ctl = p :: l → s.injRoom d (s.flowHashOf d (feaEnd p.src % 4) p.dest p.ordered 0) p = true →
      Runs (.sluiceAdmit d lane) s (fun t => (t.sluice d).ctl = l ∧ (t.sluice d).waiting = (s.sluice d).waiting ∧
        t.rd d SWC.ADMITTED.COUNT = min (s.rd d SWC.ADMITTED.COUNT + 1) (2 ^ SWC.ADMITTED.COUNT.w - 1))) ∧
    (∀ lane : Fin 3, s.admitCtl d = none →
      let s1 := ((s.sluicePrep d).throttleSync d vREQ).throttleSync d vCOL
      (s1.wfqPick d lane.val = none → Runs (.sluiceAdmit d lane) s (fun t => t = s1)) ∧
      (∀ w i c, s1.wfqPick d lane.val = some w → s1.ctxOf d w.hp w.pkt.dest = some (i, c) → tblWf (s1.tru d).ctxs = true →
        Runs (.sluiceAdmit d lane) s (fun t => (∀ x ∈ (t.sluice d).waiting, x.id ≠ w.id) ∧ ∃ c', t.ctx? d i = some c' ∧
          c'.nextSeq = (if w.again = none then (c.nextSeq + 1) % s1.seqMod d else c.nextSeq)))) ∧
    (∀ rq (e : Fin 4097) (reg : Fin 7) (v : W64), s.barUp rq = true → s.privileged rq = false → Runs (.sluiceEntryWrite rq d e reg v) s (fun t =>
      t.dies = s.dies ∧ t.rd .a GLB.PRIV_VIOLATION_COUNT.COUNT = min (s.rd .a GLB.PRIV_VIOLATION_COUNT.COUNT + 1) 0xFFFFFFFF)) ∧
    (∀ rq (e : Fin 4097) (v : W64), s.warden rq → s.slExists d e.val = true →
      (Runs (.sluiceEntryWrite rq d e 0 v) s (fun t => t.rd d (SL.SL_WEIGHT.WEIGHT e.val) = v.toNat % 256 ∧ t.dies = s.dies)) ∧
      (∀ reg f, (reg, f) ∈ [((1 : Fin 7), SL.SHAPE_RATE.MBPS e.val), (2, SL.SHAPE_BURST.BYTES e.val)] →
        Runs (.sluiceEntryWrite rq d e reg v) s (fun t => t.rd d f = v.toNat % 2 ^ f.w ∧ onlyFields [(d, f)] s t ∧
          ∃ m, tget (t.sluice d).meters e.val = some m ∧ m.credit = 0 ∧ m.creditAt = s.now)) ∧
      (∀ reg f, (reg, f) ∈ [((3 : Fin 7), SL.POLICE_CIR.MBPS e.val), (4, SL.POLICE_CBS.BYTES e.val), (5, SL.POLICE_PIR.MBPS e.val),
          (6, SL.POLICE_PBS.BYTES e.val)] → Runs (.sluiceEntryWrite rq d e reg v) s (fun t => t.rd d f = v.toNat % 2 ^ f.w ∧
        ∃ m, tget (t.sluice d).meters e.val = some m ∧ m.tc = max 4160 (t.rd d (SL.POLICE_CBS.BYTES e.val)) * 8000 ∧
          m.tp = max 4160 (t.rd d (SL.POLICE_PBS.BYTES e.val)) * 8000 ∧ m.policeAt = s.now)))

/-- Contexts: an open that is in order is accepted and answered, an endpoint that is down or an unknown version is refused, the answer makes
the opener LIVE, and CTX_NOCTX, an exhausted budget, ABORT and the end of UNREACH_HOLD end it as R301 to R305 state; reload and writeback
move a record between the cache and memory; a query shows it. -/
def Obligations.ContextsOpenAndEnd : Prop :=
  ∀ (s : State) (d : Die), s.inv → tblWf (s.tru d).ctxs = true →
    (∀ p l, (s.tru d).ctlIn = p :: l → hdrOk p = false →
      ∀ k c, (k, c) ∈ [(Instr.ctxOpen d, cCTX_OPEN), (.ctxOpenAck d, cCTX_OPEN_ACK), (.ctxNoctx d, cCTX_NOCTX), (.truAck d, cTRU_ACK)] →
      p.command = c → Runs k s (fun t => (t.tru d).ctlIn = l ∧ (t.tru d).ctxs = (s.tru d).ctxs ∧
        t.rd d TRU.HDR_CRC_FAILURES.COUNT = min (s.rd d TRU.HDR_CRC_FAILURES.COUNT + 1) (2 ^ TRU.HDR_CRC_FAILURES.COUNT.w - 1))) ∧
    (∀ p l, (s.tru d).ctlIn = p :: l → hdrOk p = true → p.command = cCTX_OPEN → s.repliesFull d = false →
      let reply := fun (t : State) (st : Nat) => (t.tru d).ctlIn = l ∧ ∃ w, (t.sluice d).ctl = (s.sluice d).ctl ++ [w] ∧
        w.command = cCTX_OPEN_ACK ∧ w.dest = p.src ∧ w.opf 72 8 = st ∧ w.opf 96 22 = p.opf 0 22 ∧ w.opf 128 32 = p.opf 32 32
      (s.endpointOk p.dest = false → Runs (.ctxOpen d) s (fun t => reply t 4 ∧ (t.tru d).ctxs = (s.tru d).ctxs)) ∧
      (s.endpointOk p.dest = true → p.opf 64 4 = 0 ∨ 2 < p.opf 64 4 → Runs (.ctxOpen d) s (fun t => reply t 1 ∧ (t.tru d).ctxs = (s.tru d).ctxs)) ∧
      (s.endpointOk p.dest = true → 1 ≤ p.opf 64 4 → p.opf 64 4 ≤ 2 → (p.opf 72 1 == 1) = s.lossy d → s.ctxOf d (endHp p.dest) p.src = none →
        (s.freeCtx d = none → Runs (.ctxOpen d) s (fun t => reply t 2)) ∧
        (∀ i, s.freeCtx d = some i → s.ctxCached d < s.rd d TRU.CTX_CACHE.ENTRIES → Runs (.ctxOpen d) s (fun t => reply t 0 ∧
          ∃ c, t.ctx? d i = some c ∧ c.st = .live ∧ c.hp = endHp p.dest ∧ c.fea = p.src ∧ c.remote = some (p.opf 0 22) ∧ c.peerIsn = p.opf 32 32 ∧
            c.version = 1)))) ∧
    (∀ p l c, (s.tru d).ctlIn = p :: l → hdrOk p = true → p.command = cCTX_OPEN_ACK → s.ctlCtx d p = some c → c.st = .opening →
      p.opf 96 22 = p.context % 2 ^ 22 → p.opf 128 32 = c.isn → Runs (.ctxOpenAck d) s (fun t => (t.tru d).ctlIn = l ∧
        ∃ c', t.ctx? d p.context = some c' ∧ c'.fea = c.fea ∧ (if p.opf 72 8 = 0 then c'.st = .live ∧ c'.remote = some (p.opf 0 22) ∧
          c'.version = p.opf 64 4 else c'.st = .unreachable))) ∧
    (∀ p l i c, (s.tru d).ctlIn = p :: l → hdrOk p = true → p.command = cCTX_NOCTX → s.ctxOf d (endHp p.dest) p.src = some (i, c) →
      feaEnd p.dest < 4 → Runs (.ctxNoctx d) s (fun t => (t.tru d).ctlIn = l ∧
        (if c.st = .live ∧ c.remote = some (p.opf 0 22) then t.ctx? d i = none ∧ t.rd d TRU.LAST_END.REASON = 3 else t.ctx? d i = s.ctx? d i))) ∧
    (∀ i c, s.ctx? d i = some c →
      (c.loading = true → s.ctxCached d < s.rd d TRU.CTX_CACHE.ENTRIES → Runs (.contextReload d i) s (fun t => ∃ c', t.ctx? d i = some c' ∧
        c'.cached = true ∧ c'.loading = false ∧ c'.rate = s.rd d TRU.CC_RATES.RATE_MAX_GBPS * 65536 ∧ c'.alpha = 0 ∧ c'.nextSeq = c.nextSeq)) ∧
      (c.st = .unreachable → c.holdAt ≤ s.now → Runs (.unreachHoldExpiry d i) s (fun t =>
        if s.ctxWaits d c then ∃ c', t.ctx? d i = some c' ∧ c'.st = .opening ∧ c'.hp = c.hp ∧ c'.fea = c.fea else t.ctx? d i = none)) ∧
      (c.st = .unreachable → s.now < c.holdAt → Runs (.unreachHoldExpiry d i) s (fun t => t = s)) ∧
      (c.st ≠ .unreachable → s.exhausted c = true → Runs (.retryBudgetExhausted d i) s (fun t => ∃ c', t.ctx? d i = some c' ∧
        c'.st = .unreachable ∧ c'.hp = c.hp ∧ c'.fea = c.fea ∧ c'.holdAt = s.now + ms (s.rd d TRU.TRU_TIMERS.UNREACH_HOLD_MS)))) ∧
    (∀ i, Runs (.contextWritebackDone d i) s (fun t => (t.tru d).wb = (s.tru d).wb.erase i ∧ (t.tru d).ctxs = (s.tru d).ctxs ∧ onlyFields [] s t)) ∧
    (∀ rq, s.warden rq →
      (s.on d TRU.CTX_STATUS.BUSY = true → ∀ k ∈ [Instr.queryPair rq d, .queryIndex rq d, .abort rq d], Runs k s (fun t =>
        t.rd d TRU.CTX_STATUS.GO_REJECT = 1 ∧ t.dies = s.dies ∧ onlyFields [(d, TRU.CTX_STATUS.GO_REJECT)] s t)) ∧
      (s.on d TRU.CTX_STATUS.BUSY = false →
        let ended := fun (t : State) (code detail : Nat) => t.rd d TRU.CTX_STATUS.DONE = 1 ∧ t.rd d TRU.CTX_STATUS.BUSY = 0 ∧
          t.rd d TRU.CTX_STATUS.CODE = code ∧ t.rd d TRU.CTX_STATUS.DETAIL = detail
        let shown := fun (t : State) (i : Nat) (c : Ctx) => ended t stOK 0 ∧ t.dies = s.dies ∧ t.rd d TRU.CTX_RESULT0.STATE = ctxStNum c.st ∧
          t.rd d TRU.CTX_RESULT0.CACHED = b2n c.cached ∧ t.rd d TRU.CTX_RESULT0.LOCAL_INDEX = i % 2 ^ TRU.CTX_RESULT0.LOCAL_INDEX.w ∧
          t.rd d TRU.CTX_RESULT2.NEXT_SEQ = c.nextSeq % 2 ^ TRU.CTX_RESULT2.NEXT_SEQ.w ∧ t.rd d TRU.CTX_RESULT2.CUM = c.cum % 2 ^ TRU.CTX_RESULT2.CUM.w
        (s.argPair d = none → (Runs (.queryPair rq d) s (fun t => ended t stFORMAT 1)) ∧ Runs (.abort rq d) s (fun t => ended t stFORMAT 1)) ∧
        (∀ i c, s.argPair d = some (i, c) → (Runs (.queryPair rq d) s (fun t => shown t i c)) ∧
          Runs (.abort rq d) s (fun t => ended t stOK 0 ∧ t.ctx? d i = none ∧ t.rd d TRU.LAST_END.REASON = 4)) ∧
        (∀ c, s.ctx? d (s.rd d TRU.CTX_ARG.INDEX) = some c → Runs (.queryIndex rq d) s (fun t => shown t (s.rd d TRU.CTX_ARG.INDEX) c))))

/-- Sequenced packets and their acknowledgement. A packet of the next number is handed on, or rejected as the stamping checker says; one
without a context is answered CTX_NOCTX; a duplicate and one beyond the window are counted. A landed packet is passed by CUM. The timers of
both halves act when they are due: an acknowledgement is sent, unacknowledged packets are sent again, rates fall or rise. -/
def Obligations.SequencedPacketsAndTimers : Prop :=
  ∀ (s : State) (d : Die), s.inv → tblWf (s.tru d).ctxs = true →
    let m := s.seqMod d
    let acked := fun (t : State) (c : Ctx) (nak : Nat) => ∃ w ∈ (t.sluice d).ctl, w.command = cTRU_ACK ∧ w.dest = c.fea ∧ w.opf 96 1 = nak
    (∀ x l, (s.tru d).inbox = x :: l → hdrOk x.pkt = true →
      (s.seqCtx d x.pkt = none → s.repliesFull d = false → Runs (.sequencedPacketReceive d) s (fun t => (t.tru d).inbox = l ∧
        (t.tru d).ctxs = (s.tru d).ctxs ∧ ∃ w, (t.sluice d).ctl = (s.sluice d).ctl ++ [w] ∧ w.command = cCTX_NOCTX ∧ w.dest = x.pkt.src ∧
          w.opf 0 22 = x.pkt.context % 2 ^ 22)) ∧
      (∀ c, s.seqCtx d x.pkt = some c → c.cached = true →
        let q := x.pkt.seq % m
        (sbefore m c.cum q = false → c.cum < 2 ^ 32 → Runs (.sequencedPacketReceive d) s (fun t => (t.tru d).inbox = l ∧ (t.tru d).handed = (s.tru d).handed ∧
          t.rd d TRU.DUPLICATES.COUNT = min (s.rd d TRU.DUPLICATES.COUNT + 1) (2 ^ TRU.DUPLICATES.COUNT.w - 1) ∧
          acked t c 0)) ∧
        (sbefore m c.cum q = true → rxGet c.rx q = none → s.window d < sdiff m c.cum q → Runs (.sequencedPacketReceive d) s (fun t =>
          (t.tru d).inbox = l ∧ (t.tru d).handed = (s.tru d).handed ∧
          t.rd d TRU.OUT_OF_WINDOW.COUNT = min (s.rd d TRU.OUT_OF_WINDOW.COUNT + 1) (2 ^ TRU.OUT_OF_WINDOW.COUNT.w - 1))) ∧
        (rxGet c.rx q = none → sdiff m c.cum q = 1 → x.reject = none → c.refused = none →
          Runs (.sequencedPacketReceive d) s (fun t => (t.tru d).inbox = l ∧
            ∃ h ∈ (t.tru d).handed, h.pkt = x.pkt ∧ h.ctx = x.pkt.context ∧ h.seq = q ∧ h.done = false)) ∧
        (∀ st, rxGet c.rx q = none → sdiff m c.cum q = 1 → x.reject = some st → s.recordsUsed d < 8192 →
          Runs (.sequencedPacketReceive d) s (fun t => (t.tru d).inbox = l ∧ ∃ c', t.ctx? d x.pkt.context = some c' ∧
            ∃ r ∈ c'.records, r.seq = q ∧ r.status = st ∧ r.outcome = 1)))) ∧
    (∀ id h c, (s.tru d).handed.find? (fun h => h.id == id && h.done) = some h → h.lines = [] → (∀ k ∈ h.reads, tget s.reads k = none) →
      s.ctx? d h.ctx = some c → id < (s.tru d).nextHanded →
      (rxGet c.rx h.seq).isSome = true → h.seq = (c.cum + 1) % m → Runs (.packetLanded d id) s (fun t =>
        (∀ x ∈ (t.tru d).handed, x.id ≠ id) ∧ ∃ c', t.ctx? d h.ctx = some c' ∧ rxGet c'.rx h.seq = none)) ∧
    (∀ i c, s.ctx? d i = some c → c.cum < 2 ^ 32 →
      (c.ackAt ≠ 0 → c.ackAt ≤ s.now → Runs (.ackDelayExpiry d i) s (fun t => acked t c 0 ∧ ∃ c', t.ctx? d i = some c' ∧ c'.ackAt = 0)) ∧
      (s.lossy d = false → c.gapAt ≠ 0 → c.gapAt ≤ s.now → Runs (.gapTimeout d i) s (fun t => acked t c 1 ∧
        t.rd d TRU.NAKS_SENT.COUNT = min (s.rd d TRU.NAKS_SENT.COUNT + 1) (2 ^ TRU.NAKS_SENT.COUNT.w - 1) ∧
        ∃ c', t.ctx? d i = some c' ∧ c'.gapAt = s.now + s.rd d TRU.TRU_TIMERS.GAP_TIMEOUT_NS)) ∧
      (c.records.any (fun r => r.sentAt + 16000 ≤ s.now) = true → Runs (.recordResendTimer d i) s (fun t => acked t c 0 ∧
        ∃ c', t.ctx? d i = some c' ∧ c'.records.length = c.records.length ∧
          (c.records.length ≤ 8 → ∀ r ∈ c'.records, r.sentAt = s.now))) ∧
      (c.timerAt ≠ 0 → c.timerAt ≤ s.now → s.exhausted c = false → Runs (.retransmitTimeout d i) s (fun t =>
        t.rd d TRU.TIMEOUTS.COUNT = min (s.rd d TRU.TIMEOUTS.COUNT + 1) (2 ^ TRU.TIMEOUTS.COUNT.w - 1) ∧
        (c.st = .opening → ∃ w ∈ (t.sluice d).ctl, w.command = cCTX_OPEN ∧ w.dest = c.fea) ∧
        (c.st ≠ .opening → ∃ c', t.ctx? d i = some c' ∧ c'.rate = max (s.rd d TRU.CC_RATES.RATE_MIN_GBPS * 65536) (c.rate / 2) ∧ c'.target = c.rate ∧
          ∀ x ∈ (if s.lossy d then (unackedOf c).take 16 else unackedOf c), ∃ y ∈ c'.due, y.1 = x.seq))) ∧
      (c.timerAt = 0 ∨ s.now < c.timerAt → Runs (.retransmitTimeout d i) s (fun t => t = s)) ∧
      (c.rnrAt ≠ 0 → c.rnrAt ≤ s.now → Runs (.rnrRetransmit d i) s (fun t => ∃ c', t.ctx? d i = some c' ∧ c'.rnrAt = 0 ∧
        ∀ x ∈ unackedOf c, x.seq = c.rnrSeq ∨ sbefore m c.rnrSeq x.seq = true → ∃ y ∈ c'.due, y.1 = x.seq)) ∧
      (∀ p l, (s.tru d).ctlIn = p :: l → hdrOk p = true → p.command = cTRU_ACK → s.ctlCtx d p = some c → p.context = i → c.cached = true →
        c.st = .live →
        let cum := if sbefore m c.cumAcked (p.opf 0 32 % m) then p.opf 0 32 % m else c.cumAcked
        Runs (.truAck d) s (fun t => (t.tru d).ctlIn = l ∧ ∃ c', t.ctx? d i = some c' ∧ c'.cumAcked = cum ∧
          (∀ x ∈ c'.descs, sbefore m cum x.seq = true)))) ∧
    ((s.tru d).tickAt ≤ s.now → Runs (.rateIncreaseTick d) s (fun t =>
      (t.tru d).tickAt = s.now + us (s.rd d TRU.CC_CFG.INC_INTERVAL_US) ∧ (t.tru d).ctxs.map (·.1) = (s.tru d).ctxs.map (·.1) ∧ onlyFields [] s t)) ∧
    (s.now < (s.tru d).tickAt → Runs (.rateIncreaseTick d) s (fun t => t = s))

/-! ## Quadrilles (11_collectives.md) -/

/-- The quadrille entries. Q_JOIN at a LEAF makes its record and sends JOIN to the parent; an operation at a READY member is recorded, and a
LEAF that holds credit sends its segment; Q_RELEASE sends RELEASE to the parent and frees a failed record; Q_ABORT fails the membership. An
entry whose fields are out of range, of a function that has not joined, or at a failed member ends with the status that R344 to R366 name. -/
def Obligations.QuadrilleEntries : Prop :=
  ∀ (s : State) (i : Nat) (o : WOp), s.inv → tblWf s.ops = true →
    let e := o.entry
    let d := opDie o
    tblWf (s.die d).members = true →
    let mine := (s.die d).members.find? (fun p => p.2.polder == s.opPolder o && p.2.qid == qQid e && p.2.fn == opFn o)
    let ended := fun (t : State) (st : Nat) => t.op i = some { o with stage := .ended, status := st, bytes := 0 }
    let sent := fun (t : State) (c dest : Nat) => ∃ w, (t.sluice d).waiting = (s.sluice d).waiting ++ [w] ∧ w.pkt.command = c ∧ w.pkt.dest = dest ∧
      w.pkt.polder = s.opPolder o
    let ops := [(Instr.qAllreduce i, 0x62, 0), (.qReduce i, 0x63, 1), (.qBcast i, 0x64, 2), (.qBarrier i, 0x65, 3)]
    (s.startedOp i (· == 0x60) = some o →
      (joinArgsOk e o.ext = false → Runs (.qJoin i) s (fun t => t.op i = some { o with aux := 4, stage := .ended, status := stFORMAT, bytes := 0 })) ∧
      (joinArgsOk e o.ext = true → qRole e = 0 → s.findMember d (s.opPolder o) (qQid e) (opFn o).hp = none →
        ((s.die d).members.filter (fun p => isLeaf p.2 == true)).length < 16384 → s.slotsFit ((s.servingQdu d).getD d) 0 = true →
        Runs (.qJoin i) s (fun t => t.op i = some { o with stage := .running, expect := 1 } ∧ sent t cQCTL (qParent e) ∧
          ∃ m, t.member? d (s.die d).nextMember = some m ∧ m.st = .joining ∧ m.qid = qQid e ∧ m.role = 0 ∧ m.joinSent = true))) ∧
    (∀ k c kind, (k, c, kind) ∈ ops → s.startedOp i (· == c) = some o →
      (mine = none → Runs k s (fun t => ended t stFORMAT)) ∧
      (∀ n m, mine = some (n, m) → m.st = .failed → Runs k s (fun t => ended t stCANCELLED)) ∧
      (∀ n m, mine = some (n, m) → m.st = .ready → isLeaf m = true → 0xFFFFFFFF < qCount e * dtypeSize (qType e) → Runs k s (fun t =>
        ∃ m', t.member? d n = some m' ∧ m'.st = .failed)) ∧
      (∀ n m, mine = some (n, m) → m.st = .ready → isLeaf m = true → m.ops = [] → m.segs = [] → m.releases = [] → qCount e = 0 → o.force = none →
        let recorded := fun (t : State) => t.op i = some { o with stage := .running, expect := 1 } ∧
          ∃ m' q, t.member? d n = some m' ∧ m'.ops = [q] ∧ q.op = i ∧ q.kind = kind ∧ q.first = m.nextSeg ∧ q.opseq = m.opCount
        (kind = 2 → covers m.grantedUp m.nextSeg = false → Runs k s (fun t => recorded t ∧ sent t cQCTL m.parent)) ∧
        (kind ≠ 2 → covers m.credit m.nextSeg = true → Runs k s (fun t => recorded t ∧ sent t cQDATA m.parent)) ∧
        (kind ≠ 2 → covers m.credit m.nextSeg = false → Runs k s (fun t => recorded t ∧ (t.sluice d).waiting = (s.sluice d).waiting ∧
          onlyFields [] s t)))) ∧
    (s.startedOp i (· == 0x61) = some o →
      (mine = none → Runs (.qRelease i) s (fun t => ended t stFORMAT)) ∧
      (∀ n m, mine = some (n, m) → m.st = .failed → Runs (.qRelease i) s (fun t => ended t stOK ∧ t.member? d n = none)) ∧
      (∀ n m, mine = some (n, m) → m.st = .ready → m.role = 0 → m.ops = [] → m.children = [] → m.releases = [] → m.releaseOp = none →
        Runs (.qRelease i) s (fun t => t.op i = some { o with stage := .running, expect := 1 } ∧ sent t cQCTL m.parent ∧
          t.member? d n = some { m with releaseOp := some i, st := .releasing }))) ∧
    (s.startedOp i (· == 0x66) = some o →
      (mine = none → Runs (.qAbort i) s (fun t => ended t stFORMAT)) ∧
      (∀ n m, mine = some (n, m) → m.st = .failed → Runs (.qAbort i) s (fun t => ended t stCANCELLED)) ∧
      (∀ n m, mine = some (n, m) → m.st ≠ .failed → Runs (.qAbort i) s (fun t => ∃ m', t.member? d n = some m' ∧ m'.st = .failed ∧
        m'.ops = [] ∧ m'.segs = [] ∧ (m.role = 2 ∧ m.children = [] ∨ ∃ x ∈ m'.aborts, x.1 = i))))

/-- Quadrille packets at a member whose link is up, and the timers of joining. A JOIN is taken by its parent or waits as pending; READY,
CREDIT, RELEASE, FREE and ABORT move the member's record; data join their segment or wait for its operation; a result raises the
credit, and ends an operation of which it is the last; a RESEND sends a segment again; SEGMENT_SEND begins a segment that may begin. -/
def Obligations.QuadrillePackets : Prop :=
  ∀ (s : State) (d : Die) (id : Nat) (h : Handed), s.inv → tblWf s.ops = true → tblWf (s.die d).members = true →
    let p := h.pkt
    let performed := fun (t : State) => t.handedPkt d id (fun _ => true) = none
    let empty := fun (t : State) (m : Member) => ∃ w, (t.sluice d).waiting = (s.sluice d).waiting ++ [w] ∧ w.pkt.command = cQDATA ∧
      w.pkt.dest = m.parent ∧ pktData w.pkt = []
    (s.qctlPkt d id 1 = some h → s.pktMember d p = none → (s.die d).joins.length < 4096 → Runs (.qctlJoin d id) s (fun t => performed t ∧
      (t.die d).joins = (s.die d).joins ++ [⟨p.polder, p.opf 0 32, endHp p.dest, p.src, p.opf 40 4, p.opf 56 1 == 1, s.now⟩])) ∧
    (∀ k m, s.pktMember d p = some (k, m) → s.fnLinkUp m.fn = true →
      (s.qctlPkt d id 1 = some h → m.st = .joining → joinOk m p.src (p.opf 40 4) (p.opf 56 1 == 1) = true → Runs (.qctlJoin d id) s (fun t =>
        performed t ∧ ∃ m', t.member? d k = some m' ∧ m'.joined = m.joined ++ [p.opf 40 4])) ∧
      (s.qctlPkt d id 2 = some h → m.st = .joining → Runs (.qctlReady d id) s (fun t => performed t ∧
        (∃ m', t.member? d k = some m' ∧ m'.st = .ready ∧ m'.granted = some 0 ∧ m'.credit = if m.role = 2 then none else some 0) ∧
        ∀ i o, m.joinOp = some i → s.op i = some o → t.op i = some { o with stage := .ended, status := stOK, bytes := 0 })) ∧
      (s.qctlPkt d id 3 = some h → Runs (.qctlCredit d id) s (fun t => performed t ∧ ∃ m', t.member? d k = some m' ∧
        (if m.role ≠ 2 ∧ p.src = m.parent then m'.credit = some (max (p.opf 96 32) (m.credit.getD 0))
          else tget m'.childCredit (p.opf 40 4) = some (p.opf 96 32)))) ∧
      (s.qctlPkt d id 4 = some h →
        ((∀ g ∈ m.segs, g.seg ≠ p.opf 96 32) → Runs (.qctlResend d id) s (fun t => performed t ∧ t.sluice d = s.sluice d)) ∧
        (∀ g o w, m.segs.find? (fun g => g.seg == p.opf 96 32) = some g → g.result = none → g.elems = 0 → isLeaf m = true →
          m.ops.find? (fun o => o.opseq == g.opseq) = some o → o.kind ≠ 2 → covers m.credit g.seg = true → s.op o.op = some w → w.force = none →
          Runs (.qctlResend d id) s (fun t => performed t ∧ empty t m))) ∧
      (s.qctlPkt d id 5 = some h → m.releaseOp = none →
        (m.opCount + m.ops.length ≤ p.opf 64 32 → Runs (.qctlRelease d id) s (fun t => performed t ∧
          t.member? d k = some { m with releases := tput m.releases (p.opf 40 4) (p.opf 64 32) })) ∧
        (p.opf 64 32 < m.opCount + m.ops.length → m.st ≠ .failed → Runs (.qctlRelease d id) s (fun t => performed t ∧
          ∃ m', t.member? d k = some m' ∧ m'.st = .failed))) ∧
      (s.qctlPkt d id 6 = some h → m.st = .releasing → Runs (.qctlFree d id) s (fun t => performed t ∧ t.member? d k = none ∧
        ∀ i o, m.releaseOp = some i → s.op i = some o → t.op i = some { o with stage := .ended, status := stOK, bytes := 0 })) ∧
      (s.qctlPkt d id 7 = some h → m.st ≠ .failed → Runs (.qctlAbort d id) s (fun t => performed t ∧
        ∃ m', t.member? d k = some m' ∧ m'.st = .failed ∧ m'.ops = [] ∧ m'.segs = [])) ∧
      (s.handedPkt d id (· == cQDATA) = some h → m.st ≠ .failed →
        (p.srcPoison = true ∨ covers m.granted (p.opf 64 32) = false → Runs (.qdata d id) s (fun t => performed t ∧
          ∃ m', t.member? d k = some m' ∧ m'.st = .failed)) ∧
        (p.srcPoison = false → covers m.granted (p.opf 64 32) = true → (∀ g ∈ m.segs, g.seg ≠ p.opf 64 32) → (∀ o ∈ m.ops, o.opseq ≠ p.opf 32 32) →
          Runs (.qdata d id) s (fun t => performed t ∧ ∃ m' e, t.member? d k = some m' ∧ m'.early = m.early ++ [e] ∧ e.data = pktData p ∧
            e.seg = p.opf 64 32 ∧ e.opseq = p.opf 32 32 ∧ e.child = p.opf 136 4)) ∧
        (∀ g o, p.srcPoison = false → covers m.granted (p.opf 64 32) = true → m.segs = [g] → m.ops = [o] → o.segs ≤ o.begun → g.seg = p.opf 64 32 →
          o.opseq = p.opf 32 32 → o.kind = p.opf 134 2 → o.qop = p.opf 128 3 → o.dtype = p.opf 131 3 → o.count = p.opf 160 32 →
          isLeaf m = false → g.result = none → g.own ≠ .due → (∀ x ∈ g.items, x.idx ≠ p.opf 136 4 + 1) → g.items.length < m.children.length →
          Runs (.qdata d id) s (fun t => performed t ∧ ∃ m', t.member? d k = some m' ∧
            m'.segs = [{ g with items := g.items ++ [⟨p.opf 136 4 + 1, p.opf 140 2, pktData p⟩] }]))) ∧
      (s.handedPkt d id (· == cQRESULT) = some h → m.st ≠ .failed → p.srcPoison = false → Runs (.qresult d id) s (fun t => performed t ∧
        (∃ m', t.member? d k = some m' ∧ m'.credit = some (max (p.opf 96 32) (m.credit.getD 0))) ∧
        ∀ g o w, m.segs = [g] → m.ops = [o] → g.seg = p.opf 64 32 → g.opseq = o.opseq → g.result = none → g.elems = 0 → m.children = [] →
          pktData p = [] → g.unacked = 0 → o.unacked = 0 → o.segs = o.done + 1 → s.op o.op = some w → w.force = none →
          t.op o.op = some { w with aux := o.opseq, stage := .ended, status := stOK, bytes := o.bytes }))) ∧
    (∀ k m o w, s.member? d k = some m → m.st = .ready → isLeaf m = true → m.segs = [] → m.ops = [o] → o.begun = 0 → o.segs = 1 → o.count = 0 →
      o.kind ≠ 2 → covers m.credit o.first = true → s.op o.op = some w → w.force = none → Runs (.segmentSend d k) s (fun t => empty t m)) ∧
    (∀ k m, s.member? d k = some m →
      (m.st = .joining → m.since + s.joinTimeout d m ≤ s.now → Runs (.joinTimeout d k) s (fun t => t.member? d k = none ∧
        ∀ i o, m.joinOp = some i → s.op i = some o → t.op i = some { o with aux := 6, stage := .ended, status := stNOT_READY, bytes := 0 })) ∧
      (m.st ≠ .joining → Runs (.joinTimeout d k) s (fun t => t = s))) ∧
    (∀ j rest, (s.die d).joins = j :: rest → (j.at_ + ms (s.rd d QDU.QDU_CFG.JOIN_TIMEOUT_MS) ≤ s.now →
      Runs (.pendingJoinTimeout d) s (fun t => (t.die d).joins = rest ∧ (t.die d).members = (s.die d).members)) ∧
      (s.now < j.at_ + ms (s.rd d QDU.QDU_CFG.JOIN_TIMEOUT_MS) → Runs (.pendingJoinTimeout d) s (fun t => t = s)))

/-! ## Routing, the switch core and the die bridge (12_routing.md, 13_switch_core.md, 01_anatomy.md) -/

/-- Route tables: without a warden's rights nothing is written; MY_FEA is written only while both versions are INVALID, a table only while its
version is, and EPOCH.INJECT only to a VALID one; otherwise WRITE_REJECT is set. An entry's reserved bits are not kept. VALIDATE
answers the first rule that is broken, or makes the version VALID; VERSION_INVALIDATE makes one INVALID that is not injected; either is
rejected while BUSY. RESEED selects the other seed. -/
def Obligations.RouteTablesAreGuarded : Prop :=
  ∀ (s : State) (rq : Requester) (d : Die), s.inv → s.barUp rq = true →
    (s.privileged rq = false → ∀ (v : Fin 2) (n : Fin 3) (e : Fin 4096) (x : W64), ∀ c ∈ [Instr.myFeaWrite rq d x, .routeTableWrite rq d v n e x,
        .epochInjectWrite rq d v, .validate rq d v, .versionInvalidate rq d v, .reseed rq d], Runs c s (fun t => t.dies = s.dies ∧
      t.rd .a GLB.PRIV_VIOLATION_COUNT.COUNT = min (s.rd .a GLB.PRIV_VIOLATION_COUNT.COUNT + 1) 0xFFFFFFFF)) ∧
    (s.privileged rq = true →
      let refused := fun (t : State) => t.dies = s.dies ∧ t.rd d RTB.VERSION_STATUS.WRITE_REJECT = 1 ∧
        onlyFields [(d, RTB.VERSION_STATUS.WRITE_REJECT)] s t
      let code := fun (t : State) (st detail index : Nat) => t.rd d RTB.VERSION_STATUS.DONE = 1 ∧ t.rd d RTB.VERSION_STATUS.CODE = st ∧
        t.rd d RTB.VERSION_STATUS.DETAIL = detail ∧ t.rd d RTB.VERSION_STATUS.INDEX = index
      (∀ x : W64, if s.verValid d 0 || s.verValid d 1 then Runs (.myFeaWrite rq d x) s refused
        else Runs (.myFeaWrite rq d x) s (fun t => t.rd d RTB.MY_FEA.ROUTER = x.toNat / 64 % 64 ∧ t.rd d RTB.MY_FEA.GROUP = x.toNat / 4096 % 4096 ∧
          t.rd d RTB.MY_FEA.VALID = x.toNat / 2 ^ 31 % 2 ∧ t.dies = s.dies ∧
          onlyFields [(d, RTB.MY_FEA.ROUTER), (d, RTB.MY_FEA.GROUP), (d, RTB.MY_FEA.VALID)] s t)) ∧
      (∀ (v : Fin 2) (e : Fin 4096) (x : W64), (s.verValid d v.val = true → ∀ n, Runs (.routeTableWrite rq d v n e x) s refused) ∧
        (s.verValid d v.val = false →
          (Runs (.routeTableWrite rq d v 0 e x) s (fun t => t.rd d (RTB.GROUP v.val e.val) = x.toNat % 64 + x.toNat / 256 % 2 ^ 40 * 256 ∧
            t.dies = s.dies ∧ onlyFields [(d, RTB.GROUP v.val e.val)] s t)) ∧
          (e.val < 32 → (Runs (.routeTableWrite rq d v 1 e x) s (fun t => t.rd d (RTB.LOCAL v.val e.val) = x.toNat % 2 ^ 16 ∧
              t.dies = s.dies ∧ onlyFields [(d, RTB.LOCAL v.val e.val)] s t)) ∧
            Runs (.routeTableWrite rq d v 2 e x) s (fun t => t.rd d (RTB.SLOT v.val e.val) = x.toNat % 2 ^ 8 ∧
              t.dies = s.dies ∧ onlyFields [(d, RTB.SLOT v.val e.val)] s t)) ∧
          (32 ≤ e.val → ∀ n : Fin 3, n ≠ 0 → Runs (.routeTableWrite rq d v n e x) s (fun t => t = s)))) ∧
      (∀ v : Fin 2, (s.verValid d v.val = true → Runs (.epochInjectWrite rq d v) s (fun t => t.rd d RTB.EPOCH.INJECT = v.val ∧
          onlyFields [(d, RTB.EPOCH.INJECT)] s t)) ∧
        (s.verValid d v.val = false → Runs (.epochInjectWrite rq d v) s refused)) ∧
      (∀ v : Fin 2, s.on d RTB.VERSION_STATUS.BUSY = true → ∀ c ∈ [Instr.validate rq d v, .versionInvalidate rq d v], Runs c s (fun t =>
        t.rd d RTB.VERSION_STATUS.GO_REJECT = 1 ∧ t.dies = s.dies ∧ onlyFields [(d, RTB.VERSION_STATUS.GO_REJECT)] s t)) ∧
      (∀ v : Fin 2, s.on d RTB.VERSION_STATUS.BUSY = false →
        (s.verValid d v.val = true → Runs (.validate rq d v) s (fun t => code t stFORMAT 6 0 ∧ t.verValid d v.val = true)) ∧
        (∀ a n e, s.verValid d v.val = false → s.validateFault d v.val = some (a, n, e) → Runs (.validate rq d v) s (fun t =>
          code t stFORMAT (a % 256) ((n * 4096 + e) % 65536) ∧ t.verValid d v.val = false)) ∧
        (s.verValid d v.val = false → s.validateFault d v.val = none → Runs (.validate rq d v) s (fun t => code t stOK 0 0 ∧ t.verValid d v.val = true)) ∧
        (s.rd d RTB.EPOCH.INJECT = v.val → Runs (.versionInvalidate rq d v) s (fun t => code t stFORMAT 6 0)) ∧
        (s.rd d RTB.EPOCH.INJECT ≠ v.val → Runs (.versionInvalidate rq d v) s (fun t => code t stOK 0 0 ∧ t.verValid d v.val = false))) ∧
      (Runs (.reseed rq d) s (fun t => t.seedCur d = (!s.seedCur d) ∧ t.rd d RTB.SEED.GEN = (s.rd d RTB.SEED.GEN + 1) % 65536 ∧
        t.rd d RTB.RESEEDS.COUNT = min (s.rd d RTB.RESEEDS.COUNT + 1) (2 ^ RTB.RESEEDS.COUNT.w - 1) ∧
        onlyFields [(d, RTB.SEED.CUR), (d, RTB.SEED.GEN), (d, RTB.RESEEDS.COUNT)] s t)))

/-- Group status and routing. The status goes out over every live port of the group at its period, and one that arrives replaces what is known
of its sender, on both dies while they are joined; one too old is counted stale. A packet at the head of an input VC takes the output that
its route names; while MY_FEA is not valid it is discarded, and so is one that waits beyond HOLD_LIMIT. An imbalance window starts anew. -/
def Obligations.StatusAndRoutes : Prop :=
  ∀ (s : State) (d : Die), s.inv →
    let one := fun (t : State) (c : Fld) => t.rd d c = min (s.rd d c + 1) (2 ^ c.w - 1)
    ((s.rtb d).gsAt ≤ s.now → Runs (.groupStatusPeriod d) s (fun t => (t.rtb d).gsAt = s.now + min 10000 (max 250 (s.rd d RTB.GS_CFG.PERIOD_NS)) ∧
      ∃ ws, (t.sluice d).ctl = (s.sluice d).ctl ++ ws ∧ ws.length = (if s.on d RTB.MY_FEA.VALID then (s.statusPorts d).length else 0) ∧
        ∀ w ∈ ws, w.command = cGROUP_STATUS ∧ w.vn = vMGT)) ∧
    (∀ p l, (s.rtb d).inbox = p :: l → (parseStatus p.data s.now).1 < 32 →
      let x := (parseStatus p.data s.now).2
      let k := 2 * (parseStatus p.data s.now).1 + if x.half = 2 then 1 else 0
      Runs (.groupStatus d) s (fun t => (t.rtb d).inbox = l ∧ tget (t.rtb d).peers k = some x ∧ k ∉ (t.rtb d).stale ∧
        (if s.on d RTB.SPLIT.SPLIT then t.rtb d.other = s.rtb d.other else tget (t.rtb d.other).peers k = some x))) ∧
    (∀ (r : Fin 32) (b : Fin 2) x, tget (s.rtb d).peers (2 * r.val + b.val) = some x → s.peerFresh d x = false →
      2 * r.val + b.val ∉ (s.rtb d).stale → Runs (.peerStale d r b) s (fun t => 2 * r.val + b.val ∈ (t.rtb d).stale ∧ one t RTB.GS_STALE.COUNT ∧
        onlyFields [(d, RTB.GS_STALE.COUNT)] s t)) ∧
    (∀ (k : Fin 2560) q l, (s.swc d).inList k.val = q :: l → q.drop = false → q.sent = 0 → q.granted = false → q.arrived ≠ 0 → q.out = none →
      q.pkt.transit = false →
      let inj := isInternal (k.val / 32)
      (s.on d RTB.MY_FEA.VALID = false → Runs (.routePacket d k) s (fun t => one t RTB.NO_ROUTE_DROPS.COUNT ∧ t.rd d RTB.LAST_DROP.REASON = 1)) ∧
      (∀ s' p, s.route d q.pkt inj = (s', p, .eject) → ejectDie p.dest = d → s.on d SWC.SWC_CFG.MODE = false → Runs (.routePacket d k) s (fun t =>
        ∃ q', (t.swc d).inList k.val = q' :: l ∧ q'.out = some (ipKey p.hash, p.vn * 8) ∧ q'.sent = 0 ∧ q'.drop = false)) ∧
      (∀ s' p np pos i, s.route d q.pkt inj = (s', p, .hop np pos) → s.portOf np = (d, i) → isBridge (s.portKey i (posVc pos)) = false →
        s.on d SWC.SWC_CFG.MODE = false → Runs (.routePacket d k) s (fun t =>
          ∃ q', (t.swc d).inList k.val = q' :: l ∧ q'.out = some (s.portKey i (posVc pos), p.vn * 8 + posVc pos) ∧ q'.pkt.bridgeClass = pos))) ∧
    (∀ (k : Fin 2560) q l, (s.swc d).inList k.val = q :: l → q.sent = 0 → q.granted = false → q.drop = false → q.since + s.holdNs d < s.now →
      Runs (.holdLimitExpiry d (.input k)) s (fun t => one t RTB.HOLD_DROPS.COUNT ∧ t.rd d RTB.LAST_DROP.REASON = 3)) ∧
    ((s.rtb d).winAt + 10000 ≤ s.now → Runs (.imbalanceWindow d) s (fun t => (t.rtb d).winAt = s.now ∧ (t.rtb d).winBytes = [])) ∧
    (s.now < (s.rtb d).winAt + 10000 → Runs (.imbalanceWindow d) s (fun t => t = s))

/-- The switch core, the die bridge and the NoC. In a cell a lone eligible header bound for an internal port is moved there; the oldest
ejected packet goes to the unit that its command names, with the tests of R107, or is dropped and counted; a bridge flit that passes its
check is taken and any other awaits replay; a silent module retrains at both ends and comes back. A NoC unit with a double error is counted
against its link and waits to be sent again; a single error is corrected and counted; through an empty mesh a unit goes on over the next
link, leaves it at its stop, or is held there for a domain that sleeps. -/
def Obligations.SwitchCoreAndBridge : Prop :=
  ∀ (s : State) (d : Die), s.inv →
    let one := fun (t : State) (c : Fld) => t.rd d c = min (s.rd d c + 1) (2 ^ c.w - 1)
    (Runs (.crossbarAllocation d) s (fun t => (t.swc d).cell = (s.swc d).cell + 1)) ∧
    (∀ w q l, s.wants d = [w] → s.eligible d w = true → isInternal w.out = true → (s.swc d).inList w.ivc = q :: l → q.sent = 0 → q.pkt.len = 0 →
      w.head = true → w.vc < 32 → Runs (.crossbarAllocation d) s (fun t => ∃ x, (t.swc d).ejected = (s.swc d).ejected ++ [(w.out, x, q.since)] ∧
        x.dest = q.pkt.dest ∧ x.command = q.pkt.command)) ∧
    (∀ k p since l, (s.swc d).ejected = (k, p, since) :: l →
      (p.badHdr = true ∨ assigned p.command = false → Runs (.packetEjected d) s (fun t => (t.swc d).ejected = l ∧ one t SWC.FORMAT_DROPS.COUNT ∧
        t.tru d = s.tru d)) ∧
      (p.badHdr = false → p.badData = false ∨ p.srcPoison = true → assigned p.command = true →
        (p.command = cGROUP_STATUS → Runs (.packetEjected d) s (fun t => (t.swc d).ejected = l ∧ (t.rtb d).inbox = (s.rtb d).inbox ++ [p])) ∧
        (isControl p.command = true → Runs (.packetEjected d) s (fun t => (t.swc d).ejected = l ∧ (t.tru d).ctlIn = (s.tru d).ctlIn ++ [p])) ∧
        (0x10 ≤ p.command → s.staleCheck d (k - 64) = true → Runs (.packetEjected d) s (fun t => (t.swc d).ejected = l ∧ t.tru d = s.tru d)) ∧
        (0x10 ≤ p.command → s.staleCheck d (k - 64) = false → s.ejectTest d p = .pass → Runs (.packetEjected d) s (fun t => (t.swc d).ejected = l ∧
          (t.tru d).inbox = (s.tru d).inbox ++ [⟨p, none⟩])) ∧
        (∀ st c n, 0x10 ≤ p.command → s.staleCheck d (k - 64) = false → s.ejectTest d p = .reject st c n → Runs (.packetEjected d) s (fun t => (t.swc d).ejected = l ∧
          (t.tru d).inbox = (s.tru d).inbox ++ [⟨p, some st⟩] ∧ one t c ∧ t.rd d DIKE.LAST_DROP.REASON = n % 2 ^ DIKE.LAST_DROP.REASON.w)) ∧
        (∀ c n, 0x10 ≤ p.command → s.staleCheck d (k - 64) = false → s.ejectTest d p = .drop c n → Runs (.packetEjected d) s (fun t => (t.swc d).ejected = l ∧
          t.tru d = s.tru d ∧ one t c ∧ t.rd d DIKE.LAST_DROP.REASON = n % 2 ^ DIKE.LAST_DROP.REASON.w)))) ∧
    (∀ (m : Fin 16) x f l (err : List (Fin 272 × Byte)), tget (s.bridge d).mods m.val = some x → (s.bmod d.other m.val).wire = f :: l →
      let good := bflitGood (changed f.bytes (err.map (fun e => (e.1.val, e.2)))) x.nextRx
      Runs (.bridgeFlitReceived d m err) s (fun t => (t.bmod d.other m.val).wire = l ∧ (t.bmod d m.val).awaiting = !good ∧
        (t.bmod d m.val).nextRx = (if good then (x.nextRx + 1) % 65536 else x.nextRx) ∧ (good = true → (t.bmod d m.val).rxAt = s.now))) ∧
    (∀ (m : Fin 16) x y, tget (s.bridge .a).mods m.val = some x → tget (s.bridge .b).mods m.val = some y →
      ((s.bmod d m.val).live = true → (s.bmod d m.val).rxAt + 1000 ≤ s.now → Runs (.bridgeModuleSilent d m) s (fun t => ∀ e,
        (t.bmod e m.val).live = false ∧ (t.bmod e m.val).training = true ∧ (t.bmod e m.val).trainAt = s.now)) ∧
      (x.training = true → Runs (.bridgeModuleRetrainDone m true) s (fun t => ∀ e, (t.bmod e m.val).live = true ∧
        (t.bmod e m.val).training = false ∧ (t.bmod e m.val).retrains = 0)) ∧
      (x.training = true → x.retrains = 0 → Runs (.bridgeModuleRetrainDone m false) s (fun t => ∀ e,
        (t.bmod e m.val).retrains = (s.bmod e m.val).retrains + 1 ∧ (t.bmod e m.val).live = (s.bmod e m.val).live))) ∧
    (∀ (stop : Fin 64) (dir : Fin 4) (w : BitVec 544),
      let k := stop.val + 64 * dir.val
      let run := Runs (.nocUnitReceived d stop dir w) s
      (nocCheck w.toNat = none → run (fun t => t.nocLink d k = { s.nocLink d k with fails := (s.nocLink d k).fails + 1 } ∧
        (∀ j, j ≠ k → t.nocLink d j = s.nocLink d j) ∧ t.out = s.out ∧ onlyFields [] s t)) ∧
      (∀ v, nocCheck w.toNat = some v →
        let u := nocUnit v
        let target := nocTarget d u
        run (fun t => (t.nocLink d k).fails = 0 ∧
          (t.noc d).corrected = (s.noc d).corrected + (if nocSyndrome w.toNat = (0, false) then 0 else 1)) ∧
        ((s.noc d).links = [] → target ≠ stop.val → run (fun t => (t.nocLink d (nocNext stop.val target)).sent = [u] ∧ (t.nocLink d k).bufs = [])) ∧
        ((s.noc d).links = [] → target = stop.val → u.destDie = d.num →
          (stopDomain stop.val = none → run (fun t => (t.nocLink d k).bufs = [] ∧ (t.noc d).hold = (s.noc d).hold)) ∧
          (∀ i, stopDomain stop.val = some i → s.stopOff d stop.val = false → 3 ≤ s.domSt d i → s.draining d i = false → u.cls ≠ 3 →
            ((s.held d stop.val).filter (fun x => x.cls == u.cls)).length < 16 →
            run (fun t => (t.nocLink d k).bufs = [] ∧ t.held d stop.val = s.held d stop.val ++ [u])))))

/-! ## The link layer (14_link_layer.md) -/

/-- The link layer of a port. A flit slot in ACTIVE sends the flit of a replay, else a CHANGE request that is due, else a DATA flit of staged
units, else an IDLE flit; in training it feeds the lanes, and in any other state it sends nothing. A flit that passes its check in ACTIVE is
taken, one that does not is counted and awaited again, and a NEGOTIATE flit retrains the link; a NACK and a late acknowledgement begin a
replay, or a retrain at the limit. Trained lanes begin to negotiate; compatible units are agreed and make the port ACTIVE, others make it fail
with their reason. The timers, RETRAIN, a change of width and its answers, and retirement have the effects of R457, R458, R464 and R467 to
R471. A command that its state or its time does not allow changes nothing. -/
def Obligations.LinkLayerCommands : Prop :=
  ∀ (s : State) (d : Die) (i : Fin 64), s.inv →
    let l := s.llu d i.val
    let st := s.linkSt d i.val
    let one := fun (t : State) (c : Fld) => t.rd d c = min (s.rd d c + 1) (2 ^ c.w - 1)
    let same := fun (t : State) => t = s
    -- A flit of a type goes out on the port, and what its lanes send of it.
    let flit := fun (t : State) (ty : Nat) => ∃ b sy, t.out = s.out ++ Output.flit (s.npOf d i.val) b :: sy ∧ leNat (b.take 8) % 16 = ty ∧
      ∀ x ∈ sy, ∃ n q, x = Output.symbols n q
    let retrains := fun (t : State) (cause : Nat) => t.linkSt d i.val = lsTRAINING ∧ t.rd d (LLU.LAST_RETRAIN.CAUSE i.val) = cause ∧
      (t.llu d i.val).began = s.now
    let limit := s.rd d (LLU.RETRAIN_CFG.REPLAY_LIMIT i.val)
    (st = lsACTIVE →
      -- FLIT_SLOT
      (∀ q f, l.replayAt = some q → l.buf.find? (fun f => f.seq == q) = some f → Runs (.flitSlot d i) s (fun t => flit t 1 ∧
        one t (LLU.FLITS_TX.COUNT i.val) ∧ one t (LLU.REPLAYED_FLITS.COUNT i.val) ∧
        (t.llu d i.val).replayAt = if (f.seq + 1) % 65536 = l.nextTx then none else some ((f.seq + 1) % 65536))) ∧
      ((l.replayAt.bind fun q => l.buf.find? (fun f => f.seq == q)) = none →
        (∀ m r at_, l.change = some (m, r, at_) → l.sendAt + 100 ≤ s.now → Runs (.flitSlot d i) s (fun t => flit t 4 ∧
          (t.llu d i.val).sendAt = s.now)) ∧
        (l.change = none ∨ s.now < l.sendAt + 100 →
          (s.rd d (LLU.REPLAY.CAPACITY i.val) ≤ l.buf.length → Runs (.flitSlot d i) s (fun t => flit t 2 ∧ (t.llu d i.val).buf = l.buf)) ∧
          (l.buf.length < s.rd d (LLU.REPLAY.CAPACITY i.val) → (State.takeUnits d (s.portKeys i.val) 4 s).2 = [] → Runs (.flitSlot d i) s (fun t =>
            flit t 2 ∧ (t.llu d i.val).buf = l.buf)) ∧
          (l.buf.length < s.rd d (LLU.REPLAY.CAPACITY i.val) → (State.takeUnits d (s.portKeys i.val) 4 s).2 ≠ [] → Runs (.flitSlot d i) s (fun t =>
            flit t 1 ∧ one t (LLU.FLITS_TX.COUNT i.val) ∧ (t.llu d i.val).nextTx = (l.nextTx + 1) % 65536 ∧
            (t.llu d i.val).buf.length = l.buf.length + 1)))) ∧
      -- FLIT_RECEIVED and the flits that have commands of their own
      (∀ (b : List Byte) (bad : Bool),
        let cw := leNat (b.take 8)
        let type := bitsOf cw 0 4
        let a := (bitsOf cw 34 16 + 1) % 65536
        (type = 1 → bitOf cw 33 = false → s.flitOk d i.val b bad l.nextRx = true → Runs (.flitReceived d i b bad) s (fun t =>
          (t.llu d i.val).nextRx = (l.nextRx + 1) % 65536 ∧ (t.llu d i.val).gotData = true ∧ (t.llu d i.val).rxAt = s.now ∧
          one t (LLU.FLITS_RX.COUNT i.val))) ∧
        (type = 2 → bitOf cw 33 = false → s.flitOk d i.val b bad l.nextRx = true → Runs (.flitReceived d i b bad) s (fun t =>
          (t.llu d i.val).nextRx = l.nextRx ∧ (t.llu d i.val).awaiting = false ∧ (t.llu d i.val).rxAt = s.now)) ∧
        (∀ f, type = 2 → bitOf cw 33 = true → s.flitOk d i.val b bad l.nextRx = true → l.nackFrom = none →
          l.buf.find? (fun f => f.seq == a) = some f → Runs (.flitReceived d i b bad) s (fun t =>
            if limit ≤ f.replays then retrains t 1 else one t (LLU.REPLAYS.COUNT i.val) ∧ (t.llu d i.val).replayAt = some a)) ∧
        (s.flitOk d i.val b bad (if type = 3 then 0xFFFF else l.nextRx) = false → Runs (.flitReceived d i b bad) s (fun t =>
          (t.llu d i.val).nextRx = l.nextRx ∧ (t.llu d i.val).awaiting = true ∧ t.out = s.out ∧
          one t (if l.awaiting then LLU.FLITS_DISCARDED.COUNT i.val else LLU.CRC_ERRORS.COUNT i.val))) ∧
        (∀ c n, (c, n) ∈ [(Instr.negotiatePropose d i b bad, 0), (.negotiateAgree d i b bad, 1), (.negotiateRefuse d i b bad, 2)] →
          flitIs b 3 n = true → s.flitOk d i.val b bad 0xFFFF = true → Runs c s (fun t => retrains t 5)) ∧
        (bitOf cw 33 = false → s.flitOk d i.val b bad l.nextRx = true →
          let x := leNat ((b.drop 9).take 1)
          (flitIs b 4 0 = true → s.changeOk d i.val (x % 16) (bitsOf x 4 3) = true → Runs (.changeRequest d i b bad) s (fun t =>
            t.linkSt d i.val = lsCHANGING ∧ t.rd d (LLU.CHANGE_STATUS.BUSY i.val) = 1 ∧ flit t 4)) ∧
          (flitIs b 4 0 = true → s.changeOk d i.val (x % 16) (bitsOf x 4 3) = false → Runs (.changeRequest d i b bad) s (fun t =>
            t.linkSt d i.val = lsACTIVE ∧ flit t 4)) ∧
          (∀ m r at_, l.change = some (m, r, at_) → (flitIs b 4 1 = true → Runs (.changeAccept d i b bad) s (fun t =>
              t.linkSt d i.val = lsCHANGING ∧ (t.llu d i.val).useMask = m ∧ (t.llu d i.val).useRate = r ∧ (t.llu d i.val).change = none)) ∧
            (flitIs b 4 2 = true → Runs (.changeRefuse d i b bad) s (fun t => t.linkSt d i.val = lsACTIVE ∧ (t.llu d i.val).change = none ∧
              t.rd d (LLU.CHANGE_STATUS.DONE i.val) = 1 ∧ t.rd d (LLU.CHANGE_STATUS.BUSY i.val) = 0 ∧ t.rd d (LLU.CHANGE_STATUS.RESULT i.val) = 2))) ∧
          (l.change = none → ∀ c n, (c, n) ∈ [(Instr.changeAccept d i b bad, 1), (.changeRefuse d i b bad, 2)] → flitIs b 4 n = true →
            Runs c s (fun t => t.linkSt d i.val = lsACTIVE ∧ (t.llu d i.val).change = none ∧ t.out = s.out)))) ∧
      -- The timers, RETRAIN and the change's limit
      (∀ f rest, l.buf = f :: rest →
        (f.sentAt + s.rd d (LLU.LINK_TIMERS.REPLAY_TIMEOUT_NS i.val) < s.now →
          (f.replays < limit → Runs (.replayTimeout d i) s (fun t => one t (LLU.REPLAY_TIMEOUTS.COUNT i.val) ∧ (t.llu d i.val).replayAt = some f.seq)) ∧
          (limit ≤ f.replays → Runs (.replayTimeout d i) s (fun t => retrains t 1))) ∧
        (s.now ≤ f.sentAt + s.rd d (LLU.LINK_TIMERS.REPLAY_TIMEOUT_NS i.val) → Runs (.replayTimeout d i) s same)) ∧
      (l.buf = [] → Runs (.replayTimeout d i) s same) ∧
      (if l.rttAt + 1000000 ≤ s.now then Runs (.linkRttWindow d i) s (fun t => (t.llu d i.val).rttAt = s.now ∧ (t.llu d i.val).rttBest = none ∧
          t.rd d (LLU.REPLAY.LINK_RTT_NS i.val) = (match l.rttBest with | some n => min 65535 n | none => s.rd d (LLU.REPLAY.LINK_RTT_NS i.val)))
        else Runs (.linkRttWindow d i) s same) ∧
      (if l.rxAt + max 200 (s.rd d (LLU.LINK_TIMERS.SILENCE_NS i.val)) ≤ s.now then Runs (.silenceTimeout d i) s (fun t => retrains t 2)
        else Runs (.silenceTimeout d i) s same) ∧
      (∀ rq, s.warden rq → Runs (.retrain rq d i) s (fun t => retrains t 4)) ∧
      (∀ m r at_, l.change = some (m, r, at_) → at_ + 10000 ≤ s.now → Runs (.changeTimeout d i) s (fun t => retrains t 4 ∧
        t.rd d (LLU.CHANGE_STATUS.RESULT i.val) = 3 ∧ t.rd d (LLU.CHANGE_STATUS.BUSY i.val) = 0))) ∧
    (l.change = none → Runs (.changeTimeout d i) s same) ∧
    (st ≠ lsACTIVE →
      (∀ c ∈ [Instr.replayTimeout d i, .linkRttWindow d i, .silenceTimeout d i, .changeTimeout d i], Runs c s same) ∧
      (∀ rq, s.warden rq → Runs (.retrain rq d i) s same) ∧
      (st = lsTRAINING ∨ st = lsCHANGING → Runs (.flitSlot d i) s (fun t => onlyFields [] s t ∧ ∃ sy, t.out = s.out ++ sy ∧
        ∀ x ∈ sy, ∃ n q, x = Output.symbols n q)) ∧
      (st ≠ lsTRAINING → st ≠ lsCHANGING → Runs (.flitSlot d i) s same) ∧
      (st ≠ lsNEGOTIATE → ∀ b bad, ∀ c ∈ [Instr.flitReceived d i b bad, .negotiatePropose d i b bad, .negotiateAgree d i b bad,
        .negotiateRefuse d i b bad, .changeRequest d i b bad, .changeAccept d i b bad, .changeRefuse d i b bad], Runs c s same)) ∧
    -- Commands of a requester
    (∀ rq, s.barUp rq = true → s.privileged rq = false → ∀ (m : Fin 16) (r : Fin 8), ∀ c ∈ [Instr.retrain rq d i, .changeGo rq d i m r, .linkRetire rq d i],
      Runs c s (fun t => t.dies = s.dies ∧
        t.rd .a GLB.PRIV_VIOLATION_COUNT.COUNT = min (s.rd .a GLB.PRIV_VIOLATION_COUNT.COUNT + 1) 0xFFFFFFFF)) ∧
    (∀ rq, s.warden rq →
      (if st ≠ lsRETIRED ∧ s.freeRet.isSome = true then Runs (.linkRetire rq d i) s (fun t => t.linkSt d i.val = lsRETIRED ∧
          (t.llu d i.val).ran = false ∧ t.rd d (LLU.LINK_STATE.LANES_ACTIVE i.val) = 0)
        else Runs (.linkRetire rq d i) s same) ∧
      (∀ (m : Fin 16) (r : Fin 8),
        (s.on d (LLU.CHANGE_STATUS.BUSY i.val) = true → Runs (.changeGo rq d i m r) s (fun t => t.dies = s.dies ∧
          onlyFields [(d, LLU.LINK_CTRL.LANE_MASK_REQ i.val), (d, LLU.LINK_CTRL.RATE_REQ i.val)] s t)) ∧
        (s.on d (LLU.CHANGE_STATUS.BUSY i.val) = false → st = lsACTIVE → s.changeOk d i.val m.val r.val = true →
          Runs (.changeGo rq d i m r) s (fun t =>
            (t.llu d i.val).change = some (m.val, r.val, s.now) ∧ t.rd d (LLU.CHANGE_STATUS.BUSY i.val) = 1 ∧ flit t 4)) ∧
        (s.on d (LLU.CHANGE_STATUS.BUSY i.val) = false → st ≠ lsACTIVE ∨ s.changeOk d i.val m.val r.val = false →
          Runs (.changeGo rq d i m r) s (fun t => t.dies = s.dies ∧
            t.rd d (LLU.CHANGE_STATUS.DONE i.val) = 1 ∧ t.rd d (LLU.CHANGE_STATUS.RESULT i.val) = 2)))) ∧
    -- Training and negotiation
    (∀ c k, (c, k) ∈ [(Instr.lanesTrained d i, lsTRAINING), (.lanesReady d i, lsCHANGING)] →
      if st = k ∧ s.lanesDone d i.val = true then Runs c s (fun t => t.linkSt d i.val = lsNEGOTIATE ∧ flit t 3) else Runs c s same) ∧
    (if st = lsNEGOTIATE ∧ l.sendAt + 100 ≤ s.now then Runs (.negotiateResend d i) s (fun t => (t.llu d i.val).sendAt = s.now ∧ flit t 3)
      else Runs (.negotiateResend d i) s same) ∧
    (st = lsNEGOTIATE → ∀ (b : List Byte) (bad : Bool),
      (s.flitOk d i.val b bad 0xFFFF = true →
        let u := (b.drop 8).take 128
        let reason := (s.showPartner d i.val u).negReason d i.val u
        (flitIs b 3 0 = true → reason = 0 → Runs (.negotiatePropose d i b bad) s (fun t => t.linkSt d i.val = lsNEGOTIATE ∧ flit t 3 ∧
          (t.llu d i.val).agreeing = true ∧ (t.llu d i.val).offer = some u)) ∧
        (flitIs b 3 1 = true → reason = 0 → Runs (.negotiateAgree d i b bad) s (fun t => t.linkSt d i.val = lsACTIVE ∧ (t.llu d i.val).ran = true ∧
          (t.llu d i.val).pinst = ngInst u)) ∧
        (flitIs b 3 2 = true → Runs (.negotiateRefuse d i b bad) s (fun t => t.linkSt d i.val = lsFAILED ∧
          t.rd d (LLU.LINK_STATE.FAIL_REASON i.val) = bitsOf (ngNat u 38 1) 0 4)) ∧
        (∀ c n, (c, n) ∈ [(Instr.negotiatePropose d i b bad, 0), (.negotiateAgree d i b bad, 1)] → flitIs b 3 n = true → reason ≠ 0 →
          Runs c s (fun t => t.linkSt d i.val = lsFAILED ∧ t.rd d (LLU.LINK_STATE.FAIL_REASON i.val) = reason))) ∧
      (∀ u, l.offer = some u → l.agreeing = true → bitsOf (leNat (b.take 8)) 0 4 ≤ 2 → bitOf (leNat (b.take 8)) 33 = false →
        s.flitOk d i.val b bad (if s.resumable d i.val u then l.nextRx else 0) = true → Runs (.flitReceived d i b bad) s (fun t =>
          t.linkSt d i.val = lsACTIVE ∧ (t.llu d i.val).ran = true))) ∧
    (if (st = lsTRAINING ∨ st = lsNEGOTIATE) ∧ l.began + 25000000 ≤ s.now then Runs (.trainingAttemptTimeout d i) s (fun t =>
        t.linkSt d i.val = lsTRAINING ∧ t.rd d (LLU.LINK_STATE.FAIL_REASON i.val) = 6 ∧ (t.llu d i.val).began = s.now ∧
        one t (LLU.RETRAIN_FAILS.COUNT i.val))
      else Runs (.trainingAttemptTimeout d i) s same) ∧
    (if st = lsFAILED ∧ l.negAt + secNs ≤ s.now then Runs (.failedRestartTimer d i) s (fun t => t.linkSt d i.val = lsTRAINING ∧
        (t.llu d i.val).began = s.now)
      else Runs (.failedRestartTimer d i) s same) ∧
    (if l.ran = true ∧ l.gaveUp = false ∧ st ≠ lsACTIVE ∧ st ≠ lsRETIRED ∧ l.downAt + s.holdNs d ≤ s.now then
        Runs (.portHoldLimit d i) s (fun t => (t.llu d i.val).gaveUp = true ∧ (t.llu d i.val).buf = [] ∧ (t.llu d i.val).replayAt = none)
      else Runs (.portHoldLimit d i) s same)

/-! ## Lanes (15_lanes.md) -/

/-- The lanes. A frame whose check fails is ignored; once its step's shortest time is over, a frame that agrees locks the frame, and any is
answered by a frame of the lane's own. A locked PLL lets its lanes begin; a step that takes too long begins again with its reason, and so does
a lane that loses its lock. Each codeword of 2,720 symbols is decoded: a data codeword is counted by what was found in it, an alignment
codeword is not counted, and the last one awaited begins the qualification window, in which a lane passes, is given a longer window, or
starts again. An adaptation draws its steps. LNE_PWR and PRBS_CTRL are allowed or rejected as R492 and R494 state, and a PRBS checker locks and
loses lock. A command that its state or its time does not allow changes nothing. -/
def Obligations.LaneCommands : Prop :=
  ∀ (s : State) (d : Die) (n : Fin 64), s.inv →
    let st := s.laneSt d n.val
    let l := s.lane d n.val
    let port := s.lanePort n.val
    let one := fun (t : State) (c : Fld) => t.rd d c = min (s.rd d c + 1) (2 ^ c.w - 1)
    let same := fun (t : State) => t = s
    let restarted := fun (t : State) (x reason : Nat) => t.laneSt d n.val = x ∧ t.rd d (LNE.LNE_STATE.FAIL_REASON n.val) = reason ∧
      (t.lane d n.val).passed = false ∧ (t.lane d n.val).stepAt = s.now ∧ one t (LNE.TRAIN_FAILS.COUNT n.val)
    let answers := fun (t : State) (phase : Nat) => ∃ f q, t.out = s.out ++ [.frame (d.num * 64 + n.val) (frameBits f) q] ∧ f.phase = phase ∧
      f.laneNum = n.val ∧ f.reach = s.rd d (LNE.LNE_CFG.REACH n.val)
    -- TRAINING_FRAME
    (∀ (c : BitVec 128) (inv : Bool),
      let f := parseFrame c
      (frameOk c = false ∨ st = 0 ∨ st = 1 ∨ st = 11 → Runs (.trainingFrame d n c inv) s same) ∧
      (frameOk c = true → st = 2 →
        (f.reach ≠ s.rd d (LNE.LNE_CFG.REACH n.val) → Runs (.trainingFrame d n c inv) s (fun t => t.laneSt d n.val = 2 ∧
          t.rd d (LNE.LNE_STATE.FAIL_REASON n.val) = 2 ∧ answers t 1)) ∧
        (f.reach = s.rd d (LNE.LNE_CFG.REACH n.val) → f.rate ≠ s.rd d (LNE.LNE_STATE.RATE n.val) → Runs (.trainingFrame d n c inv) s (fun t =>
          t.laneSt d n.val = 2 ∧ t.rd d (LNE.LNE_STATE.FAIL_REASON n.val) = 3 ∧ answers t 1)) ∧
        (f.reach = s.rd d (LNE.LNE_CFG.REACH n.val) → f.rate = s.rd d (LNE.LNE_STATE.RATE n.val) →
          (s.now < l.stepAt + 5000 → Runs (.trainingFrame d n c inv) s (fun t => t.laneSt d n.val = 2 ∧ answers t 1 ∧ onlyFields [] s t)) ∧
          (l.stepAt + 5000 ≤ s.now → Runs (.trainingFrame d n c inv) s (fun t => t.laneSt d n.val = 3 ∧ (t.lane d n.val).stepAt = s.now ∧
            (t.lane d n.val).partner = some f ∧ t.rd d (LNE.LNE_STATE.POLARITY_INV n.val) = b2n inv ∧
            t.rd d (LNE.LNE_STATE.RANK_RX n.val) = f.rank % 2 ^ (LNE.LNE_STATE.RANK_RX n.val).w ∧
            t.rd d (LNE.LNE_STATE.PARTNER_LANE n.val) = f.laneNum % 2 ^ (LNE.LNE_STATE.PARTNER_LANE n.val).w ∧ answers t 2)))) ∧
      (frameOk c = true → st = 4 → l.rxReady = true → f.rxReady = true → s.on d (LNE.PRBS_CTRL.REQ n.val) = false →
        Runs (.trainingFrame d n c inv) s (fun t => t.laneSt d n.val = 5 ∧ (t.lane d n.val).stepAt = s.now ∧ answers t 4)) ∧
      (frameOk c = true → st = 7 → f.phase = 7 → Runs (.trainingFrame d n c inv) s (fun t => (t.laneSt d n.val = 8 ∨ t.laneSt d n.val = 9) ∧
        t.free = s.free + 1)) ∧
      (frameOk c = true → st = 8 ∨ st = 9 →
        (f.phase = 7 → Runs (.trainingFrame d n c inv) s same) ∧
        (f.phase ≠ 7 → s.linkSt d port ≠ lsACTIVE → s.laneUsable d n.val = true → Runs (.trainingFrame d n c inv) s (fun t =>
          t.laneSt d n.val = 5 ∧ (t.lane d n.val).full = false)))) ∧
    -- QUAD_PLL_LOCKED, LANE_STEP_TIMEOUT
    (∀ (q : Fin 16), (∀ t0, tget (s.die d).pllAt q.val = some t0 → tblWf (s.die d).pllAt = true → t0 + 20000 ≤ s.now → Runs (.quadPllLocked d q) s
        (fun t => t.pllOn d q.val = true ∧ tget (t.die d).pllAt q.val = none ∧
          ∀ k : Fin 4, s.laneSt d (4 * q.val + k.val) = 1 → t.laneSt d (4 * q.val + k.val) = 2)) ∧
      (∀ t0, tget (s.die d).pllAt q.val = some t0 → s.now < t0 + 20000 → Runs (.quadPllLocked d q) s same) ∧
      (tget (s.die d).pllAt q.val = none → Runs (.quadPllLocked d q) s same)) ∧
    (if 2 ≤ st ∧ st ≤ 6 ∧ l.stepAt + stepMax st < s.now then Runs (.laneStepTimeout d n) s (fun t =>
        restarted t 2 (stepReason st (s.rd d (LNE.LNE_STATE.FAIL_REASON n.val))))
      else Runs (.laneStepTimeout d n) s same) ∧
    -- QUALIFICATION_WINDOW
    (let due := st = 6 ∧ l.passed = false ∧ l.qualAt + us (max 10 (s.rd d (LNE.QUAL_CFG.WINDOW_US n.val))) * (if l.qualLong then 10 else 1) ≤ s.now
      let cw := s.rd d (LNE.FEC_CODEWORDS.COUNT n.val) - l.qualCw
      let good := 0 < cw ∧ (s.rd d (LNE.FEC_CORRECTED_SYMBOLS.COUNT n.val) - l.qualSym) * 10000 ≤ 544 * cw ∧
        s.rd d (LNE.FEC_UNCORRECTABLE.COUNT n.val) - l.qualUnc = 0
      (¬ due → Runs (.qualificationWindow d n) s same) ∧
      (due → good → Runs (.qualificationWindow d n) s (fun t => (t.lane d n.val).passed = true ∧ (t.lane d n.val).qualFails = 0)) ∧
      (due → ¬ good → l.qualLong = false → Runs (.qualificationWindow d n) s (fun t => (t.lane d n.val).qualLong = true ∧
        (t.lane d n.val).qualAt = s.now ∧ t.laneSt d n.val = 6)) ∧
      (due → ¬ good → l.qualLong = true → Runs (.qualificationWindow d n) s (fun t => restarted t (if l.full then 3 else 2) 7 ∧
        (t.lane d n.val).qualFails = if s.othersPass d n.val then l.qualFails + 1 else 0))) ∧
    -- FEC_CODEWORD
    (∀ message parity, s.laneCodes d n.val = false → Runs (.fecCodeword d n message parity) s same) ∧
    (∀ message parity : List (Fin 4), s.laneCodes d n.val = true →
      let (w, last) := levelSymbols (if s.precodes d n.val then some l.line.last else none) ((message ++ parity).map (·.val))
      let r := rsDecode w
      let msg := symbolsNat ((match r with | some (v, _) => v | none => w).take 514)
      let marker := r.isSome && msg % 2 ^ 64 == 0x5A3C96E10F87C32D && msg / 2 ^ 110 == 0
      let aligns := if l.line.period.isSome then l.line.words == 8192 else marker
      let run := Runs (.fecCodeword d n message parity) s
      (aligns = false →
        (r = none → run (fun t => one t (LNE.FEC_CODEWORDS.COUNT n.val) ∧ one t (LNE.FEC_UNCORRECTABLE.COUNT n.val) ∧
          one t (LNE.SYM_HIST.COUNT n.val 16))) ∧
        (∀ v, r = some (v, 0) → run (fun t => one t (LNE.FEC_CODEWORDS.COUNT n.val) ∧
          t.rd d (LNE.FEC_UNCORRECTABLE.COUNT n.val) = s.rd d (LNE.FEC_UNCORRECTABLE.COUNT n.val))) ∧
        (∀ v e, r = some (v, e) → 1 ≤ e → e ≤ 15 → run (fun t => one t (LNE.FEC_CODEWORDS.COUNT n.val) ∧
          one t (LNE.FEC_CORRECTED_CW.COUNT n.val) ∧ one t (LNE.SYM_HIST.COUNT n.val e) ∧
          t.rd d (LNE.FEC_CORRECTED_SYMBOLS.COUNT n.val) = min (s.rd d (LNE.FEC_CORRECTED_SYMBOLS.COUNT n.val) + e)
            (2 ^ (LNE.FEC_CORRECTED_SYMBOLS.COUNT n.val).w - 1)))) ∧
      (aligns = true →
        let line := if marker then ({ l.line with last := last } : LaneRx).align (s.llu d port).rxOpen msg else { l.line with last := last, words := 0 }
        run (fun t => (t.lane d n.val).line = line ∧ t.rd d (LNE.FEC_CODEWORDS.COUNT n.val) = s.rd d (LNE.FEC_CODEWORDS.COUNT n.val)) ∧
        (st = 5 → s.codeLanes d port = [n.val] → line.period.isSome = true → l.stepAt + 2000 ≤ s.now → run (fun t => t.laneSt d n.val = 6 ∧
          (t.lane d n.val).qualAt = s.now ∧ (t.lane d n.val).qualLong = false)))) ∧
    -- ADAPTATION_UPDATE, LANE_LOCK_LOSS
    (if st = 7 ∧ s.on d (LNE.ADAPT_CFG.CONTINUOUS n.val) = true ∧ l.adaptAt + 65536 * 10 * rateDiv (s.rd d (LNE.LNE_STATE.RATE n.val)) / 2371 ≤ s.now then
        Runs (.adaptationUpdate d n) s (fun t => (t.lane d n.val).adaptAt = s.now ∧ t.laneSt d n.val = 7 ∧ t.free = s.free + 1)
      else Runs (.adaptationUpdate d n) s same) ∧
    (st = 5 ∨ st = 6 → Runs (.laneLockLoss d n) s (fun t => restarted t 2 6)) ∧
    (st = 7 → s.linkSt d port = lsACTIVE → Runs (.laneLockLoss d n) s (fun t => one t (LNE.LOCK_LOSSES.COUNT n.val) ∧ t.linkSt d port = lsTRAINING ∧
      t.rd d (LLU.LAST_RETRAIN.CAUSE port) = 3)) ∧
    (st = 7 → s.linkSt d port ≠ lsACTIVE → Runs (.laneLockLoss d n) s (fun t => one t (LNE.LOCK_LOSSES.COUNT n.val) ∧ restarted t 2 6)) ∧
    (st < 5 ∨ 7 < st → Runs (.laneLockLoss d n) s same) ∧
    -- LNE_PWR_WRITE, PRBS_CTRL_WRITE
    (∀ rq, s.barUp rq = true → s.privileged rq = false → ∀ (v : Fin 4) (x : W64), ∀ c ∈ [Instr.lnePwrWrite rq d n v, .prbsCtrlWrite rq d n x],
      Runs c s (fun t => t.dies = s.dies ∧
        t.rd .a GLB.PRIV_VIOLATION_COUNT.COUNT = min (s.rd .a GLB.PRIV_VIOLATION_COUNT.COUNT + 1) 0xFFFFFFFF)) ∧
    (∀ rq, s.warden rq →
      let allowed := s.linkSt d port = lsDISABLED ∨ s.linkSt d port = lsFAILED ∨ s.on d (HDR.STATUS.ENABLED (lluBase port)) = false
      let rejected := fun (t : State) => t.rd d (LNE.LNE_STATE.PWR_REJECT n.val) = 1 ∧ t.dies = s.dies ∧
        onlyFields [(d, LNE.LNE_STATE.PWR_REJECT n.val)] s t
      (Runs (.lnePwrWrite rq d n 3) s rejected) ∧
      (∀ v : Fin 4, v.val = 1 ∨ v.val = 2 →
        (¬ allowed → Runs (.lnePwrWrite rq d n v) s rejected) ∧
        (allowed → 2 ≤ st → st ≤ 10 → Runs (.lnePwrWrite rq d n v) s (fun t => t.rd d (LNE.LNE_PWR.REQ n.val) = v.val ∧
          t.laneSt d n.val = 7 + v.val ∧ t.out.length = s.out.length + 16)) ∧
        (allowed → st = 0 ∨ st = 1 ∨ st = 11 → Runs (.lnePwrWrite rq d n v) s (fun t => t.rd d (LNE.LNE_PWR.REQ n.val) = v.val ∧
          t.dies = s.dies ∧ onlyFields [(d, LNE.LNE_PWR.REQ n.val)] s t))) ∧
      (st ≠ 8 → st ≠ 9 → Runs (.lnePwrWrite rq d n 0) s (fun t => t.rd d (LNE.LNE_PWR.REQ n.val) = 0 ∧ t.dies = s.dies ∧
        onlyFields [(d, LNE.LNE_PWR.REQ n.val)] s t)) ∧
      (st = 8 ∨ st = 9 → s.linkSt d port ≠ lsACTIVE → s.laneUsable d n.val = true → Runs (.lnePwrWrite rq d n 0) s (fun t =>
        t.rd d (LNE.LNE_PWR.REQ n.val) = 0 ∧ t.laneSt d n.val = 5 ∧ (t.lane d n.val).full = false)) ∧
      (∀ x : W64,
        let was := s.on d (LNE.PRBS_CTRL.REQ n.val)
        let written := fun (t : State) => t.rd d (LNE.PRBS_CTRL.PATTERN n.val) = bitsOf x.toNat 1 3 ∧ t.rd d (LNE.PRBS_CTRL.ALLOW n.val) = bitsOf x.toNat 4 1
        (bitOf x.toNat 0 = was → Runs (.prbsCtrlWrite rq d n x) s (fun t => written t ∧ t.dies = s.dies ∧
          onlyFields [(d, LNE.PRBS_CTRL.PATTERN n.val), (d, LNE.PRBS_CTRL.ALLOW n.val)] s t)) ∧
        (bitOf x.toNat 0 ≠ was → s.prbsAllowed d n.val = false → Runs (.prbsCtrlWrite rq d n x) s (fun t => written t ∧
          t.rd d (LNE.PRBS_STATUS.REJECTED n.val) = 1 ∧ t.on d (LNE.PRBS_CTRL.REQ n.val) = was ∧ t.dies = s.dies)) ∧
        (bitOf x.toNat 0 = true → was = false → s.prbsAllowed d n.val = true → Runs (.prbsCtrlWrite rq d n x) s (fun t => written t ∧
          t.rd d (LNE.PRBS_CTRL.REQ n.val) = 1 ∧ (t.lane d n.val).back = st ∧ t.laneSt d n.val = if s.pllOn d (n.val / 4) then 2 else 1)) ∧
        (bitOf x.toNat 0 = false → was = true → s.prbsAllowed d n.val = true → Runs (.prbsCtrlWrite rq d n x) s (fun t => written t ∧
          t.rd d (LNE.PRBS_CTRL.REQ n.val) = 0 ∧ t.rd d (LNE.PRBS_STATUS.LOCKED n.val) = 0 ∧
          t.laneSt d n.val = if s.retired 1 d (d.num * 64 + n.val) then 11 else 0)))) ∧
    -- PRBS
    (if st = 10 ∧ s.prbsAcked d n.val = false ∧ l.stepAt + 1000000 ≤ s.now then l.back < 16 → Runs (.prbsNoPartner d n) s (fun t =>
        t.rd d (LNE.PRBS_STATUS.NO_PARTNER n.val) = 1 ∧ t.rd d (LNE.PRBS_CTRL.REQ n.val) = 0 ∧ t.laneSt d n.val = l.back)
      else Runs (.prbsNoPartner d n) s same) ∧
    (if st = 10 ∧ s.prbsAcked d n.val = true ∧ s.on d (LNE.PRBS_STATUS.LOCKED n.val) = false then Runs (.prbsCheckerLock d n) s (fun t =>
        t.rd d (LNE.PRBS_STATUS.LOCKED n.val) = 1 ∧ (t.lane d n.val).prbsAt = s.now)
      else Runs (.prbsCheckerLock d n) s same) ∧
    (if s.on d (LNE.PRBS_STATUS.LOCKED n.val) = true then Runs (.prbsLossOfLock d n) s (fun t => t.rd d (LNE.PRBS_STATUS.LOCKED n.val) = 0 ∧
        one t (LNE.PRBS_STATUS.RELOCKS n.val) ∧ (t.lane d n.val).prbsAt = s.now)
      else Runs (.prbsLossOfLock d n) s same)

/-! ## Faults (16_faults.md) -/

/-- The fault manager. A heartbeat that comes clears the count of missed ones, and the tenth missed in a row loses the die. An
evaluation that reaches its threshold retires the row or the engine with a record, an uncorrectable HBM3E row is retired and its sectors
poisoned, a payload unit found uncorrectable is marked, and a wedged die, a lost host port, a lost context and a lost receive take their
actions. The count of records left out becomes
a record. A watchdog that fires adds to the hour's three. The FM_CMD commands end with their codes, and DOMAIN_CYCLE fences the
domain, or takes the supply of a fenced one at once. -/
def Obligations.FaultManager : Prop :=
  ∀ (s : State), s.inv →
    let record := fun (t : State) (cls : Nat) (d : Die) (idx cause : Nat) =>
      ∃ p ∈ t.fm.table, p.2.cls = cls ∧ p.2.die = d.num ∧ p.2.index = idx ∧ p.2.cause = cause ∧ p.2.cleared = false
    (∀ d, s.rd .a FM.FM_STATE.RUNNING = 1 → s.dieLost d = false → s.fm.beatAt.get d ≤ s.now →
      Runs (.heartbeatTimer d true) s (fun t => t.fm.missed.get d = 0 ∧ t.fm.beatAt.get d = s.now + 100000 ∧ onlyFields [] s t) ∧
      (s.fm.missed.get d < 9 → Runs (.heartbeatTimer d false) s (fun t =>
        t.fm.missed.get d = s.fm.missed.get d + 1 ∧ t.fm.beatAt.get d = s.now + 100000)) ∧
      (s.fm.missed.get d = 9 → Runs (.heartbeatTimer d false) s (fun t =>
        ∃ u : State, t = u.loseDie d ∧ u.dieLost d = false ∧ u.fm.missed.get d = 10))) ∧
    (∀ d, s.rd .a FM.FM_STATE.RUNNING ≠ 1 ∨ s.dieLost d = true ∨ s.now < s.fm.beatAt.get d →
      ∀ answered, Runs (.heartbeatTimer d answered) s (fun t => t = s)) ∧
    (∀ (d : Die) (array : BitVec 8) (row : BitVec 24) (bad : Bool) (bank : RowBank),
      let idx := array.toNat * 2 ^ 24 + row.toNat
      let seen := (s.observe (if bad then faultKey 7 d.num idx else faultKey 6 d.num idx) 1 (if bad then 24 * hourNs else hourNs)
        (if bad then 2 else 4)).2
      (seen < (if bad then 2 else 4) → Runs (.faultEvaluation (.row d array row bad bank)) s (fun t => t.fm.table = s.fm.table)) ∧
      (seen = (if bad then 2 else 4) → s.retired 8 d idx = false → s.rowsOut d array.toNat < spareRows bank → s.freeRet.isSome = true →
        Runs (.faultEvaluation (.row d array row bad bank)) s (fun t => record t 8 d idx (if bad then 2 else 1)))) ∧
    (∀ (n : Fin 128) (m : Nat),
      let d := if n.val < 64 then Die.a else Die.b
      3 ≤ (s.observe (faultKey 8 0 n.val) 0 hourNs 3).2 → bitOf s.unitEnabled (n.val / 8) = true → s.dieLost d = false →
      s.retired 5 d n.val = false → s.freeRet.isSome = true → m ∈ s.enginesLeft d → m ≠ n.val →
        Runs (.faultEvaluation (.engine n)) s (fun t => record t 5 d n.val 1)) ∧
    (∀ (d : Die) (idx : BitVec 32) (symbols : Nat) (lost : List (BitVec 40)), lost ≠ [] → s.stackPresent d (hbmStack idx.toNat) = true →
      s.retired 9 d idx.toNat = false → (s.retiredOf 9 d).length < 4096 → s.freeRet.isSome = true →
        Runs (.faultEvaluation (.hbmRow d idx symbols lost)) s (fun t => record t 9 d idx.toNat 2 ∧ ∀ a ∈ lost, a.toNat ∈ t.poison)) ∧
    (∀ (d : Die) (n : Fin 64), 3 ≤ (s.lane d n.val).qualFails → Runs (.faultEvaluation (.lane d n)) s (fun t =>
      ∃ (u : State) (cause : Nat), t = u.retireLane d n.val cause ∧ u.fm.table = s.fm.table)) ∧
    (∀ (d : Die) (i : Fin 64), (s.llu d i.val).ran = true → s.linkSt d i.val = lsTRAINING → (s.llu d i.val).downAt + 500000000 ≤ s.now →
      Runs (.faultEvaluation (.port d i)) s (fun t => ∃ u : State, t = u.retirePort d i.val 1 ∧ u.fm.table = s.fm.table)) ∧
    (∀ m : Fin 16, (s.bmod .a m.val).training = true → (s.bmod .a m.val).trainAt + 1000000 ≤ s.now →
      Runs (.faultEvaluation (.module m)) s (fun t => t = s.retireMod m.val 2)) ∧
    (∀ (d : Die) (stop : Fin 64) (dir : Fin 4),
      let link := stop.val + 64 * dir.val
      ((s.nocLink d link).fails < 9 → Runs (.faultEvaluation (.nocLink d stop dir)) s (fun t => t = s)) ∧
      (9 ≤ (s.nocLink d link).fails → ((s.retiredOf 4 d).filter (fun i => i % 256 == link)).length < 4 → s.freeRet.isSome = true →
        Runs (.faultEvaluation (.nocLink d stop dir)) s (fun t => (∃ wire, wire < 544 ∧ record t 4 d (link + wire * 256) 1) ∧
          (t.nocLink d link).fails = 0))) ∧
    (∀ d : Die, s.qduPresent d = true → 2 ≤ (s.observe (faultKey 10 d.num 0) 1 (24 * hourNs) 2).2 →
      Runs (.faultEvaluation (.qdu d true)) s (fun t => ∃ (u : State) (cause : Nat), t = u.retireQdu d cause ∧ u.fm.table = s.fm.table)) ∧
    (∀ (d : Die) (k : Fin 2560) q l, (s.swc d).inList k.val = q :: l → Runs (.faultEvaluation (.payload d (.basin k))) s (fun t =>
      (t.swc d).inList k.val = { q with marks := q.marks.set q.sent true } :: l ∧ onlyFields [] s t)) ∧
    (∀ (d : Die) (k : Fin 80) u l, (s.swc d).staged k.val = u :: l → Runs (.faultEvaluation (.payload d (.staging k))) s (fun t =>
      (t.swc d).staged k.val = { u with poison := true } :: l ∧ onlyFields [] s t)) ∧
    (∀ (d : Die) k, Runs (.faultEvaluation (.polderCopy d k)) s (fun t => tget (t.die d).staleChecks k.val = some (s.now + 2000) ∧ onlyFields [] s t)) ∧
    (∀ d : Die, s.qduPresent d = false → ∀ m seg, Runs (.faultEvaluation (.slotSet d m seg)) s (fun t => t = s)) ∧
    (∀ d : Die, s.qduPresent d = true → ∀ m seg, Runs (.faultEvaluation (.slotSet d m seg)) s (fun t =>
      t.rd d QDU.SLOT_ERRORS.COUNT = min (s.rd d QDU.SLOT_ERRORS.COUNT + 1) (2 ^ QDU.SLOT_ERRORS.COUNT.w - 1))) ∧
    (∀ d, Runs (.faultEvaluation (.die d)) s (fun t => t = s.loseDie d)) ∧
    (∀ h, s.hpPresent h.val = true → (s.hp h).lost = false → Runs (.faultEvaluation (.hostPort h)) s (fun t => t = s.loseHostPort h)) ∧
    (∀ d i, Runs (.faultEvaluation (.context d i)) s (fun t => t = s.loseContext d i.toNat)) ∧
    (∀ f q k, Runs (.faultEvaluation (.matchState f q k)) s (fun t => t = s.loseMatch (qKey (setKey f q.val) k.val))) ∧
    (∀ d, Runs (.faultEvaluation (.matchEntry d)) s (fun t =>
      t.rd d TMU.ECC_RELOADS.COUNT = min (s.rd d TMU.ECC_RELOADS.COUNT + 1) (2 ^ TMU.ECC_RELOADS.COUNT.w - 1) ∧
      onlyFields [(d, TMU.ECC_RELOADS.COUNT)] s t)) ∧
    (s.fm.suppressed ≠ 0 → s.fm.secAt + 1000000000 ≤ s.now → Runs .suppressedRecordsTick s (fun t => t.fm.suppressed = 0 ∧
      ∃ e, tget t.fm.ring (t.rd .a FM.LOG_HEAD.INDEX) = some e ∧ e.type = 9 ∧ e.count = s.fm.suppressed)) ∧
    (s.fm.suppressed = 0 ∨ s.now < s.fm.secAt + 1000000000 → Runs .suppressedRecordsTick s (fun t => t = s)) ∧
    (∀ n : Fin 128,
      let d := if n.val < 64 then Die.a else Die.b
      let seen := fun (s : State) => (s.observe (faultKey 8 0 n.val) 0 hourNs 3).2
      bitOf s.unitEnabled (n.val / 8) = true → s.retired 5 d n.val = false → s.dieLost d = false →
        Runs (.engineWatchdog n) s (fun t => seen t = min 3 (seen s + 1) ∧ t.fm.table = s.fm.table)) ∧
    (∀ (rq : Requester) (avs : Bool), s.barUp rq = true →
      ∀ c ∈ [Instr.retire rq, .unretire rq, .readRecord rq, .laneShutdown rq, .domainCycle rq, .deviceReset rq avs],
        (s.privileged rq = true → s.rd .a FM.FM_STATUS.BUSY = 1 → Runs c s (fun t =>
          t.rd .a FM.FM_STATUS.GO_REJECT = 1 ∧ t.fm = s.fm ∧ onlyFields [(.a, FM.FM_CMD.OP), (.a, FM.FM_STATUS.GO_REJECT)] s t)) ∧
        (s.privileged rq = false → Runs c s (fun t => t.fm = s.fm ∧
          t.rd .a GLB.PRIV_VIOLATION_COUNT.COUNT = min (s.rd .a GLB.PRIV_VIOLATION_COUNT.COUNT + 1) 0xFFFFFFFF))) ∧
    (∀ rq : Requester, s.warden rq → s.rd .a FM.FM_STATUS.BUSY = 0 →
      let cls := s.rd .a FM.FM_ARG.CLASS
      let d := s.fmDie
      let idx := s.rd .a FM.FM_ARG.INDEX
      let ended := fun (t : State) (detail : Nat) => t.rd .a FM.FM_STATUS.BUSY = 0 ∧ t.rd .a FM.FM_STATUS.DONE = 1 ∧
        t.rd .a FM.FM_STATUS.CODE = (if detail = 0 then 0 else 0x22) ∧ t.rd .a FM.FM_STATUS.DETAIL = detail
      (cls = 4 ∧ ((s.retiredOf 4 d).filter (fun i => i % 256 == idx % 256)).length < 4 ∨ cls = 7 → s.fmResource cls d idx = true →
        s.retired cls d idx = false → s.freeRet.isSome = true →
        Runs (.retire rq) s (fun t => ended t 0 ∧ record t cls d idx 1)) ∧
      (s.fmResource cls d idx = false → Runs (.retire rq) s (fun t => ended t 1 ∧ t.fm = s.fm)) ∧
      (s.fmResource cls d idx = true → s.retired cls (recDie cls d) idx = true → Runs (.retire rq) s (fun t => ended t 2 ∧ t.fm = s.fm)) ∧
      (∀ k r, s.fmResource cls d idx = true → s.retiredRec cls (recDie cls d) idx = some (k, r) →
        Runs (.unretire rq) s (fun t => ended t 0 ∧ t.fm.table = tmod s.fm.table k (fun r => { r with cleared := true }))) ∧
      (s.fmResource cls d idx = true → s.retiredRec cls (recDie cls d) idx = none → Runs (.unretire rq) s (fun t =>
        ended t 3 ∧ t.fm = s.fm)) ∧
      (∀ e, cls = 0 → idx < 211968 → tget s.fm.ring idx = some e → Runs (.readRecord rq) s (fun t => ended t 0 ∧
        ∀ k, k < 8 → t.rd .a (FM.FM_DATA.DATA k) = leNat (((evBytes e).drop (8 * k)).take 8))) ∧
      (∀ r, cls = 1 → idx < 16384 → tget s.fm.table idx = some r → Runs (.readRecord rq) s (fun t => ended t 0 ∧
        ∀ k, k < 8 → t.rd .a (FM.FM_DATA.DATA k) = leNat (((retBytes r).drop (8 * k)).take 8))) ∧
      (cls = 0 → idx < 211968 → tget s.fm.ring idx = none → Runs (.readRecord rq) s (fun t => ended t 6)) ∧
      (idx < 128 → Runs (.laneShutdown rq) s (fun t =>
        let e := if idx < 64 then Die.a else Die.b
        ended t 0 ∧ t.rd e (LNE.LNE_STATE.STATE (idx % 64)) = if s.retired 1 e (e.num * 64 + idx % 64) then 11 else 0)) ∧
      (128 ≤ idx → Runs (.laneShutdown rq) s (fun t => ended t 1 ∧ t.dies = s.dies)) ∧
      (let e := if idx < 32 then Die.a else Die.b
       let i := idx % 32
       (64 ≤ idx ∨ s.rd e (PWC.DOM_STATE.LOCK_REASON i) = 3 → Runs (.domainCycle rq) s (fun t => ended t 1 ∧ t.dies = s.dies)) ∧
       (idx < 64 → s.rd e (PWC.DOM_STATE.LOCK_REASON i) ≠ 3 → s.lockedOff e i = true → Runs (.domainCycle rq) s (fun t => ended t 0 ∧
         t.dies = s.dies)) ∧
       (idx < 64 → s.rd e (PWC.DOM_STATE.LOCK_REASON i) ≠ 3 → s.lockedOff e i = false → Runs (.domainCycle rq) s (fun t =>
         t.rd .a FM.FM_STATUS.BUSY = 1 ∧ t.fm.cycling = some idx ∧
         (if 3 ≤ s.domSt e i ∨ (s.dom e i).acked = true then t.rd e (PWC.DOM_STATE.STATE i) = 5 ∧ (t.dom e i).wakeAt = some (s.now + 100000)
          else t.rd e (PWC.DOM_STATE.FENCING i) = 1 ∧ (t.dom e i).fenceAt = s.now ∧ t.domSt e i = s.domSt e i)))))

/-! ## Power (17_power.md; 20_package.md R596, R602, R603) -/

/-- Power domains, islands, the core voltage and the sensors. A domain goes down one state at a time, the deeper ones through a fence. A fence
whose drain takes longer than FENCE_TIMEOUT_US is abandoned as one that a wake meets before FENCE_ACK is: the domain is in Galop, its clamps
open, what its stops held released, its idle count begun anew, and the event counted in FENCE_TIMEOUTS; and no state in which the count
still stands lets it descend before the full time of R528. A fence that DOMAIN_CYCLE raised ends, acknowledged or late, in Sarabande for
100 µs. A wake takes the state's exit latency and ends in Galop; a transaction that wakes a fenced domain is held, and one for a domain that is
locked off is answered with POISON set and counted. A MAX_STATE beyond the domain's limit is the limit, and PIN_GALOP wakes; an idle island
gates its clock; the voltage stays within its limits; the hottest sensors show, a hot stack is refreshed twice as often, and a sensor at
115 °C twice running trips. -/
def Obligations.PowerDomains : Prop :=
  ∀ (s : State) (d : Die) (i : Fin 32), s.inv →
    let st := s.domSt d i.val
    let m := s.dom d i.val
    let state := (d, PWC.DOM_STATE.STATE i.val)
    let fencing := (d, PWC.DOM_STATE.FENCING i.val)
    let up := fun (t : State) (f : Fld) => t.rd d f = min (s.rd d f + 1) 0xFFFFFFFF
    let same := fun (t : State) => t = s
    let cycles := fun (t : State) => t.domSt d i.val = 5 ∧ t.rd d (PWC.DOM_STATE.FENCING i.val) = 0 ∧ (t.dom d i.val).wakeAt = some (s.now + 100000)
    let abandons := fun (t : State) (count : Fld) => t.domSt d i.val = 0 ∧ t.rd d (PWC.DOM_STATE.FENCING i.val) = 0 ∧
      t.rd d (PWC.DOM_STATE.HELD i.val) = 0 ∧ (t.dom d i.val).acked = false ∧ (∀ p ∈ (t.noc d).hold, stopDomain p.1 ≠ some i.val) ∧
      (t.dom d i.val).idleAt = (if s.domBusy d i.val then none else some s.now) ∧ up t count
    -- Descent
    (s.descentDue d i.val = true → st < 2 → Runs (.descentTimer d i) s (fun t =>
      t.domSt d i.val = st + 1 ∧ (t.dom d i.val).stateAt = s.now ∧ onlyFields [state, fencing] s t)) ∧
    (s.descentDue d i.val = true → 2 ≤ st → Runs (.descentTimer d i) s (fun t =>
      t.rd d (PWC.DOM_STATE.FENCING i.val) = 1 ∧ (t.dom d i.val).fenceAt = s.now ∧ onlyFields [fencing] s t)) ∧
    (s.descentDue d i.val = false → Runs (.descentTimer d i) s same) ∧
    -- FENCE_ACK
    (let drained := s.draining d i.val = true ∧ s.domDrained d i.val = true ∧ m.fenceAt + 10 ≤ s.now ∧ s.now ≤ m.fenceAt + s.fenceTimeout d;
      (drained → s.cycled d i.val = false → Runs (.fenceAck d i) s (fun t =>
        (t.dom d i.val).acked = true ∧ up t PWC.FENCES.COUNT ∧ onlyFields [(d, PWC.FENCES.COUNT)] s t)) ∧
      (drained → s.cycled d i.val = true → Runs (.fenceAck d i) s (fun t => up t PWC.FENCES.COUNT ∧ cycles t)) ∧
      (¬ drained → Runs (.fenceAck d i) s same)) ∧
    -- DOMAIN_STATE_SAVED
    (let fenced := s.rd d (PWC.DOM_STATE.FENCING i.val) = 1 ∧ m.acked = true;
      (fenced → m.wakeAt = none → st < 5 →
        Runs (.domainStateSaved d i) s (fun t => t.domSt d i.val = max 3 (st + 1) ∧ t.rd d (PWC.DOM_STATE.FENCING i.val) = 0 ∧
          (if st < 3 then up t (PWC.DOM_ENTRIES.COUNT i.val) else t.rd d (PWC.DOM_ENTRIES.COUNT i.val) = s.rd d (PWC.DOM_ENTRIES.COUNT i.val)) ∧
          onlyFields [state, fencing, (d, PWC.DOM_ENTRIES.COUNT i.val)] s t)) ∧
      (fenced → m.wakeAt.isSome = true → st < 5 → s.lockedOff d i.val = false → Runs (.domainStateSaved d i) s (fun t =>
        t.domSt d i.val = max 3 (st + 1) ∧ (t.dom d i.val).wakeAt = some (s.now + exitNs (max 3 (st + 1))))) ∧
      (¬ fenced → Runs (.domainStateSaved d i) s same)) ∧
    -- FENCE_TIMEOUT
    (let late := s.draining d i.val = true ∧ m.fenceAt + s.fenceTimeout d < s.now;
      (late → s.cycled d i.val = false → Runs (.fenceTimeout d i) s (fun t => abandons t PWC.FENCE_TIMEOUTS.COUNT ∧
        (∀ u : State, u.dom d i.val = t.dom d i.val → u.domSt d i.val = 0 → u.idleMult d = s.idleMult d →
          u.now < s.now + s.idleMult d * exitNs 1 → u.descentDue d i.val = false) ∧
        onlyFields [state, fencing, (d, PWC.DOM_STATE.HELD i.val), (d, PWC.FENCE_TIMEOUTS.COUNT)] s t)) ∧
      (late → s.cycled d i.val = true → Runs (.fenceTimeout d i) s cycles) ∧
      (¬ late → Runs (.fenceTimeout d i) s same)) ∧
    -- DOMAIN_WAKE: by wire, or with a transaction of so many units that reaches the domain's stop through an empty mesh
    (s.lockedOff d i.val = true → (Runs (.domainWake d i 0) s same) ∧
      ∀ (n : Fin 17) stop, n.val ≠ 0 → domStop i.val = some stop → (s.noc d).links = [] → Runs (.domainWake d i n) s (fun t =>
        up t PWC.LOCKED_OFF_DROPS.COUNT ∧ (t.nocLink d (stop + 256)).bufs.map (fun u => (u.head, u.tail, u.cls, u.poison)) = [(true, true, 3, true)])) ∧
    (s.lockedOff d i.val = false → s.svc.tripped = false →
      (s.rd d (PWC.DOM_STATE.FENCING i.val) = 0 → st ≠ 0 → m.wakeAt = none →
        Runs (.domainWake d i 0) s (fun t => (t.dom d i.val).wakeAt = some (s.now + exitNs st) ∧ onlyFields [] s t)) ∧
      (∀ (n : Fin 17) stop, n.val ≠ 0 → domStop i.val = some stop → (s.noc d).links = [] → s.rd d (PWC.DOM_STATE.FENCING i.val) = 0 →
        m.wakeAt = none →
        (st = 1 ∨ st = 2 → Runs (.domainWake d i n) s (fun t => (t.dom d i.val).wakeAt = some (s.now + exitNs st) ∧
          (t.nocLink d (stop + 256)).bufs.length = n.val ∧ onlyFields [] s t)) ∧
        (3 ≤ st → ((s.held d stop).filter (fun u => u.cls == 1)).length + n.val ≤ 16 → (∀ e ∈ (s.die d).evs, e.1 < 16) →
          Runs (.domainWake d i n) s (fun t => (t.dom d i.val).wakeAt = some (s.now + exitNs st) ∧
            (t.held d stop).length = (s.held d stop).length + n.val ∧ up t PWC.HELD_TRANSACTIONS.COUNT))) ∧
      (s.draining d i.val = true → s.cycled d i.val = false → Runs (.domainWake d i 0) s (fun t => abandons t PWC.FENCE_ABANDONED.COUNT)) ∧
      (s.rd d (PWC.DOM_STATE.FENCING i.val) = 1 → m.acked = true → Runs (.domainWake d i 0) s (fun t => (t.dom d i.val).wakeAt = some s.now ∧
        onlyFields [] s t))) ∧
    -- DOMAIN_GALOP_REACHED
    (∀ at_, m.wakeAt = some at_ → at_ ≤ s.now → s.rd d (PWC.DOM_STATE.FENCING i.val) = 0 → m.held = [] → (s.noc d).links = [] →
      s.fm.cycling ≠ some (32 * d.num + i.val) → Runs (.domainGalopReached d i) s (fun t => t.domSt d i.val = 0 ∧
        (t.dom d i.val).wakeAt = none ∧ (∀ p ∈ (t.noc d).hold, stopDomain p.1 ≠ some i.val) ∧ t.rd d (PWC.DOM_STATE.HELD i.val) = 0 ∧
        (if 3 ≤ st then up t PWC.WAKES.COUNT ∧ up t (PWC.DOM_WAKES.COUNT i.val)
         else t.rd d PWC.WAKES.COUNT = s.rd d PWC.WAKES.COUNT ∧ t.rd d (PWC.DOM_WAKES.COUNT i.val) = s.rd d (PWC.DOM_WAKES.COUNT i.val)))) ∧
    -- DOM_CFG_WRITE
    (∀ (rq : Requester) (mx : Fin 8) (pin : Bool),
      (s.warden rq → Runs (.domCfgWrite rq d i mx pin) s (fun t =>
        t.rd d (PWC.DOM_CFG.MAX_STATE i.val) = min (domLimit i.val) mx.val ∧ t.rd d (PWC.DOM_CFG.PIN_GALOP i.val) = pin.toNat ∧
        (pin = true → s.lockedOff d i.val = false → s.svc.tripped = false → s.rd d (PWC.DOM_STATE.FENCING i.val) = 0 → st ≠ 0 → m.wakeAt = none →
          (t.dom d i.val).wakeAt = some (s.now + exitNs st)))) ∧
      (s.barUp rq = true → s.privileged rq = false → Runs (.domCfgWrite rq d i mx pin) s (fun t => t.dies = s.dies ∧
        t.rd .a GLB.PRIV_VIOLATION_COUNT.COUNT = min (s.rd .a GLB.PRIV_VIOLATION_COUNT.COUNT + 1) 0xFFFFFFFF))) ∧
    -- Islands, voltage, temperature
    (∀ (j : Fin 106),
      let due := ∃ at_, tget (s.die d).idleIsl j.val = some at_ ∧ j.val ∈ spineIslands ∧ s.islandBusy d j.val = false ∧ at_ + 1000 ≤ s.now;
      (due → Runs (.islandClockGate d j) s (fun t => t.rd d (PWC.ISLAND.GATED j.val) = 1 ∧ onlyFields [(d, PWC.ISLAND.GATED j.val)] s t)) ∧
      (¬ due → Runs (.islandClockGate d j) s same)) ∧
    (∀ mv : BitVec 10,
      let v := min 780 (max 620 mv.toNat)
      Runs (.coreVoltageAdjust d mv true) s (fun t => t.out = s.out ++ [.avs d v] ∧ t.rd d PWC.CORE_VOLTAGE.TARGET_MV = v ∧
        t.rd d PWC.CORE_VOLTAGE.MV = v ∧ onlyFields [(d, PWC.CORE_VOLTAGE.TARGET_MV), (d, PWC.CORE_VOLTAGE.MV)] s t) ∧
      Runs (.coreVoltageAdjust d mv false) s (fun t => t.out = s.out ++ [.avs d v] ∧ onlyFields [] s t)) ∧
    (∀ (a b : DieTemps) (v : List (BitVec 8)),
      let hot := hotMask (a.sensors ++ b.sensors ++ v)
      let twice := Nat.land hot s.svc.hot ≠ 0 ∧ s.svc.tripped = false;
      (s.svc.pwrgood = true → s.svc.sampleAt ≤ s.now → ¬ twice → Runs (.tempSample a b v) s (fun t =>
        t.rd .a SVC.TEMP.DIE_A = hottest a.sensors ∧ t.rd .a SVC.TEMP.DIE_B = hottest b.sensors ∧ t.rd .a SVC.TEMP.SERVICE = hottest v ∧
        t.svc.sampleAt = s.now + 10000 ∧ t.svc.hot = hot ∧ t.svc.tripped = s.svc.tripped ∧
        (∀ (e : Die) (k : Fin 2), t.refreshRate e k.val =
          if s.stackPresent e k.val = true ∧ 85 < ((if e = .a then a else b).hbm.getD k.val 0).toNat then 2 else 1) ∧
        (s.rd .a SVC.TEMP.TEMP_WARN < max (hottest a.sensors) (max (hottest b.sensors) (hottest v)) → t.rd .a SVC.ALERT_STATUS.TEMP = 1))) ∧
      (s.svc.pwrgood = true → s.svc.sampleAt ≤ s.now → twice → Runs (.tempSample a b v) s (fun t =>
        t.svc.tripped = true ∧ .thermTrip ∈ t.out ∧ t.domSt d i.val = 5)) ∧
      (s.svc.pwrgood = false ∨ s.now < s.svc.sampleAt → Runs (.tempSample a b v) s same))

/-! ## Fabric time and windows (18_counters.md) -/

/-- WINDOW_END, the sync exchange and FT_SET. With PCU's CTRL.ENABLE set, a window ends at its boundary, latched under the next number with
its start and its length, and the next one begins there without a flag; where dump records are on but the
ring has no room or the target cannot be written, the record is counted in DUMP_STATUS.LOST; before the boundary, and while disabled, nothing happens.
A FOLLOWER whose sync interval has come asks over its upstream port, and the exchange awaits its answer; without a live port on either die
both dies are in HOLDOVER. A SYNC_REQ is taken, and answered with its number, its time and its arrival out of the live port toward its
router. A SYNC_RSP is taken; the one whose number a FOLLOWER awaits ends the exchange, and below 15 steps it disciplines the time of both
dies, with the offset and the delay that the four times give; any other changes nothing. Answers 100 µs late are counted and awaited no
more. FT_SET steps a MASTER's time on both dies and counts it, does nothing on another, and nothing but count the violation when the
requester is not privileged. -/
def Obligations.FabricTimeAndWindows : Prop :=
  ∀ (s : State) (d : Die), s.inv →
    let t0 := (s.die d).ft
    let w := s.win d
    let role := s.rd d PCU.FT_CFG.ROLE
    let same := fun (t : State) => t = s
    -- WINDOW_END
    (s.pcuOn d = false ∨ s.ftNow d < s.winBoundary d → Runs (.windowEnd d) s same) ∧
    (s.pcuOn d = true → s.winBoundary d ≤ s.ftNow d →
      let seq := (w.seq + 1) % 2 ^ 32
      Runs (.windowEnd d) s (fun t =>
        (t.win d).seq = seq ∧ t.rd d PCU.DUMP_STATUS.SEQ = seq ∧ (t.win d).vSeq = seq ∧ (t.win d).vStart = w.startFt ∧
        (t.win d).vDur = s.now - w.startAt ∧ (t.win d).startFt = s.winBoundary d ∧ (t.win d).startAt = s.now ∧
        (t.win d).step = false ∧ (t.win d).cleared = false ∧ (t.win d).config = false ∧ (t.win d).evNext = [] ∧
        (∀ c ∈ w.evNext, t.rd d (PCU.EV_COUNT.COUNT c) = 0) ∧ t.win d.other = s.win d.other ∧
        (s.rd d PCU.DUMP_SIZE.KIB = 0 → (t.win d).lostSince = w.lostSince ∧ t.mem = s.mem ∧ t.out = s.out ∧
          onlyFields ((d, PCU.DUMP_STATUS.SEQ) :: w.evNext.map (fun c => (d, PCU.EV_COUNT.COUNT c))) s t) ∧
        (s.rd d PCU.DUMP_SIZE.KIB ≠ 0 → s.dumpOk d (s.rd d PCU.DUMP_SIZE.KIB * 1024) = false →
          (t.win d).lostSince = w.lostSince + 1 ∧ t.mem = s.mem ∧ t.out = s.out ∧ counted d PCU.DUMP_STATUS.LOST s t) ∧
        (s.rd d PCU.DUMP_SIZE.KIB * 1024 < (s.rd d PCU.DUMP_PROD.OFFSET + 2 ^ 64 - s.rd d PCU.DUMP_CONS.OFFSET) % 2 ^ 64 →
          s.rd d PCU.DUMP_SIZE.KIB ≠ 0 →
          (t.win d).lostSince = w.lostSince + 1 ∧ t.mem = s.mem ∧ t.out = s.out ∧ counted d PCU.DUMP_STATUS.LOST s t))) ∧
    -- SYNC_INTERVAL
    (role ≠ 2 ∨ s.now < t0.nextAt → Runs (.syncInterval d) s same) ∧
    (role = 2 → t0.nextAt ≤ s.now →
      (s.syncPort d = none → Runs (.syncInterval d) s (fun t =>
        (t.die d).ft = { t0 with nextAt := s.now + s.syncNs d } ∧ (t.die d.other).ft = (s.die d.other).ft ∧
        if s.syncPort d.other = none then (∀ e, t.rd e PCU.FT_STATUS.HOLDOVER = 1) ∧
            onlyFields [(.a, PCU.FT_STATUS.HOLDOVER), (.b, PCU.FT_STATUS.HOLDOVER)] s t
          else onlyFields [] s t)) ∧
      (∀ np, s.syncPort d = some np → (s.portOf np).1 ≠ d → Runs (.syncInterval d) s same) ∧
      (∀ np, s.syncPort d = some np → (s.portOf np).1 = d →
        let n := (t0.exch + 1) % 2 ^ 32
        Runs (.syncInterval d) s (fun t =>
          (t.die d).ft = { t0 with exch := n, waiting := t0.waiting ++ [(n, s.now)], nextAt := s.now + s.syncNs d } ∧ onlyFields [] s t ∧
          ∃ q, (t.sluice d).ctl = (s.sluice d).ctl ++ [q] ∧ q.data = padUnits (syncUnit 1 0 0 n 0 0) ∧
            q.outXp = xpOf (s.portKey (s.portOf np).2 0)))) ∧
    -- SYNC_REQ
    (s.syncMsg d 1 = none → Runs (.syncReq d) s same) ∧
    (∀ p t2, s.syncMsg d 1 = some (p, t2) →
      (s.portToward d p.src = none → Runs (.syncReq d) s (fun t =>
        t = s.modDie d (fun x => { x with syncIn := x.syncIn.erase (p, t2) }))) ∧
      (∀ e i, s.portToward d p.src = some (e, i) → Runs (.syncReq d) s (fun t =>
        let steps := if role = 1 then 0 else if s.rd d PCU.FT_STATUS.UNSYNCED = 1 then 15 else s.rd d PCU.FT_STATUS.STEPS_REMOVED
        let st := s.rd d PCU.FT_STATUS.LOCKED + 2 * s.rd d PCU.FT_STATUS.HOLDOVER
        (t.die d).syncIn = (s.die d).syncIn.erase (p, t2) ∧ onlyFields [] s t ∧
        ∃ q, (t.sluice e).ctl = (s.sluice e).ctl ++ [q] ∧ q.data = padUnits (syncUnit 2 steps st (unitNat p 4 4) (unitNat p 8 8) t2) ∧
          q.outXp = xpOf (s.portKey i 0)))) ∧
    -- SYNC_RSP
    (s.syncMsg d 2 = none → Runs (.syncRsp d) s same) ∧
    (∀ p t4, s.syncMsg d 2 = some (p, t4) →
      let took := s.modDie d (fun x => { x with syncIn := x.syncIn.erase (p, t4) })
      let matching := t0.waiting.find? (fun x => x.1 == unitNat p 4 4)
      (matching = none ∨ role ≠ 2 → Runs (.syncRsp d) s (fun t => t = took)) ∧
      (∀ x, matching = some x → role = 2 →
        (15 ≤ unitNat p 2 1 → Runs (.syncRsp d) s (fun t => t = took.modFt d (fun f => { f with waiting := t0.waiting.erase x }))) ∧
        (unitNat p 2 1 < 15 →
          let o := syncOffset (unitNat p 8 8) (unitNat p 16 8) (unitNat p 24 8) t4
          let delay := syncDelay (unitNat p 8 8) (unitNat p 16 8) (unitNat p 24 8) t4
          let good := if o.natAbs ≤ 50 then t0.good + 1 else 0
          let step := s.rd d PCU.FT_STATUS.UNSYNCED = 1 ∨ max 100 (s.rd d PCU.FT_CFG.STEP_THRESHOLD_NS) < o.natAbs
          let adj := syncAdj (s.rdInt d PCU.FT_RATE.ADJ_PPB) o t0.sum (s.syncNs d / 1000)
          Runs (.syncRsp d) s (fun t =>
            (t.die d).syncIn = (s.die d).syncIn.erase (p, t4) ∧ (t.die d).ft.waiting = t0.waiting.erase x ∧
            counted d PCU.FT_EXCHANGES.COUNT s t ∧
            (∀ e, t.rd e PCU.FT_STATUS.UNSYNCED = 0 ∧ t.rd e PCU.FT_STATUS.HOLDOVER = 0 ∧
              t.rd e PCU.FT_STATUS.STEPS_REMOVED = unitNat p 2 1 + 1 ∧ t.rd e PCU.FT_STATUS.LOCKED = (if 16 ≤ good then 1 else 0) ∧
              t.rd e PCU.FT_RATE.DELAY_NS = (delay % 2 ^ 32).toNat ∧ t.rd e PCU.FT_STATUS.OFFSET_NS = (o % 2 ^ 32).toNat ∧
              (t.die e).ft.good = good) ∧
            (step → counted d PCU.FT_STEPS.COUNT s t ∧ ∀ e, (t.die e).ft.ns = (((t0.ns : Int) - o) % 2 ^ 64).toNat ∧
              (t.die e).ft.frac = 0 ∧ t.rd e PCU.FT_RATE.ADJ_PPB = 0) ∧
            (¬ step → ∀ e, (t.die e).ft.ns = (s.die e).ft.ns ∧ (t.die e).ft.sum = t0.sum + o ∧
              t.rd e PCU.FT_RATE.ADJ_PPB = (adj % 2 ^ 32).toNat))))) ∧
    -- SYNC_RSP_TIMEOUT
    (s.syncLate d = [] → Runs (.syncRspTimeout d) s same) ∧
    (s.syncLate d ≠ [] → Runs (.syncRspTimeout d) s (fun t =>
      (t.die d).ft = { t0 with waiting := t0.waiting.filter (fun x => decide (s.now < x.2 + 100000)) } ∧
      t.rd d PCU.FT_EXCHANGES.LOST = min (s.rd d PCU.FT_EXCHANGES.LOST + (s.syncLate d).length) 0xFFFFFFFF ∧
      onlyFields [(d, PCU.FT_EXCHANGES.LOST)] s t)) ∧
    -- FT_SET
    (∀ (rq : Requester) (v : W64),
      (s.warden rq → role = 1 → Runs (.ftSet rq d v) s (fun t => counted d PCU.FT_STEPS.COUNT s t ∧
        ∀ e, (t.die e).ft.ns = v.toNat ∧ (t.die e).ft.frac = 0)) ∧
      (s.warden rq → role ≠ 1 → Runs (.ftSet rq d v) s same) ∧
      (s.barUp rq = true → s.privileged rq = false → Runs (.ftSet rq d v) s (fun t => counted .a GLB.PRIV_VIOLATION_COUNT.COUNT s t ∧
        t.dies = s.dies ∧ onlyFields violationFields s t)) ∧
      (s.barUp rq = false → Runs (.ftSet rq d v) s same))

/-! ## Start-up and resets (19_startup.md; 20_package.md) -/

/-- Power and resets. A rise of PWRGOOD from low starts the device from what survives a loss of power: the image store, the settings, the
retirement table and the fault log; the host ports take their modes and VF counts from the settings. The start-up stops at RESET_HELD while
RESET_N is low, and is HALTED where the regulators do not answer; else the domains of absent units are locked off, the others in Galop,
present host ports with PERST_N high train, and boot selection gives BOOT_FAIL and, by the boot policy, the structure of the slot, HALTED or
WAIT_IMAGE. A fall of PWRGOOD from high, and a collapse of the supplies, leave only what survives; other edges of PWRGOOD do nothing.
A warm reset, by RESET_N low or by DEVICE_RESET, empties the queues, stops the structure, keeps what survives with fabric time, the keys
and the host-port modes, counts, and records its cause as the only one; requested in RESET_HELD it only adds its cause, and without power
or after a thermal trip it does nothing. RESET_N high ends RESET_HELD: the TAP lets go of the pins, and start-up goes on. -/
def Obligations.StartUpAndResets : Prop :=
  ∀ (s : State), s.inv →
    let survives := fun (t : State) => t.store = s.store ∧ t.svc.settings = s.svc.settings ∧ t.fm.table = s.fm.table ∧ t.fm.ring = s.fm.ring
    let empty := fun (t : State) => t.queues = [] ∧ t.ops = [] ∧ t.rings = [] ∧ t.ctrs = [] ∧ t.running = none
    let dark := fun (t : State) => survives t ∧ empty t ∧ t.svc.pwrgood = false ∧ t.rd .a FM.LOG_HEAD.SEQ = s.rd .a FM.LOG_HEAD.SEQ % 2 ^ 32 ∧
      ∀ a, t.mbyte a = 0
    let causes := [SVC.RESET_CAUSE.COLD, SVC.RESET_CAUSE.RESET_N, SVC.RESET_CAUSE.FM_CMD, SVC.RESET_CAUSE.OOB, SVC.RESET_CAUSE.I3C]
    let warm := fun (cause : Fld) (u : State) => survives u ∧ empty u ∧ u.rd .a cause = 1 ∧ (∀ f ∈ causes, f ≠ cause → u.rd .a f = 0) ∧
      u.rd .a SVC.RESET_CAUSE.COUNT = min (s.rd .a SVC.RESET_CAUSE.COUNT + 1) 0xFFFF ∧
      (∀ e, (u.die e).ft = (s.die e).ft ∧ (u.rtb e).flowKey = (s.rtb e).flowKey ∧ (u.die e).recKey = (s.die e).recKey) ∧
      (∀ h, (u.hp h).cxl = (s.hp h).cxl ∧ (u.hp h).bifurcated = (s.hp h).bifurcated ∧ (u.hp h).totalVfs = (s.hp h).totalVfs ∧
        (u.hp h).perst = (s.hp h).perst ∧ (u.hp h).link0.up = false ∧ (u.hp h).link1.up = false) ∧
      (s.engines = [] → u.mem = s.mem)
    -- Boot selection, and what the boot policy makes of it
    let boots := fun (u t : State) =>
      let sel := u.bootSelect
      t.rd .a SVC.SVC_STATE.BOOT_FAIL = sel.2 % 256 ∧
      (∀ r, sel.1 = some r → u.store.policy = 0 ∨ u.store.policy = 2 →
        let x := u.store.slot r.slot.toNat
        t.running = some (u.structureOf (x.image.take x.hdr.length.toNat)) ∧ t.rd .a SVC.SVC_STATE.PHASE = 9 ∧
        t.rd .a SVC.SVC_STATE.BOOT_SLOT = r.slot.toNat % 4 ∧ t.rd .a GLB.STATUS.IMAGE_RUNNING = 1) ∧
      (sel.1 = none → u.store.policy = 2 → t.rd .a SVC.SVC_STATE.PHASE = 11 ∧ t.rd .a SVC.ALERT_STATUS.BOOT = 1 ∧ t.running = u.running) ∧
      ((u.store.policy ≠ 0 ∧ u.store.policy ≠ 2) ∨ (sel.1 = none ∧ u.store.policy ≠ 2) → t.rd .a SVC.SVC_STATE.PHASE = 8 ∧
        t.ims.hostImage = true ∧ t.rd .a SVC.ALERT_STATUS.BOOT = 1 ∧ t.running = u.running)
    let lit := fun (u : State) => u.store = s.store ∧ u.rd .a SVC.SVC_STATE.PHASE = 4 ∧
      (∀ e i, i < 32 → u.rd e (PWC.DOM_STATE.STATE i) = (if s.domAbsent e i then 5 else 0) ∧
        u.rd e (PWC.DOM_STATE.LOCKED_OFF i) = if s.domAbsent e i then 1 else 0) ∧
      ∀ h : Fin 4, s.hpPresent h.val = true → (s.hp h).perst = false → (u.hp h).link0.training = true ∧ (u.hp h).trainAt = s.now
    let starts := fun (avs : Bool) (t : State) =>
      (s.svc.resetN = false → t.rd .a SVC.SVC_STATE.PHASE = 3) ∧
      (s.svc.resetN = true → avs = false → t.rd .a SVC.SVC_STATE.PHASE = 11) ∧
      (s.svc.resetN = true → avs = true → ∃ v : State, lit v ∧ t = v.bootImage ∧ boots v t)
    -- PWRGOOD and the supplies
    (∀ avs, s.svc.pwrgood = false → Runs (.pwrgoodRise avs) s (fun t => starts avs t ∧ ∃ u : State, t = u.fromStore avs ∧ survives u ∧
      empty u ∧ u.svc.pwrgood = true ∧ u.svc.resetN = s.svc.resetN ∧ u.rd .a SVC.RESET_CAUSE.COLD = 1 ∧
      ∀ h, (u.hp h).cxl = (s.setting h.val == 2) ∧ (u.hp h).bifurcated = (s.setting h.val == 1) ∧ (u.hp h).perst = (s.hp h).perst ∧
        (u.hp h).totalVfs = (if s.setting h.val = 1 then min 127 (s.setting (4 + h.val)) else s.setting (4 + h.val)) ∧
        (u.hp h).maxRate = s.setting (8 + h.val))) ∧
    (∀ avs, s.svc.pwrgood = true → Runs (.pwrgoodRise avs) s (fun t => t = s)) ∧
    (s.svc.pwrgood = true → Runs .pwrgoodFall s dark) ∧
    (s.svc.pwrgood = false → Runs .pwrgoodFall s (fun t => t = s)) ∧
    Runs .suppliesCollapse s dark ∧
    -- RESET_N
    (s.svc.pwrgood = true → s.svc.tripped = false → s.rd .a SVC.SVC_STATE.PHASE ≠ 3 → Runs .resetNAsserted s (fun t =>
      t.rd .a SVC.SVC_STATE.PHASE = 3 ∧ t.svc.resetN = false ∧ survives t ∧ empty t ∧
      ∃ u : State, t = u.fromStore true ∧ warm SVC.RESET_CAUSE.RESET_N u)) ∧
    (s.svc.pwrgood = true → s.svc.tripped = false → s.rd .a SVC.SVC_STATE.PHASE = 3 → Runs .resetNAsserted s (fun t =>
      t.rd .a SVC.RESET_CAUSE.RESET_N = 1 ∧ t.svc = { s.svc with resetN := false } ∧ t.dies = s.dies ∧
      onlyFields [(.a, SVC.RESET_CAUSE.RESET_N)] s t)) ∧
    (s.svc.pwrgood = false ∨ s.svc.tripped = true → Runs .resetNAsserted s (fun t => t = { s with svc := { s.svc with resetN := false } })) ∧
    (s.svc.pwrgood = true → s.svc.tripped = false → s.rd .a SVC.SVC_STATE.PHASE = 3 →
      Runs (.resetNDeasserted false) s (fun t => t.rd .a SVC.SVC_STATE.PHASE = 11 ∧ t.svc.resetN = true ∧ t.svc.tap.drives = 0 ∧
        t.dies = s.dies ∧ onlyFields [(.a, SVC.SVC_STATE.PHASE)] s t) ∧
      Runs (.resetNDeasserted true) s (fun t => ∃ u : State, lit u ∧ u.svc.resetN = true ∧ u.svc.tap.drives = 0 ∧ t = u.bootImage ∧ boots u t)) ∧
    (∀ avs, s.svc.pwrgood = false ∨ s.svc.tripped = true ∨ s.rd .a SVC.SVC_STATE.PHASE ≠ 3 → Runs (.resetNDeasserted avs) s (fun t =>
      t = { s with svc := { s.svc with resetN := true, tap := { s.svc.tap with drives := 0 } } })) ∧
    -- DEVICE_RESET
    (∀ (rq : Requester) (avs : Bool),
      let cause := match rq with | .fn _ => SVC.RESET_CAUSE.FM_CMD | _ => SVC.RESET_CAUSE.OOB
      (s.warden rq → s.rd .a FM.FM_STATUS.BUSY ≠ 1 → s.svc.pwrgood = true → s.svc.tripped = false →
        (s.rd .a SVC.SVC_STATE.PHASE ≠ 3 → Runs (.deviceReset rq avs) s (fun t => starts avs t ∧ ∃ u : State, t = u.fromStore avs ∧ warm cause u)) ∧
        (s.rd .a SVC.SVC_STATE.PHASE = 3 → Runs (.deviceReset rq avs) s (fun t => t.rd .a cause = 1 ∧ t.dies = s.dies ∧ t.svc = s.svc ∧
          onlyFields [(.a, cause)] s t))) ∧
      (s.warden rq → s.rd .a FM.FM_STATUS.BUSY ≠ 1 → s.svc.pwrgood = false ∨ s.svc.tripped = true →
        Runs (.deviceReset rq avs) s (fun t => t = s)))

/-! ## Management (19_startup.md R571 to R581) -/

/-- The mailbox, management requests and the out-of-band port. A REQUEST of the management network is taken from the receive queue, and its
RESPONSE sent and kept; a duplicate is answered from the table, a new one is answered BUSY while 4,096 kept answers are young, and one with
an unknown OP ARG_INVALID; another command finds none of its own and does nothing. A datagram that the out-of-band port may not serve is
dropped, and the answer of any other goes out. REG_READ answers the register and REG_WRITE writes it; another size or alignment answers
ACCESS and is counted, an address beyond BAR0 RANGE. STAGE_WRITE stages its bytes but those of the first 4 KiB, answers BUSY to all but the
token's holder, ARG_INVALID and RANGE. GET_SETTING answers the setting. SET_SETTING stores it and takes the token, answers TOKEN while
another holds it, and ARG_INVALID; one that is cut off leaves every setting as it was. A mailbox command ends with its code, is only noted
in GO_REJECT while BUSY, and without a warden's rights counts as a violation. SEND_MGT waits for its RESPONSE, which it shows with its
status, and is sent again 200 µs later, eight times at most; a RESPONSE to nothing, and an EVENT, are taken and discarded. ARP, neighbour
solicitations and echoes for the port's own addresses are answered. -/
def Obligations.ManagementRequests : Prop :=
  ∀ (s : State), s.inv →
    let same := fun (t : State) => t = s
    let from_ := fun (via : MgtVia) => match via with | .mgt => s.popInbox | .oob .. => s
    -- A packet to a requester goes out in `t`, which is otherwise `u`
    let sends := fun (dest : Nat) (b : List Byte) (u t : State) =>
      (∃ q, (t.sluice .a).ctl = (u.sluice .a).ctl ++ [q] ∧ q.dest = dest ∧ q.data = padUnits b) ∧ counted .a SVC.MGT_TX.COUNT u t ∧
      t.svc.inbox = u.svc.inbox ∧ t.svc.settings = u.svc.settings ∧ t.ims = u.ims ∧ onlyFields [(.a, SVC.MGT_TX.COUNT)] u t
    -- The RESPONSE to a request leaves by the way the request came
    let replies := fun (via : MgtVia) (b : List Byte) (status data : Nat) (u t : State) => match via with
      | .mgt => ∃ p, s.inboxHead 1 = some p ∧ sends p.src (mgAnswer b status data) u t ∧
          t.svc.answers = (if 4096 ≤ u.svc.answers.length then u.svc.answers.drop 1 else u.svc.answers) ++
            [⟨p.src, mgReq b, mgAnswer b status data, u.now⟩]
      | .oob .. => t = u.emit (.oob (mgAnswer b status data))
    let requests := fun (via : MgtVia) (stop : Option (Fin 8 × Bool)) => [(Instr.regRead via, 1), (.regWrite via, 2), (.stageWrite via, 3),
      (.getSetting (.request via), 4), (.setSetting (.request via) stop, 5)]
    -- What is not executed
    (∀ stop, ∀ c ∈ requests .mgt stop,
      (s.inboxHead 1 = none → Runs c.1 s same) ∧
      ∀ p, s.inboxHead 1 = some p →
        let b := pktData p
        let mine := mgOp b = c.2 ∨ (c.2 = 1 ∧ opUnknown (mgOp b) = true)
        let kept := s.svc.answers.find? (fun a => a.fea == p.src && a.id == mgReq b)
        (¬ mine → Runs c.1 s same) ∧
        (∀ a, mine → kept = some a → Runs c.1 s (fun t => sends p.src a.resp s.popInbox t ∧ t.svc.answers = s.svc.answers)) ∧
        (mine → kept = none → 4096 ≤ s.freshAnswers → Runs c.1 s (fun t =>
          sends p.src (mgAnswer b 3 0) s.popInbox t ∧ t.svc.answers = s.svc.answers)) ∧
        (mine → mgOp b ≠ c.2 → kept = none → s.freshAnswers < 4096 → Runs c.1 s (fun t => replies .mgt b 5 0 s.popInbox t))) ∧
    (∀ stop session b, ∀ c ∈ requests (.oob session b) stop,
      let mine := mgOp b = c.2 ∨ (c.2 = 1 ∧ opUnknown (mgOp b) = true)
      let served := s.oobUp = true ∧ le b 0 1 = 1 ∧ s.oobMay session b = true
      (¬ (served ∧ mine) → Runs c.1 s same) ∧
      (served → mine → mgOp b ≠ c.2 → Runs c.1 s (fun t => t = s.emit (.oob (mgAnswer b 5 0))))) ∧
    -- REG_READ
    (∀ (via : MgtVia) (b : List Byte), s.asks via b 1 →
      let ok := goodAccess (mgAddr b) (mgSize b)
      (mgAddr b < 2 ^ 27 → ok = true → Runs (.regRead via) s (fun t =>
        replies via b 0 ((from_ via).readBar0 (viaRq via) (mgAddr b) (mgSize b)) (from_ via) t)) ∧
      (mgAddr b < 2 ^ 27 → ok = false → Runs (.regRead via) s (fun t => replies via b 1 0 ((from_ via).bump .a GLB.ACCESS_ERROR_COUNT.COUNT) t)) ∧
      (2 ^ 27 ≤ mgAddr b → Runs (.regRead via) s (fun t => replies via b 2 0 (from_ via) t))) ∧
    -- REG_WRITE
    (∀ (via : MgtVia) (b : List Byte), s.asks via b 2 →
      let ok := goodAccess (mgAddr b) (mgSize b)
      (mgAddr b < 2 ^ 27 → ok = true → Runs (.regWrite via) s (fun t =>
        replies via b 0 0 ((from_ via).regWrite (viaRq via) (mgAddr b) (mgSize b) (mgData b)) t ∧
        (mgAddr b = 0xA8 → mgSize b = 8 → t.rd .a GLB.SCRATCH.DATA = mgData b ∧
          onlyFields [(.a, GLB.SCRATCH.DATA), (.a, SVC.MGT_TX.COUNT)] s t))) ∧
      (mgAddr b < 2 ^ 27 → ok = false → Runs (.regWrite via) s (fun t => replies via b 1 0 ((from_ via).bump .a GLB.ACCESS_ERROR_COUNT.COUNT) t)) ∧
      (2 ^ 27 ≤ mgAddr b → Runs (.regWrite via) s (fun t => replies via b 2 0 (from_ via) t))) ∧
    -- STAGE_WRITE
    (∀ (via : MgtVia) (b : List Byte), s.asks via b 3 →
      let n := mgLen b
      let at_ := mgAddr b
      let held := s.holdsToken (viaRq via) = true
      let ok := 1 ≤ n ∧ n ≤ 4032 ∧ 64 + n ≤ b.length
      (held → ok → at_ + n ≤ 24 * 2 ^ 20 → Runs (.stageWrite via) s (fun t => ∃ u : State, replies via b 0 0 u t ∧
        (∀ k, k < n → 0x1000 ≤ at_ + k → tget u.ims.staging (at_ + k) = b[64 + k]?) ∧
        (∀ a, a < 0x1000 ∨ a < at_ ∨ at_ + n ≤ a → tget u.ims.staging a = tget s.ims.staging a) ∧
        u = { from_ via with ims := { s.ims with staging := u.ims.staging } })) ∧
      (held → ok → 24 * 2 ^ 20 < at_ + n → Runs (.stageWrite via) s (fun t => replies via b 2 0 (from_ via) t)) ∧
      (held → ¬ ok → Runs (.stageWrite via) s (fun t => replies via b 5 0 (from_ via) t)) ∧
      (¬ held → Runs (.stageWrite via) s (fun t => replies via b 3 0 (from_ via) t))) ∧
    -- GET_SETTING and SET_SETTING as requests
    (∀ (via : MgtVia) (b : List Byte), s.asks via b 4 → Runs (.getSetting (.request via)) s (fun t =>
      if settingKnown (mgAddr b) = true then replies via b 0 (s.setting (mgAddr b)) (from_ via) t else replies via b 5 0 (from_ via) t)) ∧
    (∀ (via : MgtVia) (b : List Byte), s.asks via b 5 →
      let i := mgAddr b
      let rq := viaRq via
      let ok := (settingKnown i && settingOk i (mgData b)) = true
      let owns := fun (u : State) => u.holdsToken rq = true ∧ u.rd .a IMS.LEASE.REMAIN_MS = 30000
      (s.mayHold rq = true → ok → Runs (.setSetting (.request via) none) s (fun t => ∃ u, replies via b 0 0 u t ∧ owns u ∧
        u.setting i = mgData b ∧ ∀ j, j ≠ i → u.setting j = s.setting j)) ∧
      (∀ n, s.mayHold rq = true → ok → Runs (.setSetting (.request via) (some (n, true))) s (fun t => ∃ u status, replies via b status 0 u t ∧
        owns u ∧ ∀ j, u.setting j = s.setting j)) ∧
      (∀ n, s.mayHold rq = true → ok → Runs (.setSetting (.request via) (some (n, false))) s (fun t => owns t ∧ t.out = s.out ∧ t.dies = s.dies ∧
        t.svc.answers = s.svc.answers ∧ ∀ j, t.setting j = s.setting j)) ∧
      (∀ stop, s.mayHold rq = true → ¬ ok → Runs (.setSetting (.request via) stop) s (fun t => ∃ u, replies via b 5 0 u t ∧ owns u ∧
        u.svc = (from_ via).svc)) ∧
      (∀ stop, s.mayHold rq = false → Runs (.setSetting (.request via) stop) s (fun t => replies via b 4 0 (from_ via) t))) ∧
    -- The mailbox
    (∀ (rq : Requester) (stop : Option (Fin 8 × Bool)), ∀ c ∈ [Instr.sendMgt rq, .getSetting (.mailbox rq), .setSetting (.mailbox rq) stop],
      (s.warden rq → s.rd .a SVC.MB_STATUS.BUSY = 1 → Runs c s (fun t =>
        t.rd .a SVC.MB_STATUS.GO_REJECT = 1 ∧ t.svc = s.svc ∧ t.dies = s.dies ∧ onlyFields [(.a, SVC.MB_STATUS.GO_REJECT)] s t)) ∧
      (s.barUp rq = true → s.privileged rq = false → Runs c s (fun t => counted .a GLB.PRIV_VIOLATION_COUNT.COUNT s t ∧ t.svc = s.svc ∧
        t.dies = s.dies ∧ onlyFields violationFields s t)) ∧
      (s.barUp rq = false → Runs c s same)) ∧
    (∀ rq : Requester, s.warden rq → s.rd .a SVC.MB_STATUS.BUSY ≠ 1 →
      let i := s.rd .a SVC.MB_ARG0.ARG
      let v := s.rd .a SVC.MB_ARG1.ARG
      let ok := (settingKnown i && settingOk i v) = true
      let mb := [(Die.a, SVC.MB_CMD.OP), (.a, SVC.MB_STATUS.BUSY), (.a, SVC.MB_STATUS.DONE), (.a, SVC.MB_STATUS.CODE),
        (.a, SVC.MB_STATUS.DETAIL)]
      let token := [(Die.a, IMS.TOKEN.OWNER_CLASS), (.a, IMS.TOKEN.OWNER_FN), (.a, IMS.LEASE.REMAIN_MS)]
      let ended := fun (t : State) (op code detail : Nat) => t.rd .a SVC.MB_CMD.OP = op ∧ t.rd .a SVC.MB_STATUS.BUSY = 0 ∧
        t.rd .a SVC.MB_STATUS.DONE = 1 ∧ t.rd .a SVC.MB_STATUS.CODE = code ∧ t.rd .a SVC.MB_STATUS.DETAIL = detail
      (64 ≤ v → v ≤ 4096 → Runs (.sendMgt rq) s (fun t =>
        let dest := bitsOf i 0 24
        let b := leBytes 1 1 ++ (s.mbBytes v).drop 1
        t.rd .a SVC.MB_CMD.OP = 1 ∧ t.rd .a SVC.MB_STATUS.BUSY = 1 ∧ counted .a SVC.MGT_TX.COUNT s t ∧
        t.svc = { s.svc with request := some ⟨leNat ((b.drop 4).take 4), dest, b, s.now, 0⟩ } ∧
        (∃ q, (t.sluice .a).ctl = (s.sluice .a).ctl ++ [q] ∧ q.dest = dest ∧ q.data = padUnits b) ∧
        onlyFields [(.a, SVC.MB_CMD.OP), (.a, SVC.MB_STATUS.BUSY), (.a, SVC.MGT_TX.COUNT)] s t)) ∧
      (v < 64 ∨ 4096 < v → Runs (.sendMgt rq) s (fun t => ended t 1 0x22 1 ∧ t.svc = s.svc ∧ t.dies = s.dies ∧ onlyFields mb s t)) ∧
      (settingKnown i = true → Runs (.getSetting (.mailbox rq)) s (fun t => ended t 2 0 0 ∧ t.rd .a SVC.MB_RESULT.VALUE = s.setting i % 2 ^ 64 ∧
        t.svc = s.svc ∧ onlyFields ((.a, SVC.MB_RESULT.VALUE) :: mb) s t)) ∧
      (settingKnown i = false → Runs (.getSetting (.mailbox rq)) s (fun t => ended t 2 0x22 1 ∧ t.svc = s.svc ∧ onlyFields mb s t)) ∧
      (s.mayHold rq = true → ok →
        Runs (.setSetting (.mailbox rq) none) s (fun t => ended t 3 0 0 ∧ t.holdsToken rq = true ∧ t.setting i = v ∧
          (∀ j, j ≠ i → t.setting j = s.setting j) ∧ onlyFields (mb ++ token) s t) ∧
        (∀ n, Runs (.setSetting (.mailbox rq) (some (n, true))) s (fun t => ended t 3 0x22 4 ∧ t.holdsToken rq = true ∧
          (∀ j, t.setting j = s.setting j) ∧ onlyFields (mb ++ token) s t)) ∧
        (∀ n, Runs (.setSetting (.mailbox rq) (some (n, false))) s (fun t => t.rd .a SVC.MB_STATUS.BUSY = 1 ∧ t.holdsToken rq = true ∧
          (∀ j, t.setting j = s.setting j) ∧ onlyFields (mb ++ token) s t))) ∧
      (∀ stop, s.mayHold rq = true → ¬ ok → Runs (.setSetting (.mailbox rq) stop) s (fun t => ended t 3 0x22 1 ∧ t.holdsToken rq = true ∧
        t.svc = s.svc ∧ onlyFields (mb ++ token) s t)) ∧
      (∀ stop, s.mayHold rq = false → Runs (.setSetting (.mailbox rq) stop) s (fun t => ended t 3 0x71 0 ∧ t.svc = s.svc ∧
        onlyFields mb s t))) ∧
    -- MGT_RESPONSE
    (s.inboxHead 2 = none → Runs .mgtResponse s same) ∧
    (∀ p, s.inboxHead 2 = some p →
      let b := pktData p
      let status := le b 3 1
      (s.svc.request = none → Runs .mgtResponse s (fun t => t = s.popInbox)) ∧
      ∀ r, s.svc.request = some r →
        let mine := le b 4 4 = r.id ∧ feaGroup p.src = feaGroup r.dest ∧ feaRouter p.src = feaRouter r.dest
        (¬ mine → Runs .mgtResponse s (fun t => t = s.popInbox)) ∧
        (mine → Runs .mgtResponse s (fun t => t.svc = { s.svc with request := none, inbox := s.svc.inbox.drop 1 } ∧
          t.rd .a SVC.MB_STATUS.BUSY = 0 ∧ t.rd .a SVC.MB_STATUS.DONE = 1 ∧ t.rd .a SVC.MB_STATUS.CODE = (if status = 0 then 0 else 0x22) ∧
          t.rd .a SVC.MB_STATUS.DETAIL = (if status = 0 then 0 else 3) ∧ t.rd .a SVC.MB_RESULT.VALUE = (b.length + status * 2 ^ 40) % 2 ^ 64 ∧
          (∀ k, 8 * k < b.length → t.rd .a (SVC.MB_DATA.DATA k) = le b (8 * k) 8) ∧
          onlyFields ([(.a, SVC.MB_STATUS.BUSY), (.a, SVC.MB_STATUS.DONE), (.a, SVC.MB_STATUS.CODE), (.a, SVC.MB_STATUS.DETAIL),
            (.a, SVC.MB_RESULT.VALUE)] ++ (List.range (ceilDiv b.length 8)).map (fun k => (.a, SVC.MB_DATA.DATA k))) s t))) ∧
    -- MGT_REQUEST_RETRY
    (s.svc.request = none → Runs .mgtRequestRetry s same) ∧
    (∀ r, s.svc.request = some r →
      (s.now < r.sentAt + 200000 → Runs .mgtRequestRetry s same) ∧
      (r.sentAt + 200000 ≤ s.now → r.retries < 8 → Runs .mgtRequestRetry s (fun t =>
        t.svc = { s.svc with request := some { r with sentAt := s.now, retries := r.retries + 1 } } ∧ counted .a SVC.MGT_RETRIES.COUNT s t ∧
        counted .a SVC.MGT_TX.COUNT s t ∧ onlyFields [(.a, SVC.MGT_RETRIES.COUNT), (.a, SVC.MGT_TX.COUNT)] s t ∧
        ∃ q, (t.sluice .a).ctl = (s.sluice .a).ctl ++ [q] ∧ q.dest = r.dest ∧ q.data = padUnits r.bytes)) ∧
      (r.sentAt + 200000 ≤ s.now → 8 ≤ r.retries → Runs .mgtRequestRetry s (fun t => t.svc = { s.svc with request := none } ∧
        t.rd .a SVC.MB_STATUS.BUSY = 0 ∧ t.rd .a SVC.MB_STATUS.DONE = 1 ∧ t.rd .a SVC.MB_STATUS.CODE = 0x22 ∧
        t.rd .a SVC.MB_STATUS.DETAIL = 2 ∧ t.dies = s.dies))) ∧
    -- MGT_EVENT
    (∀ p, s.inboxHead 6 = some p → Runs .mgtEvent s (fun t => t = s.popInbox)) ∧
    (s.inboxHead 6 = none → Runs .mgtEvent s same) ∧
    -- The Ethernet side of the out-of-band port
    (∀ up : Bool, (s.svc.pwrgood = true → Runs (.oobBlockLock up) s (fun t =>
        t.rd .a SVC.OOB_STATE.LINK = up.toNat ∧ t.svc = s.svc ∧ t.dies = s.dies ∧ onlyFields [(.a, SVC.OOB_STATE.LINK)] s t)) ∧
      (s.svc.pwrgood = false → Runs (.oobBlockLock up) s same)) ∧
    (∀ vlan : BitVec 12,
      let hears := s.oobFrame vlan.toNat = true
      (∀ ip : W32,
        let mine := hears ∧ ip ≠ 0 ∧ ip.toNat = s.ip4
        (mine → Runs (.arpRequest vlan ip) s (fun t => t = s.emit (.arpReply ip.toNat Config.oobMac))) ∧
        (¬ mine → Runs (.arpRequest vlan ip) s same)) ∧
      (∀ ip : BitVec 128,
        let mine := hears ∧ ip ≠ 0 ∧ ip.toNat = s.ip6
        (mine → Runs (.neighbourSolicitation vlan ip) s (fun t => t = s.emit (.neighbourAdvert ip.toNat))) ∧
        (¬ mine → Runs (.neighbourSolicitation vlan ip) s same)) ∧
      (∀ (v6 : Bool) (ip : BitVec 128) (data : List Byte),
        let mine := hears ∧ ip ≠ 0 ∧ ip.toNat = (if v6 = true then s.ip6 else s.ip4)
        (mine → Runs (.echoRequest vlan v6 ip data) s (fun t => t = s.emit (.echoReply v6 data))) ∧
        (¬ mine → Runs (.echoRequest vlan v6 ip data) s same)))

/-! ## The I3C target and the TAP (19_startup.md R582 to R584) -/

/-- I3C and the TAP. With PWRGOOD high and no dynamic address yet, the target takes one by ENTDAA, or by SETDASA at its static address; ENEC,
broadcast or to it, enables its interrupts. A private write to it sets the 16-bit pointer, high byte first, and its further bytes act one by
one as the pointer advances: 0x100 to 0x103 hold the slot register, 0xA5 at 0x200 is a warm reset recorded as I3C's, others do nothing. A
private read advances the pointer over the bytes of the SVC block, of the event-ring slot, which reads zero while the slot holds no record,
and 0xFF. What is not for the target changes nothing. IDCODE gives the part's code, BYPASS one bit, SAMPLE/PRELOAD the pins' levels, and all
three leave the pins to the device. EXTEST, EXTEST_PULSE, EXTEST_TRAIN, CLAMP and HIGHZ drive the pins while RESET_N is low and PWRGOOD is
high; otherwise they act as BYPASS and set JTAG_REFUSED. TRST_N resets the TAP to IDCODE. -/
def Obligations.PinCommands : Prop :=
  ∀ (s : State), s.inv →
    let same := fun (t : State) => t = s
    -- I3C_ADDRESS_ASSIGN and I3C_ENEC
    (∀ (target : Option (BitVec 7)) (addr : BitVec 7),
      let takes := s.svc.pwrgood = true ∧ s.svc.dynAddr = none ∧ ∀ a, target = some a → a.toNat = s.svc.staticAddr
      (takes → Runs (.i3cAddressAssign target addr) s (fun t => t = { s with svc := { s.svc with dynAddr := some addr.toNat } })) ∧
      (¬ takes → Runs (.i3cAddressAssign target addr) s same)) ∧
    (∀ (addr : Option (BitVec 7)) (events : Byte),
      let heard := s.svc.pwrgood = true ∧ (∀ a, addr = some a → s.svc.dynAddr = some a.toNat) ∧ events.toNat % 2 = 1
      (heard → Runs (.i3cEnec addr events) s (fun t => t = { s with svc := { s.svc with ibi := true } })) ∧
      (¬ heard → Runs (.i3cEnec addr events) s same)) ∧
    -- I3C_PRIVATE_WRITE and I3C_PRIVATE_READ
    (∀ addr : BitVec 7, s.svc.pwrgood = true → s.svc.dynAddr = some addr.toNat →
      (∀ data : List Byte, data.length < 2 → Runs (.i3cPrivateWrite addr data) s same) ∧
      (∀ h l : Byte,
        let a := h.toNat * 256 + l.toNat
        Runs (.i3cPrivateWrite addr [h, l]) s (fun t => t = { s with svc := { s.svc with ptr := a } }) ∧
        (∀ b : Byte, ¬ (0x100 ≤ a ∧ a < 0x104) → ¬ (a = 0x200 ∧ b = 0xA5) → Runs (.i3cPrivateWrite addr [h, l, b]) s (fun t =>
          t = { s with svc := { s.svc with ptr := (a + 1) % 65536 } })) ∧
        (∀ b : Byte, 0x100 ≤ a → a < 0x104 → Runs (.i3cPrivateWrite addr [h, l, b]) s (fun t =>
          t = { s with svc := { s.svc with ptr := a + 1, slot := t.svc.slot } } ∧
          ∀ k, t.svc.slot / 256 ^ k % 256 = if k = a - 0x100 then b.toNat else s.svc.slot / 256 ^ k % 256)) ∧
        (a = 0x200 → s.svc.tripped = false → s.rd .a SVC.SVC_STATE.PHASE ≠ 3 → Runs (.i3cPrivateWrite addr [h, l, 0xA5]) s (fun t =>
          ∃ u : State, t = u.fromStore true ∧ u.rd .a SVC.RESET_CAUSE.I3C = 1 ∧
            u.rd .a SVC.RESET_CAUSE.COUNT = min (s.rd .a SVC.RESET_CAUSE.COUNT + 1) 0xFFFF ∧ u.svc.ptr = 0x201 ∧ u.queues = [] ∧
            u.running = none ∧ u.store = s.store)) ∧
        (∀ (rest : List Byte) (b : Byte), Runs (.i3cPrivateWrite addr (h :: l :: rest ++ [b])) s (fun t => ∃ u : State,
          exec (.i3cPrivateWrite addr (h :: l :: rest)) s = .next u ∧ t = u.i3cByte b))) ∧
      (∀ b0 b1 b2 b3 : Byte, Runs (.i3cPrivateWrite addr [1, 0, b0, b1, b2, b3]) s (fun t =>
        t = { s with svc := { s.svc with ptr := 0x104, slot := s.svc.slot / 2 ^ 32 * 2 ^ 32 + leNat [b0, b1, b2, b3] } })) ∧
      (∀ n : BitVec 16, Runs (.i3cPrivateRead addr n) s (fun t => t.svc = { s.svc with ptr := (s.svc.ptr + n.toNat) % 65536 } ∧
        t.regs = s.regs ∧ t.dies = s.dies ∧ ∃ b, t.out = s.out ++ [.i3c b] ∧ b.length = n.toNat ∧ ∀ j, j < n.toNat →
          let a := (s.svc.ptr + j) % 65536
          (a < 0x100 → b[j]? = some (BitVec.ofNat 8 (s.readReg .svc .a (0x100000 + a / 8 * 8) / 2 ^ (8 * (a % 8))))) ∧
          (0x140 ≤ a → a < 0x180 → s.svc.slot < 211968 → (∀ e, tget s.fm.ring s.svc.slot = some e → b[j]? = (evBytes e)[a - 0x140]?) ∧
            (tget s.fm.ring s.svc.slot = none → b[j]? = some 0)) ∧
          (0x100 ≤ a → ¬ (0x140 ≤ a ∧ a < 0x180) → b[j]? = some 0xFF)))) ∧
    (∀ (addr : BitVec 7) (n : BitVec 16) (data : List Byte), s.svc.pwrgood = false ∨ s.svc.dynAddr ≠ some addr.toNat →
      Runs (.i3cPrivateRead addr n) s same ∧ Runs (.i3cPrivateWrite addr data) s same) ∧
    -- The TAP
    (∀ bits : List Bool,
      let held := s.svc.tap.boundary
      let tap := fun (ir drives : Nat) (boundary : List Bool) (out : List Bool) (t : State) =>
        t = { s with svc := { s.svc with tap := ⟨ir, boundary, drives⟩ }, out := s.out ++ [.tdo out] }
      let bypass := (false :: bits).take bits.length
      let refused := fun (ir : Nat) (t : State) => t.svc = { s.svc with tap := ⟨ir, held, 0⟩ } ∧ t.out = s.out ++ [.tdo bypass] ∧
        t.dies = s.dies ∧ t.rd .a SVC.SVC_STATE.JTAG_REFUSED = 1 ∧ onlyFields [(.a, SVC.SVC_STATE.JTAG_REFUSED)] s t
      let may := s.svc.resetN = false ∧ s.svc.pwrgood = true
      Runs (.idcode bits) s (tap 1 0 held ((((List.range 32).map (bitOf s.idcode)) ++ bits).take bits.length)) ∧
      (s.stepping = 0 → s.idcode = match s.part with | .f => 0x091289AF | .c => 0x091299AF | .e => 0x0912A9AF) ∧
      Runs (.bypass bits) s (tap 0xFF 0 held bypass) ∧
      (∀ pins : List Bool,
        let c := pinLevels pins
        let scans := fun (ir drives : Nat) => tap ir drives ((bits.reverse ++ c).take 409) ((c.reverse ++ bits).take bits.length)
        Runs (.samplePreload pins bits) s (scans 2 0) ∧
        ∀ x ∈ [(Instr.extest pins bits, 3), (.extestPulse pins bits, 4), (.extestTrain pins bits, 5)],
          (may → Runs x.1 s (scans x.2 x.2)) ∧ (¬ may → Runs x.1 s (refused x.2))) ∧
      (∀ x ∈ [(Instr.clamp bits, 6), (.highz bits, 7)],
        (may → Runs x.1 s (tap x.2 x.2 held bypass)) ∧ (¬ may → Runs x.1 s (refused x.2)))) ∧
    Runs .trstNAsserted s (fun t => t = { s with svc := { s.svc with tap := ⟨1, s.svc.tap.boundary, 0⟩ } })
end

