-- ==== Sys2Proof/Laws/Keeps.lean ====
section
/-! SUPPORT. What a command can do to a state, said once: it changes register fields and device memory by the operations of Ops.lean and
Memory.lean, and leaves the part, the queue and the clock alone. A property that those operations keep is kept by every command; and the
groups of state that a command does not touch stand as they were. -/

namespace Sys2Proof.Machine

/-- A property of states that looks at the groups of `K`, the register fields, the memory and the device's identity, the clock and the
queue; and that writes of register fields and of memory keep, where `K` does not hold these still. -/
structure Closed (K : Grp → Bool) (P : State → Prop) : Prop where
  wr : K .regs = false → ∀ s d f v, P s → P (s.wr d f v)
  store : K .mem = false → ∀ s a bs p, P s → P (s.mstore a bs p)
  drop : K .regs = false → ∀ (s : State) (p : Nat × Nat → Bool), P s → P { s with regs := s.regs.filter p }
  cold : K .regs = false → K .mem = false → ∀ s, P s → P { s with regs := [], mem := [] }
  other : ∀ (s t : State), t.part = s.part → t.serial = s.serial → t.stepping = s.stepping → t.rootKey = s.rootKey → t.now = s.now →
    t.regs = s.regs → t.mem = s.mem → t.pending = s.pending → (∀ g, K g = true → same g s t) → P s → P t

/-- `P` is such a property, and holds of `s`. -/
structure Holds (K : Grp → Bool) (P : State → Prop) (s : State) : Prop where
  closed : Closed K P
  holds : P s

/-- `P` holds of what an outcome answers. -/
structure HoldsO (K : Grp → Bool) (P : State → Prop) (o : Host.Outcome State Fault Refusal) : Prop where
  all : ∀ t, o = .next t → Holds K P t

structure HoldsE {ε : Type} (K : Grp → Bool) (P : State → Prop) (x : Except ε State) : Prop where
  all : ∀ t, x = .ok t → Holds K P t

structure HoldsEP {ε β : Type} (K : Grp → Bool) (P : State → Prop) (x : Except ε (State × β)) : Prop where
  all : ∀ t, x = .ok t → Holds K P t.1

structure HoldsS (K : Grp → Bool) (P : State → Prop) (x : Option State) : Prop where
  all : ∀ t, x = some t → Holds K P t

structure HoldsSP {β : Type} (K : Grp → Bool) (P : State → Prop) (x : Option (State × β)) : Prop where
  all : ∀ t, x = some t → Holds K P t.1

variable {K : Grp → Bool} {P : State → Prop} {s : State}

theorem dieSame_refl (g : Grp) (x : DieState) : dieSame g x x := by cases g <;> simp [dieSame]

theorem dieSame_symm {g : Grp} {x y : DieState} (h : dieSame g x y) : dieSame g y x := by cases g <;> simp_all [dieSame]

theorem same_symm {g : Grp} {s t : State} (h : same g s t) : same g t s := by
  cases g <;> simp_all [same, dieSame]

theorem Closed.back (hc : Closed K P) {t : State} (ht : P t) : s.part = t.part → s.serial = t.serial → s.stepping = t.stepping →
    s.rootKey = t.rootKey → s.now = t.now → s.regs = t.regs → s.mem = t.mem → s.pending = t.pending →
    (∀ g, K g = true → same g t s) → P s :=
  fun h1 h2 h3 h4 h5 h6 h7 h8 h9 => hc.other t s h1 h2 h3 h4 h5 h6 h7 h8 h9 ht

theorem Holds.upd (free : Nat) (poison : List Nat) (out : List Output) (store : Store) (ims : ImsState)
    (running : Option Structure) (hps : Vector HostPort 4) (memKey : Nat) (waiters : List Waiter) (recallAt : Tbl Nat)
    (holdCounts : Tbl Nat) (hostQ : Tbl (List DevAccess)) (engines : Tbl Engine) (queues : Tbl WQueue) (rings : Tbl CRing)
    (ctrs : Tbl Counter) (qcs : Tbl QcPage) (ops : Tbl WOp) (nextOp : Nat) (reads : Tbl HostRead) (nextRead : Nat) (nextPkt : Nat)
    (fm : FaultMgr) (svc : Svc) (h0 : K .free = true → free = s.free) (h1 : K .mem = true → poison = s.poison)
    (h2 : K .out = true → out = s.out) (h3 : K .store = true → store = s.store) (h4 : K .ims = true → ims = s.ims)
    (h5 : K .image = true → running = s.running) (h6 : K .ports = true → hps = s.hps)
    (h7 : K .interleave = true → memKey = s.memKey) (h8 : K .hold = true → waiters = s.waiters)
    (h9 : K .hold = true → recallAt = s.recallAt) (h10 : K .hold = true → holdCounts = s.holdCounts)
    (h11 : K .accesses = true → hostQ = s.hostQ) (h12 : K .engines = true → engines = s.engines)
    (h13 : K .queues = true → queues = s.queues) (h14 : K .rings = true → rings = s.rings)
    (h15 : K .counters = true → ctrs = s.ctrs) (h16 : K .control = true → qcs = s.qcs) (h17 : K .ops = true → ops = s.ops)
    (h18 : K .ops = true → nextOp = s.nextOp) (h19 : K .reads = true → reads = s.reads)
    (h20 : K .reads = true → nextRead = s.nextRead) (h22 : K .faults = true → fm = s.fm) (h23 : K .svc = true → svc = s.svc) :
    Holds K P
      { part := s.part, serial := s.serial, stepping := s.stepping, rootKey := s.rootKey, now := s.now, free := free,
        regs := s.regs, mem := s.mem, poison := poison, out := out, store := store, ims := ims, running := running,
        dies := s.dies, hps := hps, memKey := memKey, waiters := waiters, recallAt := recallAt, holdCounts :=
        holdCounts, hostQ := hostQ, engines := engines, queues := queues, rings := rings, ctrs := ctrs, qcs := qcs,
        ops := ops, nextOp := nextOp, reads := reads, nextRead := nextRead, nextPkt := nextPkt, fm := fm, svc := svc,
        pending := s.pending } ↔ Holds K P s := by
  have e : ∀ g, K g = true → same g s
      { part := s.part, serial := s.serial, stepping := s.stepping, rootKey := s.rootKey, now := s.now, free := free,
        regs := s.regs, mem := s.mem, poison := poison, out := out, store := store, ims := ims, running := running,
        dies := s.dies, hps := hps, memKey := memKey, waiters := waiters, recallAt := recallAt, holdCounts :=
        holdCounts, hostQ := hostQ, engines := engines, queues := queues, rings := rings, ctrs := ctrs, qcs := qcs,
        ops := ops, nextOp := nextOp, reads := reads, nextRead := nextRead, nextPkt := nextPkt, fm := fm, svc := svc,
        pending := s.pending } := by
    intro g hg
    cases g <;> simp_all [same, dieSame]
  exact ⟨fun h => ⟨h.closed, Closed.back h.closed h.holds rfl rfl rfl rfl rfl rfl rfl rfl (fun g hg => same_symm (e g hg))⟩,
    fun h => ⟨h.closed, h.closed.other s _ rfl rfl rfl rfl rfl rfl rfl rfl e h.holds⟩⟩

theorem Holds.dropRegs (h : Holds K P s) (hk : K .regs = false) (p : Nat × Nat → Bool) : Holds K P { s with regs := s.regs.filter p } :=
  ⟨h.closed, h.closed.drop hk s p h.holds⟩

/-- Whatever else changes, what `P` looks at does not. -/
theorem Holds.swap {t : State} (h1 : t.part = s.part) (h2 : t.serial = s.serial) (h3 : t.stepping = s.stepping)
    (h4 : t.rootKey = s.rootKey) (h5 : t.now = s.now) (h6 : t.regs = s.regs) (h7 : t.mem = s.mem) (h8 : t.pending = s.pending)
    (h9 : ∀ g, K g = true → same g s t) (h : Holds K P s) : Holds K P t :=
  ⟨h.closed, h.closed.other s t h1 h2 h3 h4 h5 h6 h7 h8 h9 h.holds⟩

/-- The states of both dies change. -/
theorem Holds.dies (h : Holds K P s) (p : Pair DieState) (ha : ∀ g, K g = true → dieSame g s.dies.a p.a)
    (hb : ∀ g, K g = true → dieSame g s.dies.b p.b) : Holds K P { s with dies := p } := by
  refine ⟨h.closed, h.closed.other s _ rfl rfl rfl rfl rfl rfl rfl rfl (fun g hg => ?_) h.holds⟩
  have h1 := ha g hg
  have h2 := hb g hg
  cases g <;> simp_all [same]

theorem State.modDie_keeps (hs : Holds K P s) (d : Die) (f : DieState → DieState) (hf : ∀ g x, K g = true → dieSame g x (f x)) :
    Holds K P (s.modDie d f) := by
  unfold State.modDie
  cases d
  · exact Holds.dies hs _ (fun g hg => hf g _ hg) (fun g _ => dieSame_refl g _)
  · exact Holds.dies hs _ (fun g _ => dieSame_refl g _) (fun g hg => hf g _ hg)

theorem Holds.ite {c : Prop} [Decidable c] {a b : State} (ha : Holds K P a) (hb : Holds K P b) : Holds K P (if c then a else b) := by
  split <;> assumption

theorem Holds.ite1 {β : Type} {c : Prop} [Decidable c] {a b : State × β} (ha : Holds K P a.1) (hb : Holds K P b.1) :
    Holds K P (if c then a else b).1 := by
  split <;> assumption

theorem Holds.foldl {α : Type} {g : State → α → State} {l : List α} (h : Holds K P s) (hg : ∀ t x, Holds K P t → Holds K P (g t x)) :
    Holds K P (l.foldl g s) := by
  induction l generalizing s with
  | nil => exact h
  | cons x l ih => exact ih (hg s x h)

theorem Holds.foldl1 {α β : Type} {g : State × β → α → State × β} {l : List α} {p : State × β} (h : Holds K P p.1)
    (hg : ∀ t x, Holds K P t.1 → Holds K P (g t x).1) : Holds K P (l.foldl g p).1 := by
  induction l generalizing p with
  | nil => exact h
  | cons x l ih => exact ih (hg p x h)

theorem Holds.of_fst {β : Type} {x : State × β} {k : β} (e : x = (s, k)) (h : Holds K P x.1) : Holds K P s := by
  rw [e] at h; exact h

theorem Holds.of_some {x : Option State} (e : x = some s) (h : HoldsS K P x) : Holds K P s := h.all s e
theorem Holds.of_someP {β : Type} {k : β} {x : Option (State × β)} (e : x = some (s, k)) (h : HoldsSP K P x) : Holds K P s := h.all _ e
theorem Holds.of_ok {ε : Type} {x : Except ε State} (e : x = .ok s) (h : HoldsE K P x) : Holds K P s := h.all s e
theorem Holds.of_okP {ε β : Type} {k : β} {x : Except ε (State × β)} (e : x = .ok (s, k)) (h : HoldsEP K P x) : Holds K P s := h.all _ e

theorem HoldsO.next (h : Holds K P s) : HoldsO K P (.next s) := ⟨by intro t e; cases e; exact h⟩
theorem HoldsE.ok {ε : Type} (h : Holds K P s) : HoldsE (ε := ε) K P (.ok s) := ⟨by intro t e; cases e; exact h⟩
theorem HoldsE.error {ε : Type} {x : ε} : HoldsE K P (.error x) := ⟨by intro t e; cases e⟩
theorem HoldsEP.ok {ε β : Type} {k : β} (h : Holds K P s) : HoldsEP (ε := ε) K P (.ok (s, k)) := ⟨by intro t e; cases e; exact h⟩
theorem HoldsEP.error {ε β : Type} {x : ε} : HoldsEP (β := β) K P (.error x) := ⟨by intro t e; cases e⟩
theorem HoldsS.some (h : Holds K P s) : HoldsS K P (.some s) := ⟨by intro t e; cases e; exact h⟩
theorem HoldsS.none : HoldsS K P .none := ⟨by intro t e; cases e⟩
theorem HoldsSP.some {β : Type} {k : β} (h : Holds K P s) : HoldsSP K P (.some (s, k)) := ⟨by intro t e; cases e; exact h⟩
theorem HoldsSP.none {β : Type} : HoldsSP (β := β) K P .none := ⟨by intro t e; cases e⟩
theorem HoldsE.ite {ε : Type} {c : Prop} [Decidable c] {a b : Except ε State} (ha : HoldsE K P a) (hb : HoldsE K P b) :
    HoldsE K P (if c then a else b) := by split <;> assumption
theorem HoldsEP.ite {ε β : Type} {c : Prop} [Decidable c] {a b : Except ε (State × β)} (ha : HoldsEP K P a) (hb : HoldsEP K P b) :
    HoldsEP K P (if c then a else b) := by split <;> assumption

theorem State.wr_keeps (h : Holds K P s) (hk : K .regs = false) (d : Die) (f : Fld) (v : Nat) : Holds K P (s.wr d f v) :=
  ⟨h.closed, h.closed.wr hk s d f v h.holds⟩
theorem State.mstore_keeps (h : Holds K P s) (hk : K .mem = false) (a : Nat) (bs : List Byte) (p : Bool) : Holds K P (s.mstore a bs p) :=
  ⟨h.closed, h.closed.store hk s a bs p h.holds⟩

end Sys2Proof.Machine
end

