-- ==== Sys2Proof/Laws/KeepOps.lean ====
section
/-! SUPPORT. The operations of Ops.lean keep what the operations on registers and memory keep. -/

namespace Sys2Proof.Machine

set_option linter.all false
set_option linter.unusedTactic false
set_option linter.unreachableTactic false

variable {K : Grp → Bool} {P : State → Prop}

theorem State.bumpBy_keeps (s : State) (d : Die) (f : Fld) (n : Nat) (hs : Holds K P s) (hk_regs : K .regs = false) :
    Holds K P (State.bumpBy s d f n) := by
  unfold State.bumpBy
  try dsimp only
  with_reducible repeat' first
    | intro _ | assumption | apply State.wr_keeps | dsimp only

theorem State.bump_keeps (s : State) (d : Die) (f : Fld) (hs : Holds K P s) (hk_regs : K .regs = false) :
    Holds K P (State.bump s d f) := by
  unfold State.bump
  try dsimp only
  with_reducible repeat' first
    | intro _ | assumption | apply State.bumpBy_keeps | dsimp only

theorem State.atLeast_keeps (s : State) (d : Die) (f : Fld) (n : Nat) (hs : Holds K P s) (hk_regs : K .regs = false) :
    Holds K P (State.atLeast s d f n) := by
  unfold State.atLeast
  try dsimp only
  with_reducible repeat' first
    | intro _ | assumption | apply State.wr_keeps | dsimp only

theorem State.wrs_keeps (s : State) (d : Die) (l : List (Fld × Nat)) (hs : Holds K P s) (hk_regs : K .regs = false) :
    Holds K P (State.wrs s d l) := by
  unfold State.wrs
  try dsimp only
  with_reducible repeat' first
    | intro _ | assumption | apply State.wr_keeps | apply Holds.foldl | apply Holds.foldl1 | dsimp only

theorem State.zero_keeps (s : State) (d : Die) (l : List Fld) (hs : Holds K P s) (hk_regs : K .regs = false) :
    Holds K P (State.zero s d l) := by
  unfold State.zero
  try dsimp only
  with_reducible repeat' first
    | intro _ | assumption | apply State.wr_keeps | apply Holds.foldl | dsimp only

theorem State.draw_keeps (s : State) (k : Nat → State → State) (hs : Holds K P s) (hk : ∀ x0 x1, Holds K P x1 → Holds K P
    (k x0 x1)) (hk_free : K .free = false) :
    Holds K P (State.draw s k) := by
  unfold State.draw
  try dsimp only
  with_reducible repeat' first
    | intro _ | assumption | apply hk | simp only [Holds.upd, hk_free, Bool.false_eq_true, false_implies, implies_true] | dsimp only

theorem State.drawNat_keeps (s : State) (hs : Holds K P s) (hk_free : K .free = false) :
    Holds K P (State.drawNat s).1 := by
  unfold State.drawNat
  try dsimp only
  with_reducible repeat' first
    | intro _ | assumption | simp only [Holds.upd, hk_free, Bool.false_eq_true, false_implies, implies_true] | dsimp only

theorem State.emit_keeps (s : State) (o : Output) (hs : Holds K P s) (hk_out : K .out = false) :
    Holds K P (State.emit s o) := by
  unfold State.emit
  try dsimp only
  with_reducible repeat' first
    | intro _ | assumption | simp only [Holds.upd, hk_out, Bool.false_eq_true, false_implies, implies_true] | dsimp only

theorem State.countBy_keeps (s : State) (d : Die) (f : Fld) (n : Nat) (hs : Holds K P s) (hk_regs : K .regs = false) :
    Holds K P (State.countBy s d f n) := by
  unfold State.countBy
  try dsimp only
  with_reducible repeat' first
    | intro _ | assumption | apply State.wr_keeps | dsimp only

theorem State.hpCount_keeps (s : State) (h_ : Fin 4) (m : Nat) (n : Nat) (hs : Holds K P s) (hk_regs : K .regs = false) :
    Holds K P (State.hpCount s h_ m n) := by
  unfold State.hpCount
  try dsimp only
  with_reducible repeat' first
    | intro _ | assumption | apply State.countBy_keeps | dsimp only

theorem State.event_keeps (s : State) (d : Die) (e : Nat) (p : Option Nat) (hs : Holds K P s) (hk_regs : K .regs = false) :
    Holds K P (State.event s d e p) := by
  unfold State.event
  try dsimp only
  with_reducible repeat' first
    | intro _ | assumption | apply State.countBy_keeps | apply Holds.ite | apply Holds.foldl | exact HoldsS.none | apply HoldsS.some
    | split | dsimp only

theorem State.modHp_keeps (s : State) (h_ : Fin 4) (f : HostPort → HostPort) (hs : Holds K P s) (hk_ports : K .ports = false) :
    Holds K P (State.modHp s h_ f) := by
  unfold State.modHp
  try dsimp only
  with_reducible repeat' first
    | intro _ | assumption | simp only [Holds.upd, hk_ports, Bool.false_eq_true, false_implies, implies_true] | dsimp only

theorem State.hwrite_keeps (s : State) (f : Fn) (addr : Nat) (relaxed : Bool) (data : List Byte) (tr : Bool)
    (hs : Holds K P s) (hk_out : K .out = false) (hk_regs : K .regs = false) :
    Holds K P (State.hwrite s f addr relaxed data tr) := by
  unfold State.hwrite
  try dsimp only
  with_reducible repeat' first
    | intro _ | assumption | apply State.emit_keeps | apply State.hpCount_keeps | apply Holds.ite | split | dsimp only

theorem State.hread_keeps (s : State) (f : Fn) (addr : Nat) (len : Nat) (tr : Bool) (hs : Holds K P s)
    (hk_out : K .out = false) (hk_regs : K .regs = false) :
    Holds K P (State.hread s f addr len tr) := by
  unfold State.hread
  try dsimp only
  with_reducible repeat' first
    | intro _ | assumption | apply State.emit_keeps | apply State.hpCount_keeps | apply Holds.ite | split | dsimp only

theorem State.when_keeps (s : State) (c : Bool) (f : State → State) (hs : Holds K P s) (hf : ∀ x0, Holds K P x0 → Holds K P
    (f x0)) :
    Holds K P (State.when s c f) := by
  unfold State.when
  try dsimp only
  with_reducible repeat' first
    | intro _ | assumption | apply hf | apply Holds.ite | split | dsimp only

theorem State.privViolation_keeps (s : State) (rq : Requester) (view : Nat) (off : Nat) (hs : Holds K P s)
    (hk_regs : K .regs = false) :
    Holds K P (State.privViolation s rq view off) := by
  unfold State.privViolation
  try dsimp only
  with_reducible repeat' first
    | intro _ | assumption | apply State.wrs_keeps | apply State.bump_keeps | split | dsimp only

theorem State.polderCount_keeps (s : State) (d : Die) (id : Nat) (m : Nat) (n : Nat) (hs : Holds K P s)
    (hk_regs : K .regs = false) :
    Holds K P (State.polderCount s d id m n) := by
  unfold State.polderCount
  try dsimp only
  with_reducible repeat' first
    | intro _ | assumption | apply State.countBy_keeps | split | dsimp only

theorem State.lastDropHost_keeps (s : State) (d : Die) (f : Fn) (polder : Nat) (reason : Nat) (hs : Holds K P s)
    (hk_regs : K .regs = false) :
    Holds K P (State.lastDropHost s d f polder reason) := by
  unfold State.lastDropHost
  try dsimp only
  with_reducible repeat' first
    | intro _ | assumption | apply State.wrs_keeps | dsimp only

end Sys2Proof.Machine
end

