-- ==== Sys2Proof/Laws/KeepMemory.lean ====
section
/-! SUPPORT. The operations of Memory.lean keep what the operations on registers and memory keep. -/

namespace Sys2Proof.Machine

set_option linter.all false
set_option linter.unusedTactic false
set_option linter.unreachableTactic false

variable {K : Grp → Bool} {P : State → Prop}

theorem State.holdReturn_keeps (s : State) (f : Fn) (v : Nat) (hs : Holds K P s) (hk_out : K .out = false) :
    Holds K P (State.holdReturn s f v) := by
  unfold State.holdReturn
  try dsimp only
  with_reducible repeat' first
    | intro _ | assumption | apply State.emit_keeps | dsimp only

theorem State.busyReturn_keeps (s : State) (f : Fn) (low : Nat) (hs : Holds K P s) (hk_out : K .out = false)
    (hk_regs : K .regs = false) :
    Holds K P (State.busyReturn s f low) := by
  unfold State.busyReturn
  try dsimp only
  with_reducible repeat' first
    | intro _ | assumption | apply State.holdReturn_keeps | apply State.bump_keeps | dsimp only

theorem State.acquire_keeps (s : State) (f : Fn) (a : Nat) (hs : Holds K P s) (hk_hold : K .hold = false)
    (hk_mem : K .mem = false) (hk_out : K .out = false) (hk_regs : K .regs = false) :
    Holds K P (State.acquire s f a) := by
  unfold State.acquire
  try dsimp only
  with_reducible repeat' first
    | intro _ | assumption | apply State.holdReturn_keeps | apply State.bump_keeps | apply State.mstore_keeps
    | simp only [Holds.upd, hk_hold, Bool.false_eq_true, false_implies, implies_true] | dsimp only

theorem State.holdKick_keeps (s : State) (a : Nat) (hs : Holds K P s) (hk_hold : K .hold = false) (hk_mem : K .mem = false)
    (hk_out : K .out = false) (hk_regs : K .regs = false) :
    Holds K P (State.holdKick s a) := by
  unfold State.holdKick
  try dsimp only
  with_reducible repeat' first
    | intro _ | assumption | apply State.acquire_keeps | apply Holds.ite
    | simp only [Holds.upd, hk_hold, Bool.false_eq_true, false_implies, implies_true] | split | dsimp only

theorem State.mwrite_keeps (s : State) (a : Nat) (bs : List Byte) (poisoned : Bool) (hs : Holds K P s)
    (hk_hold : K .hold = false) (hk_mem : K .mem = false) (hk_out : K .out = false) (hk_regs : K .regs = false) :
    Holds K P (State.mwrite s a bs poisoned) := by
  unfold State.mwrite
  try dsimp only
  with_reducible repeat' first
    | intro _ | assumption | apply State.holdKick_keeps | apply State.mstore_keeps | apply Holds.foldl | dsimp only

theorem State.holdServe_keeps (s : State) (f : Fn) (a : Nat) (deadline : Nat) (hs : Holds K P s) (hk_hold : K .hold = false)
    (hk_mem : K .mem = false) (hk_out : K .out = false) (hk_regs : K .regs = false) :
    Holds K P (State.holdServe s f a deadline) := by
  unfold State.holdServe
  try dsimp only
  with_reducible repeat' first
    | intro _ | assumption | apply State.busyReturn_keeps | apply State.bump_keeps | apply State.acquire_keeps | apply Holds.ite
    | simp only [Holds.upd, hk_hold, Bool.false_eq_true, false_implies, implies_true] | split | dsimp only

theorem State.readDone_keeps (s : State) (f : Option Fn) (l : List Byte) (p : Bool) (hs : Holds K P s)
    (hk_out : K .out = false) (hk_regs : K .regs = false) :
    Holds K P (State.readDone s f l p) := by
  unfold State.readDone
  try dsimp only
  with_reducible repeat' first
    | intro _ | assumption | apply State.emit_keeps | apply State.when_keeps | apply State.bump_keeps | exact HoldsS.none
    | apply HoldsS.some | refine Holds.of_some (by assumption) ?_ | split | dsimp only

theorem State.devPerform_keeps (s : State) (x : DevAccess) (hs : Holds K P s) (hk_hold : K .hold = false)
    (hk_mem : K .mem = false) (hk_out : K .out = false) (hk_regs : K .regs = false) :
    Holds K P (State.devPerform s x).1 := by
  unfold State.devPerform
  try dsimp only
  with_reducible repeat' first
    | intro _ | assumption | apply State.when_keeps | apply State.readDone_keeps | apply State.mwrite_keeps
    | apply State.holdServe_keeps | apply Holds.ite | apply Holds.ite1 | refine Holds.of_fst (by assumption) ?_ | split | dsimp only

theorem State.devLost_keeps (s : State) (x : DevAccess) (hs : Holds K P s) (hk_hold : K .hold = false)
    (hk_out : K .out = false) (hk_regs : K .regs = false) :
    Holds K P (State.devLost s x) := by
  unfold State.devLost
  try dsimp only
  with_reducible repeat' first
    | intro _ | assumption | apply State.bump_keeps | apply State.readDone_keeps
    | simp only [Holds.upd, hk_hold, Bool.false_eq_true, false_implies, implies_true] | split | dsimp only

theorem State.setDmem_keeps (s : State) (d : Die) (k : Nat) (c : Dmem) (hs : Holds K P s) (hk_dmem : K .dmem = false) :
    Holds K P (State.setDmem s d k c) := by
  unfold State.setDmem
  try dsimp only
  with_reducible repeat' first
   
    | (intro g x hg; cases g <;> first | exact absurd (hk_dmem.symm.trans hg) (by decide) | (with_unfolding_all exact dieSame_refl _ _) | (simp only [dieSame, and_self]))
    | intro _ | assumption | apply State.modDie_keeps | apply Holds.ite | split | dsimp only

theorem State.modHag_keeps (s : State) (d : Die) (f : Hag → Hag) (hs : Holds K P s) (hk_hag : K .hag = false) :
    Holds K P (State.modHag s d f) := by
  unfold State.modHag
  try dsimp only
  with_reducible repeat' first
   
    | (intro g x hg; cases g <;> first | exact absurd (hk_hag.symm.trans hg) (by decide) | (with_unfolding_all exact dieSame_refl _ _) | (simp only [dieSame, and_self]))
    | intro _ | assumption | apply State.modDie_keeps | dsimp only

theorem State.snoop_keeps (s : State) (line : Nat) (l : List (Fin 4)) (inv : Bool) (hs : Holds K P s)
    (hk_out : K .out = false) (hk_regs : K .regs = false) :
    Holds K P (State.snoop s line l inv) := by
  unfold State.snoop
  try dsimp only
  with_reducible repeat' first
    | intro _ | assumption | apply State.bump_keeps | apply State.emit_keeps | apply Holds.foldl | dsimp only

theorem State.hagGrant_keeps (s : State) (line : Nat) (r : HagReq) (k : Tracker) (hs : Holds K P s) (hk_hag : K .hag = false)
    (hk_out : K .out = false) (hk_regs : K .regs = false) :
    Holds K P (State.hagGrant s line r k) := by
  unfold State.hagGrant
  try dsimp only
  with_reducible repeat' first
    | intro _ | assumption | apply State.wr_keeps | apply State.when_keeps | apply State.bump_keeps | apply State.atLeast_keeps
    | apply State.emit_keeps | apply State.modHag_keeps | dsimp only

theorem State.devEnd_keeps (s : State) (x : DevAccess) (hs : Holds K P s) (hk_accesses : K .accesses = false) :
    Holds K P (State.devEnd s x).1 := by
  unfold State.devEnd
  try dsimp only
  with_reducible repeat' first
    | intro _ | assumption | apply Holds.ite | simp only [Holds.upd, hk_accesses, Bool.false_eq_true, false_implies, implies_true]
    | apply Holds.ite1 | refine Holds.of_fst (by assumption) ?_ | split | dsimp only

theorem State.devAct_keeps (s : State) (x : DevAccess) (hs : Holds K P s) (hk_accesses : K .accesses = false)
    (hk_hold : K .hold = false) (hk_mem : K .mem = false) (hk_out : K .out = false) (hk_regs : K .regs = false) :
    Holds K P (State.devAct s x).1 := by
  unfold State.devAct
  try dsimp only
  with_reducible repeat' first
    | intro _ | assumption | apply State.devPerform_keeps | apply State.devEnd_keeps | refine Holds.of_fst (by assumption) ?_
    | split | dsimp only

theorem State.devSubmit_keeps (s : State) (x : DevAccess) (hs : Holds K P s) (hk_accesses : K .accesses = false)
    (hk_dmem : K .dmem = false) (hk_hold : K .hold = false) (hk_mem : K .mem = false) (hk_out : K .out = false)
    (hk_regs : K .regs = false) :
    Holds K P (State.devSubmit s x).1 := by
  unfold State.devSubmit
  try dsimp only
  with_reducible repeat' first
    | intro _ | assumption | apply State.devEnd_keeps | apply State.devLost_keeps | apply State.devAct_keeps
    | apply State.setDmem_keeps | apply Holds.ite | apply Holds.ite1 | refine Holds.of_fst (by assumption) ?_ | split | dsimp only

theorem State.devStart_keeps (s : State) (x : DevAccess) (hs : Holds K P s) (hk_accesses : K .accesses = false)
    (hk_dmem : K .dmem = false) (hk_hag : K .hag = false) (hk_hold : K .hold = false) (hk_mem : K .mem = false)
    (hk_out : K .out = false) (hk_regs : K .regs = false) :
    Holds K P (State.devStart s x).1 := by
  unfold State.devStart
  try dsimp only
  with_reducible repeat' first
    | intro _ | assumption | apply State.modHag_keeps | apply State.devSubmit_keeps | apply Holds.ite | apply Holds.ite1
    | refine Holds.of_fst (by assumption) ?_ | split | dsimp only

theorem State.hagStart_keeps (s : State) (line : Nat) (r : HagReq) (hs : Holds K P s) (hk_hag : K .hag = false) :
    Holds K P (State.hagStart s line r).1 := by
  unfold State.hagStart
  try dsimp only
  with_reducible repeat' first
    | intro _ | assumption | apply State.modHag_keeps | apply Holds.ite | apply Holds.ite1 | refine Holds.of_fst (by assumption) ?_
    | split | dsimp only

theorem State.hagFree_keeps (s : State) (line : Nat) (k : Tracker) (hs : Holds K P s) (hk_hag : K .hag = false) :
    Holds K P (State.hagFree s line k).1 := by
  unfold State.hagFree
  try dsimp only
  with_reducible repeat' first
    | intro _ | assumption | apply State.modHag_keeps | dsimp only

theorem State.hagAwait_keeps (s : State) (line : Nat) (hs : Holds K P s) (hk_hag : K .hag = false) :
    Holds K P (State.hagAwait s line).1 := by
  unfold State.hagAwait
  try dsimp only
  with_reducible repeat' first
    | intro _ | assumption | apply State.modHag_keeps | dsimp only

theorem State.hagEvict_keeps (s : State) (line : Nat) (hs : Holds K P s) (hk_hag : K .hag = false) (hk_out : K .out = false)
    (hk_regs : K .regs = false) :
    Holds K P (State.hagEvict s line).1 := by
  unfold State.hagEvict
  try dsimp only
  with_reducible repeat' first
    | intro _ | assumption | apply State.hagAwait_keeps | apply State.modHag_keeps | apply State.bump_keeps
    | apply State.snoop_keeps | apply Holds.ite | apply Holds.ite1 | refine Holds.of_fst (by assumption) ?_ | split | dsimp only

theorem State.hagRecall_keeps (s : State) (line : Nat) (k : Tracker) (e : SfEntry) (l : List (Fin 4)) (inv : Bool)
    (hs : Holds K P s) (hk_hag : K .hag = false) (hk_out : K .out = false) (hk_regs : K .regs = false) :
    Holds K P (State.hagRecall s line k e l inv).1 := by
  unfold State.hagRecall
  try dsimp only
  with_reducible repeat' first
    | intro _ | assumption | apply State.modHag_keeps | apply State.snoop_keeps | apply Holds.ite | apply Holds.ite1 | split
    | dsimp only

theorem State.hagStep_keeps (s : State) (line : Nat) (hs : Holds K P s) (hk_accesses : K .accesses = false)
    (hk_dmem : K .dmem = false) (hk_hag : K .hag = false) (hk_hold : K .hold = false) (hk_mem : K .mem = false)
    (hk_out : K .out = false) (hk_regs : K .regs = false) :
    Holds K P (State.hagStep s line).1 := by
  unfold State.hagStep
  try dsimp only
  with_reducible repeat' first
    | intro _ | assumption | apply State.hagFree_keeps | apply State.devSubmit_keeps | apply State.modHag_keeps
    | apply State.hagRecall_keeps | apply State.hagEvict_keeps | apply State.hagGrant_keeps | apply Holds.ite | apply Holds.ite1
    | refine Holds.of_fst (by assumption) ?_ | split | dsimp only

theorem State.dmemServe_keeps (s : State) (d : Die) (k : Nat) (hs : Holds K P s) (hk_accesses : K .accesses = false)
    (hk_dmem : K .dmem = false) (hk_hold : K .hold = false) (hk_mem : K .mem = false) (hk_out : K .out = false)
    (hk_regs : K .regs = false) :
    Holds K P (State.dmemServe s d k).1 := by
  unfold State.dmemServe
  try dsimp only
  with_reducible repeat' first
    | intro _ | assumption | apply State.devEnd_keeps | apply State.devLost_keeps | apply State.setDmem_keeps
    | apply State.devAct_keeps | apply Holds.ite | apply Holds.ite1 | refine Holds.of_fst (by assumption) ?_ | split | dsimp only

theorem State.devDo_keeps (s : State) (a : DevWork) (hs : Holds K P s) (hk_accesses : K .accesses = false)
    (hk_dmem : K .dmem = false) (hk_hag : K .hag = false) (hk_hold : K .hold = false) (hk_mem : K .mem = false)
    (hk_out : K .out = false) (hk_regs : K .regs = false) :
    Holds K P (State.devDo s a).1 := by
  unfold State.devDo
  try dsimp only
  with_reducible repeat' first
    | intro _ | assumption | apply State.devStart_keeps | apply State.hagStart_keeps | apply State.hagStep_keeps
    | apply State.dmemServe_keeps | refine Holds.of_fst (by assumption) ?_ | split | dsimp only

theorem State.devRun_keeps (a : Nat) (a' : List DevWork) (a'' : State) (ha'' : Holds K P a'')
    (hk_accesses : K .accesses = false) (hk_dmem : K .dmem = false) (hk_hag : K .hag = false) (hk_hold : K .hold = false)
    (hk_mem : K .mem = false) (hk_out : K .out = false) (hk_regs : K .regs = false) :
    Holds K P (State.devRun a a' a'') := by
  induction a generalizing a' a'' with
  | zero => exact ha''
  | succ n ih =>
    cases a' with
    | nil => exact ha''
    | cons w l =>
      exact ih _ _ (State.devDo_keeps a'' w ha'' hk_accesses hk_dmem hk_hag hk_hold hk_mem hk_out hk_regs)

theorem State.devGo_keeps (s : State) (n : Nat) (w : List DevWork) (hs : Holds K P s) (hk_accesses : K .accesses = false)
    (hk_dmem : K .dmem = false) (hk_hag : K .hag = false) (hk_hold : K .hold = false) (hk_mem : K .mem = false)
    (hk_out : K .out = false) (hk_regs : K .regs = false) :
    Holds K P (State.devGo s n w) := by
  unfold State.devGo
  try dsimp only
  with_reducible repeat' first
    | intro _ | assumption | apply State.devRun_keeps | dsimp only

theorem State.hagRun_keeps (s : State) (line : Nat) (hs : Holds K P s) (hk_accesses : K .accesses = false)
    (hk_dmem : K .dmem = false) (hk_hag : K .hag = false) (hk_hold : K .hold = false) (hk_mem : K .mem = false)
    (hk_out : K .out = false) (hk_regs : K .regs = false) :
    Holds K P (State.hagRun s line) := by
  unfold State.hagRun
  try dsimp only
  with_reducible repeat' first
    | intro _ | assumption | apply State.devGo_keeps | dsimp only

theorem State.devAccess_keeps (s : State) (x : DevAccess) (hs : Holds K P s) (hk_accesses : K .accesses = false)
    (hk_dmem : K .dmem = false) (hk_hag : K .hag = false) (hk_hold : K .hold = false) (hk_mem : K .mem = false)
    (hk_out : K .out = false) (hk_regs : K .regs = false) :
    Holds K P (State.devAccess s x) := by
  unfold State.devAccess
  try dsimp only
  with_reducible repeat' first
    | intro _ | assumption | apply State.devGo_keeps | dsimp only

theorem State.hostAccess_keeps (s : State) (x : DevAccess) (hs : Holds K P s) (hk_accesses : K .accesses = false)
    (hk_dmem : K .dmem = false) (hk_hag : K .hag = false) (hk_hold : K .hold = false) (hk_mem : K .mem = false)
    (hk_out : K .out = false) (hk_regs : K .regs = false) :
    Holds K P (State.hostAccess s x) := by
  unfold State.hostAccess
  try dsimp only
  with_reducible repeat' first
    | intro _ | assumption | apply State.devAccess_keeps | apply Holds.ite
    | simp only [Holds.upd, hk_accesses, Bool.false_eq_true, false_implies, implies_true] | split | dsimp only

theorem State.hagRequest_keeps (s : State) (hp : Fin 4) (line : Nat) (own : Bool) (hs : Holds K P s)
    (hk_accesses : K .accesses = false) (hk_dmem : K .dmem = false) (hk_hag : K .hag = false) (hk_hold : K .hold = false)
    (hk_mem : K .mem = false) (hk_out : K .out = false) (hk_regs : K .regs = false) :
    Holds K P (State.hagRequest s hp line own) := by
  unfold State.hagRequest
  try dsimp only
  with_reducible repeat' first
    | intro _ | assumption | apply State.devGo_keeps | dsimp only

theorem State.hagRetry_keeps (s : State) (d : Die) (hs : Holds K P s) (hk_accesses : K .accesses = false)
    (hk_dmem : K .dmem = false) (hk_hag : K .hag = false) (hk_hold : K .hold = false) (hk_mem : K .mem = false)
    (hk_out : K .out = false) (hk_regs : K .regs = false) :
    Holds K P (State.hagRetry s d) := by
  unfold State.hagRetry
  try dsimp only
  with_reducible repeat' first
    | intro _ | assumption | apply State.devGo_keeps | apply State.modHag_keeps | dsimp only

theorem State.birsp_keeps (s : State) (hp : Fin 4) (line : Nat) (hs : Holds K P s) (hk_accesses : K .accesses = false)
    (hk_dmem : K .dmem = false) (hk_hag : K .hag = false) (hk_hold : K .hold = false) (hk_mem : K .mem = false)
    (hk_out : K .out = false) (hk_regs : K .regs = false) :
    Holds K P (State.birsp s hp line) := by
  unfold State.birsp
  try dsimp only
  with_reducible repeat' first
    | intro _ | assumption | apply State.hagRun_keeps | apply State.modHag_keeps | apply Holds.ite | split | dsimp only

theorem State.writeback_keeps (s : State) (hp : Fin 4) (line : Nat) (data : List Byte) (poison : Bool) (hs : Holds K P s)
    (hk_accesses : K .accesses = false) (hk_dmem : K .dmem = false) (hk_hag : K .hag = false) (hk_hold : K .hold = false)
    (hk_mem : K .mem = false) (hk_out : K .out = false) (hk_regs : K .regs = false) :
    Holds K P (State.writeback s hp line data poison) := by
  unfold State.writeback
  try dsimp only
  with_reducible repeat' first
    | intro _ | assumption | apply State.modHag_keeps | apply State.mwrite_keeps | apply State.hagRetry_keeps
    | apply State.hagRun_keeps | apply State.emit_keeps | dsimp only

theorem State.dmemResume_keeps (s : State) (d : Die) (hs : Holds K P s) (hk_accesses : K .accesses = false)
    (hk_dmem : K .dmem = false) (hk_hag : K .hag = false) (hk_hold : K .hold = false) (hk_mem : K .mem = false)
    (hk_out : K .out = false) (hk_regs : K .regs = false) :
    Holds K P (State.dmemResume s d) := by
  unfold State.dmemResume
  try dsimp only
  with_reducible repeat' first
    | intro _ | assumption | apply State.devGo_keeps | dsimp only

theorem State.windowViolation_keeps (s : State) (f : Fn) (hs : Holds K P s) (hk_regs : K .regs = false) :
    Holds K P (State.windowViolation s f) := by
  unfold State.windowViolation
  try dsimp only
  with_reducible repeat' first
    | intro _ | assumption | apply State.lastDropHost_keeps | apply State.bump_keeps | dsimp only

end Sys2Proof.Machine
end

