-- ==== Sys2Proof/Laws/KeepHostPorts.lean ====
section
/-! SUPPORT. The operations of HostPorts.lean keep what the operations on registers and memory keep. -/

namespace Sys2Proof.Machine

set_option linter.all false
set_option linter.unusedTactic false
set_option linter.unreachableTactic false

variable {K : Grp → Bool} {P : State → Prop}

theorem State.barAccess_keeps (s : State) (f : Fn) (ro : Bool) (addr : Nat) (k : DevKind) (hs : Holds K P s)
    (hk_accesses : K .accesses = false) (hk_dmem : K .dmem = false) (hk_hag : K .hag = false) (hk_hold : K .hold = false)
    (hk_mem : K .mem = false) (hk_out : K .out = false) (hk_regs : K .regs = false) :
    Holds K P (State.barAccess s f ro addr k) := by
  unfold State.barAccess
  try dsimp only
  with_reducible repeat' first
    | intro _ | assumption | apply State.hostAccess_keeps | dsimp only

theorem execBar2Read_keeps (f : Fn) (offset : BitVec 40) (r : BarRead) (s : State) (hs : Holds K P s)
    (hk_accesses : K .accesses = false) (hk_dmem : K .dmem = false) (hk_hag : K .hag = false) (hk_hold : K .hold = false)
    (hk_mem : K .mem = false) (hk_out : K .out = false) (hk_regs : K .regs = false) :
    HoldsO K P (execBar2Read f offset r s) := by
  unfold execBar2Read
  try dsimp only
  with_reducible repeat' first
    | intro _ | assumption | apply State.barAccess_keeps | apply State.hpCount_keeps | apply State.emit_keeps
    | apply State.windowViolation_keeps | apply HoldsO.next | split | dsimp only

theorem State.poisonIn_keeps (s : State) (f : Fn) (hs : Holds K P s) (hk_out : K .out = false) (hk_regs : K .regs = false) :
    Holds K P (State.poisonIn s f) := by
  unfold State.poisonIn
  try dsimp only
  with_reducible repeat' first
    | intro _ | assumption | apply State.emit_keeps | apply State.bump_keeps | dsimp only

theorem execBar2Write_keeps (f : Fn) (offset : BitVec 40) (data : List Byte) (w : WriteAttr) (s : State)
    (hs : Holds K P s) (hk_accesses : K .accesses = false) (hk_dmem : K .dmem = false) (hk_hag : K .hag = false)
    (hk_hold : K .hold = false) (hk_mem : K .mem = false) (hk_out : K .out = false) (hk_regs : K .regs = false) :
    HoldsO K P (execBar2Write f offset data w s) := by
  unfold execBar2Write
  try dsimp only
  with_reducible repeat' first
    | intro _ | assumption | apply State.barAccess_keeps | apply State.hpCount_keeps | apply State.when_keeps
    | apply State.poisonIn_keeps | apply State.windowViolation_keeps | apply HoldsO.next | split | dsimp only

theorem execHostAtomicop_keeps (f : Fn) (offset : BitVec 40) (kind : AtomicKind) (size : Nat) (a : BitVec 128)
    (b : BitVec 128) (s : State) (hs : Holds K P s) (hk_accesses : K .accesses = false) (hk_dmem : K .dmem = false)
    (hk_hag : K .hag = false) (hk_hold : K .hold = false) (hk_mem : K .mem = false) (hk_out : K .out = false)
    (hk_regs : K .regs = false) :
    HoldsO K P (execHostAtomicop f offset kind size a b s) := by
  unfold execHostAtomicop
  try dsimp only
  with_reducible repeat' first
    | intro _ | assumption | apply State.barAccess_keeps | apply State.emit_keeps | apply State.windowViolation_keeps
    | apply Holds.ite | apply HoldsO.next | split | dsimp only

theorem execHoldRead_keeps (f : Fn) (offset : BitVec 40) (len : Nat) (s : State) (hs : Holds K P s)
    (hk_accesses : K .accesses = false) (hk_dmem : K .dmem = false) (hk_hag : K .hag = false) (hk_hold : K .hold = false)
    (hk_mem : K .mem = false) (hk_out : K .out = false) (hk_regs : K .regs = false) :
    HoldsO K P (execHoldRead f offset len s) := by
  unfold execHoldRead
  try dsimp only
  with_reducible repeat' first
    | intro _ | assumption | apply State.busyReturn_keeps | apply State.windowViolation_keeps | apply State.bump_keeps
    | apply State.barAccess_keeps | apply State.hpCount_keeps | apply Holds.ite | apply HoldsO.next | split | dsimp only

theorem execHoldTimeout_keeps (f : Fn) (addr : BitVec 40) (s : State) (hs : Holds K P s) (hk_hold : K .hold = false)
    (hk_out : K .out = false) (hk_regs : K .regs = false) :
    HoldsO K P (execHoldTimeout f addr s) := by
  unfold execHoldTimeout
  try dsimp only
  with_reducible repeat' first
    | intro _ | assumption | apply State.busyReturn_keeps | apply State.bump_keeps
    | simp only [Holds.upd, hk_hold, Bool.false_eq_true, false_implies, implies_true] | apply HoldsO.next | split | dsimp only

theorem execHoldRecallTimer_keeps (addr : BitVec 40) (s : State) (hs : Holds K P s) (hk_hag : K .hag = false)
    (hk_hold : K .hold = false) (hk_out : K .out = false) (hk_regs : K .regs = false) :
    HoldsO K P (execHoldRecallTimer addr s) := by
  unfold execHoldRecallTimer
  try dsimp only
  with_reducible repeat' first
    | intro _ | assumption | apply State.modHag_keeps | apply State.snoop_keeps | apply Holds.ite
    | simp only [Holds.upd, hk_hold, Bool.false_eq_true, false_implies, implies_true] | apply HoldsO.next | split | dsimp only

theorem execHdmCommit_keeps (h_ : Fin 4) (s : State) (hs : Holds K P s) (hk_ports : K .ports = false)
    (hk_regs : K .regs = false) :
    HoldsO K P (execHdmCommit h_ s) := by
  unfold execHdmCommit
  try dsimp only
  with_reducible repeat' first
    | intro _ | assumption | apply State.modHp_keeps | apply State.wr_keeps | apply Holds.ite | apply Holds.foldl
    | apply HoldsO.next | split | dsimp only

theorem execHdmAccess_keeps (h_ : Fin 4) (addr : BitVec 40) (write : Option BusData) (len : Nat)
    (s : State) (hs : Holds K P s) (hk_accesses : K .accesses = false) (hk_dmem : K .dmem = false) (hk_hag : K .hag = false)
    (hk_hold : K .hold = false) (hk_mem : K .mem = false) (hk_out : K .out = false) (hk_regs : K .regs = false) :
    HoldsO K P (execHdmAccess h_ addr write len s) := by
  unfold execHdmAccess
  try dsimp only
  with_reducible repeat' first
    | intro _ | assumption | apply State.when_keeps | apply State.windowViolation_keeps | apply State.emit_keeps
    | apply State.hostAccess_keeps | apply State.poisonIn_keeps | apply Holds.ite | apply HoldsO.next | exact HoldsS.none
    | apply HoldsS.some | refine Holds.of_some (by assumption) ?_ | split | dsimp only

theorem State.cxlLine_keeps (s : State) (h_ : Fin 4) (addr : BitVec 40) (act : Nat → State → State) (hs : Holds K P s)
    (hact : ∀ x0 x1, Holds K P x1 → Holds K P (act x0 x1)) :
    Holds K P (State.cxlLine s h_ addr act) := by
  unfold State.cxlLine
  try dsimp only
  with_reducible repeat' first
    | intro _ | assumption | apply hact | apply Holds.ite | split | dsimp only

theorem execMemrdShared_keeps (h_ : Fin 4) (addr : BitVec 40) (s : State) (hs : Holds K P s)
    (hk_accesses : K .accesses = false) (hk_dmem : K .dmem = false) (hk_hag : K .hag = false) (hk_hold : K .hold = false)
    (hk_mem : K .mem = false) (hk_out : K .out = false) (hk_regs : K .regs = false) :
    HoldsO K P (execMemrdShared h_ addr s) := by
  unfold execMemrdShared
  try dsimp only
  with_reducible repeat' first
    | intro _ | assumption | apply State.cxlLine_keeps | apply State.hagRequest_keeps | apply HoldsO.next | dsimp only

theorem execMemrdOwnership_keeps (h_ : Fin 4) (addr : BitVec 40) (s : State) (hs : Holds K P s)
    (hk_accesses : K .accesses = false) (hk_dmem : K .dmem = false) (hk_hag : K .hag = false) (hk_hold : K .hold = false)
    (hk_mem : K .mem = false) (hk_out : K .out = false) (hk_regs : K .regs = false) :
    HoldsO K P (execMemrdOwnership h_ addr s) := by
  unfold execMemrdOwnership
  try dsimp only
  with_reducible repeat' first
    | intro _ | assumption | apply State.cxlLine_keeps | apply State.hagRequest_keeps | apply HoldsO.next | dsimp only

theorem execMemwrWriteback_keeps (h_ : Fin 4) (addr : BitVec 40) (w : LineData) (s : State)
    (hs : Holds K P s) (hk_accesses : K .accesses = false) (hk_dmem : K .dmem = false) (hk_hag : K .hag = false)
    (hk_hold : K .hold = false) (hk_mem : K .mem = false) (hk_out : K .out = false) (hk_regs : K .regs = false) :
    HoldsO K P (execMemwrWriteback h_ addr w s) := by
  unfold execMemwrWriteback
  try dsimp only
  with_reducible repeat' first
    | intro _ | assumption | apply State.cxlLine_keeps | apply State.writeback_keeps | apply State.when_keeps
    | apply State.poisonIn_keeps | apply HoldsO.next | dsimp only

theorem execBirsp_keeps (h_ : Fin 4) (addr : BitVec 40) (s : State) (hs : Holds K P s) (hk_accesses : K .accesses = false)
    (hk_dmem : K .dmem = false) (hk_hag : K .hag = false) (hk_hold : K .hold = false) (hk_mem : K .mem = false)
    (hk_out : K .out = false) (hk_regs : K .regs = false) :
    HoldsO K P (execBirsp h_ addr s) := by
  unfold execBirsp
  try dsimp only
  with_reducible repeat' first
    | intro _ | assumption | apply State.cxlLine_keeps | apply State.birsp_keeps | apply HoldsO.next | dsimp only

theorem execHagDwellExpiry_keeps (addr : BitVec 40) (s : State) (hs : Holds K P s) (hk_accesses : K .accesses = false)
    (hk_dmem : K .dmem = false) (hk_hag : K .hag = false) (hk_hold : K .hold = false) (hk_mem : K .mem = false)
    (hk_out : K .out = false) (hk_regs : K .regs = false) :
    HoldsO K P (execHagDwellExpiry addr s) := by
  unfold execHagDwellExpiry
  try dsimp only
  with_reducible repeat' first
    | intro _ | assumption | apply State.hagRetry_keeps | apply State.hagRun_keeps | apply HoldsO.next | dsimp only

theorem execNumvfsWrite_keeps (h_ : Fin 4) (n : BitVec 16) (s : State) (hs : Holds K P s) (hk_ports : K .ports = false) :
    HoldsO K P (execNumvfsWrite h_ n s) := by
  unfold execNumvfsWrite
  try dsimp only
  with_reducible repeat' first
    | intro _ | assumption | apply State.modHp_keeps | apply Holds.ite | apply HoldsO.next | split | dsimp only

theorem State.portBack_keeps (s : State) (h_ : Fin 4) (hs : Holds K P s) (hk_faults : K .faults = false)
    (hk_regs : K .regs = false) :
    Holds K P (State.portBack s h_) := by
  unfold State.portBack
  try dsimp only
  with_reducible repeat' first
    | intro _ | assumption | apply State.wr_keeps
    | simp only [Holds.upd, hk_faults, Bool.false_eq_true, false_implies, implies_true] | split | dsimp only

theorem execHostLinkUp_keeps (h_ : Fin 4) (one : Bool) (rate : Fin 8) (width : Fin 17) (flit : Bool) (s : State) (hs : Holds K P s)
    (hk_faults : K .faults = false) (hk_ports : K .ports = false) (hk_regs : K .regs = false) :
    HoldsO K P (execHostLinkUp h_ one rate width flit s) := by
  unfold execHostLinkUp
  try dsimp only
  with_reducible repeat' first
    | intro _ | assumption | apply State.portBack_keeps | apply State.modHp_keeps | apply Holds.ite | apply HoldsO.next | split
    | dsimp only

theorem execHostLinkDown_keeps (h_ : Fin 4) (one : Bool) (s : State) (hs : Holds K P s) (hk_ports : K .ports = false) :
    HoldsO K P (execHostLinkDown h_ one s) := by
  unfold execHostLinkDown
  try dsimp only
  with_reducible repeat' first
    | intro _ | assumption | apply State.modHp_keeps | apply Holds.ite | apply HoldsO.next | split | dsimp only

theorem State.spdm_keeps (s : State) (w : RespPort) (ans : Responder → Responder × SpdmAnswer) (hs : Holds K P s)
    (hk_out : K .out = false) (hk_ports : K .ports = false) (hk_regs : K .regs = false) (hk_svc : K .svc = false) :
    Holds K P (State.spdm s w ans) := by
  unfold State.spdm
  try dsimp only
  with_reducible repeat' first
    | intro _ | assumption | apply State.emit_keeps | apply State.modHp_keeps | apply State.wr_keeps | apply Holds.ite
    | simp only [Holds.upd, hk_svc, Bool.false_eq_true, false_implies, implies_true] | apply Holds.ite1
    | refine Holds.of_fst (by assumption) ?_ | split | dsimp only

theorem State.oobReject_keeps (s : State) (w : RespPort) (bad : Bool) (hs : Holds K P s) (hk_regs : K .regs = false) :
    Holds K P (State.oobReject s w bad) := by
  unfold State.oobReject
  try dsimp only
  with_reducible repeat' first
    | intro _ | assumption | apply State.when_keeps | apply State.bump_keeps | dsimp only

theorem execGetVersion_keeps (w : RespPort) (s : State) (hs : Holds K P s) (hk_out : K .out = false)
    (hk_ports : K .ports = false) (hk_regs : K .regs = false) (hk_svc : K .svc = false) :
    HoldsO K P (execGetVersion w s) := by
  unfold execGetVersion
  try dsimp only
  with_reducible repeat' first
    | intro _ | assumption | apply State.spdm_keeps | apply HoldsO.next | dsimp only

theorem execGetCapabilities_keeps (w : RespPort) (s : State) (hs : Holds K P s) (hk_out : K .out = false)
    (hk_ports : K .ports = false) (hk_regs : K .regs = false) (hk_svc : K .svc = false) :
    HoldsO K P (execGetCapabilities w s) := by
  unfold execGetCapabilities
  try dsimp only
  with_reducible repeat' first
    | intro _ | assumption | apply State.spdm_keeps | apply HoldsO.next | dsimp only

theorem execNegotiateAlgorithms_keeps (w : RespPort) (s : State) (hs : Holds K P s) (hk_out : K .out = false)
    (hk_ports : K .ports = false) (hk_regs : K .regs = false) (hk_svc : K .svc = false) :
    HoldsO K P (execNegotiateAlgorithms w s) := by
  unfold execNegotiateAlgorithms
  try dsimp only
  with_reducible repeat' first
    | intro _ | assumption | apply State.spdm_keeps | apply HoldsO.next | dsimp only

theorem execGetDigests_keeps (w : RespPort) (s : State) (hs : Holds K P s) (hk_out : K .out = false)
    (hk_ports : K .ports = false) (hk_regs : K .regs = false) (hk_svc : K .svc = false) :
    HoldsO K P (execGetDigests w s) := by
  unfold execGetDigests
  try dsimp only
  with_reducible repeat' first
    | intro _ | assumption | apply State.spdm_keeps | apply HoldsO.next | dsimp only

theorem execGetCertificate_keeps (w : RespPort) (slot : Fin 2) (s : State) (hs : Holds K P s) (hk_out : K .out = false)
    (hk_ports : K .ports = false) (hk_regs : K .regs = false) (hk_svc : K .svc = false) :
    HoldsO K P (execGetCertificate w slot s) := by
  unfold execGetCertificate
  try dsimp only
  with_reducible repeat' first
    | intro _ | assumption | apply State.spdm_keeps | apply HoldsO.next | dsimp only

theorem execChallenge_keeps (w : RespPort) (nonce : BitVec 256) (s : State) (hs : Holds K P s) (hk_out : K .out = false)
    (hk_ports : K .ports = false) (hk_regs : K .regs = false) (hk_svc : K .svc = false) :
    HoldsO K P (execChallenge w nonce s) := by
  unfold execChallenge
  try dsimp only
  with_reducible repeat' first
    | intro _ | assumption | apply State.spdm_keeps | apply HoldsO.next | dsimp only

theorem execGetMeasurements_keeps (w : RespPort) (s : State) (hs : Holds K P s) (hk_out : K .out = false)
    (hk_ports : K .ports = false) (hk_regs : K .regs = false) (hk_svc : K .svc = false) :
    HoldsO K P (execGetMeasurements w s) := by
  unfold execGetMeasurements
  try dsimp only
  with_reducible repeat' first
    | intro _ | assumption | apply State.spdm_keeps | apply HoldsO.next | dsimp only

theorem execKeyExchange_keeps (w : RespPort) (id : W32) (s : State) (hs : Holds K P s) (hk_out : K .out = false)
    (hk_ports : K .ports = false) (hk_regs : K .regs = false) (hk_svc : K .svc = false) :
    HoldsO K P (execKeyExchange w id s) := by
  unfold execKeyExchange
  try dsimp only
  with_reducible repeat' first
    | intro _ | assumption | apply State.spdm_keeps | apply State.oobReject_keeps | apply Holds.ite | apply HoldsO.next
    | apply Holds.ite1 | split | dsimp only

theorem execFinish_keeps (w : RespPort) (id : W32) (x : BitVec 384) (y : BitVec 384) (s : State) (hs : Holds K P s)
    (hk_out : K .out = false) (hk_ports : K .ports = false) (hk_regs : K .regs = false) (hk_svc : K .svc = false) :
    HoldsO K P (execFinish w id x y s) := by
  unfold execFinish
  try dsimp only
  with_reducible repeat' first
    | intro _ | assumption | apply State.spdm_keeps | apply State.oobReject_keeps | apply Holds.ite | apply HoldsO.next
    | apply Holds.ite1 | split | dsimp only

theorem execHeartbeat_keeps (w : RespPort) (id : W32) (s : State) (hs : Holds K P s) (hk_out : K .out = false)
    (hk_ports : K .ports = false) (hk_regs : K .regs = false) (hk_svc : K .svc = false) :
    HoldsO K P (execHeartbeat w id s) := by
  unfold execHeartbeat
  try dsimp only
  with_reducible repeat' first
    | intro _ | assumption | apply State.spdm_keeps | apply HoldsO.next | dsimp only

theorem execKeyUpdate_keeps (w : RespPort) (id : W32) (s : State) (hs : Holds K P s) (hk_out : K .out = false)
    (hk_ports : K .ports = false) (hk_regs : K .regs = false) (hk_svc : K .svc = false) :
    HoldsO K P (execKeyUpdate w id s) := by
  unfold execKeyUpdate
  try dsimp only
  with_reducible repeat' first
    | intro _ | assumption | apply State.spdm_keeps | apply HoldsO.next | dsimp only

theorem execEndSession_keeps (w : RespPort) (id : W32) (s : State) (hs : Holds K P s) (hk_out : K .out = false)
    (hk_ports : K .ports = false) (hk_regs : K .regs = false) (hk_svc : K .svc = false) :
    HoldsO K P (execEndSession w id s) := by
  unfold execEndSession
  try dsimp only
  with_reducible repeat' first
    | intro _ | assumption | apply State.spdm_keeps | apply HoldsO.next | dsimp only

theorem execIdeKm_keeps (h_ : Fin 4) (sec : Bool) (id : W32) (k : IdeKey) (s : State)
    (hs : Holds K P s) (hk_out : K .out = false) (hk_ports : K .ports = false) :
    HoldsO K P (execIdeKm h_ sec id k s) := by
  unfold execIdeKm
  try dsimp only
  with_reducible repeat' first
    | intro _ | assumption | apply State.emit_keeps | apply State.modHp_keeps | apply Holds.ite | apply HoldsO.next | split
    | dsimp only

end Sys2Proof.Machine
end

