-- ==== Sys2Proof/Laws/KeepWorkQueues.lean ====
section
/-! SUPPORT. The operations of WorkQueues.lean keep what the operations on registers and memory keep. -/

namespace Sys2Proof.Machine

set_option linter.all false
set_option linter.unusedTactic false
set_option linter.unreachableTactic false

variable {K : Grp → Bool} {P : State → Prop}

theorem State.ingressDrop_keeps (s : State) (f : Fn) (hs : Holds K P s) (hk_regs : K .regs = false) :
    Holds K P (State.ingressDrop s f) := by
  unfold State.ingressDrop
  try dsimp only
  with_reducible repeat' first
    | intro _ | assumption | apply State.lastDropHost_keeps | apply State.bump_keeps | dsimp only

theorem State.ingress_keeps (s : State) (f : Fn) (q : Fin 128) (act : State → State) (hs : Holds K P s)
    (hact : ∀ x0, Holds K P x0 → Holds K P (act x0)) (hk_regs : K .regs = false) :
    Holds K P (State.ingress s f q act) := by
  unfold State.ingress
  try dsimp only
  with_reducible repeat' first
    | intro _ | assumption | apply State.ingressDrop_keeps | apply hact | apply Holds.ite | split | dsimp only

theorem State.setQueue_keeps (s : State) (k : Nat) (q : WQueue) (hs : Holds K P s) (hk_queues : K .queues = false) :
    Holds K P (State.setQueue s k q) := by
  unfold State.setQueue
  try dsimp only
  with_reducible repeat' first
    | intro _ | assumption | simp only [Holds.upd, hk_queues, Bool.false_eq_true, false_implies, implies_true] | dsimp only

theorem State.modQueue_keeps (s : State) (k : Nat) (f : WQueue → WQueue) (hs : Holds K P s) (hk_queues : K .queues = false) :
    Holds K P (State.modQueue s k f) := by
  unfold State.modQueue
  try dsimp only
  with_reducible repeat' first
    | intro _ | assumption | simp only [Holds.upd, hk_queues, Bool.false_eq_true, false_implies, implies_true] | dsimp only

theorem State.modRing_keeps (s : State) (k : Nat) (f : CRing → CRing) (hs : Holds K P s) (hk_rings : K .rings = false) :
    Holds K P (State.modRing s k f) := by
  unfold State.modRing
  try dsimp only
  with_reducible repeat' first
    | intro _ | assumption | simp only [Holds.upd, hk_rings, Bool.false_eq_true, false_implies, implies_true] | dsimp only

theorem State.modOp_keeps (s : State) (i : Nat) (f : WOp → WOp) (hs : Holds K P s) (hk_ops : K .ops = false) :
    Holds K P (State.modOp s i f) := by
  unfold State.modOp
  try dsimp only
  with_reducible repeat' first
    | intro _ | assumption | simp only [Holds.upd, hk_ops, Bool.false_eq_true, false_implies, implies_true] | dsimp only

theorem State.setQc_keeps (s : State) (sk : Nat) (p : QcPage) (hs : Holds K P s) (hk_control : K .control = false) :
    Holds K P (State.setQc s sk p) := by
  unfold State.setQc
  try dsimp only
  with_reducible repeat' first
    | intro _ | assumption | simp only [Holds.upd, hk_control, Bool.false_eq_true, false_implies, implies_true] | dsimp only

theorem State.writeBack_keeps (s : State) (f : Fn) (addr : Nat) (from_ : Nat) (n : Nat) (soft : List Byte) (hs : Holds K P s)
    (hk_free : K .free = false) (hk_out : K .out = false) (hk_regs : K .regs = false) :
    Holds K P (State.writeBack s f addr from_ n soft) := by
  unfold State.writeBack
  try dsimp only
  with_reducible repeat' first
    | intro _ | assumption | apply State.draw_keeps | apply State.hwrite_keeps | dsimp only

theorem State.ctrEvict_keeps (s : State) (d : Die) (keep : Nat) (hs : Holds K P s) (hk_counters : K .counters = false)
    (hk_free : K .free = false) (hk_out : K .out = false) (hk_regs : K .regs = false) :
    Holds K P (State.ctrEvict s d keep) := by
  unfold State.ctrEvict
  try dsimp only
  with_reducible repeat' first
    | intro _ | assumption | apply State.writeBack_keeps | apply Holds.ite
    | simp only [Holds.upd, hk_counters, Bool.false_eq_true, false_implies, implies_true] | split | dsimp only

theorem State.touchCtr_keeps (s : State) (k : Nat) (hs : Holds K P s) (hk_counters : K .counters = false)
    (hk_free : K .free = false) (hk_out : K .out = false) (hk_regs : K .regs = false) :
    Holds K P (State.touchCtr s k) := by
  unfold State.touchCtr
  try dsimp only
  with_reducible repeat' first
    | intro _ | assumption | apply State.when_keeps | apply State.hread_keeps | apply State.ctrEvict_keeps | apply Holds.ite
    | simp only [Holds.upd, hk_counters, Bool.false_eq_true, false_implies, implies_true] | split | dsimp only

theorem State.ctrUpdate_keeps (s : State) (k : Nat) (f : Counter → Counter) (hs : Holds K P s)
    (hk_counters : K .counters = false) (hk_free : K .free = false) (hk_out : K .out = false) (hk_regs : K .regs = false) :
    Holds K P (State.ctrUpdate s k f) := by
  unfold State.ctrUpdate
  try dsimp only
  with_reducible repeat' first
    | intro _ | assumption | apply State.touchCtr_keeps | apply Holds.ite
    | simp only [Holds.upd, hk_counters, Bool.false_eq_true, false_implies, implies_true] | split | dsimp only

theorem State.ctrAdd_keeps (s : State) (k : Nat) (n : Nat) (hs : Holds K P s) (hk_counters : K .counters = false)
    (hk_free : K .free = false) (hk_out : K .out = false) (hk_regs : K .regs = false) :
    Holds K P (State.ctrAdd s k n) := by
  unfold State.ctrAdd
  try dsimp only
  with_reducible repeat' first
    | intro _ | assumption | apply State.ctrUpdate_keeps | dsimp only

theorem State.ctrComplete_keeps (s : State) (k : Nat) (status : Nat) (bytes : Nat) (hs : Holds K P s)
    (hk_counters : K .counters = false) (hk_free : K .free = false) (hk_out : K .out = false) (hk_regs : K .regs = false) :
    Holds K P (State.ctrComplete s k status bytes) := by
  unfold State.ctrComplete
  try dsimp only
  with_reducible repeat' first
    | intro _ | assumption | apply State.ctrUpdate_keeps | apply Holds.ite | split | dsimp only

theorem State.ringEvict_keeps (s : State) (rk : Nat) (hs : Holds K P s) (hk_free : K .free = false) (hk_out : K .out = false)
    (hk_regs : K .regs = false) (hk_rings : K .rings = false) :
    Holds K P (State.ringEvict s rk) := by
  unfold State.ringEvict
  try dsimp only
  with_reducible repeat' first
    | intro _ | assumption | apply State.writeBack_keeps | apply State.modRing_keeps | apply Holds.ite | split | dsimp only

theorem State.qscEvict_keeps (s : State) (d : Die) (keep : Nat) (hs : Holds K P s) (hk_free : K .free = false)
    (hk_out : K .out = false) (hk_queues : K .queues = false) (hk_regs : K .regs = false) (hk_rings : K .rings = false) :
    Holds K P (State.qscEvict s d keep) := by
  unfold State.qscEvict
  try dsimp only
  with_reducible repeat' first
    | intro _ | assumption | apply State.ringEvict_keeps | apply State.writeBack_keeps | apply State.modQueue_keeps
    | apply Holds.ite | split | dsimp only

theorem State.touchRing_keeps (s : State) (rk : Nat) (hs : Holds K P s) (hk_out : K .out = false) (hk_regs : K .regs = false)
    (hk_rings : K .rings = false) :
    Holds K P (State.touchRing s rk) := by
  unfold State.touchRing
  try dsimp only
  with_reducible repeat' first
    | intro _ | assumption | apply State.modRing_keeps | apply State.hread_keeps | apply Holds.ite | split | dsimp only

theorem State.touchQueue_keeps (s : State) (k : Nat) (hs : Holds K P s) (hk_free : K .free = false) (hk_out : K .out = false)
    (hk_queues : K .queues = false) (hk_regs : K .regs = false) (hk_rings : K .rings = false) :
    Holds K P (State.touchQueue s k) := by
  unfold State.touchQueue
  try dsimp only
  with_reducible repeat' first
    | intro _ | assumption | apply State.hread_keeps | apply State.qscEvict_keeps | apply State.touchRing_keeps
    | apply State.modQueue_keeps | apply Holds.ite | split | dsimp only

theorem State.forceOps_keeps (s : State) (st : Nat) (l : List Nat) (hs : Holds K P s) (hk_ops : K .ops = false) :
    Holds K P (State.forceOps s st l) := by
  unfold State.forceOps
  try dsimp only
  with_reducible repeat' first
    | intro _ | assumption | apply State.modOp_keeps | apply Holds.foldl | dsimp only

theorem State.addOp_keeps (s : State) (k : Nat) (q : WQueue) (o : WOp) (n : Nat) (hs : Holds K P s) (hk_ops : K .ops = false)
    (hk_queues : K .queues = false) :
    Holds K P (State.addOp s k q o n) := by
  unfold State.addOp
  try dsimp only
  with_reducible repeat' first
    | intro _ | assumption | apply State.setQueue_keeps | apply Holds.ite
    | simp only [Holds.upd, hk_ops, Bool.false_eq_true, false_implies, implies_true] | apply Holds.foldl | split | dsimp only

theorem State.addBad_keeps (s : State) (k : Nat) (q : WQueue) (e : BitVec 512) (hs : Holds K P s) (hk_ops : K .ops = false)
    (hk_queues : K .queues = false) :
    Holds K P (State.addBad s k q e) := by
  unfold State.addBad
  try dsimp only
  with_reducible repeat' first
    | intro _ | assumption | apply State.addOp_keeps | dsimp only

theorem State.fetch_keeps (a : Nat) (a' : Nat) (a'' : State) (ha'' : Holds K P a'') (hk_ops : K .ops = false)
    (hk_queues : K .queues = false) :
    Holds K P (State.fetch a a' a'') := by
  induction a generalizing a' a'' ha'' with
  | zero =>
    unfold State.fetch
    try dsimp only
    with_reducible repeat' first
      | intro _ | assumption | apply ih | apply State.addBad_keeps | apply State.setQueue_keeps | apply State.addOp_keeps
      | apply Holds.ite | split | dsimp only
  | succ n ih =>
    unfold State.fetch
    try dsimp only
    with_reducible repeat' first
      | intro _ | assumption | apply ih | apply State.addBad_keeps | apply State.setQueue_keeps | apply State.addOp_keeps
      | apply Holds.ite | split | dsimp only

theorem State.fetchAll_keeps (s : State) (k : Nat) (hs : Holds K P s) (hk_ops : K .ops = false)
    (hk_queues : K .queues = false) :
    Holds K P (State.fetchAll s k) := by
  unfold State.fetchAll
  try dsimp only
  with_reducible repeat' first
    | intro _ | assumption | apply State.fetch_keeps | split | dsimp only

theorem State.askSlots_keeps (s : State) (k : Nat) (l : List Nat) (hs : Holds K P s) (hk_out : K .out = false)
    (hk_queues : K .queues = false) (hk_regs : K .regs = false) :
    Holds K P (State.askSlots s k l) := by
  unfold State.askSlots
  try dsimp only
  with_reducible repeat' first
    | intro _ | assumption | apply State.hread_keeps | apply State.setQueue_keeps | apply Holds.foldl | split | dsimp only

theorem State.prefetch_keeps (s : State) (k : Nat) (hs : Holds K P s) (hk_out : K .out = false)
    (hk_queues : K .queues = false) (hk_regs : K .regs = false) :
    Holds K P (State.prefetch s k) := by
  unfold State.prefetch
  try dsimp only
  with_reducible repeat' first
    | intro _ | assumption | apply State.askSlots_keeps | apply Holds.ite | split | dsimp only

theorem State.indexRead_keeps (s : State) (k : Nat) (hs : Holds K P s) (hk_out : K .out = false)
    (hk_queues : K .queues = false) (hk_regs : K .regs = false) :
    Holds K P (State.indexRead s k) := by
  unfold State.indexRead
  try dsimp only
  with_reducible repeat' first
    | intro _ | assumption | apply State.setQueue_keeps | apply State.bump_keeps | apply State.hread_keeps
    | apply State.askSlots_keeps | apply Holds.ite | split | dsimp only

theorem State.keepSlot_keeps (s : State) (k : Nat) (slot : Nat) (data : Option (BitVec 512)) (hs : Holds K P s)
    (hk_queues : K .queues = false) :
    Holds K P (State.keepSlot s k slot data) := by
  unfold State.keepSlot
  try dsimp only
  with_reducible repeat' first
    | intro _ | assumption | apply State.setQueue_keeps | apply Holds.ite | exact HoldsS.none | apply HoldsS.some
    | refine Holds.of_some (by assumption) ?_ | split | dsimp only

theorem State.dropFrom_keeps (s : State) (k : Nat) (i : Nat) (keep : Nat → Bool) (hs : Holds K P s) (hk_ops : K .ops = false)
    (hk_queues : K .queues = false) :
    Holds K P (State.dropFrom s k i keep) := by
  unfold State.dropFrom
  try dsimp only
  with_reducible repeat' first
    | intro _ | assumption | apply State.setQueue_keeps
    | simp only [Holds.upd, hk_ops, Bool.false_eq_true, false_implies, implies_true] | apply Holds.foldl | split | dsimp only

theorem State.trimQueue_keeps (s : State) (k : Nat) (hs : Holds K P s) (hk_ops : K .ops = false)
    (hk_queues : K .queues = false) :
    Holds K P (State.trimQueue s k) := by
  unfold State.trimQueue
  try dsimp only
  with_reducible repeat' first
    | intro _ | assumption | apply State.setQueue_keeps | apply State.modQueue_keeps | apply State.dropFrom_keeps | apply Holds.ite
    | split | dsimp only

theorem State.pfTrim_keeps (a : Nat) (a' : Die) (a'' : Nat) (a''' : State) (ha''' : Holds K P a''') (hk_ops : K .ops = false)
    (hk_queues : K .queues = false) :
    Holds K P (State.pfTrim a a' a'' a''') := by
  induction a generalizing a' a'' a''' ha''' with
  | zero =>
    unfold State.pfTrim
    try dsimp only
    with_reducible repeat' first
      | intro _ | assumption | apply ih | apply State.trimQueue_keeps | apply Holds.ite | split | dsimp only
  | succ n ih =>
    unfold State.pfTrim
    try dsimp only
    with_reducible repeat' first
      | intro _ | assumption | apply ih | apply State.trimQueue_keeps | apply Holds.ite | split | dsimp only

theorem State.checkFlush_keeps (s : State) (k : Nat) (hs : Holds K P s) (hk_queues : K .queues = false) :
    Holds K P (State.checkFlush s k) := by
  unfold State.checkFlush
  try dsimp only
  with_reducible repeat' first
    | intro _ | assumption | apply State.modQueue_keeps | apply Holds.ite | split | dsimp only

theorem State.queueFail_keeps (s : State) (k : Nat) (st : Nat) (hs : Holds K P s) (hk_ops : K .ops = false)
    (hk_out : K .out = false) (hk_queues : K .queues = false) (hk_regs : K .regs = false) :
    Holds K P (State.queueFail s k st) := by
  unfold State.queueFail
  try dsimp only
  with_reducible repeat' first
    | intro _ | assumption | apply State.bump_keeps | apply State.setQueue_keeps | apply State.forceOps_keeps
    | apply State.modOp_keeps | apply State.checkFlush_keeps | apply State.prefetch_keeps | apply State.fetchAll_keeps
    | apply Holds.ite | split | dsimp only

theorem State.setFail_keeps (s : State) (sk : Nat) (st : Nat) (hs : Holds K P s) (hk_ops : K .ops = false)
    (hk_out : K .out = false) (hk_queues : K .queues = false) (hk_regs : K .regs = false) :
    Holds K P (State.setFail s sk st) := by
  unfold State.setFail
  try dsimp only
  with_reducible repeat' first
    | intro _ | assumption | apply State.queueFail_keeps | apply Holds.foldl | dsimp only

theorem State.polderQueuesFail_keeps (s : State) (polder : Nat) (hs : Holds K P s) (hk_ops : K .ops = false)
    (hk_out : K .out = false) (hk_queues : K .queues = false) (hk_regs : K .regs = false) :
    Holds K P (State.polderQueuesFail s polder) := by
  unfold State.polderQueuesFail
  try dsimp only
  with_reducible repeat' first
    | intro _ | assumption | apply State.queueFail_keeps | apply Holds.foldl | dsimp only

theorem State.updConsumer_keeps (s : State) (k : Nat) (hs : Holds K P s) (hk_out : K .out = false)
    (hk_queues : K .queues = false) (hk_regs : K .regs = false) :
    Holds K P (State.updConsumer s k) := by
  unfold State.updConsumer
  try dsimp only
  with_reducible repeat' first
    | intro _ | assumption | apply State.hwrite_keeps | apply State.setQueue_keeps | apply Holds.ite | split | dsimp only

theorem State.assign_keeps (s : State) (i : Nat) (hs : Holds K P s) (hk_free : K .free = false) (hk_ops : K .ops = false)
    (hk_regs : K .regs = false) :
    Holds K P (State.assign s i) := by
  unfold State.assign
  try dsimp only
  with_reducible repeat' first
    | intro _ | assumption | apply State.modOp_keeps | apply State.draw_keeps | apply State.when_keeps | apply State.bump_keeps
    | split | dsimp only

theorem State.reassign_keeps (s : State) (d : Die) (hs : Holds K P s) (hk_free : K .free = false) (hk_ops : K .ops = false)
    (hk_regs : K .regs = false) :
    Holds K P (State.reassign s d) := by
  unfold State.reassign
  try dsimp only
  with_reducible repeat' first
    | intro _ | assumption | apply State.assign_keeps | apply Holds.foldl | split | dsimp only

theorem State.startOp_keeps (s : State) (k : Nat) (i : Nat) (q : WQueue) (hs : Holds K P s) (hk_free : K .free = false)
    (hk_ops : K .ops = false) (hk_out : K .out = false) (hk_queues : K .queues = false) (hk_regs : K .regs = false)
    (hk_rings : K .rings = false) :
    Holds K P (State.startOp s k i q) := by
  unfold State.startOp
  try dsimp only
  with_reducible repeat' first
    | intro _ | assumption | apply State.modRing_keeps | apply State.touchQueue_keeps | apply State.modOp_keeps
    | apply State.assign_keeps | apply State.when_keeps | apply State.bump_keeps | apply State.updConsumer_keeps
    | apply State.event_keeps | apply Holds.ite | split | dsimp only

theorem State.startList_keeps (a : List Nat) (a' : Nat) (a'' : State) (ha'' : Holds K P a'') (hk_free : K .free = false)
    (hk_ops : K .ops = false) (hk_out : K .out = false) (hk_queues : K .queues = false) (hk_regs : K .regs = false)
    (hk_rings : K .rings = false) :
    Holds K P (State.startList a a' a'') := by
  induction a generalizing a' a'' ha'' with
  | nil =>
    unfold State.startList
    try dsimp only
    with_reducible repeat' first
      | intro _ | assumption | apply ih | apply State.startOp_keeps | apply Holds.ite | split | dsimp only
  | cons x l ih =>
    unfold State.startList
    try dsimp only
    with_reducible repeat' first
      | intro _ | assumption | apply ih | apply State.startOp_keeps | apply Holds.ite | split | dsimp only

theorem State.trigUpdate_keeps (s : State) (k : Nat) (hs : Holds K P s) (hk_triggers : K .triggers = false) :
    Holds K P (State.trigUpdate s k) := by
  unfold State.trigUpdate
  try dsimp only
  with_reducible repeat' first
   
    | (intro g x hg; cases g <;> first | exact absurd (hk_triggers.symm.trans hg) (by decide) | (with_unfolding_all exact dieSame_refl _ _) | (simp only [dieSame, and_self]))
    | intro _ | assumption | apply State.modDie_keeps | apply Holds.ite | split | dsimp only

theorem State.advance_keeps (s : State) (k : Nat) (hs : Holds K P s) (hk_free : K .free = false) (hk_ops : K .ops = false)
    (hk_out : K .out = false) (hk_queues : K .queues = false) (hk_regs : K .regs = false) (hk_rings : K .rings = false)
    (hk_triggers : K .triggers = false) :
    Holds K P (State.advance s k) := by
  unfold State.advance
  try dsimp only
  with_reducible repeat' first
    | intro _ | assumption | apply State.prefetch_keeps | apply State.trigUpdate_keeps | apply State.startList_keeps
    | apply Holds.ite | split | dsimp only

theorem State.pumpQueue_keeps (s : State) (k : Nat) (hs : Holds K P s) (hk_free : K .free = false) (hk_ops : K .ops = false)
    (hk_out : K .out = false) (hk_queues : K .queues = false) (hk_regs : K .regs = false) (hk_rings : K .rings = false)
    (hk_triggers : K .triggers = false) :
    Holds K P (State.pumpQueue s k) := by
  unfold State.pumpQueue
  try dsimp only
  with_reducible repeat' first
    | intro _ | assumption | apply State.pfTrim_keeps | apply State.checkFlush_keeps | apply State.advance_keeps
    | apply State.fetchAll_keeps | dsimp only

theorem State.startHead_keeps (s : State) (k : Nat) (hs : Holds K P s) (hk_counters : K .counters = false)
    (hk_free : K .free = false) (hk_ops : K .ops = false) (hk_out : K .out = false) (hk_queues : K .queues = false)
    (hk_regs : K .regs = false) (hk_rings : K .rings = false) (hk_triggers : K .triggers = false) :
    Holds K P (State.startHead s k) := by
  unfold State.startHead
  try dsimp only
  with_reducible repeat' first
    | intro _ | assumption | apply State.touchCtr_keeps | apply State.prefetch_keeps | apply State.trigUpdate_keeps
    | apply State.startOp_keeps | apply Holds.ite | split | dsimp only

theorem State.endOp_keeps (s : State) (i : Nat) (status : Nat) (bytes : Nat) (hs : Holds K P s) (hk_ops : K .ops = false) :
    Holds K P (State.endOp s i status bytes) := by
  unfold State.endOp
  try dsimp only
  with_reducible repeat' first
    | intro _ | assumption | apply State.modOp_keeps | dsimp only

theorem State.msix_keeps (s : State) (rk : Nat) (hs : Holds K P s) (hk_out : K .out = false) (hk_rings : K .rings = false) :
    Holds K P (State.msix s rk) := by
  unfold State.msix
  try dsimp only
  with_reducible repeat' first
    | intro _ | assumption | apply State.modRing_keeps | apply State.emit_keeps | apply Holds.ite | split | dsimp only

theorem State.writeCqe_keeps (s : State) (k : Nat) (q : WQueue) (o : WOp) (status : Nat) (bytes : Nat) (hs : Holds K P s)
    (hk_out : K .out = false) (hk_regs : K .regs = false) (hk_rings : K .rings = false) :
    Holds K P (State.writeCqe s k q o status bytes) := by
  unfold State.writeCqe
  try dsimp only
  with_reducible repeat' first
    | intro _ | assumption | apply State.modRing_keeps | apply State.hwrite_keeps | apply State.msix_keeps | apply Holds.ite | split
    | dsimp only

theorem State.retireOp_keeps (s : State) (k : Nat) (i : Nat) (hs : Holds K P s) (hk_free : K .free = false)
    (hk_ops : K .ops = false) (hk_out : K .out = false) (hk_queues : K .queues = false) (hk_regs : K .regs = false)
    (hk_rings : K .rings = false) (hk_tmu : K .tmu = false) (hk_triggers : K .triggers = false) :
    Holds K P (State.retireOp s k i) := by
  unfold State.retireOp
  try dsimp only
  with_reducible repeat' first
   
    | (intro g x hg; cases g <;> first | exact absurd (hk_tmu.symm.trans hg) (by decide) | (with_unfolding_all exact dieSame_refl _ _) | (simp only [dieSame, and_self]))
    | intro _ | assumption | apply State.when_keeps | apply State.modDie_keeps | apply State.updConsumer_keeps
    | apply State.modQueue_keeps | apply State.setQueue_keeps | apply State.pumpQueue_keeps | apply Holds.ite
    | simp only [Holds.upd, hk_ops, Bool.false_eq_true, false_implies, implies_true] | split | dsimp only

theorem State.complete_keeps (s : State) (i : Nat) (hs : Holds K P s) (hk_counters : K .counters = false)
    (hk_free : K .free = false) (hk_ops : K .ops = false) (hk_out : K .out = false) (hk_queues : K .queues = false)
    (hk_regs : K .regs = false) (hk_rings : K .rings = false) (hk_tmu : K .tmu = false) (hk_triggers : K .triggers = false) :
    Holds K P (State.complete s i) := by
  unfold State.complete
  try dsimp only
  with_reducible repeat' first
    | intro _ | assumption | apply State.touchQueue_keeps | apply State.ctrComplete_keeps | apply State.writeCqe_keeps
    | apply State.hwrite_keeps | apply State.when_keeps | apply State.bump_keeps | apply State.forceOps_keeps
    | apply State.modQueue_keeps | apply State.retireOp_keeps | apply Holds.ite | split | dsimp only

theorem State.ringBell_keeps (s : State) (f : Fn) (q : Fin 128) (k : Fin 8) (hs : Holds K P s) (hk_free : K .free = false)
    (hk_out : K .out = false) (hk_queues : K .queues = false) (hk_regs : K .regs = false) (hk_rings : K .rings = false) :
    Holds K P (State.ringBell s f q k) := by
  unfold State.ringBell
  try dsimp only
  with_reducible repeat' first
    | intro _ | assumption | apply State.bump_keeps | apply State.indexRead_keeps | apply State.touchQueue_keeps
    | apply State.when_keeps | apply Holds.ite | split | dsimp only

theorem execDoorbell_keeps (f : Fn) (q : Fin 128) (k : Fin 8) (size : Nat) (s : State) (hs : Holds K P s)
    (hk_free : K .free = false) (hk_out : K .out = false) (hk_queues : K .queues = false) (hk_regs : K .regs = false)
    (hk_rings : K .rings = false) :
    HoldsO K P (execDoorbell f q k size s) := by
  unfold execDoorbell
  try dsimp only
  with_reducible repeat' first
    | intro _ | assumption | apply State.ingress_keeps | apply State.ringBell_keeps | apply State.ingressDrop_keeps
    | apply State.bump_keeps | apply Holds.ite | apply HoldsO.next | split | dsimp only

theorem execCtrAdd_keeps (f : Fn) (q : Fin 128) (c : Fin 16) (value : W32) (s : State) (hs : Holds K P s)
    (hk_counters : K .counters = false) (hk_free : K .free = false) (hk_out : K .out = false) (hk_regs : K .regs = false) :
    HoldsO K P (execCtrAdd f q c value s) := by
  unfold execCtrAdd
  try dsimp only
  with_reducible repeat' first
    | intro _ | assumption | apply State.ingress_keeps | apply State.ctrAdd_keeps | apply HoldsO.next | dsimp only

theorem State.ringCons_keeps (s : State) (rk : Nat) (index : Nat) (arm : Bool) (hs : Holds K P s) (hk_free : K .free = false)
    (hk_ops : K .ops = false) (hk_out : K .out = false) (hk_queues : K .queues = false) (hk_regs : K .regs = false)
    (hk_rings : K .rings = false) (hk_triggers : K .triggers = false) :
    Holds K P (State.ringCons s rk index arm) := by
  unfold State.ringCons
  try dsimp only
  with_reducible repeat' first
    | intro _ | assumption | apply State.modRing_keeps | apply State.touchRing_keeps | apply State.when_keeps
    | apply State.msix_keeps | apply State.advance_keeps | apply Holds.ite | apply Holds.foldl | split | dsimp only

theorem execRingConsWrite_keeps (f : Fn) (q : Fin 128) (r : Fin 4) (index : W32) (arm : Bool) (s : State) (hs : Holds K P s)
    (hk_free : K .free = false) (hk_ops : K .ops = false) (hk_out : K .out = false) (hk_queues : K .queues = false)
    (hk_regs : K .regs = false) (hk_rings : K .rings = false) (hk_triggers : K .triggers = false) :
    HoldsO K P (execRingConsWrite f q r index arm s) := by
  unfold execRingConsWrite
  try dsimp only
  with_reducible repeat' first
    | intro _ | assumption | apply State.ingress_keeps | apply State.ringCons_keeps | apply HoldsO.next | dsimp only

theorem State.contextWrite_keeps (s : State) (sk : Nat) (addr : Nat) (hs : Holds K P s) (hk_control : K .control = false)
    (hk_counters : K .counters = false) :
    Holds K P (State.contextWrite s sk addr) := by
  unfold State.contextWrite
  try dsimp only
  with_reducible repeat' first
    | intro _ | assumption | apply State.setQc_keeps | apply Holds.ite
    | simp only [Holds.upd, hk_counters, Bool.false_eq_true, false_implies, implies_true] | split | dsimp only

theorem execContextAddrWrite_keeps (f : Fn) (q : Fin 128) (addr : W64) (s : State) (hs : Holds K P s)
    (hk_control : K .control = false) (hk_counters : K .counters = false) (hk_regs : K .regs = false) :
    HoldsO K P (execContextAddrWrite f q addr s) := by
  unfold execContextAddrWrite
  try dsimp only
  with_reducible repeat' first
    | intro _ | assumption | apply State.ingress_keeps | apply State.contextWrite_keeps | apply HoldsO.next | dsimp only

theorem State.qcEnd_keeps (s : State) (sk : Nat) (code : Nat) (detail : Nat) (hs : Holds K P s)
    (hk_control : K .control = false) :
    Holds K P (State.qcEnd s sk code detail) := by
  unfold State.qcEnd
  try dsimp only
  with_reducible repeat' first
    | intro _ | assumption | apply State.setQc_keeps | dsimp only

theorem State.qcCommand_keeps (s : State) (f : Fn) (q : Fin 128) (op : Nat) (target : Nat) (mask : Nat)
    (act : Nat → State → Except Nat (State × Nat)) (pre : Nat → State → State) (hs : Holds K P s)
    (hact : ∀ x0 x1, Holds K P x1 → HoldsEP K P (act x0 x1)) (hpre : ∀ x0 x1, Holds K P x1 → Holds K P (pre x0 x1))
    (hk_control : K .control = false) (hk_regs : K .regs = false) :
    Holds K P (State.qcCommand s f q op target mask act pre) := by
  unfold State.qcCommand
  try dsimp only
  with_reducible repeat' first
    | intro _ | assumption | apply State.ingress_keeps | apply State.setQc_keeps | apply State.qcEnd_keeps | apply hact | apply hpre
    | apply Holds.ite | exact HoldsE.error | apply HoldsE.ok | apply HoldsE.ite | exact HoldsEP.error | apply HoldsEP.ok
    | apply HoldsEP.ite | apply Holds.ite1 | refine Holds.of_fst (by assumption) ?_ | refine Holds.of_ok (by assumption) ?_
    | refine Holds.of_okP (by assumption) ?_ | split | dsimp only

theorem State.createQueue_keeps (k : Nat) (f : Fn) (rec : Option (BitVec 512)) (sk : Nat) (s : State) (hs : Holds K P s)
    (hk_free : K .free = false) (hk_out : K .out = false) (hk_queues : K .queues = false) (hk_regs : K .regs = false)
    (hk_rings : K .rings = false) :
    HoldsEP K P (State.createQueue k f rec sk s) := by
  unfold State.createQueue
  try dsimp only
  with_reducible repeat' first
    | intro _ | assumption | apply State.qscEvict_keeps | apply State.hwrite_keeps | apply State.setQueue_keeps | apply Holds.ite
    | exact HoldsEP.error | apply HoldsEP.ok | apply HoldsEP.ite | exact HoldsS.none | apply HoldsS.some
    | refine Holds.of_some (by assumption) ?_ | refine Holds.of_okP (by assumption) ?_ | split | dsimp only

theorem State.readQueueRec_keeps (k : Nat) (f : Fn) (sk : Nat) (s : State) (hs : Holds K P s) (hk_out : K .out = false)
    (hk_regs : K .regs = false) :
    Holds K P (State.readQueueRec k f sk s) := by
  unfold State.readQueueRec
  try dsimp only
  with_reducible repeat' first
    | intro _ | assumption | apply State.when_keeps | apply State.hread_keeps | dsimp only

theorem execCreateQueue_keeps (f : Fn) (q : Fin 128) (c : QcArgs) (rec : Option (BitVec 512)) (s : State)
    (hs : Holds K P s) (hk_control : K .control = false) (hk_free : K .free = false) (hk_out : K .out = false)
    (hk_queues : K .queues = false) (hk_regs : K .regs = false) (hk_rings : K .rings = false) :
    HoldsO K P (execCreateQueue f q c rec s) := by
  unfold execCreateQueue
  try dsimp only
  with_reducible repeat' first
    | intro _ | assumption | apply State.qcCommand_keeps | apply State.createQueue_keeps | apply State.readQueueRec_keeps
    | apply HoldsO.next | exact HoldsE.error | apply HoldsE.ok | exact HoldsEP.error | apply HoldsEP.ok | exact HoldsS.none
    | apply HoldsS.some | dsimp only

theorem State.startQueue_keeps (k : Nat) (sk : Nat) (s : State) (hs : Holds K P s) (hk_free : K .free = false)
    (hk_ops : K .ops = false) (hk_out : K .out = false) (hk_queues : K .queues = false) (hk_regs : K .regs = false)
    (hk_rings : K .rings = false) (hk_triggers : K .triggers = false) :
    HoldsEP K P (State.startQueue k sk s) := by
  unfold State.startQueue
  try dsimp only
  with_reducible repeat' first
    | intro _ | assumption | apply State.advance_keeps | apply State.indexRead_keeps | apply State.touchQueue_keeps
    | apply State.setQueue_keeps | apply Holds.ite | exact HoldsEP.error | apply HoldsEP.ok | apply HoldsEP.ite
    | refine Holds.of_okP (by assumption) ?_ | split | dsimp only

theorem execStart_keeps (f : Fn) (q : Fin 128) (c : QcArgs) (s : State) (hs : Holds K P s)
    (hk_control : K .control = false) (hk_free : K .free = false) (hk_ops : K .ops = false) (hk_out : K .out = false)
    (hk_queues : K .queues = false) (hk_regs : K .regs = false) (hk_rings : K .rings = false)
    (hk_triggers : K .triggers = false) :
    HoldsO K P (execStart f q c s) := by
  unfold execStart
  try dsimp only
  with_reducible repeat' first
    | intro _ | assumption | apply State.qcCommand_keeps | apply State.startQueue_keeps | apply HoldsO.next | exact HoldsE.error
    | apply HoldsE.ok | exact HoldsEP.error | apply HoldsEP.ok | dsimp only

theorem State.stopQueue_keeps (k : Nat) (sk : Nat) (s : State) (hs : Holds K P s) (hk_queues : K .queues = false) :
    HoldsEP K P (State.stopQueue k sk s) := by
  unfold State.stopQueue
  try dsimp only
  with_reducible repeat' first
    | intro _ | assumption | apply State.setQueue_keeps | apply Holds.ite | exact HoldsEP.error | apply HoldsEP.ok
    | apply HoldsEP.ite | refine Holds.of_okP (by assumption) ?_ | split | dsimp only

theorem execStop_keeps (f : Fn) (q : Fin 128) (c : QcArgs) (s : State) (hs : Holds K P s)
    (hk_control : K .control = false) (hk_queues : K .queues = false) (hk_regs : K .regs = false) :
    HoldsO K P (execStop f q c s) := by
  unfold execStop
  try dsimp only
  with_reducible repeat' first
    | intro _ | assumption | apply State.qcCommand_keeps | apply State.stopQueue_keeps | apply HoldsO.next | exact HoldsE.error
    | apply HoldsE.ok | exact HoldsEP.error | apply HoldsEP.ok | dsimp only

theorem State.dropQueue_keeps (s : State) (key : Nat) (hs : Holds K P s) (hk_ops : K .ops = false)
    (hk_queues : K .queues = false) (hk_triggers : K .triggers = false) :
    Holds K P (State.dropQueue s key) := by
  unfold State.dropQueue
  try dsimp only
  with_reducible repeat' first
    | intro _ | assumption | apply State.trigUpdate_keeps
    | simp only [Holds.upd, hk_ops, hk_queues, Bool.false_eq_true, false_implies, implies_true] | dsimp only

theorem State.resetQueue_keeps (k : Nat) (sk : Nat) (s : State) (hs : Holds K P s) (hk_ops : K .ops = false)
    (hk_queues : K .queues = false) (hk_triggers : K .triggers = false) :
    HoldsEP K P (State.resetQueue k sk s) := by
  unfold State.resetQueue
  try dsimp only
  with_reducible repeat' first
    | intro _ | assumption | apply State.dropQueue_keeps | apply Holds.ite | exact HoldsEP.error | apply HoldsEP.ok
    | apply HoldsEP.ite | refine Holds.of_okP (by assumption) ?_ | split | dsimp only

theorem State.createRing_keeps (t : Nat) (f : Fn) (rec : Option (BitVec 256)) (sk : Nat) (s : State) (hs : Holds K P s)
    (hk_rings : K .rings = false) :
    HoldsEP K P (State.createRing t f rec sk s) := by
  unfold State.createRing
  try dsimp only
  with_reducible repeat' first
    | intro _ | assumption | apply Holds.ite | simp only [Holds.upd, hk_rings, Bool.false_eq_true, false_implies, implies_true]
    | exact HoldsEP.error | apply HoldsEP.ok | apply HoldsEP.ite | exact HoldsS.none | apply HoldsS.some
    | refine Holds.of_some (by assumption) ?_ | refine Holds.of_okP (by assumption) ?_ | split | dsimp only

theorem State.readRingRec_keeps (t : Nat) (f : Fn) (sk : Nat) (s : State) (hs : Holds K P s) (hk_out : K .out = false)
    (hk_regs : K .regs = false) :
    Holds K P (State.readRingRec t f sk s) := by
  unfold State.readRingRec
  try dsimp only
  with_reducible repeat' first
    | intro _ | assumption | apply State.when_keeps | apply State.hread_keeps | dsimp only

theorem execCreateRing_keeps (f : Fn) (q : Fin 128) (c : QcArgs) (rec : Option (BitVec 256)) (s : State)
    (hs : Holds K P s) (hk_control : K .control = false) (hk_out : K .out = false) (hk_regs : K .regs = false)
    (hk_rings : K .rings = false) :
    HoldsO K P (execCreateRing f q c rec s) := by
  unfold execCreateRing
  try dsimp only
  with_reducible repeat' first
    | intro _ | assumption | apply State.qcCommand_keeps | apply State.createRing_keeps | apply State.readRingRec_keeps
    | apply HoldsO.next | exact HoldsE.error | apply HoldsE.ok | exact HoldsEP.error | apply HoldsEP.ok | exact HoldsS.none
    | apply HoldsS.some | dsimp only

theorem State.destroyRing_keeps (t : Nat) (sk : Nat) (s : State) (hs : Holds K P s) (hk_rings : K .rings = false)
    (hk_rma : K .rma = false) :
    HoldsEP K P (State.destroyRing t sk s) := by
  unfold State.destroyRing
  try dsimp only
  with_reducible repeat' first
   
    | (intro g x hg; cases g <;> first | exact absurd (hk_rma.symm.trans hg) (by decide) | (with_unfolding_all exact dieSame_refl _ _) | (simp only [dieSame, and_self]))
    | intro _ | assumption | apply State.modDie_keeps | apply Holds.ite
    | simp only [Holds.upd, hk_rings, Bool.false_eq_true, false_implies, implies_true] | exact HoldsEP.error | apply HoldsEP.ok
    | apply HoldsEP.ite | refine Holds.of_okP (by assumption) ?_ | split | dsimp only

theorem execDestroyRing_keeps (f : Fn) (q : Fin 128) (c : QcArgs) (s : State) (hs : Holds K P s)
    (hk_control : K .control = false) (hk_regs : K .regs = false) (hk_rings : K .rings = false) (hk_rma : K .rma = false) :
    HoldsO K P (execDestroyRing f q c s) := by
  unfold execDestroyRing
  try dsimp only
  with_reducible repeat' first
    | intro _ | assumption | apply State.qcCommand_keeps | apply State.destroyRing_keeps | apply HoldsO.next | exact HoldsE.error
    | apply HoldsE.ok | exact HoldsEP.error | apply HoldsEP.ok | dsimp only

theorem State.resetCounters_keeps (mask : Nat) (sk : Nat) (s : State) (hs : Holds K P s) (hk_counters : K .counters = false) :
    HoldsEP K P (State.resetCounters mask sk s) := by
  unfold State.resetCounters
  try dsimp only
  with_reducible repeat' first
    | intro _ | assumption | apply Holds.ite | simp only [Holds.upd, hk_counters, Bool.false_eq_true, false_implies, implies_true]
    | exact HoldsEP.error | apply HoldsEP.ok | apply HoldsEP.ite | split | dsimp only

theorem execResetCounters_keeps (f : Fn) (q : Fin 128) (c : QcArgs) (s : State) (hs : Holds K P s)
    (hk_control : K .control = false) (hk_counters : K .counters = false) (hk_regs : K .regs = false) :
    HoldsO K P (execResetCounters f q c s) := by
  unfold execResetCounters
  try dsimp only
  with_reducible repeat' first
    | intro _ | assumption | apply State.qcCommand_keeps | apply State.resetCounters_keeps | apply HoldsO.next | exact HoldsE.error
    | apply HoldsE.ok | exact HoldsEP.error | apply HoldsEP.ok | dsimp only

theorem State.invalidateSlot_keeps (k : Nat) (sk : Nat) (s : State) (hs : Holds K P s) (hk_free : K .free = false)
    (hk_ops : K .ops = false) (hk_out : K .out = false) (hk_queues : K .queues = false) (hk_regs : K .regs = false)
    (hk_rings : K .rings = false) (hk_triggers : K .triggers = false) :
    HoldsEP K P (State.invalidateSlot k sk s) := by
  unfold State.invalidateSlot
  try dsimp only
  with_reducible repeat' first
    | intro _ | assumption | apply State.setQueue_keeps | apply State.pumpQueue_keeps | apply State.dropFrom_keeps | apply Holds.ite
    | exact HoldsEP.error | apply HoldsEP.ok | apply HoldsEP.ite | refine Holds.of_okP (by assumption) ?_ | split | dsimp only

theorem execInvalidate_keeps (f : Fn) (q : Fin 128) (c : QcArgs) (s : State) (hs : Holds K P s)
    (hk_control : K .control = false) (hk_free : K .free = false) (hk_ops : K .ops = false) (hk_out : K .out = false)
    (hk_queues : K .queues = false) (hk_regs : K .regs = false) (hk_rings : K .rings = false)
    (hk_triggers : K .triggers = false) :
    HoldsO K P (execInvalidate f q c s) := by
  unfold execInvalidate
  try dsimp only
  with_reducible repeat' first
    | intro _ | assumption | apply State.qcCommand_keeps | apply State.invalidateSlot_keeps | apply HoldsO.next | exact HoldsE.error
    | apply HoldsE.ok | exact HoldsEP.error | apply HoldsEP.ok | dsimp only

theorem State.indexSeen_keeps (s : State) (k : Nat) (producer : Option W32) (hs : Holds K P s) (hk_ops : K .ops = false)
    (hk_out : K .out = false) (hk_queues : K .queues = false) (hk_regs : K .regs = false) :
    Holds K P (State.indexSeen s k producer) := by
  unfold State.indexSeen
  try dsimp only
  with_reducible repeat' first
    | intro _ | assumption | apply State.setQueue_keeps | apply State.addBad_keeps | apply State.when_keeps
    | apply State.indexRead_keeps | apply Holds.ite | exact HoldsS.none | apply HoldsS.some
    | refine Holds.of_some (by assumption) ?_ | split | dsimp only

theorem State.indexReturn_keeps (s : State) (k : Nat) (idx : IndexRet) (slots : List (W32 × Option (BitVec 512)))
    (hs : Holds K P s) (hk_free : K .free = false) (hk_ops : K .ops = false) (hk_out : K .out = false)
    (hk_queues : K .queues = false) (hk_regs : K .regs = false) (hk_rings : K .rings = false)
    (hk_triggers : K .triggers = false) :
    Holds K P (State.indexReturn s k idx slots) := by
  unfold State.indexReturn
  try dsimp only
  with_reducible repeat' first
    | intro _ | assumption | apply State.keepSlot_keeps | apply State.indexSeen_keeps | apply State.pumpQueue_keeps
    | apply Holds.foldl | exact HoldsS.none | apply HoldsS.some | apply Holds.foldl1 | refine Holds.of_fst (by assumption) ?_
    | refine Holds.of_some (by assumption) ?_ | split | dsimp only

theorem State.phaseRetry_keeps (s : State) (k : Nat) (slot : Nat) (data : Option (BitVec 512)) (hs : Holds K P s)
    (hk_free : K .free = false) (hk_ops : K .ops = false) (hk_out : K .out = false) (hk_queues : K .queues = false)
    (hk_regs : K .regs = false) (hk_rings : K .rings = false) (hk_triggers : K .triggers = false) :
    Holds K P (State.phaseRetry s k slot data) := by
  unfold State.phaseRetry
  try dsimp only
  with_reducible repeat' first
    | intro _ | assumption | apply State.hread_keeps | apply State.bump_keeps | apply State.pumpQueue_keeps
    | apply State.setQueue_keeps | apply Holds.ite | exact HoldsS.none | apply HoldsS.some | refine Holds.of_some (by assumption) ?_
    | split | dsimp only

theorem execPollTimer_keeps (f : Fn) (q : Fin 128) (k : Fin 8) (s : State) (hs : Holds K P s) (hk_free : K .free = false)
    (hk_out : K .out = false) (hk_queues : K .queues = false) (hk_regs : K .regs = false) (hk_rings : K .rings = false) :
    HoldsO K P (execPollTimer f q k s) := by
  unfold execPollTimer
  try dsimp only
  with_reducible repeat' first
    | intro _ | assumption | apply State.indexRead_keeps | apply State.touchQueue_keeps | apply State.setQueue_keeps
    | apply Holds.ite | apply HoldsO.next | split | dsimp only

theorem State.reloadRecord_keeps (s : State) (sk : Nat) (obj : RecordKind) (data : Option (BitVec 512)) (hs : Holds K P s)
    (hk_counters : K .counters = false) (hk_free : K .free = false) (hk_ops : K .ops = false) (hk_out : K .out = false)
    (hk_queues : K .queues = false) (hk_regs : K .regs = false) (hk_rings : K .rings = false) :
    Holds K P (State.reloadRecord s sk obj data) := by
  unfold State.reloadRecord
  try dsimp only
  with_reducible repeat' first
    | intro _ | assumption | apply State.setQueue_keeps | apply State.event_keeps | apply State.bump_keeps
    | apply State.qscEvict_keeps | apply State.setFail_keeps | apply State.modRing_keeps | apply State.ctrEvict_keeps
    | apply Holds.ite | simp only [Holds.upd, hk_counters, Bool.false_eq_true, false_implies, implies_true] | exact HoldsS.none
    | apply HoldsS.some | refine Holds.of_some (by assumption) ?_ | split | dsimp only

theorem execRecordReload_keeps (f : Fn) (q : Fin 128) (obj : RecordKind) (data : Option (BitVec 512)) (s : State)
    (hs : Holds K P s) (hk_counters : K .counters = false) (hk_free : K .free = false) (hk_ops : K .ops = false)
    (hk_out : K .out = false) (hk_queues : K .queues = false) (hk_regs : K .regs = false) (hk_rings : K .rings = false) :
    HoldsO K P (execRecordReload f q obj data s) := by
  unfold execRecordReload
  try dsimp only
  with_reducible repeat' first
    | intro _ | assumption | apply State.reloadRecord_keeps | apply HoldsO.next | exact HoldsS.none | apply HoldsS.some | dsimp only

theorem execTriggeredHeadStart_keeps (f : Fn) (q : Fin 128) (k : Fin 8) (s : State) (hs : Holds K P s)
    (hk_counters : K .counters = false) (hk_free : K .free = false) (hk_ops : K .ops = false) (hk_out : K .out = false)
    (hk_queues : K .queues = false) (hk_regs : K .regs = false) (hk_rings : K .rings = false)
    (hk_triggers : K .triggers = false) :
    HoldsO K P (execTriggeredHeadStart f q k s) := by
  unfold execTriggeredHeadStart
  try dsimp only
  with_reducible repeat' first
    | intro _ | assumption | apply State.startHead_keeps | apply Holds.ite | apply HoldsO.next | split | dsimp only

theorem State.sweep_keeps (s : State) (d : Die) (hs : Holds K P s) (hk_counters : K .counters = false)
    (hk_free : K .free = false) (hk_ops : K .ops = false) (hk_out : K .out = false) (hk_queues : K .queues = false)
    (hk_regs : K .regs = false) (hk_rings : K .rings = false) (hk_triggers : K .triggers = false) :
    Holds K P (State.sweep s d) := by
  unfold State.sweep
  try dsimp only
  with_reducible repeat' first
    | intro _ | assumption | apply State.prefetch_keeps | apply State.startHead_keeps | apply State.bump_keeps | apply Holds.ite
    | apply Holds.foldl | split | dsimp only

theorem execTriggerSweep_keeps (d : Die) (s : State) (hs : Holds K P s) (hk_counters : K .counters = false)
    (hk_free : K .free = false) (hk_ops : K .ops = false) (hk_out : K .out = false) (hk_queues : K .queues = false)
    (hk_regs : K .regs = false) (hk_rings : K .rings = false) (hk_triggers : K .triggers = false) :
    HoldsO K P (execTriggerSweep d s) := by
  unfold execTriggerSweep
  try dsimp only
  with_reducible repeat' first
   
    | (intro g x hg; cases g <;> first | exact absurd (hk_triggers.symm.trans hg) (by decide) | (with_unfolding_all exact dieSame_refl _ _) | (simp only [dieSame, and_self]))
    | intro _ | assumption | apply State.modDie_keeps | apply State.sweep_keeps | apply Holds.ite | apply HoldsO.next | split
    | dsimp only

theorem execNop_keeps (i : Nat) (s : State) (hs : Holds K P s) (hk_ops : K .ops = false) :
    HoldsO K P (execNop i s) := by
  unfold execNop
  try dsimp only
  with_reducible repeat' first
    | intro _ | assumption | apply State.endOp_keeps | apply Holds.ite | apply HoldsO.next | split | dsimp only

theorem execCounterAdd_keeps (i : Nat) (s : State) (hs : Holds K P s) (hk_counters : K .counters = false)
    (hk_free : K .free = false) (hk_ops : K .ops = false) (hk_out : K .out = false) (hk_regs : K .regs = false) :
    HoldsO K P (execCounterAdd i s) := by
  unfold execCounterAdd
  try dsimp only
  with_reducible repeat' first
    | intro _ | assumption | apply State.endOp_keeps | apply State.ctrAdd_keeps | apply Holds.ite | apply HoldsO.next | split
    | dsimp only

theorem execCounterRecordWrite_keeps (f : Fn) (q : Fin 128) (c : Fin 16) (s : State) (hs : Holds K P s)
    (hk_counters : K .counters = false) (hk_out : K .out = false) (hk_regs : K .regs = false) :
    HoldsO K P (execCounterRecordWrite f q c s) := by
  unfold execCounterRecordWrite
  try dsimp only
  with_reducible repeat' first
    | intro _ | assumption | apply State.hwrite_keeps | apply Holds.ite
    | simp only [Holds.upd, hk_counters, Bool.false_eq_true, false_implies, implies_true] | apply HoldsO.next | split | dsimp only

theorem State.writeFnSets_keeps (s : State) (f : Fn) (n : Nat) (hs : Holds K P s) (hk_regs : K .regs = false) :
    Holds K P (State.writeFnSets s f n) := by
  unfold State.writeFnSets
  try dsimp only
  with_reducible repeat' first
    | intro _ | assumption | apply State.wr_keeps | apply State.bump_keeps | apply Holds.ite | split | dsimp only

theorem execFnSetsWrite_keeps (rq : Requester) (f : Fn) (sets : Byte) (s : State) (hs : Holds K P s)
    (hk_regs : K .regs = false) :
    HoldsO K P (execFnSetsWrite rq f sets s) := by
  unfold execFnSetsWrite
  try dsimp only
  with_reducible repeat' first
    | intro _ | assumption | apply State.writeFnSets_keeps | apply State.privViolation_keeps | apply Holds.ite | apply HoldsO.next
    | split | dsimp only

end Sys2Proof.Machine
end

