-- ==== Sys2Proof/Laws/KeepPolders.lean ====
section
/-! SUPPORT. The operations of Polders.lean keep what the operations on registers and memory keep. -/

namespace Sys2Proof.Machine

set_option linter.all false
set_option linter.unusedTactic false
set_option linter.unreachableTactic false

variable {K : Grp → Bool} {P : State → Prop}

theorem State.ptEnd_keeps (s : State) (d : Die) (code : Nat) (detail : Nat) (hs : Holds K P s) (hk_regs : K .regs = false) :
    Holds K P (State.ptEnd s d code detail) := by
  unfold State.ptEnd
  try dsimp only
  with_reducible repeat' first
    | intro _ | assumption | apply State.wrs_keeps | dsimp only

theorem State.ptCommand_keeps (s : State) (rq : Requester) (d : Die) (op : Nat) (act : State → Except (Nat × Nat) State)
    (hs : Holds K P s) (hact : ∀ x0, Holds K P x0 → HoldsE K P (act x0)) (hk_regs : K .regs = false) :
    Holds K P (State.ptCommand s rq d op act) := by
  unfold State.ptCommand
  try dsimp only
  with_reducible repeat' first
    | intro _ | assumption | apply State.privViolation_keeps | apply State.wr_keeps | apply State.ptEnd_keeps | apply hact
    | apply Holds.ite | exact HoldsE.error | apply HoldsE.ok | apply HoldsE.ite | exact HoldsEP.error | apply HoldsEP.ok
    | apply HoldsEP.ite | apply Holds.ite1 | refine Holds.of_fst (by assumption) ?_ | refine Holds.of_ok (by assumption) ?_
    | refine Holds.of_okP (by assumption) ?_ | split | dsimp only

theorem ptNamed_keeps (id : Nat) (k : Except (Nat × Nat) State) (hk : HoldsE K P k) :
    HoldsE K P (ptNamed id k) := by
  unfold ptNamed
  try dsimp only
  with_reducible repeat' first
    | intro _ | assumption | apply Holds.ite | exact HoldsE.error | apply HoldsE.ok | apply HoldsE.ite | exact HoldsEP.error
    | apply HoldsEP.ok | apply HoldsEP.ite | apply Holds.ite1 | split | dsimp only

theorem State.ptResident_keeps (s : State) (d : Die) (act : Nat → Polder → State → Except (Nat × Nat) State)
    (hs : Holds K P s) (hact : ∀ x0 x1 x2, Holds K P x2 → HoldsE K P (act x0 x1 x2)) (hk_regs : K .regs = false) :
    HoldsE K P (State.ptResident s d act) := by
  unfold State.ptResident
  try dsimp only
  with_reducible repeat' first
    | intro _ | assumption | apply ptNamed_keeps | apply State.wr_keeps | apply hact | exact HoldsE.error | apply HoldsE.ok
    | exact HoldsEP.error | apply HoldsEP.ok | refine Holds.of_fst (by assumption) ?_ | refine Holds.of_ok (by assumption) ?_
    | refine Holds.of_okP (by assumption) ?_ | split | dsimp only

theorem State.setPolder_keeps (s : State) (d : Die) (i : Nat) (p : Polder) (hs : Holds K P s)
    (hk_polders : K .polders = false) :
    Holds K P (State.setPolder s d i p) := by
  unfold State.setPolder
  try dsimp only
  with_reducible repeat' first
   
    | (intro g x hg; cases g <;> first | exact absurd (hk_polders.symm.trans hg) (by decide) | (with_unfolding_all exact dieSame_refl _ _) | (simp only [dieSame, and_self]))
    | intro _ | assumption | apply State.modDie_keeps | dsimp only

theorem State.clr_keeps (s : State) (d : Die) (l : List Fld) (hs : Holds K P s) (hk_regs : K .regs = false) :
    Holds K P (State.clr s d l) := by
  unfold State.clr
  try dsimp only
  with_reducible repeat' first
    | intro _ | assumption | apply State.wr_keeps | apply Holds.foldl | dsimp only

theorem State.resetEntry_keeps (s : State) (d : Die) (i : Nat) (hs : Holds K P s) (hk_regs : K .regs = false)
    (hk_sluice : K .sluice = false) :
    Holds K P (State.resetEntry s d i) := by
  unfold State.resetEntry
  try dsimp only
  with_reducible repeat' first
   
    | (intro g x hg; cases g <;> first | exact absurd (hk_sluice.symm.trans hg) (by decide) | (with_unfolding_all exact dieSame_refl _ _) | (simp only [dieSame, and_self]))
    | intro _ | assumption | apply State.clr_keeps | apply State.modDie_keeps | dsimp only

theorem State.ptRegisterAct_keeps (d : Die) (s : State) (hs : Holds K P s) (hk_free : K .free = false)
    (hk_polders : K .polders = false) (hk_regs : K .regs = false) (hk_sluice : K .sluice = false) :
    HoldsE K P (State.ptRegisterAct d s) := by
  unfold State.ptRegisterAct
  try dsimp only
  with_reducible repeat' first
    | intro _ | assumption | apply ptNamed_keeps | apply State.draw_keeps | apply State.wr_keeps | apply State.resetEntry_keeps
    | apply State.setPolder_keeps | apply Holds.ite | exact HoldsE.error | apply HoldsE.ok | apply HoldsE.ite
    | refine Holds.of_ok (by assumption) ?_ | split | dsimp only

theorem execPtRegister_keeps (rq : Requester) (d : Die) (s : State) (hs : Holds K P s) (hk_free : K .free = false)
    (hk_polders : K .polders = false) (hk_regs : K .regs = false) (hk_sluice : K .sluice = false) :
    HoldsO K P (execPtRegister rq d s) := by
  unfold execPtRegister
  try dsimp only
  with_reducible repeat' first
    | intro _ | assumption | apply State.ptCommand_keeps | apply State.ptRegisterAct_keeps | apply HoldsO.next | exact HoldsE.error
    | apply HoldsE.ok | exact HoldsEP.error | apply HoldsEP.ok | dsimp only

theorem execPtDeregister_keeps (rq : Requester) (d : Die) (s : State) (hs : Holds K P s) (hk_polders : K .polders = false)
    (hk_regs : K .regs = false) (hk_sluice : K .sluice = false) :
    HoldsO K P (execPtDeregister rq d s) := by
  unfold execPtDeregister
  try dsimp only
  with_reducible repeat' first
   
    | (intro g x hg; cases g <;> first | exact absurd (hk_polders.symm.trans hg) (by decide) | (with_unfolding_all exact dieSame_refl _ _) | (simp only [dieSame, and_self]))
    | intro _ | assumption | apply State.ptCommand_keeps | apply State.ptResident_keeps | apply State.resetEntry_keeps
    | apply State.modDie_keeps | apply Holds.ite | apply HoldsO.next | exact HoldsE.error | apply HoldsE.ok | apply HoldsE.ite
    | exact HoldsEP.error | apply HoldsEP.ok | apply HoldsEP.ite | apply Holds.ite1 | split | dsimp only

theorem State.setClosed_keeps (s : State) (id : Nat) (c : Bool) (hs : Holds K P s) (hk_polders : K .polders = false) :
    Holds K P (State.setClosed s id c) := by
  unfold State.setClosed
  try dsimp only
  with_reducible repeat' first
    | intro _ | assumption | apply State.setPolder_keeps | apply Holds.foldl | split | dsimp only

theorem State.closePolder_keeps (s : State) (id : Nat) (hs : Holds K P s) (hk_ops : K .ops = false) (hk_out : K .out = false)
    (hk_polders : K .polders = false) (hk_queues : K .queues = false) (hk_regs : K .regs = false) :
    Holds K P (State.closePolder s id) := by
  unfold State.closePolder
  try dsimp only
  with_reducible repeat' first
    | intro _ | assumption | apply State.polderQueuesFail_keeps | apply State.setClosed_keeps | dsimp only

theorem State.ptOpenClose_keeps (s : State) (via : PtVia) (op : Nat) (act : Nat → State → State) (hs : Holds K P s)
    (hact : ∀ x0 x1, Holds K P x1 → Holds K P (act x0 x1)) (hk_regs : K .regs = false) :
    Holds K P (State.ptOpenClose s via op act) := by
  unfold State.ptOpenClose
  try dsimp only
  with_reducible repeat' first
    | intro _ | assumption | apply State.ptCommand_keeps | apply ptNamed_keeps | apply State.wr_keeps | apply hact | apply Holds.ite
    | exact HoldsE.error | apply HoldsE.ok | apply HoldsE.ite | exact HoldsEP.error | apply HoldsEP.ok | apply HoldsEP.ite
    | apply Holds.ite1 | refine Holds.of_fst (by assumption) ?_ | refine Holds.of_ok (by assumption) ?_
    | refine Holds.of_okP (by assumption) ?_ | split | dsimp only

theorem execPtClose_keeps (via : PtVia) (s : State) (hs : Holds K P s) (hk_ops : K .ops = false) (hk_out : K .out = false)
    (hk_polders : K .polders = false) (hk_queues : K .queues = false) (hk_regs : K .regs = false) :
    HoldsO K P (execPtClose via s) := by
  unfold execPtClose
  try dsimp only
  with_reducible repeat' first
    | intro _ | assumption | apply State.ptOpenClose_keeps | apply State.closePolder_keeps | apply HoldsO.next | dsimp only

theorem execPtOpen_keeps (via : PtVia) (s : State) (hs : Holds K P s) (hk_polders : K .polders = false)
    (hk_regs : K .regs = false) :
    HoldsO K P (execPtOpen via s) := by
  unfold execPtOpen
  try dsimp only
  with_reducible repeat' first
    | intro _ | assumption | apply State.ptOpenClose_keeps | apply State.setClosed_keeps | apply HoldsO.next | dsimp only

theorem execPtBind_keeps (rq : Requester) (d : Die) (s : State) (hs : Holds K P s) (hk_polders : K .polders = false)
    (hk_regs : K .regs = false) :
    HoldsO K P (execPtBind rq d s) := by
  unfold execPtBind
  try dsimp only
  with_reducible repeat' first
    | intro _ | assumption | apply State.ptCommand_keeps | apply State.ptResident_keeps | apply State.wrs_keeps
    | apply State.setPolder_keeps | apply Holds.ite | apply HoldsO.next | exact HoldsE.error | apply HoldsE.ok | apply HoldsE.ite
    | exact HoldsEP.error | apply HoldsEP.ok | apply HoldsEP.ite | apply Holds.ite1 | split | dsimp only

theorem State.unbind_keeps (s : State) (d : Die) (i : Nat) (p : Polder) (f : Fn) (hs : Holds K P s)
    (hk_polders : K .polders = false) (hk_regs : K .regs = false) :
    Holds K P (State.unbind s d i p f) := by
  unfold State.unbind
  try dsimp only
  with_reducible repeat' first
    | intro _ | assumption | apply State.wrs_keeps | apply State.setPolder_keeps | dsimp only

theorem execPtUnbind_keeps (rq : Requester) (d : Die) (s : State) (hs : Holds K P s) (hk_polders : K .polders = false)
    (hk_regs : K .regs = false) :
    HoldsO K P (execPtUnbind rq d s) := by
  unfold execPtUnbind
  try dsimp only
  with_reducible repeat' first
    | intro _ | assumption | apply State.ptCommand_keeps | apply ptNamed_keeps | apply State.unbind_keeps | apply State.wr_keeps
    | apply Holds.ite | apply HoldsO.next | exact HoldsE.error | apply HoldsE.ok | apply HoldsE.ite | exact HoldsEP.error
    | apply HoldsEP.ok | apply HoldsEP.ite | apply Holds.ite1 | refine Holds.of_fst (by assumption) ?_
    | refine Holds.of_ok (by assumption) ?_ | refine Holds.of_okP (by assumption) ?_ | split | dsimp only

theorem execPtSetWindow_keeps (rq : Requester) (d : Die) (s : State) (hs : Holds K P s) (hk_polders : K .polders = false)
    (hk_regs : K .regs = false) :
    HoldsO K P (execPtSetWindow rq d s) := by
  unfold execPtSetWindow
  try dsimp only
  with_reducible repeat' first
    | intro _ | assumption | apply State.ptCommand_keeps | apply State.ptResident_keeps | apply State.setPolder_keeps
    | apply Holds.ite | apply HoldsO.next | exact HoldsE.error | apply HoldsE.ok | apply HoldsE.ite | exact HoldsEP.error
    | apply HoldsEP.ok | apply HoldsEP.ite | apply Holds.ite1 | split | dsimp only

theorem execPtSetAttr_keeps (rq : Requester) (d : Die) (s : State) (hs : Holds K P s) (hk_polders : K .polders = false)
    (hk_regs : K .regs = false) :
    HoldsO K P (execPtSetAttr rq d s) := by
  unfold execPtSetAttr
  try dsimp only
  with_reducible repeat' first
    | intro _ | assumption | apply State.ptCommand_keeps | apply State.ptResident_keeps | apply State.setPolder_keeps
    | apply Holds.ite | apply HoldsO.next | exact HoldsE.error | apply HoldsE.ok | apply HoldsE.ite | exact HoldsEP.error
    | apply HoldsEP.ok | apply HoldsEP.ite | apply Holds.ite1 | split | dsimp only

theorem execPtRead_keeps (rq : Requester) (d : Die) (s : State) (hs : Holds K P s) (hk_regs : K .regs = false) :
    HoldsO K P (execPtRead rq d s) := by
  unfold execPtRead
  try dsimp only
  with_reducible repeat' first
    | intro _ | assumption | apply State.ptCommand_keeps | apply State.ptResident_keeps | apply State.wrs_keeps | apply Holds.ite
    | apply HoldsO.next | exact HoldsE.error | apply HoldsE.ok | apply HoldsE.ite | exact HoldsEP.error | apply HoldsEP.ok
    | apply HoldsEP.ite | apply Holds.ite1 | split | dsimp only

end Sys2Proof.Machine
end

