-- ==== Sys2Proof/Laws/KeepXlu.lean ====
section
/-! SUPPORT. The operations of Xlu.lean keep what the operations on registers and memory keep. -/

namespace Sys2Proof.Machine

set_option linter.all false
set_option linter.unusedTactic false
set_option linter.unreachableTactic false

variable {K : Grp → Bool} {P : State → Prop}

theorem State.modXlu_keeps (s : State) (d : Die) (f : Xlu → Xlu) (hs : Holds K P s) (hk_xlu : K .xlu = false) :
    Holds K P (State.modXlu s d f) := by
  unfold State.modXlu
  try dsimp only
  with_reducible repeat' first
   
    | (intro g x hg; cases g <;> first | exact absurd (hk_xlu.symm.trans hg) (by decide) | (with_unfolding_all exact dieSame_refl _ _) | (simp only [dieSame, and_self]))
    | intro _ | assumption | apply State.modDie_keeps | dsimp only

theorem State.xFault_keeps (s : State) (d : Die) (remote : Bool) (polder : Nat) (key : Nat) (va : Nat) (reason : Nat)
    (hs : Holds K P s) (hk_regs : K .regs = false) :
    Holds K P (State.xFault s d remote polder key va reason) := by
  unfold State.xFault
  try dsimp only
  with_reducible repeat' first
    | intro _ | assumption | apply State.bump_keeps | apply State.wrs_keeps | apply Holds.ite | split | dsimp only

theorem State.startWalk_keeps (s : State) (d : Die) (w : Walk) (hs : Holds K P s) (hk_out : K .out = false)
    (hk_regs : K .regs = false) (hk_xlu : K .xlu = false) :
    Holds K P (State.startWalk s d w) := by
  unfold State.startWalk
  try dsimp only
  with_reducible repeat' first
    | intro _ | assumption | apply State.modXlu_keeps | apply State.when_keeps | apply State.bump_keeps | apply State.hread_keeps
    | apply Holds.ite | apply Holds.foldl | split | dsimp only

theorem State.startAts_keeps (s : State) (d : Die) (r : Region) (va : Nat) (spec : Bool) (key : Nat) (remote : Bool)
    (hs : Holds K P s) (hk_out : K .out = false) (hk_regs : K .regs = false) (hk_xlu : K .xlu = false) :
    Holds K P (State.startAts s d r va spec key remote) := by
  unfold State.startAts
  try dsimp only
  with_reducible repeat' first
    | intro _ | assumption | apply State.emit_keeps | apply State.modXlu_keeps | apply State.bump_keeps | apply Holds.ite | split
    | dsimp only

theorem State.miss_keeps (s : State) (d : Die) (polder : Nat) (m : XMiss) (hs : Holds K P s) (hk_regs : K .regs = false)
    (hk_xlu : K .xlu = false) :
    Holds K P (State.miss s d polder m) := by
  unfold State.miss
  try dsimp only
  with_reducible repeat' first
    | intro _ | assumption | apply State.modXlu_keeps | apply State.event_keeps | apply State.bump_keeps | apply Holds.ite | split
    | dsimp only

theorem State.missOver_keeps (s : State) (d : Die) (m : XMiss) (hs : Holds K P s) (hk_xlu : K .xlu = false) :
    Holds K P (State.missOver s d m) := by
  unfold State.missOver
  try dsimp only
  with_reducible repeat' first
    | intro _ | assumption | apply State.modXlu_keeps | apply Holds.ite | split | dsimp only

theorem State.lookupPage_keeps (s : State) (d : Die) (r : Region) (va : Nat) (a : Acs) (remote : Bool) (key : Nat)
    (hs : Holds K P s) (hk_out : K .out = false) (hk_regs : K .regs = false) (hk_xlu : K .xlu = false) :
    Holds K P (State.lookupPage s d r va a remote key).1 := by
  unfold State.lookupPage
  try dsimp only
  with_reducible repeat' first
    | intro _ | assumption | apply State.modXlu_keeps | apply State.missOver_keeps | apply State.bump_keeps | apply State.miss_keeps
    | apply State.startAts_keeps | apply State.startWalk_keeps | apply Holds.ite | apply Holds.ite1
    | refine Holds.of_fst (by assumption) ?_ | split | dsimp only

theorem State.xlateAt_keeps (s : State) (d : Die) (r : Region) (o : Nat) (a : Acs) (remote : Bool) (key : Nat) (n : Nat)
    (hs : Holds K P s) (hk_out : K .out = false) (hk_regs : K .regs = false) (hk_xlu : K .xlu = false) :
    Holds K P (State.xlateAt s d r o a remote key n).1 := by
  unfold State.xlateAt
  try dsimp only
  with_reducible repeat' first
    | intro _ | assumption | apply State.lookupPage_keeps | apply Holds.ite | apply Holds.ite1
    | refine Holds.of_fst (by assumption) ?_ | split | dsimp only

theorem State.xlateRange_keeps (a : Nat) (a' : Die) (a'' : Region) (a''' : Nat) (a'''' : Nat) (a''''' : Acs) (a'''''' : Bool)
    (a''''''' : Nat) (a'''''''' : State) (ha'''''''' : Holds K P a'''''''') (hk_out : K .out = false)
    (hk_regs : K .regs = false) (hk_xlu : K .xlu = false) :
    Holds K P (State.xlateRange a a' a'' a''' a'''' a''''' a'''''' a''''''' a'''''''').1 := by
  induction a generalizing a' a'' a''' a'''' a''''' a'''''' a''''''' a'''''''' ha'''''''' with
  | zero =>
    unfold State.xlateRange
    try dsimp only
    with_reducible repeat' first
      | intro _ | assumption | apply ih | apply State.xlateAt_keeps | apply Holds.ite | apply Holds.ite1
      | refine Holds.of_fst (by assumption) ?_ | split | dsimp only
  | succ n ih =>
    unfold State.xlateRange
    try dsimp only
    with_reducible repeat' first
      | intro _ | assumption | apply ih | apply State.xlateAt_keeps | apply Holds.ite | apply Holds.ite1
      | refine Holds.of_fst (by assumption) ?_ | split | dsimp only

theorem State.startSpec_keeps (s : State) (d : Die) (r : Region) (o : Nat) (key : Nat) (hs : Holds K P s)
    (hk_out : K .out = false) (hk_regs : K .regs = false) (hk_xlu : K .xlu = false) :
    Holds K P (State.startSpec s d r o key) := by
  unfold State.startSpec
  try dsimp only
  with_reducible repeat' first
    | intro _ | assumption | apply State.startAts_keeps | apply State.startWalk_keeps | apply Holds.ite | split | dsimp only

theorem State.prefetchNext_keeps (s : State) (d : Die) (r : Region) (o : Nat) (n : Nat) (key : Nat) (hs : Holds K P s)
    (hk_out : K .out = false) (hk_regs : K .regs = false) (hk_xlu : K .xlu = false) :
    Holds K P (State.prefetchNext s d r o n key) := by
  unfold State.prefetchNext
  try dsimp only
  with_reducible repeat' first
    | intro _ | assumption | apply State.startSpec_keeps | apply Holds.ite | split | dsimp only

theorem State.useRegion_keeps (s : State) (d : Die) (key : Nat) (a : Acs) (hs : Holds K P s) (hk_xlu : K .xlu = false) :
    Holds K P (State.useRegion s d key a) := by
  unfold State.useRegion
  try dsimp only
  with_reducible repeat' first
    | intro _ | assumption | apply State.modXlu_keeps | apply Holds.ite | split | dsimp only

theorem State.xlate_keeps (s : State) (d : Die) (r : Region) (o : Nat) (n : Nat) (a : Acs) (remote : Bool) (key : Nat)
    (hs : Holds K P s) (hk_out : K .out = false) (hk_regs : K .regs = false) (hk_xlu : K .xlu = false) :
    Holds K P (State.xlate s d r o n a remote key).1 := by
  unfold State.xlate
  try dsimp only
  with_reducible repeat' first
    | intro _ | assumption | apply State.xlateRange_keeps | apply State.useRegion_keeps | apply State.prefetchNext_keeps
    | apply Holds.ite | apply Holds.ite1 | refine Holds.of_fst (by assumption) ?_ | split | dsimp only

theorem State.writeSegs_keeps (a : List (XRes × Nat)) (a' : List Byte) (a'' : Bool) (a''' : Bool) (a'''' : State)
    (ha'''' : Holds K P a'''') (hk_accesses : K .accesses = false) (hk_dmem : K .dmem = false) (hk_hag : K .hag = false)
    (hk_hold : K .hold = false) (hk_mem : K .mem = false) (hk_out : K .out = false) (hk_regs : K .regs = false) :
    Holds K P (State.writeSegs a a' a'' a''' a'''') := by
  induction a generalizing a' a'' a''' a'''' ha'''' with
  | nil =>
    unfold State.writeSegs
    try dsimp only
    with_reducible repeat' first
      | intro _ | assumption | apply ih | apply State.when_keeps | apply State.hwrite_keeps | apply State.emit_keeps
      | apply State.devAccess_keeps | refine Holds.of_fst (by assumption) ?_ | split | dsimp only
  | cons x l ih =>
    unfold State.writeSegs
    try dsimp only
    with_reducible repeat' first
      | intro _ | assumption | apply ih | apply State.when_keeps | apply State.hwrite_keeps | apply State.emit_keeps
      | apply State.devAccess_keeps | refine Holds.of_fst (by assumption) ?_ | split | dsimp only

theorem State.walkFault_keeps (s : State) (d : Die) (id : Nat) (w : Walk) (reason : Nat) (hs : Holds K P s)
    (hk_xlu : K .xlu = false) :
    Holds K P (State.walkFault s d id w reason) := by
  unfold State.walkFault
  try dsimp only
  with_reducible repeat' first
    | intro _ | assumption | apply State.modXlu_keeps | apply Holds.ite | split | dsimp only

theorem State.walkReturn_keeps (s : State) (d : Die) (id : Nat) (pte : Option W64) (hs : Holds K P s)
    (hk_out : K .out = false) (hk_regs : K .regs = false) (hk_xlu : K .xlu = false) :
    Holds K P (State.walkReturn s d id pte) := by
  unfold State.walkReturn
  try dsimp only
  with_reducible repeat' first
    | intro _ | assumption | apply State.bump_keeps | apply State.modXlu_keeps | apply State.walkFault_keeps
    | apply State.hread_keeps | apply State.when_keeps | apply Holds.ite | exact HoldsS.none | apply HoldsS.some
    | refine Holds.of_some (by assumption) ?_ | split | dsimp only

theorem State.fenceRead_keeps (s : State) (d : Die) (f : Fn) (hs : Holds K P s) (hk_out : K .out = false)
    (hk_reads : K .reads = false) (hk_regs : K .regs = false) :
    Holds K P (State.fenceRead s d f) := by
  unfold State.fenceRead
  try dsimp only
  with_reducible repeat' first
    | intro _ | assumption | apply State.hread_keeps
    | simp only [Holds.upd, hk_reads, Bool.false_eq_true, false_implies, implies_true] | dsimp only

theorem State.invPerform_keeps (s : State) (d : Die) (i : InvScope) (key : Option Nat) (hs : Holds K P s)
    (hk_out : K .out = false) (hk_reads : K .reads = false) (hk_regs : K .regs = false) (hk_xlu : K .xlu = false) :
    Holds K P (State.invPerform s d i key).1 := by
  unfold State.invPerform
  try dsimp only
  with_reducible repeat' first
    | intro _ | assumption | apply State.fenceRead_keeps | apply State.modXlu_keeps | apply Holds.foldl | exact HoldsS.none
    | apply HoldsS.some | apply Holds.foldl1 | dsimp only

theorem State.invBegin_keeps (s : State) (d : Die) (i : InvScope) (key : Option Nat) (hs : Holds K P s)
    (hk_out : K .out = false) (hk_reads : K .reads = false) (hk_regs : K .regs = false) (hk_xlu : K .xlu = false) :
    Holds K P (State.invBegin s d i key).1 := by
  unfold State.invBegin
  try dsimp only
  with_reducible repeat' first
    | intro _ | assumption | apply State.invPerform_keeps | exact HoldsS.none | apply HoldsS.some
    | refine Holds.of_fst (by assumption) ?_ | refine Holds.of_some (by assumption) ?_ | split | dsimp only

theorem State.invStep_keeps (d : Die) (id : Nat) (w : InvWait) (s : State) (hs : Holds K P s) (hk_out : K .out = false)
    (hk_reads : K .reads = false) (hk_regs : K .regs = false) (hk_xlu : K .xlu = false) :
    Holds K P (State.invStep d id w s).1 := by
  unfold State.invStep
  try dsimp only
  with_reducible repeat' first
    | intro _ | assumption | apply State.invPerform_keeps | apply Holds.ite | apply Holds.ite1
    | refine Holds.of_fst (by assumption) ?_ | split | dsimp only

theorem State.walkEnded_keeps (s : State) (d : Die) (id : Nat) (hs : Holds K P s) (hk_out : K .out = false)
    (hk_reads : K .reads = false) (hk_regs : K .regs = false) (hk_xlu : K .xlu = false) :
    Holds K P (State.walkEnded s d id) := by
  unfold State.walkEnded
  try dsimp only
  with_reducible repeat' first
    | intro _ | assumption | apply State.invStep_keeps | apply State.modXlu_keeps | apply Holds.foldl | apply Holds.foldl1
    | dsimp only

theorem State.atsInvDone_keeps (s : State) (d : Die) (hs : Holds K P s) (hk_out : K .out = false) (hk_xlu : K .xlu = false) :
    Holds K P (State.atsInvDone s d) := by
  unfold State.atsInvDone
  try dsimp only
  with_reducible repeat' first
    | intro _ | assumption | apply State.modXlu_keeps | apply State.emit_keeps | apply Holds.foldl | split | dsimp only

theorem State.walkStep_keeps (s : State) (d : Die) (id : Nat) (pte : Option W64) (hs : Holds K P s) (hk_out : K .out = false)
    (hk_reads : K .reads = false) (hk_regs : K .regs = false) (hk_xlu : K .xlu = false) :
    Holds K P (State.walkStep s d id pte) := by
  unfold State.walkStep
  try dsimp only
  with_reducible repeat' first
    | intro _ | assumption | apply State.walkReturn_keeps | apply State.atsInvDone_keeps | apply State.walkEnded_keeps
    | apply Holds.ite | exact HoldsS.none | apply HoldsS.some | refine Holds.of_some (by assumption) ?_ | split | dsimp only

theorem execWalkReadReturn_keeps (d : Die) (id : Nat) (pte : Option W64) (s : State) (hs : Holds K P s)
    (hk_out : K .out = false) (hk_reads : K .reads = false) (hk_regs : K .regs = false) (hk_xlu : K .xlu = false) :
    HoldsO K P (execWalkReadReturn d id pte s) := by
  unfold execWalkReadReturn
  try dsimp only
  with_reducible repeat' first
    | intro _ | assumption | apply State.walkStep_keeps | apply HoldsO.next | exact HoldsS.none | apply HoldsS.some | dsimp only

theorem State.atsReturn_keeps (s : State) (d : Die) (id : Nat) (addr : W64) (log2Size : Fin 64) (r : Bool) (w : Bool)
    (u : Bool) (bad : Bool) (hs : Holds K P s) (hk_regs : K .regs = false) (hk_xlu : K .xlu = false) :
    Holds K P (State.atsReturn s d id addr log2Size r w u bad) := by
  unfold State.atsReturn
  try dsimp only
  with_reducible repeat' first
    | intro _ | assumption | apply State.modXlu_keeps | apply State.when_keeps | apply State.bump_keeps | apply Holds.ite | split
    | dsimp only

theorem execAtsTranslationCompletion_keeps (d : Die) (id : Nat) (addr : W64) (log2Size : Fin 64) (r : Bool) (w : Bool)
    (u : Bool) (bad : Bool) (s : State) (hs : Holds K P s) (hk_regs : K .regs = false) (hk_xlu : K .xlu = false) :
    HoldsO K P (execAtsTranslationCompletion d id addr log2Size r w u bad s) := by
  unfold execAtsTranslationCompletion
  try dsimp only
  with_reducible repeat' first
    | intro _ | assumption | apply State.atsReturn_keeps | apply HoldsO.next | dsimp only

theorem State.xEnd_keeps (s : State) (d : Die) (c : Fin 3) (code : Nat) (detail : Nat) (hs : Holds K P s)
    (hk_regs : K .regs = false) :
    Holds K P (State.xEnd s d c code detail) := by
  unfold State.xEnd
  try dsimp only
  with_reducible repeat' first
    | intro _ | assumption | apply State.wrs_keeps | dsimp only

theorem State.xCommand_keeps (s : State) (rq : Requester) (d : Die) (c : Fin 3) (op : Nat) (act : State → Except
    (Nat × Nat) State) (hs : Holds K P s) (hact : ∀ x0, Holds K P x0 → HoldsE K P (act x0)) (hk_regs : K .regs = false) :
    Holds K P (State.xCommand s rq d c op act) := by
  unfold State.xCommand
  try dsimp only
  with_reducible repeat' first
    | intro _ | assumption | apply State.bump_keeps | apply State.wr_keeps | apply State.xEnd_keeps | apply hact | apply Holds.ite
    | exact HoldsE.error | apply HoldsE.ok | apply HoldsE.ite | exact HoldsEP.error | apply HoldsEP.ok | apply HoldsEP.ite
    | apply Holds.ite1 | refine Holds.of_fst (by assumption) ?_ | refine Holds.of_ok (by assumption) ?_
    | refine Holds.of_okP (by assumption) ?_ | split | dsimp only

theorem State.xInvalidate_keeps (s : State) (d : Die) (c : Fin 3) (i : InvScope) (key : Option Nat) (hs : Holds K P s)
    (hk_out : K .out = false) (hk_reads : K .reads = false) (hk_regs : K .regs = false) (hk_xlu : K .xlu = false) :
    Holds K P (State.xInvalidate s d c i key) := by
  unfold State.xInvalidate
  try dsimp only
  with_reducible repeat' first
    | intro _ | assumption | apply State.invBegin_keeps | apply State.wr_keeps | apply State.modXlu_keeps | exact HoldsS.none
    | apply HoldsS.some | refine Holds.of_fst (by assumption) ?_ | refine Holds.of_some (by assumption) ?_ | split | dsimp only

theorem State.xCreateSpace_keeps (rq : Requester) (d : Die) (c : Fin 3) (s : State) (hs : Holds K P s)
    (hk_regs : K .regs = false) (hk_xlu : K .xlu = false) :
    HoldsE K P (State.xCreateSpace rq d c s) := by
  unfold State.xCreateSpace
  try dsimp only
  with_reducible repeat' first
    | intro _ | assumption | apply State.wr_keeps | apply State.modXlu_keeps | apply Holds.ite | exact HoldsE.error
    | apply HoldsE.ok | apply HoldsE.ite | refine Holds.of_ok (by assumption) ?_ | split | dsimp only

theorem execCreateSpace_keeps (rq : Requester) (d : Die) (c : Fin 3) (s : State) (hs : Holds K P s)
    (hk_regs : K .regs = false) (hk_xlu : K .xlu = false) :
    HoldsO K P (execCreateSpace rq d c s) := by
  unfold execCreateSpace
  try dsimp only
  with_reducible repeat' first
    | intro _ | assumption | apply State.xCommand_keeps | apply State.xCreateSpace_keeps | apply HoldsO.next | exact HoldsE.error
    | apply HoldsE.ok | exact HoldsEP.error | apply HoldsEP.ok | dsimp only

theorem State.xDestroySpace_keeps (rq : Requester) (d : Die) (c : Fin 3) (s : State) (hs : Holds K P s)
    (hk_out : K .out = false) (hk_reads : K .reads = false) (hk_regs : K .regs = false) (hk_xlu : K .xlu = false) :
    HoldsE K P (State.xDestroySpace rq d c s) := by
  unfold State.xDestroySpace
  try dsimp only
  with_reducible repeat' first
    | intro _ | assumption | apply State.modXlu_keeps | apply State.xInvalidate_keeps | apply Holds.ite | exact HoldsE.error
    | apply HoldsE.ok | apply HoldsE.ite | refine Holds.of_ok (by assumption) ?_ | split | dsimp only

theorem execDestroySpace_keeps (rq : Requester) (d : Die) (c : Fin 3) (s : State) (hs : Holds K P s) (hk_out : K .out = false)
    (hk_reads : K .reads = false) (hk_regs : K .regs = false) (hk_xlu : K .xlu = false) :
    HoldsO K P (execDestroySpace rq d c s) := by
  unfold execDestroySpace
  try dsimp only
  with_reducible repeat' first
    | intro _ | assumption | apply State.xCommand_keeps | apply State.xDestroySpace_keeps | apply HoldsO.next | exact HoldsE.error
    | apply HoldsE.ok | exact HoldsEP.error | apply HoldsEP.ok | dsimp only

theorem State.xCreateRegion_keeps (rq : Requester) (d : Die) (c : Fin 3) (s : State) (hs : Holds K P s)
    (hk_regs : K .regs = false) (hk_xlu : K .xlu = false) :
    HoldsE K P (State.xCreateRegion rq d c s) := by
  unfold State.xCreateRegion
  try dsimp only
  with_reducible repeat' first
    | intro _ | assumption | apply State.wr_keeps | apply State.modXlu_keeps | apply Holds.ite | exact HoldsE.error
    | apply HoldsE.ok | apply HoldsE.ite | refine Holds.of_ok (by assumption) ?_ | split | dsimp only

theorem execCreateRegion_keeps (rq : Requester) (d : Die) (c : Fin 3) (s : State) (hs : Holds K P s)
    (hk_regs : K .regs = false) (hk_xlu : K .xlu = false) :
    HoldsO K P (execCreateRegion rq d c s) := by
  unfold execCreateRegion
  try dsimp only
  with_reducible repeat' first
    | intro _ | assumption | apply State.xCommand_keeps | apply State.xCreateRegion_keeps | apply HoldsO.next | exact HoldsE.error
    | apply HoldsE.ok | exact HoldsEP.error | apply HoldsEP.ok | dsimp only

theorem State.xDestroyRegion_keeps (rq : Requester) (d : Die) (c : Fin 3) (s : State) (hs : Holds K P s)
    (hk_out : K .out = false) (hk_reads : K .reads = false) (hk_regs : K .regs = false) (hk_xlu : K .xlu = false) :
    HoldsE K P (State.xDestroyRegion rq d c s) := by
  unfold State.xDestroyRegion
  try dsimp only
  with_reducible repeat' first
    | intro _ | assumption | apply State.modXlu_keeps | apply State.xInvalidate_keeps | apply Holds.ite | exact HoldsE.error
    | apply HoldsE.ok | apply HoldsE.ite | refine Holds.of_ok (by assumption) ?_ | split | dsimp only

theorem execDestroyRegion_keeps (rq : Requester) (d : Die) (c : Fin 3) (s : State) (hs : Holds K P s)
    (hk_out : K .out = false) (hk_reads : K .reads = false) (hk_regs : K .regs = false) (hk_xlu : K .xlu = false) :
    HoldsO K P (execDestroyRegion rq d c s) := by
  unfold execDestroyRegion
  try dsimp only
  with_reducible repeat' first
    | intro _ | assumption | apply State.xCommand_keeps | apply State.xDestroyRegion_keeps | apply HoldsO.next | exact HoldsE.error
    | apply HoldsE.ok | exact HoldsEP.error | apply HoldsEP.ok | dsimp only

theorem State.xInvSpace_keeps (rq : Requester) (d : Die) (c : Fin 3) (id : Nat) (i : Space → InvScope) (s : State)
    (hs : Holds K P s) (hk_out : K .out = false) (hk_reads : K .reads = false) (hk_regs : K .regs = false)
    (hk_xlu : K .xlu = false) :
    HoldsE K P (State.xInvSpace rq d c id i s) := by
  unfold State.xInvSpace
  try dsimp only
  with_reducible repeat' first
    | intro _ | assumption | apply State.xInvalidate_keeps | apply Holds.ite | exact HoldsE.error | apply HoldsE.ok
    | apply HoldsE.ite | refine Holds.of_ok (by assumption) ?_ | split | dsimp only

theorem State.xInvRange_keeps (rq : Requester) (d : Die) (c : Fin 3) (s : State) (hs : Holds K P s) (hk_out : K .out = false)
    (hk_reads : K .reads = false) (hk_regs : K .regs = false) (hk_xlu : K .xlu = false) :
    HoldsE K P (State.xInvRange rq d c s) := by
  unfold State.xInvRange
  try dsimp only
  with_reducible repeat' first
    | intro _ | assumption | apply State.xInvalidate_keeps | apply State.xInvSpace_keeps | apply Holds.ite | exact HoldsE.error
    | apply HoldsE.ok | apply HoldsE.ite | split | dsimp only

theorem execInvalidateRange_keeps (rq : Requester) (d : Die) (c : Fin 3) (s : State) (hs : Holds K P s)
    (hk_out : K .out = false) (hk_reads : K .reads = false) (hk_regs : K .regs = false) (hk_xlu : K .xlu = false) :
    HoldsO K P (execInvalidateRange rq d c s) := by
  unfold execInvalidateRange
  try dsimp only
  with_reducible repeat' first
    | intro _ | assumption | apply State.xCommand_keeps | apply State.xInvRange_keeps | apply HoldsO.next | exact HoldsE.error
    | apply HoldsE.ok | exact HoldsEP.error | apply HoldsEP.ok | dsimp only

theorem execInvalidateSpace_keeps (rq : Requester) (d : Die) (c : Fin 3) (s : State) (hs : Holds K P s)
    (hk_out : K .out = false) (hk_reads : K .reads = false) (hk_regs : K .regs = false) (hk_xlu : K .xlu = false) :
    HoldsO K P (execInvalidateSpace rq d c s) := by
  unfold execInvalidateSpace
  try dsimp only
  with_reducible repeat' first
    | intro _ | assumption | apply State.xCommand_keeps | apply State.xInvSpace_keeps | apply HoldsO.next | exact HoldsE.error
    | apply HoldsE.ok | exact HoldsEP.error | apply HoldsEP.ok | dsimp only

theorem State.xInvFn_keeps (rq : Requester) (d : Die) (c : Fin 3) (s : State) (hs : Holds K P s) (hk_out : K .out = false)
    (hk_reads : K .reads = false) (hk_regs : K .regs = false) (hk_xlu : K .xlu = false) :
    HoldsE K P (State.xInvFn rq d c s) := by
  unfold State.xInvFn
  try dsimp only
  with_reducible repeat' first
    | intro _ | assumption | apply State.xInvalidate_keeps | apply Holds.ite | exact HoldsE.error | apply HoldsE.ok
    | apply HoldsE.ite | split | dsimp only

theorem execInvalidateFunction_keeps (rq : Requester) (d : Die) (c : Fin 3) (s : State) (hs : Holds K P s)
    (hk_out : K .out = false) (hk_reads : K .reads = false) (hk_regs : K .regs = false) (hk_xlu : K .xlu = false) :
    HoldsO K P (execInvalidateFunction rq d c s) := by
  unfold execInvalidateFunction
  try dsimp only
  with_reducible repeat' first
    | intro _ | assumption | apply State.xCommand_keeps | apply State.xInvFn_keeps | apply HoldsO.next | exact HoldsE.error
    | apply HoldsE.ok | exact HoldsEP.error | apply HoldsEP.ok | dsimp only

theorem execInvalidateAll_keeps (rq : Requester) (d : Die) (c : Fin 3) (s : State) (hs : Holds K P s)
    (hk_out : K .out = false) (hk_reads : K .reads = false) (hk_regs : K .regs = false) (hk_xlu : K .xlu = false) :
    HoldsO K P (execInvalidateAll rq d c s) := by
  unfold execInvalidateAll
  try dsimp only
  with_reducible repeat' first
    | intro _ | assumption | apply State.xCommand_keeps | apply State.xInvalidate_keeps | apply Holds.ite | apply HoldsO.next
    | exact HoldsE.error | apply HoldsE.ok | apply HoldsE.ite | exact HoldsEP.error | apply HoldsEP.ok | apply HoldsEP.ite
    | apply Holds.ite1 | split | dsimp only

theorem execTokenComplete_keeps (d : Die) (c : Fin 3) (s : State) (hs : Holds K P s) (hk_regs : K .regs = false)
    (hk_xlu : K .xlu = false) :
    HoldsO K P (execTokenComplete d c s) := by
  unfold execTokenComplete
  try dsimp only
  with_reducible repeat' first
    | intro _ | assumption | apply State.wr_keeps | apply State.modXlu_keeps | apply Holds.ite | apply HoldsO.next | split
    | dsimp only

theorem execAtsInvalidateRequest_keeps (f : Fn) (va : W64) (log2Size : Fin 64) (s : State) (hs : Holds K P s)
    (hk_out : K .out = false) (hk_reads : K .reads = false) (hk_regs : K .regs = false) (hk_xlu : K .xlu = false) :
    HoldsO K P (execAtsInvalidateRequest f va log2Size s) := by
  unfold execAtsInvalidateRequest
  try dsimp only
  with_reducible repeat' first
    | intro _ | assumption | apply State.invBegin_keeps | apply State.bump_keeps | apply State.atsInvDone_keeps
    | apply State.modXlu_keeps | apply Holds.ite | apply HoldsO.next | apply Holds.ite1 | refine Holds.of_fst (by assumption) ?_
    | split | dsimp only

theorem State.xluResetFn_keeps (s : State) (f : Fn) (hs : Holds K P s) (hk_xlu : K .xlu = false) :
    Holds K P (State.xluResetFn s f) := by
  unfold State.xluResetFn
  try dsimp only
  with_reducible repeat' first
    | intro _ | assumption | apply State.modXlu_keeps | apply Holds.ite | split | dsimp only

end Sys2Proof.Machine
end

