-- ==== Sys2Proof/Laws/KeepPackets.lean ====
section
/-! SUPPORT. The operations of Packets.lean keep what the operations on registers and memory keep. -/

namespace Sys2Proof.Machine

set_option linter.all false
set_option linter.unusedTactic false
set_option linter.unreachableTactic false

variable {K : Grp → Bool} {P : State → Prop}

theorem State.specBuffers_keeps (s : State) (k : Nat) (hs : Holds K P s) (hk_out : K .out = false) (hk_regs : K .regs = false)
    (hk_xlu : K .xlu = false) :
    Holds K P (State.specBuffers s k) := by
  unfold State.specBuffers
  try dsimp only
  with_reducible repeat' first
    | intro _ | assumption | apply State.startSpec_keeps | apply Holds.ite | apply Holds.foldl | split | dsimp only

theorem execIndexReadReturn_keeps (f : Fn) (q : Fin 128) (k : Fin 8) (idx : IndexRet) (slots : List (W32 × Option
    (BitVec 512))) (s : State) (hs : Holds K P s) (hk_free : K .free = false) (hk_ops : K .ops = false)
    (hk_out : K .out = false) (hk_queues : K .queues = false) (hk_regs : K .regs = false) (hk_rings : K .rings = false)
    (hk_triggers : K .triggers = false) (hk_xlu : K .xlu = false) :
    HoldsO K P (execIndexReadReturn f q k idx slots s) := by
  unfold execIndexReadReturn
  try dsimp only
  with_reducible repeat' first
    | intro _ | assumption | apply State.specBuffers_keeps | apply State.indexReturn_keeps | apply HoldsO.next | exact HoldsS.none
    | apply HoldsS.some | dsimp only

theorem execPhaseRetry_keeps (f : Fn) (q : Fin 128) (k : Fin 8) (slot : W32) (data : Option (BitVec 512)) (s : State)
    (hs : Holds K P s) (hk_free : K .free = false) (hk_ops : K .ops = false) (hk_out : K .out = false)
    (hk_queues : K .queues = false) (hk_regs : K .regs = false) (hk_rings : K .rings = false)
    (hk_triggers : K .triggers = false) (hk_xlu : K .xlu = false) :
    HoldsO K P (execPhaseRetry f q k slot data s) := by
  unfold execPhaseRetry
  try dsimp only
  with_reducible repeat' first
    | intro _ | assumption | apply State.specBuffers_keeps | apply State.phaseRetry_keeps | apply HoldsO.next | exact HoldsS.none
    | apply HoldsS.some | dsimp only

theorem State.modTru_keeps (s : State) (d : Die) (f : Tru → Tru) (hs : Holds K P s) (hk_tru : K .tru = false) :
    Holds K P (State.modTru s d f) := by
  unfold State.modTru
  try dsimp only
  with_reducible repeat' first
   
    | (intro g x hg; cases g <;> first | exact absurd (hk_tru.symm.trans hg) (by decide) | (with_unfolding_all exact dieSame_refl _ _) | (simp only [dieSame, and_self]))
    | intro _ | assumption | apply State.modDie_keeps | dsimp only

theorem State.modCtx_keeps (s : State) (d : Die) (i : Nat) (f : Ctx → Ctx) (hs : Holds K P s) (hk_tru : K .tru = false) :
    Holds K P (State.modCtx s d i f) := by
  unfold State.modCtx
  try dsimp only
  with_reducible repeat' first
    | intro _ | assumption | apply State.modTru_keeps | dsimp only

theorem State.modSluice_keeps (s : State) (d : Die) (f : Sluice → Sluice) (hs : Holds K P s) (hk_sluice : K .sluice = false) :
    Holds K P (State.modSluice s d f) := by
  unfold State.modSluice
  try dsimp only
  with_reducible repeat' first
   
    | (intro g x hg; cases g <;> first | exact absurd (hk_sluice.symm.trans hg) (by decide) | (with_unfolding_all exact dieSame_refl _ _) | (simp only [dieSame, and_self]))
    | intro _ | assumption | apply State.modDie_keeps | dsimp only

theorem State.sendCtl_keeps (s : State) (d : Die) (p : Pkt) (hs : Holds K P s) (hk_sluice : K .sluice = false) :
    Holds K P (State.sendCtl s d p) := by
  unfold State.sendCtl
  try dsimp only
  with_reducible repeat' first
    | intro _ | assumption | apply State.modSluice_keeps | dsimp only

theorem State.replyCtl_keeps (s : State) (d : Die) (p : Pkt) (hs : Holds K P s) (hk_regs : K .regs = false)
    (hk_sluice : K .sluice = false) :
    Holds K P (State.replyCtl s d p) := by
  unfold State.replyCtl
  try dsimp only
  with_reducible repeat' first
    | intro _ | assumption | apply State.bump_keeps | apply State.sendCtl_keeps | apply Holds.ite | split | dsimp only

theorem State.recallFor_keeps (s : State) (a : Nat) (n : Nat) (write : Bool) (hs : Holds K P s)
    (hk_accesses : K .accesses = false) (hk_dmem : K .dmem = false) (hk_hag : K .hag = false) (hk_hold : K .hold = false)
    (hk_mem : K .mem = false) (hk_out : K .out = false) (hk_regs : K .regs = false) :
    Holds K P (State.recallFor s a n write).1 := by
  unfold State.recallFor
  try dsimp only
  with_reducible repeat' first
    | intro _ | assumption | apply State.devAccess_keeps | apply Holds.foldl | apply Holds.foldl1
    | refine Holds.of_fst (by assumption) ?_ | split | dsimp only

theorem State.readSegs_keeps (u : ReadUse) (a : List (XRes × Nat)) (a' : Die) (a'' : Nat) (a''' : Nat) (a'''' : State)
    (ha'''' : Holds K P a'''') (hk_accesses : K .accesses = false) (hk_dmem : K .dmem = false) (hk_hag : K .hag = false)
    (hk_hold : K .hold = false) (hk_mem : K .mem = false) (hk_out : K .out = false) (hk_reads : K .reads = false)
    (hk_regs : K .regs = false) :
    Holds K P (State.readSegs u a a' a'' a''' a'''').1 := by
  induction a generalizing a' a'' a''' a'''' ha'''' with
  | nil =>
    unfold State.readSegs
    try dsimp only
    with_reducible repeat' first
      | intro _ | assumption | apply ih | apply State.recallFor_keeps | apply State.hread_keeps
      | simp only [Holds.upd, hk_reads, Bool.false_eq_true, false_implies, implies_true] | refine Holds.of_fst (by assumption) ?_
      | split | dsimp only
  | cons x l ih =>
    unfold State.readSegs
    try dsimp only
    with_reducible repeat' first
      | intro _ | assumption | apply ih | apply State.recallFor_keeps | apply State.hread_keeps
      | simp only [Holds.upd, hk_reads, Bool.false_eq_true, false_implies, implies_true] | refine Holds.of_fst (by assumption) ?_
      | split | dsimp only

theorem State.recallSegs_keeps (s : State) (l : List (XRes × Nat)) (write : Bool) (hs : Holds K P s)
    (hk_accesses : K .accesses = false) (hk_dmem : K .dmem = false) (hk_hag : K .hag = false) (hk_hold : K .hold = false)
    (hk_mem : K .mem = false) (hk_out : K .out = false) (hk_regs : K .regs = false) :
    Holds K P (State.recallSegs s l write).1 := by
  unfold State.recallSegs
  try dsimp only
  with_reducible repeat' first
    | intro _ | assumption | apply State.recallFor_keeps | apply Holds.foldl | apply Holds.foldl1
    | refine Holds.of_fst (by assumption) ?_ | split | dsimp only

theorem State.readSrc_keeps (s : State) (d : Die) (u : ReadUse) (id : Nat) (a : PSrc) (hs : Holds K P s)
    (hk_accesses : K .accesses = false) (hk_dmem : K .dmem = false) (hk_hag : K .hag = false) (hk_hold : K .hold = false)
    (hk_mem : K .mem = false) (hk_out : K .out = false) (hk_reads : K .reads = false) (hk_regs : K .regs = false)
    (hk_xlu : K .xlu = false) :
    Holds K P (State.readSrc s d u id a).1 := by
  unfold State.readSrc
  try dsimp only
  with_reducible repeat' first
    | intro _ | assumption | apply State.xlate_keeps | apply State.readSegs_keeps | apply Holds.ite | apply Holds.ite1
    | refine Holds.of_fst (by assumption) ?_ | split | dsimp only

theorem State.refreshMeter_keeps (s : State) (d : Die) (e : Nat) (hs : Holds K P s) (hk_sluice : K .sluice = false) :
    Holds K P (State.refreshMeter s d e) := by
  unfold State.refreshMeter
  try dsimp only
  with_reducible repeat' first
    | intro _ | assumption | apply State.modSluice_keeps | apply Holds.ite | split | dsimp only

theorem State.inject_keeps (s : State) (d : Die) (hp : Fin 4) (source : Nat) (tag : Option PTag) (flag : Bool) (p : Pkt)
    (src : PSrc) (hs : Holds K P s) (hk_accesses : K .accesses = false) (hk_dmem : K .dmem = false) (hk_hag : K .hag = false)
    (hk_hold : K .hold = false) (hk_mem : K .mem = false) (hk_out : K .out = false) (hk_reads : K .reads = false)
    (hk_regs : K .regs = false) (hk_sluice : K .sluice = false) (hk_xlu : K .xlu = false) :
    Holds K P (State.inject s d hp source tag flag p src).1 := by
  unfold State.inject
  try dsimp only
  with_reducible repeat' first
    | intro _ | assumption | apply State.refreshMeter_keeps | apply State.readSrc_keeps | apply State.modSluice_keeps
    | simp only [Holds.upd, Bool.false_eq_true, false_implies, implies_true] | exact HoldsS.none | apply HoldsS.some
    | refine Holds.of_fst (by assumption) ?_ | refine Holds.of_some (by assumption) ?_ | split | dsimp only

theorem State.injectHeld_keeps (s : State) (d : Die) (hp : Fin 4) (source : Nat) (tag : Option PTag) (p : Pkt) (l : List Byte)
    (hs : Holds K P s) (hk_accesses : K .accesses = false) (hk_dmem : K .dmem = false) (hk_hag : K .hag = false)
    (hk_hold : K .hold = false) (hk_mem : K .mem = false) (hk_out : K .out = false) (hk_reads : K .reads = false)
    (hk_regs : K .regs = false) (hk_sluice : K .sluice = false) (hk_xlu : K .xlu = false) :
    Holds K P (State.injectHeld s d hp source tag p l) := by
  unfold State.injectHeld
  try dsimp only
  with_reducible repeat' first
    | intro _ | assumption | apply State.inject_keeps | exact HoldsS.none | apply HoldsS.some | dsimp only

theorem State.opCheck_keeps (s : State) (i : Nat) (hs : Holds K P s) (hk_ops : K .ops = false) :
    Holds K P (State.opCheck s i) := by
  unfold State.opCheck
  try dsimp only
  with_reducible repeat' first
    | intro _ | assumption | apply State.endOp_keeps | apply Holds.ite | split | dsimp only

theorem State.opError_keeps (s : State) (i : Nat) (status : Nat) (at_ : Nat) (hs : Holds K P s) (hk_ops : K .ops = false) :
    Holds K P (State.opError s i status at_) := by
  unfold State.opError
  try dsimp only
  with_reducible repeat' first
    | intro _ | assumption | apply State.modOp_keeps | apply Holds.ite | split | dsimp only

theorem State.opAcked_keeps (s : State) (t : PTag) (hs : Holds K P s) (hk_ops : K .ops = false) :
    Holds K P (State.opAcked s t) := by
  unfold State.opAcked
  try dsimp only
  with_reducible repeat' first
    | intro _ | assumption | apply State.opCheck_keeps | apply State.modOp_keeps | apply Holds.ite | split | dsimp only

theorem State.opAbort_keeps (s : State) (i : Nat) (status : Nat) (hs : Holds K P s) (hk_ops : K .ops = false) :
    Holds K P (State.opAbort s i status) := by
  unfold State.opAbort
  try dsimp only
  with_reducible repeat' first
    | intro _ | assumption | apply State.endOp_keeps | apply Holds.ite | split | dsimp only

theorem State.opFault_keeps (s : State) (i : Nat) (o : WOp) (key : Nat) (va : Nat) (reason : Nat) (hs : Holds K P s)
    (hk_ops : K .ops = false) (hk_regs : K .regs = false) :
    Holds K P (State.opFault s i o key va reason) := by
  unfold State.opFault
  try dsimp only
  with_reducible repeat' first
    | intro _ | assumption | apply State.xFault_keeps | apply State.endOp_keeps | apply State.modOp_keeps
    | apply State.opError_keeps | apply Holds.ite | split | dsimp only

theorem State.handOn_keeps (a : Nat) (a' : Die) (a'' : Nat) (a''' : Nat) (a'''' : State) (ha'''' : Holds K P a'''')
    (hk_tru : K .tru = false) :
    Holds K P (State.handOn a a' a'' a''' a'''') := by
  induction a generalizing a' a'' a''' a'''' ha'''' with
  | zero =>
    unfold State.handOn
    try dsimp only
    with_reducible repeat' first
      | intro _ | assumption | apply ih | apply State.modCtx_keeps | apply State.modTru_keeps | split | dsimp only
  | succ n ih =>
    unfold State.handOn
    try dsimp only
    with_reducible repeat' first
      | intro _ | assumption | apply ih | apply State.modCtx_keeps | apply State.modTru_keeps | split | dsimp only

theorem State.rxSettle_keeps (s : State) (d : Die) (i : Nat) (hs : Holds K P s) (hk_tru : K .tru = false) :
    Holds K P (State.rxSettle s d i) := by
  unfold State.rxSettle
  try dsimp only
  with_reducible repeat' first
    | intro _ | assumption | apply State.handOn_keeps | apply State.modCtx_keeps | apply Holds.ite | split | dsimp only

theorem State.sendAckFrom_keeps (s : State) (d : Die) (i : Nat) (base : Option Nat) (nak : Bool) (hs : Holds K P s)
    (hk_regs : K .regs = false) (hk_sluice : K .sluice = false) (hk_tru : K .tru = false) :
    Holds K P (State.sendAckFrom s d i base nak) := by
  unfold State.sendAckFrom
  try dsimp only
  with_reducible repeat' first
    | intro _ | assumption | apply State.modCtx_keeps | apply State.sendCtl_keeps | apply State.when_keeps | apply State.bump_keeps
    | apply Holds.ite | exact HoldsS.none | apply HoldsS.some | refine Holds.of_some (by assumption) ?_ | split | dsimp only

theorem State.sendAck_keeps (s : State) (d : Die) (i : Nat) (nak : Bool) (hs : Holds K P s) (hk_regs : K .regs = false)
    (hk_sluice : K .sluice = false) (hk_tru : K .tru = false) :
    Holds K P (State.sendAck s d i nak) := by
  unfold State.sendAck
  try dsimp only
  with_reducible repeat' first
    | intro _ | assumption | apply State.sendAckFrom_keeps | apply Holds.ite | split | dsimp only

theorem State.ackCount_keeps (s : State) (d : Die) (i : Nat) (hs : Holds K P s) (hk_regs : K .regs = false)
    (hk_sluice : K .sluice = false) (hk_tru : K .tru = false) :
    Holds K P (State.ackCount s d i) := by
  unfold State.ackCount
  try dsimp only
  with_reducible repeat' first
    | intro _ | assumption | apply State.modCtx_keeps | apply State.sendAck_keeps | apply Holds.ite | split | dsimp only

theorem State.refusePkt_keeps (s : State) (d : Die) (i : Nat) (q : Nat) (hs : Holds K P s) (hk_regs : K .regs = false)
    (hk_sluice : K .sluice = false) (hk_tru : K .tru = false) :
    Holds K P (State.refusePkt s d i q) := by
  unfold State.refusePkt
  try dsimp only
  with_reducible repeat' first
    | intro _ | assumption | apply State.event_keeps | apply State.bump_keeps | apply State.modTru_keeps | apply State.modCtx_keeps
    | apply State.sendAck_keeps | apply Holds.ite | split | dsimp only

theorem State.addRecord_keeps (s : State) (d : Die) (i : Nat) (q : Nat) (status : Nat) (outcome : Nat) (hs : Holds K P s)
    (hk_tru : K .tru = false) :
    Holds K P (State.addRecord s d i q status outcome).1 := by
  unfold State.addRecord
  try dsimp only
  with_reducible repeat' first
    | intro _ | assumption | apply State.modCtx_keeps | apply Holds.ite | apply Holds.ite1 | split | dsimp only

theorem State.rejectSeq_keeps (s : State) (d : Die) (i : Nat) (q : Nat) (status : Nat) (hs : Holds K P s)
    (hk_regs : K .regs = false) (hk_sluice : K .sluice = false) (hk_tru : K .tru = false) :
    Holds K P (State.rejectSeq s d i q status) := by
  unfold State.rejectSeq
  try dsimp only
  with_reducible repeat' first
    | intro _ | assumption | apply State.addRecord_keeps | apply State.refusePkt_keeps | apply State.modCtx_keeps
    | apply State.modTru_keeps | apply State.sendAck_keeps | apply State.rxSettle_keeps | refine Holds.of_fst (by assumption) ?_
    | split | dsimp only

theorem State.dropRes_keeps (s : State) (d : Die) (ctx : Nat) (opId : Nat) (hs : Holds K P s) (hk_rings : K .rings = false)
    (hk_rma : K .rma = false) :
    Holds K P (State.dropRes s d ctx opId) := by
  unfold State.dropRes
  try dsimp only
  with_reducible repeat' first
   
    | (intro g x hg; cases g <;> first | exact absurd (hk_rma.symm.trans hg) (by decide) | (with_unfolding_all exact dieSame_refl _ _) | (simp only [dieSame, and_self]))
    | intro _ | assumption | apply State.modRing_keeps | apply State.modDie_keeps | apply Holds.foldl | dsimp only

theorem State.rmaFailed_keeps (s : State) (d : Die) (ctx : Nat) (seq : Nat) (p : Pkt) (hs : Holds K P s)
    (hk_rings : K .rings = false) (hk_rma : K .rma = false) :
    Holds K P (State.rmaFailed s d ctx seq p) := by
  unfold State.rmaFailed
  try dsimp only
  with_reducible repeat' first
   
    | (intro g x hg; cases g <;> first | exact absurd (hk_rma.symm.trans hg) (by decide) | (with_unfolding_all exact dieSame_refl _ _) | (simp only [dieSame, and_self]))
    | intro _ | assumption | apply State.modDie_keeps | apply State.dropRes_keeps | apply Holds.ite | split | dsimp only

theorem State.rejectPkt_keeps (s : State) (d : Die) (h_ : Handed) (status : Nat) (hs : Holds K P s)
    (hk_regs : K .regs = false) (hk_rings : K .rings = false) (hk_rma : K .rma = false) (hk_sluice : K .sluice = false)
    (hk_tru : K .tru = false) :
    Holds K P (State.rejectPkt s d h_ status) := by
  unfold State.rejectPkt
  try dsimp only
  with_reducible repeat' first
    | intro _ | assumption | apply State.rmaFailed_keeps | apply State.wrs_keeps | apply State.bump_keeps
    | apply State.rejectSeq_keeps | apply Holds.ite | split | dsimp only

theorem State.ejectDrop_keeps (s : State) (d : Die) (p : Pkt) (c : Fld) (reason : Nat) (hs : Holds K P s)
    (hk_regs : K .regs = false) :
    Holds K P (State.ejectDrop s d p c reason) := by
  unfold State.ejectDrop
  try dsimp only
  with_reducible repeat' first
    | intro _ | assumption | apply State.wrs_keeps | apply State.bump_keeps | dsimp only

theorem State.absentPort_keeps (s : State) (d : Die) (h_ : Handed) (hs : Holds K P s) (hk_regs : K .regs = false)
    (hk_rings : K .rings = false) (hk_rma : K .rma = false) (hk_sluice : K .sluice = false) (hk_tru : K .tru = false) :
    Holds K P (State.absentPort s d h_) := by
  unfold State.absentPort
  try dsimp only
  with_reducible repeat' first
    | intro _ | assumption | apply State.rejectPkt_keeps | apply State.ejectDrop_keeps | dsimp only

theorem State.perform_keeps (s : State) (d : Die) (id : Nat) (lines : List Nat) (hs : Holds K P s) (hk_tru : K .tru = false) :
    Holds K P (State.perform s d id lines) := by
  unfold State.perform
  try dsimp only
  with_reducible repeat' first
    | intro _ | assumption | apply State.modTru_keeps | apply Holds.ite | split | dsimp only

end Sys2Proof.Machine
end

