-- ==== Sys2Proof/Laws/KeepPorts.lean ====
section
/-! SUPPORT. The operations of Ports.lean keep what the operations on registers and memory keep. -/

namespace Sys2Proof.Machine

set_option linter.all false
set_option linter.unusedTactic false
set_option linter.unreachableTactic false

variable {K : Grp → Bool} {P : State → Prop}

theorem State.modSwc_keeps (s : State) (d : Die) (f : Swc → Swc) (hs : Holds K P s) (hk_swc : K .swc = false) :
    Holds K P (State.modSwc s d f) := by
  unfold State.modSwc
  try dsimp only
  with_reducible repeat' first
   
    | (intro g x hg; cases g <;> first | exact absurd (hk_swc.symm.trans hg) (by decide) | (with_unfolding_all exact dieSame_refl _ _) | (simp only [dieSame, and_self]))
    | intro _ | assumption | apply State.modDie_keeps | dsimp only

theorem State.creditBack_keeps (s : State) (d : Die) (port : Nat) (vc : Option Nat) (hs : Holds K P s)
    (hk_bridge : K .bridge = false) (hk_llus : K .llus = false) (hk_regs : K .regs = false) (hk_swc : K .swc = false) :
    Holds K P (State.creditBack s d port vc) := by
  unfold State.creditBack
  try dsimp only
  with_reducible repeat' first
   
    | (intro g x hg; cases g <;> first | exact absurd (hk_bridge.symm.trans hg) (by decide) | exact absurd (hk_llus.symm.trans hg) (by decide) | (with_unfolding_all exact dieSame_refl _ _) | (simp only [dieSame, and_self]))
    | intro _ | assumption | apply State.modSwc_keeps | apply State.modDie_keeps | apply State.wr_keeps | apply Holds.ite
    | exact HoldsS.none | apply HoldsS.some | refine Holds.of_some (by assumption) ?_ | split | dsimp only

theorem State.reserve_keeps (s : State) (d : Die) (port : Nat) (hs : Holds K P s) (hk_bridge : K .bridge = false)
    (hk_llus : K .llus = false) (hk_regs : K .regs = false) (hk_swc : K .swc = false) :
    Holds K P (State.reserve s d port) := by
  unfold State.reserve
  try dsimp only
  with_reducible repeat' first
    | intro _ | assumption | apply State.creditBack_keeps | apply State.modSwc_keeps | dsimp only

theorem State.regrant_keeps (s : State) (d : Die) (port : Nat) (n : Nat) (hs : Holds K P s) (hk_bridge : K .bridge = false)
    (hk_llus : K .llus = false) (hk_regs : K .regs = false) (hk_swc : K .swc = false) :
    Holds K P (State.regrant s d port n) := by
  unfold State.regrant
  try dsimp only
  with_reducible repeat' first
    | intro _ | assumption | apply State.reserve_keeps | apply State.modSwc_keeps | apply State.event_keeps | apply State.bump_keeps
    | apply Holds.ite | split | dsimp only

theorem State.serveWithheld_keeps (d : Die) (a : List (Nat × Nat)) (a' : State) (ha' : Holds K P a')
    (hk_bridge : K .bridge = false) (hk_llus : K .llus = false) (hk_regs : K .regs = false) (hk_swc : K .swc = false) :
    Holds K P (State.serveWithheld d a a') := by
  induction a generalizing a' ha' with
  | nil =>
    unfold State.serveWithheld
    try dsimp only
    with_reducible repeat' first
      | intro _ | assumption | apply ih | apply State.reserve_keeps | apply State.modSwc_keeps | apply Holds.ite | apply Holds.ite1
      | refine Holds.of_fst (by assumption) ?_ | split | dsimp only
  | cons x l ih =>
    unfold State.serveWithheld
    try dsimp only
    with_reducible repeat' first
      | intro _ | assumption | apply ih | apply State.reserve_keeps | apply State.modSwc_keeps | apply Holds.ite | apply Holds.ite1
      | refine Holds.of_fst (by assumption) ?_ | split | dsimp only

theorem State.throttleSync_keeps (s : State) (d : Die) (vn : Nat) (hs : Holds K P s) (hk_regs : K .regs = false)
    (hk_sluice : K .sluice = false) :
    Holds K P (State.throttleSync s d vn) := by
  unfold State.throttleSync
  try dsimp only
  with_reducible repeat' first
    | intro _ | assumption | apply State.when_keeps | apply State.bump_keeps | apply State.modSluice_keeps | apply Holds.ite | split
    | dsimp only

theorem State.basinMoved_keeps (s : State) (d : Die) (vn : Nat) (hs : Holds K P s) (hk_regs : K .regs = false)
    (hk_sluice : K .sluice = false) :
    Holds K P (State.basinMoved s d vn) := by
  unfold State.basinMoved
  try dsimp only
  with_reducible repeat' first
    | intro _ | assumption | apply State.when_keeps | apply State.throttleSync_keeps | dsimp only

theorem State.unitOut_keeps (s : State) (d : Die) (k : Nat) (j : Nat) (hs : Holds K P s) (hk_bridge : K .bridge = false)
    (hk_llus : K .llus = false) (hk_regs : K .regs = false) (hk_sluice : K .sluice = false) (hk_swc : K .swc = false) :
    Holds K P (State.unitOut s d k j) := by
  unfold State.unitOut
  try dsimp only
  with_reducible repeat' first
    | intro _ | assumption | apply State.modSwc_keeps | apply State.creditBack_keeps | apply State.basinMoved_keeps
    | apply State.serveWithheld_keeps | apply Holds.ite | split | dsimp only

theorem State.consume_keeps (d : Die) (k : Nat) (a : Nat) (a' : State) (ha' : Holds K P a') (hk_bridge : K .bridge = false)
    (hk_llus : K .llus = false) (hk_regs : K .regs = false) (hk_sluice : K .sluice = false) (hk_swc : K .swc = false) :
    Holds K P (State.consume d k a a') := by
  induction a generalizing a' ha' with
  | zero =>
    unfold State.consume
    try dsimp only
    with_reducible repeat' first
      | intro _ | assumption | apply ih | apply State.unitOut_keeps | split | dsimp only
  | succ n ih =>
    unfold State.consume
    try dsimp only
    with_reducible repeat' first
      | intro _ | assumption | apply ih | apply State.unitOut_keeps | split | dsimp only

theorem State.consumeAll_keeps (s : State) (d : Die) (k : Nat) (hs : Holds K P s) (hk_bridge : K .bridge = false)
    (hk_llus : K .llus = false) (hk_regs : K .regs = false) (hk_sluice : K .sluice = false) (hk_swc : K .swc = false) :
    Holds K P (State.consumeAll s d k) := by
  unfold State.consumeAll
  try dsimp only
  with_reducible repeat' first
    | intro _ | assumption | apply State.consume_keeps | dsimp only

theorem State.dropHead_keeps (s : State) (d : Die) (k : Nat) (hs : Holds K P s) (hk_bridge : K .bridge = false)
    (hk_llus : K .llus = false) (hk_regs : K .regs = false) (hk_sluice : K .sluice = false) (hk_swc : K .swc = false) :
    Holds K P (State.dropHead s d k) := by
  unfold State.dropHead
  try dsimp only
  with_reducible repeat' first
    | intro _ | assumption | apply State.consumeAll_keeps | apply State.modSwc_keeps | split | dsimp only

theorem State.headerDrop_keeps (s : State) (d : Die) (port : Nat) (p : Pkt) (hs : Holds K P s) (hk_regs : K .regs = false) :
    Holds K P (State.headerDrop s d port p).1 := by
  unfold State.headerDrop
  try dsimp only
  with_reducible repeat' first
    | intro _ | assumption | apply State.bump_keeps | apply Holds.ite | apply Holds.ite1 | split | dsimp only

theorem State.unitIn_keeps (s : State) (d : Die) (k : Nat) (u : OUnit) (hs : Holds K P s) (hk_bridge : K .bridge = false)
    (hk_llus : K .llus = false) (hk_regs : K .regs = false) (hk_sluice : K .sluice = false) (hk_swc : K .swc = false) :
    Holds K P (State.unitIn s d k u) := by
  unfold State.unitIn
  try dsimp only
  with_reducible repeat' first
    | intro _ | assumption | apply State.countBy_keeps | apply State.headerDrop_keeps | apply State.regrant_keeps
    | apply State.modSwc_keeps | apply State.creditBack_keeps | apply State.consumeAll_keeps | apply State.basinMoved_keeps
    | apply Holds.ite | apply Holds.ite1 | refine Holds.of_fst (by assumption) ?_ | split | dsimp only

theorem State.takeCredit_keeps (s : State) (d : Die) (port : Nat) (vc : Nat) (hs : Holds K P s) (hk_swc : K .swc = false) :
    HoldsSP K P (State.takeCredit s d port vc) := by
  unfold State.takeCredit
  try dsimp only
  with_reducible repeat' first
    | intro _ | assumption | apply State.modSwc_keeps | apply Holds.ite | exact HoldsSP.none | apply HoldsSP.some | split
    | dsimp only

theorem State.pump_keeps (d : Die) (k : Nat) (a : Nat) (a' : State) (ha' : Holds K P a') (hk_bridge : K .bridge = false)
    (hk_llus : K .llus = false) (hk_regs : K .regs = false) (hk_sluice : K .sluice = false) (hk_swc : K .swc = false) :
    Holds K P (State.pump d k a a') := by
  induction a generalizing a' ha' with
  | zero =>
    unfold State.pump
    try dsimp only
    with_reducible repeat' first
      | intro _ | assumption | apply ih | apply State.takeCredit_keeps | apply State.modSluice_keeps | apply State.unitIn_keeps
      | apply Holds.ite | exact HoldsSP.none | apply HoldsSP.some | refine Holds.of_someP (by assumption) ?_ | split | dsimp only
  | succ n ih =>
    unfold State.pump
    try dsimp only
    with_reducible repeat' first
      | intro _ | assumption | apply ih | apply State.takeCredit_keeps | apply State.modSluice_keeps | apply State.unitIn_keeps
      | apply Holds.ite | exact HoldsSP.none | apply HoldsSP.some | refine Holds.of_someP (by assumption) ?_ | split | dsimp only

theorem State.pumpAll_keeps (s : State) (d : Die) (hs : Holds K P s) (hk_bridge : K .bridge = false)
    (hk_llus : K .llus = false) (hk_regs : K .regs = false) (hk_sluice : K .sluice = false) (hk_swc : K .swc = false) :
    Holds K P (State.pumpAll s d) := by
  unfold State.pumpAll
  try dsimp only
  with_reducible repeat' first
    | intro _ | assumption | apply State.pump_keeps | apply Holds.foldl | dsimp only

theorem State.injectAt_keeps (s : State) (d : Die) (p : Pkt) (hs : Holds K P s) (hk_bridge : K .bridge = false)
    (hk_llus : K .llus = false) (hk_regs : K .regs = false) (hk_sluice : K .sluice = false) (hk_swc : K .swc = false) :
    Holds K P (State.injectAt s d p) := by
  unfold State.injectAt
  try dsimp only
  with_reducible repeat' first
    | intro _ | assumption | apply State.pumpAll_keeps | apply State.modSluice_keeps | dsimp only

end Sys2Proof.Machine
end

