-- ==== Sys2Proof/Laws/KeepRma.lean ====
section
/-! SUPPORT. The operations of Rma.lean keep what the operations on registers and memory keep. -/

namespace Sys2Proof.Machine

set_option linter.all false
set_option linter.unusedTactic false
set_option linter.unreachableTactic false

variable {K : Grp → Bool} {P : State → Prop}

theorem State.modRma_keeps (s : State) (d : Die) (f : Rma → Rma) (hs : Holds K P s) (hk_rma : K .rma = false) :
    Holds K P (State.modRma s d f) := by
  unfold State.modRma
  try dsimp only
  with_reducible repeat' first
   
    | (intro g x hg; cases g <;> first | exact absurd (hk_rma.symm.trans hg) (by decide) | (with_unfolding_all exact dieSame_refl _ _) | (simp only [dieSame, and_self]))
    | intro _ | assumption | apply State.modDie_keeps | dsimp only

theorem State.rangeReady_keeps (s : State) (d : Die) (key : Nat) (off : Nat) (n : Nat) (a : Acs) (hs : Holds K P s)
    (hk_accesses : K .accesses = false) (hk_dmem : K .dmem = false) (hk_hag : K .hag = false) (hk_hold : K .hold = false)
    (hk_mem : K .mem = false) (hk_out : K .out = false) (hk_regs : K .regs = false) (hk_xlu : K .xlu = false) :
    Holds K P (State.rangeReady s d key off n a).1 := by
  unfold State.rangeReady
  try dsimp only
  with_reducible repeat' first
    | intro _ | assumption | apply State.xlate_keeps | apply State.recallSegs_keeps | refine Holds.of_fst (by assumption) ?_ | split
    | dsimp only

theorem State.putPacket_keeps (s : State) (d : Die) (i : Nat) (o : WOp) (loff : Nat) (j : Nat) (a : Nat) (n : Nat)
    (hs : Holds K P s) (hk_accesses : K .accesses = false) (hk_dmem : K .dmem = false) (hk_hag : K .hag = false)
    (hk_hold : K .hold = false) (hk_mem : K .mem = false) (hk_out : K .out = false) (hk_reads : K .reads = false)
    (hk_regs : K .regs = false) (hk_sluice : K .sluice = false) (hk_xlu : K .xlu = false) :
    Holds K P (State.putPacket s d i o loff j a n) := by
  unfold State.putPacket
  try dsimp only
  with_reducible repeat' first
    | intro _ | assumption | apply State.inject_keeps | apply Holds.ite | apply Holds.ite1 | split | dsimp only

theorem State.notifyPacket_keeps (s : State) (d : Die) (i : Nat) (o : WOp) (j : Nat) (hs : Holds K P s)
    (hk_accesses : K .accesses = false) (hk_dmem : K .dmem = false) (hk_hag : K .hag = false) (hk_hold : K .hold = false)
    (hk_mem : K .mem = false) (hk_out : K .out = false) (hk_reads : K .reads = false) (hk_regs : K .regs = false)
    (hk_sluice : K .sluice = false) (hk_xlu : K .xlu = false) :
    Holds K P (State.notifyPacket s d i o j) := by
  unfold State.notifyPacket
  try dsimp only
  with_reducible repeat' first
    | intro _ | assumption | apply State.inject_keeps | dsimp only

theorem State.issuePut_keeps (s : State) (d : Die) (i : Nat) (o : WOp) (loff : Nat) (j : Nat) (hs : Holds K P s)
    (hk_accesses : K .accesses = false) (hk_dmem : K .dmem = false) (hk_hag : K .hag = false) (hk_hold : K .hold = false)
    (hk_mem : K .mem = false) (hk_ops : K .ops = false) (hk_out : K .out = false) (hk_reads : K .reads = false)
    (hk_regs : K .regs = false) (hk_sluice : K .sluice = false) (hk_xlu : K .xlu = false) :
    Holds K P (State.issuePut s d i o loff j) := by
  unfold State.issuePut
  try dsimp only
  with_reducible repeat' first
    | intro _ | assumption | apply State.putPacket_keeps | apply State.when_keeps | apply State.notifyPacket_keeps
    | apply State.modOp_keeps | apply State.rangeReady_keeps | apply State.opFault_keeps | apply Holds.ite | apply Holds.foldl
    | apply Holds.ite1 | apply Holds.foldl1 | refine Holds.of_fst (by assumption) ?_ | split | dsimp only

theorem State.issueGet_keeps (s : State) (d : Die) (i : Nat) (o : WOp) (j : Nat) (hs : Holds K P s)
    (hk_accesses : K .accesses = false) (hk_dmem : K .dmem = false) (hk_hag : K .hag = false) (hk_hold : K .hold = false)
    (hk_mem : K .mem = false) (hk_ops : K .ops = false) (hk_out : K .out = false) (hk_reads : K .reads = false)
    (hk_regs : K .regs = false) (hk_sluice : K .sluice = false) (hk_xlu : K .xlu = false) :
    Holds K P (State.issueGet s d i o j) := by
  unfold State.issueGet
  try dsimp only
  with_reducible repeat' first
    | intro _ | assumption | apply State.inject_keeps | apply State.modOp_keeps | refine Holds.of_fst (by assumption) ?_ | split
    | dsimp only

theorem State.issuePull_keeps (s : State) (d : Die) (i : Nat) (o : WOp) (p : Pull) (hs : Holds K P s)
    (hk_accesses : K .accesses = false) (hk_dmem : K .dmem = false) (hk_hag : K .hag = false) (hk_hold : K .hold = false)
    (hk_mem : K .mem = false) (hk_ops : K .ops = false) (hk_out : K .out = false) (hk_reads : K .reads = false)
    (hk_regs : K .regs = false) (hk_sluice : K .sluice = false) (hk_tmu : K .tmu = false) (hk_xlu : K .xlu = false) :
    Holds K P (State.issuePull s d i o p) := by
  unfold State.issuePull
  try dsimp only
  with_reducible repeat' first
   
    | (intro g x hg; cases g <;> first | exact absurd (hk_tmu.symm.trans hg) (by decide) | (with_unfolding_all exact dieSame_refl _ _) | (simp only [dieSame, and_self]))
    | intro _ | assumption | apply State.inject_keeps | apply State.modDie_keeps | apply State.modOp_keeps | apply Holds.ite
    | apply Holds.ite1 | split | dsimp only

theorem State.issueChunk_keeps (s : State) (i : Nat) (hs : Holds K P s) (hk_accesses : K .accesses = false)
    (hk_dmem : K .dmem = false) (hk_hag : K .hag = false) (hk_hold : K .hold = false) (hk_mem : K .mem = false)
    (hk_ops : K .ops = false) (hk_out : K .out = false) (hk_reads : K .reads = false) (hk_regs : K .regs = false)
    (hk_sluice : K .sluice = false) (hk_tmu : K .tmu = false) (hk_xlu : K .xlu = false) :
    Holds K P (State.issueChunk s i) := by
  unfold State.issueChunk
  try dsimp only
  with_reducible repeat' first
    | intro _ | assumption | apply State.issuePull_keeps | apply State.issueGet_keeps | apply State.issuePut_keeps
    | apply State.opFault_keeps | apply Holds.ite | split | dsimp only

theorem execChunkIssue_keeps (i : Nat) (s : State) (hs : Holds K P s) (hk_accesses : K .accesses = false)
    (hk_dmem : K .dmem = false) (hk_hag : K .hag = false) (hk_hold : K .hold = false) (hk_mem : K .mem = false)
    (hk_ops : K .ops = false) (hk_out : K .out = false) (hk_reads : K .reads = false) (hk_regs : K .regs = false)
    (hk_sluice : K .sluice = false) (hk_tmu : K .tmu = false) (hk_xlu : K .xlu = false) :
    HoldsO K P (execChunkIssue i s) := by
  unfold execChunkIssue
  try dsimp only
  with_reducible repeat' first
    | intro _ | assumption | apply State.issueChunk_keeps | apply HoldsO.next | dsimp only

theorem State.startRma_keeps (s : State) (i : Nat) (code : Nat) (hs : Holds K P s) (hk_accesses : K .accesses = false)
    (hk_dmem : K .dmem = false) (hk_hag : K .hag = false) (hk_hold : K .hold = false) (hk_mem : K .mem = false)
    (hk_ops : K .ops = false) (hk_out : K .out = false) (hk_reads : K .reads = false) (hk_regs : K .regs = false)
    (hk_sluice : K .sluice = false) (hk_tmu : K .tmu = false) (hk_xlu : K .xlu = false) :
    Holds K P (State.startRma s i code) := by
  unfold State.startRma
  try dsimp only
  with_reducible repeat' first
    | intro _ | assumption | apply State.issueChunk_keeps | apply State.modOp_keeps | apply State.endOp_keeps
    | apply State.opFault_keeps | apply Holds.ite | split | dsimp only

theorem execPut_keeps (i : Nat) (s : State) (hs : Holds K P s) (hk_accesses : K .accesses = false) (hk_dmem : K .dmem = false)
    (hk_hag : K .hag = false) (hk_hold : K .hold = false) (hk_mem : K .mem = false) (hk_ops : K .ops = false)
    (hk_out : K .out = false) (hk_reads : K .reads = false) (hk_regs : K .regs = false) (hk_sluice : K .sluice = false)
    (hk_tmu : K .tmu = false) (hk_xlu : K .xlu = false) :
    HoldsO K P (execPut i s) := by
  unfold execPut
  try dsimp only
  with_reducible repeat' first
    | intro _ | assumption | apply State.startRma_keeps | apply HoldsO.next | dsimp only

theorem execPutNotify_keeps (i : Nat) (s : State) (hs : Holds K P s) (hk_accesses : K .accesses = false)
    (hk_dmem : K .dmem = false) (hk_hag : K .hag = false) (hk_hold : K .hold = false) (hk_mem : K .mem = false)
    (hk_ops : K .ops = false) (hk_out : K .out = false) (hk_reads : K .reads = false) (hk_regs : K .regs = false)
    (hk_sluice : K .sluice = false) (hk_tmu : K .tmu = false) (hk_xlu : K .xlu = false) :
    HoldsO K P (execPutNotify i s) := by
  unfold execPutNotify
  try dsimp only
  with_reducible repeat' first
    | intro _ | assumption | apply State.startRma_keeps | apply HoldsO.next | dsimp only

theorem execGet_keeps (i : Nat) (s : State) (hs : Holds K P s) (hk_accesses : K .accesses = false) (hk_dmem : K .dmem = false)
    (hk_hag : K .hag = false) (hk_hold : K .hold = false) (hk_mem : K .mem = false) (hk_ops : K .ops = false)
    (hk_out : K .out = false) (hk_reads : K .reads = false) (hk_regs : K .regs = false) (hk_sluice : K .sluice = false)
    (hk_tmu : K .tmu = false) (hk_xlu : K .xlu = false) :
    HoldsO K P (execGet i s) := by
  unfold execGet
  try dsimp only
  with_reducible repeat' first
    | intro _ | assumption | apply State.startRma_keeps | apply HoldsO.next | dsimp only

theorem State.startAtomic_keeps (s : State) (i : Nat) (code : Nat) (hs : Holds K P s) (hk_accesses : K .accesses = false)
    (hk_dmem : K .dmem = false) (hk_hag : K .hag = false) (hk_hold : K .hold = false) (hk_mem : K .mem = false)
    (hk_ops : K .ops = false) (hk_out : K .out = false) (hk_reads : K .reads = false) (hk_regs : K .regs = false)
    (hk_sluice : K .sluice = false) (hk_xlu : K .xlu = false) :
    Holds K P (State.startAtomic s i code) := by
  unfold State.startAtomic
  try dsimp only
  with_reducible repeat' first
    | intro _ | assumption | apply State.modOp_keeps | apply State.inject_keeps | apply State.opFault_keeps | apply Holds.ite
    | apply Holds.ite1 | refine Holds.of_fst (by assumption) ?_ | split | dsimp only

theorem execFadd64_keeps (i : Nat) (s : State) (hs : Holds K P s) (hk_accesses : K .accesses = false)
    (hk_dmem : K .dmem = false) (hk_hag : K .hag = false) (hk_hold : K .hold = false) (hk_mem : K .mem = false)
    (hk_ops : K .ops = false) (hk_out : K .out = false) (hk_reads : K .reads = false) (hk_regs : K .regs = false)
    (hk_sluice : K .sluice = false) (hk_xlu : K .xlu = false) :
    HoldsO K P (execFadd64 i s) := by
  unfold execFadd64
  try dsimp only
  with_reducible repeat' first
    | intro _ | assumption | apply State.startAtomic_keeps | apply HoldsO.next | dsimp only

theorem execSwap64_keeps (i : Nat) (s : State) (hs : Holds K P s) (hk_accesses : K .accesses = false)
    (hk_dmem : K .dmem = false) (hk_hag : K .hag = false) (hk_hold : K .hold = false) (hk_mem : K .mem = false)
    (hk_ops : K .ops = false) (hk_out : K .out = false) (hk_reads : K .reads = false) (hk_regs : K .regs = false)
    (hk_sluice : K .sluice = false) (hk_xlu : K .xlu = false) :
    HoldsO K P (execSwap64 i s) := by
  unfold execSwap64
  try dsimp only
  with_reducible repeat' first
    | intro _ | assumption | apply State.startAtomic_keeps | apply HoldsO.next | dsimp only

theorem execCas64_keeps (i : Nat) (s : State) (hs : Holds K P s) (hk_accesses : K .accesses = false)
    (hk_dmem : K .dmem = false) (hk_hag : K .hag = false) (hk_hold : K .hold = false) (hk_mem : K .mem = false)
    (hk_ops : K .ops = false) (hk_out : K .out = false) (hk_reads : K .reads = false) (hk_regs : K .regs = false)
    (hk_sluice : K .sluice = false) (hk_xlu : K .xlu = false) :
    HoldsO K P (execCas64 i s) := by
  unfold execCas64
  try dsimp only
  with_reducible repeat' first
    | intro _ | assumption | apply State.startAtomic_keeps | apply HoldsO.next | dsimp only

theorem execSmin64_keeps (i : Nat) (s : State) (hs : Holds K P s) (hk_accesses : K .accesses = false)
    (hk_dmem : K .dmem = false) (hk_hag : K .hag = false) (hk_hold : K .hold = false) (hk_mem : K .mem = false)
    (hk_ops : K .ops = false) (hk_out : K .out = false) (hk_reads : K .reads = false) (hk_regs : K .regs = false)
    (hk_sluice : K .sluice = false) (hk_xlu : K .xlu = false) :
    HoldsO K P (execSmin64 i s) := by
  unfold execSmin64
  try dsimp only
  with_reducible repeat' first
    | intro _ | assumption | apply State.startAtomic_keeps | apply HoldsO.next | dsimp only

theorem execSmax64_keeps (i : Nat) (s : State) (hs : Holds K P s) (hk_accesses : K .accesses = false)
    (hk_dmem : K .dmem = false) (hk_hag : K .hag = false) (hk_hold : K .hold = false) (hk_mem : K .mem = false)
    (hk_ops : K .ops = false) (hk_out : K .out = false) (hk_reads : K .reads = false) (hk_regs : K .regs = false)
    (hk_sluice : K .sluice = false) (hk_xlu : K .xlu = false) :
    HoldsO K P (execSmax64 i s) := by
  unfold execSmax64
  try dsimp only
  with_reducible repeat' first
    | intro _ | assumption | apply State.startAtomic_keeps | apply HoldsO.next | dsimp only

theorem execUmin64_keeps (i : Nat) (s : State) (hs : Holds K P s) (hk_accesses : K .accesses = false)
    (hk_dmem : K .dmem = false) (hk_hag : K .hag = false) (hk_hold : K .hold = false) (hk_mem : K .mem = false)
    (hk_ops : K .ops = false) (hk_out : K .out = false) (hk_reads : K .reads = false) (hk_regs : K .regs = false)
    (hk_sluice : K .sluice = false) (hk_xlu : K .xlu = false) :
    HoldsO K P (execUmin64 i s) := by
  unfold execUmin64
  try dsimp only
  with_reducible repeat' first
    | intro _ | assumption | apply State.startAtomic_keeps | apply HoldsO.next | dsimp only

theorem execUmax64_keeps (i : Nat) (s : State) (hs : Holds K P s) (hk_accesses : K .accesses = false)
    (hk_dmem : K .dmem = false) (hk_hag : K .hag = false) (hk_hold : K .hold = false) (hk_mem : K .mem = false)
    (hk_ops : K .ops = false) (hk_out : K .out = false) (hk_reads : K .reads = false) (hk_regs : K .regs = false)
    (hk_sluice : K .sluice = false) (hk_xlu : K .xlu = false) :
    HoldsO K P (execUmax64 i s) := by
  unfold execUmax64
  try dsimp only
  with_reducible repeat' first
    | intro _ | assumption | apply State.startAtomic_keeps | apply HoldsO.next | dsimp only

theorem execSwap128_keeps (i : Nat) (s : State) (hs : Holds K P s) (hk_accesses : K .accesses = false)
    (hk_dmem : K .dmem = false) (hk_hag : K .hag = false) (hk_hold : K .hold = false) (hk_mem : K .mem = false)
    (hk_ops : K .ops = false) (hk_out : K .out = false) (hk_reads : K .reads = false) (hk_regs : K .regs = false)
    (hk_sluice : K .sluice = false) (hk_xlu : K .xlu = false) :
    HoldsO K P (execSwap128 i s) := by
  unfold execSwap128
  try dsimp only
  with_reducible repeat' first
    | intro _ | assumption | apply State.startAtomic_keeps | apply HoldsO.next | dsimp only

theorem execCas128_keeps (i : Nat) (s : State) (hs : Holds K P s) (hk_accesses : K .accesses = false)
    (hk_dmem : K .dmem = false) (hk_hag : K .hag = false) (hk_hold : K .hold = false) (hk_mem : K .mem = false)
    (hk_ops : K .ops = false) (hk_out : K .out = false) (hk_reads : K .reads = false) (hk_regs : K .regs = false)
    (hk_sluice : K .sluice = false) (hk_xlu : K .xlu = false) :
    HoldsO K P (execCas128 i s) := by
  unfold execCas128
  try dsimp only
  with_reducible repeat' first
    | intro _ | assumption | apply State.startAtomic_keeps | apply HoldsO.next | dsimp only

theorem State.rmaRefuse_keeps (s : State) (d : Die) (h_ : Handed) (hs : Holds K P s) (hk_regs : K .regs = false)
    (hk_sluice : K .sluice = false) (hk_tru : K .tru = false) :
    Holds K P (State.rmaRefuse s d h_) := by
  unfold State.rmaRefuse
  try dsimp only
  with_reducible repeat' first
    | intro _ | assumption | apply State.refusePkt_keeps | apply State.bump_keeps | dsimp only

theorem State.remoteFault_keeps (s : State) (d : Die) (h_ : Handed) (va : Nat) (reason : Nat) (hs : Holds K P s)
    (hk_regs : K .regs = false) (hk_rings : K .rings = false) (hk_rma : K .rma = false) (hk_sluice : K .sluice = false)
    (hk_tru : K .tru = false) :
    Holds K P (State.remoteFault s d h_ va reason) := by
  unfold State.remoteFault
  try dsimp only
  with_reducible repeat' first
    | intro _ | assumption | apply State.rejectPkt_keeps | apply State.xFault_keeps | dsimp only

theorem State.targetRange_keeps (s : State) (d : Die) (h_ : Handed) (right : Nat) (addr : Nat) (len : Nat) (a : Acs)
    (step6 : Region → State → State × Bool) (hs : Holds K P s) (hstep6 : ∀ x0 x1, Holds K P x1 → Holds K P (step6 x0 x1).1)
    (hk_out : K .out = false) (hk_regs : K .regs = false) (hk_rings : K .rings = false) (hk_rma : K .rma = false)
    (hk_sluice : K .sluice = false) (hk_tru : K .tru = false) (hk_xlu : K .xlu = false) :
    Holds K P (State.targetRange s d h_ right addr len a step6).1 := by
  unfold State.targetRange
  try dsimp only
  with_reducible repeat' first
    | intro _ | assumption | apply State.remoteFault_keeps | apply State.xlate_keeps | apply State.rejectPkt_keeps
    | apply State.absentPort_keeps | apply hstep6 | apply Holds.ite | apply Holds.ite1 | refine Holds.of_fst (by assumption) ?_
    | split | dsimp only

theorem State.notifyReserve_keeps (s : State) (d : Die) (h_ : Handed) (owner : Fn) (hs : Holds K P s)
    (hk_regs : K .regs = false) (hk_rings : K .rings = false) (hk_rma : K .rma = false) (hk_sluice : K .sluice = false)
    (hk_tru : K .tru = false) :
    Holds K P (State.notifyReserve s d h_ owner).1 := by
  unfold State.notifyReserve
  try dsimp only
  with_reducible repeat' first
    | intro _ | assumption | apply State.rejectPkt_keeps | apply State.modRma_keeps | apply State.modRing_keeps
    | apply State.bump_keeps | apply Holds.ite | apply Holds.ite1 | refine Holds.of_fst (by assumption) ?_ | split | dsimp only

theorem State.defer_keeps (s : State) (d : Die) (h_ : Handed) (ctr : Option Nat) (note : Option (Nat × Nat × Nat × Nat × Nat))
    (hs : Holds K P s) (hk_regs : K .regs = false) (hk_rma : K .rma = false) :
    Holds K P (State.defer s d h_ ctr note) := by
  unfold State.defer
  try dsimp only
  with_reducible repeat' first
    | intro _ | assumption | apply State.when_keeps | apply State.bump_keeps | apply State.modRma_keeps | exact HoldsS.none
    | apply HoldsS.some | dsimp only

theorem State.flagFence_keeps (s : State) (d : Die) (h_ : Handed) (hs : Holds K P s) (hk_out : K .out = false)
    (hk_reads : K .reads = false) (hk_regs : K .regs = false) (hk_rma : K .rma = false) :
    Holds K P (State.flagFence s d h_).1 := by
  unfold State.flagFence
  try dsimp only
  with_reducible repeat' first
    | intro _ | assumption | apply State.hread_keeps | apply State.modRma_keeps
    | simp only [Holds.upd, hk_reads, Bool.false_eq_true, false_implies, implies_true] | refine Holds.of_fst (by assumption) ?_
    | split | dsimp only

theorem State.putStep_keeps (d : Die) (h_ : Handed) (event : Bool) (r : Region) (s : State) (hs : Holds K P s)
    (hk_regs : K .regs = false) (hk_rings : K .rings = false) (hk_rma : K .rma = false) (hk_sluice : K .sluice = false)
    (hk_tru : K .tru = false) :
    Holds K P (State.putStep d h_ event r s).1 := by
  unfold State.putStep
  try dsimp only
  with_reducible repeat' first
    | intro _ | assumption | apply State.rmaRefuse_keeps | apply State.notifyReserve_keeps | apply Holds.ite | apply Holds.ite1
    | split | dsimp only

theorem State.eventStep_keeps (d : Die) (h_ : Handed) (x : Region) (s : State) (hs : Holds K P s) (hk_regs : K .regs = false)
    (hk_sluice : K .sluice = false) (hk_tru : K .tru = false) :
    Holds K P (State.eventStep d h_ x s).1 := by
  unfold State.eventStep
  try dsimp only
  with_reducible repeat' first
    | intro _ | assumption | apply State.rmaRefuse_keeps | apply Holds.ite | apply Holds.ite1 | split | dsimp only

theorem State.applyPut_keeps (s : State) (d : Die) (h_ : Handed) (hs : Holds K P s) (hk_accesses : K .accesses = false)
    (hk_dmem : K .dmem = false) (hk_hag : K .hag = false) (hk_hold : K .hold = false) (hk_mem : K .mem = false)
    (hk_out : K .out = false) (hk_regs : K .regs = false) (hk_rings : K .rings = false) (hk_rma : K .rma = false)
    (hk_sluice : K .sluice = false) (hk_tru : K .tru = false) (hk_xlu : K .xlu = false) :
    Holds K P (State.applyPut s d h_) := by
  unfold State.applyPut
  try dsimp only
  with_reducible repeat' first
    | intro _ | assumption | apply State.targetRange_keeps | apply State.putStep_keeps | apply State.writeSegs_keeps
    | apply State.perform_keeps | apply State.bump_keeps | apply State.defer_keeps | apply Holds.ite | apply Holds.ite1
    | refine Holds.of_fst (by assumption) ?_ | split | dsimp only

theorem State.applyNotify_keeps (s : State) (d : Die) (h_ : Handed) (hs : Holds K P s) (hk_out : K .out = false)
    (hk_regs : K .regs = false) (hk_rings : K .rings = false) (hk_rma : K .rma = false) (hk_sluice : K .sluice = false)
    (hk_tru : K .tru = false) (hk_xlu : K .xlu = false) :
    Holds K P (State.applyNotify s d h_) := by
  unfold State.applyNotify
  try dsimp only
  with_reducible repeat' first
    | intro _ | assumption | apply State.targetRange_keeps | apply State.putStep_keeps | apply State.modRma_keeps
    | apply State.defer_keeps | apply State.perform_keeps | apply State.bump_keeps | apply Holds.ite | apply Holds.ite1
    | refine Holds.of_fst (by assumption) ?_ | split | dsimp only

theorem State.getNoted_keeps (s : State) (d : Die) (p : Pkt) (ctx : Nat) (b : Nat) (g : GetBase) (hs : Holds K P s)
    (hk_rma : K .rma = false) :
    Holds K P (State.getNoted s d p ctx b g) := by
  unfold State.getNoted
  try dsimp only
  with_reducible repeat' first
    | intro _ | assumption | apply State.modRma_keeps | apply Holds.ite | split | dsimp only

theorem State.applyGet_keeps (s : State) (d : Die) (h_ : Handed) (hs : Holds K P s) (hk_accesses : K .accesses = false)
    (hk_dmem : K .dmem = false) (hk_hag : K .hag = false) (hk_hold : K .hold = false) (hk_mem : K .mem = false)
    (hk_out : K .out = false) (hk_reads : K .reads = false) (hk_regs : K .regs = false) (hk_rings : K .rings = false)
    (hk_rma : K .rma = false) (hk_sluice : K .sluice = false) (hk_tru : K .tru = false) (hk_xlu : K .xlu = false) :
    Holds K P (State.applyGet s d h_) := by
  unfold State.applyGet
  try dsimp only
  with_reducible repeat' first
    | intro _ | assumption | apply State.targetRange_keeps | apply State.eventStep_keeps | apply State.when_keeps
    | apply State.getNoted_keeps | apply State.recallSegs_keeps | apply State.inject_keeps | apply State.rmaFailed_keeps
    | apply State.perform_keeps | apply State.bump_keeps | apply State.modTru_keeps | apply State.defer_keeps | apply Holds.ite
    | apply Holds.foldl | apply Holds.ite1 | apply Holds.foldl1 | refine Holds.of_fst (by assumption) ?_ | split | dsimp only

theorem State.atomicAnswer_keeps (s : State) (d : Die) (h_ : Handed) (old : Nat) (hs : Holds K P s)
    (hk_accesses : K .accesses = false) (hk_dmem : K .dmem = false) (hk_hag : K .hag = false) (hk_hold : K .hold = false)
    (hk_mem : K .mem = false) (hk_out : K .out = false) (hk_reads : K .reads = false) (hk_regs : K .regs = false)
    (hk_sluice : K .sluice = false) (hk_tru : K .tru = false) (hk_xlu : K .xlu = false) :
    Holds K P (State.atomicAnswer s d h_ old) := by
  unfold State.atomicAnswer
  try dsimp only
  with_reducible repeat' first
    | intro _ | assumption | apply State.injectHeld_keeps | apply State.perform_keeps | apply State.bump_keeps | dsimp only

theorem State.atomicLost_keeps (s : State) (d : Die) (h_ : Handed) (hs : Holds K P s) (hk_accesses : K .accesses = false)
    (hk_dmem : K .dmem = false) (hk_hag : K .hag = false) (hk_hold : K .hold = false) (hk_mem : K .mem = false)
    (hk_out : K .out = false) (hk_reads : K .reads = false) (hk_regs : K .regs = false) (hk_sluice : K .sluice = false)
    (hk_tru : K .tru = false) (hk_xlu : K .xlu = false) :
    Holds K P (State.atomicLost s d h_) := by
  unfold State.atomicLost
  try dsimp only
  with_reducible repeat' first
    | intro _ | assumption | apply State.perform_keeps | apply State.inject_keeps | dsimp only

theorem State.dropAtomic_keeps (s : State) (d : Die) (handed : Nat) (hs : Holds K P s) (hk_rma : K .rma = false) :
    Holds K P (State.dropAtomic s d handed) := by
  unfold State.dropAtomic
  try dsimp only
  with_reducible repeat' first
    | intro _ | assumption | apply State.modRma_keeps | dsimp only

theorem State.applyAtomic_keeps (s : State) (d : Die) (h_ : Handed) (hs : Holds K P s) (hk_accesses : K .accesses = false)
    (hk_dmem : K .dmem = false) (hk_hag : K .hag = false) (hk_hold : K .hold = false) (hk_mem : K .mem = false)
    (hk_out : K .out = false) (hk_reads : K .reads = false) (hk_regs : K .regs = false) (hk_rings : K .rings = false)
    (hk_rma : K .rma = false) (hk_sluice : K .sluice = false) (hk_tru : K .tru = false) (hk_xlu : K .xlu = false) :
    Holds K P (State.applyAtomic s d h_) := by
  unfold State.applyAtomic
  try dsimp only
  with_reducible repeat' first
    | intro _ | assumption | apply State.targetRange_keeps | apply State.eventStep_keeps | apply State.dropAtomic_keeps
    | apply State.recallFor_keeps | apply State.atomicLost_keeps | apply State.atomicAnswer_keeps | apply State.mwrite_keeps
    | apply State.defer_keeps | apply State.hwrite_keeps | apply State.rejectPkt_keeps | apply State.hread_keeps
    | apply State.modRma_keeps | apply State.remoteFault_keeps | apply Holds.ite
    | simp only [Holds.upd, hk_reads, Bool.false_eq_true, false_implies, implies_true] | apply Holds.ite1
    | refine Holds.of_fst (by assumption) ?_ | split | dsimp only

theorem State.hostAtomicDone_keeps (s : State) (d : Die) (handed : Nat) (data : List Byte) (poisoned : Bool) (tag : Nat)
    (hs : Holds K P s) (hk_accesses : K .accesses = false) (hk_dmem : K .dmem = false) (hk_hag : K .hag = false)
    (hk_hold : K .hold = false) (hk_mem : K .mem = false) (hk_out : K .out = false) (hk_reads : K .reads = false)
    (hk_regs : K .regs = false) (hk_rings : K .rings = false) (hk_rma : K .rma = false) (hk_sluice : K .sluice = false)
    (hk_tru : K .tru = false) (hk_xlu : K .xlu = false) :
    Holds K P (State.hostAtomicDone s d handed data poisoned tag) := by
  unfold State.hostAtomicDone
  try dsimp only
  with_reducible repeat' first
    | intro _ | assumption | apply State.atomicLost_keeps | apply State.dropAtomic_keeps | apply State.applyAtomic_keeps
    | apply State.modRma_keeps | apply Holds.ite | simp only [Holds.upd, hk_reads, Bool.false_eq_true, false_implies, implies_true]
    | split | dsimp only

theorem State.firstOf_keeps (s : State) (d : Die) (h_ : Handed) (hs : Holds K P s) (hk_rma : K .rma = false) :
    Holds K P (State.firstOf s d h_) := by
  unfold State.firstOf
  try dsimp only
  with_reducible repeat' first
    | intro _ | assumption | apply State.modRma_keeps | apply Holds.ite | split | dsimp only

theorem State.rmaReady_keeps (s : State) (d : Die) (h_ : Handed) (hs : Holds K P s) (hk_rma : K .rma = false) :
    Holds K P (State.rmaReady s d h_) := by
  unfold State.rmaReady
  try dsimp only
  with_reducible repeat' first
    | intro _ | assumption | apply State.modRma_keeps | apply State.firstOf_keeps | dsimp only

theorem State.applyRma_keeps (s : State) (d : Die) (h_ : Handed) (hs : Holds K P s) (hk_accesses : K .accesses = false)
    (hk_dmem : K .dmem = false) (hk_hag : K .hag = false) (hk_hold : K .hold = false) (hk_mem : K .mem = false)
    (hk_out : K .out = false) (hk_reads : K .reads = false) (hk_regs : K .regs = false) (hk_rings : K .rings = false)
    (hk_rma : K .rma = false) (hk_sluice : K .sluice = false) (hk_tru : K .tru = false) (hk_xlu : K .xlu = false) :
    Holds K P (State.applyRma s d h_) := by
  unfold State.applyRma
  try dsimp only
  with_reducible repeat' first
    | intro _ | assumption | apply State.flagFence_keeps | apply State.rmaReady_keeps | apply State.applyPut_keeps
    | apply State.applyNotify_keeps | apply State.applyGet_keeps | apply State.applyAtomic_keeps | apply Holds.ite
    | apply Holds.ite1 | refine Holds.of_fst (by assumption) ?_ | split | dsimp only

theorem State.takeRma_keeps (s : State) (d : Die) (id : Nat) (code : Nat) (hs : Holds K P s)
    (hk_accesses : K .accesses = false) (hk_dmem : K .dmem = false) (hk_hag : K .hag = false) (hk_hold : K .hold = false)
    (hk_mem : K .mem = false) (hk_out : K .out = false) (hk_reads : K .reads = false) (hk_regs : K .regs = false)
    (hk_rings : K .rings = false) (hk_rma : K .rma = false) (hk_sluice : K .sluice = false) (hk_tru : K .tru = false)
    (hk_xlu : K .xlu = false) :
    Holds K P (State.takeRma s d id code) := by
  unfold State.takeRma
  try dsimp only
  with_reducible repeat' first
    | intro _ | assumption | apply State.rmaRefuse_keeps | apply State.modRma_keeps | apply State.bump_keeps
    | apply State.applyRma_keeps | apply Holds.ite | split | dsimp only

theorem execRmaPut_keeps (d : Die) (id : Nat) (s : State) (hs : Holds K P s) (hk_accesses : K .accesses = false)
    (hk_dmem : K .dmem = false) (hk_hag : K .hag = false) (hk_hold : K .hold = false) (hk_mem : K .mem = false)
    (hk_out : K .out = false) (hk_reads : K .reads = false) (hk_regs : K .regs = false) (hk_rings : K .rings = false)
    (hk_rma : K .rma = false) (hk_sluice : K .sluice = false) (hk_tru : K .tru = false) (hk_xlu : K .xlu = false) :
    HoldsO K P (execRmaPut d id s) := by
  unfold execRmaPut
  try dsimp only
  with_reducible repeat' first
    | intro _ | assumption | apply State.takeRma_keeps | apply HoldsO.next | dsimp only

theorem execRmaNotify_keeps (d : Die) (id : Nat) (s : State) (hs : Holds K P s) (hk_accesses : K .accesses = false)
    (hk_dmem : K .dmem = false) (hk_hag : K .hag = false) (hk_hold : K .hold = false) (hk_mem : K .mem = false)
    (hk_out : K .out = false) (hk_reads : K .reads = false) (hk_regs : K .regs = false) (hk_rings : K .rings = false)
    (hk_rma : K .rma = false) (hk_sluice : K .sluice = false) (hk_tru : K .tru = false) (hk_xlu : K .xlu = false) :
    HoldsO K P (execRmaNotify d id s) := by
  unfold execRmaNotify
  try dsimp only
  with_reducible repeat' first
    | intro _ | assumption | apply State.takeRma_keeps | apply HoldsO.next | dsimp only

theorem execRmaGetReq_keeps (d : Die) (id : Nat) (s : State) (hs : Holds K P s) (hk_accesses : K .accesses = false)
    (hk_dmem : K .dmem = false) (hk_hag : K .hag = false) (hk_hold : K .hold = false) (hk_mem : K .mem = false)
    (hk_out : K .out = false) (hk_reads : K .reads = false) (hk_regs : K .regs = false) (hk_rings : K .rings = false)
    (hk_rma : K .rma = false) (hk_sluice : K .sluice = false) (hk_tru : K .tru = false) (hk_xlu : K .xlu = false) :
    HoldsO K P (execRmaGetReq d id s) := by
  unfold execRmaGetReq
  try dsimp only
  with_reducible repeat' first
    | intro _ | assumption | apply State.takeRma_keeps | apply HoldsO.next | dsimp only

theorem execRmaAtomic_keeps (d : Die) (id : Nat) (s : State) (hs : Holds K P s) (hk_accesses : K .accesses = false)
    (hk_dmem : K .dmem = false) (hk_hag : K .hag = false) (hk_hold : K .hold = false) (hk_mem : K .mem = false)
    (hk_out : K .out = false) (hk_reads : K .reads = false) (hk_regs : K .regs = false) (hk_rings : K .rings = false)
    (hk_rma : K .rma = false) (hk_sluice : K .sluice = false) (hk_tru : K .tru = false) (hk_xlu : K .xlu = false) :
    HoldsO K P (execRmaAtomic d id s) := by
  unfold execRmaAtomic
  try dsimp only
  with_reducible repeat' first
    | intro _ | assumption | apply State.takeRma_keeps | apply HoldsO.next | dsimp only

theorem execFlagHoldRelease_keeps (d : Die) (id : Nat) (s : State) (hs : Holds K P s) (hk_accesses : K .accesses = false)
    (hk_dmem : K .dmem = false) (hk_hag : K .hag = false) (hk_hold : K .hold = false) (hk_mem : K .mem = false)
    (hk_out : K .out = false) (hk_reads : K .reads = false) (hk_regs : K .regs = false) (hk_rings : K .rings = false)
    (hk_rma : K .rma = false) (hk_sluice : K .sluice = false) (hk_tru : K .tru = false) (hk_xlu : K .xlu = false) :
    HoldsO K P (execFlagHoldRelease d id s) := by
  unfold execFlagHoldRelease
  try dsimp only
  with_reducible repeat' first
    | intro _ | assumption | apply State.applyRma_keeps | apply State.atLeast_keeps | apply State.modRma_keeps | apply Holds.ite
    | apply HoldsO.next | split | dsimp only

theorem State.voidEvent_keeps (s : State) (d : Die) (e : Deferred) (hs : Holds K P s) (hk_rings : K .rings = false)
    (hk_rma : K .rma = false) :
    Holds K P (State.voidEvent s d e) := by
  unfold State.voidEvent
  try dsimp only
  with_reducible repeat' first
    | intro _ | assumption | apply State.modRing_keeps | apply State.modRma_keeps | split | dsimp only

theorem execTargetCounterEvent_keeps (d : Die) (id : Nat) (s : State) (hs : Holds K P s) (hk_counters : K .counters = false)
    (hk_free : K .free = false) (hk_out : K .out = false) (hk_regs : K .regs = false) (hk_rings : K .rings = false)
    (hk_rma : K .rma = false) :
    HoldsO K P (execTargetCounterEvent d id s) := by
  unfold execTargetCounterEvent
  try dsimp only
  with_reducible repeat' first
    | intro _ | assumption | apply State.voidEvent_keeps | apply State.modRma_keeps | apply State.atLeast_keeps
    | apply State.ctrAdd_keeps | apply Holds.ite | apply HoldsO.next | split | dsimp only

theorem execNotificationWrite_keeps (d : Die) (id : Nat) (s : State) (hs : Holds K P s) (hk_out : K .out = false)
    (hk_regs : K .regs = false) (hk_rings : K .rings = false) (hk_rma : K .rma = false) :
    HoldsO K P (execNotificationWrite d id s) := by
  unfold execNotificationWrite
  try dsimp only
  with_reducible repeat' first
    | intro _ | assumption | apply State.voidEvent_keeps | apply State.modRma_keeps | apply State.hwrite_keeps
    | apply State.msix_keeps | apply State.modRing_keeps | apply Holds.ite | apply HoldsO.next | split | dsimp only

theorem State.writeLocal_keeps (s : State) (d : Die) (f : Fn) (key : Nat) (addr : Nat) (data : List Byte) (poison : Bool)
    (hs : Holds K P s) (hk_accesses : K .accesses = false) (hk_dmem : K .dmem = false) (hk_hag : K .hag = false)
    (hk_hold : K .hold = false) (hk_mem : K .mem = false) (hk_out : K .out = false) (hk_regs : K .regs = false)
    (hk_xlu : K .xlu = false) :
    Holds K P (State.writeLocal s d f key addr data poison).1 := by
  unfold State.writeLocal
  try dsimp only
  with_reducible repeat' first
    | intro _ | assumption | apply State.rangeReady_keeps | apply State.writeSegs_keeps | apply Holds.ite | apply Holds.ite1
    | refine Holds.of_fst (by assumption) ?_ | split | dsimp only

theorem State.takeGetData_keeps (s : State) (d : Die) (id : Nat) (hs : Holds K P s) (hk_accesses : K .accesses = false)
    (hk_dmem : K .dmem = false) (hk_hag : K .hag = false) (hk_hold : K .hold = false) (hk_mem : K .mem = false)
    (hk_ops : K .ops = false) (hk_out : K .out = false) (hk_regs : K .regs = false) (hk_tru : K .tru = false)
    (hk_xlu : K .xlu = false) :
    Holds K P (State.takeGetData s d id) := by
  unfold State.takeGetData
  try dsimp only
  with_reducible repeat' first
    | intro _ | assumption | apply State.perform_keeps | apply State.opCheck_keeps | apply State.modOp_keeps
    | apply State.opError_keeps | apply State.writeLocal_keeps | apply State.xFault_keeps | apply Holds.ite | apply Holds.ite1
    | refine Holds.of_fst (by assumption) ?_ | split | dsimp only

theorem execRmaGetData_keeps (d : Die) (id : Nat) (s : State) (hs : Holds K P s) (hk_accesses : K .accesses = false)
    (hk_dmem : K .dmem = false) (hk_hag : K .hag = false) (hk_hold : K .hold = false) (hk_mem : K .mem = false)
    (hk_ops : K .ops = false) (hk_out : K .out = false) (hk_regs : K .regs = false) (hk_tru : K .tru = false)
    (hk_xlu : K .xlu = false) :
    HoldsO K P (execRmaGetData d id s) := by
  unfold execRmaGetData
  try dsimp only
  with_reducible repeat' first
    | intro _ | assumption | apply State.takeGetData_keeps | apply HoldsO.next | dsimp only

theorem State.ackAtomic_keeps (s : State) (d : Die) (ctx : Nat) (i : Nat) (hs : Holds K P s) (hk_ops : K .ops = false)
    (hk_tru : K .tru = false) :
    Holds K P (State.ackAtomic s d ctx i) := by
  unfold State.ackAtomic
  try dsimp only
  with_reducible repeat' first
    | intro _ | assumption | apply State.modOp_keeps | apply State.modCtx_keeps | apply Holds.ite | split | dsimp only

theorem State.takeAtomicRsp_keeps (s : State) (d : Die) (id : Nat) (hs : Holds K P s) (hk_accesses : K .accesses = false)
    (hk_dmem : K .dmem = false) (hk_hag : K .hag = false) (hk_hold : K .hold = false) (hk_mem : K .mem = false)
    (hk_ops : K .ops = false) (hk_out : K .out = false) (hk_regs : K .regs = false) (hk_tru : K .tru = false)
    (hk_xlu : K .xlu = false) :
    Holds K P (State.takeAtomicRsp s d id) := by
  unfold State.takeAtomicRsp
  try dsimp only
  with_reducible repeat' first
    | intro _ | assumption | apply State.perform_keeps | apply State.opCheck_keeps | apply State.modOp_keeps
    | apply State.ackAtomic_keeps | apply State.opError_keeps | apply State.writeLocal_keeps | apply State.xFault_keeps
    | apply Holds.ite | apply Holds.ite1 | refine Holds.of_fst (by assumption) ?_ | split | dsimp only

theorem execRmaAtomicRsp_keeps (d : Die) (id : Nat) (s : State) (hs : Holds K P s) (hk_accesses : K .accesses = false)
    (hk_dmem : K .dmem = false) (hk_hag : K .hag = false) (hk_hold : K .hold = false) (hk_mem : K .mem = false)
    (hk_ops : K .ops = false) (hk_out : K .out = false) (hk_regs : K .regs = false) (hk_tru : K .tru = false)
    (hk_xlu : K .xlu = false) :
    HoldsO K P (execRmaAtomicRsp d id s) := by
  unfold execRmaAtomicRsp
  try dsimp only
  with_reducible repeat' first
    | intro _ | assumption | apply State.takeAtomicRsp_keeps | apply HoldsO.next | dsimp only

theorem State.fillRead_keeps (s : State) (r : HostRead) (tag : Nat) (got : List Byte) (poisoned : Bool) (hs : Holds K P s)
    (hk_rings : K .rings = false) (hk_rma : K .rma = false) (hk_sluice : K .sluice = false) :
    Holds K P (State.fillRead s r tag got poisoned) := by
  unfold State.fillRead
  try dsimp only
  with_reducible repeat' first
   
    | (intro g x hg; cases g <;> first | exact absurd (hk_sluice.symm.trans hg) (by decide) | (with_unfolding_all exact dieSame_refl _ _) | (simp only [dieSame, and_self]))
    | intro _ | assumption | apply State.modDie_keeps | apply State.rmaFailed_keeps | apply Holds.ite | split | dsimp only

theorem State.fenceReturned_keeps (s : State) (r : HostRead) (hs : Holds K P s) (hk_accesses : K .accesses = false)
    (hk_dmem : K .dmem = false) (hk_hag : K .hag = false) (hk_hold : K .hold = false) (hk_mem : K .mem = false)
    (hk_out : K .out = false) (hk_reads : K .reads = false) (hk_regs : K .regs = false) (hk_rings : K .rings = false)
    (hk_rma : K .rma = false) (hk_sluice : K .sluice = false) (hk_tru : K .tru = false) (hk_xlu : K .xlu = false) :
    Holds K P (State.fenceReturned s r) := by
  unfold State.fenceReturned
  try dsimp only
  with_reducible repeat' first
    | intro _ | assumption | apply State.modRma_keeps | apply State.applyRma_keeps | apply Holds.ite | split | dsimp only

end Sys2Proof.Machine
end

