-- ==== Sys2Proof/Laws/KeepTmu.lean ====
section
/-! SUPPORT. The operations of Tmu.lean keep what the operations on registers and memory keep. -/

namespace Sys2Proof.Machine

set_option linter.all false
set_option linter.unusedTactic false
set_option linter.unreachableTactic false

variable {K : Grp → Bool} {P : State → Prop}

theorem State.modTmu_keeps (s : State) (d : Die) (f : Tmu → Tmu) (hs : Holds K P s) (hk_tmu : K .tmu = false) :
    Holds K P (State.modTmu s d f) := by
  unfold State.modTmu
  try dsimp only
  with_reducible repeat' first
   
    | (intro g x hg; cases g <;> first | exact absurd (hk_tmu.symm.trans hg) (by decide) | (with_unfolding_all exact dieSame_refl _ _) | (simp only [dieSame, and_self]))
    | intro _ | assumption | apply State.modDie_keeps | dsimp only

theorem State.place_keeps (s : State) (d : Die) (q : Nat) (polder : Nat) (n : Nat) (k : MKey) (posted : Bool)
    (hs : Holds K P s) (hk_regs : K .regs = false) (hk_tmu : K .tmu = false) :
    Holds K P (State.place s d q polder n k posted) := by
  unfold State.place
  try dsimp only
  with_reducible repeat' first
    | intro _ | assumption | apply State.modTmu_keeps | apply State.bump_keeps | apply Holds.ite | split | dsimp only

theorem State.unplace_keeps (s : State) (d : Die) (q : Nat) (n : Nat) (posted : Bool) (hs : Holds K P s)
    (hk_tmu : K .tmu = false) :
    Holds K P (State.unplace s d q n posted) := by
  unfold State.unplace
  try dsimp only
  with_reducible repeat' first
    | intro _ | assumption | apply State.modTmu_keeps | dsimp only

theorem State.granWrite_keeps (d : Die) (l : List Nat) (poison : Bool) (a : List Byte) (a' : Nat) (a'' : State)
    (ha'' : Holds K P a'') (hk_mem : K .mem = false) :
    Holds K P (State.granWrite d l poison a a' a'') := by
  induction a generalizing a' a'' ha'' with
  | nil =>
    unfold State.granWrite
    try dsimp only
    with_reducible repeat' first
      | intro _ | assumption | apply ih | apply State.mstore_keeps | split | dsimp only
  | cons x l ih =>
    unfold State.granWrite
    try dsimp only
    with_reducible repeat' first
      | intro _ | assumption | apply ih | apply State.mstore_keeps | split | dsimp only

theorem State.countLookup_keeps (s : State) (d : Die) (n : Nat) (hs : Holds K P s) (hk_regs : K .regs = false)
    (hk_tmu : K .tmu = false) :
    Holds K P (State.countLookup s d n) := by
  unfold State.countLookup
  try dsimp only
  with_reducible repeat' first
    | intro _ | assumption | apply State.modTmu_keeps | apply State.bump_keeps | dsimp only

theorem State.withLookup_keeps (s : State) (d : Die) (q : Nat) (polder : Nat) (k : MKey) (arrives : Bool)
    (arrival : Option Nat) (op : Option Nat) (act : State → State) (hs : Holds K P s) (hact : ∀ x0, Holds K P x0 → Holds K P
    (act x0)) (hk_regs : K .regs = false) (hk_tmu : K .tmu = false) :
    Holds K P (State.withLookup s d q polder k arrives arrival op act) := by
  unfold State.withLookup
  try dsimp only
  with_reducible repeat' first
    | intro _ | assumption | apply State.modTmu_keeps | apply State.event_keeps | apply State.countLookup_keeps
    | apply State.when_keeps | apply hact | apply Holds.ite | exact HoldsS.none | apply HoldsS.some
    | refine Holds.of_some (by assumption) ?_ | split | dsimp only

theorem State.modUx_keeps (s : State) (d : Die) (q : Nat) (asn : Nat) (f : Ux → Ux) (hs : Holds K P s)
    (hk_tmu : K .tmu = false) :
    Holds K P (State.modUx s d q asn f) := by
  unfold State.modUx
  try dsimp only
  with_reducible repeat' first
    | intro _ | assumption | apply State.modTmu_keeps | apply Holds.ite | split | dsimp only

theorem State.dropUx_keeps (s : State) (d : Die) (q : Nat) (asn : Nat) (hs : Holds K P s) (hk_tmu : K .tmu = false) :
    Holds K P (State.dropUx s d q asn) := by
  unfold State.dropUx
  try dsimp only
  with_reducible repeat' first
    | intro _ | assumption | apply State.modTmu_keeps | dsimp only

theorem State.endRecv_keeps (s : State) (d : Die) (i : Nat) (len : Nat) (hs : Holds K P s) (hk_ops : K .ops = false)
    (hk_regs : K .regs = false) :
    Holds K P (State.endRecv s d i len) := by
  unfold State.endRecv
  try dsimp only
  with_reducible repeat' first
    | intro _ | assumption | apply State.endOp_keeps | apply State.when_keeps | apply State.bump_keeps | apply Holds.ite | split
    | dsimp only

theorem State.tagMatched_keeps (s : State) (d : Die) (hp : Fin 4) (polder : Nat) (fea : Nat) (msgId : Nat) (hs : Holds K P s)
    (hk_accesses : K .accesses = false) (hk_dmem : K .dmem = false) (hk_hag : K .hag = false) (hk_hold : K .hold = false)
    (hk_mem : K .mem = false) (hk_out : K .out = false) (hk_reads : K .reads = false) (hk_regs : K .regs = false)
    (hk_sluice : K .sluice = false) (hk_xlu : K .xlu = false) :
    Holds K P (State.tagMatched s d hp polder fea msgId) := by
  unfold State.tagMatched
  try dsimp only
  with_reducible repeat' first
    | intro _ | assumption | apply State.injectHeld_keeps | dsimp only

theorem State.tagFin_keeps (s : State) (d : Die) (hp : Fin 4) (polder : Nat) (fea : Nat) (msgId : Nat) (status : Nat)
    (bytes : Nat) (hs : Holds K P s) (hk_accesses : K .accesses = false) (hk_dmem : K .dmem = false) (hk_hag : K .hag = false)
    (hk_hold : K .hold = false) (hk_mem : K .mem = false) (hk_out : K .out = false) (hk_reads : K .reads = false)
    (hk_regs : K .regs = false) (hk_sluice : K .sluice = false) (hk_xlu : K .xlu = false) :
    Holds K P (State.tagFin s d hp polder fea msgId status bytes) := by
  unfold State.tagFin
  try dsimp only
  with_reducible repeat' first
    | intro _ | assumption | apply State.injectHeld_keeps | dsimp only

theorem State.startPull_keeps (s : State) (d : Die) (i : Nat) (o : WOp) (hp : Fin 4) (fea : Nat) (msgId : Nat) (len : Nat)
    (hs : Holds K P s) (hk_accesses : K .accesses = false) (hk_dmem : K .dmem = false) (hk_free : K .free = false)
    (hk_hag : K .hag = false) (hk_hold : K .hold = false) (hk_mem : K .mem = false) (hk_ops : K .ops = false)
    (hk_out : K .out = false) (hk_reads : K .reads = false) (hk_regs : K .regs = false) (hk_sluice : K .sluice = false)
    (hk_tmu : K .tmu = false) (hk_xlu : K .xlu = false) :
    Holds K P (State.startPull s d i o hp fea msgId len) := by
  unfold State.startPull
  try dsimp only
  with_reducible repeat' first
    | intro _ | assumption | apply State.modOp_keeps | apply State.endRecv_keeps | apply State.tagFin_keeps
    | apply State.assign_keeps | apply State.issueChunk_keeps | apply State.modTmu_keeps | apply Holds.ite | split | dsimp only

theorem State.deliver_keeps (s : State) (d : Die) (o : WOp) (off : Nat) (data : List Byte) (poison : Bool) (hs : Holds K P s)
    (hk_accesses : K .accesses = false) (hk_dmem : K .dmem = false) (hk_hag : K .hag = false) (hk_hold : K .hold = false)
    (hk_mem : K .mem = false) (hk_out : K .out = false) (hk_regs : K .regs = false) (hk_xlu : K .xlu = false) :
    Holds K P (State.deliver s d o off data poison).1 := by
  unfold State.deliver
  try dsimp only
  with_reducible repeat' first
    | intro _ | assumption | apply State.writeLocal_keeps | dsimp only

theorem State.recvFault_keeps (s : State) (d : Die) (i : Nat) (o : WOp) (k : Nat) (hs : Holds K P s) (hk_ops : K .ops = false)
    (hk_regs : K .regs = false) :
    Holds K P (State.recvFault s d i o k) := by
  unfold State.recvFault
  try dsimp only
  with_reducible repeat' first
    | intro _ | assumption | apply State.endOp_keeps | apply State.xFault_keeps | dsimp only

theorem State.finishCopy_keeps (s : State) (d : Die) (i : Nat) (hs : Holds K P s) (hk_accesses : K .accesses = false)
    (hk_dmem : K .dmem = false) (hk_hag : K .hag = false) (hk_hold : K .hold = false) (hk_mem : K .mem = false)
    (hk_ops : K .ops = false) (hk_out : K .out = false) (hk_regs : K .regs = false) (hk_tmu : K .tmu = false)
    (hk_xlu : K .xlu = false) :
    Holds K P (State.finishCopy s d i) := by
  unfold State.finishCopy
  try dsimp only
  with_reducible repeat' first
    | intro _ | assumption | apply State.modTmu_keeps | apply State.dropUx_keeps | apply State.deliver_keeps
    | apply State.recvFault_keeps | apply State.endRecv_keeps | apply Holds.ite | apply Holds.ite1
    | refine Holds.of_fst (by assumption) ?_ | split | dsimp only

theorem State.keepUx_keeps (s : State) (d : Die) (q : Nat) (i : Nat) (u : Ux) (hs : Holds K P s)
    (hk_accesses : K .accesses = false) (hk_dmem : K .dmem = false) (hk_hag : K .hag = false) (hk_hold : K .hold = false)
    (hk_mem : K .mem = false) (hk_ops : K .ops = false) (hk_out : K .out = false) (hk_reads : K .reads = false)
    (hk_regs : K .regs = false) (hk_sluice : K .sluice = false) (hk_tmu : K .tmu = false) (hk_xlu : K .xlu = false) :
    Holds K P (State.keepUx s d q i u) := by
  unfold State.keepUx
  try dsimp only
  with_reducible repeat' first
    | intro _ | assumption | apply State.modOp_keeps | apply State.unplace_keeps | apply State.modUx_keeps
    | apply State.modTmu_keeps | apply State.when_keeps | apply State.tagMatched_keeps | dsimp only

theorem State.takeUx_keeps (s : State) (d : Die) (q : Nat) (i : Nat) (o : WOp) (u : Ux) (hs : Holds K P s)
    (hk_accesses : K .accesses = false) (hk_dmem : K .dmem = false) (hk_free : K .free = false) (hk_hag : K .hag = false)
    (hk_hold : K .hold = false) (hk_mem : K .mem = false) (hk_ops : K .ops = false) (hk_out : K .out = false)
    (hk_reads : K .reads = false) (hk_regs : K .regs = false) (hk_sluice : K .sluice = false) (hk_tmu : K .tmu = false)
    (hk_xlu : K .xlu = false) :
    Holds K P (State.takeUx s d q i o u) := by
  unfold State.takeUx
  try dsimp only
  with_reducible repeat' first
    | intro _ | assumption | apply State.startPull_keeps | apply State.modOp_keeps | apply State.unplace_keeps
    | apply State.dropUx_keeps | apply State.when_keeps | apply State.keepUx_keeps | apply State.finishCopy_keeps | apply Holds.ite
    | split | dsimp only

theorem State.postRecv_keeps (s : State) (d : Die) (i : Nat) (o : WOp) (hs : Holds K P s) (hk_ops : K .ops = false)
    (hk_regs : K .regs = false) (hk_tmu : K .tmu = false) :
    Holds K P (State.postRecv s d i o) := by
  unfold State.postRecv
  try dsimp only
  with_reducible repeat' first
    | intro _ | assumption | apply State.place_keeps | apply State.modTmu_keeps | apply State.modOp_keeps | dsimp only

theorem State.decideRecv_keeps (s : State) (d : Die) (i : Nat) (o : WOp) (hs : Holds K P s)
    (hk_accesses : K .accesses = false) (hk_dmem : K .dmem = false) (hk_free : K .free = false) (hk_hag : K .hag = false)
    (hk_hold : K .hold = false) (hk_mem : K .mem = false) (hk_ops : K .ops = false) (hk_out : K .out = false)
    (hk_reads : K .reads = false) (hk_regs : K .regs = false) (hk_sluice : K .sluice = false) (hk_tmu : K .tmu = false)
    (hk_xlu : K .xlu = false) :
    Holds K P (State.decideRecv s d i o) := by
  unfold State.decideRecv
  try dsimp only
  with_reducible repeat' first
    | intro _ | assumption | apply State.takeUx_keeps | apply State.postRecv_keeps | split | dsimp only

theorem State.tmuRefusal_keeps (s : State) (d : Die) (polder : Nat) (reason : Nat) (hs : Holds K P s)
    (hk_regs : K .regs = false) :
    Holds K P (State.tmuRefusal s d polder reason) := by
  unfold State.tmuRefusal
  try dsimp only
  with_reducible repeat' first
    | intro _ | assumption | apply State.wrs_keeps | dsimp only

theorem execTrecv_keeps (i : Nat) (s : State) (hs : Holds K P s) (hk_accesses : K .accesses = false)
    (hk_dmem : K .dmem = false) (hk_free : K .free = false) (hk_hag : K .hag = false) (hk_hold : K .hold = false)
    (hk_mem : K .mem = false) (hk_ops : K .ops = false) (hk_out : K .out = false) (hk_reads : K .reads = false)
    (hk_regs : K .regs = false) (hk_sluice : K .sluice = false) (hk_tmu : K .tmu = false) (hk_xlu : K .xlu = false) :
    HoldsO K P (execTrecv i s) := by
  unfold execTrecv
  try dsimp only
  with_reducible repeat' first
    | intro _ | assumption | apply State.opFault_keeps | apply State.endOp_keeps | apply State.tmuRefusal_keeps
    | apply State.bump_keeps | apply State.withLookup_keeps | apply State.decideRecv_keeps | apply Holds.ite | apply HoldsO.next
    | split | dsimp only

theorem execTmrecv_keeps (i : Nat) (s : State) (hs : Holds K P s) (hk_accesses : K .accesses = false)
    (hk_dmem : K .dmem = false) (hk_free : K .free = false) (hk_hag : K .hag = false) (hk_hold : K .hold = false)
    (hk_mem : K .mem = false) (hk_ops : K .ops = false) (hk_out : K .out = false) (hk_reads : K .reads = false)
    (hk_regs : K .regs = false) (hk_sluice : K .sluice = false) (hk_tmu : K .tmu = false) (hk_xlu : K .xlu = false) :
    HoldsO K P (execTmrecv i s) := by
  unfold execTmrecv
  try dsimp only
  with_reducible repeat' first
    | intro _ | assumption | apply State.opFault_keeps | apply State.endOp_keeps | apply State.takeUx_keeps | apply Holds.ite
    | apply HoldsO.next | split | dsimp only

theorem State.decideProbe_keeps (s : State) (d : Die) (q : Nat) (i : Nat) (o : WOp) (hs : Holds K P s)
    (hk_ops : K .ops = false) (hk_tmu : K .tmu = false) :
    Holds K P (State.decideProbe s d q i o) := by
  unfold State.decideProbe
  try dsimp only
  with_reducible repeat' first
    | intro _ | assumption | apply State.endOp_keeps | apply State.modOp_keeps | apply State.modUx_keeps | apply State.unplace_keeps
    | apply Holds.ite | split | dsimp only

theorem State.startProbe_keeps (s : State) (i : Nat) (code : Nat) (hs : Holds K P s) (hk_ops : K .ops = false)
    (hk_regs : K .regs = false) (hk_tmu : K .tmu = false) :
    Holds K P (State.startProbe s i code) := by
  unfold State.startProbe
  try dsimp only
  with_reducible repeat' first
    | intro _ | assumption | apply State.endOp_keeps | apply State.withLookup_keeps | apply State.decideProbe_keeps | split
    | dsimp only

theorem execTprobe_keeps (i : Nat) (s : State) (hs : Holds K P s) (hk_ops : K .ops = false) (hk_regs : K .regs = false)
    (hk_tmu : K .tmu = false) :
    HoldsO K P (execTprobe i s) := by
  unfold execTprobe
  try dsimp only
  with_reducible repeat' first
    | intro _ | assumption | apply State.startProbe_keeps | apply HoldsO.next | dsimp only

theorem execTmprobe_keeps (i : Nat) (s : State) (hs : Holds K P s) (hk_ops : K .ops = false) (hk_regs : K .regs = false)
    (hk_tmu : K .tmu = false) :
    HoldsO K P (execTmprobe i s) := by
  unfold execTmprobe
  try dsimp only
  with_reducible repeat' first
    | intro _ | assumption | apply State.startProbe_keeps | apply HoldsO.next | dsimp only

theorem execTcancel_keeps (i : Nat) (s : State) (hs : Holds K P s) (hk_counters : K .counters = false)
    (hk_free : K .free = false) (hk_ops : K .ops = false) (hk_out : K .out = false) (hk_queues : K .queues = false)
    (hk_regs : K .regs = false) (hk_rings : K .rings = false) (hk_tmu : K .tmu = false) (hk_triggers : K .triggers = false) :
    HoldsO K P (execTcancel i s) := by
  unfold execTcancel
  try dsimp only
  with_reducible repeat' first
    | intro _ | assumption | apply State.endOp_keeps | apply State.modTmu_keeps | apply State.unplace_keeps
    | apply State.complete_keeps | apply State.bump_keeps | apply State.modOp_keeps | apply Holds.ite | apply HoldsO.next | split
    | dsimp only

theorem State.eagerPackets_keeps (s : State) (d : Die) (i : Nat) (o : WOp) (first : Nat) (loff : Nat) (hs : Holds K P s)
    (hk_accesses : K .accesses = false) (hk_dmem : K .dmem = false) (hk_hag : K .hag = false) (hk_hold : K .hold = false)
    (hk_mem : K .mem = false) (hk_ops : K .ops = false) (hk_out : K .out = false) (hk_reads : K .reads = false)
    (hk_regs : K .regs = false) (hk_sluice : K .sluice = false) (hk_xlu : K .xlu = false) :
    Holds K P (State.eagerPackets s d i o first loff) := by
  unfold State.eagerPackets
  try dsimp only
  with_reducible repeat' first
    | intro _ | assumption | apply State.inject_keeps | apply State.modOp_keeps | apply Holds.ite | apply Holds.foldl
    | apply Holds.ite1 | apply Holds.foldl1 | split | dsimp only

theorem execTsend_keeps (i : Nat) (s : State) (hs : Holds K P s) (hk_accesses : K .accesses = false)
    (hk_dmem : K .dmem = false) (hk_hag : K .hag = false) (hk_hold : K .hold = false) (hk_mem : K .mem = false)
    (hk_ops : K .ops = false) (hk_out : K .out = false) (hk_reads : K .reads = false) (hk_regs : K .regs = false)
    (hk_sluice : K .sluice = false) (hk_xlu : K .xlu = false) :
    HoldsO K P (execTsend i s) := by
  unfold execTsend
  try dsimp only
  with_reducible repeat' first
    | intro _ | assumption | apply State.endOp_keeps | apply State.eagerPackets_keeps | apply State.opFault_keeps
    | apply State.modOp_keeps | apply State.inject_keeps | apply State.rangeReady_keeps | apply Holds.ite | apply HoldsO.next
    | apply Holds.ite1 | refine Holds.of_fst (by assumption) ?_ | split | dsimp only

theorem State.tmuReturn_keeps (s : State) (d : Die) (h_ : Handed) (hs : Holds K P s) (hk_regs : K .regs = false)
    (hk_sluice : K .sluice = false) (hk_tmu : K .tmu = false) (hk_tru : K .tru = false) :
    Holds K P (State.tmuReturn s d h_) := by
  unfold State.tmuReturn
  try dsimp only
  with_reducible repeat' first
    | intro _ | assumption | apply State.modTru_keeps | apply State.bump_keeps | apply State.modCtx_keeps | apply State.modTmu_keeps
    | apply State.refusePkt_keeps | apply Holds.ite | split | dsimp only

theorem State.tmuRefuse_keeps (s : State) (d : Die) (h_ : Handed) (reason : Nat) (hs : Holds K P s)
    (hk_regs : K .regs = false) (hk_sluice : K .sluice = false) (hk_tmu : K .tmu = false) (hk_tru : K .tru = false) :
    Holds K P (State.tmuRefuse s d h_ reason) := by
  unfold State.tmuRefuse
  try dsimp only
  with_reducible repeat' first
    | intro _ | assumption | apply State.tmuReturn_keeps | apply State.tmuRefusal_keeps | dsimp only

theorem State.addInbound_keeps (s : State) (d : Die) (h_ : Handed) (len : Nat) (got : Nat) (into : Into) (hs : Holds K P s)
    (hk_tmu : K .tmu = false) :
    Holds K P (State.addInbound s d h_ len got into) := by
  unfold State.addInbound
  try dsimp only
  with_reducible repeat' first
    | intro _ | assumption | apply State.modTmu_keeps | apply Holds.ite | split | dsimp only

theorem State.storeUx_keeps (s : State) (d : Die) (h_ : Handed) (hs : Holds K P s) (hk_mem : K .mem = false)
    (hk_regs : K .regs = false) (hk_sluice : K .sluice = false) (hk_tmu : K .tmu = false) (hk_tru : K .tru = false) :
    Holds K P (State.storeUx s d h_) := by
  unfold State.storeUx
  try dsimp only
  with_reducible repeat' first
    | intro _ | assumption | apply State.tmuRefuse_keeps | apply State.addRecord_keeps | apply State.refusePkt_keeps
    | apply State.when_keeps | apply State.tmuRefusal_keeps | apply State.bump_keeps | apply State.granWrite_keeps
    | apply State.modTmu_keeps | apply State.place_keeps | apply State.addInbound_keeps | apply State.perform_keeps
    | apply Holds.ite | apply Holds.ite1 | refine Holds.of_fst (by assumption) ?_ | split | dsimp only

theorem State.inboundGot_keeps (s : State) (d : Die) (ctx : Nat) (msgId : Nat) (n : Nat) (hs : Holds K P s)
    (hk_tmu : K .tmu = false) :
    Holds K P (State.inboundGot s d ctx msgId n) := by
  unfold State.inboundGot
  try dsimp only
  with_reducible repeat' first
    | intro _ | assumption | apply State.modTmu_keeps | apply Holds.ite | split | dsimp only

theorem State.intoMessage_keeps (s : State) (d : Die) (h_ : Handed) (b : Inbound) (off : Nat) (data : List Byte)
    (hs : Holds K P s) (hk_accesses : K .accesses = false) (hk_dmem : K .dmem = false) (hk_hag : K .hag = false)
    (hk_hold : K .hold = false) (hk_mem : K .mem = false) (hk_ops : K .ops = false) (hk_out : K .out = false)
    (hk_regs : K .regs = false) (hk_tmu : K .tmu = false) (hk_tru : K .tru = false) (hk_xlu : K .xlu = false) :
    Holds K P (State.intoMessage s d h_ b off data) := by
  unfold State.intoMessage
  try dsimp only
  with_reducible repeat' first
    | intro _ | assumption | apply State.perform_keeps | apply State.inboundGot_keeps | apply State.modUx_keeps
    | apply State.granWrite_keeps | apply State.deliver_keeps | apply State.recvFault_keeps | apply State.endRecv_keeps
    | apply Holds.ite | apply Holds.ite1 | refine Holds.of_fst (by assumption) ?_ | split | dsimp only

theorem State.consumePost_keeps (s : State) (d : Die) (h_ : Handed) (r : Posted) (hs : Holds K P s)
    (hk_accesses : K .accesses = false) (hk_dmem : K .dmem = false) (hk_free : K .free = false) (hk_hag : K .hag = false)
    (hk_hold : K .hold = false) (hk_mem : K .mem = false) (hk_ops : K .ops = false) (hk_out : K .out = false)
    (hk_reads : K .reads = false) (hk_regs : K .regs = false) (hk_sluice : K .sluice = false) (hk_tmu : K .tmu = false)
    (hk_tru : K .tru = false) (hk_xlu : K .xlu = false) :
    Holds K P (State.consumePost s d h_ r) := by
  unfold State.consumePost
  try dsimp only
  with_reducible repeat' first
    | intro _ | assumption | apply State.modOp_keeps | apply State.modTmu_keeps | apply State.unplace_keeps
    | apply State.perform_keeps | apply State.startPull_keeps | apply State.when_keeps | apply State.tagMatched_keeps
    | apply State.intoMessage_keeps | apply Holds.ite | split | dsimp only

theorem State.decideArrival_keeps (s : State) (d : Die) (h_ : Handed) (hs : Holds K P s) (hk_accesses : K .accesses = false)
    (hk_dmem : K .dmem = false) (hk_free : K .free = false) (hk_hag : K .hag = false) (hk_hold : K .hold = false)
    (hk_mem : K .mem = false) (hk_ops : K .ops = false) (hk_out : K .out = false) (hk_reads : K .reads = false)
    (hk_regs : K .regs = false) (hk_sluice : K .sluice = false) (hk_tmu : K .tmu = false) (hk_tru : K .tru = false)
    (hk_xlu : K .xlu = false) :
    Holds K P (State.decideArrival s d h_) := by
  unfold State.decideArrival
  try dsimp only
  with_reducible repeat' first
    | intro _ | assumption | apply State.perform_keeps | apply State.consumePost_keeps | apply State.storeUx_keeps | apply Holds.ite
    | split | dsimp only

theorem State.takeFirst_keeps (s : State) (d : Die) (id : Nat) (code : Nat) (hs : Holds K P s)
    (hk_accesses : K .accesses = false) (hk_dmem : K .dmem = false) (hk_free : K .free = false) (hk_hag : K .hag = false)
    (hk_hold : K .hold = false) (hk_mem : K .mem = false) (hk_ops : K .ops = false) (hk_out : K .out = false)
    (hk_reads : K .reads = false) (hk_regs : K .regs = false) (hk_rings : K .rings = false) (hk_rma : K .rma = false)
    (hk_sluice : K .sluice = false) (hk_tmu : K .tmu = false) (hk_tru : K .tru = false) (hk_xlu : K .xlu = false) :
    Holds K P (State.takeFirst s d id code) := by
  unfold State.takeFirst
  try dsimp only
  with_reducible repeat' first
    | intro _ | assumption | apply State.intoMessage_keeps | apply State.tmuReturn_keeps | apply State.absentPort_keeps
    | apply State.rejectPkt_keeps | apply State.withLookup_keeps | apply State.decideArrival_keeps | apply Holds.ite | split
    | dsimp only

theorem execTagEager_keeps (d : Die) (id : Nat) (s : State) (hs : Holds K P s) (hk_accesses : K .accesses = false)
    (hk_dmem : K .dmem = false) (hk_free : K .free = false) (hk_hag : K .hag = false) (hk_hold : K .hold = false)
    (hk_mem : K .mem = false) (hk_ops : K .ops = false) (hk_out : K .out = false) (hk_reads : K .reads = false)
    (hk_regs : K .regs = false) (hk_rings : K .rings = false) (hk_rma : K .rma = false) (hk_sluice : K .sluice = false)
    (hk_tmu : K .tmu = false) (hk_tru : K .tru = false) (hk_xlu : K .xlu = false) :
    HoldsO K P (execTagEager d id s) := by
  unfold execTagEager
  try dsimp only
  with_reducible repeat' first
    | intro _ | assumption | apply State.takeFirst_keeps | apply HoldsO.next | dsimp only

theorem execTagRts_keeps (d : Die) (id : Nat) (s : State) (hs : Holds K P s) (hk_accesses : K .accesses = false)
    (hk_dmem : K .dmem = false) (hk_free : K .free = false) (hk_hag : K .hag = false) (hk_hold : K .hold = false)
    (hk_mem : K .mem = false) (hk_ops : K .ops = false) (hk_out : K .out = false) (hk_reads : K .reads = false)
    (hk_regs : K .regs = false) (hk_rings : K .rings = false) (hk_rma : K .rma = false) (hk_sluice : K .sluice = false)
    (hk_tmu : K .tmu = false) (hk_tru : K .tru = false) (hk_xlu : K .xlu = false) :
    HoldsO K P (execTagRts d id s) := by
  unfold execTagRts
  try dsimp only
  with_reducible repeat' first
    | intro _ | assumption | apply State.takeFirst_keeps | apply HoldsO.next | dsimp only

theorem execTagCont_keeps (d : Die) (id : Nat) (s : State) (hs : Holds K P s) (hk_accesses : K .accesses = false)
    (hk_dmem : K .dmem = false) (hk_hag : K .hag = false) (hk_hold : K .hold = false) (hk_mem : K .mem = false)
    (hk_ops : K .ops = false) (hk_out : K .out = false) (hk_regs : K .regs = false) (hk_tmu : K .tmu = false)
    (hk_tru : K .tru = false) (hk_xlu : K .xlu = false) :
    HoldsO K P (execTagCont d id s) := by
  unfold execTagCont
  try dsimp only
  with_reducible repeat' first
    | intro _ | assumption | apply State.perform_keeps | apply State.intoMessage_keeps | apply Holds.ite | apply HoldsO.next | split
    | dsimp only

theorem execTagPull_keeps (d : Die) (id : Nat) (s : State) (hs : Holds K P s) (hk_accesses : K .accesses = false)
    (hk_dmem : K .dmem = false) (hk_hag : K .hag = false) (hk_hold : K .hold = false) (hk_mem : K .mem = false)
    (hk_ops : K .ops = false) (hk_out : K .out = false) (hk_reads : K .reads = false) (hk_regs : K .regs = false)
    (hk_rings : K .rings = false) (hk_rma : K .rma = false) (hk_sluice : K .sluice = false) (hk_tru : K .tru = false)
    (hk_xlu : K .xlu = false) :
    HoldsO K P (execTagPull d id s) := by
  unfold execTagPull
  try dsimp only
  with_reducible repeat' first
    | intro _ | assumption | apply State.perform_keeps | apply State.rejectPkt_keeps | apply State.opFault_keeps
    | apply State.rangeReady_keeps | apply State.inject_keeps | apply Holds.foldl | apply HoldsO.next | apply Holds.foldl1
    | refine Holds.of_fst (by assumption) ?_ | split | dsimp only

theorem State.dropPull_keeps (s : State) (d : Die) (i : Nat) (hs : Holds K P s) (hk_tmu : K .tmu = false) :
    Holds K P (State.dropPull s d i) := by
  unfold State.dropPull
  try dsimp only
  with_reducible repeat' first
    | intro _ | assumption | apply State.modTmu_keeps | dsimp only

theorem execTagPullData_keeps (d : Die) (id : Nat) (s : State) (hs : Holds K P s) (hk_accesses : K .accesses = false)
    (hk_dmem : K .dmem = false) (hk_hag : K .hag = false) (hk_hold : K .hold = false) (hk_mem : K .mem = false)
    (hk_ops : K .ops = false) (hk_out : K .out = false) (hk_reads : K .reads = false) (hk_regs : K .regs = false)
    (hk_sluice : K .sluice = false) (hk_tmu : K .tmu = false) (hk_tru : K .tru = false) (hk_xlu : K .xlu = false) :
    HoldsO K P (execTagPullData d id s) := by
  unfold execTagPullData
  try dsimp only
  with_reducible repeat' first
    | intro _ | assumption | apply State.perform_keeps | apply State.deliver_keeps | apply State.tagFin_keeps
    | apply State.dropPull_keeps | apply State.recvFault_keeps | apply State.modTmu_keeps | apply State.modOp_keeps
    | apply State.endRecv_keeps | apply Holds.ite | apply HoldsO.next | apply Holds.ite1 | refine Holds.of_fst (by assumption) ?_
    | split | dsimp only

theorem execTagFin_keeps (d : Die) (id : Nat) (s : State) (hs : Holds K P s) (hk_ops : K .ops = false)
    (hk_tru : K .tru = false) :
    HoldsO K P (execTagFin d id s) := by
  unfold execTagFin
  try dsimp only
  with_reducible repeat' first
    | intro _ | assumption | apply State.perform_keeps | apply State.endOp_keeps | apply Holds.ite | apply HoldsO.next | split
    | dsimp only

theorem execTagMatched_keeps (d : Die) (id : Nat) (s : State) (hs : Holds K P s) (hk_ops : K .ops = false)
    (hk_tru : K .tru = false) :
    HoldsO K P (execTagMatched d id s) := by
  unfold execTagMatched
  try dsimp only
  with_reducible repeat' first
    | intro _ | assumption | apply State.perform_keeps | apply State.endOp_keeps | apply State.modOp_keeps | apply HoldsO.next
    | split | dsimp only

theorem execStoredCopyDone_keeps (d : Die) (i : Nat) (s : State) (hs : Holds K P s) (hk_accesses : K .accesses = false)
    (hk_dmem : K .dmem = false) (hk_hag : K .hag = false) (hk_hold : K .hold = false) (hk_mem : K .mem = false)
    (hk_ops : K .ops = false) (hk_out : K .out = false) (hk_regs : K .regs = false) (hk_tmu : K .tmu = false)
    (hk_xlu : K .xlu = false) :
    HoldsO K P (execStoredCopyDone d i s) := by
  unfold execStoredCopyDone
  try dsimp only
  with_reducible repeat' first
    | intro _ | assumption | apply State.finishCopy_keeps | apply HoldsO.next | dsimp only

theorem execSpillReadReturn_keeps (d : Die) (id : Nat) (s : State) (hs : Holds K P s) (hk_accesses : K .accesses = false)
    (hk_dmem : K .dmem = false) (hk_free : K .free = false) (hk_hag : K .hag = false) (hk_hold : K .hold = false)
    (hk_mem : K .mem = false) (hk_ops : K .ops = false) (hk_out : K .out = false) (hk_reads : K .reads = false)
    (hk_regs : K .regs = false) (hk_sluice : K .sluice = false) (hk_tmu : K .tmu = false) (hk_tru : K .tru = false)
    (hk_xlu : K .xlu = false) :
    HoldsO K P (execSpillReadReturn d id s) := by
  unfold execSpillReadReturn
  try dsimp only
  with_reducible repeat' first
    | intro _ | assumption | apply State.event_keeps | apply State.bump_keeps | apply State.modTmu_keeps
    | apply State.decideArrival_keeps | apply State.decideRecv_keeps | apply State.decideProbe_keeps | apply Holds.ite
    | apply HoldsO.next | split | dsimp only

theorem execSpillReload_keeps (d : Die) (bin : Nat) (s : State) (hs : Holds K P s) (hk_tmu : K .tmu = false) :
    HoldsO K P (execSpillReload d bin s) := by
  unfold execSpillReload
  try dsimp only
  with_reducible repeat' first
    | intro _ | assumption | apply State.modTmu_keeps | apply Holds.ite | apply HoldsO.next | split | dsimp only

theorem State.startRehash_keeps (s : State) (d : Die) (hs : Holds K P s) (hk_free : K .free = false) (hk_tmu : K .tmu = false) :
    Holds K P (State.startRehash s d) := by
  unfold State.startRehash
  try dsimp only
  with_reducible repeat' first
    | intro _ | assumption | apply State.draw_keeps | apply State.modTmu_keeps | apply Holds.ite | split | dsimp only

theorem execChainIntervalEnd_keeps (d : Die) (s : State) (hs : Holds K P s) (hk_free : K .free = false)
    (hk_regs : K .regs = false) (hk_tmu : K .tmu = false) :
    HoldsO K P (execChainIntervalEnd d s) := by
  unfold execChainIntervalEnd
  try dsimp only
  with_reducible repeat' first
    | intro _ | assumption | apply State.modTmu_keeps | apply State.wrs_keeps | apply State.startRehash_keeps | apply Holds.ite
    | apply HoldsO.next | split | dsimp only

theorem execRehashGo_keeps (rq : Requester) (d : Die) (s : State) (hs : Holds K P s) (hk_free : K .free = false)
    (hk_regs : K .regs = false) (hk_tmu : K .tmu = false) :
    HoldsO K P (execRehashGo rq d s) := by
  unfold execRehashGo
  try dsimp only
  with_reducible repeat' first
    | intro _ | assumption | apply State.privViolation_keeps | apply State.startRehash_keeps | apply Holds.ite | apply HoldsO.next
    | split | dsimp only

theorem execRehashMove_keeps (d : Die) (s : State) (hs : Holds K P s) (hk_tmu : K .tmu = false) :
    HoldsO K P (execRehashMove d s) := by
  unfold execRehashMove
  try dsimp only
  with_reducible repeat' first
    | intro _ | assumption | apply State.modTmu_keeps | apply Holds.ite | apply HoldsO.next | split | dsimp only

theorem execRehashCutover_keeps (d : Die) (s : State) (hs : Holds K P s) (hk_regs : K .regs = false) (hk_tmu : K .tmu = false) :
    HoldsO K P (execRehashCutover d s) := by
  unfold execRehashCutover
  try dsimp only
  with_reducible repeat' first
    | intro _ | assumption | apply State.modTmu_keeps | apply State.bump_keeps | apply Holds.ite | apply HoldsO.next | split
    | dsimp only

theorem State.tmuDropQueue_keeps (s : State) (q : Nat) (hs : Holds K P s) (hk_accesses : K .accesses = false)
    (hk_dmem : K .dmem = false) (hk_hag : K .hag = false) (hk_hold : K .hold = false) (hk_mem : K .mem = false)
    (hk_out : K .out = false) (hk_reads : K .reads = false) (hk_regs : K .regs = false) (hk_sluice : K .sluice = false)
    (hk_tmu : K .tmu = false) (hk_xlu : K .xlu = false) :
    Holds K P (State.tmuDropQueue s q) := by
  unfold State.tmuDropQueue
  try dsimp only
  with_reducible repeat' first
    | intro _ | assumption | apply State.tagFin_keeps | apply State.modTmu_keeps | apply Holds.ite | apply Holds.foldl | split
    | dsimp only

theorem execResetQueue_keeps (f : Fn) (q : Fin 128) (c : QcArgs) (s : State) (hs : Holds K P s)
    (hk_accesses : K .accesses = false) (hk_control : K .control = false) (hk_dmem : K .dmem = false)
    (hk_hag : K .hag = false) (hk_hold : K .hold = false) (hk_mem : K .mem = false) (hk_ops : K .ops = false)
    (hk_out : K .out = false) (hk_queues : K .queues = false) (hk_reads : K .reads = false) (hk_regs : K .regs = false)
    (hk_sluice : K .sluice = false) (hk_tmu : K .tmu = false) (hk_triggers : K .triggers = false) (hk_xlu : K .xlu = false) :
    HoldsO K P (execResetQueue f q c s) := by
  unfold execResetQueue
  try dsimp only
  with_reducible repeat' first
    | intro _ | assumption | apply State.qcCommand_keeps | apply State.resetQueue_keeps | apply State.tmuDropQueue_keeps
    | apply Holds.ite | apply HoldsO.next | exact HoldsE.error | apply HoldsE.ok | apply HoldsE.ite | exact HoldsEP.error
    | apply HoldsEP.ok | apply HoldsEP.ite | apply Holds.ite1 | split | dsimp only

end Sys2Proof.Machine
end

