-- ==== Sys2Proof/Laws/KeepQuadrille.lean ====
section
/-! SUPPORT. The operations of Quadrille.lean keep what the operations on registers and memory keep. -/

namespace Sys2Proof.Machine

set_option linter.all false
set_option linter.unusedTactic false
set_option linter.unreachableTactic false

variable {K : Grp → Bool} {P : State → Prop}

theorem State.modMember_keeps (s : State) (d : Die) (m : Nat) (f : Member → Member) (hs : Holds K P s)
    (hk_members : K .members = false) :
    Holds K P (State.modMember s d m f) := by
  unfold State.modMember
  try dsimp only
  with_reducible repeat' first
   
    | (intro g x hg; cases g <;> first | exact absurd (hk_members.symm.trans hg) (by decide) | (with_unfolding_all exact dieSame_refl _ _) | (simp only [dieSame, and_self]))
    | intro _ | assumption | apply State.modDie_keeps | dsimp only

theorem State.dropMember_keeps (s : State) (d : Die) (m : Nat) (hs : Holds K P s) (hk_members : K .members = false) :
    Holds K P (State.dropMember s d m) := by
  unfold State.dropMember
  try dsimp only
  with_reducible repeat' first
   
    | (intro g x hg; cases g <;> first | exact absurd (hk_members.symm.trans hg) (by decide) | (with_unfolding_all exact dieSame_refl _ _) | (simp only [dieSame, and_self]))
    | intro _ | assumption | apply State.modDie_keeps | dsimp only

theorem State.sendQctl_keeps (s : State) (d : Die) (k : Nat) (m : Member) (up : Bool) (dest : Nat) (op : Nat) (opseq : Nat)
    (hs : Holds K P s) (hk_accesses : K .accesses = false) (hk_dmem : K .dmem = false) (hk_hag : K .hag = false)
    (hk_hold : K .hold = false) (hk_mem : K .mem = false) (hk_members : K .members = false) (hk_out : K .out = false)
    (hk_reads : K .reads = false) (hk_regs : K .regs = false) (hk_sluice : K .sluice = false) (hk_xlu : K .xlu = false) :
    Holds K P (State.sendQctl s d k m up dest op opseq) := by
  unfold State.sendQctl
  try dsimp only
  with_reducible repeat' first
    | intro _ | assumption | apply State.modMember_keeps | apply State.injectHeld_keeps | apply Holds.ite | split | dsimp only

theorem State.toChildren_keeps (s : State) (d : Die) (k : Nat) (m : Member) (op : Nat) (opseq : Nat) (hs : Holds K P s)
    (hk_accesses : K .accesses = false) (hk_dmem : K .dmem = false) (hk_hag : K .hag = false) (hk_hold : K .hold = false)
    (hk_mem : K .mem = false) (hk_members : K .members = false) (hk_out : K .out = false) (hk_reads : K .reads = false)
    (hk_regs : K .regs = false) (hk_sluice : K .sluice = false) (hk_xlu : K .xlu = false) :
    Holds K P (State.toChildren s d k m op opseq) := by
  unfold State.toChildren
  try dsimp only
  with_reducible repeat' first
    | intro _ | assumption | apply State.sendQctl_keeps | apply Holds.foldl | dsimp only

theorem State.toParent_keeps (s : State) (d : Die) (k : Nat) (m : Member) (op : Nat) (opseq : Nat) (hs : Holds K P s)
    (hk_accesses : K .accesses = false) (hk_dmem : K .dmem = false) (hk_hag : K .hag = false) (hk_hold : K .hold = false)
    (hk_mem : K .mem = false) (hk_members : K .members = false) (hk_out : K .out = false) (hk_reads : K .reads = false)
    (hk_regs : K .regs = false) (hk_sluice : K .sluice = false) (hk_xlu : K .xlu = false) :
    Holds K P (State.toParent s d k m op opseq) := by
  unfold State.toParent
  try dsimp only
  with_reducible repeat' first
    | intro _ | assumption | apply State.sendQctl_keeps | apply Holds.ite | split | dsimp only

theorem State.countQuadOp_keeps (s : State) (d : Die) (m : Member) (hs : Holds K P s) (hk_regs : K .regs = false) :
    Holds K P (State.countQuadOp s d m) := by
  unfold State.countQuadOp
  try dsimp only
  with_reducible repeat' first
    | intro _ | assumption | apply State.bump_keeps | apply Holds.ite | split | dsimp only

theorem State.quadCheck_keeps (s : State) (d : Die) (k : Nat) (opseq : Nat) (hs : Holds K P s)
    (hk_members : K .members = false) (hk_ops : K .ops = false) (hk_regs : K .regs = false) :
    Holds K P (State.quadCheck s d k opseq) := by
  unfold State.quadCheck
  try dsimp only
  with_reducible repeat' first
    | intro _ | assumption | apply State.modMember_keeps | apply State.endOp_keeps | apply State.modOp_keeps
    | apply State.countQuadOp_keeps | apply Holds.ite | split | dsimp only

theorem State.quadFail_keeps (s : State) (d : Die) (k : Nat) (st : Nat) (fea : Nat) (local_ : Bool) (skip : Option Nat)
    (hs : Holds K P s) (hk_accesses : K .accesses = false) (hk_dmem : K .dmem = false) (hk_hag : K .hag = false)
    (hk_hold : K .hold = false) (hk_mem : K .mem = false) (hk_members : K .members = false) (hk_ops : K .ops = false)
    (hk_out : K .out = false) (hk_reads : K .reads = false) (hk_regs : K .regs = false) (hk_sluice : K .sluice = false)
    (hk_xlu : K .xlu = false) :
    Holds K P (State.quadFail s d k st fea local_ skip) := by
  unfold State.quadFail
  try dsimp only
  with_reducible repeat' first
    | intro _ | assumption | apply State.opAbort_keeps | apply State.modOp_keeps | apply State.sendQctl_keeps
    | apply State.bump_keeps | apply State.wrs_keeps | apply State.modMember_keeps | apply Holds.ite | apply Holds.foldl
    | exact HoldsS.none | apply HoldsS.some | refine Holds.of_some (by assumption) ?_ | split | dsimp only

theorem State.quadFailHere_keeps (s : State) (d : Die) (k : Nat) (st : Nat) (hs : Holds K P s)
    (hk_accesses : K .accesses = false) (hk_dmem : K .dmem = false) (hk_hag : K .hag = false) (hk_hold : K .hold = false)
    (hk_mem : K .mem = false) (hk_members : K .members = false) (hk_ops : K .ops = false) (hk_out : K .out = false)
    (hk_reads : K .reads = false) (hk_regs : K .regs = false) (hk_sluice : K .sluice = false) (hk_xlu : K .xlu = false) :
    Holds K P (State.quadFailHere s d k st) := by
  unfold State.quadFailHere
  try dsimp only
  with_reducible repeat' first
    | intro _ | assumption | apply State.quadFail_keeps | split | dsimp only

theorem State.creditWait_keeps (s : State) (d : Die) (k : Nat) (m : Member) (g : QSeg) (hs : Holds K P s)
    (hk_members : K .members = false) (hk_regs : K .regs = false) :
    Holds K P (State.creditWait s d k m g) := by
  unfold State.creditWait
  try dsimp only
  with_reducible repeat' first
    | intro _ | assumption | apply State.modMember_keeps | apply State.bump_keeps | apply Holds.ite | split | dsimp only

theorem State.slotWait_keeps (s : State) (d : Die) (k : Nat) (m : Member) (seg : Nat) (hs : Holds K P s)
    (hk_members : K .members = false) (hk_regs : K .regs = false) :
    Holds K P (State.slotWait s d k m seg) := by
  unfold State.slotWait
  try dsimp only
  with_reducible repeat' first
    | intro _ | assumption | apply State.modMember_keeps | apply State.bump_keeps | apply Holds.ite | split | dsimp only

theorem State.sendUp_keeps (s : State) (d : Die) (k : Nat) (m : Member) (o : QOp) (g : QSeg) (fmt : Nat) (src : PSrc)
    (hs : Holds K P s) (hk_accesses : K .accesses = false) (hk_dmem : K .dmem = false) (hk_hag : K .hag = false)
    (hk_hold : K .hold = false) (hk_mem : K .mem = false) (hk_members : K .members = false) (hk_out : K .out = false)
    (hk_reads : K .reads = false) (hk_regs : K .regs = false) (hk_sluice : K .sluice = false) (hk_xlu : K .xlu = false) :
    Holds K P (State.sendUp s d k m o g fmt src).1 := by
  unfold State.sendUp
  try dsimp only
  with_reducible repeat' first
    | intro _ | assumption | apply State.inject_keeps | apply State.modMember_keeps | refine Holds.of_fst (by assumption) ?_ | split
    | dsimp only

theorem State.sendDown_keeps (s : State) (d : Die) (k : Nat) (m : Member) (o : QOp) (g : QSeg) (res : List Byte) (i : Nat)
    (c : Nat) (hs : Holds K P s) (hk_accesses : K .accesses = false) (hk_dmem : K .dmem = false) (hk_hag : K .hag = false)
    (hk_hold : K .hold = false) (hk_mem : K .mem = false) (hk_members : K .members = false) (hk_out : K .out = false)
    (hk_reads : K .reads = false) (hk_regs : K .regs = false) (hk_sluice : K .sluice = false) (hk_xlu : K .xlu = false) :
    Holds K P (State.sendDown s d k m o g res i c) := by
  unfold State.sendDown
  try dsimp only
  with_reducible repeat' first
    | intro _ | assumption | apply State.modMember_keeps | apply State.inject_keeps | apply Holds.ite | apply Holds.ite1 | split
    | dsimp only

theorem State.segFree_keeps (s : State) (d : Die) (k : Nat) (seg : Nat) (hs : Holds K P s) (hk_members : K .members = false)
    (hk_ops : K .ops = false) (hk_regs : K .regs = false) :
    Holds K P (State.segFree s d k seg) := by
  unfold State.segFree
  try dsimp only
  with_reducible repeat' first
    | intro _ | assumption | apply State.quadCheck_keeps | apply State.modMember_keeps | apply Holds.ite | split | dsimp only

theorem State.sendResult_keeps (s : State) (d : Die) (k : Nat) (m : Member) (o : QOp) (g : QSeg) (res : List Byte)
    (hs : Holds K P s) (hk_accesses : K .accesses = false) (hk_dmem : K .dmem = false) (hk_hag : K .hag = false)
    (hk_hold : K .hold = false) (hk_mem : K .mem = false) (hk_members : K .members = false) (hk_out : K .out = false)
    (hk_reads : K .reads = false) (hk_regs : K .regs = false) (hk_sluice : K .sluice = false) (hk_xlu : K .xlu = false) :
    Holds K P (State.sendResult s d k m o g res) := by
  unfold State.sendResult
  try dsimp only
  with_reducible repeat' first
    | intro _ | assumption | apply State.when_keeps | apply State.sendDown_keeps | apply State.creditWait_keeps | apply Holds.foldl
    | split | dsimp only

theorem State.bufFault_keeps (s : State) (d : Die) (k : Nat) (m : Member) (key : Nat) (addr : Nat) (r : Nat)
    (hs : Holds K P s) (hk_accesses : K .accesses = false) (hk_dmem : K .dmem = false) (hk_hag : K .hag = false)
    (hk_hold : K .hold = false) (hk_mem : K .mem = false) (hk_members : K .members = false) (hk_ops : K .ops = false)
    (hk_out : K .out = false) (hk_reads : K .reads = false) (hk_regs : K .regs = false) (hk_sluice : K .sluice = false)
    (hk_xlu : K .xlu = false) :
    Holds K P (State.bufFault s d k m key addr r) := by
  unfold State.bufFault
  try dsimp only
  with_reducible repeat' first
    | intro _ | assumption | apply State.quadFailHere_keeps | apply State.xFault_keeps | dsimp only

theorem State.finishSeg_keeps (s : State) (d : Die) (k : Nat) (seg : Nat) (hs : Holds K P s)
    (hk_accesses : K .accesses = false) (hk_dmem : K .dmem = false) (hk_hag : K .hag = false) (hk_hold : K .hold = false)
    (hk_mem : K .mem = false) (hk_members : K .members = false) (hk_ops : K .ops = false) (hk_out : K .out = false)
    (hk_reads : K .reads = false) (hk_regs : K .regs = false) (hk_sluice : K .sluice = false) (hk_xlu : K .xlu = false) :
    Holds K P (State.finishSeg s d k seg) := by
  unfold State.finishSeg
  try dsimp only
  with_reducible repeat' first
    | intro _ | assumption | apply State.writeLocal_keeps | apply State.bufFault_keeps | apply State.sendResult_keeps
    | apply State.segFree_keeps | apply State.modMember_keeps | apply Holds.ite | apply Holds.ite1
    | refine Holds.of_fst (by assumption) ?_ | split | dsimp only

theorem State.putResult_keeps (s : State) (d : Die) (k : Nat) (seg : Nat) (res : List Byte) (poison : Bool) (hs : Holds K P s)
    (hk_accesses : K .accesses = false) (hk_dmem : K .dmem = false) (hk_hag : K .hag = false) (hk_hold : K .hold = false)
    (hk_mem : K .mem = false) (hk_members : K .members = false) (hk_ops : K .ops = false) (hk_out : K .out = false)
    (hk_reads : K .reads = false) (hk_regs : K .regs = false) (hk_sluice : K .sluice = false) (hk_xlu : K .xlu = false) :
    Holds K P (State.putResult s d k seg res poison) := by
  unfold State.putResult
  try dsimp only
  with_reducible repeat' first
    | intro _ | assumption | apply State.finishSeg_keeps | apply State.modMember_keeps | dsimp only

theorem State.segFull_keeps (s : State) (d : Die) (k : Nat) (seg : Nat) (hs : Holds K P s) (hk_accesses : K .accesses = false)
    (hk_dmem : K .dmem = false) (hk_hag : K .hag = false) (hk_hold : K .hold = false) (hk_mem : K .mem = false)
    (hk_members : K .members = false) (hk_ops : K .ops = false) (hk_out : K .out = false) (hk_reads : K .reads = false)
    (hk_regs : K .regs = false) (hk_sluice : K .sluice = false) (hk_xlu : K .xlu = false) :
    Holds K P (State.segFull s d k seg) := by
  unfold State.segFull
  try dsimp only
  with_reducible repeat' first
    | intro _ | assumption | apply State.modMember_keeps | apply State.bumpBy_keeps | apply State.bump_keeps
    | apply State.putResult_keeps | apply State.creditWait_keeps | apply State.sendUp_keeps | apply Holds.ite | apply Holds.ite1
    | refine Holds.of_fst (by assumption) ?_ | split | dsimp only

theorem State.ownIn_keeps (s : State) (d : Die) (k : Nat) (seg : Nat) (data : List Byte) (poison : Bool) (hs : Holds K P s)
    (hk_accesses : K .accesses = false) (hk_dmem : K .dmem = false) (hk_hag : K .hag = false) (hk_hold : K .hold = false)
    (hk_mem : K .mem = false) (hk_members : K .members = false) (hk_ops : K .ops = false) (hk_out : K .out = false)
    (hk_reads : K .reads = false) (hk_regs : K .regs = false) (hk_sluice : K .sluice = false) (hk_xlu : K .xlu = false) :
    Holds K P (State.ownIn s d k seg data poison) := by
  unfold State.ownIn
  try dsimp only
  with_reducible repeat' first
    | intro _ | assumption | apply State.modMember_keeps | apply State.putResult_keeps | apply State.quadFailHere_keeps
    | apply State.segFull_keeps | apply Holds.ite | split | dsimp only

theorem State.readOwn_keeps (s : State) (d : Die) (k : Nat) (seg : Nat) (hs : Holds K P s) (hk_accesses : K .accesses = false)
    (hk_dmem : K .dmem = false) (hk_hag : K .hag = false) (hk_hold : K .hold = false) (hk_mem : K .mem = false)
    (hk_members : K .members = false) (hk_ops : K .ops = false) (hk_out : K .out = false) (hk_reads : K .reads = false)
    (hk_regs : K .regs = false) (hk_sluice : K .sluice = false) (hk_xlu : K .xlu = false) :
    Holds K P (State.readOwn s d k seg) := by
  unfold State.readOwn
  try dsimp only
  with_reducible repeat' first
    | intro _ | assumption | apply State.bufFault_keeps | apply State.readSrc_keeps | apply State.ownIn_keeps
    | apply State.modMember_keeps | apply Holds.ite | simp only [Holds.upd, Bool.false_eq_true, false_implies, implies_true]
    | apply Holds.ite1 | refine Holds.of_fst (by assumption) ?_ | split | dsimp only

theorem State.leafSend_keeps (s : State) (d : Die) (k : Nat) (seg : Nat) (hs : Holds K P s)
    (hk_accesses : K .accesses = false) (hk_dmem : K .dmem = false) (hk_hag : K .hag = false) (hk_hold : K .hold = false)
    (hk_mem : K .mem = false) (hk_members : K .members = false) (hk_ops : K .ops = false) (hk_out : K .out = false)
    (hk_reads : K .reads = false) (hk_regs : K .regs = false) (hk_sluice : K .sluice = false) (hk_xlu : K .xlu = false) :
    Holds K P (State.leafSend s d k seg) := by
  unfold State.leafSend
  try dsimp only
  with_reducible repeat' first
    | intro _ | assumption | apply State.bufFault_keeps | apply State.sendUp_keeps | apply Holds.ite | apply Holds.ite1
    | refine Holds.of_fst (by assumption) ?_ | split | dsimp only

theorem State.segReady_keeps (s : State) (d : Die) (k : Nat) (seg : Nat) (hs : Holds K P s)
    (hk_accesses : K .accesses = false) (hk_dmem : K .dmem = false) (hk_hag : K .hag = false) (hk_hold : K .hold = false)
    (hk_mem : K .mem = false) (hk_members : K .members = false) (hk_ops : K .ops = false) (hk_out : K .out = false)
    (hk_reads : K .reads = false) (hk_regs : K .regs = false) (hk_sluice : K .sluice = false) (hk_xlu : K .xlu = false) :
    Holds K P (State.segReady s d k seg) := by
  unfold State.segReady
  try dsimp only
  with_reducible repeat' first
    | intro _ | assumption | apply State.finishSeg_keeps | apply State.leafSend_keeps | apply State.readOwn_keeps
    | apply State.segFull_keeps | apply Holds.ite | split | dsimp only

theorem State.takeEarly_keeps (s : State) (d : Die) (k : Nat) (o : QOp) (seg : Nat) (hs : Holds K P s)
    (hk_accesses : K .accesses = false) (hk_dmem : K .dmem = false) (hk_hag : K .hag = false) (hk_hold : K .hold = false)
    (hk_mem : K .mem = false) (hk_members : K .members = false) (hk_ops : K .ops = false) (hk_out : K .out = false)
    (hk_reads : K .reads = false) (hk_regs : K .regs = false) (hk_sluice : K .sluice = false) (hk_xlu : K .xlu = false) :
    Holds K P (State.takeEarly s d k o seg) := by
  unfold State.takeEarly
  try dsimp only
  with_reducible repeat' first
    | intro _ | assumption | apply State.modMember_keeps | apply State.quadFailHere_keeps | apply Holds.ite | split | dsimp only

theorem State.grantDown_keeps (s : State) (d : Die) (k : Nat) (m : Member) (o : QOp) (seg : Nat) (hs : Holds K P s)
    (hk_accesses : K .accesses = false) (hk_dmem : K .dmem = false) (hk_hag : K .hag = false) (hk_hold : K .hold = false)
    (hk_mem : K .mem = false) (hk_members : K .members = false) (hk_out : K .out = false) (hk_reads : K .reads = false)
    (hk_regs : K .regs = false) (hk_sluice : K .sluice = false) (hk_xlu : K .xlu = false) :
    Holds K P (State.grantDown s d k m o seg) := by
  unfold State.grantDown
  try dsimp only
  with_reducible repeat' first
    | intro _ | assumption | apply State.toChildren_keeps | apply State.modMember_keeps | apply Holds.ite | split | dsimp only

theorem State.grantUp_keeps (s : State) (d : Die) (k : Nat) (m : Member) (o : QOp) (seg : Nat) (hs : Holds K P s)
    (hk_accesses : K .accesses = false) (hk_dmem : K .dmem = false) (hk_hag : K .hag = false) (hk_hold : K .hold = false)
    (hk_mem : K .mem = false) (hk_members : K .members = false) (hk_out : K .out = false) (hk_reads : K .reads = false)
    (hk_regs : K .regs = false) (hk_sluice : K .sluice = false) (hk_xlu : K .xlu = false) :
    Holds K P (State.grantUp s d k m o seg) := by
  unfold State.grantUp
  try dsimp only
  with_reducible repeat' first
    | intro _ | assumption | apply State.toParent_keeps | apply State.modMember_keeps | apply Holds.ite | split | dsimp only

theorem State.beginSeg_keeps (s : State) (d : Die) (k : Nat) (m : Member) (o : QOp) (hs : Holds K P s)
    (hk_accesses : K .accesses = false) (hk_dmem : K .dmem = false) (hk_hag : K .hag = false) (hk_hold : K .hold = false)
    (hk_mem : K .mem = false) (hk_members : K .members = false) (hk_ops : K .ops = false) (hk_out : K .out = false)
    (hk_reads : K .reads = false) (hk_regs : K .regs = false) (hk_sluice : K .sluice = false) (hk_xlu : K .xlu = false) :
    Holds K P (State.beginSeg s d k m o).1 := by
  unfold State.beginSeg
  try dsimp only
  with_reducible repeat' first
    | intro _ | assumption | apply State.slotWait_keeps | apply State.modMember_keeps | apply State.grantUp_keeps
    | apply State.takeEarly_keeps | apply State.grantDown_keeps | apply State.segReady_keeps | apply Holds.ite | apply Holds.ite1
    | refine Holds.of_fst (by assumption) ?_ | split | dsimp only

theorem State.quadAdvance_keeps (a : Nat) (a' : Die) (a'' : Nat) (a''' : State) (ha''' : Holds K P a''')
    (hk_accesses : K .accesses = false) (hk_dmem : K .dmem = false) (hk_hag : K .hag = false) (hk_hold : K .hold = false)
    (hk_mem : K .mem = false) (hk_members : K .members = false) (hk_ops : K .ops = false) (hk_out : K .out = false)
    (hk_reads : K .reads = false) (hk_regs : K .regs = false) (hk_sluice : K .sluice = false) (hk_xlu : K .xlu = false) :
    Holds K P (State.quadAdvance a a' a'' a''') := by
  induction a generalizing a' a'' a''' ha''' with
  | zero =>
    unfold State.quadAdvance
    try dsimp only
    with_reducible repeat' first
      | intro _ | assumption | apply ih | apply State.beginSeg_keeps | apply Holds.ite | apply Holds.ite1
      | refine Holds.of_fst (by assumption) ?_ | split | dsimp only
  | succ n ih =>
    unfold State.quadAdvance
    try dsimp only
    with_reducible repeat' first
      | intro _ | assumption | apply ih | apply State.beginSeg_keeps | apply Holds.ite | apply Holds.ite1
      | refine Holds.of_fst (by assumption) ?_ | split | dsimp only

theorem State.quadGo_keeps (s : State) (d : Die) (k : Nat) (hs : Holds K P s) (hk_accesses : K .accesses = false)
    (hk_dmem : K .dmem = false) (hk_hag : K .hag = false) (hk_hold : K .hold = false) (hk_mem : K .mem = false)
    (hk_members : K .members = false) (hk_ops : K .ops = false) (hk_out : K .out = false) (hk_reads : K .reads = false)
    (hk_regs : K .regs = false) (hk_sluice : K .sluice = false) (hk_xlu : K .xlu = false) :
    Holds K P (State.quadGo s d k) := by
  unfold State.quadGo
  try dsimp only
  with_reducible repeat' first
    | intro _ | assumption | apply State.segReady_keeps | apply State.quadAdvance_keeps | apply Holds.foldl | split | dsimp only

theorem State.joinRefuse_keeps (s : State) (d : Die) (i : Nat) (st : Nat) (reason : Nat) (hs : Holds K P s)
    (hk_ops : K .ops = false) (hk_regs : K .regs = false) :
    Holds K P (State.joinRefuse s d i st reason) := by
  unfold State.joinRefuse
  try dsimp only
  with_reducible repeat' first
    | intro _ | assumption | apply State.endOp_keeps | apply State.modOp_keeps | apply State.bump_keeps | dsimp only

theorem State.quadReady_keeps (s : State) (d : Die) (k : Nat) (hs : Holds K P s) (hk_accesses : K .accesses = false)
    (hk_dmem : K .dmem = false) (hk_hag : K .hag = false) (hk_hold : K .hold = false) (hk_mem : K .mem = false)
    (hk_members : K .members = false) (hk_ops : K .ops = false) (hk_out : K .out = false) (hk_reads : K .reads = false)
    (hk_regs : K .regs = false) (hk_sluice : K .sluice = false) (hk_xlu : K .xlu = false) :
    Holds K P (State.quadReady s d k) := by
  unfold State.quadReady
  try dsimp only
  with_reducible repeat' first
    | intro _ | assumption | apply State.toChildren_keeps | apply State.endOp_keeps | apply State.modMember_keeps | apply Holds.ite
    | split | dsimp only

theorem State.joinCheck_keeps (s : State) (d : Die) (k : Nat) (hs : Holds K P s) (hk_accesses : K .accesses = false)
    (hk_dmem : K .dmem = false) (hk_hag : K .hag = false) (hk_hold : K .hold = false) (hk_mem : K .mem = false)
    (hk_members : K .members = false) (hk_ops : K .ops = false) (hk_out : K .out = false) (hk_reads : K .reads = false)
    (hk_regs : K .regs = false) (hk_sluice : K .sluice = false) (hk_xlu : K .xlu = false) :
    Holds K P (State.joinCheck s d k) := by
  unfold State.joinCheck
  try dsimp only
  with_reducible repeat' first
    | intro _ | assumption | apply State.quadReady_keeps | apply State.modMember_keeps | apply State.toParent_keeps
    | apply Holds.ite | split | dsimp only

theorem State.takeJoins_keeps (s : State) (d : Die) (k : Nat) (m : Member) (hs : Holds K P s)
    (hk_members : K .members = false) :
    Holds K P (State.takeJoins s d k m) := by
  unfold State.takeJoins
  try dsimp only
  with_reducible repeat' first
   
    | (intro g x hg; cases g <;> first | exact absurd (hk_members.symm.trans hg) (by decide) | (with_unfolding_all exact dieSame_refl _ _) | (simp only [dieSame, and_self]))
    | intro _ | assumption | apply State.modDie_keeps | apply State.modMember_keeps | apply Holds.ite | apply Holds.foldl | split
    | dsimp only

theorem execQJoin_keeps (i : Nat) (s : State) (hs : Holds K P s) (hk_accesses : K .accesses = false)
    (hk_dmem : K .dmem = false) (hk_hag : K .hag = false) (hk_hold : K .hold = false) (hk_mem : K .mem = false)
    (hk_members : K .members = false) (hk_ops : K .ops = false) (hk_out : K .out = false) (hk_reads : K .reads = false)
    (hk_regs : K .regs = false) (hk_sluice : K .sluice = false) (hk_xlu : K .xlu = false) :
    HoldsO K P (execQJoin i s) := by
  unfold execQJoin
  try dsimp only
  with_reducible repeat' first
   
    | (intro g x hg; cases g <;> first | exact absurd (hk_members.symm.trans hg) (by decide) | (with_unfolding_all exact dieSame_refl _ _) | (simp only [dieSame, and_self]))
    | intro _ | assumption | apply State.joinRefuse_keeps | apply State.endOp_keeps | apply State.modDie_keeps
    | apply State.modOp_keeps | apply State.joinCheck_keeps | apply State.takeJoins_keeps | apply Holds.ite | apply HoldsO.next
    | split | dsimp only

theorem State.quadOp_keeps (s : State) (i : Nat) (code : Nat) (kind : Nat) (hs : Holds K P s)
    (hk_accesses : K .accesses = false) (hk_dmem : K .dmem = false) (hk_hag : K .hag = false) (hk_hold : K .hold = false)
    (hk_mem : K .mem = false) (hk_members : K .members = false) (hk_ops : K .ops = false) (hk_out : K .out = false)
    (hk_reads : K .reads = false) (hk_regs : K .regs = false) (hk_sluice : K .sluice = false) (hk_xlu : K .xlu = false) :
    Holds K P (State.quadOp s i code kind) := by
  unfold State.quadOp
  try dsimp only
  with_reducible repeat' first
    | intro _ | assumption | apply State.endOp_keeps | apply State.quadFailHere_keeps | apply State.opFault_keeps
    | apply State.modOp_keeps | apply State.modMember_keeps | apply State.quadGo_keeps | apply Holds.ite | split | dsimp only

theorem execQAllreduce_keeps (i : Nat) (s : State) (hs : Holds K P s) (hk_accesses : K .accesses = false)
    (hk_dmem : K .dmem = false) (hk_hag : K .hag = false) (hk_hold : K .hold = false) (hk_mem : K .mem = false)
    (hk_members : K .members = false) (hk_ops : K .ops = false) (hk_out : K .out = false) (hk_reads : K .reads = false)
    (hk_regs : K .regs = false) (hk_sluice : K .sluice = false) (hk_xlu : K .xlu = false) :
    HoldsO K P (execQAllreduce i s) := by
  unfold execQAllreduce
  try dsimp only
  with_reducible repeat' first
    | intro _ | assumption | apply State.quadOp_keeps | apply HoldsO.next | dsimp only

theorem execQReduce_keeps (i : Nat) (s : State) (hs : Holds K P s) (hk_accesses : K .accesses = false)
    (hk_dmem : K .dmem = false) (hk_hag : K .hag = false) (hk_hold : K .hold = false) (hk_mem : K .mem = false)
    (hk_members : K .members = false) (hk_ops : K .ops = false) (hk_out : K .out = false) (hk_reads : K .reads = false)
    (hk_regs : K .regs = false) (hk_sluice : K .sluice = false) (hk_xlu : K .xlu = false) :
    HoldsO K P (execQReduce i s) := by
  unfold execQReduce
  try dsimp only
  with_reducible repeat' first
    | intro _ | assumption | apply State.quadOp_keeps | apply HoldsO.next | dsimp only

theorem execQBcast_keeps (i : Nat) (s : State) (hs : Holds K P s) (hk_accesses : K .accesses = false)
    (hk_dmem : K .dmem = false) (hk_hag : K .hag = false) (hk_hold : K .hold = false) (hk_mem : K .mem = false)
    (hk_members : K .members = false) (hk_ops : K .ops = false) (hk_out : K .out = false) (hk_reads : K .reads = false)
    (hk_regs : K .regs = false) (hk_sluice : K .sluice = false) (hk_xlu : K .xlu = false) :
    HoldsO K P (execQBcast i s) := by
  unfold execQBcast
  try dsimp only
  with_reducible repeat' first
    | intro _ | assumption | apply State.quadOp_keeps | apply HoldsO.next | dsimp only

theorem execQBarrier_keeps (i : Nat) (s : State) (hs : Holds K P s) (hk_accesses : K .accesses = false)
    (hk_dmem : K .dmem = false) (hk_hag : K .hag = false) (hk_hold : K .hold = false) (hk_mem : K .mem = false)
    (hk_members : K .members = false) (hk_ops : K .ops = false) (hk_out : K .out = false) (hk_reads : K .reads = false)
    (hk_regs : K .regs = false) (hk_sluice : K .sluice = false) (hk_xlu : K .xlu = false) :
    HoldsO K P (execQBarrier i s) := by
  unfold execQBarrier
  try dsimp only
  with_reducible repeat' first
    | intro _ | assumption | apply State.quadOp_keeps | apply HoldsO.next | dsimp only

theorem execSegmentSend_keeps (d : Die) (k : Nat) (s : State) (hs : Holds K P s) (hk_accesses : K .accesses = false)
    (hk_dmem : K .dmem = false) (hk_hag : K .hag = false) (hk_hold : K .hold = false) (hk_mem : K .mem = false)
    (hk_members : K .members = false) (hk_ops : K .ops = false) (hk_out : K .out = false) (hk_reads : K .reads = false)
    (hk_regs : K .regs = false) (hk_sluice : K .sluice = false) (hk_xlu : K .xlu = false) :
    HoldsO K P (execSegmentSend d k s) := by
  unfold execSegmentSend
  try dsimp only
  with_reducible repeat' first
    | intro _ | assumption | apply State.quadGo_keeps | apply HoldsO.next | dsimp only

theorem State.releaseCheck_keeps (s : State) (d : Die) (k : Nat) (hs : Holds K P s) (hk_accesses : K .accesses = false)
    (hk_dmem : K .dmem = false) (hk_hag : K .hag = false) (hk_hold : K .hold = false) (hk_mem : K .mem = false)
    (hk_members : K .members = false) (hk_ops : K .ops = false) (hk_out : K .out = false) (hk_reads : K .reads = false)
    (hk_regs : K .regs = false) (hk_sluice : K .sluice = false) (hk_xlu : K .xlu = false) :
    Holds K P (State.releaseCheck s d k) := by
  unfold State.releaseCheck
  try dsimp only
  with_reducible repeat' first
    | intro _ | assumption | apply State.quadFailHere_keeps | apply State.endOp_keeps | apply State.dropMember_keeps
    | apply State.toChildren_keeps | apply State.modMember_keeps | apply State.toParent_keeps | apply Holds.ite | split | dsimp only

theorem execQRelease_keeps (i : Nat) (s : State) (hs : Holds K P s) (hk_accesses : K .accesses = false)
    (hk_dmem : K .dmem = false) (hk_hag : K .hag = false) (hk_hold : K .hold = false) (hk_mem : K .mem = false)
    (hk_members : K .members = false) (hk_ops : K .ops = false) (hk_out : K .out = false) (hk_reads : K .reads = false)
    (hk_regs : K .regs = false) (hk_sluice : K .sluice = false) (hk_xlu : K .xlu = false) :
    HoldsO K P (execQRelease i s) := by
  unfold execQRelease
  try dsimp only
  with_reducible repeat' first
    | intro _ | assumption | apply State.endOp_keeps | apply State.dropMember_keeps | apply State.releaseCheck_keeps
    | apply State.modMember_keeps | apply State.modOp_keeps | apply Holds.ite | apply HoldsO.next | split | dsimp only

theorem execQAbort_keeps (i : Nat) (s : State) (hs : Holds K P s) (hk_accesses : K .accesses = false)
    (hk_dmem : K .dmem = false) (hk_hag : K .hag = false) (hk_hold : K .hold = false) (hk_mem : K .mem = false)
    (hk_members : K .members = false) (hk_ops : K .ops = false) (hk_out : K .out = false) (hk_reads : K .reads = false)
    (hk_regs : K .regs = false) (hk_sluice : K .sluice = false) (hk_xlu : K .xlu = false) :
    HoldsO K P (execQAbort i s) := by
  unfold execQAbort
  try dsimp only
  with_reducible repeat' first
    | intro _ | assumption | apply State.endOp_keeps | apply State.quadFailHere_keeps | apply State.modOp_keeps
    | apply State.modMember_keeps | apply Holds.ite | apply HoldsO.next | split | dsimp only

theorem State.abortOver_keeps (s : State) (d : Die) (t : PTag) (m : Member) (hs : Holds K P s)
    (hk_members : K .members = false) (hk_ops : K .ops = false) :
    Holds K P (State.abortOver s d t m) := by
  unfold State.abortOver
  try dsimp only
  with_reducible repeat' first
    | intro _ | assumption | apply State.endOp_keeps | apply State.modMember_keeps | apply Holds.ite | split | dsimp only

theorem State.quadAcked_keeps (s : State) (d : Die) (t : PTag) (hs : Holds K P s) (hk_accesses : K .accesses = false)
    (hk_dmem : K .dmem = false) (hk_hag : K .hag = false) (hk_hold : K .hold = false) (hk_mem : K .mem = false)
    (hk_members : K .members = false) (hk_ops : K .ops = false) (hk_out : K .out = false) (hk_reads : K .reads = false)
    (hk_regs : K .regs = false) (hk_sluice : K .sluice = false) (hk_xlu : K .xlu = false) :
    Holds K P (State.quadAcked s d t) := by
  unfold State.quadAcked
  try dsimp only
  with_reducible repeat' first
    | intro _ | assumption | apply State.abortOver_keeps | apply State.modMember_keeps | apply State.segFree_keeps
    | apply State.releaseCheck_keeps | apply State.quadGo_keeps | apply State.quadCheck_keeps | apply Holds.ite | split | dsimp only

theorem State.quadRejected_keeps (s : State) (d : Die) (t : PTag) (st : Nat) (hs : Holds K P s)
    (hk_accesses : K .accesses = false) (hk_dmem : K .dmem = false) (hk_hag : K .hag = false) (hk_hold : K .hold = false)
    (hk_mem : K .mem = false) (hk_members : K .members = false) (hk_ops : K .ops = false) (hk_out : K .out = false)
    (hk_reads : K .reads = false) (hk_regs : K .regs = false) (hk_sluice : K .sluice = false) (hk_xlu : K .xlu = false) :
    Holds K P (State.quadRejected s d t st) := by
  unfold State.quadRejected
  try dsimp only
  with_reducible repeat' first
    | intro _ | assumption | apply State.abortOver_keeps | apply State.endOp_keeps | apply State.modOp_keeps
    | apply State.dropMember_keeps | apply State.quadFailHere_keeps | apply Holds.ite | split | dsimp only

theorem State.tagError_keeps (s : State) (d : Die) (t : PTag) (st : Nat) (hs : Holds K P s)
    (hk_accesses : K .accesses = false) (hk_dmem : K .dmem = false) (hk_hag : K .hag = false) (hk_hold : K .hold = false)
    (hk_mem : K .mem = false) (hk_members : K .members = false) (hk_ops : K .ops = false) (hk_out : K .out = false)
    (hk_reads : K .reads = false) (hk_regs : K .regs = false) (hk_sluice : K .sluice = false) (hk_xlu : K .xlu = false) :
    Holds K P (State.tagError s d t st) := by
  unfold State.tagError
  try dsimp only
  with_reducible repeat' first
    | intro _ | assumption | apply State.quadRejected_keeps | apply State.opError_keeps | apply Holds.ite | split | dsimp only

theorem State.tagAcked_keeps (s : State) (d : Die) (t : PTag) (hs : Holds K P s) (hk_accesses : K .accesses = false)
    (hk_dmem : K .dmem = false) (hk_hag : K .hag = false) (hk_hold : K .hold = false) (hk_mem : K .mem = false)
    (hk_members : K .members = false) (hk_ops : K .ops = false) (hk_out : K .out = false) (hk_reads : K .reads = false)
    (hk_regs : K .regs = false) (hk_sluice : K .sluice = false) (hk_xlu : K .xlu = false) :
    Holds K P (State.tagAcked s d t) := by
  unfold State.tagAcked
  try dsimp only
  with_reducible repeat' first
    | intro _ | assumption | apply State.quadAcked_keeps | apply State.opAcked_keeps | apply Holds.ite | split | dsimp only

theorem State.onMember_keeps (s : State) (d : Die) (h_ : Handed) (act : Nat → Member → State → State) (hs : Holds K P s)
    (hact : ∀ x0 x1 x2, Holds K P x2 → Holds K P (act x0 x1 x2)) (hk_regs : K .regs = false) (hk_rings : K .rings = false)
    (hk_rma : K .rma = false) (hk_sluice : K .sluice = false) (hk_tru : K .tru = false) :
    Holds K P (State.onMember s d h_ act) := by
  unfold State.onMember
  try dsimp only
  with_reducible repeat' first
    | intro _ | assumption | apply State.rejectPkt_keeps | apply State.absentPort_keeps | apply hact | apply Holds.ite | split
    | dsimp only

theorem execQctlJoin_keeps (d : Die) (id : Nat) (s : State) (hs : Holds K P s) (hk_accesses : K .accesses = false)
    (hk_dmem : K .dmem = false) (hk_hag : K .hag = false) (hk_hold : K .hold = false) (hk_mem : K .mem = false)
    (hk_members : K .members = false) (hk_ops : K .ops = false) (hk_out : K .out = false) (hk_reads : K .reads = false)
    (hk_regs : K .regs = false) (hk_rings : K .rings = false) (hk_rma : K .rma = false) (hk_sluice : K .sluice = false)
    (hk_tru : K .tru = false) (hk_xlu : K .xlu = false) :
    HoldsO K P (execQctlJoin d id s) := by
  unfold execQctlJoin
  try dsimp only
  with_reducible repeat' first
   
    | (intro g x hg; cases g <;> first | exact absurd (hk_members.symm.trans hg) (by decide) | (with_unfolding_all exact dieSame_refl _ _) | (simp only [dieSame, and_self]))
    | intro _ | assumption | apply State.rejectPkt_keeps | apply State.perform_keeps | apply State.modDie_keeps
    | apply State.absentPort_keeps | apply State.joinCheck_keeps | apply State.modMember_keeps | apply Holds.ite | apply HoldsO.next
    | split | dsimp only

theorem execQctlReady_keeps (d : Die) (id : Nat) (s : State) (hs : Holds K P s) (hk_accesses : K .accesses = false)
    (hk_dmem : K .dmem = false) (hk_hag : K .hag = false) (hk_hold : K .hold = false) (hk_mem : K .mem = false)
    (hk_members : K .members = false) (hk_ops : K .ops = false) (hk_out : K .out = false) (hk_reads : K .reads = false)
    (hk_regs : K .regs = false) (hk_rings : K .rings = false) (hk_rma : K .rma = false) (hk_sluice : K .sluice = false)
    (hk_tru : K .tru = false) (hk_xlu : K .xlu = false) :
    HoldsO K P (execQctlReady d id s) := by
  unfold execQctlReady
  try dsimp only
  with_reducible repeat' first
    | intro _ | assumption | apply State.onMember_keeps | apply State.perform_keeps | apply State.quadReady_keeps | apply Holds.ite
    | apply HoldsO.next | split | dsimp only

theorem execQctlCredit_keeps (d : Die) (id : Nat) (s : State) (hs : Holds K P s) (hk_accesses : K .accesses = false)
    (hk_dmem : K .dmem = false) (hk_hag : K .hag = false) (hk_hold : K .hold = false) (hk_mem : K .mem = false)
    (hk_members : K .members = false) (hk_ops : K .ops = false) (hk_out : K .out = false) (hk_reads : K .reads = false)
    (hk_regs : K .regs = false) (hk_rings : K .rings = false) (hk_rma : K .rma = false) (hk_sluice : K .sluice = false)
    (hk_tru : K .tru = false) (hk_xlu : K .xlu = false) :
    HoldsO K P (execQctlCredit d id s) := by
  unfold execQctlCredit
  try dsimp only
  with_reducible repeat' first
    | intro _ | assumption | apply State.onMember_keeps | apply State.modMember_keeps | apply State.perform_keeps
    | apply State.quadGo_keeps | apply Holds.ite | apply HoldsO.next | split | dsimp only

theorem execQctlResend_keeps (d : Die) (id : Nat) (s : State) (hs : Holds K P s) (hk_accesses : K .accesses = false)
    (hk_dmem : K .dmem = false) (hk_hag : K .hag = false) (hk_hold : K .hold = false) (hk_mem : K .mem = false)
    (hk_members : K .members = false) (hk_ops : K .ops = false) (hk_out : K .out = false) (hk_reads : K .reads = false)
    (hk_regs : K .regs = false) (hk_rings : K .rings = false) (hk_rma : K .rma = false) (hk_sluice : K .sluice = false)
    (hk_tru : K .tru = false) (hk_xlu : K .xlu = false) :
    HoldsO K P (execQctlResend d id s) := by
  unfold execQctlResend
  try dsimp only
  with_reducible repeat' first
    | intro _ | assumption | apply State.onMember_keeps | apply State.perform_keeps | apply State.segReady_keeps
    | apply State.modMember_keeps | apply Holds.ite | apply HoldsO.next | split | dsimp only

theorem State.slotLost_keeps (s : State) (d : Die) (k : Nat) (seg : Nat) (hs : Holds K P s)
    (hk_accesses : K .accesses = false) (hk_dmem : K .dmem = false) (hk_hag : K .hag = false) (hk_hold : K .hold = false)
    (hk_mem : K .mem = false) (hk_members : K .members = false) (hk_ops : K .ops = false) (hk_out : K .out = false)
    (hk_reads : K .reads = false) (hk_regs : K .regs = false) (hk_sluice : K .sluice = false) (hk_xlu : K .xlu = false) :
    Holds K P (State.slotLost s d k seg) := by
  unfold State.slotLost
  try dsimp only
  with_reducible repeat' first
    | intro _ | assumption | apply State.modMember_keeps | apply State.readOwn_keeps | apply State.bumpBy_keeps
    | apply State.toChildren_keeps | apply Holds.ite | split | dsimp only

theorem execQctlRelease_keeps (d : Die) (id : Nat) (s : State) (hs : Holds K P s) (hk_accesses : K .accesses = false)
    (hk_dmem : K .dmem = false) (hk_hag : K .hag = false) (hk_hold : K .hold = false) (hk_mem : K .mem = false)
    (hk_members : K .members = false) (hk_ops : K .ops = false) (hk_out : K .out = false) (hk_reads : K .reads = false)
    (hk_regs : K .regs = false) (hk_rings : K .rings = false) (hk_rma : K .rma = false) (hk_sluice : K .sluice = false)
    (hk_tru : K .tru = false) (hk_xlu : K .xlu = false) :
    HoldsO K P (execQctlRelease d id s) := by
  unfold execQctlRelease
  try dsimp only
  with_reducible repeat' first
    | intro _ | assumption | apply State.onMember_keeps | apply State.modMember_keeps | apply State.perform_keeps
    | apply State.quadFailHere_keeps | apply State.releaseCheck_keeps | apply Holds.ite | apply HoldsO.next | split | dsimp only

theorem execQctlFree_keeps (d : Die) (id : Nat) (s : State) (hs : Holds K P s) (hk_accesses : K .accesses = false)
    (hk_dmem : K .dmem = false) (hk_hag : K .hag = false) (hk_hold : K .hold = false) (hk_mem : K .mem = false)
    (hk_members : K .members = false) (hk_ops : K .ops = false) (hk_out : K .out = false) (hk_reads : K .reads = false)
    (hk_regs : K .regs = false) (hk_rings : K .rings = false) (hk_rma : K .rma = false) (hk_sluice : K .sluice = false)
    (hk_tru : K .tru = false) (hk_xlu : K .xlu = false) :
    HoldsO K P (execQctlFree d id s) := by
  unfold execQctlFree
  try dsimp only
  with_reducible repeat' first
    | intro _ | assumption | apply State.onMember_keeps | apply State.dropMember_keeps | apply State.toChildren_keeps
    | apply State.perform_keeps | apply State.endOp_keeps | apply Holds.ite | apply HoldsO.next | split | dsimp only

theorem execQctlAbort_keeps (d : Die) (id : Nat) (s : State) (hs : Holds K P s) (hk_accesses : K .accesses = false)
    (hk_dmem : K .dmem = false) (hk_hag : K .hag = false) (hk_hold : K .hold = false) (hk_mem : K .mem = false)
    (hk_members : K .members = false) (hk_ops : K .ops = false) (hk_out : K .out = false) (hk_reads : K .reads = false)
    (hk_regs : K .regs = false) (hk_rings : K .rings = false) (hk_rma : K .rma = false) (hk_sluice : K .sluice = false)
    (hk_tru : K .tru = false) (hk_xlu : K .xlu = false) :
    HoldsO K P (execQctlAbort d id s) := by
  unfold execQctlAbort
  try dsimp only
  with_reducible repeat' first
    | intro _ | assumption | apply State.onMember_keeps | apply State.perform_keeps | apply State.quadFail_keeps | apply HoldsO.next
    | split | dsimp only

theorem execQdata_keeps (d : Die) (id : Nat) (s : State) (hs : Holds K P s) (hk_accesses : K .accesses = false)
    (hk_dmem : K .dmem = false) (hk_hag : K .hag = false) (hk_hold : K .hold = false) (hk_mem : K .mem = false)
    (hk_members : K .members = false) (hk_ops : K .ops = false) (hk_out : K .out = false) (hk_reads : K .reads = false)
    (hk_regs : K .regs = false) (hk_rings : K .rings = false) (hk_rma : K .rma = false) (hk_sluice : K .sluice = false)
    (hk_tru : K .tru = false) (hk_xlu : K .xlu = false) :
    HoldsO K P (execQdata d id s) := by
  unfold execQdata
  try dsimp only
  with_reducible repeat' first
    | intro _ | assumption | apply State.onMember_keeps | apply State.perform_keeps | apply State.quadFailHere_keeps
    | apply State.modMember_keeps | apply State.quadGo_keeps | apply State.segReady_keeps | apply Holds.ite | apply HoldsO.next
    | split | dsimp only

theorem execQresult_keeps (d : Die) (id : Nat) (s : State) (hs : Holds K P s) (hk_accesses : K .accesses = false)
    (hk_dmem : K .dmem = false) (hk_hag : K .hag = false) (hk_hold : K .hold = false) (hk_mem : K .mem = false)
    (hk_members : K .members = false) (hk_ops : K .ops = false) (hk_out : K .out = false) (hk_reads : K .reads = false)
    (hk_regs : K .regs = false) (hk_rings : K .rings = false) (hk_rma : K .rma = false) (hk_sluice : K .sluice = false)
    (hk_tru : K .tru = false) (hk_xlu : K .xlu = false) :
    HoldsO K P (execQresult d id s) := by
  unfold execQresult
  try dsimp only
  with_reducible repeat' first
    | intro _ | assumption | apply State.onMember_keeps | apply State.perform_keeps | apply State.quadFailHere_keeps
    | apply State.modMember_keeps | apply State.quadGo_keeps | apply State.putResult_keeps | apply Holds.ite | apply HoldsO.next
    | split | dsimp only

theorem execJoinTimeout_keeps (d : Die) (k : Nat) (s : State) (hs : Holds K P s) (hk_members : K .members = false)
    (hk_ops : K .ops = false) :
    HoldsO K P (execJoinTimeout d k s) := by
  unfold execJoinTimeout
  try dsimp only
  with_reducible repeat' first
    | intro _ | assumption | apply State.dropMember_keeps | apply State.endOp_keeps | apply State.modOp_keeps | apply Holds.ite
    | apply HoldsO.next | split | dsimp only

theorem execPendingJoinTimeout_keeps (d : Die) (s : State) (hs : Holds K P s) (hk_members : K .members = false) :
    HoldsO K P (execPendingJoinTimeout d s) := by
  unfold execPendingJoinTimeout
  try dsimp only
  with_reducible repeat' first
   
    | (intro g x hg; cases g <;> first | exact absurd (hk_members.symm.trans hg) (by decide) | (with_unfolding_all exact dieSame_refl _ _) | (simp only [dieSame, and_self]))
    | intro _ | assumption | apply State.modDie_keeps | apply Holds.ite | apply HoldsO.next | split | dsimp only

theorem State.quadLapse_keeps (s : State) (i : Nat) (o : WOp) (hs : Holds K P s) (hk_accesses : K .accesses = false)
    (hk_dmem : K .dmem = false) (hk_hag : K .hag = false) (hk_hold : K .hold = false) (hk_mem : K .mem = false)
    (hk_members : K .members = false) (hk_ops : K .ops = false) (hk_out : K .out = false) (hk_reads : K .reads = false)
    (hk_regs : K .regs = false) (hk_sluice : K .sluice = false) (hk_xlu : K .xlu = false) :
    Holds K P (State.quadLapse s i o) := by
  unfold State.quadLapse
  try dsimp only
  with_reducible repeat' first
    | intro _ | assumption | apply State.quadFailHere_keeps | apply Holds.ite | split | dsimp only

theorem execCompletion_keeps (i : Nat) (s : State) (hs : Holds K P s) (hk_accesses : K .accesses = false)
    (hk_counters : K .counters = false) (hk_dmem : K .dmem = false) (hk_free : K .free = false) (hk_hag : K .hag = false)
    (hk_hold : K .hold = false) (hk_mem : K .mem = false) (hk_members : K .members = false) (hk_ops : K .ops = false)
    (hk_out : K .out = false) (hk_queues : K .queues = false) (hk_reads : K .reads = false) (hk_regs : K .regs = false)
    (hk_rings : K .rings = false) (hk_sluice : K .sluice = false) (hk_tmu : K .tmu = false)
    (hk_triggers : K .triggers = false) (hk_xlu : K .xlu = false) :
    HoldsO K P (execCompletion i s) := by
  unfold execCompletion
  try dsimp only
  with_reducible repeat' first
    | intro _ | assumption | apply State.complete_keeps | apply State.quadLapse_keeps | apply Holds.ite | apply HoldsO.next | split
    | dsimp only

theorem State.fillOwn_keeps (s : State) (r : HostRead) (got : List Byte) (poisoned : Bool) (hs : Holds K P s)
    (hk_accesses : K .accesses = false) (hk_dmem : K .dmem = false) (hk_hag : K .hag = false) (hk_hold : K .hold = false)
    (hk_mem : K .mem = false) (hk_members : K .members = false) (hk_ops : K .ops = false) (hk_out : K .out = false)
    (hk_reads : K .reads = false) (hk_regs : K .regs = false) (hk_sluice : K .sluice = false) (hk_xlu : K .xlu = false) :
    Holds K P (State.fillOwn s r got poisoned) := by
  unfold State.fillOwn
  try dsimp only
  with_reducible repeat' first
    | intro _ | assumption | apply State.ownIn_keeps | apply State.modMember_keeps | apply Holds.ite | split | dsimp only

theorem execHostReadCompletion_keeps (tag : Nat) (data : List Byte) (poisoned : Bool) (s : State) (hs : Holds K P s)
    (hk_accesses : K .accesses = false) (hk_dmem : K .dmem = false) (hk_hag : K .hag = false) (hk_hold : K .hold = false)
    (hk_mem : K .mem = false) (hk_members : K .members = false) (hk_ops : K .ops = false) (hk_out : K .out = false)
    (hk_reads : K .reads = false) (hk_regs : K .regs = false) (hk_rings : K .rings = false) (hk_rma : K .rma = false)
    (hk_sluice : K .sluice = false) (hk_tru : K .tru = false) (hk_xlu : K .xlu = false) :
    HoldsO K P (execHostReadCompletion tag data poisoned s) := by
  unfold execHostReadCompletion
  try dsimp only
  with_reducible repeat' first
    | intro _ | assumption | apply State.when_keeps | apply State.hostAtomicDone_keeps | apply State.fenceReturned_keeps
    | apply State.fillRead_keeps | apply State.fillOwn_keeps | apply State.atsInvDone_keeps
    | simp only [Holds.upd, hk_reads, Bool.false_eq_true, false_implies, implies_true] | apply HoldsO.next | split | dsimp only

theorem State.quadResetFn_keeps (s : State) (f : Fn) (hs : Holds K P s) (hk_accesses : K .accesses = false)
    (hk_dmem : K .dmem = false) (hk_hag : K .hag = false) (hk_hold : K .hold = false) (hk_mem : K .mem = false)
    (hk_members : K .members = false) (hk_ops : K .ops = false) (hk_out : K .out = false) (hk_reads : K .reads = false)
    (hk_regs : K .regs = false) (hk_sluice : K .sluice = false) (hk_xlu : K .xlu = false) :
    Holds K P (State.quadResetFn s f) := by
  unfold State.quadResetFn
  try dsimp only
  with_reducible repeat' first
    | intro _ | assumption | apply State.dropMember_keeps | apply State.quadFailHere_keeps | apply Holds.foldl | dsimp only

end Sys2Proof.Machine
end

