-- ==== Sys2Proof/Laws/KeepTransport.lean ====
section
/-! SUPPORT. The operations of Transport.lean keep what the operations on registers and memory keep. -/

namespace Sys2Proof.Machine

set_option linter.all false
set_option linter.unusedTactic false
set_option linter.unreachableTactic false

variable {K : Grp → Bool} {P : State → Prop}

theorem State.makeRoom_keeps (s : State) (d : Die) (hs : Holds K P s) (hk_tru : K .tru = false) :
    Holds K P (State.makeRoom s d).1 := by
  unfold State.makeRoom
  try dsimp only
  with_reducible repeat' first
    | intro _ | assumption | apply State.modCtx_keeps | apply State.modTru_keeps | apply Holds.ite | apply Holds.ite1
    | refine Holds.of_fst (by assumption) ?_ | split | dsimp only

theorem State.touchCtx_keeps (s : State) (d : Die) (i : Nat) (hs : Holds K P s) (hk_regs : K .regs = false)
    (hk_tru : K .tru = false) :
    Holds K P (State.touchCtx s d i).1 := by
  unfold State.touchCtx
  try dsimp only
  with_reducible repeat' first
    | intro _ | assumption | apply State.modCtx_keeps | apply State.makeRoom_keeps | apply State.bump_keeps
    | apply State.event_keeps | apply Holds.ite | apply Holds.ite1 | refine Holds.of_fst (by assumption) ?_ | split | dsimp only

theorem execContextReload_keeps (d : Die) (i : Nat) (s : State) (hs : Holds K P s) (hk_tru : K .tru = false) :
    HoldsO K P (execContextReload d i s) := by
  unfold execContextReload
  try dsimp only
  with_reducible repeat' first
    | intro _ | assumption | apply State.makeRoom_keeps | apply State.modCtx_keeps | apply Holds.ite | apply HoldsO.next
    | apply Holds.ite1 | refine Holds.of_fst (by assumption) ?_ | split | dsimp only

theorem execContextWritebackDone_keeps (d : Die) (i : Nat) (s : State) (hs : Holds K P s) (hk_tru : K .tru = false) :
    HoldsO K P (execContextWritebackDone d i s) := by
  unfold execContextWritebackDone
  try dsimp only
  with_reducible repeat' first
    | intro _ | assumption | apply State.modTru_keeps | apply HoldsO.next | dsimp only

theorem State.useDir_keeps (s : State) (d : Die) (i : Nat) (hs : Holds K P s) (hk_tru : K .tru = false) :
    Holds K P (State.useDir s d i) := by
  unfold State.useDir
  try dsimp only
  with_reducible repeat' first
    | intro _ | assumption | apply State.modTru_keeps | dsimp only

theorem State.sendOpen_keeps (s : State) (d : Die) (i : Nat) (hs : Holds K P s) (hk_sluice : K .sluice = false)
    (hk_tru : K .tru = false) :
    Holds K P (State.sendOpen s d i) := by
  unfold State.sendOpen
  try dsimp only
  with_reducible repeat' first
    | intro _ | assumption | apply State.modCtx_keeps | apply State.sendCtl_keeps | apply Holds.ite | split | dsimp only

theorem State.openCtx_keeps (s : State) (d : Die) (i : Nat) (hp : Fin 4) (fea : Nat) (hs : Holds K P s)
    (hk_free : K .free = false) (hk_sluice : K .sluice = false) (hk_tru : K .tru = false) :
    Holds K P (State.openCtx s d i hp fea) := by
  unfold State.openCtx
  try dsimp only
  with_reducible repeat' first
    | intro _ | assumption | apply State.draw_keeps | apply State.useDir_keeps | apply State.sendOpen_keeps
    | apply State.modTru_keeps | dsimp only

theorem State.loseInbound_keeps (s : State) (d : Die) (status : Nat) (b : Inbound) (hs : Holds K P s)
    (hk_ops : K .ops = false) (hk_tmu : K .tmu = false) :
    Holds K P (State.loseInbound s d status b) := by
  unfold State.loseInbound
  try dsimp only
  with_reducible repeat' first
    | intro _ | assumption | apply State.opAbort_keeps | apply State.dropUx_keeps | apply State.unplace_keeps
    | apply State.modTmu_keeps | split | dsimp only

theorem State.endReceive_keeps (s : State) (d : Die) (i : Nat) (status : Nat) (hs : Holds K P s) (hk_ops : K .ops = false)
    (hk_rings : K .rings = false) (hk_rma : K .rma = false) (hk_tmu : K .tmu = false) (hk_tru : K .tru = false) :
    Holds K P (State.endReceive s d i status) := by
  unfold State.endReceive
  try dsimp only
  with_reducible repeat' first
    | intro _ | assumption | apply State.modRing_keeps | apply State.modRma_keeps | apply State.loseInbound_keeps
    | apply State.modTmu_keeps | apply State.modTru_keeps | apply Holds.ite | apply Holds.foldl | split | dsimp only

theorem State.endCtx_keeps (s : State) (d : Die) (i : Nat) (reason : Nat) (status : Nat) (all : Bool) (hs : Holds K P s)
    (hk_accesses : K .accesses = false) (hk_dmem : K .dmem = false) (hk_hag : K .hag = false) (hk_hold : K .hold = false)
    (hk_mem : K .mem = false) (hk_members : K .members = false) (hk_ops : K .ops = false) (hk_out : K .out = false)
    (hk_reads : K .reads = false) (hk_regs : K .regs = false) (hk_rings : K .rings = false) (hk_rma : K .rma = false)
    (hk_sluice : K .sluice = false) (hk_tmu : K .tmu = false) (hk_tru : K .tru = false) (hk_xlu : K .xlu = false) :
    Holds K P (State.endCtx s d i reason status all) := by
  unfold State.endCtx
  try dsimp only
  with_reducible repeat' first
    | intro _ | assumption | apply State.opAbort_keeps | apply State.modSluice_keeps | apply State.quadFailHere_keeps
    | apply State.endReceive_keeps | apply State.wrs_keeps | apply State.modTru_keeps | apply Holds.foldl | split | dsimp only

theorem State.abortCtx_keeps (s : State) (d : Die) (i : Nat) (reason : Nat) (hs : Holds K P s)
    (hk_accesses : K .accesses = false) (hk_dmem : K .dmem = false) (hk_hag : K .hag = false) (hk_hold : K .hold = false)
    (hk_mem : K .mem = false) (hk_members : K .members = false) (hk_ops : K .ops = false) (hk_out : K .out = false)
    (hk_reads : K .reads = false) (hk_regs : K .regs = false) (hk_rings : K .rings = false) (hk_rma : K .rma = false)
    (hk_sluice : K .sluice = false) (hk_tmu : K .tmu = false) (hk_tru : K .tru = false) (hk_xlu : K .xlu = false) :
    Holds K P (State.abortCtx s d i reason) := by
  unfold State.abortCtx
  try dsimp only
  with_reducible repeat' first
    | intro _ | assumption | apply State.endCtx_keeps | apply State.bump_keeps | dsimp only

theorem State.unreachable_keeps (s : State) (d : Die) (i : Nat) (reason : Nat) (hs : Holds K P s)
    (hk_accesses : K .accesses = false) (hk_dmem : K .dmem = false) (hk_hag : K .hag = false) (hk_hold : K .hold = false)
    (hk_mem : K .mem = false) (hk_members : K .members = false) (hk_ops : K .ops = false) (hk_out : K .out = false)
    (hk_reads : K .reads = false) (hk_regs : K .regs = false) (hk_rings : K .rings = false) (hk_rma : K .rma = false)
    (hk_sluice : K .sluice = false) (hk_tmu : K .tmu = false) (hk_tru : K .tru = false) (hk_xlu : K .xlu = false) :
    Holds K P (State.unreachable s d i reason) := by
  unfold State.unreachable
  try dsimp only
  with_reducible repeat' first
    | intro _ | assumption | apply State.endCtx_keeps | apply State.modTru_keeps | split | dsimp only

theorem State.takeCtl_keeps (s : State) (d : Die) (command : Nat) (act : Pkt → State → Option State) (hs : Holds K P s)
    (hact : ∀ x0 x1, Holds K P x1 → HoldsS K P (act x0 x1)) (hk_regs : K .regs = false) (hk_tru : K .tru = false) :
    Holds K P (State.takeCtl s d command act) := by
  unfold State.takeCtl
  try dsimp only
  with_reducible repeat' first
    | intro _ | assumption | apply State.bump_keeps | apply State.modTru_keeps | apply hact | apply Holds.ite | exact HoldsS.none
    | apply HoldsS.some | refine Holds.of_some (by assumption) ?_ | split | dsimp only

theorem State.openReply_keeps (s : State) (d : Die) (p : Pkt) (index : Nat) (isn : Nat) (version : Nat) (status : Nat)
    (hs : Holds K P s) (hk_regs : K .regs = false) (hk_sluice : K .sluice = false) :
    Holds K P (State.openReply s d p index isn version status) := by
  unfold State.openReply
  try dsimp only
  with_reducible repeat' first
    | intro _ | assumption | apply State.replyCtl_keeps | dsimp only

theorem State.replyOk_keeps (s : State) (d : Die) (p : Pkt) (i : Nat) (hs : Holds K P s) (hk_regs : K .regs = false)
    (hk_sluice : K .sluice = false) :
    Holds K P (State.replyOk s d p i) := by
  unfold State.replyOk
  try dsimp only
  with_reducible repeat' first
    | intro _ | assumption | apply State.openReply_keeps | split | dsimp only

theorem State.acceptOpen_keeps (s : State) (d : Die) (p : Pkt) (i : Nat) (hs : Holds K P s) (hk_free : K .free = false)
    (hk_regs : K .regs = false) (hk_sluice : K .sluice = false) (hk_tru : K .tru = false) :
    Holds K P (State.acceptOpen s d p i) := by
  unfold State.acceptOpen
  try dsimp only
  with_reducible repeat' first
    | intro _ | assumption | apply State.draw_keeps | apply State.useDir_keeps | apply State.replyOk_keeps | apply State.bump_keeps
    | apply State.modTru_keeps | dsimp only

theorem execCtxOpen_keeps (d : Die) (s : State) (hs : Holds K P s) (hk_accesses : K .accesses = false)
    (hk_dmem : K .dmem = false) (hk_free : K .free = false) (hk_hag : K .hag = false) (hk_hold : K .hold = false)
    (hk_mem : K .mem = false) (hk_members : K .members = false) (hk_ops : K .ops = false) (hk_out : K .out = false)
    (hk_reads : K .reads = false) (hk_regs : K .regs = false) (hk_rings : K .rings = false) (hk_rma : K .rma = false)
    (hk_sluice : K .sluice = false) (hk_tmu : K .tmu = false) (hk_tru : K .tru = false) (hk_xlu : K .xlu = false) :
    HoldsO K P (execCtxOpen d s) := by
  unfold execCtxOpen
  try dsimp only
  with_reducible repeat' first
    | intro _ | assumption | apply State.takeCtl_keeps | apply State.bump_keeps | apply State.openReply_keeps
    | apply State.makeRoom_keeps | apply State.acceptOpen_keeps | apply State.touchCtx_keeps | apply State.useDir_keeps
    | apply State.replyOk_keeps | apply State.endReceive_keeps | apply State.modCtx_keeps | apply State.abortCtx_keeps
    | apply Holds.ite | apply HoldsO.next | exact HoldsS.none | apply HoldsS.some | apply Holds.ite1
    | refine Holds.of_fst (by assumption) ?_ | refine Holds.of_some (by assumption) ?_ | split | dsimp only

theorem execCtxOpenAck_keeps (d : Die) (s : State) (hs : Holds K P s) (hk_accesses : K .accesses = false)
    (hk_dmem : K .dmem = false) (hk_hag : K .hag = false) (hk_hold : K .hold = false) (hk_mem : K .mem = false)
    (hk_members : K .members = false) (hk_ops : K .ops = false) (hk_out : K .out = false) (hk_reads : K .reads = false)
    (hk_regs : K .regs = false) (hk_rings : K .rings = false) (hk_rma : K .rma = false) (hk_sluice : K .sluice = false)
    (hk_tmu : K .tmu = false) (hk_tru : K .tru = false) (hk_xlu : K .xlu = false) :
    HoldsO K P (execCtxOpenAck d s) := by
  unfold execCtxOpenAck
  try dsimp only
  with_reducible repeat' first
    | intro _ | assumption | apply State.takeCtl_keeps | apply State.bump_keeps | apply State.modCtx_keeps
    | apply State.unreachable_keeps | apply Holds.ite | apply HoldsO.next | exact HoldsS.none | apply HoldsS.some
    | refine Holds.of_some (by assumption) ?_ | split | dsimp only

theorem execCtxNoctx_keeps (d : Die) (s : State) (hs : Holds K P s) (hk_accesses : K .accesses = false)
    (hk_dmem : K .dmem = false) (hk_hag : K .hag = false) (hk_hold : K .hold = false) (hk_mem : K .mem = false)
    (hk_members : K .members = false) (hk_ops : K .ops = false) (hk_out : K .out = false) (hk_reads : K .reads = false)
    (hk_regs : K .regs = false) (hk_rings : K .rings = false) (hk_rma : K .rma = false) (hk_sluice : K .sluice = false)
    (hk_tmu : K .tmu = false) (hk_tru : K .tru = false) (hk_xlu : K .xlu = false) :
    HoldsO K P (execCtxNoctx d s) := by
  unfold execCtxNoctx
  try dsimp only
  with_reducible repeat' first
    | intro _ | assumption | apply State.takeCtl_keeps | apply State.useDir_keeps | apply State.abortCtx_keeps | apply Holds.ite
    | apply HoldsO.next | exact HoldsS.none | apply HoldsS.some | refine Holds.of_some (by assumption) ?_ | split | dsimp only

theorem State.noctx_keeps (s : State) (d : Die) (p : Pkt) (hs : Holds K P s) (hk_regs : K .regs = false)
    (hk_sluice : K .sluice = false) :
    Holds K P (State.noctx s d p) := by
  unfold State.noctx
  try dsimp only
  with_reducible repeat' first
    | intro _ | assumption | apply State.replyCtl_keeps | apply State.bump_keeps | dsimp only

theorem State.gapCheck_keeps (s : State) (d : Die) (i : Nat) (hs : Holds K P s) (hk_tru : K .tru = false) :
    Holds K P (State.gapCheck s d i) := by
  unfold State.gapCheck
  try dsimp only
  with_reducible repeat' first
    | intro _ | assumption | apply State.modCtx_keeps | apply Holds.ite | split | dsimp only

theorem State.farAck_keeps (s : State) (d : Die) (i : Nat) (hs : Holds K P s) (hk_regs : K .regs = false)
    (hk_sluice : K .sluice = false) (hk_tru : K .tru = false) :
    Holds K P (State.farAck s d i) := by
  unfold State.farAck
  try dsimp only
  with_reducible repeat' first
    | intro _ | assumption | apply State.modCtx_keeps | apply State.sendAckFrom_keeps | apply Holds.ite | apply Holds.foldl | split
    | dsimp only

theorem State.countRx_keeps (s : State) (d : Die) (i : Nat) (p : Pkt) (hs : Holds K P s) (hk_regs : K .regs = false)
    (hk_tru : K .tru = false) :
    Holds K P (State.countRx s d i p) := by
  unfold State.countRx
  try dsimp only
  with_reducible repeat' first
    | intro _ | assumption | apply State.modCtx_keeps | apply State.when_keeps | apply State.polderCount_keeps
    | apply State.bump_keeps | dsimp only

theorem State.receive_keeps (s : State) (d : Die) (i : Nat) (c : Ctx) (p : Pkt) (reject : Option Nat) (hs : Holds K P s)
    (hk_regs : K .regs = false) (hk_rings : K .rings = false) (hk_rma : K .rma = false) (hk_sluice : K .sluice = false)
    (hk_tru : K .tru = false) :
    Holds K P (State.receive s d i c p reject) := by
  unfold State.receive
  try dsimp only
  with_reducible repeat' first
    | intro _ | assumption | apply State.bump_keeps | apply State.modCtx_keeps | apply State.when_keeps
    | apply State.rejectSeq_keeps | apply State.rmaFailed_keeps | apply State.farAck_keeps | apply State.gapCheck_keeps
    | apply State.countRx_keeps | apply State.refusePkt_keeps | apply State.modTru_keeps | apply State.rxSettle_keeps
    | apply State.sendAck_keeps | apply Holds.ite | exact HoldsS.none | apply HoldsS.some | refine Holds.of_some (by assumption) ?_
    | split | dsimp only

theorem execSequencedPacketReceive_keeps (d : Die) (s : State) (hs : Holds K P s) (hk_regs : K .regs = false)
    (hk_rings : K .rings = false) (hk_rma : K .rma = false) (hk_sluice : K .sluice = false) (hk_tru : K .tru = false) :
    HoldsO K P (execSequencedPacketReceive d s) := by
  unfold execSequencedPacketReceive
  try dsimp only
  with_reducible repeat' first
    | intro _ | assumption | apply State.modTru_keeps | apply State.bump_keeps | apply State.noctx_keeps
    | apply State.touchCtx_keeps | apply State.sendAck_keeps | apply State.receive_keeps | apply Holds.ite | apply HoldsO.next
    | apply Holds.ite1 | refine Holds.of_fst (by assumption) ?_ | split | dsimp only

theorem execPacketLanded_keeps (d : Die) (id : Nat) (s : State) (hs : Holds K P s) (hk_regs : K .regs = false)
    (hk_sluice : K .sluice = false) (hk_tru : K .tru = false) :
    HoldsO K P (execPacketLanded d id s) := by
  unfold execPacketLanded
  try dsimp only
  with_reducible repeat' first
    | intro _ | assumption | apply State.modTru_keeps | apply State.modCtx_keeps | apply State.farAck_keeps
    | apply State.ackCount_keeps | apply State.gapCheck_keeps | apply State.rxSettle_keeps | apply Holds.ite | apply HoldsO.next
    | split | dsimp only

theorem execAckDelayExpiry_keeps (d : Die) (i : Nat) (s : State) (hs : Holds K P s) (hk_regs : K .regs = false)
    (hk_sluice : K .sluice = false) (hk_tru : K .tru = false) :
    HoldsO K P (execAckDelayExpiry d i s) := by
  unfold execAckDelayExpiry
  try dsimp only
  with_reducible repeat' first
    | intro _ | assumption | apply State.farAck_keeps | apply State.sendAck_keeps | apply Holds.ite | apply HoldsO.next | split
    | dsimp only

theorem execGapTimeout_keeps (d : Die) (i : Nat) (s : State) (hs : Holds K P s) (hk_regs : K .regs = false)
    (hk_sluice : K .sluice = false) (hk_tru : K .tru = false) :
    HoldsO K P (execGapTimeout d i s) := by
  unfold execGapTimeout
  try dsimp only
  with_reducible repeat' first
    | intro _ | assumption | apply State.modCtx_keeps | apply State.sendAck_keeps | apply Holds.ite | apply HoldsO.next | split
    | dsimp only

theorem execRecordResendTimer_keeps (d : Die) (i : Nat) (s : State) (hs : Holds K P s) (hk_regs : K .regs = false)
    (hk_sluice : K .sluice = false) (hk_tru : K .tru = false) :
    HoldsO K P (execRecordResendTimer d i s) := by
  unfold execRecordResendTimer
  try dsimp only
  with_reducible repeat' first
    | intro _ | assumption | apply State.sendAck_keeps | apply Holds.ite | apply HoldsO.next | split | dsimp only

theorem State.applyRecord_keeps (s : State) (d : Die) (i : Nat) (r : OutRec) (hs : Holds K P s)
    (hk_accesses : K .accesses = false) (hk_dmem : K .dmem = false) (hk_hag : K .hag = false) (hk_hold : K .hold = false)
    (hk_mem : K .mem = false) (hk_members : K .members = false) (hk_ops : K .ops = false) (hk_out : K .out = false)
    (hk_reads : K .reads = false) (hk_regs : K .regs = false) (hk_sluice : K .sluice = false) (hk_xlu : K .xlu = false) :
    Holds K P (State.applyRecord s d i r) := by
  unfold State.applyRecord
  try dsimp only
  with_reducible repeat' first
    | intro _ | assumption | apply State.tagError_keeps | apply State.modOp_keeps | apply Holds.ite | split | dsimp only

theorem State.drainRecords_keeps (d : Die) (i : Nat) (a : Nat) (a' : State) (ha' : Holds K P a')
    (hk_accesses : K .accesses = false) (hk_dmem : K .dmem = false) (hk_hag : K .hag = false) (hk_hold : K .hold = false)
    (hk_mem : K .mem = false) (hk_members : K .members = false) (hk_ops : K .ops = false) (hk_out : K .out = false)
    (hk_reads : K .reads = false) (hk_regs : K .regs = false) (hk_sluice : K .sluice = false) (hk_tru : K .tru = false)
    (hk_xlu : K .xlu = false) :
    Holds K P (State.drainRecords d i a a') := by
  induction a generalizing a' ha' with
  | zero =>
    unfold State.drainRecords
    try dsimp only
    with_reducible repeat' first
      | intro _ | assumption | apply ih | apply State.modCtx_keeps | apply State.applyRecord_keeps | split | dsimp only
  | succ n ih =>
    unfold State.drainRecords
    try dsimp only
    with_reducible repeat' first
      | intro _ | assumption | apply ih | apply State.modCtx_keeps | apply State.applyRecord_keeps | split | dsimp only

theorem State.takeRecords_keeps (s : State) (d : Die) (i : Nat) (n : Nat) (unit : List Byte) (hs : Holds K P s)
    (hk_accesses : K .accesses = false) (hk_dmem : K .dmem = false) (hk_hag : K .hag = false) (hk_hold : K .hold = false)
    (hk_mem : K .mem = false) (hk_members : K .members = false) (hk_ops : K .ops = false) (hk_out : K .out = false)
    (hk_reads : K .reads = false) (hk_regs : K .regs = false) (hk_sluice : K .sluice = false) (hk_tru : K .tru = false)
    (hk_xlu : K .xlu = false) :
    Holds K P (State.takeRecords s d i n unit) := by
  unfold State.takeRecords
  try dsimp only
  with_reducible repeat' first
    | intro _ | assumption | apply State.modCtx_keeps | apply State.drainRecords_keeps | apply Holds.ite | split | dsimp only

theorem State.drainCovered_keeps (s : State) (d : Die) (i : Nat) (hs : Holds K P s) (hk_accesses : K .accesses = false)
    (hk_dmem : K .dmem = false) (hk_hag : K .hag = false) (hk_hold : K .hold = false) (hk_mem : K .mem = false)
    (hk_members : K .members = false) (hk_ops : K .ops = false) (hk_out : K .out = false) (hk_reads : K .reads = false)
    (hk_regs : K .regs = false) (hk_sluice : K .sluice = false) (hk_tru : K .tru = false) (hk_xlu : K .xlu = false) :
    Holds K P (State.drainCovered s d i) := by
  unfold State.drainCovered
  try dsimp only
  with_reducible repeat' first
    | intro _ | assumption | apply State.modCtx_keeps | apply State.tagAcked_keeps | apply Holds.foldl | split | dsimp only

theorem State.runTimer_keeps (s : State) (d : Die) (i : Nat) (hs : Holds K P s) (hk_tru : K .tru = false) :
    Holds K P (State.runTimer s d i) := by
  unfold State.runTimer
  try dsimp only
  with_reducible repeat' first
    | intro _ | assumption | apply State.modCtx_keeps | apply Holds.ite | split | dsimp only

theorem State.takeRnr_keeps (s : State) (d : Die) (i : Nat) (q : Nat) (hs : Holds K P s) (hk_regs : K .regs = false)
    (hk_tru : K .tru = false) :
    Holds K P (State.takeRnr s d i q) := by
  unfold State.takeRnr
  try dsimp only
  with_reducible repeat' first
    | intro _ | assumption | apply State.bump_keeps | apply State.modCtx_keeps | apply Holds.ite | split | dsimp only

theorem State.takeAck_keeps (s : State) (d : Die) (i : Nat) (c : Ctx) (p : Pkt) (hs : Holds K P s)
    (hk_accesses : K .accesses = false) (hk_dmem : K .dmem = false) (hk_hag : K .hag = false) (hk_hold : K .hold = false)
    (hk_mem : K .mem = false) (hk_members : K .members = false) (hk_ops : K .ops = false) (hk_out : K .out = false)
    (hk_reads : K .reads = false) (hk_regs : K .regs = false) (hk_sluice : K .sluice = false) (hk_tru : K .tru = false)
    (hk_xlu : K .xlu = false) :
    Holds K P (State.takeAck s d i c p) := by
  unfold State.takeAck
  try dsimp only
  with_reducible repeat' first
    | intro _ | assumption | apply State.takeRecords_keeps | apply State.modCtx_keeps | apply State.modSluice_keeps
    | apply State.runTimer_keeps | apply State.drainCovered_keeps | apply State.bumpBy_keeps | apply State.takeRnr_keeps
    | apply State.when_keeps | apply State.bump_keeps | apply Holds.ite | split | dsimp only

theorem execTruAck_keeps (d : Die) (s : State) (hs : Holds K P s) (hk_accesses : K .accesses = false)
    (hk_dmem : K .dmem = false) (hk_hag : K .hag = false) (hk_hold : K .hold = false) (hk_mem : K .mem = false)
    (hk_members : K .members = false) (hk_ops : K .ops = false) (hk_out : K .out = false) (hk_reads : K .reads = false)
    (hk_regs : K .regs = false) (hk_sluice : K .sluice = false) (hk_tru : K .tru = false) (hk_xlu : K .xlu = false) :
    HoldsO K P (execTruAck d s) := by
  unfold execTruAck
  try dsimp only
  with_reducible repeat' first
    | intro _ | assumption | apply State.takeCtl_keeps | apply State.touchCtx_keeps | apply State.takeAck_keeps | apply Holds.ite
    | apply HoldsO.next | exact HoldsS.none | apply HoldsS.some | apply Holds.ite1 | refine Holds.of_fst (by assumption) ?_
    | refine Holds.of_some (by assumption) ?_ | split | dsimp only

theorem execRetransmitTimeout_keeps (d : Die) (i : Nat) (s : State) (hs : Holds K P s) (hk_regs : K .regs = false)
    (hk_sluice : K .sluice = false) (hk_tru : K .tru = false) :
    HoldsO K P (execRetransmitTimeout d i s) := by
  unfold execRetransmitTimeout
  try dsimp only
  with_reducible repeat' first
    | intro _ | assumption | apply State.modCtx_keeps | apply State.bump_keeps | apply State.sendOpen_keeps
    | apply State.runTimer_keeps | apply Holds.ite | apply HoldsO.next | split | dsimp only

theorem execRnrRetransmit_keeps (d : Die) (i : Nat) (s : State) (hs : Holds K P s) (hk_tru : K .tru = false) :
    HoldsO K P (execRnrRetransmit d i s) := by
  unfold execRnrRetransmit
  try dsimp only
  with_reducible repeat' first
    | intro _ | assumption | apply State.modCtx_keeps | apply Holds.ite | apply HoldsO.next | split | dsimp only

theorem execRetryBudgetExhausted_keeps (d : Die) (i : Nat) (s : State) (hs : Holds K P s) (hk_accesses : K .accesses = false)
    (hk_dmem : K .dmem = false) (hk_hag : K .hag = false) (hk_hold : K .hold = false) (hk_mem : K .mem = false)
    (hk_members : K .members = false) (hk_ops : K .ops = false) (hk_out : K .out = false) (hk_reads : K .reads = false)
    (hk_regs : K .regs = false) (hk_rings : K .rings = false) (hk_rma : K .rma = false) (hk_sluice : K .sluice = false)
    (hk_tmu : K .tmu = false) (hk_tru : K .tru = false) (hk_xlu : K .xlu = false) :
    HoldsO K P (execRetryBudgetExhausted d i s) := by
  unfold execRetryBudgetExhausted
  try dsimp only
  with_reducible repeat' first
    | intro _ | assumption | apply State.unreachable_keeps | apply State.bump_keeps | apply Holds.ite | apply HoldsO.next | split
    | dsimp only

theorem execUnreachHoldExpiry_keeps (d : Die) (i : Nat) (s : State) (hs : Holds K P s) (hk_free : K .free = false)
    (hk_sluice : K .sluice = false) (hk_tru : K .tru = false) :
    HoldsO K P (execUnreachHoldExpiry d i s) := by
  unfold execUnreachHoldExpiry
  try dsimp only
  with_reducible repeat' first
    | intro _ | assumption | apply State.openCtx_keeps | apply State.modTru_keeps | apply Holds.ite | apply HoldsO.next | split
    | dsimp only

theorem execRateIncreaseTick_keeps (d : Die) (s : State) (hs : Holds K P s) (hk_tru : K .tru = false) :
    HoldsO K P (execRateIncreaseTick d s) := by
  unfold execRateIncreaseTick
  try dsimp only
  with_reducible repeat' first
    | intro _ | assumption | apply State.modTru_keeps | apply Holds.ite | apply HoldsO.next | split | dsimp only

theorem State.ctxCommand_keeps (s : State) (rq : Requester) (d : Die) (op : Nat) (act : State → Except Nat State)
    (hs : Holds K P s) (hact : ∀ x0, Holds K P x0 → HoldsE K P (act x0)) (hk_regs : K .regs = false) :
    Holds K P (State.ctxCommand s rq d op act) := by
  unfold State.ctxCommand
  try dsimp only
  with_reducible repeat' first
    | intro _ | assumption | apply State.privViolation_keeps | apply State.wr_keeps | apply State.wrs_keeps | apply hact
    | apply Holds.ite | exact HoldsE.error | apply HoldsE.ok | apply HoldsE.ite | exact HoldsEP.error | apply HoldsEP.ok
    | apply HoldsEP.ite | refine Holds.of_ok (by assumption) ?_ | refine Holds.of_okP (by assumption) ?_ | split | dsimp only

theorem State.ctxResult_keeps (s : State) (d : Die) (i : Nat) (c : Ctx) (hs : Holds K P s) (hk_regs : K .regs = false) :
    Holds K P (State.ctxResult s d i c) := by
  unfold State.ctxResult
  try dsimp only
  with_reducible repeat' first
    | intro _ | assumption | apply State.wrs_keeps | dsimp only

theorem execQueryPair_keeps (rq : Requester) (d : Die) (s : State) (hs : Holds K P s) (hk_regs : K .regs = false) :
    HoldsO K P (execQueryPair rq d s) := by
  unfold execQueryPair
  try dsimp only
  with_reducible repeat' first
    | intro _ | assumption | apply State.ctxCommand_keeps | apply State.ctxResult_keeps | apply HoldsO.next | exact HoldsE.error
    | apply HoldsE.ok | exact HoldsEP.error | apply HoldsEP.ok | refine Holds.of_ok (by assumption) ?_
    | refine Holds.of_okP (by assumption) ?_ | split | dsimp only

theorem execQueryIndex_keeps (rq : Requester) (d : Die) (s : State) (hs : Holds K P s) (hk_regs : K .regs = false) :
    HoldsO K P (execQueryIndex rq d s) := by
  unfold execQueryIndex
  try dsimp only
  with_reducible repeat' first
    | intro _ | assumption | apply State.ctxCommand_keeps | apply State.ctxResult_keeps | apply HoldsO.next | exact HoldsE.error
    | apply HoldsE.ok | exact HoldsEP.error | apply HoldsEP.ok | refine Holds.of_ok (by assumption) ?_
    | refine Holds.of_okP (by assumption) ?_ | split | dsimp only

theorem execAbort_keeps (rq : Requester) (d : Die) (s : State) (hs : Holds K P s) (hk_accesses : K .accesses = false)
    (hk_dmem : K .dmem = false) (hk_hag : K .hag = false) (hk_hold : K .hold = false) (hk_mem : K .mem = false)
    (hk_members : K .members = false) (hk_ops : K .ops = false) (hk_out : K .out = false) (hk_reads : K .reads = false)
    (hk_regs : K .regs = false) (hk_rings : K .rings = false) (hk_rma : K .rma = false) (hk_sluice : K .sluice = false)
    (hk_tmu : K .tmu = false) (hk_tru : K .tru = false) (hk_xlu : K .xlu = false) :
    HoldsO K P (execAbort rq d s) := by
  unfold execAbort
  try dsimp only
  with_reducible repeat' first
    | intro _ | assumption | apply State.ctxCommand_keeps | apply State.abortCtx_keeps | apply HoldsO.next | exact HoldsE.error
    | apply HoldsE.ok | exact HoldsEP.error | apply HoldsEP.ok | refine Holds.of_ok (by assumption) ?_
    | refine Holds.of_okP (by assumption) ?_ | split | dsimp only

end Sys2Proof.Machine
end

