-- ==== Sys2Proof/Laws/KeepSluice.lean ====
section
/-! SUPPORT. The operations of Sluice.lean keep what the operations on registers and memory keep. -/

namespace Sys2Proof.Machine

set_option linter.all false
set_option linter.unusedTactic false
set_option linter.unreachableTactic false

variable {K : Grp → Bool} {P : State → Prop}

theorem State.backlog_keeps (s : State) (d : Die) (w : WPkt) (hs : Holds K P s) (hk_sluice : K .sluice = false) :
    Holds K P (State.backlog s d w) := by
  unfold State.backlog
  try dsimp only
  with_reducible repeat' first
    | intro _ | assumption | apply State.modSluice_keeps | apply Holds.ite | split | dsimp only

theorem State.unbacklog_keeps (s : State) (d : Die) (hs : Holds K P s) (hk_sluice : K .sluice = false) :
    Holds K P (State.unbacklog s d) := by
  unfold State.unbacklog
  try dsimp only
  with_reducible repeat' first
    | intro _ | assumption | apply State.modSluice_keeps | dsimp only

theorem State.syncLanes_keeps (s : State) (d : Die) (hs : Holds K P s) (hk_sluice : K .sluice = false) :
    Holds K P (State.syncLanes s d) := by
  unfold State.syncLanes
  try dsimp only
  with_reducible repeat' first
    | intro _ | assumption | apply State.unbacklog_keeps | apply State.backlog_keeps | apply Holds.foldl | dsimp only

theorem State.unwait_keeps (s : State) (d : Die) (w : WPkt) (hs : Holds K P s) (hk_sluice : K .sluice = false) :
    Holds K P (State.unwait s d w) := by
  unfold State.unwait
  try dsimp only
  with_reducible repeat' first
    | intro _ | assumption | apply State.modSluice_keeps | apply State.refreshMeter_keeps | dsimp only

theorem State.dropClosed_keeps (s : State) (d : Die) (w : WPkt) (hs : Holds K P s) (hk_accesses : K .accesses = false)
    (hk_dmem : K .dmem = false) (hk_hag : K .hag = false) (hk_hold : K .hold = false) (hk_mem : K .mem = false)
    (hk_members : K .members = false) (hk_ops : K .ops = false) (hk_out : K .out = false) (hk_reads : K .reads = false)
    (hk_regs : K .regs = false) (hk_sluice : K .sluice = false) (hk_xlu : K .xlu = false) :
    Holds K P (State.dropClosed s d w) := by
  unfold State.dropClosed
  try dsimp only
  with_reducible repeat' first
    | intro _ | assumption | apply State.bump_keeps | apply State.unwait_keeps | apply State.wrs_keeps
    | apply State.quadRejected_keeps | apply State.opAcked_keeps | apply State.tagError_keeps | apply Holds.ite | split | dsimp only

theorem State.failWaiting_keeps (s : State) (d : Die) (w : WPkt) (hs : Holds K P s) (hk_accesses : K .accesses = false)
    (hk_dmem : K .dmem = false) (hk_hag : K .hag = false) (hk_hold : K .hold = false) (hk_mem : K .mem = false)
    (hk_members : K .members = false) (hk_ops : K .ops = false) (hk_out : K .out = false) (hk_reads : K .reads = false)
    (hk_regs : K .regs = false) (hk_sluice : K .sluice = false) (hk_xlu : K .xlu = false) :
    Holds K P (State.failWaiting s d w) := by
  unfold State.failWaiting
  try dsimp only
  with_reducible repeat' first
    | intro _ | assumption | apply State.unwait_keeps | apply State.quadRejected_keeps | apply State.opAbort_keeps | apply Holds.ite
    | split | dsimp only

theorem State.ensureCtx_keeps (s : State) (d : Die) (w : WPkt) (hs : Holds K P s) (hk_accesses : K .accesses = false)
    (hk_dmem : K .dmem = false) (hk_free : K .free = false) (hk_hag : K .hag = false) (hk_hold : K .hold = false)
    (hk_mem : K .mem = false) (hk_members : K .members = false) (hk_ops : K .ops = false) (hk_out : K .out = false)
    (hk_reads : K .reads = false) (hk_regs : K .regs = false) (hk_sluice : K .sluice = false) (hk_tru : K .tru = false)
    (hk_xlu : K .xlu = false) :
    Holds K P (State.ensureCtx s d w) := by
  unfold State.ensureCtx
  try dsimp only
  with_reducible repeat' first
    | intro _ | assumption | apply State.useDir_keeps | apply State.failWaiting_keeps | apply State.touchCtx_keeps
    | apply State.makeRoom_keeps | apply State.openCtx_keeps | apply Holds.ite | apply Holds.ite1
    | refine Holds.of_fst (by assumption) ?_ | split | dsimp only

theorem State.srcFault_keeps (s : State) (d : Die) (x : Desc) (reason : Nat) (hs : Holds K P s)
    (hk_accesses : K .accesses = false) (hk_dmem : K .dmem = false) (hk_hag : K .hag = false) (hk_hold : K .hold = false)
    (hk_mem : K .mem = false) (hk_members : K .members = false) (hk_ops : K .ops = false) (hk_out : K .out = false)
    (hk_reads : K .reads = false) (hk_regs : K .regs = false) (hk_sluice : K .sluice = false) (hk_xlu : K .xlu = false) :
    Holds K P (State.srcFault s d x reason) := by
  unfold State.srcFault
  try dsimp only
  with_reducible repeat' first
    | intro _ | assumption | apply State.xFault_keeps | apply State.tagError_keeps | split | dsimp only

theorem State.rebuild_keeps (d : Die) (i : Nat) (a : List (Nat × Bool)) (a' : State) (ha' : Holds K P a')
    (hk_accesses : K .accesses = false) (hk_dmem : K .dmem = false) (hk_hag : K .hag = false) (hk_hold : K .hold = false)
    (hk_mem : K .mem = false) (hk_members : K .members = false) (hk_ops : K .ops = false) (hk_out : K .out = false)
    (hk_reads : K .reads = false) (hk_regs : K .regs = false) (hk_sluice : K .sluice = false) (hk_tru : K .tru = false)
    (hk_xlu : K .xlu = false) :
    Holds K P (State.rebuild d i a a') := by
  induction a generalizing a' ha' with
  | nil =>
    unfold State.rebuild
    try dsimp only
    with_reducible repeat' first
      | intro _ | assumption | apply ih | apply State.modCtx_keeps | apply State.modSluice_keeps | apply State.readSrc_keeps
      | apply State.srcFault_keeps | simp only [Holds.upd, Bool.false_eq_true, false_implies, implies_true]
      | refine Holds.of_fst (by assumption) ?_ | split | dsimp only
  | cons x l ih =>
    unfold State.rebuild
    try dsimp only
    with_reducible repeat' first
      | intro _ | assumption | apply ih | apply State.modCtx_keeps | apply State.modSluice_keeps | apply State.readSrc_keeps
      | apply State.srcFault_keeps | simp only [Holds.upd, Bool.false_eq_true, false_implies, implies_true]
      | refine Holds.of_fst (by assumption) ?_ | split | dsimp only

theorem State.sluicePrep_keeps (s : State) (d : Die) (hs : Holds K P s) (hk_accesses : K .accesses = false)
    (hk_dmem : K .dmem = false) (hk_free : K .free = false) (hk_hag : K .hag = false) (hk_hold : K .hold = false)
    (hk_mem : K .mem = false) (hk_members : K .members = false) (hk_ops : K .ops = false) (hk_out : K .out = false)
    (hk_reads : K .reads = false) (hk_regs : K .regs = false) (hk_sluice : K .sluice = false) (hk_tru : K .tru = false)
    (hk_xlu : K .xlu = false) :
    Holds K P (State.sluicePrep s d) := by
  unfold State.sluicePrep
  try dsimp only
  with_reducible repeat' first
    | intro _ | assumption | apply State.dropClosed_keeps | apply State.rebuild_keeps | apply State.ensureCtx_keeps
    | apply State.syncLanes_keeps | apply Holds.ite | apply Holds.foldl | split | dsimp only

theorem State.wfqAdmit_keeps (s : State) (d : Die) (w : WPkt) (hs : Holds K P s) (hk_sluice : K .sluice = false) :
    Holds K P (State.wfqAdmit s d w) := by
  unfold State.wfqAdmit
  try dsimp only
  with_reducible repeat' first
    | intro _ | assumption | apply State.modSluice_keeps | apply Holds.ite | split | dsimp only

theorem State.shapeCharge_keeps (s : State) (d : Die) (e : Nat) (n : Nat) (hs : Holds K P s) (hk_sluice : K .sluice = false) :
    Holds K P (State.shapeCharge s d e n) := by
  unfold State.shapeCharge
  try dsimp only
  with_reducible repeat' first
    | intro _ | assumption | apply State.modSluice_keeps | apply State.refreshMeter_keeps | apply Holds.ite | split | dsimp only

theorem State.police_keeps (s : State) (d : Die) (e : Nat) (n : Nat) (hs : Holds K P s) (hk_sluice : K .sluice = false) :
    Holds K P (State.police s d e n).1 := by
  unfold State.police
  try dsimp only
  with_reducible repeat' first
    | intro _ | assumption | apply State.modSluice_keeps | apply Holds.ite | apply Holds.ite1
    | refine Holds.of_fst (by assumption) ?_ | split | dsimp only

theorem State.sentSeq_keeps (s : State) (d : Die) (i : Nat) (w : WPkt) (p : Pkt) (hs : Holds K P s) (hk_ops : K .ops = false)
    (hk_regs : K .regs = false) (hk_tru : K .tru = false) :
    Holds K P (State.sentSeq s d i w p) := by
  unfold State.sentSeq
  try dsimp only
  with_reducible repeat' first
    | intro _ | assumption | apply State.modCtx_keeps | apply State.event_keeps | apply State.bump_keeps
    | apply State.runTimer_keeps | apply State.modOp_keeps | apply Holds.ite | split | dsimp only

theorem State.countAdmit_keeps (s : State) (d : Die) (p : Pkt) (hs : Holds K P s) (hk_regs : K .regs = false) :
    Holds K P (State.countAdmit s d p) := by
  unfold State.countAdmit
  try dsimp only
  with_reducible repeat' first
    | intro _ | assumption | apply State.polderCount_keeps | apply State.bump_keeps | dsimp only

theorem State.throttleCount_keeps (s : State) (d : Die) (p : Pkt) (hs : Holds K P s) (hk_sluice : K .sluice = false) :
    Holds K P (State.throttleCount s d p) := by
  unfold State.throttleCount
  try dsimp only
  with_reducible repeat' first
    | intro _ | assumption | apply State.modSluice_keeps | apply Holds.ite | split | dsimp only

theorem State.admitPkt_keeps (s : State) (d : Die) (w : WPkt) (hs : Holds K P s) (hk_bridge : K .bridge = false)
    (hk_llus : K .llus = false) (hk_ops : K .ops = false) (hk_regs : K .regs = false) (hk_rtb : K .rtb = false)
    (hk_sluice : K .sluice = false) (hk_swc : K .swc = false) (hk_tru : K .tru = false) :
    Holds K P (State.admitPkt s d w) := by
  unfold State.admitPkt
  try dsimp only
  with_reducible repeat' first
   
    | (intro g x hg; cases g <;> first | exact absurd (hk_rtb.symm.trans hg) (by decide) | (with_unfolding_all exact dieSame_refl _ _) | (simp only [dieSame, and_self]))
    | intro _ | assumption | apply State.wfqAdmit_keeps | apply State.shapeCharge_keeps | apply State.police_keeps
    | apply State.throttleCount_keeps | apply State.sentSeq_keeps | apply State.unwait_keeps | apply State.when_keeps
    | apply State.modDie_keeps | apply State.countAdmit_keeps | apply State.injectAt_keeps | apply Holds.ite | apply Holds.ite1
    | refine Holds.of_fst (by assumption) ?_ | split | dsimp only

theorem State.admitCtl_keeps (s : State) (d : Die) (hs : Holds K P s) (hk_bridge : K .bridge = false)
    (hk_llus : K .llus = false) (hk_regs : K .regs = false) (hk_sluice : K .sluice = false) (hk_swc : K .swc = false) :
    HoldsS K P (State.admitCtl s d) := by
  unfold State.admitCtl
  try dsimp only
  with_reducible repeat' first
    | intro _ | assumption | apply State.modSluice_keeps | apply State.injectAt_keeps | apply State.countAdmit_keeps
    | apply Holds.ite | exact HoldsS.none | apply HoldsS.some | refine Holds.of_some (by assumption) ?_ | split | dsimp only

theorem execSluiceAdmit_keeps (d : Die) (lane : Fin 3) (s : State) (hs : Holds K P s) (hk_accesses : K .accesses = false)
    (hk_bridge : K .bridge = false) (hk_dmem : K .dmem = false) (hk_free : K .free = false) (hk_hag : K .hag = false)
    (hk_hold : K .hold = false) (hk_llus : K .llus = false) (hk_mem : K .mem = false) (hk_members : K .members = false)
    (hk_ops : K .ops = false) (hk_out : K .out = false) (hk_reads : K .reads = false) (hk_regs : K .regs = false)
    (hk_rtb : K .rtb = false) (hk_sluice : K .sluice = false) (hk_swc : K .swc = false) (hk_tru : K .tru = false)
    (hk_xlu : K .xlu = false) :
    HoldsO K P (execSluiceAdmit d lane s) := by
  unfold execSluiceAdmit
  try dsimp only
  with_reducible repeat' first
    | intro _ | assumption | apply State.admitCtl_keeps | apply State.throttleSync_keeps | apply State.sluicePrep_keeps
    | apply State.admitPkt_keeps | apply HoldsO.next | exact HoldsS.none | apply HoldsS.some
    | refine Holds.of_some (by assumption) ?_ | split | dsimp only

theorem State.slWrite_keeps (s : State) (d : Die) (e : Nat) (reg : Nat) (v : Nat) (hs : Holds K P s)
    (hk_regs : K .regs = false) (hk_sluice : K .sluice = false) :
    Holds K P (State.slWrite s d e reg v) := by
  unfold State.slWrite
  try dsimp only
  with_reducible repeat' first
    | intro _ | assumption | apply State.wr_keeps | apply State.wrs_keeps | apply State.modSluice_keeps | apply Holds.ite | split
    | dsimp only

theorem execSluiceEntryWrite_keeps (rq : Requester) (d : Die) (e : Fin 4097) (reg : Fin 7) (v : W64) (s : State)
    (hs : Holds K P s) (hk_regs : K .regs = false) (hk_sluice : K .sluice = false) :
    HoldsO K P (execSluiceEntryWrite rq d e reg v s) := by
  unfold execSluiceEntryWrite
  try dsimp only
  with_reducible repeat' first
    | intro _ | assumption | apply State.privViolation_keeps | apply State.slWrite_keeps | apply Holds.ite | apply HoldsO.next
    | split | dsimp only

end Sys2Proof.Machine
end

