-- ==== Sys2Proof/Laws/KeepRouting.lean ====
section
/-! SUPPORT. The operations of Routing.lean keep what the operations on registers and memory keep. -/

namespace Sys2Proof.Machine

set_option linter.all false
set_option linter.unusedTactic false
set_option linter.unreachableTactic false

variable {K : Grp → Bool} {P : State → Prop}

theorem State.modRtb_keeps (s : State) (d : Die) (f : Rtb → Rtb) (hs : Holds K P s) (hk_rtb : K .rtb = false) :
    Holds K P (State.modRtb s d f) := by
  unfold State.modRtb
  try dsimp only
  with_reducible repeat' first
   
    | (intro g x hg; cases g <;> first | exact absurd (hk_rtb.symm.trans hg) (by decide) | (with_unfolding_all exact dieSame_refl _ _) | (simp only [dieSame, and_self]))
    | intro _ | assumption | apply State.modDie_keeps | dsimp only

theorem State.choose_keeps {α : Type} (s : State) (d : Die) (p : Pkt) (l : List (α × Nat)) (hs : Holds K P s)
    (hk_free : K .free = false) :
    Holds K P (State.choose s d p l).1 := by
  unfold State.choose
  try dsimp only
  with_reducible repeat' first
    | intro _ | assumption | apply State.drawNat_keeps | apply Holds.ite | apply Holds.foldl | apply Holds.ite1 | apply Holds.foldl1
    | refine Holds.of_fst (by assumption) ?_ | split | dsimp only

theorem State.localHop_keeps (s : State) (c : RCtx) (p : Pkt) (r : Nat) (half : Nat) (rest : List Bool) (hs : Holds K P s)
    (hk_free : K .free = false) (hk_regs : K .regs = false) :
    Holds K P (State.localHop s c p r half rest).1 := by
  unfold State.localHop
  try dsimp only
  with_reducible repeat' first
    | intro _ | assumption | apply State.choose_keeps | apply State.bump_keeps | apply Holds.ite | apply Holds.ite1
    | refine Holds.of_fst (by assumption) ?_ | split | dsimp only

theorem State.globalHop_keeps (s : State) (c : RCtx) (p : Pkt) (slot : Nat) (rest : List Bool) (hs : Holds K P s) :
    Holds K P (State.globalHop s c p slot rest).1 := by
  unfold State.globalHop
  try dsimp only
  with_reducible repeat' first
    | intro _ | assumption | apply Holds.ite | apply Holds.ite1 | refine Holds.of_fst (by assumption) ?_ | split | dsimp only

theorem State.transitRoute_keeps (s : State) (c : RCtx) (p : Pkt) (hs : Holds K P s) (hk_free : K .free = false)
    (hk_regs : K .regs = false) :
    Holds K P (State.transitRoute s c p).1 := by
  unfold State.transitRoute
  try dsimp only
  with_reducible repeat' first
    | intro _ | assumption | apply State.localHop_keeps | apply State.choose_keeps | apply State.globalHop_keeps | apply Holds.ite
    | apply Holds.ite1 | refine Holds.of_fst (by assumption) ?_ | split | dsimp only

theorem State.draws_keeps (c : RCtx) (links : List (Nat × Nat × Nat)) (need : Bool) (a : Nat) (a' : Nat) (a'' : List Cand)
    (a''' : State) (ha''' : Holds K P a''') (hk_free : K .free = false) :
    Holds K P (State.draws c links need a a' a'' a''').1 := by
  induction a generalizing a' a'' a''' ha''' with
  | zero =>
    unfold State.draws
    try dsimp only
    with_reducible repeat' first
      | intro _ | assumption | apply ih | apply State.drawNat_keeps | apply Holds.ite | apply Holds.ite1
      | refine Holds.of_fst (by assumption) ?_ | split | dsimp only
  | succ n ih =>
    unfold State.draws
    try dsimp only
    with_reducible repeat' first
      | intro _ | assumption | apply ih | apply State.drawNat_keeps | apply Holds.ite | apply Holds.ite1
      | refine Holds.of_fst (by assumption) ?_ | split | dsimp only

theorem State.adaptive_keeps (s : State) (c : RCtx) (p : Pkt) (hs : Holds K P s) (hk_free : K .free = false) :
    Holds K P (State.adaptive s c p).1 := by
  unfold State.adaptive
  try dsimp only
  with_reducible repeat' first
    | intro _ | assumption | apply State.draws_keeps | apply Holds.ite | apply Holds.ite1 | refine Holds.of_fst (by assumption) ?_
    | split | dsimp only

theorem State.countDecision_keeps (s : State) (d : Die) (x : Cand × Bool) (hs : Holds K P s) (hk_regs : K .regs = false) :
    Holds K P (State.countDecision s d x) := by
  unfold State.countDecision
  try dsimp only
  with_reducible repeat' first
    | intro _ | assumption | apply State.when_keeps | apply State.bump_keeps | apply Holds.ite | apply Holds.ite1 | split
    | dsimp only

theorem State.firstHop_keeps (s : State) (c : RCtx) (p : Pkt) (hs : Holds K P s) (hk_free : K .free = false)
    (hk_regs : K .regs = false) (hk_rtb : K .rtb = false) :
    Holds K P (State.firstHop s c p).1 := by
  unfold State.firstHop
  try dsimp only
  with_reducible repeat' first
    | intro _ | assumption | apply State.adaptive_keeps | apply State.countDecision_keeps | apply State.modRtb_keeps
    | apply State.when_keeps | apply State.bump_keeps | apply Holds.ite | apply Holds.ite1 | refine Holds.of_fst (by assumption) ?_
    | split | dsimp only

theorem State.forwardFlow_keeps (s : State) (d : Die) (p : Pkt) (hs : Holds K P s) (hk_regs : K .regs = false)
    (hk_rtb : K .rtb = false) :
    Holds K P (State.forwardFlow s d p) := by
  unfold State.forwardFlow
  try dsimp only
  with_reducible repeat' first
    | intro _ | assumption | apply State.modRtb_keeps | apply State.bump_keeps | apply Holds.ite | split | dsimp only

theorem State.route_keeps (s : State) (d : Die) (p : Pkt) (injected : Bool) (hs : Holds K P s) (hk_free : K .free = false)
    (hk_regs : K .regs = false) (hk_rtb : K .rtb = false) :
    Holds K P (State.route s d p injected).1 := by
  unfold State.route
  try dsimp only
  with_reducible repeat' first
    | intro _ | assumption | apply State.localHop_keeps | apply State.firstHop_keeps | apply State.transitRoute_keeps
    | apply State.forwardFlow_keeps | apply Holds.ite | apply Holds.ite1 | refine Holds.of_fst (by assumption) ?_ | split
    | dsimp only

theorem State.routeDrop_keeps (s : State) (d : Die) (p : Pkt) (reason : Nat) (hs : Holds K P s) (hk_regs : K .regs = false) :
    Holds K P (State.routeDrop s d p reason) := by
  unfold State.routeDrop
  try dsimp only
  with_reducible repeat' first
    | intro _ | assumption | apply State.bump_keeps | apply State.wrs_keeps | apply Holds.ite | split | dsimp only

theorem State.asWarden_keeps (s : State) (rq : Requester) (d : Die) (off : Nat) (act : State → State) (hs : Holds K P s)
    (hact : ∀ x0, Holds K P x0 → Holds K P (act x0)) (hk_regs : K .regs = false) :
    Holds K P (State.asWarden s rq d off act) := by
  unfold State.asWarden
  try dsimp only
  with_reducible repeat' first
    | intro _ | assumption | apply State.privViolation_keeps | apply hact | apply Holds.ite | split | dsimp only

theorem State.myFeaWrite_keeps (s : State) (d : Die) (v : Nat) (hs : Holds K P s) (hk_regs : K .regs = false) :
    Holds K P (State.myFeaWrite s d v) := by
  unfold State.myFeaWrite
  try dsimp only
  with_reducible repeat' first
    | intro _ | assumption | apply State.wr_keeps | apply State.wrs_keeps | apply Holds.ite | split | dsimp only

theorem execMyFeaWrite_keeps (rq : Requester) (d : Die) (v : W64) (s : State) (hs : Holds K P s) (hk_regs : K .regs = false) :
    HoldsO K P (execMyFeaWrite rq d v s) := by
  unfold execMyFeaWrite
  try dsimp only
  with_reducible repeat' first
    | intro _ | assumption | apply State.asWarden_keeps | apply State.myFeaWrite_keeps | apply HoldsO.next | dsimp only

theorem State.tableWrite_keeps (s : State) (d : Die) (v : Nat) (table : Nat) (entry : Nat) (value : Nat) (hs : Holds K P s)
    (hk_regs : K .regs = false) :
    Holds K P (State.tableWrite s d v table entry value) := by
  unfold State.tableWrite
  try dsimp only
  with_reducible repeat' first
    | intro _ | assumption | apply State.wr_keeps | apply Holds.ite | split | dsimp only

theorem execRouteTableWrite_keeps (rq : Requester) (d : Die) (v : Fin 2) (table : Fin 3) (entry : Fin 4096) (value : W64)
    (s : State) (hs : Holds K P s) (hk_regs : K .regs = false) :
    HoldsO K P (execRouteTableWrite rq d v table entry value s) := by
  unfold execRouteTableWrite
  try dsimp only
  with_reducible repeat' first
    | intro _ | assumption | apply State.asWarden_keeps | apply State.tableWrite_keeps | apply HoldsO.next | dsimp only

theorem State.injectWrite_keeps (s : State) (d : Die) (v : Nat) (hs : Holds K P s) (hk_regs : K .regs = false) :
    Holds K P (State.injectWrite s d v) := by
  unfold State.injectWrite
  try dsimp only
  with_reducible repeat' first
    | intro _ | assumption | apply State.wr_keeps | apply Holds.ite | split | dsimp only

theorem execEpochInjectWrite_keeps (rq : Requester) (d : Die) (v : Fin 2) (s : State) (hs : Holds K P s)
    (hk_regs : K .regs = false) :
    HoldsO K P (execEpochInjectWrite rq d v s) := by
  unfold execEpochInjectWrite
  try dsimp only
  with_reducible repeat' first
    | intro _ | assumption | apply State.asWarden_keeps | apply State.injectWrite_keeps | apply HoldsO.next | dsimp only

theorem State.verCommand_keeps (s : State) (rq : Requester) (d : Die) (op : Nat) (v : Nat) (act : State → Except
    (Nat × Nat) State) (hs : Holds K P s) (hact : ∀ x0, Holds K P x0 → HoldsE K P (act x0)) (hk_regs : K .regs = false) :
    Holds K P (State.verCommand s rq d op v act) := by
  unfold State.verCommand
  try dsimp only
  with_reducible repeat' first
    | intro _ | assumption | apply State.asWarden_keeps | apply State.wr_keeps | apply State.wrs_keeps | apply hact
    | apply Holds.ite | exact HoldsE.error | apply HoldsE.ok | apply HoldsE.ite | exact HoldsEP.error | apply HoldsEP.ok
    | apply HoldsEP.ite | apply Holds.ite1 | refine Holds.of_fst (by assumption) ?_ | refine Holds.of_ok (by assumption) ?_
    | refine Holds.of_okP (by assumption) ?_ | split | dsimp only

theorem execValidate_keeps (rq : Requester) (d : Die) (v : Fin 2) (s : State) (hs : Holds K P s) (hk_regs : K .regs = false) :
    HoldsO K P (execValidate rq d v s) := by
  unfold execValidate
  try dsimp only
  with_reducible repeat' first
    | intro _ | assumption | apply State.verCommand_keeps | apply State.wr_keeps | apply Holds.ite | apply HoldsO.next
    | exact HoldsE.error | apply HoldsE.ok | apply HoldsE.ite | exact HoldsEP.error | apply HoldsEP.ok | apply HoldsEP.ite
    | apply Holds.ite1 | refine Holds.of_fst (by assumption) ?_ | refine Holds.of_ok (by assumption) ?_
    | refine Holds.of_okP (by assumption) ?_ | split | dsimp only

theorem execVersionInvalidate_keeps (rq : Requester) (d : Die) (v : Fin 2) (s : State) (hs : Holds K P s)
    (hk_regs : K .regs = false) :
    HoldsO K P (execVersionInvalidate rq d v s) := by
  unfold execVersionInvalidate
  try dsimp only
  with_reducible repeat' first
    | intro _ | assumption | apply State.verCommand_keeps | apply State.wr_keeps | apply Holds.ite | apply HoldsO.next
    | exact HoldsE.error | apply HoldsE.ok | apply HoldsE.ite | exact HoldsEP.error | apply HoldsEP.ok | apply HoldsEP.ite
    | apply Holds.ite1 | split | dsimp only

theorem State.sendStatus_keeps (s : State) (d : Die) (hs : Holds K P s) (hk_rtb : K .rtb = false)
    (hk_sluice : K .sluice = false) :
    Holds K P (State.sendStatus s d) := by
  unfold State.sendStatus
  try dsimp only
  with_reducible repeat' first
    | intro _ | assumption | apply State.modRtb_keeps | apply State.sendCtl_keeps | apply Holds.ite | apply Holds.foldl | split
    | dsimp only

theorem execGroupStatusPeriod_keeps (d : Die) (s : State) (hs : Holds K P s) (hk_rtb : K .rtb = false)
    (hk_sluice : K .sluice = false) :
    HoldsO K P (execGroupStatusPeriod d s) := by
  unfold execGroupStatusPeriod
  try dsimp only
  with_reducible repeat' first
    | intro _ | assumption | apply State.modRtb_keeps | apply State.sendStatus_keeps | apply Holds.ite | apply HoldsO.next | split
    | dsimp only

theorem State.putStatus_keeps (s : State) (d : Die) (r : Nat) (p : PeerStatus) (hs : Holds K P s) (hk_rtb : K .rtb = false) :
    Holds K P (State.putStatus s d r p) := by
  unfold State.putStatus
  try dsimp only
  with_reducible repeat' first
    | intro _ | assumption | apply State.modRtb_keeps | apply Holds.ite | split | dsimp only

theorem execGroupStatus_keeps (d : Die) (s : State) (hs : Holds K P s) (hk_rtb : K .rtb = false) :
    HoldsO K P (execGroupStatus d s) := by
  unfold execGroupStatus
  try dsimp only
  with_reducible repeat' first
    | intro _ | assumption | apply State.modRtb_keeps | apply State.putStatus_keeps | apply Holds.ite | apply HoldsO.next | split
    | dsimp only

theorem execPeerStale_keeps (d : Die) (r : Fin 32) (half : Fin 2) (s : State) (hs : Holds K P s) (hk_regs : K .regs = false)
    (hk_rtb : K .rtb = false) :
    HoldsO K P (execPeerStale d r half s) := by
  unfold execPeerStale
  try dsimp only
  with_reducible repeat' first
    | intro _ | assumption | apply State.modRtb_keeps | apply State.bump_keeps | apply Holds.ite | apply HoldsO.next | split
    | dsimp only

theorem State.reseed_keeps (s : State) (d : Die) (hs : Holds K P s) (hk_free : K .free = false) (hk_regs : K .regs = false)
    (hk_rtb : K .rtb = false) :
    Holds K P (State.reseed s d) := by
  unfold State.reseed
  try dsimp only
  with_reducible repeat' first
    | intro _ | assumption | apply State.draw_keeps | apply State.modRtb_keeps | apply State.bump_keeps | apply State.wrs_keeps
    | apply Holds.ite | split | dsimp only

theorem execReseed_keeps (rq : Requester) (d : Die) (s : State) (hs : Holds K P s) (hk_free : K .free = false)
    (hk_regs : K .regs = false) (hk_rtb : K .rtb = false) :
    HoldsO K P (execReseed rq d s) := by
  unfold execReseed
  try dsimp only
  with_reducible repeat' first
    | intro _ | assumption | apply State.asWarden_keeps | apply State.reseed_keeps | apply HoldsO.next | dsimp only

theorem execImbalanceWindow_keeps (d : Die) (s : State) (hs : Holds K P s) (hk_free : K .free = false)
    (hk_regs : K .regs = false) (hk_rtb : K .rtb = false) :
    HoldsO K P (execImbalanceWindow d s) := by
  unfold execImbalanceWindow
  try dsimp only
  with_reducible repeat' first
    | intro _ | assumption | apply State.modRtb_keeps | apply State.wrs_keeps | apply State.wr_keeps | apply State.reseed_keeps
    | apply Holds.ite | apply Holds.foldl | apply HoldsO.next | split | dsimp only

end Sys2Proof.Machine
end

