-- ==== Sys2Proof/Laws/KeepFaultLog.lean ====
section
/-! SUPPORT. The operations of FaultLog.lean keep what the operations on registers and memory keep. -/

namespace Sys2Proof.Machine

set_option linter.all false
set_option linter.unusedTactic false
set_option linter.unreachableTactic false

variable {K : Grp → Bool} {P : State → Prop}

theorem State.alert_keeps (s : State) (b : Nat) (hs : Holds K P s) (hk_out : K .out = false) (hk_regs : K .regs = false) :
    Holds K P (State.alert s b) := by
  unfold State.alert
  try dsimp only
  with_reducible repeat' first
    | intro _ | assumption | apply State.wr_keeps | apply State.when_keeps | apply State.emit_keeps | dsimp only

theorem State.sendMgt_keeps (s : State) (d : Die) (dest : Nat) (bytes : List Byte) (hs : Holds K P s)
    (hk_regs : K .regs = false) (hk_sluice : K .sluice = false) :
    Holds K P (State.sendMgt s d dest bytes) := by
  unfold State.sendMgt
  try dsimp only
  with_reducible repeat' first
    | intro _ | assumption | apply State.bump_keeps | apply State.sendCtl_keeps | dsimp only

theorem State.sendEvent_keeps (s : State) (e : EvRec) (hs : Holds K P s) (hk_regs : K .regs = false)
    (hk_sluice : K .sluice = false) (hk_svc : K .svc = false) :
    Holds K P (State.sendEvent s e) := by
  unfold State.sendEvent
  try dsimp only
  with_reducible repeat' first
    | intro _ | assumption | apply State.sendMgt_keeps | apply Holds.ite
    | simp only [Holds.upd, hk_svc, Bool.false_eq_true, false_implies, implies_true] | split | dsimp only

theorem State.putEvent_keeps (s : State) (e : EvRec) (hs : Holds K P s) (hk_faults : K .faults = false)
    (hk_out : K .out = false) (hk_regs : K .regs = false) (hk_sluice : K .sluice = false) (hk_svc : K .svc = false) :
    Holds K P (State.putEvent s e) := by
  unfold State.putEvent
  try dsimp only
  with_reducible repeat' first
    | intro _ | assumption | apply State.wrs_keeps | apply State.when_keeps | apply State.wr_keeps | apply State.alert_keeps
    | apply State.bump_keeps | apply State.sendEvent_keeps | apply Holds.ite
    | simp only [Holds.upd, hk_faults, Bool.false_eq_true, false_implies, implies_true] | split | dsimp only

theorem State.newSecond_keeps (s : State) (hs : Holds K P s) (hk_faults : K .faults = false) :
    Holds K P (State.newSecond s) := by
  unfold State.newSecond
  try dsimp only
  with_reducible repeat' first
    | intro _ | assumption | apply Holds.ite | simp only [Holds.upd, hk_faults, Bool.false_eq_true, false_implies, implies_true]
    | split | dsimp only

theorem State.modFm_keeps (s : State) (f : FaultMgr → FaultMgr) (hs : Holds K P s) (hk_faults : K .faults = false) :
    Holds K P (State.modFm s f) := by
  unfold State.modFm
  try dsimp only
  with_reducible repeat' first
    | intro _ | assumption | simp only [Holds.upd, hk_faults, Bool.false_eq_true, false_implies, implies_true] | dsimp only

theorem State.putLimited_keeps (s : State) (k : Nat) (e : EvRec) (hs : Holds K P s) (hk_faults : K .faults = false)
    (hk_out : K .out = false) (hk_regs : K .regs = false) (hk_sluice : K .sluice = false) (hk_svc : K .svc = false) :
    Holds K P (State.putLimited s k e) := by
  unfold State.putLimited
  try dsimp only
  with_reducible repeat' first
    | intro _ | assumption | apply State.modFm_keeps | apply State.putEvent_keeps | dsimp only

theorem State.logIn_keeps (s : State) (k : Nat) (e : EvRec) (hs : Holds K P s) (hk_faults : K .faults = false)
    (hk_out : K .out = false) (hk_regs : K .regs = false) (hk_sluice : K .sluice = false) (hk_svc : K .svc = false) :
    Holds K P (State.logIn s k e) := by
  unfold State.logIn
  try dsimp only
  with_reducible repeat' first
    | intro _ | assumption | apply State.modFm_keeps | apply State.putLimited_keeps | apply Holds.ite | split | dsimp only

theorem State.logEvent_keeps (s : State) (e : EvRec) (hs : Holds K P s) (hk_faults : K .faults = false)
    (hk_out : K .out = false) (hk_regs : K .regs = false) (hk_sluice : K .sluice = false) (hk_svc : K .svc = false) :
    Holds K P (State.logEvent s e) := by
  unfold State.logEvent
  try dsimp only
  with_reducible repeat' first
    | intro _ | assumption | apply State.logIn_keeps | apply State.newSecond_keeps | dsimp only

theorem State.event__keeps (s : State) (type : Nat) (cls : Nat) (d : Die) (index : Nat) (detail : Nat) (visible : Bool)
    (hs : Holds K P s) (hk_faults : K .faults = false) (hk_out : K .out = false) (hk_regs : K .regs = false)
    (hk_sluice : K .sluice = false) (hk_svc : K .svc = false) :
    Holds K P (State.event_ s type cls d index detail visible) := by
  unfold State.event_
  try dsimp only
  with_reducible repeat' first
    | intro _ | assumption | apply State.logEvent_keeps | dsimp only

theorem State.countRetired_keeps (s : State) (hs : Holds K P s) (hk_regs : K .regs = false) :
    Holds K P (State.countRetired s) := by
  unfold State.countRetired
  try dsimp only
  with_reducible repeat' first
    | intro _ | assumption | apply State.wrs_keeps | dsimp only

theorem State.recordRet_keeps (s : State) (cls : Nat) (d : Die) (index : Nat) (cause : Nat) (spare : Nat) (hs : Holds K P s)
    (hk_faults : K .faults = false) (hk_out : K .out = false) (hk_regs : K .regs = false) (hk_sluice : K .sluice = false)
    (hk_svc : K .svc = false) :
    Holds K P (State.recordRet s cls d index cause spare) := by
  unfold State.recordRet
  try dsimp only
  with_reducible repeat' first
    | intro _ | assumption | apply State.event__keeps | apply State.countRetired_keeps
    | simp only [Holds.upd, hk_faults, Bool.false_eq_true, false_implies, implies_true] | split | dsimp only

theorem State.clearRet_keeps (s : State) (k : Nat) (hs : Holds K P s) (hk_faults : K .faults = false)
    (hk_regs : K .regs = false) :
    Holds K P (State.clearRet s k) := by
  unfold State.clearRet
  try dsimp only
  with_reducible repeat' first
    | intro _ | assumption | apply State.countRetired_keeps
    | simp only [Holds.upd, hk_faults, Bool.false_eq_true, false_implies, implies_true] | dsimp only

end Sys2Proof.Machine
end

