-- ==== Sys2Proof/Laws/KeepBridge.lean ====
section
/-! SUPPORT. The operations of Bridge.lean keep what the operations on registers and memory keep. -/

namespace Sys2Proof.Machine

set_option linter.all false
set_option linter.unusedTactic false
set_option linter.unreachableTactic false

variable {K : Grp → Bool} {P : State → Prop}

theorem State.modBridge_keeps (s : State) (d : Die) (f : Bridge → Bridge) (hs : Holds K P s) (hk_bridge : K .bridge = false) :
    Holds K P (State.modBridge s d f) := by
  unfold State.modBridge
  try dsimp only
  with_reducible repeat' first
   
    | (intro g x hg; cases g <;> first | exact absurd (hk_bridge.symm.trans hg) (by decide) | (with_unfolding_all exact dieSame_refl _ _) | (simp only [dieSame, and_self]))
    | intro _ | assumption | apply State.modDie_keeps | dsimp only

theorem State.modBmod_keeps (s : State) (d : Die) (m : Nat) (f : BMod → BMod) (hs : Holds K P s)
    (hk_bridge : K .bridge = false) :
    Holds K P (State.modBmod s d m f) := by
  unfold State.modBmod
  try dsimp only
  with_reducible repeat' first
    | intro _ | assumption | apply State.modBridge_keeps | dsimp only

theorem State.showBridge_keeps (s : State) (hs : Holds K P s) (hk_regs : K .regs = false) :
    Holds K P (State.showBridge s) := by
  unfold State.showBridge
  try dsimp only
  with_reducible repeat' first
    | intro _ | assumption | apply State.wr_keeps | apply Holds.foldl | dsimp only

theorem State.owedNext_keeps (s : State) (d : Die) (hs : Holds K P s) (hk_bridge : K .bridge = false) :
    Holds K P (State.owedNext s d).1 := by
  unfold State.owedNext
  try dsimp only
  with_reducible repeat' first
    | intro _ | assumption | apply State.modBridge_keeps | refine Holds.of_fst (by assumption) ?_ | split | dsimp only

theorem State.sendBFlit_keeps (s : State) (d : Die) (m : Nat) (units : List BUnit) (hs : Holds K P s)
    (hk_bridge : K .bridge = false) :
    Holds K P (State.sendBFlit s d m units) := by
  unfold State.sendBFlit
  try dsimp only
  with_reducible repeat' first
    | intro _ | assumption | apply State.owedNext_keeps | apply State.modBmod_keeps | apply State.when_keeps
    | apply State.modBridge_keeps | refine Holds.of_fst (by assumption) ?_ | split | dsimp only

theorem State.takeStaged_keeps (d : Die) (a : List Nat) (a' : Nat) (a'' : State) (ha'' : Holds K P a'')
    (hk_swc : K .swc = false) :
    Holds K P (State.takeStaged d a a' a'').1 := by
  induction a generalizing a' a'' ha'' with
  | nil =>
    unfold State.takeStaged
    try dsimp only
    with_reducible repeat' first
      | intro _ | assumption | apply ih | apply State.modSwc_keeps | refine Holds.of_fst (by assumption) ?_ | split | dsimp only
  | cons x l ih =>
    unfold State.takeStaged
    try dsimp only
    with_reducible repeat' first
      | intro _ | assumption | apply ih | apply State.modSwc_keeps | refine Holds.of_fst (by assumption) ?_ | split | dsimp only

theorem State.takeNoc_keeps (s : State) (d : Die) (n : Nat) (hs : Holds K P s) (hk_bridge : K .bridge = false) :
    Holds K P (State.takeNoc s d n).1 := by
  unfold State.takeNoc
  try dsimp only
  with_reducible repeat' first
    | intro _ | assumption | apply State.modBridge_keeps | refine Holds.of_fst (by assumption) ?_ | split | dsimp only

theorem State.bridgeSend_keeps (d : Die) (a : Nat) (a' : State) (ha' : Holds K P a') (hk_bridge : K .bridge = false)
    (hk_swc : K .swc = false) :
    Holds K P (State.bridgeSend d a a') := by
  induction a generalizing a' ha' with
  | zero =>
    unfold State.bridgeSend
    try dsimp only
    with_reducible repeat' first
      | intro _ | assumption | apply ih | apply State.takeStaged_keeps | apply State.takeNoc_keeps | apply State.modBridge_keeps
      | apply State.sendBFlit_keeps | apply Holds.ite | apply Holds.ite1 | refine Holds.of_fst (by assumption) ?_ | split | dsimp only
  | succ n ih =>
    unfold State.bridgeSend
    try dsimp only
    with_reducible repeat' first
      | intro _ | assumption | apply ih | apply State.takeStaged_keeps | apply State.takeNoc_keeps | apply State.modBridge_keeps
      | apply State.sendBFlit_keeps | apply Holds.ite | apply Holds.ite1 | refine Holds.of_fst (by assumption) ?_ | split | dsimp only

theorem State.sendIdle_keeps (s : State) (d : Die) (m : Nat) (hs : Holds K P s) (hk_bridge : K .bridge = false) :
    Holds K P (State.sendIdle s d m) := by
  unfold State.sendIdle
  try dsimp only
  with_reducible repeat' first
    | intro _ | assumption | apply State.sendBFlit_keeps | apply Holds.ite | split | dsimp only

theorem State.bridgeTx_keeps (s : State) (d : Die) (hs : Holds K P s) (hk_bridge : K .bridge = false)
    (hk_swc : K .swc = false) :
    Holds K P (State.bridgeTx s d) := by
  unfold State.bridgeTx
  try dsimp only
  with_reducible repeat' first
    | intro _ | assumption | apply State.bridgeSend_keeps | apply State.sendIdle_keeps | apply Holds.ite | apply Holds.foldl | split
    | dsimp only

theorem State.modNoc_keeps (s : State) (d : Die) (f : Noc → Noc) (hs : Holds K P s) (hk_noc : K .noc = false) :
    Holds K P (State.modNoc s d f) := by
  unfold State.modNoc
  try dsimp only
  with_reducible repeat' first
   
    | (intro g x hg; cases g <;> first | exact absurd (hk_noc.symm.trans hg) (by decide) | (with_unfolding_all exact dieSame_refl _ _) | (simp only [dieSame, and_self]))
    | intro _ | assumption | apply State.modDie_keeps | dsimp only

theorem State.modNocLink_keeps (s : State) (d : Die) (k : Nat) (f : NocLink → NocLink) (hs : Holds K P s)
    (hk_noc : K .noc = false) :
    Holds K P (State.modNocLink s d k f) := by
  unfold State.modNocLink
  try dsimp only
  with_reducible repeat' first
    | intro _ | assumption | apply State.modNoc_keeps | dsimp only

theorem State.nocFromBridge_keeps (s : State) (d : Die) (cls : Nat) (bytes : List Byte) (hs : Holds K P s)
    (hk_bridge : K .bridge = false) (hk_noc : K .noc = false) :
    Holds K P (State.nocFromBridge s d cls bytes) := by
  unfold State.nocFromBridge
  try dsimp only
  with_reducible repeat' first
    | intro _ | assumption | apply State.modBridge_keeps | apply State.modNocLink_keeps | apply Holds.ite | split | dsimp only

theorem State.bunitIn_keeps (s : State) (d : Die) (a : BUnit) (hs : Holds K P s) (hk_bridge : K .bridge = false)
    (hk_llus : K .llus = false) (hk_noc : K .noc = false) (hk_regs : K .regs = false) (hk_sluice : K .sluice = false)
    (hk_swc : K .swc = false) :
    Holds K P (State.bunitIn s d a) := by
  unfold State.bunitIn
  try dsimp only
  with_reducible repeat' first
    | intro _ | assumption | apply State.unitIn_keeps | apply State.nocFromBridge_keeps | split | dsimp only

theorem State.resequence_keeps (d : Die) (a : Nat) (a' : State) (ha' : Holds K P a') (hk_bridge : K .bridge = false)
    (hk_llus : K .llus = false) (hk_noc : K .noc = false) (hk_regs : K .regs = false) (hk_sluice : K .sluice = false)
    (hk_swc : K .swc = false) :
    Holds K P (State.resequence d a a') := by
  induction a generalizing a' ha' with
  | zero =>
    unfold State.resequence
    try dsimp only
    with_reducible repeat' first
      | intro _ | assumption | apply ih | apply State.modBridge_keeps | apply State.bunitIn_keeps | apply Holds.foldl | split
      | dsimp only
  | succ n ih =>
    unfold State.resequence
    try dsimp only
    with_reducible repeat' first
      | intro _ | assumption | apply ih | apply State.modBridge_keeps | apply State.bunitIn_keeps | apply Holds.foldl | split
      | dsimp only

theorem State.replayBmod_keeps (s : State) (d : Die) (m : Nat) (hs : Holds K P s) (hk_bridge : K .bridge = false) :
    Holds K P (State.replayBmod s d m) := by
  unfold State.replayBmod
  try dsimp only
  with_reducible repeat' first
    | intro _ | assumption | apply State.modBmod_keeps | dsimp only

theorem State.creditIn_keeps (s : State) (d : Die) (k : Nat) (n : Nat) (hs : Holds K P s) (hk_bridge : K .bridge = false)
    (hk_swc : K .swc = false) :
    Holds K P (State.creditIn s d k n) := by
  unfold State.creditIn
  try dsimp only
  with_reducible repeat' first
    | intro _ | assumption | apply State.modSwc_keeps | apply State.modBridge_keeps | apply Holds.ite | split | dsimp only

theorem State.bflitFields_keeps (s : State) (d : Die) (m : Nat) (f : BFlit) (hs : Holds K P s) (hk_bridge : K .bridge = false)
    (hk_swc : K .swc = false) :
    Holds K P (State.bflitFields s d m f) := by
  unfold State.bflitFields
  try dsimp only
  with_reducible repeat' first
    | intro _ | assumption | apply State.creditIn_keeps | apply State.modBmod_keeps | apply State.when_keeps
    | apply State.replayBmod_keeps | split | dsimp only

theorem State.bflitIn_keeps (s : State) (d : Die) (m : Nat) (err : List (Nat × Byte)) (hs : Holds K P s)
    (hk_bridge : K .bridge = false) (hk_llus : K .llus = false) (hk_noc : K .noc = false) (hk_regs : K .regs = false)
    (hk_sluice : K .sluice = false) (hk_swc : K .swc = false) :
    Holds K P (State.bflitIn s d m err) := by
  unfold State.bflitIn
  try dsimp only
  with_reducible repeat' first
    | intro _ | assumption | apply State.modBmod_keeps | apply State.bflitFields_keeps | apply State.resequence_keeps
    | apply State.modBridge_keeps | apply Holds.ite | apply Holds.ite1 | refine Holds.of_fst (by assumption) ?_ | split | dsimp only

theorem execBridgeModuleSilent_keeps (d : Die) (m : Fin 16) (s : State) (hs : Holds K P s) (hk_bridge : K .bridge = false)
    (hk_regs : K .regs = false) :
    HoldsO K P (execBridgeModuleSilent d m s) := by
  unfold execBridgeModuleSilent
  try dsimp only
  with_reducible repeat' first
    | intro _ | assumption | apply State.modBmod_keeps | apply State.showBridge_keeps | apply Holds.ite | apply HoldsO.next | split
    | dsimp only

theorem State.fillPacket_keeps (s : State) (d : Die) (k : Nat) (hs : Holds K P s) (hk_bridge : K .bridge = false)
    (hk_llus : K .llus = false) (hk_regs : K .regs = false) (hk_sluice : K .sluice = false) (hk_swc : K .swc = false) :
    Holds K P (State.fillPacket s d k).1 := by
  unfold State.fillPacket
  try dsimp only
  with_reducible repeat' first
    | intro _ | assumption | apply State.modSwc_keeps | apply State.consumeAll_keeps | apply Holds.ite | apply Holds.ite1
    | refine Holds.of_fst (by assumption) ?_ | split | dsimp only

theorem State.nocOverService_keeps (s : State) (d : Die) (hs : Holds K P s) (hk_bridge : K .bridge = false)
    (hk_llus : K .llus = false) (hk_noc : K .noc = false) (hk_regs : K .regs = false) (hk_sluice : K .sluice = false)
    (hk_swc : K .swc = false) :
    Holds K P (State.nocOverService s d) := by
  unfold State.nocOverService
  try dsimp only
  with_reducible repeat' first
    | intro _ | assumption | apply State.bunitIn_keeps | apply Holds.foldl | dsimp only

theorem State.dropBridge_keeps (s : State) (d : Die) (hs : Holds K P s) (hk_bridge : K .bridge = false)
    (hk_llus : K .llus = false) (hk_regs : K .regs = false) (hk_sluice : K .sluice = false) (hk_swc : K .swc = false) :
    Holds K P (State.dropBridge s d) := by
  unfold State.dropBridge
  try dsimp only
  with_reducible repeat' first
    | intro _ | assumption | apply State.modBridge_keeps | apply State.modSwc_keeps | apply State.fillPacket_keeps
    | apply State.consumeAll_keeps | apply Holds.foldl | apply Holds.foldl1 | dsimp only

theorem State.split_keeps (s : State) (hs : Holds K P s) (hk_bridge : K .bridge = false) (hk_faults : K .faults = false)
    (hk_llus : K .llus = false) (hk_noc : K .noc = false) (hk_out : K .out = false) (hk_regs : K .regs = false)
    (hk_rtb : K .rtb = false) (hk_sluice : K .sluice = false) (hk_svc : K .svc = false) (hk_swc : K .swc = false) :
    Holds K P (State.split s) := by
  unfold State.split
  try dsimp only
  with_reducible repeat' first
    | intro _ | assumption | apply State.nocOverService_keeps | apply State.dropBridge_keeps | apply State.wr_keeps
    | apply State.wrs_keeps | apply State.modRtb_keeps | apply State.event__keeps | apply State.showBridge_keeps | apply Holds.ite
    | split | dsimp only

theorem State.moveFlits_keeps (d : Die) (a : List BFlit) (a' : Nat) (a'' : State) (ha'' : Holds K P a'')
    (hk_bridge : K .bridge = false) :
    Holds K P (State.moveFlits d a a' a'') := by
  induction a generalizing a' a'' ha'' with
  | nil =>
    unfold State.moveFlits
    try dsimp only
    with_reducible repeat' first
      | intro _ | assumption | apply ih | apply State.modBmod_keeps | apply Holds.ite | split | dsimp only
  | cons x l ih =>
    unfold State.moveFlits
    try dsimp only
    with_reducible repeat' first
      | intro _ | assumption | apply ih | apply State.modBmod_keeps | apply Holds.ite | split | dsimp only

theorem State.retireMod_keeps (s : State) (m : Nat) (cause : Nat) (hs : Holds K P s) (hk_bridge : K .bridge = false)
    (hk_faults : K .faults = false) (hk_llus : K .llus = false) (hk_noc : K .noc = false) (hk_out : K .out = false)
    (hk_regs : K .regs = false) (hk_rtb : K .rtb = false) (hk_sluice : K .sluice = false) (hk_svc : K .svc = false)
    (hk_swc : K .swc = false) :
    Holds K P (State.retireMod s m cause) := by
  unfold State.retireMod
  try dsimp only
  with_reducible repeat' first
    | intro _ | assumption | apply State.recordRet_keeps | apply State.modBmod_keeps | apply State.moveFlits_keeps
    | apply State.showBridge_keeps | apply State.split_keeps | apply Holds.ite | apply Holds.foldl | split | dsimp only

theorem execBridgeModuleRetrainDone_keeps (m : Fin 16) (ok : Bool) (s : State) (hs : Holds K P s)
    (hk_bridge : K .bridge = false) (hk_faults : K .faults = false) (hk_llus : K .llus = false) (hk_noc : K .noc = false)
    (hk_out : K .out = false) (hk_regs : K .regs = false) (hk_rtb : K .rtb = false) (hk_sluice : K .sluice = false)
    (hk_svc : K .svc = false) (hk_swc : K .swc = false) :
    HoldsO K P (execBridgeModuleRetrainDone m ok s) := by
  unfold execBridgeModuleRetrainDone
  try dsimp only
  with_reducible repeat' first
    | intro _ | assumption | apply State.modBmod_keeps | apply State.showBridge_keeps | apply State.retireMod_keeps
    | apply Holds.ite | apply HoldsO.next | split | dsimp only

end Sys2Proof.Machine
end

