-- ==== Sys2Proof/Laws/KeepSwitchCore.lean ====
section
/-! SUPPORT. The operations of SwitchCore.lean keep what the operations on registers and memory keep. -/

namespace Sys2Proof.Machine

set_option linter.all false
set_option linter.unusedTactic false
set_option linter.unreachableTactic false

variable {K : Grp → Bool} {P : State → Prop}

theorem State.redDrops_keeps (s : State) (d : Die) (p : Pkt) (q : Nat) (hs : Holds K P s) (hk_free : K .free = false) :
    Holds K P (State.redDrops s d p q).1 := by
  unfold State.redDrops
  try dsimp only
  with_reducible repeat' first
    | intro _ | assumption | apply State.drawNat_keeps | apply Holds.ite | apply Holds.ite1 | refine Holds.of_fst (by assumption) ?_
    | split | dsimp only

theorem State.redCount_keeps (s : State) (d : Die) (p : Pkt) (hs : Holds K P s) (hk_regs : K .regs = false) :
    Holds K P (State.redCount s d p) := by
  unfold State.redCount
  try dsimp only
  with_reducible repeat' first
    | intro _ | assumption | apply State.bump_keeps | apply State.wrs_keeps | apply State.event_keeps
    | apply State.polderCount_keeps | apply Holds.ite | split | dsimp only

theorem State.nameOutput_keeps (s : State) (d : Die) (k : Nat) (q : InPkt) (p : Pkt) (port : Nat) (vc : Nat)
    (hs : Holds K P s) (hk_bridge : K .bridge = false) (hk_free : K .free = false) (hk_llus : K .llus = false)
    (hk_regs : K .regs = false) (hk_sluice : K .sluice = false) (hk_swc : K .swc = false) :
    Holds K P (State.nameOutput s d k q p port vc) := by
  unfold State.nameOutput
  try dsimp only
  with_reducible repeat' first
    | intro _ | assumption | apply State.redDrops_keeps | apply State.dropHead_keeps | apply State.redCount_keeps
    | apply State.modSwc_keeps | apply Holds.ite | apply Holds.ite1 | refine Holds.of_fst (by assumption) ?_ | split | dsimp only

theorem State.pickBridge_keeps (s : State) (d : Die) (p : Pkt) (hs : Holds K P s) (hk_free : K .free = false) :
    Holds K P (State.pickBridge s d p).1 := by
  unfold State.pickBridge
  try dsimp only
  with_reducible repeat' first
    | intro _ | assumption | apply State.choose_keeps | apply Holds.ite | apply Holds.ite1 | refine Holds.of_fst (by assumption) ?_
    | split | dsimp only

theorem State.crossTo_keeps (s : State) (d : Die) (k : Nat) (q : InPkt) (p : Pkt) (xp : Nat) (cls : Nat) (hs : Holds K P s)
    (hk_bridge : K .bridge = false) (hk_free : K .free = false) (hk_llus : K .llus = false) (hk_regs : K .regs = false)
    (hk_sluice : K .sluice = false) (hk_swc : K .swc = false) :
    Holds K P (State.crossTo s d k q p xp cls) := by
  unfold State.crossTo
  try dsimp only
  with_reducible repeat' first
    | intro _ | assumption | apply State.pickBridge_keeps | apply State.nameOutput_keeps | refine Holds.of_fst (by assumption) ?_
    | split | dsimp only

theorem State.takeRoute_keeps (s : State) (d : Die) (k : Nat) (q : InPkt) (p : Pkt) (r : Route) (hs : Holds K P s)
    (hk_bridge : K .bridge = false) (hk_free : K .free = false) (hk_llus : K .llus = false) (hk_regs : K .regs = false)
    (hk_sluice : K .sluice = false) (hk_swc : K .swc = false) :
    Holds K P (State.takeRoute s d k q p r) := by
  unfold State.takeRoute
  try dsimp only
  with_reducible repeat' first
    | intro _ | assumption | apply State.dropHead_keeps | apply State.routeDrop_keeps | apply State.nameOutput_keeps
    | apply State.crossTo_keeps | apply Holds.ite | split | dsimp only

theorem State.routeHead_keeps (s : State) (d : Die) (k : Nat) (hs : Holds K P s) (hk_bridge : K .bridge = false)
    (hk_free : K .free = false) (hk_llus : K .llus = false) (hk_regs : K .regs = false) (hk_rtb : K .rtb = false)
    (hk_sluice : K .sluice = false) (hk_swc : K .swc = false) :
    Holds K P (State.routeHead s d k) := by
  unfold State.routeHead
  try dsimp only
  with_reducible repeat' first
    | intro _ | assumption | apply State.nameOutput_keeps | apply State.route_keeps | apply State.takeRoute_keeps | apply Holds.ite
    | apply Holds.ite1 | refine Holds.of_fst (by assumption) ?_ | split | dsimp only

theorem execRoutePacket_keeps (d : Die) (k : Fin 2560) (s : State) (hs : Holds K P s) (hk_bridge : K .bridge = false)
    (hk_free : K .free = false) (hk_llus : K .llus = false) (hk_regs : K .regs = false) (hk_rtb : K .rtb = false)
    (hk_sluice : K .sluice = false) (hk_swc : K .swc = false) :
    HoldsO K P (execRoutePacket d k s) := by
  unfold execRoutePacket
  try dsimp only
  with_reducible repeat' first
    | intro _ | assumption | apply State.routeHead_keeps | apply HoldsO.next | dsimp only

theorem State.uncredit_keeps (s : State) (d : Die) (port : Nat) (u : OUnit) (hs : Holds K P s) (hk_swc : K .swc = false) :
    Holds K P (State.uncredit s d port u) := by
  unfold State.uncredit
  try dsimp only
  with_reducible repeat' first
    | intro _ | assumption | apply State.modSwc_keeps | apply Holds.ite | split | dsimp only

theorem State.dropStaged_keeps (s : State) (d : Die) (port : Nat) (u : OUnit) (hs : Holds K P s)
    (hk_bridge : K .bridge = false) (hk_llus : K .llus = false) (hk_regs : K .regs = false) (hk_sluice : K .sluice = false)
    (hk_swc : K .swc = false) :
    Holds K P (State.dropStaged s d port u) := by
  unfold State.dropStaged
  try dsimp only
  with_reducible repeat' first
    | intro _ | assumption | apply State.uncredit_keeps | apply State.modSwc_keeps | apply State.routeDrop_keeps
    | apply State.dropHead_keeps | apply Holds.ite | apply Holds.foldl | split | dsimp only

theorem execHoldLimitExpiry_keeps (d : Die) (place : HoldAt) (s : State) (hs : Holds K P s) (hk_bridge : K .bridge = false)
    (hk_llus : K .llus = false) (hk_regs : K .regs = false) (hk_sluice : K .sluice = false) (hk_swc : K .swc = false) :
    HoldsO K P (execHoldLimitExpiry d place s) := by
  unfold execHoldLimitExpiry
  try dsimp only
  with_reducible repeat' first
    | intro _ | assumption | apply State.dropHead_keeps | apply State.routeDrop_keeps | apply State.dropStaged_keeps
    | apply Holds.ite | apply HoldsO.next | split | dsimp only

theorem State.afterMatch_keeps (s : State) (d : Die) (ws : List Want) (m : Match_) (hs : Holds K P s)
    (hk_swc : K .swc = false) :
    Holds K P (State.afterMatch s d ws m) := by
  unfold State.afterMatch
  try dsimp only
  with_reducible repeat' first
    | intro _ | assumption | apply State.modSwc_keeps | apply Holds.ite | apply Holds.foldl | split | dsimp only

theorem State.countGrant_keeps (s : State) (d : Die) (port : Nat) (p : Pkt) (mark : Bool) (hs : Holds K P s)
    (hk_regs : K .regs = false) (hk_rtb : K .rtb = false) :
    Holds K P (State.countGrant s d port p mark) := by
  unfold State.countGrant
  try dsimp only
  with_reducible repeat' first
    | intro _ | assumption | apply State.countBy_keeps | apply State.event_keeps | apply State.when_keeps | apply State.bump_keeps
    | apply State.modRtb_keeps | dsimp only

theorem State.moveUnit_keeps (at_ : State) (s : State) (d : Die) (w : Want) (hat_ : Holds K P at_) (hs : Holds K P s)
    (hk_bridge : K .bridge = false) (hk_llus : K .llus = false) (hk_regs : K .regs = false) (hk_rtb : K .rtb = false)
    (hk_sluice : K .sluice = false) (hk_swc : K .swc = false) :
    Holds K P (State.moveUnit at_ s d w) := by
  unfold State.moveUnit
  try dsimp only
  with_reducible repeat' first
    | intro _ | assumption | apply State.takeCredit_keeps | apply State.modSwc_keeps | apply State.when_keeps
    | apply State.countGrant_keeps | apply State.unitOut_keeps | apply Holds.ite | exact HoldsSP.none | apply HoldsSP.some
    | refine Holds.of_someP (by assumption) ?_ | split | dsimp only

theorem State.countStalls_keeps (s : State) (d : Die) (waiting : List Want) (ws : List Want) (ms : List Match_)
    (hs : Holds K P s) (hk_regs : K .regs = false) :
    Holds K P (State.countStalls s d waiting ws ms) := by
  unfold State.countStalls
  try dsimp only
  with_reducible repeat' first
    | intro _ | assumption | apply State.countBy_keeps | apply State.event_keeps | apply Holds.foldl | dsimp only

theorem execCrossbarAllocation_keeps (d : Die) (s : State) (hs : Holds K P s) (hk_bridge : K .bridge = false)
    (hk_llus : K .llus = false) (hk_regs : K .regs = false) (hk_rtb : K .rtb = false) (hk_sluice : K .sluice = false)
    (hk_swc : K .swc = false) :
    HoldsO K P (execCrossbarAllocation d s) := by
  unfold execCrossbarAllocation
  try dsimp only
  with_reducible repeat' first
    | intro _ | assumption | apply State.countStalls_keeps | apply State.when_keeps | apply State.afterMatch_keeps
    | apply State.moveUnit_keeps | apply State.modSwc_keeps | apply State.bridgeTx_keeps | apply State.pumpAll_keeps
    | apply Holds.foldl | apply HoldsO.next | dsimp only

theorem State.toTru_keeps (s : State) (d : Die) (p : Pkt) (r : Option Nat) (hs : Holds K P s) (hk_tru : K .tru = false) :
    Holds K P (State.toTru s d p r) := by
  unfold State.toTru
  try dsimp only
  with_reducible repeat' first
    | intro _ | assumption | apply State.modTru_keeps | exact HoldsS.none | apply HoldsS.some | dsimp only

theorem State.mgtIn_keeps (s : State) (d : Die) (p : Pkt) (since : Nat) (hs : Holds K P s) (hk_regs : K .regs = false)
    (hk_svc : K .svc = false) (hk_time : K .time = false) :
    Holds K P (State.mgtIn s d p since) := by
  unfold State.mgtIn
  try dsimp only
  with_reducible repeat' first
   
    | (intro g x hg; cases g <;> first | exact absurd (hk_time.symm.trans hg) (by decide) | (with_unfolding_all exact dieSame_refl _ _) | (simp only [dieSame, and_self]))
    | intro _ | assumption | apply State.modDie_keeps | apply State.bump_keeps | apply Holds.ite
    | simp only [Holds.upd, hk_svc, Bool.false_eq_true, false_implies, implies_true] | split | dsimp only

theorem execPacketEjected_keeps (d : Die) (s : State) (hs : Holds K P s) (hk_regs : K .regs = false) (hk_rtb : K .rtb = false)
    (hk_svc : K .svc = false) (hk_swc : K .swc = false) (hk_time : K .time = false) (hk_tru : K .tru = false) :
    HoldsO K P (execPacketEjected d s) := by
  unfold execPacketEjected
  try dsimp only
  with_reducible repeat' first
    | intro _ | assumption | apply State.modSwc_keeps | apply State.bump_keeps | apply State.mgtIn_keeps | apply State.modRtb_keeps
    | apply State.modTru_keeps | apply State.toTru_keeps | apply State.polderCount_keeps | apply State.ejectDrop_keeps
    | apply Holds.ite | apply HoldsO.next | split | dsimp only

end Sys2Proof.Machine
end

