-- ==== Sys2Proof/Laws/KeepLink.lean ====
section
/-! SUPPORT. The operations of Link.lean keep what the operations on registers and memory keep. -/

namespace Sys2Proof.Machine

set_option linter.all false
set_option linter.unusedTactic false
set_option linter.unreachableTactic false

variable {K : Grp → Bool} {P : State → Prop}

theorem State.setLlu_keeps (s : State) (d : Die) (i : Nat) (l : Llu) (hs : Holds K P s) (hk_llus : K .llus = false) :
    Holds K P (State.setLlu s d i l) := by
  unfold State.setLlu
  try dsimp only
  with_reducible repeat' first
   
    | (intro g x hg; cases g <;> first | exact absurd (hk_llus.symm.trans hg) (by decide) | (with_unfolding_all exact dieSame_refl _ _) | (simp only [dieSame, and_self]))
    | intro _ | assumption | apply State.modDie_keeps | dsimp only

theorem State.modLlu_keeps (s : State) (d : Die) (i : Nat) (f : Llu → Llu) (hs : Holds K P s) (hk_llus : K .llus = false) :
    Holds K P (State.modLlu s d i f) := by
  unfold State.modLlu
  try dsimp only
  with_reducible repeat' first
    | intro _ | assumption | apply State.setLlu_keeps | dsimp only

theorem State.liveChange_keeps (s : State) (hs : Holds K P s) (hk_rtb : K .rtb = false) :
    Holds K P (State.liveChange s) := by
  unfold State.liveChange
  try dsimp only
  with_reducible repeat' first
    | intro _ | assumption | apply State.modRtb_keeps | dsimp only

theorem State.setLink_keeps (s : State) (d : Die) (i : Nat) (st : Nat) (hs : Holds K P s) (hk_regs : K .regs = false)
    (hk_rtb : K .rtb = false) :
    Holds K P (State.setLink s d i st) := by
  unfold State.setLink
  try dsimp only
  with_reducible repeat' first
    | intro _ | assumption | apply State.when_keeps | apply State.wr_keeps | apply State.liveChange_keeps | dsimp only

theorem State.modLane_keeps (s : State) (d : Die) (n : Nat) (f : Lane → Lane) (hs : Holds K P s) (hk_lanes : K .lanes = false) :
    Holds K P (State.modLane s d n f) := by
  unfold State.modLane
  try dsimp only
  with_reducible repeat' first
   
    | (intro g x hg; cases g <;> first | exact absurd (hk_lanes.symm.trans hg) (by decide) | (with_unfolding_all exact dieSame_refl _ _) | (simp only [dieSame, and_self]))
    | intro _ | assumption | apply State.modDie_keeps | dsimp only

theorem State.codeReset_keeps (s : State) (d : Die) (i : Nat) (hs : Holds K P s) (hk_lanes : K .lanes = false)
    (hk_llus : K .llus = false) :
    Holds K P (State.codeReset s d i) := by
  unfold State.codeReset
  try dsimp only
  with_reducible repeat' first
    | intro _ | assumption | apply State.modLlu_keeps | apply State.modLane_keeps | apply Holds.foldl | dsimp only

theorem State.laneStep_keeps (s : State) (d : Die) (n : Nat) (st : Nat) (hs : Holds K P s) (hk_lanes : K .lanes = false)
    (hk_llus : K .llus = false) (hk_regs : K .regs = false) :
    Holds K P (State.laneStep s d n st) := by
  unfold State.laneStep
  try dsimp only
  with_reducible repeat' first
    | intro _ | assumption | apply State.when_keeps | apply State.modLane_keeps | apply State.wr_keeps | apply State.codeReset_keeps
    | dsimp only

theorem State.pllRest_keeps (s : State) (d : Die) (q : Nat) (hs : Holds K P s) (hk_lanes : K .lanes = false) :
    Holds K P (State.pllRest s d q) := by
  unfold State.pllRest
  try dsimp only
  with_reducible repeat' first
   
    | (intro g x hg; cases g <;> first | exact absurd (hk_lanes.symm.trans hg) (by decide) | (with_unfolding_all exact dieSame_refl _ _) | (simp only [dieSame, and_self]))
    | intro _ | assumption | apply State.modDie_keeps | apply Holds.ite | split | dsimp only

theorem State.laneOff_keeps (s : State) (d : Die) (n : Nat) (hs : Holds K P s) (hk_lanes : K .lanes = false)
    (hk_regs : K .regs = false) :
    Holds K P (State.laneOff s d n) := by
  unfold State.laneOff
  try dsimp only
  with_reducible repeat' first
    | intro _ | assumption | apply State.pllRest_keeps | apply State.modLane_keeps | apply State.wrs_keeps | apply Holds.ite | split
    | dsimp only

theorem State.laneStart_keeps (s : State) (d : Die) (n : Nat) (rate : Nat) (full : Bool) (hs : Holds K P s)
    (hk_lanes : K .lanes = false) (hk_llus : K .llus = false) (hk_regs : K .regs = false) :
    Holds K P (State.laneStart s d n rate full) := by
  unfold State.laneStart
  try dsimp only
  with_reducible repeat' first
   
    | (intro g x hg; cases g <;> first | exact absurd (hk_lanes.symm.trans hg) (by decide) | (with_unfolding_all exact dieSame_refl _ _) | (simp only [dieSame, and_self]))
    | intro _ | assumption | apply State.wrs_keeps | apply State.modLane_keeps | apply State.when_keeps
    | apply State.codeReset_keeps | apply State.modDie_keeps | apply Holds.ite | split | dsimp only

theorem State.trainPort_keeps (s : State) (d : Die) (i : Nat) (full : Bool) (hs : Holds K P s) (hk_lanes : K .lanes = false)
    (hk_llus : K .llus = false) (hk_regs : K .regs = false) :
    Holds K P (State.trainPort s d i full) := by
  unfold State.trainPort
  try dsimp only
  with_reducible repeat' first
    | intro _ | assumption | apply State.laneStart_keeps | apply State.laneOff_keeps | apply Holds.ite | apply Holds.foldl | split
    | dsimp only

theorem State.attempt_keeps (s : State) (d : Die) (i : Nat) (full : Bool) (hs : Holds K P s) (hk_lanes : K .lanes = false)
    (hk_llus : K .llus = false) (hk_regs : K .regs = false) (hk_rtb : K .rtb = false) :
    Holds K P (State.attempt s d i full) := by
  unfold State.attempt
  try dsimp only
  with_reducible repeat' first
    | intro _ | assumption | apply State.setLlu_keeps | apply State.trainPort_keeps | apply State.setLink_keeps | apply Holds.ite
    | split | dsimp only

theorem State.sendBlock_keeps (s : State) (d : Die) (n : Nat) (phase : Nat) (b : List Byte) (hs : Holds K P s)
    (hk_lanes : K .lanes = false) (hk_out : K .out = false) :
    Holds K P (State.sendBlock s d n phase b) := by
  unfold State.sendBlock
  try dsimp only
  with_reducible repeat' first
    | intro _ | assumption | apply State.emit_keeps | apply State.modLane_keeps | apply Holds.ite | apply Holds.foldl | split
    | dsimp only

theorem State.layFlit_keeps (s : State) (d : Die) (i : Nat) (b : List Byte) (hs : Holds K P s) (hk_lanes : K .lanes = false)
    (hk_llus : K .llus = false) (hk_out : K .out = false) :
    Holds K P (State.layFlit s d i b) := by
  unfold State.layFlit
  try dsimp only
  with_reducible repeat' first
    | intro _ | assumption | apply State.sendBlock_keeps | apply State.modLlu_keeps | apply Holds.ite | apply Holds.foldl | split
    | dsimp only

theorem State.emitFlit_keeps (s : State) (d : Die) (i : Nat) (type : Nat) (uds : Nat) (units : List Byte) (seq : Nat)
    (hs : Holds K P s) (hk_lanes : K .lanes = false) (hk_llus : K .llus = false) (hk_out : K .out = false) :
    Holds K P (State.emitFlit s d i type uds units seq) := by
  unfold State.emitFlit
  try dsimp only
  with_reducible repeat' first
    | intro _ | assumption | apply State.layFlit_keeps | apply State.emit_keeps | apply State.setLlu_keeps | dsimp only

theorem State.idleContent_keeps (s : State) (d : Die) (i : Nat) (hs : Holds K P s) (hk_lanes : K .lanes = false)
    (hk_llus : K .llus = false) (hk_out : K .out = false) :
    Holds K P (State.idleContent s d i) := by
  unfold State.idleContent
  try dsimp only
  with_reducible repeat' first
    | intro _ | assumption | apply State.layFlit_keeps | apply Holds.ite | split | dsimp only

theorem State.takeUnits_keeps (d : Die) (a : List Nat) (a' : Nat) (a'' : State) (ha'' : Holds K P a'')
    (hk_swc : K .swc = false) :
    Holds K P (State.takeUnits d a a' a'').1 := by
  induction a generalizing a' a'' ha'' with
  | nil =>
    unfold State.takeUnits
    try dsimp only
    with_reducible repeat' first
      | intro _ | assumption | apply ih | apply State.modSwc_keeps | refine Holds.of_fst (by assumption) ?_ | split | dsimp only
  | cons x l ih =>
    unfold State.takeUnits
    try dsimp only
    with_reducible repeat' first
      | intro _ | assumption | apply ih | apply State.modSwc_keeps | refine Holds.of_fst (by assumption) ?_ | split | dsimp only

theorem State.retrain_keeps (s : State) (d : Die) (i : Nat) (cause : Nat) (hs : Holds K P s) (hk_lanes : K .lanes = false)
    (hk_llus : K .llus = false) (hk_regs : K .regs = false) (hk_rtb : K .rtb = false) :
    Holds K P (State.retrain s d i cause) := by
  unfold State.retrain
  try dsimp only
  with_reducible repeat' first
    | intro _ | assumption | apply State.setLlu_keeps | apply State.when_keeps | apply State.wrs_keeps | apply State.attempt_keeps
    | apply State.wr_keeps | apply Holds.ite | split | dsimp only

theorem State.beginReplay_keeps (s : State) (d : Die) (i : Nat) (from_ : Nat) (count : Fld) (hs : Holds K P s)
    (hk_lanes : K .lanes = false) (hk_llus : K .llus = false) (hk_regs : K .regs = false) (hk_rtb : K .rtb = false) :
    Holds K P (State.beginReplay s d i from_ count) := by
  unfold State.beginReplay
  try dsimp only
  with_reducible repeat' first
    | intro _ | assumption | apply State.retrain_keeps | apply State.modLlu_keeps | apply State.bump_keeps | apply Holds.ite | split
    | dsimp only

theorem State.sendReplay_keeps (s : State) (d : Die) (i : Nat) (f : TxFlit) (hs : Holds K P s) (hk_lanes : K .lanes = false)
    (hk_llus : K .llus = false) (hk_out : K .out = false) (hk_regs : K .regs = false) :
    Holds K P (State.sendReplay s d i f) := by
  unfold State.sendReplay
  try dsimp only
  with_reducible repeat' first
    | intro _ | assumption | apply State.emitFlit_keeps | apply State.bump_keeps | apply State.modLlu_keeps | apply Holds.ite
    | split | dsimp only

theorem State.sendData_keeps (s : State) (d : Die) (i : Nat) (units : List OUnit) (hs : Holds K P s)
    (hk_lanes : K .lanes = false) (hk_llus : K .llus = false) (hk_out : K .out = false) (hk_regs : K .regs = false) :
    Holds K P (State.sendData s d i units) := by
  unfold State.sendData
  try dsimp only
  with_reducible repeat' first
    | intro _ | assumption | apply State.bump_keeps | apply State.emitFlit_keeps | apply State.modLlu_keeps | split | dsimp only

theorem State.slotFlit_keeps (s : State) (d : Die) (i : Nat) (hs : Holds K P s) (hk_lanes : K .lanes = false)
    (hk_llus : K .llus = false) (hk_out : K .out = false) (hk_regs : K .regs = false) (hk_swc : K .swc = false) :
    Holds K P (State.slotFlit s d i) := by
  unfold State.slotFlit
  try dsimp only
  with_reducible repeat' first
    | intro _ | assumption | apply State.emitFlit_keeps | apply State.takeUnits_keeps | apply State.sendData_keeps | apply Holds.ite
    | apply Holds.ite1 | refine Holds.of_fst (by assumption) ?_ | split | dsimp only

theorem execFlitSlot_keeps (d : Die) (i : Fin 64) (s : State) (hs : Holds K P s) (hk_lanes : K .lanes = false)
    (hk_llus : K .llus = false) (hk_out : K .out = false) (hk_regs : K .regs = false) (hk_swc : K .swc = false) :
    HoldsO K P (execFlitSlot d i s) := by
  unfold execFlitSlot
  try dsimp only
  with_reducible repeat' first
    | intro _ | assumption | apply State.idleContent_keeps | apply State.sendReplay_keeps | apply State.emitFlit_keeps
    | apply State.modLlu_keeps | apply State.slotFlit_keeps | apply Holds.ite | apply HoldsO.next | split | dsimp only

theorem State.sendNeg_keeps (s : State) (d : Die) (i : Nat) (phase : Nat) (reason : Nat) (hs : Holds K P s)
    (hk_lanes : K .lanes = false) (hk_llus : K .llus = false) (hk_out : K .out = false) :
    Holds K P (State.sendNeg s d i phase reason) := by
  unfold State.sendNeg
  try dsimp only
  with_reducible repeat' first
    | intro _ | assumption | apply State.emitFlit_keeps | apply State.modLlu_keeps | dsimp only

theorem State.showPartner_keeps (s : State) (d : Die) (i : Nat) (u : List Byte) (hs : Holds K P s) (hk_regs : K .regs = false) :
    Holds K P (State.showPartner s d i u) := by
  unfold State.showPartner
  try dsimp only
  with_reducible repeat' first
    | intro _ | assumption | apply State.wrs_keeps | dsimp only

theorem State.addCredit_keeps (s : State) (d : Die) (i : Nat) (ch : Nat) (n : Nat) (hs : Holds K P s)
    (hk_swc : K .swc = false) :
    Holds K P (State.addCredit s d i ch n) := by
  unfold State.addCredit
  try dsimp only
  with_reducible repeat' first
    | intro _ | assumption | apply State.modSwc_keeps | apply Holds.ite | split | dsimp only

theorem State.creditTotal_keeps (s : State) (d : Die) (i : Nat) (ch : Nat) (total : Nat) (modulus : Nat) (hs : Holds K P s)
    (hk_llus : K .llus = false) (hk_swc : K .swc = false) :
    Holds K P (State.creditTotal s d i ch total modulus) := by
  unfold State.creditTotal
  try dsimp only
  with_reducible repeat' first
    | intro _ | assumption | apply State.addCredit_keeps | apply State.setLlu_keeps | dsimp only

theorem State.dropTx_keeps (s : State) (d : Die) (i : Nat) (hs : Holds K P s) (hk_bridge : K .bridge = false)
    (hk_llus : K .llus = false) (hk_regs : K .regs = false) (hk_sluice : K .sluice = false) (hk_swc : K .swc = false) :
    Holds K P (State.dropTx s d i).1 := by
  unfold State.dropTx
  try dsimp only
  with_reducible repeat' first
    | intro _ | assumption | apply State.modLlu_keeps | apply State.modSwc_keeps | apply State.dropHead_keeps | apply Holds.foldl
    | apply Holds.foldl1 | dsimp only

theorem State.fillPort_keeps (s : State) (d : Die) (i : Nat) (hs : Holds K P s) (hk_bridge : K .bridge = false)
    (hk_llus : K .llus = false) (hk_regs : K .regs = false) (hk_sluice : K .sluice = false) (hk_swc : K .swc = false) :
    Holds K P (State.fillPort s d i) := by
  unfold State.fillPort
  try dsimp only
  with_reducible repeat' first
    | intro _ | assumption | apply State.fillPacket_keeps | apply State.bump_keeps | apply Holds.foldl | apply Holds.foldl1
    | refine Holds.of_fst (by assumption) ?_ | split | dsimp only

theorem State.freshCredits_keeps (s : State) (d : Die) (i : Nat) (u : List Byte) (hs : Holds K P s)
    (hk_regs : K .regs = false) (hk_swc : K .swc = false) :
    Holds K P (State.freshCredits s d i u) := by
  unfold State.freshCredits
  try dsimp only
  with_reducible repeat' first
    | intro _ | assumption | apply State.modSwc_keeps | apply State.wr_keeps | apply State.addCredit_keeps | apply Holds.ite
    | apply Holds.foldl | split | dsimp only

theorem State.resumeLink_keeps (s : State) (d : Die) (i : Nat) (u : List Byte) (hs : Holds K P s) (hk_llus : K .llus = false)
    (hk_swc : K .swc = false) :
    Holds K P (State.resumeLink s d i u) := by
  unfold State.resumeLink
  try dsimp only
  with_reducible repeat' first
    | intro _ | assumption | apply State.modLlu_keeps | apply State.creditTotal_keeps | apply Holds.ite | apply Holds.foldl | split
    | dsimp only

theorem State.freshInst_keeps (s : State) (d : Die) (i : Nat) (hs : Holds K P s) (hk_free : K .free = false)
    (hk_llus : K .llus = false) :
    Holds K P (State.freshInst s d i) := by
  unfold State.freshInst
  try dsimp only
  with_reducible repeat' first
    | intro _ | assumption | apply State.draw_keeps | apply State.modLlu_keeps | apply Holds.ite | split | dsimp only

theorem State.freshLink_keeps (s : State) (d : Die) (i : Nat) (u : List Byte) (hs : Holds K P s)
    (hk_bridge : K .bridge = false) (hk_free : K .free = false) (hk_llus : K .llus = false) (hk_regs : K .regs = false)
    (hk_sluice : K .sluice = false) (hk_swc : K .swc = false) :
    Holds K P (State.freshLink s d i u) := by
  unfold State.freshLink
  try dsimp only
  with_reducible repeat' first
    | intro _ | assumption | apply State.fillPort_keeps | apply State.dropTx_keeps | apply State.freshInst_keeps
    | apply State.modLlu_keeps | apply State.freshCredits_keeps | apply Holds.ite | apply Holds.ite1 | split | dsimp only

theorem State.linkActive_keeps (s : State) (d : Die) (i : Nat) (u : List Byte) (hs : Holds K P s)
    (hk_bridge : K .bridge = false) (hk_free : K .free = false) (hk_llus : K .llus = false) (hk_regs : K .regs = false)
    (hk_rtb : K .rtb = false) (hk_sluice : K .sluice = false) (hk_swc : K .swc = false) :
    Holds K P (State.linkActive s d i u) := by
  unfold State.linkActive
  try dsimp only
  with_reducible repeat' first
    | intro _ | assumption | apply State.resumeLink_keeps | apply State.freshLink_keeps | apply State.modLlu_keeps
    | apply State.wrs_keeps | apply State.bump_keeps | apply State.wr_keeps | apply State.setLink_keeps | apply Holds.ite | split
    | dsimp only

theorem State.flitFail_keeps (s : State) (d : Die) (i : Nat) (hs : Holds K P s) (hk_llus : K .llus = false)
    (hk_regs : K .regs = false) :
    Holds K P (State.flitFail s d i) := by
  unfold State.flitFail
  try dsimp only
  with_reducible repeat' first
    | intro _ | assumption | apply State.bump_keeps | apply State.modLlu_keeps | apply Holds.ite | split | dsimp only

theorem State.ackFlits_keeps (s : State) (d : Die) (i : Nat) (a : Nat) (hs : Holds K P s) (hk_llus : K .llus = false) :
    Holds K P (State.ackFlits s d i a) := by
  unfold State.ackFlits
  try dsimp only
  with_reducible repeat' first
    | intro _ | assumption | apply State.modLlu_keeps | apply Holds.ite | apply Holds.foldl | split | dsimp only

theorem State.nackIn_keeps (s : State) (d : Die) (i : Nat) (a : Nat) (hs : Holds K P s) (hk_lanes : K .lanes = false)
    (hk_llus : K .llus = false) (hk_regs : K .regs = false) (hk_rtb : K .rtb = false) :
    Holds K P (State.nackIn s d i a) := by
  unfold State.nackIn
  try dsimp only
  with_reducible repeat' first
    | intro _ | assumption | apply State.beginReplay_keeps | apply Holds.ite | split | dsimp only

theorem State.flitUnits_keeps (s : State) (d : Die) (i : Nat) (b : List Byte) (hs : Holds K P s)
    (hk_bridge : K .bridge = false) (hk_ims : K .ims = false) (hk_llus : K .llus = false) (hk_regs : K .regs = false)
    (hk_sluice : K .sluice = false) (hk_swc : K .swc = false) :
    Holds K P (State.flitUnits s d i b) := by
  unfold State.flitUnits
  try dsimp only
  with_reducible repeat' first
    | intro _ | assumption | apply State.unitIn_keeps | apply Holds.ite
    | simp only [Holds.upd, hk_ims, Bool.false_eq_true, false_implies, implies_true] | apply Holds.foldl | split | dsimp only

theorem State.beginChange_keeps (s : State) (d : Die) (i : Nat) (mask : Nat) (rate : Nat) (hs : Holds K P s)
    (hk_lanes : K .lanes = false) (hk_llus : K .llus = false) (hk_regs : K .regs = false) (hk_rtb : K .rtb = false) :
    Holds K P (State.beginChange s d i mask rate) := by
  unfold State.beginChange
  try dsimp only
  with_reducible repeat' first
    | intro _ | assumption | apply State.modLlu_keeps | apply State.setLink_keeps | apply State.wr_keeps
    | apply State.trainPort_keeps | dsimp only

theorem State.changeIn_keeps (s : State) (d : Die) (i : Nat) (b : List Byte) (hs : Holds K P s) (hk_lanes : K .lanes = false)
    (hk_llus : K .llus = false) (hk_out : K .out = false) (hk_regs : K .regs = false) (hk_rtb : K .rtb = false) :
    Holds K P (State.changeIn s d i b) := by
  unfold State.changeIn
  try dsimp only
  with_reducible repeat' first
    | intro _ | assumption | apply State.beginChange_keeps | apply State.emitFlit_keeps | apply State.wrs_keeps
    | apply State.modLlu_keeps | apply Holds.ite | split | dsimp only

theorem State.flitPass_keeps (s : State) (d : Die) (i : Nat) (b : List Byte) (hs : Holds K P s)
    (hk_bridge : K .bridge = false) (hk_ims : K .ims = false) (hk_lanes : K .lanes = false) (hk_llus : K .llus = false)
    (hk_out : K .out = false) (hk_regs : K .regs = false) (hk_rtb : K .rtb = false) (hk_sluice : K .sluice = false)
    (hk_swc : K .swc = false) :
    Holds K P (State.flitPass s d i b) := by
  unfold State.flitPass
  try dsimp only
  with_reducible repeat' first
    | intro _ | assumption | apply State.modLlu_keeps | apply State.when_keeps | apply State.ackFlits_keeps
    | apply State.creditTotal_keeps | apply State.nackIn_keeps | apply State.flitUnits_keeps | apply State.bump_keeps
    | apply State.changeIn_keeps | apply Holds.ite | split | dsimp only

theorem State.refuseLink_keeps (s : State) (d : Die) (i : Nat) (reason : Nat) (hs : Holds K P s) (hk_lanes : K .lanes = false)
    (hk_llus : K .llus = false) (hk_out : K .out = false) (hk_regs : K .regs = false) (hk_rtb : K .rtb = false) :
    Holds K P (State.refuseLink s d i reason) := by
  unfold State.refuseLink
  try dsimp only
  with_reducible repeat' first
    | intro _ | assumption | apply State.sendNeg_keeps | apply State.setLink_keeps | apply State.modLlu_keeps | apply State.wr_keeps
    | apply Holds.foldl | dsimp only

theorem State.negIn_keeps (s : State) (d : Die) (i : Nat) (u : List Byte) (hs : Holds K P s) (hk_bridge : K .bridge = false)
    (hk_free : K .free = false) (hk_lanes : K .lanes = false) (hk_llus : K .llus = false) (hk_out : K .out = false)
    (hk_regs : K .regs = false) (hk_rtb : K .rtb = false) (hk_sluice : K .sluice = false) (hk_swc : K .swc = false) :
    Holds K P (State.negIn s d i u) := by
  unfold State.negIn
  try dsimp only
  with_reducible repeat' first
    | intro _ | assumption | apply State.showPartner_keeps | apply State.refuseLink_keeps | apply State.linkActive_keeps
    | apply State.freshInst_keeps | apply State.sendNeg_keeps | apply State.modLlu_keeps | apply Holds.ite | split | dsimp only

theorem State.flitIn_keeps (s : State) (d : Die) (i : Nat) (b : List Byte) (bad : Bool) (hs : Holds K P s)
    (hk_bridge : K .bridge = false) (hk_free : K .free = false) (hk_ims : K .ims = false) (hk_lanes : K .lanes = false)
    (hk_llus : K .llus = false) (hk_out : K .out = false) (hk_regs : K .regs = false) (hk_rtb : K .rtb = false)
    (hk_sluice : K .sluice = false) (hk_swc : K .swc = false) :
    Holds K P (State.flitIn s d i b bad) := by
  unfold State.flitIn
  try dsimp only
  with_reducible repeat' first
    | intro _ | assumption | apply State.retrain_keeps | apply State.flitPass_keeps | apply State.flitFail_keeps
    | apply State.negIn_keeps | apply State.linkActive_keeps | apply Holds.ite | split | dsimp only

theorem execFlitReceived_keeps (d : Die) (i : Fin 64) (b : List Byte) (bad : Bool) (s : State) (hs : Holds K P s)
    (hk_bridge : K .bridge = false) (hk_free : K .free = false) (hk_ims : K .ims = false) (hk_lanes : K .lanes = false)
    (hk_llus : K .llus = false) (hk_out : K .out = false) (hk_regs : K .regs = false) (hk_rtb : K .rtb = false)
    (hk_sluice : K .sluice = false) (hk_swc : K .swc = false) :
    HoldsO K P (execFlitReceived d i b bad s) := by
  unfold execFlitReceived
  try dsimp only
  with_reducible repeat' first
    | intro _ | assumption | apply State.flitIn_keeps | apply HoldsO.next | dsimp only

theorem execNegotiatePropose_keeps (d : Die) (i : Fin 64) (b : List Byte) (bad : Bool) (s : State) (hs : Holds K P s)
    (hk_bridge : K .bridge = false) (hk_free : K .free = false) (hk_ims : K .ims = false) (hk_lanes : K .lanes = false)
    (hk_llus : K .llus = false) (hk_out : K .out = false) (hk_regs : K .regs = false) (hk_rtb : K .rtb = false)
    (hk_sluice : K .sluice = false) (hk_swc : K .swc = false) :
    HoldsO K P (execNegotiatePropose d i b bad s) := by
  unfold execNegotiatePropose
  try dsimp only
  with_reducible repeat' first
    | intro _ | assumption | apply State.flitIn_keeps | apply Holds.ite | apply HoldsO.next | split | dsimp only

theorem execNegotiateAgree_keeps (d : Die) (i : Fin 64) (b : List Byte) (bad : Bool) (s : State) (hs : Holds K P s)
    (hk_bridge : K .bridge = false) (hk_free : K .free = false) (hk_ims : K .ims = false) (hk_lanes : K .lanes = false)
    (hk_llus : K .llus = false) (hk_out : K .out = false) (hk_regs : K .regs = false) (hk_rtb : K .rtb = false)
    (hk_sluice : K .sluice = false) (hk_swc : K .swc = false) :
    HoldsO K P (execNegotiateAgree d i b bad s) := by
  unfold execNegotiateAgree
  try dsimp only
  with_reducible repeat' first
    | intro _ | assumption | apply State.flitIn_keeps | apply Holds.ite | apply HoldsO.next | split | dsimp only

theorem execNegotiateRefuse_keeps (d : Die) (i : Fin 64) (b : List Byte) (bad : Bool) (s : State) (hs : Holds K P s)
    (hk_bridge : K .bridge = false) (hk_free : K .free = false) (hk_ims : K .ims = false) (hk_lanes : K .lanes = false)
    (hk_llus : K .llus = false) (hk_out : K .out = false) (hk_regs : K .regs = false) (hk_rtb : K .rtb = false)
    (hk_sluice : K .sluice = false) (hk_swc : K .swc = false) :
    HoldsO K P (execNegotiateRefuse d i b bad s) := by
  unfold execNegotiateRefuse
  try dsimp only
  with_reducible repeat' first
    | intro _ | assumption | apply State.flitIn_keeps | apply Holds.ite | apply HoldsO.next | split | dsimp only

theorem execChangeRequest_keeps (d : Die) (i : Fin 64) (b : List Byte) (bad : Bool) (s : State) (hs : Holds K P s)
    (hk_bridge : K .bridge = false) (hk_free : K .free = false) (hk_ims : K .ims = false) (hk_lanes : K .lanes = false)
    (hk_llus : K .llus = false) (hk_out : K .out = false) (hk_regs : K .regs = false) (hk_rtb : K .rtb = false)
    (hk_sluice : K .sluice = false) (hk_swc : K .swc = false) :
    HoldsO K P (execChangeRequest d i b bad s) := by
  unfold execChangeRequest
  try dsimp only
  with_reducible repeat' first
    | intro _ | assumption | apply State.flitIn_keeps | apply Holds.ite | apply HoldsO.next | split | dsimp only

theorem execChangeAccept_keeps (d : Die) (i : Fin 64) (b : List Byte) (bad : Bool) (s : State) (hs : Holds K P s)
    (hk_bridge : K .bridge = false) (hk_free : K .free = false) (hk_ims : K .ims = false) (hk_lanes : K .lanes = false)
    (hk_llus : K .llus = false) (hk_out : K .out = false) (hk_regs : K .regs = false) (hk_rtb : K .rtb = false)
    (hk_sluice : K .sluice = false) (hk_swc : K .swc = false) :
    HoldsO K P (execChangeAccept d i b bad s) := by
  unfold execChangeAccept
  try dsimp only
  with_reducible repeat' first
    | intro _ | assumption | apply State.flitIn_keeps | apply Holds.ite | apply HoldsO.next | split | dsimp only

theorem execChangeRefuse_keeps (d : Die) (i : Fin 64) (b : List Byte) (bad : Bool) (s : State) (hs : Holds K P s)
    (hk_bridge : K .bridge = false) (hk_free : K .free = false) (hk_ims : K .ims = false) (hk_lanes : K .lanes = false)
    (hk_llus : K .llus = false) (hk_out : K .out = false) (hk_regs : K .regs = false) (hk_rtb : K .rtb = false)
    (hk_sluice : K .sluice = false) (hk_swc : K .swc = false) :
    HoldsO K P (execChangeRefuse d i b bad s) := by
  unfold execChangeRefuse
  try dsimp only
  with_reducible repeat' first
    | intro _ | assumption | apply State.flitIn_keeps | apply Holds.ite | apply HoldsO.next | split | dsimp only

theorem execReplayTimeout_keeps (d : Die) (i : Fin 64) (s : State) (hs : Holds K P s) (hk_lanes : K .lanes = false)
    (hk_llus : K .llus = false) (hk_regs : K .regs = false) (hk_rtb : K .rtb = false) :
    HoldsO K P (execReplayTimeout d i s) := by
  unfold execReplayTimeout
  try dsimp only
  with_reducible repeat' first
    | intro _ | assumption | apply State.beginReplay_keeps | apply Holds.ite | apply HoldsO.next | split | dsimp only

theorem execLinkRttWindow_keeps (d : Die) (i : Fin 64) (s : State) (hs : Holds K P s) (hk_llus : K .llus = false)
    (hk_regs : K .regs = false) :
    HoldsO K P (execLinkRttWindow d i s) := by
  unfold execLinkRttWindow
  try dsimp only
  with_reducible repeat' first
    | intro _ | assumption | apply State.wr_keeps | apply State.setLlu_keeps | apply Holds.ite | apply HoldsO.next | split
    | dsimp only

theorem State.negotiate_keeps (s : State) (d : Die) (i : Nat) (hs : Holds K P s) (hk_lanes : K .lanes = false)
    (hk_llus : K .llus = false) (hk_out : K .out = false) (hk_regs : K .regs = false) (hk_rtb : K .rtb = false) :
    Holds K P (State.negotiate s d i) := by
  unfold State.negotiate
  try dsimp only
  with_reducible repeat' first
    | intro _ | assumption | apply State.sendNeg_keeps | apply State.setLink_keeps | apply State.modLlu_keeps | dsimp only

theorem execLanesTrained_keeps (d : Die) (i : Fin 64) (s : State) (hs : Holds K P s) (hk_lanes : K .lanes = false)
    (hk_llus : K .llus = false) (hk_out : K .out = false) (hk_regs : K .regs = false) (hk_rtb : K .rtb = false) :
    HoldsO K P (execLanesTrained d i s) := by
  unfold execLanesTrained
  try dsimp only
  with_reducible repeat' first
    | intro _ | assumption | apply State.negotiate_keeps | apply Holds.ite | apply HoldsO.next | split | dsimp only

theorem execLanesReady_keeps (d : Die) (i : Fin 64) (s : State) (hs : Holds K P s) (hk_lanes : K .lanes = false)
    (hk_llus : K .llus = false) (hk_out : K .out = false) (hk_regs : K .regs = false) (hk_rtb : K .rtb = false) :
    HoldsO K P (execLanesReady d i s) := by
  unfold execLanesReady
  try dsimp only
  with_reducible repeat' first
    | intro _ | assumption | apply State.negotiate_keeps | apply Holds.ite | apply HoldsO.next | split | dsimp only

theorem execNegotiateResend_keeps (d : Die) (i : Fin 64) (s : State) (hs : Holds K P s) (hk_lanes : K .lanes = false)
    (hk_llus : K .llus = false) (hk_out : K .out = false) :
    HoldsO K P (execNegotiateResend d i s) := by
  unfold execNegotiateResend
  try dsimp only
  with_reducible repeat' first
    | intro _ | assumption | apply State.sendNeg_keeps | apply Holds.ite | apply HoldsO.next | split | dsimp only

theorem execTrainingAttemptTimeout_keeps (d : Die) (i : Fin 64) (s : State) (hs : Holds K P s) (hk_lanes : K .lanes = false)
    (hk_llus : K .llus = false) (hk_regs : K .regs = false) (hk_rtb : K .rtb = false) :
    HoldsO K P (execTrainingAttemptTimeout d i s) := by
  unfold execTrainingAttemptTimeout
  try dsimp only
  with_reducible repeat' first
    | intro _ | assumption | apply State.wr_keeps | apply State.bump_keeps | apply State.setLlu_keeps | apply State.attempt_keeps
    | apply Holds.ite | apply HoldsO.next | split | dsimp only

theorem execFailedRestartTimer_keeps (d : Die) (i : Fin 64) (s : State) (hs : Holds K P s) (hk_lanes : K .lanes = false)
    (hk_llus : K .llus = false) (hk_regs : K .regs = false) (hk_rtb : K .rtb = false) :
    HoldsO K P (execFailedRestartTimer d i s) := by
  unfold execFailedRestartTimer
  try dsimp only
  with_reducible repeat' first
    | intro _ | assumption | apply State.attempt_keeps | apply Holds.ite | apply HoldsO.next | split | dsimp only

theorem execSilenceTimeout_keeps (d : Die) (i : Fin 64) (s : State) (hs : Holds K P s) (hk_lanes : K .lanes = false)
    (hk_llus : K .llus = false) (hk_regs : K .regs = false) (hk_rtb : K .rtb = false) :
    HoldsO K P (execSilenceTimeout d i s) := by
  unfold execSilenceTimeout
  try dsimp only
  with_reducible repeat' first
    | intro _ | assumption | apply State.retrain_keeps | apply Holds.ite | apply HoldsO.next | split | dsimp only

theorem State.retrainWrite_keeps (s : State) (d : Die) (i : Nat) (hs : Holds K P s) (hk_lanes : K .lanes = false)
    (hk_llus : K .llus = false) (hk_regs : K .regs = false) (hk_rtb : K .rtb = false) :
    Holds K P (State.retrainWrite s d i) := by
  unfold State.retrainWrite
  try dsimp only
  with_reducible repeat' first
    | intro _ | assumption | apply State.retrain_keeps | dsimp only

theorem execRetrain_keeps (rq : Requester) (d : Die) (i : Fin 64) (s : State) (hs : Holds K P s) (hk_lanes : K .lanes = false)
    (hk_llus : K .llus = false) (hk_regs : K .regs = false) (hk_rtb : K .rtb = false) :
    HoldsO K P (execRetrain rq d i s) := by
  unfold execRetrain
  try dsimp only
  with_reducible repeat' first
    | intro _ | assumption | apply State.asWarden_keeps | apply State.retrainWrite_keeps | apply HoldsO.next | dsimp only

theorem State.giveUp_keeps (s : State) (d : Die) (i : Nat) (hs : Holds K P s) (hk_bridge : K .bridge = false)
    (hk_llus : K .llus = false) (hk_regs : K .regs = false) (hk_sluice : K .sluice = false) (hk_swc : K .swc = false) :
    Holds K P (State.giveUp s d i) := by
  unfold State.giveUp
  try dsimp only
  with_reducible repeat' first
    | intro _ | assumption | apply State.dropTx_keeps | apply State.modLlu_keeps | apply State.bumpBy_keeps
    | refine Holds.of_fst (by assumption) ?_ | split | dsimp only

theorem execPortHoldLimit_keeps (d : Die) (i : Fin 64) (s : State) (hs : Holds K P s) (hk_bridge : K .bridge = false)
    (hk_llus : K .llus = false) (hk_regs : K .regs = false) (hk_sluice : K .sluice = false) (hk_swc : K .swc = false) :
    HoldsO K P (execPortHoldLimit d i s) := by
  unfold execPortHoldLimit
  try dsimp only
  with_reducible repeat' first
    | intro _ | assumption | apply State.giveUp_keeps | apply Holds.ite | apply HoldsO.next | split | dsimp only

theorem State.changeGo_keeps (s : State) (d : Die) (i : Nat) (mask : Nat) (rate : Nat) (hs : Holds K P s)
    (hk_lanes : K .lanes = false) (hk_llus : K .llus = false) (hk_out : K .out = false) (hk_regs : K .regs = false) :
    Holds K P (State.changeGo s d i mask rate) := by
  unfold State.changeGo
  try dsimp only
  with_reducible repeat' first
    | intro _ | assumption | apply State.wrs_keeps | apply State.emitFlit_keeps | apply State.modLlu_keeps | apply Holds.ite | split
    | dsimp only

theorem execChangeGo_keeps (rq : Requester) (d : Die) (i : Fin 64) (mask : Fin 16) (rate : Fin 8) (s : State)
    (hs : Holds K P s) (hk_lanes : K .lanes = false) (hk_llus : K .llus = false) (hk_out : K .out = false)
    (hk_regs : K .regs = false) :
    HoldsO K P (execChangeGo rq d i mask rate s) := by
  unfold execChangeGo
  try dsimp only
  with_reducible repeat' first
    | intro _ | assumption | apply State.asWarden_keeps | apply State.changeGo_keeps | apply HoldsO.next | dsimp only

theorem execChangeTimeout_keeps (d : Die) (i : Fin 64) (s : State) (hs : Holds K P s) (hk_lanes : K .lanes = false)
    (hk_llus : K .llus = false) (hk_regs : K .regs = false) (hk_rtb : K .rtb = false) :
    HoldsO K P (execChangeTimeout d i s) := by
  unfold execChangeTimeout
  try dsimp only
  with_reducible repeat' first
    | intro _ | assumption | apply State.retrain_keeps | apply Holds.ite | apply HoldsO.next | split | dsimp only

theorem State.portOut_keeps (s : State) (d : Die) (i : Nat) (hs : Holds K P s) (hk_bridge : K .bridge = false)
    (hk_lanes : K .lanes = false) (hk_llus : K .llus = false) (hk_regs : K .regs = false) (hk_rtb : K .rtb = false)
    (hk_sluice : K .sluice = false) (hk_swc : K .swc = false) :
    Holds K P (State.portOut s d i) := by
  unfold State.portOut
  try dsimp only
  with_reducible repeat' first
    | intro _ | assumption | apply State.fillPort_keeps | apply State.dropTx_keeps | apply State.laneOff_keeps
    | apply State.wrs_keeps | apply State.setLink_keeps | apply State.modLlu_keeps | apply Holds.foldl | apply Holds.foldl1
    | dsimp only

theorem State.retirePort_keeps (s : State) (d : Die) (i : Nat) (cause : Nat) (hs : Holds K P s)
    (hk_bridge : K .bridge = false) (hk_faults : K .faults = false) (hk_lanes : K .lanes = false) (hk_llus : K .llus = false)
    (hk_out : K .out = false) (hk_regs : K .regs = false) (hk_rtb : K .rtb = false) (hk_sluice : K .sluice = false)
    (hk_svc : K .svc = false) (hk_swc : K .swc = false) :
    Holds K P (State.retirePort s d i cause) := by
  unfold State.retirePort
  try dsimp only
  with_reducible repeat' first
    | intro _ | assumption | apply State.liveChange_keeps | apply State.portOut_keeps | apply State.recordRet_keeps
    | apply Holds.ite | split | dsimp only

theorem execLinkRetire_keeps (rq : Requester) (d : Die) (i : Fin 64) (s : State) (hs : Holds K P s)
    (hk_bridge : K .bridge = false) (hk_faults : K .faults = false) (hk_lanes : K .lanes = false) (hk_llus : K .llus = false)
    (hk_out : K .out = false) (hk_regs : K .regs = false) (hk_rtb : K .rtb = false) (hk_sluice : K .sluice = false)
    (hk_svc : K .svc = false) (hk_swc : K .swc = false) :
    HoldsO K P (execLinkRetire rq d i s) := by
  unfold execLinkRetire
  try dsimp only
  with_reducible repeat' first
    | intro _ | assumption | apply State.asWarden_keeps | apply State.retirePort_keeps | apply HoldsO.next | dsimp only

end Sys2Proof.Machine
end

