-- ==== Sys2Proof/Laws/KeepLanes.lean ====
section
/-! SUPPORT. The operations of Lanes.lean keep what the operations on registers and memory keep. -/

namespace Sys2Proof.Machine

set_option linter.all false
set_option linter.unusedTactic false
set_option linter.unreachableTactic false

variable {K : Grp → Bool} {P : State → Prop}

theorem State.setTaps_keeps (s : State) (d : Die) (n : Nat) (t : Taps) (hs : Holds K P s) (hk_regs : K .regs = false) :
    Holds K P (State.setTaps s d n t) := by
  unfold State.setTaps
  try dsimp only
  with_reducible repeat' first
    | intro _ | assumption | apply State.wrs_keeps | dsimp only

theorem State.serveReq_keeps (s : State) (d : Die) (n : Nat) (f : TFrame) (hs : Holds K P s) (hk_lanes : K .lanes = false)
    (hk_regs : K .regs = false) :
    Holds K P (State.serveReq s d n f) := by
  unfold State.serveReq
  try dsimp only
  with_reducible repeat' first
    | intro _ | assumption | apply State.modLane_keeps | apply State.setTaps_keeps | apply Holds.ite | split | dsimp only

theorem State.putFrame_keeps (s : State) (d : Die) (n : Nat) (f : TFrame) (hs : Holds K P s) (hk_out : K .out = false) :
    Holds K P (State.putFrame s d n f) := by
  unfold State.putFrame
  try dsimp only
  with_reducible repeat' first
    | intro _ | assumption | apply State.emit_keeps | dsimp only

theorem State.sendFrame_keeps (s : State) (d : Die) (n : Nat) (hs : Holds K P s) (hk_out : K .out = false) :
    Holds K P (State.sendFrame s d n) := by
  unfold State.sendFrame
  try dsimp only
  with_reducible repeat' first
    | intro _ | assumption | apply State.putFrame_keeps | dsimp only

theorem State.nextReq_keeps (s : State) (d : Die) (n : Nat) (hs : Holds K P s) (hk_free : K .free = false)
    (hk_lanes : K .lanes = false) :
    Holds K P (State.nextReq s d n) := by
  unfold State.nextReq
  try dsimp only
  with_reducible repeat' first
    | intro _ | assumption | apply State.draw_keeps | apply State.modLane_keeps | apply Holds.ite | split | dsimp only

theorem State.adaptRx_keeps (s : State) (d : Die) (n : Nat) (hs : Holds K P s) (hk_free : K .free = false)
    (hk_lanes : K .lanes = false) (hk_regs : K .regs = false) :
    Holds K P (State.adaptRx s d n) := by
  unfold State.adaptRx
  try dsimp only
  with_reducible repeat' first
    | intro _ | assumption | apply State.draw_keeps | apply State.modLane_keeps | apply State.wrs_keeps | apply Holds.ite | split
    | dsimp only

theorem State.qualStart_keeps (s : State) (d : Die) (n : Nat) (long : Bool) (hs : Holds K P s) (hk_lanes : K .lanes = false) :
    Holds K P (State.qualStart s d n long) := by
  unfold State.qualStart
  try dsimp only
  with_reducible repeat' first
    | intro _ | assumption | apply State.modLane_keeps | dsimp only

theorem State.laneDone_keeps (s : State) (d : Die) (n : Nat) (hs : Holds K P s) (hk_lanes : K .lanes = false)
    (hk_llus : K .llus = false) (hk_regs : K .regs = false) :
    Holds K P (State.laneDone s d n) := by
  unfold State.laneDone
  try dsimp only
  with_reducible repeat' first
    | intro _ | assumption | apply State.wrs_keeps | apply State.bump_keeps | apply State.laneStep_keeps | apply Holds.ite | split
    | dsimp only

theorem State.lanesDoneAll_keeps (s : State) (d : Die) (n : Nat) (hs : Holds K P s) (hk_lanes : K .lanes = false)
    (hk_llus : K .llus = false) (hk_regs : K .regs = false) :
    Holds K P (State.lanesDoneAll s d n) := by
  unfold State.lanesDoneAll
  try dsimp only
  with_reducible repeat' first
    | intro _ | assumption | apply State.laneDone_keeps | apply Holds.foldl | dsimp only

theorem State.laneRestart_keeps (s : State) (d : Die) (n : Nat) (st : Nat) (reason : Nat) (hs : Holds K P s)
    (hk_lanes : K .lanes = false) (hk_llus : K .llus = false) (hk_regs : K .regs = false) :
    Holds K P (State.laneRestart s d n st reason) := by
  unfold State.laneRestart
  try dsimp only
  with_reducible repeat' first
    | intro _ | assumption | apply State.modLane_keeps | apply State.wr_keeps | apply State.bump_keeps | apply State.laneStep_keeps
    | dsimp only

theorem State.txEq_keeps (s : State) (d : Die) (n : Nat) (f : TFrame) (hs : Holds K P s) (hk_free : K .free = false)
    (hk_lanes : K .lanes = false) (hk_llus : K .llus = false) (hk_regs : K .regs = false) :
    Holds K P (State.txEq s d n f) := by
  unfold State.txEq
  try dsimp only
  with_reducible repeat' first
    | intro _ | assumption | apply State.drawNat_keeps | apply State.modLane_keeps | apply State.laneStep_keeps
    | apply State.nextReq_keeps | apply Holds.ite | apply Holds.ite1 | refine Holds.of_fst (by assumption) ?_ | split | dsimp only

theorem State.frameIn_keeps (s : State) (d : Die) (n : Nat) (f : TFrame) (inverted : Bool) (hs : Holds K P s)
    (hk_free : K .free = false) (hk_lanes : K .lanes = false) (hk_llus : K .llus = false) (hk_regs : K .regs = false) :
    Holds K P (State.frameIn s d n f inverted) := by
  unfold State.frameIn
  try dsimp only
  with_reducible repeat' first
    | intro _ | assumption | apply State.modLane_keeps | apply State.wr_keeps | apply State.laneStep_keeps | apply State.wrs_keeps
    | apply State.txEq_keeps | apply State.serveReq_keeps | apply State.drawNat_keeps | apply State.adaptRx_keeps
    | apply State.lanesDoneAll_keeps | apply Holds.ite | apply Holds.ite1 | refine Holds.of_fst (by assumption) ?_ | split
    | dsimp only

theorem State.laneWake_keeps (s : State) (d : Die) (n : Nat) (hs : Holds K P s) (hk_lanes : K .lanes = false)
    (hk_llus : K .llus = false) (hk_regs : K .regs = false) (hk_rtb : K .rtb = false) :
    Holds K P (State.laneWake s d n) := by
  unfold State.laneWake
  try dsimp only
  with_reducible repeat' first
    | intro _ | assumption | apply State.attempt_keeps | apply State.modLlu_keeps | apply State.laneStart_keeps | apply Holds.ite
    | split | dsimp only

theorem execTrainingFrame_keeps (d : Die) (n : Fin 64) (c : BitVec 128) (inverted : Bool) (s : State) (hs : Holds K P s)
    (hk_free : K .free = false) (hk_lanes : K .lanes = false) (hk_llus : K .llus = false) (hk_out : K .out = false)
    (hk_regs : K .regs = false) (hk_rtb : K .rtb = false) :
    HoldsO K P (execTrainingFrame d n c inverted s) := by
  unfold execTrainingFrame
  try dsimp only
  with_reducible repeat' first
    | intro _ | assumption | apply State.laneWake_keeps | apply State.sendFrame_keeps | apply State.frameIn_keeps | apply Holds.ite
    | apply HoldsO.next | split | dsimp only

theorem execQuadPllLocked_keeps (d : Die) (q : Fin 16) (s : State) (hs : Holds K P s) (hk_lanes : K .lanes = false)
    (hk_llus : K .llus = false) (hk_regs : K .regs = false) :
    HoldsO K P (execQuadPllLocked d q s) := by
  unfold execQuadPllLocked
  try dsimp only
  with_reducible repeat' first
   
    | (intro g x hg; cases g <;> first | exact absurd (hk_lanes.symm.trans hg) (by decide) | (with_unfolding_all exact dieSame_refl _ _) | (simp only [dieSame, and_self]))
    | intro _ | assumption | apply State.modDie_keeps | apply State.laneStep_keeps | apply Holds.ite | apply Holds.foldl
    | apply HoldsO.next | split | dsimp only

theorem execLaneStepTimeout_keeps (d : Die) (n : Fin 64) (s : State) (hs : Holds K P s) (hk_lanes : K .lanes = false)
    (hk_llus : K .llus = false) (hk_regs : K .regs = false) :
    HoldsO K P (execLaneStepTimeout d n s) := by
  unfold execLaneStepTimeout
  try dsimp only
  with_reducible repeat' first
    | intro _ | assumption | apply State.laneRestart_keeps | apply Holds.ite | apply HoldsO.next | split | dsimp only

theorem execQualificationWindow_keeps (d : Die) (n : Fin 64) (s : State) (hs : Holds K P s) (hk_lanes : K .lanes = false)
    (hk_llus : K .llus = false) (hk_out : K .out = false) (hk_regs : K .regs = false) :
    HoldsO K P (execQualificationWindow d n s) := by
  unfold execQualificationWindow
  try dsimp only
  with_reducible repeat' first
    | intro _ | assumption | apply State.lanesDoneAll_keeps | apply State.sendFrame_keeps | apply State.modLane_keeps
    | apply State.qualStart_keeps | apply State.laneRestart_keeps | apply Holds.ite | apply HoldsO.next | split | dsimp only

theorem State.countCode_keeps (s : State) (d : Die) (n : Nat) (errors : Option Nat) (hs : Holds K P s)
    (hk_regs : K .regs = false) :
    Holds K P (State.countCode s d n errors) := by
  unfold State.countCode
  try dsimp only
  with_reducible repeat' first
    | intro _ | assumption | apply State.bump_keeps | apply State.bumpBy_keeps | apply Holds.ite | exact HoldsS.none
    | apply HoldsS.some | refine Holds.of_some (by assumption) ?_ | split | dsimp only

theorem State.deskew_keeps (s : State) (d : Die) (i : Nat) (hs : Holds K P s) (hk_lanes : K .lanes = false)
    (hk_llus : K .llus = false) (hk_regs : K .regs = false) :
    Holds K P (State.deskew s d i) := by
  unfold State.deskew
  try dsimp only
  with_reducible repeat' first
    | intro _ | assumption | apply State.modLlu_keeps | apply State.qualStart_keeps | apply State.laneStep_keeps | apply Holds.ite
    | apply Holds.foldl | split | dsimp only

theorem State.gather_keeps (d : Die) (i : Nat) (a : Nat) (a' : State) (ha' : Holds K P a') (hk_bridge : K .bridge = false)
    (hk_free : K .free = false) (hk_ims : K .ims = false) (hk_lanes : K .lanes = false) (hk_llus : K .llus = false)
    (hk_out : K .out = false) (hk_regs : K .regs = false) (hk_rtb : K .rtb = false) (hk_sluice : K .sluice = false)
    (hk_swc : K .swc = false) :
    Holds K P (State.gather d i a a') := by
  induction a generalizing a' ha' with
  | zero =>
    unfold State.gather
    try dsimp only
    with_reducible repeat' first
      | intro _ | assumption | apply ih | apply State.modLane_keeps | apply State.modLlu_keeps | apply State.flitIn_keeps
      | apply Holds.ite | split | dsimp only
  | succ n ih =>
    unfold State.gather
    try dsimp only
    with_reducible repeat' first
      | intro _ | assumption | apply ih | apply State.modLane_keeps | apply State.modLlu_keeps | apply State.flitIn_keeps
      | apply Holds.ite | split | dsimp only

theorem State.codeIn_keeps (s : State) (d : Die) (n : Nat) (msg : Nat) (errors : Option Nat) (hs : Holds K P s)
    (hk_bridge : K .bridge = false) (hk_free : K .free = false) (hk_ims : K .ims = false) (hk_lanes : K .lanes = false)
    (hk_llus : K .llus = false) (hk_out : K .out = false) (hk_regs : K .regs = false) (hk_rtb : K .rtb = false)
    (hk_sluice : K .sluice = false) (hk_swc : K .swc = false) :
    Holds K P (State.codeIn s d n msg errors) := by
  unfold State.codeIn
  try dsimp only
  with_reducible repeat' first
    | intro _ | assumption | apply State.modLane_keeps | apply State.deskew_keeps | apply State.countCode_keeps
    | apply State.gather_keeps | apply Holds.ite | exact HoldsS.none | apply HoldsS.some | split | dsimp only

theorem execFecCodeword_keeps (d : Die) (n : Fin 64) (msg parity : List (Fin 4)) (s : State) (hs : Holds K P s)
    (hk_bridge : K .bridge = false) (hk_free : K .free = false) (hk_ims : K .ims = false) (hk_lanes : K .lanes = false)
    (hk_llus : K .llus = false) (hk_out : K .out = false) (hk_regs : K .regs = false) (hk_rtb : K .rtb = false)
    (hk_sluice : K .sluice = false) (hk_swc : K .swc = false) :
    HoldsO K P (execFecCodeword d n msg parity s) := by
  unfold execFecCodeword
  try dsimp only
  with_reducible repeat' first
    | intro _ | assumption | apply State.modLane_keeps | apply State.codeIn_keeps | apply Holds.ite | apply HoldsO.next | split
    | dsimp only

theorem execAdaptationUpdate_keeps (d : Die) (n : Fin 64) (s : State) (hs : Holds K P s) (hk_free : K .free = false)
    (hk_lanes : K .lanes = false) (hk_regs : K .regs = false) :
    HoldsO K P (execAdaptationUpdate d n s) := by
  unfold execAdaptationUpdate
  try dsimp only
  with_reducible repeat' first
    | intro _ | assumption | apply State.draw_keeps | apply State.wr_keeps | apply State.modLane_keeps | apply State.wrs_keeps
    | apply Holds.ite | apply HoldsO.next | split | dsimp only

theorem execLaneLockLoss_keeps (d : Die) (n : Fin 64) (s : State) (hs : Holds K P s) (hk_lanes : K .lanes = false)
    (hk_llus : K .llus = false) (hk_regs : K .regs = false) (hk_rtb : K .rtb = false) :
    HoldsO K P (execLaneLockLoss d n s) := by
  unfold execLaneLockLoss
  try dsimp only
  with_reducible repeat' first
    | intro _ | assumption | apply State.bump_keeps | apply State.retrain_keeps | apply State.laneRestart_keeps | apply Holds.ite
    | apply HoldsO.next | split | dsimp only

theorem State.idleOrder_keeps (s : State) (d : Die) (n : Nat) (hs : Holds K P s) (hk_out : K .out = false) :
    Holds K P (State.idleOrder s d n) := by
  unfold State.idleOrder
  try dsimp only
  with_reducible repeat' first
    | intro _ | assumption | apply State.putFrame_keeps | apply Holds.foldl | dsimp only

theorem State.lnePwr_keeps (s : State) (d : Die) (n : Nat) (v : Nat) (hs : Holds K P s) (hk_lanes : K .lanes = false)
    (hk_llus : K .llus = false) (hk_out : K .out = false) (hk_regs : K .regs = false) (hk_rtb : K .rtb = false) :
    Holds K P (State.lnePwr s d n v) := by
  unfold State.lnePwr
  try dsimp only
  with_reducible repeat' first
    | intro _ | assumption | apply State.wr_keeps | apply State.laneWake_keeps | apply State.laneStep_keeps
    | apply State.idleOrder_keeps | apply Holds.ite | split | dsimp only

theorem execLnePwrWrite_keeps (rq : Requester) (d : Die) (n : Fin 64) (v : Fin 4) (s : State) (hs : Holds K P s)
    (hk_lanes : K .lanes = false) (hk_llus : K .llus = false) (hk_out : K .out = false) (hk_regs : K .regs = false)
    (hk_rtb : K .rtb = false) :
    HoldsO K P (execLnePwrWrite rq d n v s) := by
  unfold execLnePwrWrite
  try dsimp only
  with_reducible repeat' first
    | intro _ | assumption | apply State.asWarden_keeps | apply State.lnePwr_keeps | apply HoldsO.next | dsimp only

theorem State.prbsSettle_keeps (s : State) (d : Die) (n : Nat) (hs : Holds K P s) (hk_free : K .free = false)
    (hk_lanes : K .lanes = false) (hk_regs : K .regs = false) :
    Holds K P (State.prbsSettle s d n) := by
  unfold State.prbsSettle
  try dsimp only
  with_reducible repeat' first
    | intro _ | assumption | apply State.draw_keeps | apply State.modLane_keeps | apply State.bumpBy_keeps | apply Holds.ite | split
    | dsimp only

theorem State.prbsCtrl_keeps (s : State) (d : Die) (n : Nat) (v : Nat) (hs : Holds K P s) (hk_free : K .free = false)
    (hk_lanes : K .lanes = false) (hk_regs : K .regs = false) :
    Holds K P (State.prbsCtrl s d n v) := by
  unfold State.prbsCtrl
  try dsimp only
  with_reducible repeat' first
   
    | (intro g x hg; cases g <;> first | exact absurd (hk_lanes.symm.trans hg) (by decide) | (with_unfolding_all exact dieSame_refl _ _) | (simp only [dieSame, and_self]))
    | intro _ | assumption | apply State.wrs_keeps | apply State.wr_keeps | apply State.modLane_keeps | apply State.modDie_keeps
    | apply State.prbsSettle_keeps | apply State.laneOff_keeps | apply Holds.ite | split | dsimp only

theorem execPrbsCtrlWrite_keeps (rq : Requester) (d : Die) (n : Fin 64) (v : W64) (s : State) (hs : Holds K P s)
    (hk_free : K .free = false) (hk_lanes : K .lanes = false) (hk_regs : K .regs = false) :
    HoldsO K P (execPrbsCtrlWrite rq d n v s) := by
  unfold execPrbsCtrlWrite
  try dsimp only
  with_reducible repeat' first
    | intro _ | assumption | apply State.asWarden_keeps | apply State.prbsCtrl_keeps | apply HoldsO.next | dsimp only

theorem execPrbsNoPartner_keeps (d : Die) (n : Fin 64) (s : State) (hs : Holds K P s) (hk_lanes : K .lanes = false)
    (hk_llus : K .llus = false) (hk_regs : K .regs = false) :
    HoldsO K P (execPrbsNoPartner d n s) := by
  unfold execPrbsNoPartner
  try dsimp only
  with_reducible repeat' first
    | intro _ | assumption | apply State.laneStep_keeps | apply State.wrs_keeps | apply Holds.ite | apply HoldsO.next | split
    | dsimp only

theorem execPrbsCheckerLock_keeps (d : Die) (n : Fin 64) (s : State) (hs : Holds K P s) (hk_lanes : K .lanes = false)
    (hk_regs : K .regs = false) :
    HoldsO K P (execPrbsCheckerLock d n s) := by
  unfold execPrbsCheckerLock
  try dsimp only
  with_reducible repeat' first
    | intro _ | assumption | apply State.modLane_keeps | apply State.wr_keeps | apply Holds.ite | apply HoldsO.next | split
    | dsimp only

theorem execPrbsLossOfLock_keeps (d : Die) (n : Fin 64) (s : State) (hs : Holds K P s) (hk_free : K .free = false)
    (hk_lanes : K .lanes = false) (hk_regs : K .regs = false) :
    HoldsO K P (execPrbsLossOfLock d n s) := by
  unfold execPrbsLossOfLock
  try dsimp only
  with_reducible repeat' first
    | intro _ | assumption | apply State.bump_keeps | apply State.wr_keeps | apply State.prbsSettle_keeps | apply Holds.ite
    | apply HoldsO.next | split | dsimp only

end Sys2Proof.Machine
end

