-- ==== Sys2Proof/Laws/KeepEngines.lean ====
section
/-! SUPPORT. The operations of Engines.lean keep what the operations on registers and memory keep. -/

namespace Sys2Proof.Machine

set_option linter.all false
set_option linter.unusedTactic false
set_option linter.unreachableTactic false

variable {K : Grp → Bool} {P : State → Prop}

theorem State.setEngine_keeps (s : State) (n : Nat) (e : Engine) (hs : Holds K P s) (hk_engines : K .engines = false) :
    Holds K P (State.setEngine s n e) := by
  unfold State.setEngine
  try dsimp only
  with_reducible repeat' first
    | intro _ | assumption | apply Holds.ite | simp only [Holds.upd, hk_engines, Bool.false_eq_true, false_implies, implies_true]
    | split | dsimp only

theorem State.writeEntry_keeps (s : State) (bs : List BufByte) (hs : Holds K P s) (hk_accesses : K .accesses = false)
    (hk_dmem : K .dmem = false) (hk_hag : K .hag = false) (hk_hold : K .hold = false) (hk_mem : K .mem = false)
    (hk_out : K .out = false) (hk_regs : K .regs = false) :
    Holds K P (State.writeEntry s bs) := by
  unfold State.writeEntry
  try dsimp only
  with_reducible repeat' first
    | intro _ | assumption | apply State.devAccess_keeps | apply Holds.foldl | dsimp only

theorem State.engFault_keeps (s : State) (n : Nat) (k : Nat) (hs : Holds K P s) (hk_accesses : K .accesses = false)
    (hk_dmem : K .dmem = false) (hk_engines : K .engines = false) (hk_hag : K .hag = false) (hk_hold : K .hold = false)
    (hk_mem : K .mem = false) (hk_out : K .out = false) (hk_regs : K .regs = false) :
    Holds K P (State.engFault s n k) := by
  unfold State.engFault
  try dsimp only
  with_reducible repeat' first
    | intro _ | assumption | apply State.setEngine_keeps | apply State.writeEntry_keeps | dsimp only

theorem State.engRun_keeps (s : State) (n : Nat) (p : Nat) (hs : Holds K P s) (hk_accesses : K .accesses = false)
    (hk_dmem : K .dmem = false) (hk_engines : K .engines = false) (hk_hag : K .hag = false) (hk_hold : K .hold = false)
    (hk_mem : K .mem = false) (hk_out : K .out = false) (hk_regs : K .regs = false) :
    Holds K P (State.engRun s n p) := by
  unfold State.engRun
  try dsimp only
  with_reducible repeat' first
    | intro _ | assumption | apply State.setEngine_keeps | apply State.engFault_keeps | split | dsimp only

theorem State.engDo_keeps (s : State) (n : Nat) (a : EngStep) (hs : Holds K P s) (hk_accesses : K .accesses = false)
    (hk_dmem : K .dmem = false) (hk_engines : K .engines = false) (hk_hag : K .hag = false) (hk_hold : K .hold = false)
    (hk_mem : K .mem = false) (hk_out : K .out = false) (hk_regs : K .regs = false) :
    Holds K P (State.engDo s n a) := by
  unfold State.engDo
  try dsimp only
  with_reducible repeat' first
    | intro _ | assumption | apply State.engRun_keeps | apply State.setEngine_keeps | apply State.bump_keeps
    | apply State.devAccess_keeps | apply State.writeEntry_keeps | apply Holds.ite | split | dsimp only

theorem State.engStep_keeps (s : State) (n : Nat) (hs : Holds K P s) (hk_accesses : K .accesses = false)
    (hk_dmem : K .dmem = false) (hk_engines : K .engines = false) (hk_free : K .free = false) (hk_hag : K .hag = false)
    (hk_hold : K .hold = false) (hk_mem : K .mem = false) (hk_out : K .out = false) (hk_regs : K .regs = false) :
    Holds K P (State.engStep s n) := by
  unfold State.engStep
  try dsimp only
  with_reducible repeat' first
    | intro _ | assumption | apply State.draw_keeps | apply State.engDo_keeps | split | dsimp only

theorem State.enginesStep_keeps (s : State) (hs : Holds K P s) (hk_accesses : K .accesses = false) (hk_dmem : K .dmem = false)
    (hk_engines : K .engines = false) (hk_free : K .free = false) (hk_hag : K .hag = false) (hk_hold : K .hold = false)
    (hk_mem : K .mem = false) (hk_out : K .out = false) (hk_regs : K .regs = false) :
    Holds K P (State.enginesStep s) := by
  unfold State.enginesStep
  try dsimp only
  with_reducible repeat' first
    | intro _ | assumption | apply State.engStep_keeps | apply Holds.foldl | dsimp only

theorem State.engineReset_keeps (s : State) (n : Nat) (hs : Holds K P s) (hk_accesses : K .accesses = false)
    (hk_dmem : K .dmem = false) (hk_engines : K .engines = false) (hk_hag : K .hag = false) (hk_hold : K .hold = false)
    (hk_mem : K .mem = false) (hk_out : K .out = false) (hk_regs : K .regs = false) :
    Holds K P (State.engineReset s n) := by
  unfold State.engineReset
  try dsimp only
  with_reducible repeat' first
    | intro _ | assumption | apply State.setEngine_keeps | apply State.writeEntry_keeps | dsimp only

theorem State.clusterReset_keeps (s : State) (d : Die) (i : Nat) (hs : Holds K P s) (hk_accesses : K .accesses = false)
    (hk_dmem : K .dmem = false) (hk_engines : K .engines = false) (hk_hag : K .hag = false) (hk_hold : K .hold = false)
    (hk_mem : K .mem = false) (hk_out : K .out = false) (hk_regs : K .regs = false) :
    Holds K P (State.clusterReset s d i) := by
  unfold State.clusterReset
  try dsimp only
  with_reducible repeat' first
    | intro _ | assumption | apply State.engineReset_keeps | apply Holds.foldl | dsimp only

end Sys2Proof.Machine
end

