-- ==== Sys2Proof/Laws/KeepPower.lean ====
section
/-! SUPPORT. The operations of Power.lean keep what the operations on registers and memory keep. -/

namespace Sys2Proof.Machine

set_option linter.all false
set_option linter.unusedTactic false
set_option linter.unreachableTactic false

variable {K : Grp → Bool} {P : State → Prop}

theorem State.modDom_keeps (s : State) (d : Die) (i : Nat) (f : Dom → Dom) (hs : Holds K P s) (hk_power : K .power = false) :
    Holds K P (State.modDom s d i f) := by
  unfold State.modDom
  try dsimp only
  with_reducible repeat' first
   
    | (intro g x hg; cases g <;> first | exact absurd (hk_power.symm.trans hg) (by decide) | (with_unfolding_all exact dieSame_refl _ _) | (simp only [dieSame, and_self]))
    | intro _ | assumption | apply State.modDie_keeps | dsimp only

theorem State.domArrays_keeps (s : State) (d : Die) (i : Nat) (hs : Holds K P s) (hk_tmu : K .tmu = false)
    (hk_xlu : K .xlu = false) :
    Holds K P (State.domArrays s d i) := by
  unfold State.domArrays
  try dsimp only
  with_reducible repeat' first
    | intro _ | assumption | apply State.modTmu_keeps | apply State.modXlu_keeps | apply Holds.ite | split | dsimp only

theorem State.domEnter_keeps (s : State) (d : Die) (i : Nat) (k : Nat) (hs : Holds K P s) (hk_power : K .power = false)
    (hk_regs : K .regs = false) (hk_tmu : K .tmu = false) (hk_xlu : K .xlu = false) :
    Holds K P (State.domEnter s d i k) := by
  unfold State.domEnter
  try dsimp only
  with_reducible repeat' first
    | intro _ | assumption | apply State.modDom_keeps | apply State.wrs_keeps | apply State.when_keeps | apply State.bump_keeps
    | apply State.domArrays_keeps | dsimp only

theorem execDescentTimer_keeps (d : Die) (i : Fin 32) (s : State) (hs : Holds K P s) (hk_power : K .power = false)
    (hk_regs : K .regs = false) (hk_tmu : K .tmu = false) (hk_xlu : K .xlu = false) :
    HoldsO K P (execDescentTimer d i s) := by
  unfold execDescentTimer
  try dsimp only
  with_reducible repeat' first
    | intro _ | assumption | apply State.domEnter_keeps | apply State.modDom_keeps | apply State.wr_keeps | apply Holds.ite
    | apply HoldsO.next | split | dsimp only

theorem State.beginWake_keeps (s : State) (d : Die) (i : Nat) (hs : Holds K P s) (hk_power : K .power = false) :
    Holds K P (State.beginWake s d i) := by
  unfold State.beginWake
  try dsimp only
  with_reducible repeat' first
    | intro _ | assumption | apply State.modDom_keeps | apply State.when_keeps | apply Holds.ite | split | dsimp only

theorem execDomainStateSaved_keeps (d : Die) (i : Fin 32) (s : State) (hs : Holds K P s) (hk_power : K .power = false)
    (hk_regs : K .regs = false) (hk_tmu : K .tmu = false) (hk_xlu : K .xlu = false) :
    HoldsO K P (execDomainStateSaved d i s) := by
  unfold execDomainStateSaved
  try dsimp only
  with_reducible repeat' first
    | intro _ | assumption | apply State.modDom_keeps | apply State.domEnter_keeps | apply State.when_keeps
    | apply State.beginWake_keeps | apply Holds.ite | apply HoldsO.next | split | dsimp only

theorem State.releaseHeld_keeps (s : State) (d : Die) (i : Nat) (hs : Holds K P s) (hk_noc : K .noc = false) :
    Holds K P (State.releaseHeld s d i) := by
  unfold State.releaseHeld
  try dsimp only
  with_reducible repeat' first
    | intro _ | assumption | apply State.modNoc_keeps | dsimp only

theorem State.abandonFence_keeps (s : State) (d : Die) (i : Nat) (count : Fld) (hs : Holds K P s) (hk_noc : K .noc = false)
    (hk_power : K .power = false) (hk_regs : K .regs = false) (hk_tmu : K .tmu = false) (hk_xlu : K .xlu = false) :
    Holds K P (State.abandonFence s d i count) := by
  unfold State.abandonFence
  try dsimp only
  with_reducible repeat' first
    | intro _ | assumption | apply State.modDom_keeps | apply State.bump_keeps | apply State.wr_keeps | apply State.domEnter_keeps
    | apply State.releaseHeld_keeps | apply Holds.ite | split | dsimp only

theorem State.showHeld_keeps (s : State) (d : Die) (i : Nat) (hs : Holds K P s) (hk_regs : K .regs = false) :
    Holds K P (State.showHeld s d i) := by
  unfold State.showHeld
  try dsimp only
  with_reducible repeat' first
    | intro _ | assumption | apply State.wr_keeps | apply State.atLeast_keeps | dsimp only

theorem State.countHeld_keeps (s : State) (d : Die) (hs : Holds K P s) (hk_regs : K .regs = false) :
    Holds K P (State.countHeld s d) := by
  unfold State.countHeld
  try dsimp only
  with_reducible repeat' first
    | intro _ | assumption | apply State.event_keeps | apply State.bump_keeps | dsimp only

theorem State.wake_keeps (s : State) (d : Die) (i : Nat) (hs : Holds K P s) (hk_noc : K .noc = false)
    (hk_power : K .power = false) (hk_regs : K .regs = false) (hk_tmu : K .tmu = false) (hk_xlu : K .xlu = false) :
    Holds K P (State.wake s d i) := by
  unfold State.wake
  try dsimp only
  with_reducible repeat' first
    | intro _ | assumption | apply State.abandonFence_keeps | apply State.modDom_keeps | apply State.beginWake_keeps
    | apply Holds.ite | split | dsimp only

theorem State.galopReached_keeps (s : State) (apply : HeldWrite → State → State) (d : Die) (i : Nat) (hs : Holds K P s)
    (happly : ∀ x0 x1, Holds K P x1 → Holds K P (apply x0 x1)) (hk_noc : K .noc = false) (hk_power : K .power = false)
    (hk_regs : K .regs = false) (hk_tmu : K .tmu = false) (hk_xlu : K .xlu = false) :
    Holds K P (State.galopReached s apply d i) := by
  unfold State.galopReached
  try dsimp only
  with_reducible repeat' first
    | intro _ | assumption | apply State.wr_keeps | apply State.releaseHeld_keeps | apply State.domEnter_keeps
    | apply State.modDom_keeps | apply State.when_keeps | apply State.bump_keeps | apply happly | apply Holds.ite
    | apply Holds.foldl | split | dsimp only

theorem State.lockOff_keeps (s : State) (d : Die) (i : Nat) (reason : Nat) (hs : Holds K P s)
    (hk_accesses : K .accesses = false) (hk_dmem : K .dmem = false) (hk_engines : K .engines = false)
    (hk_hag : K .hag = false) (hk_hold : K .hold = false) (hk_mem : K .mem = false) (hk_noc : K .noc = false)
    (hk_out : K .out = false) (hk_power : K .power = false) (hk_regs : K .regs = false) (hk_tmu : K .tmu = false)
    (hk_xlu : K .xlu = false) :
    Holds K P (State.lockOff s d i reason) := by
  unfold State.lockOff
  try dsimp only
  with_reducible repeat' first
    | intro _ | assumption | apply State.when_keeps | apply State.clusterReset_keeps | apply State.releaseHeld_keeps
    | apply State.domEnter_keeps | apply State.modDom_keeps | apply State.wrs_keeps | dsimp only

theorem State.lockOn_keeps (s : State) (d : Die) (i : Nat) (hs : Holds K P s) (hk_power : K .power = false)
    (hk_regs : K .regs = false) :
    Holds K P (State.lockOn s d i) := by
  unfold State.lockOn
  try dsimp only
  with_reducible repeat' first
    | intro _ | assumption | apply State.modDom_keeps | apply State.wrs_keeps | dsimp only

theorem State.domCfgWrite_keeps (s : State) (d : Die) (i : Nat) (mx : Nat) (pin : Bool) (hs : Holds K P s)
    (hk_noc : K .noc = false) (hk_power : K .power = false) (hk_regs : K .regs = false) (hk_tmu : K .tmu = false)
    (hk_xlu : K .xlu = false) :
    Holds K P (State.domCfgWrite s d i mx pin) := by
  unfold State.domCfgWrite
  try dsimp only
  with_reducible repeat' first
    | intro _ | assumption | apply State.wrs_keeps | apply State.when_keeps | apply State.wake_keeps | dsimp only

theorem execDomCfgWrite_keeps (rq : Requester) (d : Die) (i : Fin 32) (mx : Fin 8) (pin : Bool) (s : State) (hs : Holds K P s)
    (hk_noc : K .noc = false) (hk_power : K .power = false) (hk_regs : K .regs = false) (hk_tmu : K .tmu = false)
    (hk_xlu : K .xlu = false) :
    HoldsO K P (execDomCfgWrite rq d i mx pin s) := by
  unfold execDomCfgWrite
  try dsimp only
  with_reducible repeat' first
    | intro _ | assumption | apply State.asWarden_keeps | apply State.domCfgWrite_keeps | apply HoldsO.next | dsimp only

theorem State.wakeAll_keeps (s : State) (d : Die) (hs : Holds K P s) (hk_noc : K .noc = false) (hk_power : K .power = false)
    (hk_regs : K .regs = false) (hk_tmu : K .tmu = false) (hk_xlu : K .xlu = false) :
    Holds K P (State.wakeAll s d) := by
  unfold State.wakeAll
  try dsimp only
  with_reducible repeat' first
    | intro _ | assumption | apply State.wake_keeps | apply Holds.foldl | dsimp only

theorem execIslandClockGate_keeps (d : Die) (j : Fin 106) (s : State) (hs : Holds K P s) (hk_regs : K .regs = false) :
    HoldsO K P (execIslandClockGate d j s) := by
  unfold execIslandClockGate
  try dsimp only
  with_reducible repeat' first
    | intro _ | assumption | apply State.wr_keeps | apply Holds.ite | apply HoldsO.next | split | dsimp only

theorem State.trackDom_keeps (s : State) (d : Die) (i : Nat) (hs : Holds K P s) (hk_noc : K .noc = false)
    (hk_power : K .power = false) (hk_regs : K .regs = false) (hk_tmu : K .tmu = false) (hk_xlu : K .xlu = false) :
    Holds K P (State.trackDom s d i) := by
  unfold State.trackDom
  try dsimp only
  with_reducible repeat' first
    | intro _ | assumption | apply State.modDom_keeps | apply State.when_keeps | apply State.wake_keeps | apply Holds.ite | split
    | dsimp only

theorem State.trackQuad_keeps (s : State) (d : Die) (q : Nat) (hs : Holds K P s) (hk_power : K .power = false)
    (hk_regs : K .regs = false) (hk_tmu : K .tmu = false) (hk_xlu : K .xlu = false) :
    Holds K P (State.trackQuad s d q) := by
  unfold State.trackQuad
  try dsimp only
  with_reducible repeat' first
    | intro _ | assumption | apply State.domEnter_keeps | apply Holds.ite | split | dsimp only

theorem State.trackIsland_keeps (s : State) (d : Die) (j : Nat) (hs : Holds K P s) (hk_power : K .power = false)
    (hk_regs : K .regs = false) :
    Holds K P (State.trackIsland s d j) := by
  unfold State.trackIsland
  try dsimp only
  with_reducible repeat' first
   
    | (intro g x hg; cases g <;> first | exact absurd (hk_power.symm.trans hg) (by decide) | (with_unfolding_all exact dieSame_refl _ _) | (simp only [dieSame, and_self]))
    | intro _ | assumption | apply State.wr_keeps | apply State.modDie_keeps | apply Holds.ite | split | dsimp only

theorem State.trackPower_keeps (s : State) (d : Die) (hs : Holds K P s) (hk_noc : K .noc = false)
    (hk_power : K .power = false) (hk_regs : K .regs = false) (hk_tmu : K .tmu = false) (hk_xlu : K .xlu = false) :
    Holds K P (State.trackPower s d) := by
  unfold State.trackPower
  try dsimp only
  with_reducible repeat' first
    | intro _ | assumption | apply State.trackQuad_keeps | apply State.trackDom_keeps | apply State.trackIsland_keeps
    | apply Holds.ite | apply Holds.foldl | split | dsimp only

theorem execCoreVoltageAdjust_keeps (d : Die) (mv : BitVec 10) (answered : Bool) (s : State) (hs : Holds K P s)
    (hk_out : K .out = false) (hk_regs : K .regs = false) :
    HoldsO K P (execCoreVoltageAdjust d mv answered s) := by
  unfold execCoreVoltageAdjust
  try dsimp only
  with_reducible repeat' first
    | intro _ | assumption | apply State.emit_keeps | apply State.when_keeps | apply State.wrs_keeps | apply HoldsO.next
    | dsimp only

theorem State.thermTrip_keeps (s : State) (hs : Holds K P s) (hk_lanes : K .lanes = false) (hk_out : K .out = false)
    (hk_power : K .power = false) (hk_regs : K .regs = false) (hk_svc : K .svc = false) (hk_tmu : K .tmu = false)
    (hk_xlu : K .xlu = false) :
    Holds K P (State.thermTrip s) := by
  unfold State.thermTrip
  try dsimp only
  with_reducible repeat' first
    | intro _ | assumption | apply State.emit_keeps | apply State.laneOff_keeps | apply State.modDom_keeps
    | apply State.domEnter_keeps | simp only [Holds.upd, hk_svc, Bool.false_eq_true, false_implies, implies_true]
    | apply Holds.foldl | dsimp only

theorem State.setRefresh_keeps (s : State) (a b : List (BitVec 8)) (hs : Holds K P s) (hk_dmem : K .dmem = false) :
    Holds K P (State.setRefresh s a b) := by
  unfold State.setRefresh
  try dsimp only
  with_reducible repeat' first
   
    | (intro g x hg; cases g <;> first | exact absurd (hk_dmem.symm.trans hg) (by decide) | (with_unfolding_all exact dieSame_refl _ _) | (simp only [dieSame, and_self]))
    | intro _ | assumption | apply State.modDie_keeps | apply Holds.foldl | dsimp only

theorem execTempSample_keeps (a b : DieTemps) (v : List (BitVec 8))
    (s : State) (hs : Holds K P s) (hk_dmem : K .dmem = false) (hk_lanes : K .lanes = false) (hk_out : K .out = false)
    (hk_power : K .power = false) (hk_regs : K .regs = false) (hk_svc : K .svc = false) (hk_tmu : K .tmu = false)
    (hk_xlu : K .xlu = false) :
    HoldsO K P (execTempSample a b v s) := by
  unfold execTempSample
  try dsimp only
  with_reducible repeat' first
    | intro _ | assumption | apply State.setRefresh_keeps | apply State.wrs_keeps | apply State.when_keeps | apply State.alert_keeps
    | apply State.thermTrip_keeps | apply Holds.ite | simp only [Holds.upd, hk_svc, Bool.false_eq_true, false_implies, implies_true]
    | apply HoldsO.next | split | dsimp only

theorem execDevicePowerStateWrite_keeps (f : Fn) (d3 : Bool) (s : State) (hs : Holds K P s) (hk_noc : K .noc = false)
    (hk_ports : K .ports = false) (hk_power : K .power = false) (hk_regs : K .regs = false) (hk_tmu : K .tmu = false)
    (hk_xlu : K .xlu = false) :
    HoldsO K P (execDevicePowerStateWrite f d3 s) := by
  unfold execDevicePowerStateWrite
  try dsimp only
  with_reducible repeat' first
    | intro _ | assumption | apply State.modHp_keeps | apply State.when_keeps | apply State.wake_keeps | apply Holds.ite
    | apply HoldsO.next | split | dsimp only

theorem execAspmL1Entry_keeps (h_ : Fin 4) (one : Bool) (s : State) (hs : Holds K P s) (hk_ports : K .ports = false) :
    HoldsO K P (execAspmL1Entry h_ one s) := by
  unfold execAspmL1Entry
  try dsimp only
  with_reducible repeat' first
    | intro _ | assumption | apply State.modHp_keeps | apply Holds.ite | apply HoldsO.next | split | dsimp only

theorem execAspmL1Exit_keeps (h_ : Fin 4) (one : Bool) (s : State) (hs : Holds K P s) (hk_noc : K .noc = false)
    (hk_ports : K .ports = false) (hk_power : K .power = false) (hk_regs : K .regs = false) (hk_tmu : K .tmu = false)
    (hk_xlu : K .xlu = false) :
    HoldsO K P (execAspmL1Exit h_ one s) := by
  unfold execAspmL1Exit
  try dsimp only
  with_reducible repeat' first
    | intro _ | assumption | apply State.wake_keeps | apply State.modHp_keeps | apply Holds.ite | apply HoldsO.next | split
    | dsimp only

end Sys2Proof.Machine
end

