-- ==== Sys2Proof/Laws/KeepNoc.lean ====
section
/-! SUPPORT. The operations of Noc.lean keep what the operations on registers and memory keep. -/

namespace Sys2Proof.Machine

set_option linter.all false
set_option linter.unusedTactic false
set_option linter.unreachableTactic false

variable {K : Grp → Bool} {P : State → Prop}

theorem State.nocOff_keeps (s : State) (d : Die) (stop : Nat) (u : NocUnit) (hs : Holds K P s) (hk_noc : K .noc = false)
    (hk_regs : K .regs = false) :
    Holds K P (State.nocOff s d stop u) := by
  unfold State.nocOff
  try dsimp only
  with_reducible repeat' first
    | intro _ | assumption | apply State.bump_keeps | apply State.when_keeps | apply State.modNocLink_keeps | apply Holds.ite
    | split | dsimp only

theorem State.holdUnit_keeps (s : State) (d : Die) (stop : Nat) (i : Nat) (u : NocUnit) (hs : Holds K P s)
    (hk_noc : K .noc = false) (hk_power : K .power = false) (hk_regs : K .regs = false) (hk_tmu : K .tmu = false)
    (hk_xlu : K .xlu = false) :
    Holds K P (State.holdUnit s d stop i u) := by
  unfold State.holdUnit
  try dsimp only
  with_reducible repeat' first
    | intro _ | assumption | apply State.modNoc_keeps | apply State.wake_keeps | apply State.showHeld_keeps | apply State.when_keeps
    | apply State.countHeld_keeps | dsimp only

theorem State.nocArrive_keeps (s : State) (d : Die) (stop : Nat) (u : NocUnit) (hs : Holds K P s) (hk_noc : K .noc = false)
    (hk_power : K .power = false) (hk_regs : K .regs = false) (hk_tmu : K .tmu = false) (hk_xlu : K .xlu = false) :
    Holds K P (State.nocArrive s d stop u).1 := by
  unfold State.nocArrive
  try dsimp only
  with_reducible repeat' first
    | intro _ | assumption | apply State.nocOff_keeps | apply State.wake_keeps | apply State.holdUnit_keeps | apply Holds.ite
    | apply Holds.ite1 | refine Holds.of_fst (by assumption) ?_ | split | dsimp only

theorem State.nocCross_keeps (s : State) (d : Die) (u : NocUnit) (hs : Holds K P s) (hk_bridge : K .bridge = false)
    (hk_noc : K .noc = false) :
    Holds K P (State.nocCross s d u) := by
  unfold State.nocCross
  try dsimp only
  with_reducible repeat' first
    | intro _ | assumption | apply State.modNoc_keeps | apply State.nocFromBridge_keeps | apply State.modBridge_keeps
    | apply Holds.ite | apply Holds.foldl | split | dsimp only

theorem State.nocForward_keeps (s : State) (d : Die) (stop : Nat) (u : NocUnit) (hs : Holds K P s)
    (hk_bridge : K .bridge = false) (hk_noc : K .noc = false) (hk_power : K .power = false) (hk_regs : K .regs = false)
    (hk_tmu : K .tmu = false) (hk_xlu : K .xlu = false) :
    Holds K P (State.nocForward s d stop u).1 := by
  unfold State.nocForward
  try dsimp only
  with_reducible repeat' first
    | intro _ | assumption | apply State.nocArrive_keeps | apply State.nocCross_keeps | apply State.wake_keeps
    | apply State.event_keeps | apply State.modNocLink_keeps | apply Holds.ite | apply Holds.ite1 | split | dsimp only

theorem State.nocDrain_keeps (d : Die) (stop : Nat) (a : List NocUnit) (a' : List Nat) (a'' : State) (ha'' : Holds K P a'')
    (hk_bridge : K .bridge = false) (hk_noc : K .noc = false) (hk_power : K .power = false) (hk_regs : K .regs = false)
    (hk_tmu : K .tmu = false) (hk_xlu : K .xlu = false) :
    Holds K P (State.nocDrain d stop a a' a'').1 := by
  induction a generalizing a' a'' ha'' with
  | nil =>
    unfold State.nocDrain
    try dsimp only
    with_reducible repeat' first
      | intro _ | assumption | apply ih | apply State.nocForward_keeps | apply Holds.ite | apply Holds.ite1
      | refine Holds.of_fst (by assumption) ?_ | split | dsimp only
  | cons x l ih =>
    unfold State.nocDrain
    try dsimp only
    with_reducible repeat' first
      | intro _ | assumption | apply ih | apply State.nocForward_keeps | apply Holds.ite | apply Holds.ite1
      | refine Holds.of_fst (by assumption) ?_ | split | dsimp only

theorem State.nocInput_keeps (s : State) (d : Die) (k : Nat) (hs : Holds K P s) (hk_bridge : K .bridge = false)
    (hk_noc : K .noc = false) (hk_power : K .power = false) (hk_regs : K .regs = false) (hk_tmu : K .tmu = false)
    (hk_xlu : K .xlu = false) :
    Holds K P (State.nocInput s d k) := by
  unfold State.nocInput
  try dsimp only
  with_reducible repeat' first
    | intro _ | assumption | apply State.nocDrain_keeps | apply State.modNocLink_keeps | apply State.modBridge_keeps
    | apply Holds.ite | apply Holds.foldl | apply Holds.ite1 | apply Holds.foldl1 | refine Holds.of_fst (by assumption) ?_ | split
    | dsimp only

theorem State.nocMove_keeps (s : State) (d : Die) (hs : Holds K P s) (hk_bridge : K .bridge = false) (hk_noc : K .noc = false)
    (hk_power : K .power = false) (hk_regs : K .regs = false) (hk_swc : K .swc = false) (hk_tmu : K .tmu = false)
    (hk_xlu : K .xlu = false) :
    Holds K P (State.nocMove s d) := by
  unfold State.nocMove
  try dsimp only
  with_reducible repeat' first
    | intro _ | assumption | apply State.bridgeTx_keeps | apply State.nocInput_keeps | apply Holds.foldl | dsimp only

theorem execNocUnitReceived_keeps (d : Die) (stop : Fin 64) (dir : Fin 4) (unit : BitVec 544) (s : State) (hs : Holds K P s)
    (hk_bridge : K .bridge = false) (hk_noc : K .noc = false) (hk_power : K .power = false) (hk_regs : K .regs = false)
    (hk_swc : K .swc = false) (hk_tmu : K .tmu = false) (hk_xlu : K .xlu = false) :
    HoldsO K P (execNocUnitReceived d stop dir unit s) := by
  unfold execNocUnitReceived
  try dsimp only
  with_reducible repeat' first
    | intro _ | assumption | apply State.modNocLink_keeps | apply State.when_keeps | apply State.modNoc_keeps
    | apply State.nocMove_keeps | apply HoldsO.next | split | dsimp only

theorem execBridgeFlitReceived_keeps (d : Die) (m : Fin 16) (err : List (Fin 272 × Byte)) (s : State) (hs : Holds K P s)
    (hk_bridge : K .bridge = false) (hk_llus : K .llus = false) (hk_noc : K .noc = false) (hk_power : K .power = false)
    (hk_regs : K .regs = false) (hk_sluice : K .sluice = false) (hk_swc : K .swc = false) (hk_tmu : K .tmu = false)
    (hk_xlu : K .xlu = false) :
    HoldsO K P (execBridgeFlitReceived d m err s) := by
  unfold execBridgeFlitReceived
  try dsimp only
  with_reducible repeat' first
    | intro _ | assumption | apply State.nocMove_keeps | apply State.bflitIn_keeps | apply HoldsO.next | dsimp only

theorem execDomainWake_keeps (d : Die) (i : Fin 32) (units : Fin 17) (s : State) (hs : Holds K P s)
    (hk_bridge : K .bridge = false) (hk_noc : K .noc = false) (hk_power : K .power = false) (hk_regs : K .regs = false)
    (hk_swc : K .swc = false) (hk_tmu : K .tmu = false) (hk_xlu : K .xlu = false) :
    HoldsO K P (execDomainWake d i units s) := by
  unfold execDomainWake
  try dsimp only
  with_reducible repeat' first
    | intro _ | assumption | apply State.wake_keeps | apply State.nocMove_keeps | apply State.modNocLink_keeps | apply Holds.ite
    | apply HoldsO.next | split | dsimp only

end Sys2Proof.Machine
end

