-- ==== Sys2Proof/Laws/KeepResets.lean ====
section
/-! SUPPORT. The operations of Resets.lean keep what the operations on registers and memory keep. -/

namespace Sys2Proof.Machine

set_option linter.all false
set_option linter.unusedTactic false
set_option linter.unreachableTactic false

variable {K : Grp → Bool} {P : State → Prop}

theorem State.freeToken_keeps (s : State) (hs : Holds K P s) (hk_regs : K .regs = false) :
    Holds K P (State.freeToken s) := by
  unfold State.freeToken
  try dsimp only
  with_reducible repeat' first
    | intro _ | assumption | apply State.wrs_keeps | dsimp only

theorem State.dropAccesses_keeps (s : State) (f : Fn) (hs : Holds K P s) (hk_accesses : K .accesses = false)
    (hk_dmem : K .dmem = false) (hk_hag : K .hag = false) (hk_hold : K .hold = false) (hk_mem : K .mem = false)
    (hk_out : K .out = false) (hk_regs : K .regs = false) :
    Holds K P (State.dropAccesses s f) := by
  unfold State.dropAccesses
  try dsimp only
  with_reducible repeat' first
   
    | (intro g x hg; cases g <;> first | exact absurd (hk_dmem.symm.trans hg) (by decide) | (with_unfolding_all exact dieSame_refl _ _) | (simp only [dieSame, and_self]))
    | intro _ | assumption | apply State.modDie_keeps | apply State.modHag_keeps | apply State.devGo_keeps | apply Holds.ite
    | simp only [Holds.upd, hk_accesses, Bool.false_eq_true, false_implies, implies_true] | apply Holds.foldl | split | dsimp only

theorem State.dropReads_keeps (s : State) (f : Fn) (hs : Holds K P s) (hk_reads : K .reads = false) (hk_rma : K .rma = false)
    (hk_sluice : K .sluice = false) :
    Holds K P (State.dropReads s f) := by
  unfold State.dropReads
  try dsimp only
  with_reducible repeat' first
    | intro _ | assumption | apply State.modSluice_keeps | apply State.modRma_keeps | apply Holds.ite
    | simp only [Holds.upd, hk_reads, Bool.false_eq_true, false_implies, implies_true] | split | dsimp only

theorem State.resetFunction_keeps (s : State) (f : Fn) (hs : Holds K P s) (hk_accesses : K .accesses = false)
    (hk_counters : K .counters = false) (hk_dmem : K .dmem = false) (hk_hag : K .hag = false) (hk_hold : K .hold = false)
    (hk_mem : K .mem = false) (hk_members : K .members = false) (hk_ops : K .ops = false) (hk_out : K .out = false)
    (hk_queues : K .queues = false) (hk_reads : K .reads = false) (hk_regs : K .regs = false) (hk_rings : K .rings = false)
    (hk_rma : K .rma = false) (hk_sluice : K .sluice = false) (hk_tmu : K .tmu = false) (hk_triggers : K .triggers = false)
    (hk_xlu : K .xlu = false) :
    Holds K P (State.resetFunction s f) := by
  unfold State.resetFunction
  try dsimp only
  with_reducible repeat' first
    | intro _ | assumption | apply State.quadResetFn_keeps | apply State.tmuDropQueue_keeps | apply State.dropQueue_keeps
    | apply State.dropReads_keeps | apply State.dropAccesses_keeps | apply State.xluResetFn_keeps | apply State.when_keeps
    | apply State.freeToken_keeps
    | simp only [Holds.upd, hk_counters, hk_hold, hk_rings, Bool.false_eq_true, false_implies, implies_true] | apply Holds.foldl
    | dsimp only

theorem execFunctionLevelReset_keeps (f : Fn) (s : State) (hs : Holds K P s) (hk_accesses : K .accesses = false)
    (hk_counters : K .counters = false) (hk_dmem : K .dmem = false) (hk_hag : K .hag = false) (hk_hold : K .hold = false)
    (hk_mem : K .mem = false) (hk_members : K .members = false) (hk_ops : K .ops = false) (hk_out : K .out = false)
    (hk_ports : K .ports = false) (hk_queues : K .queues = false) (hk_reads : K .reads = false) (hk_regs : K .regs = false)
    (hk_rings : K .rings = false) (hk_rma : K .rma = false) (hk_sluice : K .sluice = false) (hk_tmu : K .tmu = false)
    (hk_triggers : K .triggers = false) (hk_xlu : K .xlu = false) :
    HoldsO K P (execFunctionLevelReset f s) := by
  unfold execFunctionLevelReset
  try dsimp only
  with_reducible repeat' first
    | intro _ | assumption | apply State.modHp_keeps | apply State.resetFunction_keeps | apply HoldsO.next | dsimp only

theorem State.forgetHost_keeps (s : State) (h_ : Fin 4) (hs : Holds K P s) (hk_accesses : K .accesses = false)
    (hk_dmem : K .dmem = false) (hk_hag : K .hag = false) (hk_hold : K .hold = false) (hk_mem : K .mem = false)
    (hk_out : K .out = false) (hk_regs : K .regs = false) :
    Holds K P (State.forgetHost s h_) := by
  unfold State.forgetHost
  try dsimp only
  with_reducible repeat' first
    | intro _ | assumption | apply State.birsp_keeps | apply State.modHag_keeps | apply Holds.foldl | split | dsimp only

theorem State.resetPort_keeps (s : State) (h_ : Fin 4) (hs : Holds K P s) (hk_accesses : K .accesses = false)
    (hk_counters : K .counters = false) (hk_dmem : K .dmem = false) (hk_hag : K .hag = false) (hk_hold : K .hold = false)
    (hk_mem : K .mem = false) (hk_members : K .members = false) (hk_ops : K .ops = false) (hk_out : K .out = false)
    (hk_ports : K .ports = false) (hk_queues : K .queues = false) (hk_reads : K .reads = false) (hk_regs : K .regs = false)
    (hk_rings : K .rings = false) (hk_rma : K .rma = false) (hk_sluice : K .sluice = false) (hk_tmu : K .tmu = false)
    (hk_triggers : K .triggers = false) (hk_xlu : K .xlu = false) :
    Holds K P (State.resetPort s h_) := by
  unfold State.resetPort
  try dsimp only
  with_reducible repeat' first
    | intro _ | assumption | apply State.resetFunction_keeps | apply State.wr_keeps | apply State.forgetHost_keeps
    | apply State.modHp_keeps | apply Holds.foldl | dsimp only

theorem State.trainHost_keeps (s : State) (h_ : Fin 4) (at_ : Nat) (hs : Holds K P s) (hk_ports : K .ports = false) :
    Holds K P (State.trainHost s h_ at_) := by
  unfold State.trainHost
  try dsimp only
  with_reducible repeat' first
    | intro _ | assumption | apply State.modHp_keeps | dsimp only

theorem execPerstNAsserted_keeps (h_ : Fin 4) (s : State) (hs : Holds K P s) (hk_accesses : K .accesses = false)
    (hk_counters : K .counters = false) (hk_dmem : K .dmem = false) (hk_hag : K .hag = false) (hk_hold : K .hold = false)
    (hk_mem : K .mem = false) (hk_members : K .members = false) (hk_ops : K .ops = false) (hk_out : K .out = false)
    (hk_ports : K .ports = false) (hk_queues : K .queues = false) (hk_reads : K .reads = false) (hk_regs : K .regs = false)
    (hk_rings : K .rings = false) (hk_rma : K .rma = false) (hk_sluice : K .sluice = false) (hk_tmu : K .tmu = false)
    (hk_triggers : K .triggers = false) (hk_xlu : K .xlu = false) :
    HoldsO K P (execPerstNAsserted h_ s) := by
  unfold execPerstNAsserted
  try dsimp only
  with_reducible repeat' first
    | intro _ | assumption | apply State.modHp_keeps | apply State.when_keeps | apply State.resetPort_keeps | apply Holds.ite
    | apply HoldsO.next | split | dsimp only

theorem execPerstNDeasserted_keeps (h_ : Fin 4) (s : State) (hs : Holds K P s) (hk_ports : K .ports = false) :
    HoldsO K P (execPerstNDeasserted h_ s) := by
  unfold execPerstNDeasserted
  try dsimp only
  with_reducible repeat' first
    | intro _ | assumption | apply State.when_keeps | apply State.modHp_keeps | apply State.trainHost_keeps | apply Holds.ite
    | apply HoldsO.next | split | dsimp only

theorem execPtmExchange_keeps (h_ : Fin 4) (host : W64) (s : State) (hs : Holds K P s) (hk_regs : K .regs = false) :
    HoldsO K P (execPtmExchange h_ host s) := by
  unfold execPtmExchange
  try dsimp only
  with_reducible repeat' first
    | intro _ | assumption | apply State.wrs_keeps | apply Holds.ite | apply HoldsO.next | split | dsimp only

theorem State.portStart_keeps (s : State) (d : Die) (i : Nat) (hs : Holds K P s) (hk_lanes : K .lanes = false)
    (hk_llus : K .llus = false) (hk_regs : K .regs = false) (hk_rtb : K .rtb = false) :
    Holds K P (State.portStart s d i) := by
  unfold State.portStart
  try dsimp only
  with_reducible repeat' first
    | intro _ | assumption | apply State.attempt_keeps | apply State.modLlu_keeps | apply Holds.ite | split | dsimp only

end Sys2Proof.Machine
end

