-- ==== Sys2Proof/Laws/KeepFaults.lean ====
section
/-! SUPPORT. The operations of Faults.lean keep what the operations on registers and memory keep. -/

namespace Sys2Proof.Machine

set_option linter.all false
set_option linter.unusedTactic false
set_option linter.unreachableTactic false

variable {K : Grp → Bool} {P : State → Prop}

theorem State.observe_keeps (s : State) (key : Nat) (n : Nat) (win : Nat) (cap : Nat) (hs : Holds K P s)
    (hk_faults : K .faults = false) :
    Holds K P (State.observe s key n win cap).1 := by
  unfold State.observe
  try dsimp only
  with_reducible repeat' first
    | intro _ | assumption | apply State.modFm_keeps | apply Holds.ite | apply Holds.ite1 | split | dsimp only

theorem State.growth_keeps (s : State) (key : Nat) (value : Nat) (hs : Holds K P s) (hk_faults : K .faults = false) :
    Holds K P (State.growth s key value).1 := by
  unfold State.growth
  try dsimp only
  with_reducible repeat' first
    | intro _ | assumption | apply State.modFm_keeps | apply Holds.ite | apply Holds.ite1 | split | dsimp only

theorem State.watch_keeps (s : State) (key : Nat) (value : Nat) (win : Nat) (cap : Nat) (hs : Holds K P s)
    (hk_faults : K .faults = false) :
    Holds K P (State.watch s key value win cap).1 := by
  unfold State.watch
  try dsimp only
  with_reducible repeat' first
    | intro _ | assumption | apply State.growth_keeps | apply State.observe_keeps | refine Holds.of_fst (by assumption) ?_ | split
    | dsimp only

theorem State.availAdd_keeps (s : State) (h_ : Fin 4) (n : Nat) (hs : Holds K P s) (hk_regs : K .regs = false) :
    Holds K P (State.availAdd s h_ n) := by
  unfold State.availAdd
  try dsimp only
  with_reducible repeat' first
    | intro _ | assumption | apply State.wr_keeps | dsimp only

theorem State.availEvent_keeps (s : State) (h_ : Fin 4) (n : Nat) (hs : Holds K P s) (hk_regs : K .regs = false) :
    Holds K P (State.availEvent s h_ n) := by
  unfold State.availEvent
  try dsimp only
  with_reducible repeat' first
    | intro _ | assumption | apply State.availAdd_keeps | apply State.bump_keeps | dsimp only

theorem State.portDown_keeps (s : State) (h_ : Fin 4) (hs : Holds K P s) (hk_faults : K .faults = false)
    (hk_regs : K .regs = false) :
    Holds K P (State.portDown s h_) := by
  unfold State.portDown
  try dsimp only
  with_reducible repeat' first
    | intro _ | assumption | apply State.modFm_keeps | apply State.availEvent_keeps | dsimp only

theorem State.loseDie_keeps (s : State) (d : Die) (hs : Holds K P s) (hk_accesses : K .accesses = false)
    (hk_bridge : K .bridge = false) (hk_counters : K .counters = false) (hk_dmem : K .dmem = false)
    (hk_engines : K .engines = false) (hk_faults : K .faults = false) (hk_hag : K .hag = false) (hk_hold : K .hold = false)
    (hk_lanes : K .lanes = false) (hk_llus : K .llus = false) (hk_mem : K .mem = false) (hk_members : K .members = false)
    (hk_noc : K .noc = false) (hk_ops : K .ops = false) (hk_out : K .out = false) (hk_ports : K .ports = false)
    (hk_power : K .power = false) (hk_queues : K .queues = false) (hk_reads : K .reads = false) (hk_regs : K .regs = false)
    (hk_rings : K .rings = false) (hk_rma : K .rma = false) (hk_rtb : K .rtb = false) (hk_sluice : K .sluice = false)
    (hk_svc : K .svc = false) (hk_swc : K .swc = false) (hk_tmu : K .tmu = false) (hk_triggers : K .triggers = false)
    (hk_xlu : K .xlu = false) :
    Holds K P (State.loseDie s d) := by
  unfold State.loseDie
  try dsimp only
  with_reducible repeat' first
    | intro _ | assumption | apply State.event__keeps | apply State.wr_keeps | apply State.setLink_keeps | apply State.portOut_keeps
    | apply State.modHp_keeps | apply State.resetPort_keeps | apply State.when_keeps | apply State.portDown_keeps
    | apply State.lockOff_keeps | apply State.split_keeps | apply Holds.ite | apply Holds.foldl | split | dsimp only

theorem State.cycleArrays_keeps (s : State) (d : Die) (i : Nat) (hs : Holds K P s) (hk_accesses : K .accesses = false)
    (hk_bridge : K .bridge = false) (hk_counters : K .counters = false) (hk_dmem : K .dmem = false)
    (hk_engines : K .engines = false) (hk_hag : K .hag = false) (hk_hold : K .hold = false) (hk_lanes : K .lanes = false)
    (hk_llus : K .llus = false) (hk_mem : K .mem = false) (hk_members : K .members = false) (hk_ops : K .ops = false)
    (hk_out : K .out = false) (hk_ports : K .ports = false) (hk_queues : K .queues = false) (hk_reads : K .reads = false)
    (hk_regs : K .regs = false) (hk_rings : K .rings = false) (hk_rma : K .rma = false) (hk_rtb : K .rtb = false)
    (hk_sluice : K .sluice = false) (hk_swc : K .swc = false) (hk_tmu : K .tmu = false) (hk_triggers : K .triggers = false)
    (hk_xlu : K .xlu = false) :
    Holds K P (State.cycleArrays s d i) := by
  unfold State.cycleArrays
  try dsimp only
  with_reducible repeat' first
    | intro _ | assumption | apply State.setLlu_keeps | apply State.setLink_keeps | apply State.portOut_keeps
    | apply State.clusterReset_keeps | apply State.resetPort_keeps | apply State.dropMember_keeps | apply State.quadFailHere_keeps
    | apply State.modXlu_keeps | apply State.modHag_keeps | apply State.dropBridge_keeps | apply State.modBridge_keeps
    | apply Holds.ite | apply Holds.foldl | split | dsimp only

theorem State.cycleDomain_keeps (s : State) (d : Die) (i : Nat) (hs : Holds K P s) (hk_accesses : K .accesses = false)
    (hk_bridge : K .bridge = false) (hk_counters : K .counters = false) (hk_dmem : K .dmem = false)
    (hk_engines : K .engines = false) (hk_hag : K .hag = false) (hk_hold : K .hold = false) (hk_lanes : K .lanes = false)
    (hk_llus : K .llus = false) (hk_mem : K .mem = false) (hk_members : K .members = false) (hk_ops : K .ops = false)
    (hk_out : K .out = false) (hk_ports : K .ports = false) (hk_power : K .power = false) (hk_queues : K .queues = false)
    (hk_reads : K .reads = false) (hk_regs : K .regs = false) (hk_rings : K .rings = false) (hk_rma : K .rma = false)
    (hk_rtb : K .rtb = false) (hk_sluice : K .sluice = false) (hk_swc : K .swc = false) (hk_tmu : K .tmu = false)
    (hk_triggers : K .triggers = false) (hk_xlu : K .xlu = false) :
    Holds K P (State.cycleDomain s d i) := by
  unfold State.cycleDomain
  try dsimp only
  with_reducible repeat' first
    | intro _ | assumption | apply State.domEnter_keeps | apply State.cycleArrays_keeps | apply State.modDom_keeps | dsimp only

theorem execFenceAck_keeps (d : Die) (i : Fin 32) (s : State) (hs : Holds K P s) (hk_accesses : K .accesses = false)
    (hk_bridge : K .bridge = false) (hk_counters : K .counters = false) (hk_dmem : K .dmem = false)
    (hk_engines : K .engines = false) (hk_hag : K .hag = false) (hk_hold : K .hold = false) (hk_lanes : K .lanes = false)
    (hk_llus : K .llus = false) (hk_mem : K .mem = false) (hk_members : K .members = false) (hk_ops : K .ops = false)
    (hk_out : K .out = false) (hk_ports : K .ports = false) (hk_power : K .power = false) (hk_queues : K .queues = false)
    (hk_reads : K .reads = false) (hk_regs : K .regs = false) (hk_rings : K .rings = false) (hk_rma : K .rma = false)
    (hk_rtb : K .rtb = false) (hk_sluice : K .sluice = false) (hk_swc : K .swc = false) (hk_tmu : K .tmu = false)
    (hk_triggers : K .triggers = false) (hk_xlu : K .xlu = false) :
    HoldsO K P (execFenceAck d i s) := by
  unfold execFenceAck
  try dsimp only
  with_reducible repeat' first
    | intro _ | assumption | apply State.bump_keeps | apply State.cycleDomain_keeps | apply State.modDom_keeps | apply Holds.ite
    | apply HoldsO.next | split | dsimp only

theorem execFenceTimeout_keeps (d : Die) (i : Fin 32) (s : State) (hs : Holds K P s) (hk_accesses : K .accesses = false)
    (hk_bridge : K .bridge = false) (hk_counters : K .counters = false) (hk_dmem : K .dmem = false)
    (hk_engines : K .engines = false) (hk_hag : K .hag = false) (hk_hold : K .hold = false) (hk_lanes : K .lanes = false)
    (hk_llus : K .llus = false) (hk_mem : K .mem = false) (hk_members : K .members = false) (hk_noc : K .noc = false)
    (hk_ops : K .ops = false) (hk_out : K .out = false) (hk_ports : K .ports = false) (hk_power : K .power = false)
    (hk_queues : K .queues = false) (hk_reads : K .reads = false) (hk_regs : K .regs = false) (hk_rings : K .rings = false)
    (hk_rma : K .rma = false) (hk_rtb : K .rtb = false) (hk_sluice : K .sluice = false) (hk_swc : K .swc = false)
    (hk_tmu : K .tmu = false) (hk_triggers : K .triggers = false) (hk_xlu : K .xlu = false) :
    HoldsO K P (execFenceTimeout d i s) := by
  unfold execFenceTimeout
  try dsimp only
  with_reducible repeat' first
    | intro _ | assumption | apply State.cycleDomain_keeps | apply State.abandonFence_keeps | apply Holds.ite | apply HoldsO.next
    | split | dsimp only

theorem State.loseHostPort_keeps (s : State) (h_ : Fin 4) (hs : Holds K P s) (hk_accesses : K .accesses = false)
    (hk_bridge : K .bridge = false) (hk_counters : K .counters = false) (hk_dmem : K .dmem = false)
    (hk_engines : K .engines = false) (hk_faults : K .faults = false) (hk_hag : K .hag = false) (hk_hold : K .hold = false)
    (hk_lanes : K .lanes = false) (hk_llus : K .llus = false) (hk_mem : K .mem = false) (hk_members : K .members = false)
    (hk_noc : K .noc = false) (hk_ops : K .ops = false) (hk_out : K .out = false) (hk_ports : K .ports = false)
    (hk_power : K .power = false) (hk_queues : K .queues = false) (hk_reads : K .reads = false) (hk_regs : K .regs = false)
    (hk_rings : K .rings = false) (hk_rma : K .rma = false) (hk_rtb : K .rtb = false) (hk_sluice : K .sluice = false)
    (hk_svc : K .svc = false) (hk_swc : K .swc = false) (hk_tmu : K .tmu = false) (hk_triggers : K .triggers = false)
    (hk_xlu : K .xlu = false) :
    Holds K P (State.loseHostPort s h_) := by
  unfold State.loseHostPort
  try dsimp only
  with_reducible repeat' first
    | intro _ | assumption | apply State.portDown_keeps | apply State.event__keeps | apply State.observe_keeps
    | apply State.lockOff_keeps | apply State.modHp_keeps | apply State.resetPort_keeps | apply State.when_keeps
    | apply State.cycleDomain_keeps | apply State.trainHost_keeps | apply Holds.ite | apply Holds.ite1
    | refine Holds.of_fst (by assumption) ?_ | split | dsimp only

theorem State.retireLane_keeps (s : State) (d : Die) (n : Nat) (cause : Nat) (hs : Holds K P s)
    (hk_bridge : K .bridge = false) (hk_faults : K .faults = false) (hk_lanes : K .lanes = false) (hk_llus : K .llus = false)
    (hk_out : K .out = false) (hk_regs : K .regs = false) (hk_rtb : K .rtb = false) (hk_sluice : K .sluice = false)
    (hk_svc : K .svc = false) (hk_swc : K .swc = false) :
    Holds K P (State.retireLane s d n cause) := by
  unfold State.retireLane
  try dsimp only
  with_reducible repeat' first
    | intro _ | assumption | apply State.recordRet_keeps | apply State.laneOff_keeps | apply State.retirePort_keeps
    | apply State.changeGo_keeps | apply State.modLlu_keeps | apply Holds.ite | split | dsimp only

theorem State.retireEngine_keeps (s : State) (n : Nat) (cause : Nat) (hs : Holds K P s) (hk_accesses : K .accesses = false)
    (hk_bridge : K .bridge = false) (hk_counters : K .counters = false) (hk_dmem : K .dmem = false)
    (hk_engines : K .engines = false) (hk_faults : K .faults = false) (hk_free : K .free = false) (hk_hag : K .hag = false)
    (hk_hold : K .hold = false) (hk_lanes : K .lanes = false) (hk_llus : K .llus = false) (hk_mem : K .mem = false)
    (hk_members : K .members = false) (hk_noc : K .noc = false) (hk_ops : K .ops = false) (hk_out : K .out = false)
    (hk_ports : K .ports = false) (hk_power : K .power = false) (hk_queues : K .queues = false) (hk_reads : K .reads = false)
    (hk_regs : K .regs = false) (hk_rings : K .rings = false) (hk_rma : K .rma = false) (hk_rtb : K .rtb = false)
    (hk_sluice : K .sluice = false) (hk_svc : K .svc = false) (hk_swc : K .swc = false) (hk_tmu : K .tmu = false)
    (hk_triggers : K .triggers = false) (hk_xlu : K .xlu = false) :
    Holds K P (State.retireEngine s n cause) := by
  unfold State.retireEngine
  try dsimp only
  with_reducible repeat' first
    | intro _ | assumption | apply State.recordRet_keeps | apply State.loseDie_keeps | apply State.reassign_keeps | apply Holds.ite
    | split | dsimp only

theorem State.basinCeilings_keeps (s : State) (d : Die) (p : Params) (hs : Holds K P s) (hk_regs : K .regs = false) :
    Holds K P (State.basinCeilings s d p) := by
  unfold State.basinCeilings
  try dsimp only
  with_reducible repeat' first
    | intro _ | assumption | apply State.wr_keeps | apply Holds.foldl | dsimp only

theorem State.ctxTrim_keeps (s : State) (d : Die) (hs : Holds K P s) (hk_tru : K .tru = false) :
    Holds K P (State.ctxTrim s d) := by
  unfold State.ctxTrim
  try dsimp only
  with_reducible repeat' first
    | intro _ | assumption | apply State.modCtx_keeps | apply Holds.foldl | split | dsimp only

theorem State.bankOut_keeps (s : State) (d : Die) (k : Nat) (hs : Holds K P s) (hk_free : K .free = false)
    (hk_regs : K .regs = false) (hk_tmu : K .tmu = false) (hk_tru : K .tru = false) (hk_xlu : K .xlu = false) :
    Holds K P (State.bankOut s d k) := by
  unfold State.bankOut
  try dsimp only
  with_reducible repeat' first
    | intro _ | assumption | apply State.ctxTrim_keeps | apply State.wr_keeps | apply State.startRehash_keeps
    | apply State.modXlu_keeps | apply Holds.ite | split | dsimp only

theorem State.retireBank_keeps (s : State) (d : Die) (k : Nat) (cause : Nat) (hs : Holds K P s)
    (hk_faults : K .faults = false) (hk_free : K .free = false) (hk_out : K .out = false) (hk_regs : K .regs = false)
    (hk_sluice : K .sluice = false) (hk_svc : K .svc = false) (hk_tmu : K .tmu = false) (hk_tru : K .tru = false)
    (hk_xlu : K .xlu = false) :
    Holds K P (State.retireBank s d k cause) := by
  unfold State.retireBank
  try dsimp only
  with_reducible repeat' first
    | intro _ | assumption | apply State.bankOut_keeps | apply State.recordRet_keeps | apply Holds.ite | split | dsimp only

theorem State.wquTrim_keeps (s : State) (d : Die) (hs : Holds K P s) (hk_counters : K .counters = false)
    (hk_free : K .free = false) (hk_ops : K .ops = false) (hk_out : K .out = false) (hk_queues : K .queues = false)
    (hk_regs : K .regs = false) (hk_rings : K .rings = false) :
    Holds K P (State.wquTrim s d) := by
  unfold State.wquTrim
  try dsimp only
  with_reducible repeat' first
    | intro _ | assumption | apply State.qscEvict_keeps | apply State.ctrEvict_keeps | apply State.pfTrim_keeps | apply Holds.foldl
    | dsimp only

theorem State.retireWqu_keeps (s : State) (d : Die) (k : Nat) (cause : Nat) (hs : Holds K P s)
    (hk_counters : K .counters = false) (hk_faults : K .faults = false) (hk_free : K .free = false) (hk_ops : K .ops = false)
    (hk_out : K .out = false) (hk_queues : K .queues = false) (hk_regs : K .regs = false) (hk_rings : K .rings = false)
    (hk_sluice : K .sluice = false) (hk_svc : K .svc = false) :
    Holds K P (State.retireWqu s d k cause) := by
  unfold State.retireWqu
  try dsimp only
  with_reducible repeat' first
    | intro _ | assumption | apply State.wquTrim_keeps | apply State.recordRet_keeps | apply Holds.ite | split | dsimp only

theorem State.replayBankOut_keeps (s : State) (d : Die) (k : Nat) (hs : Holds K P s) (hk_lanes : K .lanes = false)
    (hk_llus : K .llus = false) (hk_regs : K .regs = false) (hk_rtb : K .rtb = false) :
    Holds K P (State.replayBankOut s d k) := by
  unfold State.replayBankOut
  try dsimp only
  with_reducible repeat' first
    | intro _ | assumption | apply State.retrain_keeps | apply State.wr_keeps | apply Holds.foldl | dsimp only

theorem State.loseBank_keeps (s : State) (d : Die) (idx : Nat) (bank : Nat) (hs : Holds K P s) (hk_faults : K .faults = false) :
    Holds K P (State.loseBank s d idx bank) := by
  unfold State.loseBank
  try dsimp only
  with_reducible repeat' first
    | intro _ | assumption | apply State.modFm_keeps | dsimp only

theorem State.retireRow_keeps (s : State) (d : Die) (array : Nat) (row : Nat) (cause : Nat) (bank : RowBank)
    (hs : Holds K P s) (hk_counters : K .counters = false) (hk_faults : K .faults = false) (hk_free : K .free = false)
    (hk_lanes : K .lanes = false) (hk_llus : K .llus = false) (hk_ops : K .ops = false) (hk_out : K .out = false)
    (hk_queues : K .queues = false) (hk_regs : K .regs = false) (hk_rings : K .rings = false) (hk_rtb : K .rtb = false)
    (hk_sluice : K .sluice = false) (hk_svc : K .svc = false) (hk_tmu : K .tmu = false) (hk_tru : K .tru = false)
    (hk_xlu : K .xlu = false) :
    Holds K P (State.retireRow s d array row cause bank) := by
  unfold State.retireRow
  try dsimp only
  with_reducible repeat' first
    | intro _ | assumption | apply State.recordRet_keeps | apply State.retireBank_keeps | apply State.retireWqu_keeps
    | apply State.loseBank_keeps | apply State.wr_keeps | apply State.basinCeilings_keeps | apply State.replayBankOut_keeps
    | apply Holds.ite | split | dsimp only

theorem State.retireHbm_keeps (s : State) (d : Die) (idx : Nat) (cause : Nat) (lost : List Nat) (hs : Holds K P s)
    (hk_faults : K .faults = false) (hk_mem : K .mem = false) (hk_out : K .out = false) (hk_regs : K .regs = false)
    (hk_sluice : K .sluice = false) (hk_svc : K .svc = false) :
    Holds K P (State.retireHbm s d idx cause lost) := by
  unfold State.retireHbm
  try dsimp only
  with_reducible repeat' first
    | intro _ | assumption | apply State.bump_keeps | apply State.recordRet_keeps | apply Holds.ite
    | simp only [Holds.upd, hk_mem, Bool.false_eq_true, false_implies, implies_true] | apply Holds.foldl | split | dsimp only

theorem State.moveMember_keeps (s : State) (d : Die) (k : Nat) (hs : Holds K P s) (hk_accesses : K .accesses = false)
    (hk_dmem : K .dmem = false) (hk_hag : K .hag = false) (hk_hold : K .hold = false) (hk_mem : K .mem = false)
    (hk_members : K .members = false) (hk_ops : K .ops = false) (hk_out : K .out = false) (hk_reads : K .reads = false)
    (hk_regs : K .regs = false) (hk_sluice : K .sluice = false) (hk_xlu : K .xlu = false) :
    Holds K P (State.moveMember s d k) := by
  unfold State.moveMember
  try dsimp only
  with_reducible repeat' first
    | intro _ | assumption | apply State.wr_keeps | apply State.modMember_keeps | apply State.slotLost_keeps
    | apply State.quadFailHere_keeps | apply Holds.ite | apply Holds.foldl | split | dsimp only

theorem State.retireQdu_keeps (s : State) (d : Die) (cause : Nat) (hs : Holds K P s) (hk_accesses : K .accesses = false)
    (hk_dmem : K .dmem = false) (hk_faults : K .faults = false) (hk_hag : K .hag = false) (hk_hold : K .hold = false)
    (hk_mem : K .mem = false) (hk_members : K .members = false) (hk_ops : K .ops = false) (hk_out : K .out = false)
    (hk_reads : K .reads = false) (hk_regs : K .regs = false) (hk_sluice : K .sluice = false) (hk_svc : K .svc = false)
    (hk_xlu : K .xlu = false) :
    Holds K P (State.retireQdu s d cause) := by
  unfold State.retireQdu
  try dsimp only
  with_reducible repeat' first
    | intro _ | assumption | apply State.recordRet_keeps | apply State.when_keeps | apply State.wr_keeps
    | apply State.moveMember_keeps | apply Holds.ite | apply Holds.foldl | split | dsimp only

theorem State.spareWire_keeps (s : State) (d : Die) (link : Nat) (hs : Holds K P s) (hk_accesses : K .accesses = false)
    (hk_bridge : K .bridge = false) (hk_counters : K .counters = false) (hk_dmem : K .dmem = false)
    (hk_engines : K .engines = false) (hk_faults : K .faults = false) (hk_free : K .free = false) (hk_hag : K .hag = false)
    (hk_hold : K .hold = false) (hk_lanes : K .lanes = false) (hk_llus : K .llus = false) (hk_mem : K .mem = false)
    (hk_members : K .members = false) (hk_noc : K .noc = false) (hk_ops : K .ops = false) (hk_out : K .out = false)
    (hk_ports : K .ports = false) (hk_power : K .power = false) (hk_queues : K .queues = false) (hk_reads : K .reads = false)
    (hk_regs : K .regs = false) (hk_rings : K .rings = false) (hk_rma : K .rma = false) (hk_rtb : K .rtb = false)
    (hk_sluice : K .sluice = false) (hk_svc : K .svc = false) (hk_swc : K .swc = false) (hk_tmu : K .tmu = false)
    (hk_triggers : K .triggers = false) (hk_xlu : K .xlu = false) :
    Holds K P (State.spareWire s d link) := by
  unfold State.spareWire
  try dsimp only
  with_reducible repeat' first
    | intro _ | assumption | apply State.loseDie_keeps | apply State.draw_keeps | apply State.modNocLink_keeps
    | apply State.recordRet_keeps | apply Holds.ite | split | dsimp only

theorem State.evalLane_keeps (s : State) (d : Die) (n : Nat) (hs : Holds K P s) (hk_bridge : K .bridge = false)
    (hk_faults : K .faults = false) (hk_lanes : K .lanes = false) (hk_llus : K .llus = false) (hk_out : K .out = false)
    (hk_regs : K .regs = false) (hk_rtb : K .rtb = false) (hk_sluice : K .sluice = false) (hk_svc : K .svc = false)
    (hk_swc : K .swc = false) :
    Holds K P (State.evalLane s d n) := by
  unfold State.evalLane
  try dsimp only
  with_reducible repeat' first
    | intro _ | assumption | apply State.watch_keeps | apply State.modFm_keeps | apply State.retireLane_keeps | apply Holds.ite
    | apply Holds.ite1 | refine Holds.of_fst (by assumption) ?_ | split | dsimp only

theorem State.evalPort_keeps (s : State) (d : Die) (i : Nat) (hs : Holds K P s) (hk_bridge : K .bridge = false)
    (hk_faults : K .faults = false) (hk_lanes : K .lanes = false) (hk_llus : K .llus = false) (hk_out : K .out = false)
    (hk_regs : K .regs = false) (hk_rtb : K .rtb = false) (hk_sluice : K .sluice = false) (hk_svc : K .svc = false)
    (hk_swc : K .swc = false) :
    Holds K P (State.evalPort s d i) := by
  unfold State.evalPort
  try dsimp only
  with_reducible repeat' first
    | intro _ | assumption | apply State.watch_keeps | apply State.retirePort_keeps | apply Holds.ite | apply Holds.ite1
    | refine Holds.of_fst (by assumption) ?_ | split | dsimp only

theorem State.evalModule_keeps (s : State) (m : Nat) (hs : Holds K P s) (hk_bridge : K .bridge = false)
    (hk_faults : K .faults = false) (hk_llus : K .llus = false) (hk_noc : K .noc = false) (hk_out : K .out = false)
    (hk_regs : K .regs = false) (hk_rtb : K .rtb = false) (hk_sluice : K .sluice = false) (hk_svc : K .svc = false)
    (hk_swc : K .swc = false) :
    Holds K P (State.evalModule s m) := by
  unfold State.evalModule
  try dsimp only
  with_reducible repeat' first
    | intro _ | assumption | apply State.retireMod_keeps | apply Holds.ite | split | dsimp only

theorem State.evalRow_keeps (s : State) (d : Die) (array : Nat) (row : Nat) (bad : Bool) (bank : RowBank) (hs : Holds K P s)
    (hk_counters : K .counters = false) (hk_faults : K .faults = false) (hk_free : K .free = false)
    (hk_lanes : K .lanes = false) (hk_llus : K .llus = false) (hk_ops : K .ops = false) (hk_out : K .out = false)
    (hk_queues : K .queues = false) (hk_regs : K .regs = false) (hk_rings : K .rings = false) (hk_rtb : K .rtb = false)
    (hk_sluice : K .sluice = false) (hk_svc : K .svc = false) (hk_tmu : K .tmu = false) (hk_tru : K .tru = false)
    (hk_xlu : K .xlu = false) :
    Holds K P (State.evalRow s d array row bad bank) := by
  unfold State.evalRow
  try dsimp only
  with_reducible repeat' first
    | intro _ | assumption | apply State.event__keeps | apply State.observe_keeps | apply State.retireRow_keeps | apply Holds.ite
    | apply Holds.ite1 | refine Holds.of_fst (by assumption) ?_ | split | dsimp only

theorem State.evalHbm_keeps (s : State) (d : Die) (idx : Nat) (symbols : Nat) (lost : List Nat) (hs : Holds K P s)
    (hk_faults : K .faults = false) (hk_mem : K .mem = false) (hk_out : K .out = false) (hk_regs : K .regs = false)
    (hk_sluice : K .sluice = false) (hk_svc : K .svc = false) :
    Holds K P (State.evalHbm s d idx symbols lost) := by
  unfold State.evalHbm
  try dsimp only
  with_reducible repeat' first
    | intro _ | assumption | apply State.bumpBy_keeps | apply State.event__keeps | apply State.observe_keeps
    | apply State.retireHbm_keeps | apply Holds.ite | simp only [Holds.upd, hk_mem, Bool.false_eq_true, false_implies, implies_true]
    | apply Holds.foldl | apply Holds.ite1 | apply Holds.foldl1 | refine Holds.of_fst (by assumption) ?_ | split | dsimp only

theorem State.evalQdu_keeps (s : State) (d : Die) (control : Bool) (hs : Holds K P s) (hk_accesses : K .accesses = false)
    (hk_dmem : K .dmem = false) (hk_faults : K .faults = false) (hk_hag : K .hag = false) (hk_hold : K .hold = false)
    (hk_mem : K .mem = false) (hk_members : K .members = false) (hk_ops : K .ops = false) (hk_out : K .out = false)
    (hk_reads : K .reads = false) (hk_regs : K .regs = false) (hk_sluice : K .sluice = false) (hk_svc : K .svc = false)
    (hk_xlu : K .xlu = false) :
    Holds K P (State.evalQdu s d control) := by
  unfold State.evalQdu
  try dsimp only
  with_reducible repeat' first
    | intro _ | assumption | apply State.watch_keeps | apply State.observe_keeps | apply State.retireQdu_keeps | apply Holds.ite
    | apply Holds.ite1 | refine Holds.of_fst (by assumption) ?_ | split | dsimp only

theorem State.poisonUnit_keeps (s : State) (d : Die) (a : PayloadPlace) (hs : Holds K P s) (hk_free : K .free = false)
    (hk_llus : K .llus = false) (hk_mem : K .mem = false) (hk_ops : K .ops = false) (hk_out : K .out = false)
    (hk_queues : K .queues = false) (hk_regs : K .regs = false) (hk_rings : K .rings = false) (hk_sluice : K .sluice = false)
    (hk_swc : K .swc = false) (hk_tmu : K .tmu = false) (hk_triggers : K .triggers = false) (hk_tru : K .tru = false) :
    Holds K P (State.poisonUnit s d a) := by
  unfold State.poisonUnit
  try dsimp only
  with_reducible repeat' first
    | intro _ | assumption | apply State.modSwc_keeps | apply State.modSluice_keeps | apply State.modLlu_keeps
    | apply State.rxSettle_keeps | apply State.modCtx_keeps | apply State.modUx_keeps | apply State.pumpQueue_keeps
    | apply State.modQueue_keeps | apply Holds.ite | simp only [Holds.upd, hk_mem, Bool.false_eq_true, false_implies, implies_true]
    | split | dsimp only

theorem State.loseContext_keeps (s : State) (d : Die) (i : Nat) (hs : Holds K P s) (hk_accesses : K .accesses = false)
    (hk_dmem : K .dmem = false) (hk_faults : K .faults = false) (hk_hag : K .hag = false) (hk_hold : K .hold = false)
    (hk_mem : K .mem = false) (hk_members : K .members = false) (hk_ops : K .ops = false) (hk_out : K .out = false)
    (hk_reads : K .reads = false) (hk_regs : K .regs = false) (hk_rings : K .rings = false) (hk_rma : K .rma = false)
    (hk_sluice : K .sluice = false) (hk_svc : K .svc = false) (hk_tmu : K .tmu = false) (hk_tru : K .tru = false)
    (hk_xlu : K .xlu = false) :
    Holds K P (State.loseContext s d i) := by
  unfold State.loseContext
  try dsimp only
  with_reducible repeat' first
    | intro _ | assumption | apply State.abortCtx_keeps | apply State.availEvent_keeps | apply State.logEvent_keeps | split
    | dsimp only

theorem State.loseMatch_keeps (s : State) (key : Nat) (hs : Holds K P s) (hk_faults : K .faults = false)
    (hk_ops : K .ops = false) (hk_out : K .out = false) (hk_queues : K .queues = false) (hk_regs : K .regs = false)
    (hk_sluice : K .sluice = false) (hk_svc : K .svc = false) :
    Holds K P (State.loseMatch s key) := by
  unfold State.loseMatch
  try dsimp only
  with_reducible repeat' first
    | intro _ | assumption | apply State.queueFail_keeps | apply State.availEvent_keeps | apply State.logEvent_keeps | split
    | dsimp only

theorem execFaultEvaluation_keeps (o : FaultObs) (s : State) (hs : Holds K P s) (hk_accesses : K .accesses = false)
    (hk_bridge : K .bridge = false) (hk_counters : K .counters = false) (hk_dmem : K .dmem = false)
    (hk_engines : K .engines = false) (hk_faults : K .faults = false) (hk_free : K .free = false) (hk_hag : K .hag = false)
    (hk_hold : K .hold = false) (hk_lanes : K .lanes = false) (hk_llus : K .llus = false) (hk_mem : K .mem = false)
    (hk_members : K .members = false) (hk_noc : K .noc = false) (hk_ops : K .ops = false) (hk_out : K .out = false)
    (hk_polders : K .polders = false) (hk_ports : K .ports = false) (hk_power : K .power = false)
    (hk_queues : K .queues = false) (hk_reads : K .reads = false) (hk_regs : K .regs = false) (hk_rings : K .rings = false)
    (hk_rma : K .rma = false) (hk_rtb : K .rtb = false) (hk_sluice : K .sluice = false) (hk_svc : K .svc = false)
    (hk_swc : K .swc = false) (hk_tmu : K .tmu = false) (hk_triggers : K .triggers = false) (hk_tru : K .tru = false)
    (hk_xlu : K .xlu = false) :
    HoldsO K P (execFaultEvaluation o s) := by
  unfold execFaultEvaluation
  try dsimp only
  with_reducible repeat' first
   
    | (intro g x hg; cases g <;> first | exact absurd (hk_polders.symm.trans hg) (by decide) | (with_unfolding_all exact dieSame_refl _ _) | (simp only [dieSame, and_self]))
    | intro _ | assumption | apply State.evalLane_keeps | apply State.evalPort_keeps | apply State.evalModule_keeps
    | apply State.spareWire_keeps | apply State.evalRow_keeps | apply State.observe_keeps | apply State.retireEngine_keeps
    | apply State.evalQdu_keeps | apply State.evalHbm_keeps | apply State.loseHostPort_keeps | apply State.loseDie_keeps
    | apply State.poisonUnit_keeps | apply State.modDie_keeps | apply State.loseContext_keeps | apply State.loseMatch_keeps
    | apply State.slotLost_keeps | apply State.bump_keeps | apply Holds.ite | apply HoldsO.next | apply Holds.ite1
    | refine Holds.of_fst (by assumption) ?_ | split | dsimp only

theorem execHeartbeatTimer_keeps (d : Die) (answered : Bool) (s : State) (hs : Holds K P s)
    (hk_accesses : K .accesses = false) (hk_bridge : K .bridge = false) (hk_counters : K .counters = false)
    (hk_dmem : K .dmem = false) (hk_engines : K .engines = false) (hk_faults : K .faults = false) (hk_hag : K .hag = false)
    (hk_hold : K .hold = false) (hk_lanes : K .lanes = false) (hk_llus : K .llus = false) (hk_mem : K .mem = false)
    (hk_members : K .members = false) (hk_noc : K .noc = false) (hk_ops : K .ops = false) (hk_out : K .out = false)
    (hk_ports : K .ports = false) (hk_power : K .power = false) (hk_queues : K .queues = false) (hk_reads : K .reads = false)
    (hk_regs : K .regs = false) (hk_rings : K .rings = false) (hk_rma : K .rma = false) (hk_rtb : K .rtb = false)
    (hk_sluice : K .sluice = false) (hk_svc : K .svc = false) (hk_swc : K .swc = false) (hk_tmu : K .tmu = false)
    (hk_triggers : K .triggers = false) (hk_xlu : K .xlu = false) :
    HoldsO K P (execHeartbeatTimer d answered s) := by
  unfold execHeartbeatTimer
  try dsimp only
  with_reducible repeat' first
    | intro _ | assumption | apply State.modFm_keeps | apply State.when_keeps | apply State.event__keeps | apply State.loseDie_keeps
    | apply Holds.ite | apply HoldsO.next | split | dsimp only

theorem execSuppressedRecordsTick_keeps (s : State) (hs : Holds K P s) (hk_faults : K .faults = false)
    (hk_out : K .out = false) (hk_regs : K .regs = false) (hk_sluice : K .sluice = false) (hk_svc : K .svc = false) :
    HoldsO K P (execSuppressedRecordsTick s) := by
  unfold execSuppressedRecordsTick
  try dsimp only
  with_reducible repeat' first
    | intro _ | assumption | apply State.putEvent_keeps | apply State.modFm_keeps | apply Holds.ite | apply HoldsO.next | split
    | dsimp only

theorem execEngineWatchdog_keeps (n : Fin 128) (s : State) (hs : Holds K P s) (hk_accesses : K .accesses = false)
    (hk_dmem : K .dmem = false) (hk_engines : K .engines = false) (hk_faults : K .faults = false) (hk_hag : K .hag = false)
    (hk_hold : K .hold = false) (hk_mem : K .mem = false) (hk_out : K .out = false) (hk_regs : K .regs = false)
    (hk_sluice : K .sluice = false) (hk_svc : K .svc = false) :
    HoldsO K P (execEngineWatchdog n s) := by
  unfold execEngineWatchdog
  try dsimp only
  with_reducible repeat' first
    | intro _ | assumption | apply State.event__keeps | apply State.observe_keeps | apply State.engineReset_keeps | apply Holds.ite
    | apply HoldsO.next | apply Holds.ite1 | split | dsimp only

theorem State.fmEnd_keeps (s : State) (detail : Nat) (hs : Holds K P s) (hk_regs : K .regs = false) :
    Holds K P (State.fmEnd s detail) := by
  unfold State.fmEnd
  try dsimp only
  with_reducible repeat' first
    | intro _ | assumption | apply State.wrs_keeps | apply Holds.ite | split | dsimp only

theorem State.fmGo_keeps (s : State) (op : Nat) (act : State → Except Nat State) (hs : Holds K P s)
    (hact : ∀ x0, Holds K P x0 → HoldsE K P (act x0)) (hk_regs : K .regs = false) :
    Holds K P (State.fmGo s op act) := by
  unfold State.fmGo
  try dsimp only
  with_reducible repeat' first
    | intro _ | assumption | apply State.wr_keeps | apply State.fmEnd_keeps | apply hact | apply Holds.ite | exact HoldsE.error
    | apply HoldsE.ok | apply HoldsE.ite | exact HoldsEP.error | apply HoldsEP.ok | apply HoldsEP.ite
    | refine Holds.of_ok (by assumption) ?_ | refine Holds.of_okP (by assumption) ?_ | split | dsimp only

theorem State.fmRetire_keeps (s : State) (hs : Holds K P s) (hk_accesses : K .accesses = false)
    (hk_bridge : K .bridge = false) (hk_counters : K .counters = false) (hk_dmem : K .dmem = false)
    (hk_engines : K .engines = false) (hk_faults : K .faults = false) (hk_free : K .free = false) (hk_hag : K .hag = false)
    (hk_hold : K .hold = false) (hk_lanes : K .lanes = false) (hk_llus : K .llus = false) (hk_mem : K .mem = false)
    (hk_members : K .members = false) (hk_noc : K .noc = false) (hk_ops : K .ops = false) (hk_out : K .out = false)
    (hk_ports : K .ports = false) (hk_power : K .power = false) (hk_queues : K .queues = false) (hk_reads : K .reads = false)
    (hk_regs : K .regs = false) (hk_rings : K .rings = false) (hk_rma : K .rma = false) (hk_rtb : K .rtb = false)
    (hk_sluice : K .sluice = false) (hk_svc : K .svc = false) (hk_swc : K .swc = false) (hk_tmu : K .tmu = false)
    (hk_triggers : K .triggers = false) (hk_tru : K .tru = false) (hk_xlu : K .xlu = false) :
    HoldsE K P (State.fmRetire s) := by
  unfold State.fmRetire
  try dsimp only
  with_reducible repeat' first
    | intro _ | assumption | apply State.retireLane_keeps | apply State.retirePort_keeps | apply State.retireMod_keeps
    | apply State.loseDie_keeps | apply State.recordRet_keeps | apply State.retireEngine_keeps | apply State.retireBank_keeps
    | apply State.retireWqu_keeps | apply State.retireRow_keeps | apply State.retireHbm_keeps | apply State.retireQdu_keeps
    | apply State.loseHostPort_keeps | apply Holds.ite | exact HoldsE.error | apply HoldsE.ok | apply HoldsE.ite
    | refine Holds.of_ok (by assumption) ?_ | split | dsimp only

theorem State.fmRetireGo_keeps (s : State) (hs : Holds K P s) (hk_accesses : K .accesses = false)
    (hk_bridge : K .bridge = false) (hk_counters : K .counters = false) (hk_dmem : K .dmem = false)
    (hk_engines : K .engines = false) (hk_faults : K .faults = false) (hk_free : K .free = false) (hk_hag : K .hag = false)
    (hk_hold : K .hold = false) (hk_lanes : K .lanes = false) (hk_llus : K .llus = false) (hk_mem : K .mem = false)
    (hk_members : K .members = false) (hk_noc : K .noc = false) (hk_ops : K .ops = false) (hk_out : K .out = false)
    (hk_ports : K .ports = false) (hk_power : K .power = false) (hk_queues : K .queues = false) (hk_reads : K .reads = false)
    (hk_regs : K .regs = false) (hk_rings : K .rings = false) (hk_rma : K .rma = false) (hk_rtb : K .rtb = false)
    (hk_sluice : K .sluice = false) (hk_svc : K .svc = false) (hk_swc : K .swc = false) (hk_tmu : K .tmu = false)
    (hk_triggers : K .triggers = false) (hk_tru : K .tru = false) (hk_xlu : K .xlu = false) :
    Holds K P (State.fmRetireGo s) := by
  unfold State.fmRetireGo
  try dsimp only
  with_reducible repeat' first
    | intro _ | assumption | apply State.fmGo_keeps | apply State.fmRetire_keeps | exact HoldsE.error | apply HoldsE.ok
    | exact HoldsEP.error | apply HoldsEP.ok | dsimp only

theorem execRetire_keeps (rq : Requester) (s : State) (hs : Holds K P s) (hk_accesses : K .accesses = false)
    (hk_bridge : K .bridge = false) (hk_counters : K .counters = false) (hk_dmem : K .dmem = false)
    (hk_engines : K .engines = false) (hk_faults : K .faults = false) (hk_free : K .free = false) (hk_hag : K .hag = false)
    (hk_hold : K .hold = false) (hk_lanes : K .lanes = false) (hk_llus : K .llus = false) (hk_mem : K .mem = false)
    (hk_members : K .members = false) (hk_noc : K .noc = false) (hk_ops : K .ops = false) (hk_out : K .out = false)
    (hk_ports : K .ports = false) (hk_power : K .power = false) (hk_queues : K .queues = false) (hk_reads : K .reads = false)
    (hk_regs : K .regs = false) (hk_rings : K .rings = false) (hk_rma : K .rma = false) (hk_rtb : K .rtb = false)
    (hk_sluice : K .sluice = false) (hk_svc : K .svc = false) (hk_swc : K .swc = false) (hk_tmu : K .tmu = false)
    (hk_triggers : K .triggers = false) (hk_tru : K .tru = false) (hk_xlu : K .xlu = false) :
    HoldsO K P (execRetire rq s) := by
  unfold execRetire
  try dsimp only
  with_reducible repeat' first
    | intro _ | assumption | apply State.asWarden_keeps | apply State.fmRetireGo_keeps | apply HoldsO.next | dsimp only

theorem State.fmUnretire_keeps (s : State) (hs : Holds K P s) (hk_faults : K .faults = false) (hk_lanes : K .lanes = false)
    (hk_llus : K .llus = false) (hk_out : K .out = false) (hk_regs : K .regs = false) (hk_rtb : K .rtb = false)
    (hk_sluice : K .sluice = false) (hk_svc : K .svc = false) :
    HoldsE K P (State.fmUnretire s) := by
  unfold State.fmUnretire
  try dsimp only
  with_reducible repeat' first
    | intro _ | assumption | apply State.event__keeps | apply State.clearRet_keeps | apply State.setLink_keeps
    | apply State.setLlu_keeps | apply State.modLane_keeps | apply State.laneOff_keeps | apply Holds.ite | exact HoldsE.error
    | apply HoldsE.ok | apply HoldsE.ite | refine Holds.of_ok (by assumption) ?_ | split | dsimp only

theorem State.fmUnretireGo_keeps (s : State) (hs : Holds K P s) (hk_faults : K .faults = false) (hk_lanes : K .lanes = false)
    (hk_llus : K .llus = false) (hk_out : K .out = false) (hk_regs : K .regs = false) (hk_rtb : K .rtb = false)
    (hk_sluice : K .sluice = false) (hk_svc : K .svc = false) :
    Holds K P (State.fmUnretireGo s) := by
  unfold State.fmUnretireGo
  try dsimp only
  with_reducible repeat' first
    | intro _ | assumption | apply State.fmGo_keeps | apply State.fmUnretire_keeps | exact HoldsE.error | apply HoldsE.ok
    | exact HoldsEP.error | apply HoldsEP.ok | dsimp only

theorem execUnretire_keeps (rq : Requester) (s : State) (hs : Holds K P s) (hk_faults : K .faults = false)
    (hk_lanes : K .lanes = false) (hk_llus : K .llus = false) (hk_out : K .out = false) (hk_regs : K .regs = false)
    (hk_rtb : K .rtb = false) (hk_sluice : K .sluice = false) (hk_svc : K .svc = false) :
    HoldsO K P (execUnretire rq s) := by
  unfold execUnretire
  try dsimp only
  with_reducible repeat' first
    | intro _ | assumption | apply State.asWarden_keeps | apply State.fmUnretireGo_keeps | apply HoldsO.next | dsimp only

theorem State.fmRead_keeps (s : State) (hs : Holds K P s) :
    HoldsE K P (State.fmRead s) := by
  unfold State.fmRead
  try dsimp only
  with_reducible repeat' first
    | intro _ | assumption | apply Holds.ite | exact HoldsE.error | apply HoldsE.ok | apply HoldsE.ite | split | dsimp only

theorem State.fmReadGo_keeps (s : State) (hs : Holds K P s) (hk_regs : K .regs = false) :
    Holds K P (State.fmReadGo s) := by
  unfold State.fmReadGo
  try dsimp only
  with_reducible repeat' first
    | intro _ | assumption | apply State.wr_keeps | apply State.fmRead_keeps | apply State.fmEnd_keeps | apply Holds.ite
    | apply Holds.foldl | exact HoldsE.error | apply HoldsE.ok | apply HoldsE.ite | refine Holds.of_ok (by assumption) ?_ | split
    | dsimp only

theorem execReadRecord_keeps (rq : Requester) (s : State) (hs : Holds K P s) (hk_regs : K .regs = false) :
    HoldsO K P (execReadRecord rq s) := by
  unfold execReadRecord
  try dsimp only
  with_reducible repeat' first
    | intro _ | assumption | apply State.asWarden_keeps | apply State.fmReadGo_keeps | apply HoldsO.next | dsimp only

theorem State.fmShutdown_keeps (s : State) (hs : Holds K P s) (hk_lanes : K .lanes = false) (hk_regs : K .regs = false) :
    HoldsE K P (State.fmShutdown s) := by
  unfold State.fmShutdown
  try dsimp only
  with_reducible repeat' first
    | intro _ | assumption | apply State.laneOff_keeps | apply Holds.ite | exact HoldsE.error | apply HoldsE.ok | apply HoldsE.ite
    | split | dsimp only

theorem State.fmShutdownGo_keeps (s : State) (hs : Holds K P s) (hk_lanes : K .lanes = false) (hk_regs : K .regs = false) :
    Holds K P (State.fmShutdownGo s) := by
  unfold State.fmShutdownGo
  try dsimp only
  with_reducible repeat' first
    | intro _ | assumption | apply State.fmGo_keeps | apply State.fmShutdown_keeps | exact HoldsE.error | apply HoldsE.ok
    | exact HoldsEP.error | apply HoldsEP.ok | dsimp only

theorem execLaneShutdown_keeps (rq : Requester) (s : State) (hs : Holds K P s) (hk_lanes : K .lanes = false)
    (hk_regs : K .regs = false) :
    HoldsO K P (execLaneShutdown rq s) := by
  unfold execLaneShutdown
  try dsimp only
  with_reducible repeat' first
    | intro _ | assumption | apply State.asWarden_keeps | apply State.fmShutdownGo_keeps | apply HoldsO.next | dsimp only

theorem State.fmCycleGo_keeps (s : State) (hs : Holds K P s) (hk_accesses : K .accesses = false)
    (hk_bridge : K .bridge = false) (hk_counters : K .counters = false) (hk_dmem : K .dmem = false)
    (hk_engines : K .engines = false) (hk_faults : K .faults = false) (hk_hag : K .hag = false) (hk_hold : K .hold = false)
    (hk_lanes : K .lanes = false) (hk_llus : K .llus = false) (hk_mem : K .mem = false) (hk_members : K .members = false)
    (hk_ops : K .ops = false) (hk_out : K .out = false) (hk_ports : K .ports = false) (hk_power : K .power = false)
    (hk_queues : K .queues = false) (hk_reads : K .reads = false) (hk_regs : K .regs = false) (hk_rings : K .rings = false)
    (hk_rma : K .rma = false) (hk_rtb : K .rtb = false) (hk_sluice : K .sluice = false) (hk_swc : K .swc = false)
    (hk_tmu : K .tmu = false) (hk_triggers : K .triggers = false) (hk_xlu : K .xlu = false) :
    Holds K P (State.fmCycleGo s) := by
  unfold State.fmCycleGo
  try dsimp only
  with_reducible repeat' first
    | intro _ | assumption | apply State.wr_keeps | apply State.fmEnd_keeps | apply State.modFm_keeps
    | apply State.cycleDomain_keeps | apply State.modDom_keeps | apply Holds.ite | split | dsimp only

theorem execDomainCycle_keeps (rq : Requester) (s : State) (hs : Holds K P s) (hk_accesses : K .accesses = false)
    (hk_bridge : K .bridge = false) (hk_counters : K .counters = false) (hk_dmem : K .dmem = false)
    (hk_engines : K .engines = false) (hk_faults : K .faults = false) (hk_hag : K .hag = false) (hk_hold : K .hold = false)
    (hk_lanes : K .lanes = false) (hk_llus : K .llus = false) (hk_mem : K .mem = false) (hk_members : K .members = false)
    (hk_ops : K .ops = false) (hk_out : K .out = false) (hk_ports : K .ports = false) (hk_power : K .power = false)
    (hk_queues : K .queues = false) (hk_reads : K .reads = false) (hk_regs : K .regs = false) (hk_rings : K .rings = false)
    (hk_rma : K .rma = false) (hk_rtb : K .rtb = false) (hk_sluice : K .sluice = false) (hk_swc : K .swc = false)
    (hk_tmu : K .tmu = false) (hk_triggers : K .triggers = false) (hk_xlu : K .xlu = false) :
    HoldsO K P (execDomainCycle rq s) := by
  unfold execDomainCycle
  try dsimp only
  with_reducible repeat' first
    | intro _ | assumption | apply State.asWarden_keeps | apply State.fmCycleGo_keeps | apply HoldsO.next | dsimp only

theorem State.cycleDone_keeps (s : State) (d : Die) (i : Nat) (hs : Holds K P s) (hk_faults : K .faults = false)
    (hk_lanes : K .lanes = false) (hk_llus : K .llus = false) (hk_ports : K .ports = false) (hk_regs : K .regs = false)
    (hk_rtb : K .rtb = false) :
    Holds K P (State.cycleDone s d i) := by
  unfold State.cycleDone
  try dsimp only
  with_reducible repeat' first
    | intro _ | assumption | apply State.modFm_keeps | apply State.portStart_keeps | apply State.trainHost_keeps
    | apply State.fmEnd_keeps | apply Holds.ite | apply Holds.foldl | split | dsimp only

end Sys2Proof.Machine
end

