-- ==== Sys2Proof/Laws/KeepTime.lean ====
section
/-! SUPPORT. The operations of Time.lean keep what the operations on registers and memory keep. -/

namespace Sys2Proof.Machine

set_option linter.all false
set_option linter.unusedTactic false
set_option linter.unreachableTactic false

variable {K : Grp → Bool} {P : State → Prop}

theorem State.modWin_keeps (s : State) (d : Die) (f : Window_ → Window_) (hs : Holds K P s) (hk_windows : K .windows = false) :
    Holds K P (State.modWin s d f) := by
  unfold State.modWin
  try dsimp only
  with_reducible repeat' first
   
    | (intro g x hg; cases g <;> first | exact absurd (hk_windows.symm.trans hg) (by decide) | (with_unfolding_all exact dieSame_refl _ _) | (simp only [dieSame, and_self]))
    | intro _ | assumption | apply State.modDie_keeps | dsimp only

theorem State.modFt_keeps (s : State) (d : Die) (f : FTime → FTime) (hs : Holds K P s) (hk_time : K .time = false) :
    Holds K P (State.modFt s d f) := by
  unfold State.modFt
  try dsimp only
  with_reducible repeat' first
   
    | (intro g x hg; cases g <;> first | exact absurd (hk_time.symm.trans hg) (by decide) | (with_unfolding_all exact dieSame_refl _ _) | (simp only [dieSame, and_self]))
    | intro _ | assumption | apply State.modDie_keeps | dsimp only

theorem State.dumpWrite_keeps (s : State) (d : Die) (off : Nat) (b : List Byte) (hs : Holds K P s)
    (hk_accesses : K .accesses = false) (hk_dmem : K .dmem = false) (hk_hag : K .hag = false) (hk_hold : K .hold = false)
    (hk_mem : K .mem = false) (hk_out : K .out = false) (hk_regs : K .regs = false) :
    Holds K P (State.dumpWrite s d off b) := by
  unfold State.dumpWrite
  try dsimp only
  with_reducible repeat' first
    | intro _ | assumption | apply State.devAccess_keeps | apply State.hwrite_keeps | apply Holds.ite | split | dsimp only

theorem State.dump_keeps (s : State) (d : Die) (seq : Nat) (dur : Nat) (number : Nat) (flags : Nat) (groups : Nat)
    (hs : Holds K P s) (hk_accesses : K .accesses = false) (hk_dmem : K .dmem = false) (hk_hag : K .hag = false)
    (hk_hold : K .hold = false) (hk_mem : K .mem = false) (hk_out : K .out = false) (hk_regs : K .regs = false)
    (hk_windows : K .windows = false) :
    Holds K P (State.dump s d seq dur number flags groups) := by
  unfold State.dump
  try dsimp only
  with_reducible repeat' first
    | intro _ | assumption | apply State.bump_keeps | apply State.modWin_keeps | apply State.dumpWrite_keeps | apply State.wr_keeps
    | apply Holds.ite | split | dsimp only

theorem State.beginWindow_keeps (s : State) (d : Die) (n : NextWin) (hs : Holds K P s) (hk_events : K .events = false)
    (hk_regs : K .regs = false) (hk_windows : K .windows = false) :
    Holds K P (State.beginWindow s d n) := by
  unfold State.beginWindow
  try dsimp only
  with_reducible repeat' first
   
    | (intro g x hg; cases g <;> first | exact absurd (hk_events.symm.trans hg) (by decide) | (with_unfolding_all exact dieSame_refl _ _) | (simp only [dieSame, and_self]))
    | intro _ | assumption | apply State.modDie_keeps | apply State.wr_keeps | apply State.modWin_keeps | apply Holds.foldl
    | dsimp only

theorem State.endWindow_keeps (s : State) (d : Die) (early : Bool) (n : NextWin) (hs : Holds K P s)
    (hk_accesses : K .accesses = false) (hk_dmem : K .dmem = false) (hk_events : K .events = false) (hk_hag : K .hag = false)
    (hk_hold : K .hold = false) (hk_mem : K .mem = false) (hk_out : K .out = false) (hk_regs : K .regs = false)
    (hk_windows : K .windows = false) :
    Holds K P (State.endWindow s d early n) := by
  unfold State.endWindow
  try dsimp only
  with_reducible repeat' first
    | intro _ | assumption | apply State.wr_keeps | apply State.dump_keeps | apply State.modWin_keeps
    | apply State.beginWindow_keeps | apply Holds.ite | apply Holds.foldl | split | dsimp only

theorem State.windowDue_keeps (s : State) (d : Die) (hs : Holds K P s) (hk_accesses : K .accesses = false)
    (hk_dmem : K .dmem = false) (hk_events : K .events = false) (hk_hag : K .hag = false) (hk_hold : K .hold = false)
    (hk_mem : K .mem = false) (hk_out : K .out = false) (hk_regs : K .regs = false) (hk_windows : K .windows = false) :
    Holds K P (State.windowDue s d) := by
  unfold State.windowDue
  try dsimp only
  with_reducible repeat' first
    | intro _ | assumption | apply State.endWindow_keeps | apply Holds.ite | split | dsimp only

theorem execWindowEnd_keeps (d : Die) (s : State) (hs : Holds K P s) (hk_accesses : K .accesses = false)
    (hk_dmem : K .dmem = false) (hk_events : K .events = false) (hk_hag : K .hag = false) (hk_hold : K .hold = false)
    (hk_mem : K .mem = false) (hk_out : K .out = false) (hk_regs : K .regs = false) (hk_windows : K .windows = false) :
    HoldsO K P (execWindowEnd d s) := by
  unfold execWindowEnd
  try dsimp only
  with_reducible repeat' first
    | intro _ | assumption | apply State.windowDue_keeps | apply Holds.ite | apply HoldsO.next | split | dsimp only

theorem State.cutWindow_keeps (s : State) (d : Die) (f : Window_ → Window_) (n : NextWin) (hs : Holds K P s)
    (hk_accesses : K .accesses = false) (hk_dmem : K .dmem = false) (hk_events : K .events = false) (hk_hag : K .hag = false)
    (hk_hold : K .hold = false) (hk_mem : K .mem = false) (hk_out : K .out = false) (hk_regs : K .regs = false)
    (hk_windows : K .windows = false) :
    Holds K P (State.cutWindow s d f n) := by
  unfold State.cutWindow
  try dsimp only
  with_reducible repeat' first
    | intro _ | assumption | apply State.modWin_keeps | apply State.windowDue_keeps | apply State.endWindow_keeps | apply Holds.ite
    | split | dsimp only

theorem State.pcuStart_keeps (s : State) (d : Die) (hs : Holds K P s) (hk_events : K .events = false)
    (hk_regs : K .regs = false) (hk_windows : K .windows = false) :
    Holds K P (State.pcuStart s d) := by
  unfold State.pcuStart
  try dsimp only
  with_reducible repeat' first
    | intro _ | assumption | apply State.beginWindow_keeps | dsimp only

theorem State.clearRegs_keeps (s : State) (d : Die) (p : Nat → Bool) (hs : Holds K P s) (hk_regs : K .regs = false) :
    Holds K P (State.clearRegs s d p) := by
  exact Holds.dropRegs hs hk_regs _

theorem State.pcuClear_keeps (s : State) (d : Die) (hs : Holds K P s) (hk_accesses : K .accesses = false)
    (hk_dmem : K .dmem = false) (hk_events : K .events = false) (hk_hag : K .hag = false) (hk_hold : K .hold = false)
    (hk_mem : K .mem = false) (hk_out : K .out = false) (hk_regs : K .regs = false) (hk_windows : K .windows = false) :
    Holds K P (State.pcuClear s d) := by
  unfold State.pcuClear
  try dsimp only
  with_reducible repeat' first
    | intro _ | assumption | apply State.clearRegs_keeps | apply State.cutWindow_keeps | dsimp only

theorem execPcuCountClear_keeps (rq : Requester) (d : Die) (s : State) (hs : Holds K P s) (hk_accesses : K .accesses = false)
    (hk_dmem : K .dmem = false) (hk_events : K .events = false) (hk_hag : K .hag = false) (hk_hold : K .hold = false)
    (hk_mem : K .mem = false) (hk_out : K .out = false) (hk_regs : K .regs = false) (hk_windows : K .windows = false) :
    HoldsO K P (execPcuCountClear rq d s) := by
  unfold execPcuCountClear
  try dsimp only
  with_reducible repeat' first
    | intro _ | assumption | apply State.asWarden_keeps | apply State.pcuClear_keeps | apply HoldsO.next | dsimp only

theorem State.wrInt_keeps (s : State) (d : Die) (f : Fld) (x : Int) (hs : Holds K P s) (hk_regs : K .regs = false) :
    Holds K P (State.wrInt s d f x) := by
  unfold State.wrInt
  try dsimp only
  with_reducible repeat' first
    | intro _ | assumption | apply State.wr_keeps | dsimp only

theorem State.ftTick_keeps (s : State) (hs : Holds K P s) (hk_time : K .time = false) :
    Holds K P (State.ftTick s) := by
  unfold State.ftTick
  try dsimp only
  with_reducible repeat' first
    | intro _ | assumption | apply State.modFt_keeps | apply Holds.ite | split | dsimp only

theorem State.ftStep_keeps (s : State) (d : Die) (ns : Nat) (hs : Holds K P s) (hk_accesses : K .accesses = false)
    (hk_dmem : K .dmem = false) (hk_events : K .events = false) (hk_hag : K .hag = false) (hk_hold : K .hold = false)
    (hk_mem : K .mem = false) (hk_out : K .out = false) (hk_regs : K .regs = false) (hk_time : K .time = false)
    (hk_windows : K .windows = false) :
    Holds K P (State.ftStep s d ns) := by
  unfold State.ftStep
  try dsimp only
  with_reducible repeat' first
    | intro _ | assumption | apply State.bump_keeps | apply State.cutWindow_keeps | apply State.modFt_keeps | apply Holds.foldl
    | dsimp only

theorem State.ftSet_keeps (s : State) (d : Die) (v : Nat) (hs : Holds K P s) (hk_accesses : K .accesses = false)
    (hk_dmem : K .dmem = false) (hk_events : K .events = false) (hk_hag : K .hag = false) (hk_hold : K .hold = false)
    (hk_mem : K .mem = false) (hk_out : K .out = false) (hk_regs : K .regs = false) (hk_time : K .time = false)
    (hk_windows : K .windows = false) :
    Holds K P (State.ftSet s d v) := by
  unfold State.ftSet
  try dsimp only
  with_reducible repeat' first
    | intro _ | assumption | apply State.ftStep_keeps | apply State.wr_keeps | apply Holds.ite | split | dsimp only

theorem execFtSet_keeps (rq : Requester) (d : Die) (v : W64) (s : State) (hs : Holds K P s)
    (hk_accesses : K .accesses = false) (hk_dmem : K .dmem = false) (hk_events : K .events = false) (hk_hag : K .hag = false)
    (hk_hold : K .hold = false) (hk_mem : K .mem = false) (hk_out : K .out = false) (hk_regs : K .regs = false)
    (hk_time : K .time = false) (hk_windows : K .windows = false) :
    HoldsO K P (execFtSet rq d v s) := by
  unfold execFtSet
  try dsimp only
  with_reducible repeat' first
    | intro _ | assumption | apply State.asWarden_keeps | apply State.ftSet_keeps | apply HoldsO.next | dsimp only

theorem State.sendSync_keeps (s : State) (d : Die) (i : Nat) (unit : List Byte) (hs : Holds K P s)
    (hk_sluice : K .sluice = false) :
    Holds K P (State.sendSync s d i unit) := by
  unfold State.sendSync
  try dsimp only
  with_reducible repeat' first
    | intro _ | assumption | apply State.sendCtl_keeps | apply Holds.ite | split | dsimp only

theorem State.wrsBoth_keeps (s : State) (l : List (Fld × Nat)) (hs : Holds K P s) (hk_regs : K .regs = false) :
    Holds K P (State.wrsBoth s l) := by
  unfold State.wrsBoth
  try dsimp only
  with_reducible repeat' first
    | intro _ | assumption | apply State.wrs_keeps | dsimp only

theorem State.modFtBoth_keeps (s : State) (f : FTime → FTime) (hs : Holds K P s) (hk_time : K .time = false) :
    Holds K P (State.modFtBoth s f) := by
  unfold State.modFtBoth
  try dsimp only
  with_reducible repeat' first
    | intro _ | assumption | apply State.modFt_keeps | dsimp only

theorem State.setRate_keeps (s : State) (adj : Int) (hs : Holds K P s) (hk_regs : K .regs = false) :
    Holds K P (State.setRate s adj) := by
  unfold State.setRate
  try dsimp only
  with_reducible repeat' first
    | intro _ | assumption | apply State.wrInt_keeps | dsimp only

theorem execSyncInterval_keeps (d : Die) (s : State) (hs : Holds K P s) (hk_regs : K .regs = false)
    (hk_sluice : K .sluice = false) (hk_time : K .time = false) :
    HoldsO K P (execSyncInterval d s) := by
  unfold execSyncInterval
  try dsimp only
  with_reducible repeat' first
    | intro _ | assumption | apply State.modFt_keeps | apply State.wrsBoth_keeps | apply State.sendSync_keeps | apply Holds.ite
    | apply HoldsO.next | split | dsimp only

theorem execSyncReq_keeps (d : Die) (s : State) (hs : Holds K P s) (hk_sluice : K .sluice = false) (hk_time : K .time = false) :
    HoldsO K P (execSyncReq d s) := by
  unfold execSyncReq
  try dsimp only
  with_reducible repeat' first
   
    | (intro g x hg; cases g <;> first | exact absurd (hk_time.symm.trans hg) (by decide) | (with_unfolding_all exact dieSame_refl _ _) | (simp only [dieSame, and_self]))
    | intro _ | assumption | apply State.modDie_keeps | apply State.sendSync_keeps | apply Holds.ite | apply HoldsO.next | split
    | dsimp only

theorem State.syncApply_keeps (s : State) (d : Die) (o : Int) (dl : Int) (steps : Nat) (hs : Holds K P s)
    (hk_accesses : K .accesses = false) (hk_dmem : K .dmem = false) (hk_events : K .events = false) (hk_hag : K .hag = false)
    (hk_hold : K .hold = false) (hk_mem : K .mem = false) (hk_out : K .out = false) (hk_regs : K .regs = false)
    (hk_time : K .time = false) (hk_windows : K .windows = false) :
    Holds K P (State.syncApply s d o dl steps) := by
  unfold State.syncApply
  try dsimp only
  with_reducible repeat' first
    | intro _ | assumption | apply State.setRate_keeps | apply State.ftStep_keeps | apply State.modFtBoth_keeps
    | apply State.wrsBoth_keeps | apply Holds.ite | split | dsimp only

theorem execSyncRsp_keeps (d : Die) (s : State) (hs : Holds K P s) (hk_accesses : K .accesses = false)
    (hk_dmem : K .dmem = false) (hk_events : K .events = false) (hk_hag : K .hag = false) (hk_hold : K .hold = false)
    (hk_mem : K .mem = false) (hk_out : K .out = false) (hk_regs : K .regs = false) (hk_time : K .time = false)
    (hk_windows : K .windows = false) :
    HoldsO K P (execSyncRsp d s) := by
  unfold execSyncRsp
  try dsimp only
  with_reducible repeat' first
   
    | (intro g x hg; cases g <;> first | exact absurd (hk_time.symm.trans hg) (by decide) | (with_unfolding_all exact dieSame_refl _ _) | (simp only [dieSame, and_self]))
    | intro _ | assumption | apply State.modDie_keeps | apply State.modFt_keeps | apply State.syncApply_keeps
    | apply State.bump_keeps | apply Holds.ite | apply HoldsO.next | split | dsimp only

theorem execSyncRspTimeout_keeps (d : Die) (s : State) (hs : Holds K P s) (hk_regs : K .regs = false)
    (hk_time : K .time = false) :
    HoldsO K P (execSyncRspTimeout d s) := by
  unfold execSyncRspTimeout
  try dsimp only
  with_reducible repeat' first
    | intro _ | assumption | apply State.modFt_keeps | apply State.bump_keeps | apply Holds.foldl | apply HoldsO.next | dsimp only

end Sys2Proof.Machine
end

