-- ==== Sys2Proof/Laws/KeepImages.lean ====
section
/-! SUPPORT. The operations of Images.lean keep what the operations on registers and memory keep. -/

namespace Sys2Proof.Machine

set_option linter.all false
set_option linter.unusedTactic false
set_option linter.unreachableTactic false

variable {K : Grp → Bool} {P : State → Prop}

theorem State.showHead_keeps (s : State) (hs : Holds K P s) (hk_regs : K .regs = false) :
    Holds K P (State.showHead s) := by
  unfold State.showHead
  try dsimp only
  with_reducible repeat' first
    | intro _ | assumption | apply State.wrs_keeps | split | dsimp only

theorem State.showStore_keeps (s : State) (hs : Holds K P s) (hk_regs : K .regs = false) :
    Holds K P (State.showStore s) := by
  unfold State.showStore
  try dsimp only
  with_reducible repeat' first
    | intro _ | assumption | apply State.showHead_keeps | apply State.wrs_keeps | dsimp only

theorem State.repairJournal_keeps (s : State) (r : CommitRec) (hs : Holds K P s) (hk_store : K .store = false) :
    Holds K P (State.repairJournal s r) := by
  unfold State.repairJournal
  try dsimp only
  with_reducible repeat' first
    | intro _ | assumption | simp only [Holds.upd, hk_store, Bool.false_eq_true, false_implies, implies_true] | dsimp only

end Sys2Proof.Machine
end

