-- ==== Sys2Proof/Laws/KeepStructure.lean ====
section
/-! SUPPORT. The operations of Structure.lean keep what the operations on registers and memory keep. -/

namespace Sys2Proof.Machine

set_option linter.all false
set_option linter.unusedTactic false
set_option linter.unreachableTactic false

variable {K : Grp → Bool} {P : State → Prop}

theorem State.discard_keeps (s : State) (hs : Holds K P s) (hk_bridge : K .bridge = false) (hk_counters : K .counters = false)
    (hk_dmem : K .dmem = false) (hk_events : K .events = false) (hk_hag : K .hag = false) (hk_lanes : K .lanes = false)
    (hk_llus : K .llus = false) (hk_members : K .members = false) (hk_noc : K .noc = false) (hk_ops : K .ops = false)
    (hk_polders : K .polders = false) (hk_power : K .power = false) (hk_queues : K .queues = false)
    (hk_reads : K .reads = false) (hk_recKey : K .recKey = false) (hk_regs : K .regs = false) (hk_rings : K .rings = false)
    (hk_rma : K .rma = false) (hk_rtb : K .rtb = false) (hk_sluice : K .sluice = false) (hk_swc : K .swc = false)
    (hk_time : K .time = false) (hk_tmu : K .tmu = false) (hk_triggers : K .triggers = false) (hk_tru : K .tru = false)
    (hk_windows : K .windows = false) (hk_xlu : K .xlu = false) :
    Holds K P (State.discard s) := by
  unfold State.discard
  dsimp only
  with_reducible repeat' first
    | assumption | apply State.clearRegs_keeps | apply State.wrs_keeps
  refine Holds.swap (s := s) rfl rfl rfl rfl rfl rfl rfl rfl ?_ hs
  intro g hg
  cases g
  case accesses => exact rfl
  case bridge => exact absurd (hk_bridge.symm.trans hg) (by decide)
  case control => exact rfl
  case counters => exact absurd (hk_counters.symm.trans hg) (by decide)
  case dmem => exact absurd (hk_dmem.symm.trans hg) (by decide)
  case engines => exact rfl
  case events => exact absurd (hk_events.symm.trans hg) (by decide)
  case faults => exact rfl
  case free => exact rfl
  case hag => exact absurd (hk_hag.symm.trans hg) (by decide)
  case hold => exact ⟨rfl, rfl, rfl⟩
  case image => exact rfl
  case ims => exact rfl
  case interleave => exact rfl
  case lanes => exact absurd (hk_lanes.symm.trans hg) (by decide)
  case llus => exact absurd (hk_llus.symm.trans hg) (by decide)
  case mem => exact ⟨rfl, rfl⟩
  case members => exact absurd (hk_members.symm.trans hg) (by decide)
  case noc => exact absurd (hk_noc.symm.trans hg) (by decide)
  case ops => exact absurd (hk_ops.symm.trans hg) (by decide)
  case out => exact rfl
  case polders => exact absurd (hk_polders.symm.trans hg) (by decide)
  case ports => exact rfl
  case power => exact absurd (hk_power.symm.trans hg) (by decide)
  case queues => exact absurd (hk_queues.symm.trans hg) (by decide)
  case reads => exact absurd (hk_reads.symm.trans hg) (by decide)
  case recKey => exact absurd (hk_recKey.symm.trans hg) (by decide)
  case regs => exact absurd (hk_regs.symm.trans hg) (by decide)
  case rings => exact absurd (hk_rings.symm.trans hg) (by decide)
  case rma => exact absurd (hk_rma.symm.trans hg) (by decide)
  case rtb => exact absurd (hk_rtb.symm.trans hg) (by decide)
  case sluice => exact absurd (hk_sluice.symm.trans hg) (by decide)
  case store => exact rfl
  case svc => exact rfl
  case swc => exact absurd (hk_swc.symm.trans hg) (by decide)
  case time => exact absurd (hk_time.symm.trans hg) (by decide)
  case tmu => exact absurd (hk_tmu.symm.trans hg) (by decide)
  case triggers => exact absurd (hk_triggers.symm.trans hg) (by decide)
  case tru => exact absurd (hk_tru.symm.trans hg) (by decide)
  case windows => exact absurd (hk_windows.symm.trans hg) (by decide)
  case xlu => exact absurd (hk_xlu.symm.trans hg) (by decide)

theorem State.writeMins_keeps (s : State) (d : Die) (p : Params) (hs : Holds K P s) (hk_regs : K .regs = false) :
    Holds K P (State.writeMins s d p) := by
  unfold State.writeMins
  try dsimp only
  with_reducible repeat' first
    | intro _ | assumption | apply State.wr_keeps | apply Holds.ite | apply Holds.foldl | split | dsimp only

theorem State.startCredits_keeps (s : State) (d : Die) (p : Params) (hs : Holds K P s) (hk_swc : K .swc = false) :
    Holds K P (State.startCredits s d p) := by
  unfold State.startCredits
  try dsimp only
  with_reducible repeat' first
    | intro _ | assumption | apply State.modSwc_keeps | apply Holds.foldl | dsimp only

theorem State.writeDie_keeps (s : State) (d : Die) (p : Params) (hs : Holds K P s) (hk_free : K .free = false)
    (hk_regs : K .regs = false) (hk_swc : K .swc = false) (hk_tmu : K .tmu = false) :
    Holds K P (State.writeDie s d p) := by
  unfold State.writeDie
  try dsimp only
  with_reducible repeat' first
    | intro _ | assumption | apply State.wrs_keeps | apply State.startCredits_keeps | apply State.writeMins_keeps
    | apply State.basinCeilings_keeps | apply State.wr_keeps | apply State.draw_keeps | apply State.modTmu_keeps | apply Holds.ite
    | apply Holds.foldl | split | dsimp only

theorem State.writePort_keeps (s : State) (d : Die) (p : Params) (i : Nat) (hs : Holds K P s) (hk_regs : K .regs = false) :
    Holds K P (State.writePort s d p i) := by
  unfold State.writePort
  try dsimp only
  with_reducible repeat' first
    | intro _ | assumption | apply State.wrs_keeps | apply State.wr_keeps | apply Holds.ite | apply Holds.foldl | split | dsimp only

theorem State.writeLane_keeps (s : State) (d : Die) (p : Params) (n : Nat) (hs : Holds K P s) (hk_regs : K .regs = false) :
    Holds K P (State.writeLane s d p n) := by
  unfold State.writeLane
  try dsimp only
  with_reducible repeat' first
    | intro _ | assumption | apply State.wrs_keeps | apply Holds.ite | split | dsimp only

theorem State.placeDom_keeps (s : State) (p : Params) (d : Die) (i : Nat) (hs : Holds K P s)
    (hk_accesses : K .accesses = false) (hk_dmem : K .dmem = false) (hk_engines : K .engines = false)
    (hk_hag : K .hag = false) (hk_hold : K .hold = false) (hk_mem : K .mem = false) (hk_noc : K .noc = false)
    (hk_out : K .out = false) (hk_power : K .power = false) (hk_regs : K .regs = false) (hk_tmu : K .tmu = false)
    (hk_xlu : K .xlu = false) :
    Holds K P (State.placeDom s p d i) := by
  unfold State.placeDom
  try dsimp only
  with_reducible repeat' first
    | intro _ | assumption | apply State.lockOff_keeps | apply State.lockOn_keeps | apply State.domEnter_keeps | apply Holds.ite
    | split | dsimp only

theorem State.writeWardens_keeps (s : State) (l : List Fn) (hs : Holds K P s) (hk_regs : K .regs = false) :
    Holds K P (State.writeWardens s l) := by
  unfold State.writeWardens
  try dsimp only
  with_reducible repeat' first
    | intro _ | assumption | apply State.wrs_keeps | apply State.wr_keeps | apply Holds.foldl | split | dsimp only

theorem State.blockOn_keeps (s : State) (d : Die) (b : Nat) (on : Bool) (hs : Holds K P s) (hk_regs : K .regs = false) :
    Holds K P (State.blockOn s d b on) := by
  unfold State.blockOn
  try dsimp only
  with_reducible repeat' first
    | intro _ | assumption | apply State.wrs_keeps | dsimp only

theorem State.programDie_keeps (s : State) (r : Structure) (d : Die) (hs : Holds K P s) (hk_accesses : K .accesses = false)
    (hk_dmem : K .dmem = false) (hk_engines : K .engines = false) (hk_free : K .free = false) (hk_hag : K .hag = false)
    (hk_hold : K .hold = false) (hk_lanes : K .lanes = false) (hk_llus : K .llus = false) (hk_mem : K .mem = false)
    (hk_noc : K .noc = false) (hk_out : K .out = false) (hk_power : K .power = false) (hk_regs : K .regs = false)
    (hk_rtb : K .rtb = false) (hk_swc : K .swc = false) (hk_tmu : K .tmu = false) (hk_xlu : K .xlu = false) :
    Holds K P (State.programDie s r d) := by
  unfold State.programDie
  try dsimp only
  with_reducible repeat' first
    | intro _ | assumption | apply State.writeDie_keeps | apply State.writePort_keeps | apply State.writeLane_keeps
    | apply State.replayBankOut_keeps | apply State.blockOn_keeps | apply State.when_keeps | apply State.placeDom_keeps
    | apply State.portStart_keeps | apply Holds.ite | apply Holds.foldl | split | dsimp only

theorem State.applyStructure_keeps (s : State) (r : Structure) (source : Nat) (hs : Holds K P s)
    (hk_accesses : K .accesses = false) (hk_bridge : K .bridge = false) (hk_counters : K .counters = false)
    (hk_dmem : K .dmem = false) (hk_engines : K .engines = false) (hk_events : K .events = false) (hk_free : K .free = false)
    (hk_hag : K .hag = false) (hk_hold : K .hold = false) (hk_image : K .image = false) (hk_ims : K .ims = false)
    (hk_lanes : K .lanes = false) (hk_llus : K .llus = false) (hk_mem : K .mem = false) (hk_members : K .members = false)
    (hk_noc : K .noc = false) (hk_ops : K .ops = false) (hk_out : K .out = false) (hk_polders : K .polders = false)
    (hk_power : K .power = false) (hk_queues : K .queues = false) (hk_reads : K .reads = false)
    (hk_recKey : K .recKey = false) (hk_regs : K .regs = false) (hk_rings : K .rings = false) (hk_rma : K .rma = false)
    (hk_rtb : K .rtb = false) (hk_sluice : K .sluice = false) (hk_svc : K .svc = false) (hk_swc : K .swc = false)
    (hk_time : K .time = false) (hk_tmu : K .tmu = false) (hk_triggers : K .triggers = false) (hk_tru : K .tru = false)
    (hk_windows : K .windows = false) (hk_xlu : K .xlu = false) :
    Holds K P (State.applyStructure s r source) := by
  unfold State.applyStructure
  try dsimp only
  with_reducible repeat' first
    | intro _ | assumption | apply State.discard_keeps | apply State.wr_keeps | apply State.writeWardens_keeps
    | apply State.programDie_keeps | apply State.pcuClear_keeps | apply State.wrs_keeps | apply State.when_keeps
    | simp only [Holds.upd, hk_image, hk_ims, hk_svc, Bool.false_eq_true, false_implies, implies_true] | dsimp only

theorem State.trackReady_keeps (s : State) (hs : Holds K P s) (hk_regs : K .regs = false) :
    Holds K P (State.trackReady s) := by
  unfold State.trackReady
  try dsimp only
  with_reducible repeat' first
    | intro _ | assumption | apply State.wr_keeps | apply Holds.ite | split | dsimp only

theorem State.trackQuiesce_keeps (s : State) (hs : Holds K P s) (hk_ims : K .ims = false) (hk_regs : K .regs = false) :
    Holds K P (State.trackQuiesce s) := by
  unfold State.trackQuiesce
  try dsimp only
  with_reducible repeat' first
    | intro _ | assumption | apply State.wr_keeps | apply Holds.ite
    | simp only [Holds.upd, hk_ims, Bool.false_eq_true, false_implies, implies_true] | split | dsimp only

end Sys2Proof.Machine
end

