-- ==== Sys2Proof/Laws/KeepImageStore.lean ====
section
/-! SUPPORT. The operations of ImageStore.lean keep what the operations on registers and memory keep. -/

namespace Sys2Proof.Machine

set_option linter.all false
set_option linter.unusedTactic false
set_option linter.unreachableTactic false

variable {K : Grp → Bool} {P : State → Prop}

theorem State.asIms_keeps (s : State) (rq : Requester) (off : Nat) (act : State → State) (hs : Holds K P s)
    (hact : ∀ x0, Holds K P x0 → Holds K P (act x0)) (hk_regs : K .regs = false) :
    Holds K P (State.asIms s rq off act) := by
  unfold State.asIms
  try dsimp only
  with_reducible repeat' first
    | intro _ | assumption | apply State.privViolation_keeps | apply hact | apply Holds.ite | split | dsimp only

theorem State.lease_keeps (s : State) (rq : Requester) (hs : Holds K P s) (hk_ims : K .ims = false)
    (hk_regs : K .regs = false) :
    Holds K P (State.lease s rq) := by
  unfold State.lease
  try dsimp only
  with_reducible repeat' first
    | intro _ | assumption | apply State.wrs_keeps | simp only [Holds.upd, hk_ims, Bool.false_eq_true, false_implies, implies_true]
    | dsimp only

theorem State.imsEnd_keeps (s : State) (code : Nat) (detail : Nat) (hs : Holds K P s) (hk_regs : K .regs = false) :
    Holds K P (State.imsEnd s code detail) := by
  unfold State.imsEnd
  try dsimp only
  with_reducible repeat' first
    | intro _ | assumption | apply State.wrs_keeps | dsimp only

theorem State.tokenAcquire_keeps (s : State) (rq : Requester) (hs : Holds K P s) (hk_ims : K .ims = false)
    (hk_regs : K .regs = false) :
    Holds K P (State.tokenAcquire s rq) := by
  unfold State.tokenAcquire
  try dsimp only
  with_reducible repeat' first
    | intro _ | assumption | apply State.lease_keeps | apply State.imsEnd_keeps | apply Holds.ite | split | dsimp only

theorem State.tokenRelease_keeps (s : State) (rq : Requester) (hs : Holds K P s) (hk_regs : K .regs = false) :
    Holds K P (State.tokenRelease s rq) := by
  unfold State.tokenRelease
  try dsimp only
  with_reducible repeat' first
    | intro _ | assumption | apply State.freeToken_keeps | apply Holds.ite | split | dsimp only

theorem execTokenAcquire_keeps (rq : Requester) (s : State) (hs : Holds K P s) (hk_ims : K .ims = false)
    (hk_regs : K .regs = false) :
    HoldsO K P (execTokenAcquire rq s) := by
  unfold execTokenAcquire
  try dsimp only
  with_reducible repeat' first
    | intro _ | assumption | apply State.asIms_keeps | apply State.tokenAcquire_keeps | apply HoldsO.next | dsimp only

theorem execTokenRelease_keeps (rq : Requester) (s : State) (hs : Holds K P s) (hk_regs : K .regs = false) :
    HoldsO K P (execTokenRelease rq s) := by
  unfold execTokenRelease
  try dsimp only
  with_reducible repeat' first
    | intro _ | assumption | apply State.asIms_keeps | apply State.tokenRelease_keeps | apply HoldsO.next | dsimp only

theorem execTokenLeaseExpiry_keeps (s : State) (hs : Holds K P s) (hk_regs : K .regs = false) :
    HoldsO K P (execTokenLeaseExpiry s) := by
  unfold execTokenLeaseExpiry
  try dsimp only
  with_reducible repeat' first
    | intro _ | assumption | apply State.freeToken_keeps | apply Holds.ite | apply HoldsO.next | split | dsimp only

theorem State.pull_keeps (s : State) (rq : Requester) (src : Nat) (hs : Holds K P s) (hk_out : K .out = false)
    (hk_regs : K .regs = false) :
    Holds K P (State.pull s rq src) := by
  unfold State.pull
  try dsimp only
  with_reducible repeat' first
    | intro _ | assumption | apply State.hread_keeps | apply Holds.ite | split | dsimp only

theorem State.orRefused_keeps (s : State) (a : Except Nat State) (hs : Holds K P s) (ha : HoldsE K P a) :
    Holds K P (State.orRefused s a).1 := by
  cases a with
  | ok t => exact ha.all t rfl
  | error e => exact hs

theorem State.imsCommand_keeps (s : State) (rq : Requester) (op : Nat) (src : Nat) (arg : Nat) (act : State → State × Nat)
    (hs : Holds K P s) (hact : ∀ x0, Holds K P x0 → Holds K P (act x0).1) (hk_ims : K .ims = false) (hk_out : K .out = false)
    (hk_regs : K .regs = false) :
    Holds K P (State.imsCommand s rq op src arg act) := by
  unfold State.imsCommand
  try dsimp only
  with_reducible repeat' first
    | intro _ | assumption | apply State.wrs_keeps | apply State.imsEnd_keeps | apply State.lease_keeps | apply State.when_keeps
    | apply State.pull_keeps | apply hact | apply Holds.ite | apply Holds.ite1 | refine Holds.of_fst (by assumption) ?_ | split
    | dsimp only

theorem State.imsVerify_keeps (s : State) (rq : Requester) (src : Nat) (host : List Byte) (hs : Holds K P s) :
    HoldsE K P (State.imsVerify s rq src host) := by
  unfold State.imsVerify
  try dsimp only
  with_reducible repeat' first
    | intro _ | assumption | apply Holds.ite | exact HoldsE.error | apply HoldsE.ok | apply HoldsE.ite | split | dsimp only

theorem State.verifyGo_keeps (s : State) (rq : Requester) (src : Nat) (arg : Nat) (host : List Byte) (hs : Holds K P s)
    (hk_ims : K .ims = false) (hk_out : K .out = false) (hk_regs : K .regs = false) :
    Holds K P (State.verifyGo s rq src arg host) := by
  unfold State.verifyGo
  try dsimp only
  with_reducible repeat' first
    | intro _ | assumption | apply State.imsCommand_keeps | apply State.orRefused_keeps | apply State.imsVerify_keeps
    | exact HoldsE.error | apply HoldsE.ok | dsimp only

theorem execVerify_keeps (rq : Requester) (src : Fin 4) (host : List Byte) (s : State) (hs : Holds K P s)
    (hk_ims : K .ims = false) (hk_out : K .out = false) (hk_regs : K .regs = false) :
    HoldsO K P (execVerify rq src host s) := by
  unfold execVerify
  try dsimp only
  with_reducible repeat' first
    | intro _ | assumption | apply State.asIms_keeps | apply State.verifyGo_keeps | apply HoldsO.next | dsimp only

theorem State.imsApply_keeps (s : State) (rq : Requester) (src : Nat) (host : List Byte) (hs : Holds K P s)
    (hk_accesses : K .accesses = false) (hk_bridge : K .bridge = false) (hk_counters : K .counters = false)
    (hk_dmem : K .dmem = false) (hk_engines : K .engines = false) (hk_events : K .events = false) (hk_free : K .free = false)
    (hk_hag : K .hag = false) (hk_hold : K .hold = false) (hk_image : K .image = false) (hk_ims : K .ims = false)
    (hk_lanes : K .lanes = false) (hk_llus : K .llus = false) (hk_mem : K .mem = false) (hk_members : K .members = false)
    (hk_noc : K .noc = false) (hk_ops : K .ops = false) (hk_out : K .out = false) (hk_polders : K .polders = false)
    (hk_power : K .power = false) (hk_queues : K .queues = false) (hk_reads : K .reads = false)
    (hk_recKey : K .recKey = false) (hk_regs : K .regs = false) (hk_rings : K .rings = false) (hk_rma : K .rma = false)
    (hk_rtb : K .rtb = false) (hk_sluice : K .sluice = false) (hk_svc : K .svc = false) (hk_swc : K .swc = false)
    (hk_time : K .time = false) (hk_tmu : K .tmu = false) (hk_triggers : K .triggers = false) (hk_tru : K .tru = false)
    (hk_windows : K .windows = false) (hk_xlu : K .xlu = false) :
    HoldsE K P (State.imsApply s rq src host) := by
  unfold State.imsApply
  try dsimp only
  with_reducible repeat' first
    | intro _ | assumption | apply State.applyStructure_keeps | apply Holds.ite | exact HoldsE.error | apply HoldsE.ok
    | apply HoldsE.ite | split | dsimp only

theorem State.applyGo_keeps (s : State) (rq : Requester) (src : Nat) (arg : Nat) (host : List Byte) (hs : Holds K P s)
    (hk_accesses : K .accesses = false) (hk_bridge : K .bridge = false) (hk_counters : K .counters = false)
    (hk_dmem : K .dmem = false) (hk_engines : K .engines = false) (hk_events : K .events = false) (hk_free : K .free = false)
    (hk_hag : K .hag = false) (hk_hold : K .hold = false) (hk_image : K .image = false) (hk_ims : K .ims = false)
    (hk_lanes : K .lanes = false) (hk_llus : K .llus = false) (hk_mem : K .mem = false) (hk_members : K .members = false)
    (hk_noc : K .noc = false) (hk_ops : K .ops = false) (hk_out : K .out = false) (hk_polders : K .polders = false)
    (hk_power : K .power = false) (hk_queues : K .queues = false) (hk_reads : K .reads = false)
    (hk_recKey : K .recKey = false) (hk_regs : K .regs = false) (hk_rings : K .rings = false) (hk_rma : K .rma = false)
    (hk_rtb : K .rtb = false) (hk_sluice : K .sluice = false) (hk_svc : K .svc = false) (hk_swc : K .swc = false)
    (hk_time : K .time = false) (hk_tmu : K .tmu = false) (hk_triggers : K .triggers = false) (hk_tru : K .tru = false)
    (hk_windows : K .windows = false) (hk_xlu : K .xlu = false) :
    Holds K P (State.applyGo s rq src arg host) := by
  unfold State.applyGo
  try dsimp only
  with_reducible repeat' first
    | intro _ | assumption | apply State.imsCommand_keeps | apply State.orRefused_keeps | apply State.imsApply_keeps
    | exact HoldsE.error | apply HoldsE.ok | dsimp only

theorem execApply_keeps (rq : Requester) (src : Fin 4) (host : List Byte) (s : State) (hs : Holds K P s)
    (hk_accesses : K .accesses = false) (hk_bridge : K .bridge = false) (hk_counters : K .counters = false)
    (hk_dmem : K .dmem = false) (hk_engines : K .engines = false) (hk_events : K .events = false) (hk_free : K .free = false)
    (hk_hag : K .hag = false) (hk_hold : K .hold = false) (hk_image : K .image = false) (hk_ims : K .ims = false)
    (hk_lanes : K .lanes = false) (hk_llus : K .llus = false) (hk_mem : K .mem = false) (hk_members : K .members = false)
    (hk_noc : K .noc = false) (hk_ops : K .ops = false) (hk_out : K .out = false) (hk_polders : K .polders = false)
    (hk_power : K .power = false) (hk_queues : K .queues = false) (hk_reads : K .reads = false)
    (hk_recKey : K .recKey = false) (hk_regs : K .regs = false) (hk_rings : K .rings = false) (hk_rma : K .rma = false)
    (hk_rtb : K .rtb = false) (hk_sluice : K .sluice = false) (hk_svc : K .svc = false) (hk_swc : K .swc = false)
    (hk_time : K .time = false) (hk_tmu : K .tmu = false) (hk_triggers : K .triggers = false) (hk_tru : K .tru = false)
    (hk_windows : K .windows = false) (hk_xlu : K .xlu = false) :
    HoldsO K P (execApply rq src host s) := by
  unfold execApply
  try dsimp only
  with_reducible repeat' first
    | intro _ | assumption | apply State.asIms_keeps | apply State.applyGo_keeps | apply HoldsO.next | dsimp only

theorem State.install_keeps (s : State) (slot : Nat) (seq : Nat) (b : List Byte) (stop : Option StoreCut) (hs : Holds K P s)
    (hk_regs : K .regs = false) (hk_store : K .store = false) :
    Holds K P (State.install s slot seq b stop).1 := by
  unfold State.install
  try dsimp only
  with_reducible repeat' first
    | intro _ | assumption | apply State.wr_keeps | apply State.showStore_keeps | apply Holds.ite
    | simp only [Holds.upd, hk_store, Bool.false_eq_true, false_implies, implies_true] | exact HoldsS.none | apply HoldsS.some
    | apply Holds.ite1 | refine Holds.of_fst (by assumption) ?_ | refine Holds.of_some (by assumption) ?_ | split | dsimp only

theorem State.imsInstall_keeps (s : State) (rq : Requester) (host : List Byte) (stop : Option StoreCut) (hs : Holds K P s)
    (hk_regs : K .regs = false) (hk_store : K .store = false) :
    Holds K P (State.imsInstall s rq host stop).1 := by
  unfold State.imsInstall
  try dsimp only
  with_reducible repeat' first
    | intro _ | assumption | apply State.install_keeps | apply Holds.ite | exact HoldsS.none | apply HoldsS.some | apply Holds.ite1
    | refine Holds.of_fst (by assumption) ?_ | refine Holds.of_some (by assumption) ?_ | split | dsimp only

theorem State.installGo_keeps (s : State) (rq : Requester) (src : Nat) (arg : Nat) (host : List Byte) (stop : Option StoreCut)
    (hs : Holds K P s) (hk_ims : K .ims = false) (hk_out : K .out = false) (hk_regs : K .regs = false)
    (hk_store : K .store = false) :
    Holds K P (State.installGo s rq src arg host stop) := by
  unfold State.installGo
  try dsimp only
  with_reducible repeat' first
    | intro _ | assumption | apply State.when_keeps | apply State.wr_keeps | apply State.imsCommand_keeps
    | apply State.imsInstall_keeps | exact HoldsS.none | apply HoldsS.some | dsimp only

theorem execInstall_keeps (rq : Requester) (src : Fin 4) (host : List Byte) (stop : Option StoreCut) (s : State)
    (hs : Holds K P s) (hk_ims : K .ims = false) (hk_out : K .out = false) (hk_regs : K .regs = false)
    (hk_store : K .store = false) :
    HoldsO K P (execInstall rq src host stop s) := by
  unfold execInstall
  try dsimp only
  with_reducible repeat' first
    | intro _ | assumption | apply State.asIms_keeps | apply State.installGo_keeps | apply HoldsO.next | exact HoldsS.none
    | apply HoldsS.some | dsimp only

theorem State.putStore_keeps (s : State) (st : Store) (verified : Bool) (hs : Holds K P s) (hk_free : K .free = false)
    (hk_regs : K .regs = false) (hk_store : K .store = false) :
    Holds K P (State.putStore s st verified).1 := by
  unfold State.putStore
  try dsimp only
  with_reducible repeat' first
    | intro _ | assumption | apply State.showStore_keeps | apply State.draw_keeps | apply Holds.ite
    | simp only [Holds.upd, hk_store, Bool.false_eq_true, false_implies, implies_true] | apply Holds.ite1 | split | dsimp only

theorem State.controlRecord_keeps (s : State) (b : List Byte) (kind : Nat) (verified : Bool) (rule : Store → Except Nat Store)
    (hs : Holds K P s) (hk_free : K .free = false) (hk_regs : K .regs = false) (hk_store : K .store = false) :
    Holds K P (State.controlRecord s b kind verified rule).1 := by
  unfold State.controlRecord
  try dsimp only
  with_reducible repeat' first
    | intro _ | assumption | apply State.putStore_keeps | apply Holds.ite | exact HoldsE.error | apply HoldsE.ok | apply HoldsE.ite
    | exact HoldsEP.error | apply HoldsEP.ok | apply HoldsEP.ite | apply Holds.ite1 | refine Holds.of_fst (by assumption) ?_
    | refine Holds.of_ok (by assumption) ?_ | refine Holds.of_okP (by assumption) ?_ | split | dsimp only

theorem State.enrolGo_keeps (s : State) (rq : Requester) (src : Nat) (arg : Nat) (host : List Byte) (verified : Bool)
    (hs : Holds K P s) (hk_free : K .free = false) (hk_ims : K .ims = false) (hk_out : K .out = false)
    (hk_regs : K .regs = false) (hk_store : K .store = false) :
    Holds K P (State.enrolGo s rq src arg host verified) := by
  unfold State.enrolGo
  try dsimp only
  with_reducible repeat' first
    | intro _ | assumption | apply State.imsCommand_keeps | apply State.controlRecord_keeps | exact HoldsE.error | apply HoldsE.ok
    | exact HoldsEP.error | apply HoldsEP.ok | dsimp only

theorem State.revokeGo_keeps (s : State) (rq : Requester) (src : Nat) (arg : Nat) (host : List Byte) (verified : Bool)
    (hs : Holds K P s) (hk_free : K .free = false) (hk_ims : K .ims = false) (hk_out : K .out = false)
    (hk_regs : K .regs = false) (hk_store : K .store = false) :
    Holds K P (State.revokeGo s rq src arg host verified) := by
  unfold State.revokeGo
  try dsimp only
  with_reducible repeat' first
    | intro _ | assumption | apply State.imsCommand_keeps | apply State.controlRecord_keeps | exact HoldsE.error | apply HoldsE.ok
    | exact HoldsEP.error | apply HoldsEP.ok | dsimp only

theorem State.epochGo_keeps (s : State) (rq : Requester) (src : Nat) (arg : Nat) (host : List Byte) (verified : Bool)
    (hs : Holds K P s) (hk_free : K .free = false) (hk_ims : K .ims = false) (hk_out : K .out = false)
    (hk_regs : K .regs = false) (hk_store : K .store = false) :
    Holds K P (State.epochGo s rq src arg host verified) := by
  unfold State.epochGo
  try dsimp only
  with_reducible repeat' first
    | intro _ | assumption | apply State.imsCommand_keeps | apply State.controlRecord_keeps | exact HoldsE.error | apply HoldsE.ok
    | exact HoldsEP.error | apply HoldsEP.ok | dsimp only

theorem State.policyGo_keeps (s : State) (rq : Requester) (src : Nat) (arg : Nat) (host : List Byte) (verified : Bool)
    (hs : Holds K P s) (hk_free : K .free = false) (hk_ims : K .ims = false) (hk_out : K .out = false)
    (hk_regs : K .regs = false) (hk_store : K .store = false) :
    Holds K P (State.policyGo s rq src arg host verified) := by
  unfold State.policyGo
  try dsimp only
  with_reducible repeat' first
    | intro _ | assumption | apply State.imsCommand_keeps | apply State.putStore_keeps | apply State.controlRecord_keeps
    | apply Holds.ite | exact HoldsE.error | apply HoldsE.ok | apply HoldsE.ite | exact HoldsEP.error | apply HoldsEP.ok
    | apply HoldsEP.ite | apply Holds.ite1 | split | dsimp only

theorem execEnrolKey_keeps (rq : Requester) (src : Fin 4) (host : List Byte) (verified : Bool) (s : State) (hs : Holds K P s)
    (hk_free : K .free = false) (hk_ims : K .ims = false) (hk_out : K .out = false) (hk_regs : K .regs = false)
    (hk_store : K .store = false) :
    HoldsO K P (execEnrolKey rq src host verified s) := by
  unfold execEnrolKey
  try dsimp only
  with_reducible repeat' first
    | intro _ | assumption | apply State.asIms_keeps | apply State.enrolGo_keeps | apply HoldsO.next | dsimp only

theorem execRevokeKey_keeps (rq : Requester) (src : Fin 4) (host : List Byte) (verified : Bool) (s : State) (hs : Holds K P s)
    (hk_free : K .free = false) (hk_ims : K .ims = false) (hk_out : K .out = false) (hk_regs : K .regs = false)
    (hk_store : K .store = false) :
    HoldsO K P (execRevokeKey rq src host verified s) := by
  unfold execRevokeKey
  try dsimp only
  with_reducible repeat' first
    | intro _ | assumption | apply State.asIms_keeps | apply State.revokeGo_keeps | apply HoldsO.next | dsimp only

theorem execRaiseEpoch_keeps (rq : Requester) (src : Fin 4) (host : List Byte) (verified : Bool) (s : State)
    (hs : Holds K P s) (hk_free : K .free = false) (hk_ims : K .ims = false) (hk_out : K .out = false)
    (hk_regs : K .regs = false) (hk_store : K .store = false) :
    HoldsO K P (execRaiseEpoch rq src host verified s) := by
  unfold execRaiseEpoch
  try dsimp only
  with_reducible repeat' first
    | intro _ | assumption | apply State.asIms_keeps | apply State.epochGo_keeps | apply HoldsO.next | dsimp only

theorem execSetBootPolicy_keeps (rq : Requester) (src : Fin 4) (arg : Fin 4) (host : List Byte) (verified : Bool) (s : State)
    (hs : Holds K P s) (hk_free : K .free = false) (hk_ims : K .ims = false) (hk_out : K .out = false)
    (hk_regs : K .regs = false) (hk_store : K .store = false) :
    HoldsO K P (execSetBootPolicy rq src arg host verified s) := by
  unfold execSetBootPolicy
  try dsimp only
  with_reducible repeat' first
    | intro _ | assumption | apply State.asIms_keeps | apply State.policyGo_keeps | apply HoldsO.next | dsimp only

theorem State.imsGo_keeps (s : State) (rq : Requester) (op : Nat) (src : Nat) (arg : Nat) (host : List Byte)
    (hs : Holds K P s) (hk_accesses : K .accesses = false) (hk_bridge : K .bridge = false) (hk_counters : K .counters = false)
    (hk_dmem : K .dmem = false) (hk_engines : K .engines = false) (hk_events : K .events = false) (hk_free : K .free = false)
    (hk_hag : K .hag = false) (hk_hold : K .hold = false) (hk_image : K .image = false) (hk_ims : K .ims = false)
    (hk_lanes : K .lanes = false) (hk_llus : K .llus = false) (hk_mem : K .mem = false) (hk_members : K .members = false)
    (hk_noc : K .noc = false) (hk_ops : K .ops = false) (hk_out : K .out = false) (hk_polders : K .polders = false)
    (hk_power : K .power = false) (hk_queues : K .queues = false) (hk_reads : K .reads = false)
    (hk_recKey : K .recKey = false) (hk_regs : K .regs = false) (hk_rings : K .rings = false) (hk_rma : K .rma = false)
    (hk_rtb : K .rtb = false) (hk_sluice : K .sluice = false) (hk_store : K .store = false) (hk_svc : K .svc = false)
    (hk_swc : K .swc = false) (hk_time : K .time = false) (hk_tmu : K .tmu = false) (hk_triggers : K .triggers = false)
    (hk_tru : K .tru = false) (hk_windows : K .windows = false) (hk_xlu : K .xlu = false) :
    Holds K P (State.imsGo s rq op src arg host) := by
  unfold State.imsGo
  try dsimp only
  with_reducible repeat' first
    | intro _ | assumption | apply State.installGo_keeps | apply State.applyGo_keeps | apply State.verifyGo_keeps
    | apply State.enrolGo_keeps | apply State.revokeGo_keeps | apply State.epochGo_keeps | apply State.policyGo_keeps
    | apply State.imsCommand_keeps | apply Holds.ite | apply Holds.ite1 | refine Holds.of_fst (by assumption) ?_ | split
    | dsimp only

theorem State.quiesceWrite_keeps (s : State) (req : Bool) (hs : Holds K P s) (hk_ims : K .ims = false)
    (hk_regs : K .regs = false) :
    Holds K P (State.quiesceWrite s req) := by
  unfold State.quiesceWrite
  try dsimp only
  with_reducible repeat' first
    | intro _ | assumption | apply State.wrs_keeps | apply State.wr_keeps | apply Holds.ite
    | simp only [Holds.upd, hk_ims, Bool.false_eq_true, false_implies, implies_true] | split | dsimp only

theorem execQuiesceReq_keeps (rq : Requester) (s : State) (hs : Holds K P s) (hk_ims : K .ims = false)
    (hk_regs : K .regs = false) :
    HoldsO K P (execQuiesceReq rq s) := by
  unfold execQuiesceReq
  try dsimp only
  with_reducible repeat' first
    | intro _ | assumption | apply State.asIms_keeps | apply State.quiesceWrite_keeps | apply HoldsO.next | dsimp only

theorem execQuiesceEntered_keeps (s : State) (hs : Holds K P s) (hk_regs : K .regs = false) :
    HoldsO K P (execQuiesceEntered s) := by
  unfold execQuiesceEntered
  try dsimp only
  with_reducible repeat' first
    | intro _ | assumption | apply State.wrs_keeps | apply Holds.ite | apply HoldsO.next | split | dsimp only

theorem State.floorWrite_keeps (s : State) (v : Nat) (hs : Holds K P s) (hk_regs : K .regs = false) :
    Holds K P (State.floorWrite s v) := by
  unfold State.floorWrite
  try dsimp only
  with_reducible repeat' first
    | intro _ | assumption | apply State.wr_keeps | apply Holds.ite | split | dsimp only

theorem execFeatureFloorWrite_keeps (rq : Requester) (v : Fin 16) (s : State) (hs : Holds K P s) (hk_regs : K .regs = false) :
    HoldsO K P (execFeatureFloorWrite rq v s) := by
  unfold execFeatureFloorWrite
  try dsimp only
  with_reducible repeat' first
    | intro _ | assumption | apply State.asIms_keeps | apply State.floorWrite_keeps | apply HoldsO.next | dsimp only

theorem execStoreScrub_keeps (corrected lost : List (BitVec 23)) (s : State) (hs : Holds K P s) (hk_ims : K .ims = false)
    (hk_regs : K .regs = false) :
    HoldsO K P (execStoreScrub corrected lost s) := by
  unfold execStoreScrub
  try dsimp only
  with_reducible repeat' first
    | intro _ | assumption | apply State.bumpBy_keeps | apply Holds.ite
    | simp only [Holds.upd, hk_ims, Bool.false_eq_true, false_implies, implies_true] | apply HoldsO.next | apply Holds.ite1 | split
    | dsimp only

end Sys2Proof.Machine
end

