-- ==== Sys2Proof/Laws/KeepStartup.lean ====
section
/-! SUPPORT. The operations of Startup.lean keep what the operations on registers and memory keep. -/

namespace Sys2Proof.Machine

set_option linter.all false
set_option linter.unusedTactic false
set_option linter.unreachableTactic false

variable {K : Grp → Bool} {P : State → Prop}

theorem State.keepRegs_keeps (s : State) (p : Nat → Bool) (hs : Holds K P s) (hk_regs : K .regs = false) :
    Holds K P (State.keepRegs s p) := by
  exact Holds.dropRegs hs hk_regs _

theorem State.mapPorts_keeps (s : State) (f : Fin 4 → HostPort) (hs : Holds K P s) (hk_ports : K .ports = false) :
    Holds K P (State.mapPorts s f) := by
  unfold State.mapPorts
  try dsimp only
  with_reducible repeat' first
    | intro _ | assumption | simp only [Holds.upd, hk_ports, Bool.false_eq_true, false_implies, implies_true] | dsimp only

theorem State.coldState_keeps (s : State) (hs : Holds K P s) (hk_accesses : K .accesses = false)
    (hk_bridge : K .bridge = false) (hk_control : K .control = false) (hk_counters : K .counters = false)
    (hk_dmem : K .dmem = false) (hk_engines : K .engines = false) (hk_events : K .events = false)
    (hk_faults : K .faults = false) (hk_hag : K .hag = false) (hk_hold : K .hold = false) (hk_image : K .image = false)
    (hk_ims : K .ims = false) (hk_interleave : K .interleave = false) (hk_lanes : K .lanes = false)
    (hk_llus : K .llus = false) (hk_mem : K .mem = false) (hk_members : K .members = false) (hk_noc : K .noc = false)
    (hk_ops : K .ops = false) (hk_polders : K .polders = false) (hk_ports : K .ports = false) (hk_power : K .power = false)
    (hk_queues : K .queues = false) (hk_reads : K .reads = false) (hk_recKey : K .recKey = false) (hk_regs : K .regs = false)
    (hk_rings : K .rings = false) (hk_rma : K .rma = false) (hk_rtb : K .rtb = false) (hk_sluice : K .sluice = false)
    (hk_svc : K .svc = false) (hk_swc : K .swc = false) (hk_time : K .time = false) (hk_tmu : K .tmu = false)
    (hk_triggers : K .triggers = false) (hk_tru : K .tru = false) (hk_windows : K .windows = false) (hk_xlu : K .xlu = false) :
    Holds K P (State.coldState s) := by
  unfold State.coldState
  dsimp only
  with_reducible apply State.mapPorts_keeps
  · with_reducible apply Holds.foldl
    · have hc : Holds K P { s with regs := [], mem := [] } := ⟨hs.closed, hs.closed.cold hk_regs hk_mem s hs.holds⟩
      refine ⟨hs.closed, Closed.back hs.closed hc.holds rfl rfl rfl rfl rfl rfl rfl rfl ?_⟩
      intro g hg
      cases g <;> first
        | rfl
        | exact absurd (hk_accesses.symm.trans hg) (by decide)
        | exact absurd (hk_bridge.symm.trans hg) (by decide)
        | exact absurd (hk_control.symm.trans hg) (by decide)
        | exact absurd (hk_counters.symm.trans hg) (by decide)
        | exact absurd (hk_dmem.symm.trans hg) (by decide)
        | exact absurd (hk_engines.symm.trans hg) (by decide)
        | exact absurd (hk_events.symm.trans hg) (by decide)
        | exact absurd (hk_faults.symm.trans hg) (by decide)
        | exact absurd (hk_hag.symm.trans hg) (by decide)
        | exact absurd (hk_hold.symm.trans hg) (by decide)
        | exact absurd (hk_image.symm.trans hg) (by decide)
        | exact absurd (hk_ims.symm.trans hg) (by decide)
        | exact absurd (hk_interleave.symm.trans hg) (by decide)
        | exact absurd (hk_lanes.symm.trans hg) (by decide)
        | exact absurd (hk_llus.symm.trans hg) (by decide)
        | exact absurd (hk_mem.symm.trans hg) (by decide)
        | exact absurd (hk_members.symm.trans hg) (by decide)
        | exact absurd (hk_noc.symm.trans hg) (by decide)
        | exact absurd (hk_ops.symm.trans hg) (by decide)
        | exact absurd (hk_polders.symm.trans hg) (by decide)
        | exact absurd (hk_ports.symm.trans hg) (by decide)
        | exact absurd (hk_power.symm.trans hg) (by decide)
        | exact absurd (hk_queues.symm.trans hg) (by decide)
        | exact absurd (hk_reads.symm.trans hg) (by decide)
        | exact absurd (hk_recKey.symm.trans hg) (by decide)
        | exact absurd (hk_regs.symm.trans hg) (by decide)
        | exact absurd (hk_rings.symm.trans hg) (by decide)
        | exact absurd (hk_rma.symm.trans hg) (by decide)
        | exact absurd (hk_rtb.symm.trans hg) (by decide)
        | exact absurd (hk_sluice.symm.trans hg) (by decide)
        | exact absurd (hk_svc.symm.trans hg) (by decide)
        | exact absurd (hk_swc.symm.trans hg) (by decide)
        | exact absurd (hk_time.symm.trans hg) (by decide)
        | exact absurd (hk_tmu.symm.trans hg) (by decide)
        | exact absurd (hk_triggers.symm.trans hg) (by decide)
        | exact absurd (hk_tru.symm.trans hg) (by decide)
        | exact absurd (hk_windows.symm.trans hg) (by decide)
        | exact absurd (hk_xlu.symm.trans hg) (by decide)
    · intro t f ht
      exact State.wr_keeps ht hk_regs _ _ _
  · assumption

theorem State.applyRecords_keeps (s : State) (hs : Holds K P s) (hk_bridge : K .bridge = false) (hk_regs : K .regs = false) :
    Holds K P (State.applyRecords s) := by
  unfold State.applyRecords
  try dsimp only
  with_reducible repeat' first
    | intro _ | assumption | apply State.modBridge_keeps | apply State.wr_keeps | apply State.showStore_keeps
    | apply State.showBridge_keeps | apply State.countRetired_keeps | apply Holds.foldl | dsimp only

theorem State.dark_keeps (s : State) (hs : Holds K P s) (hk_noc : K .noc = false) (hk_power : K .power = false)
    (hk_regs : K .regs = false) :
    Holds K P (State.dark s) := by
  unfold State.dark
  try dsimp only
  with_reducible repeat' first
    | intro _ | assumption | apply State.modDom_keeps | apply State.wrs_keeps | apply State.modNoc_keeps | apply Holds.foldl
    | dsimp only

theorem State.lightDomains_keeps (s : State) (hs : Holds K P s) (hk_accesses : K .accesses = false)
    (hk_dmem : K .dmem = false) (hk_engines : K .engines = false) (hk_hag : K .hag = false) (hk_hold : K .hold = false)
    (hk_mem : K .mem = false) (hk_noc : K .noc = false) (hk_out : K .out = false) (hk_power : K .power = false)
    (hk_regs : K .regs = false) (hk_tmu : K .tmu = false) (hk_xlu : K .xlu = false) :
    Holds K P (State.lightDomains s) := by
  unfold State.lightDomains
  try dsimp only
  with_reducible repeat' first
    | intro _ | assumption | apply State.lockOff_keeps | apply State.lockOn_keeps | apply Holds.ite | apply Holds.foldl | split
    | dsimp only

theorem State.drawKeys_keeps (s : State) (hs : Holds K P s) (hk_free : K .free = false)
    (hk_interleave : K .interleave = false) (hk_recKey : K .recKey = false) (hk_rtb : K .rtb = false) :
    Holds K P (State.drawKeys s) := by
  unfold State.drawKeys
  try dsimp only
  with_reducible repeat' first
   
    | (intro g x hg; cases g <;> first | exact absurd (hk_recKey.symm.trans hg) (by decide) | (with_unfolding_all exact dieSame_refl _ _) | (simp only [dieSame, and_self]))
    | intro _ | assumption | apply State.draw_keeps | apply State.modRtb_keeps | apply State.modDie_keeps
    | simp only [Holds.upd, hk_interleave, Bool.false_eq_true, false_implies, implies_true] | apply Holds.foldl | dsimp only

theorem State.trainPorts_keeps (s : State) (hs : Holds K P s) (hk_ports : K .ports = false) :
    Holds K P (State.trainPorts s) := by
  unfold State.trainPorts
  try dsimp only
  with_reducible repeat' first
    | intro _ | assumption | apply State.when_keeps | apply State.trainHost_keeps | apply Holds.foldl | dsimp only

theorem State.awaitHost_keeps (s : State) (hs : Holds K P s) (hk_ims : K .ims = false) (hk_regs : K .regs = false) :
    Holds K P (State.awaitHost s) := by
  unfold State.awaitHost
  try dsimp only
  with_reducible repeat' first
    | intro _ | assumption | apply State.wr_keeps | simp only [Holds.upd, hk_ims, Bool.false_eq_true, false_implies, implies_true]
    | dsimp only

theorem State.bootImage_keeps (s : State) (hs : Holds K P s) (hk_accesses : K .accesses = false)
    (hk_bridge : K .bridge = false) (hk_counters : K .counters = false) (hk_dmem : K .dmem = false)
    (hk_engines : K .engines = false) (hk_events : K .events = false) (hk_free : K .free = false) (hk_hag : K .hag = false)
    (hk_hold : K .hold = false) (hk_image : K .image = false) (hk_ims : K .ims = false) (hk_lanes : K .lanes = false)
    (hk_llus : K .llus = false) (hk_mem : K .mem = false) (hk_members : K .members = false) (hk_noc : K .noc = false)
    (hk_ops : K .ops = false) (hk_out : K .out = false) (hk_polders : K .polders = false) (hk_power : K .power = false)
    (hk_queues : K .queues = false) (hk_reads : K .reads = false) (hk_recKey : K .recKey = false) (hk_regs : K .regs = false)
    (hk_rings : K .rings = false) (hk_rma : K .rma = false) (hk_rtb : K .rtb = false) (hk_sluice : K .sluice = false)
    (hk_store : K .store = false) (hk_svc : K .svc = false) (hk_swc : K .swc = false) (hk_time : K .time = false)
    (hk_tmu : K .tmu = false) (hk_triggers : K .triggers = false) (hk_tru : K .tru = false) (hk_windows : K .windows = false)
    (hk_xlu : K .xlu = false) :
    Holds K P (State.bootImage s) := by
  unfold State.bootImage
  try dsimp only
  with_reducible repeat' first
    | intro _ | assumption | apply State.wr_keeps | apply State.repairJournal_keeps | apply State.applyStructure_keeps
    | apply State.alert_keeps | apply State.awaitHost_keeps | apply Holds.ite | split | dsimp only

theorem State.startDies_keeps (s : State) (avs : Bool) (hs : Holds K P s) (hk_accesses : K .accesses = false)
    (hk_bridge : K .bridge = false) (hk_counters : K .counters = false) (hk_dmem : K .dmem = false)
    (hk_engines : K .engines = false) (hk_events : K .events = false) (hk_free : K .free = false) (hk_hag : K .hag = false)
    (hk_hold : K .hold = false) (hk_image : K .image = false) (hk_ims : K .ims = false) (hk_lanes : K .lanes = false)
    (hk_llus : K .llus = false) (hk_mem : K .mem = false) (hk_members : K .members = false) (hk_noc : K .noc = false)
    (hk_ops : K .ops = false) (hk_out : K .out = false) (hk_polders : K .polders = false) (hk_ports : K .ports = false)
    (hk_power : K .power = false) (hk_queues : K .queues = false) (hk_reads : K .reads = false)
    (hk_recKey : K .recKey = false) (hk_regs : K .regs = false) (hk_rings : K .rings = false) (hk_rma : K .rma = false)
    (hk_rtb : K .rtb = false) (hk_sluice : K .sluice = false) (hk_store : K .store = false) (hk_svc : K .svc = false)
    (hk_swc : K .swc = false) (hk_time : K .time = false) (hk_tmu : K .tmu = false) (hk_triggers : K .triggers = false)
    (hk_tru : K .tru = false) (hk_windows : K .windows = false) (hk_xlu : K .xlu = false) :
    Holds K P (State.startDies s avs) := by
  unfold State.startDies
  try dsimp only
  with_reducible repeat' first
    | intro _ | assumption | apply State.wr_keeps | apply State.bootImage_keeps | apply State.trainPorts_keeps
    | apply State.lightDomains_keeps | apply Holds.ite | split | dsimp only

theorem State.fromStore_keeps (s : State) (avs : Bool) (hs : Holds K P s) (hk_accesses : K .accesses = false)
    (hk_bridge : K .bridge = false) (hk_counters : K .counters = false) (hk_dmem : K .dmem = false)
    (hk_engines : K .engines = false) (hk_events : K .events = false) (hk_free : K .free = false) (hk_hag : K .hag = false)
    (hk_hold : K .hold = false) (hk_image : K .image = false) (hk_ims : K .ims = false) (hk_lanes : K .lanes = false)
    (hk_llus : K .llus = false) (hk_mem : K .mem = false) (hk_members : K .members = false) (hk_noc : K .noc = false)
    (hk_ops : K .ops = false) (hk_out : K .out = false) (hk_polders : K .polders = false) (hk_ports : K .ports = false)
    (hk_power : K .power = false) (hk_queues : K .queues = false) (hk_reads : K .reads = false)
    (hk_recKey : K .recKey = false) (hk_regs : K .regs = false) (hk_rings : K .rings = false) (hk_rma : K .rma = false)
    (hk_rtb : K .rtb = false) (hk_sluice : K .sluice = false) (hk_store : K .store = false) (hk_svc : K .svc = false)
    (hk_swc : K .swc = false) (hk_time : K .time = false) (hk_tmu : K .tmu = false) (hk_triggers : K .triggers = false)
    (hk_tru : K .tru = false) (hk_windows : K .windows = false) (hk_xlu : K .xlu = false) :
    Holds K P (State.fromStore s avs) := by
  unfold State.fromStore
  try dsimp only
  with_reducible repeat' first
    | intro _ | assumption | apply State.dark_keeps | apply State.applyRecords_keeps | apply State.startDies_keeps
    | apply State.wr_keeps | apply Holds.ite | split | dsimp only

theorem State.powerLost_keeps (s : State) (hs : Holds K P s) (hk_accesses : K .accesses = false)
    (hk_bridge : K .bridge = false) (hk_control : K .control = false) (hk_counters : K .counters = false)
    (hk_dmem : K .dmem = false) (hk_engines : K .engines = false) (hk_events : K .events = false)
    (hk_faults : K .faults = false) (hk_hag : K .hag = false) (hk_hold : K .hold = false) (hk_image : K .image = false)
    (hk_ims : K .ims = false) (hk_interleave : K .interleave = false) (hk_lanes : K .lanes = false)
    (hk_llus : K .llus = false) (hk_mem : K .mem = false) (hk_members : K .members = false) (hk_noc : K .noc = false)
    (hk_ops : K .ops = false) (hk_polders : K .polders = false) (hk_ports : K .ports = false) (hk_power : K .power = false)
    (hk_queues : K .queues = false) (hk_reads : K .reads = false) (hk_recKey : K .recKey = false) (hk_regs : K .regs = false)
    (hk_rings : K .rings = false) (hk_rma : K .rma = false) (hk_rtb : K .rtb = false) (hk_sluice : K .sluice = false)
    (hk_svc : K .svc = false) (hk_swc : K .swc = false) (hk_time : K .time = false) (hk_tmu : K .tmu = false)
    (hk_triggers : K .triggers = false) (hk_tru : K .tru = false) (hk_windows : K .windows = false) (hk_xlu : K .xlu = false) :
    Holds K P (State.powerLost s) := by
  unfold State.powerLost
  try dsimp only
  with_reducible repeat' first
    | intro _ | assumption | apply State.coldState_keeps | dsimp only

theorem State.powerUp_keeps (s : State) (avs : Bool) (hs : Holds K P s) (hk_accesses : K .accesses = false)
    (hk_bridge : K .bridge = false) (hk_control : K .control = false) (hk_counters : K .counters = false)
    (hk_dmem : K .dmem = false) (hk_engines : K .engines = false) (hk_events : K .events = false)
    (hk_faults : K .faults = false) (hk_free : K .free = false) (hk_hag : K .hag = false) (hk_hold : K .hold = false)
    (hk_image : K .image = false) (hk_ims : K .ims = false) (hk_interleave : K .interleave = false)
    (hk_lanes : K .lanes = false) (hk_llus : K .llus = false) (hk_mem : K .mem = false) (hk_members : K .members = false)
    (hk_noc : K .noc = false) (hk_ops : K .ops = false) (hk_out : K .out = false) (hk_polders : K .polders = false)
    (hk_ports : K .ports = false) (hk_power : K .power = false) (hk_queues : K .queues = false) (hk_reads : K .reads = false)
    (hk_recKey : K .recKey = false) (hk_regs : K .regs = false) (hk_rings : K .rings = false) (hk_rma : K .rma = false)
    (hk_rtb : K .rtb = false) (hk_sluice : K .sluice = false) (hk_store : K .store = false) (hk_svc : K .svc = false)
    (hk_swc : K .swc = false) (hk_time : K .time = false) (hk_tmu : K .tmu = false) (hk_triggers : K .triggers = false)
    (hk_tru : K .tru = false) (hk_windows : K .windows = false) (hk_xlu : K .xlu = false) :
    Holds K P (State.powerUp s avs) := by
  unfold State.powerUp
  try dsimp only
  with_reducible repeat' first
    | intro _ | assumption | apply State.coldState_keeps | apply State.fromStore_keeps | apply State.drawKeys_keeps
    | simp only [Holds.upd, hk_svc, Bool.false_eq_true, false_implies, implies_true] | dsimp only

theorem execPwrgoodRise_keeps (avs : Bool) (s : State) (hs : Holds K P s) (hk_accesses : K .accesses = false)
    (hk_bridge : K .bridge = false) (hk_control : K .control = false) (hk_counters : K .counters = false)
    (hk_dmem : K .dmem = false) (hk_engines : K .engines = false) (hk_events : K .events = false)
    (hk_faults : K .faults = false) (hk_free : K .free = false) (hk_hag : K .hag = false) (hk_hold : K .hold = false)
    (hk_image : K .image = false) (hk_ims : K .ims = false) (hk_interleave : K .interleave = false)
    (hk_lanes : K .lanes = false) (hk_llus : K .llus = false) (hk_mem : K .mem = false) (hk_members : K .members = false)
    (hk_noc : K .noc = false) (hk_ops : K .ops = false) (hk_out : K .out = false) (hk_polders : K .polders = false)
    (hk_ports : K .ports = false) (hk_power : K .power = false) (hk_queues : K .queues = false) (hk_reads : K .reads = false)
    (hk_recKey : K .recKey = false) (hk_regs : K .regs = false) (hk_rings : K .rings = false) (hk_rma : K .rma = false)
    (hk_rtb : K .rtb = false) (hk_sluice : K .sluice = false) (hk_store : K .store = false) (hk_svc : K .svc = false)
    (hk_swc : K .swc = false) (hk_time : K .time = false) (hk_tmu : K .tmu = false) (hk_triggers : K .triggers = false)
    (hk_tru : K .tru = false) (hk_windows : K .windows = false) (hk_xlu : K .xlu = false) :
    HoldsO K P (execPwrgoodRise avs s) := by
  unfold execPwrgoodRise
  try dsimp only
  with_reducible repeat' first
    | intro _ | assumption | apply State.powerUp_keeps | apply Holds.ite | apply HoldsO.next | split | dsimp only

theorem execPwrgoodFall_keeps (s : State) (hs : Holds K P s) (hk_accesses : K .accesses = false)
    (hk_bridge : K .bridge = false) (hk_control : K .control = false) (hk_counters : K .counters = false)
    (hk_dmem : K .dmem = false) (hk_engines : K .engines = false) (hk_events : K .events = false)
    (hk_faults : K .faults = false) (hk_hag : K .hag = false) (hk_hold : K .hold = false) (hk_image : K .image = false)
    (hk_ims : K .ims = false) (hk_interleave : K .interleave = false) (hk_lanes : K .lanes = false)
    (hk_llus : K .llus = false) (hk_mem : K .mem = false) (hk_members : K .members = false) (hk_noc : K .noc = false)
    (hk_ops : K .ops = false) (hk_polders : K .polders = false) (hk_ports : K .ports = false) (hk_power : K .power = false)
    (hk_queues : K .queues = false) (hk_reads : K .reads = false) (hk_recKey : K .recKey = false) (hk_regs : K .regs = false)
    (hk_rings : K .rings = false) (hk_rma : K .rma = false) (hk_rtb : K .rtb = false) (hk_sluice : K .sluice = false)
    (hk_svc : K .svc = false) (hk_swc : K .swc = false) (hk_time : K .time = false) (hk_tmu : K .tmu = false)
    (hk_triggers : K .triggers = false) (hk_tru : K .tru = false) (hk_windows : K .windows = false) (hk_xlu : K .xlu = false) :
    HoldsO K P (execPwrgoodFall s) := by
  unfold execPwrgoodFall
  try dsimp only
  with_reducible repeat' first
    | intro _ | assumption | apply State.powerLost_keeps | apply Holds.ite | apply HoldsO.next | split | dsimp only

theorem execSuppliesCollapse_keeps (s : State) (hs : Holds K P s) (hk_accesses : K .accesses = false)
    (hk_bridge : K .bridge = false) (hk_control : K .control = false) (hk_counters : K .counters = false)
    (hk_dmem : K .dmem = false) (hk_engines : K .engines = false) (hk_events : K .events = false)
    (hk_faults : K .faults = false) (hk_hag : K .hag = false) (hk_hold : K .hold = false) (hk_image : K .image = false)
    (hk_ims : K .ims = false) (hk_interleave : K .interleave = false) (hk_lanes : K .lanes = false)
    (hk_llus : K .llus = false) (hk_mem : K .mem = false) (hk_members : K .members = false) (hk_noc : K .noc = false)
    (hk_ops : K .ops = false) (hk_polders : K .polders = false) (hk_ports : K .ports = false) (hk_power : K .power = false)
    (hk_queues : K .queues = false) (hk_reads : K .reads = false) (hk_recKey : K .recKey = false) (hk_regs : K .regs = false)
    (hk_rings : K .rings = false) (hk_rma : K .rma = false) (hk_rtb : K .rtb = false) (hk_sluice : K .sluice = false)
    (hk_svc : K .svc = false) (hk_swc : K .swc = false) (hk_time : K .time = false) (hk_tmu : K .tmu = false)
    (hk_triggers : K .triggers = false) (hk_tru : K .tru = false) (hk_windows : K .windows = false) (hk_xlu : K .xlu = false) :
    HoldsO K P (execSuppliesCollapse s) := by
  unfold execSuppliesCollapse
  try dsimp only
  with_reducible repeat' first
    | intro _ | assumption | apply State.powerLost_keeps | apply HoldsO.next | dsimp only

theorem State.warmRegs_keeps (s : State) (hs : Holds K P s) (hk_regs : K .regs = false) :
    Holds K P (State.warmRegs s) := by
  unfold State.warmRegs
  try dsimp only
  with_reducible repeat' first
    | intro _ | assumption | apply State.zero_keeps | apply State.keepRegs_keeps | apply Holds.foldl | dsimp only

theorem State.resetEngines_keeps (s : State) (hs : Holds K P s) (hk_accesses : K .accesses = false)
    (hk_dmem : K .dmem = false) (hk_engines : K .engines = false) (hk_hag : K .hag = false) (hk_hold : K .hold = false)
    (hk_mem : K .mem = false) (hk_out : K .out = false) (hk_regs : K .regs = false) :
    Holds K P (State.resetEngines s) := by
  unfold State.resetEngines
  try dsimp only
  with_reducible repeat' first
    | intro _ | assumption | apply State.engineReset_keeps | apply Holds.foldl | dsimp only

theorem State.warmUnits_keeps (s : State) (hs : Holds K P s) (hk_accesses : K .accesses = false)
    (hk_bridge : K .bridge = false) (hk_control : K .control = false) (hk_counters : K .counters = false)
    (hk_dmem : K .dmem = false) (hk_engines : K .engines = false) (hk_events : K .events = false)
    (hk_faults : K .faults = false) (hk_hag : K .hag = false) (hk_hold : K .hold = false) (hk_image : K .image = false)
    (hk_ims : K .ims = false) (hk_lanes : K .lanes = false) (hk_llus : K .llus = false) (hk_members : K .members = false)
    (hk_noc : K .noc = false) (hk_ops : K .ops = false) (hk_polders : K .polders = false) (hk_ports : K .ports = false)
    (hk_power : K .power = false) (hk_queues : K .queues = false) (hk_reads : K .reads = false)
    (hk_recKey : K .recKey = false) (hk_rings : K .rings = false) (hk_rma : K .rma = false) (hk_rtb : K .rtb = false)
    (hk_sluice : K .sluice = false) (hk_svc : K .svc = false) (hk_swc : K .swc = false) (hk_time : K .time = false)
    (hk_tmu : K .tmu = false) (hk_triggers : K .triggers = false) (hk_tru : K .tru = false) (hk_windows : K .windows = false)
    (hk_xlu : K .xlu = false) :
    Holds K P (State.warmUnits s) := by
  unfold State.warmUnits
  dsimp only
  with_reducible apply State.mapPorts_keeps _ _ _ hk_ports
  refine Holds.swap (s := s) rfl rfl rfl rfl rfl rfl rfl rfl ?_ hs
  intro g hg
  cases g
  case accesses => exact absurd (hk_accesses.symm.trans hg) (by decide)
  case bridge => exact absurd (hk_bridge.symm.trans hg) (by decide)
  case control => exact absurd (hk_control.symm.trans hg) (by decide)
  case counters => exact absurd (hk_counters.symm.trans hg) (by decide)
  case dmem => exact absurd (hk_dmem.symm.trans hg) (by decide)
  case engines => exact absurd (hk_engines.symm.trans hg) (by decide)
  case events => exact absurd (hk_events.symm.trans hg) (by decide)
  case faults => exact absurd (hk_faults.symm.trans hg) (by decide)
  case free => exact rfl
  case hag => exact absurd (hk_hag.symm.trans hg) (by decide)
  case hold => exact absurd (hk_hold.symm.trans hg) (by decide)
  case image => exact absurd (hk_image.symm.trans hg) (by decide)
  case ims => exact absurd (hk_ims.symm.trans hg) (by decide)
  case interleave => exact rfl
  case lanes => exact absurd (hk_lanes.symm.trans hg) (by decide)
  case llus => exact absurd (hk_llus.symm.trans hg) (by decide)
  case mem => exact ⟨rfl, rfl⟩
  case members => exact absurd (hk_members.symm.trans hg) (by decide)
  case noc => exact absurd (hk_noc.symm.trans hg) (by decide)
  case ops => exact absurd (hk_ops.symm.trans hg) (by decide)
  case out => exact rfl
  case polders => exact absurd (hk_polders.symm.trans hg) (by decide)
  case ports => exact absurd (hk_ports.symm.trans hg) (by decide)
  case power => exact absurd (hk_power.symm.trans hg) (by decide)
  case queues => exact absurd (hk_queues.symm.trans hg) (by decide)
  case reads => exact absurd (hk_reads.symm.trans hg) (by decide)
  case recKey => exact absurd (hk_recKey.symm.trans hg) (by decide)
  case regs => exact rfl
  case rings => exact absurd (hk_rings.symm.trans hg) (by decide)
  case rma => exact absurd (hk_rma.symm.trans hg) (by decide)
  case rtb => exact absurd (hk_rtb.symm.trans hg) (by decide)
  case sluice => exact absurd (hk_sluice.symm.trans hg) (by decide)
  case store => exact rfl
  case svc => exact absurd (hk_svc.symm.trans hg) (by decide)
  case swc => exact absurd (hk_swc.symm.trans hg) (by decide)
  case time => exact absurd (hk_time.symm.trans hg) (by decide)
  case tmu => exact absurd (hk_tmu.symm.trans hg) (by decide)
  case triggers => exact absurd (hk_triggers.symm.trans hg) (by decide)
  case tru => exact absurd (hk_tru.symm.trans hg) (by decide)
  case windows => exact absurd (hk_windows.symm.trans hg) (by decide)
  case xlu => exact absurd (hk_xlu.symm.trans hg) (by decide)

theorem State.warmState_keeps (s : State) (hs : Holds K P s) (hk_accesses : K .accesses = false)
    (hk_bridge : K .bridge = false) (hk_control : K .control = false) (hk_counters : K .counters = false)
    (hk_dmem : K .dmem = false) (hk_engines : K .engines = false) (hk_events : K .events = false)
    (hk_faults : K .faults = false) (hk_hag : K .hag = false) (hk_hold : K .hold = false) (hk_image : K .image = false)
    (hk_ims : K .ims = false) (hk_lanes : K .lanes = false) (hk_llus : K .llus = false) (hk_mem : K .mem = false)
    (hk_members : K .members = false) (hk_noc : K .noc = false) (hk_ops : K .ops = false) (hk_out : K .out = false)
    (hk_polders : K .polders = false) (hk_ports : K .ports = false) (hk_power : K .power = false)
    (hk_queues : K .queues = false) (hk_reads : K .reads = false) (hk_recKey : K .recKey = false) (hk_regs : K .regs = false)
    (hk_rings : K .rings = false) (hk_rma : K .rma = false) (hk_rtb : K .rtb = false) (hk_sluice : K .sluice = false)
    (hk_svc : K .svc = false) (hk_swc : K .swc = false) (hk_time : K .time = false) (hk_tmu : K .tmu = false)
    (hk_triggers : K .triggers = false) (hk_tru : K .tru = false) (hk_windows : K .windows = false) (hk_xlu : K .xlu = false) :
    Holds K P (State.warmState s) := by
  unfold State.warmState
  try dsimp only
  with_reducible repeat' first
    | intro _ | assumption | apply State.warmUnits_keeps | apply State.warmRegs_keeps | apply State.resetEngines_keeps | dsimp only

theorem State.warmReset_keeps (s : State) (cause : Fld) (avs : Bool) (hs : Holds K P s) (hk_accesses : K .accesses = false)
    (hk_bridge : K .bridge = false) (hk_control : K .control = false) (hk_counters : K .counters = false)
    (hk_dmem : K .dmem = false) (hk_engines : K .engines = false) (hk_events : K .events = false)
    (hk_faults : K .faults = false) (hk_free : K .free = false) (hk_hag : K .hag = false) (hk_hold : K .hold = false)
    (hk_image : K .image = false) (hk_ims : K .ims = false) (hk_lanes : K .lanes = false) (hk_llus : K .llus = false)
    (hk_mem : K .mem = false) (hk_members : K .members = false) (hk_noc : K .noc = false) (hk_ops : K .ops = false)
    (hk_out : K .out = false) (hk_polders : K .polders = false) (hk_ports : K .ports = false) (hk_power : K .power = false)
    (hk_queues : K .queues = false) (hk_reads : K .reads = false) (hk_recKey : K .recKey = false) (hk_regs : K .regs = false)
    (hk_rings : K .rings = false) (hk_rma : K .rma = false) (hk_rtb : K .rtb = false) (hk_sluice : K .sluice = false)
    (hk_store : K .store = false) (hk_svc : K .svc = false) (hk_swc : K .swc = false) (hk_time : K .time = false)
    (hk_tmu : K .tmu = false) (hk_triggers : K .triggers = false) (hk_tru : K .tru = false) (hk_windows : K .windows = false)
    (hk_xlu : K .xlu = false) :
    Holds K P (State.warmReset s cause avs) := by
  unfold State.warmReset
  try dsimp only
  with_reducible repeat' first
    | intro _ | assumption | apply State.wr_keeps | apply State.zero_keeps | apply State.fromStore_keeps
    | apply State.warmState_keeps | apply State.bump_keeps | apply Holds.ite | split | dsimp only

theorem execResetNAsserted_keeps (s : State) (hs : Holds K P s) (hk_accesses : K .accesses = false)
    (hk_bridge : K .bridge = false) (hk_control : K .control = false) (hk_counters : K .counters = false)
    (hk_dmem : K .dmem = false) (hk_engines : K .engines = false) (hk_events : K .events = false)
    (hk_faults : K .faults = false) (hk_free : K .free = false) (hk_hag : K .hag = false) (hk_hold : K .hold = false)
    (hk_image : K .image = false) (hk_ims : K .ims = false) (hk_lanes : K .lanes = false) (hk_llus : K .llus = false)
    (hk_mem : K .mem = false) (hk_members : K .members = false) (hk_noc : K .noc = false) (hk_ops : K .ops = false)
    (hk_out : K .out = false) (hk_polders : K .polders = false) (hk_ports : K .ports = false) (hk_power : K .power = false)
    (hk_queues : K .queues = false) (hk_reads : K .reads = false) (hk_recKey : K .recKey = false) (hk_regs : K .regs = false)
    (hk_rings : K .rings = false) (hk_rma : K .rma = false) (hk_rtb : K .rtb = false) (hk_sluice : K .sluice = false)
    (hk_store : K .store = false) (hk_svc : K .svc = false) (hk_swc : K .swc = false) (hk_time : K .time = false)
    (hk_tmu : K .tmu = false) (hk_triggers : K .triggers = false) (hk_tru : K .tru = false) (hk_windows : K .windows = false)
    (hk_xlu : K .xlu = false) :
    HoldsO K P (execResetNAsserted s) := by
  unfold execResetNAsserted
  try dsimp only
  with_reducible repeat' first
    | intro _ | assumption | apply State.warmReset_keeps
    | simp only [Holds.upd, hk_svc, Bool.false_eq_true, false_implies, implies_true] | apply HoldsO.next | dsimp only

theorem execResetNDeasserted_keeps (avs : Bool) (s : State) (hs : Holds K P s) (hk_accesses : K .accesses = false)
    (hk_bridge : K .bridge = false) (hk_counters : K .counters = false) (hk_dmem : K .dmem = false)
    (hk_engines : K .engines = false) (hk_events : K .events = false) (hk_free : K .free = false) (hk_hag : K .hag = false)
    (hk_hold : K .hold = false) (hk_image : K .image = false) (hk_ims : K .ims = false) (hk_lanes : K .lanes = false)
    (hk_llus : K .llus = false) (hk_mem : K .mem = false) (hk_members : K .members = false) (hk_noc : K .noc = false)
    (hk_ops : K .ops = false) (hk_out : K .out = false) (hk_polders : K .polders = false) (hk_ports : K .ports = false)
    (hk_power : K .power = false) (hk_queues : K .queues = false) (hk_reads : K .reads = false)
    (hk_recKey : K .recKey = false) (hk_regs : K .regs = false) (hk_rings : K .rings = false) (hk_rma : K .rma = false)
    (hk_rtb : K .rtb = false) (hk_sluice : K .sluice = false) (hk_store : K .store = false) (hk_svc : K .svc = false)
    (hk_swc : K .swc = false) (hk_time : K .time = false) (hk_tmu : K .tmu = false) (hk_triggers : K .triggers = false)
    (hk_tru : K .tru = false) (hk_windows : K .windows = false) (hk_xlu : K .xlu = false) :
    HoldsO K P (execResetNDeasserted avs s) := by
  unfold execResetNDeasserted
  try dsimp only
  with_reducible repeat' first
    | intro _ | assumption | apply State.startDies_keeps | apply Holds.ite
    | simp only [Holds.upd, hk_svc, Bool.false_eq_true, false_implies, implies_true] | apply HoldsO.next | split | dsimp only

theorem State.fmResetGo_keeps (s : State) (rq : Requester) (avs : Bool) (hs : Holds K P s) (hk_accesses : K .accesses = false)
    (hk_bridge : K .bridge = false) (hk_control : K .control = false) (hk_counters : K .counters = false)
    (hk_dmem : K .dmem = false) (hk_engines : K .engines = false) (hk_events : K .events = false)
    (hk_faults : K .faults = false) (hk_free : K .free = false) (hk_hag : K .hag = false) (hk_hold : K .hold = false)
    (hk_image : K .image = false) (hk_ims : K .ims = false) (hk_lanes : K .lanes = false) (hk_llus : K .llus = false)
    (hk_mem : K .mem = false) (hk_members : K .members = false) (hk_noc : K .noc = false) (hk_ops : K .ops = false)
    (hk_out : K .out = false) (hk_polders : K .polders = false) (hk_ports : K .ports = false) (hk_power : K .power = false)
    (hk_queues : K .queues = false) (hk_reads : K .reads = false) (hk_recKey : K .recKey = false) (hk_regs : K .regs = false)
    (hk_rings : K .rings = false) (hk_rma : K .rma = false) (hk_rtb : K .rtb = false) (hk_sluice : K .sluice = false)
    (hk_store : K .store = false) (hk_svc : K .svc = false) (hk_swc : K .swc = false) (hk_time : K .time = false)
    (hk_tmu : K .tmu = false) (hk_triggers : K .triggers = false) (hk_tru : K .tru = false) (hk_windows : K .windows = false)
    (hk_xlu : K .xlu = false) :
    Holds K P (State.fmResetGo s rq avs) := by
  unfold State.fmResetGo
  try dsimp only
  with_reducible repeat' first
    | intro _ | assumption | apply State.wr_keeps | apply State.warmReset_keeps | apply Holds.ite | split | dsimp only

theorem execDeviceReset_keeps (rq : Requester) (avs : Bool) (s : State) (hs : Holds K P s) (hk_accesses : K .accesses = false)
    (hk_bridge : K .bridge = false) (hk_control : K .control = false) (hk_counters : K .counters = false)
    (hk_dmem : K .dmem = false) (hk_engines : K .engines = false) (hk_events : K .events = false)
    (hk_faults : K .faults = false) (hk_free : K .free = false) (hk_hag : K .hag = false) (hk_hold : K .hold = false)
    (hk_image : K .image = false) (hk_ims : K .ims = false) (hk_lanes : K .lanes = false) (hk_llus : K .llus = false)
    (hk_mem : K .mem = false) (hk_members : K .members = false) (hk_noc : K .noc = false) (hk_ops : K .ops = false)
    (hk_out : K .out = false) (hk_polders : K .polders = false) (hk_ports : K .ports = false) (hk_power : K .power = false)
    (hk_queues : K .queues = false) (hk_reads : K .reads = false) (hk_recKey : K .recKey = false) (hk_regs : K .regs = false)
    (hk_rings : K .rings = false) (hk_rma : K .rma = false) (hk_rtb : K .rtb = false) (hk_sluice : K .sluice = false)
    (hk_store : K .store = false) (hk_svc : K .svc = false) (hk_swc : K .swc = false) (hk_time : K .time = false)
    (hk_tmu : K .tmu = false) (hk_triggers : K .triggers = false) (hk_tru : K .tru = false) (hk_windows : K .windows = false)
    (hk_xlu : K .xlu = false) :
    HoldsO K P (execDeviceReset rq avs s) := by
  unfold execDeviceReset
  try dsimp only
  with_reducible repeat' first
    | intro _ | assumption | apply State.asWarden_keeps | apply State.fmResetGo_keeps | apply HoldsO.next | dsimp only

end Sys2Proof.Machine
end

