-- ==== Sys2Proof/Laws/KeepMailbox.lean ====
section
/-! SUPPORT. The operations of Mailbox.lean keep what the operations on registers and memory keep. -/

namespace Sys2Proof.Machine

set_option linter.all false
set_option linter.unusedTactic false
set_option linter.unreachableTactic false

variable {K : Grp → Bool} {P : State → Prop}

theorem State.putSetting_keeps (s : State) (i : Nat) (v : Nat) (cutAt : Option (Fin 8)) (hs : Holds K P s)
    (hk_svc : K .svc = false) :
    Holds K P (State.putSetting s i v cutAt) := by
  unfold State.putSetting
  try dsimp only
  with_reducible repeat' first
    | intro _ | assumption | apply Holds.ite | simp only [Holds.upd, hk_svc, Bool.false_eq_true, false_implies, implies_true]
    | exact HoldsS.none | apply HoldsS.some | refine Holds.of_some (by assumption) ?_ | split | dsimp only

theorem State.mbEnd_keeps (s : State) (code : Nat) (detail : Nat) (hs : Holds K P s) (hk_regs : K .regs = false) :
    Holds K P (State.mbEnd s code detail) := by
  unfold State.mbEnd
  try dsimp only
  with_reducible repeat' first
    | intro _ | assumption | apply State.wrs_keeps | dsimp only

theorem State.mbCommand_keeps (s : State) (op : Nat) (act : State → State) (hs : Holds K P s)
    (hact : ∀ x0, Holds K P x0 → Holds K P (act x0)) (hk_regs : K .regs = false) :
    Holds K P (State.mbCommand s op act) := by
  unfold State.mbCommand
  try dsimp only
  with_reducible repeat' first
    | intro _ | assumption | apply State.wr_keeps | apply hact | apply Holds.ite | split | dsimp only

theorem State.sendMgtGo_keeps (s : State) (hs : Holds K P s) (hk_regs : K .regs = false) (hk_sluice : K .sluice = false)
    (hk_svc : K .svc = false) :
    Holds K P (State.sendMgtGo s) := by
  unfold State.sendMgtGo
  try dsimp only
  with_reducible repeat' first
    | intro _ | assumption | apply State.mbCommand_keeps | apply State.mbEnd_keeps | apply State.sendMgt_keeps
    | apply State.wr_keeps | apply Holds.ite | simp only [Holds.upd, hk_svc, Bool.false_eq_true, false_implies, implies_true]
    | split | dsimp only

theorem execSendMgt_keeps (rq : Requester) (s : State) (hs : Holds K P s) (hk_regs : K .regs = false)
    (hk_sluice : K .sluice = false) (hk_svc : K .svc = false) :
    HoldsO K P (execSendMgt rq s) := by
  unfold execSendMgt
  try dsimp only
  with_reducible repeat' first
    | intro _ | assumption | apply State.asWarden_keeps | apply State.sendMgtGo_keeps | apply HoldsO.next | dsimp only

theorem State.getSettingGo_keeps (s : State) (hs : Holds K P s) (hk_regs : K .regs = false) :
    Holds K P (State.getSettingGo s) := by
  unfold State.getSettingGo
  try dsimp only
  with_reducible repeat' first
    | intro _ | assumption | apply State.mbCommand_keeps | apply State.mbEnd_keeps | apply State.wr_keeps | apply Holds.ite | split
    | dsimp only

theorem State.setSetting_keeps (s : State) (rq : Requester) (i : Nat) (v : Nat) (stop : SettingCut) (hs : Holds K P s)
    (hk_ims : K .ims = false) (hk_regs : K .regs = false) (hk_svc : K .svc = false) :
    Holds K P (State.setSetting s rq i v stop).1 := by
  unfold State.setSetting
  try dsimp only
  with_reducible repeat' first
    | intro _ | assumption | apply State.lease_keeps | apply State.putSetting_keeps | apply Holds.ite | apply Holds.ite1 | split
    | dsimp only

theorem State.setSettingGo_keeps (s : State) (rq : Requester) (stop : SettingCut) (hs : Holds K P s) (hk_ims : K .ims = false)
    (hk_regs : K .regs = false) (hk_svc : K .svc = false) :
    Holds K P (State.setSettingGo s rq stop) := by
  unfold State.setSettingGo
  try dsimp only
  with_reducible repeat' first
    | intro _ | assumption | apply State.mbCommand_keeps | apply State.setSetting_keeps | apply State.mbEnd_keeps
    | apply State.wr_keeps | apply Holds.ite | apply Holds.ite1 | refine Holds.of_fst (by assumption) ?_ | split | dsimp only

theorem State.mbGo_keeps (s : State) (rq : Requester) (op : Nat) (hs : Holds K P s) (hk_ims : K .ims = false)
    (hk_regs : K .regs = false) (hk_sluice : K .sluice = false) (hk_svc : K .svc = false) :
    Holds K P (State.mbGo s rq op) := by
  unfold State.mbGo
  try dsimp only
  with_reducible repeat' first
    | intro _ | assumption | apply State.sendMgtGo_keeps | apply State.getSettingGo_keeps | apply State.setSettingGo_keeps
    | apply State.mbCommand_keeps | apply State.mbEnd_keeps | apply Holds.ite | split | dsimp only

theorem State.popInbox_keeps (s : State) (hs : Holds K P s) (hk_svc : K .svc = false) :
    Holds K P (State.popInbox s) := by
  unfold State.popInbox
  try dsimp only
  with_reducible repeat' first
    | intro _ | assumption | simp only [Holds.upd, hk_svc, Bool.false_eq_true, false_implies, implies_true] | dsimp only

theorem State.putMb_keeps (s : State) (b : List Byte) (hs : Holds K P s) (hk_regs : K .regs = false) :
    Holds K P (State.putMb s b) := by
  unfold State.putMb
  try dsimp only
  with_reducible repeat' first
    | intro _ | assumption | apply State.wr_keeps | apply Holds.foldl | dsimp only

theorem execMgtResponse_keeps (s : State) (hs : Holds K P s) (hk_regs : K .regs = false) (hk_svc : K .svc = false) :
    HoldsO K P (execMgtResponse s) := by
  unfold execMgtResponse
  try dsimp only
  with_reducible repeat' first
    | intro _ | assumption | apply State.popInbox_keeps | apply State.putMb_keeps | apply State.wr_keeps | apply State.mbEnd_keeps
    | apply Holds.ite | simp only [Holds.upd, hk_svc, Bool.false_eq_true, false_implies, implies_true] | apply HoldsO.next | split
    | dsimp only

theorem execMgtRequestRetry_keeps (s : State) (hs : Holds K P s) (hk_regs : K .regs = false) (hk_sluice : K .sluice = false)
    (hk_svc : K .svc = false) :
    HoldsO K P (execMgtRequestRetry s) := by
  unfold execMgtRequestRetry
  try dsimp only
  with_reducible repeat' first
    | intro _ | assumption | apply State.mbEnd_keeps | apply State.sendMgt_keeps | apply State.bump_keeps | apply Holds.ite
    | simp only [Holds.upd, hk_svc, Bool.false_eq_true, false_implies, implies_true] | apply HoldsO.next | split | dsimp only

end Sys2Proof.Machine
end

