-- ==== Sys2Proof/Laws/KeepRegBus.lean ====
section
/-! SUPPORT. The operations of RegBus.lean keep what the operations on registers and memory keep. -/

namespace Sys2Proof.Machine

set_option linter.all false
set_option linter.unusedTactic false
set_option linter.unreachableTactic false

variable {K : Grp → Bool} {P : State → Prop}

theorem after_keeps (o : Host.Outcome State Fault Refusal) (s : State) (ho : HoldsO K P o) (hs : Holds K P s) :
    Holds K P (after o s) := by
  unfold after
  split
  · exact ho.all _ rfl
  · exact hs

theorem State.cfgReject_keeps (s : State) (d : Die) (b : Nat) (hs : Holds K P s) (hk_regs : K .regs = false) :
    Holds K P (State.cfgReject s d b) := by
  unfold State.cfgReject
  try dsimp only
  with_reducible repeat' first
    | intro _ | assumption | apply State.bump_keeps | apply State.wr_keeps | dsimp only

theorem State.portChange_keeps (s : State) (d : Die) (i : Nat) (hs : Holds K P s) (hk_rtb : K .rtb = false) :
    Holds K P (State.portChange s d i) := by
  unfold State.portChange
  try dsimp only
  with_reducible repeat' first
    | intro _ | assumption | apply State.when_keeps | apply State.liveChange_keeps | dsimp only

theorem State.ctrlEffect_keeps (s : State) (d : Die) (b : Nat) (on : Bool) (hs : Holds K P s) (hk_events : K .events = false)
    (hk_free : K .free = false) (hk_lanes : K .lanes = false) (hk_llus : K .llus = false) (hk_noc : K .noc = false)
    (hk_ops : K .ops = false) (hk_out : K .out = false) (hk_power : K .power = false) (hk_queues : K .queues = false)
    (hk_regs : K .regs = false) (hk_rings : K .rings = false) (hk_rtb : K .rtb = false) (hk_tmu : K .tmu = false)
    (hk_triggers : K .triggers = false) (hk_windows : K .windows = false) (hk_xlu : K .xlu = false) :
    Holds K P (State.ctrlEffect s d b on) := by
  unfold State.ctrlEffect
  try dsimp only
  with_reducible repeat' first
    | intro _ | assumption | apply State.portChange_keeps | apply State.when_keeps | apply State.portStart_keeps
    | apply State.laneOff_keeps | apply State.wakeAll_keeps | apply State.pcuStart_keeps | apply State.advance_keeps
    | apply State.modXlu_keeps | apply Holds.ite | apply Holds.foldl | split | dsimp only

theorem State.ctrlWrite_keeps (s : State) (d : Die) (b : Nat) (on : Bool) (hs : Holds K P s) (hk_events : K .events = false)
    (hk_free : K .free = false) (hk_lanes : K .lanes = false) (hk_llus : K .llus = false) (hk_noc : K .noc = false)
    (hk_ops : K .ops = false) (hk_out : K .out = false) (hk_power : K .power = false) (hk_queues : K .queues = false)
    (hk_regs : K .regs = false) (hk_rings : K .rings = false) (hk_rtb : K .rtb = false) (hk_tmu : K .tmu = false)
    (hk_triggers : K .triggers = false) (hk_windows : K .windows = false) (hk_xlu : K .xlu = false) :
    Holds K P (State.ctrlWrite s d b on) := by
  unfold State.ctrlWrite
  try dsimp only
  with_reducible repeat' first
    | intro _ | assumption | apply State.wr_keeps | apply State.when_keeps | apply State.ctrlEffect_keeps | apply Holds.ite | split
    | dsimp only

theorem execCtrlEnableWrite_keeps (rq : Requester) (d : Die) (b : Blk) (on : Bool) (s : State) (hs : Holds K P s)
    (hk_events : K .events = false) (hk_free : K .free = false) (hk_lanes : K .lanes = false) (hk_llus : K .llus = false)
    (hk_noc : K .noc = false) (hk_ops : K .ops = false) (hk_out : K .out = false) (hk_power : K .power = false)
    (hk_queues : K .queues = false) (hk_regs : K .regs = false) (hk_rings : K .rings = false) (hk_rtb : K .rtb = false)
    (hk_tmu : K .tmu = false) (hk_triggers : K .triggers = false) (hk_windows : K .windows = false) (hk_xlu : K .xlu = false) :
    HoldsO K P (execCtrlEnableWrite rq d b on s) := by
  unfold execCtrlEnableWrite
  try dsimp only
  with_reducible repeat' first
    | intro _ | assumption | apply State.bump_keeps | apply State.asWarden_keeps | apply State.ctrlWrite_keeps | apply Holds.ite
    | apply HoldsO.next | split | dsimp only

theorem execStatusEnabledCleared_keeps (d : Die) (b : Blk) (s : State) (hs : Holds K P s) (hk_regs : K .regs = false) :
    HoldsO K P (execStatusEnabledCleared d b s) := by
  unfold execStatusEnabledCleared
  try dsimp only
  with_reducible repeat' first
    | intro _ | assumption | apply State.wr_keeps | apply Holds.ite | apply HoldsO.next | split | dsimp only

theorem State.clearSpan_keeps (s : State) (d : Die) (lo : Nat) (hi : Nat) (hs : Holds K P s) (hk_regs : K .regs = false) :
    Holds K P (State.clearSpan s d lo hi) := by
  unfold State.clearSpan
  try dsimp only
  with_reducible repeat' first
    | intro _ | assumption | apply State.clearRegs_keeps | dsimp only

theorem State.clearCounts_keeps (s : State) (d : Die) (c : Counts) (hs : Holds K P s) (hk_accesses : K .accesses = false)
    (hk_dmem : K .dmem = false) (hk_events : K .events = false) (hk_free : K .free = false) (hk_hag : K .hag = false)
    (hk_hold : K .hold = false) (hk_lanes : K .lanes = false) (hk_mem : K .mem = false) (hk_out : K .out = false)
    (hk_regs : K .regs = false) (hk_windows : K .windows = false) :
    Holds K P (State.clearCounts s d c) := by
  unfold State.clearCounts
  try dsimp only
  with_reducible repeat' first
    | intro _ | assumption | apply State.pcuClear_keeps | apply State.clearRegs_keeps | apply State.prbsSettle_keeps
    | apply State.clearSpan_keeps | apply State.zero_keeps | split | dsimp only

theorem execCountClear_keeps (rq : Requester) (d : Die) (c : Counts) (s : State) (hs : Holds K P s)
    (hk_accesses : K .accesses = false) (hk_dmem : K .dmem = false) (hk_events : K .events = false)
    (hk_free : K .free = false) (hk_hag : K .hag = false) (hk_hold : K .hold = false) (hk_lanes : K .lanes = false)
    (hk_mem : K .mem = false) (hk_out : K .out = false) (hk_regs : K .regs = false) (hk_windows : K .windows = false) :
    HoldsO K P (execCountClear rq d c s) := by
  unfold execCountClear
  try dsimp only
  with_reducible repeat' first
    | intro _ | assumption | apply State.clearCounts_keeps | apply State.bump_keeps | apply State.asWarden_keeps | apply Holds.ite
    | apply HoldsO.next | split | dsimp only

theorem State.storeBut_keeps (s : State) (d : Die) (w : Writes) (acts : List Fld) (hs : Holds K P s)
    (hk_regs : K .regs = false) :
    Holds K P (State.storeBut s d w acts) := by
  unfold State.storeBut
  try dsimp only
  with_reducible repeat' first
    | intro _ | assumption | apply State.wrs_keeps | dsimp only

theorem State.fmCommandGo_keeps (s : State) (rq : Requester) (op : Nat) (hs : Holds K P s) (hk_accesses : K .accesses = false)
    (hk_bridge : K .bridge = false) (hk_control : K .control = false) (hk_counters : K .counters = false)
    (hk_dmem : K .dmem = false) (hk_engines : K .engines = false) (hk_events : K .events = false)
    (hk_faults : K .faults = false) (hk_free : K .free = false) (hk_hag : K .hag = false) (hk_hold : K .hold = false)
    (hk_image : K .image = false) (hk_ims : K .ims = false) (hk_lanes : K .lanes = false) (hk_llus : K .llus = false)
    (hk_mem : K .mem = false) (hk_members : K .members = false) (hk_noc : K .noc = false) (hk_ops : K .ops = false)
    (hk_out : K .out = false) (hk_polders : K .polders = false) (hk_ports : K .ports = false) (hk_power : K .power = false)
    (hk_queues : K .queues = false) (hk_reads : K .reads = false) (hk_recKey : K .recKey = false) (hk_regs : K .regs = false)
    (hk_rings : K .rings = false) (hk_rma : K .rma = false) (hk_rtb : K .rtb = false) (hk_sluice : K .sluice = false)
    (hk_store : K .store = false) (hk_svc : K .svc = false) (hk_swc : K .swc = false) (hk_time : K .time = false)
    (hk_tmu : K .tmu = false) (hk_triggers : K .triggers = false) (hk_tru : K .tru = false) (hk_windows : K .windows = false)
    (hk_xlu : K .xlu = false) :
    Holds K P (State.fmCommandGo s rq op) := by
  unfold State.fmCommandGo
  try dsimp only
  with_reducible repeat' first
    | intro _ | assumption | apply State.fmRetireGo_keeps | apply State.fmUnretireGo_keeps | apply State.fmReadGo_keeps
    | apply State.fmShutdownGo_keeps | apply State.fmCycleGo_keeps | apply State.fmResetGo_keeps | apply State.fmGo_keeps
    | apply Holds.ite | exact HoldsE.error | apply HoldsE.ok | apply HoldsE.ite | exact HoldsEP.error | apply HoldsEP.ok
    | apply HoldsEP.ite | refine Holds.of_ok (by assumption) ?_ | refine Holds.of_okP (by assumption) ?_ | split | dsimp only

theorem State.ptGo_keeps (s : State) (rq : Requester) (d : Die) (op : Nat) (hs : Holds K P s) (hk_free : K .free = false)
    (hk_ops : K .ops = false) (hk_out : K .out = false) (hk_polders : K .polders = false) (hk_queues : K .queues = false)
    (hk_regs : K .regs = false) (hk_sluice : K .sluice = false) :
    Holds K P (State.ptGo s rq d op) := by
  unfold State.ptGo
  try dsimp only
  with_reducible repeat' first
    | intro _ | assumption | apply after_keeps | apply execPtRegister_keeps | apply execPtDeregister_keeps | apply execPtClose_keeps
    | apply execPtOpen_keeps | apply execPtBind_keeps | apply execPtUnbind_keeps | apply execPtSetWindow_keeps
    | apply execPtSetAttr_keeps | apply execPtRead_keeps | apply State.ptCommand_keeps | apply Holds.ite | exact HoldsE.error
    | apply HoldsE.ok | apply HoldsE.ite | exact HoldsEP.error | apply HoldsEP.ok | apply HoldsEP.ite | apply Holds.ite1
    | refine Holds.of_fst (by assumption) ?_ | refine Holds.of_ok (by assumption) ?_ | refine Holds.of_okP (by assumption) ?_
    | split | dsimp only

theorem State.xGo_keeps (s : State) (rq : Requester) (d : Die) (c : Fin 3) (op : Nat) (hs : Holds K P s)
    (hk_out : K .out = false) (hk_reads : K .reads = false) (hk_regs : K .regs = false) (hk_xlu : K .xlu = false) :
    Holds K P (State.xGo s rq d c op) := by
  unfold State.xGo
  try dsimp only
  with_reducible repeat' first
    | intro _ | assumption | apply after_keeps | apply execCreateSpace_keeps | apply execDestroySpace_keeps
    | apply execCreateRegion_keeps | apply execDestroyRegion_keeps | apply execInvalidateRange_keeps
    | apply execInvalidateSpace_keeps | apply execInvalidateFunction_keeps | apply execInvalidateAll_keeps
    | apply State.xCommand_keeps | apply Holds.ite | exact HoldsE.error | apply HoldsE.ok | apply HoldsE.ite | exact HoldsEP.error
    | apply HoldsEP.ok | apply HoldsEP.ite | apply Holds.ite1 | refine Holds.of_fst (by assumption) ?_
    | refine Holds.of_ok (by assumption) ?_ | refine Holds.of_okP (by assumption) ?_ | split | dsimp only

theorem State.ctxGo_keeps (s : State) (rq : Requester) (d : Die) (op : Nat) (hs : Holds K P s)
    (hk_accesses : K .accesses = false) (hk_dmem : K .dmem = false) (hk_hag : K .hag = false) (hk_hold : K .hold = false)
    (hk_mem : K .mem = false) (hk_members : K .members = false) (hk_ops : K .ops = false) (hk_out : K .out = false)
    (hk_reads : K .reads = false) (hk_regs : K .regs = false) (hk_rings : K .rings = false) (hk_rma : K .rma = false)
    (hk_sluice : K .sluice = false) (hk_tmu : K .tmu = false) (hk_tru : K .tru = false) (hk_xlu : K .xlu = false) :
    Holds K P (State.ctxGo s rq d op) := by
  unfold State.ctxGo
  try dsimp only
  with_reducible repeat' first
    | intro _ | assumption | apply after_keeps | apply execQueryPair_keeps | apply execQueryIndex_keeps | apply execAbort_keeps
    | apply State.ctxCommand_keeps | apply Holds.ite | exact HoldsE.error | apply HoldsE.ok | apply HoldsE.ite | exact HoldsEP.error
    | apply HoldsEP.ok | apply HoldsEP.ite | refine Holds.of_ok (by assumption) ?_ | refine Holds.of_okP (by assumption) ?_ | split
    | dsimp only

theorem State.verGo_keeps (s : State) (rq : Requester) (d : Die) (op : Nat) (v : Nat) (hs : Holds K P s)
    (hk_regs : K .regs = false) :
    Holds K P (State.verGo s rq d op v) := by
  unfold State.verGo
  try dsimp only
  with_reducible repeat' first
    | intro _ | assumption | apply after_keeps | apply execValidate_keeps | apply execVersionInvalidate_keeps
    | apply State.verCommand_keeps | apply Holds.ite | exact HoldsE.error | apply HoldsE.ok | apply HoldsE.ite | exact HoldsEP.error
    | apply HoldsEP.ok | apply HoldsEP.ite | apply Holds.ite1 | refine Holds.of_fst (by assumption) ?_
    | refine Holds.of_ok (by assumption) ?_ | refine Holds.of_okP (by assumption) ?_ | split | dsimp only

theorem State.glbEffect_keeps (s : State) (x : RegAccess) (w : Writes) (hs : Holds K P s) (hk_accesses : K .accesses = false)
    (hk_bridge : K .bridge = false) (hk_control : K .control = false) (hk_counters : K .counters = false)
    (hk_dmem : K .dmem = false) (hk_engines : K .engines = false) (hk_events : K .events = false)
    (hk_faults : K .faults = false) (hk_free : K .free = false) (hk_hag : K .hag = false) (hk_hold : K .hold = false)
    (hk_image : K .image = false) (hk_ims : K .ims = false) (hk_lanes : K .lanes = false) (hk_llus : K .llus = false)
    (hk_mem : K .mem = false) (hk_members : K .members = false) (hk_noc : K .noc = false) (hk_ops : K .ops = false)
    (hk_out : K .out = false) (hk_polders : K .polders = false) (hk_ports : K .ports = false) (hk_power : K .power = false)
    (hk_queues : K .queues = false) (hk_reads : K .reads = false) (hk_recKey : K .recKey = false) (hk_regs : K .regs = false)
    (hk_rings : K .rings = false) (hk_rma : K .rma = false) (hk_rtb : K .rtb = false) (hk_sluice : K .sluice = false)
    (hk_store : K .store = false) (hk_svc : K .svc = false) (hk_swc : K .swc = false) (hk_time : K .time = false)
    (hk_tmu : K .tmu = false) (hk_triggers : K .triggers = false) (hk_tru : K .tru = false) (hk_windows : K .windows = false)
    (hk_xlu : K .xlu = false) :
    Holds K P (State.glbEffect s x w) := by
  unfold State.glbEffect
  try dsimp only
  with_reducible repeat' first
    | intro _ | assumption | apply State.clearCounts_keeps | apply State.storeBut_keeps | apply State.when_keeps
    | apply State.fmCommandGo_keeps | apply Holds.ite | split | dsimp only

theorem State.svcEffect_keeps (s : State) (x : RegAccess) (w : Writes) (hs : Holds K P s) (hk_ims : K .ims = false)
    (hk_regs : K .regs = false) (hk_sluice : K .sluice = false) (hk_svc : K .svc = false) :
    Holds K P (State.svcEffect s x w) := by
  unfold State.svcEffect
  try dsimp only
  with_reducible repeat' first
    | intro _ | assumption | apply State.storeBut_keeps | apply State.when_keeps | apply State.mbGo_keeps | dsimp only

theorem State.imsCmdWrite_keeps (s : State) (rq : Requester) (op : Nat) (src : Nat) (arg : Nat) (hs : Holds K P s)
    (hk_accesses : K .accesses = false) (hk_bridge : K .bridge = false) (hk_counters : K .counters = false)
    (hk_dmem : K .dmem = false) (hk_engines : K .engines = false) (hk_events : K .events = false) (hk_free : K .free = false)
    (hk_hag : K .hag = false) (hk_hold : K .hold = false) (hk_image : K .image = false) (hk_ims : K .ims = false)
    (hk_lanes : K .lanes = false) (hk_llus : K .llus = false) (hk_mem : K .mem = false) (hk_members : K .members = false)
    (hk_noc : K .noc = false) (hk_ops : K .ops = false) (hk_out : K .out = false) (hk_polders : K .polders = false)
    (hk_power : K .power = false) (hk_queues : K .queues = false) (hk_reads : K .reads = false)
    (hk_recKey : K .recKey = false) (hk_regs : K .regs = false) (hk_rings : K .rings = false) (hk_rma : K .rma = false)
    (hk_rtb : K .rtb = false) (hk_sluice : K .sluice = false) (hk_store : K .store = false) (hk_svc : K .svc = false)
    (hk_swc : K .swc = false) (hk_time : K .time = false) (hk_tmu : K .tmu = false) (hk_triggers : K .triggers = false)
    (hk_tru : K .tru = false) (hk_windows : K .windows = false) (hk_xlu : K .xlu = false) :
    Holds K P (State.imsCmdWrite s rq op src arg) := by
  unfold State.imsCmdWrite
  try dsimp only
  with_reducible repeat' first
    | intro _ | assumption | apply State.imsGo_keeps | apply Holds.ite | split | dsimp only

theorem State.imsEffect_keeps (s : State) (x : RegAccess) (w : Writes) (hs : Holds K P s) (hk_accesses : K .accesses = false)
    (hk_bridge : K .bridge = false) (hk_counters : K .counters = false) (hk_dmem : K .dmem = false)
    (hk_engines : K .engines = false) (hk_events : K .events = false) (hk_free : K .free = false) (hk_hag : K .hag = false)
    (hk_hold : K .hold = false) (hk_image : K .image = false) (hk_ims : K .ims = false) (hk_lanes : K .lanes = false)
    (hk_llus : K .llus = false) (hk_mem : K .mem = false) (hk_members : K .members = false) (hk_noc : K .noc = false)
    (hk_ops : K .ops = false) (hk_out : K .out = false) (hk_polders : K .polders = false) (hk_power : K .power = false)
    (hk_queues : K .queues = false) (hk_reads : K .reads = false) (hk_recKey : K .recKey = false) (hk_regs : K .regs = false)
    (hk_rings : K .rings = false) (hk_rma : K .rma = false) (hk_rtb : K .rtb = false) (hk_sluice : K .sluice = false)
    (hk_store : K .store = false) (hk_svc : K .svc = false) (hk_swc : K .swc = false) (hk_time : K .time = false)
    (hk_tmu : K .tmu = false) (hk_triggers : K .triggers = false) (hk_tru : K .tru = false) (hk_windows : K .windows = false)
    (hk_xlu : K .xlu = false) :
    Holds K P (State.imsEffect s x w) := by
  unfold State.imsEffect
  try dsimp only
  with_reducible repeat' first
    | intro _ | assumption | apply State.when_keeps | apply State.tokenRelease_keeps | apply State.tokenAcquire_keeps
    | apply State.imsCmdWrite_keeps | apply State.storeBut_keeps | apply State.floorWrite_keeps | apply State.quiesceWrite_keeps
    | apply State.wrs_keeps | apply Holds.ite | split | dsimp only

theorem State.effect1_keeps (s : State) (x : RegAccess) (w : Writes) (hs : Holds K P s) (hk_accesses : K .accesses = false)
    (hk_dmem : K .dmem = false) (hk_events : K .events = false) (hk_free : K .free = false) (hk_hag : K .hag = false)
    (hk_hold : K .hold = false) (hk_lanes : K .lanes = false) (hk_mem : K .mem = false) (hk_ops : K .ops = false)
    (hk_out : K .out = false) (hk_polders : K .polders = false) (hk_queues : K .queues = false) (hk_reads : K .reads = false)
    (hk_regs : K .regs = false) (hk_sluice : K .sluice = false) (hk_tmu : K .tmu = false) (hk_windows : K .windows = false)
    (hk_xlu : K .xlu = false) :
    Holds K P (State.effect1 s x w) := by
  unfold State.effect1
  try dsimp only
  with_reducible repeat' first
    | intro _ | assumption | apply State.storeBut_keeps | apply State.when_keeps | apply State.clearCounts_keeps
    | apply State.ptGo_keeps | apply State.writeFnSets_keeps | apply State.xGo_keeps | apply State.modXlu_keeps | apply after_keeps
    | apply execRehashGo_keeps | apply Holds.ite | split | dsimp only

theorem State.effect2_keeps (s : State) (x : RegAccess) (w : Writes) (hs : Holds K P s) (hk_accesses : K .accesses = false)
    (hk_dmem : K .dmem = false) (hk_events : K .events = false) (hk_free : K .free = false) (hk_hag : K .hag = false)
    (hk_hold : K .hold = false) (hk_lanes : K .lanes = false) (hk_mem : K .mem = false) (hk_members : K .members = false)
    (hk_ops : K .ops = false) (hk_out : K .out = false) (hk_reads : K .reads = false) (hk_regs : K .regs = false)
    (hk_rings : K .rings = false) (hk_rma : K .rma = false) (hk_sluice : K .sluice = false) (hk_tmu : K .tmu = false)
    (hk_tru : K .tru = false) (hk_windows : K .windows = false) (hk_xlu : K .xlu = false) :
    Holds K P (State.effect2 s x w) := by
  unfold State.effect2
  try dsimp only
  with_reducible repeat' first
    | intro _ | assumption | apply State.storeBut_keeps | apply State.clearCounts_keeps | apply State.ctxGo_keeps | apply Holds.ite
    | split | dsimp only

theorem State.rtbEffect_keeps (s : State) (x : RegAccess) (w : Writes) (hs : Holds K P s) (hk_accesses : K .accesses = false)
    (hk_dmem : K .dmem = false) (hk_events : K .events = false) (hk_free : K .free = false) (hk_hag : K .hag = false)
    (hk_hold : K .hold = false) (hk_lanes : K .lanes = false) (hk_mem : K .mem = false) (hk_out : K .out = false)
    (hk_regs : K .regs = false) (hk_rtb : K .rtb = false) (hk_windows : K .windows = false) :
    Holds K P (State.rtbEffect s x w) := by
  unfold State.rtbEffect
  try dsimp only
  with_reducible repeat' first
    | intro _ | assumption | apply State.when_keeps | apply State.myFeaWrite_keeps | apply State.injectWrite_keeps
    | apply State.storeBut_keeps | apply State.verGo_keeps | apply State.reseed_keeps | apply State.tableWrite_keeps
    | apply State.clearCounts_keeps | apply Holds.ite | split | dsimp only

theorem State.swcAt_keeps (s : State) (x : RegAccess) (w : Writes) (at_ : Option (Nat × Nat)) (hs : Holds K P s)
    (hk_accesses : K .accesses = false) (hk_dmem : K .dmem = false) (hk_events : K .events = false)
    (hk_free : K .free = false) (hk_hag : K .hag = false) (hk_hold : K .hold = false) (hk_lanes : K .lanes = false)
    (hk_mem : K .mem = false) (hk_out : K .out = false) (hk_regs : K .regs = false) (hk_sluice : K .sluice = false)
    (hk_windows : K .windows = false) :
    Holds K P (State.swcAt s x w at_) := by
  unfold State.swcAt
  try dsimp only
  with_reducible repeat' first
    | intro _ | assumption | apply State.when_keeps | apply State.slWrite_keeps | apply State.storeBut_keeps
    | apply State.clearCounts_keeps | exact HoldsS.none | apply HoldsS.some | refine Holds.of_fst (by assumption) ?_
    | refine Holds.of_some (by assumption) ?_ | split | dsimp only

theorem State.swcEffect_keeps (s : State) (x : RegAccess) (w : Writes) (hs : Holds K P s) (hk_accesses : K .accesses = false)
    (hk_dmem : K .dmem = false) (hk_events : K .events = false) (hk_free : K .free = false) (hk_hag : K .hag = false)
    (hk_hold : K .hold = false) (hk_lanes : K .lanes = false) (hk_mem : K .mem = false) (hk_out : K .out = false)
    (hk_regs : K .regs = false) (hk_sluice : K .sluice = false) (hk_windows : K .windows = false) :
    Holds K P (State.swcEffect s x w) := by
  unfold State.swcEffect
  try dsimp only
  with_reducible repeat' first
    | intro _ | assumption | apply State.swcAt_keeps | dsimp only

theorem State.lluEffect_keeps (s : State) (x : RegAccess) (w : Writes) (i : Fin 64) (hs : Holds K P s)
    (hk_accesses : K .accesses = false) (hk_bridge : K .bridge = false) (hk_dmem : K .dmem = false)
    (hk_events : K .events = false) (hk_faults : K .faults = false) (hk_free : K .free = false) (hk_hag : K .hag = false)
    (hk_hold : K .hold = false) (hk_lanes : K .lanes = false) (hk_llus : K .llus = false) (hk_mem : K .mem = false)
    (hk_out : K .out = false) (hk_regs : K .regs = false) (hk_rtb : K .rtb = false) (hk_sluice : K .sluice = false)
    (hk_svc : K .svc = false) (hk_swc : K .swc = false) (hk_windows : K .windows = false) :
    Holds K P (State.lluEffect s x w i) := by
  unfold State.lluEffect
  try dsimp only
  with_reducible repeat' first
    | intro _ | assumption | apply State.storeBut_keeps | apply State.when_keeps | apply State.clearCounts_keeps
    | apply State.retrainWrite_keeps | apply State.changeGo_keeps | apply State.retirePort_keeps | dsimp only

theorem State.lneEffect_keeps (s : State) (x : RegAccess) (w : Writes) (n : Fin 64) (hs : Holds K P s)
    (hk_accesses : K .accesses = false) (hk_dmem : K .dmem = false) (hk_events : K .events = false)
    (hk_free : K .free = false) (hk_hag : K .hag = false) (hk_hold : K .hold = false) (hk_lanes : K .lanes = false)
    (hk_llus : K .llus = false) (hk_mem : K .mem = false) (hk_out : K .out = false) (hk_regs : K .regs = false)
    (hk_rtb : K .rtb = false) (hk_windows : K .windows = false) :
    Holds K P (State.lneEffect s x w n) := by
  unfold State.lneEffect
  try dsimp only
  with_reducible repeat' first
    | intro _ | assumption | apply State.lnePwr_keeps | apply State.when_keeps | apply State.prbsCtrl_keeps
    | apply State.storeBut_keeps | apply State.clearCounts_keeps | apply Holds.ite | split | dsimp only

theorem State.pcuEffect_keeps (s : State) (x : RegAccess) (w : Writes) (hs : Holds K P s) (hk_accesses : K .accesses = false)
    (hk_dmem : K .dmem = false) (hk_events : K .events = false) (hk_free : K .free = false) (hk_hag : K .hag = false)
    (hk_hold : K .hold = false) (hk_lanes : K .lanes = false) (hk_mem : K .mem = false) (hk_out : K .out = false)
    (hk_regs : K .regs = false) (hk_time : K .time = false) (hk_windows : K .windows = false) :
    Holds K P (State.pcuEffect s x w) := by
  unfold State.pcuEffect
  try dsimp only
  with_reducible repeat' first
    | intro _ | assumption | apply State.when_keeps | apply State.ftSet_keeps | apply State.wrs_keeps | apply State.wr_keeps
    | apply State.modWin_keeps | apply State.storeBut_keeps | apply State.clearCounts_keeps | apply Holds.ite | split | dsimp only

theorem State.effect3_keeps (s : State) (x : RegAccess) (w : Writes) (hs : Holds K P s) (hk_accesses : K .accesses = false)
    (hk_dmem : K .dmem = false) (hk_events : K .events = false) (hk_free : K .free = false) (hk_hag : K .hag = false)
    (hk_hold : K .hold = false) (hk_lanes : K .lanes = false) (hk_mem : K .mem = false) (hk_noc : K .noc = false)
    (hk_out : K .out = false) (hk_power : K .power = false) (hk_regs : K .regs = false) (hk_tmu : K .tmu = false)
    (hk_windows : K .windows = false) (hk_xlu : K .xlu = false) :
    Holds K P (State.effect3 s x w) := by
  unfold State.effect3
  try dsimp only
  with_reducible repeat' first
    | intro _ | assumption | apply State.when_keeps | apply State.domCfgWrite_keeps | apply State.storeBut_keeps
    | apply State.clearCounts_keeps | apply Holds.ite | split | dsimp only

theorem State.regEffect_keeps (s : State) (x : RegAccess) (w : Writes) (hs : Holds K P s) (hk_accesses : K .accesses = false)
    (hk_bridge : K .bridge = false) (hk_control : K .control = false) (hk_counters : K .counters = false)
    (hk_dmem : K .dmem = false) (hk_engines : K .engines = false) (hk_events : K .events = false)
    (hk_faults : K .faults = false) (hk_free : K .free = false) (hk_hag : K .hag = false) (hk_hold : K .hold = false)
    (hk_image : K .image = false) (hk_ims : K .ims = false) (hk_lanes : K .lanes = false) (hk_llus : K .llus = false)
    (hk_mem : K .mem = false) (hk_members : K .members = false) (hk_noc : K .noc = false) (hk_ops : K .ops = false)
    (hk_out : K .out = false) (hk_polders : K .polders = false) (hk_ports : K .ports = false) (hk_power : K .power = false)
    (hk_queues : K .queues = false) (hk_reads : K .reads = false) (hk_recKey : K .recKey = false) (hk_regs : K .regs = false)
    (hk_rings : K .rings = false) (hk_rma : K .rma = false) (hk_rtb : K .rtb = false) (hk_sluice : K .sluice = false)
    (hk_store : K .store = false) (hk_svc : K .svc = false) (hk_swc : K .swc = false) (hk_time : K .time = false)
    (hk_tmu : K .tmu = false) (hk_triggers : K .triggers = false) (hk_tru : K .tru = false) (hk_windows : K .windows = false)
    (hk_xlu : K .xlu = false) :
    Holds K P (State.regEffect s x w) := by
  unfold State.regEffect
  try dsimp only
  with_reducible repeat' first
    | intro _ | assumption | apply State.glbEffect_keeps | apply State.svcEffect_keeps | apply State.imsEffect_keeps
    | apply State.when_keeps | apply State.ctrlWrite_keeps | apply State.effect1_keeps | apply State.effect2_keeps
    | apply State.rtbEffect_keeps | apply State.swcEffect_keeps | apply State.lluEffect_keeps | apply State.lneEffect_keeps
    | apply State.pcuEffect_keeps | apply State.effect3_keeps | apply Holds.ite | split | dsimp only

theorem State.regApply_keeps (s : State) (x : RegAccess) (hs : Holds K P s) (hk_accesses : K .accesses = false)
    (hk_bridge : K .bridge = false) (hk_control : K .control = false) (hk_counters : K .counters = false)
    (hk_dmem : K .dmem = false) (hk_engines : K .engines = false) (hk_events : K .events = false)
    (hk_faults : K .faults = false) (hk_free : K .free = false) (hk_hag : K .hag = false) (hk_hold : K .hold = false)
    (hk_image : K .image = false) (hk_ims : K .ims = false) (hk_lanes : K .lanes = false) (hk_llus : K .llus = false)
    (hk_mem : K .mem = false) (hk_members : K .members = false) (hk_noc : K .noc = false) (hk_ops : K .ops = false)
    (hk_out : K .out = false) (hk_polders : K .polders = false) (hk_ports : K .ports = false) (hk_power : K .power = false)
    (hk_queues : K .queues = false) (hk_reads : K .reads = false) (hk_recKey : K .recKey = false) (hk_regs : K .regs = false)
    (hk_rings : K .rings = false) (hk_rma : K .rma = false) (hk_rtb : K .rtb = false) (hk_sluice : K .sluice = false)
    (hk_store : K .store = false) (hk_svc : K .svc = false) (hk_swc : K .swc = false) (hk_time : K .time = false)
    (hk_tmu : K .tmu = false) (hk_triggers : K .triggers = false) (hk_tru : K .tru = false) (hk_windows : K .windows = false)
    (hk_xlu : K .xlu = false) :
    Holds K P (State.regApply s x) := by
  unfold State.regApply
  try dsimp only
  with_reducible repeat' first
    | intro _ | assumption | apply State.when_keeps | apply State.privViolation_keeps | apply State.cfgReject_keeps
    | apply State.wrs_keeps | apply State.regEffect_keeps | apply Holds.ite | split | dsimp only

theorem State.regLate_keeps (s : State) (w : HeldWrite) (hs : Holds K P s) (hk_accesses : K .accesses = false)
    (hk_bridge : K .bridge = false) (hk_control : K .control = false) (hk_counters : K .counters = false)
    (hk_dmem : K .dmem = false) (hk_engines : K .engines = false) (hk_events : K .events = false)
    (hk_faults : K .faults = false) (hk_free : K .free = false) (hk_hag : K .hag = false) (hk_hold : K .hold = false)
    (hk_image : K .image = false) (hk_ims : K .ims = false) (hk_lanes : K .lanes = false) (hk_llus : K .llus = false)
    (hk_mem : K .mem = false) (hk_members : K .members = false) (hk_noc : K .noc = false) (hk_ops : K .ops = false)
    (hk_out : K .out = false) (hk_polders : K .polders = false) (hk_ports : K .ports = false) (hk_power : K .power = false)
    (hk_queues : K .queues = false) (hk_reads : K .reads = false) (hk_recKey : K .recKey = false) (hk_regs : K .regs = false)
    (hk_rings : K .rings = false) (hk_rma : K .rma = false) (hk_rtb : K .rtb = false) (hk_sluice : K .sluice = false)
    (hk_store : K .store = false) (hk_svc : K .svc = false) (hk_swc : K .swc = false) (hk_time : K .time = false)
    (hk_tmu : K .tmu = false) (hk_triggers : K .triggers = false) (hk_tru : K .tru = false) (hk_windows : K .windows = false)
    (hk_xlu : K .xlu = false) :
    Holds K P (State.regLate s w) := by
  unfold State.regLate
  try dsimp only
  with_reducible repeat' first
    | intro _ | assumption | apply State.regApply_keeps | dsimp only

theorem State.regDeliver_keeps (s : State) (w : HeldWrite) (hs : Holds K P s) (hk_accesses : K .accesses = false)
    (hk_bridge : K .bridge = false) (hk_control : K .control = false) (hk_counters : K .counters = false)
    (hk_dmem : K .dmem = false) (hk_engines : K .engines = false) (hk_events : K .events = false)
    (hk_faults : K .faults = false) (hk_free : K .free = false) (hk_hag : K .hag = false) (hk_hold : K .hold = false)
    (hk_image : K .image = false) (hk_ims : K .ims = false) (hk_lanes : K .lanes = false) (hk_llus : K .llus = false)
    (hk_mem : K .mem = false) (hk_members : K .members = false) (hk_noc : K .noc = false) (hk_ops : K .ops = false)
    (hk_out : K .out = false) (hk_polders : K .polders = false) (hk_ports : K .ports = false) (hk_power : K .power = false)
    (hk_queues : K .queues = false) (hk_reads : K .reads = false) (hk_recKey : K .recKey = false) (hk_regs : K .regs = false)
    (hk_rings : K .rings = false) (hk_rma : K .rma = false) (hk_rtb : K .rtb = false) (hk_sluice : K .sluice = false)
    (hk_store : K .store = false) (hk_svc : K .svc = false) (hk_swc : K .swc = false) (hk_time : K .time = false)
    (hk_tmu : K .tmu = false) (hk_triggers : K .triggers = false) (hk_tru : K .tru = false) (hk_windows : K .windows = false)
    (hk_xlu : K .xlu = false) :
    Holds K P (State.regDeliver s w) := by
  unfold State.regDeliver
  try dsimp only
  with_reducible repeat' first
    | intro _ | assumption | apply State.regApply_keeps | apply State.wake_keeps | apply State.showHeld_keeps
    | apply State.countHeld_keeps | apply State.modDom_keeps | apply Holds.ite | split | dsimp only

theorem State.controlWrite_keeps (s : State) (f : Fn) (q : Fin 128) (o : Nat) (size : Nat) (data : Nat) (hs : Holds K P s)
    (hk_control : K .control = false) (hk_regs : K .regs = false) :
    Holds K P (State.controlWrite s f q o size data) := by
  unfold State.controlWrite
  try dsimp only
  with_reducible repeat' first
    | intro _ | assumption | apply State.ingress_keeps | apply State.setQc_keeps | apply State.qcCommand_keeps | apply Holds.ite
    | exact HoldsE.error | apply HoldsE.ok | apply HoldsE.ite | exact HoldsEP.error | apply HoldsEP.ok | apply HoldsEP.ite
    | apply Holds.ite1 | split | dsimp only

theorem State.pageWrite_keeps (s : State) (f : Fn) (o : Nat) (size : Nat) (data : Nat) (hs : Holds K P s)
    (hk_control : K .control = false) (hk_regs : K .regs = false) :
    Holds K P (State.pageWrite s f o size data) := by
  unfold State.pageWrite
  try dsimp only
  with_reducible repeat' first
    | intro _ | assumption | apply State.bump_keeps | apply State.ingressDrop_keeps | apply State.controlWrite_keeps
    | apply Holds.ite | split | dsimp only

theorem State.regWrite_keeps (s : State) (rq : Requester) (off : Nat) (size : Nat) (data : Nat) (hs : Holds K P s)
    (hk_accesses : K .accesses = false) (hk_bridge : K .bridge = false) (hk_control : K .control = false)
    (hk_counters : K .counters = false) (hk_dmem : K .dmem = false) (hk_engines : K .engines = false)
    (hk_events : K .events = false) (hk_faults : K .faults = false) (hk_free : K .free = false) (hk_hag : K .hag = false)
    (hk_hold : K .hold = false) (hk_image : K .image = false) (hk_ims : K .ims = false) (hk_lanes : K .lanes = false)
    (hk_llus : K .llus = false) (hk_mem : K .mem = false) (hk_members : K .members = false) (hk_noc : K .noc = false)
    (hk_ops : K .ops = false) (hk_out : K .out = false) (hk_polders : K .polders = false) (hk_ports : K .ports = false)
    (hk_power : K .power = false) (hk_queues : K .queues = false) (hk_reads : K .reads = false)
    (hk_recKey : K .recKey = false) (hk_regs : K .regs = false) (hk_rings : K .rings = false) (hk_rma : K .rma = false)
    (hk_rtb : K .rtb = false) (hk_sluice : K .sluice = false) (hk_store : K .store = false) (hk_svc : K .svc = false)
    (hk_swc : K .swc = false) (hk_time : K .time = false) (hk_tmu : K .tmu = false) (hk_triggers : K .triggers = false)
    (hk_tru : K .tru = false) (hk_windows : K .windows = false) (hk_xlu : K .xlu = false) :
    Holds K P (State.regWrite s rq off size data) := by
  unfold State.regWrite
  try dsimp only
  with_reducible repeat' first
    | intro _ | assumption | apply State.bump_keeps | apply State.pageWrite_keeps | apply State.privViolation_keeps
    | apply State.regDeliver_keeps | apply Holds.ite | split | dsimp only

theorem State.readEnd_keeps (s : State) (rq : Requester) (off : Nat) (size : Nat) (word : Nat) (hs : Holds K P s)
    (hk_out : K .out = false) (hk_regs : K .regs = false) :
    Holds K P (State.readEnd s rq off size word) := by
  unfold State.readEnd
  try dsimp only
  with_reducible repeat' first
    | intro _ | assumption | apply State.emit_keeps | apply State.when_keeps | apply State.bump_keeps | dsimp only

theorem State.regReadAt_keeps (s : State) (rq : Requester) (space : RegSpace) (size : Nat) (hs : Holds K P s)
    (hk_out : K .out = false) (hk_regs : K .regs = false) :
    Holds K P (State.regReadAt s rq space size) := by
  unfold State.regReadAt
  try dsimp only
  with_reducible repeat' first
    | intro _ | assumption | apply State.when_keeps | apply State.bump_keeps | apply State.emit_keeps | apply State.readEnd_keeps
    | apply Holds.ite | split | dsimp only

theorem State.regWriteAt_keeps (s : State) (rq : Requester) (space : RegSpace) (size : Nat) (data : Nat) (hs : Holds K P s)
    (hk_accesses : K .accesses = false) (hk_bridge : K .bridge = false) (hk_control : K .control = false)
    (hk_counters : K .counters = false) (hk_dmem : K .dmem = false) (hk_engines : K .engines = false)
    (hk_events : K .events = false) (hk_faults : K .faults = false) (hk_free : K .free = false) (hk_hag : K .hag = false)
    (hk_hold : K .hold = false) (hk_image : K .image = false) (hk_ims : K .ims = false) (hk_lanes : K .lanes = false)
    (hk_llus : K .llus = false) (hk_mem : K .mem = false) (hk_members : K .members = false) (hk_noc : K .noc = false)
    (hk_ops : K .ops = false) (hk_out : K .out = false) (hk_polders : K .polders = false) (hk_ports : K .ports = false)
    (hk_power : K .power = false) (hk_queues : K .queues = false) (hk_reads : K .reads = false)
    (hk_recKey : K .recKey = false) (hk_regs : K .regs = false) (hk_rings : K .rings = false) (hk_rma : K .rma = false)
    (hk_rtb : K .rtb = false) (hk_sluice : K .sluice = false) (hk_store : K .store = false) (hk_svc : K .svc = false)
    (hk_swc : K .swc = false) (hk_time : K .time = false) (hk_tmu : K .tmu = false) (hk_triggers : K .triggers = false)
    (hk_tru : K .tru = false) (hk_windows : K .windows = false) (hk_xlu : K .xlu = false) :
    Holds K P (State.regWriteAt s rq space size data) := by
  unfold State.regWriteAt
  try dsimp only
  with_reducible repeat' first
    | intro _ | assumption | apply State.regWrite_keeps | apply State.pageWrite_keeps | apply State.clearCounts_keeps
    | apply Holds.ite | split | dsimp only

theorem execRegisterWrite_keeps (rq : Requester) (space : RegSpace) (size : Fin 17) (data : Option W64) (s : State)
    (hs : Holds K P s) (hk_accesses : K .accesses = false) (hk_bridge : K .bridge = false) (hk_control : K .control = false)
    (hk_counters : K .counters = false) (hk_dmem : K .dmem = false) (hk_engines : K .engines = false)
    (hk_events : K .events = false) (hk_faults : K .faults = false) (hk_free : K .free = false) (hk_hag : K .hag = false)
    (hk_hold : K .hold = false) (hk_image : K .image = false) (hk_ims : K .ims = false) (hk_lanes : K .lanes = false)
    (hk_llus : K .llus = false) (hk_mem : K .mem = false) (hk_members : K .members = false) (hk_noc : K .noc = false)
    (hk_ops : K .ops = false) (hk_out : K .out = false) (hk_polders : K .polders = false) (hk_ports : K .ports = false)
    (hk_power : K .power = false) (hk_queues : K .queues = false) (hk_reads : K .reads = false)
    (hk_recKey : K .recKey = false) (hk_regs : K .regs = false) (hk_rings : K .rings = false) (hk_rma : K .rma = false)
    (hk_rtb : K .rtb = false) (hk_sluice : K .sluice = false) (hk_store : K .store = false) (hk_svc : K .svc = false)
    (hk_swc : K .swc = false) (hk_time : K .time = false) (hk_tmu : K .tmu = false) (hk_triggers : K .triggers = false)
    (hk_tru : K .tru = false) (hk_windows : K .windows = false) (hk_xlu : K .xlu = false) :
    HoldsO K P (execRegisterWrite rq space size data s) := by
  unfold execRegisterWrite
  try dsimp only
  with_reducible repeat' first
    | intro _ | assumption | apply State.regWriteAt_keeps | apply State.regReadAt_keeps | apply HoldsO.next | exact HoldsS.none
    | apply HoldsS.some | refine Holds.of_some (by assumption) ?_ | split | dsimp only

theorem execDomainGalopReached_keeps (d : Die) (i : Fin 32) (s : State) (hs : Holds K P s) (hk_accesses : K .accesses = false)
    (hk_bridge : K .bridge = false) (hk_control : K .control = false) (hk_counters : K .counters = false)
    (hk_dmem : K .dmem = false) (hk_engines : K .engines = false) (hk_events : K .events = false)
    (hk_faults : K .faults = false) (hk_free : K .free = false) (hk_hag : K .hag = false) (hk_hold : K .hold = false)
    (hk_image : K .image = false) (hk_ims : K .ims = false) (hk_lanes : K .lanes = false) (hk_llus : K .llus = false)
    (hk_mem : K .mem = false) (hk_members : K .members = false) (hk_noc : K .noc = false) (hk_ops : K .ops = false)
    (hk_out : K .out = false) (hk_polders : K .polders = false) (hk_ports : K .ports = false) (hk_power : K .power = false)
    (hk_queues : K .queues = false) (hk_reads : K .reads = false) (hk_recKey : K .recKey = false) (hk_regs : K .regs = false)
    (hk_rings : K .rings = false) (hk_rma : K .rma = false) (hk_rtb : K .rtb = false) (hk_sluice : K .sluice = false)
    (hk_store : K .store = false) (hk_svc : K .svc = false) (hk_swc : K .swc = false) (hk_time : K .time = false)
    (hk_tmu : K .tmu = false) (hk_triggers : K .triggers = false) (hk_tru : K .tru = false) (hk_windows : K .windows = false)
    (hk_xlu : K .xlu = false) :
    HoldsO K P (execDomainGalopReached d i s) := by
  unfold execDomainGalopReached
  try dsimp only
  with_reducible repeat' first
    | intro _ | assumption | apply State.when_keeps | apply State.nocMove_keeps | apply State.cycleDone_keeps
    | apply State.galopReached_keeps | apply State.regLate_keeps | apply State.dmemResume_keeps | apply HoldsO.next | dsimp only

end Sys2Proof.Machine
end

