-- ==== Sys2Proof/Laws/KeepService.lean ====
section
/-! SUPPORT. The operations of Service.lean keep what the operations on registers and memory keep. -/

namespace Sys2Proof.Machine

set_option linter.all false
set_option linter.unusedTactic false
set_option linter.unreachableTactic false

variable {K : Grp → Bool} {P : State → Prop}

theorem State.keepAnswer_keeps (s : State) (a : MgtAns) (hs : Holds K P s) (hk_svc : K .svc = false) :
    Holds K P (State.keepAnswer s a) := by
  unfold State.keepAnswer
  try dsimp only
  with_reducible repeat' first
    | intro _ | assumption | apply Holds.ite | simp only [Holds.upd, hk_svc, Bool.false_eq_true, false_implies, implies_true]
    | split | dsimp only

theorem State.serveMgt_keeps (s : State) (op : Nat) (act : MgAct) (hs : Holds K P s)
    (hact : ∀ x0 x1 x2, Holds K P x2 → Holds K P (act x0 x1 x2).1) (hk_regs : K .regs = false) (hk_sluice : K .sluice = false)
    (hk_svc : K .svc = false) :
    Holds K P (State.serveMgt s op act) := by
  unfold State.serveMgt
  try dsimp only
  with_reducible repeat' first
    | intro _ | assumption | apply State.popInbox_keeps | apply State.sendMgt_keeps | apply State.keepAnswer_keeps | apply hact
    | apply Holds.ite | apply Holds.ite1 | refine Holds.of_fst (by assumption) ?_ | split | dsimp only

theorem State.serveOob_keeps (s : State) (session : Option W32) (b : List Byte) (op : Nat) (act : MgAct) (hs : Holds K P s)
    (hact : ∀ x0 x1 x2, Holds K P x2 → Holds K P (act x0 x1 x2).1) (hk_out : K .out = false) :
    Holds K P (State.serveOob s session b op act) := by
  unfold State.serveOob
  try dsimp only
  with_reducible repeat' first
    | intro _ | assumption | apply State.emit_keeps | apply hact | apply Holds.ite | exact HoldsS.none | apply HoldsS.some
    | apply Holds.ite1 | refine Holds.of_fst (by assumption) ?_ | refine Holds.of_some (by assumption) ?_ | split | dsimp only

theorem State.serve_keeps (s : State) (via : MgtVia) (op : Nat) (act : MgAct) (hs : Holds K P s)
    (hact : ∀ x0 x1 x2, Holds K P x2 → Holds K P (act x0 x1 x2).1) (hk_out : K .out = false) (hk_regs : K .regs = false)
    (hk_sluice : K .sluice = false) (hk_svc : K .svc = false) :
    Holds K P (State.serve s via op act) := by
  unfold State.serve
  try dsimp only
  with_reducible repeat' first
    | intro _ | assumption | apply State.serveMgt_keeps | apply State.serveOob_keeps | apply hact
    | refine Holds.of_fst (by assumption) ?_ | split | dsimp only

theorem doRead_keeps (x0 : Requester) (x1 : List Byte) (x2 : State) (hk_regs : K .regs = false) (hx2 : Holds K P x2) :
    Holds K P (doRead x0 x1 x2).1 := by
  unfold doRead
  try dsimp only
  with_reducible repeat' first
    | intro _ | assumption | apply State.bump_keeps | apply Holds.ite | apply Holds.ite1 | split | dsimp only

theorem doWrite_keeps (x0 : Requester) (x1 : List Byte) (x2 : State) (hk_accesses : K .accesses = false)
    (hk_bridge : K .bridge = false) (hk_control : K .control = false) (hk_counters : K .counters = false)
    (hk_dmem : K .dmem = false) (hk_engines : K .engines = false) (hk_events : K .events = false)
    (hk_faults : K .faults = false) (hk_free : K .free = false) (hk_hag : K .hag = false) (hk_hold : K .hold = false)
    (hk_image : K .image = false) (hk_ims : K .ims = false) (hk_lanes : K .lanes = false) (hk_llus : K .llus = false)
    (hk_mem : K .mem = false) (hk_members : K .members = false) (hk_noc : K .noc = false) (hk_ops : K .ops = false)
    (hk_out : K .out = false) (hk_polders : K .polders = false) (hk_ports : K .ports = false) (hk_power : K .power = false)
    (hk_queues : K .queues = false) (hk_reads : K .reads = false) (hk_recKey : K .recKey = false) (hk_regs : K .regs = false)
    (hk_rings : K .rings = false) (hk_rma : K .rma = false) (hk_rtb : K .rtb = false) (hk_sluice : K .sluice = false)
    (hk_store : K .store = false) (hk_svc : K .svc = false) (hk_swc : K .swc = false) (hk_time : K .time = false)
    (hk_tmu : K .tmu = false) (hk_triggers : K .triggers = false) (hk_tru : K .tru = false) (hk_windows : K .windows = false)
    (hk_xlu : K .xlu = false) (hx2 : Holds K P x2) :
    Holds K P (doWrite x0 x1 x2).1 := by
  unfold doWrite
  try dsimp only
  with_reducible repeat' first
    | intro _ | assumption | apply State.regWrite_keeps | apply Holds.ite | apply Holds.ite1 | split | dsimp only

theorem execRegRead_keeps (via : MgtVia) (s : State) (hs : Holds K P s) (hk_out : K .out = false) (hk_regs : K .regs = false)
    (hk_sluice : K .sluice = false) (hk_svc : K .svc = false) :
    HoldsO K P (execRegRead via s) := by
  unfold execRegRead
  try dsimp only
  with_reducible repeat' first
    | intro _ | assumption | apply State.serve_keeps | apply doRead_keeps | apply HoldsO.next | dsimp only

theorem execRegWrite_keeps (via : MgtVia) (s : State) (hs : Holds K P s) (hk_accesses : K .accesses = false)
    (hk_bridge : K .bridge = false) (hk_control : K .control = false) (hk_counters : K .counters = false)
    (hk_dmem : K .dmem = false) (hk_engines : K .engines = false) (hk_events : K .events = false)
    (hk_faults : K .faults = false) (hk_free : K .free = false) (hk_hag : K .hag = false) (hk_hold : K .hold = false)
    (hk_image : K .image = false) (hk_ims : K .ims = false) (hk_lanes : K .lanes = false) (hk_llus : K .llus = false)
    (hk_mem : K .mem = false) (hk_members : K .members = false) (hk_noc : K .noc = false) (hk_ops : K .ops = false)
    (hk_out : K .out = false) (hk_polders : K .polders = false) (hk_ports : K .ports = false) (hk_power : K .power = false)
    (hk_queues : K .queues = false) (hk_reads : K .reads = false) (hk_recKey : K .recKey = false) (hk_regs : K .regs = false)
    (hk_rings : K .rings = false) (hk_rma : K .rma = false) (hk_rtb : K .rtb = false) (hk_sluice : K .sluice = false)
    (hk_store : K .store = false) (hk_svc : K .svc = false) (hk_swc : K .swc = false) (hk_time : K .time = false)
    (hk_tmu : K .tmu = false) (hk_triggers : K .triggers = false) (hk_tru : K .tru = false) (hk_windows : K .windows = false)
    (hk_xlu : K .xlu = false) :
    HoldsO K P (execRegWrite via s) := by
  unfold execRegWrite
  try dsimp only
  with_reducible repeat' first
    | intro _ | assumption | apply State.serve_keeps | apply doWrite_keeps | apply HoldsO.next | dsimp only

theorem State.stage_keeps (s : State) (at_ : Nat) (b : List Byte) (hs : Holds K P s) (hk_ims : K .ims = false) :
    Holds K P (State.stage s at_ b) := by
  unfold State.stage
  try dsimp only
  with_reducible repeat' first
    | intro _ | assumption | apply Holds.ite | simp only [Holds.upd, hk_ims, Bool.false_eq_true, false_implies, implies_true]
    | apply Holds.foldl | split | dsimp only

theorem doStage_keeps (x0 : Requester) (x1 : List Byte) (x2 : State) (hk_ims : K .ims = false) (hx2 : Holds K P x2) :
    Holds K P (doStage x0 x1 x2).1 := by
  unfold doStage
  try dsimp only
  with_reducible repeat' first
    | intro _ | assumption | apply State.stage_keeps | apply Holds.ite | apply Holds.ite1 | split | dsimp only

theorem execStageWrite_keeps (via : MgtVia) (s : State) (hs : Holds K P s) (hk_ims : K .ims = false) (hk_out : K .out = false)
    (hk_regs : K .regs = false) (hk_sluice : K .sluice = false) (hk_svc : K .svc = false) :
    HoldsO K P (execStageWrite via s) := by
  unfold execStageWrite
  try dsimp only
  with_reducible repeat' first
    | intro _ | assumption | apply State.serve_keeps | apply doStage_keeps | apply HoldsO.next | dsimp only

theorem doGet_keeps (x0 : Requester) (x1 : List Byte) (x2 : State) (hx2 : Holds K P x2) :
    Holds K P (doGet x0 x1 x2).1 := by
  unfold doGet
  try dsimp only
  with_reducible repeat' first
    | intro _ | assumption | apply Holds.ite | apply Holds.ite1 | split | dsimp only

theorem execGetSetting_keeps (via : SettingVia) (s : State) (hs : Holds K P s) (hk_out : K .out = false)
    (hk_regs : K .regs = false) (hk_sluice : K .sluice = false) (hk_svc : K .svc = false) :
    HoldsO K P (execGetSetting via s) := by
  unfold execGetSetting
  try dsimp only
  with_reducible repeat' first
    | intro _ | assumption | apply State.asWarden_keeps | apply State.getSettingGo_keeps | apply State.serve_keeps
    | apply doGet_keeps | apply HoldsO.next | split | dsimp only

theorem doSet_keeps (stop : SettingCut) (x0 : Requester) (x1 : List Byte) (x2 : State) (hk_free : K .free = false)
    (hk_ims : K .ims = false) (hk_regs : K .regs = false) (hk_svc : K .svc = false) (hx2 : Holds K P x2) :
    Holds K P (doSet stop x0 x1 x2).1 := by
  unfold doSet
  try dsimp only
  with_reducible repeat' first
    | intro _ | assumption | apply State.setSetting_keeps | apply State.drawNat_keeps | apply Holds.ite | apply Holds.ite1
    | refine Holds.of_fst (by assumption) ?_ | split | dsimp only

theorem execSetSetting_keeps (via : SettingVia) (stop : Option (Fin 8 × Bool)) (s : State) (hs : Holds K P s)
    (hk_free : K .free = false) (hk_ims : K .ims = false) (hk_out : K .out = false) (hk_regs : K .regs = false)
    (hk_sluice : K .sluice = false) (hk_svc : K .svc = false) :
    HoldsO K P (execSetSetting via stop s) := by
  unfold execSetSetting
  try dsimp only
  with_reducible repeat' first
    | intro _ | assumption | apply State.asWarden_keeps | apply State.setSettingGo_keeps | apply State.serve_keeps
    | apply doSet_keeps | apply HoldsO.next | exact HoldsS.none | apply HoldsS.some | refine Holds.of_fst (by assumption) ?_
    | refine Holds.of_some (by assumption) ?_ | split | dsimp only

theorem execMgtEvent_keeps (s : State) (hs : Holds K P s) (hk_svc : K .svc = false) :
    HoldsO K P (execMgtEvent s) := by
  unfold execMgtEvent
  try dsimp only
  with_reducible repeat' first
    | intro _ | assumption | apply State.popInbox_keeps | apply HoldsO.next | split | dsimp only

theorem execOobBlockLock_keeps (up : Bool) (s : State) (hs : Holds K P s) (hk_regs : K .regs = false) :
    HoldsO K P (execOobBlockLock up s) := by
  unfold execOobBlockLock
  try dsimp only
  with_reducible repeat' first
    | intro _ | assumption | apply State.wr_keeps | apply Holds.ite | apply HoldsO.next | split | dsimp only

theorem execArpRequest_keeps (vlan : BitVec 12) (ip : W32) (s : State) (hs : Holds K P s) (hk_out : K .out = false) :
    HoldsO K P (execArpRequest vlan ip s) := by
  unfold execArpRequest
  try dsimp only
  with_reducible repeat' first
    | intro _ | assumption | apply State.emit_keeps | apply Holds.ite | apply HoldsO.next | split | dsimp only

theorem execNeighbourSolicitation_keeps (vlan : BitVec 12) (ip : BitVec 128) (s : State) (hs : Holds K P s)
    (hk_out : K .out = false) :
    HoldsO K P (execNeighbourSolicitation vlan ip s) := by
  unfold execNeighbourSolicitation
  try dsimp only
  with_reducible repeat' first
    | intro _ | assumption | apply State.emit_keeps | apply Holds.ite | apply HoldsO.next | split | dsimp only

theorem execEchoRequest_keeps (vlan : BitVec 12) (v6 : Bool) (ip : BitVec 128) (data : List Byte) (s : State)
    (hs : Holds K P s) (hk_out : K .out = false) :
    HoldsO K P (execEchoRequest vlan v6 ip data s) := by
  unfold execEchoRequest
  try dsimp only
  with_reducible repeat' first
    | intro _ | assumption | apply State.emit_keeps | apply Holds.ite | apply HoldsO.next | split | dsimp only

end Sys2Proof.Machine
end

