-- ==== Sys2Proof/Laws/KeepPins.lean ====
section
/-! SUPPORT. The operations of Pins.lean keep what the operations on registers and memory keep. -/

namespace Sys2Proof.Machine

set_option linter.all false
set_option linter.unusedTactic false
set_option linter.unreachableTactic false

variable {K : Grp → Bool} {P : State → Prop}

theorem State.modSvc_keeps (s : State) (f : Svc → Svc) (hs : Holds K P s) (hk_svc : K .svc = false) :
    Holds K P (State.modSvc s f) := by
  unfold State.modSvc
  try dsimp only
  with_reducible repeat' first
    | intro _ | assumption | simp only [Holds.upd, hk_svc, Bool.false_eq_true, false_implies, implies_true] | dsimp only

theorem execI3cAddressAssign_keeps (target : Option (BitVec 7)) (addr : BitVec 7) (s : State) (hs : Holds K P s)
    (hk_svc : K .svc = false) :
    HoldsO K P (execI3cAddressAssign target addr s) := by
  unfold execI3cAddressAssign
  try dsimp only
  with_reducible repeat' first
    | intro _ | assumption | apply State.modSvc_keeps | apply Holds.ite | apply HoldsO.next | exact HoldsS.none | apply HoldsS.some
    | refine Holds.of_some (by assumption) ?_ | split | dsimp only

theorem execI3cEnec_keeps (addr : Option (BitVec 7)) (events : Byte) (s : State) (hs : Holds K P s) (hk_svc : K .svc = false) :
    HoldsO K P (execI3cEnec addr events s) := by
  unfold execI3cEnec
  try dsimp only
  with_reducible repeat' first
    | intro _ | assumption | apply State.modSvc_keeps | apply Holds.ite | apply HoldsO.next | exact HoldsS.none | apply HoldsS.some
    | refine Holds.of_some (by assumption) ?_ | split | dsimp only

theorem State.i3cByte_keeps (s : State) (b : Byte) (hs : Holds K P s) (hk_accesses : K .accesses = false)
    (hk_bridge : K .bridge = false) (hk_control : K .control = false) (hk_counters : K .counters = false)
    (hk_dmem : K .dmem = false) (hk_engines : K .engines = false) (hk_events : K .events = false)
    (hk_faults : K .faults = false) (hk_free : K .free = false) (hk_hag : K .hag = false) (hk_hold : K .hold = false)
    (hk_image : K .image = false) (hk_ims : K .ims = false) (hk_lanes : K .lanes = false) (hk_llus : K .llus = false)
    (hk_mem : K .mem = false) (hk_members : K .members = false) (hk_noc : K .noc = false) (hk_ops : K .ops = false)
    (hk_out : K .out = false) (hk_polders : K .polders = false) (hk_ports : K .ports = false) (hk_power : K .power = false)
    (hk_queues : K .queues = false) (hk_reads : K .reads = false) (hk_recKey : K .recKey = false) (hk_regs : K .regs = false)
    (hk_rings : K .rings = false) (hk_rma : K .rma = false) (hk_rtb : K .rtb = false) (hk_sluice : K .sluice = false)
    (hk_store : K .store = false) (hk_svc : K .svc = false) (hk_swc : K .swc = false) (hk_time : K .time = false)
    (hk_tmu : K .tmu = false) (hk_triggers : K .triggers = false) (hk_tru : K .tru = false) (hk_windows : K .windows = false)
    (hk_xlu : K .xlu = false) :
    Holds K P (State.i3cByte s b) := by
  unfold State.i3cByte
  try dsimp only
  with_reducible repeat' first
    | intro _ | assumption | apply State.modSvc_keeps | apply State.warmReset_keeps | apply Holds.ite | split | dsimp only

theorem execI3cPrivateWrite_keeps (addr : BitVec 7) (data : List Byte) (s : State) (hs : Holds K P s)
    (hk_accesses : K .accesses = false) (hk_bridge : K .bridge = false) (hk_control : K .control = false)
    (hk_counters : K .counters = false) (hk_dmem : K .dmem = false) (hk_engines : K .engines = false)
    (hk_events : K .events = false) (hk_faults : K .faults = false) (hk_free : K .free = false) (hk_hag : K .hag = false)
    (hk_hold : K .hold = false) (hk_image : K .image = false) (hk_ims : K .ims = false) (hk_lanes : K .lanes = false)
    (hk_llus : K .llus = false) (hk_mem : K .mem = false) (hk_members : K .members = false) (hk_noc : K .noc = false)
    (hk_ops : K .ops = false) (hk_out : K .out = false) (hk_polders : K .polders = false) (hk_ports : K .ports = false)
    (hk_power : K .power = false) (hk_queues : K .queues = false) (hk_reads : K .reads = false)
    (hk_recKey : K .recKey = false) (hk_regs : K .regs = false) (hk_rings : K .rings = false) (hk_rma : K .rma = false)
    (hk_rtb : K .rtb = false) (hk_sluice : K .sluice = false) (hk_store : K .store = false) (hk_svc : K .svc = false)
    (hk_swc : K .swc = false) (hk_time : K .time = false) (hk_tmu : K .tmu = false) (hk_triggers : K .triggers = false)
    (hk_tru : K .tru = false) (hk_windows : K .windows = false) (hk_xlu : K .xlu = false) :
    HoldsO K P (execI3cPrivateWrite addr data s) := by
  unfold execI3cPrivateWrite
  try dsimp only
  with_reducible repeat' first
    | intro _ | assumption | apply State.i3cByte_keeps | apply State.modSvc_keeps | apply Holds.ite | apply Holds.foldl
    | apply HoldsO.next | split | dsimp only

theorem execI3cPrivateRead_keeps (addr : BitVec 7) (n : BitVec 16) (s : State) (hs : Holds K P s) (hk_free : K .free = false)
    (hk_out : K .out = false) (hk_svc : K .svc = false) :
    HoldsO K P (execI3cPrivateRead addr n s) := by
  unfold execI3cPrivateRead
  try dsimp only
  with_reducible repeat' first
    | intro _ | assumption | apply State.draw_keeps | apply State.emit_keeps | apply State.modSvc_keeps | apply Holds.ite
    | apply HoldsO.next | split | dsimp only

theorem State.tapFree_keeps (s : State) (ir : Nat) (hs : Holds K P s) (hk_svc : K .svc = false) :
    Holds K P (State.tapFree s ir) := by
  unfold State.tapFree
  try dsimp only
  with_reducible repeat' first
    | intro _ | assumption | apply State.modSvc_keeps | dsimp only

theorem State.bypass_keeps (s : State) (ir : Nat) (bits : List Bool) (hs : Holds K P s) (hk_out : K .out = false)
    (hk_svc : K .svc = false) :
    Holds K P (State.bypass s ir bits) := by
  unfold State.bypass
  try dsimp only
  with_reducible repeat' first
    | intro _ | assumption | apply State.emit_keeps | apply State.tapFree_keeps | dsimp only

theorem State.scan_keeps (s : State) (pins : List Bool) (bits : List Bool) (hs : Holds K P s) (hk_out : K .out = false)
    (hk_svc : K .svc = false) :
    Holds K P (State.scan s pins bits) := by
  unfold State.scan
  try dsimp only
  with_reducible repeat' first
    | intro _ | assumption | apply State.emit_keeps | apply State.modSvc_keeps | dsimp only

theorem State.tapDrive_keeps (s : State) (ir : Nat) (bits : List Bool) (act : State → State) (hs : Holds K P s)
    (hact : ∀ x0, Holds K P x0 → Holds K P (act x0)) (hk_out : K .out = false) (hk_regs : K .regs = false)
    (hk_svc : K .svc = false) :
    Holds K P (State.tapDrive s ir bits act) := by
  unfold State.tapDrive
  try dsimp only
  with_reducible repeat' first
    | intro _ | assumption | apply State.modSvc_keeps | apply State.wr_keeps | apply State.bypass_keeps | apply hact
    | apply Holds.ite | split | dsimp only

theorem execIdcode_keeps (bits : List Bool) (s : State) (hs : Holds K P s) (hk_out : K .out = false) (hk_svc : K .svc = false) :
    HoldsO K P (execIdcode bits s) := by
  unfold execIdcode
  try dsimp only
  with_reducible repeat' first
    | intro _ | assumption | apply State.emit_keeps | apply State.tapFree_keeps | apply HoldsO.next | dsimp only

theorem execSamplePreload_keeps (pins : List Bool) (bits : List Bool) (s : State) (hs : Holds K P s) (hk_out : K .out = false)
    (hk_svc : K .svc = false) :
    HoldsO K P (execSamplePreload pins bits s) := by
  unfold execSamplePreload
  try dsimp only
  with_reducible repeat' first
    | intro _ | assumption | apply State.scan_keeps | apply State.tapFree_keeps | apply HoldsO.next | dsimp only

theorem execExtest_keeps (pins : List Bool) (bits : List Bool) (s : State) (hs : Holds K P s) (hk_out : K .out = false)
    (hk_regs : K .regs = false) (hk_svc : K .svc = false) :
    HoldsO K P (execExtest pins bits s) := by
  unfold execExtest
  try dsimp only
  with_reducible repeat' first
    | intro _ | assumption | apply State.tapDrive_keeps | apply State.scan_keeps | apply HoldsO.next | dsimp only

theorem execExtestPulse_keeps (pins : List Bool) (bits : List Bool) (s : State) (hs : Holds K P s) (hk_out : K .out = false)
    (hk_regs : K .regs = false) (hk_svc : K .svc = false) :
    HoldsO K P (execExtestPulse pins bits s) := by
  unfold execExtestPulse
  try dsimp only
  with_reducible repeat' first
    | intro _ | assumption | apply State.tapDrive_keeps | apply State.scan_keeps | apply HoldsO.next | dsimp only

theorem execExtestTrain_keeps (pins : List Bool) (bits : List Bool) (s : State) (hs : Holds K P s) (hk_out : K .out = false)
    (hk_regs : K .regs = false) (hk_svc : K .svc = false) :
    HoldsO K P (execExtestTrain pins bits s) := by
  unfold execExtestTrain
  try dsimp only
  with_reducible repeat' first
    | intro _ | assumption | apply State.tapDrive_keeps | apply State.scan_keeps | apply HoldsO.next | dsimp only

theorem execClamp_keeps (bits : List Bool) (s : State) (hs : Holds K P s) (hk_out : K .out = false)
    (hk_regs : K .regs = false) (hk_svc : K .svc = false) :
    HoldsO K P (execClamp bits s) := by
  unfold execClamp
  try dsimp only
  with_reducible repeat' first
    | intro _ | assumption | apply State.tapDrive_keeps | apply State.emit_keeps | apply HoldsO.next | dsimp only

theorem execHighz_keeps (bits : List Bool) (s : State) (hs : Holds K P s) (hk_out : K .out = false)
    (hk_regs : K .regs = false) (hk_svc : K .svc = false) :
    HoldsO K P (execHighz bits s) := by
  unfold execHighz
  try dsimp only
  with_reducible repeat' first
    | intro _ | assumption | apply State.tapDrive_keeps | apply State.emit_keeps | apply HoldsO.next | dsimp only

theorem execBypass_keeps (bits : List Bool) (s : State) (hs : Holds K P s) (hk_out : K .out = false) (hk_svc : K .svc = false) :
    HoldsO K P (execBypass bits s) := by
  unfold execBypass
  try dsimp only
  with_reducible repeat' first
    | intro _ | assumption | apply State.bypass_keeps | apply HoldsO.next | dsimp only

theorem execTrstNAsserted_keeps (s : State) (hs : Holds K P s) (hk_svc : K .svc = false) :
    HoldsO K P (execTrstNAsserted s) := by
  unfold execTrstNAsserted
  try dsimp only
  with_reducible repeat' first
    | intro _ | assumption | apply State.tapFree_keeps | apply HoldsO.next | dsimp only

end Sys2Proof.Machine
end

