-- ==== Sys2Proof/Laws/State.lean ====
section
/-! SUPPORT. Which field of the state each of the named updates changes: one lemma per field per update, so that no later proof unfolds
a record update. -/

namespace Sys2Proof.Machine

@[simp] theorem State.wr_part (s : State) (d : Die) (f : Fld) (v : Nat) : (s.wr d f v).part = s.part := rfl
@[simp] theorem State.wr_serial (s : State) (d : Die) (f : Fld) (v : Nat) : (s.wr d f v).serial = s.serial := rfl
@[simp] theorem State.wr_stepping (s : State) (d : Die) (f : Fld) (v : Nat) : (s.wr d f v).stepping = s.stepping := rfl
@[simp] theorem State.wr_rootKey (s : State) (d : Die) (f : Fld) (v : Nat) : (s.wr d f v).rootKey = s.rootKey := rfl
@[simp] theorem State.wr_now (s : State) (d : Die) (f : Fld) (v : Nat) : (s.wr d f v).now = s.now := rfl
@[simp] theorem State.wr_free (s : State) (d : Die) (f : Fld) (v : Nat) : (s.wr d f v).free = s.free := rfl
@[simp] theorem State.wr_mem (s : State) (d : Die) (f : Fld) (v : Nat) : (s.wr d f v).mem = s.mem := rfl
@[simp] theorem State.wr_poison (s : State) (d : Die) (f : Fld) (v : Nat) : (s.wr d f v).poison = s.poison := rfl
@[simp] theorem State.wr_out (s : State) (d : Die) (f : Fld) (v : Nat) : (s.wr d f v).out = s.out := rfl
@[simp] theorem State.wr_store (s : State) (d : Die) (f : Fld) (v : Nat) : (s.wr d f v).store = s.store := rfl
@[simp] theorem State.wr_ims (s : State) (d : Die) (f : Fld) (v : Nat) : (s.wr d f v).ims = s.ims := rfl
@[simp] theorem State.wr_running (s : State) (d : Die) (f : Fld) (v : Nat) : (s.wr d f v).running = s.running := rfl
@[simp] theorem State.wr_dies (s : State) (d : Die) (f : Fld) (v : Nat) : (s.wr d f v).dies = s.dies := rfl
@[simp] theorem State.wr_hps (s : State) (d : Die) (f : Fld) (v : Nat) : (s.wr d f v).hps = s.hps := rfl
@[simp] theorem State.wr_memKey (s : State) (d : Die) (f : Fld) (v : Nat) : (s.wr d f v).memKey = s.memKey := rfl
@[simp] theorem State.wr_waiters (s : State) (d : Die) (f : Fld) (v : Nat) : (s.wr d f v).waiters = s.waiters := rfl
@[simp] theorem State.wr_recallAt (s : State) (d : Die) (f : Fld) (v : Nat) : (s.wr d f v).recallAt = s.recallAt := rfl
@[simp] theorem State.wr_holdCounts (s : State) (d : Die) (f : Fld) (v : Nat) : (s.wr d f v).holdCounts = s.holdCounts := rfl
@[simp] theorem State.wr_hostQ (s : State) (d : Die) (f : Fld) (v : Nat) : (s.wr d f v).hostQ = s.hostQ := rfl
@[simp] theorem State.wr_engines (s : State) (d : Die) (f : Fld) (v : Nat) : (s.wr d f v).engines = s.engines := rfl
@[simp] theorem State.wr_queues (s : State) (d : Die) (f : Fld) (v : Nat) : (s.wr d f v).queues = s.queues := rfl
@[simp] theorem State.wr_rings (s : State) (d : Die) (f : Fld) (v : Nat) : (s.wr d f v).rings = s.rings := rfl
@[simp] theorem State.wr_ctrs (s : State) (d : Die) (f : Fld) (v : Nat) : (s.wr d f v).ctrs = s.ctrs := rfl
@[simp] theorem State.wr_qcs (s : State) (d : Die) (f : Fld) (v : Nat) : (s.wr d f v).qcs = s.qcs := rfl
@[simp] theorem State.wr_ops (s : State) (d : Die) (f : Fld) (v : Nat) : (s.wr d f v).ops = s.ops := rfl
@[simp] theorem State.wr_nextOp (s : State) (d : Die) (f : Fld) (v : Nat) : (s.wr d f v).nextOp = s.nextOp := rfl
@[simp] theorem State.wr_reads (s : State) (d : Die) (f : Fld) (v : Nat) : (s.wr d f v).reads = s.reads := rfl
@[simp] theorem State.wr_nextRead (s : State) (d : Die) (f : Fld) (v : Nat) : (s.wr d f v).nextRead = s.nextRead := rfl
@[simp] theorem State.wr_nextPkt (s : State) (d : Die) (f : Fld) (v : Nat) : (s.wr d f v).nextPkt = s.nextPkt := rfl
@[simp] theorem State.wr_fm (s : State) (d : Die) (f : Fld) (v : Nat) : (s.wr d f v).fm = s.fm := rfl
@[simp] theorem State.wr_svc (s : State) (d : Die) (f : Fld) (v : Nat) : (s.wr d f v).svc = s.svc := rfl
@[simp] theorem State.wr_pending (s : State) (d : Die) (f : Fld) (v : Nat) : (s.wr d f v).pending = s.pending := rfl

@[simp] theorem State.bumpBy_part (s : State) (d : Die) (f : Fld) (n : Nat) : (s.bumpBy d f n).part = s.part := rfl
@[simp] theorem State.bumpBy_serial (s : State) (d : Die) (f : Fld) (n : Nat) : (s.bumpBy d f n).serial = s.serial := rfl
@[simp] theorem State.bumpBy_stepping (s : State) (d : Die) (f : Fld) (n : Nat) : (s.bumpBy d f n).stepping = s.stepping := rfl
@[simp] theorem State.bumpBy_rootKey (s : State) (d : Die) (f : Fld) (n : Nat) : (s.bumpBy d f n).rootKey = s.rootKey := rfl
@[simp] theorem State.bumpBy_now (s : State) (d : Die) (f : Fld) (n : Nat) : (s.bumpBy d f n).now = s.now := rfl
@[simp] theorem State.bumpBy_free (s : State) (d : Die) (f : Fld) (n : Nat) : (s.bumpBy d f n).free = s.free := rfl
@[simp] theorem State.bumpBy_mem (s : State) (d : Die) (f : Fld) (n : Nat) : (s.bumpBy d f n).mem = s.mem := rfl
@[simp] theorem State.bumpBy_poison (s : State) (d : Die) (f : Fld) (n : Nat) : (s.bumpBy d f n).poison = s.poison := rfl
@[simp] theorem State.bumpBy_out (s : State) (d : Die) (f : Fld) (n : Nat) : (s.bumpBy d f n).out = s.out := rfl
@[simp] theorem State.bumpBy_store (s : State) (d : Die) (f : Fld) (n : Nat) : (s.bumpBy d f n).store = s.store := rfl
@[simp] theorem State.bumpBy_ims (s : State) (d : Die) (f : Fld) (n : Nat) : (s.bumpBy d f n).ims = s.ims := rfl
@[simp] theorem State.bumpBy_running (s : State) (d : Die) (f : Fld) (n : Nat) : (s.bumpBy d f n).running = s.running := rfl
@[simp] theorem State.bumpBy_dies (s : State) (d : Die) (f : Fld) (n : Nat) : (s.bumpBy d f n).dies = s.dies := rfl
@[simp] theorem State.bumpBy_hps (s : State) (d : Die) (f : Fld) (n : Nat) : (s.bumpBy d f n).hps = s.hps := rfl
@[simp] theorem State.bumpBy_memKey (s : State) (d : Die) (f : Fld) (n : Nat) : (s.bumpBy d f n).memKey = s.memKey := rfl
@[simp] theorem State.bumpBy_waiters (s : State) (d : Die) (f : Fld) (n : Nat) : (s.bumpBy d f n).waiters = s.waiters := rfl
@[simp] theorem State.bumpBy_recallAt (s : State) (d : Die) (f : Fld) (n : Nat) : (s.bumpBy d f n).recallAt = s.recallAt := rfl
@[simp] theorem State.bumpBy_holdCounts (s : State) (d : Die) (f : Fld) (n : Nat) : (s.bumpBy d f n).holdCounts = s.holdCounts := rfl
@[simp] theorem State.bumpBy_hostQ (s : State) (d : Die) (f : Fld) (n : Nat) : (s.bumpBy d f n).hostQ = s.hostQ := rfl
@[simp] theorem State.bumpBy_engines (s : State) (d : Die) (f : Fld) (n : Nat) : (s.bumpBy d f n).engines = s.engines := rfl
@[simp] theorem State.bumpBy_queues (s : State) (d : Die) (f : Fld) (n : Nat) : (s.bumpBy d f n).queues = s.queues := rfl
@[simp] theorem State.bumpBy_rings (s : State) (d : Die) (f : Fld) (n : Nat) : (s.bumpBy d f n).rings = s.rings := rfl
@[simp] theorem State.bumpBy_ctrs (s : State) (d : Die) (f : Fld) (n : Nat) : (s.bumpBy d f n).ctrs = s.ctrs := rfl
@[simp] theorem State.bumpBy_qcs (s : State) (d : Die) (f : Fld) (n : Nat) : (s.bumpBy d f n).qcs = s.qcs := rfl
@[simp] theorem State.bumpBy_ops (s : State) (d : Die) (f : Fld) (n : Nat) : (s.bumpBy d f n).ops = s.ops := rfl
@[simp] theorem State.bumpBy_nextOp (s : State) (d : Die) (f : Fld) (n : Nat) : (s.bumpBy d f n).nextOp = s.nextOp := rfl
@[simp] theorem State.bumpBy_reads (s : State) (d : Die) (f : Fld) (n : Nat) : (s.bumpBy d f n).reads = s.reads := rfl
@[simp] theorem State.bumpBy_nextRead (s : State) (d : Die) (f : Fld) (n : Nat) : (s.bumpBy d f n).nextRead = s.nextRead := rfl
@[simp] theorem State.bumpBy_nextPkt (s : State) (d : Die) (f : Fld) (n : Nat) : (s.bumpBy d f n).nextPkt = s.nextPkt := rfl
@[simp] theorem State.bumpBy_fm (s : State) (d : Die) (f : Fld) (n : Nat) : (s.bumpBy d f n).fm = s.fm := rfl
@[simp] theorem State.bumpBy_svc (s : State) (d : Die) (f : Fld) (n : Nat) : (s.bumpBy d f n).svc = s.svc := rfl
@[simp] theorem State.bumpBy_pending (s : State) (d : Die) (f : Fld) (n : Nat) : (s.bumpBy d f n).pending = s.pending := rfl

@[simp] theorem State.bump_part (s : State) (d : Die) (f : Fld) : (s.bump d f).part = s.part := rfl
@[simp] theorem State.bump_serial (s : State) (d : Die) (f : Fld) : (s.bump d f).serial = s.serial := rfl
@[simp] theorem State.bump_stepping (s : State) (d : Die) (f : Fld) : (s.bump d f).stepping = s.stepping := rfl
@[simp] theorem State.bump_rootKey (s : State) (d : Die) (f : Fld) : (s.bump d f).rootKey = s.rootKey := rfl
@[simp] theorem State.bump_now (s : State) (d : Die) (f : Fld) : (s.bump d f).now = s.now := rfl
@[simp] theorem State.bump_free (s : State) (d : Die) (f : Fld) : (s.bump d f).free = s.free := rfl
@[simp] theorem State.bump_mem (s : State) (d : Die) (f : Fld) : (s.bump d f).mem = s.mem := rfl
@[simp] theorem State.bump_poison (s : State) (d : Die) (f : Fld) : (s.bump d f).poison = s.poison := rfl
@[simp] theorem State.bump_out (s : State) (d : Die) (f : Fld) : (s.bump d f).out = s.out := rfl
@[simp] theorem State.bump_store (s : State) (d : Die) (f : Fld) : (s.bump d f).store = s.store := rfl
@[simp] theorem State.bump_ims (s : State) (d : Die) (f : Fld) : (s.bump d f).ims = s.ims := rfl
@[simp] theorem State.bump_running (s : State) (d : Die) (f : Fld) : (s.bump d f).running = s.running := rfl
@[simp] theorem State.bump_dies (s : State) (d : Die) (f : Fld) : (s.bump d f).dies = s.dies := rfl
@[simp] theorem State.bump_hps (s : State) (d : Die) (f : Fld) : (s.bump d f).hps = s.hps := rfl
@[simp] theorem State.bump_memKey (s : State) (d : Die) (f : Fld) : (s.bump d f).memKey = s.memKey := rfl
@[simp] theorem State.bump_waiters (s : State) (d : Die) (f : Fld) : (s.bump d f).waiters = s.waiters := rfl
@[simp] theorem State.bump_recallAt (s : State) (d : Die) (f : Fld) : (s.bump d f).recallAt = s.recallAt := rfl
@[simp] theorem State.bump_holdCounts (s : State) (d : Die) (f : Fld) : (s.bump d f).holdCounts = s.holdCounts := rfl
@[simp] theorem State.bump_hostQ (s : State) (d : Die) (f : Fld) : (s.bump d f).hostQ = s.hostQ := rfl
@[simp] theorem State.bump_engines (s : State) (d : Die) (f : Fld) : (s.bump d f).engines = s.engines := rfl
@[simp] theorem State.bump_queues (s : State) (d : Die) (f : Fld) : (s.bump d f).queues = s.queues := rfl
@[simp] theorem State.bump_rings (s : State) (d : Die) (f : Fld) : (s.bump d f).rings = s.rings := rfl
@[simp] theorem State.bump_ctrs (s : State) (d : Die) (f : Fld) : (s.bump d f).ctrs = s.ctrs := rfl
@[simp] theorem State.bump_qcs (s : State) (d : Die) (f : Fld) : (s.bump d f).qcs = s.qcs := rfl
@[simp] theorem State.bump_ops (s : State) (d : Die) (f : Fld) : (s.bump d f).ops = s.ops := rfl
@[simp] theorem State.bump_nextOp (s : State) (d : Die) (f : Fld) : (s.bump d f).nextOp = s.nextOp := rfl
@[simp] theorem State.bump_reads (s : State) (d : Die) (f : Fld) : (s.bump d f).reads = s.reads := rfl
@[simp] theorem State.bump_nextRead (s : State) (d : Die) (f : Fld) : (s.bump d f).nextRead = s.nextRead := rfl
@[simp] theorem State.bump_nextPkt (s : State) (d : Die) (f : Fld) : (s.bump d f).nextPkt = s.nextPkt := rfl
@[simp] theorem State.bump_fm (s : State) (d : Die) (f : Fld) : (s.bump d f).fm = s.fm := rfl
@[simp] theorem State.bump_svc (s : State) (d : Die) (f : Fld) : (s.bump d f).svc = s.svc := rfl
@[simp] theorem State.bump_pending (s : State) (d : Die) (f : Fld) : (s.bump d f).pending = s.pending := rfl

@[simp] theorem State.atLeast_part (s : State) (d : Die) (f : Fld) (n : Nat) : (s.atLeast d f n).part = s.part := rfl
@[simp] theorem State.atLeast_serial (s : State) (d : Die) (f : Fld) (n : Nat) : (s.atLeast d f n).serial = s.serial := rfl
@[simp] theorem State.atLeast_stepping (s : State) (d : Die) (f : Fld) (n : Nat) : (s.atLeast d f n).stepping = s.stepping := rfl
@[simp] theorem State.atLeast_rootKey (s : State) (d : Die) (f : Fld) (n : Nat) : (s.atLeast d f n).rootKey = s.rootKey := rfl
@[simp] theorem State.atLeast_now (s : State) (d : Die) (f : Fld) (n : Nat) : (s.atLeast d f n).now = s.now := rfl
@[simp] theorem State.atLeast_free (s : State) (d : Die) (f : Fld) (n : Nat) : (s.atLeast d f n).free = s.free := rfl
@[simp] theorem State.atLeast_mem (s : State) (d : Die) (f : Fld) (n : Nat) : (s.atLeast d f n).mem = s.mem := rfl
@[simp] theorem State.atLeast_poison (s : State) (d : Die) (f : Fld) (n : Nat) : (s.atLeast d f n).poison = s.poison := rfl
@[simp] theorem State.atLeast_out (s : State) (d : Die) (f : Fld) (n : Nat) : (s.atLeast d f n).out = s.out := rfl
@[simp] theorem State.atLeast_store (s : State) (d : Die) (f : Fld) (n : Nat) : (s.atLeast d f n).store = s.store := rfl
@[simp] theorem State.atLeast_ims (s : State) (d : Die) (f : Fld) (n : Nat) : (s.atLeast d f n).ims = s.ims := rfl
@[simp] theorem State.atLeast_running (s : State) (d : Die) (f : Fld) (n : Nat) : (s.atLeast d f n).running = s.running := rfl
@[simp] theorem State.atLeast_dies (s : State) (d : Die) (f : Fld) (n : Nat) : (s.atLeast d f n).dies = s.dies := rfl
@[simp] theorem State.atLeast_hps (s : State) (d : Die) (f : Fld) (n : Nat) : (s.atLeast d f n).hps = s.hps := rfl
@[simp] theorem State.atLeast_memKey (s : State) (d : Die) (f : Fld) (n : Nat) : (s.atLeast d f n).memKey = s.memKey := rfl
@[simp] theorem State.atLeast_waiters (s : State) (d : Die) (f : Fld) (n : Nat) : (s.atLeast d f n).waiters = s.waiters := rfl
@[simp] theorem State.atLeast_recallAt (s : State) (d : Die) (f : Fld) (n : Nat) : (s.atLeast d f n).recallAt = s.recallAt := rfl
@[simp] theorem State.atLeast_holdCounts (s : State) (d : Die) (f : Fld) (n : Nat) : (s.atLeast d f n).holdCounts = s.holdCounts := rfl
@[simp] theorem State.atLeast_hostQ (s : State) (d : Die) (f : Fld) (n : Nat) : (s.atLeast d f n).hostQ = s.hostQ := rfl
@[simp] theorem State.atLeast_engines (s : State) (d : Die) (f : Fld) (n : Nat) : (s.atLeast d f n).engines = s.engines := rfl
@[simp] theorem State.atLeast_queues (s : State) (d : Die) (f : Fld) (n : Nat) : (s.atLeast d f n).queues = s.queues := rfl
@[simp] theorem State.atLeast_rings (s : State) (d : Die) (f : Fld) (n : Nat) : (s.atLeast d f n).rings = s.rings := rfl
@[simp] theorem State.atLeast_ctrs (s : State) (d : Die) (f : Fld) (n : Nat) : (s.atLeast d f n).ctrs = s.ctrs := rfl
@[simp] theorem State.atLeast_qcs (s : State) (d : Die) (f : Fld) (n : Nat) : (s.atLeast d f n).qcs = s.qcs := rfl
@[simp] theorem State.atLeast_ops (s : State) (d : Die) (f : Fld) (n : Nat) : (s.atLeast d f n).ops = s.ops := rfl
@[simp] theorem State.atLeast_nextOp (s : State) (d : Die) (f : Fld) (n : Nat) : (s.atLeast d f n).nextOp = s.nextOp := rfl
@[simp] theorem State.atLeast_reads (s : State) (d : Die) (f : Fld) (n : Nat) : (s.atLeast d f n).reads = s.reads := rfl
@[simp] theorem State.atLeast_nextRead (s : State) (d : Die) (f : Fld) (n : Nat) : (s.atLeast d f n).nextRead = s.nextRead := rfl
@[simp] theorem State.atLeast_nextPkt (s : State) (d : Die) (f : Fld) (n : Nat) : (s.atLeast d f n).nextPkt = s.nextPkt := rfl
@[simp] theorem State.atLeast_fm (s : State) (d : Die) (f : Fld) (n : Nat) : (s.atLeast d f n).fm = s.fm := rfl
@[simp] theorem State.atLeast_svc (s : State) (d : Die) (f : Fld) (n : Nat) : (s.atLeast d f n).svc = s.svc := rfl
@[simp] theorem State.atLeast_pending (s : State) (d : Die) (f : Fld) (n : Nat) : (s.atLeast d f n).pending = s.pending := rfl

@[simp] theorem State.countBy_part (s : State) (d : Die) (f : Fld) (n : Nat) : (s.countBy d f n).part = s.part := rfl
@[simp] theorem State.countBy_serial (s : State) (d : Die) (f : Fld) (n : Nat) : (s.countBy d f n).serial = s.serial := rfl
@[simp] theorem State.countBy_stepping (s : State) (d : Die) (f : Fld) (n : Nat) : (s.countBy d f n).stepping = s.stepping := rfl
@[simp] theorem State.countBy_rootKey (s : State) (d : Die) (f : Fld) (n : Nat) : (s.countBy d f n).rootKey = s.rootKey := rfl
@[simp] theorem State.countBy_now (s : State) (d : Die) (f : Fld) (n : Nat) : (s.countBy d f n).now = s.now := rfl
@[simp] theorem State.countBy_free (s : State) (d : Die) (f : Fld) (n : Nat) : (s.countBy d f n).free = s.free := rfl
@[simp] theorem State.countBy_mem (s : State) (d : Die) (f : Fld) (n : Nat) : (s.countBy d f n).mem = s.mem := rfl
@[simp] theorem State.countBy_poison (s : State) (d : Die) (f : Fld) (n : Nat) : (s.countBy d f n).poison = s.poison := rfl
@[simp] theorem State.countBy_out (s : State) (d : Die) (f : Fld) (n : Nat) : (s.countBy d f n).out = s.out := rfl
@[simp] theorem State.countBy_store (s : State) (d : Die) (f : Fld) (n : Nat) : (s.countBy d f n).store = s.store := rfl
@[simp] theorem State.countBy_ims (s : State) (d : Die) (f : Fld) (n : Nat) : (s.countBy d f n).ims = s.ims := rfl
@[simp] theorem State.countBy_running (s : State) (d : Die) (f : Fld) (n : Nat) : (s.countBy d f n).running = s.running := rfl
@[simp] theorem State.countBy_dies (s : State) (d : Die) (f : Fld) (n : Nat) : (s.countBy d f n).dies = s.dies := rfl
@[simp] theorem State.countBy_hps (s : State) (d : Die) (f : Fld) (n : Nat) : (s.countBy d f n).hps = s.hps := rfl
@[simp] theorem State.countBy_memKey (s : State) (d : Die) (f : Fld) (n : Nat) : (s.countBy d f n).memKey = s.memKey := rfl
@[simp] theorem State.countBy_waiters (s : State) (d : Die) (f : Fld) (n : Nat) : (s.countBy d f n).waiters = s.waiters := rfl
@[simp] theorem State.countBy_recallAt (s : State) (d : Die) (f : Fld) (n : Nat) : (s.countBy d f n).recallAt = s.recallAt := rfl
@[simp] theorem State.countBy_holdCounts (s : State) (d : Die) (f : Fld) (n : Nat) : (s.countBy d f n).holdCounts = s.holdCounts := rfl
@[simp] theorem State.countBy_hostQ (s : State) (d : Die) (f : Fld) (n : Nat) : (s.countBy d f n).hostQ = s.hostQ := rfl
@[simp] theorem State.countBy_engines (s : State) (d : Die) (f : Fld) (n : Nat) : (s.countBy d f n).engines = s.engines := rfl
@[simp] theorem State.countBy_queues (s : State) (d : Die) (f : Fld) (n : Nat) : (s.countBy d f n).queues = s.queues := rfl
@[simp] theorem State.countBy_rings (s : State) (d : Die) (f : Fld) (n : Nat) : (s.countBy d f n).rings = s.rings := rfl
@[simp] theorem State.countBy_ctrs (s : State) (d : Die) (f : Fld) (n : Nat) : (s.countBy d f n).ctrs = s.ctrs := rfl
@[simp] theorem State.countBy_qcs (s : State) (d : Die) (f : Fld) (n : Nat) : (s.countBy d f n).qcs = s.qcs := rfl
@[simp] theorem State.countBy_ops (s : State) (d : Die) (f : Fld) (n : Nat) : (s.countBy d f n).ops = s.ops := rfl
@[simp] theorem State.countBy_nextOp (s : State) (d : Die) (f : Fld) (n : Nat) : (s.countBy d f n).nextOp = s.nextOp := rfl
@[simp] theorem State.countBy_reads (s : State) (d : Die) (f : Fld) (n : Nat) : (s.countBy d f n).reads = s.reads := rfl
@[simp] theorem State.countBy_nextRead (s : State) (d : Die) (f : Fld) (n : Nat) : (s.countBy d f n).nextRead = s.nextRead := rfl
@[simp] theorem State.countBy_nextPkt (s : State) (d : Die) (f : Fld) (n : Nat) : (s.countBy d f n).nextPkt = s.nextPkt := rfl
@[simp] theorem State.countBy_fm (s : State) (d : Die) (f : Fld) (n : Nat) : (s.countBy d f n).fm = s.fm := rfl
@[simp] theorem State.countBy_svc (s : State) (d : Die) (f : Fld) (n : Nat) : (s.countBy d f n).svc = s.svc := rfl
@[simp] theorem State.countBy_pending (s : State) (d : Die) (f : Fld) (n : Nat) : (s.countBy d f n).pending = s.pending := rfl

@[simp] theorem State.emit_part (s : State) (o : Output) : (s.emit o).part = s.part := rfl
@[simp] theorem State.emit_serial (s : State) (o : Output) : (s.emit o).serial = s.serial := rfl
@[simp] theorem State.emit_stepping (s : State) (o : Output) : (s.emit o).stepping = s.stepping := rfl
@[simp] theorem State.emit_rootKey (s : State) (o : Output) : (s.emit o).rootKey = s.rootKey := rfl
@[simp] theorem State.emit_now (s : State) (o : Output) : (s.emit o).now = s.now := rfl
@[simp] theorem State.emit_free (s : State) (o : Output) : (s.emit o).free = s.free := rfl
@[simp] theorem State.emit_regs (s : State) (o : Output) : (s.emit o).regs = s.regs := rfl
@[simp] theorem State.emit_mem (s : State) (o : Output) : (s.emit o).mem = s.mem := rfl
@[simp] theorem State.emit_poison (s : State) (o : Output) : (s.emit o).poison = s.poison := rfl
@[simp] theorem State.emit_store (s : State) (o : Output) : (s.emit o).store = s.store := rfl
@[simp] theorem State.emit_ims (s : State) (o : Output) : (s.emit o).ims = s.ims := rfl
@[simp] theorem State.emit_running (s : State) (o : Output) : (s.emit o).running = s.running := rfl
@[simp] theorem State.emit_dies (s : State) (o : Output) : (s.emit o).dies = s.dies := rfl
@[simp] theorem State.emit_hps (s : State) (o : Output) : (s.emit o).hps = s.hps := rfl
@[simp] theorem State.emit_memKey (s : State) (o : Output) : (s.emit o).memKey = s.memKey := rfl
@[simp] theorem State.emit_waiters (s : State) (o : Output) : (s.emit o).waiters = s.waiters := rfl
@[simp] theorem State.emit_recallAt (s : State) (o : Output) : (s.emit o).recallAt = s.recallAt := rfl
@[simp] theorem State.emit_holdCounts (s : State) (o : Output) : (s.emit o).holdCounts = s.holdCounts := rfl
@[simp] theorem State.emit_hostQ (s : State) (o : Output) : (s.emit o).hostQ = s.hostQ := rfl
@[simp] theorem State.emit_engines (s : State) (o : Output) : (s.emit o).engines = s.engines := rfl
@[simp] theorem State.emit_queues (s : State) (o : Output) : (s.emit o).queues = s.queues := rfl
@[simp] theorem State.emit_rings (s : State) (o : Output) : (s.emit o).rings = s.rings := rfl
@[simp] theorem State.emit_ctrs (s : State) (o : Output) : (s.emit o).ctrs = s.ctrs := rfl
@[simp] theorem State.emit_qcs (s : State) (o : Output) : (s.emit o).qcs = s.qcs := rfl
@[simp] theorem State.emit_ops (s : State) (o : Output) : (s.emit o).ops = s.ops := rfl
@[simp] theorem State.emit_nextOp (s : State) (o : Output) : (s.emit o).nextOp = s.nextOp := rfl
@[simp] theorem State.emit_reads (s : State) (o : Output) : (s.emit o).reads = s.reads := rfl
@[simp] theorem State.emit_nextRead (s : State) (o : Output) : (s.emit o).nextRead = s.nextRead := rfl
@[simp] theorem State.emit_nextPkt (s : State) (o : Output) : (s.emit o).nextPkt = s.nextPkt := rfl
@[simp] theorem State.emit_fm (s : State) (o : Output) : (s.emit o).fm = s.fm := rfl
@[simp] theorem State.emit_svc (s : State) (o : Output) : (s.emit o).svc = s.svc := rfl
@[simp] theorem State.emit_pending (s : State) (o : Output) : (s.emit o).pending = s.pending := rfl

@[simp] theorem State.modDie_part (s : State) (d : Die) (f : DieState → DieState) : (s.modDie d f).part = s.part := rfl
@[simp] theorem State.modDie_serial (s : State) (d : Die) (f : DieState → DieState) : (s.modDie d f).serial = s.serial := rfl
@[simp] theorem State.modDie_stepping (s : State) (d : Die) (f : DieState → DieState) : (s.modDie d f).stepping = s.stepping := rfl
@[simp] theorem State.modDie_rootKey (s : State) (d : Die) (f : DieState → DieState) : (s.modDie d f).rootKey = s.rootKey := rfl
@[simp] theorem State.modDie_now (s : State) (d : Die) (f : DieState → DieState) : (s.modDie d f).now = s.now := rfl
@[simp] theorem State.modDie_free (s : State) (d : Die) (f : DieState → DieState) : (s.modDie d f).free = s.free := rfl
@[simp] theorem State.modDie_regs (s : State) (d : Die) (f : DieState → DieState) : (s.modDie d f).regs = s.regs := rfl
@[simp] theorem State.modDie_mem (s : State) (d : Die) (f : DieState → DieState) : (s.modDie d f).mem = s.mem := rfl
@[simp] theorem State.modDie_poison (s : State) (d : Die) (f : DieState → DieState) : (s.modDie d f).poison = s.poison := rfl
@[simp] theorem State.modDie_out (s : State) (d : Die) (f : DieState → DieState) : (s.modDie d f).out = s.out := rfl
@[simp] theorem State.modDie_store (s : State) (d : Die) (f : DieState → DieState) : (s.modDie d f).store = s.store := rfl
@[simp] theorem State.modDie_ims (s : State) (d : Die) (f : DieState → DieState) : (s.modDie d f).ims = s.ims := rfl
@[simp] theorem State.modDie_running (s : State) (d : Die) (f : DieState → DieState) : (s.modDie d f).running = s.running := rfl
@[simp] theorem State.modDie_hps (s : State) (d : Die) (f : DieState → DieState) : (s.modDie d f).hps = s.hps := rfl
@[simp] theorem State.modDie_memKey (s : State) (d : Die) (f : DieState → DieState) : (s.modDie d f).memKey = s.memKey := rfl
@[simp] theorem State.modDie_waiters (s : State) (d : Die) (f : DieState → DieState) : (s.modDie d f).waiters = s.waiters := rfl
@[simp] theorem State.modDie_recallAt (s : State) (d : Die) (f : DieState → DieState) : (s.modDie d f).recallAt = s.recallAt := rfl
@[simp] theorem State.modDie_holdCounts (s : State) (d : Die) (f : DieState → DieState) : (s.modDie d f).holdCounts = s.holdCounts := rfl
@[simp] theorem State.modDie_hostQ (s : State) (d : Die) (f : DieState → DieState) : (s.modDie d f).hostQ = s.hostQ := rfl
@[simp] theorem State.modDie_engines (s : State) (d : Die) (f : DieState → DieState) : (s.modDie d f).engines = s.engines := rfl
@[simp] theorem State.modDie_queues (s : State) (d : Die) (f : DieState → DieState) : (s.modDie d f).queues = s.queues := rfl
@[simp] theorem State.modDie_rings (s : State) (d : Die) (f : DieState → DieState) : (s.modDie d f).rings = s.rings := rfl
@[simp] theorem State.modDie_ctrs (s : State) (d : Die) (f : DieState → DieState) : (s.modDie d f).ctrs = s.ctrs := rfl
@[simp] theorem State.modDie_qcs (s : State) (d : Die) (f : DieState → DieState) : (s.modDie d f).qcs = s.qcs := rfl
@[simp] theorem State.modDie_ops (s : State) (d : Die) (f : DieState → DieState) : (s.modDie d f).ops = s.ops := rfl
@[simp] theorem State.modDie_nextOp (s : State) (d : Die) (f : DieState → DieState) : (s.modDie d f).nextOp = s.nextOp := rfl
@[simp] theorem State.modDie_reads (s : State) (d : Die) (f : DieState → DieState) : (s.modDie d f).reads = s.reads := rfl
@[simp] theorem State.modDie_nextRead (s : State) (d : Die) (f : DieState → DieState) : (s.modDie d f).nextRead = s.nextRead := rfl
@[simp] theorem State.modDie_nextPkt (s : State) (d : Die) (f : DieState → DieState) : (s.modDie d f).nextPkt = s.nextPkt := rfl
@[simp] theorem State.modDie_fm (s : State) (d : Die) (f : DieState → DieState) : (s.modDie d f).fm = s.fm := rfl
@[simp] theorem State.modDie_svc (s : State) (d : Die) (f : DieState → DieState) : (s.modDie d f).svc = s.svc := rfl
@[simp] theorem State.modDie_pending (s : State) (d : Die) (f : DieState → DieState) : (s.modDie d f).pending = s.pending := rfl

@[simp] theorem State.modHp_part (s : State) (h : Fin 4) (f : HostPort → HostPort) : (s.modHp h f).part = s.part := rfl
@[simp] theorem State.modHp_serial (s : State) (h : Fin 4) (f : HostPort → HostPort) : (s.modHp h f).serial = s.serial := rfl
@[simp] theorem State.modHp_stepping (s : State) (h : Fin 4) (f : HostPort → HostPort) : (s.modHp h f).stepping = s.stepping := rfl
@[simp] theorem State.modHp_rootKey (s : State) (h : Fin 4) (f : HostPort → HostPort) : (s.modHp h f).rootKey = s.rootKey := rfl
@[simp] theorem State.modHp_now (s : State) (h : Fin 4) (f : HostPort → HostPort) : (s.modHp h f).now = s.now := rfl
@[simp] theorem State.modHp_free (s : State) (h : Fin 4) (f : HostPort → HostPort) : (s.modHp h f).free = s.free := rfl
@[simp] theorem State.modHp_regs (s : State) (h : Fin 4) (f : HostPort → HostPort) : (s.modHp h f).regs = s.regs := rfl
@[simp] theorem State.modHp_mem (s : State) (h : Fin 4) (f : HostPort → HostPort) : (s.modHp h f).mem = s.mem := rfl
@[simp] theorem State.modHp_poison (s : State) (h : Fin 4) (f : HostPort → HostPort) : (s.modHp h f).poison = s.poison := rfl
@[simp] theorem State.modHp_out (s : State) (h : Fin 4) (f : HostPort → HostPort) : (s.modHp h f).out = s.out := rfl
@[simp] theorem State.modHp_store (s : State) (h : Fin 4) (f : HostPort → HostPort) : (s.modHp h f).store = s.store := rfl
@[simp] theorem State.modHp_ims (s : State) (h : Fin 4) (f : HostPort → HostPort) : (s.modHp h f).ims = s.ims := rfl
@[simp] theorem State.modHp_running (s : State) (h : Fin 4) (f : HostPort → HostPort) : (s.modHp h f).running = s.running := rfl
@[simp] theorem State.modHp_dies (s : State) (h : Fin 4) (f : HostPort → HostPort) : (s.modHp h f).dies = s.dies := rfl
@[simp] theorem State.modHp_memKey (s : State) (h : Fin 4) (f : HostPort → HostPort) : (s.modHp h f).memKey = s.memKey := rfl
@[simp] theorem State.modHp_waiters (s : State) (h : Fin 4) (f : HostPort → HostPort) : (s.modHp h f).waiters = s.waiters := rfl
@[simp] theorem State.modHp_recallAt (s : State) (h : Fin 4) (f : HostPort → HostPort) : (s.modHp h f).recallAt = s.recallAt := rfl
@[simp] theorem State.modHp_holdCounts (s : State) (h : Fin 4) (f : HostPort → HostPort) : (s.modHp h f).holdCounts = s.holdCounts := rfl
@[simp] theorem State.modHp_hostQ (s : State) (h : Fin 4) (f : HostPort → HostPort) : (s.modHp h f).hostQ = s.hostQ := rfl
@[simp] theorem State.modHp_engines (s : State) (h : Fin 4) (f : HostPort → HostPort) : (s.modHp h f).engines = s.engines := rfl
@[simp] theorem State.modHp_queues (s : State) (h : Fin 4) (f : HostPort → HostPort) : (s.modHp h f).queues = s.queues := rfl
@[simp] theorem State.modHp_rings (s : State) (h : Fin 4) (f : HostPort → HostPort) : (s.modHp h f).rings = s.rings := rfl
@[simp] theorem State.modHp_ctrs (s : State) (h : Fin 4) (f : HostPort → HostPort) : (s.modHp h f).ctrs = s.ctrs := rfl
@[simp] theorem State.modHp_qcs (s : State) (h : Fin 4) (f : HostPort → HostPort) : (s.modHp h f).qcs = s.qcs := rfl
@[simp] theorem State.modHp_ops (s : State) (h : Fin 4) (f : HostPort → HostPort) : (s.modHp h f).ops = s.ops := rfl
@[simp] theorem State.modHp_nextOp (s : State) (h : Fin 4) (f : HostPort → HostPort) : (s.modHp h f).nextOp = s.nextOp := rfl
@[simp] theorem State.modHp_reads (s : State) (h : Fin 4) (f : HostPort → HostPort) : (s.modHp h f).reads = s.reads := rfl
@[simp] theorem State.modHp_nextRead (s : State) (h : Fin 4) (f : HostPort → HostPort) : (s.modHp h f).nextRead = s.nextRead := rfl
@[simp] theorem State.modHp_nextPkt (s : State) (h : Fin 4) (f : HostPort → HostPort) : (s.modHp h f).nextPkt = s.nextPkt := rfl
@[simp] theorem State.modHp_fm (s : State) (h : Fin 4) (f : HostPort → HostPort) : (s.modHp h f).fm = s.fm := rfl
@[simp] theorem State.modHp_svc (s : State) (h : Fin 4) (f : HostPort → HostPort) : (s.modHp h f).svc = s.svc := rfl
@[simp] theorem State.modHp_pending (s : State) (h : Fin 4) (f : HostPort → HostPort) : (s.modHp h f).pending = s.pending := rfl

@[simp] theorem State.mstore_part (s : State) (a : Nat) (bs : List Byte) (p : Bool) : (s.mstore a bs p).part = s.part := rfl
@[simp] theorem State.mstore_serial (s : State) (a : Nat) (bs : List Byte) (p : Bool) : (s.mstore a bs p).serial = s.serial := rfl
@[simp] theorem State.mstore_stepping (s : State) (a : Nat) (bs : List Byte) (p : Bool) : (s.mstore a bs p).stepping = s.stepping := rfl
@[simp] theorem State.mstore_rootKey (s : State) (a : Nat) (bs : List Byte) (p : Bool) : (s.mstore a bs p).rootKey = s.rootKey := rfl
@[simp] theorem State.mstore_now (s : State) (a : Nat) (bs : List Byte) (p : Bool) : (s.mstore a bs p).now = s.now := rfl
@[simp] theorem State.mstore_free (s : State) (a : Nat) (bs : List Byte) (p : Bool) : (s.mstore a bs p).free = s.free := rfl
@[simp] theorem State.mstore_regs (s : State) (a : Nat) (bs : List Byte) (p : Bool) : (s.mstore a bs p).regs = s.regs := rfl
@[simp] theorem State.mstore_out (s : State) (a : Nat) (bs : List Byte) (p : Bool) : (s.mstore a bs p).out = s.out := rfl
@[simp] theorem State.mstore_store (s : State) (a : Nat) (bs : List Byte) (p : Bool) : (s.mstore a bs p).store = s.store := rfl
@[simp] theorem State.mstore_ims (s : State) (a : Nat) (bs : List Byte) (p : Bool) : (s.mstore a bs p).ims = s.ims := rfl
@[simp] theorem State.mstore_running (s : State) (a : Nat) (bs : List Byte) (p : Bool) : (s.mstore a bs p).running = s.running := rfl
@[simp] theorem State.mstore_dies (s : State) (a : Nat) (bs : List Byte) (p : Bool) : (s.mstore a bs p).dies = s.dies := rfl
@[simp] theorem State.mstore_hps (s : State) (a : Nat) (bs : List Byte) (p : Bool) : (s.mstore a bs p).hps = s.hps := rfl
@[simp] theorem State.mstore_memKey (s : State) (a : Nat) (bs : List Byte) (p : Bool) : (s.mstore a bs p).memKey = s.memKey := rfl
@[simp] theorem State.mstore_waiters (s : State) (a : Nat) (bs : List Byte) (p : Bool) : (s.mstore a bs p).waiters = s.waiters := rfl
@[simp] theorem State.mstore_recallAt (s : State) (a : Nat) (bs : List Byte) (p : Bool) : (s.mstore a bs p).recallAt = s.recallAt := rfl
@[simp] theorem State.mstore_holdCounts (s : State) (a : Nat) (bs : List Byte) (p : Bool) : (s.mstore a bs p).holdCounts = s.holdCounts := rfl
@[simp] theorem State.mstore_hostQ (s : State) (a : Nat) (bs : List Byte) (p : Bool) : (s.mstore a bs p).hostQ = s.hostQ := rfl
@[simp] theorem State.mstore_engines (s : State) (a : Nat) (bs : List Byte) (p : Bool) : (s.mstore a bs p).engines = s.engines := rfl
@[simp] theorem State.mstore_queues (s : State) (a : Nat) (bs : List Byte) (p : Bool) : (s.mstore a bs p).queues = s.queues := rfl
@[simp] theorem State.mstore_rings (s : State) (a : Nat) (bs : List Byte) (p : Bool) : (s.mstore a bs p).rings = s.rings := rfl
@[simp] theorem State.mstore_ctrs (s : State) (a : Nat) (bs : List Byte) (p : Bool) : (s.mstore a bs p).ctrs = s.ctrs := rfl
@[simp] theorem State.mstore_qcs (s : State) (a : Nat) (bs : List Byte) (p : Bool) : (s.mstore a bs p).qcs = s.qcs := rfl
@[simp] theorem State.mstore_ops (s : State) (a : Nat) (bs : List Byte) (p : Bool) : (s.mstore a bs p).ops = s.ops := rfl
@[simp] theorem State.mstore_nextOp (s : State) (a : Nat) (bs : List Byte) (p : Bool) : (s.mstore a bs p).nextOp = s.nextOp := rfl
@[simp] theorem State.mstore_reads (s : State) (a : Nat) (bs : List Byte) (p : Bool) : (s.mstore a bs p).reads = s.reads := rfl
@[simp] theorem State.mstore_nextRead (s : State) (a : Nat) (bs : List Byte) (p : Bool) : (s.mstore a bs p).nextRead = s.nextRead := rfl
@[simp] theorem State.mstore_nextPkt (s : State) (a : Nat) (bs : List Byte) (p : Bool) : (s.mstore a bs p).nextPkt = s.nextPkt := rfl
@[simp] theorem State.mstore_fm (s : State) (a : Nat) (bs : List Byte) (p : Bool) : (s.mstore a bs p).fm = s.fm := rfl
@[simp] theorem State.mstore_svc (s : State) (a : Nat) (bs : List Byte) (p : Bool) : (s.mstore a bs p).svc = s.svc := rfl
@[simp] theorem State.mstore_pending (s : State) (a : Nat) (bs : List Byte) (p : Bool) : (s.mstore a bs p).pending = s.pending := rfl

/-- Only the register fields change. -/
theorem State.wrs_eq (s : State) (d : Die) (l : List (Fld × Nat)) : s.wrs d l = { s with regs := (s.wrs d l).regs } := by
  induction l generalizing s with
  | nil => rfl
  | cons p l ih =>
    have h : ∀ t : State, t.wrs d (p :: l) = (t.wr d p.1 p.2).wrs d l := fun t => rfl
    rw [h, ih]
    rfl

@[simp] theorem State.wrs_part (s : State) (d : Die) (l : List (Fld × Nat)) : (s.wrs d l).part = s.part := by rw [State.wrs_eq]
@[simp] theorem State.wrs_serial (s : State) (d : Die) (l : List (Fld × Nat)) : (s.wrs d l).serial = s.serial := by rw [State.wrs_eq]
@[simp] theorem State.wrs_stepping (s : State) (d : Die) (l : List (Fld × Nat)) : (s.wrs d l).stepping = s.stepping := by rw [State.wrs_eq]
@[simp] theorem State.wrs_rootKey (s : State) (d : Die) (l : List (Fld × Nat)) : (s.wrs d l).rootKey = s.rootKey := by rw [State.wrs_eq]
@[simp] theorem State.wrs_now (s : State) (d : Die) (l : List (Fld × Nat)) : (s.wrs d l).now = s.now := by rw [State.wrs_eq]
@[simp] theorem State.wrs_free (s : State) (d : Die) (l : List (Fld × Nat)) : (s.wrs d l).free = s.free := by rw [State.wrs_eq]
@[simp] theorem State.wrs_mem (s : State) (d : Die) (l : List (Fld × Nat)) : (s.wrs d l).mem = s.mem := by rw [State.wrs_eq]
@[simp] theorem State.wrs_poison (s : State) (d : Die) (l : List (Fld × Nat)) : (s.wrs d l).poison = s.poison := by rw [State.wrs_eq]
@[simp] theorem State.wrs_out (s : State) (d : Die) (l : List (Fld × Nat)) : (s.wrs d l).out = s.out := by rw [State.wrs_eq]
@[simp] theorem State.wrs_store (s : State) (d : Die) (l : List (Fld × Nat)) : (s.wrs d l).store = s.store := by rw [State.wrs_eq]
@[simp] theorem State.wrs_ims (s : State) (d : Die) (l : List (Fld × Nat)) : (s.wrs d l).ims = s.ims := by rw [State.wrs_eq]
@[simp] theorem State.wrs_running (s : State) (d : Die) (l : List (Fld × Nat)) : (s.wrs d l).running = s.running := by rw [State.wrs_eq]
@[simp] theorem State.wrs_dies (s : State) (d : Die) (l : List (Fld × Nat)) : (s.wrs d l).dies = s.dies := by rw [State.wrs_eq]
@[simp] theorem State.wrs_hps (s : State) (d : Die) (l : List (Fld × Nat)) : (s.wrs d l).hps = s.hps := by rw [State.wrs_eq]
@[simp] theorem State.wrs_memKey (s : State) (d : Die) (l : List (Fld × Nat)) : (s.wrs d l).memKey = s.memKey := by rw [State.wrs_eq]
@[simp] theorem State.wrs_waiters (s : State) (d : Die) (l : List (Fld × Nat)) : (s.wrs d l).waiters = s.waiters := by rw [State.wrs_eq]
@[simp] theorem State.wrs_recallAt (s : State) (d : Die) (l : List (Fld × Nat)) : (s.wrs d l).recallAt = s.recallAt := by rw [State.wrs_eq]
@[simp] theorem State.wrs_holdCounts (s : State) (d : Die) (l : List (Fld × Nat)) : (s.wrs d l).holdCounts = s.holdCounts := by rw [State.wrs_eq]
@[simp] theorem State.wrs_hostQ (s : State) (d : Die) (l : List (Fld × Nat)) : (s.wrs d l).hostQ = s.hostQ := by rw [State.wrs_eq]
@[simp] theorem State.wrs_engines (s : State) (d : Die) (l : List (Fld × Nat)) : (s.wrs d l).engines = s.engines := by rw [State.wrs_eq]
@[simp] theorem State.wrs_queues (s : State) (d : Die) (l : List (Fld × Nat)) : (s.wrs d l).queues = s.queues := by rw [State.wrs_eq]
@[simp] theorem State.wrs_rings (s : State) (d : Die) (l : List (Fld × Nat)) : (s.wrs d l).rings = s.rings := by rw [State.wrs_eq]
@[simp] theorem State.wrs_ctrs (s : State) (d : Die) (l : List (Fld × Nat)) : (s.wrs d l).ctrs = s.ctrs := by rw [State.wrs_eq]
@[simp] theorem State.wrs_qcs (s : State) (d : Die) (l : List (Fld × Nat)) : (s.wrs d l).qcs = s.qcs := by rw [State.wrs_eq]
@[simp] theorem State.wrs_ops (s : State) (d : Die) (l : List (Fld × Nat)) : (s.wrs d l).ops = s.ops := by rw [State.wrs_eq]
@[simp] theorem State.wrs_nextOp (s : State) (d : Die) (l : List (Fld × Nat)) : (s.wrs d l).nextOp = s.nextOp := by rw [State.wrs_eq]
@[simp] theorem State.wrs_reads (s : State) (d : Die) (l : List (Fld × Nat)) : (s.wrs d l).reads = s.reads := by rw [State.wrs_eq]
@[simp] theorem State.wrs_nextRead (s : State) (d : Die) (l : List (Fld × Nat)) : (s.wrs d l).nextRead = s.nextRead := by rw [State.wrs_eq]
@[simp] theorem State.wrs_nextPkt (s : State) (d : Die) (l : List (Fld × Nat)) : (s.wrs d l).nextPkt = s.nextPkt := by rw [State.wrs_eq]
@[simp] theorem State.wrs_fm (s : State) (d : Die) (l : List (Fld × Nat)) : (s.wrs d l).fm = s.fm := by rw [State.wrs_eq]
@[simp] theorem State.wrs_svc (s : State) (d : Die) (l : List (Fld × Nat)) : (s.wrs d l).svc = s.svc := by rw [State.wrs_eq]
@[simp] theorem State.wrs_pending (s : State) (d : Die) (l : List (Fld × Nat)) : (s.wrs d l).pending = s.pending := by rw [State.wrs_eq]

/-- Only the register fields change. -/
theorem State.zero_eq (s : State) (d : Die) (l : List Fld) : s.zero d l = { s with regs := (s.zero d l).regs } := by
  induction l generalizing s with
  | nil => rfl
  | cons p l ih =>
    have h : ∀ t : State, t.zero d (p :: l) = (t.wr d p 0).zero d l := fun t => rfl
    rw [h, ih]
    rfl

@[simp] theorem State.zero_part (s : State) (d : Die) (l : List Fld) : (s.zero d l).part = s.part := by rw [State.zero_eq]
@[simp] theorem State.zero_serial (s : State) (d : Die) (l : List Fld) : (s.zero d l).serial = s.serial := by rw [State.zero_eq]
@[simp] theorem State.zero_stepping (s : State) (d : Die) (l : List Fld) : (s.zero d l).stepping = s.stepping := by rw [State.zero_eq]
@[simp] theorem State.zero_rootKey (s : State) (d : Die) (l : List Fld) : (s.zero d l).rootKey = s.rootKey := by rw [State.zero_eq]
@[simp] theorem State.zero_now (s : State) (d : Die) (l : List Fld) : (s.zero d l).now = s.now := by rw [State.zero_eq]
@[simp] theorem State.zero_free (s : State) (d : Die) (l : List Fld) : (s.zero d l).free = s.free := by rw [State.zero_eq]
@[simp] theorem State.zero_mem (s : State) (d : Die) (l : List Fld) : (s.zero d l).mem = s.mem := by rw [State.zero_eq]
@[simp] theorem State.zero_poison (s : State) (d : Die) (l : List Fld) : (s.zero d l).poison = s.poison := by rw [State.zero_eq]
@[simp] theorem State.zero_out (s : State) (d : Die) (l : List Fld) : (s.zero d l).out = s.out := by rw [State.zero_eq]
@[simp] theorem State.zero_store (s : State) (d : Die) (l : List Fld) : (s.zero d l).store = s.store := by rw [State.zero_eq]
@[simp] theorem State.zero_ims (s : State) (d : Die) (l : List Fld) : (s.zero d l).ims = s.ims := by rw [State.zero_eq]
@[simp] theorem State.zero_running (s : State) (d : Die) (l : List Fld) : (s.zero d l).running = s.running := by rw [State.zero_eq]
@[simp] theorem State.zero_dies (s : State) (d : Die) (l : List Fld) : (s.zero d l).dies = s.dies := by rw [State.zero_eq]
@[simp] theorem State.zero_hps (s : State) (d : Die) (l : List Fld) : (s.zero d l).hps = s.hps := by rw [State.zero_eq]
@[simp] theorem State.zero_memKey (s : State) (d : Die) (l : List Fld) : (s.zero d l).memKey = s.memKey := by rw [State.zero_eq]
@[simp] theorem State.zero_waiters (s : State) (d : Die) (l : List Fld) : (s.zero d l).waiters = s.waiters := by rw [State.zero_eq]
@[simp] theorem State.zero_recallAt (s : State) (d : Die) (l : List Fld) : (s.zero d l).recallAt = s.recallAt := by rw [State.zero_eq]
@[simp] theorem State.zero_holdCounts (s : State) (d : Die) (l : List Fld) : (s.zero d l).holdCounts = s.holdCounts := by rw [State.zero_eq]
@[simp] theorem State.zero_hostQ (s : State) (d : Die) (l : List Fld) : (s.zero d l).hostQ = s.hostQ := by rw [State.zero_eq]
@[simp] theorem State.zero_engines (s : State) (d : Die) (l : List Fld) : (s.zero d l).engines = s.engines := by rw [State.zero_eq]
@[simp] theorem State.zero_queues (s : State) (d : Die) (l : List Fld) : (s.zero d l).queues = s.queues := by rw [State.zero_eq]
@[simp] theorem State.zero_rings (s : State) (d : Die) (l : List Fld) : (s.zero d l).rings = s.rings := by rw [State.zero_eq]
@[simp] theorem State.zero_ctrs (s : State) (d : Die) (l : List Fld) : (s.zero d l).ctrs = s.ctrs := by rw [State.zero_eq]
@[simp] theorem State.zero_qcs (s : State) (d : Die) (l : List Fld) : (s.zero d l).qcs = s.qcs := by rw [State.zero_eq]
@[simp] theorem State.zero_ops (s : State) (d : Die) (l : List Fld) : (s.zero d l).ops = s.ops := by rw [State.zero_eq]
@[simp] theorem State.zero_nextOp (s : State) (d : Die) (l : List Fld) : (s.zero d l).nextOp = s.nextOp := by rw [State.zero_eq]
@[simp] theorem State.zero_reads (s : State) (d : Die) (l : List Fld) : (s.zero d l).reads = s.reads := by rw [State.zero_eq]
@[simp] theorem State.zero_nextRead (s : State) (d : Die) (l : List Fld) : (s.zero d l).nextRead = s.nextRead := by rw [State.zero_eq]
@[simp] theorem State.zero_nextPkt (s : State) (d : Die) (l : List Fld) : (s.zero d l).nextPkt = s.nextPkt := by rw [State.zero_eq]
@[simp] theorem State.zero_fm (s : State) (d : Die) (l : List Fld) : (s.zero d l).fm = s.fm := by rw [State.zero_eq]
@[simp] theorem State.zero_svc (s : State) (d : Die) (l : List Fld) : (s.zero d l).svc = s.svc := by rw [State.zero_eq]
@[simp] theorem State.zero_pending (s : State) (d : Die) (l : List Fld) : (s.zero d l).pending = s.pending := by rw [State.zero_eq]

@[simp] theorem State.wr_regs (s : State) (d : Die) (f : Fld) (v : Nat) :
    (s.wr d f v).regs = tputD s.regs (fkey d f) f.rst (v % 2 ^ f.w) := rfl
@[simp] theorem State.emit_out (s : State) (o : Output) : (s.emit o).out = s.out ++ [o] := rfl
@[simp] theorem State.mstore_mem (s : State) (a : Nat) (bs : List Byte) (p : Bool) : (s.mstore a bs p).mem = mwriteBytes s.mem a bs := rfl

@[simp] theorem Pair.get_set_same {α : Type} (p : Pair α) (d : Die) (x : α) : (p.set d x).get d = x := by cases d <;> rfl
@[simp] theorem Pair.get_set_other {α : Type} (p : Pair α) (d : Die) (x : α) : (p.set d x).get d.other = p.get d.other := by
  cases d <;> rfl

@[simp] theorem State.die_modDie_same (s : State) (d : Die) (f : DieState → DieState) : (s.modDie d f).die d = f (s.die d) := by
  simp [State.die, State.modDie]
@[simp] theorem State.die_modDie_other (s : State) (d : Die) (f : DieState → DieState) : (s.modDie d f).die d.other = s.die d.other := by
  simp [State.die, State.modDie]
@[simp] theorem State.hp_modHp_same (s : State) (h : Fin 4) (f : HostPort → HostPort) : (s.modHp h f).hp h = f (s.hp h) := by
  simp [State.hp, State.modHp, Vector.get, Fin.cast]

@[simp] theorem State.die_wr (s : State) (d e : Die) (f : Fld) (v : Nat) : (s.wr d f v).die e = s.die e := rfl
@[simp] theorem State.die_emit (s : State) (o : Output) (e : Die) : (s.emit o).die e = s.die e := rfl
@[simp] theorem State.mbyte_wr (s : State) (d : Die) (f : Fld) (v a : Nat) : (s.wr d f v).mbyte a = s.mbyte a := rfl
@[simp] theorem State.mbyte_emit (s : State) (o : Output) (a : Nat) : (s.emit o).mbyte a = s.mbyte a := rfl
@[simp] theorem State.rd_emit (s : State) (o : Output) (d : Die) (f : Fld) : (s.emit o).rd d f = s.rd d f := rfl
@[simp] theorem State.rd_mstore (s : State) (a : Nat) (bs : List Byte) (p : Bool) (d : Die) (f : Fld) :
    (s.mstore a bs p).rd d f = s.rd d f := rfl
@[simp] theorem State.rd_modDie (s : State) (e : Die) (g : DieState → DieState) (d : Die) (f : Fld) : (s.modDie e g).rd d f = s.rd d f := rfl

end Sys2Proof.Machine
end

