-- ==== Sys2Proof/Laws/Tables.lean ====
section
/-! SUPPORT. Sparse tables in canonical form: what a read finds after a write, and that writes keep the form; and from them the same of
register fields and of device memory. -/

namespace Sys2Proof.Machine

variable {α : Type}

/-! ## Tables -/

theorem tblAbove_mono {lo lo' : Nat} {t : Tbl α} (h : tblAbove lo t = true) (hl : lo' ≤ lo) : tblAbove lo' t = true := by
  cases t with
  | nil => rfl
  | cons c t =>
    simp only [tblAbove, Bool.and_eq_true, decide_eq_true_eq] at h ⊢
    exact ⟨by omega, h.2⟩

theorem tblAbove.wf {lo : Nat} {t : Tbl α} (h : tblAbove lo t = true) : tblWf t = true := by
  cases t with
  | nil => rfl
  | cons c t => simp only [tblAbove, Bool.and_eq_true] at h; exact h.2

theorem tget_above {lo x : Nat} {t : Tbl α} (h : tblAbove lo t = true) (hx : x ≤ lo) : tget t x = none := by
  cases t with
  | nil => rfl
  | cons c t =>
    simp only [tblAbove, Bool.and_eq_true, decide_eq_true_eq] at h
    simp only [tget]
    rw [if_neg (by omega), if_pos (by omega)]

@[simp] theorem tget_tput_same (t : Tbl α) (x : Nat) (v : α) : tget (tput t x v) x = some v := by
  induction t with
  | nil => simp [tput, tget]
  | cons c t ih =>
    simp only [tput]
    split
    · simp [tget]
    · split
      · simp [tget]
      · rename_i h1 h2
        simp only [tget, if_neg h1, if_neg h2, ih]

theorem tget_tput_other (t : Tbl α) {x y : Nat} (v : α) (h : y ≠ x) : tget (tput t x v) y = tget t y := by
  induction t with
  | nil =>
    simp only [tput, tget]
    split
    · omega
    · split <;> rfl
  | cons c t ih =>
    simp only [tput]
    split
    · rename_i h1
      simp only [tget, h1, if_neg (Ne.symm h)]
    · split
      · simp only [tget]
        split
        · omega
        · split
          · rw [if_neg (by omega), if_pos (by omega)]
          · rfl
      · simp only [tget, ih]

theorem tput_above {lo : Nat} {t : Tbl α} {x : Nat} (v : α) (h : tblAbove lo t = true) (hx : lo < x) : tblAbove lo (tput t x v) = true := by
  induction t generalizing lo with
  | nil => simpa [tput, tblAbove] using hx
  | cons c t ih =>
    simp only [tblAbove, Bool.and_eq_true, decide_eq_true_eq] at h
    simp only [tput]
    split
    · rename_i h1
      simp only [tblAbove, Bool.and_eq_true, decide_eq_true_eq]
      exact ⟨hx, h1 ▸ h.2⟩
    · split
      · simp only [tblAbove, Bool.and_eq_true, decide_eq_true_eq]
        exact ⟨hx, by assumption, h.2⟩
      · simp only [tblAbove, Bool.and_eq_true, decide_eq_true_eq]
        exact ⟨h.1, ih h.2 (by omega)⟩

theorem tput_wf {t : Tbl α} (x : Nat) (v : α) (h : tblWf t = true) : tblWf (tput t x v) = true := by
  cases t with
  | nil => rfl
  | cons c t =>
    simp only [tblWf] at h
    simp only [tput]
    split
    · rename_i h1; simpa [tblWf, ← h1] using h
    · split
      · simp only [tblWf, tblAbove, Bool.and_eq_true, decide_eq_true_eq]; exact ⟨by assumption, h⟩
      · exact tput_above v h (by omega)

theorem tdel_above {lo : Nat} {t : Tbl α} (x : Nat) (h : tblAbove lo t = true) : tblAbove lo (tdel t x) = true := by
  induction t generalizing lo with
  | nil => rfl
  | cons c t ih =>
    have h' := h
    simp only [tblAbove, Bool.and_eq_true, decide_eq_true_eq] at h
    simp only [tdel]
    split
    · exact tblAbove_mono h.2 (by omega)
    · split
      · exact h'
      · simp only [tblAbove, Bool.and_eq_true, decide_eq_true_eq]; exact ⟨h.1, ih h.2⟩

theorem tdel_wf {t : Tbl α} (x : Nat) (h : tblWf t = true) : tblWf (tdel t x) = true := by
  cases t with
  | nil => rfl
  | cons c t =>
    simp only [tdel]
    split
    · exact tblAbove.wf h
    · split
      · exact h
      · exact tdel_above x h

theorem tget_tdel_same_above {lo : Nat} {t : Tbl α} (x : Nat) (h : tblAbove lo t = true) : tget (tdel t x) x = none := by
  induction t generalizing lo with
  | nil => rfl
  | cons c t ih =>
    simp only [tblAbove, Bool.and_eq_true, decide_eq_true_eq] at h
    simp only [tdel]
    split
    · exact tget_above h.2 (by omega)
    · rename_i h1
      split
      · rename_i h2; simp only [tget]; rw [if_neg h1, if_pos h2]
      · rename_i h2; simp only [tget]; rw [if_neg h1, if_neg h2]; exact ih h.2

theorem tget_tdel_same {t : Tbl α} (x : Nat) (h : tblWf t = true) : tget (tdel t x) x = none := by
  cases t with
  | nil => rfl
  | cons c t =>
    simp only [tdel]
    split
    · exact tget_above h (by omega)
    · rename_i h1
      split
      · rename_i h2; simp only [tget]; rw [if_neg h1, if_pos h2]
      · rename_i h2; simp only [tget]; rw [if_neg h1, if_neg h2]; exact tget_tdel_same_above x h

theorem tget_tdel_other_above {lo : Nat} {t : Tbl α} {x y : Nat} (h : tblAbove lo t = true) (hy : y ≠ x) :
    tget (tdel t x) y = tget t y := by
  induction t generalizing lo with
  | nil => rfl
  | cons c t ih =>
    simp only [tblAbove, Bool.and_eq_true, decide_eq_true_eq] at h
    simp only [tdel]
    split
    · simp only [tget]
      rw [if_neg (by omega)]
      split
      · exact tget_above h.2 (by omega)
      · rfl
    · split
      · rfl
      · simp only [tget, ih h.2]

theorem tget_tdel_other {t : Tbl α} {x y : Nat} (h : tblWf t = true) (hy : y ≠ x) : tget (tdel t x) y = tget t y := by
  cases t with
  | nil => rfl
  | cons c t =>
    simp only [tblWf] at h
    simp only [tdel]
    split
    · simp only [tget]
      rw [if_neg (by omega)]
      split
      · exact tget_above h (by omega)
      · rfl
    · split
      · rfl
      · simp only [tget, tget_tdel_other_above h hy]

theorem tputD_wf {t : Tbl Nat} (x d v : Nat) (h : tblWf t = true) : tblWf (tputD t x d v) = true := by
  unfold tputD
  split
  · exact tdel_wf x h
  · exact tput_wf x v h

theorem filter_above {lo : Nat} {t : Tbl α} (p : Nat × α → Bool) (h : tblAbove lo t = true) : tblAbove lo (t.filter p) = true := by
  induction t generalizing lo with
  | nil => rfl
  | cons c t ih =>
    simp only [tblAbove, Bool.and_eq_true, decide_eq_true_eq] at h
    rw [List.filter_cons]
    split
    · simp only [tblAbove, Bool.and_eq_true, decide_eq_true_eq]; exact ⟨h.1, ih h.2⟩
    · exact tblAbove_mono (ih h.2) (by omega)

theorem filter_wf {t : Tbl α} (p : Nat × α → Bool) (h : tblWf t = true) : tblWf (t.filter p) = true := by
  cases t with
  | nil => rfl
  | cons c t =>
    rw [List.filter_cons]
    split
    · exact filter_above p h
    · exact tblAbove.wf (filter_above p h)

/-! ## Register fields -/

/-- A field reads what was written to it, cut to its width. -/
theorem State.rd_wr_same (s : State) (d : Die) (f : Fld) (v : Nat) (h : tblWf s.regs = true) : (s.wr d f v).rd d f = v % 2 ^ f.w := by
  simp only [State.rd, State.wr_regs, tputD]
  split
  · rename_i e; rw [tget_tdel_same _ h, e]; rfl
  · rw [tget_tput_same]; rfl

/-- A write of a field leaves every field at another place as it was. -/
theorem State.rd_wr_other (s : State) {d e : Die} {f g : Fld} (v : Nat) (h : tblWf s.regs = true) (hk : fkey e g ≠ fkey d f) :
    (s.wr d f v).rd e g = s.rd e g := by
  simp only [State.rd, State.wr_regs, tputD]
  split
  · rw [tget_tdel_other h hk]
  · rw [tget_tput_other _ _ hk]

theorem State.wr_wf (s : State) (d : Die) (f : Fld) (v : Nat) (h : tblWf s.regs = true) : tblWf (s.wr d f v).regs = true :=
  tputD_wf _ _ _ h

/-! ## Device memory -/

theorem mput_wf {m : Tbl Byte} (a : Nat) (b : Byte) (h : Memory.wf m = true) : Memory.wf (mput m a b) = true := by
  simp only [Memory.wf, Bool.and_eq_true, List.all_eq_true] at h ⊢
  obtain ⟨h1, h2⟩ := h
  unfold mput
  split
  · refine ⟨tdel_wf a h1, fun c hc => h2 c ?_⟩
    clear h1 h2
    induction m with
    | nil => exact hc
    | cons x m ih =>
      simp only [tdel] at hc
      split at hc
      · exact List.mem_cons_of_mem _ hc
      · split at hc
        · exact hc
        · rcases List.mem_cons.mp hc with e | hc
          · exact e ▸ List.mem_cons_self ..
          · exact List.mem_cons_of_mem _ (ih hc)
  · rename_i hb
    refine ⟨tput_wf a b h1, fun c hc => ?_⟩
    have key : c = (a, b) ∨ c ∈ m := by
      clear h1 h2
      induction m with
      | nil => simpa [tput] using hc
      | cons x m ih =>
        simp only [tput] at hc
        split at hc
        · rcases List.mem_cons.mp hc with e | hc
          · exact .inl e
          · exact .inr (List.mem_cons_of_mem _ hc)
        · split at hc
          · rcases List.mem_cons.mp hc with e | hc
            · exact .inl e
            · exact .inr hc
          · rcases List.mem_cons.mp hc with e | hc
            · exact .inr (e ▸ List.mem_cons_self ..)
            · rcases ih hc with e | e
              · exact .inl e
              · exact .inr (List.mem_cons_of_mem _ e)
    rcases key with rfl | hm
    · simpa using hb
    · exact h2 c hm

theorem mwriteBytes_wf {m : Tbl Byte} (a : Nat) (bs : List Byte) (h : Memory.wf m = true) : Memory.wf (mwriteBytes m a bs) = true := by
  induction bs generalizing m a with
  | nil => exact h
  | cons b bs ih => exact ih (a + 1) (mput_wf a b h)

/-- Every write of device memory keeps its canonical form. -/
theorem State.mstore_wf (s : State) (a : Nat) (bs : List Byte) (p : Bool) (h : Memory.wf s.mem = true) :
    Memory.wf (s.mstore a bs p).mem = true := mwriteBytes_wf a bs h

theorem Memory.wf.tbl {m : Tbl Byte} (h : Memory.wf m = true) : tblWf m = true := by
  simp only [Memory.wf, Bool.and_eq_true] at h; exact h.1

theorem mput_same {m : Tbl Byte} (a : Nat) (b : Byte) (h : Memory.wf m = true) : (tget (mput m a b) a).getD 0 = b := by
  unfold mput
  split
  · rename_i e; rw [tget_tdel_same a (Memory.wf.tbl h), e]; rfl
  · rw [tget_tput_same]; rfl

theorem mput_other {m : Tbl Byte} {a x : Nat} (b : Byte) (h : Memory.wf m = true) (hx : x ≠ a) : tget (mput m a b) x = tget m x := by
  unfold mput
  split
  · exact tget_tdel_other (Memory.wf.tbl h) hx
  · exact tget_tput_other _ _ hx

theorem mwriteBytes_outside {m : Tbl Byte} {a x : Nat} {bs : List Byte} (h : Memory.wf m = true) (hx : x < a ∨ a + bs.length ≤ x) :
    tget (mwriteBytes m a bs) x = tget m x := by
  induction bs generalizing m a with
  | nil => rfl
  | cons b bs ih =>
    simp only [List.length_cons] at hx
    rw [mwriteBytes, ih (mput_wf a b h) (by omega), mput_other b h (by omega)]

theorem mwriteBytes_inside {m : Tbl Byte} {a i : Nat} {bs : List Byte} (h : Memory.wf m = true) (hi : i < bs.length) :
    (tget (mwriteBytes m a bs) (a + i)).getD 0 = bs[i] := by
  induction bs generalizing m a i with
  | nil => simp at hi
  | cons b bs ih =>
    cases i with
    | zero => rw [mwriteBytes, Nat.add_zero, mwriteBytes_outside (mput_wf a b h) (by omega)]; exact mput_same a b h
    | succ i =>
      have := ih (a := a + 1) (i := i) (mput_wf a b h) (by simpa using hi)
      rw [mwriteBytes, show a + (i + 1) = a + 1 + i by omega, this]; rfl

end Sys2Proof.Machine
end

