-- ==== Sys2Proof/WellFormed.lean ====
section
/-! DEFINITION. Which operands a command can have: what the outside of the device can send it. A command that is not well-formed is no
input of the device; `exec` gives it an effect all the same. -/

namespace Sys2Proof.WellFormed

/-- A function that reaches PF BAR0 is the PF of a port (03_register_model.md R69, R82). -/
def barRequester (rq : Requester) (space : RegSpace) : Bool :=
  match space, rq with
  | .bar0 _, .fn f => f.fn.val == 0
  | _, _ => true

/-- An access of BAR2 or BAR4 lies in the function's BAR: 128 GiB of a PF, 16 GiB of another (03_register_model.md R69). -/
def inBar (f : Fn) (off n : Nat) : Bool := decide (off + n ≤ (if f.fn.val = 0 then 2 ^ 37 else 2 ^ 34))

/-- A register access covers at least one byte. -/
def accessSize (n : Nat) : Bool := 0 < n

/-- A read or a write of a BAR moves at least one byte. -/
def moves (n : Nat) : Bool := 0 < n

/-- The AtomicOps of a host: FetchAdd and Swap of 4 or 8 bytes, CAS of 4, 8 or 16 (05_host_ports.md R123). -/
def atomicOp (k : AtomicKind) (size : Nat) : Bool :=
  match k with
  | .fadd | .swap => size == 4 || size == 8
  | .cas => size == 4 || size == 8 || size == 16
  | _ => false

/-- A flit of 272 bytes (14_link_layer.md R448). -/
def flit (b : List Byte) : Bool := b.length == 272

/-- A codeword of a lane has 544 symbols of 10 bits, 514 of them its message, and a level has two bits (15_lanes.md R476, R477). -/
def codeword (msg parity : List (Fin 4)) : Bool := msg.length == 2570 && parity.length == 150

/-- A CXL.mem access moves bytes of one line (05_host_ports.md R136). -/
def oneLine (addr n : Nat) : Bool := 0 < n && decide (addr % 64 + n ≤ 64)

/-- A translation's size is a page or more (07_translation.md R207). -/
def atsSize (log2Size : Nat) : Bool := 12 ≤ log2Size

/-- The sensors of each die, of its two stacks, and of the service die (20_package.md R602, R603). -/
def sensors (a b : DieTemps) (v : List (BitVec 8)) : Bool :=
  a.sensors.length == 24 && a.hbm.length == 2 && b.sensors.length == 24 && b.hbm.length == 2 && v.length == 2

/-- An address of ICMP has 32 bits (19_startup.md R580). -/
def icmp (v6 : Bool) (ip : BitVec 128) : Bool := v6 || decide (ip.toNat < 2 ^ 32)

/-- The levels of the pins, one for each cell of the boundary register (19_startup.md R583; log entry 33). -/
def pinList (l : List Bool) : Bool := l.length == 409

/-- No step of the writing of an image is cut off beyond the words of the longest image (02_structure_image.md R55, R66). -/
def cut (c : Option StoreCut) : Bool :=
  match c with
  | some c => decide (c.words < 3145216)
  | none => true

/-- The operands of a command can be sent. -/
def wf (i : Instr) : Bool :=
  match i with
  | .registerWrite rq space size _ => barRequester rq space && accessSize size.val
  | .install _ _ _ c => cut c
  | .bar2Read f o r => moves r.len && inBar f o.toNat r.len
  | .bar2Write f o data _ => moves data.length && inBar f o.toNat data.length
  | .hostAtomicop f o k size _ _ => atomicOp k size && inBar f o.toNat size
  | .holdRead f o n => moves n && inBar f o.toNat n
  | .hdmAccess _ addr w n => oneLine addr.toNat (match w with | some b => b.bytes.length | none => n)
  | .atsTranslationCompletion _ _ _ n _ _ _ _ => atsSize n.val
  | .atsInvalidateRequest _ _ n => atsSize n.val
  | .flitReceived _ _ b _ | .negotiatePropose _ _ b _ | .negotiateAgree _ _ b _ | .negotiateRefuse _ _ b _
  | .changeRequest _ _ b _ | .changeAccept _ _ b _ | .changeRefuse _ _ b _ => flit b
  | .fecCodeword _ _ m p => codeword m p
  | .tempSample a b v => sensors a b v
  | .echoRequest _ v6 ip _ => icmp v6 ip
  | .samplePreload p _ | .extest p _ | .extestPulse p _ | .extestTrain p _ => pinList p
  | .ctrlEnableWrite .. | .statusEnabledCleared .. | .countClear .. | .tokenAcquire .. | .tokenRelease .. | .tokenLeaseExpiry ..
  | .apply .. | .verify .. | .enrolKey .. | .revokeKey .. | .raiseEpoch .. | .setBootPolicy .. | .quiesceReq ..
  | .quiesceEntered .. | .featureFloorWrite .. | .storeScrub .. | .holdTimeout .. | .holdRecallTimer .. | .ptRegister ..
  | .ptDeregister .. | .ptClose .. | .ptOpen .. | .ptBind .. | .ptUnbind .. | .ptSetWindow .. | .ptSetAttr .. | .ptRead ..
  | .numvfsWrite .. | .functionLevelReset .. | .perstNAsserted .. | .perstNDeasserted .. | .hostLinkDown ..
  | .hostReadCompletion .. | .hdmCommit .. | .memrdShared .. | .memrdOwnership .. | .memwrWriteback .. | .birsp ..
  | .hagDwellExpiry .. | .getVersion .. | .getCapabilities .. | .negotiateAlgorithms .. | .getDigests .. | .getCertificate ..
  | .challenge .. | .getMeasurements .. | .keyExchange .. | .finish .. | .heartbeat .. | .keyUpdate .. | .endSession .. | .ideKm ..
  | .ptmExchange .. | .doorbell .. | .ctrAdd .. | .ringConsWrite .. | .contextAddrWrite .. | .fnSetsWrite .. | .createQueue ..
  | .start .. | .stop .. | .resetQueue .. | .createRing .. | .destroyRing .. | .resetCounters .. | .invalidate ..
  | .indexReadReturn .. | .phaseRetry .. | .pollTimer .. | .recordReload .. | .triggeredHeadStart .. | .triggerSweep .. | .nop ..
  | .counterAdd .. | .completion .. | .counterRecordWrite .. | .createSpace .. | .destroySpace .. | .createRegion ..
  | .destroyRegion .. | .invalidateRange .. | .invalidateSpace .. | .invalidateFunction .. | .invalidateAll .. | .tokenComplete ..
  | .walkReadReturn .. | .tsend .. | .trecv .. | .tprobe .. | .tmprobe .. | .tcancel .. | .tmrecv .. | .tagEager .. | .tagRts ..
  | .tagCont .. | .tagPull .. | .tagPullData .. | .tagFin .. | .tagMatched .. | .storedCopyDone .. | .spillReadReturn ..
  | .spillReload .. | .chainIntervalEnd .. | .rehashGo .. | .rehashMove .. | .rehashCutover .. | .put .. | .putNotify .. | .get ..
  | .fadd64 .. | .swap64 .. | .cas64 .. | .smin64 .. | .smax64 .. | .umin64 .. | .umax64 .. | .swap128 .. | .cas128 ..
  | .chunkIssue .. | .rmaPut .. | .rmaNotify .. | .rmaGetReq .. | .rmaGetData .. | .rmaAtomic .. | .rmaAtomicRsp ..
  | .flagHoldRelease .. | .targetCounterEvent .. | .notificationWrite .. | .sluiceAdmit .. | .sluiceEntryWrite .. | .ctxOpen ..
  | .ctxOpenAck .. | .ctxNoctx .. | .truAck .. | .sequencedPacketReceive .. | .packetLanded .. | .ackDelayExpiry ..
  | .gapTimeout .. | .retransmitTimeout .. | .rnrRetransmit .. | .retryBudgetExhausted .. | .unreachHoldExpiry ..
  | .recordResendTimer .. | .contextReload .. | .contextWritebackDone .. | .rateIncreaseTick .. | .queryPair .. | .queryIndex ..
  | .abort .. | .qJoin .. | .qRelease .. | .qAllreduce .. | .qReduce .. | .qBcast .. | .qBarrier .. | .qAbort .. | .qctlJoin ..
  | .qctlReady .. | .qctlCredit .. | .qctlResend .. | .qctlRelease .. | .qctlFree .. | .qctlAbort .. | .qdata .. | .qresult ..
  | .segmentSend .. | .joinTimeout .. | .pendingJoinTimeout .. | .myFeaWrite .. | .routeTableWrite .. | .epochInjectWrite ..
  | .validate .. | .versionInvalidate .. | .groupStatusPeriod .. | .groupStatus .. | .peerStale .. | .routePacket ..
  | .imbalanceWindow .. | .reseed .. | .holdLimitExpiry .. | .crossbarAllocation .. | .packetEjected .. | .nocUnitReceived ..
  | .bridgeFlitReceived .. | .bridgeModuleSilent .. | .bridgeModuleRetrainDone .. | .flitSlot .. | .replayTimeout ..
  | .linkRttWindow .. | .lanesTrained .. | .negotiateResend .. | .trainingAttemptTimeout .. | .failedRestartTimer ..
  | .silenceTimeout .. | .retrain .. | .portHoldLimit .. | .changeGo .. | .changeTimeout .. | .lanesReady .. | .linkRetire ..
  | .trainingFrame .. | .quadPllLocked .. | .laneStepTimeout .. | .qualificationWindow .. | .adaptationUpdate ..
  | .laneLockLoss .. | .lnePwrWrite .. | .prbsCtrlWrite .. | .prbsNoPartner .. | .heartbeatTimer .. | .faultEvaluation ..
  | .suppressedRecordsTick .. | .engineWatchdog .. | .retire .. | .unretire .. | .readRecord .. | .laneShutdown ..
  | .domainCycle .. | .deviceReset .. | .descentTimer .. | .fenceAck .. | .domainStateSaved .. | .fenceTimeout .. | .domainWake ..
  | .domainGalopReached .. | .domCfgWrite .. | .islandClockGate .. | .coreVoltageAdjust .. | .windowEnd .. | .pcuCountClear ..
  | .syncInterval .. | .syncReq .. | .syncRsp .. | .syncRspTimeout .. | .ftSet .. | .pwrgoodRise .. | .pwrgoodFall ..
  | .resetNAsserted .. | .resetNDeasserted .. | .sendMgt .. | .getSetting .. | .setSetting .. | .regRead .. | .regWrite ..
  | .stageWrite .. | .mgtResponse .. | .mgtRequestRetry .. | .arpRequest .. | .neighbourSolicitation .. | .i3cAddressAssign ..
  | .i3cEnec .. | .i3cPrivateWrite .. | .i3cPrivateRead .. | .idcode .. | .clamp .. | .highz .. | .bypass .. | .hostLinkUp ..
  | .devicePowerStateWrite .. | .aspmL1Entry .. | .aspmL1Exit .. | .suppliesCollapse .. | .mgtEvent .. | .oobBlockLock ..
  | .prbsCheckerLock .. | .prbsLossOfLock .. | .trstNAsserted .. => true

end Sys2Proof.WellFormed
end

