-- ==== Sys2Proof/Tests/Slice0.lean ====
section
/-! SUPPORT. Tests: an ill-formed command for each check of WellFormed, and for each statement a state and operands that meet the
hypotheses of its clauses. -/

namespace Sys2Proof.Tests

open Sys2Proof Sys2Proof.Machine

set_option Elab.async false

/-- A device with PWRGOOD and RESET_N high, a second after power was applied. -/
def s0 : State := { State.reset with now := 1000000000, svc := { State.reset.svc with pwrgood := true, resetN := true } }

def f0 : Fn := ⟨0, 0⟩
def pf : Requester := .fn f0

theorem test_IdleStepPassesTime_meets :
    State.reset.pending = [] := by decide +kernel

theorem test_StepKeepsInvariant_meets :
    State.reset.inv ∧ ∃ t, step State.reset = .next t := ⟨by simp only [State.inv]; decide +kernel, _, rfl⟩

theorem test_CommandTouchesOnlyItsGroups_meets :
    (∃ t, exec .tokenLeaseExpiry State.reset = .next t) ∧ Grp.mem ∉ touched .tokenLeaseExpiry := ⟨⟨_, rfl⟩, by decide⟩

theorem test_CommandKeepsIdentity_meets :
    ∃ t, exec .tokenLeaseExpiry State.reset = .next t := ⟨_, rfl⟩

theorem test_WritesReadBack_meets :
    State.reset.inv := by
  repeat' apply And.intro
  all_goals decide +kernel

/-- The key whose private part is 1, and the one whose private part is 2. -/
def key1 : OwnerKey := ⟨BitVec.ofNat 384 0xaa87ca22be8b05378eb1c71ef320ad746e1d3b628ba79b9859f741e082542a385502f25dbf55296c3a545e3872760ab7,
  BitVec.ofNat 384 0x3617de4a96262c6f5d9e98bf9292dc29f8f41dbd289a147ce9da3113b5f0b8c00a60b1ce1d7e819d7a431d7c90ea0e5f⟩
def key2 : OwnerKey := ⟨BitVec.ofNat 384 0x8d999057ba3d2d969260045c55b97f089025959a6f434d651d207d19fb96e9e4fe0e86ebe0e64f85b96a9c75295df61,
  BitVec.ofNat 384 0x8e80f1fa5b1b3cedb7bfe8dffd6dba74b275d875bc6cc43e904e505f256ab4255ffd43e94d39e22d61501e700a940e80⟩

/-- An image without a parameter, with one section of engine code, signed by `key1`. -/
def image : List Byte := leBytes 704 0x30cdad907dcd115a08fb65c1a4031313ab94fd46a2505635062321f4bd547713e177a1994fd434a3deb8082ded2ae57cfdd84c1dfd8ff59f799fe4babb7346342830df4fe88c63568a2ba669a0199e8193904a2c3ff3625709bd42009055324ee50d135a70067686edf9b71224264f8c00000000000000000000000000000000ab14d528462ead6c23e0d1da51557ff71555a4871fea5558913fed36f494dae52ee763856d6e55d8a53b2e82866d513431aca806a36f949a5dabb5f80d11932fe5f6823e44315e35c68bc8be0c895175024a75069a594314e9aeb68befe81854e50d135a70067686edf9b71224264f8c5bb99848f1d21ad5fb656fe7bfde4e27dae1f663bfc70c4c4307be1411b7fd216ae3b1b17e32d94c3896ac51a760b0380000000000000240000000000000000336280231bd9a144e239e0f28aa5ebf31e93527911ecdf13fe20b6dddde81289c5d6c914ce0427cd0ce12f287ef1ff6ad00000080000001c000000000000200025bb99848f1d21ad5fb656fe7bfde4e27dae1f663bfc70c4c4307be1411b7fd216ae3b1b17e32d94c3896ac51a760b03800000000000001c0000000000000000100000000000000000000000000000000000000000000000000000000000000000000000000000000000000000000000000000000000000000000000000000000000000000000000000000000000000000000000000000000000000000000000000000000000000000000000000000000000000000000000000000000000000000000000000000000000000000000000000000000000000000000000000000000000000000000000000000000000000000000000000000000000000000000000000000000000000000000000000000000000000000000000000000000000000000000000000001234000001000000000000030701000002c00100000158465654

/-- A state that takes IMS commands of PF 0 of host port 0, for bytes of a length, with owner keys. -/
def sIms (len : Nat) (keys : List (Option OwnerKey)) : State :=
  let s := s0.wrs .a [(IMS.SRC_LEN.LEN, len)]
  { s with rootKey := key1, ims := { s.ims with hostImage := true }, store := { s.store with keys := keys } }

def noKeys : List (Option OwnerKey) := [none, none, none, none]
def sImage : State := sIms 704 noKeys
def sQuiet : State := sImage.wr .a IMS.QUIESCE.STATE 2
def sTaken : State := sImage.wrs .a [(IMS.TOKEN.OWNER_CLASS, 1)]
def sHeld : State := sImage.wrs .a [(IMS.TOKEN.OWNER_CLASS, 3)]

/-- Control records. -/
def recEnrol : List Byte := leBytes 256 0xad0a62eda8a73a8caf6cc960e439eb1c3d2ba558eafc558eebc76fde248783c51d62490917c67c8fdbd35835b7d0ddd39086c3fa9b78875801005b279ae759ca49e7625d0c3dfcb7acd6dba9d7fe1483a9e69e7e0dd0fcad7ae67e2bef875df3e50d135a70067686edf9b71224264f8c5f0eea907c1d437a9d817e1dceb1600ac0b8f0b51331dae97c149a28bd1df4f829dc9292bf989e5d6f2c26964ade1736b70a7672385e543a6c2955bf5df20255382a5482e041f759989ba78b623b1d6e74ad20f31ec7b18e37058bbe22ca87aa0000000000000000000000000000000000000000000000010000000143544c52
def recRevoke : List Byte := leBytes 256 0x8e726669626ce582f7114e94130bf0e7e9521aa7da3dd1f8209da0bd36276091fcd491e0c4cc5a4fa28cd4cdb1195c08da8199753d4b19ede11bd7d3cbe9cbc707115baa2bb336bb49cf153a6307450fb1e8814a5c428e8b77c6e145076c4637e50d135a70067686edf9b71224264f8c000000000000000000000000000000000000000000000000000000000000000000000000000000000000000000000000000000000000000000000000000000000000000000000000000000000000000092e5a122c4cdf31787de74ade81e28920000000000000000000000000000000000000000000000010000000243544c52
def recEpoch : List Byte := leBytes 256 0x9608ae39c527feb681a1d9ba098a2386f80eb0a2758fab2dbb506dee215199ac26f24a40001f60eafde45f5dd74db58a5f7f6dcaaf6d0ae6b95010b785960b1eeab4b366e6458c4486cd07061b98aea454a07805710a893035710c1d55c19834e50d135a70067686edf9b71224264f8c0000000000000000000000000000000000000000000000000000000000000000000000000000000000000000000000000000000000000000000000000000000000000000000000000000000000000000000000000000000000000000000000000000000000000000000000000000000000000000000000010005000343544c52
def recPolicy : List Byte := leBytes 256 0x73df64da1e443ff324a44408d39a4a42797d01c9f51fbb2ed46c9a4379bb46f0f38f8bfdd8415b95df9f3e2d83af59f6733c9c6fc308e2d8c2c553161160834603a80d73d32f059004c0daf7ad76a69e286d4da05831218c9ad8c7099908914fe50d135a70067686edf9b71224264f8c0000000000000000000000000000000000000000000000000000000000000000000000000000000000000000000000000000000000000000000000000000000000000000000000000000000000000000000000000000000000000000000000000000000000000000000000000000000000000000000000010000020443544c52
def sRec : State := sIms 256 noKeys
def sRec2 : State := sIms 256 [some key1, some key2, none, none]
def passes (s : State) (b : List Byte) (kind : Nat) : Bool :=
  recordFormat b kind && (le b 16 16 == 0) && s.recordSigned b kind && decide (s.store.control < le b 8 8)

theorem test_TokenHasOneHolder_meets :
    (sImage.inv ∧ sImage.imsWarden pf ∧ sImage.rd .a IMS.TOKEN.OWNER_CLASS = 0) ∧
    (sTaken.inv ∧ sTaken.imsWarden pf ∧ sTaken.rd .a IMS.TOKEN.OWNER_CLASS ≠ 0 ∧ ¬ (sTaken.rd .a IMS.TOKEN.OWNER_CLASS = rqClass pf ∧ sTaken.rd .a IMS.TOKEN.OWNER_FN = rqFn pf)) ∧
    (sHeld.inv ∧ sHeld.imsWarden pf ∧ sHeld.rd .a IMS.TOKEN.OWNER_CLASS = rqClass pf ∧ sHeld.rd .a IMS.TOKEN.OWNER_FN = rqFn pf) ∧
    (¬ (sTaken.rd .a IMS.TOKEN.OWNER_CLASS = rqClass pf ∧ sTaken.rd .a IMS.TOKEN.OWNER_FN = rqFn pf)) ∧
    ((sTaken.wr .a IMS.TOKEN.OWNER_CLASS 0).rd .a IMS.TOKEN.OWNER_CLASS = 0 ∨ (sTaken.wr .a IMS.TOKEN.OWNER_CLASS 0).now < (sTaken.wr .a IMS.TOKEN.OWNER_CLASS 0).ims.leaseEnd) ∧
    (sTaken.rd .a IMS.TOKEN.OWNER_CLASS ≠ 0 ∧ sTaken.ims.leaseEnd ≤ sTaken.now) := by
  repeat' apply And.intro
  all_goals decide +kernel

theorem test_ImageCommandsComplete_meets :
    (sQuiet.inv ∧ sQuiet.imsWarden pf ∧ sQuiet.rd .a IMS.CMD_STATUS.BUSY = 0 ∧ sQuiet.mayHold pf = true ∧ sQuiet.verifyImage (sQuiet.source pf 0 image) = 0 ∧ sQuiet.store.lastSeq + 1 ≤ 0xFFFFFFFE) ∧
    (sQuiet.checkSource 0 (sQuiet.source pf 0 image) = 0 ∧ sQuiet.rd .a IMS.QUIESCE.STATE = 2) ∧
    (sImage.checkSource 0 (sImage.source pf 0 []) ≠ 0 ∧ sImage.rd .a IMS.QUIESCE.STATE ≠ 2) := by
  repeat' apply And.intro
  all_goals decide +kernel

def sDrain : State :=
  let s := sImage.wr .a IMS.QUIESCE.STATE 1
  { s with ims := { s.ims with quietSince := some 0 } }
def sFloor : State := sImage.wrs .a [(IMS.VERSION.V, 1), (IMS.FEATURE_FLOOR.FLOOR, 1)]
def sFloorQuiet : State := sFloor.wr .a IMS.QUIESCE.STATE 2

theorem test_ControlRecordsTakeEffect_meets :
    ((sRec.wr .a IMS.CMD_STATUS.BUSY 1).imsWarden pf ∧ (sRec.wr .a IMS.CMD_STATUS.BUSY 1).rd .a IMS.CMD_STATUS.BUSY = 1) ∧
    ((sRec.wr .a IMS.TOKEN.OWNER_CLASS 1).rd .a IMS.CMD_STATUS.BUSY = 0 ∧ (sRec.wr .a IMS.TOKEN.OWNER_CLASS 1).mayHold pf = false) ∧
    (sRec2.rd .a IMS.CMD_STATUS.BUSY = 0 ∧ sRec2.mayHold pf = true ∧ (1 : Fin 4) ≠ 0 ∧ sRec2.store.owners ≠ []) ∧
    (sRec2.rd .a IMS.CMD_STATUS.BUSY = 0 ∧ sRec2.mayHold pf = true ∧ recordFormat (sRec2.source pf 0 recEpoch) 2 = false) ∧
    ({ sRec2 with store := { sRec2.store with control := 1 } }.rd .a IMS.CMD_STATUS.BUSY = 0 ∧ { sRec2 with store := { sRec2.store with control := 1 } }.mayHold pf = true ∧ recordFormat ({ sRec2 with store := { sRec2.store with control := 1 } }.source pf 0 recEpoch) 3 = true ∧ le recEpoch 16 16 = 0 ∧ { sRec2 with store := { sRec2.store with control := 1 } }.recordSigned recEpoch 3 = true ∧ le recEpoch 8 8 ≤ { sRec2 with store := { sRec2.store with control := 1 } }.store.control) ∧
    (sRec2.rd .a IMS.CMD_STATUS.BUSY = 0 ∧ sRec2.mayHold pf = true ∧ sRec2.source pf 0 recEnrol = recEnrol ∧ passes sRec2 recEnrol 1 = true ∧ subjectKey recEnrol ∈ sRec2.store.owners) ∧
    ({ sRec2 with store := { sRec2.store with minEpoch := 6 } }.rd .a IMS.CMD_STATUS.BUSY = 0 ∧ { sRec2 with store := { sRec2.store with minEpoch := 6 } }.mayHold pf = true ∧ passes { sRec2 with store := { sRec2.store with minEpoch := 6 } } recEpoch 3 = true ∧ le recEpoch 6 2 < { sRec2 with store := { sRec2.store with minEpoch := 6 } }.store.minEpoch) ∧
    (sRec2.rd .a IMS.CMD_STATUS.BUSY = 0 ∧ sRec2.mayHold pf = true ∧ passes sRec2 recPolicy 4 = true ∧ le recPolicy 5 1 ≠ (1 : Fin 4).val) ∧
    ((sIms 256 [some key1, none, none, none]).rd .a IMS.CMD_STATUS.BUSY = 0 ∧ (sIms 256 [some key1, none, none, none]).mayHold pf = true ∧ passes (sIms 256 [some key1, none, none, none]) recRevoke 2 = true ∧ (sIms 256 [some key1, none, none, none]).store.owners.find? (fun k => keyId k == cut recRevoke 32 16) = none) ∧
    (sRec.inv ∧ sRec.imsWarden pf ∧ sRec.rd .a IMS.CMD_STATUS.BUSY = 0 ∧ sRec.mayHold pf = true ∧ sRec.source pf 0 recEnrol = recEnrol ∧ passes sRec recEnrol 1 = true ∧ subjectKey recEnrol ∉ sRec.store.owners ∧ sRec.store.owners.length < 4) ∧
    (sRec2.source pf 0 recRevoke = recRevoke ∧ passes sRec2 recRevoke 2 = true ∧ sRec2.store.owners.find? (fun k => keyId k == cut recRevoke 32 16) = some key2 ∧ 1 < sRec2.store.owners.length) ∧
    (sRec2.source pf 0 recEpoch = recEpoch ∧ passes sRec2 recEpoch 3 = true ∧ sRec2.store.minEpoch ≤ le recEpoch 6 2) ∧
    (sRec2.store.owners ≠ [] ∧ sRec2.source pf 0 recPolicy = recPolicy ∧ passes sRec2 recPolicy 4 = true ∧ le recPolicy 5 1 = 2) ∧
    (sRec.store.owners = []) := by
  repeat' apply And.intro
  all_goals decide +kernel

theorem test_QuiesceFloorAndScrub_meets :
    (sImage.inv ∧ sImage.imsWarden pf ∧ sImage.rd .a IMS.QUIESCE.STATE = 0) ∧
    (sDrain.ims.quietSince = some 0 ∧ sDrain.rd .a IMS.QUIESCE.STATE = 1 ∧ sDrain.blocker = 0 ∧ 0 + 100000 ≤ sDrain.now ∧ sDrain.ims.lastArrival = none) ∧
    (sFloor.rd .a IMS.VERSION.V < 2 ∧ (0 < sFloor.rd .a IMS.FEATURE_FLOOR.FLOOR ∧ sFloor.rd .a IMS.QUIESCE.STATE ≠ 2)) ∧
    (0 ≤ sFloorQuiet.rd .a IMS.VERSION.V ∧ sFloorQuiet.rd .a IMS.QUIESCE.STATE = 2) ∧
    ({ sDrain with ims := { sDrain.ims with quietSince := some 999900001 } }.ims.quietSince = some 999900001 ∧ { sDrain with ims := { sDrain.ims with quietSince := some 999900001 } }.now < 999900001 + 100000) ∧
    ((sImage.wr .a IMS.SCRUB_STATUS.UNCORRECTABLE 0xFFFF).ims.scrubAt ≤ (sImage.wr .a IMS.SCRUB_STATUS.UNCORRECTABLE 0xFFFF).now) ∧
    ({ sImage with ims := { sImage.ims with scrubAt := 1000000001 } }.now < { sImage with ims := { sImage.ims with scrubAt := 1000000001 } }.ims.scrubAt) := by
  repeat' apply And.intro
  all_goals decide +kernel

def sScratch : State := s0.wr .a GLB.SCRATCH.DATA 0xF0F0
def sWquOn : State := s0.wr .b (HDR.STATUS.ENABLED 0x400000) 1
def f1 : Fn := ⟨2, 0⟩

theorem test_ViewsWriteAsTheySay_meets :
    sScratch.inv ∧ sScratch.barUp pf = true ∧ sScratch.hasBar0 pf = true ∧ sScratch.rd .a GLB.SCRATCH.DATA = (0xF0F0 : W64).toNat := by
  repeat' apply And.intro
  all_goals decide +kernel

theorem test_DisabledFieldsAreGuarded_meets :
    (s0.inv ∧ s0.barUp .svc = true ∧ s0.hasBar0 .svc = true ∧ s0.privileged .svc = true ∧ ¬ (s0.rd .b (HDR.STATUS.ENABLED 0x400000) = 1)) ∧
    (sWquOn.rd .b (HDR.STATUS.ENABLED 0x400000) = 1) ∧
    (s0.barUp (.fn f1) = true ∧ s0.hasBar0 (.fn f1) = true ∧ s0.privileged (.fn f1) = false) ∧
    (¬ (((4 : Fin 17).val = 4 ∨ (4 : Fin 17).val = 8) ∧ (0x12 : BitVec 27).toNat % (4 : Fin 17).val = 0)) := by
  repeat' apply And.intro
  all_goals decide +kernel

def sWquBusy : State := sWquOn.wr .b (HDR.CTRL.ENABLE 0x400000) 1
def sCounts : State := (s0.wrs .a [(DIKE.INGRESS_DROPS.COUNT, 7), (GLB.PRIV_VIOLATION_COUNT.COUNT, 3), (GLB.ABSENT_ACCESS_COUNT.COUNT, 2),
  (HP.HP_ERR.POISON_SENT 0, 5), (LNE.LOCK_LOSSES.COUNT 0, 4), (PCU.EV_COUNT.COUNT 0, 9)]).wr .a (DIKE.FN_POLDER.WARDEN 0) 1

def sPcuMid : State := (s0.wr .a (HDR.CTRL.ENABLE 0x3800000) 1).modDie .a (fun x => { x with win := { x.win with startAt := 7, startFt := 7 }, ft := { x.ft with ns := 9 } })
/-- Fields after a clear: those of some places at their reset values, the others as they were. -/
def cleared (l : List (Die × Fld)) (s t : State) : Bool := ((s.regs ++ t.regs).all (fun k => l.any (fun p => fkey p.1 p.2 == k.1) || tget s.regs k.1 == tget t.regs k.1)) && l.all (fun p => t.rd p.1 p.2 == p.2.rst)

theorem test_EnableAndDrain_meets :
    (s0.inv ∧ s0.warden .svc ∧ s0.blkThere .a .tru = true) ∧
    (sWquOn.rd .b (HDR.CTRL.ENABLE (blkBase .wqu)) = 0 ∧ sWquOn.drained .b .wqu = true) ∧
    (sWquBusy.rd .b (HDR.CTRL.ENABLE (blkBase .wqu)) = 1) := by
  repeat' apply And.intro
  all_goals decide +kernel

theorem test_CountersClear_meets :
    (sCounts.inv ∧ sCounts.warden .svc ∧ sCounts.countsThere .a (.blk .dike) = true) ∧
    (sCounts.inv ∧ sCounts.warden .svc ∧ sCounts.countsThere .a (.blk (.lne 0)) = true) ∧
    (sCounts.inv ∧ sCounts.warden .svc ∧ sCounts.countsThere .a .privViolations = true) ∧
    (sCounts.warden .svc ∧ sCounts.pcuOn .a = false) ∧
    (sPcuMid.warden .svc ∧ sPcuMid.pcuOn .a = true ∧ sPcuMid.ftNow .a < sPcuMid.winBoundary .a ∧ (sPcuMid.win .a).startAt ≠ sPcuMid.now) ∧
    (sCounts.dvsecOf pf 0 false = true) ∧
    (sCounts.dvsecOf pf 0 true = false) ∧
    (sCounts.barUp (.fn f1) = true ∧ sCounts.privileged (.fn f1) = false ∧ sCounts.countsThere .b (.blk .tru) = true) ∧
    ({ sCounts with part := .e }.countsThere .a .hag = false ∧ { sCounts with part := .e }.barUp pf = true) ∧
    ({ sCounts with running := some { s0.structureOf [] with params := { (s0.structureOf []).params with grouping := 4 } } }.blkThere .a (.llu 63) = false) := by
  repeat' apply And.intro
  all_goals decide +kernel

/-- A polder of die A, with functions bound to it. -/
def polder (id : Nat) (bound : List Nat) : Polder :=
  { id := id, closed := false, bound := bound, holdTimeout := 1000, weight := 1, windows := [], seed := 0 }
def tput1 (s : State) (d : Die) (i : Nat) (p : Polder) : State := s.modDie d (fun x => { x with polders := tput x.polders i p })
def arg (d : Die) (id a0 a1 : Nat) : State :=
  s0.wrs d [(DIKE.PT_POLDER.ID, id), (DIKE.PT_ARG0.ARG, a0), (DIKE.PT_ARG1.ARG, a1), (DIKE.PT_CAPACITY.ENTRIES, 2048)]
def sBusyPt : State := s0.wr .b DIKE.PT_STATUS.BUSY 1
def sReg : State := arg .b 0xFFFFF (1 + 65536) 0
def sFull : State := tput1 (arg .a 7 (1000 + 255 * 65536) 0 |>.wr .a DIKE.PT_CAPACITY.ENTRIES 1) .a 0 (polder 5 [])
def sDereg : State := tput1 (arg .a 5 0 0) .a 3 (polder 5 [])
def sAttr : State := tput1 (arg .a 5 (1000 + 255 * 65536) 0) .a 3 (polder 5 [])
def sWin : State := tput1 (arg .a 5 (7 + 16 + 65536) 0x20001) .a 3 (polder 5 [])
def sPtRead : State := tput1 (arg .a 5 8 0) .a 3 (polder 5 [])
def sBind : State := tput1 (arg .a 5 256 0) .a 3 (polder 5 [])
def sUnbind : State := (tput1 (arg .a 5 256 0) .a 3 (polder 5 [256])).wrs .a [(DIKE.FN_POLDER.POLDER 256, 5), (DIKE.FN_POLDER.BOUND 256, 1)]
def sBoth : State := tput1 (tput1 (arg .a 5 0 0) .a 3 (polder 5 [])) .b 0 { polder 5 [] with closed := true }

theorem test_PolderCommandsAreGuarded_meets :
    (sBusyPt.inv ∧ sBusyPt.barUp .svc = true ∧ sBusyPt.privileged .svc = true ∧ sBusyPt.rd .b DIKE.PT_STATUS.BUSY = 1) ∧
    (s0.inv ∧ s0.barUp pf = true ∧ s0.privileged pf = false) := by
  repeat' apply And.intro
  all_goals decide +kernel

theorem test_PolderTableCommands_meets :
    (sReg.inv ∧ sReg.warden .svc ∧ sReg.rd .b DIKE.PT_STATUS.BUSY = 0 ∧ sReg.ptPolder .b ≠ 0 ∧ sReg.polder? .b (sReg.ptPolder .b) = none ∧ freeKey (sReg.die .b).polders (sReg.rd .b DIKE.PT_CAPACITY.ENTRIES) 0 = some 0 ∧ attrOk (sReg.rd .b DIKE.PT_ARG0.ARG) = true) ∧
    (sFull.inv ∧ sFull.warden .svc ∧ sFull.rd .a DIKE.PT_STATUS.BUSY = 0 ∧ sFull.ptPolder .a ≠ 0 ∧ sFull.polder? .a (sFull.ptPolder .a) = none ∧ freeKey (sFull.die .a).polders (sFull.rd .a DIKE.PT_CAPACITY.ENTRIES) 0 = none) ∧
    (sDereg.inv ∧ sDereg.warden .svc ∧ sDereg.rd .a DIKE.PT_STATUS.BUSY = 0 ∧ sDereg.ptPolder .a ≠ 0 ∧ sDereg.polder? .a (sDereg.ptPolder .a) = some (3, polder 5 []) ∧ (polder 5 []).bound = []) ∧
    (sAttr.inv ∧ sAttr.warden .svc ∧ sAttr.rd .a DIKE.PT_STATUS.BUSY = 0 ∧ sAttr.ptPolder .a ≠ 0 ∧ sAttr.polder? .a (sAttr.ptPolder .a) = some (3, polder 5 []) ∧ attrOk (sAttr.rd .a DIKE.PT_ARG0.ARG) = true) ∧
    (sWin.inv ∧ sWin.warden .svc ∧ sWin.rd .a DIKE.PT_STATUS.BUSY = 0 ∧ sWin.ptPolder .a ≠ 0 ∧ sWin.polder? .a (sWin.ptPolder .a) = some (3, polder 5 []) ∧ (polder 5 []).id = sWin.ptPolder .a ∧ sWin.windowRange (argWindow (sWin.rd .a DIKE.PT_ARG0.ARG) (sWin.rd .a DIKE.PT_ARG1.ARG)) = true ∧ sWin.windowOverlap 5 (argWindow (sWin.rd .a DIKE.PT_ARG0.ARG) (sWin.rd .a DIKE.PT_ARG1.ARG)) = false) ∧
    (sPtRead.inv ∧ sPtRead.warden .svc ∧ sPtRead.rd .a DIKE.PT_STATUS.BUSY = 0 ∧ sPtRead.ptPolder .a ≠ 0 ∧ sPtRead.polder? .a (sPtRead.ptPolder .a) = some (3, polder 5 []) ∧ sPtRead.rd .a DIKE.PT_ARG0.ARG % 16 ≤ 8) := by
  repeat' apply And.intro
  all_goals decide +kernel

theorem test_PolderBindingAndQuarantine_meets :
    (sBind.inv ∧ sBind.warden .svc ∧ sBind.rd .a DIKE.PT_STATUS.BUSY = 0 ∧ sBind.ptPolder .a ≠ 0 ∧ sBind.polder? .a (sBind.ptPolder .a) = some (3, polder 5 []) ∧ (polder 5 []).id = sBind.ptPolder .a ∧ fnDie (argFn (sBind.rd .a DIKE.PT_ARG0.ARG)) = .a ∧ sBind.hpPresent (argFn (sBind.rd .a DIKE.PT_ARG0.ARG)).hp.val = true ∧ sBind.fnEnabled (argFn (sBind.rd .a DIKE.PT_ARG0.ARG)) = true ∧ sBind.polderOf (argFn (sBind.rd .a DIKE.PT_ARG0.ARG)) = none) ∧
    (sUnbind.inv ∧ sUnbind.warden .svc ∧ sUnbind.rd .a DIKE.PT_STATUS.BUSY = 0 ∧ sUnbind.ptPolder .a ≠ 0 ∧ sUnbind.polder? .a (sUnbind.ptPolder .a) = some (3, polder 5 [256]) ∧ fnDie (argFn (sUnbind.rd .a DIKE.PT_ARG0.ARG)) = .a ∧ fnIdx (argFn (sUnbind.rd .a DIKE.PT_ARG0.ARG)) ∈ [256] ∧ sUnbind.objectsLive (argFn (sUnbind.rd .a DIKE.PT_ARG0.ARG)) = false) ∧
    (sBoth.inv ∧ sBoth.warden .svc ∧ sBoth.rd .a DIKE.PT_STATUS.BUSY = 0 ∧ sBoth.ptPolder .a ≠ 0 ∧ sBoth.residentAny 5 = true ∧ sBoth.polder? .b 5 = some (0, { polder 5 [] with closed := true })) ∧
    ((5 : BitVec 20) ≠ 0 ∧ sBoth.residentAny (5 : BitVec 20).toNat = true) := by
  repeat' apply And.intro
  all_goals decide +kernel

/-- PF 0 of host port 0 is a warden, and BAR0 reaches all of device memory. -/
def sWard : State := s0.wrs .a [(DIKE.FN_POLDER.WARDEN 0, 1), (GLB.UNIT_ENABLED.UNITS, 0xFFFFFF), (PWC.DOM_STATE.STATE 31, 0)]
def sMem : State := { sWard with mem := [(0x1000, 5), (0x1007, 9)], poison := [0x1001] }
def hp (s : State) (h : Fin 4) (f : HostPort → HostPort) : State := s.modHp h f
def sHdm : State := hp sMem 1 (fun p => { p with cxl := true, hdmOn := true })
def sHold : State := { sWard.wr .a (HDR.STATUS.ENABLED 0x3E00000) 1 with mem := [(0x1000, 5)] }
def sHold64 : State := { sHold with waiters := List.replicate 64 ⟨0x1000, f0, 7⟩ }
def sWaiting : State := { sHold with waiters := [⟨0x1000, f0, 7⟩] }
def withHag (s : State) (g : Hag) : State := s.modHag .a (fun _ => g)
def owned (h : Fin 4) : SfEntry := ⟨some h, [], 0, 0⟩
def sRecall : State := withHag { sHdm with waiters := [⟨0x1000, f0, 7⟩] } ⟨[(0x40, owned 2)], [], [], []⟩
def sCo : State := hp sHdm 2 (fun p => { p with cxl := true, hdmOn := true })
def sOwned : State := withHag sCo ⟨[(0x40, owned 1)], [], [], []⟩
def sSnooped : State := withHag sCo ⟨[(0x40, ⟨none, [1, 2], 0, 0⟩)], [(0x40, { trackerNew with reqs := [⟨3, true, 0⟩], snoops := [1, 2], inv := true })], [], []⟩
/-- A read of PF 0 that waits at the tracker of line 0x40. -/
def devRead : DevAccess := ⟨some f0, true, 0, 0x1000, .read 8 [] false⟩
def sDwell : State := withHag sCo ⟨[(0x40, owned 1)], [(0x40, { trackerNew with dev := [devRead] })], [], []⟩

theorem test_HostAccessesReachMemory_meets :
    (sMem.inv ∧ sMem.barAddr f0 0x1000 8 .read = some 0x1000 ∧ (∀ i ∈ List.range 8, tget (sMem.hag (sMem.memDie (0x1000 + i))).trackers ((0x1000 + i) / 64) = none ∧ sMem.mustRecall (0x1000 + i) false = false ∧ (sMem.die (sMem.memDie (0x1000 + i))).dmem = [] ∧ sMem.memAwake (sMem.memDie (0x1000 + i)) = true ∧ sMem.memOff (sMem.memDie (0x1000 + i)) = false) ∧ tget sMem.hostQ f0.id = none) ∧
    (sMem.barAddr f0 0x1000 2 .write = some 0x1000 ∧ (∀ i ∈ List.range 2, tget (sMem.hag (sMem.memDie (0x1000 + i))).trackers ((0x1000 + i) / 64) = none ∧ sMem.mustRecall (0x1000 + i) true = false ∧ (sMem.die (sMem.memDie (0x1000 + i))).dmem = [] ∧ sMem.memAwake (sMem.memDie (0x1000 + i)) = true ∧ sMem.memOff (sMem.memDie (0x1000 + i)) = false) ∧ ∀ w ∈ sMem.waiters, w.addr ∉ wordsOf 0x1000 2) ∧
    (hostAtomicOk .fadd 8 = true ∧ (0x1000 : BitVec 40).toNat % 8 = 0 ∧ sMem.barAddr f0 0x1000 8 .atomic = some 0x1000 ∧ (∀ i ∈ List.range 8, tget (sMem.hag (sMem.memDie (0x1000 + i))).trackers ((0x1000 + i) / 64) = none ∧ sMem.mustRecall (0x1000 + i) true = false ∧ (sMem.die (sMem.memDie (0x1000 + i))).dmem = [] ∧ sMem.memAwake (sMem.memDie (0x1000 + i)) = true ∧ sMem.memOff (sMem.memDie (0x1000 + i)) = false) ∧ ∀ w ∈ sMem.waiters, w.addr ∉ wordsOf 0x1000 8) ∧
    ((sHdm.hp 1).hdmOn = true ∧ sHdm.usable (sHdm.hdmAddr 0x1000) 2 = true ∧ (∀ i ∈ List.range 2, tget (sHdm.hag (sHdm.memDie (sHdm.hdmAddr 0x1000 + i))).trackers ((sHdm.hdmAddr 0x1000 + i) / 64) = none ∧ sHdm.mustRecall (sHdm.hdmAddr 0x1000 + i) true = false ∧ (sHdm.die (sHdm.memDie (sHdm.hdmAddr 0x1000 + i))).dmem = [] ∧ sHdm.memAwake (sHdm.memDie (sHdm.hdmAddr 0x1000 + i)) = true ∧ sHdm.memOff (sHdm.memDie (sHdm.hdmAddr 0x1000 + i)) = false) ∧ ∀ w ∈ sHdm.waiters, w.addr ∉ wordsOf (sHdm.hdmAddr 0x1000) 2) ∧
    (sHdm.usable (sHdm.hdmAddr 0x1000) 1 = true ∧ (∀ i ∈ List.range 1, tget (sHdm.hag (sHdm.memDie (sHdm.hdmAddr 0x1000 + i))).trackers ((sHdm.hdmAddr 0x1000 + i) / 64) = none ∧ sHdm.mustRecall (sHdm.hdmAddr 0x1000 + i) false = false ∧ (sHdm.die (sHdm.memDie (sHdm.hdmAddr 0x1000 + i))).dmem = [] ∧ sHdm.memAwake (sHdm.memDie (sHdm.hdmAddr 0x1000 + i)) = true ∧ sHdm.memOff (sHdm.memDie (sHdm.hdmAddr 0x1000 + i)) = false)) := by
  repeat' apply And.intro
  all_goals decide +kernel

theorem test_WindowViolationsChangeNoMemory_meets :
    (s0.inv ∧ s0.barAddr f0 0x1000 3 .read = none) ∧
    (s0.barAddr f0 0x1000 1 .write = none) ∧
    (hostAtomicOk .cas 16 = true ∧ (0x1000 : BitVec 40).toNat % 16 = 0 ∧ s0.barAddr f0 0x1000 16 .atomic = none) ∧
    (s0.barAddr f0 0x1000 (max 8 1) .hold = none) ∧
    ((sHdm.hp (⟨1, 0⟩ : Fn).hp).hdmOn = true ∧ sHdm.usable (sHdm.hdmAddr 0xFFFFFFFFFF) 3 = false) := by
  repeat' apply And.intro
  all_goals decide +kernel

theorem test_HoldReadsAcquireOrWait_meets :
    (sHold.inv ∧ sHold.barAddr f0 0x2000 8 .hold = some 0x2000 ∧ (0x2000 : BitVec 40).toNat % 8 = 0 ∧ tget (sHold.hag (sHold.memDie 0x2000)).trackers (0x2000 / 64) = none ∧ sHold.mustRecall 0x2000 true = false ∧ (sHold.die (sHold.memDie 0x2000)).dmem = [] ∧ sHold.memAwake (sHold.memDie 0x2000) = true ∧ sHold.memOff (sHold.memDie 0x2000) = false ∧ tget sHold.hostQ f0.id = none ∧ sHold.holdOn (sHold.memDie 0x2000) = true ∧ sHold.mword 0x2000 = 0) ∧
    (sHold.inv ∧ sHold.barAddr f0 0x1000 8 .hold = some 0x1000 ∧ (0x1000 : BitVec 40).toNat % 8 = 0 ∧ tget (sHold.hag (sHold.memDie 0x1000)).trackers (0x1000 / 64) = none ∧ sHold.mustRecall 0x1000 true = false ∧ (sHold.die (sHold.memDie 0x1000)).dmem = [] ∧ sHold.memAwake (sHold.memDie 0x1000) = true ∧ sHold.memOff (sHold.memDie 0x1000) = false ∧ tget sHold.hostQ f0.id = none ∧ sHold.holdOn (sHold.memDie 0x1000) = true ∧ sHold.mword 0x1000 ≠ 0 ∧ ((sHold.waiters.filter (fun w => w.addr == 0x1000)).length < 64 ∧ sHold.slotsFull 0x1000 = false)) ∧
    (sMem.inv ∧ sMem.barAddr f0 0x1000 8 .hold = some 0x1000 ∧ (0x1000 : BitVec 40).toNat % 8 = 0 ∧ tget (sMem.hag (sMem.memDie 0x1000)).trackers (0x1000 / 64) = none ∧ sMem.mustRecall 0x1000 true = false ∧ (sMem.die (sMem.memDie 0x1000)).dmem = [] ∧ sMem.memAwake (sMem.memDie 0x1000) = true ∧ sMem.memOff (sMem.memDie 0x1000) = false ∧ tget sMem.hostQ f0.id = none ∧ sMem.holdOn (sMem.memDie 0x1000) = false) ∧
    (sHold64.inv ∧ sHold64.barAddr f0 0x1000 8 .hold = some 0x1000 ∧ (0x1000 : BitVec 40).toNat % 8 = 0 ∧ tget (sHold64.hag (sHold64.memDie 0x1000)).trackers (0x1000 / 64) = none ∧ sHold64.mustRecall 0x1000 true = false ∧ (sHold64.die (sHold64.memDie 0x1000)).dmem = [] ∧ sHold64.memAwake (sHold64.memDie 0x1000) = true ∧ sHold64.memOff (sHold64.memDie 0x1000) = false ∧ tget sHold64.hostQ f0.id = none ∧ sHold64.mword 0x1000 ≠ 0 ∧ ¬ ((sHold64.waiters.filter (fun w => w.addr == 0x1000)).length < 64 ∧ sHold64.slotsFull 0x1000 = false)) ∧
    (sHold.barAddr f0 0x1004 (max 8 1) .hold = some 0x1004 ∧ (0x1004 : BitVec 40).toNat % 8 ≠ 0) ∧
    (sWaiting.waiters.find? (fun w => w.fn == f0 && w.addr == (0x1000 : BitVec 40).toNat && decide (w.deadline ≤ sWaiting.now)) = some ⟨0x1000, f0, 7⟩) ∧
    (sRecall.waiters.any (fun w => w.addr / 64 == (0x1008 : BitVec 40).toNat / 64) = true ∧ tget (sRecall.hag (sRecall.memDie 0x1008)).trackers (0x1008 / 64) = none ∧ (sRecall.hag (sRecall.memDie 0x1008)).trackers.length < 1024 ∧ tget (sRecall.hag (sRecall.memDie 0x1008)).filter (0x1008 / 64) = some (owned 2) ∧ (owned 2).owner = some 2 ∧ dwelling sRecall (owned 2) [2] = false ∧ sRecall.recalledLately (0x1008 / 64) = false) ∧
    ({ sRecall with recallAt := [(0x40, 999999001)] }.waiters.any (fun w => w.addr / 64 == (0x1008 : BitVec 40).toNat / 64) = true ∧ tget ({ sRecall with recallAt := [(0x40, 999999001)] }.hag ({ sRecall with recallAt := [(0x40, 999999001)] }.memDie 0x1008)).trackers (0x1008 / 64) = none ∧ ({ sRecall with recallAt := [(0x40, 999999001)] }.hag ({ sRecall with recallAt := [(0x40, 999999001)] }.memDie 0x1008)).trackers.length < 1024 ∧ tget ({ sRecall with recallAt := [(0x40, 999999001)] }.hag ({ sRecall with recallAt := [(0x40, 999999001)] }.memDie 0x1008)).filter (0x1008 / 64) = some (owned 2) ∧ (owned 2).owner = some 2 ∧ dwelling { sRecall with recallAt := [(0x40, 999999001)] } (owned 2) [2] = false ∧ { sRecall with recallAt := [(0x40, 999999001)] }.recalledLately (0x1008 / 64) = true) := by
  repeat' apply And.intro
  all_goals decide +kernel

theorem test_HomeAgentKeepsLinesCoherent_meets :
    (sCo.inv ∧ sCo.coherent 1 = true ∧ sCo.usable (sCo.hdmAddr 0x1000) 64 = true ∧ sCo.hdmAddr 0x1000 % 64 = 0 ∧ tget (sCo.hag .a).trackers 0x40 = none ∧ (sCo.hag .a).trackers.length < 1024 ∧ tblWf (sCo.hag .a).trackers = true ∧ tget (sCo.hag .a).filter 0x40 = none ∧ recallList ⟨none, [], 0, 0⟩ true (some 1) = [] ∧ sfFull (sCo.hag .a).filter 0x40 = false ∧ (sCo.hag .a).input = [] ∧ (sCo.hag .a).waiting = []) ∧
    ((withHag sCo ⟨[(0x40, owned 2)], [], [], []⟩).inv ∧ (withHag sCo ⟨[(0x40, owned 2)], [], [], []⟩).coherent 1 = true ∧ (withHag sCo ⟨[(0x40, owned 2)], [], [], []⟩).usable ((withHag sCo ⟨[(0x40, owned 2)], [], [], []⟩).hdmAddr 0x1000) 64 = true ∧ (withHag sCo ⟨[(0x40, owned 2)], [], [], []⟩).hdmAddr 0x1000 % 64 = 0 ∧ tget ((withHag sCo ⟨[(0x40, owned 2)], [], [], []⟩).hag .a).trackers 0x40 = none ∧ ((withHag sCo ⟨[(0x40, owned 2)], [], [], []⟩).hag .a).trackers.length < 1024 ∧ tblWf ((withHag sCo ⟨[(0x40, owned 2)], [], [], []⟩).hag .a).trackers = true ∧ tget ((withHag sCo ⟨[(0x40, owned 2)], [], [], []⟩).hag .a).filter 0x40 = some (owned 2) ∧ recallList (owned 2) false (some 1) ≠ [] ∧ dwelling (withHag sCo ⟨[(0x40, owned 2)], [], [], []⟩) (owned 2) (recallList (owned 2) false (some 1)) = false) ∧
    (sOwned.coherent 1 = true ∧ tget (sOwned.hag .a).trackers 0x40 = none ∧ (sOwned.hag .a).waiting = [] ∧ ∀ w ∈ sOwned.waiters, w.addr ∉ wordsOf 0x1000 64) ∧
    (sSnooped.coherent 1 = true ∧ tget (sSnooped.hag .a).trackers 0x40 = some { trackerNew with reqs := [⟨3, true, 0⟩], snoops := [1, 2], inv := true } ∧ (1 : Fin 4) ∈ ([1, 2] : List (Fin 4)) ∧ ([1, 2] : List (Fin 4)).erase 1 ≠ []) ∧
    (sDwell.coherent 1 = true ∧ tget (sDwell.hag .a).trackers 0x40 = some { trackerNew with dev := [devRead] } ∧ tget (sDwell.hag .a).filter 0x40 = some (owned 1) ∧ (sDwell.hag .a).waiting = [] ∧ recallList (owned 1) (devWrites devRead) none ≠ [] ∧ dwelling sDwell (owned 1) (recallList (owned 1) (devWrites devRead) none) = false) := by
  repeat' apply And.intro
  all_goals decide +kernel

def sPort0 : State := hp s0 3 (fun p => { p with bifurcated := true, totalVfs := 255, perst := false, maxRate := 5 })
def sPort : State := (hp sPort0 3 (fun p => { p with link0 := { linkDown with training := true }, link1 := { linkDown with up := true, l1 := true } })).wr .a SVC.SVC_STATE.PHASE 10
def sPerst : State := (hp s0 3 (fun p => { p with perst := true })).wr .a SVC.SVC_STATE.PHASE 4
def sPtm : State := hp s0 3 (fun p => { p with link0 := { linkDown with up := true } })
def f3 : Fn := ⟨3, 5⟩
def ring0 : CRing :=
  { base := 0, log2 := 5, msixEn := false, vector := 0, written := 0, consumed := 0, reserved := 0, armed := false, resid := .held }
def sFlr : State :=
  let s := (hp s0 3 (fun p => { p with d3 := [5] })).wrs .a [(IMS.TOKEN.OWNER_CLASS, 3), (IMS.TOKEN.OWNER_FN, fnNum f3), (SVC.SVC_STATE.PHASE, 10)]
  { s with rings := [(ringKey (setKey f3 0) 1, ring0)], ctrs := [(ctrKey (setKey f3 0) 1, ⟨1, 0, 0, false, 0, .held, 0⟩)], waiters := [⟨0, f3, 0⟩] }
def sFlrUp : State := hp sFlr 3 (fun p => { p with perst := false })
def sCxl : State := hp sWard 0 (fun p => { p with cxl := true })
def sCxlNot : State := hp s0 0 (fun p => { p with cxl := true })
def sIde : State := hp s0 1 (fun p => { p with bifurcated := true, resp1 := { p.resp1 with sessions := [⟨9, true, 0⟩] } })

theorem test_HostPortEvents_meets :
    (sPort.inv ∧ sPort.hpPresent 3 = true ∧ (127 : BitVec 16).toNat ≤ (if (sPort.hp 3).bifurcated then min (sPort.hp 3).totalVfs 127 else (sPort.hp 3).totalVfs)) ∧
    ((if (sPort.hp 3).bifurcated then min (sPort.hp 3).totalVfs 127 else (sPort.hp 3).totalVfs) < (128 : BitVec 16).toNat) ∧
    (sPort.hpPresent 3 = true ∧ (sPort.hp 3).perst = false ∧ (sPort.hp 3).lost = false ∧ (sPort.hp 3).trainAt ≤ sPort.now ∧ (portLink (sPort.hp 3) false).training = true ∧ linkModeOk (sPort.hp 3) (linkRate (sPort.hp 3) (6 : Fin 8).val) (8 : Fin 17).val false = true) ∧
    (linkModeOk (sPort.hp 3) (linkRate (sPort.hp 3) (6 : Fin 8).val) (16 : Fin 17).val false = false) ∧
    (linkModeOk (sPort.hp 3) (linkRate (sPort.hp 3) (6 : Fin 8).val) (8 : Fin 17).val true = false) ∧
    ((sPort.hp 3).bifurcated = true) ∧
    (sPerst.hpPresent 3 = true ∧ sPerst.svc.pwrgood = true ∧ (sPerst.hp 3).perst = true ∧ (sPerst.hp 3).lost = false ∧ 4 ≤ sPerst.rd .a SVC.SVC_STATE.PHASE) ∧
    (State.reset.svc.pwrgood = false) ∧
    ((portLink (sPtm.hp 3) false).up = true) ∧
    ((portLink (sPort.hp 3) true).l1 = true) ∧
    ((sPtm.hp 3).link0.up = true) ∧
    ((sPerst.wr .a SVC.SVC_STATE.PHASE 3).hpPresent 3 = true ∧ (sPerst.wr .a SVC.SVC_STATE.PHASE 3).svc.pwrgood = true ∧ ((sPerst.wr .a SVC.SVC_STATE.PHASE 3).hp 3).perst = true ∧ (sPerst.wr .a SVC.SVC_STATE.PHASE 3).rd .a SVC.SVC_STATE.PHASE < 4) := by
  repeat' apply And.intro
  all_goals decide +kernel

theorem test_FunctionAndPortResets_meets :
    (sFlr.inv ∧ sFlr.rd .a IMS.TOKEN.OWNER_CLASS = 3 ∧ sFlr.rd .a IMS.TOKEN.OWNER_FN = fnNum f3) ∧
    (sFlrUp.hpPresent 3 = true ∧ sFlrUp.svc.pwrgood = true ∧ (sFlrUp.hp 3).perst = false ∧ 4 ≤ sFlrUp.rd .a SVC.SVC_STATE.PHASE) ∧
    ((sFlrUp.wr .a SVC.SVC_STATE.PHASE 3).hpPresent 3 = true ∧ ((sFlrUp.wr .a SVC.SVC_STATE.PHASE 3).hp 3).perst = false ∧ (sFlrUp.wr .a SVC.SVC_STATE.PHASE 3).perstSampled = false) ∧
    ((sPerst.hp 3).perst = true) := by
  repeat' apply And.intro
  all_goals decide +kernel

theorem test_HdmAndIde_meets :
    (sCxl.inv ∧ (sCxl.hp 0).cxl = true ∧ sCxl.isWarden ⟨0, 0⟩ = true ∧ sCxl.hagEnabled .a = true ∧ sCxl.hagEnabled .b = true) ∧
    ((sCxlNot.hp 0).cxl = true ∧ sCxlNot.isWarden ⟨0, 0⟩ = false) ∧
    (sIde.part ≠ .e ∧ (sIde.hp 1).cxl = false ∧ sIde.hpPresent 1 = true ∧ (sIde.hp 1).bifurcated = true ∧ (responder (sIde.hp 1) true).sessions.any (fun x => x.id == (9 : W32).toNat && x.finished) = true ∧ (sIde.hp 1).ide.find? (fun x => x.link == b2n true && x.stream == (4 : Fin 5).val) = none) := by
  repeat' apply And.intro
  all_goals decide +kernel

def sResp (r : Responder) : State := hp s0 0 (fun p => { p with resp0 := r })
def fresh : Responder := ⟨false, false, false, false, []⟩
def ready : Responder := ⟨true, true, true, false, [⟨1, false, 0⟩, ⟨2, true, 0⟩, ⟨3, true, 0⟩]⟩
def full : Responder := ⟨true, true, true, false, [⟨1, false, 0⟩, ⟨2, true, 0⟩, ⟨3, true, 0⟩, ⟨4, true, 0⟩]⟩

theorem test_SpdmRequestsAreAnswered_meets :
    ((sResp ready).inv ∧ (sResp ready).hpPresent 0 = true ∧ (responder ((sResp ready).hp 0) false).version = true) ∧
    ((sResp fresh).inv ∧ (sResp fresh).hpPresent 0 = true ∧ (responder ((sResp fresh).hp 0) false).version = false ∧ (responder ((sResp fresh).hp 0) false).caps = false ∧ (responder ((sResp fresh).hp 0) false).algs = false) ∧
    ((responder ((sResp { ready with algs := false }).hp 0) false).caps = true) ∧
    ((responder ((sResp ready).hp 0) false).algs = true ∧ (responder ((sResp ready).hp 0) false).sessions.all (fun x => x.id != (7 : W32).toNat) = true ∧ (responder ((sResp ready).hp 0) false).sessions.length < 4) ∧
    ((responder ((sResp full).hp 0) false).algs = true ∧ (responder ((sResp full).hp 0) false).sessions.all (fun x => x.id != (7 : W32).toNat) = true ∧ 4 ≤ (responder ((sResp full).hp 0) false).sessions.length) ∧
    ((responder ((sResp ready).hp 0) false).sessions.find? (fun y => y.id == (1 : W32).toNat) = some ⟨1, false, 0⟩ ∧ (responder ((sResp ready).hp 0) false).sessions.filter (fun y => y.id == (1 : W32).toNat) = [⟨1, false, 0⟩]) ∧
    ((responder ((sResp ready).hp 0) false).sessions.find? (fun y => y.id == (2 : W32).toNat) = some ⟨2, true, 0⟩ ∧ (responder ((sResp ready).hp 0) false).sessions.filter (fun y => y.id == (2 : W32).toNat) = [⟨2, true, 0⟩]) := by
  repeat' apply And.intro
  all_goals decide +kernel

/-- The ACTIVE queue 0 of set 0 of function 0, with its ring and its context block. -/
def queue0 : WQueue :=
  { st := .active, type := 0, flushDone := false, errStatus := 0, errWorkId := 0, errIndex := 0, base := 0x10000, log2 := 6, cq := 0, poll := false, interval := 1000, indexAddr := 0x20000, polder := 0, next := 0, producer := 0, consumer := 0, cache := [], asked := [], idxOut := false, idxMerged := false, retrySlot := 0, retries := 0, retryAt := 0, ops := [], pollAt := 0, resid := .held, lastUse := 0 }
def qc0 : QcPage := { qcZero with context := 0x30000, slot := 2 }
def sSet : State := { (sWard.wrs .a [(WQU.FN_SETS.SETS 0, 4), (HDR.CTRL.ENABLE 0x400000, 1)]) with qcs := [(0, qc0)] }
def sQ (q : WQueue) : State := { sSet with queues := [(0, q)], rings := [(0, { ring0 with base := 0x40000 })] }
/-- An operation of queue 0, with entry `e`. -/
def op0 (e : Nat) (st : Stage) : WOp := { opNew 0 0 (BitVec.ofNat 512 e) 0 with stage := st }
def sOp (q : WQueue) (o : WOp) : State := { sQ { q with ops := [7], next := 1, producer := 1 } with ops := [(7, o)], nextOp := 8 }
def sNoPolder : State := (sSet.wrs .a [(DIKE.FN_POLDER.WARDEN 0, 0)])
/-- A queue record and a ring record as a host writes them. -/
def qrec : BitVec 512 := BitVec.ofNat 512 (0x10000 + 6 * 2 ^ 64 + 1 * 2 ^ 72 + 1000 * 2 ^ 96 + 0x20000 * 2 ^ 128)
def rrec : BitVec 256 := BitVec.ofNat 256 (0x40000 + 6 * 2 ^ 64)
def sCtr : State := { sQ queue0 with ctrs := [(3, ⟨7, 5, 1, true, 0, .held, 0⟩)] }
def sTrig : State := (sOp { queue0 with type := 2 } (op0 (0x400 + 3 * 2 ^ 20 + 7 * 2 ^ 64) .waiting)).modDie .a (fun x => { x with trig := [0] }) |> fun s => { s with ctrs := sCtr.ctrs }

theorem test_QueuePagesAreGuarded_meets :
    (sSet.inv ∧ sSet.ingressOk f0 = true ∧ sSet.hasSet f0 4 = false) ∧
    (sNoPolder.inv ∧ sNoPolder.ingressOk f0 = false) := by
  repeat' apply And.intro
  all_goals decide +kernel

def sRing (w c : Nat) : State := { sSet with rings := [(1, { ring0 with written := w, consumed := c })] }

theorem test_QueuePageWrites_meets :
    ((sQ queue0).inv ∧ (sQ queue0).hasSet f0 0 = true ∧ (sQ queue0).ingressOk f0 = true ∧ (sQ queue0).queue (qKey (setKey f0 0) 0) = some queue0 ∧ queue0.st = .active ∧ queue0.idxOut = false) ∧
    ((12 : Nat) ≠ 4 ∧ (12 : Nat) ≠ 8) ∧
    (sCtr.context (setKey f0 0) ≠ 0) ∧
    ((sRing 5 3).ring (ringKey (setKey f0 0) 1) = some { ring0 with written := 5, consumed := 3 } ∧ sub32 (5 : W32).toNat 3 ≤ sub32 5 3) ∧
    (sub32 5 3 < sub32 (6 : W32).toNat 3) ∧
    (sSet.setIdle (setKey f0 0) = true) ∧
    ((sRing 5 3).setIdle (setKey f0 0) = false) := by
  repeat' apply And.intro
  all_goals decide +kernel

theorem test_FunctionSets_meets :
    (sSet.inv ∧ sSet.warden .svc ∧ (128 : Byte).toNat ≤ 128 ∧ (sSet.queues.any (fun p => setFn (p.1 / 8) == f0 && (128 : Byte).toNat ≤ p.1 / 8 % 128) || sSet.rings.any (fun p => setFn (p.1 / 4) == f0 && (128 : Byte).toNat ≤ p.1 / 4 % 128)) = false) ∧
    (128 < (129 : Byte).toNat) ∧
    (((sRing 1 1).queues.any (fun p => setFn (p.1 / 8) == f0 && (0 : Byte).toNat ≤ p.1 / 8 % 128) || (sRing 1 1).rings.any (fun p => setFn (p.1 / 4) == f0 && (0 : Byte).toNat ≤ p.1 / 4 % 128)) = true) ∧
    ((s0.wr .a (WQU.FN_SETS.SETS 0) 0).barUp (.fn f1) = true ∧ (s0.wr .a (WQU.FN_SETS.SETS 0) 0).privileged (.fn f1) = false) ∧
    (s0.barUp (.fn f3) = false) := by
  repeat' apply And.intro
  all_goals decide +kernel

/-- Queue 0 with a started NOP whose slot is 2. -/
def sStarted : State := sOp queue0 { op0 0 .started with index := 2 }

theorem test_QueueControlCommands_meets :
    ((sRing 0 0).inv ∧ (sRing 0 0).hasSet f0 0 = true ∧ (sRing 0 0).ingressOk f0 = true ∧ ((sRing 0 0).qc (setKey f0 0)).busy = false ∧ tblWf (sRing 0 0).queues = true ∧ tblWf (sRing 0 0).rings = true ∧ (sRing 0 0).qState (qKey (setKey f0 0) 7) = .reset ∧ (sRing 0 0).context (setKey f0 0) ≠ 0 ∧ queueRecordOk (qrec + BitVec.ofNat 512 (2 ^ 80)) = true ∧ ((sRing 0 0).ring (ringKey (setKey f0 0) (ef (qrec + BitVec.ofNat 512 (2 ^ 80)) 80 2))).isSome = true) ∧
    ((sQ { queue0 with st := .ready }).queue (qKey (setKey f0 0) 0) = some { queue0 with st := .ready } ∧ (queue0.poll = false ∨ (sQ { queue0 with st := .ready }).polledOn (setDie (setKey f0 0)) < 4096)) ∧
    ((sQ queue0).queue (qKey (setKey f0 0) 0) = some queue0 ∧ queue0.st = .active) ∧
    ((sOp { queue0 with st := .ready } (op0 0 .waiting)).queue (qKey (setKey f0 0) 0) = some { queue0 with st := .ready, ops := [7], next := 1, producer := 1 }) ∧
    ((3 : Fin 8).val ≤ 3 ∧ (sRing 0 0).ring (ringKey (setKey f0 0) 3) = none ∧ (sRing 0 0).context (setKey f0 0) ≠ 0 ∧ ringRecordOk f0 rrec = true) ∧
    (((sRing 0 0).ring (ringKey (setKey f0 0) 1)).isSome = true ∧ (∀ p ∈ (sRing 0 0).queues, ¬ (p.1 / 8 = setKey f0 0 ∧ p.2.cq = 1))) ∧
    (∀ p ∈ sCtr.queues, ¬ (p.1 / 8 = setKey f0 0 ∧ p.2.type = 2)) ∧
    ((sQ { queue0 with cache := [(2, none)] }).queue (qKey (setKey f0 0) 0) = some { queue0 with cache := [(2, none)] } ∧ queue0.st ≠ .error ∧ tblWf [(2, (none : Option (BitVec 512)))] = true ∧ (tget [(2, (none : Option (BitVec 512)))] ((sQ { queue0 with cache := [(2, none)] }).qc (setKey f0 0)).slot).isSome = true) ∧
    (sStarted.queue (qKey (setKey f0 0) 0) = some { queue0 with ops := [7], next := 1, producer := 1 } ∧ queue0.st ≠ .error ∧ tget queue0.cache (sStarted.qc (setKey f0 0)).slot = none ∧ [7].find? (fun i => match sStarted.op i with | some o => coversSlot o (sStarted.qc (setKey f0 0)).slot | none => false) = some 7 ∧ sStarted.op 7 = some { op0 0 .started with index := 2 } ∧ Stage.started ≠ .waiting) ∧
    (({ sQ queue0 with qcs := [(0, { qc0 with busy := true })] }.qc (setKey f0 0)).busy = true) := by
  repeat' apply And.intro
  all_goals decide +kernel

def qOut : WQueue := { queue0 with idxOut := true, asked := [(0, false)] }
def qRetry : WQueue := { queue0 with retryAt := 999999999, producer := 1, retrySlot := 0 }
def qPoll (at_ : Nat) : WQueue := { queue0 with poll := true, pollAt := at_ }
def qGone : WQueue := { queue0 with resid := .reading }
/-- The record of a queue as the device keeps it, with its check word. -/
def goodRec : BitVec 512 := let b := leBytes 60 5; BitVec.ofNat 512 (leNat (b ++ (sQ qGone).checkWord .a b))

theorem test_QueueReadsAndTimers_meets :
    ((sQ qOut).inv ∧ (sQ qOut).queue (qKey (setKey f0 0) 0) = some qOut ∧ qOut.idxOut = true ∧ (qOut.st = .active ∨ qOut.st = .error) ∧ sub32 (64 : W32).toNat qOut.consumer ≤ 2 ^ qOut.log2 ∧ sub32 (64 : W32).toNat qOut.next ≤ 2 ^ qOut.log2) ∧
    ((qOut.st = .active ∨ qOut.st = .error)) ∧
    ((sQ qRetry).fnClosed f0 = false ∧ (sQ qRetry).queue (qKey (setKey f0 0) 0) = some qRetry ∧ qRetry.retryAt ≠ 0 ∧ qRetry.retryAt ≤ (sQ qRetry).now ∧ (0 : W32).toNat = qRetry.retrySlot) ∧
    ((sQ (qPoll 0)).queue (qKey (setKey f0 0) 0) = some (qPoll 0) ∧ (sQ (qPoll 0)).fnClosed f0 = false ∧ (qPoll 0).st = .active ∧ (qPoll 0).idxOut = false ∧ (qPoll 0).pollAt + (sQ (qPoll 0)).pollGap (qPoll 0) (fnDie f0) ≤ (sQ (qPoll 0)).now) ∧
    ((sQ (qPoll 1000000000)).queue (qKey (setKey f0 0) 0) = some (qPoll 1000000000) ∧ (sQ (qPoll 1000000000)).now < (qPoll 1000000000).pollAt + (sQ (qPoll 1000000000)).pollGap (qPoll 1000000000) (fnDie f0)) ∧
    ((sQ qGone).queue (qKey (setKey f0 0) 0) = some qGone ∧ qGone.resid = .reading ∧ (sQ qGone).recordOk (setDie (setKey f0 0)) 64 (some goodRec) = true) ∧
    ((sQ qGone).recordOk (setDie (setKey f0 0)) 64 (some (goodRec + 1)) = false) ∧
    (sCtr.queue (qKey (setKey f0 0) 0) = some queue0 ∧ (sCtr.counter (ctrKey (setKey f0 0) 3)).dirty = true ∧ sCtr.context (setKey f0 0) ≠ 0 ∧ sCtr.fnClosed f0 = false ∧ ((sCtr.counter (ctrKey (setKey f0 0) 3)).recAt = 0 ∨ (sCtr.counter (ctrKey (setKey f0 0) 3)).recAt + 200 ≤ sCtr.now)) := by
  repeat' apply And.intro
  all_goals decide +kernel

def sNop : State := sOp queue0 (op0 0x400 .started)
def sAdd : State := { sOp queue0 (op0 (1 + 3 * 2 ^ 128 + 5 * 2 ^ 192) .started) with ctrs := sCtr.ctrs }
def qEnd : WQueue := { queue0 with ops := [7], next := 1, producer := 1 }
def sEnd : State := sOp queue0 { op0 (0x400 + 9 * 2 ^ 32) .ended with reserved := true, bytes := 12 }

theorem test_EntriesStartAndComplete_meets :
    (sNop.inv ∧ tblWf sNop.ops = true ∧ 7 < sNop.nextOp ∧ sNop.op 7 = some (op0 0x400 .started) ∧ eOpcode (op0 0x400 .started).entry = 0x00) ∧
    (sAdd.op 7 = some (op0 (1 + 3 * 2 ^ 128 + 5 * 2 ^ 192) .started) ∧ eOpcode (BitVec.ofNat 512 (1 + 3 * 2 ^ 128 + 5 * 2 ^ 192)) = 0x01 ∧ sAdd.context (0 / 8) ≠ 0) ∧
    (sEnd.op 7 = some { op0 (0x400 + 9 * 2 ^ 32) .ended with reserved := true, bytes := 12 } ∧ sEnd.queue 0 = some qEnd ∧ opOver { op0 (0x400 + 9 * 2 ^ 32) .ended with reserved := true, bytes := 12 } = true ∧ sEnd.canComplete 7 qEnd { op0 (0x400 + 9 * 2 ^ 32) .ended with reserved := true, bytes := 12 } (ringKey (0 / 8) qEnd.cq) = true) ∧
    (sTrig.op 7 = some (op0 (0x400 + 3 * 2 ^ 20 + 7 * 2 ^ 64) .waiting) ∧ sTrig.queue 0 = some { qEnd with type := 2 } ∧ (0 : Nat) = qKey (setKey f0 0) 0 ∧ sTrig.headOf { qEnd with type := 2 } = some (7, op0 (0x400 + 3 * 2 ^ 20 + 7 * 2 ^ 64) .waiting) ∧ sTrig.headMet 0 (op0 (0x400 + 3 * 2 ^ 20 + 7 * 2 ^ 64) .waiting) = true ∧ sTrig.canStart 0 7 { qEnd with type := 2 } (op0 (0x400 + 3 * 2 ^ 20 + 7 * 2 ^ 64) .waiting) = true ∧ 0 ∈ (sTrig.die (fnDie f0)).trig) ∧
    (((sTrig.modDie .a (fun x => { x with sweepAt := 999990001 })).die .a).sweepAt ≠ 0 ∧ (sTrig.modDie .a (fun x => { x with sweepAt := 999990001 })).now < ((sTrig.modDie .a (fun x => { x with sweepAt := 999990001 })).die .a).sweepAt + 10000) ∧
    ((sTrig.die .a).sweepAt = 0 ∨ (sTrig.die .a).sweepAt + 10000 ≤ sTrig.now) := by
  repeat' apply And.intro
  all_goals decide +kernel

def xNone : Xlu := (State.reset.die .a).xlu
/-- Die A's translation unit enabled, with the arguments of channel 2, and its tables. -/
def sX (a0 a1 a2 a3 : Nat) (f : Xlu → Xlu) : State :=
  (sWard.wrs .a [(HDR.STATUS.ENABLED 0x800000, 1), (HDR.CTRL.ENABLE 0x800000, 1), (XLU.TLB_CAP.ENTRIES, 1024), (XLU.X_ARG0.ARG 2, a0), (XLU.X_ARG1.ARG 2, a1), (XLU.X_ARG2.ARG 2, a2), (XLU.X_ARG3.ARG 2, a3)]).modXlu .a f
def space5 : Space := ⟨f0, 0, 1, 0x5000, 3⟩
def region4 : Region := ⟨true, 2, f0, 0, .hostBus, 31, false, 0x1000, 0x2000, 0, 0x9000, false⟩
def tr (tag : TrTag) (va level : Nat) : TrEntry := ⟨tag, va, 4096, 0x7000, true, true, false, false, level, 0⟩
def withSpace (x : Xlu) : Xlu :=
  { x with spaces := [(5, space5)], tlb := [tr (.space 5 3) 0x1000 0, tr (.space 5 3) 0x3000 0, tr (.space 6 0) 0x1000 0, tr (.ats 0 0) 0x1000 0], walkCache := [tr (.space 5 3) 0x1000 1, tr (.space 6 0) 0x1000 1] }
def withRegion (x : Xlu) : Xlu := { withSpace x with regions := [(0, region4)] }
def sXBusy : State := (sX 0 0 0 0 id).wr .a (XLU.X_STATUS.BUSY 2) 1
def sXRoom : State := sX (2 * 2 ^ 16) 0x1FFFFFFFFFFF000 0 0 id

theorem test_ChannelsAreGuarded_meets :
    (s0.inv ∧ s0.barUp pf = true ∧ s0.channelOk pf .b 2 = false) ∧
    (sXBusy.inv ∧ sXBusy.barUp pf = true ∧ sXBusy.channelOk pf .a 2 = true ∧ sXBusy.rd .a (XLU.X_STATUS.BUSY (2 : Fin 3).val) = 1) := by
  repeat' apply And.intro
  all_goals decide +kernel

def walk9 (level : Nat) : Walk := ⟨.space 5 3, f0, 0x40201000, level, 0x5000, 3, 0, false, false, 0, 0, false, none⟩

theorem test_SpacesAndRegions_meets :
    (sXRoom.inv ∧ sXRoom.barUp pf = true ∧ sXRoom.channelOk pf .a 2 = true ∧ sXRoom.rd .a (XLU.X_STATUS.BUSY (2 : Fin 3).val) = 0 ∧ sXRoom.rd .a (HDR.CTRL.ENABLE 0x800000) = 1 ∧ sXRoom.rd .a (HDR.STATUS.ENABLED 0x800000) = 1 ∧ tblWf (sXRoom.xlu .a).spaces = true ∧ tblWf (sXRoom.xlu .a).regions = true ∧ sXRoom.foreign pf (argFn (sXRoom.xArg .a 2 0)).hp = false ∧ sXRoom.fnOwns .a (argFn (sXRoom.xArg .a 2 0)) = true ∧ sXRoom.xArg .a 2 1 % 4096 = 0 ∧ sXRoom.xArg .a 2 1 < 2 ^ 57 ∧ freeKey (sXRoom.xlu .a).spaces 65535 1 = some 1) ∧
    ((sX 5 0 0 0 withRegion).inv ∧ (sX 5 0 0 0 withRegion).barUp pf = true ∧ (sX 5 0 0 0 withRegion).channelOk pf .a 2 = true ∧ (sX 5 0 0 0 withRegion).rd .a (XLU.X_STATUS.BUSY (2 : Fin 3).val) = 0 ∧ (sX 5 0 0 0 withRegion).rd .a (HDR.CTRL.ENABLE 0x800000) = 1 ∧ (sX 5 0 0 0 withRegion).rd .a (HDR.STATUS.ENABLED 0x800000) = 1 ∧ tblWf ((sX 5 0 0 0 withRegion).xlu .a).spaces = true ∧ tblWf ((sX 5 0 0 0 withRegion).xlu .a).regions = true ∧ tget ((sX 5 0 0 0 withRegion).xlu .a).spaces ((sX 5 0 0 0 withRegion).xArg .a 2 0 % 65536) = some space5 ∧ (sX 5 0 0 0 withRegion).foreign pf space5.owner.hp = false ∧ (∀ r ∈ ((sX 5 0 0 0 withRegion).xlu .a).regions, ¬ (r.2.live = true ∧ r.2.kind = .hostMapped ∧ r.2.space = (sX 5 0 0 0 withRegion).xArg .a 2 0 % 65536))) ∧
    ((sX (4096 + 65536 * 31) 0x1000 (2 ^ 48) 0x9000 (fun x => { x with regions := [(0, { region4 with live := false })] })).fnOwns .a (argFn ((sX (4096 + 65536 * 31) 0x1000 (2 ^ 48) 0x9000 (fun x => { x with regions := [(0, { region4 with live := false })] })).xArg .a 2 0)) = true ∧ (sX (4096 + 65536 * 31) 0x1000 (2 ^ 48) 0x9000 (fun x => { x with regions := [(0, { region4 with live := false })] })).xArg .a 2 0 / 4096 % 4 = 1 ∧ 0 < (sX (4096 + 65536 * 31) 0x1000 (2 ^ 48) 0x9000 (fun x => { x with regions := [(0, { region4 with live := false })] })).xArg .a 2 2 ∧ (sX (4096 + 65536 * 31) 0x1000 (2 ^ 48) 0x9000 (fun x => { x with regions := [(0, { region4 with live := false })] })).xArg .a 2 2 ≤ 2 ^ 48 ∧ (sX (4096 + 65536 * 31) 0x1000 (2 ^ 48) 0x9000 (fun x => { x with regions := [(0, { region4 with live := false })] })).xArg .a 2 3 < 2 ^ 57 ∧ (sX (4096 + 65536 * 31) 0x1000 (2 ^ 48) 0x9000 (fun x => { x with regions := [(0, { region4 with live := false })] })).xArg .a 2 0 / 2 ^ 32 % 65536 = 0 ∧ freeRegion ((sX (4096 + 65536 * 31) 0x1000 (2 ^ 48) 0x9000 (fun x => { x with regions := [(0, { region4 with live := false })] })).xlu .a).regions 1048576 0 = some 0) ∧
    ((sX 2 0 0 0 withRegion).region? .a ((sX 2 0 0 0 withRegion).xArg .a 2 0 % 2 ^ 32) = some region4 ∧ (sX 2 0 0 0 withRegion).foreign pf region4.owner.hp = false) ∧
    (¬ (((sX 5 0 0 0 withRegion).wr .a (HDR.CTRL.ENABLE 0x800000) 0).rd .a (HDR.CTRL.ENABLE 0x800000) = 1 ∧ ((sX 5 0 0 0 withRegion).wr .a (HDR.CTRL.ENABLE 0x800000) 0).rd .a (HDR.STATUS.ENABLED 0x800000) = 1)) := by
  repeat' apply And.intro
  all_goals decide +kernel

theorem test_InvalidationsRemove_meets :
    ((sX 5 0x1000 0x2000 0 withSpace).inv ∧ (sX 5 0x1000 0x2000 0 withSpace).barUp pf = true ∧ (sX 5 0x1000 0x2000 0 withSpace).channelOk pf .a 2 = true ∧ (sX 5 0x1000 0x2000 0 withSpace).rd .a (XLU.X_STATUS.BUSY (2 : Fin 3).val) = 0 ∧ (sX 5 0x1000 0x2000 0 withSpace).rd .a (HDR.CTRL.ENABLE 0x800000) = 1 ∧ (sX 5 0x1000 0x2000 0 withSpace).rd .a (HDR.STATUS.ENABLED 0x800000) = 1 ∧ (sX 5 0x1000 0x2000 0 withSpace).xArg .a 2 0 % 65536 ≠ 0 ∧ tget ((sX 5 0x1000 0x2000 0 withSpace).xlu .a).spaces ((sX 5 0x1000 0x2000 0 withSpace).xArg .a 2 0 % 65536) = some space5 ∧ (sX 5 0x1000 0x2000 0 withSpace).foreign pf space5.owner.hp = false) ∧
    (((sX 5 0x1000 0x2000 0 withSpace).xArg .a 2 1 % 4096 + (sX 5 0x1000 0x2000 0 withSpace).xArg .a 2 2 + 4095) / 4096 ≤ 4096) ∧
    (4096 < ((sX 5 0x1001 0x1000000 0 withSpace).xArg .a 2 1 % 4096 + (sX 5 0x1001 0x1000000 0 withSpace).xArg .a 2 2 + 4095) / 4096) ∧
    ((sX 0 0 0 0 withSpace).foreign pf (argFn ((sX 0 0 0 0 withSpace).xArg .a 2 0)).hp = false ∧ (sX 0 0 0 0 withSpace).fnOwns .a (argFn ((sX 0 0 0 0 withSpace).xArg .a 2 0)) = true ∧ invWaits (.fn (fnIdx (argFn ((sX 0 0 0 0 withSpace).xArg .a 2 0))) (spacesOf ((sX 0 0 0 0 withSpace).xlu .a) (argFn ((sX 0 0 0 0 withSpace).xArg .a 2 0)))) ((sX 0 0 0 0 withSpace).xlu .a) = []) ∧
    ((sX 0 0x1000 0x1000 0 withSpace).xArg .a 2 0 % 65536 = 0 ∧ (sX 0 0x1000 0x1000 0 withSpace).foreign pf (argFn ((sX 0 0x1000 0x1000 0 withSpace).xArg .a 2 0 / 2 ^ 32 % 2 ^ 10)).hp = false ∧ (sX 0 0x1000 0x1000 0 withSpace).fnOwns .a (argFn ((sX 0 0x1000 0x1000 0 withSpace).xArg .a 2 0 / 2 ^ 32 % 2 ^ 10)) = true) ∧
    (invWaits (.space 5) ((sX 5 0 0 0 (fun x => { withSpace x with walks := [(9, { walk9 1 with hit := true, discards := 4 })] })).xlu .a) ≠ []) ∧
    ((sX 0 0 0 0 withSpace).privileged pf = true) := by
  repeat' apply And.intro
  all_goals decide +kernel

def noWait (i : InvScope) (l : List Nat) : InvWait := ⟨i, none, l, []⟩
def sWalkOf (w : Walk) : State := sX 0 0 0 0 (fun x => { withSpace x with walks := [(9, w)], ats := [(4, ⟨f0, 0x1000, 0, false, 0, 0, false, false, false, []⟩)], tokens2 := [⟨6, noWait .all []⟩, ⟨7, noWait .all [9]⟩] })
def sWalk (level : Nat) : State := sWalkOf (walk9 level)
/-- The same without a token. -/
def sLeaf (level : Nat) : State := (sWalk level).modXlu .a (fun x => { x with tokens2 := [] })

theorem test_TranslationReturns_meets :
    ((sWalk 1).inv ∧ tblWf ((sWalk 1).xlu .a).walks = true ∧ tblWf ((sWalk 1).xlu .a).ats = true ∧ tget ((sWalk 1).xlu .a).walks 9 = some (walk9 1) ∧ (walk9 1).fault = none ∧ (walk9 1).hit = false) ∧
    ((0xFFFFFFFFFFFFFFFE : W64).toNat % 2 = 0) ∧
    (bitOf (0x11 : W64).toNat 0 = true ∧ pteBad (0x11 : W64).toNat (walk9 1).level = true) ∧
    ((sWalk 0).inv ∧ tblWf ((sWalk 0).xlu .a).walks = true ∧ tblWf ((sWalk 0).xlu .a).ats = true ∧ tget ((sWalk 0).xlu .a).walks 9 = some (walk9 0) ∧ (walk9 0).fault = none ∧ (walk9 0).hit = false ∧ bitOf (0x800D : W64).toNat 0 = true ∧ pteBad (0x800D : W64).toNat (walk9 0).level = false ∧ ((walk9 0).level = 0 ∨ bitOf (0x800D : W64).toNat 1 = true)) ∧
    ((sLeaf 0).inv ∧ tblWf ((sLeaf 0).xlu .a).walks = true ∧ tblWf ((sLeaf 0).xlu .a).ats = true ∧ tget ((sLeaf 0).xlu .a).walks 9 = some (walk9 0) ∧ (walk9 0).fault = none ∧ (walk9 0).hit = false ∧ bitOf (0x800D : W64).toNat 0 = true ∧ pteBad (0x800D : W64).toNat (walk9 0).level = false ∧ ((walk9 0).level = 0 ∨ bitOf (0x800D : W64).toNat 1 = true) ∧ ((sLeaf 0).xlu .a).atsInv = [] ∧ (∀ k ∈ chTokens ((sLeaf 0).xlu .a) 0 ++ chTokens ((sLeaf 0).xlu .a) 1 ++ chTokens ((sLeaf 0).xlu .a) 2, (9 : Nat) ∉ k.wait.walks)) ∧
    ((sLeaf 2).inv ∧ tblWf ((sLeaf 2).xlu .a).walks = true ∧ tblWf ((sLeaf 2).xlu .a).ats = true ∧ tget ((sLeaf 2).xlu .a).walks 9 = some (walk9 2) ∧ (walk9 2).fault = none ∧ (walk9 2).hit = false ∧ bitOf (0x4000000F : W64).toNat 0 = true ∧ pteBad (0x4000000F : W64).toNat (walk9 2).level = false ∧ ((walk9 2).level = 0 ∨ bitOf (0x4000000F : W64).toNat 1 = true) ∧ ((sLeaf 2).xlu .a).atsInv = [] ∧ (∀ k ∈ chTokens ((sLeaf 2).xlu .a) 0 ++ chTokens ((sLeaf 2).xlu .a) 1 ++ chTokens ((sLeaf 2).xlu .a) 2, (9 : Nat) ∉ k.wait.walks)) ∧
    (bitOf (0x8001 : W64).toNat 0 = true ∧ pteBad (0x8001 : W64).toNat (walk9 1).level = false ∧ ¬ ((walk9 1).level = 0 ∨ bitOf (0x8001 : W64).toNat 1 = true)) ∧
    (tget ((sWalkOf { walk9 1 with hit := true }).xlu .a).walks 9 = some { walk9 1 with hit := true } ∧ (walk9 1).fault = none ∧ (walk9 1).spec = false ∧ (walk9 1).tag = .space 5 3 ∧ tget ((sWalkOf { walk9 1 with hit := true }).xlu .a).spaces 5 = some space5) ∧
    (tget ((sWalk 1).xlu .a).ats 4 = some ⟨f0, 0x1000, 0, false, 0, 0, false, false, false, []⟩) ∧
    (fnDie f0 = .a ∧ (((sWalk 1).xlu .a).atsInv.filter (fun a => a.1 == f0)).length < 32 ∧ ((sWalk 1).xlu .a).atsInv = [] ∧ invWaits (.range (.ats 0 0) 0x1000 4096) ((sWalk 1).xlu .a) = [] ∧ (∀ e ∈ removed (.range (.ats 0 0) 0x1000 4096) ((sWalk 1).xlu .a), e.wrote = false) ∧ (sWalk 1).ownPending = false ∧ (sWalk 1).reads = []) ∧
    (32 ≤ ((((sWalk 1).modXlu .a (fun x => { x with atsInv := List.replicate 32 (f0, noWait .all [9]) })).xlu .a).atsInv.filter (fun a => a.1 == f0)).length) ∧
    (chTokens ((sWalk 1).xlu .a) (2 : Fin 3).val = ⟨6, noWait .all []⟩ :: [⟨7, noWait .all [9]⟩] ∧ (sWalk 1).invDone (noWait .all []) = true) ∧
    (((sWalk 1).modXlu .a (fun x => { x with tokens2 := [⟨7, noWait .all [9]⟩] })).invDone (noWait .all [9]) = false) := by
  repeat' apply And.intro
  all_goals decide +kernel

/-- A host-bus region of function 0 on die A under key 2, the match unit on, host port 0 up. -/
def sBase : State :=
  let s := (sSet.wrs .a [(HDR.CTRL.ENABLE 0xC00000, 1), (RTB.MY_FEA.GROUP, 1)]).modXlu .a (fun x => { x with regions := [(0, { region4 with polder := 0, length := 0x10000 })] })
  hp { s with rings := [(0, { ring0 with base := 0x40000 })] } 0 (fun p => { p with pfOn := true, link0 := { linkDown with up := true } })
/-- Operation 7 of queue `q` (0 a SEND queue, 1 a RECV queue) with entry `e`. -/
def opOf (q e : Nat) (st : Stage) : WOp := { op0 e st with q := q }
def sTm (q : Nat) (o : WOp) (f : Tmu → Tmu) : State :=
  { (sBase.modTmu .a f) with queues := [(0, { queue0 with ops := if q = 0 then [7] else [] }), (1, { queue0 with type := 1, ops := if q = 1 then [7] else [] })], ops := [(7, o)], nextOp := 8 }
def key5 : MKey := ⟨9, 77, 5, 0, false⟩
/-- An unexpected message of queue 1 that matches `key5`. -/
def ux0 (m : UxMode) : Ux :=
  { asn := 0, key := key5, len := 8, mode := m, home := 0, data := if m = .inline then [1, 2, 3, 4, 5, 6, 7, 8] else [], poison := false, got := 8, granules := if m = .stored then [0] else [], msgId := 4, fea := 77, fn := 0, hp := 0, sync := false, polder := 0, handle := none, taken := false, ctx := 0 }
def withUx (u : Ux) (t : Tmu) : Tmu := { t with uxs := [(1, [u])], asn := [(1, 1)] }
def post7 : Posted := ⟨0, key5, 7, 0⟩
def withPost (t : Tmu) : Tmu := { t with posts := [(1, [post7])] }

def sPosted : State := (sTm 1 (opOf 1 0x10000000000500000002000000000000000000000000000000050000004d0000000900000000000000000000000000000020 .started) (fun t => { t with posts := [(1, [⟨0, key5, 8, 0⟩])] })).wr .a TMU.TMU_CFG.POST_SHARE_PCT 0

def sCancel (e : Nat) : State :=
  let s := sTm 0 (opOf 0 e .started) (fun t => { t with posts := [(1, [⟨0, key5, 6, 0⟩])] })
  { s with ops := [(6, opOf 1 0x10000000000500000002000000000000000000000000000000050000004d0000000900000000000000000000000000000020 .running), (7, opOf 0 e .started)], queues := [(0, { queue0 with ops := [7] }), (1, { queue0 with type := 1, ops := [6] })] }
def same6 (s : State) (e : Nat) (p : Posted) : Bool := sameKey p.key (probeKey (BitVec.ofNat 512 e)) && (match s.op p.op with | some r => r.index == tpTarget (BitVec.ofNat 512 e) | none => false)

theorem test_MatchingEntries_meets :
    ((sTm 0 (opOf 0 0x443322110000001000000009ffffffffffffffff001480000000104100000000000000000000000000000010 .started) id).inv ∧ tblWf (sTm 0 (opOf 0 0x443322110000001000000009ffffffffffffffff001480000000104100000000000000000000000000000010 .started) id).ops = true ∧ 7 < (sTm 0 (opOf 0 0x443322110000001000000009ffffffffffffffff001480000000104100000000000000000000000000000010 .started) id).nextOp ∧ (sTm 0 (opOf 0 0x443322110000001000000009ffffffffffffffff001480000000104100000000000000000000000000000010 .started) id).startedOp 7 (· == opTSEND) = some (opOf 0 0x443322110000001000000009ffffffffffffffff001480000000104100000000000000000000000000000010 .started) ∧ tsInline (BitVec.ofNat 512 0x443322110000001000000009ffffffffffffffff001480000000104100000000000000000000000000000010) = true ∧ tsLength (BitVec.ofNat 512 0x443322110000001000000009ffffffffffffffff001480000000104100000000000000000000000000000010) ≤ 16) ∧
    ((sTm 0 (opOf 0 0x11000000000000000000000000000400000000000000000000000000000000000000000010 .started) id).inv ∧ tblWf (sTm 0 (opOf 0 0x11000000000000000000000000000400000000000000000000000000000000000000000010 .started) id).ops = true ∧ 7 < (sTm 0 (opOf 0 0x11000000000000000000000000000400000000000000000000000000000000000000000010 .started) id).nextOp ∧ (sTm 0 (opOf 0 0x11000000000000000000000000000400000000000000000000000000000000000000000010 .started) id).startedOp 7 (· == opTSEND) = some (opOf 0 0x11000000000000000000000000000400000000000000000000000000000000000000000010 .started) ∧ tsInline (BitVec.ofNat 512 0x11000000000000000000000000000400000000000000000000000000000000000000000010) = true ∧ 16 < tsLength (BitVec.ofNat 512 0x11000000000000000000000000000400000000000000000000000000000000000000000010)) ∧
    ((sTm 0 (opOf 0 0x1000000000000000000200000064000000000000000000000000000800000000104100000000000000000000000000000010 .started) id).inv ∧ tblWf (sTm 0 (opOf 0 0x1000000000000000000200000064000000000000000000000000000800000000104100000000000000000000000000000010 .started) id).ops = true ∧ 7 < (sTm 0 (opOf 0 0x1000000000000000000200000064000000000000000000000000000800000000104100000000000000000000000000000010 .started) id).nextOp ∧ (sTm 0 (opOf 0 0x1000000000000000000200000064000000000000000000000000000800000000104100000000000000000000000000000010 .started) id).startedOp 7 (· == opTSEND) = some (opOf 0 0x1000000000000000000200000064000000000000000000000000000800000000104100000000000000000000000000000010 .started) ∧ tsInline (BitVec.ofNat 512 0x1000000000000000000200000064000000000000000000000000000800000000104100000000000000000000000000000010) = false ∧ tsRndv (BitVec.ofNat 512 0x1000000000000000000200000064000000000000000000000000000800000000104100000000000000000000000000000010) = true ∧ ((sTm 0 (opOf 0 0x1000000000000000000200000064000000000000000000000000000800000000104100000000000000000000000000000010 .started) id).localRange .a f0 (eLkey (BitVec.ofNat 512 0x1000000000000000000200000064000000000000000000000000000800000000104100000000000000000000000000000010)) rLR (eLaddr (BitVec.ofNat 512 0x1000000000000000000200000064000000000000000000000000000800000000104100000000000000000000000000000010)) (tsLength (BitVec.ofNat 512 0x1000000000000000000200000064000000000000000000000000000800000000104100000000000000000000000000000010))).isOk = true) ∧
    (sPosted.inv ∧ tblWf sPosted.ops = true ∧ 7 < sPosted.nextOp ∧ sPosted.startedOp 7 (· == opTRECV) = some (opOf 1 0x10000000000500000002000000000000000000000000000000050000004d0000000900000000000000000000000000000020 .started) ∧ sPosted.tmuOn .a = true ∧ (sPosted.localRange .a f0 (eLkey (BitVec.ofNat 512 0x10000000000500000002000000000000000000000000000000050000004d0000000900000000000000000000000000000020)) rLW (eLaddr (BitVec.ofNat 512 0x10000000000500000002000000000000000000000000000000050000004d0000000900000000000000000000000000000020)) (trLength (BitVec.ofNat 512 0x10000000000500000002000000000000000000000000000000050000004d0000000900000000000000000000000000000020))).isOk = true ∧ sPosted.rd .a TMU.TMU_CFG.POST_SHARE_PCT * maxPosted / 100 ≤ sPosted.postedCount .a (some 0)) ∧
    ((sTm 1 (opOf 1 0x10000000000500000002000000000000000000000000000000050000004d0000000900000000000000000000000000000020 .started) id).inv ∧ tblWf (sTm 1 (opOf 1 0x10000000000500000002000000000000000000000000000000050000004d0000000900000000000000000000000000000020 .started) id).ops = true ∧ 7 < (sTm 1 (opOf 1 0x10000000000500000002000000000000000000000000000000050000004d0000000900000000000000000000000000000020 .started) id).nextOp ∧ (sTm 1 (opOf 1 0x10000000000500000002000000000000000000000000000000050000004d0000000900000000000000000000000000000020 .started) id).startedOp 7 (· == opTRECV) = some (opOf 1 0x10000000000500000002000000000000000000000000000000050000004d0000000900000000000000000000000000000020 .started) ∧ (sTm 1 (opOf 1 0x10000000000500000002000000000000000000000000000000050000004d0000000900000000000000000000000000000020 .started) id).tmuOn .a = true ∧ ((sTm 1 (opOf 1 0x10000000000500000002000000000000000000000000000000050000004d0000000900000000000000000000000000000020 .started) id).localRange .a f0 (eLkey (BitVec.ofNat 512 0x10000000000500000002000000000000000000000000000000050000004d0000000900000000000000000000000000000020)) rLW (eLaddr (BitVec.ofNat 512 0x10000000000500000002000000000000000000000000000000050000004d0000000900000000000000000000000000000020)) (trLength (BitVec.ofNat 512 0x10000000000500000002000000000000000000000000000000050000004d0000000900000000000000000000000000000020))).isOk = true ∧ (sTm 1 (opOf 1 0x10000000000500000002000000000000000000000000000000050000004d0000000900000000000000000000000000000020 .started) id).postedCount .a none < maxPosted ∧ (sTm 1 (opOf 1 0x10000000000500000002000000000000000000000000000000050000004d0000000900000000000000000000000000000020 .started) id).postedCount .a (some 0) < (sTm 1 (opOf 1 0x10000000000500000002000000000000000000000000000000050000004d0000000900000000000000000000000000000020 .started) id).rd .a TMU.TMU_CFG.POST_SHARE_PCT * maxPosted / 100 ∧ ((sTm 1 (opOf 1 0x10000000000500000002000000000000000000000000000000050000004d0000000900000000000000000000000000000020 .started) id).tmu .a).lookups.any (fun l => l.q == 1) = false ∧ ((sTm 1 (opOf 1 0x10000000000500000002000000000000000000000000000000050000004d0000000900000000000000000000000000000020 .started) id).lookCost .a 1 0 (recvKey (BitVec.ofNat 512 0x10000000000500000002000000000000000000000000000000050000004d0000000900000000000000000000000000000020)) false).2 = 0 ∧ (sTm 1 (opOf 1 0x10000000000500000002000000000000000000000000000000050000004d0000000900000000000000000000000000000020 .started) id).bestUx .a 1 (recvKey (BitVec.ofNat 512 0x10000000000500000002000000000000000000000000000000050000004d0000000900000000000000000000000000000020)) = none) ∧
    ((sTm 1 (opOf 1 0x10000000000500000002000000000000000000000000000000050000004d0000000900000000000000000000000000000020 .started) (withUx (ux0 .header))).inv ∧ tblWf (sTm 1 (opOf 1 0x10000000000500000002000000000000000000000000000000050000004d0000000900000000000000000000000000000020 .started) (withUx (ux0 .header))).ops = true ∧ 7 < (sTm 1 (opOf 1 0x10000000000500000002000000000000000000000000000000050000004d0000000900000000000000000000000000000020 .started) (withUx (ux0 .header))).nextOp ∧ (sTm 1 (opOf 1 0x10000000000500000002000000000000000000000000000000050000004d0000000900000000000000000000000000000020 .started) (withUx (ux0 .header))).startedOp 7 (· == opTRECV) = some (opOf 1 0x10000000000500000002000000000000000000000000000000050000004d0000000900000000000000000000000000000020 .started) ∧ (sTm 1 (opOf 1 0x10000000000500000002000000000000000000000000000000050000004d0000000900000000000000000000000000000020 .started) (withUx (ux0 .header))).tmuOn .a = true ∧ ((sTm 1 (opOf 1 0x10000000000500000002000000000000000000000000000000050000004d0000000900000000000000000000000000000020 .started) (withUx (ux0 .header))).localRange .a f0 (eLkey (BitVec.ofNat 512 0x10000000000500000002000000000000000000000000000000050000004d0000000900000000000000000000000000000020)) rLW (eLaddr (BitVec.ofNat 512 0x10000000000500000002000000000000000000000000000000050000004d0000000900000000000000000000000000000020)) (trLength (BitVec.ofNat 512 0x10000000000500000002000000000000000000000000000000050000004d0000000900000000000000000000000000000020))).isOk = true ∧ (sTm 1 (opOf 1 0x10000000000500000002000000000000000000000000000000050000004d0000000900000000000000000000000000000020 .started) (withUx (ux0 .header))).postedCount .a none < maxPosted ∧ (sTm 1 (opOf 1 0x10000000000500000002000000000000000000000000000000050000004d0000000900000000000000000000000000000020 .started) (withUx (ux0 .header))).postedCount .a (some 0) < (sTm 1 (opOf 1 0x10000000000500000002000000000000000000000000000000050000004d0000000900000000000000000000000000000020 .started) (withUx (ux0 .header))).rd .a TMU.TMU_CFG.POST_SHARE_PCT * maxPosted / 100 ∧ ((sTm 1 (opOf 1 0x10000000000500000002000000000000000000000000000000050000004d0000000900000000000000000000000000000020 .started) (withUx (ux0 .header))).tmu .a).lookups.any (fun l => l.q == 1) = false ∧ ((sTm 1 (opOf 1 0x10000000000500000002000000000000000000000000000000050000004d0000000900000000000000000000000000000020 .started) (withUx (ux0 .header))).lookCost .a 1 0 (recvKey (BitVec.ofNat 512 0x10000000000500000002000000000000000000000000000000050000004d0000000900000000000000000000000000000020)) false).2 = 0 ∧ (sTm 1 (opOf 1 0x10000000000500000002000000000000000000000000000000050000004d0000000900000000000000000000000000000020 .started) (withUx (ux0 .header))).bestUx .a 1 (recvKey (BitVec.ofNat 512 0x10000000000500000002000000000000000000000000000000050000004d0000000900000000000000000000000000000020)) = some (ux0 .header)) ∧
    ((sTm 1 (opOf 1 0x10000000000500000002000000000000000000000000000000050000004d0000000900000000000000000000000000000020 .started) (withUx (ux0 .stored))).bestUx .a 1 (recvKey (BitVec.ofNat 512 0x10000000000500000002000000000000000000000000000000050000004d0000000900000000000000000000000000000020)) = some (ux0 .stored)) ∧
    ((sTm 0 (opOf 0 0x50000004d0000000900000000000000000000000000000011 .started) id).inv ∧ tblWf (sTm 0 (opOf 0 0x50000004d0000000900000000000000000000000000000011 .started) id).ops = true ∧ 7 < (sTm 0 (opOf 0 0x50000004d0000000900000000000000000000000000000011 .started) id).nextOp ∧ (sTm 0 (opOf 0 0x50000004d0000000900000000000000000000000000000011 .started) id).startedOp 7 (· == opTPROBE) = some (opOf 0 0x50000004d0000000900000000000000000000000000000011 .started) ∧ (sTm 0 (opOf 0 0x50000004d0000000900000000000000000000000000000011 .started) id).probeQueue (opOf 0 0x50000004d0000000900000000000000000000000000000011 .started) = none) ∧
    ((sTm 0 (opOf 0 0x1000000000000000000000000000000060000004d0000000900000000000000000000000000000011 .started) (withUx (ux0 .inline))).inv ∧ tblWf (sTm 0 (opOf 0 0x1000000000000000000000000000000060000004d0000000900000000000000000000000000000011 .started) (withUx (ux0 .inline))).ops = true ∧ 7 < (sTm 0 (opOf 0 0x1000000000000000000000000000000060000004d0000000900000000000000000000000000000011 .started) (withUx (ux0 .inline))).nextOp ∧ (sTm 0 (opOf 0 0x1000000000000000000000000000000060000004d0000000900000000000000000000000000000011 .started) (withUx (ux0 .inline))).startedOp 7 (· == opTPROBE) = some (opOf 0 0x1000000000000000000000000000000060000004d0000000900000000000000000000000000000011 .started) ∧ (sTm 0 (opOf 0 0x1000000000000000000000000000000060000004d0000000900000000000000000000000000000011 .started) (withUx (ux0 .inline))).probeQueue (opOf 0 0x1000000000000000000000000000000060000004d0000000900000000000000000000000000000011 .started) = some 1 ∧ ((sTm 0 (opOf 0 0x1000000000000000000000000000000060000004d0000000900000000000000000000000000000011 .started) (withUx (ux0 .inline))).tmu .a).lookups.any (fun l => l.q == 1) = false ∧ ((sTm 0 (opOf 0 0x1000000000000000000000000000000060000004d0000000900000000000000000000000000000011 .started) (withUx (ux0 .inline))).lookCost .a 1 0 (probeKey (BitVec.ofNat 512 0x1000000000000000000000000000000060000004d0000000900000000000000000000000000000011)) false).2 = 0 ∧ (sTm 0 (opOf 0 0x1000000000000000000000000000000060000004d0000000900000000000000000000000000000011 .started) (withUx (ux0 .inline))).bestUx .a 1 (probeKey (BitVec.ofNat 512 0x1000000000000000000000000000000060000004d0000000900000000000000000000000000000011)) = none) ∧
    ((sTm 0 (opOf 0 0x1000000000000000000000000000000050000004d0000000900000000000000000000000000000011 .started) (withUx (ux0 .inline))).inv ∧ tblWf (sTm 0 (opOf 0 0x1000000000000000000000000000000050000004d0000000900000000000000000000000000000011 .started) (withUx (ux0 .inline))).ops = true ∧ 7 < (sTm 0 (opOf 0 0x1000000000000000000000000000000050000004d0000000900000000000000000000000000000011 .started) (withUx (ux0 .inline))).nextOp ∧ (sTm 0 (opOf 0 0x1000000000000000000000000000000050000004d0000000900000000000000000000000000000011 .started) (withUx (ux0 .inline))).startedOp 7 (· == opTPROBE) = some (opOf 0 0x1000000000000000000000000000000050000004d0000000900000000000000000000000000000011 .started) ∧ (sTm 0 (opOf 0 0x1000000000000000000000000000000050000004d0000000900000000000000000000000000000011 .started) (withUx (ux0 .inline))).probeQueue (opOf 0 0x1000000000000000000000000000000050000004d0000000900000000000000000000000000000011 .started) = some 1 ∧ ((sTm 0 (opOf 0 0x1000000000000000000000000000000050000004d0000000900000000000000000000000000000011 .started) (withUx (ux0 .inline))).tmu .a).lookups.any (fun l => l.q == 1) = false ∧ ((sTm 0 (opOf 0 0x1000000000000000000000000000000050000004d0000000900000000000000000000000000000011 .started) (withUx (ux0 .inline))).lookCost .a 1 0 (probeKey (BitVec.ofNat 512 0x1000000000000000000000000000000050000004d0000000900000000000000000000000000000011)) false).2 = 0 ∧ (sTm 0 (opOf 0 0x1000000000000000000000000000000050000004d0000000900000000000000000000000000000011 .started) (withUx (ux0 .inline))).bestUx .a 1 (probeKey (BitVec.ofNat 512 0x1000000000000000000000000000000050000004d0000000900000000000000000000000000000011)) = some (ux0 .inline)) ∧
    ((sTm 0 (opOf 0 0x50000004d0000000900000000000000000000000000000012 .started) id).inv ∧ tblWf (sTm 0 (opOf 0 0x50000004d0000000900000000000000000000000000000012 .started) id).ops = true ∧ 7 < (sTm 0 (opOf 0 0x50000004d0000000900000000000000000000000000000012 .started) id).nextOp ∧ (sTm 0 (opOf 0 0x50000004d0000000900000000000000000000000000000012 .started) id).startedOp 7 (· == opTMPROBE) = some (opOf 0 0x50000004d0000000900000000000000000000000000000012 .started) ∧ (sTm 0 (opOf 0 0x50000004d0000000900000000000000000000000000000012 .started) id).probeQueue (opOf 0 0x50000004d0000000900000000000000000000000000000012 .started) = none) ∧
    ((sTm 0 (opOf 0 0x1000000000000000000000000000000060000004d0000000900000000000000000000000000000012 .started) (withUx (ux0 .inline))).inv ∧ tblWf (sTm 0 (opOf 0 0x1000000000000000000000000000000060000004d0000000900000000000000000000000000000012 .started) (withUx (ux0 .inline))).ops = true ∧ 7 < (sTm 0 (opOf 0 0x1000000000000000000000000000000060000004d0000000900000000000000000000000000000012 .started) (withUx (ux0 .inline))).nextOp ∧ (sTm 0 (opOf 0 0x1000000000000000000000000000000060000004d0000000900000000000000000000000000000012 .started) (withUx (ux0 .inline))).startedOp 7 (· == opTMPROBE) = some (opOf 0 0x1000000000000000000000000000000060000004d0000000900000000000000000000000000000012 .started) ∧ (sTm 0 (opOf 0 0x1000000000000000000000000000000060000004d0000000900000000000000000000000000000012 .started) (withUx (ux0 .inline))).probeQueue (opOf 0 0x1000000000000000000000000000000060000004d0000000900000000000000000000000000000012 .started) = some 1 ∧ ((sTm 0 (opOf 0 0x1000000000000000000000000000000060000004d0000000900000000000000000000000000000012 .started) (withUx (ux0 .inline))).tmu .a).lookups.any (fun l => l.q == 1) = false ∧ ((sTm 0 (opOf 0 0x1000000000000000000000000000000060000004d0000000900000000000000000000000000000012 .started) (withUx (ux0 .inline))).lookCost .a 1 0 (probeKey (BitVec.ofNat 512 0x1000000000000000000000000000000060000004d0000000900000000000000000000000000000012)) false).2 = 0 ∧ (sTm 0 (opOf 0 0x1000000000000000000000000000000060000004d0000000900000000000000000000000000000012 .started) (withUx (ux0 .inline))).bestUx .a 1 (probeKey (BitVec.ofNat 512 0x1000000000000000000000000000000060000004d0000000900000000000000000000000000000012)) = none) ∧
    ((sTm 0 (opOf 0 0x1000000000000000000000000000000050000004d0000000900000000000000000000000000000012 .started) (withUx (ux0 .inline))).inv ∧ tblWf (sTm 0 (opOf 0 0x1000000000000000000000000000000050000004d0000000900000000000000000000000000000012 .started) (withUx (ux0 .inline))).ops = true ∧ 7 < (sTm 0 (opOf 0 0x1000000000000000000000000000000050000004d0000000900000000000000000000000000000012 .started) (withUx (ux0 .inline))).nextOp ∧ (sTm 0 (opOf 0 0x1000000000000000000000000000000050000004d0000000900000000000000000000000000000012 .started) (withUx (ux0 .inline))).startedOp 7 (· == opTMPROBE) = some (opOf 0 0x1000000000000000000000000000000050000004d0000000900000000000000000000000000000012 .started) ∧ (sTm 0 (opOf 0 0x1000000000000000000000000000000050000004d0000000900000000000000000000000000000012 .started) (withUx (ux0 .inline))).probeQueue (opOf 0 0x1000000000000000000000000000000050000004d0000000900000000000000000000000000000012 .started) = some 1 ∧ ((sTm 0 (opOf 0 0x1000000000000000000000000000000050000004d0000000900000000000000000000000000000012 .started) (withUx (ux0 .inline))).tmu .a).lookups.any (fun l => l.q == 1) = false ∧ ((sTm 0 (opOf 0 0x1000000000000000000000000000000050000004d0000000900000000000000000000000000000012 .started) (withUx (ux0 .inline))).lookCost .a 1 0 (probeKey (BitVec.ofNat 512 0x1000000000000000000000000000000050000004d0000000900000000000000000000000000000012)) false).2 = 0 ∧ (sTm 0 (opOf 0 0x1000000000000000000000000000000050000004d0000000900000000000000000000000000000012 .started) (withUx (ux0 .inline))).bestUx .a 1 (probeKey (BitVec.ofNat 512 0x1000000000000000000000000000000050000004d0000000900000000000000000000000000000012)) = some (ux0 .inline)) ∧
    ((sTm 1 (opOf 1 0x1000000000050000000200000000000000000000000000000000000000000000000300000000000000000000000000000021 .started) (withUx (ux0 .inline))).inv ∧ tblWf (sTm 1 (opOf 1 0x1000000000050000000200000000000000000000000000000000000000000000000300000000000000000000000000000021 .started) (withUx (ux0 .inline))).ops = true ∧ 7 < (sTm 1 (opOf 1 0x1000000000050000000200000000000000000000000000000000000000000000000300000000000000000000000000000021 .started) (withUx (ux0 .inline))).nextOp ∧ (sTm 1 (opOf 1 0x1000000000050000000200000000000000000000000000000000000000000000000300000000000000000000000000000021 .started) (withUx (ux0 .inline))).startedOp 7 (· == opTMRECV) = some (opOf 1 0x1000000000050000000200000000000000000000000000000000000000000000000300000000000000000000000000000021 .started) ∧ (sTm 1 (opOf 1 0x1000000000050000000200000000000000000000000000000000000000000000000300000000000000000000000000000021 .started) (withUx (ux0 .inline))).tmuOn .a = true ∧ ((sTm 1 (opOf 1 0x1000000000050000000200000000000000000000000000000000000000000000000300000000000000000000000000000021 .started) (withUx (ux0 .inline))).localRange .a f0 (eLkey (BitVec.ofNat 512 0x1000000000050000000200000000000000000000000000000000000000000000000300000000000000000000000000000021)) rLW (eLaddr (BitVec.ofNat 512 0x1000000000050000000200000000000000000000000000000000000000000000000300000000000000000000000000000021)) (trLength (BitVec.ofNat 512 0x1000000000050000000200000000000000000000000000000000000000000000000300000000000000000000000000000021))).isOk = true ∧ (∀ x ∈ (sTm 1 (opOf 1 0x1000000000050000000200000000000000000000000000000000000000000000000300000000000000000000000000000021 .started) (withUx (ux0 .inline))).uxsOf .a 1, x.handle ≠ some (tmHandle (BitVec.ofNat 512 0x1000000000050000000200000000000000000000000000000000000000000000000300000000000000000000000000000021)))) ∧
    ((sTm 1 (opOf 1 0x1000000000050000000200000000000000000000000000000000000000000000000300000000000000000000000000000021 .started) (withUx { ux0 .inline with handle := some 3 })).inv ∧ tblWf (sTm 1 (opOf 1 0x1000000000050000000200000000000000000000000000000000000000000000000300000000000000000000000000000021 .started) (withUx { ux0 .inline with handle := some 3 })).ops = true ∧ 7 < (sTm 1 (opOf 1 0x1000000000050000000200000000000000000000000000000000000000000000000300000000000000000000000000000021 .started) (withUx { ux0 .inline with handle := some 3 })).nextOp ∧ (sTm 1 (opOf 1 0x1000000000050000000200000000000000000000000000000000000000000000000300000000000000000000000000000021 .started) (withUx { ux0 .inline with handle := some 3 })).startedOp 7 (· == opTMRECV) = some (opOf 1 0x1000000000050000000200000000000000000000000000000000000000000000000300000000000000000000000000000021 .started) ∧ (sTm 1 (opOf 1 0x1000000000050000000200000000000000000000000000000000000000000000000300000000000000000000000000000021 .started) (withUx { ux0 .inline with handle := some 3 })).tmuOn .a = true ∧ ((sTm 1 (opOf 1 0x1000000000050000000200000000000000000000000000000000000000000000000300000000000000000000000000000021 .started) (withUx { ux0 .inline with handle := some 3 })).localRange .a f0 (eLkey (BitVec.ofNat 512 0x1000000000050000000200000000000000000000000000000000000000000000000300000000000000000000000000000021)) rLW (eLaddr (BitVec.ofNat 512 0x1000000000050000000200000000000000000000000000000000000000000000000300000000000000000000000000000021)) (trLength (BitVec.ofNat 512 0x1000000000050000000200000000000000000000000000000000000000000000000300000000000000000000000000000021))).isOk = true ∧ (opOf 1 0x1000000000050000000200000000000000000000000000000000000000000000000300000000000000000000000000000021 .started).force = none ∧ ({ ux0 .inline with handle := some 3 } : Ux).len ≤ ({ ux0 .inline with handle := some 3 } : Ux).got ∧ ((sTm 1 (opOf 1 0x1000000000050000000200000000000000000000000000000000000000000000000300000000000000000000000000000021 .started) (withUx { ux0 .inline with handle := some 3 })).uxsOf .a 1).find? (fun x => x.asn == 0) = some { ux0 .inline with handle := some 3 } ∧ ((sTm 1 (opOf 1 0x1000000000050000000200000000000000000000000000000000000000000000000300000000000000000000000000000021 .started) (withUx { ux0 .inline with handle := some 3 })).tmu .a).copies = [] ∧ ((sTm 1 (opOf 1 0x1000000000050000000200000000000000000000000000000000000000000000000300000000000000000000000000000021 .started) (withUx { ux0 .inline with handle := some 3 })).uxsOf .a 1).find? (fun u => u.handle == some (tmHandle (BitVec.ofNat 512 0x1000000000050000000200000000000000000000000000000000000000000000000300000000000000000000000000000021))) = some { ux0 .inline with handle := some 3 } ∧ (((sTm 1 (opOf 1 0x1000000000050000000200000000000000000000000000000000000000000000000300000000000000000000000000000021 .started) (withUx { ux0 .inline with handle := some 3 })).keepUx .a 1 7 { ux0 .inline with handle := some 3 }).deliver .a (opOf 1 0x1000000000050000000200000000000000000000000000000000000000000000000300000000000000000000000000000021 .started) 0 [1, 2, 3, 4, 5, 6, 7, 8] false).2 = .data [] false) ∧
    ((sTm 1 (opOf 1 0x1000000000050000000200000000000000000000000000000000000000000000000300000000000000000000000000000021 .started) (withUx { ux0 .stored with handle := some 3 })).inv ∧ tblWf (sTm 1 (opOf 1 0x1000000000050000000200000000000000000000000000000000000000000000000300000000000000000000000000000021 .started) (withUx { ux0 .stored with handle := some 3 })).ops = true ∧ 7 < (sTm 1 (opOf 1 0x1000000000050000000200000000000000000000000000000000000000000000000300000000000000000000000000000021 .started) (withUx { ux0 .stored with handle := some 3 })).nextOp ∧ (sTm 1 (opOf 1 0x1000000000050000000200000000000000000000000000000000000000000000000300000000000000000000000000000021 .started) (withUx { ux0 .stored with handle := some 3 })).startedOp 7 (· == opTMRECV) = some (opOf 1 0x1000000000050000000200000000000000000000000000000000000000000000000300000000000000000000000000000021 .started) ∧ (sTm 1 (opOf 1 0x1000000000050000000200000000000000000000000000000000000000000000000300000000000000000000000000000021 .started) (withUx { ux0 .stored with handle := some 3 })).tmuOn .a = true ∧ ((sTm 1 (opOf 1 0x1000000000050000000200000000000000000000000000000000000000000000000300000000000000000000000000000021 .started) (withUx { ux0 .stored with handle := some 3 })).localRange .a f0 (eLkey (BitVec.ofNat 512 0x1000000000050000000200000000000000000000000000000000000000000000000300000000000000000000000000000021)) rLW (eLaddr (BitVec.ofNat 512 0x1000000000050000000200000000000000000000000000000000000000000000000300000000000000000000000000000021)) (trLength (BitVec.ofNat 512 0x1000000000050000000200000000000000000000000000000000000000000000000300000000000000000000000000000021))).isOk = true ∧ ((sTm 1 (opOf 1 0x1000000000050000000200000000000000000000000000000000000000000000000300000000000000000000000000000021 .started) (withUx { ux0 .stored with handle := some 3 })).uxsOf .a 1).find? (fun u => u.handle == some (tmHandle (BitVec.ofNat 512 0x1000000000050000000200000000000000000000000000000000000000000000000300000000000000000000000000000021))) = some { ux0 .stored with handle := some 3 }) ∧
    ((sCancel 0x13).inv ∧ tblWf (sCancel 0x13).ops = true ∧ 7 < (sCancel 0x13).nextOp ∧ (sCancel 0x13).startedOp 7 (· == opTCANCEL) = some (opOf 0 0x13 .started) ∧ (sCancel 0x13).probeQueue (opOf 0 0x13 .started) = none) ∧
    ((sCancel 0x200000001000000000000000000000000000000050000004d0000000900000000000000000000000000000013).inv ∧ tblWf (sCancel 0x200000001000000000000000000000000000000050000004d0000000900000000000000000000000000000013).ops = true ∧ 7 < (sCancel 0x200000001000000000000000000000000000000050000004d0000000900000000000000000000000000000013).nextOp ∧ (sCancel 0x200000001000000000000000000000000000000050000004d0000000900000000000000000000000000000013).startedOp 7 (· == opTCANCEL) = some (opOf 0 0x200000001000000000000000000000000000000050000004d0000000900000000000000000000000000000013 .started) ∧ (sCancel 0x200000001000000000000000000000000000000050000004d0000000900000000000000000000000000000013).probeQueue (opOf 0 0x200000001000000000000000000000000000000050000004d0000000900000000000000000000000000000013 .started) = some 1 ∧ ((sCancel 0x200000001000000000000000000000000000000050000004d0000000900000000000000000000000000000013).tmu .a).lookups.any (fun l => l.q == 1) = false ∧ ((sCancel 0x200000001000000000000000000000000000000050000004d0000000900000000000000000000000000000013).postsOf .a 1).find? (same6 (sCancel 0x200000001000000000000000000000000000000050000004d0000000900000000000000000000000000000013) 0x200000001000000000000000000000000000000050000004d0000000900000000000000000000000000000013) = none) ∧
    ((sCancel 0x1000000000000000000000000000000050000004d0000000900000000000000000000000000000013).inv ∧ tblWf (sCancel 0x1000000000000000000000000000000050000004d0000000900000000000000000000000000000013).ops = true ∧ 7 < (sCancel 0x1000000000000000000000000000000050000004d0000000900000000000000000000000000000013).nextOp ∧ (sCancel 0x1000000000000000000000000000000050000004d0000000900000000000000000000000000000013).startedOp 7 (· == opTCANCEL) = some (opOf 0 0x1000000000000000000000000000000050000004d0000000900000000000000000000000000000013 .started) ∧ (sCancel 0x1000000000000000000000000000000050000004d0000000900000000000000000000000000000013).probeQueue (opOf 0 0x1000000000000000000000000000000050000004d0000000900000000000000000000000000000013 .started) = some 1 ∧ ((sCancel 0x1000000000000000000000000000000050000004d0000000900000000000000000000000000000013).postsOf .a 1).find? (same6 (sCancel 0x1000000000000000000000000000000050000004d0000000900000000000000000000000000000013) 0x1000000000000000000000000000000050000004d0000000900000000000000000000000000000013) = some ⟨0, key5, 6, 0⟩ ∧ (6 : Nat) ≠ 7) := by
  repeat' apply And.intro
  all_goals decide +kernel

/-- A packet of context 0 that is handed on to its consumer, from FEA 77 to host port 0. -/
def handed3 (c op : Nat) (data : List Byte) : Handed := ⟨3, { mkPkt c vREQ true 0 0 op data with src := 77 }, 0, 9, false, [], []⟩
def sHand (s : State) (h : Handed) : State := s.modTru .a (fun t => { t with handed := [h] })
def recvOp : WOp := opOf 1 0x10000000000500000002000000000000000000000000000000050000004d0000000900000000000000000000000000000020 .running
def sMsg (h : Handed) (f : Tmu → Tmu) : State := sHand (sTm 1 recvOp f) h
def first (len : Nat) : Nat := 5 + 9 * 2 ^ 64 + 1 * 2 ^ 111 + len * 2 ^ 128 + 4 * 2 ^ 160

def cont : Handed := handed3 cTAG_CONT (4 + 2 * 2 ^ 32) [9, 9]
def inb (i : Into) (t : Tmu) : Tmu := { t with inbound := [⟨0, 4, 4, 2, i⟩] }

def sAwait : State := (sMsg cont id).modTru .a (fun t => { t with handed := handed3 cTAG_EAGER (first 16) [] :: t.handed.map (fun h => { h with id := 4 }) })

def sendOp : WOp := opOf 0 0x1000000000000000000200000008000000000000000000000005000000000000000000000000000000000000000000000010 .running
def sMsg0 (h : Handed) (o : WOp) : State := sHand (sTm 0 o id) h
def pull (op : Nat) : Handed := handed3 cTAG_PULL (op + 2 * 2 ^ 32 + 5 * 2 ^ 64 + 6 * 2 ^ 96) []

def pdata : Handed := handed3 cTAG_PULL_DATA (4 + 2 * 2 ^ 32 + 7 * 2 ^ 96) [8, 8]
def pull7 : Pull := ⟨7, 0, 77, 0, 4, 8, 4, 4, 2⟩

def fin (c st : Nat) : Handed := handed3 c (7 + st * 2 ^ 32 + 8 * 2 ^ 64) []

/-- A stored message whose data lie in granule 0, being copied. -/
def sCopy (u : Ux) : State := State.granWrite .a [0] false [1, 2, 3, 4, 5, 6, 7, 8] 0 (sTm 1 recvOp (fun t => { withUx u t with copies := [⟨7, 1, 0⟩] }))

theorem test_MatchingPackets_meets :
    ((sMsg (handed3 cTAG_RTS (first 4294967295) []) id).inv ∧ tblWf (sMsg (handed3 cTAG_RTS (first 4294967295) []) id).ops = true ∧ (sMsg (handed3 cTAG_RTS (first 4294967295) []) id).handedPkt .a 3 (· == cTAG_RTS) = some (handed3 cTAG_RTS (first 4294967295) []) ∧ inboundOf ((sMsg (handed3 cTAG_RTS (first 4294967295) []) id).tmu .a) (handed3 cTAG_RTS (first 4294967295) []) = none ∧ (sMsg (handed3 cTAG_RTS (first 4294967295) []) id).arrivalTurn .a (handed3 cTAG_RTS (first 4294967295) []) = true ∧ (sMsg (handed3 cTAG_RTS (first 4294967295) []) id).messageLost .a (handed3 cTAG_RTS (first 4294967295) []) = false ∧ (sMsg (handed3 cTAG_RTS (first 4294967295) []) id).tmuOn .a = true ∧ (sMsg (handed3 cTAG_RTS (first 4294967295) []) id).fnLinkUp (setFn (1 / 8)) = true ∧ (sMsg (handed3 cTAG_RTS (first 4294967295) []) id).destStatus (handed3 cTAG_RTS (first 4294967295) []).pkt = none ∧ ((sMsg (handed3 cTAG_RTS (first 4294967295) []) id).tmu .a).lookups = [] ∧ ((sMsg (handed3 cTAG_RTS (first 4294967295) []) id).lookCost .a 1 0 (msgKey (handed3 cTAG_RTS (first 4294967295) []).pkt) true).2 = 0 ∧ msgQueue (handed3 cTAG_RTS (first 4294967295) []).pkt = 1 ∧ (sMsg (handed3 cTAG_RTS (first 4294967295) []) id).bestPost .a 1 (msgKey (handed3 cTAG_RTS (first 4294967295) []).pkt) = none ∧ (sMsg (handed3 cTAG_RTS (first 4294967295) []) id).uxCount .a none (fun _ => 1) < maxUx ∧ (sMsg (handed3 cTAG_RTS (first 4294967295) []) id).uxCount .a (some 0) (fun _ => 1) < (sMsg (handed3 cTAG_RTS (first 4294967295) []) id).rd .a TMU.TMU_CFG.UX_SHARE_PCT * maxUx / 100) ∧
    ((sMsg (handed3 cTAG_EAGER (first 16) (List.replicate 16 7)) id).inv ∧ tblWf (sMsg (handed3 cTAG_EAGER (first 16) (List.replicate 16 7)) id).ops = true ∧ (sMsg (handed3 cTAG_EAGER (first 16) (List.replicate 16 7)) id).handedPkt .a 3 (· == cTAG_EAGER) = some (handed3 cTAG_EAGER (first 16) (List.replicate 16 7)) ∧ inboundOf ((sMsg (handed3 cTAG_EAGER (first 16) (List.replicate 16 7)) id).tmu .a) (handed3 cTAG_EAGER (first 16) (List.replicate 16 7)) = none ∧ (sMsg (handed3 cTAG_EAGER (first 16) (List.replicate 16 7)) id).arrivalTurn .a (handed3 cTAG_EAGER (first 16) (List.replicate 16 7)) = true ∧ (sMsg (handed3 cTAG_EAGER (first 16) (List.replicate 16 7)) id).messageLost .a (handed3 cTAG_EAGER (first 16) (List.replicate 16 7)) = false ∧ (sMsg (handed3 cTAG_EAGER (first 16) (List.replicate 16 7)) id).tmuOn .a = true ∧ (sMsg (handed3 cTAG_EAGER (first 16) (List.replicate 16 7)) id).fnLinkUp (setFn (1 / 8)) = true ∧ (sMsg (handed3 cTAG_EAGER (first 16) (List.replicate 16 7)) id).destStatus (handed3 cTAG_EAGER (first 16) (List.replicate 16 7)).pkt = none ∧ ((sMsg (handed3 cTAG_EAGER (first 16) (List.replicate 16 7)) id).tmu .a).lookups = [] ∧ ((sMsg (handed3 cTAG_EAGER (first 16) (List.replicate 16 7)) id).lookCost .a 1 0 (msgKey (handed3 cTAG_EAGER (first 16) (List.replicate 16 7)).pkt) true).2 = 0 ∧ msgQueue (handed3 cTAG_EAGER (first 16) (List.replicate 16 7)).pkt = 1 ∧ (sMsg (handed3 cTAG_EAGER (first 16) (List.replicate 16 7)) id).bestPost .a 1 (msgKey (handed3 cTAG_EAGER (first 16) (List.replicate 16 7)).pkt) = none ∧ (sMsg (handed3 cTAG_EAGER (first 16) (List.replicate 16 7)) id).uxCount .a none (fun _ => 1) < maxUx ∧ (sMsg (handed3 cTAG_EAGER (first 16) (List.replicate 16 7)) id).uxCount .a (some 0) (fun _ => 1) < (sMsg (handed3 cTAG_EAGER (first 16) (List.replicate 16 7)) id).rd .a TMU.TMU_CFG.UX_SHARE_PCT * maxUx / 100) ∧
    ((sMsg (handed3 cTAG_EAGER (first 17) (List.replicate 17 7)) id).inv ∧ tblWf (sMsg (handed3 cTAG_EAGER (first 17) (List.replicate 17 7)) id).ops = true ∧ (sMsg (handed3 cTAG_EAGER (first 17) (List.replicate 17 7)) id).handedPkt .a 3 (· == cTAG_EAGER) = some (handed3 cTAG_EAGER (first 17) (List.replicate 17 7)) ∧ inboundOf ((sMsg (handed3 cTAG_EAGER (first 17) (List.replicate 17 7)) id).tmu .a) (handed3 cTAG_EAGER (first 17) (List.replicate 17 7)) = none ∧ (sMsg (handed3 cTAG_EAGER (first 17) (List.replicate 17 7)) id).arrivalTurn .a (handed3 cTAG_EAGER (first 17) (List.replicate 17 7)) = true ∧ (sMsg (handed3 cTAG_EAGER (first 17) (List.replicate 17 7)) id).messageLost .a (handed3 cTAG_EAGER (first 17) (List.replicate 17 7)) = false ∧ (sMsg (handed3 cTAG_EAGER (first 17) (List.replicate 17 7)) id).tmuOn .a = true ∧ (sMsg (handed3 cTAG_EAGER (first 17) (List.replicate 17 7)) id).fnLinkUp (setFn (1 / 8)) = true ∧ (sMsg (handed3 cTAG_EAGER (first 17) (List.replicate 17 7)) id).destStatus (handed3 cTAG_EAGER (first 17) (List.replicate 17 7)).pkt = none ∧ ((sMsg (handed3 cTAG_EAGER (first 17) (List.replicate 17 7)) id).tmu .a).lookups = [] ∧ ((sMsg (handed3 cTAG_EAGER (first 17) (List.replicate 17 7)) id).lookCost .a 1 0 (msgKey (handed3 cTAG_EAGER (first 17) (List.replicate 17 7)).pkt) true).2 = 0 ∧ msgQueue (handed3 cTAG_EAGER (first 17) (List.replicate 17 7)).pkt = 1 ∧ (sMsg (handed3 cTAG_EAGER (first 17) (List.replicate 17 7)) id).bestPost .a 1 (msgKey (handed3 cTAG_EAGER (first 17) (List.replicate 17 7)).pkt) = none ∧ (sMsg (handed3 cTAG_EAGER (first 17) (List.replicate 17 7)) id).uxCount .a none (fun _ => 1) < maxUx ∧ (sMsg (handed3 cTAG_EAGER (first 17) (List.replicate 17 7)) id).uxCount .a (some 0) (fun _ => 1) < (sMsg (handed3 cTAG_EAGER (first 17) (List.replicate 17 7)) id).rd .a TMU.TMU_CFG.UX_SHARE_PCT * maxUx / 100 ∧ (sMsg (handed3 cTAG_EAGER (first 17) (List.replicate 17 7)) id).uxCount .a none (·.granules.length) + ceilDiv 17 256 ≤ maxGranules ∧ (sMsg (handed3 cTAG_EAGER (first 17) (List.replicate 17 7)) id).uxCount .a (some 0) (·.granules.length) + ceilDiv 17 256 ≤ (sMsg (handed3 cTAG_EAGER (first 17) (List.replicate 17 7)) id).rd .a TMU.TMU_CFG.UX_SHARE_PCT * maxGranules / 100) ∧
    ((sMsg (handed3 cTAG_RTS (first 8) []) withPost).inv ∧ tblWf (sMsg (handed3 cTAG_RTS (first 8) []) withPost).ops = true ∧ (sMsg (handed3 cTAG_RTS (first 8) []) withPost).handedPkt .a 3 (· == cTAG_RTS) = some (handed3 cTAG_RTS (first 8) []) ∧ inboundOf ((sMsg (handed3 cTAG_RTS (first 8) []) withPost).tmu .a) (handed3 cTAG_RTS (first 8) []) = none ∧ (sMsg (handed3 cTAG_RTS (first 8) []) withPost).arrivalTurn .a (handed3 cTAG_RTS (first 8) []) = true ∧ (sMsg (handed3 cTAG_RTS (first 8) []) withPost).messageLost .a (handed3 cTAG_RTS (first 8) []) = false ∧ (sMsg (handed3 cTAG_RTS (first 8) []) withPost).tmuOn .a = true ∧ (sMsg (handed3 cTAG_RTS (first 8) []) withPost).fnLinkUp (setFn (1 / 8)) = true ∧ (sMsg (handed3 cTAG_RTS (first 8) []) withPost).destStatus (handed3 cTAG_RTS (first 8) []).pkt = none ∧ ((sMsg (handed3 cTAG_RTS (first 8) []) withPost).tmu .a).lookups = [] ∧ ((sMsg (handed3 cTAG_RTS (first 8) []) withPost).lookCost .a 1 0 (msgKey (handed3 cTAG_RTS (first 8) []).pkt) true).2 = 0 ∧ msgQueue (handed3 cTAG_RTS (first 8) []).pkt = 1 ∧ (sMsg (handed3 cTAG_RTS (first 8) []) withPost).bestPost .a 1 (msgKey (handed3 cTAG_RTS (first 8) []).pkt) = some post7) ∧
    ((sHand (sTm 1 (opOf 1 0x50000004d0000000900000000000000000000000000000020 .running) withPost) (handed3 cTAG_EAGER (first 8) [1, 2, 3, 4, 5, 6, 7, 8])).inv ∧ tblWf (sHand (sTm 1 (opOf 1 0x50000004d0000000900000000000000000000000000000020 .running) withPost) (handed3 cTAG_EAGER (first 8) [1, 2, 3, 4, 5, 6, 7, 8])).ops = true ∧ (sHand (sTm 1 (opOf 1 0x50000004d0000000900000000000000000000000000000020 .running) withPost) (handed3 cTAG_EAGER (first 8) [1, 2, 3, 4, 5, 6, 7, 8])).handedPkt .a 3 (· == cTAG_EAGER) = some (handed3 cTAG_EAGER (first 8) [1, 2, 3, 4, 5, 6, 7, 8]) ∧ inboundOf ((sHand (sTm 1 (opOf 1 0x50000004d0000000900000000000000000000000000000020 .running) withPost) (handed3 cTAG_EAGER (first 8) [1, 2, 3, 4, 5, 6, 7, 8])).tmu .a) (handed3 cTAG_EAGER (first 8) [1, 2, 3, 4, 5, 6, 7, 8]) = none ∧ (sHand (sTm 1 (opOf 1 0x50000004d0000000900000000000000000000000000000020 .running) withPost) (handed3 cTAG_EAGER (first 8) [1, 2, 3, 4, 5, 6, 7, 8])).arrivalTurn .a (handed3 cTAG_EAGER (first 8) [1, 2, 3, 4, 5, 6, 7, 8]) = true ∧ (sHand (sTm 1 (opOf 1 0x50000004d0000000900000000000000000000000000000020 .running) withPost) (handed3 cTAG_EAGER (first 8) [1, 2, 3, 4, 5, 6, 7, 8])).messageLost .a (handed3 cTAG_EAGER (first 8) [1, 2, 3, 4, 5, 6, 7, 8]) = false ∧ (sHand (sTm 1 (opOf 1 0x50000004d0000000900000000000000000000000000000020 .running) withPost) (handed3 cTAG_EAGER (first 8) [1, 2, 3, 4, 5, 6, 7, 8])).tmuOn .a = true ∧ (sHand (sTm 1 (opOf 1 0x50000004d0000000900000000000000000000000000000020 .running) withPost) (handed3 cTAG_EAGER (first 8) [1, 2, 3, 4, 5, 6, 7, 8])).fnLinkUp (setFn (1 / 8)) = true ∧ (sHand (sTm 1 (opOf 1 0x50000004d0000000900000000000000000000000000000020 .running) withPost) (handed3 cTAG_EAGER (first 8) [1, 2, 3, 4, 5, 6, 7, 8])).destStatus (handed3 cTAG_EAGER (first 8) [1, 2, 3, 4, 5, 6, 7, 8]).pkt = none ∧ ((sHand (sTm 1 (opOf 1 0x50000004d0000000900000000000000000000000000000020 .running) withPost) (handed3 cTAG_EAGER (first 8) [1, 2, 3, 4, 5, 6, 7, 8])).tmu .a).lookups = [] ∧ ((sHand (sTm 1 (opOf 1 0x50000004d0000000900000000000000000000000000000020 .running) withPost) (handed3 cTAG_EAGER (first 8) [1, 2, 3, 4, 5, 6, 7, 8])).lookCost .a 1 0 (msgKey (handed3 cTAG_EAGER (first 8) [1, 2, 3, 4, 5, 6, 7, 8]).pkt) true).2 = 0 ∧ msgQueue (handed3 cTAG_EAGER (first 8) [1, 2, 3, 4, 5, 6, 7, 8]).pkt = 1 ∧ (sHand (sTm 1 (opOf 1 0x50000004d0000000900000000000000000000000000000020 .running) withPost) (handed3 cTAG_EAGER (first 8) [1, 2, 3, 4, 5, 6, 7, 8])).bestPost .a 1 (msgKey (handed3 cTAG_EAGER (first 8) [1, 2, 3, 4, 5, 6, 7, 8]).pkt) = some post7 ∧ (sHand (sTm 1 (opOf 1 0x50000004d0000000900000000000000000000000000000020 .running) withPost) (handed3 cTAG_EAGER (first 8) [1, 2, 3, 4, 5, 6, 7, 8])).op 7 = some (opOf 1 0x50000004d0000000900000000000000000000000000000020 .running) ∧ (handed3 cTAG_EAGER (first 8) [1, 2, 3, 4, 5, 6, 7, 8]).pkt.opf 128 32 ≤ (pktData (handed3 cTAG_EAGER (first 8) [1, 2, 3, 4, 5, 6, 7, 8]).pkt).length ∧ trLength (BitVec.ofNat 512 0x50000004d0000000900000000000000000000000000000020) = 0) ∧
    (((sMsg (handed3 cTAG_EAGER (first 8) [1, 2, 3, 4, 5, 6, 7, 8]) withPost).wr .a (HDR.CTRL.ENABLE 0xC00000) 0).inv ∧ tblWf ((sMsg (handed3 cTAG_EAGER (first 8) [1, 2, 3, 4, 5, 6, 7, 8]) withPost).wr .a (HDR.CTRL.ENABLE 0xC00000) 0).ops = true ∧ ((sMsg (handed3 cTAG_EAGER (first 8) [1, 2, 3, 4, 5, 6, 7, 8]) withPost).wr .a (HDR.CTRL.ENABLE 0xC00000) 0).handedPkt .a 3 (· == cTAG_EAGER) = some (handed3 cTAG_EAGER (first 8) [1, 2, 3, 4, 5, 6, 7, 8]) ∧ ((sMsg (handed3 cTAG_EAGER (first 8) [1, 2, 3, 4, 5, 6, 7, 8]) withPost).wr .a (HDR.CTRL.ENABLE 0xC00000) 0).tmuOn .a = false ∧ inboundOf (((sMsg (handed3 cTAG_EAGER (first 8) [1, 2, 3, 4, 5, 6, 7, 8]) withPost).wr .a (HDR.CTRL.ENABLE 0xC00000) 0).tmu .a) (handed3 cTAG_EAGER (first 8) [1, 2, 3, 4, 5, 6, 7, 8]) = none ∧ ((sMsg (handed3 cTAG_EAGER (first 8) [1, 2, 3, 4, 5, 6, 7, 8]) withPost).wr .a (HDR.CTRL.ENABLE 0xC00000) 0).arrivalTurn .a (handed3 cTAG_EAGER (first 8) [1, 2, 3, 4, 5, 6, 7, 8]) = true) ∧
    ((sMsg cont id).inv ∧ tblWf (sMsg cont id).ops = true ∧ (sMsg cont id).handedPkt .a 3 (· == cTAG_CONT) = some cont ∧ inboundOf ((sMsg cont id).tmu .a) cont = none ∧ (sMsg cont id).awaitsFirst .a cont = false) ∧
    (sAwait.inv ∧ tblWf sAwait.ops = true ∧ sAwait.handedPkt .a 4 (· == cTAG_CONT) = some { cont with id := 4 } ∧ inboundOf (sAwait.tmu .a) { cont with id := 4 } = none ∧ sAwait.awaitsFirst .a { cont with id := 4 } = true) ∧
    ((sMsg cont (inb .drop)).inv ∧ tblWf (sMsg cont (inb .drop)).ops = true ∧ (sMsg cont (inb .drop)).handedPkt .a 3 (· == cTAG_CONT) = some cont ∧ inboundOf ((sMsg cont (inb .drop)).tmu .a) cont = some ⟨0, 4, 4, 2, .drop⟩) ∧
    ((sMsg cont (inb (.ux 1 0) ∘ withUx { ux0 .stored with got := 0, len := 4 })).inv ∧ tblWf (sMsg cont (inb (.ux 1 0) ∘ withUx { ux0 .stored with got := 0, len := 4 })).ops = true ∧ (sMsg cont (inb (.ux 1 0) ∘ withUx { ux0 .stored with got := 0, len := 4 })).handedPkt .a 3 (· == cTAG_CONT) = some cont ∧ inboundOf ((sMsg cont (inb (.ux 1 0) ∘ withUx { ux0 .stored with got := 0, len := 4 })).tmu .a) cont = some ⟨0, 4, 4, 2, .ux 1 0⟩ ∧ ((sMsg cont (inb (.ux 1 0) ∘ withUx { ux0 .stored with got := 0, len := 4 })).uxsOf .a 1).find? (fun u => u.asn == 0) = some { ux0 .stored with got := 0, len := 4 }) ∧
    ((sMsg cont (inb (.recv 7))).inv ∧ tblWf (sMsg cont (inb (.recv 7))).ops = true ∧ (sMsg cont (inb (.recv 7))).handedPkt .a 3 (· == cTAG_CONT) = some cont ∧ inboundOf ((sMsg cont (inb (.recv 7))).tmu .a) cont = some ⟨0, 4, 4, 2, .recv 7⟩ ∧ (sMsg cont (inb (.recv 7))).op 7 = some recvOp ∧ recvOp.stage = .running ∧ recvOp.force = none ∧ ((sMsg cont (inb (.recv 7))).deliver .a recvOp (cont.pkt.opf 32 32) (pktData cont.pkt) cont.pkt.srcPoison).2 = .data [] false) ∧
    ((sMsg0 (pull 6) sendOp).inv ∧ tblWf (sMsg0 (pull 6) sendOp).ops = true ∧ (sMsg0 (pull 6) sendOp).handedPkt .a 3 (· == cTAG_PULL) = some (pull 6) ∧ (sMsg0 (pull 6) sendOp).opById .a ((pull 6).pkt.opf 0 32) 0 = none) ∧
    ((sMsg0 (pull 7) sendOp).inv ∧ tblWf (sMsg0 (pull 7) sendOp).ops = true ∧ (sMsg0 (pull 7) sendOp).handedPkt .a 3 (· == cTAG_PULL) = some (pull 7) ∧ (sMsg0 (pull 7) sendOp).opById .a ((pull 7).pkt.opf 0 32) 0 = some (7, sendOp) ∧ (sMsg0 (pull 7) sendOp).localRange .a f0 2 rLR (0x1000 + 2) 5 = .ok 2 ∧ ((sMsg0 (pull 7) sendOp).rangeReady .a 2 2 5 .rd).2.isOk = true) ∧
    ((sMsg pdata (fun t => { t with pulls := [pull7] })).inv ∧ tblWf (sMsg pdata (fun t => { t with pulls := [pull7] })).ops = true ∧ (sMsg pdata (fun t => { t with pulls := [pull7] })).handedPkt .a 3 (· == cTAG_PULL_DATA) = some pdata ∧ (sMsg pdata (fun t => { t with pulls := [pull7] })).opById .a (pdata.pkt.opf 96 32) 0 = some (7, recvOp) ∧ ((sMsg pdata (fun t => { t with pulls := [pull7] })).tmu .a).pulls.find? (fun x => x.op % 2 ^ 32 == pdata.pkt.opf 96 32) = some pull7 ∧ recvOp.force = none ∧ ((sMsg pdata (fun t => { t with pulls := [pull7] })).deliver .a recvOp (pdata.pkt.opf 32 32) (pktData pdata.pkt) pdata.pkt.srcPoison).2 = .data [] false) ∧
    ((sMsg0 (fin cTAG_FIN 0) sendOp).inv ∧ tblWf (sMsg0 (fin cTAG_FIN 0) sendOp).ops = true ∧ (sMsg0 (fin cTAG_FIN 0) sendOp).handedPkt .a 3 (· == cTAG_FIN) = some (fin cTAG_FIN 0) ∧ (sMsg0 (fin cTAG_FIN 0) sendOp).opById .a ((fin cTAG_FIN 0).pkt.opf 0 32) 0 = some (7, sendOp)) ∧
    ((sMsg0 (fin cTAG_MATCHED 0) sendOp).inv ∧ tblWf (sMsg0 (fin cTAG_MATCHED 0) sendOp).ops = true ∧ (sMsg0 (fin cTAG_MATCHED 0) sendOp).handedPkt .a 3 (· == cTAG_MATCHED) = some (fin cTAG_MATCHED 0) ∧ (sMsg0 (fin cTAG_MATCHED 0) sendOp).opById .a ((fin cTAG_MATCHED 0).pkt.opf 0 32) 0 = some (7, sendOp)) ∧
    ((sCopy { ux0 .stored with taken := true }).inv ∧ tblWf (sCopy { ux0 .stored with taken := true }).ops = true ∧ ((sCopy { ux0 .stored with taken := true }).tmu .a).copies.find? (fun c => c.op == 7) = some ⟨7, 1, 0⟩ ∧ (sCopy { ux0 .stored with taken := true }).op 7 = some recvOp ∧ recvOp.force = none ∧ ((sCopy { ux0 .stored with taken := true }).uxsOf .a 1).find? (fun u => u.asn == 0) = some { ux0 .stored with taken := true } ∧ ({ ux0 .stored with taken := true } : Ux).len ≤ ({ ux0 .stored with taken := true } : Ux).got ∧ ((sCopy { ux0 .stored with taken := true }).deliver .a recvOp 0 ((sCopy { ux0 .stored with taken := true }).granRead .a [0] 8).1 false).2 = .data [] false) ∧
    ((sCopy { ux0 .inline with taken := true }).inv ∧ tblWf (sCopy { ux0 .inline with taken := true }).ops = true ∧ ((sCopy { ux0 .inline with taken := true }).tmu .a).copies.find? (fun c => c.op == 7) = some ⟨7, 1, 0⟩ ∧ (sCopy { ux0 .inline with taken := true }).op 7 = some recvOp ∧ recvOp.force = none ∧ ((sCopy { ux0 .inline with taken := true }).uxsOf .a 1).find? (fun u => u.asn == 0) = some { ux0 .inline with taken := true } ∧ ({ ux0 .inline with taken := true } : Ux).len ≤ ({ ux0 .inline with taken := true } : Ux).got ∧ ((sCopy { ux0 .inline with taken := true }).deliver .a recvOp 0 [1, 2, 3, 4, 5, 6, 7, 8] false).2 = .data [] false) := by
  repeat' apply And.intro
  all_goals decide +kernel

def ment (m : Nat) (on : Bool) : MEnt := ⟨1, true, key5, [m], false, false, 0, on, []⟩
def sLook (left : Nat) : State := sTm 1 recvOp (fun t => { t with lookups := [⟨2, 1, 0, none, some 7, left, false⟩] })
def sTab (f : Tmu → Tmu) : State := sTm 1 recvOp f

def sSpill : State := sTab (fun t => { t with ents := [ment 3 false, ment 5 false, ment 1 true] })

theorem test_MatchTablesAreKept_meets :
    ((sLook 2).inv ∧ (homeLookups ((sLook 2).tmu .a)).find? (fun l => l.id == 2) = some ⟨2, 1, 0, none, some 7, 2, false⟩ ∧ 1 < 2) ∧
    ((homeLookups ((sLook 1).tmu .a)).find? (fun l => l.id == 2) = some ⟨2, 1, 0, none, some 7, 1, false⟩ ∧ 1 ≤ 1) ∧
    (onchipIn (sSpill.tmu .a).ents 0 < 4 ∧ byHead ((sSpill.tmu .a).ents.filter (fun e => !e.wild && !e.onchip && e.bin == 0)) = ment 3 false :: [ment 5 false]) ∧
    (((sTab (fun t => { t with hist := [(1, 98), (6, 1), (20, 1)], histAt := 5 })).tmu .a).histAt + us 100 ≤ (sTab (fun t => { t with hist := [(1, 98), (6, 1), (20, 1)], histAt := 5 })).now) ∧
    ((sTab (fun t => { t with histAt := 999999999 })).now < ((sTab (fun t => { t with histAt := 999999999 })).tmu .a).histAt + us 100) ∧
    ((sTab id).warden .svc ∧ ((sTab id).tmu .a).rehash = false) ∧
    (((sTab (fun t => { t with rehash := true, ents := [ment 5 false, ment 3 false] })).tmu .a).rehash = true ∧ liveEnts ((sTab (fun t => { t with rehash := true, ents := [ment 5 false, ment 3 false] })).tmu .a) ≠ [] ∧ (∀ l ∈ ((sTab (fun t => { t with rehash := true, ents := [ment 5 false, ment 3 false] })).tmu .a).lookups, ∀ e ∈ liveEnts ((sTab (fun t => { t with rehash := true, ents := [ment 5 false, ment 3 false] })).tmu .a), e.q ≠ l.q)) ∧
    (((sTab (fun t => { t with rehash := true, ents := [{ ment 5 true with table := true }] })).tmu .a).rehash = true ∧ liveEnts ((sTab (fun t => { t with rehash := true, ents := [{ ment 5 true with table := true }] })).tmu .a) = []) := by
  refine ⟨?_, ?_, (⟨by decide +kernel, by
      have h : (sSpill.tmu .a).ents.filter (fun e => !e.wild && !e.onchip && e.bin == 0) = [ment 3 false, ment 5 false] := by decide +kernel
      rw [h]; exact List.mergeSort_of_pairwise (by decide)⟩), ?_, ?_, ?_, ?_, ?_⟩
  all_goals repeat' apply And.intro
  all_goals decide +kernel

theorem test_RemoteAccessStarts_meets :
    ((sTm 0 (opOf 0 0x1100000000000000010000000000000000000000000000000000000030 .started) id).inv ∧ tblWf (sTm 0 (opOf 0 0x1100000000000000010000000000000000000000000000000000000030 .started) id).ops = true ∧ (∀ p ∈ ((sTm 0 (opOf 0 0x1100000000000000010000000000000000000000000000000000000030 .started) id).tmu .a).pulls, p.op ≠ 7) ∧ (sTm 0 (opOf 0 0x1100000000000000010000000000000000000000000000000000000030 .started) id).startedOp 7 (· == opPUT) = some (opOf 0 0x1100000000000000010000000000000000000000000000000000000030 .started) ∧ rInline (BitVec.ofNat 512 0x1100000000000000010000000000000000000000000000000000000030) = true ∧ 16 < rLength (BitVec.ofNat 512 0x1100000000000000010000000000000000000000000000000000000030)) ∧
    ((sTm 0 (opOf 0 0x8877665544332211000000000000fffa0000001000000000000000010000104100000000000000000000000000000030 .started) id).inv ∧ tblWf (sTm 0 (opOf 0 0x8877665544332211000000000000fffa0000001000000000000000010000104100000000000000000000000000000030 .started) id).ops = true ∧ (∀ p ∈ ((sTm 0 (opOf 0 0x8877665544332211000000000000fffa0000001000000000000000010000104100000000000000000000000000000030 .started) id).tmu .a).pulls, p.op ≠ 7) ∧ (sTm 0 (opOf 0 0x8877665544332211000000000000fffa0000001000000000000000010000104100000000000000000000000000000030 .started) id).startedOp 7 (· == opPUT) = some (opOf 0 0x8877665544332211000000000000fffa0000001000000000000000010000104100000000000000000000000000000030 .started) ∧ rLength (BitVec.ofNat 512 0x8877665544332211000000000000fffa0000001000000000000000010000104100000000000000000000000000000030) ≤ 16 ∧ rInline (BitVec.ofNat 512 0x8877665544332211000000000000fffa0000001000000000000000010000104100000000000000000000000000000030) = true ∧ (opOf 0 0x8877665544332211000000000000fffa0000001000000000000000010000104100000000000000000000000000000030 .started).force = none ∧ (opOf 0 0x8877665544332211000000000000fffa0000001000000000000000010000104100000000000000000000000000000030 .started).out = [] ∧ (opOf 0 0x8877665544332211000000000000fffa0000001000000000000000010000104100000000000000000000000000000030 .started).chunks = 0) ∧
    ((sTm 0 (opOf 0 0x50000000000000000000000000000000000000000000000000000000000000000000000010000104100000000000000000000000000000031 .started) id).inv ∧ tblWf (sTm 0 (opOf 0 0x50000000000000000000000000000000000000000000000000000000000000000000000010000104100000000000000000000000000000031 .started) id).ops = true ∧ (∀ p ∈ ((sTm 0 (opOf 0 0x50000000000000000000000000000000000000000000000000000000000000000000000010000104100000000000000000000000000000031 .started) id).tmu .a).pulls, p.op ≠ 7) ∧ (sTm 0 (opOf 0 0x50000000000000000000000000000000000000000000000000000000000000000000000010000104100000000000000000000000000000031 .started) id).startedOp 7 (· == opPUT_NOTIFY) = some (opOf 0 0x50000000000000000000000000000000000000000000000000000000000000000000000010000104100000000000000000000000000000031 .started) ∧ rInline (BitVec.ofNat 512 0x50000000000000000000000000000000000000000000000000000000000000000000000010000104100000000000000000000000000000031) = true ∧ rLength (BitVec.ofNat 512 0x50000000000000000000000000000000000000000000000000000000000000000000000010000104100000000000000000000000000000031) ≤ 16 ∧ (opOf 0 0x50000000000000000000000000000000000000000000000000000000000000000000000010000104100000000000000000000000000000031 .started).force = none ∧ (opOf 0 0x50000000000000000000000000000000000000000000000000000000000000000000000010000104100000000000000000000000000000031 .started).out = [] ∧ (opOf 0 0x50000000000000000000000000000000000000000000000000000000000000000000000010000104100000000000000000000000000000031 .started).chunks = 0) ∧
    ((sTm 0 (opOf 0 0x1000000000000000000200000000000000000001000100000000000000000000000000000000000000000000000000000030 .started) id).inv ∧ tblWf (sTm 0 (opOf 0 0x1000000000000000000200000000000000000001000100000000000000000000000000000000000000000000000000000030 .started) id).ops = true ∧ (∀ p ∈ ((sTm 0 (opOf 0 0x1000000000000000000200000000000000000001000100000000000000000000000000000000000000000000000000000030 .started) id).tmu .a).pulls, p.op ≠ 7) ∧ (sTm 0 (opOf 0 0x1000000000000000000200000000000000000001000100000000000000000000000000000000000000000000000000000030 .started) id).startedOp 7 (· == opPUT) = some (opOf 0 0x1000000000000000000200000000000000000001000100000000000000000000000000000000000000000000000000000030 .started) ∧ rInline (BitVec.ofNat 512 0x1000000000000000000200000000000000000001000100000000000000000000000000000000000000000000000000000030) = false ∧ eLkey (BitVec.ofNat 512 0x1000000000000000000200000000000000000001000100000000000000000000000000000000000000000000000000000030) ≠ 0 ∧ (opOf 0 0x1000000000000000000200000000000000000001000100000000000000000000000000000000000000000000000000000030 .started).unacked = 0 ∧ (sTm 0 (opOf 0 0x1000000000000000000200000000000000000001000100000000000000000000000000000000000000000000000000000030 .started) id).localRange .a f0 2 rLR 0x1000 0x10001 = .error xRANGE) ∧
    ((sTm 0 (opOf 0 0x1000000000000000000200000000000000000001000100000000000000000000000000000000000000000000000000000031 .started) id).inv ∧ tblWf (sTm 0 (opOf 0 0x1000000000000000000200000000000000000001000100000000000000000000000000000000000000000000000000000031 .started) id).ops = true ∧ (∀ p ∈ ((sTm 0 (opOf 0 0x1000000000000000000200000000000000000001000100000000000000000000000000000000000000000000000000000031 .started) id).tmu .a).pulls, p.op ≠ 7) ∧ (sTm 0 (opOf 0 0x1000000000000000000200000000000000000001000100000000000000000000000000000000000000000000000000000031 .started) id).startedOp 7 (· == opPUT_NOTIFY) = some (opOf 0 0x1000000000000000000200000000000000000001000100000000000000000000000000000000000000000000000000000031 .started) ∧ rInline (BitVec.ofNat 512 0x1000000000000000000200000000000000000001000100000000000000000000000000000000000000000000000000000031) = false ∧ eLkey (BitVec.ofNat 512 0x1000000000000000000200000000000000000001000100000000000000000000000000000000000000000000000000000031) ≠ 0 ∧ (opOf 0 0x1000000000000000000200000000000000000001000100000000000000000000000000000000000000000000000000000031 .started).unacked = 0 ∧ (sTm 0 (opOf 0 0x1000000000000000000200000000000000000001000100000000000000000000000000000000000000000000000000000031 .started) id).localRange .a f0 2 rLR 0x1000 0x10001 = .error xRANGE) ∧
    ((sTm 0 (opOf 0 0x1000000000000000000200000000000000000001000100000000000000000000000000000000000000000000000000000032 .started) id).inv ∧ tblWf (sTm 0 (opOf 0 0x1000000000000000000200000000000000000001000100000000000000000000000000000000000000000000000000000032 .started) id).ops = true ∧ (∀ p ∈ ((sTm 0 (opOf 0 0x1000000000000000000200000000000000000001000100000000000000000000000000000000000000000000000000000032 .started) id).tmu .a).pulls, p.op ≠ 7) ∧ (sTm 0 (opOf 0 0x1000000000000000000200000000000000000001000100000000000000000000000000000000000000000000000000000032 .started) id).startedOp 7 (· == opGET) = some (opOf 0 0x1000000000000000000200000000000000000001000100000000000000000000000000000000000000000000000000000032 .started) ∧ rInline (BitVec.ofNat 512 0x1000000000000000000200000000000000000001000100000000000000000000000000000000000000000000000000000032) = false ∧ eLkey (BitVec.ofNat 512 0x1000000000000000000200000000000000000001000100000000000000000000000000000000000000000000000000000032) ≠ 0 ∧ (opOf 0 0x1000000000000000000200000000000000000001000100000000000000000000000000000000000000000000000000000032 .started).unacked = 0 ∧ (sTm 0 (opOf 0 0x1000000000000000000200000000000000000001000100000000000000000000000000000000000000000000000000000032 .started) id).localRange .a f0 2 rLW 0x1000 0x10001 = .error xRANGE) ∧
    ((sTm 0 (opOf 0 0x1000000000000000000200000000000080000001000000000000000000000000104100000000000000000000000000000032 .started) id).inv ∧ tblWf (sTm 0 (opOf 0 0x1000000000000000000200000000000080000001000000000000000000000000104100000000000000000000000000000032 .started) id).ops = true ∧ (∀ p ∈ ((sTm 0 (opOf 0 0x1000000000000000000200000000000080000001000000000000000000000000104100000000000000000000000000000032 .started) id).tmu .a).pulls, p.op ≠ 7) ∧ (sTm 0 (opOf 0 0x1000000000000000000200000000000080000001000000000000000000000000104100000000000000000000000000000032 .started) id).startedOp 7 (· == opGET) = some (opOf 0 0x1000000000000000000200000000000080000001000000000000000000000000104100000000000000000000000000000032 .started) ∧ rInline (BitVec.ofNat 512 0x1000000000000000000200000000000080000001000000000000000000000000104100000000000000000000000000000032) = false ∧ ((sTm 0 (opOf 0 0x1000000000000000000200000000000080000001000000000000000000000000104100000000000000000000000000000032 .started) id).localRange .a f0 2 rLW 0x1000 0x10000).isOk = true ∧ (opOf 0 0x1000000000000000000200000000000080000001000000000000000000000000104100000000000000000000000000000032 .started).force = none ∧ (opOf 0 0x1000000000000000000200000000000080000001000000000000000000000000104100000000000000000000000000000032 .started).out = [] ∧ (opOf 0 0x1000000000000000000200000000000080000001000000000000000000000000104100000000000000000000000000000032 .started).chunks = 0) ∧
    ((sTm 0 (opOf 0 0x10ff80000000000000000000000000000000700000000000000000000000200000000000000000000104100000000000000000000000000000040 .started) id).inv ∧ tblWf (sTm 0 (opOf 0 0x10ff80000000000000000000000000000000700000000000000000000000200000000000000000000104100000000000000000000000000000040 .started) id).ops = true ∧ (∀ p ∈ ((sTm 0 (opOf 0 0x10ff80000000000000000000000000000000700000000000000000000000200000000000000000000104100000000000000000000000000000040 .started) id).tmu .a).pulls, p.op ≠ 7) ∧ (sTm 0 (opOf 0 0x10ff80000000000000000000000000000000700000000000000000000000200000000000000000000104100000000000000000000000000000040 .started) id).startedOp 7 (· == 0x40) = some (opOf 0 0x10ff80000000000000000000000000000000700000000000000000000000200000000000000000000104100000000000000000000000000000040 .started) ∧ aLkey (BitVec.ofNat 512 0x10ff80000000000000000000000000000000700000000000000000000000200000000000000000000104100000000000000000000000000000040) ≠ 0 ∧ ((sTm 0 (opOf 0 0x10ff80000000000000000000000000000000700000000000000000000000200000000000000000000104100000000000000000000000000000040 .started) id).localRange .a f0 (aLkey (BitVec.ofNat 512 0x10ff80000000000000000000000000000000700000000000000000000000200000000000000000000104100000000000000000000000000000040)) rLW (aLaddr (BitVec.ofNat 512 0x10ff80000000000000000000000000000000700000000000000000000000200000000000000000000104100000000000000000000000000000040)) (atomicSize 0x40)).isOk = true) ∧
    ((sTm 0 (opOf 0 0x10000000000000000000000000000000000000000000000000000000000300000000000000000000000000000000000000000000000000000040 .started) id).inv ∧ tblWf (sTm 0 (opOf 0 0x10000000000000000000000000000000000000000000000000000000000300000000000000000000000000000000000000000000000000000040 .started) id).ops = true ∧ (∀ p ∈ ((sTm 0 (opOf 0 0x10000000000000000000000000000000000000000000000000000000000300000000000000000000000000000000000000000000000000000040 .started) id).tmu .a).pulls, p.op ≠ 7) ∧ (sTm 0 (opOf 0 0x10000000000000000000000000000000000000000000000000000000000300000000000000000000000000000000000000000000000000000040 .started) id).startedOp 7 (· == 0x40) = some (opOf 0 0x10000000000000000000000000000000000000000000000000000000000300000000000000000000000000000000000000000000000000000040 .started) ∧ (sTm 0 (opOf 0 0x10000000000000000000000000000000000000000000000000000000000300000000000000000000000000000000000000000000000000000040 .started) id).localRange .a f0 (aLkey (BitVec.ofNat 512 0x10000000000000000000000000000000000000000000000000000000000300000000000000000000000000000000000000000000000000000040)) rLW (aLaddr (BitVec.ofNat 512 0x10000000000000000000000000000000000000000000000000000000000300000000000000000000000000000000000000000000000000000040)) (atomicSize 0x40) = .error xKEY) ∧
    ((sTm 0 (opOf 0 0x10ff80000000000000000000000000000000700000000000000000000000200000000000000000000104100000000000000000000000000000041 .started) id).inv ∧ tblWf (sTm 0 (opOf 0 0x10ff80000000000000000000000000000000700000000000000000000000200000000000000000000104100000000000000000000000000000041 .started) id).ops = true ∧ (∀ p ∈ ((sTm 0 (opOf 0 0x10ff80000000000000000000000000000000700000000000000000000000200000000000000000000104100000000000000000000000000000041 .started) id).tmu .a).pulls, p.op ≠ 7) ∧ (sTm 0 (opOf 0 0x10ff80000000000000000000000000000000700000000000000000000000200000000000000000000104100000000000000000000000000000041 .started) id).startedOp 7 (· == 0x41) = some (opOf 0 0x10ff80000000000000000000000000000000700000000000000000000000200000000000000000000104100000000000000000000000000000041 .started) ∧ aLkey (BitVec.ofNat 512 0x10ff80000000000000000000000000000000700000000000000000000000200000000000000000000104100000000000000000000000000000041) ≠ 0 ∧ ((sTm 0 (opOf 0 0x10ff80000000000000000000000000000000700000000000000000000000200000000000000000000104100000000000000000000000000000041 .started) id).localRange .a f0 (aLkey (BitVec.ofNat 512 0x10ff80000000000000000000000000000000700000000000000000000000200000000000000000000104100000000000000000000000000000041)) rLW (aLaddr (BitVec.ofNat 512 0x10ff80000000000000000000000000000000700000000000000000000000200000000000000000000104100000000000000000000000000000041)) (atomicSize 0x41)).isOk = true) ∧
    ((sTm 0 (opOf 0 0x10ff80000000000000000000000000000000700000000000000000000000200000000000000000000104100000000000000000000000000000042 .started) id).inv ∧ tblWf (sTm 0 (opOf 0 0x10ff80000000000000000000000000000000700000000000000000000000200000000000000000000104100000000000000000000000000000042 .started) id).ops = true ∧ (∀ p ∈ ((sTm 0 (opOf 0 0x10ff80000000000000000000000000000000700000000000000000000000200000000000000000000104100000000000000000000000000000042 .started) id).tmu .a).pulls, p.op ≠ 7) ∧ (sTm 0 (opOf 0 0x10ff80000000000000000000000000000000700000000000000000000000200000000000000000000104100000000000000000000000000000042 .started) id).startedOp 7 (· == 0x42) = some (opOf 0 0x10ff80000000000000000000000000000000700000000000000000000000200000000000000000000104100000000000000000000000000000042 .started) ∧ aLkey (BitVec.ofNat 512 0x10ff80000000000000000000000000000000700000000000000000000000200000000000000000000104100000000000000000000000000000042) ≠ 0 ∧ ((sTm 0 (opOf 0 0x10ff80000000000000000000000000000000700000000000000000000000200000000000000000000104100000000000000000000000000000042 .started) id).localRange .a f0 (aLkey (BitVec.ofNat 512 0x10ff80000000000000000000000000000000700000000000000000000000200000000000000000000104100000000000000000000000000000042)) rLW (aLaddr (BitVec.ofNat 512 0x10ff80000000000000000000000000000000700000000000000000000000200000000000000000000104100000000000000000000000000000042)) (atomicSize 0x42)).isOk = true) ∧
    ((sTm 0 (opOf 0 0x10ff80000000000000000000000000000000700000000000000000000000200000000000000000000104100000000000000000000000000000043 .started) id).inv ∧ tblWf (sTm 0 (opOf 0 0x10ff80000000000000000000000000000000700000000000000000000000200000000000000000000104100000000000000000000000000000043 .started) id).ops = true ∧ (∀ p ∈ ((sTm 0 (opOf 0 0x10ff80000000000000000000000000000000700000000000000000000000200000000000000000000104100000000000000000000000000000043 .started) id).tmu .a).pulls, p.op ≠ 7) ∧ (sTm 0 (opOf 0 0x10ff80000000000000000000000000000000700000000000000000000000200000000000000000000104100000000000000000000000000000043 .started) id).startedOp 7 (· == 0x43) = some (opOf 0 0x10ff80000000000000000000000000000000700000000000000000000000200000000000000000000104100000000000000000000000000000043 .started) ∧ aLkey (BitVec.ofNat 512 0x10ff80000000000000000000000000000000700000000000000000000000200000000000000000000104100000000000000000000000000000043) ≠ 0 ∧ ((sTm 0 (opOf 0 0x10ff80000000000000000000000000000000700000000000000000000000200000000000000000000104100000000000000000000000000000043 .started) id).localRange .a f0 (aLkey (BitVec.ofNat 512 0x10ff80000000000000000000000000000000700000000000000000000000200000000000000000000104100000000000000000000000000000043)) rLW (aLaddr (BitVec.ofNat 512 0x10ff80000000000000000000000000000000700000000000000000000000200000000000000000000104100000000000000000000000000000043)) (atomicSize 0x43)).isOk = true) ∧
    ((sTm 0 (opOf 0 0x10ff80000000000000000000000000000000700000000000000000000000200000000000000000000104100000000000000000000000000000044 .started) id).inv ∧ tblWf (sTm 0 (opOf 0 0x10ff80000000000000000000000000000000700000000000000000000000200000000000000000000104100000000000000000000000000000044 .started) id).ops = true ∧ (∀ p ∈ ((sTm 0 (opOf 0 0x10ff80000000000000000000000000000000700000000000000000000000200000000000000000000104100000000000000000000000000000044 .started) id).tmu .a).pulls, p.op ≠ 7) ∧ (sTm 0 (opOf 0 0x10ff80000000000000000000000000000000700000000000000000000000200000000000000000000104100000000000000000000000000000044 .started) id).startedOp 7 (· == 0x44) = some (opOf 0 0x10ff80000000000000000000000000000000700000000000000000000000200000000000000000000104100000000000000000000000000000044 .started) ∧ aLkey (BitVec.ofNat 512 0x10ff80000000000000000000000000000000700000000000000000000000200000000000000000000104100000000000000000000000000000044) ≠ 0 ∧ ((sTm 0 (opOf 0 0x10ff80000000000000000000000000000000700000000000000000000000200000000000000000000104100000000000000000000000000000044 .started) id).localRange .a f0 (aLkey (BitVec.ofNat 512 0x10ff80000000000000000000000000000000700000000000000000000000200000000000000000000104100000000000000000000000000000044)) rLW (aLaddr (BitVec.ofNat 512 0x10ff80000000000000000000000000000000700000000000000000000000200000000000000000000104100000000000000000000000000000044)) (atomicSize 0x44)).isOk = true) ∧
    ((sTm 0 (opOf 0 0x10ff80000000000000000000000000000000700000000000000000000000200000000000000000000104100000000000000000000000000000045 .started) id).inv ∧ tblWf (sTm 0 (opOf 0 0x10ff80000000000000000000000000000000700000000000000000000000200000000000000000000104100000000000000000000000000000045 .started) id).ops = true ∧ (∀ p ∈ ((sTm 0 (opOf 0 0x10ff80000000000000000000000000000000700000000000000000000000200000000000000000000104100000000000000000000000000000045 .started) id).tmu .a).pulls, p.op ≠ 7) ∧ (sTm 0 (opOf 0 0x10ff80000000000000000000000000000000700000000000000000000000200000000000000000000104100000000000000000000000000000045 .started) id).startedOp 7 (· == 0x45) = some (opOf 0 0x10ff80000000000000000000000000000000700000000000000000000000200000000000000000000104100000000000000000000000000000045 .started) ∧ aLkey (BitVec.ofNat 512 0x10ff80000000000000000000000000000000700000000000000000000000200000000000000000000104100000000000000000000000000000045) ≠ 0 ∧ ((sTm 0 (opOf 0 0x10ff80000000000000000000000000000000700000000000000000000000200000000000000000000104100000000000000000000000000000045 .started) id).localRange .a f0 (aLkey (BitVec.ofNat 512 0x10ff80000000000000000000000000000000700000000000000000000000200000000000000000000104100000000000000000000000000000045)) rLW (aLaddr (BitVec.ofNat 512 0x10ff80000000000000000000000000000000700000000000000000000000200000000000000000000104100000000000000000000000000000045)) (atomicSize 0x45)).isOk = true) ∧
    ((sTm 0 (opOf 0 0x10ff80000000000000000000000000000000700000000000000000000000200000000000000000000104100000000000000000000000000000046 .started) id).inv ∧ tblWf (sTm 0 (opOf 0 0x10ff80000000000000000000000000000000700000000000000000000000200000000000000000000104100000000000000000000000000000046 .started) id).ops = true ∧ (∀ p ∈ ((sTm 0 (opOf 0 0x10ff80000000000000000000000000000000700000000000000000000000200000000000000000000104100000000000000000000000000000046 .started) id).tmu .a).pulls, p.op ≠ 7) ∧ (sTm 0 (opOf 0 0x10ff80000000000000000000000000000000700000000000000000000000200000000000000000000104100000000000000000000000000000046 .started) id).startedOp 7 (· == 0x46) = some (opOf 0 0x10ff80000000000000000000000000000000700000000000000000000000200000000000000000000104100000000000000000000000000000046 .started) ∧ aLkey (BitVec.ofNat 512 0x10ff80000000000000000000000000000000700000000000000000000000200000000000000000000104100000000000000000000000000000046) ≠ 0 ∧ ((sTm 0 (opOf 0 0x10ff80000000000000000000000000000000700000000000000000000000200000000000000000000104100000000000000000000000000000046 .started) id).localRange .a f0 (aLkey (BitVec.ofNat 512 0x10ff80000000000000000000000000000000700000000000000000000000200000000000000000000104100000000000000000000000000000046)) rLW (aLaddr (BitVec.ofNat 512 0x10ff80000000000000000000000000000000700000000000000000000000200000000000000000000104100000000000000000000000000000046)) (atomicSize 0x46)).isOk = true) ∧
    ((sTm 0 (opOf 0 0x10ff00000000000000000000000000000000700000000000000000000000200000000000000000000104100000000000000000000000000000048 .started) id).inv ∧ tblWf (sTm 0 (opOf 0 0x10ff00000000000000000000000000000000700000000000000000000000200000000000000000000104100000000000000000000000000000048 .started) id).ops = true ∧ (∀ p ∈ ((sTm 0 (opOf 0 0x10ff00000000000000000000000000000000700000000000000000000000200000000000000000000104100000000000000000000000000000048 .started) id).tmu .a).pulls, p.op ≠ 7) ∧ (sTm 0 (opOf 0 0x10ff00000000000000000000000000000000700000000000000000000000200000000000000000000104100000000000000000000000000000048 .started) id).startedOp 7 (· == 0x48) = some (opOf 0 0x10ff00000000000000000000000000000000700000000000000000000000200000000000000000000104100000000000000000000000000000048 .started) ∧ aLkey (BitVec.ofNat 512 0x10ff00000000000000000000000000000000700000000000000000000000200000000000000000000104100000000000000000000000000000048) ≠ 0 ∧ ((sTm 0 (opOf 0 0x10ff00000000000000000000000000000000700000000000000000000000200000000000000000000104100000000000000000000000000000048 .started) id).localRange .a f0 (aLkey (BitVec.ofNat 512 0x10ff00000000000000000000000000000000700000000000000000000000200000000000000000000104100000000000000000000000000000048)) rLW (aLaddr (BitVec.ofNat 512 0x10ff00000000000000000000000000000000700000000000000000000000200000000000000000000104100000000000000000000000000000048)) (atomicSize 0x48)).isOk = true) ∧
    ((sTm 0 (opOf 0 0x10ff00000000000000000000000000000000700000000000000000000000200000000000000000000104100000000000000000000000000000049 .started) id).inv ∧ tblWf (sTm 0 (opOf 0 0x10ff00000000000000000000000000000000700000000000000000000000200000000000000000000104100000000000000000000000000000049 .started) id).ops = true ∧ (∀ p ∈ ((sTm 0 (opOf 0 0x10ff00000000000000000000000000000000700000000000000000000000200000000000000000000104100000000000000000000000000000049 .started) id).tmu .a).pulls, p.op ≠ 7) ∧ (sTm 0 (opOf 0 0x10ff00000000000000000000000000000000700000000000000000000000200000000000000000000104100000000000000000000000000000049 .started) id).startedOp 7 (· == 0x49) = some (opOf 0 0x10ff00000000000000000000000000000000700000000000000000000000200000000000000000000104100000000000000000000000000000049 .started) ∧ aLkey (BitVec.ofNat 512 0x10ff00000000000000000000000000000000700000000000000000000000200000000000000000000104100000000000000000000000000000049) ≠ 0 ∧ ((sTm 0 (opOf 0 0x10ff00000000000000000000000000000000700000000000000000000000200000000000000000000104100000000000000000000000000000049 .started) id).localRange .a f0 (aLkey (BitVec.ofNat 512 0x10ff00000000000000000000000000000000700000000000000000000000200000000000000000000104100000000000000000000000000000049)) rLW (aLaddr (BitVec.ofNat 512 0x10ff00000000000000000000000000000000700000000000000000000000200000000000000000000104100000000000000000000000000000049)) (atomicSize 0x49)).isOk = true) ∧
    ((sTm 0 (opOf 0 0x10000000000000000000000000000000000000000000000000000000000300000000000000000000000000000000000000000000000000000049 .started) id).inv ∧ tblWf (sTm 0 (opOf 0 0x10000000000000000000000000000000000000000000000000000000000300000000000000000000000000000000000000000000000000000049 .started) id).ops = true ∧ (∀ p ∈ ((sTm 0 (opOf 0 0x10000000000000000000000000000000000000000000000000000000000300000000000000000000000000000000000000000000000000000049 .started) id).tmu .a).pulls, p.op ≠ 7) ∧ (sTm 0 (opOf 0 0x10000000000000000000000000000000000000000000000000000000000300000000000000000000000000000000000000000000000000000049 .started) id).startedOp 7 (· == 0x49) = some (opOf 0 0x10000000000000000000000000000000000000000000000000000000000300000000000000000000000000000000000000000000000000000049 .started) ∧ (sTm 0 (opOf 0 0x10000000000000000000000000000000000000000000000000000000000300000000000000000000000000000000000000000000000000000049 .started) id).localRange .a f0 (aLkey (BitVec.ofNat 512 0x10000000000000000000000000000000000000000000000000000000000300000000000000000000000000000000000000000000000000000049)) rLW (aLaddr (BitVec.ofNat 512 0x10000000000000000000000000000000000000000000000000000000000300000000000000000000000000000000000000000000000000000049)) (atomicSize 0x49) = .error xKEY) ∧
    ((∃ p ∈ [(0, 5)], p.1 + (sTm 0 { opOf 0 0x80000003000000000000000000000000104100000000000000000000000000000032 .running with chunks := 16, out := [(0, 5), (1, 5), (2, 5), (3, 5), (4, 5), (5, 5), (6, 5), (7, 5), (8, 5), (9, 5), (10, 5), (11, 5), (12, 5), (13, 5), (14, 5), (15, 5)] } id).chunkWindow .a ≤ 16) ∧ (sTm 0 { opOf 0 0x80000003000000000000000000000000104100000000000000000000000000000032 .running with chunks := 16, out := [(0, 5), (1, 5), (2, 5), (3, 5), (4, 5), (5, 5), (6, 5), (7, 5), (8, 5), (9, 5), (10, 5), (11, 5), (12, 5), (13, 5), (14, 5), (15, 5)] } id).op 7 = some { opOf 0 0x80000003000000000000000000000000104100000000000000000000000000000032 .running with chunks := 16, out := [(0, 5), (1, 5), (2, 5), (3, 5), (4, 5), (5, 5), (6, 5), (7, 5), (8, 5), (9, 5), (10, 5), (11, 5), (12, 5), (13, 5), (14, 5), (15, 5)] }) ∧
    ((sTm 0 { opOf 0 0x80000003000000000000000000000000104100000000000000000000000000000032 .running with chunks := 1 } id).inv ∧ tblWf (sTm 0 { opOf 0 0x80000003000000000000000000000000104100000000000000000000000000000032 .running with chunks := 1 } id).ops = true ∧ (∀ p ∈ ((sTm 0 { opOf 0 0x80000003000000000000000000000000104100000000000000000000000000000032 .running with chunks := 1 } id).tmu .a).pulls, p.op ≠ 7) ∧ (sTm 0 { opOf 0 0x80000003000000000000000000000000104100000000000000000000000000000032 .running with chunks := 1 } id).clusterAwake (opOf 0 0x80000003000000000000000000000000104100000000000000000000000000000032 .started) = true ∧ (opOf 0 0x80000003000000000000000000000000104100000000000000000000000000000032 .started).force = none ∧ (opOf 0 0x80000003000000000000000000000000104100000000000000000000000000000032 .started).out = [] ∧ (sTm 0 { opOf 0 0x80000003000000000000000000000000104100000000000000000000000000000032 .running with chunks := 1 } id).op 7 = some { opOf 0 0x80000003000000000000000000000000104100000000000000000000000000000032 .running with chunks := 1 } ∧ 1 < opChunks (opOf 0 0x80000003000000000000000000000000104100000000000000000000000000000032 .started) ∧ eOpcode (BitVec.ofNat 512 0x80000003000000000000000000000000104100000000000000000000000000000032) = opGET) ∧
    ((sTm 0 { opOf 0 0x1000000000000000000200000000000080000000800400000000000000000000104100000000000000000000000000000030 .running with chunks := 1 } id).inv ∧ tblWf (sTm 0 { opOf 0 0x1000000000000000000200000000000080000000800400000000000000000000104100000000000000000000000000000030 .running with chunks := 1 } id).ops = true ∧ (∀ p ∈ ((sTm 0 { opOf 0 0x1000000000000000000200000000000080000000800400000000000000000000104100000000000000000000000000000030 .running with chunks := 1 } id).tmu .a).pulls, p.op ≠ 7) ∧ (sTm 0 { opOf 0 0x1000000000000000000200000000000080000000800400000000000000000000104100000000000000000000000000000030 .running with chunks := 1 } id).clusterAwake (opOf 0 0x1000000000000000000200000000000080000000800400000000000000000000104100000000000000000000000000000030 .started) = true ∧ (opOf 0 0x1000000000000000000200000000000080000000800400000000000000000000104100000000000000000000000000000030 .started).force = none ∧ (opOf 0 0x1000000000000000000200000000000080000000800400000000000000000000104100000000000000000000000000000030 .started).out = [] ∧ (sTm 0 { opOf 0 0x1000000000000000000200000000000080000000800400000000000000000000104100000000000000000000000000000030 .running with chunks := 1 } id).op 7 = some { opOf 0 0x1000000000000000000200000000000080000000800400000000000000000000104100000000000000000000000000000030 .running with chunks := 1 } ∧ 1 < opChunks (opOf 0 0x1000000000000000000200000000000080000000800400000000000000000000104100000000000000000000000000000030 .started) ∧ eOpcode (BitVec.ofNat 512 0x1000000000000000000200000000000080000000800400000000000000000000104100000000000000000000000000000030) ≠ opGET ∧ rInline (BitVec.ofNat 512 0x1000000000000000000200000000000080000000800400000000000000000000104100000000000000000000000000000030) = false ∧ rLength (BitVec.ofNat 512 0x1000000000000000000200000000000080000000800400000000000000000000104100000000000000000000000000000030) ≠ 0 ∧ (sTm 0 { opOf 0 0x1000000000000000000200000000000080000000800400000000000000000000104100000000000000000000000000000030 .running with chunks := 1 } id).localRange .a f0 2 rLR 0x1000 0x8004 = .ok 0 ∧ (chunkSpan (rRaddr (BitVec.ofNat 512 0x1000000000000000000200000000000080000000800400000000000000000000104100000000000000000000000000000030)) (rLength (BitVec.ofNat 512 0x1000000000000000000200000000000080000000800400000000000000000000104100000000000000000000000000000030)) 1) = (0x10000, 4) ∧ ((sTm 0 { opOf 0 0x1000000000000000000200000000000080000000800400000000000000000000104100000000000000000000000000000030 .running with chunks := 1 } id).rangeReady .a 2 0x8000 4 .rd).2.isOk = true) := by
  repeat' apply And.intro
  all_goals decide +kernel

/-- Context 0 of die A, to FEA 77, whose packets up to number `cum` have landed; a device region under key 2,050. -/
def ctx0 : Ctx := sBase.ctxNew .a 0 77 .live 0
def regionDev : Region := ⟨true, 2, f0, 0, .device, 31, true, 0, 0x1000, 0, 0x20000, false⟩
def sTarget (h : Handed) (cum : Nat) : State :=
  let s := ((sHand { sTm 0 (op0 0 .started) id with ops := [] } h).modTru .a (fun t => { t with ctxs := [(0, { ctx0 with cum := cum })] })).modXlu .a (fun x => { x with regions := x.regions ++ [(1, regionDev)] })
  { s with mem := [(0x20008, 5)], queues := [], ctrs := sCtr.ctrs }
/-- A request packet: address, key, packet flags, length. -/
def req (c addr key flags len : Nat) (data : List Byte) : Handed := handed3 c (addr + key * 2 ^ 64 + 6 * 2 ^ 96 + flags * 2 ^ 128 + len * 2 ^ 160) data

def sHeldFlag (cum : Nat) : State := (sTarget (req cRMA_PUT 8 2050 4 4 [1, 2, 3, 4]) cum).modRma .a (fun x => { x with flags := [⟨3, 0⟩] })
def event5 (ctr : Option Nat) : Deferred := ⟨5, 0, 9, 6, ctr, 0, some (0, 4, 77, 0x55, 2050)⟩
def sEvent (cum : Nat) (ctr : Option Nat) : State := (sTarget (req cRMA_PUT 8 2050 4 4 []) cum).modRma .a (fun x => { x with events := [event5 ctr] })

def sVoid (ctr : Option Nat) : State := (sEvent 9 ctr).modRma .a (fun x => { x with failed := [⟨0, 6, 8⟩] })

theorem test_RemoteAccessAtTheTarget_meets :
    ((sTarget (req cRMA_PUT 8 2050 4 8 [1]) 7).inv ∧ (sTarget (req cRMA_PUT 8 2050 4 8 [1]) 7).handedPkt .a 3 (· == cRMA_PUT) = some (req cRMA_PUT 8 2050 4 8 [1]) ∧ ((sTarget (req cRMA_PUT 8 2050 4 8 [1]) 7).rma .a).flags.any (fun f => f.handed == 3) = false ∧ qBit (req cRMA_PUT 8 2050 4 8 [1]).pkt 2 = true ∧ (sTarget (req cRMA_PUT 8 2050 4 8 [1]) 7).lowerLanded .a 0 9 = false ∧ (sTarget (req cRMA_PUT 8 2050 4 8 [1]) 7).flagUsed .a < 8192) ∧
    ((sTarget (req cRMA_NOTIFY 8 2050 4 8 [1]) 7).inv ∧ (sTarget (req cRMA_NOTIFY 8 2050 4 8 [1]) 7).handedPkt .a 3 (· == cRMA_NOTIFY) = some (req cRMA_NOTIFY 8 2050 4 8 [1]) ∧ ((sTarget (req cRMA_NOTIFY 8 2050 4 8 [1]) 7).rma .a).flags.any (fun f => f.handed == 3) = false ∧ qBit (req cRMA_NOTIFY 8 2050 4 8 [1]).pkt 2 = true ∧ (sTarget (req cRMA_NOTIFY 8 2050 4 8 [1]) 7).lowerLanded .a 0 9 = false ∧ (sTarget (req cRMA_NOTIFY 8 2050 4 8 [1]) 7).flagUsed .a < 8192) ∧
    ((sTarget (req cRMA_GET_REQ 8 2050 4 8 [1]) 7).inv ∧ (sTarget (req cRMA_GET_REQ 8 2050 4 8 [1]) 7).handedPkt .a 3 (· == cRMA_GET_REQ) = some (req cRMA_GET_REQ 8 2050 4 8 [1]) ∧ ((sTarget (req cRMA_GET_REQ 8 2050 4 8 [1]) 7).rma .a).flags.any (fun f => f.handed == 3) = false ∧ qBit (req cRMA_GET_REQ 8 2050 4 8 [1]).pkt 2 = true ∧ (sTarget (req cRMA_GET_REQ 8 2050 4 8 [1]) 7).lowerLanded .a 0 9 = false ∧ (sTarget (req cRMA_GET_REQ 8 2050 4 8 [1]) 7).flagUsed .a < 8192) ∧
    ((sTarget (req cRMA_ATOMIC 8 2050 4 8 [1]) 7).inv ∧ (sTarget (req cRMA_ATOMIC 8 2050 4 8 [1]) 7).handedPkt .a 3 (· == cRMA_ATOMIC) = some (req cRMA_ATOMIC 8 2050 4 8 [1]) ∧ ((sTarget (req cRMA_ATOMIC 8 2050 4 8 [1]) 7).rma .a).flags.any (fun f => f.handed == 3) = false ∧ qBit (req cRMA_ATOMIC 8 2050 4 8 [1]).pkt 2 = true ∧ (sTarget (req cRMA_ATOMIC 8 2050 4 8 [1]) 7).lowerLanded .a 0 9 = false ∧ (sTarget (req cRMA_ATOMIC 8 2050 4 8 [1]) 7).flagUsed .a < 8192) ∧
    ((sTarget (req cRMA_PUT 8 2050 (12 + 16 * 3) 4 [1, 2, 3, 4]) 8).inv ∧ (sTarget (req cRMA_PUT 8 2050 (12 + 16 * 3) 4 [1, 2, 3, 4]) 8).handedPkt .a 3 (· == cRMA_PUT) = some (req cRMA_PUT 8 2050 (12 + 16 * 3) 4 [1, 2, 3, 4]) ∧ ((sTarget (req cRMA_PUT 8 2050 (12 + 16 * 3) 4 [1, 2, 3, 4]) 8).rma .a).flags.any (fun f => f.handed == 3) = false ∧ qBit (req cRMA_PUT 8 2050 (12 + 16 * 3) 4 [1, 2, 3, 4]).pkt 2 = true ∧ (sTarget (req cRMA_PUT 8 2050 (12 + 16 * 3) 4 [1, 2, 3, 4]) 8).lowerLanded .a 0 9 = true ∧ ((sTarget (req cRMA_PUT 8 2050 (12 + 16 * 3) 4 [1, 2, 3, 4]) 8).flagFence .a (req cRMA_PUT 8 2050 (12 + 16 * 3) 4 [1, 2, 3, 4])).2 = true ∧ ((sTarget (req cRMA_PUT 8 2050 (12 + 16 * 3) 4 [1, 2, 3, 4]) 8).flagFence .a (req cRMA_PUT 8 2050 (12 + 16 * 3) 4 [1, 2, 3, 4])).1 = (sTarget (req cRMA_PUT 8 2050 (12 + 16 * 3) 4 [1, 2, 3, 4]) 8) ∧ (((sTarget (req cRMA_PUT 8 2050 (12 + 16 * 3) 4 [1, 2, 3, 4]) 8).rmaReady .a (req cRMA_PUT 8 2050 (12 + 16 * 3) 4 [1, 2, 3, 4])).targetRange .a (req cRMA_PUT 8 2050 (12 + 16 * 3) 4 [1, 2, 3, 4]) rRWR 8 4 .wr (State.putStep .a (req cRMA_PUT 8 2050 (12 + 16 * 3) 4 [1, 2, 3, 4]) true)).2 = some (regionDev, [(.dev 0x20008, 4)]) ∧ qBit (req cRMA_PUT 8 2050 (12 + 16 * 3) 4 [1, 2, 3, 4]).pkt 3 = true) ∧
    ((sTarget (req cRMA_PUT 0xFFC 2050 0 4 [1, 2, 3, 4]) 3).inv ∧ (sTarget (req cRMA_PUT 0xFFC 2050 0 4 [1, 2, 3, 4]) 3).handedPkt .a 3 (· == cRMA_PUT) = some (req cRMA_PUT 0xFFC 2050 0 4 [1, 2, 3, 4]) ∧ ((sTarget (req cRMA_PUT 0xFFC 2050 0 4 [1, 2, 3, 4]) 3).rma .a).flags.any (fun f => f.handed == 3) = false ∧ qBit (req cRMA_PUT 0xFFC 2050 0 4 [1, 2, 3, 4]).pkt 2 = false ∧ (((sTarget (req cRMA_PUT 0xFFC 2050 0 4 [1, 2, 3, 4]) 3).rmaReady .a (req cRMA_PUT 0xFFC 2050 0 4 [1, 2, 3, 4])).targetRange .a (req cRMA_PUT 0xFFC 2050 0 4 [1, 2, 3, 4]) rRWR 0xFFC 4 .wr (State.putStep .a (req cRMA_PUT 0xFFC 2050 0 4 [1, 2, 3, 4]) false)).2 = some (regionDev, [(.dev 0x20FFC, 4)]) ∧ qBit (req cRMA_PUT 0xFFC 2050 0 4 [1, 2, 3, 4]).pkt 3 = false) ∧
    ((sTarget (req cRMA_NOTIFY 0x55 2050 (1 + 8 + 16 * 3 + 2 ^ 15) 4 []) 3).inv ∧ (sTarget (req cRMA_NOTIFY 0x55 2050 (1 + 8 + 16 * 3 + 2 ^ 15) 4 []) 3).handedPkt .a 3 (· == cRMA_NOTIFY) = some (req cRMA_NOTIFY 0x55 2050 (1 + 8 + 16 * 3 + 2 ^ 15) 4 []) ∧ ((sTarget (req cRMA_NOTIFY 0x55 2050 (1 + 8 + 16 * 3 + 2 ^ 15) 4 []) 3).rma .a).flags.any (fun f => f.handed == 3) = false ∧ qBit (req cRMA_NOTIFY 0x55 2050 (1 + 8 + 16 * 3 + 2 ^ 15) 4 []).pkt 2 = false ∧ (((sTarget (req cRMA_NOTIFY 0x55 2050 (1 + 8 + 16 * 3 + 2 ^ 15) 4 []) 3).rmaReady .a (req cRMA_NOTIFY 0x55 2050 (1 + 8 + 16 * 3 + 2 ^ 15) 4 [])).targetRange .a (req cRMA_NOTIFY 0x55 2050 (1 + 8 + 16 * 3 + 2 ^ 15) 4 []) rRWR 0 0 .wr (State.putStep .a (req cRMA_NOTIFY 0x55 2050 (1 + 8 + 16 * 3 + 2 ^ 15) 4 []) true)).2 = some (regionDev, [])) ∧
    ((sTarget (req cRMA_GET_REQ 8 2050 3 4 []) 3).inv ∧ (sTarget (req cRMA_GET_REQ 8 2050 3 4 []) 3).handedPkt .a 3 (· == cRMA_GET_REQ) = some (req cRMA_GET_REQ 8 2050 3 4 []) ∧ ((sTarget (req cRMA_GET_REQ 8 2050 3 4 []) 3).rma .a).flags.any (fun f => f.handed == 3) = false ∧ qBit (req cRMA_GET_REQ 8 2050 3 4 []).pkt 2 = false ∧ qBit (req cRMA_GET_REQ 8 2050 3 4 []).pkt 0 = true ∧ (((sTarget (req cRMA_GET_REQ 8 2050 3 4 []) 3).rmaReady .a (req cRMA_GET_REQ 8 2050 3 4 [])).targetRange .a (req cRMA_GET_REQ 8 2050 3 4 []) rRR 8 4 .rd (State.eventStep .a (req cRMA_GET_REQ 8 2050 3 4 []))).2 = some (regionDev, [(.dev 0x20008, 4)]) ∧ ((((sTarget (req cRMA_GET_REQ 8 2050 3 4 []) 3).rmaReady .a (req cRMA_GET_REQ 8 2050 3 4 [])).targetRange .a (req cRMA_GET_REQ 8 2050 3 4 []) rRR 8 4 .rd (State.eventStep .a (req cRMA_GET_REQ 8 2050 3 4 []))).1.recallSegs [(.dev 0x20008, 4)] false).2 = true ∧ regionOffset regionDev true 8 = some 8) ∧
    ((sTarget (req cRMA_ATOMIC 8 2050 (3 + 8 + 16 * 3) 0x40 (leBytes 16 3 ++ leBytes 48 0)) 3).inv ∧ (sTarget (req cRMA_ATOMIC 8 2050 (3 + 8 + 16 * 3) 0x40 (leBytes 16 3 ++ leBytes 48 0)) 3).handedPkt .a 3 (· == cRMA_ATOMIC) = some (req cRMA_ATOMIC 8 2050 (3 + 8 + 16 * 3) 0x40 (leBytes 16 3 ++ leBytes 48 0)) ∧ ((sTarget (req cRMA_ATOMIC 8 2050 (3 + 8 + 16 * 3) 0x40 (leBytes 16 3 ++ leBytes 48 0)) 3).rma .a).flags.any (fun f => f.handed == 3) = false ∧ qBit (req cRMA_ATOMIC 8 2050 (3 + 8 + 16 * 3) 0x40 (leBytes 16 3 ++ leBytes 48 0)).pkt 2 = false ∧ (atomicArgs (req cRMA_ATOMIC 8 2050 (3 + 8 + 16 * 3) 0x40 (leBytes 16 3 ++ leBytes 48 0)).pkt).1 = 8 ∧ (((sTarget (req cRMA_ATOMIC 8 2050 (3 + 8 + 16 * 3) 0x40 (leBytes 16 3 ++ leBytes 48 0)) 3).rmaReady .a (req cRMA_ATOMIC 8 2050 (3 + 8 + 16 * 3) 0x40 (leBytes 16 3 ++ leBytes 48 0))).targetRange .a (req cRMA_ATOMIC 8 2050 (3 + 8 + 16 * 3) 0x40 (leBytes 16 3 ++ leBytes 48 0)) rRA 8 8 .at (State.eventStep .a (req cRMA_ATOMIC 8 2050 (3 + 8 + 16 * 3) 0x40 (leBytes 16 3 ++ leBytes 48 0)))).2 = some (regionDev, [(.dev 0x20008, 8)]) ∧ ((((sTarget (req cRMA_ATOMIC 8 2050 (3 + 8 + 16 * 3) 0x40 (leBytes 16 3 ++ leBytes 48 0)) 3).rmaReady .a (req cRMA_ATOMIC 8 2050 (3 + 8 + 16 * 3) 0x40 (leBytes 16 3 ++ leBytes 48 0))).targetRange .a (req cRMA_ATOMIC 8 2050 (3 + 8 + 16 * 3) 0x40 (leBytes 16 3 ++ leBytes 48 0)) rRA 8 8 .at (State.eventStep .a (req cRMA_ATOMIC 8 2050 (3 + 8 + 16 * 3) 0x40 (leBytes 16 3 ++ leBytes 48 0)))).1.recallFor 0x20008 8 true).2 = true ∧ ((((sTarget (req cRMA_ATOMIC 8 2050 (3 + 8 + 16 * 3) 0x40 (leBytes 16 3 ++ leBytes 48 0)) 3).rmaReady .a (req cRMA_ATOMIC 8 2050 (3 + 8 + 16 * 3) 0x40 (leBytes 16 3 ++ leBytes 48 0))).targetRange .a (req cRMA_ATOMIC 8 2050 (3 + 8 + 16 * 3) 0x40 (leBytes 16 3 ++ leBytes 48 0)) rRA 8 8 .at (State.eventStep .a (req cRMA_ATOMIC 8 2050 (3 + 8 + 16 * 3) 0x40 (leBytes 16 3 ++ leBytes 48 0)))).1.recallFor 0x20008 8 true).1.mpoison 0x20008 8 = false) ∧
    ({ sTarget (req cRMA_ATOMIC 8 2050 (3 + 8 + 16 * 3) 0x40 (leBytes 16 3 ++ leBytes 48 0)) 3 with poison := [0x20008] }.inv ∧ { sTarget (req cRMA_ATOMIC 8 2050 (3 + 8 + 16 * 3) 0x40 (leBytes 16 3 ++ leBytes 48 0)) 3 with poison := [0x20008] }.handedPkt .a 3 (· == cRMA_ATOMIC) = some (req cRMA_ATOMIC 8 2050 (3 + 8 + 16 * 3) 0x40 (leBytes 16 3 ++ leBytes 48 0)) ∧ ({ sTarget (req cRMA_ATOMIC 8 2050 (3 + 8 + 16 * 3) 0x40 (leBytes 16 3 ++ leBytes 48 0)) 3 with poison := [0x20008] }.rma .a).flags.any (fun f => f.handed == 3) = false ∧ qBit (req cRMA_ATOMIC 8 2050 (3 + 8 + 16 * 3) 0x40 (leBytes 16 3 ++ leBytes 48 0)).pkt 2 = false ∧ (atomicArgs (req cRMA_ATOMIC 8 2050 (3 + 8 + 16 * 3) 0x40 (leBytes 16 3 ++ leBytes 48 0)).pkt).1 = 8 ∧ (({ sTarget (req cRMA_ATOMIC 8 2050 (3 + 8 + 16 * 3) 0x40 (leBytes 16 3 ++ leBytes 48 0)) 3 with poison := [0x20008] }.rmaReady .a (req cRMA_ATOMIC 8 2050 (3 + 8 + 16 * 3) 0x40 (leBytes 16 3 ++ leBytes 48 0))).targetRange .a (req cRMA_ATOMIC 8 2050 (3 + 8 + 16 * 3) 0x40 (leBytes 16 3 ++ leBytes 48 0)) rRA 8 8 .at (State.eventStep .a (req cRMA_ATOMIC 8 2050 (3 + 8 + 16 * 3) 0x40 (leBytes 16 3 ++ leBytes 48 0)))).2 = some (regionDev, [(.dev 0x20008, 8)]) ∧ ((({ sTarget (req cRMA_ATOMIC 8 2050 (3 + 8 + 16 * 3) 0x40 (leBytes 16 3 ++ leBytes 48 0)) 3 with poison := [0x20008] }.rmaReady .a (req cRMA_ATOMIC 8 2050 (3 + 8 + 16 * 3) 0x40 (leBytes 16 3 ++ leBytes 48 0))).targetRange .a (req cRMA_ATOMIC 8 2050 (3 + 8 + 16 * 3) 0x40 (leBytes 16 3 ++ leBytes 48 0)) rRA 8 8 .at (State.eventStep .a (req cRMA_ATOMIC 8 2050 (3 + 8 + 16 * 3) 0x40 (leBytes 16 3 ++ leBytes 48 0)))).1.recallFor 0x20008 8 true).2 = true ∧ ((({ sTarget (req cRMA_ATOMIC 8 2050 (3 + 8 + 16 * 3) 0x40 (leBytes 16 3 ++ leBytes 48 0)) 3 with poison := [0x20008] }.rmaReady .a (req cRMA_ATOMIC 8 2050 (3 + 8 + 16 * 3) 0x40 (leBytes 16 3 ++ leBytes 48 0))).targetRange .a (req cRMA_ATOMIC 8 2050 (3 + 8 + 16 * 3) 0x40 (leBytes 16 3 ++ leBytes 48 0)) rRA 8 8 .at (State.eventStep .a (req cRMA_ATOMIC 8 2050 (3 + 8 + 16 * 3) 0x40 (leBytes 16 3 ++ leBytes 48 0)))).1.recallFor 0x20008 8 true).1.mpoison 0x20008 8 = true) ∧
    ((sTarget (req cRMA_ATOMIC 0x1008 2 3 0x40 (leBytes 16 3 ++ leBytes 48 0)) 3).inv ∧ (sTarget (req cRMA_ATOMIC 0x1008 2 3 0x40 (leBytes 16 3 ++ leBytes 48 0)) 3).handedPkt .a 3 (· == cRMA_ATOMIC) = some (req cRMA_ATOMIC 0x1008 2 3 0x40 (leBytes 16 3 ++ leBytes 48 0)) ∧ ((sTarget (req cRMA_ATOMIC 0x1008 2 3 0x40 (leBytes 16 3 ++ leBytes 48 0)) 3).rma .a).flags.any (fun f => f.handed == 3) = false ∧ qBit (req cRMA_ATOMIC 0x1008 2 3 0x40 (leBytes 16 3 ++ leBytes 48 0)).pkt 2 = false ∧ (atomicArgs (req cRMA_ATOMIC 0x1008 2 3 0x40 (leBytes 16 3 ++ leBytes 48 0)).pkt).1 = 8 ∧ ((((sTarget (req cRMA_ATOMIC 0x1008 2 3 0x40 (leBytes 16 3 ++ leBytes 48 0)) 3).rmaReady .a (req cRMA_ATOMIC 0x1008 2 3 0x40 (leBytes 16 3 ++ leBytes 48 0))).targetRange .a (req cRMA_ATOMIC 0x1008 2 3 0x40 (leBytes 16 3 ++ leBytes 48 0)) rRA 0x1008 8 .at (State.eventStep .a (req cRMA_ATOMIC 0x1008 2 3 0x40 (leBytes 16 3 ++ leBytes 48 0)))).2.map (fun x => x.2.map (fun y => (match y.1 with | .host f a _ _ => f == f0 && a == 0x9008 | _ => false, y.2)))) = some [(true, 8)] ∧ ((((sTarget (req cRMA_ATOMIC 0x1008 2 3 0x40 (leBytes 16 3 ++ leBytes 48 0)) 3).rmaReady .a (req cRMA_ATOMIC 0x1008 2 3 0x40 (leBytes 16 3 ++ leBytes 48 0))).targetRange .a (req cRMA_ATOMIC 0x1008 2 3 0x40 (leBytes 16 3 ++ leBytes 48 0)) rRA 0x1008 8 .at (State.eventStep .a (req cRMA_ATOMIC 0x1008 2 3 0x40 (leBytes 16 3 ++ leBytes 48 0)))).1.rma .a).atomics = [] ∧ (((sTarget (req cRMA_ATOMIC 0x1008 2 3 0x40 (leBytes 16 3 ++ leBytes 48 0)) 3).rmaReady .a (req cRMA_ATOMIC 0x1008 2 3 0x40 (leBytes 16 3 ++ leBytes 48 0))).targetRange .a (req cRMA_ATOMIC 0x1008 2 3 0x40 (leBytes 16 3 ++ leBytes 48 0)) rRA 0x1008 8 .at (State.eventStep .a (req cRMA_ATOMIC 0x1008 2 3 0x40 (leBytes 16 3 ++ leBytes 48 0)))).1.rd .a RMA.RMA_CFG.ATOMIC_HOST = 1) ∧
    ((sHeldFlag 8).inv ∧ ((sHeldFlag 8).rma .a).flags.find? (fun f => f.handed == 3) = some ⟨3, 0⟩ ∧ ((sHeldFlag 8).handedPkt .a 3 (fun _ => true)).isSome = true ∧ (sHeldFlag 8).lowerLanded .a 0 9 = true) ∧
    (((sHeldFlag 7).rma .a).flags.find? (fun f => f.handed == 3) = some ⟨3, 0⟩ ∧ ((sHeldFlag 7).handedPkt .a 3 (fun _ => true)).isSome = true ∧ (sHeldFlag 7).lowerLanded .a 0 9 = false) ∧
    ((sEvent 9 (some 3)).inv ∧ ((sEvent 9 (some 3)).rma .a).events.find? (fun e => e.id == 5) = some (event5 (some 3)) ∧ (sEvent 9 (some 3)).landedTo .a 0 9 = true ∧ (sEvent 9 (some 3)).context (3 / 16) ≠ 0 ∧ (sEvent 9 (some 3)).eventVoid .a (event5 (some 3)) = false) ∧
    (((sEvent 8 (some 3)).rma .a).events.find? (fun e => e.id == 5) = some (event5 (some 3)) ∧ (sEvent 8 (some 3)).landedTo .a 0 9 = false) ∧
    (((sEvent 9 none).rma .a).events.find? (fun e => e.id == 5) = some (event5 none) ∧ (sEvent 9 none).landedTo .a 0 9 = true ∧ ((sEvent 9 none).ring 0).isSome = true ∧ (sEvent 9 none).eventVoid .a (event5 none) = false) ∧
    (((sEvent 8 none).rma .a).events.find? (fun e => e.id == 5) = some (event5 none) ∧ (sEvent 8 none).landedTo .a 0 9 = false) ∧
    (((sVoid (some 3)).rma .a).events.find? (fun e => e.id == 5) = some (event5 (some 3)) ∧ (sVoid (some 3)).landedTo .a 0 9 = true ∧ (sVoid (some 3)).eventVoid .a (event5 (some 3)) = true) ∧
    (((sVoid none).rma .a).events.find? (fun e => e.id == 5) = some (event5 none) ∧ (sVoid none).landedTo .a 0 9 = true ∧ ((sVoid none).ring 0).isSome = true ∧ (sVoid none).eventVoid .a (event5 none) = true) := by
  repeat' apply And.intro
  all_goals decide +kernel

def getOp : WOp := { opOf 0 0x1000000000000000000200000000000000000000000800000000000000000000000000000000000000000000000000000032 .running with expect := 8, out := [(0, 8)], chunks := 1 }
def getData (op : Nat) : Handed := handed3 cRMA_GET_DATA (op + 4 * 2 ^ 32) [1, 2, 3, 4]
def atRsp (op : Nat) : Handed := handed3 cRMA_ATOMIC_RSP (5 + 6 * 2 ^ 64 + op * 2 ^ 128) []

def bad7 : Handed := { atRsp 7 with pkt := setPoison (atRsp 7).pkt true }

def forcedOp : WOp := { opOf 0 0x40 .running with unacked := 1, expect := 1, force := some 0x10 }

def sRead : State :=
  let s := sBase.modSluice .a (fun x => { x with waiting := [⟨4, { mkPkt cRMA_PUT vREQ true 0 0 0 [] with data := List.replicate 64 7, len := 1 }, .region 2 0 64, 0, 2, none, false, false, none⟩] })
  { s with reads := [(2, ⟨.a, f0, 4, 8, 3, .packet, none⟩)], nextRead := 3 }

theorem test_RemoteAccessAnswers_meets :
    ((sMsg0 (getData 6) getOp).inv ∧ tblWf (sMsg0 (getData 6) getOp).ops = true ∧ (sMsg0 (getData 6) getOp).handedPkt .a 3 (· == cRMA_GET_DATA) = some (getData 6) ∧ (sMsg0 (getData 6) getOp).opById .a ((getData 6).pkt.opf 0 32) 0 = none) ∧
    ((sMsg0 (atRsp 6) getOp).inv ∧ tblWf (sMsg0 (atRsp 6) getOp).ops = true ∧ (sMsg0 (atRsp 6) getOp).handedPkt .a 3 (· == cRMA_ATOMIC_RSP) = some (atRsp 6) ∧ (sMsg0 (atRsp 6) getOp).opById .a ((atRsp 6).pkt.opf 128 32) 0 = none) ∧
    ((sMsg0 (getData 7) getOp).handedPkt .a 3 (· == cRMA_GET_DATA) = some (getData 7) ∧ (sMsg0 (getData 7) getOp).opById .a ((getData 7).pkt.opf 0 32) 0 = some (7, getOp) ∧ getOp.force = none ∧ (getData 7).pkt.srcPoison = false ∧ ((sMsg0 (getData 7) getOp).writeLocal .a f0 2 (0x1000 + 4) (pktData (getData 7).pkt) false).2 = .data [] false) ∧
    ((sMsg0 (atRsp 7) { opOf 0 0x40 .running with unacked := 1, expect := 1 }).handedPkt .a 3 (· == cRMA_ATOMIC_RSP) = some (atRsp 7) ∧ (sMsg0 (atRsp 7) { opOf 0 0x40 .running with unacked := 1, expect := 1 }).opById .a ((atRsp 7).pkt.opf 128 32) 0 = some (7, { opOf 0 0x40 .running with unacked := 1, expect := 1 }) ∧ (opOf 0 0x40 .running).force = none ∧ (atRsp 7).pkt.srcPoison = false ∧ aLkey (BitVec.ofNat 512 0x40) = 0) ∧
    ((sMsg0 (atRsp 7) { opOf 0 0x10000000000000000000000000000000000000000000000000000000000200000000000000000000000000000000000000000000000000000049 .running with unacked := 1, expect := 1 }).handedPkt .a 3 (· == cRMA_ATOMIC_RSP) = some (atRsp 7) ∧ (sMsg0 (atRsp 7) { opOf 0 0x10000000000000000000000000000000000000000000000000000000000200000000000000000000000000000000000000000000000000000049 .running with unacked := 1, expect := 1 }).opById .a ((atRsp 7).pkt.opf 128 32) 0 = some (7, { opOf 0 0x10000000000000000000000000000000000000000000000000000000000200000000000000000000000000000000000000000000000000000049 .running with unacked := 1, expect := 1 }) ∧ (opOf 0 0x10000000000000000000000000000000000000000000000000000000000200000000000000000000000000000000000000000000000000000049 .running).force = none ∧ aLkey (BitVec.ofNat 512 0x10000000000000000000000000000000000000000000000000000000000200000000000000000000000000000000000000000000000000000049) ≠ 0 ∧ ((sMsg0 (atRsp 7) { opOf 0 0x10000000000000000000000000000000000000000000000000000000000200000000000000000000000000000000000000000000000000000049 .running with unacked := 1, expect := 1 }).writeLocal .a f0 2 0x1000 (leBytes 16 ((atRsp 7).pkt.opf 0 128)) false).2 = .data [] false) ∧
    ((sMsg0 bad7 { opOf 0 0x40 .running with unacked := 1, expect := 1 }).handedPkt .a 3 (· == cRMA_ATOMIC_RSP) = some bad7 ∧ (sMsg0 bad7 { opOf 0 0x40 .running with unacked := 1, expect := 1 }).opById .a (bad7.pkt.opf 128 32) 0 = some (7, { opOf 0 0x40 .running with unacked := 1, expect := 1 }) ∧ bad7.pkt.srcPoison = true ∧ ({ opOf 0 0x40 .running with unacked := 1, expect := 1 } : WOp).force = none) ∧
    ((sMsg0 (atRsp 7) forcedOp).inv ∧ tblWf (sMsg0 (atRsp 7) forcedOp).ops = true ∧ (sMsg0 (atRsp 7) forcedOp).handedPkt .a 3 (· == cRMA_ATOMIC_RSP) = some (atRsp 7) ∧ (sMsg0 (atRsp 7) forcedOp).opById .a ((atRsp 7).pkt.opf 128 32) 0 = some (7, forcedOp) ∧ forcedOp.force ≠ none) ∧
    (sRead.inv ∧ tget sRead.reads 2 = some ⟨.a, f0, 4, 8, 3, .packet, none⟩ ∧ tblWf sRead.reads = true ∧ (sRead.sluice .a).waiting.map (·.id) = [4]) ∧
    (tget { sRead with reads := [(2, ⟨.a, f0, 4, 8, 3, .fence, none⟩)] }.reads 2 = some ⟨.a, f0, 4, 8, 3, .fence, none⟩) := by
  repeat' apply And.intro
  all_goals decide +kernel

/-- The rates and the cache of the transport unit, both units on; contexts `l` on die A. -/
def sCtx (l : Tbl Ctx) (f : Tru → Tru) : State :=
  (sBase.wrs .a [(TRU.CTX_CACHE.ENTRIES, 1024), (HDR.CTRL.ENABLE 0x1000000, 1), (HDR.CTRL.ENABLE 0x2000000, 1), (DIKE.PT_CAPACITY.ENTRIES, 4096)]).modTru .a (fun t => f { t with ctxs := l })
def crc (p : Pkt) : Pkt := { p with crc := hdrCrc p }
/-- Eight internal ports with credits. -/
def credits (s : State) : State := s.modDie .a (fun x => { x with swc := { x.swc with shr := (List.range 8).map (fun k => (192 + k, 5)) } })
def ctlPkt : Pkt := { mkPkt cTRU_ACK vRSP false 77 0 0 [] with src := 0 }
def sCtl : State := (credits (sCtx [] id)).modSluice .a (fun x => { x with ctl := [ctlPkt] })
def wait4 : WPkt := ⟨4, mkPkt cRMA_PUT vREQ true 77 0 0 [1, 2], .held [1, 2], 0, 2, none, true, false, none⟩
def sWait : State := (credits (sCtx [(0, ctx0)] id)).modSluice .a (fun x => { x with waiting := [wait4] })
theorem injRoom_mod (s : State) (d : Die) (h : Nat) (p : Pkt) : s.injRoom d h p = s.injRoom d (h % 8) p := by
  simp [State.injRoom, ipKey]
theorem injRoom_any {s : State} {d : Die} {p : Pkt} (h : ∀ k : Fin 8, s.injRoom d k.val p = true) (x : Nat) : s.injRoom d x p = true := by
  rw [injRoom_mod]; exact h ⟨x % 8, Nat.mod_lt _ (by decide)⟩

def sPrep : State := ((sWait.sluicePrep .a).throttleSync .a vREQ).throttleSync .a vCOL
def hasRoom (p : Pkt) : Bool := decide (sPrep.injUsed .a + pktUnits p ≤ 32768)
theorem sPrep_credit (h vc : Nat) : sPrep.hasCredit .a (128 + ipKey h) vc = true := by
  have k : ∀ k : Fin 8, 0 < nget (sPrep.swc .a).shr (128 + (64 + k.val)) := by decide +kernel
  simp only [State.hasCredit, ipKey, Bool.or_eq_true]
  exact .inl (decide_eq_true (k ⟨h % 8, Nat.mod_lt _ (by decide)⟩))
theorem sPrep_passes : (fun w => sPrep.passes .a w) = fun w => sPrep.injectOpen .a && w.ready && sPrep.pacePass .a w &&
    sPrep.shapePass .a (sPrep.wEnt .a w) && sPrep.throttlePass .a w.pkt && hasRoom w.pkt := by
  funext w; simp only [State.passes, State.injRoom, sPrep_credit, Bool.and_true, hasRoom]
def pickSource (lane ent src : Nat) : Option WPkt :=
  (offers (sPrep.sourceList .a lane ent src) [] 4).find? (fun w => sPrep.injectOpen .a && w.ready && sPrep.pacePass .a w &&
    sPrep.shapePass .a (sPrep.wEnt .a w) && sPrep.throttlePass .a w.pkt && hasRoom w.pkt)
theorem sPrep_source (lane ent src : Nat) : sPrep.sourcePick .a lane ent src = pickSource lane ent src := by
  simp only [State.sourcePick, pickSource, sPrep_passes]
theorem sPrep_pick : sPrep.wfqPick .a 0 = some wait4 := by
  simp only [State.wfqPick, State.sourceTags, sPrep_source]
  decide +kernel

theorem test_SluiceCommands_meets :
    (sCtl.inv ∧ tblWf (sCtl.tru .a).ctxs = true ∧ (sCtl.sluice .a).ctl = ctlPkt :: [] ∧ sCtl.injRoom .a (sCtl.flowHashOf .a (feaEnd ctlPkt.src % 4) ctlPkt.dest ctlPkt.ordered 0) ctlPkt = true) ∧
    ((sCtx [] id).admitCtl .a = none ∧ ((((sCtx [] id).sluicePrep .a).throttleSync .a vREQ).throttleSync .a vCOL).wfqPick .a 2 = none) ∧
    (sWait.admitCtl .a = none ∧ sPrep.wfqPick .a 0 = some wait4 ∧ (sPrep.ctxOf .a wait4.hp wait4.pkt.dest).isSome = true ∧ tblWf (sPrep.tru .a).ctxs = true) ∧
    (s0.barUp (.fn f1) = true ∧ s0.privileged (.fn f1) = false) ∧
    ((sCtx [] id).warden pf ∧ (sCtx [] id).slExists .a (4096 : Fin 4097).val = true) := by
  refine ⟨(⟨by simp only [State.inv]; decide +kernel, by decide +kernel, by decide +kernel, injRoom_any (by decide +kernel) _⟩), ?_, (⟨by decide +kernel, sPrep_pick, by decide +kernel, by decide +kernel⟩), ?_, ?_⟩
  all_goals repeat' apply And.intro
  all_goals decide +kernel

/-- A control packet of FEA 77 for host port 0. -/
def ctl (c op : Nat) : Pkt := crc { mkPkt c vRSP false 0 0 op [] with src := 77 }
def sCtlIn (l : Tbl Ctx) (p : Pkt) : State := sCtx l (fun t => { t with ctlIn := [p] })
def openOf (v : Nat) : Pkt := ctl cCTX_OPEN (9 + 5 * 2 ^ 32 + v * 2 ^ 64)
/-- A table with the same value at each of `n` keys from `k` on. -/
def fill {α : Type} (c : α) : Nat → Nat → Tbl α
  | 0, _ => []
  | n + 1, k => (k, c) :: fill c n (k + 1)
theorem fill_above {α : Type} (c : α) : ∀ n k b, b < k → tblAbove b (fill c n k) = true
  | 0, _, _, _ => rfl
  | n + 1, k, b, h => by simp [fill, tblAbove, h, fill_above c n (k + 1) k (by omega)]
theorem fill_wf {α : Type} (c : α) (n k : Nat) : tblWf (fill c n k) = true := by
  cases n with
  | zero => rfl
  | succ n => exact fill_above c n (k + 1) k (by omega)
theorem fill_get {α : Type} (c : α) : ∀ n k x, k ≤ x → x < k + n → tget (fill c n k) x = some c
  | 0, _, _, _, _ => by omega
  | n + 1, k, x, h, g => by
    simp only [fill, tget]
    split
    · rfl
    · rw [if_neg (by omega)]; exact fill_get c n (k + 1) x (by omega) (by omega)
theorem freeKey_full {α : Type} (t : Tbl α) : ∀ n k, (∀ x, k ≤ x → x < k + n → (tget t x).isSome = true) → freeKey t n k = none
  | 0, _, _ => rfl
  | n + 1, k, h => by
    have h0 := h k (Nat.le_refl k) (by omega)
    simp only [freeKey, Option.isNone_iff_eq_none]
    rw [if_neg (by intro e; rw [e] at h0; cases h0)]
    exact freeKey_full t n (k + 1) (fun x a b => h x (by omega) (by omega))
theorem fill_mem {α : Type} (c : α) : ∀ n k p, p ∈ fill c n k → p.2 = c
  | 0, _, _, h => by simp [fill] at h
  | n + 1, k, p, h => by
    simp only [fill, List.mem_cons] at h
    rcases h with h | h
    · rw [h]
    · exact fill_mem c n (k + 1) p h
def sFullCtx : State := sCtlIn (fill { ctx0 with fea := 1 } 2097152 0) (openOf 1)
theorem sFullCtx_ctxs : (sFullCtx.tru .a).ctxs = fill { ctx0 with fea := 1 } 2097152 0 := rfl
theorem sFullCtx_free : sFullCtx.freeCtx .a = none := by
  unfold State.freeCtx; rw [sFullCtx_ctxs]
  exact freeKey_full _ _ _ (fun x a b => by rw [fill_get _ _ _ _ (Nat.zero_le x) (by simpa [Die.num] using b)]; rfl)
theorem sFullCtx_pair : sFullCtx.ctxOf .a (endHp (openOf 1).dest) (openOf 1).src = none := by
  unfold State.ctxOf; rw [sFullCtx_ctxs, List.find?_eq_none]
  intro p hp; rw [fill_mem _ _ _ _ hp]; decide +kernel

def ackOf (st : Nat) : Pkt := crc { mkPkt cCTX_OPEN_ACK vRSP false 0 0 (9 + 5 * 2 ^ 32 + 1 * 2 ^ 64 + st * 2 ^ 72 + 3 * 2 ^ 96 + 6 * 2 ^ 128) [] with src := 77, context := 3 }
def opening : Ctx := { ctx0 with st := .opening, isn := 6, remote := none, opens := 1 }
def noctx : Pkt := ctl cCTX_NOCTX 9
def live9 : Ctx := { ctx0 with remote := some 9 }

def loading : Ctx := { ctx0 with cached := false, loading := true, alpha := 5, nextSeq := 8 }
def gone (at_ : Nat) : Ctx := { ctx0 with st := .unreachable, holdAt := at_ }
def spent : Ctx := { ctx0 with budgetAt := 1000000000 }

def sBusyCtx : State := (sCtx [(3, ctx0)] id).wr .a TRU.CTX_STATUS.BUSY 1
def sArg (fea i : Nat) : State := (sCtx [(3, { ctx0 with nextSeq := 8, cum := 9 })] id).wrs .a [(TRU.CTX_ARG.REMOTE_FEA, fea), (TRU.CTX_ARG.INDEX, i)]

theorem test_ContextsOpenAndEnd_meets :
    ((sCtlIn [(0, ctx0)] { ctl cCTX_OPEN 9 with crc := 0 }).inv ∧ tblWf ((sCtlIn [(0, ctx0)] { ctl cCTX_OPEN 9 with crc := 0 }).tru .a).ctxs = true ∧ ((sCtlIn [(0, ctx0)] { ctl cCTX_OPEN 9 with crc := 0 }).tru .a).ctlIn = { ctl cCTX_OPEN 9 with crc := 0 } :: [] ∧ hdrOk { ctl cCTX_OPEN 9 with crc := 0 } = false ∧ { ctl cCTX_OPEN 9 with crc := 0 }.command = cCTX_OPEN) ∧
    (((sCtlIn [(0, ctx0)] { ctl cCTX_OPEN_ACK 9 with crc := 0 }).tru .a).ctlIn = { ctl cCTX_OPEN_ACK 9 with crc := 0 } :: [] ∧ hdrOk { ctl cCTX_OPEN_ACK 9 with crc := 0 } = false ∧ { ctl cCTX_OPEN_ACK 9 with crc := 0 }.command = cCTX_OPEN_ACK) ∧
    (((sCtlIn [(0, ctx0)] { ctl cCTX_NOCTX 9 with crc := 0 }).tru .a).ctlIn = { ctl cCTX_NOCTX 9 with crc := 0 } :: [] ∧ hdrOk { ctl cCTX_NOCTX 9 with crc := 0 } = false ∧ { ctl cCTX_NOCTX 9 with crc := 0 }.command = cCTX_NOCTX) ∧
    (((sCtlIn [(0, ctx0)] { ctl cTRU_ACK 9 with crc := 0 }).tru .a).ctlIn = { ctl cTRU_ACK 9 with crc := 0 } :: [] ∧ hdrOk { ctl cTRU_ACK 9 with crc := 0 } = false ∧ { ctl cTRU_ACK 9 with crc := 0 }.command = cTRU_ACK) ∧
    ((hp (sCtlIn [] (openOf 1)) 0 (fun p => { p with pfOn := false })).inv ∧ tblWf ((hp (sCtlIn [] (openOf 1)) 0 (fun p => { p with pfOn := false })).tru .a).ctxs = true ∧ ((hp (sCtlIn [] (openOf 1)) 0 (fun p => { p with pfOn := false })).tru .a).ctlIn = openOf 1 :: [] ∧ hdrOk (openOf 1) = true ∧ (openOf 1).command = cCTX_OPEN ∧ (hp (sCtlIn [] (openOf 1)) 0 (fun p => { p with pfOn := false })).repliesFull .a = false ∧ (hp (sCtlIn [] (openOf 1)) 0 (fun p => { p with pfOn := false })).endpointOk (openOf 1).dest = false) ∧
    ((sCtlIn [] (openOf 0)).inv ∧ tblWf ((sCtlIn [] (openOf 0)).tru .a).ctxs = true ∧ ((sCtlIn [] (openOf 0)).tru .a).ctlIn = openOf 0 :: [] ∧ hdrOk (openOf 0) = true ∧ (openOf 0).command = cCTX_OPEN ∧ (sCtlIn [] (openOf 0)).repliesFull .a = false ∧ (sCtlIn [] (openOf 0)).endpointOk (openOf 0).dest = true ∧ ((openOf 0).opf 64 4 = 0 ∨ 2 < (openOf 0).opf 64 4)) ∧
    ((sCtlIn [] (openOf 3)).inv ∧ tblWf ((sCtlIn [] (openOf 3)).tru .a).ctxs = true ∧ ((sCtlIn [] (openOf 3)).tru .a).ctlIn = openOf 3 :: [] ∧ hdrOk (openOf 3) = true ∧ (openOf 3).command = cCTX_OPEN ∧ (sCtlIn [] (openOf 3)).repliesFull .a = false ∧ (sCtlIn [] (openOf 3)).endpointOk (openOf 3).dest = true ∧ ((openOf 3).opf 64 4 = 0 ∨ 2 < (openOf 3).opf 64 4)) ∧
    (sFullCtx.inv ∧ tblWf (sFullCtx.tru .a).ctxs = true ∧ (sFullCtx.tru .a).ctlIn = openOf 1 :: [] ∧ hdrOk (openOf 1) = true ∧ (openOf 1).command = cCTX_OPEN ∧ sFullCtx.repliesFull .a = false ∧ sFullCtx.endpointOk (openOf 1).dest = true ∧ 1 ≤ (openOf 1).opf 64 4 ∧ (openOf 1).opf 64 4 ≤ 2 ∧ ((openOf 1).opf 72 1 == 1) = sFullCtx.lossy .a ∧ sFullCtx.ctxOf .a (endHp (openOf 1).dest) (openOf 1).src = none ∧ sFullCtx.freeCtx .a = none) ∧
    ((sCtlIn [] (openOf 1)).inv ∧ tblWf ((sCtlIn [] (openOf 1)).tru .a).ctxs = true ∧ ((sCtlIn [] (openOf 1)).tru .a).ctlIn = openOf 1 :: [] ∧ hdrOk (openOf 1) = true ∧ (openOf 1).command = cCTX_OPEN ∧ (sCtlIn [] (openOf 1)).repliesFull .a = false ∧ (sCtlIn [] (openOf 1)).endpointOk (openOf 1).dest = true ∧ 1 ≤ (openOf 1).opf 64 4 ∧ (openOf 1).opf 64 4 ≤ 2 ∧ ((openOf 1).opf 72 1 == 1) = (sCtlIn [] (openOf 1)).lossy .a ∧ (sCtlIn [] (openOf 1)).ctxOf .a (endHp (openOf 1).dest) (openOf 1).src = none ∧ (sCtlIn [] (openOf 1)).freeCtx .a = some 0 ∧ (sCtlIn [] (openOf 1)).ctxCached .a < (sCtlIn [] (openOf 1)).rd .a TRU.CTX_CACHE.ENTRIES) ∧
    ((sCtlIn [(3, opening)] (ackOf 0)).inv ∧ tblWf ((sCtlIn [(3, opening)] (ackOf 0)).tru .a).ctxs = true ∧ ((sCtlIn [(3, opening)] (ackOf 0)).tru .a).ctlIn = ackOf 0 :: [] ∧ hdrOk (ackOf 0) = true ∧ (ackOf 0).command = cCTX_OPEN_ACK ∧ (sCtlIn [(3, opening)] (ackOf 0)).ctlCtx .a (ackOf 0) = some opening ∧ opening.st = .opening ∧ (ackOf 0).opf 96 22 = (ackOf 0).context % 2 ^ 22 ∧ (ackOf 0).opf 128 32 = opening.isn) ∧
    ((sCtlIn [(3, opening)] (ackOf 4)).inv ∧ tblWf ((sCtlIn [(3, opening)] (ackOf 4)).tru .a).ctxs = true ∧ ((sCtlIn [(3, opening)] (ackOf 4)).tru .a).ctlIn = ackOf 4 :: [] ∧ hdrOk (ackOf 4) = true ∧ (ackOf 4).command = cCTX_OPEN_ACK ∧ (sCtlIn [(3, opening)] (ackOf 4)).ctlCtx .a (ackOf 4) = some opening ∧ opening.st = .opening ∧ (ackOf 4).opf 96 22 = (ackOf 4).context % 2 ^ 22 ∧ (ackOf 4).opf 128 32 = opening.isn) ∧
    ((sCtlIn [(3, live9)] noctx).inv ∧ tblWf ((sCtlIn [(3, live9)] noctx).tru .a).ctxs = true ∧ ((sCtlIn [(3, live9)] noctx).tru .a).ctlIn = noctx :: [] ∧ hdrOk noctx = true ∧ noctx.command = cCTX_NOCTX ∧ (sCtlIn [(3, live9)] noctx).ctxOf .a (endHp noctx.dest) noctx.src = some (3, live9) ∧ feaEnd noctx.dest < 4) ∧
    ((sCtlIn [(3, ctx0)] noctx).inv ∧ tblWf ((sCtlIn [(3, ctx0)] noctx).tru .a).ctxs = true ∧ ((sCtlIn [(3, ctx0)] noctx).tru .a).ctlIn = noctx :: [] ∧ hdrOk noctx = true ∧ noctx.command = cCTX_NOCTX ∧ (sCtlIn [(3, ctx0)] noctx).ctxOf .a (endHp noctx.dest) noctx.src = some (3, ctx0) ∧ feaEnd noctx.dest < 4) ∧
    ((sCtx [(3, loading)] id).inv ∧ tblWf ((sCtx [(3, loading)] id).tru .a).ctxs = true ∧ (sCtx [(3, loading)] id).ctx? .a 3 = some loading ∧ loading.loading = true ∧ (sCtx [(3, loading)] id).ctxCached .a < (sCtx [(3, loading)] id).rd .a TRU.CTX_CACHE.ENTRIES) ∧
    ((sCtx [(3, gone 1000000000)] id).inv ∧ tblWf ((sCtx [(3, gone 1000000000)] id).tru .a).ctxs = true ∧ (sCtx [(3, gone 1000000000)] id).ctx? .a 3 = some (gone 1000000000) ∧ (gone 1000000000).st = .unreachable ∧ (gone 1000000000).holdAt ≤ (sCtx [(3, gone 1000000000)] id).now) ∧
    ((sCtx [(3, gone 1000000001)] id).inv ∧ tblWf ((sCtx [(3, gone 1000000001)] id).tru .a).ctxs = true ∧ (sCtx [(3, gone 1000000001)] id).ctx? .a 3 = some (gone 1000000001) ∧ (gone 1000000001).st = .unreachable ∧ (sCtx [(3, gone 1000000001)] id).now < (gone 1000000001).holdAt) ∧
    ((sCtx [(3, spent)] id).inv ∧ tblWf ((sCtx [(3, spent)] id).tru .a).ctxs = true ∧ (sCtx [(3, spent)] id).ctx? .a 3 = some spent ∧ spent.st ≠ .unreachable ∧ (sCtx [(3, spent)] id).exhausted spent = true) ∧
    (sBusyCtx.inv ∧ tblWf (sBusyCtx.tru .a).ctxs = true ∧ sBusyCtx.warden .svc ∧ sBusyCtx.on .a TRU.CTX_STATUS.BUSY = true) ∧
    ((sArg 78 3).inv ∧ tblWf ((sArg 78 3).tru .a).ctxs = true ∧ (sArg 78 3).warden pf ∧ (sArg 78 3).on .a TRU.CTX_STATUS.BUSY = false ∧ (sArg 78 3).argPair .a = none) ∧
    ((sArg 77 3).inv ∧ tblWf ((sArg 77 3).tru .a).ctxs = true ∧ (sArg 77 3).warden pf ∧ (sArg 77 3).on .a TRU.CTX_STATUS.BUSY = false ∧ (sArg 77 3).argPair .a = some (3, { ctx0 with nextSeq := 8, cum := 9 })) ∧
    ((sArg 77 3).ctx? .a ((sArg 77 3).rd .a TRU.CTX_ARG.INDEX) = some { ctx0 with nextSeq := 8, cum := 9 }) := by
  refine ⟨?_, ?_, ?_, ?_, ?_, ?_, ?_, (⟨by simp only [State.inv]; decide +kernel, by rw [sFullCtx_ctxs]; exact fill_wf _ _ _, by decide +kernel, by decide +kernel, by decide +kernel, by decide +kernel, by decide +kernel, by decide +kernel, by decide +kernel, by decide +kernel, sFullCtx_pair, sFullCtx_free⟩), ?_, ?_, ?_, ?_, ?_, ?_, ?_, ?_, ?_, ?_, ?_, ?_, ?_⟩
  all_goals repeat' apply And.intro
  all_goals decide +kernel

/-- A sequenced packet of FEA 77 with number `q`, for context 3. -/
def seqPkt (q : Nat) : Pkt := crc { mkPkt cRMA_PUT vREQ true 0 0 5 [1] with src := 77, context := 3, seq := q }
def sIn (c : Ctx) (q : Nat) (r : Option Nat) : State := sCtx [(3, c)] (fun t => { t with inbox := [⟨seqPkt q, r⟩] })
def live4 : Ctx := { ctx0 with cum := 4, remote := some 9 }

def handed6 : Handed := ⟨6, seqPkt 5, 3, 5, true, [], []⟩
def landing : Ctx := { live4 with rx := [⟨5, .handed, none⟩], tracker := true }
def sLand : State := sCtx [(3, landing)] (fun t => { t with handed := [handed6], nextHanded := 7 })
/-- Every timer of both halves is due. -/
def desc (q : Nat) : Desc := ⟨q, seqPkt q, .held [1], 2, none, 0, 0, q, 1, false⟩
def due : Ctx := { live4 with ackAt := 5, gapAt := 5, timerAt := 5, rnrAt := 5, rnrSeq := 2, nextSeq := 3, cumAcked := 0, descs := [desc 1, desc 2], records := [⟨5, 0, 0x31, 1, 0⟩] }
def sDue : State := sCtx [(3, due)] id
def sOpenDue : State := sCtx [(3, { opening with timerAt := 5 })] id

def ackPkt1 : Pkt := crc { mkPkt cTRU_ACK vRSP false 0 0 (1 + 0xFFFF * 2 ^ 160) [] with src := 77, context := 3 }
def sAcked : State := sCtx [(3, due)] (fun t => { t with ctlIn := [ackPkt1] })
def sTick (at_ : Nat) : State := sCtx [(3, due)] (fun t => { t with tickAt := at_ })

theorem test_SequencedPacketsAndTimers_meets :
    ((sIn { ctx0 with fea := 1 } 5 none).inv ∧ tblWf ((sIn { ctx0 with fea := 1 } 5 none).tru .a).ctxs = true ∧ ((sIn { ctx0 with fea := 1 } 5 none).tru .a).inbox = ⟨seqPkt 5, none⟩ :: [] ∧ hdrOk (seqPkt 5) = true ∧ (sIn { ctx0 with fea := 1 } 5 none).seqCtx .a (seqPkt 5) = none ∧ (sIn { ctx0 with fea := 1 } 5 none).repliesFull .a = false) ∧
    ((sIn live4 4 none).inv ∧ tblWf ((sIn live4 4 none).tru .a).ctxs = true ∧ ((sIn live4 4 none).tru .a).inbox = ⟨seqPkt 4, none⟩ :: [] ∧ hdrOk (seqPkt 4) = true ∧ (sIn live4 4 none).seqCtx .a (seqPkt 4) = some live4 ∧ live4.cached = true ∧ sbefore ((sIn live4 4 none).seqMod .a) live4.cum 4 = false ∧ live4.cum < 2 ^ 32) ∧
    ((sIn live4 4101 none).inv ∧ tblWf ((sIn live4 4101 none).tru .a).ctxs = true ∧ ((sIn live4 4101 none).tru .a).inbox = ⟨seqPkt 4101, none⟩ :: [] ∧ hdrOk (seqPkt 4101) = true ∧ (sIn live4 4101 none).seqCtx .a (seqPkt 4101) = some live4 ∧ live4.cached = true ∧ sbefore ((sIn live4 4101 none).seqMod .a) live4.cum 4101 = true ∧ rxGet live4.rx 4101 = none ∧ (sIn live4 4101 none).window .a < sdiff ((sIn live4 4101 none).seqMod .a) live4.cum 4101) ∧
    ((sIn live4 5 none).inv ∧ tblWf ((sIn live4 5 none).tru .a).ctxs = true ∧ ((sIn live4 5 none).tru .a).inbox = ⟨seqPkt 5, none⟩ :: [] ∧ hdrOk (seqPkt 5) = true ∧ (sIn live4 5 none).seqCtx .a (seqPkt 5) = some live4 ∧ live4.cached = true ∧ rxGet live4.rx 5 = none ∧ sdiff ((sIn live4 5 none).seqMod .a) live4.cum 5 = 1 ∧ live4.refused = none) ∧
    ((sIn live4 5 (some 0x31)).inv ∧ tblWf ((sIn live4 5 (some 0x31)).tru .a).ctxs = true ∧ ((sIn live4 5 (some 0x31)).tru .a).inbox = ⟨seqPkt 5, some 0x31⟩ :: [] ∧ hdrOk (seqPkt 5) = true ∧ (sIn live4 5 (some 0x31)).seqCtx .a (seqPkt 5) = some live4 ∧ live4.cached = true ∧ rxGet live4.rx 5 = none ∧ sdiff ((sIn live4 5 (some 0x31)).seqMod .a) live4.cum 5 = 1 ∧ (sIn live4 5 (some 0x31)).recordsUsed .a < 8192) ∧
    (sLand.inv ∧ tblWf (sLand.tru .a).ctxs = true ∧ (sLand.tru .a).handed.find? (fun h => h.id == 6 && h.done) = some handed6 ∧ handed6.lines = [] ∧ handed6.reads = [] ∧ sLand.ctx? .a handed6.ctx = some landing ∧ 6 < (sLand.tru .a).nextHanded ∧ (rxGet landing.rx handed6.seq).isSome = true ∧ handed6.seq = (landing.cum + 1) % sLand.seqMod .a) ∧
    (sDue.inv ∧ tblWf (sDue.tru .a).ctxs = true ∧ sDue.ctx? .a 3 = some due ∧ due.cum < 2 ^ 32 ∧ due.ackAt ≠ 0 ∧ due.ackAt ≤ sDue.now) ∧
    (sDue.lossy .a = false ∧ due.gapAt ≠ 0 ∧ due.gapAt ≤ sDue.now) ∧
    (due.records.any (fun r => r.sentAt + 16000 ≤ sDue.now) = true) ∧
    (sDue.ctx? .a 3 = some due ∧ due.timerAt ≠ 0 ∧ due.timerAt ≤ sDue.now ∧ sDue.exhausted due = false ∧ due.st ≠ .opening) ∧
    (sOpenDue.ctx? .a 3 = some { opening with timerAt := 5 } ∧ sOpenDue.exhausted { opening with timerAt := 5 } = false ∧ opening.st = .opening) ∧
    ((sCtx [(3, { due with timerAt := 1000000001 })] id).ctx? .a 3 = some { due with timerAt := 1000000001 } ∧ (sCtx [(3, { due with timerAt := 1000000001 })] id).now < 1000000001) ∧
    (due.rnrAt ≠ 0 ∧ due.rnrAt ≤ sDue.now) ∧
    ((sAcked.tru .a).ctlIn = ackPkt1 :: [] ∧ hdrOk ackPkt1 = true ∧ ackPkt1.command = cTRU_ACK ∧ sAcked.ctlCtx .a ackPkt1 = some due ∧ ackPkt1.context = 3 ∧ due.cached = true ∧ due.st = .live) ∧
    (((sTick 1000000000).tru .a).tickAt ≤ (sTick 1000000000).now) ∧
    ((sTick 1000000001).now < ((sTick 1000000001).tru .a).tickAt) := by
  repeat' apply And.intro
  all_goals decide +kernel

/-- A membership of function 0: polder 0, QID 6, child 1 of FEA 0x1041. -/
def leaf0 : Member :=
  { polder := 0, qid := 6, fn := f0, role := 0, fast := false, parent := 0x1041, index := 1, children := [], count := 4, window := 1, st := .ready, since := 5, joinOp := none, joinSent := true, joined := [], opCount := 2, nextSeg := 3, ops := [], segs := [], early := [], credit := some 3, granted := some 0, grantedUp := none, waited := none, childCredit := [], releaseOp := none, releases := [], aborts := [], moved := false }
def sMem1 (o : WOp) (l : Tbl Member) : State := (sTm 0 o id).modDie .a (fun x => { x with members := l, nextMember := 9 })
def mine0 (s : State) (o : WOp) : Option (Nat × Member) := (s.die .a).members.find? (fun p => p.2.polder == s.opPolder o && p.2.qid == qQid o.entry && p.2.fn == opFn o)

theorem test_QuadrilleEntries_meets :
    ((sMem1 (opOf 0 0x10410000000600000000000000000000000000000060 .started) []).inv ∧ tblWf (sMem1 (opOf 0 0x10410000000600000000000000000000000000000060 .started) []).ops = true ∧ tblWf ((sMem1 (opOf 0 0x10410000000600000000000000000000000000000060 .started) []).die .a).members = true ∧ (sMem1 (opOf 0 0x10410000000600000000000000000000000000000060 .started) []).startedOp 7 (· == 0x60) = some (opOf 0 0x10410000000600000000000000000000000000000060 .started) ∧ joinArgsOk (BitVec.ofNat 512 0x10410000000600000000000000000000000000000060) 0 = false) ∧
    ((sMem1 (opOf 0 0x4000000000f00000010410000000600000000000000000000000000000060 .started) []).inv ∧ tblWf (sMem1 (opOf 0 0x4000000000f00000010410000000600000000000000000000000000000060 .started) []).ops = true ∧ tblWf ((sMem1 (opOf 0 0x4000000000f00000010410000000600000000000000000000000000000060 .started) []).die .a).members = true ∧ (sMem1 (opOf 0 0x4000000000f00000010410000000600000000000000000000000000000060 .started) []).startedOp 7 (· == 0x60) = some (opOf 0 0x4000000000f00000010410000000600000000000000000000000000000060 .started) ∧ joinArgsOk (BitVec.ofNat 512 0x4000000000f00000010410000000600000000000000000000000000000060) 0 = true ∧ qRole (BitVec.ofNat 512 0x4000000000f00000010410000000600000000000000000000000000000060) = 0 ∧ (sMem1 (opOf 0 0x4000000000f00000010410000000600000000000000000000000000000060 .started) []).findMember .a 0 (qQid (BitVec.ofNat 512 0x4000000000f00000010410000000600000000000000000000000000000060)) 0 = none ∧ (((sMem1 (opOf 0 0x4000000000f00000010410000000600000000000000000000000000000060 .started) []).die .a).members.filter (fun p => isLeaf p.2 == true)).length < 16384 ∧ (sMem1 (opOf 0 0x4000000000f00000010410000000600000000000000000000000000000060 .started) []).slotsFit (((sMem1 (opOf 0 0x4000000000f00000010410000000600000000000000000000000000000060 .started) []).servingQdu .a).getD .a) 0 = true) ∧
    ((sMem1 (opOf 0 0x700000000000000000000000000000062 .started) [(3, leaf0)]).inv ∧ tblWf (sMem1 (opOf 0 0x700000000000000000000000000000062 .started) [(3, leaf0)]).ops = true ∧ tblWf ((sMem1 (opOf 0 0x700000000000000000000000000000062 .started) [(3, leaf0)]).die .a).members = true ∧ (sMem1 (opOf 0 0x700000000000000000000000000000062 .started) [(3, leaf0)]).startedOp 7 (· == 0x62) = some (opOf 0 0x700000000000000000000000000000062 .started) ∧ mine0 (sMem1 (opOf 0 0x700000000000000000000000000000062 .started) [(3, leaf0)]) (opOf 0 0x700000000000000000000000000000062 .started) = none) ∧
    ((sMem1 (opOf 0 0x600000000000000000000000000000062 .started) [(3, { leaf0 with st := .failed })]).inv ∧ tblWf (sMem1 (opOf 0 0x600000000000000000000000000000062 .started) [(3, { leaf0 with st := .failed })]).ops = true ∧ tblWf ((sMem1 (opOf 0 0x600000000000000000000000000000062 .started) [(3, { leaf0 with st := .failed })]).die .a).members = true ∧ (sMem1 (opOf 0 0x600000000000000000000000000000062 .started) [(3, { leaf0 with st := .failed })]).startedOp 7 (· == 0x62) = some (opOf 0 0x600000000000000000000000000000062 .started) ∧ mine0 (sMem1 (opOf 0 0x600000000000000000000000000000062 .started) [(3, { leaf0 with st := .failed })]) (opOf 0 0x600000000000000000000000000000062 .started) = some (3, { leaf0 with st := .failed })) ∧
    ((sMem1 (opOf 0 0x200000000000000000000000220000000000000000000000600000000000000000000000000000062 .started) [(3, leaf0)]).inv ∧ tblWf (sMem1 (opOf 0 0x200000000000000000000000220000000000000000000000600000000000000000000000000000062 .started) [(3, leaf0)]).ops = true ∧ tblWf ((sMem1 (opOf 0 0x200000000000000000000000220000000000000000000000600000000000000000000000000000062 .started) [(3, leaf0)]).die .a).members = true ∧ (sMem1 (opOf 0 0x200000000000000000000000220000000000000000000000600000000000000000000000000000062 .started) [(3, leaf0)]).startedOp 7 (· == 0x62) = some (opOf 0 0x200000000000000000000000220000000000000000000000600000000000000000000000000000062 .started) ∧ mine0 (sMem1 (opOf 0 0x200000000000000000000000220000000000000000000000600000000000000000000000000000062 .started) [(3, leaf0)]) (opOf 0 0x200000000000000000000000220000000000000000000000600000000000000000000000000000062 .started) = some (3, leaf0) ∧ leaf0.st = .ready ∧ isLeaf leaf0 = true ∧ 0xFFFFFFFF < qCount (BitVec.ofNat 512 0x200000000000000000000000220000000000000000000000600000000000000000000000000000062) * dtypeSize (qType (BitVec.ofNat 512 0x200000000000000000000000220000000000000000000000600000000000000000000000000000062))) ∧
    ((sMem1 (opOf 0 0x600000000000000000000000000000062 .started) [(3, leaf0)]).inv ∧ tblWf (sMem1 (opOf 0 0x600000000000000000000000000000062 .started) [(3, leaf0)]).ops = true ∧ tblWf ((sMem1 (opOf 0 0x600000000000000000000000000000062 .started) [(3, leaf0)]).die .a).members = true ∧ (sMem1 (opOf 0 0x600000000000000000000000000000062 .started) [(3, leaf0)]).startedOp 7 (· == 0x62) = some (opOf 0 0x600000000000000000000000000000062 .started) ∧ mine0 (sMem1 (opOf 0 0x600000000000000000000000000000062 .started) [(3, leaf0)]) (opOf 0 0x600000000000000000000000000000062 .started) = some (3, leaf0) ∧ leaf0.st = .ready ∧ isLeaf leaf0 = true ∧ leaf0.ops = [] ∧ leaf0.segs = [] ∧ leaf0.releases = [] ∧ (opOf 0 0x600000000000000000000000000000062 .started).force = none ∧ qCount (BitVec.ofNat 512 0x600000000000000000000000000000062) = 0 ∧ covers leaf0.credit leaf0.nextSeg = true) ∧
    (covers (some 2) leaf0.nextSeg = false ∧ mine0 (sMem1 (opOf 0 0x600000000000000000000000000000062 .started) [(3, { leaf0 with credit := some 2 })]) (opOf 0 0x600000000000000000000000000000062 .started) = some (3, { leaf0 with credit := some 2 })) ∧
    ((sMem1 (opOf 0 0x700000000000000000000000000000063 .started) [(3, leaf0)]).inv ∧ tblWf (sMem1 (opOf 0 0x700000000000000000000000000000063 .started) [(3, leaf0)]).ops = true ∧ tblWf ((sMem1 (opOf 0 0x700000000000000000000000000000063 .started) [(3, leaf0)]).die .a).members = true ∧ (sMem1 (opOf 0 0x700000000000000000000000000000063 .started) [(3, leaf0)]).startedOp 7 (· == 0x63) = some (opOf 0 0x700000000000000000000000000000063 .started) ∧ mine0 (sMem1 (opOf 0 0x700000000000000000000000000000063 .started) [(3, leaf0)]) (opOf 0 0x700000000000000000000000000000063 .started) = none) ∧
    ((sMem1 (opOf 0 0x600000000000000000000000000000063 .started) [(3, { leaf0 with st := .failed })]).inv ∧ tblWf (sMem1 (opOf 0 0x600000000000000000000000000000063 .started) [(3, { leaf0 with st := .failed })]).ops = true ∧ tblWf ((sMem1 (opOf 0 0x600000000000000000000000000000063 .started) [(3, { leaf0 with st := .failed })]).die .a).members = true ∧ (sMem1 (opOf 0 0x600000000000000000000000000000063 .started) [(3, { leaf0 with st := .failed })]).startedOp 7 (· == 0x63) = some (opOf 0 0x600000000000000000000000000000063 .started) ∧ mine0 (sMem1 (opOf 0 0x600000000000000000000000000000063 .started) [(3, { leaf0 with st := .failed })]) (opOf 0 0x600000000000000000000000000000063 .started) = some (3, { leaf0 with st := .failed })) ∧
    ((sMem1 (opOf 0 0x200000000000000000000000220000000000000000000000600000000000000000000000000000063 .started) [(3, leaf0)]).inv ∧ tblWf (sMem1 (opOf 0 0x200000000000000000000000220000000000000000000000600000000000000000000000000000063 .started) [(3, leaf0)]).ops = true ∧ tblWf ((sMem1 (opOf 0 0x200000000000000000000000220000000000000000000000600000000000000000000000000000063 .started) [(3, leaf0)]).die .a).members = true ∧ (sMem1 (opOf 0 0x200000000000000000000000220000000000000000000000600000000000000000000000000000063 .started) [(3, leaf0)]).startedOp 7 (· == 0x63) = some (opOf 0 0x200000000000000000000000220000000000000000000000600000000000000000000000000000063 .started) ∧ mine0 (sMem1 (opOf 0 0x200000000000000000000000220000000000000000000000600000000000000000000000000000063 .started) [(3, leaf0)]) (opOf 0 0x200000000000000000000000220000000000000000000000600000000000000000000000000000063 .started) = some (3, leaf0) ∧ leaf0.st = .ready ∧ isLeaf leaf0 = true ∧ 0xFFFFFFFF < qCount (BitVec.ofNat 512 0x200000000000000000000000220000000000000000000000600000000000000000000000000000063) * dtypeSize (qType (BitVec.ofNat 512 0x200000000000000000000000220000000000000000000000600000000000000000000000000000063))) ∧
    ((sMem1 (opOf 0 0x600000000000000000000000000000063 .started) [(3, leaf0)]).inv ∧ tblWf (sMem1 (opOf 0 0x600000000000000000000000000000063 .started) [(3, leaf0)]).ops = true ∧ tblWf ((sMem1 (opOf 0 0x600000000000000000000000000000063 .started) [(3, leaf0)]).die .a).members = true ∧ (sMem1 (opOf 0 0x600000000000000000000000000000063 .started) [(3, leaf0)]).startedOp 7 (· == 0x63) = some (opOf 0 0x600000000000000000000000000000063 .started) ∧ mine0 (sMem1 (opOf 0 0x600000000000000000000000000000063 .started) [(3, leaf0)]) (opOf 0 0x600000000000000000000000000000063 .started) = some (3, leaf0) ∧ leaf0.st = .ready ∧ isLeaf leaf0 = true ∧ leaf0.ops = [] ∧ leaf0.segs = [] ∧ leaf0.releases = [] ∧ (opOf 0 0x600000000000000000000000000000063 .started).force = none ∧ qCount (BitVec.ofNat 512 0x600000000000000000000000000000063) = 0 ∧ covers leaf0.credit leaf0.nextSeg = true) ∧
    (covers (some 2) leaf0.nextSeg = false ∧ mine0 (sMem1 (opOf 0 0x600000000000000000000000000000063 .started) [(3, { leaf0 with credit := some 2 })]) (opOf 0 0x600000000000000000000000000000063 .started) = some (3, { leaf0 with credit := some 2 })) ∧
    ((sMem1 (opOf 0 0x700000000000000000000000000000064 .started) [(3, leaf0)]).inv ∧ tblWf (sMem1 (opOf 0 0x700000000000000000000000000000064 .started) [(3, leaf0)]).ops = true ∧ tblWf ((sMem1 (opOf 0 0x700000000000000000000000000000064 .started) [(3, leaf0)]).die .a).members = true ∧ (sMem1 (opOf 0 0x700000000000000000000000000000064 .started) [(3, leaf0)]).startedOp 7 (· == 0x64) = some (opOf 0 0x700000000000000000000000000000064 .started) ∧ mine0 (sMem1 (opOf 0 0x700000000000000000000000000000064 .started) [(3, leaf0)]) (opOf 0 0x700000000000000000000000000000064 .started) = none) ∧
    ((sMem1 (opOf 0 0x600000000000000000000000000000064 .started) [(3, { leaf0 with st := .failed })]).inv ∧ tblWf (sMem1 (opOf 0 0x600000000000000000000000000000064 .started) [(3, { leaf0 with st := .failed })]).ops = true ∧ tblWf ((sMem1 (opOf 0 0x600000000000000000000000000000064 .started) [(3, { leaf0 with st := .failed })]).die .a).members = true ∧ (sMem1 (opOf 0 0x600000000000000000000000000000064 .started) [(3, { leaf0 with st := .failed })]).startedOp 7 (· == 0x64) = some (opOf 0 0x600000000000000000000000000000064 .started) ∧ mine0 (sMem1 (opOf 0 0x600000000000000000000000000000064 .started) [(3, { leaf0 with st := .failed })]) (opOf 0 0x600000000000000000000000000000064 .started) = some (3, { leaf0 with st := .failed })) ∧
    ((sMem1 (opOf 0 0x200000000000000000000000220000000000000000000000600000000000000000000000000000064 .started) [(3, leaf0)]).inv ∧ tblWf (sMem1 (opOf 0 0x200000000000000000000000220000000000000000000000600000000000000000000000000000064 .started) [(3, leaf0)]).ops = true ∧ tblWf ((sMem1 (opOf 0 0x200000000000000000000000220000000000000000000000600000000000000000000000000000064 .started) [(3, leaf0)]).die .a).members = true ∧ (sMem1 (opOf 0 0x200000000000000000000000220000000000000000000000600000000000000000000000000000064 .started) [(3, leaf0)]).startedOp 7 (· == 0x64) = some (opOf 0 0x200000000000000000000000220000000000000000000000600000000000000000000000000000064 .started) ∧ mine0 (sMem1 (opOf 0 0x200000000000000000000000220000000000000000000000600000000000000000000000000000064 .started) [(3, leaf0)]) (opOf 0 0x200000000000000000000000220000000000000000000000600000000000000000000000000000064 .started) = some (3, leaf0) ∧ leaf0.st = .ready ∧ isLeaf leaf0 = true ∧ 0xFFFFFFFF < qCount (BitVec.ofNat 512 0x200000000000000000000000220000000000000000000000600000000000000000000000000000064) * dtypeSize (qType (BitVec.ofNat 512 0x200000000000000000000000220000000000000000000000600000000000000000000000000000064))) ∧
    ((sMem1 (opOf 0 0x600000000000000000000000000000064 .started) [(3, leaf0)]).inv ∧ tblWf (sMem1 (opOf 0 0x600000000000000000000000000000064 .started) [(3, leaf0)]).ops = true ∧ tblWf ((sMem1 (opOf 0 0x600000000000000000000000000000064 .started) [(3, leaf0)]).die .a).members = true ∧ (sMem1 (opOf 0 0x600000000000000000000000000000064 .started) [(3, leaf0)]).startedOp 7 (· == 0x64) = some (opOf 0 0x600000000000000000000000000000064 .started) ∧ mine0 (sMem1 (opOf 0 0x600000000000000000000000000000064 .started) [(3, leaf0)]) (opOf 0 0x600000000000000000000000000000064 .started) = some (3, leaf0) ∧ leaf0.st = .ready ∧ isLeaf leaf0 = true ∧ leaf0.ops = [] ∧ leaf0.segs = [] ∧ leaf0.releases = [] ∧ (opOf 0 0x600000000000000000000000000000064 .started).force = none ∧ qCount (BitVec.ofNat 512 0x600000000000000000000000000000064) = 0 ∧ covers leaf0.grantedUp leaf0.nextSeg = false) ∧
    ((sMem1 (opOf 0 0x700000000000000000000000000000065 .started) [(3, leaf0)]).inv ∧ tblWf (sMem1 (opOf 0 0x700000000000000000000000000000065 .started) [(3, leaf0)]).ops = true ∧ tblWf ((sMem1 (opOf 0 0x700000000000000000000000000000065 .started) [(3, leaf0)]).die .a).members = true ∧ (sMem1 (opOf 0 0x700000000000000000000000000000065 .started) [(3, leaf0)]).startedOp 7 (· == 0x65) = some (opOf 0 0x700000000000000000000000000000065 .started) ∧ mine0 (sMem1 (opOf 0 0x700000000000000000000000000000065 .started) [(3, leaf0)]) (opOf 0 0x700000000000000000000000000000065 .started) = none) ∧
    ((sMem1 (opOf 0 0x600000000000000000000000000000065 .started) [(3, { leaf0 with st := .failed })]).inv ∧ tblWf (sMem1 (opOf 0 0x600000000000000000000000000000065 .started) [(3, { leaf0 with st := .failed })]).ops = true ∧ tblWf ((sMem1 (opOf 0 0x600000000000000000000000000000065 .started) [(3, { leaf0 with st := .failed })]).die .a).members = true ∧ (sMem1 (opOf 0 0x600000000000000000000000000000065 .started) [(3, { leaf0 with st := .failed })]).startedOp 7 (· == 0x65) = some (opOf 0 0x600000000000000000000000000000065 .started) ∧ mine0 (sMem1 (opOf 0 0x600000000000000000000000000000065 .started) [(3, { leaf0 with st := .failed })]) (opOf 0 0x600000000000000000000000000000065 .started) = some (3, { leaf0 with st := .failed })) ∧
    ((sMem1 (opOf 0 0x200000000000000000000000220000000000000000000000600000000000000000000000000000065 .started) [(3, leaf0)]).inv ∧ tblWf (sMem1 (opOf 0 0x200000000000000000000000220000000000000000000000600000000000000000000000000000065 .started) [(3, leaf0)]).ops = true ∧ tblWf ((sMem1 (opOf 0 0x200000000000000000000000220000000000000000000000600000000000000000000000000000065 .started) [(3, leaf0)]).die .a).members = true ∧ (sMem1 (opOf 0 0x200000000000000000000000220000000000000000000000600000000000000000000000000000065 .started) [(3, leaf0)]).startedOp 7 (· == 0x65) = some (opOf 0 0x200000000000000000000000220000000000000000000000600000000000000000000000000000065 .started) ∧ mine0 (sMem1 (opOf 0 0x200000000000000000000000220000000000000000000000600000000000000000000000000000065 .started) [(3, leaf0)]) (opOf 0 0x200000000000000000000000220000000000000000000000600000000000000000000000000000065 .started) = some (3, leaf0) ∧ leaf0.st = .ready ∧ isLeaf leaf0 = true ∧ 0xFFFFFFFF < qCount (BitVec.ofNat 512 0x200000000000000000000000220000000000000000000000600000000000000000000000000000065) * dtypeSize (qType (BitVec.ofNat 512 0x200000000000000000000000220000000000000000000000600000000000000000000000000000065))) ∧
    ((sMem1 (opOf 0 0x600000000000000000000000000000065 .started) [(3, leaf0)]).inv ∧ tblWf (sMem1 (opOf 0 0x600000000000000000000000000000065 .started) [(3, leaf0)]).ops = true ∧ tblWf ((sMem1 (opOf 0 0x600000000000000000000000000000065 .started) [(3, leaf0)]).die .a).members = true ∧ (sMem1 (opOf 0 0x600000000000000000000000000000065 .started) [(3, leaf0)]).startedOp 7 (· == 0x65) = some (opOf 0 0x600000000000000000000000000000065 .started) ∧ mine0 (sMem1 (opOf 0 0x600000000000000000000000000000065 .started) [(3, leaf0)]) (opOf 0 0x600000000000000000000000000000065 .started) = some (3, leaf0) ∧ leaf0.st = .ready ∧ isLeaf leaf0 = true ∧ leaf0.ops = [] ∧ leaf0.segs = [] ∧ leaf0.releases = [] ∧ (opOf 0 0x600000000000000000000000000000065 .started).force = none ∧ qCount (BitVec.ofNat 512 0x600000000000000000000000000000065) = 0 ∧ covers leaf0.credit leaf0.nextSeg = true) ∧
    (covers (some 2) leaf0.nextSeg = false ∧ mine0 (sMem1 (opOf 0 0x600000000000000000000000000000065 .started) [(3, { leaf0 with credit := some 2 })]) (opOf 0 0x600000000000000000000000000000065 .started) = some (3, { leaf0 with credit := some 2 })) ∧
    ((sMem1 (opOf 0 0x700000000000000000000000000000061 .started) [(3, leaf0)]).inv ∧ tblWf (sMem1 (opOf 0 0x700000000000000000000000000000061 .started) [(3, leaf0)]).ops = true ∧ tblWf ((sMem1 (opOf 0 0x700000000000000000000000000000061 .started) [(3, leaf0)]).die .a).members = true ∧ (sMem1 (opOf 0 0x700000000000000000000000000000061 .started) [(3, leaf0)]).startedOp 7 (· == 0x61) = some (opOf 0 0x700000000000000000000000000000061 .started) ∧ mine0 (sMem1 (opOf 0 0x700000000000000000000000000000061 .started) [(3, leaf0)]) (opOf 0 0x700000000000000000000000000000061 .started) = none) ∧
    ((sMem1 (opOf 0 0x600000000000000000000000000000061 .started) [(3, { leaf0 with st := .failed })]).inv ∧ tblWf (sMem1 (opOf 0 0x600000000000000000000000000000061 .started) [(3, { leaf0 with st := .failed })]).ops = true ∧ tblWf ((sMem1 (opOf 0 0x600000000000000000000000000000061 .started) [(3, { leaf0 with st := .failed })]).die .a).members = true ∧ (sMem1 (opOf 0 0x600000000000000000000000000000061 .started) [(3, { leaf0 with st := .failed })]).startedOp 7 (· == 0x61) = some (opOf 0 0x600000000000000000000000000000061 .started) ∧ mine0 (sMem1 (opOf 0 0x600000000000000000000000000000061 .started) [(3, { leaf0 with st := .failed })]) (opOf 0 0x600000000000000000000000000000061 .started) = some (3, { leaf0 with st := .failed })) ∧
    ((sMem1 (opOf 0 0x600000000000000000000000000000061 .started) [(3, leaf0)]).inv ∧ tblWf (sMem1 (opOf 0 0x600000000000000000000000000000061 .started) [(3, leaf0)]).ops = true ∧ tblWf ((sMem1 (opOf 0 0x600000000000000000000000000000061 .started) [(3, leaf0)]).die .a).members = true ∧ (sMem1 (opOf 0 0x600000000000000000000000000000061 .started) [(3, leaf0)]).startedOp 7 (· == 0x61) = some (opOf 0 0x600000000000000000000000000000061 .started) ∧ mine0 (sMem1 (opOf 0 0x600000000000000000000000000000061 .started) [(3, leaf0)]) (opOf 0 0x600000000000000000000000000000061 .started) = some (3, leaf0) ∧ leaf0.st = .ready ∧ leaf0.role = 0 ∧ leaf0.ops = [] ∧ leaf0.children = [] ∧ leaf0.releases = [] ∧ leaf0.releaseOp = none) ∧
    ((sMem1 (opOf 0 0x700000000000000000000000000000066 .started) [(3, leaf0)]).inv ∧ tblWf (sMem1 (opOf 0 0x700000000000000000000000000000066 .started) [(3, leaf0)]).ops = true ∧ tblWf ((sMem1 (opOf 0 0x700000000000000000000000000000066 .started) [(3, leaf0)]).die .a).members = true ∧ (sMem1 (opOf 0 0x700000000000000000000000000000066 .started) [(3, leaf0)]).startedOp 7 (· == 0x66) = some (opOf 0 0x700000000000000000000000000000066 .started) ∧ mine0 (sMem1 (opOf 0 0x700000000000000000000000000000066 .started) [(3, leaf0)]) (opOf 0 0x700000000000000000000000000000066 .started) = none) ∧
    ((sMem1 (opOf 0 0x600000000000000000000000000000066 .started) [(3, { leaf0 with st := .failed })]).inv ∧ tblWf (sMem1 (opOf 0 0x600000000000000000000000000000066 .started) [(3, { leaf0 with st := .failed })]).ops = true ∧ tblWf ((sMem1 (opOf 0 0x600000000000000000000000000000066 .started) [(3, { leaf0 with st := .failed })]).die .a).members = true ∧ (sMem1 (opOf 0 0x600000000000000000000000000000066 .started) [(3, { leaf0 with st := .failed })]).startedOp 7 (· == 0x66) = some (opOf 0 0x600000000000000000000000000000066 .started) ∧ mine0 (sMem1 (opOf 0 0x600000000000000000000000000000066 .started) [(3, { leaf0 with st := .failed })]) (opOf 0 0x600000000000000000000000000000066 .started) = some (3, { leaf0 with st := .failed })) ∧
    ((sMem1 (opOf 0 0x600000000000000000000000000000066 .started) [(3, leaf0)]).inv ∧ tblWf (sMem1 (opOf 0 0x600000000000000000000000000000066 .started) [(3, leaf0)]).ops = true ∧ tblWf ((sMem1 (opOf 0 0x600000000000000000000000000000066 .started) [(3, leaf0)]).die .a).members = true ∧ (sMem1 (opOf 0 0x600000000000000000000000000000066 .started) [(3, leaf0)]).startedOp 7 (· == 0x66) = some (opOf 0 0x600000000000000000000000000000066 .started) ∧ mine0 (sMem1 (opOf 0 0x600000000000000000000000000000066 .started) [(3, leaf0)]) (opOf 0 0x600000000000000000000000000000066 .started) = some (3, leaf0) ∧ leaf0.st ≠ .failed) := by
  repeat' apply And.intro
  all_goals decide +kernel

def qctl3 (sub child : Nat) : Handed := handed3 cQCTL (6 + sub * 2 ^ 32 + child * 2 ^ 40 + 2 * 2 ^ 64 + 5 * 2 ^ 96) []
def sQuad (h : Handed) (m : Member) : State := sHand ((sTm 0 (op0 0x65 .running) id).modDie .a (fun x => { x with members := [(3, m)] })) h
def sNoQuad (h : Handed) : State := sHand (sTm 0 (op0 0x65 .running) id) h
def root2 : Member := { leaf0 with role := 2, parent := 0, children := [1, 77], st := .joining, joinOp := some 7, credit := none }
def joining0 : Member := { leaf0 with st := .joining, joinOp := some 7 }
def fromParent : Member := { leaf0 with parent := 77 }
def qop0 : QOp := ⟨7, 2, 3, 0, 0, 0, 3, 1, 0, 0, 0, 0⟩
def seg5 : QSeg := ⟨5, 2, 0, 0, [], none, true, .taken, none, none, false, false, [], 0, true, false⟩

def qdata3 (seg : Nat) : Handed := handed3 cQDATA (6 + 7 * 2 ^ 32 + seg * 2 ^ 64 + 1 * 2 ^ 136) [1, 2]
def poisoned (h : Handed) : Handed := { h with pkt := { h.pkt with srcPoison := true } }
def rootReady : Member := { root2 with st := .ready, joinOp := none, granted := some 5 }
def qresult3 : Handed := handed3 cQRESULT (6 + 7 * 2 ^ 32 + 5 * 2 ^ 64 + 9 * 2 ^ 96) [1, 2]

def rootSeg : Member := { rootReady with ops := [{ qop0 with opseq := 7, kind := 0, begun := 1, first := 5 }], segs := [{ seg5 with opseq := 7 }] }

def qresult0 : Handed := handed3 cQRESULT (6 + 7 * 2 ^ 32 + 5 * 2 ^ 64 + 9 * 2 ^ 96) []
def lastSeg : Member := { fromParent with ops := [{ qop0 with opseq := 7, first := 5, begun := 1, segs := 1 }], segs := [{ seg5 with opseq := 7 }], nextSeg := 6 }

def pend (at_ : Nat) : PendJoin := ⟨0, 6, 0, 77, 1, false, at_⟩
def sPend (at_ now : Nat) : State := { (sTm 0 (op0 0x65 .running) id).modDie .a (fun x => { x with joins := [pend at_] }) with now := now }

theorem test_QuadrillePackets_meets :
    ((sNoQuad (qctl3 1 1)).inv ∧ tblWf (sNoQuad (qctl3 1 1)).ops = true ∧ tblWf ((sNoQuad (qctl3 1 1)).die .a).members = true ∧ (sNoQuad (qctl3 1 1)).qctlPkt .a 3 1 = some (qctl3 1 1) ∧ (sNoQuad (qctl3 1 1)).pktMember .a (qctl3 1 1).pkt = none ∧ ((sNoQuad (qctl3 1 1)).die .a).joins.length < 4096) ∧
    ((sQuad (qctl3 1 1) root2).inv ∧ tblWf (sQuad (qctl3 1 1) root2).ops = true ∧ tblWf ((sQuad (qctl3 1 1) root2).die .a).members = true ∧ (sQuad (qctl3 1 1) root2).qctlPkt .a 3 1 = some (qctl3 1 1) ∧ (sQuad (qctl3 1 1) root2).pktMember .a (qctl3 1 1).pkt = some (3, root2) ∧ (sQuad (qctl3 1 1) root2).fnLinkUp root2.fn = true ∧ root2.st = .joining ∧ joinOk root2 (qctl3 1 1).pkt.src ((qctl3 1 1).pkt.opf 40 4) ((qctl3 1 1).pkt.opf 56 1 == 1) = true) ∧
    ((sQuad (qctl3 2 0) joining0).inv ∧ tblWf (sQuad (qctl3 2 0) joining0).ops = true ∧ tblWf ((sQuad (qctl3 2 0) joining0).die .a).members = true ∧ (sQuad (qctl3 2 0) joining0).qctlPkt .a 3 2 = some (qctl3 2 0) ∧ (sQuad (qctl3 2 0) joining0).pktMember .a (qctl3 2 0).pkt = some (3, joining0) ∧ (sQuad (qctl3 2 0) joining0).fnLinkUp joining0.fn = true ∧ joining0.st = .joining ∧ ((sQuad (qctl3 2 0) joining0).op 7).isSome = true) ∧
    ((sQuad (qctl3 3 1) fromParent).inv ∧ tblWf (sQuad (qctl3 3 1) fromParent).ops = true ∧ tblWf ((sQuad (qctl3 3 1) fromParent).die .a).members = true ∧ (sQuad (qctl3 3 1) fromParent).qctlPkt .a 3 3 = some (qctl3 3 1) ∧ (sQuad (qctl3 3 1) fromParent).pktMember .a (qctl3 3 1).pkt = some (3, fromParent) ∧ (sQuad (qctl3 3 1) fromParent).fnLinkUp fromParent.fn = true) ∧
    ((sQuad (qctl3 4 0) leaf0).inv ∧ tblWf (sQuad (qctl3 4 0) leaf0).ops = true ∧ tblWf ((sQuad (qctl3 4 0) leaf0).die .a).members = true ∧ (sQuad (qctl3 4 0) leaf0).qctlPkt .a 3 4 = some (qctl3 4 0) ∧ (sQuad (qctl3 4 0) leaf0).pktMember .a (qctl3 4 0).pkt = some (3, leaf0) ∧ (sQuad (qctl3 4 0) leaf0).fnLinkUp leaf0.fn = true ∧ (∀ g ∈ leaf0.segs, g.seg ≠ (qctl3 4 0).pkt.opf 96 32)) ∧
    ((sQuad (qctl3 4 0) { leaf0 with ops := [qop0], segs := [seg5], credit := some 5 }).qctlPkt .a 3 4 = some (qctl3 4 0) ∧ (sQuad (qctl3 4 0) { leaf0 with ops := [qop0], segs := [seg5], credit := some 5 }).pktMember .a (qctl3 4 0).pkt = some (3, ({ leaf0 with ops := [qop0], segs := [seg5], credit := some 5 } : Member)) ∧ (sQuad (qctl3 4 0) { leaf0 with ops := [qop0], segs := [seg5], credit := some 5 }).fnLinkUp ({ leaf0 with ops := [qop0], segs := [seg5], credit := some 5 } : Member).fn = true ∧ { leaf0 with ops := [qop0], segs := [seg5], credit := some 5 }.segs.find? (fun g => g.seg == (qctl3 4 0).pkt.opf 96 32) = some seg5 ∧ seg5.result = none ∧ seg5.elems = 0 ∧ isLeaf { leaf0 with ops := [qop0], segs := [seg5], credit := some 5 } = true ∧ { leaf0 with ops := [qop0], segs := [seg5], credit := some 5 }.ops.find? (fun o => o.opseq == seg5.opseq) = some qop0 ∧ qop0.kind ≠ 2 ∧ covers (some 5) seg5.seg = true ∧ (sQuad (qctl3 4 0) { leaf0 with ops := [qop0], segs := [seg5], credit := some 5 }).op 7 = some (op0 0x65 .running) ∧ (op0 0x65 .running).force = none) ∧
    ((sQuad (qctl3 5 1) leaf0).inv ∧ tblWf (sQuad (qctl3 5 1) leaf0).ops = true ∧ tblWf ((sQuad (qctl3 5 1) leaf0).die .a).members = true ∧ (sQuad (qctl3 5 1) leaf0).qctlPkt .a 3 5 = some (qctl3 5 1) ∧ (sQuad (qctl3 5 1) leaf0).pktMember .a (qctl3 5 1).pkt = some (3, leaf0) ∧ (sQuad (qctl3 5 1) leaf0).fnLinkUp leaf0.fn = true ∧ leaf0.releaseOp = none ∧ leaf0.opCount + leaf0.ops.length ≤ (qctl3 5 1).pkt.opf 64 32) ∧
    ((sQuad (qctl3 5 1) { leaf0 with opCount := 3 }).inv ∧ tblWf (sQuad (qctl3 5 1) { leaf0 with opCount := 3 }).ops = true ∧ tblWf ((sQuad (qctl3 5 1) { leaf0 with opCount := 3 }).die .a).members = true ∧ (sQuad (qctl3 5 1) { leaf0 with opCount := 3 }).qctlPkt .a 3 5 = some (qctl3 5 1) ∧ (sQuad (qctl3 5 1) { leaf0 with opCount := 3 }).pktMember .a (qctl3 5 1).pkt = some (3, ({ leaf0 with opCount := 3 } : Member)) ∧ (sQuad (qctl3 5 1) { leaf0 with opCount := 3 }).fnLinkUp ({ leaf0 with opCount := 3 } : Member).fn = true ∧ (qctl3 5 1).pkt.opf 64 32 < 3) ∧
    ((sQuad (qctl3 6 0) { leaf0 with st := .releasing, releaseOp := some 7 }).inv ∧ tblWf (sQuad (qctl3 6 0) { leaf0 with st := .releasing, releaseOp := some 7 }).ops = true ∧ tblWf ((sQuad (qctl3 6 0) { leaf0 with st := .releasing, releaseOp := some 7 }).die .a).members = true ∧ (sQuad (qctl3 6 0) { leaf0 with st := .releasing, releaseOp := some 7 }).qctlPkt .a 3 6 = some (qctl3 6 0) ∧ (sQuad (qctl3 6 0) { leaf0 with st := .releasing, releaseOp := some 7 }).pktMember .a (qctl3 6 0).pkt = some (3, ({ leaf0 with st := .releasing, releaseOp := some 7 } : Member)) ∧ (sQuad (qctl3 6 0) { leaf0 with st := .releasing, releaseOp := some 7 }).fnLinkUp ({ leaf0 with st := .releasing, releaseOp := some 7 } : Member).fn = true ∧ ((sQuad (qctl3 6 0) { leaf0 with st := .releasing, releaseOp := some 7 }).op 7).isSome = true) ∧
    ((sQuad (qctl3 7 0) leaf0).inv ∧ tblWf (sQuad (qctl3 7 0) leaf0).ops = true ∧ tblWf ((sQuad (qctl3 7 0) leaf0).die .a).members = true ∧ (sQuad (qctl3 7 0) leaf0).qctlPkt .a 3 7 = some (qctl3 7 0) ∧ (sQuad (qctl3 7 0) leaf0).pktMember .a (qctl3 7 0).pkt = some (3, leaf0) ∧ (sQuad (qctl3 7 0) leaf0).fnLinkUp leaf0.fn = true ∧ leaf0.st ≠ .failed) ∧
    ((sQuad (qdata3 6) rootReady).inv ∧ tblWf (sQuad (qdata3 6) rootReady).ops = true ∧ tblWf ((sQuad (qdata3 6) rootReady).die .a).members = true ∧ (sQuad (qdata3 6) rootReady).handedPkt .a 3 (· == cQDATA) = some (qdata3 6) ∧ (sQuad (qdata3 6) rootReady).pktMember .a (qdata3 6).pkt = some (3, rootReady) ∧ (sQuad (qdata3 6) rootReady).fnLinkUp rootReady.fn = true ∧ rootReady.st ≠ .failed ∧ ((qdata3 6).pkt.srcPoison = true ∨ covers rootReady.granted ((qdata3 6).pkt.opf 64 32) = false)) ∧
    ((sQuad (poisoned (qdata3 5)) rootReady).inv ∧ tblWf (sQuad (poisoned (qdata3 5)) rootReady).ops = true ∧ tblWf ((sQuad (poisoned (qdata3 5)) rootReady).die .a).members = true ∧ (sQuad (poisoned (qdata3 5)) rootReady).handedPkt .a 3 (· == cQDATA) = some (poisoned (qdata3 5)) ∧ (sQuad (poisoned (qdata3 5)) rootReady).pktMember .a (poisoned (qdata3 5)).pkt = some (3, rootReady) ∧ (sQuad (poisoned (qdata3 5)) rootReady).fnLinkUp rootReady.fn = true ∧ rootReady.st ≠ .failed ∧ ((poisoned (qdata3 5)).pkt.srcPoison = true ∨ covers rootReady.granted ((poisoned (qdata3 5)).pkt.opf 64 32) = false)) ∧
    ((sQuad (qdata3 5) rootReady).inv ∧ tblWf (sQuad (qdata3 5) rootReady).ops = true ∧ tblWf ((sQuad (qdata3 5) rootReady).die .a).members = true ∧ (sQuad (qdata3 5) rootReady).handedPkt .a 3 (· == cQDATA) = some (qdata3 5) ∧ (sQuad (qdata3 5) rootReady).pktMember .a (qdata3 5).pkt = some (3, rootReady) ∧ (sQuad (qdata3 5) rootReady).fnLinkUp rootReady.fn = true ∧ (qdata3 5).pkt.srcPoison = false ∧ covers rootReady.granted ((qdata3 5).pkt.opf 64 32) = true ∧ (∀ g ∈ rootReady.segs, g.seg ≠ (qdata3 5).pkt.opf 64 32) ∧ (∀ o ∈ rootReady.ops, o.opseq ≠ (qdata3 5).pkt.opf 32 32)) ∧
    ((sQuad (qdata3 5) rootSeg).inv ∧ tblWf (sQuad (qdata3 5) rootSeg).ops = true ∧ tblWf ((sQuad (qdata3 5) rootSeg).die .a).members = true ∧ (sQuad (qdata3 5) rootSeg).handedPkt .a 3 (· == cQDATA) = some (qdata3 5) ∧ (sQuad (qdata3 5) rootSeg).pktMember .a (qdata3 5).pkt = some (3, rootSeg) ∧ (sQuad (qdata3 5) rootSeg).fnLinkUp rootSeg.fn = true ∧ rootSeg.st ≠ .failed ∧ (qdata3 5).pkt.srcPoison = false ∧ covers rootSeg.granted ((qdata3 5).pkt.opf 64 32) = true ∧ rootSeg.segs = [{ seg5 with opseq := 7 }] ∧ rootSeg.ops = [{ qop0 with opseq := 7, kind := 0, begun := 1, first := 5 }] ∧ (1 : Nat) ≤ 1 ∧ seg5.seg = (qdata3 5).pkt.opf 64 32 ∧ (7 : Nat) = (qdata3 5).pkt.opf 32 32 ∧ (0 : Nat) = (qdata3 5).pkt.opf 134 2 ∧ qop0.qop = (qdata3 5).pkt.opf 128 3 ∧ qop0.dtype = (qdata3 5).pkt.opf 131 3 ∧ qop0.count = (qdata3 5).pkt.opf 160 32 ∧ isLeaf rootSeg = false ∧ seg5.result = none ∧ seg5.own ≠ .due ∧ (∀ x ∈ seg5.items, x.idx ≠ (qdata3 5).pkt.opf 136 4 + 1) ∧ seg5.items.length < rootSeg.children.length) ∧
    ((sQuad qresult3 fromParent).inv ∧ tblWf (sQuad qresult3 fromParent).ops = true ∧ tblWf ((sQuad qresult3 fromParent).die .a).members = true ∧ (sQuad qresult3 fromParent).handedPkt .a 3 (· == cQRESULT) = some qresult3 ∧ (sQuad qresult3 fromParent).pktMember .a qresult3.pkt = some (3, fromParent) ∧ (sQuad qresult3 fromParent).fnLinkUp fromParent.fn = true ∧ fromParent.st ≠ .failed ∧ qresult3.pkt.srcPoison = false) ∧
    ((sQuad qresult0 lastSeg).inv ∧ tblWf (sQuad qresult0 lastSeg).ops = true ∧ tblWf ((sQuad qresult0 lastSeg).die .a).members = true ∧ (sQuad qresult0 lastSeg).handedPkt .a 3 (· == cQRESULT) = some qresult0 ∧ (sQuad qresult0 lastSeg).pktMember .a qresult0.pkt = some (3, lastSeg) ∧ (sQuad qresult0 lastSeg).fnLinkUp lastSeg.fn = true ∧ lastSeg.st ≠ .failed ∧ qresult0.pkt.srcPoison = false ∧ lastSeg.segs = [{ seg5 with opseq := 7 }] ∧ lastSeg.ops = [{ qop0 with opseq := 7, first := 5, begun := 1, segs := 1 }] ∧ seg5.seg = qresult0.pkt.opf 64 32 ∧ seg5.result = none ∧ seg5.elems = 0 ∧ lastSeg.children = [] ∧ pktData qresult0.pkt = [] ∧ seg5.unacked = 0 ∧ qop0.unacked = 0 ∧ 1 = qop0.done + 1 ∧ (sQuad qresult0 lastSeg).op 7 = some (op0 0x65 .running)) ∧
    ((sQuad qresult3 { leaf0 with ops := [qop0] }).member? .a 3 = some { leaf0 with ops := [qop0] } ∧ leaf0.st = .ready ∧ isLeaf leaf0 = true ∧ leaf0.segs = [] ∧ qop0.begun = 0 ∧ qop0.segs = 1 ∧ qop0.count = 0 ∧ qop0.kind ≠ 2 ∧ covers leaf0.credit qop0.first = true ∧ (sQuad qresult3 { leaf0 with ops := [qop0] }).op 7 = some (op0 0x65 .running) ∧ (op0 0x65 .running).force = none) ∧
    ({ sQuad qresult3 joining0 with now := 900000000000 }.member? .a 3 = some joining0 ∧ joining0.st = .joining ∧ joining0.since + { sQuad qresult3 joining0 with now := 900000000000 }.joinTimeout .a joining0 ≤ { sQuad qresult3 joining0 with now := 900000000000 }.now) ∧
    ((sQuad qresult3 leaf0).member? .a 3 = some leaf0 ∧ leaf0.st ≠ .joining) ∧
    (((sPend 0 900000000000).die .a).joins = pend 0 :: [] ∧ (pend 0).at_ + ms ((sPend 0 900000000000).rd .a QDU.QDU_CFG.JOIN_TIMEOUT_MS) ≤ (sPend 0 900000000000).now) ∧
    (((sPend 5 5).die .a).joins = pend 5 :: [] ∧ (sPend 5 5).now < (pend 5).at_ + ms ((sPend 5 5).rd .a QDU.QDU_CFG.JOIN_TIMEOUT_MS)) := by
  repeat' apply And.intro
  all_goals decide +kernel

/-- A running structure whose ports 0 and 1 are LOCAL. -/
def sRun (s : State) : State := { s with running := some ⟨{ params0 with roles := [(0, .local_), (1, .local_)] }, 0, 0, 0, 0, false, false, []⟩ }
/-- Router 0 of group 0: its group entry, the route to router 1 over port 0, and port 0 live. -/
def sRtb : State := sRun (sWard.wrs .a [(RTB.MY_FEA.VALID, 1), (RTB.GROUP 0 0, 3), (RTB.LOCAL 0 1, 0x80), (LLU.LINK_STATE.STATE 0, 3), (HDR.CTRL.ENABLE (lluBase 0), 1), (LLU.PARTNER.FEA 0, 64)])
def sVer : State := sRtb.wr .a RTB.EPOCH.STATE0 1

theorem test_RouteTablesAreGuarded_meets :
    (sRtb.inv ∧ sRtb.barUp (.fn f1) = true ∧ sRtb.privileged (.fn f1) = false) ∧
    (sVer.barUp pf = true ∧ sVer.privileged pf = true ∧ (sVer.verValid .a 0 || sVer.verValid .a 1) = true) ∧
    (sRtb.barUp pf = true ∧ sRtb.privileged pf = true ∧ (sRtb.verValid .a 0 || sRtb.verValid .a 1) = false) ∧
    (sVer.verValid .a 0 = true ∧ sVer.verValid .a 1 = false ∧ sVer.on .a RTB.VERSION_STATUS.BUSY = false) ∧
    (sVer.verValid .a 1 = false) ∧
    (sVer.verValid .a 1 = false) ∧
    ((sVer.wr .a RTB.VERSION_STATUS.BUSY 1).on .a RTB.VERSION_STATUS.BUSY = true) ∧
    (sRtb.on .a RTB.VERSION_STATUS.BUSY = false ∧ sRtb.verValid .a 1 = false ∧ sRtb.validateFault .a 1 = some (2, 1, 0)) ∧
    (sWard.verValid .a 0 = false ∧ sWard.validateFault .a 0 = some (1, 0, 0)) ∧
    (sRtb.verValid .a 0 = false ∧ sRtb.validateFault .a 0 = none) ∧
    (sVer.rd .a RTB.EPOCH.INJECT = (0 : Fin 2).val) ∧
    (sVer.rd .a RTB.EPOCH.INJECT ≠ (1 : Fin 2).val) := by
  repeat' apply And.intro
  all_goals decide +kernel

def peer0 (at_ : Nat) : PeerStatus := ⟨at_, 0, 0, 1, 1, [], []⟩
def statusPkt0 : Pkt := mkPkt cGROUP_STATUS vMGT false 0 0 0 (leBytes 64 (1 + 2 ^ 16 * 9))
def inPkt0 (dest : Nat) : InPkt := ⟨mkPkt cRMA_PUT vREQ false dest 1 0 [], 1, 0, [true], [false], none, false, 0, false, false⟩
/-- A packet for an endpoint at the head of VC 0 of internal port 0, over a state. -/
def sHead (s : State) (q : InPkt) : State := s.modSwc .a (fun x => { x with ins := [(2048, [q])] })

theorem test_StatusAndRoutes_meets :
    (sRtb.inv ∧ (sRtb.rtb .a).gsAt ≤ sRtb.now ∧ sRtb.on .a RTB.MY_FEA.VALID = true ∧ (sRtb.statusPorts .a) = [0]) ∧
    ((sWard.rtb .a).gsAt ≤ sWard.now ∧ sWard.on .a RTB.MY_FEA.VALID = false) ∧
    (((sRtb.modRtb .a (fun r => { r with inbox := [statusPkt0], peers := [(2, peer0 0)], stale := [2] })).rtb .a).inbox = [statusPkt0] ∧ (parseStatus statusPkt0.data (sRtb.modRtb .a (fun r => { r with inbox := [statusPkt0], peers := [(2, peer0 0)], stale := [2] })).now).1 < 32) ∧
    (tget ((sRtb.modRtb .a (fun r => { r with peers := [(2, peer0 0)] })).rtb .a).peers (2 * (1 : Fin 32).val + (0 : Fin 2).val) = some (peer0 0) ∧ (sRtb.modRtb .a (fun r => { r with peers := [(2, peer0 0)] })).peerFresh .a (peer0 0) = false ∧ 2 * (1 : Fin 32).val + (0 : Fin 2).val ∉ ((sRtb.modRtb .a (fun r => { r with peers := [(2, peer0 0)] })).rtb .a).stale) ∧
    (((sHead sWard (inPkt0 0)).swc .a).inList (2048 : Fin 2560).val = (inPkt0 0) :: [] ∧ ((inPkt0 0)).drop = false ∧ ((inPkt0 0)).sent = 0 ∧ ((inPkt0 0)).granted = false ∧ ((inPkt0 0)).arrived ≠ 0 ∧ ((inPkt0 0)).out = none ∧ ((inPkt0 0)).pkt.transit = false ∧ (sHead sWard (inPkt0 0)).on .a RTB.MY_FEA.VALID = false) ∧
    (((sHead sVer (inPkt0 1)).swc .a).inList (2048 : Fin 2560).val = (inPkt0 1) :: [] ∧ ((inPkt0 1)).drop = false ∧ ((inPkt0 1)).sent = 0 ∧ ((inPkt0 1)).granted = false ∧ ((inPkt0 1)).arrived ≠ 0 ∧ ((inPkt0 1)).out = none ∧ ((inPkt0 1)).pkt.transit = false ∧ (((sHead sVer (inPkt0 1)).route .a (inPkt0 1).pkt (isInternal ((2048 : Fin 2560).val / 32))).2.2 = .eject) ∧ ejectDie ((sHead sVer (inPkt0 1)).route .a (inPkt0 1).pkt true).2.1.dest = .a ∧ (sHead sVer (inPkt0 1)).on .a SWC.SWC_CFG.MODE = false) ∧
    (((sHead sVer (inPkt0 64)).swc .a).inList (2048 : Fin 2560).val = (inPkt0 64) :: [] ∧ ((inPkt0 64)).drop = false ∧ ((inPkt0 64)).sent = 0 ∧ ((inPkt0 64)).granted = false ∧ ((inPkt0 64)).arrived ≠ 0 ∧ ((inPkt0 64)).out = none ∧ ((inPkt0 64)).pkt.transit = false ∧ (((sHead sVer (inPkt0 64)).route .a (inPkt0 64).pkt (isInternal ((2048 : Fin 2560).val / 32))).2.2 = .hop 0 1) ∧ (sHead sVer (inPkt0 64)).portOf 0 = (.a, 0) ∧ isBridge ((sHead sVer (inPkt0 64)).portKey 0 (posVc 1)) = false ∧ (sHead sVer (inPkt0 64)).on .a SWC.SWC_CFG.MODE = false) ∧
    (((sHead sVer (inPkt0 64)).swc .a).inList (2048 : Fin 2560).val = inPkt0 64 :: [] ∧ (inPkt0 64).sent = 0 ∧ (inPkt0 64).granted = false ∧ (inPkt0 64).drop = false ∧ (inPkt0 64).since + (sHead sVer (inPkt0 64)).holdNs .a < (sHead sVer (inPkt0 64)).now) ∧
    ((sVer.rtb .a).winAt + 10000 ≤ sVer.now) ∧
    ((sVer.modRtb .a (fun r => { r with winAt := 1000000000, winBytes := [(0, 5)] })).now < ((sVer.modRtb .a (fun r => { r with winAt := 1000000000, winBytes := [(0, 5)] })).rtb .a).winAt + 10000) := by
  repeat' apply And.intro
  all_goals decide +kernel

def inPkt1 : InPkt := { inPkt0 1 with out := some (64, 0) }
def want0 : Want := ⟨2048, 64, 0, true⟩
def ejPkt (c vn : Nat) : Pkt := { mkPkt c vn false 0 0 0 [] with src := 77 }
def sEj (p : Pkt) : State := sBase.modSwc .a (fun x => { x with ejected := [(64, p, 5)] })
def bflit (n : Nat) : BFlit := ⟨n, 0, false, none, false, [], none⟩
def sMods (x y : BMod) : State := (s0.modBridge .a (fun b => { b with mods := [(3, x)] })).modBridge .b (fun b => { b with mods := [(3, y)] })

def unit0 (cls stop die : Nat) : NocUnit := { data := 5, head := true, tail := true, cls := cls, destStop := stop, destDie := die, srcStop := 8, srcDie := 0, poison := false }
def word0 (u : NocUnit) : BitVec 544 := BitVec.ofNat 544 (nocWord u)

set_option maxRecDepth 100000 in
theorem test_SwitchCoreAndBridge_meets :
    ((sHead sVer inPkt1).wants .a = [want0] ∧ (sHead sVer inPkt1).eligible .a want0 = true ∧ isInternal want0.out = true ∧ ((sHead sVer inPkt1).swc .a).inList want0.ivc = inPkt1 :: [] ∧ inPkt1.sent = 0 ∧ inPkt1.pkt.len = 0 ∧ want0.head = true ∧ want0.vc < 32) ∧
    (((sEj (ejPkt 7 vREQ)).swc .a).ejected = (64, (ejPkt 7 vREQ), 5) :: [] ∧ assigned (ejPkt 7 vREQ).command = false) ∧
    (((sEj (ejPkt cGROUP_STATUS vMGT)).swc .a).ejected = (64, (ejPkt cGROUP_STATUS vMGT), 5) :: [] ∧ ((ejPkt cGROUP_STATUS vMGT).badHdr = false ∧ (ejPkt cGROUP_STATUS vMGT).badData = false ∧ assigned (ejPkt cGROUP_STATUS vMGT).command = true) ∧ (ejPkt cGROUP_STATUS vMGT).command = cGROUP_STATUS) ∧
    (((sEj (ejPkt cTRU_ACK vRSP)).swc .a).ejected = (64, (ejPkt cTRU_ACK vRSP), 5) :: [] ∧ ((ejPkt cTRU_ACK vRSP).badHdr = false ∧ (ejPkt cTRU_ACK vRSP).badData = false ∧ assigned (ejPkt cTRU_ACK vRSP).command = true) ∧ isControl (ejPkt cTRU_ACK vRSP).command = true) ∧
    (((hp ((sEj (ejPkt cRMA_PUT vREQ)).wr .a (DIKE.FN_POLDER.WARDEN 0) 1) 0 (fun p => { p with pfOn := true, link0 := { linkDown with up := true } })).swc .a).ejected = (64, (ejPkt cRMA_PUT vREQ), 5) :: [] ∧ ((ejPkt cRMA_PUT vREQ).badHdr = false ∧ (ejPkt cRMA_PUT vREQ).badData = false ∧ assigned (ejPkt cRMA_PUT vREQ).command = true) ∧ 0x10 ≤ (ejPkt cRMA_PUT vREQ).command ∧ (hp ((sEj (ejPkt cRMA_PUT vREQ)).wr .a (DIKE.FN_POLDER.WARDEN 0) 1) 0 (fun p => { p with pfOn := true, link0 := { linkDown with up := true } })).staleCheck .a (64 - 64) = false ∧ (hp ((sEj (ejPkt cRMA_PUT vREQ)).wr .a (DIKE.FN_POLDER.WARDEN 0) 1) 0 (fun p => { p with pfOn := true, link0 := { linkDown with up := true } })).ejectTest .a (ejPkt cRMA_PUT vREQ) = .pass) ∧
    (((hp (sEj (ejPkt cRMA_PUT vREQ)) 0 (fun p => { p with pfOn := false })).swc .a).ejected = (64, (ejPkt cRMA_PUT vREQ), 5) :: [] ∧ ((ejPkt cRMA_PUT vREQ).badHdr = false ∧ (ejPkt cRMA_PUT vREQ).badData = false ∧ assigned (ejPkt cRMA_PUT vREQ).command = true) ∧ 0x10 ≤ ((ejPkt cRMA_PUT vREQ) : Pkt).command ∧ (hp (sEj (ejPkt cRMA_PUT vREQ)) 0 (fun p => { p with pfOn := false })).staleCheck .a (64 - 64) = false ∧ (hp (sEj (ejPkt cRMA_PUT vREQ)) 0 (fun p => { p with pfOn := false })).ejectTest .a (ejPkt cRMA_PUT vREQ) = .reject stUNREACHABLE DIKE.EJ_ABSENT_PORT.COUNT 3) ∧
    (((sEj { ejPkt cRMA_PUT vMGT with polder := 1 }).swc .a).ejected = (64, ({ ejPkt cRMA_PUT vMGT with polder := 1 } : Pkt), 5) :: [] ∧ (({ ejPkt cRMA_PUT vMGT with polder := 1 } : Pkt).badHdr = false ∧ ({ ejPkt cRMA_PUT vMGT with polder := 1 } : Pkt).badData = false ∧ assigned ({ ejPkt cRMA_PUT vMGT with polder := 1 } : Pkt).command = true) ∧ 0x10 ≤ ({ ejPkt cRMA_PUT vMGT with polder := 1 } : Pkt).command ∧ (sEj { ejPkt cRMA_PUT vMGT with polder := 1 }).staleCheck .a (64 - 64) = false ∧ (sEj { ejPkt cRMA_PUT vMGT with polder := 1 }).ejectTest .a { ejPkt cRMA_PUT vMGT with polder := 1 } = .drop DIKE.EJ_CLASS_DROPS.COUNT 4) ∧
    ((sMods { bmod0 with nextRx := 65535 } { bmod0 with wire := [bflit 9] }).inv ∧ tget ((sMods { bmod0 with nextRx := 65535 } { bmod0 with wire := [bflit 9] }).bridge .a).mods (3 : Fin 16).val = some { bmod0 with nextRx := 65535 } ∧ ((sMods { bmod0 with nextRx := 65535 } { bmod0 with wire := [bflit 9] }).bmod Die.a.other (3 : Fin 16).val).wire = bflit 9 :: [] ∧ bflitGood (changed (bflit 9).bytes (([] : List (Fin 272 × Byte)).map (fun e => (e.1.val, e.2)))) 65535 = false) ∧
    ((sMods { bmod0 with nextRx := 65535 } { bmod0 with wire := [bflit 65535] }).inv ∧ tget ((sMods { bmod0 with nextRx := 65535 } { bmod0 with wire := [bflit 65535] }).bridge .a).mods (3 : Fin 16).val = some { bmod0 with nextRx := 65535 } ∧ ((sMods { bmod0 with nextRx := 65535 } { bmod0 with wire := [bflit 65535] }).bmod Die.a.other (3 : Fin 16).val).wire = bflit 65535 :: [] ∧ bflitGood (changed (bflit 65535).bytes (([] : List (Fin 272 × Byte)).map (fun e => (e.1.val, e.2)))) 65535 = true) ∧
    ((sMods { bmod0 with nextRx := 65535 } { bmod0 with wire := [bflit 65535] }).inv ∧ tget ((sMods { bmod0 with nextRx := 65535 } { bmod0 with wire := [bflit 65535] }).bridge .a).mods (3 : Fin 16).val = some { bmod0 with nextRx := 65535 } ∧ ((sMods { bmod0 with nextRx := 65535 } { bmod0 with wire := [bflit 65535] }).bmod Die.a.other (3 : Fin 16).val).wire = bflit 65535 :: [] ∧ bflitGood (changed (bflit 65535).bytes (([(271, 1)] : List (Fin 272 × Byte)).map (fun e => (e.1.val, e.2)))) 65535 = false) ∧
    ((sMods { bmod0 with nextRx := 65535 } { bmod0 with wire := [bflit 65535] }).inv ∧ tget ((sMods { bmod0 with nextRx := 65535 } { bmod0 with wire := [bflit 65535] }).bridge .a).mods (3 : Fin 16).val = some { bmod0 with nextRx := 65535 } ∧ ((sMods { bmod0 with nextRx := 65535 } { bmod0 with wire := [bflit 65535] }).bmod Die.a.other (3 : Fin 16).val).wire = bflit 65535 :: [] ∧ bflitGood (changed (bflit 65535).bytes (([(8, 128)] : List (Fin 272 × Byte)).map (fun e => (e.1.val, e.2)))) 65535 = false) ∧
    (tget ((sMods bmod0 bmod0).bridge .a).mods (3 : Fin 16).val = some bmod0 ∧ tget ((sMods bmod0 bmod0).bridge .b).mods (3 : Fin 16).val = some bmod0 ∧ ((sMods bmod0 bmod0).bmod .a (3 : Fin 16).val).live = true ∧ ((sMods bmod0 bmod0).bmod .a (3 : Fin 16).val).rxAt + 1000 ≤ (sMods bmod0 bmod0).now) ∧
    (tget ((sMods { bmod0 with live := false, training := true } { bmod0 with live := false, training := true }).bridge .a).mods (3 : Fin 16).val = some { bmod0 with live := false, training := true } ∧ tget ((sMods { bmod0 with live := false, training := true } { bmod0 with live := false, training := true }).bridge .b).mods (3 : Fin 16).val = some { bmod0 with live := false, training := true }) ∧
    (bmod0.retrains = 0) ∧
    (s0.inv ∧ nocCheck (3 : BitVec 544).toNat = none) ∧
    ((nocCheck (word0 (unit0 0 17 0) ^^^ 0).toNat).map nocUnit = some (unit0 0 17 0) ∧ (s0.noc .a).links = [] ∧ nocTarget .a (unit0 0 17 0) ≠ (63 : Fin 64).val) ∧
    ((nocCheck (word0 (unit0 0 17 0) ^^^ 2 ^ 20).toNat).map nocUnit = some (unit0 0 17 0) ∧ (s0.noc .a).links = [] ∧ nocTarget .a (unit0 0 17 0) ≠ (63 : Fin 64).val) ∧
    ((nocCheck (word0 (unit0 1 17 1) ^^^ 0).toNat).map nocUnit = some (unit0 1 17 1) ∧ (s0.noc .a).links = [] ∧ nocTarget .a (unit0 1 17 1) ≠ (63 : Fin 64).val) ∧
    ((nocCheck (word0 (unit0 3 0 0)).toNat).map nocUnit = some (unit0 3 0 0) ∧ (s0.noc .a).links = [] ∧ nocTarget .a (unit0 3 0 0) = (0 : Fin 64).val ∧ (unit0 3 0 0).destDie = Die.a.num ∧ stopDomain (0 : Fin 64).val = none) ∧
    ((nocCheck (word0 (unit0 1 17 0)).toNat).map nocUnit = some (unit0 1 17 0) ∧ ((s0.wr .a (PWC.DOM_STATE.STATE 26) 3).noc .a).links = [] ∧ nocTarget .a (unit0 1 17 0) = (17 : Fin 64).val ∧ (unit0 1 17 0).destDie = Die.a.num ∧ stopDomain (17 : Fin 64).val = some 26 ∧ (s0.wr .a (PWC.DOM_STATE.STATE 26) 3).stopOff .a (17 : Fin 64).val = false ∧ 3 ≤ (s0.wr .a (PWC.DOM_STATE.STATE 26) 3).domSt .a 26 ∧ (s0.wr .a (PWC.DOM_STATE.STATE 26) 3).draining .a 26 = false ∧ (unit0 1 17 0).cls ≠ 3 ∧ (((s0.wr .a (PWC.DOM_STATE.STATE 26) 3).held .a (17 : Fin 64).val).filter (fun x => x.cls == (unit0 1 17 0).cls)).length < 16) := by
  repeat' apply And.intro
  all_goals decide +kernel

/-- What a flit's check asks of its control word. -/
def flitRest (s : State) (d : Die) (i cw : Nat) : Bool :=
  decide (1 ≤ bitsOf cw 0 4 ∧ bitsOf cw 0 4 ≤ 4) && s.channels.contains (bitsOf cw 50 4) &&
    (bitsOf cw 0 4 != 1 || (!(validSlots cw).isEmpty && (validSlots cw).all (fun p => s.vcOk d i (bitsOf p.2 1 4))))
theorem leBytes_len (k n : Nat) : (leBytes k n).length = k := by
  induction k generalizing n with
  | zero => rfl
  | succ k ih => simp [leBytes, ih]
theorem leNat_leBytes (k n : Nat) (h : n < 256 ^ k) : leNat (leBytes k n) = n := by
  induction k generalizing n with
  | zero => simp only [Nat.pow_zero] at h; simp only [leBytes, leNat]; omega
  | succ k ih =>
    have := ih (n / 256) (by rw [Nat.pow_succ] at h; omega)
    simp only [leBytes, leNat, this, BitVec.toNat_ofNat]; omega
theorem flitOk_made {s : State} {d : Die} {i type uds ack ch total seq : Nat} {av nk : Bool} {units : List Byte} {n : Nat} (he : n = seq) (hu : units.length ≤ 256)
    (h : flitRest s d i (leNat ((flitBytes type uds av nk ack ch total units seq).take 8)) = true) :
    s.flitOk d i (flitBytes type uds av nk ack ch total units seq) false n = true := by
  subst he; revert h
  simp only [flitBytes]
  generalize hb : leBytes 8 _ ++ units ++ List.replicate (256 - units.length) 0 = b
  have hl : b.length = 264 := by rw [← hb]; simp [leBytes_len]; omega
  intro h
  have hd : (b ++ leBytes 8 (crc64 b n).toNat).drop 264 = leBytes 8 (crc64 b n).toNat := List.drop_left' hl
  have ht : (b ++ leBytes 8 (crc64 b n).toNat).take 264 = b := List.take_left' hl
  have hc : leNat (leBytes 8 (crc64 b n).toNat) = (crc64 b n).toNat := leNat_leBytes 8 _ (by have := (crc64 b n).isLt; omega)
  simp only [State.flitOk, hd, ht, hc, List.length_append, hl, leBytes_len]
  simpa [flitRest, Bool.and_assoc] using h

/-- Port 0 of die A in a state of the link, its two lanes trained. -/
def sLink (st : Nat) (l : Llu) : State :=
  (sRtb.wrs .a [(LLU.LINK_STATE.STATE 0, st), (LLU.LINK_STATE.LANES_ACTIVE 0, 3), (LLU.LINK_STATE.RATE 0, 4), (HDR.CTRL.ENABLE (lneBase 0), 1), (HDR.CTRL.ENABLE (lneBase 1), 1), (LNE.LNE_CFG.RATE_MAX 0, 4), (LNE.LNE_STATE.STATE 0, 7), (LNE.LNE_STATE.STATE 1, 7)]).setLlu .a 0 l
def lluA : Llu := { llu0 with useMask := 3, useRate := 4 }
/-- A DATA flit with a header unit on VC 0 of REQ, a CHANGE flit, and a NEGOTIATE flit. -/
def dataFlit (seq : Nat) : List Byte := flitBytes 1 16 false false 0 0 0 (hdrBytes (inPkt0 0).pkt) seq
def changeFlit (phase mask rate : Nat) : List Byte := flitBytes 4 0 false false 0 0 0 (changeUnit phase mask rate) 0
def negFlit (u : List Byte) : List Byte := flitBytes 3 0 false false 0 0 0 u 0xFFFF
/-- A partner's units that are like the port's own; with another V they are incompatible. -/
def negU (phase reason : Nat) : List Byte := (sLink lsNEGOTIATE lluA).negUnits .a 0 phase reason
def negBad (phase : Nat) : List Byte := (negU phase 0).set 1 0x13
def txFlit0 (replays : Nat) : TxFlit := ⟨9, [], 0, replays⟩

def ounit0 : OUnit := ⟨0, List.replicate 64 7, false, false, true, true, 0⟩
def sStaged : State := ((sLink lsACTIVE lluA).wr .a (LLU.REPLAY.CAPACITY 0) 8).modSwc .a (fun x => { x with stage := [((sLink lsACTIVE lluA).portKey 0 0, [ounit0])] })
/-- An IDLE flit; a NACK of flit 9; one too old. -/
def idleFlit : List Byte := flitBytes 2 0 false false 0 0 0 [] 0
def nackFlit : List Byte := flitBytes 2 0 true true 8 0 0 [] 0
def sNack (replays : Nat) : State := (sLink lsACTIVE { lluA with buf := [txFlit0 replays], nextTx := 10, awaiting := true }).wr .a (LLU.RETRAIN_CFG.REPLAY_LIMIT 0) 4

def sOffer : State := sLink lsNEGOTIATE { lluA with offer := some (negU 0 0), agreeing := true }

theorem test_LinkLayerCommands_meets :
    ((sLink lsACTIVE lluA).inv ∧ (sLink lsACTIVE lluA).linkSt .a (0 : Fin 64).val = lsACTIVE) ∧
    ((sLink lsACTIVE lluA).linkSt .a (0 : Fin 64).val = lsACTIVE ∧ bitsOf (leNat ((dataFlit 0).take 8)) 0 4 = 1 ∧ bitOf (leNat ((dataFlit 0).take 8)) 33 = false ∧ (sLink lsACTIVE lluA).flitOk .a 0 (dataFlit 0) false ((sLink lsACTIVE lluA).llu .a 0).nextRx = true) ∧
    (bitsOf (leNat (((dataFlit 0).take 271).take 8)) 0 4 ≠ 3 ∧ (sLink lsACTIVE lluA).flitOk .a 0 ((dataFlit 0).take 271) false ((sLink lsACTIVE lluA).llu .a 0).nextRx = false ∧ ((sLink lsACTIVE lluA).llu .a 0).awaiting = false) ∧
    (bitsOf (leNat ((dataFlit 0).take 8)) 0 4 ≠ 3 ∧ (sLink lsACTIVE lluA).flitOk .a 0 (dataFlit 0) true ((sLink lsACTIVE lluA).llu .a 0).nextRx = false ∧ ((sLink lsACTIVE lluA).llu .a 0).awaiting = false) ∧
    (flitIs (negFlit (negU 0 0)) 3 0 = true ∧ (sLink lsACTIVE lluA).flitOk .a 0 (negFlit (negU 0 0)) false 0xFFFF = true) ∧
    (flitIs (negFlit (negU 1 0)) 3 1 = true ∧ (sLink lsACTIVE lluA).flitOk .a 0 (negFlit (negU 1 0)) false 0xFFFF = true) ∧
    (flitIs (negFlit (negU 2 0)) 3 2 = true ∧ (sLink lsACTIVE lluA).flitOk .a 0 (negFlit (negU 2 0)) false 0xFFFF = true) ∧
    (bitOf (leNat ((changeFlit 0 1 4).take 8)) 33 = false ∧ (sLink lsACTIVE lluA).flitOk .a 0 (changeFlit 0 1 4) false ((sLink lsACTIVE lluA).llu .a 0).nextRx = true ∧ flitIs (changeFlit 0 1 4) 4 0 = true ∧ leNat (((changeFlit 0 1 4).drop 9).take 1) = 65 ∧ (sLink lsACTIVE lluA).changeOk .a 0 1 4 = true) ∧
    (bitOf (leNat ((changeFlit 0 4 4).take 8)) 33 = false ∧ (sLink lsACTIVE lluA).flitOk .a 0 (changeFlit 0 4 4) false ((sLink lsACTIVE lluA).llu .a 0).nextRx = true ∧ flitIs (changeFlit 0 4 4) 4 0 = true ∧ leNat (((changeFlit 0 4 4).drop 9).take 1) = 68 ∧ (sLink lsACTIVE lluA).changeOk .a 0 4 4 = false) ∧
    (bitOf (leNat ((changeFlit 1 2 3).take 8)) 33 = false ∧ (sLink lsACTIVE { lluA with change := some (2, 3, 999990000) }).flitOk .a 0 (changeFlit 1 2 3) false ((sLink lsACTIVE { lluA with change := some (2, 3, 999990000) }).llu .a 0).nextRx = true ∧ flitIs (changeFlit 1 2 3) 4 1 = true ∧ leNat (((changeFlit 1 2 3).drop 9).take 1) = 50 ∧ ((sLink lsACTIVE { lluA with change := some (2, 3, 999990000) }).llu .a 0).change = some (2, 3, 999990000)) ∧
    (bitOf (leNat ((changeFlit 2 2 3).take 8)) 33 = false ∧ (sLink lsACTIVE { lluA with change := some (2, 3, 999990000) }).flitOk .a 0 (changeFlit 2 2 3) false ((sLink lsACTIVE { lluA with change := some (2, 3, 999990000) }).llu .a 0).nextRx = true ∧ flitIs (changeFlit 2 2 3) 4 2 = true ∧ leNat (((changeFlit 2 2 3).drop 9).take 1) = 50) ∧
    ((((sLink lsACTIVE { lluA with buf := [txFlit0 0] }).wr .a (LLU.RETRAIN_CFG.REPLAY_LIMIT 0) 4).llu .a 0).buf = txFlit0 0 :: [] ∧ (txFlit0 0).sentAt + ((sLink lsACTIVE { lluA with buf := [txFlit0 0] }).wr .a (LLU.RETRAIN_CFG.REPLAY_LIMIT 0) 4).rd .a (LLU.LINK_TIMERS.REPLAY_TIMEOUT_NS 0) < ((sLink lsACTIVE { lluA with buf := [txFlit0 0] }).wr .a (LLU.RETRAIN_CFG.REPLAY_LIMIT 0) 4).now ∧ (txFlit0 0).replays < ((sLink lsACTIVE { lluA with buf := [txFlit0 0] }).wr .a (LLU.RETRAIN_CFG.REPLAY_LIMIT 0) 4).rd .a (LLU.RETRAIN_CFG.REPLAY_LIMIT 0)) ∧
    ((((sLink lsACTIVE { lluA with buf := [txFlit0 4] }).wr .a (LLU.RETRAIN_CFG.REPLAY_LIMIT 0) 4).llu .a 0).buf = txFlit0 4 :: [] ∧ (txFlit0 0).sentAt + ((sLink lsACTIVE { lluA with buf := [txFlit0 4] }).wr .a (LLU.RETRAIN_CFG.REPLAY_LIMIT 0) 4).rd .a (LLU.LINK_TIMERS.REPLAY_TIMEOUT_NS 0) < ((sLink lsACTIVE { lluA with buf := [txFlit0 4] }).wr .a (LLU.RETRAIN_CFG.REPLAY_LIMIT 0) 4).now ∧ ((sLink lsACTIVE { lluA with buf := [txFlit0 4] }).wr .a (LLU.RETRAIN_CFG.REPLAY_LIMIT 0) 4).rd .a (LLU.RETRAIN_CFG.REPLAY_LIMIT 0) ≤ (txFlit0 4).replays) ∧
    (((sLink lsACTIVE { lluA with rttBest := some 70000 }).llu .a 0).rttAt + 1000000 ≤ (sLink lsACTIVE { lluA with rttBest := some 70000 }).now) ∧
    (((sLink lsACTIVE lluA).llu .a 0).rxAt + max 200 ((sLink lsACTIVE lluA).rd .a (LLU.LINK_TIMERS.SILENCE_NS 0)) ≤ (sLink lsACTIVE lluA).now) ∧
    ((sLink lsACTIVE lluA).warden pf) ∧
    (((sLink lsACTIVE { lluA with change := some (2, 3, 999990000) }).llu .a 0).change = some (2, 3, 999990000) ∧ 999990000 + 10000 ≤ (sLink lsACTIVE { lluA with change := some (2, 3, 999990000) }).now) ∧
    ((sLink lsNEGOTIATE lluA).linkSt .a (0 : Fin 64).val ≠ lsACTIVE) ∧
    ((sLink lsACTIVE lluA).barUp (.fn f1) = true ∧ (sLink lsACTIVE lluA).privileged (.fn f1) = false) ∧
    ((sLink lsACTIVE lluA).warden pf ∧ (sLink lsACTIVE lluA).linkSt .a (0 : Fin 64).val ≠ lsRETIRED) ∧
    ((sLink lsACTIVE lluA).on .a (LLU.CHANGE_STATUS.BUSY 0) = false ∧ (sLink lsACTIVE lluA).changeOk .a 0 (1 : Fin 16).val (4 : Fin 8).val = true) ∧
    ((sLink lsNEGOTIATE lluA).on .a (LLU.CHANGE_STATUS.BUSY 0) = false ∧ (sLink lsNEGOTIATE lluA).linkSt .a 0 ≠ lsACTIVE) ∧
    ((sLink lsTRAINING lluA).lanesDone .a 0 = true ∧ (sLink lsTRAINING lluA).linkSt .a 0 = lsTRAINING) ∧
    ((sLink lsCHANGING lluA).lanesDone .a 0 = true ∧ (sLink lsCHANGING lluA).linkSt .a 0 = lsCHANGING) ∧
    ((sLink lsNEGOTIATE lluA).linkSt .a 0 = lsNEGOTIATE ∧ ((sLink lsNEGOTIATE lluA).llu .a 0).sendAt + 100 ≤ (sLink lsNEGOTIATE lluA).now) ∧
    ((sLink lsNEGOTIATE lluA).linkSt .a 0 = lsNEGOTIATE ∧ (sLink lsNEGOTIATE lluA).flitOk .a 0 (negFlit (negU 0 0)) false 0xFFFF = true ∧ ((negFlit (negU 0 0)).drop 8).take 128 = (negU 0 0) ∧ flitIs (negFlit (negU 0 0)) 3 0 = true ∧ ((sLink lsNEGOTIATE lluA).showPartner .a 0 (negU 0 0)).negReason .a 0 (negU 0 0) = 0) ∧
    ((sLink lsNEGOTIATE lluA).linkSt .a 0 = lsNEGOTIATE ∧ (sLink lsNEGOTIATE lluA).flitOk .a 0 (negFlit (negU 1 0)) false 0xFFFF = true ∧ ((negFlit (negU 1 0)).drop 8).take 128 = (negU 1 0) ∧ flitIs (negFlit (negU 1 0)) 3 1 = true ∧ ((sLink lsNEGOTIATE lluA).showPartner .a 0 (negU 1 0)).negReason .a 0 (negU 1 0) = 0) ∧
    ((sLink lsNEGOTIATE lluA).linkSt .a 0 = lsNEGOTIATE ∧ (sLink lsNEGOTIATE lluA).flitOk .a 0 (negFlit (negU 2 5)) false 0xFFFF = true ∧ ((negFlit (negU 2 5)).drop 8).take 128 = (negU 2 5) ∧ flitIs (negFlit (negU 2 5)) 3 2 = true) ∧
    ((sLink lsNEGOTIATE lluA).linkSt .a 0 = lsNEGOTIATE ∧ (sLink lsNEGOTIATE lluA).flitOk .a 0 (negFlit (negBad 0)) false 0xFFFF = true ∧ ((negFlit (negBad 0)).drop 8).take 128 = (negBad 0) ∧ flitIs (negFlit (negBad 0)) 3 0 = true ∧ ((sLink lsNEGOTIATE lluA).showPartner .a 0 (negBad 0)).negReason .a 0 (negBad 0) = 1) ∧
    ((sLink lsNEGOTIATE lluA).linkSt .a 0 = lsNEGOTIATE ∧ (sLink lsNEGOTIATE lluA).flitOk .a 0 (negFlit (negBad 1)) false 0xFFFF = true ∧ ((negFlit (negBad 1)).drop 8).take 128 = (negBad 1) ∧ flitIs (negFlit (negBad 1)) 3 1 = true ∧ ((sLink lsNEGOTIATE lluA).showPartner .a 0 (negBad 1)).negReason .a 0 (negBad 1) = 1) ∧
    ((sLink lsTRAINING lluA).linkSt .a 0 = lsTRAINING ∧ ((sLink lsTRAINING lluA).llu .a 0).began + 25000000 ≤ (sLink lsTRAINING lluA).now) ∧
    ((sLink lsNEGOTIATE lluA).linkSt .a 0 = lsNEGOTIATE ∧ ((sLink lsNEGOTIATE lluA).llu .a 0).began + 25000000 ≤ (sLink lsNEGOTIATE lluA).now) ∧
    ((sLink lsFAILED lluA).linkSt .a 0 = lsFAILED ∧ ((sLink lsFAILED lluA).llu .a 0).negAt + secNs ≤ (sLink lsFAILED lluA).now) ∧
    ((((sLink lsFAILED { lluA with ran := true, buf := [txFlit0 0] }).llu .a 0).ran = true ∧ ((sLink lsFAILED { lluA with ran := true, buf := [txFlit0 0] }).llu .a 0).gaveUp = false) ∧ ((sLink lsFAILED { lluA with ran := true, buf := [txFlit0 0] }).linkSt .a 0 ≠ lsACTIVE ∧ (sLink lsFAILED { lluA with ran := true, buf := [txFlit0 0] }).linkSt .a 0 ≠ lsRETIRED) ∧ ((sLink lsFAILED { lluA with ran := true, buf := [txFlit0 0] }).llu .a 0).downAt + (sLink lsFAILED { lluA with ran := true, buf := [txFlit0 0] }).holdNs .a ≤ (sLink lsFAILED { lluA with ran := true, buf := [txFlit0 0] }).now) ∧
    ((sLink lsACTIVE { lluA with buf := [txFlit0 0], replayAt := some 9, nextTx := 10 }).inv ∧ (sLink lsACTIVE { lluA with buf := [txFlit0 0], replayAt := some 9, nextTx := 10 }).linkSt .a (0 : Fin 64).val = lsACTIVE ∧ ((sLink lsACTIVE { lluA with buf := [txFlit0 0], replayAt := some 9, nextTx := 10 }).llu .a 0).replayAt = some 9 ∧ ((sLink lsACTIVE { lluA with buf := [txFlit0 0], replayAt := some 9, nextTx := 10 }).llu .a 0).buf.find? (fun f => f.seq == 9) = some (txFlit0 0)) ∧
    ((sLink lsACTIVE { lluA with change := some (2, 3, 999990000) }).linkSt .a (0 : Fin 64).val = lsACTIVE ∧ (((sLink lsACTIVE { lluA with change := some (2, 3, 999990000) }).llu .a 0).replayAt.bind fun q => ((sLink lsACTIVE { lluA with change := some (2, 3, 999990000) }).llu .a 0).buf.find? (fun f => f.seq == q)) = none ∧ ((sLink lsACTIVE { lluA with change := some (2, 3, 999990000) }).llu .a 0).change = some (2, 3, 999990000) ∧ ((sLink lsACTIVE { lluA with change := some (2, 3, 999990000) }).llu .a 0).sendAt + 100 ≤ (sLink lsACTIVE { lluA with change := some (2, 3, 999990000) }).now) ∧
    (((sLink lsACTIVE lluA).wr .a (LLU.REPLAY.CAPACITY 0) 0).linkSt .a (0 : Fin 64).val = lsACTIVE ∧ ((((sLink lsACTIVE lluA).wr .a (LLU.REPLAY.CAPACITY 0) 0).llu .a 0).replayAt.bind fun q => (((sLink lsACTIVE lluA).wr .a (LLU.REPLAY.CAPACITY 0) 0).llu .a 0).buf.find? (fun f => f.seq == q)) = none ∧ (((sLink lsACTIVE lluA).wr .a (LLU.REPLAY.CAPACITY 0) 0).llu .a 0).change = none ∧ ((sLink lsACTIVE lluA).wr .a (LLU.REPLAY.CAPACITY 0) 0).rd .a (LLU.REPLAY.CAPACITY 0) ≤ (((sLink lsACTIVE lluA).wr .a (LLU.REPLAY.CAPACITY 0) 0).llu .a 0).buf.length) ∧
    (((sLink lsACTIVE { lluA with change := some (2, 3, 999990000), sendAt := 999999950 }).wr .a (LLU.REPLAY.CAPACITY 0) 8).linkSt .a (0 : Fin 64).val = lsACTIVE ∧ ((((sLink lsACTIVE { lluA with change := some (2, 3, 999990000), sendAt := 999999950 }).wr .a (LLU.REPLAY.CAPACITY 0) 8).llu .a 0).replayAt.bind fun q => (((sLink lsACTIVE { lluA with change := some (2, 3, 999990000), sendAt := 999999950 }).wr .a (LLU.REPLAY.CAPACITY 0) 8).llu .a 0).buf.find? (fun f => f.seq == q)) = none ∧ ((sLink lsACTIVE { lluA with change := some (2, 3, 999990000), sendAt := 999999950 }).wr .a (LLU.REPLAY.CAPACITY 0) 8).now < (((sLink lsACTIVE { lluA with change := some (2, 3, 999990000), sendAt := 999999950 }).wr .a (LLU.REPLAY.CAPACITY 0) 8).llu .a 0).sendAt + 100 ∧ (((sLink lsACTIVE { lluA with change := some (2, 3, 999990000), sendAt := 999999950 }).wr .a (LLU.REPLAY.CAPACITY 0) 8).llu .a 0).buf.length < ((sLink lsACTIVE { lluA with change := some (2, 3, 999990000), sendAt := 999999950 }).wr .a (LLU.REPLAY.CAPACITY 0) 8).rd .a (LLU.REPLAY.CAPACITY 0) ∧ (State.takeUnits .a (((sLink lsACTIVE { lluA with change := some (2, 3, 999990000), sendAt := 999999950 }).wr .a (LLU.REPLAY.CAPACITY 0) 8).portKeys 0) 4 ((sLink lsACTIVE { lluA with change := some (2, 3, 999990000), sendAt := 999999950 }).wr .a (LLU.REPLAY.CAPACITY 0) 8)).2 = []) ∧
    (sStaged.linkSt .a (0 : Fin 64).val = lsACTIVE ∧ ((sStaged.llu .a 0).replayAt.bind fun q => (sStaged.llu .a 0).buf.find? (fun f => f.seq == q)) = none ∧ (sStaged.llu .a 0).change = none ∧ (sStaged.llu .a 0).buf.length < sStaged.rd .a (LLU.REPLAY.CAPACITY 0) ∧ (State.takeUnits .a (sStaged.portKeys 0) 4 sStaged).2 ≠ []) ∧
    ((sNack 0).linkSt .a (0 : Fin 64).val = lsACTIVE ∧ bitsOf (leNat (idleFlit.take 8)) 0 4 = 2 ∧ bitOf (leNat (idleFlit.take 8)) 33 = false ∧ (sNack 0).flitOk .a 0 idleFlit false ((sNack 0).llu .a 0).nextRx = true) ∧
    ((sNack 0).linkSt .a (0 : Fin 64).val = lsACTIVE ∧ bitsOf (leNat (nackFlit.take 8)) 0 4 = 2 ∧ bitOf (leNat (nackFlit.take 8)) 33 = true ∧ (sNack 0).flitOk .a 0 nackFlit false ((sNack 0).llu .a 0).nextRx = true ∧ ((sNack 0).llu .a 0).nackFrom = none ∧ ((sNack 0).llu .a 0).buf.find? (fun f => f.seq == 9) = some (txFlit0 0)) ∧
    ((sNack 4).linkSt .a (0 : Fin 64).val = lsACTIVE ∧ bitsOf (leNat (nackFlit.take 8)) 0 4 = 2 ∧ bitOf (leNat (nackFlit.take 8)) 33 = true ∧ (sNack 4).flitOk .a 0 nackFlit false ((sNack 4).llu .a 0).nextRx = true ∧ ((sNack 4).llu .a 0).nackFrom = none ∧ ((sNack 4).llu .a 0).buf.find? (fun f => f.seq == 9) = some (txFlit0 4)) ∧
    ((sNack 0).linkSt .a (0 : Fin 64).val = lsACTIVE ∧ (sNack 0).flitOk .a 0 idleFlit true ((sNack 0).llu .a 0).nextRx = false ∧ ((sNack 0).llu .a 0).awaiting = true) ∧
    ((sLink lsACTIVE lluA).linkSt .a (0 : Fin 64).val = lsACTIVE ∧ bitOf (leNat ((changeFlit 1 2 3).take 8)) 33 = false ∧ (sLink lsACTIVE lluA).flitOk .a 0 (changeFlit 1 2 3) false ((sLink lsACTIVE lluA).llu .a 0).nextRx = true ∧ flitIs (changeFlit 1 2 3) 4 1 = true ∧ leNat (((changeFlit 1 2 3).drop 9).take 1) = 50 ∧ ((sLink lsACTIVE lluA).llu .a 0).change = none) ∧
    ((sLink lsACTIVE lluA).linkSt .a (0 : Fin 64).val = lsACTIVE ∧ bitOf (leNat ((changeFlit 2 2 3).take 8)) 33 = false ∧ (sLink lsACTIVE lluA).flitOk .a 0 (changeFlit 2 2 3) false ((sLink lsACTIVE lluA).llu .a 0).nextRx = true ∧ flitIs (changeFlit 2 2 3) 4 2 = true ∧ leNat (((changeFlit 2 2 3).drop 9).take 1) = 50 ∧ ((sLink lsACTIVE lluA).llu .a 0).change = none) ∧
    (((sLink lsACTIVE { lluA with buf := [{ txFlit0 0 with sentAt := 1000000000 }] }).wr .a (LLU.RETRAIN_CFG.REPLAY_LIMIT 0) 4).linkSt .a (0 : Fin 64).val = lsACTIVE ∧ (((sLink lsACTIVE { lluA with buf := [{ txFlit0 0 with sentAt := 1000000000 }] }).wr .a (LLU.RETRAIN_CFG.REPLAY_LIMIT 0) 4).llu .a 0).buf = { txFlit0 0 with sentAt := 1000000000 } :: [] ∧ ((sLink lsACTIVE { lluA with buf := [{ txFlit0 0 with sentAt := 1000000000 }] }).wr .a (LLU.RETRAIN_CFG.REPLAY_LIMIT 0) 4).now ≤ 1000000000 + ((sLink lsACTIVE { lluA with buf := [{ txFlit0 0 with sentAt := 1000000000 }] }).wr .a (LLU.RETRAIN_CFG.REPLAY_LIMIT 0) 4).rd .a (LLU.LINK_TIMERS.REPLAY_TIMEOUT_NS 0)) ∧
    ((sLink lsACTIVE lluA).linkSt .a (0 : Fin 64).val = lsACTIVE ∧ ((sLink lsACTIVE lluA).llu .a 0).buf = [] ∧ ((sLink lsACTIVE lluA).llu .a 0).change = none) ∧
    ((sLink lsACTIVE { lluA with rxAt := 1000000000, rttAt := 1000000000 }).linkSt .a (0 : Fin 64).val = lsACTIVE ∧ ¬ (((sLink lsACTIVE { lluA with rxAt := 1000000000, rttAt := 1000000000 }).llu .a 0).rttAt + 1000000 ≤ (sLink lsACTIVE { lluA with rxAt := 1000000000, rttAt := 1000000000 }).now) ∧ ¬ (((sLink lsACTIVE { lluA with rxAt := 1000000000, rttAt := 1000000000 }).llu .a 0).rxAt + max 200 ((sLink lsACTIVE { lluA with rxAt := 1000000000, rttAt := 1000000000 }).rd .a (LLU.LINK_TIMERS.SILENCE_NS 0)) ≤ (sLink lsACTIVE { lluA with rxAt := 1000000000, rttAt := 1000000000 }).now)) ∧
    ((sLink lsTRAINING lluA).linkSt .a (0 : Fin 64).val ≠ lsACTIVE ∧ ((sLink lsTRAINING lluA).linkSt .a (0 : Fin 64).val = lsTRAINING)) ∧
    ((sLink lsCHANGING lluA).linkSt .a (0 : Fin 64).val ≠ lsACTIVE ∧ ((sLink lsCHANGING lluA).linkSt .a (0 : Fin 64).val = lsCHANGING)) ∧
    ((sLink lsTRAINING lluA).linkSt .a (0 : Fin 64).val ≠ lsACTIVE ∧ (sLink lsTRAINING lluA).linkSt .a (0 : Fin 64).val ≠ lsNEGOTIATE) ∧
    ((sLink lsRETIRED lluA).warden pf ∧ ¬ ((sLink lsRETIRED lluA).linkSt .a (0 : Fin 64).val ≠ lsRETIRED ∧ (sLink lsRETIRED lluA).freeRet.isSome = true)) ∧
    ((sLink lsACTIVE lluA).warden pf ∧ (sLink lsACTIVE lluA).linkSt .a (0 : Fin 64).val ≠ lsRETIRED ∧ (sLink lsACTIVE lluA).freeRet.isSome = true) ∧
    (((sLink lsACTIVE lluA).wr .a (LLU.CHANGE_STATUS.BUSY 0) 1).warden pf ∧ ((sLink lsACTIVE lluA).wr .a (LLU.CHANGE_STATUS.BUSY 0) 1).on .a (LLU.CHANGE_STATUS.BUSY (0 : Fin 64).val) = true) ∧
    ((sLink lsACTIVE lluA).warden pf ∧ (sLink lsACTIVE lluA).on .a (LLU.CHANGE_STATUS.BUSY (0 : Fin 64).val) = false ∧ (sLink lsACTIVE lluA).changeOk .a 0 (4 : Fin 16).val (4 : Fin 8).val = false) ∧
    (¬ ((sLink lsNEGOTIATE { lluA with sendAt := 999999950 }).linkSt .a (0 : Fin 64).val = lsNEGOTIATE ∧ ((sLink lsNEGOTIATE { lluA with sendAt := 999999950 }).llu .a 0).sendAt + 100 ≤ (sLink lsNEGOTIATE { lluA with sendAt := 999999950 }).now)) ∧
    (sOffer.linkSt .a (0 : Fin 64).val = lsNEGOTIATE ∧ (sOffer.llu .a 0).offer = some (negU 0 0) ∧ (sOffer.llu .a 0).agreeing = true ∧ bitsOf (leNat (idleFlit.take 8)) 0 4 ≤ 2 ∧ bitOf (leNat (idleFlit.take 8)) 33 = false ∧ sOffer.resumable .a 0 (negU 0 0) = false ∧ sOffer.flitOk .a 0 idleFlit false 0 = true) ∧
    ((sLink lsRETIRED lluA).linkSt .a (0 : Fin 64).val = lsRETIRED) := by
  refine ⟨?_, (⟨by decide +kernel, by decide +kernel, by decide +kernel, flitOk_made (by decide +kernel) (by decide +kernel) (by decide +kernel)⟩), ?_, ?_, (⟨by decide +kernel, flitOk_made (by decide +kernel) (by decide +kernel) (by decide +kernel)⟩), (⟨by decide +kernel, flitOk_made (by decide +kernel) (by decide +kernel) (by decide +kernel)⟩), (⟨by decide +kernel, flitOk_made (by decide +kernel) (by decide +kernel) (by decide +kernel)⟩), (⟨by decide +kernel, flitOk_made (by decide +kernel) (by decide +kernel) (by decide +kernel), by decide +kernel, by decide +kernel, by decide +kernel⟩), (⟨by decide +kernel, flitOk_made (by decide +kernel) (by decide +kernel) (by decide +kernel), by decide +kernel, by decide +kernel, by decide +kernel⟩), (⟨by decide +kernel, flitOk_made (by decide +kernel) (by decide +kernel) (by decide +kernel), by decide +kernel, by decide +kernel, by decide +kernel⟩), (⟨by decide +kernel, flitOk_made (by decide +kernel) (by decide +kernel) (by decide +kernel), by decide +kernel, by decide +kernel⟩), ?_, ?_, ?_, ?_, ?_, ?_, ?_, ?_, ?_, ?_, ?_, ?_, ?_, ?_, (⟨by decide +kernel, flitOk_made (by decide +kernel) (by decide +kernel) (by decide +kernel), by decide +kernel, by decide +kernel, by decide +kernel⟩), (⟨by decide +kernel, flitOk_made (by decide +kernel) (by decide +kernel) (by decide +kernel), by decide +kernel, by decide +kernel, by decide +kernel⟩), (⟨by decide +kernel, flitOk_made (by decide +kernel) (by decide +kernel) (by decide +kernel), by decide +kernel, by decide +kernel⟩), (⟨by decide +kernel, flitOk_made (by decide +kernel) (by decide +kernel) (by decide +kernel), by decide +kernel, by decide +kernel, by decide +kernel⟩), (⟨by decide +kernel, flitOk_made (by decide +kernel) (by decide +kernel) (by decide +kernel), by decide +kernel, by decide +kernel, by decide +kernel⟩), ?_, ?_, ?_, ?_, ?_, ?_, ?_, ?_, ?_, (⟨by decide +kernel, by decide +kernel, by decide +kernel, flitOk_made (by decide +kernel) (by decide +kernel) (by decide +kernel)⟩), (⟨by decide +kernel, by decide +kernel, by decide +kernel, flitOk_made (by decide +kernel) (by decide +kernel) (by decide +kernel), by decide +kernel, by decide +kernel⟩), (⟨by decide +kernel, by decide +kernel, by decide +kernel, flitOk_made (by decide +kernel) (by decide +kernel) (by decide +kernel), by decide +kernel, by decide +kernel⟩), ?_, (⟨by decide +kernel, by decide +kernel, flitOk_made (by decide +kernel) (by decide +kernel) (by decide +kernel), by decide +kernel, by decide +kernel, by decide +kernel⟩), (⟨by decide +kernel, by decide +kernel, flitOk_made (by decide +kernel) (by decide +kernel) (by decide +kernel), by decide +kernel, by decide +kernel, by decide +kernel⟩), ?_, ?_, ?_, ?_, ?_, ?_, ?_, ?_, ?_, ?_, ?_, (⟨by decide +kernel, by decide +kernel, by decide +kernel, by decide +kernel, by decide +kernel, by decide +kernel, flitOk_made (by decide +kernel) (by decide +kernel) (by decide +kernel)⟩), ?_⟩
  all_goals repeat' apply And.intro
  all_goals decide +kernel

/-- A training frame of the fields `x`, with its CRC. -/
def frame0 (x : Nat) : BitVec 128 := BitVec.ofNat 128 (x + (crc32c (leBytes 12 x)).toNat * 2 ^ 96)
/-- Lane 0 of die A in a state, its port in a state of the link. -/
def sLane (port st : Nat) (l : Lane) : State := ((sLink port lluA).wr .a (LNE.LNE_STATE.STATE 0) st).modLane .a 0 (fun _ => l)

theorem gfMulN_zero : ∀ n b, gfMulN n 0 b = 0
  | 0, _ => rfl
  | n + 1, b => by
    have h : gfDouble 0 = 0 := by decide
    rw [gfMulN, h, gfMulN_zero n]; split <;> rfl
theorem rsSyndromes_lead (k : Nat) (t : List Nat) : rsSyndromes (List.replicate k 0 ++ t) = rsSyndromes t := by
  simp only [rsSyndromes, List.foldl_append]
  refine List.map_congr_left fun j _ => ?_
  congr 1
  induction k with
  | zero => rfl
  | succ k ih => simp only [List.replicate_succ, List.foldl_cons, gfMul, gfMulN_zero]; exact ih
theorem rsDecode_zero : rsDecode (List.replicate 544 0) = some (List.replicate 544 0, 0) := by
  have h : rsSyndromes (List.replicate 544 0) = List.replicate 30 0 := by
    have := rsSyndromes_lead 544 []
    rw [List.append_nil] at this; rw [this]; decide +kernel
  simp only [rsDecode, h]; rfl
theorem rsDecode_of {w syn fixed : List Nat} {x : Locator} {e : List (Nat × Nat)} (h : rsSyndromes w = syn) (n : syn.all (· == 0) = false)
    (hx : (List.range 30).foldl (Locator.step syn) ⟨[1], [1], 0, 1, 1⟩ = x) (he : rsErrors syn x = e)
    (hf : w.zipIdx.map (fun t : Nat × Nat => match e.find? (fun q : Nat × Nat => q.1 == 543 - t.2) with | some q => Nat.xor t.1 q.2 | none => t.1) = fixed)
    (hl : x.len ≤ 15 ∧ e.length = x.len ∧ (rsSyndromes fixed).all (· == 0) = true) : rsDecode w = some (fixed, e.length) := by
  subst hf
  simp only [rsDecode, h, hx, he, n]
  rw [if_neg (by simp)]
  exact if_pos hl
set_option maxRecDepth 100000 in
theorem rsDecode_one : rsDecode (List.replicate 543 0 ++ [1]) = some (List.replicate 544 0, 1) :=
  rsDecode_of (syn := List.replicate 30 1) (x := ⟨[1, 1], [1], 1, 30, 1⟩) (e := [(0, 1)]) (by rw [rsSyndromes_lead]; decide +kernel)
    (by decide +kernel) (by decide +kernel) (by decide +kernel) (by decide +kernel) ⟨by decide, by decide, by
      have := rsSyndromes_lead 544 []
      rw [List.append_nil] at this; rw [this]; decide +kernel⟩
theorem rsDecode_many : rsDecode (List.replicate 528 0 ++ List.replicate 16 1) = none := by
  have h : ∃ l, rsSyndromes (List.replicate 528 0 ++ List.replicate 16 1) = l ∧ l.all (· == 0) = false ∧ 15 < ((List.range 30).foldl (Locator.step l) ⟨[1], [1], 0, 1, 1⟩).len := by
    rw [rsSyndromes_lead]; exact ⟨_, rfl, by decide +kernel, by decide +kernel⟩
  obtain ⟨l, e, a, b⟩ := h
  simp only [rsDecode, e, a]
  rw [if_neg (by simp), if_neg (by omega)]

/-- The levels of the codeword of zeros, and with one and with sixteen symbols in error. -/
def lvm : List (Fin 4) := List.replicate 2570 0
def lp0 : List (Fin 4) := List.replicate 150 0
def lp1 : List (Fin 4) := List.replicate 145 0 ++ [3, 0, 0, 0, 0]
def lp16 : List (Fin 4) := List.replicate 70 0 ++ (List.replicate 16 [3, 0, 0, 0, 0]).flatten
def lv0 : List (Fin 4) := lvm ++ lp0
def lv1 : List (Fin 4) := lvm ++ lp1
def lv16 : List (Fin 4) := lvm ++ lp16
def lvWord (l : List (Fin 4)) : List Nat := (levelSymbols none (l.map (·.val))).1
set_option maxRecDepth 100000 in
theorem lvWord_eq : lvWord lv0 = List.replicate 544 0 ∧ lvWord lv1 = List.replicate 543 0 ++ [1] ∧
    lvWord lv16 = List.replicate 528 0 ++ List.replicate 16 1 := by refine ⟨?_, ?_, ?_⟩ <;> decide +kernel
theorem lv_decode : rsDecode (lvWord lv0) = some (List.replicate 544 0, 0) ∧ rsDecode (lvWord lv1) = some (List.replicate 544 0, 1) ∧
    rsDecode (lvWord lv16) = none := by rw [lvWord_eq.1, lvWord_eq.2.1, lvWord_eq.2.2]; exact ⟨rsDecode_zero, rsDecode_one, rsDecode_many⟩

/-- An alignment codeword is awaited. -/
def laneAw : Lane := { lane0 with line := { rx0 with period := some 4, words := 8192 } }
def sOneLane : State := (sLane lsFAILED 5 laneAw).modLlu .a 0 (fun l => { l with useMask := 1 })

theorem test_LaneCommands_meets :
    ((sLane lsFAILED 2 lane0).inv ∧ frameOk (1 : BitVec 128) = false) ∧
    (frameOk (frame0 2130706449) = true ∧ (sLane lsFAILED 2 lane0).laneSt .a (0 : Fin 64).val = 2 ∧ (parseFrame (frame0 2130706449)).reach = (sLane lsFAILED 2 lane0).rd .a (LNE.LNE_CFG.REACH 0) ∧ (parseFrame (frame0 2130706449)).rate = (sLane lsFAILED 2 lane0).rd .a (LNE.LNE_STATE.RATE 0) ∧ ((sLane lsFAILED 2 lane0).lane .a 0).stepAt + 5000 ≤ (sLane lsFAILED 2 lane0).now) ∧
    (frameOk (frame0 2130706961) = true ∧ (sLane lsFAILED 2 lane0).laneSt .a (0 : Fin 64).val = 2 ∧ (parseFrame (frame0 2130706961)).reach ≠ (sLane lsFAILED 2 lane0).rd .a (LNE.LNE_CFG.REACH 0)) ∧
    (tget (((sLane lsFAILED 1 lane0).modDie .a (fun x => { x with pllAt := [(0, 999980000)] })).die .a).pllAt (0 : Fin 16).val = some 999980000 ∧ tblWf (((sLane lsFAILED 1 lane0).modDie .a (fun x => { x with pllAt := [(0, 999980000)] })).die .a).pllAt = true ∧ 999980000 + 20000 ≤ ((sLane lsFAILED 1 lane0).modDie .a (fun x => { x with pllAt := [(0, 999980000)] })).now ∧ ((sLane lsFAILED 1 lane0).modDie .a (fun x => { x with pllAt := [(0, 999980000)] })).laneSt .a (4 * (0 : Fin 16).val + (0 : Fin 4).val) = 1) ∧
    (tget (((sLane lsFAILED 1 lane0).modDie .a (fun x => { x with pllAt := [(0, 999980001)] })).die .a).pllAt (0 : Fin 16).val = some 999980001 ∧ ((sLane lsFAILED 1 lane0).modDie .a (fun x => { x with pllAt := [(0, 999980001)] })).now < 999980001 + 20000) ∧
    (2 ≤ (sLane lsFAILED 2 lane0).laneSt .a 0 ∧ (sLane lsFAILED 2 lane0).laneSt .a 0 ≤ 6 ∧ ((sLane lsFAILED 2 lane0).lane .a 0).stepAt + stepMax ((sLane lsFAILED 2 lane0).laneSt .a 0) < (sLane lsFAILED 2 lane0).now) ∧
    (2 ≤ (sLane lsFAILED 6 lane0).laneSt .a 0 ∧ (sLane lsFAILED 6 lane0).laneSt .a 0 ≤ 6 ∧ ((sLane lsFAILED 6 lane0).lane .a 0).stepAt + stepMax ((sLane lsFAILED 6 lane0).laneSt .a 0) < (sLane lsFAILED 6 lane0).now) ∧
    (((sLane lsFAILED 6 lane0).wr .a (LNE.FEC_CODEWORDS.COUNT 0) 5).laneSt .a 0 = 6 ∧ (((sLane lsFAILED 6 lane0).wr .a (LNE.FEC_CODEWORDS.COUNT 0) 5).lane .a 0).passed = false ∧ (((sLane lsFAILED 6 lane0).wr .a (LNE.FEC_CODEWORDS.COUNT 0) 5).lane .a 0).qualAt + us (max 10 (((sLane lsFAILED 6 lane0).wr .a (LNE.FEC_CODEWORDS.COUNT 0) 5).rd .a (LNE.QUAL_CFG.WINDOW_US 0))) * (if (((sLane lsFAILED 6 lane0).wr .a (LNE.FEC_CODEWORDS.COUNT 0) 5).lane .a 0).qualLong then 10 else 1) ≤ ((sLane lsFAILED 6 lane0).wr .a (LNE.FEC_CODEWORDS.COUNT 0) 5).now ∧ (0 < ((sLane lsFAILED 6 lane0).wr .a (LNE.FEC_CODEWORDS.COUNT 0) 5).rd .a (LNE.FEC_CODEWORDS.COUNT 0) - (((sLane lsFAILED 6 lane0).wr .a (LNE.FEC_CODEWORDS.COUNT 0) 5).lane .a 0).qualCw ∧ (((sLane lsFAILED 6 lane0).wr .a (LNE.FEC_CODEWORDS.COUNT 0) 5).rd .a (LNE.FEC_CORRECTED_SYMBOLS.COUNT 0) - (((sLane lsFAILED 6 lane0).wr .a (LNE.FEC_CODEWORDS.COUNT 0) 5).lane .a 0).qualSym) * 10000 ≤ 544 * (((sLane lsFAILED 6 lane0).wr .a (LNE.FEC_CODEWORDS.COUNT 0) 5).rd .a (LNE.FEC_CODEWORDS.COUNT 0) - (((sLane lsFAILED 6 lane0).wr .a (LNE.FEC_CODEWORDS.COUNT 0) 5).lane .a 0).qualCw) ∧ ((sLane lsFAILED 6 lane0).wr .a (LNE.FEC_CODEWORDS.COUNT 0) 5).rd .a (LNE.FEC_UNCORRECTABLE.COUNT 0) - (((sLane lsFAILED 6 lane0).wr .a (LNE.FEC_CODEWORDS.COUNT 0) 5).lane .a 0).qualUnc = 0)) ∧
    ((sLane lsFAILED 6 lane0).laneSt .a 0 = 6 ∧ ((sLane lsFAILED 6 lane0).lane .a 0).passed = false ∧ ((sLane lsFAILED 6 lane0).lane .a 0).qualAt + us (max 10 ((sLane lsFAILED 6 lane0).rd .a (LNE.QUAL_CFG.WINDOW_US 0))) * (if ((sLane lsFAILED 6 lane0).lane .a 0).qualLong then 10 else 1) ≤ (sLane lsFAILED 6 lane0).now ∧ ¬ (0 < (sLane lsFAILED 6 lane0).rd .a (LNE.FEC_CODEWORDS.COUNT 0) - ((sLane lsFAILED 6 lane0).lane .a 0).qualCw ∧ ((sLane lsFAILED 6 lane0).rd .a (LNE.FEC_CORRECTED_SYMBOLS.COUNT 0) - ((sLane lsFAILED 6 lane0).lane .a 0).qualSym) * 10000 ≤ 544 * ((sLane lsFAILED 6 lane0).rd .a (LNE.FEC_CODEWORDS.COUNT 0) - ((sLane lsFAILED 6 lane0).lane .a 0).qualCw) ∧ (sLane lsFAILED 6 lane0).rd .a (LNE.FEC_UNCORRECTABLE.COUNT 0) - ((sLane lsFAILED 6 lane0).lane .a 0).qualUnc = 0) ∧ ((sLane lsFAILED 6 lane0).lane .a 0).qualLong = false) ∧
    ((sLane lsFAILED 6 { lane0 with qualLong := true, full := false }).laneSt .a 0 = 6 ∧ ((sLane lsFAILED 6 { lane0 with qualLong := true, full := false }).lane .a 0).passed = false ∧ ((sLane lsFAILED 6 { lane0 with qualLong := true, full := false }).lane .a 0).qualAt + us (max 10 ((sLane lsFAILED 6 { lane0 with qualLong := true, full := false }).rd .a (LNE.QUAL_CFG.WINDOW_US 0))) * (if ((sLane lsFAILED 6 { lane0 with qualLong := true, full := false }).lane .a 0).qualLong then 10 else 1) ≤ (sLane lsFAILED 6 { lane0 with qualLong := true, full := false }).now ∧ ¬ (0 < (sLane lsFAILED 6 { lane0 with qualLong := true, full := false }).rd .a (LNE.FEC_CODEWORDS.COUNT 0) - ((sLane lsFAILED 6 { lane0 with qualLong := true, full := false }).lane .a 0).qualCw ∧ ((sLane lsFAILED 6 { lane0 with qualLong := true, full := false }).rd .a (LNE.FEC_CORRECTED_SYMBOLS.COUNT 0) - ((sLane lsFAILED 6 { lane0 with qualLong := true, full := false }).lane .a 0).qualSym) * 10000 ≤ 544 * ((sLane lsFAILED 6 { lane0 with qualLong := true, full := false }).rd .a (LNE.FEC_CODEWORDS.COUNT 0) - ((sLane lsFAILED 6 { lane0 with qualLong := true, full := false }).lane .a 0).qualCw) ∧ (sLane lsFAILED 6 { lane0 with qualLong := true, full := false }).rd .a (LNE.FEC_UNCORRECTABLE.COUNT 0) - ((sLane lsFAILED 6 { lane0 with qualLong := true, full := false }).lane .a 0).qualUnc = 0) ∧ ((sLane lsFAILED 6 { lane0 with qualLong := true, full := false }).lane .a 0).qualLong = true ∧ ((sLane lsFAILED 6 { lane0 with qualLong := true, full := false }).lane .a 0).full = false) ∧
    ((sLane lsFAILED 6 { lane0 with qualLong := true, full := true }).laneSt .a 0 = 6 ∧ ((sLane lsFAILED 6 { lane0 with qualLong := true, full := true }).lane .a 0).passed = false ∧ ((sLane lsFAILED 6 { lane0 with qualLong := true, full := true }).lane .a 0).qualAt + us (max 10 ((sLane lsFAILED 6 { lane0 with qualLong := true, full := true }).rd .a (LNE.QUAL_CFG.WINDOW_US 0))) * (if ((sLane lsFAILED 6 { lane0 with qualLong := true, full := true }).lane .a 0).qualLong then 10 else 1) ≤ (sLane lsFAILED 6 { lane0 with qualLong := true, full := true }).now ∧ ¬ (0 < (sLane lsFAILED 6 { lane0 with qualLong := true, full := true }).rd .a (LNE.FEC_CODEWORDS.COUNT 0) - ((sLane lsFAILED 6 { lane0 with qualLong := true, full := true }).lane .a 0).qualCw ∧ ((sLane lsFAILED 6 { lane0 with qualLong := true, full := true }).rd .a (LNE.FEC_CORRECTED_SYMBOLS.COUNT 0) - ((sLane lsFAILED 6 { lane0 with qualLong := true, full := true }).lane .a 0).qualSym) * 10000 ≤ 544 * ((sLane lsFAILED 6 { lane0 with qualLong := true, full := true }).rd .a (LNE.FEC_CODEWORDS.COUNT 0) - ((sLane lsFAILED 6 { lane0 with qualLong := true, full := true }).lane .a 0).qualCw) ∧ (sLane lsFAILED 6 { lane0 with qualLong := true, full := true }).rd .a (LNE.FEC_UNCORRECTABLE.COUNT 0) - ((sLane lsFAILED 6 { lane0 with qualLong := true, full := true }).lane .a 0).qualUnc = 0) ∧ ((sLane lsFAILED 6 { lane0 with qualLong := true, full := true }).lane .a 0).qualLong = true ∧ ((sLane lsFAILED 6 { lane0 with qualLong := true, full := true }).lane .a 0).full = true) ∧
    ((sLane lsFAILED 4 lane0).laneCodes .a (0 : Fin 64).val = false) ∧
    ((sLane lsFAILED 7 lane0).laneCodes .a (0 : Fin 64).val = true ∧ (sLane lsFAILED 7 lane0).precodes .a 0 = false ∧ ((sLane lsFAILED 7 lane0).lane .a 0).line.period = none ∧ rsDecode (lvWord lv16) = none ∧ symbolsNat ((lvWord lv16).take 514) % 2 ^ 64 ≠ 0x5A3C96E10F87C32D) ∧
    ((sLane lsFAILED 6 lane0).laneCodes .a (0 : Fin 64).val = true ∧ (sLane lsFAILED 6 lane0).precodes .a 0 = false ∧ ((sLane lsFAILED 6 lane0).lane .a 0).line.period = none ∧ rsDecode (lvWord lv0) = some (List.replicate 544 0, 0) ∧ symbolsNat ((List.replicate 544 0).take 514) % 2 ^ 64 ≠ 0x5A3C96E10F87C32D) ∧
    ((sLane lsFAILED 5 lane0).laneCodes .a (0 : Fin 64).val = true ∧ (sLane lsFAILED 5 lane0).precodes .a 0 = false ∧ ((sLane lsFAILED 5 lane0).lane .a 0).line.period = none ∧ rsDecode (lvWord lv1) = some (List.replicate 544 0, 1) ∧ symbolsNat ((List.replicate 544 0).take 514) % 2 ^ 64 ≠ 0x5A3C96E10F87C32D) ∧
    (sOneLane.laneCodes .a (0 : Fin 64).val = true ∧ sOneLane.precodes .a 0 = false ∧ (sOneLane.lane .a 0).line.period.isSome = true ∧ (sOneLane.lane .a 0).line.words = 8192 ∧ rsDecode (lvWord lv0) = some (List.replicate 544 0, 0) ∧ symbolsNat ((List.replicate 544 0).take 514) % 2 ^ 64 ≠ 0x5A3C96E10F87C32D ∧ sOneLane.codeLanes .a (sOneLane.lanePort (0 : Fin 64).val) = [0] ∧ (sOneLane.lane .a 0).stepAt + 2000 ≤ sOneLane.now) ∧
    (((sLane lsFAILED 7 lane0).wr .a (LNE.ADAPT_CFG.CONTINUOUS 0) 1).laneSt .a 0 = 7 ∧ ((sLane lsFAILED 7 lane0).wr .a (LNE.ADAPT_CFG.CONTINUOUS 0) 1).on .a (LNE.ADAPT_CFG.CONTINUOUS 0) = true ∧ (((sLane lsFAILED 7 lane0).wr .a (LNE.ADAPT_CFG.CONTINUOUS 0) 1).lane .a 0).adaptAt + 65536 * 10 * rateDiv (((sLane lsFAILED 7 lane0).wr .a (LNE.ADAPT_CFG.CONTINUOUS 0) 1).rd .a (LNE.LNE_STATE.RATE 0)) / 2371 ≤ ((sLane lsFAILED 7 lane0).wr .a (LNE.ADAPT_CFG.CONTINUOUS 0) 1).now) ∧
    ((sLane lsFAILED 5 lane0).laneSt .a 0 = 5) ∧
    ((sLane lsFAILED 6 lane0).laneSt .a 0 = 6) ∧
    ((sLane lsACTIVE 7 lane0).laneSt .a 0 = 7 ∧ (sLane lsACTIVE 7 lane0).linkSt .a ((sLane lsACTIVE 7 lane0).lanePort 0) = lsACTIVE) ∧
    ((sLane lsFAILED 7 lane0).warden pf) ∧
    (((1 : Fin 4).val = 1 ∨ (1 : Fin 4).val = 2) ∧ (2 ≤ (sLane lsFAILED 7 lane0).laneSt .a 0 ∧ (sLane lsFAILED 7 lane0).laneSt .a 0 ≤ 10) ∧ (sLane lsFAILED 7 lane0).linkSt .a ((sLane lsFAILED 7 lane0).lanePort 0) = lsFAILED) ∧
    (((2 : Fin 4).val = 1 ∨ (2 : Fin 4).val = 2) ∧ (2 ≤ (sLane lsFAILED 7 lane0).laneSt .a 0 ∧ (sLane lsFAILED 7 lane0).laneSt .a 0 ≤ 10) ∧ (sLane lsFAILED 7 lane0).linkSt .a ((sLane lsFAILED 7 lane0).lanePort 0) = lsFAILED) ∧
    ((bitOf (0xF : W64).toNat 0 = true ∧ (sLane lsACTIVE 7 lane0).on .a (LNE.PRBS_CTRL.REQ 0) = false) ∧ (sLane lsACTIVE 7 lane0).prbsAllowed .a 0 = false) ∧
    ((bitOf (0xF : W64).toNat 0 = true ∧ (sLane lsFAILED 7 lane0).on .a (LNE.PRBS_CTRL.REQ 0) = false) ∧ (sLane lsFAILED 7 lane0).prbsAllowed .a 0 = true) ∧
    ((sLane lsFAILED 10 { lane0 with back := 7 }).laneSt .a 0 = 10 ∧ (sLane lsFAILED 10 { lane0 with back := 7 }).prbsAcked .a 0 = false ∧ ((sLane lsFAILED 10 { lane0 with back := 7 }).lane .a 0).stepAt + 1000000 ≤ (sLane lsFAILED 10 { lane0 with back := 7 }).now ∧ ((sLane lsFAILED 10 { lane0 with back := 7 }).lane .a 0).back < 16) ∧
    ((sLane lsFAILED 10 { lane0 with partner := some { lane0.tx with phase := 6, prbsAck := true } }).laneSt .a 0 = 10 ∧ (sLane lsFAILED 10 { lane0 with partner := some { lane0.tx with phase := 6, prbsAck := true } }).prbsAcked .a 0 = true ∧ (sLane lsFAILED 10 { lane0 with partner := some { lane0.tx with phase := 6, prbsAck := true } }).on .a (LNE.PRBS_STATUS.LOCKED 0) = false) ∧
    (((sLane lsFAILED 10 lane0).wr .a (LNE.PRBS_STATUS.LOCKED 0) 1).on .a (LNE.PRBS_STATUS.LOCKED 0) = true) ∧
    ((sLane lsFAILED 0 lane0).laneSt .a (0 : Fin 64).val = 0) ∧
    ((sLane lsFAILED 1 lane0).laneSt .a (0 : Fin 64).val = 1) ∧
    ((sLane lsFAILED 11 lane0).laneSt .a (0 : Fin 64).val = 11) ∧
    (frameOk (frame0 129) = true ∧ (sLane lsFAILED 2 lane0).laneSt .a (0 : Fin 64).val = 2 ∧ (parseFrame (frame0 129)).reach = (sLane lsFAILED 2 lane0).rd .a (LNE.LNE_CFG.REACH 0) ∧ (parseFrame (frame0 129)).rate ≠ (sLane lsFAILED 2 lane0).rd .a (LNE.LNE_STATE.RATE 0)) ∧
    (frameOk (frame0 1) = true ∧ (sLane lsFAILED 2 { lane0 with stepAt := 999999000 }).laneSt .a (0 : Fin 64).val = 2 ∧ (parseFrame (frame0 1)).reach = (sLane lsFAILED 2 { lane0 with stepAt := 999999000 }).rd .a (LNE.LNE_CFG.REACH 0) ∧ (parseFrame (frame0 1)).rate = (sLane lsFAILED 2 { lane0 with stepAt := 999999000 }).rd .a (LNE.LNE_STATE.RATE 0) ∧ (sLane lsFAILED 2 { lane0 with stepAt := 999999000 }).now < ((sLane lsFAILED 2 { lane0 with stepAt := 999999000 }).lane .a 0).stepAt + 5000) ∧
    (frameOk (frame0 1027) = true ∧ (sLane lsFAILED 4 { lane0 with rxReady := true }).laneSt .a (0 : Fin 64).val = 4 ∧ ((sLane lsFAILED 4 { lane0 with rxReady := true }).lane .a 0).rxReady = true ∧ (parseFrame (frame0 1027)).rxReady = true ∧ (sLane lsFAILED 4 { lane0 with rxReady := true }).on .a (LNE.PRBS_CTRL.REQ 0) = false) ∧
    (frameOk (frame0 7) = true ∧ (sLane lsFAILED 7 lane0).laneSt .a (0 : Fin 64).val = 7 ∧ (parseFrame (frame0 7)).phase = 7) ∧
    (frameOk (frame0 7) = true ∧ (sLane lsFAILED 8 lane0).laneSt .a (0 : Fin 64).val = 8 ∧ (parseFrame (frame0 7)).phase = 7) ∧
    (frameOk (frame0 1) = true ∧ (sLane lsFAILED 8 lane0).laneSt .a (0 : Fin 64).val = 8 ∧ (parseFrame (frame0 1)).phase ≠ 7 ∧ (sLane lsFAILED 8 lane0).linkSt .a ((sLane lsFAILED 8 lane0).lanePort (0 : Fin 64).val) ≠ lsACTIVE ∧ (sLane lsFAILED 8 lane0).laneUsable .a (0 : Fin 64).val = true) ∧
    (frameOk (frame0 7) = true ∧ (sLane lsFAILED 9 lane0).laneSt .a (0 : Fin 64).val = 9 ∧ (parseFrame (frame0 7)).phase = 7) ∧
    (frameOk (frame0 1) = true ∧ (sLane lsFAILED 9 lane0).laneSt .a (0 : Fin 64).val = 9 ∧ (parseFrame (frame0 1)).phase ≠ 7 ∧ (sLane lsFAILED 9 lane0).linkSt .a ((sLane lsFAILED 9 lane0).lanePort (0 : Fin 64).val) ≠ lsACTIVE ∧ (sLane lsFAILED 9 lane0).laneUsable .a (0 : Fin 64).val = true) ∧
    (tget ((sLane lsFAILED 1 lane0).die .a).pllAt (0 : Fin 16).val = none) ∧
    (¬ (2 ≤ (sLane lsFAILED 7 lane0).laneSt .a 0 ∧ (sLane lsFAILED 7 lane0).laneSt .a 0 ≤ 6 ∧ ((sLane lsFAILED 7 lane0).lane .a 0).stepAt + stepMax ((sLane lsFAILED 7 lane0).laneSt .a 0) < (sLane lsFAILED 7 lane0).now)) ∧
    ((sLane lsFAILED 7 lane0).laneSt .a 0 ≠ 6) ∧
    ((sLane lsFAILED 4 lane0).laneSt .a 0 ≠ 7) ∧
    ((sLane lsFAILED 7 lane0).laneSt .a 0 = 7 ∧ (sLane lsFAILED 7 lane0).linkSt .a ((sLane lsFAILED 7 lane0).lanePort 0) ≠ lsACTIVE) ∧
    ((sLane lsFAILED 4 lane0).laneSt .a 0 < 5) ∧
    ((sLane lsFAILED 7 lane0).barUp (.fn f1) = true ∧ (sLane lsFAILED 7 lane0).privileged (.fn f1) = false) ∧
    (((sLane lsACTIVE 7 lane0).wr .a (HDR.STATUS.ENABLED (lluBase 0)) 1).warden pf ∧ ¬ (((sLane lsACTIVE 7 lane0).wr .a (HDR.STATUS.ENABLED (lluBase 0)) 1).linkSt .a (((sLane lsACTIVE 7 lane0).wr .a (HDR.STATUS.ENABLED (lluBase 0)) 1).lanePort 0) = lsDISABLED ∨ ((sLane lsACTIVE 7 lane0).wr .a (HDR.STATUS.ENABLED (lluBase 0)) 1).linkSt .a (((sLane lsACTIVE 7 lane0).wr .a (HDR.STATUS.ENABLED (lluBase 0)) 1).lanePort 0) = lsFAILED ∨ ((sLane lsACTIVE 7 lane0).wr .a (HDR.STATUS.ENABLED (lluBase 0)) 1).on .a (HDR.STATUS.ENABLED (lluBase (((sLane lsACTIVE 7 lane0).wr .a (HDR.STATUS.ENABLED (lluBase 0)) 1).lanePort 0))) = false)) ∧
    ((sLane lsFAILED 1 lane0).warden pf ∧ ((sLane lsFAILED 1 lane0).linkSt .a ((sLane lsFAILED 1 lane0).lanePort 0) = lsDISABLED ∨ (sLane lsFAILED 1 lane0).linkSt .a ((sLane lsFAILED 1 lane0).lanePort 0) = lsFAILED ∨ (sLane lsFAILED 1 lane0).on .a (HDR.STATUS.ENABLED (lluBase ((sLane lsFAILED 1 lane0).lanePort 0))) = false) ∧ (sLane lsFAILED 1 lane0).laneSt .a 0 = 1) ∧
    ((sLane lsFAILED 7 lane0).laneSt .a 0 ≠ 8 ∧ (sLane lsFAILED 7 lane0).laneSt .a 0 ≠ 9) ∧
    ((sLane lsFAILED 9 lane0).laneSt .a 0 = 9 ∧ (sLane lsFAILED 9 lane0).linkSt .a ((sLane lsFAILED 9 lane0).lanePort 0) ≠ lsACTIVE ∧ (sLane lsFAILED 9 lane0).laneUsable .a 0 = true) ∧
    (bitOf (0x14 : W64).toNat 0 = (sLane lsFAILED 7 lane0).on .a (LNE.PRBS_CTRL.REQ 0)) ∧
    (bitOf (0 : W64).toNat 0 = false ∧ ((sLane lsFAILED 10 lane0).wr .a (LNE.PRBS_CTRL.REQ 0) 1).on .a (LNE.PRBS_CTRL.REQ 0) = true ∧ ((sLane lsFAILED 10 lane0).wr .a (LNE.PRBS_CTRL.REQ 0) 1).prbsAllowed .a 0 = true) ∧
    ((sLane lsFAILED 7 lane0).laneSt .a 0 ≠ 10 ∧ (sLane lsFAILED 7 lane0).on .a (LNE.PRBS_STATUS.LOCKED 0) = false) := by
  refine ⟨?_, ?_, ?_, ?_, ?_, ?_, ?_, ?_, ?_, ?_, ?_, ?_, (⟨by decide +kernel, by decide +kernel, by decide +kernel, lv_decode.2.2, by decide +kernel⟩), (⟨by decide +kernel, by decide +kernel, by decide +kernel, lv_decode.1, by decide +kernel⟩), (⟨by decide +kernel, by decide +kernel, by decide +kernel, lv_decode.2.1, by decide +kernel⟩), (⟨by decide +kernel, by decide +kernel, by decide +kernel, by decide +kernel, lv_decode.1, by decide +kernel, by decide +kernel, by decide +kernel⟩), ?_, ?_, ?_, ?_, ?_, ?_, ?_, ?_, ?_, ?_, ?_, ?_, ?_, ?_, ?_, ?_, ?_, ?_, ?_, ?_, ?_, ?_, ?_, ?_, ?_, ?_, ?_, ?_, ?_, ?_, ?_, ?_, ?_, ?_, ?_, ?_, ?_⟩
  all_goals repeat' apply And.intro
  all_goals decide +kernel

/-- The fault manager runs, and its own state is changed. -/
def sFm (f : FaultMgr → FaultMgr) : State := ((sLink lsACTIVE lluA).wr .a FM.FM_STATE.RUNNING 1).modFm f
/-- FM_ARG names an index of a class on die A. -/
def sFmArg (cls idx : Nat) (f : FaultMgr → FaultMgr) : State := (sFm f).wrs .a [(FM.FM_ARG.CLASS, cls), (FM.FM_ARG.INDEX, idx)]
def ret0 (cls idx : Nat) : RetRec := ⟨1, 0, cls, false, 1, 0, idx, 0⟩
def ev0 : EvRec := ⟨1, 0, 2, 8, 0, false, 5, 1, 0, 0, 0, 0⟩

theorem test_FaultManager_meets :
    ((sFm (fun m => { m with missed := ⟨3, 0⟩ })).inv ∧ ((sFm (fun m => { m with missed := ⟨3, 0⟩ })).rd .a FM.FM_STATE.RUNNING = 1 ∧ (sFm (fun m => { m with missed := ⟨3, 0⟩ })).dieLost .a = false ∧ (sFm (fun m => { m with missed := ⟨3, 0⟩ })).fm.beatAt.get .a ≤ (sFm (fun m => { m with missed := ⟨3, 0⟩ })).now)) ∧
    (((sFm (fun m => { m with missed := ⟨8, 0⟩ })).rd .a FM.FM_STATE.RUNNING = 1 ∧ (sFm (fun m => { m with missed := ⟨8, 0⟩ })).dieLost .a = false ∧ (sFm (fun m => { m with missed := ⟨8, 0⟩ })).fm.beatAt.get .a ≤ (sFm (fun m => { m with missed := ⟨8, 0⟩ })).now) ∧ (sFm (fun m => { m with missed := ⟨8, 0⟩ })).fm.missed.get .a < 9) ∧
    (((sFm (fun m => { m with missed := ⟨9, 0⟩ })).rd .a FM.FM_STATE.RUNNING = 1 ∧ (sFm (fun m => { m with missed := ⟨9, 0⟩ })).dieLost .a = false ∧ (sFm (fun m => { m with missed := ⟨9, 0⟩ })).fm.beatAt.get .a ≤ (sFm (fun m => { m with missed := ⟨9, 0⟩ })).now) ∧ (sFm (fun m => { m with missed := ⟨9, 0⟩ })).fm.missed.get .a = 9) ∧
    (s0.rd .a FM.FM_STATE.RUNNING ≠ 1) ∧
    (((sFm (fun m => { m with seen := [(faultKey 6 0 (3 * 2 ^ 24 + 9), List.replicate 2 999)] })).observe (faultKey 6 (Die.a).num ((3 : BitVec 8).toNat * 2 ^ 24 + (9 : BitVec 24).toNat)) 1 (1 * hourNs) 4).2 < 4) ∧
    (((sFm (fun m => { m with seen := [(faultKey 6 0 (3 * 2 ^ 24 + 9), List.replicate 3 999)] })).observe (faultKey 6 (Die.a).num ((3 : BitVec 8).toNat * 2 ^ 24 + (9 : BitVec 24).toNat)) 1 (1 * hourNs) 4).2 = 4 ∧ (sFm (fun m => { m with seen := [(faultKey 6 0 (3 * 2 ^ 24 + 9), List.replicate 3 999)] })).retired 8 .a (3 * 2 ^ 24 + 9) = false ∧ (sFm (fun m => { m with seen := [(faultKey 6 0 (3 * 2 ^ 24 + 9), List.replicate 3 999)] })).rowsOut .a 3 < spareRows .none ∧ (sFm (fun m => { m with seen := [(faultKey 6 0 (3 * 2 ^ 24 + 9), List.replicate 3 999)] })).freeRet.isSome = true) ∧
    (((sFm (fun m => { m with seen := [(faultKey 7 0 (3 * 2 ^ 24 + 9), List.replicate 0 999)] })).observe (faultKey 7 (Die.a).num ((3 : BitVec 8).toNat * 2 ^ 24 + (9 : BitVec 24).toNat)) 1 (24 * hourNs) 2).2 < 2) ∧
    (((sFm (fun m => { m with seen := [(faultKey 7 0 (3 * 2 ^ 24 + 9), List.replicate 1 999)] })).observe (faultKey 7 (Die.a).num ((3 : BitVec 8).toNat * 2 ^ 24 + (9 : BitVec 24).toNat)) 1 (24 * hourNs) 2).2 = 2 ∧ (sFm (fun m => { m with seen := [(faultKey 7 0 (3 * 2 ^ 24 + 9), List.replicate 1 999)] })).retired 8 .a (3 * 2 ^ 24 + 9) = false ∧ (sFm (fun m => { m with seen := [(faultKey 7 0 (3 * 2 ^ 24 + 9), List.replicate 1 999)] })).rowsOut .a 3 < spareRows .none ∧ (sFm (fun m => { m with seen := [(faultKey 7 0 (3 * 2 ^ 24 + 9), List.replicate 1 999)] })).freeRet.isSome = true) ∧
    (3 ≤ ((sFm (fun m => { m with seen := [(faultKey 8 0 5, List.replicate 3 999)] })).observe (faultKey 8 0 (5 : Fin 128).val) 0 hourNs 3).2 ∧ bitOf (sFm (fun m => { m with seen := [(faultKey 8 0 5, List.replicate 3 999)] })).unitEnabled ((5 : Fin 128).val / 8) = true ∧ (sFm (fun m => { m with seen := [(faultKey 8 0 5, List.replicate 3 999)] })).dieLost .a = false ∧ (sFm (fun m => { m with seen := [(faultKey 8 0 5, List.replicate 3 999)] })).retired 5 .a 5 = false ∧ (sFm (fun m => { m with seen := [(faultKey 8 0 5, List.replicate 3 999)] })).freeRet.isSome = true ∧ 6 ∈ (sFm (fun m => { m with seen := [(faultKey 8 0 5, List.replicate 3 999)] })).enginesLeft .a) ∧
    ((sFm id).stackPresent .a (hbmStack (77 : BitVec 32).toNat) = true ∧ (sFm id).retired 9 .a (77 : BitVec 32).toNat = false ∧ ((sFm id).retiredOf 9 .a).length < 4096 ∧ (sFm id).freeRet.isSome = true) ∧
    (3 ≤ (((sFm id).modLane .a 0 (fun l => { l with qualFails := 3 })).lane .a (0 : Fin 64).val).qualFails) ∧
    ((((sFm id).setLlu .a 0 { lluA with ran := true } |>.wr .a (LLU.LINK_STATE.STATE 0) lsTRAINING).llu .a (0 : Fin 64).val).ran = true ∧ ((sFm id).setLlu .a 0 { lluA with ran := true } |>.wr .a (LLU.LINK_STATE.STATE 0) lsTRAINING).linkSt .a (0 : Fin 64).val = lsTRAINING ∧ (((sFm id).setLlu .a 0 { lluA with ran := true } |>.wr .a (LLU.LINK_STATE.STATE 0) lsTRAINING).llu .a (0 : Fin 64).val).downAt + 500000000 ≤ ((sFm id).setLlu .a 0 { lluA with ran := true } |>.wr .a (LLU.LINK_STATE.STATE 0) lsTRAINING).now) ∧
    (((sMods { bmod0 with live := false, training := true } { bmod0 with live := false, training := true }).bmod .a (3 : Fin 16).val).training = true ∧ ((sMods { bmod0 with live := false, training := true } { bmod0 with live := false, training := true }).bmod .a (3 : Fin 16).val).trainAt + 1000000 ≤ (sMods { bmod0 with live := false, training := true } { bmod0 with live := false, training := true }).now) ∧
    ((((sFm id).modDie .a (fun x => { x with noc := { x.noc with links := [(63 + 64 * 3, ⟨[], [], 8⟩)] } })).nocLink .a ((63 : Fin 64).val + 64 * (3 : Fin 4).val)).fails < 9) ∧
    (9 ≤ (((sFm id).modDie .a (fun x => { x with noc := { x.noc with links := [(63 + 64 * 3, ⟨[], [], 9⟩)] } })).nocLink .a (63 + 64 * 3)).fails ∧ ((((sFm id).modDie .a (fun x => { x with noc := { x.noc with links := [(63 + 64 * 3, ⟨[], [], 9⟩)] } })).retiredOf 4 .a).filter (fun i => i % 256 == 63 + 64 * 3)).length < 4 ∧ ((sFm id).modDie .a (fun x => { x with noc := { x.noc with links := [(63 + 64 * 3, ⟨[], [], 9⟩)] } })).freeRet.isSome = true) ∧
    ((sFm (fun m => { m with seen := [(faultKey 10 0 0, [999])] })).qduPresent .a = true ∧ 2 ≤ ((sFm (fun m => { m with seen := [(faultKey 10 0 0, [999])] })).observe (faultKey 10 (Die.a).num 0) 1 (24 * hourNs) 2).2) ∧
    (((sHead sVer (inPkt0 0)).swc .a).inList (2048 : Fin 2560).val = inPkt0 0 :: []) ∧
    (((sStaged).swc .a).staged (((sStaged).portKey 0 0 : Nat)) = ounit0 :: []) ∧
    ((sFm id).qduPresent .a = true) ∧
    ((sFm id).fm.suppressed = 0) ∧
    ({ s0 with part := .e }.qduPresent .a = false) ∧
    ((sFm id).hpPresent (1 : Fin 4).val = true ∧ ((sFm id).hp 1).lost = false) ∧
    ((sFm (fun m => { m with suppressed := 7 })).fm.suppressed ≠ 0 ∧ (sFm (fun m => { m with suppressed := 7 })).fm.secAt + 1000000000 ≤ (sFm (fun m => { m with suppressed := 7 })).now) ∧
    (bitOf (sFm id).unitEnabled ((127 : Fin 128).val / 8) = true ∧ (sFm id).retired 5 .b (127 : Fin 128).val = false ∧ (sFm id).dieLost .b = false) ∧
    (((sFm id).wr .a FM.FM_STATUS.BUSY 1).barUp pf = true ∧ ((sFm id).wr .a FM.FM_STATUS.BUSY 1).privileged pf = true ∧ ((sFm id).wr .a FM.FM_STATUS.BUSY 1).rd .a FM.FM_STATUS.BUSY = 1) ∧
    ((sFm id).barUp (.fn f1) = true ∧ (sFm id).privileged (.fn f1) = false) ∧
    ((sFmArg 4 139263 id).warden pf ∧ (sFmArg 4 139263 id).rd .a FM.FM_STATUS.BUSY = 0 ∧ (((sFmArg 4 139263 id).rd .a FM.FM_ARG.CLASS) = 4 ∨ ((sFmArg 4 139263 id).rd .a FM.FM_ARG.CLASS) = 7) ∧ (sFmArg 4 139263 id).fmResource ((sFmArg 4 139263 id).rd .a FM.FM_ARG.CLASS) (sFmArg 4 139263 id).fmDie ((sFmArg 4 139263 id).rd .a FM.FM_ARG.INDEX) = true ∧ (((sFmArg 4 139263 id).retiredOf 4 (sFmArg 4 139263 id).fmDie).filter (fun i => i % 256 == (sFmArg 4 139263 id).rd .a FM.FM_ARG.INDEX % 256)).length < 4 ∧ (sFmArg 4 139263 id).retired 4 (sFmArg 4 139263 id).fmDie 139263 = false ∧ (sFmArg 4 139263 id).freeRet.isSome = true) ∧
    ((sFmArg 7 47 id).warden pf ∧ (sFmArg 7 47 id).rd .a FM.FM_STATUS.BUSY = 0 ∧ (((sFmArg 7 47 id).rd .a FM.FM_ARG.CLASS) = 4 ∨ ((sFmArg 7 47 id).rd .a FM.FM_ARG.CLASS) = 7) ∧ (sFmArg 7 47 id).fmResource ((sFmArg 7 47 id).rd .a FM.FM_ARG.CLASS) (sFmArg 7 47 id).fmDie ((sFmArg 7 47 id).rd .a FM.FM_ARG.INDEX) = true ∧ (((sFmArg 7 47 id).retiredOf 4 (sFmArg 7 47 id).fmDie).filter (fun i => i % 256 == (sFmArg 7 47 id).rd .a FM.FM_ARG.INDEX % 256)).length < 4 ∧ (sFmArg 7 47 id).retired 7 (sFmArg 7 47 id).fmDie 47 = false ∧ (sFmArg 7 47 id).freeRet.isSome = true) ∧
    ((sFmArg 7 48 id).warden pf ∧ (sFmArg 7 48 id).rd .a FM.FM_STATUS.BUSY = 0 ∧ (sFmArg 7 48 id).fmResource ((sFmArg 7 48 id).rd .a FM.FM_ARG.CLASS) (sFmArg 7 48 id).fmDie ((sFmArg 7 48 id).rd .a FM.FM_ARG.INDEX) = false) ∧
    ((sFmArg 7 3 (fun m => { m with table := [(2, ret0 7 3)] })).warden pf ∧ (sFmArg 7 3 (fun m => { m with table := [(2, ret0 7 3)] })).rd .a FM.FM_STATUS.BUSY = 0 ∧ (sFmArg 7 3 (fun m => { m with table := [(2, ret0 7 3)] })).fmResource ((sFmArg 7 3 (fun m => { m with table := [(2, ret0 7 3)] })).rd .a FM.FM_ARG.CLASS) (sFmArg 7 3 (fun m => { m with table := [(2, ret0 7 3)] })).fmDie ((sFmArg 7 3 (fun m => { m with table := [(2, ret0 7 3)] })).rd .a FM.FM_ARG.INDEX) = true ∧ (sFmArg 7 3 (fun m => { m with table := [(2, ret0 7 3)] })).retired 7 (recDie 7 (sFmArg 7 3 (fun m => { m with table := [(2, ret0 7 3)] })).fmDie) 3 = true) ∧
    ((sFmArg 7 3 (fun m => { m with table := [(2, ret0 7 3)] })).warden pf ∧ (sFmArg 7 3 (fun m => { m with table := [(2, ret0 7 3)] })).rd .a FM.FM_STATUS.BUSY = 0 ∧ (sFmArg 7 3 (fun m => { m with table := [(2, ret0 7 3)] })).retiredRec 7 (recDie 7 (sFmArg 7 3 (fun m => { m with table := [(2, ret0 7 3)] })).fmDie) 3 = some (2, ret0 7 3)) ∧
    ((sFmArg 7 3 id).warden pf ∧ (sFmArg 7 3 id).rd .a FM.FM_STATUS.BUSY = 0 ∧ (sFmArg 7 3 id).fmResource ((sFmArg 7 3 id).rd .a FM.FM_ARG.CLASS) (sFmArg 7 3 id).fmDie ((sFmArg 7 3 id).rd .a FM.FM_ARG.INDEX) = true ∧ (sFmArg 7 3 id).retiredRec 7 (recDie 7 (sFmArg 7 3 id).fmDie) 3 = none) ∧
    ((sFmArg 0 211967 (fun m => { m with ring := [(211967, ev0)] })).warden pf ∧ (sFmArg 0 211967 (fun m => { m with ring := [(211967, ev0)] })).rd .a FM.FM_STATUS.BUSY = 0 ∧ ((sFmArg 0 211967 (fun m => { m with ring := [(211967, ev0)] })).rd .a FM.FM_ARG.CLASS) = 0 ∧ (sFmArg 0 211967 (fun m => { m with ring := [(211967, ev0)] })).rd .a FM.FM_ARG.INDEX < 211968 ∧ tget (sFmArg 0 211967 (fun m => { m with ring := [(211967, ev0)] })).fm.ring ((sFmArg 0 211967 (fun m => { m with ring := [(211967, ev0)] })).rd .a FM.FM_ARG.INDEX) = some ev0) ∧
    ((sFmArg 1 2 (fun m => { m with table := [(2, ret0 7 3)] })).warden pf ∧ (sFmArg 1 2 (fun m => { m with table := [(2, ret0 7 3)] })).rd .a FM.FM_STATUS.BUSY = 0 ∧ ((sFmArg 1 2 (fun m => { m with table := [(2, ret0 7 3)] })).rd .a FM.FM_ARG.CLASS) = 1 ∧ (sFmArg 1 2 (fun m => { m with table := [(2, ret0 7 3)] })).rd .a FM.FM_ARG.INDEX < 16384 ∧ tget (sFmArg 1 2 (fun m => { m with table := [(2, ret0 7 3)] })).fm.table ((sFmArg 1 2 (fun m => { m with table := [(2, ret0 7 3)] })).rd .a FM.FM_ARG.INDEX) = some (ret0 7 3)) ∧
    ((sFmArg 0 3 id).warden pf ∧ (sFmArg 0 3 id).rd .a FM.FM_STATUS.BUSY = 0 ∧ ((sFmArg 0 3 id).rd .a FM.FM_ARG.CLASS) = 0 ∧ (sFmArg 0 3 id).rd .a FM.FM_ARG.INDEX < 211968 ∧ tget (sFmArg 0 3 id).fm.ring ((sFmArg 0 3 id).rd .a FM.FM_ARG.INDEX) = none) ∧
    ((sFmArg 0 127 id).warden pf ∧ (sFmArg 0 127 id).rd .a FM.FM_STATUS.BUSY = 0 ∧ (sFmArg 0 127 id).rd .a FM.FM_ARG.INDEX < 128) ∧
    ((sFmArg 0 128 id).warden pf ∧ (sFmArg 0 128 id).rd .a FM.FM_STATUS.BUSY = 0 ∧ 128 ≤ (sFmArg 0 128 id).rd .a FM.FM_ARG.INDEX) ∧
    ((sFmArg 0 64 id).warden pf ∧ (sFmArg 0 64 id).rd .a FM.FM_STATUS.BUSY = 0 ∧ 64 ≤ ((sFmArg 0 64 id).rd .a FM.FM_ARG.INDEX)) ∧
    (((sFmArg 0 63 id).wr .b (PWC.DOM_STATE.LOCK_REASON 31) 3).warden pf ∧ ((sFmArg 0 63 id).wr .b (PWC.DOM_STATE.LOCK_REASON 31) 3).rd .a FM.FM_STATUS.BUSY = 0 ∧ (((sFmArg 0 63 id).wr .b (PWC.DOM_STATE.LOCK_REASON 31) 3).rd .b (PWC.DOM_STATE.LOCK_REASON ((((sFmArg 0 63 id).wr .b (PWC.DOM_STATE.LOCK_REASON 31) 3).rd .a FM.FM_ARG.INDEX) % 32))) = 3) ∧
    (((sFmArg 0 63 id).wrs .b [(PWC.DOM_STATE.LOCKED_OFF 31, 1), (PWC.DOM_STATE.LOCK_REASON 31, 1)]).warden pf ∧ ((sFmArg 0 63 id).wrs .b [(PWC.DOM_STATE.LOCKED_OFF 31, 1), (PWC.DOM_STATE.LOCK_REASON 31, 1)]).rd .a FM.FM_STATUS.BUSY = 0 ∧ (((sFmArg 0 63 id).wrs .b [(PWC.DOM_STATE.LOCKED_OFF 31, 1), (PWC.DOM_STATE.LOCK_REASON 31, 1)]).rd .a FM.FM_ARG.INDEX) < 64 ∧ (((sFmArg 0 63 id).wrs .b [(PWC.DOM_STATE.LOCKED_OFF 31, 1), (PWC.DOM_STATE.LOCK_REASON 31, 1)]).rd .b (PWC.DOM_STATE.LOCK_REASON ((((sFmArg 0 63 id).wrs .b [(PWC.DOM_STATE.LOCKED_OFF 31, 1), (PWC.DOM_STATE.LOCK_REASON 31, 1)]).rd .a FM.FM_ARG.INDEX) % 32))) ≠ 3 ∧ ((sFmArg 0 63 id).wrs .b [(PWC.DOM_STATE.LOCKED_OFF 31, 1), (PWC.DOM_STATE.LOCK_REASON 31, 1)]).lockedOff .b ((((sFmArg 0 63 id).wrs .b [(PWC.DOM_STATE.LOCKED_OFF 31, 1), (PWC.DOM_STATE.LOCK_REASON 31, 1)]).rd .a FM.FM_ARG.INDEX) % 32) = true) ∧
    (((sFmArg 0 63 id).wr .b (PWC.DOM_STATE.STATE 31) 0).warden pf ∧ ((sFmArg 0 63 id).wr .b (PWC.DOM_STATE.STATE 31) 0).rd .a FM.FM_STATUS.BUSY = 0 ∧ (((sFmArg 0 63 id).wr .b (PWC.DOM_STATE.STATE 31) 0).rd .a FM.FM_ARG.INDEX) < 64 ∧ (((sFmArg 0 63 id).wr .b (PWC.DOM_STATE.STATE 31) 0).rd .b (PWC.DOM_STATE.LOCK_REASON ((((sFmArg 0 63 id).wr .b (PWC.DOM_STATE.STATE 31) 0).rd .a FM.FM_ARG.INDEX) % 32))) ≠ 3 ∧ ((sFmArg 0 63 id).wr .b (PWC.DOM_STATE.STATE 31) 0).lockedOff .b ((((sFmArg 0 63 id).wr .b (PWC.DOM_STATE.STATE 31) 0).rd .a FM.FM_ARG.INDEX) % 32) = false ∧ ¬ (3 ≤ ((sFmArg 0 63 id).wr .b (PWC.DOM_STATE.STATE 31) 0).domSt .b 31 ∨ (((sFmArg 0 63 id).wr .b (PWC.DOM_STATE.STATE 31) 0).dom .b 31).acked = true)) ∧
    (((sFmArg 0 63 id).wr .b (PWC.DOM_STATE.STATE 31) 3).warden pf ∧ ((sFmArg 0 63 id).wr .b (PWC.DOM_STATE.STATE 31) 3).rd .a FM.FM_STATUS.BUSY = 0 ∧ (((sFmArg 0 63 id).wr .b (PWC.DOM_STATE.STATE 31) 3).rd .a FM.FM_ARG.INDEX) < 64 ∧ (((sFmArg 0 63 id).wr .b (PWC.DOM_STATE.STATE 31) 3).rd .b (PWC.DOM_STATE.LOCK_REASON ((((sFmArg 0 63 id).wr .b (PWC.DOM_STATE.STATE 31) 3).rd .a FM.FM_ARG.INDEX) % 32))) ≠ 3 ∧ ((sFmArg 0 63 id).wr .b (PWC.DOM_STATE.STATE 31) 3).lockedOff .b ((((sFmArg 0 63 id).wr .b (PWC.DOM_STATE.STATE 31) 3).rd .a FM.FM_ARG.INDEX) % 32) = false ∧ 3 ≤ ((sFmArg 0 63 id).wr .b (PWC.DOM_STATE.STATE 31) 3).domSt .b 31) := by
  repeat' apply And.intro
  all_goals decide +kernel

/-- Domain 26 of die A in a state, with MAX_STATE 4 and the power controller on. -/
def sDom (st fencing : Nat) (m : Dom) : State :=
  (sWard.wrs .a [(HDR.CTRL.ENABLE 0x3C00000, 1), (PWC.DOM_CFG.MAX_STATE 26, 4), (PWC.DOM_STATE.STATE 26, st), (PWC.DOM_STATE.FENCING 26, fencing)]).modDom .a 26 (fun _ => m)
def idle0 : Dom := { dom0 with idleAt := some 0 }

def unitIn (cls : Nat) : NocUnit := { data := 0, head := true, tail := true, cls := cls, destStop := 16, destDie := 0, srcStop := 20, srcDie := 0, poison := false }
/-- A fence on domain 26, raised at a time, with a unit held at its stop; raised by DOMAIN_CYCLE. -/
def sFence (at_ : Nat) : State := (sDom 2 1 { idle0 with fenceAt := at_ }).modNoc .a (fun x => { x with hold := [(16, [unitIn 1])] })
def sCyc (at_ : Nat) : State := (sDom 2 1 { idle0 with fenceAt := at_ }).modFm (fun f => { f with cycling := some 26 })

theorem test_PowerDomains_meets :
    ((sDom 0 0 idle0).inv ∧ (sDom 0 0 idle0).descentDue .a (26 : Fin 32).val = true ∧ (sDom 0 0 idle0).domSt .a (26 : Fin 32).val < 2) ∧
    ((sDom 1 0 idle0).inv ∧ (sDom 1 0 idle0).descentDue .a (26 : Fin 32).val = true ∧ (sDom 1 0 idle0).domSt .a (26 : Fin 32).val < 2) ∧
    ((sDom 2 0 idle0).descentDue .a (26 : Fin 32).val = true ∧ 2 ≤ (sDom 2 0 idle0).domSt .a (26 : Fin 32).val) ∧
    ((sDom 3 0 idle0).descentDue .a (26 : Fin 32).val = true ∧ 2 ≤ (sDom 3 0 idle0).domSt .a (26 : Fin 32).val) ∧
    ((sDom 4 0 idle0).descentDue .a (26 : Fin 32).val = false) ∧
    ((sDom 2 1 { idle0 with fenceAt := 999999990 }).draining .a (26 : Fin 32).val = true ∧ (sDom 2 1 { idle0 with fenceAt := 999999990 }).domDrained .a (26 : Fin 32).val = true ∧ ((sDom 2 1 { idle0 with fenceAt := 999999990 }).dom .a 26).fenceAt + 10 ≤ (sDom 2 1 { idle0 with fenceAt := 999999990 }).now ∧ (sDom 2 1 { idle0 with fenceAt := 999999990 }).now ≤ ((sDom 2 1 { idle0 with fenceAt := 999999990 }).dom .a 26).fenceAt + (sDom 2 1 { idle0 with fenceAt := 999999990 }).fenceTimeout .a ∧ (sDom 2 1 { idle0 with fenceAt := 999999990 }).cycled .a (26 : Fin 32).val = false) ∧
    ((sCyc 999999990).draining .a (26 : Fin 32).val = true ∧ (sCyc 999999990).domDrained .a (26 : Fin 32).val = true ∧ ((sCyc 999999990).dom .a 26).fenceAt + 10 ≤ (sCyc 999999990).now ∧ (sCyc 999999990).now ≤ ((sCyc 999999990).dom .a 26).fenceAt + (sCyc 999999990).fenceTimeout .a ∧ (sCyc 999999990).cycled .a (26 : Fin 32).val = true) ∧
    ((sDom 2 1 { idle0 with fenceAt := 999999991 }).now < ((sDom 2 1 { idle0 with fenceAt := 999999991 }).dom .a 26).fenceAt + 10) ∧
    ((sDom 2 1 { idle0 with acked := true }).rd .a (PWC.DOM_STATE.FENCING (26 : Fin 32).val) = 1 ∧ ((sDom 2 1 { idle0 with acked := true }).dom .a 26).acked = true ∧ ((sDom 2 1 { idle0 with acked := true }).dom .a 26).wakeAt = none ∧ (sDom 2 1 { idle0 with acked := true }).domSt .a 26 < 5) ∧
    ((sDom 2 1 { idle0 with acked := true, wakeAt := some 5 }).rd .a (PWC.DOM_STATE.FENCING (26 : Fin 32).val) = 1 ∧ ((sDom 2 1 { idle0 with acked := true, wakeAt := some 5 }).dom .a 26).acked = true ∧ ((sDom 2 1 { idle0 with acked := true, wakeAt := some 5 }).dom .a 26).wakeAt.isSome = true ∧ (sDom 2 1 { idle0 with acked := true, wakeAt := some 5 }).domSt .a 26 < 5 ∧ (sDom 2 1 { idle0 with acked := true, wakeAt := some 5 }).lockedOff .a (26 : Fin 32).val = false) ∧
    ((sDom 3 1 { idle0 with acked := true }).rd .a (PWC.DOM_STATE.FENCING (26 : Fin 32).val) = 1 ∧ ((sDom 3 1 { idle0 with acked := true }).dom .a 26).acked = true ∧ ((sDom 3 1 { idle0 with acked := true }).dom .a 26).wakeAt = none ∧ (sDom 3 1 { idle0 with acked := true }).domSt .a 26 < 5) ∧
    ((sDom 3 1 { idle0 with acked := true, wakeAt := some 5 }).rd .a (PWC.DOM_STATE.FENCING (26 : Fin 32).val) = 1 ∧ ((sDom 3 1 { idle0 with acked := true, wakeAt := some 5 }).dom .a 26).acked = true ∧ ((sDom 3 1 { idle0 with acked := true, wakeAt := some 5 }).dom .a 26).wakeAt.isSome = true ∧ (sDom 3 1 { idle0 with acked := true, wakeAt := some 5 }).domSt .a 26 < 5 ∧ (sDom 3 1 { idle0 with acked := true, wakeAt := some 5 }).lockedOff .a (26 : Fin 32).val = false) ∧
    (((sDom 2 1 idle0).dom .a 26).acked = false) ∧
    ((sFence 0).draining .a (26 : Fin 32).val = true ∧ ((sFence 0).dom .a 26).fenceAt + (sFence 0).fenceTimeout .a < (sFence 0).now ∧ (sFence 0).cycled .a (26 : Fin 32).val = false) ∧
    ((sCyc 0).draining .a (26 : Fin 32).val = true ∧ ((sCyc 0).dom .a 26).fenceAt + (sCyc 0).fenceTimeout .a < (sCyc 0).now ∧ (sCyc 0).cycled .a (26 : Fin 32).val = true) ∧
    ((sFence 999999990).now ≤ ((sFence 999999990).dom .a 26).fenceAt + (sFence 999999990).fenceTimeout .a) ∧
    (((sDom 5 0 idle0).wr .a (PWC.DOM_STATE.LOCKED_OFF 26) 1).lockedOff .a (26 : Fin 32).val = true) ∧
    (domStop 26 = some 16 ∧ (((sDom 5 0 idle0).wr .a (PWC.DOM_STATE.LOCKED_OFF 26) 1).noc .a).links = [] ∧ (1 : Fin 17).val ≠ 0) ∧
    ((sDom 1 0 idle0).lockedOff .a (26 : Fin 32).val = false ∧ (sDom 1 0 idle0).svc.tripped = false ∧ (sDom 1 0 idle0).rd .a (PWC.DOM_STATE.FENCING (26 : Fin 32).val) = 0 ∧ (sDom 1 0 idle0).domSt .a 26 ≠ 0 ∧ ((sDom 1 0 idle0).dom .a 26).wakeAt = none) ∧
    ((sDom 1 0 idle0).lockedOff .a (26 : Fin 32).val = false ∧ (sDom 1 0 idle0).svc.tripped = false ∧ domStop 26 = some 16 ∧ ((sDom 1 0 idle0).noc .a).links = [] ∧ (16 : Fin 17).val ≠ 0 ∧ (sDom 1 0 idle0).rd .a (PWC.DOM_STATE.FENCING (26 : Fin 32).val) = 0 ∧ ((sDom 1 0 idle0).dom .a 26).wakeAt = none ∧ (sDom 1 0 idle0).domSt .a 26 = 1) ∧
    ((sDom 2 0 idle0).lockedOff .a (26 : Fin 32).val = false ∧ (sDom 2 0 idle0).svc.tripped = false ∧ (sDom 2 0 idle0).rd .a (PWC.DOM_STATE.FENCING (26 : Fin 32).val) = 0 ∧ (sDom 2 0 idle0).domSt .a 26 ≠ 0 ∧ ((sDom 2 0 idle0).dom .a 26).wakeAt = none) ∧
    ((sDom 2 0 idle0).lockedOff .a (26 : Fin 32).val = false ∧ (sDom 2 0 idle0).svc.tripped = false ∧ domStop 26 = some 16 ∧ ((sDom 2 0 idle0).noc .a).links = [] ∧ (16 : Fin 17).val ≠ 0 ∧ (sDom 2 0 idle0).rd .a (PWC.DOM_STATE.FENCING (26 : Fin 32).val) = 0 ∧ ((sDom 2 0 idle0).dom .a 26).wakeAt = none ∧ (sDom 2 0 idle0).domSt .a 26 = 2) ∧
    ((sDom 3 0 idle0).lockedOff .a (26 : Fin 32).val = false ∧ (sDom 3 0 idle0).svc.tripped = false ∧ (sDom 3 0 idle0).rd .a (PWC.DOM_STATE.FENCING (26 : Fin 32).val) = 0 ∧ (sDom 3 0 idle0).domSt .a 26 ≠ 0 ∧ ((sDom 3 0 idle0).dom .a 26).wakeAt = none) ∧
    ((sDom 3 0 idle0).lockedOff .a (26 : Fin 32).val = false ∧ (sDom 3 0 idle0).svc.tripped = false ∧ domStop 26 = some 16 ∧ ((sDom 3 0 idle0).noc .a).links = [] ∧ (16 : Fin 17).val ≠ 0 ∧ (sDom 3 0 idle0).rd .a (PWC.DOM_STATE.FENCING (26 : Fin 32).val) = 0 ∧ ((sDom 3 0 idle0).dom .a 26).wakeAt = none ∧ 3 ≤ (sDom 3 0 idle0).domSt .a 26 ∧ (((sDom 3 0 idle0).held .a 16).filter (fun u => u.cls == 1)).length + (16 : Fin 17).val ≤ 16 ∧ (∀ e ∈ ((sDom 3 0 idle0).die .a).evs, e.1 < 16)) ∧
    ((sDom 5 0 idle0).lockedOff .a (26 : Fin 32).val = false ∧ (sDom 5 0 idle0).svc.tripped = false ∧ (sDom 5 0 idle0).rd .a (PWC.DOM_STATE.FENCING (26 : Fin 32).val) = 0 ∧ (sDom 5 0 idle0).domSt .a 26 ≠ 0 ∧ ((sDom 5 0 idle0).dom .a 26).wakeAt = none) ∧
    ((sDom 5 0 idle0).lockedOff .a (26 : Fin 32).val = false ∧ (sDom 5 0 idle0).svc.tripped = false ∧ domStop 26 = some 16 ∧ ((sDom 5 0 idle0).noc .a).links = [] ∧ (16 : Fin 17).val ≠ 0 ∧ (sDom 5 0 idle0).rd .a (PWC.DOM_STATE.FENCING (26 : Fin 32).val) = 0 ∧ ((sDom 5 0 idle0).dom .a 26).wakeAt = none ∧ 3 ≤ (sDom 5 0 idle0).domSt .a 26 ∧ (((sDom 5 0 idle0).held .a 16).filter (fun u => u.cls == 1)).length + (16 : Fin 17).val ≤ 16 ∧ (∀ e ∈ ((sDom 5 0 idle0).die .a).evs, e.1 < 16)) ∧
    ((sFence 999999990).lockedOff .a (26 : Fin 32).val = false ∧ (sFence 999999990).svc.tripped = false ∧ (sFence 999999990).draining .a (26 : Fin 32).val = true ∧ (sFence 999999990).cycled .a (26 : Fin 32).val = false) ∧
    ((sDom 2 1 { idle0 with acked := true }).lockedOff .a (26 : Fin 32).val = false ∧ (sDom 2 1 { idle0 with acked := true }).svc.tripped = false ∧ (sDom 2 1 { idle0 with acked := true }).rd .a (PWC.DOM_STATE.FENCING (26 : Fin 32).val) = 1 ∧ ((sDom 2 1 { idle0 with acked := true }).dom .a 26).acked = true) ∧
    ((((sDom 2 0 { idle0 with wakeAt := some 1000000000 }).modNoc .a (fun x => { x with hold := [(16, [unitIn 1])] })).dom .a (26 : Fin 32).val).wakeAt = some 1000000000 ∧ 1000000000 ≤ ((sDom 2 0 { idle0 with wakeAt := some 1000000000 }).modNoc .a (fun x => { x with hold := [(16, [unitIn 1])] })).now ∧ ((sDom 2 0 { idle0 with wakeAt := some 1000000000 }).modNoc .a (fun x => { x with hold := [(16, [unitIn 1])] })).rd .a (PWC.DOM_STATE.FENCING (26 : Fin 32).val) = 0 ∧ (((sDom 2 0 { idle0 with wakeAt := some 1000000000 }).modNoc .a (fun x => { x with hold := [(16, [unitIn 1])] })).dom .a 26).held = [] ∧ (((sDom 2 0 { idle0 with wakeAt := some 1000000000 }).modNoc .a (fun x => { x with hold := [(16, [unitIn 1])] })).noc .a).links = [] ∧ ((sDom 2 0 { idle0 with wakeAt := some 1000000000 }).modNoc .a (fun x => { x with hold := [(16, [unitIn 1])] })).fm.cycling ≠ some (32 * (Die.a).num + 26)) ∧
    ((((sDom 3 0 { idle0 with wakeAt := some 1000000000 }).modNoc .a (fun x => { x with hold := [(16, [unitIn 1])] })).dom .a (26 : Fin 32).val).wakeAt = some 1000000000 ∧ 1000000000 ≤ ((sDom 3 0 { idle0 with wakeAt := some 1000000000 }).modNoc .a (fun x => { x with hold := [(16, [unitIn 1])] })).now ∧ ((sDom 3 0 { idle0 with wakeAt := some 1000000000 }).modNoc .a (fun x => { x with hold := [(16, [unitIn 1])] })).rd .a (PWC.DOM_STATE.FENCING (26 : Fin 32).val) = 0 ∧ (((sDom 3 0 { idle0 with wakeAt := some 1000000000 }).modNoc .a (fun x => { x with hold := [(16, [unitIn 1])] })).dom .a 26).held = [] ∧ (((sDom 3 0 { idle0 with wakeAt := some 1000000000 }).modNoc .a (fun x => { x with hold := [(16, [unitIn 1])] })).noc .a).links = [] ∧ ((sDom 3 0 { idle0 with wakeAt := some 1000000000 }).modNoc .a (fun x => { x with hold := [(16, [unitIn 1])] })).fm.cycling ≠ some (32 * (Die.a).num + 26)) ∧
    ((sDom 0 0 idle0).warden pf) ∧
    ((sDom 1 0 idle0).lockedOff .a (26 : Fin 32).val = false ∧ (sDom 1 0 idle0).svc.tripped = false ∧ (sDom 1 0 idle0).rd .a (PWC.DOM_STATE.FENCING (26 : Fin 32).val) = 0 ∧ (sDom 1 0 idle0).domSt .a 26 ≠ 0 ∧ ((sDom 1 0 idle0).dom .a 26).wakeAt = none) ∧
    ((sDom 0 0 idle0).barUp (.fn f1) = true ∧ (sDom 0 0 idle0).privileged (.fn f1) = false) ∧
    (tget (((sDom 0 0 idle0).modDie .a (fun x => { x with idleIsl := [(103, 999999000)] })).die .a).idleIsl (103 : Fin 106).val = some 999999000 ∧ (103 : Fin 106).val ∈ spineIslands ∧ ((sDom 0 0 idle0).modDie .a (fun x => { x with idleIsl := [(103, 999999000)] })).islandBusy .a 103 = false ∧ 999999000 + 1000 ≤ ((sDom 0 0 idle0).modDie .a (fun x => { x with idleIsl := [(103, 999999000)] })).now) ∧
    (tget ((sDom 0 0 idle0).die .a).idleIsl (103 : Fin 106).val = none) ∧
    ((sDom 0 0 idle0).svc.pwrgood = true ∧ (sDom 0 0 idle0).svc.sampleAt ≤ (sDom 0 0 idle0).now ∧ Nat.land (hotMask ([90, 114] ++ [115] ++ [30])) (sDom 0 0 idle0).svc.hot = 0) ∧
    ((let s := sDom 0 0 idle0; { s with svc := { s.svc with hot := 4 } }).svc.pwrgood = true ∧ (let s := sDom 0 0 idle0; { s with svc := { s.svc with hot := 4 } }).svc.sampleAt ≤ (let s := sDom 0 0 idle0; { s with svc := { s.svc with hot := 4 } }).now ∧ Nat.land (hotMask ([90, 114] ++ [115] ++ [30])) (let s := sDom 0 0 idle0; { s with svc := { s.svc with hot := 4 } }).svc.hot ≠ 0 ∧ (let s := sDom 0 0 idle0; { s with svc := { s.svc with hot := 4 } }).svc.tripped = false) ∧
    ((let s := sDom 0 0 idle0; { s with svc := { s.svc with sampleAt := 1000000001 } }).now < (let s := sDom 0 0 idle0; { s with svc := { s.svc with sampleAt := 1000000001 } }).svc.sampleAt) := by
  repeat' apply And.intro
  all_goals decide +kernel

/-- Fabric time of die A, with its role, over port 0; messages that have come. -/
def sFt (role uns : Nat) (f : FTime) (l : List (Pkt × Nat)) : State :=
  (sRtb.wrs .a [(PCU.FT_CFG.ROLE, role), (PCU.FT_CFG.UPSTREAM_VALID, 1), (PCU.FT_CFG.UPSTREAM_NP, 0), (PCU.FT_STATUS.UNSYNCED, uns), (PCU.FT_STATUS.STEPS_REMOVED, 3)]).modDie .a (fun x => { x with ft := f, syncIn := l })
def ft0 : FTime := { FTime.reset with ns := 5000 }
def ftWait : FTime := { ft0 with waiting := [(8, 999999999), (9, 0)], sum := 7, good := 15 }
def syncPkt (u : List Byte) : Pkt := { mkPkt cMGT_MSG vMGT false 0 0 0 u with src := 64 }
/-- SYNC_RSP of exchange 9 with its four times: T4 comes with its arrival. -/
def rsp (t1 t2 t3 steps : Nat) : Pkt := syncPkt ((syncUnit 2 steps 0 9 t1 t2).take 24 ++ leBytes 8 t3 ++ List.replicate 32 0)
def sPcu (w : Window_) (ns : Nat) : State := (sWard.wr .a (HDR.CTRL.ENABLE 0x3800000) 1).modDie .a (fun x => { x with win := w, ft := { ft0 with ns := ns } })
def win0 : Window_ := { Window_.reset with seq := 2 ^ 32 - 1, startAt := 5 }

theorem test_FabricTimeAndWindows_meets :
    (sWard.inv ∧ sWard.pcuOn .a = false) ∧
    ((sPcu win0 9999).ftNow .a < (sPcu win0 9999).winBoundary .a) ∧
    ((sPcu { win0 with evNext := [3], lostSince := 4, step := true } 2000000000).pcuOn .a = true ∧ (sPcu { win0 with evNext := [3], lostSince := 4, step := true } 2000000000).winBoundary .a ≤ (sPcu { win0 with evNext := [3], lostSince := 4, step := true } 2000000000).ftNow .a ∧ (sPcu { win0 with evNext := [3], lostSince := 4, step := true } 2000000000).rd .a PCU.DUMP_SIZE.KIB = 0 ∧ (3 : Nat) ∈ ((sPcu { win0 with evNext := [3], lostSince := 4, step := true } 2000000000).win .a).evNext) ∧
    (((sPcu { win0 with lostSince := 4 } 2000000000).wrs .a [(PCU.DUMP_SIZE.KIB, 64), (PCU.DUMP_TARGET.TARGET, 0), (PCU.DUMP_TARGET.FUNCTION, 9)]).pcuOn .a = true ∧ ((sPcu { win0 with lostSince := 4 } 2000000000).wrs .a [(PCU.DUMP_SIZE.KIB, 64), (PCU.DUMP_TARGET.TARGET, 0), (PCU.DUMP_TARGET.FUNCTION, 9)]).winBoundary .a ≤ ((sPcu { win0 with lostSince := 4 } 2000000000).wrs .a [(PCU.DUMP_SIZE.KIB, 64), (PCU.DUMP_TARGET.TARGET, 0), (PCU.DUMP_TARGET.FUNCTION, 9)]).ftNow .a ∧ ((sPcu { win0 with lostSince := 4 } 2000000000).wrs .a [(PCU.DUMP_SIZE.KIB, 64), (PCU.DUMP_TARGET.TARGET, 0), (PCU.DUMP_TARGET.FUNCTION, 9)]).rd .a PCU.DUMP_SIZE.KIB ≠ 0 ∧ ((sPcu { win0 with lostSince := 4 } 2000000000).wrs .a [(PCU.DUMP_SIZE.KIB, 64), (PCU.DUMP_TARGET.TARGET, 0), (PCU.DUMP_TARGET.FUNCTION, 9)]).dumpOk .a (((sPcu { win0 with lostSince := 4 } 2000000000).wrs .a [(PCU.DUMP_SIZE.KIB, 64), (PCU.DUMP_TARGET.TARGET, 0), (PCU.DUMP_TARGET.FUNCTION, 9)]).rd .a PCU.DUMP_SIZE.KIB * 1024) = false) ∧
    (((sPcu { win0 with lostSince := 4 } 2000000000).wrs .a [(PCU.DUMP_SIZE.KIB, 64), (PCU.DUMP_TARGET.TARGET, 1), (PCU.DUMP_PROD.OFFSET, 0), (PCU.DUMP_CONS.OFFSET, 2 ^ 64 - 65537)]).pcuOn .a = true ∧ ((sPcu { win0 with lostSince := 4 } 2000000000).wrs .a [(PCU.DUMP_SIZE.KIB, 64), (PCU.DUMP_TARGET.TARGET, 1), (PCU.DUMP_PROD.OFFSET, 0), (PCU.DUMP_CONS.OFFSET, 2 ^ 64 - 65537)]).winBoundary .a ≤ ((sPcu { win0 with lostSince := 4 } 2000000000).wrs .a [(PCU.DUMP_SIZE.KIB, 64), (PCU.DUMP_TARGET.TARGET, 1), (PCU.DUMP_PROD.OFFSET, 0), (PCU.DUMP_CONS.OFFSET, 2 ^ 64 - 65537)]).ftNow .a ∧ ((sPcu { win0 with lostSince := 4 } 2000000000).wrs .a [(PCU.DUMP_SIZE.KIB, 64), (PCU.DUMP_TARGET.TARGET, 1), (PCU.DUMP_PROD.OFFSET, 0), (PCU.DUMP_CONS.OFFSET, 2 ^ 64 - 65537)]).rd .a PCU.DUMP_SIZE.KIB * 1024 < (((sPcu { win0 with lostSince := 4 } 2000000000).wrs .a [(PCU.DUMP_SIZE.KIB, 64), (PCU.DUMP_TARGET.TARGET, 1), (PCU.DUMP_PROD.OFFSET, 0), (PCU.DUMP_CONS.OFFSET, 2 ^ 64 - 65537)]).rd .a PCU.DUMP_PROD.OFFSET + 2 ^ 64 - ((sPcu { win0 with lostSince := 4 } 2000000000).wrs .a [(PCU.DUMP_SIZE.KIB, 64), (PCU.DUMP_TARGET.TARGET, 1), (PCU.DUMP_PROD.OFFSET, 0), (PCU.DUMP_CONS.OFFSET, 2 ^ 64 - 65537)]).rd .a PCU.DUMP_CONS.OFFSET) % 2 ^ 64 ∧ ((sPcu { win0 with lostSince := 4 } 2000000000).wrs .a [(PCU.DUMP_SIZE.KIB, 64), (PCU.DUMP_TARGET.TARGET, 1), (PCU.DUMP_PROD.OFFSET, 0), (PCU.DUMP_CONS.OFFSET, 2 ^ 64 - 65537)]).rd .a PCU.DUMP_SIZE.KIB ≠ 0) ∧
    ((sFt 1 0 ft0 []).rd .a PCU.FT_CFG.ROLE ≠ 2) ∧
    ((sFt 2 0 { ft0 with nextAt := 1000000001 } []).now < ((sFt 2 0 { ft0 with nextAt := 1000000001 } []).die .a).ft.nextAt) ∧
    (((sFt 2 0 ft0 []).wr .a PCU.FT_CFG.UPSTREAM_VALID 0).rd .a PCU.FT_CFG.ROLE = 2 ∧ (((sFt 2 0 ft0 []).wr .a PCU.FT_CFG.UPSTREAM_VALID 0).die .a).ft.nextAt ≤ ((sFt 2 0 ft0 []).wr .a PCU.FT_CFG.UPSTREAM_VALID 0).now ∧ ((sFt 2 0 ft0 []).wr .a PCU.FT_CFG.UPSTREAM_VALID 0).syncPort .a = none ∧ ((sFt 2 0 ft0 []).wr .a PCU.FT_CFG.UPSTREAM_VALID 0).syncPort (Die.a).other = none) ∧
    ((((sFt 2 0 ft0 []).wr .a PCU.FT_CFG.UPSTREAM_VALID 0).wrs .b [(PCU.FT_CFG.ROLE, 2), (PCU.FT_CFG.UPSTREAM_VALID, 1), (PCU.FT_CFG.UPSTREAM_NP, 0)]).rd .a PCU.FT_CFG.ROLE = 2 ∧ ((((sFt 2 0 ft0 []).wr .a PCU.FT_CFG.UPSTREAM_VALID 0).wrs .b [(PCU.FT_CFG.ROLE, 2), (PCU.FT_CFG.UPSTREAM_VALID, 1), (PCU.FT_CFG.UPSTREAM_NP, 0)]).die .a).ft.nextAt ≤ (((sFt 2 0 ft0 []).wr .a PCU.FT_CFG.UPSTREAM_VALID 0).wrs .b [(PCU.FT_CFG.ROLE, 2), (PCU.FT_CFG.UPSTREAM_VALID, 1), (PCU.FT_CFG.UPSTREAM_NP, 0)]).now ∧ (((sFt 2 0 ft0 []).wr .a PCU.FT_CFG.UPSTREAM_VALID 0).wrs .b [(PCU.FT_CFG.ROLE, 2), (PCU.FT_CFG.UPSTREAM_VALID, 1), (PCU.FT_CFG.UPSTREAM_NP, 0)]).syncPort .a = none ∧ (((sFt 2 0 ft0 []).wr .a PCU.FT_CFG.UPSTREAM_VALID 0).wrs .b [(PCU.FT_CFG.ROLE, 2), (PCU.FT_CFG.UPSTREAM_VALID, 1), (PCU.FT_CFG.UPSTREAM_NP, 0)]).syncPort (Die.a).other ≠ none) ∧
    (((sFt 2 0 ft0 []).wrs .b [(PCU.FT_CFG.ROLE, 2), (PCU.FT_CFG.UPSTREAM_VALID, 1), (PCU.FT_CFG.UPSTREAM_NP, 0)]).rd .b PCU.FT_CFG.ROLE = 2 ∧ (((sFt 2 0 ft0 []).wrs .b [(PCU.FT_CFG.ROLE, 2), (PCU.FT_CFG.UPSTREAM_VALID, 1), (PCU.FT_CFG.UPSTREAM_NP, 0)]).die .b).ft.nextAt ≤ ((sFt 2 0 ft0 []).wrs .b [(PCU.FT_CFG.ROLE, 2), (PCU.FT_CFG.UPSTREAM_VALID, 1), (PCU.FT_CFG.UPSTREAM_NP, 0)]).now ∧ ((sFt 2 0 ft0 []).wrs .b [(PCU.FT_CFG.ROLE, 2), (PCU.FT_CFG.UPSTREAM_VALID, 1), (PCU.FT_CFG.UPSTREAM_NP, 0)]).syncPort .b = some 0 ∧ (((sFt 2 0 ft0 []).wrs .b [(PCU.FT_CFG.ROLE, 2), (PCU.FT_CFG.UPSTREAM_VALID, 1), (PCU.FT_CFG.UPSTREAM_NP, 0)]).portOf 0).1 ≠ .b) ∧
    ((sFt 2 0 { ft0 with exch := 2 ^ 32 - 1, waiting := [(7, 3)] } []).rd .a PCU.FT_CFG.ROLE = 2 ∧ ((sFt 2 0 { ft0 with exch := 2 ^ 32 - 1, waiting := [(7, 3)] } []).die .a).ft.nextAt ≤ (sFt 2 0 { ft0 with exch := 2 ^ 32 - 1, waiting := [(7, 3)] } []).now ∧ (sFt 2 0 { ft0 with exch := 2 ^ 32 - 1, waiting := [(7, 3)] } []).syncPort .a = some 0 ∧ ((sFt 2 0 { ft0 with exch := 2 ^ 32 - 1, waiting := [(7, 3)] } []).portOf 0).1 = .a) ∧
    ((sFt 2 0 ft0 []).syncMsg .a 1 = none) ∧
    ((sFt 2 0 ft0 []).syncMsg .a 2 = none) ∧
    ((sFt 2 0 ft0 [({ (syncPkt (syncUnit 1 0 0 9 77 0)) with src := 999999 }, 88)]).syncMsg .a 1 = some ({ (syncPkt (syncUnit 1 0 0 9 77 0)) with src := 999999 }, 88) ∧ (sFt 2 0 ft0 [({ (syncPkt (syncUnit 1 0 0 9 77 0)) with src := 999999 }, 88)]).portToward .a 999999 = none) ∧
    ((sFt 1 1 ft0 [((syncPkt (syncUnit 1 0 0 9 77 0)), 88)]).syncMsg .a 1 = some ((syncPkt (syncUnit 1 0 0 9 77 0)), 88) ∧ (sFt 1 1 ft0 [((syncPkt (syncUnit 1 0 0 9 77 0)), 88)]).portToward .a (syncPkt (syncUnit 1 0 0 9 77 0)).src = some (.a, 0)) ∧
    ((sFt 2 1 ft0 [((syncPkt (syncUnit 1 0 0 9 77 0)), 88)]).syncMsg .a 1 = some ((syncPkt (syncUnit 1 0 0 9 77 0)), 88) ∧ (sFt 2 1 ft0 [((syncPkt (syncUnit 1 0 0 9 77 0)), 88)]).portToward .a (syncPkt (syncUnit 1 0 0 9 77 0)).src = some (.a, 0)) ∧
    ((sFt 2 0 ft0 [((syncPkt (syncUnit 1 0 0 9 77 0)), 88)]).syncMsg .a 1 = some ((syncPkt (syncUnit 1 0 0 9 77 0)), 88) ∧ (sFt 2 0 ft0 [((syncPkt (syncUnit 1 0 0 9 77 0)), 88)]).portToward .a (syncPkt (syncUnit 1 0 0 9 77 0)).src = some (.a, 0)) ∧
    ((sFt 2 0 { ftWait with waiting := [(8, 0)] } [((rsp 1000 1100 1200 14), 1280)]).syncMsg .a 2 = some ((rsp 1000 1100 1200 14), 1280) ∧ (((sFt 2 0 { ftWait with waiting := [(8, 0)] } [((rsp 1000 1100 1200 14), 1280)]).die .a).ft.waiting.find? (fun x => x.1 == unitNat (rsp 1000 1100 1200 14) 4 4) = none ∨ (sFt 2 0 { ftWait with waiting := [(8, 0)] } [((rsp 1000 1100 1200 14), 1280)]).rd .a PCU.FT_CFG.ROLE ≠ 2)) ∧
    ((sFt 1 0 ftWait [((rsp 1000 1100 1200 14), 1280)]).syncMsg .a 2 = some ((rsp 1000 1100 1200 14), 1280) ∧ (((sFt 1 0 ftWait [((rsp 1000 1100 1200 14), 1280)]).die .a).ft.waiting.find? (fun x => x.1 == unitNat (rsp 1000 1100 1200 14) 4 4) = none ∨ (sFt 1 0 ftWait [((rsp 1000 1100 1200 14), 1280)]).rd .a PCU.FT_CFG.ROLE ≠ 2)) ∧
    ((sFt 2 0 ftWait [((rsp 1000 1100 1200 15), 1280)]).syncMsg .a 2 = some ((rsp 1000 1100 1200 15), 1280) ∧ ((sFt 2 0 ftWait [((rsp 1000 1100 1200 15), 1280)]).die .a).ft.waiting.find? (fun x => x.1 == unitNat (rsp 1000 1100 1200 15) 4 4) = some (9, 0) ∧ (sFt 2 0 ftWait [((rsp 1000 1100 1200 15), 1280)]).rd .a PCU.FT_CFG.ROLE = 2 ∧ 15 ≤ unitNat (rsp 1000 1100 1200 15) 2 1) ∧
    ((sFt 2 0 ftWait [((rsp 1000 1100 1200 14), 1280)]).syncMsg .a 2 = some ((rsp 1000 1100 1200 14), 1280) ∧ ((sFt 2 0 ftWait [((rsp 1000 1100 1200 14), 1280)]).die .a).ft.waiting.find? (fun x => x.1 == unitNat (rsp 1000 1100 1200 14) 4 4) = some (9, 0) ∧ (sFt 2 0 ftWait [((rsp 1000 1100 1200 14), 1280)]).rd .a PCU.FT_CFG.ROLE = 2 ∧ unitNat (rsp 1000 1100 1200 14) 2 1 < 15 ∧ ¬ ((sFt 2 0 ftWait [((rsp 1000 1100 1200 14), 1280)]).rd .a PCU.FT_STATUS.UNSYNCED = 1 ∨ max 100 ((sFt 2 0 ftWait [((rsp 1000 1100 1200 14), 1280)]).rd .a PCU.FT_CFG.STEP_THRESHOLD_NS) < (syncOffset 1000 1100 1200 1280).natAbs)) ∧
    ((sFt 2 1 ftWait [((rsp 1000 1100 1200 0), 1280)]).syncMsg .a 2 = some ((rsp 1000 1100 1200 0), 1280) ∧ ((sFt 2 1 ftWait [((rsp 1000 1100 1200 0), 1280)]).die .a).ft.waiting.find? (fun x => x.1 == unitNat (rsp 1000 1100 1200 0) 4 4) = some (9, 0) ∧ (sFt 2 1 ftWait [((rsp 1000 1100 1200 0), 1280)]).rd .a PCU.FT_CFG.ROLE = 2 ∧ unitNat (rsp 1000 1100 1200 0) 2 1 < 15 ∧ ((sFt 2 1 ftWait [((rsp 1000 1100 1200 0), 1280)]).rd .a PCU.FT_STATUS.UNSYNCED = 1 ∨ max 100 ((sFt 2 1 ftWait [((rsp 1000 1100 1200 0), 1280)]).rd .a PCU.FT_CFG.STEP_THRESHOLD_NS) < (syncOffset 1000 1100 1200 1280).natAbs)) ∧
    ((sFt 2 0 ftWait [((rsp 1000 1000 1000 0), 5000)]).syncMsg .a 2 = some ((rsp 1000 1000 1000 0), 5000) ∧ ((sFt 2 0 ftWait [((rsp 1000 1000 1000 0), 5000)]).die .a).ft.waiting.find? (fun x => x.1 == unitNat (rsp 1000 1000 1000 0) 4 4) = some (9, 0) ∧ (sFt 2 0 ftWait [((rsp 1000 1000 1000 0), 5000)]).rd .a PCU.FT_CFG.ROLE = 2 ∧ unitNat (rsp 1000 1000 1000 0) 2 1 < 15 ∧ ((sFt 2 0 ftWait [((rsp 1000 1000 1000 0), 5000)]).rd .a PCU.FT_STATUS.UNSYNCED = 1 ∨ max 100 ((sFt 2 0 ftWait [((rsp 1000 1000 1000 0), 5000)]).rd .a PCU.FT_CFG.STEP_THRESHOLD_NS) < (syncOffset 1000 1000 1000 5000).natAbs)) ∧
    ((sFt 2 0 { ftWait with waiting := [(7, 5), (8, 999900001), (9, 999900000)] } []).syncLate .a ≠ []) ∧
    ((sFt 2 0 { ftWait with waiting := [(8, 999900001)] } []).syncLate .a = []) ∧
    ((sFt 1 0 ft0 []).warden pf ∧ (sFt 1 0 ft0 []).rd .a PCU.FT_CFG.ROLE = 1) ∧
    ((sFt 2 0 ft0 []).warden pf ∧ (sFt 2 0 ft0 []).rd .a PCU.FT_CFG.ROLE ≠ 1) ∧
    ((sFt 1 0 ft0 []).barUp (.fn f1) = true ∧ (sFt 1 0 ft0 []).privileged (.fn f1) = false) ∧
    ((sFt 1 0 ft0 []).barUp (.fn ⟨3, 9⟩) = false) := by
  repeat' apply And.intro
  all_goals decide +kernel

def sCold : State := { sLink lsACTIVE lluA with svc := { s0.svc with pwrgood := false }, mem := [(5, 5)] }
def sPhase (n : Nat) : State := sWard.wr .a SVC.SVC_STATE.PHASE n
def surv (s t : State) : Bool := decide (t.store = s.store) && decide (t.svc.settings = s.svc.settings) && decide (t.fm.table = s.fm.table) && decide (t.fm.ring = s.fm.ring)
def emptyAll (t : State) : Bool := t.queues.isEmpty && t.ops.isEmpty && t.rings.isEmpty && t.ctrs.isEmpty && t.running.isNone
def causes5 : List Fld := [SVC.RESET_CAUSE.COLD, SVC.RESET_CAUSE.RESET_N, SVC.RESET_CAUSE.FM_CMD, SVC.RESET_CAUSE.OOB, SVC.RESET_CAUSE.I3C]
/-- Only this cause, and one more reset. -/
def warmOf (c : Fld) (s t : State) : Bool :=
  surv s t && emptyAll t && causes5.all (fun f => t.rd .a f == b2n (f == c)) && t.rd .a SVC.RESET_CAUSE.COUNT == s.rd .a SVC.RESET_CAUSE.COUNT + 1 &&
  [Die.a, .b].all (fun e => decide ((t.die e).ft = (s.die e).ft ∧ (t.rtb e).flowKey = (s.rtb e).flowKey ∧ (t.die e).recKey = (s.die e).recKey)) &&
  (List.finRange 4).all (fun h => decide ((t.hp h).cxl = (s.hp h).cxl ∧ (t.hp h).bifurcated = (s.hp h).bifurcated ∧ (t.hp h).totalVfs = (s.hp h).totalVfs ∧
    (t.hp h).perst = (s.hp h).perst ∧ (t.hp h).link0.up = false ∧ (t.hp h).link1.up = false)) && decide (t.mem = s.mem)
/-- An image in slot A, with a boot policy; power off. -/
def sSlot (policy : Nat) : State :=
  let st := sQuiet.store.installSteps 1 1 4 (image.take (imageLen image))
  { sCold with rootKey := sQuiet.rootKey, store := { st with policy := policy }, svc := { sCold.svc with settings := [(0, ⟨some (1, 2), none⟩), (1, ⟨some (1, 1), none⟩), (5, ⟨some (1, 200), none⟩)] } }
def domsLit (s t : State) : Bool :=
  [Die.a, .b].all (fun e => (List.range 32).all (fun i => t.rd e (PWC.DOM_STATE.STATE i) == (if s.domAbsent e i then 5 else 0) && t.rd e (PWC.DOM_STATE.LOCKED_OFF i) == b2n (s.domAbsent e i))) &&
  (List.finRange 4).all (fun h => !s.hpPresent h.val || (s.hp h).perst || (t.hp h).link0.training && (t.hp h).trainAt == s.now)

theorem test_StartUpAndResets_meets :
    (sCold.inv ∧ sCold.svc.pwrgood = false ∧ sCold.svc.resetN = true) ∧
    ({ sCold with svc := { sCold.svc with resetN := false } }.svc.pwrgood = false ∧ { sCold with svc := { sCold.svc with resetN := false } }.svc.resetN = false) ∧
    ((sSlot 0).svc.pwrgood = false ∧ (sSlot 0).svc.resetN = true) ∧
    ((sSlot 2).svc.pwrgood = false ∧ (sSlot 2).svc.resetN = true) ∧
    ((sLink lsACTIVE lluA).svc.pwrgood = true) ∧
    ({ sLink lsACTIVE lluA with mem := [(5, 5)] }.svc.pwrgood = true) ∧
    (sCold.svc.pwrgood = false) ∧
    ({ sPhase 9 with mem := [(5, 5)] }.svc.pwrgood = true ∧ { sPhase 9 with mem := [(5, 5)] }.svc.tripped = false ∧ { sPhase 9 with mem := [(5, 5)] }.rd .a SVC.SVC_STATE.PHASE ≠ 3 ∧ { sPhase 9 with mem := [(5, 5)] }.engines = []) ∧
    ((sPhase 3).svc.pwrgood = true ∧ (sPhase 3).svc.tripped = false ∧ (sPhase 3).rd .a SVC.SVC_STATE.PHASE = 3) ∧
    (sCold.svc.pwrgood = false ∨ sCold.svc.tripped = true) ∧
    ((sPhase 9).svc.pwrgood = false ∨ (sPhase 9).svc.tripped = true ∨ (sPhase 9).rd .a SVC.SVC_STATE.PHASE ≠ 3) ∧
    ({ sPhase 9 with mem := [(5, 5)] }.warden pf ∧ { sPhase 9 with mem := [(5, 5)] }.rd .a FM.FM_STATUS.BUSY ≠ 1 ∧ { sPhase 9 with mem := [(5, 5)] }.svc.pwrgood = true ∧ { sPhase 9 with mem := [(5, 5)] }.svc.tripped = false ∧ { sPhase 9 with mem := [(5, 5)] }.rd .a SVC.SVC_STATE.PHASE ≠ 3) ∧
    ((sPhase 9).warden .oob ∧ (sPhase 9).rd .a FM.FM_STATUS.BUSY ≠ 1) ∧
    ((sPhase 3).warden pf ∧ (sPhase 3).rd .a FM.FM_STATUS.BUSY ≠ 1 ∧ (sPhase 3).svc.pwrgood = true ∧ (sPhase 3).svc.tripped = false ∧ (sPhase 3).rd .a SVC.SVC_STATE.PHASE = 3) ∧
    ({ sPhase 9 with svc := { sWard.svc with tripped := true } }.warden pf ∧ { sPhase 9 with svc := { sWard.svc with tripped := true } }.rd .a FM.FM_STATUS.BUSY ≠ 1 ∧ ({ sPhase 9 with svc := { sWard.svc with tripped := true } }.svc.pwrgood = false ∨ { sPhase 9 with svc := { sWard.svc with tripped := true } }.svc.tripped = true)) := by
  repeat' apply And.intro
  all_goals decide +kernel

/-- A REQUEST of requester 77, with its bytes; one of the out-of-band port; and states that they reach. -/
def mgReq0 (op size addr data len : Nat) (extra : List Byte) : List Byte := mgtUnit 1 op size 0 7 addr data len ++ extra
def mgPkt (type : Nat) (b : List Byte) : Pkt := { mkPkt cMGT_MSG vMGT false 0 0 0 (leBytes 1 type ++ b.drop 1) with src := 77 }
def sMgt (b : List Byte) : State := { sWard with svc := { sWard.svc with inbox := [mgPkt 1 b] } }
/-- Answers kept. -/
def sAns (l : List MgtAns) (s : State) : State := { s with svc := { s.svc with answers := l } }
def sHolds (c : Nat) (s : State) : State := s.wr .a IMS.TOKEN.OWNER_CLASS c
def sOob : State :=
  let s := sWard.wr .a SVC.OOB_STATE.LINK 1
  { s with svc := { s.svc with settings := [(16, ⟨some (1, 1), none⟩), (17, ⟨some (1, 0x0A000001), none⟩), (18, ⟨some (1, 5), none⟩)], oob := { s.svc.oob with sessions := [⟨3, true, 0⟩] } } }
theorem asks_mgt {s : State} {b : List Byte} {op : Nat} (p : Pkt) (h : mgOp b = op) (hi : s.inboxHead 1 = some p) (hb : b = pktData p)
    (ha : s.svc.answers.find? (fun a => a.fea == p.src && a.id == mgReq b) = none) (hf : s.freshAnswers < 4096) : s.asks .mgt b op :=
  ⟨h, p, hi, hb, ha, hf⟩

def sMb (a0 a1 : Nat) : State := sOob.wrs .a [(SVC.MB_ARG0.ARG, a0), (SVC.MB_ARG1.ARG, a1), (SVC.MB_DATA.DATA 0, 0x0000000500080101)]

def mgR (retries : Nat) : MgtReq := ⟨7, 77, mgReq0 1 8 0xA8 0 0 [], 999800000, retries⟩
def sWaits (r : Option MgtReq) (l : List Pkt) : State := let s := sWard.wr .a SVC.MB_STATUS.BUSY 1; { s with svc := { s.svc with request := r, inbox := l } }
def respPkt : Pkt := mgPkt 2 (mgAnswer (mgReq0 1 8 0xA8 0 0 []) 0 0x55)

theorem test_ManagementRequests_meets :
    (s0.inv ∧ s0.inboxHead 1 = none) ∧
    ((sMgt (mgReq0 2 8 0xA8 0 0 [])).inboxHead 1 = some (mgPkt 1 (mgReq0 2 8 0xA8 0 0 [])) ∧ ¬ (mgOp (pktData (mgPkt 1 (mgReq0 2 8 0xA8 0 0 []))) = 1 ∨ ((1 : Nat) = 1 ∧ opUnknown (mgOp (pktData (mgPkt 1 (mgReq0 2 8 0xA8 0 0 [])))) = true))) ∧
    ((sAns [⟨77, 6, [], 0⟩, ⟨77, 7, mgAnswer (mgReq0 1 8 0xA8 0 0 []) 0 5, 1⟩] (sMgt (mgReq0 1 8 0xA8 0 0 []))).inboxHead 1 = some (mgPkt 1 (mgReq0 1 8 0xA8 0 0 [])) ∧ mgOp (pktData (mgPkt 1 (mgReq0 1 8 0xA8 0 0 []))) = 1 ∧ (sAns [⟨77, 6, [], 0⟩, ⟨77, 7, mgAnswer (mgReq0 1 8 0xA8 0 0 []) 0 5, 1⟩] (sMgt (mgReq0 1 8 0xA8 0 0 []))).svc.answers.find? (fun a => a.fea == (mgPkt 1 (mgReq0 1 8 0xA8 0 0 [])).src && a.id == mgReq (pktData (mgPkt 1 (mgReq0 1 8 0xA8 0 0 [])))) = some ⟨77, 7, mgAnswer (mgReq0 1 8 0xA8 0 0 []) 0 5, 1⟩) ∧
    ((sAns (List.replicate 4096 ⟨5, 6, [], 999999999⟩) (sMgt (mgReq0 1 8 0xA8 0 0 []))).inboxHead 1 = some (mgPkt 1 (mgReq0 1 8 0xA8 0 0 [])) ∧ mgOp (pktData (mgPkt 1 (mgReq0 1 8 0xA8 0 0 []))) = 1 ∧ (sAns (List.replicate 4096 ⟨5, 6, [], 999999999⟩) (sMgt (mgReq0 1 8 0xA8 0 0 []))).svc.answers.find? (fun a => a.fea == (mgPkt 1 (mgReq0 1 8 0xA8 0 0 [])).src && a.id == mgReq (pktData (mgPkt 1 (mgReq0 1 8 0xA8 0 0 [])))) = none ∧ 4096 ≤ (sAns (List.replicate 4096 ⟨5, 6, [], 999999999⟩) (sMgt (mgReq0 1 8 0xA8 0 0 []))).freshAnswers) ∧
    ((sMgt (mgReq0 3 8 0xA8 0 0 [])).inboxHead 1 = some (mgPkt 1 (mgReq0 3 8 0xA8 0 0 [])) ∧ ¬ (mgOp (pktData (mgPkt 1 (mgReq0 3 8 0xA8 0 0 []))) = 2 ∨ ((2 : Nat) = 1 ∧ opUnknown (mgOp (pktData (mgPkt 1 (mgReq0 3 8 0xA8 0 0 [])))) = true))) ∧
    ((sAns [⟨77, 6, [], 0⟩, ⟨77, 7, mgAnswer (mgReq0 2 8 0xA8 0 0 []) 0 5, 1⟩] (sMgt (mgReq0 2 8 0xA8 0 0 []))).inboxHead 1 = some (mgPkt 1 (mgReq0 2 8 0xA8 0 0 [])) ∧ mgOp (pktData (mgPkt 1 (mgReq0 2 8 0xA8 0 0 []))) = 2 ∧ (sAns [⟨77, 6, [], 0⟩, ⟨77, 7, mgAnswer (mgReq0 2 8 0xA8 0 0 []) 0 5, 1⟩] (sMgt (mgReq0 2 8 0xA8 0 0 []))).svc.answers.find? (fun a => a.fea == (mgPkt 1 (mgReq0 2 8 0xA8 0 0 [])).src && a.id == mgReq (pktData (mgPkt 1 (mgReq0 2 8 0xA8 0 0 [])))) = some ⟨77, 7, mgAnswer (mgReq0 2 8 0xA8 0 0 []) 0 5, 1⟩) ∧
    ((sAns (List.replicate 4096 ⟨5, 6, [], 999999999⟩) (sMgt (mgReq0 2 8 0xA8 0 0 []))).inboxHead 1 = some (mgPkt 1 (mgReq0 2 8 0xA8 0 0 [])) ∧ mgOp (pktData (mgPkt 1 (mgReq0 2 8 0xA8 0 0 []))) = 2 ∧ (sAns (List.replicate 4096 ⟨5, 6, [], 999999999⟩) (sMgt (mgReq0 2 8 0xA8 0 0 []))).svc.answers.find? (fun a => a.fea == (mgPkt 1 (mgReq0 2 8 0xA8 0 0 [])).src && a.id == mgReq (pktData (mgPkt 1 (mgReq0 2 8 0xA8 0 0 [])))) = none ∧ 4096 ≤ (sAns (List.replicate 4096 ⟨5, 6, [], 999999999⟩) (sMgt (mgReq0 2 8 0xA8 0 0 []))).freshAnswers) ∧
    ((sMgt (mgReq0 4 8 0xA8 0 0 [])).inboxHead 1 = some (mgPkt 1 (mgReq0 4 8 0xA8 0 0 [])) ∧ ¬ (mgOp (pktData (mgPkt 1 (mgReq0 4 8 0xA8 0 0 []))) = 3 ∨ ((3 : Nat) = 1 ∧ opUnknown (mgOp (pktData (mgPkt 1 (mgReq0 4 8 0xA8 0 0 [])))) = true))) ∧
    ((sAns [⟨77, 6, [], 0⟩, ⟨77, 7, mgAnswer (mgReq0 3 8 0xA8 0 0 []) 0 5, 1⟩] (sMgt (mgReq0 3 8 0xA8 0 0 []))).inboxHead 1 = some (mgPkt 1 (mgReq0 3 8 0xA8 0 0 [])) ∧ mgOp (pktData (mgPkt 1 (mgReq0 3 8 0xA8 0 0 []))) = 3 ∧ (sAns [⟨77, 6, [], 0⟩, ⟨77, 7, mgAnswer (mgReq0 3 8 0xA8 0 0 []) 0 5, 1⟩] (sMgt (mgReq0 3 8 0xA8 0 0 []))).svc.answers.find? (fun a => a.fea == (mgPkt 1 (mgReq0 3 8 0xA8 0 0 [])).src && a.id == mgReq (pktData (mgPkt 1 (mgReq0 3 8 0xA8 0 0 [])))) = some ⟨77, 7, mgAnswer (mgReq0 3 8 0xA8 0 0 []) 0 5, 1⟩) ∧
    ((sAns (List.replicate 4096 ⟨5, 6, [], 999999999⟩) (sMgt (mgReq0 3 8 0xA8 0 0 []))).inboxHead 1 = some (mgPkt 1 (mgReq0 3 8 0xA8 0 0 [])) ∧ mgOp (pktData (mgPkt 1 (mgReq0 3 8 0xA8 0 0 []))) = 3 ∧ (sAns (List.replicate 4096 ⟨5, 6, [], 999999999⟩) (sMgt (mgReq0 3 8 0xA8 0 0 []))).svc.answers.find? (fun a => a.fea == (mgPkt 1 (mgReq0 3 8 0xA8 0 0 [])).src && a.id == mgReq (pktData (mgPkt 1 (mgReq0 3 8 0xA8 0 0 [])))) = none ∧ 4096 ≤ (sAns (List.replicate 4096 ⟨5, 6, [], 999999999⟩) (sMgt (mgReq0 3 8 0xA8 0 0 []))).freshAnswers) ∧
    ((sMgt (mgReq0 5 8 0xA8 0 0 [])).inboxHead 1 = some (mgPkt 1 (mgReq0 5 8 0xA8 0 0 [])) ∧ ¬ (mgOp (pktData (mgPkt 1 (mgReq0 5 8 0xA8 0 0 []))) = 4 ∨ ((4 : Nat) = 1 ∧ opUnknown (mgOp (pktData (mgPkt 1 (mgReq0 5 8 0xA8 0 0 [])))) = true))) ∧
    ((sAns [⟨77, 6, [], 0⟩, ⟨77, 7, mgAnswer (mgReq0 4 8 0xA8 0 0 []) 0 5, 1⟩] (sMgt (mgReq0 4 8 0xA8 0 0 []))).inboxHead 1 = some (mgPkt 1 (mgReq0 4 8 0xA8 0 0 [])) ∧ mgOp (pktData (mgPkt 1 (mgReq0 4 8 0xA8 0 0 []))) = 4 ∧ (sAns [⟨77, 6, [], 0⟩, ⟨77, 7, mgAnswer (mgReq0 4 8 0xA8 0 0 []) 0 5, 1⟩] (sMgt (mgReq0 4 8 0xA8 0 0 []))).svc.answers.find? (fun a => a.fea == (mgPkt 1 (mgReq0 4 8 0xA8 0 0 [])).src && a.id == mgReq (pktData (mgPkt 1 (mgReq0 4 8 0xA8 0 0 [])))) = some ⟨77, 7, mgAnswer (mgReq0 4 8 0xA8 0 0 []) 0 5, 1⟩) ∧
    ((sAns (List.replicate 4096 ⟨5, 6, [], 999999999⟩) (sMgt (mgReq0 4 8 0xA8 0 0 []))).inboxHead 1 = some (mgPkt 1 (mgReq0 4 8 0xA8 0 0 [])) ∧ mgOp (pktData (mgPkt 1 (mgReq0 4 8 0xA8 0 0 []))) = 4 ∧ (sAns (List.replicate 4096 ⟨5, 6, [], 999999999⟩) (sMgt (mgReq0 4 8 0xA8 0 0 []))).svc.answers.find? (fun a => a.fea == (mgPkt 1 (mgReq0 4 8 0xA8 0 0 [])).src && a.id == mgReq (pktData (mgPkt 1 (mgReq0 4 8 0xA8 0 0 [])))) = none ∧ 4096 ≤ (sAns (List.replicate 4096 ⟨5, 6, [], 999999999⟩) (sMgt (mgReq0 4 8 0xA8 0 0 []))).freshAnswers) ∧
    ((sMgt (mgReq0 1 8 0xA8 0 0 [])).inboxHead 1 = some (mgPkt 1 (mgReq0 1 8 0xA8 0 0 [])) ∧ ¬ (mgOp (pktData (mgPkt 1 (mgReq0 1 8 0xA8 0 0 []))) = 5 ∨ ((5 : Nat) = 1 ∧ opUnknown (mgOp (pktData (mgPkt 1 (mgReq0 1 8 0xA8 0 0 [])))) = true))) ∧
    ((sAns [⟨77, 6, [], 0⟩, ⟨77, 7, mgAnswer (mgReq0 5 8 0xA8 0 0 []) 0 5, 1⟩] (sMgt (mgReq0 5 8 0xA8 0 0 []))).inboxHead 1 = some (mgPkt 1 (mgReq0 5 8 0xA8 0 0 [])) ∧ mgOp (pktData (mgPkt 1 (mgReq0 5 8 0xA8 0 0 []))) = 5 ∧ (sAns [⟨77, 6, [], 0⟩, ⟨77, 7, mgAnswer (mgReq0 5 8 0xA8 0 0 []) 0 5, 1⟩] (sMgt (mgReq0 5 8 0xA8 0 0 []))).svc.answers.find? (fun a => a.fea == (mgPkt 1 (mgReq0 5 8 0xA8 0 0 [])).src && a.id == mgReq (pktData (mgPkt 1 (mgReq0 5 8 0xA8 0 0 [])))) = some ⟨77, 7, mgAnswer (mgReq0 5 8 0xA8 0 0 []) 0 5, 1⟩) ∧
    ((sAns (List.replicate 4096 ⟨5, 6, [], 999999999⟩) (sMgt (mgReq0 5 8 0xA8 0 0 []))).inboxHead 1 = some (mgPkt 1 (mgReq0 5 8 0xA8 0 0 [])) ∧ mgOp (pktData (mgPkt 1 (mgReq0 5 8 0xA8 0 0 []))) = 5 ∧ (sAns (List.replicate 4096 ⟨5, 6, [], 999999999⟩) (sMgt (mgReq0 5 8 0xA8 0 0 []))).svc.answers.find? (fun a => a.fea == (mgPkt 1 (mgReq0 5 8 0xA8 0 0 [])).src && a.id == mgReq (pktData (mgPkt 1 (mgReq0 5 8 0xA8 0 0 [])))) = none ∧ 4096 ≤ (sAns (List.replicate 4096 ⟨5, 6, [], 999999999⟩) (sMgt (mgReq0 5 8 0xA8 0 0 []))).freshAnswers) ∧
    ((sAns (List.replicate 4096 ⟨5, 6, [], 0⟩) (sMgt (mgReq0 9 8 0xA8 0 0 []))).inboxHead 1 = some (mgPkt 1 (mgReq0 9 8 0xA8 0 0 [])) ∧ opUnknown (mgOp (pktData (mgPkt 1 (mgReq0 9 8 0xA8 0 0 [])))) = true ∧ mgOp (pktData (mgPkt 1 (mgReq0 9 8 0xA8 0 0 []))) ≠ 1 ∧ (sAns (List.replicate 4096 ⟨5, 6, [], 0⟩) (sMgt (mgReq0 9 8 0xA8 0 0 []))).svc.answers.find? (fun a => a.fea == (mgPkt 1 (mgReq0 5 8 0xA8 0 0 [])).src && a.id == mgReq (pktData (mgPkt 1 (mgReq0 5 8 0xA8 0 0 [])))) = none ∧ (sAns (List.replicate 4096 ⟨5, 6, [], 0⟩) (sMgt (mgReq0 9 8 0xA8 0 0 []))).freshAnswers < 4096) ∧
    (¬ ((sOob.oobUp = true ∧ le (mgReq0 9 8 0xA8 0 0 []) 0 1 = 1 ∧ sOob.oobMay none (mgReq0 9 8 0xA8 0 0 []) = true) ∧ (mgOp (mgReq0 9 8 0xA8 0 0 []) = 1 ∨ opUnknown (mgOp (mgReq0 9 8 0xA8 0 0 [])) = true))) ∧
    (sOob.oobUp = true ∧ le (mgReq0 9 8 0xA8 0 0 []) 0 1 = 1 ∧ sOob.oobMay (some 3) (mgReq0 9 8 0xA8 0 0 []) = true ∧ opUnknown (mgOp (mgReq0 9 8 0xA8 0 0 [])) = true ∧ mgOp (mgReq0 9 8 0xA8 0 0 []) ≠ 1) ∧
    ((sMgt (mgReq0 1 8 0xA8 0 0 [])).asks .mgt (mgReq0 1 8 0xA8 0 0 []) 1 ∧ mgAddr (mgReq0 1 8 0xA8 0 0 []) < 2 ^ 27 ∧ goodAccess (mgAddr (mgReq0 1 8 0xA8 0 0 [])) (mgSize (mgReq0 1 8 0xA8 0 0 [])) = true) ∧
    ((sMgt (mgReq0 1 8 0x7FFFFFC 0 0 [])).asks .mgt (mgReq0 1 8 0x7FFFFFC 0 0 []) 1 ∧ mgAddr (mgReq0 1 8 0x7FFFFFC 0 0 []) < 2 ^ 27 ∧ goodAccess (mgAddr (mgReq0 1 8 0x7FFFFFC 0 0 [])) (mgSize (mgReq0 1 8 0x7FFFFFC 0 0 [])) = false) ∧
    ((sMgt (mgReq0 1 8 0x8000000 0 0 [])).asks .mgt (mgReq0 1 8 0x8000000 0 0 []) 1 ∧ 2 ^ 27 ≤ mgAddr (mgReq0 1 8 0x8000000 0 0 [])) ∧
    (sOob.asks (.oob none (mgReq0 1 4 0x100000 0 0 [])) (mgReq0 1 4 0x100000 0 0 []) 1 ∧ mgAddr (mgReq0 1 4 0x100000 0 0 []) < 2 ^ 27 ∧ goodAccess (mgAddr (mgReq0 1 4 0x100000 0 0 [])) (mgSize (mgReq0 1 4 0x100000 0 0 [])) = true) ∧
    ((sMgt (mgReq0 2 8 0xA8 0x1122334455667788 0 [])).asks .mgt (mgReq0 2 8 0xA8 0x1122334455667788 0 []) 2 ∧ mgAddr (mgReq0 2 8 0xA8 0x1122334455667788 0 []) = 0xA8 ∧ mgSize (mgReq0 2 8 0xA8 0x1122334455667788 0 []) = 8) ∧
    (sOob.asks (.oob (some 3) (mgReq0 2 8 0xA8 0x1122334455667788 0 [])) (mgReq0 2 8 0xA8 0x1122334455667788 0 []) 2 ∧ mgAddr (mgReq0 2 8 0xA8 0x1122334455667788 0 []) = 0xA8 ∧ mgSize (mgReq0 2 8 0xA8 0x1122334455667788 0 []) = 8) ∧
    ((sMgt (mgReq0 2 2 0xA8 0 0 [])).asks .mgt (mgReq0 2 2 0xA8 0 0 []) 2 ∧ mgAddr (mgReq0 2 2 0xA8 0 0 []) < 2 ^ 27 ∧ goodAccess (mgAddr (mgReq0 2 2 0xA8 0 0 [])) (mgSize (mgReq0 2 2 0xA8 0 0 [])) = false) ∧
    ((sMgt (mgReq0 2 8 0x8000000 0 0 [])).asks .mgt (mgReq0 2 8 0x8000000 0 0 []) 2 ∧ 2 ^ 27 ≤ mgAddr (mgReq0 2 8 0x8000000 0 0 [])) ∧
    ((sHolds (rqClass .mgt) (sMgt (mgReq0 3 0 0xFFE 0 3 [1, 2, 3]))).asks .mgt (mgReq0 3 0 0xFFE 0 3 [1, 2, 3]) 3 ∧ (sHolds (rqClass .mgt) (sMgt (mgReq0 3 0 0xFFE 0 3 [1, 2, 3]))).holdsToken .mgt = true ∧ 1 ≤ mgLen (mgReq0 3 0 0xFFE 0 3 [1, 2, 3]) ∧ mgLen (mgReq0 3 0 0xFFE 0 3 [1, 2, 3]) ≤ 4032 ∧ 64 + mgLen (mgReq0 3 0 0xFFE 0 3 [1, 2, 3]) ≤ (mgReq0 3 0 0xFFE 0 3 [1, 2, 3]).length ∧ mgAddr (mgReq0 3 0 0xFFE 0 3 [1, 2, 3]) + mgLen (mgReq0 3 0 0xFFE 0 3 [1, 2, 3]) ≤ 24 * 2 ^ 20) ∧
    ((sHolds (rqClass .mgt) (sMgt (mgReq0 3 0 25165821 0 3 [1, 2, 3]))).asks .mgt (mgReq0 3 0 25165821 0 3 [1, 2, 3]) 3 ∧ mgAddr (mgReq0 3 0 25165821 0 3 [1, 2, 3]) + mgLen (mgReq0 3 0 25165821 0 3 [1, 2, 3]) ≤ 24 * 2 ^ 20) ∧
    ((sHolds (rqClass .mgt) (sMgt (mgReq0 3 0 25165822 0 3 [1, 2, 3]))).asks .mgt (mgReq0 3 0 25165822 0 3 [1, 2, 3]) 3 ∧ (sHolds (rqClass .mgt) (sMgt (mgReq0 3 0 25165822 0 3 [1, 2, 3]))).holdsToken .mgt = true ∧ 1 ≤ mgLen (mgReq0 3 0 25165822 0 3 [1, 2, 3]) ∧ mgLen (mgReq0 3 0 25165822 0 3 [1, 2, 3]) ≤ 4032 ∧ 64 + mgLen (mgReq0 3 0 25165822 0 3 [1, 2, 3]) ≤ (mgReq0 3 0 25165822 0 3 [1, 2, 3]).length ∧ 24 * 2 ^ 20 < mgAddr (mgReq0 3 0 25165822 0 3 [1, 2, 3]) + mgLen (mgReq0 3 0 25165822 0 3 [1, 2, 3])) ∧
    ((sHolds (rqClass .mgt) (sMgt (mgReq0 3 0 0x1000 0 0 [1, 2, 3]))).asks .mgt (mgReq0 3 0 0x1000 0 0 [1, 2, 3]) 3 ∧ (sHolds (rqClass .mgt) (sMgt (mgReq0 3 0 0x1000 0 0 [1, 2, 3]))).holdsToken .mgt = true ∧ ¬ (1 ≤ mgLen (mgReq0 3 0 0x1000 0 0 [1, 2, 3]) ∧ mgLen (mgReq0 3 0 0x1000 0 0 [1, 2, 3]) ≤ 4032 ∧ 64 + mgLen (mgReq0 3 0 0x1000 0 0 [1, 2, 3]) ≤ (mgReq0 3 0 0x1000 0 0 [1, 2, 3]).length)) ∧
    ((sHolds (rqClass .mgt) (sMgt (mgReq0 3 0 0x1000 0 4 [1, 2, 3]))).asks .mgt (mgReq0 3 0 0x1000 0 4 [1, 2, 3]) 3 ∧ (sHolds (rqClass .mgt) (sMgt (mgReq0 3 0 0x1000 0 4 [1, 2, 3]))).holdsToken .mgt = true ∧ ¬ (1 ≤ mgLen (mgReq0 3 0 0x1000 0 4 [1, 2, 3]) ∧ mgLen (mgReq0 3 0 0x1000 0 4 [1, 2, 3]) ≤ 4032 ∧ 64 + mgLen (mgReq0 3 0 0x1000 0 4 [1, 2, 3]) ≤ (mgReq0 3 0 0x1000 0 4 [1, 2, 3]).length)) ∧
    ((sHolds (rqClass .mgt) (sMgt (mgReq0 3 0 0x1000 0 4033 [1, 2, 3]))).asks .mgt (mgReq0 3 0 0x1000 0 4033 [1, 2, 3]) 3 ∧ (sHolds (rqClass .mgt) (sMgt (mgReq0 3 0 0x1000 0 4033 [1, 2, 3]))).holdsToken .mgt = true ∧ ¬ (1 ≤ mgLen (mgReq0 3 0 0x1000 0 4033 [1, 2, 3]) ∧ mgLen (mgReq0 3 0 0x1000 0 4033 [1, 2, 3]) ≤ 4032 ∧ 64 + mgLen (mgReq0 3 0 0x1000 0 4033 [1, 2, 3]) ≤ (mgReq0 3 0 0x1000 0 4033 [1, 2, 3]).length)) ∧
    ((sMgt (mgReq0 3 0 0xFFE 0 3 [1, 2, 3])).asks .mgt (mgReq0 3 0 0xFFE 0 3 [1, 2, 3]) 3 ∧ (sMgt (mgReq0 3 0 0xFFE 0 3 [1, 2, 3])).holdsToken .mgt = false) ∧
    ((sMgt (mgReq0 4 0 25 0 0 [])).asks .mgt (mgReq0 4 0 25 0 0 []) 4 ∧ settingKnown (mgAddr (mgReq0 4 0 25 0 0 [])) = true) ∧
    ((sMgt (mgReq0 4 0 12 0 0 [])).asks .mgt (mgReq0 4 0 12 0 0 []) 4 ∧ settingKnown (mgAddr (mgReq0 4 0 12 0 0 [])) = false) ∧
    ((sHolds (rqClass .mgt) (sMgt (mgReq0 5 0 3 2 0 []))).asks .mgt (mgReq0 5 0 3 2 0 []) 5 ∧ (sHolds (rqClass .mgt) (sMgt (mgReq0 5 0 3 2 0 []))).mayHold .mgt = true ∧ settingKnown (mgAddr (mgReq0 5 0 3 2 0 [])) = true ∧ settingOk (mgAddr (mgReq0 5 0 3 2 0 [])) (mgData (mgReq0 5 0 3 2 0 [])) = true) ∧
    ((sHolds (rqClass .oob) (sMgt (mgReq0 5 0 3 2 0 []))).asks .mgt (mgReq0 5 0 3 2 0 []) 5 ∧ (sHolds (rqClass .oob) (sMgt (mgReq0 5 0 3 2 0 []))).mayHold .mgt = false) ∧
    ((sHolds (rqClass .mgt) (sMgt (mgReq0 5 0 3 2 0 []))).asks .mgt (mgReq0 5 0 3 2 0 []) 5 ∧ (sHolds (rqClass .mgt) (sMgt (mgReq0 5 0 3 2 0 []))).mayHold .mgt = true ∧ (settingKnown (mgAddr (mgReq0 5 0 3 2 0 [])) && settingOk (mgAddr (mgReq0 5 0 3 2 0 [])) (mgData (mgReq0 5 0 3 2 0 []))) = true) ∧
    ((sHolds (rqClass .mgt) (sMgt (mgReq0 5 0 3 2 0 []))).asks .mgt (mgReq0 5 0 3 2 0 []) 5 ∧ (sHolds (rqClass .mgt) (sMgt (mgReq0 5 0 3 2 0 []))).mayHold .mgt = true ∧ (settingKnown (mgAddr (mgReq0 5 0 3 2 0 [])) && settingOk (mgAddr (mgReq0 5 0 3 2 0 [])) (mgData (mgReq0 5 0 3 2 0 []))) = true) ∧
    ((sHolds (rqClass .mgt) (sMgt (mgReq0 5 0 3 3 0 []))).asks .mgt (mgReq0 5 0 3 3 0 []) 5 ∧ (sHolds (rqClass .mgt) (sMgt (mgReq0 5 0 3 3 0 []))).mayHold .mgt = true ∧ ¬ (settingKnown (mgAddr (mgReq0 5 0 3 3 0 [])) && settingOk (mgAddr (mgReq0 5 0 3 3 0 [])) (mgData (mgReq0 5 0 3 3 0 []))) = true) ∧
    (((sMb 0x41 64).wr .a SVC.MB_STATUS.BUSY 1).warden pf ∧ ((sMb 0x41 64).wr .a SVC.MB_STATUS.BUSY 1).rd .a SVC.MB_STATUS.BUSY = 1) ∧
    (((sMb 0x41 64).wr .a SVC.MB_STATUS.BUSY 1).barUp (.fn f1) = true ∧ ((sMb 0x41 64).wr .a SVC.MB_STATUS.BUSY 1).privileged (.fn f1) = false) ∧
    ((sMb 0x41 64).barUp (.fn ⟨3, 9⟩) = false) ∧
    ((sMb 0x41 64).warden pf ∧ (sMb 0x41 64).rd .a SVC.MB_STATUS.BUSY = 0 ∧ 64 ≤ (sMb 0x41 64).rd .a SVC.MB_ARG1.ARG ∧ (sMb 0x41 64).rd .a SVC.MB_ARG1.ARG ≤ 4096) ∧
    ((sMb 0x41 4096).warden pf ∧ (sMb 0x41 4096).rd .a SVC.MB_STATUS.BUSY = 0 ∧ 64 ≤ (sMb 0x41 4096).rd .a SVC.MB_ARG1.ARG ∧ (sMb 0x41 4096).rd .a SVC.MB_ARG1.ARG ≤ 4096) ∧
    ((sMb 0x41 63).warden pf ∧ (sMb 0x41 63).rd .a SVC.MB_STATUS.BUSY = 0 ∧ ((sMb 0x41 63).rd .a SVC.MB_ARG1.ARG < 64 ∨ 4096 < (sMb 0x41 63).rd .a SVC.MB_ARG1.ARG)) ∧
    ((sMb 0x41 4097).warden pf ∧ (sMb 0x41 4097).rd .a SVC.MB_STATUS.BUSY = 0 ∧ ((sMb 0x41 4097).rd .a SVC.MB_ARG1.ARG < 64 ∨ 4096 < (sMb 0x41 4097).rd .a SVC.MB_ARG1.ARG)) ∧
    ((sMb 18 0).warden pf ∧ (sMb 18 0).rd .a SVC.MB_STATUS.BUSY = 0 ∧ settingKnown ((sMb 18 0).rd .a SVC.MB_ARG0.ARG) = true) ∧
    ((sMb 15 0).warden pf ∧ (sMb 15 0).rd .a SVC.MB_STATUS.BUSY = 0 ∧ settingKnown ((sMb 15 0).rd .a SVC.MB_ARG0.ARG) = false) ∧
    ((sMb 21 4094).warden pf ∧ (sMb 21 4094).rd .a SVC.MB_STATUS.BUSY = 0 ∧ (sMb 21 4094).mayHold pf = true ∧ settingKnown ((sMb 21 4094).rd .a SVC.MB_ARG0.ARG) = true ∧ settingOk ((sMb 21 4094).rd .a SVC.MB_ARG0.ARG) ((sMb 21 4094).rd .a SVC.MB_ARG1.ARG) = true) ∧
    ((sMb 21 4095).warden pf ∧ (sMb 21 4095).rd .a SVC.MB_STATUS.BUSY = 0 ∧ (sMb 21 4095).mayHold pf = true ∧ (settingKnown ((sMb 21 4095).rd .a SVC.MB_ARG0.ARG) && settingOk ((sMb 21 4095).rd .a SVC.MB_ARG0.ARG) ((sMb 21 4095).rd .a SVC.MB_ARG1.ARG)) = false) ∧
    ((sHolds (rqClass .oob) (sMb 21 5)).warden pf ∧ (sHolds (rqClass .oob) (sMb 21 5)).rd .a SVC.MB_STATUS.BUSY = 0 ∧ (sHolds (rqClass .oob) (sMb 21 5)).mayHold pf = false) ∧
    ((sWaits (some (mgR 0)) [respPkt]).inboxHead 2 = some respPkt ∧ (sWaits (some (mgR 0)) [respPkt]).svc.request = some (mgR 0) ∧ le (pktData respPkt) 4 4 = (mgR 0).id ∧ feaGroup respPkt.src = feaGroup (mgR 0).dest ∧ feaRouter respPkt.src = feaRouter (mgR 0).dest ∧ le (pktData respPkt) 3 1 = 0) ∧
    ((sWaits none []).inboxHead 2 = none ∧ (sWaits none []).inboxHead 6 = none) ∧
    ((sWaits none []).svc.request = none) ∧
    ((sWaits (some { mgR 0 with id := 8 }) [respPkt]).svc.request = some { mgR 0 with id := 8 } ∧ ¬ (le (pktData respPkt) 4 4 = ({ mgR 0 with id := 8 } : MgtReq).id ∧ feaGroup respPkt.src = feaGroup ({ mgR 0 with id := 8 } : MgtReq).dest ∧ feaRouter respPkt.src = feaRouter ({ mgR 0 with id := 8 } : MgtReq).dest)) ∧
    ((sWaits (some { mgR 0 with dest := 141 }) [respPkt]).svc.request = some { mgR 0 with dest := 141 } ∧ ¬ (le (pktData respPkt) 4 4 = ({ mgR 0 with dest := 141 } : MgtReq).id ∧ feaGroup respPkt.src = feaGroup ({ mgR 0 with dest := 141 } : MgtReq).dest ∧ feaRouter respPkt.src = feaRouter ({ mgR 0 with dest := 141 } : MgtReq).dest)) ∧
    ((sWaits (some { mgR 0 with dest := 2 ^ 20 }) [respPkt]).svc.request = some { mgR 0 with dest := 2 ^ 20 } ∧ ¬ (le (pktData respPkt) 4 4 = ({ mgR 0 with dest := 2 ^ 20 } : MgtReq).id ∧ feaGroup respPkt.src = feaGroup ({ mgR 0 with dest := 2 ^ 20 } : MgtReq).dest ∧ feaRouter respPkt.src = feaRouter ({ mgR 0 with dest := 2 ^ 20 } : MgtReq).dest)) ∧
    ((sWaits (some (mgR 0)) [(mgPkt 2 (mgAnswer (mgReq0 1 8 0xA8 0 0 []) 4 0x55))]).inboxHead 2 = some (mgPkt 2 (mgAnswer (mgReq0 1 8 0xA8 0 0 []) 4 0x55)) ∧ le (pktData (mgPkt 2 (mgAnswer (mgReq0 1 8 0xA8 0 0 []) 4 0x55))) 3 1 = 4) ∧
    ((sWaits none [respPkt]).inboxHead 2 = some respPkt ∧ (sWaits none [respPkt]).svc.request = none) ∧
    ((sWaits (some (mgR 7)) []).svc.request = some (mgR 7) ∧ (mgR 7).sentAt + 200000 ≤ (sWaits (some (mgR 7)) []).now ∧ (mgR 7).retries < 8) ∧
    ((sWaits (some (mgR 8)) []).svc.request = some (mgR 8) ∧ (mgR 8).sentAt + 200000 ≤ (sWaits (some (mgR 8)) []).now ∧ 8 ≤ (mgR 8).retries) ∧
    ((sWaits (some { mgR 0 with sentAt := 999800001 }) []).svc.request = some { mgR 0 with sentAt := 999800001 } ∧ (sWaits (some { mgR 0 with sentAt := 999800001 }) []).now < 999800001 + 200000) ∧
    ((sWaits none [mgPkt 6 []]).inboxHead 6 = some (mgPkt 6 [])) ∧
    (sWard.svc.pwrgood = true) ∧
    (sOob.oobFrame (0 : BitVec 12).toNat = true ∧ (0x0A000001 : W32) ≠ 0 ∧ (0x0A000001 : W32).toNat = sOob.ip4) ∧
    (sOob.oobFrame (0 : BitVec 12).toNat = true ∧ (0x0A000002 : W32).toNat ≠ sOob.ip4) ∧
    (sOob.oobFrame (0 : BitVec 12).toNat = true ∧ (92233720368547758080 : BitVec 128) ≠ 0 ∧ (92233720368547758080 : BitVec 128).toNat = sOob.ip6) ∧
    (sOob.oobFrame (0 : BitVec 12).toNat = true ∧ (6 : BitVec 128).toNat ≠ sOob.ip6) ∧
    (sOob.oobFrame (0 : BitVec 12).toNat = true ∧ (92233720368547758080 : BitVec 128) ≠ 0 ∧ (92233720368547758080 : BitVec 128).toNat = (if true = true then sOob.ip6 else sOob.ip4)) ∧
    (sOob.oobFrame (0 : BitVec 12).toNat = true ∧ ¬ ((5 : BitVec 128) ≠ 0 ∧ (5 : BitVec 128).toNat = (if true = true then sOob.ip6 else sOob.ip4))) ∧
    (sOob.oobFrame (0 : BitVec 12).toNat = true ∧ (0x0A000001 : BitVec 128) ≠ 0 ∧ (0x0A000001 : BitVec 128).toNat = (if false = true then sOob.ip6 else sOob.ip4)) ∧
    (sOob.oobFrame (0 : BitVec 12).toNat = true ∧ ¬ ((5 : BitVec 128) ≠ 0 ∧ (5 : BitVec 128).toNat = (if false = true then sOob.ip6 else sOob.ip4))) ∧
    (sOob.oobFrame (1 : BitVec 12).toNat = false) ∧
    ((let s := sWard; { s with svc := { s.svc with pwrgood := false } }).svc.pwrgood = false) := by
  refine ⟨?_, ?_, ?_, ?_, ?_, ?_, ?_, ?_, ?_, ?_, ?_, ?_, ?_, ?_, ?_, ?_, ?_, ?_, (by decide +kernel), (⟨asks_mgt (mgPkt 1 (mgReq0 1 8 0xA8 0 0 [])) (by decide +kernel) (by decide +kernel) (by decide +kernel) (by decide +kernel) (by decide +kernel), by decide +kernel, by decide +kernel⟩), (⟨asks_mgt (mgPkt 1 (mgReq0 1 8 0x7FFFFFC 0 0 [])) (by decide +kernel) (by decide +kernel) (by decide +kernel) (by decide +kernel) (by decide +kernel), by decide +kernel, by decide +kernel⟩), (⟨asks_mgt (mgPkt 1 (mgReq0 1 8 0x8000000 0 0 [])) (by decide +kernel) (by decide +kernel) (by decide +kernel) (by decide +kernel) (by decide +kernel), by decide +kernel⟩), (⟨⟨by decide +kernel, rfl, by decide +kernel, by decide +kernel, by decide +kernel⟩, by decide +kernel, by decide +kernel⟩), (⟨asks_mgt (mgPkt 1 (mgReq0 2 8 0xA8 0x1122334455667788 0 [])) (by decide +kernel) (by decide +kernel) (by decide +kernel) (by decide +kernel) (by decide +kernel), by decide +kernel, by decide +kernel⟩), (⟨⟨by decide +kernel, rfl, by decide +kernel, by decide +kernel, by decide +kernel⟩, by decide +kernel, by decide +kernel⟩), (⟨asks_mgt (mgPkt 1 (mgReq0 2 2 0xA8 0 0 [])) (by decide +kernel) (by decide +kernel) (by decide +kernel) (by decide +kernel) (by decide +kernel), by decide +kernel, by decide +kernel⟩), (⟨asks_mgt (mgPkt 1 (mgReq0 2 8 0x8000000 0 0 [])) (by decide +kernel) (by decide +kernel) (by decide +kernel) (by decide +kernel) (by decide +kernel), by decide +kernel⟩), (⟨asks_mgt (mgPkt 1 (mgReq0 3 0 0xFFE 0 3 [1, 2, 3])) (by decide +kernel) (by decide +kernel) (by decide +kernel) (by decide +kernel) (by decide +kernel), by decide +kernel, by decide +kernel, by decide +kernel, by decide +kernel, by decide +kernel⟩), (⟨asks_mgt (mgPkt 1 (mgReq0 3 0 25165821 0 3 [1, 2, 3])) (by decide +kernel) (by decide +kernel) (by decide +kernel) (by decide +kernel) (by decide +kernel), by decide +kernel⟩), (⟨asks_mgt (mgPkt 1 (mgReq0 3 0 25165822 0 3 [1, 2, 3])) (by decide +kernel) (by decide +kernel) (by decide +kernel) (by decide +kernel) (by decide +kernel), by decide +kernel, by decide +kernel, by decide +kernel, by decide +kernel, by decide +kernel⟩), (⟨asks_mgt (mgPkt 1 (mgReq0 3 0 0x1000 0 0 [1, 2, 3])) (by decide +kernel) (by decide +kernel) (by decide +kernel) (by decide +kernel) (by decide +kernel), by decide +kernel, by decide +kernel⟩), (⟨asks_mgt (mgPkt 1 (mgReq0 3 0 0x1000 0 4 [1, 2, 3])) (by decide +kernel) (by decide +kernel) (by decide +kernel) (by decide +kernel) (by decide +kernel), by decide +kernel, by decide +kernel⟩), (⟨asks_mgt (mgPkt 1 (mgReq0 3 0 0x1000 0 4033 [1, 2, 3])) (by decide +kernel) (by decide +kernel) (by decide +kernel) (by decide +kernel) (by decide +kernel), by decide +kernel, by decide +kernel⟩), (⟨asks_mgt (mgPkt 1 (mgReq0 3 0 0xFFE 0 3 [1, 2, 3])) (by decide +kernel) (by decide +kernel) (by decide +kernel) (by decide +kernel) (by decide +kernel), by decide +kernel⟩), (⟨asks_mgt (mgPkt 1 (mgReq0 4 0 25 0 0 [])) (by decide +kernel) (by decide +kernel) (by decide +kernel) (by decide +kernel) (by decide +kernel), by decide +kernel⟩), (⟨asks_mgt (mgPkt 1 (mgReq0 4 0 12 0 0 [])) (by decide +kernel) (by decide +kernel) (by decide +kernel) (by decide +kernel) (by decide +kernel), by decide +kernel⟩), (⟨asks_mgt (mgPkt 1 (mgReq0 5 0 3 2 0 [])) (by decide +kernel) (by decide +kernel) (by decide +kernel) (by decide +kernel) (by decide +kernel), by decide +kernel, by decide +kernel, by decide +kernel⟩), (⟨asks_mgt (mgPkt 1 (mgReq0 5 0 3 2 0 [])) (by decide +kernel) (by decide +kernel) (by decide +kernel) (by decide +kernel) (by decide +kernel), by decide +kernel⟩), (⟨asks_mgt (mgPkt 1 (mgReq0 5 0 3 2 0 [])) (by decide +kernel) (by decide +kernel) (by decide +kernel) (by decide +kernel) (by decide +kernel), by decide +kernel, by decide +kernel⟩), (⟨asks_mgt (mgPkt 1 (mgReq0 5 0 3 2 0 [])) (by decide +kernel) (by decide +kernel) (by decide +kernel) (by decide +kernel) (by decide +kernel), by decide +kernel, by decide +kernel⟩), (⟨asks_mgt (mgPkt 1 (mgReq0 5 0 3 3 0 [])) (by decide +kernel) (by decide +kernel) (by decide +kernel) (by decide +kernel) (by decide +kernel), by decide +kernel, by decide +kernel⟩), ?_, ?_, ?_, ?_, ?_, ?_, ?_, ?_, ?_, ?_, ?_, ?_, ?_, ?_, ?_, ?_, ?_, ?_, ?_, ?_, ?_, ?_, ?_, ?_, ?_, (by decide +kernel), ?_, ?_, ?_, ?_, ?_, ?_, ?_, ?_, ?_⟩
  all_goals repeat' apply And.intro
  all_goals decide +kernel

def sPins (resetN : Bool) (f : Svc → Svc) : State := { s0 with svc := f { s0.svc with resetN := resetN } }

theorem test_PinCommands_meets :
    ((sPins true (fun v => { v with staticAddr := 0x10 })).inv ∧ (sPins true (fun v => { v with staticAddr := 0x10 })).svc.pwrgood = true ∧ (sPins true (fun v => { v with staticAddr := 0x10 })).svc.dynAddr = none ∧ (0x10 : BitVec 7).toNat = (sPins true (fun v => { v with staticAddr := 0x10 })).svc.staticAddr) ∧
    ((sPins true (fun v => { v with dynAddr := some 9, ptr := 0x140, slot := 2 ^ 40 + 7 })).svc.dynAddr ≠ none) ∧
    ((sPins true (fun v => { v with dynAddr := some 9, ptr := 0x140, slot := 2 ^ 40 + 7 })).svc.pwrgood = true ∧ (sPins true (fun v => { v with dynAddr := some 9, ptr := 0x140, slot := 2 ^ 40 + 7 })).svc.dynAddr = some (9 : BitVec 7).toNat ∧ (0xFF : Byte).toNat % 2 = 1) ∧
    ((sPins true (fun v => { v with dynAddr := some 9, ptr := 0x140, slot := 211967 })).svc.pwrgood = true ∧ (sPins true (fun v => { v with dynAddr := some 9, ptr := 0x140, slot := 211967 })).svc.dynAddr = some (9 : BitVec 7).toNat ∧ (sPins true (fun v => { v with dynAddr := some 9, ptr := 0x140, slot := 211967 })).svc.ptr = 0x140 ∧ (64 : BitVec 16).toNat ≤ 64 ∧ (sPins true (fun v => { v with dynAddr := some 9, ptr := 0x140, slot := 211967 })).svc.slot < 211968) ∧
    ((sPins true (fun v => { v with dynAddr := some 9, ptr := 0x140, slot := 211967 })).svc.pwrgood = true ∧ (sPins true (fun v => { v with dynAddr := some 9, ptr := 0x140, slot := 211967 })).svc.dynAddr = some (9 : BitVec 7).toNat ∧ (sPins true (fun v => { v with dynAddr := some 9, ptr := 0x140, slot := 211967 })).svc.ptr = 0x140 ∧ (1 : BitVec 16).toNat ≤ 64 ∧ (sPins true (fun v => { v with dynAddr := some 9, ptr := 0x140, slot := 211967 })).svc.slot < 211968) ∧
    ((sPins true (fun v => { v with dynAddr := some 9, ptr := 65535 })).svc.pwrgood = true ∧ (sPins true (fun v => { v with dynAddr := some 9, ptr := 65535 })).svc.dynAddr = some (9 : BitVec 7).toNat) ∧
    ((sPins true (fun v => { v with dynAddr := some 9, ptr := 0x140, slot := 211967 })).svc.dynAddr ≠ some (8 : BitVec 7).toNat) ∧
    (¬ ((sPins true (fun v => { v with staticAddr := 0x10 })).svc.dynAddr = none ∧ (0x11 : BitVec 7).toNat = (sPins true (fun v => { v with staticAddr := 0x10 })).svc.staticAddr)) ∧
    ((sPins true (fun v => { v with dynAddr := some 9, ptr := 0x140, slot := 2 ^ 40 + 7 })).svc.dynAddr ≠ some (8 : BitVec 7).toNat) ∧
    ((0xFE : Byte).toNat % 2 = 0) ∧
    ((sPins true (fun v => { v with dynAddr := some 9, ptr := 0x140, slot := 2 ^ 40 + 7 })).svc.pwrgood = true ∧ (sPins true (fun v => { v with dynAddr := some 9, ptr := 0x140, slot := 2 ^ 40 + 7 })).svc.dynAddr = some (9 : BitVec 7).toNat ∧ [(1 : Byte)].length < 2) ∧
    (¬ (0x100 ≤ 0x104 ∧ 0x104 < 0x104) ∧ ¬ (0x104 = 0x200 ∧ (5 : Byte) = 0xA5)) ∧
    (¬ (0x100 ≤ 65535 ∧ 65535 < 0x104) ∧ ¬ (65535 = 0x200 ∧ (5 : Byte) = 0xA5)) ∧
    (0x100 ≤ (1 : Byte).toNat * 256 + (3 : Byte).toNat ∧ (1 : Byte).toNat * 256 + (3 : Byte).toNat < 0x104) ∧
    ((sPins true (fun v => { v with dynAddr := some 9 })).svc.pwrgood = true ∧ (sPins true (fun v => { v with dynAddr := some 9 })).svc.dynAddr = some (9 : BitVec 7).toNat ∧ (2 : Byte).toNat * 256 + (0 : Byte).toNat = 0x200 ∧ (sPins true (fun v => { v with dynAddr := some 9 })).svc.tripped = false ∧ (sPins true (fun v => { v with dynAddr := some 9 })).rd .a SVC.SVC_STATE.PHASE ≠ 3) ∧
    ((sPins true (fun v => { v with dynAddr := some 9, ptr := 0xFE, slot := 211968 })).svc.pwrgood = true ∧ (sPins true (fun v => { v with dynAddr := some 9, ptr := 0xFE, slot := 211968 })).svc.dynAddr = some (9 : BitVec 7).toNat ∧ (sPins true (fun v => { v with dynAddr := some 9, ptr := 0xFE, slot := 211968 })).svc.ptr = 0xFE) ∧
    ((let s := sPins true (fun v => { v with dynAddr := some 9, ptr := 0x17F, slot := 7 }); s).svc.pwrgood = true ∧ (let s := sPins true (fun v => { v with dynAddr := some 9, ptr := 0x17F, slot := 7 }); s).svc.dynAddr = some (9 : BitVec 7).toNat ∧ tget (let s := sPins true (fun v => { v with dynAddr := some 9, ptr := 0x17F, slot := 7 }); s).fm.ring (let s := sPins true (fun v => { v with dynAddr := some 9, ptr := 0x17F, slot := 7 }); s).svc.slot = none ∧ (let s := sPins true (fun v => { v with dynAddr := some 9, ptr := 0x17F, slot := 7 }); s).svc.slot < 211968 ∧ (let s := sPins true (fun v => { v with dynAddr := some 9, ptr := 0x17F, slot := 7 }); s).svc.ptr = 0x17F) ∧
    ((sPins false (fun v => { v with tap := ⟨1, [true], 0⟩ })).svc.resetN = false ∧ (sPins false (fun v => { v with tap := ⟨1, [true], 0⟩ })).svc.pwrgood = true) ∧
    ((sPins true (fun v => { v with tap := ⟨1, [true], 5⟩ })).svc.resetN = true ∨ (sPins true (fun v => { v with tap := ⟨1, [true], 5⟩ })).svc.pwrgood = false) := by
  repeat' apply And.intro
  all_goals decide +kernel

theorem test_wf_bar_requester : WellFormed.wf (.registerWrite (.fn ⟨0, 5⟩) (.bar0 0x148) 8 (some 0)) = false := by decide
theorem test_wf_access_size : WellFormed.wf (.registerWrite .svc (.bar0 0x148) 0 (some 0)) = false := by decide
theorem test_wf_cut : WellFormed.wf (.install .svc 1 [] (some ⟨0, 3145216, none⟩)) = false := by decide
theorem test_wf_moves : WellFormed.wf (.bar2Read f0 0 ⟨0, false⟩) = false := by decide
theorem test_wf_atomic_op : WellFormed.wf (.hostAtomicop f0 0 .smin 8 0 0) = false := by decide
theorem test_wf_vf_bar : WellFormed.wf (.bar2Read ⟨0, 1⟩ 0x3FFFFFFFF ⟨2, false⟩) = false := by decide
theorem test_wf_pf_bar : WellFormed.wf (.bar2Read f0 0x3FFFFFFFF ⟨2, false⟩) = true := by decide
theorem test_wf_one_line : WellFormed.wf (.hdmAccess 0 60 none 5) = false := by decide
theorem test_wf_flit : WellFormed.wf (.flitReceived .a 0 [1, 2, 3] false) = false := by decide
theorem test_wf_codeword : WellFormed.wf (.fecCodeword .a 0 [1, 2, 3] []) = false := by decide
theorem test_wf_ats_size : WellFormed.wf (.atsInvalidateRequest f0 0 11) = false := by decide
theorem test_wf_sensors : WellFormed.wf (.tempSample ⟨[], []⟩ ⟨[], []⟩ []) = false := by decide
theorem test_wf_icmp : WellFormed.wf (.echoRequest 0 false (2 ^ 32) []) = false := by decide
theorem test_wf_pin_list : WellFormed.wf (.extest [true] []) = false := by decide
theorem test_wf_accepts : WellFormed.wf (.registerWrite pf (.bar0 0x148) 8 (some 0)) = true := by decide
/-- No row of the opcode table gives bits. -/
theorem test_decode_none : decodeTableWord 32 0 = none := by decide

/-- The published check values of CRC-32C and of SHA-384. -/
theorem test_crc32c_check : crc32c [0x31, 0x32, 0x33, 0x34, 0x35, 0x36, 0x37, 0x38, 0x39] = 0xE3069283 := by decide +kernel
theorem test_sha384_abc : sha384 [0x61, 0x62, 0x63] = 0xcb00753f45a35e8bb5a03d699ac65007272c32ab0eded1631a8b605a43ff5bed8086072ba1e7cc2358baeca134c825a7 := by decide +kernel
/-- The table of 14_link_layer.md R460. -/
theorem test_replay_kib :
    let p := fun (n m : Nat) (r : PortRole) => { params0 with grouping := n, roles := [(0, r)], cables := [(0, m)] }
    replayKib (p 2 3 .local_) 0 = 64 ∧ replayKib (p 2 50 .global) 0 = 128 ∧ replayKib (p 2 150 .global) 0 = 224 ∧ replayKib (p 4 150 .global) 0 = 256 := by decide
/-- The table of 14_link_layer.md R453, in ps. -/
theorem test_flit_time : flitPs 1 448 = 4857 ∧ flitPs 2 448 = 2428 ∧ flitPs 4 448 = 1214 := by decide
/-- NP40 in the default grouping: the worked example of 03_register_model.md. -/
theorem test_np40_page : (s0.portOf 40).1.base + lluBase (s0.portOf 40).2 = 0x6880000 := by decide
/-- Region key 0x0000_4805: the worked example of 09_remote_access.md. -/
theorem test_region_key : keyDie 0x4805 = .a ∧ keyIndex 0x4805 = 9 ∧ keyGen 0x4805 = 5 ∧ mkKey .a 9 5 = 0x4805 := by decide

/-- Owner tags of the worked example of 05_host_ports.md. -/
theorem test_owner_tags : ownerTag ⟨0, 7⟩ 5 = 0x80E00005 ∧ ownerTag ⟨2, 3⟩ 0x12 = 0xC0600012 := by decide

end Sys2Proof.Tests
end

section
/-! What every command keeps, said once over all of them: a property that register writes and memory writes keep, and that looks at no
other group of state that the command may change, holds after the command. That no command changes the device's identity, its clock or
its queue is the case in which no group is looked at. -/

namespace Sys2Proof.Machine

section
variable {K : Grp → Bool} {P : State → Prop} {s t : State}

/-- The commands' own lemmas of the Laws, put together: each asks only for groups that `touched` lists. -/
theorem exec_keeps (c : Instr) (hs : Holds K P s) (hK : ∀ g ∈ touched c, K g = false) : HoldsO K P (exec c s) := by
  have free (g : Grp) (hg : (touched c).contains g = true) : K g = false := hK g (List.contains_iff_mem.mp hg)
  cases c
  case' registerWrite => apply execRegisterWrite_keeps (hs := hs)
  case' ctrlEnableWrite => apply execCtrlEnableWrite_keeps (hs := hs)
  case' statusEnabledCleared => apply execStatusEnabledCleared_keeps (hs := hs)
  case' countClear => apply execCountClear_keeps (hs := hs)
  case' tokenAcquire => apply execTokenAcquire_keeps (hs := hs)
  case' tokenRelease => apply execTokenRelease_keeps (hs := hs)
  case' tokenLeaseExpiry => apply execTokenLeaseExpiry_keeps (hs := hs)
  case' install => apply execInstall_keeps (hs := hs)
  case' apply => apply execApply_keeps (hs := hs)
  case' verify => apply execVerify_keeps (hs := hs)
  case' enrolKey => apply execEnrolKey_keeps (hs := hs)
  case' revokeKey => apply execRevokeKey_keeps (hs := hs)
  case' raiseEpoch => apply execRaiseEpoch_keeps (hs := hs)
  case' setBootPolicy => apply execSetBootPolicy_keeps (hs := hs)
  case' quiesceReq => apply execQuiesceReq_keeps (hs := hs)
  case' quiesceEntered => apply execQuiesceEntered_keeps (hs := hs)
  case' featureFloorWrite => apply execFeatureFloorWrite_keeps (hs := hs)
  case' storeScrub => apply execStoreScrub_keeps (hs := hs)
  case' bar2Read => apply execBar2Read_keeps (hs := hs)
  case' bar2Write => apply execBar2Write_keeps (hs := hs)
  case' hostAtomicop => apply execHostAtomicop_keeps (hs := hs)
  case' holdRead => apply execHoldRead_keeps (hs := hs)
  case' holdTimeout => apply execHoldTimeout_keeps (hs := hs)
  case' holdRecallTimer => apply execHoldRecallTimer_keeps (hs := hs)
  case' ptRegister => apply execPtRegister_keeps (hs := hs)
  case' ptDeregister => apply execPtDeregister_keeps (hs := hs)
  case' ptClose => apply execPtClose_keeps (hs := hs)
  case' ptOpen => apply execPtOpen_keeps (hs := hs)
  case' ptBind => apply execPtBind_keeps (hs := hs)
  case' ptUnbind => apply execPtUnbind_keeps (hs := hs)
  case' ptSetWindow => apply execPtSetWindow_keeps (hs := hs)
  case' ptSetAttr => apply execPtSetAttr_keeps (hs := hs)
  case' ptRead => apply execPtRead_keeps (hs := hs)
  case' numvfsWrite => apply execNumvfsWrite_keeps (hs := hs)
  case' functionLevelReset => apply execFunctionLevelReset_keeps (hs := hs)
  case' perstNAsserted => apply execPerstNAsserted_keeps (hs := hs)
  case' perstNDeasserted => apply execPerstNDeasserted_keeps (hs := hs)
  case' hostLinkDown => apply execHostLinkDown_keeps (hs := hs)
  case' hostReadCompletion => apply execHostReadCompletion_keeps (hs := hs)
  case' hdmCommit => apply execHdmCommit_keeps (hs := hs)
  case' memrdShared => apply execMemrdShared_keeps (hs := hs)
  case' memrdOwnership => apply execMemrdOwnership_keeps (hs := hs)
  case' memwrWriteback => apply execMemwrWriteback_keeps (hs := hs)
  case' birsp => apply execBirsp_keeps (hs := hs)
  case' hagDwellExpiry => apply execHagDwellExpiry_keeps (hs := hs)
  case' getVersion => apply execGetVersion_keeps (hs := hs)
  case' getCapabilities => apply execGetCapabilities_keeps (hs := hs)
  case' negotiateAlgorithms => apply execNegotiateAlgorithms_keeps (hs := hs)
  case' getDigests => apply execGetDigests_keeps (hs := hs)
  case' getCertificate => apply execGetCertificate_keeps (hs := hs)
  case' challenge => apply execChallenge_keeps (hs := hs)
  case' getMeasurements => apply execGetMeasurements_keeps (hs := hs)
  case' keyExchange => apply execKeyExchange_keeps (hs := hs)
  case' finish => apply execFinish_keeps (hs := hs)
  case' heartbeat => apply execHeartbeat_keeps (hs := hs)
  case' keyUpdate => apply execKeyUpdate_keeps (hs := hs)
  case' endSession => apply execEndSession_keeps (hs := hs)
  case' ideKm => apply execIdeKm_keeps (hs := hs)
  case' ptmExchange => apply execPtmExchange_keeps (hs := hs)
  case' doorbell => apply execDoorbell_keeps (hs := hs)
  case' ctrAdd => apply execCtrAdd_keeps (hs := hs)
  case' ringConsWrite => apply execRingConsWrite_keeps (hs := hs)
  case' contextAddrWrite => apply execContextAddrWrite_keeps (hs := hs)
  case' fnSetsWrite => apply execFnSetsWrite_keeps (hs := hs)
  case' createQueue => apply execCreateQueue_keeps (hs := hs)
  case' start => apply execStart_keeps (hs := hs)
  case' stop => apply execStop_keeps (hs := hs)
  case' resetQueue => apply execResetQueue_keeps (hs := hs)
  case' createRing => apply execCreateRing_keeps (hs := hs)
  case' destroyRing => apply execDestroyRing_keeps (hs := hs)
  case' resetCounters => apply execResetCounters_keeps (hs := hs)
  case' invalidate => apply execInvalidate_keeps (hs := hs)
  case' indexReadReturn => apply execIndexReadReturn_keeps (hs := hs)
  case' phaseRetry => apply execPhaseRetry_keeps (hs := hs)
  case' pollTimer => apply execPollTimer_keeps (hs := hs)
  case' recordReload => apply execRecordReload_keeps (hs := hs)
  case' triggeredHeadStart => apply execTriggeredHeadStart_keeps (hs := hs)
  case' triggerSweep => apply execTriggerSweep_keeps (hs := hs)
  case' nop => apply execNop_keeps (hs := hs)
  case' counterAdd => apply execCounterAdd_keeps (hs := hs)
  case' completion => apply execCompletion_keeps (hs := hs)
  case' counterRecordWrite => apply execCounterRecordWrite_keeps (hs := hs)
  case' createSpace => apply execCreateSpace_keeps (hs := hs)
  case' destroySpace => apply execDestroySpace_keeps (hs := hs)
  case' createRegion => apply execCreateRegion_keeps (hs := hs)
  case' destroyRegion => apply execDestroyRegion_keeps (hs := hs)
  case' invalidateRange => apply execInvalidateRange_keeps (hs := hs)
  case' invalidateSpace => apply execInvalidateSpace_keeps (hs := hs)
  case' invalidateFunction => apply execInvalidateFunction_keeps (hs := hs)
  case' invalidateAll => apply execInvalidateAll_keeps (hs := hs)
  case' tokenComplete => apply execTokenComplete_keeps (hs := hs)
  case' walkReadReturn => apply execWalkReadReturn_keeps (hs := hs)
  case' atsTranslationCompletion => apply execAtsTranslationCompletion_keeps (hs := hs)
  case' atsInvalidateRequest => apply execAtsInvalidateRequest_keeps (hs := hs)
  case' tsend => apply execTsend_keeps (hs := hs)
  case' trecv => apply execTrecv_keeps (hs := hs)
  case' tprobe => apply execTprobe_keeps (hs := hs)
  case' tmprobe => apply execTmprobe_keeps (hs := hs)
  case' tcancel => apply execTcancel_keeps (hs := hs)
  case' tmrecv => apply execTmrecv_keeps (hs := hs)
  case' tagEager => apply execTagEager_keeps (hs := hs)
  case' tagRts => apply execTagRts_keeps (hs := hs)
  case' tagCont => apply execTagCont_keeps (hs := hs)
  case' tagPull => apply execTagPull_keeps (hs := hs)
  case' tagPullData => apply execTagPullData_keeps (hs := hs)
  case' tagFin => apply execTagFin_keeps (hs := hs)
  case' tagMatched => apply execTagMatched_keeps (hs := hs)
  case' storedCopyDone => apply execStoredCopyDone_keeps (hs := hs)
  case' spillReadReturn => apply execSpillReadReturn_keeps (hs := hs)
  case' spillReload => apply execSpillReload_keeps (hs := hs)
  case' chainIntervalEnd => apply execChainIntervalEnd_keeps (hs := hs)
  case' rehashGo => apply execRehashGo_keeps (hs := hs)
  case' rehashMove => apply execRehashMove_keeps (hs := hs)
  case' rehashCutover => apply execRehashCutover_keeps (hs := hs)
  case' put => apply execPut_keeps (hs := hs)
  case' putNotify => apply execPutNotify_keeps (hs := hs)
  case' get => apply execGet_keeps (hs := hs)
  case' fadd64 => apply execFadd64_keeps (hs := hs)
  case' swap64 => apply execSwap64_keeps (hs := hs)
  case' cas64 => apply execCas64_keeps (hs := hs)
  case' smin64 => apply execSmin64_keeps (hs := hs)
  case' smax64 => apply execSmax64_keeps (hs := hs)
  case' umin64 => apply execUmin64_keeps (hs := hs)
  case' umax64 => apply execUmax64_keeps (hs := hs)
  case' swap128 => apply execSwap128_keeps (hs := hs)
  case' cas128 => apply execCas128_keeps (hs := hs)
  case' chunkIssue => apply execChunkIssue_keeps (hs := hs)
  case' rmaPut => apply execRmaPut_keeps (hs := hs)
  case' rmaNotify => apply execRmaNotify_keeps (hs := hs)
  case' rmaGetReq => apply execRmaGetReq_keeps (hs := hs)
  case' rmaGetData => apply execRmaGetData_keeps (hs := hs)
  case' rmaAtomic => apply execRmaAtomic_keeps (hs := hs)
  case' rmaAtomicRsp => apply execRmaAtomicRsp_keeps (hs := hs)
  case' flagHoldRelease => apply execFlagHoldRelease_keeps (hs := hs)
  case' targetCounterEvent => apply execTargetCounterEvent_keeps (hs := hs)
  case' notificationWrite => apply execNotificationWrite_keeps (hs := hs)
  case' sluiceAdmit => apply execSluiceAdmit_keeps (hs := hs)
  case' sluiceEntryWrite => apply execSluiceEntryWrite_keeps (hs := hs)
  case' ctxOpen => apply execCtxOpen_keeps (hs := hs)
  case' ctxOpenAck => apply execCtxOpenAck_keeps (hs := hs)
  case' ctxNoctx => apply execCtxNoctx_keeps (hs := hs)
  case' truAck => apply execTruAck_keeps (hs := hs)
  case' sequencedPacketReceive => apply execSequencedPacketReceive_keeps (hs := hs)
  case' packetLanded => apply execPacketLanded_keeps (hs := hs)
  case' ackDelayExpiry => apply execAckDelayExpiry_keeps (hs := hs)
  case' gapTimeout => apply execGapTimeout_keeps (hs := hs)
  case' retransmitTimeout => apply execRetransmitTimeout_keeps (hs := hs)
  case' rnrRetransmit => apply execRnrRetransmit_keeps (hs := hs)
  case' retryBudgetExhausted => apply execRetryBudgetExhausted_keeps (hs := hs)
  case' unreachHoldExpiry => apply execUnreachHoldExpiry_keeps (hs := hs)
  case' recordResendTimer => apply execRecordResendTimer_keeps (hs := hs)
  case' contextReload => apply execContextReload_keeps (hs := hs)
  case' contextWritebackDone => apply execContextWritebackDone_keeps (hs := hs)
  case' rateIncreaseTick => apply execRateIncreaseTick_keeps (hs := hs)
  case' queryPair => apply execQueryPair_keeps (hs := hs)
  case' queryIndex => apply execQueryIndex_keeps (hs := hs)
  case' abort => apply execAbort_keeps (hs := hs)
  case' qJoin => apply execQJoin_keeps (hs := hs)
  case' qRelease => apply execQRelease_keeps (hs := hs)
  case' qAllreduce => apply execQAllreduce_keeps (hs := hs)
  case' qReduce => apply execQReduce_keeps (hs := hs)
  case' qBcast => apply execQBcast_keeps (hs := hs)
  case' qBarrier => apply execQBarrier_keeps (hs := hs)
  case' qAbort => apply execQAbort_keeps (hs := hs)
  case' qctlJoin => apply execQctlJoin_keeps (hs := hs)
  case' qctlReady => apply execQctlReady_keeps (hs := hs)
  case' qctlCredit => apply execQctlCredit_keeps (hs := hs)
  case' qctlResend => apply execQctlResend_keeps (hs := hs)
  case' qctlRelease => apply execQctlRelease_keeps (hs := hs)
  case' qctlFree => apply execQctlFree_keeps (hs := hs)
  case' qctlAbort => apply execQctlAbort_keeps (hs := hs)
  case' qdata => apply execQdata_keeps (hs := hs)
  case' qresult => apply execQresult_keeps (hs := hs)
  case' segmentSend => apply execSegmentSend_keeps (hs := hs)
  case' joinTimeout => apply execJoinTimeout_keeps (hs := hs)
  case' pendingJoinTimeout => apply execPendingJoinTimeout_keeps (hs := hs)
  case' myFeaWrite => apply execMyFeaWrite_keeps (hs := hs)
  case' routeTableWrite => apply execRouteTableWrite_keeps (hs := hs)
  case' epochInjectWrite => apply execEpochInjectWrite_keeps (hs := hs)
  case' validate => apply execValidate_keeps (hs := hs)
  case' versionInvalidate => apply execVersionInvalidate_keeps (hs := hs)
  case' groupStatusPeriod => apply execGroupStatusPeriod_keeps (hs := hs)
  case' groupStatus => apply execGroupStatus_keeps (hs := hs)
  case' peerStale => apply execPeerStale_keeps (hs := hs)
  case' routePacket => apply execRoutePacket_keeps (hs := hs)
  case' imbalanceWindow => apply execImbalanceWindow_keeps (hs := hs)
  case' reseed => apply execReseed_keeps (hs := hs)
  case' holdLimitExpiry => apply execHoldLimitExpiry_keeps (hs := hs)
  case' crossbarAllocation => apply execCrossbarAllocation_keeps (hs := hs)
  case' packetEjected => apply execPacketEjected_keeps (hs := hs)
  case' nocUnitReceived => apply execNocUnitReceived_keeps (hs := hs)
  case' bridgeFlitReceived => apply execBridgeFlitReceived_keeps (hs := hs)
  case' bridgeModuleSilent => apply execBridgeModuleSilent_keeps (hs := hs)
  case' bridgeModuleRetrainDone => apply execBridgeModuleRetrainDone_keeps (hs := hs)
  case' flitSlot => apply execFlitSlot_keeps (hs := hs)
  case' flitReceived => apply execFlitReceived_keeps (hs := hs)
  case' replayTimeout => apply execReplayTimeout_keeps (hs := hs)
  case' linkRttWindow => apply execLinkRttWindow_keeps (hs := hs)
  case' lanesTrained => apply execLanesTrained_keeps (hs := hs)
  case' negotiatePropose => apply execNegotiatePropose_keeps (hs := hs)
  case' negotiateAgree => apply execNegotiateAgree_keeps (hs := hs)
  case' negotiateRefuse => apply execNegotiateRefuse_keeps (hs := hs)
  case' negotiateResend => apply execNegotiateResend_keeps (hs := hs)
  case' trainingAttemptTimeout => apply execTrainingAttemptTimeout_keeps (hs := hs)
  case' failedRestartTimer => apply execFailedRestartTimer_keeps (hs := hs)
  case' silenceTimeout => apply execSilenceTimeout_keeps (hs := hs)
  case' retrain => apply execRetrain_keeps (hs := hs)
  case' portHoldLimit => apply execPortHoldLimit_keeps (hs := hs)
  case' changeGo => apply execChangeGo_keeps (hs := hs)
  case' changeRequest => apply execChangeRequest_keeps (hs := hs)
  case' changeAccept => apply execChangeAccept_keeps (hs := hs)
  case' changeRefuse => apply execChangeRefuse_keeps (hs := hs)
  case' changeTimeout => apply execChangeTimeout_keeps (hs := hs)
  case' lanesReady => apply execLanesReady_keeps (hs := hs)
  case' linkRetire => apply execLinkRetire_keeps (hs := hs)
  case' trainingFrame => apply execTrainingFrame_keeps (hs := hs)
  case' quadPllLocked => apply execQuadPllLocked_keeps (hs := hs)
  case' laneStepTimeout => apply execLaneStepTimeout_keeps (hs := hs)
  case' qualificationWindow => apply execQualificationWindow_keeps (hs := hs)
  case' fecCodeword d n msg parity => apply execFecCodeword_keeps d n msg parity (hs := hs)
  case' adaptationUpdate => apply execAdaptationUpdate_keeps (hs := hs)
  case' laneLockLoss => apply execLaneLockLoss_keeps (hs := hs)
  case' lnePwrWrite => apply execLnePwrWrite_keeps (hs := hs)
  case' prbsCtrlWrite => apply execPrbsCtrlWrite_keeps (hs := hs)
  case' prbsNoPartner => apply execPrbsNoPartner_keeps (hs := hs)
  case' heartbeatTimer => apply execHeartbeatTimer_keeps (hs := hs)
  case' faultEvaluation => apply execFaultEvaluation_keeps (hs := hs)
  case' suppressedRecordsTick => apply execSuppressedRecordsTick_keeps (hs := hs)
  case' engineWatchdog => apply execEngineWatchdog_keeps (hs := hs)
  case' retire => apply execRetire_keeps (hs := hs)
  case' unretire => apply execUnretire_keeps (hs := hs)
  case' readRecord => apply execReadRecord_keeps (hs := hs)
  case' laneShutdown => apply execLaneShutdown_keeps (hs := hs)
  case' domainCycle => apply execDomainCycle_keeps (hs := hs)
  case' deviceReset => apply execDeviceReset_keeps (hs := hs)
  case' descentTimer => apply execDescentTimer_keeps (hs := hs)
  case' fenceAck => apply execFenceAck_keeps (hs := hs)
  case' domainStateSaved => apply execDomainStateSaved_keeps (hs := hs)
  case' fenceTimeout => apply execFenceTimeout_keeps (hs := hs)
  case' domainWake => apply execDomainWake_keeps (hs := hs)
  case' domainGalopReached => apply execDomainGalopReached_keeps (hs := hs)
  case' domCfgWrite => apply execDomCfgWrite_keeps (hs := hs)
  case' islandClockGate => apply execIslandClockGate_keeps (hs := hs)
  case' coreVoltageAdjust => apply execCoreVoltageAdjust_keeps (hs := hs)
  case' tempSample => apply execTempSample_keeps (hs := hs)
  case' windowEnd => apply execWindowEnd_keeps (hs := hs)
  case' pcuCountClear => apply execPcuCountClear_keeps (hs := hs)
  case' syncInterval => apply execSyncInterval_keeps (hs := hs)
  case' syncReq => apply execSyncReq_keeps (hs := hs)
  case' syncRsp => apply execSyncRsp_keeps (hs := hs)
  case' syncRspTimeout => apply execSyncRspTimeout_keeps (hs := hs)
  case' ftSet => apply execFtSet_keeps (hs := hs)
  case' pwrgoodRise => apply execPwrgoodRise_keeps (hs := hs)
  case' pwrgoodFall => apply execPwrgoodFall_keeps (hs := hs)
  case' resetNAsserted => apply execResetNAsserted_keeps (hs := hs)
  case' resetNDeasserted => apply execResetNDeasserted_keeps (hs := hs)
  case' sendMgt => apply execSendMgt_keeps (hs := hs)
  case' getSetting => apply execGetSetting_keeps (hs := hs)
  case' setSetting => apply execSetSetting_keeps (hs := hs)
  case' regRead => apply execRegRead_keeps (hs := hs)
  case' regWrite => apply execRegWrite_keeps (hs := hs)
  case' stageWrite => apply execStageWrite_keeps (hs := hs)
  case' mgtResponse => apply execMgtResponse_keeps (hs := hs)
  case' mgtRequestRetry => apply execMgtRequestRetry_keeps (hs := hs)
  case' arpRequest => apply execArpRequest_keeps (hs := hs)
  case' neighbourSolicitation => apply execNeighbourSolicitation_keeps (hs := hs)
  case' echoRequest => apply execEchoRequest_keeps (hs := hs)
  case' i3cAddressAssign => apply execI3cAddressAssign_keeps (hs := hs)
  case' i3cEnec => apply execI3cEnec_keeps (hs := hs)
  case' i3cPrivateWrite => apply execI3cPrivateWrite_keeps (hs := hs)
  case' i3cPrivateRead => apply execI3cPrivateRead_keeps (hs := hs)
  case' idcode => apply execIdcode_keeps (hs := hs)
  case' samplePreload => apply execSamplePreload_keeps (hs := hs)
  case' extest => apply execExtest_keeps (hs := hs)
  case' extestPulse => apply execExtestPulse_keeps (hs := hs)
  case' extestTrain => apply execExtestTrain_keeps (hs := hs)
  case' clamp => apply execClamp_keeps (hs := hs)
  case' highz => apply execHighz_keeps (hs := hs)
  case' bypass => apply execBypass_keeps (hs := hs)
  case' hostLinkUp => apply execHostLinkUp_keeps (hs := hs)
  case' devicePowerStateWrite => apply execDevicePowerStateWrite_keeps (hs := hs)
  case' aspmL1Entry => apply execAspmL1Entry_keeps (hs := hs)
  case' aspmL1Exit => apply execAspmL1Exit_keeps (hs := hs)
  case' hdmAccess => apply execHdmAccess_keeps (hs := hs)
  case' suppliesCollapse => apply execSuppliesCollapse_keeps (hs := hs)
  case' mgtEvent => apply execMgtEvent_keeps (hs := hs)
  case' oobBlockLock => apply execOobBlockLock_keeps (hs := hs)
  case' prbsCheckerLock => apply execPrbsCheckerLock_keeps (hs := hs)
  case' prbsLossOfLock => apply execPrbsLossOfLock_keeps (hs := hs)
  case' trstNAsserted => apply execTrstNAsserted_keeps (hs := hs)
  all_goals exact free _ rfl

/-- `exec_keeps`, of the state that a command answers. -/
theorem Closed.of_exec (hP : Closed K P) (c : Instr) (hK : ∀ g ∈ touched c, K g = false) (hs : P s) (h : exec c s = .next t) : P t :=
  ((exec_keeps c ⟨hP, hs⟩ hK).all t h).holds

end

/-- What `t` has in common with `s` after any command: the part, the serial number, the stepping, the root key, the clock and the
queue. -/
def State.identityOf (s t : State) : Prop :=
  t.part = s.part ∧ t.serial = s.serial ∧ t.stepping = s.stepping ∧ t.rootKey = s.rootKey ∧ t.now = s.now ∧ t.pending = s.pending

theorem State.identityOf_refl (s : State) : s.identityOf s := ⟨rfl, rfl, rfl, rfl, rfl, rfl⟩

/-- No group of state holds a part of the identity, so every group may change. -/
theorem State.identityOf_closed (s : State) : Closed (fun _ => false) s.identityOf where
  wr _ _ _ _ _ h := h
  store _ _ _ _ _ h := h
  drop _ _ _ h := h
  cold _ _ _ h := h
  other _ _ hpart hserial hstepping hkey hnow _ _ hpending _ h := by
    obtain ⟨h1, h2, h3, h4, h5, h6⟩ := h
    exact ⟨hpart.trans h1, hserial.trans h2, hstepping.trans h3, hkey.trans h4, hnow.trans h5, hpending.trans h6⟩

/-- Settles O8: the identity is a property that every command keeps, whatever groups it changes. -/
theorem commandKeepsIdentity : Obligations.CommandKeepsIdentity := by
  intro c s t h
  exact s.identityOf_closed.of_exec c (fun _ _ => rfl) s.identityOf_refl h

end Sys2Proof.Machine
end

section
/-! The frame of every command (O7): that the groups outside `touched` stand is a property that register writes and memory writes keep,
so `exec_keeps` gives it of every command. -/

namespace Sys2Proof.Machine

theorem same_refl (g : Grp) (s : State) : same g s s := by cases g <;> simp [same, dieSame]

theorem same_trans {g : Grp} {s t u : State} (h : same g s t) (h' : same g t u) : same g s u := by
  cases g <;> simp_all [same, dieSame]

/-- A change of register fields changes no group but theirs. -/
theorem same_regs {g : Grp} (hg : g ≠ .regs) (s : State) (r : Tbl Nat) : same g s { s with regs := r } := by
  cases g <;> simp_all [same, dieSame]

/-- A change of memory and of its poison marks changes no group but theirs. -/
theorem same_mem {g : Grp} (hg : g ≠ .mem) (s : State) (m : Tbl Byte) (p : List Nat) : same g s { s with mem := m, poison := p } := by
  cases g <;> simp_all [same, dieSame]

/-- The groups of `K` stand in `t` as in `s`. -/
def State.standing (K : Grp → Bool) (s t : State) : Prop := ∀ g, K g = true → same g s t

theorem State.standing_refl (K : Grp → Bool) (s : State) : s.standing K s := fun g _ => same_refl g s

theorem State.standing_trans {K : Grp → Bool} {s t u : State} (h : s.standing K t) (h' : t.standing K u) : s.standing K u :=
  fun g hg => same_trans (h g hg) (h' g hg)

theorem State.standing_regs {K : Grp → Bool} (hK : K .regs = false) (s : State) (r : Tbl Nat) : s.standing K { s with regs := r } :=
  fun g hg => same_regs (fun e => by simp [e, hK] at hg) s r

theorem State.standing_mem {K : Grp → Bool} (hK : K .mem = false) (s : State) (m : Tbl Byte) (p : List Nat) :
    s.standing K { s with mem := m, poison := p } :=
  fun g hg => same_mem (fun e => by simp [e, hK] at hg) s m p

/-- Each write changes one group, and not one of those that stand. -/
theorem State.standing_closed (K : Grp → Bool) (s : State) : Closed K (s.standing K) where
  wr hK t _ _ _ h := State.standing_trans h (t.standing_regs hK _)
  store hK t _ _ _ h := State.standing_trans h (t.standing_mem hK _ _)
  drop hK t _ h := State.standing_trans h (t.standing_regs hK _)
  cold hr hm t h := State.standing_trans h (State.standing_trans (t.standing_regs hr []) (State.standing_mem hm _ [] t.poison))
  other _ _ _ _ _ _ _ _ _ _ h' h := State.standing_trans h h'

/-- The groups that a command does not touch. -/
def untouched (c : Instr) (g : Grp) : Bool := !(touched c).contains g

theorem untouched_iff {c : Instr} {g : Grp} : untouched c g = true ↔ g ∉ touched c := by simp [untouched]

theorem untouched_of_touched {c : Instr} {g : Grp} (h : g ∈ touched c) : untouched c g = false := by simp [untouched, h]

/-- What a command does not touch stands. -/
theorem exec_same {c : Instr} {s t : State} {g : Grp} (h : exec c s = .next t) (hg : g ∉ touched c) : same g s t :=
  (s.standing_closed (untouched c)).of_exec c (fun _ => untouched_of_touched) (s.standing_refl _) h g (untouched_iff.mpr hg)

theorem mbyte_of_same {s t : State} (h : same .mem s t) (a : Nat) : t.mbyte a = s.mbyte a := by simp [State.mbyte, h.1]

/-- Settles O7: that the groups outside `touched` stand is a property that every command keeps; device memory is one of them. -/
theorem commandTouchesOnlyItsGroups : Obligations.CommandTouchesOnlyItsGroups :=
  ⟨fun _ _ _ _ h hg => exec_same h hg, fun _ _ _ hm h => mbyte_of_same (exec_same h hm)⟩

end Sys2Proof.Machine
end

section
/-! What the moving of units leaves alone (for O52): the crossbar's cell count and ejected packets, the receive side of the bridge modules,
and what the NoC counts stand under every operation that only passes units and credits on. -/

-- One declaration after another: this many short theorems, each in a thread of its own, reserve more memory for stacks than the
-- check allows.
set_option Elab.async false

namespace Sys2Proof.Machine

variable {s t : State} {d e : Die} {α : Type}

/-! ## Reading a die's blocks -/

@[simp] theorem State.swc_modSwc (s : State) (d : Die) (f : Swc → Swc) : (s.modSwc d f).swc d = f (s.swc d) := by
  simp [State.swc, State.modSwc]
@[simp] theorem State.bridge_modBridge (s : State) (d : Die) (f : Bridge → Bridge) : (s.modBridge d f).bridge d = f (s.bridge d) := by
  simp [State.bridge, State.modBridge]
@[simp] theorem State.noc_modNoc (s : State) (d : Die) (f : Noc → Noc) : (s.modNoc d f).noc d = f (s.noc d) := by
  simp [State.noc, State.modNoc]

theorem State.die_modDie_ne (s : State) (f : DieState → DieState) (h : e ≠ d) : (s.modDie d f).die e = s.die e := by
  cases d <;> cases e
  · exact absurd rfl h
  · rfl
  · rfl
  · exact absurd rfl h

/-- A component of a die that a change keeps reads the same on both dies. -/
theorem State.die_modDie_congr (g : DieState → α) {f : DieState → DieState} (h : ∀ x, g (f x) = g x) (s : State)
    (d e : Die) : g ((s.modDie d f).die e) = g (s.die e) := by
  by_cases he : e = d
  · rw [he, State.die_modDie_same, h]
  · rw [State.die_modDie_ne s f he]

@[simp] theorem State.swc_modBridge (s : State) (e d : Die) (f : Bridge → Bridge) : (s.modBridge e f).swc d = s.swc d := by
  cases e <;> cases d <;> rfl
@[simp] theorem State.swc_modNoc (s : State) (e d : Die) (f : Noc → Noc) : (s.modNoc e f).swc d = s.swc d := by
  cases e <;> cases d <;> rfl
@[simp] theorem State.bridge_modSwc (s : State) (e d : Die) (f : Swc → Swc) : (s.modSwc e f).bridge d = s.bridge d := by
  cases e <;> cases d <;> rfl
@[simp] theorem State.bridge_modNoc (s : State) (e d : Die) (f : Noc → Noc) : (s.modNoc e f).bridge d = s.bridge d := by
  cases e <;> cases d <;> rfl
@[simp] theorem State.noc_modSwc (s : State) (e d : Die) (f : Swc → Swc) : (s.modSwc e f).noc d = s.noc d := by
  cases e <;> cases d <;> rfl
@[simp] theorem State.noc_modBridge (s : State) (e d : Die) (f : Bridge → Bridge) : (s.modBridge e f).noc d = s.noc d := by
  cases e <;> cases d <;> rfl
theorem State.noc_modNoc_ne (s : State) (f : Noc → Noc) (h : d ≠ e) : (s.modNoc e f).noc d = s.noc d :=
  congrArg DieState.noc (State.die_modDie_ne s _ h)
theorem State.bridge_modBridge_other (s : State) (d : Die) (f : Bridge → Bridge) : (s.modBridge d f).bridge d.other = s.bridge d.other :=
  congrArg DieState.bridge (State.die_modDie_other s d _)

/-! ## Groups that stand -/

theorem State.holds_standing (K : Grp → Bool) (s : State) : Holds K (s.standing K) s := ⟨s.standing_closed K, s.standing_refl K⟩

/-- The blocks that pass units on. -/
def unitBlocks (g : Grp) : Bool := [Grp.swc, .bridge, .noc].contains g

theorem swc_of_same (h : same .swc s t) (d : Die) : t.swc d = s.swc d := by cases d; exacts [h.1, h.2]
theorem bridge_of_same (h : same .bridge s t) (d : Die) : t.bridge d = s.bridge d := by cases d; exacts [h.1, h.2]
theorem noc_of_same (h : same .noc s t) (d : Die) : t.noc d = s.noc d := by cases d; exacts [h.1, h.2]

/-! ## What stands -/

/-- Of a die's blocks, what no passing on of units and credits changes: the cell count and the ejected packets of the switch core; the
modules of the other die's end of the bridge, and of each module of this end whether it awaits a flit again, the number it expects next and
when it last took a flit; the failed retries of each NoC link, and the count of corrected units. -/
structure Steady where
  cell : Nat
  ejected : List (Nat × Pkt × Nat)
  farMods : Tbl BMod
  receive : Nat → Bool × Nat × Nat
  fails : Nat → Nat
  corrected : Nat

def State.steady (s : State) (d : Die) : Steady where
  cell := (s.swc d).cell
  ejected := (s.swc d).ejected
  farMods := (s.bridge d.other).mods
  receive m := ((s.bmod d m).awaiting, (s.bmod d m).nextRx, (s.bmod d m).rxAt)
  fails k := (s.nocLink d k).fails
  corrected := (s.noc d).corrected

/-- The state's parts that `steady` is made of. -/
theorem State.steady_congr (hc : (t.swc d).cell = (s.swc d).cell) (he : (t.swc d).ejected = (s.swc d).ejected)
    (hf : (t.bridge d.other).mods = (s.bridge d.other).mods)
    (hr : ∀ m, (t.bmod d m).awaiting = (s.bmod d m).awaiting ∧ (t.bmod d m).nextRx = (s.bmod d m).nextRx ∧
      (t.bmod d m).rxAt = (s.bmod d m).rxAt)
    (hk : ∀ k, (t.nocLink d k).fails = (s.nocLink d k).fails) (hn : (t.noc d).corrected = (s.noc d).corrected) :
    t.steady d = s.steady d := by
  simp only [State.steady, hc, he, hf, hr, hk, hn]

/-- An operation that keeps the unit-passing blocks keeps what is steady in them. -/
theorem State.steady_of_keeps (h : Holds unitBlocks (s.standing unitBlocks) t) : t.steady d = s.steady d := by
  have hs := swc_of_same (h.holds .swc rfl)
  have hb := bridge_of_same (h.holds .bridge rfl)
  have hn := noc_of_same (h.holds .noc rfl)
  simp only [State.steady, State.bmod, State.nocLink, hs, hb, hn]

theorem State.steady_foldl {g : State → α → State} (h : ∀ s x, (g s x).steady d = s.steady d) (l : List α) (s : State) :
    (l.foldl g s).steady d = s.steady d := by
  induction l generalizing s with
  | nil => rfl
  | cons x l ih => rw [List.foldl_cons, ih, h]

theorem State.steady_when (c : Bool) {f : State → State} (h : (f s).steady d = s.steady d) : (s.when c f).steady d = s.steady d := by
  cases c
  · rfl
  · exact h

theorem State.steady_modDie {f : DieState → DieState}
    (h : ∀ x, (f x).swc = x.swc ∧ (f x).bridge.mods = x.bridge.mods ∧ (f x).noc = x.noc := by intro _; exact ⟨rfl, rfl, rfl⟩) :
    (s.modDie e f).steady d = s.steady d := by
  have hs := State.die_modDie_congr (fun x => x.swc) (fun x => (h x).1) s e
  have hb := State.die_modDie_congr (fun x => x.bridge.mods) (fun x => (h x).2.1) s e
  have hn := State.die_modDie_congr (fun x => x.noc) (fun x => (h x).2.2) s e
  simp only [State.steady, State.bmod, State.nocLink, State.swc, State.bridge, State.noc, hs, hb, hn]

theorem State.steady_modSwc {f : Swc → Swc}
    (h : ∀ x, (f x).cell = x.cell ∧ (f x).ejected = x.ejected := by intro _; exact ⟨rfl, rfl⟩) :
    (s.modSwc e f).steady d = s.steady d := by
  have hc := State.die_modDie_congr (fun x => (x.swc.cell, x.swc.ejected)) (f := fun x => { x with swc := f x.swc })
    (fun x => by simp [h]) s e d
  simp only [Prod.mk.injEq] at hc
  simp only [State.steady, State.bmod, State.nocLink, State.bridge_modSwc, State.noc_modSwc]
  simp only [State.swc, State.modSwc, hc]

theorem State.steady_modBridge {f : Bridge → Bridge} (h : ∀ b, (f b).mods = b.mods := by intro _; rfl) :
    (s.modBridge e f).steady d = s.steady d :=
  State.steady_modDie (fun x => ⟨rfl, h x.bridge, rfl⟩)

theorem State.steady_modNoc {f : Noc → Noc}
    (h : ∀ x, (f x).links = x.links ∧ (f x).corrected = x.corrected := by intro _; exact ⟨rfl, rfl⟩) :
    (s.modNoc e f).steady d = s.steady d := by
  have hn := State.die_modDie_congr (fun x => (x.noc.links, x.noc.corrected)) (f := fun x => { x with noc := f x.noc })
    (fun x => by simp [h]) s e d
  simp only [Prod.mk.injEq] at hn
  simp only [State.steady, State.bmod, State.nocLink, State.swc_modNoc, State.bridge_modNoc]
  simp only [State.noc, State.modNoc, hn]

/-! ## Modules and links -/

theorem tget_tput (t : Tbl α) (x y : Nat) (v : α) : tget (tput t x v) y = if y = x then some v else tget t y := by
  split
  · next h => rw [h, tget_tput_same]
  · next h => exact tget_tput_other t v h

theorem tget_tmod (t : Tbl α) (x y : Nat) (f : α → α) : tget (tmod t x f) y = if y = x then (tget t y).map f else tget t y := by
  unfold tmod
  split
  · next v hv =>
    rw [tget_tput]
    split
    · next h => rw [h, hv]; rfl
    · rfl
  · next hv =>
    split
    · next h => rw [h, hv]; rfl
    · rfl

theorem State.nocLink_modNocLink (s : State) (d : Die) (k j : Nat) (f : NocLink → NocLink) :
    (s.modNocLink d k f).nocLink d j = if j = k then f (s.nocLink d j) else s.nocLink d j := by
  simp only [State.nocLink, State.modNocLink, State.noc_modNoc, tget_tput]
  split
  · next h => rw [h]; rfl
  · rfl

theorem State.bmod_modBmod (s : State) (d : Die) (m j : Nat) (f : BMod → BMod) :
    (s.modBmod d m f).bmod d j = if j = m ∧ (tget (s.bridge d).mods j).isSome then f (s.bmod d j) else s.bmod d j := by
  simp only [State.bmod, State.modBmod, State.bridge_modBridge, tget_tmod]
  by_cases h : j = m
  · subst h; cases tget (s.bridge d).mods j <;> simp
  · simp [h]

theorem State.steady_modNocLink {k : Nat} {f : NocLink → NocLink} (h : ∀ l, (f l).fails = l.fails := by intro _; rfl) :
    (s.modNocLink e k f).steady d = s.steady d := by
  have hk (j : Nat) : ((s.modNocLink e k f).nocLink d j).fails = (s.nocLink d j).fails := by
    by_cases he : d = e
    · subst he
      rw [State.nocLink_modNocLink]
      split
      · exact h _
      · rfl
    · simp only [State.nocLink, State.modNocLink, State.noc_modNoc_ne s _ he]
  have hn : ((s.modNocLink e k f).noc d).corrected = (s.noc d).corrected := by
    by_cases he : d = e
    · subst he; simp [State.modNocLink]
    · rw [State.modNocLink, State.noc_modNoc_ne s _ he]
  simp only [State.steady, hk, hn]
  simp only [State.modNocLink, State.bmod, State.swc_modNoc, State.bridge_modNoc]

theorem State.steady_modBmod {m : Nat} {f : BMod → BMod}
    (h : ∀ x, (f x).awaiting = x.awaiting ∧ (f x).nextRx = x.nextRx ∧ (f x).rxAt = x.rxAt := by
      intro _; exact ⟨rfl, rfl, rfl⟩) :
    (s.modBmod d m f).steady d = s.steady d := by
  refine State.steady_congr ?_ ?_ (congrArg Bridge.mods (s.bridge_modBridge_other d _)) (fun j => ?_) (fun j => ?_) ?_
  case refine_3 =>
    rw [State.bmod_modBmod]
    split
    · exact h _
    · exact ⟨rfl, rfl, rfl⟩
  all_goals simp only [State.modBmod, State.nocLink, State.swc_modBridge, State.noc_modBridge]

/-! ## Storage and credits (R422 to R426) -/

@[simp] theorem Swc.setIns_cell (x : Swc) (k : Nat) (l : List InPkt) : (x.setIns k l).cell = x.cell := rfl
@[simp] theorem Swc.setIns_ejected (x : Swc) (k : Nat) (l : List InPkt) : (x.setIns k l).ejected = x.ejected := rfl
@[simp] theorem Swc.setStage_cell (x : Swc) (k : Nat) (l : List OUnit) : (x.setStage k l).cell = x.cell := rfl

/-- A change of the register fields alone. -/
theorem State.steady_event (s : State) (e : Die) (n : Nat) (p : Option Nat) : (s.event e n p).steady d = s.steady d :=
  State.steady_of_keeps (State.event_keeps s e n p (s.holds_standing _) rfl)

theorem State.steady_bump (s : State) (e : Die) (f : Fld) : (s.bump e f).steady d = s.steady d := rfl
theorem State.steady_wr (s : State) (e : Die) (f : Fld) (v : Nat) : (s.wr e f v).steady d = s.steady d := rfl

theorem State.steady_basinMoved (s : State) (e : Die) (n : Nat) : (s.basinMoved e n).steady d = s.steady d :=
  State.steady_of_keeps (State.basinMoved_keeps s e n (s.holds_standing _) rfl rfl)

theorem State.steady_creditBack (s : State) (e : Die) (port : Nat) (vc : Option Nat) : (s.creditBack e port vc).steady d = s.steady d := by
  unfold State.creditBack
  split
  · exact State.steady_modSwc (fun x => by cases vc <;> exact ⟨rfl, rfl⟩)
  · split
    · exact State.steady_modDie
    · exact (State.steady_wr ..).trans State.steady_modDie

theorem State.steady_reserve (s : State) (e : Die) (port : Nat) : (s.reserve e port).steady d = s.steady d :=
  (State.steady_creditBack ..).trans State.steady_modSwc

theorem State.steady_regrant (s : State) (e : Die) (port n : Nat) : (s.regrant e port n).steady d = s.steady d := by
  unfold State.regrant
  split
  · exact State.steady_reserve ..
  · exact Eq.trans State.steady_modSwc (State.steady_event ..)

theorem State.steady_serveWithheld (e : Die) (l : List (Nat × Nat)) (s : State) : (State.serveWithheld e l s).steady d = s.steady d := by
  induction l generalizing s with
  | nil => rfl
  | cons p l ih =>
    rw [State.serveWithheld, ih]
    split
    · exact (State.steady_reserve ..).trans State.steady_modSwc
    · rfl

theorem State.steady_unitOut (s : State) (e : Die) (k j : Nat) : (s.unitOut e k j).steady d = s.steady d := by
  unfold State.unitOut
  dsimp only
  split
  · rfl
  · refine (State.steady_basinMoved ..).trans ((State.steady_serveWithheld ..).trans ?_)
    split
    · exact (State.steady_creditBack ..).trans State.steady_modSwc
    · exact State.steady_modSwc

theorem State.steady_consume (e : Die) (k n : Nat) (s : State) : (State.consume e k n s).steady d = s.steady d := by
  induction n generalizing s with
  | zero => rfl
  | succ n ih =>
    rw [State.consume]
    split
    · rw [ih, State.steady_unitOut]
    · rfl

theorem State.steady_headerDrop (s : State) (e : Die) (port : Nat) (p : Pkt) : (s.headerDrop e port p).1.steady d = s.steady d :=
  State.steady_of_keeps (State.headerDrop_keeps s e port p (s.holds_standing _) rfl)

/-- A unit's header, where it is one, is counted and may be dropped: the first part of `unitIn`. -/
def State.headIn (s : State) (d : Die) (k : Nat) (u : OUnit) : State × Bool :=
  let new := nextIsHead ((s.swc d).inList k)
  let s := if new then s.countBy d (PCU.PORT_CTR.COUNT (4 * xpIdx (k / 32) + 1)) (pktBytes (pktOfHdr u.bytes)) else s
  if new then s.headerDrop d (k / 32) (pktOfHdr u.bytes) else (s, false)

/-- A unit is stored and its credit goes back or is granted again: the second part of `unitIn`, for a list of packets with the unit in the
basin or not. -/
def State.storeUnit (s : State) (d : Die) (k : Nat) (u : OUnit) (l : Bool → List InPkt) : State :=
  if u.shared then
    (s.modSwc d (fun x => { x.setIns k (l true) with
      reserved := x.reserved - 1, resv := nput x.resv (k / 32) (nget x.resv (k / 32) - 1) })).regrant d (k / 32) (keyVn k)
  else if s.basinRoom d (keyVn k) then (s.modSwc d (fun x => x.setIns k (l true))).creditBack d (k / 32) (some (k % 32))
  else s.modSwc d (fun x => x.setIns k (l false))

theorem State.unitIn_eq (s : State) (d : Die) (k : Nat) (u : OUnit) : s.unitIn d k u =
    (((s.headIn d k u).1.storeUnit d k u (takeUnit ((s.swc d).inList k) u (s.headIn d k u).2 (s.headIn d k u).1.now)).basinMoved d
      (keyVn k)).consumeAll d k := rfl

theorem State.steady_headIn (s : State) (e : Die) (k : Nat) (u : OUnit) : (s.headIn e k u).1.steady d = s.steady d := by
  unfold State.headIn
  dsimp only
  split
  · exact State.steady_headerDrop ..
  · rfl

theorem State.steady_storeUnit (s : State) (e : Die) (k : Nat) (u : OUnit) (l : Bool → List InPkt) :
    (s.storeUnit e k u l).steady d = s.steady d := by
  unfold State.storeUnit
  split
  · exact (State.steady_regrant ..).trans State.steady_modSwc
  · split
    · exact (State.steady_creditBack ..).trans State.steady_modSwc
    · exact State.steady_modSwc

theorem State.steady_unitIn (s : State) (e : Die) (k : Nat) (u : OUnit) : (s.unitIn e k u).steady d = s.steady d := by
  rw [State.unitIn_eq, State.consumeAll, State.steady_consume, State.steady_basinMoved, State.steady_storeUnit, State.steady_headIn]

theorem State.steady_takeCredit {port vc : Nat} {b : Bool} (h : s.takeCredit e port vc = some (t, b)) : t.steady d = s.steady d := by
  unfold State.takeCredit at h
  simp only at h
  split at h
  · cases h; exact State.steady_modSwc
  · split at h
    · cases h; exact State.steady_modSwc
    · cases h

theorem State.steady_pump (e : Die) (k n : Nat) (s : State) : (State.pump e k n s).steady d = s.steady d := by
  induction n generalizing s with
  | zero => rfl
  | succ n ih =>
    rw [State.pump]
    split
    · rfl
    · split
      · rfl
      · next t b h =>
        rw [ih, State.steady_unitIn]
        exact (State.steady_modDie (f := fun x => { x with sluice := _ })).trans (State.steady_takeCredit h)

theorem State.steady_pumpAll (s : State) (e : Die) : (s.pumpAll e).steady d = s.steady d :=
  State.steady_foldl (fun _ _ => State.steady_pump ..) _ _

/-! ## The bridge (R18 to R22) -/

theorem State.steady_owedNext (s : State) (e : Die) : (s.owedNext e).1.steady d = s.steady d := by
  unfold State.owedNext
  split
  · rfl
  · exact State.steady_modBridge

theorem State.steady_sendBFlit (s : State) (d : Die) (m : Nat) (units : List BUnit) : (s.sendBFlit d m units).steady d = s.steady d := by
  unfold State.sendBFlit
  exact (State.steady_when _ State.steady_modBridge).trans (Eq.trans State.steady_modBmod (State.steady_owedNext ..))

theorem State.steady_takeStaged (e : Die) (l : List Nat) (n : Nat) (s : State) : (State.takeStaged e l n s).1.steady d = s.steady d := by
  induction l generalizing n s with
  | nil => rfl
  | cons p l ih =>
    rw [State.takeStaged]
    exact (ih ..).trans State.steady_modSwc

theorem State.steady_takeNoc (s : State) (e : Die) (n : Nat) : (s.takeNoc e n).1.steady d = s.steady d := by
  unfold State.takeNoc
  exact State.steady_modBridge

theorem State.steady_bridgeSend (d : Die) (n : Nat) (s : State) : (State.bridgeSend d n s).steady d = s.steady d := by
  induction n generalizing s with
  | zero => rfl
  | succ n ih =>
    rw [State.bridgeSend]
    split
    · rfl
    · dsimp only
      have taken (l : List Nat) (n : Nat) : ((State.takeStaged d l 4 s).1.takeNoc d n).1.steady d = s.steady d :=
        (State.steady_takeNoc ..).trans (State.steady_takeStaged ..)
      split
      · exact taken ..
      · rw [ih]
        exact Eq.trans State.steady_modBridge ((State.steady_sendBFlit ..).trans (taken ..))

theorem State.steady_sendIdle (s : State) (d : Die) (m : Nat) : (s.sendIdle d m).steady d = s.steady d := by
  unfold State.sendIdle
  split
  · exact State.steady_sendBFlit ..
  · rfl

theorem State.steady_bridgeTx (s : State) (d : Die) : (s.bridgeTx d).steady d = s.steady d := by
  have due (m : Nat) (s : State) : (if (s.bmod d m).ackDue || (s.bmod d m).awaiting then s.sendIdle d m else s).steady d = s.steady d := by
    split
    · exact State.steady_sendIdle ..
    · rfl
  unfold State.bridgeTx
  dsimp only
  split
  · refine (State.steady_foldl (fun s _ => State.steady_sendIdle s d _) _ _).trans ?_
    exact (State.steady_foldl (fun s m => due m s) _ _).trans (State.steady_bridgeSend ..)
  · exact (State.steady_foldl (fun s m => due m s) _ _).trans (State.steady_bridgeSend ..)

theorem State.steady_nocFromBridge (s : State) (e : Die) (cls : Nat) (bytes : List Byte) :
    (s.nocFromBridge e cls bytes).steady d = s.steady d := by
  unfold State.nocFromBridge
  split
  · exact State.steady_modBridge
  · exact Eq.trans State.steady_modNocLink State.steady_modBridge

theorem State.steady_bunitIn (s : State) (e : Die) (u : BUnit) : (s.bunitIn e u).steady d = s.steady d := by
  cases u with
  | switch p u => exact State.steady_unitIn ..
  | noc cls bytes => exact State.steady_nocFromBridge ..

theorem State.steady_resequence (e : Die) (n : Nat) (s : State) : (State.resequence e n s).steady d = s.steady d := by
  induction n generalizing s with
  | zero => rfl
  | succ n ih =>
    rw [State.resequence]
    split
    · rfl
    · rw [ih]
      exact (State.steady_foldl (fun s u => State.steady_bunitIn s e u) _ _).trans State.steady_modBridge

theorem State.steady_creditIn (s : State) (e : Die) (k n : Nat) : (s.creditIn e k n).steady d = s.steady d := by
  unfold State.creditIn
  split
  · exact State.steady_modSwc
  · split
    · exact State.steady_modBridge
    · exact State.steady_modSwc

theorem State.steady_replayBmod (s : State) (d : Die) (m : Nat) : (s.replayBmod d m).steady d = s.steady d := State.steady_modBmod

theorem State.steady_bflitFields (s : State) (d : Die) (m : Nat) (f : BFlit) : (s.bflitFields d m f).steady d = s.steady d := by
  unfold State.bflitFields
  refine (State.steady_when _ (State.steady_replayBmod ..)).trans ?_
  have credit : (match f.credit with | some (k, n) => s.creditIn d k n | none => s).steady d = s.steady d := by
    split
    · exact State.steady_creditIn ..
    · rfl
  split
  · exact Eq.trans State.steady_modBmod credit
  · exact credit

/-! ## Power (17_power.md R529, R536, R538) -/

theorem State.steady_modDom (s : State) (e : Die) (i : Nat) (f : Dom → Dom) : (s.modDom e i f).steady d = s.steady d :=
  State.steady_modDie

theorem State.steady_abandonFence (s : State) (e : Die) (i : Nat) (c : Fld) : (s.abandonFence e i c).steady d = s.steady d := by
  have enter (s : State) : (s.domEnter e i 0).steady d = s.steady d :=
    State.steady_of_keeps (State.domEnter_keeps s e i 0 (s.holds_standing _) rfl rfl rfl rfl)
  exact (State.steady_modDom ..).trans ((enter _).trans State.steady_modNoc)

theorem State.steady_wake (s : State) (e : Die) (i : Nat) : (s.wake e i).steady d = s.steady d := by
  unfold State.wake
  split
  · rfl
  · split
    · split
      · rfl
      · exact State.steady_abandonFence ..
    · split
      · exact State.steady_modDom ..
      · exact State.steady_of_keeps (State.beginWake_keeps s e i (s.holds_standing _) rfl)

/-! ## The NoC (R24 to R30) -/

theorem State.steady_nocOff (s : State) (e : Die) (stop : Nat) (u : NocUnit) : (s.nocOff e stop u).steady d = s.steady d := by
  unfold State.nocOff
  split
  · exact (State.steady_when _ State.steady_modNocLink).trans (State.steady_bump ..)
  · rfl

theorem State.steady_holdUnit (s : State) (e : Die) (stop i : Nat) (u : NocUnit) : (s.holdUnit e stop i u).steady d = s.steady d := by
  have count (s : State) : (s.countHeld e).steady d = s.steady d := (State.steady_event ..).trans (State.steady_bump ..)
  exact (State.steady_wake ..).trans ((State.steady_when _ (count _)).trans State.steady_modNoc)

theorem State.steady_nocArrive (s : State) (e : Die) (stop : Nat) (u : NocUnit) : (s.nocArrive e stop u).1.steady d = s.steady d := by
  unfold State.nocArrive
  split
  · rfl
  · split
    · exact State.steady_nocOff ..
    · split
      · rfl
      · split
        · split
          · exact State.steady_wake ..
          · exact State.steady_holdUnit ..
        · exact State.steady_wake ..

theorem State.steady_nocCross (s : State) (e : Die) (u : NocUnit) : (s.nocCross e u).steady d = s.steady d := by
  unfold State.nocCross
  dsimp only
  split
  · split
    · exact (State.steady_foldl (fun s b => State.steady_nocFromBridge ..) _ _).trans (Eq.trans State.steady_modNoc State.steady_modNoc)
    · exact Eq.trans State.steady_modBridge (Eq.trans State.steady_modNoc State.steady_modNoc)
  · exact State.steady_modNoc

theorem State.steady_nocForward (s : State) (e : Die) (stop : Nat) (u : NocUnit) : (s.nocForward e stop u).1.steady d = s.steady d := by
  unfold State.nocForward
  dsimp only
  split
  · split
    · exact State.steady_nocArrive ..
    · split
      · exact State.steady_nocCross ..
      · exact State.steady_wake ..
  · split
    · exact (State.steady_event ..).trans State.steady_modNocLink
    · rfl

theorem State.steady_nocDrain (e : Die) (stop : Nat) (l : List NocUnit) (stuck : List Nat) (s : State) :
    (State.nocDrain e stop l stuck s).1.steady d = s.steady d := by
  induction l generalizing stuck s with
  | nil => rfl
  | cons u l ih =>
    rw [State.nocDrain]
    dsimp only
    split
    · exact ih ..
    · exact (ih ..).trans (State.steady_nocForward ..)

theorem State.steady_nocInput (s : State) (e : Die) (k : Nat) : (s.nocInput e k).steady d = s.steady d := by
  have credit (s : State) (c n : Nat) :
      (if n = 0 then s else s.modBridge e (fun b => { b with owed := nadd b.owed (nocCh c) n })).steady d = s.steady d := by
    split
    · rfl
    · exact State.steady_modBridge
  unfold State.nocInput
  dsimp only
  split
  · rfl
  · split
    · refine (State.steady_foldl (fun s c => credit s c _) _ _).trans ?_
      exact Eq.trans State.steady_modNocLink ((State.steady_nocDrain ..).trans State.steady_modNocLink)
    · exact Eq.trans State.steady_modNocLink ((State.steady_nocDrain ..).trans State.steady_modNocLink)

theorem State.steady_nocMove (s : State) (d : Die) : (s.nocMove d).steady d = s.steady d :=
  (State.steady_bridgeTx ..).trans (State.steady_foldl (fun s k => State.steady_nocInput s d k) _ _)

end Sys2Proof.Machine
end

section
/-! PACKET_EJECTED (for O52): the oldest ejected packet goes to the unit that its command names, or is dropped and counted. -/

namespace Sys2Proof.Machine

variable {s t : State} {d e : Die}

/-! ## Ejection (04_polders.md R107) -/

theorem State.rd_bump_same (s : State) (d : Die) (f : Fld) (h : tblWf s.regs = true) :
    (s.bump d f).rd d f = min (s.rd d f + 1) (2 ^ f.w - 1) := by
  have := Nat.two_pow_pos f.w
  rw [State.bump, State.bumpBy, State.rd_wr_same _ _ _ _ h, Nat.mod_eq_of_lt (by omega)]

/-- The counters that the tests of R107 name stand below LAST_DROP. -/
theorem ejectTest_counter {p : Pkt} {st n : Nat} {c : Fld} (h : s.ejectTest d p = .reject st c n ∨ s.ejectTest d p = .drop c n) :
    c.off < DIKE.LAST_DROP.REASON.off ∧ c.lo = 0 := by
  unfold State.ejectTest at h
  dsimp only at h
  rcases h with h | h
  all_goals repeat' split at h
  all_goals cases h
  all_goals decide

/-- Fields of different registers of a die do not meet. -/
theorem fkey_ne_of_off (d : Die) {f g : Fld} (h : f.off ≠ g.off) (hf : f.lo < 64) (hg : g.lo < 64) : fkey d f ≠ fkey d g := by
  unfold fkey; omega

/-- Fields at different bits of their registers do not meet. -/
theorem fkey_ne_of_lo (d e : Die) {f g : Fld} (h : f.lo ≠ g.lo) (hf : f.lo < 64) (hg : g.lo < 64) : fkey d f ≠ fkey e g := by
  unfold fkey; omega

theorem State.ejectDrop_eq (s : State) (d : Die) (p : Pkt) (c : Fld) (n : Nat) : s.ejectDrop d p c n =
    (((s.bump d c).wr d DIKE.LAST_DROP.POLDER p.polder).wr d DIKE.LAST_DROP.REASON n).wr d DIKE.LAST_DROP.SRC_FEA p.src := rfl

theorem State.bump_wf (s : State) (d : Die) (f : Fld) (h : tblWf s.regs = true) : tblWf (s.bump d f).regs = true :=
  State.wr_wf _ _ _ _ h

theorem State.rd_ejectDrop_counter (s : State) (d : Die) (p : Pkt) {c : Fld} (n : Nat) (h : tblWf s.regs = true)
    (hc : c.off < DIKE.LAST_DROP.REASON.off ∧ c.lo = 0) : (s.ejectDrop d p c n).rd d c = min (s.rd d c + 1) (2 ^ c.w - 1) := by
  obtain ⟨hoff, hlo⟩ := hc
  have ne {g : Fld} (hg : g.off = DIKE.LAST_DROP.REASON.off) (hg' : g.lo < 64) : fkey d c ≠ fkey d g :=
    fkey_ne_of_off d (by omega) (by omega) hg'
  have h1 := State.wr_wf _ d DIKE.LAST_DROP.POLDER p.polder (s.bump_wf d c h)
  have h2 := State.wr_wf _ d DIKE.LAST_DROP.REASON n h1
  rw [State.ejectDrop_eq, State.rd_wr_other (f := DIKE.LAST_DROP.SRC_FEA) _ _ h2 (ne rfl (by decide)),
    State.rd_wr_other (f := DIKE.LAST_DROP.REASON) _ _ h1 (ne rfl (by decide)),
    State.rd_wr_other (f := DIKE.LAST_DROP.POLDER) _ _ (s.bump_wf d c h) (ne rfl (by decide)), State.rd_bump_same s d c h]

theorem State.rd_ejectDrop_reason (s : State) (d : Die) (p : Pkt) (c : Fld) (n : Nat) (h : tblWf s.regs = true) :
    (s.ejectDrop d p c n).rd d DIKE.LAST_DROP.REASON = n % 2 ^ DIKE.LAST_DROP.REASON.w := by
  have h1 := State.wr_wf _ d DIKE.LAST_DROP.POLDER p.polder (s.bump_wf d c h)
  have h2 := State.wr_wf _ d DIKE.LAST_DROP.REASON n h1
  rw [State.ejectDrop_eq, State.rd_wr_other _ _ h2 (fkey_ne_of_lo d d (by decide) (by decide) (by decide)), State.rd_wr_same _ _ _ _ h1]

@[simp] theorem State.ejectDrop_dies (s : State) (d : Die) (p : Pkt) (c : Fld) (n : Nat) : (s.ejectDrop d p c n).dies = s.dies := rfl

@[simp] theorem State.polderCount_dies (s : State) (d : Die) (id m n : Nat) : (s.polderCount d id m n).dies = s.dies := by
  unfold State.polderCount
  split <;> rfl

theorem State.swc_of_dies (h : t.dies = s.dies) (d : Die) : t.swc d = s.swc d := by simp only [State.swc, State.die, h]
theorem State.tru_of_dies (h : t.dies = s.dies) (d : Die) : t.tru d = s.tru d := by simp only [State.tru, State.die, h]

@[simp] theorem State.tru_modSwc (s : State) (e d : Die) (f : Swc → Swc) : (s.modSwc e f).tru d = s.tru d := by
  cases e <;> cases d <;> rfl
@[simp] theorem State.rtb_modSwc (s : State) (e d : Die) (f : Swc → Swc) : (s.modSwc e f).rtb d = s.rtb d := by
  cases e <;> cases d <;> rfl
@[simp] theorem State.swc_modTru (s : State) (e d : Die) (f : Tru → Tru) : (s.modTru e f).swc d = s.swc d := by
  cases e <;> cases d <;> rfl
@[simp] theorem State.swc_modRtb (s : State) (e d : Die) (f : Rtb → Rtb) : (s.modRtb e f).swc d = s.swc d := by
  cases e <;> cases d <;> rfl
@[simp] theorem State.tru_modTru (s : State) (d : Die) (f : Tru → Tru) : (s.modTru d f).tru d = f (s.tru d) := by
  simp [State.tru, State.modTru]
@[simp] theorem State.rtb_modRtb (s : State) (d : Die) (f : Rtb → Rtb) : (s.modRtb d f).rtb d = f (s.rtb d) := by
  simp [State.rtb, State.modRtb]

@[simp] theorem State.rd_toTru (s : State) (d e : Die) (p : Pkt) (r : Option Nat) (f : Fld) : (s.toTru d p r).rd e f = s.rd e f := rfl

/-- The oldest ejected packet is taken off. -/
def State.popEjected (s : State) (d : Die) (l : List (Nat × Pkt × Nat)) : State := s.modSwc d (fun x => { x with ejected := l })

@[simp] theorem State.ejected_popEjected (s : State) (d : Die) (l : List (Nat × Pkt × Nat)) :
    ((s.popEjected d l).swc d).ejected = l := by simp [State.popEjected]
@[simp] theorem State.tru_popEjected (s : State) (d : Die) (l : List (Nat × Pkt × Nat)) : (s.popEjected d l).tru d = s.tru d := by
  simp [State.popEjected]
@[simp] theorem State.rtb_popEjected (s : State) (d : Die) (l : List (Nat × Pkt × Nat)) : (s.popEjected d l).rtb d = s.rtb d := by
  simp [State.popEjected]
@[simp] theorem State.staleCheck_popEjected (s : State) (d e : Die) (l : List (Nat × Pkt × Nat)) (k : Nat) :
    (s.popEjected d l).staleCheck e k = s.staleCheck e k := by cases d <;> cases e <;> rfl
@[simp] theorem State.ejectTest_popEjected (s : State) (d e : Die) (l : List (Nat × Pkt × Nat)) (p : Pkt) :
    (s.popEjected d l).ejectTest e p = s.ejectTest e p := by cases d <;> cases e <;> rfl

/-- What becomes of a sequenced packet by the outcome of the tests of R107. -/
def State.ejectedAs (s : State) (d : Die) (p : Pkt) : Ejected → State
  | .pass => ((s.polderCount d p.polder 2 1).polderCount d p.polder 3 (pktBytes p)).toTru d p none
  | .reject st c reason => (s.ejectDrop d p c reason).toTru d p (some st)
  | .drop c reason => s.ejectDrop d p c reason

/-- A packet that passes its check goes to the unit that its command names, a sequenced one through the tests of R107. -/
def State.takeEjected (s : State) (d : Die) (k : Nat) (p : Pkt) (since : Nat) : State :=
  if p.command = cMGT_MSG then s.mgtIn d p since
  else if p.command = cGROUP_STATUS then s.modRtb d (fun r => { r with inbox := r.inbox ++ [p] })
  else if isControl p.command then s.modTru d (fun t => { t with ctlIn := t.ctlIn ++ [p] })
  else if s.staleCheck d (k - 64) then s
  else s.ejectedAs d p (s.ejectTest d p)

theorem execPacketEjected_cons {k since : Nat} {p : Pkt} {l : List (Nat × Pkt × Nat)} (h : (s.swc d).ejected = (k, p, since) :: l) :
    execPacketEjected d s = .next (if p.badHdr || (p.badData && !p.srcPoison) || !assigned p.command then
      (s.popEjected d l).bump d SWC.FORMAT_DROPS.COUNT else (s.popEjected d l).takeEjected d k p since) := by
  simp only [execPacketEjected, h]
  rfl

/-- The command of a sequenced packet is no other unit's. -/
theorem State.takeEjected_sequenced {k since : Nat} {p : Pkt} (hc : 0x10 ≤ p.command) :
    s.takeEjected d k p since = if s.staleCheck d (k - 64) then s else s.ejectedAs d p (s.ejectTest d p) := by
  have hm : p.command ≠ cMGT_MSG := fun e => absurd (e ▸ hc) (by decide)
  have hg : p.command ≠ cGROUP_STATUS := fun e => absurd (e ▸ hc) (by decide)
  have hi : ¬ isControl p.command = true := by simp [isControl]; omega
  rw [State.takeEjected, if_neg hm, if_neg hg, if_neg hi]

theorem State.takeEjected_groupStatus {k since : Nat} {p : Pkt} (hc : p.command = cGROUP_STATUS) :
    s.takeEjected d k p since = s.modRtb d (fun r => { r with inbox := r.inbox ++ [p] }) := by
  rw [State.takeEjected, if_neg (hc ▸ by decide), if_pos hc]

theorem State.takeEjected_control {k since : Nat} {p : Pkt} (hc : isControl p.command = true) :
    s.takeEjected d k p since = s.modTru d (fun t => { t with ctlIn := t.ctlIn ++ [p] }) := by
  have hm : p.command ≠ cMGT_MSG := fun e => absurd (e ▸ hc) (by decide)
  have hg : p.command ≠ cGROUP_STATUS := fun e => absurd (e ▸ hc) (by decide)
  rw [State.takeEjected, if_neg hm, if_neg hg, if_pos hc]

/-! ### What PACKET_EJECTED does -/

section
variable {k since : Nat} {p : Pkt} {l : List (Nat × Pkt × Nat)} (h : (s.swc d).ejected = (k, p, since) :: l)
include h

/-- A packet with a bad header, or whose command is not assigned, is dropped and counted. -/
theorem packetEjected_format (hs : tblWf s.regs = true) (hp : p.badHdr = true ∨ assigned p.command = false) :
    Runs (.packetEjected d) s (fun t => (t.swc d).ejected = l ∧
      t.rd d SWC.FORMAT_DROPS.COUNT = min (s.rd d SWC.FORMAT_DROPS.COUNT + 1) (2 ^ SWC.FORMAT_DROPS.COUNT.w - 1) ∧
      t.tru d = s.tru d) := by
  have bad : (p.badHdr || (p.badData && !p.srcPoison) || !assigned p.command) = true := by rcases hp with hp | hp <;> simp [hp]
  exact ⟨(s.popEjected d l).bump d SWC.FORMAT_DROPS.COUNT, (execPacketEjected_cons h).trans (by rw [if_pos bad]),
    s.ejected_popEjected d l, (s.popEjected d l).rd_bump_same d _ hs, s.tru_popEjected d l⟩

variable (hh : p.badHdr = false) (hd : p.badData = false ∨ p.srcPoison = true) (ha : assigned p.command = true)
include hh hd ha

theorem packetEjected_good {Q : State → Prop} (hq : Q ((s.popEjected d l).takeEjected d k p since)) : Runs (.packetEjected d) s Q := by
  have good : ¬ (p.badHdr || (p.badData && !p.srcPoison) || !assigned p.command) = true := by
    rcases hd with hd | hd <;> simp [hh, hd, ha]
  exact ⟨_, (execPacketEjected_cons h).trans (by rw [if_neg good]), hq⟩

theorem packetEjected_groupStatus (hc : p.command = cGROUP_STATUS) : Runs (.packetEjected d) s (fun t =>
    (t.swc d).ejected = l ∧ (t.rtb d).inbox = (s.rtb d).inbox ++ [p]) := by
  apply packetEjected_good h hh hd ha
  rw [State.takeEjected_groupStatus hc]
  simp

theorem packetEjected_control (hc : isControl p.command = true) : Runs (.packetEjected d) s (fun t =>
    (t.swc d).ejected = l ∧ (t.tru d).ctlIn = (s.tru d).ctlIn ++ [p]) := by
  apply packetEjected_good h hh hd ha
  rw [State.takeEjected_control hc]
  simp

variable (hc : 0x10 ≤ p.command)
include hc

theorem packetEjected_stale (hs : s.staleCheck d (k - 64) = true) : Runs (.packetEjected d) s (fun t =>
    (t.swc d).ejected = l ∧ t.tru d = s.tru d) := by
  apply packetEjected_good h hh hd ha
  rw [State.takeEjected_sequenced hc, State.staleCheck_popEjected, hs]
  simp

variable (hs : s.staleCheck d (k - 64) = false)
include hs

theorem packetEjected_tested {Q : State → Prop} (hq : Q ((s.popEjected d l).ejectedAs d p (s.ejectTest d p))) :
    Runs (.packetEjected d) s Q := by
  apply packetEjected_good h hh hd ha
  rwa [State.takeEjected_sequenced hc, State.staleCheck_popEjected, State.ejectTest_popEjected, if_neg (by simp [hs])]

theorem packetEjected_pass (ht : s.ejectTest d p = .pass) : Runs (.packetEjected d) s (fun t =>
    (t.swc d).ejected = l ∧ (t.tru d).inbox = (s.tru d).inbox ++ [⟨p, none⟩]) := by
  apply packetEjected_tested h hh hd ha hc hs
  simp [ht, State.ejectedAs, State.toTru, State.swc_of_dies (State.polderCount_dies ..), State.tru_of_dies (State.polderCount_dies ..)]

variable (hw : tblWf s.regs = true)
include hw

theorem packetEjected_reject {st n : Nat} {c : Fld} (ht : s.ejectTest d p = .reject st c n) :
    Runs (.packetEjected d) s (fun t => (t.swc d).ejected = l ∧ (t.tru d).inbox = (s.tru d).inbox ++ [⟨p, some st⟩] ∧
      t.rd d c = min (s.rd d c + 1) (2 ^ c.w - 1) ∧ t.rd d DIKE.LAST_DROP.REASON = n % 2 ^ DIKE.LAST_DROP.REASON.w) := by
  apply packetEjected_tested h hh hd ha hc hs
  have hc' := State.rd_ejectDrop_counter (s.popEjected d l) d p n hw (ejectTest_counter (.inl ht))
  have hr := State.rd_ejectDrop_reason (s.popEjected d l) d p c n hw
  rw [ht, State.ejectedAs]
  refine ⟨?_, ?_, (State.rd_toTru ..).trans hc', (State.rd_toTru ..).trans hr⟩
  · simp [State.toTru, State.swc_of_dies (State.ejectDrop_dies ..)]
  · simp [State.toTru, State.tru_of_dies (State.ejectDrop_dies ..)]

theorem packetEjected_drop {n : Nat} {c : Fld} (ht : s.ejectTest d p = .drop c n) :
    Runs (.packetEjected d) s (fun t => (t.swc d).ejected = l ∧ t.tru d = s.tru d ∧
      t.rd d c = min (s.rd d c + 1) (2 ^ c.w - 1) ∧ t.rd d DIKE.LAST_DROP.REASON = n % 2 ^ DIKE.LAST_DROP.REASON.w) := by
  apply packetEjected_tested h hh hd ha hc hs
  rw [ht]
  exact ⟨s.ejected_popEjected d l, s.tru_popEjected d l,
    State.rd_ejectDrop_counter _ d p n hw (ejectTest_counter (st := 0) (.inr ht)), State.rd_ejectDrop_reason _ d p c n hw⟩

end

end Sys2Proof.Machine
end

section
/-! The die bridge (for O52): a flit that arrives, and the retrains of a module. -/

namespace Sys2Proof.Machine

variable {s t : State} {d e : Die}

/-! ## BRIDGE_FLIT_RECEIVED (R20, R21) -/

theorem die_ne_other (d : Die) : d ≠ d.other := by cases d <;> decide
theorem die_other_ne (d : Die) : d.other ≠ d := by cases d <;> decide

theorem State.bmod_modBmod_ne (s : State) (m j : Nat) (f : BMod → BMod) (h : d ≠ e) : (s.modBmod e m f).bmod d j = s.bmod d j :=
  congrArg (fun x : DieState => (tget x.bridge.mods j).getD _) (State.die_modDie_ne s _ h)

theorem State.bmod_modBmod_same (s : State) {d : Die} {m : Nat} {x : BMod} (f : BMod → BMod) (h : tget (s.bridge d).mods m = some x) :
    (s.modBmod d m f).bmod d m = f x := by
  rw [State.bmod_modBmod, if_pos ⟨rfl, by simp [h]⟩, State.bmod, h, Option.getD_some]

/-- What a steady change leaves of a module's two ends. -/
theorem State.bmod_of_steady (h : t.steady d = s.steady d) (m : Nat) : t.bmod d.other m = s.bmod d.other m ∧
    (t.bmod d m).awaiting = (s.bmod d m).awaiting ∧ (t.bmod d m).nextRx = (s.bmod d m).nextRx ∧ (t.bmod d m).rxAt = (s.bmod d m).rxAt := by
  have hf : (t.bridge d.other).mods = (s.bridge d.other).mods := congrArg Steady.farMods h
  have hr := congrFun (congrArg Steady.receive h) m
  simp only [State.steady, Prod.mk.injEq] at hr
  exact ⟨by simp only [State.bmod, hf], hr⟩

/-- A module of which something is on its way is there. -/
theorem State.mods_of_wire {m : Nat} {f : BFlit} {l : List BFlit} (h : (s.bmod d m).wire = f :: l) :
    ∃ y, tget (s.bridge d).mods m = some y := by
  cases hy : tget (s.bridge d).mods m with
  | some y => exact ⟨y, rfl⟩
  | none => simp [State.bmod, hy, bmod0] at h

/-- What a module notes of the flit that has come. -/
def BMod.seen (now : Nat) (f : BFlit) (good : Bool) (x : BMod) : BMod :=
  if good then { x with rxAt := now, awaiting := false, nextRx := (x.nextRx + 1) % 65536, gotData := true,
                        ackDue := x.ackDue || !f.idle || f.credit.isSome }
  else { x with awaiting := true, fails := if x.awaiting then x.fails else x.fails ++ [now] }

/-- The flit goes off the wire and is noted at its module; what else happens to it is steady. -/
theorem State.steady_bflitIn {m : Nat} {x : BMod} {f : BFlit} {l : List BFlit} {err : List (Nat × Byte)} (hx : s.bmod d m = x)
    (hw : (s.bmod d.other m).wire = f :: l) :
    (s.bflitIn d m err).steady d = ((s.modBmod d.other m (fun x => { x with wire := l })).modBmod d m
      (BMod.seen s.now f (bflitGood (changed f.bytes err) x.nextRx))).steady d := by
  have hx' : (s.modBmod d.other m (fun x => { x with wire := l })).bmod d m = x :=
    (State.bmod_modBmod_ne _ _ _ _ (die_ne_other d)).trans hx
  unfold State.bflitIn
  rw [hw]
  dsimp only
  rw [hx']
  cases bflitGood (changed f.bytes err) x.nextRx with
  | true =>
    rw [if_pos rfl]
    split
    · exact State.steady_bflitFields ..
    · exact (State.steady_resequence ..).trans (Eq.trans State.steady_modBridge (State.steady_bflitFields ..))
  | false => rfl

/-- The flit is off the wire; a good one is counted as taken, any other awaits replay. -/
theorem bridgeFlitReceived_runs (m : Fin 16) {x : BMod} {f : BFlit} {l : List BFlit} (err : List (Fin 272 × Byte))
    (hx : tget (s.bridge d).mods m.val = some x) (hw : (s.bmod d.other m.val).wire = f :: l) :
    let good := bflitGood (changed f.bytes (err.map (fun e => (e.1.val, e.2)))) x.nextRx
    Runs (.bridgeFlitReceived d m err) s (fun t => (t.bmod d.other m.val).wire = l ∧ (t.bmod d m.val).awaiting = !good ∧
      (t.bmod d m.val).nextRx = (if good then (x.nextRx + 1) % 65536 else x.nextRx) ∧ (good = true → (t.bmod d m.val).rxAt = s.now)) := by
  intro good
  have hx1 : s.bmod d m.val = x := by rw [State.bmod, hx, Option.getD_some]
  have hx2 : tget ((s.modBmod d.other m.val (fun x => { x with wire := l })).bridge d).mods m.val = some x := by
    rw [← hx]; exact congrArg (fun x : DieState => tget x.bridge.mods m.val) (State.die_modDie_ne s _ (die_ne_other d))
  obtain ⟨y, hy⟩ := State.mods_of_wire hw
  have hs := (State.steady_nocMove ..).trans (State.steady_bflitIn (err := err.map (fun e => (e.1.val, e.2))) hx1 hw)
  obtain ⟨hf, ha, hn, hr⟩ := State.bmod_of_steady hs m.val
  rw [State.bmod_modBmod_ne _ _ _ _ (die_other_ne d), State.bmod_modBmod_same _ _ hy] at hf
  rw [State.bmod_modBmod_same _ _ hx2] at ha hn hr
  refine ⟨_, rfl, by rw [hf], ha.trans ?_, hn.trans ?_, fun h => hr.trans ?_⟩
  · change (BMod.seen s.now f good x).awaiting = !good
    cases good <;> rfl
  · change (BMod.seen s.now f good x).nextRx = _
    cases good <;> rfl
  · change (BMod.seen s.now f good x).rxAt = _
    rw [h]; rfl

/-! ## Retrains of a module (16_faults.md R506) -/

/-- An end of a module that begins to retrain, that comes back, and whose retrain has failed and begins again. -/
def BMod.silenced (now : Nat) (x : BMod) : BMod := { x with live := false, training := true, trainAt := now, wire := [] }
def BMod.restored (now : Nat) (x : BMod) : BMod :=
  { x with live := true, training := false, rxAt := now, wire := x.buf, awaiting := false, retrains := 0 }
def BMod.trainAgain (now : Nat) (x : BMod) : BMod := { x with trainAt := now, retrains := x.retrains + 1 }

theorem State.bmod_showBridge (s : State) (e : Die) (m : Nat) : s.showBridge.bmod e m = s.bmod e m := rfl

/-- A change of both ends of a module. -/
def State.modBoth (s : State) (m : Nat) (f : BMod → BMod) : State := (s.modBmod .a m f).modBmod .b m f

theorem State.bmod_modBoth {m : Nat} {x y : BMod} (hx : tget (s.bridge .a).mods m = some x) (hy : tget (s.bridge .b).mods m = some y)
    (f : BMod → BMod) (e : Die) : (s.modBoth m f).bmod e m = f (s.bmod e m) := by
  unfold State.modBoth
  have hy' : tget ((s.modBmod .a m f).bridge .b).mods m = some y := by
    rw [← hy]; exact congrArg (fun x : DieState => tget x.bridge.mods m) (State.die_modDie_ne s _ (by decide))
  cases e with
  | a =>
    rw [State.bmod_modBmod_ne _ _ _ _ (by decide), State.bmod_modBmod_same _ _ hx, State.bmod, hx, Option.getD_some]
  | b => rw [State.bmod_modBmod_same _ _ hy', State.bmod, hy, Option.getD_some]

section
variable {m : Fin 16} {x y : BMod} (hx : tget (s.bridge .a).mods m.val = some x) (hy : tget (s.bridge .b).mods m.val = some y)
include hx hy

theorem bridgeModuleSilent_runs (hl : (s.bmod d m.val).live = true) (ht : (s.bmod d m.val).rxAt + 1000 ≤ s.now) :
    Runs (.bridgeModuleSilent d m) s (fun t => ∀ e, (t.bmod e m.val).live = false ∧ (t.bmod e m.val).training = true ∧
      (t.bmod e m.val).trainAt = s.now) := by
  have run : exec (.bridgeModuleSilent d m) s = .next (s.modBoth m.val (BMod.silenced s.now)).showBridge :=
    congrArg Host.Outcome.next (if_neg (by simp [hl]; omega))
  refine ⟨_, run, fun e => ?_⟩
  rw [State.bmod_showBridge, State.bmod_modBoth hx hy]
  exact ⟨rfl, rfl, rfl⟩

theorem bridgeModuleRetrainDone_ok (ht : x.training = true) : Runs (.bridgeModuleRetrainDone m true) s (fun t => ∀ e,
    (t.bmod e m.val).live = true ∧ (t.bmod e m.val).training = false ∧ (t.bmod e m.val).retrains = 0) := by
  have hx1 : s.bmod .a m.val = x := by rw [State.bmod, hx, Option.getD_some]
  have run : exec (.bridgeModuleRetrainDone m true) s = .next (s.modBoth m.val (BMod.restored s.now)).showBridge :=
    congrArg Host.Outcome.next ((if_neg (by simp [hx1, ht])).trans (if_pos rfl))
  refine ⟨_, run, fun e => ?_⟩
  rw [State.bmod_showBridge, State.bmod_modBoth hx hy]
  exact ⟨rfl, rfl, rfl⟩

/-- The first failure in a row begins the retrain again. -/
theorem bridgeModuleRetrainDone_failed (ht : x.training = true) (hr : x.retrains = 0) :
    Runs (.bridgeModuleRetrainDone m false) s (fun t => ∀ e, (t.bmod e m.val).retrains = (s.bmod e m.val).retrains + 1 ∧
      (t.bmod e m.val).live = (s.bmod e m.val).live) := by
  have hx1 : s.bmod .a m.val = x := by rw [State.bmod, hx, Option.getD_some]
  have run : exec (.bridgeModuleRetrainDone m false) s = .next (s.modBoth m.val (BMod.trainAgain s.now)) :=
    congrArg Host.Outcome.next ((if_neg (by simp [hx1, ht])).trans ((if_neg (by decide)).trans (if_neg (by simp [hx1, hr]))))
  refine ⟨_, run, fun e => ?_⟩
  rw [State.bmod_modBoth hx hy]
  exact ⟨rfl, rfl⟩

end

end Sys2Proof.Machine
end

section
/-! CROSSBAR_ALLOCATION (for O52): a cell is counted, and a lone eligible header bound for an internal port leaves by it. -/

namespace Sys2Proof.Machine

variable {s t : State} {d e : Die}

/-! ## A lone request (R428, R429) -/

/-- A pointer's choice is one of the requests. -/
theorem nextAfter_mem {α : Type} (n ptr : Nat) (place : α → Nat) {l : List α} (h : l ≠ []) :
    ∃ x ∈ l, nextAfter n ptr place l = some x := by
  have pick (c : α → α → Bool) (x : α) (l : List α) : l.foldl (fun b y => if c b y then y else b) x ∈ x :: l := by
    induction l generalizing x with
    | nil => exact List.mem_cons_self
    | cons y l ih =>
      rw [List.foldl_cons]
      split
      · exact List.mem_cons_of_mem _ (ih y)
      · rcases List.mem_cons.mp (ih x) with h | h
        · rw [h]; exact List.mem_cons_self
        · exact List.mem_cons_of_mem _ (List.mem_cons_of_mem _ h)
  cases l with
  | nil => exact absurd rfl h
  | cons x l =>
    refine ⟨_, ?_, rfl⟩
    have := pick (fun b y => decide ((place y + n - ptr % n) % n < (place b + n - ptr % n) % n)) x l
    simpa only [decide_eq_true_eq] using this

theorem subPorts_ne_nil (k : Nat) : subPorts k ≠ [] := by
  unfold subPorts
  split
  · simp
  · split <;> simp

theorem subPorts_internal {k : Nat} (h : isInternal k = true) : subPorts k = [32 + (k - 64)] := by
  have hn : isNet k = false := by simp [isInternal, isNet] at h ⊢; omega
  simp [subPorts, hn, h]

/-- The deficits of an output for one network leave it a turn. -/
theorem State.deficits_lone (s : State) (d : Die) (o n : Nat) : ∃ p, s.deficits d o [n] = [(n, p)] ∧ 0 < p := by
  unfold State.deficits
  by_cases h : nget (s.swc d).deficit (4 * o + n) = 0
  · refine ⟨s.outWeight d n, by simp [h], ?_⟩
    unfold State.outWeight
    split
    · omega
    · split
      · omega
      · split <;> omega
  · exact ⟨_, by simp [h], Nat.pos_of_ne_zero h⟩

/-- The output grants one of the requests, where all are of one unit. -/
theorem State.grantAt_lone (s : State) (d : Die) (o : Nat) (first : Bool) {w : Want} (hv : w.vc < 32) {rs : List (Nat × Want)}
    (hr : rs ≠ []) (hw : ∀ r ∈ rs, r.2 = w) : ∃ m, s.grantAt d o first rs = some m ∧ m.o = o ∧ m.w = w := by
  have all (p : Want → Bool) : rs.filter (fun r => p r.2) = if p w then rs else [] := by
    split
    · next h => exact List.filter_eq_self.mpr (fun r hm => by rw [hw r hm, h])
    · next h => exact List.filter_eq_nil_iff.mpr (fun r hm => by rw [hw r hm]; exact h)
  have any (n : Nat) : rs.any (fun r => r.2.vc / 8 == n) = (w.vc / 8 == n) := by
    obtain ⟨r, hm⟩ := List.exists_mem_of_ne_nil rs hr
    rw [Bool.eq_iff_iff, List.any_eq_true]
    exact ⟨fun ⟨x, hx, h⟩ => hw x hx ▸ h, fun h => ⟨r, hm, (hw r hm).symm ▸ h⟩⟩
  have vns : (List.range 4).filter (fun n => rs.any (fun r => r.2.vc / 8 == n)) = [w.vc / 8] := by
    have : w.vc / 8 < 4 := by omega
    simp only [any]
    generalize w.vc / 8 = n at this
    interval_cases n <;> rfl
  obtain ⟨p, hp, pos⟩ := s.deficits_lone d o (w.vc / 8)
  obtain ⟨r0, hr0, h0⟩ := nextAfter_mem 8 (nget (s.swc d).vcPtr (4 * o + w.vc / 8)) (fun (r : Nat × Want) => r.2.vc % 8) hr
  obtain ⟨r, hr1, h1⟩ := nextAfter_mem 72 (nget (s.swc d).grantPtr o) (fun (r : Nat × Want) => r.1) hr
  have turn : (if [w.vc / 8].contains vMGT && s.mgtTurn d o then some vMGT else
      ([(w.vc / 8, p)].find? (fun p => decide (0 < p.2))).map (·.1)) = some (w.vc / 8) := by
    split
    · next h =>
      obtain ⟨hm, -⟩ : vMGT = w.vc / 8 ∧ s.mgtTurn d o = true := by simpa using h
      rw [hm]
    · simp [pos]
  refine ⟨⟨r.1, o, r.2, [w.vc / 8].contains vMGT && s.mgtTurn d o, first⟩, ?_, rfl, hw r hr1⟩
  unfold State.grantAt
  dsimp only
  rw [vns, hp, turn, Option.bind_some, all (fun x => x.vc / 8 == w.vc / 8), if_pos (beq_self_eq_true _), h0, Option.bind_some,
    all (fun x => x.vc == r0.2.vc), if_pos (by rw [hw r0 hr0]; exact beq_self_eq_true _), h1]
  rfl

section
variable {w : Want} (hi : isInternal w.out = true) (hv : w.vc < 32)
include hi

/-- Request: the input of a lone unit asks, at every sub-port. -/
theorem requestsAt_lone : requestsAt [w] [] (32 + (w.out - 64)) = (subPorts (w.ivc / 32)).map (fun i => (i, w)) := by
  simp [requestsAt, subPorts_internal hi]

include hv in
/-- An iteration matches a lone unit that wants an internal port. -/
theorem State.iteration_lone (s : State) (d : Die) (first : Bool) :
    ∃ m, s.iteration d [w] first [] = [m] ∧ m.o = 32 + (w.out - 64) ∧ m.w = w := by
  have hne : (subPorts (w.ivc / 32)).map (fun i => (i, w)) ≠ [] := by simp [subPorts_ne_nil]
  obtain ⟨m, hm, ho, hw⟩ := s.grantAt_lone d (32 + (w.out - 64)) first hv hne (by simp)
  refine ⟨m, ?_, ho, hw⟩
  simp [State.iteration, subPorts_internal hi, requestsAt_lone hi, subPorts_ne_nil, hm, State.accept, nextAfter]

/-- Once matched it asks no more. -/
theorem State.iteration_matched (s : State) (d : Die) (first : Bool) {m : Match_} (hm : m.o = 32 + (w.out - 64)) :
    s.iteration d [w] first [m] = [m] := by
  simp [State.iteration, requestsAt, subPorts_internal hi, hm, State.accept]

end

/-! ## A cell (R428) -/

/-- The matches of a cell's three iterations, among the units that are eligible. -/
def State.cellMatches (s : State) (d : Die) (ws : List Want) : List Match_ :=
  s.iteration d ws false (s.iteration d ws false (s.iteration d ws true []))

/-- A match is carried out. -/
def State.carryOut (at_ : State) (d : Die) (ws : List Want) (s : State) (m : Match_) : State :=
  (s.afterMatch d ws m).when (isInternal m.w.out || s.hasCredit d m.w.out m.w.vc) (fun s => State.moveUnit at_ s d m.w)

/-- The units of a cell's matches have moved. -/
def State.cellMoved (s : State) (d : Die) : State :=
  let ws := (s.wants d).filter (s.eligible d)
  (s.cellMatches d ws).foldl (State.carryOut s d ws) (s.countStalls d (s.wants d) ws (s.cellMatches d ws))

theorem execCrossbarAllocation_eq (s : State) (d : Die) : execCrossbarAllocation d s =
    .next ((((s.cellMoved d).modSwc d (fun x => { x with cell := x.cell + 1 })).pumpAll d).bridgeTx d) := rfl

theorem State.steady_afterCell (s : State) (d : Die) :
    ((((s.modSwc d (fun x => { x with cell := x.cell + 1 })).pumpAll d).bridgeTx d).swc d).cell = (s.swc d).cell + 1 ∧
    ((((s.modSwc d (fun x => { x with cell := x.cell + 1 })).pumpAll d).bridgeTx d).swc d).ejected = (s.swc d).ejected := by
  have h := (State.steady_bridgeTx ((s.modSwc d (fun x => { x with cell := x.cell + 1 })).pumpAll d) d).trans (State.steady_pumpAll _ d)
  have hc := congrArg Steady.cell h
  have he := congrArg Steady.ejected h
  simp only [State.steady, State.swc_modSwc] at hc he
  exact ⟨hc, he⟩

@[simp] theorem State.swc_countStalls (s : State) (d : Die) (waiting ws : List Want) (ms : List Match_) :
    (s.countStalls d waiting ws ms).swc d = s.swc d :=
  swc_of_same ((State.countStalls_keeps s d waiting ws ms (s.holds_standing (· == .swc)) rfl).holds .swc rfl) d

@[simp] theorem State.swc_countGrant (s : State) (d : Die) (port : Nat) (p : Pkt) (mark : Bool) :
    (s.countGrant d port p mark).swc d = s.swc d :=
  swc_of_same ((State.countGrant_keeps s d port p mark (s.holds_standing (· == .swc)) rfl rfl).holds .swc rfl) d

theorem State.swc_afterMatch (s : State) (d : Die) (ws : List Want) (m : Match_) :
    ((s.afterMatch d ws m).swc d).cell = (s.swc d).cell ∧ ((s.afterMatch d ws m).swc d).ejected = (s.swc d).ejected ∧
    ((s.afterMatch d ws m).swc d).ins = (s.swc d).ins := by
  simp only [State.afterMatch, State.swc_modSwc]
  split <;> split <;> exact ⟨rfl, rfl, rfl⟩

theorem State.cell_unitOut (s : State) (d : Die) (k j : Nat) : ((s.unitOut d k j).swc d).cell = (s.swc d).cell :=
  congrArg Steady.cell (State.steady_unitOut s d k j)

theorem State.ejected_unitOut (s : State) (d : Die) (k j : Nat) : ((s.unitOut d k j).swc d).ejected = (s.swc d).ejected :=
  congrArg Steady.ejected (State.steady_unitOut s d k j)

@[simp] theorem State.swc_when_countGrant (s : State) (c : Bool) (d : Die) (port : Nat) (p : Pkt) (mark : Bool) :
    (s.when c (fun s => s.countGrant d port p mark)).swc d = s.swc d := by
  cases c
  · rfl
  · exact State.swc_countGrant ..

/-! The parts of `moveUnit`: what goes out, the grant to its packet, and its place at the output. -/

def State.outgoing (at_ : State) (d : Die) (w : Want) (q : InPkt) : Pkt × Bool :=
  if w.head then at_.departing d w.out w.vc q.pkt else (q.pkt, false)

def State.grantUnit (at_ s : State) (d : Die) (w : Want) (q : InPkt) (l : List InPkt) : State :=
  let out := at_.outgoing d w q
  let s := s.modSwc d (fun x => x.setIns w.ivc ({ q with pkt := out.1, granted := true } :: l))
  let s := s.when w.head (fun s => s.countGrant d w.out out.1 out.2)
  s.modSwc d (fun x => { x with
    owner := if q.sent == out.1.len then tdel x.owner (w.out * 32 + w.vc) else tput x.owner (w.out * 32 + w.vc) w.ivc })

def State.placeUnit (s : State) (d : Die) (w : Want) (q : InPkt) (p : Pkt) (u : OUnit) : State :=
  if isInternal w.out then
    if q.sent == p.len then s.modSwc d (fun x => { x with ejected := x.ejected ++
      [(w.out, { p with badHdr := q.marks.head? == some true, badData := q.marks.tail.any id }, q.since)] }) else s
  else s.modSwc d (fun x => x.setStage w.out (x.staged w.out ++ [u]))

theorem State.moveUnit_cons {at_ s : State} {w : Want} {q : InPkt} {l : List InPkt} {shared : Bool} (hq : (s.swc d).inList w.ivc = q :: l)
    (hc : (if isInternal w.out then some (s, false) else s.takeCredit d w.out w.vc) = some (t, shared)) :
    ∃ u, State.moveUnit at_ s d w = ((State.grantUnit at_ t d w q l).placeUnit d w q (at_.outgoing d w q).1 u).unitOut d w.ivc 0 := by
  unfold State.moveUnit
  rw [hq]
  dsimp only
  rw [hc]
  exact ⟨_, rfl⟩

theorem State.swc_grantUnit (at_ s : State) (d : Die) (w : Want) (q : InPkt) (l : List InPkt) :
    ((State.grantUnit at_ s d w q l).swc d).cell = (s.swc d).cell ∧
    ((State.grantUnit at_ s d w q l).swc d).ejected = (s.swc d).ejected := by
  simp [State.grantUnit]

theorem State.cell_placeUnit (s : State) (d : Die) (w : Want) (q : InPkt) (p : Pkt) (u : OUnit) :
    ((s.placeUnit d w q p u).swc d).cell = (s.swc d).cell := by
  unfold State.placeUnit
  split
  · split
    · simp
    · rfl
  · simp

theorem State.cell_moveUnit (at_ s : State) (d : Die) (w : Want) : ((State.moveUnit at_ s d w).swc d).cell = (s.swc d).cell := by
  cases hq : (s.swc d).inList w.ivc with
  | nil => simp only [State.moveUnit, hq]
  | cons q l =>
    cases hc : (if isInternal w.out then some (s, false) else s.takeCredit d w.out w.vc) with
    | none => simp only [State.moveUnit, hq, hc]
    | some r =>
      have credit : (r.1.swc d).cell = (s.swc d).cell := by
        split at hc
        · cases hc; rfl
        · exact congrArg Steady.cell (State.steady_takeCredit hc)
      obtain ⟨u, hu⟩ := State.moveUnit_cons (at_ := at_) hq hc
      rw [hu, State.cell_unitOut, State.cell_placeUnit, (State.swc_grantUnit ..).1, credit]

theorem State.cell_carryOut (at_ s : State) (d : Die) (ws : List Want) (m : Match_) :
    ((State.carryOut at_ d ws s m).swc d).cell = (s.swc d).cell := by
  unfold State.carryOut State.when
  split
  · rw [State.cell_moveUnit, (State.swc_afterMatch ..).1]
  · exact (State.swc_afterMatch ..).1

/-- A cell is counted. -/
theorem crossbarAllocation_counts (s : State) (d : Die) : Runs (.crossbarAllocation d) s (fun t => (t.swc d).cell = (s.swc d).cell + 1) := by
  have moved (ms : List Match_) (at_ : State) (ws : List Want) (t : State) :
      ((ms.foldl (State.carryOut at_ d ws) t).swc d).cell = (t.swc d).cell := by
    induction ms generalizing t with
    | nil => rfl
    | cons m ms ih => rw [List.foldl_cons, ih, State.cell_carryOut]
  refine ⟨_, execCrossbarAllocation_eq s d, ?_⟩
  refine (State.steady_afterCell (s.cellMoved d) d).1.trans ?_
  rw [State.cellMoved, moved, State.swc_countStalls]

/-! ## A lone header -/

/-- What a header's grant changes of its packet names neither its destination nor its command nor its length. -/
theorem State.departing_fst (s : State) (d : Die) (port vc : Nat) (p : Pkt) :
    (s.departing d port vc p).1.dest = p.dest ∧ (s.departing d port vc p).1.command = p.command ∧ (s.departing d port vc p).1.len = p.len := by
  unfold State.departing
  split
  · exact ⟨rfl, rfl, rfl⟩
  · dsimp only
    split <;> exact ⟨rfl, rfl, rfl⟩

/-- A packet of a header alone that is moved to an internal port has left by it. -/
theorem State.ejected_moveUnit (at_ s : State) (d : Die) {w : Want} {q : InPkt} {l : List InPkt} (hq : (s.swc d).inList w.ivc = q :: l)
    (hi : isInternal w.out = true) (hs : q.sent = 0) (hl : q.pkt.len = 0) (hh : w.head = true) :
    ∃ x, ((State.moveUnit at_ s d w).swc d).ejected = (s.swc d).ejected ++ [(w.out, x, q.since)] ∧ x.dest = q.pkt.dest ∧
      x.command = q.pkt.command := by
  obtain ⟨hdest, hcmd, hlen⟩ := at_.departing_fst d w.out w.vc q.pkt
  have tail : (q.sent == (at_.departing d w.out w.vc q.pkt).1.len) = true := by rw [hlen, hs, hl]; rfl
  obtain ⟨u, hu⟩ := State.moveUnit_cons (at_ := at_) hq (if_pos hi)
  rw [hu, State.ejected_unitOut, State.placeUnit, if_pos hi, State.outgoing, if_pos hh, if_pos tail, State.swc_modSwc,
    (State.swc_grantUnit ..).2]
  exact ⟨_, rfl, hdest, hcmd⟩

/-- The lone eligible header of a cell, bound for an internal port, leaves by it. -/
theorem crossbarAllocation_lone {w : Want} {q : InPkt} {l : List InPkt} (hw : s.wants d = [w]) (he : s.eligible d w = true)
    (hi : isInternal w.out = true) (hq : (s.swc d).inList w.ivc = q :: l) (hs : q.sent = 0) (hl : q.pkt.len = 0) (hh : w.head = true)
    (hv : w.vc < 32) : Runs (.crossbarAllocation d) s (fun t => ∃ x, (t.swc d).ejected = (s.swc d).ejected ++ [(w.out, x, q.since)] ∧
      x.dest = q.pkt.dest ∧ x.command = q.pkt.command) := by
  have ws : (s.wants d).filter (s.eligible d) = [w] := by rw [hw, List.filter_cons, if_pos he, List.filter_nil]
  obtain ⟨m, hm, ho, hmw⟩ := State.iteration_lone hi hv s d true
  have ms : s.cellMatches d [w] = [m] := by
    rw [State.cellMatches, hm, State.iteration_matched hi s d false ho, State.iteration_matched hi s d false ho]
  refine ⟨_, execCrossbarAllocation_eq s d, ?_⟩
  obtain ⟨hc, hej, hins⟩ := State.swc_afterMatch (s.countStalls d [w] [w] [m]) d [w] m
  rw [State.swc_countStalls] at hej hins
  have hq' : ((((s.countStalls d [w] [w] [m]).afterMatch d [w] m)).swc d).inList w.ivc = q :: l := by
    rw [Swc.inList, hins]; exact hq
  have moved : s.cellMoved d = State.moveUnit s ((s.countStalls d [w] [w] [m]).afterMatch d [w] m) d w := by
    rw [State.cellMoved, ws, hw, ms, List.foldl_cons, List.foldl_nil, State.carryOut, hmw, hi, Bool.true_or]
    rfl
  obtain ⟨x, hx, hd⟩ := State.ejected_moveUnit s _ d hq' hi hs hl hh
  exact ⟨x, (State.steady_afterCell ..).2.trans (by rw [moved, hx, hej]), hd⟩

end Sys2Proof.Machine
end

section
/-! NOC_UNIT_RECEIVED (for O52): a unit's check, and the way of a unit that is alone in the mesh. -/

namespace Sys2Proof.Machine

variable {s t : State} {d e : Die}

/-! ## NOC_UNIT_RECEIVED (R26): the check -/

section
variable {stop : Fin 64} {dir : Fin 4} {w : BitVec 544}

/-- A unit with a double error is counted against its link, and nothing else changes. -/
theorem nocUnitReceived_double (h : nocCheck w.toNat = none) : Runs (.nocUnitReceived d stop dir w) s (fun t =>
    t.nocLink d (stop.val + 64 * dir.val) = { s.nocLink d (stop.val + 64 * dir.val) with
      fails := (s.nocLink d (stop.val + 64 * dir.val)).fails + 1 } ∧
    (∀ j, j ≠ stop.val + 64 * dir.val → t.nocLink d j = s.nocLink d j) ∧ t.out = s.out ∧ onlyFields [] s t) := by
  have run : exec (.nocUnitReceived d stop dir w) s =
      .next (s.modNocLink d (stop.val + 64 * dir.val) (fun l => { l with fails := l.fails + 1 })) := by
    simp only [exec, execNocUnitReceived, h]
  refine ⟨_, run, ?_, fun j hj => ?_, rfl, fun _ _ _ => rfl⟩
  · rw [State.nocLink_modNocLink, if_pos rfl]
  · rw [State.nocLink_modNocLink, if_neg hj]

/-- The unit has been taken off its link, and a corrected one counted. -/
def State.nocTaken (s : State) (d : Die) (k : Nat) (u : NocUnit) (corrected : Bool) : State :=
  (s.when corrected (fun s => s.modNoc d (fun x => { x with corrected := x.corrected + 1 }))).modNocLink d k
    (fun l => { sent := l.sent.erase u, bufs := l.bufs ++ [u], fails := 0 })

theorem execNocUnitReceived_good {v : Nat} (h : nocCheck w.toNat = some v) : exec (.nocUnitReceived d stop dir w) s =
    .next ((s.nocTaken d (stop.val + 64 * dir.val) (nocUnit v) (nocSyndrome w.toNat != (0, false))).nocMove d) := by
  simp only [exec, execNocUnitReceived, h]
  rfl

theorem State.noc_nocTaken (s : State) (d : Die) (k : Nat) (u : NocUnit) (c : Bool) : (s.nocTaken d k u c).noc d =
    { s.noc d with
      corrected := (s.noc d).corrected + b2n c
      links := tput (s.noc d).links k { sent := (s.nocLink d k).sent.erase u, bufs := (s.nocLink d k).bufs ++ [u], fails := 0 } } := by
  cases c <;> simp [State.nocTaken, State.when, State.modNocLink, State.nocLink, b2n]

/-- A good unit ends the failed retries of its link; a corrected one is counted. -/
theorem nocUnitReceived_good {v : Nat} (h : nocCheck w.toNat = some v) : Runs (.nocUnitReceived d stop dir w) s (fun t =>
    (t.nocLink d (stop.val + 64 * dir.val)).fails = 0 ∧
    (t.noc d).corrected = (s.noc d).corrected + (if nocSyndrome w.toNat = (0, false) then 0 else 1)) := by
  refine ⟨_, execNocUnitReceived_good h, ?_⟩
  generalize stop.val + 64 * dir.val = k
  have hs := State.steady_nocMove (s.nocTaken d k (nocUnit v) (nocSyndrome w.toNat != (0, false))) d
  refine ⟨(congrFun (congrArg Steady.fails hs) k).trans ?_, (congrArg Steady.corrected hs).trans ?_⟩
  · simp [State.steady, State.nocLink, State.noc_nocTaken]
  · simp only [State.steady, State.noc_nocTaken]
    by_cases hz : nocSyndrome w.toNat = (0, false) <;> simp [hz, b2n]

end

/-! ## NOC_UNIT_RECEIVED: a lone unit (R24, R27, R30) -/

@[simp] theorem State.noc_bridgeTx (s : State) (d e : Die) : (s.bridgeTx d).noc e = s.noc e :=
  noc_of_same ((State.bridgeTx_keeps s d (s.holds_standing (· == .noc)) rfl rfl).holds .noc rfl) e

@[simp] theorem State.noc_event (s : State) (d e : Die) (n : Nat) (p : Option Nat) : (s.event d n p).noc e = s.noc e :=
  noc_of_same ((State.event_keeps s d n p (s.holds_standing (· == .noc)) rfl).holds .noc rfl) e

section
variable {k : Nat} {u : NocUnit} {c : Bool}

/-- The unit is the only one in the mesh, and is taken out of its link's input. -/
def State.nocAlone (s : State) (d : Die) (k : Nat) (u : NocUnit) (c : Bool) : State :=
  (s.nocTaken d k u c).modNocLink d k (fun l => { l with bufs := [] })

theorem State.dom_modNoc (s : State) (e d : Die) (f : Noc → Noc) (i : Nat) : (s.modNoc e f).dom d i = s.dom d i := by
  cases e <;> cases d <;> rfl

theorem State.nocAlone_stands (s : State) (d : Die) (k : Nat) (u : NocUnit) (c : Bool) :
    (s.nocAlone d k u c).regs = s.regs ∧ (s.nocAlone d k u c).part = s.part ∧ ∀ i, (s.nocAlone d k u c).dom d i = s.dom d i := by
  simp only [State.nocAlone, State.nocTaken, State.modNocLink, State.dom_modNoc]
  cases c
  · exact ⟨rfl, rfl, fun _ => rfl⟩
  · exact ⟨rfl, rfl, fun i => s.dom_modNoc d d (fun x => { x with corrected := x.corrected + 1 }) i⟩

/-- What the power of a stop's domain is read from. -/
theorem State.stopPower_congr (hr : t.regs = s.regs) (hp : t.part = s.part) (hd : ∀ i, t.dom d i = s.dom d i) (stop i : Nat) :
    t.stopOff d stop = s.stopOff d stop ∧ t.domSt d i = s.domSt d i ∧ t.draining d i = s.draining d i := by
  simp only [State.stopOff, State.lockedOff, State.on, State.rd, State.stackPresent, State.present, State.domSt, State.draining, hr, hp, hd,
    and_self]

variable (hl : (s.noc d).links = [])
include hl

theorem State.noc_nocAlone : (s.nocAlone d k u c).noc d =
    { s.noc d with corrected := (s.noc d).corrected + b2n c, links := [(k, nocLink0)] } := by
  simp [State.nocAlone, State.modNocLink, State.noc_nocTaken, State.nocLink, hl, tput, tget, nocLink0]

theorem State.nocLink_nocAlone (j : Nat) : (s.nocAlone d k u c).nocLink d j = nocLink0 := by
  simp only [State.nocLink, State.noc_nocAlone hl, tget]
  split
  · rfl
  · split <;> rfl

theorem State.held_nocAlone (stop : Nat) : (s.nocAlone d k u c).held d stop = s.held d stop := by
  simp only [State.held, State.noc_nocAlone hl]

/-- Where the unit finds its way, its link's input is empty. -/
theorem State.noc_nocMove_alone (hk : k < 312) (hf : (s.nocAlone d k u c).nocForward d (k % 64) u = (t, true)) :
    ((s.nocTaken d k u c).nocMove d).noc d = (t.modNocLink d k (fun l => l)).noc d := by
  have links : ((s.nocTaken d k u c).noc d).links.map (·.1) = [k] := by simp [State.noc_nocTaken, hl, tput]
  have bufs : ((s.nocTaken d k u c).nocLink d k).bufs = [u] := by simp [State.nocLink, State.noc_nocTaken, hl, tput, tget, nocLink0]
  have drain : State.nocDrain d (k % 64) [u] [] (s.nocAlone d k u c) = (t, []) := by
    simp [State.nocDrain, hf]
  have input : (s.nocTaken d k u c).nocInput d k = t.modNocLink d k (fun l => l) := by
    unfold State.nocInput
    rw [bufs]
    rw [State.nocAlone] at drain
    simp only [drain]
    simp [hk]
  rw [State.nocMove, links, List.foldl_cons, List.foldl_nil, input, State.noc_bridgeTx]

end

/-! ### Over the next link -/

theorem nocNext_stop_ne {stop target : Nat} (hs : stop < 64) (ht : target < 64) (h : target ≠ stop) : nocNext stop target % 64 ≠ stop := by
  unfold nocNext
  dsimp only
  split
  · omega
  · split
    · omega
    · split <;> omega

theorem nocTarget_lt (d : Die) (v : Nat) : nocTarget d (nocUnit v) < 64 := by
  unfold nocTarget
  split
  · exact Nat.mod_lt _ (by decide)
  · unfold gateOf; omega

theorem State.nocLink_of_noc (h : t.noc d = s.noc d) (j : Nat) : t.nocLink d j = s.nocLink d j := by
  simp only [State.nocLink, h]

section
variable {stop : Fin 64} {dir : Fin 4} {w : BitVec 544} {v : Nat} (h : nocCheck w.toNat = some v) (hl : (s.noc d).links = [])
include h hl

/-- A unit alone in the mesh, where it finds a way on from its stop. -/
theorem nocUnitReceived_alone {Q : State → Prop} (hf : (s.nocAlone d (stop.val + 64 * dir.val) (nocUnit v)
    (nocSyndrome w.toNat != (0, false))).nocForward d stop.val (nocUnit v) = (t, true))
    (hq : ∀ t', t'.noc d = (t.modNocLink d (stop.val + 64 * dir.val) (fun l => l)).noc d → Q t') :
    Runs (.nocUnitReceived d stop dir w) s Q := by
  refine ⟨_, execNocUnitReceived_good h, hq _ (State.noc_nocMove_alone hl (by omega) ?_)⟩
  rw [show (stop.val + 64 * dir.val) % 64 = stop.val by omega, hf]

/-- A unit that is not at its stop goes on over the next link. -/
theorem nocUnitReceived_forward (ht : nocTarget d (nocUnit v) ≠ stop.val) : Runs (.nocUnitReceived d stop dir w) s (fun t =>
    (t.nocLink d (nocNext stop.val (nocTarget d (nocUnit v)))).sent = [nocUnit v] ∧
    (t.nocLink d (stop.val + 64 * dir.val)).bufs = []) := by
  have hne := nocNext_stop_ne stop.isLt (nocTarget_lt d v) ht
  have hk : nocNext stop.val (nocTarget d (nocUnit v)) ≠ stop.val + 64 * dir.val := fun e => hne (by omega)
  have room : nocLink0.room (nocUnit v).cls = true := by simp [NocLink.room, NocLink.load, nocLink0]
  refine nocUnitReceived_alone h hl (by
    rw [State.nocForward]
    dsimp only
    rw [if_neg ht.symm, State.nocLink_nocAlone hl, if_pos room]) (fun t ht => ?_)
  rw [State.nocLink_of_noc ht, State.nocLink_of_noc ht, State.nocLink_modNocLink, if_neg hk, State.nocLink_modNocLink, if_pos rfl,
    State.nocLink_of_noc (State.noc_event ..), State.nocLink_of_noc (State.noc_event ..), State.nocLink_modNocLink, if_pos rfl,
    State.nocLink_modNocLink, if_neg hk.symm, State.nocLink_nocAlone hl, State.nocLink_nocAlone hl]
  exact ⟨rfl, rfl⟩

variable (ht : nocTarget d (nocUnit v) = stop.val) (hd : (nocUnit v).destDie = d.num)
include ht hd

/-- A unit at its stop leaves the mesh as `nocArrive` says, and its link's input is empty. -/
theorem nocUnitReceived_arrive (ha : (s.nocAlone d (stop.val + 64 * dir.val) (nocUnit v)
    (nocSyndrome w.toNat != (0, false))).nocArrive d stop.val (nocUnit v) = (t, true))
    (hn : (t.noc d).links = [(stop.val + 64 * dir.val, nocLink0)]) : Runs (.nocUnitReceived d stop dir w) s (fun t' =>
    (t'.nocLink d (stop.val + 64 * dir.val)).bufs = [] ∧ (t'.noc d).hold = (t.noc d).hold) := by
  refine nocUnitReceived_alone (t := t) h hl (by
    rw [State.nocForward]
    dsimp only
    rw [if_pos ht.symm, if_pos hd, ha]) (fun t' ht' => ⟨?_, ?_⟩)
  · rw [State.nocLink_of_noc ht', State.nocLink_modNocLink, if_pos rfl, State.nocLink, hn]
    simp [tget, nocLink0]
  · simp [ht', State.modNocLink]

theorem nocUnitReceived_leave (hs : stopDomain stop.val = none) : Runs (.nocUnitReceived d stop dir w) s (fun t =>
    (t.nocLink d (stop.val + 64 * dir.val)).bufs = [] ∧ (t.noc d).hold = (s.noc d).hold) := by
  have arrive (s : State) : s.nocArrive d stop.val (nocUnit v) = (s, true) := by simp only [State.nocArrive, hs]
  obtain ⟨t, run, hb, hh⟩ := nocUnitReceived_arrive h hl ht hd (arrive _) (by rw [State.noc_nocAlone hl])
  exact ⟨t, run, hb, by rw [hh, State.noc_nocAlone hl]⟩

end

/-! ### Into a hold buffer (17_power.md R538) -/

/-- The register fields stay well-formed, and a field reads as before. -/
def keepsField (f : Fld) (s t : State) : Prop := tblWf s.regs = true → tblWf t.regs = true ∧ ∀ d, t.rd d f = s.rd d f

theorem keepsField.trans {f : Fld} {s t u : State} (h : keepsField f s t) (h' : keepsField f t u) : keepsField f s u := fun hs =>
  have ht := h hs
  have hu := h' ht.1
  ⟨hu.1, fun d => (hu.2 d).trans (ht.2 d)⟩

theorem keepsField_wr (s : State) (d : Die) {f g : Fld} (n : Nat) (h : f.lo ≠ g.lo) (hf : f.lo < 64) (hg : g.lo < 64) :
    keepsField f s (s.wr d g n) :=
  fun hs => ⟨State.wr_wf _ _ _ _ hs, fun e => State.rd_wr_other _ _ hs (fkey_ne_of_lo e d h hf hg)⟩

/-- The counts of events stand at bit 0. -/
theorem keepsField_event (s : State) (d : Die) (n : Nat) (p : Option Nat) {f : Fld} (h : f.lo ≠ 0) (hf : f.lo < 64) :
    keepsField f s (s.event d n p) := by
  unfold State.event
  generalize (s.die d).evs = l
  induction l generalizing s with
  | nil => exact fun hs => ⟨hs, fun _ => rfl⟩
  | cons x l ih =>
    rw [List.foldl_cons]
    split
    · exact (keepsField_wr s d _ h hf (Nat.zero_lt_succ 63)).trans (ih _)
    · exact ih _

theorem keepsField_countHeld (s : State) (d : Die) {f : Fld} (h : f.lo ≠ 0) (hf : f.lo < 64) : keepsField f s (s.countHeld d) :=
  (keepsField_wr (g := PWC.HELD_TRANSACTIONS.COUNT) s d _ h hf (by decide)).trans (keepsField_event _ d 15 none h hf)

theorem keepsField_showHeld (s : State) (d : Die) (i : Nat) {f : Fld} (h : f.lo ≠ 0) (h' : f.lo ≠ 8) (hf : f.lo < 64) :
    keepsField f s (s.showHeld d i) :=
  (keepsField_wr (g := PWC.HOLD_PEAK.UNITS) s d _ h hf (by decide)).trans
    (keepsField_wr (g := PWC.DOM_STATE.HELD i) _ d _ h' hf (by show 8 < 64; decide))

theorem dom_of_same (h : same .power s t) (d : Die) (i : Nat) : t.dom d i = s.dom d i := by
  have : (t.die d).doms = (s.die d).doms := by cases d; exacts [h.1.1, h.2.1]
  simp only [State.dom, this]

theorem State.draining_congr {i : Nat} (hw : tblWf s.regs = true) (hf : keepsField (PWC.DOM_STATE.FENCING i) s t) (hp : same .power s t) :
    t.draining d i = s.draining d i := by
  simp only [State.draining, State.on, (hf hw).2, dom_of_same hp]

/-- A wake of a domain that is not draining does not touch the NoC. -/
theorem State.noc_wake {i : Nat} (h : s.draining d i = false) : (s.wake d i).noc e = s.noc e := by
  unfold State.wake
  split
  · rfl
  · rw [if_neg (by simp [h])]
    split
    · exact noc_of_same ((State.modDom_keeps s d i _ (s.holds_standing (· == .noc)) rfl).holds .noc rfl) e
    · exact noc_of_same ((State.beginWake_keeps s d i (s.holds_standing (· == .noc)) rfl).holds .noc rfl) e

/-- A unit enters its stop's hold buffer: the first part of `holdUnit`. -/
def State.enterHold (s : State) (d : Die) (stop : Nat) (u : NocUnit) : State :=
  s.modNoc d (fun x => { x with hold := tput x.hold stop ((tget x.hold stop).getD [] ++ [u]) })

/-- It is counted and shown: the second part. -/
def State.noteHeld (s : State) (d : Die) (i : Nat) (u : NocUnit) : State := (s.when u.head (fun s => s.countHeld d)).showHeld d i

theorem State.holdUnit_eq (s : State) (d : Die) (stop i : Nat) (u : NocUnit) :
    s.holdUnit d stop i u = ((s.enterHold d stop u).noteHeld d i u).wake d i := rfl

theorem State.standing_noteHeld (s : State) (d : Die) (i : Nat) (u : NocUnit) {K : Grp → Bool} (hK : K .regs = false) :
    s.standing K (s.noteHeld d i u) :=
  (State.showHeld_keeps _ d i (State.when_keeps s u.head _ (s.holds_standing K) (fun x hx => State.countHeld_keeps x d hx hK)) hK).holds

theorem keepsField_noteHeld (s : State) (d : Die) (i : Nat) (u : NocUnit) {f : Fld} (h : f.lo ≠ 0) (h' : f.lo ≠ 8) (hf : f.lo < 64) :
    keepsField f s (s.noteHeld d i u) := by
  refine keepsField.trans ?_ (keepsField_showHeld _ d i h h' hf)
  cases u.head
  · exact fun hs => ⟨hs, fun _ => rfl⟩
  · exact keepsField_countHeld s d h hf

theorem State.draining_enterHold (s : State) (d : Die) (stop i : Nat) (u : NocUnit) :
    (s.enterHold d stop u).draining d i = s.draining d i := by cases d <;> rfl

theorem State.draining_noteHeld (s : State) (d : Die) (i : Nat) (u : NocUnit) (hw : tblWf s.regs = true) :
    (s.noteHeld d i u).draining d i = s.draining d i :=
  State.draining_congr hw (keepsField_noteHeld s d i u (show 3 ≠ 0 by decide) (show 3 ≠ 8 by decide) (show 3 < 64 by decide))
    (s.standing_noteHeld d i u (K := (· == .power)) rfl .power rfl)

/-- Held for a domain that is not draining, a unit stays in its hold buffer. -/
theorem State.noc_holdUnit {stop i : Nat} {u : NocUnit} (hw : tblWf s.regs = true) (h : s.draining d i = false) :
    (s.holdUnit d stop i u).noc d = { s.noc d with hold := tput (s.noc d).hold stop (s.held d stop ++ [u]) } := by
  have awake : ((s.enterHold d stop u).noteHeld d i u).draining d i = false := by
    rw [State.draining_noteHeld (s.enterHold d stop u) d i u hw, State.draining_enterHold, h]
  rw [State.holdUnit_eq, State.noc_wake awake,
    noc_of_same ((s.enterHold d stop u).standing_noteHeld d i u (K := (· == .noc)) rfl .noc rfl), State.enterHold, State.noc_modNoc]
  rfl

theorem State.nocArrive_held {stop i : Nat} {u : NocUnit} (hi : stopDomain stop = some i) (hoff : s.stopOff d stop = false)
    (hst : 3 ≤ s.domSt d i)
    (hroom : ((s.held d stop).filter (fun x => x.cls == u.cls)).length < 16) :
    s.nocArrive d stop u = (s.holdUnit d stop i u, true) := by
  simp only [State.nocArrive, hi]
  rw [if_neg (by simp [hoff]), if_neg (by omega), if_pos (.inl hst), if_neg (by omega)]

section
variable {stop : Fin 64} {dir : Fin 4} {w : BitVec 544} {v : Nat} (h : nocCheck w.toNat = some v) (hl : (s.noc d).links = [])
  (ht : nocTarget d (nocUnit v) = stop.val) (hd : (nocUnit v).destDie = d.num)
include h hl ht hd

/-- A unit for a domain that sleeps is held at its stop. -/
theorem nocUnitReceived_hold (hw : tblWf s.regs = true) {i : Nat} (hi : stopDomain stop.val = some i) (hoff : s.stopOff d stop.val = false)
    (hst : 3 ≤ s.domSt d i) (hdr : s.draining d i = false)
    (hroom : ((s.held d stop.val).filter (fun x => x.cls == (nocUnit v).cls)).length < 16) :
    Runs (.nocUnitReceived d stop dir w) s (fun t => (t.nocLink d (stop.val + 64 * dir.val)).bufs = [] ∧
      t.held d stop.val = s.held d stop.val ++ [nocUnit v]) := by
  obtain ⟨hr, hp, hdom⟩ := s.nocAlone_stands d (stop.val + 64 * dir.val) (nocUnit v) (nocSyndrome w.toNat != (0, false))
  obtain ⟨hoff', hst', hdr'⟩ := State.stopPower_congr hr hp hdom stop.val i
  have held := State.held_nocAlone (d := d) (k := stop.val + 64 * dir.val) (u := nocUnit v) (c := nocSyndrome w.toNat != (0, false)) hl stop.val
  have arrive := State.nocArrive_held hi (hoff'.trans hoff) (hst' ▸ hst) (held ▸ hroom)
  have noc := State.noc_holdUnit (stop := stop.val) (u := nocUnit v) (hr ▸ hw) (hdr'.trans hdr)
  obtain ⟨t, run, hb, hh⟩ := nocUnitReceived_arrive h hl ht hd arrive (by rw [noc]; exact congrArg Noc.links (State.noc_nocAlone hl))
  refine ⟨t, run, hb, ?_⟩
  rw [State.held, hh, noc, tget_tput_same, held]
  rfl

end

end Sys2Proof.Machine
end

section
/-! The switch core, the die bridge and the NoC (O52), put together. -/

namespace Sys2Proof.Machine

/-- Settles O52: each clause is the lemma of its command, over what passing units on leaves alone. -/
theorem switchCoreAndBridge : Obligations.SwitchCoreAndBridge := by
  intro s d hinv
  obtain ⟨hw, -⟩ := hinv
  refine ⟨crossbarAllocation_counts s d, fun w q l => crossbarAllocation_lone, fun k p since l h => ⟨packetEjected_format h hw, ?_⟩,
    fun m x f l err => bridgeFlitReceived_runs m err, fun m x y hx hy => ?_, fun stop dir w => ⟨nocUnitReceived_double, fun v hv => ?_⟩⟩
  · intro hh hd ha
    exact ⟨packetEjected_groupStatus h hh hd ha, packetEjected_control h hh hd ha, packetEjected_stale h hh hd ha,
      packetEjected_pass h hh hd ha, fun _ _ _ hc hs => packetEjected_reject h hh hd ha hc hs hw,
      fun _ _ hc hs => packetEjected_drop h hh hd ha hc hs hw⟩
  · exact ⟨bridgeModuleSilent_runs hx hy, bridgeModuleRetrainDone_ok hx hy, bridgeModuleRetrainDone_failed hx hy⟩
  · exact ⟨nocUnitReceived_good hv, nocUnitReceived_forward hv, fun hl ht hd => ⟨nocUnitReceived_leave hv hl ht hd,
      fun i hi hoff hst hdr _ hroom => nocUnitReceived_hold hv hl ht hd hw hi hoff hst hdr hroom⟩⟩

end Sys2Proof.Machine
end

section
/-! Register fields after several writes, and which fields a change can reach: the layer under the statements of 02_structure_image.md. -/

set_option Elab.async false

namespace Sys2Proof.Machine

variable {s t u : State} {d e : Die} {f g : Fld} {α : Type}

/-! ## Which fields a change writes -/

/-- Of the register fields, a change from `s` to `t` writes only those whose keys satisfy `W`, and it keeps their table's form. -/
structure State.writesIn (W : Nat → Prop) (s t : State) : Prop where
  keeps : tblWf s.regs = true → tblWf t.regs = true ∧ ∀ d f, ¬ W (fkey d f) → t.rd d f = s.rd d f

variable {W W' : Nat → Prop}

theorem State.writesIn.wf (h : s.writesIn W t) (hs : tblWf s.regs = true) : tblWf t.regs = true := (h.keeps hs).1

theorem State.writesIn.rd (h : s.writesIn W t) (hs : tblWf s.regs = true) (hf : ¬ W (fkey d f)) : t.rd d f = s.rd d f :=
  (h.keeps hs).2 d f hf

theorem State.writesIn_of_regs (h : t.regs = s.regs) : s.writesIn W t :=
  ⟨fun hs => ⟨h ▸ hs, fun _ _ _ => by simp only [State.rd, h]⟩⟩

theorem State.writesIn_refl (W : Nat → Prop) (s : State) : s.writesIn W s := State.writesIn_of_regs rfl

theorem State.writesIn.trans (h : s.writesIn W t) (h' : t.writesIn W u) : s.writesIn W u :=
  ⟨fun hs => ⟨h'.wf (h.wf hs), fun _ _ hf => (h'.rd (h.wf hs) hf).trans (h.rd hs hf)⟩⟩

/-- As `trans`, from a state with the same register fields. -/
theorem State.writesIn.of_left (h : t.writesIn W u) (hr : t.regs = s.regs := by rfl) : s.writesIn W u :=
  (State.writesIn_of_regs hr).trans h

/-- As `trans`, to a state with the same register fields. -/
theorem State.writesIn.of_right (h : s.writesIn W t) (hr : u.regs = t.regs := by rfl) : s.writesIn W u :=
  h.trans (State.writesIn_of_regs hr)

theorem State.writesIn.mono (h : s.writesIn W t) (hW : ∀ k, W k → W' k) : s.writesIn W' t :=
  ⟨fun hs => ⟨h.wf hs, fun _ _ hf => h.rd hs (fun hk => hf (hW _ hk))⟩⟩

theorem State.writesIn_wr (s : State) (v : Nat) (h : W (fkey d f)) : s.writesIn W (s.wr d f v) :=
  ⟨fun hs => ⟨State.wr_wf _ _ _ _ hs, fun _ _ hg => State.rd_wr_other _ _ hs (fun e => hg (e ▸ h))⟩⟩

theorem State.writesIn_foldl {g : State → α → State} {l : List α} (h : ∀ x ∈ l, ∀ s : State, s.writesIn W (g s x)) (s : State) :
    s.writesIn W (l.foldl g s) := by
  induction l generalizing s with
  | nil => exact s.writesIn_refl W
  | cons x l ih =>
    exact (h x (List.mem_cons_self ..) s).trans (ih (fun y hy => h y (List.mem_cons_of_mem _ hy)) (g s x))

theorem State.writesIn_wrs (s : State) {l : List (Fld × Nat)} (h : ∀ p ∈ l, W (fkey d p.1)) : s.writesIn W (s.wrs d l) :=
  State.writesIn_foldl (fun p hp s => s.writesIn_wr p.2 (h p hp)) s

theorem State.writesIn_when (s : State) (c : Bool) {f : State → State} (h : ∀ s : State, s.writesIn W (f s)) : s.writesIn W (s.when c f) := by
  cases c
  · exact s.writesIn_refl W
  · exact h s

theorem State.writesIn_ite {c : Prop} [Decidable c] (h : s.writesIn W t) (h' : s.writesIn W u) : s.writesIn W (if c then t else u) := by
  split
  · exact h
  · exact h'

namespace State.writesIn

/-! What is done to a state once it has been reached: each keeps to `W` if what it writes does. -/

theorem wr (h : s.writesIn W t) {v : Nat} (hk : W (fkey d f)) : s.writesIn W (t.wr d f v) := h.trans (t.writesIn_wr v hk)
theorem wrs (h : s.writesIn W t) {l : List (Fld × Nat)} (hl : ∀ p ∈ l, W (fkey d p.1)) : s.writesIn W (t.wrs d l) :=
  h.trans (t.writesIn_wrs hl)
theorem emit (h : s.writesIn W t) {o : Output} : s.writesIn W (t.emit o) := h.of_right
theorem modDie (h : s.writesIn W t) {m : DieState → DieState} : s.writesIn W (t.modDie d m) := h.of_right
theorem when (h : s.writesIn W t) {c : Bool} {f : State → State} (hf : ∀ s : State, s.writesIn W (f s)) : s.writesIn W (t.when c f) :=
  h.trans (t.writesIn_when c hf)
theorem foldl (h : s.writesIn W t) {g : State → α → State} {l : List α} (hg : ∀ x ∈ l, ∀ s : State, s.writesIn W (g s x)) :
    s.writesIn W (l.foldl g t) := h.trans (State.writesIn_foldl hg t)

end State.writesIn

/-- The keys of a list of fields. -/
def keysOf (l : List (Die × Fld)) (k : Nat) : Prop := ∃ p ∈ l, k = fkey p.1 p.2

theorem State.writesIn.onlyFields {l : List (Die × Fld)} (h : s.writesIn (keysOf l) t) (hs : tblWf s.regs = true) : onlyFields l s t :=
  fun _ _ hf => h.rd hs (fun ⟨p, hp, e⟩ => hf p hp e)

theorem State.writesIn_wr_of (s : State) (v : Nat) {fs : List (Die × Fld)} (h : fs.contains (d, f) = true) :
    s.writesIn (keysOf fs) (s.wr d f v) :=
  s.writesIn_wr v ⟨_, List.contains_iff_mem.mp h, rfl⟩

theorem State.writesIn_wrs_of (s : State) {l : List (Fld × Nat)} {fs : List (Die × Fld)}
    (h : (l.all (fun p => fs.contains (d, p.1))) = true) : s.writesIn (keysOf fs) (s.wrs d l) :=
  s.writesIn_wrs (fun p hp => ⟨_, List.contains_iff_mem.mp (List.all_eq_true.mp h p hp), rfl⟩)

/-! ## Several writes of one die -/

theorem State.wrs_wf (s : State) (d : Die) (l : List (Fld × Nat)) (h : tblWf s.regs = true) : tblWf (s.wrs d l).regs = true :=
  (s.writesIn_wrs (W := fun _ => True) (fun _ _ => trivial)).wf h

theorem State.rd_bumpBy_same (s : State) (d : Die) (f : Fld) (n : Nat) (h : tblWf s.regs = true) :
    (s.bumpBy d f n).rd d f = min (s.rd d f + n) (2 ^ f.w - 1) := by
  have := Nat.two_pow_pos f.w
  rw [State.bumpBy, State.rd_wr_same _ _ _ _ h, Nat.mod_eq_of_lt (by omega)]

/-- Two fields of a die stand in different registers, or at different bits of one. -/
def Fld.apart (f g : Fld) : Bool := (f.off != g.off || f.lo != g.lo) && (decide (f.lo < 64) && decide (g.lo < 64))

theorem Fld.apart.fkey_ne (h : f.apart g = true) (d : Die) : fkey d f ≠ fkey d g := by
  simp only [Fld.apart, Bool.and_eq_true, Bool.or_eq_true, bne_iff_ne, decide_eq_true_eq] at h
  unfold fkey
  omega

theorem State.rd_wrs_other {l : List (Fld × Nat)} (h : tblWf s.regs = true)
    (hl : (l.all (fun p => g.apart p.1)) = true := by rfl) : (s.wrs d l).rd d g = s.rd d g :=
  (s.writesIn_wrs (W := fun k => k ≠ fkey d g) (fun p hp => ((Fld.apart.fkey_ne (List.all_eq_true.mp hl p hp) d)).symm)).rd h
    (fun hn => hn rfl)

/-- A field reads the last of several writes to it, cut to its width: the `i`-th, where no later one meets it. -/
theorem State.rd_wrs {l : List (Fld × Nat)} {v x : Nat} (i : Nat) (h : tblWf s.regs = true) (hi : l[i]? = some (f, v) := by rfl)
    (hl : ((l.drop (i + 1)).all (fun p => f.apart p.1)) = true := by rfl) (hx : v % 2 ^ f.w = x := by rfl) :
    (s.wrs d l).rd d f = x := by
  obtain ⟨hlt, hget⟩ := List.getElem?_eq_some_iff.mp hi
  have split : s.wrs d l = ((s.wrs d (l.take i)).wr d f v).wrs d (l.drop (i + 1)) := by
    conv_lhs => rw [← List.take_append_drop i l, List.drop_eq_getElem_cons hlt, hget]
    exact List.foldl_append ..
  have hw := s.wrs_wf d (l.take i) h
  rw [split, State.rd_wrs_other (State.wr_wf _ _ _ _ hw) hl, State.rd_wr_same _ _ _ _ hw, hx]

end Sys2Proof.Machine
end

section
/-! The ownership token (O10), the quiesce, the feature floor and the scrub (O13). -/

set_option Elab.async false

namespace Sys2Proof.Machine

variable {s : State} {rq : Requester} {c : Instr} {Q : State → Prop}

theorem Runs.of_next {t : State} (h : exec c s = .next t) (hQ : Q t) : Runs c s Q := ⟨t, h, hQ⟩

/-- A requester with the IMS's rights performs its access. -/
theorem State.asIms_warden (h : s.imsWarden rq) (off : Nat) (act : State → State) : s.asIms rq off act = act s := by
  obtain ⟨hbar, hpriv⟩ := h
  simp only [State.asIms, hbar, hpriv, Bool.not_true, Bool.false_eq_true, if_false, if_true]

/-! ## The ownership token (R54) -/

theorem rqClass_lt (rq : Requester) : rqClass rq < 2 ^ 2 := by
  cases rq with
  | fn _ => exact Nat.lt_succ_self 3
  | svc | oob | mgt => decide

theorem rqFn_lt (rq : Requester) : rqFn rq < 2 ^ 10 := by
  cases rq with
  | fn f => have := f.hp.isLt; have := f.fn.isLt; simp only [rqFn, fnNum]; omega
  | svc | oob | mgt => decide

theorem State.holdsToken_iff : s.holdsToken rq = true ↔
    s.rd .a IMS.TOKEN.OWNER_CLASS = rqClass rq ∧ s.rd .a IMS.TOKEN.OWNER_FN = rqFn rq := by
  simp [State.holdsToken]

theorem State.mayHold_iff : s.mayHold rq = true ↔ s.rd .a IMS.TOKEN.OWNER_CLASS = 0 ∨ s.holdsToken rq = true := by
  simp [State.mayHold]

/-- The fields of the token and of its lease. -/
def tokenFields : List (Die × Fld) := [(.a, IMS.TOKEN.OWNER_CLASS), (.a, IMS.TOKEN.OWNER_FN), (.a, IMS.LEASE.REMAIN_MS)]

/-- The fields that the end of a command sets. -/
def endFields : List (Die × Fld) :=
  [(.a, IMS.CMD_STATUS.BUSY), (.a, IMS.CMD_STATUS.DONE), (.a, IMS.CMD_STATUS.CODE), (.a, IMS.CMD_STATUS.DETAIL)]

theorem State.writesIn_lease (s : State) (rq : Requester) : s.writesIn (keysOf tokenFields) (s.lease rq) :=
  (s.writesIn_wrs_of (d := .a) rfl).of_right

theorem State.writesIn_freeToken (s : State) : s.writesIn (keysOf tokenFields) s.freeToken := s.writesIn_wrs_of (d := .a) rfl

theorem State.writesIn_imsEnd (s : State) (code detail : Nat) : s.writesIn (keysOf endFields) (s.imsEnd code detail) :=
  s.writesIn_wrs_of (d := .a) rfl

/-- Who holds the token, and for how long, once it has been granted. -/
theorem State.rd_lease (h : tblWf s.regs = true) (rq : Requester) : (s.lease rq).rd .a IMS.TOKEN.OWNER_CLASS = rqClass rq ∧
    (s.lease rq).rd .a IMS.TOKEN.OWNER_FN = rqFn rq ∧ (s.lease rq).rd .a IMS.LEASE.REMAIN_MS = 30000 := by
  unfold State.lease
  exact ⟨State.rd_wrs 0 h (hx := Nat.mod_eq_of_lt (rqClass_lt rq)), State.rd_wrs 1 h (hx := Nat.mod_eq_of_lt (rqFn_lt rq)),
    State.rd_wrs 2 h⟩

theorem State.rd_freeToken (h : tblWf s.regs = true) : s.freeToken.rd .a IMS.TOKEN.OWNER_CLASS = 0 ∧
    s.freeToken.rd .a IMS.TOKEN.OWNER_FN = 0 := by
  unfold State.freeToken
  exact ⟨State.rd_wrs 0 h, State.rd_wrs 1 h⟩

/-- What CMD_STATUS shows once a command has ended. -/
theorem State.rd_imsEnd (h : tblWf s.regs = true) (code detail : Nat) : (s.imsEnd code detail).rd .a IMS.CMD_STATUS.BUSY = 0 ∧
    (s.imsEnd code detail).rd .a IMS.CMD_STATUS.DONE = 1 ∧ (s.imsEnd code detail).rd .a IMS.CMD_STATUS.CODE = code % 2 ^ 8 ∧
    (s.imsEnd code detail).rd .a IMS.CMD_STATUS.DETAIL = detail % 2 ^ 8 := by
  unfold State.imsEnd
  exact ⟨State.rd_wrs 0 h, State.rd_wrs 1 h, State.rd_wrs 2 h, State.rd_wrs 3 h⟩

/-- Settles O10: each clause is one branch of its command, and the fields that the branch writes read back. -/
theorem tokenHasOneHolder : Obligations.TokenHasOneHolder := by
  rintro s rq ⟨hw, -⟩ hrq
  have acquire : exec (.tokenAcquire rq) s = .next (if s.mayHold rq then s.lease rq else s.imsEnd stIMS_BUSY 0) :=
    congrArg Host.Outcome.next (State.asIms_warden hrq ..)
  have release : exec (.tokenRelease rq) s = .next (if s.holdsToken rq then s.freeToken else s) :=
    congrArg Host.Outcome.next (State.asIms_warden hrq ..)
  have expiry : exec .tokenLeaseExpiry s =
      .next (if s.rd .a IMS.TOKEN.OWNER_CLASS ≠ 0 ∧ s.ims.leaseEnd ≤ s.now then s.freeToken else s) := rfl
  obtain ⟨freed, freedFn⟩ := State.rd_freeToken hw
  have freeOnly := s.writesIn_freeToken.onlyFields hw
  refine ⟨fun h => ?_, fun ⟨hc, hh⟩ => ?_, fun h => ?_, fun h => ?_, fun h => ?_, fun h => ?_⟩
  · rw [← State.holdsToken_iff, ← State.mayHold_iff] at h
    obtain ⟨hcls, hfn, hms⟩ := State.rd_lease hw rq
    rw [if_pos h] at acquire
    exact .of_next acquire ⟨hcls, hfn, hms, rfl, (s.writesIn_lease rq).onlyFields hw⟩
  · rw [← State.holdsToken_iff] at hh
    rw [if_neg (fun h => (State.mayHold_iff.mp h).elim hc hh)] at acquire
    obtain ⟨-, -, hcode, hdetail⟩ := State.rd_imsEnd hw stIMS_BUSY 0
    exact .of_next acquire ⟨hcode, hdetail, State.wrs_ims .., (s.writesIn_imsEnd stIMS_BUSY 0).onlyFields hw⟩
  · rw [if_pos (State.holdsToken_iff.mpr h)] at release
    exact .of_next release ⟨freed, freedFn, freeOnly⟩
  · rw [if_neg (mt State.holdsToken_iff.mp h)] at release
    exact .of_next release rfl
  · rw [if_pos h] at expiry
    exact .of_next expiry ⟨freed, freeOnly⟩
  · rw [if_neg (by omega)] at expiry
    exact .of_next expiry rfl

/-! ## Quiesce (R46) -/

theorem State.blocker_wrs (s : State) (d : Die) (l : List (Fld × Nat)) : (s.wrs d l).blocker = s.blocker := by
  rw [State.wrs_eq]
  rfl

theorem State.blocker_wr (s : State) (d : Die) (f : Fld) (v : Nat) : (s.wr d f v).blocker = s.blocker := rfl

theorem State.blocker_le (s : State) : s.blocker ≤ 5 := by
  unfold State.blocker
  dsimp only
  repeat' split
  all_goals omega

/-- The state of a quiesce that begins. -/
def State.beginQuiesce (s : State) : State :=
  { s.wrs .a [(IMS.QUIESCE.REQ, 1), (IMS.QUIESCE.STATE, 1), (IMS.QUIESCE.BLOCKER, s.blocker)] with
    ims := { s.ims with quietSince := if s.blocker = 0 then some s.now else none } }

theorem State.quiesceWrite_running (h : s.rd .a IMS.QUIESCE.STATE = 0) : s.quiesceWrite true = s.beginQuiesce := by
  unfold State.quiesceWrite
  simp only [if_true, if_pos h, State.blocker_wr, State.blocker_wrs]
  rfl

theorem quiesceReq_runs (hw : tblWf s.regs = true) (hrq : s.imsWarden rq) (h : s.rd .a IMS.QUIESCE.STATE = 0) :
    Runs (.quiesceReq rq) s (fun t =>
      t.rd .a IMS.QUIESCE.REQ = 1 ∧ t.rd .a IMS.QUIESCE.STATE = 1 ∧ t.rd .a IMS.QUIESCE.BLOCKER = s.blocker ∧
      t.ims.quietSince = (if s.blocker = 0 then some s.now else none) ∧
      onlyFields [(.a, IMS.QUIESCE.REQ), (.a, IMS.QUIESCE.STATE), (.a, IMS.QUIESCE.BLOCKER)] s t) := by
  have run : exec (.quiesceReq rq) s = .next s.beginQuiesce :=
    congrArg Host.Outcome.next ((State.asIms_warden hrq ..).trans (State.quiesceWrite_running h))
  have := s.blocker_le
  refine .of_next run ⟨State.rd_wrs 0 hw, State.rd_wrs 1 hw, State.rd_wrs 2 hw (hx := Nat.mod_eq_of_lt ?_), rfl, ?_⟩
  · exact Nat.lt_of_le_of_lt this (by decide)
  · exact ((s.writesIn_wrs_of rfl).of_right).onlyFields hw

theorem quiesceEntered_runs {q : Nat} (hw : tblWf s.regs = true) (hq : s.ims.quietSince = some q) (hst : s.rd .a IMS.QUIESCE.STATE = 1)
    (hb : s.blocker = 0) (hnow : q + 100000 ≤ s.now) (harr : ∀ a, s.ims.lastArrival = some a → a < q) :
    Runs .quiesceEntered s (fun t => t.rd .a IMS.QUIESCE.STATE = 2 ∧ t.rd .a IMS.QUIESCE.BLOCKER = 0 ∧
      onlyFields [(.a, IMS.QUIESCE.STATE), (.a, IMS.QUIESCE.BLOCKER)] s t) := by
  have run : exec .quiesceEntered s = .next (s.wrs .a [(IMS.QUIESCE.STATE, 2), (IMS.QUIESCE.BLOCKER, 0)]) := by
    show execQuiesceEntered s = _
    simp only [execQuiesceEntered, hq]
    refine congrArg Host.Outcome.next (if_pos ⟨hst, hb, ?_, hnow⟩)
    split
    · next a ha => simpa using harr a ha
    · rfl
  exact .of_next run ⟨State.rd_wrs 0 hw, State.rd_wrs 1 hw, (s.writesIn_wrs_of rfl).onlyFields hw⟩

theorem quiesceEntered_early {q : Nat} (hq : s.ims.quietSince = some q) (hnow : s.now < q + 100000) :
    Runs .quiesceEntered s (fun t => t = s) := by
  refine .of_next (t := s) ?_ rfl
  show execQuiesceEntered s = _
  simp only [execQuiesceEntered, hq]
  rw [if_neg (fun h => Nat.not_lt.mpr h.2.2.2 hnow)]

/-! ## Feature floor (R64) -/

theorem featureFloorWrite_eq (hrq : s.imsWarden rq) (v : Fin 16) : exec (.featureFloorWrite rq v) s = .next (s.floorWrite v.val) :=
  congrArg Host.Outcome.next (State.asIms_warden hrq ..)

theorem featureFloorWrite_rejected {v : Fin 16} (hw : tblWf s.regs = true) (hrq : s.imsWarden rq)
    (h : s.rd .a IMS.VERSION.V < v.val ∨ (v.val < s.rd .a IMS.FEATURE_FLOOR.FLOOR ∧ s.rd .a IMS.QUIESCE.STATE ≠ 2)) :
    Runs (.featureFloorWrite rq v) s (fun t => t.rd .a IMS.FEATURE_FLOOR.REJECT = 1 ∧ onlyFields [(.a, IMS.FEATURE_FLOOR.REJECT)] s t) := by
  have run := featureFloorWrite_eq hrq v
  rw [State.floorWrite, if_pos h] at run
  exact .of_next run ⟨State.rd_wr_same _ _ _ _ hw, (s.writesIn_wr_of 1 rfl).onlyFields hw⟩

theorem featureFloorWrite_set {v : Fin 16} (hw : tblWf s.regs = true) (hrq : s.imsWarden rq) (hv : v.val ≤ s.rd .a IMS.VERSION.V)
    (h : s.rd .a IMS.FEATURE_FLOOR.FLOOR ≤ v.val ∨ s.rd .a IMS.QUIESCE.STATE = 2) :
    Runs (.featureFloorWrite rq v) s (fun t =>
      t.rd .a IMS.FEATURE_FLOOR.FLOOR = v.val ∧ onlyFields [(.a, IMS.FEATURE_FLOOR.FLOOR)] s t) := by
  have run := featureFloorWrite_eq hrq v
  rw [State.floorWrite, if_neg (by omega)] at run
  exact .of_next run ⟨(State.rd_wr_same _ _ _ _ hw).trans (Nat.mod_eq_of_lt v.isLt), (s.writesIn_wr_of v.val rfl).onlyFields hw⟩

/-! ## Scrub (R51) -/

theorem storeScrub_due (corrected lost : List (BitVec 23)) (hw : tblWf s.regs = true) (h : s.ims.scrubAt ≤ s.now) :
    Runs (.storeScrub corrected lost) s (fun t =>
      t.rd .a IMS.SCRUB_STATUS.CORRECTED = min (s.rd .a IMS.SCRUB_STATUS.CORRECTED + scrubCount (corrected.filter (fun w => !lost.contains w))) 0xFFFF ∧
      t.rd .a IMS.SCRUB_STATUS.UNCORRECTABLE = min (s.rd .a IMS.SCRUB_STATUS.UNCORRECTABLE + scrubCount lost) 0xFFFF ∧
      t.ims.scrubAt = s.now + 86400 * 10 ^ 9 ∧ t.store = s.store ∧
      onlyFields [(.a, IMS.SCRUB_STATUS.CORRECTED), (.a, IMS.SCRUB_STATUS.UNCORRECTABLE)] s t) := by
  let u : State := { s with ims := { s.ims with scrubAt := s.now + 24 * hourNs } }
  let n := scrubCount (corrected.filter (fun w => !lost.contains w))
  have run : exec (.storeScrub corrected lost) s =
      .next ((u.bumpBy .a IMS.SCRUB_STATUS.CORRECTED n).bumpBy .a IMS.SCRUB_STATUS.UNCORRECTABLE (scrubCount lost)) := by
    show execStoreScrub corrected lost s = _
    rw [execStoreScrub, if_neg (Nat.not_lt.mpr h)]
  have ne : fkey .a IMS.SCRUB_STATUS.CORRECTED ≠ fkey .a IMS.SCRUB_STATUS.UNCORRECTABLE := by decide
  have hu : tblWf u.regs = true := hw
  have hv : tblWf (u.bumpBy .a IMS.SCRUB_STATUS.CORRECTED n).regs = true := State.wr_wf _ _ _ _ hu
  refine .of_next run ⟨?_, ?_, rfl, rfl, ?_⟩
  · exact (State.rd_wr_other _ _ hv ne).trans (State.rd_bumpBy_same u .a IMS.SCRUB_STATUS.CORRECTED n hu)
  · rw [State.rd_bumpBy_same _ _ _ _ hv]
    exact congrArg (fun x => min (x + scrubCount lost) 0xFFFF) (State.rd_wr_other _ _ hu ne.symm)
  · exact ((State.writesIn_of_regs rfl).trans ((u.writesIn_wr_of _ rfl).trans (State.writesIn_wr_of _ _ rfl))).onlyFields hw

theorem storeScrub_early (corrected lost : List (BitVec 23)) (h : s.now < s.ims.scrubAt) :
    Runs (.storeScrub corrected lost) s (fun t => t = s) := by
  refine .of_next (t := s) ?_ rfl
  show execStoreScrub corrected lost s = _
  rw [execStoreScrub, if_pos h]

/-- Settles O13: each clause is the lemma of its command. -/
theorem quiesceFloorAndScrub : Obligations.QuiesceFloorAndScrub := by
  rintro s rq ⟨hw, -⟩ hrq
  exact ⟨quiesceReq_runs hw hrq, fun q hq hst hb hnow harr => quiesceEntered_runs hw hq hst hb hnow harr,
    fun q hq hnow => quiesceEntered_early hq hnow, fun v h => featureFloorWrite_rejected hw hrq h,
    fun v hv h => featureFloorWrite_set hw hrq hv h, fun c l h => storeScrub_due c l hw h, fun c l h => storeScrub_early c l h⟩

end Sys2Proof.Machine
end

section
/-! The commands of the IMS (R54, R66): what every one of them does before and after its own action, and which fields it writes. -/

set_option Elab.async false

namespace Sys2Proof.Machine

variable {s t u : State} {rq : Requester} {op src arg : Nat} {act : State → State × Nat} {host : List Byte}

/-! ## What a command does before its action -/

/-- CMD as it is written. -/
def State.cmdWritten (s : State) (op src arg : Nat) : State := s.wrs .a [(IMS.CMD.OP, op), (IMS.CMD.SRC, src), (IMS.CMD.ARG, arg)]

/-- The state in which a command acts: CMD is written, the token granted or its lease renewed, and the host buffer pulled. -/
def State.imsReady (s : State) (rq : Requester) (op src arg : Nat) : State :=
  ((s.cmdWritten op src arg).lease rq).when (((s.cmdWritten op src arg).lease rq).takesSource op) (fun s => s.pull rq src)

/-- From `s` to `t` change at most the register fields `l`, the lease, and the outputs. -/
structure State.ImsPrepares (l : List (Die × Fld)) (s t : State) : Prop where
  rest : t = { s with regs := t.regs, ims := { s.ims with leaseEnd := t.ims.leaseEnd }, out := t.out }
  regs : s.writesIn (keysOf l) t

variable {l : List (Die × Fld)}

theorem State.ImsPrepares.trans (h : s.ImsPrepares l t) (h' : t.ImsPrepares l u) : s.ImsPrepares l u :=
  ⟨by rw [h'.rest, h.rest], h.regs.trans h'.regs⟩

theorem State.imsPrepares_wrs (s : State) {w : List (Fld × Nat)} (h : (w.all (fun p => l.contains (.a, p.1))) = true) :
    s.ImsPrepares l (s.wrs .a w) :=
  ⟨by rw [State.wrs_eq], s.writesIn_wrs_of h⟩

theorem State.imsPrepares_lease (s : State) (rq : Requester) : s.ImsPrepares imsFields (s.lease rq) :=
  ⟨by unfold State.lease; rw [State.wrs_eq], (s.writesIn_wrs_of (d := .a) rfl).of_right⟩

/-- A pull counts the bytes it asks for. -/
theorem State.imsPrepares_pull (s : State) (rq : Requester) (src : Nat) : s.ImsPrepares imsFields (s.pull rq src) := by
  have refl : s.ImsPrepares imsFields s := ⟨rfl, s.writesIn_refl _⟩
  unfold State.pull
  split
  · next f =>
    split
    · refine ⟨rfl, ?_⟩
      have count : imsFields.contains (hpDie f.hp, PCU.HP_CTR.COUNT (f.hp.val % 2 * 4 + 0)) = true := by
        generalize f.hp = h
        revert h
        decide
      exact (s.writesIn_wr_of _ count).of_right
    · exact refl
  · exact refl

theorem State.imsPrepares_ready (s : State) (rq : Requester) (op src arg : Nat) : s.ImsPrepares imsFields (s.imsReady rq op src arg) := by
  have before : s.ImsPrepares imsFields ((s.cmdWritten op src arg).lease rq) := (s.imsPrepares_wrs rfl).trans (State.imsPrepares_lease _ rq)
  unfold State.imsReady State.when
  split
  · exact before.trans (State.imsPrepares_pull _ rq src)
  · exact before

namespace State.ImsPrepares

variable (h : s.ImsPrepares l t)
include h

theorem store : t.store = s.store := by rw [h.rest]
theorem running : t.running = s.running := by rw [h.rest]
theorem serial : t.serial = s.serial := by rw [h.rest]
theorem recordSigned (b : List Byte) (kind : Nat) : t.recordSigned b kind = s.recordSigned b kind := by rw [h.rest]; rfl
theorem verifyImage (b : List Byte) : t.verifyImage b = s.verifyImage b := by rw [h.rest]; rfl
theorem structureOf (b : List Byte) : t.structureOf b = s.structureOf b := by rw [h.rest]; rfl
theorem checkSource (src : Nat) (b : List Byte) : t.checkSource src b = s.checkSource src b := by
  simp only [State.checkSource, h.store, h.verifyImage]
theorem selectFrom (l : List CommitRec) (e : Nat) : t.selectFrom l e = s.selectFrom l e := by
  have try_ (r : CommitRec) : t.tryRec r = s.tryRec r := by simp only [State.tryRec, h.store, h.verifyImage]
  induction l generalizing e with
  | nil => rfl
  | cons r l ih => simp only [State.selectFrom, try_, ih]
theorem bootSelect : t.bootSelect = s.bootSelect := by simp only [State.bootSelect, h.store, h.selectFrom]

/-- A field that is not one of `l`. -/
theorem rd {d : Die} {f : Fld} (hw : tblWf s.regs = true) (hf : (l.all (fun p => fkey d f != fkey p.1 p.2)) = true) :
    t.rd d f = s.rd d f :=
  h.regs.rd hw (fun ⟨p, hp, e⟩ => bne_iff_ne.mp (List.all_eq_true.mp hf p hp) e)

theorem source (hw : tblWf s.regs = true) (rq : Requester) (src : Nat) (host : List Byte)
    (hl : (l.all (fun p => fkey .a IMS.SRC_LEN.LEN != fkey p.1 p.2)) = true := by decide) : t.source rq src host = s.source rq src host := by
  have len : t.rd .a IMS.SRC_LEN.LEN = s.rd .a IMS.SRC_LEN.LEN := h.rd hw hl
  have byte (a : Nat) : t.stagingByte a = s.stagingByte a := by rw [h.rest]; rfl
  simp only [State.source, len, h.store, byte]

end State.ImsPrepares

/-! ## The four ways of a command -/

theorem State.imsCommand_busy (h : s.rd .a IMS.CMD_STATUS.BUSY = 1) : s.imsCommand rq op src arg act = s := by
  rw [State.imsCommand, if_pos (show s.on .a IMS.CMD_STATUS.BUSY = true from beq_iff_eq.mpr h)]

/-- Writing CMD does not change who may hold the token. -/
theorem State.mayHold_cmdWritten (hw : tblWf s.regs = true) : (s.cmdWritten op src arg).mayHold rq = s.mayHold rq := by
  have cls : (s.cmdWritten op src arg).rd .a IMS.TOKEN.OWNER_CLASS = s.rd .a IMS.TOKEN.OWNER_CLASS := State.rd_wrs_other hw
  have fn : (s.cmdWritten op src arg).rd .a IMS.TOKEN.OWNER_FN = s.rd .a IMS.TOKEN.OWNER_FN := State.rd_wrs_other hw
  simp only [State.mayHold, State.holdsToken, cls, fn]

/-- Which sources a command may take depends on the enrolled keys alone. -/
theorem State.srcOk_leased : ((s.cmdWritten op src arg).lease rq).srcOk op src arg = s.srcOk op src arg := by
  have : ((s.cmdWritten op src arg).lease rq).store = s.store :=
    ((s.imsPrepares_wrs (l := imsFields) rfl).trans (State.imsPrepares_lease _ rq)).store
  simp only [State.srcOk, this]

section
variable (hb : s.rd .a IMS.CMD_STATUS.BUSY = 0)
include hb

theorem State.imsCommand_idle : s.imsCommand rq op src arg act =
    if !(s.cmdWritten op src arg).mayHold rq then (s.cmdWritten op src arg).imsEnd stIMS_BUSY 0
    else if !((s.cmdWritten op src arg).lease rq).srcOk op src arg then ((s.cmdWritten op src arg).lease rq).imsEnd stFORMAT imCOMMAND
    else if (act (s.imsReady rq op src arg)).2 = imCUT then
      (act (s.imsReady rq op src arg)).1.wrs .a [(IMS.CMD_STATUS.BUSY, 1), (IMS.CMD_STATUS.DONE, 0)]
    else (act (s.imsReady rq op src arg)).1.imsEnd (if (act (s.imsReady rq op src arg)).2 = 0 then stOK else stFORMAT)
      (act (s.imsReady rq op src arg)).2 := by
  rw [State.imsCommand, if_neg (by simp [State.on, hb])]
  rfl

variable (hw : tblWf s.regs = true)
include hw

theorem State.imsCommand_held (hm : s.mayHold rq = false) :
    s.imsCommand rq op src arg act = (s.cmdWritten op src arg).imsEnd stIMS_BUSY 0 := by
  rw [State.imsCommand_idle hb, State.mayHold_cmdWritten hw, hm]
  rfl

variable (hm : s.mayHold rq = true)
include hm

theorem State.imsCommand_badSource (hs : s.srcOk op src arg = false) :
    s.imsCommand rq op src arg act = ((s.cmdWritten op src arg).lease rq).imsEnd stFORMAT imCOMMAND := by
  rw [State.imsCommand_idle hb, State.mayHold_cmdWritten hw, hm, State.srcOk_leased, hs]
  rfl

theorem State.imsCommand_acts (hs : s.srcOk op src arg = true) {e : Nat} (ha : act (s.imsReady rq op src arg) = (u, e)) (he : e < 2 ^ 8) :
    s.imsCommand rq op src arg act = u.imsEnd (if e = 0 then stOK else stFORMAT) e := by
  have hcut : e ≠ imCUT := fun h => absurd (h ▸ he) (by decide)
  rw [State.imsCommand_idle hb, State.mayHold_cmdWritten hw, hm, State.srcOk_leased, hs, ha]
  simp only [Bool.not_true, Bool.false_eq_true, if_false, if_neg hcut]

end

/-! ## How a command ends -/

/-- A command has ended with a code and a detail, and from `s` on wrote only the fields of IMS commands. -/
def State.imsEnded (s : State) (code detail : Nat) (t : State) : Prop :=
  t.rd .a IMS.CMD_STATUS.BUSY = 0 ∧ t.rd .a IMS.CMD_STATUS.DONE = 1 ∧ t.rd .a IMS.CMD_STATUS.CODE = code ∧
    t.rd .a IMS.CMD_STATUS.DETAIL = detail ∧ onlyFields imsFields s t

theorem State.imsEnded_imsEnd {code detail : Nat} (hw : tblWf s.regs = true) (h : s.writesIn (keysOf imsFields) u) (hc : code < 2 ^ 8)
    (hd : detail < 2 ^ 8) : s.imsEnded code detail (u.imsEnd code detail) := by
  obtain ⟨hbusy, hdone, hcode, hdetail⟩ := State.rd_imsEnd (h.wf hw) code detail
  exact ⟨hbusy, hdone, hcode.trans (Nat.mod_eq_of_lt hc), hdetail.trans (Nat.mod_eq_of_lt hd),
    (h.trans (u.writesIn_wrs_of (d := .a) rfl)).onlyFields hw⟩

@[simp] theorem State.imsEnd_store (s : State) (c e : Nat) : (s.imsEnd c e).store = s.store := State.wrs_store ..
@[simp] theorem State.imsEnd_running (s : State) (c e : Nat) : (s.imsEnd c e).running = s.running := State.wrs_running ..
@[simp] theorem State.imsEnd_ims (s : State) (c e : Nat) : (s.imsEnd c e).ims = s.ims := State.wrs_ims ..

end Sys2Proof.Machine
end

section
/-! The control records (O12): the checks of R66 in order, the rule of each command, and what is written into the store. -/

set_option Elab.async false

namespace Sys2Proof.Machine

variable {s t r : State} {rq : Requester} {op src arg kind : Nat} {act : State → State × Nat} {host b : List Byte} {c : Instr}
  {v : Bool} {rule : Store → Except Nat Store} {st : Store}

/-! ## The checks of a record (R66) -/

/-- The first of the checks before the command's rule that a record fails, by its detail code; 0 when it passes them all. -/
def State.recordFails (s : State) (b : List Byte) (kind : Nat) : Nat :=
  if recordFormat b kind = false then 0x03
  else if le b 16 16 ≠ 0 ∧ le b 16 16 ≠ s.serial then 0x09
  else if s.recordSigned b kind = false then 0x01
  else if le b 8 8 ≤ s.store.control then 0x0E
  else 0

theorem State.recordFails_lt (s : State) (b : List Byte) (kind : Nat) : s.recordFails b kind < 2 ^ 8 := by
  unfold State.recordFails
  repeat' split
  all_goals omega

theorem State.ImsPrepares.recordFails {l : List (Die × Fld)} (h : s.ImsPrepares l r) (b : List Byte) (kind : Nat) : r.recordFails b kind = s.recordFails b kind := by
  simp only [State.recordFails, h.serial, h.recordSigned, h.store]

theorem State.controlRecord_fails (h : s.recordFails b kind ≠ 0) : s.controlRecord b kind v rule = (s, s.recordFails b kind) := by
  unfold State.recordFails at h ⊢
  unfold State.controlRecord
  by_cases hf : recordFormat b kind = false
  · simp [hf, imFORMAT]
  by_cases hs : le b 16 16 ≠ 0 ∧ le b 16 16 ≠ s.serial
  · simp [hf, hs, imSCOPE]
  by_cases hg : s.recordSigned b kind = false
  · simp [hf, hs, hg, imSIG]
  by_cases hc : le b 8 8 ≤ s.store.control
  · simp [hf, hs, hg, hc, imSTALE]
  · simp [hf, hs, hg, hc] at h

theorem State.controlRecord_passes (h : s.recordFails b kind = 0) : s.controlRecord b kind v rule =
    match rule s.store with
    | .ok st => s.putStore { st with control := le b 8 8 } v
    | .error e => (s, e) := by
  unfold State.recordFails at h
  unfold State.controlRecord
  by_cases hf : recordFormat b kind = false
  · simp [hf] at h
  by_cases hs : le b 16 16 ≠ 0 ∧ le b 16 16 ≠ s.serial
  · simp [hf, hs] at h
  by_cases hg : s.recordSigned b kind = false
  · simp [hf, hs, hg] at h
  by_cases hc : le b 8 8 ≤ s.store.control
  · simp [hf, hs, hg, hc] at h
  · simp [hf, hs, hg, hc] <;> rfl

/-! ## Writing an effect into the store -/

theorem State.showStore_writes (s : State) : s.writesIn (keysOf imsFields) s.showStore := by
  unfold State.showStore State.showHead
  split
  all_goals exact (s.writesIn_wrs_of (d := .a) rfl).trans (State.writesIn_wrs_of _ (d := .a) rfl)

@[simp] theorem State.showStore_store (s : State) : s.showStore.store = s.store := by
  unfold State.showStore State.showHead
  split
  all_goals simp only [State.wrs_store]

@[simp] theorem State.showStore_running (s : State) : s.showStore.running = s.running := by
  unfold State.showStore State.showHead
  split
  all_goals simp only [State.wrs_running]

/-- What a write of the store leaves: an effect that reads back as written, or WRITE_VERIFY over one of the two contents. -/
theorem State.putStore_spec (s : State) (st : Store) (v : Bool) : ∃ t, s.putStore st v = (t, if v then 0 else imVERIFY) ∧
    s.writesIn (keysOf imsFields) t ∧ (t.store = st ∨ v = false ∧ t.store = s.store) := by
  have shown (u : State) (hu : u.regs = s.regs) (hst : u.store = st) : s.writesIn (keysOf imsFields) u.showStore ∧ u.showStore.store = st :=
    ⟨(State.writesIn_of_regs hu).trans u.showStore_writes, u.showStore_store.trans hst⟩
  cases v with
  | true =>
    obtain ⟨hw, hst⟩ := shown { s with store := st } rfl rfl
    exact ⟨_, rfl, hw, .inl hst⟩
  | false =>
    refine ⟨_, rfl, ?_⟩
    unfold State.draw
    dsimp only
    split
    · exact ⟨State.writesIn_of_regs rfl, .inr ⟨rfl, rfl⟩⟩
    · obtain ⟨hw, hst⟩ := shown { s with free := s.free + 1, store := st } rfl rfl
      exact ⟨hw, .inl hst⟩

/-! ## A command of the IMS, by its outcome -/

/-- From a requester with the IMS's rights, `c` is an IMS command with the action `act`. -/
structure ImsInstr (c : Instr) (rq : Requester) (op src arg : Nat) (act : State → State × Nat) : Prop where
  runs : ∀ s : State, s.imsWarden rq → exec c s = .next (s.imsCommand rq op src arg act)

theorem ImsInstr.of_asIms {off : Nat} (h : ∀ s, exec c s = .next (s.asIms rq off (fun s => s.imsCommand rq op src arg act))) :
    ImsInstr c rq op src arg act :=
  ⟨fun s hrq => (h s).trans (congrArg Host.Outcome.next (State.asIms_warden hrq ..))⟩

section
variable (hw : tblWf s.regs = true) (hrun : ImsInstr c rq op src arg act) (hrq : s.imsWarden rq)
include hrun hrq

theorem Runs.ims_busy (hb : s.rd .a IMS.CMD_STATUS.BUSY = 1) : Runs c s (fun t => t = s) :=
  .of_next (hrun.runs s hrq) (State.imsCommand_busy hb)

variable (hb : s.rd .a IMS.CMD_STATUS.BUSY = 0)
include hw hb

theorem Runs.ims_held (hm : s.mayHold rq = false) : Runs c s (fun t => s.imsEnded 0x71 0 t ∧ t.store = s.store ∧ t.ims = s.ims) := by
  refine .of_next (hrun.runs s hrq) ?_
  have prep : s.ImsPrepares imsFields (s.cmdWritten op src arg) := s.imsPrepares_wrs rfl
  rw [State.imsCommand_held hb hw hm]
  refine ⟨State.imsEnded_imsEnd hw prep.regs (by decide) (by decide), ?_, ?_⟩
  · rw [State.imsEnd_store, prep.store]
  · rw [State.imsEnd_ims]
    exact State.wrs_ims ..

variable (hm : s.mayHold rq = true)
include hm

theorem Runs.ims_badSource (hs : s.srcOk op src arg = false) : Runs c s (fun t => s.imsEnded 0x22 0x0D t ∧ t.store = s.store) := by
  refine .of_next (hrun.runs s hrq) ?_
  have prep : s.ImsPrepares imsFields ((s.cmdWritten op src arg).lease rq) := (s.imsPrepares_wrs rfl).trans (State.imsPrepares_lease _ rq)
  rw [State.imsCommand_badSource hb hw hm hs]
  exact ⟨State.imsEnded_imsEnd hw prep.regs (by decide) (by decide), by rw [State.imsEnd_store, prep.store]⟩

variable (hs : s.srcOk op src arg = true)
include hs

/-- An action that refuses leaves the store as it was. -/
theorem Runs.ims_refused {e : Nat} (ha : act (s.imsReady rq op src arg) = (s.imsReady rq op src arg, e)) (h0 : e ≠ 0) (he : e < 2 ^ 8) :
    Runs c s (fun t => s.imsEnded 0x22 e t ∧ t.store = s.store) := by
  refine .of_next (hrun.runs s hrq) ?_
  have prep := s.imsPrepares_ready rq op src arg
  rw [State.imsCommand_acts hb hw hm hs ha he, if_neg h0]
  exact ⟨State.imsEnded_imsEnd hw prep.regs (by decide) he, by rw [State.imsEnd_store, prep.store]⟩

/-- An action that writes its effect into the store. -/
theorem Runs.ims_put (ha : act (s.imsReady rq op src arg) = (s.imsReady rq op src arg).putStore st v) :
    Runs c s (fun t => s.imsEnded (if v then 0 else 0x22) (if v then 0 else 0x0A) t ∧ (t.store = st ∨ v = false ∧ t.store = s.store)) := by
  have prep := s.imsPrepares_ready rq op src arg
  obtain ⟨u, hput, hu, hst⟩ := (s.imsReady rq op src arg).putStore_spec st v
  have he : (if v then 0 else imVERIFY) < 2 ^ 8 := by cases v <;> decide
  refine .of_next (hrun.runs s hrq) ?_
  rw [State.imsCommand_acts hb hw hm hs (ha.trans hput) he]
  rw [prep.store] at hst
  have hreg := prep.regs.trans hu
  refine ⟨?_, by rwa [State.imsEnd_store]⟩
  cases v
  all_goals exact State.imsEnded_imsEnd hw hreg (by decide) he

end

/-! ## Commands that take a control record -/

/-- The action of a command that takes a control record. -/
def recordAct (rq : Requester) (host : List Byte) (kind : Nat) (v : Bool) (rule : List Byte → Store → Except Nat Store) (s : State) :
    State × Nat :=
  s.controlRecord (s.source rq 0 host) kind v (rule (s.source rq 0 host))

section
variable {rule : List Byte → Store → Except Nat Store} (hw : tblWf s.regs = true) (hrun : ImsInstr c rq op src arg act)
  (hrq : s.imsWarden rq) (hb : s.rd .a IMS.CMD_STATUS.BUSY = 0) (hm : s.mayHold rq = true) (hs : s.srcOk op src arg = true)
  (hact : act (s.imsReady rq op src arg) = recordAct rq host kind v rule (s.imsReady rq op src arg))
include hw hrun hrq hb hm hs hact

theorem Runs.record_fails (h : s.recordFails (s.source rq 0 host) kind ≠ 0) :
    Runs c s (fun t => s.imsEnded 0x22 (s.recordFails (s.source rq 0 host) kind) t ∧ t.store = s.store) := by
  have prep := s.imsPrepares_ready rq op src arg
  have fails := prep.recordFails (s.source rq 0 host) kind
  refine Runs.ims_refused hw hrun hrq hb hm hs (hact.trans ?_) h (s.recordFails_lt _ _)
  rw [recordAct, prep.source hw, ← fails]
  exact State.controlRecord_fails (fails ▸ h)

variable (h : s.recordFails (s.source rq 0 host) kind = 0)
include h

theorem Runs.record_breaksRule {e : Nat} (hr : rule (s.source rq 0 host) s.store = .error e) (h0 : e ≠ 0) (he : e < 2 ^ 8) :
    Runs c s (fun t => s.imsEnded 0x22 e t ∧ t.store = s.store) := by
  have prep := s.imsPrepares_ready rq op src arg
  refine Runs.ims_refused hw hrun hrq hb hm hs (hact.trans ?_) h0 he
  rw [recordAct, prep.source hw, State.controlRecord_passes ((prep.recordFails _ _).trans h), prep.store, hr]

theorem Runs.record_put {st : Store} (hr : rule (s.source rq 0 host) s.store = .ok st) :
    Runs c s (fun t => s.imsEnded (if v then 0 else 0x22) (if v then 0 else 0x0A) t ∧
      (t.store = { st with control := le (s.source rq 0 host) 8 8 } ∨ v = false ∧ t.store = s.store)) := by
  have prep := s.imsPrepares_ready rq op src arg
  refine Runs.ims_put hw hrun hrq hb hm hs (hact.trans ?_)
  rw [recordAct, prep.source hw, State.controlRecord_passes ((prep.recordFails _ _).trans h), prep.store, hr]

end

/-! ## The four commands -/

theorem imsInstr_enrolKey (rq : Requester) (src : Fin 4) (host : List Byte) (v : Bool) :
    ImsInstr (.enrolKey rq src host v) rq 4 src.val 0 (recordAct rq host 1 v enrolRule) := .of_asIms (fun _ => rfl)
theorem imsInstr_revokeKey (rq : Requester) (src : Fin 4) (host : List Byte) (v : Bool) :
    ImsInstr (.revokeKey rq src host v) rq 5 src.val 0 (recordAct rq host 2 v revokeRule) := .of_asIms (fun _ => rfl)
theorem imsInstr_raiseEpoch (rq : Requester) (src : Fin 4) (host : List Byte) (v : Bool) :
    ImsInstr (.raiseEpoch rq src host v) rq 6 src.val 0 (recordAct rq host 3 v epochRule) := .of_asIms (fun _ => rfl)

/-- The action of SET_BOOT_POLICY: without an owner key it takes no record. -/
def policyAct (rq : Requester) (host : List Byte) (arg : Nat) (v : Bool) (s : State) : State × Nat :=
  if s.store.owners.isEmpty then s.putStore { s.store with policy := arg } v else recordAct rq host 4 v (policyRule arg) s

theorem imsInstr_setBootPolicy (rq : Requester) (src arg : Fin 4) (host : List Byte) (v : Bool) :
    ImsInstr (.setBootPolicy rq src arg host v) rq 7 src.val arg.val (policyAct rq host arg.val v) := .of_asIms (fun _ => rfl)

/-- The commands that take a control record and nothing else, each with its record's kind. -/
def plainRecords (rq : Requester) (host : List Byte) (src : Fin 4) (v : Bool) : List (Instr × Nat) :=
  [(.enrolKey rq src host v, 1), (.revokeKey rq src host v, 2), (.raiseEpoch rq src host v, 3)]

theorem plainRecords_spec {src : Fin 4} {c : Instr × Nat} (hc : c ∈ plainRecords rq host src v) :
    ∃ rule, 1 ≤ c.2 ∧ c.2 ≤ 3 ∧ ImsInstr c.1 rq (c.2 + 3) src.val 0 (recordAct rq host c.2 v rule) := by
  simp only [plainRecords, List.mem_cons, List.not_mem_nil, or_false] at hc
  rcases hc with rfl | rfl | rfl
  · exact ⟨_, Nat.le_of_ble_eq_true rfl, Nat.le_of_ble_eq_true rfl, imsInstr_enrolKey ..⟩
  · exact ⟨_, Nat.le_of_ble_eq_true rfl, Nat.le_of_ble_eq_true rfl, imsInstr_revokeKey ..⟩
  · exact ⟨_, Nat.le_of_ble_eq_true rfl, Nat.le_of_ble_eq_true rfl, imsInstr_raiseEpoch ..⟩

/-- Every command that takes a control record is a command of the IMS. -/
theorem recordForms_spec {src : Fin 4} {c : Instr × Nat}
    (hc : c ∈ plainRecords rq host src v ++ (List.finRange 4).map (fun a => (.setBootPolicy rq src a host v, 4))) :
    ∃ op arg act, ImsInstr c.1 rq op src.val arg act := by
  rcases List.mem_append.mp hc with hc | hc
  · obtain ⟨rule, -, -, h⟩ := plainRecords_spec hc
    exact ⟨_, _, _, h⟩
  · obtain ⟨a, -, rfl⟩ := List.mem_map.mp hc
    exact ⟨_, _, _, imsInstr_setBootPolicy ..⟩

theorem State.srcOk_record {k : Nat} (src : Nat) (h1 : 1 ≤ k) (h3 : k ≤ 3) : s.srcOk (k + 3) src 0 = (src == 0) := by
  unfold State.srcOk
  rw [if_neg (by omega), if_neg (by omega), decide_eq_true (by omega), Bool.true_and]

theorem Store.owners_isEmpty {st : Store} : st.owners.isEmpty = true ↔ st.owners = [] := List.isEmpty_iff

/-! ### The rules of the commands (R66) -/

theorem enrolRule_error (h : subjectKey b ∈ st.owners ∨ 4 ≤ st.owners.length) : enrolRule b st = .error 0x0C :=
  if_pos (h.imp_left List.contains_iff_mem.mpr)

theorem enrolRule_ok (h : subjectKey b ∉ st.owners) (hl : st.owners.length < 4) :
    enrolRule b st = .ok { st with keys := putKey (subjectKey b) st.keys } :=
  if_neg (fun hc => hc.elim (fun hm => h (List.contains_iff_mem.mp hm)) (Nat.not_le.mpr hl))

theorem revokeRule_error (h : st.owners.find? (fun k => keyId k == cut b 32 16) = none ∨ st.owners.length ≤ 1) :
    revokeRule b st = .error 0x0C := by
  unfold revokeRule
  split
  · rfl
  · next k hk => exact if_pos (h.resolve_left (by simp [hk]))

theorem revokeRule_ok {k : OwnerKey} (h : st.owners.find? (fun k => keyId k == cut b 32 16) = some k) (hl : 1 < st.owners.length) :
    revokeRule b st = .ok { st with keys := st.keys.map (fun x => if x = some k then none else x) } := by
  unfold revokeRule
  rw [h]
  exact if_neg (Nat.not_le.mpr hl)

theorem epochRule_error (h : le b 6 2 < st.minEpoch) : epochRule b st = .error 0x08 := if_pos h
theorem epochRule_ok (h : st.minEpoch ≤ le b 6 2) : epochRule b st = .ok { st with minEpoch := le b 6 2 } := if_neg (Nat.not_lt.mpr h)
theorem policyRule_error (h : le b 5 1 ≠ arg) : policyRule arg b st = .error 0x0D := if_pos h
theorem policyRule_ok (h : le b 5 1 = arg) : policyRule arg b st = .ok { st with policy := arg } := if_neg (fun hn => hn h)

/-- An effect, as the statement splits it by whether the words read back as written. -/
theorem Runs.effect {c : Bool → Instr} {st : Store} (h : ∀ v, Runs (c v) s (fun t => s.imsEnded (if v then 0 else 0x22)
      (if v then 0 else 0x0A) t ∧ (t.store = st ∨ v = false ∧ t.store = s.store))) :
    Runs (c true) s (fun t => s.imsEnded 0 0 t ∧ t.store = st) ∧
      Runs (c false) s (fun t => s.imsEnded 0x22 0x0A t ∧ (t.store = s.store ∨ t.store = st)) := by
  obtain ⟨t, run, hend, hst⟩ := h true
  obtain ⟨u, run', hend', hst'⟩ := h false
  exact ⟨⟨t, run, hend, hst.resolve_right (by simp)⟩, ⟨u, run', hend', hst'.elim .inr (fun h => .inl h.2)⟩⟩

/-- SET_BOOT_POLICY on a store with an owner key takes a record. -/
theorem policyAct_record (h : s.store.owners ≠ []) (src arg : Nat) :
    policyAct rq host arg v (s.imsReady rq 7 src arg) = recordAct rq host 4 v (policyRule arg) (s.imsReady rq 7 src arg) := by
  rw [policyAct, (s.imsPrepares_ready rq 7 src arg).store]
  exact if_neg (mt Store.owners_isEmpty.mp h)

theorem State.srcOk_policy {arg : Fin 4} (ha : arg ≠ 3) (src : Nat) (h : src = 0 ∨ s.store.owners = []) : s.srcOk 7 src arg.val = true := by
  have harg : (arg.val != 3) = true := bne_iff_ne.mpr (fun e => ha (Fin.ext e))
  have hsrc : (src == 0 || s.store.owners.isEmpty) = true := by
    rcases h with h | h
    · simp [h]
    · simp [h]
  show (arg.val != 3 && (src == 0 || s.store.owners.isEmpty)) = true
  rw [harg, hsrc]
  rfl

/-- Without an owner key it takes none. -/
theorem policyAct_plain (h : s.store.owners = []) (src arg : Nat) :
    policyAct rq host arg v (s.imsReady rq 7 src arg) = (s.imsReady rq 7 src arg).putStore { s.store with policy := arg } v := by
  rw [policyAct, (s.imsPrepares_ready rq 7 src arg).store]
  exact if_pos (Store.owners_isEmpty.mpr h)

theorem State.srcOk_policy_false {src arg : Fin 4} (h : arg = 3 ∨ (src ≠ 0 ∧ s.store.owners ≠ [])) : s.srcOk 7 src.val arg.val = false := by
  show (arg.val != 3 && (src.val == 0 || s.store.owners.isEmpty)) = false
  rcases h with rfl | ⟨hs, ho⟩
  · rfl
  · have hs' : (src.val == 0) = false := beq_eq_false_iff_ne.mpr (fun e => hs (Fin.ext e))
    have ho' : s.store.owners.isEmpty = false := by simp [ho]
    rw [hs', ho', Bool.or_false, Bool.and_false]

/-- Settles O12: each clause is one of the ways of an IMS command: ignored, held off, refused for its source, its record or its rule,
or performed. -/
theorem controlRecordsTakeEffect : Obligations.ControlRecordsTakeEffect := by
  rintro s rq host ⟨hw, -⟩ hrq
  refine ⟨fun hb src v c hc => ?_, fun hb hm src v c hc => ?_, fun hb hm => ⟨fun src v hsrc c hc => ?_, fun src arg v h => ?_,
    fun v c hc hf => ?_, fun v hf h => ?_, fun hf hk hl => Runs.effect (fun v => ?_), fun v hf h => ?_,
    fun k hf hk hl => Runs.effect (fun v => ?_), fun v hf h => ?_, fun hf h => Runs.effect (fun v => ?_),
    fun arg ha ho => ⟨fun v hf => ?_, fun v hf h => ?_, fun hf h => Runs.effect (fun v => ?_)⟩,
    fun src arg ha ho => Runs.effect (fun v => ?_)⟩⟩
  · obtain ⟨op, arg, act, h⟩ := recordForms_spec hc
    exact Runs.ims_busy h hrq hb
  · obtain ⟨op, arg, act, h⟩ := recordForms_spec hc
    exact Runs.ims_held hw h hrq hb hm
  · obtain ⟨rule, h1, h3, h⟩ := plainRecords_spec hc
    refine Runs.ims_badSource hw h hrq hb hm ((State.srcOk_record _ h1 h3).trans ?_)
    exact beq_eq_false_iff_ne.mpr (fun e => hsrc (Fin.ext e))
  · exact Runs.ims_badSource hw (imsInstr_setBootPolicy ..) hrq hb hm (State.srcOk_policy_false h)
  · obtain ⟨rule, h1, h3, h⟩ := plainRecords_spec hc
    exact Runs.record_fails hw h hrq hb hm (State.srcOk_record _ h1 h3) rfl hf
  · exact Runs.record_breaksRule hw (imsInstr_enrolKey ..) hrq hb hm rfl rfl hf (enrolRule_error h) (by decide) (by decide)
  · exact Runs.record_put hw (imsInstr_enrolKey ..) hrq hb hm rfl rfl hf (enrolRule_ok hk hl)
  · exact Runs.record_breaksRule hw (imsInstr_revokeKey ..) hrq hb hm rfl rfl hf (revokeRule_error h) (by decide) (by decide)
  · exact Runs.record_put hw (imsInstr_revokeKey ..) hrq hb hm rfl rfl hf (revokeRule_ok hk hl)
  · exact Runs.record_breaksRule hw (imsInstr_raiseEpoch ..) hrq hb hm rfl rfl hf (epochRule_error h) (by decide) (by decide)
  · exact Runs.record_put hw (imsInstr_raiseEpoch ..) hrq hb hm rfl rfl hf (epochRule_ok h)
  · exact Runs.record_fails hw (imsInstr_setBootPolicy ..) hrq hb hm (State.srcOk_policy ha _ (.inl rfl)) (policyAct_record ho _ _) hf
  · exact Runs.record_breaksRule hw (imsInstr_setBootPolicy ..) hrq hb hm (State.srcOk_policy ha _ (.inl rfl)) (policyAct_record ho _ _) hf
      (policyRule_error h) (by decide) (by decide)
  · exact Runs.record_put hw (imsInstr_setBootPolicy ..) hrq hb hm (State.srcOk_policy ha _ (.inl rfl)) (policyAct_record ho _ _) hf
      (policyRule_ok h)
  · exact Runs.ims_put hw (imsInstr_setBootPolicy ..) hrq hb hm (State.srcOk_policy ha _ (.inr ho)) (policyAct_plain ho _ _)

end Sys2Proof.Machine
end

section
/-! The register fields that the memory system and the engines write (05_host_ports.md R138 to R157): a few counters and the rotation
pointer of a HAG. None of them lies at or below the IMS's page, and none among the states of the power domains. -/

set_option Elab.async false

namespace Sys2Proof.Machine

variable {s t : State} {d : Die} {f : Fld}

/-- Keys above the IMS's page of die A and outside the registers of the power domains. -/
def memKeys (k : Nat) : Prop := 0x8000000 ≤ k ∧ ¬ (0x3c04000 ≤ k / 64 % 0x4000000 ∧ k / 64 % 0x4000000 < 0x3c08000)

/-- A field of a die window that lies there. -/
def Fld.inMem (f : Fld) : Bool := (decide (0x200000 ≤ f.off ∧ f.off < 0x3c04000) || decide (0x3c08000 ≤ f.off ∧ f.off < 0x4000000)) && decide (f.lo < 64)

theorem memKeys_of_inMem (d : Die) (h : f.inMem = true) : memKeys (fkey d f) := by
  simp only [Fld.inMem, Bool.and_eq_true, Bool.or_eq_true, decide_eq_true_eq] at h
  have hd : d.base = 0 ∨ d.base = 0x4000000 := by cases d; exacts [.inl rfl, .inr rfl]
  unfold memKeys fkey
  omega

theorem not_memKeys (h : fkey d f < 0x8000000) : ¬ memKeys (fkey d f) := fun hm => Nat.not_lt.mpr hm.1 h

theorem memKeys_of_all {l : List (Fld × Nat)} (d : Die) (h : (l.all (fun p => p.1.inMem)) = true) : ∀ p ∈ l, memKeys (fkey d p.1) :=
  fun p hp => memKeys_of_inMem d (List.all_eq_true.mp h p hp)

/-- A field of a host port's DVSEC. -/
theorem memKeys_of_hp {n : Nat} (hn : n < 8) (hf : f.off = 0x8000018 + 0x100 * n ∨ f.off = 0x8000024 + 0x100 * n) (hl : f.lo = 0) :
    memKeys (fkey .a f) := by
  have hd : Die.a.base = 0 := rfl
  unfold memKeys fkey
  omega

theorem State.fnLink_lt (s : State) (f : Fn) : s.fnLink f < 8 := by
  have := f.hp.isLt
  unfold State.fnLink linkIdx b2n
  split <;> omega

namespace State

theorem writes_bump_mem (s : State) (d : Die) (h : f.inMem = true := by decide) : s.writesIn memKeys (s.bump d f) :=
  s.writesIn_wr _ (memKeys_of_inMem d h)

/-! ## The hold engine -/

theorem writes_busyReturn (s : State) (f : Fn) (low : Nat) : s.writesIn memKeys (s.busyReturn f low) :=
  (s.writesIn_wr _ (memKeys_of_hp (s.fnLink_lt f) (.inr rfl) rfl)).of_right

theorem writes_mstore (s : State) (a : Nat) (bs : List Byte) (p : Bool) : s.writesIn memKeys (s.mstore a bs p) :=
  writesIn_of_regs (State.mstore_regs ..)

theorem writes_holdReturn (s : State) (f : Fn) (low : Nat) : s.writesIn memKeys (s.holdReturn f low) := writesIn_of_regs rfl

theorem writes_acquire (s : State) (f : Fn) (a : Nat) : s.writesIn memKeys (s.acquire f a) :=
  (((writes_mstore _ a _ false).trans (writes_bump_mem _ (s.memDie a))).trans (writes_holdReturn _ f 0)).of_left

theorem writes_holdKick (s : State) (a : Nat) : s.writesIn memKeys (s.holdKick a) := by
  unfold State.holdKick
  split
  · exact s.writesIn_refl _
  · split
    · exact s.writesIn_refl _
    · split
      · exact (writes_acquire ..).of_left
      · exact s.writesIn_refl _

theorem writes_mwrite (s : State) (a : Nat) (bs : List Byte) (p : Bool) : s.writesIn memKeys (s.mwrite a bs p) :=
  (s.writes_mstore a bs p).foldl (fun x _ s => s.writes_holdKick x)

theorem writes_holdServe (s : State) (f : Fn) (a deadline : Nat) : s.writesIn memKeys (s.holdServe f a deadline) := by
  have refused : s.writesIn memKeys ((s.bump (s.memDie a) DMEM.HOLD_REFUSED.COUNT).busyReturn f (s.mword a)) :=
    (s.writes_bump_mem (f := DMEM.HOLD_REFUSED.COUNT) _).trans (writes_busyReturn ..)
  unfold State.holdServe
  dsimp only
  split
  · exact refused
  · split
    · exact s.writes_acquire f a
    · split
      · exact refused
      · exact writesIn_of_regs rfl

/-! ## Accesses at their ordering point -/

theorem writes_readDone (s : State) (f : Option Fn) (l : List Byte) (p : Bool) : s.writesIn memKeys (s.readDone f l p) := by
  unfold State.readDone
  split
  · next f =>
    exact (writesIn_when s p (fun s => s.writesIn_wr _ (memKeys_of_hp (s.fnLink_lt f) (.inl rfl) rfl))).of_right
  · exact s.writesIn_refl _

theorem writes_devPerform (s : State) (x : DevAccess) : s.writesIn memKeys (s.devPerform x).1 := by
  unfold State.devPerform
  dsimp only
  split
  · exact writesIn_when s _ (fun s => s.writes_readDone ..)
  · exact s.writes_mwrite ..
  · exact (s.writes_readDone ..).trans (writes_mwrite ..)
  · dsimp only
    split
    · exact s.writes_holdServe ..
    · exact s.writesIn_refl _
  · exact s.writesIn_refl _

theorem writes_devLost (s : State) (x : DevAccess) : s.writesIn memKeys (s.devLost x) := by
  have drop := s.writes_bump_mem (f := PWC.LOCKED_OFF_DROPS.COUNT) (s.memDie x.addr)
  unfold State.devLost
  dsimp only
  split
  · exact drop.trans (writes_readDone ..)
  · exact drop.trans (writes_readDone ..)
  · split
    · exact writesIn_of_regs rfl
    · exact s.writesIn_refl _
  · exact drop
  · exact s.writesIn_refl _

theorem writes_devEnd (s : State) (x : DevAccess) : s.writesIn memKeys (s.devEnd x).1 := by
  unfold State.devEnd
  split
  · exact writesIn_of_regs rfl
  · exact s.writesIn_refl _

theorem writes_devAct (s : State) (x : DevAccess) : s.writesIn memKeys (s.devAct x).1 := by
  have perform := s.writes_devPerform x
  unfold State.devAct
  split
  · next h => rw [h] at perform; exact perform
  · next h => rw [h] at perform; exact perform.trans (writes_devEnd ..)

theorem writes_devSubmit (s : State) (x : DevAccess) : s.writesIn memKeys (s.devSubmit x).1 := by
  unfold State.devSubmit
  dsimp only
  split
  · exact (s.writes_devLost x).trans (writes_devEnd ..)
  · split
    · exact s.writes_devAct x
    · exact writesIn_of_regs rfl

theorem writes_devStart (s : State) (x : DevAccess) : s.writesIn memKeys (s.devStart x).1 := by
  unfold State.devStart
  dsimp only
  split
  · exact writesIn_of_regs rfl
  · split
    · exact s.writes_devSubmit x
    · split <;> exact writesIn_of_regs rfl

/-! ## The home agent -/

theorem writes_hagStart (s : State) (line : Nat) (r : HagReq) : s.writesIn memKeys (s.hagStart line r).1 := by
  unfold State.hagStart
  dsimp only
  split
  · exact writesIn_of_regs rfl
  · split <;> exact writesIn_of_regs rfl

theorem writes_snoop (s : State) (line : Nat) (l : List (Fin 4)) (inv : Bool) : s.writesIn memKeys (s.snoop line l inv) :=
  writesIn_foldl (fun _ _ _ => (writes_bump_mem (f := HAG.BISNP_SENT.COUNT) _ _).of_left) s

theorem writes_hagGrant (s : State) (line : Nat) (r : HagReq) (k : Tracker) : s.writesIn memKeys (s.hagGrant line r k) := by
  unfold State.hagGrant
  dsimp only
  exact ((((s.writesIn_refl _).when (fun s => s.writes_bump_mem _)).wr (memKeys_of_inMem _ (by decide))).wr
    (memKeys_of_inMem _ (by decide))).emit.modDie

theorem writes_hagEvict (s : State) (line : Nat) : s.writesIn memKeys (s.hagEvict line).1 := by
  unfold State.hagEvict
  dsimp only
  split
  · exact s.writesIn_refl _
  · split
    · exact writesIn_of_regs rfl
    · exact (s.writes_snoop ..).trans ((writes_bump_mem (f := HAG.SF_EVICTIONS.COUNT) _ _).of_right)

theorem writes_hagRecall (s : State) (line : Nat) (k : Tracker) (e : SfEntry) (l : List (Fin 4)) (inv : Bool) :
    s.writesIn memKeys (s.hagRecall line k e l inv).1 := by
  unfold State.hagRecall
  split
  · exact s.writesIn_refl _
  · exact (s.writes_snoop ..).of_right

theorem writes_hagStep (s : State) (line : Nat) : s.writesIn memKeys (s.hagStep line).1 := by
  unfold State.hagStep
  dsimp only
  split
  · exact s.writesIn_refl _
  · split
    · exact s.writesIn_refl _
    · split
      · exact writesIn_of_regs rfl
      · split
        · split
          · exact (writes_devSubmit ..).of_left
          · exact s.writes_hagRecall ..
        · split
          · exact s.writesIn_refl _
          · split
            · exact s.writes_hagRecall ..
            · split
              · exact s.writes_hagEvict line
              · exact s.writes_hagGrant ..

/-! ## The memory system -/

theorem writes_dmemServe (s : State) (d : Die) (k : Nat) : s.writesIn memKeys (s.dmemServe d k).1 := by
  unfold State.dmemServe
  dsimp only
  split
  · split
    · exact s.writesIn_refl _
    · exact ((writes_devLost ..).trans (writes_devEnd ..)).of_left
  · split
    · exact s.writesIn_refl _
    · split
      · exact s.writesIn_refl _
      · exact (writes_devAct ..).of_left

theorem writes_devDo (s : State) (w : DevWork) : s.writesIn memKeys (s.devDo w).1 := by
  cases w with
  | start x => exact s.writes_devStart x
  | request l r => exact s.writes_hagStart l r
  | line l => exact s.writes_hagStep l
  | serve d k => exact s.writes_dmemServe d k

theorem writes_devRun (n : Nat) (w : List DevWork) (s : State) : s.writesIn memKeys (State.devRun n w s) := by
  induction n generalizing w s with
  | zero => exact s.writesIn_refl _
  | succ n ih =>
    cases w with
    | nil => exact s.writesIn_refl _
    | cons w l => exact (s.writes_devDo w).trans (ih ..)

theorem writes_devGo (s : State) (n : Nat) (w : List DevWork) : s.writesIn memKeys (s.devGo n w) := writes_devRun ..

theorem writes_devAccess (s : State) (x : DevAccess) : s.writesIn memKeys (s.devAccess x) := s.writes_devGo ..

/-! ## The engines -/

theorem writes_writeEntry (s : State) (bs : List BufByte) : s.writesIn memKeys (s.writeEntry bs) :=
  writesIn_foldl (fun _ _ s => s.writes_devAccess _) s

theorem writes_engineReset (s : State) (n : Nat) : s.writesIn memKeys (s.engineReset n) :=
  (s.writes_writeEntry _).of_right

theorem writes_clusterReset (s : State) (d : Die) (i : Nat) : s.writesIn memKeys (s.clusterReset d i) :=
  writesIn_foldl (fun n _ s => s.writes_engineReset n) s

end State

end Sys2Proof.Machine
end

section
/-! INSTALL, VERIFY and APPLY (O11): the detail codes of a check, the structure that an APPLY leaves in force, and the ends of the three
commands. -/

set_option Elab.async false

namespace Sys2Proof.Machine

variable {s t u : State} {rq : Requester} {op src arg : Nat} {act : State → State × Nat} {host b : List Byte} {c : Instr}
  {r : Structure}

/-! ## Detail codes -/

theorem formatCheck_lt (b : List Byte) : formatCheck b < 2 ^ 8 := by
  unfold formatCheck
  repeat' split
  all_goals decide

theorem State.paramCheck_lt (s : State) (b : List Byte) : s.paramCheck b < 2 ^ 8 := by
  unfold State.paramCheck
  dsimp only
  repeat' split
  all_goals decide

theorem State.verifyImage_lt (s : State) (b : List Byte) : s.verifyImage b < 2 ^ 8 := by
  unfold State.verifyImage
  split
  · exact formatCheck_lt b
  · iterate 6
      split
      · decide
    exact s.paramCheck_lt b

theorem State.checkSource_lt (s : State) (src : Nat) (b : List Byte) : s.checkSource src b < 2 ^ 8 := by
  unfold State.checkSource
  dsimp only
  split
  · iterate 2
      split
      · decide
    exact s.verifyImage_lt b
  · exact s.verifyImage_lt b

/-! ## The structure in force -/

/-- A structure's first steps: the tables are empty, and its wardens and units stand. -/
def State.structureStart (s : State) (r : Structure) : State :=
  let s := { s.discard with running := some r }
  (s.writeWardens r.wardens).wr .a GLB.UNIT_ENABLED.UNITS (s.unitsOf r)

/-- A structure's last steps: the registers that name it, and at a start-up the training phase. -/
def State.structureEnd (s : State) (r : Structure) (source : Nat) : State :=
  let s := s.wrs .a [(IMS.RUNNING.SOURCE, source), (IMS.RUNNING.SECURITY_EPOCH, r.params.epoch), (IMS.VERSION.V, 1), (IMS.VERSION.L, 1),
    (IMS.FEATURE_FLOOR.FLOOR, 1), (IMS.QUIESCE.REQ, 0), (IMS.QUIESCE.STATE, 0), (IMS.QUIESCE.BLOCKER, 0), (GLB.STATUS.IMAGE_RUNNING, 1)]
  let boot := s.rd .a SVC.SVC_STATE.PHASE != 10
  let s := s.when boot (fun s =>
    { s.wrs .a [(SVC.SVC_STATE.PHASE, 9), (SVC.SVC_STATE.BOOT_SLOT, source)] with svc := { s.svc with trainingAt := s.now } })
  { s with ims := { s.ims with quietSince := none, hostImage := false } }

theorem State.applyStructure_eq (s : State) (r : Structure) (source : Nat) : s.applyStructure r source =
    (((((s.structureStart r).programDie r .a).programDie r .b).pcuClear .a).pcuClear .b).structureEnd r source := by
  unfold State.applyStructure State.structureEnd State.structureStart
  rfl

/-- The register table has its form, and `x` is the structure in force. -/
def State.inForce (x : Option Structure) (t : State) : Prop := tblWf t.regs = true ∧ t.running = x

theorem State.inForce_closed (x : Option Structure) : Closed (· == .image) (State.inForce x) where
  wr _ t d f v h := ⟨State.wr_wf t d f v h.1, by rw [State.wr_running, h.2]⟩
  store _ t a bs p h := by simpa only [State.inForce, State.mstore_regs, State.mstore_running] using h
  drop _ t p h := ⟨filter_wf _ h.1, h.2⟩
  cold _ _ t h := ⟨rfl, h.2⟩
  other t u _ _ _ _ _ hr _ _ hsame h := ⟨hr ▸ h.1, (hsame .image rfl).trans h.2⟩

theorem State.inForce.wrs {x : Option Structure} {l : List (Fld × Nat)} (h : t.inForce x) : (t.wrs .a l).inForce x :=
  ⟨t.wrs_wf .a l h.1, (State.wrs_running ..).trans h.2⟩

theorem State.discard_inForce (hw : tblWf s.regs = true) (x : Option Structure) : { s.discard with running := x }.inForce x := by
  have keeps : Holds (· == .image) (State.inForce s.running) s.discard := by
    apply State.discard_keeps _ ⟨State.inForce_closed _, hw, rfl⟩ <;> rfl
  exact ⟨keeps.holds.1, rfl⟩

theorem State.structureEnd_inForce {x : Option Structure} (h : s.inForce x) (r : Structure) (source : Nat) :
    (s.structureEnd r source).inForce x := by
  unfold State.structureEnd State.when
  dsimp only
  split
  · dsimp only [State.inForce]
    exact h.wrs.wrs
  · exact h.wrs

/-- The first of APPLY's steps makes `r` the structure in force (R47); no later one changes it. -/
theorem State.applyStructure_inForce (hw : tblWf s.regs = true) (r : Structure) (source : Nat) :
    (s.applyStructure r source).inForce (some r) := by
  have start : Holds (· == .image) (State.inForce (some r)) { s.discard with running := some r } :=
    ⟨State.inForce_closed _, State.discard_inForce hw _⟩
  have program {t : State} (d : Die) (h : Holds (· == .image) (State.inForce (some r)) t) :
      Holds (· == .image) (State.inForce (some r)) (t.programDie r d) := by
    apply State.programDie_keeps _ _ _ h <;> rfl
  have clear {t : State} (d : Die) (h : Holds (· == .image) (State.inForce (some r)) t) :
      Holds (· == .image) (State.inForce (some r)) (t.pcuClear d) := by
    apply State.pcuClear_keeps _ _ h <;> rfl
  rw [State.applyStructure_eq]
  refine State.structureEnd_inForce (clear .b (clear .a (program .b (program .a ?_)))).holds r source
  exact State.wr_keeps (State.writeWardens_keeps _ _ start rfl) rfl ..

/-! ## The three commands -/

theorem imsInstr_verify (rq : Requester) (src : Fin 4) (host : List Byte) :
    ImsInstr (.verify rq src host) rq 3 src.val 0 (fun s => s.orRefused (s.imsVerify rq src.val host)) := .of_asIms (fun _ => rfl)
theorem imsInstr_apply (rq : Requester) (src : Fin 4) (host : List Byte) :
    ImsInstr (.apply rq src host) rq 2 src.val 0 (fun s => s.orRefused (s.imsApply rq src.val host)) := .of_asIms (fun _ => rfl)

theorem State.imsVerify_ok (h : s.checkSource src (s.source rq src host) = 0) : s.imsVerify rq src host = .ok s := if_pos h
theorem State.imsVerify_error (h : s.checkSource src (s.source rq src host) ≠ 0) :
    s.imsVerify rq src host = .error (s.checkSource src (s.source rq src host)) := if_neg h
theorem State.imsApply_notQuiesced (h : s.rd .a IMS.QUIESCE.STATE ≠ 2) : s.imsApply rq src host = .error imNOT_QUIESCED := if_pos h
theorem State.imsApply_ok (hq : s.rd .a IMS.QUIESCE.STATE = 2) (h : s.checkSource src (s.source rq src host) = 0) :
    s.imsApply rq src host = .ok (s.applyStructure (s.structureOf (s.source rq src host)) (if src = 0 then 3 else src)) :=
  (if_neg (not_not.mpr hq)).trans (if_neg (not_not.mpr h))

theorem State.srcOk_image {src : Fin 4} (h : src.val ≤ 2) (hop : op = 2 ∨ op = 3) : s.srcOk op src.val 0 = true :=
  (if_pos hop).trans (decide_eq_true h)

/-- CMD_STATUS once a command has ended with OK. -/
def State.imsOk (t : State) : Prop := t.rd .a IMS.CMD_STATUS.BUSY = 0 ∧ t.rd .a IMS.CMD_STATUS.DONE = 1 ∧
  t.rd .a IMS.CMD_STATUS.CODE = 0 ∧ t.rd .a IMS.CMD_STATUS.DETAIL = 0

section
variable (hw : tblWf s.regs = true) (hrun : ImsInstr c rq op src arg act) (hrq : s.imsWarden rq)
  (hb : s.rd .a IMS.CMD_STATUS.BUSY = 0) (hm : s.mayHold rq = true) (hs : s.srcOk op src arg = true)
include hw hrun hrq hb hm hs

/-- A command whose action ends well, in `u`. -/
theorem Runs.ims_ok (ha : act (s.imsReady rq op src arg) = (u, 0)) : Runs c s (fun t => t = u.imsEnd 0 0) :=
  .of_next (hrun.runs s hrq) (State.imsCommand_acts hb hw hm hs ha (by decide))

/-- A command whose action refuses it leaves the store and the structure in force as they were. -/
theorem Runs.ims_error {e : Nat} (ha : act (s.imsReady rq op src arg) = (s.imsReady rq op src arg, e)) (h0 : e ≠ 0) (he : e < 2 ^ 8) :
    Runs c s (fun t => t.rd .a IMS.CMD_STATUS.CODE = 0x22 ∧ t.rd .a IMS.CMD_STATUS.DETAIL = e ∧ t.rd .a IMS.CMD_STATUS.DONE = 1 ∧
      t.store = s.store ∧ t.running = s.running) := by
  have prep := s.imsPrepares_ready rq op src arg
  obtain ⟨-, hdone, hcode, hdetail⟩ := State.rd_imsEnd (prep.regs.wf hw) stFORMAT e
  refine .of_next (hrun.runs s hrq) ?_
  rw [State.imsCommand_acts hb hw hm hs ha he, if_neg h0]
  exact ⟨hcode, hdetail.trans (Nat.mod_eq_of_lt he), hdone, (State.imsEnd_store ..).trans prep.store,
    (State.imsEnd_running ..).trans prep.running⟩

end

theorem State.imsOk_imsEnd (h : tblWf s.regs = true) : (s.imsEnd 0 0).imsOk := State.rd_imsEnd h 0 0

section
variable {src : Fin 4} (hw : tblWf s.regs = true) (hrq : s.imsWarden rq) (hb : s.rd .a IMS.CMD_STATUS.BUSY = 0) (hm : s.mayHold rq = true)
  (hsrc : src.val ≤ 2)
include hw hrq hb hm hsrc

theorem Runs.verify_ok (h : s.checkSource src.val (s.source rq src.val host) = 0) :
    Runs (.verify rq src host) s (fun t => t.imsOk ∧ t.store = s.store ∧ t.running = s.running) := by
  have prep := s.imsPrepares_ready rq 3 src.val 0
  have good : (s.imsReady rq 3 src.val 0).imsVerify rq src.val host = .ok (s.imsReady rq 3 src.val 0) :=
    State.imsVerify_ok (by rw [prep.source hw, prep.checkSource, h])
  obtain ⟨t, hrun, rfl⟩ := Runs.ims_ok hw (imsInstr_verify rq src host) hrq hb hm (State.srcOk_image hsrc (.inr rfl))
    (congrArg (State.orRefused _) good)
  exact ⟨_, hrun, State.imsOk_imsEnd (prep.regs.wf hw), (State.imsEnd_store ..).trans prep.store, (State.imsEnd_running ..).trans prep.running⟩

theorem Runs.verify_error (h : s.checkSource src.val (s.source rq src.val host) ≠ 0) :
    Runs (.verify rq src host) s (fun t => t.rd .a IMS.CMD_STATUS.CODE = 0x22 ∧ t.rd .a IMS.CMD_STATUS.DONE = 1 ∧ t.store = s.store ∧
      t.running = s.running) := by
  have prep := s.imsPrepares_ready rq 3 src.val 0
  have fails : (s.imsReady rq 3 src.val 0).checkSource src.val ((s.imsReady rq 3 src.val 0).source rq src.val host) ≠ 0 := by
    rwa [prep.source hw, prep.checkSource]
  obtain ⟨t, hrun, hcode, -, hrest⟩ := Runs.ims_error hw (imsInstr_verify rq src host) hrq hb hm (State.srcOk_image hsrc (.inr rfl))
    (congrArg (State.orRefused _) (State.imsVerify_error fails)) fails (State.checkSource_lt ..)
  exact ⟨t, hrun, hcode, hrest⟩

theorem Runs.apply_ok (h : s.checkSource src.val (s.source rq src.val host) = 0) (hq : s.rd .a IMS.QUIESCE.STATE = 2) :
    Runs (.apply rq src host) s (fun t => t.imsOk ∧ t.running = some (s.structureOf (s.source rq src.val host))) := by
  have prep := s.imsPrepares_ready rq 2 src.val 0
  have quiet : (s.imsReady rq 2 src.val 0).rd .a IMS.QUIESCE.STATE = 2 := (prep.rd hw (by decide)).trans hq
  have good := State.imsApply_ok (rq := rq) (host := host) quiet (by rw [prep.source hw, prep.checkSource, h])
  obtain ⟨t, hrun, rfl⟩ := Runs.ims_ok hw (imsInstr_apply rq src host) hrq hb hm (State.srcOk_image hsrc (.inl rfl))
    (congrArg (State.orRefused _) good)
  obtain ⟨hwf, hr⟩ := State.applyStructure_inForce (prep.regs.wf hw) _ (if src.val = 0 then 3 else src.val)
  refine ⟨_, hrun, State.imsOk_imsEnd hwf, (State.imsEnd_running ..).trans (hr.trans ?_)⟩
  rw [prep.source hw, prep.structureOf]

theorem Runs.apply_notQuiesced (hq : s.rd .a IMS.QUIESCE.STATE ≠ 2) :
    Runs (.apply rq src host) s (fun t => t.rd .a IMS.CMD_STATUS.CODE = 0x22 ∧ t.rd .a IMS.CMD_STATUS.DETAIL = 0x05 ∧
      t.running = s.running) := by
  have prep := s.imsPrepares_ready rq 2 src.val 0
  have busy : (s.imsReady rq 2 src.val 0).rd .a IMS.QUIESCE.STATE ≠ 2 := prep.rd (d := .a) (f := IMS.QUIESCE.STATE) hw (by decide) ▸ hq
  obtain ⟨t, hrun, hcode, hdetail, -, -, hr⟩ := Runs.ims_error hw (imsInstr_apply rq src host) hrq hb hm (State.srcOk_image hsrc (.inl rfl))
    (congrArg (State.orRefused _) (State.imsApply_notQuiesced busy)) (by decide) (by decide)
  exact ⟨t, hrun, hcode, hdetail, hr⟩

end

/-! ## INSTALL -/

/-- The slot that an INSTALL writes: the one that boot selection does not take (R55). -/
def State.installSlot (s : State) : Nat := match s.bootSelect.1 with | some r => 3 - r.slot.toNat | none => 1

/-- What an INSTALL of the image `b` writes into the store. -/
def State.installed (s : State) (b : List Byte) : Store :=
  s.store.installSteps s.installSlot (s.store.lastSeq + 1) 4 (b.take (imageLen b))

theorem State.imsInstall_ok (h : s.verifyImage (s.source rq 0 host) = 0) (hseq : s.store.lastSeq + 1 ≤ 0xFFFFFFFE) :
    s.imsInstall rq host none =
      (({ s with store := s.installed (s.source rq 0 host) }.showStore).wr .a IMS.CMD_STATUS.STEP 4, 0) :=
  (if_neg (not_not.mpr h)).trans (if_neg (Nat.not_lt.mpr hseq))

theorem State.ImsPrepares.installed {l : List (Die × Fld)} (h : s.ImsPrepares l t) (b : List Byte) : t.installed b = s.installed b := by
  simp only [State.installed, State.installSlot, h.store, h.bootSelect]

/-- INSTALL clears STEP, and is then a command of the IMS. -/
theorem exec_install (hrq : s.imsWarden rq) (hb : s.rd .a IMS.CMD_STATUS.BUSY = 0) (hm : s.mayHold rq = true) :
    exec (.install rq 0 host none) s =
      .next ((s.wrs .a [(IMS.CMD_STATUS.STEP, 0)]).imsCommand rq 1 0 0 (fun s => s.imsInstall rq host none)) := by
  have go : (!s.on .a IMS.CMD_STATUS.BUSY && s.mayHold rq) = true := by simp [State.on, hb, hm]
  refine (congrArg Host.Outcome.next (State.asIms_warden hrq ..)).trans ?_
  unfold State.installGo
  rw [go]
  rfl

theorem State.mayHold_cleared (hw : tblWf s.regs = true) : (s.wrs .a [(IMS.CMD_STATUS.STEP, 0)]).mayHold rq = s.mayHold rq := by
  have cls : (s.wrs .a [(IMS.CMD_STATUS.STEP, 0)]).rd .a IMS.TOKEN.OWNER_CLASS = s.rd .a IMS.TOKEN.OWNER_CLASS := State.rd_wrs_other hw
  have fn : (s.wrs .a [(IMS.CMD_STATUS.STEP, 0)]).rd .a IMS.TOKEN.OWNER_FN = s.rd .a IMS.TOKEN.OWNER_FN := State.rd_wrs_other hw
  simp only [State.mayHold, State.holdsToken, cls, fn]

theorem Runs.install_ok (hw : tblWf s.regs = true) (hrq : s.imsWarden rq) (hb : s.rd .a IMS.CMD_STATUS.BUSY = 0) (hm : s.mayHold rq = true)
    (h : s.verifyImage (s.source rq 0 host) = 0) (hseq : s.store.lastSeq + 1 ≤ 0xFFFFFFFE) :
    Runs (.install rq 0 host none) s (fun t => t.imsOk ∧ t.store = s.installed (s.source rq 0 host) ∧ t.rd .a IMS.CMD_STATUS.STEP = 4) := by
  have clear : s.ImsPrepares [(.a, IMS.CMD_STATUS.STEP)] (s.wrs .a [(IMS.CMD_STATUS.STEP, 0)]) := s.imsPrepares_wrs rfl
  have prep := (s.wrs .a [(IMS.CMD_STATUS.STEP, 0)]).imsPrepares_ready rq 1 0 0
  have hw' := clear.regs.wf hw
  have idle : (s.wrs .a [(IMS.CMD_STATUS.STEP, 0)]).rd .a IMS.CMD_STATUS.BUSY = 0 := (State.rd_wrs_other hw).trans hb
  have acts := State.imsCommand_acts (src := 0) (arg := 0) (op := 1) (act := fun s => s.imsInstall rq host none) idle hw'
    ((State.mayHold_cleared hw).trans hm) rfl
    (State.imsInstall_ok (by rw [prep.source hw', clear.source hw, prep.verifyImage, clear.verifyImage, h])
      (by rwa [prep.store, clear.store])) (by decide)
  refine .of_next (exec_install hrq hb hm) ?_
  rw [acts, prep.source hw', clear.source hw, prep.installed, clear.installed]
  generalize State.imsReady _ rq 1 0 0 = r at prep
  have shown : tblWf ({ r with store := s.installed (s.source rq 0 host) }.showStore).regs = true :=
    (State.showStore_writes _).wf (prep.regs.wf hw')
  have written := State.wr_wf _ .a IMS.CMD_STATUS.STEP 4 shown
  refine ⟨State.imsOk_imsEnd written, ?_, ?_⟩
  · rw [State.imsEnd_store, State.wr_store, State.showStore_store]
  · exact (State.rd_wrs_other written).trans (State.rd_wr_same _ _ _ _ shown)

/-- Settles O11: each command acts in a state that differs from `s` only in what every IMS command prepares, so its checks come out as
they do in `s`, and its end shows them. -/
theorem imageCommandsComplete : Obligations.ImageCommandsComplete := by
  rintro s rq host ⟨hw, -⟩ hrq hb hm
  exact ⟨fun h hseq => Runs.install_ok hw hrq hb hm h hseq, fun _ hsrc h => Runs.verify_ok hw hrq hb hm hsrc h,
    fun _ hsrc h => Runs.verify_error hw hrq hb hm hsrc h, fun _ hsrc h hq => Runs.apply_ok hw hrq hb hm hsrc h hq,
    fun _ hsrc hq => Runs.apply_notQuiesced hw hrq hb hm hsrc hq⟩

end Sys2Proof.Machine
end

section
/-! Function-level reset and PERST_N (O26): what is done to a function before its rings, counters and waiters go writes no register of the
IMS, and adds no ring. -/

set_option Elab.async false

namespace Sys2Proof.Machine

variable {s t : State} {d : Die} {f g : Fn} {h : Fin 4}

namespace State

/-! ## What a function held (06_work_queues.md R181) -/

theorem writes_sendQctl (s : State) (d : Die) (k : Nat) (m : Member) (up : Bool) (dest op opseq : Nat) :
    s.writesIn memKeys (s.sendQctl d k m up dest op opseq) := writesIn_of_regs rfl

theorem writes_opAbort (s : State) (i status : Nat) : s.writesIn memKeys (s.opAbort i status) := by
  unfold State.opAbort
  split
  · split
    · exact writesIn_of_regs rfl
    · exact s.writesIn_refl _
  · exact s.writesIn_refl _

theorem writes_tagFin (s : State) (d : Die) (hp : Fin 4) (polder fea msgId status bytes : Nat) :
    s.writesIn memKeys (s.tagFin d hp polder fea msgId status bytes) := writesIn_of_regs rfl

theorem writes_tmuDropQueue (s : State) (q : Nat) : s.writesIn memKeys (s.tmuDropQueue q) := by
  unfold State.tmuDropQueue
  exact ((writesIn_foldl (fun _ _ s => s.writes_tagFin ..) s).foldl (fun _ _ s => s.writes_tagFin ..)).modDie

theorem writes_trigUpdate (s : State) (k : Nat) : s.writesIn memKeys (s.trigUpdate k) := by
  unfold State.trigUpdate
  dsimp only
  split
  · exact writesIn_of_regs rfl
  · split
    · exact s.writesIn_refl _
    · split
      · exact writesIn_of_regs rfl
      · split
        · exact s.writesIn_refl _
        · exact writesIn_of_regs rfl

theorem writes_dropQueue (s : State) (k : Nat) : s.writesIn memKeys (s.dropQueue k) := (writes_trigUpdate _ k).of_left

theorem writes_quadFail (s : State) (d : Die) (k st fea : Nat) (loc : Bool) (skip : Option Nat) :
    s.writesIn memKeys (s.quadFail d k st fea loc skip) := by
  unfold State.quadFail
  split
  · exact s.writesIn_refl _
  · split
    · exact s.writesIn_refl _
    · next m _ _ =>
      have abort (st : Nat) (f : WOp → WOp) (i : Nat) (s : State) : s.writesIn memKeys ((s.modOp i f).opAbort i st) :=
        (writes_opAbort ..).of_left
      refine writesIn.modDie (writesIn.trans ?_ (writesIn_ite (writes_bump_mem _ _)
        ((writes_bump_mem _ _).wrs (memKeys_of_all _ rfl))))
      refine writesIn.trans ?_ (writesIn_ite (writesIn_refl ..) (writes_sendQctl ..))
      exact ((writesIn_foldl (fun o _ s => abort st _ o.op s) s).foldl (fun i _ s => abort st _ i s)).foldl
        (fun _ _ s => s.writes_sendQctl ..)

theorem writes_quadFailHere (s : State) (d : Die) (k st : Nat) : s.writesIn memKeys (s.quadFailHere d k st) := by
  unfold State.quadFailHere
  split
  · exact writes_quadFail ..
  · exact s.writesIn_refl _

theorem writes_quadResetFn (s : State) (f : Fn) : s.writesIn memKeys (s.quadResetFn f) :=
  writesIn_foldl (fun _ _ s => (s.writes_quadFailHere ..).modDie) s

theorem writes_dropAccesses (s : State) (f : Fn) : s.writesIn memKeys (s.dropAccesses f) := by
  unfold State.dropAccesses
  dsimp only
  refine writesIn.trans ?_ (writes_devGo ..)
  exact writesIn_of_regs rfl

theorem writes_dropReads (s : State) (f : Fn) : s.writesIn memKeys (s.dropReads f) :=
  writesIn_of_regs ((State.dropReads_keeps s f (s.holds_standing (· == .regs)) rfl rfl rfl).holds .regs rfl)

theorem writes_xluResetFn (s : State) (f : Fn) : s.writesIn memKeys (s.xluResetFn f) := writesIn_of_regs rfl

/-- A function-level reset before it takes the function's rings, counters and waiters. -/
def stopFunction (s : State) (f : Fn) : State :=
  let s := s.quadResetFn f
  let keys := (s.queues.filter (fun p => setFn (p.1 / 8) == f)).map (·.1)
  let s := keys.foldl (fun s k => (s.dropQueue k).tmuDropQueue k) s
  ((s.xluResetFn f).dropAccesses f).dropReads f

/-- The function's rings, counters, waiters and acquisition count go. -/
def takeObjects (s : State) (f : Fn) : State :=
  { s with rings := s.rings.filter (fun p => !(setFn (p.1 / 4) == f)), ctrs := s.ctrs.filter (fun p => !(setFn (p.1 / 16) == f)),
           waiters := s.waiters.filter (fun w => !(w.fn == f)), holdCounts := tdel s.holdCounts f.id }

theorem writes_takeObjects (s : State) (f : Fn) : s.writesIn memKeys (s.takeObjects f) := writesIn_of_regs rfl

theorem resetFunction_eq (s : State) (f : Fn) : s.resetFunction f =
    ((s.stopFunction f).takeObjects f).when (((s.stopFunction f).takeObjects f).holdsToken (.fn f)) State.freeToken := rfl

theorem writes_stopFunction (s : State) (f : Fn) : s.writesIn memKeys (s.stopFunction f) := by
  have dropped (l : List Nat) (s : State) : s.writesIn memKeys (l.foldl (fun s k => (s.dropQueue k).tmuDropQueue k) s) :=
    writesIn_foldl (fun k _ s => (s.writes_dropQueue k).trans (writes_tmuDropQueue _ k)) s
  exact ((((s.writes_quadResetFn f).trans (dropped _ _)).trans (writes_xluResetFn _ f)).trans (writes_dropAccesses _ f)).trans
    (writes_dropReads _ f)

/-! ## The objects that go -/

/-- A function has no ring, counter or hold waiter. -/
def bare (f : Fn) (t : State) : Prop :=
  (∀ q ∈ t.rings, setFn (q.1 / 4) ≠ f) ∧ (∀ q ∈ t.ctrs, setFn (q.1 / 16) ≠ f) ∧ (∀ w ∈ t.waiters, w.fn ≠ f)

theorem bare_takeObjects (s : State) (f : Fn) : (s.takeObjects f).bare f := by
  refine ⟨fun q hq => ?_, fun q hq => ?_, fun q hq => ?_⟩
  all_goals simpa using (List.mem_filter.mp hq).2

theorem bare_freeToken (s : State) (f : Fn) (c : Bool) (h : s.bare f) : (s.when c State.freeToken).bare f := by
  cases c
  · exact h
  · obtain ⟨hr, hc, hw⟩ := h
    unfold State.when State.freeToken
    simp only [if_true]
    exact ⟨by rwa [State.wrs_rings], by rwa [State.wrs_ctrs], by rwa [State.wrs_waiters]⟩

theorem bare_resetFunction (s : State) (f : Fn) : (s.resetFunction f).bare f := by
  rw [resetFunction_eq]
  exact bare_freeToken _ f _ (bare_takeObjects _ f)

/-- The token is free once the function that held it has been reset. -/
theorem rd_resetFunction_token (hw : tblWf s.regs = true) (hc : s.rd .a IMS.TOKEN.OWNER_CLASS = 3)
    (hf : s.rd .a IMS.TOKEN.OWNER_FN = fnNum f) : (s.resetFunction f).rd .a IMS.TOKEN.OWNER_CLASS = 0 := by
  have writes : s.writesIn memKeys ((s.stopFunction f).takeObjects f) :=
    (s.writes_stopFunction f).trans (writes_takeObjects _ f)
  have holds : ((s.stopFunction f).takeObjects f).holdsToken (.fn f) = true :=
    State.holdsToken_iff.mpr ⟨(writes.rd hw (not_memKeys (by decide))).trans hc, (writes.rd hw (not_memKeys (by decide))).trans hf⟩
  rw [resetFunction_eq, holds]
  exact (State.rd_freeToken (writes.wf hw)).1

/-! ## The rings of a port's functions (19_startup.md R568) -/

/-- A function has no ring. -/
def noRing (f : Fn) (t : State) : Prop := ∀ q ∈ t.rings, setFn (q.1 / 4) ≠ f

theorem noRing_closed (f : Fn) : Closed (· == .rings) (noRing f) where
  wr _ _ _ _ _ h := h
  store _ t a bs p h := by rwa [noRing, State.mstore_rings]
  drop _ _ _ h := h
  cold _ _ _ h := h
  other _ _ _ _ _ _ _ _ _ _ hsame h := by rwa [noRing, show _ = _ from hsame .rings rfl]

/-- No step of a function-level reset adds a ring. -/
theorem noRing_resetFunction (h : s.noRing g) (f : Fn) : (s.resetFunction f).noRing g := by
  have start : Holds (· == .rings) (noRing g) s := ⟨noRing_closed g, h⟩
  have quads : Holds (· == .rings) (noRing g) (s.quadResetFn f) := by apply State.quadResetFn_keeps _ _ start <;> rfl
  have queue {t : State} (k : Nat) (h : Holds (· == .rings) (noRing g) t) :
      Holds (· == .rings) (noRing g) ((t.dropQueue k).tmuDropQueue k) := by
    apply State.tmuDropQueue_keeps _ _ (State.dropQueue_keeps _ _ h rfl rfl rfl) <;> rfl
  have accesses {t : State} (h : Holds (· == .rings) (noRing g) t) : Holds (· == .rings) (noRing g) (t.dropAccesses f) := by
    apply State.dropAccesses_keeps _ _ h <;> rfl
  have stopped : (s.stopFunction f).noRing g := (State.dropReads_keeps _ f (accesses (State.xluResetFn_keeps _ f
    (quads.foldl (fun _ k h => queue k h)) rfl)) rfl rfl rfl).holds
  rw [resetFunction_eq]
  refine (State.when_keeps _ _ _ ⟨noRing_closed g, ?_⟩ (fun _ h => State.wrs_keeps _ _ _ h rfl)).holds
  exact fun q hq => stopped q (List.mem_filter.mp hq).1

theorem noRing_resetFunctions {l : List Fn} (hg : s.noRing g ∨ g ∈ l) : (l.foldl (fun s f => s.resetFunction f) s).noRing g := by
  induction l generalizing s with
  | nil => exact hg.resolve_right List.not_mem_nil
  | cons f l ih =>
    rw [List.foldl_cons]
    rcases hg with hg | hg
    · exact ih (.inl (noRing_resetFunction hg f))
    · rcases List.mem_cons.mp hg with rfl | hg
      · exact ih (.inl (bare_resetFunction s g).1)
      · exact ih (.inr hg)

theorem mem_portFns (f : Fn) : f ∈ portFns f.hp := List.mem_map.mpr ⟨f.fn, List.mem_finRange _, rfl⟩

theorem noRing_resetPort (s : State) (f : Fn) : (s.resetPort f.hp).noRing f := by
  have fns : Holds (· == .rings) (noRing f) ((portFns f.hp).foldl (fun s f => s.resetFunction f) s) :=
    ⟨noRing_closed f, noRing_resetFunctions (.inr (mem_portFns f))⟩
  have forgot : Holds (· == .rings) (noRing f) (((portFns f.hp).foldl (fun s f => s.resetFunction f) s).forgetHost f.hp) := by
    apply State.forgetHost_keeps _ _ fns <;> rfl
  have wrote {l : List Die} {fld : Fld} {v : State → Die → Nat} {t : State} (h : Holds (· == .rings) (noRing f) t) :
      Holds (· == .rings) (noRing f) (l.foldl (fun s d => s.wr d fld (v s d)) t) := h.foldl (fun _ _ h => State.wr_keeps h rfl ..)
  unfold State.resetPort
  exact (State.modHp_keeps _ _ _ (wrote (wrote (State.wr_keeps forgot rfl ..))) rfl).holds

/-- What a host port holds once it has been reset (R566). -/
theorem hp_resetPort (s : State) (h : Fin 4) : ∃ p : HostPort, (s.resetPort h).hp h =
    { p with link0 := linkDown, link1 := linkDown, pfOn := false, secOn := false, numVfs := 0, d3 := [], hdmOn := false,
             hdmErr := false, resp0 := responderNew, resp1 := responderNew, ide := [] } := by
  unfold State.resetPort
  exact ⟨_, State.hp_modHp_same ..⟩

theorem hp_modHp_ne {k : Fin 4} (hk : k ≠ h) (s : State) (f : HostPort → HostPort) : (s.modHp h f).hp k = s.hp k := by
  simp only [State.hp, State.modHp, Vector.get, Fin.cast]
  exact Vector.getElem_set_ne h.isLt k.isLt (fun e => hk (Fin.ext e.symm))

/-- A change of a port's state changes no register and no object of a function. -/
theorem rd_modHp (s : State) (h : Fin 4) (m : HostPort → HostPort) (d : Die) (fld : Fld) : (s.modHp h m).rd d fld = s.rd d fld := rfl
theorem bare_modHp {m : HostPort → HostPort} (hb : s.bare f) : (s.modHp h m).bare f := hb
theorem noRing_modHp {m : HostPort → HostPort} (hr : s.noRing f) : (s.modHp h m).noRing f := hr

end State

/-! ## The two resets -/

theorem Runs.polders {c : Instr} {Q : State → Prop} (hc : Grp.polders ∉ touched c) (h : Runs c s Q) :
    Runs c s (fun t => Q t ∧ ∀ d, (t.die d).polders = (s.die d).polders) := by
  obtain ⟨t, run, hQ⟩ := h
  obtain ⟨⟨ha, -⟩, ⟨hb, -⟩⟩ := exec_same run hc
  exact ⟨t, run, hQ, fun d => by cases d; exacts [ha, hb]⟩

theorem Runs.functionLevelReset (hw : tblWf s.regs = true) (f : Fn) : Runs (.functionLevelReset f) s (fun t => t.bare f ∧
    f.fn.val ∉ (t.hp f.hp).d3 ∧ (s.rd .a IMS.TOKEN.OWNER_CLASS = 3 → s.rd .a IMS.TOKEN.OWNER_FN = fnNum f →
      t.rd .a IMS.TOKEN.OWNER_CLASS = 0)) := by
  have run : exec (.functionLevelReset f) s =
    .next ((s.resetFunction f).modHp f.hp (fun p => { p with d3 := p.d3.filter (· != f.fn.val) })) := rfl
  refine .of_next run ⟨State.bare_modHp (s.bare_resetFunction f), ?_, fun hc hf =>
    (State.rd_modHp ..).trans (State.rd_resetFunction_token hw hc hf)⟩
  rw [State.hp_modHp_same]
  simp

theorem Runs.perst_sampled (hp : s.hpPresent h.val = true) (hl : (s.hp h).perst = false) (hs : s.perstSampled = true) :
    Runs (.perstNAsserted h) s (fun t => (t.hp h).perst = true ∧ (t.hp h).link0 = linkDown ∧ (t.hp h).link1 = linkDown ∧
      (t.hp h).pfOn = false ∧ (t.hp h).numVfs = 0 ∧ (t.hp h).hdmOn = false ∧ ∀ f : Fn, f.hp = h → t.noRing f) := by
  have run : exec (.perstNAsserted h) s = .next ((s.resetPort h).modHp h (fun p => { p with perst := true })) := by
    refine congrArg Host.Outcome.next ((if_neg (by simp [hp, hl])).trans ?_)
    rw [hs]
    rfl
  obtain ⟨p, hport⟩ := s.hp_resetPort h
  refine .of_next run ?_
  rw [State.hp_modHp_same, hport]
  exact ⟨rfl, rfl, rfl, rfl, rfl, rfl, fun f hf => State.noRing_modHp (hf ▸ s.noRing_resetPort f)⟩

theorem Runs.perst_unsampled (hp : s.hpPresent h.val = true) (hl : (s.hp h).perst = false) (hs : s.perstSampled = false) :
    Runs (.perstNAsserted h) s (fun t => t.hp h = { s.hp h with perst := true } ∧ ∀ k, k ≠ h → t.hp k = s.hp k) := by
  have run : exec (.perstNAsserted h) s = .next (s.modHp h (fun p => { p with perst := true })) := by
    refine congrArg Host.Outcome.next ((if_neg (by simp [hp, hl])).trans ?_)
    rw [hs]
    rfl
  exact .of_next run ⟨State.hp_modHp_same .., fun k hk => State.hp_modHp_ne hk ..⟩

theorem Runs.perst_again (hl : (s.hp h).perst = true) : Runs (.perstNAsserted h) s (fun t => t = s) :=
  .of_next (congrArg Host.Outcome.next (if_pos (.inr hl))) rfl

/-- Settles O26: what a function held is filtered out after the last step that could add to it, and no step before that writes the token's
fields. -/
theorem functionAndPortResets : Obligations.FunctionAndPortResets := by
  rintro s ⟨hw, -⟩
  refine ⟨fun f => ?_, fun h hp hl => ⟨fun hpow hphase => ?_, Runs.perst_unsampled hp hl⟩, fun h => Runs.perst_again⟩
  · obtain ⟨t, run, ⟨hbare, hd3, htoken⟩, hpol⟩ := (Runs.functionLevelReset hw f).polders (by simp [touched])
    exact ⟨t, run, hbare, hd3, hpol, htoken⟩
  · have sampled : s.perstSampled = true := by simp [State.perstSampled, hpow, hphase]
    obtain ⟨t, run, ⟨hperst, h0, h1, hpf, hvf, hdm, hring⟩, hpol⟩ := (Runs.perst_sampled hp hl sampled).polders (by simp [touched])
    exact ⟨t, run, hperst, h0, h1, hpf, hvf, hdm, hpol, hring⟩

end Sys2Proof.Machine
end

section
/-! What putting a structure in force leaves alone (02_structure_image.md R47): no step of it before the last writes a register of the SVC.
The fields of the blocks lie above the SVC's page, whatever their index. -/

set_option Elab.async false

namespace Sys2Proof.Machine

variable {s t : State} {d : Die} {f : Fld} {α : Type}

/-! ## Registers that are taken out -/

theorem tget_filter_above {lo x : Nat} {t : Tbl α} {p : Nat × α → Bool} (hp : ∀ v, p (x, v) = true) (h : tblAbove lo t = true) :
    tget (t.filter p) x = tget t x := by
  induction t generalizing lo with
  | nil => rfl
  | cons c t ih =>
    obtain ⟨k, v⟩ := c
    simp only [tblAbove, Bool.and_eq_true, decide_eq_true_eq] at h
    obtain ⟨-, ht⟩ := h
    rw [List.filter_cons]
    split
    · simp only [tget, ih ht]
    · next hk =>
      have hx : k ≠ x := fun e => hk (e ▸ hp v)
      simp only [tget, if_neg hx]
      split
      · exact tget_above (filter_above p ht) (by omega)
      · exact ih ht

theorem tget_filter {x : Nat} {t : Tbl α} {p : Nat × α → Bool} (hp : ∀ v, p (x, v) = true) (h : tblWf t = true) :
    tget (t.filter p) x = tget t x := by
  cases t with
  | nil => rfl
  | cons c t =>
    obtain ⟨k, v⟩ := c
    rw [List.filter_cons]
    split
    · simp only [tget, tget_filter_above hp h]
    · next hk =>
      have hx : k ≠ x := fun e => hk (e ▸ hp v)
      simp only [tget, if_neg hx]
      split
      · exact tget_above (filter_above p h) (by omega)
      · exact tget_filter_above hp h

variable {W : Nat → Prop}

/-- A filter of the registers by their keys reaches only the keys that it drops. -/
theorem State.writesIn_filter {p : Nat × Nat → Bool} (h : ∀ k v, ¬ W k → p (k, v) = true) (ht : t.regs = s.regs.filter p) :
    s.writesIn W t :=
  ⟨fun hs => ⟨ht ▸ filter_wf p hs, fun d f hf => by rw [State.rd, State.rd, ht, tget_filter (h _ · hf) hs]⟩⟩

/-! ## Keys outside the SVC's page -/

/-- Keys outside the SVC's page of die A. -/
def offSvc (k : Nat) : Prop := k < 0x4000000 ∨ 0x6000000 ≤ k

theorem offSvc_above (h : 0x180000 ≤ f.off) : offSvc (fkey d f) := by
  unfold offSvc fkey
  omega

/-- A field of a table of registers that begins above. -/
theorem offSvc_add {c n : Nat} (h : f.off = c + n := by rfl) (hc : 0x180000 ≤ c := by decide) : offSvc (fkey d f) :=
  offSvc_above (h ▸ Nat.le_add_right_of_le hc)

theorem offSvc_all {l : List (Fld × Nat)} (d : Die) (h : (l.all (fun p => Nat.ble 0x180000 p.1.off)) = true) :
    ∀ p ∈ l, offSvc (fkey d p.1) :=
  fun p hp => offSvc_above (Nat.le_of_ble_eq_true (List.all_eq_true.mp h p hp))

theorem offSvc_of_memKeys {k : Nat} (h : memKeys k) : offSvc k := .inr (Nat.le_trans (by decide) h.1)

theorem State.writesIn.offMem (h : s.writesIn memKeys t) : s.writesIn offSvc t := h.mono (fun _ => offSvc_of_memKeys)

namespace State

theorem offSvc_clearRegs (s : State) (d : Die) (p : Nat → Bool) (h : ∀ o, p o = true → 0x180000 ≤ o) :
    s.writesIn offSvc (s.clearRegs d p) := by
  refine writesIn_filter (fun k v hk => ?_) rfl
  cases hp : p (k / 64 - d.base)
  · simp
  · have := h _ hp
    unfold offSvc at hk
    omega

/-! ## Discarding -/

theorem offSvc_discard (s : State) : s.writesIn offSvc s.discard := by
  have binding (s : State) (d : Die) : s.writesIn offSvc (s.clearRegs d bindingRegs) :=
    s.offSvc_clearRegs d _ (fun o h => by simp only [bindingRegs, decide_eq_true_eq] at h; omega)
  have entry (s : State) (d : Die) : s.writesIn offSvc (s.clearRegs d entryRegs) :=
    s.offSvc_clearRegs d _ (fun o h => by simp only [entryRegs, decide_eq_true_eq] at h; omega)
  have one (s : State) (d : Die) : s.writesIn offSvc (((s.clearRegs d bindingRegs).clearRegs d entryRegs).wrs d
      [(RTB.EPOCH.STATE0, 0), (RTB.EPOCH.STATE1, 0), (QDU.QDU_STATUS.SERVING_OTHER, 0), (TMU.CHAIN_P99.OVER, 0)]) :=
    ((binding s d).trans (entry _ d)).wrs (offSvc_all d rfl)
  exact ((one _ .a).trans (one _ .b)).of_left

theorem offSvc_writeWardens (s : State) (l : List Fn) : s.writesIn offSvc (s.writeWardens l) := by
  unfold State.writeWardens
  have warden {n : Nat} (hn : n < 8) (f : Fld) (hf : f.off = 0x40 + 0x8 * n ∧ f.lo < 64) : offSvc (fkey .a f) := by
    have hd : Die.a.base = 0 := rfl
    unfold offSvc fkey
    omega
  exact (((writesIn_foldl (fun n hn s => ((s.writesIn_wr _ (warden (List.mem_range.mp hn) _ ⟨rfl, Nat.le_of_ble_eq_true rfl⟩)).wr
    (warden (List.mem_range.mp hn) _ ⟨rfl, Nat.le_of_ble_eq_true rfl⟩)).wr (warden (List.mem_range.mp hn) _ ⟨rfl, Nat.le_of_ble_eq_true rfl⟩)) s)).wr
    (.inl (by decide))).foldl (fun _ _ s => s.writesIn_wr _ (offSvc_add rfl))

theorem offSvc_structureStart (s : State) (r : Structure) : s.writesIn offSvc (s.structureStart r) := by
  unfold State.structureStart
  exact ((s.offSvc_discard.of_right).trans (offSvc_writeWardens _ _)).wr (.inl (by decide))

/-! ## A die's shared resources -/

theorem offSvc_writeDie (s : State) (d : Die) (p : Params) : s.writesIn offSvc (s.writeDie d p) := by
  have basin (s : State) : s.writesIn offSvc (s.basinCeilings d p) :=
    writesIn_foldl (fun _ _ s => s.writesIn_wr _ (offSvc_add rfl)) s
  have mins (s : State) : s.writesIn offSvc (s.writeMins d p) := writesIn_foldl (fun _ _ s => s.writesIn_wr _ (offSvc_add rfl)) s
  have credits (s : State) : s.writesIn offSvc (s.startCredits d p) := writesIn_of_regs rfl
  have key (s : State) : s.writesIn offSvc (s.draw (fun k s => s.modTmu d (fun t => { t with key0 := k % 2 ^ 128 }))) :=
    writesIn_of_regs rfl
  unfold State.writeDie
  dsimp only
  refine writesIn.trans ?_ (key _)
  refine writesIn.trans ?_ (writesIn_foldl (fun _ _ s => (s.writesIn_wr _ (offSvc_add rfl)).wr (offSvc_add rfl)) _)
  refine (((s.writesIn_wrs (offSvc_all d rfl)).trans (basin _)).trans (mins _)).trans (credits _)

/-! ## Ports and lanes -/

theorem offSvc_setLink (s : State) (d : Die) (i st : Nat) : s.writesIn offSvc (s.setLink d i st) :=
  (s.writesIn_wr _ (offSvc_add rfl)).when (fun _ => writesIn_of_regs rfl)

theorem offSvc_pllRest (s : State) (d : Die) (q : Nat) : s.writesIn offSvc (s.pllRest d q) := by
  unfold State.pllRest
  split
  · exact writesIn_of_regs rfl
  · exact s.writesIn_refl _

theorem offSvc_laneState (s : State) (d : Die) (n v w : Nat) :
    s.writesIn offSvc (s.wrs d [(LNE.LNE_STATE.STATE n, v), (LNE.LNE_STATE.RATE n, w)]) :=
  (s.writesIn_wr _ (offSvc_add rfl)).wr (offSvc_add rfl)

theorem offSvc_laneOff (s : State) (d : Die) (n : Nat) : s.writesIn offSvc (s.laneOff d n) :=
  ((s.offSvc_laneState d n _ _).modDie).trans (offSvc_pllRest ..)

theorem offSvc_codeReset (s : State) (d : Die) (i : Nat) : s.writesIn offSvc (s.codeReset d i) :=
  writesIn_of_regs ((State.codeReset_keeps s d i (s.holds_standing (· == .regs)) rfl rfl).holds .regs rfl)

theorem offSvc_laneStart (s : State) (d : Die) (n rate : Nat) (full : Bool) : s.writesIn offSvc (s.laneStart d n rate full) := by
  unfold State.laneStart
  split
  · exact s.writesIn_refl _
  · dsimp only
    refine writesIn_ite ?_ (writesIn.modDie ?_)
    all_goals exact ((s.offSvc_laneState d n _ _).modDie).when (fun s => s.offSvc_codeReset ..)

theorem offSvc_trainPort (s : State) (d : Die) (i : Nat) (full : Bool) : s.writesIn offSvc (s.trainPort d i full) :=
  writesIn_foldl (fun _ _ s => writesIn_ite (s.offSvc_laneStart ..) (s.offSvc_laneOff ..)) s

theorem offSvc_attempt (s : State) (d : Die) (i : Nat) (full : Bool) : s.writesIn offSvc (s.attempt d i full) :=
  ((offSvc_setLink _ d i lsTRAINING).of_left).trans (offSvc_trainPort ..)

theorem offSvc_retrain (s : State) (d : Die) (i cause : Nat) : s.writesIn offSvc (s.retrain d i cause) := by
  have ended (s : State) : s.writesIn offSvc
      (s.wrs d [(LLU.CHANGE_STATUS.BUSY i, 0), (LLU.CHANGE_STATUS.DONE i, 1), (LLU.CHANGE_STATUS.RESULT i, 3)]) :=
    ((s.writesIn_wr _ (offSvc_add rfl)).wr (offSvc_add rfl)).wr (offSvc_add rfl)
  unfold State.retrain
  split
  · exact s.writesIn_refl _
  · dsimp only
    refine writesIn.trans ?_ (offSvc_attempt ..)
    refine writesIn.wr ?_ (offSvc_add rfl)
    exact (writesIn_when _ _ ended).of_left

theorem offSvc_replayBankOut (s : State) (d : Die) (k : Nat) : s.writesIn offSvc (s.replayBankOut d k) :=
  writesIn_foldl (fun _ _ s => (s.writesIn_wr _ (offSvc_add rfl)).trans (offSvc_retrain ..)) s

theorem offSvc_portStart (s : State) (d : Die) (i : Nat) : s.writesIn offSvc (s.portStart d i) :=
  writesIn_ite (s.writesIn_refl _) ((offSvc_attempt _ d i true).of_left)

theorem offSvc_writePort (s : State) (d : Die) (p : Params) (i : Nat) : s.writesIn offSvc (s.writePort d p i) := by
  unfold State.writePort
  dsimp only
  refine writesIn.foldl (writesIn.foldl (s.writesIn_wrs (fun q hq => offSvc_above ?_)) (fun c _ s => s.writesIn_wr _ (offSvc_above ?_)))
    (fun k _ s => writesIn_ite (s.writesIn_wr _ (offSvc_add rfl)) (s.writesIn_refl _))
  · revert q
    simp only [List.forall_mem_cons, List.not_mem_nil, false_implies, implies_true, and_true, LLU.REPLAY.CAPACITY,
      LLU.LINK_TIMERS.REPLAY_TIMEOUT_NS, HDR.CTRL.ENABLE, HDR.STATUS.ENABLED, LLU.LINK_STATE.STATE, LLU.LINK_STATE.FAIL_REASON,
      LLU.LINK_STATE.VERSION, LLU.LINK_STATE.LANES_ACTIVE, LLU.LINK_STATE.RATE, LLU.LINK_STATE.RESUMED, LLU.CHANGE_STATUS.BUSY, lluBase]
    omega
  · simp only [LLU.CREDIT.TOTAL_RETURNED]
    omega

theorem offSvc_writeLane (s : State) (d : Die) (p : Params) (n : Nat) : s.writesIn offSvc (s.writeLane d p n) := by
  refine s.writesIn_wrs (fun q hq => offSvc_above ?_)
  revert q
  simp only [List.forall_mem_cons, List.not_mem_nil, false_implies, implies_true, and_true, LNE.LNE_CFG.RATE_MAX, LNE.LNE_CFG.REACH,
    LNE.LNE_CFG.PRECODE, HDR.CTRL.ENABLE, HDR.STATUS.ENABLED, LNE.LNE_STATE.STATE, LNE.LNE_STATE.RATE, lneBase]
  omega

/-! ## Domains and blocks -/

theorem offSvc_domEnter (s : State) (d : Die) (i k : Nat) : s.writesIn offSvc (s.domEnter d i k) := by
  have arrays (s : State) : s.writesIn offSvc (s.domArrays d i) := by
    unfold State.domArrays
    split
    · exact writesIn_of_regs rfl
    · split
      · exact writesIn_of_regs rfl
      · exact s.writesIn_refl _
  exact (((((s.writesIn_wr _ (offSvc_add rfl)).wr (offSvc_add rfl)).modDie).when (fun s => s.writesIn_wr _ (offSvc_add rfl)))).when arrays

theorem offSvc_lockOff (s : State) (d : Die) (i reason : Nat) : s.writesIn offSvc (s.lockOff d i reason) := by
  have held (s : State) : s.writesIn offSvc (s.releaseHeld d i) := writesIn_of_regs rfl
  unfold State.lockOff
  exact ((((((s.writesIn_when _ (fun s => (s.writes_clusterReset d i).offMem)).trans (offSvc_domEnter ..)).trans (held _)).wr
    (offSvc_add rfl)).wr (offSvc_add rfl)).wr (offSvc_add rfl)).modDie

theorem offSvc_lockOn (s : State) (d : Die) (i : Nat) : s.writesIn offSvc (s.lockOn d i) := by
  unfold State.lockOn
  exact (((((s.writesIn_wr _ (offSvc_add rfl)).wr (offSvc_add rfl)).wr (offSvc_add rfl)).wr (offSvc_add rfl)).wr (offSvc_add rfl)).modDie

theorem offSvc_placeDom (s : State) (p : Params) (d : Die) (i : Nat) : s.writesIn offSvc (s.placeDom p d i) := by
  have entered := s.offSvc_domEnter d i 5
  exact writesIn_ite (s.offSvc_lockOff ..) (writesIn_ite (writesIn_ite (s.writesIn_refl _) (s.offSvc_lockOn ..))
    (writesIn_ite (entered.trans (offSvc_lockOff ..)) (writesIn_ite (entered.trans (offSvc_lockOn ..)) (entered.trans (offSvc_lockOff ..)))))

theorem offSvc_blockOn (s : State) (d : Die) {b : Nat} (on : Bool) (h : 0x180000 ≤ b) : s.writesIn offSvc (s.blockOn d b on) :=
  (s.writesIn_wr _ (offSvc_add rfl h)).wr (offSvc_add rfl h)

theorem offSvc_programDie (s : State) (r : Structure) (d : Die) : s.writesIn offSvc (s.programDie r d) := by
  unfold State.programDie
  refine writesIn_ite (s.writesIn_refl _) ?_
  refine ((((((((s.offSvc_writeDie d r.params).foldl (fun i _ s => s.offSvc_writePort d r.params i)).foldl
    (fun n _ s => s.offSvc_writeLane d r.params n)).foldl (fun k _ s => s.offSvc_replayBankOut d (k - 1))).foldl
    (fun b hb s => s.offSvc_blockOn d true ?_)).when (fun s => s.offSvc_blockOn d r.qduOn (by decide))).foldl
    (fun i _ s => s.offSvc_placeDom r.params d i)).foldl (fun i _ s => s.offSvc_portStart d i))
  revert b
  decide

/-! ## The counter windows -/

theorem offSvc_hwrite (s : State) (f : Fn) (addr : Nat) (relaxed : Bool) (data : List Byte) (tr : Bool) :
    s.writesIn offSvc (s.hwrite f addr relaxed data tr) :=
  (s.writesIn_wr _ (offSvc_add rfl)).emit

theorem offSvc_dumpWrite (s : State) (d : Die) (off : Nat) (b : List Byte) : s.writesIn offSvc (s.dumpWrite d off b) :=
  writesIn_ite (s.writes_devAccess _).offMem (s.offSvc_hwrite ..)

theorem offSvc_dump (s : State) (d : Die) (seq dur number flags groups : Nat) : s.writesIn offSvc (s.dump d seq dur number flags groups) := by
  unfold State.dump
  refine writesIn_ite (s.writesIn_refl _) (writesIn_ite ?_ ?_)
  · exact (writesIn_wr _ _ (offSvc_above (by decide))).of_left
  · refine writesIn.modDie (writesIn.wr ?_ (offSvc_above (by decide)))
    exact ((writesIn_ite (s.offSvc_dumpWrite ..) (s.writesIn_refl _)).trans (offSvc_dumpWrite ..)).trans (offSvc_dumpWrite ..)

theorem offSvc_beginWindow (s : State) (d : Die) (n : NextWin) : s.writesIn offSvc (s.beginWindow d n) := by
  unfold State.beginWindow
  refine writesIn.modDie (writesIn_foldl (fun c _ s => ?_) s)
  exact (s.writesIn_wr _ (offSvc_add rfl)).modDie

theorem offSvc_endWindow (s : State) (d : Die) (early : Bool) (n : NextWin) : s.writesIn offSvc (s.endWindow d early n) := by
  unfold State.endWindow
  refine writesIn.trans (writesIn.modDie (writesIn.trans (writesIn.modDie (s.writesIn_wr _ (offSvc_above (by decide))))
    (offSvc_dump ..))) (offSvc_beginWindow ..)

theorem offSvc_pcuClear (s : State) (d : Die) : s.writesIn offSvc (s.pcuClear d) := by
  have due (s : State) : s.writesIn offSvc (s.windowDue d) := writesIn_ite (s.offSvc_endWindow ..) (s.writesIn_refl _)
  have cut (s : State) (m : Window_ → Window_) (n : NextWin) : s.writesIn offSvc (s.cutWindow d m n) :=
    writesIn_ite (writesIn_of_regs rfl) (writesIn_ite (due s).modDie ((due s).trans (offSvc_endWindow ..)))
  refine (cut s _ _).trans (offSvc_clearRegs _ d _ (fun o h => ?_))
  simp only [pcuCounter, Bool.or_eq_true, Bool.and_eq_true, decide_eq_true_eq] at h
  omega

/-! ## A structure up to its last steps -/

/-- What a structure does before its last steps. -/
def structureProgrammed (s : State) (r : Structure) : State :=
  ((((s.structureStart r).programDie r .a).programDie r .b).pcuClear .a).pcuClear .b

theorem offSvc_structureProgrammed (s : State) (r : Structure) : s.writesIn offSvc (s.structureProgrammed r) :=
  ((((s.offSvc_structureStart r).trans (offSvc_programDie _ r .a)).trans (offSvc_programDie _ r .b)).trans
    (offSvc_pcuClear _ .a)).trans (offSvc_pcuClear _ .b)

end State

end Sys2Proof.Machine
end

section
/-! The start-up from step 4 on (19_startup.md R564 to R566; 02_structure_image.md R57, R58): the power domains, the host ports, and what
boot selection gives. -/

set_option Elab.async false

namespace Sys2Proof.Machine

variable {s t u : State} {d e : Die} {i j : Nat} {f g : Fld} {α : Type} {K : Grp → Bool} {r : Structure} {source : Nat}

/-! ## What a change carries over -/

/-- From `s` to `t` the identity, the clock and the groups of `K` stand, and the register table keeps its form. -/
structure State.carried (K : Grp → Bool) (s t : State) : Prop where
  wf : tblWf t.regs = true
  identity : s.identityOf t
  same : s.standing K t

theorem State.carried_closed (K : Grp → Bool) (s : State) : Closed K (s.carried K) where
  wr hK t d f v h := ⟨State.wr_wf t d f v h.wf, h.identity, (s.standing_closed K).wr hK t d f v h.same⟩
  store hK t a bs p h := ⟨h.wf, h.identity, (s.standing_closed K).store hK t a bs p h.same⟩
  drop hK t p h := ⟨filter_wf _ h.wf, h.identity, (s.standing_closed K).drop hK t p h.same⟩
  cold hr hm t h := ⟨rfl, h.identity, (s.standing_closed K).cold hr hm t h.same⟩
  other t u h1 h2 h3 h4 h5 h6 h7 h8 h9 h := by
    have hid : s.identityOf u := (s.identityOf_closed.other t u h1 h2 h3 h4 h5 h6 h7 h8 (fun _ h => nomatch h)) h.identity
    exact ⟨h6 ▸ h.wf, hid, (s.standing_closed K).other t u h1 h2 h3 h4 h5 h6 h7 h8 h9 h.same⟩

theorem State.carried_refl (K : Grp → Bool) (hw : tblWf s.regs = true) : Holds K (s.carried K) s :=
  ⟨s.carried_closed K, hw, s.identityOf_refl, s.standing_refl K⟩

namespace State.carried

variable (h : s.carried K t)
include h

theorem part : t.part = s.part := h.identity.1
theorem now : t.now = s.now := h.identity.2.2.2.2.1
theorem store (hK : K .store = true) : t.store = s.store := h.same .store hK
theorem hps (hK : K .ports = true) : t.hps = s.hps := h.same .ports hK
theorem svc (hK : K .svc = true) : t.svc = s.svc := h.same .svc hK
theorem running (hK : K .image = true) : t.running = s.running := h.same .image hK
theorem domAbsent (d : Die) (i : Nat) : t.domAbsent d i = s.domAbsent d i := by
  simp only [State.domAbsent, State.present, State.hpPresent, State.qduPresent, State.hagPresent, h.part]
theorem hpPresent (n : Nat) : t.hpPresent n = s.hpPresent n := by simp only [State.hpPresent, State.present, h.part]

end State.carried

/-- What every step of a fold keeps, where `Q` holds. -/
theorem foldl_preserves {step : State → α → State} {l : List α} {P Q : State → Prop} (hQ : ∀ y s, Q s → Q (step s y))
    (keep : ∀ y ∈ l, ∀ s, Q s → P s → P (step s y)) (hq : Q s) (hp : P s) : P (l.foldl step s) := by
  induction l generalizing s with
  | nil => exact hp
  | cons y l ih =>
    exact ih (fun z hz => keep z (List.mem_cons_of_mem _ hz)) (hQ y s hq) (keep y (List.mem_cons_self ..) s hq hp)

/-- A step of a fold that brings `P` about, where `Q` holds and no other step ends `P`. -/
theorem foldl_establishes {step : State → α → State} {l : List α} {x : α} {P Q : State → Prop} (hx : x ∈ l)
    (hQ : ∀ y s, Q s → Q (step s y)) (set : ∀ s, Q s → P (step s x)) (keep : ∀ y ∈ l, ∀ s, Q s → P s → P (step s y)) (h : Q s) :
    P (l.foldl step s) := by
  induction l generalizing s with
  | nil => exact absurd hx List.not_mem_nil
  | cons y l ih =>
    have rest : ∀ z ∈ l, ∀ s, Q s → P s → P (step s z) := fun z hz => keep z (List.mem_cons_of_mem _ hz)
    rw [List.foldl_cons]
    rcases List.mem_cons.mp hx with rfl | hx
    · exact foldl_preserves hQ rest (hQ _ s h) (set s h)
    · exact ih hx rest (hQ y s h)

/-! ## The last steps of a structure (02_structure_image.md R47) -/

theorem State.rd_of_regs (h : t.regs = s.regs) (d : Die) (f : Fld) : t.rd d f = s.rd d f := by simp only [State.rd, h]

/-- The fields that name a structure once it runs. -/
def namedRegs (r : Structure) (source : Nat) : List (Fld × Nat) :=
  [(IMS.RUNNING.SOURCE, source), (IMS.RUNNING.SECURITY_EPOCH, r.params.epoch), (IMS.VERSION.V, 1), (IMS.VERSION.L, 1),
    (IMS.FEATURE_FLOOR.FLOOR, 1), (IMS.QUIESCE.REQ, 0), (IMS.QUIESCE.STATE, 0), (IMS.QUIESCE.BLOCKER, 0), (GLB.STATUS.IMAGE_RUNNING, 1)]

/-- At a start-up the last steps also begin the training phase. -/
theorem State.structureEnd_regs (hw : tblWf s.regs = true) (hp : s.rd .a SVC.SVC_STATE.PHASE ≠ 10) : (s.structureEnd r source).regs =
    ((s.wrs .a (namedRegs r source)).wrs .a [(SVC.SVC_STATE.PHASE, 9), (SVC.SVC_STATE.BOOT_SLOT, source)]).regs := by
  have phase : (s.wrs .a (namedRegs r source)).rd .a SVC.SVC_STATE.PHASE = s.rd .a SVC.SVC_STATE.PHASE := State.rd_wrs_other hw
  have boot : ((s.wrs .a (namedRegs r source)).rd .a SVC.SVC_STATE.PHASE != 10) = true := bne_iff_ne.mpr (fun h => hp (phase.symm.trans h))
  unfold namedRegs at boot ⊢
  unfold State.structureEnd State.when
  dsimp only
  rw [if_pos boot]

/-- What the SVC and the status show of a structure that a start-up has put in force. -/
theorem State.rd_structureEnd (hw : tblWf s.regs = true) (hp : s.rd .a SVC.SVC_STATE.PHASE ≠ 10) :
    (s.structureEnd r source).rd .a SVC.SVC_STATE.PHASE = 9 ∧ (s.structureEnd r source).rd .a SVC.SVC_STATE.BOOT_SLOT = source % 4 ∧
    (s.structureEnd r source).rd .a GLB.STATUS.IMAGE_RUNNING = 1 ∧
    (s.structureEnd r source).rd .a SVC.SVC_STATE.BOOT_FAIL = s.rd .a SVC.SVC_STATE.BOOT_FAIL := by
  have regs := State.structureEnd_regs (r := r) (source := source) hw hp
  have named := s.wrs_wf .a (namedRegs r source) hw
  refine ⟨(State.rd_of_regs regs ..).trans (State.rd_wrs 0 named), (State.rd_of_regs regs ..).trans (State.rd_wrs 1 named),
    (State.rd_of_regs regs ..).trans ((State.rd_wrs_other named).trans (State.rd_wrs 8 hw)),
    (State.rd_of_regs regs ..).trans ((State.rd_wrs_other named).trans (State.rd_wrs_other hw))⟩

/-- A structure that a start-up puts in force (R47, R565). -/
theorem State.rd_applyStructure (hw : tblWf s.regs = true) (hp : s.rd .a SVC.SVC_STATE.PHASE = 4) :
    (s.applyStructure r source).rd .a SVC.SVC_STATE.PHASE = 9 ∧ (s.applyStructure r source).rd .a SVC.SVC_STATE.BOOT_SLOT = source % 4 ∧
    (s.applyStructure r source).rd .a GLB.STATUS.IMAGE_RUNNING = 1 ∧
    (s.applyStructure r source).rd .a SVC.SVC_STATE.BOOT_FAIL = s.rd .a SVC.SVC_STATE.BOOT_FAIL := by
  have frame := s.offSvc_structureProgrammed r
  have svc {f : Fld} (hf : 0x4000000 ≤ fkey .a f ∧ fkey .a f < 0x6000000) : (s.structureProgrammed r).rd .a f = s.rd .a f :=
    frame.rd hw (fun h => by unfold offSvc at h; omega)
  have phase : (s.structureProgrammed r).rd .a SVC.SVC_STATE.PHASE ≠ 10 := by rw [svc (by decide), hp]; decide
  obtain ⟨h1, h2, h3, h4⟩ := State.rd_structureEnd (r := r) (source := source) (frame.wf hw) phase
  rw [State.applyStructure_eq]
  exact ⟨h1, h2, h3, h4.trans (svc (by decide))⟩

/-! ## Boot selection and the boot policy (02_structure_image.md R57, R58) -/

/-- What boot selection in `u` gives `t`. -/
def State.boots (u t : State) : Prop :=
  let sel := u.bootSelect
  t.rd .a SVC.SVC_STATE.BOOT_FAIL = sel.2 % 256 ∧
  (∀ r, sel.1 = some r → u.store.policy = 0 ∨ u.store.policy = 2 →
    let x := u.store.slot r.slot.toNat
    t.running = some (u.structureOf (x.image.take x.hdr.length.toNat)) ∧ t.rd .a SVC.SVC_STATE.PHASE = 9 ∧
    t.rd .a SVC.SVC_STATE.BOOT_SLOT = r.slot.toNat % 4 ∧ t.rd .a GLB.STATUS.IMAGE_RUNNING = 1) ∧
  (sel.1 = none → u.store.policy = 2 → t.rd .a SVC.SVC_STATE.PHASE = 11 ∧ t.rd .a SVC.ALERT_STATUS.BOOT = 1 ∧ t.running = u.running) ∧
  ((u.store.policy ≠ 0 ∧ u.store.policy ≠ 2) ∨ (sel.1 = none ∧ u.store.policy ≠ 2) → t.rd .a SVC.SVC_STATE.PHASE = 8 ∧
    t.ims.hostImage = true ∧ t.rd .a SVC.ALERT_STATUS.BOOT = 1 ∧ t.running = u.running)

/-- The state in which the boot policy decides: BOOT_FAIL is shown, and the journal repaired. -/
def State.selected (u : State) : State :=
  let s := u.wr .a SVC.SVC_STATE.BOOT_FAIL u.bootSelect.2
  match u.bootSelect.1 with | some r => s.repairJournal r | none => s

/-- The four outcomes of the boot policy. -/
inductive Booted (u : State) : State → Prop
  | image (r : CommitRec) (hr : u.bootSelect.1 = some r) (hp : u.store.policy = 0 ∨ u.store.policy = 2) :
    Booted u (u.selected.applyStructure
      (u.structureOf ((u.store.slot r.slot.toNat).image.take (u.store.slot r.slot.toNat).hdr.length.toNat)) r.slot.toNat)
  | halted (hr : u.bootSelect.1 = none) (hp : u.store.policy = 2) :
    Booted u (((u.selected.alert 1).wr .a SVC.SVC_STATE.PHASE 11).wr .a IMS.CMD_STATUS.DETAIL u.bootSelect.2)
  | waits (h : (u.store.policy ≠ 0 ∧ u.store.policy ≠ 2) ∨ (u.bootSelect.1 = none ∧ u.store.policy ≠ 2)) :
    Booted u (u.selected.alert 1).awaitHost

theorem State.selected_some {r : CommitRec} (h : u.bootSelect.1 = some r) :
    u.selected = (u.wr .a SVC.SVC_STATE.BOOT_FAIL u.bootSelect.2).repairJournal r := by
  unfold State.selected
  rw [h]

theorem State.selected_none (h : u.bootSelect.1 = none) : u.selected = u.wr .a SVC.SVC_STATE.BOOT_FAIL u.bootSelect.2 := by
  unfold State.selected
  rw [h]

theorem State.booted_bootImage (u : State) : Booted u u.bootImage := by
  rcases h : u.bootSelect.1 with _ | r
  · have halted := Booted.halted (u := u) h
    have waits := Booted.waits (u := u)
    rw [State.selected_none h] at halted waits
    unfold State.bootImage
    simp only [h]
    split
    · next hr _ => cases hr
    · next hr _ => cases hr
    · next hp => exact halted hp
    · next hp => exact waits (.inr ⟨h, hp rfl⟩)
  · have image := Booted.image (u := u) r h
    have waits := Booted.waits (u := u)
    rw [State.selected_some h] at image waits
    unfold State.bootImage
    simp only [h]
    split
    · next hr hp => cases hr; exact image (.inl hp)
    · next hr hp => cases hr; exact image (.inr hp)
    · next hr _ => cases hr
    · next h0 h2 _ => exact waits (.inl ⟨fun e => h0 _ rfl e, fun e => h2 _ rfl e⟩)

/-! ### What the four outcomes show -/

theorem State.writesIn_alert (s : State) : s.writesIn (· = fkey .a SVC.ALERT_STATUS.BOOT) (s.alert 1) := by
  have set : s.writesIn (· = fkey .a SVC.ALERT_STATUS.BOOT) (s.wr .a SVC.ALERT_STATUS.BOOT 1) := s.writesIn_wr 1 rfl
  unfold State.alert
  exact set.when (fun s => (s.writesIn_refl _).emit)

theorem State.rd_alert (hw : tblWf s.regs = true) : (s.alert 1).rd .a SVC.ALERT_STATUS.BOOT = 1 := by
  have : (s.alert 1).regs = (s.wr .a SVC.ALERT_STATUS.BOOT 1).regs := by
    unfold State.alert State.when
    dsimp only
    split
    all_goals rfl
  rw [State.rd_of_regs this, State.rd_wr_same _ _ _ _ hw]
  rfl

theorem State.alert_running (s : State) : (s.alert 1).running = s.running :=
  (State.alert_keeps s 1 (s.holds_standing (· == .image)) rfl rfl).holds .image rfl

/-- The registers of the state in which the boot policy decides. -/
theorem State.selected_regs (u : State) : u.selected.regs = (u.wr .a SVC.SVC_STATE.BOOT_FAIL u.bootSelect.2).regs := by
  unfold State.selected
  dsimp only
  split
  all_goals rfl

theorem State.selected_running (u : State) : u.selected.running = u.running := by
  unfold State.selected
  dsimp only
  split
  all_goals rfl

theorem State.boots_bootImage (hw : tblWf u.regs = true) (hp : u.rd .a SVC.SVC_STATE.PHASE = 4) : u.boots u.bootImage := by
  have regs := u.selected_regs
  have hsel : tblWf u.selected.regs = true := regs ▸ State.wr_wf _ _ _ _ hw
  have fail : u.selected.rd .a SVC.SVC_STATE.BOOT_FAIL = u.bootSelect.2 % 256 :=
    (State.rd_of_regs regs ..).trans (State.rd_wr_same _ _ _ _ hw)
  have phase : u.selected.rd .a SVC.SVC_STATE.PHASE = 4 :=
    (State.rd_of_regs regs ..).trans ((State.rd_wr_other _ _ hw (by decide)).trans hp)
  have alerted := (State.writesIn_alert u.selected).wf hsel
  have alertFail : (u.selected.alert 1).rd .a SVC.SVC_STATE.BOOT_FAIL = u.bootSelect.2 % 256 :=
    ((State.writesIn_alert u.selected).rd hsel (by decide)).trans fail
  have running : (u.selected.alert 1).running = u.running := (State.alert_running _).trans u.selected_running
  have booted := u.booted_bootImage
  generalize u.bootImage = t at booted
  cases booted with
  | image r hr hpol =>
    obtain ⟨h1, h2, h3, h4⟩ := State.rd_applyStructure (source := r.slot.toNat) hsel phase (r := u.structureOf
      ((u.store.slot r.slot.toNat).image.take (u.store.slot r.slot.toNat).hdr.length.toNat))
    have force := (State.applyStructure_inForce hsel (u.structureOf
      ((u.store.slot r.slot.toNat).image.take (u.store.slot r.slot.toNat).hdr.length.toNat)) r.slot.toNat).2
    refine ⟨h4.trans fail, fun r' hr' _ => ?_, fun hn => ?_, fun h => ?_⟩
    · cases hr.symm.trans hr'
      exact ⟨force, h1, h2, h3⟩
    · cases hr.symm.trans hn
    · rcases h with h | ⟨hn, -⟩
      · exact absurd hpol (fun h' => h'.elim h.1 h.2)
      · cases hr.symm.trans hn
  | halted hr hpol =>
    have halt := State.wr_wf _ .a SVC.SVC_STATE.PHASE 11 alerted
    refine ⟨?_, fun r' hr' => ?_, fun _ _ => ⟨?_, ?_, running⟩, fun h => ?_⟩
    · exact (State.rd_wr_other _ _ halt (by decide)).trans ((State.rd_wr_other _ _ alerted (by decide)).trans alertFail)
    · cases hr.symm.trans hr'
    · exact (State.rd_wr_other _ _ halt (by decide)).trans (State.rd_wr_same _ _ _ _ alerted)
    · exact (State.rd_wr_other _ _ halt (by decide)).trans ((State.rd_wr_other _ _ alerted (by decide)).trans (State.rd_alert hsel))
    · exact absurd hpol (h.elim And.right And.right)
  | waits h =>
    have waiting : (u.selected.alert 1).awaitHost.regs = ((u.selected.alert 1).wr .a SVC.SVC_STATE.PHASE 8).regs := rfl
    refine ⟨?_, fun r hr hpol => ?_, fun hr hpol => ?_, fun _ => ⟨?_, rfl, ?_, running⟩⟩
    · exact (State.rd_of_regs waiting ..).trans ((State.rd_wr_other _ _ alerted (by decide)).trans alertFail)
    · rcases h with h | ⟨hn, -⟩
      · exact absurd hpol (fun h' => h'.elim h.1 h.2)
      · cases hn.symm.trans hr
    · exact absurd hpol (h.elim And.right And.right)
    · exact (State.rd_of_regs waiting ..).trans (State.rd_wr_same _ _ _ _ alerted)
    · exact (State.rd_of_regs waiting ..).trans ((State.rd_wr_other _ _ alerted (by decide)).trans (State.rd_alert hsel))

end Sys2Proof.Machine
end

section
/-! Steps 4 and 5 of the start-up (19_startup.md R564 to R566; 17_power.md R534): the power domains and the host ports. -/

set_option Elab.async false

namespace Sys2Proof.Machine

variable {s t u : State} {d e : Die} {i j : Nat} {f g : Fld}

/-! ## The registers of a domain -/

/-- The keys of a domain's registers. -/
def domRegs (d : Die) (i k : Nat) : Prop := (d.base + 0x3c04000 + 0x20 * i) * 64 ≤ k ∧ k < (d.base + 0x3c04020 + 0x20 * i) * 64

theorem domRegs_fkey (d : Die) (i : Nat) (h : 0x3c04000 + 0x20 * i ≤ f.off ∧ f.off < 0x3c04020 + 0x20 * i ∧ f.lo < 64) :
    domRegs d i (fkey d f) := by
  unfold domRegs fkey
  omega

/-- What taking a domain up or down may write: its own registers, and those of the memory system. -/
def domKeys (d : Die) (i k : Nat) : Prop := memKeys k ∨ domRegs d i k

theorem domKeys_apart (hi : i < 32) (hj : j < 32) (h : ¬ (d = e ∧ j = i)) {k : Nat} (hk : domKeys d j k) : ¬ domRegs e i k := by
  have hd : d.base = 0 ∧ d = .a ∨ d.base = 0x4000000 ∧ d = .b := by cases d; exacts [.inl ⟨rfl, rfl⟩, .inr ⟨rfl, rfl⟩]
  have he : e.base = 0 ∧ e = .a ∨ e.base = 0x4000000 ∧ e = .b := by cases e; exacts [.inl ⟨rfl, rfl⟩, .inr ⟨rfl, rfl⟩]
  unfold domKeys memKeys domRegs at *
  rcases hd with ⟨hd, rfl⟩ | ⟨hd, rfl⟩ <;> rcases he with ⟨he, rfl⟩ | ⟨he, rfl⟩
  all_goals
    simp only [true_and, reduceCtorEq, false_and, not_false_eq_true] at h
    rw [hd] at hk
    rw [he]
    omega

namespace State

theorem dom_state (d : Die) (i : Nat) : domRegs d i (fkey d (PWC.DOM_STATE.STATE i)) :=
  domRegs_fkey d i (by simp only [PWC.DOM_STATE.STATE]; omega)
theorem dom_fencing (d : Die) (i : Nat) : domRegs d i (fkey d (PWC.DOM_STATE.FENCING i)) :=
  domRegs_fkey d i (by simp only [PWC.DOM_STATE.FENCING]; omega)
theorem dom_lockedOff (d : Die) (i : Nat) : domRegs d i (fkey d (PWC.DOM_STATE.LOCKED_OFF i)) :=
  domRegs_fkey d i (by simp only [PWC.DOM_STATE.LOCKED_OFF]; omega)
theorem dom_lockReason (d : Die) (i : Nat) : domRegs d i (fkey d (PWC.DOM_STATE.LOCK_REASON i)) :=
  domRegs_fkey d i (by simp only [PWC.DOM_STATE.LOCK_REASON]; omega)
theorem dom_held (d : Die) (i : Nat) : domRegs d i (fkey d (PWC.DOM_STATE.HELD i)) :=
  domRegs_fkey d i (by simp only [PWC.DOM_STATE.HELD]; omega)
theorem dom_entries (d : Die) (i : Nat) : domRegs d i (fkey d (PWC.DOM_ENTRIES.COUNT i)) :=
  domRegs_fkey d i (by simp only [PWC.DOM_ENTRIES.COUNT]; omega)

/-! ## A domain goes down or comes up -/

theorem domArrays_regs (s : State) (d : Die) (i : Nat) : (s.domArrays d i).regs = s.regs := by
  unfold State.domArrays
  split
  · rfl
  · split
    all_goals rfl

/-- A domain enters a state: its state shows it, and the rest is the count of its entries. -/
theorem writes_domEnter (s : State) (d : Die) (i k : Nat) :
    (s.wrs d [(PWC.DOM_STATE.STATE i, k), (PWC.DOM_STATE.FENCING i, 0)]).writesIn (· = fkey d (PWC.DOM_ENTRIES.COUNT i)) (s.domEnter d i k) := by
  have count (s : State) : s.writesIn (· = fkey d (PWC.DOM_ENTRIES.COUNT i)) (s.bump d (PWC.DOM_ENTRIES.COUNT i)) := s.writesIn_wr _ rfl
  unfold State.domEnter
  exact (((writesIn_refl _ _).modDie).when count).when (fun s => writesIn_of_regs (s.domArrays_regs d i))

theorem rd_domEnter (hw : tblWf s.regs = true) (k : Nat) : (s.domEnter d i k).rd d (PWC.DOM_STATE.STATE i) = k % 2 ^ 3 := by
  have apart : fkey d (PWC.DOM_STATE.STATE i) ≠ fkey d (PWC.DOM_ENTRIES.COUNT i) := by
    simp only [fkey, PWC.DOM_STATE.STATE, PWC.DOM_ENTRIES.COUNT]
    omega
  refine ((s.writes_domEnter d i k).rd (s.wrs_wf d _ hw) apart).trans ?_
  exact State.rd_wrs 0 hw (hl := by simp [Fld.apart, PWC.DOM_STATE.STATE, PWC.DOM_STATE.FENCING])

theorem domKeys_domEnter (s : State) (d : Die) (i k : Nat) : s.writesIn (domKeys d i) (s.domEnter d i k) :=
  ((s.writesIn_wr _ (.inr (dom_state d i))).wr (.inr (dom_fencing d i))).trans
    ((s.writes_domEnter d i k).mono (fun _ h => .inr (h ▸ dom_entries d i)))

theorem releaseHeld_regs (s : State) (d : Die) (i : Nat) : (s.releaseHeld d i).regs = s.regs := rfl

/-- A domain before it is locked off: it is in Sarabande, and its unit holds nothing. -/
def domDown (s : State) (d : Die) (i : Nat) : State :=
  ((s.when (decide (16 ≤ i ∧ i < 24)) (fun s => s.clusterReset d i)).domEnter d i 5).releaseHeld d i

theorem domKeys_domDown (s : State) (d : Die) (i : Nat) : s.writesIn (domKeys d i) (s.domDown d i) :=
  ((s.writesIn_when _ (fun s => (s.writes_clusterReset d i).mono (fun _ => .inl))).trans (domKeys_domEnter ..)).of_right
    (releaseHeld_regs ..)

theorem rd_domDown (hw : tblWf s.regs = true) : (s.domDown d i).rd d (PWC.DOM_STATE.STATE i) = 5 := by
  have reset := (s.writesIn_when (decide (16 ≤ i ∧ i < 24)) (fun s => s.writes_clusterReset d i)).wf hw
  exact (State.rd_of_regs (releaseHeld_regs ..) ..).trans (rd_domEnter reset 5)

theorem lockOff_regs (s : State) (d : Die) (i reason : Nat) : (s.lockOff d i reason).regs = ((s.domDown d i).wrs d
    [(PWC.DOM_STATE.LOCKED_OFF i, 1), (PWC.DOM_STATE.LOCK_REASON i, reason), (PWC.DOM_STATE.HELD i, 0)]).regs := by
  unfold State.lockOff
  rfl

theorem domKeys_lockOff (s : State) (d : Die) (i reason : Nat) : s.writesIn (domKeys d i) (s.lockOff d i reason) := by
  have locked (s : State) : s.writesIn (domKeys d i) (s.wrs d
      [(PWC.DOM_STATE.LOCKED_OFF i, 1), (PWC.DOM_STATE.LOCK_REASON i, reason), (PWC.DOM_STATE.HELD i, 0)]) :=
    ((s.writesIn_wr _ (.inr (dom_lockedOff d i))).wr (.inr (dom_lockReason d i))).wr (.inr (dom_held d i))
  exact ((s.domKeys_domDown d i).trans (locked _)).of_right (lockOff_regs ..)

theorem rd_lockOff (hw : tblWf s.regs = true) (reason : Nat) : (s.lockOff d i reason).rd d (PWC.DOM_STATE.STATE i) = 5 ∧
    (s.lockOff d i reason).rd d (PWC.DOM_STATE.LOCKED_OFF i) = 1 := by
  have down := (s.domKeys_domDown d i).wf hw
  rw [State.rd_of_regs (lockOff_regs s d i reason), State.rd_of_regs (lockOff_regs s d i reason)]
  refine ⟨(State.rd_wrs_other down ?_).trans (rd_domDown hw), State.rd_wrs 0 down (hl := ?_)⟩
  all_goals simp [Fld.apart, PWC.DOM_STATE.STATE, PWC.DOM_STATE.LOCKED_OFF, PWC.DOM_STATE.LOCK_REASON, PWC.DOM_STATE.HELD]

theorem lockOn_regs (s : State) (d : Die) (i : Nat) : (s.lockOn d i).regs = (s.wrs d [(PWC.DOM_STATE.LOCKED_OFF i, 0),
    (PWC.DOM_STATE.LOCK_REASON i, 0), (PWC.DOM_STATE.STATE i, 0), (PWC.DOM_STATE.FENCING i, 0), (PWC.DOM_STATE.HELD i, 0)]).regs := by
  unfold State.lockOn
  rfl

theorem domKeys_lockOn (s : State) (d : Die) (i : Nat) : s.writesIn (domKeys d i) (s.lockOn d i) := by
  refine writesIn.of_right ?_ (lockOn_regs ..)
  exact ((((s.writesIn_wr _ (.inr (dom_lockedOff d i))).wr (.inr (dom_lockReason d i))).wr (.inr (dom_state d i))).wr
    (.inr (dom_fencing d i))).wr (.inr (dom_held d i))

theorem rd_lockOn (hw : tblWf s.regs = true) : (s.lockOn d i).rd d (PWC.DOM_STATE.STATE i) = 0 ∧
    (s.lockOn d i).rd d (PWC.DOM_STATE.LOCKED_OFF i) = 0 := by
  rw [State.rd_of_regs (lockOn_regs s d i), State.rd_of_regs (lockOn_regs s d i)]
  refine ⟨State.rd_wrs 2 hw (hl := ?_), State.rd_wrs 0 hw (hl := ?_)⟩
  all_goals simp [Fld.apart, PWC.DOM_STATE.STATE, PWC.DOM_STATE.LOCKED_OFF, PWC.DOM_STATE.LOCK_REASON, PWC.DOM_STATE.FENCING,
    PWC.DOM_STATE.HELD]

end State

/-! ## Step 4: the domains -/

/-- A domain as step 4 leaves it: locked off without its unit, else in Galop. -/
def State.domLit (s : State) (d : Die) (i : Nat) (t : State) : Prop :=
  t.rd d (PWC.DOM_STATE.STATE i) = (if s.domAbsent d i then 5 else 0) ∧
    t.rd d (PWC.DOM_STATE.LOCKED_OFF i) = if s.domAbsent d i then 1 else 0

/-- Step 4 for one domain. -/
def State.lightDom (d : Die) (s : State) (i : Nat) : State := if s.domAbsent d i then s.lockOff d i 3 else s.lockOn d i

theorem State.lightDomains_eq (s : State) :
    s.lightDomains = [Die.a, Die.b].foldl (fun s d => (List.range 32).foldl (State.lightDom d) s) s := rfl

theorem State.domKeys_lightDom (s : State) (d : Die) (i : Nat) : s.writesIn (domKeys d i) (s.lightDom d i) :=
  State.writesIn_ite (s.domKeys_lockOff d i 3) (s.domKeys_lockOn d i)

/-- The groups that the start-up's steps 3 to 5 leave alone. -/
def standsInStart (g : Grp) : Bool :=
  [Grp.store, .image, .svc, .faults, .queues, .rings, .counters, .ops, .time, .rtb, .recKey].contains g

/-- Those that stand besides until the host ports train. -/
def standsInLight (g : Grp) : Bool := standsInStart g || g == .ports

theorem State.carried_lightDom (h : s.carried standsInLight t) (d : Die) (i : Nat) :
    s.carried standsInLight (State.lightDom d t i) := by
  have ht : Holds standsInLight (s.carried standsInLight) t := ⟨s.carried_closed _, h⟩
  refine (Holds.ite ?_ ?_ : Holds standsInLight (s.carried standsInLight) (State.lightDom d t i)).holds
  · apply State.lockOff_keeps _ _ _ _ ht <;> rfl
  · exact State.lockOn_keeps _ _ _ ht rfl rfl

theorem State.lightDom_lights (h : s.carried standsInLight t) (d : Die) (i : Nat) : s.domLit d i (State.lightDom d t i) := by
  unfold State.domLit State.lightDom
  rw [h.domAbsent]
  split
  · exact State.rd_lockOff h.wf 3
  · exact State.rd_lockOn h.wf

theorem State.lightDom_keeps (hi : i < 32) (hj : j < 32) (hne : ¬ (d = e ∧ j = i)) (hw : tblWf t.regs = true) (h : s.domLit e i t) :
    s.domLit e i (State.lightDom d t j) := by
  have frame := t.domKeys_lightDom d j
  exact ⟨(frame.rd hw (fun hk => domKeys_apart hi hj hne hk (dom_state e i))).trans h.1,
    (frame.rd hw (fun hk => domKeys_apart hi hj hne hk (dom_lockedOff e i))).trans h.2⟩

/-- Step 4 for the domains of a die. -/
def State.lightDie (d : Die) (s : State) : State := (List.range 32).foldl (State.lightDom d) s

theorem State.carried_lightDie (h : s.carried standsInLight t) (d : Die) : s.carried standsInLight (State.lightDie d t) :=
  (Holds.foldl ⟨s.carried_closed _, h⟩ (fun _ i ht => ⟨ht.closed, State.carried_lightDom ht.holds d i⟩)).holds

theorem State.lightDie_lights (h : s.carried standsInLight t) (e : Die) (hi : i < 32) : s.domLit e i (State.lightDie e t) := by
  refine foldl_establishes (Q := s.carried standsInLight) (List.mem_range.mpr hi) (fun j t ht => State.carried_lightDom ht e j)
    (fun t ht => State.lightDom_lights ht e i) (fun j hj t ht hP => ?_) h
  by_cases hji : j = i
  · exact hji ▸ State.lightDom_lights ht e j
  · exact State.lightDom_keeps hi (List.mem_range.mp hj) (fun hc => hji hc.2) ht.wf hP

theorem State.lightDie_keeps (hi : i < 32) (hd : d ≠ e) (ht : s.carried standsInLight t) (hP : s.domLit e i t) :
    s.domLit e i (State.lightDie d t) :=
  foldl_preserves (Q := s.carried standsInLight) (fun j _ ht => State.carried_lightDom ht d j)
    (fun _ hj _ ht hP => State.lightDom_keeps hi (List.mem_range.mp hj) (fun hc => hd hc.1) ht.wf hP) ht hP

theorem State.lightDomains_lights (h : s.carried standsInLight t) (e : Die) (hi : i < 32) : s.domLit e i t.lightDomains := by
  rw [State.lightDomains_eq]
  refine foldl_establishes (step := fun s d => State.lightDie d s) (Q := s.carried standsInLight) (x := e) (by cases e <;> simp)
    (fun d t ht => State.carried_lightDie ht d) (fun t ht => State.lightDie_lights ht e hi) (fun d _ t ht hP => ?_) h
  by_cases hd : d = e
  · exact hd ▸ State.lightDie_lights ht d hi
  · exact State.lightDie_keeps hi hd ht hP

theorem State.carried_lightDomains (h : s.carried standsInLight t) : s.carried standsInLight t.lightDomains := by
  refine (?_ : Holds standsInLight (s.carried standsInLight) t.lightDomains).holds
  apply State.lightDomains_keeps _ ⟨s.carried_closed _, h⟩ <;> rfl

theorem State.offSvc_lightDomains (t : State) : t.writesIn offSvc t.lightDomains :=
  State.writesIn_foldl (fun d _ s => State.writesIn_foldl (fun i _ s =>
    State.writesIn_ite (s.offSvc_lockOff d i 3) (s.offSvc_lockOn d i)) s) t

/-! ## Step 5: the host ports -/

/-- A host port trains from now on, if it is present and its PERST_N is high. -/
def State.trainIfHigh (s : State) (h : Fin 4) : State := s.when (s.hpPresent h.val && !(s.hp h).perst) (fun s => s.trainHost h s.now)

theorem State.trainPorts_eq (s : State) : s.trainPorts = (List.finRange 4).foldl State.trainIfHigh s := rfl

theorem State.hp_trainHost_same (s : State) (h : Fin 4) (n : Nat) : ((s.trainHost h n).hp h).link0.training = true ∧
    ((s.trainHost h n).hp h).trainAt = n ∧ ((s.trainHost h n).hp h).perst = (s.hp h).perst := by
  unfold State.trainHost
  rw [State.hp_modHp_same]
  exact ⟨rfl, rfl, rfl⟩

theorem State.hp_trainIfHigh_ne {h k : Fin 4} (hk : k ≠ h) (s : State) : (s.trainIfHigh h).hp k = s.hp k := by
  unfold State.trainIfHigh State.when
  split
  · exact State.hp_modHp_ne hk ..
  · rfl

theorem State.perst_trainIfHigh (s : State) (h k : Fin 4) : ((s.trainIfHigh h).hp k).perst = (s.hp k).perst := by
  by_cases hk : k = h
  · subst hk
    unfold State.trainIfHigh State.when
    split
    · exact (s.hp_trainHost_same k s.now).2.2
    · rfl
  · rw [State.hp_trainIfHigh_ne hk]

/-- The groups that the training of host ports leaves alone. -/
def standsInTrain (g : Grp) : Bool := standsInStart g || g == .regs

theorem State.carried_trainIfHigh (h : s.carried standsInTrain t) (k : Fin 4) : s.carried standsInTrain (t.trainIfHigh k) :=
  (State.when_keeps _ _ _ ⟨s.carried_closed _, h⟩ (fun _ hx => State.modHp_keeps _ _ _ hx rfl)).holds

theorem State.carried_trainPorts (h : s.carried standsInTrain t) : s.carried standsInTrain t.trainPorts :=
  (State.trainPorts_keeps _ ⟨s.carried_closed _, h⟩ rfl).holds

theorem State.hp_trainPorts (hw : tblWf s.regs = true) {h : Fin 4} (hp : s.hpPresent h.val = true) (hl : (s.hp h).perst = false) :
    (s.trainPorts.hp h).link0.training = true ∧ (s.trainPorts.hp h).trainAt = s.now := by
  have set (t : State) (ht : s.carried standsInTrain t ∧ (t.hp h).perst = (s.hp h).perst) :
      ((t.trainIfHigh h).hp h).link0.training = true ∧ ((t.trainIfHigh h).hp h).trainAt = s.now := by
    obtain ⟨hc, hq⟩ := ht
    have cond : (t.hpPresent h.val && !(t.hp h).perst) = true := by rw [hc.hpPresent, hp, hq, hl]; rfl
    have := t.hp_trainHost_same h t.now
    unfold State.trainIfHigh
    rw [cond]
    exact ⟨this.1, this.2.1.trans hc.now⟩
  rw [State.trainPorts_eq]
  refine foldl_establishes (P := fun t => (t.hp h).link0.training = true ∧ (t.hp h).trainAt = s.now)
    (Q := fun t => s.carried standsInTrain t ∧ (t.hp h).perst = (s.hp h).perst) (List.mem_finRange h)
    (fun k t ht => ⟨State.carried_trainIfHigh ht.1 k, (t.perst_trainIfHigh k h).trans ht.2⟩) set (fun k _ t ht hP => ?_)
    ⟨(State.carried_refl _ hw).holds, rfl⟩
  by_cases hk : h = k
  · exact hk ▸ set t ht
  · rw [State.hp_trainIfHigh_ne hk]
    exact hP

/-! ## Steps 4 and 5 -/

/-- The device with its domains lit and its host ports training. -/
def State.lights (s : State) : State := (s.wr .a SVC.SVC_STATE.PHASE 4).lightDomains.trainPorts

/-- `u` is such a device, of the part, the store and the host ports of `s`. -/
def State.lit (s u : State) : Prop := u.store = s.store ∧ u.rd .a SVC.SVC_STATE.PHASE = 4 ∧
  (∀ e i, i < 32 → u.rd e (PWC.DOM_STATE.STATE i) = (if s.domAbsent e i then 5 else 0) ∧
    u.rd e (PWC.DOM_STATE.LOCKED_OFF i) = if s.domAbsent e i then 1 else 0) ∧
  ∀ h : Fin 4, s.hpPresent h.val = true → (s.hp h).perst = false → (u.hp h).link0.training = true ∧ (u.hp h).trainAt = s.now

theorem State.carried_lights (hw : tblWf s.regs = true) : s.carried standsInStart s.lights := by
  have phase : s.carried standsInLight (s.wr .a SVC.SVC_STATE.PHASE 4) := (State.wr_keeps (State.carried_refl _ hw) rfl ..).holds
  have light := State.carried_lightDomains phase
  have start : s.carried standsInStart (s.wr .a SVC.SVC_STATE.PHASE 4).lightDomains :=
    ⟨light.wf, light.identity, fun g hg => light.same g (by unfold standsInLight; rw [hg]; rfl)⟩
  exact (State.trainPorts_keeps _ ⟨s.carried_closed _, start⟩ rfl).holds

theorem State.lit_lights (hw : tblWf s.regs = true) : s.lit s.lights := by
  have phase : s.carried standsInLight (s.wr .a SVC.SVC_STATE.PHASE 4) := (State.wr_keeps (State.carried_refl _ hw) rfl ..).holds
  have light := State.carried_lightDomains phase
  have train := State.carried_trainPorts (State.carried_refl standsInTrain light.wf).holds
  have regs : s.lights.regs = (s.wr .a SVC.SVC_STATE.PHASE 4).lightDomains.regs := train.same .regs rfl
  refine ⟨(State.carried_lights hw).store rfl, ?_, fun e i hi => ?_, fun h hp hl => ?_⟩
  · refine (State.rd_of_regs regs ..).trans (((State.offSvc_lightDomains _).rd phase.wf ?_).trans (State.rd_wr_same _ _ _ _ hw))
    unfold offSvc
    decide
  · rw [State.rd_of_regs regs, State.rd_of_regs regs]
    exact State.lightDomains_lights phase e hi
  · have hps : (s.wr .a SVC.SVC_STATE.PHASE 4).lightDomains.hp h = s.hp h := by rw [State.hp, light.hps rfl]; rfl
    obtain ⟨h1, h2⟩ := State.hp_trainPorts light.wf (h := h) ((light.hpPresent _).trans hp) (hps ▸ hl)
    exact ⟨h1, h2.trans light.now⟩

end Sys2Proof.Machine
end

section
/-! Power and the resets (19_startup.md R564 to R571; 20_package.md R599, R600): what each leaves of the device, and where the start-up
takes it. -/

set_option Elab.async false

namespace Sys2Proof.Machine

variable {s t u : State} {d e : Die} {f g : Fld} {avs : Bool} {cause : Fld}

/-! ## From step 3 on -/

/-- `u` is the device of `s` with its clock, store, and reset signals, before a start-up. -/
structure State.restarts (s u : State) : Prop where
  wf : tblWf u.regs = true
  part : u.part = s.part
  now : u.now = s.now
  store : u.store = s.store
  perst : ∀ h, (u.hp h).perst = (s.hp h).perst
  resetN : u.svc.resetN = s.svc.resetN

theorem State.restarts.lit (h : s.restarts u) (hl : u.lit t) : s.lit t := by
  have absent (d : Die) (i : Nat) : u.domAbsent d i = s.domAbsent d i := by
    simp only [State.domAbsent, State.present, State.hpPresent, State.qduPresent, State.hagPresent, h.part]
  have there (n : Nat) : u.hpPresent n = s.hpPresent n := by simp only [State.hpPresent, State.present, h.part]
  obtain ⟨hstore, hphase, hdom, hport⟩ := hl
  refine ⟨hstore.trans h.store, hphase, fun e i hi => absent e i ▸ hdom e i hi, fun k hp hq => ?_⟩
  exact h.now ▸ hport k ((there _).trans hp) ((h.perst k).trans hq)

/-- Where a start-up of the device `s` takes it (R564, R565). -/
def State.starts (s : State) (avs : Bool) (t : State) : Prop :=
  (s.svc.resetN = false → t.rd .a SVC.SVC_STATE.PHASE = 3) ∧
  (s.svc.resetN = true → avs = false → t.rd .a SVC.SVC_STATE.PHASE = 11) ∧
  (s.svc.resetN = true → avs = true → ∃ v : State, s.lit v ∧ t = v.bootImage ∧ v.boots t)

theorem State.lights_boots (hw : tblWf s.regs = true) : s.lit s.lights ∧ s.lights.boots s.lights.bootImage :=
  ⟨State.lit_lights hw, State.boots_bootImage (State.carried_lights hw).wf (State.lit_lights hw).2.1⟩

/-- The device after step 3: its records are applied, and its domains are down. -/
def State.loaded (s : State) : State := s.applyRecords.dark

theorem State.carried_loaded (hw : tblWf s.regs = true) : s.carried standsInLight s.loaded :=
  (State.dark_keeps _ (State.applyRecords_keeps _ (State.carried_refl _ hw) rfl rfl) rfl rfl rfl).holds

theorem State.fromStore_held (hw : tblWf s.regs = true) (h : s.svc.resetN = false) :
    s.fromStore avs = s.loaded.wr .a SVC.SVC_STATE.PHASE 3 := by
  have held : s.loaded.svc.resetN = false := (congrArg Svc.resetN ((State.carried_loaded hw).svc rfl)).trans h
  exact if_neg (fun hn => Bool.false_ne_true (held.symm.trans hn))

theorem State.fromStore_free (hw : tblWf s.regs = true) (h : s.svc.resetN = true) : s.fromStore avs = s.loaded.startDies avs := by
  have free : s.loaded.svc.resetN = true := (congrArg Svc.resetN ((State.carried_loaded hw).svc rfl)).trans h
  exact if_pos free

theorem State.starts_fromStore (h : s.restarts u) : s.starts avs (u.fromStore avs) := by
  have loaded := State.carried_loaded h.wf
  have restarts : s.restarts u.loaded := ⟨loaded.wf, loaded.part.trans h.part, loaded.now.trans h.now, (loaded.store rfl).trans h.store,
    fun k => (congrArg HostPort.perst (show u.loaded.hp k = u.hp k by rw [State.hp, loaded.hps rfl]; rfl)).trans (h.perst k),
    (congrArg Svc.resetN (loaded.svc rfl)).trans h.resetN⟩
  refine ⟨fun hn => ?_, fun hn ha => ?_, fun hn ha => ?_⟩
  · rw [State.fromStore_held h.wf (h.resetN.trans hn)]
    exact State.rd_wr_same _ _ _ _ loaded.wf
  · rw [State.fromStore_free h.wf (h.resetN.trans hn), ha]
    exact State.rd_wr_same _ _ _ _ loaded.wf
  · rw [State.fromStore_free h.wf (h.resetN.trans hn), ha]
    obtain ⟨hlit, hboots⟩ := State.lights_boots loaded.wf
    exact ⟨u.loaded.lights, restarts.lit hlit, rfl, hboots⟩

/-! ## What lasts -/

/-- What lasts through every reset. -/
def State.survives (s t : State) : Prop :=
  t.store = s.store ∧ t.svc.settings = s.svc.settings ∧ t.fm.table = s.fm.table ∧ t.fm.ring = s.fm.ring

/-- The objects of every function are gone, and no structure is in force. -/
def State.empty (t : State) : Prop := t.queues = [] ∧ t.ops = [] ∧ t.rings = [] ∧ t.ctrs = [] ∧ t.running = none

theorem State.carried.survives {K : Grp → Bool} (h : u.carried K t) (hs : s.survives u)
    (hK : ([Grp.store, .svc, .faults].all K) = true := by rfl) : s.survives t := by
  simp only [List.all_cons, List.all_nil, Bool.and_true, Bool.and_eq_true] at hK
  obtain ⟨kstore, ksvc, kfm⟩ := hK
  obtain ⟨h1, h2, h3, h4⟩ := hs
  have hfm : t.fm = u.fm := h.same .faults kfm
  exact ⟨(h.store kstore).trans h1, (congrArg Svc.settings (h.svc ksvc)).trans h2, (congrArg FaultMgr.table hfm).trans h3,
    (congrArg FaultMgr.ring hfm).trans h4⟩

theorem State.carried.empty {K : Grp → Bool} (h : u.carried K t) (he : u.empty)
    (hK : ([Grp.queues, .ops, .rings, .counters, .image].all K) = true := by rfl) : t.empty := by
  simp only [List.all_cons, List.all_nil, Bool.and_true, Bool.and_eq_true] at hK
  obtain ⟨kq, ko, kr, kc, ki⟩ := hK
  obtain ⟨h1, h2, h3, h4, h5⟩ := he
  have hq : t.queues = u.queues := h.same .queues kq
  have hr : t.rings = u.rings := h.same .rings kr
  have hc : t.ctrs = u.ctrs := h.same .counters kc
  obtain ⟨ho, -⟩ := h.same Grp.ops ko
  exact ⟨hq.trans h1, ho.trans h2, hr.trans h3, hc.trans h4, (h.running ki).trans h5⟩

/-- At RESET_HELD what step 3 leaves alone stands. -/
theorem State.held_stands (hw : tblWf u.regs = true) (hn : u.svc.resetN = false) (hs : s.survives u) (he : u.empty) :
    (u.fromStore avs).rd .a SVC.SVC_STATE.PHASE = 3 ∧ (u.fromStore avs).svc.resetN = false ∧ s.survives (u.fromStore avs) ∧
      (u.fromStore avs).empty := by
  have loaded := State.carried_loaded hw
  have held : u.carried standsInLight (u.loaded.wr .a SVC.SVC_STATE.PHASE 3) :=
    (State.wr_keeps ⟨u.carried_closed _, loaded⟩ rfl ..).holds
  rw [State.fromStore_held hw hn]
  exact ⟨State.rd_wr_same _ _ _ _ loaded.wf, (congrArg Svc.resetN (held.svc rfl)).trans hn, held.survives hs, held.empty he⟩

/-! ## Loss of power (R568, R599) -/

/-- What a loss of power leaves, but for the fault log's registers and the host ports' settings. -/
def State.coldCore (s : State) : State :=
  { State.reset with part := s.part, serial := s.serial, stepping := s.stepping, rootKey := s.rootKey, now := s.now,
                     free := s.free, out := s.out, store := s.store, pending := s.pending,
                     ims := { ImsState.reset with stagingGen := s.ims.stagingGen + 1 },
                     fm := { FaultMgr.reset with table := s.fm.table, ring := s.fm.ring, lostBanks := s.fm.lostBanks, down := s.fm.down },
                     svc := { Svc.reset with settings := s.svc.settings, resetN := s.svc.resetN, staticAddr := s.setting 24 } }

/-- The fault log's fields, with their values. -/
def State.logRegs (s : State) : List (Fld × Nat) := faultLogRegs.map (fun f => (f, s.rd .a f))

theorem State.coldState_eq (s : State) :
    s.coldState = { s.coldCore with regs := (s.coldCore.wrs .a s.logRegs).regs }.mapPorts (fun h => s.coldPort h) := by
  rw [← State.wrs_eq]
  unfold State.wrs State.logRegs
  rw [List.foldl_map]
  rfl

theorem State.hp_mapPorts (s : State) (f : Fin 4 → HostPort) (h : Fin 4) : (s.mapPorts f).hp h = f h := by
  match h with
  | 0 | 1 | 2 | 3 => rfl

/-- A field of the device without power: the fault log's are kept, any other is at its reset value. -/
theorem State.coldState_regs (s : State) : s.coldState.regs = (s.coldCore.wrs .a s.logRegs).regs := by
  rw [State.coldState_eq]
  rfl

theorem State.coldState_hp (s : State) (h : Fin 4) : s.coldState.hp h = s.coldPort h := by
  rw [State.coldState_eq, State.hp_mapPorts]

/-- Apart from those fields and the host ports. -/
theorem State.coldState_rest (s : State) : ∃ regs hps, s.coldState = { s.coldCore with regs := regs, hps := hps } :=
  ⟨_, _, s.coldState_eq⟩

/-- No power: what lasts, and nothing else. -/
def State.unpowered (s t : State) : Prop := s.survives t ∧ t.empty ∧ t.svc.pwrgood = false ∧
  t.rd .a FM.LOG_HEAD.SEQ = s.rd .a FM.LOG_HEAD.SEQ % 2 ^ 32 ∧ ∀ a, t.mbyte a = 0

theorem State.coldState_unpowered (s : State) : s.unpowered s.coldState := by
  have seq : s.coldState.rd .a FM.LOG_HEAD.SEQ = s.rd .a FM.LOG_HEAD.SEQ % 2 ^ 32 :=
    (State.rd_of_regs s.coldState_regs ..).trans (State.rd_wrs (l := s.logRegs) (v := s.rd .a FM.LOG_HEAD.SEQ) 1 rfl)
  obtain ⟨regs, hps, h⟩ := s.coldState_rest
  rw [h] at seq ⊢
  exact ⟨⟨rfl, rfl, rfl, rfl⟩, ⟨rfl, rfl, rfl, rfl, rfl⟩, rfl, seq, fun _ => rfl⟩

/-- A host port's mode and VF count are those of the settings (R571, R572). -/
def State.portsSet (s u : State) : Prop := ∀ h : Fin 4, (u.hp h).cxl = (s.setting h.val == 2) ∧ (u.hp h).bifurcated = (s.setting h.val == 1) ∧
  (u.hp h).perst = (s.hp h).perst ∧
  (u.hp h).totalVfs = (if s.setting h.val = 1 then min 127 (s.setting (4 + h.val)) else s.setting (4 + h.val)) ∧
  (u.hp h).maxRate = s.setting (8 + h.val)

/-- A device whose power has come back, before it draws its keys. -/
def State.powered (s : State) : State := { s.coldState with svc := { s.coldState.svc with pwrgood := true } }

/-- The groups that the drawing of keys leaves alone. -/
def standsInDraw (g : Grp) : Bool :=
  [Grp.store, .image, .svc, .faults, .queues, .rings, .counters, .ops, .ports, .regs].contains g

theorem State.carried_drawKeys (hw : tblWf s.regs = true) : s.carried standsInDraw s.drawKeys :=
  (State.drawKeys_keeps _ (State.carried_refl standsInDraw hw) rfl rfl rfl rfl).holds

theorem State.powered_empty (s : State) : s.survives s.powered ∧ s.powered.empty ∧ s.powered.svc.pwrgood = true ∧
    s.powered.svc.resetN = s.svc.resetN ∧ s.powered.part = s.part ∧ s.powered.now = s.now := by
  unfold State.powered
  obtain ⟨regs, hps, h⟩ := s.coldState_rest
  rw [h]
  exact ⟨⟨rfl, rfl, rfl, rfl⟩, ⟨rfl, rfl, rfl, rfl, rfl⟩, rfl, rfl, rfl, rfl⟩

theorem State.powered_hp (s : State) (h : Fin 4) : s.powered.hp h = s.coldPort h := by
  rw [← s.coldState_hp h]
  unfold State.powered
  generalize s.coldState = t
  rfl

theorem State.powered_regs (s : State) : s.powered.regs = (s.coldCore.wrs .a s.logRegs).regs := by
  rw [← s.coldState_regs]
  unfold State.powered
  generalize s.coldState = t
  rfl

theorem State.powered_cold (s : State) : s.powered.rd .a SVC.RESET_CAUSE.COLD = 1 := by
  rw [State.rd_of_regs s.powered_regs]
  exact State.rd_wrs_other (s := s.coldCore) (l := s.logRegs) rfl

theorem State.powered_wf (s : State) : tblWf s.powered.regs = true := by
  rw [State.powered_regs]
  exact s.coldCore.wrs_wf .a s.logRegs rfl

/-- The device of a rise of PWRGOOD, before step 3 (R564, R568). -/
theorem State.drawn_spec (s : State) : s.restarts s.powered.drawKeys ∧ s.survives s.powered.drawKeys ∧ s.powered.drawKeys.empty ∧
    s.powered.drawKeys.svc.pwrgood = true ∧ s.powered.drawKeys.rd .a SVC.RESET_CAUSE.COLD = 1 ∧ s.portsSet s.powered.drawKeys := by
  have h := State.carried_drawKeys s.powered_wf
  obtain ⟨hs, he, hpow, hreset, hpart, hnow⟩ := s.powered_empty
  have hp (k : Fin 4) : s.powered.drawKeys.hp k = s.coldPort k := by rw [← s.powered_hp k, State.hp, h.hps rfl]; rfl
  have hsvc := h.svc rfl
  refine ⟨⟨h.wf, h.part.trans hpart, h.now.trans hnow, (h.survives hs).1, fun k => ?_, (congrArg Svc.resetN hsvc).trans hreset⟩,
    h.survives hs, h.empty he, (congrArg Svc.pwrgood hsvc).trans hpow, (State.rd_of_regs (h.same .regs rfl) ..).trans s.powered_cold,
    fun k => ?_⟩
  · rw [hp]
    rfl
  · rw [hp]
    exact ⟨rfl, rfl, rfl, rfl, rfl⟩

/-! ## A warm reset (R569, R570) -/

/-- The causes of a reset that RESET_CAUSE records. -/
def resetCauses : List Fld := [SVC.RESET_CAUSE.COLD, SVC.RESET_CAUSE.RESET_N, SVC.RESET_CAUSE.FM_CMD, SVC.RESET_CAUSE.OOB, SVC.RESET_CAUSE.I3C]

/-- A cause is recorded as the only one, and the resets are counted. -/
def State.causeWritten (s : State) (cause : Fld) : State := ((s.zero .a resetCauses).wr .a cause 1).bump .a SVC.RESET_CAUSE.COUNT

theorem resetCauses_apart : ∀ f ∈ resetCauses, ∀ g ∈ resetCauses, g ≠ f → fkey .a f ≠ fkey .a g := by decide
theorem resetCauses_count : ∀ f ∈ resetCauses, fkey .a f ≠ fkey .a SVC.RESET_CAUSE.COUNT := by decide
theorem resetCauses_width : ∀ f ∈ resetCauses, f.w = 1 := by decide

theorem State.zero_wf (s : State) (d : Die) (l : List Fld) (h : tblWf s.regs = true) : tblWf (s.zero d l).regs = true :=
  (State.writesIn_foldl (W := fun _ => True) (fun _ _ s => s.writesIn_wr 0 trivial) s).wf h

theorem State.rd_zero_causes (hw : tblWf s.regs = true) (hf : f ∈ resetCauses) : (s.zero .a resetCauses).rd .a f = 0 := by
  refine foldl_establishes (P := fun t => t.rd .a f = 0) (Q := fun t => tblWf t.regs = true) hf (fun _ _ h => State.wr_wf _ _ _ _ h)
    (fun t h => (State.rd_wr_same t .a f 0 h).trans (Nat.zero_mod _)) (fun g hg t h hP => ?_) hw
  by_cases hgf : g = f
  · exact hgf ▸ (State.rd_wr_same t .a g 0 h).trans (Nat.zero_mod _)
  · exact (State.rd_wr_other _ _ h (resetCauses_apart f hf g hg hgf)).trans hP

theorem State.rd_causeWritten (hw : tblWf s.regs = true) (hc : cause ∈ resetCauses) : (s.causeWritten cause).rd .a cause = 1 ∧
    (∀ f ∈ resetCauses, f ≠ cause → (s.causeWritten cause).rd .a f = 0) ∧
    (s.causeWritten cause).rd .a SVC.RESET_CAUSE.COUNT = min (s.rd .a SVC.RESET_CAUSE.COUNT + 1) 0xFFFF := by
  have zeroed := s.zero_wf .a resetCauses hw
  have written := State.wr_wf _ .a cause 1 zeroed
  have count : (s.zero .a resetCauses).rd .a SVC.RESET_CAUSE.COUNT = s.rd .a SVC.RESET_CAUSE.COUNT :=
    (State.writesIn_foldl (W := fun k => k ≠ fkey .a SVC.RESET_CAUSE.COUNT) (fun f hf s => s.writesIn_wr 0 (resetCauses_count f hf)) s).rd hw
      (fun h => h rfl)
  refine ⟨?_, fun f hf hne => ?_, ?_⟩
  · refine (State.rd_wr_other _ _ written (resetCauses_count _ hc)).trans ((State.rd_wr_same _ _ _ _ zeroed).trans ?_)
    rw [resetCauses_width _ hc]
    rfl
  · exact (State.rd_wr_other _ _ written (resetCauses_count _ hf)).trans ((State.rd_wr_other _ _ zeroed
      (resetCauses_apart f hf cause hc (Ne.symm hne))).trans (State.rd_zero_causes hw hf))
  · refine (State.rd_bumpBy_same _ _ _ 1 written).trans ?_
    rw [State.rd_wr_other _ _ zeroed (resetCauses_count _ hc).symm, count]
    rfl

theorem State.carried_causeWritten (hw : tblWf s.regs = true) (cause : Fld) : s.carried (· != .regs) (s.causeWritten cause) :=
  (State.bump_keeps _ _ _ (State.wr_keeps (State.zero_keeps _ _ _ (State.carried_refl _ hw) rfl) rfl ..) rfl).holds

/-! ### The registers of RESET_CAUSE stand -/

/-- Keys outside the register RESET_CAUSE. -/
def offCause (k : Nat) : Prop := k / 64 ≠ 0x100010

theorem offCause_resetEngines (s : State) : s.writesIn offCause s.resetEngines :=
  State.writesIn_foldl (fun n _ s => (s.writes_engineReset n).mono (fun k hk => by unfold memKeys at hk; unfold offCause; omega)) s

theorem offCause_warmRegs (s : State) : s.writesIn offCause s.warmRegs := by
  have kept (s : State) : s.writesIn offCause (s.keepRegs keptWarm) := by
    refine State.writesIn_filter (fun k v hk => ?_) rfl
    unfold offCause at hk
    have : k / 64 = 0x100010 := not_not.mp hk
    simp [this, keptWarm]
  have abandoned (s : State) : s.writesIn offCause (s.zero .a abandonedRegs) :=
    State.writesIn_foldl (fun f hf s => s.writesIn_wr 0 (by
      revert f
      unfold offCause
      decide)) s
  have enables (s : State) (d : Die) : s.writesIn offCause (s.zero d [HDR.CTRL.ENABLE 0x3C00000, HDR.STATUS.ENABLED 0x3C00000]) :=
    State.writesIn_foldl (fun f hf s => s.writesIn_wr 0 (by
      cases d
      all_goals
        revert f
        unfold offCause
        decide)) s
  exact ((kept s).trans (abandoned _)).foldl (fun d _ s => enables s d)

/-! ### What a warm reset leaves -/

/-- `u` is what a warm reset of `s` leaves, its cause being recorded. -/
def State.warmed (s : State) (cause : Fld) (u : State) : Prop :=
  s.survives u ∧ u.empty ∧ u.rd .a cause = 1 ∧ (∀ f ∈ resetCauses, f ≠ cause → u.rd .a f = 0) ∧
  u.rd .a SVC.RESET_CAUSE.COUNT = min (s.rd .a SVC.RESET_CAUSE.COUNT + 1) 0xFFFF ∧
  (∀ e, (u.die e).ft = (s.die e).ft ∧ (u.rtb e).flowKey = (s.rtb e).flowKey ∧ (u.die e).recKey = (s.die e).recKey) ∧
  (∀ h, (u.hp h).cxl = (s.hp h).cxl ∧ (u.hp h).bifurcated = (s.hp h).bifurcated ∧ (u.hp h).totalVfs = (s.hp h).totalVfs ∧
    (u.hp h).perst = (s.hp h).perst ∧ (u.hp h).link0.up = false ∧ (u.hp h).link1.up = false) ∧
  (s.engines = [] → u.mem = s.mem)

/-- The groups that a warm reset leaves alone until it empties the units. -/
def standsInWarm (g : Grp) : Bool :=
  [Grp.store, .svc, .faults, .time, .rtb, .recKey, .ports].contains g

/-- A warm reset before it empties the units. -/
def State.warmBase (s : State) (cause : Fld) : State := (s.causeWritten cause).resetEngines.warmRegs

theorem State.carried_warmBase (hw : tblWf s.regs = true) (cause : Fld) : s.carried standsInWarm (s.warmBase cause) := by
  have written : Holds standsInWarm (s.carried standsInWarm) (s.causeWritten cause) :=
    State.bump_keeps _ _ _ (State.wr_keeps (State.zero_keeps _ _ _ (State.carried_refl _ hw) rfl) rfl ..) rfl
  have engines : Holds standsInWarm (s.carried standsInWarm) (s.causeWritten cause).resetEngines := by
    apply State.resetEngines_keeps _ written <;> rfl
  exact (State.warmRegs_keeps _ engines rfl).holds

theorem State.offCause_warmBase (s : State) (cause : Fld) : (s.causeWritten cause).writesIn offCause (s.warmBase cause) :=
  (offCause_resetEngines _).trans (offCause_warmRegs _)

theorem State.warmState_eq (s : State) (cause : Fld) : (s.causeWritten cause).warmState = (s.warmBase cause).warmUnits := rfl

/-- What the units, the dies and the host ports keep (R569). -/
theorem State.warmUnits_spec (t : State) : t.survives t.warmUnits ∧ t.warmUnits.empty ∧ t.warmUnits.regs = t.regs ∧ t.warmUnits.mem = t.mem ∧
    (t.warmUnits.part = t.part ∧ t.warmUnits.now = t.now ∧ t.warmUnits.svc.resetN = t.svc.resetN) ∧
    (∀ e, (t.warmUnits.die e).ft = (t.die e).ft ∧ (t.warmUnits.rtb e).flowKey = (t.rtb e).flowKey ∧
      (t.warmUnits.die e).recKey = (t.die e).recKey) ∧
    ∀ h, t.warmUnits.hp h = (t.hp h).warm := by
  refine ⟨⟨rfl, rfl, rfl, rfl⟩, ⟨rfl, rfl, rfl, rfl, rfl⟩, rfl, rfl, ⟨rfl, rfl, rfl⟩, fun e => ?_, fun h => ?_⟩
  · cases e
    all_goals exact ⟨rfl, rfl, rfl⟩
  · exact State.hp_mapPorts ..

/-- Without engines there is no store buffer to write back. -/
theorem State.warmBase_mem (hw : tblWf s.regs = true) (cause : Fld) (h : s.engines = []) : (s.warmBase cause).mem = s.mem := by
  have written := State.carried_causeWritten hw cause
  have engines : (s.causeWritten cause).engines = [] := (show _ = s.engines from written.same .engines rfl).trans h
  obtain ⟨hmem, -⟩ := written.same .mem rfl
  have none : (s.causeWritten cause).resetEngines = s.causeWritten cause := by
    unfold State.resetEngines
    rw [engines]
    rfl
  have regs := State.warmRegs_keeps _ ((s.causeWritten cause).holds_standing (· != .regs)) rfl
  obtain ⟨hregs, -⟩ := regs.holds .mem rfl
  rw [State.warmBase, none]
  exact hregs.trans hmem

/-- What a warm reset keeps of a die stands until then. -/
theorem State.carried.warmDie (h : s.carried standsInWarm t) (e : Die) :
    (t.die e).ft = (s.die e).ft ∧ (t.rtb e).flowKey = (s.rtb e).flowKey ∧ (t.die e).recKey = (s.die e).recKey := by
  obtain ⟨⟨fta, -⟩, ⟨ftb, -⟩⟩ := h.same .time rfl
  obtain ⟨rtba, rtbb⟩ := h.same .rtb rfl
  obtain ⟨keya, keyb⟩ := h.same .recKey rfl
  cases e
  · exact ⟨fta, congrArg Rtb.flowKey rtba, keya⟩
  · exact ⟨ftb, congrArg Rtb.flowKey rtbb, keyb⟩

theorem State.warmed_warmState (hw : tblWf s.regs = true) (hc : cause ∈ resetCauses) :
    s.warmed cause (s.causeWritten cause).warmState ∧ s.restarts (s.causeWritten cause).warmState := by
  have base := State.carried_warmBase hw cause
  have frame := s.offCause_warmBase cause
  obtain ⟨hone, hzero, hcount⟩ := State.rd_causeWritten hw hc
  have written := (State.carried_causeWritten hw cause).wf
  rw [State.warmState_eq]
  obtain ⟨hs, he, hregs, hmem, ⟨hpart, hnow, hreset⟩, hdie, hport⟩ := (s.warmBase cause).warmUnits_spec
  have hp (h : Fin 4) : (s.warmBase cause).warmUnits.hp h = (s.hp h).warm := by
    rw [hport, State.hp, base.hps rfl]
    rfl
  have reads {f : Fld} (hf : fkey .a f / 64 = 0x100010) : (s.warmBase cause).warmUnits.rd .a f = (s.causeWritten cause).rd .a f :=
    (State.rd_of_regs hregs ..).trans (frame.rd written (fun h => h hf))
  have causeKey : ∀ f ∈ resetCauses, fkey .a f / 64 = 0x100010 := by decide
  have lasts : s.survives (s.warmBase cause).warmUnits := by
    obtain ⟨h1, h2, h3, h4⟩ := base.survives ⟨rfl, rfl, rfl, rfl⟩
    obtain ⟨g1, g2, g3, g4⟩ := hs
    exact ⟨g1.trans h1, g2.trans h2, g3.trans h3, g4.trans h4⟩
  refine ⟨⟨lasts, he, (reads (causeKey _ hc)).trans hone, fun f hf hne => (reads (causeKey f hf)).trans (hzero f hf hne),
    (reads (by decide)).trans hcount, fun e => ?_, fun h => ?_, fun h => hmem.trans (State.warmBase_mem hw cause h)⟩, ?_⟩
  · obtain ⟨h1, h2, h3⟩ := hdie e
    obtain ⟨g1, g2, g3⟩ := base.warmDie e
    exact ⟨h1.trans g1, h2.trans g2, h3.trans g3⟩
  · rw [hp]
    exact ⟨rfl, rfl, rfl, rfl, rfl, rfl⟩
  · refine ⟨(congrArg tblWf hregs).trans base.wf, hpart.trans base.part, hnow.trans base.now, lasts.1, fun h => ?_,
      hreset.trans (congrArg Svc.resetN (base.svc rfl))⟩
    rw [hp]
    rfl

/-! ## The commands -/

theorem State.warmReset_off (h : s.svc.pwrgood = false ∨ s.svc.tripped = true) (cause : Fld) (avs : Bool) : s.warmReset cause avs = s := by
  refine if_pos ?_
  rcases h with h | h
  · exact .inl (by rw [h]; rfl)
  · exact .inr h

section
variable (hpow : s.svc.pwrgood = true) (htrip : s.svc.tripped = false)
include hpow htrip

theorem State.warmReset_on : s.warmReset cause avs = if s.rd .a SVC.SVC_STATE.PHASE = 3 then s.wr .a cause 1
    else (s.causeWritten cause).warmState.fromStore avs := by
  refine if_neg ?_
  rw [hpow, htrip]
  decide

theorem State.warmReset_held (h : s.rd .a SVC.SVC_STATE.PHASE = 3) : s.warmReset cause avs = s.wr .a cause 1 :=
  (State.warmReset_on hpow htrip).trans (if_pos h)

theorem State.warmReset_runs (h : s.rd .a SVC.SVC_STATE.PHASE ≠ 3) :
    s.warmReset cause avs = (s.causeWritten cause).warmState.fromStore avs :=
  (State.warmReset_on hpow htrip).trans (if_neg h)

end

/-! ### PWRGOOD and the supplies -/

theorem Runs.pwrgoodRise_low (avs : Bool) (h : s.svc.pwrgood = false) : Runs (.pwrgoodRise avs) s (fun t => s.starts avs t ∧
    ∃ u : State, t = u.fromStore avs ∧ s.survives u ∧ u.empty ∧ u.svc.pwrgood = true ∧ u.svc.resetN = s.svc.resetN ∧
      u.rd .a SVC.RESET_CAUSE.COLD = 1 ∧ s.portsSet u) := by
  have run : exec (.pwrgoodRise avs) s = .next (s.powerUp avs) :=
    congrArg Host.Outcome.next (if_neg (fun hn => Bool.false_ne_true (h.symm.trans hn)))
  obtain ⟨hr, hs, he, hpow, hcold, hport⟩ := s.drawn_spec
  exact .of_next run ⟨State.starts_fromStore hr, _, rfl, hs, he, hpow, hr.resetN, hcold, hport⟩

theorem Runs.pwrgoodRise_high (avs : Bool) (h : s.svc.pwrgood = true) : Runs (.pwrgoodRise avs) s (fun t => t = s) :=
  .of_next (congrArg Host.Outcome.next (if_pos h)) rfl

theorem Runs.pwrgoodFall_high (h : s.svc.pwrgood = true) : Runs .pwrgoodFall s s.unpowered :=
  .of_next (congrArg Host.Outcome.next (if_pos h)) s.coldState_unpowered

theorem Runs.pwrgoodFall_low (h : s.svc.pwrgood = false) : Runs .pwrgoodFall s (fun t => t = s) :=
  .of_next (congrArg Host.Outcome.next (if_neg (fun hn => Bool.false_ne_true (h.symm.trans hn)))) rfl

theorem Runs.suppliesCollapse (s : State) : Runs .suppliesCollapse s s.unpowered := .of_next rfl s.coldState_unpowered

/-! ### RESET_N -/

/-- RESET_N is noted low. -/
def State.resetLow (s : State) : State := { s with svc := { s.svc with resetN := false } }

/-- RESET_N is noted high, and the TAP lets go of the pins. -/
def State.resetHigh (s : State) : State := { s with svc := { s.svc with resetN := true, tap := { s.svc.tap with drives := 0 } } }

theorem exec_resetNAsserted (s : State) : exec .resetNAsserted s = .next (s.resetLow.warmReset SVC.RESET_CAUSE.RESET_N true) := rfl

section
variable (hw : tblWf s.regs = true) (hpow : s.svc.pwrgood = true) (htrip : s.svc.tripped = false)
include hw hpow htrip

theorem Runs.resetNAsserted_runs (h : s.rd .a SVC.SVC_STATE.PHASE ≠ 3) : Runs .resetNAsserted s (fun t =>
    t.rd .a SVC.SVC_STATE.PHASE = 3 ∧ t.svc.resetN = false ∧ s.survives t ∧ t.empty ∧
      ∃ u : State, t = u.fromStore true ∧ s.warmed SVC.RESET_CAUSE.RESET_N u) := by
  obtain ⟨hwarm, hre⟩ := State.warmed_warmState (s := s.resetLow) hw (cause := SVC.RESET_CAUSE.RESET_N) (by decide)
  refine .of_next (exec_resetNAsserted s) ?_
  rw [State.warmReset_runs (s := s.resetLow) hpow htrip h]
  obtain ⟨h1, h2, h3, h4⟩ := State.held_stands (avs := true) hre.wf hre.resetN hwarm.1 hwarm.2.1
  exact ⟨h1, h2, h3, h4, _, rfl, hwarm⟩

theorem Runs.resetNAsserted_held (h : s.rd .a SVC.SVC_STATE.PHASE = 3) : Runs .resetNAsserted s (fun t =>
    t.rd .a SVC.RESET_CAUSE.RESET_N = 1 ∧ t.svc = { s.svc with resetN := false } ∧ t.dies = s.dies ∧
      onlyFields [(.a, SVC.RESET_CAUSE.RESET_N)] s t) := by
  refine .of_next (exec_resetNAsserted s) ?_
  rw [State.warmReset_held (s := s.resetLow) hpow htrip h]
  have low : tblWf s.resetLow.regs = true := hw
  refine ⟨State.rd_wr_same _ _ _ _ low, rfl, rfl, ?_⟩
  exact ((s.resetLow.writesIn_wr_of (d := .a) (fs := [(.a, SVC.RESET_CAUSE.RESET_N)]) 1 rfl).of_left).onlyFields hw

end

theorem Runs.resetNAsserted_off (h : s.svc.pwrgood = false ∨ s.svc.tripped = true) :
    Runs .resetNAsserted s (fun t => t = { s with svc := { s.svc with resetN := false } }) :=
  .of_next (exec_resetNAsserted s) (State.warmReset_off (s := s.resetLow) h _ _)

theorem exec_resetNDeasserted (avs : Bool) (s : State) : exec (.resetNDeasserted avs) s = .next
    (if s.resetHigh.svc.pwrgood && !s.resetHigh.svc.tripped && s.resetHigh.rd .a SVC.SVC_STATE.PHASE == 3 then s.resetHigh.startDies avs
     else s.resetHigh) := rfl

theorem Runs.resetNDeasserted_starts (hw : tblWf s.regs = true) (hpow : s.svc.pwrgood = true) (htrip : s.svc.tripped = false)
    (h : s.rd .a SVC.SVC_STATE.PHASE = 3) :
    Runs (.resetNDeasserted false) s (fun t => t.rd .a SVC.SVC_STATE.PHASE = 11 ∧ t.svc.resetN = true ∧ t.svc.tap.drives = 0 ∧
      t.dies = s.dies ∧ onlyFields [(.a, SVC.SVC_STATE.PHASE)] s t) ∧
    Runs (.resetNDeasserted true) s (fun t => ∃ u : State, s.lit u ∧ u.svc.resetN = true ∧ u.svc.tap.drives = 0 ∧ t = u.bootImage ∧
      u.boots t) := by
  have high : tblWf s.resetHigh.regs = true := hw
  have goes (avs : Bool) : exec (.resetNDeasserted avs) s = .next (s.resetHigh.startDies avs) := by
    refine (exec_resetNDeasserted avs s).trans (congrArg Host.Outcome.next (if_pos ?_))
    have hphase : s.resetHigh.rd .a SVC.SVC_STATE.PHASE = 3 := h
    have hpow' : s.resetHigh.svc.pwrgood = true := hpow
    have htrip' : s.resetHigh.svc.tripped = false := htrip
    rw [hphase, hpow', htrip']
    rfl
  constructor
  · refine .of_next (goes false) ⟨State.rd_wr_same _ _ _ _ high, rfl, rfl, rfl, ?_⟩
    exact ((s.resetHigh.writesIn_wr_of (d := .a) (fs := [(.a, SVC.SVC_STATE.PHASE)]) 11 rfl).of_left).onlyFields hw
  · have hsvc := (State.carried_lights high).svc rfl
    obtain ⟨hlit, hboots⟩ := State.lights_boots high
    exact .of_next (goes true) ⟨_, hlit, congrArg Svc.resetN hsvc, congrArg (fun v => v.tap.drives) hsvc, rfl, hboots⟩

theorem Runs.resetNDeasserted_off (avs : Bool)
    (h : s.svc.pwrgood = false ∨ s.svc.tripped = true ∨ s.rd .a SVC.SVC_STATE.PHASE ≠ 3) : Runs (.resetNDeasserted avs) s (fun t =>
      t = { s with svc := { s.svc with resetN := true, tap := { s.svc.tap with drives := 0 } } }) := by
  refine .of_next (exec_resetNDeasserted avs s) (if_neg (fun hc => ?_))
  simp only [Bool.and_eq_true, Bool.not_eq_true', beq_iff_eq] at hc
  obtain ⟨⟨hpow, htrip⟩, hphase⟩ := hc
  rcases h with h | h | h
  · exact Bool.false_ne_true (h.symm.trans hpow)
  · exact Bool.false_ne_true (htrip.symm.trans h)
  · exact h hphase

/-! ### DEVICE_RESET -/

/-- The cause that a DEVICE_RESET records. -/
def commandCause (rq : Requester) : Fld := match rq with | .fn _ => SVC.RESET_CAUSE.FM_CMD | _ => SVC.RESET_CAUSE.OOB

theorem commandCause_mem (rq : Requester) : commandCause rq ∈ resetCauses := by
  have causes : SVC.RESET_CAUSE.FM_CMD ∈ resetCauses ∧ SVC.RESET_CAUSE.OOB ∈ resetCauses := by decide
  cases rq with
  | fn _ => exact causes.1
  | svc | oob | mgt => exact causes.2

theorem exec_deviceReset {rq : Requester} (avs : Bool) (hrq : s.warden rq) (hb : s.rd .a FM.FM_STATUS.BUSY ≠ 1) :
    exec (.deviceReset rq avs) s = .next (s.warmReset (commandCause rq) avs) := by
  obtain ⟨hbar, hpriv⟩ := hrq
  have idle : ¬ s.on .a FM.FM_STATUS.BUSY = true := fun h => hb (beq_iff_eq.mp h)
  refine congrArg Host.Outcome.next ((if_neg (by simp [hbar])).trans ((if_pos hpriv).trans ?_))
  exact if_neg idle

section
variable {rq : Requester} (hrq : s.warden rq) (hb : s.rd .a FM.FM_STATUS.BUSY ≠ 1)
include hrq hb

theorem Runs.deviceReset_off (avs : Bool) (h : s.svc.pwrgood = false ∨ s.svc.tripped = true) :
    Runs (.deviceReset rq avs) s (fun t => t = s) :=
  .of_next (exec_deviceReset avs hrq hb) (State.warmReset_off h _ _)

variable (hw : tblWf s.regs = true) (hpow : s.svc.pwrgood = true) (htrip : s.svc.tripped = false)
include hw hpow htrip

theorem Runs.deviceReset_runs (avs : Bool) (h : s.rd .a SVC.SVC_STATE.PHASE ≠ 3) : Runs (.deviceReset rq avs) s (fun t =>
    s.starts avs t ∧ ∃ u : State, t = u.fromStore avs ∧ s.warmed (commandCause rq) u) := by
  obtain ⟨hwarm, hre⟩ := State.warmed_warmState hw (commandCause_mem rq)
  refine .of_next (exec_deviceReset avs hrq hb) ?_
  rw [State.warmReset_runs hpow htrip h]
  exact ⟨State.starts_fromStore hre, _, rfl, hwarm⟩

theorem Runs.deviceReset_held (avs : Bool) (h : s.rd .a SVC.SVC_STATE.PHASE = 3) : Runs (.deviceReset rq avs) s (fun t =>
    t.rd .a (commandCause rq) = 1 ∧ t.dies = s.dies ∧ t.svc = s.svc ∧ onlyFields [(.a, commandCause rq)] s t) := by
  refine .of_next (exec_deviceReset avs hrq hb) ?_
  rw [State.warmReset_held hpow htrip h]
  refine ⟨(State.rd_wr_same _ _ _ _ hw).trans ?_, rfl, rfl, ?_⟩
  · rw [resetCauses_width _ (commandCause_mem rq)]
    rfl
  · exact (s.writesIn_wr 1 ⟨(.a, commandCause rq), List.mem_singleton_self _, rfl⟩).onlyFields hw

end

/-- Settles O58: what a reset keeps is read off the state that it leaves, and the frames of the start-up's steps carry it on to the state
that they reach. -/
theorem startUpAndResets : Obligations.StartUpAndResets := by
  rintro s ⟨hw, -⟩
  exact ⟨Runs.pwrgoodRise_low, Runs.pwrgoodRise_high, Runs.pwrgoodFall_high, Runs.pwrgoodFall_low, Runs.suppliesCollapse s,
    Runs.resetNAsserted_runs hw, Runs.resetNAsserted_held hw, Runs.resetNAsserted_off, Runs.resetNDeasserted_starts hw,
    Runs.resetNDeasserted_off, fun rq avs => ⟨fun hrq hb hpow htrip => ⟨Runs.deviceReset_runs hrq hb hw hpow htrip avs,
      Runs.deviceReset_held hrq hb hw hpow htrip avs⟩, fun hrq hb h => Runs.deviceReset_off hrq hb avs h⟩⟩

end Sys2Proof.Machine
end

section
/-! The invariant of the model (O5, O6), and that no command ends in a fault or a refusal (O3). Writes of register fields and of device
memory keep the invariant, and it looks at nothing else, so the laws that say what every command keeps give it of every step. -/

set_option Elab.async false

namespace Sys2Proof.Machine

variable {s t : State}

/-! ## Every command answers a next state -/

/-- Settles O3: the meaning of each command is written as a next state. -/
theorem noCommandStops : Obligations.NoCommandStops := by
  intro c s
  cases c
  all_goals exact ⟨_, rfl⟩

/-! ## What the invariant is kept by -/

theorem State.inv.wr (h : s.inv) (d : Die) (f : Fld) (v : Nat) : (s.wr d f v).inv := ⟨s.wr_wf d f v h.1, h.2⟩

theorem State.inv.mstore (h : s.inv) (a : Nat) (bs : List Byte) (p : Bool) : (s.mstore a bs p).inv := ⟨h.1, s.mstore_wf a bs p h.2⟩

/-- The invariant looks at the register fields and at device memory only. -/
theorem State.inv.congr (h : s.inv) (hregs : t.regs = s.regs) (hmem : t.mem = s.mem) : t.inv := by
  obtain ⟨hr, hm⟩ := h
  exact ⟨hregs ▸ hr, hmem ▸ hm⟩

theorem State.inv_closed : Closed (fun _ => false) State.inv where
  wr _ _ d f v h := h.wr d f v
  store _ _ a bs p h := h.mstore a bs p
  drop _ _ p h := ⟨filter_wf p h.1, h.2⟩
  cold _ _ _ _ := ⟨rfl, rfl⟩
  other _ _ _ _ _ _ _ hregs hmem _ _ h := h.congr hregs hmem

/-! ## The passing of time -/

section
variable {P : State → Prop}

/-- What a nanosecond's watching of the domains, the engines and the host's invalidations keeps. -/
theorem State.watched_keeps (h : Holds (fun _ => false) P s) :
    Holds (fun _ => false) P (((((s.trackPower .a).trackPower .b).enginesStep).atsInvDone .a).atsInvDone .b) := by
  have tracked : Holds (fun _ => false) P ((s.trackPower .a).trackPower .b) :=
    State.trackPower_keeps _ .b (s.trackPower_keeps .a h rfl rfl rfl rfl rfl) rfl rfl rfl rfl rfl
  have stepped := State.enginesStep_keeps _ tracked rfl rfl rfl rfl rfl rfl rfl rfl rfl
  exact State.atsInvDone_keeps _ .b (State.atsInvDone_keeps _ .a stepped rfl rfl) rfl rfl

/-- A property that every command keeps holds after a nanosecond, if the clock's own step keeps it. -/
theorem Closed.of_tick (hP : Closed (fun _ => false) P) (h : P { s with now := s.now + 1 }) : P s.tick := by
  have passed : Holds (fun _ => false) P { s with now := s.now + 1 } := ⟨hP, h⟩
  suffices Holds (fun _ => false) P s.tick from this.holds
  refine Holds.ite ?_ passed
  refine State.trackReady_keeps _ (State.trackQuiesce_keeps _ ?_ rfl rfl) rfl
  refine State.when_keeps _ _ _ ?_ ?_
  · exact State.ftTick_keeps _ passed rfl
  · intro u hu
    exact State.watched_keeps hu

end

/-! ## The obligations -/

/-- Settles O5: both tables are empty. -/
theorem resetHasInvariant : Obligations.ResetHasInvariant := ⟨rfl, rfl⟩

/-- Settles O6: a step is the passing of time or a command, and each keeps what writes of register fields and of memory keep. -/
theorem stepKeepsInvariant : Obligations.StepKeepsInvariant := by
  intro s t hs h
  unfold step at h
  split at h
  case h_1 =>
    obtain rfl : s.tick = t := Host.Outcome.next.inj h
    exact State.inv_closed.of_tick (hs.congr rfl rfl)
  case h_2 c rest _ =>
    have taken : ({ s with pending := rest } : State).inv := hs.congr rfl rfl
    exact State.inv_closed.of_exec c (fun _ _ => rfl) taken h

end Sys2Proof.Machine
end

section
/-! What reads return after writes (O9): a register field, and a range of device memory. -/

set_option Elab.async false

namespace Sys2Proof.Machine

variable {s : State}

/-! ## Device memory -/

@[simp] theorem State.length_mread (s : State) (a n : Nat) : (s.mread a n).length = n := by
  induction n generalizing a with
  | zero => rfl
  | succ n ih => simp [State.mread, ih]

@[simp] theorem State.getElem_mread (s : State) (a n i : Nat) (hi : i < (s.mread a n).length) : (s.mread a n)[i] = s.mbyte (a + i) := by
  induction n generalizing a i with
  | zero => exact absurd hi (Nat.not_lt_zero i)
  | succ n ih =>
    cases i with
    | zero => rfl
    | succ i => simp only [State.mread, List.getElem_cons_succ, ih, Nat.add_assoc, Nat.add_comm 1 i]

theorem State.mbyte_mstore_outside {a x : Nat} {bs : List Byte} (hm : Memory.wf s.mem = true) (hx : x < a ∨ a + bs.length ≤ x) (p : Bool) :
    (s.mstore a bs p).mbyte x = s.mbyte x :=
  congrArg (·.getD 0) (mwriteBytes_outside hm hx)

theorem State.mread_mstore (hm : Memory.wf s.mem = true) (a : Nat) (bs : List Byte) (p : Bool) :
    (s.mstore a bs p).mread a bs.length = bs := by
  refine List.ext_getElem (by simp) (fun i _ hi => ?_)
  rw [State.getElem_mread]
  exact mwriteBytes_inside hm hi

/-- Settles O9, by the laws of the sparse tables that hold the register fields and device memory. -/
theorem writesReadBack : Obligations.WritesReadBack := by
  refine ⟨fun s d f v hs => ?_, fun s a bs p hs => ?_⟩
  · exact ⟨s.rd_wr_same d f v hs.1, hs.wr d f v, fun _ _ hk => s.rd_wr_other v hs.1 hk⟩
  · exact ⟨hs.mstore a bs p, State.mread_mstore hs.2 a bs p, fun _ hx => State.mbyte_mstore_outside hs.2 hx p⟩

end Sys2Proof.Machine
end

section
/-! Commands that only a warden may give: the enable of a block (O16), and the commands of the polder tables (O18). -/

set_option Elab.async false

namespace Sys2Proof.Machine

variable {s : State} {rq : Requester} {d : Die}

/-! ## CTRL.ENABLE and STATUS.ENABLED (03_register_model.md R85 to R87) -/

/-- A requester with a warden's rights performs its access. -/
theorem State.asWarden_warden (h : s.warden rq) (d : Die) (off : Nat) (act : State → State) : s.asWarden rq d off act = act s := by
  obtain ⟨hbar, hpriv⟩ := h
  simp only [State.asWarden, hbar, hpriv, Bool.not_true, Bool.false_eq_true, if_false, if_true]

theorem exec_ctrlEnableWrite {b : Blk} (hrq : s.warden rq) (hb : s.blkThere d b = true) (on : Bool) :
    exec (.ctrlEnableWrite rq d b on) s = .next (s.ctrlWrite d (blkBase b) on) := by
  show execCtrlEnableWrite rq d b on s = _
  simp only [execCtrlEnableWrite, hrq.1, hb, Bool.not_true, Bool.false_eq_true, if_false, State.asWarden_warden hrq]

/-- CTRL.ENABLE of a block with base `b` is written: a block that is enabled shows it in STATUS.ENABLED. -/
def State.enableWritten (s : State) (d : Die) (b : Nat) (on : Bool) : State :=
  if on then (s.wr d (HDR.CTRL.ENABLE b) 1).wr d (HDR.STATUS.ENABLED b) 1 else s.wr d (HDR.CTRL.ENABLE b) 0

theorem State.ctrlWrite_eq (s : State) (d : Die) (b : Nat) (on : Bool) : s.ctrlWrite d b on =
    if s.on d (HDR.CTRL.ENABLE b) = on then s.enableWritten d b on else (s.enableWritten d b on).ctrlEffect d b on := by
  cases on
  all_goals rfl

/-- Blocks whose enable has no effect but on their header. -/
theorem State.ctrlEffect_header {b : Blk} (hb : b ∈ [Blk.dike, .tmu, .tru, .qdu, .rtb, .swc, .dmem]) (s : State) (d : Die) (on : Bool) :
    s.ctrlEffect d (blkBase b) on = s := by
  simp only [List.mem_cons, List.not_mem_nil, or_false] at hb
  rcases hb with rfl | rfl | rfl | rfl | rfl | rfl | rfl
  all_goals rfl

theorem fkey_enable_ne (d : Die) (b : Nat) : fkey d (HDR.CTRL.ENABLE b) ≠ fkey d (HDR.STATUS.ENABLED b) :=
  fkey_ne_of_off d (by simp [HDR.CTRL.ENABLE, HDR.STATUS.ENABLED]) (Nat.succ_pos 63) (Nat.succ_pos 63)

theorem State.writesIn_enableWritten (s : State) (d : Die) (b : Nat) (on : Bool) :
    s.writesIn (keysOf [(d, HDR.CTRL.ENABLE b), (d, HDR.STATUS.ENABLED b)]) (s.enableWritten d b on) := by
  have first : keysOf [(d, HDR.CTRL.ENABLE b), (d, HDR.STATUS.ENABLED b)] (fkey d (HDR.CTRL.ENABLE b)) := ⟨_, .head _, rfl⟩
  cases on with
  | true => exact (s.writesIn_wr 1 first).wr ⟨_, .tail _ (.head _), rfl⟩
  | false => exact s.writesIn_wr 0 first

theorem State.rd_enableWritten (hw : tblWf s.regs = true) (d : Die) (b : Nat) (on : Bool) :
    (s.enableWritten d b on).rd d (HDR.CTRL.ENABLE b) = on.toNat ∧
      (s.enableWritten d b on).rd d (HDR.STATUS.ENABLED b) = if on then 1 else s.rd d (HDR.STATUS.ENABLED b) := by
  have hw' : tblWf (s.wr d (HDR.CTRL.ENABLE b) 1).regs = true := s.wr_wf _ _ _ hw
  cases on with
  | true => exact ⟨(State.rd_wr_other _ 1 hw' (fkey_enable_ne d b)).trans (s.rd_wr_same _ _ _ hw), State.rd_wr_same _ _ _ _ hw'⟩
  | false => exact ⟨s.rd_wr_same _ _ _ hw, s.rd_wr_other 0 hw (fkey_enable_ne d b).symm⟩

theorem Runs.ctrlEnableWrite_header {b : Blk} {on : Bool} (hw : tblWf s.regs = true) (hrq : s.warden rq) (ht : s.blkThere d b = true)
    (hb : b ∈ [Blk.dike, .tmu, .tru, .qdu, .rtb, .swc, .dmem]) : Runs (.ctrlEnableWrite rq d b on) s (fun t =>
      t.rd d (HDR.CTRL.ENABLE (blkBase b)) = on.toNat ∧
      t.rd d (HDR.STATUS.ENABLED (blkBase b)) = (if on then 1 else s.rd d (HDR.STATUS.ENABLED (blkBase b))) ∧
      onlyFields [(d, HDR.CTRL.ENABLE (blkBase b)), (d, HDR.STATUS.ENABLED (blkBase b))] s t) := by
  have run := exec_ctrlEnableWrite hrq ht on
  rw [State.ctrlWrite_eq, State.ctrlEffect_header hb, ite_self] at run
  obtain ⟨hctrl, hstatus⟩ := State.rd_enableWritten hw d (blkBase b) on
  exact .of_next run ⟨hctrl, hstatus, (s.writesIn_enableWritten d (blkBase b) on).onlyFields hw⟩

theorem State.on_eq_false {f : Fld} (h : s.rd d f = 0) : s.on d f = false := by simp [State.on, h]

theorem Runs.statusEnabledCleared_drained {b : Blk} (hw : tblWf s.regs = true) (he : s.rd d (HDR.CTRL.ENABLE (blkBase b)) = 0)
    (hd : s.drained d b = true) : Runs (.statusEnabledCleared d b) s (fun t =>
      t.rd d (HDR.STATUS.ENABLED (blkBase b)) = 0 ∧ onlyFields [(d, HDR.STATUS.ENABLED (blkBase b))] s t) := by
  have run : exec (.statusEnabledCleared d b) s = .next (s.wr d (HDR.STATUS.ENABLED (blkBase b)) 0) :=
    congrArg Host.Outcome.next (if_pos (by simp [State.on_eq_false he, hd]))
  exact .of_next run ⟨s.rd_wr_same _ _ _ hw, (s.writesIn_wr 0 ⟨_, .head _, rfl⟩).onlyFields hw⟩

theorem Runs.statusEnabledCleared_waits {b : Blk} (h : s.rd d (HDR.CTRL.ENABLE (blkBase b)) = 1 ∨ s.drained d b = false) :
    Runs (.statusEnabledCleared d b) s (fun t => t = s) := by
  refine .of_next (t := s) (congrArg Host.Outcome.next (if_neg ?_)) rfl
  rcases h with he | hd
  · simp [State.on, he]
  · simp [hd]

/-- Settles O16: a warden's write is `ctrlWrite`, whose effect on some blocks is on their header alone. -/
theorem enableAndDrain : Obligations.EnableAndDrain := by
  rintro s rq d b ⟨hw, -⟩
  exact ⟨fun on hrq ht => .of_next (exec_ctrlEnableWrite hrq ht on) (s.ctrlWrite_eq d (blkBase b) on),
    fun on hrq ht hb => Runs.ctrlEnableWrite_header hw hrq ht hb, Runs.statusEnabledCleared_drained hw, Runs.statusEnabledCleared_waits⟩

/-! ## A violation (03_register_model.md R81, R88) -/

/-- Only a function can lack a warden's rights. -/
theorem State.fn_of_unprivileged (h : s.privileged rq = false) : ∃ f, rq = .fn f := by
  cases rq with
  | fn f => exact ⟨f, rfl⟩
  | svc | oob | mgt => cases h

theorem State.writesIn_privViolation (s : State) (f : Fn) (view off : Nat) :
    s.writesIn (keysOf violationFields) (s.privViolation (.fn f) view off) :=
  (s.writesIn_wr_of (fs := violationFields) _ rfl).trans (State.writesIn_wrs_of _ rfl)

theorem State.dies_privViolation (s : State) (f : Fn) (view off : Nat) : (s.privViolation (.fn f) view off).dies = s.dies := by
  simp [State.privViolation]

theorem State.rd_privViolation_count (hw : tblWf s.regs = true) (f : Fn) (view off : Nat) :
    (s.privViolation (.fn f) view off).rd .a GLB.PRIV_VIOLATION_COUNT.COUNT =
      min (s.rd .a GLB.PRIV_VIOLATION_COUNT.COUNT + 1) 0xFFFFFFFF :=
  (State.rd_wrs_other (s.bump_wf _ _ hw)).trans (s.rd_bump_same _ _ hw)

/-! ## Polder commands (04_polders.md R117, R119) -/

theorem State.ptCommand_busy {op : Nat} {act : State → Except (Nat × Nat) State} (hrq : s.warden rq)
    (h : s.rd d DIKE.PT_STATUS.BUSY = 1) : s.ptCommand rq d op act = s.wr d DIKE.PT_STATUS.GO_REJECT 1 := by
  obtain ⟨hbar, hpriv⟩ := hrq
  simp [State.ptCommand, State.on, hbar, hpriv, h]

theorem State.ptCommand_unprivileged {op : Nat} {act : State → Except (Nat × Nat) State} (hbar : s.barUp rq = true)
    (hpriv : s.privileged rq = false) : s.ptCommand rq d op act = s.privViolation rq 0 (d.base + DIKE.PT_CMD.OP.off) := by
  simp [State.ptCommand, hbar, hpriv]

theorem State.ptOpenClose_pt (s : State) (rq : Requester) (d : Die) (op : Nat) (act : Nat → State → State) :
    ∃ act', s.ptOpenClose (.pt rq d) op act = s.ptCommand rq d op act' := by
  rw [State.ptOpenClose]
  exact ⟨_, rfl⟩

/-- Each PT command is performed through the channel of its die's polder table. -/
theorem exec_ptCommand {c : Instr} (hc : c ∈ [Instr.ptRegister rq d, .ptDeregister rq d, .ptClose (.pt rq d), .ptOpen (.pt rq d),
    .ptBind rq d, .ptUnbind rq d, .ptSetWindow rq d, .ptSetAttr rq d, .ptRead rq d]) (s : State) :
    ∃ op act, exec c s = .next (s.ptCommand rq d op act) := by
  simp only [List.mem_cons, List.not_mem_nil, or_false] at hc
  rcases hc with rfl | rfl | rfl | rfl | rfl | rfl | rfl | rfl | rfl
  case inr.inr.inl =>
    obtain ⟨act, h⟩ := s.ptOpenClose_pt rq d 3 (fun id s => s.closePolder id)
    exact ⟨3, act, congrArg Host.Outcome.next h⟩
  case inr.inr.inr.inl =>
    obtain ⟨act, h⟩ := s.ptOpenClose_pt rq d 4 (fun id s => s.setClosed id false)
    exact ⟨4, act, congrArg Host.Outcome.next h⟩
  all_goals exact ⟨_, _, rfl⟩

/-- Settles O18: both guards stand in the channel, before what the command does. -/
theorem polderCommandsAreGuarded : Obligations.PolderCommandsAreGuarded := by
  rintro s rq d ⟨hw, -⟩ hbar c hc
  obtain ⟨op, act, run⟩ := exec_ptCommand hc s
  refine ⟨fun hpriv hbusy => ?_, fun hpriv => ?_⟩
  · rw [State.ptCommand_busy ⟨hbar, hpriv⟩ hbusy] at run
    exact .of_next run ⟨s.rd_wr_same _ _ _ hw, rfl, (s.writesIn_wr 1 ⟨_, .head _, rfl⟩).onlyFields hw⟩
  · obtain ⟨f, rfl⟩ := State.fn_of_unprivileged hpriv
    rw [State.ptCommand_unprivileged hbar hpriv] at run
    exact .of_next run ⟨s.dies_privViolation f _ _, State.rd_privViolation_count hw f _ _, (s.writesIn_privViolation f _ _).onlyFields hw⟩

end Sys2Proof.Machine
end

section
/-! Writes of registers through PF BAR0 (03_register_model.md R73 to R86): the four views of a field that any requester may write (O14),
and why the guards of a write-while-disabled field do not hold in every state with the invariant (O15). -/

set_option Elab.async false

namespace Sys2Proof.Machine

variable {s : State} {rq : Requester}

/-! ## Views (R73) -/

/-- The bits of a word are those that `v` has too and those that it has not. -/
theorem toNat_and_not (v old : W64) : (old &&& ~~~v).toNat = old.toNat - Nat.land old.toNat v.toNat := by
  have apart : (old &&& v) &&& (old &&& ~~~v) = 0#64 := by
    ext i
    simp only [BitVec.getElem_and, BitVec.getElem_not, BitVec.getElem_zero]
    cases v[i] <;> simp
  have all : (old &&& v) + (old &&& ~~~v) = old := by
    rw [BitVec.add_eq_or_of_and_eq_zero _ _ apart]
    ext i
    simp only [BitVec.getElem_and, BitVec.getElem_not, BitVec.getElem_or]
    cases v[i] <;> simp
  have sum := BitVec.toNat_add_of_and_eq_zero apart
  have both : (old &&& v).toNat = Nat.land old.toNat v.toNat := rfl
  rw [all] at sum
  omega

/-- What the write of a whole word `v` in each view leaves of a word. -/
def viewedWord : Fin 4 → W64 → W64 → W64
  | 0, v, _ => v
  | 1, v, old => old ||| v
  | 2, v, old => old &&& ~~~v
  | 3, v, old => old ^^^ v

theorem viewed_word (view : Fin 4) (v old : W64) : viewed view.val (2 ^ 64 - 1) v.toNat old.toNat = (viewedWord view v old).toNat := by
  match view with
  | 0 =>
    have whole : Nat.land old.toNat (2 ^ 64 - 1) = old.toNat :=
      (Nat.and_two_pow_sub_one_eq_mod old.toNat 64).trans (Nat.mod_eq_of_lt old.isLt)
    show old.toNat - Nat.land old.toNat (2 ^ 64 - 1) + v.toNat = v.toNat
    rw [whole, Nat.sub_self, Nat.zero_add]
  | 1 => rfl
  | 2 => exact (toNat_and_not v old).symm
  | 3 => rfl

/-! ## The way of a write (R72, R76, R84) -/

/-- A write of PF BAR0 that R76 admits, at a register that is there and in no domain that can sleep, is applied. -/
theorem State.regWrite_apply {off size data a : Nat} {d : Die} (hbar : s.barUp rq = true) (h0 : s.hasBar0 rq = true)
    (hgood : goodAccess off size = true) (hset : inPageSets (off % 0x4000000) = false) (hd : accessDie off = d)
    (ha : unview (off % 0x4000000) / 8 * 8 = a) (hunit : s.unitAbsent d a = false) (hchannel : s.channelBad rq d a = false)
    (hrows : (s.rowsAt d a).isEmpty = false) (hdom : s.regDomain a = none) : s.regWrite rq off size data =
      s.regApply { rq := rq, d := d, reg := a, view := viewOf (off % 0x4000000), off := off, size := size, data := data } := by
  subst hd ha
  simp only [State.regWrite, hbar, h0, hgood, hset, hunit, hchannel, hrows, Bool.not_true, Bool.or_self, Bool.false_eq_true, if_false,
    State.regDeliver, heldAccess, hdom]

/-- A write that meets one RW field, outside the IMS block and the switched domains, acts on that field alone. -/
theorem State.regApply_rw {x : RegAccess} {f : Fld}
    (hrows : (s.rowsAt x.d x.reg).filter (fun r => x.mask r.fld != 0) = [⟨f, .rw, .any⟩]) (hdom : s.regDomain x.reg = none)
    (hims : x.reg < 0x180000) : s.regApply x = s.regEffect x [(f, s.written x f)] := by
  have outside : decide (0x180000 ≤ x.reg ∧ x.reg < 0x200000) = false := decide_eq_false (fun h => absurd h.1 (Nat.not_le.mpr hims))
  have open_ : [(⟨f, .rw, .any⟩ : Row)].any protectedRow = false := rfl
  have enabled (b : Nat) (c : Bool) : s.wdRefused x b (if c then [(⟨f, .rw, .any⟩ : Row)].filter (fun r => r.acc == .wd) else []) = false := by
    cases c <;> rfl
  simp only [State.regApply, hrows, outside, open_, enabled, Bool.and_false, State.when, Bool.false_eq_true, if_false, hdom]
  rfl

/-! ## GLB.SCRATCH -/

/-- The access that writes all of GLB.SCRATCH in a view. -/
def scratchAccess (rq : Requester) (view : Fin 4) (v : W64) : RegAccess :=
  { rq := rq, d := .a, reg := 0xA8, view := view.val, off := 0xA8 + 0x1000 * view.val, size := 8, data := v.toNat }

theorem scratchAccess_mask (rq : Requester) (view : Fin 4) (v : W64) : (scratchAccess rq view v).mask GLB.SCRATCH.DATA = 2 ^ 64 - 1 := by
  have aligned : (0xA8 + 0x1000 * view.val) % 8 = 0 := by omega
  simp [RegAccess.mask, scratchAccess, aligned, GLB.SCRATCH.DATA]

theorem scratchAccess_bits (rq : Requester) (view : Fin 4) (v : W64) : (scratchAccess rq view v).bits GLB.SCRATCH.DATA = v.toNat := by
  have aligned : (0xA8 + 0x1000 * view.val) % 8 = 0 := by omega
  simp [RegAccess.bits, scratchAccess, aligned, GLB.SCRATCH.DATA, Nat.mod_eq_of_lt v.isLt]

theorem State.rowsAt_scratch (s : State) : s.rowsAt .a 0xA8 = [⟨GLB.SCRATCH.DATA, .rw, .any⟩] := rfl

theorem State.regWrite_scratch (hbar : s.barUp rq = true) (h0 : s.hasBar0 rq = true) (view : Fin 4) (v : W64) :
    s.regWrite rq (0xA8 + 0x1000 * view.val) 8 v.toNat = s.regApply (scratchAccess rq view v) := by
  have place : goodAccess (0xA8 + 0x1000 * view.val) 8 = true ∧ inPageSets ((0xA8 + 0x1000 * view.val) % 0x4000000) = false ∧
      accessDie (0xA8 + 0x1000 * view.val) = .a ∧ unview ((0xA8 + 0x1000 * view.val) % 0x4000000) / 8 * 8 = 0xA8 ∧
      viewOf ((0xA8 + 0x1000 * view.val) % 0x4000000) = view.val := by
    revert view
    decide
  obtain ⟨hgood, hset, hdie, hreg, hview⟩ := place
  rw [State.regWrite_apply hbar h0 hgood hset hdie hreg rfl rfl rfl rfl, hview]
  rfl

theorem State.regEffect_scratch {x : RegAccess} (hreg : x.reg = 0xA8) (n : Nat) :
    s.regEffect x [(GLB.SCRATCH.DATA, n)] = s.wr .a GLB.SCRATCH.DATA n := by
  simp only [State.regEffect, hreg]
  rfl

theorem State.regApply_scratch (s : State) (rq : Requester) (view : Fin 4) (v : W64) :
    s.regApply (scratchAccess rq view v) = s.wr .a GLB.SCRATCH.DATA (s.written (scratchAccess rq view v) GLB.SCRATCH.DATA) := by
  have rows : (s.rowsAt .a 0xA8).filter (fun r => (scratchAccess rq view v).mask r.fld != 0) = [⟨GLB.SCRATCH.DATA, .rw, .any⟩] := by
    simp only [s.rowsAt_scratch, List.filter_cons, scratchAccess_mask]
    rfl
  exact (State.regApply_rw rows rfl (show 0xA8 < 0x180000 by decide)).trans (State.regEffect_scratch rfl _)

theorem Runs.registerWrite_scratch {old : W64} (hw : tblWf s.regs = true) (hbar : s.barUp rq = true) (h0 : s.hasBar0 rq = true)
    (hold : s.rd .a GLB.SCRATCH.DATA = old.toNat) (view : Fin 4) (v : W64) {off : BitVec 27} (hoff : off.toNat = 0xA8 + 0x1000 * view.val) :
    Runs (.registerWrite rq (.bar0 off) 8 (some v)) s (fun t =>
      t.rd .a GLB.SCRATCH.DATA = (viewedWord view v old).toNat ∧ onlyFields [(.a, GLB.SCRATCH.DATA)] s t) := by
  have run : exec (.registerWrite rq (.bar0 off) 8 (some v)) s = .next (s.wr .a GLB.SCRATCH.DATA (viewedWord view v old).toNat) := by
    have value : s.written (scratchAccess rq view v) GLB.SCRATCH.DATA = (viewedWord view v old).toNat := by
      rw [State.written, scratchAccess_mask, scratchAccess_bits, ← viewed_word, ← hold]
      rfl
    show Host.Outcome.next (s.regWrite rq off.toNat 8 v.toNat) = _
    rw [hoff, State.regWrite_scratch hbar h0, s.regApply_scratch, value]
  exact .of_next run ⟨(s.rd_wr_same _ _ _ hw).trans (Nat.mod_eq_of_lt (BitVec.isLt _)), (s.writesIn_wr_of _ rfl).onlyFields hw⟩

theorem State.readReg_scratch (s : State) (rq : Requester) : s.readReg rq .a 0xA8 = 0 + s.rd .a GLB.SCRATCH.DATA % 2 ^ 64 * 2 ^ 0 := rfl

theorem State.readBar0_scratch {old : W64} (hold : s.rd .a GLB.SCRATCH.DATA = old.toNat) : s.readBar0 rq 0xA8 8 = old.toNat := by
  have shown := s.readReg_scratch rq
  rw [hold, Nat.mod_eq_of_lt old.isLt, Nat.pow_zero, Nat.mul_one, Nat.zero_add] at shown
  exact shown

/-- Settles O14: the write of GLB.SCRATCH in a view is the write of one RW field in that view. -/
theorem viewsWriteAsTheySay : Obligations.ViewsWriteAsTheySay := by
  rintro s rq v old ⟨hw, -⟩ hbar h0 hold
  have write := Runs.registerWrite_scratch hw hbar h0 hold
  have read : s.regReadAt rq (.bar0 0xA8) 8 = s.emit (.regData rq old.toNat) := by
    rw [← State.readBar0_scratch (rq := rq) hold]
    exact if_pos hbar
  exact ⟨write 0 v rfl, write 1 v rfl, write 2 v rfl, write 3 v rfl, .of_next (congrArg Host.Outcome.next read) rfl⟩

/-! ## A field beyond its width

The invariant says in which order the fields are listed, and nothing of their values. In a state whose MAX_RATE, a field of 9 bits, holds
512, a write of 1 to these bits would leave 513, which the field's range of 1 to 256 (06_work_queues.md R194) refuses. `State.wr` cuts what
it stores to the field's width, so no write leaves such a value; but the obligation asks for the invariant alone. -/

/-- A state with the invariant, in which MAX_RATE of die A holds 512 and its block is disabled. -/
def wideRate : State := { State.reset with regs := [(fkey .a WQU.POLL_CFG.MAX_RATE, 512)] }

/-- The SVC writes 1 to MAX_RATE. -/
def rateWrite : Instr := .registerWrite .svc (.bar0 0x400020) 8 (some 1)

theorem exec_rateWrite_wideRate : exec rateWrite wideRate = .next (wideRate.cfgReject .a 0x400000) := by
  have applied := State.regWrite_apply (s := wideRate) (rq := .svc) (off := 0x400020) (size := 8) (data := 1)
    rfl rfl rfl rfl rfl rfl rfl rfl rfl rfl
  exact congrArg Host.Outcome.next (applied.trans rfl)

/-- Refutes O15: a warden's write in range, to a disabled block, is refused where the field held a value beyond its width. -/
theorem not_disabledFieldsAreGuarded : ¬ Obligations.DisabledFieldsAreGuarded := by
  intro h
  obtain ⟨taken, -⟩ := h wideRate .svc .a 1 ⟨rfl, rfl⟩ rfl rfl (by decide)
  obtain ⟨t, run, rate, -⟩ := taken rfl (by decide)
  obtain rfl : wideRate.cfgReject .a 0x400000 = t := Host.Outcome.next.inj (exec_rateWrite_wideRate.symm.trans run)
  exact absurd rate (by decide)

end Sys2Proof.Machine
end

section
/-! The pages of a function's work queues (O29): a write of the doorbell page or the queue control page goes through the check at the
host port's ingress (04_polders.md R106), which drops and counts it, or lets it by to a set that the function has. -/

set_option Elab.async false

namespace Sys2Proof.Machine

variable {s : State} {f : Fn} {q : Fin 128} {c : Instr}

/-! ## Host events that are counted (04_polders.md R120) -/

/-- A counter counts an event that is then recorded in LAST_DROP. -/
theorem State.counted_lastDropHost (hw : tblWf s.regs = true) (d : Die) {g : Fld} (f : Fn) (polder reason : Nat)
    (hg : ([DIKE.LAST_DROP.POLDER, DIKE.LAST_DROP.REASON, DIKE.LAST_DROP.SRC_FEA].all g.apart) = true := by rfl) :
    counted d g s ((s.bump d g).lastDropHost d f polder reason) :=
  (State.rd_wrs_other (s.bump_wf d g hw) hg).trans (s.rd_bump_same d g hw)

theorem State.counted_ingressDrop (hw : tblWf s.regs = true) (f : Fn) :
    counted (fnDie f) DIKE.INGRESS_DROPS.COUNT s (s.ingressDrop f) := State.counted_lastDropHost hw ..

/-! ## The check at ingress -/

/-- A dropped write changes register fields alone. -/
theorem State.ingressDrop_eq (s : State) (f : Fn) : s.ingressDrop f = { s with regs := (s.ingressDrop f).regs } := State.wrs_eq ..

theorem State.ingress_dropped (h : s.ingressOk f = false) (q : Fin 128) (act : State → State) : s.ingress f q act = s.ingressDrop f := by
  simp [State.ingress, h]

theorem State.ingress_absent (h : s.ingressOk f = true) (hq : s.hasSet f q = false) (act : State → State) : s.ingress f q act = s := by
  simp [State.ingress, h, hq]

/-- Each write of the two pages goes through the check; what RESET_QUEUE does besides asks that a queue has gone. -/
theorem exec_ingress {k : Fin 8} {n : Fin 16} {r : Fin 4} {v : W32} {arm : Bool} {a : W64} {m : BitVec 16} {rec : Option (BitVec 512)}
    {ring : Option (BitVec 256)}
    (hc : c ∈ [Instr.doorbell f q k 4, .doorbell f q k 8, .ctrAdd f q n v, .ringConsWrite f q r v arm, .contextAddrWrite f q a,
      .start f q ⟨k, m⟩, .stop f q ⟨k, m⟩, .createQueue f q ⟨k, m⟩ rec, .createRing f q ⟨k, m⟩ ring, .destroyRing f q ⟨k, m⟩,
      .resetCounters f q ⟨k, m⟩, .invalidate f q ⟨k, m⟩, .resetQueue f q ⟨k, m⟩]) (s : State) :
    ∃ (act after : State → State), exec c s = .next (after (s.ingress f q act)) ∧ ∀ t : State, t.queues = s.queues → after t = t := by
  simp only [List.mem_cons, List.not_mem_nil, or_false] at hc
  rcases hc with rfl | rfl | rfl | rfl | rfl | rfl | rfl | rfl | rfl | rfl | rfl | rfl | rfl
  iterate 2 exact ⟨fun s => s.ringBell f q k, id, rfl, fun _ _ => rfl⟩
  iterate 10 exact ⟨_, id, rfl, fun _ _ => rfl⟩
  let key := qKey (setKey f q.val) k.val
  refine ⟨_, fun t => if (s.queue key).isSome && (t.queue key).isNone then t.tmuDropQueue key else t, rfl, fun t ht => if_neg ?_⟩
  rw [show t.queue key = s.queue key from congrArg (tget · key) ht]
  cases s.queue key
  all_goals exact nofun

/-- Settles O29: what a write does on its page stands behind the check, which a drop or an absent set does not pass. -/
theorem queuePagesAreGuarded : Obligations.QueuePagesAreGuarded := by
  rintro s f q k n r v arm a m rec ring ⟨hw, -⟩ c hc
  obtain ⟨act, after, run, nothing⟩ := exec_ingress hc s
  refine ⟨fun hok hset => ?_, fun hok => ?_⟩
  · rw [State.ingress_absent hok hset, nothing s rfl] at run
    exact .of_next run rfl
  · rw [State.ingress_dropped hok, nothing _ (by rw [State.ingressDrop_eq])] at run
    have hcount := State.counted_ingressDrop hw f
    rw [State.ingressDrop_eq] at run hcount
    exact .of_next run ⟨rfl, rfl, rfl, rfl, rfl, rfl, hcount⟩

end Sys2Proof.Machine
end

section
/-! Accesses of a host that fail their window check (O22): each is counted (04_polders.md R110) and none reaches the memory system. -/

set_option Elab.async false

namespace Sys2Proof.Machine

variable {s t : State} {f : Fn} {o : BitVec 40}

/-- A window violation of a function is counted, and no byte of memory changes. -/
def State.violated (s : State) (f : Fn) (t : State) : Prop :=
  t.mem = s.mem ∧ counted (fnDie f) DIKE.WINDOW_VIOLATIONS.COUNT s t

@[simp] theorem State.windowViolation_mem (s : State) (f : Fn) : (s.windowViolation f).mem = s.mem := State.wrs_mem ..
@[simp] theorem State.windowViolation_out (s : State) (f : Fn) : (s.windowViolation f).out = s.out := State.wrs_out ..

theorem State.windowViolation_wf (hw : tblWf s.regs = true) (f : Fn) : tblWf (s.windowViolation f).regs = true :=
  State.wrs_wf _ _ _ (s.bump_wf _ _ hw)

theorem State.violated_windowViolation (hw : tblWf s.regs = true) (f : Fn) : s.violated f (s.windowViolation f) :=
  ⟨s.windowViolation_mem f, State.counted_lastDropHost hw ..⟩

theorem State.violated.emit (h : s.violated f t) (x : Output) : s.violated f (t.emit x) := ⟨h.1, h.2⟩

/-- Registers of the host ports lie above the windows of both dies. -/
theorem fkey_ne_hp (d : Die) {f g : Fld} (hf : f.off < 0x4000000) (hg : 0x8000000 ≤ g.off) (hl : f.lo < 64) : fkey d f ≠ fkey .a g := by
  have hd : d.base ≤ 0x4000000 := by cases d; exacts [Nat.zero_le _, le_refl _]
  unfold fkey
  omega

theorem State.violated.busyReturn (h : s.violated f t) (ht : tblWf t.regs = true) (low : Nat) : s.violated f (t.busyReturn f low) := by
  have hp : 0x8000000 ≤ (HP.HP_HOLD_BUSY.COUNT (t.fnLink f)).off := Nat.le_trans (by decide) (Nat.le_add_right ..)
  have counted : s.violated f (t.bump .a (HP.HP_HOLD_BUSY.COUNT (t.fnLink f))) := by
    refine ⟨h.1, Eq.trans ?_ h.2⟩
    exact State.rd_wr_other t _ ht (fkey_ne_hp (fnDie f) (by decide) hp (by decide))
  exact counted.emit _

/-! ## The commands -/

section
variable (hw : tblWf s.regs = true)
include hw

theorem Runs.bar2Read_violates {len : Nat} {ro : Bool} (h : s.barAddr f o.toNat len .read = none) :
    Runs (.bar2Read f o ⟨len, ro⟩) s (fun t => s.violated f t ∧ t.out = s.out ++ [.readReturn f (List.replicate len 0) false]) := by
  have run : exec (.bar2Read f o ⟨len, ro⟩) s = .next ((s.windowViolation f).emit (.readReturn f (List.replicate len 0) false)) := by
    show execBar2Read f o ⟨len, ro⟩ s = _
    simp only [execBar2Read, h]
  exact .of_next run ⟨(State.violated_windowViolation hw f).emit _, by simp⟩

theorem Runs.bar2Write_violates {data : List Byte} {w : WriteAttr} (h : s.barAddr f o.toNat data.length .write = none) :
    Runs (.bar2Write f o data w) s (fun t => s.violated f t ∧ t.out = s.out) := by
  have run : exec (.bar2Write f o data w) s = .next (s.windowViolation f) := by
    show execBar2Write f o data w s = _
    simp only [execBar2Write, h]
  exact .of_next run ⟨State.violated_windowViolation hw f, by simp⟩

theorem Runs.hostAtomicop_violates {k : AtomicKind} {size : Nat} {x y : BitVec 128} (hk : hostAtomicOk k size = true)
    (ha : o.toNat % size = 0) (h : s.barAddr f o.toNat size .atomic = none) : Runs (.hostAtomicop f o k size x y) s (fun t =>
      s.violated f t ∧ t.out = s.out ++ [.readReturn f (List.replicate size 0) false]) := by
  have run : exec (.hostAtomicop f o k size x y) s =
      .next ((s.windowViolation f).emit (.readReturn f (List.replicate size 0) false)) := by
    show execHostAtomicop f o k size x y s = _
    simp [execHostAtomicop, hk, ha, h]
  exact .of_next run ⟨(State.violated_windowViolation hw f).emit _, by simp⟩

theorem Runs.holdRead_violates {len : Nat} (h : s.barAddr f o.toNat (max len 1) .hold = none) : Runs (.holdRead f o len) s (fun t =>
    s.violated f t ∧ t.out = s.out ++ [.readReturn f (leBytes 8 (2 ^ 63)) false]) := by
  have run : exec (.holdRead f o len) s = .next ((s.windowViolation f).busyReturn f 0) := by
    show execHoldRead f o len s = _
    simp only [execHoldRead, h]
  refine .of_next run ⟨(State.violated_windowViolation hw f).busyReturn (State.windowViolation_wf hw f) 0, ?_⟩
  simp [State.busyReturn, State.holdReturn, busyWord]

variable {len : Nat} (hon : (s.hp f.hp).hdmOn = true) (hf : f.fn = 0)
include hon hf

theorem Runs.hdmRead_violates (hu : s.usable (s.hdmAddr o.toNat) len = false) : Runs (.hdmAccess f.hp o none len) s (fun t =>
    s.violated f t ∧ t.out = s.out ++ [.readReturn f (List.replicate len 0) false]) := by
  have hpf : (⟨f.hp, 0⟩ : Fn) = f := by rw [← hf]
  have run : exec (.hdmAccess f.hp o none len) s = .next ((s.windowViolation f).emit (.readReturn f (List.replicate len 0) false)) := by
    show execHdmAccess f.hp o none len s = _
    simp [execHdmAccess, hon, hu, hpf, State.when]
  exact .of_next run ⟨(State.violated_windowViolation hw f).emit _, by simp⟩

theorem Runs.hdmWrite_violates {w : BusData} (hu : s.usable (s.hdmAddr o.toNat) w.bytes.length = false) :
    Runs (.hdmAccess f.hp o (some w) len) s (fun t => s.violated f t ∧ t.out = s.out ++ []) := by
  have hpf : (⟨f.hp, 0⟩ : Fn) = f := by rw [← hf]
  have run : exec (.hdmAccess f.hp o (some w) len) s = .next (s.windowViolation f) := by
    show execHdmAccess f.hp o (some w) len s = _
    simp [execHdmAccess, hon, hu, hpf, State.when]
  exact .of_next run ⟨State.violated_windowViolation hw f, by simp⟩

end

/-- Settles O22: each command counts the violation, and answers zeros, busy or nothing. -/
theorem windowViolationsChangeNoMemory : Obligations.WindowViolationsChangeNoMemory := by
  rintro s f o ⟨hw, -⟩
  refine ⟨fun _ _ => Runs.bar2Read_violates hw, fun _ _ _ => Runs.bar2Write_violates hw, fun _ _ _ _ => Runs.hostAtomicop_violates hw,
    fun _ => Runs.holdRead_violates hw, fun write _ hf hon hu => ?_⟩
  cases write with
  | none => exact Runs.hdmRead_violates hw hon hf hu
  | some w => exact Runs.hdmWrite_violates hw hon hf hu

end Sys2Proof.Machine
end

section
/-! COUNT_CLEAR (O17): why the statement does not hold of every field that can be written down.

The violation counters are two registers, at 0x80 and 0x88, and the statement names these two offsets as the group's places; a clear
takes out everything that is listed from the one to the other. No register of the map lies between them, but the statement speaks of
every offset and bit, and the invariant does not say that a listed key is one of the map's. So a value listed at offset 0x84 goes with
the clear, where the statement wants it kept. -/

set_option Elab.async false

namespace Sys2Proof.Machine

/-- The middle of the register of PRIV_VIOLATION_COUNT, where the map has no register. -/
def betweenViolations : Fld := ⟨0x84, 0, 8, 0⟩

/-- A state with the invariant, in which a value is listed there. -/
def strayCount : State := { State.reset with regs := [(fkey .a betweenViolations, 1)] }

theorem exec_countClear_strayCount : exec (.countClear .svc .a .privViolations) strayCount =
    .next (strayCount.clearSpan .a 0x80 0x88) := rfl

/-- Refutes O17: the clear of the violation counters takes out a value that is listed between their two registers. -/
theorem not_countersClear : ¬ Obligations.CountersClear := by
  intro h
  obtain ⟨clear, -⟩ := h strayCount .svc .a ⟨rfl, rfl⟩
  obtain ⟨t, run, reads⟩ := clear .privViolations (fun _ _ => nofun) nofun rfl ⟨rfl, rfl⟩
  obtain rfl : strayCount.clearSpan .a 0x80 0x88 = t := Host.Outcome.next.inj (exec_countClear_strayCount.symm.trans run)
  exact absurd (reads .a betweenViolations (by decide) (by decide)) (by decide)

end Sys2Proof.Machine
end

section
/-! The commands of the polder tables (O19, O20): what a PT command does before and after its own action (04_polders.md R117, R119), the
entry that it finds, and what it leaves of the tables of both dies. -/

set_option Elab.async false

namespace Sys2Proof.Machine

variable {s t u : State} {rq : Requester} {d e : Die} {op i id : Nat} {p : Polder} {f : Fn} {g : Fld} {c : Instr}
  {act : State → Except (Nat × Nat) State} {Q : State → Prop}

@[simp] theorem State.die_wrs (s : State) (d e : Die) (l : List (Fld × Nat)) : (s.wrs d l).die e = s.die e :=
  congrArg (Pair.get · e) (State.wrs_dies ..)

/-! ## Before the action -/

/-- The state in which a PT command acts on a resident polder: its opcode is stored, and INDEX names the entry. -/
def State.ptReady (s : State) (d : Die) (op i : Nat) : State := s.wrs d [(DIKE.PT_CMD.OP, op), (DIKE.PT_STATUS.INDEX, i)]

@[simp] theorem State.die_ptReady (s : State) (d : Die) (op i : Nat) (e : Die) : (s.ptReady d op i).die e = s.die e := State.die_wrs ..

theorem State.ptReady_wf (hw : tblWf s.regs = true) : tblWf (s.ptReady d op i).regs = true := s.wrs_wf d _ hw

/-- The arguments of a command stand when it acts. -/
theorem State.rd_ptReady (hw : tblWf s.regs = true) (hg : ([DIKE.PT_CMD.OP, DIKE.PT_STATUS.INDEX].all g.apart) = true := by rfl) :
    (s.ptReady d op i).rd d g = s.rd d g := State.rd_wrs_other hw hg

theorem State.rd_op (hw : tblWf s.regs = true) (hg : g.apart DIKE.PT_CMD.OP = true := by rfl) :
    (s.wr d DIKE.PT_CMD.OP op).rd d g = s.rd d g := State.rd_wr_other _ _ hw (Fld.apart.fkey_ne hg d)

theorem State.ptPolder_op (hw : tblWf s.regs = true) : (s.wr d DIKE.PT_CMD.OP op).ptPolder d = s.ptPolder d := State.rd_op hw

/-- The fields of FN_POLDER stand above those of the PT registers. -/
theorem State.rd_wrs_fnPolder {l : List (Fld × Nat)} (hw : tblWf s.regs = true)
    (hl : (l.all (fun p => decide (p.1.off < 0x210000 ∧ p.1.lo < 64))) = true) (hg : 0x210000 ≤ g.off)
    (hlo : decide (g.lo < 64) = true := by rfl) : (s.wrs d l).rd d g = s.rd d g := by
  have hlo := of_decide_eq_true hlo
  refine State.rd_wrs_other hw (List.all_eq_true.mpr fun p hp => ?_)
  obtain ⟨hoff, hplo⟩ := of_decide_eq_true (List.all_eq_true.mp hl p hp)
  simp only [Fld.apart, Bool.and_eq_true, Bool.or_eq_true, bne_iff_ne, decide_eq_true_eq]
  omega

theorem fnIdx_above (f : Fn) : 0x210000 ≤ 0x210000 + 0x8 * fnIdx f := Nat.le_add_right ..

theorem State.rd_ptReady_fn (hw : tblWf s.regs = true) (hg : 0x210000 ≤ g.off) (hlo : decide (g.lo < 64) = true := by rfl) :
    (s.ptReady d op i).rd d g = s.rd d g := State.rd_wrs_fnPolder hw rfl hg hlo

theorem State.polderOf_ptReady (hw : tblWf s.regs = true) (hf : fnDie f = d) : (s.ptReady d op i).polderOf f = s.polderOf f := by
  subst hf
  have warden : (s.ptReady (fnDie f) op i).rd (fnDie f) (DIKE.FN_POLDER.WARDEN (fnIdx f)) = _ := State.rd_ptReady_fn hw (fnIdx_above f)
  have bound : (s.ptReady (fnDie f) op i).rd (fnDie f) (DIKE.FN_POLDER.BOUND (fnIdx f)) = _ := State.rd_ptReady_fn hw (fnIdx_above f)
  have polder : (s.ptReady (fnDie f) op i).rd (fnDie f) (DIKE.FN_POLDER.POLDER (fnIdx f)) = _ := State.rd_ptReady_fn hw (fnIdx_above f)
  have isWarden : (s.ptReady (fnDie f) op i).isWarden f = s.isWarden f := congrArg (· == 1) warden
  have isBound : (s.ptReady (fnDie f) op i).on (fnDie f) (DIKE.FN_POLDER.BOUND (fnIdx f)) = s.on _ _ := congrArg (· == 1) bound
  simp only [State.polderOf, isWarden, isBound, polder]

/-- The conditions of SET_WINDOW look at the part and at the tables of both dies. -/
theorem State.windowRange_ptReady (w : Window) : (s.ptReady d op i).windowRange w = s.windowRange w := rfl
theorem State.windowOverlap_ptReady (w : Window) : (s.ptReady d op i).windowOverlap id w = s.windowOverlap id w := by
  simp only [State.windowOverlap, State.die_ptReady]

theorem State.writesIn_ptReady (s : State) (d : Die) (op i : Nat) (l : List (Die × Fld)) :
    s.writesIn (keysOf (ptFields d ++ l)) (s.ptReady d op i) :=
  s.writesIn_wrs (by simp [keysOf, ptFields])

/-! ## After the action -/

@[simp] theorem State.die_ptEnd (s : State) (d : Die) (code detail : Nat) (e : Die) : (s.ptEnd d code detail).die e = s.die e :=
  State.die_wrs ..

/-- What PT_STATUS shows once a command has ended. -/
theorem State.rd_ptEnd (hw : tblWf u.regs = true) (code detail : Nat) : (u.ptEnd d code detail).rd d DIKE.PT_STATUS.DONE = 1 ∧
    (u.ptEnd d code detail).rd d DIKE.PT_STATUS.CODE = code % 2 ^ 8 ∧
    (u.ptEnd d code detail).rd d DIKE.PT_STATUS.DETAIL = detail % 2 ^ 8 := by
  unfold State.ptEnd
  exact ⟨State.rd_wrs 1 hw, State.rd_wrs 2 hw, State.rd_wrs 3 hw⟩

/-- A command of die `d` has ended with OK, and the other die's table is as it was. -/
def State.ptEnded (s : State) (d : Die) (t : State) : Prop :=
  t.rd d DIKE.PT_STATUS.DONE = 1 ∧ t.rd d DIKE.PT_STATUS.CODE = 0 ∧ t.rd d DIKE.PT_STATUS.DETAIL = 0 ∧
    (t.die d.other).polders = (s.die d.other).polders

theorem State.ptEnded_ptEnd (hw : tblWf u.regs = true) (h : (u.die d.other).polders = (s.die d.other).polders) :
    s.ptEnded d (u.ptEnd d stOK 0) := by
  obtain ⟨hdone, hcode, hdetail⟩ := State.rd_ptEnd (d := d) hw stOK 0
  exact ⟨hdone, hcode, hdetail, h⟩

theorem State.writesIn_ptEnd (u : State) (d : Die) (code detail : Nat) (l : List (Die × Fld)) :
    u.writesIn (keysOf (ptFields d ++ l)) (u.ptEnd d code detail) :=
  u.writesIn_wrs (by simp [keysOf, ptFields])

/-- A command whose action writes only what `l` adds to the fields of every PT command. -/
theorem State.ptEnd_onlyFields {l : List (Die × Fld)} (hw : tblWf s.regs = true)
    (hu : (s.ptReady d op i).writesIn (keysOf (ptFields d ++ l)) u) : onlyFields (ptFields d ++ l) s (u.ptEnd d stOK 0) :=
  (((s.writesIn_ptReady d op i l).trans hu).trans (u.writesIn_ptEnd d stOK 0 l)).onlyFields hw

/-! ## The command -/

section
variable (hrq : s.warden rq) (hb : s.rd d DIKE.PT_STATUS.BUSY = 0)
include hrq hb

theorem State.ptCommand_ok (h : act (s.wr d DIKE.PT_CMD.OP op) = .ok u) : s.ptCommand rq d op act = u.ptEnd d stOK 0 := by
  obtain ⟨hbar, hpriv⟩ := hrq
  simp [State.ptCommand, State.on, hbar, hpriv, hb, h]

theorem State.ptCommand_error {code detail : Nat} (h : act (s.wr d DIKE.PT_CMD.OP op) = .error (code, detail)) :
    s.ptCommand rq d op act = (s.wr d DIKE.PT_CMD.OP op).ptEnd d code detail := by
  obtain ⟨hbar, hpriv⟩ := hrq
  simp [State.ptCommand, State.on, hbar, hpriv, hb, h]

end

theorem State.ptResident_some (hw : tblWf s.regs = true) (hid : s.ptPolder d ≠ 0) (h : s.polder? d (s.ptPolder d) = some (i, p))
    (act : Nat → Polder → State → Except (Nat × Nat) State) :
    (s.wr d DIKE.PT_CMD.OP op).ptResident d act = act i p (s.ptReady d op i) := by
  have found : (s.wr d DIKE.PT_CMD.OP op).polder? d (s.ptPolder d) = some (i, p) := h
  simp only [State.ptResident, ptNamed, State.ptPolder_op hw, if_neg hid, found]
  rfl

section
variable (hw : tblWf s.regs = true) (hrq : s.warden rq) (hb : s.rd d DIKE.PT_STATUS.BUSY = 0) (hid : s.ptPolder d ≠ 0)
  (h : s.polder? d (s.ptPolder d) = some (i, p))
include hw hrq hb hid h

/-- A command on a resident polder whose action ends well, in `u`. -/
theorem Runs.pt_resident {act : Nat → Polder → State → Except (Nat × Nat) State}
    (run : exec c s = .next (s.ptCommand rq d op (fun s => s.ptResident d act))) (hu : act i p (s.ptReady d op i) = .ok u)
    (hQ : Q (u.ptEnd d stOK 0)) : Runs c s Q := by
  rw [State.ptCommand_ok hrq hb ((State.ptResident_some hw hid h act).trans hu)] at run
  exact .of_next run hQ

end

/-! ## Polder tables -/

theorem State.polders_setPolder (s : State) (d : Die) (i : Nat) (p : Polder) :
    ((s.setPolder d i p).die d).polders = tput (s.die d).polders i p := by simp [State.setPolder]

@[simp] theorem State.die_setPolder_other (s : State) (d : Die) (i : Nat) (p : Polder) :
    (s.setPolder d i p).die d.other = s.die d.other := by simp [State.setPolder]

/-- The register table has its form, and the polder tables of both dies are those of `u`. -/
def State.tablesOf (u t : State) : Prop := tblWf t.regs = true ∧ ∀ d, (t.die d).polders = (u.die d).polders

theorem State.tablesOf_closed (u : State) : Closed (· == .polders) u.tablesOf where
  wr _ t d f v h := ⟨State.wr_wf t d f v h.1, h.2⟩
  store _ _ _ _ _ h := h
  drop _ _ _ h := ⟨filter_wf _ h.1, h.2⟩
  cold _ _ _ h := ⟨rfl, h.2⟩
  other s t _ _ _ _ _ hregs _ _ hsame h := by
    obtain ⟨⟨ha, -⟩, hb, -⟩ := hsame .polders rfl
    refine ⟨hregs ▸ h.1, fun d => Eq.trans ?_ (h.2 d)⟩
    cases d
    · exact ha
    · exact hb

theorem State.tablesOf_refl (hw : tblWf u.regs = true) : u.tablesOf u := ⟨hw, fun _ => rfl⟩

theorem State.tablesOf.wr (h : u.tablesOf t) (d : Die) (f : Fld) (v : Nat) : u.tablesOf (t.wr d f v) := u.tablesOf_closed.wr rfl t d f v h

theorem State.tablesOf.resetEntry (h : u.tablesOf t) (d : Die) (i : Nat) : u.tablesOf (t.resetEntry d i) :=
  (State.resetEntry_keeps t d i ⟨u.tablesOf_closed, h⟩ rfl rfl).holds

theorem State.tablesOf.polderQueuesFail (h : u.tablesOf t) (id : Nat) : u.tablesOf (t.polderQueuesFail id) :=
  (State.polderQueuesFail_keeps t id ⟨u.tablesOf_closed, h⟩ rfl rfl rfl rfl).holds

/-! ## REGISTER and DEREGISTER (R103, R104, R118) -/

theorem bitsOf_zero (n w : Nat) : bitsOf n 0 w = n % 2 ^ w := by simp [bitsOf]

/-- The entry that REGISTER makes. -/
def newPolder (id arg seed : Nat) : Polder :=
  { id := id, closed := false, bound := [], holdTimeout := arg % 1024, weight := arg / 65536 % 256, windows := [], seed := seed }

/-- What the action of REGISTER leaves, for a free entry. -/
def State.registered (s : State) (d : Die) (i : Nat) (p : Polder) : State :=
  (({ s with free := s.free + 1 }.setPolder d i p).resetEntry d (i + 1)).wr d DIKE.PT_STATUS.INDEX i

theorem State.tables_registered (hw : tblWf s.regs = true) (d : Die) (i : Nat) (p : Polder) :
    (s.setPolder d i p).tablesOf (s.registered d i p) := by
  have drawn : (s.setPolder d i p).tablesOf ({ s with free := s.free + 1 }.setPolder d i p) := ⟨hw, fun _ => rfl⟩
  exact (drawn.resetEntry d (i + 1)).wr d _ i

section
variable (hw : tblWf s.regs = true) (hid : s.ptPolder d ≠ 0) (hnew : s.polder? d (s.ptPolder d) = none)
include hw hid hnew

theorem State.ptRegisterAct_full (hfree : freeKey (s.die d).polders (s.rd d DIKE.PT_CAPACITY.ENTRIES) 0 = none) (op : Nat) :
    State.ptRegisterAct d (s.wr d DIKE.PT_CMD.OP op) = .error (stTABLE_FULL, ptTABLE_FULL) := by
  have absent : (s.wr d DIKE.PT_CMD.OP op).polder? d (s.ptPolder d) = none := hnew
  simp [State.ptRegisterAct, ptNamed, State.ptPolder_op hw, hid, absent,
    State.rd_op (g := DIKE.PT_CAPACITY.ENTRIES) hw, hfree]

theorem State.ptRegisterAct_ok (hfree : freeKey (s.die d).polders (s.rd d DIKE.PT_CAPACITY.ENTRIES) 0 = some i)
    (harg : attrOk (s.rd d DIKE.PT_ARG0.ARG) = true) (op : Nat) : State.ptRegisterAct d (s.wr d DIKE.PT_CMD.OP op) =
      .ok ((s.wr d DIKE.PT_CMD.OP op).registered d i (newPolder (s.ptPolder d) (s.rd d DIKE.PT_ARG0.ARG) (Config.freeNat s.free))) := by
  have absent : (s.wr d DIKE.PT_CMD.OP op).polder? d (s.ptPolder d) = none := hnew
  simp only [State.ptRegisterAct, ptNamed, State.ptPolder_op hw, if_neg hid, absent, State.rd_op (g := DIKE.PT_ARG0.ARG) hw,
    State.rd_op (g := DIKE.PT_CAPACITY.ENTRIES) hw, State.die_wr, hfree, harg, bitsOf_zero,
    Option.isSome_none, Bool.not_true, Bool.false_eq_true, if_false]
  rfl

end

section
variable (hw : tblWf s.regs = true) (hrq : s.warden rq) (hb : s.rd d DIKE.PT_STATUS.BUSY = 0) (hid : s.ptPolder d ≠ 0)
include hw hrq hb hid

theorem Runs.ptRegister_ok (hnew : s.polder? d (s.ptPolder d) = none)
    (hfree : freeKey (s.die d).polders (s.rd d DIKE.PT_CAPACITY.ENTRIES) 0 = some i) (harg : attrOk (s.rd d DIKE.PT_ARG0.ARG) = true) :
    Runs (.ptRegister rq d) s (fun t => s.ptEnded d t ∧
      ∃ seed, (t.die d).polders = tput (s.die d).polders i (newPolder (s.ptPolder d) (s.rd d DIKE.PT_ARG0.ARG) seed)) := by
  have acts := State.ptRegisterAct_ok hw hid hnew hfree harg 1
  obtain ⟨hwf, htables⟩ := State.tables_registered (s.wr_wf d DIKE.PT_CMD.OP 1 hw) d i
    (newPolder (s.ptPolder d) (s.rd d DIKE.PT_ARG0.ARG) (Config.freeNat s.free))
  refine .of_next (congrArg Host.Outcome.next (State.ptCommand_ok hrq hb acts)) ⟨State.ptEnded_ptEnd hwf ?_, Config.freeNat s.free, ?_⟩
  · rw [htables, State.die_setPolder_other, State.die_wr]
  · rw [State.die_ptEnd, htables, State.polders_setPolder, State.die_wr]

theorem Runs.ptRegister_full (hnew : s.polder? d (s.ptPolder d) = none)
    (hfree : freeKey (s.die d).polders (s.rd d DIKE.PT_CAPACITY.ENTRIES) 0 = none) : Runs (.ptRegister rq d) s (fun t =>
      t.rd d DIKE.PT_STATUS.DONE = 1 ∧ t.rd d DIKE.PT_STATUS.CODE = 0x51 ∧ t.rd d DIKE.PT_STATUS.DETAIL = 0x0B ∧ t.dies = s.dies) := by
  have acts := State.ptRegisterAct_full hw hid hnew hfree 1
  obtain ⟨hdone, hcode, hdetail⟩ := State.rd_ptEnd (d := d) (s.wr_wf d DIKE.PT_CMD.OP 1 hw) stTABLE_FULL ptTABLE_FULL
  exact .of_next (congrArg Host.Outcome.next (State.ptCommand_error hrq hb acts)) ⟨hdone, hcode, hdetail, State.wrs_dies ..⟩

variable (h : s.polder? d (s.ptPolder d) = some (i, p))
include h

theorem Runs.ptDeregister_ok (hbound : p.bound = []) : Runs (.ptDeregister rq d) s (fun t =>
    s.ptEnded d t ∧ (t.die d).polders = tdel (s.die d).polders i) := by
  have wf : tblWf (s.ptReady d 2 i).regs = true := State.ptReady_wf hw
  obtain ⟨hwf, htables⟩ := (State.tablesOf_refl (u := (s.ptReady d 2 i).modDie d (fun x => { x with polders := tdel x.polders i }))
    wf).resetEntry d (i + 1)
  refine Runs.pt_resident (op := 2) hw hrq hb hid h rfl (if_neg (by simp [hbound])) ⟨State.ptEnded_ptEnd hwf ?_, ?_⟩
  · rw [htables, State.die_modDie_other, State.die_ptReady]
  · rw [State.die_ptEnd, htables, State.die_modDie_same, State.die_ptReady]

/-! ## SET_ATTR, SET_WINDOW and READ (R104, R110, R118) -/

/-- A command whose action is to give the polder's entry another content. -/
theorem Runs.pt_setPolder {act : Nat → Polder → State → Except (Nat × Nat) State} {p' : Polder}
    (run : exec c s = .next (s.ptCommand rq d op (fun s => s.ptResident d act)))
    (hu : act i p (s.ptReady d op i) = .ok ((s.ptReady d op i).setPolder d i p')) : Runs c s (fun t =>
      s.ptEnded d t ∧ (t.die d).polders = tput (s.die d).polders i p' ∧ onlyFields (ptFields d) s t) := by
  have wf : tblWf (s.ptReady d op i).regs = true := State.ptReady_wf hw
  refine Runs.pt_resident hw hrq hb hid h run hu ⟨State.ptEnded_ptEnd (u := (s.ptReady d op i).setPolder d i p') wf ?_, ?_, ?_⟩
  · rw [State.die_setPolder_other, State.die_ptReady]
  · rw [State.die_ptEnd, State.polders_setPolder, State.die_ptReady]
  · exact State.ptEnd_onlyFields (l := []) hw (State.writesIn_of_regs rfl)

theorem Runs.ptSetAttr_ok (harg : attrOk (s.rd d DIKE.PT_ARG0.ARG) = true) : Runs (.ptSetAttr rq d) s (fun t =>
    s.ptEnded d t ∧ (t.die d).polders = tput (s.die d).polders i
      { p with holdTimeout := s.rd d DIKE.PT_ARG0.ARG % 1024, weight := s.rd d DIKE.PT_ARG0.ARG / 65536 % 256 } ∧
    onlyFields (ptFields d) s t) := by
  refine Runs.pt_setPolder (op := 8) hw hrq hb hid h rfl ?_
  dsimp only
  rw [State.rd_ptReady hw, if_neg (by simp [harg]), bitsOf_zero]
  rfl

theorem Runs.ptSetWindow_ok (hself : p.id = s.ptPolder d)
    (hrange : s.windowRange (argWindow (s.rd d DIKE.PT_ARG0.ARG) (s.rd d DIKE.PT_ARG1.ARG)) = true)
    (hoverlap : s.windowOverlap (s.ptPolder d) (argWindow (s.rd d DIKE.PT_ARG0.ARG) (s.rd d DIKE.PT_ARG1.ARG)) = false) :
    Runs (.ptSetWindow rq d) s (fun t => s.ptEnded d t ∧ (t.die d).polders = tput (s.die d).polders i
        { p with windows := tput p.windows (s.rd d DIKE.PT_ARG0.ARG % 8) (argWindow (s.rd d DIKE.PT_ARG0.ARG) (s.rd d DIKE.PT_ARG1.ARG)) } ∧
      onlyFields (ptFields d) s t) := by
  refine Runs.pt_setPolder (op := 7) hw hrq hb hid h rfl ?_
  dsimp only
  rw [State.rd_ptReady (g := DIKE.PT_ARG0.ARG) hw, State.rd_ptReady (g := DIKE.PT_ARG1.ARG) hw, State.windowRange_ptReady,
    State.windowOverlap_ptReady, hself, if_neg (by simp [hrange]), if_neg (by simp [hoverlap]), bitsOf_zero]
  rfl

theorem Runs.ptRead_ok (hsel : s.rd d DIKE.PT_ARG0.ARG % 16 ≤ 8) : Runs (.ptRead rq d) s (fun t =>
    s.ptEnded d t ∧ (t.die d).polders = (s.die d).polders ∧
    t.rd d DIKE.PT_RESULT0.DATA = (readResult p (s.rd d DIKE.PT_ARG0.ARG % 16)).1 % 2 ^ 32 ∧
    t.rd d DIKE.PT_RESULT1.DATA = (readResult p (s.rd d DIKE.PT_ARG0.ARG % 16)).2 % 2 ^ 32 ∧
    onlyFields (ptFields d ++ [(d, DIKE.PT_RESULT0.DATA), (d, DIKE.PT_RESULT1.DATA)]) s t) := by
  have wf : tblWf (s.ptReady d 9 i).regs = true := State.ptReady_wf hw
  generalize hr : readResult p (s.rd d DIKE.PT_ARG0.ARG % 16) = r
  have wf' := (s.ptReady d 9 i).wrs_wf d [(DIKE.PT_RESULT0.DATA, r.1), (DIKE.PT_RESULT1.DATA, r.2)] wf
  refine Runs.pt_resident (op := 9) (u := (s.ptReady d 9 i).wrs d [(DIKE.PT_RESULT0.DATA, r.1), (DIKE.PT_RESULT1.DATA, r.2)])
    hw hrq hb hid h rfl ?_ ⟨State.ptEnded_ptEnd wf' ?_, ?_, ?_, ?_, ?_⟩
  · have sel : bitsOf (s.rd d DIKE.PT_ARG0.ARG) 0 4 = s.rd d DIKE.PT_ARG0.ARG % 16 := bitsOf_zero ..
    dsimp only
    rw [State.rd_ptReady hw, sel, if_neg (Nat.not_lt.mpr hsel), hr]
  · rw [State.die_wrs, State.die_ptReady]
  · rw [State.die_ptEnd, State.die_wrs, State.die_ptReady]
  · exact (State.rd_wrs_other wf').trans (State.rd_wrs 0 wf)
  · exact (State.rd_wrs_other wf').trans (State.rd_wrs 1 wf)
  · exact State.ptEnd_onlyFields hw (State.writesIn_wrs _ (by simp [keysOf, ptFields]))

end

/-- Settles O19: each command acts in a state that differs from `s` in PT_CMD and PT_STATUS alone, so it finds the entry and the arguments
of `s`; its end writes PT_STATUS and moves no entry. -/
theorem polderTableCommands : Obligations.PolderTableCommands := by
  rintro s rq d ⟨hw, -⟩ hrq hb hid
  exact ⟨fun _ => Runs.ptRegister_ok hw hrq hb hid, Runs.ptRegister_full hw hrq hb hid, fun _ _ => Runs.ptDeregister_ok hw hrq hb hid,
    fun _ _ => Runs.ptSetAttr_ok hw hrq hb hid, fun _ _ => Runs.ptSetWindow_ok hw hrq hb hid, fun _ _ => Runs.ptRead_ok hw hrq hb hid⟩

end Sys2Proof.Machine
end

section
/-! BIND and UNBIND, CLOSE and OPEN (O20): a function joins or leaves a polder (04_polders.md R101, R118, R119), and a polder is closed and
opened wherever it is resident (R113 to R116). -/

set_option Elab.async false

namespace Sys2Proof.Machine

variable {s t u : State} {rq : Requester} {d e : Die} {op i id : Nat} {p : Polder} {f : Fn} {c : Bool}

/-! ## CLOSE and OPEN -/

/-- The state of a polder changes on one die, if it is resident there. -/
def State.setClosedOn (s : State) (id : Nat) (c : Bool) (d : Die) : State :=
  match s.polder? d id with
  | some (i, p) => s.setPolder d i { p with closed := c }
  | none => s

theorem State.setClosed_eq (s : State) (id : Nat) (c : Bool) : s.setClosed id c = (s.setClosedOn id c .a).setClosedOn id c .b := rfl

theorem State.setClosedOn_dies (s : State) (id : Nat) (c : Bool) (d : Die) :
    s.setClosedOn id c d = { s with dies := (s.setClosedOn id c d).dies } := by
  unfold State.setClosedOn
  split <;> rfl

theorem State.setClosed_dies (s : State) (id : Nat) (c : Bool) : s.setClosed id c = { s with dies := (s.setClosed id c).dies } := by
  rw [State.setClosed_eq, State.setClosedOn_dies, s.setClosedOn_dies]

theorem State.die_setClosedOn_other (s : State) (id : Nat) (c : Bool) (d : Die) : (s.setClosedOn id c d).die d.other = s.die d.other := by
  unfold State.setClosedOn
  split
  · exact State.die_setPolder_other ..
  · rfl

theorem State.polders_setClosedOn (h : s.polder? d id = some (i, p)) (c : Bool) :
    ((s.setClosedOn id c d).die d).polders = tput (s.die d).polders i { p with closed := c } := by
  simp only [State.setClosedOn, h]
  exact State.polders_setPolder ..

theorem State.polders_setClosed (h : s.polder? d id = some (i, p)) (c : Bool) :
    ((s.setClosed id c).die d).polders = tput (s.die d).polders i { p with closed := c } := by
  rw [State.setClosed_eq]
  cases d with
  | a =>
    have kept : ((s.setClosedOn id c .a).setClosedOn id c .b).die .a = (s.setClosedOn id c .a).die .a :=
      State.die_setClosedOn_other _ _ _ .b
    rw [kept, State.polders_setClosedOn h]
  | b =>
    have kept : (s.setClosedOn id c .a).die .b = s.die .b := s.die_setClosedOn_other id c .a
    rw [State.polders_setClosedOn (i := i) (p := p) (by rw [State.polder?, kept]; exact h), kept]

theorem State.setClosed_regs (s : State) (id : Nat) (c : Bool) : (s.setClosed id c).regs = s.regs := by rw [State.setClosed_dies]

theorem State.setClosed_queues (s : State) (id : Nat) (c : Bool) : (s.setClosed id c).queues = s.queues := by rw [State.setClosed_dies]

/-- Where a polder is resident, its entry is closed, and no later part of CLOSE moves it. -/
theorem State.tables_closePolder (hw : tblWf s.regs = true) (id : Nat) : (s.setClosed id true).tablesOf (s.closePolder id) :=
  (State.tablesOf_refl ((s.setClosed_regs id true).symm ▸ hw)).polderQueuesFail id

/-- CLOSE and OPEN through the PT registers act in a state with the tables and the queues of `s`, and end with OK. -/
theorem State.ptOpenClose_resident (hw : tblWf s.regs = true) (hrq : s.warden rq) (hb : s.rd d DIKE.PT_STATUS.BUSY = 0)
    (hid : s.ptPolder d ≠ 0) (hr : s.residentAny (s.ptPolder d) = true) (op : Nat) (act : Nat → State → State) :
    ∃ u, u.dies = s.dies ∧ u.queues = s.queues ∧ tblWf u.regs = true ∧
      s.ptOpenClose (.pt rq d) op act = (act (s.ptPolder d) u).ptEnd d stOK 0 := by
  have found (id : Nat) : (s.wr d DIKE.PT_CMD.OP op).polder? d id = s.polder? d id := rfl
  have resident : (s.wr d DIKE.PT_CMD.OP op).residentAny (s.ptPolder d) = true := hr
  have wf := s.wr_wf d DIKE.PT_CMD.OP op hw
  cases h : s.polder? d (s.ptPolder d) with
  | none =>
    refine ⟨s.wr d DIKE.PT_CMD.OP op, s.wr_dies .., s.wr_queues .., wf, ?_⟩
    rw [State.ptOpenClose]
    refine State.ptCommand_ok hrq hb ?_
    rw [State.ptPolder_op hw, ptNamed, if_neg hid, resident, found, h]
    rfl
  | some x =>
    refine ⟨s.ptReady d op x.1, s.wrs_dies .., s.wrs_queues .., State.ptReady_wf hw, ?_⟩
    rw [State.ptOpenClose]
    refine State.ptCommand_ok hrq hb ?_
    rw [State.ptPolder_op hw, ptNamed, if_neg hid, resident, found, h]
    rfl

/-- CLOSE and OPEN on the SVC's own path (R116). -/
theorem State.ptOpenClose_svc {n : BitVec 20} (hn : n ≠ 0) (hr : s.residentAny n.toNat = true) (op : Nat)
    (act : Nat → State → State) : s.ptOpenClose (.svc n) op act = act n.toNat s :=
  if_pos (by rw [hr, Bool.true_and, bne_iff_ne]; exact hn)

theorem State.polder?_of_dies (h : u.dies = s.dies) (d : Die) (id : Nat) : u.polder? d id = s.polder? d id := by
  simp only [State.polder?, State.die, h]

/-- The polder's state is `c` in the table of every die where it is resident. -/
def State.closedAs (s : State) (id : Nat) (c : Bool) (t : State) : Prop :=
  ∀ e i p, s.polder? e id = some (i, p) → (t.die e).polders = tput (s.die e).polders i { p with closed := c }

theorem State.closedAs_setClosed (s : State) (id : Nat) (c : Bool) : s.closedAs id c (s.setClosed id c) :=
  fun _ _ _ h => State.polders_setClosed h c

theorem State.closedAs_closePolder (hw : tblWf s.regs = true) (id : Nat) : s.closedAs id true (s.closePolder id) :=
  fun e _ _ h => ((State.tables_closePolder hw id).2 e).trans (State.polders_setClosed h true)

theorem State.closedAs.of_dies (h : u.closedAs id c t) (hd : u.dies = s.dies) : s.closedAs id c t := by
  intro e i p hp
  have := h e i p ((State.polder?_of_dies hd e id).trans hp)
  rwa [show u.die e = s.die e from congrArg (Pair.get · e) hd] at this

theorem State.closedAs.ptEnd (h : s.closedAs id c t) (d : Die) (code detail : Nat) : s.closedAs id c (t.ptEnd d code detail) := by
  intro e i p hp
  rw [State.die_ptEnd]
  exact h e i p hp

section
variable (hw : tblWf s.regs = true)
include hw

theorem Runs.ptClose_svc {n : BitVec 20} (hn : n ≠ 0) (hr : s.residentAny n.toNat = true) :
    Runs (.ptClose (.svc n)) s (s.closedAs n.toNat true) :=
  .of_next (congrArg Host.Outcome.next (State.ptOpenClose_svc hn hr ..)) (State.closedAs_closePolder hw _)

theorem Runs.ptOpen_svc {n : BitVec 20} (hn : n ≠ 0) (hr : s.residentAny n.toNat = true) :
    Runs (.ptOpen (.svc n)) s (fun t => s.closedAs n.toNat false t ∧ onlyFields [] s t) :=
  .of_next (congrArg Host.Outcome.next (State.ptOpenClose_svc hn hr ..))
    ⟨s.closedAs_setClosed _ _, (State.writesIn_of_regs (s.setClosed_regs _ _)).onlyFields hw⟩

variable (hrq : s.warden rq) (hb : s.rd d DIKE.PT_STATUS.BUSY = 0) (hid : s.ptPolder d ≠ 0)
include hrq hb hid

theorem Runs.ptClose_pt (hr : s.residentAny (s.ptPolder d) = true) : Runs (.ptClose (.pt rq d)) s (fun t =>
    (t.rd d DIKE.PT_STATUS.DONE = 1 ∧ t.rd d DIKE.PT_STATUS.CODE = 0) ∧ s.closedAs (s.ptPolder d) true t) := by
  obtain ⟨u, hdies, -, hu, run⟩ := State.ptOpenClose_resident hw hrq hb hid hr 3 (fun id s => s.closePolder id)
  obtain ⟨hdone, hcode, -⟩ := State.rd_ptEnd (d := d) (State.tables_closePolder hu (s.ptPolder d)).1 stOK 0
  exact .of_next (congrArg Host.Outcome.next run) ⟨⟨hdone, hcode⟩, ((State.closedAs_closePolder hu _).of_dies hdies).ptEnd _ _ _⟩

theorem Runs.ptOpen_pt (hr : s.residentAny (s.ptPolder d) = true) : Runs (.ptOpen (.pt rq d)) s (fun t =>
    (t.rd d DIKE.PT_STATUS.DONE = 1 ∧ t.rd d DIKE.PT_STATUS.CODE = 0) ∧ t.queues = s.queues ∧ s.closedAs (s.ptPolder d) false t) := by
  obtain ⟨u, hdies, hqueues, hu, run⟩ := State.ptOpenClose_resident hw hrq hb hid hr 4 (fun id s => s.setClosed id false)
  have wf : tblWf (u.setClosed (s.ptPolder d) false).regs = true := (u.setClosed_regs ..).symm ▸ hu
  obtain ⟨hdone, hcode, -⟩ := State.rd_ptEnd (d := d) wf stOK 0
  exact .of_next (congrArg Host.Outcome.next run)
    ⟨⟨hdone, hcode⟩, (State.wrs_queues ..).trans ((u.setClosed_queues ..).trans hqueues),
      ((u.closedAs_setClosed _ _).of_dies hdies).ptEnd _ _ _⟩

end

/-! ## BIND and UNBIND -/

/-- The binding of a function. -/
def bindingFields (d : Die) (f : Fn) : List (Die × Fld) := [(d, DIKE.FN_POLDER.POLDER (fnIdx f)), (d, DIKE.FN_POLDER.BOUND (fnIdx f))]

/-- The polder's entry and the registers of a function's binding are written. -/
def State.setBinding (s : State) (d : Die) (i : Nat) (p : Polder) (f : Fn) (polder bound : Nat) : State :=
  (s.setPolder d i p).wrs d [(DIKE.FN_POLDER.POLDER (fnIdx f), polder), (DIKE.FN_POLDER.BOUND (fnIdx f), bound)]

theorem keysOf_append_right {l l' : List (Die × Fld)} (k : Nat) : keysOf l' k → keysOf (l ++ l') k :=
  fun ⟨p, hp, e⟩ => ⟨p, List.mem_append_right _ hp, e⟩

/-- What a command that wrote a binding leaves. -/
theorem State.ptEnd_setBinding (hw : tblWf s.regs = true) (op i : Nat) (p : Polder) (f : Fn) (polder bound : Nat) {t : State}
    (ht : ((s.ptReady d op i).setBinding d i p f polder bound).ptEnd d stOK 0 = t) :
    (t.rd d DIKE.PT_STATUS.DONE = 1 ∧ t.rd d DIKE.PT_STATUS.CODE = 0) ∧ t.rd d (DIKE.FN_POLDER.POLDER (fnIdx f)) = polder % 2 ^ 20 ∧
      t.rd d (DIKE.FN_POLDER.BOUND (fnIdx f)) = bound % 2 ^ 1 ∧ (t.die d).polders = tput (s.die d).polders i p ∧
      onlyFields (ptFields d ++ bindingFields d f) s t := by
  have ready : tblWf (s.ptReady d op i).regs = true := State.ptReady_wf hw
  have wf : tblWf ((s.ptReady d op i).setBinding d i p f polder bound).regs = true := State.wrs_wf _ d _ ready
  have apart : (DIKE.FN_POLDER.POLDER (fnIdx f)).apart (DIKE.FN_POLDER.BOUND (fnIdx f)) = true := by
    simp [Fld.apart, DIKE.FN_POLDER.POLDER, DIKE.FN_POLDER.BOUND]
  have kept {g : Fld} (hg : 0x210000 ≤ g.off) (hlo : decide (g.lo < 64) = true := by rfl) :
      t.rd d g = ((s.ptReady d op i).setBinding d i p f polder bound).rd d g := ht ▸ State.rd_wrs_fnPolder wf rfl hg hlo
  have writes : (s.ptReady d op i).writesIn (keysOf (ptFields d ++ bindingFields d f))
      ((s.ptReady d op i).setBinding d i p f polder bound) :=
    State.writesIn.of_left (t := (s.ptReady d op i).setPolder d i p)
      ((State.writesIn_wrs (W := keysOf (bindingFields d f)) _ (by simp [keysOf, bindingFields])).mono keysOf_append_right)
  obtain ⟨hdone, hcode, -⟩ := State.rd_ptEnd (d := d) wf stOK 0
  refine ⟨ht ▸ ⟨hdone, hcode⟩, (kept (fnIdx_above f)).trans ?_, (kept (fnIdx_above f)).trans ?_, ?_,
    ht ▸ State.ptEnd_onlyFields hw writes⟩
  · exact State.rd_wrs (s := (s.ptReady d op i).setPolder d i p) 0 ready (hl := by simp [apart])
  · exact State.rd_wrs (s := (s.ptReady d op i).setPolder d i p) 1 ready
  · rw [← ht, State.die_ptEnd, State.setBinding, State.die_wrs, State.polders_setPolder, State.die_ptReady]

section
variable (hw : tblWf s.regs = true) (hrq : s.warden rq) (hb : s.rd d DIKE.PT_STATUS.BUSY = 0) (hid : s.ptPolder d ≠ 0)
  (h : s.polder? d (s.ptPolder d) = some (i, p)) (hf : argFn (s.rd d DIKE.PT_ARG0.ARG) = f) (hd : fnDie f = d)
include hw hrq hb hid h hf hd

theorem Runs.ptBind_ok (hself : p.id = s.ptPolder d) (hp : s.hpPresent f.hp.val = true) (he : s.fnEnabled f = true)
    (hn : s.polderOf f = none) : Runs (.ptBind rq d) s (fun t => (t.rd d DIKE.PT_STATUS.DONE = 1 ∧ t.rd d DIKE.PT_STATUS.CODE = 0) ∧
      t.rd d (DIKE.FN_POLDER.POLDER (fnIdx f)) = s.ptPolder d % 2 ^ 20 ∧ t.rd d (DIKE.FN_POLDER.BOUND (fnIdx f)) = 1 ∧
      (t.die d).polders = tput (s.die d).polders i { p with bound := setInsert p.bound (fnIdx f) } ∧
      onlyFields (ptFields d ++ bindingFields d f) s t) := by
  refine Runs.pt_resident (op := 5) hw hrq hb hid h rfl ?_ (State.ptEnd_setBinding hw 5 i _ f (s.ptPolder d) 1 rfl)
  have present : (s.ptReady d 5 i).hpPresent f.hp.val = true := hp
  have enabled : (s.ptReady d 5 i).fnEnabled f = true := he
  dsimp only
  rw [State.rd_ptReady hw, hf, if_neg (not_not.mpr hd), present, enabled, State.fnTaken, State.polderOf_ptReady hw hd, hn, hself]
  rfl

theorem Runs.ptUnbind_ok (hbound : fnIdx f ∈ p.bound) (hl : s.objectsLive f = false) :
    Runs (.ptUnbind rq d) s (fun t => (t.rd d DIKE.PT_STATUS.DONE = 1 ∧ t.rd d DIKE.PT_STATUS.CODE = 0) ∧
      t.rd d (DIKE.FN_POLDER.BOUND (fnIdx f)) = 0 ∧
      (t.die d).polders = tput (s.die d).polders i { p with bound := p.bound.filter (· != fnIdx f) } ∧
      onlyFields (ptFields d ++ bindingFields d f) s t) := by
  have arg : (s.wr d DIKE.PT_CMD.OP 6).rd d DIKE.PT_ARG0.ARG = s.rd d DIKE.PT_ARG0.ARG := State.rd_wr_other _ _ hw (Fld.apart.fkey_ne rfl d)
  have found : (s.wr d DIKE.PT_CMD.OP 6).polder? d (s.ptPolder d) = some (i, p) := h
  have idle : (s.wr d DIKE.PT_CMD.OP 6).objectsLive f = false := hl
  obtain ⟨hok, -, hrest⟩ := State.ptEnd_setBinding (d := d) hw 6 i { p with bound := p.bound.filter (· != fnIdx f) } f 0 0 rfl
  refine .of_next (congrArg Host.Outcome.next (State.ptCommand_ok hrq hb ?_)) ⟨hok, hrest⟩
  dsimp only
  rw [State.ptPolder_op hw, ptNamed, if_neg hid, arg, hf]
  simp [found, hd, hbound, idle]
  rfl

end

/-- Settles O20: BIND and UNBIND write a binding in the entry and in FN_POLDER; CLOSE and OPEN go over both tables, and what CLOSE does to
the polder's queues moves no entry. -/
theorem polderBindingAndQuarantine : Obligations.PolderBindingAndQuarantine := by
  rintro s rq d ⟨hw, -⟩ hrq hb hid
  exact ⟨fun _ _ h hself hd => Runs.ptBind_ok hw hrq hb hid h rfl hd hself, fun _ _ h hd => Runs.ptUnbind_ok hw hrq hb hid h rfl hd,
    Runs.ptClose_pt hw hrq hb hid, Runs.ptOpen_pt hw hrq hb hid, fun _ => Runs.ptClose_svc hw, fun _ => Runs.ptOpen_svc hw⟩

end Sys2Proof.Machine
end

section
/-! Ranges of device memory (for O21): what reads of a range return, and what a write of one leaves when no held word of it has a waiter
(05_host_ports.md R131, R139, R146). -/

set_option Elab.async false

namespace Sys2Proof.Machine

variable {s t u : State} {a b n m y : Nat} {bs bs' : List Byte} {p : Bool}

/-! ## Reading -/

theorem length_leBytes (k n : Nat) : (leBytes k n).length = k := by
  induction k generalizing n with
  | zero => rfl
  | succ k ih => simp [leBytes, ih]

theorem State.mread_congr (h : ∀ y, a ≤ y → y < a + n → t.mbyte y = s.mbyte y) : t.mread a n = s.mread a n := by
  refine List.ext_getElem (by simp) fun i hi _ => ?_
  rw [State.getElem_mread, State.getElem_mread]
  exact h _ (Nat.le_add_right ..) (by simpa using hi)

theorem State.mread_append (s : State) (a m n : Nat) : s.mread a (m + n) = s.mread a m ++ s.mread (a + m) n := by
  induction m generalizing a with
  | zero => simp [State.mread]
  | succ m ih => rw [Nat.add_right_comm, State.mread, State.mread, ih, List.cons_append, Nat.add_assoc a 1 m, Nat.add_comm 1 m]

theorem State.mpoison_iff : s.mpoison a n = true ↔ ∃ y ∈ s.poison, a ≤ y ∧ y < a + n := by
  simp [State.mpoison]

theorem State.mpoison_append (s : State) (a m n : Nat) : s.mpoison a (m + n) = (s.mpoison a m || s.mpoison (a + m) n) := by
  rw [Bool.eq_iff_iff, Bool.or_eq_true, State.mpoison_iff, State.mpoison_iff, State.mpoison_iff]
  constructor
  · rintro ⟨y, hy, hl, hh⟩
    by_cases hm : y < a + m
    · exact .inl ⟨y, hy, hl, hm⟩
    · exact .inr ⟨y, hy, by omega, by omega⟩
  · rintro (⟨y, hy, hl, hh⟩ | ⟨y, hy, hl, hh⟩)
    · exact ⟨y, hy, hl, by omega⟩
    · exact ⟨y, hy, by omega, by omega⟩

/-! ## Storing -/

theorem mem_setInsert {l : List Nat} {x : Nat} : y ∈ setInsert l x ↔ y = x ∨ y ∈ l := by
  induction l with
  | nil => simp [setInsert]
  | cons z l ih =>
    unfold setInsert
    split
    · next h => simp [h]
    · split
      · simp
      · simp [ih, or_left_comm]

/-- The marks of a range are put into a set of them. -/
theorem mem_markRange (l : List Nat) (a n : Nat) :
    y ∈ (List.range n).foldl (fun l i => setInsert l (a + i)) l ↔ (a ≤ y ∧ y < a + n) ∨ y ∈ l := by
  induction n with
  | zero => simp
  | succ n ih =>
    simp only [List.range_succ, List.foldl_append, List.foldl_cons, List.foldl_nil, mem_setInsert, ih]
    rw [← or_assoc]
    exact or_congr_left (by omega)

/-- In `t` the bytes `bs` stand at `a`, all of them poisoned or all clean; the other bytes of memory and the outputs are those of `s`. -/
structure State.stored (s : State) (a : Nat) (bs : List Byte) (p : Bool) (t : State) : Prop where
  out : t.out = s.out
  bytes : t.mread a bs.length = bs
  others : ∀ y, y < a ∨ a + bs.length ≤ y → t.mbyte y = s.mbyte y
  poison : ∀ y, y ∈ t.poison ↔ if a ≤ y ∧ y < a + bs.length then p = true else y ∈ s.poison

theorem State.stored_mstore (hm : Memory.wf s.mem = true) (a : Nat) (bs : List Byte) (p : Bool) : s.stored a bs p (s.mstore a bs p) where
  out := rfl
  bytes := State.mread_mstore hm a bs p
  others _ hy := State.mbyte_mstore_outside hm hy p
  poison y := by
    have clean : y ∈ s.poison.filter (fun q => !(a ≤ q && q < a + bs.length)) ↔ y ∈ s.poison ∧ ¬ (a ≤ y ∧ y < a + bs.length) := by
      simp only [List.mem_filter, Bool.not_eq_true', Bool.and_eq_false_iff, decide_eq_false_iff_not, not_and_or]
    cases p with
    | true =>
      refine (mem_markRange _ a bs.length).trans ?_
      rw [clean]
      split
      · next hy => simp [hy]
      · next hy => simp [hy]
    | false =>
      refine clean.trans ?_
      split
      · next hy => simp [hy]
      · next hy => simp [hy]

/-- Two stores side by side are one. -/
theorem State.stored.append (h : s.stored a bs p t) (h' : t.stored (a + bs.length) bs' p u) : s.stored a (bs ++ bs') p u where
  out := h'.out.trans h.out
  bytes := by
    have first : u.mread a bs.length = bs := (State.mread_congr fun y _ hy => h'.others y (.inl hy)).trans h.bytes
    rw [List.length_append, State.mread_append, first, h'.bytes]
  others y hy := by
    rw [List.length_append] at hy
    rw [h'.others y (by omega), h.others y (by omega)]
  poison y := by
    rw [h'.poison, List.length_append]
    split
    · rw [if_pos (by omega)]
    · rw [h.poison]
      split
      · rw [if_pos (by omega)]
      · rw [if_neg (by omega)]

theorem State.stored.of_left (h : t.stored a bs p u) (hout : t.out = s.out) (hmem : t.mem = s.mem) (hp : t.poison = s.poison) :
    s.stored a bs p u where
  out := h.out.trans hout
  bytes := h.bytes
  others y hy := (h.others y hy).trans (congrArg (fun m => (tget m y).getD 0) hmem)
  poison := hp ▸ h.poison

theorem State.stored.mpoison (h : s.stored a bs p t) (hne : bs ≠ []) : t.mpoison a bs.length = p := by
  have pos := List.length_pos_iff.mpr hne
  rw [Bool.eq_iff_iff, State.mpoison_iff]
  constructor
  · rintro ⟨y, hy, hr⟩
    rwa [h.poison, if_pos hr] at hy
  · intro hp
    exact ⟨a, (h.poison a).mpr (by rwa [if_pos (by omega)]), by omega⟩

/-! ## Held words -/

theorem mem_wordsOf {w : Nat} : w ∈ wordsOf a n ↔ n ≠ 0 ∧ w % 8 = 0 ∧ a / 8 ≤ w / 8 ∧ w / 8 ≤ (a + n - 1) / 8 := by
  unfold wordsOf
  split
  · simp [*]
  · next hn =>
    simp only [List.mem_map, List.mem_range]
    constructor
    · rintro ⟨i, hi, rfl⟩
      omega
    · rintro ⟨-, h8, hl, hh⟩
      exact ⟨w / 8 - a / 8, by omega, by omega⟩

/-- No word that the range touches has a waiter. -/
def State.unheld (s : State) (a n : Nat) : Prop := ∀ w ∈ s.waiters, w.addr ∉ wordsOf a n

theorem State.unheld.part (h : s.unheld a n) (hl : a ≤ b) (hh : b + m ≤ a + n) : s.unheld b m := by
  intro w hw hmem
  have := h w hw
  rw [mem_wordsOf] at hmem this
  omega

theorem State.holdKick_of_unwaited {w : Nat} (h : ∀ x ∈ s.waiters, x.addr ≠ w) : s.holdKick w = s := by
  have none : s.waiters.find? (fun x => x.addr == w) = none := List.find?_eq_none.mpr (fun x hx => by simp [h x hx])
  unfold State.holdKick
  rw [none]
  split <;> rfl

theorem State.mwrite_of_unheld (h : s.unheld a bs.length) (p : Bool) : s.mwrite a bs p = s.mstore a bs p := by
  unfold State.mwrite
  generalize ht : s.mstore a bs p = t
  have waiters : t.waiters = s.waiters := ht ▸ State.mstore_waiters ..
  have unwaited : ∀ w ∈ wordsOf a bs.length, ∀ x ∈ t.waiters, x.addr ≠ w := fun w hw x hx e => h x (waiters ▸ hx) (e ▸ hw)
  clear ht waiters
  generalize wordsOf a bs.length = words at unwaited
  induction words with
  | nil => rfl
  | cons w l ih =>
    rw [List.foldl_cons, State.holdKick_of_unwaited (unwaited w (List.mem_cons_self ..))]
    exact ih (fun v hv => unwaited v (List.mem_cons_of_mem _ hv))

end Sys2Proof.Machine
end

section
/-! Accesses of a host that the memory system performs at once (O21): on lines that are free, an access acts on them one after the other
(05_host_ports.md R139, R141), and comes to its end. -/

set_option Elab.async false

namespace Sys2Proof.Machine

variable {s t u : State} {f : Fn} {x y : DevAccess} {a n len : Nat} {bs : List Byte} {p w : Bool}

/-! ## Lines that are free -/

/-- The line of an address has no tracker and no host copy to recall, and its memory is awake with nothing waiting. -/
def State.lineFree (s : State) (y : Nat) (write : Bool) : Prop :=
  tget (s.hag (s.memDie y)).trackers (y / 64) = none ∧ s.mustRecall y write = false ∧ (s.die (s.memDie y)).dmem = [] ∧
    s.memAwake (s.memDie y) = true ∧ s.memOff (s.memDie y) = false

/-- Every line of a range is free: of an empty one, the line it begins in. -/
def State.rangeFree (s : State) (a n : Nat) (write : Bool) : Prop := ∀ y, a ≤ y → y < a + max n 1 → s.lineFree y write

theorem State.rangeFree.head (h : s.rangeFree a n w) : s.lineFree a w := h a (le_refl a) (by omega)

theorem State.rangeFree.part {b m : Nat} (h : s.rangeFree a n w) (hl : a ≤ b) (hh : b + m ≤ a + n) (hm : 0 < m) : s.rangeFree b m w :=
  fun y hy hy' => h y (by omega) (by omega)

/-- An access to a free line acts at once. -/
theorem State.devStart_free (h : s.lineFree x.addr (devWrites x)) : s.devStart x = s.devAct x := by
  obtain ⟨tracker, noRecall, idle, awake, off⟩ := h
  simp [State.devStart, State.devSubmit, devLine, tracker, noRecall, idle, awake, off]

/-! ## Line by line -/

/-- What is left of the access `x`: `k`, from the address `a` on. -/
def onLines (x : DevAccess) (a : Nat) (k : DevKind) : DevAccess := { x with addr := a, kind := k }

theorem State.devRun_part (h : s.lineFree x.addr (devWrites x)) (hp : s.devPerform x = (t, some y)) (n : Nat) :
    State.devRun (n + 1) [.start x] s = State.devRun n [.start y] t := by
  simp only [State.devRun, State.devDo, State.devStart_free h, State.devAct, hp, List.append_nil]

theorem State.devRun_nil (n : Nat) (s : State) : State.devRun n [] s = s := by
  cases n
  all_goals rfl

theorem State.devRun_last (h : s.lineFree x.addr (devWrites x)) (hp : s.devPerform x = (t, none)) (he : (t.devEnd x).2 = []) (n : Nat) :
    State.devRun (n + 1) [.start x] s = (t.devEnd x).1 := by
  simp only [State.devRun, State.devDo, State.devStart_free h, State.devAct, hp, he, List.append_nil, State.devRun_nil]

/-- Whether the end of an access begins another depends on the accesses that wait, and on nothing else. -/
theorem State.devEnd_congr (h : t.hostQ = s.hostQ) (x : DevAccess) : (t.devEnd x).2 = (s.devEnd x).2 := by
  unfold State.devEnd
  split
  · simp only [h]
  · rfl

/-- Which accesses wait has changed. -/
def State.setHostQ (s : State) (q : Tbl (List DevAccess)) : State := { s with hostQ := q }

theorem State.mread_setHostQ (s : State) (q : Tbl (List DevAccess)) (a n : Nat) : (s.setHostQ q).mread a n = s.mread a n :=
  State.mread_congr fun _ _ _ => rfl

theorem State.stored.setHostQ (h : s.stored a bs p t) (q : Tbl (List DevAccess)) : s.stored a bs p (t.setHostQ q) where
  out := h.out
  bytes := (t.mread_setHostQ ..).trans h.bytes
  others := h.others
  poison := h.poison

/-- An access that ends changes the accesses that wait, and nothing else. -/
theorem State.devEnd_eq (s : State) (x : DevAccess) : (s.devEnd x).1 = s.setHostQ (s.devEnd x).1.hostQ := by
  unfold State.devEnd
  split
  · rfl
  · rfl

section
variable (s : State) (f : Option Fn) (l : List Byte) (p : Bool)

/-- A read that completes writes a register field and an output. -/
theorem State.readDone_eq : s.readDone f l p = { s with regs := (s.readDone f l p).regs, out := (s.readDone f l p).out } := by
  cases f with
  | none => rfl
  | some f => cases p <;> rfl

theorem State.readDone_hostQ : (s.readDone f l p).hostQ = s.hostQ := by rw [State.readDone_eq]
theorem State.readDone_mem : (s.readDone f l p).mem = s.mem := by rw [State.readDone_eq]
theorem State.readDone_poison : (s.readDone f l p).poison = s.poison := by rw [State.readDone_eq]
theorem State.readDone_waiters : (s.readDone f l p).waiters = s.waiters := by rw [State.readDone_eq]

end

theorem State.readDone_out (s : State) (f : Fn) (l : List Byte) (p : Bool) :
    (s.readDone (some f) l p).out = s.out ++ [.readReturn f l p] := by
  cases p
  all_goals rfl

/-! ### Reads -/

theorem State.devPerform_read_part (s : State) (x : DevAccess) {got : List Byte} (h : 64 - a % 64 < len) :
    s.devPerform (onLines x a (.read len got p)) = (s, some (onLines x (a + (64 - a % 64))
      (.read (len - (64 - a % 64)) (got ++ s.mread a (64 - a % 64)) (p || s.mpoison a (64 - a % 64))))) := by
  have chunk : min len (64 - a % 64) = 64 - a % 64 := Nat.min_eq_right (Nat.le_of_lt h)
  simp [State.devPerform, onLines, devPart, devLen, chunk, h, State.when]

theorem State.devPerform_read_last (s : State) (x : DevAccess) {got : List Byte} (h : len ≤ 64 - a % 64) :
    s.devPerform (onLines x a (.read len got p)) =
      (s.readDone x.fn (got ++ s.mread a len) (p || s.mpoison a len), none) := by
  have chunk : min len (64 - a % 64) = len := Nat.min_eq_left h
  simp [State.devPerform, onLines, devPart, devLen, chunk, State.when]

/-- A read of free lines returns what it read of each. -/
theorem State.devRun_read (x : DevAccess) (he : (s.devEnd x).2 = []) (got : List Byte)
    (hn : 0 < n) (hlen : a % 64 + len ≤ 64 * n) (hfree : s.rangeFree a len false) :
    State.devRun n [.start (onLines x a (.read len got p))] s =
      ((s.readDone x.fn (got ++ s.mread a len) (p || s.mpoison a len)).devEnd x).1 := by
  induction n generalizing a len got p with
  | zero => omega
  | succ n ih =>
    by_cases h : 64 - a % 64 < len
    · have free : s.rangeFree (a + (64 - a % 64)) (len - (64 - a % 64)) false := hfree.part (Nat.le_add_right ..) (by omega) (by omega)
      rw [State.devRun_part hfree.head (s.devPerform_read_part x h), ih _ (by omega) (by omega) free,
        List.append_assoc, ← State.mread_append, Bool.or_assoc, ← State.mpoison_append,
        Nat.add_sub_cancel' (Nat.le_of_lt h)]
    · exact State.devRun_last hfree.head (s.devPerform_read_last x (Nat.le_of_not_lt h))
        ((State.devEnd_congr (s.readDone_hostQ ..) x).trans he) n

/-! ### Writes -/

theorem State.devPerform_write_part (s : State) (x : DevAccess) (h : 64 - a % 64 < bs.length) :
    s.devPerform (onLines x a (.write bs p)) = (s.mwrite a (bs.take (64 - a % 64)) p,
      some (onLines x (a + (64 - a % 64)) (.write (bs.drop (64 - a % 64)) p))) := by
  have chunk : min bs.length (64 - a % 64) = 64 - a % 64 := Nat.min_eq_right (Nat.le_of_lt h)
  simp [State.devPerform, onLines, devPart, devLen, chunk, h]

theorem State.devPerform_write_last (s : State) (x : DevAccess) (h : bs.length ≤ 64 - a % 64) :
    s.devPerform (onLines x a (.write bs p)) = (s.mwrite a bs p, none) := by
  have chunk : min bs.length (64 - a % 64) = bs.length := Nat.min_eq_left h
  simp [State.devPerform, onLines, devPart, devLen, chunk]

/-- A write of free lines without waiters stores its bytes in each. -/
theorem State.devRun_write (x : DevAccess) (he : (s.devEnd x).2 = []) (hm : Memory.wf s.mem = true) (hn : 0 < n)
    (hlen : a % 64 + bs.length ≤ 64 * n) (hfree : s.rangeFree a bs.length true) (hheld : s.unheld a bs.length) :
    ∃ t, s.stored a bs p t ∧ State.devRun n [.start (onLines x a (.write bs p))] s = (t.devEnd x).1 := by
  induction n generalizing a bs s with
  | zero => omega
  | succ n ih =>
    by_cases h : 64 - a % 64 < bs.length
    · have len : (bs.take (64 - a % 64)).length = 64 - a % 64 := by simp; omega
      have len' : (bs.drop (64 - a % 64)).length = bs.length - (64 - a % 64) := List.length_drop
      have perform := s.devPerform_write_part x h (p := p)
      rw [State.mwrite_of_unheld (by rw [len]; exact hheld.part (le_refl a) (by omega))] at perform
      have free : (s.mstore a (bs.take (64 - a % 64)) p).rangeFree (a + (64 - a % 64)) (bs.drop (64 - a % 64)).length true :=
        hfree.part (Nat.le_add_right ..) (by omega) (by omega)
      have held : (s.mstore a (bs.take (64 - a % 64)) p).unheld (a + (64 - a % 64)) (bs.drop (64 - a % 64)).length :=
        hheld.part (Nat.le_add_right ..) (by omega)
      have last : ((s.mstore a (bs.take (64 - a % 64)) p).devEnd x).2 = [] := (State.devEnd_congr (State.mstore_hostQ ..) x).trans he
      obtain ⟨t, stored, run⟩ := ih last (s.mstore_wf _ _ _ hm) (by omega) (by omega) free held
      have both := (State.stored_mstore hm a (bs.take (64 - a % 64)) p).append (by rwa [len])
      rw [List.take_append_drop] at both
      exact ⟨t, both, (State.devRun_part hfree.head perform n).trans run⟩
    · have perform := s.devPerform_write_last x (Nat.le_of_not_lt h) (p := p)
      rw [State.mwrite_of_unheld hheld] at perform
      have last : ((s.mstore a bs p).devEnd x).2 = [] := (State.devEnd_congr (State.mstore_hostQ ..) x).trans he
      exact ⟨_, State.stored_mstore hm a bs p, State.devRun_last hfree.head perform last n⟩

/-! ## Accesses of a function -/

theorem State.devFuel_ge (s : State) (n : Nat) : n + 3 ≤ s.devFuel n :=
  (Nat.le_add_left ..).trans (Nat.le_self_pow (by decide) _)

/-- Fuel enough for every line of an access. -/
theorem State.devFuel_lines (s : State) (x : DevAccess) :
    0 < s.devFuel (devLines x) ∧ x.addr % 64 + devLen x ≤ 64 * s.devFuel (devLines x) := by
  have := s.devFuel_ge (devLines x)
  have : devLines x = devLen x / 64 + 2 := rfl
  omega

/-- The access is not kept behind others of its function (R141). -/
def State.inTurn (s : State) (x : DevAccess) : Prop := x.ordered = false ∨ ∀ f, x.fn = some f → tget s.hostQ f.id = none

/-- An access in its turn goes to memory, and begins no other when it ends. -/
theorem State.hostAccess_inTurn (h : s.inTurn x) :
    ∃ q, s.hostAccess x = (s.setHostQ q).devAccess x ∧ ((s.setHostQ q).devEnd x).2 = [] := by
  obtain ⟨fn, ordered, polder, addr, kind⟩ := x
  cases ordered with
  | false => cases fn <;> exact ⟨s.hostQ, rfl, rfl⟩
  | true =>
    cases fn with
    | none => exact ⟨s.hostQ, rfl, rfl⟩
    | some f =>
      have empty : tget s.hostQ f.id = none := (h.resolve_left nofun) f rfl
      refine ⟨tput s.hostQ f.id [⟨some f, true, polder, addr, kind⟩], ?_, ?_⟩
      · simp [State.hostAccess, State.setHostQ, empty]
      · simp [State.devEnd, State.setHostQ]

theorem onLines_self {k : DevKind} (hk : x.kind = k) : onLines x x.addr k = x := by subst hk; rfl

section
variable (hturn : s.inTurn x)
include hturn

theorem State.hostAccess_read (hf : x.fn = some f) (hk : x.kind = .read len [] false) (hfree : s.rangeFree x.addr len false) :
    (s.hostAccess x).out = s.out ++ [.readReturn f (s.mread x.addr len) (s.mpoison x.addr len)] ∧ (s.hostAccess x).mem = s.mem := by
  obtain ⟨q, run, last⟩ := State.hostAccess_inTurn hturn
  obtain ⟨fuel, lines⟩ := (s.setHostQ q).devFuel_lines x
  have length : devLen x = len := by simp [devLen, hk]
  have reads := State.devRun_read (s := s.setHostQ q) (p := false) x last [] fuel (length ▸ lines) hfree
  rw [onLines_self hk, hf, List.nil_append, Bool.false_or] at reads
  rw [run, State.devAccess, State.devGo, reads, State.devEnd_eq, State.mread_setHostQ]
  exact ⟨State.readDone_out .., State.readDone_mem ..⟩

theorem State.hostAccess_write (hm : Memory.wf s.mem = true) (hk : x.kind = .write bs p) (hfree : s.rangeFree x.addr bs.length true)
    (hheld : s.unheld x.addr bs.length) : s.stored x.addr bs p (s.hostAccess x) := by
  obtain ⟨q, run, last⟩ := State.hostAccess_inTurn hturn
  obtain ⟨fuel, lines⟩ := (s.setHostQ q).devFuel_lines x
  have length : devLen x = bs.length := by simp [devLen, hk]
  obtain ⟨t, stored, writes⟩ := State.devRun_write (s := s.setHostQ q) (p := p) x last hm fuel (length ▸ lines) hfree hheld
  rw [onLines_self hk] at writes
  rw [run, State.devAccess, State.devGo, writes, State.devEnd_eq]
  exact (stored.setHostQ _).of_left rfl rfl rfl

theorem State.hostAccess_atomic (hm : Memory.wf s.mem = true) (hf : x.fn = some f) {k : AtomicKind} {v v' : Nat}
    (hk : x.kind = .atomic k len v v') (hfree : s.rangeFree x.addr len true) (hheld : s.unheld x.addr len) :
    let old := leNat (s.mread x.addr len)
    (s.emit (.readReturn f (leBytes len old) (s.mpoison x.addr len))).stored x.addr (leBytes len (atomicResult k len old v v'))
      (s.mpoison x.addr len) (s.hostAccess x) := by
  intro old
  obtain ⟨q, run, last⟩ := State.hostAccess_inTurn hturn
  obtain ⟨fuel, -⟩ := (s.setHostQ q).devFuel_lines x
  have writes : devWrites x = true := by simp [devWrites, hk]
  generalize hu : (s.setHostQ q).readDone x.fn (leBytes len old) (s.mpoison x.addr len) = u
  have hmem : u.mem = s.mem := hu ▸ State.readDone_mem ..
  have held : u.unheld x.addr (leBytes len (atomicResult k len old v v')).length := by
    rw [length_leBytes, State.unheld, show u.waiters = s.waiters from hu ▸ State.readDone_waiters ..]
    exact hheld
  have perform : (s.setHostQ q).devPerform x =
      (u.mwrite x.addr (leBytes len (atomicResult k len old v v')) (s.mpoison x.addr len), none) := by
    have read : leNat ((s.setHostQ q).mread x.addr len) = old := congrArg leNat (s.mread_setHostQ ..)
    simp only [State.devPerform, hk, read]
    rw [← hu]
    rfl
  rw [State.mwrite_of_unheld held] at perform
  have stored := State.stored_mstore (hmem ▸ hm) x.addr (leBytes len (atomicResult k len old v v')) (s.mpoison x.addr len)
  have free : (s.setHostQ q).lineFree x.addr (devWrites x) := writes ▸ hfree.head
  have ends : ((u.mstore x.addr (leBytes len (atomicResult k len old v v')) (s.mpoison x.addr len)).devEnd x).2 = [] := by
    refine (State.devEnd_congr ?_ x).trans last
    rw [State.mstore_hostQ, ← hu, State.readDone_hostQ]
  obtain ⟨n, hn⟩ := Nat.exists_eq_succ_of_ne_zero (Nat.ne_of_gt fuel)
  rw [run, State.devAccess, State.devGo, hn, State.devRun_last free perform ends, State.devEnd_eq]
  refine (stored.setHostQ _).of_left ?_ hmem ?_
  · rw [← hu, hf, State.readDone_out]
    rfl
  · rw [← hu, State.readDone_poison]
    rfl

end

end Sys2Proof.Machine
end

section
/-! BAR2_READ, BAR2_WRITE, HOST_ATOMICOP and HDM_ACCESS (O21): what a host port does with an access before it goes to memory, and what the
access then leaves. -/

set_option Elab.async false

namespace Sys2Proof.Machine

variable {s t u : State} {f : Fn} {o : BitVec 40} {x : DevAccess} {a n len y : Nat} {bs : List Byte} {p w ro : Bool} {os os' : List Output}

/-! ## On the way to memory -/

/-- From `s` to `u` counters of the host ports and of the PCU are written, and `os` goes out. -/
structure State.arrives (s : State) (os : List Output) (u : State) : Prop where
  writes : s.writesIn memKeys u
  frame : u = { s with regs := u.regs, out := s.out ++ os }

theorem State.arrives_refl (s : State) : s.arrives [] s where
  writes := s.writesIn_refl _
  frame := by rw [List.append_nil]

theorem State.arrives.trans (h : s.arrives os u) (h' : u.arrives os' t) : s.arrives (os ++ os') t where
  writes := h.writes.trans h'.writes
  frame := h'.frame.trans (by rw [h.frame, ← List.append_assoc])

theorem State.arrives_hpCount (s : State) (h : Fin 4) {m : Nat} (hm : m < 4) (n : Nat) : s.arrives [] (s.hpCount h m n) where
  writes := by
    have place : (PCU.HP_CTR.COUNT (h.val % 2 * 4 + m)).inMem = true := by
      rw [Fld.inMem, PCU.HP_CTR.COUNT, decide_eq_true (by dsimp only; omega), Bool.true_or]
      rfl
    exact s.writesIn_wr _ (memKeys_of_inMem _ place)
  frame := by rw [List.append_nil]; rfl

theorem State.arrives_poisonIn (s : State) (f : Fn) : s.arrives [.advisory f] (s.poisonIn f) where
  writes := by
    have link := s.fnLink_lt f
    have base : Die.a.base = 0 := rfl
    refine (s.writesIn_wr _ ?_).of_right
    simp only [memKeys, fkey, HP.HP_ERR.POISON_RECEIVED]
    omega
  frame := rfl

/-- What goes out for a write that arrives poisoned, or clean (05_host_ports.md R131). -/
def toldPoison (f : Fn) (p : Bool) : List Output := if p then [.advisory f] else []

theorem State.arrives_when_poisonIn (s : State) (f : Fn) (p : Bool) : s.arrives (toldPoison f p) (s.when p (fun s => s.poisonIn f)) := by
  cases p with
  | true => exact s.arrives_poisonIn f
  | false => exact s.arrives_refl

/-! ## What stands -/

namespace State.arrives

theorem out (h : s.arrives os u) : u.out = s.out ++ os := by rw [h.frame]
theorem mem (h : s.arrives os u) : u.mem = s.mem := by rw [h.frame]
theorem poison (h : s.arrives os u) : u.poison = s.poison := by rw [h.frame]
theorem waiters (h : s.arrives os u) : u.waiters = s.waiters := by rw [h.frame]
theorem hostQ (h : s.arrives os u) : u.hostQ = s.hostQ := by rw [h.frame]

theorem mbyte (h : s.arrives os u) (y : Nat) : u.mbyte y = s.mbyte y := by rw [State.mbyte, h.mem, State.mbyte]

theorem mread (h : s.arrives os u) (a n : Nat) : u.mread a n = s.mread a n := State.mread_congr fun y _ _ => h.mbyte y

theorem mpoison (h : s.arrives os u) (a n : Nat) : u.mpoison a n = s.mpoison a n := by rw [State.mpoison, h.poison, State.mpoison]

theorem unheld (h : s.arrives os u) (hu : s.unheld a n) : u.unheld a n := by rwa [State.unheld, h.waiters]

theorem inTurn (h : s.arrives os u) (ht : s.inTurn x) : u.inTurn x := by rwa [State.inTurn, h.hostQ]

end State.arrives

/-- No state of a power domain is a register that the way to memory writes. -/
theorem not_memKeys_dom (d : Die) {f : Fld} (hl : 0x3c04000 ≤ f.off) (hh : f.off < 0x3c08000) (hlo : f.lo < 64) :
    ¬ memKeys (fkey d f) := by
  have hd : d.base = 0 ∨ d.base = 0x4000000 := by cases d; exacts [.inl rfl, .inr rfl]
  unfold memKeys fkey
  omega

theorem State.arrives.lineFree (h : s.arrives os u) (hw : tblWf s.regs = true) (hy : s.lineFree y w) : u.lineFree y w := by
  have dom {f : Fld} (hl : 0x3c04000 ≤ f.off) (hh : f.off < 0x3c08000) (hlo : f.lo < 64) (d : Die) : u.rd d f = s.rd d f :=
    h.writes.rd hw (not_memKeys_dom d hl hh hlo)
  have memDie : u.memDie y = s.memDie y := by rw [h.frame]; rfl
  have die : u.die = s.die := by rw [h.frame]; rfl
  have hag : u.hag = s.hag := by rw [h.frame]; rfl
  have noRecall : u.mustRecall y w = s.mustRecall y w := by rw [h.frame]; rfl
  have awake : u.memAwake (s.memDie y) = s.memAwake (s.memDie y) := by
    rw [State.memAwake, dom (by decide) (by decide) (by decide), dom (by decide) (by decide) (by decide), State.memAwake]
  have off : u.memOff (s.memDie y) = s.memOff (s.memDie y) := by
    rw [State.memOff, State.on, dom (by decide) (by decide) (by decide), State.memOff, State.on]
  unfold State.lineFree
  rwa [memDie, die, hag, noRecall, awake, off]

section
variable (ha : s.arrives os u) (hi : s.inv) (hturn : s.inTurn x)
include ha hi hturn

theorem State.arrives.reads (hf : x.fn = some f) (hk : x.kind = .read len [] false) (hfree : s.rangeFree x.addr len false) :
    (u.hostAccess x).out = s.out ++ os ++ [.readReturn f (s.mread x.addr len) (s.mpoison x.addr len)] ∧ (u.hostAccess x).mem = s.mem := by
  have free : u.rangeFree x.addr len false := fun y hl hh => ha.lineFree hi.1 (hfree y hl hh)
  obtain ⟨out, mem⟩ := State.hostAccess_read (ha.inTurn hturn) hf hk free
  rw [ha.out, ha.mread, ha.mpoison] at out
  exact ⟨out, mem.trans ha.mem⟩

theorem State.arrives.stores (hk : x.kind = .write bs p) (hfree : s.rangeFree x.addr bs.length true) (hheld : s.unheld x.addr bs.length) :
    let t := u.hostAccess x
    t.mread x.addr bs.length = bs ∧ (bs ≠ [] → t.mpoison x.addr bs.length = p) ∧ t.out = s.out ++ os ∧
      ∀ y, (y < x.addr ∨ x.addr + bs.length ≤ y) → t.mbyte y = s.mbyte y := by
  have free : u.rangeFree x.addr bs.length true := fun y hl hh => ha.lineFree hi.1 (hfree y hl hh)
  have stored := State.hostAccess_write (ha.inTurn hturn) (ha.mem ▸ hi.2) hk free (ha.unheld hheld)
  exact ⟨stored.bytes, stored.mpoison, stored.out.trans ha.out, fun y hy => (stored.others y hy).trans (ha.mbyte y)⟩

end

/-! ## The commands -/

theorem State.barAccess_eq (s : State) (f : Fn) (ro : Bool) (a : Nat) (k : DevKind) :
    s.barAccess f ro a k = s.hostAccess ⟨some f, !ro, (s.polderOf f).getD 0, a, k⟩ := rfl

/-- An access of a host function is in its turn when it is not ordered, or none of the function waits. -/
theorem State.inTurn_ordered {q : Nat} {k : DevKind} (h : ro = true ∨ tget s.hostQ f.id = none) :
    s.inTurn { fn := some f, ordered := !ro, polder := q, addr := a, kind := k } := by
  rcases h with rfl | h
  · exact .inl rfl
  · exact .inr fun g hg => Option.some.inj hg ▸ h

section
variable (hi : s.inv)
include hi

theorem Runs.bar2Read_reaches (ha : s.barAddr f o.toNat len .read = some a) (hfree : s.rangeFree a len false)
    (hturn : ro = true ∨ tget s.hostQ f.id = none) : Runs (.bar2Read f o ⟨len, ro⟩) s (fun t =>
      t.out = s.out ++ [.readReturn f (s.mread a len) (s.mpoison a len)] ∧ t.mem = s.mem) := by
  have run : exec (.bar2Read f o ⟨len, ro⟩) s = .next ((s.hpCount f.hp 2 len).barAccess f ro a (.read len [] false)) := by
    show execBar2Read f o ⟨len, ro⟩ s = _
    simp only [execBar2Read, ha]
  have arrives := s.arrives_hpCount f.hp (by decide : 2 < 4) len
  generalize s.hpCount f.hp 2 len = u at run arrives
  have read := arrives.reads hi (State.inTurn_ordered hturn (q := (u.polderOf f).getD 0)) rfl rfl hfree
  rw [List.append_nil, ← State.barAccess_eq] at read
  exact ⟨_, run, read⟩

theorem Runs.bar2Write_reaches (ha : s.barAddr f o.toNat bs.length .write = some a) (hfree : s.rangeFree a bs.length true)
    (hheld : s.unheld a bs.length) (hturn : ro = true ∨ tget s.hostQ f.id = none) : Runs (.bar2Write f o bs ⟨p, ro⟩) s (fun t =>
      t.mread a bs.length = bs ∧ (bs ≠ [] → t.mpoison a bs.length = p) ∧ t.out = s.out ++ toldPoison f p ∧
        ∀ y, (y < a ∨ a + bs.length ≤ y) → t.mbyte y = s.mbyte y) := by
  have run : exec (.bar2Write f o bs ⟨p, ro⟩) s =
      .next (((s.when p (fun s => s.poisonIn f)).hpCount f.hp 3 bs.length).barAccess f ro a (.write bs p)) := by
    show execBar2Write f o bs ⟨p, ro⟩ s = _
    simp only [execBar2Write, ha]
  have arrives := (s.arrives_when_poisonIn f p).trans (State.arrives_hpCount _ f.hp (by decide : 3 < 4) bs.length)
  rw [List.append_nil] at arrives
  generalize (s.when p (fun s => s.poisonIn f)).hpCount f.hp 3 bs.length = u at run arrives
  exact ⟨_, run, arrives.stores hi (State.inTurn_ordered hturn (q := (u.polderOf f).getD 0)) rfl hfree hheld⟩

theorem Runs.hostAtomicop_reaches {k : AtomicKind} {v v' : BitVec 128} (hk : hostAtomicOk k len = true) (hal : o.toNat % len = 0)
    (ha : s.barAddr f o.toNat len .atomic = some a) (hfree : s.rangeFree a len true) (hheld : s.unheld a len)
    (hturn : false = true ∨ tget s.hostQ f.id = none) : Runs (.hostAtomicop f o k len v v') s (fun t =>
      let old := leNat (s.mread a len)
      t.out = s.out ++ [.readReturn f (leBytes len old) (s.mpoison a len)] ∧
        t.mread a len = leBytes len (atomicResult k len old v.toNat v'.toNat) ∧
        ∀ y, (y < a ∨ a + len ≤ y) → t.mbyte y = s.mbyte y) := by
  have run : exec (.hostAtomicop f o k len v v') s = .next (s.barAccess f false a (.atomic k len v.toNat v'.toNat)) := by
    show execHostAtomicop f o k len v v' s = _
    simp [execHostAtomicop, hk, hal, ha]
  obtain ⟨out, bytes, others, -⟩ :=
    State.hostAccess_atomic (State.inTurn_ordered hturn (q := (s.polderOf f).getD 0)) hi.2 rfl rfl hfree hheld
  rw [length_leBytes] at bytes others
  exact ⟨_, run, out, bytes, others⟩

section
variable {h : Fin 4} (hon : (s.hp h).hdmOn = true) (ha : s.hdmAddr o.toNat = a)
include hon ha

theorem Runs.hdmAccess_write_reaches (hus : s.usable a bs.length = true) (hfree : s.rangeFree a bs.length true)
    (hheld : s.unheld a bs.length) : Runs (.hdmAccess h o (some ⟨bs, p⟩) len) s (fun t =>
      t.mread a bs.length = bs ∧ (bs ≠ [] → t.mpoison a bs.length = p) ∧ t.out = s.out ++ toldPoison ⟨h, 0⟩ p ∧
        ∀ y, (y < a ∨ a + bs.length ≤ y) → t.mbyte y = s.mbyte y) := by
  have run : exec (.hdmAccess h o (some ⟨bs, p⟩) len) s =
      .next ((s.when p (fun s => s.poisonIn ⟨h, 0⟩)).hostAccess ⟨some ⟨h, 0⟩, false, 0, a, .write bs p⟩) := by
    show execHdmAccess h o (some ⟨bs, p⟩) len s = _
    simp [execHdmAccess, hon, ha, hus]
  exact ⟨_, run, (s.arrives_when_poisonIn ⟨h, 0⟩ p).stores hi (.inl rfl) rfl hfree hheld⟩

omit hi in
theorem Runs.hdmAccess_read_reaches (hus : s.usable a len = true) (hfree : s.rangeFree a len false) :
    Runs (.hdmAccess h o none len) s (fun t => t.mem = s.mem ∧
      t.out = s.out ++ [.readReturn ⟨h, 0⟩ (s.mread a len) (s.mpoison a len)]) := by
  have run : exec (.hdmAccess h o none len) s = .next (s.hostAccess ⟨some ⟨h, 0⟩, false, 0, a, .read len [] false⟩) := by
    show execHdmAccess h o none len s = _
    simp [execHdmAccess, hon, ha, hus]
  have read := State.hostAccess_read (s := s) (x := ⟨some ⟨h, 0⟩, false, 0, a, .read len [] false⟩) (.inl rfl) rfl rfl hfree
  exact ⟨_, run, read.symm⟩

end

end

/-- Settles O21: the range of an access is made of lines on which it acts at once, one after the other. -/
theorem hostAccessesReachMemory : Obligations.HostAccessesReachMemory := by
  intro s f o hi free unheld inTurn told others
  refine ⟨?_, ?_, ?_, ?_, ?_⟩
  · intro len ro a ha hfree hturn
    exact Runs.bar2Read_reaches hi ha hfree hturn
  · intro data p ro a ha hfree hheld hturn
    exact Runs.bar2Write_reaches hi ha hfree hheld hturn
  · intro k size v v' a hk hal ha hfree hheld hturn
    exact Runs.hostAtomicop_reaches hi hk hal ha hfree hheld hturn
  · intro h data p len hon hus hfree hheld
    exact Runs.hdmAccess_write_reaches hi hon rfl hus hfree hheld
  · intro h len hon hus hfree
    exact Runs.hdmAccess_read_reaches hon rfl hus hfree

end Sys2Proof.Machine
end

section
/-! SPDM and IDE at a host port, and the commit of its HDM decoder (O27, O28): a responder answers in the order of SPDM 1.3, and what it
answers changes no register and no other responder (05_host_ports.md R132, R133, R136). -/

set_option Elab.async false

namespace Sys2Proof.Machine

variable {s t : State} {h : Fin 4} {sec fin : Bool} {c : Instr} {r r' : Responder} {a : SpdmAnswer} {x : SpdmSession}

/-! ## Responders of a port -/

@[simp] theorem responder_setResponder (p : HostPort) (sec : Bool) (r : Responder) : responder (setResponder p sec r) sec = r := by
  cases sec <;> rfl

@[simp] theorem responder_setResponder_not (p : HostPort) (sec : Bool) (r : Responder) :
    responder (setResponder p sec r) (!sec) = responder p (!sec) := by
  cases sec <;> rfl

/-- From `s` to `t` a responder of port `h` answers `a` and goes on as `r'`; the other responders and the registers stand. -/
def State.spdmAnswered (s : State) (h : Fin 4) (sec : Bool) (r' : Responder) (a : SpdmAnswer) (t : State) : Prop :=
  t.out = s.out ++ [.spdm (.port h sec) a] ∧ responder (t.hp h) sec = r' ∧ responder (t.hp h) (!sec) = responder (s.hp h) (!sec) ∧
    (∀ k, k ≠ h → t.hp k = s.hp k) ∧ onlyFields [] s t

/-- What is sent changes no host port. -/
theorem State.hp_emit (s : State) (o : Output) (k : Fin 4) : (s.emit o).hp k = s.hp k := rfl

theorem State.spdmAnswered_emit (s : State) (h : Fin 4) (sec : Bool) (r' : Responder) (a : SpdmAnswer) :
    s.spdmAnswered h sec r' a ((s.modHp h (fun p => setResponder p sec r')).emit (.spdm (.port h sec) a)) := by
  refine ⟨rfl, ?_, ?_, fun k hk => ?_, fun _ _ _ => rfl⟩
  · rw [State.hp_emit, State.hp_modHp_same, responder_setResponder]
  · rw [State.hp_emit, State.hp_modHp_same, responder_setResponder_not]
  · rw [State.hp_emit, State.hp_modHp_ne hk]

section
variable (hp : s.hpPresent h.val = true) (hl : sec = false ∨ (s.hp h).bifurcated = true)
include hp hl

/-- A request that comes to a responder of a port is answered by it. -/
theorem Runs.spdm_port {ans : Responder → Responder × SpdmAnswer} (hc : exec c s = .next (s.spdm (.port h sec) ans))
    (ha : ans (responder (s.hp h) sec) = (r', a)) : Runs c s (s.spdmAnswered h sec r' a) := by
  have link : ¬ (sec = true ∧ (s.hp h).bifurcated = false) := by
    rintro ⟨hs, hb⟩
    rcases hl with e | e
    · exact absurd (hs.symm.trans e) nofun
    · exact absurd (hb.symm.trans e) nofun
  have run : s.spdm (.port h sec) ans = (s.modHp h (fun p => setResponder p sec r')).emit (.spdm (.port h sec) a) := by
    simp [State.spdm, hp, link, ha]
  exact .of_next (hc.trans (congrArg _ run)) (s.spdmAnswered_emit ..)

end

/-! ## Requests in and out of their order -/

theorem spdmNeed_met {ok : Bool} (h : ok = true) (r : Responder) (good : Responder × SpdmAnswer) : spdmNeed ok r good = good := by
  rw [spdmNeed, if_pos h]

theorem spdmNeed_unmet {ok : Bool} (h : ok = false) (r : Responder) (good : Responder × SpdmAnswer) :
    spdmNeed ok r good = (r, .unexpected) := by
  rw [spdmNeed, if_neg (by simp [h])]

/-! ## Requests on an open session -/

variable {id : Nat} {f : SpdmSession → List SpdmSession}

/-- Of the sessions of a list, what a request does to those with a number. -/
def onSession (l : List SpdmSession) (id : Nat) (f : SpdmSession → List SpdmSession) : List SpdmSession :=
  l.flatMap (fun y => if y.id = id then f y else [y])

theorem spdmSession_met (hf : r.sessions.find? (fun y => y.id == id) = some x) (hfin : x.finished = fin) :
    spdmSession r id fin f a = ({ r with sessions := onSession r.sessions id f }, a) := by
  simp only [spdmSession, hf, if_pos hfin, onSession]

theorem spdmSession_unmet (hf : r.sessions.find? (fun y => y.id == id) = some x) (hfin : x.finished ≠ fin) :
    spdmSession r id fin f a = (r, .unexpected) := by
  simp only [spdmSession, hf, if_neg hfin]

theorem onSession_keep (l : List SpdmSession) (id : Nat) : onSession l id (fun y => [y]) = l := by
  simp [onSession]

theorem onSession_end (l : List SpdmSession) (id : Nat) : onSession l id (fun _ => []) = l.filter (fun y => y.id != id) := by
  induction l with
  | nil => rfl
  | cons y l ih =>
    by_cases hy : y.id = id
    · simpa [onSession, hy] using ih
    · simpa [onSession, hy] using ih

theorem mem_onSession {l : List SpdmSession} {g : SpdmSession → SpdmSession} (hf : l.find? (fun y => y.id == id) = some x) :
    g x ∈ onSession l id (fun y => [g y]) := by
  have named : x.id = id := by simpa using List.find?_some hf
  exact List.mem_flatMap.mpr ⟨x, List.mem_of_find?_eq_some hf, by simp [named]⟩

/-- Settles O28: each request is a function of the responder alone, whose order lets it or not. -/
theorem spdmRequestsAreAnswered : Obligations.SpdmRequestsAreAnswered := by
  intro s h sec _ hp hl w r answers others opened
  have ask {c : Instr} {ans : Responder → Responder × SpdmAnswer} {r' : Responder} {a : SpdmAnswer}
      (hc : exec c s = .next (s.spdm w ans)) (ha : ans r = (r', a)) : answers c r' a := Runs.spdm_port hp hl hc ha
  refine ⟨ask rfl rfl, fun hv => ask rfl (spdmNeed_met hv ..), fun hv => ask rfl (spdmNeed_unmet hv ..),
    fun hcaps => ask rfl (spdmNeed_met hcaps ..), fun hcaps => ask rfl (spdmNeed_unmet hcaps ..), fun halgs => ?_, fun halgs => ?_,
    fun id x hopen _ => ?_⟩
  · have new {id : W32} (hid : r.sessions.all (fun x => x.id != id.toNat) = true) :
        (r.algs && r.sessions.all (fun x => x.id != id.toNat)) = true := by rw [halgs, hid]; rfl
    refine ⟨ask rfl (spdmNeed_met halgs ..), fun slot => ask rfl (spdmNeed_met halgs ..), fun nonce => ask rfl (spdmNeed_met halgs ..),
      ask rfl (spdmNeed_met halgs ..), fun id hid hroom => ask rfl ?_, fun id hid hfull => ask rfl ?_⟩
    · exact (spdmNeed_met (new hid) ..).trans (if_neg (Nat.not_le.mpr hroom))
    · exact (spdmNeed_met (new hid) ..).trans (if_pos hfull)
  · have early (id : W32) : (r.algs && r.sessions.all (fun x => x.id != id.toNat)) = false := by rw [halgs]; rfl
    exact ⟨ask rfl (spdmNeed_unmet halgs ..), fun nonce => ask rfl (spdmNeed_unmet halgs ..),
      fun slot => ask rfl (spdmNeed_unmet halgs ..), ask rfl (spdmNeed_unmet halgs ..), fun id => ask rfl (spdmNeed_unmet (early id) ..)⟩
  · refine ⟨fun hfin => ⟨fun kx ky => ?_, ask rfl (spdmSession_unmet hopen (by rw [hfin]; nofun))⟩, fun hfin => ⟨?_, ?_, ?_⟩⟩
    · have finish : exec (.finish w id kx ky) s = .next (s.spdm w (fun r => spdmSession r id.toNat false
          (fun y => [{ y with finished := true }]) (.ack 0xE5))) := congrArg Host.Outcome.next (if_neg (fun e => nomatch e.1))
      obtain ⟨t, run, out, resp, -⟩ := ask finish (spdmSession_met hopen hfin)
      exact ⟨t, run, out, resp ▸ mem_onSession (g := fun y => { y with finished := true }) hopen⟩
    · exact ask rfl ((spdmSession_met hopen hfin).trans (by rw [onSession_keep]))
    · have update : exec (.keyUpdate w id) s = .next (s.spdm w (fun r => spdmSession r id.toNat true
          (fun y => [{ y with updates := y.updates + 1 }]) (.ack 0xE9))) := rfl
      obtain ⟨t, run, out, resp, -⟩ := ask update (spdmSession_met hopen hfin)
      exact ⟨t, run, out, resp ▸ mem_onSession (g := fun y => { y with updates := y.updates + 1 }) hopen⟩
    · exact ask rfl ((spdmSession_met hopen hfin).trans (by rw [onSession_end]))

/-! ## HDM_COMMIT (R136) -/

/-- The HAG of a die shows that it serves a port. -/
def State.hagShows (s : State) (h : Fin 4) (d : Die) : State :=
  (s.wr d HAG.HAG_STATUS.ACTIVE 1).wr d HAG.HAG_STATUS.PORTS (s.rd d HAG.HAG_STATUS.PORTS ||| 2 ^ h.val)

/-- Coherence is shown by the port and by the HAG of both dies. -/
def State.coherenceShown (s : State) (h : Fin 4) : State :=
  ((s.wr .a (HP.HP_MODE.COHERENT (linkIdx h false)) 1).hagShows h .a).hagShows h .b

theorem State.coherenceShown_hp (s : State) (h k : Fin 4) : (s.coherenceShown h).hp k = s.hp k := by
  simp [State.coherenceShown, State.hagShows, State.hp]

theorem State.hagShows_writes (s : State) (h : Fin 4) (d : Die) :
    s.writesIn (keysOf [(d, HAG.HAG_STATUS.ACTIVE), (d, HAG.HAG_STATUS.PORTS)]) (s.hagShows h d) :=
  (s.writesIn_wr_of _ (by cases d <;> decide)).trans (State.writesIn_wr_of _ _ (by cases d <;> decide))

theorem State.hagShows_active (hw : tblWf s.regs = true) (h : Fin 4) (d : Die) : (s.hagShows h d).rd d HAG.HAG_STATUS.ACTIVE = 1 := by
  have apart : fkey d HAG.HAG_STATUS.ACTIVE ≠ fkey d HAG.HAG_STATUS.PORTS := Fld.apart.fkey_ne rfl d
  rw [State.hagShows, State.rd_wr_other _ _ (State.wr_wf _ _ _ _ hw) apart, State.rd_wr_same _ _ _ _ hw]
  rfl

theorem not_keysOf {l : List (Die × Fld)} {k : Nat} (h : (l.all (fun p => k != fkey p.1 p.2)) = true) : ¬ keysOf l k :=
  fun ⟨p, hp, e⟩ => by simpa [e] using List.all_eq_true.mp h p hp

theorem State.coherenceShown_rd (hw : tblWf s.regs = true) (h : Fin 4) :
    (s.coherenceShown h).rd .a (HP.HP_MODE.COHERENT (linkIdx h false)) = 1 ∧
      (s.coherenceShown h).rd .a HAG.HAG_STATUS.ACTIVE = 1 ∧ (s.coherenceShown h).rd .b HAG.HAG_STATUS.ACTIVE = 1 := by
  unfold State.coherenceShown
  generalize hu : s.wr .a (HP.HP_MODE.COHERENT (linkIdx h false)) 1 = u
  have hwu : tblWf u.regs = true := hu ▸ State.wr_wf _ _ _ _ hw
  have port : u.rd .a (HP.HP_MODE.COHERENT (linkIdx h false)) = 1 := by rw [← hu, State.rd_wr_same _ _ _ _ hw]; rfl
  have writesA := u.hagShows_writes h .a
  have writesB := (u.hagShows h .a).hagShows_writes h .b
  have hwA := writesA.wf hwu
  refine ⟨?_, ?_, State.hagShows_active hwA h .b⟩
  · rw [writesB.rd hwA (not_keysOf ?_), writesA.rd hwu (not_keysOf ?_), port]
    · clear * -; revert h; decide
    · clear * -; revert h; decide
  · rw [writesB.rd hwA (not_keysOf (by decide)), State.hagShows_active hwu]

/-- The decoder of a port is committed. -/
def State.hdmCommitted (s : State) (h : Fin 4) : State := s.modHp h (fun p => { p with hdmOn := true, hdmErr := false })

section
variable (hcxl : (s.hp h).cxl = true)
include hcxl

theorem Runs.hdmCommit_warden (hi : s.inv) (hw : s.isWarden ⟨h, 0⟩ = true) : Runs (.hdmCommit h) s (fun t =>
    (t.hp h).hdmOn = true ∧ (t.hp h).hdmErr = false ∧ (s.hagEnabled .a = true → s.hagEnabled .b = true →
      t.rd .a (HP.HP_MODE.COHERENT (linkIdx h false)) = 1 ∧ t.rd .a HAG.HAG_STATUS.ACTIVE = 1 ∧ t.rd .b HAG.HAG_STATUS.ACTIVE = 1)) := by
  have run : exec (.hdmCommit h) s =
      .next (if (s.hdmCommitted h).coherent h then (s.hdmCommitted h).coherenceShown h else s.hdmCommitted h) := by
    show execHdmCommit h s = _
    simp only [execHdmCommit, hcxl, hw]
    rfl
  have port : (s.hdmCommitted h).hp h = { s.hp h with hdmOn := true, hdmErr := false } := State.hp_modHp_same ..
  by_cases hc : (s.hdmCommitted h).coherent h = true
  · rw [if_pos hc] at run
    exact .of_next run ⟨by rw [State.coherenceShown_hp, port], by rw [State.coherenceShown_hp, port],
      fun _ _ => State.coherenceShown_rd hi.1 h⟩
  · rw [if_neg hc] at run
    refine .of_next run ⟨by rw [port], by rw [port], fun ha hb => absurd ?_ hc⟩
    have enabled (d : Die) : (s.hdmCommitted h).hagEnabled d = s.hagEnabled d := rfl
    simp [State.coherent, port, hcxl, enabled, ha, hb]

theorem Runs.hdmCommit_refused (hw : s.isWarden ⟨h, 0⟩ = false) : Runs (.hdmCommit h) s (fun t =>
    (t.hp h).hdmOn = (s.hp h).hdmOn ∧ (t.hp h).hdmErr = true ∧ onlyFields [] s t) := by
  have run : exec (.hdmCommit h) s = .next (s.modHp h (fun p => { p with hdmErr := true })) := by
    show execHdmCommit h s = _
    simp [execHdmCommit, hcxl, hw]
  refine .of_next run ⟨?_, ?_, fun _ _ _ => rfl⟩
  · rw [State.hp_modHp_same]
  · rw [State.hp_modHp_same]

end

/-! ## IDE_KM (R133) -/

/-- The keys of a stream take the place of those before them. -/
def installKey (p : HostPort) (x : IdeStream) : HostPort :=
  { p with ide := p.ide.filter (fun y => !(y.link == x.link && y.stream == x.stream)) ++ [x] }

/-- Settles O27: the commit shows coherence where it comes into force, and an installation puts a stream's next generation in its place. -/
theorem hdmAndIde : Obligations.HdmAndIde := by
  intro s h hi
  refine ⟨fun hcxl hw => Runs.hdmCommit_warden hcxl hi hw, fun hcxl hw => Runs.hdmCommit_refused hcxl hw,
    fun sec id stream key hpart hcxl hp hl hsess => ?_⟩
  intro old gen
  have next : (match old with | some x => x.gen | none => 0) + 1 = gen := by
    show _ = match old with | some x => x.gen + 1 | none => 1
    cases old <;> rfl
  have link : (!sec || (s.hp h).bifurcated) = true := by
    rcases hl with e | e <;> simp [e]
  have run : exec (.ideKm h sec id ⟨stream, key⟩) s = .next ((s.modHp h (fun p =>
      installKey p ⟨b2n sec, stream.val, gen, key⟩)).emit (.spdm (.port h sec) (.ideKm stream.val gen))) := by
    rw [← next]
    exact congrArg Host.Outcome.next (if_pos (by simp [hcxl, hp, link, hsess, hpart]))
  refine .of_next run ⟨rfl, ?_, fun _ _ _ => rfl⟩
  rw [State.hp_emit, State.hp_modHp_same]
  exact List.mem_append_right _ (List.mem_singleton.mpr rfl)

end Sys2Proof.Machine
end

section
/-! Links and functions of a host port (O25): what each event leaves of the port, and that no other port changes (05_host_ports.md R122 to
R126; 17_power.md R531; 18_counters.md R560; 19_startup.md R566). -/

set_option Elab.async false

namespace Sys2Proof.Machine

variable {s t : State} {h : Fin 4} {one : Bool} {c : Instr} {f g : HostPort → HostPort}

/-! ## The two links of a port -/

@[simp] theorem portLink_setPortLink (p : HostPort) (one : Bool) (l : HostLink) : portLink (setPortLink p one l) one = l := by
  cases one <;> rfl

@[simp] theorem portLink_setPortLink_not (p : HostPort) (one : Bool) (l : HostLink) :
    portLink (setPortLink p one l) (!one) = portLink p (!one) := by
  cases one <;> rfl

/-- A link changes, and the root of its functions is enabled or not. -/
def setLinkRoot (p : HostPort) (one : Bool) (l : HostLink) (on : Bool) : HostPort :=
  if one then { setPortLink p one l with secOn := on } else { setPortLink p one l with pfOn := on }

/-- The root of a link's functions is enabled: the secondary function, or the PF. -/
def rootOn (p : HostPort) (one : Bool) : Bool := if one then p.secOn else p.pfOn

theorem portLink_setLinkRoot (p : HostPort) (one : Bool) (l : HostLink) (on : Bool) : portLink (setLinkRoot p one l on) one = l := by
  cases one <;> rfl

theorem portLink_setLinkRoot_not (p : HostPort) (one : Bool) (l : HostLink) (on : Bool) :
    portLink (setLinkRoot p one l on) (!one) = portLink p (!one) := by
  cases one <;> rfl

theorem rootOn_setLinkRoot (p : HostPort) (one : Bool) (l : HostLink) (on : Bool) : rootOn (setLinkRoot p one l on) one = on := by
  cases one <;> rfl

/-! ## One port changes -/

/-- Of the host ports, only `h` changes from `s` to `t`, as `f` says. -/
structure State.onlyPort (s : State) (h : Fin 4) (f : HostPort → HostPort) (t : State) : Prop where
  port : t.hp h = f (s.hp h)
  alone : ∀ k, k ≠ h → t.hp k = s.hp k

theorem State.onlyPort_modHp (s : State) (h : Fin 4) (f : HostPort → HostPort) : s.onlyPort h f (s.modHp h f) :=
  ⟨State.hp_modHp_same .., fun _ hk => State.hp_modHp_ne hk ..⟩

/-- Two changes of one port, one after the other. -/
theorem State.onlyPort.modHp (ht : s.onlyPort h f t) (g : HostPort → HostPort) : s.onlyPort h (fun p => g (f p)) (t.modHp h g) :=
  ⟨(State.hp_modHp_same ..).trans (congrArg g ht.port), fun k hk => (State.hp_modHp_ne hk ..).trans (ht.alone k hk)⟩

/-- What changes no host port leaves them as they were. -/
theorem State.onlyPort.of_hps (ht : s.onlyPort h f t) {u : State} (hu : u.hps = t.hps) : s.onlyPort h f u := by
  have hp (k : Fin 4) : u.hp k = t.hp k := by rw [State.hp, hu, State.hp]
  exact ⟨(hp h).trans ht.port, fun k hk => (hp k).trans (ht.alone k hk)⟩

theorem State.portBack_hps (s : State) (h : Fin 4) : (s.portBack h).hps = s.hps := by
  unfold State.portBack
  split <;> rfl

theorem State.wake_hps (s : State) (d : Die) (i : Nat) : (s.wake d i).hps = s.hps := by
  have kept : Holds (· == .ports) (s.standing (· == .ports)) (s.wake d i) := by
    apply State.wake_keeps _ _ _ (s.holds_standing _) <;> rfl
  exact kept.holds .ports rfl

/-! ## Links -/

theorem bifurcated_of_second {p : HostPort} (hl : one = false ∨ p.bifurcated = true) (h1 : one = true) : p.bifurcated = true :=
  hl.resolve_left (by rw [h1]; nofun)

/-- A link that has come up. -/
def linkRisen (rate width : Nat) (flit : Bool) : HostLink := { linkDown with up := true, rate := rate, width := width, flit := flit }

theorem Runs.hostLinkUp_ok {rate : Fin 8} {width : Fin 17} {flit : Bool} (hp : s.hpPresent h.val = true) (hr : (s.hp h).perst = false)
    (hlost : (s.hp h).lost = false) (hat : (s.hp h).trainAt ≤ s.now) (hl : one = false ∨ (s.hp h).bifurcated = true)
    (ht : (portLink (s.hp h) one).training = true) (hm : linkModeOk (s.hp h) (linkRate (s.hp h) rate.val) width.val flit = true) :
    Runs (.hostLinkUp h one rate width flit) s (s.onlyPort h (fun p =>
      setLinkRoot p one (linkRisen (linkRate (s.hp h) rate.val) width.val (flitMode (linkRate (s.hp h) rate.val))) true)) := by
  have mode : flit = flitMode (linkRate (s.hp h) rate.val) := by
    simp only [linkModeOk, Bool.and_eq_true, beq_iff_eq] at hm
    exact hm.1.2
  have run : exec (.hostLinkUp h one rate width flit) s = .next ((s.modHp h (fun p =>
      setLinkRoot p one (linkRisen (linkRate (s.hp h) rate.val) width.val flit) true)).portBack h) :=
    congrArg Host.Outcome.next ((if_neg (by simpa [hp, hr, hlost, hat, ht, hm] using bifurcated_of_second hl)).trans (by cases one <;> rfl))
  rw [← mode]
  exact .of_next run ((s.onlyPort_modHp h _).of_hps (State.portBack_hps ..))

theorem Runs.hostLinkUp_mode {rate : Fin 8} {width : Fin 17} {flit : Bool}
    (hm : linkModeOk (s.hp h) (linkRate (s.hp h) rate.val) width.val flit = false) :
    Runs (.hostLinkUp h one rate width flit) s (fun t => t = s) :=
  .of_next (congrArg Host.Outcome.next (if_pos (by simp [hm]))) rfl

/-- A link that goes down trains again, unless its port may not. -/
def linkRetrains (p : HostPort) (one : Bool) : HostLink :=
  { linkDown with training := !p.perst && !p.lost && ((portLink p one).up || (portLink p one).training) }

theorem Runs.hostLinkDown_ok (hl : one = false ∨ (s.hp h).bifurcated = true) :
    Runs (.hostLinkDown h one) s (s.onlyPort h (fun p => setLinkRoot p one (linkRetrains p one) false)) :=
  .of_next (congrArg Host.Outcome.next (if_neg fun ⟨h1, h2⟩ => by simp [bifurcated_of_second hl h1] at h2)) (s.onlyPort_modHp h _)

/-! ## PERST_N (19_startup.md R566) -/

/-- The links of a port begin to train. -/
def trains (p : HostPort) (now : Nat) : HostPort :=
  { p with link0 := { p.link0 with training := true }, link1 := { p.link1 with training := p.bifurcated }, trainAt := now }

section
variable (hp : s.hpPresent h.val = true) (hpow : s.svc.pwrgood = true) (hr : (s.hp h).perst = true)
include hp hpow hr

theorem State.exec_perstNDeasserted : exec (.perstNDeasserted h) s =
    .next ((s.modHp h (fun p => { p with perst := false })).when (s.perstSampled && !(s.hp h).lost) (fun s => s.trainHost h s.now)) :=
  congrArg Host.Outcome.next (if_neg (by simp [hp, hpow, hr]))

theorem Runs.perstNDeasserted_trains (hlost : (s.hp h).lost = false) (hph : 4 ≤ s.rd .a SVC.SVC_STATE.PHASE) :
    Runs (.perstNDeasserted h) s (s.onlyPort h (fun p => trains { p with perst := false } s.now)) := by
  have run := State.exec_perstNDeasserted hp hpow hr
  rw [State.perstSampled, hpow, hlost, decide_eq_true hph] at run
  exact .of_next run ((s.onlyPort_modHp h _).modHp (fun p => trains p s.now))

theorem Runs.perstNDeasserted_early (hph : s.rd .a SVC.SVC_STATE.PHASE < 4) :
    Runs (.perstNDeasserted h) s (s.onlyPort h (fun p => { p with perst := false })) := by
  have run := State.exec_perstNDeasserted hp hpow hr
  rw [State.perstSampled, hpow, decide_eq_false (Nat.not_le.mpr hph)] at run
  exact .of_next run (s.onlyPort_modHp h _)

end

theorem Runs.perstNDeasserted_unpowered (hpow : s.svc.pwrgood = false) : Runs (.perstNDeasserted h) s (fun t => t = s) :=
  .of_next (congrArg Host.Outcome.next (if_pos (by simp [hpow]))) rfl

/-! ## Power states (17_power.md R531) -/

/-- A link enters or leaves L1. -/
def setL1 (p : HostPort) (one on : Bool) : HostPort := setPortLink p one { portLink p one with l1 := on }

theorem Runs.aspmL1Entry_up (hup : (portLink (s.hp h) one).up = true) :
    Runs (.aspmL1Entry h one) s (s.onlyPort h (fun p => setL1 p one true)) := by
  obtain ⟨port, alone⟩ := s.onlyPort_modHp h
    (fun p => let l := portLink p one; if l.up then setPortLink p one { l with l1 := true } else p)
  exact .of_next rfl ⟨port.trans (if_pos hup), alone⟩

theorem Runs.aspmL1Exit_ok (hl : (portLink (s.hp h) one).l1 = true) :
    Runs (.aspmL1Exit h one) s (s.onlyPort h (fun p => setL1 p one false)) :=
  .of_next (congrArg Host.Outcome.next (if_pos hl)) ((s.onlyPort_modHp h _).of_hps (State.wake_hps ..))

/-- A function enters or leaves D3hot. -/
def setD3 (p : HostPort) (f : Fin 256) (d3 : Bool) : HostPort :=
  { p with d3 := if d3 then setInsert p.d3 f.val else p.d3.filter (· != f.val) }

theorem mem_setD3 (p : HostPort) (f : Fin 256) (d3 : Bool) : f.val ∈ (setD3 p f d3).d3 ↔ d3 = true := by
  cases d3 with
  | true => simp [setD3, mem_setInsert]
  | false => simp [setD3]

theorem Runs.devicePowerStateWrite (s : State) (h : Fin 4) (f : Fin 256) (d3 : Bool) :
    Runs (.devicePowerStateWrite ⟨h, f⟩ d3) s (s.onlyPort h (fun p => setD3 p f d3)) := by
  refine .of_next rfl ((s.onlyPort_modHp h _).of_hps ?_)
  cases d3 with
  | true => rfl
  | false => exact State.wake_hps ..

/-! ## PTM (18_counters.md R560) -/

theorem Runs.ptmExchange_up (hw : tblWf s.regs = true) (host : W64) (hup : (s.hp h).link0.up = true) :
    Runs (.ptmExchange h host) s (fun t => t.rd (hpDie h) PCU.PTM_HOST.TIME = host.toNat ∧
      t.rd (hpDie h) PCU.PTM_FT.TIME = s.ftNow (hpDie h) % 2 ^ 64 ∧
      onlyFields [(hpDie h, PCU.PTM_HOST.TIME), (hpDie h, PCU.PTM_FT.TIME)] s t) :=
  .of_next (congrArg Host.Outcome.next (if_neg (by simp [hup])))
    ⟨State.rd_wrs 0 hw (hx := Nat.mod_eq_of_lt host.isLt), State.rd_wrs 1 hw,
      (State.writesIn_wrs s (by simp [keysOf])).onlyFields hw⟩

/-- Settles O25: each event changes one port, as the lemma of its command says. -/
theorem hostPortEvents : Obligations.HostPortEvents := by
  intro s h hi p cap alone
  refine ⟨fun n hp hn => ?_, fun n hn => ?_, fun one rate width flit hp hr hlost hat hl ht hm => ?_, fun one rate width flit hm => ?_,
    fun one hl => ?_, fun hp hpow hr => ⟨fun hlost hph => ?_, fun hph => ?_⟩, fun hpow => ?_, fun one hup => ?_, fun one hl => ?_,
    fun f d3 => ?_, fun host hup => ?_⟩
  · obtain ⟨port, rest⟩ := s.onlyPort_modHp h (fun p => { p with numVfs := n.toNat })
    exact .of_next (congrArg Host.Outcome.next (if_pos ⟨hp, hn⟩)) ⟨port, rest⟩
  · exact .of_next (congrArg Host.Outcome.next (if_neg (fun hle => Nat.not_le.mpr hn hle.2))) rfl
  · obtain ⟨t, run, port, rest⟩ := Runs.hostLinkUp_ok hp hr hlost hat hl ht hm
    exact ⟨t, run, port ▸ portLink_setLinkRoot .., port ▸ rootOn_setLinkRoot .., port ▸ portLink_setLinkRoot_not .., rest⟩
  · exact Runs.hostLinkUp_mode hm
  · obtain ⟨t, run, port, rest⟩ := Runs.hostLinkDown_ok hl
    refine ⟨t, run, ?_, port ▸ rootOn_setLinkRoot .., port ▸ portLink_setLinkRoot_not .., rest⟩
    rw [port, portLink_setLinkRoot]
    rfl
  · obtain ⟨t, run, port, rest⟩ := Runs.perstNDeasserted_trains hp hpow hr hlost hph
    exact ⟨t, run, by rw [port, trains], by rw [port, trains], by rw [port, trains], by rw [port, trains], rest⟩
  · obtain ⟨t, run, port, rest⟩ := Runs.perstNDeasserted_early hp hpow hr hph
    exact ⟨t, run, port, rest⟩
  · exact Runs.perstNDeasserted_unpowered hpow
  · obtain ⟨t, run, port, rest⟩ := Runs.aspmL1Entry_up hup
    exact ⟨t, run, by rw [port, setL1, portLink_setPortLink], port ▸ portLink_setPortLink_not .., rest⟩
  · obtain ⟨t, run, port, rest⟩ := Runs.aspmL1Exit_ok hl
    exact ⟨t, run, by rw [port, setL1, portLink_setPortLink], port ▸ portLink_setPortLink_not .., rest⟩
  · obtain ⟨t, run, port, rest⟩ := Runs.devicePowerStateWrite s h f d3
    exact ⟨t, run, port ▸ mem_setD3 .., rest⟩
  · exact Runs.ptmExchange_up hi.1 host hup

end Sys2Proof.Machine
end

section
/-! The hold engine (O23): a hold read that goes to memory at once comes to the engine, which gives the word, lets the read wait, or
returns busy (05_host_ports.md R146 to R150). -/

set_option Elab.async false

namespace Sys2Proof.Machine

variable {s t u : State} {f : Fn} {x : DevAccess} {o : BitVec 40} {a deadline len low q : Nat} {d : Die}

/-! ## Busy returns -/

/-- From `s` to `t` a function's hold read returns busy; memory and the waiters stand. -/
def State.saysBusy (s : State) (f : Fn) (low : Nat) (t : State) : Prop :=
  t.mem = s.mem ∧ t.waiters = s.waiters ∧ t.out = s.out ++ [.readReturn f (leBytes 8 (busyWord low)) false]

theorem State.saysBusy_busyReturn (s : State) (f : Fn) (low : Nat) : s.saysBusy f low (s.busyReturn f low) := by
  simp [State.saysBusy, State.busyReturn, State.holdReturn]

theorem State.saysBusy.of_left (h : t.saysBusy f low u) (hm : t.mem = s.mem) (hw : t.waiters = s.waiters) (ho : t.out = s.out) :
    s.saysBusy f low u := by
  obtain ⟨mem, waiters, out⟩ := h
  exact ⟨mem.trans hm, waiters.trans hw, out.trans (by rw [ho])⟩

theorem State.saysBusy.setHostQ (h : s.saysBusy f low t) (q : Tbl (List DevAccess)) : s.saysBusy f low (t.setHostQ q) := h

/-- A busy return may be counted where it was made, too. -/
theorem State.saysBusy_bump (s : State) (d : Die) (c : Fld) (f : Fn) (low : Nat) : s.saysBusy f low ((s.bump d c).busyReturn f low) :=
  (State.saysBusy_busyReturn ..).of_left (State.bump_mem ..) (State.bump_waiters ..) (State.bump_out ..)

/-! ## The engine -/

theorem State.mbyte_of_mem (h : t.mem = s.mem) (y : Nat) : t.mbyte y = s.mbyte y := by rw [State.mbyte, h, State.mbyte]

theorem State.mread_of_mem (h : t.mem = s.mem) (a n : Nat) : t.mread a n = s.mread a n :=
  State.mread_congr fun y _ _ => State.mbyte_of_mem h y

theorem State.mword_of_mem (h : t.mem = s.mem) (a : Nat) : t.mword a = s.mword a := by
  rw [State.mword, State.mread_of_mem h, State.mword]

/-- A word has room for one more waiter: it has less than 64, and its controller a free slot. -/
def State.holdRoom (s : State) (a : Nat) : Prop := (s.waiters.filter (fun w => w.addr == a)).length < 64 ∧ s.slotsFull a = false

/-- The number of acquisitions of a function so far. -/
def State.holdCount (s : State) (f : Fn) : Nat := (tget s.holdCounts f.id).getD 0

/-- A function acquires the word at `a` from `s` to `t`: its owner tag stands there, and its read returns 0. -/
structure State.acquired (s : State) (f : Fn) (a : Nat) (t : State) : Prop where
  tag : t.mread a 8 = leBytes 8 (ownerTag f (s.holdCount f))
  out : t.out = s.out ++ [.readReturn f (leBytes 8 0) false]
  count : tget t.holdCounts f.id = some ((s.holdCount f + 1) % 2 ^ 21)
  waiters : t.waiters = s.waiters
  others : ∀ y, (y < a ∨ a + 8 ≤ y) → t.mbyte y = s.mbyte y

/-- The next acquisition of a function has the next number. -/
def State.countHold (s : State) (f : Fn) : State := { s with holdCounts := tput s.holdCounts f.id ((s.holdCount f + 1) % 2 ^ 21) }

/-- The engine puts a tag into a word and answers the function's read with 0. -/
def State.tagWord (s : State) (f : Fn) (a : Nat) (tag : List Byte) : State :=
  (((s.countHold f).mstore a tag false).bump (s.memDie a) DMEM.HOLD_ACQUIRED.COUNT).holdReturn f 0

theorem State.acquire_eq (s : State) (f : Fn) (a : Nat) : s.acquire f a = s.tagWord f a (leBytes 8 (ownerTag f (s.holdCount f))) := rfl

section
variable (s : State) (f : Fn) (a : Nat) (tag : List Byte)

theorem State.tagWord_out : (s.tagWord f a tag).out = s.out ++ [.readReturn f (leBytes 8 0) false] := rfl
theorem State.tagWord_waiters : (s.tagWord f a tag).waiters = s.waiters := rfl
theorem State.tagWord_hostQ : (s.tagWord f a tag).hostQ = s.hostQ := rfl
theorem State.tagWord_holdCounts : (s.tagWord f a tag).holdCounts = (s.countHold f).holdCounts := rfl
theorem State.tagWord_mem : (s.tagWord f a tag).mem = ((s.countHold f).mstore a tag false).mem := rfl

end

theorem State.acquired_acquire (hm : Memory.wf s.mem = true) (f : Fn) (a : Nat) : s.acquired f a (s.acquire f a) := by
  rw [State.acquire_eq]
  generalize htag : leBytes 8 (ownerTag f (s.holdCount f)) = tag
  have len : tag.length = 8 := htag ▸ length_leBytes ..
  obtain ⟨-, bytes, others, -⟩ := State.stored_mstore (s := s.countHold f) hm a tag false
  rw [len] at bytes others
  have word := (State.mread_of_mem (s.tagWord_mem f a tag) a 8).trans bytes
  exact ⟨word.trans htag.symm, State.tagWord_out .., tget_tput_same .., State.tagWord_waiters ..,
    fun y hy => (State.mbyte_of_mem (State.tagWord_mem ..) y).trans (others y hy)⟩

section
variable (f : Fn) (deadline : Nat)

theorem State.holdServe_free (hon : s.holdOn (s.memDie a) = true) (h0 : s.mword a = 0) : s.holdServe f a deadline = s.acquire f a := by
  simp [State.holdServe, hon, h0]

theorem State.holdServe_wait (hon : s.holdOn (s.memDie a) = true) (h0 : s.mword a ≠ 0) (hroom : s.holdRoom a) :
    s.holdServe f a deadline = { s with waiters := s.waiters ++ [⟨a, f, deadline⟩] } := by
  obtain ⟨few, slot⟩ := hroom
  simp [State.holdServe, hon, h0, few, slot]

theorem State.holdServe_busy (h : s.holdOn (s.memDie a) = false ∨ (s.mword a ≠ 0 ∧ ¬ s.holdRoom a)) :
    s.holdServe f a deadline = (s.bump (s.memDie a) DMEM.HOLD_REFUSED.COUNT).busyReturn f (s.mword a) := by
  unfold State.holdServe
  rcases h with off | ⟨h0, full⟩
  · exact if_pos (by simp [off])
  · have noRoom : 64 ≤ (s.waiters.filter (fun w => w.addr == a)).length ∨ s.slotsFull a = true := by
      by_cases few : (s.waiters.filter (fun w => w.addr == a)).length < 64
      · exact .inr (Bool.eq_true_of_not_eq_false fun slot => full ⟨few, slot⟩)
      · exact .inl (Nat.le_of_not_lt few)
    simp only [if_neg h0, if_pos noRoom, ite_self]

theorem State.holdServe_hostQ (s : State) (a : Nat) : (s.holdServe f a deadline).hostQ = s.hostQ := by
  have busy : ((s.bump (s.memDie a) DMEM.HOLD_REFUSED.COUNT).busyReturn f (s.mword a)).hostQ = s.hostQ := by
    simp [State.busyReturn, State.holdReturn]
  unfold State.holdServe
  dsimp only
  split
  · exact busy
  · split
    · exact State.tagWord_hostQ ..
    · split
      · exact busy
      · rfl

end

/-! ## The way to the engine -/

/-- A hold read whose line is free comes to the engine when its turn is, and ends there. -/
theorem State.hostAccess_hold (hturn : s.inTurn x) (hf : x.fn = some f) (hk : x.kind = .hold deadline) (hfree : s.lineFree x.addr true) :
    ∃ q q', s.hostAccess x = ((s.setHostQ q).holdServe f x.addr deadline).setHostQ q' := by
  obtain ⟨q, run, last⟩ := State.hostAccess_inTurn hturn
  have writes : devWrites x = true := by simp [devWrites, hk]
  have perform : (s.setHostQ q).devPerform x = ((s.setHostQ q).holdServe f x.addr deadline, none) := by
    simp only [State.devPerform, hk, hf]
  have free : (s.setHostQ q).lineFree x.addr (devWrites x) := writes ▸ hfree
  obtain ⟨n, hn⟩ := Nat.exists_eq_succ_of_ne_zero (Nat.ne_of_gt ((s.setHostQ q).devFuel_lines x).1)
  have served : s.hostAccess x = (((s.setHostQ q).holdServe f x.addr deadline).devEnd x).1 := by
    rw [run, State.devAccess, State.devGo, hn,
      State.devRun_last free perform ((State.devEnd_congr (State.holdServe_hostQ ..) x).trans last)]
  exact ⟨q, _, served.trans (State.devEnd_eq ..)⟩

/-- Of a hold read on its way to the engine, only counters and the accesses that wait change. -/
def State.onWay (s : State) (r : Tbl Nat) (q : Tbl (List DevAccess)) : State := { s with regs := r, hostQ := q }

/-- The counts of what a host port moves are no register of the DMEM. -/
theorem State.holdOn_hpCount (hw : tblWf s.regs = true) (h : Fin 4) {m : Nat} (hm : m < 4) (n : Nat) (d : Die) :
    (s.hpCount h m n).holdOn d = s.holdOn d := by
  have base (d : Die) : d.base = 0 ∨ d.base = 0x4000000 := by cases d; exacts [.inl rfl, .inr rfl]
  have apart : fkey d (HDR.STATUS.ENABLED 0x3E00000) ≠ fkey (hpDie h) (PCU.HP_CTR.COUNT (h.val % 2 * 4 + m)) := by
    have := base d
    have := base (hpDie h)
    simp only [fkey, HDR.STATUS.ENABLED, PCU.HP_CTR.COUNT]
    omega
  rw [State.holdOn, State.on, State.hpCount, State.countBy, State.rd_wr_other _ _ hw apart]
  rfl

/-- A hold read of an aligned word on a free line comes to the engine. -/
theorem State.exec_holdRead (hi : s.inv) (ha : s.barAddr f o.toNat 8 .hold = some a) (hal : o.toNat % 8 = 0) (hfree : s.lineFree a true)
    (hq : tget s.hostQ f.id = none) : ∃ r q q', (∀ d, (s.onWay r q).holdOn d = s.holdOn d) ∧
      exec (.holdRead f o 8) s = .next (((s.onWay r q).holdServe f a (s.now + s.holdTimeout f)).setHostQ q') := by
  have run : exec (.holdRead f o 8) s =
      .next ((s.hpCount f.hp 2 8).barAccess f false a (.hold (s.now + s.holdTimeout f))) := by
    show execHoldRead f o 8 s = _
    simp [execHoldRead, ha, hal]
  have arrives := s.arrives_hpCount f.hp (by decide : 2 < 4) 8
  have on (d : Die) := State.holdOn_hpCount hi.1 f.hp (by decide : 2 < 4) 8 d
  generalize s.hpCount f.hp 2 8 = u at run arrives on
  obtain ⟨q, q', access⟩ := State.hostAccess_hold
    (arrives.inTurn (State.inTurn_ordered (ro := false) (.inr hq) (q := (u.polderOf f).getD 0) (a := a) (k := .hold (s.now + s.holdTimeout f))))
    rfl rfl (arrives.lineFree hi.1 hfree)
  have way : u.setHostQ q = s.onWay u.regs q := by rw [arrives.frame, List.append_nil]; rfl
  rw [State.barAccess_eq, access, way] at run
  exact ⟨u.regs, q, q', fun d => on d, run⟩

/-! ## HOLD_READ -/

section
variable (hi : s.inv) (ha : s.barAddr f o.toNat 8 .hold = some a) (hal : o.toNat % 8 = 0) (hfree : s.lineFree a true)
  (hq : tget s.hostQ f.id = none)
include hi ha hal hfree hq

theorem Runs.holdRead_acquires (hon : s.holdOn (s.memDie a) = true) (h0 : s.mword a = 0) : Runs (.holdRead f o 8) s (s.acquired f a) := by
  obtain ⟨r, q, q', on, run⟩ := State.exec_holdRead hi ha hal hfree hq
  rw [State.holdServe_free f _ ((on _).trans hon) h0] at run
  have got := (s.onWay r q).acquired_acquire hi.2 f a
  exact .of_next run ⟨(State.mread_of_mem rfl ..).trans got.tag, got.out, got.count, got.waiters, got.others⟩

theorem Runs.holdRead_waits (hon : s.holdOn (s.memDie a) = true) (h0 : s.mword a ≠ 0) (hroom : s.holdRoom a) :
    Runs (.holdRead f o 8) s (fun t => t.waiters = s.waiters ++ [⟨a, f, s.now + s.holdTimeout f⟩] ∧ t.mem = s.mem ∧ t.out = s.out) := by
  obtain ⟨r, q, q', on, run⟩ := State.exec_holdRead hi ha hal hfree hq
  rw [State.holdServe_wait f _ ((on _).trans hon) h0 hroom] at run
  exact .of_next run ⟨rfl, rfl, rfl⟩

theorem Runs.holdRead_busy (h : s.holdOn (s.memDie a) = false ∨ (s.mword a ≠ 0 ∧ ¬ s.holdRoom a)) :
    Runs (.holdRead f o 8) s (s.saysBusy f (s.mword a)) := by
  obtain ⟨r, q, q', on, run⟩ := State.exec_holdRead hi ha hal hfree hq
  rw [State.holdServe_busy f _ (h.imp_left (on _).trans)] at run
  have low : (s.onWay r q).mword a = s.mword a := State.mword_of_mem rfl a
  rw [low] at run
  have busy := (s.onWay r q).saysBusy_bump ((s.onWay r q).memDie a) DMEM.HOLD_REFUSED.COUNT f (s.mword a)
  exact .of_next run ((busy.of_left rfl rfl rfl).setHostQ q')

end

/-- A hold read of another size or alignment returns busy with 0 (R145). -/
theorem Runs.holdRead_misfit (ha : s.barAddr f o.toNat (max len 1) .hold = some a) (h : len ≠ 8 ∨ o.toNat % 8 ≠ 0) :
    Runs (.holdRead f o len) s (s.saysBusy f 0) := by
  have run : exec (.holdRead f o len) s = .next ((s.bump (s.memDie a) DMEM.HOLD_REFUSED.COUNT).busyReturn f 0) := by
    show execHoldRead f o len s = _
    simp only [execHoldRead, ha, if_pos h]
  exact .of_next run (State.saysBusy_bump ..)

/-! ## HOLD_TIMEOUT and HOLD_RECALL_TIMER -/

theorem Runs.holdTimeout_due {w : Waiter}
    (h : s.waiters.find? (fun w => w.fn == f && w.addr == o.toNat && decide (w.deadline ≤ s.now)) = some w) :
    Runs (.holdTimeout f o) s (fun t => t.waiters = s.waiters.erase w ∧ t.mem = s.mem ∧
      t.out = s.out ++ [.readReturn f (leBytes 8 (busyWord (s.mword w.addr))) false]) := by
  have run : exec (.holdTimeout f o) s = .next ((({ s with waiters := s.waiters.erase w } : State).bump (s.memDie w.addr)
      DMEM.HOLD_TIMEOUTS.COUNT).busyReturn f (s.mword w.addr)) := by
    show execHoldTimeout f o s = _
    simp only [execHoldTimeout, h]
  obtain ⟨mem, waiters, out⟩ := State.saysBusy_bump { s with waiters := s.waiters.erase w } (s.memDie w.addr) DMEM.HOLD_TIMEOUTS.COUNT f
    (s.mword w.addr)
  exact .of_next run ⟨waiters, mem, out⟩

section
variable {e : SfEntry} {h : Fin 4} (he : tget (s.hag (s.memDie o.toNat)).filter (o.toNat / 64) = some e)
include he

theorem Runs.holdRecallTimer_recalls (ho : e.owner = some h) (hw : s.waiters.any (fun w => w.addr / 64 == o.toNat / 64) = true)
    (hk : tget (s.hag (s.memDie o.toNat)).trackers (o.toNat / 64) = none) (hroom : (s.hag (s.memDie o.toNat)).trackers.length < 1024)
    (hd : dwelling s e [h] = false) (hl : s.recalledLately (o.toNat / 64) = false) : Runs (.holdRecallTimer o) s (fun t =>
      t.mem = s.mem ∧ t.out = s.out ++ [.bisnp h (o.toNat / 64) true] ∧ tget t.recallAt (o.toNat / 64) = some s.now) := by
  have room : ¬ hagTrackers ≤ (s.hag (s.memDie o.toNat)).trackers.length := Nat.not_le.mpr hroom
  have run : exec (.holdRecallTimer o) s = .next ((({ s with recallAt := tput s.recallAt (o.toNat / 64) s.now } : State).snoop
      (o.toNat / 64) [h] true).modHag (s.memDie o.toNat) (fun g => { g with
        trackers := tput g.trackers (o.toNat / 64) { trackerNew with snoops := [h], inv := true } })) := by
    show execHoldRecallTimer o s = _
    simp only [execHoldRecallTimer, he, ho, Option.toList]
    exact congrArg Host.Outcome.next (if_neg (by simp [hw, hl, hk, hd, room]))
  exact .of_next run ⟨rfl, rfl, tget_tput_same ..⟩

theorem Runs.holdRecallTimer_lately (hl : s.recalledLately (o.toNat / 64) = true) : Runs (.holdRecallTimer o) s (fun t => t = s) := by
  have run : exec (.holdRecallTimer o) s = .next s := by
    show execHoldRecallTimer o s = _
    simp only [execHoldRecallTimer, he]
    exact congrArg Host.Outcome.next (if_pos (.inr (.inl hl)))
  exact .of_next run rfl

end

/-- Settles O23: a hold read that passes its checks comes to the engine, which looks at the word, its waiters and its controller alone. -/
theorem holdReadsAcquireOrWait : Obligations.HoldReadsAcquireOrWait := by
  intro s f o a hi d count busy
  refine ⟨fun ha hal htr hrec hmem hawake hoff hq => ?_, fun len ha hlen => Runs.holdRead_misfit ha hlen,
    fun w hw => Runs.holdTimeout_due hw, fun e h he ho hw hk hroom hd => ⟨fun hl => ?_, fun hl => Runs.holdRecallTimer_lately he hl⟩⟩
  · have free : s.lineFree a true := ⟨htr, hrec, hmem, hawake, hoff⟩
    refine ⟨fun hon h0 => ?_, fun hon h0 hroom => Runs.holdRead_waits hi ha hal free hq hon h0 hroom,
      fun h => Runs.holdRead_busy hi ha hal free hq h⟩
    obtain ⟨t, run, got⟩ := Runs.holdRead_acquires hi ha hal free hq hon h0
    exact ⟨t, run, got.tag, got.out, got.count, got.waiters, got.others⟩
  · exact Runs.holdRecallTimer_recalls he ho hw hk hroom hd hl

end Sys2Proof.Machine
end

section
/-! The home agent (O24): what the tracker of a line does with a request of a host port, a writeback, a response to a back-invalidation and
a waiting access of the device (05_host_ports.md R151 to R153). -/

set_option Elab.async false

namespace Sys2Proof.Machine

variable {s t u : State} {h : Fin 4} {o : BitVec 40} {d : Die} {line n : Nat} {k : Tracker} {e : SfEntry} {r : HagReq} {x : DevAccess}
  {l : List (Fin 4)} {inv own p : Bool} {w : DevWork} {more works : List DevWork}

/-! ## The home agent of a die -/

theorem State.hag_modHag (s : State) (d : Die) (f : Hag → Hag) : (s.modHag d f).hag d = f (s.hag d) := by
  rw [State.hag, State.modHag, State.die_modDie_same, State.hag]

theorem State.hag_emit (s : State) (o : Output) (d : Die) : (s.emit o).hag d = s.hag d := rfl
theorem State.hag_mstore (s : State) (a : Nat) (bs : List Byte) (p : Bool) (d : Die) : (s.mstore a bs p).hag d = s.hag d := rfl

theorem State.modHag_self {f : Hag → Hag} (h : f (s.hag d) = s.hag d) : s.modHag d f = s := by
  have same : s.dies.set d { s.dies.get d with hag := f (s.hag d) } = s.dies := by rw [h]; cases d <;> rfl
  exact congrArg (fun p => { s with dies := p }) same

/-- The line has the tracker `k` in the HAG of a die. -/
def State.tracking (s : State) (d : Die) (line : Nat) (k : Tracker) : State :=
  s.modHag d (fun g => { g with trackers := tput g.trackers line k })

theorem State.hag_tracking (s : State) (d : Die) (line : Nat) (k : Tracker) :
    (s.tracking d line k).hag d = { s.hag d with trackers := tput (s.hag d).trackers line k } := State.hag_modHag ..

theorem State.tracker_tracking (s : State) (d : Die) (line : Nat) (k : Tracker) :
    tget ((s.tracking d line k).hag d).trackers line = some k := by
  rw [State.hag_tracking, tget_tput_same]

/-- The tracker of a new request. -/
def requestTracker (r : HagReq) : Tracker := { trackerNew with reqs := [r] }

/-! ## Back-invalidations -/

/-- Snoops are counted and sent, one to each port. -/
theorem State.snoop_frame (s : State) (line : Nat) (l : List (Fin 4)) (inv : Bool) : s.snoop line l inv =
    { s with regs := (s.snoop line l inv).regs, out := s.out ++ l.map (fun p => .bisnp p line inv) } := by
  induction l generalizing s with
  | nil => simp [State.snoop]
  | cons q l ih =>
    have step : s.snoop line (q :: l) inv =
      ((s.emit (.bisnp q line inv)).bump (s.memDie (line * 64)) HAG.BISNP_SENT.COUNT).snoop line l inv := rfl
    rw [step, ih]
    simp [State.bump, State.bumpBy, State.wr, State.emit]

/-- The tracker's snoops have gone out, and it waits for their responses. -/
def State.recalled (s : State) (d : Die) (line : Nat) (k : Tracker) (l : List (Fin 4)) (inv : Bool) : State :=
  (s.snoop line l inv).tracking d line { k with snoops := l, inv := inv }

theorem State.hagRecall_now (hd : dwelling s e l = false) : s.hagRecall line k e l inv =
    (s.recalled (s.memDie (line * 64)) line k l inv, []) := by
  rw [State.hagRecall, if_neg (by simp [hd])]
  rfl

theorem State.recalled_out (s : State) (d : Die) (line : Nat) (k : Tracker) (l : List (Fin 4)) (inv : Bool) :
    (s.recalled d line k l inv).out = s.out ++ l.map (fun p => .bisnp p line inv) := by
  rw [State.recalled, State.snoop_frame]
  rfl

theorem State.recalled_mem (s : State) (d : Die) (line : Nat) (k : Tracker) (l : List (Fin 4)) (inv : Bool) :
    (s.recalled d line k l inv).mem = s.mem := by
  rw [State.recalled, State.snoop_frame]
  rfl

theorem State.recalled_hag (s : State) (d : Die) (line : Nat) (k : Tracker) (l : List (Fin 4)) (inv : Bool) :
    (s.recalled d line k l inv).hag d =
      { s.hag d with trackers := tput (s.hag d).trackers line { k with snoops := l, inv := inv } } := by
  rw [State.recalled, State.hag_tracking, State.snoop_frame]
  rfl

/-! ## What a tracker does -/

theorem State.hagStep_untracked (hk : tget (s.hag (s.memDie (line * 64))).trackers line = none) : s.hagStep line = (s, []) := by
  simp only [State.hagStep, hk]

section
variable (hk : tget (s.hag (s.memDie (line * 64))).trackers line = some k)
include hk

/-- A tracker with a snoop that is not answered waits. -/
theorem State.hagStep_snooping (hs : k.snoops ≠ []) : s.hagStep line = (s, []) := by
  simp [State.hagStep, hk, hs]

theorem State.hagStep_idle (hidle : trackerIdle k = true) : s.hagStep line = s.hagFree line k := by
  have snoops : k.snoops = [] := by
    simp only [trackerIdle, Bool.and_eq_true, List.isEmpty_iff] at hidle
    exact hidle.1.2
  simp [State.hagStep, hk, snoops, hidle]

/-- A waiting access of the device recalls the copies that stand in its way. -/
theorem State.hagStep_dev (hs : k.snoops = []) (hr : k.reqs = []) (hx : k.dev = [x])
    (he : tget (s.hag (s.memDie (line * 64))).filter line = some e) (hl : recallList e (devWrites x) none ≠ []) :
    s.hagStep line = s.hagRecall line k e (recallList e (devWrites x) none) (devWrites x) := by
  simp [State.hagStep, hk, hs, hr, hx, he, hl, trackerIdle]

end

/-- One request is picked wherever the rotation stands. -/
theorem arbWinner_one (r : HagReq) (ptr : Nat) : arbWinner [r] ptr = some r := by
  have found (k : Nat) : [r].find? (fun r => r.hp.val == (ptr + k) % 4) = if r.hp.val = (ptr + k) % 4 then some r else none := by
    simp [List.find?_singleton]
  simp only [arbWinner, found]
  by_cases h0 : r.hp.val = (ptr + 0) % 4
  · rw [if_pos h0]; rfl
  by_cases h1 : r.hp.val = (ptr + 1) % 4
  · rw [if_neg h0, if_pos h1]; rfl
  by_cases h2 : r.hp.val = (ptr + 2) % 4
  · rw [if_neg h0, if_neg h1, if_pos h2]; rfl
  · rw [if_neg h0, if_neg h1, if_neg h2, if_pos (by omega)]; rfl

section
variable (hk : tget (s.hag (s.memDie (line * 64))).trackers line = some (requestTracker r))
  (he : (tget (s.hag (s.memDie (line * 64))).filter line).getD ⟨none, [], 0, 0⟩ = e)
include hk he

/-- A request recalls the copies of the other ports that stand in its way. -/
theorem State.hagStep_request (hl : recallList e r.own (some r.hp) ≠ []) :
    s.hagStep line = s.hagRecall line (requestTracker r) e (recallList e r.own (some r.hp)) r.own := by
  simp [State.hagStep, hk, he, hl, requestTracker, trackerNew, trackerIdle, arbWinner_one]

theorem State.hagStep_grant (hl : recallList e r.own (some r.hp) = []) (hroom : sfFull (s.hag (s.memDie (line * 64))).filter line = false) :
    s.hagStep line = (s.hagGrant line r (requestTracker r), [.line line]) := by
  simp [State.hagStep, hk, he, hl, hroom, requestTracker, trackerNew, trackerIdle, arbWinner_one]

end

theorem State.hagStart_new (hk : tget (s.hag (s.memDie (line * 64))).trackers line = none)
    (hroom : (s.hag (s.memDie (line * 64))).trackers.length < 1024) :
    s.hagStart line r = (s.tracking (s.memDie (line * 64)) line (requestTracker r), [.line line]) := by
  have room : ¬ hagTrackers ≤ (s.hag (s.memDie (line * 64))).trackers.length := Nat.not_le.mpr hroom
  simp only [State.hagStart, hk, if_neg room]
  rfl

/-! ## Running the memory system -/

theorem State.devGo_fuel (s : State) (n : Nat) (l : List DevWork) : ∃ m, s.devGo n l = State.devRun (m + 3) l s :=
  ⟨s.devFuel n - 3, by rw [State.devGo, Nat.sub_add_cancel ((Nat.le_add_left ..).trans (s.devFuel_ge n))]⟩

theorem State.devRun_line (h : s.hagStep line = (t, more)) (n : Nat) (l : List DevWork) :
    State.devRun (n + 1) (.line line :: l) s = State.devRun n (more ++ l) t := by
  simp only [State.devRun, State.devDo, h]

theorem State.devRun_request (h : s.hagStart line r = (t, more)) (n : Nat) (l : List DevWork) :
    State.devRun (n + 1) (.request line r :: l) s = State.devRun n (more ++ l) t := by
  simp only [State.devRun, State.devDo, h]

/-- A tracker that acts once and leaves nothing to do. -/
theorem State.hagRun_once (h : s.hagStep line = (t, [])) : s.hagRun line = t := by
  obtain ⟨m, fuel⟩ := s.devGo_fuel 2 [.line line]
  rw [State.hagRun, fuel, State.devRun_line h, List.append_nil, State.devRun_nil]

/-- With no grant that waits for room, nothing is tried again. -/
theorem State.hagRetry_none (h : (s.hag d).waiting = []) : s.hagRetry d = s := by
  have same : s.modHag d (fun g => { g with waiting := [] }) = s := State.modHag_self (by rw [← h])
  rw [State.hagRetry, same, h, State.devGo, List.map_nil, State.devRun_nil]

/-! ## Requests (R152) -/

/-- From `s` to `t` the line is granted to a port and recorded in the snoop filter. -/
structure State.lineGranted (s : State) (h : Fin 4) (line : Nat) (own : Bool) (t : State) : Prop where
  out : t.out = s.out ++ [.memData h line own (s.mread (line * 64) 64) (s.mpoison (line * 64) 64)]
  filter : (t.hag (s.memDie (line * 64))).filter = sfGrant (s.hag (s.memDie (line * 64))).filter line h own s.now
  mem : t.mem = s.mem

theorem State.memDie_of_part (h : t.part = s.part) (a : Nat) : t.memDie a = s.memDie a := by rw [State.memDie, h, State.memDie]

section
variable (s : State) (line : Nat) (r : HagReq)

/-- A grant moves the rotation on, and records how long its request waited. -/
def State.grantTurn : State :=
  let d := s.memDie (line * 64)
  (s.wr d HAG.ARB_POINTER.PTR ((s.rd d HAG.ARB_POINTER.PTR + 1) % 4)).atLeast d HAG.MAX_WAIT.TRANSFERS (min r.waited 3)

theorem State.grantTurn_part : (s.grantTurn line r).part = s.part := by simp [State.grantTurn]
theorem State.grantTurn_now : (s.grantTurn line r).now = s.now := by simp [State.grantTurn]
theorem State.grantTurn_out : (s.grantTurn line r).out = s.out := by simp [State.grantTurn]
theorem State.grantTurn_mem : (s.grantTurn line r).mem = s.mem := by simp [State.grantTurn]
theorem State.grantTurn_poison : (s.grantTurn line r).poison = s.poison := by simp [State.grantTurn]
theorem State.grantTurn_hag (d : Die) : (s.grantTurn line r).hag d = s.hag d := by simp [State.grantTurn, State.hag, State.die]

/-- The home agent after a grant to the line's one request: its tracker has nothing left to do. -/
def hagGranted (line : Nat) (r : HagReq) (now : Nat) (g : Hag) : Hag :=
  { g with
    filter := sfGrant g.filter line r.hp r.own now
    trackers := tput g.trackers line { trackerNew with devTurn := true } }

theorem State.hagGrant_eq : s.hagGrant line r (requestTracker r) =
    ((s.grantTurn line r).emit (.memData r.hp line r.own (s.mread (line * 64) 64) (s.mpoison (line * 64) 64))).modHag
      (s.memDie (line * 64)) (hagGranted line r s.now) := by
  have served : ([r].erase r).map (fun x => { x with waited := x.waited + b2n r.own }) = [] := by simp
  have bytes := State.mread_of_mem (s.grantTurn_mem line r) (line * 64) 64
  have poison : (s.grantTurn line r).mpoison (line * 64) 64 = s.mpoison (line * 64) 64 := by
    rw [State.mpoison, State.grantTurn_poison, State.mpoison]
  rw [← bytes, ← poison, ← s.grantTurn_now line r]
  unfold State.hagGrant
  simp only [requestTracker, trackerNew, served]
  rfl

theorem State.lineGranted_hagGrant : s.lineGranted r.hp line r.own (s.hagGrant line r (requestTracker r)) := by
  rw [State.hagGrant_eq]
  refine ⟨?_, ?_, ?_⟩
  · exact congrArg (· ++ [_]) (s.grantTurn_out line r)
  · rw [State.hag_modHag, State.hag_emit, State.grantTurn_hag]
    rfl
  · exact s.grantTurn_mem line r

theorem State.memDie_hagGrant (a : Nat) : (s.hagGrant line r (requestTracker r)).memDie a = s.memDie a := by
  rw [State.hagGrant_eq]
  exact State.memDie_of_part (s.grantTurn_part line r) a

theorem State.hag_hagGrant : (s.hagGrant line r (requestTracker r)).hag (s.memDie (line * 64)) =
    hagGranted line r s.now (s.hag (s.memDie (line * 64))) := by
  rw [State.hagGrant_eq, State.hag_modHag, State.hag_emit, State.grantTurn_hag]

end

/-- The last tracker in hand is freed, and nothing waited for it. -/
theorem State.hagFree_last (hv : k.evictFor = none) (hin : (s.hag (s.memDie (line * 64))).input = [])
    (hw : (s.hag (s.memDie (line * 64))).waiting = []) :
    s.hagFree line k = (s.modHag (s.memDie (line * 64)) (fun g => { g with
      trackers := tdel g.trackers line, input := g.input.tail, waiting := [] }), []) := by
  simp [State.hagFree, hv, hin, hw]

section
variable (hk : tget (s.hag (s.memDie (line * 64))).trackers line = none)
  (hroom : (s.hag (s.memDie (line * 64))).trackers.length < 1024)
include hk hroom

theorem State.hagRequest_run (h : Fin 4) (own : Bool) : ∃ m, s.hagRequest h line own =
    State.devRun (m + 2) [.line line] (s.tracking (s.memDie (line * 64)) line (requestTracker ⟨h, own, 0⟩)) := by
  obtain ⟨m, fuel⟩ := s.devGo_fuel 3 [.request line ⟨h, own, 0⟩]
  exact ⟨m, fuel.trans (State.devRun_request (State.hagStart_new hk hroom) ..)⟩

variable (he : (tget (s.hag (s.memDie (line * 64))).filter line).getD ⟨none, [], 0, 0⟩ = e)
include he

theorem State.hagRequest_grants (hl : recallList e own (some h) = []) (hfull : sfFull (s.hag (s.memDie (line * 64))).filter line = false)
    (hin : (s.hag (s.memDie (line * 64))).input = []) (hw : (s.hag (s.memDie (line * 64))).waiting = []) :
    s.lineGranted h line own (s.hagRequest h line own) := by
  obtain ⟨m, run⟩ := State.hagRequest_run hk hroom h own
  generalize hu : s.tracking (s.memDie (line * 64)) line (requestTracker ⟨h, own, 0⟩) = u at run
  have hag : u.hag (u.memDie (line * 64)) = { s.hag (s.memDie (line * 64)) with
      trackers := tput (s.hag (s.memDie (line * 64))).trackers line (requestTracker ⟨h, own, 0⟩) } := by
    rw [← hu]; exact State.hag_tracking ..
  have grant : u.hagStep line = (u.hagGrant line ⟨h, own, 0⟩ (requestTracker ⟨h, own, 0⟩), [.line line]) :=
    State.hagStep_grant (by rw [hag, tget_tput_same]) (by rw [hag]; exact he) hl (by rw [hag]; exact hfull)
  have granted := u.lineGranted_hagGrant line ⟨h, own, 0⟩
  have place := u.memDie_hagGrant line ⟨h, own, 0⟩ (line * 64)
  have idle := (congrArg _ place).trans (u.hag_hagGrant line ⟨h, own, 0⟩)
  generalize u.hagGrant line ⟨h, own, 0⟩ (requestTracker ⟨h, own, 0⟩) = v at grant granted idle place
  have free : v.hagStep line = (v.modHag (v.memDie (line * 64)) (fun g => { g with
      trackers := tdel g.trackers line, input := g.input.tail, waiting := [] }), []) :=
    (State.hagStep_idle (by rw [idle]; exact tget_tput_same ..) rfl).trans (State.hagFree_last rfl
      (by rw [idle]; exact (congrArg Hag.input hag).trans hin) (by rw [idle]; exact (congrArg Hag.waiting hag).trans hw))
  rw [run, State.devRun_line grant, List.append_nil, State.devRun_line free, List.append_nil, State.devRun_nil]
  have same : u.memDie (line * 64) = s.memDie (line * 64) := by rw [← hu]; rfl
  refine ⟨granted.out.trans (by rw [← hu]; rfl), ?_, granted.mem.trans (by rw [← hu]; rfl)⟩
  rw [← same, ← place, State.hag_modHag, place]
  exact granted.filter.trans (by rw [hag, ← hu]; rfl)

theorem State.hagRequest_recalls (hl : recallList e own (some h) ≠ []) (hd : dwelling s e (recallList e own (some h)) = false) :
    s.hagRequest h line own = (s.tracking (s.memDie (line * 64)) line (requestTracker ⟨h, own, 0⟩)).recalled (s.memDie (line * 64)) line
      (requestTracker ⟨h, own, 0⟩) (recallList e own (some h)) own := by
  obtain ⟨m, run⟩ := State.hagRequest_run hk hroom h own
  have hag : (s.tracking (s.memDie (line * 64)) line (requestTracker ⟨h, own, 0⟩)).hag (s.memDie (line * 64)) = _ := State.hag_tracking ..
  have asks := State.hagStep_request (s := s.tracking (s.memDie (line * 64)) line (requestTracker ⟨h, own, 0⟩))
    (line := line) (r := ⟨h, own, 0⟩) (e := e) (State.tracker_tracking ..)
    ((congrArg (fun g => (tget g.filter line).getD _) hag).trans he) hl
  rw [run, State.devRun_line (asks.trans (State.hagRecall_now hd)), List.append_nil, State.devRun_nil]
  rfl

end

/-! ## Writebacks and responses (R151 to R153) -/

/-- A writeback is merged, clears its writer and is answered. -/
theorem State.writeback_merges {data : List Byte} (hk : tget (s.hag (s.memDie (line * 64))).trackers line = none)
    (hw : (s.hag (s.memDie (line * 64))).waiting = []) (hu : s.unheld (line * 64) data.length) :
    s.writeback h line data p = ((s.mstore (line * 64) data p).modHag (s.memDie (line * 64)) (fun g => { g with
      filter := sfClear g.filter line h false })).emit (.memCmp h line) := by
  unfold State.writeback
  dsimp only
  rw [State.mwrite_of_unheld hu]
  generalize hv : (((s.mstore (line * 64) data p).modHag (s.memDie (line * 64)) (fun g => { g with
    filter := sfClear g.filter line h false })).emit (.memCmp h line)) = v
  have hag : v.hag (s.memDie (line * 64)) = { s.hag (s.memDie (line * 64)) with
      filter := sfClear (s.hag (s.memDie (line * 64))).filter line h false } := by
    rw [← hv, State.hag_emit, State.hag_modHag, State.hag_mstore]
  have place : v.memDie (line * 64) = s.memDie (line * 64) := by rw [← hv]; rfl
  have rest : v.hagStep line = (v, []) := State.hagStep_untracked (by rw [place, hag]; exact hk)
  rw [State.hagRun_once rest, State.hagRetry_none (by rw [hag]; exact hw)]

/-- A response clears its port from the filter, and the tracker waits for the other ports. -/
theorem State.birsp_waits (hk : tget (s.hag (s.memDie (line * 64))).trackers line = some k) (hh : h ∈ k.snoops)
    (hmore : k.snoops.erase h ≠ []) : s.birsp h line = s.modHag (s.memDie (line * 64)) (fun g => { g with
      filter := sfClear g.filter line h (!k.inv), trackers := tput g.trackers line { k with snoops := k.snoops.erase h } }) := by
  simp only [State.birsp, hk, List.contains_iff_mem.mpr hh]
  refine State.hagRun_once (State.hagStep_snooping (k := { k with snoops := k.snoops.erase h }) ?_ hmore)
  show tget (State.hag (State.modHag s _ _) (s.memDie (line * 64))).trackers line = _
  rw [State.hag_modHag, tget_tput_same]

/-! ## The commands -/

/-- An address that software may use fits the addresses of a host. -/
theorem State.usable_lt {a n : Nat} (h : s.usable a n = true) : a + n - 1 < 2 ^ 40 := by
  have span : 2 * dieSpan s.part ≤ 2 ^ 40 := by cases s.part <;> decide
  simp only [State.usable, State.memPresent, Bool.and_eq_true, decide_eq_true_eq] at h
  omega

section
variable {a : Nat} (hline : line * 64 = a)
include hline

section
variable (hc : s.coherent h = true) (ha : s.hdmAddr (o.toNat / 64 * 64) = a) (hus : s.usable a 64 = true)
include hc ha hus

theorem State.cxlLine_acts (act : Nat → State → State) : s.cxlLine h o act = act line s := by
  have number : a / 64 = line := by rw [← hline, Nat.mul_div_cancel _ (by decide)]
  simp [State.cxlLine, hc, ha, hus, number]

/-- A request of a host port, for its own or for sharing, comes to the line. -/
theorem State.exec_request (own : Bool) : exec (if own then Instr.memrdOwnership h o else .memrdShared h o) s =
    .next (s.hagRequest h line own) := by
  cases own with
  | true => exact congrArg Host.Outcome.next (State.cxlLine_acts hline hc ha hus (fun l s => s.hagRequest h l true))
  | false => exact congrArg Host.Outcome.next (State.cxlLine_acts hline hc ha hus (fun l s => s.hagRequest h l false))

section
variable (hk : tget (s.hag (s.memDie a)).trackers line = none) (hroom : (s.hag (s.memDie a)).trackers.length < 1024)
  (he : (tget (s.hag (s.memDie a)).filter line).getD ⟨none, [], 0, 0⟩ = e)
include hk hroom he

theorem Runs.memrd_granted (hl : recallList e own (some h) = []) (hfull : sfFull (s.hag (s.memDie a)).filter line = false)
    (hin : (s.hag (s.memDie a)).input = []) (hw : (s.hag (s.memDie a)).waiting = []) :
    Runs (if own then .memrdOwnership h o else .memrdShared h o) s (fun t =>
      t.out = s.out ++ [.memData h line own (s.mread a 64) (s.mpoison a 64)] ∧
        (t.hag (s.memDie a)).filter = sfGrant (s.hag (s.memDie a)).filter line h own s.now ∧ t.mem = s.mem) := by
  have run := State.exec_request hline hc ha hus own
  subst hline
  obtain ⟨out, filter, mem⟩ := State.hagRequest_grants hk hroom he hl hfull hin hw
  exact .of_next run ⟨out, filter, mem⟩

theorem Runs.memrd_recalls (hl : recallList e own (some h) ≠ []) (hd : dwelling s e (recallList e own (some h)) = false) :
    Runs (if own then .memrdOwnership h o else .memrdShared h o) s (fun t =>
      t.out = s.out ++ (recallList e own (some h)).map (fun p => .bisnp p line own) ∧ t.mem = s.mem ∧
        (t.hag (s.memDie a)).filter = (s.hag (s.memDie a)).filter ∧ tget (t.hag (s.memDie a)).trackers line =
          some { trackerNew with reqs := [⟨h, own, 0⟩], snoops := recallList e own (some h), inv := own }) := by
  have run := State.exec_request hline hc ha hus own
  subst hline
  rw [State.hagRequest_recalls hk hroom he hl hd] at run
  refine .of_next run ⟨State.recalled_out .., State.recalled_mem .., ?_, ?_⟩
  · rw [State.recalled_hag, State.hag_tracking]
  · rw [State.recalled_hag, tget_tput_same]
    rfl

end

theorem Runs.memwrWriteback_merges (hi : s.inv) (hk : tget (s.hag (s.memDie a)).trackers line = none) (hu : s.unheld a 64)
    (hw : (s.hag (s.memDie a)).waiting = []) (data : BitVec 512) (p : Bool) : Runs (.memwrWriteback h o ⟨data, p⟩) s (fun t =>
      t.mread a 64 = leBytes 64 data.toNat ∧ (t.hag (s.memDie a)).filter = sfClear (s.hag (s.memDie a)).filter line h false ∧
        t.mpoison a 64 = p ∧ t.out = s.out ++ toldPoison ⟨h, 0⟩ p ++ [.memCmp h line] ∧
        ∀ y, (y < a ∨ a + 64 ≤ y) → t.mbyte y = s.mbyte y) := by
  have run : exec (.memwrWriteback h o ⟨data, p⟩) s = .next ((s.when p (fun s => s.poisonIn ⟨h, 0⟩)).writeback h line
      (leBytes 64 data.toNat) p) := congrArg Host.Outcome.next (State.cxlLine_acts hline hc ha hus
        (fun l s => (s.when p (fun s => s.poisonIn ⟨h, 0⟩)).writeback h l (leBytes 64 data.toNat) p))
  have arrives := s.arrives_when_poisonIn ⟨h, 0⟩ p
  generalize s.when p (fun s => s.poisonIn ⟨h, 0⟩) = u at run arrives
  subst hline
  have place : u.memDie (line * 64) = s.memDie (line * 64) := by rw [arrives.frame]; rfl
  have hag : u.hag (s.memDie (line * 64)) = s.hag (s.memDie (line * 64)) := by rw [arrives.frame]; rfl
  have held : u.unheld (line * 64) (leBytes 64 data.toNat).length := by rw [length_leBytes]; exact arrives.unheld hu
  rw [State.writeback_merges (by rw [place, hag]; exact hk) (by rw [place, hag]; exact hw) held, place] at run
  have stored := State.stored_mstore (arrives.mem ▸ hi.2) (line * 64) (leBytes 64 data.toNat) p
  have poisoned := stored.mpoison (List.ne_nil_of_length_pos (by rw [length_leBytes]; decide))
  obtain ⟨-, bytes, others, -⟩ := stored
  rw [length_leBytes] at bytes others poisoned
  refine .of_next run ⟨(State.mread_congr fun _ _ _ => rfl).trans bytes, ?_, poisoned, ?_, fun y hy => (others y hy).trans (arrives.mbyte y)⟩
  · rw [State.hag_emit, State.hag_modHag, State.hag_mstore, hag]
  · show u.out ++ _ = _
    rw [arrives.out]

theorem Runs.birsp_waits (hk : tget (s.hag (s.memDie a)).trackers line = some k) (hh : h ∈ k.snoops) (hmore : k.snoops.erase h ≠ []) :
    Runs (.birsp h o) s (fun t => (t.hag (s.memDie a)).filter = sfClear (s.hag (s.memDie a)).filter line h (!k.inv) ∧
      (t.hag (s.memDie a)).trackers = tput (s.hag (s.memDie a)).trackers line { k with snoops := k.snoops.erase h } ∧ t.out = s.out ∧
        t.mem = s.mem) := by
  have run : exec (.birsp h o) s = .next (s.birsp h line) :=
    congrArg Host.Outcome.next (State.cxlLine_acts hline hc ha hus (fun l s => s.birsp h l))
  subst hline
  rw [State.birsp_waits hk hh hmore] at run
  exact .of_next run ⟨by rw [State.hag_modHag], by rw [State.hag_modHag], rfl, rfl⟩

end

theorem Runs.hagDwellExpiry_recalls (hus : s.usable a 64 = true) (hk : tget (s.hag (s.memDie a)).trackers line = some k) (hs : k.snoops = [])
    (hr : k.reqs = []) (hx : k.dev = [x]) (he : tget (s.hag (s.memDie a)).filter line = some e) (hw : (s.hag (s.memDie a)).waiting = [])
    (hl : recallList e (devWrites x) none ≠ []) (hd : dwelling s e (recallList e (devWrites x) none) = false) :
    Runs (.hagDwellExpiry (BitVec.ofNat 40 a)) s (fun t => t.mem = s.mem ∧
      t.out = s.out ++ (recallList e (devWrites x) none).map (fun p => .bisnp p line (devWrites x)) ∧
        ∃ k', tget (t.hag (s.memDie a)).trackers line = some k' ∧ k'.snoops = recallList e (devWrites x) none) := by
  have addr : (BitVec.ofNat 40 a).toNat = a := by
    have := State.usable_lt hus
    rw [BitVec.toNat_ofNat, Nat.mod_eq_of_lt (by omega)]
  have run : exec (.hagDwellExpiry (BitVec.ofNat 40 a)) s = .next ((s.hagRun line).hagRetry (s.memDie a)) := by
    show execHagDwellExpiry _ s = _
    rw [execHagDwellExpiry, addr, ← hline, Nat.mul_div_cancel _ (by decide)]
  subst hline
  rw [State.hagRun_once ((State.hagStep_dev hk hs hr hx he hl).trans (State.hagRecall_now hd)),
    State.hagRetry_none (by rw [State.recalled_hag]; exact hw)] at run
  exact .of_next run ⟨State.recalled_mem .., State.recalled_out .., _, by rw [State.recalled_hag, tget_tput_same], rfl⟩

end

/-- Settles O24: each command acts on the line's tracker once, or not at all, and nothing else of the memory system goes on. -/
theorem homeAgentKeepsLinesCoherent : Obligations.HomeAgentKeepsLinesCoherent := by
  intro s h o hi hc a line d g others hus hal
  have ha : s.hdmAddr (o.toNat / 64 * 64) = a := rfl
  clear_value a
  have hline : line * 64 = a := Nat.div_mul_cancel (Nat.dvd_of_mod_eq_zero hal)
  refine ⟨fun own hk hroom _ => ⟨fun hl hfull hin hw => ?_, fun hl hd => ?_⟩, fun data p hk hu hw => ?_, fun k hk hh hmore => ?_,
    fun k x e hk hs hr hx he hw hl hd => ?_⟩
  · exact Runs.memrd_granted hline hc ha hus hk hroom rfl hl hfull hin hw
  · exact Runs.memrd_recalls hline hc ha hus hk hroom rfl hl hd
  · exact Runs.memwrWriteback_merges hline hc ha hus hi hk hu hw data p
  · exact Runs.birsp_waits hline hc ha hus hk hh hmore
  · exact Runs.hagDwellExpiry_recalls hline hus hk hs hr hx he hw hl hd

end Sys2Proof.Machine
end

section
/-! Answers at the initiator (O44): the data of a get, the old value of an atomic, and a read of host memory that returns (05_host_ports.md
R131; 09_remote_access.md R271 to R289). -/

set_option Elab.async false

namespace Sys2Proof.Machine

variable {s t u : State} {d : Die} {i id : Nat} {o : WOp} {h : Handed} {r : HostRead} {α : Type}

/-! ## Operations -/

theorem tget_of_mem_above {lo k : Nat} {v : α} {t : Tbl α} (h : tblAbove lo t = true) (hm : (k, v) ∈ t) : lo < k ∧ tget t k = some v := by
  induction t generalizing lo with
  | nil => simp at hm
  | cons c t ih =>
    simp only [tblAbove, Bool.and_eq_true, decide_eq_true_eq] at h
    rcases List.mem_cons.mp hm with e | hm
    · subst e
      exact ⟨h.1, by simp [tget]⟩
    · obtain ⟨above, found⟩ := ih h.2 hm
      refine ⟨Nat.lt_trans h.1 above, ?_⟩
      rw [tget, if_neg (Nat.ne_of_lt above), if_neg (Nat.lt_asymm above), found]

/-- What a table lists is found under its key. -/
theorem tget_of_mem {k : Nat} {v : α} {t : Tbl α} (h : tblWf t = true) (hm : (k, v) ∈ t) : tget t k = some v := by
  cases t with
  | nil => simp at hm
  | cons c t =>
    rcases List.mem_cons.mp hm with e | hm
    · subst e
      simp [tget]
    · obtain ⟨above, found⟩ := tget_of_mem_above (show tblAbove c.1 t = true from h) hm
      rw [tget, if_neg (Nat.ne_of_lt above), if_neg (Nat.lt_asymm above), found]

theorem State.op_of_opById (hw : tblWf s.ops = true) {n polder : Nat} (h : s.opById d n polder = some (i, o)) : s.op i = some o :=
  tget_of_mem hw (List.mem_of_find?_eq_some h)

theorem State.op_modOp (ho : s.op i = some o) (f : WOp → WOp) : (s.modOp i f).op i = some (f o) := by
  rw [State.op] at ho
  rw [State.op, State.modOp, tget_tmod, if_pos rfl, ho]
  rfl

/-- A check of an operation ends it, or does nothing. -/
theorem State.opCheck_cases (s : State) (i : Nat) : s.opCheck i = s ∨ ∃ status bytes, s.opCheck i = s.endOp i status bytes := by
  unfold State.opCheck
  split
  · exact .inl rfl
  · split
    · exact .inl rfl
    · split
      · exact .inl rfl
      · split
        · exact .inr ⟨_, _, rfl⟩
        · split
          · split
            · exact .inr ⟨_, _, rfl⟩
            · exact .inr ⟨_, _, rfl⟩
          · exact .inl rfl

theorem State.opCheck_mem (s : State) (i : Nat) : (s.opCheck i).mem = s.mem := by
  rcases s.opCheck_cases i with same | ⟨status, bytes, ended⟩
  · rw [same]
  · rw [ended]
    rfl

/-- An operation that may end keeps what its answers gave it. -/
theorem State.op_opCheck (ho : s.op i = some o) :
    ∃ st status bytes, (s.opCheck i).op i = some { o with stage := st, status := status, bytes := bytes } := by
  rcases s.opCheck_cases i with same | ⟨status, bytes, ended⟩
  · exact ⟨o.stage, o.status, o.bytes, by rw [same, ho]⟩
  · exact ⟨.ended, status, bytes, by rw [ended]; exact State.op_modOp ho _⟩

/-- The packet of an atomic that is answered is no longer outstanding. -/
theorem State.op_ackAtomic (ho : s.op i = some o) (d : Die) (ctx : Nat) : ∃ n, (s.ackAtomic d ctx i).op i = some { o with unacked := n } := by
  unfold State.ackAtomic
  split
  · exact ⟨_, ho⟩
  · split
    · exact ⟨_, State.op_modOp (s := s.modCtx ..) ho _⟩
    · exact ⟨_, ho⟩

theorem State.ackAtomic_mem (s : State) (d : Die) (ctx i : Nat) : (s.ackAtomic d ctx i).mem = s.mem := by
  unfold State.ackAtomic
  split
  · rfl
  · split <;> rfl

/-- A write through a local key changes no operation. -/
theorem State.writeLocal_ops {f : Fn} {key addr : Nat} {data : List Byte} {p : Bool} {res : SrcRes}
    (hw : s.writeLocal d f key addr data p = (t, res)) : t.ops = s.ops := by
  have kept : Holds (· == .ops) (s.standing (· == .ops)) (s.writeLocal d f key addr data p).1 := by
    apply State.writeLocal_keeps _ _ _ _ _ _ _ (s.holds_standing _) <;> rfl
  rw [hw] at kept
  exact (kept.holds .ops rfl).1

/-! ## Packets that are performed -/

/-- No packet of this number waits for its consumer. -/
def State.performed (d : Die) (id : Nat) (t : State) : Prop := t.handedPkt d id (fun _ => true) = none

theorem State.performed_perform (s : State) (d : Die) (id : Nat) (lines : List Nat) : State.performed d id (s.perform d id lines) := by
  refine List.find?_eq_none.mpr fun x hx => ?_
  rw [State.perform, State.modTru, State.tru, State.die_modDie_same] at hx
  obtain ⟨y, -, rfl⟩ := List.mem_map.mp hx
  by_cases hy : y.id = id
  · simp [hy]
  · simp [hy]

/-! ## RMA_GET_DATA (R283) -/

theorem Runs.rmaGetData_gone (hh : s.handedPkt d id (· == cRMA_GET_DATA) = some h) (ho : s.opById d (h.pkt.opf 0 32) h.pkt.polder = none) :
    Runs (.rmaGetData d id) s (fun t => State.performed d id t ∧ t.mem = s.mem ∧ t.ops = s.ops) := by
  have run : exec (.rmaGetData d id) s = .next (s.perform d id []) := by
    show execRmaGetData d id s = _
    simp only [execRmaGetData, State.takeGetData, hh, ho]
  exact .of_next run ⟨s.performed_perform .., rfl, rfl⟩

theorem Runs.rmaGetData_written (hw : tblWf s.ops = true) (hh : s.handedPkt d id (· == cRMA_GET_DATA) = some h)
    (ho : s.opById d (h.pkt.opf 0 32) h.pkt.polder = some (i, o)) (hforce : o.force = none) (hp : h.pkt.srcPoison = false)
    {l : List Byte} {b : Bool} (hwr : s.writeLocal d (opFn o) (eLkey o.entry) (eLaddr o.entry + h.pkt.opf 32 32) (pktData h.pkt) false =
      (u, .data l b)) : Runs (.rmaGetData d id) s (fun t => State.performed d id t ∧ t.mem = u.mem ∧
        ∃ o', t.op i = some o' ∧ o'.expect = o.expect - max (pktData h.pkt).length 1) := by
  have run : exec (.rmaGetData d id) s = .next (((u.modOp i (fun o' => chunkWritten o'
      ((rRaddr o.entry + h.pkt.opf 32 32) / 65536 - rRaddr o.entry / 65536) (max (pktData h.pkt).length 1))).opCheck i).perform d id []) := by
    show execRmaGetData d id s = _
    simp [execRmaGetData, State.takeGetData, hh, ho, hforce, hp, hwr]
  have op : u.op i = some o := by
    rw [State.op, State.writeLocal_ops hwr]
    exact State.op_of_opById hw ho
  obtain ⟨st, status, bytes, op'⟩ := State.op_opCheck (State.op_modOp op _)
  exact .of_next run ⟨State.performed_perform .., State.opCheck_mem .., _, op', rfl⟩

/-! ## RMA_ATOMIC_RSP (R268, R283) -/

section
variable (hh : s.handedPkt d id (· == cRMA_ATOMIC_RSP) = some h)
include hh

theorem Runs.rmaAtomicRsp_gone (ho : s.opById d (h.pkt.opf 128 32) h.pkt.polder = none) :
    Runs (.rmaAtomicRsp d id) s (fun t => State.performed d id t ∧ t.mem = s.mem ∧ t.ops = s.ops) := by
  have run : exec (.rmaAtomicRsp d id) s = .next (s.perform d id []) := by
    show execRmaAtomicRsp d id s = _
    simp only [execRmaAtomicRsp, State.takeAtomicRsp, hh, ho]
  exact .of_next run ⟨s.performed_perform .., rfl, rfl⟩

end

/-- An atomic of `n` bytes is answered: the old value goes to its completion. -/
def State.atomicAnswered (s : State) (d : Die) (id : Nat) (h : Handed) (i n : Nat) : State :=
  (((s.ackAtomic d h.ctx i).modOp i (fun o => { o with
    expect := 0, imm := h.pkt.opf 0 64, aux := if n = 16 then h.pkt.opf 64 64 else 0 })).opCheck i).perform d id []

theorem State.atomicAnswered_op (ho : s.op i = some o) (d : Die) (id : Nat) (h : Handed) (n : Nat) :
    State.performed d id (s.atomicAnswered d id h i n) ∧ ∃ o', (s.atomicAnswered d id h i n).op i = some o' ∧ o'.expect = 0 ∧
      o'.imm = h.pkt.opf 0 64 ∧ o'.aux = (if n = 16 then h.pkt.opf 64 64 else 0) := by
  obtain ⟨m, acked⟩ := State.op_ackAtomic ho d h.ctx
  obtain ⟨st, status, bytes, op⟩ := State.op_opCheck (State.op_modOp acked
    (fun o => { o with expect := 0, imm := h.pkt.opf 0 64, aux := if n = 16 then h.pkt.opf 64 64 else 0 }))
  exact ⟨State.performed_perform .., _, op, rfl, rfl, rfl⟩

theorem State.atomicAnswered_mem (s : State) (d : Die) (id : Nat) (h : Handed) (i n : Nat) : (s.atomicAnswered d id h i n).mem = s.mem :=
  (State.opCheck_mem ..).trans (State.ackAtomic_mem ..)

/-- An atomic whose answer is poisoned fails with no result (R289). -/
def State.atomicFailed (s : State) (d : Die) (id : Nat) (h : Handed) (i : Nat) : State :=
  ((((s.ackAtomic d h.ctx i).opError i stREMOTE_ACCESS 0).modOp i (fun o => { o with expect := 0, aux := 1 })).opCheck i).perform d id []

theorem State.op_opError (ho : s.op i = some o) (status at_ : Nat) :
    ∃ o', (s.opError i status at_).op i = some o' ∧ o'.err.isSome = true := by
  refine ⟨_, State.op_modOp ho _, ?_⟩
  cases he : o.err with
  | none => rfl
  | some e =>
    dsimp only
    split
    · rfl
    · rw [he]; rfl

theorem State.atomicFailed_op (ho : s.op i = some o) (d : Die) (id : Nat) (h : Handed) : State.performed d id (s.atomicFailed d id h i) ∧
    ∃ o', (s.atomicFailed d id h i).op i = some o' ∧ o'.expect = 0 ∧ o'.aux = 1 ∧ o'.err.isSome = true := by
  obtain ⟨m, acked⟩ := State.op_ackAtomic ho d h.ctx
  obtain ⟨o', failed, err⟩ := State.op_opError acked stREMOTE_ACCESS 0
  obtain ⟨st, status, bytes, op⟩ := State.op_opCheck (State.op_modOp failed (fun o => { o with expect := 0, aux := 1 }))
  exact ⟨State.performed_perform .., _, op, rfl, rfl, err⟩

theorem State.atomicFailed_mem (s : State) (d : Die) (id : Nat) (h : Handed) (i : Nat) : (s.atomicFailed d id h i).mem = s.mem :=
  (State.opCheck_mem ..).trans (State.ackAtomic_mem ..)

section
variable (hh : s.handedPkt d id (· == cRMA_ATOMIC_RSP) = some h) (ho : s.opById d (h.pkt.opf 128 32) h.pkt.polder = some (i, o))
include hh ho

theorem State.exec_rmaAtomicRsp_plain (hp : o.force ≠ none ∨ (h.pkt.srcPoison = false ∧ aLkey o.entry = 0)) :
    exec (.rmaAtomicRsp d id) s = .next (s.atomicAnswered d id h i (atomicSize (eOpcode o.entry))) := by
  show execRmaAtomicRsp d id s = _
  have whole : ¬ (h.pkt.srcPoison = true ∧ o.force.isNone = true) := by
    rintro ⟨hsp, hf⟩
    rcases hp with hp | ⟨hp, -⟩
    · exact hp (Option.isNone_iff_eq_none.mp hf)
    · rw [hp] at hsp; exact absurd hsp nofun
  have noBuffer : o.force.isSome = true ∨ aLkey o.entry = 0 := hp.imp Option.isSome_iff_ne_none.mpr And.right
  simp only [execRmaAtomicRsp, State.takeAtomicRsp, hh, ho, if_neg whole, if_pos noBuffer]
  rfl

theorem State.exec_rmaAtomicRsp_buffer (hf : o.force = none) (hp : h.pkt.srcPoison = false) (hk : aLkey o.entry ≠ 0) {l : List Byte}
    {b : Bool} (hwr : s.writeLocal d (opFn o) (aLkey o.entry) (aLaddr o.entry)
      (leBytes (atomicSize (eOpcode o.entry)) (h.pkt.opf 0 (8 * atomicSize (eOpcode o.entry)))) false = (u, .data l b)) :
    exec (.rmaAtomicRsp d id) s = .next (u.atomicAnswered d id h i (atomicSize (eOpcode o.entry))) := by
  show execRmaAtomicRsp d id s = _
  simp [execRmaAtomicRsp, State.takeAtomicRsp, hh, ho, hf, hp, hk, hwr, State.atomicAnswered]

theorem State.exec_rmaAtomicRsp_poisoned (hf : o.force = none) (hp : h.pkt.srcPoison = true) :
    exec (.rmaAtomicRsp d id) s = .next (s.atomicFailed d id h i) := by
  show execRmaAtomicRsp d id s = _
  simp [execRmaAtomicRsp, State.takeAtomicRsp, hh, ho, hf, hp, State.atomicFailed]

end

/-! ## HOST_READ_COMPLETION (05_host_ports.md R131; 16_faults.md R502) -/

/-- What the return of a read leaves alone once it has been delivered: memory, the reads in flight, the registers and the sluice. -/
def deliveredGroups (g : Grp) : Bool := [Grp.mem, .reads, .regs, .sluice].contains g

theorem sluice_of_same (h : same .sluice s t) (d : Die) : t.sluice d = s.sluice d := by cases d; exacts [h.1, h.2]

/-- The read is no longer in flight. -/
def State.readBack (s : State) (tag : Nat) : State := { s with reads := tdel s.reads tag }

/-- The bytes that a read returns, cut or filled with zeros to its length. -/
def gotBytes (r : HostRead) (data : List Byte) : List Byte := data.take r.len ++ List.replicate (r.len - data.length) 0

/-- Invalidations that wait for reads of the host may now be done. -/
theorem State.atsInvDone_standing (h : s.standing deliveredGroups t) : s.standing deliveredGroups ((t.atsInvDone .a).atsInvDone .b) := by
  have first : Holds deliveredGroups (s.standing deliveredGroups) (t.atsInvDone .a) := by
    apply State.atsInvDone_keeps _ _ ⟨s.standing_closed _, h⟩ <;> rfl
  have second : Holds deliveredGroups (s.standing deliveredGroups) ((t.atsInvDone .a).atsInvDone .b) := by
    apply State.atsInvDone_keeps _ _ first <;> rfl
  exact second.holds

/-- The data of a read stand in a packet of the sluice. -/
def filledWith (r : HostRead) (got : List Byte) (b last : Bool) (w : WPkt) : WPkt :=
  { w with ready := last
           pkt := setPoison { w.pkt with data := placeBytes w.pkt.data r.off got } (w.pkt.srcPoison || b) }

/-- No read that the packet waits for is in flight any more. -/
def State.lastRead (s : State) (r : HostRead) : Bool :=
  s.reads.all (fun p => !(p.2.packet == r.packet && p.2.die == r.die && p.2.use == ReadUse.packet))

/-- The packet that waits for a read is filled. -/
def State.filled (s : State) (r : HostRead) (got : List Byte) (b : Bool) : State :=
  s.modSluice r.die (fun x => { x with
    waiting := x.waiting.map (fun w => if w.id = r.packet then filledWith r got b (s.lastRead r) w else w) })

theorem State.fillRead_standing (s : State) (r : HostRead) (tag : Nat) (got : List Byte) (b : Bool) :
    (s.filled r got b).standing deliveredGroups (s.fillRead r tag got b) := by
  have failed (d : Die) (ctx seq : Nat) (p : Pkt) :
      Holds deliveredGroups ((s.filled r got b).standing deliveredGroups) ((s.filled r got b).rmaFailed d ctx seq p) := by
    apply State.rmaFailed_keeps _ _ _ _ _ (State.holds_standing _ _) <;> rfl
  unfold State.fillRead
  dsimp only
  split
  · exact State.standing_refl _ (s.filled r got b)
  · split
    · exact (failed ..).holds
    · exact State.standing_refl _ (s.filled r got b)

section
variable {tag : Nat} {data : List Byte} {b : Bool} (hr : tget s.reads tag = some r)
include hr

theorem Runs.hostReadCompletion_fence (hu : r.use = .fence) :
    Runs (.hostReadCompletion tag data b) s ((s.readBack tag).standing deliveredGroups) := by
  have run : exec (.hostReadCompletion tag data b) s = .next (((s.readBack tag).atsInvDone .a).atsInvDone .b) := by
    show execHostReadCompletion tag data b s = _
    simp only [execHostReadCompletion, hr, hu]
    rfl
  exact .of_next run (State.atsInvDone_standing (State.standing_refl _ _))

theorem Runs.hostReadCompletion_packet (hu : r.use = .packet) :
    Runs (.hostReadCompletion tag data b) s (((s.readBack tag).filled r (gotBytes r data) b).standing deliveredGroups) := by
  have run : exec (.hostReadCompletion tag data b) s =
      .next ((((s.readBack tag).fillRead r tag (gotBytes r data) b).atsInvDone .a).atsInvDone .b) := by
    show execHostReadCompletion tag data b s = _
    simp only [execHostReadCompletion, hr, hu]
    rfl
  exact .of_next run (State.atsInvDone_standing (State.fillRead_standing _ _ _ _ _))

end

theorem State.mem_filled {w : WPkt} {got : List Byte} {b : Bool} (hw : w ∈ (s.sluice r.die).waiting) (hid : w.id = r.packet) :
    filledWith r got b (s.lastRead r) w ∈ ((s.filled r got b).sluice r.die).waiting := by
  rw [State.filled, State.modSluice, State.sluice, State.die_modDie_same]
  exact List.mem_map.mpr ⟨w, hw, if_pos hid⟩

theorem onlyFields_of_regs (h : t.regs = s.regs) : onlyFields [] s t := fun _ _ _ => by rw [State.rd, h, State.rd]

/-- Settles O44: an answer acts on its operation, which is found by its number, and a read that returns on the packet that waits for it. -/
theorem remoteAccessAnswers : Obligations.RemoteAccessAnswers := by
  intro s d id h _ hw p performed
  refine ⟨fun k c n hk hh ho => ?_, fun hh i o s' l b ho hf hp hwr => Runs.rmaGetData_written hw hh ho hf hp hwr,
    fun hh i o ho => ?_, fun tag data b r hr _ => ⟨fun hu => ?_, fun hu => ?_⟩⟩
  · simp only [List.mem_cons, Prod.mk.injEq, List.not_mem_nil, or_false] at hk
    rcases hk with ⟨rfl, rfl, rfl⟩ | ⟨rfl, rfl, rfl⟩
    · exact Runs.rmaGetData_gone hh ho
    · exact Runs.rmaAtomicRsp_gone hh ho
  · intro n old
    have op := State.op_of_opById hw ho
    refine ⟨fun hp => ?_, fun s' l b hf hp hk hwr => ?_, fun hf hp => ?_⟩
    · exact .of_next (State.exec_rmaAtomicRsp_plain hh ho hp) ⟨State.atomicAnswered_op op .., State.atomicAnswered_mem ..⟩
    · have op' : s'.op i = some o := by rw [State.op, State.writeLocal_ops hwr]; exact op
      exact .of_next (State.exec_rmaAtomicRsp_buffer hh ho hf hp hk hwr) ⟨State.atomicAnswered_op op' .., State.atomicAnswered_mem ..⟩
    · obtain ⟨done, lost⟩ := State.atomicFailed_op op d id h
      exact .of_next (State.exec_rmaAtomicRsp_poisoned hh ho hf hp) ⟨done, State.atomicFailed_mem .., lost⟩
  · obtain ⟨t, run, stands⟩ := Runs.hostReadCompletion_fence (data := data) (b := b) hr hu
    exact ⟨t, run, (stands .reads rfl).1, (stands .mem rfl).1, onlyFields_of_regs (stands .regs rfl)⟩
  · obtain ⟨t, run, stands⟩ := Runs.hostReadCompletion_packet (data := data) (b := b) hr hu
    refine ⟨t, run, (stands .reads rfl).1, (stands .mem rfl).1, onlyFields_of_regs (stands .regs rfl), fun w hmem hid => ?_⟩
    have filled := State.mem_filled (s := s.readBack tag) (got := gotBytes r data) (b := b) hmem hid
    rw [← sluice_of_same (stands .sluice rfl)] at filled
    exact ⟨_, filled, rfl, rfl, rfl⟩

end Sys2Proof.Machine
end

section
/-! Keys of work-queue objects, the register fields that the work queues write (06_work_queues.md R190, R194; 18_counters.md R547, R548),
and what of the register fields a queue asks while it works. -/

set_option Elab.async false

namespace Sys2Proof.Machine

variable {s t : State} {d e : Die} {f : Fn} {fld : Fld} {x : Nat}

/-! ## Keys -/

@[simp] theorem qKey_div (sk : Nat) (k : Fin 8) : qKey sk k.val / 8 = sk := by unfold qKey; omega
@[simp] theorem ctrKey_div (sk : Nat) (c : Fin 16) : ctrKey sk c.val / 16 = sk := by unfold ctrKey; omega

@[simp] theorem setFn_setKey (f : Fn) (q : Fin 128) : setFn (setKey f q.val) = f := by
  obtain ⟨h, n⟩ := f
  have set : setKey ⟨h, n⟩ q.val / 128 = h.val * 256 + n.val := by simp only [setKey, Fn.id]; omega
  have port : setKey ⟨h, n⟩ q.val / 128 / 256 % 4 = h.val := by omega
  have fn : setKey ⟨h, n⟩ q.val / 128 % 256 = n.val := by omega
  simp only [setFn, port, fn]

@[simp] theorem setDie_setKey (f : Fn) (q : Fin 128) : setDie (setKey f q.val) = fnDie f := congrArg fnDie (setFn_setKey f q)

/-! ## Traffic of the host ports (18_counters.md R547) -/

/-- Keys of the counts of what the host ports read and write of their hosts' memory. -/
def dmaKeys (x : Nat) : Prop := ∃ d, keysOf (dmaFields d) x

theorem dmaKeys_of_dmaFields (h : keysOf (dmaFields d) x) : dmaKeys x := ⟨d, h⟩

theorem dmaKeys_range (h : dmaKeys x) : 0x3808600 ≤ x / 64 % 0x4000000 ∧ x / 64 % 0x4000000 < 0x3808640 := by
  obtain ⟨d, p, hp, rfl⟩ := h
  simp only [dmaFields, List.map_cons, List.map_nil, List.mem_cons, List.not_mem_nil, or_false] at hp
  rcases hp with rfl | rfl | rfl | rfl
  all_goals cases d <;> decide

/-- The offset of a field in its die's window. -/
theorem fkey_off (e : Die) (hoff : fld.off < 0x4000000) (hlo : fld.lo < 64) : fkey e fld / 64 % 0x4000000 = fld.off := by
  have he : e.base = 0 ∨ e.base = 0x4000000 := by cases e; exacts [.inl rfl, .inr rfl]
  unfold fkey
  omega

theorem not_dmaKeys (e : Die) (h : fld.off < 0x3808600 ∨ 0x3808640 ≤ fld.off) (hoff : fld.off < 0x4000000) (hlo : fld.lo < 64) :
    ¬ dmaKeys (fkey e fld) := by
  intro hk
  have range := dmaKeys_range hk
  rw [fkey_off e hoff hlo] at range
  omega

theorem dmaFields_of_fn (f : Fn) {m : Nat} (hm : m < 2) : (fnDie f, PCU.HP_CTR.COUNT (f.hp.val % 2 * 4 + m)) ∈ dmaFields (fnDie f) := by
  have place : f.hp.val % 2 * 4 + m ∈ [0, 1, 4, 5] := by
    have : f.hp.val % 2 = 0 ∨ f.hp.val % 2 = 1 := by omega
    simp only [List.mem_cons, List.not_mem_nil, or_false]
    omega
  exact List.mem_map.mpr ⟨_, place, rfl⟩

theorem State.writes_hread (s : State) (f : Fn) (a n : Nat) (tr : Bool) : s.writesIn (keysOf (dmaFields (fnDie f))) (s.hread f a n tr) :=
  (s.writesIn_wr _ ⟨_, dmaFields_of_fn f (m := 0) (by decide), rfl⟩).of_right

theorem State.writes_hwrite (s : State) (f : Fn) (a : Nat) (ro : Bool) (l : List Byte) (tr : Bool) :
    s.writesIn (keysOf (dmaFields (fnDie f))) (s.hwrite f a ro l tr) :=
  (s.writesIn_wr _ ⟨_, dmaFields_of_fn f (m := 1) (by decide), rfl⟩).of_right

/-! ## What the running of a queue writes -/

/-- Keys that a queue of die `d` may write as it takes and starts entries: from the count of index reads on, but for the count of PHASE
re-reads; the count of started entries; and, of both dies, the PWC and the PCU, where R548's event counters can stand anywhere. -/
def queueKeys (d : Die) (x : Nat) : Prop :=
  x = fkey d WQU.ENTRIES_STARTED.COUNT ∨ (fkey d WQU.INDEX_READS.COUNT ≤ x ∧ x ≠ fkey d WQU.PHASE_RETRIES.COUNT) ∨
    0x3800000 ≤ x / 64 % 0x4000000

theorem queueKeys_of_dmaKeys (d : Die) (h : dmaKeys x) : queueKeys d x := by
  have range := dmaKeys_range h
  exact .inr (.inr (by omega))

theorem queueKeys_entriesStarted (d : Die) : queueKeys d (fkey d WQU.ENTRIES_STARTED.COUNT) := .inl rfl

/-- A field of the queue's own die above the count of PHASE re-reads. -/
theorem queueKeys_above (d : Die) (h : WQU.PHASE_RETRIES.COUNT.off < fld.off) : queueKeys d (fkey d fld) := by
  refine .inr (.inl ?_)
  simp only [fkey, WQU.INDEX_READS.COUNT, WQU.PHASE_RETRIES.COUNT] at h ⊢
  omega

theorem queueKeys_indexReads (d : Die) : queueKeys d (fkey d WQU.INDEX_READS.COUNT) :=
  .inr (.inl ⟨Nat.le_refl _, fkey_ne_of_off d (by decide) (by decide) (by decide)⟩)

theorem queueKeys_heldTransactions (d e : Die) : queueKeys d (fkey e PWC.HELD_TRANSACTIONS.COUNT) :=
  .inr (.inr (by rw [fkey_off e (by decide) (by decide)]; decide))

/-- Fields below the count of started entries, of the queue's die or of die A. -/
theorem not_queueKeys (he : e = d ∨ e = .a) (hoff : fld.off < WQU.ENTRIES_STARTED.COUNT.off) (hlo : fld.lo < 64) :
    ¬ queueKeys d (fkey e fld) := by
  have hoff : fld.off < 0x400050 := hoff
  have off := fkey_off e (fld := fld) (by omega) hlo
  have base : e.base ≤ d.base := by
    rcases he with rfl | rfl
    · exact Nat.le_refl _
    · exact Nat.zero_le _
  unfold queueKeys
  rw [off]
  simp only [fkey, WQU.ENTRIES_STARTED.COUNT, WQU.INDEX_READS.COUNT]
  omega

theorem not_queueKeys_doorbells (d : Die) : ¬ queueKeys d (fkey d WQU.DOORBELLS.COUNT) := by
  unfold queueKeys
  cases d <;> decide

theorem not_queueKeys_phaseRetries (d : Die) : ¬ queueKeys d (fkey d WQU.PHASE_RETRIES.COUNT) := by
  unfold queueKeys
  cases d <;> decide

/-! ## What a queue asks of the register fields -/

/-- Coherence of a port hangs on the ports, the part and the enabled units. -/
theorem State.coherent_congr (hports : t.hps = s.hps) (hpart : t.part = s.part)
    (hunits : t.rd .a GLB.UNIT_ENABLED.UNITS = s.rd .a GLB.UNIT_ENABLED.UNITS) (h : Fin 4) : t.coherent h = s.coherent h := by
  simp only [State.coherent, State.hp, State.hagEnabled, State.unitEnabled, State.present, hports, hpart, hunits]

theorem State.asked_congr (h : t.coherent f.hp = s.coherent f.hp) (a n : Nat) : t.asked f a n = s.asked f a n := by
  simp only [State.asked, h]

theorem State.wrote_congr (h : t.coherent f.hp = s.coherent f.hp) (a : Nat) (ro : Bool) (l : List Byte) :
    t.wrote f a ro l = s.wrote f a ro l := by
  simp only [State.wrote, h]

theorem State.polderOf_congr (h : ∀ fld : Fld, fld.off = 0x210000 + 0x8 * fnIdx f → fld.lo < 64 → t.rd (fnDie f) fld = s.rd (fnDie f) fld) :
    t.polderOf f = s.polderOf f := by
  have warden : t.isWarden f = s.isWarden f := congrArg (· == 1) (h _ rfl (by decide : 32 < 64))
  have bound : t.on (fnDie f) (DIKE.FN_POLDER.BOUND (fnIdx f)) = s.on (fnDie f) (DIKE.FN_POLDER.BOUND (fnIdx f)) :=
    congrArg (· == 1) (h _ rfl (by decide : 31 < 64))
  simp only [State.polderOf, warden, bound, h (DIKE.FN_POLDER.POLDER (fnIdx f)) rfl (by decide : 0 < 64)]

theorem fnIdx_lt (f : Fn) : fnIdx f < 512 := by
  unfold fnIdx
  omega

/-- A function's polder hangs on registers that no queue writes. -/
theorem State.writesIn.polderOf (h : s.writesIn (queueKeys (fnDie f)) t) (hw : tblWf s.regs = true) : t.polderOf f = s.polderOf f := by
  have idx := fnIdx_lt f
  exact State.polderOf_congr fun fld hoff hlo =>
    h.rd hw (not_queueKeys (.inl rfl) (by rw [hoff]; show _ < 0x400050; omega) hlo)

theorem State.fnClosed_congr (hp : t.polderOf f = s.polderOf f) (hd : (t.die (fnDie f)).polders = (s.die (fnDie f)).polders) :
    t.fnClosed f = s.fnClosed f := by
  simp only [State.fnClosed, State.polderOpen, State.polder?, hp, hd]

/-- A function that passes the check at ingress is of an open polder. -/
theorem State.fnClosed_of_ingressOk (h : s.ingressOk f = true) : s.fnClosed f = false := by
  unfold State.ingressOk at h
  unfold State.fnClosed
  split at h
  · simp only [h, Bool.not_true]
  · exact absurd h nofun

end Sys2Proof.Machine
end

section
/-! What the work of one queue leaves of the others and of itself: completed operations stay gone, what went out stays out, a ring keeps its
place and its counts, and a queue its state, its PRODUCER and the slots that it does not hold (06_work_queues.md R166 to R178). -/

set_option Elab.async false

namespace Sys2Proof.Machine

variable {s t u : State} {W W' : Nat → Prop} {k j i : Nat} {w w' : WQueue} {g : CRing} {α : Type}

/-! ## Tables -/

theorem tmod_wf {t : Tbl α} (x : Nat) (f : α → α) (h : tblWf t = true) : tblWf (tmod t x f) = true := by
  unfold tmod
  split
  · exact tput_wf x _ h
  · exact h

theorem tget_tmod_none {t : Tbl α} {x y : Nat} (f : α → α) (h : tget t y = none) : tget (tmod t x f) y = none := by
  rw [tget_tmod, h]
  exact ite_self _

theorem tget_tdel_none {t : Tbl α} {x y : Nat} (hw : tblWf t = true) (h : tget t y = none) : tget (tdel t x) y = none := by
  by_cases hy : y = x
  · rw [hy, tget_tdel_same x hw]
  · rw [tget_tdel_other hw hy, h]

/-- A table that only loses keys. -/
def tblLoses (t t' : Tbl α) : Prop := tblWf t = true → tblWf t' = true ∧ ∀ y, tget t y = none → tget t' y = none

theorem tblLoses_refl (t : Tbl α) : tblLoses t t := fun h => ⟨h, fun _ hy => hy⟩

theorem tblLoses.trans {t t' t'' : Tbl α} (h : tblLoses t t') (h' : tblLoses t' t'') : tblLoses t t'' := fun hw =>
  have ⟨hw', gone⟩ := h hw
  have ⟨hw'', gone'⟩ := h' hw'
  ⟨hw'', fun y hy => gone' y (gone y hy)⟩

theorem tblLoses_tdel (t : Tbl α) (x : Nat) : tblLoses t (tdel t x) := fun hw => ⟨tdel_wf x hw, fun _ hy => tget_tdel_none hw hy⟩

theorem tblLoses_tmod (t : Tbl α) (x : Nat) (f : α → α) : tblLoses t (tmod t x f) :=
  fun hw => ⟨tmod_wf x f hw, fun _ hy => tget_tmod_none f hy⟩

theorem tblLoses_tdels (key : Nat → Nat) (l : List Nat) (t : Tbl α) : tblLoses t (l.foldl (fun c i => tdel c (key i)) t) := by
  induction l generalizing t with
  | nil => exact tblLoses_refl t
  | cons x l ih => exact (tblLoses_tdel t (key x)).trans (ih _)

/-! ## What comes later -/

/-- From `s` on to `t`: what went out stays out, numbers of operations are not used twice, and an operation that is gone stays gone. -/
structure State.later (s t : State) : Prop where
  out : s.out ⊆ t.out
  nextOp : s.nextOp ≤ t.nextOp
  ops : tblWf s.ops = true → tblWf t.ops = true ∧ ∀ i < s.nextOp, s.op i = none → t.op i = none

theorem State.later_refl (s : State) : s.later s where
  out := List.Subset.refl _
  nextOp := Nat.le_refl _
  ops hw := ⟨hw, fun _ _ h => h⟩

theorem State.later.trans (h : s.later t) (h' : t.later u) : s.later u where
  out := List.Subset.trans h.out h'.out
  nextOp := Nat.le_trans h.nextOp h'.nextOp
  ops hw :=
    have ⟨hw', gone⟩ := h.ops hw
    have ⟨hw'', gone'⟩ := h'.ops hw'
    ⟨hw'', fun i hi ho => gone' i (Nat.lt_of_lt_of_le hi h.nextOp) (gone i hi ho)⟩

/-- Operations are taken out or change. -/
theorem State.later_of_loses (hops : tblLoses s.ops t.ops) (hout : t.out = s.out := by rfl) (hn : t.nextOp = s.nextOp := by rfl) :
    s.later t where
  out := hout ▸ List.Subset.refl _
  nextOp := Nat.le_of_eq hn.symm
  ops hw := ⟨(hops hw).1, fun i _ ho => (hops hw).2 i ho⟩

/-- Neither an operation changes nor an output. -/
theorem State.later_of_eq (hops : t.ops = s.ops := by rfl) (hout : t.out = s.out := by rfl) (hn : t.nextOp = s.nextOp := by rfl) :
    s.later t := State.later_of_loses (hops ▸ tblLoses_refl s.ops) hout hn

/-- An operation is added under the next number. -/
theorem State.later_of_added {o : WOp} (hops : t.ops = tput s.ops s.nextOp o := by rfl) (hn : t.nextOp = s.nextOp + 1 := by rfl)
    (hout : t.out = s.out := by rfl) : s.later t where
  out := hout ▸ List.Subset.refl _
  nextOp := hn ▸ Nat.le_succ _
  ops hw := by
    refine ⟨hops ▸ tput_wf _ _ hw, fun i hi ho => ?_⟩
    rw [State.op, hops, tget_tput_other _ _ (Nat.ne_of_lt hi)]
    exact ho

theorem State.later_emit (s : State) (o : Output) : s.later (s.emit o) where
  out := List.subset_append_left ..
  nextOp := Nat.le_refl _
  ops hw := ⟨hw, fun _ _ h => h⟩

theorem State.later_hread (s : State) (f : Fn) (a n : Nat) (tr : Bool) : s.later (s.hread f a n tr) :=
  State.later.trans State.later_of_eq (State.later_emit (s.hpCount f.hp 0 n) _)

theorem State.later_hwrite (s : State) (f : Fn) (a : Nat) (ro : Bool) (l : List Byte) (tr : Bool) : s.later (s.hwrite f a ro l tr) :=
  State.later.trans State.later_of_eq (State.later_emit (s.hpCount f.hp 1 l.length) _)

theorem State.later_modOp (s : State) (i : Nat) (f : WOp → WOp) : s.later (s.modOp i f) := State.later_of_loses (tblLoses_tmod s.ops i f)

theorem State.later_ite {c : Prop} [Decidable c] (h : s.later t) (h' : s.later u) : s.later (if c then t else u) := by
  split
  · exact h
  · exact h'

theorem State.later_when (s : State) (c : Bool) {f : State → State} (h : s.later (f s)) : s.later (s.when c f) :=
  State.later_ite h s.later_refl

theorem State.later_foldl {step : State → α → State} {l : List α} (h : ∀ x ∈ l, ∀ s : State, s.later (step s x)) (s : State) :
    s.later (l.foldl step s) := by
  induction l generalizing s with
  | nil => exact s.later_refl
  | cons x l ih => exact (h x (List.mem_cons_self ..) s).trans (ih (fun y hy => h y (List.mem_cons_of_mem _ hy)) _)

theorem State.later_forceOps (s : State) (st : Nat) (l : List Nat) : s.later (s.forceOps st l) :=
  State.later_foldl (fun _ _ s => s.later_modOp ..) s

/-! ## A queue and a ring -/

/-- What a queue keeps while it, or another, is worked on. -/
structure WQueue.served (w w' : WQueue) : Prop where
  st : w'.st = w.st := by rfl
  producer : w'.producer = w.producer := by rfl
  indexAddr : w'.indexAddr = w.indexAddr := by rfl
  pollAt : w'.pollAt = w.pollAt := by rfl
  idxOut : w.idxOut = true → w'.idxOut = true := by exact id
  cache : tblLoses w.cache w'.cache := by exact tblLoses_refl _

theorem WQueue.served.trans {w'' : WQueue} (h : w.served w') (h' : w'.served w'') : w.served w'' where
  st := h'.st.trans h.st
  producer := h'.producer.trans h.producer
  indexAddr := h'.indexAddr.trans h.indexAddr
  pollAt := h'.pollAt.trans h.pollAt
  idxOut hi := h'.idxOut (h.idxOut hi)
  cache := h.cache.trans h'.cache

/-- What a ring keeps: its place, its size, and how many entries were written and consumed. -/
structure CRing.served (g g' : CRing) : Prop where
  base : g'.base = g.base := by rfl
  log2 : g'.log2 = g.log2 := by rfl
  written : g'.written = g.written := by rfl
  consumed : g'.consumed = g.consumed := by rfl

theorem CRing.served.trans {g' g'' : CRing} (h : g.served g') (h' : g'.served g'') : g.served g'' where
  base := h'.base.trans h.base
  log2 := h'.log2.trans h.log2
  written := h'.written.trans h.written
  consumed := h'.consumed.trans h.consumed

/-- From `s` to `t` the register fields of `W` alone are written, and queue `k` and every ring keep what `served` says. -/
structure State.served (W : Nat → Prop) (k : Nat) (s t : State) : Prop extends toLater : State.later s t where
  regs : s.writesIn W t
  queue : ∀ w, s.queue k = some w → ∃ w', t.queue k = some w' ∧ w.served w'
  ring : ∀ r g, s.ring r = some g → ∃ g', t.ring r = some g' ∧ g.served g'

theorem State.served_refl (W : Nat → Prop) (k : Nat) (s : State) : s.served W k s where
  toLater := s.later_refl
  regs := s.writesIn_refl W
  queue w hq := ⟨w, hq, {}⟩
  ring _ g hg := ⟨g, hg, {}⟩

theorem State.served.trans (h : s.served W k t) (h' : t.served W k u) : s.served W k u where
  toLater := h.toLater.trans h'.toLater
  regs := h.regs.trans h'.regs
  queue w hq :=
    have ⟨w', hq', hw⟩ := h.queue w hq
    have ⟨w'', hq'', hw'⟩ := h'.queue w' hq'
    ⟨w'', hq'', hw.trans hw'⟩
  ring r g hr :=
    have ⟨g', hr', hg⟩ := h.ring r g hr
    have ⟨g'', hr'', hg'⟩ := h'.ring r g' hr'
    ⟨g'', hr'', hg.trans hg'⟩

theorem State.served.mono (h : s.served W k t) (hW : ∀ x, W x → W' x) : s.served W' k t := { h with regs := h.regs.mono hW }

/-- As `served`, where it does not matter which register fields are written. -/
theorem State.served.anyKeys (h : s.served W k t) : s.served (fun _ => True) k t := h.mono (fun _ _ => trivial)

/-- Of queues, rings, operations and outputs nothing changes. -/
theorem State.served_of_regs (h : s.writesIn W t) (hqueues : t.queues = s.queues := by rfl) (hrings : t.rings = s.rings := by rfl)
    (hlater : s.later t := by exact State.later_of_eq) : s.served W k t where
  toLater := hlater
  regs := h
  queue w hq := ⟨w, (congrArg (tget · k) hqueues).trans hq, {}⟩
  ring r g hg := ⟨g, (congrArg (tget · r) hrings).trans hg, {}⟩

theorem State.served_bump (s : State) (d : Die) (f : Fld) (h : W (fkey d f)) : s.served W k (s.bump d f) :=
  State.served_of_regs (s.writesIn_wr _ h)

theorem State.served_modDie (s : State) (d : Die) (f : DieState → DieState) : s.served W k (s.modDie d f) :=
  State.served_of_regs (State.writesIn_of_regs rfl)

theorem State.served_setCtrs (s : State) (c : Tbl Counter) : s.served W k { s with ctrs := c } :=
  State.served_of_regs (State.writesIn_of_regs rfl)

theorem State.served_free (s : State) (n : Nat) : s.served W k { s with free := n } :=
  State.served_of_regs (State.writesIn_of_regs rfl)

theorem State.served_emit (s : State) (o : Output) : s.served W k (s.emit o) :=
  State.served_of_regs (State.writesIn_of_regs rfl) (hlater := s.later_emit o)

theorem State.served_hread (s : State) (f : Fn) (a n : Nat) (tr : Bool)
    (hW : ∀ x, keysOf (dmaFields (fnDie f)) x → W x := by exact fun _ => dmaKeys_of_dmaFields) : s.served W k (s.hread f a n tr) :=
  State.served_of_regs ((s.writes_hread f a n tr).mono hW) (hlater := s.later_hread ..)

theorem State.served_hwrite (s : State) (f : Fn) (a : Nat) (ro : Bool) (l : List Byte) (tr : Bool)
    (hW : ∀ x, keysOf (dmaFields (fnDie f)) x → W x := by exact fun _ => dmaKeys_of_dmaFields) : s.served W k (s.hwrite f a ro l tr) :=
  State.served_of_regs ((s.writes_hwrite f a ro l tr).mono hW) (hlater := s.later_hwrite ..)

theorem State.served_modOp (s : State) (i : Nat) (f : WOp → WOp) : s.served W k (s.modOp i f) :=
  State.served_of_regs (State.writesIn_of_regs rfl) (hlater := s.later_modOp i f)

/-- A queue other than `k` may change as it will. -/
theorem State.served_of_otherQueue (h : t.queue k = s.queue k) (hregs : t.regs = s.regs := by rfl)
    (hrings : t.rings = s.rings := by rfl) (hlater : s.later t := by exact State.later_of_eq) : s.served W k t where
  toLater := hlater
  regs := State.writesIn_of_regs hregs
  queue w hq := ⟨w, h.trans hq, {}⟩
  ring r g hg := ⟨g, (congrArg (tget · r) hrings).trans hg, {}⟩

theorem State.served_setQueue_ne (s : State) (w : WQueue) (h : j ≠ k) : s.served W k (s.setQueue j w) :=
  State.served_of_otherQueue (tget_tput_other _ _ h.symm)

theorem State.served_modQueue_ne (s : State) (f : WQueue → WQueue) (h : j ≠ k) : s.served W k (s.modQueue j f) :=
  State.served_of_otherQueue ((tget_tmod ..).trans (if_neg h.symm))

theorem State.served_setQueue (hq : s.queue j = some w) (h : w.served w') : s.served W k (s.setQueue j w') := by
  by_cases hk : j = k
  · subst hk
    exact { toLater := State.later_of_eq, regs := State.writesIn_of_regs rfl, ring := fun _ g hg => ⟨g, hg, {}⟩,
            queue := fun v hv => ⟨w', tget_tput_same .., Option.some.inj (hq.symm.trans hv) ▸ h⟩ }
  · exact s.served_setQueue_ne w' hk

theorem State.queue_modQueue (s : State) (j k : Nat) (f : WQueue → WQueue) :
    (s.modQueue j f).queue k = if k = j then (s.queue k).map f else s.queue k := tget_tmod ..

theorem State.ring_modRing (s : State) (r x : Nat) (f : CRing → CRing) :
    (s.modRing r f).ring x = if x = r then (s.ring x).map f else s.ring x := tget_tmod ..

theorem State.served_modQueue (s : State) (j : Nat) {f : WQueue → WQueue} (h : ∀ w : WQueue, w.served (f w)) : s.served W k (s.modQueue j f) := by
  by_cases hk : j = k
  · refine { toLater := State.later_of_eq, regs := State.writesIn_of_regs rfl, ring := fun _ g hg => ⟨g, hg, {}⟩,
             queue := fun v hv => ⟨f v, ?_, h v⟩ }
    rw [State.queue_modQueue, if_pos hk.symm, hv]
    rfl
  · exact s.served_modQueue_ne f hk

theorem State.served_modRing (s : State) (r : Nat) {f : CRing → CRing} (h : ∀ g : CRing, g.served (f g)) : s.served W k (s.modRing r f) where
  toLater := State.later_of_eq
  regs := State.writesIn_of_regs rfl
  queue w hq := ⟨w, hq, {}⟩
  ring x g hg := by
    rw [State.ring_modRing]
    split
    · exact ⟨f g, by rw [hg]; rfl, h g⟩
    · exact ⟨g, hg, {}⟩

theorem State.served_ite {c : Prop} [Decidable c] (h : s.served W k t) (h' : s.served W k u) : s.served W k (if c then t else u) := by
  split
  · exact h
  · exact h'

theorem State.served_when (s : State) (c : Bool) {f : State → State} (h : s.served W k (f s)) : s.served W k (s.when c f) :=
  State.served_ite h (s.served_refl W k)

theorem State.served_foldl {step : State → α → State} {l : List α} (h : ∀ x ∈ l, ∀ s : State, s.served W k (step s x)) (s : State) :
    s.served W k (l.foldl step s) := by
  induction l generalizing s with
  | nil => exact s.served_refl W k
  | cons x l ih => exact (h x (List.mem_cons_self ..) s).trans (ih (fun y hy => h y (List.mem_cons_of_mem _ hy)) _)

end Sys2Proof.Machine
end

section
/-! Each step of the work of a queue keeps what `State.served` says: caches (06_work_queues.md R162, R190), reads of slots and index records
(R168, R169), the taking of entries (R166), their start (R173, R185), and what follows a change (R178). -/

set_option Elab.async false

namespace Sys2Proof.Machine

variable {s t u : State} {k j i : Nat} {w : WQueue} {d : Die}

/-- The least recently used of a list is one of it. -/
theorem oldest_mem {α : Type} {use : α → Nat} {l : List (Nat × α)} {p : Nat × α} (h : oldest use l = some p) : p ∈ l := by
  cases l with
  | nil => exact absurd h nofun
  | cons x l =>
    have pick : ∀ (l : List (Nat × α)) (m : Nat × α), l.foldl (fun m p => if use p.2 < use m.2 then p else m) m = m ∨
        l.foldl (fun m p => if use p.2 < use m.2 then p else m) m ∈ l := by
      intro l
      induction l with
      | nil => exact fun m => .inl rfl
      | cons y l ih =>
        intro m
        rw [List.foldl_cons]
        rcases ih (if use y.2 < use m.2 then y else m) with hm | hm
        · rw [hm]
          split
          · exact .inr (List.mem_cons_self ..)
          · exact .inl rfl
        · exact .inr (List.mem_cons_of_mem _ hm)
    have hp : l.foldl _ x = p := Option.some.inj h
    rcases hp ▸ pick l x with hm | hm
    · exact hm ▸ List.mem_cons_self ..
    · exact List.mem_cons_of_mem _ hm

namespace State

/-! ## The caches (R162, R190) -/

theorem served_writeBack {W : Nat → Prop} (s : State) (f : Fn) (a b n : Nat) (l : List Byte)
    (hW : ∀ x, keysOf (dmaFields (fnDie f)) x → W x := by exact fun _ => dmaKeys_of_dmaFields) : s.served W k (s.writeBack f a b n l) :=
  (s.served_free _).trans (served_hwrite _ _ _ _ _ _ hW)

theorem served_ringEvict (s : State) (r : Nat) : s.served dmaKeys k (s.ringEvict r) := by
  unfold State.ringEvict
  split
  · exact s.served_refl _ k
  · split
    · exact s.served_refl _ k
    · exact (s.served_modRing r (fun _ => {})).trans (served_writeBack ..)

theorem served_qscEvict (s : State) (d : Die) (keep : Nat) : s.served dmaKeys k (s.qscEvict d keep) := by
  unfold State.qscEvict
  split
  · exact s.served_refl _ k
  · split
    · exact s.served_refl _ k
    · exact ((s.served_modQueue _ (fun _ => {})).trans (served_writeBack ..)).trans (served_ringEvict ..)

theorem served_touchRing (s : State) (r : Nat) : s.served dmaKeys k (s.touchRing r) := by
  unfold State.touchRing
  split
  · exact served_ite ((s.served_hread ..).trans (served_modRing _ r (fun _ => {}))) (s.served_refl _ k)
  · exact s.served_refl _ k

theorem served_touchQueue (s : State) (j : Nat) : s.served dmaKeys k (s.touchQueue j) := by
  unfold State.touchQueue
  split
  · exact s.served_refl _ k
  · have read (c : Prop) [Decidable c] (f : Fn) (a n : Nat) : s.served dmaKeys k (if c then s.hread f a n else s) :=
      served_ite (s.served_hread ..) (s.served_refl _ k)
    exact (((read ..).trans (served_modQueue _ j (fun _ => {}))).trans (served_touchRing ..)).trans (served_qscEvict ..)

/-! ## Reads (R168, R178) -/

theorem served_hreads {α : Type} (s : State) (l : List α) (f : Fn) (a : α → Nat) (n : Nat) :
    s.served dmaKeys k (l.foldl (fun s x => s.hread f (a x) n) s) :=
  served_foldl (fun _ _ s => s.served_hread ..) s

theorem served_askSlots (s : State) (j : Nat) (l : List Nat) : s.served dmaKeys k (s.askSlots j l) := by
  unfold State.askSlots
  split
  · exact s.served_refl _ k
  · next hq => exact (served_setQueue hq {}).trans (served_hreads ..)

theorem served_prefetch (s : State) (j : Nat) : s.served dmaKeys k (s.prefetch j) := by
  unfold State.prefetch
  split
  · exact s.served_refl _ k
  · exact served_ite (s.served_askSlots ..) (s.served_refl _ k)

theorem served_indexRead (s : State) (j : Nat) : s.served (queueKeys (setDie (j / 8))) k (s.indexRead j) := by
  unfold State.indexRead
  split
  · exact s.served_refl _ k
  · next w hq =>
    have flagged : w.served { w with idxOut := true } := { idxOut := fun _ => rfl }
    split
    · exact s.served_refl _ k
    · split
      · exact served_setQueue hq {}
      · exact ((served_setQueue hq flagged).trans (served_bump _ _ _ (queueKeys_indexReads _))).trans
          (((served_hread ..).trans (served_askSlots ..)).mono fun _ => queueKeys_of_dmaKeys _)

/-! ## Taking entries (R166, R169) -/

theorem served_addOp (hq : s.queue j = some w) (o : WOp) (n : Nat) : s.served dmaKeys k (s.addOp j w o n) := by
  have taken : w.served { w with
      next := add32 w.next n, ops := w.ops ++ [s.nextOp], retries := 0, retryAt := 0, flushDone := false
      cache := (List.range n).foldl (fun c i => tdel c (add32 w.next i)) w.cache } :=
    { cache := tblLoses_tdels _ _ _ }
  exact (served_setQueue hq taken).trans (served_of_regs (writesIn_of_regs rfl) (hlater := later_of_added))

theorem served_badPhase (hq : s.queue j = some w) (slot now : Nat) : s.served dmaKeys k (s.setQueue j (badPhase w slot now)) :=
  served_setQueue hq { cache := tblLoses_tdel _ _ }

theorem served_fetch (n j : Nat) (s : State) : s.served dmaKeys k (State.fetch n j s) := by
  induction n generalizing s with
  | zero => exact s.served_refl _ k
  | succ n ih =>
    unfold State.fetch
    split
    · exact s.served_refl _ k
    · next hq =>
      have taken (o : WOp) (m : Nat) := (served_addOp (k := k) hq o m).trans (ih _)
      have again (slot now : Nat) := served_badPhase (k := k) hq slot now
      dsimp only
      split
      · exact s.served_refl _ k
      · split
        · exact s.served_refl _ k
        · exact taken _ _
        · split
          · exact served_ite (again _ _) (taken _ _)
          · split
            · split
              · exact s.served_refl _ k
              · split
                · exact s.served_refl _ k
                · exact taken _ _
                · split
                  · exact served_ite (again _ _) (taken _ _)
                  · exact taken _ _
            · exact taken _ _

theorem served_fetchAll (s : State) (j : Nat) : s.served dmaKeys k (s.fetchAll j) := by
  unfold State.fetchAll
  split
  · exact served_fetch ..
  · exact s.served_refl _ k

/-! ## Starting entries (R173, R185) -/

theorem served_event (s : State) (d : Die) (n : Nat) (p : Option Nat) : s.served (queueKeys d) k (s.event d n p) :=
  served_foldl (fun _ _ s => served_ite
    (served_of_regs (s.writesIn_wr _ (queueKeys_above d (Nat.lt_of_lt_of_le (by decide) (Nat.le_add_right ..))))) (s.served_refl _ k)) s

theorem served_updConsumer (s : State) (j : Nat) : s.served dmaKeys k (s.updConsumer j) := by
  unfold State.updConsumer
  split
  · exact s.served_refl _ k
  · next hq => exact served_ite (s.served_refl _ k) ((served_setQueue hq {}).trans (served_hwrite ..))

theorem served_assign (s : State) (i : Nat) : s.served (queueKeys d) k (s.assign i) := by
  unfold State.assign
  split
  · exact s.served_refl _ k
  · dsimp only
    split
    · exact s.served_modOp ..
    · unfold State.draw
      exact ((s.served_free _).trans (served_modOp ..)).trans (served_when _ _ (served_bump _ _ _ (queueKeys_heldTransactions ..)))

/-- An operation as its start leaves it (R173): a malformed one has ended, with the reason ARG where it is a Q_JOIN. -/
def startedAs (o : WOp) : WOp :=
  if o.malformed then { o with stage := .ended, status := stFORMAT, reserved := true, aux := if eOpcode o.entry = 0x60 then 4 else o.aux }
  else { o with stage := .started, reserved := true }

/-- The queue is in use, a slot of its ring is reserved, and operation `i` is marked. -/
def marked (s : State) (j i : Nat) (w : WQueue) : State :=
  ((s.touchQueue j).modRing (ringKey (j / 8) w.cq) (fun r => { r with reserved := r.reserved + 1 })).modOp i startedAs

/-- An operation that has started and needs an engine is given to a cluster. -/
def placed (s : State) (i : Nat) : State :=
  match s.op i with
  | some o => if o.stage = Stage.started ∧ s.needsEngine o = true then s.assign i else s
  | none => s

/-- Operation `i` is a malformed Q_JOIN. -/
def badJoin (s : State) (i : Nat) : Bool := match s.op i with | some o => o.malformed && eOpcode o.entry == 0x60 | none => false

/-- The counts of a start. -/
def startCounted (s : State) (j i : Nat) (w : WQueue) : State :=
  let d := setDie (j / 8)
  ((s.when (s.badJoin i) (fun s => s.bump d QDU.JOIN_REFUSED.COUNT)).bump d WQU.ENTRIES_STARTED.COUNT).event d 12 (some w.polder)

theorem startOp_eq (s : State) (j i : Nat) (w : WQueue) :
    s.startOp j i w = (((s.marked j i w).placed i).startCounted j i w).updConsumer j := rfl

theorem served_marked (s : State) (j i : Nat) (w : WQueue) : s.served dmaKeys k (s.marked j i w) :=
  ((s.served_touchQueue j).trans (served_modRing _ _ (fun _ => {}))).trans (served_modOp ..)

theorem served_placed (s : State) (i : Nat) : s.served (queueKeys d) k (s.placed i) := by
  unfold placed
  split
  · exact served_ite (s.served_assign i) (s.served_refl _ k)
  · exact s.served_refl _ k

theorem served_startCounted (s : State) (j i : Nat) (w : WQueue) : s.served (queueKeys (setDie (j / 8))) k (s.startCounted j i w) :=
  ((s.served_when _ (served_bump _ _ _ (queueKeys_above _ (by decide)))).trans (served_bump _ _ _ (queueKeys_entriesStarted _))).trans
    (served_event ..)

theorem served_startOp (s : State) (j i : Nat) (w : WQueue) : s.served (queueKeys (setDie (j / 8))) k (s.startOp j i w) := by
  have caches {s t : State} (h : s.served dmaKeys k t) : s.served (queueKeys (setDie (j / 8))) k t :=
    h.mono fun _ => queueKeys_of_dmaKeys _
  rw [startOp_eq]
  exact (((caches (s.served_marked j i w)).trans (served_placed ..)).trans (served_startCounted ..)).trans (caches (served_updConsumer ..))

theorem served_startList (l : List Nat) (j : Nat) (s : State) : s.served (queueKeys (setDie (j / 8))) k (State.startList l j s) := by
  induction l generalizing s with
  | nil => exact s.served_refl _ k
  | cons i l ih =>
    unfold State.startList
    split
    · exact served_ite (ih s) (served_ite ((s.served_startOp ..).trans (ih _)) (s.served_refl _ k))
    · exact s.served_refl _ k

theorem served_trigUpdate (s : State) (j : Nat) : s.served dmaKeys k (s.trigUpdate j) := by
  have moved (f : DieState → DieState) : s.served dmaKeys k (s.modDie (setDie (j / 8)) f) := s.served_modDie ..
  have same := s.served_refl dmaKeys k
  unfold State.trigUpdate
  dsimp only
  split
  · exact moved _
  · exact served_ite same (served_ite (moved _) (served_ite same (moved _)))

/-! ## After a change (R178, R190) -/

theorem served_advance (s : State) (j : Nat) : s.served (queueKeys (setDie (j / 8))) k (s.advance j) := by
  have caches {s t : State} (h : s.served dmaKeys k t) : s.served (queueKeys (setDie (j / 8))) k t :=
    h.mono fun _ => queueKeys_of_dmaKeys _
  unfold State.advance
  split
  · exact s.served_refl _ k
  · exact (served_ite (caches (s.served_trigUpdate j)) (s.served_startList _ j)).trans (caches (served_prefetch ..))

theorem served_checkFlush (s : State) (j : Nat) : s.served dmaKeys k (s.checkFlush j) :=
  s.served_modQueue j fun w => by split <;> exact {}

theorem later_dropFrom (s : State) (j i : Nat) (keep : Nat → Bool) : s.later (s.dropFrom j i keep) := by
  unfold State.dropFrom
  split
  · exact later_of_loses (tblLoses_tdels id _ _)
  · exact s.later_refl

/-- A queue that gives up slots is not `k`. -/
theorem served_dropFrom_ne (s : State) (i : Nat) (keep : Nat → Bool) (h : j ≠ k) : s.served dmaKeys k (s.dropFrom j i keep) := by
  have later := s.later_dropFrom j i keep
  unfold State.dropFrom at later ⊢
  dsimp only at later ⊢
  split at later
  · exact served_of_otherQueue (tget_tput_other _ _ h.symm) (hlater := later)
  · exact s.served_refl _ k

theorem served_trimQueue_ne (s : State) (h : j ≠ k) : s.served dmaKeys k (s.trimQueue j) := by
  unfold State.trimQueue
  split
  · exact s.served_refl _ k
  · dsimp only
    split
    · exact s.served_setQueue_ne _ h
    · have dropped (i : Nat) (keep : Nat → Bool) (f : WQueue → WQueue) : s.served dmaKeys k ((s.dropFrom j i keep).modQueue j f) :=
        (s.served_dropFrom_ne i keep h).trans (served_modQueue_ne _ f h)
      refine served_ite ?_ (dropped ..)
      split
      · exact dropped ..
      · exact s.served_setQueue_ne _ h

/-- The prefetch cache is kept within its size at the cost of other queues (R190). -/
theorem served_pfTrim (n : Nat) (d : Die) (k : Nat) (s : State) : s.served dmaKeys k (State.pfTrim n d k s) := by
  induction n generalizing s with
  | zero => exact s.served_refl _ k
  | succ n ih =>
    have other {c : Nat × WQueue → Bool} {p : Nat × WQueue} (hp : oldest WQueue.lastUse
        ((s.queues.filter (fun p => setDie (p.1 / 8) == d && p.1 != k)).filter c) = some p) : p.1 ≠ k := by
      have listed := (List.mem_filter.mp (List.mem_filter.mp (oldest_mem hp)).1).2
      simp only [Bool.and_eq_true, bne_iff_ne] at listed
      exact listed.2
    unfold State.pfTrim
    split
    · exact s.served_refl _ k
    · dsimp only
      split
      · next hp => exact (s.served_trimQueue_ne (other hp)).trans (ih _)
      · next hp => exact (s.served_trimQueue_ne (other hp)).trans (ih _)
      · exact s.served_refl _ k

theorem served_pumpQueue (s : State) (k : Nat) : s.served (queueKeys (setDie (k / 8))) k (s.pumpQueue k) := by
  have caches {s t : State} (h : s.served dmaKeys k t) : s.served (queueKeys (setDie (k / 8))) k t :=
    h.mono fun _ => queueKeys_of_dmaKeys _
  exact (((caches (s.served_fetchAll k)).trans (served_advance ..)).trans (caches (served_checkFlush ..))).trans (caches (served_pfTrim ..))

end State

end Sys2Proof.Machine
end

section
/-! A queue and a counter in use: what is found of them in their caches (06_work_queues.md R182, R184, R190), and that a read of a queue's
index record goes out (R168). -/

set_option Elab.async false

namespace Sys2Proof.Machine

variable {s t : State} {W : Nat → Prop} {k j : Nat} {w : WQueue} {f : Fn} {d : Die} {up : Counter → Counter}

/-! ## What a use of the caches leaves alone -/

/-- Groups that no use of a queue or a counter changes. -/
def cacheGroups (g : Grp) : Bool := !([Grp.queues, .rings, .counters, .out, .free, .regs].contains g)

namespace State

theorem carried_touchQueue (hw : tblWf s.regs = true) (j : Nat) : s.carried cacheGroups (s.touchQueue j) := by
  have kept : Holds cacheGroups (s.carried cacheGroups) (s.touchQueue j) := by
    apply State.touchQueue_keeps _ _ (State.carried_refl _ hw) <;> rfl
  exact kept.holds

theorem carried_ctrUpdate (hw : tblWf s.regs = true) (k : Nat) (up : Counter → Counter) : s.carried cacheGroups (s.ctrUpdate k up) := by
  have kept : Holds cacheGroups (s.carried cacheGroups) (s.ctrUpdate k up) := by
    apply State.ctrUpdate_keeps _ _ _ (State.carried_refl _ hw) <;> rfl
  exact kept.holds

/-- Where the ports and the part stand, the coherence of a port hangs on a register that no queue writes. -/
theorem carried.coherent {K : Grp → Bool} (h : s.carried K t) (hregs : s.writesIn (queueKeys d) t) (hw : tblWf s.regs = true)
    (hp : Fin 4) (hK : K .ports = true := by rfl) : t.coherent hp = s.coherent hp :=
  State.coherent_congr (h.hps hK) h.part (hregs.rd hw (not_queueKeys (.inr rfl) (by decide) (by decide))) hp

theorem carried.die_polders {K : Grp → Bool} (h : s.carried K t) (d : Die) (hK : K .polders = true := by rfl) :
    (t.die d).polders = (s.die d).polders := by
  obtain ⟨⟨ha, -⟩, ⟨hb, -⟩⟩ := h.same .polders hK
  cases d
  · exact ha
  · exact hb

/-! ## A queue in use -/

/-- No queue is written back for its own sake (R190). -/
theorem queue_qscEvict (s : State) (d : Die) (k : Nat) : (s.qscEvict d k).queue k = s.queue k := by
  have rings (s : State) (r : Nat) : (s.ringEvict r).queue k = s.queue k := by
    have kept : Holds (· == .queues) (s.standing (· == .queues)) (s.ringEvict r) := by
      apply State.ringEvict_keeps _ _ (s.holds_standing _) <;> rfl
    exact congrArg (tget · k) (kept.holds .queues rfl)
  unfold State.qscEvict
  split
  · rfl
  · split
    · rfl
    · next hold =>
      have listed := (List.mem_filter.mp (oldest_mem hold)).2
      simp only [Bool.and_eq_true, bne_iff_ne] at listed
      obtain ⟨⟨⟨-, -⟩, other⟩, -⟩ := listed
      exact (rings ..).trans ((s.queue_modQueue ..).trans (if_neg (Ne.symm other)))

theorem queues_touchRing (s : State) (r : Nat) : (s.touchRing r).queues = s.queues := by
  unfold State.touchRing
  split
  · split <;> rfl
  · rfl

/-- A queue in use is held, or on its way, and its use is noted. -/
theorem queue_touchQueue (hq : s.queue k = some w) :
    ∃ r n, (s.touchQueue k).queue k = some { w with resid := r, lastUse := n } := by
  have noted (u : State) (hu : u.queues = s.queues) : (u.modQueue k (fun q => { q with
      resid := if q.resid = .evicted then .reading else q.resid, lastUse := u.now })).queue k =
      some { w with resid := if w.resid = .evicted then .reading else w.resid, lastUse := u.now } := by
    rw [State.queue_modQueue, if_pos rfl, show u.queue k = some w from (congrArg (tget · k) hu).trans hq]
    rfl
  unfold State.touchQueue
  rw [hq]
  dsimp only
  rw [queue_qscEvict]
  exact ⟨_, _, (congrArg (tget · k) (queues_touchRing ..)).trans (noted _ (by split <;> rfl))⟩

/-! ## The read of an index record (R168) -/

theorem asked_mem_hread (s : State) (f : Fn) (a n : Nat) : s.asked f a n ∈ (s.hread f a n).out := List.mem_append_right _ (List.mem_cons_self ..)

theorem wrote_mem_hwrite (s : State) (f : Fn) (a : Nat) (l : List Byte) : s.wrote f a false l ∈ (s.hwrite f a false l).out :=
  List.mem_append_right _ (List.mem_cons_self ..)

/-- A queue whose polder is open reads its index record, where no such read is out. -/
theorem asked_indexRead (hw : tblWf s.regs = true) (hq : s.queue k = some w) (ho : w.idxOut = false)
    (hc : s.fnClosed (setFn (k / 8)) = false) : s.asked (setFn (k / 8)) w.indexAddr 64 ∈ (s.indexRead k).out ∧
      ∃ w', (s.indexRead k).queue k = some w' ∧ w'.idxOut = true ∧ w.served w' := by
  have flagged : w.served { w with idxOut := true } := { idxOut := fun _ => rfl }
  let u := (s.setQueue k { w with idxOut := true }).bump (setDie (k / 8)) WQU.INDEX_READS.COUNT
  let l := (List.range 4).map (fun i => add32 w.next (reach { w with idxOut := true } + i))
  obtain ⟨l, run⟩ : ∃ l, s.indexRead k = (u.hread (setFn (k / 8)) w.indexAddr 64).askSlots k l := by
    unfold State.indexRead
    rw [hq]
    dsimp only
    rw [hc, ho]
    exact ⟨_, rfl⟩
  have regs : s.writesIn (queueKeys (setDie (k / 8))) u :=
    ((served_setQueue hq flagged).trans (served_bump (k := k) _ _ _ (queueKeys_indexReads _))).regs
  have coherent : u.coherent (setFn (k / 8)).hp = s.coherent (setFn (k / 8)).hp :=
    State.coherent_congr (s := s) (t := u) rfl rfl (regs.rd hw (not_queueKeys (.inr rfl) (by decide) (by decide))) _
  have slots := (u.hread (setFn (k / 8)) w.indexAddr 64).served_askSlots (k := k) k l
  rw [run, ← State.asked_congr coherent]
  refine ⟨slots.out (u.asked_mem_hread ..), ?_⟩
  obtain ⟨w', hq', hw'⟩ := slots.queue { w with idxOut := true } (tget_tput_same ..)
  exact ⟨w', hq', hw'.idxOut rfl, flagged.trans hw'⟩

/-- The same of a queue that is first taken into use. -/
theorem asked_touched_indexRead (hw : tblWf s.regs = true) (hq : s.queue k = some w) (ho : w.idxOut = false)
    (hc : s.fnClosed (setFn (k / 8)) = false) :
    s.asked (setFn (k / 8)) w.indexAddr 64 ∈ ((s.touchQueue k).indexRead k).out ∧
      ∃ w', ((s.touchQueue k).indexRead k).queue k = some w' ∧ w'.idxOut = true ∧ w.served w' := by
  obtain ⟨r, n, hq'⟩ := queue_touchQueue hq
  have carried := carried_touchQueue hw k
  have regs : s.writesIn (queueKeys (fnDie (setFn (k / 8)))) (s.touchQueue k) :=
    (s.served_touchQueue (k := k) k).regs.mono fun _ => queueKeys_of_dmaKeys _
  have closed : (s.touchQueue k).fnClosed (setFn (k / 8)) = false :=
    (State.fnClosed_congr (regs.polderOf hw) (carried.die_polders _)).trans hc
  obtain ⟨asked, w', hw', out, served⟩ := asked_indexRead carried.wf hq' ho closed
  exact ⟨State.asked_congr (carried.coherent regs hw _) .. ▸ asked, w', hw', out,
    WQueue.served.trans {} served⟩

/-! ## Counters (R182, R184, R190) -/

theorem counter_setCtr (s : State) (k : Nat) (c : Counter) : ({ s with ctrs := tput s.ctrs k c } : State).counter k = c :=
  congrArg (Option.getD · ctrZero) (tget_tput_same s.ctrs k c)

theorem served_ctrEvict (s : State) (d : Die) (keep : Nat) : s.served (keysOf (dmaFields d)) j (s.ctrEvict d keep) := by
  unfold State.ctrEvict
  split
  · exact s.served_refl _ j
  · split
    · exact s.served_refl _ j
    · next k c hold =>
      have listed := (List.mem_filter.mp (oldest_mem hold)).2
      simp only [Bool.and_eq_true, beq_iff_eq] at listed
      obtain ⟨⟨⟨die, -⟩, -⟩, -⟩ := listed
      have keys : ∀ x, keysOf (dmaFields (fnDie (setFn (k / 16)))) x → keysOf (dmaFields d) x := fun _ h => die ▸ h
      exact (served_writeBack _ _ _ _ _ _ keys).trans (served_setCtrs ..)

/-- No counter is written back for its own sake. -/
theorem counter_ctrEvict (s : State) (d : Die) (k : Nat) : (s.ctrEvict d k).counter k = s.counter k := by
  unfold State.ctrEvict
  split
  · rfl
  · split
    · rfl
    · next hold =>
      have listed := (List.mem_filter.mp (oldest_mem hold)).2
      simp only [Bool.and_eq_true, bne_iff_ne] at listed
      obtain ⟨⟨⟨-, -⟩, other⟩, -⟩ := listed
      exact congrArg (Option.getD · ctrZero) (tget_tput_other _ _ (Ne.symm other))

theorem served_touchCtr (s : State) (k : Nat) : s.served (keysOf (dmaFields (setDie (k / 16)))) j (s.touchCtr k) := by
  unfold State.touchCtr
  dsimp only
  split
  · exact s.served_refl _ j
  · have read (c : Bool) : s.served (keysOf (dmaFields (setDie (k / 16)))) j (s.when c (fun s => s.hread (setFn (k / 16)) (s.ctrRec k) 64)) :=
      served_when _ _ (s.served_hread _ _ _ _ (fun _ h => h))
    exact ((read _).trans (served_setCtrs ..)).trans (served_ctrEvict ..)

/-- A counter in use keeps its values. -/
theorem counter_touchCtr (s : State) (k : Nat) : ∃ r n, (s.touchCtr k).counter k = { s.counter k with resid := r, lastUse := n } := by
  unfold State.touchCtr
  dsimp only
  split
  · exact ⟨(s.counter k).resid, (s.counter k).lastUse, rfl⟩
  · rw [counter_ctrEvict]
    exact ⟨_, _, counter_setCtr ..⟩

theorem served_ctrUpdate (s : State) (k : Nat) (up : Counter → Counter) :
    s.served (keysOf (dmaFields (setDie (k / 16)))) j (s.ctrUpdate k up) :=
  served_ite (s.served_refl _ j) ((s.served_setCtrs _).trans (served_touchCtr ..))

/-- A counter of a set with a context block changes. -/
theorem counter_ctrUpdate (h : s.context (k / 16) ≠ 0) (up : Counter → Counter) :
    ∃ r n, (s.ctrUpdate k up).counter k = { up (s.counter k) with dirty := true, resid := r, lastUse := n } := by
  obtain ⟨r, n, touched⟩ := counter_touchCtr { s with ctrs := tput s.ctrs k { up (s.counter k) with dirty := true } } k
  rw [counter_setCtr] at touched
  unfold State.ctrUpdate
  rw [if_neg h]
  exact ⟨r, n, touched⟩

end State

end Sys2Proof.Machine
end

section
/-! The number of queue sets of a function (O31), and the writes of the doorbell page and of CONTEXT_ADDR (O30): what each does once it has
passed the check at ingress (04_polders.md R106; 06_work_queues.md R159, R191, R192, R195). -/

set_option Elab.async false

namespace Sys2Proof.Machine

variable {s t : State} {rq : Requester} {f : Fn} {q : Fin 128} {k : Nat} {w : WQueue} {g : CRing}

/-! ## FN_SETS (R195) -/

theorem exec_fnSetsWrite (h : s.warden rq) (n : Byte) : exec (.fnSetsWrite rq f n) s = .next (s.writeFnSets f n.toNat) := by
  obtain ⟨hbar, hpriv⟩ := h
  show execFnSetsWrite rq f n s = _
  rw [execFnSetsWrite, hbar, hpriv]
  rfl

/-- A set that a function would lose has a queue out of RESET or a ring. -/
def State.setsInUse (s : State) (f : Fn) (n : Nat) : Bool :=
  s.queues.any (fun p => setFn (p.1 / 8) == f && n ≤ p.1 / 8 % 128) || s.rings.any (fun p => setFn (p.1 / 4) == f && n ≤ p.1 / 4 % 128)

theorem Runs.fnSetsWrite_taken (hw : tblWf s.regs = true) (h : s.warden rq) {n : Byte} (hn : n.toNat ≤ 128)
    (hu : s.setsInUse f n.toNat = false) : Runs (.fnSetsWrite rq f n) s (fun t =>
      t.rd (fnDie f) (WQU.FN_SETS.SETS (fnIdx f)) = n.toNat ∧ onlyFields [(fnDie f, WQU.FN_SETS.SETS (fnIdx f))] s t) := by
  have run : s.writeFnSets f n.toNat = s.wr (fnDie f) (WQU.FN_SETS.SETS (fnIdx f)) n.toNat :=
    if_neg (not_or.mpr ⟨Nat.not_lt.mpr hn, Bool.eq_false_iff.mp hu⟩)
  refine .of_next ((exec_fnSetsWrite h n).trans (congrArg _ run)) ⟨?_, (s.writesIn_wr _ ⟨_, .head _, rfl⟩).onlyFields hw⟩
  exact (s.rd_wr_same _ _ _ hw).trans (Nat.mod_eq_of_lt n.isLt)

theorem Runs.fnSetsWrite_refused (hw : tblWf s.regs = true) (h : s.warden rq) {n : Byte}
    (hn : 128 < n.toNat ∨ s.setsInUse f n.toNat = true) : Runs (.fnSetsWrite rq f n) s (fun t =>
      t.rd (fnDie f) (HDR.STATUS.CFG_REJECT 0x400000) = 1 ∧ counted (fnDie f) (HDR.CFG_REJECT_COUNT.COUNT 0x400000) s t ∧
      onlyFields [(fnDie f, HDR.STATUS.CFG_REJECT 0x400000), (fnDie f, HDR.CFG_REJECT_COUNT.COUNT 0x400000)] s t) := by
  let u := s.bump (fnDie f) (HDR.CFG_REJECT_COUNT.COUNT 0x400000)
  have run : s.writeFnSets f n.toNat = u.wr (fnDie f) (HDR.STATUS.CFG_REJECT 0x400000) 1 := if_pos hn
  have apart : fkey (fnDie f) (HDR.CFG_REJECT_COUNT.COUNT 0x400000) ≠ fkey (fnDie f) (HDR.STATUS.CFG_REJECT 0x400000) :=
    fkey_ne_of_off _ (by decide) (by decide) (by decide)
  have hu : tblWf u.regs = true := s.bump_wf _ _ hw
  refine .of_next ((exec_fnSetsWrite h n).trans (congrArg _ run)) ⟨u.rd_wr_same _ _ _ hu, ?_, ?_⟩
  · exact (u.rd_wr_other _ hu apart).trans (s.rd_bump_same _ _ hw)
  · exact ((s.writesIn_wr _ ⟨_, .tail _ (.head _), rfl⟩).trans (u.writesIn_wr _ ⟨_, .head _, rfl⟩)).onlyFields hw

/-- What a privilege violation records (03_register_model.md R81, R88). -/
theorem State.rd_privViolation (hw : tblWf s.regs = true) (g : Fn) {off : Nat} (hoff : off < 2 ^ 27) :
    (s.privViolation (.fn g) 0 off).rd .a GLB.PRIV_VIOLATION_LAST.REQUESTER = fnNum g ∧
    (s.privViolation (.fn g) 0 off).rd .a GLB.PRIV_VIOLATION_LAST.VIEW = 0 ∧
    (s.privViolation (.fn g) 0 off).rd .a GLB.PRIV_VIOLATION_LAST.OFFSET = off := by
  have number : fnNum g < 2 ^ 10 := by
    have := g.hp.isLt
    have := g.fn.isLt
    unfold fnNum
    omega
  have hb := s.bump_wf .a GLB.PRIV_VIOLATION_COUNT.COUNT hw
  exact ⟨State.rd_wrs 0 hb (hx := Nat.mod_eq_of_lt number), State.rd_wrs 1 hb, State.rd_wrs 2 hb (hx := Nat.mod_eq_of_lt hoff)⟩

theorem Runs.fnSetsWrite_unprivileged (hw : tblWf s.regs = true) {g : Fn} (hbar : s.barUp (.fn g) = true)
    (hpriv : s.privileged (.fn g) = false) (n : Byte) : Runs (.fnSetsWrite (.fn g) f n) s (fun t =>
      counted .a GLB.PRIV_VIOLATION_COUNT.COUNT s t ∧ t.rd .a GLB.PRIV_VIOLATION_LAST.REQUESTER = fnNum g ∧
      t.rd .a GLB.PRIV_VIOLATION_LAST.VIEW = 0 ∧
      t.rd .a GLB.PRIV_VIOLATION_LAST.OFFSET = (fnDie f).base + (WQU.FN_SETS.SETS (fnIdx f)).off ∧ onlyFields violationFields s t) := by
  let off := (fnDie f).base + (WQU.FN_SETS.SETS (fnIdx f)).off
  have run : exec (.fnSetsWrite (.fn g) f n) s = .next (s.privViolation (.fn g) 0 off) := by
    show execFnSetsWrite (.fn g) f n s = _
    rw [execFnSetsWrite, hbar, hpriv]
    rfl
  have place : off < 2 ^ 27 := by
    have idx := fnIdx_lt f
    have base : (fnDie f).base ≤ 0x4000000 := by cases fnDie f <;> decide
    show (fnDie f).base + (0x410000 + 0x8 * fnIdx f) < 2 ^ 27
    omega
  obtain ⟨requester, view, offset⟩ := State.rd_privViolation hw g place
  exact .of_next run ⟨State.rd_privViolation_count hw g 0 off, requester, view, offset, (s.writesIn_privViolation g 0 off).onlyFields hw⟩

/-- Settles O31: a warden's write is tested against the sets in use, and any other is a violation or reaches nothing. -/
theorem functionSets : Obligations.FunctionSets := by
  rintro s rq f n ⟨hw, -⟩
  refine ⟨fun h => Runs.fnSetsWrite_taken hw h, fun h => Runs.fnSetsWrite_refused hw h, ?_, fun hbar => ?_⟩
  · rintro g rfl hbar hpriv
    exact Runs.fnSetsWrite_unprivileged hw hbar hpriv n
  · exact .of_next (congrArg Host.Outcome.next (if_pos (by rw [hbar]; rfl))) rfl

/-! ## The doorbell page (R168, R173, R182, R191) -/

theorem State.ingress_passed (hi : s.ingressOk f = true) (hs : s.hasSet f q = true) (act : State → State) : s.ingress f q act = act s := by
  simp [State.ingress, hi, hs]

/-! ### What a ring's consumed slots bring about -/

theorem State.served_msix (s : State) (r : Nat) : s.served dmaKeys k (s.msix r) := by
  unfold State.msix
  split
  · exact s.served_refl _ k
  · exact State.served_ite ((s.served_emit _).trans (State.served_modRing _ r (fun _ => {}))) (s.served_refl _ k)

/-- The ring of a write of RING_CONS before it lets its queues go on. -/
def State.ringReturned (s : State) (r i : Nat) (arm : Bool) (g : CRing) : State :=
  ((s.touchRing r).modRing r (fun g => { g with consumed := i, armed := g.armed || arm })).when (arm && g.written != i) (fun s => s.msix r)

theorem State.ringCons_eq {r i : Nat} {arm : Bool} (hg : s.ring r = some g) (h : sub32 i g.consumed ≤ sub32 g.written g.consumed) :
    s.ringCons r i arm = (List.range 8).foldl (fun s b => s.advance (qKey (r / 4) b)) (s.ringReturned r i arm g) := by
  unfold State.ringCons
  rw [hg]
  exact if_neg (Nat.not_lt.mpr h)

/-! ### The registers of a queue control page -/

theorem State.qc_setQc (s : State) (sk : Nat) (p : QcPage) : (s.setQc sk p).qc sk = p := congrArg (Option.getD · qcZero) (tget_tput_same ..)

/-- A context block that is stored changes no queue and no register field. -/
theorem State.contextWrite_idle {sk a : Nat} (h : s.setIdle sk = true) : ∃ c, s.contextWrite sk a =
    { s.setQc sk { s.qc sk with context := a / 2048 % 2 ^ 46 * 2048 } with ctrs := c } := by
  unfold State.contextWrite
  rw [if_pos h]
  dsimp only
  split
  · exact ⟨s.ctrs, rfl⟩
  · exact ⟨_, rfl⟩

/-! ### The writes -/

theorem Runs.doorbell_badSize {b : Fin 8} {size : Nat} (hw : tblWf s.regs = true) (hi : s.ingressOk f = true) (h4 : size ≠ 4)
    (h8 : size ≠ 8) : Runs (.doorbell f q b size) s (fun t => t.queues = s.queues ∧ counted .a GLB.ACCESS_ERROR_COUNT.COUNT s t ∧
      onlyFields [(.a, GLB.ACCESS_ERROR_COUNT.COUNT)] s t) := by
  have run : exec (.doorbell f q b size) s = .next (s.bump .a GLB.ACCESS_ERROR_COUNT.COUNT) := by
    show execDoorbell f q b size s = _
    have word : wordSize size = false := by simp [wordSize, h4, h8]
    rw [execDoorbell, word, if_neg nofun, hi]
    rfl
  exact .of_next run ⟨rfl, s.rd_bump_same _ _ hw, (s.writesIn_wr _ ⟨_, .head _, rfl⟩).onlyFields hw⟩

section
variable (hi : s.ingressOk f = true) (hs : s.hasSet f q = true)
include hi hs

theorem Runs.doorbell {b : Fin 8} {size : Nat} (hw : tblWf s.regs = true) (hsize : size = 4 ∨ size = 8)
    (hq : s.queue (qKey (setKey f q.val) b.val) = some w) (ha : w.st = .active) (ho : w.idxOut = false) :
    Runs (.doorbell f q b size) s (fun t => counted (fnDie f) WQU.DOORBELLS.COUNT s t ∧ s.asked f w.indexAddr 64 ∈ t.out ∧
      ∃ w', t.queue (qKey (setKey f q.val) b.val) = some w' ∧ w'.idxOut = true ∧ w'.st = .active) := by
  let key := qKey (setKey f q.val) b.val
  let u := s.bump (fnDie f) WQU.DOORBELLS.COUNT
  have fn : setFn (key / 8) = f := by rw [qKey_div, setFn_setKey]
  have die : setDie (key / 8) = fnDie f := congrArg fnDie fn
  have run : exec (.doorbell f q b size) s = .next ((u.touchQueue key).indexRead key) := by
    show execDoorbell f q b size s = _
    have word : wordSize size = true := by rcases hsize with rfl | rfl <;> rfl
    rw [execDoorbell, word, if_pos rfl, State.ingress_passed hi hs]
    unfold State.ringBell
    dsimp only
    rw [show (s.bump (fnDie f) WQU.DOORBELLS.COUNT).queue (qKey (setKey f q.val) b.val) = some w from hq]
    dsimp only
    rw [if_pos (.inl ha), ho]
    rfl
  have hu : tblWf u.regs = true := s.bump_wf _ _ hw
  have regs : u.writesIn (queueKeys (fnDie f)) ((u.touchQueue key).indexRead key) :=
    die ▸ ((u.served_touchQueue (k := key) key).regs.mono fun _ => queueKeys_of_dmaKeys _).trans
      (State.served_indexRead (k := key) (u.touchQueue key) key).regs
  have bumped {d : Die} {fld : Fld} (h : fkey d fld ≠ fkey (fnDie f) WQU.DOORBELLS.COUNT) : u.rd d fld = s.rd d fld :=
    s.rd_wr_other _ hw h
  have coherent : u.coherent f.hp = s.coherent f.hp := by
    refine State.coherent_congr (s := s) (t := u) rfl rfl (bumped ?_) _
    cases fnDie f <;> decide
  have polder : u.polderOf f = s.polderOf f := State.polderOf_congr fun fld hoff hlo => bumped (fkey_ne_of_off _ (by
    have idx := fnIdx_lt f
    rw [hoff]
    show _ ≠ 0x400058
    omega) hlo (by decide))
  have closed : u.fnClosed (setFn (key / 8)) = false := by
    rw [fn]
    exact (State.fnClosed_congr polder rfl).trans (State.fnClosed_of_ingressOk hi)
  obtain ⟨asked, w', hq', out, served⟩ := State.asked_touched_indexRead (s := u) (k := key) hu hq ho closed
  rw [fn, State.asked_congr coherent] at asked
  refine .of_next run ⟨?_, asked, w', hq', out, served.st.trans ha⟩
  exact (regs.rd hu (not_queueKeys_doorbells _)).trans (s.rd_bump_same _ _ hw)

theorem Runs.ctrAdd {c : Fin 16} {v : W32} (hw : tblWf s.regs = true) (hc : s.context (setKey f q.val) ≠ 0) :
    Runs (.ctrAdd f q c v) s (fun t =>
      (t.counter (ctrKey (setKey f q.val) c.val)).count =
        (s.counter (ctrKey (setKey f q.val) c.val)).count + BitVec.ofNat 64 v.toNat ∧
      (t.counter (ctrKey (setKey f q.val) c.val)).tally = (s.counter (ctrKey (setKey f q.val) c.val)).tally ∧
      onlyFields (dmaFields (fnDie f)) s t) := by
  have run : exec (.ctrAdd f q c v) s = .next (s.ctrAdd (ctrKey (setKey f q.val) c.val) v.toNat) :=
    congrArg Host.Outcome.next (State.ingress_passed hi hs _)
  obtain ⟨r, n, value⟩ := State.counter_ctrUpdate (s := s) (k := ctrKey (setKey f q.val) c.val) (by rwa [ctrKey_div])
    (fun c => { c with count := c.count + BitVec.ofNat 64 v.toNat })
  have regs := (s.served_ctrUpdate (j := 0) (ctrKey (setKey f q.val) c.val)
    (fun c => { c with count := c.count + BitVec.ofNat 64 v.toNat })).regs
  rw [ctrKey_div, setDie_setKey] at regs
  exact .of_next run ⟨(congrArg Counter.count value).trans rfl, (congrArg Counter.tally value).trans rfl, regs.onlyFields hw⟩

theorem Runs.ringConsWrite {r : Fin 4} {i : W32} {arm : Bool} (hg : s.ring (ringKey (setKey f q.val) r.val) = some g)
    (h : sub32 i.toNat g.consumed ≤ sub32 g.written g.consumed) : Runs (.ringConsWrite f q r i arm) s (fun t =>
      ∃ g', t.ring (ringKey (setKey f q.val) r.val) = some g' ∧ g'.consumed = i.toNat) := by
  let key := ringKey (setKey f q.val) r.val
  have run : exec (.ringConsWrite f q r i arm) s = .next (s.ringCons key i.toNat arm) :=
    congrArg Host.Outcome.next (State.ingress_passed hi hs _)
  obtain ⟨g1, hg1, -⟩ := (s.served_touchRing (k := 0) key).ring key g hg
  have stored : ((s.touchRing key).modRing key (fun g => { g with consumed := i.toNat, armed := g.armed || arm })).ring key =
      some { g1 with consumed := i.toNat, armed := g1.armed || arm } := by
    rw [State.ring_modRing, if_pos rfl, hg1]
    rfl
  obtain ⟨g2, hg2, kept2⟩ := (State.served_when (k := 0) (f := fun s => s.msix key) _ (arm && g.written != i.toNat)
    (State.served_msix _ key)).ring key _ stored
  obtain ⟨g3, hg3, kept3⟩ := (State.served_foldl (k := 0) (W := fun _ => True) (l := List.range 8)
    (fun b _ s => (s.served_advance (qKey (key / 4) b)).anyKeys) (s.ringReturned key i.toNat arm g)).ring key g2 hg2
  rw [State.ringCons_eq hg h] at run
  exact .of_next run ⟨g3, hg3, kept3.consumed.trans kept2.consumed⟩

theorem Runs.ringConsWrite_tooMany {r : Fin 4} {i : W32} {arm : Bool} (hg : s.ring (ringKey (setKey f q.val) r.val) = some g)
    (h : sub32 g.written g.consumed < sub32 i.toNat g.consumed) : Runs (.ringConsWrite f q r i arm) s (fun t => t = s) := by
  have nothing : s.ringCons (ringKey (setKey f q.val) r.val) i.toNat arm = s := by
    unfold State.ringCons
    rw [hg]
    exact if_pos h
  exact .of_next (congrArg Host.Outcome.next ((State.ingress_passed hi hs _).trans nothing)) rfl

/-! ## CONTEXT_ADDR (R192) -/

theorem Runs.contextAddrWrite {a : W64} (h : s.setIdle (setKey f q.val) = true) : Runs (.contextAddrWrite f q a) s (fun t =>
    t.context (setKey f q.val) = a.toNat / 2048 % 2 ^ 46 * 2048 ∧ t.queues = s.queues ∧ onlyFields [] s t) := by
  obtain ⟨c, stored⟩ := State.contextWrite_idle (a := a.toNat) h
  have run : exec (.contextAddrWrite f q a) s = .next (s.contextWrite (setKey f q.val) a.toNat) :=
    congrArg Host.Outcome.next (State.ingress_passed hi hs _)
  rw [stored] at run
  exact .of_next run ⟨congrArg QcPage.context (s.qc_setQc ..), rfl, onlyFields_of_regs rfl⟩

theorem Runs.contextAddrWrite_refused {a : W64} (h : s.setIdle (setKey f q.val) = false) : Runs (.contextAddrWrite f q a) s (fun t =>
    t.context (setKey f q.val) = s.context (setKey f q.val) ∧ (t.qc (setKey f q.val)).cfgReject = true ∧ t.ctrs = s.ctrs) := by
  have refused : s.contextWrite (setKey f q.val) a.toNat =
      s.setQc (setKey f q.val) { s.qc (setKey f q.val) with cfgReject := true } := if_neg (Bool.eq_false_iff.mp h)
  refine .of_next (congrArg Host.Outcome.next ((State.ingress_passed hi hs _).trans refused)) ⟨?_, ?_, rfl⟩
  · exact (congrArg QcPage.context (s.qc_setQc ..)).trans rfl
  · exact (congrArg QcPage.cfgReject (s.qc_setQc ..)).trans rfl

end

/-- Settles O30: each write acts behind the check, and what a queue or a counter does next keeps what the statement names. -/
theorem queuePageWrites : Obligations.QueuePageWrites := by
  rintro s f q ⟨hw, -⟩ hs hi
  exact ⟨fun _ _ _ hsize => Runs.doorbell hi hs hw hsize, fun _ _ => Runs.doorbell_badSize hw hi,
    fun _ _ => Runs.ctrAdd hi hs hw, fun _ _ _ _ => Runs.ringConsWrite hi hs, fun _ _ _ _ => Runs.ringConsWrite_tooMany hi hs,
    fun _ => Runs.contextAddrWrite hi hs, fun _ => Runs.contextAddrWrite_refused hi hs⟩

end Sys2Proof.Machine
end

section
/-! The commands of QC_CMD (O32): what each leaves once it has passed the check at ingress and no command is under way
(06_work_queues.md R160, R161, R171, R178, R183, R192, R193). -/

set_option Elab.async false

namespace Sys2Proof.Machine

variable {s t u : State} {f : Fn} {q : Fin 128} {k : Fin 8} {m : BitVec 16} {key sk d : Nat} {w : WQueue}

/-! ## The page of a set -/

namespace State

/-- The page of a set as a command that begins leaves it. -/
def qcBegun (s : State) (sk op target mask : Nat) : State := s.setQc sk { s.qc sk with op := op, target := target, mask := mask }

/-- The last command of a set has ended with OK, and answers `d`. -/
structure qcDone (t : State) (sk d : Nat) : Prop where
  done : (t.qc sk).done = true
  busy : (t.qc sk).busy = false
  code : (t.qc sk).code = 0
  detail : (t.qc sk).detail = d

theorem qcDone.ok (h : t.qcDone sk d) : (t.qc sk).done = true ∧ (t.qc sk).busy = false ∧ (t.qc sk).code = 0 := ⟨h.done, h.busy, h.code⟩

theorem qcDone_qcEnd (u : State) (sk d : Nat) : (u.qcEnd sk stOK d).qcDone sk d where
  done := congrArg QcPage.done (u.qc_setQc ..)
  busy := congrArg QcPage.busy (u.qc_setQc ..)
  code := congrArg QcPage.code (u.qc_setQc ..)
  detail := congrArg QcPage.detail (u.qc_setQc ..)

theorem context_qcBegun (s : State) (sk op target mask : Nat) : (s.qcBegun sk op target mask).context sk = s.context sk :=
  (congrArg QcPage.context (s.qc_setQc ..)).trans rfl

theorem slot_qcBegun (s : State) (sk op target mask : Nat) : ((s.qcBegun sk op target mask).qc sk).slot = (s.qc sk).slot :=
  (congrArg QcPage.slot (s.qc_setQc ..)).trans rfl

section
variable (hi : s.ingressOk f = true) (hs : s.hasSet f q = true)
include hi hs

theorem qcCommand_ok {op target mask : Nat} {act : Nat → State → Except Nat (State × Nat)} {pre : Nat → State → State}
    (hb : (s.qc (setKey f q.val)).busy = false)
    (h : act (setKey f q.val) (pre (setKey f q.val) (s.qcBegun (setKey f q.val) op target mask)) = .ok (u, d)) :
    s.qcCommand f q op target mask act pre = u.qcEnd (setKey f q.val) stOK d := by
  unfold qcBegun at h
  rw [qcCommand, ingress_passed hi hs, if_neg (Bool.eq_false_iff.mp hb)]
  dsimp only at h ⊢
  rw [h]

theorem qcCommand_busy {op target mask : Nat} {act : Nat → State → Except Nat (State × Nat)} {pre : Nat → State → State}
    (hb : (s.qc (setKey f q.val)).busy = true) :
    s.qcCommand f q op target mask act pre = s.setQc (setKey f q.val) { s.qc (setKey f q.val) with goReject := true } := by
  rw [qcCommand, ingress_passed hi hs, if_pos hb]

end

/-! ## What the commands do -/

/-- The record of a queue is read of the host where the command's first tests hold. -/
theorem readQueueRec_read (hq : s.qState (qKey sk k.val) = .reset) (hc : s.context sk ≠ 0) :
    readQueueRec k.val f sk s = s.hread f (s.queueRec (qKey sk k.val)) 64 := by
  unfold readQueueRec
  rw [hq, bne_iff_ne.mpr hc]
  rfl

theorem createQueue_ok {r : BitVec 512} (hq : s.qState (qKey sk k.val) = .reset) (hc : s.context sk ≠ 0) (hr : queueRecordOk r = true)
    (hg : (s.ring (ringKey sk (ef r 80 2))).isSome = true) :
    ∃ u, s.createQueue k.val f (some r) sk = .ok (u, 0) ∧
      u.queue (qKey sk k.val) = some (queueOfRecord r ((s.polderOf f).getD 0) s.now) := by
  have ring : (s.ring (ringKey sk (ef r 80 2))).isNone = false := by rw [Option.isNone_eq_false_iff]; exact hg
  unfold createQueue
  dsimp only
  rw [hq, if_neg (not_not_intro rfl), if_neg hc, hr, if_neg nofun, ring, if_neg nofun]
  exact ⟨_, rfl, (queue_qscEvict ..).trans (tget_tput_same ..)⟩

theorem startQueue_ok (hq : s.queue (qKey sk k.val) = some w) (hr : w.st = .ready) (hp : w.poll = false ∨ s.polledOn (setDie sk) < 4096) :
    ∃ u, s.startQueue k.val sk = .ok (u, 0) ∧ ∃ w', u.queue (qKey sk k.val) = some w' ∧ w'.st = .active := by
  let key := qKey sk k.val
  let v := s.setQueue key { w with st := .active, pollAt := s.now }
  have room : ¬ (w.poll = true ∧ 4096 ≤ s.polledOn (setDie sk)) := by
    rintro ⟨polled, full⟩
    rcases hp with h | h
    · exact absurd (h.symm.trans polled) nofun
    · omega
  have begun : v.served (fun _ => True) key (((v.touchQueue key).indexRead key).advance key) :=
    (v.served_touchQueue key).anyKeys.trans ((served_indexRead _ key).anyKeys.trans (served_advance _ key).anyKeys)
  obtain ⟨w', hq', hw'⟩ := begun.queue _ (tget_tput_same ..)
  refine ⟨_, ?_, w', hq', hw'.st⟩
  unfold startQueue
  dsimp only
  rw [hq]
  dsimp only
  rw [if_neg (not_not_intro hr), if_neg room]

theorem stopQueue_ok (hq : s.queue (qKey sk k.val) = some w) (ha : w.st = .active) : s.stopQueue k.val sk =
    .ok (s.setQueue (qKey sk k.val) { w with
      st := if w.ops.all (fun i => match s.op i with | some o => o.stage == .waiting | none => true) then .ready else .draining }, 0) := by
  unfold stopQueue
  dsimp only
  rw [hq]
  exact if_neg (not_not_intro ha)

theorem resetQueue_ok (hq : s.queue (qKey sk k.val) = some w) (hr : w.st = .ready ∨ (w.st = .error ∧ w.flushDone = true)) :
    s.resetQueue k.val sk = .ok (s.dropQueue (qKey sk k.val), 0) := by
  unfold resetQueue
  dsimp only
  rw [hq]
  exact if_pos hr

/-- A queue that is dropped is gone with its entries. -/
theorem dropQueue_gone (hw : tblWf s.queues = true) (key : Nat) :
    (s.dropQueue key).queue key = none ∧ ∀ p ∈ (s.dropQueue key).ops, p.2.q ≠ key := by
  let v := { s with ops := s.ops.filter (fun p => p.2.q != key), queues := tdel s.queues key }
  let K : Grp → Bool := [Grp.queues, .ops].contains
  have kept : Holds K (v.standing K) (v.trigUpdate key) := trigUpdate_keeps _ _ (v.holds_standing _) rfl
  have queues : (v.trigUpdate key).queues = v.queues := kept.holds .queues rfl
  have ops : (v.trigUpdate key).ops = v.ops := (kept.holds .ops rfl).1
  refine ⟨(congrArg (tget · key) queues).trans (tget_tdel_same key hw), fun p hp => ?_⟩
  have hp : p ∈ v.ops := ops ▸ hp
  exact bne_iff_ne.mp (List.mem_filter.mp hp).2

/-- What the matching unit drops with a queue (08_matching.md R260) concerns neither the pages nor the queues nor the entries. -/
theorem tmuDropQueue_standing (s : State) (key : Nat) :
    s.standing [Grp.control, .queues, .ops].contains (s.tmuDropQueue key) := by
  have kept : Holds [Grp.control, .queues, .ops].contains (s.standing [Grp.control, .queues, .ops].contains) (s.tmuDropQueue key) := by
    apply tmuDropQueue_keeps _ _ (s.holds_standing _) <;> rfl
  exact kept.holds

theorem readRingRec_read (hk : k.val ≤ 3) (hg : s.ring (ringKey sk k.val) = none) (hc : s.context sk ≠ 0) :
    readRingRec k.val f sk s = s.hread f (s.ringRec (ringKey sk k.val)) 32 := by
  unfold readRingRec
  rw [decide_eq_true hk, hg, bne_iff_ne.mpr hc]
  rfl

/-- The ring that a valid record describes. -/
def ringOfRecord (r : BitVec 256) : CRing :=
  { base := r.toNat / 2 ^ 0 % 2 ^ 57, log2 := r.toNat / 2 ^ 64 % 2 ^ 8, msixEn := r.toNat / 2 ^ 72 % 2 ^ 1 == 1,
    vector := r.toNat / 2 ^ 80 % 2 ^ 16, written := 0, consumed := 0, reserved := 0, armed := false, resid := .held }

theorem createRing_ok {r : BitVec 256} (hk : k.val ≤ 3) (hg : s.ring (ringKey sk k.val) = none) (hc : s.context sk ≠ 0)
    (hr : ringRecordOk f r = true) : s.createRing k.val f (some r) sk =
      .ok ({ s with rings := tput s.rings (ringKey sk k.val) (ringOfRecord r) }, 0) := by
  unfold createRing
  rw [if_neg (Nat.not_lt.mpr hk), hg, if_neg nofun, if_neg hc]
  dsimp only
  rw [hr]
  rfl

theorem destroyRing_ok (hw : tblWf s.rings = true) (hk : k.val ≤ 3) (hg : (s.ring (ringKey sk k.val)).isSome = true)
    (hu : ∀ p ∈ s.queues, ¬ (p.1 / 8 = sk ∧ p.2.cq = k.val)) :
    ∃ u, s.destroyRing k.val sk = .ok (u, 0) ∧ u.ring (ringKey sk k.val) = none ∧ u.queues = s.queues := by
  have ring : (s.ring (ringKey sk k.val)).isNone = false := by rw [Option.isNone_eq_false_iff]; exact hg
  have used : s.queues.any (fun p => p.1 / 8 == sk && p.2.cq == k.val) = false := by
    simpa only [List.any_eq_false, Bool.and_eq_true, beq_iff_eq] using hu
  unfold destroyRing
  rw [if_neg (Nat.not_lt.mpr hk), ring, if_neg nofun, used, if_neg nofun]
  exact ⟨_, rfl, tget_tdel_same _ hw, rfl⟩

/-- A counter of the mask is 0. -/
theorem resetCounters_ok {mask : Nat} (ht : ∀ p ∈ s.queues, ¬ (p.1 / 8 = sk ∧ p.2.type = 2)) :
    ∃ u, s.resetCounters mask sk = .ok (u, 0) ∧
      ∀ p ∈ u.ctrs, p.1 / 16 = sk → bitOf mask (p.1 % 16) = true → p.2.count = 0 ∧ p.2.tally = 0 ∧ p.2.fail = 0 := by
  have watched : s.queues.any (fun p => p.1 / 8 == sk && p.2.type == 2) = false := by
    simpa only [List.any_eq_false, Bool.and_eq_true, beq_iff_eq] using ht
  unfold resetCounters
  rw [watched, if_neg nofun]
  refine ⟨_, rfl, fun p hp hset hbit => ?_⟩
  obtain ⟨c, -, rfl⟩ := List.mem_map.mp hp
  by_cases hmask : c.1 / 16 = sk ∧ bitOf mask (c.1 % 16) = true
  · rw [if_pos hmask]
    exact ⟨rfl, rfl, rfl⟩
  · rw [if_neg hmask] at hset hbit
    exact absurd ⟨hset, hbit⟩ hmask

/-- A cached copy is discarded: the queue may read the slot again, but what it had of it is gone. -/
theorem invalidateSlot_cached (hq : s.queue (qKey sk k.val) = some w) (he : w.st ≠ .error) (hw : tblWf w.cache = true)
    (hc : (tget w.cache (s.qc sk).slot).isSome = true) :
    ∃ u, s.invalidateSlot k.val sk = .ok (u, 0x11) ∧
      ∃ w', u.queue (qKey sk k.val) = some w' ∧ tget w'.cache (s.qc sk).slot = none := by
  let asked := w.asked.map (fun a => if a.1 = (s.qc sk).slot then (a.1, true) else a)
  let v := (s.setQueue (qKey sk k.val) { w with asked := asked }).setQueue (qKey sk k.val)
    { w with asked := asked, cache := tdel w.cache (s.qc sk).slot }
  obtain ⟨w', hq', hw'⟩ := (v.served_pumpQueue (qKey sk k.val)).queue _ (tget_tput_same ..)
  refine ⟨v.pumpQueue (qKey sk k.val), ?_, w', hq', (hw'.cache (tdel_wf _ hw)).2 _ (tget_tdel_same _ hw)⟩
  unfold invalidateSlot
  dsimp only
  rw [hq]
  dsimp only
  rw [if_neg he, if_pos hc]
  rfl

/-- An entry that has started is reported so. -/
theorem invalidateSlot_started {i : Nat} {o : WOp} (hq : s.queue (qKey sk k.val) = some w) (he : w.st ≠ .error)
    (hc : tget w.cache (s.qc sk).slot = none)
    (hf : w.ops.find? (fun i => match s.op i with | some o => coversSlot o (s.qc sk).slot | none => false) = some i)
    (ho : s.op i = some o) (hst : o.stage ≠ .waiting) : ∃ u, s.invalidateSlot k.val sk = .ok (u, 0x12) ∧ u.ops = s.ops := by
  let v := s.setQueue (qKey sk k.val) { w with asked := w.asked.map (fun a => if a.1 = (s.qc sk).slot then (a.1, true) else a) }
  refine ⟨v, ?_, rfl⟩
  unfold invalidateSlot
  dsimp only
  rw [hq]
  dsimp only
  rw [if_neg he, hc, if_neg nofun]
  split
  · next none => exact absurd (none.symm.trans hf) nofun
  · next found =>
    obtain rfl := Option.some.inj (found.symm.trans hf)
    split
    · next none => exact absurd (none.symm.trans ho) nofun
    · next op =>
      obtain rfl := Option.some.inj (op.symm.trans ho)
      exact if_pos hst

end State

/-! ## The commands -/

theorem exec_resetQueue (s : State) (f : Fn) (q : Fin 128) (k : Fin 8) (m : BitVec 16) :
    let t := s.qcCommand f q 4 k.val m.toNat (State.resetQueue k.val)
    exec (.resetQueue f q ⟨k, m⟩) s = .next (if (s.queue (qKey (setKey f q.val) k.val)).isSome &&
      (t.queue (qKey (setKey f q.val) k.val)).isNone then t.tmuDropQueue (qKey (setKey f q.val) k.val) else t) := rfl

section
variable (hi : s.ingressOk f = true) (hs : s.hasSet f q = true)
include hi hs

/-- While a command runs, a GO is only noted. -/
theorem exec_qcCommand_busy {rec : Option (BitVec 512)} {ring : Option (BitVec 256)} {c : Instr}
    (hb : (s.qc (setKey f q.val)).busy = true)
    (hc : c ∈ [Instr.createQueue f q ⟨k, m⟩ rec, .start f q ⟨k, m⟩, .stop f q ⟨k, m⟩, .createRing f q ⟨k, m⟩ ring,
      .destroyRing f q ⟨k, m⟩, .resetCounters f q ⟨k, m⟩, .invalidate f q ⟨k, m⟩, .resetQueue f q ⟨k, m⟩]) :
    exec c s = .next (s.setQc (setKey f q.val) { s.qc (setKey f q.val) with goReject := true }) := by
  simp only [List.mem_cons, List.not_mem_nil, or_false] at hc
  rcases hc with rfl | rfl | rfl | rfl | rfl | rfl | rfl | rfl
  iterate 7 exact congrArg Host.Outcome.next (State.qcCommand_busy hi hs hb)
  rw [exec_resetQueue, State.qcCommand_busy hi hs hb]
  refine congrArg Host.Outcome.next (if_neg ?_)
  show ¬ ((s.queue (qKey (setKey f q.val) k.val)).isSome && (s.queue (qKey (setKey f q.val) k.val)).isNone) = true
  cases s.queue (qKey (setKey f q.val) k.val)
  all_goals exact nofun

variable (hb : (s.qc (setKey f q.val)).busy = false)
include hb

theorem Runs.createQueue {r : BitVec 512} (hw : tblWf s.regs = true) (hq : s.qState (qKey (setKey f q.val) k.val) = .reset)
    (hc : s.context (setKey f q.val) ≠ 0) (hr : queueRecordOk r = true)
    (hg : (s.ring (ringKey (setKey f q.val) (ef r 80 2))).isSome = true) :
    Runs (.createQueue f q ⟨k, m⟩ (some r)) s (fun t => t.qcDone (setKey f q.val) 0 ∧
      t.queue (qKey (setKey f q.val) k.val) = some (queueOfRecord r ((s.polderOf f).getD 0) s.now)) := by
  let b := s.qcBegun (setKey f q.val) 1 k.val m.toNat
  have context : b.context (setKey f q.val) ≠ 0 := by rwa [State.context_qcBegun]
  have read := State.readQueueRec_read (s := b) (f := f) (k := k) (sk := setKey f q.val) hq context
  have polder : (b.hread f (b.queueRec (qKey (setKey f q.val) k.val)) 64).polderOf f = s.polderOf f :=
    State.writesIn.polderOf (((State.writesIn_of_regs rfl : s.writesIn _ b)).trans
      ((b.writes_hread ..).mono fun _ h => queueKeys_of_dmaKeys _ (dmaKeys_of_dmaFields h))) hw
  obtain ⟨u, made, queue⟩ := State.createQueue_ok (s := b.hread f (b.queueRec (qKey (setKey f q.val) k.val)) 64) (f := f) (k := k)
    (sk := setKey f q.val) hq context hr hg
  rw [polder] at queue
  rw [← read] at made
  exact .of_next (congrArg Host.Outcome.next (State.qcCommand_ok hi hs hb made)) ⟨u.qcDone_qcEnd _ _, queue⟩

theorem Runs.start (hq : s.queue (qKey (setKey f q.val) k.val) = some w) (hr : w.st = .ready)
    (hp : w.poll = false ∨ s.polledOn (setDie (setKey f q.val)) < 4096) : Runs (.start f q ⟨k, m⟩) s (fun t =>
      t.qcDone (setKey f q.val) 0 ∧ ∃ w', t.queue (qKey (setKey f q.val) k.val) = some w' ∧ w'.st = .active) := by
  obtain ⟨u, started, queue⟩ := State.startQueue_ok (s := s.qcBegun (setKey f q.val) 2 k.val m.toNat) hq hr hp
  exact .of_next (congrArg Host.Outcome.next (State.qcCommand_ok hi hs hb started)) ⟨u.qcDone_qcEnd _ _, queue⟩

theorem Runs.stop (hq : s.queue (qKey (setKey f q.val) k.val) = some w) (ha : w.st = .active) : Runs (.stop f q ⟨k, m⟩) s (fun t =>
    t.qcDone (setKey f q.val) 0 ∧ t.queue (qKey (setKey f q.val) k.val) = some { w with
      st := if w.ops.all (fun i => match s.op i with | some o => o.stage == .waiting | none => true) then .ready else .draining } ∧
    onlyFields [] s t) := by
  have stopped := State.stopQueue_ok (s := s.qcBegun (setKey f q.val) 3 k.val m.toNat) hq ha
  exact .of_next (congrArg Host.Outcome.next (State.qcCommand_ok hi hs hb stopped))
    ⟨State.qcDone_qcEnd _ _ _, tget_tput_same .., onlyFields_of_regs rfl⟩

theorem Runs.resetQueue (hw : tblWf s.queues = true) (hq : s.queue (qKey (setKey f q.val) k.val) = some w)
    (hr : w.st = .ready ∨ (w.st = .error ∧ w.flushDone = true)) : Runs (.resetQueue f q ⟨k, m⟩) s (fun t =>
      t.qcDone (setKey f q.val) 0 ∧ t.queue (qKey (setKey f q.val) k.val) = none ∧
      ∀ p ∈ t.ops, p.2.q ≠ qKey (setKey f q.val) k.val) := by
  let key := qKey (setKey f q.val) k.val
  let b := s.qcBegun (setKey f q.val) 4 k.val m.toNat
  let e := (b.dropQueue key).qcEnd (setKey f q.val) stOK 0
  have reset := State.resetQueue_ok (s := b) (k := k) (sk := setKey f q.val) hq hr
  obtain ⟨gone, ops⟩ := State.dropQueue_gone (s := b) hw key
  have run : exec (.resetQueue f q ⟨k, m⟩) s = .next (e.tmuDropQueue key) := by
    rw [exec_resetQueue, State.qcCommand_ok hi hs hb reset]
    refine congrArg Host.Outcome.next (if_pos ?_)
    rw [hq, show e.queue key = none from gone]
    rfl
  have stands := e.tmuDropQueue_standing key
  have pages : (e.tmuDropQueue key).qcs = e.qcs := stands .control rfl
  have queues : (e.tmuDropQueue key).queues = e.queues := stands .queues rfl
  have entries : (e.tmuDropQueue key).ops = e.ops := (stands .ops rfl).1
  have page : (e.tmuDropQueue key).qc (setKey f q.val) = e.qc (setKey f q.val) := by simp only [State.qc, pages]
  have ended := State.qcDone_qcEnd (b.dropQueue key) (setKey f q.val) 0
  refine .of_next run ⟨?_, (congrArg (tget · key) queues).trans gone, entries ▸ ops⟩
  exact ⟨page ▸ ended.done, page ▸ ended.busy, page ▸ ended.code, page ▸ ended.detail⟩

theorem Runs.createRing {r : BitVec 256} (hk : k.val ≤ 3) (hg : s.ring (ringKey (setKey f q.val) k.val) = none)
    (hc : s.context (setKey f q.val) ≠ 0) (hr : ringRecordOk f r = true) : Runs (.createRing f q ⟨k, m⟩ (some r)) s (fun t =>
      t.qcDone (setKey f q.val) 0 ∧ t.ring (ringKey (setKey f q.val) k.val) = some (State.ringOfRecord r)) := by
  let b := s.qcBegun (setKey f q.val) 5 k.val m.toNat
  have context : b.context (setKey f q.val) ≠ 0 := by rwa [State.context_qcBegun]
  have read := State.readRingRec_read (s := b) (f := f) (k := k) (sk := setKey f q.val) hk hg context
  have made := State.createRing_ok (s := b.hread f (b.ringRec (ringKey (setKey f q.val) k.val)) 32) (f := f) (k := k)
    (sk := setKey f q.val) hk hg context hr
  rw [← read] at made
  exact .of_next (congrArg Host.Outcome.next (State.qcCommand_ok hi hs hb made)) ⟨State.qcDone_qcEnd _ _ _, tget_tput_same ..⟩

theorem Runs.destroyRing (hw : tblWf s.rings = true) (hk : k.val ≤ 3)
    (hg : (s.ring (ringKey (setKey f q.val) k.val)).isSome = true)
    (hu : ∀ p ∈ s.queues, ¬ (p.1 / 8 = setKey f q.val ∧ p.2.cq = k.val)) : Runs (.destroyRing f q ⟨k, m⟩) s (fun t =>
      t.qcDone (setKey f q.val) 0 ∧ t.ring (ringKey (setKey f q.val) k.val) = none ∧ t.queues = s.queues) := by
  obtain ⟨u, destroyed, gone⟩ := State.destroyRing_ok (s := s.qcBegun (setKey f q.val) 6 k.val m.toNat) hw hk hg hu
  exact .of_next (congrArg Host.Outcome.next (State.qcCommand_ok hi hs hb destroyed)) ⟨u.qcDone_qcEnd _ _, gone⟩

theorem Runs.resetCounters (ht : ∀ p ∈ s.queues, ¬ (p.1 / 8 = setKey f q.val ∧ p.2.type = 2)) :
    Runs (.resetCounters f q ⟨k, m⟩) s (fun t => t.qcDone (setKey f q.val) 0 ∧
      ∀ p ∈ t.ctrs, p.1 / 16 = setKey f q.val → bitOf m.toNat (p.1 % 16) = true → p.2.count = 0 ∧ p.2.tally = 0 ∧ p.2.fail = 0) := by
  obtain ⟨u, zeroed, counts⟩ := State.resetCounters_ok (s := s.qcBegun (setKey f q.val) 7 k.val m.toNat) (mask := m.toNat) ht
  exact .of_next (congrArg Host.Outcome.next (State.qcCommand_ok hi hs hb zeroed)) ⟨u.qcDone_qcEnd _ _, counts⟩

theorem Runs.invalidate_cached (hq : s.queue (qKey (setKey f q.val) k.val) = some w) (he : w.st ≠ .error) (hw : tblWf w.cache = true)
    (hc : (tget w.cache (s.qc (setKey f q.val)).slot).isSome = true) : Runs (.invalidate f q ⟨k, m⟩) s (fun t =>
      t.qcDone (setKey f q.val) 0x11 ∧
      ∃ w', t.queue (qKey (setKey f q.val) k.val) = some w' ∧ tget w'.cache (s.qc (setKey f q.val)).slot = none) := by
  rw [← s.slot_qcBegun (setKey f q.val) 8 k.val m.toNat] at hc ⊢
  obtain ⟨u, discarded, queue⟩ := State.invalidateSlot_cached (s := s.qcBegun (setKey f q.val) 8 k.val m.toNat) hq he hw hc
  exact .of_next (congrArg Host.Outcome.next (State.qcCommand_ok hi hs hb discarded)) ⟨u.qcDone_qcEnd _ _, queue⟩

theorem Runs.invalidate_started {i : Nat} {o : WOp} (hq : s.queue (qKey (setKey f q.val) k.val) = some w) (he : w.st ≠ .error)
    (hc : tget w.cache (s.qc (setKey f q.val)).slot = none)
    (hf : w.ops.find? (fun i => match s.op i with | some o => coversSlot o (s.qc (setKey f q.val)).slot | none => false) = some i)
    (ho : s.op i = some o) (hst : o.stage ≠ .waiting) : Runs (.invalidate f q ⟨k, m⟩) s (fun t =>
      t.qcDone (setKey f q.val) 0x12 ∧ t.ops = s.ops) := by
  rw [← s.slot_qcBegun (setKey f q.val) 8 k.val m.toNat] at hc hf
  obtain ⟨u, started, ops⟩ := State.invalidateSlot_started (s := s.qcBegun (setKey f q.val) 8 k.val m.toNat) hq he hc hf ho hst
  exact .of_next (congrArg Host.Outcome.next (State.qcCommand_ok hi hs hb started)) ⟨u.qcDone_qcEnd _ _, ops⟩

end

/-- A claim about a state that a command ended in, in the obligation's words. -/
theorem Runs.ended {c : Instr} {P : State → Prop} (h : Runs c s (fun t => t.qcDone sk d ∧ P t)) :
    Runs c s (fun t => ((t.qc sk).done = true ∧ (t.qc sk).busy = false ∧ (t.qc sk).code = 0) ∧ P t) := by
  obtain ⟨t, run, done, hP⟩ := h
  exact ⟨t, run, done.ok, hP⟩

/-- As `Runs.ended`, with what the command answers. -/
theorem Runs.endedWith {c : Instr} {P : State → Prop} (h : Runs c s (fun t => t.qcDone sk d ∧ P t)) :
    Runs c s (fun t => ((t.qc sk).done = true ∧ (t.qc sk).busy = false ∧ (t.qc sk).code = 0) ∧ (t.qc sk).detail = d ∧ P t) := by
  obtain ⟨t, run, done, hP⟩ := h
  exact ⟨t, run, done.ok, done.detail, hP⟩

/-- Settles O32: each command acts on the page of its set, and what a queue does next keeps what the statement names. -/
theorem queueControlCommands : Obligations.QueueControlCommands := by
  rintro s f q k m ⟨hw, -⟩ hs hi hwq hwr
  refine ⟨fun hb r hq hc hr hg => (Runs.createQueue hi hs hb hw hq hc hr hg).ended, fun hb w hq hr hp => (Runs.start hi hs hb hq hr hp).ended,
    fun hb w hq ha => (Runs.stop hi hs hb hq ha).ended, fun hb w hq hr => (Runs.resetQueue hi hs hb hwq hq hr).ended,
    fun hb r hk hg hc hr => ?_, fun hb hk hg hu => (Runs.destroyRing hi hs hb hwr hk hg hu).ended,
    fun hb ht => (Runs.resetCounters hi hs hb ht).ended, fun hb w hq he hwc hc => (Runs.invalidate_cached hi hs hb hq he hwc hc).endedWith,
    fun hb w i o hq he hc hf ho hst => (Runs.invalidate_started hi hs hb hq he hc hf ho hst).endedWith, fun hb rec ring c hc => ?_⟩
  · obtain ⟨t, run, done, ring⟩ := Runs.createRing (m := m) hi hs hb hk hg hc hr
    exact ⟨t, run, done.ok, _, ring, by simp only [State.ringOfRecord, Nat.pow_zero, Nat.div_one], rfl, rfl, rfl⟩
  · exact .of_next (exec_qcCommand_busy hi hs hb hc) ⟨s.qc_setQc .., rfl, rfl, rfl⟩

end Sys2Proof.Machine
end

section
/-! Reads of a queue that return, and its timers (O33): the index record and its slots (06_work_queues.md R166, R168), the read again after a
PHASE mismatch (R169), polls (R170), records that come back (R163, R190), and records of counters (R184). -/

set_option Elab.async false

namespace Sys2Proof.Machine

variable {s t u : State} {f : Fn} {q : Fin 128} {b : Fin 8} {k j d : Nat} {w : WQueue} {W : Nat → Prop}

namespace State

/-! ## Translations fetched ahead (07_translation.md R210) -/

theorem served_startWalk (s : State) (e : Die) (w : Walk) : s.served (queueKeys e) k (s.startWalk e w) := by
  have walks (s : State) (g : Xlu → Xlu) : s.served (queueKeys e) k (s.modXlu e g) := s.served_modDie ..
  have counted (s : State) (c : Bool) : s.served (queueKeys e) k (s.when c (fun s => s.bump e XLU.WALKS.COUNT)) :=
    served_when _ _ (s.served_bump _ _ (queueKeys_above e (by decide)))
  have read (s : State) (f : Fn) (a : Nat) : s.served (queueKeys e) k (s.hread f a 8) :=
    s.served_hread _ _ _ _ fun _ h => queueKeys_of_dmaKeys _ (dmaKeys_of_dmaFields h)
  unfold startWalk
  dsimp only
  split
  · exact (((walks ..).trans (walks ..)).trans (counted ..)).trans (read ..)
  · exact ((walks ..).trans (counted ..)).trans (read ..)

theorem served_startAts (s : State) (e : Die) (r : Region) (va : Nat) (spec : Bool) (key : Nat) (remote : Bool) :
    s.served (queueKeys e) k (s.startAts e r va spec key remote) :=
  served_ite (s.served_refl _ k)
    (((s.served_bump _ _ (queueKeys_above e (by decide))).trans (served_modDie ..)).trans (served_emit ..))

theorem served_startSpec (s : State) (e : Die) (r : Region) (o key : Nat) : s.served (queueKeys e) k (s.startSpec e r o key) := by
  have same := s.served_refl (queueKeys e) k
  unfold startSpec
  dsimp only
  refine served_ite same (served_ite (served_ite same (s.served_startAts ..)) (served_ite same ?_))
  split
  · exact same
  · exact served_ite same (s.served_startWalk ..)

theorem served_specBuffers (s : State) (j : Nat) : s.served (queueKeys (setDie (j / 8))) k (s.specBuffers j) := by
  unfold specBuffers
  split
  · exact s.served_refl _ k
  · refine served_foldl (fun x _ s => ?_) s
    split
    · exact s.served_refl _ k
    · split
      · exact s.served_refl _ k
      · exact served_ite (s.served_startSpec ..) (s.served_refl _ k)

/-- After a read has returned, a queue goes on, and translations are fetched ahead. -/
theorem served_goOn (s : State) (k : Nat) : s.served (queueKeys (setDie (k / 8))) k ((s.pumpQueue k).specBuffers k) :=
  (s.served_pumpQueue k).trans (served_specBuffers _ k)

/-! ## Slots and index records that return (R166, R168) -/

/-- Slots that return change what the queue holds of slots and awaits of them, and nothing else. -/
theorem keepSlots_eq (slots : List (W32 × Option (BitVec 512))) (hq : s.queue k = some w) :
    ∃ c a, (slots.foldl (fun s p => s.keepSlot k p.1.toNat p.2) s).queue k = some { w with cache := c, asked := a } ∧
      (slots.foldl (fun s p => s.keepSlot k p.1.toNat p.2) s).nextOp = s.nextOp := by
  induction slots generalizing s w with
  | nil => exact ⟨w.cache, w.asked, hq, rfl⟩
  | cons p slots ih =>
    have kept : ∃ c a, (s.keepSlot k p.1.toNat p.2).queue k = some { w with cache := c, asked := a } := by
      unfold keepSlot takeAsked
      rw [hq]
      dsimp only
      split
      · exact ⟨_, _, tget_tput_same ..⟩
      · dsimp only
        split
        · exact ⟨_, _, tget_tput_same ..⟩
        · exact ⟨_, _, tget_tput_same ..⟩
    have number : (s.keepSlot k p.1.toNat p.2).nextOp = s.nextOp := by
      unfold keepSlot
      split
      · rfl
      · rfl
    obtain ⟨c, a, hk⟩ := kept
    obtain ⟨c', a', hq', hn⟩ := ih hk
    exact ⟨c', a', hq', hn.trans number⟩

theorem not_idle {st : QSt} (h : st = .active ∨ st = .error) : ¬ (st = .ready ∨ st = .draining) := by
  rcases h with rfl | rfl
  all_goals decide

/-- An index record gives a queue that reads its PRODUCER. -/
theorem queue_indexSeen {p : W32} (hq : s.queue k = some w) (ho : w.idxOut = true) (ha : w.st = .active ∨ w.st = .error)
    (hc : sub32 p.toNat w.consumer ≤ 2 ^ w.log2) (hn : sub32 p.toNat w.next ≤ 2 ^ w.log2) :
    ∃ w', (s.indexSeen k (some p)).queue k = some w' ∧ w'.producer = p.toNat := by
  let v := (s.setQueue k { w with idxOut := false, idxMerged := false }).setQueue k
    { w with idxOut := false, idxMerged := false, producer := p.toNat }
  have seen : s.indexSeen k (some p) =
      v.when (w.idxMerged && (w.st == .active || w.st == .error)) (fun s => s.indexRead k) := by
    unfold indexSeen
    rw [hq]
    dsimp only
    rw [ho, if_neg nofun, if_neg (not_idle ha), if_neg (by simpa using hc)]
    exact congrArg (fun s : State => s.when _ _) (if_pos hn)
  obtain ⟨w', hq', hw'⟩ := (served_when (k := k) (f := fun s => s.indexRead k) v (w.idxMerged && (w.st == .active || w.st == .error))
    (served_indexRead _ k)).queue _ (tget_tput_same ..)
  rw [← seen] at hq'
  exact ⟨w', hq', hw'.producer⟩

/-- A poisoned index record takes an entry. -/
theorem nextOp_indexSeen (hq : s.queue k = some w) (ho : w.idxOut = true) (ha : w.st = .active ∨ w.st = .error) :
    s.nextOp < (s.indexSeen k none).nextOp := by
  let v := s.setQueue k { w with idxOut := false, idxMerged := false }
  let u := v.addBad k { w with idxOut := false, idxMerged := false } 0
  have seen : s.indexSeen k none = u.when (w.idxMerged && (w.st == .active || w.st == .error)) (fun s => s.indexRead k) := by
    unfold indexSeen
    rw [hq]
    dsimp only
    rw [ho, if_neg nofun, if_neg (not_idle ha)]
    rfl
  have later := (served_when (k := k) (f := fun s => s.indexRead k) u (w.idxMerged && (w.st == .active || w.st == .error))
    (served_indexRead _ k)).nextOp
  rw [seen]
  exact later

/-! ## Queues that fail (R163) -/

theorem served_forceOps (s : State) (st : Nat) (l : List Nat) : s.served W k (s.forceOps st l) := served_foldl (fun _ _ s => s.served_modOp ..) s

/-- What a queue does after it has failed. -/
theorem served_failed (s : State) (j : Nat) : s.served (fun _ => True) k (((s.fetchAll j).prefetch j).checkFlush j) :=
  ((s.served_fetchAll j).anyKeys.trans (served_prefetch _ j).anyKeys).trans (served_checkFlush _ j).anyKeys

/-- Queue `k` is in ERROR. -/
def inError (s : State) (k : Nat) : Prop := ∃ w, s.queue k = some w ∧ w.st = .error

theorem served.inError (h : s.served W k t) (hs : s.inError k) : t.inError k := by
  obtain ⟨w, hq, he⟩ := hs
  obtain ⟨w', hq', hw'⟩ := h.queue w hq
  exact ⟨w', hq', hw'.st.trans he⟩

theorem inError_setQueue (s : State) (hw : w.st = .error) : (s.setQueue k w).inError k := ⟨w, tget_tput_same .., hw⟩

theorem inError_queueFail_same (hq : s.queue k = some w) (st : Nat) : (s.queueFail k st).inError k := by
  unfold queueFail
  rw [hq]
  dsimp only
  split
  · next he => exact ⟨w, hq, he⟩
  · refine (served_failed _ k).inError ?_
    split
    · exact inError_setQueue _ rfl
    · exact (((served_modOp _ _ _).trans (served_forceOps _ _ _)) : State.served (fun _ => True) k _ _).inError (inError_setQueue _ rfl)

theorem served_queueFail_ne (s : State) (st : Nat) (h : j ≠ k) : s.served (fun _ => True) k (s.queueFail j st) := by
  unfold queueFail
  split
  · exact s.served_refl _ k
  · have counted := s.served_bump (W := fun _ => True) (k := k) (setDie (j / 8)) WQU.QUEUE_ERRORS.COUNT trivial
    refine served_ite (s.served_refl _ k) ((counted.trans ?_).trans (served_failed _ j))
    split
    · exact served_setQueue_ne _ _ h
    · exact ((served_setQueue_ne _ _ h).trans (served_modOp ..)).trans (served_forceOps ..)

/-- Whichever queue fails, a queue stays. -/
theorem queue_queueFail (hq : ∃ w, s.queue k = some w) (j st : Nat) : ∃ w, (s.queueFail j st).queue k = some w := by
  obtain ⟨w, hq⟩ := hq
  by_cases h : j = k
  · subst h
    obtain ⟨w', hq', -⟩ := inError_queueFail_same hq st
    exact ⟨w', hq'⟩
  · obtain ⟨w', hq', -⟩ := (s.served_queueFail_ne st h).queue w hq
    exact ⟨w', hq'⟩

theorem inError_queueFail (h : s.inError k) (j st : Nat) : (s.queueFail j st).inError k := by
  by_cases hj : j = k
  · subst hj
    obtain ⟨w, hq, -⟩ := h
    exact inError_queueFail_same hq st
  · exact (s.served_queueFail_ne st hj).inError h

/-- A queue of a set that fails is in ERROR. -/
theorem inError_setFail {sk : Nat} (b : Fin 8) (hq : s.queue (qKey sk b.val) = some w) (st : Nat) :
    (s.setFail sk st).inError (qKey sk b.val) :=
  foldl_establishes (step := fun s j => s.queueFail (qKey sk j) st) (P := fun s => s.inError (qKey sk b.val))
    (Q := fun s => ∃ w, s.queue (qKey sk b.val) = some w) (List.mem_range.mpr b.isLt)
    (fun _ _ hq => queue_queueFail hq _ st) (fun _ ⟨_, hq⟩ => inError_queueFail_same hq st)
    (fun _ _ _ _ he => inError_queueFail he _ st) ⟨w, hq⟩

/-! ## Records that come back (R163, R190) -/

/-- An event writes register fields alone. -/
theorem event_eq (s : State) (e : Die) (n : Nat) (p : Option Nat) : ∃ r, s.event e n p = { s with regs := r } := by
  refine foldl_preserves (Q := fun _ => True) (P := fun t => ∃ r, t = { s with regs := r }) (fun _ _ _ => trivial) ?_ trivial ⟨s.regs, rfl⟩
  rintro x - t - ⟨r, rfl⟩
  split
  · exact ⟨_, rfl⟩
  · exact ⟨r, rfl⟩

/-- The record of a queue that was away is held again. -/
def recordHeld (s : State) (e : Die) (k : Nat) (w : WQueue) : State :=
  ((s.bump e WQU.QSC_MISSES.COUNT).event e 13 none).setQueue k { w with resid := .held }

theorem recordOk_recordHeld (s : State) (e : Die) (k : Nat) (w : WQueue) (n : Nat) (data : Option (BitVec 512)) :
    (s.recordHeld e k w).recordOk e n data = s.recordOk e n data := by
  obtain ⟨r, hr⟩ := (s.bump e WQU.QSC_MISSES.COUNT).event_eq e 13 none
  unfold recordHeld
  rw [hr]
  rfl

theorem reloadRecord_queue {sk : Nat} (hq : s.queue (qKey sk b.val) = some w) (hr : w.resid = .reading) (data : Option (BitVec 512)) :
    s.reloadRecord sk (.queue b) data = if s.recordOk (setDie sk) 64 data
      then (s.recordHeld (setDie sk) (qKey sk b.val) w).qscEvict (setDie sk) (qKey sk b.val)
      else (s.recordHeld (setDie sk) (qKey sk b.val) w).setFail sk stFORMAT := by
  rw [← recordOk_recordHeld s (setDie sk) (qKey sk b.val) w]
  unfold reloadRecord
  dsimp only
  rw [hq]
  dsimp only
  rw [if_neg (not_not_intro hr)]
  rfl

end State

/-! ## The commands -/

theorem setFn_qKey (f : Fn) (q : Fin 128) (b : Fin 8) : setFn (qKey (setKey f q.val) b.val / 8) = f := by rw [qKey_div, setFn_setKey]

section
variable (hq : s.queue (qKey (setKey f q.val) b.val) = some w)
include hq

section
variable {slots : List (W32 × Option (BitVec 512))}

theorem Runs.indexReadReturn {p : W32} (ho : w.idxOut = true) (ha : w.st = .active ∨ w.st = .error)
    (hc : sub32 p.toNat w.consumer ≤ 2 ^ w.log2) (hn : sub32 p.toNat w.next ≤ 2 ^ w.log2) :
    Runs (.indexReadReturn f q b (.record p) slots) s (fun t =>
      ∃ w', t.queue (qKey (setKey f q.val) b.val) = some w' ∧ w'.producer = p.toNat) := by
  obtain ⟨c, a, kept, -⟩ := State.keepSlots_eq slots hq
  obtain ⟨w1, hq1, producer⟩ := State.queue_indexSeen kept ho ha hc hn
  obtain ⟨w2, hq2, hw2⟩ := (State.served_goOn _ (qKey (setKey f q.val) b.val)).queue w1 hq1
  exact ⟨_, rfl, w2, hq2, hw2.producer.trans producer⟩

theorem Runs.indexReadReturn_poisoned (ho : w.idxOut = true) (ha : w.st = .active ∨ w.st = .error) :
    Runs (.indexReadReturn f q b .poisoned slots) s (fun t => s.nextOp < t.nextOp) := by
  obtain ⟨c, a, kept, number⟩ := State.keepSlots_eq slots hq
  have taken := State.nextOp_indexSeen kept ho ha
  rw [number] at taken
  exact ⟨_, rfl, Nat.lt_of_lt_of_le taken (State.served_goOn _ (qKey (setKey f q.val) b.val)).nextOp⟩

theorem Runs.indexReadReturn_slotsOnly : Runs (.indexReadReturn f q b .slotsOnly slots) s (fun t =>
    ∃ w', t.queue (qKey (setKey f q.val) b.val) = some w' ∧ w'.producer = w.producer) := by
  obtain ⟨c, a, kept, -⟩ := State.keepSlots_eq slots hq
  obtain ⟨w', hq', hw'⟩ := (State.served_goOn _ (qKey (setKey f q.val) b.val)).queue _ kept
  exact ⟨_, rfl, w', hq', hw'.producer⟩

end

theorem Runs.phaseRetry {slot : W32} {data : Option (BitVec 512)} (hw : tblWf s.regs = true) (hr : w.retryAt ≠ 0) (hnow : w.retryAt ≤ s.now)
    (hslot : slot.toNat = w.retrySlot) (hf : s.fnClosed f = false) : Runs (.phaseRetry f q b slot data) s (fun t =>
      counted (setDie (qKey (setKey f q.val) b.val / 8)) WQU.PHASE_RETRIES.COUNT s t ∧
      s.asked f (w.base + slot.toNat % 2 ^ w.log2 * 64) 64 ∈ t.out) := by
  let key := qKey (setKey f q.val) b.val
  let u := s.bump (setDie (key / 8)) WQU.PHASE_RETRIES.COUNT
  let v := u.hread (setFn (key / 8)) (w.base + slot.toNat % 2 ^ w.log2 * 64) 64
  let y := v.setQueue key { w with retries := w.retries + 1, retryAt := 0, cache := tput w.cache slot.toNat data }
  have fn : setFn (key / 8) = f := setFn_qKey f q b
  have run : exec (.phaseRetry f q b slot data) s = .next ((y.pumpQueue key).specBuffers key) := by
    show execPhaseRetry f q b slot data s = _
    have due : ¬ (w.retryAt = 0 ∨ s.now < w.retryAt ∨ slot.toNat ≠ w.retrySlot ∨
        s.fnClosed (setFn (qKey (setKey f q.val) b.val / 8)) = true) := by
      rw [setFn_qKey, hf]
      simp only [hr, hslot, Nat.not_lt.mpr hnow, ne_eq, not_true, or_self, Bool.false_eq_true, not_false_iff]
    unfold execPhaseRetry State.phaseRetry
    dsimp only
    rw [hq]
    dsimp only
    rw [if_neg due]
  have goes := y.served_goOn key
  have read : u.writesIn (queueKeys (setDie (key / 8))) v :=
    (u.writes_hread ..).mono fun _ h => queueKeys_of_dmaKeys _ (dmaKeys_of_dmaFields h)
  have slotKept : v.writesIn (queueKeys (setDie (key / 8))) y := State.writesIn_of_regs rfl
  have regs := (read.trans slotKept).trans goes.regs
  have coherent : u.coherent f.hp = s.coherent f.hp := by
    refine State.coherent_congr (s := s) (t := u) rfl rfl (s.rd_wr_other _ hw ?_) _
    cases setDie (key / 8) <;> decide
  refine .of_next run ⟨?_, ?_⟩
  · exact (regs.rd (s.bump_wf _ _ hw) (not_queueKeys_phaseRetries _)).trans (s.rd_bump_same _ _ hw)
  · rw [← State.asked_congr coherent, ← fn]
    exact goes.out (u.asked_mem_hread ..)

theorem Runs.pollTimer (hw : tblWf s.regs = true) (ha : w.st = .active) (hp : w.poll = true)
    (hnow : w.pollAt + s.pollGap w (fnDie f) ≤ s.now) (ho : w.idxOut = false) (hf : s.fnClosed f = false) :
    Runs (.pollTimer f q b) s (fun t => s.asked f w.indexAddr 64 ∈ t.out ∧
      ∃ w', t.queue (qKey (setKey f q.val) b.val) = some w' ∧ w'.pollAt = s.now ∧ w'.idxOut = true) := by
  let key := qKey (setKey f q.val) b.val
  let u := s.setQueue key { w with pollAt := s.now }
  have fn : setFn (key / 8) = f := setFn_qKey f q b
  have run : exec (.pollTimer f q b) s = .next ((u.touchQueue key).indexRead key) := by
    show execPollTimer f q b s = _
    unfold execPollTimer
    dsimp only
    rw [hq]
    dsimp only
    rw [if_pos ⟨ha, hp, hnow⟩]
  have closed : u.fnClosed (setFn (key / 8)) = false := fn ▸ hf
  obtain ⟨asked, w', hq', out, served⟩ := State.asked_touched_indexRead (s := u) (k := key) hw (tget_tput_same ..) ho closed
  rw [fn] at asked
  exact .of_next run ⟨asked, w', hq', served.pollAt, out⟩

/-- A queue is not polled before its time. -/
theorem Runs.pollTimer_early (hnow : s.now < w.pollAt + s.pollGap w (fnDie f)) : Runs (.pollTimer f q b) s (fun t => t = s) := by
  have run : exec (.pollTimer f q b) s = .next s := by
    show execPollTimer f q b s = _
    unfold execPollTimer
    dsimp only
    rw [hq]
    dsimp only
    rw [if_neg fun h => Nat.not_lt.mpr h.2.2 hnow]
  exact .of_next run rfl

section
variable (hr : w.resid = .reading) {data : Option (BitVec 512)}
include hr

theorem Runs.recordReload_ok (hok : s.recordOk (setDie (setKey f q.val)) 64 data = true) :
    Runs (.recordReload f q (.queue b) data) s (fun t =>
      ∃ w', t.queue (qKey (setKey f q.val) b.val) = some w' ∧ w'.resid = .held ∧ w'.st = w.st) := by
  have run := State.reloadRecord_queue hq hr data
  rw [if_pos hok] at run
  exact .of_next (congrArg Host.Outcome.next run) ⟨_, (State.queue_qscEvict ..).trans (tget_tput_same ..), rfl, rfl⟩

theorem Runs.recordReload_bad (hok : s.recordOk (setDie (setKey f q.val)) 64 data = false) :
    Runs (.recordReload f q (.queue b) data) s (fun t => t.inError (qKey (setKey f q.val) b.val)) := by
  have run := State.reloadRecord_queue hq hr data
  rw [if_neg (Bool.eq_false_iff.mp hok)] at run
  have held : (s.recordHeld (setDie (setKey f q.val)) (qKey (setKey f q.val) b.val) w).queue (qKey (setKey f q.val) b.val) =
      some { w with resid := .held } := tget_tput_same ..
  exact .of_next (congrArg Host.Outcome.next run) (State.inError_setFail b held _)

end

end

theorem Runs.counterRecordWrite {c : Fin 16} (hd : (s.counter (ctrKey (setKey f q.val) c.val)).dirty = true)
    (hc : s.context (setKey f q.val) ≠ 0) (hf : s.fnClosed f = false)
    (ht : (s.counter (ctrKey (setKey f q.val) c.val)).recAt = 0 ∨ (s.counter (ctrKey (setKey f q.val) c.val)).recAt + 200 ≤ s.now) :
    Runs (.counterRecordWrite f q c) s (fun t => (t.counter (ctrKey (setKey f q.val) c.val)).dirty = false ∧
      t.out = s.out ++ [s.wrote f (s.context (setKey f q.val) + 0x300 + 64 * c.val) false
        (counterBytes (s.counter (ctrKey (setKey f q.val) c.val)))]) :=
  .of_next (congrArg Host.Outcome.next (if_pos ⟨hd, hc, hf, ht⟩)) ⟨(congrArg Counter.dirty (State.counter_setCtr ..)).trans rfl, rfl⟩

/-- Settles O33: what a read that returns or a timer does at once stands through all that its queue does next. -/
theorem queueReadsAndTimers : Obligations.QueueReadsAndTimers := by
  rintro s f q b w ⟨hw, -⟩
  intro sk key hq
  exact ⟨fun p slots ho ha hc hn => Runs.indexReadReturn hq ho ha hc hn, fun slots ho ha => Runs.indexReadReturn_poisoned hq ho ha,
    fun slots => Runs.indexReadReturn_slotsOnly hq, fun slot data hr hnow hslot hf => Runs.phaseRetry hq hw hr hnow hslot hf,
    fun ha hp hnow ho hf => Runs.pollTimer hq hw ha hp hnow ho hf, Runs.pollTimer_early hq,
    fun data hr hok => Runs.recordReload_ok hq hr hok, fun data hr hok => Runs.recordReload_bad hq hr hok,
    fun c hd hc hf ht => Runs.counterRecordWrite hd hc hf ht⟩

end Sys2Proof.Machine
end

section
/-! Work entries (O34): the satisfied head of a triggered queue starts (06_work_queues.md R164, R173, R185, R187), a started NOP or
COUNTER_ADD ends (R164), and an entry that is over is completed (R172 to R180). -/

set_option Elab.async false

namespace Sys2Proof.Machine

variable {s t u : State} {f : Fn} {q : Fin 128} {b : Fin 8} {i j k : Nat} {o p : WOp} {w : WQueue} {d : Die}

namespace State

/-! ## Completions (R172 to R180) -/

/-- The status of an operation's completion. -/
def doneStatus (o : WOp) : Nat := o.force.getD o.status

/-- The byte count of an operation's completion. -/
def doneBytes (o : WOp) : Nat := if eOpcode o.entry = opTSEND then tsLength o.entry else if doneStatus o = stFLUSHED then 0 else o.bytes

/-- An operation's queue is in use, and its counter has counted the completion (R182). -/
def tallied (s : State) (o : WOp) : State :=
  if eCtrEn o.entry then (s.touchQueue o.q).ctrComplete (ctrKey (o.q / 8) (eCtr o.entry)) (doneStatus o) (doneBytes o) else s.touchQueue o.q

/-- Then its completion is written. -/
def reported (s : State) (o : WOp) (w : WQueue) : State := (s.tallied o).writeCqe o.q w o (doneStatus o) (doneBytes o)

/-- A completed operation is counted and reported; the rest follows. -/
theorem complete_eq (ho : s.op i = some o) (hq : s.queue o.q = some w) (hover : opOver o = true)
    (hc : s.canComplete i w o (ringKey (o.q / 8) w.cq) = true) :
    ∃ u, (s.reported o w).later u ∧ s.complete i = u.retireOp o.q i := by
  unfold State.complete
  rw [ho]
  dsimp only
  rw [hq]
  dsimp only
  rw [hover, hc, if_neg nofun]
  have sealed (s : State) (c : Prop) [Decidable c] (f : Fn) (a : Nat) (ro : Bool) (l : List Byte) :
      s.later (if c then s.hwrite f a ro l else s) := later_ite (s.later_hwrite ..) s.later_refl
  refine ⟨_, ((sealed ..).trans (later_when _ _ later_of_eq)).trans (later_ite ?_ (later_refl _)), rfl⟩
  exact later.trans later_of_eq (later_forceOps ..)

/-- The table without operation `i`; of a receive, the matching unit keeps nothing (08_matching.md R238). -/
def removed (s : State) (k i : Nat) : State :=
  let s := s.when (match s.op i with | some o => eOpcode o.entry == opTRECV | none => false)
    (fun s => s.modDie (setDie (k / 8)) (fun x => { x with tmu := forgetRecv x.tmu k i }))
  { s with ops := tdel s.ops i }

theorem ops_removed (s : State) (k i : Nat) : (s.removed k i).ops = tdel s.ops i := by
  unfold removed State.when
  split
  all_goals split
  all_goals rfl

theorem later_removed (s : State) (k i : Nat) : s.later (s.removed k i) := by
  have same : (s.removed k i).out = s.out ∧ (s.removed k i).nextOp = s.nextOp := by
    unfold removed State.when
    split
    all_goals split
    all_goals exact ⟨rfl, rfl⟩
  exact later_of_loses (s.ops_removed k i ▸ tblLoses_tdel s.ops i) same.1 same.2

/-- A queue that drains and has no started entry left is READY (R178). -/
def queueDrained (s : State) (k : Nat) : State :=
  match s.queue k with
  | some w =>
    if w.st = QSt.draining ∧ w.ops.all (fun j => match s.op j with | some o => o.stage == Stage.waiting | none => true)
    then s.setQueue k { w with st := .ready } else s
  | none => s

theorem later_queueDrained (s : State) (k : Nat) : s.later (s.queueDrained k) := by
  unfold queueDrained
  split
  · exact later_ite later_of_eq s.later_refl
  · exact s.later_refl

theorem retireOp_eq (s : State) (k i : Nat) : s.retireOp k i =
    ((((s.removed k i).modQueue k (fun w => { w with ops := w.ops.erase i })).updConsumer k).queueDrained k).pumpQueue k := rfl

theorem later_modQueue (s : State) (k : Nat) (f : WQueue → WQueue) : s.later (s.modQueue k f) := later_of_eq

theorem later_retireOp_removed (s : State) (k i : Nat) : (s.removed k i).later (s.retireOp k i) := by
  rw [retireOp_eq]
  exact (((later_modQueue ..).trans (served_updConsumer (k := k) _ k).toLater).trans (later_queueDrained ..)).trans
    (served_pumpQueue _ k).toLater

theorem later_retireOp (s : State) (k i : Nat) : s.later (s.retireOp k i) := (s.later_removed k i).trans (s.later_retireOp_removed k i)

/-- An operation that is retired is gone, and stays so. -/
theorem op_retireOp (hw : tblWf s.ops = true) (hi : i < s.nextOp) (k : Nat) : (s.retireOp k i).op i = none := by
  have removed := s.later_removed k i
  have gone : (s.removed k i).op i = none := (congrArg (tget · i) (s.ops_removed k i)).trans (tget_tdel_same i hw)
  exact ((s.later_retireOp_removed k i).ops (removed.ops hw).1).2 i (Nat.lt_of_lt_of_le hi removed.nextOp) gone

theorem served_tallied (s : State) (o : WOp) : s.served dmaKeys k (s.tallied o) := by
  have used := s.served_touchQueue (k := k) o.q
  unfold tallied
  split
  · exact used.trans ((served_ctrUpdate ..).mono fun _ => dmaKeys_of_dmaFields)
  · exact used

theorem carried_tallied (hw : tblWf s.regs = true) (o : WOp) : s.carried cacheGroups (s.tallied o) := by
  have used : Holds cacheGroups (s.carried cacheGroups) (s.touchQueue o.q) := by
    apply touchQueue_keeps _ _ (carried_refl _ hw) <;> rfl
  unfold tallied
  split
  · have counted : Holds cacheGroups (s.carried cacheGroups)
        ((s.touchQueue o.q).ctrComplete (ctrKey (o.q / 8) (eCtr o.entry)) (doneStatus o) (doneBytes o)) := by
      apply ctrUpdate_keeps _ _ _ used <;> rfl
    exact counted.holds
  · exact used.holds

theorem later_modRing (s : State) (r : Nat) (f : CRing → CRing) : s.later (s.modRing r f) := later_of_eq

theorem later_writeCqe (s : State) (k : Nat) (w : WQueue) (o : WOp) (st n : Nat) : s.later (s.writeCqe k w o st n) := by
  unfold writeCqe
  dsimp only
  split
  · exact s.later_refl
  · refine later_ite later_of_eq ?_
    exact ((later_hwrite ..).trans (later_modRing ..)).trans (served_msix (k := 0) _ _).toLater

/-- An entry that asks for a completion has it written in the next slot of its ring. -/
theorem wrote_mem_writeCqe {g : CRing} (hg : s.ring (ringKey (k / 8) w.cq) = some g) (he : eCqe o.entry = true) (st n : Nat) :
    s.wrote (setFn (k / 8)) (g.base + g.written % 2 ^ g.log2 * 32) false (cqeBytes o st n w k g.written g.log2) ∈
      (s.writeCqe k w o st n).out := by
  have asked : (isOk st && !eCqe o.entry) = false := by rw [he, Bool.not_true, Bool.and_false]
  unfold writeCqe
  dsimp only
  rw [hg]
  dsimp only
  rw [asked, if_neg nofun]
  exact ((later_modRing ..).trans (served_msix (k := 0) _ _).toLater).out (s.wrote_mem_hwrite ..)

theorem wrote_mem_reported (hw : tblWf s.regs = true) {g : CRing} (hg : s.ring (ringKey (o.q / 8) w.cq) = some g)
    (he : eCqe o.entry = true) : s.wrote (setFn (o.q / 8)) (g.base + g.written % 2 ^ g.log2 * 32) false
      (cqeBytes o (doneStatus o) (doneBytes o) w o.q g.written g.log2) ∈ (s.reported o w).out := by
  have tallied := s.served_tallied (k := o.q) o
  obtain ⟨g', hg', ⟨base, log2, written, -⟩⟩ := tallied.ring _ g hg
  have coherent := (carried_tallied hw o).coherent (tallied.regs.mono fun _ => queueKeys_of_dmaKeys (setDie (o.q / 8))) hw
    (setFn (o.q / 8)).hp
  have wrote := wrote_mem_writeCqe hg' he (doneStatus o) (doneBytes o)
  rw [base, log2, written, wrote_congr coherent] at wrote
  exact wrote

/-! ### The membership of a quadrille's entry (11_collectives.md R366) -/

theorem later_opAbort (s : State) (i st : Nat) : s.later (s.opAbort i st) := by
  unfold opAbort
  split
  · exact later_ite (s.later_modOp ..) s.later_refl
  · exact s.later_refl

theorem later_wrs (s : State) (e : Die) (l : List (Fld × Nat)) : s.later (s.wrs e l) := later_foldl (fun _ _ _ => later_of_eq) s

theorem later_quadFail (s : State) (e : Die) (k st fea : Nat) (here : Bool) (skip : Option Nat) :
    s.later (s.quadFail e k st fea here skip) := by
  have ended (s : State) (i a : Nat) : s.later ((s.modOp i (fun w => { w with aux := a })).opAbort i st) :=
    (s.later_modOp ..).trans (later_opAbort ..)
  have sent (s : State) (m : Member) (up : Bool) (dest op : Nat) : s.later (s.sendQctl e k m up dest op abortOp) := later_of_eq
  have endedOps (s : State) (l : List QOp) (a : Nat → Nat) :
      s.later (l.foldl (fun s o => (s.modOp o.op (fun w => { w with aux := a o.opseq })).opAbort o.op st) s) :=
    later_foldl (fun _ _ s => ended s ..) s
  have endedIds (s : State) (l : List Nat) (a : Nat) :
      s.later (l.foldl (fun s i => (s.modOp i (fun w => { w with aux := a })).opAbort i st) s) := later_foldl (fun _ _ s => ended s ..) s
  have toChildren (s : State) (m : Member) (l : List Nat) (op : Nat) :
      s.later (l.foldl (fun s c => s.sendQctl e k m false c op abortOp) s) := later_foldl (fun _ _ s => sent s ..) s
  have toParent (s : State) (m : Member) (c : Prop) [Decidable c] (op : Nat) :
      s.later (if c then s else s.sendQctl e k m true m.parent op abortOp) := later_ite s.later_refl (sent s ..)
  have recorded (s : State) (m : Member) (l : List (Fld × Nat)) : s.later
      (if isLeaf m then s.bump e LEAF.LEAF_FAILURES.COUNT else (s.bump (qduOf e m) QDU.FAILURES.COUNT).wrs (qduOf e m) l) :=
    later_ite later_of_eq ((later_of_eq : s.later (s.bump (qduOf e m) QDU.FAILURES.COUNT)).trans (later_wrs ..))
  have marked (s : State) (f : Member → Member) : s.later (s.modMember e k f) := later_of_eq
  unfold quadFail
  split
  · exact s.later_refl
  · refine later_ite s.later_refl ?_
    dsimp only
    refine later.trans ?_ (marked _ _)
    refine later.trans ?_ (recorded _ _ _)
    refine later.trans ?_ (toParent _ _ _ _)
    refine later.trans ?_ (toChildren _ _ _ _)
    refine later.trans ?_ (endedIds _ _ _)
    exact endedOps _ _ (fun n => n + fea * 2 ^ 32 + st * 2 ^ 56)

theorem later_quadLapse (s : State) (i : Nat) (o : WOp) : s.later (s.quadLapse i o) := by
  unfold quadLapse
  refine later_ite s.later_refl ?_
  split
  · unfold quadFailHere
    split
    · exact s.later_quadFail ..
    · exact s.later_refl
  · exact s.later_refl

end State

/-! ## Completion -/

theorem exec_completion (ho : s.op i = some o) (hquiet : o.stage = .running → s.quadQuiet i o = true) :
    exec (.completion i) s = .next (if ((s.complete i).op i).isNone then (s.complete i).quadLapse i o else s.complete i) := by
  have turn : ¬ ((!s.quadQuiet i o) = true ∧ o.stage = .running) := by
    rintro ⟨loud, running⟩
    rw [hquiet running] at loud
    exact absurd loud nofun
  show execCompletion i s = _
  unfold execCompletion
  rw [ho]
  dsimp only
  rw [if_neg turn]

theorem Runs.completion (hw : tblWf s.regs = true) (hwo : tblWf s.ops = true) (hi : i < s.nextOp) (ho : s.op i = some o)
    (hq : s.queue o.q = some w) (hover : opOver o = true) (hquiet : o.stage = .running → s.quadQuiet i o = true)
    (hc : s.canComplete i w o (ringKey (o.q / 8) w.cq) = true) :
    Runs (.completion i) s (fun t => t.op i = none ∧ ∀ r, s.ring (ringKey (o.q / 8) w.cq) = some r → eCqe o.entry = true →
      s.wrote (setFn (o.q / 8)) (r.base + r.written % 2 ^ r.log2 * 32) false
        (cqeBytes o (State.doneStatus o) (State.doneBytes o) w o.q r.written r.log2) ∈ t.out) := by
  obtain ⟨u, reported, completed⟩ := State.complete_eq ho hq hover hc
  have begun : s.later u := ((s.served_tallied (k := o.q) o).toLater.trans (State.later_writeCqe ..)).trans reported
  have gone : (s.complete i).op i = none := by
    rw [completed]
    exact State.op_retireOp (begun.ops hwo).1 (Nat.lt_of_lt_of_le hi begun.nextOp) o.q
  have retired : u.later (s.complete i) := completed ▸ u.later_retireOp o.q i
  have run : exec (.completion i) s = .next ((s.complete i).quadLapse i o) := by
    rw [exec_completion ho hquiet, gone]
    rfl
  have lapsed := (s.complete i).later_quadLapse i o
  have done := begun.trans retired
  refine .of_next run ⟨(lapsed.ops (done.ops hwo).1).2 i (Nat.lt_of_lt_of_le hi done.nextOp) gone, fun r hr he => ?_⟩
  exact lapsed.out (retired.out (reported.out (State.wrote_mem_reported hw hr he)))

/-! ## Entries that end at once (R164) -/

theorem Runs.nop (ho : s.op i = some o) (hst : o.stage = .started) (hop : eOpcode o.entry = 0x00) : Runs (.nop i) s (fun t =>
    t.op i = some { o with stage := .ended, status := 0, bytes := 0 } ∧ onlyFields [] s t) := by
  have run : exec (.nop i) s = .next (s.endOp i stOK 0) := by
    show execNop i s = _
    unfold execNop
    rw [ho]
    exact congrArg Host.Outcome.next (if_pos ⟨hst, hop⟩)
  exact .of_next run ⟨State.op_modOp ho _, onlyFields_of_regs rfl⟩

theorem Runs.counterAdd (hw : tblWf s.regs = true) (ho : s.op i = some o) (hst : o.stage = .started) (hop : eOpcode o.entry = 0x01)
    (hc : s.context (o.q / 8) ≠ 0) : Runs (.counterAdd i) s (fun t =>
      t.op i = some { o with stage := .ended, status := 0, bytes := 0 } ∧
      (t.counter (ctrKey (o.q / 8) (ef o.entry 128 4))).count =
        (s.counter (ctrKey (o.q / 8) (ef o.entry 128 4))).count + BitVec.ofNat 64 (ef o.entry 192 64)) := by
  let key := ctrKey (o.q / 8) (ef o.entry 128 4)
  let add (c : Counter) : Counter := { c with count := c.count + BitVec.ofNat 64 (ef o.entry 192 64) }
  have run : exec (.counterAdd i) s = .next ((s.ctrUpdate key add).endOp i stOK 0) := by
    show execCounterAdd i s = _
    unfold execCounterAdd
    rw [ho]
    exact congrArg Host.Outcome.next (if_pos ⟨hst, hop⟩)
  have set : key / 16 = o.q / 8 := ctrKey_div (o.q / 8) ⟨ef o.entry 128 4, Nat.mod_lt _ (by decide)⟩
  obtain ⟨r, n, value⟩ := State.counter_ctrUpdate (k := key) (set ▸ hc) add
  have ops : (s.ctrUpdate key add).ops = s.ops := ((State.carried_ctrUpdate hw key add).same .ops rfl).1
  have op : (s.ctrUpdate key add).op i = some o := (congrArg (tget · i) ops).trans ho
  exact .of_next run ⟨State.op_modOp op _, (congrArg Counter.count value).trans rfl⟩

end Sys2Proof.Machine
end

section
/-! The satisfied head of a triggered queue starts (O34): what starting an operation looks at stands while its counter and its queue are
taken into use (06_work_queues.md R173, R185, R187; 09_remote_access.md R275), and the sweep notes its time (R187). -/

set_option Elab.async false

namespace Sys2Proof.Machine

variable {s t u : State} {f : Fn} {q : Fin 128} {b : Fin 8} {i j k : Nat} {o p : WOp} {w : WQueue} {d : Die}

namespace State

/-! ## What the start of an operation looks at -/

/-- Groups that no use of a counter changes. -/
def counterGroups (g : Grp) : Bool := !([Grp.counters, .out, .free, .regs].contains g)

/-- Groups that stand until an operation is given to a cluster. -/
def placeGroups (g : Grp) : Bool := !([Grp.queues, .rings, .counters, .ops, .out, .free, .regs].contains g)

theorem standing_touchCtr (s : State) (k : Nat) : s.standing counterGroups (s.touchCtr k) := by
  have kept : Holds counterGroups (s.standing counterGroups) (s.touchCtr k) := by
    apply touchCtr_keeps _ _ (s.holds_standing _) <;> rfl
  exact kept.holds

theorem canStart_congr (hops : t.ops = s.ops) (hrings : t.rings = s.rings) (hregs : s.writesIn dmaKeys t) (hw : tblWf s.regs = true)
    (k i : Nat) (w : WQueue) (o : WOp) : t.canStart k i w o = s.canStart k i w o := by
  have enabled : t.on (setDie (k / 8)) (HDR.CTRL.ENABLE 0x400000) = s.on (setDie (k / 8)) (HDR.CTRL.ENABLE 0x400000) :=
    congrArg (· == 1) (hregs.rd hw (not_dmaKeys _ (.inl (by decide)) (by decide) (by decide)))
  have started : t.startedOn (setDie (k / 8)) = s.startedOn (setDie (k / 8)) := by simp only [startedOn, hops]
  have ring : t.ring (ringKey (k / 8) w.cq) = s.ring (ringKey (k / 8) w.cq) := congrArg (tget · _) hrings
  unfold canStart
  rw [enabled, started, ring]

/-- A head that may start, may start once its counter is in use. -/
theorem canStart_touchCtr (hw : tblWf s.regs = true) (c k i : Nat) (w : WQueue) (o : WOp) :
    (s.touchCtr c).canStart k i w o = s.canStart k i w o := by
  have stands := s.standing_touchCtr c
  have regs := (s.served_touchCtr (j := 0) c).regs.mono fun _ => dmaKeys_of_dmaFields
  exact canStart_congr (stands .ops rfl).1 (stands .rings rfl) regs hw k i w o

theorem headMet_touchCtr (s : State) (k : Nat) (o : WOp) :
    (s.touchCtr (ctrKey (k / 8) (eTrig o.entry))).headMet k o = s.headMet k o := by
  obtain ⟨r, n, value⟩ := s.counter_touchCtr (ctrKey (k / 8) (eTrig o.entry))
  simp only [headMet, value]

theorem needsEngine_congr (h : ∀ d, (t.die d).members = (s.die d).members) (he : p.entry = o.entry) (hq : p.q = o.q) :
    t.needsEngine p = s.needsEngine o := by
  simp only [needsEngine, he, hq, h]

theorem clustersUp_congr (hpart : t.part = s.part) (hfm : t.fm = s.fm) (hregs : s.writesIn dmaKeys t) (hw : tblWf s.regs = true) (d : Die) :
    t.clustersUp d = s.clustersUp d := by
  have units : t.rd .a GLB.UNIT_ENABLED.UNITS = s.rd .a GLB.UNIT_ENABLED.UNITS :=
    hregs.rd hw (not_dmaKeys _ (.inl (by decide)) (by decide) (by decide))
  have locked (c : Nat) : t.rd d (PWC.DOM_STATE.LOCKED_OFF (16 + c % 8)) = s.rd d (PWC.DOM_STATE.LOCKED_OFF (16 + c % 8)) := by
    have place : (PWC.DOM_STATE.LOCKED_OFF (16 + c % 8)).off = 0x3c04008 + 0x20 * (16 + c % 8) := rfl
    exact hregs.rd hw (not_dmaKeys _ (.inr (by omega)) (by omega) (by decide : 4 < 64))
  simp only [clustersUp, enginesLeft, State.retired, State.retiredRec, unitEnabled, State.present, State.on, hpart, hfm, units, locked]

/-! ## The start of an operation -/

/-- An operation that is marked has been found before. -/
theorem op_marked (ho : s.op i = some o) (j : Nat) (w : WQueue) : (s.marked j i w).op i = some (startedAs o) := by
  have kept : Holds (· == .ops) (s.standing (· == .ops)) (s.touchQueue j) := by
    apply touchQueue_keeps _ _ (s.holds_standing _) <;> rfl
  have op : (s.touchQueue j).op i = some o := (congrArg (tget · i) (kept.holds .ops rfl).1).trans ho
  exact op_modOp op startedAs

theorem op_placed_of_not (hp : s.op i = some p) (h : ¬ (p.stage = .started ∧ s.needsEngine p = true)) : (s.placed i).op i = some p := by
  unfold placed
  rw [hp]
  exact (congrArg (State.op · i) (if_neg h)).trans hp

theorem placed_of_needsEngine (hp : s.op i = some p) (h : p.stage = .started ∧ s.needsEngine p = true) : s.placed i = s.assign i := by
  unfold placed
  rw [hp]
  exact if_pos h

/-- Without a cluster an operation ends. -/
theorem op_assign_absent (hp : s.op i = some p) (h : s.clustersUp (setDie (p.q / 8)) = []) :
    (s.assign i).op i = some { p with stage := .ended, status := stABSENT, bytes := 0 } := by
  unfold assign
  rw [hp]
  dsimp only
  rw [h]
  exact op_modOp hp _

/-- With one it goes on. -/
theorem op_assign (hp : s.op i = some p) (h : s.clustersUp (setDie (p.q / 8)) ≠ []) : ∃ c, (s.assign i).op i = some { p with cluster := c } := by
  unfold assign
  rw [hp]
  dsimp only
  split
  · next none => exact absurd none h
  · unfold State.draw State.when
    dsimp only
    split
    all_goals exact ⟨_, op_modOp (s := { s with free := s.free + 1 }) hp _⟩

/-- What follows the placing of an operation changes none. -/
theorem ops_startOp (s : State) (j i : Nat) (w : WQueue) (r : Nat) :
    (((s.startOp j i w).trigUpdate r).prefetch r).ops = ((s.marked j i w).placed i).ops := by
  let K : Grp → Bool := (· == .ops)
  let v := (s.marked j i w).placed i
  have bumped (t : State) (h : Holds K (v.standing K) t) (e : Die) (fld : Fld) : Holds K (v.standing K) (t.bump e fld) := bump_keeps _ _ _ h rfl
  have counted : Holds K (v.standing K) (v.startCounted j i w) := by
    unfold startCounted
    refine event_keeps _ _ _ _ (bumped _ ?_ ..) rfl
    unfold State.when
    split
    · exact bumped _ (v.holds_standing K) ..
    · exact v.holds_standing K
  have started : Holds K (v.standing K) ((v.startCounted j i w).updConsumer j) := updConsumer_keeps _ _ counted rfl rfl rfl
  have after : Holds K (v.standing K) (((v.startCounted j i w).updConsumer j).trigUpdate r) := trigUpdate_keeps _ _ started rfl
  have fetched : Holds K (v.standing K) ((((v.startCounted j i w).updConsumer j).trigUpdate r).prefetch r) :=
    prefetch_keeps _ _ after rfl rfl rfl
  rw [startOp_eq]
  exact (fetched.holds .ops rfl).1

/-- Taking the counter and the queue into use leaves all that the placing of an operation looks at. -/
theorem needsEngine_clustersUp_marked (hw : tblWf s.regs = true) (c j i : Nat) (w : WQueue) :
    (∀ (o p : WOp), p.entry = o.entry → p.q = o.q → ((s.touchCtr c).marked j i w).needsEngine p = s.needsEngine o) ∧
      ∀ d, ((s.touchCtr c).marked j i w).clustersUp d = s.clustersUp d := by
  let v := (s.touchCtr c).marked j i w
  have counter : Holds placeGroups (s.carried placeGroups) (s.touchCtr c) := by
    apply touchCtr_keeps _ _ (carried_refl _ hw) <;> rfl
  have queue : Holds placeGroups (s.carried placeGroups) ((s.touchCtr c).touchQueue j) := by
    apply touchQueue_keeps _ _ counter <;> rfl
  have carried : s.carried placeGroups v := (modOp_keeps _ _ _ (modRing_keeps _ _ _ queue rfl) rfl).holds
  have regs : s.writesIn dmaKeys v := ((s.served_touchCtr (j := 0) c).regs.mono fun _ => dmaKeys_of_dmaFields).trans
    (served_marked (k := 0) _ j i w).regs
  have members : ∀ d, (v.die d).members = (s.die d).members := by
    obtain ⟨⟨ha, -⟩, ⟨hb, -⟩⟩ := carried.same .members rfl
    rintro (_ | _)
    exacts [ha, hb]
  exact ⟨fun o p he hq => needsEngine_congr members he hq, clustersUp_congr carried.part (carried.same .faults rfl) regs hw⟩

theorem startedAs_malformed (h : o.malformed = true) : (startedAs o).stage = .ended ∧ (startedAs o).status = stFORMAT := by
  unfold startedAs
  rw [if_pos h]
  exact ⟨rfl, rfl⟩

theorem startedAs_sound (h : ¬ o.malformed = true) : startedAs o = { o with stage := .started, reserved := true } := if_neg h

end State

/-- How an operation stands once it is placed (R173; 16_faults.md R522). -/
theorem State.op_placed_marked (hw : tblWf s.regs = true) (ho : s.op i = some o) (c j : Nat) (w : WQueue) :
    ∃ o', (((s.touchCtr c).marked j i w).placed i).op i = some o' ∧
      (if o.malformed then o'.stage = .ended ∧ o'.status = stFORMAT
       else if s.needsEngine o = true ∧ s.clustersUp (setDie (o.q / 8)) = [] then o'.stage = .ended ∧ o'.status = stABSENT
       else o'.stage = .started) := by
  let v := (s.touchCtr c).marked j i w
  have found : (s.touchCtr c).op i = some o := (congrArg (tget · i) (s.standing_touchCtr c .ops rfl).1).trans ho
  have op : v.op i = some (State.startedAs o) := State.op_marked found j w
  obtain ⟨needs, clusters⟩ := State.needsEngine_clustersUp_marked hw c j i w
  by_cases hm : o.malformed = true
  · obtain ⟨ended, status⟩ := State.startedAs_malformed hm
    refine ⟨_, State.op_placed_of_not op (by rw [ended]; exact nofun), ?_⟩
    rw [if_pos hm]
    exact ⟨ended, status⟩
  · rw [State.startedAs_sound hm] at op
    have needs := needs o { o with stage := .started, reserved := true } rfl rfl
    simp only [if_neg hm]
    by_cases hn : s.needsEngine o = true
    · rw [State.placed_of_needsEngine op ⟨rfl, needs.trans hn⟩]
      by_cases hc : s.clustersUp (setDie (o.q / 8)) = []
      · refine ⟨_, State.op_assign_absent op ((clusters _).trans hc), ?_⟩
        rw [if_pos ⟨hn, hc⟩]
        exact ⟨rfl, rfl⟩
      · obtain ⟨c, assigned⟩ := State.op_assign op (by rw [clusters]; exact hc)
        refine ⟨_, assigned, ?_⟩
        rw [if_neg fun h => hc h.2]
    · refine ⟨_, State.op_placed_of_not op (by rw [needs]; exact fun h => hn h.2), ?_⟩
      rw [if_neg fun h => hn h.1]

/-! ## The head of a triggered queue, and the sweep -/

theorem exec_triggeredHeadStart (ht : qKey (setKey f q.val) b.val ∈ (s.die (fnDie f)).trig)
    (hq : s.queue (qKey (setKey f q.val) b.val) = some w) (h2 : w.type = 2) (hh : s.headOf w = some (i, o))
    (hm : s.headMet (qKey (setKey f q.val) b.val) o = true) (hc : s.canStart (qKey (setKey f q.val) b.val) i w o = true)
    (hw : tblWf s.regs = true) :
    let key := qKey (setKey f q.val) b.val
    exec (.triggeredHeadStart f q b) s = .next (((((s.touchCtr (ctrKey (key / 8) (eTrig o.entry))).startOp key i w).trigUpdate
      key)).prefetch key) := by
  intro key
  have listed : (s.die (fnDie f)).trig.contains key = true := List.contains_iff_mem.mpr ht
  have met := (s.headMet_touchCtr key o).trans hm
  have can := (s.canStart_touchCtr hw (ctrKey (key / 8) (eTrig o.entry)) key i w o).trans hc
  show execTriggeredHeadStart f q b s = _
  unfold execTriggeredHeadStart
  refine congrArg Host.Outcome.next ((if_pos listed).trans ?_)
  unfold State.startHead
  rw [hq]
  dsimp only
  rw [hh]
  dsimp only
  rw [met, can, h2]
  rfl

theorem Runs.triggeredHeadStart (hw : tblWf s.regs = true) (ho : s.op i = some o)
    (hq : s.queue (qKey (setKey f q.val) b.val) = some w) (h2 : w.type = 2) (hh : s.headOf w = some (i, o))
    (hm : s.headMet (qKey (setKey f q.val) b.val) o = true) (hc : s.canStart (qKey (setKey f q.val) b.val) i w o = true)
    (ht : qKey (setKey f q.val) b.val ∈ (s.die (fnDie f)).trig) :
    Runs (.triggeredHeadStart f q b) s (fun t => ∃ o', t.op i = some o' ∧
      (if o.malformed then o'.stage = .ended ∧ o'.status = stFORMAT
       else if s.needsEngine o = true ∧ s.clustersUp (setDie (o.q / 8)) = [] then o'.stage = .ended ∧ o'.status = stABSENT
       else o'.stage = .started)) := by
  obtain ⟨o', placed, outcome⟩ := State.op_placed_marked hw ho (ctrKey (qKey (setKey f q.val) b.val / 8) (eTrig o.entry))
    (qKey (setKey f q.val) b.val) w
  exact .of_next (exec_triggeredHeadStart ht hq h2 hh hm hc hw) ⟨o', (congrArg (tget · i) (State.ops_startOp ..)).trans placed, outcome⟩

theorem Runs.triggerSweep (h : (s.die d).sweepAt = 0 ∨ (s.die d).sweepAt + 10000 ≤ s.now) :
    Runs (.triggerSweep d) s (fun t => (t.die d).sweepAt = s.now) :=
  .of_next (congrArg Host.Outcome.next (if_pos h.symm)) (congrArg DieState.sweepAt (State.die_modDie_same ..))

theorem Runs.triggerSweep_early (h0 : (s.die d).sweepAt ≠ 0) (h : s.now < (s.die d).sweepAt + 10000) :
    Runs (.triggerSweep d) s (fun t => t = s) := by
  refine .of_next (congrArg Host.Outcome.next (if_neg ?_)) rfl
  rintro (due | never)
  · exact Nat.not_lt.mpr due h
  · exact h0 never

/-- Settles O34: what an entry's start and its completion bring about at once stands through all that its queue does next. -/
theorem entriesStartAndComplete : Obligations.EntriesStartAndComplete := by
  rintro s i o ⟨hw, -⟩ hwo hi ho
  refine ⟨Runs.nop ho, Runs.counterAdd hw ho, fun w hq hover hquiet hc => Runs.completion hw hwo hi ho hq hover hquiet hc, ?_,
    fun d h => Runs.triggerSweep h, fun d h0 h => Runs.triggerSweep_early h0 h⟩
  intro f q b w hkey hq h2 hh hm hc ht
  rw [hkey] at hq hm hc ht
  exact Runs.triggeredHeadStart hw ho hq h2 hh hm hc ht

end Sys2Proof.Machine
end

section
/-! The command channels of the XLU (O35): who may use one, what a command does before and after its own action (07_translation.md R218 to
R221), and what the command asks of the device. -/

set_option Elab.async false

namespace Sys2Proof.Machine

variable {s t u : State} {rq : Requester} {d e : Die} {c : Fin 3} {op : Nat} {f : Fn} {g : Fld} {k : Instr} {Q : State → Prop}
  {act : State → Except (Nat × Nat) State}

/-! ## The registers that the XLU's own work writes -/

/-- Keys of the fields of the XLU's page from its counters on. -/
def xluKeys (x : Nat) : Prop := 0x800040 ≤ x / 64 % 0x4000000 ∧ x / 64 % 0x4000000 < 0x800280

theorem xluKeys_fkey (d : Die) (hoff : 0x800040 ≤ g.off ∧ g.off < 0x800280) (hlo : g.lo < 64) : xluKeys (fkey d g) := by
  rw [xluKeys, fkey_off d (by omega) hlo]
  exact hoff

theorem not_xluKeys (d : Die) (h : g.off < 0x800040) (hlo : g.lo < 64) : ¬ xluKeys (fkey d g) := by
  rw [xluKeys, fkey_off d (by omega) hlo]
  omega

section
variable (h : s.writesIn xluKeys t) (hw : tblWf s.regs = true)
include h hw

/-- What the configuration of the XLU and the registers below its page read. -/
theorem State.writesIn.rd_below (hoff : g.off < 0x800040) (hlo : g.lo < 64) : t.rd d g = s.rd d g := h.rd hw (not_xluKeys d hoff hlo)

theorem State.writesIn.isWarden (f : Fn) : t.isWarden f = s.isWarden f := by
  have idx := fnIdx_lt f
  exact congrArg (· == 1) (h.rd_below hw (show 0x210000 + 0x8 * fnIdx f < 0x800040 by omega) (by decide : 32 < 64))

theorem State.writesIn.polderOf_xlu (f : Fn) : t.polderOf f = s.polderOf f := by
  have idx := fnIdx_lt f
  exact State.polderOf_congr fun fld hoff hlo => h.rd_below hw (by omega) hlo

theorem State.writesIn.privileged (rq : Requester) : t.privileged rq = s.privileged rq := by
  cases rq with
  | fn f => exact h.isWarden hw f
  | svc | oob | mgt => rfl

theorem State.writesIn.foreign (rq : Requester) (p : Fin 4) : t.foreign rq p = s.foreign rq p := by
  cases rq with
  | fn f => simp only [State.foreign, h.isWarden hw f]
  | svc | oob | mgt => rfl

theorem State.writesIn.fnOwns (hports : t.hps = s.hps) (hpart : t.part = s.part) (d : Die) (f : Fn) : t.fnOwns d f = s.fnOwns d f := by
  have enabled : t.fnEnabled f = s.fnEnabled f := by
    unfold State.fnEnabled State.hp
    rw [hports]
  simp only [State.fnOwns, State.hpPresent, State.present, hpart, enabled, h.polderOf_xlu hw f]

theorem State.writesIn.atsMode (f : Fn) : t.atsMode f = s.atsMode f :=
  congrArg (bitOf · (f.hp.val % 2)) (h.rd_below hw (by decide : 0x800020 < 0x800040) (by decide : 0 < 64))

theorem State.writesIn.asked (hports : t.hps = s.hps) (hpart : t.part = s.part) (f : Fn) (a n : Nat) : t.asked f a n = s.asked f a n :=
  State.asked_congr (State.coherent_congr hports hpart (h.rd_below hw (by decide : 0x20 < 0x800040) (by decide : 0 < 64)) f.hp) a n

end

/-! ## Before the action -/

/-- The state in which a channel's command acts: its opcode is stored. -/
def State.xReady (s : State) (d : Die) (c : Fin 3) (op : Nat) : State := s.wr d (XLU.X_CMD.OP c.val) op

@[simp] theorem State.xlu_xReady (s : State) (d e : Die) (c : Fin 3) (op : Nat) : (s.xReady d c op).xlu e = s.xlu e := rfl

theorem State.xReady_wf (hw : tblWf s.regs = true) : tblWf (s.xReady d c op).regs = true := s.wr_wf _ _ _ hw

theorem State.writes_xReady (s : State) (d : Die) (c : Fin 3) (op : Nat) : s.writesIn xluKeys (s.xReady d c op) :=
  s.writesIn_wr op (xluKeys_fkey d
    (show 0x800040 ≤ 0x800100 + 0x80 * c.val ∧ 0x800100 + 0x80 * c.val < 0x800280 by omega) (by decide : 0 < 64))

theorem State.rd_xReady (hw : tblWf s.regs = true) (hoff : g.off ≠ 0x800100 + 0x80 * c.val) (hlo : g.lo < 64) :
    (s.xReady d c op).rd d g = s.rd d g := s.rd_wr_other op hw (fkey_ne_of_off d hoff hlo (by decide : 0 < 64))

/-- The arguments of a command stand when it acts. -/
theorem State.xArg_xReady (hw : tblWf s.regs = true) (i : Nat) : (s.xReady d c op).xArg d c i = s.xArg d c i := by
  refine State.rd_xReady hw ?_ ?_
  · simp only [XLU.X_ARG0.ARG, XLU.X_ARG1.ARG, XLU.X_ARG2.ARG, XLU.X_ARG3.ARG]
    split_ifs
    all_goals simp
  · split_ifs
    all_goals exact (by decide : 0 < 64)

/-! What a command asks of functions and polders it finds as it was. -/

theorem State.privileged_xReady (hw : tblWf s.regs = true) (rq : Requester) : (s.xReady d c op).privileged rq = s.privileged rq :=
  (s.writes_xReady d c op).privileged hw rq
theorem State.foreign_xReady (hw : tblWf s.regs = true) (rq : Requester) (p : Fin 4) : (s.xReady d c op).foreign rq p = s.foreign rq p :=
  (s.writes_xReady d c op).foreign hw rq p
theorem State.fnOwns_xReady (hw : tblWf s.regs = true) (e : Die) (f : Fn) : (s.xReady d c op).fnOwns e f = s.fnOwns e f :=
  (s.writes_xReady d c op).fnOwns hw rfl rfl e f
theorem State.polderOf_xReady (hw : tblWf s.regs = true) (f : Fn) : (s.xReady d c op).polderOf f = s.polderOf f :=
  (s.writes_xReady d c op).polderOf_xlu hw f
theorem State.atsMode_xReady (hw : tblWf s.regs = true) (f : Fn) : (s.xReady d c op).atsMode f = s.atsMode f :=
  (s.writes_xReady d c op).atsMode hw f

/-! ## After the action -/

@[simp] theorem State.xlu_xEnd (s : State) (d e : Die) (c : Fin 3) (code detail : Nat) : (s.xEnd d c code detail).xlu e = s.xlu e :=
  congrArg DieState.xlu (State.die_wrs ..)

/-- What X_STATUS shows once a command has ended. -/
theorem State.rd_xEnd (hw : tblWf u.regs = true) (code detail : Nat) : (u.xEnd d c code detail).rd d (XLU.X_STATUS.DONE c.val) = 1 ∧
    (u.xEnd d c code detail).rd d (XLU.X_STATUS.CODE c.val) = code % 2 ^ 8 ∧
    (u.xEnd d c code detail).rd d (XLU.X_STATUS.DETAIL c.val) = detail % 2 ^ 8 := by
  unfold State.xEnd
  refine ⟨State.rd_wrs 1 hw (hl := ?_), State.rd_wrs 2 hw (hl := ?_), State.rd_wrs 3 hw⟩
  all_goals simp [Fld.apart, XLU.X_STATUS.DONE, XLU.X_STATUS.CODE, XLU.X_STATUS.DETAIL]

theorem State.rd_xEnd_result (hw : tblWf u.regs = true) (code detail : Nat) :
    (u.xEnd d c code detail).rd d (XLU.X_RESULT.VALUE c.val) = u.rd d (XLU.X_RESULT.VALUE c.val) :=
  State.rd_wrs_other hw (by
    simp [Fld.apart, XLU.X_STATUS.BUSY, XLU.X_STATUS.DONE, XLU.X_STATUS.CODE, XLU.X_STATUS.DETAIL, XLU.X_RESULT.VALUE])

/-- A command that ends with OK shows it, and leaves no detail. -/
theorem State.rd_xEnd_ok (hw : tblWf u.regs = true) : (u.xEnd d c stOK 0).rd d (XLU.X_STATUS.DONE c.val) = 1 ∧
    (u.xEnd d c stOK 0).rd d (XLU.X_STATUS.CODE c.val) = 0 ∧ (u.xEnd d c stOK 0).rd d (XLU.X_STATUS.DETAIL c.val) = 0 :=
  State.rd_xEnd hw stOK 0

/-! ## The command -/

/-- The block is enabled, and shows it (R218). -/
def State.xluEnabled (s : State) (d : Die) : Prop := s.rd d (HDR.CTRL.ENABLE 0x800000) = 1 ∧ s.rd d (HDR.STATUS.ENABLED 0x800000) = 1

/-- A channel takes a command of a requester: it may use the channel, which is not BUSY (R219, R220). -/
structure State.xTakes (s : State) (rq : Requester) (d : Die) (c : Fin 3) : Prop where
  regs : tblWf s.regs = true
  bar : s.barUp rq = true
  channel : s.channelOk rq d c = true
  free : s.rd d (XLU.X_STATUS.BUSY c.val) = 0

theorem State.xCommand_refused (hbar : s.barUp rq = true) (hch : s.channelOk rq d c = false) :
    s.xCommand rq d c op act = s.bump d XLU.CHANNEL_REJECTS.COUNT := by
  simp [State.xCommand, hbar, hch]

theorem State.xCommand_busy (hbar : s.barUp rq = true) (hch : s.channelOk rq d c = true) (hb : s.rd d (XLU.X_STATUS.BUSY c.val) = 1) :
    s.xCommand rq d c op act = s.wr d (XLU.X_STATUS.GO_REJECT c.val) 1 := by
  simp [State.xCommand, State.on, hbar, hch, hb]

section
variable (h : s.xTakes rq d c)
include h

theorem State.on_xReady (hoff : g.off < 0x800040) (hlo : g.lo < 64) : (s.xReady d c op).on d g = s.on d g :=
  congrArg (· == 1) ((s.writes_xReady d c op).rd_below h.regs hoff hlo)

theorem State.xCommand_disabled (he : ¬ s.xluEnabled d) : s.xCommand rq d c op act = (s.xReady d c op).xEnd d c stFORMAT xSTATE := by
  have off : (!(s.xReady d c op).on d (HDR.CTRL.ENABLE 0x800000) || !(s.xReady d c op).on d (HDR.STATUS.ENABLED 0x800000)) = true := by
    rw [State.on_xReady h (by decide) (by decide), State.on_xReady h (by decide) (by decide)]
    simpa [State.on, State.xluEnabled, imp_iff_not_or] using he
  unfold State.xReady at off
  simp [State.xCommand, h.bar, h.channel, State.on_eq_false h.free, off, State.xReady]

theorem State.xCommand_ok (he : s.xluEnabled d) (hu : act (s.xReady d c op) = .ok u) : s.xCommand rq d c op act = u.xEnd d c stOK 0 := by
  obtain ⟨hctrl, hstatus⟩ := he
  have ctrl : (s.xReady d c op).on d (HDR.CTRL.ENABLE 0x800000) = true := by
    rw [State.on_xReady h (by decide) (by decide), State.on, hctrl, beq_self_eq_true]
  have status : (s.xReady d c op).on d (HDR.STATUS.ENABLED 0x800000) = true := by
    rw [State.on_xReady h (by decide) (by decide), State.on, hstatus, beq_self_eq_true]
  unfold State.xReady at hu ctrl status
  simp [State.xCommand, h.bar, h.channel, State.on_eq_false h.free, ctrl, status, hu]

/-- A command whose action ends well, in `u`. -/
theorem Runs.xCommand (he : s.xluEnabled d) (run : exec k s = .next (s.xCommand rq d c op act)) (hu : act (s.xReady d c op) = .ok u)
    (hQ : Q (u.xEnd d c stOK 0)) : Runs k s Q := by
  rw [State.xCommand_ok h he hu] at run
  exact .of_next run hQ

/-- A command while the block is not enabled changes no object. -/
theorem Runs.xCommand_disabled (he : ¬ s.xluEnabled d) (run : exec k s = .next (s.xCommand rq d c op act)) : Runs k s (fun t =>
    t.dies = s.dies ∧ t.out = s.out ∧ t.rd d (XLU.X_STATUS.DONE c.val) = 1 ∧ t.rd d (XLU.X_STATUS.CODE c.val) = stFORMAT ∧
      t.rd d (XLU.X_STATUS.DETAIL c.val) = 0x08) := by
  rw [State.xCommand_disabled h he] at run
  exact .of_next run ⟨State.wrs_dies .., State.wrs_out .., State.rd_xEnd (State.xReady_wf h.regs) stFORMAT xSTATE⟩

end

/-- Each of the eight commands goes through the channel. -/
theorem exec_xCommand (hk : k ∈ [Instr.createSpace rq d c, .destroySpace rq d c, .createRegion rq d c, .destroyRegion rq d c,
    .invalidateRange rq d c, .invalidateSpace rq d c, .invalidateFunction rq d c, .invalidateAll rq d c]) (s : State) :
    ∃ op act, exec k s = .next (s.xCommand rq d c op act) := by
  simp only [List.mem_cons, List.not_mem_nil, or_false] at hk
  rcases hk with rfl | rfl | rfl | rfl | rfl | rfl | rfl | rfl
  all_goals exact ⟨_, _, rfl⟩

/-- Settles O35: both guards stand in the channel, before what a command does. -/
theorem channelsAreGuarded : Obligations.ChannelsAreGuarded := by
  rintro s rq d c ⟨hw, -⟩ hbar k hk
  obtain ⟨op, act, run⟩ := exec_xCommand hk s
  refine ⟨fun hch => ?_, fun hch hbusy => ?_⟩
  · rw [State.xCommand_refused hbar hch] at run
    exact .of_next run ⟨rfl, rfl, s.rd_bump_same _ _ hw, (s.writesIn_wr _ ⟨_, .head _, rfl⟩).onlyFields hw⟩
  · rw [State.xCommand_busy hbar hch hbusy] at run
    exact .of_next run ⟨rfl, rfl, s.rd_wr_same _ _ _ hw, (s.writesIn_wr 1 ⟨_, .head _, rfl⟩).onlyFields hw⟩

end Sys2Proof.Machine
end

section
/-! The invalidations of the XLU (O37): what one removes at once or waits for, and the token that its channel enters (07_translation.md
R208, R211 to R213). -/

set_option Elab.async false

namespace Sys2Proof.Machine

variable {s t u : State} {rq : Requester} {d : Die} {c : Fin 3} {op : Nat} {k : Instr}
  {act : State → Except (Nat × Nat) State} {i : InvScope} {key : Option Nat} {x : Xlu}

/-! ## A die's XLU -/

@[simp] theorem State.xlu_modXlu (s : State) (d : Die) (m : Xlu → Xlu) : (s.modXlu d m).xlu d = m (s.xlu d) :=
  congrArg DieState.xlu (State.die_modDie_same ..)

@[simp] theorem State.xlu_wr (s : State) (d e : Die) (g : Fld) (v : Nat) : (s.wr d g v).xlu e = s.xlu e := rfl
@[simp] theorem State.xlu_hread (s : State) (e : Die) (f : Fn) (a n : Nat) (tr : Bool) : (s.hread f a n tr).xlu e = s.xlu e := rfl
@[simp] theorem State.xlu_fenceRead (s : State) (d e : Die) (f : Fn) : (s.fenceRead d f).xlu e = s.xlu e := rfl

/-! ## The channels' tokens (R212) -/

@[simp] theorem chTokens_setNext (x : Xlu) (c b n : Nat) : chTokens (setNext x c n) b = chTokens x b := by
  unfold setNext
  split_ifs
  all_goals rfl

@[simp] theorem chTokens_setTokens (x : Xlu) (c : Nat) (l : List XToken) : chTokens (setTokens x c l) c = l := by
  unfold setTokens chTokens
  split_ifs
  all_goals rfl

@[simp] theorem chNext_setNext (x : Xlu) (c n : Nat) : chNext (setNext x c n) c = n := by
  unfold setNext chNext
  split_ifs
  all_goals rfl

/-- What a token's entry leaves of the block. -/
theorem setNext_setTokens_eq (x : Xlu) (c n : Nat) (l : List XToken) : ∃ t0 t1 t2 n0 n1 n2, setNext (setTokens x c l) c n =
    { x with tokens0 := t0, tokens1 := t1, tokens2 := t2, next0 := n0, next1 := n1, next2 := n2 } := by
  unfold setNext setTokens
  split_ifs
  all_goals exact ⟨_, _, _, _, _, _, rfl⟩

/-! ## Performing an invalidation -/

/-- Advancing generations touches the spaces and the functions' tags alone. -/
theorem bumpGens_eq (i : InvScope) (x : Xlu) : ∃ sp g, bumpGens i x = { x with spaces := sp, fnGen := g } := by
  cases i
  all_goals exact ⟨_, _, rfl⟩

/-- No cached translation that an invalidation names is left. -/
def cachesFree (i : InvScope) (x : Xlu) : Prop := (∀ e ∈ x.tlb, invMatch i e.tag e.va e.size = false) ∧
  (∀ p ∈ x.victim, invMatch i p.2.tag p.2.va p.2.size = false) ∧ (∀ e ∈ x.walkCache, invMatch i e.tag e.va e.size = false)

theorem cachesFree_invalidate (i : InvScope) (x : Xlu) : cachesFree i (invalidate i x) := by
  refine ⟨?_, ?_, ?_⟩
  all_goals
    intro e he
    simpa using (List.mem_filter.mp he).2

theorem cachesFree_bumpGens (h : cachesFree i x) (j : InvScope) : cachesFree i (bumpGens j x) := by
  obtain ⟨sp, g, e⟩ := bumpGens_eq j x
  rw [e]
  exact h

theorem State.fenceReads_keep {α : Type} (g : State → α) (hg : ∀ (s : State) f, g (s.fenceRead d f) = g s) (l : List Fn) (s : State) :
    g (l.foldl (fun s f => s.fenceRead d f) s) = g s := by
  induction l generalizing s with
  | nil => rfl
  | cons f l ih => exact (ih _).trans (hg s f)

theorem State.xlu_invPerform (s : State) (d : Die) (i : InvScope) (key : Option Nat) :
    (s.invPerform d i key).1.xlu d = bumpGens i (invalidate i (s.xlu d)) :=
  (State.fenceReads_keep (·.xlu d) (fun _ _ => rfl) _ _).trans (s.xlu_modXlu d _)

/-! ## Beginning an invalidation (R213) -/

theorem State.invBegin_now (h : invWaits i (s.xlu d) = []) (key : Option Nat) :
    s.invBegin d i key = ((s.invPerform d i key).1, ⟨i, key, [], (s.invPerform d i key).2⟩) := by
  simp only [State.invBegin, h]

theorem State.invBegin_waits (h : invWaits i (s.xlu d) ≠ []) (key : Option Nat) :
    s.invBegin d i key = (s, ⟨i, key, invWaits i (s.xlu d), []⟩) := by
  unfold State.invBegin
  split
  · next e => exact absurd e h
  · rfl

theorem State.walks_invBegin (s : State) (d : Die) (i : InvScope) (key : Option Nat) :
    (s.invBegin d i key).2.walks = invWaits i (s.xlu d) := by
  by_cases h : invWaits i (s.xlu d) = []
  · rw [State.invBegin_now h, h]
  · rw [State.invBegin_waits h]

/-- The tokens stand: that of the invalidation itself is entered after it has begun. -/
theorem State.tokens_invBegin (s : State) (d : Die) (i : InvScope) (key : Option Nat) (b : Nat) :
    chTokens ((s.invBegin d i key).1.xlu d) b = chTokens (s.xlu d) b := by
  by_cases h : invWaits i (s.xlu d) = []
  · obtain ⟨sp, g, e⟩ := bumpGens_eq i (invalidate i (s.xlu d))
    rw [State.invBegin_now h, State.xlu_invPerform, e]
    rfl
  · rw [State.invBegin_waits h]

theorem State.cachesFree_invBegin (h : invWaits i (s.xlu d) = []) (key : Option Nat) : cachesFree i ((s.invBegin d i key).1.xlu d) := by
  rw [State.invBegin_now h, State.xlu_invPerform]
  exact cachesFree_bumpGens (cachesFree_invalidate i _) i

theorem State.spaces_invBegin (hs : tblWf (s.xlu d).spaces = true) (id : Nat) (key : Option Nat) :
    tblWf ((s.invBegin d (.space id) key).1.xlu d).spaces = true := by
  by_cases h : invWaits (.space id) (s.xlu d) = []
  · rw [State.invBegin_now h, State.xlu_invPerform]
    exact tmod_wf id _ hs
  · rwa [State.invBegin_waits h]

theorem State.writes_fenceRead (s : State) (d : Die) (f : Fn) : s.writesIn dmaKeys (s.fenceRead d f) :=
  ((s.writes_hread f 0 0 false).mono fun _ => dmaKeys_of_dmaFields).of_right

theorem State.writes_invPerform (s : State) (d : Die) (i : InvScope) (key : Option Nat) : s.writesIn dmaKeys (s.invPerform d i key).1 :=
  (State.writesIn_foldl (fun f _ s => s.writes_fenceRead d f) _).of_left

theorem State.writes_invBegin (s : State) (d : Die) (i : InvScope) (key : Option Nat) : s.writesIn dmaKeys (s.invBegin d i key).1 := by
  by_cases h : invWaits i (s.xlu d) = []
  · rw [State.invBegin_now h]
    exact s.writes_invPerform d i key
  · rw [State.invBegin_waits h]
    exact s.writesIn_refl _

/-! ## The token of an invalidation (R212) -/

theorem State.xlu_xInvalidate (s : State) (d : Die) (c : Fin 3) (i : InvScope) (key : Option Nat) :
    (s.xInvalidate d c i key).xlu d =
      setNext (setTokens ((s.invBegin d i key).1.xlu d) c.val (chTokens ((s.invBegin d i key).1.xlu d) c.val ++
        [⟨chNext (s.xlu d) c.val, (s.invBegin d i key).2⟩])) c.val (add32 (chNext (s.xlu d) c.val) 1) :=
  (s.invBegin d i key).1.xlu_modXlu d (fun x => setNext (setTokens x c.val (chTokens x c.val ++
    [XToken.mk (chNext (s.xlu d) c.val) (s.invBegin d i key).2])) c.val (add32 (chNext (s.xlu d) c.val) 1))

theorem State.tokens_xInvalidate (s : State) (d : Die) (c : Fin 3) (i : InvScope) (key : Option Nat) :
    chTokens ((s.xInvalidate d c i key).xlu d) c.val =
      chTokens (s.xlu d) c.val ++ [⟨chNext (s.xlu d) c.val, (s.invBegin d i key).2⟩] := by
  rw [State.xlu_xInvalidate, chTokens_setNext, chTokens_setTokens, State.tokens_invBegin]

theorem State.cachesFree_xInvalidate (h : invWaits i (s.xlu d) = []) (c : Fin 3) (key : Option Nat) :
    cachesFree i ((s.xInvalidate d c i key).xlu d) := by
  rw [State.xlu_xInvalidate]
  obtain ⟨_, _, _, _, _, _, e⟩ := setNext_setTokens_eq ((s.invBegin d i key).1.xlu d) c.val _ _
  rw [e]
  exact State.cachesFree_invBegin h key

theorem State.spaces_xInvalidate (s : State) (d : Die) (c : Fin 3) (i : InvScope) (key : Option Nat) :
    ((s.xInvalidate d c i key).xlu d).spaces = ((s.invBegin d i key).1.xlu d).spaces := by
  rw [State.xlu_xInvalidate]
  obtain ⟨_, _, _, _, _, _, e⟩ := setNext_setTokens_eq ((s.invBegin d i key).1.xlu d) c.val _ _
  rw [e]

theorem State.xInvalidate_wf (hw : tblWf s.regs = true) : tblWf (s.xInvalidate d c i key).regs = true :=
  State.wr_wf _ _ _ _ ((s.writes_invBegin d i key).wf hw)

/-! ## The four invalidations (R211) -/

/-- A channel's invalidation has ended with OK: no translation that it names is left, or its token waits for the walks that could still
install one; the token is the channel's next. -/
def State.invalidated (s : State) (d : Die) (c : Fin 3) (i : InvScope) (t : State) : Prop :=
  t.rd d (XLU.X_STATUS.DONE c.val) = 1 ∧ t.rd d (XLU.X_STATUS.CODE c.val) = 0 ∧
    (invWaits i (s.xlu d) = [] → cachesFree i (t.xlu d)) ∧
    (invWaits i (s.xlu d) ≠ [] → ∀ k, (chTokens (t.xlu d) c.val).getLast? = some k → k.wait.walks = invWaits i (s.xlu d)) ∧
    (chTokens (t.xlu d) c.val).map (·.token) = (chTokens (s.xlu d) c.val).map (·.token) ++ [chNext (s.xlu d) c.val] ∧
    chNext (t.xlu d) c.val = (chNext (s.xlu d) c.val + 1) % 2 ^ 32

theorem State.invalidated_xEnd (hw : tblWf s.regs = true) : s.invalidated d c i ((s.xInvalidate d c i key).xEnd d c stOK 0) := by
  obtain ⟨done, code, -⟩ := State.rd_xEnd_ok (d := d) (c := c) (State.xInvalidate_wf (d := d) (c := c) (i := i) (key := key) hw)
  refine ⟨done, code, ?_⟩
  simp only [State.xlu_xEnd, State.tokens_xInvalidate]
  refine ⟨fun h => State.cachesFree_xInvalidate h c key, fun _ k hk => ?_, List.map_append, ?_⟩
  · rw [List.getLast?_concat, Option.some.injEq] at hk
    rw [← hk]
    exact s.walks_invBegin d i key
  · rw [State.xlu_xInvalidate, chNext_setNext]
    rfl

section
variable (h : s.xTakes rq d c) (he : s.xluEnabled d)
include h he

theorem Runs.xInvalidate (run : exec k s = .next (s.xCommand rq d c op act))
    (hu : act (s.xReady d c op) = .ok ((s.xReady d c op).xInvalidate d c i none)) : Runs k s (s.invalidated d c i) :=
  Runs.xCommand h he run hu (State.invalidated_xEnd (s := s.xReady d c op) (State.xReady_wf h.regs))

theorem Runs.invalidateSpace {sp : Space} (hs : tget (s.xlu d).spaces (s.xArg d c 0 % 65536) = some sp)
    (hf : s.foreign rq sp.owner.hp = false) :
    Runs (.invalidateSpace rq d c) s (s.invalidated d c (.space (s.xArg d c 0 % 65536))) := by
  refine Runs.xInvalidate h he rfl ?_
  simp [State.xInvSpace, bitsOf_zero, State.xArg_xReady h.regs, State.foreign_xReady h.regs, hs, hf]

/-- A range of more than 4,096 pages is performed as its whole space. -/
theorem Runs.invalidateRange_space {sp : Space} (h0 : s.xArg d c 0 % 65536 ≠ 0)
    (hs : tget (s.xlu d).spaces (s.xArg d c 0 % 65536) = some sp) (hf : s.foreign rq sp.owner.hp = false) :
    Runs (.invalidateRange rq d c) s (s.invalidated d c
      (if 4096 < (s.xArg d c 1 % 4096 + s.xArg d c 2 + 4095) / 4096 then .space (s.xArg d c 0 % 65536)
       else .range (.space (s.xArg d c 0 % 65536) sp.gen) (s.xArg d c 1) (s.xArg d c 2))) := by
  refine Runs.xInvalidate h he rfl ?_
  simp [State.xInvRange, State.xInvSpace, bitsOf_zero, State.xArg_xReady h.regs, State.foreign_xReady h.regs, h0, hs, hf]

/-- Space 0 names the ATS tag of a function. -/
theorem Runs.invalidateRange_ats {f : Fn} (h0 : s.xArg d c 0 % 65536 = 0) (hfn : argFn (bitsOf (s.xArg d c 0) 32 10) = f)
    (hf : s.foreign rq f.hp = false) (ho : s.fnOwns d f = true) :
    Runs (.invalidateRange rq d c) s (s.invalidated d c
      (if 4096 < (s.xArg d c 1 % 4096 + s.xArg d c 2 + 4095) / 4096 then .fn (fnIdx f) []
       else .range (.ats (fnIdx f) ((tget (s.xlu d).fnGen (fnIdx f)).getD 0)) (s.xArg d c 1) (s.xArg d c 2))) := by
  refine Runs.xInvalidate h he rfl ?_
  simp [State.xInvRange, bitsOf_zero, hfn, State.xArg_xReady h.regs, State.foreign_xReady h.regs, State.fnOwns_xReady h.regs, h0, hf, ho]

theorem Runs.invalidateFunction {f : Fn} (hfn : argFn (s.xArg d c 0) = f) (hf : s.foreign rq f.hp = false) (ho : s.fnOwns d f = true) :
    Runs (.invalidateFunction rq d c) s (s.invalidated d c (.fn (fnIdx f) (spacesOf (s.xlu d) f))) := by
  refine Runs.xInvalidate h he rfl ?_
  simp [State.xInvFn, hfn, State.xArg_xReady h.regs, State.foreign_xReady h.regs, State.fnOwns_xReady h.regs, hf, ho]

theorem Runs.invalidateAll (hp : s.privileged rq = true) : Runs (.invalidateAll rq d c) s (s.invalidated d c .all) := by
  refine Runs.xInvalidate h he rfl ?_
  simp [State.privileged_xReady h.regs, hp]

end

/-- Settles O37: each of the four begins one invalidation, which removes what it names or waits, and enters one token. -/
theorem invalidationsRemove : Obligations.InvalidationsRemove := by
  rintro s rq d c ⟨hw, -⟩ hbar hch hb hctrl hstatus
  have h : s.xTakes rq d c := ⟨hw, hbar, hch, hb⟩
  have he : s.xluEnabled d := ⟨hctrl, hstatus⟩
  exact ⟨fun sp h0 hs hf => ⟨Runs.invalidateSpace h he hs hf, Runs.invalidateRange_space h he h0 hs hf⟩,
    fun h0 hf ho => Runs.invalidateRange_ats h he h0 rfl hf ho, fun hf ho => Runs.invalidateFunction h he rfl hf ho,
    Runs.invalidateAll h he⟩

end Sys2Proof.Machine
end

section
/-! The objects of the XLU (O36): the spaces and regions that its commands enter and remove (07_translation.md R196 to R199, R212, R221). -/

set_option Elab.async false

namespace Sys2Proof.Machine

variable {s : State} {rq : Requester} {d : Die} {c : Fin 3} {op id n : Nat} {k : Instr} {act : State → Except (Nat × Nat) State}

/-! ## What a command's arguments say (R198, R220) -/

/-- The function, the kind of region and the space that the first argument of a command names (R220). -/
def State.xFn (s : State) (d : Die) (c : Fin 3) : Fn := argFn (s.xArg d c 0)
def State.xKind (s : State) (d : Die) (c : Fin 3) : Nat := bitsOf (s.xArg d c 0) 12 2
def State.xSpace (s : State) (d : Die) (c : Fin 3) : Nat := bitsOf (s.xArg d c 0) 32 16

/-- The space that CREATE_SPACE makes. -/
def State.spaceMade (s : State) (d : Die) (c : Fin 3) : Space :=
  ⟨s.xFn d c, (s.polderOf (s.xFn d c)).getD 0, bitsOf (s.xArg d c 0) 16 2, s.xArg d c 1, 0⟩

/-- The region that CREATE_REGION makes, at index `n` (R197, R198). -/
def State.regionMade (s : State) (d : Die) (c : Fin 3) (n : Nat) : Region where
  live := true
  gen := nextGen (s.xlu d).regions n
  owner := s.xFn d c
  polder := (s.polderOf (s.xFn d c)).getD 0
  kind := if s.xKind d c = 0 then .hostMapped else if s.xKind d c = 1 then .hostBus else .device
  rights := bitsOf (s.xArg d c 0) 16 5
  zeroBased := bitOf (s.xArg d c 0) 21
  vaBase := s.xArg d c 1
  length := s.xArg d c 2
  space := s.xSpace d c
  base := s.xArg d c 3
  wrote := false

/-- A command of the channel has ended with OK. -/
def xEnded (d : Die) (c : Fin 3) (t : State) : Prop := t.rd d (XLU.X_STATUS.DONE c.val) = 1 ∧ t.rd d (XLU.X_STATUS.CODE c.val) = 0 ∧
  t.rd d (XLU.X_STATUS.DETAIL c.val) = 0

/-! ## The commands (R199, R221) -/

section
variable (h : s.xTakes rq d c) (he : s.xluEnabled d)
include h he

/-- A command that changes the block's tables and returns a value. -/
theorem Runs.xEnters {m : Xlu → Xlu} {v : Nat} {R : Xlu → Prop} (run : exec k s = .next (s.xCommand rq d c op act))
    (hu : act (s.xReady d c op) = .ok (((s.xReady d c op).modXlu d m).wr d (XLU.X_RESULT.VALUE c.val) v)) (hR : R (m (s.xlu d))) :
    Runs k s (fun t => xEnded d c t ∧ t.rd d (XLU.X_RESULT.VALUE c.val) = v % 2 ^ 32 ∧ R (t.xlu d)) := by
  have regs : tblWf ((s.xReady d c op).modXlu d m).regs = true := State.xReady_wf (d := d) (c := c) (op := op) h.regs
  have wf := State.wr_wf _ d (XLU.X_RESULT.VALUE c.val) v regs
  refine Runs.xCommand h he run hu ⟨State.rd_xEnd_ok wf, ?_, ?_⟩
  · exact (State.rd_xEnd_result wf stOK 0).trans (State.rd_wr_same _ _ _ _ regs)
  · rw [State.xlu_xEnd, State.xlu_wr, State.xlu_modXlu]
    exact hR

theorem Runs.createSpace (hf : s.foreign rq (s.xFn d c).hp = false) (ho : s.fnOwns d (s.xFn d c) = true) (hal : s.xArg d c 1 % 4096 = 0)
    (hroot : s.xArg d c 1 < 2 ^ 57) (hk : freeKey (s.xlu d).spaces 65535 1 = some id) :
    Runs (.createSpace rq d c) s (fun t => xEnded d c t ∧ t.rd d (XLU.X_RESULT.VALUE c.val) = id % 2 ^ 32 ∧
      (t.xlu d).spaces = tput (s.xlu d).spaces id (s.spaceMade d c)) := by
  unfold State.xFn at hf ho
  have hroot := hroot.not_ge
  refine Runs.xEnters h he (act := State.xCreateSpace rq d c) (m := fun x => { x with spaces := tput x.spaces id (s.spaceMade d c) })
    (v := id) (R := fun x => x.spaces = tput (s.xlu d).spaces id (s.spaceMade d c)) rfl ?_ rfl
  simp only [State.xCreateSpace, State.xArg_xReady h.regs, State.foreign_xReady h.regs, State.fnOwns_xReady h.regs,
    State.polderOf_xReady h.regs, State.xlu_xReady, hf, ho, hal, hroot, hk, not_true_eq_false, false_or, ne_eq, Bool.not_true,
    Bool.false_eq_true, if_false]
  rfl

theorem Runs.createRegion (hf : s.foreign rq (s.xFn d c).hp = false) (ho : s.fnOwns d (s.xFn d c) = true) (h3 : s.xKind d c ≠ 3)
    (h0 : s.xKind d c ≠ 0 → s.xSpace d c = 0) (hs : s.xKind d c = 0 → if s.atsMode (s.xFn d c) then s.xSpace d c = 0 else
      ∃ x, tget (s.xlu d).spaces (s.xSpace d c) = some x ∧ x.owner = s.xFn d c)
    (hlen : 0 < s.xArg d c 2 ∧ s.xArg d c 2 ≤ 2 ^ 48) (hbase : s.xArg d c 3 < 2 ^ 57)
    (hn : freeRegion (s.xlu d).regions 1048576 0 = some n) : Runs (.createRegion rq d c) s (fun t => xEnded d c t ∧
      t.rd d (XLU.X_RESULT.VALUE c.val) = mkKey d n (nextGen (s.xlu d).regions n) % 2 ^ 32 ∧
      tget (t.xlu d).regions n = some (s.regionMade d c n)) := by
  have fields : ¬ (s.xKind d c = 3 ∨ s.xArg d c 2 = 0 ∨ 2 ^ 48 < s.xArg d c 2 ∨ 2 ^ 57 ≤ s.xArg d c 3 ∨
      (s.xKind d c ≠ 0 ∧ s.xSpace d c ≠ 0)) := by omega
  unfold State.xFn at hf ho hs
  unfold State.xKind State.xSpace at hs fields
  refine Runs.xEnters h he (act := State.xCreateRegion rq d c) (m := fun x => { x with regions := tput x.regions n (s.regionMade d c n) })
    (v := mkKey d n (nextGen (s.xlu d).regions n)) (R := fun x => tget x.regions n = some (s.regionMade d c n)) rfl ?_
    (tget_tput_same ..)
  simp only [State.xCreateRegion, State.xArg_xReady h.regs, State.foreign_xReady h.regs, State.fnOwns_xReady h.regs,
    State.polderOf_xReady h.regs, State.atsMode_xReady h.regs, State.xlu_xReady, hf, ho, if_neg fields, hn, Bool.not_true,
    Bool.false_eq_true, if_false]
  refine if_neg fun unfit => ?_
  rw [Bool.and_eq_true, beq_iff_eq] at unfit
  obtain ⟨hk, unfit⟩ := unfit
  have fits := hs hk
  split at unfit
  · next ats =>
    rw [if_pos ats] at fits
    simp [fits] at unfit
  · next pages =>
    rw [if_neg pages] at fits
    obtain ⟨x, hx, hown⟩ := fits
    simp [hx, hown] at unfit

theorem Runs.destroySpace (hw : tblWf (s.xlu d).spaces = true) {x : Space} (hx : tget (s.xlu d).spaces (s.xArg d c 0 % 65536) = some x)
    (hf : s.foreign rq x.owner.hp = false)
    (hr : ∀ r ∈ (s.xlu d).regions, ¬ (r.2.live = true ∧ r.2.kind = .hostMapped ∧ r.2.space = s.xArg d c 0 % 65536)) :
    Runs (.destroySpace rq d c) s (fun t => xEnded d c t ∧ tget (t.xlu d).spaces (s.xArg d c 0 % 65536) = none) := by
  let u := (s.xReady d c 2).xInvalidate d c (.space (s.xArg d c 0 % 65536)) none
  have unnamed : (s.xlu d).regions.any (fun r => r.2.live && r.2.kind == .hostMapped && r.2.space == s.xArg d c 0 % 65536) = false :=
    List.any_eq_false.mpr fun r hm => by simpa [and_assoc] using hr r hm
  have wf : tblWf u.regs = true := State.xInvalidate_wf (State.xReady_wf h.regs)
  refine Runs.xCommand h he (op := 2) (act := State.xDestroySpace rq d c)
    (u := u.modXlu d (fun x => { x with spaces := tdel x.spaces (s.xArg d c 0 % 65536) })) rfl ?_ ⟨State.rd_xEnd_ok wf, ?_⟩
  · simp [State.xDestroySpace, bitsOf_zero, State.xArg_xReady h.regs, State.foreign_xReady h.regs, hx, hf, unnamed, u]
  · rw [State.xlu_xEnd, State.xlu_modXlu]
    refine tget_tdel_same _ ?_
    rw [State.spaces_xInvalidate]
    exact State.spaces_invBegin (s := s.xReady d c 2) hw _ none

theorem Runs.destroyRegion {r : Region} (hr : s.region? d (s.xArg d c 0 % 2 ^ 32) = some r) (hf : s.foreign rq r.owner.hp = false) :
    Runs (.destroyRegion rq d c) s (fun t => xEnded d c t ∧
      ∀ r', tget (t.xlu d).regions (keyIndex (s.xArg d c 0 % 2 ^ 32)) = some r' → r'.live = false) := by
  let key := s.xArg d c 0 % 2 ^ 32
  let u := (s.xReady d c 4).xInvalidate d c
    (.range ((s.xReady d c 4).tagOf d r) r.vaBase (if r.kind = .hostMapped then r.length else 0)) (some key)
  have found : (s.xReady d c 4).region? d key = some r := hr
  have wf : tblWf u.regs = true := State.xInvalidate_wf (State.xReady_wf h.regs)
  refine Runs.xCommand h he (op := 4) (act := State.xDestroyRegion rq d c)
    (u := u.modXlu d (fun x => { x with regions := tmod x.regions (keyIndex key) (fun r => { r with live := false }) })) rfl ?_
    ⟨State.rd_xEnd_ok wf, fun r' hr' => ?_⟩
  · simp only [State.xDestroyRegion, bitsOf_zero, State.xArg_xReady h.regs, State.foreign_xReady h.regs, found, hf, Bool.false_eq_true,
      if_false, u, key]
  · rw [State.xlu_xEnd, State.xlu_modXlu] at hr'
    rw [tget_tmod, if_pos rfl, Option.map_eq_some_iff] at hr'
    obtain ⟨-, -, rfl⟩ := hr'
    rfl

end

/-- Settles O36: each command enters its object under the lowest free number, or takes it out while its translations are invalidated. -/
theorem spacesAndRegions : Obligations.SpacesAndRegions := by
  rintro s rq d c ⟨hw, -⟩ hbar hch hb hsp hreg
  have h : s.xTakes rq d c := ⟨hw, hbar, hch, hb⟩
  refine ⟨fun id he hf ho hal hroot hk => Runs.createSpace h he hf ho hal hroot hk,
    fun x he hx hf hr => Runs.destroySpace h he hsp hx hf hr,
    fun n he hf ho h3 h0 hs hl hl' hb hn => Runs.createRegion h he hf ho h3 h0 hs ⟨hl, hl'⟩ hb hn,
    fun r he hr hf => Runs.destroyRegion h he hr hf, fun he k hk => ?_⟩
  obtain ⟨op, act, run⟩ := exec_xCommand (List.mem_append_left [Instr.invalidateRange rq d c, .invalidateSpace rq d c,
    .invalidateFunction rq d c, .invalidateAll rq d c] hk) s
  exact Runs.xCommand_disabled h he run

end Sys2Proof.Machine
end

section
/-! What the end of a walk lets happen (for O38): the invalidations that waited for it are performed and those of a host answered
(07_translation.md R212 to R214), while the walk itself stands as it ended. -/

set_option Elab.async false

namespace Sys2Proof.Machine

variable {s t u : State} {d : Die} {c id : Nat} {w : Walk} {i : InvScope} {α β : Type}

/-! ## A walk that is over stands (R213) -/

/-- What an invalidation makes of a walk: one that could install a matching entry is to be discarded. -/
def walkMarked (i : InvScope) (w : Walk) : Walk := if walkMeets i w then { w with hit := true } else w

theorem walkMarked_over (h : w.fault.isSome = true) : walkMarked i w = w := by
  rw [walkMarked, walkMeets, Option.isNone_eq_false_iff.mpr h, Bool.false_and]
  rfl

theorem tget_map_values (g : α → β) (t : Tbl α) (x : Nat) : tget (t.map (fun p => (p.1, g p.2))) x = (tget t x).map g := by
  induction t with
  | nil => rfl
  | cons p t ih =>
    simp only [List.map_cons, tget, ih]
    split_ifs
    all_goals rfl

/-- A walk that has gone, or has ended in a fault, is found in `t` as in `s`. -/
structure State.walkStands (d : Die) (id : Nat) (s t : State) : Prop where
  stands : (∀ w, tget (s.xlu d).walks id = some w → w.fault.isSome = true) → tget (t.xlu d).walks id = tget (s.xlu d).walks id

theorem State.walkStands_of_walks (h : (t.xlu d).walks = (s.xlu d).walks) : s.walkStands d id t := ⟨fun _ => congrArg (tget · id) h⟩

theorem State.walkStands_refl (s : State) : s.walkStands d id s := State.walkStands_of_walks rfl

theorem State.walkStands.trans (h : s.walkStands d id t) (h' : t.walkStands d id u) : s.walkStands d id u :=
  ⟨fun hover => (h'.stands ((h.stands hover).symm ▸ hover)).trans (h.stands hover)⟩

theorem State.walkStands_foldl {g : State × β → α → State × β} (hg : ∀ (p : State × β) a, p.1.walkStands d id (g p a).1)
    (l : List α) (p : State × β) : p.1.walkStands d id (l.foldl g p).1 := by
  induction l generalizing p with
  | nil => exact p.1.walkStands_refl
  | cons a l ih => exact (hg p a).trans (ih _)

theorem State.walkStands_invPerform (s : State) (i : InvScope) (key : Option Nat) : s.walkStands d id (s.invPerform d i key).1 := by
  refine ⟨fun hover => ?_⟩
  obtain ⟨sp, g, e⟩ := bumpGens_eq i (invalidate i (s.xlu d))
  have marked : tget (((s.invPerform d i key).1).xlu d).walks id = (tget (s.xlu d).walks id).map (walkMarked i) := by
    rw [State.xlu_invPerform, e]
    exact tget_map_values (walkMarked i) (s.xlu d).walks id
  rw [marked]
  cases found : tget (s.xlu d).walks id with
  | none => rfl
  | some w => exact congrArg some (walkMarked_over (hover w found))

theorem State.walkStands_invStep (s : State) (n : Nat) (w : InvWait) : s.walkStands d id (State.invStep d n w s).1 := by
  unfold State.invStep
  split
  · exact s.walkStands_refl
  · split
    · exact s.walkStands_invPerform ..
    · exact s.walkStands_refl

/-! ## The end of a walk -/

/-- A token learns that walk `id` has ended. -/
def State.tokenLearns (d : Die) (id : Nat) (p : State × List XToken) (t : XToken) : State × List XToken :=
  ((State.invStep d id t.wait p.1).1, p.2 ++ [{ t with wait := (State.invStep d id t.wait p.1).2 }])

/-- The tokens of a channel learn it. -/
def State.channelLearns (d : Die) (id : Nat) (s : State) (c : Nat) : State :=
  let p := (chTokens (s.xlu d) c).foldl (State.tokenLearns d id) (s, [])
  p.1.modXlu d (fun x => setTokens x c p.2)

/-- An ATS invalidation learns it. -/
def State.requestLearns (d : Die) (id : Nat) (p : State × List (Fn × InvWait)) (a : Fn × InvWait) : State × List (Fn × InvWait) :=
  ((State.invStep d id a.2 p.1).1, p.2 ++ [(a.1, (State.invStep d id a.2 p.1).2)])

/-- The ATS invalidations of the die learn it. -/
def State.requestsLearn (d : Die) (id : Nat) (s : State) : State :=
  let p := (s.xlu d).atsInv.foldl (State.requestLearns d id) (s, [])
  p.1.modXlu d (fun x => { x with atsInv := p.2 })

theorem State.walkEnded_eq (s : State) (d : Die) (id : Nat) :
    s.walkEnded d id = ([0, 1, 2].foldl (State.channelLearns d id) s).requestsLearn d id := rfl

theorem walks_setTokens (x : Xlu) (c : Nat) (l : List XToken) : (setTokens x c l).walks = x.walks := by
  unfold setTokens
  split_ifs
  all_goals rfl

theorem State.walkStands_channelLearns (s : State) (n c : Nat) : s.walkStands d id (s.channelLearns d n c) := by
  have tokens := State.walkStands_foldl (g := State.tokenLearns d n) (fun p k => State.walkStands_invStep (d := d) (id := id) p.1 n k.wait)
    (chTokens (s.xlu d) c) (s, [])
  exact tokens.trans (State.walkStands_of_walks ((congrArg Xlu.walks (State.xlu_modXlu ..)).trans (walks_setTokens ..)))

theorem State.walkStands_requestsLearn (s : State) (n : Nat) : s.walkStands d id (s.requestsLearn d n) := by
  have requests := State.walkStands_foldl (g := State.requestLearns d n) (fun p a => State.walkStands_invStep (d := d) (id := id) p.1 n a.2)
    (s.xlu d).atsInv (s, [])
  exact requests.trans (State.walkStands_of_walks ((congrArg Xlu.walks (State.xlu_modXlu ..)).trans rfl))

theorem State.walkStands_walkEnded (s : State) (n : Nat) : s.walkStands d id (s.walkEnded d n) := by
  rw [State.walkEnded_eq]
  exact (((s.walkStands_channelLearns n 0).trans (State.walkStands_channelLearns _ n 1)).trans
    (State.walkStands_channelLearns _ n 2)).trans (State.walkStands_requestsLearn _ n)

theorem State.xlu_foldl_emit (g : α → Output) (l : List α) (s : State) : (l.foldl (fun s a => s.emit (g a)) s).xlu d = s.xlu d := by
  induction l generalizing s with
  | nil => rfl
  | cons a l ih => exact ih _

/-- Answering what is due changes the list of what is not. -/
theorem State.xlu_atsInvDone (s : State) (d : Die) : ∃ l, (s.atsInvDone d).xlu d = { s.xlu d with atsInv := l } := by
  unfold State.atsInvDone
  split
  · exact ⟨_, rfl⟩
  · apply Exists.intro
    rw [State.xlu_modXlu, State.xlu_foldl_emit (fun a : Fn × InvWait => .atsInvalidateDone a.1)]

theorem State.walkStands_atsInvDone (s : State) : s.walkStands d id (s.atsInvDone d) := by
  obtain ⟨l, e⟩ := s.xlu_atsInvDone d
  exact State.walkStands_of_walks (by rw [e])

/-! ### Where nothing waits for the walk -/

theorem State.modXlu_self {m : Xlu → Xlu} (h : m (s.xlu d) = s.xlu d) : s.modXlu d m = s := by
  have same : s.dies.set d { s.dies.get d with xlu := m (s.dies.get d).xlu } = s.dies := by
    rw [show m (s.dies.get d).xlu = (s.dies.get d).xlu from h]
    cases d
    all_goals rfl
  exact congrArg (fun p => { s with dies := p }) same

theorem State.invStep_idle {w : InvWait} (h : id ∉ w.walks) : State.invStep d id w s = (s, w) :=
  if_pos (by simpa using h)

theorem State.foldl_tokenLearns_idle (l done : List XToken) (h : ∀ k ∈ l, id ∉ k.wait.walks) :
    l.foldl (State.tokenLearns d id) (s, done) = (s, done ++ l) := by
  induction l generalizing done with
  | nil => rw [List.append_nil]; rfl
  | cons k l ih =>
    have step : State.tokenLearns d id (s, done) k = (s, done ++ [k]) := by
      rw [State.tokenLearns, State.invStep_idle (h k (List.mem_cons_self ..))]
    rw [List.foldl_cons, step, ih _ fun j hj => h j (List.mem_cons_of_mem _ hj), List.append_assoc]
    rfl

theorem setTokens_chTokens (x : Xlu) (c : Nat) : setTokens x c (chTokens x c) = x := by
  unfold setTokens chTokens
  split_ifs
  all_goals rfl

theorem State.channelLearns_idle (h : ∀ k ∈ chTokens (s.xlu d) c, id ∉ k.wait.walks) : s.channelLearns d id c = s := by
  rw [State.channelLearns, State.foldl_tokenLearns_idle _ _ h]
  exact State.modXlu_self (setTokens_chTokens ..)

theorem State.walkEnded_idle (h : ∀ c, c < 3 → ∀ k ∈ chTokens (s.xlu d) c, id ∉ k.wait.walks) (hi : (s.xlu d).atsInv = []) :
    s.walkEnded d id = s := by
  simp only [State.walkEnded_eq, List.foldl_cons, List.foldl_nil, State.channelLearns_idle (h 0 (by decide)),
    State.channelLearns_idle (h 1 (by decide)), State.channelLearns_idle (h 2 (by decide))]
  rw [State.requestsLearn, hi]
  show s.modXlu d (fun x => { x with atsInv := [] }) = s
  exact State.modXlu_self (by rw [← hi])

theorem State.atsInvDone_none (hi : (s.xlu d).atsInv = []) : s.atsInvDone d = s := by
  simp only [State.atsInvDone, hi, List.filter_nil]

end Sys2Proof.Machine
end

section
/-! Returns to the XLU (O38): page-table reads, ATS completions and invalidations, and the completion of tokens (07_translation.md R204 to
R207, R212 to R214). -/

set_option Elab.async false

namespace Sys2Proof.Machine

variable {s : State} {d : Die} {id : Nat} {w w' : Walk} {i : InvScope} {x : Xlu} {f : Fn}

/-! ## The step of a walk (R204, R205) -/

section
variable (hw : tget (s.xlu d).walks id = some w) (hf : w.fault = none)
include hw hf

theorem State.walkStep_over {pte : Option W64}
    (hover : ∀ w', tget ((s.walkReturn d id pte).xlu d).walks id = some w' → w'.fault.isSome = true) :
    s.walkStep d id pte = ((s.walkReturn d id pte).walkEnded d id).atsInvDone d := by
  cases found : tget ((s.walkReturn d id pte).xlu d).walks id with
  | none => simp [State.walkStep, hw, hf, found]
  | some w' => simp [State.walkStep, hw, hf, found, hover w' found]

/-- A walk that its read ends is over after all that its end lets happen. -/
theorem State.walk_walkStep_over {pte : Option W64} {o : Option Walk} (ended : tget ((s.walkReturn d id pte).xlu d).walks id = o)
    (hover : ∀ w', o = some w' → w'.fault.isSome = true) : tget ((s.walkStep d id pte).xlu d).walks id = o := by
  rw [State.walkStep_over hw hf (ended ▸ hover)]
  exact (((State.walkStands_walkEnded _ id).trans (State.walkStands_atsInvDone _)).stands (ended ▸ hover)).trans ended

omit hw hf in
theorem State.walkStep_goes_on {pte : Option W64} (goes : tget ((s.walkReturn d id pte).xlu d).walks id = some w') (hf : w'.fault = none) :
    s.walkStep d id pte = s.walkReturn d id pte := by
  simp [State.walkStep, goes, hf]

end

/-! ## What a page-table entry does -/

/-- The translation that a leaf gives a walk. -/
def leafOf (w : Walk) (p now : Nat) : TrEntry :=
  { tag := w.tag, va := w.va / 2 ^ levelShift w.level * 2 ^ levelShift w.level, size := 2 ^ levelShift w.level,
    target := p / 4096 % 2 ^ 45 * 4096, r := bitOf p 2, w := bitOf p 3, untranslated := false, wrote := false, level := 0, lastUse := now }

/-- The entry of the walk cache for the table that a walk has come to. -/
def tableOf (w : Walk) (p now : Nat) : TrEntry :=
  { tag := w.tag, va := w.va / 2 ^ levelShift w.level * 2 ^ levelShift w.level, size := 2 ^ levelShift w.level,
    target := p / 4096 % 2 ^ 45 * 4096, r := false, w := false, untranslated := false, wrote := false, level := w.level - 1,
    lastUse := now }

/-- The walk after an entry that names a table. -/
def Walk.descended (w : Walk) (p : Nat) : Walk := { w with level := w.level - 1, table := p / 4096 % 2 ^ 45 * 4096 }

/-- A demand walk that starts anew in its space. -/
def Walk.anew (w : Walk) (i : Nat) (sp : Space) : Walk :=
  { w with hit := false, discards := w.discards + 1, level := w.top, table := sp.root, tag := .space i sp.gen }

section
variable (hw : tget (s.xlu d).walks id = some w) (hf : w.fault = none)
include hw hf

theorem State.walkReturn_hit (hh : w.hit = true) (hs : w.spec = false) {j g : Nat} (ht : w.tag = .space j g) {sp : Space}
    (hsp : tget (s.xlu d).spaces j = some sp) (pte : Option W64) : s.walkReturn d id pte =
      ((s.bump d XLU.WALKS_DISCARDED.COUNT).modXlu d (fun x => { x with walks := tput x.walks id (w.anew j sp) })).hread w.owner
        (pteAddr (w.anew j sp)) 8 := by
  have space : tget ((s.bump d XLU.WALKS_DISCARDED.COUNT).xlu d).spaces j = some sp := hsp
  simp [State.walkReturn, hw, hf, hh, hs, ht, space, Walk.anew]

variable (hh : w.hit = false)
include hh

theorem State.walkReturn_poisoned : s.walkReturn d id none = s.walkFault d id w xPOISON := by
  simp [State.walkReturn, hw, hf, hh]

variable {p : W64}

theorem State.walkReturn_absent (hv : bitOf p.toNat 0 = false) : s.walkReturn d id (some p) = s.walkFault d id w xNOT_PRESENT := by
  simp [State.walkReturn, hw, hf, hh, hv]

variable (hv : bitOf p.toNat 0 = true)
include hv

theorem State.walkReturn_bad (hb : pteBad p.toNat w.level = true) : s.walkReturn d id (some p) = s.walkFault d id w xPTE_FORMAT := by
  simp [State.walkReturn, hw, hf, hh, hv, hb]

variable (hb : pteBad p.toNat w.level = false)
include hb

theorem State.walkReturn_leaf (hl : w.level = 0 ∨ bitOf p.toNat 1 = true) : s.walkReturn d id (some p) =
    let u := s.when w.spec (fun s => s.bump d XLU.SPEC_FILLS.COUNT)
    u.modXlu d (fun x => installTr { x with walks := tdel x.walks id } (u.rd d XLU.TLB_CAP.ENTRIES) (leafOf w p.toNat s.now)) := by
  simp [State.walkReturn, hw, hf, hh, hv, hb, hl, leafOf, bitsOf]

theorem State.walkReturn_table (hl : ¬ (w.level = 0 ∨ bitOf p.toNat 1 = true)) : s.walkReturn d id (some p) =
    (s.modXlu d (fun x => { x with
      walks := tput x.walks id (w.descended p.toNat)
      walkCache := walkCached x.walkCache (tableOf w p.toNat s.now) })).hread w.owner (pteAddr (w.descended p.toNat)) 8 := by
  simp [State.walkReturn, hw, hf, hh, hv, hb, hl, tableOf, Walk.descended, bitsOf]

end

/-! ## WALK_READ_RETURN -/

theorem installTr_eq (x : Xlu) (cap : Nat) (e : TrEntry) : ∃ tlb victim, installTr x cap e = { x with tlb := tlb, victim := victim } := by
  unfold installTr
  dsimp only
  split
  · exact ⟨_, _, rfl⟩
  · split
    · exact ⟨_, _, rfl⟩
    · exact ⟨_, _, rfl⟩

theorem walks_installTr (x : Xlu) (cap : Nat) (e : TrEntry) : (installTr x cap e).walks = x.walks := by
  obtain ⟨_, _, h⟩ := installTr_eq x cap e
  rw [h]

theorem ats_installTr (x : Xlu) (cap : Nat) (e : TrEntry) : (installTr x cap e).ats = x.ats := by
  obtain ⟨_, _, h⟩ := installTr_eq x cap e
  rw [h]

theorem State.xlu_when_bump (s : State) (d e : Die) (b : Bool) (g : Fld) : (s.when b (fun s => s.bump d g)).xlu e = s.xlu e := by
  cases b
  all_goals rfl

theorem State.out_hread (s : State) (f : Fn) (a n : Nat) : (s.hread f a n).out = s.out ++ [s.asked f a n] := rfl

section
variable (hw : tget (s.xlu d).walks id = some w) (hf : w.fault = none)
include hw hf

theorem Runs.walkReadReturn_fault {pte : Option W64} {reason : Nat} (ht : tblWf (s.xlu d).walks = true)
    (h : s.walkReturn d id pte = s.walkFault d id w reason) : Runs (.walkReadReturn d id pte) s (fun t =>
      tget (t.xlu d).walks id = if w.spec then none else some { w with fault := some reason }) := by
  refine .of_next (t := s.walkStep d id pte) rfl (State.walk_walkStep_over hw hf ?_ ?_)
  · rw [h, State.walkFault]
    split
    · rw [State.xlu_modXlu]
      exact tget_tdel_same id ht
    · rw [State.xlu_modXlu]
      exact tget_tput_same ..
  · intro w' e
    split at e
    · cases e
    · cases e
      rfl

variable (hh : w.hit = false) {p : W64} (hv : bitOf p.toNat 0 = true) (hb : pteBad p.toNat w.level = false)
include hh hv hb

theorem State.xlu_walkReturn_leaf (hs : tblWf s.regs = true) (hl : w.level = 0 ∨ bitOf p.toNat 1 = true) :
    (s.walkReturn d id (some p)).out = s.out ∧ (s.walkReturn d id (some p)).xlu d =
      installTr { s.xlu d with walks := tdel (s.xlu d).walks id } (s.rd d XLU.TLB_CAP.ENTRIES) (leafOf w p.toNat s.now) := by
  rw [State.walkReturn_leaf hw hf hh hv hb hl]
  refine ⟨?_, (State.xlu_modXlu ..).trans ?_⟩
  · cases w.spec
    all_goals rfl
  · cases w.spec with
    | false => rfl
    | true =>
      have cap : (s.bump d XLU.SPEC_FILLS.COUNT).rd d XLU.TLB_CAP.ENTRIES = s.rd d XLU.TLB_CAP.ENTRIES :=
        s.rd_wr_other _ hs (fkey_ne_of_off d (by decide) (by decide) (by decide))
      show installTr _ ((s.bump d XLU.SPEC_FILLS.COUNT).rd d XLU.TLB_CAP.ENTRIES) _ = _
      rw [cap]
      rfl

theorem Runs.walkReadReturn_leaf (hs : tblWf s.regs = true) (ht : tblWf (s.xlu d).walks = true)
    (hl : w.level = 0 ∨ bitOf p.toNat 1 = true) : Runs (.walkReadReturn d id (some p)) s (fun t => tget (t.xlu d).walks id = none) := by
  refine .of_next (t := s.walkStep d id (some p)) rfl (State.walk_walkStep_over hw hf ?_ nofun)
  rw [(State.xlu_walkReturn_leaf hw hf hh hv hb hs hl).2, walks_installTr]
  exact tget_tdel_same id ht

theorem Runs.walkReadReturn_installed (hs : tblWf s.regs = true) (ht : tblWf (s.xlu d).walks = true)
    (hl : w.level = 0 ∨ bitOf p.toNat 1 = true) (hi : (s.xlu d).atsInv = [])
    (hk : ∀ c, c < 3 → ∀ k ∈ chTokens (s.xlu d) c, id ∉ k.wait.walks) :
    Runs (.walkReadReturn d id (some p)) s (fun t => t.out = s.out ∧ t.xlu d =
      installTr { s.xlu d with walks := tdel (s.xlu d).walks id } (s.rd d XLU.TLB_CAP.ENTRIES) (leafOf w p.toNat s.now)) := by
  obtain ⟨out, xlu⟩ := State.xlu_walkReturn_leaf hw hf hh hv hb hs hl
  obtain ⟨tlb, victim, e⟩ := installTr_eq { s.xlu d with walks := tdel (s.xlu d).walks id } (s.rd d XLU.TLB_CAP.ENTRIES)
    (leafOf w p.toNat s.now)
  rw [e] at xlu ⊢
  have gone : tget ((s.walkReturn d id (some p)).xlu d).walks id = none := by
    rw [xlu]
    exact tget_tdel_same id ht
  have step : s.walkStep d id (some p) = s.walkReturn d id (some p) := by
    rw [State.walkStep_over hw hf (by rw [gone]; exact nofun), State.walkEnded_idle, State.atsInvDone_none]
    · rw [xlu]; exact hi
    · rw [xlu]; exact hk
    · rw [xlu]; exact hi
  exact .of_next (congrArg Host.Outcome.next step) ⟨out, xlu⟩

theorem Runs.walkReadReturn_table (hl : ¬ (w.level = 0 ∨ bitOf p.toNat 1 = true)) :
    Runs (.walkReadReturn d id (some p)) s (fun t => tget (t.xlu d).walks id = some (w.descended p.toNat) ∧
      t.out = s.out ++ [s.asked w.owner (pteAddr (w.descended p.toNat)) 8]) := by
  have ret := State.walkReturn_table hw hf hh hv hb hl
  have goes : tget ((s.walkReturn d id (some p)).xlu d).walks id = some (w.descended p.toNat) := by
    rw [ret, State.xlu_hread, State.xlu_modXlu]
    exact tget_tput_same ..
  refine .of_next (congrArg Host.Outcome.next (State.walkStep_goes_on goes hf)) ⟨goes, ?_⟩
  rw [ret]
  exact State.out_hread ..

omit hh hv hb in
/-- A demand walk that an invalidation met begins again, and its discard is counted. -/
theorem Runs.walkReadReturn_anew (hs : tblWf s.regs = true) (hh : w.hit = true) (hd : w.spec = false) {j g : Nat} (ht : w.tag = .space j g)
    {sp : Space} (hsp : tget (s.xlu d).spaces j = some sp) (pte : Option W64) :
    Runs (.walkReadReturn d id pte) s (fun t => tget (t.xlu d).walks id = some (w.anew j sp) ∧
      t.out = s.out ++ [s.asked w.owner (pteAddr (w.anew j sp)) 8]) := by
  have ret := State.walkReturn_hit hw hf hh hd ht hsp pte
  have goes : tget ((s.walkReturn d id pte).xlu d).walks id = some (w.anew j sp) := by
    rw [ret, State.xlu_hread, State.xlu_modXlu]
    exact tget_tput_same ..
  have counted : s.writesIn xluKeys (s.bump d XLU.WALKS_DISCARDED.COUNT) := s.writesIn_wr _ (xluKeys_fkey d (by decide) (by decide))
  refine .of_next (congrArg Host.Outcome.next (State.walkStep_goes_on goes hf)) ⟨goes, ?_⟩
  rw [ret, State.out_hread, ← counted.asked hs rfl rfl]
  rfl

end

/-! ## ATS_TRANSLATION_COMPLETION (R207) -/

theorem Runs.atsTranslationCompletion (ht : tblWf (s.xlu d).ats = true) {q : AtsReq} (hq : tget (s.xlu d).ats id = some q)
    (hf : q.fault = false) (a : W64) (n : Fin 64) (r w u bad : Bool) :
    Runs (.atsTranslationCompletion d id a n r w u bad) s (fun t => tget (t.xlu d).ats id =
      if (bad = true ∨ (r = false ∧ w = false)) ∧ q.spec = false then some { q with fault := true } else none) := by
  have gone := tget_tdel_same id ht
  refine .of_next (t := s.atsReturn d id a n r w u bad) rfl ?_
  by_cases refused : bad = true ∨ (r = false ∧ w = false)
  · have ret : s.atsReturn d id a n r w u bad = s.modXlu d (fun x =>
        { x with ats := if q.spec then tdel x.ats id else tput x.ats id { q with fault := true } }) := by
      simp [State.atsReturn, hq, hf, refused]
    rw [ret, State.xlu_modXlu]
    cases spec : q.spec with
    | true => simpa using gone
    | false => simp [refused]
  · rw [if_neg (fun h => refused h.1)]
    have accepted : (bad || (!r && !w)) = false := by simpa [imp_iff_not_or] using refused
    simp only [State.atsReturn, hq, hf, accepted, Bool.false_eq_true, if_false]
    split
    · rw [State.xlu_modXlu]
      exact gone
    · rw [State.xlu_modXlu, ats_installTr, State.xlu_when_bump]
      exact gone

/-! ## ATS_INVALIDATE_REQUEST (R214) -/

theorem fenceFns_none {gone : List TrEntry} (h : ∀ e ∈ gone, e.wrote = false) : fenceFns x d gone none = [] := by
  have unwritten : gone.filter (·.wrote) = [] := List.filter_eq_nil_iff.mpr fun e he => by simp [h e he]
  simp [fenceFns, unwritten]

/-- An invalidation that nothing outstanding was translated by. -/
theorem State.invPerform_free (hw : ∀ e ∈ Machine.removed i (s.xlu d), e.wrote = false)
    (hr : ∀ r ∈ s.reads, r.2.die = d → readMeets i (Machine.removed i (s.xlu d)) none r.2 = false) :
    s.invPerform d i none = (s.modXlu d (fun x => bumpGens i (invalidate i x)), []) := by
  have reads : s.reads.filter (fun r => r.2.die == d && readMeets i (Machine.removed i (s.xlu d)) none r.2) = [] :=
    List.filter_eq_nil_iff.mpr fun r hm => by simpa using hr r hm
  simp [State.invPerform, fenceFns_none hw, reads]

theorem State.ownPending_modXlu (s : State) (d : Die) (m : Xlu → Xlu) : (s.modXlu d m).ownPending = s.ownPending := by
  have same {γ : Type} (g : DieState → γ) (hg : ∀ x : DieState, g { x with xlu := m x.xlu } = g x) (e : Die) :
      g ((s.modXlu d m).die e) = g (s.die e) := State.die_modDie_congr g hg s d e
  have dmem := same (·.dmem) fun _ => rfl
  have hag : ∀ e, (s.modXlu d m).hag e = s.hag e := same (·.hag) fun _ => rfl
  simp only [State.ownPending, dmem, hag]

theorem State.out_atsInvDone {a : Fn × InvWait} (h : (s.xlu d).atsInv = [a]) (hd : s.invDone a.2 = true) :
    (s.atsInvDone d).out = s.out ++ [.atsInvalidateDone a.1] := by
  simp only [State.atsInvDone, h, List.filter_cons, hd, if_true, List.filter_nil]
  rfl

/-- What the invalidation that a request begins leaves, and how long it waits. -/
def State.atsBegun (s : State) (f : Fn) (i : InvScope) : State × InvWait :=
  (s.bump (fnDie f) XLU.ATS_INVALIDATIONS.COUNT).invBegin (fnDie f) i none

/-- The range that a request names, of the current tag of its function. -/
def State.atsScope (s : State) (f : Fn) (va : W64) (n : Fin 64) : InvScope :=
  .range (.ats (fnIdx f) ((tget (s.xlu (fnDie f)).fnGen (fnIdx f)).getD 0)) (va.toNat / 2 ^ max n.val 12 * 2 ^ max n.val 12)
    (2 ^ max n.val 12)

theorem exec_atsInvalidateRequest (va : W64) (n : Fin 64) (h : ((s.xlu (fnDie f)).atsInv.filter (fun a => a.1 == f)).length < 32) :
    exec (.atsInvalidateRequest f va n) s = .next (((s.atsBegun f (s.atsScope f va n)).1.modXlu (fnDie f) (fun x =>
      { x with atsInv := x.atsInv ++ [(f, (s.atsBegun f (s.atsScope f va n)).2)] })).atsInvDone (fnDie f)) :=
  congrArg Host.Outcome.next (if_neg (Nat.not_le.mpr h))

theorem Runs.atsInvalidateRequest (va : W64) (n : Fin 64) (h : ((s.xlu (fnDie f)).atsInv.filter (fun a => a.1 == f)).length < 32)
    (hw : invWaits (s.atsScope f va n) (s.xlu (fnDie f)) = []) : Runs (.atsInvalidateRequest f va n) s (fun t =>
      (∀ e ∈ (t.xlu (fnDie f)).tlb, invMatch (s.atsScope f va n) e.tag e.va e.size = false) ∧
      ((s.xlu (fnDie f)).atsInv = [] → (∀ e ∈ removed (s.atsScope f va n) (s.xlu (fnDie f)), e.wrote = false) →
        s.ownPending = false → (∀ r ∈ s.reads, r.2.die = fnDie f →
          readMeets (s.atsScope f va n) (removed (s.atsScope f va n) (s.xlu (fnDie f))) none r.2 = false) →
        t.out = s.out ++ [.atsInvalidateDone f])) := by
  let i := s.atsScope f va n
  let b := s.bump (fnDie f) XLU.ATS_INVALIDATIONS.COUNT
  refine .of_next (exec_atsInvalidateRequest va n h) ⟨?_, fun hi unwritten pending unread => ?_⟩
  · obtain ⟨l, e⟩ := State.xlu_atsInvDone ((s.atsBegun f i).1.modXlu (fnDie f) (fun x =>
      { x with atsInv := x.atsInv ++ [(f, (s.atsBegun f i).2)] })) (fnDie f)
    rw [e, State.xlu_modXlu]
    exact (State.cachesFree_invBegin (s := b) hw none).1
  · have begun : s.atsBegun f i = (b.modXlu (fnDie f) (fun x => bumpGens i (invalidate i x)), ⟨i, none, [], []⟩) := by
      rw [State.atsBegun, State.invBegin_now (s := b) hw, State.invPerform_free (s := b) unwritten unread]
    rw [begun]
    refine (State.out_atsInvDone (a := (f, ⟨i, none, [], []⟩)) ?_ ?_).trans rfl
    · obtain ⟨sp, g, e⟩ := bumpGens_eq i (invalidate i (b.xlu (fnDie f)))
      rw [State.xlu_modXlu, State.xlu_modXlu, e]
      exact congrArg (· ++ [_]) hi
    · have pending : b.ownPending = false := pending
      simp [State.invDone, State.ownPending_modXlu, pending]

theorem Runs.atsInvalidateRequest_full (va : W64) (n : Fin 64) (h : 32 ≤ ((s.xlu (fnDie f)).atsInv.filter (fun a => a.1 == f)).length) :
    Runs (.atsInvalidateRequest f va n) s (fun t => t = s) :=
  .of_next (congrArg Host.Outcome.next (if_pos h)) rfl

/-! ## TOKEN_COMPLETE (R212) -/

theorem Runs.tokenComplete (hs : tblWf s.regs = true) {c : Fin 3} {k : XToken} {rest : List XToken}
    (h : chTokens (s.xlu d) c.val = k :: rest) (hd : s.invDone k.wait = true) : Runs (.tokenComplete d c) s (fun t =>
      chTokens (t.xlu d) c.val = rest ∧ t.rd d (XLU.X_STATUS.BUSY c.val) = 0 ∧
      t.rd d (XLU.X_DONE_TOKEN.TOKEN c.val) = k.token % 2 ^ 32 ∧
      onlyFields [(d, XLU.X_STATUS.BUSY c.val), (d, XLU.X_DONE_TOKEN.TOKEN c.val)] s t) := by
  let u := s.modXlu d (fun x => setTokens x c.val rest)
  let v := u.wr d (XLU.X_DONE_TOKEN.TOKEN c.val) k.token
  have run : exec (.tokenComplete d c) s = .next (v.wr d (XLU.X_STATUS.BUSY c.val) 0) := by
    show execTokenComplete d c s = _
    simp [execTokenComplete, h, hd, v, u]
  have wf : tblWf v.regs = true := u.wr_wf _ _ _ hs
  have apart : fkey d (XLU.X_DONE_TOKEN.TOKEN c.val) ≠ fkey d (XLU.X_STATUS.BUSY c.val) :=
    fkey_ne_of_off d (by simp [XLU.X_DONE_TOKEN.TOKEN, XLU.X_STATUS.BUSY]) (by decide : 0 < 64) (by decide : 0 < 64)
  refine .of_next run ⟨?_, v.rd_wr_same _ _ _ wf, (v.rd_wr_other 0 wf apart).trans (u.rd_wr_same _ _ _ hs), ?_⟩
  · rw [State.xlu_wr, State.xlu_wr, State.xlu_modXlu, chTokens_setTokens]
  · have token : u.writesIn (keysOf [(d, XLU.X_STATUS.BUSY c.val), (d, XLU.X_DONE_TOKEN.TOKEN c.val)]) v :=
      u.writesIn_wr _ ⟨_, .tail _ (.head _), rfl⟩
    exact (token.wr ⟨_, .head _, rfl⟩).of_left.onlyFields hs

theorem Runs.tokenComplete_waits {c : Fin 3} {k : XToken} {rest : List XToken} (h : chTokens (s.xlu d) c.val = k :: rest)
    (hd : s.invDone k.wait = false) : Runs (.tokenComplete d c) s (fun t => t = s) := by
  refine .of_next (t := s) ?_ rfl
  show execTokenComplete d c s = _
  simp [execTokenComplete, h, hd]

/-- Settles O38: what a return does to its own walk, request or token stands through all that its end lets happen. -/
theorem translationReturns : Obligations.TranslationReturns := by
  rintro s d ⟨hs, -⟩ hwalks hats
  refine ⟨fun id w hw hf hh => ⟨?_, fun p hv => ?_, fun p hv hb => ?_, fun p hv hb hl => ?_, fun p hv hb hl hi hk => ?_,
      fun p hv hb hl => ?_⟩, fun id w i g sp pte hw hf hh hd ht hsp => ?_, fun id q a n r w u bad hq hf => ?_, ?_,
    fun c k rest h => ⟨Runs.tokenComplete hs h, Runs.tokenComplete_waits h⟩⟩
  · exact Runs.walkReadReturn_fault hw hf hwalks (State.walkReturn_poisoned hw hf hh)
  · exact Runs.walkReadReturn_fault hw hf hwalks (State.walkReturn_absent hw hf hh (by simp [bitOf, hv]))
  · exact Runs.walkReadReturn_fault hw hf hwalks (State.walkReturn_bad hw hf hh hv hb)
  · exact Runs.walkReadReturn_leaf hw hf hh hv hb hs hwalks hl
  · exact Runs.walkReadReturn_installed hw hf hh hv hb hs hwalks hl hi hk
  · exact Runs.walkReadReturn_table hw hf hh hv hb hl
  · exact Runs.walkReadReturn_anew hw hf hs hh hd ht hsp pte
  · exact Runs.atsTranslationCompletion hats hq hf a n r w u bad
  · rintro f va n rfl
    exact ⟨Runs.atsInvalidateRequest va n, Runs.atsInvalidateRequest_full va n⟩

end Sys2Proof.Machine
end
